-- ==== Sys2Proof/Word.lean ====
section
/-! DEFINITION. The word types of the NV-6451: a register is 64 bits (R6), a byte is 8, a flit is
512 (R82), a link-frame trailer and a routing header are 128 (R84, R119). -/

namespace Sys2Proof

/-- A register, or a word of a structure in memory (R5, R6). -/
abbrev Word := BitVec 64
/-- A byte of memory or of a stream. -/
abbrev Byte := BitVec 8

end Sys2Proof
end

