-- ==== Sys2Proof/Config.lean ====
section
/-! DEFINITION. What one chip fixes and the specification leaves open: constants and functions
without a body, so that nothing can be proved of their values. Each is named in a log entry. -/

namespace Sys2Proof

/-- The chip's identity, fused (R495). Log entry 5. -/
opaque Config.chipId : BitVec 64

/-- The random source of the Tack Room (R431): a fresh value at each draw. Log entry 6. -/
opaque Config.random : Nat → BitVec 512

/-- A value the specification leaves open after an operation that goes on: a fresh value at each
draw, of which nothing is known. Log entry 7. -/
opaque Config.freeValue : Nat → Nat

/-- The vendor's private root key, whose public key the Tack Room ROM holds (R411), and the per-signature value with which
the identity key was endorsed (R435). Neither is in the part. Log entry 9. -/
opaque Config.vendorSecret : Nat
opaque Config.vendorNonce : Nat

/-- The identity secret fuses as the part was made (R431), and the private identity key that the Warden derives from them
(R435). Log entry 9. -/
opaque Config.identitySecret : BitVec 512
opaque Config.deriveKey : BitVec 512 → Nat

end Sys2Proof
end

