-- ==== Sys2Proof/Machine/Bits.lean ====
section
/-! DEFINITION. Bit fields, byte order and saturation: the helpers every family reads and writes
its structures with (R4, R5, R6). -/

namespace Sys2Proof.Machine

/-- Bits [hi:lo] of `w`, as a number. -/
def fld {n : Nat} (w : BitVec n) (hi lo : Nat) : Nat := (w.toNat / 2 ^ lo) % 2 ^ (hi + 1 - lo)

/-- Bit `i` of `w`. -/
def bit {n : Nat} (w : BitVec n) (i : Nat) : Bool := w.getLsbD i

/-- The word whose bits [hi:lo] are ones and whose others are zeros. -/
def mask (n hi lo : Nat) : BitVec n := BitVec.ofNat n ((2 ^ (hi + 1 - lo) - 1) * 2 ^ lo)

/-- `w` with bits [hi:lo] replaced by the low bits of `v`. -/
def setFld {n : Nat} (w : BitVec n) (hi lo : Nat) (v : Nat) : BitVec n :=
  (w &&& ~~~(mask n hi lo)) ||| (BitVec.ofNat n ((v % 2 ^ (hi + 1 - lo)) * 2 ^ lo))

/-- `w` with bit `i` set to `b`. -/
def setBit {n : Nat} (w : BitVec n) (i : Nat) (b : Bool) : BitVec n :=
  setFld w i i (if b then 1 else 0)

/-- The word whose listed fields hold the given values and whose other bits are 0. -/
def mkWord (n : Nat) (fs : List (Nat × Nat × Nat)) : BitVec n :=
  fs.foldl (fun w f => setFld w f.1 f.2.1 f.2.2) 0#n

/-- A boolean as a one-bit number. -/
def b2n (b : Bool) : Nat := if b then 1 else 0

/-- A count in a field that saturates at `top`. -/
def satAdd (top a b : Nat) : Nat := if a + b ≤ top then a + b else top

/-- Field [hi:lo] of `w` with `v` added, saturating at all ones. -/
def satFld {n : Nat} (w : BitVec n) (hi lo v : Nat) : BitVec n :=
  setFld w hi lo (satAdd (2 ^ (hi + 1 - lo) - 1) (fld w hi lo) v)

/-- A number as a two's-complement integer of `n` bits. -/
def toSigned (n v : Nat) : Int := (BitVec.ofNat n v).toInt

/-- The low byte first: the bytes of `v`, `n` of them (R5). -/
def leBytes : Nat → Nat → List (BitVec 8)
  | 0, _ => []
  | n + 1, v => BitVec.ofNat 8 v :: leBytes n (v / 256)

/-- The number whose bytes are given, the low byte first (R5). -/
def ofLe : List (BitVec 8) → Nat
  | [] => 0
  | b :: bs => b.toNat + 256 * ofLe bs

/-- The bytes of `v`, `n` of them, the high byte first (R4). -/
def beBytes (n v : Nat) : List (BitVec 8) := (leBytes n v).reverse

/-- The number whose bytes are given, the high byte first (R4). -/
def ofBe (bs : List (BitVec 8)) : Nat := bs.foldl (fun a b => 256 * a + b.toNat) 0

/-- The little-endian 64-bit words of a byte string, the last padded with zeros (R5). -/
def wordsOf (n : Nat) (bs : List (BitVec 8)) : List Word :=
  (List.range n).map (fun i => BitVec.ofNat 64 (ofLe ((bs.drop (8 * i)).take 8)))

/-- The bytes of a sequence of words (R5). -/
def bytesOf (ws : List Word) : List (BitVec 8) := ws.flatMap (fun w => leBytes 8 w.toNat)

/-- The number of `b`-sized pieces that `a` needs. -/
def ceilDiv (a b : Nat) : Nat := (a + b - 1) / b

/-- The number of ones of a word. -/
def popcount {n : Nat} (w : BitVec n) : Nat := ((List.range n).filter (fun i => w.getLsbD i)).length

/-- The list with entry `i` changed by `f`. -/
def modAt {α : Type} (l : List α) (i : Nat) (f : α → α) : List α :=
  match l, i with
  | [], _ => []
  | a :: as, 0 => f a :: as
  | a :: as, i + 1 => a :: modAt as i f

/-- One step of a cyclic redundancy check, high bit first, of width `n`. -/
def crcBit (n : Nat) (poly crc : BitVec n) (b : Bool) : BitVec n :=
  if (crc.getMsbD 0 != b) then (crc <<< 1) ^^^ poly else crc <<< 1

/-- The cyclic redundancy check of a bit string, high bit first. -/
def crcBits (n : Nat) (poly init : BitVec n) (bs : List Bool) : BitVec n :=
  bs.foldl (crcBit n poly) init

/-- The bits of a number, high bit first. -/
def bitsMsb (n v : Nat) : List Bool := (List.range n).map (fun i => v.testBit (n - 1 - i))

/-- The bits of a number, low bit first. -/
def bitsLsb (n v : Nat) : List Bool := (List.range n).map (fun i => v.testBit i)

end Sys2Proof.Machine
end

