-- ==== Sys2Proof/Syntax.lean ====
section
/-! DEFINITION. The commands of the NV-6451: one constructor of `Instr` for each row of
spec/opcode_table.json, and the types their operands are made of. -/

namespace Sys2Proof

/-- A network port, P00 to P63 (R3). -/
abbrev Port := Fin 64
/-- A host link, H0 to H7 (R3). -/
abbrev HLink := Fin 8
/-- A stall, S0 to S15 (R3). -/
abbrev Stall := Fin 16
/-- A domain: 0 East, 1 West (R3). -/
abbrev Dom := Fin 2
/-- A reduction engine (R14). -/
abbrev Engine := Fin 8
/-- A virtual channel of a network port (R90). -/
abbrev VC := Fin 10

/-- A serial lane: network lane `l` of port `p`, or host lane `l` of link `h` (R80). -/
inductive LaneId where
  | net (p : Port) (l : Fin 4)
  | host (h : HLink) (l : Fin 16)
  deriving DecidableEq, Repr

/-- A unit with a link layer: a network port or a host link (R98). -/
inductive LinkId where
  | port (p : Port)
  | host (h : HLink)
  deriving DecidableEq, Repr

/-- Groom `g` of stall `s` (R15). -/
structure GroomId where
  s : Stall
  g : Fin 16
  deriving DecidableEq, Repr

/-- A register block of the device address space (R457, R485). -/
inductive Block where
  | tack
  | global
  | domain (d : Dom)
  | stall (s : Stall)
  | port (p : Port)
  | hostlink (h : HLink)
  | coll (e : Engine)
  | hitch (d : Dom)
  deriving DecidableEq, Repr

/-- A master of the device address space (R488): a host function on one link, a Steward or
the Warden. -/
inductive Master where
  | fn (link : HLink) (f : Fin 32)
  | steward (d : Dom)
  | warden
  deriving DecidableEq, Repr

/-- Sixty-four bytes of packet, and the poison mark that travels with them (R109). -/
structure Flit where
  bits : BitVec 512
  poison : Bool
  deriving DecidableEq, Repr

/-- Where a routing stage takes a header from: the input buffer of a port, or a stall's send
engine (R135). -/
inductive RouteSrc where
  | port (p : Port)
  | inject (s : Stall)
  deriving DecidableEq, Repr

/-- What a host link receives in HOST_LINK_PACKET: a packet as its lanes deliver it, with the lane of each code violation
in it; or code groups of some lanes, of which packets are made (R65 to R67). -/
inductive HostRx where
  | packet (bytes : List (BitVec 8)) (violations : List (Fin 16))
  | line (groups : List (Fin 16 × List (BitVec 10)))
  deriving DecidableEq, Repr

/-- What starts a link retrain (R103). -/
inductive RetrainTrigger where
  | laneLost (lane : Nat)     -- a lane in use loses cdr_lock, block_lock or deskewed
  | farNotice                 -- the far end sends a retrain notice, or an unannounced idle entry
  | widthChanged              -- width_max is changed
  | laneReturned (lane : Nat) -- a dropped lane returns to ACTIVE
  deriving DecidableEq, Repr

/-- The GRAVE conditions other than the thermal trip (R463). -/
inductive GraveKind where
  | regulator | reference | yard | fuse
  deriving DecidableEq, Repr

/-- How a step of a start ends (R447, R449): it is done, a stack has failed its test or its clearing, or a section of the
undercoat could not be applied. -/
inductive StepEnd where
  | done | stackFailed | notApplied
  deriving DecidableEq, Repr

/-- What a part of the domain reports of its store: the causes of a context-store failure (R371, R464), the errors that
ECC corrects (R463), and an uncorrectable error in a line of a context cache, which is a failure where the line is held
DIRTY (R464). -/
inductive StoreFailure where
  | protocol | directoryError | hbmUncorrectable | hitchInternal | cacheUncorrectable
  | hbmCorrected | cacheCorrected | cacheLine (line : Nat)
  deriving DecidableEq, Repr

/-- The requests of a context cache to its directory (R367). -/
inductive DirReq where
  | read | readForOwnership | upgrade | evict | store
  deriving DecidableEq, Repr

/-- The expiry of a watchdog: the time that passes before it, and the count at which it was last serviced. -/
structure Expiry where
  dt : Nat
  served : Nat
  deriving DecidableEq, Repr

/-- The end of a training frame: its status field, and the last symbol on the line. -/
structure FrameEnd where
  status : BitVec 16
  last : BitVec 2
  deriving DecidableEq, Repr

/-- The end of an exit burst: the network lane that took it, and its last symbol on the line. -/
structure BurstEnd where
  lane : Fin 4
  last : BitVec 2
  deriving DecidableEq, Repr

/-- The commands. Each constructor is one row of spec/opcode_table.json, in the table's order.
An operand `dt` of a time-driven row is the time, in counts of 1/16 ns, that passes before the
event (log entry 2); an operand `op`, `w`, `f` or `tf` is the model's handle of a started
command, a table walk, an initiator flow or a target flow (log entry 4). -/
inductive Instr where
  | vinAuxRise (vinMainAbove1V : Bool)
  | resetLRise
  | coldReset
  | tackRoomReady (dt : Nat) (vinMainAbove1V : Bool) (addr : BitVec 2)
  | mainPgRise
  | mainPgTimeout (dt : Nat)
  | regulatorsUp
  | startStepComplete (how : StepEnd)
  | startStepTimeout (dt : Nat) (west : Bool)
  | startRetry (dt : Nat)
  | mainPowerLost (vinMainAbove1V : Bool)
  | vinAuxLost
  | thermalTrip (sensor : Fin 24)
  | graveFault (kind : GraveKind) (unit : BitVec 8)
  | watchdogExpiry
  | paceInterval (dt : Nat) (east west : List (BitVec 16))
  | voltageLoopTick (dt : Nat) (tj : List (BitVec 8))
  | powerCapTick (dt : Nat) (watts : BitVec 16)
  | laneTrainStart (p : Port) (l : Fin 4)
  | trainingFrame (p : Port) (l : Fin 4) (control : BitVec 16) (rest : FrameEnd)
  | laneTrainStep (p : Port) (l : Fin 4) (inverted : Bool)
  | trainAttemptTimeout (lane : LaneId) (dt : Nat)
  | hostLaneTrainStart (h : HLink) (l : Fin 16)
  | hostTrainingSet (h : HLink) (l : Fin 16) (laneByte request status : BitVec 8)
  | hostLaneTrainStep (h : HLink) (l : Fin 16) (inverted : Bool)
  | electricalIdleEntry (p : Port) (l : Fin 4)
  | fastExit (p : Port) (l : Fin 4)
  | hostIdleEntry (h : HLink)
  | hostFastExit (h : HLink)
  | codewordReceived (p : Port) (l : Fin 4) (line : BitVec 5440)
  | injectBurst (lane : LaneId) (dt : Nat)
  | injectNow (lane : LaneId)
  | laneRetrain (lane : LaneId)
  | marginScanStart (lane : LaneId)
  | marginScanEnd (lane : LaneId) (dt : Nat) (disagreements : BitVec 32)
  | laneEyeRefresh (lane : LaneId) (dt : Nat) (eye : BitVec 48)
  | laneErrcntRead (lane : LaneId)
  | frameReceived (p : Port) (aligned : Bool) (trailer : BitVec 128) (flits : List (BitVec 512)) (erred : Bool)
  | nakRepeatTimer (l : LinkId) (dt : Nat)
  | replayTimeout (l : LinkId) (dt : Nat)
  | egressFrameStart (p : Port)
  | linkUpStart (l : LinkId) (dt : Nat)
  | helloReceived (p : Port)
  | helloTimeout (l : LinkId) (dt : Nat)
  | quarantineHello (p : Port) (dt : Nat)
  | hostHelloPeriodic (h : HLink) (dt : Nat)
  | linkRetrain (l : LinkId) (t : RetrainTrigger)
  | retrainLaneDrop (lane : LaneId) (dt : Nat)
  | retrainRepeat (l : LinkId) (dt : Nat)
  | retrainWindowExpiry (l : LinkId) (dt : Nat)
  | forceFence (l : LinkId)
  | llRetrain (l : LinkId)
  | llRehello (p : Port)
  | portDisable (p : Port)
  | idleDelayExpiry (l : LinkId) (dt : Nat)
  | hostLinkPacket (h : HLink) (rx : HostRx)
  | hostAckTimer (h : HLink) (dt : Nat)
  | hostCreditTimer (h : HLink) (dt : Nat)
  | hostLinkDisable (h : HLink)
  | routeHeader (src : RouteSrc) (vc : VC)
  | headerReevaluate (src : RouteSrc) (vc : VC)
  | beaconSend (p : Port) (dt : Nat)
  | beaconReceive (p : Port)
  | beaconExpiry (p : Port) (dt : Nat)
  | rtExcWrite (s : Stall) (i : Fin 4096) (value : BitVec 64)
  | dbell (h : HLink)
  | cwr (h : HLink)
  | crd (h : HLink)
  | cpld (h : HLink)
  | errrptWriteFailed (h : HLink)
  | errrptFunctionReset (h : HLink)
  | readTimeout (h : HLink) (rtag : Fin 4096) (dt : Nat)
  | readTagRelease (h : HLink) (rtag : Fin 4096) (dt : Nat)
  | writeHistoryExpiry (h : HLink) (wtag : BitVec 16) (dt : Nat)
  | ringFetch (queue : BitVec 20)
  | arbitrationRound (s : Stall)
  | nop (op : Nat)
  | put (op : Nat)
  | putInline (op : Nat)
  | get (op : Nat)
  | send (op : Nat)
  | sendInline (op : Nat)
  | atomic (op : Nat)
  | recvPost (op : Nat)
  | probe (op : Nat)
  | coll (op : Nat)
  | ctSet (op : Nat)
  | ctInc (op : Nat)
  | trig (op : Nat)
  | eqArm (op : Nat)
  | invalidate (op : Nat)
  | invalidateAck (s : Stall) (op : Nat)
  | ctxCreate (op : Nat)
  | ctxDestroy (op : Nat)
  | cqCreate (op : Nat)
  | cqDestroy (op : Nat)
  | eqCreate (op : Nat)
  | eqDestroy (op : Nat)
  | cqStop (d : Dom) (queue : BitVec 20)
  | cqStart (d : Dom) (queue : BitVec 20)
  | cqResume (d : Dom) (queue : BitVec 20)
  | cqAbort (d : Dom) (queue : BitVec 20)
  | cqFlush (d : Dom) (queue : BitVec 20)
  | cqAdminWrite (h : HLink) (value : BitVec 64)
  | walkRead (w : Nat)
  | mtCancel (d : Dom) (queue slot : BitVec 20)
  | packetReceive
  | packetInject (f : Nat)
  | ackReceive
  | nackReceive
  | getRspReceive
  | atomicRspReceive
  | ackDelayExpiry (tf : Nat) (dt : Nat)
  | rtoExpiry (f : Nat) (psn : BitVec 32) (dt : Nat)
  | flowIdleExpiry (initiator : Bool) (f : Nat) (dt : Nat)
  | collUpReceive (e : Engine)
  | collDownReceive (e : Engine)
  | collTimeout (e : Engine) (group : BitVec 16) (inst : BitVec 24) (dt : Nat)
  | clInstall (e : Engine) (group : BitVec 16)
  | clRemove (e : Engine) (group : BitVec 16)
  | clAbort (e : Engine) (group : BitVec 16)
  | clUnfence (e : Engine)
  | engineFenced (e : Engine)
  | runDispatch (g : GroomId) (completion : Bool)
  | alu (g : GroomId) (rd rs1 rs2 : BitVec 5) (fn : BitVec 11)
  | addi (g : GroomId) (rd rs1 : BitVec 5) (imm : BitVec 16)
  | andi (g : GroomId) (rd rs1 : BitVec 5) (imm : BitVec 16)
  | ori (g : GroomId) (rd rs1 : BitVec 5) (imm : BitVec 16)
  | xori (g : GroomId) (rd rs1 : BitVec 5) (imm : BitVec 16)
  | slti (g : GroomId) (rd rs1 : BitVec 5) (imm : BitVec 16)
  | sltiu (g : GroomId) (rd rs1 : BitVec 5) (imm : BitVec 16)
  | shi (g : GroomId) (rd rs1 : BitVec 5) (imm : BitVec 16)
  | lui (g : GroomId) (rd rs1 : BitVec 5) (imm : BitVec 16)
  | shori (g : GroomId) (rd rs1 : BitVec 5) (imm : BitVec 16)
  | ld (g : GroomId) (r base : BitVec 5) (size mark : BitVec 2) (off : BitVec 12)
  | st (g : GroomId) (r base : BitVec 5) (size mark : BitVec 2) (off : BitVec 12)
  | ldv (g : GroomId) (r base : BitVec 5) (size mark : BitVec 2) (off : BitVec 12)
  | stv (g : GroomId) (r base : BitVec 5) (size mark : BitVec 2) (off : BitVec 12)
  | amol (g : GroomId) (rd rs1 rs2 : BitVec 5) (fn : BitVec 11)
  | hamo (g : GroomId) (rd rs1 rs2 : BitVec 5) (fn : BitVec 11)
  | hlock (g : GroomId) (rd rs1 : BitVec 5) (imm : BitVec 16)
  | hunlock (g : GroomId) (rd rs1 : BitVec 5) (imm : BitVec 16)
  | beq (g : GroomId) (rs1 rs2 : BitVec 5) (off : BitVec 16)
  | bne (g : GroomId) (rs1 rs2 : BitVec 5) (off : BitVec 16)
  | blt (g : GroomId) (rs1 rs2 : BitVec 5) (off : BitVec 16)
  | bge (g : GroomId) (rs1 rs2 : BitVec 5) (off : BitVec 16)
  | bltu (g : GroomId) (rs1 rs2 : BitVec 5) (off : BitVec 16)
  | bgeu (g : GroomId) (rs1 rs2 : BitVec 5) (off : BitVec 16)
  | jal (g : GroomId) (off : BitVec 26)
  | jalr (g : GroomId) (rd rs1 : BitVec 5) (imm : BitVec 16)
  | issue (g : GroomId) (rd rs1 : BitVec 5) (imm : BitVec 16)
  | wfe (g : GroomId) (rd rs1 : BitVec 5) (imm : BitVec 16)
  | signal (g : GroomId) (rd rs1 : BitVec 5) (imm : BitVec 16)
  | fence (g : GroomId) (rd rs1 : BitVec 5) (imm : BitVec 16)
  | csrr (g : GroomId) (rd rs1 : BitVec 5) (imm : BitVec 16)
  | csrw (g : GroomId) (rd rs1 : BitVec 5) (imm : BitVec 16)
  | halt (g : GroomId) (rd rs1 : BitVec 5) (imm : BitVec 16)
  | runEnd (g : GroomId)
  | runTimeout (g : GroomId) (dt : Nat)
  | groomTimerEvent (g : GroomId) (dt : Nat)
  | groomReset (g : GroomId)
  | grResume (s : Stall)
  | groomFenced (g : GroomId)
  | directoryRequest (d : Dom) (cache : Fin 8) (req : DirReq) (line : Nat)
  | uncachedRead (d : Dom) (line : Nat)
  | uncachedWrite (d : Dom) (line : Nat) (mask : BitVec 64) (data : BitVec 512)
  | writeHint (d : Dom) (line : Nat) (data : BitVec 512) (target : Fin 8) (ready : Bool)
  | contextStoreFailure (d : Dom) (cause : StoreFailure) (agent : BitVec 8)
  | coherenceTimeout (d : Dom) (agent : BitVec 8) (dt : Nat)
  | stewardWatchdog (d : Dom) (expiry : Expiry)
  | domainRestartStep (d : Dom) (ok : Bool)
  | hitchAtomic (d : Dom) (addr : BitVec 64) (code : BitVec 11) (operand compare : BitVec 64)
  | hkAcquire (m : Master) (d : Dom) (n : BitVec 16)
  | hkTry (m : Master) (d : Dom) (n : BitVec 16)
  | hkRelease (m : Master) (d : Dom) (n : BitVec 16)
  | hkCancel (m : Master) (d : Dom) (n : BitVec 16)
  | timeSyncSend (p : Port) (dt : Nat)
  | timeSyncReceive (p : Port)
  | timeCandidateExpiry (p : Port) (dt : Nat)
  | ppsInEdge (dt : Nat)
  | ppsMissing (dt : Nat)
  | ppsOutPulse (dt : Nat)
  | timeExclusionChange (dt : Nat)
  | ntSeedArm (value : BitVec 64)
  | shaperRefill (dt : Nat)
  | gateEntryAdvance (p : Port) (dt : Nat)
  | gateSwitchRequest (p : Port) (value : BitVec 64)
  | gateSwitch (p : Port) (dt : Nat)
  | drainComplete
  | drainTimeout (dt : Nat)
  | epochSwitch (dt : Nat)
  | epochGraceEnd (dt : Nat)
  | mbClaimRead (m : Master)
  | mbClaimRelease (m : Master)
  | mbClaimLapse (dt : Nat)
  | nonceExpiry (dt : Nat)
  | getStatus
  | getNonce
  | attest
  | getIdentity
  | coatBegin
  | coatChunk
  | coatApply
  | coatInstall
  | stop
  | restart
  | domainFence
  | domainRestart
  | setPaceTarget
  | setPowerLimit
  | setThrottle
  | clearStarts
  | selectSlot
  | ownerEnrol
  | ownerRevoke
  | smbStatus (addr : BitVec 7)
  | smbAttest (addr : BitVec 7) (nonce : List (BitVec 8))
  | smbReport (addr : BitVec 7)
  | smbPart (addr : BitVec 7) (n : BitVec 8)
  | smbIdentity (addr : BitVec 7)
  | tackNoteClear (dt : Nat)
  | pmSnapshot (block : Block) (dt : Nat)
  | rcRead (m : Master) (addr : BitVec 64)
  | digestHiRead (m : Master) (addr : BitVec 64)
  | registerWrite (m : Master) (addr value : BitVec 64)
  | targetDelayExpiry (f : Nat) (psn : BitVec 32) (dt : Nat)
  | fastExitBurstReceived (p : Port) (burst : BurstEnd)
  | hostExitBurstReceived (h : HLink)
  | hostTlpStart (h : HLink)
  | checkerSynchronised (lane : LaneId) (bits : BitVec 256)
  deriving DecidableEq, Repr

end Sys2Proof
end

