-- ==== Sys2Proof/Machine/RegMap.lean ====
section
/-! DEFINITION. The registers of the NV-6451 (R498): one constructor of `Reg` for each register or
register array of the index, where it lies (R485), its fields with their access codes, and its
reset value, each from the register's own table. -/

namespace Sys2Proof.Machine

/-- The registers (R498). `ratBase none i` and `ratLimit none i` are the Tack Room's (R377). -/
inductive Reg where
  | paceStatus
  | laneCtrl (n : LaneId)
  | laneStatus (n : LaneId)
  | laneTxeq (n : LaneId)
  | laneRxeq (n : LaneId)
  | laneTest (n : LaneId)
  | laneUpatLo (n : LaneId)
  | laneUpatHi (n : LaneId)
  | laneErrcnt (n : LaneId)
  | laneBitcnt (n : LaneId)
  | laneLineerr (n : LaneId)
  | laneMargin (n : LaneId)
  | laneEye (n : LaneId)
  | llCtrl (l : LinkId)
  | llStatus (l : LinkId)
  | llCredit (p : Port)
  | llCreditHost (h : HLink)
  | llTimers (l : LinkId)
  | llErrcnt (l : LinkId)
  | llDiscard (l : LinkId)
  | llPeerId (l : LinkId)
  | llPeerInfo (l : LinkId)
  | llPeerDigestHi (l : LinkId)
  | llPeerDigestLo (l : LinkId)
  | rtCoord
  | rtTopo
  | rtOrder
  | rtCtrl
  | rtMap (p : Port)
  | rtCount (s : Stall)
  | rtExc (s : Stall) (i : Fin 4096)
  | hlCtrl (h : HLink)
  | hlStatus (h : HLink)
  | hlTimers (h : HLink)
  | hlMgmtEq (h : HLink)
  | hlFnPriv (h : HLink)
  | hlTlperr (h : HLink)
  | hrtBase (h : HLink) (i : Fin 64)
  | hrtLimit (h : HLink) (i : Fin 64)
  | cqCtrl (d : Dom)
  | cqQuery (d : Dom)
  | cqInfo (d : Dom)
  | cqProgress (d : Dom)
  | cqCount (d : Dom)
  | cqAdmin (h : HLink)
  | xlStatus (s : Stall)
  | xlFault (s : Stall)
  | xlFaultAddr (s : Stall)
  | xlMirror (d : Dom)
  | mtCount (s : Stall)
  | mtStatus (s : Stall)
  | mtPool (d : Dom)
  | mtCancel (d : Dom)
  | rmaCtrl (d : Dom)
  | flowPool (d : Dom)
  | rmaCount (s : Stall)
  | rmaErrcnt (s : Stall)
  | clCtrl (e : Engine)
  | clInstall (e : Engine)
  | clTable (e : Engine)
  | clStatus (e : Engine)
  | clCount (e : Engine)
  | grCtrl (s : Stall)
  | grStatus (s : Stall)
  | grCount (s : Stall)
  | grFault (s : Stall)
  | grFaultAddr (s : Stall)
  | grResume (s : Stall)
  | csCtrl (d : Dom)
  | csStatus (d : Dom)
  | csCount (d : Dom)
  | ratBase (r : Option Dom) (i : Fin 64)
  | ratLimit (r : Option Dom) (i : Fin 64)
  | hkStatus (d : Dom)
  | hkCount (d : Dom)
  | hkFncfg (d : Dom) (i : Fin 256)
  | hkLock (d : Dom) (n : BitVec 16)
  | ntNow
  | ntCtrl
  | ntSeed
  | ntStatus
  | ntOffset
  | egWeight (p : Port)
  | egShape (p : Port) (t : Fin 7)
  | egGateCtrl (p : Port)
  | egGateBase (p : Port) (b : Fin 2)
  | egGateSwitch (p : Port)
  | egGcl (p : Port) (b : Fin 2) (i : Fin 64)
  | coStatus
  | coSerial
  | coDigestHi
  | coDigestLo
  | rtEpoch
  | rtEpochAt
  | tkState
  | tkDustReason
  | tkPaceTarget
  | tkTherm
  | tkPower
  | tkSec
  | mbClaim
  | mbCmd
  | mbStatus
  | mbArg (i : Fin 4)
  | ftStatus (b : Block)
  | ftMask (b : Block)
  | ftIntr (b : Block)
  | ftCode (b : Block)
  | pmFixed (b : Block)
  | pmCnt (b : Block) (i : Fin 8)
  | pmGcnt (g : GroomId) (i : Fin 8)
  | pmSel (b : Block) (i : Fin 8)
  | pmGsel (g : GroomId) (i : Fin 8)
  | pmDump (b : Block)
  | pmSample (s : Stall)
  | tmBase (d : Dom) (i : Fin 16)
  | tmCtrl (d : Dom) (i : Fin 16)
  | idReg
  | chipId
  | caps
  | blkInfo (b : Block)
  deriving DecidableEq, Repr

/-- The access codes (R8). -/
inductive Acc where
  | ro | rw | w1c | w1s | rc | wo | sc | tw
  deriving DecidableEq, Repr

/-- Base of a block's window in the device address space (R485). -/
def blockBase : Block → Nat
  | .tack => 0
  | .global => 0x100000
  | .domain d => 0x1000000 + 0x1000000 * d.val
  | .stall s => 0x10000000 + 0x1000000 * s.val
  | .port p => 0x20000000 + 0x10000 * p.val
  | .hostlink h => 0x20400000 + 0x100000 * h.val
  | .coll e => 0x30000000 + 0x100000 * e.val
  | .hitch d => 0x40000000 + 0x1000000 * d.val

/-- Block type of R457. -/
def blockType : Block → Nat
  | .tack => 1
  | .global => 2
  | .domain _ => 3
  | .stall _ => 4
  | .port _ => 5
  | .hostlink _ => 6
  | .coll _ => 7
  | .hitch _ => 8

/-- Instance number of a block (R497). -/
def blockInst : Block → Nat
  | .tack => 0
  | .global => 0
  | .domain d => d.val
  | .stall s => s.val
  | .port p => p.val
  | .hostlink h => h.val
  | .coll e => e.val
  | .hitch d => d.val

/-- Domain of a block, or 0xFF (R497). -/
def blockDomain : Block → Nat
  | .tack => 0xFF
  | .global => 0xFF
  | .domain d => d.val
  | .stall s => s.val / 8
  | .port p => p.val / 32
  | .hostlink h => h.val / 4
  | .coll e => e.val / 4
  | .hitch d => d.val

/-- log2 of a block's window size (R497). -/
def blockLog2 : Block → Nat
  | .tack => 20
  | .global => 20
  | .domain _ => 24
  | .stall _ => 24
  | .port _ => 16
  | .hostlink _ => 20
  | .coll _ => 20
  | .hitch _ => 24

/-- The block that holds a lane's registers. -/
def laneBlock : LaneId → Block
  | .net p _ => .port p
  | .host h _ => .hostlink h

/-- Offset of a lane's register window in its block (R80, R498). -/
def laneBase : LaneId → Nat
  | .net _ l => 0x4000 + 0x100 * l.val
  | .host _ l => 0x40000 + 0x100 * l.val

/-- The block that holds a link's registers. -/
def linkBlock : LinkId → Block
  | .port p => .port p
  | .host h => .hostlink h

/-- Offset of a link's LL_ registers in its block (R111, R498). -/
def linkBase : LinkId → Nat
  | .port _ => 0x1000
  | .host _ => 0x10000

/-- The block of a region attribute table: a domain's, or the Tack Room's (R377). -/
def ratBlock : Option Dom → Block
  | some d => .domain d
  | none => .tack

/-- The block that holds a register (R498). -/
def Reg.block : Reg → Block
  | .paceStatus => .global
  | .laneCtrl n => laneBlock n
  | .laneStatus n => laneBlock n
  | .laneTxeq n => laneBlock n
  | .laneRxeq n => laneBlock n
  | .laneTest n => laneBlock n
  | .laneUpatLo n => laneBlock n
  | .laneUpatHi n => laneBlock n
  | .laneErrcnt n => laneBlock n
  | .laneBitcnt n => laneBlock n
  | .laneLineerr n => laneBlock n
  | .laneMargin n => laneBlock n
  | .laneEye n => laneBlock n
  | .llCtrl l => linkBlock l
  | .llStatus l => linkBlock l
  | .llCredit p => .port p
  | .llCreditHost h => .hostlink h
  | .llTimers l => linkBlock l
  | .llErrcnt l => linkBlock l
  | .llDiscard l => linkBlock l
  | .llPeerId l => linkBlock l
  | .llPeerInfo l => linkBlock l
  | .llPeerDigestHi l => linkBlock l
  | .llPeerDigestLo l => linkBlock l
  | .rtCoord => .global
  | .rtTopo => .global
  | .rtOrder => .global
  | .rtCtrl => .global
  | .rtMap p => .port p
  | .rtCount s => .stall s
  | .rtExc s _ => .stall s
  | .hlCtrl h => .hostlink h
  | .hlStatus h => .hostlink h
  | .hlTimers h => .hostlink h
  | .hlMgmtEq h => .hostlink h
  | .hlFnPriv h => .hostlink h
  | .hlTlperr h => .hostlink h
  | .hrtBase h _ => .hostlink h
  | .hrtLimit h _ => .hostlink h
  | .cqCtrl d => .domain d
  | .cqQuery d => .domain d
  | .cqInfo d => .domain d
  | .cqProgress d => .domain d
  | .cqCount d => .domain d
  | .cqAdmin h => .hostlink h
  | .xlStatus s => .stall s
  | .xlFault s => .stall s
  | .xlFaultAddr s => .stall s
  | .xlMirror d => .domain d
  | .mtCount s => .stall s
  | .mtStatus s => .stall s
  | .mtPool d => .domain d
  | .mtCancel d => .domain d
  | .rmaCtrl d => .domain d
  | .flowPool d => .domain d
  | .rmaCount s => .stall s
  | .rmaErrcnt s => .stall s
  | .clCtrl e => .coll e
  | .clInstall e => .coll e
  | .clTable e => .coll e
  | .clStatus e => .coll e
  | .clCount e => .coll e
  | .grCtrl s => .stall s
  | .grStatus s => .stall s
  | .grCount s => .stall s
  | .grFault s => .stall s
  | .grFaultAddr s => .stall s
  | .grResume s => .stall s
  | .csCtrl d => .domain d
  | .csStatus d => .domain d
  | .csCount d => .domain d
  | .ratBase r _ => ratBlock r
  | .ratLimit r _ => ratBlock r
  | .hkStatus d => .hitch d
  | .hkCount d => .hitch d
  | .hkFncfg d _ => .hitch d
  | .hkLock d _ => .hitch d
  | .ntNow => .global
  | .ntCtrl => .global
  | .ntSeed => .global
  | .ntStatus => .global
  | .ntOffset => .global
  | .egWeight p => .port p
  | .egShape p _ => .port p
  | .egGateCtrl p => .port p
  | .egGateBase p _ => .port p
  | .egGateSwitch p => .port p
  | .egGcl p _ _ => .port p
  | .coStatus => .global
  | .coSerial => .global
  | .coDigestHi => .global
  | .coDigestLo => .global
  | .rtEpoch => .global
  | .rtEpochAt => .global
  | .tkState => .tack
  | .tkDustReason => .tack
  | .tkPaceTarget => .tack
  | .tkTherm => .tack
  | .tkPower => .tack
  | .tkSec => .tack
  | .mbClaim => .global
  | .mbCmd => .global
  | .mbStatus => .global
  | .mbArg _ => .global
  | .ftStatus b => b
  | .ftMask b => b
  | .ftIntr b => b
  | .ftCode b => b
  | .pmFixed b => b
  | .pmCnt b _ => b
  | .pmGcnt g _ => .stall g.s
  | .pmSel b _ => b
  | .pmGsel g _ => .stall g.s
  | .pmDump b => b
  | .pmSample s => .stall s
  | .tmBase d _ => .domain d
  | .tmCtrl d _ => .domain d
  | .idReg => .global
  | .chipId => .global
  | .caps => .global
  | .blkInfo b => b

/-- Offset of a register in its block (R498). -/
def Reg.off : Reg → Nat
  | .paceStatus => 0x300
  | .laneCtrl n => laneBase n + 0x00
  | .laneStatus n => laneBase n + 0x08
  | .laneTxeq n => laneBase n + 0x10
  | .laneRxeq n => laneBase n + 0x18
  | .laneTest n => laneBase n + 0x20
  | .laneUpatLo n => laneBase n + 0x28
  | .laneUpatHi n => laneBase n + 0x30
  | .laneErrcnt n => laneBase n + 0x38
  | .laneBitcnt n => laneBase n + 0x40
  | .laneLineerr n => laneBase n + 0x48
  | .laneMargin n => laneBase n + 0x50
  | .laneEye n => laneBase n + 0x58
  | .llCtrl l => linkBase l + 0x00
  | .llStatus l => linkBase l + 0x08
  | .llCredit _ => 0x1010
  | .llCreditHost _ => 0x10010
  | .llTimers l => linkBase l + 0x18
  | .llErrcnt l => linkBase l + 0x20
  | .llDiscard l => linkBase l + 0x28
  | .llPeerId l => linkBase l + 0x30
  | .llPeerInfo l => linkBase l + 0x38
  | .llPeerDigestHi l => linkBase l + 0x40
  | .llPeerDigestLo l => linkBase l + 0x48
  | .rtCoord => 0x400
  | .rtTopo => 0x408
  | .rtOrder => 0x410
  | .rtCtrl => 0x418
  | .rtMap _ => 0x2000
  | .rtCount _ => 0x1000
  | .rtExc _ i => 0x10000 + 8 * i.val
  | .hlCtrl _ => 0x20000
  | .hlStatus _ => 0x20008
  | .hlTimers _ => 0x20010
  | .hlMgmtEq _ => 0x20018
  | .hlFnPriv _ => 0x20020
  | .hlTlperr _ => 0x20028
  | .hrtBase _ i => 0x30000 + 16 * i.val
  | .hrtLimit _ i => 0x30008 + 16 * i.val
  | .cqCtrl _ => 0x3000
  | .cqQuery _ => 0x3008
  | .cqInfo _ => 0x3010
  | .cqProgress _ => 0x3018
  | .cqCount _ => 0x3020
  | .cqAdmin _ => 0x50000
  | .xlStatus _ => 0x2000
  | .xlFault _ => 0x2008
  | .xlFaultAddr _ => 0x2010
  | .xlMirror _ => 0x4000
  | .mtCount _ => 0x3000
  | .mtStatus _ => 0x3008
  | .mtPool _ => 0x5000
  | .mtCancel _ => 0x5008
  | .rmaCtrl _ => 0x6000
  | .flowPool _ => 0x6008
  | .rmaCount _ => 0x4000
  | .rmaErrcnt _ => 0x4008
  | .clCtrl _ => 0x0000
  | .clInstall _ => 0x0008
  | .clTable _ => 0x0010
  | .clStatus _ => 0x0018
  | .clCount _ => 0x0020
  | .grCtrl _ => 0x5000
  | .grStatus _ => 0x5008
  | .grCount _ => 0x5010
  | .grFault _ => 0x5018
  | .grFaultAddr _ => 0x5020
  | .grResume _ => 0x5028
  | .csCtrl _ => 0x7000
  | .csStatus _ => 0x7008
  | .csCount _ => 0x7010
  | .ratBase _ i => 0x8000 + 16 * i.val
  | .ratLimit _ i => 0x8008 + 16 * i.val
  | .hkStatus _ => 0x0000
  | .hkCount _ => 0x0008
  | .hkFncfg _ i => 0x1000 + 8 * i.val
  | .hkLock _ n => 0x100000 + 8 * n.toNat
  | .ntNow => 0x500
  | .ntCtrl => 0x508
  | .ntSeed => 0x510
  | .ntStatus => 0x518
  | .ntOffset => 0x520
  | .egWeight _ => 0x3000
  | .egShape _ t => 0x3008 + 8 * t.val
  | .egGateCtrl _ => 0x3040
  | .egGateBase _ b => 0x3048 + 8 * b.val
  | .egGateSwitch _ => 0x3058
  | .egGcl _ b i => 0x3200 + 0x200 * b.val + 8 * i.val
  | .coStatus => 0x600
  | .coSerial => 0x608
  | .coDigestHi => 0x610
  | .coDigestLo => 0x618
  | .rtEpoch => 0x620
  | .rtEpochAt => 0x628
  | .tkState => 0x0000
  | .tkDustReason => 0x0008
  | .tkPaceTarget => 0x0010
  | .tkTherm => 0x0018
  | .tkPower => 0x0020
  | .tkSec => 0x0028
  | .mbClaim => 0x1000
  | .mbCmd => 0x1008
  | .mbStatus => 0x1010
  | .mbArg i => 0x1018 + 8 * i.val
  | .ftStatus _ => 0xF000
  | .ftMask _ => 0xF008
  | .ftIntr _ => 0xF010
  | .ftCode _ => 0xF018
  | .pmFixed _ => 0xE000
  | .pmCnt _ i => 0xE080 + 8 * i.val
  | .pmGcnt g i => 0xE800 + 64 * g.g.val + 8 * i.val
  | .pmSel _ i => 0xE040 + 8 * i.val
  | .pmGsel g i => 0xE400 + 64 * g.g.val + 8 * i.val
  | .pmDump _ => 0xE010
  | .pmSample _ => 0xE018
  | .tmBase _ i => 0x9000 + 16 * i.val
  | .tmCtrl _ i => 0x9008 + 16 * i.val
  | .idReg => 0x0000
  | .chipId => 0x0008
  | .caps => 0x0010
  | .blkInfo _ => 0xFFF0

/-- Address of a register in the device address space (R485). -/
def Reg.addr (r : Reg) : Nat := blockBase r.block + r.off

/-- A field of a register: bits [hi:lo] and the access code. Bits of no field are reserved (R7). -/
structure RegField where
  hi : Nat
  lo : Nat
  acc : Acc
  deriving DecidableEq, Repr

/-- The fields of a register. In TACK every writable field is TW (R462, R484). A field that a register's table
keeps for units of another kind reads 0 and ignores writes (R80, R111); the HK_FNCFG entries with f = 31 are
reserved (R390). -/
def Reg.fields : Reg → List RegField
  | .paceStatus => [⟨49, 49, .w1c⟩, ⟨48, 48, .w1c⟩, ⟨47, 32, .ro⟩, ⟨31, 16, .ro⟩, ⟨15, 0, .ro⟩]
  | .laneCtrl (.net _ _) => [⟨12, 12, .rw⟩, ⟨11, 11, .rw⟩, ⟨10, 10, .rw⟩, ⟨9, 7, .rw⟩,
      ⟨6, 6, .rw⟩, ⟨5, 5, .rw⟩, ⟨4, 4, .sc⟩, ⟨3, 3, .rw⟩]
  | .laneCtrl (.host _ _) => [⟨12, 12, .rw⟩, ⟨11, 11, .ro⟩, ⟨10, 10, .rw⟩, ⟨9, 7, .rw⟩, ⟨6, 6, .rw⟩,
      ⟨5, 5, .rw⟩, ⟨4, 4, .sc⟩, ⟨3, 3, .rw⟩]
  | .laneStatus _ => [⟨19, 16, .ro⟩, ⟨15, 15, .w1c⟩, ⟨14, 14, .ro⟩, ⟨13, 13, .ro⟩,
      ⟨12, 12, .ro⟩, ⟨11, 11, .ro⟩, ⟨10, 10, .ro⟩, ⟨9, 9, .ro⟩, ⟨8, 8, .ro⟩, ⟨7, 4, .ro⟩,
      ⟨3, 0, .ro⟩]
  | .laneTxeq (.net _ _) => [⟨32, 32, .rw⟩, ⟨31, 26, .rw⟩, ⟨25, 20, .rw⟩, ⟨19, 14, .ro⟩, ⟨13, 8, .ro⟩,
      ⟨7, 0, .ro⟩]
  | .laneTxeq (.host _ _) => [⟨32, 32, .rw⟩, ⟨31, 26, .ro⟩, ⟨25, 20, .rw⟩, ⟨19, 14, .ro⟩, ⟨13, 8, .ro⟩,
      ⟨7, 0, .ro⟩]
  | .laneRxeq _ => [⟨36, 32, .rw⟩, ⟨23, 16, .ro⟩, ⟨11, 8, .ro⟩]
  | .laneTest _ => [⟨23, 16, .rw⟩, ⟨15, 10, .rw⟩, ⟨9, 9, .sc⟩, ⟨8, 8, .ro⟩, ⟨7, 7, .rw⟩,
      ⟨6, 4, .rw⟩]
  | .laneUpatLo _ => [⟨63, 0, .rw⟩]
  | .laneUpatHi _ => [⟨15, 0, .rw⟩]
  | .laneErrcnt _ => [⟨63, 63, .rc⟩, ⟨47, 0, .rc⟩]
  | .laneBitcnt _ => [⟨63, 63, .ro⟩, ⟨47, 0, .ro⟩]
  | .laneLineerr _ => [⟨63, 32, .rc⟩, ⟨31, 0, .rc⟩]
  | .laneMargin _ => [⟨63, 63, .sc⟩, ⟨62, 62, .ro⟩, ⟨57, 56, .rw⟩, ⟨55, 48, .rw⟩, ⟨47, 40, .rw⟩,
      ⟨39, 36, .rw⟩, ⟨31, 0, .ro⟩]
  | .laneEye _ => [⟨47, 40, .ro⟩, ⟨39, 32, .ro⟩, ⟨31, 24, .ro⟩, ⟨23, 16, .ro⟩, ⟨15, 8, .ro⟩,
      ⟨7, 0, .ro⟩]
  | .llCtrl (.port _) => [⟨27, 24, .rw⟩, ⟨22, 20, .rw⟩, ⟨5, 5, .rw⟩, ⟨4, 4, .sc⟩, ⟨3, 3, .sc⟩,
      ⟨2, 2, .rw⟩, ⟨1, 1, .rw⟩, ⟨0, 0, .rw⟩]
  | .llCtrl (.host _) => [⟨27, 24, .rw⟩, ⟨22, 20, .rw⟩, ⟨5, 5, .rw⟩, ⟨4, 4, .ro⟩, ⟨3, 3, .sc⟩, ⟨2, 2, .ro⟩,
      ⟨1, 1, .rw⟩, ⟨0, 0, .rw⟩]
  | .llStatus (.port _) => [⟨52, 40, .ro⟩, ⟨39, 32, .rc⟩, ⟨31, 20, .rc⟩, ⟨19, 16, .ro⟩,
      ⟨15, 11, .ro⟩, ⟨7, 7, .w1c⟩, ⟨6, 6, .w1c⟩, ⟨5, 5, .w1c⟩, ⟨4, 4, .ro⟩, ⟨3, 0, .ro⟩]
  | .llStatus (.host _) => [⟨52, 40, .ro⟩, ⟨39, 32, .rc⟩, ⟨31, 20, .ro⟩, ⟨19, 16, .ro⟩, ⟨15, 11, .ro⟩, ⟨7, 7, .ro⟩,
      ⟨6, 6, .ro⟩, ⟨5, 5, .w1c⟩,
      ⟨4, 4, .w1c⟩, ⟨3, 0, .ro⟩]
  | .llCredit _ => [⟨63, 52, .rw⟩, ⟨51, 40, .rw⟩, ⟨39, 32, .rw⟩, ⟨31, 24, .rw⟩, ⟨23, 16, .rw⟩]
  | .llCreditHost _ => [⟨63, 52, .rw⟩, ⟨51, 36, .rw⟩, ⟨35, 24, .rw⟩, ⟨23, 8, .rw⟩]
  | .llTimers _ => [⟨51, 32, .rw⟩, ⟨31, 20, .rw⟩, ⟨19, 0, .rw⟩]
  | .llErrcnt _ => [⟨63, 48, .rc⟩, ⟨47, 32, .rc⟩, ⟨31, 16, .rc⟩, ⟨15, 0, .rc⟩]
  | .llDiscard _ => [⟨63, 32, .rc⟩, ⟨31, 0, .rc⟩]
  | .llPeerId _ => [⟨63, 0, .ro⟩]
  | .llPeerInfo _ => [⟨63, 48, .ro⟩, ⟨47, 42, .ro⟩, ⟨41, 38, .ro⟩, ⟨37, 36, .ro⟩, ⟨35, 29, .ro⟩,
      ⟨0, 0, .ro⟩]
  | .llPeerDigestHi _ => [⟨63, 0, .ro⟩]
  | .llPeerDigestLo _ => [⟨63, 0, .ro⟩]
  | .rtCoord => [⟨63, 63, .ro⟩, ⟨15, 0, .ro⟩]
  | .rtTopo => [⟨31, 28, .ro⟩, ⟨27, 24, .ro⟩, ⟨23, 20, .ro⟩, ⟨19, 16, .ro⟩, ⟨15, 12, .ro⟩,
      ⟨11, 8, .ro⟩, ⟨7, 4, .ro⟩, ⟨3, 0, .ro⟩]
  | .rtOrder => [⟨15, 8, .ro⟩, ⟨7, 0, .ro⟩]
  | .rtCtrl => [⟨47, 42, .rw⟩, ⟨35, 32, .rw⟩, ⟨31, 26, .rw⟩, ⟨23, 16, .rw⟩, ⟨10, 8, .rw⟩,
      ⟨7, 7, .rw⟩, ⟨5, 0, .rw⟩]
  | .rtMap _ => [⟨7, 7, .ro⟩, ⟨5, 2, .ro⟩, ⟨1, 0, .ro⟩]
  | .rtCount _ => [⟨63, 48, .rc⟩, ⟨47, 32, .rc⟩, ⟨31, 16, .rc⟩, ⟨15, 0, .rc⟩]
  | .rtExc _ _ => [⟨63, 63, .rw⟩, ⟨55, 40, .rw⟩, ⟨39, 24, .rw⟩, ⟨23, 20, .rw⟩, ⟨19, 16, .rw⟩,
      ⟨15, 0, .rw⟩]
  | .hlCtrl _ => [⟨27, 16, .rw⟩, ⟨15, 12, .rw⟩, ⟨1, 1, .rw⟩, ⟨0, 0, .rw⟩]
  | .hlStatus _ => [⟨63, 51, .ro⟩, ⟨50, 34, .ro⟩, ⟨33, 18, .ro⟩, ⟨17, 8, .rc⟩, ⟨4, 4, .w1c⟩,
      ⟨3, 3, .w1c⟩, ⟨2, 2, .w1c⟩, ⟨1, 1, .w1c⟩, ⟨0, 0, .w1c⟩]
  | .hlTimers _ => [⟨51, 32, .rw⟩, ⟨15, 0, .rw⟩]
  | .hlMgmtEq _ => [⟨63, 63, .rw⟩, ⟨17, 0, .rw⟩]
  | .hlFnPriv _ => [⟨30, 0, .rw⟩]
  | .hlTlperr _ => [⟨63, 48, .rc⟩, ⟨47, 32, .rc⟩, ⟨31, 16, .rc⟩, ⟨15, 0, .rc⟩]
  | .hrtBase _ _ => [⟨63, 12, .rw⟩, ⟨0, 0, .rw⟩]
  | .hrtLimit _ _ => [⟨63, 12, .rw⟩, ⟨2, 2, .rw⟩, ⟨1, 1, .rw⟩, ⟨0, 0, .rw⟩]
  | .cqCtrl _ => [⟨63, 60, .wo⟩, ⟨19, 0, .wo⟩]
  | .cqQuery _ => [⟨19, 0, .rw⟩]
  | .cqInfo _ => [⟨63, 61, .ro⟩, ⟨60, 53, .ro⟩, ⟨52, 32, .ro⟩, ⟨31, 27, .ro⟩]
  | .cqProgress _ => [⟨63, 43, .ro⟩, ⟨42, 22, .ro⟩]
  | .cqCount _ => [⟨63, 32, .rc⟩, ⟨31, 0, .rc⟩]
  | .cqAdmin _ => [⟨63, 12, .rw⟩, ⟨5, 1, .rw⟩, ⟨0, 0, .rw⟩]
  | .xlStatus _ => [⟨47, 32, .ro⟩, ⟨23, 16, .ro⟩, ⟨4, 0, .ro⟩]
  | .xlFault _ => [⟨63, 63, .w1c⟩, ⟨62, 62, .w1c⟩, ⟨61, 54, .ro⟩, ⟨53, 32, .ro⟩, ⟨31, 28, .ro⟩,
      ⟨27, 26, .ro⟩]
  | .xlFaultAddr _ => [⟨63, 0, .ro⟩]
  | .xlMirror _ => [⟨63, 24, .ro⟩, ⟨23, 12, .ro⟩]
  | .mtCount _ => [⟨63, 48, .rc⟩, ⟨47, 32, .rc⟩, ⟨31, 16, .rc⟩, ⟨15, 0, .rc⟩]
  | .mtStatus _ => [⟨63, 40, .ro⟩, ⟨39, 16, .ro⟩, ⟨1, 1, .w1c⟩, ⟨0, 0, .w1c⟩]
  | .mtPool _ => [⟨63, 38, .ro⟩, ⟨37, 16, .ro⟩]
  | .mtCancel _ => [⟨63, 63, .sc⟩, ⟨62, 61, .ro⟩, ⟨60, 41, .rw⟩, ⟨40, 21, .rw⟩]
  | .rmaCtrl _ => [⟨63, 60, .rw⟩, ⟨59, 51, .rw⟩, ⟨50, 42, .rw⟩, ⟨41, 28, .rw⟩, ⟨27, 18, .rw⟩,
      ⟨17, 12, .rw⟩, ⟨11, 4, .rw⟩, ⟨3, 3, .rw⟩]
  | .flowPool _ => [⟨63, 40, .ro⟩]
  | .rmaCount _ => [⟨63, 48, .rc⟩, ⟨47, 32, .rc⟩, ⟨31, 16, .rc⟩, ⟨15, 0, .rc⟩]
  | .rmaErrcnt _ => [⟨63, 48, .rc⟩, ⟨47, 32, .rc⟩, ⟨31, 16, .rc⟩, ⟨15, 0, .rc⟩]
  | .clCtrl _ => [⟨17, 17, .sc⟩, ⟨16, 16, .rw⟩, ⟨15, 0, .rw⟩]
  | .clInstall _ => [⟨63, 63, .sc⟩, ⟨62, 60, .rw⟩, ⟨59, 56, .ro⟩, ⟨15, 0, .rw⟩]
  | .clTable _ => [⟨63, 24, .ro⟩]
  | .clStatus _ => [⟨63, 54, .ro⟩, ⟨53, 37, .ro⟩, ⟨3, 3, .w1c⟩, ⟨2, 2, .w1c⟩, ⟨1, 1, .w1c⟩,
      ⟨0, 0, .w1c⟩]
  | .clCount _ => [⟨63, 48, .rc⟩, ⟨47, 32, .rc⟩, ⟨31, 16, .rc⟩, ⟨15, 0, .rc⟩]
  | .grCtrl _ => [⟨63, 48, .sc⟩, ⟨47, 32, .rw⟩, ⟨25, 16, .rw⟩, ⟨0, 0, .rw⟩]
  | .grStatus _ => [⟨63, 48, .ro⟩, ⟨47, 39, .ro⟩, ⟨3, 3, .w1c⟩, ⟨2, 2, .w1c⟩, ⟨1, 1, .w1c⟩,
      ⟨0, 0, .w1c⟩]
  | .grCount _ => [⟨63, 32, .rc⟩, ⟨31, 16, .rc⟩, ⟨15, 0, .rc⟩]
  | .grFault _ => [⟨63, 63, .w1c⟩, ⟨62, 62, .w1c⟩, ⟨61, 58, .ro⟩, ⟨57, 50, .ro⟩, ⟨49, 46, .ro⟩,
      ⟨45, 44, .ro⟩, ⟨43, 22, .ro⟩, ⟨17, 0, .ro⟩]
  | .grFaultAddr _ => [⟨63, 0, .ro⟩]
  | .grResume _ => [⟨63, 63, .sc⟩, ⟨62, 61, .ro⟩, ⟨60, 58, .rw⟩, ⟨21, 0, .rw⟩]
  | .csCtrl _ => [⟨16, 16, .rw⟩, ⟨15, 0, .rw⟩]
  | .csStatus _ => [⟨63, 62, .ro⟩, ⟨61, 56, .ro⟩, ⟨55, 48, .ro⟩, ⟨47, 40, .ro⟩, ⟨20, 0, .ro⟩]
  | .csCount _ => [⟨63, 48, .rc⟩, ⟨47, 32, .rc⟩, ⟨31, 0, .rc⟩]
  | .ratBase _ _ => [⟨63, 12, .tw⟩, ⟨0, 0, .tw⟩]
  | .ratLimit _ _ => [⟨63, 12, .tw⟩, ⟨1, 1, .tw⟩, ⟨0, 0, .tw⟩]
  | .hkStatus _ => [⟨63, 47, .ro⟩, ⟨46, 38, .ro⟩, ⟨1, 1, .w1c⟩, ⟨0, 0, .w1c⟩]
  | .hkCount _ => [⟨63, 32, .rc⟩, ⟨31, 16, .rc⟩, ⟨15, 0, .rc⟩]
  | .hkFncfg _ i => if i.val % 32 = 31 then [] else [⟨63, 63, .rw⟩, ⟨47, 40, .rw⟩, ⟨26, 16, .rw⟩, ⟨10, 0, .rw⟩]
  | .hkLock _ _ => [⟨63, 0, .ro⟩]
  | .ntNow => [⟨63, 0, .ro⟩]
  | .ntCtrl => [⟨63, 63, .rw⟩, ⟨41, 32, .rw⟩, ⟨31, 16, .rw⟩]
  | .ntSeed => [⟨63, 63, .sc⟩, ⟨62, 31, .rw⟩, ⟨30, 0, .rw⟩]
  | .ntStatus => [⟨63, 63, .ro⟩, ⟨62, 62, .ro⟩, ⟨61, 61, .ro⟩, ⟨60, 60, .w1c⟩, ⟨59, 59, .w1c⟩,
      ⟨55, 50, .ro⟩, ⟨49, 44, .ro⟩, ⟨31, 0, .ro⟩]
  | .ntOffset => [⟨63, 32, .ro⟩, ⟨31, 0, .ro⟩]
  | .egWeight _ => [⟨47, 0, .rw⟩]
  | .egShape _ _ => [⟨63, 63, .rw⟩, ⟨61, 48, .rw⟩, ⟨43, 32, .rw⟩, ⟨31, 0, .ro⟩]
  | .egGateCtrl _ => [⟨63, 63, .rw⟩, ⟨62, 62, .sc⟩, ⟨61, 61, .rw⟩, ⟨60, 60, .ro⟩,
      ⟨59, 59, .w1c⟩, ⟨51, 46, .rw⟩, ⟨45, 40, .rw⟩, ⟨37, 32, .ro⟩]
  | .egGateBase _ _ => [⟨59, 0, .rw⟩]
  | .egGateSwitch _ => [⟨59, 0, .rw⟩]
  | .egGcl _ _ _ => [⟨38, 32, .rw⟩, ⟨29, 0, .rw⟩]
  | .coStatus => [⟨63, 61, .ro⟩, ⟨55, 48, .ro⟩, ⟨47, 40, .ro⟩, ⟨31, 0, .ro⟩]
  | .coSerial => [⟨63, 32, .ro⟩, ⟨31, 0, .ro⟩]
  | .coDigestHi => [⟨63, 0, .ro⟩]
  | .coDigestLo => [⟨63, 0, .ro⟩]
  | .rtEpoch => [⟨63, 32, .ro⟩, ⟨31, 31, .ro⟩, ⟨30, 30, .ro⟩, ⟨29, 24, .ro⟩]
  | .rtEpochAt => [⟨59, 0, .ro⟩]
  | .tkState => [⟨63, 61, .tw⟩, ⟨60, 56, .tw⟩, ⟨55, 48, .tw⟩, ⟨47, 47, .tw⟩, ⟨46, 46, .tw⟩,
      ⟨45, 44, .tw⟩, ⟨43, 42, .tw⟩, ⟨31, 0, .tw⟩]
  | .tkDustReason => [⟨63, 48, .tw⟩, ⟨47, 40, .tw⟩, ⟨39, 32, .tw⟩]
  | .tkPaceTarget => [⟨47, 32, .tw⟩, ⟨31, 16, .tw⟩, ⟨15, 0, .tw⟩]
  | .tkTherm => [⟨63, 56, .tw⟩, ⟨55, 48, .tw⟩, ⟨47, 40, .tw⟩, ⟨31, 16, .tw⟩, ⟨15, 0, .tw⟩]
  | .tkPower => [⟨63, 48, .tw⟩, ⟨47, 32, .tw⟩, ⟨15, 0, .tw⟩]
  | .tkSec => [⟨63, 57, .tw⟩, ⟨56, 56, .tw⟩, ⟨55, 55, .tw⟩, ⟨54, 54, .tw⟩, ⟨53, 53, .tw⟩]
  | .mbClaim => [⟨63, 63, .ro⟩, ⟨9, 8, .ro⟩, ⟨7, 0, .ro⟩]
  | .mbCmd => [⟨63, 63, .sc⟩, ⟨7, 0, .rw⟩]
  | .mbStatus => [⟨63, 56, .ro⟩, ⟨55, 48, .ro⟩, ⟨31, 0, .ro⟩]
  | .mbArg _ => [⟨63, 0, .rw⟩]
  | .ftStatus .tack => [⟨3, 3, .ro⟩, ⟨2, 2, .tw⟩, ⟨1, 1, .tw⟩, ⟨0, 0, .tw⟩]
  | .ftStatus _ => [⟨3, 3, .ro⟩, ⟨2, 2, .w1c⟩, ⟨1, 1, .w1c⟩, ⟨0, 0, .w1c⟩]
  | .ftMask .tack => [⟨2, 2, .tw⟩, ⟨1, 1, .tw⟩, ⟨0, 0, .tw⟩]
  | .ftMask _ => [⟨2, 2, .rw⟩, ⟨1, 1, .rw⟩, ⟨0, 0, .rw⟩]
  | .ftIntr .tack => [⟨63, 63, .tw⟩, ⟨2, 0, .tw⟩]
  | .ftIntr _ => [⟨63, 63, .rw⟩, ⟨2, 0, .rw⟩]
  | .ftCode .tack => [⟨63, 48, .ro⟩, ⟨47, 32, .ro⟩, ⟨31, 24, .ro⟩, ⟨15, 0, .tw⟩]
  | .ftCode _ => [⟨63, 48, .ro⟩, ⟨47, 32, .ro⟩, ⟨31, 24, .ro⟩, ⟨15, 0, .rc⟩]
  | .pmFixed .tack => [⟨63, 63, .tw⟩, ⟨47, 0, .tw⟩]
  | .pmFixed _ => [⟨63, 63, .w1c⟩, ⟨47, 0, .rw⟩]
  | .pmCnt _ _ => [⟨63, 63, .w1c⟩, ⟨47, 0, .rw⟩]
  | .pmGcnt _ _ => [⟨63, 63, .w1c⟩, ⟨47, 0, .rw⟩]
  | .pmSel _ _ => [⟨63, 63, .rw⟩, ⟨62, 62, .rw⟩, ⟨61, 61, .rw⟩, ⟨60, 60, .ro⟩, ⟨59, 38, .rw⟩, ⟨37, 16, .ro⟩, ⟨15, 0, .rw⟩]
  | .pmGsel _ _ => [⟨63, 63, .rw⟩, ⟨62, 62, .rw⟩, ⟨61, 61, .rw⟩, ⟨60, 60, .rw⟩, ⟨59, 38, .rw⟩,
      ⟨37, 16, .rw⟩, ⟨15, 0, .rw⟩]
  | .pmDump (.stall _) => [⟨63, 63, .rw⟩, ⟨62, 62, .rw⟩, ⟨56, 56, .rw⟩, ⟨55, 52, .rw⟩,
      ⟨51, 32, .rw⟩, ⟨31, 0, .rc⟩]
  | .pmDump _ => [⟨63, 63, .rw⟩, ⟨62, 62, .ro⟩, ⟨56, 56, .rw⟩, ⟨55, 52, .rw⟩, ⟨51, 32, .rw⟩, ⟨31, 0, .rc⟩]
  | .pmSample _ => [⟨63, 63, .rw⟩, ⟨62, 62, .rw⟩, ⟨61, 40, .rw⟩, ⟨39, 35, .rw⟩, ⟨34, 34, .rw⟩,
      ⟨33, 30, .rw⟩]
  | .tmBase _ _ => [⟨63, 16, .rw⟩]
  | .tmCtrl _ _ => [⟨63, 63, .rw⟩, ⟨62, 62, .rw⟩, ⟨61, 59, .rw⟩, ⟨58, 58, .rw⟩, ⟨57, 47, .rw⟩,
      ⟨46, 45, .wo⟩, ⟨44, 43, .ro⟩, ⟨42, 32, .ro⟩, ⟨31, 0, .ro⟩]
  | .idReg => [⟨63, 48, .ro⟩, ⟨47, 32, .ro⟩, ⟨31, 24, .ro⟩]
  | .chipId => [⟨63, 0, .ro⟩]
  | .caps => [⟨63, 56, .ro⟩, ⟨55, 48, .ro⟩, ⟨47, 40, .ro⟩, ⟨39, 32, .ro⟩, ⟨31, 24, .ro⟩,
      ⟨23, 16, .ro⟩, ⟨15, 8, .ro⟩, ⟨7, 0, .ro⟩]
  | .blkInfo _ => [⟨63, 56, .ro⟩, ⟨55, 48, .ro⟩, ⟨47, 40, .ro⟩, ⟨39, 32, .ro⟩]

/-- The fused identity, which is never 0 and never all ones (R495). -/
def fusedId : BitVec 64 := if Config.chipId = 0 ∨ Config.chipId = BitVec.allOnes 64 then 1 else Config.chipId

/-- The reset value of a register. -/
def Reg.reset : Reg → Word
  | .paceStatus => 0x70800000000
  | .laneCtrl (.net _ _) => 0x808
  | .laneCtrl (.host _ _) => 0x8
  | .laneStatus _ => 0x0
  | .laneTxeq _ => 0x40
  | .laneRxeq _ => 0x0
  | .laneTest _ => 0x10000
  | .laneUpatLo _ => 0x0
  | .laneUpatHi _ => 0x0
  | .laneErrcnt _ => 0x0
  | .laneBitcnt _ => 0x0
  | .laneLineerr _ => 0x0
  | .laneMargin _ => 0x0
  | .laneEye _ => 0x0
  | .llCtrl (.port _) => 0x4200005
  | .llCtrl (.host _) => 0x4400001
  | .llStatus _ => 0x0
  | .llCredit _ => 0x8408002020100000
  | .llCreditHost _ => 0x2000800200080000
  | .llTimers (.port _) => 0x7D0064003E8
  | .llTimers (.host _) => 0x271006401388
  | .llErrcnt _ => 0x0
  | .llDiscard _ => 0x0
  | .llPeerId _ => 0x0
  | .llPeerInfo _ => 0x0
  | .llPeerDigestHi _ => 0x0
  | .llPeerDigestLo _ => 0x0
  | .rtCoord => 0x0
  | .rtTopo => 0x0
  | .rtOrder => 0x1B1B
  | .rtCtrl => 0x404204002BF
  | .rtMap p => BitVec.ofNat 64 (0x80 + 4 * (p.val % 16) + p.val / 16)
  | .rtCount _ => 0x0
  | .rtExc _ _ => 0x0
  | .hlCtrl _ => 0xFFF1003
  | .hlStatus _ => 0x0
  | .hlTimers _ => 0x3E800000032
  | .hlMgmtEq _ => 0x0
  | .hlFnPriv _ => 0x1
  | .hlTlperr _ => 0x0
  | .hrtBase _ _ => 0x0
  | .hrtLimit _ _ => 0x0
  | .cqCtrl _ => 0x0
  | .cqQuery _ => 0x0
  | .cqInfo _ => 0x0
  | .cqProgress _ => 0x0
  | .cqCount _ => 0x0
  | .cqAdmin _ => 0x0
  | .xlStatus _ => 0x0
  | .xlFault _ => 0x0
  | .xlFaultAddr _ => 0x0
  | .xlMirror _ => 0x0
  | .mtCount _ => 0x0
  | .mtStatus _ => 0x0
  | .mtPool _ => 0x0
  | .mtCancel _ => 0x0
  | .rmaCtrl _ => 0x8084003E8040A7D8
  | .flowPool _ => 0x0
  | .rmaCount _ => 0x0
  | .rmaErrcnt _ => 0x0
  | .clCtrl _ => 0x12710
  | .clInstall _ => 0x0
  | .clTable _ => 0x0
  | .clStatus _ => 0x0
  | .clCount _ => 0x0
  | .grCtrl _ => 0x140001
  | .grStatus _ => 0x0
  | .grCount _ => 0x0
  | .grFault _ => 0x0
  | .grFaultAddr _ => 0x0
  | .grResume _ => 0x0
  | .csCtrl _ => 0x1000A
  | .csStatus _ => 0x0
  | .csCount _ => 0x0
  | .ratBase _ _ => 0x0
  | .ratLimit _ _ => 0x0
  | .hkStatus _ => 0x0
  | .hkCount _ => 0x0
  | .hkFncfg _ _ => 0x0
  | .hkLock _ _ => 0x0
  | .ntNow => 0x0
  | .ntCtrl => 0xA00320000
  | .ntSeed => 0x0
  | .ntStatus => 0xFC000000000000
  | .ntOffset => 0x0
  | .egWeight _ => 0x10101010101
  | .egShape _ _ => 0x0
  | .egGateCtrl _ => 0x0
  | .egGateBase _ _ => 0x0
  | .egGateSwitch _ => 0x0
  | .egGcl _ _ _ => 0x0
  | .coStatus => 0x0
  | .coSerial => 0x0
  | .coDigestHi => 0x0
  | .coDigestLo => 0x0
  | .rtEpoch => 0x0
  | .rtEpochAt => 0x0
  | .tkState => 0x0
  | .tkDustReason => 0xFFFF00000000
  | .tkPaceTarget => 0x708
  | .tkTherm => 0x640000000000
  | .tkPower => 0x25800000000FFFF
  | .tkSec => 0x0
  | .mbClaim => 0x0
  | .mbCmd => 0x0
  | .mbStatus => 0x0
  | .mbArg _ => 0x0
  | .ftStatus _ => 0x0
  | .ftMask _ => 0x1
  | .ftIntr _ => 0x8000000000000000
  | .ftCode _ => 0x0
  | .pmFixed _ => 0x0
  | .pmCnt _ _ => 0x0
  | .pmGcnt _ _ => 0x0
  | .pmSel _ _ => 0x0
  | .pmGsel _ _ => 0x0
  | .pmDump _ => 0x0
  | .pmSample _ => 0x0
  | .tmBase _ _ => 0x0
  | .tmCtrl _ _ => 0x0
  | .idReg => 0x4D4C6451B0000000
  | .chipId => fusedId
  | .caps => 0x4010081008301001
  | .blkInfo b => BitVec.ofNat 64 (blockType b * 2 ^ 56 + blockInst b * 2 ^ 48
      + blockLog2 b * 2 ^ 40 + blockDomain b * 2 ^ 32)

/-- The lane register at offset `o` of a lane's window (R80). -/
def laneRegAt (n : LaneId) (o : Nat) : Option Reg :=
  match o with
  | 0x00 => some (.laneCtrl n)
  | 0x08 => some (.laneStatus n)
  | 0x10 => some (.laneTxeq n)
  | 0x18 => some (.laneRxeq n)
  | 0x20 => some (.laneTest n)
  | 0x28 => some (.laneUpatLo n)
  | 0x30 => some (.laneUpatHi n)
  | 0x38 => some (.laneErrcnt n)
  | 0x40 => some (.laneBitcnt n)
  | 0x48 => some (.laneLineerr n)
  | 0x50 => some (.laneMargin n)
  | 0x58 => some (.laneEye n)
  | _ => none

/-- The link register at offset `o` from a link's LL_ registers (R111). -/
def linkRegAt (l : LinkId) (o : Nat) : Option Reg :=
  match o with
  | 0x00 => some (.llCtrl l)
  | 0x08 => some (.llStatus l)
  | 0x10 => some (match l with | .port p => .llCredit p | .host h => .llCreditHost h)
  | 0x18 => some (.llTimers l)
  | 0x20 => some (.llErrcnt l)
  | 0x28 => some (.llDiscard l)
  | 0x30 => some (.llPeerId l)
  | 0x38 => some (.llPeerInfo l)
  | 0x40 => some (.llPeerDigestHi l)
  | 0x48 => some (.llPeerDigestLo l)
  | _ => none

/-- `k` as an index below `n`. -/
def idx (n : Nat) (k : Nat) : Option (Fin n) := if h : k < n then some ⟨k, h⟩ else none

/-- The registers that every block except TACK holds (R498), and the programmable counters of
the blocks that have `pm` of them (R484). -/
def commonRegAt (b : Block) (pm o : Nat) : Option Reg :=
  if o = 0xFFF0 then some (.blkInfo b)
  else if o = 0xF000 then some (.ftStatus b)
  else if o = 0xF008 then some (.ftMask b)
  else if o = 0xF010 then some (.ftIntr b)
  else if o = 0xF018 then some (.ftCode b)
  else if o = 0xE000 then some (.pmFixed b)
  else if o = 0xE010 then (if b = .tack then none else some (.pmDump b))
  else if 0xE040 ≤ o ∧ o < 0xE040 + 8 * pm then (idx 8 ((o - 0xE040) / 8)).map (.pmSel b)
  else if 0xE080 ≤ o ∧ o < 0xE080 + 8 * pm then (idx 8 ((o - 0xE080) / 8)).map (.pmCnt b)
  else none

/-- The TACK block (R498). -/
def tackRegAt (o : Nat) : Option Reg :=
  match o with
  | 0x00 => some .tkState
  | 0x08 => some .tkDustReason
  | 0x10 => some .tkPaceTarget
  | 0x18 => some .tkTherm
  | 0x20 => some .tkPower
  | 0x28 => some .tkSec
  | _ =>
    if 0x8000 ≤ o ∧ o < 0x8400 then
      (idx 64 ((o - 0x8000) / 16)).map (fun i => if o % 16 = 0 then .ratBase none i else .ratLimit none i)
    else commonRegAt .tack 0 o

/-- The GLOBAL block (R498). -/
def globalRegAt (o : Nat) : Option Reg :=
  match o with
  | 0x0000 => some .idReg
  | 0x0008 => some .chipId
  | 0x0010 => some .caps
  | 0x0300 => some .paceStatus
  | 0x0400 => some .rtCoord
  | 0x0408 => some .rtTopo
  | 0x0410 => some .rtOrder
  | 0x0418 => some .rtCtrl
  | 0x0500 => some .ntNow
  | 0x0508 => some .ntCtrl
  | 0x0510 => some .ntSeed
  | 0x0518 => some .ntStatus
  | 0x0520 => some .ntOffset
  | 0x0600 => some .coStatus
  | 0x0608 => some .coSerial
  | 0x0610 => some .coDigestHi
  | 0x0618 => some .coDigestLo
  | 0x0620 => some .rtEpoch
  | 0x0628 => some .rtEpochAt
  | 0x1000 => some .mbClaim
  | 0x1008 => some .mbCmd
  | 0x1010 => some .mbStatus
  | 0x1018 => some (.mbArg 0)
  | 0x1020 => some (.mbArg 1)
  | 0x1028 => some (.mbArg 2)
  | 0x1030 => some (.mbArg 3)
  | _ => commonRegAt .global 0 o

/-- A DOMAIN block (R498). -/
def domainRegAt (d : Dom) (o : Nat) : Option Reg :=
  match o with
  | 0x3000 => some (.cqCtrl d)
  | 0x3008 => some (.cqQuery d)
  | 0x3010 => some (.cqInfo d)
  | 0x3018 => some (.cqProgress d)
  | 0x3020 => some (.cqCount d)
  | 0x4000 => some (.xlMirror d)
  | 0x5000 => some (.mtPool d)
  | 0x5008 => some (.mtCancel d)
  | 0x6000 => some (.rmaCtrl d)
  | 0x6008 => some (.flowPool d)
  | 0x7000 => some (.csCtrl d)
  | 0x7008 => some (.csStatus d)
  | 0x7010 => some (.csCount d)
  | _ =>
    if 0x8000 ≤ o ∧ o < 0x8400 then
      (idx 64 ((o - 0x8000) / 16)).map (fun i => if o % 16 = 0 then .ratBase (some d) i else .ratLimit (some d) i)
    else if 0x9000 ≤ o ∧ o < 0x9100 then
      (idx 16 ((o - 0x9000) / 16)).map (fun i => if o % 16 = 0 then .tmBase d i else .tmCtrl d i)
    else commonRegAt (.domain d) 0 o

/-- A STALL block (R498). -/
def stallRegAt (s : Stall) (o : Nat) : Option Reg :=
  match o with
  | 0x1000 => some (.rtCount s)
  | 0x2000 => some (.xlStatus s)
  | 0x2008 => some (.xlFault s)
  | 0x2010 => some (.xlFaultAddr s)
  | 0x3000 => some (.mtCount s)
  | 0x3008 => some (.mtStatus s)
  | 0x4000 => some (.rmaCount s)
  | 0x4008 => some (.rmaErrcnt s)
  | 0x5000 => some (.grCtrl s)
  | 0x5008 => some (.grStatus s)
  | 0x5010 => some (.grCount s)
  | 0x5018 => some (.grFault s)
  | 0x5020 => some (.grFaultAddr s)
  | 0x5028 => some (.grResume s)
  | 0xE018 => some (.pmSample s)
  | _ =>
    if 0x10000 ≤ o ∧ o < 0x18000 then (idx 4096 ((o - 0x10000) / 8)).map (.rtExc s)
    else if 0xE400 ≤ o ∧ o < 0xE800 then
      (idx 16 ((o - 0xE400) / 64)).bind (fun g => (idx 8 ((o - 0xE400) % 64 / 8)).map (.pmGsel ⟨s, g⟩))
    else if 0xE800 ≤ o ∧ o < 0xEC00 then
      (idx 16 ((o - 0xE800) / 64)).bind (fun g => (idx 8 ((o - 0xE800) % 64 / 8)).map (.pmGcnt ⟨s, g⟩))
    else commonRegAt (.stall s) 8 o

/-- A PORT block (R498). -/
def portRegAt (p : Port) (o : Nat) : Option Reg :=
  if 0x1000 ≤ o ∧ o < 0x1050 then linkRegAt (.port p) (o - 0x1000)
  else if o = 0x2000 then some (.rtMap p)
  else if o = 0x3000 then some (.egWeight p)
  else if 0x3008 ≤ o ∧ o < 0x3040 then (idx 7 ((o - 0x3008) / 8)).map (.egShape p)
  else if o = 0x3040 then some (.egGateCtrl p)
  else if o = 0x3048 then some (.egGateBase p 0)
  else if o = 0x3050 then some (.egGateBase p 1)
  else if o = 0x3058 then some (.egGateSwitch p)
  else if 0x3200 ≤ o ∧ o < 0x3600 then
    (idx 2 ((o - 0x3200) / 0x200)).bind (fun b => (idx 64 ((o - 0x3200) % 0x200 / 8)).map (.egGcl p b))
  else if 0x4000 ≤ o ∧ o < 0x4400 then
    (idx 4 ((o - 0x4000) / 0x100)).bind (fun l => laneRegAt (.net p l) ((o - 0x4000) % 0x100))
  else commonRegAt (.port p) 4 o

/-- A HOSTLINK block (R498). -/
def hostRegAt (h : HLink) (o : Nat) : Option Reg :=
  if 0x10000 ≤ o ∧ o < 0x10050 then linkRegAt (.host h) (o - 0x10000)
  else if o = 0x20000 then some (.hlCtrl h)
  else if o = 0x20008 then some (.hlStatus h)
  else if o = 0x20010 then some (.hlTimers h)
  else if o = 0x20018 then some (.hlMgmtEq h)
  else if o = 0x20020 then some (.hlFnPriv h)
  else if o = 0x20028 then some (.hlTlperr h)
  else if 0x30000 ≤ o ∧ o < 0x30400 then
    (idx 64 ((o - 0x30000) / 16)).map (fun i => if o % 16 = 0 then .hrtBase h i else .hrtLimit h i)
  else if 0x40000 ≤ o ∧ o < 0x41000 then
    (idx 16 ((o - 0x40000) / 0x100)).bind (fun l => laneRegAt (.host h l) ((o - 0x40000) % 0x100))
  else if o = 0x50000 then some (.cqAdmin h)
  else commonRegAt (.hostlink h) 4 o

/-- A COLL block (R498). -/
def collRegAt (e : Engine) (o : Nat) : Option Reg :=
  match o with
  | 0x00 => some (.clCtrl e)
  | 0x08 => some (.clInstall e)
  | 0x10 => some (.clTable e)
  | 0x18 => some (.clStatus e)
  | 0x20 => some (.clCount e)
  | _ => commonRegAt (.coll e) 0 o

/-- What lies at an address of the device address space (R485, R486). `hkWin k d n` is the lock
window `k` of lock `n` (0 ACQUIRE, 1 TRY, 2 RELEASE, 3 CANCEL, R390). -/
inductive Target where
  | reg (r : Reg)
  | unlisted (b : Block)
  | scratch (s : Stall) (off : Nat)
  | mbBuf (off : Nat)
  | hkWin (k : Fin 4) (d : Dom) (n : BitVec 16)
  | hbm (addr : Nat)
  | hostWindow (h : HLink) (addr : Nat)
  | unmapped
  deriving DecidableEq, Repr

/-- A HITCH block (R498). -/
def hitchAt (d : Dom) (o : Nat) : Target :=
  if o = 0 then .reg (.hkStatus d)
  else if o = 8 then .reg (.hkCount d)
  else if 0x1000 ≤ o ∧ o < 0x1800 then
    match idx 256 ((o - 0x1000) / 8) with
    | some i => .reg (.hkFncfg d i)
    | none => .unlisted (.hitch d)
  else if 0x100000 ≤ o ∧ o < 0x600000 ∧ o % 0x100000 < 0x80000 then
    match idx 4 (o / 0x100000 - 2) with
    | some k => if o / 0x100000 = 1 then .reg (.hkLock d (BitVec.ofNat 16 (o % 0x100000 / 8)))
                else .hkWin k d (BitVec.ofNat 16 (o % 0x100000 / 8))
    | none => .unlisted (.hitch d)
  else match commonRegAt (.hitch d) 0 o with
    | some r => .reg r
    | none => .unlisted (.hitch d)

/-- The register of a block, or a register that is not listed (R486). -/
def regOr (b : Block) : Option Reg → Target
  | some r => .reg r
  | none => .unlisted b

/-- What an aligned 64-bit access at device address `a` reaches (R485, R486). -/
def targetAt (a : Nat) : Target :=
  if a < 0x100000 then regOr .tack (tackRegAt a)
  else if a < 0x200000 then
    (if 0x110000 ≤ a ∧ a < 0x120000 then .mbBuf (a - 0x110000)
     else regOr .global (globalRegAt (a - 0x100000)))
  else if 0x1000000 ≤ a ∧ a < 0x3000000 then
    match idx 2 ((a - 0x1000000) / 0x1000000) with
    | some d => regOr (.domain d) (domainRegAt d (a % 0x1000000))
    | none => .unmapped
  else if 0x10000000 ≤ a ∧ a < 0x20000000 then
    match idx 16 ((a - 0x10000000) / 0x1000000) with
    | some s =>
      (if 0x800000 ≤ a % 0x1000000 ∧ a % 0x1000000 < 0xA00000
       then .scratch s (a % 0x1000000 - 0x800000)
       else regOr (.stall s) (stallRegAt s (a % 0x1000000)))
    | none => .unmapped
  else if 0x20000000 ≤ a ∧ a < 0x20400000 then
    match idx 64 ((a - 0x20000000) / 0x10000) with
    | some p => regOr (.port p) (portRegAt p (a % 0x10000))
    | none => .unmapped
  else if 0x20400000 ≤ a ∧ a < 0x20C00000 then
    match idx 8 ((a - 0x20400000) / 0x100000) with
    | some h => regOr (.hostlink h) (hostRegAt h ((a - 0x20400000) % 0x100000))
    | none => .unmapped
  else if 0x30000000 ≤ a ∧ a < 0x30800000 then
    match idx 8 ((a - 0x30000000) / 0x100000) with
    | some e => regOr (.coll e) (collRegAt e (a % 0x100000))
    | none => .unmapped
  else if 0x40000000 ≤ a ∧ a < 0x42000000 then
    match idx 2 ((a - 0x40000000) / 0x1000000) with
    | some d => hitchAt d (a % 0x1000000)
    | none => .unmapped
  else if 0x10000000000 ≤ a ∧ a < 0x10C00000000 then .hbm (a - 0x10000000000)
  else if 0x1000000000000000 ≤ a ∧ a < 0x1080000000000000 then
    match idx 8 ((a - 0x1000000000000000) / 0x10000000000000) with
    | some h => .hostWindow h (a % 0x10000000000000)
    | none => .unmapped
  else .unmapped


end Sys2Proof.Machine
end

