-- ==== Sys2Proof/Machine/Crypto.lean ====
section
/-! DEFINITION. The hash and the signature scheme that coats, signed commands and reports use (R25):
SHA-512 of FIPS 180-4 and ECDSA over the curve P-521 of FIPS 186-5, on byte strings stored most
significant byte first (R409). The two standards are taken from outside the specification, which names
them (log entry 8). -/

namespace Sys2Proof.Machine

/-! ### SHA-512 -/

def shaK0 : List Word := [0x428A2F98D728AE22, 0x7137449123EF65CD, 0xB5C0FBCFEC4D3B2F, 0xE9B5DBA58189DBBC, 0x3956C25BF348B538,
  0x59F111F1B605D019, 0x923F82A4AF194F9B, 0xAB1C5ED5DA6D8118, 0xD807AA98A3030242, 0x12835B0145706FBE]
def shaK1 : List Word := [0x243185BE4EE4B28C, 0x550C7DC3D5FFB4E2, 0x72BE5D74F27B896F, 0x80DEB1FE3B1696B1, 0x9BDC06A725C71235,
  0xC19BF174CF692694, 0xE49B69C19EF14AD2, 0xEFBE4786384F25E3, 0x0FC19DC68B8CD5B5, 0x240CA1CC77AC9C65]
def shaK2 : List Word := [0x2DE92C6F592B0275, 0x4A7484AA6EA6E483, 0x5CB0A9DCBD41FBD4, 0x76F988DA831153B5, 0x983E5152EE66DFAB,
  0xA831C66D2DB43210, 0xB00327C898FB213F, 0xBF597FC7BEEF0EE4, 0xC6E00BF33DA88FC2, 0xD5A79147930AA725]
def shaK3 : List Word := [0x06CA6351E003826F, 0x142929670A0E6E70, 0x27B70A8546D22FFC, 0x2E1B21385C26C926, 0x4D2C6DFC5AC42AED,
  0x53380D139D95B3DF, 0x650A73548BAF63DE, 0x766A0ABB3C77B2A8, 0x81C2C92E47EDAEE6, 0x92722C851482353B]
def shaK4 : List Word := [0xA2BFE8A14CF10364, 0xA81A664BBC423001, 0xC24B8B70D0F89791, 0xC76C51A30654BE30, 0xD192E819D6EF5218,
  0xD69906245565A910, 0xF40E35855771202A, 0x106AA07032BBD1B8, 0x19A4C116B8D2D0C8, 0x1E376C085141AB53]
def shaK5 : List Word := [0x2748774CDF8EEB99, 0x34B0BCB5E19B48A8, 0x391C0CB3C5C95A63, 0x4ED8AA4AE3418ACB, 0x5B9CCA4F7763E373,
  0x682E6FF3D6B2B8A3, 0x748F82EE5DEFB2FC, 0x78A5636F43172F60, 0x84C87814A1F0AB72, 0x8CC702081A6439EC]
def shaK6 : List Word := [0x90BEFFFA23631E28, 0xA4506CEBDE82BDE9, 0xBEF9A3F7B2C67915, 0xC67178F2E372532B, 0xCA273ECEEA26619C,
  0xD186B8C721C0C207, 0xEADA7DD6CDE0EB1E, 0xF57D4F7FEE6ED178, 0x06F067AA72176FBA, 0x0A637DC5A2C898A6]
def shaK7 : List Word := [0x113F9804BEF90DAE, 0x1B710B35131C471B, 0x28DB77F523047D84, 0x32CAAB7B40C72493, 0x3C9EBE0A15C9BEBC,
  0x431D67C49C100D4C, 0x4CC5D4BECB3E42B6, 0x597F299CFC657E2A, 0x5FCB6FAB3AD6FAEC, 0x6C44198C4A475817]

/-- The 80 constants of SHA-512. -/
def shaK : List Word := shaK0 ++ shaK1 ++ shaK2 ++ shaK3 ++ shaK4 ++ shaK5 ++ shaK6 ++ shaK7

/-- The initial hash value. -/
def shaInit : List Word := [0x6A09E667F3BCC908, 0xBB67AE8584CAA73B, 0x3C6EF372FE94F82B, 0xA54FF53A5F1D36F1,
  0x510E527FADE682D1, 0x9B05688C2B3E6C1F, 0x1F83D9ABFB41BD6B, 0x5BE0CD19137E2179]

def rotr (w : Word) (n : Nat) : Word := (w >>> n) ||| (w <<< (64 - n))

/-- The 64-bit words of a byte string, the high byte first. -/
def beWords (n : Nat) (bs : List Byte) : List Word :=
  (List.range n).map (fun i => BitVec.ofNat 64 (ofBe ((bs.drop (8 * i)).take 8)))

/-- The message schedule, the latest word first, with `n` more words. -/
def shaSched : Nat → List Word → List Word
  | 0, ws => ws
  | n + 1, ws =>
    let a := ws.getD 1 0
    let b := ws.getD 14 0
    let s1 := rotr a 19 ^^^ rotr a 61 ^^^ (a >>> 6)
    let s0 := rotr b 1 ^^^ rotr b 8 ^^^ (b >>> 7)
    shaSched n ((s1 + ws.getD 6 0 + s0 + ws.getD 15 0) :: ws)

/-- One round, on the eight working variables. -/
def shaRound (v : List Word) (kw : Word × Word) : List Word :=
  match v with
  | [a, b, c, d, e, f, g, h] =>
    let t1 := h + (rotr e 14 ^^^ rotr e 18 ^^^ rotr e 41) + ((e &&& f) ^^^ (~~~e &&& g)) + kw.1 + kw.2
    let t2 := (rotr a 28 ^^^ rotr a 34 ^^^ rotr a 39) + ((a &&& b) ^^^ (a &&& c) ^^^ (b &&& c))
    [t1 + t2, a, b, c, d + t1, e, f, g]
  | _ => v

/-- The hash value after one block of 128 bytes. -/
def shaBlock (h : List Word) (block : List Byte) : List Word :=
  let ws := (shaSched 64 (beWords 16 block).reverse).reverse
  List.zipWith (· + ·) h ((shaK.zip ws).foldl shaRound h)

/-- The hash value after `n` blocks. -/
def shaBlocks : Nat → List Word → List Byte → List Word
  | 0, h, _ => h
  | n + 1, h, bs => shaBlocks n (shaBlock h (bs.take 128)) (bs.drop 128)

/-- The message padded to whole blocks. -/
def shaPad (bs : List Byte) : List Byte :=
  bs ++ 0x80 :: List.replicate ((239 - bs.length % 128) % 128) 0 ++ beBytes 16 (8 * bs.length)

/-- SHA-512; byte 0 of the digest in the high bits. -/
def sha512 (bs : List Byte) : BitVec 512 :=
  let m := shaPad bs
  (shaBlocks (m.length / 128) shaInit m).foldl (fun a w => (a <<< 64) ||| (w.setWidth 512)) 0#512

/-! ### P-521 -/

def ecP : Nat := 2 ^ 521 - 1
def ecB : Nat := 0x51953EB9618E1C9A1F929A21A0B68540EEA2DA725B99B315F3B8B489918EF109E156193951EC7E937B1652C0BD3BB1BF073573DF883D2C34F1EF451FD46B503F00
def ecN : Nat := 0x1FFFFFFFFFFFFFFFFFFFFFFFFFFFFFFFFFFFFFFFFFFFFFFFFFFFFFFFFFFFFFFFFFA51868783BF2F966B7FCC0148F709A5D03BB5C9B8899C47AEBB6FB71E91386409
def ecGx : Nat := 0xC6858E06B70404E9CD9E3ECB662395B4429C648139053FB521F828AF606B4D3DBAA14B5E77EFE75928FE1DC127A2FFA8DE3348B3C1856A429BF97E7E31C2E5BD66
def ecGy : Nat := 0x11839296A789A3BC0045C8A5FB42C7D1BD998F54449579B446817AFBD17273E662C97EE72995EF42640C550B9013FAD0761353C7086A272C24088BE94769FD16650

/-- `a` raised to `e` modulo `m`, over the low `n` bits of `e`. -/
def powMod (m : Nat) : Nat → Nat → Nat → Nat
  | 0, _, _ => 1 % m
  | n + 1, a, e =>
    let r := powMod m n (a * a % m) (e / 2)
    if e % 2 = 1 then r * a % m else r

/-- The inverse modulo a prime. -/
def invMod (m a : Nat) : Nat := powMod m 521 (a % m) (m - 2)

/-- A point in projective coordinates (X/Z², Y/Z³); Z = 0 at infinity. -/
structure EcPt where
  x : Nat
  y : Nat
  z : Nat
  deriving DecidableEq, Repr

def ecSub (a b : Nat) : Nat := (a + ecP - b % ecP) % ecP

/-- Twice a point of the curve y² = x³ − 3x + b. -/
def EcPt.dbl (q : EcPt) : EcPt :=
  let zz := q.z * q.z % ecP
  let yy := q.y * q.y % ecP
  let s := 4 * q.x * yy % ecP
  let m := 3 * (ecSub q.x zz) * (q.x + zz) % ecP
  let x := ecSub (m * m) (2 * s)
  ⟨x, ecSub (m * ecSub s x) (8 * yy * yy), 2 * q.y * q.z % ecP⟩

/-- The sum of two points. -/
def EcPt.add (a b : EcPt) : EcPt :=
  if a.z = 0 then b
  else if b.z = 0 then a
  else
    let za := a.z * a.z % ecP
    let zb := b.z * b.z % ecP
    let u1 := a.x * zb % ecP
    let u2 := b.x * za % ecP
    let s1 := a.y * zb * b.z % ecP
    let s2 := b.y * za * a.z % ecP
    let h := ecSub u2 u1
    let r := ecSub s2 s1
    if h = 0 then (if r = 0 then a.dbl else ⟨1, 1, 0⟩)
    else
      let hh := h * h % ecP
      let hhh := h * hh % ecP
      let v := u1 * hh % ecP
      let x := ecSub (r * r) (hhh + 2 * v)
      ⟨x, ecSub (r * ecSub v x) (s1 * hhh), a.z * b.z * h % ecP⟩

/-- A point times the low `n` bits of `k`. -/
def EcPt.mul (q : EcPt) : Nat → Nat → EcPt
  | 0, _ => ⟨1, 1, 0⟩
  | n + 1, k =>
    let r := (q.mul n (k / 2)).dbl
    if k % 2 = 1 then r.add q else r

def ecG : EcPt := ⟨ecGx, ecGy, 1⟩

/-- The affine coordinates of a point that is not infinity. -/
def EcPt.affine (q : EcPt) : Nat × Nat :=
  let i := invMod ecP q.z
  (q.x * i * i % ecP, q.y * (i * i % ecP) * i % ecP)

/-- Whether a pair of coordinates is a public key: on the curve, in range. -/
def ecKeyOk (x y : Nat) : Bool :=
  decide (x < ecP) && decide (y < ecP) && decide (y * y % ecP = (x * x * x + ecB + (ecP - 3) * x) % ecP)

/-- ECDSA verification of a signature over a message digest. -/
def ecVerify (x y : Nat) (e : BitVec 512) (r s : Nat) : Bool :=
  if !ecKeyOk x y || r = 0 || s = 0 || decide (ecN ≤ r) || decide (ecN ≤ s) then false
  else
    let w := invMod ecN s
    let q := (ecG.mul 521 (e.toNat * w % ecN)).add ((EcPt.mk x y 1).mul 521 (r * w % ecN))
    q.z ≠ 0 && decide (q.affine.1 % ecN = r)

/-- The public key of a private key. -/
def ecPublic (d : Nat) : Nat × Nat := (ecG.mul 521 d).affine

/-- ECDSA signature over a message digest with the per-signature value `k`. -/
def ecSign (d : Nat) (e : BitVec 512) (k : Nat) : Nat × Nat :=
  let r := (ecG.mul 521 k).affine.1 % ecN
  (r, invMod ecN k * (e.toNat + r * d) % ecN)

/-- Coordinates and signature halves as stored: 66 bytes, the high byte first (R409). -/
def ecNum (bs : List Byte) (off : Nat) : Nat := ofBe ((bs.drop off).take 66)

end Sys2Proof.Machine
end

