-- ==== Sys2Proof/Machine/Tab.lean ====
section
/-! DEFINITION. Tables: finite maps from natural numbers, held as lists of pairs with strictly
rising keys. A table with a default value lists no entry equal to the default, so that equal maps
are equal lists. -/

namespace Sys2Proof.Machine

/-- A table of `α` by number. -/
abbrev Tab (α : Type) := List (Nat × α)

/-- The entry of key `k`, if the table lists one. -/
def tFind {α : Type} : Tab α → Nat → Option α
  | [], _ => none
  | (j, v) :: t, k => if k = j then some v else tFind t k

/-- The table with `v` at key `k`, keys kept rising. -/
def tPut {α : Type} (k : Nat) (v : α) : Tab α → Tab α
  | [] => [(k, v)]
  | (j, w) :: t => if k < j then (k, v) :: (j, w) :: t
                   else if k = j then (k, v) :: t
                   else (j, w) :: tPut k v t

/-- The table without key `k`. -/
def tDel {α : Type} (k : Nat) (t : Tab α) : Tab α := t.filter (fun e => e.1 ≠ k)

/-- The entry of key `k`, or the default. -/
def tGet {α : Type} (d : α) (t : Tab α) (k : Nat) : α := (tFind t k).getD d

/-- The table with `v` at key `k`; an entry equal to the default is not listed. -/
def tSet {α : Type} [DecidableEq α] (d : α) (k : Nat) (v : α) (t : Tab α) : Tab α :=
  if v = d then tDel k t else tPut k v t

/-- The table with the entry of key `k` changed by `f`. -/
def tMod {α : Type} [DecidableEq α] (d : α) (k : Nat) (f : α → α) (t : Tab α) : Tab α :=
  tSet d k (f (tGet d t k)) t

/-- Keys strictly rising. -/
def tSorted {α : Type} : Tab α → Bool
  | [] => true
  | [_] => true
  | (j, _) :: (k, w) :: t => decide (j < k) && tSorted ((k, w) :: t)

/-- The canonical form of a table with default `d`: keys strictly rising, no entry equal to `d`. -/
def tCanon {α : Type} [DecidableEq α] (d : α) (t : Tab α) : Bool :=
  tSorted t && t.all (fun e => decide (e.2 ≠ d))

end Sys2Proof.Machine
end

