-- ==== Sys2Proof/Machine/Types.lean ====
section
/-! DEFINITION. The records that the machine's state is made of, beside its registers: what the
host links, queues, translation units, matching units and flows keep (chapters 06 to 10). Every
record is plain data. -/

namespace Sys2Proof.Machine

/-- A packet: its header flit and its payload flits (R119, R258). -/
abbrev Pkt := List Flit

/-! ### Host links: the transaction layer (chapter 06) -/

/-- Whom the link-layer acknowledgement of a posted write is told to. -/
inductive Tok where
  | none
  | use (u : Nat)
  | store (g : GroomId) (id : Nat)
  | atom (tf psn : Nat)
  | post (p : Nat)
  | core (id : Nat)        -- a privileged core's, which awaits it
  | coreLate (core : Nat)  -- a privileged core's, accepted early (R363)
  deriving DecidableEq, Repr

/-- Whom the data of a host read goes to. -/
inductive RdPurpose where
  | use (u : Nat)
  | walk (w : Nat)
  | ring (queue id count : Nat)
  | flush (queue id : Nat)  -- the FLUSH's own handle
  | image (op off : Nat)
  | atom (tf psn : Nat)
  | core (id : Nat)
  deriving DecidableEq, Repr

/-- A posted write that waits to be built (R148, R149). `relaxed` asks for ordered = 0, which the
region table may deny (R149). -/
structure WrReq where
  addr : Nat
  data : List Byte
  relaxed : Bool
  ctx : Option Nat
  fn : Nat
  stash : Nat
  tok : Tok
  deriving DecidableEq, Repr

/-- A host read that waits to be built (R152). -/
structure RdReq where
  addr : Nat
  len : Nat
  ctx : Option Nat
  fn : Nat
  purpose : RdPurpose
  deriving DecidableEq, Repr

/-- What waits on the REQ VC of a host link, device to host (R144). -/
inductive ReqTlp where
  | wr (w : WrReq)
  | rd (r : RdReq)
  | intr (fn vector data : Nat)
  deriving DecidableEq, Repr

/-- A completion of a CWR or CRD (R162), and the count of posted writes that must have been
acknowledged before it is sent (R159). -/
structure Ccpl where
  fn : Nat
  htag : Nat
  status : Nat
  len8 : Nat
  data : List Word
  barrier : Nat
  deriving DecidableEq, Repr

/-- The delivered packet for which a write was made (R285): the first PSN of its message, the virtual address written,
and the peer. -/
structure WrNote where
  first : Nat
  va : Nat
  fa : Nat
  sctx : Nat
  deriving DecidableEq, Repr

/-- The history entry of a write tag (R148): live until `report_window` after `acked`. -/
structure History where
  ctx : Option Nat
  fn : Nat
  addr : Nat
  len : Nat
  tok : Tok
  acked : Option Nat
  note : Option WrNote
  deriving DecidableEq, Repr

/-- An outstanding host read (R152 to R154): the bytes that have arrived, and when it was sent. -/
structure ReadOut where
  addr : Nat
  len : Nat
  ctx : Option Nat
  fn : Nat
  purpose : RdPurpose
  got : List Byte
  sentAt : Nat
  drop : Bool
  deriving DecidableEq, Repr

/-- An accepted transaction from the host, not yet performed: its body, and the count of posted
writes sent before it was accepted (R159, R160). -/
structure RxTlp where
  body : List Byte
  barrier : Nat
  malformed : Bool
  rsp : Bool             -- it came on the RSP VC
  old : Bool             -- it came before the last link-up: its credits are not counted
  deriving DecidableEq, Repr

/-- A record held for an event queue whose link is not UP (R169): the queue and the eight words,
the phase still to be set. -/
structure HeldRec where
  eq : Nat
  words : List Word
  deriving DecidableEq, Repr

/-- Where an event goes: a link's management queue, an event queue for a context, or where a context's events go
(R170, R187, R188). -/
inductive PostTo where
  | mgmt (h : Nat)
  | eq (e ctx : Nat)
  | ctx (c : Nat)
  | run (c : Nat)        -- no event queue: the completion run of a context (R326)
  deriving DecidableEq, Repr

/-- An event that waits for the write it announces (R177, R359). -/
structure Post where
  dest : PostTo
  code : Nat
  fs : List (Nat × Nat × Nat × Nat)
  deriving DecidableEq, Repr

/-- A completion held for a ring whose link is not UP (R203): the writes of one completion, and what follows it: its event
(R177) and its run (R326). `id` is the queue's own handle. -/
structure HeldCpl where
  queue : Nat
  id : Nat
  count : Nat
  writes : List (Nat × List Byte)
  after : List Post
  deriving DecidableEq, Repr

/-- The transaction layer of a host link. -/
structure HostTl where
  reqQ : List ReqTlp := []
  rspQ : List Ccpl := []
  hist : Tab History := []
  nextWtag : Nat := 0
  reads : Tab ReadOut := []
  withheld : Tab Nat := []
  rxReq : List RxTlp := []
  rxRsp : List RxTlp := []
  heldRecs : List HeldRec := []
  heldCpls : List HeldCpl := []
  mwrSent : Nat := 0
  mwrAcked : Nat := 0
  intrLost : Nat := 0     -- INTRs dropped while intr_en was 0 (R161)
  deriving DecidableEq, Repr

/-! ### Queues (chapter 07) -/

/-- A FLUSH in progress (R206, R501): the ranges of counts still to be walked, the first from where the walk stands;
where oldest goes at its end; and whether its end makes the queue ACTIVE. -/
structure Flush where
  id : Nat
  walks : List (Nat × Nat)
  hi : Nat
  act : Bool
  deriving DecidableEq, Repr

/-- A command queue (R172, R188, R202). Counts are whole counts since the queue was created; the
registers show them modulo 2^(k+1) (R173). -/
structure Cq where
  id : Nat               -- the model's own handle: an index may be created again
  admin : Bool
  link : Nat
  fn : Nat
  ctx : Nat
  stall : Nat
  k : Nat
  base : Nat
  weight : Nat
  burst : Nat
  priv : Bool
  eqValid : Bool
  eq : Nat
  state : Nat
  lastError : Nat
  pi : Nat
  oldest : Nat
  next : Nat          -- count of the next entry to start
  asked : Nat         -- count up to which ring reads have been issued
  readsOut : Nat
  gran : Tab (BitVec 512)  -- granules held, by count
  bell : List Nat        -- the counts of those that a doorbell brought (R179, R501)
  fns : Tab Nat       -- the function whose doorbell posted a count (admin queues, R181)
  open_ : List (Nat × Nat × Bool)  -- started entries: count, granules, completed
  fired : List Nat    -- fired commands ready to start, in order
  credit : Nat
  joined : Bool
  flushing : Option Flush
  destroyer : Option Nat -- the CQ_DESTROY that waits, or the CQ_ADMIN write (none)
  dying : Bool
  waited : Option (Bool × Nat)  -- the RECV_POST last noted as waiting (R237): fired or not, command or count
  deriving DecidableEq, Repr

/-- A pending triggered command (R200): the wrapped command's granules as words. -/
structure Trig where
  queue : Nat
  ctx : Nat
  slot : Nat
  ct : Nat
  threshold : Nat
  words : List Word
  deriving DecidableEq, Repr

/-- Where a command came from: a queue entry, a fired command, or a Groom's ISSUE (R343). -/
inductive OpSrc where
  | entry
  | fired
  | groom (g : GroomId) (image : Nat)
  deriving DecidableEq, Repr

/-- A started command. `left` counts the parts that are still to end; `status` and `detail` are
those of the first failure. -/
structure Op where
  src : OpSrc
  queue : Nat
  count : Nat
  ctx : Nat
  link : Nat
  fn : Nat
  stall : Nat
  words : List Word
  started : Nat := 0     -- the order of starts
  peer : Option (Nat × Nat × Nat) := none  -- address and context of the peer, and the MSN, of a rendezvous SEND
  performed : Bool
  left : Nat
  status : Nat
  detail : Nat
  result : Word
  aux : Nat
  deriving DecidableEq, Repr

/-- An event queue (R192, R195, R196). `wpos` counts records written since creation. -/
structure Eq where
  fn : Nat
  vector : Nat
  home : Nat
  link : Nat
  base : Nat
  rel0 : Bool
  rel1 : Bool
  wpos : Nat
  armed : Bool
  drops : Nat
  dead : Bool
  deriving DecidableEq, Repr

/-! ### Contexts (R186) -/

/-- A context: its 32 words, and what the device keeps for it in its device-kept words and
shares (R200, R232, R249, R265). -/
structure Ctx where
  words : List Word
  postSeq : Nat := 0
  arrSeq : Nat := 0
  uxBlocks : Nat := 0
  uxDropped : Nat := 0
  uxEventAt : Option Nat := none
  suspended : Nat := 0
  xlEvents : Tab Nat := []
  refusedAt : Tab Nat := []
  dead : Bool := false    -- its function was reset: nothing is built for it (R166)
  deriving DecidableEq, Repr

/-! ### Translation (chapter 08) -/

/-- What a translated access belongs to. -/
inductive Purpose where
  | cmdSrc (flow : Nat) (op : Nat)
  | getDst (flow psn moff : Nat) (op me : Option Nat)
  | atomRes (op : Nat)
  | tgtPut (tf psn : Nat)
  | tgtGet (tf psn : Nat)
  | tgtAgain (tf : Nat) (p : Pkt)
  | tgtAtom (tf psn : Nat)
  | recvPkt (tf psn me n : Nat)
  | uxCopy (me : Nat)
  | collSrc (op seg : Nat)
  | collDst (op seg : Nat)
  | groomLd (g : GroomId) (run rd size : Nat)
  | groomSt (g : GroomId) (run id : Nat)
  | groomAmo (g : GroomId) (run rd : Nat)
  deriving DecidableEq, Repr

/-- Where the physical bytes of a use lie: HBM, or the memory of a host link. -/
inductive Phys where
  | hbm (addr : Nat)
  | host (link addr : Nat)
  deriving DecidableEq, Repr

/-- What a context's accesses are translated by and carry, as it stood when the access began: words 5, 6 and 7, host link,
function, stash hint, and home domain (R187, R207, R209). A context that is destroyed meanwhile changes nothing of it. -/
structure XlCtx where
  w5 : Word
  w6 : Word
  w7 : Word
  link : Nat
  fn : Nat
  stash : Nat
  dom : Nat
  deriving DecidableEq, Repr

/-- The vmid and the asid (R209). -/
def XlCtx.vmid (x : XlCtx) : Nat := fld x.w7 63 48
def XlCtx.asid (x : XlCtx) : Nat := fld x.w7 47 32

/-- A use (R224): one lookup and the accesses made under it, within one 4 KiB page. -/
structure Use where
  xfer : Nat
  stall : Nat
  ctx : Nat
  cx : XlCtx
  va : Nat
  len : Nat
  off : Nat
  access : Nat           -- 0 read, 1 write, 2 atomic (R220)
  fresh : Bool           -- walk without the cache (R222)
  waiting : Bool         -- waits for one of the 64 walks (R217)
  trapped : Bool         -- waits for RESUME or ABORT (R222)
  held : Bool            -- its unit makes the access: the use lasts until it has (R227)
  phys : Option Phys
  ipa : Nat
  log2 : Nat             -- size of the translation used
  marks : List Nat       -- INVALIDATEs that wait for it (R227)
  deriving DecidableEq, Repr

/-- A transfer: the uses that one packet, command or Groom access makes. -/
structure Xfer where
  stall : Nat
  ctx : Nat
  access : Nat
  source : Nat           -- 0 command, 1 arriving packet, 2 Groom (R220)
  relaxed : Bool
  only : Bool            -- the access itself is made by its unit: translate only
  purpose : Purpose
  va : Nat
  len : Nat
  data : List Byte
  got : Tab (List Byte)
  phys : Option Phys
  use : Option Nat       -- the use that its unit holds
  left : Nat
  status : Nat           -- 0, or the status of the first failure (R189)
  detail : Nat
  addr : Nat             -- the address of the first failure
  deriving DecidableEq, Repr

/-- A user of a walk, with its own kind of access (R217). -/
structure WalkUser where
  use : Nat
  access : Nat
  deriving DecidableEq, Repr

/-- A table walk in flight (R214). `stage2` says that stage 2 is in progress; with `table` it
translates the pointer to the stage-1 entry of level `s1lev`. `ptr` is where the entry in progress
lies. -/
structure Walk where
  stall : Nat
  cx : XlCtx
  va : Nat
  users : List WalkUser
  stage2 : Bool
  table : Bool
  level : Nat
  s1lev : Nat
  input : Nat            -- the address that the stage in progress translates
  ptr : Phys
  leaf1 : Option Word    -- the stage-1 leaf, once found
  size1 : Nat            -- log2 of its size, or 48
  ipa : Nat
  entry : Option Word    -- the entry that a host read has brought
  failed : Nat           -- the status of a host read that failed, or 0
  cache : Bool           -- cached entries may serve it (R221, R222)
  used : Bool            -- a cached entry has served it
  stale : Bool           -- nothing it finds is cached any more (R227, R228)
  marks : List Nat
  deriving DecidableEq, Repr

/-- A cached entry (R223): 0 a combined translation, 1 a stage-1 and 2 a stage-2 table entry `e` of a level. It covers
2^log2 bytes from `va`, an IPA at stage 2, whose entries carry no asid. -/
structure XlEntry where
  kind : Nat
  vmid : Nat
  asid : Nat
  level : Nat
  va : Nat               -- first address
  log2 : Nat             -- size
  e : Word
  ipa : Nat
  out : Nat
  hbm : Bool
  rd : Bool
  wr : Bool
  acc : Bool
  dirty : Bool
  deriving DecidableEq, Repr

/-- An INVALIDATE between steps 2 and 5 (R227), or waiting to enter step 2 (R228). -/
structure Inval where
  dom : Nat
  scope : Nat
  leafOnly : Bool
  vmid : Nat
  asid : Nat
  start : Nat
  pages : Nat
  active : Bool
  acks : List Nat        -- stalls that have acknowledged
  deriving DecidableEq, Repr

/-! ### Matching (chapter 09) -/

/-- A match entry (R235). -/
structure Me where
  ctx : Nat
  kind : Nat             -- 1 POSTED, 2 BOUND, 3 UNEXPECTED
  cls : Nat              -- POSTED and BOUND: 0 EXACT, 1 SOURCE, 2 ANY (R232)
  slot : Nat             -- its place in the share it is taken from (log entry 119)
  rndv : Bool
  hdrOnly : Bool
  rank : Nat
  tag : Nat
  mask : Nat
  seq : Nat
  buffer : Nat
  bufLen : Nat
  mlen : Nat
  tf : Nat               -- flow of the message
  srcFa : Nat            -- its initiator
  sctx : Nat
  msn : Nat
  firstPsn : Nat
  ct : Nat
  counted : Nat
  refused : Nat          -- bytes refused (R246)
  op : Nat               -- the RECV_POST's command, meaningless for UNEXPECTED
  blocks : List Nat      -- the unexpected blocks held, in the order of the message's bytes (R247)
  ux : List (Nat × List Byte)  -- their contents: offset in the message, bytes (R247)
  copying : Nat          -- copies into the receive buffer still in progress
  status : Nat
  detail : Nat
  srcAddr : Nat
  srcKey : Nat
  tc : Nat
  adapt : Bool
  discard : Bool         -- its function was reset: payloads are discarded (R255)
  deriving DecidableEq, Repr

/-- A SEND packet held for MSN order (R241). -/
structure HeldSend where
  ctx : Nat
  msn : Nat
  pkt : Pkt
  deriving DecidableEq, Repr

/-! ### Flows (chapter 10) -/

/-- An atomic in host memory by the RMA unit (R278): the link and the aligned 8 bytes it works on. -/
structure HostAtom where
  use : Option Nat       -- the use under which it is made (R227)
  link : Nat
  addr : Nat
  tf : Nat
  psn : Nat
  deriving DecidableEq, Repr

/-- An item that waits to be sent on a flow: a command's message, or a packet the unit makes. -/
structure SendItem where
  op : Option Nat        -- the command
  me : Option Nat        -- the receive, for a rendezvous read
  opc : Nat
  tc : Nat
  adapt : Bool
  ordered : Bool
  addr : Nat             -- remote address of the message's first byte
  key : Nat
  local_ : Nat           -- local address of the message's first byte
  tag : Nat
  mlen : Nat
  moff : Nat             -- next offset to send
  msn : Option Nat       -- taken when the first packet is sent
  firstPsn : Option Nat
  inline_ : Option (List Byte)
  data : Option (List Byte)  -- the next packet's payload, once read
  reading : Bool
  payload : List Byte    -- the flit of an ATOMIC_REQ or RTS
  sent : Nat             -- packets sent
  ended : Bool
  deriving DecidableEq, Repr

/-- An outstanding PSN of an initiator flow (R266). -/
structure Outst where
  psn : Nat
  opc : Nat
  op : Option Nat
  me : Option Nat
  bytes : Nat
  pkt : Pkt
  lastTx : Nat
  sends : Nat
  acked : Bool           -- GET_REQ, ATOMIC_REQ: acknowledged, its answer still awaited
  local_ : Nat
  moff : Nat
  len : Nat
  pieces : List Nat      -- pieces of a GET chunk that have arrived
  writing : Nat          -- writes of arrived pieces not yet finished
  tsl : Nat              -- TSL of the last transmission
  gap : Bool             -- a higher PSN has been shown delivered (R280)
  nackAt : Option Nat    -- when a retryable NACK refused it (R272)
  deriving DecidableEq, Repr

/-- An item that waits for a flow record of a context to a peer (R252, R263). -/
structure Due where
  ctx : Nat
  fa : Nat
  pc : Nat
  item : SendItem
  deriving DecidableEq, Repr

/-- An initiator flow record (R262). -/
structure IFlow where
  ctx : Nat
  peerFa : Nat
  peerCtx : Nat
  start : Nat
  next : Nat
  nextMsn : Nat
  est : Bool
  opened : Bool
  ctrl : Word            -- RMA_CTRL when the flow was opened (R288)
  cwnd : Nat
  baseRtt : Option Nat
  lastDec : Option Nat
  outst : List Outst
  queue : List SendItem
  lastUse : Nat
  deriving DecidableEq, Repr

/-- A message in progress at the target (R275). -/
structure InProg where
  first : Nat
  mlen : Nat
  counted : Nat
  addr : Nat
  deriving DecidableEq, Repr

/-- A packet whose effects have been issued and that is not yet delivered (R270), or whose
header run is in progress (R331). -/
structure Issued where
  psn : Nat
  pkt : Pkt
  at_ : Nat
  stage : Nat            -- 0 header run, 1 effects issued
  pay : Bool             -- an entry of the run queue is reserved for its payload run (R327)
  w0 : Option Word       -- word 0 of the key entry under which a PUT was checked (R273)
  deriving DecidableEq, Repr

/-- A target flow record (R262). -/
structure TFlow where
  ctrl : Word            -- RMA_CTRL when the flow was opened (R288)
  srcFa : Nat
  sctx : Nat
  dctx : Nat
  start : Nat
  cum : Nat
  deliv : List Nat       -- delivered PSNs above cum
  refused : List Nat     -- refused PSNs that are still remembered
  cause : Nat
  causeDetail : Nat
  nextMsn : Nat
  skipMsn : List Nat     -- MSNs of aborted messages not yet matched (R282)
  aborted : List Nat     -- first PSNs of aborted messages
  unsure : List (Nat × Nat)  -- those of which no packet is known, with the MSN that the abort carried
  prog : List InProg
  atoms : List (Nat × Word × Nat)
  held : Option Pkt
  sends : List HeldSend
  issued : List Issued
  unacked : Nat
  firstUnacked : Option Nat
  newestPsn : Nat
  newestTsl : Nat
  newestAt : Nat
  lastRx : Nat
  deriving DecidableEq, Repr

/-- A packet that has reached an endpoint of this chip (R136). -/
structure Ejected where
  pkt : Pkt
  port : Option Port
  deriving DecidableEq, Repr

/-! ### Grooms (chapter 12) -/

/-- An event that starts a run, as it waits in a run queue (R326 to R330): kind 0 header, 1
payload, 2 completion; the packet or the 64-byte record that fills the packet window. -/
structure RunRef where
  kind : Nat
  ctx : Nat
  tf : Nat
  psn : Nat
  code : Nat             -- g4: OPC of the packet, or the event code
  n : Nat                -- g7: payload bytes
  window : List Byte
  budget : Option Nat    -- what its packet's header run left of their budget (R333); none draws on the binding's
  srcFa : Nat
  deriving DecidableEq, Repr

/-- What a run waits for. -/
inductive GWait where
  | none
  | ldv (va : Nat) (own : Option Nat) (acq : Bool)   -- what the load takes from the run's own buffered store (R354)
  | stv (va : Nat)
  | hamo (va fn operand compare : Nat)
  | hlock (rd lock : Nat)
  | wfe (rd mask : Nat)
  | issue                               -- an ISSUE waits for one of 8 commands to complete (R343)
  deriving DecidableEq, Repr

/-- A store in a Groom's store buffer (R342): to local space, to HBM or to host memory once
translated. `busy` says that an MWR for it has been queued. -/
structure GStore where
  id : Nat
  phys : Option Phys     -- none: shared or private scratch at `addr`
  addr : Nat
  size : Nat
  data : Nat
  release : Bool
  busy : Bool
  use : Option Nat       -- the use under which it is made (R227)
  deriving DecidableEq, Repr

/-- A run in progress (R329, R332). -/
structure Run where
  id : Nat               -- the model's number of the run
  ref : RunRef
  bind : List Word       -- words 20 to 23 as they stood when the run started (R325)
  regs : List Word
  pc : Nat
  budget : Nat
  since : Nat
  wait : GWait
  stores : List GStore
  nextStore : Nat
  handles : List (Nat × Nat × Nat)  -- handle, local address of the image, command
  events : Nat
  timer : Word
  timerHit : Bool        -- the TIMER event has become pending
  /-- HBM and scratch as they stood at the run's last point that orders its later loads, and the ranges of addresses in
  them that the run has since read or written: a plain load of any other place may have been performed then (R354). -/
  pastHbm : Tab Byte
  pastBuf : Tab Byte
  seen : List (Bool × Nat × Nat)
  halted : Bool
  exc : Option (Nat × Nat × Nat × Nat)  -- kind, detail, address, pc
  deriving DecidableEq, Repr

/-- A Groom. -/
structure Groom where
  scratch : Tab Byte := []
  prevCtx : Option Nat := none
  fenced : Bool := false
  run : Option Run := none
  sampleLeft : Nat := 0
  deriving DecidableEq, Repr

/-- A stall's run queues (R327). -/
structure RunQ where
  runs : List RunRef := []
  cpls : List RunRef := []
  spill : List RunRef := []
  deriving DecidableEq, Repr

/-! ### Privileged cores (chapter 13) -/

/-- How far an access of a privileged core has come (R362, R363): a NORMAL-WEAK store that its core still holds; a store
that the path to its endpoint has accepted under EWA; an access of host memory that awaits its answer. -/
inductive CoreStage where
  | held | onPath | awaited
  deriving DecidableEq, Repr

/-- An access of a privileged core that is not performed yet; `core` is the Steward's domain, 2 for the Warden. -/
structure CoreAcc where
  id : Nat
  core : Nat
  addr : Nat
  data : Word
  stage : CoreStage
  strict : Bool          -- DEVICE-STRICT: every later access of the core is performed after it (R362)
  deriving DecidableEq, Repr

/-! ### Locks (chapter 14) -/

/-- A master that may own and wait for locks (R383). -/
inductive Holder where
  | run (g : GroomId)
  | steward
  | fn (link f : Nat)
  deriving DecidableEq, Repr

/-- A waiter of a lock (R385). -/
structure Waiter where
  who : Holder
  prio : Nat
  since : Nat
  deriving DecidableEq, Repr

/-- A lock object (R382): its owner, the priority at which it acquired, and the waiters in the
order in which they were queued. -/
structure Lock where
  owner : Option Holder := none
  prio : Nat := 0
  abandoned : Bool := false
  gen : Nat := 0
  waiters : List Waiter := []
  deriving DecidableEq, Repr

/-! ### Collectives (chapter 11) -/

/-- An input of an instance (R300): a local member, with the command that posted its contribution,
or a child. `out` leaves it out of the combination (R314). -/
structure ClIn where
  op : Option Nat := none
  out : Bool := false
  asked : Nat := 0       -- segments whose send-buffer reads have been issued
  segs : Tab (List Nat) := []  -- segments present and not yet combined
  status : Nat := 0      -- the member's own failure (R313)
  detail : Nat := 0
  writes : Nat := 0      -- result writes in progress
  ended : Bool := false
  deriving DecidableEq, Repr

/-- An instance of a group at an engine: a stream (R295, R298). -/
structure ClInst where
  engine : Nat
  dom : Nat
  group : Nat
  n : Nat                -- instance number, a whole count
  op : Nat
  ty : Nat
  mode : Nat
  count : Nat
  since : Nat
  next : Nat             -- oldest segment not yet combined
  members : Tab ClIn     -- by place in the local list
  kids : Tab ClIn        -- by child index
  flags : Nat            -- flags of the inputs and raised here (R300)
  result : Nat           -- flags that the result carries
  downs : List Nat       -- down segments finished or received
  rows : Tab (List Nat) := [] -- finished segments held until the whole result is known (R313)
  deriving DecidableEq, Repr

/-- What the engine keeps for an installed group: the next instance of each local member (R295) and
the instances that have ended. -/
structure ClGroup where
  engine : Nat
  seqs : Tab Nat := []
  floor : Nat := 0
  ended : List Nat := []
  deriving DecidableEq, Repr

/-- Work that an effect leaves to be done within the same command: a lookup or an
access of a use (R214), a transfer whose uses have all ended, a walk that a cached entry serves, what waits for a flow record
(R263), or a packet that may now take effect on its flow (R140, R241). -/
inductive Task where
  | walk (w : Nat)
  | due
  | lookup (u : Nat)
  | access (u : Nat)
  | xferDone (x : Nat)
  | rx (tf : Nat) (p : Pkt) (flagDone matchDone : Bool)
  deriving DecidableEq, Repr

end Sys2Proof.Machine
end

