-- ==== Sys2Proof/Machine/LinkTypes.lean ====
section
/-! DEFINITION. The records of the serial lanes, the link layers, the routing stages and the egress of
the ports (chapters 03, 04, 05 and 15), beside their registers. -/

namespace Sys2Proof.Machine

/-! ### Lanes (chapter 03) -/

/-- A serial lane. -/
structure Lane where
  step : Nat := 0            -- step of R61 or R72 under way while TRAINING
  since : Nat := 0           -- when the attempt began
  fails : Nat := 0           -- consecutive attempts that have failed
  seenPam4 : Nat := 0        -- consecutive frames that carried req_pam4
  seenReady : Nat := 0       -- consecutive frames that carried rx_ready
  pam4 : Bool := false       -- this transmitter sends PAM4
  precode : Bool := false    -- this transmitter precodes
  farPrecode : Bool := false -- the far transmitter precodes
  farPam4 : Bool := false
  preStat : Nat := 0         -- statuses that answer the tap requests (R60)
  postStat : Nat := 0
  preset : Nat := 0          -- host: preset now applied (R70)
  ready : Bool := false      -- this receiver has finished adaptation
  farReady : Bool := false   -- host: rx_ready received
  txIdle : Bool := false     -- the transmitter holds electrical idle
  rxIdle : Bool := false     -- the far transmitter has announced electrical idle
  corr : List (Nat × Nat) := []  -- corrected symbols or violations of the last second (R79)
  chkSince : Option Nat := none  -- since when the checker has counted (R74)
  bits : Nat := 0            -- bits compared before that
  scanAt : Nat := 0          -- when the margin scan began
  eyeAt : Nat := 0           -- when LANE_EYE was last refreshed (R78)
  injAt : Nat := 0           -- since when the present inject_rate has counted bits, and the bursts since then (R76)
  injNo : Nat := 0
  farPreset : Nat := 0       -- host: preset that the far transmitter has applied (R71)
  req : Nat := 0             -- host: preset requested of the far transmitter (R72)
  swept : Bool := false      -- host: every preset has been requested and applied
  askPre : Bool := false     -- precoding is requested of the far transmitter (R60)
  ask : BitVec 7 := 0        -- preset, pre_req and post_req of the control field sent
  ctle : BitVec 4 := 0       -- CTLE peaking and DFE taps as adapted (R58, R70)
  dfe : BitVec 128 := 0
  invert : Nat := 0          -- bits of the serial stream that are still to be inverted (R76)
  rd : Bool := false         -- host: running disparity sent and received, true for positive (R65)
  rxRd : Bool := false
  rxCount : Nat := 0         -- count of the last codeword received (R54)
  gen : Nat := 1             -- pattern generator (R59, R74)
  txLast : Nat := 0          -- level index last sent and last received (R51)
  rxLast : Nat := 0
  scr : BitVec 58 := 0       -- scrambler and descrambler (R53)
  rxScr : BitVec 58 := 0
  deriving DecidableEq, Repr

/-! ### Network link layer (chapter 04) -/

/-- A frame in the replay buffer (R88). -/
structure TxFrame where
  seq : Nat
  poison : Bool
  vc : Nat
  flits : List (BitVec 512)
  sentAt : Nat
  deriving DecidableEq, Repr

/-- A link retrain in progress (R104): when step 1, step 2 and step 3 were taken, the state to return to, and
whether frames have resumed (step 5). -/
structure Retrain where
  window : Nat
  step2 : Nat
  step3 : Nat
  back : Nat
  resumed : Bool
  deriving DecidableEq, Repr

/-- Where a committed packet's flits go (R135, R136). -/
inductive WormDest where
  | out (p : Nat) (vc : Nat)
  | eject
  | drop
  deriving DecidableEq, Repr

/-- A packet that has committed, by its source: its flits still to leave, and those collected for an
endpoint. -/
structure Worm where
  dest : WormDest
  left : Nat
  got : List Flit
  deriving DecidableEq, Repr

/-- An output VC that a packet holds (R135): the source of its flits, its class, its flits not yet sent, and whether
its header is among them. -/
structure OutVc where
  src : Nat
  tc : Nat
  left : Nat
  head : Bool
  deriving DecidableEq, Repr

/-- A shaper as it acts (R403, R404), while its register already shows what was written. -/
structure Shaper where
  on : Bool := false
  tokens : Int := 0
  deriving DecidableEq, Repr

/-- What a port has learnt from its neighbour's TIME_SYNCs (R393 to R395). -/
structure SyncRx where
  epoch : Nat
  dist : Nat
  valid : Bool
  seq : Nat
  at_ : Nat              -- when it arrived, in clk
  nt : Nat               -- NT at which it arrived
  deriving DecidableEq, Repr

/-- The data of a received codeword that waits for those of the other lanes (R55): its count, whether it is erred, and
its 640 bytes. -/
structure RxShare where
  count : Nat
  erred : Bool
  data : List Byte
  deriving DecidableEq, Repr

/-- A network port: link layer, input buffer, egress. -/
structure PortSt where
  lastAcc : Nat := 0xFFFFFF
  nak : Option Nat := none       -- a NAK is outstanding: when it was last sent
  next : Nat := 0
  replay : List TxFrame := []
  resend : Option Nat := none    -- a replay in progress: the next sequence number to resend
  count : Nat := 0               -- replay count of the oldest frame (R89)
  used : Tab Nat := []
  lastCum : Tab Nat := []
  freed : Tab Nat := []
  changed : List Nat := []       -- VCs whose freed count has changed since reported, oldest first (R92)
  credAt : Tab Nat := []         -- trailer in which each VC was last reported
  credNo : Nat := 0
  ackOwed : Bool := false
  far : Option (BitVec 512) := none  -- the far HELLO accepted since link-up
  helloSeq : Option Nat := none  -- sequence number of this end's HELLO at link-up
  helloAcked : Bool := false
  recheck : Bool := false        -- the far HELLO is judged again when the retrain ends (R102)
  txLocal : List (BitVec 512) := []
  rxLocal : List (BitVec 512) := []
  ibuf : Tab (List Flit) := []
  old : Tab Nat := []            -- flits in the input buffer that came before the last link-up
  pools : Word := 0              -- LL_CREDIT as it stood at link-up: the pools announced
  bad : List Nat := []           -- input VCs whose flits are discarded (R122)
  outv : Tab OutVc := []
  retrain : Option Retrain := none
  retrains : List Nat := []      -- when the retrains of the last second began (R106)
  trainAt : Nat := 0
  helloAt : Nat := 0
  quarAt : Nat := 0
  quietAt : Nat := 0
  txIdle : Bool := false
  rxIdle : Bool := false
  use : List Nat := []           -- physical lanes in use, ascending
  -- routing and egress
  txBypass : List Bool := []     -- one-flit packets that wait to leave: true a TIME_SYNC, false a beacon
  beaconSeq : Nat := 0
  beaconAt : Nat := 0
  loads : Option (Nat × BitVec 64) := none  -- when the last beacon arrived, and its loads (R132)
  turn : Tab Nat := []           -- VC last served, by class (R401)
  wptr : Nat := 0                -- pointer of the weighted group (R402)
  reached : Bool := false
  deficit : Tab Nat := []
  shapers : Tab Shaper := []
  refill : Nat := 0              -- the µs of NT at which the shapers were last refilled
  gateAsked : Nat := 0           -- NT at the last request of a gate switch (R407)
  -- time
  syncSeq : Nat := 0
  syncAt : Nat := 0
  sent : List (Nat × Nat) := []  -- the last 4 TIME_SYNCs sent: seq and NT
  rx : Option SyncRx := none
  syncIn : List Nat := []        -- NTs at which the flits of VC0 in the input buffer arrived, oldest first (R394)
  delay : Option Int := none     -- link delay by the last exchange, in counts (R394)
  -- the byte streams (R53, R83)
  txCount : Nat := 0             -- count of the next codeword sent (R54)
  txBytes : List Byte := []      -- bytes of frames that do not yet fill a codeword on every lane in use
  rxNext : Option Nat := none    -- flits of the next frame; none: up to the next alignment point all is discarded
  rxq : Tab (List RxShare) := [] -- codewords not yet aligned, by logical lane
  rxBytes : List (Byte × Bool) := []  -- bytes received that no frame has taken, with their erred marks
  deriving DecidableEq, Repr

/-- A bank of exception entries, by register address, and the ports it retires (R421, R426). -/
structure RtBank where
  exc : Tab Word := []
  retire : Word := 0
  deriving DecidableEq, Repr

/-! ### Host link layer (chapter 04) -/

/-- A TLP in the replay buffer of a host link (R96). -/
structure HTx where
  seq : Nat
  rsp : Bool
  body : List Byte
  sentAt : Nat
  wtag : Option Nat
  deriving DecidableEq, Repr

/-- The four counts of a host link's credits: REQ headers and data, RSP headers and data (R95). -/
structure HCred where
  rqh : Nat := 0
  rqd : Nat := 0
  rsh : Nat := 0
  rsd : Nat := 0
  deriving DecidableEq, Repr

/-- The link layer of a host link. -/
structure HostLl where
  lastAcc : Nat := 0xFFFF
  nak : Option Nat := none
  next : Nat := 0
  replay : List HTx := []
  resend : Option Nat := none
  count : Nat := 0
  used : HCred := {}
  lastCum : HCred := {}
  freed : HCred := {}
  pools : Option HCred := none   -- the pools that the far end has announced
  ann : Word := 0                -- LL_CREDIT as it stood at link-up: the pools announced
  credDue : Bool := false
  credAt : Nat := 0
  ackDue : Bool := false
  ackCnt : Nat := 0              -- TLPs accepted since the last ACK
  turn : Bool := false           -- RSP is served next
  hello : Bool := false          -- the HELLO exchange of link-up is under way
  seen : Bool := false           -- a valid HELLO has been received
  retrain : Option Retrain := none
  retrains : List Nat := []
  trainAt : Nat := 0
  helloAt : Nat := 0
  helloTx : Nat := 0             -- when the last HELLO was sent
  quietAt : Nat := 0
  txIdle : Bool := false
  rxIdle : Bool := false
  use : List Nat := []
  sinceAck : Nat := 0            -- link packets sent since the last ACK (R96)
  sinceSet : Nat := 0            -- character times sent since the last alignment set (R68)
  sentTo : Nat := 0              -- the character time up to which the lanes in use have sent (R67)
  rxPkt : Option (List Byte × Bool) := none  -- a packet whose end has not come, and whether it holds a violation
  deriving DecidableEq, Repr

end Sys2Proof.Machine
end

