-- ==== Sys2Proof/Machine/TackTypes.lean ====
section
/-! DEFINITION. The records of the supplies and pins, the Tack Room, the mailbox, the coat engine and the
directories (chapters 02, 13, 16 and 17), beside their registers. -/

namespace Sys2Proof.Machine

/-- Supplies and management pins (R36 to R48). -/
structure Pins where
  vinAux : Bool := false
  graveLatch : Bool := false -- GRAVE is latched on the auxiliary supply (R40, R44)
  vinMain : Bool := false    -- VIN_MAIN is above 1 V, as last told
  resetL : Bool := false     -- the level of RESET_L
  mainEn : Bool := false
  mainPg : Bool := false     -- MAIN_PG, while MAIN_EN is high
  faultP : Bool := false
  faultN : Bool := false
  trip : Bool := false       -- THERM_TRIP_L is latched low
  addr0 : Bool := false      -- straps as read when the Tack Room became ready (R45)
  addr1 : Bool := false
  deriving DecidableEq, Repr

/-- The records of the configuration flash, and its undercoats and staging area (R434). A slot with no
bytes is empty. -/
structure Flash where
  slotA : List Byte := []
  slotB : List Byte := []
  stage : List Host.Cell := []
  stageLen : Nat := 0
  failCount : Nat := 0
  suspectA : Bool := false
  suspectB : Bool := false
  preferred : Nat := 0
  grave : Option (Nat × Nat) := none  -- fault code and unit (R40)
  watchdog : Bool := false
  mainLost : Bool := false
  inProgress : Bool := false
  reason : Nat := 0
  oneStart : Bool := false   -- COAT_INSTALL since Dust-sheet mode was entered (R453)
  deriving DecidableEq, Repr

/-- The vendor root public key in the Tack Room ROM (R411). -/
@[irreducible] def vendorRootKey : Nat × Nat := ecPublic Config.vendorSecret

/-- The fuses (R431): vendor test disable, the identity secret, owner hashes, revocations, security version. -/
structure Fuses where
  testOff : Bool := true     -- vendor test disable, blown before delivery (log entry 177)
  secret : BitVec 512 := Config.identitySecret
  owner0 : Option (BitVec 256) := none
  owner1 : Option (BitVec 256) := none
  revoked0 : Bool := false
  revoked1 : Bool := false
  sec : Nat := 0
  vendorRoot : Nat × Nat := vendorRootKey  -- not a fuse: the vendor root public key in the Tack Room ROM (R411)
  deriving DecidableEq, Repr

/-- A verified topcoat on its way (R424). `scope` and `unit` are those that it is applied as: a LANE
topcoat with allow_down may be applied as one of its port or link. -/
structure CoatJob where
  scope : Nat
  unit : Nat
  secs : List (Nat × List Byte)
  serial : Nat
  hash : BitVec 512
  since : Nat                -- when draining, or resuming, began
  was : Bool                 -- enable of a LANE topcoat's lane before
  blocks : List (Nat × Option Nat)  -- bases of the blocks whose faults refuse it, and the one unit that a DEGRADE concerns
  hit : Bool                 -- such a fault has been observed (R425)
  deriving DecidableEq, Repr

/-- The Tack Room's working state (R431): lost with each Tack Room start. -/
structure Tack where
  up : Bool := false         -- ready: SMBus answers
  dead : Bool := false       -- its watchdog has expired (R450)
  starting : Bool := false   -- a start is in progress (R449)
  startAt : Nat := 0         -- Tack Room time at the first step of the start (R447)
  stepAt : Nat := 0          -- and at the step in progress
  retryAt : Option Nat := none  -- since when the pause of R449 runs
  dustStep : Nat := 0        -- step of R452 in progress, 0 for none
  leaving : Bool := false    -- the start leaves Dust-sheet mode (R453)
  stopping : Bool := false   -- an orderly stop waits for the store buffers (R38)
  voltAt : Nat := 0          -- when the loops for voltage and power last ran (R445, R446)
  powAt : Nat := 0
  before : Nat := 0          -- fail_count before this start
  applied : Option Nat := none  -- the slot whose application has begun
  tried : Nat := 0           -- slots refused in step 7 of this start (R448)
  noteAt : Option Nat := none   -- the latest TACK NOTE (R462)
  underHash : BitVec 512 := 0   -- of the undercoat in use, 0 for none
  burn : Option Nat := none  -- security version to be burnt when the start succeeds (R418)
  chain : BitVec 512 := 0
  chained : Nat := 0
  nonce : Option (BitVec 512 × Nat) := none
  smbReport : Option (List Byte) := none
  smbPart : Nat := 0
  coat : Option CoatJob := none
  tjMax : Nat := 0           -- hottest junction sensor, °C, as an unsigned byte
  deriving DecidableEq, Repr

/-- A mailbox command in progress, with the inputs it took (R440). -/
structure MbCmd where
  code : Nat
  args : List Word
  buf : List Host.Cell       -- bytes of MB_BUF, by offset
  quiet : Bool               -- the claim under which it ran has ended
  deriving DecidableEq, Repr

/-- The mailbox beside its registers (R438, R440). -/
structure Mbox where
  holder : Option Master := none
  since : Nat := 0           -- Tack Room time of the claim, or of the last completion
  run : Option MbCmd := none
  urgent : Option MbCmd := none
  overtaken : Bool := false  -- an urgent command has been taken while `run` was in progress
  deriving DecidableEq, Repr

/-- States of a line in a context cache (R366); NONE is not listed. -/
inductive LineState where
  | dirty | unique | lead | shared
  deriving DecidableEq, Repr

/-- A value of a _LO register captured for a master by its read of the _HI register (R492). -/
structure Capture where
  m : Master
  addr : Nat
  v : Word
  deriving DecidableEq, Repr

end Sys2Proof.Machine
end

