-- ==== Sys2Proof/Machine/State.lean ====
section
/-! DEFINITION. The state of the NV-6451: its registers, memories, queues, records and pins, the
commands that wait, and the state right after reset. -/

namespace Sys2Proof.Machine

/-- What crosses the boundary of the part outwards. -/
inductive Emission where
  | frame (p : Port) (trailer : BitVec 128) (flits : List (BitVec 512))
  | hostPacket (h : HLink) (bytes : List Byte)
  /-- What the transmitter of a network lane sends, as level indexes (R51): a codeword (R53), a training frame (R59) and the
  burst of a fast exit (R64). -/
  | codeword (n : LaneId) (line : BitVec 5440)
  | training (n : LaneId) (line : BitVec 8192)
  | exitBurst (n : LaneId) (line : BitVec 2048)
  /-- Code groups that the transmitter of a host lane sends (R65). -/
  | groups (n : LaneId) (gs : List (BitVec 10))
  /-- `k` character times of K28.5 on a host lane (R67). -/
  | fill (n : LaneId) (k : Nat)
  /-- A lane starts to send a test pattern: its code, the user pattern, its generator, and whether its polarity is inverted
  (R74, R80). -/
  | pattern (n : LaneId) (code : Nat) (up : BitVec 80) (gen : Nat) (inverted : Bool)
  /-- `bits` consecutive bits of a lane's serial stream are inverted (R76). -/
  | burst (n : LaneId) (bits : Nat)
  /-- The data of an SMBus block read (R444). -/
  | smbus (bytes : List Byte)
  /-- The value that a read of the device address space returned to its master. -/
  | value (m : Master) (addr : Nat) (v : Word)
  /-- An access by a privileged core ended with an error, which is returned to it (R363). -/
  | busError (m : Master) (addr : Nat)
  /-- The hitch status that an atomic of a domain's Steward returned to it (R381). -/
  | hitchStatus (d : Dom) (status : Nat)
  /-- The internal event that tells a domain's Steward of a lock it waited for, granted with ABANDONED or not, or of
  inheritance on a lock it owns (R384, R387). -/
  | stewardLock (d n : Nat) (inherit abandoned : Bool)
  deriving DecidableEq, Repr

/-- The ways a command can end in a fault. No command of this model does. -/
inductive Fault where
  /-- Raised by no command. Safe: nothing rests on it. -/
  | none
  deriving DecidableEq, Repr

/-- The ways a command can be refused. -/
inductive Refusal where
  /-- Raised by an arm of `exec` whose command has no meaning yet. Safe: the machine stops. -/
  | notModelled (mnemonic : String)
  deriving DecidableEq, Repr

/-- The fixed counter of a block (R474): it read `val` when `since` counts had passed, and counts
on from there while `run` is true. -/
structure PmFix where
  val : Nat := 0
  since : Nat := 0
  ovf : Bool := false
  run : Bool := true
  deriving DecidableEq, Repr

structure State where
  /-- The commands that wait, first in, first out. -/
  pending : List Instr
  /-- Every register (R498) whose value differs from its reset value, by device address. -/
  regs : Tab Word
  /-- HBM, both stacks, by offset in the HBM window (R487): bytes that are not 0. -/
  hbm : List Host.Cell
  /-- Shared stall scratch (R323) and MB_BUF (R455): bytes that are not 0, by device address. -/
  buf : List Host.Cell
  /-- Counts of 1/16 ns since the handshake core's last start; never stepped. -/
  clk : Nat
  /-- Network time (R391). -/
  nt : BitVec 64
  /-- Tack Room time, in counts of 1/16 ns (R432). -/
  tk : Nat
  /-- Main power is up: the regulators hold the core rails. -/
  coreOn : Bool
  /-- The next handle of a record (the model's own): handles are never used twice (log entry 4). -/
  serial : Nat
  /-- Draws made from the Tack Room's random source (the model's own). -/
  draws : Nat
  /-- Free values taken (the model's own). -/
  frees : Nat
  /-- What has been sent at the boundary, newest first (the model's own record). -/
  out : List Emission
  pmFix : Tab PmFix
  /-- Conditions counted in edge mode, as last observed, by counter address. -/
  pmSeen : Tab Bool
  /-- When FAULT_RAISED was last posted for a code of a block (R460). -/
  ftPosted : Tab Nat
  /-- Shares of the partition (R419): base and size in units of 16 MiB, by 16 d + id. -/
  shares : Tab (Nat × Nat)
  /-- Contexts below this number are homed in East (R419). -/
  ctxEast : Nat
  ht : Tab HostTl
  eqs : Tab Eq
  cqs : Tab Cq
  trigs : List Trig
  ops : Tab Op
  ctxs : Tab Ctx
  /-- Uses of transfers in progress (R224), by handle. -/
  uses : Tab Use
  xfers : Tab Xfer
  walks : Tab Walk
  xl : Tab (List XlEntry)
  invals : Tab Inval
  mes : Tab Me
  ifl : Tab IFlow
  tfl : Tab TFlow
  /-- Atomics in host memory, oldest first: the first of each 8 bytes is in progress (R278). -/
  hatoms : List HostAtom
  /-- Packets that wait to be routed, by 4 × stall + VCLASS (R135). -/
  inject : Tab (List Pkt)
  eject : List Ejected
  toInit : List Pkt
  /-- Items that wait for a flow record (R263). -/
  due : List Due
  /-- Events and completion runs that wait for the acknowledgement of a write that they follow (R326, R359). -/
  posts : Tab (List Post)
  todo : List Task
  /-- Installed groups, by 65536 d + group. -/
  groups : Tab ClGroup
  insts : Tab ClInst
  /-- Collective packets that wait at an engine, in arrival order (R136). -/
  collUp : Tab (List Pkt)
  collDown : Tab (List Pkt)
  /-- Fenced reduction engines (R465). -/
  engOff : List Nat
  /-- Lock objects (R382), by 65536 d + n: those that differ from a fresh one. -/
  locks : Tab Lock
  /-- Records written to a telemetry FIFO since it was made valid (R481), by 16 d + i. -/
  tmWrote : Tab Nat
  /-- Grooms, by 16 s + g. -/
  grooms : Tab Groom
  runqs : Tab RunQ
  /-- Serial lanes: network lane l of port p at 4 p + l, host lane l of link h at 256 + 16 h + l. -/
  lanes : Tab Lane
  /-- Word 2 of the latest CALIBRATION record of each lane (R422), by lane. -/
  cals : Tab Word
  ports : Tab PortSt
  hll : Tab HostLl
  /-- Committed packets, by source: input VC v of port p at 16 p + v, class c of stall s at 1024 + 4 s + c. -/
  worms : Tab Worm
  /-- The highest epoch received since the Tack Room started (R392), 0 for none. -/
  epochSeen : Nat
  /-- Headers that wait to commit, by source: since when (R134). -/
  waits : Tab Nat
  /-- The loaded shadow bank, and the old bank during its grace time (R426, R427). -/
  newBank : Option RtBank
  oldBank : Option RtBank
  /-- The epoch of the routing topcoat that is pending or in its grace time (R426). -/
  loadedEpoch : Nat
  /-- Ports that the operating epoch retires (R421). -/
  retired : Word
  /-- The port, host link or domain that a topcoat drains (R424). -/
  holdPort : Option Nat
  holdHost : Option Nat
  holdDom : Option Nat
  /-- Since when the chip has been in holdover, and since when no condition of R400 has held. -/
  holdSince : Option Nat
  goodSince : Option Nat
  /-- The last PPS_IN edge, or when the chip became the root; and NT at the last edge that it saw as the root (R397). -/
  ppsAt : Nat
  ppsNt : Option (BitVec 64)
  /-- When NT_SEED was last armed (R397), and θ of the latest exchanges with the parent, newest first (R399). -/
  armedAt : Nat
  thetas : List Int
  /-- What NT has advanced beyond a whole count at the corrected rate, in parts of 10^9 (R396). -/
  ntFrac : Nat
  /-- Since when PPS_OUT has been high (R398). -/
  ppsOut : Option Nat
  /-- Runs started (the model's own number of the next run). -/
  runs : Nat
  pins : Pins
  flash : Flash
  fuses : Fuses
  tack : Tack
  mbox : Mbox
  /-- The directories (R365): holders of each tracked line with their states, by line address / 64. -/
  dir : Tab (List (Nat × LineState))
  /-- Lines that a write hint has installed in a cache that may already have asked for them (R370): the cache, by line. -/
  hints : Tab Nat
  /-- Step of R375 in progress, per domain. -/
  restart : Tab Nat
  captures : List Capture
  /-- When the pace monitors' interval last ended (R21). -/
  paceAt : Nat
  /-- When a domain's Steward watchdog last started (R371, R375), in clk. -/
  stewardAt : Tab Nat
  /-- Accesses of the privileged cores that are not performed yet, oldest first (R362, R363). -/
  coreAccs : List CoreAcc
  deriving DecidableEq, Repr

/-- The machine in cold reset (R41, R493): VIN_AUX is present, RESET_L is low, main power is off, every register
holds its reset value, and the part is as delivered (R499). The next event is the rise of RESET_L. -/
def State.reset : State :=
  { pending := [], regs := [], hbm := [], buf := [], clk := 0, nt := 0, tk := 0, coreOn := false, serial := 0, draws := 0,
    frees := 0, out := [], pmFix := [], pmSeen := [], ftPosted := [], shares := [], ctxEast := 0, ht := [], eqs := [],
    cqs := [], trigs := [], ops := [], ctxs := [], uses := [], xfers := [], walks := [], xl := [], invals := [], mes := [],
    ifl := [], tfl := [], hatoms := [], inject := [], eject := [], toInit := [], due := [], posts := [], todo := [], groups := [], insts := [],
    collUp := [], collDown := [], engOff := [], locks := [], tmWrote := [], grooms := [], runqs := [], lanes := [], cals := [],
    ports := [], hll := [], worms := [], epochSeen := 0, waits := [], newBank := none, oldBank := none, loadedEpoch := 0, retired := 0,
    holdPort := none, holdHost := none, holdDom := none, holdSince := none, goodSince := none, ppsAt := 0, ppsNt := none,
    armedAt := 0, thetas := [], ntFrac := 0, ppsOut := none, runs := 0, pins := { vinAux := true }, flash := {}, fuses := {}, tack := {}, mbox := {}, dir := [], hints := [],
    restart := [], captures := [], paceAt := 0, stewardAt := [], coreAccs := [] }

end Sys2Proof.Machine
end

