-- ==== Sys2Proof/Machine/Ops.lean ====
section
/-! DEFINITION. The named operations every family is written with: registers and their fields,
memory, the counters of R476, the queues towards a host link, event records (R193 to R196) and the
recording of faults (R458). -/

namespace Sys2Proof.Machine

/-! ### Registers -/

/-- The stored value of a register: its reset value while the file lists none. -/
def State.reg (s : State) (r : Reg) : Word := (tFind s.regs r.addr).getD r.reset

/-- The state with a register's stored value replaced. -/
def State.setReg (s : State) (r : Reg) (v : Word) : State :=
  { s with regs := if v = r.reset then tDel r.addr s.regs else tPut r.addr v s.regs }

/-- Bits [hi:lo] of a register. -/
def State.rf (s : State) (r : Reg) (hi lo : Nat) : Nat := fld (s.reg r) hi lo

/-- Bit `i` of a register. -/
def State.rb (s : State) (r : Reg) (i : Nat) : Bool := bit (s.reg r) i

/-- The state with bits [hi:lo] of a register replaced. -/
def State.wf (s : State) (r : Reg) (hi lo v : Nat) : State := s.setReg r (setFld (s.reg r) hi lo v)

/-- The state with bit `i` of a register replaced. -/
def State.wb (s : State) (r : Reg) (i : Nat) (b : Bool) : State := s.wf r i i (b2n b)

/-- The state with a saturating count in bits [hi:lo] of a register raised by `n`. -/
def State.bump (s : State) (r : Reg) (hi lo n : Nat) : State := s.setReg r (satFld (s.reg r) hi lo n)

/-- TK_STATE.mode (R455): 0 STARTING, 1 READY, 2 DUST_SHEET, 3 DUST_SHEET without main power, 4 HALTED, 5 MAIN_OFF. -/
def State.mode (s : State) : Nat := s.rf .tkState 63 61

/-- Whether the device is in Dust-sheet mode with main power (R452). -/
def State.dust (s : State) : Bool := decide (s.mode = 2)

/-! ### Memory -/

/-- The canonical form of a memory whose unlisted bytes read as 0: addresses strictly rising, no
zero byte listed. -/
def Memory.wf (m : List Host.Cell) : Bool := tCanon (0 : Byte) m

/-- The byte at an address. -/
def memByte (m : List Host.Cell) (a : Nat) : Byte := tGet (0 : Byte) m a

/-- The memory with a byte written. -/
def memPut (m : List Host.Cell) (a : Nat) (b : Byte) : List Host.Cell := tSet (0 : Byte) a b m

/-- `n` bytes from address `a`. -/
def memRead (m : List Host.Cell) (a n : Nat) : List Byte := (List.range n).map (fun i => memByte m (a + i))

/-- The memory with bytes written from address `a`. -/
def memWrite (m : List Host.Cell) : Nat → List Byte → List Host.Cell
  | _, [] => m
  | a, b :: bs => memWrite (memPut m a b) (a + 1) bs

/-- First address of the HBM window (R485). -/
def hbmBase : Nat := 0x10000000000

/-- Bytes of one HBM stack (R487). -/
def stackSize : Nat := 0x600000000

/-- Whether an address lies in the HBM window (R485). -/
def inHbm (a : Nat) : Bool := decide (hbmBase ≤ a ∧ a < hbmBase + 2 * stackSize)

/-- The byte of HBM at a device address (R487). Where software has named an address outside HBM as
one of HBM (log entry 21), nothing is known of the byte. -/
def State.hbmByte (s : State) (a : Nat) : Byte :=
  if inHbm a then memByte s.hbm (a - hbmBase) else BitVec.ofNat 8 (Config.freeValue (2 ^ 80 + a))

/-- `n` bytes of HBM at a device address (R487). -/
def State.hbmRead (s : State) (a n : Nat) : List Byte := (List.range n).map (fun i => s.hbmByte (a + i))

/-- HBM with bytes written at a device address; outside HBM nothing is written (log entry 21). -/
def State.hbmWrite (s : State) (a : Nat) (bs : List Byte) : State :=
  if inHbm a && inHbm (a + bs.length - 1) then { s with hbm := memWrite s.hbm (a - hbmBase) bs } else s

/-- The lines that `n` bytes at a device address of HBM touch, as keys of the directories. -/
def linesOf (a n : Nat) : List Nat :=
  if n = 0 then [] else (List.range ((a + n - 1) / 64 - a / 64 + 1)).map (fun i => a / 64 + i)

/-- An uncached write of some bytes: every copy of their lines is invalidated (R369). -/
def State.dropCopies (s : State) (a n : Nat) : State :=
  let others (t : Tab Nat) : Tab Nat := t.filter (fun e => !(linesOf a n).contains e.1)
  { s with dir := s.dir.filter (fun e => !(linesOf a n).contains e.1), hints := others s.hints }

/-- HBM written by an agent without a cache (R369). -/
def State.uncachedWrite (s : State) (a : Nat) (bs : List Byte) : State := (s.hbmWrite a bs).dropCopies a bs.length

/-- The 64-bit word of HBM at a device address (R5). -/
def State.hbmWord (s : State) (a : Nat) : Word := BitVec.ofNat 64 (ofLe (s.hbmRead a 8))

/-- The domain whose stack holds a device address of the HBM window (R487). -/
def domOfHbm (a : Nat) : Nat := (a - hbmBase) / stackSize

/-! ### Numbers of units -/

def domOf (d : Nat) : Dom := ⟨d % 2, Nat.mod_lt _ (by decide)⟩
def hlinkOf (h : Nat) : HLink := ⟨h % 8, Nat.mod_lt _ (by decide)⟩
def portOf (p : Nat) : Port := ⟨p % 64, Nat.mod_lt _ (by decide)⟩
def stallOf (n : Nat) : Stall := ⟨n % 16, Nat.mod_lt _ (by decide)⟩
def engineOf (n : Nat) : Engine := ⟨n % 8, Nat.mod_lt _ (by decide)⟩

/-- The stall of a port (R3). -/
def stallOfPort (p : Port) : Stall := ⟨p.val / 4, by omega⟩

/-- The domain of a stall (R3). -/
def domOfStall (n : Nat) : Nat := n / 8

/-- Network time in ns. -/
def State.ntNs (s : State) : Nat := s.nt.toNat / 16

/-- Counts of 1/16 ns in `n` µs (R9). -/
def us (n : Nat) : Nat := 16000 * n

/-- Counts of 1/16 ns in `n` ns (R9). -/
def ns (n : Nat) : Nat := 16 * n

/-! ### Domains and shares -/

/-- CS_STATUS.state of a domain: 0 RUNNING, 1 FENCED, 2 RESTARTING (R377). -/
def State.domState (s : State) (d : Nat) : Nat := s.rf (.csStatus (domOf d)) 63 62

/-- Whether a domain runs: neither fenced nor restarting (R373). -/
def State.domRuns (s : State) (d : Nat) : Bool := s.domState d = 0

/-- Whether the registers of a block are frozen with a fenced domain (R373, R467, R475): those of
its stalls and of its reduction engines. -/
def State.frozen (s : State) : Block → Bool
  | .stall n => !s.domRuns (n.val / 8)
  | .coll e => !s.domRuns (e.val / 4)
  | _ => false

/-- First address and size in bytes of share `id` of a domain (R419, R487). -/
def State.share (s : State) (d id : Nat) : Nat × Nat :=
  let e := tGet (0, 0) s.shares (16 * d + id)
  (hbmBase + d * stackSize + e.1 * 0x1000000, e.2 * 0x1000000)

/-- Whether `n` bytes at `a` lie wholly within share `id` of a domain. -/
def State.inShare (s : State) (d id a n : Nat) : Bool :=
  let sh := s.share d id
  decide (sh.1 ≤ a ∧ a + n ≤ sh.1 + sh.2)

/-- The home domain of a context (R419). -/
def State.ctxDom (s : State) (c : Nat) : Nat := if c < s.ctxEast then 0 else 1

/-- Draw from the Tack Room's random source (R431). -/
def State.random (s : State) : BitVec 512 × State := (Config.random s.draws, { s with draws := s.draws + 1 })

/-- A value the specification leaves open: nothing is known of it. -/
def State.free (s : State) (n : Nat) : BitVec n × State :=
  (BitVec.ofNat n (Config.freeValue s.frees), { s with frees := s.frees + 1 })

/-- Something sent at the boundary. -/
def State.emit (s : State) (e : Emission) : State := { s with out := e :: s.out }

/-! ### Performance counters: occurrences (R476) -/

/-- The 48-bit count of a counter register with `n` added; the wrap sets ovf (R473). -/
def pmAdd (w : Word) (n : Nat) : Word :=
  let c := fld w 47 0 + n
  let w := setFld w 47 0 c
  if c < 2 ^ 48 then w else setBit w 63 true

/-- One counter that counts `n` occurrences of `code` if its selection names it in edge mode and
its filter passes `filt` (R476). -/
def pmOne (sel cnt : Reg) (code filt n : Nat) (s : State) : State :=
  let w := s.reg sel
  if bit w 63 && !bit w 62 && fld w 15 0 = code && (!bit w 61 || fld w 59 38 = filt)
  then s.setReg cnt (pmAdd (s.reg cnt) n) else s

/-- `n` occurrences of event `code` in a block, with filter value `filt`. -/
def State.pm (s : State) (b : Block) (code filt n : Nat) : State :=
  if s.frozen b then s
  else (List.finRange 8).foldl (fun t i => pmOne (.pmSel b i) (.pmCnt b i) code filt n t) s

/-- `n` occurrences of event `code` in a Groom, for context `ctx`. -/
def State.pmG (s : State) (g : GroomId) (code ctx n : Nat) : State :=
  if s.frozen (.stall g.s) then s
  else (List.finRange 8).foldl (fun t i => pmOne (.pmGsel g i) (.pmGcnt g i) code ctx n t) s

/-! ### Contexts -/

/-- A context, where it exists. -/
def State.ctx? (s : State) (c : Nat) : Option Ctx := tFind s.ctxs c

/-- Word `i` of a context, 0 where it does not exist. -/
def State.ctxWord (s : State) (c i : Nat) : Word :=
  match s.ctx? c with
  | some x => x.words.getD i 0
  | none => 0

/-- The context with a change. -/
def State.modCtx (s : State) (c : Nat) (f : Ctx → Ctx) : State :=
  match s.ctx? c with
  | some x => { s with ctxs := tPut c (f x) s.ctxs }
  | none => s

/-- Host link of a context's function (R187). -/
def State.ctxLink (s : State) (c : Nat) : Nat := fld (s.ctxWord c 2) 55 53
/-- Owning function of a context (R187). -/
def State.ctxFn (s : State) (c : Nat) : Nat := fld (s.ctxWord c 2) 60 56
/-- The stall that homes a context (R187). -/
def State.ctxStall (s : State) (c : Nat) : Nat := 8 * s.ctxDom c + fld (s.ctxWord c 2) 22 20

/-- Device address of a context's record (R186, R419): a domain's context share holds the records of its contexts in
the order of their indices (log entry 142). -/
def State.ctxAddr (s : State) (c : Nat) : Nat :=
  (s.share (s.ctxDom c) 1).1 + 256 * (if c < s.ctxEast then c else c - s.ctxEast)

/-- Words of a context stored into its record in HBM, from word `i` on (R186). -/
def State.ctxStore (s : State) (c i : Nat) (ws : List Word) : State := s.hbmWrite (s.ctxAddr c + 8 * i) (bytesOf ws)

/-- error_sticky of a context set (R165, R168, R205). -/
def State.setSticky (s : State) (c : Nat) : State :=
  match s.ctx? c with
  | none => s
  | some _ =>
    let s := s.modCtx c (fun x => { x with words := modAt x.words 2 (fun w => setBit w 62 true) })
    s.ctxStore c 2 [s.ctxWord c 2]

/-! ### Towards a host link -/

/-- The transaction layer of a host link. -/
def State.tl (s : State) (h : Nat) : HostTl := tGet {} s.ht h

/-- A host link's transaction layer changed. -/
def State.modTl (s : State) (h : Nat) (f : HostTl → HostTl) : State := { s with ht := tMod {} h f s.ht }

/-- LL_STATUS.state (R98). -/
def State.llState (s : State) (l : LinkId) : Nat := s.rf (.llStatus l) 3 0

/-- The state of a host link (R98). -/
def State.hlState (s : State) (h : Nat) : Nat := s.llState (.host (hlinkOf h))

/-- Whether a host link is UP (R286). -/
def State.hlUp (s : State) (h : Nat) : Bool := s.hlState h = 3

/-- Whether the rules of R169 for a lost link apply: it is neither UP nor retraining (R169, R500). -/
def State.hlLost (s : State) (h : Nat) : Bool := !(s.hlState h = 3 || s.hlState h = 4)

/-- A transaction queued on a host link's REQ VC, behind those already there (R158). None is built
for a link that is lost (R169). -/
def State.sendReq (s : State) (h : Nat) (t : ReqTlp) : State :=
  if s.hlLost h then s
  else s.modTl h (fun x => { x with reqQ := x.reqQ ++ [t] })

/-- An interrupt dropped while intr_en is 0, noted and counted (R161). -/
def State.dropIntr (s : State) (h : Nat) : State :=
  (s.wb (.hlStatus (hlinkOf h)) 4 true).modTl h (fun x => { x with intrLost := x.intrLost + 1 })

/-- An interrupt made for a function, 31 for the device itself (R145, R161). -/
def State.sendIntr (s : State) (h fn vector data : Nat) : State :=
  if s.rb (.hlCtrl (hlinkOf h)) 1 then s.sendReq h (.intr fn vector data) else s.dropIntr h

/-- The pieces of a range that stay within 4 KiB pages: offset in the range, and length (R147). -/
def pageSplit : Nat → Nat → Nat → List (Nat × Nat)
  | 0, _, _ => []
  | fuel + 1, a, n =>
    if n = 0 then []
    else
      let k := min n (4096 - a % 4096)
      (0, k) :: (pageSplit fuel (a + k) (n - k)).map (fun e => (e.1 + k, e.2))

/-- An ORDERED write of bytes to host memory, within one 4 KiB page or split at its boundaries. -/
def State.hostWrite (s : State) (h fn : Nat) (ctx : Option Nat) (addr : Nat) (bs : List Byte) (tok : Tok) : State :=
  (pageSplit (bs.length / 4096 + 2) addr bs.length).foldl
    (fun t e => t.sendReq h (.wr ⟨addr + e.1, (bs.drop e.1).take e.2, false, ctx, fn, 0, tok⟩)) s

/-! ### Event queues -/

/-- A word with fields, for event records: entries are (word, hi, lo, value). -/
def recWord (fs : List (Nat × Nat × Nat × Nat)) (i : Nat) : Word :=
  mkWord 64 ((fs.filter (fun f => f.1 = i)).map (fun f => f.2))

/-- The eight words of an event record, phase 0 (R193). -/
def eventWords (code : Nat) (ctx : Option Nat) (nt : BitVec 64) (fs : List (Nat × Nat × Nat × Nat)) : List Word :=
  [mkWord 64 [(55, 40, code), (22, 22, b2n ctx.isSome), (21, 0, ctx.getD 0)], nt,
   recWord fs 2, recWord fs 3, recWord fs 4, recWord fs 5, recWord fs 6, recWord fs 7]

/-- The bank that holds the next slot (R192). -/
def Eq.bank (q : Eq) : Bool := decide (512 ≤ q.wpos % 1024)

/-- Whether the bank of the next slot is released (R195). -/
def Eq.room (q : Eq) : Bool := if q.bank then q.rel1 else q.rel0

/-- The queue after a record is written: a bank that fills stops being released (R195). -/
def Eq.advance (q : Eq) : Eq :=
  let q1 := { q with wpos := q.wpos + 1 }
  if q1.wpos % 512 = 0 then (if q.bank then { q1 with rel1 := false } else { q1 with rel0 := false }) else q1

/-- The phase of the record at the next slot (R193). -/
def Eq.phase (q : Eq) : Bool := (q.wpos / 1024) % 2 = 0

/-- One record written at the queue's position, and the INTR of an armed queue behind it
(R193, R196). -/
def State.eqPut (s : State) (e : Nat) (q : Eq) (ws : List Word) : State :=
  let w0 := setBit (ws.getD 0 0) 63 q.phase
  let ctx := if bit w0 22 then some (fld w0 21 0) else none
  let s := s.hostWrite q.link q.fn ctx (q.base + 64 * (q.wpos % 1024)) (bytesOf (w0 :: ws.drop 1)) .none
  let q1 := q.advance
  let s := { s with eqs := tPut e { q1 with armed := false } s.eqs }
  if q.armed then s.sendIntr q.link q.fn q.vector e else s

/-- A record written, or dropped where no bank is released; the GAP comes first where records
were dropped before (R195). -/
def State.eqWrite (s : State) (e : Nat) (ws : List Word) : State :=
  match tFind s.eqs e with
  | none => s
  | some q =>
    if !q.room then { s with eqs := tPut e { q with drops := satAdd 0xFFFFFFFF q.drops 1 } s.eqs }
    else if q.drops = 0 then s.eqPut e q ws
    else
      let s := s.eqPut e { q with drops := 0 } (eventWords 1 none s.nt [(2, 31, 0, q.drops)])
      match tFind s.eqs e with
      | none => s
      | some q1 =>
        if q1.room then s.eqPut e q1 ws
        else { s with eqs := tPut e { q1 with drops := satAdd 0xFFFFFFFF q1.drops 1 } s.eqs }

/-- An event posted to an event queue: written, held while its link is lost (R169), or dropped
with a queue whose function was reset (R205) or whose home domain is fenced (R373). -/
def State.postEq (s : State) (e code : Nat) (ctx : Option Nat) (fs : List (Nat × Nat × Nat × Nat)) : State :=
  match tFind s.eqs e with
  | none => s
  | some q =>
    let ws := eventWords code ctx s.nt fs
    if q.dead || !s.domRuns q.home then s
    else if s.hlLost q.link then s.modTl q.link (fun x => { x with heldRecs := x.heldRecs ++ [⟨e, ws⟩] })
    else s.eqWrite e ws

/-- An event posted to a link's management event queue (R170). -/
def State.postMgmt (s : State) (h code : Nat) (ctx : Option Nat) (fs : List (Nat × Nat × Nat × Nat)) : State :=
  let r := Reg.hlMgmtEq (hlinkOf h)
  if s.rb r 63 then s.postEq (s.rf r 17 0) code ctx fs
  else s.bump (.hlStatus (hlinkOf h)) 17 8 1

/-- An event posted for a context: to its event queue, or to its link's management queue (R187). Where the context no longer
exists, of which R165 and R168 name no queue, it goes to the management queue of link 0 (DESIGN CHOICE, log entry 180). -/
def State.postCtx (s : State) (c code : Nat) (fs : List (Nat × Nat × Nat × Nat)) : State :=
  let w := s.ctxWord c 2
  if bit w 61 then s.postEq (fld w 52 35) code (some c) fs
  else s.postMgmt (fld w 55 53) code (some c) fs

/-! ### Faults (R456 to R463) -/

/-- The classes of R456 that FT_STATUS records. -/
inductive FtClass where
  | note | degrade | fence
  deriving DecidableEq, Repr

def FtClass.num : FtClass → Nat
  | .note => 0
  | .degrade => 1
  | .fence => 2

/-- FAULT_RAISED posted, at most once for each code of a block in any 100 µs (R460). -/
def State.postFault (s : State) (b : Block) (cls : FtClass) (code unit : Nat) : State :=
  let k := blockBase b * 65536 + code
  let due : Bool := match tFind s.ftPosted k with
    | some t => decide (t + us 100 ≤ s.clk)
    | none => true
  let i := s.reg (.ftIntr b)
  if bit i 63 && due then
    let s := { s with ftPosted := tPut k s.clk s.ftPosted }
    s.postMgmt (fld i 2 0) 0x0801 none
      [(2, 63, 48, code), (2, 47, 46, cls.num), (2, 39, 32, unit), (2, 31, 0, s.rf (.ftCode b) 15 0),
       (3, 63, 0, blockBase b)]
  else s

/-- A DEGRADE or FENCE of the scope or the domain of a topcoat that drains: it will be refused (R425, log entry 179). -/
def CoatJob.struck (j : CoatJob) (b : Block) (cls : FtClass) (unit : Nat) : Bool :=
  cls ≠ .note && j.blocks.any (fun e => e.1 = blockBase b && (cls = .fence || e.2.all (fun n => n = unit)))

/-- What the Tack Room keeps of a fault: when TACK's latest NOTE was (R462), and a fault that refuses the topcoat. -/
def State.faultSeen (s : State) (b : Block) (cls : FtClass) (unit : Nat) : State :=
  let t := s.tack
  let at_ := if b = .tack && cls = .note then some s.tk else t.noteAt
  let hit (j : CoatJob) : CoatJob := if s.rf .coStatus 63 61 = 2 && j.struck b cls unit then { j with hit := true } else j
  { s with tack := { t with noteAt := at_, coat := t.coat.map hit } }

/-- A fault recorded by a block (R458): the class bit, the codes, the count, and FAULT_RAISED
where it is not masked. A frozen block records none (R467). -/
def State.fault (s : State) (b : Block) (cls : FtClass) (low unit : Nat) : State :=
  if s.frozen b then s
  else
    let s := s.faultSeen b cls unit
    let code := blockType b * 256 + low
    let first := s.rf (.ftStatus b) 3 0 = 0
    let s := s.wb (.ftStatus b) cls.num true
    let s := if first then (s.wf (.ftCode b) 63 48 code).wf (.ftCode b) 31 24 unit else s
    let s := (s.wf (.ftCode b) 47 32 code).bump (.ftCode b) 15 0 1
    if s.rb (.ftMask b) cls.num then s else s.postFault b cls code unit

/-- The NOTE that R7 requires for a refused write: RESERVED_WRITE of the block (R463). In TACK it
is fault 03, elsewhere fault 01. -/
def State.noteReserved (s : State) (b : Block) (unit : Nat) : State :=
  s.fault b .note (match b with | .tack => 3 | _ => 1) unit

end Sys2Proof.Machine
end

