-- ==== Sys2Proof/Machine/Float.lean ====
section
/-! DEFINITION. Binary floating-point formats as exact values: decoding to a sign, an integer and a
power of two, and rounding to nearest, ties to even, as IEEE 754-2019 gives. -/

namespace Sys2Proof.Machine

/-- A binary format: exponent and fraction widths, and whether it has infinities (E4M3 has none:
its only NaN is all ones). -/
structure Fmt where
  ebits : Nat
  mbits : Nat
  inf : Bool
  deriving DecidableEq, Repr

def fp64 : Fmt := ⟨11, 52, true⟩
def fp32 : Fmt := ⟨8, 23, true⟩
def fp16 : Fmt := ⟨5, 10, true⟩
def bf16 : Fmt := ⟨8, 7, true⟩
def e5m2 : Fmt := ⟨5, 2, true⟩
def e4m3 : Fmt := ⟨4, 3, false⟩

def Fmt.bias (f : Fmt) : Nat := 2 ^ (f.ebits - 1) - 1
def Fmt.width (f : Fmt) : Nat := 1 + f.ebits + f.mbits
def Fmt.emax (f : Fmt) : Nat := 2 ^ f.ebits - 1

/-- The canonical quiet NaN of a format. -/
def Fmt.nan (f : Fmt) : Nat :=
  if f.inf then f.emax * 2 ^ f.mbits + 2 ^ (f.mbits - 1) else 2 ^ (f.ebits + f.mbits) - 1

/-- Infinity with a sign; a format without one has its NaN there. -/
def Fmt.infinity (f : Fmt) (neg : Bool) : Nat :=
  (if f.inf then f.emax * 2 ^ f.mbits else f.nan) + b2n neg * 2 ^ (f.ebits + f.mbits)

/-- A decoded value: a NaN, an infinity, or ± `mant` × 2^`exp`. -/
inductive Fp where
  | nan
  | inf (neg : Bool)
  | fin (neg : Bool) (mant : Nat) (exp : Int)
  deriving DecidableEq, Repr

/-- The value that bits spell in a format. -/
def Fmt.decode (f : Fmt) (v : Nat) : Fp :=
  let neg := v / 2 ^ (f.ebits + f.mbits) % 2 = 1
  let e := v / 2 ^ f.mbits % 2 ^ f.ebits
  let m := v % 2 ^ f.mbits
  if f.inf && e = f.emax then (if m = 0 then .inf neg else .nan)
  else if !f.inf && e = f.emax && m = 2 ^ f.mbits - 1 then .nan
  else if e = 0 then .fin neg m (1 - (f.bias : Int) - f.mbits)
  else .fin neg (2 ^ f.mbits + m) ((e : Int) - f.bias - f.mbits)

/-- `m` divided by 2^`k`, rounded to nearest, ties to even. -/
def rne (m k : Nat) : Nat :=
  let q := m / 2 ^ k
  let r := m % 2 ^ k
  if 2 * r < 2 ^ k then q else if 2 * r = 2 ^ k then q + q % 2 else q + 1

/-- The bits of ± `m` × 2^`e` rounded to a format; a magnitude beyond the format's range gives
infinity. -/
def Fmt.round (f : Fmt) (neg : Bool) (m : Nat) (e : Int) : Nat :=
  let sgn := b2n neg * 2 ^ (f.ebits + f.mbits)
  if m = 0 then sgn
  else
    let top : Int := e + Nat.log2 m
    let emin : Int := 1 - (f.bias : Int)
    let q : Int := (if top < emin then emin else top) - f.mbits
    let n := if q ≤ e then m * 2 ^ (e - q).toNat else rne m (q - e).toNat
    -- n × 2^q, with n below 2^(mbits + 1) or equal to it after rounding up
    let n2 := if 2 ^ (f.mbits + 1) ≤ n then n / 2 else n
    let q2 := if 2 ^ (f.mbits + 1) ≤ n then q + 1 else q
    let ex : Nat := if n2 < 2 ^ f.mbits then 0 else (q2 + f.mbits + f.bias).toNat
    let lim := if f.inf then f.emax else f.emax + 1
    if lim ≤ ex then f.infinity neg
    else
      let v := ex * 2 ^ f.mbits + n2 % 2 ^ f.mbits
      if !f.inf && v = 2 ^ (f.ebits + f.mbits) - 1 then f.infinity neg else sgn + v

/-- The exact sum of two finite values as an integer times a power of two. -/
def fpSum (n1 : Bool) (m1 : Nat) (e1 : Int) (n2 : Bool) (m2 : Nat) (e2 : Int) : Int × Int :=
  let e := min e1 e2
  let a : Int := (m1 * 2 ^ (e1 - e).toNat : Nat)
  let b : Int := (m2 * 2 ^ (e2 - e).toNat : Nat)
  ((if n1 then -a else a) + (if n2 then -b else b), e)

/-- Addition, rounded to nearest even; a NaN result is the canonical quiet NaN. -/
def Fmt.add (f : Fmt) (a b : Nat) : Nat :=
  match f.decode a, f.decode b with
  | .nan, _ => f.nan
  | _, .nan => f.nan
  | .inf x, .inf y => if x = y then f.infinity x else f.nan
  | .inf x, _ => f.infinity x
  | _, .inf y => f.infinity y
  | .fin n1 m1 e1, .fin n2 m2 e2 =>
    let r := fpSum n1 m1 e1 n2 m2 e2
    if r.1 = 0 then f.round (n1 && n2) 0 0 else f.round (decide (r.1 < 0)) r.1.natAbs r.2

/-- Multiplication, rounded to nearest even. -/
def Fmt.mul (f : Fmt) (a b : Nat) : Nat :=
  match f.decode a, f.decode b with
  | .nan, _ => f.nan
  | _, .nan => f.nan
  | .inf x, .inf y => f.infinity (x != y)
  | .inf x, .fin y m _ => if m = 0 then f.nan else f.infinity (x != y)
  | .fin x m _, .inf y => if m = 0 then f.nan else f.infinity (x != y)
  | .fin n1 m1 e1, .fin n2 m2 e2 => f.round (n1 != n2) (m1 * m2) (e1 + e2)

/-- Whether a finite value is below another, −0 below +0. -/
def fpLt (n1 : Bool) (m1 : Nat) (e1 : Int) (n2 : Bool) (m2 : Nat) (e2 : Int) : Bool :=
  let e := min e1 e2
  let a : Int := (m1 * 2 ^ (e1 - e).toNat : Nat)
  let b : Int := (m2 * 2 ^ (e2 - e).toNat : Nat)
  let a := if n1 then -a else a
  let b := if n2 then -b else b
  decide (a < b) || (decide (a = b) && n1 && !n2)

/-- Whether a value is below another in the order of IEEE 754-2019 minimum: −0 below +0. -/
def Fmt.lt (f : Fmt) (a b : Nat) : Bool :=
  match f.decode a, f.decode b with
  | .nan, _ => false
  | _, .nan => false
  | .inf x, .inf y => x && !y
  | .inf x, _ => x
  | _, .inf y => !y
  | .fin n1 m1 e1, .fin n2 m2 e2 => fpLt n1 m1 e1 n2 m2 e2

/-- Whether bits spell a NaN. -/
def Fmt.isNan (f : Fmt) (a : Nat) : Bool := f.decode a = .nan

/-- minimum and maximum of IEEE 754-2019: a NaN operand gives the canonical quiet NaN. -/
def Fmt.minimum (f : Fmt) (a b : Nat) : Nat :=
  if f.isNan a || f.isNan b then f.nan else if f.lt b a then b else a
def Fmt.maximum (f : Fmt) (a b : Nat) : Nat :=
  if f.isNan a || f.isNan b then f.nan else if f.lt a b then b else a

/-! ### The atomic operations (R277, R379) -/

/-- Size in bytes of an atomic type (R277). -/
def atomSize (type : Nat) : Nat := if type = 0 ∨ type = 1 ∨ type = 4 then 4 else 8

/-- Whether an operation code names an op and a type (R379). -/
def atomOk (code : Nat) : Bool := decide (code / 128 = 0 ∧ code / 16 % 8 ≤ 5 ∧ code % 16 ≤ 8)

/-- Whether an operation is refused: AND, OR or XOR on a floating type (R379). -/
def atomBad (code : Nat) : Bool := decide (4 ≤ code / 16 % 8 ∧ 4 ≤ code % 16 ∧ code % 16 ≤ 6)

/-- The new value of an atomic (R277), from the old value and the operands cut to the type's size. What a floating type
stores that is a NaN is the canonical quiet NaN (R379, log entry 141). -/
def atomNew (code old operand compare : Nat) : Nat :=
  let type := code / 16 % 8
  let w := 8 * atomSize type
  let x := operand % 2 ^ w
  let c := compare % 2 ^ w
  let signed := type = 0 ∨ type = 2
  let flt := 4 ≤ type
  let f := if type = 4 then fp32 else fp64
  let below (a b : Nat) : Bool := if signed then decide (toSigned w a < toSigned w b) else decide (a < b)
  let y := if flt ∧ f.isNan x = true then f.nan else x
  match code % 16 with
  | 0 => old
  | 1 => y
  | 2 => if old = c then y else old
  | 3 => if flt then f.add old x else (old + x) % 2 ^ w
  | 4 => old &&& x
  | 5 => old ||| x
  | 6 => old ^^^ x
  | 7 => if flt then f.minimum old x else if below x old then x else old
  | 8 => if flt then f.maximum old x else if below old x then x else old
  | _ => old

end Sys2Proof.Machine
end

