-- ==== Sys2Proof/Machine/Reduce.lean ====
section
/-! DEFINITION. The arithmetic of collectives (R296 to R312): element types, wire widths, the
combination of two elements in each mode, the binned and exact forms, and the finish at the root.
An element is held as the number whose bytes it is: on the wire as its w_up bytes, in memory as its
own bytes, the first byte lowest (R5). -/

namespace Sys2Proof.Machine

/-- Bytes of a type (R296). -/
def clSize (ty : Nat) : Nat :=
  match ty with
  | 0 => 1 | 4 => 1 | 12 => 1 | 13 => 1
  | 1 => 2 | 5 => 2 | 10 => 2 | 11 => 2
  | 2 => 4 | 6 => 4 | 9 => 4
  | _ => 8

/-- The format of a floating type (R296). -/
def clFmt (ty : Nat) : Fmt :=
  match ty with
  | 8 => fp64
  | 9 => fp32
  | 10 => bf16
  | 11 => fp16
  | 12 => e4m3
  | _ => e5m2

def clFloat (ty : Nat) : Bool := decide (8 ≤ ty)
def clSigned (ty : Nat) : Bool := decide (ty < 4)

/-- MINLOC or MAXLOC. -/
def clPair (op : Nat) : Bool := op = 4 || op = 5

/-- The pairs of op, type and mode that R296 allows. -/
def clAllowed (op ty mode : Nat) : Bool :=
  decide (ty ≤ 13) &&
  (match op with
    | 0 => if ty < 8 || ty = 11 then true
           else if ty = 12 || ty = 13 then mode ≠ 2
           else mode ≠ 3
    | 1 => decide (mode ≤ 1)
    | 2 => true
    | 3 => true
    | 4 => true
    | 5 => true
    | 6 => decide (ty < 8)
    | 7 => decide (ty < 8)
    | 8 => decide (ty < 8)
    | _ => false)

/-- Bytes of an element in memory (R297). -/
def clElem (op ty : Nat) : Nat := if clPair op then (if clSize ty = 8 then 16 else 8) else clSize ty

/-- SUM in REPRO of a floating type, whose wire holds binned forms. -/
def clRepro (op ty mode : Nat) : Bool := op = 0 && mode = 2 && clFloat ty

/-- SUM in EXACT, whose wire holds accumulators. -/
def clExact (op mode : Nat) : Bool := op = 0 && mode = 3

/-- Wire bytes per element, upwards (R298). -/
def clUp (op ty mode : Nat) : Nat :=
  if clRepro op ty mode then (match ty with | 8 => 32 | 9 => 16 | _ => 8)
  else if clExact op mode then (match ty with | 3 => 16 | 7 => 16 | 11 => 16 | _ => 8)
  else clElem op ty

/-- Bytes per element, downwards (R298). -/
def clDown (op ty : Nat) : Nat := clElem op ty

/-- A floating value with its NaNs made the canonical quiet NaN (R303). -/
def canonNan (f : Fmt) (v : Nat) : Nat := if f.isNan v then f.nan else v

/-- Whether a value is finite. -/
def Fmt.finite (f : Fmt) (v : Nat) : Bool := match f.decode v with | .fin _ _ _ => true | _ => false

/-! ### NATIVE and ORDERED -/

/-- MIN or MAX of two values of a type (R303). -/
def clPick (max : Bool) (ty a b : Nat) : Nat :=
  if clFloat ty then (if max then (clFmt ty).maximum a b else (clFmt ty).minimum a b)
  else
    let w := 8 * clSize ty
    let below := if clSigned ty then decide (toSigned w a < toSigned w b) else decide (a < b)
    if below = max then b else a

/-- Whether the first of two pairs is the one that MINLOC or MAXLOC takes (R303). -/
def clFirst (max : Bool) (ty a b ia ib : Nat) : Bool :=
  let nan (v : Nat) : Bool := clFloat ty && (clFmt ty).isNan v
  if nan a || nan b then (if nan a && nan b then decide (ia ≤ ib) else nan a)
  else
    let w := 8 * clSize ty
    let lt (x y : Nat) : Bool := if clFloat ty then (clFmt ty).lt x y
      else if clSigned ty then decide (toSigned w x < toSigned w y) else decide (x < y)
    if lt a b then !max else if lt b a then max else decide (ia ≤ ib)

/-- The combination of two elements in the element type, and whether it raises OVERFLOW (R303,
R313). -/
def clPlain (op ty a b : Nat) : Nat × Bool :=
  let w := 8 * clSize ty
  let f := clFmt ty
  match op with
  | 0 => if clFloat ty then
           let r := canonNan f (f.add a b)
           (r, f.finite a && f.finite b && !f.finite r)
         else ((a + b) % 2 ^ w, false)
  | 1 => if clFloat ty then
           let r := canonNan f (f.mul a b)
           (r, f.finite a && f.finite b && !f.finite r)
         else ((a * b) % 2 ^ w, false)
  | 2 => (clPick false ty a b, false)
  | 3 => (clPick true ty a b, false)
  | 4 =>
    let o := if clSize ty = 8 then 64 else 32
    (if clFirst false ty (a % 2 ^ w) (b % 2 ^ w) (a / 2 ^ o % 2 ^ 32) (b / 2 ^ o % 2 ^ 32) then a else b, false)
  | 5 =>
    let o := if clSize ty = 8 then 64 else 32
    (if clFirst true ty (a % 2 ^ w) (b % 2 ^ w) (a / 2 ^ o % 2 ^ 32) (b / 2 ^ o % 2 ^ 32) then a else b, false)
  | 6 => (a &&& b, false)
  | 7 => (a ||| b, false)
  | _ => (a ^^^ b, false)

/-! ### Binned and exact forms (R306 to R312) -/

/-- A form: NaN, an infinity, or a finite one with its top bin (none for the form *none*) and its
bin sums from the top down; `nz` as R306 gives. An accumulator of R312 is one bin. -/
inductive BinForm where
  | nan (nz : Bool)
  | inf (neg nz : Bool)
  | none (nz : Bool)
  | fin (top : Nat) (sums : List Int) (nz : Bool)
  deriving DecidableEq, Repr

def BinForm.nz : BinForm → Bool
  | .nan z => z
  | .inf _ z => z
  | .none z => z
  | .fin _ _ z => z

/-- Bin width, kept count and base exponent (R306), or of the accumulators of R312: one bin of
unit weight 2^E0. -/
structure BinPar where
  w : Nat
  k : Nat
  e0 : Int
  deriving DecidableEq, Repr

def binPar (ty mode : Nat) : BinPar :=
  if mode = 3 then
    match ty with
    | 11 => ⟨80, 1, -24⟩
    | 13 => ⟨56, 1, -16⟩
    | 12 => ⟨40, 1, -9⟩
    | _ => ⟨128, 1, 0⟩
  else match ty with
    | 8 => ⟨40, 3, -1080⟩
    | 9 => ⟨40, 2, -160⟩
    | 10 => ⟨8, 2, -136⟩
    | _ => ⟨64, 1, -24⟩

/-- ⌊m × 2^e / 2^p⌋. -/
def shiftTo (m : Nat) (e p : Int) : Nat := if p ≤ e then m * 2 ^ (e - p).toNat else m / 2 ^ (p - e).toNat

/-- A contribution converted (R307, R312). -/
def toBins (b : BinPar) (f : Fmt) (x : Nat) : BinForm :=
  match f.decode x with
  | .nan => .nan true
  | .inf n => .inf n true
  | .fin n 0 _ => .none (!n)
  | .fin n m e =>
    let lead : Int := e + Nat.log2 m
    let t : Nat := ((lead - b.e0) / (b.w : Int)).toNat
    let bin (k : Nat) : Int :=
      if t < k then 0
      else
        let v : Int := (shiftTo m e (b.e0 + b.w * (t - k : Nat)) % 2 ^ b.w : Nat)
        if n then -v else v
    .fin t ((List.range b.k).map bin) true

/-- Bin `j` of a finite form, 0 outside its window (R308). -/
def binPart (top : Nat) (sums : List Int) (j : Int) : Int :=
  if j ≤ top ∧ 0 ≤ (top : Int) - j then sums.getD ((top : Int) - j).toNat 0 else 0

/-- Two forms combined (R308). -/
def BinForm.combine (b : BinPar) (x y : BinForm) : BinForm :=
  let nz := x.nz || y.nz
  match x, y with
  | .nan _, _ => .nan nz
  | _, .nan _ => .nan nz
  | .inf m _, .inf n _ => if m = n then .inf m nz else .nan nz
  | .inf m _, _ => .inf m nz
  | _, .inf m _ => .inf m nz
  | .none _, .none _ => .none nz
  | .none _, .fin t s _ => .fin t s nz
  | .fin t s _, .none _ => .fin t s nz
  | .fin t s _, .fin u r _ =>
    let top := max t u
    .fin top ((List.range b.k).map (fun k => binPart t s ((top : Int) - k) + binPart u r ((top : Int) - k))) nz

/-- The finish at the root, and whether it raises OVERFLOW (R309, R312). -/
def BinForm.finish (b : BinPar) (f : Fmt) : BinForm → Nat × Bool
  | .nan _ => (f.nan, false)
  | .inf n _ => (f.infinity n, false)
  | .none nz => (f.round (!nz) 0 0, false)
  | .fin top sums nz =>
    let low : Int := (top : Int) - ((b.k : Int) - 1)
    let v : Int := (List.range b.k).foldl (fun a k => a + sums.getD k 0 * (2 ^ (b.w * (b.k - 1 - k)) : Nat)) 0
    if v = 0 then (f.round (!nz) 0 0, false)
    else
      let r := canonNan f (f.round (decide (v < 0)) v.natAbs (b.e0 + (b.w : Int) * low))
      (r, !f.finite r)

/-- An integer in a two's-complement field of `n` bits. -/
def inField (n : Nat) (v : Int) : Nat := (BitVec.ofInt n v).toNat

/-- The wire layout of a form (R311, R312), as a number of the wire width. -/
def BinForm.encode (ty mode : Nat) (x : BinForm) : Nat :=
  let z := b2n x.nz
  if mode = 2 ∧ ty ≠ 11 then
    -- widths: top field, nz bit, bin width, bins
    let (tw, tp, zp, bw, k) := match ty with
      | 8 => (8, 248, 247, 64, 3)
      | 9 => (4, 124, 123, 60, 2)
      | _ => (6, 58, 57, 28, 2)
    match x with
    | .none _ => (2 ^ tw - 1) * 2 ^ tp + z * 2 ^ zp
    | .nan _ => (2 ^ tw - 2) * 2 ^ tp + z * 2 ^ zp
    | .inf false _ => (2 ^ tw - 3) * 2 ^ tp + z * 2 ^ zp
    | .inf true _ => (2 ^ tw - 4) * 2 ^ tp + z * 2 ^ zp
    | .fin t s _ => t * 2 ^ tp + z * 2 ^ zp +
        (List.range k).foldl (fun a i => a + inField bw (s.getD i 0) * 2 ^ (bw * (k - 1 - i))) 0
  else
    let (sp, zp, bw) := if ty = 11 ∧ mode = 3 then (126, 125, 80)
      else if ty = 11 then (62, 61, 60) else if ty = 13 then (62, 61, 56) else (62, 61, 40)
    match x with
    | .none _ => z * 2 ^ zp
    | .nan _ => 3 * 2 ^ sp + z * 2 ^ zp
    | .inf false _ => 2 * 2 ^ sp + z * 2 ^ zp
    | .inf true _ => 1 * 2 ^ sp + z * 2 ^ zp
    | .fin _ s _ => z * 2 ^ zp + inField bw (s.getD 0 0)

/-- The form that a wire element spells (R311, R312). -/
def BinForm.decode (ty mode v : Nat) : BinForm :=
  if mode = 2 ∧ ty ≠ 11 then
    let (tw, tp, zp, bw, k) := match ty with
      | 8 => (8, 248, 247, 64, 3)
      | 9 => (4, 124, 123, 60, 2)
      | _ => (6, 58, 57, 28, 2)
    let t := v / 2 ^ tp % 2 ^ tw
    let nz : Bool := v.testBit zp
    if t = 2 ^ tw - 1 then .none nz
    else if t = 2 ^ tw - 2 then .nan nz
    else if t = 2 ^ tw - 3 then .inf false nz
    else if t = 2 ^ tw - 4 then .inf true nz
    else .fin t ((List.range k).map (fun i => toSigned bw (v / 2 ^ (bw * (k - 1 - i))))) nz
  else
    let (sp, zp, bw) := if ty = 11 ∧ mode = 3 then (126, 125, 80)
      else if ty = 11 then (62, 61, 60) else if ty = 13 then (62, 61, 56) else (62, 61, 40)
    let nz : Bool := v.testBit zp
    match v / 2 ^ sp % 4 with
    | 3 => .nan nz
    | 2 => .inf false nz
    | 1 => .inf true nz
    | _ => .fin 0 [toSigned bw v] nz

/-! ### Elements on the wire -/

/-- A member's element converted to its wire form (R300, R307, R312). -/
def clConvert (op ty mode v : Nat) : Nat :=
  if clRepro op ty mode || (clExact op mode && clFloat ty) then
    BinForm.encode ty mode (toBins (binPar ty mode) (clFmt ty) v)
  else if clExact op mode then
    let w := 8 * clSize ty
    inField (8 * clUp op ty mode) (if clSigned ty then toSigned w v else v)
  else v

/-- Two wire elements combined (R303 to R305, R308, R312). -/
def clCombine (op ty mode a b : Nat) : Nat × Bool :=
  if clRepro op ty mode || (clExact op mode && clFloat ty) then
    (BinForm.encode ty mode (BinForm.combine (binPar ty mode) (BinForm.decode ty mode a) (BinForm.decode ty mode b)), false)
  else if clExact op mode then ((a + b) % 2 ^ (8 * clUp op ty mode), false)
  else clPlain op ty a b

/-- A wire element finished at the root, and whether it raises OVERFLOW (R300, R303, R309, R312). -/
def clFinish (op ty mode v : Nat) : Nat × Bool :=
  if clRepro op ty mode || (clExact op mode && clFloat ty) then
    (BinForm.decode ty mode v).finish (binPar ty mode) (clFmt ty)
  else if clExact op mode then
    let w := 8 * clSize ty
    let x := toSigned (8 * clUp op ty mode) v
    let lo : Int := if clSigned ty then -(2 ^ (w - 1) : Nat) else 0
    let hi : Int := if clSigned ty then (2 ^ (w - 1) : Nat) - 1 else (2 ^ w : Nat) - 1
    if x < lo then (inField w lo, true) else if hi < x then (inField w hi, true) else (inField w x, false)
  else if clFloat ty then
    let w := 8 * clSize ty
    (v - v % 2 ^ w + canonNan (clFmt ty) (v % 2 ^ w), false)
  else (v, false)

end Sys2Proof.Machine
end

