-- ==== Sys2Proof/Machine/Groups.lean ====
section
/-! DEFINITION. Group tables and instances of collectives (R289 to R295, R302): where an entry
lies, whether a group is installed, and whether a COLL may start. -/

namespace Sys2Proof.Machine

/-- Key of a group's record. -/
def grpKey (d g : Nat) : Nat := 65536 * d + g

/-- The domain whose table holds a valid entry for a group, and its record (R290, R291). -/
def State.findGroup (s : State) (g : Nat) : Option (Nat × ClGroup) :=
  match tFind s.groups (grpKey 0 g) with
  | some r => some (0, r)
  | none => match tFind s.groups (grpKey 1 g) with
    | some r => some (1, r)
    | none => none

/-- Word `i` of a group's entry (R290). -/
def State.grpWord (s : State) (d g i : Nat) : Word := s.hbmWord ((s.share d 9).1 + 256 * g + 8 * i)

/-- Fields of an entry (R290). -/
def State.grpRoot (s : State) (d g : Nat) : Bool := bit (s.grpWord d g 0) 62
def State.grpKids (s : State) (d g : Nat) : Nat := fld (s.grpWord d g 0) 58 54
def State.grpLocals (s : State) (d g : Nat) : Nat := fld (s.grpWord d g 0) 53 48

/-- Context of local member `j`. -/
def State.grpMember (s : State) (d g j : Nat) : Nat :=
  let o := 32 * (j % 2)
  fld (s.grpWord d g (8 + j / 2)) (o + 21) o

/-- Coordinates of child `i`. -/
def State.grpChild (s : State) (d g i : Nat) : Nat :=
  let o := 16 * (i % 4)
  fld (s.grpWord d g (4 + i / 4)) (o + 15) o

/-- A context's place in a group's local list. -/
def State.grpPlace (s : State) (d g c : Nat) : Option Nat :=
  (List.range (s.grpLocals d g)).find? (fun j => s.grpMember d g j = c)

/-- The active instance of a number. -/
def State.instOf (s : State) (d g n : Nat) : Option Nat :=
  (s.insts.find? (fun e => e.2.dom = d ∧ e.2.group = g ∧ e.2.n = n)).map (fun e => e.1)

/-- Whether an instance has ended at its engine. -/
def ClGroup.gone (r : ClGroup) (n : Nat) : Bool := decide (n < r.floor) || r.ended.contains n

/-- Whether an engine has a stream free: it holds at most 512, so the device at most 4,096 (R302). -/
def State.streamFree (s : State) (e : Nat) : Bool := decide ((s.insts.filter (fun x => x.2.engine = e)).length < 512)

/-- Whether a new instance may begin: fewer than 4 of the group active, and a stream free at the engine (R295, R302). -/
def State.instRoom (s : State) (d g e : Nat) : Bool :=
  decide ((s.insts.filter (fun x => x.2.dom = d ∧ x.2.group = g)).length < 4) && s.streamFree e

/-- Whether a COLL's encodings are allowed together (R294, R296). -/
def collCoded (ws : List Word) : Bool :=
  let w1 := ws.getD 1 0
  let op := fld w1 47 40
  let ty := fld w1 39 36
  let mode := fld w1 35 34
  clAllowed op ty mode && decide (fld (ws.getD 3 0) 31 0 * clUp op ty mode < 2 ^ 32)

/-- COLLs of a context that have started before one and are not performed yet: they take the numbers before its own. -/
def State.collsAhead (s : State) (c g before : Nat) : Nat :=
  (s.ops.filter (fun e => !e.2.performed && decide (e.2.ctx = c) && e.2.queue < 0xFFFF8 && fld (e.2.words.getD 0 0) 58 51 = 0x0C &&
    fld (e.2.words.getD 1 0) 63 48 = g && decide (e.2.started < before))).length

/-- The instance that a COLL of a context begins, behind `ahead` others of the context (R295): the engine, the group's
domain, the group and the number; none where it begins no instance. One that fails its checks begins one too (R294, R314). -/
def State.newColl (s : State) (c ahead : Nat) (ws : List Word) : Option (Nat × Nat × Nat × Nat) :=
  let g := fld (ws.getD 1 0) 63 48
  match s.findGroup g with
  | none => none
  | some (d, r) => match s.grpPlace d g c with
    | none => none
    | some j =>
      let n := tGet 0 r.seqs j + ahead
      if !s.engOff.contains r.engine && !r.gone n && (s.instOf d g n).isNone then some (r.engine, d, g, n)
      else none

/-- The instances that COLLs which have started and are not performed yet will begin. -/
def State.collsDue (s : State) : List (Nat × Nat × Nat × Nat) :=
  (s.ops.filterMap (fun e =>
    if e.2.performed || 0xFFFF8 ≤ e.2.queue || fld (e.2.words.getD 0 0) 58 51 ≠ 0x0C then none
    else s.newColl e.2.ctx (s.collsAhead e.2.ctx (fld (e.2.words.getD 1 0) 63 48) e.2.started) e.2.words)).dedup

/-- Whether a COLL must wait for a stream or for an instance to end (R15, R295, R302), beside the instances that COLLs
started before it will begin: one that begins no instance does not. -/
def State.collWaits (s : State) (c : Nat) (ws : List Word) : Bool :=
  let g := fld (ws.getD 1 0) 63 48
  match s.newColl c (s.collsAhead c g s.serial) ws with
  | none => false
  | some i =>
    let due := s.collsDue
    let group := (due.filter (fun e => e.2.1 = i.2.1 ∧ e.2.2.1 = g)).length
    let engine := (due.filter (fun e => e.1 = i.1)).length
    !(due.contains i ||
      (decide ((s.insts.filter (fun x => x.2.dom = i.2.1 ∧ x.2.group = g)).length + group < 4) &&
        decide ((s.insts.filter (fun x => x.2.engine = i.1)).length + engine < 512)))

/-- Whether a COLL may start. -/
def State.collRoom (s : State) (c : Nat) (ws : List Word) : Bool := !s.collWaits c ws

end Sys2Proof.Machine
end

