-- ==== Sys2Proof/Machine/Lines.lean ====
section
/-! DEFINITION. The lines of the context stores (R365 to R370): who holds a line, and what an access by a stall's agents, or
by an agent without a cache, makes of that. Memory is held as every agent observes it, so these states decide who holds a
line, and never its value (R370). -/

namespace Sys2Proof.Machine

/-- Lines that a domain's directory tracks (R365). -/
def State.dirLines (s : State) (d : Nat) : Nat := (s.dir.filter (fun e => domOfHbm (64 * e.1) = d)).length

/-- A line's key: its device address over 64, for line `line` of a domain's stack. -/
def lineKey (d line : Nat) : Nat := (hbmBase + d * stackSize) / 64 + line % (stackSize / 64)

/-- Holders of a line. -/
def State.holders (s : State) (k : Nat) : List (Nat × LineState) := tGet [] s.dir k
def State.setHolders (s : State) (k : Nat) (hs : List (Nat × LineState)) : State :=
  { s with dir := tSet [] k hs s.dir, hints := tDel k s.hints }

/-- The holders with one put in, in order of stall number. -/
def putHolder (c : Nat) (st : LineState) (hs : List (Nat × LineState)) : List (Nat × LineState) := tPut c st hs

/-- The holders that remain after one has given the line up: a single one is UNIQUE, and of several the
lowest-numbered is LEAD where none is (R367). -/
def settleHolders (hs : List (Nat × LineState)) : List (Nat × LineState) :=
  match hs with
  | [] => []
  | [h] => [(h.1, if h.2 = .dirty then .dirty else .unique)]
  | h :: rest => if hs.any (fun x => x.2 = .lead) then hs else (h.1, .lead) :: rest

/-- A line given up by a cache: its own copy goes, and those that stay settle (R367). -/
def State.lineDrop (s : State) (k c : Nat) : State := s.setHolders k (settleHolders (tDel c (s.holders k)))

/-- Room made for one more line (R365): one that is tracked, whichever it is, is recalled from every holder. -/
def State.makeRoom (s : State) (d k : Nat) : State :=
  if s.holders k ≠ [] || decide (s.dirLines d < 1048576) then s
  else
    let (f, s) := s.free 32
    let mine := s.dir.filter (fun e => domOfHbm (64 * e.1) = d)
    match mine[f.toNat % 1048576]? with
    | some e => { s with dir := tDel e.1 s.dir, hints := tDel e.1 s.hints }.bump (.csCount (domOf d)) 63 48 1
    | none => s

/-- Lines that a cache holds. -/
def State.cacheLines (s : State) (d c : Nat) : List Nat :=
  (s.dir.filter (fun e => domOfHbm (64 * e.1) = d && (tFind e.2 c).isSome)).map (fun e => e.1)

/-- Room made in a cache of 131,072 lines (R15, R365): where it is full it gives up one, whichever it is. -/
def State.cacheRoom (s : State) (d c : Nat) : State :=
  let mine := s.cacheLines d c
  if mine.length < 131072 then s
  else
    let (f, s) := s.free 32
    let k := mine.getD (f.toNat % 131072) 0
    s.lineDrop k c

/-- A stall of a domain. -/
def domStall (d : Dom) (n : Nat) : Stall := stallOf (8 * d.val + n % 8)

/-- A request of a stall's cache for a line that it does not hold: counted as CACHE_MISS (R476), room made for it. -/
def State.lineMiss (s : State) (d c k : Nat) : State :=
  ((s.cacheRoom d c).pm (.stall (domStall (domOf d) c)) 0x27 0 1).makeRoom d k

/-- A line read through a cache (R367): one that it holds needs no request. -/
def State.lineShare (s : State) (d c k : Nat) : State :=
  let hs := s.holders k
  if (tFind hs c).isSome then s
  else
    let s := s.lineMiss d c k
    match hs with
    | [] => s.setHolders k [(c, .unique)]
    | [h] => s.setHolders k (putHolder c .shared [(h.1, .lead)])
    | _ => s.setHolders k (putHolder c .shared hs)

/-- A line made DIRTY in a cache (R367): by a store to a UNIQUE line, an upgrade, or a read for ownership. -/
def State.lineOwn (s : State) (d c k : Nat) : State :=
  match tFind (s.holders k) c with
  | some .dirty => s
  | some _ => s.setHolders k [(c, .dirty)]
  | none => (s.lineMiss d c k).setHolders k [(c, .dirty)]

/-- The effect on the directory of an uncached read (R369): a DIRTY holder writes back and is UNIQUE. -/
def State.lineRead (s : State) (k : Nat) : State :=
  match s.holders k with
  | [(c, .dirty)] => s.setHolders k [(c, .unique)]
  | _ => s

/-- The effect of an uncached write or a hitch atomic: every copy is invalidated (R369). -/
def State.lineWrite (s : State) (k : Nat) : State := s.setHolders k []

/-- What an access by the agents of a stall makes of the lines that it touches (R351): through the stall's context cache
where they are of its own domain, and uncached at the other domain's directory. -/
def State.cacheUse (s : State) (stall a n : Nat) (own : Bool) : State :=
  if inHbm a && inHbm (a + n - 1) then
    (linesOf a n).foldl (fun t k =>
      if domOfHbm (64 * k) = domOfStall stall then
        (if own then t.lineOwn (domOfStall stall) (stall % 8) k else t.lineShare (domOfStall stall) (stall % 8) k)
      else if own then t.lineWrite k else t.lineRead k) s
  else s

/-- HBM written by an agent of a stall (R351). -/
def State.cacheWrite (s : State) (stall a : Nat) (bs : List Byte) : State := (s.hbmWrite a bs).cacheUse stall a bs.length true

/-- The lines that an agent without a cache reads (R369). -/
def State.uncachedRead (s : State) (a n : Nat) : State := (linesOf a n).foldl (fun t k => t.lineRead k) s

end Sys2Proof.Machine
end

