-- ==== Sys2Proof/Machine/Peers.lean ====
section
/-! DEFINITION. What a command that names a rank needs before it starts: the rank tables (R115 to R118), and a flow to
the peer (R262, R263, R265). -/

namespace Sys2Proof.Machine

/-! ### Rank tables (R116 to R118) -/

/-- Whether a fabric address is possible: each coordinate below its dimension's size (R115). The
size fields of RT_TOPO hold n − 1. -/
def State.faPossible (s : State) (fa : Nat) : Bool :=
  let w := s.reg .rtTopo
  decide (fld (BitVec.ofNat 24 fa) 23 20 ≤ fld w 31 28) && decide (fld (BitVec.ofNat 24 fa) 19 16 ≤ fld w 23 20) &&
    decide (fld (BitVec.ofNat 24 fa) 15 12 ≤ fld w 15 12) && decide (fld (BitVec.ofNat 24 fa) 11 8 ≤ fld w 7 4)

/-- The lookup of a rank: the peer's address and context, or the failure code (R118). -/
def State.rank (s : State) (c r : Nat) : Except Nat (Nat × Nat) :=
  let base := (s.ctxWord c 0).toNat
  let d := s.ctxWord c 1
  let size := fld d 60 32
  if !bit d 63 || fld d 62 61 ≠ 0 || base % 8 ≠ 0 || size = 0 || 2 ^ 28 < size ||
      !s.inShare (s.ctxDom c) 4 base (8 * size) then .error 0x03
  else if size ≤ r then .error 0x04
  else
    let e := s.hbmWord (base + 8 * r)
    if !bit e 63 || !s.faPossible (fld e 55 32) then .error 0x05
    else .ok (fld e 55 32, fld e 21 0)

/-! ### Flow records -/

/-- The initiator flow of a context to a peer. -/
def State.findIfl (s : State) (c fa pc : Nat) : Option Nat :=
  (s.ifl.find? (fun e => e.2.ctx = c ∧ e.2.peerFa = fa ∧ e.2.peerCtx = pc)).map (fun e => e.1)

/-- Whether a context may hold one more flow record (R263, R265). -/
def State.flowRoom (s : State) (c : Nat) : Bool :=
  let held := (s.ifl.filter (fun e => e.2.ctx = c)).length + (s.tfl.filter (fun e => e.2.dctx = c)).length
  let most := fld (s.ctxWord c 15) 63 40
  decide (most = 0 ∨ held < most) && decide (0 < s.rf (.flowPool (domOf (s.ctxDom c))) 63 40)

/-- The peer to which a command of a context opens a flow, where it is one that sends and none is open (R118, R263). -/
def State.newPeer (s : State) (c : Nat) (words : List Word) : Option (Nat × Nat × Nat) :=
  let opc := fld (words.getD 0 0) 58 51
  if opc < 1 ∨ 6 < opc then none
  else match s.rank c (fld (words.getD 1 0) 63 32) with
    | .error _ => none
    | .ok (fa, pc) => if (s.findIfl c fa pc).isSome then none else some (c, fa, pc)

/-- The flows that commands which have started and are not yet performed will open. -/
def State.flowsDue (s : State) : List (Nat × Nat × Nat) :=
  (s.ops.filterMap (fun e => if e.2.performed || 0xFFFF8 ≤ e.2.queue then none else s.newPeer e.2.ctx e.2.words)).dedup

/-- Whether a command of a context finds the flow that it needs: one to the peer that exists, that a command already
started will open, or that can be opened beside those; a rank whose lookup fails needs none (R118, R263). -/
def State.peerRoom (s : State) (c : Nat) (words : List Word) : Bool :=
  match s.newPeer c words with
  | none => true
  | some p =>
    let due := s.flowsDue
    let mine := (due.filter (fun e => e.1 = c)).length
    let all := (due.filter (fun e => s.ctxDom e.1 = s.ctxDom c)).length
    let held := (s.ifl.filter (fun e => e.2.ctx = c)).length + (s.tfl.filter (fun e => e.2.dctx = c)).length
    let most := fld (s.ctxWord c 15) 63 40
    due.contains p || (decide (most = 0 ∨ held + mine < most) && decide (all < s.rf (.flowPool (domOf (s.ctxDom c))) 63 40))

end Sys2Proof.Machine
end

