-- ==== Sys2Proof/Machine/Queue.lean ====
section
/-! DEFINITION. Command queues: completions (R177), trigger counters (R199, R200), queue states
(R202), doorbells (R178), ring reads (R179), arbitration (R198) and the queue rows of the table. -/

namespace Sys2Proof.Machine

/-- A queue changed, where it exists. -/
def State.modCq (s : State) (q : Nat) (f : Cq → Cq) : State :=
  match tFind s.cqs q with
  | some c => { s with cqs := tPut q (f c) s.cqs }
  | none => s

/-- A started command changed. -/
def State.modOp (s : State) (op : Nat) (f : Op → Op) : State :=
  match tFind s.ops op with
  | some o => { s with ops := tPut op (f o) s.ops }
  | none => s

/-- Home domain of a queue: that of its context, or of its link for an admin queue (R172, R181). -/
def State.cqDom (s : State) (c : Cq) : Nat := if c.admin then c.link / 4 else s.ctxDom c.ctx

/-- Slot of a count (R173). -/
def Cq.slot (c : Cq) (n : Nat) : Nat := n % 2 ^ c.k

/-- Lap parity of a count (R173). -/
def Cq.lap (c : Cq) (n : Nat) : Nat := (n / 2 ^ c.k) % 2

/-- Host address of the slot of a count. -/
def Cq.slotAddr (c : Cq) (n : Nat) : Nat := c.base + 64 * c.slot n

/-- Fields of an entry header (R175). -/
def hdrLen (w : Word) : Nat := fld w 62 59 + 1
def hdrOp (w : Word) : Nat := fld w 58 51
def hdrEvent (w : Word) : Bool := bit w 50
def hdrFence (w : Word) : Bool := bit w 49
def hdrOrdered (w : Word) : Bool := bit w 48

/-- The completion header of an entry (R177). -/
def cplHeader (w : Word) (status detail : Nat) : Word :=
  setFld (setFld (setBit w 63 (!bit w 63)) 47 40 status) 39 32 detail

/-- Oldest advances over entries whose completions have been written (R177). -/
def Cq.settleOldest : Nat → Cq → Cq
  | 0, c => c
  | n + 1, c =>
    match c.open_ with
    | (k, len, true) :: rest =>
      if k ≤ c.oldest then Cq.settleOldest n { c with oldest := max c.oldest (k + len), open_ := rest } else c
    | _ => c

/-- The completion of the entry at a count has been written. -/
def Cq.closeEntry (c : Cq) (count : Nat) : Cq :=
  let mark (e : Nat × Nat × Bool) : Nat × Nat × Bool := if e.1 = count then (e.1, e.2.1, true) else e
  let c := { c with open_ := c.open_.map mark }
  c.settleOldest c.open_.length

/-- Whether a queue index is an admin index (R181). -/
def adminIndex (q : Nat) : Bool := decide (0xFFFF8 ≤ q)

/-- Where a queue's COMMAND_COMPLETE events go (R181, R188). -/
def Cq.postTo (c : Cq) : PostTo := if c.admin then .mgmt c.link else if c.eqValid then .eq c.eq c.ctx else .ctx c.ctx

/-- The bindings of R324 that an event of a context uses: kind 0 header, 1 payload, 2 completion. -/
def State.bound (s : State) (c kind : Nat) : Bool :=
  let w := s.ctxWord c 22
  let st := s.ctxStall c
  bit w (63 - kind) && s.rb (.grCtrl (stallOf st)) 0 &&
    (match s.ctx? c with | some x => !x.suspended.testBit kind | none => false)

/-- The run queues of a stall. -/
def State.runq (s : State) (n : Nat) : RunQ := tGet {} s.runqs n

/-- The entries of a stall's run queue that are reserved for the payload runs of packets that have been admitted (R327). -/
def State.reservedIn (s : State) (n : Nat) : Nat :=
  ((s.tfl.filter (fun e => s.ctxStall e.2.dctx = n)).map (fun e => (e.2.issued.filter (fun i => i.pay)).length)).sum

/-- A completion run queued (R326, R327): in the completion queue, or in the context's state while
that is full. -/
def State.fireCompletion (s : State) (c code : Nat) (record : List Word) : State :=
  let st := s.ctxStall c
  let q := s.runq st
  let r : RunRef := ⟨2, c, 0, 0, code, 0, bytesOf record, none, 0⟩
  let q := if q.cpls.length < 1024 ∧ q.spill = [] then { q with cpls := q.cpls ++ [r] }
           else { q with spill := q.spill ++ [r] }
  { s with runqs := tSet {} st q s.runqs }

/-- An event posted. -/
def State.post (s : State) (p : Post) : State :=
  match p.dest with
  | .mgmt h => s.postMgmt h p.code none p.fs
  | .eq e c => s.postEq e p.code (some c) p.fs
  | .ctx c => s.postCtx c p.code p.fs
  | .run c => if s.bound c 2 then s.fireCompletion c p.code (eventWords p.code (some c) s.nt p.fs) else s

/-- The event queue that an event goes to. -/
def State.postQueue (s : State) : PostTo → Option Eq
  | .mgmt h => if s.rb (.hlMgmtEq (hlinkOf h)) 63 then tFind s.eqs (s.rf (.hlMgmtEq (hlinkOf h)) 17 0) else none
  | .eq e _ => tFind s.eqs e
  | .ctx c =>
    let w := s.ctxWord c 2
    if bit w 61 then tFind s.eqs (fld w 52 35)
    else if s.rb (.hlMgmtEq (hlinkOf (fld w 55 53))) 63 then tFind s.eqs (s.rf (.hlMgmtEq (hlinkOf (fld w 55 53))) 17 0)
    else none
  | .run _ => none

/-- What waited for the acknowledgement of a write follows it. -/
def State.postDue (s : State) (id : Nat) : State :=
  match tFind s.posts id with
  | none => s
  | some ps => ps.foldl State.post { s with posts := tDel id s.posts }

/-- Whether what follows a completion waits until the header's write has been acknowledged: a completion run (R326), an
event of an admin queue (R364), and an event that goes to another link (R359). -/
def State.waitsAck (s : State) (c : Cq) (p : Post) : Bool :=
  match p.dest with
  | .run _ => true
  | d => c.admin || (match s.postQueue d with
    | some e => e.link ≠ c.link
    | none => false)

/-- A completion's writes, its header last, and what follows them: an event behind them on the same link at once (R177),
and what waits for the acknowledgement of the header's write (log entry 168). -/
def State.putCpl (s : State) (q : Nat) (c : Cq) (count : Nat) (writes : List (Nat × List Byte)) (after : List Post) : State :=
  let fn := if c.admin then 31 else c.fn
  let ctx := if c.admin then none else some c.ctx
  let late := after.filter (s.waitsAck c)
  let soon := after.filter (fun p => !s.waitsAck c p)
  let id := s.serial
  let tok : Tok := if late = [] then .none else .post id
  let s := if late = [] then s else { s with posts := tPut id late s.posts, serial := s.serial + 1 }
  let s := writes.dropLast.foldl (fun t w => t.hostWrite c.link fn ctx w.1 w.2 .none) s
  let s := match writes.getLast? with
    | some w => s.hostWrite c.link fn ctx w.1 w.2 tok
    | none => s
  soon.foldl State.post (s.modCq q (fun c => c.closeEntry count))

/-- An entry's completion written to its ring: the result words, then the header, then what follows (R177, R245, R326).
While the link is lost they are held (R203). -/
def State.writeCpl (s : State) (q : Nat) (c : Cq) (count : Nat) (writes : List (Nat × List Byte)) (after : List Post) : State :=
  if s.hlLost c.link then s.modTl c.link (fun x => { x with heldCpls := x.heldCpls ++ [⟨q, c.id, count, writes, after⟩] })
  else s.putCpl q c count writes after

/-- A queue enters ERROR (R202): the cause is kept, QUEUE_ERROR is posted, and entries posted but
not started are not performed; its pending triggers are discarded, and what has fired waits until it is ACTIVE again
(R201). A queue that is in ERROR already keeps its cause, and posts no second event (DESIGN CHOICE: R205 does not say what a
function reset does to one; log entry 180). -/
def State.queueError (s : State) (q cause slot : Nat) : State :=
  match tFind s.cqs q with
  | none => s
  | some c =>
    if c.state = 4 then s
    else
      let quiet (f : Flush) : Flush := { f with act := false }
      let s := s.modCq q (fun c => { c with state := 4, lastError := cause, flushing := c.flushing.map quiet })
      let s := { s with trigs := s.trigs.filter (fun t => t.queue ≠ q) }
      let s := s.bump (.cqCount (domOf (s.cqDom c))) 31 0 1
      let fs := [(2, 63, 44, q), (2, 43, 24, slot), (2, 23, 16, cause)]
      if c.admin then s.postMgmt c.link 0x0203 none fs else s.postCtx c.ctx 0x0203 fs

/-! ### Trigger counters -/

/-- Device address of a trigger counter (R199). -/
def State.ctAddr (s : State) (c ct : Nat) : Nat := fld (s.ctxWord c 3) 63 3 * 8 + 8 * ct

/-- Whether a context has the counter (R199). -/
def State.ctOk (s : State) (c ct : Nat) : Bool := decide (ct < fld (s.ctxWord c 4) 63 52)

/-- Pending commands of a counter that now fire (R200): each becomes a command of its queue,
ready ahead of the entries that have not started, in the order in which they were armed; on a queue that is being destroyed
it is discarded (R201). -/
def State.fireTrigs (s : State) (c ct : Nat) : State :=
  let now := fld (s.hbmWord (s.ctAddr c ct)) 47 0
  let fires (t : Trig) : Bool := decide (t.ctx = c ∧ t.ct = ct ∧ t.threshold ≤ now)
  let due := s.trigs.filter fires
  let s := { s with trigs := s.trigs.filter (fun t => !fires t) }
  due.foldl (fun s t =>
    match tFind s.cqs t.queue with
    | none => s
    | some cq =>
      if cq.dying then s else
      let id := s.serial
      let o : Op := { src := .fired, queue := t.queue, count := t.slot, ctx := t.ctx, link := cq.link,
                      fn := cq.fn, stall := cq.stall, words := t.words, performed := true, left := 0,
                      status := 0, detail := 0, result := 0, aux := 0 }
      let s := { s with ops := tPut id o s.ops, serial := s.serial + 1 }
      s.modCq t.queue (fun c => { c with fired := c.fired ++ [id] })) s

/-- A trigger counter set, and the commands it fires (R199, R200). -/
def State.ctPut (s : State) (c ct : Nat) (w : Word) : State :=
  (s.cacheWrite (s.ctxStall c) (s.ctAddr c ct) (leBytes 8 w.toNat)).fireTrigs c ct

/-- A trigger counter raised: success wraps, failure saturates (R199). The counter 0xFFF is none. -/
def State.ctAdd (s : State) (c ct succ failed : Nat) : State :=
  if s.ctOk c ct then
    let w := s.hbmWord (s.ctAddr c ct)
    s.ctPut c ct (satFld (setFld w 47 0 (fld w 47 0 + succ)) 63 48 failed)
  else s

/-! ### Completion of commands -/

/-- The ct field of a command (R183 to R185). -/
def cmdCt (ws : List Word) : Nat := fld (ws.getD 1 0) 27 16

/-- The opcodes whose word 1 [27:16] names the counter that rises at completion (R183 to R185, R199). -/
def raisesCt (opc : Nat) : Bool := [1, 2, 3, 4, 5, 6, 8, 9, 0x0C].contains opc

/-- Whether a command was carried by an admin queue, which has no context (R181). -/
def Op.admin (o : Op) : Bool :=
  match o.src with
  | .groom _ _ => false
  | _ => adminIndex o.queue

/-- A Groom. -/
def State.groom (s : State) (g : GroomId) : Groom := tGet {} s.grooms (16 * g.s.val + g.g.val)

/-- A Groom changed. -/
def State.modGroom (s : State) (g : GroomId) (f : Groom → Groom) : State :=
  { s with grooms := tMod {} (16 * g.s.val + g.g.val) f s.grooms }

/-- A Groom's run changed. -/
def State.modRun (s : State) (g : GroomId) (f : Run → Run) : State :=
  s.modGroom g (fun x => { x with run := x.run.map f })

/-- A run's point that orders its later loads after it (R354 to R356): from now on none of them is performed earlier. -/
def State.catchUp (s : State) (g : GroomId) : State := s.modRun g (fun r => { r with pastHbm := s.hbm, pastBuf := s.buf, seen := [] })

/-- Wait events that become pending for a run, and a WFE that they end (R345). -/
def wakeRun (bits : Nat) (r : Run) : Run :=
  let r := { r with events := r.events ||| bits }
  match r.wait with
  | .wfe rd m =>
    if r.events &&& m = 0 then r
    else
      let hit := r.events &&& m
      { r with wait := .none, pc := r.pc + 1, events := r.events - hit,
               regs := if rd = 0 then r.regs else modAt r.regs rd (fun _ => BitVec.ofNat 64 hit) }
  | _ => r

/-- A command that a run issued is outstanding no more; an ISSUE that waited for one may go on (R343). -/
def Run.handleDone (op : Nat) (r : Run) : Run :=
  let r := { r with handles := r.handles.filter (fun e => e.2.2 ≠ op) }
  if r.wait = .issue then { r with wait := .none } else r

/-- The completion of a command that a run issued: over word 0 of its image in scratch, with the
event ISSUE_DONE (R343). After an exception nothing is written (R332). -/
def State.groomCpl (s : State) (g : GroomId) (op : Nat) (hdr : Word) : State :=
  match (s.groom g).run with
  | none => s
  | some r =>
    match r.handles.find? (fun h => h.2.2 = op) with
    | none => s
    | some h =>
      let s := if r.exc.isSome then s
               else s.modGroom g (fun x => { x with scratch := memWrite x.scratch h.2.1 (leBytes 8 hdr.toNat) })
      s.modRun g (fun r => wakeRun 1 (r.handleDone op))

/-- COMMAND_COMPLETE's fields (R197). -/
def cplFields (q slot status detail tag : Nat) : List (Nat × Nat × Nat × Nat) :=
  [(2, 63, 44, q), (2, 43, 24, slot), (2, 23, 16, status), (2, 15, 8, detail), (3, 31, 0, tag)]

/-- A command completes (R177, R199, R200, R343): its result words and header are written, its
counter rises, COMMAND_COMPLETE is posted, a completion run fires, and its record ends. A fired command has no header:
its event and run follow at once. -/
def State.endOp1 (s : State) (id status detail : Nat) (writes : List (Nat × List Byte)) : State :=
  match tFind s.ops id with
  | none => s
  | some o =>
    let s := { s with ops := tDel id s.ops }
    let hdr := o.words.getD 0 0
    let new := cplHeader hdr status detail
    let ok := status = 0
    let cq := tFind s.cqs o.queue
    let slot := match o.src, cq with | .entry, some c => c.slot o.count | _, _ => o.count
    let fs := cplFields o.queue slot status detail (fld hdr 31 0)
    let event (c : Cq) : List Post := if hdrEvent hdr then [⟨c.postTo, 0x0201, fs⟩] else []
    let run (c : Cq) : List Post :=
      if !c.admin && s.bound o.ctx 2 && (bit (s.ctxWord o.ctx 22) 58 || (hdrOp hdr = 8 && bit (s.ctxWord o.ctx 22) 57))
      then [⟨.run o.ctx, 0x0201, fs⟩] else []
    let s := match o.src, cq with
      | .entry, some c =>
        s.writeCpl o.queue c o.count (writes ++ [(c.slotAddr o.count, leBytes 8 new.toNat)]) (event c ++ run c)
      | .groom g _, _ => s.groomCpl g id new
      | .fired, some c => (event c ++ run c).foldl State.post s
      | _, _ => s
    if raisesCt (hdrOp hdr) && !o.admin then s.ctAdd o.ctx (cmdCt o.words) (b2n ok) (b2n (!ok)) else s

/-- Whether a queue has a started command that has not ended (R188, R255). -/
def State.queueBusy (s : State) (q : Nat) : Bool :=
  s.ops.any (fun e => e.2.queue = q && (match e.2.src with | .groom _ _ => false | _ => true))

/-- What a queue waits for has come about (R188, R206, R501): a destroyed queue with nothing started becomes DISABLED;
a FLUSH whose walk has ended and before whose end no started entry is open ends, oldest passes to its end, and the queue
becomes ACTIVE, unless START or an error has since given its state. Answers the CQ_DESTROY that then completes. -/
def State.queueIdle (s : State) (q : Nat) : State × Option Nat :=
  match tFind s.cqs q with
  | none => (s, none)
  | some c =>
    if c.dying then
      if c.open_ ≠ [] || s.queueBusy q then (s, none)
      else ({ s with cqs := tDel q s.cqs, trigs := s.trigs.filter (fun t => t.queue ≠ q) }, c.destroyer)
    else match c.flushing with
      | none => (s, none)
      | some f =>
        if f.walks ≠ [] || c.open_.any (fun e => e.1 < f.hi) then (s, none)
        else
          let ended (c : Cq) : Cq :=
            let c := { c with flushing := none, state := if f.act then 1 else c.state, oldest := max c.oldest f.hi }
            c.settleOldest c.open_.length
          (s.modCq q ended, none)

/-- The CQ_DESTROY that waited for a queue completes (R188), which may end what its own queue
waits for. -/
def State.endDestroy (s : State) (id : Nat) : State :=
  match tFind s.ops id with
  | none => s
  | some o => ((s.endOp1 id 0 0 []).queueIdle o.queue).1

/-- What a queue waits for has perhaps come about; the CQ_DESTROY that its end answers completes. -/
def State.settleQueue (s : State) (q : Nat) : State :=
  match s.queueIdle q with
  | (s, some d) => s.endDestroy d
  | (s, none) => s

/-- A command completes, and what its queue was waiting for follows (R188, R206). -/
def State.endOp (s : State) (id status detail : Nat) (writes : List (Nat × List Byte)) : State :=
  match tFind s.ops id with
  | none => s
  | some o =>
    (s.endOp1 id status detail writes).settleQueue o.queue

/-- A command completes with a status and no result words. -/
def State.done (s : State) (id status : Nat) (detail : Nat := 0) : State := s.endOp id status detail []

/-- One part of a command ends, with 0 or the status of its failure; the first failure is kept,
and the command completes when no part is left. -/
def State.partEnds (s : State) (id status detail : Nat) : State :=
  match tFind s.ops id with
  | none => s
  | some o =>
    let o := if o.status = 0 then { o with status := status, detail := detail } else o
    let o := { o with left := o.left - 1 }
    let s := { s with ops := tPut id o s.ops }
    if o.left = 0 then s.done id o.status o.detail else s

/-! ### Host regions (R156) -/

/-- The region of a host address: the lowest-numbered valid entry that covers it. -/
def State.hrt (s : State) (h a : Nat) : Option (Fin 64) :=
  (List.finRange 64).find? (fun i =>
    let b := s.reg (.hrtBase (hlinkOf h) i)
    let l := s.reg (.hrtLimit (hlinkOf h) i)
    bit b 0 && decide (fld b 63 12 * 4096 ≤ a ∧ a ≤ fld l 63 12 * 4096 + 0xFFF))

/-- Whether a host address lies in a MEMORY region (R156). -/
def State.isMemory (s : State) (h a : Nat) : Bool :=
  match s.hrt h a with
  | some i => !s.rb (.hrtLimit (hlinkOf h) i) 0
  | none => false

/-- Whether every 4 KiB page of a range resolves to MEMORY (R172, R192). -/
def State.allMemory (s : State) (h a n : Nat) : Bool :=
  (List.range (ceilDiv n 4096)).all (fun i => s.isMemory h (a + 4096 * i))

/-! ### Starting entries -/

/-- The words of a granule, the first at the lowest address (R5). A granule is held as the 512-bit
number whose low 64 bits are word 0. -/
def granWords (g : BitVec 512) : List Word := (List.range 8).map (fun i => BitVec.ofNat 64 (g.toNat / 2 ^ (64 * i)))

/-- A granule of 64 bytes in memory order. -/
def granOf (bs : List Byte) : BitVec 512 := BitVec.ofNat 512 (ofLe (bs.take 64))

/-- What stands at the head of a queue: nothing yet, an error, or an entry of `n` granules. -/
inductive Head where
  | none
  | error (cause : Nat)
  | entry (n : Nat) (words : List Word)
  deriving DecidableEq, Repr

/-- The next entry of a queue, once its header and its granules are held (R176). -/
def Cq.head (c : Cq) : Head :=
  if c.pi ≤ c.next then .none
  else match tFind c.gran c.next with
    | none => .none
    | some g =>
      let w := (granWords g).getD 0 0
      let n := hdrLen w
      if b2n (bit w 63) ≠ c.lap c.next then .error 0x21
      else if 2 ^ c.k < c.slot c.next + n then .error 0x24
      else if c.pi < c.next + n then .none
      else
        let gs := (List.range n).map (fun i => tFind c.gran (c.next + i))
        if gs.all Option.isSome then .entry n (gs.flatMap (fun o => granWords (o.getD 0))) else .none

/-- The first count from `n` on, below `pi`, whose granule is not held. -/
def Cq.firstGap (c : Cq) : Nat → Nat → Nat
  | 0, n => n
  | f + 1, n => if n < c.pi ∧ (tFind c.gran n).isSome then Cq.firstGap c f (n + 1) else n

/-- The fetch count (R173): the slots taken, from a doorbell or from the ring. -/
def Cq.fetch (c : Cq) : Nat := c.firstGap (2 ^ c.k) c.next

/-- The first header among those taken that fails R176, from a count on along the lens up to the fetch count: its cause
and its count. -/
def Cq.badHeader (c : Cq) (top : Nat) : Nat → Nat → Option (Nat × Nat)
  | 0, _ => none
  | f + 1, n =>
    if top ≤ n then none
    else match tFind c.gran n with
      | none => none
      | some g =>
        let w := (granWords g).getD 0 0
        if b2n (bit w 63) ≠ c.lap n then some (0x21, n)
        else if 2 ^ c.k < c.slot n + hdrLen w then some (0x24, n)
        else Cq.badHeader c top f (n + hdrLen w)

/-- Posted and bound receives of a context. -/
def State.receives (s : State) (c : Nat) : Nat := (s.mes.filter (fun e => e.2.ctx = c ∧ (e.2.kind = 1 ∨ e.2.kind = 2))).length

/-- Whether a RECV_POST of a context finds a match entry: the context's limit and the share (R237). -/
def State.meFits (s : State) (c : Nat) : Bool :=
  decide (s.receives c < fld (s.ctxWord c 8) 58 32) && decide (0 < s.rf (.mtPool (domOf (s.ctxDom c))) 63 38)

/-- Whether a RECV_POST may start (R237): there is an entry for it beside those of the receives that have started and not
yet reached the matching unit. -/
def State.meRoom (s : State) (c : Nat) : Bool :=
  let due (o : Op) : Bool := !o.performed && hdrOp (o.words.getD 0 0) = 8
  let mine := (s.ops.filter (fun e => due e.2 && e.2.ctx = c)).length
  let all := (s.ops.filter (fun e => due e.2 && s.ctxDom e.2.ctx = s.ctxDom c)).length
  decide (s.receives c + mine < fld (s.ctxWord c 8) 58 32) && decide (all < s.rf (.mtPool (domOf (s.ctxDom c))) 63 38)

/-- Whether a command of a context finds what it needs to start: a match entry for a RECV_POST (R237), a stream for a COLL
(R295, R302), a flow for a command that sends (R263). -/
def State.ctxRoom (s : State) (c : Nat) (words : List Word) : Bool :=
  let opc := hdrOp (words.getD 0 0)
  if opc = 0x08 then s.meRoom c
  else if opc = 0x0C then s.collRoom c words
  else s.peerRoom c words

/-- Whether a queue's command finds what it needs to start; an admin queue's needs nothing. -/
def State.cmdRoom (s : State) (c : Cq) (words : List Word) : Bool := c.admin || s.ctxRoom c.ctx words

/-- Whether the next entry of a queue may start: the fence bit (R180), and its room. -/
def State.mayStart (s : State) (c : Cq) (words : List Word) : Bool :=
  (!hdrFence (words.getD 0 0) || decide (c.oldest = c.next)) && s.cmdRoom c words

/-- The words of the next command of a queue: a fired one before the next entry (R200). -/
def State.nextWords (s : State) (c : Cq) : Option (List Word) :=
  match c.fired, c.head with
  | id :: _, _ => (tFind s.ops id).map (fun o => o.words)
  | [], .entry _ ws => some ws
  | [], _ => none

/-- Whether a topcoat holds back a queue: it drains the queue's link or its home domain (R424). -/
def State.coatHolds (s : State) (c : Cq) : Bool := s.holdHost = some c.link || s.holdDom = some (s.cqDom c)

/-- Whether a queue is ready (R198): ACTIVE, its link not lost (R203), not held back by a topcoat, and a fired command
or an entry that may start. -/
def State.ready (s : State) (c : Cq) : Bool :=
  decide (c.state = 1) && !s.hlLost c.link && !c.dying && !s.coatHolds c &&
    (match s.nextWords c with
      | some ws => if c.fired = [] then s.mayStart c ws else s.cmdRoom c ws
      | none => false)

/-- The function on whose behalf an entry acts (R181). -/
def Cq.actor (c : Cq) (n : Nat) : Nat := if c.admin then tGet 31 c.fns n else c.fn

/-- The opcodes that a queue's kind carries (R181, R182): 0 reserved, 1 carried, 2 not carried. -/
def kindOf (admin priv : Bool) (opc : Nat) : Nat :=
  if opc = 0 then 1
  else if opc ∈ [1, 2, 3, 4, 5, 6, 8, 9, 0x0C, 0x10, 0x11, 0x12, 0x14] then (if admin then 2 else 1)
  else if opc = 0x20 then (if !admin && priv then 1 else 2)
  else if opc ∈ [0x30, 0x31, 0x32, 0x33, 0x34, 0x35] then (if admin then 1 else 2)
  else 0

/-- Whether the number of granules is in the opcode's range (R182). -/
def lenOk (opc n : Nat) : Bool :=
  if opc = 0 then decide (n ≤ 16)
  else if opc = 2 ∨ opc = 5 ∨ opc = 0x12 then decide (2 ≤ n ∧ n ≤ 16)
  else n = 1

/-- The bits of each word of a command that its layout defines (R183 to R185, R188, R191, R192,
R196, R200, R226); the others are reserved. Words of granules 2 onwards are payload. -/
def cmdMask (opc i : Nat) : Word :=
  let all : Word := BitVec.allOnes 64
  if i = 0 then ~~~(mask 64 47 32)
  else if opc = 0 then all
  else if opc = 1 ∨ opc = 2 ∨ opc = 3 ∨ opc = 4 ∨ opc = 5 then
    (match i with
      | 1 => mask 64 63 16 | 2 => all | 3 => all | 4 => if opc = 4 ∨ opc = 5 then 0 else all
      | 5 => if opc = 4 ∨ opc = 5 then all else 0 | _ => if 8 ≤ i then all else 0)
  else if opc = 6 then
    (match i with
      | 1 => mask 64 63 16 | 2 => all | 3 => mask 64 63 20 | 4 => all | 5 => all | 6 => all | _ => 0)
  else if opc = 8 ∨ opc = 9 then
    (match i with
      | 1 => mask 64 63 32 ||| mask 64 27 16 | 2 => if opc = 8 then all else 0
      | 3 => mask 64 31 0 | 4 => all | 5 => all | _ => 0)
  else if opc = 0x0C then
    (match i with
      | 1 => mask 64 63 34 ||| mask 64 27 16 | 2 => all | 3 => mask 64 31 0 | 4 => all | 5 => all
      | 6 => all | _ => 0)
  else if opc = 0x10 then (match i with | 1 => mask 64 27 16 | 2 => all | _ => 0)
  else if opc = 0x11 then (match i with | 1 => mask 64 27 16 | 2 => mask 64 47 0 | 3 => mask 64 15 0 | _ => 0)
  else if opc = 0x12 then
    (match i with | 1 => mask 64 27 16 | 2 => mask 64 47 0 | _ => if 8 ≤ i then all else 0)
  else if opc = 0x14 then (match i with | 1 => mask 64 63 32 | _ => 0)
  else if opc = 0x20 then
    (match i with | 1 => mask 64 63 60 ||| mask 64 47 16 | 2 => mask 64 63 12 | 3 => mask 64 31 0 | _ => 0)
  else if opc = 0x30 then (match i with | 1 => mask 64 63 42 | 2 => all | _ => 0)
  else if opc = 0x31 then (match i with | 1 => mask 64 63 42 | _ => 0)
  else if opc = 0x32 then
    (match i with | 1 => mask 64 63 8 | 2 => mask 64 63 12 | 3 => mask 64 63 30 | _ => 0)
  else if opc = 0x33 then (match i with | 1 => mask 64 63 44 | _ => 0)
  else if opc = 0x34 then (match i with | 1 => mask 64 63 29 | 2 => mask 64 63 16 | _ => 0)
  else if opc = 0x35 then (match i with | 1 => mask 64 63 46 | _ => 0)
  else all

/-- Whether every reserved bit of a command is zero (R182). -/
def maskOk (ws : List Word) : Bool :=
  let opc := hdrOp (ws.getD 0 0)
  (List.range ws.length).all (fun i => (ws.getD i 0) &&& ~~~(cmdMask opc i) = 0)

/-- The check that every started command passes first: 0, or MALFORMED_ENTRY or DENIED (R181,
R182). A fired or issued command has no queue kind. -/
def cmdCheck (admin priv : Bool) (ws : List Word) : Nat :=
  let w := ws.getD 0 0
  match kindOf admin priv (hdrOp w) with
  | 0 => 1
  | 1 => if lenOk (hdrOp w) (hdrLen w) && maskOk ws then 0 else 1
  | _ => 2

/-- One entry, or one fired command, of a queue starts (R180): it becomes a started command that
its own row then performs; one that fails the first checks completes at once. -/
def State.startOne (s : State) (q : Nat) : State :=
  match tFind s.cqs q with
  | none => s
  | some c =>
    match c.fired with
    | id :: rest =>
      let s := s.modCq q (fun c => { c with fired := rest })
      let s := { s.modOp id (fun o => { o with performed := false, started := s.serial }) with serial := s.serial + 1 }
      let s := s.pm (.stall (stallOf c.stall)) 0x21 c.ctx 1
      match tFind s.ops id with
      | none => s
      | some o =>
        if lenOk (hdrOp (o.words.getD 0 0)) (hdrLen (o.words.getD 0 0)) && maskOk o.words then s
        else s.done id 1
    | [] =>
      match c.head with
      | .entry n ws =>
        let id := s.serial
        let c1 := { c with next := c.next + n, open_ := c.open_ ++ [(c.next, n, false)],
                           gran := c.gran.filter (fun e => c.next + n ≤ e.1), bell := c.bell.filter (fun e => c.next + n ≤ e) }
        let o : Op := { src := .entry, queue := q, count := c.next, ctx := c.ctx, link := c.link,
                        fn := c.actor c.next, stall := c.stall, words := ws, started := id, performed := false, left := 0,
                        status := 0, detail := 0, result := 0, aux := 0 }
        let s := { s with cqs := tPut q c1 s.cqs, ops := tPut id o s.ops, serial := s.serial + 1 }
        let s := s.pm (.stall (stallOf c.stall)) 0x21 c.ctx 1
        match cmdCheck c.admin c.priv ws with
        | 0 => s
        | st => s.done id st
      | _ => s

/-- Entries of one queue started while it is ready, at most `n`: the count started is answered. -/
def State.startUpTo : Nat → State → Nat → State × Nat
  | 0, s, _ => (s, 0)
  | n + 1, s, q =>
    match tFind s.cqs q with
    | none => (s, 0)
    | some c =>
      if s.ready c then
        let r := (s.startOne q).startUpTo n q
        (r.1, r.2 + 1)
      else (s, 0)

/-- The next command of a queue, where it is a RECV_POST or COLL that must wait, is noted, a RECV_POST once (R237, R257,
R302). -/
def State.noteWait (s : State) (q : Nat) (c : Cq) : State :=
  match s.nextWords c with
  | none => s
  | some ws =>
    let opc := hdrOp (ws.getD 0 0)
    let key := match c.fired with | id :: _ => (true, id) | [] => (false, c.next)
    if c.admin then s
    else if opc = 0x0C && s.collWaits c.ctx ws then
      match s.findGroup (fld (ws.getD 1 0) 63 48) with
      | some (_, g) => if s.streamFree g.engine then s else s.wb (.clStatus (engineOf g.engine)) 0 true
      | none => s
    else if opc = 0x08 && !s.meRoom c.ctx && (key.1 || !hdrFence (ws.getD 0 0) || decide (c.oldest = c.next)) then
      let st := stallOf (s.ctxStall c.ctx)
      let s := s.wb (.mtStatus st) 1 true
      if c.waited = some key then s
      else (s.bump (.mtCount st) 31 16 1).modCq q (fun c => { c with waited := some key })
    else s

/-- A queue that has taken a header which fails R176 enters ERROR. -/
def State.checkHeaders (s : State) (q : Nat) : State :=
  match tFind s.cqs q with
  | none => s
  | some c =>
    if c.state = 4 || c.dying then s
    else match c.badHeader (c.fetch) (c.gran.length + 1) c.next with
      | some (cause, n) => s.queueError q cause (c.slot n)
      | none => s

/-- A command at the head of an ACTIVE queue that waits for room is noted. -/
def State.checkHead (s : State) (q : Nat) : State :=
  match tFind s.cqs q with
  | none => s
  | some c => if c.state = 1 && !c.dying then s.noteWait q c else s

/-- The queues that a stall serves, in ascending index. -/
def State.stallQueues (s : State) (n : Nat) : List Nat := (s.cqs.filter (fun e => e.2.stall = n)).map (fun e => e.1)

/-- One scan of a round over the queues that have credit (R198). -/
def State.scan (s : State) : List Nat → State × Nat
  | [] => (s, 0)
  | q :: qs =>
    match tFind s.cqs q with
    | none => s.scan qs
    | some c =>
      if c.joined && decide (0 < c.credit) && s.ready c then
        let r := s.startUpTo (min c.burst c.credit) q
        let s := r.1.modCq q (fun c => { c with credit := c.credit - r.2 })
        let s := s.checkHead q
        let t := s.scan qs
        (t.1, t.2 + r.2)
      else
        (s.modCq q (fun c => if c.joined && !s.ready c then { c with credit := 0 } else c)).scan qs

/-- The scans of one round, until no ready queue has credit. -/
def State.scans : Nat → State → List Nat → State
  | 0, s, _ => s
  | n + 1, s, qs =>
    let r := s.scan qs
    if r.2 = 0 then r.1 else State.scans n r.1 qs

/-- A command that a Groom has issued starts, once it finds what it needs (R237, R263, R343). -/
def State.startIssuedOne (s : State) (id : Nat) : State :=
  match tFind s.ops id with
  | none => s
  | some o =>
    if !s.ctxRoom o.ctx o.words then s
    else
      let o := { o with performed := false, aux := 0, started := s.serial }
      let s := { s with ops := tPut id o s.ops, serial := s.serial + 1 }
      if lenOk (hdrOp (o.words.getD 0 0)) (hdrLen (o.words.getD 0 0)) && maskOk o.words then s else s.done id 1

/-- Commands that Grooms have issued start ahead of every queue entry, in the order in which they were issued (R343). -/
def State.startIssued (s : State) (n : Nat) : State :=
  let due (o : Op) : Bool := decide (o.aux = 2 ∧ o.stall = n) && (match o.src with | .groom _ _ => true | _ => false)
  (s.ops.filter (fun e => due e.2)).foldl (fun t e => t.startIssuedOne e.1) s

/-- One round of a stall's arbitration (R198). -/
def doArbitrationRound (n : Stall) (s : State) : State :=
  if s.frozen (.stall n) || s.tack.stopping then s
  else
    let s := s.startIssued n.val
    let qs := s.stallQueues n.val
    let s := qs.foldl (fun t q => t.checkHead q) s
    let s := qs.foldl (fun t q =>
      match tFind t.cqs q with
      | some c => t.modCq q (fun c' => { c' with joined := s.ready c, credit := if s.ready c then c.weight else 0 })
      | none => t) s
    State.scans ((qs.map (fun q => match tFind s.cqs q with | some c => c.weight | none => 0)).sum + 1) s qs

/-! ### Doorbells and ring reads -/

/-- The count of a slot in the range from `lo` up to `hi` (R178). -/
def countOfSlot (k slot lo hi : Nat) : Option Nat :=
  let n := lo + (slot + 2 ^ k - lo % 2 ^ k) % 2 ^ k
  if n < hi then some n else none

/-- A doorbell for a queue (R178): `pi` as carried, the slot of the first granule, the granules,
and the function that sent it. A queue that a CQ_DESTROY is waiting on discards it, as a DISABLED one does (DESIGN CHOICE:
R178 does not name it; log entry 180). -/
def State.doorbell (s : State) (q pi slot fn : Nat) (grans : List (BitVec 512)) : State :=
  match tFind s.cqs q with
  | none => s.bump (.cqCount 0) 63 32 1
  | some c =>
    let m := 2 ^ (c.k + 1)
    if c.state = 4 ∨ c.dying = true then s.bump (.cqCount (domOf (s.cqDom c))) 63 32 1
    else
      let a := (pi + m - c.pi % m) % m
      if m ≤ pi ∨ 2 ^ c.k - (c.pi - c.oldest) < a then s.queueError q 0x20 (c.slot c.pi)
      else if a = 0 then s
      else
        let hi := c.pi + a
        let kept := (List.range grans.length).foldl (fun g i =>
          match countOfSlot c.k ((slot + i) % 2 ^ c.k) c.pi hi with
          | some n => tPut n (grans.getD i 0) g
          | none => g) c.gran
        let fns := if c.admin then (List.range a).foldl (fun t i => tPut (c.pi + i) fn t) c.fns else c.fns
        let held := (List.range grans.length).filterMap (fun i => countOfSlot c.k ((slot + i) % 2 ^ c.k) c.pi hi)
        (s.modCq q (fun c => { c with pi := hi, gran := kept, bell := (c.bell ++ held).dedup, fns := fns })).checkHeaders q

/-- How many counts from `n` on are neither held nor beyond `hi`, at most `max` and not past the
end of the ring. -/
def Cq.gap (c : Cq) : Nat → Nat → Nat
  | 0, _ => 0
  | max + 1, n => if n < c.pi ∧ (tFind c.gran n).isNone then (if c.slot (n + 1) = 0 then 1 else 1 + Cq.gap c max (n + 1)) else 0

/-- A ring read: the next granules that no doorbell brought, at most 16 of them in one read, within one
4 KiB page (R147), and at most 4 reads outstanding (R179). A queue that is neither ACTIVE nor HELD reads nothing (DESIGN CHOICE: R179 names no
state; log entry 180). -/
def doRingFetch (q : BitVec 20) (s : State) : State :=
  match tFind s.cqs q.toNat with
  | none => s
  | some c =>
    if (c.state ≠ 1 ∧ c.state ≠ 2) ∨ c.dying = true ∨ 4 ≤ c.readsOut ∨ s.hlLost c.link = true then s
    else
      let n0 := c.firstGap (2 ^ c.k) (max c.asked c.next)
      let n := min (c.gap 16 n0) ((4096 - c.slotAddr n0 % 4096) / 64)
      if n = 0 then s
      else
        let fn := if c.admin then 31 else c.fn
        let ctx := if c.admin then none else some c.ctx
        (s.modCq q.toNat (fun c => { c with asked := n0 + n, readsOut := c.readsOut + 1 })).sendReq c.link
          (.rd ⟨c.slotAddr n0, 64 * n, ctx, fn, .ring q.toNat c.id n0⟩)

/-- A queue changed by what one of its own ring reads has brought: another that has its index is left alone. -/
def State.ringEnds (s : State) (q id : Nat) (f : Cq → Cq) : State :=
  s.modCq q (fun c => if c.id = id then f { c with readsOut := c.readsOut - 1 } else c)

/-- The granules of a ring read arrive (R179): those held from a doorbell meanwhile are kept. -/
def State.ringData (s : State) (q id n : Nat) (bs : List Byte) : State :=
  let fill (c : Cq) : Cq :=
    { c with gran := (List.range (bs.length / 64)).foldl (fun g i =>
        if c.next ≤ n + i ∧ (tFind g (n + i)).isNone then tPut (n + i) (granOf (bs.drop (64 * i))) g else g) c.gran }
  (s.ringEnds q id fill).checkHeaders q

/-- A ring read that the loss of its link has ended is made again after link-up (R203). -/
def State.ringUnask (s : State) (q id n : Nat) : State := s.ringEnds q id (fun c => { c with asked := min c.asked n })

/-- A ring read fails: the queue enters ERROR with RING_READ_ERROR (R179). -/
def State.ringFailed (s : State) (q id n : Nat) : State :=
  match tFind s.cqs q with
  | none => s
  | some c => if c.id = id then (s.ringEnds q id (fun c => c)).queueError q 0x22 (c.slot n) else s

end Sys2Proof.Machine
end

