-- ==== Sys2Proof/Machine/Translate.lean ====
section
/-! DEFINITION. Address translation (chapter 08): transfers and their uses (R224), lookups in a
stall's cache, table walks (R211 to R218), faults and traps (R219 to R222), and invalidation
(R226 to R228). -/

namespace Sys2Proof.Machine

/-- A use changed. -/
def State.modUse (s : State) (u : Nat) (f : Use → Use) : State :=
  match tFind s.uses u with
  | some x => { s with uses := tPut u (f x) s.uses }
  | none => s

/-- A transfer changed. -/
def State.modXfer (s : State) (x : Nat) (f : Xfer → Xfer) : State :=
  match tFind s.xfers x with
  | some y => { s with xfers := tPut x (f y) s.xfers }
  | none => s

/-- Work left for the end of the command. -/
def State.push (s : State) (t : Task) : State := { s with todo := s.todo ++ [t] }

/-! ### Transfers -/

/-- What a context's accesses are translated by and carry now. -/
def State.xlCtx (s : State) (c : Nat) : XlCtx :=
  { w5 := s.ctxWord c 5, w6 := s.ctxWord c 6, w7 := s.ctxWord c 7, link := s.ctxLink c, fn := s.ctxFn c,
    stash := fld (s.ctxWord c 2) 34 23, dom := s.ctxDom c }

/-- A transfer started: one use for each 4 KiB page it touches (R224), each to be looked up. The
uses of a transfer of no bytes are none, and it is done at once. -/
def State.startXfer (s : State) (x : Xfer) : State :=
  let id := s.serial
  let ps := pageSplit (x.len / 4096 + 2) x.va x.len
  let s := { s with xfers := tPut id { x with left := ps.length } s.xfers, serial := s.serial + 1 }
  if ps = [] then s.push (.xferDone id)
  else
    ps.foldl (fun t p =>
      let u := t.serial
      let y : Use := { xfer := id, stall := x.stall, ctx := x.ctx, cx := t.xlCtx x.ctx, va := x.va + p.1, len := p.2, off := p.1,
                       access := x.access, fresh := false, waiting := false, trapped := false, held := false,
                       phys := none, ipa := 0, log2 := 12, marks := [] }
      { t with uses := tPut u y t.uses, serial := t.serial + 1 }.push (.lookup u)) s

/-- A new transfer with the usual fields. -/
def mkXfer (stall ctx access source : Nat) (relaxed only : Bool) (p : Purpose) (va len : Nat) (data : List Byte) : Xfer :=
  { stall := stall, ctx := ctx, access := access, source := source, relaxed := relaxed, only := only,
    purpose := p, va := va, len := len, data := data, got := [], phys := none, use := none, left := 0, status := 0,
    detail := 0, addr := 0 }

/-- The bytes that a read transfer has brought, in order. -/
def Xfer.bytes (x : Xfer) : List Byte := x.got.flatMap (fun e => e.2)

/-- A part of a transfer has ended, with the bytes it read, or with the status of its failure; the transfer is done
when its last part has. -/
def State.xferPart (s : State) (y : Use) (status detail : Nat) (bs : List Byte) : State :=
  match tFind s.xfers y.xfer with
  | none => s
  | some x =>
    let x := { x with left := x.left - 1, got := if bs = [] then x.got else tPut y.off bs x.got }
    let x := if x.phys.isNone then { x with phys := y.phys } else x
    let x := if status ≠ 0 ∧ x.status = 0 then { x with status := status, detail := detail, addr := y.va } else x
    let s := { s with xfers := tPut y.xfer x s.xfers }
    if x.left = 0 then s.push (.xferDone y.xfer) else s

/-- A use finishes (R227). -/
def State.finishUse (s : State) (u status detail : Nat) (bs : List Byte) : State :=
  match tFind s.uses u with
  | none => s
  | some y => { s with uses := tDel u s.uses }.xferPart y status detail bs

/-- A use whose access its unit makes itself: the unit is told the place, and the use lasts until the access has been
performed or discarded (R227). -/
def State.holdUse (s : State) (u : Nat) : State :=
  match tFind s.uses u with
  | none => s
  | some y =>
    ((s.modUse u (fun y => { y with held := true })).modXfer y.xfer (fun x => { x with use := some u })).xferPart y 0 0 []

/-- A use that a unit holds finishes. -/
def State.endHeld (s : State) (u : Option Nat) : State :=
  match u with
  | some u => { s with uses := tDel u s.uses }
  | none => s

/-- Whether the function that owns a context was reset: nothing is built for it any more (R166). -/
def State.ctxDead (s : State) (c : Nat) : Bool :=
  match s.ctx? c with
  | some x => x.dead
  | none => false

/-- The command for which a transfer is made: a RECV_POST's, where data lands in its buffer from the unexpected blocks or
by a rendezvous read (R220, R222). -/
def State.xferOp (s : State) : Purpose → Option Nat
  | .cmdSrc _ op => some op
  | .atomRes op => some op
  | .collSrc op _ => some op
  | .collDst op _ => some op
  | .getDst _ _ _ (some op) _ => some op
  | .getDst _ _ _ none (some me) => (tFind s.mes me).map (fun m => m.op)
  | .uxCopy me => (tFind s.mes me).map (fun m => m.op)
  | _ => none

/-! ### Faults -/

/-- The detail byte of R219. -/
def xlDetail (kind : Nat) (table stage2 : Bool) (level : Nat) : Nat :=
  16 * kind + 8 * b2n table + 4 * b2n stage2 + level

/-- Queue, slot and user_tag fields of a translation event (R220). -/
def State.xlFields (s : State) (x : Xfer) (status detail va : Nat) : List (Nat × Nat × Nat × Nat) :=
  let base := [(2, 15, 8, detail), (2, 23, 16, status), (6, 63, 0, va)]
  match s.xferOp x.purpose with
  | none => base
  | some id => match tFind s.ops id with
    | none => base
    | some o => match tFind s.cqs o.queue with
      | none => base
      | some c => [(2, 63, 44, o.queue), (2, 43, 24, (match o.src with | .fired => o.count | _ => c.slot o.count)),
                   (3, 31, 0, fld (o.words.getD 0 0) 31 0)] ++ base

/-- The first fault or trap kept in XL_FAULT, later ones noted in `more` (R229). -/
def State.recordXl (s : State) (x : Xfer) (detail va : Nat) : State :=
  let r := Reg.xlFault (stallOf x.stall)
  if s.rb r 63 then s.wb r 62 true
  else (s.setReg r (mkWord 64 [(63, 63, 1), (62, 62, b2n (s.rb r 62)), (61, 54, detail), (53, 32, x.ctx),
          (31, 28, x.source), (27, 26, x.access)])).setReg (.xlFaultAddr (stallOf x.stall)) (BitVec.ofNat 64 va)

/-- The event of a fault (0x0401) or of a trap (0x0202) (R220): for arriving packets at most one
per context and page in any 100 µs. -/
def State.postXl (s : State) (x : Xfer) (code status detail va s1lev ipa : Nat) : State :=
  let fs := s.xlFields x status detail va ++
    [(3, 47, 46, s1lev), (3, 45, 44, x.access), (3, 43, 40, x.source), (7, 63, 0, ipa)]
  if x.source = 1 then
    match s.ctx? x.ctx with
    | none => s
    | some c =>
      if (tFind c.xlEvents (va / 4096)).all (fun t => decide (t + us 100 ≤ s.clk)) then
        (s.modCtx x.ctx (fun c => { c with xlEvents := tPut (va / 4096) s.clk c.xlEvents })).postCtx x.ctx code fs
      else s
  else s.postCtx x.ctx code fs

/-- A use faults (R218, R220): recorded, posted, and finished with TRANSLATION_FAULT; where a walk read timed out, with
HOST_READ_TIMEOUT, and where its link was lost, with LINK_LOST (R216). An arriving packet's is refused with TRANSLATION
in either of the first two cases (R272, R274); a Groom's keeps the detail in both (R346). -/
def State.xlFault (s : State) (u kind : Nat) (table stage2 : Bool) (level s1lev ipa status : Nat) : State :=
  match tFind s.uses u with
  | none => s
  | some y => match tFind s.xfers y.xfer with
    | none => s
    | some x =>
      let d := xlDetail kind table stage2 level
      if status = 9 then s.finishUse u 9 0 [] else
      let s := (s.recordXl x d y.va).postXl x 0x0401 status d y.va (if table then s1lev else 0) ipa
      let st := if x.source = 1 then 6 else status
      s.finishUse u st (if st = 6 || x.source = 2 then d else 0) []

/-- A use needs a bit that its leaf lacks (R190, R221, R222): a command's use waits, with its queue HELD, and no
INVALIDATE waits for it; a queue in ERROR cannot be HELD, and the use ends as by ABORT (log entry 164). Any other use is
refused with the detail of the trap. -/
def State.xlTrap (s : State) (u : Nat) (dirty table stage2 : Bool) (level s1lev ipa : Nat) : State :=
  match tFind s.uses u with
  | none => s
  | some y => match tFind s.xfers y.xfer with
    | none => s
    | some x =>
      let d := xlDetail (if dirty then 0xB else 0xA) table stage2 level
      let s := (s.recordXl x d y.va).postXl x 0x0202 0 d y.va (if table then s1lev else 0) ipa
      match s.xferOp x.purpose with
      | none => s.finishUse u 6 d []
      | some id => match tFind s.ops id with
        | none => s.finishUse u 6 d []
        | some o => match o.src with
          | .groom _ _ => s.finishUse u 6 d []
          | _ =>
            match tFind s.cqs o.queue with
            | none => s.finishUse u 0x0F 0 []
            | some c =>
              if c.state = 4 then s.finishUse u 0x0F 0 []
              else
                (s.modUse u (fun y => { y with trapped := true, fresh := true, phys := none, marks := [] })).modCq o.queue
                  (fun c => { c with state := 2 })

/-! ### The tables (R211, R212) -/

/-- Index bits of level `l` (R211). -/
def xlIndex (a l : Nat) : Nat := (a / 2 ^ (39 - 9 * l)) % 512

/-- log2 of a leaf's size (R211). -/
def leafLog2 (e : Word) (l : Nat) : Nat := if l = 3 then (if bit e 7 then 16 else 12) else 39 - 9 * l

/-- Bits [51:12] of an entry as an address. -/
def entAddr (e : Word) : Nat := fld e 51 12 * 4096

/-- First output address of a leaf: for a 64 KiB group, of the group (R213). -/
def leafBase (e : Word) (l a : Nat) : Nat :=
  if l = 3 ∧ bit e 7 then entAddr e - 4096 * (xlIndex a 3 % 16) else entAddr e

/-- The checks of RESERVED_FIELD (R218). -/
def entBad (e : Word) (l a : Nat) : Bool :=
  decide (fld e 63 52 ≠ 0 ∨ fld e 11 8 ≠ 0) ||
  (if bit e 1 then
    decide (l = 0) || (bit e 7 && decide (l ≠ 3)) ||
      decide ((leafBase e l a) % 2 ^ (leafLog2 e l) ≠ 0) ||
      (decide (l = 3) && bit e 7 && decide (entAddr e < 4096 * (xlIndex a 3 % 16)))
   else decide (l = 3) || decide (fld e 7 3 ≠ 0))

/-- Output address of a leaf for an input (R211). -/
def leafOut (e : Word) (l a : Nat) : Nat := leafBase e l a + a % 2 ^ (leafLog2 e l)

/-- Whether a leaf allows an access (R218): an atomic needs both. -/
def permOk (rd wr : Bool) (access : Nat) : Bool :=
  match access with
  | 0 => rd
  | 1 => wr
  | _ => rd && wr

/-! ### Walks -/

/-- A walk changed. -/
def State.modWalk (s : State) (w : Nat) (f : Walk → Walk) : State :=
  match tFind s.walks w with
  | some x => { s with walks := tPut w (f x) s.walks }
  | none => s

/-- A walk ends: the lookups that waited for one of the stall's walks are tried again (R217). -/
def State.dropWalk (s : State) (w : Nat) : State :=
  match tFind s.walks w with
  | none => s
  | some x =>
    let s := { s with walks := tDel w s.walks }
    (s.uses.filter (fun e => e.2.stall = x.stall ∧ e.2.waiting = true)).foldl
      (fun t e => (t.modUse e.1 (fun y => { y with waiting := false })).push (.lookup e.1)) s

/-- A use that a cached entry did not satisfy is looked up again, without the cache (R221, R228). -/
def State.afresh (s : State) (u : Nat) : State :=
  (s.modUse u (fun y => { y with fresh := true, phys := none })).push (.lookup u)

/-- A fault that does not depend on the access: every user of the walk takes it (R217), or walks again where a cached
entry has led there. -/
def State.walkFault (s : State) (w kind status : Nat) : State :=
  match tFind s.walks w with
  | none => s
  | some x =>
    let ipa := if x.stage2 then x.input else 0
    (x.users.foldl (fun t y =>
      if x.used && status = 6 then t.afresh y.use
      else t.xlFault y.use kind x.table x.stage2 x.level x.s1lev ipa status) s).dropWalk w

/-- The context on whose behalf a walk reads, and its function: those of its first user whose function has not been reset
(R166). -/
def State.walkCtx (s : State) (x : Walk) : Option (Nat × Nat) :=
  ((x.users.filterMap (fun y => tFind s.uses y.use)).find? (fun u => !s.ctxDead u.ctx)).map (fun u => (u.ctx, u.cx.fn))

/-- The users of a walk that arriving packets are, finished while the link of the walk's tables is not UP (R286). -/
def State.packetsDown (s : State) (w : Nat) : State :=
  match tFind s.walks w with
  | none => s
  | some x =>
    let down (y : WalkUser) : Bool := match tFind s.uses y.use with
      | some u => (match tFind s.xfers u.xfer with | some k => k.source = 1 | none => false)
      | none => false
    let s := s.modWalk w (fun x => { x with users := x.users.filter (fun y => !down y) })
    (x.users.filter down).foldl (fun t y => t.finishUse y.use 9 0 []) s

/-- The walk turns to the entry at `ptr`: a read outside the mirror share faults and is not issued; a read from host memory
is an MRD on the context's link, which faults instead where it would be built in a DEVICE region (R157, R215). -/
def State.walkSeek (s : State) (w : Nat) (ptr : Phys) : State :=
  match tFind s.walks w with
  | none => s
  | some x =>
    let s := s.modWalk w (fun x => { x with ptr := ptr, entry := none, failed := 0 })
    match ptr with
    | .hbm a => if s.inShare x.cx.dom 6 a 8 then s else s.walkFault w 7 6
    | .host h a =>
      if s.hlLost h then s.walkFault w 6 9
      else match s.walkCtx x with
        | none => s.walkFault w 6 9
        | some (c, fn) => (if s.hlUp h then s else s.packetsDown w).sendReq h (.rd ⟨a, 8, some c, fn, .walk w⟩)

/-! ### The cache (R223) -/

/-- An entry put into a stall's cache, which drops the entry put in earliest where it is full. -/
def State.keepEntry (s : State) (stall : Nat) (e : XlEntry) : State :=
  let same (o : XlEntry) : Bool :=
    decide (o.kind = e.kind ∧ o.vmid = e.vmid ∧ o.asid = e.asid ∧ o.level = e.level ∧ o.va = e.va ∧ o.log2 = e.log2)
  { s with xl := tSet [] stall (e :: ((tGet [] s.xl stall).filter (fun o => !same o)).take 32767) s.xl }

/-- A level-3 entry of a 64 KiB group moved by a number of places in it (R213). -/
def groupMove (e : Word) (l : Nat) (by_ : Int) : Word :=
  if l = 3 ∧ bit e 1 ∧ bit e 7 then setFld e 51 12 ((fld e 51 12 : Nat) + by_).toNat else e

/-- log2 of what an entry of a level covers (R211). -/
def entLog2 (e : Word) (l : Nat) : Nat := if bit e 1 then leafLog2 e l else 39 - 9 * l

/-- A table entry that a walk has met is cached, unless the walk is marked (R223, R227). -/
def State.walkKeep (s : State) (w : Nat) (e : Word) : State :=
  match tFind s.walks w with
  | none => s
  | some x =>
    if x.marks ≠ [] || x.stale then s
    else
      let k := entLog2 e x.level
      let kind := if x.stage2 then 2 else 1
      let asid := if x.stage2 then 0 else x.cx.asid
      let e0 := groupMove e x.level (-(xlIndex x.input 3 % 16 : Nat))
      s.keepEntry x.stall
        { kind := kind, vmid := x.cx.vmid, asid := asid, level := x.level, va := x.input - x.input % 2 ^ k, log2 := k, e := e0,
          ipa := 0, out := 0, hbm := false, rd := false, wr := false, acc := false, dirty := false }

/-- The cached table entry for the stage, level and input at which a walk stands. -/
def State.walkCached (s : State) (x : Walk) : Option Word :=
  if !x.cache || x.stale then none
  else
    let k := if x.stage2 then 2 else 1
    let asid := if x.stage2 then 0 else x.cx.asid
    ((tGet [] s.xl x.stall).find? (fun e => decide (e.kind = k ∧ e.vmid = x.cx.vmid ∧ e.asid = asid ∧ e.level = x.level ∧
      e.va ≤ x.input ∧ x.input < e.va + 2 ^ e.log2))).map (fun e => groupMove e.e x.level (xlIndex x.input 3 % 16 : Nat))

/-- A walk turns to its next entry: a cached one serves it within the same command, or `k` reads it. -/
def State.walkTurn (s : State) (w : Nat) (k : State → State) : State :=
  match tFind s.walks w with
  | none => s
  | some x => match s.walkCached x with
    | some e => (s.modWalk w (fun x => { x with entry := some e, failed := 0, used := true })).push (.walk w)
    | none => k s

/-! ### Stages -/

/-- The physical place of a table entry. -/
def XlCtx.place (c : XlCtx) (inHbm : Bool) (a : Nat) : Phys := if inHbm then .hbm a else .host c.link a

/-- Stage 2 begins, for an input address; `table` where the input is a stage-1 table pointer. -/
def State.walkStage2 (s : State) (w : Nat) (table : Bool) (input : Nat) : State :=
  match tFind s.walks w with
  | none => s
  | some x =>
    let r := x.cx.w6
    let s := s.modWalk w (fun x => { x with stage2 := true, table := table, level := 0, input := input })
    if 2 ^ 48 ≤ input then s.walkFault w 3 6
    else s.walkTurn w (fun s => s.walkSeek w (x.cx.place (bit r 1) (fld r 63 12 * 4096 + 8 * xlIndex input 0)))

/-- Stage 1 turns to the entry of level `l` in the table at `base` (R214). -/
def State.walkStage1 (s : State) (w l base : Nat) (inHbm : Bool) : State :=
  match tFind s.walks w with
  | none => s
  | some x =>
    let p := base + 8 * xlIndex x.va l
    let s := s.modWalk w (fun x => { x with stage2 := false, table := false, level := l, s1lev := l, input := x.va })
    s.walkTurn w (fun s =>
      if !inHbm && bit x.cx.w6 0 then s.walkStage2 w true p
      else s.walkSeek w (x.cx.place inHbm p))

/-- What a leaf holds against a user's own access: 0 nothing, 8 OUTPUT_RANGE, 2 PERMISSION, 0xA accessed and 0xB dirty
wanted (R217, R218, R221). -/
def State.leafAnswer (s : State) (x : Walk) (e : Word) (y : WalkUser) : Nat :=
  let c := match tFind s.uses y.use with | some u => u.cx | none => x.cx
  let out := leafOut e x.level x.input
  let ad := bit c.w7 0
  if bit e 2 && !s.inShare c.dom 10 (out - out % 4096) 4096 then 8
  else if !permOk (bit e 3) (bit e 4) y.access then 2
  else if ad && !bit e 5 then 0xA
  else if ad && y.access ≠ 0 && !bit e 6 then 0xB
  else 0

/-- A user is told of a leaf's answer; where a cached entry has led to it, it walks again instead (R221). -/
def State.leafTell (s : State) (x : Walk) (y : WalkUser) (k : Nat) : State :=
  let ipa := if x.stage2 then x.input else 0
  if k = 0 then s
  else if x.used then s.afresh y.use
  else if k = 0xA ∨ k = 0xB then s.xlTrap y.use (k = 0xB) x.table x.stage2 x.level x.s1lev ipa
  else s.xlFault y.use k x.table x.stage2 x.level x.s1lev ipa 6

/-- The users whose own access a leaf does not serve are told; the others stay (R217, R221). -/
def State.leafUsers (s : State) (w : Nat) (e : Word) : State :=
  match tFind s.walks w with
  | none => s
  | some x =>
    let s1 := s.modWalk w (fun x => { x with users := x.users.filter (fun y => s.leafAnswer x e y = 0) })
    x.users.foldl (fun t y => t.leafTell x y (s.leafAnswer x e y)) s1

/-- A walk ends with a result: cached unless it is marked (R227), and used by each of its users, on the host link of
the user's own context (R207). -/
def State.walkEnds (s : State) (w : Nat) (out : Nat) (hbm : Bool) (log2 : Nat) (rd wr acc dirty : Bool) : State :=
  match tFind s.walks w with
  | none => s
  | some x =>
    let m := 2 ^ log2
    let e : XlEntry := { kind := 0, vmid := x.cx.vmid, asid := x.cx.asid, level := 0, va := x.va - x.va % m, log2 := log2, e := 0,
                         ipa := x.ipa - x.ipa % m, out := out - out % m, hbm := hbm, rd := rd, wr := wr, acc := acc, dirty := dirty }
    let s := if x.marks = [] && !x.stale then s.keepEntry x.stall e else s
    let s := x.users.foldl (fun t y =>
      match tFind t.uses y.use with
      | none => t
      | some u =>
        let a := out - out % 4096 + u.va % 4096
        (t.modUse y.use (fun u => { u with
          phys := some (if hbm then .hbm a else .host u.cx.link a), ipa := x.ipa, log2 := log2,
          marks := (u.marks ++ x.marks).dedup })).push (.access y.use)) s
    s.dropWalk w

/-- A walk without users ends. -/
def State.walkIfUsed (s : State) (w : Nat) (k : State → State) : State :=
  match tFind s.walks w with
  | none => s
  | some x => if x.users = [] then s.dropWalk w else k s

/-- An entry has been read, and the walk goes on, ends or faults (R214). -/
def State.walkEntry (s : State) (w : Nat) (e : Word) : State :=
  match tFind s.walks w with
  | none => s
  | some x =>
    if !bit e 0 then s.walkFault w 1 6
    else if entBad e x.level x.input then s.walkFault w 4 6
    else
      let s := s.walkKeep w e
      if !bit e 1 then
        if x.stage2 then
          let l := x.level + 1
          (s.modWalk w (fun x => { x with level := l })).walkTurn w (fun s => s.walkSeek w
            (x.cx.place (bit e 2) (entAddr e + 8 * xlIndex x.input l)))
        else s.walkStage1 w (x.level + 1) (entAddr e) (bit e 2)
      else
        let out := leafOut e x.level x.input
        let log2 := leafLog2 e x.level
        if x.table then
          -- the stage-2 translation of a table pointer needs read, and accessed under ad_enforce
          if !bit e 3 then s.walkFault w 2 6
          else if bit x.cx.w7 0 && !bit e 5 then
            (x.users.foldl (fun t y => t.leafTell x y 0xA) s).dropWalk w
          else
            (s.modWalk w (fun x => { x with stage2 := false, table := false, level := x.s1lev, input := x.va })).walkSeek w
              (x.cx.place (bit e 2) out)
        else
          (s.leafUsers w e).walkIfUsed w (fun s =>
            if x.stage2 then
              let m := min log2 x.size1
              let r := match x.leaf1 with
                | some f => (bit f 3 && bit e 3, bit f 4 && bit e 4, bit f 5 && bit e 5, bit f 6 && bit e 6)
                | none => (bit e 3, bit e 4, bit e 5, bit e 6)
              s.walkEnds w out (bit e 2) m r.1 r.2.1 r.2.2.1 r.2.2.2
            else if !bit e 2 && bit x.cx.w6 0 then
              (s.modWalk w (fun x => { x with leaf1 := some e, size1 := log2, ipa := out })).walkStage2 w false out
            else
              (s.modWalk w (fun x => { x with ipa := out })).walkEnds w out (bit e 2) log2
                (bit e 3) (bit e 4) (bit e 5) (bit e 6))

/-- A walk that a cached entry serves goes on. -/
def State.walkGoesOn (s : State) (w : Nat) : State :=
  match tFind s.walks w with
  | none => s
  | some x => match x.entry with
    | some e => s.walkEntry w e
    | none => s

/-- A host read that a walk has outstanding is of no use: the walk reads again on behalf of another user, or fails as
with a lost link (R166). -/
def State.walkAgain (s : State) (w : Nat) : State :=
  match tFind s.walks w with
  | none => s
  | some x => s.walkSeek w x.ptr

/-- A table-walk read returns its entry (R214, R216): from HBM at once, or as a host read brought
it. Before a host read has returned, nothing happens. -/
def State.walkRead (s : State) (w : Nat) : State :=
  match tFind s.walks w with
  | none => s
  | some x =>
    match x.ptr with
    | .hbm a => (s.cacheUse x.stall a 8 false).walkEntry w (s.hbmWord a)
    | .host _ _ =>
      if x.failed ≠ 0 then s.walkFault w 6 x.failed
      else match x.entry with
        | some e => s.walkEntry w e
        | none => s

/-! ### Lookups -/

/-- Whether a cached translation serves a lookup (R221, R223). -/
def XlEntry.serves (e : XlEntry) (vmid asid va access : Nat) (ad : Bool) : Bool :=
  decide (e.kind = 0 ∧ e.vmid = vmid ∧ e.asid = asid ∧ e.va ≤ va ∧ va < e.va + 2 ^ e.log2) &&
    permOk e.rd e.wr access && (!ad || (e.acc && (access = 0 || e.dirty)))

/-- A walk begun for a use, or the use waits while all 64 walks of its stall are in use (R214, R217). -/
def State.newWalk (s : State) (u : Nat) (y : Use) : State :=
  if 64 ≤ (s.walks.filter (fun e => e.2.stall = y.stall)).length then s.modUse u (fun y => { y with waiting := true })
  else
    let w := s.serial
    let x : Walk := { stall := y.stall, cx := y.cx, va := y.va, users := [⟨u, y.access⟩], stage2 := false,
                      table := false, level := 0, s1lev := 0, input := y.va, ptr := .hbm 0,
                      leaf1 := none, size1 := 48, ipa := y.va, entry := none, failed := 0,
                      cache := !y.fresh, used := false, stale := false, marks := [] }
    let s := { s with walks := tPut w x s.walks, serial := s.serial + 1 }
    if bit y.cx.w5 0 then s.walkStage1 w 0 (fld y.cx.w5 63 12 * 4096) (bit y.cx.w5 1)
    else s.walkStage2 w false y.va

/-- Whether a lookup may share a walk of its page (R217): one that must not be served by the cache shares only a walk that
is not (R222), and none shares a walk that an INVALIDATE has marked (R227). -/
def Use.joins (y : Use) (w : Walk) : Bool :=
  decide (w.stall = y.stall ∧ w.va / 4096 = y.va / 4096 ∧ w.cx.vmid = y.cx.vmid ∧ w.cx.asid = y.cx.asid ∧ w.marks = []) &&
    !w.stale && (!y.fresh || !w.cache)

/-- A lookup joins a walk. Past its stage-1 leaf, the walk has that leaf's answer for the access too; where the leaf lacks a
bit, the lookup walks by itself, to see whether the entry still lacks it (R221). -/
def State.joinWalk (s : State) (u : Nat) (y : Use) (w : Nat) (x : Walk) : State :=
  let at1 := { x with stage2 := false, table := false, level := x.s1lev, input := x.va }
  match (match x.leaf1 with | some f => s.leafAnswer at1 f ⟨u, y.access⟩ | none => 0) with
  | 0 => s.modWalk w (fun x => { x with users := x.users ++ [⟨u, y.access⟩] })
  | 0xA => s.newWalk u { y with fresh := true }
  | 0xB => s.newWalk u { y with fresh := true }
  | k => s.leafTell at1 ⟨u, y.access⟩ k

/-- A lookup (R214, R217, R223): served by the cache, or it joins the walk of its page, or starts
one, or waits while all 64 walks are in use. -/
def State.lookup (s : State) (u : Nat) : State :=
  match tFind s.uses u with
  | none => s
  | some y =>
    if (s.ctx? y.ctx).isNone then s.finishUse u 6 0 []
    else if 2 ^ 48 ≤ y.va then s.xlFault u 3 false false 0 0 0 6
    else if !bit y.cx.w5 0 && !bit y.cx.w6 0 then
      (s.modUse u (fun y => { y with phys := some (.host y.cx.link y.va) })).push (.access u)
    else
      let hit := if y.fresh then none
                 else (tGet [] s.xl y.stall).find? (fun e => e.serves y.cx.vmid y.cx.asid y.va y.access (bit y.cx.w7 0) &&
                   (!e.hbm || s.inShare y.cx.dom 10 ((e.out + (y.va - e.va)) / 4096 * 4096) 4096))
      match hit with
      | some e =>
        let a := e.out + (y.va - e.va)
        (s.modUse u (fun y => { y with phys := some (y.cx.place e.hbm a), ipa := e.ipa + (y.va - e.va), log2 := e.log2 })).push (.access u)
      | none =>
        let s := s.pm (.stall (stallOf y.stall)) 0x26 y.ctx 1
        match s.walks.find? (fun e => y.joins e.2) with
        | some e => s.joinWalk u y e.1 e.2
        | none => s.newWalk u y

/-- The accesses made under a use's result: in HBM at once, uncached for a reduction engine and through the stall's context
cache for the others (R351); in host memory by an MRD or an MWR on the context's link,
which must not be lost, and for an arriving packet be UP (R286), and whose function must not have been reset (R166).
Each is one transaction within its 4 KiB page, and exactly the bytes wanted are read: the device makes no use of what
R151 and R155 leave to it (log entry 161). -/
def State.access (s : State) (u : Nat) : State :=
  match tFind s.uses u with
  | none => s
  | some y => match tFind s.xfers y.xfer, y.phys with
    | some x, some (.hbm a) =>
      if x.only then s.holdUse u
      else if x.access = 0 then
        (match x.purpose with
          | .collSrc _ _ => s.uncachedRead a y.len
          | _ => s.cacheUse y.stall a y.len false).finishUse u 0 0 (s.hbmRead a y.len)
      else
        let bs := (x.data.drop y.off).take y.len
        (match x.purpose with
          | .collDst _ _ => s.uncachedWrite a bs
          | _ => s.cacheWrite y.stall a bs).finishUse u 0 0 []
    | some x, some (.host h a) =>
      if s.hlLost h || s.ctxDead y.ctx || (x.source = 1 && !s.hlUp h) then s.finishUse u 9 0 []
      else if x.only then s.holdUse u
      else if x.access = 0 then s.sendReq h (.rd ⟨a, y.len, some y.ctx, y.cx.fn, .use u⟩)
      else s.sendReq h (.wr ⟨a, (x.data.drop y.off).take y.len, x.relaxed, some y.ctx, y.cx.fn, y.cx.stash, .use u⟩)
    | _, _ => s

/-! ### Invalidation (R226 to R228) -/

/-- Whether two ranges of addresses meet. -/
def overlap (a n b m : Nat) : Bool := decide (a < b + m ∧ b < a + n)

/-- Whether a translation of a range of VAs lies in an INVALIDATE's scope (R226). An IPA range covers every combined
translation of its vmid. -/
def Inval.covers (i : Inval) (vmid asid va n : Nat) : Bool :=
  match i.scope with
  | 0 => decide (vmid = i.vmid ∧ asid = i.asid) && overlap va n i.start (4096 * i.pages)
  | 1 => decide (vmid = i.vmid)
  | 2 => decide (vmid = i.vmid ∧ asid = i.asid)
  | 3 => decide (vmid = i.vmid)
  | _ => true

/-- Whether a cached entry is removed by an INVALIDATE (R226). -/
def Inval.removes (i : Inval) (x : XlEntry) : Bool :=
  let leafOnly := i.leafOnly && x.kind ≠ 0 && !bit x.e 1
  match i.scope with
  | 0 => x.kind ≠ 2 && !leafOnly && i.covers x.vmid x.asid x.va (2 ^ x.log2)
  | 1 => decide (x.vmid = i.vmid) && (x.kind = 0 || (x.kind = 2 && !leafOnly && overlap x.va (2 ^ x.log2) i.start (4096 * i.pages)))
  | 2 => x.kind ≠ 2 && i.covers x.vmid x.asid x.va (2 ^ x.log2)
  | _ => i.covers x.vmid x.asid x.va (2 ^ x.log2)

/-- An INVALIDATE enters steps 2 and 3 (R227): every stall's matching entries go; the uses in progress whose
translation lies in its scope are marked, and the walks that may find one, each up to the largest leaf. A walk whose
tables it may concern caches nothing more (R228). -/
def State.shootdown (s : State) (op : Nat) : State :=
  match tFind s.invals op with
  | none => s
  | some i =>
    let hit (c : XlCtx) (va log2 : Nat) : Bool := i.covers c.vmid c.asid (va - va % 2 ^ log2) (2 ^ log2)
    { s with
      invals := tPut op { i with active := true } s.invals
      xl := (s.xl.map (fun e => (e.1, e.2.filter (fun x => !i.removes x)))).filter (fun e => e.2 ≠ [])
      uses := s.uses.map (fun e =>
        if hit e.2.cx e.2.va e.2.log2 && e.2.phys.isSome then (e.1, { e.2 with marks := e.2.marks ++ [op] }) else e)
      walks := s.walks.map (fun e => (e.1, { e.2 with
        marks := if hit e.2.cx e.2.va 30 then e.2.marks ++ [op] else e.2.marks, stale := e.2.stale || hit e.2.cx e.2.va 39 })) }

/-- The INVALIDATEs of a domain that wait enter step 2 while fewer than 8 are in progress (R228). -/
def State.admitInvals (s : State) (d : Nat) : State :=
  let act := s.invals.filter (fun e => e.2.dom = d ∧ e.2.active = true)
  match s.invals.find? (fun e => e.2.dom = d ∧ e.2.active = false) with
  | some e => if act.length < 8 then s.shootdown e.1 else s
  | none => s

/-- A stall acknowledges an INVALIDATE once its marked uses have finished; a fenced domain's stalls
count as having acknowledged. With all 16, the command completes (R227). -/
def State.invalAck (s : State) (st op : Nat) : State :=
  match tFind s.invals op with
  | none => s
  | some i =>
    let busy := s.domRuns (st / 8) &&
      (s.uses.any (fun e => e.2.stall = st && e.2.marks.contains op) ||
       s.walks.any (fun e => e.2.stall = st && e.2.marks.contains op))
    if !i.active || busy || i.acks.contains st then s
    else
      let acks := st :: i.acks
      let s := { s with invals := tPut op { i with acks := acks } s.invals }
      let all := (List.range 16).all (fun n => acks.contains n || !s.domRuns (n / 8))
      if all then ({ s with invals := tDel op s.invals }.done op 0).admitInvals i.dom else s

end Sys2Proof.Machine
end

