-- ==== Sys2Proof/Machine/Packet.lean ====
section
/-! DEFINITION. Packets: the routing header (R119 to R121), the transport header (R258 to R261),
their CRCs, and the building of packets. -/

namespace Sys2Proof.Machine

/-- One bit of CRC-32C (RFC 3720), low bit first. -/
def crc32cBit (c : BitVec 32) : BitVec 32 := if bit c 0 then (c >>> 1) ^^^ 0x82F63B78#32 else c >>> 1

/-- The CRC-32C register advanced over one byte. -/
def crc32cByte (c : BitVec 32) (b : Byte) : BitVec 32 :=
  (List.range 8).foldl (fun c _ => crc32cBit c) (c ^^^ b.setWidth 32)

/-- CRC-32C of bytes (RFC 3720). -/
def crc32c (bs : List Byte) : BitVec 32 := ~~~ (bs.foldl crc32cByte 0xFFFFFFFF#32)

/-- The bytes of a flit, as they travel (R4). -/
def flitBytes (w : BitVec 512) : List Byte := beBytes 64 w.toNat

/-- The flit whose bytes are given, padded with zeros (R259). -/
def flitOf (bs : List Byte) : BitVec 512 := BitVec.ofNat 512 (ofBe (bs ++ List.replicate (64 - bs.length) 0))

/-- The header flit of a packet. -/
def Pkt.hdr (p : Pkt) : BitVec 512 := match p with | f :: _ => f.bits | [] => 0

/-- Bits [hi:lo] of the routing header (R119). -/
def Pkt.rh (p : Pkt) (hi lo : Nat) : Nat := fld (Pkt.hdr p) (hi + 384) (lo + 384)

/-- Bits [hi:lo] of the transport header (R258). -/
def Pkt.th (p : Pkt) (hi lo : Nat) : Nat := fld (Pkt.hdr p) hi lo

def Pkt.destFa (p : Pkt) : Nat := Pkt.rh p 127 104
def Pkt.srcFa (p : Pkt) : Nat := Pkt.rh p 103 80
def Pkt.tc (p : Pkt) : Nat := Pkt.rh p 79 77
def Pkt.vclass (p : Pkt) : Nat := Pkt.rh p 76 74
def Pkt.flagged (p : Pkt) : Bool := Pkt.rh p 66 66 = 1
def Pkt.adapt (p : Pkt) : Bool := Pkt.rh p 65 65 = 1
def Pkt.len (p : Pkt) : Nat := Pkt.rh p 64 58
def Pkt.opc (p : Pkt) : Nat := Pkt.th p 383 376
def Pkt.last (p : Pkt) : Bool := Pkt.th p 375 375 = 1
def Pkt.solicited (p : Pkt) : Bool := Pkt.th p 374 374 = 1
def Pkt.ackreq (p : Pkt) : Bool := Pkt.th p 373 373 = 1
def Pkt.repro (p : Pkt) : Bool := Pkt.th p 372 372 = 1
def Pkt.sctx (p : Pkt) : Nat := Pkt.th p 371 350
def Pkt.dctx (p : Pkt) : Nat := Pkt.th p 349 328
def Pkt.psn (p : Pkt) : Nat := Pkt.th p 327 296
def Pkt.msn (p : Pkt) : Nat := Pkt.th p 295 272
def Pkt.moff (p : Pkt) : Nat := Pkt.th p 271 240
def Pkt.mlen (p : Pkt) : Nat := Pkt.th p 239 208
def Pkt.tag (p : Pkt) : Nat := Pkt.th p 207 144
def Pkt.key (p : Pkt) : Nat := Pkt.th p 143 112
def Pkt.addr (p : Pkt) : Nat := Pkt.th p 111 48
def Pkt.tsl (p : Pkt) : Nat := Pkt.th p 47 32
def Pkt.ecrc (p : Pkt) : Nat := Pkt.th p 31 0

/-- Whether any flit of a packet is poisoned (R109). -/
def Pkt.poisoned (p : Pkt) : Bool := p.any (fun f => f.poison)

/-- The payload bytes of a packet, padding included. -/
def Pkt.payload (p : Pkt) : List Byte := (p.drop 1).flatMap (fun f => flitBytes f.bits)

/-- RH_CRC of a header flit (R120). -/
def rhCrc (h : BitVec 512) : Nat :=
  (crcBits 16 0x1021#16 0xFFFF#16 (bitsMsb 112 (fld h 511 400))).toNat

/-- A header flit with its RH_CRC. -/
def withRhCrc (h : BitVec 512) : BitVec 512 := setFld h 399 384 (rhCrc h)

/-- The header flit as ECRC covers it: mutable routing fields, RH_CRC and ECRC zero (R259). -/
def ecrcView (h : BitVec 512) : BitVec 512 :=
  setFld (setFld (setFld (setFld (setFld h (73 + 384) (67 + 384) 0) (57 + 384) (52 + 384) 0)
    (35 + 384) (35 + 384) 0) (15 + 384) 384 0) 31 0 0

/-- ECRC of a packet (R259). -/
def Pkt.ecrcOf (p : Pkt) : Nat :=
  match p with
  | [] => 0
  | f :: fs => (crc32c (flitBytes (ecrcView f.bits) ++ fs.flatMap (fun f => flitBytes f.bits))).toNat

/-- FLOW_HASH (R121). -/
def flowHash (src dest sctx dctx : Nat) : Nat :=
  fld (crc32c (beBytes 3 src ++ beBytes 3 dest ++ beBytes 3 sctx ++ beBytes 3 dctx)) 15 0

/-- A packet with its TSL, ECRC and RH_CRC, as it is transmitted now (R258, R259). -/
def State.stamp (s : State) (p : Pkt) : Pkt :=
  match p with
  | [] => []
  | f :: fs =>
    let h := setFld f.bits 47 32 (s.ntNs % 65536)
    let h := setFld h 31 0 (Pkt.ecrcOf ({ f with bits := h } :: fs))
    { f with bits := withRhCrc h } :: fs

/-- A packet whose TSL is given (an echo, R271), with its CRCs. -/
def sealPkt (p : Pkt) : Pkt :=
  match p with
  | [] => []
  | f :: fs => { f with bits := withRhCrc (setFld f.bits 31 0 (Pkt.ecrcOf p)) } :: fs

/-- The chip's coordinates (R143). -/
def State.coord (s : State) : Nat := s.rf .rtCoord 15 0

/-- The fabric address that a context's packets carry in SRC_FA (R261). -/
def State.ctxFa (s : State) (c : Nat) : Nat := s.coord * 256 + s.ctxLink c * 32 + s.ctxFn c

/-- A packet from its routing fields, transport fields and payload bytes (R119, R258). -/
def buildPkt (dest src tc vclass : Nat) (flagged adapt : Bool) (hash : Nat)
    (th : List (Nat × Nat × Nat)) (payload : List Byte) : Pkt :=
  let n := ceilDiv payload.length 64
  let h := mkWord 512
    ([(127 + 384, 104 + 384, dest), (103 + 384, 80 + 384, src), (79 + 384, 77 + 384, tc),
      (76 + 384, 74 + 384, vclass), (66 + 384, 66 + 384, b2n flagged), (65 + 384, 65 + 384, b2n adapt),
      (64 + 384, 58 + 384, n + 1), (51 + 384, 36 + 384, hash)] ++ th)
  ⟨h, false⟩ :: (List.range n).map (fun i => ⟨flitOf ((payload.drop (64 * i)).take 64), false⟩)

/-- A packet handed to a stall's routing stage (R135). -/
def State.injectPkt (s : State) (stall : Nat) (p : Pkt) : State :=
  let k := 4 * stall + Pkt.vclass p % 4
  let s := { s with inject := tMod [] k (· ++ [p]) s.inject }
  s.pm (.stall (stallOf stall)) 0x22 (Pkt.sctx p) 1

/-- The number with the low `n` bits of another (PSNs and MSNs wrap). -/
def wrap (n a : Nat) : Nat := a % 2 ^ n

/-- Distance from `b` up to `a` modulo 2^n. -/
def dist (n a b : Nat) : Nat := (a + 2 ^ n - b % 2 ^ n) % 2 ^ n

/-- `a` is at or above `b` by the half-range rule (R262). -/
def atOrAbove (n a b : Nat) : Bool := decide (dist n a b < 2 ^ (n - 1))

end Sys2Proof.Machine
end

