-- ==== Sys2Proof/Machine/Flags.lean ====
section
/-! DEFINITION. The arithmetic of the Groom's instructions (R336, R337, R339): the machine has no
flags; every result is a 64-bit value computed here. -/

namespace Sys2Proof.Machine

/-- Leading zero bits, 0 to 64. -/
def clz64 (w : Word) : Nat := if w = 0 then 64 else 63 - Nat.log2 w.toNat

/-- Trailing zero bits, 0 to 64. -/
def ctz64 (w : Word) : Nat := ((List.range 64).find? (fun i => w.getLsbD i)).getD 64

/-- The ALU's result for a fn (R337): none where the fn is reserved. -/
def aluFn (fn : Nat) (a b : Word) : Option Word :=
  let sh := b.toNat % 64
  match fn with
  | 0 => some (a + b)
  | 1 => some (a - b)
  | 2 => some (a &&& b)
  | 3 => some (a ||| b)
  | 4 => some (a ^^^ b)
  | 5 => some (a <<< sh)
  | 6 => some (a >>> sh)
  | 7 => some (a.sshiftRight sh)
  | 8 => some (if a.slt b then 1 else 0)
  | 9 => some (if a.ult b then 1 else 0)
  | 10 => some (a * b)
  | 11 => some (BitVec.ofNat 64 (a.toNat * b.toNat / 2 ^ 64))
  | 12 => some (if a.slt b then a else b)
  | 13 => some (if a.slt b then b else a)
  | 14 => some (if a.ult b then a else b)
  | 15 => some (if a.ult b then b else a)
  | 16 => some (BitVec.ofNat 64 (clz64 a))
  | 17 => some (BitVec.ofNat 64 (ctz64 a))
  | 18 => some (BitVec.ofNat 64 (popcount a))
  | 19 => some (BitVec.ofNat 64 (ofBe (leBytes 8 a.toNat)))
  | 20 => some (((leBytes 8 b.toNat).foldl crc32cByte (a.setWidth 32)).setWidth 64)
  | _ => none

/-- Whether a fn of ALU is one of the unary operations, whose rs2 must be g0 (R337). -/
def aluUnary (fn : Nat) : Bool := decide (16 ≤ fn ∧ fn ≤ 19)

/-- SHI (R336): the shift that imm16[7:6] names, none where it or imm16[15:8] is reserved. -/
def shiFn (imm : BitVec 16) (a : Word) : Option Word :=
  if fld imm 15 8 ≠ 0 then none
  else match fld imm 7 6 with
    | 0 => some (a <<< fld imm 5 0)
    | 1 => some (a >>> fld imm 5 0)
    | 2 => some (a.sshiftRight (fld imm 5 0))
    | _ => none

/-- AMOL (R336): the new value, none where the fn is reserved. `c` is the old value of rd. -/
def amolFn (fn : Nat) (old b c : Word) : Option Word :=
  match fn with
  | 0 => some b
  | 1 => some (old + b)
  | 2 => some (old &&& b)
  | 3 => some (old ||| b)
  | 4 => some (if old = c then b else old)
  | _ => none

end Sys2Proof.Machine
end

