-- ==== Sys2Proof/Machine/Hitch.lean ====
section
/-! DEFINITION. The hitch units' lock objects (R382 to R389): acquiring, releasing, inheritance,
abandonment, and the lock windows. -/

namespace Sys2Proof.Machine

/-- Key of a lock. -/
def lockKey (d n : Nat) : Nat := 65536 * d + n

def State.lock (s : State) (d n : Nat) : Lock := tGet {} s.locks (lockKey d n)
def State.modLock (s : State) (d n : Nat) (f : Lock → Lock) : State :=
  { s with locks := tMod {} (lockKey d n) f s.locks }

/-- Owner kind and owner fields (R382). -/
def Holder.kind : Holder → Nat
  | .run _ => 1
  | .steward => 2
  | .fn _ _ => 3
def Holder.code : Holder → Nat
  | .run g => 16 * (g.s.val % 8) + g.g.val
  | .steward => 0
  | .fn l f => 32 * l + f

/-- Greater of the owner's priority and the highest declared by a waiter (R382). -/
def Lock.eff (l : Lock) : Nat := if l.owner.isNone then 0 else l.waiters.foldl (fun m w => max m w.prio) l.prio

/-- The lock word (R382). -/
def Lock.word (l : Lock) : Word :=
  mkWord 64 [(63, 63, b2n l.owner.isSome), (62, 62, b2n l.abandoned),
    (61, 60, (l.owner.map Holder.kind).getD 0), (59, 44, (l.owner.map Holder.code).getD 0),
    (43, 36, if l.owner.isSome then l.prio else 0), (35, 28, l.eff), (27, 19, l.waiters.length), (15, 0, l.gen)]

/-- The lock that a master waits on in a domain (R383). -/
def State.waitsOn (s : State) (d : Nat) (m : Holder) : Option Nat :=
  (s.locks.find? (fun e => e.1 / 65536 = d ∧ e.2.waiters.any (fun w => w.who = m))).map (fun e => e.1 % 65536)

/-- HK_FNCFG of a function (R390). -/
def State.fncfg (s : State) (d l f : Nat) : Word := s.reg (.hkFncfg (domOf d) ⟨(32 * l + f) % 256, Nat.mod_lt _ (by decide)⟩)

/-- A granted Groom run completes its HLOCK with the status it receives (R344), which acts as an acquire (R356); LOCK_WAKE becomes pending (R345) and stays
so until a WFE takes it (log entry 56). -/
def State.wakeHlock (s : State) (g : GroomId) (status : Nat) : State :=
  (s.catchUp g).modRun g (fun r =>
    match r.wait with
    | .hlock rd _ => { r with wait := .none, pc := r.pc + 1, events := r.events ||| 2,
                              regs := if rd = 0 then r.regs else modAt r.regs rd (fun _ => BitVec.ofNat 64 status) }
    | _ => r)

/-- A lock granted to a master (R385, R386): `queued` where it has waited. -/
def State.grant (s : State) (d n : Nat) (m : Holder) (prio : Nat) (abandoned queued : Bool) : State :=
  let s := s.modLock d n (fun l => { l with owner := some m, prio := prio, abandoned := abandoned, gen := wrap16 (l.gen + 1) })
  let s := s.bump (.hkCount (domOf d)) 31 16 1
  if !queued then s
  else match m with
    | .run g => s.wakeHlock g (b2n abandoned)
    | .steward => s.emit (.stewardLock d n false abandoned)
    | .fn l f => s.sendIntr l f (fld (s.fncfg d l f) 26 16) (b2n abandoned * 2 ^ 30 + d * 2 ^ 16 + n)
where wrap16 (n : Nat) : Nat := n % 65536

/-- Rank of a waiter (R385). -/
def Waiter.rank (now : Nat) (w : Waiter) : Nat := min 255 (w.prio + (now - w.since) / us 100)

/-- The first waiter: of highest rank, and of those the earliest queued (R385). -/
def firstWaiter (now : Nat) (ws : List Waiter) : Option Waiter :=
  ws.foldl (fun (b : Option Waiter) w =>
    match b with
    | none => some w
    | some v => if v.rank now < w.rank now then some w else b) none

/-- A lock freed, and granted at once to the first waiter (R385, R388). -/
def State.passLock (s : State) (d n : Nat) (abandoned : Bool) : State :=
  let l := s.lock d n
  let s := s.modLock d n (fun l => { l with owner := none, prio := 0, abandoned := abandoned })
  match firstWaiter s.clk l.waiters with
  | none => s
  | some w =>
    (s.modLock d n (fun l => { l with waiters := l.waiters.filter (fun v => v.who ≠ w.who) })).grant d n w.who w.prio abandoned true

/-- An inheritance event (R387). -/
def State.inherit (s : State) (d n : Nat) : State :=
  let s := s.wb (.hkStatus (domOf d)) 1 true
  match (s.lock d n).owner with
  | some (.run g) => s.modRun g (fun r => wakeRun 16 r)
  | some (.fn l f) => s.sendIntr l f (fld (s.fncfg d l f) 10 0) (2 ^ 31 + d * 2 ^ 16 + n)
  | some .steward => s.emit (.stewardLock d n true false)
  | none => s

/-- An acquire (R385), `try_` where it must not wait: the hitch status, WAITING where the master is
queued. -/
def State.acquire (s : State) (d n : Nat) (m : Holder) (prio : Nat) (try_ : Bool) : Nat × State :=
  let l := s.lock d n
  if l.owner = some m then (0x11, s)
  else if !try_ && (s.waitsOn d m).isSome then (0x12, s)
  else if l.owner.isNone then (b2n l.abandoned, s.grant d n m prio l.abandoned false)
  else if try_ then (2, s)
  else
    let was := l.eff
    let s := s.modLock d n (fun l => { l with waiters := l.waiters ++ [⟨m, prio, s.clk⟩] })
    (3, if was < (s.lock d n).eff then s.inherit d n else s)

/-- A release (R385). -/
def State.release (s : State) (d n : Nat) (m : Holder) : Nat × State :=
  if (s.lock d n).owner = some m then (0, s.passLock d n false) else (0x10, s)

/-- A wait removed (R384, R387). -/
def State.unwait (s : State) (d n : Nat) (m : Holder) : State :=
  s.modLock d n (fun l => { l with waiters := l.waiters.filter (fun w => w.who ≠ m) })

/-- Every wait of a master in a domain removed. -/
def State.dropWaits (s : State) (d : Nat) (m : Holder) : State :=
  match s.waitsOn d m with
  | some n => s.unwait d n m
  | none => s

/-- A master is reset (R388): its waits are removed, and each lock it owns is freed, marked abandoned
and granted onward. -/
def State.resetHolder (s : State) (d : Nat) (m : Holder) : State :=
  let s := s.dropWaits d m
  let mine := s.locks.filter (fun e => e.1 / 65536 = d ∧ e.2.owner = some m)
  mine.foldl (fun t e =>
    ((t.bump (.hkCount (domOf d)) 15 0 1).wb (.hkStatus (domOf d)) 0 true).passLock d (e.1 % 65536) true) s

/-- Whether a master owns a lock in a domain. -/
def State.holds (s : State) (d : Nat) (m : Holder) : Bool := s.locks.any (fun e => e.1 / 65536 = d ∧ e.2.owner = some m)

/-- A host link is lost, or leaves UP for DOWN: every function of it is reset, in each domain that runs; those of a fenced
one are lost with it (R388). The waits of all of them are removed before any lock is granted onward (R389). -/
def State.resetLinkHolders (s : State) (h : Nat) : State :=
  let ds := [0, 1].filter (fun d => s.domRuns d)
  let s := (List.range 31).foldl (fun t f => ds.foldl (fun t d => t.dropWaits d (.fn h f)) t) s
  (List.range 31).foldl (fun t f => ds.foldl (fun t d => t.resetHolder d (.fn h f)) t) s

/-! ### Lock windows (R384, R390) -/

/-- The lock master that a master of the address space is in a domain (R383), with the priority of
its acquires; none where it may own no lock. -/
def State.holderOf (s : State) (d : Nat) : Master → Option (Holder × Nat)
  | .fn l f =>
    if f.val < 31 ∧ bit (s.fncfg d l.val f.val) 63 then some (.fn l.val f.val, fld (s.fncfg d l.val f.val) 47 40) else none
  | .steward x => if x.val = d then some (.steward, 255) else none
  | .warden => none

/-- The lock result word (R384). -/
def State.lockResult (s : State) (d n status : Nat) : Word := mkWord 64 [(63, 56, status), (47, 32, (s.lock d n).gen)]

/-- A read of a lock window (R390): 0 ACQUIRE, 1 TRY, 2 RELEASE, 3 CANCEL. A master that may own no
lock is answered FN_DISABLED. -/
def State.hkWindow (s : State) (k d n : Nat) (m : Master) : Word × State :=
  match s.holderOf d m with
  | none => (s.lockResult d n 0x13, s)
  | some (who, prio) =>
    let r : Nat × State :=
      if k = 0 then s.acquire d n who prio false
      else if k = 1 then s.acquire d n who prio true
      else if k = 2 then s.release d n who
      else if s.waitsOn d who = some n then (4, s.unwait d n who) else (5, s)
    (r.2.lockResult d n r.1, r.2)

/-- Device address of a lock window (R390). -/
def hkAddr (k : Nat) (d : Dom) (n : BitVec 16) : Nat := 0x40200000 + d.val * 0x1000000 + k * 0x100000 + 8 * n.toNat

/-- HK_ACQUIRE, HK_TRY, HK_RELEASE and HK_CANCEL by a master, in a domain that runs; the lock result is what the read
returns. -/
def State.hkOp (s : State) (k : Nat) (m : Master) (d : Dom) (n : BitVec 16) : State :=
  if s.domRuns d.val then
    let r := s.hkWindow k d.val n.toNat m
    r.2.emit (.value m (hkAddr k d n) r.1)
  else s

def doHkAcquire (m : Master) (d : Dom) (n : BitVec 16) (s : State) : State := s.hkOp 0 m d n
def doHkTry (m : Master) (d : Dom) (n : BitVec 16) (s : State) : State := s.hkOp 1 m d n
def doHkRelease (m : Master) (d : Dom) (n : BitVec 16) (s : State) : State := s.hkOp 2 m d n
def doHkCancel (m : Master) (d : Dom) (n : BitVec 16) (s : State) : State := s.hkOp 3 m d n

end Sys2Proof.Machine
end

