-- ==== Sys2Proof/Machine/Telemetry.lean ====
section
/-! DEFINITION. Telemetry FIFOs and their records (R480 to R483), and snapshots of counters
(R479). -/

namespace Sys2Proof.Machine

/-- Index of a telemetry FIFO. -/
def tmIdx (i : Nat) : Fin 16 := ⟨i % 16, Nat.mod_lt _ (by decide)⟩

/-- TM_CTRL of a FIFO. -/
def State.tmCtrl (s : State) (d i : Nat) : Word := s.reg (.tmCtrl (domOf d) (tmIdx i))

/-- Records that fit in the released banks from the write position on (R480, R481). -/
def State.tmSpace (s : State) (d i : Nat) : Nat :=
  let c := s.tmCtrl d i
  let w := tGet 0 s.tmWrote (16 * d + i) % 1024
  let rel (b : Nat) : Bool := bit c (43 + b)
  if !rel (w / 512) then 0
  else 512 - w % 512 + (if rel (1 - w / 512) then 512 else 0)

/-- One record written at the write position (R481): an ORDERED write to the ring in host memory, or
an uncached write in HBM; a bank that fills stops being released and sends its INTR. -/
def State.tmWrite1 (s : State) (d i : Nat) (ws : List Word) : State :=
  let c := s.tmCtrl d i
  let n := tGet 0 s.tmWrote (16 * d + i)
  let w0 := setBit (ws.getD 0 0) 63 ((n / 1024) % 2 = 0)
  let a := fld (s.reg (.tmBase (domOf d) (tmIdx i))) 63 16 * 65536 + 64 * (n % 1024)
  let bs := bytesOf (w0 :: ws.drop 1)
  let link := fld c 61 59
  let s := if bit c 62 then s.uncachedWrite a bs else s.hostWrite link 31 none a bs .none
  let s := { s with tmWrote := tSet 0 (16 * d + i) (n + 1) s.tmWrote }
  let r := Reg.tmCtrl (domOf d) (tmIdx i)
  let s := s.wf r 42 32 ((n + 1) % 1024)
  if (n + 1) % 512 = 0 then
    let s := s.wb r (43 + (n / 512) % 2) false
    if bit c 58 && s.hlUp link then s.sendIntr link 31 (fld c 57 47) (16 * d + i) else s
  else s

/-- Records dropped by a FIFO (R480). -/
def State.tmDrop (s : State) (d i n : Nat) : State := s.bump (.tmCtrl (domOf d) (tmIdx i)) 31 0 n

/-- The records of one snapshot or sample written whole, or dropped (R480); a GAP record comes first
after drops (R481, R483). -/
def State.tmWrite (s : State) (d i : Nat) (recs : List (List Word)) : State :=
  let c := s.tmCtrl d i
  if !bit c 62 && s.hlLost (fld c 61 59) then s.tmDrop d i recs.length
  else
    let drops := fld c 31 0
    let s := if drops ≠ 0 ∧ 0 < s.tmSpace d i then
        (s.wf (.tmCtrl (domOf d) (tmIdx i)) 31 0 0).tmWrite1 d i
          [mkWord 64 [(62, 56, 3), (47, 40, 1), (39, 32, 3), (31, 24, d)], s.nt, mkWord 64 [(31, 0, drops)], 0, 0, 0, 0, 0]
      else s
    if recs.length ≤ s.tmSpace d i then recs.foldl (fun t r => t.tmWrite1 d i r) s
    else s.tmDrop d i recs.length

/-- Whether a FIFO takes records: valid, and its domain runs (R479, R481). -/
def State.tmValid (s : State) (d i : Nat) : Bool := bit (s.tmCtrl d i) 63 && s.domRuns d

/-! ### Fixed counters (R474) -/

/-- Time that a block's fixed counter reads: Tack Room time in TACK, else the core's. -/
def State.pmClock (s : State) (b : Block) : Nat := match b with | .tack => s.tk | _ => s.clk

/-- PM_FIXED of a block as it reads now. -/
def State.pmFixed (s : State) (b : Block) : Word :=
  let f := tGet {} s.pmFix (blockBase b)
  let n := if f.run && !s.frozen b then f.val + (s.pmClock b - f.since) / 16 else f.val
  mkWord 64 [(63, 63, b2n (f.ovf || decide (2 ^ 48 ≤ n))), (47, 0, n)]

/-- PM_FIXED written: the count, and ovf cleared by a 1 (R473). A wrap wins over the clearing. -/
def State.pmFixedWrite (s : State) (b : Block) (v : Word) : State :=
  let now := s.pmFixed b
  let f : PmFix := { val := fld v 47 0, since := s.pmClock b, ovf := bit now 63 && !bit v 63, run := true }
  { s with pmFix := tSet {} (blockBase b) f s.pmFix }

/-- The fixed counter of a block held at its value while the block is frozen (R475). -/
def State.pmFreeze (s : State) (b : Block) : State :=
  let now := s.pmFixed b
  { s with pmFix := tSet {} (blockBase b) { val := fld now 47 0, since := s.pmClock b, ovf := bit now 63, run := false } s.pmFix }

/-! ### Snapshots (R479, R483) -/

/-- Word 0 of a telemetry record (R483), which has no place for a job_tag (R116, log entry 160). -/
def tmHead (kind part parts : Nat) (b : Block) (groom : Bool) (g : Nat) : Word :=
  mkWord 64 [(62, 56, kind), (55, 48, part), (47, 40, parts), (39, 32, blockType b), (31, 24, blockInst b),
    (23, 23, b2n groom), (22, 19, g)]

/-- A record of counter copies. -/
def tmDumpRec (head : Word) (nt : BitVec 64) (ws : List Word) : List Word := head :: nt :: (ws ++ List.replicate (6 - ws.length) 0)

/-- The records of a block's snapshot (R483). -/
def State.dumpRecs (s : State) (b : Block) : List (List Word) :=
  let cnt (i : Fin 8) : Word := s.reg (.pmCnt b i)
  match b with
  | .port _ => [tmDumpRec (tmHead 1 0 1 b false 0) s.nt [s.pmFixed b, cnt 0, cnt 1, cnt 2, cnt 3]]
  | .hostlink _ => [tmDumpRec (tmHead 1 0 1 b false 0) s.nt [s.pmFixed b, cnt 0, cnt 1, cnt 2, cnt 3]]
  | .stall n =>
    let parts := if s.rb (.pmDump b) 62 then 34 else 2
    [tmDumpRec (tmHead 1 0 parts b false 0) s.nt [s.pmFixed b, cnt 0, cnt 1, cnt 2, cnt 3, cnt 4],
     tmDumpRec (tmHead 1 1 parts b false 0) s.nt [cnt 5, cnt 6, cnt 7]] ++
    (if parts = 2 then []
     else (List.finRange 16).flatMap (fun g =>
      let c (i : Fin 8) : Word := s.reg (.pmGcnt ⟨n, g⟩ i)
      [tmDumpRec (tmHead 1 (2 + 2 * g.val) parts b true g.val) s.nt [c 0, c 1, c 2, c 3, c 4, c 5],
       tmDumpRec (tmHead 1 (3 + 2 * g.val) parts b true g.val) s.nt [c 6, c 7]]))
  | _ => [tmDumpRec (tmHead 1 0 1 b false 0) s.nt [s.pmFixed b]]

/-- PM_SNAPSHOT: taken while PM_DUMP is enabled, at an NT whose value in ns is a multiple of the
period (R479). -/
def doPmSnapshot (b : Block) (s : State) : State :=
  if b = .tack || s.frozen b then s
  else
    let w := s.reg (.pmDump b)
    let period := 1000 * fld w 51 32
    if !bit w 63 || s.nt.toNat % 16 ≠ 0 || period = 0 || s.ntNs % period ≠ 0 then s
    else
      let d := fld w 56 56
      let i := fld w 55 52
      if s.tmValid d i then s.tmWrite d i (s.dumpRecs b)
      else s.bump (.pmDump b) 31 0 1

end Sys2Proof.Machine
end

