-- ==== Sys2Proof/Machine/Operands.lean ====
section
/-! DEFINITION. The operand forms of the Groom's instructions (R335), the addresses of its local
space (R321), the store buffer (R342), and what surrounds every instruction: fetch, budget,
sampling and exceptions (R333, R336, R346, R347, R482). -/

namespace Sys2Proof.Machine

/-! ### Encodings (R335) -/

def encR (op : Nat) (rd rs1 rs2 : BitVec 5) (fn : BitVec 11) : BitVec 32 :=
  mkWord 32 [(31, 26, op), (25, 21, rd.toNat), (20, 16, rs1.toNat), (15, 11, rs2.toNat), (10, 0, fn.toNat)]
def encI (op : Nat) (rd rs1 : BitVec 5) (imm : BitVec 16) : BitVec 32 :=
  mkWord 32 [(31, 26, op), (25, 21, rd.toNat), (20, 16, rs1.toNat), (15, 0, imm.toNat)]
def encM (op : Nat) (r base : BitVec 5) (size mark : BitVec 2) (off : BitVec 12) : BitVec 32 :=
  mkWord 32 [(31, 26, op), (25, 21, r.toNat), (20, 16, base.toNat), (15, 14, size.toNat), (13, 12, mark.toNat),
    (11, 0, off.toNat)]
def encJ (op : Nat) (off : BitVec 26) : BitVec 32 := mkWord 32 [(31, 26, op), (25, 0, off.toNat)]

/-- The major opcodes of R336. -/
def majorOk (op : Nat) : Bool := decide (op ≤ 9 ∨ (0x10 ≤ op ∧ op ≤ 0x1F) ∨ (0x30 ≤ op ∧ op ≤ 0x35) ∨ op = 0x3F)

/-! ### Registers of a run -/

/-- Register `r`; g0 reads as zero (R320). -/
def Run.get (r : Run) (n : BitVec 5) : Word := if n = 0 then 0 else r.regs.getD n.toNat 0

/-- The registers with one written; a write to g0 is discarded (R320). -/
def Run.put (r : Run) (n : BitVec 5) (v : Word) : Run :=
  if n = 0 then r else { r with regs := modAt r.regs n.toNat (fun _ => v) }

/-- The run after an instruction that does not branch. -/
def Run.step (r : Run) : Run := { r with pc := r.pc + 1 }

/-- Sign extension of an immediate. -/
def sext16 (v : BitVec 16) : Word := v.signExtend 64

/-- Address of an M-format access: base plus the signed byte offset. -/
def Run.addr (r : Run) (base : BitVec 5) (off : BitVec 12) : Nat := (r.get base + off.signExtend 64).toNat

/-- Instructions of the image (R324). -/
def Run.pages (r : Run) : Nat := fld (r.bind.getD 0 0) 11 4 + 1

/-- The context of a run. -/
def Run.ctx (r : Run) : Nat := r.ref.ctx

/-- The events that are pending, TIMER as network time gives it (R345). -/
def State.latchTimer (s : State) (r : Run) : Run :=
  if r.timer ≠ 0 ∧ r.timerHit = false ∧ r.timer.toNat ≤ s.nt.toNat then wakeRun 4 { r with timerHit := true } else r

/-! ### Local space (R321) -/

/-- What a local access reaches. -/
inductive Local where
  | scratch (a : Nat)
  | shared (a : Nat)
  | window (a : Nat)
  | range
  | perm
  deriving DecidableEq, Repr

/-- Where `n` bytes at local address `a` lie, for a run. -/
def Run.local_ (r : Run) (a n : Nat) : Local :=
  if a + n ≤ 0x20000 then .scratch a
  else if 0x100000 ≤ a ∧ a + n ≤ 0x300000 then
    (if (fld (r.bind.getD 2 0) 39 8).testBit ((a - 0x100000) / 0x10000) then .shared (a - 0x100000) else .perm)
  else if 0x400000 ≤ a ∧ a + n ≤ 0x401040 then .window (a - 0x400000)
  else .range

/-- Device address of a byte of a stall's shared scratch (R323). -/
def sharedAddr (st : Stall) (o : Nat) : Nat := blockBase (.stall st) + 0x800000 + o

/-- Bytes of local space. -/
def State.localRead (s : State) (g : GroomId) (r : Run) (l : Local) (n : Nat) : List Byte :=
  match l with
  | .scratch a => memRead (s.groom g).scratch a n
  | .shared a => memRead s.buf (sharedAddr g.s a) n
  | .window a => (List.range n).map (fun i => r.ref.window.getD (a + i) 0)
  | _ => []

/-- Local space with bytes written. -/
def State.localWrite (s : State) (g : GroomId) (a : Nat) (bs : List Byte) : State :=
  if a < 0x20000 then s.modGroom g (fun x => { x with scratch := memWrite x.scratch a bs })
  else { s with buf := memWrite s.buf (sharedAddr g.s (a - 0x100000)) bs }

/-! ### Loads performed early (R354, R358) -/

/-- Whether a run has read or written any of `n` bytes at an address of HBM or of scratch since its last ordering point: its
accesses to one location are performed in order (R354). -/
def Run.sees (r : Run) (hbm : Bool) (a n : Nat) : Bool := r.seen.any (fun e => (e.1 == hbm) && decide (a < e.2.1 + e.2.2 ∧ e.2.1 < a + n))

/-- An access of a run to `n` bytes at an address of HBM or of scratch is performed. -/
def State.seeAt (s : State) (g : GroomId) (hbm : Bool) (a n : Nat) : State := s.modRun g (fun r => { r with seen := (hbm, a, n) :: r.seen })

/-- What a plain load of a run reads: what stands there now, or what stood there at the run's last ordering point, where it
may have been performed then (R354, log entry 127). -/
def State.plainLoad (s : State) (g : GroomId) (r : Run) (hbm : Bool) (a n : Nat) (now : List Byte) : List Byte × State :=
  let past := if hbm then memRead r.pastHbm (a - hbmBase) n else memRead r.pastBuf a n
  if r.sees hbm a n || now = past then (now, s.seeAt g hbm a n)
  else
    let (f, s) := s.free 1
    (if f = 0 then now else past, s.seeAt g hbm a n)

/-! ### The store buffer (R342, R354) -/

/-- Whether a buffered store may be performed now: a release store waits for every earlier one, a
store to scratch or HBM for the earlier stores to scratch or HBM (R354). -/
def storeReady (before : List GStore) (x : GStore) : Bool :=
  let host (y : GStore) : Bool := match y.phys with | some (.host _ _) => true | _ => false
  if x.busy then false
  else if x.release then decide (before = [])
  else if host x then before.all (fun y => y.busy)
  else before.all host

/-- The first buffered store that may be performed. -/
def nextStore : List GStore → List GStore → Option GStore
  | _, [] => none
  | before, x :: rest => if storeReady before x then some x else nextStore (before ++ [x]) rest

/-- A buffered store of a run of context `c` performed: of scratch or HBM at once, the latter through the stall's context cache
(R351); of host memory by one ORDERED write whose
acknowledgement ends it (R340, R342, R353). -/
def State.performStore (s : State) (g : GroomId) (c : Nat) (x : GStore) : State :=
  let bs := leBytes x.size x.data
  let drop (s : State) : State :=
    (s.modRun g (fun r => { r with stores := r.stores.filter (fun y => y.id ≠ x.id) })).endHeld x.use
  match x.phys with
  | none =>
    let t := s.localWrite g x.addr bs
    drop (if x.addr < 0x100000 then t else t.seeAt g false (sharedAddr g.s (x.addr - 0x100000)) bs.length)
  | some (.hbm a) => drop ((s.cacheWrite g.s.val a bs).seeAt g true a bs.length)
  | some (.host h a) =>
    if s.hlLost h || s.ctxDead c then drop s
    else
      (s.hostWrite h (s.ctxFn c) (some c) a bs (.store g x.id)).modRun g (fun r => { r with
        stores := r.stores.map (fun y => if y.id = x.id then { y with busy := true } else y) })

/-- Buffered stores performed in program order, all that may be: what waits for the buffer drains it so. -/
def State.drainStores : Nat → State → GroomId → State
  | 0, s, _ => s
  | k + 1, s, g =>
    match (s.groom g).run with
    | none => s
    | some r => match nextStore [] r.stores with
      | none => s
      | some x => State.drainStores k (s.performStore g r.ctx x) g

/-- Some of the buffered stores performed in program order, as many as it may be: a store may stay in the buffer while later
loads of its run and accesses of other agents are performed (R354, R358). -/
def State.driftStores : Nat → State → GroomId → State
  | 0, s, _ => s
  | k + 1, s, g =>
    match (s.groom g).run with
    | none => s
    | some r => match nextStore [] r.stores with
      | none => s
      | some x =>
        let (f, s) := s.free 1
        if f = 0 then s else State.driftStores k (s.performStore g r.ctx x) g

/-- A store put into the buffer, of which some may be performed. -/
def State.pushStore (s : State) (g : GroomId) (phys : Option Phys) (addr size data : Nat) (release : Bool) (use : Option Nat) : State :=
  (s.modRun g (fun r => { r with
    stores := r.stores ++ [⟨r.nextStore, phys, addr, size, data, release, false, use⟩], nextStore := r.nextStore + 1 })).driftStores
      17 g

/-- Whether every Groom's store buffer is empty (R38). -/
def State.storesDrained (s : State) : Bool :=
  s.grooms.all (fun g => match g.2.run with | some r => r.stores = [] | none => true)

/-- Every Groom's store buffer drained of what may be performed (R38, R342): while the block idles, nothing holds it back. -/
def State.groomsDrain (s : State) : State :=
  if s.storesDrained then s
  else (List.finRange 16).foldl (fun t st => (List.finRange 16).foldl (fun t i => t.drainStores 17 ⟨st, i⟩) t) s

/-- The write of a buffered store has been acknowledged, or its link is lost. -/
def State.storeDone (s : State) (g : GroomId) (id : Nat) : State :=
  match (s.groom g).run with
  | none => s
  | some r =>
    let s := (r.stores.filter (fun y => y.id = id && y.busy)).foldl (fun t y => t.endHeld y.use) s
    (s.modRun g (fun r => { r with stores := r.stores.filter (fun y => !(y.id = id && y.busy)) })).driftStores 17 g

/-- What a load of `n` bytes at `a` takes from the run's own buffered stores (R354): the youngest that it meets, where that
holds all its bytes. Local and virtual addresses are told apart by `phys`. -/
def Run.own (r : Run) (phys : Bool) (a n : Nat) : Option Nat :=
  match (r.stores.filter (fun y => (y.phys.isSome == phys) && decide (a < y.addr + y.size ∧ y.addr < a + n))).getLast? with
  | some y => if y.addr ≤ a ∧ a + n ≤ y.addr + y.size then some (y.data / 2 ^ (8 * (a - y.addr)) % 2 ^ (8 * n)) else none
  | none => none

/-- Whether a load of `n` bytes at `a` meets a store of the run that is not yet performed and must wait for it: it takes
only a part from it, or the store lies at the same place of another page, which may be the same memory. -/
def Run.meets (r : Run) (phys : Bool) (a n : Nat) : Bool :=
  r.stores.any (fun y => (y.phys.isSome == phys) &&
    if a < y.addr + y.size ∧ y.addr < a + n then (r.own phys a n).isNone
    else phys && decide (a % 4096 < y.addr % 4096 + y.size ∧ y.addr % 4096 < a % 4096 + n))

/-! ### Exceptions (R346, R347) -/

/-- A run raises an exception (R346): it waits for nothing any more, and ends as R332 gives; what R347 lists follows then.
The first exception of a run is the one that it ends with. -/
def State.raise (s : State) (g : GroomId) (kind detail addr : Nat) : State :=
  match (s.groom g).run with
  | none => s
  | some r =>
    if r.exc.isSome then s
    else
      let s := s.modRun g (fun r => { r with exc := some (kind, detail, addr, r.pc), wait := .none })
      let s := (s.dropWaits (g.s.val / 8) (.run g)).wb (.grStatus g.s) 2 true
      let s := if kind = 12 then s.wb (.grStatus g.s) 1 true else s
      let s := if kind = 11 then s.wb (.grStatus g.s) 0 true else s
      s.pmG g 0x0108 r.ctx 1

/-- The exception of a run that has ended (R347): GR_FAULT, the count, the NOTE, HANDLER_FAULT, and the suspension of the
event's binding unless fault_action keeps it. -/
def State.reportExc (s : State) (g : GroomId) (r : Run) (kind detail addr pc : Nat) : State :=
  let susp := !bit (r.bind.getD 2 0) 55
  let f := Reg.grFault g.s
  let s := if s.rb f 63 then s.wb f 62 true
    else (s.setReg f (mkWord 64 [(63, 63, 1), (62, 62, b2n (s.rb f 62)), (61, 58, kind), (57, 50, detail),
            (49, 46, g.g.val), (45, 44, r.ref.kind), (43, 22, r.ctx), (17, 0, pc)])).setReg (.grFaultAddr g.s)
            (BitVec.ofNat 64 addr)
  let s := (s.bump (.grCount g.s) 31 16 1).fault (.stall g.s) .note 0x20 g.g.val
  let s := s.postCtx r.ctx 0x0701 [(2, 15, 8, detail), (3, 63, 32, r.ref.psn), (3, 31, 26, kind),
    (3, 25, 24, r.ref.kind), (3, 23, 23, b2n susp), (3, 17, 0, pc), (6, 63, 0, addr)]
  if susp then s.modCtx r.ctx (fun x => { x with suspended := x.suspended ||| 2 ^ r.ref.kind }) else s

/-! ### Fetch, budget and sampling -/

/-- The instruction word at the pc of a run (R324, R335). -/
def State.fetchWord (s : State) (r : Run) : BitVec 32 :=
  BitVec.ofNat 32 (ofLe (s.hbmRead (fld (r.bind.getD 0 0) 63 12 * 4096 + 4 * r.pc) 4))

/-- The next interval of a Groom’s sampling, drawn uniformly from 1 to 2^(n+1) - 1 (R482), and the first one in the same way
(DESIGN CHOICE, log entry 131). -/
def State.drawInterval (s : State) (g : GroomId) : Nat × State :=
  let d := s.free 64
  (1 + d.1.toNat % (2 ^ (s.rf (.pmSample g.s) 39 35 + 1) - 1), d.2)

/-- Instruction sampling (R482): the instruction that completes the interval is sampled, and the next
interval drawn. -/
def State.sample (s : State) (g : GroomId) (r : Run) (w : BitVec 32) : State :=
  let c := s.reg (.pmSample g.s)
  if !bit c 63 || (bit c 62 && fld c 61 40 ≠ r.ctx) then s
  else
    let left := (s.groom g).sampleLeft
    let x : Nat × State := if left = 0 then s.drawInterval g else (left, s)
    if 1 < x.1 then x.2.modGroom g (fun y => { y with sampleLeft := x.1 - 1 })
    else
      let d := x.2.drawInterval g
      let s := d.2.modGroom g (fun y => { y with sampleLeft := d.1 })
      let dom := fld c 34 34
      let i := fld c 33 30
      if s.tmValid dom i then
        s.tmWrite dom i [[tmHead 2 0 1 (.stall g.s) false g.g.val, s.nt,
          mkWord 64 [(63, 42, r.ctx), (41, 24, r.pc), (23, 22, r.ref.kind), (12, 0, r.budget)],
          mkWord 64 [(63, 32, r.ref.psn), (31, 0, w.toNat)], 0, 0, 0, 0]]
      else s

/-- An instruction begins execution: it counts against the budget and in INSTR (R333, R476). -/
def State.beginInstr (s : State) (g : GroomId) (r : Run) (w : BitVec 32) : State :=
  let s := s.modRun g (fun r => { r with budget := r.budget - 1 })
  (s.pmG g 0x0101 r.ctx 1).sample g { r with budget := r.budget - 1 } w

/-- Whether a run can execute its next instruction. -/
def Run.live (r : Run) : Bool := !r.halted && r.exc.isNone && decide (r.wait = .none)

/-- One instruction of a Groom (R333, R336): nothing happens where the Groom has no run that can
execute, where `w` is not the instruction at the pc, or where the instruction must wait (`waits`);
else the budget, the fetch and the encoding are checked, and `k` performs it. An instruction that must wait has the store
buffer drained. -/
def State.instr (s : State) (g : GroomId) (w : BitVec 32) (waits : Run → State → Bool) (k : Run → State → State) : State :=
  match (s.groom g).run with
  | none => s
  | some r0 =>
    if s.frozen (.stall g.s) || s.tack.stopping || !r0.live then s
    else
      let r := s.latchTimer r0
      let s := s.modRun g (fun _ => r)
      if r.budget = 0 then s.raise g 11 0 0
      else if r.pages * 1024 ≤ r.pc then (s.modRun g (fun r => { r with budget := r.budget - 1 })).raise g 5 0 0
      else
        let f := s.fetchWord r
        if !majorOk (fld f 31 26) then (s.beginInstr g r f).raise g 1 0 0
        else if f ≠ w then s
        else if waits r s then
          let s := s.drainStores 17 g
          match (s.groom g).run with
          | none => s
          | some r => if waits r s then s else k { r with budget := r.budget - 1 } (s.beginInstr g r f)
        else k { r with budget := r.budget - 1 } (s.beginInstr g r f)

/-- No instruction of this kind waits. -/
def noWait (_ : Run) (_ : State) : Bool := false

/-- An instruction that writes one register and goes on. -/
def State.writeReg (s : State) (g : GroomId) (rd : BitVec 5) (v : Word) : State :=
  s.modRun g (fun r => (r.put rd v).step)

end Sys2Proof.Machine
end

