-- ==== Sys2Proof/Decode.lean ====
section
/-! DEFINITION. The words that spell commands. The table gives its rows no bits: no word of it spells one. The
instructions of a Groom are the commands to which the spec itself gives words (R335): the word of each, and the
instruction that a word is read as. -/

namespace Sys2Proof

open Machine

/-- No row of the table has bits. -/
def decodeTableWord (_nbits _w : Nat) : Option Instr := none

/-- The word of a Groom's instruction (R335, R336); none for the commands that are no instructions. -/
def groomWord : Instr → Option (BitVec 32)
  | .alu _ rd rs1 rs2 fn => some (encR 0x00 rd rs1 rs2 fn)
  | .addi _ rd rs1 imm => some (encI 0x01 rd rs1 imm)
  | .andi _ rd rs1 imm => some (encI 0x02 rd rs1 imm)
  | .ori _ rd rs1 imm => some (encI 0x03 rd rs1 imm)
  | .xori _ rd rs1 imm => some (encI 0x04 rd rs1 imm)
  | .slti _ rd rs1 imm => some (encI 0x05 rd rs1 imm)
  | .sltiu _ rd rs1 imm => some (encI 0x06 rd rs1 imm)
  | .shi _ rd rs1 imm => some (encI 0x07 rd rs1 imm)
  | .lui _ rd rs1 imm => some (encI 0x08 rd rs1 imm)
  | .shori _ rd rs1 imm => some (encI 0x09 rd rs1 imm)
  | .ld _ r base size mark off => some (encM 0x10 r base size mark off)
  | .st _ r base size mark off => some (encM 0x11 r base size mark off)
  | .ldv _ r base size mark off => some (encM 0x12 r base size mark off)
  | .stv _ r base size mark off => some (encM 0x13 r base size mark off)
  | .amol _ rd rs1 rs2 fn => some (encR 0x14 rd rs1 rs2 fn)
  | .hamo _ rd rs1 rs2 fn => some (encR 0x15 rd rs1 rs2 fn)
  | .hlock _ rd rs1 imm => some (encI 0x16 rd rs1 imm)
  | .hunlock _ rd rs1 imm => some (encI 0x17 rd rs1 imm)
  | .beq _ rs1 rs2 off => some (encI 0x18 rs1 rs2 off)
  | .bne _ rs1 rs2 off => some (encI 0x19 rs1 rs2 off)
  | .blt _ rs1 rs2 off => some (encI 0x1A rs1 rs2 off)
  | .bge _ rs1 rs2 off => some (encI 0x1B rs1 rs2 off)
  | .bltu _ rs1 rs2 off => some (encI 0x1C rs1 rs2 off)
  | .bgeu _ rs1 rs2 off => some (encI 0x1D rs1 rs2 off)
  | .jal _ off => some (encJ 0x1E off)
  | .jalr _ rd rs1 imm => some (encI 0x1F rd rs1 imm)
  | .issue _ rd rs1 imm => some (encI 0x30 rd rs1 imm)
  | .wfe _ rd rs1 imm => some (encI 0x31 rd rs1 imm)
  | .signal _ rd rs1 imm => some (encI 0x32 rd rs1 imm)
  | .fence _ rd rs1 imm => some (encI 0x33 rd rs1 imm)
  | .csrr _ rd rs1 imm => some (encI 0x34 rd rs1 imm)
  | .csrw _ rd rs1 imm => some (encI 0x35 rd rs1 imm)
  | .halt _ rd rs1 imm => some (encI 0x3F rd rs1 imm)
  | _ => none

/-- The bits [hi:lo] of an instruction word, as an operand of `n` bits. -/
def wordField (n : Nat) (w : BitVec 32) (lo : Nat) : BitVec n := BitVec.ofNat n (w.toNat / 2 ^ lo)

/-- The instruction that Groom `g` reads from a word (R335, R336): none where its major opcode is reserved. Fields whose
values are reserved are the instruction's to refuse: it raises ILLEGAL. -/
def groomDecode (g : GroomId) (w : BitVec 32) : Option Instr :=
  let rd := wordField 5 w 21
  let rs1 := wordField 5 w 16
  let rs2 := wordField 5 w 11
  let fn := wordField 11 w 0
  let imm := wordField 16 w 0
  let size := wordField 2 w 14
  let mark := wordField 2 w 12
  let off := wordField 12 w 0
  match fld w 31 26 with
  | 0x00 => some (.alu g rd rs1 rs2 fn)
  | 0x01 => some (.addi g rd rs1 imm)
  | 0x02 => some (.andi g rd rs1 imm)
  | 0x03 => some (.ori g rd rs1 imm)
  | 0x04 => some (.xori g rd rs1 imm)
  | 0x05 => some (.slti g rd rs1 imm)
  | 0x06 => some (.sltiu g rd rs1 imm)
  | 0x07 => some (.shi g rd rs1 imm)
  | 0x08 => some (.lui g rd rs1 imm)
  | 0x09 => some (.shori g rd rs1 imm)
  | 0x10 => some (.ld g rd rs1 size mark off)
  | 0x11 => some (.st g rd rs1 size mark off)
  | 0x12 => some (.ldv g rd rs1 size mark off)
  | 0x13 => some (.stv g rd rs1 size mark off)
  | 0x14 => some (.amol g rd rs1 rs2 fn)
  | 0x15 => some (.hamo g rd rs1 rs2 fn)
  | 0x16 => some (.hlock g rd rs1 imm)
  | 0x17 => some (.hunlock g rd rs1 imm)
  | 0x18 => some (.beq g rd rs1 imm)
  | 0x19 => some (.bne g rd rs1 imm)
  | 0x1A => some (.blt g rd rs1 imm)
  | 0x1B => some (.bge g rd rs1 imm)
  | 0x1C => some (.bltu g rd rs1 imm)
  | 0x1D => some (.bgeu g rd rs1 imm)
  | 0x1E => some (.jal g (wordField 26 w 0))
  | 0x1F => some (.jalr g rd rs1 imm)
  | 0x30 => some (.issue g rd rs1 imm)
  | 0x31 => some (.wfe g rd rs1 imm)
  | 0x32 => some (.signal g rd rs1 imm)
  | 0x33 => some (.fence g rd rs1 imm)
  | 0x34 => some (.csrr g rd rs1 imm)
  | 0x35 => some (.csrw g rd rs1 imm)
  | 0x3F => some (.halt g rd rs1 imm)
  | _ => none

end Sys2Proof
end

