-- ==== Sys2Proof/Machine/Rma.lean ====
section
/-! DEFINITION. The initiator's side of end-to-end delivery (chapter 10): flows and their opening
(R262, R263), what a flow may send (R266), resolution, congestion control (R283, R284),
retransmission (R280, R281), and the ends of commands that move data. -/

namespace Sys2Proof.Machine

/-- An initiator flow changed. -/
def State.modIfl (s : State) (f : Nat) (g : IFlow → IFlow) : State :=
  match tFind s.ifl f with
  | some x => { s with ifl := tPut f (g x) s.ifl }
  | none => s

/-- A target flow changed. -/
def State.modTfl (s : State) (f : Nat) (g : TFlow → TFlow) : State :=
  match tFind s.tfl f with
  | some x => { s with tfl := tPut f (g x) s.tfl }
  | none => s

/-- The initiator flow that an answer belongs to: by context, peer context and the peer chip's
coordinates (R261, R262). A refusal made for no context carries other H and F. -/
def State.answerIfl (s : State) (p : Pkt) : Option Nat :=
  match s.findIfl (Pkt.dctx p) (Pkt.srcFa p) (Pkt.sctx p) with
  | some f => some f
  | none => (s.ifl.find? (fun e => e.2.ctx = Pkt.dctx p ∧ e.2.peerFa / 256 = Pkt.srcFa p / 256 ∧
      e.2.peerCtx = Pkt.sctx p)).map (fun e => e.1)

/-- The free flow records of a context's home domain raised or lowered (R288); what waits for a record is tried again
(R263). -/
def State.flowTake (s : State) (c : Nat) : State :=
  let r := Reg.flowPool (domOf (s.ctxDom c))
  s.wf r 63 40 (s.rf r 63 40 - 1)
def State.flowGive (s : State) (c : Nat) : State :=
  let r := Reg.flowPool (domOf (s.ctxDom c))
  let s := s.wf r 63 40 (s.rf r 63 40 + 1)
  if s.due = [] then s else s.push .due

/-- RMA_CTRL of a context's home domain (R288). -/
def State.rmaCtrlOf (s : State) (c : Nat) : Word := s.reg (.rmaCtrl (domOf (s.ctxDom c)))

/-- Fields of RMA_CTRL (R288). -/
def ctlRetry (w : Word) : Nat := fld w 63 60
def ctlInit (w : Word) : Nat := 4096 * fld w 59 51
def ctlMax (w : Word) : Nat := 4096 * fld w 50 42
def ctlMargin (w : Word) : Nat := fld w 41 28
def ctlRto (w : Word) : Nat := fld w 27 18
def ctlIdle (w : Word) : Nat := us (100000 * fld w 17 12)
def ctlAckDelay (w : Word) : Nat := ns (4 * fld w 11 4)
def ctlCc (w : Word) : Bool := bit w 3

/-- A flow to a peer: the one that exists, or a new one with a start PSN from the random source
(R263); none where no record can be had. -/
def State.flowTo (s : State) (c fa pc : Nat) : Option Nat × State :=
  match s.findIfl c fa pc with
  | some f => (some f, s)
  | none =>
    if s.flowRoom c then
      let r := s.random
      let s := r.2
      let psn := r.1.toNat % 2 ^ 32
      let w := s.reg (.rmaCtrl (domOf (s.ctxDom c)))
      let f := s.serial
      let x : IFlow := { ctx := c, peerFa := fa, peerCtx := pc, start := psn, next := psn, nextMsn := 0, est := false,
                         opened := false, ctrl := w, cwnd := if ctlCc w then ctlInit w else ctlMax w,
                         baseRtt := none, lastDec := none, outst := [], queue := [], lastUse := s.clk }
      (some f, ({ s with ifl := tPut f x s.ifl, serial := s.serial + 1 }).flowTake c)
    else (none, s)

/-! ### Items -/

/-- An item with nothing set. -/
def SendItem.blank (opc tc : Nat) (adapt : Bool) : SendItem :=
  { op := none, me := none, opc := opc, tc := tc, adapt := adapt, ordered := false, addr := 0, key := 0, local_ := 0,
    tag := 0, mlen := 0, moff := 0, msn := none, firstPsn := none, inline_ := none, data := none,
    reading := false, payload := [], sent := 0, ended := false }

/-- Whether an item carries a message's payload (PUT, or an eager SEND). -/
def SendItem.carries (i : SendItem) : Bool := (i.opc = 1 || i.opc = 6) && i.payload = []

/-- Bytes that the next packet of an item moves (R261, R276). -/
def SendItem.chunk (i : SendItem) : Nat :=
  if i.carries then min 4096 (i.mlen - i.moff)
  else if i.opc = 2 then min 65536 (i.mlen - i.moff)
  else 0

/-- Bytes in flight that the next packet adds (R266, R283): an RTS carries one payload flit. -/
def SendItem.weight (i : SendItem) : Nat :=
  if i.opc = 4 || i.opc = 0x18 || (i.opc = 6 && i.payload ≠ []) then 64 else i.chunk

/-- An item given the payload of its next packet: from the entry, or by a read of the local buffer
(R266); one use for each packet (R224). -/
def State.feedItem (s : State) (f : Nat) (i : SendItem) : SendItem × State :=
  if !i.carries || i.data.isSome || i.reading then (i, s)
  else if i.chunk = 0 then ({ i with data := some [] }, s)
  else match i.inline_, i.op with
    | some bs, _ => ({ i with data := some ((bs.drop i.moff).take i.chunk) }, s)
    | none, some op =>
      match tFind s.ops op with
      | some o => ({ i with reading := true },
          s.startXfer (mkXfer o.stall o.ctx 0 0 false false (.cmdSrc f op) (i.local_ + i.moff) i.chunk []))
      | none => (i, s)
    | none, none => (i, s)

/-- An item queued on a flow. -/
def State.enqueue (s : State) (f : Nat) (i : SendItem) : State :=
  let r := s.feedItem f i
  r.2.modIfl f (fun x => { x with queue := x.queue ++ [r.1] })

/-- An item queued on a flow of a context to a peer, or kept until a record can be had (R252, R263). -/
def State.enqueueTo (s : State) (c fa pc : Nat) (i : SendItem) : State :=
  match s.flowTo c fa pc with
  | (some f, s) => s.enqueue f i
  | (none, s) => { s with due := s.due ++ [⟨c, fa, pc, i⟩] }

/-- The items that wait for a flow record tried again, in their order. -/
def State.retryDue (s : State) : State := s.due.foldl (fun t d => t.enqueueTo d.ctx d.fa d.pc d.item) { s with due := [] }

/-- A command that moves data completes once nothing of it is queued, outstanding or being
written (R266, R275, R276), and no finish is awaited (R251). -/
def State.settleCmd (s : State) (op : Nat) : State :=
  match tFind s.ops op with
  | none => s
  | some o =>
    let busy := s.ifl.any (fun e => e.2.queue.any (fun i => i.op = some op) || e.2.outst.any (fun x => x.op = some op))
    if o.performed && !busy && o.left = 0 && o.aux = 0 then s.done op o.status o.detail else s

/-- The first failure of a command kept. -/
def State.noteFail (s : State) (op status detail : Nat) : State :=
  s.modOp op (fun o => if o.status = 0 then { o with status := status, detail := detail } else o)

/-- A command ends at once with a failure: what it has queued is dropped, what it has outstanding
no longer belongs to it. -/
def State.cutCmd (s : State) (op status detail : Nat) : State :=
  let cut (x : IFlow) : IFlow :=
    { x with queue := x.queue.filter (fun i => i.op ≠ some op),
             outst := x.outst.map (fun o => if o.op = some op then { o with op := none } else o) }
  let s := { s with ifl := s.ifl.map (fun (e : Nat × IFlow) => (e.1, cut e.2)) }
  s.done op status detail

/-- The MSG_ABORT of a PUT or SEND some of whose packets have been sent (R264, R282): with the message's MSN for a SEND, and for
a PUT with the one that the next SEND will take when it is sent (R261). -/
def SendItem.abort (i : SendItem) : Option SendItem :=
  if i.opc = 1 || i.opc = 6 then
    i.firstPsn.map (fun p => { SendItem.blank 0x18 i.tc i.adapt with tag := 0x04 * 2 ^ 56 + p, msn := if i.opc = 6 then i.msn else none })
  else none

/-- An abandoned message (R282): MSG_ABORT follows where some of its packets have been sent, and
the command completes with the status of the failure. -/
def State.abandon (s : State) (f op status detail : Nat) : State :=
  match tFind s.ifl f with
  | none => s.cutCmd op status detail
  | some x =>
    let s1 := match (x.queue.find? (fun i => i.op = some op)).bind SendItem.abort with
      | some e => s.modIfl f (fun x => { x with queue := x.queue ++ [e] })
      | none => s
    s1.cutCmd op status detail

/-! ### In flight and the gates of R266 -/

/-- Bytes in flight of a flow (R283). -/
def IFlow.inFlight (x : IFlow) : Nat := (x.outst.map (fun o => o.bytes)).sum

/-- Distance of the next PSN above the oldest outstanding one. -/
def IFlow.ahead (x : IFlow) : Nat :=
  (x.outst.map (fun o => dist 32 x.next o.psn)).foldl max 0

/-- Whether the next packet of an item may be sent (R266). -/
def IFlow.maySend (x : IFlow) (i : SendItem) : Bool :=
  (decide (x.outst = []) || decide (x.inFlight = 0) || decide (x.inFlight + i.weight ≤ x.cwnd)) &&
    decide (x.ahead ≤ 255) &&
    (decide (i.opc ≠ 4) || decide ((x.outst.filter (fun o => o.opc = 4)).length < 16)) &&
    (!i.carries || i.data.isSome)

/-- The oldest PSN whose ATOMIC_RSP is awaited, or the next PSN (R277). -/
def IFlow.rspFloor (x : IFlow) : Nat :=
  match x.outst.filter (fun o => o.opc = 4) with
  | [] => x.next
  | o :: os => os.foldl (fun p q => if atOrAbove 32 p q.psn then q.psn else p) o.psn

/-- A packet sent on a flow and kept outstanding (R266). -/
def State.sendOn (s : State) (f : Nat) (stall : Nat) (p : Pkt) (o : Outst) : State :=
  let q := s.stamp p
  let o := { o with pkt := q, tsl := Pkt.tsl q, lastTx := s.clk }
  (s.modIfl f (fun x => { x with outst := x.outst ++ [o], lastUse := s.clk })).injectPkt stall q

/-- An outstanding PSN with nothing set. -/
def Outst.blank (psn opc : Nat) : Outst :=
  { psn := psn, opc := opc, op := none, me := none, bytes := 0, pkt := [], lastTx := 0, sends := 1, acked := false,
    local_ := 0, moff := 0, len := 0, pieces := [], writing := 0, tsl := 0, gap := false,
    nackAt := none }

/-- FLOW_OPEN sent (R263): a sequenced EVENT with the start PSN, MSN 0 and ACKREQ 1. -/
def State.sendOpen (s : State) (f : Nat) (x : IFlow) : State :=
  let i := x.queue.headD (SendItem.blank 0x18 0 false)
  let src := s.ctxFa x.ctx
  let p := buildPkt x.peerFa src i.tc 1 false i.adapt (flowHash src x.peerFa x.ctx x.peerCtx)
    [(383, 376, 0x18), (373, 373, 1), (371, 350, x.ctx), (349, 328, x.peerCtx), (327, 296, x.start),
     (207, 144, 0x01 * 2 ^ 56)] []
  let s := s.modIfl f (fun x => { x with opened := true, next := wrap 32 (x.start + 1) })
  s.sendOn f (s.ctxStall x.ctx) p { Outst.blank x.start 0x18 with bytes := 64 }

/-- The stall whose send engine sends an item. -/
def State.itemStall (s : State) (x : IFlow) (i : SendItem) : Nat :=
  match i.op with
  | some op => match tFind s.ops op with
    | some o => o.stall
    | none => s.ctxStall x.ctx
  | none => s.ctxStall x.ctx

/-- The next packet of a flow's first item sent (R260, R261, R266, R267). -/
def State.sendItem (s : State) (f : Nat) (x : IFlow) (i : SendItem) (rest : List SendItem) : State :=
  let psn := x.next
  let n := i.chunk
  let isSend := i.opc = 6
  let msn := match i.msn with | some m => m | none => x.nextMsn
  let takesMsn := isSend && i.msn.isNone
  let rts := isSend && i.payload ≠ []
  let lastPkt := rts || ((i.opc = 1 || isSend) && i.moff + n = i.mlen)
  let ends := lastPkt || i.opc = 4 || i.opc = 0x18 || (i.opc = 2 && i.mlen ≤ i.moff + n)
  let full := decide (x.cwnd ≤ x.inFlight + i.weight)
  let flagged := i.ordered || (i.opc = 1 && lastPkt) || (isSend && lastPkt)
  let src := s.ctxFa x.ctx
  let floor := x.rspFloor
  let pay := if i.opc = 4 then (i.payload.take 16) ++ beBytes 4 floor else if rts then i.payload else (i.data.getD [])
  let pay := if i.opc = 4 || rts then pay ++ List.replicate (64 - pay.length) 0 else pay
  let th := [(383, 376, i.opc), (375, 375, b2n lastPkt), (373, 373, b2n (lastPkt || full)), (371, 350, x.ctx),
    (349, 328, x.peerCtx), (327, 296, psn), (295, 272, msn),
    (271, 240, if rts then 0xFFFFFFFF else i.moff),
    (239, 208, if i.opc = 2 then n else i.mlen), (207, 144, i.tag), (143, 112, i.key),
    (111, 48, if i.opc = 2 then i.addr + i.moff else i.addr)]
  let p := buildPkt x.peerFa src i.tc 1 flagged i.adapt (flowHash src x.peerFa x.ctx x.peerCtx) th pay
  let o := { Outst.blank psn i.opc with op := i.op, me := i.me, bytes := i.weight, local_ := i.local_ + i.moff,
                                        moff := i.moff, len := n }
  let i1 := { i with moff := i.moff + n, msn := some msn, firstPsn := some (i.firstPsn.getD psn), data := none,
                     sent := i.sent + 1 }
  let stall := s.itemStall x i
  let s := s.modIfl f (fun x => { x with next := wrap 32 (psn + 1),
                                         nextMsn := if takesMsn then wrap 24 (x.nextMsn + 1) else x.nextMsn })
  let s := match i.op with
    | some op => s.modOp op (fun o => if o.aux ≠ 0 then { o with peer := some (x.peerFa, x.peerCtx, msn) } else o)
    | none => s
  let s := s.sendOn f stall p o
  if ends then s.modIfl f (fun x => { x with queue := rest })
  else
    let r := s.feedItem f i1
    r.2.modIfl f (fun x => { x with queue := r.1 :: rest })

/-- PACKET_INJECT: the flow is opened, or its next packet is sent where R266 allows it. -/
def doPacketInject (f : Nat) (s : State) : State :=
  match tFind s.ifl f with
  | none => s
  | some x =>
    if !s.domRuns (s.ctxDom x.ctx) then s
    else match x.queue with
    | [] => s
    | i :: rest =>
      if !x.opened then s.sendOpen f x
      else if !x.est || !x.maySend i then s
      else s.sendItem f x i rest

/-! ### Ends of flows -/

/-- A flow record discarded (R263, R265, R281). -/
def State.dropIfl (s : State) (f : Nat) : State :=
  match tFind s.ifl f with
  | none => s
  | some x => { s with ifl := tDel f s.ifl }.flowGive x.ctx

/-- The commands that have a packet outstanding on a flow. -/
def IFlow.sentOps (x : IFlow) : List Nat := (x.outst.filterMap (fun o => o.op)).dedup

/-- The commands that wait on a flow. -/
def IFlow.allOps (x : IFlow) : List Nat := (x.sentOps ++ x.queue.filterMap (fun i => i.op)).dedup

/-- The receives whose rendezvous read is on a flow. -/
def IFlow.allMes (x : IFlow) : List Nat := (x.outst.filterMap (fun o => o.me) ++ x.queue.filterMap (fun i => i.me)).dedup

end Sys2Proof.Machine
end

