-- ==== Sys2Proof/Machine/Match.lean ====
section
/-! DEFINITION. Message matching (chapter 09): the match rule (R230), posting (R236), choosing a
receive (R239), unexpected messages (R247, R248), completion of receives (R245, R246), rendezvous
(R250 to R252), probes (R253) and the removal of receives (R254, R255). -/

namespace Sys2Proof.Machine

/-- A match entry changed. -/
def State.modMe (s : State) (m : Nat) (f : Me → Me) : State :=
  match tFind s.mes m with
  | some x => { s with mes := tPut m (f x) s.mes }
  | none => s

/-- Whether a receive with source `r`, tag `t` and mask `m` accepts a message from rank `sr` with
tag `u` (R230). -/
def accepts (r t m sr u : Nat) : Bool :=
  (r = 0xFFFFFFFF || r = sr) && ((BitVec.ofNat 64 t ^^^ BitVec.ofNat 64 u) &&& ~~~(BitVec.ofNat 64 m)) = 0

/-- Free match entries of a domain raised or lowered (R257). -/
def State.meFree (s : State) (c : Nat) (give : Bool) : State :=
  let r := Reg.mtPool (domOf (s.ctxDom c))
  s.wf r 63 38 (if give then s.rf r 63 38 + 1 else s.rf r 63 38 - 1)

/-- The places that the entries of a context's home domain hold in their share: of UNEXPECTED records, or of posted and
bound receives (R235). -/
def State.slots (s : State) (c : Nat) (ux : Bool) : List Nat :=
  (s.mes.filter (fun e => s.ctxDom e.2.ctx = s.ctxDom c && (decide (e.2.kind = 3) == ux))).map (fun e => e.2.slot)

/-- The lowest number that a list lacks. -/
def lowestFree (l : List Nat) : Nat := ((List.range (l.length + 1)).find? (fun n => !l.contains n)).getD 0

/-- Whether an UNEXPECTED record at a place needs a block of the unexpected-buffer share of its own: a block holds 64
records (log entry 119). -/
def State.newBlock (s : State) (c slot : Nat) : Bool := (s.slots c true).all (fun n => n / 64 ≠ slot / 64)

/-- Blocks of the unexpected-buffer share of a context's home domain. -/
def State.uxShare (s : State) (c : Nat) : Nat := (s.share (s.ctxDom c) 5).2 / 4096

/-- The blocks that messages of a context's home domain hold. -/
def State.msgBlocks (s : State) (c : Nat) : List Nat :=
  (s.mes.filter (fun e => s.ctxDom e.2.ctx = s.ctxDom c)).flatMap (fun e => e.2.blocks)

/-- The lowest place for an UNEXPECTED record, counted from the end of the share, that is free and lies in no message's block
(log entry 119). -/
def State.uxSlot (s : State) (c : Nat) : Nat :=
  let used := s.slots c true
  let held := s.msgBlocks c
  ((List.range (used.length + 64 * held.length + 1)).find?
    (fun n => !used.contains n && !held.contains (s.uxShare c - 1 - n / 64))).getD 0

/-- The `n` lowest blocks that hold neither a message nor records (log entry 119). -/
def State.pickBlocks (s : State) (c n : Nat) : List Nat :=
  let held := s.msgBlocks c ++ (s.slots c true).map (fun k => s.uxShare c - 1 - k / 64)
  ((List.range (n + held.length)).filter (fun b => !held.contains b)).take n

/-- Unexpected-buffer blocks taken by a context or given back (R247, R257). -/
def State.uxTake (s : State) (c n : Nat) : State :=
  let r := Reg.mtPool (domOf (s.ctxDom c))
  (s.wf r 37 16 (s.rf r 37 16 - n)).modCtx c (fun x => { x with uxBlocks := x.uxBlocks + n })
def State.uxGive (s : State) (c n : Nat) : State :=
  let r := Reg.mtPool (domOf (s.ctxDom c))
  (s.wf r 37 16 (s.rf r 37 16 + n)).modCtx c (fun x => { x with uxBlocks := x.uxBlocks - n })

/-- A block that holds UNEXPECTED records taken, or given back; it is not charged to a context. -/
def State.uxRecord (s : State) (c : Nat) (give : Bool) : State :=
  let r := Reg.mtPool (domOf (s.ctxDom c))
  s.wf r 37 16 (if give then s.rf r 37 16 + 1 else s.rf r 37 16 - 1)

/-- Whether a context can hold `n` more unexpected-buffer blocks (R248). -/
def State.uxRoom (s : State) (c n : Nat) : Bool :=
  match s.ctx? c with
  | none => false
  | some x => decide (x.uxBlocks + n ≤ fld (s.ctxWord c 9) 31 0) &&
      decide (n ≤ s.rf (.mtPool (domOf (s.ctxDom c))) 37 16)

/-- The unexpected records of a context. -/
def State.uxMsgs (s : State) (c : Nat) : Nat := (s.mes.filter (fun e => e.2.ctx = c ∧ e.2.kind = 3)).length

/-- A discard under R241 or R248 reported, at most once in any 100 µs for a context (R249). -/
def State.uxReport (s : State) (c : Nat) : State :=
  let s := s.modCtx c (fun x => { x with uxDropped := x.uxDropped + 1 })
  match s.ctx? c with
  | none => s
  | some x =>
    if x.uxEventAt.all (fun t => decide (t + us 100 ≤ s.clk)) then
      let s := s.modCtx c (fun x => { x with uxDropped := 0, uxEventAt := some s.clk })
      s.postCtx c 0x0501 [(2, 63, 40, s.uxMsgs c), (2, 31, 0, x.uxBlocks), (3, 31, 0, x.uxDropped)]
    else s

/-- A discard for unexpected limits, counted and reported; one of R248 (`full`) is noted too (R249, R257). -/
def State.uxDiscard (s : State) (c : Nat) (full : Bool) : State :=
  let st := stallOf (s.ctxStall c)
  let s := s.bump (.mtCount st) 47 32 1
  (if full then s.wb (.mtStatus st) 0 true else s).uxReport c

/-- A packet beyond the hold window discarded (R241, R249). -/
def State.windowDiscard (s : State) (c : Nat) : State := (s.bump (.mtCount (stallOf (s.ctxStall c))) 63 48 1).uxReport c

/-- The slot address of a RECV_POST or PROBE entry's word `i`, where it has an entry of its own. -/
def State.entryAddr (s : State) (o : Op) (i : Nat) : Option Nat :=
  match o.src, tFind s.cqs o.queue with
  | .entry, some c => some (c.slotAddr o.count + 8 * i)
  | _, _ => none

/-- A match entry is freed, with its blocks. -/
def State.freeMe (s : State) (m : Nat) : State :=
  match tFind s.mes m with
  | none => s
  | some x =>
    let s := { s with mes := tDel m s.mes }
    let s := if x.blocks ≠ [] then s.uxGive x.ctx x.blocks.length else s
    if x.kind = 1 ∨ x.kind = 2 then s.meFree x.ctx true
    else if x.kind = 3 && s.newBlock x.ctx x.slot then s.uxRecord x.ctx true
    else s

/-- Bytes of a receive that were delivered (R245). -/
def Me.delivered (x : Me) : Nat := min x.mlen x.bufLen

/-- The receive result and the completion of a receive (R245, R246). A receive that completes with a failure has words 3 to 5
written too, with `delivered` of R245 (DESIGN CHOICE: R246 does not say; log entry 180). -/
def State.recvEnds (s : State) (m : Nat) (status detail : Nat) : State :=
  match tFind s.mes m with
  | none => s
  | some x =>
    let s := s.freeMe m
    if x.discard then s
    else match tFind s.ops x.op with
    | none => s
    | some o =>
      let ws := leBytes 8 (x.rank * 2 ^ 32 + x.mlen) ++ leBytes 8 x.tag ++ leBytes 8 x.delivered
      let wr := match s.entryAddr o 3 with
        | some a => [(a, ws)]
        | none => []
      s.endOp x.op status detail wr

/-- Place of a failure in the table of R246, whose first that applies a receive completes with. -/
def failRank (status : Nat) : Nat :=
  match status with
  | 9 => 1
  | 0x0A => 2
  | 0x0B => 3
  | _ => 0

/-- A receive with a failure of its message: the first of R246 is kept, and of one kind the earliest. -/
def Me.fail (x : Me) (status detail : Nat) : Me :=
  if status = 0 then x
  else if x.status = 0 ∨ failRank status < failRank x.status then { x with status := status, detail := detail } else x

/-- A receive ends with a failure, or with one that comes before it in the table of R246. -/
def State.recvFails (s : State) (m status detail : Nat) : State :=
  let s := s.modMe m (fun x => x.fail status detail)
  match tFind s.mes m with
  | none => s
  | some x => s.recvEnds m x.status x.detail

/-- The item of an EVENT (R264). -/
def eventItem (tag : Nat) (msn : Option Nat) (addr mlen tc : Nat) (adapt : Bool) : SendItem :=
  { SendItem.blank 0x18 tc adapt with tag := tag, msn := msn, addr := addr, mlen := mlen }

/-- The rendezvous finish (R251, R252): the message's MSN, its outcome and the refusal cause, on this chip's own flow to
the initiator, opened if need be (R264). -/
def State.sendFinish (s : State) (x : Me) (status cause : Nat) : State :=
  s.enqueueTo x.ctx x.srcFa x.sctx (eventItem (0x02 * 2 ^ 56 + status * 2 ^ 48 + cause * 2 ^ 40) (some x.msn) 0 0 x.tc x.adapt)

/-- Status and cause that a rendezvous finish carries (R252): the refusal cause of the read; a failure of the target's own
stands as a refusal, with TRANSLATION or LINK_DOWN (log entry 169). -/
def Me.outcome (x : Me) : Nat × Nat :=
  match x.status with
  | 0 => (0, 0)
  | 0x0A => (0x0A, x.detail)
  | 0x0B => (0x0B, 0)
  | 9 => (0x0A, 0x11)
  | _ => (0x0A, 0x07)

/-- A BOUND receive is over: a rendezvous is finished, and the receive completes with its failure, or with OK or TRUNCATED
(R245, R246, R251). -/
def State.recvOver (s : State) (m : Nat) : State :=
  match tFind s.mes m with
  | none => s
  | some x =>
    let s := if x.rndv then s.sendFinish x x.outcome.1 x.outcome.2 else s
    s.recvEnds m (if x.status ≠ 0 then x.status else if x.mlen ≤ x.bufLen then 0 else 0x0C) (if x.status ≠ 0 then x.detail else 0)

/-- A BOUND receive completes once its message's bytes have been counted or refused and every copy
has been written (R245 to R247, R251). -/
def State.recvCheck (s : State) (m : Nat) : State :=
  match tFind s.mes m with
  | none => s
  | some x =>
    let want := if x.rndv then x.delivered else x.mlen
    if x.kind = 2 && x.copying = 0 && decide (want ≤ x.counted + x.refused) then s.recvOver m else s

/-- The rendezvous read of a bound message: GET_REQs on this chip's own flow to the initiator for
the bytes the buffer holds, relaxed, with the TC and ADAPT of the RTS (R251). -/
def State.startRndv (s : State) (m : Nat) : State :=
  match tFind s.mes m with
  | none => s
  | some x =>
    if x.delivered = 0 then s.recvCheck m
    else
      let i := SendItem.blank 2 x.tc x.adapt
      s.enqueueTo x.ctx x.srcFa x.sctx { i with me := some m, addr := x.srcAddr, key := x.srcKey, local_ := x.buffer, mlen := x.delivered }

/-- Bytes held for an unexpected message are copied into the receive buffer that takes it, with
RELAXED writes, and the blocks are freed (R247). -/
def State.startCopy (s : State) (m : Nat) : State :=
  match tFind s.mes m with
  | none => s
  | some x =>
    let cuts := (x.ux.map (fun e => (e.1, e.2.take (x.bufLen - e.1)))).filter (fun e => e.2 ≠ [])
    let s := if x.blocks ≠ [] then s.uxGive x.ctx x.blocks.length else s
    let s := s.modMe m (fun x => { x with ux := [], blocks := [], copying := cuts.length })
    let s := cuts.foldl (fun t e =>
      t.startXfer (mkXfer (t.ctxStall x.ctx) x.ctx 1 0 true false (.uxCopy m) (x.buffer + e.1) e.2.length e.2)) s
    s.recvCheck m

/-- The class of a receive (R232). -/
def recvClass (r m : Nat) : Nat := if r = 0xFFFFFFFF then 2 else if m = 0 then 0 else 1

/-- An unexpected record becomes the message of a receive (R236, R247, R248, R251): its place is given up for one in the
match-entry share. -/
def State.takeUx (s : State) (m op : Nat) (ws : List Word) : State :=
  match tFind s.mes m with
  | none => s
  | some u =>
    let mask := (ws.getD 5 0).toNat
    let slot := lowestFree (s.slots u.ctx false)
    let s := s.modMe m (fun x => { x with
      kind := 2, cls := recvClass (fld (ws.getD 1 0) 63 32) mask, slot := slot, buffer := (ws.getD 2 0).toNat,
      bufLen := fld (ws.getD 3 0) 31 0, mask := mask, ct := cmdCt ws, op := op, hdrOnly := false })
    let s := s.meFree u.ctx false
    let s := if s.newBlock u.ctx u.slot then s.uxRecord u.ctx true else s
    if u.rndv then s.startRndv m else s.startCopy m

/-- The unexpected record that a receive or probe finds: the earliest to arrive that it accepts
(R240). -/
def State.findUx (s : State) (c r t m : Nat) : Option Nat :=
  let cand := s.mes.filter (fun e => e.2.ctx = c && e.2.kind = 3 && accepts r t m e.2.rank e.2.tag)
  (cand.foldl (fun (best : Option (Nat × Nat)) e =>
    match best with
    | none => some (e.1, e.2.seq)
    | some b => if atOrAbove 48 e.2.seq b.2 then some b else some (e.1, e.2.seq)) none).map (fun b => b.1)

/-- The posted receive that a message binds to: of those that accept it, the one with the lowest
posting sequence (R239). -/
def State.findPosted (s : State) (c sr u : Nat) : Option Nat :=
  let cand := s.mes.filter (fun e => e.2.ctx = c && e.2.kind = 1 && accepts e.2.rank e.2.tag e.2.mask sr u)
  (cand.foldl (fun (best : Option (Nat × Nat)) e =>
    match best with
    | none => some (e.1, e.2.seq)
    | some b => if atOrAbove 48 e.2.seq b.2 then some b else some (e.1, e.2.seq)) none).map (fun b => b.1)

/-- A match entry with nothing set. -/
def Me.blank (c kind : Nat) : Me :=
  { ctx := c, kind := kind, cls := 0, slot := 0, rndv := false, hdrOnly := false, rank := 0, tag := 0, mask := 0,
    seq := 0, buffer := 0, bufLen := 0, mlen := 0, tf := 0, srcFa := 0, sctx := 0, msn := 0, firstPsn := 0, ct := 0, counted := 0,
    refused := 0, op := 0, blocks := [], ux := [], copying := 0, status := 0, detail := 0, srcAddr := 0, srcKey := 0,
    tc := 0, adapt := false, discard := false }

/-- Whether the queue of a command is being destroyed. -/
def State.queueDying (s : State) (o : Op) : Bool :=
  match o.src, tFind s.cqs o.queue with
  | .groom _ _, _ => false
  | _, some c => c.dying
  | _, none => false

/-- A receive reaches the matching unit (R236): it is bound to a record that it accepts, or posted. Where it would be posted
for a queue that is being destroyed, it is removed at once (R255). -/
def State.postRecv (s : State) (op : Nat) (o : Op) : State :=
  let r := fld (o.words.getD 1 0) 63 32
  let t := (o.words.getD 4 0).toNat
  let m := (o.words.getD 5 0).toNat
  let s := s.pm (.stall (stallOf (s.ctxStall o.ctx))) 0x24 o.ctx 1
  match s.findUx o.ctx r t m with
  | some e => s.takeUx e op o.words
  | none =>
    match s.ctx? o.ctx with
    | none => s
    | some x =>
      if s.queueDying o then (s.endOp op 0x0F 0x01 []).bump (.mtCount (stallOf (s.ctxStall o.ctx))) 15 0 1
      else
        let id := s.serial
        let e := { Me.blank o.ctx 1 with
          cls := recvClass r m, slot := lowestFree (s.slots o.ctx false), rank := r, tag := t, mask := m, seq := x.postSeq,
          buffer := (o.words.getD 2 0).toNat, bufLen := fld (o.words.getD 3 0) 31 0, ct := cmdCt o.words, op := op }
        let s := { s with mes := tPut id e s.mes, serial := s.serial + 1 }
        (s.modCtx o.ctx (fun x => { x with postSeq := wrap 48 (x.postSeq + 1) })).meFree o.ctx false

/-- Source address and key of an RTS's payload flit (R250). -/
def rtsAddr (p : Pkt) : Nat := ofBe ((Pkt.payload p).take 8)
def rtsKey (p : Pkt) : Nat := ofBe (((Pkt.payload p).drop 8).take 4)

/-- Whether a SEND packet is a request-to-send (R250). -/
def Pkt.isRts (p : Pkt) : Bool := Pkt.opc p = 6 && Pkt.moff p = 0xFFFFFFFF

/-- First PSN of the message that a SEND packet belongs to (R275). -/
def Pkt.firstPsn (p : Pkt) : Nat := if Pkt.isRts p then Pkt.psn p else dist 32 (Pkt.psn p) (Pkt.moff p / 4096)

/-- An entry with what the first packet of a message to arrive says of the message. -/
def Me.withMsg (x : Me) (tf : Nat) (t : TFlow) (p : Pkt) : Me :=
  let rts := Pkt.isRts p
  { x with
    rank := Pkt.key p, tag := Pkt.tag p, mlen := Pkt.mlen p, tf := tf, srcFa := t.srcFa, sctx := t.sctx, msn := Pkt.msn p,
    firstPsn := Pkt.firstPsn p, rndv := rts, srcAddr := if rts then rtsAddr p else 0, srcKey := if rts then rtsKey p else 0,
    tc := Pkt.tc p, adapt := Pkt.adapt p }

/-- The message of a SEND packet is matched (R239, R247, R248): it binds to a receive, or becomes
unexpected; `none` where no record can be had. -/
def State.matchMsg (s : State) (tf : Nat) (t : TFlow) (p : Pkt) : Option (State × Nat) :=
  let c := t.dctx
  let s := s.pm (.stall (stallOf (s.ctxStall c))) 0x24 c 1
  let rts := Pkt.isRts p
  match s.findPosted c (Pkt.key p) (Pkt.tag p) with
  | some m =>
    let s := s.modMe m (fun x => { x.withMsg tf t p with kind := 2 })
    some (if rts then s.startRndv m else s, m)
  | none =>
    match s.ctx? c with
    | none => none
    | some x =>
      let slot := s.uxSlot c
      let need := s.newBlock c slot
      if fld (s.ctxWord c 10) 63 40 ≤ s.uxMsgs c || (need && s.rf (.mtPool (domOf (s.ctxDom c))) 37 16 = 0) then none
      else
        let s := if need then s.uxRecord c false else s
        let n := if rts then 0 else ceilDiv (Pkt.mlen p) 4096
        let room := s.uxRoom c n
        let id := s.serial
        let e := { (Me.blank c 3).withMsg tf t p with
          slot := slot, hdrOnly := rts || !room, seq := x.arrSeq }
        let e := { e with blocks := if room then { s with mes := tPut id e s.mes }.pickBlocks c n else [] }
        let s := { s with mes := tPut id e s.mes, serial := s.serial + 1 }.modCtx c (fun x => { x with arrSeq := wrap 48 (x.arrSeq + 1) })
        some (if room then s.uxTake c n else s, id)

/-- The entry of the message that a SEND packet belongs to, by flow and MSN (R242). -/
def State.findMsg (s : State) (tf msn : Nat) : Option Nat :=
  (s.mes.find? (fun e => e.2.tf = tf && e.2.msn = msn && (e.2.kind = 2 || e.2.kind = 3))).map (fun e => e.1)

/-- The eight words of a match entry (R235). `share` is where its domain's unexpected-buffer share begins. -/
def Me.words (x : Me) (share : Nat) : List Word :=
  let ux := decide (x.kind = 3)
  [mkWord 64 [(63, 61, x.kind), (60, 60, b2n x.rndv), (59, 59, b2n (ux && x.hdrOnly)), (58, 57, if ux then 0 else x.cls),
     (56, 56, b2n (decide (x.kind = 2) && decide (x.bufLen < x.mlen))), (53, 32, x.ctx), (31, 0, x.rank)],
   BitVec.ofNat 64 x.tag,
   BitVec.ofNat 64 (if ux then 0 else x.mask),
   mkWord 64 [(63, 16, x.seq)],
   BitVec.ofNat 64 (if !ux then x.buffer else if x.rndv then x.srcAddr else match x.blocks with | [] => 0 | b :: _ => share + 4096 * b),
   mkWord 64 [(63, 32, if !ux then x.bufLen else if x.rndv then x.srcKey else 0), (31, 0, if x.kind = 1 then 0 else x.mlen)],
   mkWord 64 [(63, 40, if x.kind = 1 then 0 else x.tf), (39, 16, if x.kind = 1 then 0 else x.msn), (15, 4, if ux then 0 else x.ct)],
   mkWord 64 [(63, 32, x.counted), (31, 0, if ux then 0 else x.op)]]

/-- Where a match entry stands (R235, log entry 119): posted and bound receives from the end of the match-entry share
downwards, UNEXPECTED records from the end of the unexpected-buffer share. -/
def State.meAddr (s : State) (x : Me) : Nat :=
  let sh := s.share (s.ctxDom x.ctx) (if x.kind = 3 then 5 else 3)
  sh.1 + sh.2 - 64 * (x.slot + 1)

/-- The word at a device address that is one of a match entry's, as it stands now. -/
def State.meWord (s : State) (a : Nat) : Option Word :=
  (s.mes.find? (fun e => decide (s.meAddr e.2 ≤ a ∧ a < s.meAddr e.2 + 64))).map (fun e =>
    (e.2.words (s.share (s.ctxDom e.2.ctx) 5).1).getD ((a - s.meAddr e.2) / 8) 0)

/-- Whether an address is the first of a match entry that is free (R235): in the match-entry share as many as MT_POOL counts
follow those that receives hold, and in a block that holds UNEXPECTED records every place that none takes. -/
def State.meFreeAt (s : State) (d a : Nat) : Bool :=
  let m := s.share d 3
  let u := s.share d 5
  let mine (ux : Bool) : List Nat :=
    (s.mes.filter (fun e => s.ctxDom e.2.ctx = d && (decide (e.2.kind = 3) == ux))).map (fun e => e.2.slot)
  let at_ (sh : Nat × Nat) : Nat := (sh.1 + sh.2 - a) / 64 - 1
  (decide (m.1 ≤ a ∧ a < m.1 + m.2 ∧ (m.1 + m.2 - a) % 64 = 0) && !(mine false).contains (at_ m) &&
    decide (at_ m < (mine false).length + s.rf (.mtPool (domOf d)) 63 38)) ||
  (decide (u.1 ≤ a ∧ a < u.1 + u.2 ∧ (u.1 + u.2 - a) % 64 = 0) && !(mine true).contains (at_ u) &&
    (mine true).any (fun k => k / 64 = at_ u / 64))

/-- The byte at a device address of a domain's unexpected-buffer share that a message holds there: each packet's payload at
its MOFF within the message's blocks (R247). -/
def State.uxByte (s : State) (d a : Nat) : Option Byte :=
  let sh := s.share d 5
  if a < sh.1 then none
  else
    let b := (a - sh.1) / 4096
    (s.mes.find? (fun e => s.ctxDom e.2.ctx = d && e.2.blocks.contains b)).bind (fun e =>
      let off := 4096 * e.2.blocks.idxOf b + (a - sh.1) % 4096
      (e.2.ux.find? (fun p => decide (p.1 ≤ off ∧ off < p.1 + p.2.length))).bind (fun p => p.2[off - p.1]?))

/-- The word at a device address of a share that the device keeps, as software reads it: a match entry's as it stands, the
bytes of unexpected messages, and elsewhere `f`, of which only a free entry's kind is known (R235, R247, log entry 119). -/
def State.keptWord (s : State) (a : Nat) (f : Word) : Word :=
  let d := domOfHbm a
  match s.meWord a with
  | some w => w
  | none =>
    if s.meFreeAt d a then setFld f 63 61 0
    else BitVec.ofNat 64 (ofLe ((List.range 8).map (fun j => (s.uxByte d (a + j)).getD (BitVec.ofNat 8 (fld f (8 * j + 7) (8 * j))))))

/-- PROBE (R253): one search; words 3 and 4 are written where a record is found. -/
def State.probeEnds (s : State) (op : Nat) (o : Op) : State :=
  let r := fld (o.words.getD 1 0) 63 32
  match s.findUx o.ctx r (o.words.getD 4 0).toNat (o.words.getD 5 0).toNat with
  | none => s.endOp op 0 0 []
  | some m =>
    match tFind s.mes m with
    | none => s.endOp op 0 0 []
    | some x =>
      let wr := match s.entryAddr o 3 with
        | some a => [(a, leBytes 8 (x.rank * 2 ^ 32 + x.mlen) ++ leBytes 8 x.tag)]
        | none => []
      s.endOp op 0 1 wr

/-- The POSTED receives of a queue's commands removed, each completing with ABORTED and detail
0x01 (R254, R255); `slot` selects one. Answers how many were removed. -/
def State.removePosted (s : State) (q : Nat) (slot : Option Nat) : State × Nat :=
  match tFind s.cqs q with
  | none => (s, 0)
  | some c =>
    let hit (e : Nat × Me) : Bool :=
      e.2.kind = 1 && (match tFind s.ops e.2.op with
        | some o => o.queue = q && (match slot with
          | some k => (match o.src with | .fired => o.count | _ => c.slot o.count) = k
          | none => true)
        | none => false)
    let sel := s.mes.filter hit
    (sel.foldl (fun t e =>
      ((t.freeMe e.1).endOp e.2.op 0x0F 0x01 []).bump (.mtCount (stallOf (t.ctxStall e.2.ctx))) 15 0 1) s, sel.length)

/-- MT_CANCEL (R254, R257): 1 where a POSTED receive was removed, else 2. -/
def doMtCancel (d : Dom) (queue slot : BitVec 20) (s : State) : State :=
  let r := Reg.mtCancel d
  let s := (s.wf r 60 41 queue.toNat).wf r 40 21 slot.toNat
  let home := match tFind s.cqs queue.toNat with
    | some c => decide (s.cqDom c = d.val)
    | none => false
  let t := if home then s.removePosted queue.toNat (some slot.toNat) else (s, 0)
  (t.1.wf r 62 61 (if t.2 = 0 then 2 else 1)).wb r 63 false

end Sys2Proof.Machine
end

