-- ==== Sys2Proof/Machine/Coll.lean ====
section
/-! DEFINITION. Collectives (chapter 11): contributions (R294, R295), streams and segments (R298 to
R302), combination and finish (R303 to R312), completion and failures (R313 to R316), and the
installation of groups (R291). -/

namespace Sys2Proof.Machine

/-- An instance changed. -/
def State.modInst (s : State) (h : Nat) (f : ClInst → ClInst) : State :=
  match tFind s.insts h with
  | some x => { s with insts := tPut h (f x) s.insts }
  | none => s

/-- A group's record changed. -/
def State.modGroup (s : State) (d g : Nat) (f : ClGroup → ClGroup) : State :=
  match tFind s.groups (grpKey d g) with
  | some x => { s with groups := tPut (grpKey d g) (f x) s.groups }
  | none => s

/-! ### Shape of a stream (R298, R299) -/

def ClInst.up (x : ClInst) : Nat := clUp x.op x.ty x.mode
def ClInst.down (x : ClInst) : Nat := clDown x.op x.ty

/-- Elements of one segment. -/
def ClInst.per (x : ClInst) : Nat := 4096 / x.up

/-- Segments of a stream: one where the count is 0. -/
def ClInst.nseg (x : ClInst) : Nat := max 1 (ceilDiv (x.count * x.up) 4096)

/-- Elements of segment `j`. -/
def ClInst.elems (x : ClInst) (j : Nat) : Nat := min x.per (x.count - j * x.per)

/-- Elements of `w` bytes as wire bytes (R4). -/
def wireBytes (w : Nat) (vs : List Nat) : List Byte := vs.flatMap (fun v => beBytes w v)

/-- The elements that wire bytes spell. -/
def wireElems (w n : Nat) (bs : List Byte) : List Nat := (List.range n).map (fun i => ofBe ((bs.drop (w * i)).take w))

/-! ### Instances -/

/-- An instance has ended (R315): packets for it are late from now on. -/
def ClGroup.close (r : ClGroup) (n : Nat) : ClGroup :=
  let ended := n :: r.ended
  let up := (List.range ended.length).foldl (fun f _ => if ended.contains f then f + 1 else f) r.floor
  { r with ended := ended.filter (fun k => up ≤ k), floor := up }

/-- An instance ends: its stream is freed. -/
def State.closeInst (s : State) (h : Nat) : State :=
  match tFind s.insts h with
  | none => s
  | some x => { s with insts := tDel h s.insts }.modGroup x.dom x.group (fun r => r.close x.n)

/-- What precedes a stream's end among the statuses of a member: its own failure, or what the result carries as far as it
has come (R313); 0 where nothing does. -/
def ClInst.found (x : ClInst) (m : ClIn) : Nat × Nat :=
  if m.status ≠ 0 then (m.status, m.detail)
  else if x.result.testBit 0 then (0x0D, 0)
  else if x.result.testBit 1 then (0x0A, 0x20)
  else (0, 0)

/-- The commands of the local members not yet completed, each with the status and detail that it completes with as the
stream is freed with `status`: its own, or the one that precedes it (R313, R315, R316). -/
def ClInst.losses (x : ClInst) (status : Nat) : List (Nat × Nat × Nat) :=
  x.members.filterMap (fun m =>
    let f := x.found m.2
    if m.2.ended then none else m.2.op.map (fun op => if f.1 ≠ 0 then (op, f.1, f.2) else (op, status, 0)))

/-- Every local member not yet completed completes, and the stream is freed. -/
def State.failInst (s : State) (h status : Nat) : State :=
  match tFind s.insts h with
  | none => s
  | some x => ((x.losses status).foldl (fun t e => t.done e.1 e.2.1 e.2.2) s).closeInst h

/-- Whether the whole result has been observed: what remains is its writing, to which an expiry or an abort loses
(R315, R316). -/
def ClInst.whole (x : ClInst) : Bool := decide (x.nseg ≤ x.downs.length)

/-- A mismatched input (R314): counted, and left out of the combination. -/
def State.noteMismatch (s : State) (e : Nat) : State :=
  (s.bump (.clCount (engineOf e)) 63 48 1).wb (.clStatus (engineOf e)) 3 true

/-- A new instance begins at its first input, which fixes its op, type, mode and count, and its timeout starts (R295,
R315). -/
def State.newInst (s : State) (d g n op ty mode count : Nat) : State × Nat :=
  match tFind s.groups (grpKey d g) with
  | none => (s, 0)
  | some r =>
    let h := s.serial
    let x : ClInst := { engine := r.engine, dom := d, group := g, n := n, op := op, ty := ty, mode := mode,
                        count := count, since := s.clk, next := 0, members := [], kids := [], flags := 0, result := 0, downs := [] }
    ({ s with insts := tPut h x s.insts, serial := s.serial + 1 }, h)

/-- Reads of a member's send buffer for the segments of the window (R297, R301). -/
def State.collReads (s : State) (h : Nat) : State :=
  match tFind s.insts h with
  | none => s
  | some x =>
    x.members.foldl (fun t m =>
      match m.2.op with
      | none => t
      | some op => match tFind t.ops op with
        | none => t
        | some o =>
          if m.2.out then t
          else
            let top := min x.nseg (x.next + 17)
            let es := clElem x.op x.ty
            let t := t.modInst h (fun x => { x with members := tMod {} m.1 (fun i => { i with asked := max i.asked top }) x.members })
            (List.range (top - m.2.asked)).foldl (fun t i =>
              let j := m.2.asked + i
              if x.elems j = 0 then
                t.modInst h (fun x => { x with members := tMod {} m.1 (fun i => { i with segs := tPut j [] i.segs }) x.members })
              else
                t.startXfer (mkXfer (t.ctxStall o.ctx) o.ctx 0 0 false false (.collSrc op j)
                  ((o.words.getD 2 0).toNat + j * x.per * es) (x.elems j * es) [])) t) s

/-! ### Packets (R299) -/

/-- A collective packet handed to the routing stage of the engine's stall (R135): it takes no part in a flow, so its
FLOW_HASH is 0 (R121, R268). -/
def State.collSend (s : State) (e dest vclass tc : Nat) (p : List (Nat × Nat × Nat)) (payload : List Byte) : State :=
  let src := s.coord * 256 + 31
  let d := dest * 256 + 31
  let q := s.stamp (buildPkt d src tc vclass false true 0 p payload)
  { s with inject := tMod [] (4 * (2 * e) + vclass) (· ++ [q]) s.inject }

/-- Transport fields common to both directions. -/
def State.collHdr (s : State) (x : ClInst) (opc flags moff mlen : Nat) (last repro : Bool) (sctx : Nat) :
    List (Nat × Nat × Nat) :=
  [(383, 376, opc), (375, 375, b2n last), (372, 372, b2n repro), (371, 350, sctx), (327, 296, flags),
   (295, 272, x.n % 2 ^ 24), (271, 240, moff), (239, 208, mlen), (207, 144, (s.grpWord x.dom x.group 1).toNat),
   (143, 112, x.group * 65536 + x.op * 256 + x.ty * 16 + x.mode * 4),
   (111, 48, (s.grpWord x.dom x.group 2).toNat)]

/-- The combined segment sent up (R300). -/
def State.sendUp (s : State) (x : ClInst) (j : Nat) (vs : List Nat) : State :=
  let w0 := s.grpWord x.dom x.group 0
  s.collSend x.engine (fld w0 15 0) 1 (fld w0 47 45)
    (s.collHdr x 0x10 x.flags (4096 * j) (x.count * x.up) (j + 1 = x.nseg) (clRepro x.op x.ty x.mode) (fld w0 44 41))
    (wireBytes x.up vs)

/-- A finished segment sent to each child (R300). -/
def State.sendDown (s : State) (x : ClInst) (j : Nat) (vs : List Nat) : State :=
  let w0 := s.grpWord x.dom x.group 0
  (List.range (fld w0 58 54)).foldl (fun t i =>
    t.collSend x.engine (t.grpChild x.dom x.group i) 2 (fld w0 47 45)
      (t.collHdr x 0x11 x.result (4096 * j * x.down / x.up) (x.count * x.down) (j + 1 = x.nseg) false 0)
      (wireBytes x.down vs)) s

/-! ### Completion (R313) -/

/-- A member's status when its result has come down. -/
def ClInst.outcome (x : ClInst) (m : ClIn) : Nat × Nat :=
  let f := x.found m
  if f.1 ≠ 0 then f else (0, b2n (x.result.testBit 2))

/-- Members whose result has been written complete, and the stream ends with the last (R313). -/
def State.collCheck (s : State) (h : Nat) : State :=
  match tFind s.insts h with
  | none => s
  | some x =>
    if !x.whole then s
    else
      let s := x.members.foldl (fun t m =>
        match m.2.op with
        | some op =>
          if m.2.ended || m.2.writes ≠ 0 then t
          else
            let r := x.outcome m.2
            (t.modInst h (fun x => { x with members := tMod {} m.1 (fun i => { i with ended := true }) x.members })).done op r.1 r.2
        | none => t) s
      match tFind s.insts h with
      | none => s
      | some y => if y.members.all (fun m => m.2.op.isNone || m.2.ended) then s.closeInst h else s

/-- A finished segment written to each local member's receive buffer with RELAXED writes (R300, R313). -/
def State.collWrite (s : State) (h j : Nat) (vs : List Nat) : State :=
  match tFind s.insts h with
  | none => s
  | some x =>
    x.members.foldl (fun t m =>
      match m.2.op with
      | none => t
      | some op => match tFind t.ops op with
        | none => t
        | some o =>
          let rb := (o.words.getD 4 0).toNat
          if m.2.out || m.2.status ≠ 0 || rb = 0 || vs = [] then t
          else
            let bs := vs.flatMap (fun v => leBytes x.down v)
            (t.modInst h (fun x => { x with members := tMod {} m.1 (fun i => { i with writes := i.writes + 1 }) x.members })).startXfer
              (mkXfer (t.ctxStall o.ctx) o.ctx 1 0 true false (.collDst op j) (rb + j * x.per * x.down) bs.length bs)) s

/-- A finished segment at hand: segments are held until the whole result has been observed, and are then written unless
the result carries MISMATCH or FAILED, which any segment's packet may bring (R313). -/
def State.collRow (s : State) (h j : Nat) (vs : List Nat) : State :=
  let s := s.modInst h (fun x => { x with rows := tPut j vs x.rows })
  match tFind s.insts h with
  | none => s
  | some x =>
    if !x.whole then s
    else
      let s := s.modInst h (fun x => { x with rows := [] })
      let s := if x.result.testBit 0 || x.result.testBit 1 then s
               else x.rows.foldl (fun t (e : Nat × List Nat) => t.collWrite h e.1 e.2) s
      s.collCheck h

/-! ### Combination (R300, R303 to R305) -/

/-- Two segments combined element by element. -/
def ClInst.combine (x : ClInst) (a b : List Nat) : List Nat × Bool :=
  let rs := (a.zip b).map (fun e => clCombine x.op x.ty x.mode e.1 e.2)
  (rs.map (fun r => r.1), rs.any (fun r => r.2))

/-- Inputs combined in input order (R305). -/
def ClInst.fold (x : ClInst) (a : List Nat) : List (List Nat) → List Nat × Bool
  | [] => (a, false)
  | b :: bs =>
    let r := x.combine a b
    let t := x.fold r.1 bs
    (t.1, r.2 || t.2)

/-- Inputs combined pairwise in an order that nothing fixes (R304): each pair is drawn by a free
value. -/
def State.foldAny : Nat → State → ClInst → List (List Nat) → (List Nat × Bool) × State
  | 0, s, _, l => ((l.headD [], false), s)
  | k + 1, s, x, l =>
    match l with
    | [] => (([], false), s)
    | [a] => ((a, false), s)
    | _ =>
      let r1 := s.free 32
      let i := r1.1.toNat % l.length
      let rest := l.eraseIdx i
      let r2 := r1.2.free 32
      let j := r2.1.toNat % rest.length
      let c := x.combine (l.getD i []) (rest.getD j [])
      let t := State.foldAny k r2.2 x (rest.set j c.1)
      ((t.1.1, c.2 || t.1.2), t.2)

/-- Elements that nothing gives: every input of the segment has been left out. -/
def State.freeElems : Nat → State → Nat → List Nat × State
  | 0, s, _ => ([], s)
  | k + 1, s, w =>
    let r := s.free (8 * w)
    let t := State.freeElems k r.2 w
    (r.1.toNat :: t.1, t.2)

/-- The inputs of segment `j`, in input order: `none` while one of them is not present; an input
left out gives nothing (R300, R314). -/
def ClInst.inputs (x : ClInst) (nl nk j : Nat) : Option (List (List Nat)) :=
  let one (t : Tab ClIn) (i : Nat) : Option (List (List Nat)) :=
    match tFind t i with
    | none => none
    | some m => if m.out then some [] else match tFind m.segs j with
      | some v => some [v]
      | none => none
  ((List.range nl).map (one x.members) ++ (List.range nk).map (one x.kids)).foldl
    (fun a v => match a, v with
      | some l, some m => some (l ++ m)
      | _, _ => none) (some [])

/-- A segment dropped from the inputs once combined. -/
def dropSeg (j : Nat) (t : Tab ClIn) : Tab ClIn := t.map (fun (e : Nat × ClIn) => (e.1, { e.2 with segs := tDel j e.2.segs }))

/-- One segment combined where every input of it is present, and sent on (R300). -/
def State.collStep (s : State) (h : Nat) : Option State :=
  match tFind s.insts h with
  | none => none
  | some x =>
    if x.nseg ≤ x.next then none
    else match x.inputs (s.grpLocals x.dom x.group) (s.grpKids x.dom x.group) x.next with
    | none => none
    | some l =>
      let j := x.next
      let r := match l with
        | [] => let f := State.freeElems (x.elems j) s x.up
                ((f.1, false), f.2)
        | a :: as => if x.mode = 0 then State.foldAny l.length s x l else (x.fold a as, s)
      let vs := r.1.1
      let spill : Bool := r.1.2 && decide (x.mode < 2)
      let x1 := { x with next := j + 1, members := dropSeg j x.members, kids := dropSeg j x.kids,
                         flags := if spill then x.flags ||| 4 else x.flags }
      let s := { r.2 with insts := tPut h x1 r.2.insts }
      if s.grpRoot x.dom x.group then
        let fs := vs.map (fun v => clFinish x.op x.ty x.mode v)
        let fl := if fs.any (fun f => f.2) then x1.flags ||| 4 else x1.flags
        let x2 := { x1 with flags := fl, result := x1.result ||| fl, downs := j :: x1.downs }
        let s := { s with insts := tPut h x2 s.insts }
        let ds := fs.map (fun f => f.1)
        some ((s.sendDown x2 j ds).collRow h j ds)
      else some (s.sendUp x1 j vs)

/-- Every segment that can be combined is combined, and the window's reads are issued. -/
def State.collTry : Nat → State → Nat → State
  | 0, s, _ => s
  | k + 1, s, h =>
    match s.collStep h with
    | some t => State.collTry k (t.collReads h) h
    | none => s

/-- The window of an instance looked at again. -/
def State.collRun (s : State) (h : Nat) : State :=
  match tFind s.insts h with
  | none => s
  | some x => State.collTry (x.nseg + 1) s h

/-! ### COLL (R294, R295) -/

/-- The checks of R294: the status of the first that fails, or 0. -/
def State.collStatus (s : State) (o : Op) : Nat :=
  let w1 := o.words.getD 1 0
  let g := fld w1 63 48
  if !collCoded o.words then 1
  else match s.findGroup g with
    | none => 2
    | some (d, r) =>
      if !s.rb (.clCtrl (engineOf r.engine)) 16 || (s.grpPlace d g o.ctx).isNone then 2
      else if o.words.getD 5 0 ≠ s.grpWord d g 1 || o.words.getD 6 0 ≠ s.grpWord d g 2 then 0x0D
      else 0

/-- A member mismatched in its instance (R294, R314). -/
def State.missMember (s : State) (d g n j e : Nat) : State :=
  let s := s.noteMismatch e
  match s.instOf d g n with
  | some h => (s.modInst h (fun x => { x with
      members := tMod {} j (fun i => { i with out := true }) x.members, flags := x.flags ||| 1 })).collRun h
  | none => s

/-- COLL: the checks, the member's place in the sequence, and its contribution. A COLL that fails its checks is an input
too: as the first of its instance it begins the instance (R295, R314). Where its encodings are not allowed together no shape
follows from them: the instance has a count of 0 (DESIGN CHOICE, log entry 182). -/
def State.startColl (s : State) (id : Nat) (o : Op) : State :=
  let w1 := o.words.getD 1 0
  let g := fld w1 63 48
  let op := fld w1 47 40
  let ty := fld w1 39 36
  let mode := fld w1 35 34
  let count := fld (o.words.getD 3 0) 31 0
  let st := s.collStatus o
  match s.findGroup g with
  | none => s.done id st
  | some (d, r) => match s.grpPlace d g o.ctx with
    | none => s.done id st
    | some j =>
      let n := tGet 0 r.seqs j
      let s := s.modGroup d g (fun r => { r with seqs := tPut j (n + 1) r.seqs })
      if st ≠ 0 then
        let s := if !s.engOff.contains r.engine && !r.gone n && (s.instOf d g n).isNone
                 then (s.newInst d g n op ty mode (if collCoded o.words then count else 0)).1 else s
        (s.missMember d g n j r.engine).done id st
      else if r.gone n then s.done id 0x0B
      else
        let t := match s.instOf d g n with
          | some h => (s, h)
          | none => s.newInst d g n op ty mode count
        let s := t.1
        let h := t.2
        match tFind s.insts h with
        | none => s.done id st
        | some x =>
          let same := x.op = op ∧ x.ty = ty ∧ x.mode = mode ∧ x.count = count
          if same then
            ((s.modInst h (fun x => { x with members := tMod {} j (fun i => { i with op := some id }) x.members })).collReads h).collRun h
          else
            ((s.noteMismatch x.engine).modInst h (fun x => { x with
              members := tMod {} j (fun i => { i with op := some id, out := true }) x.members, flags := x.flags ||| 1 })).collRun h

/-- The instance and place of a command. -/
def State.collOf (s : State) (op : Nat) : Option (Nat × Nat) :=
  match s.insts.find? (fun e => e.2.members.any (fun m => m.2.op = some op)) with
  | none => none
  | some e => (e.2.members.find? (fun m => m.2.op = some op)).map (fun m => (e.1, m.1))

/-- A send-buffer read has ended (R297, R314): its elements are converted, or the member is left
out with FAILED. -/
def State.collRead (s : State) (op seg status detail : Nat) (bs : List Byte) : State :=
  match s.collOf op with
  | none => s
  | some (h, j) => match tFind s.insts h with
    | none => s
    | some x =>
      if status = 0 then
        let es := clElem x.op x.ty
        let vs := (List.range (x.elems seg)).map (fun i => clConvert x.op x.ty x.mode (ofLe ((bs.drop (es * i)).take es)))
        (s.modInst h (fun x => { x with
          members := tMod {} j (fun i => if i.out then i else { i with segs := tPut seg vs i.segs }) x.members })).collRun h
      else
        let keep (i : ClIn) : ClIn := if i.status = 0 then { i with out := true, status := status, detail := detail, segs := [] }
                                      else { i with out := true, segs := [] }
        ((s.wb (.clStatus (engineOf x.engine)) 1 true).modInst h (fun x => { x with
          members := tMod {} j keep x.members, flags := x.flags ||| 2 })).collRun h

/-- A result write has ended (R313). -/
def State.collWrote (s : State) (op status detail : Nat) : State :=
  match s.collOf op with
  | none => s
  | some (h, j) =>
    let fin (i : ClIn) : ClIn :=
      let i := { i with writes := i.writes - 1 }
      if status ≠ 0 ∧ i.status = 0 then { i with status := status, detail := detail } else i
    (s.modInst h (fun x => { x with members := tMod {} j fin x.members })).collCheck h

/-! ### Packets from the tree (R300 to R302, R314, R315) -/

/-- The whole instance number that a packet's MSN names: the one nearest to the oldest that has
not ended. -/
def ClGroup.number (r : ClGroup) (msn : Nat) : Option Nat :=
  let d := dist 24 msn (r.floor % 2 ^ 24)
  if d < 2 ^ 23 then some (r.floor + d) else none

/-- A discarded packet of an ended instance or of a group not installed (R315). -/
def State.lateDrop (s : State) (e : Nat) : State := s.bump (.clCount (engineOf e)) 31 16 1

/-- One COLL_UP packet at engine `e`: `none` while it is held back (R301, R302). -/
def State.upOne (s : State) (e : Nat) (p : Pkt) : Option State :=
  let key := Pkt.key p
  let g := key / 65536
  match s.findGroup g with
  | none => some (s.lateDrop e)
  | some (d, r) =>
    if s.engOff.contains e then some (s.lateDrop e)
    else match r.number (Pkt.msn p) with
    | none => some (s.lateDrop e)
    | some n =>
      if r.gone n then some (s.lateDrop e)
      else
        let i := Pkt.sctx p % 16
        if s.grpKids d g ≤ i then some s
        else
          let op := key / 256 % 256
          let ty := key / 16 % 16
          let mode := key / 4 % 4
          let good := clAllowed op ty mode && decide (Pkt.mlen p % clUp op ty mode = 0) &&
            decide (Pkt.tag p = (s.grpWord d g 1).toNat) && decide (Pkt.addr p = (s.grpWord d g 2).toNat)
          let count := Pkt.mlen p / clUp op ty mode
          match s.instOf d g n with
          | none =>
            if !s.rb (.clCtrl (engineOf e)) 16 || !s.instRoom d g e then none
            else if good && decide (16 < Pkt.moff p / 4096) then none
            else
              let t := s.newInst d g n op ty mode count
              if good then
                some ((t.1.modInst t.2 (fun x => { x with
                  kids := tMod {} i (fun k => { k with
                    segs := tPut (Pkt.moff p / 4096) (wireElems (clUp op ty mode) (x.elems (Pkt.moff p / 4096)) (Pkt.payload p)) k.segs })
                    x.kids,
                  flags := x.flags ||| (Pkt.psn p % 8) })).collRun t.2)
              else
                some (((t.1.noteMismatch e).modInst t.2 (fun x => { x with
                  kids := tMod {} i (fun k => { k with out := true }) x.kids, flags := x.flags ||| 1 })).collRun t.2)
          | some h => match tFind s.insts h with
            | none => some s
            | some x =>
              let k := tGet {} x.kids i
              if k.out then some s
              else if !good || op ≠ x.op || ty ≠ x.ty || mode ≠ x.mode || count ≠ x.count then
                some (((s.noteMismatch e).modInst h (fun x => { x with
                  kids := tMod {} i (fun k => { k with out := true, segs := [] }) x.kids, flags := x.flags ||| 1 })).collRun h)
              else
                let j := Pkt.moff p / 4096
                if x.next + 16 < j then none
                else if j < x.next ∨ (tFind k.segs j).isSome ∨ x.nseg ≤ j then some s
                else
                  some ((s.modInst h (fun x => { x with
                    kids := tMod {} i (fun k => { k with segs := tPut j (wireElems x.up (x.elems j) (Pkt.payload p)) k.segs }) x.kids,
                    flags := x.flags ||| (Pkt.psn p % 8) })).collRun h)

/-- One COLL_DOWN packet at engine `e` (R300, R315). -/
def State.downOne (s : State) (e : Nat) (p : Pkt) : State :=
  let g := Pkt.key p / 65536
  match s.findGroup g with
  | none => s.lateDrop e
  | some (d, r) =>
    match (if s.engOff.contains e then none else r.number (Pkt.msn p)) with
    | none => s.lateDrop e
    | some n => match s.instOf d g n with
      | none => s.lateDrop e
      | some h => match tFind s.insts h with
        | none => s
        | some x =>
          let j := if x.down = 0 then 0 else Pkt.moff p * x.up / x.down / 4096
          if x.downs.contains j || x.nseg ≤ j then s
          else
            let vs := wireElems x.down (x.elems j) (Pkt.payload p)
            let x1 := { x with result := x.result ||| (Pkt.psn p % 8), downs := j :: x.downs }
            let s := { s with insts := tPut h x1 s.insts }
            (s.sendDown x1 j vs).collRow h j vs

/-- The first packet of a queue that the engine accepts, taken from it. -/
def State.upScan (s : State) (e : Nat) : List Pkt → List Pkt → Option State
  | _, [] => none
  | seen, p :: rest =>
    match s.upOne e p with
    | some t => some { t with collUp := tSet [] e (seen ++ rest) t.collUp }
    | none => State.upScan s e (seen ++ [p]) rest

/-- Whether some packet of a queue waits for a stream (R302). -/
def State.upFull (s : State) (e : Nat) (l : List Pkt) : Bool :=
  l.any (fun p => match s.findGroup (Pkt.key p / 65536) with
    | some (d, r) => match r.number (Pkt.msn p) with
      | some n => (s.instOf d (Pkt.key p / 65536) n).isNone && !r.gone n && !s.streamFree e
      | none => false
    | none => false)

/-- COLL_UP_RECEIVE. -/
def doCollUpReceive (e : Engine) (s : State) : State :=
  if s.frozen (.coll e) then s
  else
    let l := tGet [] s.collUp e.val
    let s := if s.upFull e.val l then s.wb (.clStatus e) 0 true else s
    match s.upScan e.val [] l with
    | some t => t
    | none => s

/-- COLL_DOWN_RECEIVE: accepted unconditionally (R301). -/
def doCollDownReceive (e : Engine) (s : State) : State :=
  if s.frozen (.coll e) then s
  else match tGet [] s.collDown e.val with
    | [] => s
    | p :: rest => { s with collDown := tSet [] e.val rest s.collDown }.downOne e.val p

/-- A collective packet passed to the engine that its group's entry names (R136, R268): to engine 0
where no entry is valid, which discards it (R315). -/
def State.collIn (s : State) (p : Pkt) : State :=
  let e := match s.findGroup (Pkt.key p / 65536) with
    | some (_, r) => r.engine
    | none => 0
  if Pkt.opc p = 0x10 then { s with collUp := tMod [] e (· ++ [p]) s.collUp }
  else { s with collDown := tMod [] e (· ++ [p]) s.collDown }

/-- Whether a COLL_DOWN of an instance stands at its engine (R24, R315). -/
def State.downWaits (s : State) (x : ClInst) : Bool :=
  (tGet [] s.collDown x.engine).any (fun p => decide (Pkt.key p / 65536 = x.group ∧ Pkt.msn p = x.n % 2 ^ 24))

/-- COLL_TIMEOUT (R315): the instance of a number, once its time is up. A result observed by then wins (R24). -/
def doCollTimeout (e : Engine) (group : BitVec 16) (n : BitVec 24) (s : State) : State :=
  let t := s.rf (.clCtrl e) 15 0
  match s.insts.find? (fun x => x.2.engine = e.val ∧ x.2.group = group.toNat ∧ x.2.n % 2 ^ 24 = n.toNat) with
  | none => s
  | some x =>
    if s.frozen (.coll e) || t = 0 || x.2.whole || s.downWaits x.2 || s.clk ≤ x.2.since + us (100 * t) then s
    else ((s.failInst x.1 0x0B).bump (.clCount e) 47 32 1).wb (.clStatus e) 2 true

/-! ### Installation (R291, R316) -/

/-- CL_INSTALL's fields after an action. -/
def State.clResult (s : State) (e : Engine) (action : Nat) (g : BitVec 16) (result : Nat) : State :=
  s.setReg (.clInstall e) (mkWord 64 [(62, 60, action), (59, 56, result), (15, 0, g.toNat)])

/-- Whether an entry is refused (R291). -/
def State.grpRefused (s : State) (d g : Nat) : Bool :=
  let w0 := s.grpWord d g 0
  let w3 := s.grpWord d g 3
  let nk := fld w0 58 54
  let nl := fld w0 53 48
  let members := fld w3 19 0
  let kids := (List.range nk).map (fun i => s.grpChild d g i)
  fld w0 40 16 ≠ 0 || fld w3 63 20 ≠ 0 ||
    (List.range 16).any (fun i => fld (s.grpWord d g (8 + i)) 31 22 ≠ 0 || fld (s.grpWord d g (8 + i)) 63 54 ≠ 0) ||
    16 < nk || 32 < nl || (nk = 0 && nl = 0) || members = 0 || 524288 < members || !kids.Nodup ||
    (List.range nl).any (fun j => (s.ctx? (s.grpMember d g j)).isNone || !bit (s.ctxWord (s.grpMember d g j) 24) 63) ||
    bit w0 63 || (s.findGroup g).isSome

/-- CL_INSTALL action INSTALL. -/
def doClInstall (e : Engine) (g : BitVec 16) (s : State) : State :=
  if s.frozen (.coll e) then s
  else
    let d := e.val / 4
    let gn := g.toNat
    let a := (s.share d 9).1 + 256 * gn
    if fld (s.grpWord d gn 0) 61 59 ≠ e.val then s.clResult e 1 g 4
    else if s.grpRefused d gn then s.clResult e 1 g 2
    else
      let s := s.uncachedWrite (a + 192) (List.replicate 64 0)
      let s := s.uncachedWrite a (leBytes 8 (setBit (s.grpWord d gn 0) 63 true).toNat)
      { s with groups := tPut (grpKey d gn) { engine := e.val } s.groups }.clResult e 1 g 1

/-- CL_INSTALL action REMOVE: refused with busy while an instance is active. -/
def doClRemove (e : Engine) (g : BitVec 16) (s : State) : State :=
  if s.frozen (.coll e) then s
  else
    let d := e.val / 4
    let gn := g.toNat
    match tFind s.groups (grpKey d gn) with
    | none => s.clResult e 2 g 2
    | some r =>
      if r.engine ≠ e.val then s.clResult e 2 g 4
      else if s.insts.any (fun x => x.2.dom = d ∧ x.2.group = gn) then s.clResult e 2 g 3
      else
        let a := (s.share d 9).1 + 256 * gn
        let s := s.uncachedWrite a (leBytes 8 (setBit (s.grpWord d gn 0) 63 false).toNat)
        { s with groups := tDel (grpKey d gn) s.groups }.clResult e 2 g 1

/-- CL_INSTALL action ABORT (R316): an instance whose result is being written ends with that write. -/
def doClAbort (e : Engine) (g : BitVec 16) (s : State) : State :=
  if s.frozen (.coll e) then s
  else
    let d := e.val / 4
    let gn := g.toNat
    match tFind s.groups (grpKey d gn) with
    | none => s.clResult e 3 g 2
    | some r =>
      if r.engine ≠ e.val then s.clResult e 3 g 4
      else
        let mine := s.insts.filter (fun x => x.2.dom = d ∧ x.2.group = gn ∧ x.2.whole = false)
        let s := mine.foldl (fun t x => (t.failInst x.1 0x0F).bump (.clCount e) 15 0 1) s
        s.clResult e 3 g 1

/-- ENGINE_FENCED (R465): its streams are lost, and local members complete with DELIVERY_FAILED. -/
def doEngineFenced (e : Engine) (s : State) : State :=
  if s.frozen (.coll e) || s.engOff.contains e.val then s
  else
    let mine := s.insts.filter (fun x => x.2.engine = e.val)
    let s := mine.foldl (fun t x => t.failInst x.1 0x0B) s
    ({ s with engOff := e.val :: s.engOff }.wb (.clCtrl e) 16 false).fault (.coll e) .fence 0x80 0

/-- CL_UNFENCE (R465): the engine is reset with enable = 1 and no stream, and the fence ends. -/
def doClUnfence (e : Engine) (s : State) : State :=
  if s.frozen (.coll e) || !s.engOff.contains e.val then s
  else { s with engOff := s.engOff.filter (· ≠ e.val) }.wb (.clCtrl e) 16 true

end Sys2Proof.Machine
end

