-- ==== Sys2Proof/Machine/Endpoint.lean ====
section
/-! DEFINITION. The target's side of end-to-end delivery (chapter 10): what a packet meets at an
endpoint (R268, R269), keys (R273, R274), the effects of each opcode (R275 to R279), delivery,
acknowledgements and refusals (R270 to R272), SEND packets in MSN order (R241 to R248), and the
work that effects leave to be done within the same command. -/

namespace Sys2Proof.Machine

/-! ### Answers -/

/-- The map of R271: bit i = 1 when cum + 1 + i has been delivered. -/
def TFlow.map (t : TFlow) : Nat :=
  (List.range 64).foldl (fun a i => if t.deliv.contains (wrap 32 (t.cum + 1 + i)) then a + 2 ^ i else a) 0

/-- An ACK sent on a flow (R271). -/
def State.sendAck (s : State) (tf : Nat) : State :=
  match tFind s.tfl tf with
  | none => s
  | some t =>
    let src := s.ctxFa t.dctx
    let delay := min 0xFFFFFFFF ((s.clk - t.newestAt) / 16)
    let p := buildPkt t.srcFa src 6 0 false true (flowHash src t.srcFa t.dctx t.sctx)
      [(383, 376, 0x08), (371, 350, t.dctx), (349, 328, t.sctx), (327, 296, t.cum), (271, 240, t.newestPsn),
       (239, 208, delay), (111, 48, t.map), (47, 32, t.newestTsl)] []
    (s.modTfl tf (fun t => { t with unacked := 0, firstUnacked := none })).injectPkt (s.ctxStall t.dctx) (sealPkt p)

/-- A NACK answering a packet (R272), with the flow's cum and map where a record exists. -/
def State.sendNack (s : State) (tf : Option TFlow) (p : Pkt) (cause detail : Nat) : State :=
  let c := Pkt.dctx p
  let known := (s.ctx? c).isSome && cause ≠ 0x02
  let src := if known then s.ctxFa c else s.coord * 256 + 31
  let stall := if known then s.ctxStall c else 0
  let cum := match tf with | some t => t.cum | none => 0
  let mp := match tf with | some t => t.map | none => 0
  let q := buildPkt (Pkt.srcFa p) src 6 0 false true (flowHash src (Pkt.srcFa p) c (Pkt.sctx p))
    [(383, 376, 0x09), (371, 350, c), (349, 328, Pkt.sctx p), (327, 296, Pkt.psn p), (295, 272, Pkt.msn p),
     (271, 240, cum), (143, 136, cause), (135, 128, detail), (111, 48, mp), (47, 32, Pkt.tsl p)] []
  (s.injectPkt stall (sealPkt q)).bump (.rmaErrcnt (stallOf stall)) 47 32 1

/-- A response to a request (R261, R276, R277). -/
def State.sendRsp (s : State) (t : TFlow) (req : Pkt) (opc moff mlen tag : Nat) (bs : List Byte) (echo : Bool) : State :=
  let src := s.ctxFa t.dctx
  let p := buildPkt t.srcFa src (Pkt.tc req) 2 false (Pkt.adapt req) (flowHash src t.srcFa t.dctx t.sctx)
    [(383, 376, opc), (374, 374, 1), (371, 350, t.dctx), (349, 328, t.sctx), (327, 296, Pkt.psn req),
     (271, 240, moff), (239, 208, mlen), (207, 144, tag), (47, 32, Pkt.tsl req)] bs
  s.injectPkt (s.ctxStall t.dctx) (if echo then sealPkt p else s.stamp p)

/-! ### Delivery and refusal (R270) -/

/-- cum advanced over every consecutive delivered PSN (R270). -/
def TFlow.advance : Nat → TFlow → TFlow
  | 0, t => t
  | n + 1, t =>
    let p := wrap 32 (t.cum + 1)
    if t.deliv.contains p then
      TFlow.advance n { t with cum := p, deliv := t.deliv.filter (· ≠ p),
                               refused := t.refused.filter (fun q => dist 32 p q < 256 || !atOrAbove 32 p q) }
    else t

/-- Whether every PSN from cum + 1 up to below `psn` has arrived: delivered, refused, or held for
MSN order (R267). -/
def TFlow.lowerArrived (t : TFlow) (psn : Nat) : Bool :=
  (List.range (dist 32 psn t.cum - 1)).all (fun i =>
    let p := wrap 32 (t.cum + 1 + i)
    t.deliv.contains p || t.sends.any (fun h => Pkt.psn h.pkt = p))

/-- A held flagged packet is released once every lower PSN has arrived (R270, R141). -/
def State.releaseFlagged (s : State) (tf : Nat) : State :=
  match tFind s.tfl tf with
  | none => s
  | some t => match t.held with
    | none => s
    | some p =>
      if t.lowerArrived (Pkt.psn p) then
        (s.modTfl tf (fun t => { t with held := none })).push (.rx tf p true false)
      else s

/-- A PSN marked delivered, and what that releases (R270). -/
def State.markDelivered (s : State) (tf psn : Nat) : State :=
  (s.modTfl tf (fun t =>
    let t := { t with deliv := if t.deliv.contains psn then t.deliv else psn :: t.deliv,
                      issued := t.issued.filter (fun i => i.psn ≠ psn) }
    t.advance 257)).releaseFlagged tf

/-- A packet is delivered (R270), and acknowledged as R271 gives. -/
def State.deliver (s : State) (tf : Nat) (p : Pkt) : State :=
  match tFind s.tfl tf with
  | none => s
  | some t =>
    let psn := Pkt.psn p
    let s := s.pm (.stall (stallOf (s.ctxStall t.dctx))) 0x23 t.dctx 1
    let s := s.modTfl tf (fun t => { t with
      newestPsn := psn, newestTsl := Pkt.tsl p, newestAt := s.clk, unacked := t.unacked + 1,
      firstUnacked := some (t.firstUnacked.getD s.clk) })
    let s := s.markDelivered tf psn
    if Pkt.ackreq p || 8 ≤ t.unacked + 1 then s.sendAck tf else s

/-- REFUSED, at most once for a context and cause in any 100 µs (R287). -/
def State.postRefused (s : State) (t : TFlow) (psn cause : Nat) : State :=
  match s.ctx? t.dctx with
  | none => s
  | some x =>
    if (tFind x.refusedAt cause).all (fun a => decide (a + us 100 ≤ s.clk)) then
      (s.modCtx t.dctx (fun x => { x with refusedAt := tPut cause s.clk x.refusedAt })).postCtx t.dctx 0x0605
        [(2, 15, 8, cause), (3, 63, 32, psn), (7, 63, 40, t.srcFa), (7, 39, 18, t.sctx)]
    else s

/-- A packet is refused (R270): its PSN is delivered and refused, and a NACK is sent at once. -/
def State.refuse (s : State) (tf : Nat) (p : Pkt) (cause detail : Nat) : State :=
  match tFind s.tfl tf with
  | none => s
  | some t =>
    let psn := Pkt.psn p
    let s := s.modTfl tf (fun t => { t with refused := psn :: t.refused, cause := cause, causeDetail := detail })
    let s := s.markDelivered tf psn
    (s.sendNack (tFind s.tfl tf) p cause detail).postRefused t psn cause

/-- A check that fails with a retryable cause: neither delivered nor refused (R270, R272). -/
def State.putOff (s : State) (tf : Nat) (p : Pkt) (cause : Nat) : State :=
  let s := s.modTfl tf (fun t => { t with issued := t.issued.filter (fun i => i.psn ≠ Pkt.psn p) })
  s.sendNack (tFind s.tfl tf) p cause 0

/-- Whether a packet's opcode is one that the context's header and payload runs are bound to. -/
def State.handles (s : State) (c kind opc : Nat) : Bool :=
  s.bound c kind && (if opc = 1 then bit (s.ctxWord c 22) 60 else decide (opc = 6) && bit (s.ctxWord c 22) 59)

/-- The packet's effects are issued; it waits to be delivered (R270). The run queue keeps an entry for its payload run, as
long as it does (R327). -/
def State.markIssued (s : State) (tf : Nat) (p : Pkt) (stage : Nat) : State :=
  s.modTfl tf (fun t => { t with
    issued := ⟨Pkt.psn p, p, s.clk, stage, s.handles t.dctx 1 (Pkt.opc p), none⟩ :: t.issued.filter (fun i => i.psn ≠ Pkt.psn p) })

/-- The packet whose effects are issued under a PSN. -/
def State.issuedPkt (s : State) (tf psn : Nat) : Option Pkt :=
  match tFind s.tfl tf with
  | some t => (t.issued.find? (fun i => i.psn = psn)).map (fun i => i.pkt)
  | none => none

/-! ### Keys (R273, R274) -/

/-- Device address of a key's entry. -/
def State.keyAddr (s : State) (c key : Nat) : Nat := fld (s.ctxWord c 14) 63 5 * 32 + 32 * (key / 256)

/-- The checks of R274 for `n` bytes at `va`: 0, or the cause; `perm` is the bit of word 0 needed. -/
def State.keyCheck (s : State) (c key va n perm : Nat) : Nat :=
  let a := s.keyAddr c key
  let w0 := s.hbmWord a
  let base := (s.hbmWord (a + 8)).toNat
  let w2 := s.hbmWord (a + 16)
  if 2 ^ fld (s.ctxWord c 14) 4 0 ≤ key / 256 || !bit w0 63 || fld w0 58 56 ≠ 0 || fld w0 35 0 ≠ 0 ||
      fld w2 63 48 ≠ 0 || s.hbmWord (a + 24) ≠ 0 || fld w0 55 48 ≠ key % 256 then 0x03
  else if va < base || base + fld w2 47 0 < va + n || 2 ^ 64 ≤ va + n then 0x04
  else if !bit w0 perm then 0x05
  else 0

/-! ### Handlers of arriving packets (R326, R327) -/

/-- Payload bytes of a PUT or SEND packet (R261). -/
def Pkt.n (p : Pkt) : Nat := if Pkt.isRts p then 64 else min 4096 (Pkt.mlen p - Pkt.moff p)

/-- A run for a packet. -/
def State.pktRun (s : State) (kind tf : Nat) (t : TFlow) (p : Pkt) (budget : Option Nat) : RunRef :=
  let _ := s
  { kind := kind, ctx := t.dctx, tf := tf, psn := Pkt.psn p, code := Pkt.opc p, n := Pkt.n p,
    window := (p.flatMap (fun f => flitBytes f.bits)).take (64 + Pkt.n p), budget := budget, srcFa := t.srcFa }

/-- Admission to the run queue (R327): `none` where the packet must be discarded; else whether a
header run has been queued. A payload run's entry is reserved as the packet is marked issued. -/
def State.admitRuns (s : State) (tf : Nat) (t : TFlow) (p : Pkt) : Option (State × Bool) :=
  let c := t.dctx
  let st := s.ctxStall c
  let h := s.handles c 0 (Pkt.opc p)
  let y := s.handles c 1 (Pkt.opc p)
  let q := s.runq st
  let need := b2n h + b2n y
  if need = 0 then some (s, false)
  else if 256 < q.runs.length + s.reservedIn st + need then none
  else
    let q := if h then { q with runs := q.runs ++ [s.pktRun 0 tf t p none] } else q
    some ({ s with runqs := tSet {} st q s.runqs }, h)

/-- A packet that finds no room in the run queue is discarded (R327). -/
def State.runqDrop (s : State) (c : Nat) : State :=
  let st := stallOf (s.ctxStall c)
  (s.bump (.grCount st) 15 0 1).wb (.grStatus st) 3 true

/-- The payload run of a packet whose effects have been issued, in the entry reserved for it, while its binding stands; it
draws on what its header run left of the budget (R326, R333). -/
def State.firePayload (s : State) (tf : Nat) (p : Pkt) : State :=
  match tFind s.tfl tf with
  | none => s
  | some t => match t.issued.find? (fun i => i.psn = Pkt.psn p && i.pay) with
    | none => s
    | some i =>
      let s1 := s.modTfl tf (fun t => { t with issued := t.issued.map (fun j => if j.psn = i.psn then { j with pay := false } else j) })
      let c := t.dctx
      let st := s.ctxStall c
      let q := s.runq st
      if s.handles c 1 (Pkt.opc p) then
        let left := if 2 ≤ i.stage then some (i.stage - 2) else none
        { s1 with runqs := tSet {} st { q with runs := q.runs ++ [s.pktRun 1 tf t p left] } s1.runqs }
      else s1

/-! ### PUT (R275) -/

/-- A message complete at the target: the key's counter rises, MESSAGE_ARRIVED is posted, a
completion run fires (R275, R326). `w0` is word 0 of the key's entry. -/
def State.putComplete (s : State) (t : TFlow) (g : InProg) (w0 : Word) : State :=
  let c := t.dctx
  let s := s.ctAdd c (fld w0 47 36) 1 0
  let fs := [(6, 63, 0, g.addr), (5, 31, 0, g.mlen), (3, 63, 32, g.first), (7, 63, 40, t.srcFa), (7, 39, 18, t.sctx)]
  let s := if bit w0 59 then s.postCtx c 0x0601 fs else s
  if s.bound c 2 && bit (s.ctxWord c 22) 57 then s.fireCompletion c 0x0601 (eventWords 0x0601 (some c) s.nt fs) else s

/-- A PUT packet's bytes counted for its message (R275). It completes under the key entry that it was checked under
(R273), and under the entry as it stands where a header run consumed it without a check (R331). Of an abandoned message no
record is kept (R282). -/
def State.countPut (s : State) (tf : Nat) (p : Pkt) : State :=
  match tFind s.tfl tf with
  | none => s
  | some t =>
    let first := dist 32 (Pkt.psn p) (Pkt.moff p / 4096)
    let g0 : InProg := (t.prog.find? (fun g => g.first = first)).getD ⟨first, Pkt.mlen p, 0, Pkt.addr p⟩
    let g : InProg := { g0 with counted := g0.counted + Pkt.n p }
    let rest := t.prog.filter (fun g => g.first ≠ first)
    let w0 := ((t.issued.find? (fun i => i.psn = Pkt.psn p)).bind (fun i => i.w0)).getD (s.hbmWord (s.keyAddr t.dctx (Pkt.key p)))
    if t.aborted.contains first then s
    else if g.mlen ≤ g.counted then
      (s.modTfl tf (fun t => { t with prog := rest })).putComplete t g w0
    else s.modTfl tf (fun t => { t with prog := g :: rest })

/-- A PUT packet's effects: the key checks, then the write of its bytes (R274, R275). -/
def State.putEffects (s : State) (tf : Nat) (t : TFlow) (p : Pkt) : State :=
  let va := Pkt.addr p + Pkt.moff p
  let n := Pkt.n p
  match s.keyCheck t.dctx (Pkt.key p) va n 61 with
  | 0 =>
    let s := if (t.issued.any (fun i => i.psn = Pkt.psn p)) then s else s.markIssued tf p 1
    let w0 := s.hbmWord (s.keyAddr t.dctx (Pkt.key p))
    let s := s.modTfl tf (fun t => { t with issued := t.issued.map (fun i => if i.psn = Pkt.psn p then { i with w0 := some w0 } else i) })
    if n = 0 then ((s.firePayload tf p).countPut tf p).deliver tf p
    else s.startXfer (mkXfer (s.ctxStall t.dctx) t.dctx 1 1 true false (.tgtPut tf (Pkt.psn p)) va n ((Pkt.payload p).take n))
  | cause => s.refuse tf p cause 0

/-! ### GET and ATOMIC (R276 to R279) -/

/-- A GET_REQ's effects: the key checks, then the read of its chunk. -/
def State.getEffects (s : State) (tf : Nat) (t : TFlow) (p : Pkt) : State :=
  let n := Pkt.mlen p
  match s.keyCheck t.dctx (Pkt.key p) (Pkt.addr p) n 62 with
  | 0 =>
    let s := s.markIssued tf p 1
    if n = 0 then s.deliver tf p
    else s.startXfer (mkXfer (s.ctxStall t.dctx) t.dctx 0 1 false false (.tgtGet tf (Pkt.psn p)) (Pkt.addr p) n [])
  | cause => s.refuse tf p cause 0

/-- A duplicate answered with an ACK at once (R269, R271). -/
def State.ackDup (s : State) (tf : Nat) (p : Pkt) : State :=
  (s.modTfl tf (fun t => { t with newestPsn := Pkt.psn p, newestTsl := Pkt.tsl p, newestAt := s.clk })).sendAck tf

/-- A repeated GET_REQ that was not refused (R269): the read is performed again, under the check that it has passed (log
entry 167). -/
def State.getAgain (s : State) (tf : Nat) (t : TFlow) (p : Pkt) : State :=
  if Pkt.mlen p = 0 then s.ackDup tf p
  else s.startXfer (mkXfer (s.ctxStall t.dctx) t.dctx 0 1 false false (.tgtAgain tf p) (Pkt.addr p) (Pkt.mlen p) [])

/-- The GET_RSPs of a chunk (R276): each up to the next multiple of 4,096 or the chunk's end. -/
def State.sendGetRsps : Nat → State → TFlow → Pkt → Nat → List Byte → State
  | 0, s, _, _, _, _ => s
  | k + 1, s, t, p, moff, bs =>
    if bs = [] then s
    else
      let n := 4096 - moff % 4096
      State.sendGetRsps k (s.sendRsp t p 0x03 moff (Pkt.mlen p) 0 (bs.take n) true) t p (moff + n) (bs.drop n)

/-- Operand, compare operand and rsp_floor of an ATOMIC_REQ's flit (R277). -/
def atomArgs (p : Pkt) : Nat × Nat × Nat :=
  let f := match p with | _ :: f :: _ => f.bits | _ => 0
  (fld f 511 448, fld f 447 384, fld f 383 352)

/-- An atomic is delivered: its result is cached and its ATOMIC_RSP sent (R278, R279). -/
def State.atomDone (s : State) (tf : Nat) (p : Pkt) (old : Nat) : State :=
  match tFind s.tfl tf with
  | none => s
  | some t =>
    let floor := (atomArgs p).2.2
    let keep := t.atoms.filter (fun a => atOrAbove 32 a.1 floor)
    let s := s.modTfl tf (fun t => { t with atoms := (Pkt.psn p, BitVec.ofNat 64 old, Pkt.tc p + 8 * b2n (Pkt.adapt p)) :: keep })
    (s.deliver tf p).sendRsp t p 0x05 0 0 old [] false

/-- An ATOMIC_REQ's effects (R277): the key checks, then its translation; put off while no entry of the cache of 16 results
can be had (R262, R272). -/
def State.atomEffects (s : State) (tf : Nat) (t : TFlow) (p : Pkt) : State :=
  let code := Pkt.tag p
  let n := atomSize (code / 16 % 8)
  match s.keyCheck t.dctx (Pkt.key p) (Pkt.addr p) n (if code % 16 = 0 then 62 else 60) with
  | 0 =>
    let floor := (atomArgs p).2.2
    let cached := (t.atoms.filter (fun a => atOrAbove 32 a.1 floor)).length + (t.issued.filter (fun i => Pkt.opc i.pkt = 4)).length
    if atomBad code || Pkt.addr p % n ≠ 0 then s.refuse tf p 0x08 0
    else if 16 ≤ cached then s.putOff tf p 0x12
    else (s.markIssued tf p 1).startXfer
      (mkXfer (s.ctxStall t.dctx) t.dctx 2 1 false true (.tgtAtom tf (Pkt.psn p)) (Pkt.addr p) n [])
  | cause => s.refuse tf p cause 0

/-- An atomic performed in HBM by the hitch unit (R378, R379): the old value, cut to the type's
size, is answered; nothing is written where it is refused. -/
def State.hitchAtom (s : State) (a code operand compare : Nat) : State × Nat :=
  let n := atomSize (code / 16 % 8)
  let old := ofLe (s.hbmRead a n)
  if atomBad code then (s, old)
  else
  let s := s.bump (.hkCount (domOf (domOfHbm a))) 63 32 1
  (s.uncachedWrite a (leBytes n (atomNew code old operand compare)), old)

/-- The RMA unit's next atomic on some 8 bytes of host memory begins with its read (R278). -/
def State.hostAtomNext (s : State) (link addr : Nat) : State :=
  match s.hatoms.find? (fun h => h.link = link ∧ h.addr = addr) with
  | some h => match tFind s.tfl h.tf with
    | some t => s.sendReq link (.rd ⟨addr, 8, some t.dctx, s.ctxFn t.dctx, .atom h.tf h.psn⟩)
    | none => s
  | none => s

/-- An atomic on host memory queued behind those on the same 8 bytes (R278). -/
def State.hostAtom (s : State) (tf psn link a : Nat) (use : Option Nat) : State :=
  let addr := a - a % 8
  let busy := s.hatoms.any (fun h => h.link = link && h.addr = addr)
  let s := { s with hatoms := s.hatoms ++ [⟨use, link, addr, tf, psn⟩] }
  if busy then s else s.hostAtomNext link addr

/-- Whether an atomic on host memory waits behind another on the same 8 bytes (R278). -/
def State.atomWaits (s : State) (a : HostAtom) : Bool :=
  !decide (s.hatoms.find? (fun b => b.link = a.link ∧ b.addr = a.addr) = some a)

/-- Atomics on host memory given up: their packets are put off (R286), and the uses under which they were made end. -/
def State.putOffAtoms (s : State) (p : State → HostAtom → Bool) : State :=
  let mine := s.hatoms.filter (p s)
  let s := { s with hatoms := s.hatoms.filter (fun a => !p s a) }
  mine.foldl (fun t a =>
    let t := t.endHeld a.use
    match t.issuedPkt a.tf a.psn with
    | some p => t.putOff a.tf p 0x11
    | none => t) s

/-- An atomic on host memory has ended: the next on the same 8 bytes begins. -/
def State.hostAtomEnds (s : State) (tf psn : Nat) : State :=
  match s.hatoms.find? (fun h => h.tf = tf ∧ h.psn = psn) with
  | none => s
  | some h => ({ s with hatoms := s.hatoms.filter (fun g => !(g.tf = tf && g.psn = psn)) }.endHeld h.use).hostAtomNext h.link h.addr

/-- The read of a host atomic has returned (R278): the new value is written with one ORDERED MWR
where it differs, and the packet is delivered when that write has been acknowledged. -/
def State.hostAtomRead (s : State) (tf psn : Nat) (bs : List Byte) : State :=
  match s.issuedPkt tf psn, s.hatoms.find? (fun h => h.tf = tf ∧ h.psn = psn), tFind s.tfl tf with
  | some p, some h, some t =>
    let code := Pkt.tag p
    let n := atomSize (code / 16 % 8)
    let off := Pkt.addr p % 8
    let old := ofLe ((bs.drop off).take n)
    let a := atomArgs p
    let new := atomNew code old a.1 a.2.1
    if new = old then (s.atomDone tf p old).hostAtomEnds tf psn
    else
      let s := s.modTfl tf (fun t => { t with issued := t.issued.map (fun i => if i.psn = psn then { i with stage := 16 + old } else i) })
      s.hostWrite h.link (s.ctxFn t.dctx) (some t.dctx) (h.addr + off) (leBytes n new) (.atom tf psn)
  | _, _, _ => s.hostAtomEnds tf psn

/-- The write of a host atomic has been acknowledged (R278). -/
def State.hostAtomWritten (s : State) (tf psn : Nat) : State :=
  match tFind s.tfl tf with
  | none => s.hostAtomEnds tf psn
  | some t => match t.issued.find? (fun i => i.psn = psn) with
    | some i => (s.atomDone tf i.pkt (i.stage - 16)).hostAtomEnds tf psn
    | none => s.hostAtomEnds tf psn

/-! ### EVENT (R264) -/

/-- Packets held behind a message that has been matched are released, those of aborted messages
passed over (R241, R282). -/
def State.releaseSends : Nat → State → Nat → State
  | 0, s, _ => s
  | k + 1, s, tf =>
    match tFind s.tfl tf with
    | none => s
    | some t =>
      if t.skipMsn.contains t.nextMsn then
        State.releaseSends k (s.modTfl tf (fun t => { t with
          nextMsn := wrap 24 (t.nextMsn + 1), skipMsn := t.skipMsn.filter (· ≠ t.nextMsn) })) tf
      else
        let due := t.sends.filter (fun h => h.msn = t.nextMsn)
        let s := s.modTfl tf (fun t => { t with sends := t.sends.filter (fun h => h.msn ≠ t.nextMsn) })
        let s := s.uxGive t.dctx due.length
        due.foldl (fun s h => s.push (.rx tf h.pkt true true)) s

/-- An aborted SEND that has not been matched is passed over when its turn comes (R282). -/
def State.skipSend (s : State) (tf msn : Nat) : State :=
  match tFind s.tfl tf with
  | none => s
  | some t =>
    if 2 ^ 23 ≤ dist 24 msn t.nextMsn then s
    else (s.modTfl tf (fun t => { t with skipMsn := msn :: t.skipMsn })).releaseSends 1024 tf

/-- MSG_ABORT at the target (R282). The packet itself does not say whether the message is a PUT or a SEND: what is known of
it does, or else its next packet to arrive. -/
def State.msgAbort (s : State) (tf : Nat) (first : Nat) (msn : Nat) : State :=
  match tFind s.tfl tf with
  | none => s
  | some t =>
    let s := s.modTfl tf (fun t => { t with prog := t.prog.filter (fun g => g.first ≠ first), aborted := first :: t.aborted })
    let mine (h : HeldSend) : Bool := Pkt.firstPsn h.pkt = first
    match s.mes.find? (fun e => e.2.tf = tf && e.2.firstPsn = first && (e.2.kind = 2 || e.2.kind = 3)) with
    | some e => if e.2.kind = 2 then s.recvFails e.1 0x0B 0 else s.freeMe e.1
    | none =>
      if t.sends.any mine then
        let held := t.sends.filter mine
        let s := (s.modTfl tf (fun t => { t with sends := t.sends.filter (fun h => !mine h) })).uxGive t.dctx held.length
        let s := held.foldl (fun s h => s.deliver tf h.pkt) s
        s.skipSend tf msn
      else if t.prog.any (fun g => g.first = first) ||
          t.issued.any (fun i => Pkt.opc i.pkt = 1 && Pkt.firstPsn i.pkt = first) then s
      else s.modTfl tf (fun t => { t with unsure := (first, msn) :: t.unsure })

/-- A packet of an aborted message is discarded and acknowledged; the first shows what the message is (R282). -/
def State.abortedPkt (s : State) (tf : Nat) (t : TFlow) (p : Pkt) : State :=
  let first := Pkt.firstPsn p
  let s := match t.unsure.find? (fun u => u.1 = first) with
    | none => s
    | some u =>
      let s := s.modTfl tf (fun t => { t with unsure := t.unsure.filter (fun v => v.1 ≠ first) })
      if Pkt.opc p = 6 then s.skipSend tf u.2 else s
  s.deliver tf p

/-- The SEND command that a rendezvous finish names, by peer and MSN (R251): the one that started first, where the flow has
been opened anew since. -/
def State.rndvOp (s : State) (t : TFlow) (msn : Nat) : Option Nat :=
  let mine (o : Op) : Bool := o.aux = 1 && o.performed && o.ctx = t.dctx && o.peer = some (t.srcFa, t.sctx, msn)
  ((s.ops.filter (fun e => mine e.2)).foldl (fun (best : Option (Nat × Nat)) e =>
    match best with
    | none => some (e.1, e.2.started)
    | some b => if e.2.started < b.2 then some (e.1, e.2.started) else some b) none).map (fun b => b.1)

/-- An EVENT's effects. -/
def State.eventEffects (s : State) (tf : Nat) (t : TFlow) (p : Pkt) : State :=
  let tag := Pkt.tag p
  let s := match tag / 2 ^ 56 with
    | 0x02 =>
      (match s.rndvOp t (Pkt.msn p) with
        | some op =>
          let st := tag / 2 ^ 48 % 256
          (s.modOp op (fun o => { o with aux := 0, status := st, detail := tag / 2 ^ 40 % 256 })).settleCmd op
        | none => s)
    | 0x03 =>
      s.postCtx t.dctx 0x0603 [(6, 63, 0, Pkt.addr p), (5, 31, 0, Pkt.mlen p), (4, 47, 44, tag / 2 ^ 36 % 16),
        (3, 63, 32, tag % 2 ^ 32), (7, 63, 40, t.srcFa), (7, 39, 18, t.sctx)]
    | 0x04 => s.msgAbort tf (tag % 2 ^ 32) (Pkt.msn p)
    | _ => s
  s.deliver tf p

/-! ### SEND packets (R241 to R248) -/

/-- A packet of a matched message lands (R242, R244, R247, R248); where the entry has been freed, the message has ended, and
the packet is acknowledged. -/
def State.landSend (s : State) (tf : Nat) (p : Pkt) (m : Nat) : State :=
  match tFind s.mes m, tFind s.tfl tf with
  | some x, some t =>
    let n := if Pkt.isRts p then 0 else Pkt.n p
    let bs := (Pkt.payload p).take n
    if x.kind = 2 && Pkt.isRts p then s.deliver tf p
    else if x.kind = 2 then
      let k := min n (x.bufLen - Pkt.moff p)
      if k = 0 || x.discard then
        ((s.deliver tf p).modMe m (fun x => { x with counted := x.counted + n })).recvCheck m
      else
        match s.admitRuns tf t p with
        | none => s.runqDrop t.dctx
        | some (s, true) => s.markIssued tf p 0
        | some (s, false) =>
          (s.markIssued tf p 1).startXfer (mkXfer (s.ctxStall x.ctx) x.ctx 1 1 true false
            (.recvPkt tf (Pkt.psn p) m n) (x.buffer + Pkt.moff p) k (bs.take k))
    else if Pkt.isRts p then s.deliver tf p
    else if x.hdrOnly then
      let b := ceilDiv x.mlen 4096
      if s.uxRoom x.ctx b then
        let bl := s.pickBlocks x.ctx b
        let s := s.uxTake x.ctx b
        let s := s.modMe m (fun x => { x with hdrOnly := false, blocks := bl, ux := x.ux ++ [(Pkt.moff p, bs)], counted := x.counted + n })
        s.deliver tf p
      else s.uxDiscard x.ctx true
    else (s.modMe m (fun x => { x with ux := x.ux ++ [(Pkt.moff p, bs)], counted := x.counted + n })).deliver tf p
  | none, some _ => s.deliver tf p
  | _, _ => s

/-- A SEND packet meets the matching unit (R241). -/
def State.sendEffects (s : State) (tf : Nat) (t : TFlow) (p : Pkt) (released : Bool) : State :=
  let c := t.dctx
  if !bit (s.ctxWord c 8) 63 then s.refuse tf p 0x06 0
  else
    let d := dist 24 (Pkt.msn p) t.nextMsn
    if 2 ^ 23 ≤ d then
      (match s.findMsg tf (Pkt.msn p) with
        | some m => s.landSend tf p m
        | none => s.deliver tf p)
    else if d = 0 then
      (match s.matchMsg tf t p with
        | none => s.uxDiscard c true
        | some (s, m) =>
          let s := s.modTfl tf (fun t => { t with nextMsn := wrap 24 (t.nextMsn + 1) })
          (s.landSend tf p m).releaseSends 1024 tf)
    else if 1024 ≤ d then s.windowDiscard c
    else if released then s
    else if s.uxRoom c 1 then
      (((s.uxTake c 1).modTfl tf (fun t => { t with sends := t.sends ++ [⟨c, Pkt.msn p, p⟩] })).releaseFlagged tf)
    else s.uxDiscard c false

/-! ### New packets -/

/-- A new packet on its flow (R269): the flagged hold, the handlers, the opcode checks and the
effects. `flagDone` says that its flagged hold is over, `matchDone` that it was held for MSN order. A flagged packet
whose lower PSNs have all arrived is taken though another is held (R141, log entry 158). -/
def State.rxNew (s : State) (tf : Nat) (p : Pkt) (flagDone matchDone : Bool) : State :=
  match tFind s.tfl tf with
  | none => s
  | some t =>
    let psn := Pkt.psn p
    let st := stallOf (s.ctxStall t.dctx)
    if Pkt.flagged p && !flagDone && !t.lowerArrived psn then
      match t.held with
      | none => s.modTfl tf (fun t => { t with held := some p })
      | some _ => s.bump (.rmaCount st) 15 0 1
    else if (Pkt.opc p = 1 || Pkt.opc p = 6) && t.aborted.contains (Pkt.firstPsn p) then s.abortedPkt tf t p
    else match Pkt.opc p with
      | 0x01 =>
        (match s.admitRuns tf t p with
          | none => s.runqDrop t.dctx
          | some (s, true) => s.markIssued tf p 0
          | some (s, false) => s.putEffects tf t p)
      | 0x02 => s.getEffects tf t p
      | 0x04 => s.atomEffects tf t p
      | 0x06 => s.sendEffects tf t p matchDone
      | _ => s.eventEffects tf t p

/-- What follows a header run's end (R331): 0 DEFAULT, 1 CONSUMED, else the packet is discarded
without acknowledgement. `left` is what the run left of the budget. -/
def State.disposePkt (s : State) (tf psn disp left : Nat) : State :=
  match s.issuedPkt tf psn, tFind s.tfl tf with
  | some p, some t =>
    let s := s.modTfl tf (fun t => { t with issued := t.issued.map (fun i => if i.psn = psn then { i with stage := 2 + left } else i) })
    let m := s.findMsg tf (Pkt.msn p)
    match disp with
    | 0 =>
      if Pkt.opc p = 1 then s.putEffects tf t p
      else match m with
        | some m => match tFind s.mes m with
          | some x =>
            let n := Pkt.n p
            let k := min n (x.bufLen - Pkt.moff p)
            if x.discard then
              ((s.deliver tf p).modMe m (fun x => { x with counted := x.counted + n })).recvCheck m
            else s.startXfer (mkXfer (s.ctxStall x.ctx) x.ctx 1 1 true false (.recvPkt tf psn m n) (x.buffer + Pkt.moff p) k
              (((Pkt.payload p).take n).take k))
          | none => s.deliver tf p
        | none => s.deliver tf p
    | 1 =>
      let s := s.firePayload tf p
      if Pkt.opc p = 1 then (s.countPut tf p).deliver tf p
      else match m with
        | some m => ((s.deliver tf p).modMe m (fun x => { x with counted := x.counted + Pkt.n p })).recvCheck m
        | none => s.deliver tf p
    | _ => s.modTfl tf (fun t => { t with issued := t.issued.filter (fun i => i.psn ≠ psn) })
  | _, _ => s

/-! ### What a packet meets at an endpoint (R268, R269) -/

/-- Whether a packet's fields break R260 or R261. LAST is 0 on the opcodes that carry no message's bytes (log entry 166). -/
def Pkt.malformed (p : Pkt) : Bool :=
  let o := Pkt.opc p
  let n := min 4096 (Pkt.mlen p - Pkt.moff p)
  Pkt.repro p || Pkt.solicited p ||
  (match o with
    | 0x01 => Pkt.vclass p ≠ 1 || Pkt.moff p % 4096 ≠ 0 || decide (Pkt.mlen p < Pkt.moff p) || Pkt.len p ≠ 1 + ceilDiv n 64 ||
        (Pkt.last p != decide (Pkt.moff p + n = Pkt.mlen p)) ||
        (decide (Pkt.moff p ≠ 0) && decide (Pkt.mlen p = Pkt.moff p))
    | 0x02 => Pkt.last p || Pkt.vclass p ≠ 1 || Pkt.len p ≠ 1 || Pkt.moff p % 65536 ≠ 0 || decide (65536 < Pkt.mlen p)
    | 0x04 => Pkt.last p || Pkt.vclass p ≠ 1 || Pkt.len p ≠ 2 || !atomOk (Pkt.tag p) ||
        (match p with | _ :: f :: _ => fld f.bits 351 0 ≠ 0 | _ => true)
    | 0x06 => Pkt.vclass p ≠ 1 ||
        (if Pkt.isRts p then Pkt.len p ≠ 2 || !Pkt.last p
         else Pkt.moff p % 4096 ≠ 0 || decide (Pkt.mlen p < Pkt.moff p) || Pkt.len p ≠ 1 + ceilDiv n 64 ||
          (Pkt.last p != decide (Pkt.moff p + n = Pkt.mlen p)) || (decide (Pkt.moff p ≠ 0) && decide (Pkt.mlen p = Pkt.moff p)))
    | 0x18 => Pkt.last p || Pkt.vclass p ≠ 1 || Pkt.len p ≠ 1 || !(1 ≤ Pkt.tag p / 2 ^ 56 && Pkt.tag p / 2 ^ 56 ≤ 4)
    | _ => true)

/-- The target flow of a packet (R262). -/
def State.findTfl (s : State) (p : Pkt) : Option Nat :=
  (s.tfl.find? (fun e => e.2.srcFa = Pkt.srcFa p ∧ e.2.sctx = Pkt.sctx p ∧ e.2.dctx = Pkt.dctx p)).map (fun e => e.1)

/-- The atomics on host memory of a flow that ends, but for those in progress, are given up (R278). -/
def State.dropAtoms (s : State) (tf : Nat) : State :=
  let mine := s.hatoms.filter (fun a => a.tf = tf && s.atomWaits a)
  mine.foldl (fun t a => t.endHeld a.use) { s with hatoms := s.hatoms.filter (fun a => !mine.contains a) }

/-- An incarnation of a target flow ends (R263): its bound receives fail, its held packets, cached
results and unmatched blocks are freed. Records of whole messages stay. -/
def State.endTfl (s : State) (tf : Nat) : State :=
  match tFind s.tfl tf with
  | none => s
  | some t =>
    let s := s.uxGive t.dctx t.sends.length
    let mine := s.mes.filter (fun e => e.2.tf = tf ∧ (e.2.kind = 2 ∨ e.2.kind = 3))
    let s := mine.foldl (fun s e =>
      if e.2.kind = 2 then s.recvFails e.1 0x0B 0
      else if e.2.kind = 3 && !e.2.rndv && decide (e.2.counted < e.2.mlen) then s.freeMe e.1
      else s) s
    { s.dropAtoms tf with tfl := tDel tf s.tfl }

/-- A target flow record as FLOW_OPEN makes it (R263). -/
def TFlow.fresh (p : Pkt) (now : Nat) (ctrl : Word) : TFlow :=
  { ctrl := ctrl, srcFa := Pkt.srcFa p, sctx := Pkt.sctx p, dctx := Pkt.dctx p, start := Pkt.psn p, cum := Pkt.psn p, deliv := [],
    refused := [], cause := 0, causeDetail := 0, nextMsn := 0, skipMsn := [], aborted := [], prog := [], atoms := [],
    unsure := [], held := none, sends := [], issued := [], unacked := 0, firstUnacked := none,
    newestPsn := Pkt.psn p, newestTsl := Pkt.tsl p, newestAt := now, lastRx := now }

/-- FLOW_OPEN (R263). A new incarnation is a new record, so that what is kept of the old one stays apart from it. -/
def State.flowOpen (s : State) (p : Pkt) : State :=
  match s.findTfl p with
  | some tf => match tFind s.tfl tf with
    | some t =>
      if Pkt.psn p = t.start then
        (s.modTfl tf (fun t => { t with newestPsn := Pkt.psn p, newestTsl := Pkt.tsl p, newestAt := s.clk, lastRx := s.clk })).sendAck tf
      else
        let s := s.endTfl tf
        let tf := s.serial
        { s with tfl := tPut tf (TFlow.fresh p s.clk (s.rmaCtrlOf (Pkt.dctx p))) s.tfl, serial := s.serial + 1 }.sendAck tf
    | none => s
  | none =>
    if s.flowRoom (Pkt.dctx p) then
      let tf := s.serial
      ({ s with tfl := tPut tf (TFlow.fresh p s.clk (s.rmaCtrlOf (Pkt.dctx p))) s.tfl, serial := s.serial + 1 }.flowTake (Pkt.dctx p)).sendAck tf
    else s.sendNack none p 0x12 0

/-- A duplicate (R269). -/
def State.duplicate (s : State) (tf : Nat) (t : TFlow) (p : Pkt) : State :=
  let psn := Pkt.psn p
  let s := s.bump (.rmaCount (stallOf (s.ctxStall t.dctx))) 47 32 1
  if Pkt.opc p = 4 && !t.refused.contains psn then
    match t.atoms.find? (fun a => a.1 = psn) with
    | some a => s.sendRsp t p 0x05 0 0 a.2.1.toNat [] false
    | none => s
  else if t.refused.contains psn then s.sendNack (some t) p t.cause t.causeDetail
  else if Pkt.opc p = 2 then s.getAgain tf t p
  else s.ackDup tf p

/-- A sequenced packet classified by its PSN (R269). -/
def State.classify (s : State) (tf : Nat) (p : Pkt) : State :=
  match tFind s.tfl tf with
  | none => s
  | some t =>
    let psn := Pkt.psn p
    let s := s.modTfl tf (fun t => { t with lastRx := s.clk })
    if atOrAbove 32 t.cum psn || t.deliv.contains psn then s.duplicate tf t p
    else if 256 < dist 32 psn t.cum then s.bump (.rmaCount (stallOf (s.ctxStall t.dctx))) 31 16 1
    else if t.held.any (fun h => Pkt.psn h = psn) || t.sends.any (fun h => Pkt.psn h.pkt = psn) ||
        t.issued.any (fun i => i.psn = psn) then s
    else s.rxNew tf p false false

end Sys2Proof.Machine
end

