-- ==== Sys2Proof/Machine/Groom.lean ====
section
/-! DEFINITION. The Groom's instructions (R336 to R345), one definition each over the shared forms
of Operands.lean, and the life of a run: dispatch, end, timeout, reset and fence (R327 to R334, R349,
R465). -/

namespace Sys2Proof.Machine

/-! ### Arithmetic -/

/-- An instruction whose result is a value, or that is ILLEGAL. -/
def State.valueOp (s : State) (g : GroomId) (w : BitVec 32) (rd : BitVec 5) (v : Run → Option Word) : State :=
  s.instr g w noWait (fun r t => match v r with
    | some x => t.writeReg g rd x
    | none => t.raise g 1 0 0)

def doAlu (g : GroomId) (rd rs1 rs2 : BitVec 5) (fn : BitVec 11) (s : State) : State :=
  s.valueOp g (encR 0x00 rd rs1 rs2 fn) rd
    (fun r => if aluUnary fn.toNat && rs2 ≠ 0 then none else aluFn fn.toNat (r.get rs1) (r.get rs2))
def doAddi (g : GroomId) (rd rs1 : BitVec 5) (imm : BitVec 16) (s : State) : State :=
  s.valueOp g (encI 0x01 rd rs1 imm) rd (fun r => some (r.get rs1 + sext16 imm))
def doAndi (g : GroomId) (rd rs1 : BitVec 5) (imm : BitVec 16) (s : State) : State :=
  s.valueOp g (encI 0x02 rd rs1 imm) rd (fun r => some (r.get rs1 &&& imm.setWidth 64))
def doOri (g : GroomId) (rd rs1 : BitVec 5) (imm : BitVec 16) (s : State) : State :=
  s.valueOp g (encI 0x03 rd rs1 imm) rd (fun r => some (r.get rs1 ||| imm.setWidth 64))
def doXori (g : GroomId) (rd rs1 : BitVec 5) (imm : BitVec 16) (s : State) : State :=
  s.valueOp g (encI 0x04 rd rs1 imm) rd (fun r => some (r.get rs1 ^^^ imm.setWidth 64))
def doSlti (g : GroomId) (rd rs1 : BitVec 5) (imm : BitVec 16) (s : State) : State :=
  s.valueOp g (encI 0x05 rd rs1 imm) rd (fun r => some (if (r.get rs1).slt (sext16 imm) then 1 else 0))
def doSltiu (g : GroomId) (rd rs1 : BitVec 5) (imm : BitVec 16) (s : State) : State :=
  s.valueOp g (encI 0x06 rd rs1 imm) rd (fun r => some (if (r.get rs1).ult (sext16 imm) then 1 else 0))
def doShi (g : GroomId) (rd rs1 : BitVec 5) (imm : BitVec 16) (s : State) : State :=
  s.valueOp g (encI 0x07 rd rs1 imm) rd (fun r => shiFn imm (r.get rs1))
def doLui (g : GroomId) (rd rs1 : BitVec 5) (imm : BitVec 16) (s : State) : State :=
  s.valueOp g (encI 0x08 rd rs1 imm) rd (fun _ => if rs1 ≠ 0 then none else some (sext16 imm <<< 16))
def doShori (g : GroomId) (rd rs1 : BitVec 5) (imm : BitVec 16) (s : State) : State :=
  s.valueOp g (encI 0x09 rd rs1 imm) rd (fun r => some ((r.get rs1 <<< 16) ||| imm.setWidth 64))

/-! ### Loads and stores -/

/-- Bytes of an access (R335). -/
def accSize (size : BitVec 2) : Nat := 2 ^ size.toNat

/-- What an LD takes from local space (R321, R354): its own buffered store's bytes, or the place's. Private scratch and the
packet window are the run's alone. -/
def State.loadLocal (s : State) (g : GroomId) (r : Run) (l : Local) (a n : Nat) (acq : Bool) : Nat × State :=
  match r.own false a n, l with
  | some v, _ => (v, s)
  | none, .shared o =>
    let now := s.localRead g r l n
    let x := if acq then (now, s) else s.plainLoad g r false (sharedAddr g.s o) n now
    (ofLe x.1, x.2)
  | none, _ => (ofLe (s.localRead g r l n), s)

/-- LD (R321, R336, R338). With an acquire mark it orders the run's later loads (R354). -/
def doLd (g : GroomId) (rd base : BitVec 5) (size mark : BitVec 2) (off : BitVec 12) (s : State) : State :=
  let n := accSize size
  s.instr g (encM 0x10 rd base size mark off)
    (fun r _ => decide (mark.toNat < 2) && r.meets false (r.addr base off) n)
    (fun r t =>
      let a := r.addr base off
      if 2 ≤ mark.toNat then t.raise g 1 0 0
      else if a % n ≠ 0 then t.raise g 2 0 a
      else match r.local_ a n with
        | .range => t.raise g 3 0 a
        | .perm => t.raise g 4 0 a
        | l =>
          let acq := decide (mark.toNat = 1)
          let v := t.loadLocal g r l a n acq
          (if acq then v.2.catchUp g else v.2).writeReg g rd (BitVec.ofNat 64 v.1))

/-- ST (R321, R336, R342). With all 16 entries of the store buffer in use, it waits. -/
def doSt (g : GroomId) (rs base : BitVec 5) (size mark : BitVec 2) (off : BitVec 12) (s : State) : State :=
  let n := accSize size
  s.instr g (encM 0x11 rs base size mark off) (fun r _ => decide (16 ≤ r.stores.length))
    (fun r t =>
      let a := r.addr base off
      if mark.toNat = 1 ∨ mark.toNat = 3 then t.raise g 1 0 0
      else if a % n ≠ 0 then t.raise g 2 0 a
      else match r.local_ a n with
        | .range => t.raise g 3 0 a
        | .perm => t.raise g 4 0 a
        | .window _ => t.raise g 4 0 a
        | _ => (t.modRun g Run.step).pushStore g none a n ((r.get rs).toNat % 2 ^ (8 * n)) (mark.toNat = 2) none)

/-- LDV (R340): one use; the run waits until its data has arrived. -/
def doLdv (g : GroomId) (rd base : BitVec 5) (size mark : BitVec 2) (off : BitVec 12) (s : State) : State :=
  let n := accSize size
  s.instr g (encM 0x12 rd base size mark off)
    (fun r _ => decide (mark.toNat < 2) && r.meets true (r.addr base off) n)
    (fun r t =>
      let a := r.addr base off
      if 2 ≤ mark.toNat then t.raise g 1 0 0
      else if a % n ≠ 0 then t.raise g 2 0 a
      else
        (t.modRun g (fun r => { r with wait := .ldv a (r.own true a n) (mark.toNat = 1) })).startXfer
          (mkXfer g.s.val r.ctx 0 2 false false (.groomLd g r.id rd.toNat n) a n []))

/-- STV (R340): translated as it executes; the store then enters the buffer. -/
def doStv (g : GroomId) (rs base : BitVec 5) (size mark : BitVec 2) (off : BitVec 12) (s : State) : State :=
  let n := accSize size
  s.instr g (encM 0x13 rs base size mark off) (fun r _ => decide (16 ≤ r.stores.length))
    (fun r t =>
      let a := r.addr base off
      if mark.toNat = 1 ∨ mark.toNat = 3 then t.raise g 1 0 0
      else if a % n ≠ 0 then t.raise g 2 0 a
      else
        (t.modRun g (fun r => { r with wait := .stv a })).startXfer
          (mkXfer g.s.val r.ctx 1 2 false true (.groomSt g r.id (b2n (mark.toNat = 2))) a n
            (leBytes n (r.get rs).toNat)))

/-- AMOL (R336, R356): it fences before and after itself, so it waits for the store buffer. -/
def doAmol (g : GroomId) (rd rs1 rs2 : BitVec 5) (fn : BitVec 11) (s : State) : State :=
  s.instr g (encR 0x14 rd rs1 rs2 fn) (fun r _ => decide (fn.toNat ≤ 4 ∧ r.stores ≠ []))
    (fun r t =>
      let a := (r.get rs1).toNat
      if 4 < fn.toNat then t.raise g 1 0 0
      else if a % 8 ≠ 0 then t.raise g 2 0 a
      else match r.local_ a 8 with
        | .shared o =>
          let old := BitVec.ofNat 64 (ofLe (t.localRead g r (.shared o) 8))
          (match amolFn fn.toNat old (r.get rs2) (r.get rd) with
            | some v => ((t.localWrite g a (leBytes 8 v.toNat)).catchUp g).writeReg g rd old
            | none => t.raise g 1 0 0)
        | .perm => t.raise g 4 0 a
        | .window _ => t.raise g 4 0 a
        | _ => t.raise g 3 0 a)

/-- HAMO (R344, R378, R379): it fences before and after itself; the address is translated as it
executes. -/
def doHamo (g : GroomId) (rd rs1 rs2 : BitVec 5) (fn : BitVec 11) (s : State) : State :=
  s.instr g (encR 0x15 rd rs1 rs2 fn) (fun r _ => atomOk fn.toNat && decide (r.stores ≠ []))
    (fun r t =>
      let a := (r.get rs1).toNat
      let n := atomSize (fn.toNat / 16 % 8)
      if !atomOk fn.toNat then t.raise g 1 0 0
      else if a % n ≠ 0 then t.raise g 2 0 a
      else
        (t.modRun g (fun r' => { r' with wait := .hamo a fn.toNat (r.get rs2).toNat (r.get rd).toNat })).startXfer
          (mkXfer g.s.val r.ctx 2 2 false true (.groomAmo g r.id rd.toNat) a n []))

/-- The status of a failed transfer of an LDV or STV as a Groom's exception (R346): a table walk that timed out is a
translation fault of an STV, which reads nothing itself. -/
def State.raiseXfer (s : State) (g : GroomId) (load : Bool) (status detail addr : Nat) : State :=
  match status with
  | 6 => s.raise g 6 detail addr
  | 7 => s.raise g 7 1 addr
  | 8 => if load then s.raise g 7 2 addr else s.raise g 6 detail addr
  | _ => s.raise g 8 0 addr

/-- Whether a run of this number waits on a Groom. -/
def State.waiting (s : State) (g : GroomId) (run : Nat) : Bool :=
  match (s.groom g).run with
  | some r => decide (r.id = run) && decide (r.wait ≠ .none)
  | none => false

/-- A Groom's load has its data (R340): the run's own buffered store's, or what was read; of HBM a plain load may have been
performed earlier (R354). -/
def State.groomLoaded (s : State) (g : GroomId) (run rd size status detail addr : Nat) (phys : Option Phys) (bs : List Byte) : State :=
  if !s.waiting g run then s
  else if status ≠ 0 then s.raiseXfer g true status detail addr
  else match (s.groom g).run with
    | none => s
    | some r =>
      let (own, acq) : Option Nat × Bool := match r.wait with | .ldv _ v a => (v, a) | _ => (none, false)
      let x : List Byte × State := match own, phys with
        | none, some (.hbm a) => if acq then (bs, s) else s.plainLoad g r true a size (bs.take size)
        | _, _ => (bs, s)
      let v := own.getD (ofLe (x.1.take size))
      (if acq then x.2.catchUp g else x.2).modRun g (fun r => ({ r with wait := .none }.put (BitVec.ofNat 5 rd) (BitVec.ofNat 64 v)).step)

/-- A Groom's store has been translated (R340); a run that has ended meanwhile makes none. -/
def State.groomStored (s : State) (g : GroomId) (run release status detail addr : Nat) (phys : Option Phys) (bs : List Byte)
    (use : Option Nat) : State :=
  if !s.waiting g run then s.endHeld use
  else if status ≠ 0 then s.raiseXfer g false status detail addr
  else
    let va := match (s.groom g).run with
      | some r => (match r.wait with | .stv a => a | _ => 0)
      | none => 0
    (s.modRun g (fun r => { r with wait := .none }.step)).pushStore g phys va bs.length (ofLe bs) (release = 1) use

/-- A Groom's hitch atomic has been translated (R344), and is made or not within the same command. A translation fault raises
TRANSLATION; an address that does not translate to one of HBM, its link lost or not, raises HITCH with detail 0; a refusal
raises it with the status (R346). -/
def State.groomAtom (s : State) (g : GroomId) (run rd status detail addr : Nat) (phys : Option Phys) (use : Option Nat) : State :=
  let s := s.endHeld use
  if !s.waiting g run then s
  else if status = 6 ∨ status = 8 then s.raise g 6 detail addr
  else match (s.groom g).run with
    | none => s
    | some r => match r.wait, (if status = 0 then phys else none) with
      | .hamo va fn x c, some (.hbm a) =>
        if atomBad fn then s.raise g 10 0x14 va
        else
          let t := s.hitchAtom a fn x c
          (t.1.catchUp g).modRun g (fun r => ({ r with wait := .none }.put (BitVec.ofNat 5 rd) (BitVec.ofNat 64 t.2)).step)
      | .hamo va _ _ _, _ => s.raise g 10 0 va
      | _, _ => s

/-! ### Locks -/

/-- HLOCK (R344, R384): an acquire (R356). -/
def doHlock (g : GroomId) (rd rs1 : BitVec 5) (imm : BitVec 16) (s : State) : State :=
  s.instr g (encI 0x16 rd rs1 imm) noWait
    (fun r t =>
      if fld imm 15 9 ≠ 0 then t.raise g 1 0 0
      else
        let n := fld (r.get rs1) 15 0
        match t.acquire (g.s.val / 8) n (.run g) (fld imm 7 0) (bit imm 8) with
        | (3, t) => t.modRun g (fun r => { r with wait := .hlock rd.toNat n })
        | (st, t) => if 0x10 ≤ st then t.raise g 10 st 0 else (t.catchUp g).writeReg g rd (BitVec.ofNat 64 st))

/-- HUNLOCK (R344, R384, R356): a release, so it waits for the store buffer. -/
def doHunlock (g : GroomId) (rd rs1 : BitVec 5) (imm : BitVec 16) (s : State) : State :=
  s.instr g (encI 0x17 rd rs1 imm) (fun r _ => decide (rd = 0 ∧ imm = 0 ∧ r.stores ≠ []))
    (fun r t =>
      if rd ≠ 0 ∨ imm ≠ 0 then t.raise g 1 0 0
      else match t.release (g.s.val / 8) (fld (r.get rs1) 15 0) (.run g) with
        | (0, t) => t.modRun g Run.step
        | (st, t) => t.raise g 10 st 0)

/-! ### Branches and jumps -/

/-- A pc moved by a signed offset. -/
def pcPlus (pc : Nat) (off : Int) : Nat := (((pc : Int) + off) % (2 ^ 64 : Nat)).toNat

/-- A branch (R335, R336). -/
def State.branch (s : State) (g : GroomId) (op : Nat) (rs1 rs2 : BitVec 5) (off : BitVec 16) (c : Word → Word → Bool) : State :=
  s.instr g (encI op rs1 rs2 off) noWait
    (fun r t => t.modRun g (fun x => { x with pc := if c (r.get rs1) (r.get rs2) then pcPlus x.pc off.toInt else x.pc + 1 }))

def doBeq (g : GroomId) (rs1 rs2 : BitVec 5) (off : BitVec 16) (s : State) : State :=
  s.branch g 0x18 rs1 rs2 off (fun a b => a = b)
def doBne (g : GroomId) (rs1 rs2 : BitVec 5) (off : BitVec 16) (s : State) : State :=
  s.branch g 0x19 rs1 rs2 off (fun a b => a ≠ b)
def doBlt (g : GroomId) (rs1 rs2 : BitVec 5) (off : BitVec 16) (s : State) : State :=
  s.branch g 0x1A rs1 rs2 off (fun a b => a.slt b)
def doBge (g : GroomId) (rs1 rs2 : BitVec 5) (off : BitVec 16) (s : State) : State :=
  s.branch g 0x1B rs1 rs2 off (fun a b => !a.slt b)
def doBltu (g : GroomId) (rs1 rs2 : BitVec 5) (off : BitVec 16) (s : State) : State :=
  s.branch g 0x1C rs1 rs2 off (fun a b => a.ult b)
def doBgeu (g : GroomId) (rs1 rs2 : BitVec 5) (off : BitVec 16) (s : State) : State :=
  s.branch g 0x1D rs1 rs2 off (fun a b => !a.ult b)

/-- JAL. -/
def doJal (g : GroomId) (off : BitVec 26) (s : State) : State :=
  s.instr g (encJ 0x1E off) noWait
    (fun r t => t.modRun g (fun x => { x.put 31 (BitVec.ofNat 64 (r.pc + 1)) with pc := pcPlus r.pc off.toInt }))

/-- JALR. -/
def doJalr (g : GroomId) (rd rs1 : BitVec 5) (imm : BitVec 16) (s : State) : State :=
  s.instr g (encI 0x1F rd rs1 imm) noWait
    (fun r t => t.modRun g (fun x => { x.put rd (BitVec.ofNat 64 (r.pc + 1)) with pc := (r.get rs1 + sext16 imm).toNat }))

/-! ### ISSUE, events, fence, CSRs and HALT -/

/-- Opcodes that ISSUE takes (R343). -/
def issueOk (opc : Nat) : Bool := opc ∈ [1, 2, 3, 4, 5, 6, 0x10, 0x11]

/-- The smallest handle that is free. -/
def Run.freeHandle (r : Run) : Nat := ((List.range 8).find? (fun h => r.handles.all (fun e => e.1 ≠ h))).getD 0

/-- Whether a store of the run to a command image in private scratch is not yet performed. -/
def Run.imageWaits (r : Run) (a : Nat) : Bool :=
  r.stores.any (fun y => y.phys.isNone && decide (a < y.addr + y.size ∧ y.addr < a + 1024))

/-- Whether an ISSUE waits: with 8 commands outstanding, or for a store to its image. -/
def Run.issueWaits (r : Run) (rs1 : BitVec 5) (imm : BitVec 16) : Bool :=
  decide (imm = 0 ∧ (8 ≤ r.handles.length ∨ r.imageWaits (r.get rs1).toNat))

/-- Whether a run of the Groom has 8 commands outstanding, so that an ISSUE would wait for one of them. -/
def State.issueFull (s : State) (g : GroomId) : Bool :=
  !s.frozen (.stall g.s) && !s.tack.stopping && (s.groom g).run.any (fun r => r.live && decide (8 ≤ r.handles.length))

/-- A run stands at an ISSUE, which it has not begun. -/
def State.issueStall (s : State) (g : GroomId) (w : BitVec 32) : State :=
  s.modRun g (fun r => if r.live && s.fetchWord r = w then { r with wait := .issue } else r)

/-- ISSUE (R343): with 8 commands outstanding it waits. -/
def doIssue (g : GroomId) (rd rs1 : BitVec 5) (imm : BitVec 16) (s : State) : State :=
  let w := encI 0x30 rd rs1 imm
  let full := imm = 0 && s.issueFull g
  let after (t : State) : State := if full then t.issueStall g w else t
  after (s.instr g w (fun r _ => r.issueWaits rs1 imm)
    (fun r t =>
      let a := (r.get rs1).toNat
      if imm ≠ 0 then t.raise g 1 0 0
      else if a % 64 ≠ 0 then t.raise g 2 0 a
      else if 0x20000 < a + 64 then t.raise g 9 1 a
      else
        let img (n : Nat) : List Word := wordsOf (8 * n) (memRead (t.groom g).scratch a (64 * n))
        let w := (img 1).getD 0 0
        if 0x20000 < a + 64 * hdrLen w ∨ hdrEvent w = true then t.raise g 9 1 a
        else if !issueOk (hdrOp w) then t.raise g 9 2 a
        else
          let id := t.serial
          let o : Op := { src := .groom g a, queue := 0x100000, count := 0, ctx := r.ctx, link := t.ctxLink r.ctx,
                          fn := t.ctxFn r.ctx, stall := g.s.val, words := img (hdrLen w), performed := true, left := 0,
                          status := 0, detail := 0, result := 0, aux := 2 }
          let h := r.freeHandle
          let t := { t with ops := tPut id o t.ops, serial := t.serial + 1 }.modRun g (fun r => { r with handles := r.handles ++ [(h, a, id)] })
          t.writeReg g rd (BitVec.ofNat 64 h)))

/-- WFE (R345). -/
def doWfe (g : GroomId) (rd rs1 : BitVec 5) (imm : BitVec 16) (s : State) : State :=
  s.instr g (encI 0x31 rd rs1 imm) noWait
    (fun r t =>
      let m := fld (r.get rs1) 4 0
      if imm ≠ 0 ∨ m = 0 then t.raise g 1 0 0
      else t.modRun g (fun r => wakeRun 0 { r with wait := .wfe rd.toNat m }))

/-- SIGNAL (R345): the other runs of the context in the stall. -/
def doSignal (g : GroomId) (rd rs1 : BitVec 5) (imm : BitVec 16) (s : State) : State :=
  s.instr g (encI 0x32 rd rs1 imm) noWait
    (fun r t =>
      if rd ≠ 0 ∨ rs1 ≠ 0 ∨ imm ≠ 0 then t.raise g 1 0 0
      else
        let t := (List.finRange 16).foldl (fun t i =>
          if i = g.g then t
          else t.modRun ⟨g.s, i⟩ (fun x => if x.ctx = r.ctx ∧ x.exc = none ∧ x.halted = false then wakeRun 8 x else x)) t
        t.modRun g Run.step)

/-- FENCE.SC (R355). -/
def doFence (g : GroomId) (rd rs1 : BitVec 5) (imm : BitVec 16) (s : State) : State :=
  s.instr g (encI 0x33 rd rs1 imm) (fun r _ => decide (rd = 0 ∧ rs1 = 0 ∧ imm = 0 ∧ r.stores ≠ []))
    (fun _ t => if rd ≠ 0 ∨ rs1 ≠ 0 ∨ imm ≠ 0 then t.raise g 1 0 0 else (t.catchUp g).modRun g Run.step)

/-- A CSR as a run reads it (R339, R478). -/
def State.csr (s : State) (g : GroomId) (r : Run) (n : Nat) : Option Word :=
  if n = 0 then some s.nt
  else if n = 1 then some (BitVec.ofNat 64 r.budget)
  else if n = 2 then some (mkWord 64 [(8, 8, g.s.val / 8), (7, 4, g.s.val % 8), (3, 0, g.g.val)])
  else if n = 3 then some (BitVec.ofNat 64 r.ref.kind)
  else if n = 4 then some r.timer
  else if n = 5 then some (BitVec.ofNat 64 r.events)
  else if n = 6 then some (BitVec.ofNat 64 (r.handles.foldl (fun a h => a ||| 2 ^ h.1) 0))
  else if 16 ≤ n ∧ n ≤ 23 then
    let i : Fin 8 := ⟨(n - 16) % 8, Nat.mod_lt _ (by decide)⟩
    let c := s.reg (.pmGsel g i)
    some (if bit c 60 && decide (fld c 37 16 = r.ctx) then s.reg (.pmGcnt g i) else 0)
  else none

/-- CSRR (R339). -/
def doCsrr (g : GroomId) (rd rs1 : BitVec 5) (imm : BitVec 16) (s : State) : State :=
  s.instr g (encI 0x34 rd rs1 imm) noWait
    (fun r t =>
      if rs1 ≠ 0 then t.raise g 1 0 0
      else match t.csr g r imm.toNat with
        | some v => t.writeReg g rd v
        | none => t.raise g 1 0 0)

/-- CSRW (R339): TIMER only. -/
def doCsrw (g : GroomId) (rd rs1 : BitVec 5) (imm : BitVec 16) (s : State) : State :=
  s.instr g (encI 0x35 rd rs1 imm) noWait
    (fun r t =>
      if rd ≠ 0 ∨ imm ≠ 4 then t.raise g 1 0 0
      else t.modRun g (fun x => { x.step with timer := r.get rs1, timerHit := false }))

/-- HALT (R331): of a header run with a g1 outside the dispositions it raises DISPOSITION. -/
def doHalt (g : GroomId) (rd rs1 : BitVec 5) (imm : BitVec 16) (s : State) : State :=
  s.instr g (encI 0x3F rd rs1 imm) noWait
    (fun r t =>
      if rd ≠ 0 ∨ rs1 ≠ 0 ∨ imm ≠ 0 then t.raise g 1 0 0
      else if r.ref.kind = 0 ∧ 2 < (r.get 1).toNat then t.raise g 13 (fld (r.get 1) 7 0) 0
      else t.modRun g (fun x => { x with halted := true }))

/-! ### Runs (R327 to R334) -/

/-- Whether a queued run may start: with serial = 1, no run of the same event kind of its context is
in progress (R328). -/
def State.mayRun (s : State) (st : Stall) (r : RunRef) : Bool :=
  !bit (s.ctxWord r.ctx 22) 56 ||
    (List.finRange 16).all (fun i => match (s.groom ⟨st, i⟩).run with
      | some x => decide (x.ctx ≠ r.ctx ∨ x.ref.kind ≠ r.kind)
      | none => true)

/-- The first run of a queue, where it may start, and the rest: the queue is served first in, first out (R327). -/
def State.takeRun (s : State) (st : Stall) : List RunRef → Option (RunRef × List RunRef)
  | [] => none
  | r :: rest => if s.mayRun st r then some (r, rest) else none

/-- Entry of a run (R324). -/
def runEntry (bind : List Word) (kind : Nat) : Nat :=
  let w := bind.getD 1 0
  match kind with
  | 0 => fld w 63 46
  | 1 => fld w 45 28
  | _ => fld w 27 10

/-- Registers at the start of a run (R329). -/
def runRegs (bind : List Word) (r : RunRef) : List Word :=
  [0, 0, BitVec.ofNat 64 r.kind, BitVec.ofNat 64 r.ctx, BitVec.ofNat 64 r.code,
   BitVec.ofNat 64 (if r.kind = 2 then 0 else r.psn), 0x400000, BitVec.ofNat 64 (if r.kind = 2 then 0 else r.n),
   bind.getD 3 0] ++ List.replicate 23 0

/-- A run starts on a Groom (R322, R329), under the binding as it stands now (R424). -/
def State.startRun (s : State) (g : GroomId) (r : RunRef) : State :=
  let bind := [s.ctxWord r.ctx 20, s.ctxWord r.ctx 21, s.ctxWord r.ctx 22, s.ctxWord r.ctx 23]
  let x : Run := { id := s.runs, ref := r, bind := bind, regs := runRegs bind r, pc := runEntry bind r.kind,
                   budget := r.budget.getD (fld (s.ctxWord r.ctx 22) 52 40), since := s.clk, wait := .none, stores := [], nextStore := 0, handles := [],
                   events := 0, timer := 0, timerHit := false, pastHbm := s.hbm, pastBuf := s.buf, seen := [],
                   halted := false, exc := none }
  { s with runs := s.runs + 1 }.modGroom g (fun y => { y with
    run := some x, scratch := if y.prevCtx = some r.ctx then y.scratch else [] })

/-- RUN_DISPATCH: a free Groom that is not switched off takes the next run of the run queue, or of
the completion queue (R327). -/
def doRunDispatch (g : GroomId) (completion : Bool) (s : State) : State :=
  let x := s.groom g
  if s.frozen (.stall g.s) || s.tack.stopping || s.holdDom = some (g.s.val / 8) || x.run.isSome || x.fenced || !s.rb (.grCtrl g.s) 0 || s.rb (.grCtrl g.s) (32 + g.g.val) then s
  else
    let q := s.runq g.s.val
    if completion then
      match s.takeRun g.s q.cpls with
      | none => s
      | some (r, rest) =>
        let q := { q with cpls := rest ++ q.spill.take 1, spill := q.spill.drop 1 }
        { s with runqs := tSet {} g.s.val q s.runqs }.startRun g r
    else
      match s.takeRun g.s q.runs with
      | none => s
      | some (r, rest) => { s with runqs := tSet {} g.s.val { q with runs := rest } s.runqs }.startRun g r

/-- Whether a Groom's run has reached step 1 of R332. -/
def State.runOver (s : State) (g : GroomId) : Bool :=
  match (s.groom g).run with
  | some r => r.halted || r.exc.isSome
  | none => false

/-- RUN_END (R332): once every command the run issued has completed and its store buffer has drained,
its locks are released and marked abandoned, and the disposition, or what R347 lists for an exception, follows. -/
def doRunEnd (g : GroomId) (s : State) : State :=
  if s.frozen (.stall g.s) || !s.runOver g then s
  else
  let s := s.drainStores 17 g
  match (s.groom g).run with
  | none => s
  | some r =>
    if decide (r.handles ≠ []) || decide (r.stores ≠ []) then s
    else
      let d := g.s.val / 8
      let held := s.holds d (.run g)
      let s := s.resetHolder d (.run g)
      let s := if held then s.fault (.stall g.s) .note 0x21 g.g.val else s
      let s := match r.exc with
        | some (kind, detail, addr, pc) => s.reportExc g r kind detail addr pc
        | none => s
      let s := s.modGroom g (fun x => { x with run := none, prevCtx := (s.ctx? r.ctx).map (fun _ => r.ctx) })
      let s := (s.bump (.grCount g.s) 63 32 1).pmG g 0x0103 r.ctx 1
      if r.ref.kind = 0 then
        s.disposePkt r.ref.tf r.ref.psn (if r.exc.isSome then 3 else (r.get 1).toNat) r.budget
      else s

/-- RUN_TIMEOUT (R334): an instruction observed at the deadline has its effect first (R24, R348). -/
def doRunTimeout (g : GroomId) (s : State) : State :=
  match (s.groom g).run with
  | none => s
  | some r =>
    if s.frozen (.stall g.s) || r.halted || r.exc.isSome || s.clk ≤ r.since + us (s.rf (.grCtrl g.s) 25 16) then s
    else s.raise g 12 0 0

/-- GROOM_TIMER_EVENT (R345). -/
def doGroomTimerEvent (g : GroomId) (s : State) : State :=
  match (s.groom g).run with
  | none => s
  | some r => if s.frozen (.stall g.s) || r.halted || r.exc.isSome then s else s.modRun g (fun _ => s.latchTimer r)

/-- GROOM_RESET (R349, R465): the run ends with RESET, and its locks are freed at step 4 of R332; a fenced Groom's scratch
is cleared and its fence ends. -/
def doGroomReset (g : GroomId) (s : State) : State :=
  if s.frozen (.stall g.s) then s
  else
    let s := s.raise g 14 0 0
    if (s.groom g).fenced then s.modGroom g (fun x => { x with fenced := false, scratch := [] }) else s

/-- GROOM_FENCED (R465): the run ends with RESET, and the Groom takes no run until it is reset. -/
def doGroomFenced (g : GroomId) (s : State) : State :=
  if s.frozen (.stall g.s) || (s.groom g).fenced then s
  else
    let s := s.raise g 14 0 0
    let s := s.modGroom g (fun x => { x with fenced := true })
    (s.wb (.grCtrl g.s) (32 + g.g.val) true).fault (.stall g.s) .fence 0x80 g.g.val

/-- GR_RESUME (R347, R350): the suspensions that `events` names are cleared. -/
def doGrResume (st : Stall) (s : State) : State :=
  if s.frozen (.stall st) then s
  else
    let w := s.reg (.grResume st)
    let c := fld w 21 0
    let r := Reg.grResume st
    if (s.ctx? c).isNone ∨ s.ctxStall c ≠ st.val then (s.wf r 62 61 2).wb r 63 false
    else
      let keep (n : Nat) : Nat :=
        b2n (n.testBit 0 && !bit w 60) + 2 * b2n (n.testBit 1 && !bit w 59) + 4 * b2n (n.testBit 2 && !bit w 58)
      ((s.modCtx c (fun x => { x with suspended := keep x.suspended })).wf r 62 61 1).wb r 63 false

/-- Every run of a domain's stalls ends without an event (R349). -/
def State.groomsLost (s : State) (d : Nat) : State :=
  { s with grooms := s.grooms.map (fun (e : Nat × Groom) =>
      if e.1 / 128 = d then (e.1, { e.2 with run := none }) else e)
           runqs := s.runqs.filter (fun e => e.1 / 8 ≠ d) }

end Sys2Proof.Machine
end

