-- ==== Sys2Proof/Machine/Settle.lean ====
section
/-! DEFINITION. What follows when a transfer's uses have all finished, for each purpose, and the
completion of the work that an effect leaves within the same command. -/

namespace Sys2Proof.Machine

/-- A status of a transfer as a command's completion carries it: a link lost while the access was
outstanding (0x19, the model's own code) is LINK_LOST. -/
def cmdStatus (st : Nat) : Nat := if st = 0x19 then 9 else st

/-- The payload of a command's next packet has been read, or its read has failed (R266, R282). -/
def State.srcDone (s : State) (f op status detail : Nat) (bs : List Byte) : State :=
  if status = 0 then
    let feed (x : IFlow) : IFlow := { x with queue := x.queue.map (fun i =>
      if i.op = some op ∧ i.reading = true then { i with data := some bs, reading := false } else i) }
    { s with ifl := s.ifl.map (fun (e : Nat × IFlow) => (e.1, feed e.2)) }
  else
    let f := match s.ifl.find? (fun e => e.2.queue.any (fun i => i.op = some op)) with
      | some e => e.1
      | none => f
    s.abandon f op (cmdStatus status) detail

/-- A piece of GET data has been written (R276), for a command or for a rendezvous read (R251). -/
def State.getDone (s : State) (f psn n status detail : Nat) (op me : Option Nat) : State :=
  let s := s.modIfl f (fun x => { x with outst := x.outst.map (fun o =>
    if o.psn = psn then { o with writing := o.writing - 1 } else o) })
  match op, me with
  | some op, _ =>
    let s := if status ≠ 0 then s.noteFail op (cmdStatus status) detail else s
    (s.modOp op (fun o => { o with left := o.left - 1 })).settleCmd op
  | none, some m =>
    (s.modMe m (fun x =>
      if status = 0 then { x with counted := x.counted + n }
      else { x with refused := x.refused + n }.fail (cmdStatus status) detail)).recvCheck m
  | none, none => s

/-- A target's PUT write has ended (R270, R275, R286). -/
def State.putDone (s : State) (tf psn status detail : Nat) : State :=
  match s.issuedPkt tf psn with
  | none => s
  | some p =>
    if status = 0 then ((s.firePayload tf p).countPut tf p).deliver tf p
    else if status = 6 then s.refuse tf p 0x07 detail
    else s.putOff tf p 0x11

/-- A target's GET read has ended (R276, R286). -/
def State.getRead (s : State) (tf psn status detail : Nat) (bs : List Byte) : State :=
  match s.issuedPkt tf psn, tFind s.tfl tf with
  | some p, some t =>
    if status = 0 then (State.sendGetRsps 17 s t p (Pkt.moff p) bs).deliver tf p
    else if status = 6 then s.refuse tf p 0x07 detail
    else if status = 7 then s.refuse tf p 0x09 1
    else if status = 8 then s.refuse tf p 0x09 2
    else s.putOff tf p 0x11
  | _, _ => s

/-- The read of a repeated GET_REQ has ended (R269): its GET_RSPs are sent again. Where it fails, a NACK answers, and the
flow stays as it is (log entry 167). -/
def State.getReadAgain (s : State) (tf : Nat) (p : Pkt) (status detail : Nat) (bs : List Byte) : State :=
  match tFind s.tfl tf with
  | none => s
  | some t =>
    if status = 0 then State.sendGetRsps 17 s t p (Pkt.moff p) bs
    else if status = 6 then s.sendNack (some t) p 0x07 detail
    else if status = 7 then s.sendNack (some t) p 0x09 1
    else if status = 8 then s.sendNack (some t) p 0x09 2
    else s.sendNack (some t) p 0x11 0

/-- A target's atomic has been translated (R277, R278, R286): in HBM it is made within the same command. -/
def State.atomPlaced (s : State) (tf psn status detail : Nat) (phys : Option Phys) (use : Option Nat) : State :=
  match s.issuedPkt tf psn with
  | none => s.endHeld use
  | some p =>
    if status = 6 then (s.endHeld use).refuse tf p 0x07 detail
    else if status ≠ 0 then (s.endHeld use).putOff tf p 0x11
    else match phys with
      | some (.hbm a) =>
        let x := atomArgs p
        let r := (s.endHeld use).hitchAtom a (Pkt.tag p) x.1 x.2.1
        r.1.atomDone tf p r.2
      | some (.host h a) => if s.isMemory h a then s.hostAtom tf psn h a use else (s.endHeld use).refuse tf p 0x08 0
      | none => (s.endHeld use).refuse tf p 0x08 0

/-- A packet's write into a receive buffer has ended (R245, R246, R270). -/
def State.recvDone (s : State) (tf psn m n status detail : Nat) : State :=
  match s.issuedPkt tf psn with
  | none => s
  | some p =>
    if status = 0 then
      (((s.firePayload tf p).deliver tf p).modMe m (fun x => { x with counted := x.counted + n })).recvCheck m
    else if status = 6 then
      ((s.refuse tf p 0x07 detail).modMe m (fun x => { x with refused := x.refused + n }.fail 6 detail)).recvCheck m
    else
      let s := s.putOff tf p 0x11
      if status = 0x19 then s.recvFails m 9 0 else s

/-- A transfer has ended: its purpose is told. -/
def State.xferDone (s : State) (id : Nat) : State :=
  match tFind s.xfers id with
  | none => s
  | some x =>
    let s := { s with xfers := tDel id s.xfers }
    match x.purpose with
    | .cmdSrc f op => s.srcDone f op x.status x.detail x.bytes
    | .getDst f psn _ op me => s.getDone f psn x.len x.status x.detail op me
    | .atomRes op =>
      let s := if x.status ≠ 0 then s.noteFail op (cmdStatus x.status) x.detail else s
      (s.modOp op (fun o => { o with left := o.left - 1 })).settleCmd op
    | .tgtPut tf psn => s.putDone tf psn x.status x.detail
    | .tgtGet tf psn => s.getRead tf psn x.status x.detail x.bytes
    | .tgtAgain tf p => s.getReadAgain tf p x.status x.detail x.bytes
    | .tgtAtom tf psn => s.atomPlaced tf psn x.status x.detail x.phys x.use
    | .recvPkt tf psn me n => s.recvDone tf psn me n x.status x.detail
    | .uxCopy m => (s.modMe m (fun y => { y with copying := y.copying - 1 }.fail (cmdStatus x.status) x.detail)).recvCheck m
    | .collSrc op seg => s.collRead op seg (cmdStatus x.status) x.detail x.bytes
    | .collDst op _ => s.collWrote op (cmdStatus x.status) x.detail
    | .groomLd g run rd size => s.groomLoaded g run rd size x.status x.detail x.va x.phys x.bytes
    | .groomSt g run rel => s.groomStored g run rel x.status x.detail x.va x.phys x.data x.use
    | .groomAmo g run rd => s.groomAtom g run rd x.status x.detail x.va x.phys x.use

/-- One piece of the work left. -/
def State.doTask (s : State) : Task → State
  | .walk w => s.walkGoesOn w
  | .due => s.retryDue
  | .lookup u => s.lookup u
  | .access u => s.access u
  | .xferDone x => s.xferDone x
  | .rx tf p fd md => s.rxNew tf p fd md

/-- The work left done, first in, first out; at most `fuel` pieces in one command. -/
def State.settleN : Nat → State → State
  | 0, s => s
  | n + 1, s =>
    match s.todo with
    | [] => s
    | t :: ts => State.settleN n ({ s with todo := ts }.doTask t)

/-- The work that an effect has left, done within the same command (log entry 20). -/
def State.settle (s : State) : State := State.settleN 1000000 s

end Sys2Proof.Machine
end

