-- ==== Sys2Proof/Machine/Commands.lean ====
section
/-! DEFINITION. The commands of user and privileged queues (R182 to R185, R196, R199, R200, R226,
R250): one row each, performed on the started command that the row names. -/

namespace Sys2Proof.Machine

/-! ### What every command meets first -/

/-- A started command that its row may now perform: it exists, has not been performed, has the
row's opcode, the stall that serves it is not frozen, and no orderly stop is under way (R38). -/
def State.startedOp (s : State) (id opc : Nat) : Option Op :=
  match tFind s.ops id with
  | some o => if !o.performed && hdrOp (o.words.getD 0 0) = opc && s.domRuns (o.stall / 8) && !s.tack.stopping then some o else none
  | none => none

/-- Whether a command that reaches the matching unit does so in its turn: those of one queue in the order in which they
started (R236, R253). -/
def State.inOrder (s : State) (o : Op) : Bool :=
  match o.src with
  | .groom _ _ => true
  | _ => s.ops.all (fun e =>
      let opc := hdrOp (e.2.words.getD 0 0)
      e.2.performed || decide (e.2.queue ≠ o.queue) || !(opc = 8 || opc = 9) || decide (o.started ≤ e.2.started))

/-- A command's effect `t`, where it reaches the matching unit in its turn. -/
def State.inTurn (s : State) (id : Nat) (t : State) : State :=
  match tFind s.ops id with
  | some o => if s.inOrder o then t else s
  | none => s

/-- A sending command's effect `t`, once every command of its context to the same peer that started before it has been
performed: their packets take PSNs in the order in which they started (R266). -/
def State.sendTurn (s : State) (o : Op) (t : State) : State :=
  let peer (o : Op) : Option (Nat × Nat) := (s.rank o.ctx (fld (o.words.getD 1 0) 63 32)).toOption
  let before (e : Op) : Bool := !e.performed && !e.admin && decide (e.ctx = o.ctx) && 1 ≤ hdrOp (e.words.getD 0 0) &&
    hdrOp (e.words.getD 0 0) ≤ 6 && e.started < o.started && peer e = peer o
  if s.ops.any (fun e => before e.2) then s else t

/-- A COLL's effect `t`, once every COLL of its context on its group that started before it has been performed (R295). -/
def State.collTurn (s : State) (o : Op) (t : State) : State :=
  if s.ops.any (fun e => !e.2.performed && !e.2.admin && decide (e.2.ctx = o.ctx) && hdrOp (e.2.words.getD 0 0) = 0x0C &&
    fld (e.2.words.getD 1 0) 63 48 = fld (o.words.getD 1 0) 63 48 && e.2.started < o.started) then s else t

/-- The command marked as performed. -/
def State.perform (s : State) (id : Nat) : State := s.modOp id (fun o => { o with performed := true })

/-- Whether a command's ct names a counter that its context does not have (R199). -/
def State.ctDenied (s : State) (o : Op) : Bool := cmdCt o.words ≠ 0xFFF && !s.ctOk o.ctx (cmdCt o.words)

/-- A command whose fields are in order performed by `k`; one with a reserved value completes with
MALFORMED_ENTRY (R182), one with a foreign counter with DENIED (R199). -/
def State.checked (s : State) (id opc : Nat) (bad : Op → Bool) (k : Op → State → State) : State :=
  match s.startedOp id opc with
  | none => s
  | some o =>
    if bad o then (s.perform id).done id 1
    else if raisesCt opc && s.ctDenied o then (s.perform id).done id 2
    else k o s

/-- No check of the fields beyond those made when the command started. -/
def noBad (_ : Op) : Bool := false

/-! ### NOP (R182) -/

def doNop (id : Nat) (s : State) : State := s.checked id 0 noBad (fun _ s => (s.perform id).done id 0)

/-! ### Commands that send (R118, R183, R250, R266) -/

/-- Word `i` of a command. -/
def Op.w (o : Op) (i : Nat) : Word := o.words.getD i 0

/-- The length of a command's message (R183). -/
def Op.length (o : Op) : Nat := fld (o.w 3) 31 0

/-- The payload of an inline form: the first length bytes of granules 2 onwards (R183). -/
def Op.payload (o : Op) : List Byte := (bytesOf (o.words.drop 8)).take o.length

/-- Whether an inline form's length exceeds its granules (R183). -/
def inlineBad (o : Op) : Bool := decide (64 * (hdrLen (o.w 0) - 1) < o.length)

/-- Whether an ATOMIC's op and type are reserved encodings (R277). -/
def atomicCode (o : Op) : Nat := fld (o.w 3) 23 20 * 16 + fld (o.w 3) 31 24
def atomicBad (o : Op) : Bool := decide (8 < fld (o.w 3) 31 24 ∨ 5 < fld (o.w 3) 23 20)

/-- The item of a command with the fields that every sending command shares. -/
def Op.item (o : Op) (id opc : Nat) : SendItem :=
  { SendItem.blank opc (fld (o.w 1) 31 29) (bit (o.w 1) 28) with
    op := some id, ordered := hdrOrdered (o.w 0), key := fld (o.w 3) 63 32, mlen := o.length,
    local_ := (o.w 2).toNat, addr := (o.w 4).toNat, tag := (o.w 5).toNat }

/-- A command's message queued on the flow to its rank (R118, R263): the lookup of the rank may fail
the command, and while no flow record can be had the command waits to be performed. -/
def State.sendCmd (s : State) (id : Nat) (o : Op) (item : SendItem) (rndv : Bool) : State :=
  match s.rank o.ctx (fld (o.w 1) 63 32) with
  | .error code => (s.perform id).done id code
  | .ok (fa, pc) =>
    s.sendTurn o <| match s.flowTo o.ctx fa pc with
    | (none, _) => s
    | (some f, s) => ((s.perform id).modOp id (fun o => { o with aux := b2n rndv })).enqueue f item

/-- PUT (R183, R266). -/
def doPut (id : Nat) (s : State) : State :=
  s.checked id 1 noBad (fun o s => s.sendCmd id o (o.item id 1) false)

/-- PUT_INLINE: as PUT, with the payload in the entry (R183). -/
def doPutInline (id : Nat) (s : State) : State :=
  s.checked id 2 inlineBad (fun o s => s.sendCmd id o { o.item id 1 with inline_ := some o.payload } false)

/-- GET (R183, R276). -/
def doGet (id : Nat) (s : State) : State :=
  s.checked id 3 noBad (fun o s => s.sendCmd id o (o.item id 2) false)

/-- The source rank that a context's SENDs carry in KEY (R233, R261). -/
def State.selfRank (s : State) (c : Nat) : Nat := fld (s.ctxWord c 9) 63 32

/-- The item of an eager SEND. -/
def State.sendItemOf (s : State) (o : Op) (id : Nat) : SendItem := { o.item id 6 with key := s.selfRank o.ctx, addr := 0 }

/-- The request-to-send of a SEND beyond its context's eager limit (R250): its flit carries the local
address and the command's key. -/
def State.rtsItemOf (s : State) (o : Op) (id : Nat) : SendItem :=
  { s.sendItemOf o id with payload := beBytes 8 (o.w 2).toNat ++ beBytes 4 (fld (o.w 3) 63 32) }

/-- SEND (R183, R250). -/
def doSend (id : Nat) (s : State) : State :=
  s.checked id 4 noBad (fun o s =>
    if fld (s.ctxWord o.ctx 8) 31 0 < o.length then s.sendCmd id o (s.rtsItemOf o id) true
    else s.sendCmd id o (s.sendItemOf o id) false)

/-- SEND_INLINE: always eager (R250). -/
def doSendInline (id : Nat) (s : State) : State :=
  s.checked id 5 inlineBad (fun o s => s.sendCmd id o { s.sendItemOf o id with inline_ := some o.payload } false)

/-- ATOMIC (R183, R277): operand and compare operand travel in the payload flit, op and type in TAG. -/
def doAtomic (id : Nat) (s : State) : State :=
  s.checked id 6 atomicBad (fun o s =>
    s.sendCmd id o { o.item id 4 with tag := atomicCode o, mlen := 0,
                                      payload := beBytes 8 (o.w 5).toNat ++ beBytes 8 (o.w 6).toNat } false)

/-! ### Receives, probes and collectives -/

/-- Whether a receive finds the match entry that it takes (R237), or takes none (R255). -/
def State.recvFits (s : State) (o : Op) : Bool :=
  s.meFits o.ctx ||
    (s.queueDying o && (s.findUx o.ctx (fld (o.w 1) 63 32) (o.w 4).toNat (o.w 5).toNat).isNone)

/-- RECV_POST (R236): in ring order, and once there is a match entry for it. -/
def doRecvPost (id : Nat) (s : State) : State :=
  s.inTurn id (s.checked id 8 noBad (fun o s => if s.recvFits o then (s.perform id).postRecv id o else s))

/-- PROBE (R253), in ring order with receives. -/
def doProbe (id : Nat) (s : State) : State :=
  s.inTurn id (s.checked id 9 noBad (fun o s => (s.perform id).probeEnds id o))

/-- COLL (R294, R295). -/
def doColl (id : Nat) (s : State) : State :=
  s.checked id 0x0C noBad (fun o s => s.collTurn o ((s.perform id).startColl id o))

/-! ### Trigger counters (R185, R199, R200) -/

/-- CT_SET: the counter takes word 2. -/
def doCtSet (id : Nat) (s : State) : State :=
  s.checked id 0x10 noBad (fun o s =>
    let s := s.perform id
    if s.ctOk o.ctx (cmdCt o.words) then (s.ctPut o.ctx (cmdCt o.words) (o.w 2)).done id 0
    else s.done id (if cmdCt o.words = 0xFFF then 0 else 2))

/-- CT_INC: word 2 [47:0] is added to success, word 3 [15:0] to failure. -/
def doCtInc (id : Nat) (s : State) : State :=
  s.checked id 0x11 noBad (fun o s =>
    let s := s.perform id
    if s.ctOk o.ctx (cmdCt o.words) then
      (s.ctAdd o.ctx (cmdCt o.words) (fld (o.w 2) 47 0) (fld (o.w 3) 15 0)).done id 0
    else s.done id (if cmdCt o.words = 0xFFF then 0 else 2))

/-- Whether a TRIG wraps what it may not (R200): a reserved opcode, one that is no user command, TRIG
or EQ_ARM, or a granule count that does not fit. -/
def trigBad (o : Op) : Bool :=
  let h := o.w 8
  kindOf false false (hdrOp h) ≠ 1 || hdrOp h = 0x12 || hdrOp h = 0x14 || hdrLen h ≠ hdrLen (o.w 0) - 1

/-- TRIG: the wrapped command is kept until its counter reaches the threshold (R200); for a queue that is being destroyed
it is discarded (R201). -/
def doTrig (id : Nat) (s : State) : State :=
  s.checked id 0x12 trigBad (fun o s =>
    let s := s.perform id
    let ct := cmdCt o.words
    let held := (s.trigs.filter (fun t => t.ctx = o.ctx)).length
    let slot := match o.src, tFind s.cqs o.queue with
      | .entry, some c => c.slot o.count
      | _, _ => o.count
    if !s.ctOk o.ctx ct then s.done id 2
    else if fld (s.ctxWord o.ctx 4) 47 36 ≤ held then s.done id 0x0E
    else
      let t : Trig := { queue := o.queue, ctx := o.ctx, slot := slot, ct := ct, threshold := fld (o.w 2) 47 0,
                        words := o.words.drop 8 }
      if s.queueDying o then s.done id 0
      else ({ s with trigs := s.trigs ++ [t] }.done id 0).fireTrigs o.ctx ct)

/-! ### EQ_ARM (R196) -/

/-- Whether the device is writing a bank: the bank of its next slot, while it is released and a slot of it
has been written on this lap. -/
def Eq.writing (q : Eq) (bank : Bool) : Bool := q.bank = bank && q.room

/-- The queue after a release: one of the bank being written is ignored. -/
def Eq.release (q : Eq) (r0 r1 : Bool) : Eq :=
  { q with rel0 := q.rel0 || (r0 && !q.writing false), rel1 := q.rel1 || (r1 && !q.writing true) }

/-- EQ_ARM: banks are released, and the queue is armed; records that the producer has not seen give an
INTR at once. -/
def doEqArm (id : Nat) (s : State) : State :=
  s.checked id 0x14 noBad (fun o s =>
    let s := s.perform id
    let w := o.w 1
    let e := fld w 63 46
    match tFind s.eqs e, tFind s.cqs o.queue with
    | some q, some c =>
      if q.fn ≠ c.fn ∨ q.link ≠ c.link then s.done id 2
      else
        let q := q.release (bit w 44) (bit w 45)
        let pos := q.wpos % 2048
        let seen := fld w 41 32 + 1024 * fld w 42 42
        let now := bit w 43 && pos ≠ seen
        let s := { s with eqs := tPut e { q with armed := if bit w 43 then !now else q.armed } s.eqs }
        (if now then s.sendIntr q.link q.fn q.vector e else s).done id 0
    | _, _ => s.done id 2)

/-! ### INVALIDATE (R226 to R228) -/

/-- A reserved scope, or a count of zero where the scope has a range. -/
def invalBad (o : Op) : Bool :=
  let scope := fld (o.w 1) 63 61
  decide (4 < scope) || (decide (scope < 2) && fld (o.w 3) 31 0 = 0)

/-- INVALIDATE: it enters step 2, or waits for its turn in its domain. -/
def doInvalidate (id : Nat) (s : State) : State :=
  s.checked id 0x20 invalBad (fun o s =>
    let s := s.perform id
    let w := o.w 1
    let d := o.stall / 8
    let i : Inval := { dom := d, scope := fld w 63 61, leafOnly := bit w 60, vmid := fld w 47 32, asid := fld w 31 16,
                       start := fld (o.w 2) 63 12 * 4096, pages := fld (o.w 3) 31 0, active := false, acks := [] }
    { s with invals := tPut id i s.invals }.admitInvals d)

/-- INVALIDATE_ACK: stall `st` acknowledges (R227). -/
def doInvalidateAck (st : Stall) (id : Nat) (s : State) : State := s.invalAck st.val id

end Sys2Proof.Machine
end

