-- ==== Sys2Proof/Machine/Admin.lean ====
section
/-! DEFINITION. The commands of admin queues: contexts, queues and event queues made and unmade
(R186 to R192), with the checks that the owning chapters make of a context's image; and the actions of
CQ_CTRL and CQ_ADMIN (R206, R501). -/

namespace Sys2Proof.Machine

/-! ### Contexts -/

/-- Contexts homed in a context's home domain that the context share can hold, and the context's place
among them (R419). -/
def State.ctxInShare (s : State) (c : Nat) : Bool :=
  let d := s.ctxDom c
  let i := if d = 0 then c else c - s.ctxEast
  decide (256 * (i + 1) ≤ (s.share d 1).2)

/-- Entries of the match-entry share that a context's bin arrays take (R234). -/
def binEntries (b : Nat) : Nat := ceilDiv (2 ^ (b + 5)) 64

/-- Whether a stage's root and its enable are in order (R209). -/
def State.rootOk (s : State) (d : Nat) (w : Word) : Bool :=
  fld w 11 2 = 0 &&
    (if bit w 0 then !bit w 1 || s.inShare d 6 (fld w 63 12 * 4096) 4096
     else fld w 63 12 = 0 && !bit w 1)

/-- Whether a context's handler bindings are in order (R325). -/
def State.handlersOk (s : State) (d : Nat) (w20 w21 w22 : Word) : Bool :=
  let pages := fld w20 11 4 + 1
  let lim := pages * 1024
  fld w20 3 0 = 0 && fld w21 9 0 = 0 && fld w22 54 53 = 0 && fld w22 7 0 = 0 &&
    (fld w22 63 61 = 0 ||
      (decide (1 ≤ fld w22 52 40 ∧ fld w22 52 40 ≤ 4096) &&
        (!bit w22 63 || decide (fld w21 63 46 < lim)) && (!bit w22 62 || decide (fld w21 45 28 < lim)) &&
        (!bit w22 61 || decide (fld w21 27 10 < lim)) &&
        s.inShare d 7 (fld w20 63 12 * 4096) (4096 * pages)))

/-- The checks of a context's image (R191 and the chapters it names). -/
def State.imageOk (s : State) (d : Nat) (ws : List Word) : Bool :=
  let w (i : Nat) : Word := ws.getD i 0
  let zero (i : Nat) : Bool := w i = 0
  -- R116, R187, R186
  fld (w 1) 62 61 = 0 && bit (w 2) 63 && fld (w 2) 19 0 = 0 && fld (w 3) 2 0 = 0 &&
    fld (w 4) 51 48 = 0 && fld (w 4) 35 0 = 0 &&
    -- R209
    s.rootOk d (w 5) && s.rootOk d (w 6) && fld (w 7) 31 1 = 0 &&
    -- R233, R234
    decide (fld (w 8) 62 59 ≤ 12 ∧ fld (w 8) 58 32 ≤ 33554432) &&
    (!bit (w 8) 63 || decide (fld (w 9) 63 32 < 2 ^ 28)) && fld (w 10) 39 0 = 0 &&
    zero 11 && zero 12 && zero 13 && decide (binEntries (fld (w 8) 62 59) ≤ s.rf (.mtPool (domOf d)) 63 38) &&
    -- R265
    decide (fld (w 14) 4 0 ≤ 24) && s.inShare d 10 (fld (w 14) 63 5 * 32) (32 * 2 ^ fld (w 14) 4 0) &&
    fld (w 15) 39 0 = 0 && zero 16 && zero 17 && zero 18 && zero 19 &&
    -- R325, R293, R186
    s.handlersOk d (w 20) (w 21) (w 22) && fld (w 24) 62 0 = 0 && zero 25 && zero 26 && zero 27 &&
    zero 28 && zero 29 && zero 30 && zero 31

/-- Whether a context of an index can be created now (R191). -/
def State.ctxFree (s : State) (c : Nat) : Bool :=
  (s.ctx? c).isNone && s.ctxInShare c && s.domRuns (s.ctxDom c)

/-- The match entries of a context's bin arrays, taken or given back (R234). -/
def State.binTake (s : State) (c n : Nat) : State :=
  let r := Reg.mtPool (domOf (s.ctxDom c))
  s.wf r 63 38 (s.rf r 63 38 - n)
def State.binGive (s : State) (c n : Nat) : State :=
  let r := Reg.mtPool (domOf (s.ctxDom c))
  s.wf r 63 38 (s.rf r 63 38 + n)

/-- Index and image of a CTX_CREATE. -/
def Op.ctxIndex (o : Op) : Nat := fld (o.w 1) 63 42
def Op.image (o : Op) : List Word := o.words.drop 8

/-- The image has been read: it is checked and installed (R191). -/
def State.installCtx (s : State) (id : Nat) (o : Op) : State :=
  let c := o.ctxIndex
  let ws := o.image
  if s.ctxFree c && s.imageOk (s.ctxDom c) ws then
    let x : Ctx := { words := modAt ws 2 (fun w => setBit w 62 false) }
    ((({ s with ctxs := tPut c x s.ctxs }.ctxStore c 0 x.words).binTake c (binEntries (fld (ws.getD 8 0) 62 59))).done id 0)
  else s.done id 0x11

/-- A piece of the image arrives, or its read has failed with a status (R191). -/
def State.imageData (s : State) (id off status : Nat) (bs : List Byte) : State :=
  match tFind s.ops id with
  | none => s
  | some o =>
    let fill (ws : List Word) : List Word :=
      (List.range (bs.length / 8)).foldl (fun ws i =>
        modAt ws (8 + off / 8 + i) (fun _ => BitVec.ofNat 64 (ofLe ((bs.drop (8 * i)).take 8)))) ws
    let o := { o with words := fill o.words, left := o.left - 1, status := if o.status = 0 then status else o.status }
    let s := { s with ops := tPut id o s.ops }
    if o.left ≠ 0 then s
    else if o.status ≠ 0 then s.done id o.status
    else s.installCtx id o

/-- CTX_CREATE: the image is read on the admin queue's link, on behalf of the function whose doorbell posted
the command (R181, R191). -/
def doCtxCreate (id : Nat) (s : State) : State :=
  s.checked id 0x30 (fun o => fld (o.w 2) 5 0 ≠ 0) (fun o s =>
    let s := s.perform id
    if !s.ctxFree o.ctxIndex then s.done id 0x11
    else if s.hlLost o.link then s.done id 9
    else
      let a := (o.w 2).toNat
      let ps := pageSplit 3 a 256
      let s := s.modOp id (fun o => { o with words := o.words ++ List.replicate 32 0, left := ps.length })
      ps.foldl (fun t p => t.sendReq o.link (.rd ⟨a + p.1, p.2, none, o.fn, .image id p.1⟩)) s)

/-- What a destroyed context held is freed: its match entries and blocks (R255), its flow records (R265) and
its bin arrays (R234). No later run is of the same context (R322). -/
def State.freeCtx (s : State) (c : Nat) : State :=
  let bins := binEntries (fld (s.ctxWord c 8) 62 59)
  let s := (s.mes.filter (fun e => e.2.ctx = c)).foldl (fun t e => t.freeMe e.1) s
  let s := (s.ifl.filter (fun e => e.2.ctx = c)).foldl (fun t e => t.dropIfl e.1) s
  let s := (s.tfl.filter (fun e => e.2.dctx = c)).foldl (fun t e =>
    { t.dropAtoms e.1 with tfl := tDel e.1 t.tfl }.flowGive c |>.uxGive c e.2.sends.length) s
  let s := { s with due := s.due.filter (fun x => x.ctx ≠ c) }
  let s := (s.binGive c bins).ctxStore c 2 [setBit (s.ctxWord c 2) 63 false]
  let leave (g : Groom) : Groom := if g.prevCtx = some c then { g with prevCtx := none } else g
  { s with ctxs := tDel c s.ctxs, grooms := s.grooms.map (fun e => (e.1, leave e.2)) }

/-- CTX_DESTROY (R191). -/
def doCtxDestroy (id : Nat) (s : State) : State :=
  s.checked id 0x31 noBad (fun o s =>
    let s := s.perform id
    let c := o.ctxIndex
    if (s.ctx? c).isNone then s.done id 0x11
    else if s.cqs.any (fun e => !e.2.admin && e.2.ctx = c) then s.done id 0x10
    else (s.freeCtx c).done id 0)

/-! ### Command queues -/

/-- A queue just created (R188). -/
def Cq.new (id link fn ctx stall k base weight burst : Nat) (admin priv eqValid : Bool) (eq : Nat) : Cq :=
  { id := id, admin := admin, link := link, fn := fn, ctx := ctx, stall := stall, k := k, base := base, weight := weight,
    burst := burst, priv := priv, eqValid := eqValid, eq := eq, state := 1, lastError := 0, pi := 0, oldest := 0,
    next := 0, asked := 0, readsOut := 0, gran := [], bell := [], fns := [], open_ := [], fired := [], credit := 0,
    joined := false, flushing := none, destroyer := none, dying := false, waited := none }

/-- CQ_CREATE (R188). k outside 6 to 20 is INDEX_INVALID, and a weight of 0 malformed (DESIGN CHOICE: R182 could be read to
make both the same; log entry 180). -/
def doCqCreate (id : Nat) (s : State) : State :=
  s.checked id 0x32 (fun o => fld (o.w 3) 63 56 = 0) (fun o s =>
    let s := s.perform id
    let w1 := o.w 1
    let w3 := o.w 3
    let q := fld w1 63 44
    let c := fld w1 43 22
    let fn := fld w1 21 17
    let k := fld w1 16 12
    let st := fld w1 11 8
    let base := fld (o.w 2) 63 12 * 4096
    if (tFind s.cqs q).isSome || adminIndex q || decide (k < 6 ∨ 20 < k) || !s.allMemory o.link base (64 * 2 ^ k) ||
        (s.ctx? c).isNone || s.ctxFn c ≠ fn || s.ctxLink c ≠ o.link || st / 8 ≠ s.ctxDom c then s.done id 0x11
    else
      let x := Cq.new s.serial o.link fn c st k base (fld w3 63 56) (fld w3 55 50 + 1) false (bit w3 49) (bit w3 48) (fld w3 47 30)
      { s with cqs := tPut q x s.cqs, serial := s.serial + 1 }.done id 0)

/-- The uses of a queue's started commands that wait for RESUME or ABORT (R222). -/
def State.trappedUses (s : State) (q : Nat) : List Nat :=
  let mine (y : Use) : Bool :=
    y.trapped && (match tFind s.xfers y.xfer with
      | some x => (match s.xferOp x.purpose with
        | some id => (match tFind s.ops id with
          | some o => decide (o.queue = q)
          | none => false)
        | none => false)
      | none => false)
  (s.uses.filter (fun e => mine e.2)).map (fun e => e.1)

/-- The trapped uses of a queue end as by ABORT (R206). -/
def State.abortTrapped (s : State) (q : Nat) : State := (s.trappedUses q).foldl (fun t u => t.finishUse u 0x0F 0 []) s

/-- A queue in ERROR has neither RESUME nor ABORT: what waits for one is aborted (log entry 164). -/
def State.abortInError (s : State) (q : Nat) (c : Cq) : State := if c.state = 4 then s.abortTrapped q else s

/-- A queue begins to be destroyed (R188, R201, R255): what has not started is discarded, and its posted
receives are removed; it goes once nothing is started any more. -/
def State.destroyCq (s : State) (q : Nat) (by_ : Option Nat) : State :=
  match tFind s.cqs q with
  | none => s
  | some c =>
    let s := { s with trigs := s.trigs.filter (fun t => t.queue ≠ q),
                      ops := s.ops.filter (fun e => !c.fired.contains e.1) }
    let s := s.modCq q (fun c => { c with dying := true, destroyer := by_, fired := [], flushing := none })
    let s := (s.removePosted q none).1
    (s.abortInError q c).settleQueue q

/-- CQ_DESTROY: it waits for the queue's started entries, and at its row while another CQ_DESTROY of the
queue waits for them (R188). -/
def doCqDestroy (id : Nat) (s : State) : State :=
  s.checked id 0x33 noBad (fun o s =>
    let q := fld (o.w 1) 63 44
    match tFind s.cqs q with
    | none => (s.perform id).done id 0x11
    | some c =>
      if adminIndex q then (s.perform id).done id 0x11
      else if c.dying then s
      else (s.perform id).destroyCq q (some id))

/-! ### Event queues (R192) -/

/-- EQ_CREATE. -/
def doEqCreate (id : Nat) (s : State) : State :=
  s.checked id 0x34 noBad (fun o s =>
    let s := s.perform id
    let w := o.w 1
    let e := fld w 63 46
    let base := fld (o.w 2) 63 16 * 65536
    if (tFind s.eqs e).isSome || !s.allMemory o.link base 65536 then s.done id 0x11
    else
      let q : Eq := { fn := fld w 45 41, vector := fld w 40 30, home := fld w 29 29, link := o.link, base := base,
                      rel0 := true, rel1 := true, wpos := 0, armed := false, drops := 0, dead := false }
      { s with eqs := tPut e q s.eqs }.done id 0)

/-- Whether a context or a queue names an event queue. -/
def State.eqNamed (s : State) (e : Nat) : Bool :=
  s.ctxs.any (fun c => bit (c.2.words.getD 2 0) 61 && fld (c.2.words.getD 2 0) 52 35 = e) ||
    s.cqs.any (fun c => c.2.eqValid && c.2.eq = e)

/-- EQ_DESTROY. -/
def doEqDestroy (id : Nat) (s : State) : State :=
  s.checked id 0x35 noBad (fun o s =>
    let s := s.perform id
    let e := fld (o.w 1) 63 46
    if (tFind s.eqs e).isNone then s.done id 0x11
    else if s.eqNamed e then s.done id 0x10
    else { s with eqs := tDel e s.eqs }.done id 0)

/-! ### CQ_CTRL (R206, R501) -/

/-- A queue that CQ_CTRL of a domain may act on: homed there, and in one of the states that the action
starts from. -/
def State.ctrlQueue (s : State) (d : Dom) (q : Nat) (states : List Nat) : Option Cq :=
  match tFind s.cqs q with
  | some c => if s.cqDom c = d.val && states.contains c.state then some c else none
  | none => none

/-- An action of CQ_CTRL; where it is not allowed it has no effect and is noted (R7, R206). -/
def State.cqAction (s : State) (d : Dom) (q : Nat) (states : List Nat) (k : Cq → State → State) : State :=
  match s.ctrlQueue d q states with
  | some c => k c s
  | none => s.noteReserved (.domain d) 0

/-- STOP: ACTIVE to STOPPED. -/
def doCqStop (d : Dom) (q : BitVec 20) (s : State) : State :=
  s.cqAction d q.toNat [1] (fun _ s => s.modCq q.toNat (fun c => { c with state := 3 }))

/-- START: STOPPED to ACTIVE. A FLUSH in progress goes on. -/
def doCqStart (d : Dom) (q : BitVec 20) (s : State) : State :=
  let quiet (f : Flush) : Flush := { f with act := false }
  s.cqAction d q.toNat [3] (fun _ s => s.modCq q.toNat (fun c => { c with state := 1, flushing := c.flushing.map quiet }))

/-- RESUME: HELD to ACTIVE; the held access looks up afresh, without the cache (R222). -/
def doCqResume (d : Dom) (q : BitVec 20) (s : State) : State :=
  s.cqAction d q.toNat [2] (fun _ s =>
    let us := s.trappedUses q.toNat
    let s := s.modCq q.toNat (fun c => { c with state := 1 })
    us.foldl (fun t u => (t.modUse u (fun y => { y with trapped := false })).push (.lookup u)) s)

/-- ABORT: HELD to ACTIVE; the held entry completes with ABORTED. -/
def doCqAbort (d : Dom) (q : BitVec 20) (s : State) : State :=
  s.cqAction d q.toNat [2] (fun _ s =>
    (s.modCq q.toNat (fun c => { c with state := 1 })).abortTrapped q.toNat)

/-- A flushed entry's header written with ABORTED (R177, R501). -/
def State.flushHeader (s : State) (q : Nat) (c : Cq) (n : Nat) (w : Word) : State :=
  s.writeCpl q c n [(c.slotAddr n, leBytes 8 (cplHeader w 0x0F 0).toNat)] []

/-- The range that a FLUSH walks ends. With the last one the granules it used are let go (R501). -/
def State.flushStop (s : State) (q : Nat) : State :=
  let stop (c : Cq) : Cq :=
    match c.flushing with
    | none => c
    | some f =>
      let c := { c with flushing := some { f with walks := f.walks.drop 1 } }
      if 2 ≤ f.walks.length then c
      else { c with gran := c.gran.filter (fun e => c.next ≤ e.1), bell := c.bell.filter (fun e => c.next ≤ e) }
  s.modCq q stop

/-- The header of the entry that the walk has reached is known: the entry is aborted and the walk goes
on, or its range ends (R501). -/
def State.flushOne (s : State) (q : Nat) (c : Cq) (n hi : Nat) (w : Word) : State :=
  let m := n + hdrLen w
  if b2n (bit w 63) ≠ c.lap n ∨ 2 ^ c.k < c.slot n + hdrLen w then s.flushStop q
  else
    let go (f : Flush) : Flush := { f with walks := (m, hi) :: f.walks.drop 1 }
    (s.flushHeader q c n w).modCq q (fun c => { c with flushing := c.flushing.map go })

/-- The FLUSH walk: by the granules that a doorbell brought, and otherwise by a read of the header (R501). While the link of
the ring is lost it ends at the first header that must be read (DESIGN CHOICE: R501 names only an error or timeout of R154;
log entry 180). -/
def State.flushWalk : Nat → State → Nat → State
  | 0, s, _ => s
  | fuel + 1, s, q =>
    match tFind s.cqs q with
    | none => s
    | some c => match c.flushing with
      | none => s
      | some f => match f.walks with
        | [] => s.settleQueue q
        | (n, hi) :: _ =>
          if hi ≤ n then State.flushWalk fuel (s.flushStop q) q
          else match (if c.bell.contains n then tFind c.gran n else none) with
            | some g => State.flushWalk fuel (s.flushOne q c n hi ((granWords g).getD 0 0)) q
            | none =>
              if s.hlLost c.link then State.flushWalk fuel (s.flushStop q) q
              else s.sendReq c.link (.rd ⟨c.slotAddr n, 8, if c.admin then none else some c.ctx,
                     if c.admin then 31 else c.fn, .flush q f.id⟩)

/-- Steps of a walk that can never be exhausted: one for each slot, and one for each end of a range. -/
def flushFuel : Nat := 2 ^ 21

/-- The header that the walk asked for has arrived, or its read has failed (R501). -/
def State.flushData (s : State) (q id status : Nat) (bs : List Byte) : State :=
  match tFind s.cqs q with
  | none => s
  | some c => match c.flushing with
    | none => s
    | some f => match f.walks with
      | [] => s
      | (n, hi) :: _ =>
        if f.id ≠ id then s
        else
          let t := if status ≠ 0 then s.flushStop q else s.flushOne q c n hi (BitVec.ofNat 64 (ofLe bs))
          t.flushWalk flushFuel q

/-- FLUSH: from STOPPED or ERROR, every posted entry that has not started completes with ABORTED, fetch
becomes pi, and the queue becomes ACTIVE once every started entry has completed (R206, R501). A second FLUSH adds what
has been posted since to a walk that is still going on. -/
def doCqFlush (d : Dom) (q : BitVec 20) (s : State) : State :=
  s.cqAction d q.toNat [3, 4] (fun c s =>
    let was := (c.flushing.map (fun f => f.walks)).getD []
    let f : Flush := { id := (c.flushing.map (fun f => f.id)).getD s.serial, walks := was ++ [(c.next, c.pi)], hi := c.pi, act := true }
    let s := { s.modCq q.toNat (fun c => { c with flushing := some f, next := c.pi, asked := max c.asked c.pi }) with serial := s.serial + 1 }
    let s := s.abortInError q.toNat c
    if was = [] then s.flushWalk flushFuel q.toNat else s)

/-! ### CQ_ADMIN (R206) -/

/-- Index of a link's admin queue (R181). -/
def adminQueue (h : HLink) : Nat := 0xFFFF8 + h.val

/-- CQ_ADMIN written: the admin queue is made, or destroyed by clearing valid, whatever else that write carries; other
writes while valid is 1 change nothing. A reserved bit, a k outside 6 to 12 or a ring that breaks R172 refuses the write
(R7), valid or not (log entry 104). -/
def doCqAdminWrite (h : HLink) (v : Word) (s : State) : State :=
  let r := Reg.cqAdmin h
  let old := s.reg r
  let k := fld v 5 1
  let base := fld v 63 12 * 4096
  let q := adminQueue h
  if fld v 11 6 ≠ 0 then s.noteReserved (.hostlink h) 0
  else if bit old 0 then
    if bit v 0 then s else (s.setReg r (setBit old 0 false)).destroyCq q none
  else if k < 6 ∨ 12 < k ∨ s.allMemory h.val base (64 * 2 ^ k) = false then s.noteReserved (.hostlink h) 0
  else if !bit v 0 then s.setReg r v
  else if (tFind s.cqs q).isSome then s
  else
    let x := Cq.new s.serial h.val 31 0 (2 * h.val) k base 1 1 true false false 0
    { (s.setReg r v) with cqs := tPut q x s.cqs, serial := s.serial + 1 }

end Sys2Proof.Machine
end

