-- ==== Sys2Proof/Machine/Coding.lean ====
section
/-! DEFINITION. The coding of the lanes (chapter 03): PAM4 levels and precoding (R51), blocks, scrambler and RS(544,514)
of a network lane (R52 to R56), its training frames (R59, R60) and exit burst (R64), test patterns (R74), and 8b/10b,
packets and training sets of a host lane (R65 to R68, R71). A bit string is a number whose most significant bit is first
on the line. -/

namespace Sys2Proof.Machine

/-! ### PAM4 (R51) -/

/-- Gray code on `n` pairs of bits: 0b00, 0b01, 0b11 and 0b10 are the level indexes 0 to 3, for −3, −1, +1 and +3. The
map is its own inverse. -/
def gray (n w : Nat) : Nat := w ^^^ ((w / 2) &&& ((4 ^ n - 1) / 3))

/-- 1/(1+D) precoding modulo 4 of `n` level indexes after the level `last`: the levels sent, and the last of them. -/
def precode : Nat → Nat → Nat → Nat → Nat × Nat
  | 0, _, last, acc => (acc, last)
  | n + 1, w, last, acc =>
    let p := (w / 4 ^ n % 4 + 4 - last) % 4
    precode n w p (4 * acc + p)

/-- The precoding of the far transmitter undone. -/
def unprecode : Nat → Nat → Nat → Nat → Nat × Nat
  | 0, _, last, acc => (acc, last)
  | n + 1, w, last, acc =>
    let p := w / 4 ^ n % 4
    unprecode n w p (4 * acc + (p + last) % 4)

/-- `n` levels with the pair inverted: −3 and +3, −1 and +1 change places. -/
def invertLevels (n w : Nat) : Nat := w ^^^ (4 ^ n - 1)

/-- Bits as `n` levels on a lane: Gray code, precoding where it is agreed, polarity. -/
def toLevels (n : Nat) (pre inv : Bool) (last bits : Nat) : Nat × Nat :=
  let g := gray n bits
  let p := if pre then precode n g last 0 else (g, last)
  (if inv then invertLevels n p.1 else p.1, p.2)

/-- The bits that `n` received levels carry. -/
def ofLevels (n : Nat) (pre inv : Bool) (last levels : Nat) : Nat × Nat :=
  let w := if inv then invertLevels n levels else levels
  let p := if pre then unprecode n w last 0 else (w, last)
  (gray n p.1, p.2)

/-! ### Scrambler (R53) -/

/-- 32 bits through the scrambler 1 + x^39 + x^58: `st` holds the last 58 bits sent, the last of them in bit 0. -/
def scramble32 (st d : Nat) : Nat × Nat :=
  let o := d ^^^ (st / 2 ^ 7 % 2 ^ 32) ^^^ (st / 2 ^ 26 % 2 ^ 32)
  (o, (st * 2 ^ 32 + o) % 2 ^ 58)
def descramble32 (st r : Nat) : Nat × Nat :=
  (r ^^^ (st / 2 ^ 7 % 2 ^ 32) ^^^ (st / 2 ^ 26 % 2 ^ 32), (st * 2 ^ 32 + r) % 2 ^ 58)

/-- `n` pieces of 32 bits of `w`, first in highest place, through `f`. -/
def pieces (f : Nat → Nat → Nat × Nat) : Nat → Nat → Nat → Nat → Nat × Nat
  | 0, st, _, acc => (acc, st)
  | n + 1, st, w, acc =>
    let o := f st (w / 2 ^ (32 * n) % 2 ^ 32)
    pieces f n o.2 w (acc * 2 ^ 32 + o.1)

/-! ### RS(544,514) (R53, R56) -/

/-- An element of GF(2^10) times x, modulo x^10 + x^3 + 1: the coefficient of x^0 is the element's first bit, its bit 9
(log entry 145). -/
def gfX (a : Nat) : Nat := (a / 2) ^^^ (if a % 2 = 1 then 0x240 else 0)

/-- The product of two elements. -/
def gfMulN : Nat → Nat → Nat → Nat → Nat
  | 0, _, _, acc => acc
  | n + 1, a, b, acc => gfMulN n (gfX a) b (if b / 2 ^ n % 2 = 1 then acc ^^^ a else acc)
def gfMul (a b : Nat) : Nat := gfMulN 10 a b 0

/-- The element 1, powers of x, and inverses. -/
def gfOne : Nat := 0x200
def gfPow : Nat → Nat
  | 0 => gfOne
  | n + 1 => gfX (gfPow n)
def gfInvN : Nat → Nat → Nat → Nat
  | 0, _, acc => acc
  | n + 1, sq, acc => gfInvN n (gfMul sq sq) (gfMul acc (gfMul sq sq))
def gfInv (a : Nat) : Nat := gfInvN 9 a gfOne

/-- The generator polynomial, whose roots are x^0 to x^29, without its leading 1: what each bit of a symbol adds to the
remainder of 30 symbols, by bit of the symbol from its last. -/
def rsTaps : List Nat :=
  [0xAFD96AD35F658016186F370E65E529EA97162A4C2ED52566E383B5406ADDE3CF4EC4094D3F3,
   0x7FF2C7A63FCB002C30DE6E1CCBCA52F56E2C50195DAA4AC947276290D13BE7DE8F8C129A367,
   0xFFAD9F48FFB6404A65BCDC39859425CAD45AA432BB1C97968E4E8D31A276EFFD0D1C241464F,
   0xDF533C95FE4CC086CF78987B1B284AB5E8A74C6456792F299D9D1A63406DFFF2183C482881F,
   0x9EE66B2FFC99810D9A7110FE3454944BD95E98C8ACBA5C573A1A74C680DADFEC327C905103E,
   0x1DC4D45F79134209346321B478A92897B2AF3590797CBAAEF534A19D01B49FD074F920A207C,
   0x3B89A8BA732684006CC64320F356500F6D5C6F20F2B1775D6B690B3807681FE0E9F240644F8,
   0x77134374674D0800D98C8609F6A8211E92BADEC1C56AFEBAD6D216620E513F89D1E401C89F0,
   0xEE2686E8CE9A1001B3182C53ED50423D2567BD03AADDFF752D846CC418237F13A3C802B17E0,
   0xFC451DD19C14600362B158A7C8A4847A02DF7A0675FBECEE5A28D1983046FE2747900442F41]
def rsTap (fb : Nat) : Nat :=
  ((List.range 10).zip rsTaps).foldl (fun acc e => if fb / 2 ^ e.1 % 2 = 1 then acc ^^^ e.2 else acc) 0

/-- The remainder of `n` symbols of `w`, first in highest place, times x^30. -/
def rsRemN : Nat → Nat → Nat → Nat
  | 0, _, r => r
  | n + 1, w, r => rsRemN n w (((r % 2 ^ 290) * 2 ^ 10) ^^^ rsTap (r / 2 ^ 290 ^^^ (w / 2 ^ (10 * n) % 2 ^ 10)))

/-- The 300 parity bits of a message of 5,140 bits. -/
def rsParity (msg : Nat) : Nat := rsRemN 514 msg 0

/-- A polynomial, low coefficient first, at a point. -/
def polyAt (p : List Nat) (x : Nat) : Nat := p.foldr (fun c acc => c ^^^ gfMul acc x) 0

/-- The sum of two polynomials. -/
def polyAdd : List Nat → List Nat → List Nat
  | [], q => q
  | p, [] => p
  | a :: p, b :: q => (a ^^^ b) :: polyAdd p q

/-- The 30 syndromes of a remainder: its values at x^0 to x^29. -/
def rsSyndromes (r : Nat) : List Nat :=
  let p := (List.range 30).map (fun k => r / 2 ^ (10 * k) % 2 ^ 10)
  (List.range 30).map (fun j => polyAt p (gfPow j))

/-- Berlekamp and Massey: the shortest recurrence that yields the syndromes (`seen` holds those taken, newest first). -/
def rsLocate : List Nat → List Nat → List Nat → List Nat → Nat → Nat → Nat → Nat × List Nat
  | [], _, c, _, _, _, len => (len, c)
  | s :: rest, seen, c, b, m, db, len =>
    let seen := s :: seen
    let d := (c.zip seen).foldl (fun acc e => acc ^^^ gfMul e.1 e.2) 0
    if d = 0 then rsLocate rest seen c b (m + 1) db len
    else
      let k := gfMul d (gfInv db)
      let c2 := polyAdd c (List.replicate m 0 ++ b.map (gfMul k))
      if 2 * len ≤ seen.length - 1 then rsLocate rest seen c2 c 1 d (seen.length - len)
      else rsLocate rest seen c2 b (m + 1) db len

/-- The value of the error at a place, by Forney: `xi` is the place's inverse. -/
def rsError (loc omega : List Nat) (x xi : Nat) : Nat :=
  let odd := ((List.range loc.length).zip loc).map (fun e => if e.1 % 2 = 1 then e.2 else 0)
  gfMul x (gfMul (polyAt omega xi) (gfInv (polyAt (odd.drop 1) xi)))

/-- The errors of a received word, as the word to be added to it and their number: none where there are more than the 15
that the decoder corrects (R56). -/
def rsErrors (syn : List Nat) : Option (Nat × Nat) :=
  let l := rsLocate syn [] [gfOne] [gfOne] 1 gfOne 0
  if 15 < l.1 then none
  else
    let omega := (List.range l.1).map (fun k => (List.range (k + 1)).foldl (fun acc i =>
      acc ^^^ gfMul (l.2.getD i 0) (syn.getD (k - i) 0)) 0)
    let found := (List.range 544).foldl (fun (t : Nat × List Nat) i =>
      (gfMul t.1 0x081, if polyAt l.2 t.1 = 0 then i :: t.2 else t.2)) (gfOne, [])
    if found.2.length ≠ l.1 then none
    else some (found.2.foldl (fun w i => w ^^^ (rsError l.2 omega (gfPow i) (gfInv (gfPow i)) * 2 ^ (10 * i))) 0, l.1)

/-- A received word of 5,440 bits decoded: corrected, with the number of symbols corrected. -/
def rsDecode (w : Nat) : Option (Nat × Nat) :=
  let r := rsParity (w / 2 ^ 300) ^^^ (w % 2 ^ 300)
  if r = 0 then some (w, 0) else (rsErrors (rsSyndromes r)).map (fun e => (w ^^^ e.1, e.2))

/-! ### Blocks and codewords (R53, R54) -/

/-- Bits on the line of a codeword: 20 blocks of 257 and 300 of parity (R53). -/
abbrev LineBits := BitVec 5440

/-- Blocks of a codeword from block 20 − n on: each its tag bit and 256 scrambled bits. `data` are 640 bytes. -/
def blocks : Nat → Nat → Nat → Nat → Nat → Nat × Nat
  | 0, _, _, st, acc => (acc, st)
  | n + 1, tag, data, st, acc =>
    let o := pieces scramble32 8 st (data / 2 ^ (256 * n) % 2 ^ 256) 0
    blocks n tag data o.2 ((2 * acc + tag / 2 ^ n % 2) * 2 ^ 256 + o.1)

/-- The tag and the data of a message, descrambled. -/
def unblocks : Nat → Nat → Nat → Nat → Nat → Nat × Nat × Nat
  | 0, _, st, tag, data => (tag, data, st)
  | n + 1, msg, st, tag, data =>
    let b := msg / 2 ^ (257 * n) % 2 ^ 257
    let o := pieces descramble32 8 st (b % 2 ^ 256) 0
    unblocks n msg o.2 (2 * tag + b / 2 ^ 256) (data * 2 ^ 256 + o.1)

/-- A codeword's tag (R54). -/
def cwTag (kind lane count : Nat) : Nat := kind * 2 ^ 16 + lane % 4 * 2 ^ 14 + count % 2 ^ 14

/-- The bits of a codeword before Gray code, with the scrambler after it. -/
def encodeCw (st tag : Nat) (data : List Byte) : Nat × Nat :=
  let m := blocks 20 tag (ofBe data) st 0
  (m.1 * 2 ^ 300 + rsParity m.1, m.2)

/-- What a received codeword delivers. -/
structure RxCw where
  tag : BitVec 20
  data : List Byte
  erred : Bool               -- more symbol errors than the decoder corrects
  corrected : Nat            -- symbols corrected
  bits : Nat                 -- the codeword as corrected
  scr : Nat                  -- the descrambler after it
  deriving DecidableEq, Repr

/-- A received codeword decoded and descrambled (R53, R56). -/
def decodeCw (st w : Nat) : RxCw :=
  let d := rsDecode w
  let ok := d.getD (w, 0)
  let u := unblocks 20 (ok.1 / 2 ^ 300) st 0 0
  ⟨BitVec.ofNat 20 u.1, beBytes 640 u.2.1, d.isNone, ok.2, ok.1, u.2.2⟩

/-- The units of 32 bytes of a stretch of the byte stream that logical lane `l` of `w` carries (R53). -/
def laneShare (w l : Nat) (bs : List Byte) : List Byte :=
  (List.range 20).flatMap (fun i => (bs.drop (32 * (w * i + l))).take 32)

/-- The stretch that the lanes' data make together. -/
def joinShares (ds : List (List Byte)) : List Byte :=
  (List.range 20).flatMap (fun i => ds.flatMap (fun d => (d.drop (32 * i)).take 32))

/-! ### Test patterns (R74) -/

/-- Length of a pattern's register and its taps: the polynomial's exponents less 1. -/
def prbsTaps (code : Nat) : Nat × List Nat :=
  match code with
  | 0 => (7, [6, 5])
  | 1 => (13, [12, 11, 1, 0])
  | 2 => (15, [14, 13])
  | _ => (31, [30, 27])

/-- The generator as a pattern begins (R74): the user pattern at its bit 79, and a register that is not empty. -/
def patStart (code st : Nat) : Nat :=
  if code = 4 then 0 else if st % 2 ^ (prbsTaps code).1 = 0 then 1 else st % 2 ^ (prbsTaps code).1

/-- The next bit of a pattern, and the generator after it: a register of the last bits, newest in bit 0, or for the user
pattern `up` the number of bits sent of it. -/
def patStep (code : Nat) (up : BitVec 80) (st : Nat) : Bool × Nat :=
  if code = 4 then (bit up (79 - st % 80), (st + 1) % 80)
  else
    let t := prbsTaps code
    let b := t.2.foldl (fun acc i => acc != st.testBit i) false
    (b, (2 * st + b2n b) % 2 ^ t.1)

/-- The next `n` bits of a pattern. -/
def patBits (code : Nat) (up : BitVec 80) : Nat → Nat → List Bool → List Bool × Nat
  | 0, st, acc => (acc.reverse, st)
  | n + 1, st, acc =>
    let o := patStep code up st
    patBits code up n o.2 (o.1 :: acc)

/-- Whether received bits are those of a pattern from some seed on (R74): a register that has filled from them predicts
every later bit and is not empty; of the user pattern, some place of it. -/
def patMatches (code : Nat) (up : BitVec 80) (bs : List Bool) : Bool :=
  if code = 4 then (List.range 80).any (fun k => (patBits 4 up bs.length k []).1 = bs)
  else
    let n := (prbsTaps code).1
    let seed := (bs.take n).foldl (fun a b => 2 * a + b2n b) 0
    seed ≠ 0 && (patBits code up (bs.length - n) seed []).1 = bs.drop n

/-! ### Training frames and the exit burst (R59, R64) -/

/-- `n` symbols of a training pattern: of two levels, or after the PAM4 switch Gray-mapped pairs, precoded where that is
agreed. The generator and the precoder run on. -/
def trainPattern (pam4 pre : Bool) : Nat → Nat → Nat → Nat → Nat × Nat × Nat
  | 0, st, last, acc => (acc, st, last)
  | n + 1, st, last, acc =>
    let a := patStep 1 0 st
    if pam4 then
      let b := patStep 1 0 a.2
      let g := gray 1 (2 * b2n a.1 + b2n b.1)
      let x := if pre then (g + 4 - last) % 4 else g
      trainPattern pam4 pre n b.2 x (4 * acc + x)
    else trainPattern pam4 pre n a.2 last (4 * acc + 3 * b2n a.1)

/-- The marker: 16 × +3, then 16 × −3. -/
def trainMarker : Nat := (4 ^ 16 - 1) * 4 ^ 16

/-- A field in symbols: a 1 is +3 +3 −3 −3, a 0 is −3 −3 +3 +3, most significant bit first. -/
def trainField (f : BitVec 16) : Nat := (bitsMsb 16 f.toNat).foldl (fun acc b => acc * 256 + (if b then 0xF0 else 0x0F)) 0

/-- A training frame of 4,096 symbols, with the generator and the precoder after it. -/
def trainFrame (control status : BitVec 16) (pam4 pre : Bool) (st last : Nat) : BitVec 8192 × Nat × Nat :=
  let p := trainPattern pam4 pre 3936 st last 0
  (BitVec.ofNat 8192 (((trainMarker * 4 ^ 64 + trainField control) * 4 ^ 64 + trainField status) * 4 ^ 3936 + p.1), p.2)

/-- `n` levels with the first `k` of the bits that they carry inverted (R76). -/
def burstLevels (n k w : Nat) : Nat := gray n (gray n w ^^^ ((2 ^ k - 1) * 2 ^ (2 * n - k)))

/-- The fast-exit burst of 1,024 symbols: the marker, then PRBS13Q. -/
def exitBurst (pre : Bool) (st last : Nat) : BitVec 2048 × Nat × Nat :=
  let p := trainPattern true pre 992 st last 0
  (BitVec.ofNat 2048 (trainMarker * 4 ^ 992 + p.1), p.2)

/-! ### 8b/10b (R65, R66) -/

/-- A character: a data byte or a special character. -/
structure Char8 where
  k : Bool
  b : Byte
  deriving DecidableEq, Repr

/-- The special characters of R66. -/
def k28_5 : Char8 := ⟨true, 0xBC⟩
def k27_7 : Char8 := ⟨true, 0xFB⟩
def k29_7 : Char8 := ⟨true, 0xFD⟩
def k28_3 : Char8 := ⟨true, 0x7C⟩
def k28_0 : Char8 := ⟨true, 0x1C⟩
def d21_5 : Char8 := ⟨false, 0xB5⟩

/-- Bits abcdei of D.x at negative running disparity, by x. -/
def sixes : List Nat :=
  [0x27, 0x1D, 0x2D, 0x31, 0x35, 0x29, 0x19, 0x38, 0x39, 0x25, 0x15, 0x34, 0x0D, 0x2C, 0x1C, 0x17,
   0x1B, 0x23, 0x13, 0x32, 0x0B, 0x2A, 0x1A, 0x3A, 0x33, 0x26, 0x16, 0x36, 0x0E, 0x2E, 0x1E, 0x2B]
/-- Bits fghj of D.x.y at negative running disparity, by y; and of K28.y. -/
def fours : List Nat := [0xB, 0x9, 0x5, 0xC, 0xD, 0xA, 0x6, 0xE]
def foursK : List Nat := [0xB, 0x6, 0xA, 0xC, 0xD, 0x5, 0x9, 0x7]

/-- Ones of an `n`-bit number. -/
def onesOf (n v : Nat) : Nat := ((List.range n).map (fun i => v / 2 ^ i % 2)).sum

/-- Running disparity (true: positive) after a group of `n` bits: positive where ones prevail, and after 000111 and 0011;
negative where zeros prevail, and after 111000 and 1100 (Clause 36). -/
def rdAfter (n : Nat) (rd : Bool) (v : Nat) : Bool :=
  if n < 2 * onesOf n v then true else if 2 * onesOf n v < n then false
  else if v = 2 ^ (n / 2) - 1 then true else if v = 2 ^ n - 2 ^ (n / 2) then false else rd

/-- The form of a six-bit group for a running disparity: one that is not balanced, and D.7, are inverted. -/
def six (k rd : Bool) (x : Nat) : Nat :=
  let v := if k && x = 28 then 0x0F else sixes.getD x 0
  if rd && (onesOf 6 v ≠ 3 || v = 0x38) then v ^^^ 0x3F else v

/-- The same of a four-bit group; D.x.7 takes its other form where five equal bits would follow one another. -/
def four (k rd : Bool) (x y : Nat) : Nat :=
  if k then
    let v := if x = 28 then foursK.getD y 0 else 0x7
    if rd then v ^^^ 0xF else v
  else
    let alt := y = 7 && (if rd then [11, 13, 14].contains x else [17, 18, 20].contains x)
    let v := if alt then 0x7 else fours.getD y 0
    if rd && (onesOf 4 v ≠ 2 || v = 0xC) then v ^^^ 0xF else v

/-- The code group of a character, bit a first, and the running disparity after it. -/
def encode10 (rd : Bool) (c : Char8) : BitVec 10 × Bool :=
  let x := fld c.b 4 0
  let y := fld c.b 7 5
  let s := six c.k rd x
  let rd1 := rdAfter 6 rd s
  let f := four c.k rd1 x y
  (BitVec.ofNat 10 (s * 16 + f), rdAfter 4 rd1 f)

/-- Every character that has a code group: 256 data bytes and 12 special characters. -/
def specials : List Byte := [0x1C, 0x3C, 0x5C, 0x7C, 0x9C, 0xBC, 0xDC, 0xFC, 0xF7, 0xFB, 0xFD, 0xFE]

/-- The character of a code group at a running disparity: none for an invalid group or a disparity error. The running
disparity goes on from the group itself. -/
def decode10 (rd : Bool) (g : BitVec 10) : Option Char8 × Bool :=
  let s := fld g 9 4
  let f := fld g 3 0
  let rd1 := rdAfter 6 rd s
  let xs := (List.range 32).filter (fun x => six false rd x = s)
  let d := xs.findSome? (fun x => ((List.range 8).find? (fun y => four false rd1 x y = f)).map (fun y => BitVec.ofNat 8 (32 * y + x)))
  let c := match d with
    | some b => some ⟨false, b⟩
    | none => (specials.find? (fun b => (encode10 rd ⟨true, b⟩).1 = g)).map (fun b => ⟨true, b⟩)
  (c, rdAfter 4 rd1 f)

/-! ### Packets on the lanes of a host link (R67, R68, R71) -/

/-- Characters in character times of `w` lanes, the last time filled with K28.5. -/
def rowsOf (w : Nat) : Nat → List Char8 → List (List Char8)
  | 0, _ => []
  | n + 1, cs => if cs = [] then [] else (cs ++ List.replicate (w - cs.length) k28_5).take w :: rowsOf w n (cs.drop w)

/-- A packet: K27.7 on lane 0, its bytes, K29.7, and K28.5 to the end of the character time. -/
def packetRows (w : Nat) (bytes : List Byte) : List (List Char8) :=
  let cs := k27_7 :: bytes.map (fun b => ⟨false, b⟩) ++ [k29_7]
  rowsOf w cs.length cs

/-- An alignment set. -/
def alignSet (w : Nat) : List (List Char8) := List.replicate 2 (List.replicate w k28_5)

/-- Character times with an alignment set before any that would be the 4,096th since the last set; and the times since
then. -/
def alignRows (w : Nat) : Nat → List (List Char8) → List (List Char8) × Nat
  | since, [] => ([], since)
  | since, r :: rs =>
    if 4094 ≤ since then
      let o := alignRows w 1 rs
      (alignSet w ++ r :: o.1, o.2)
    else
      let o := alignRows w (since + 1) rs
      (r :: o.1, o.2)

/-- The characters of one lane encoded. -/
def encodeLane : Bool → List Char8 → List (BitVec 10) × Bool
  | rd, [] => ([], rd)
  | rd, c :: cs =>
    let o := encode10 rd c
    let r := encodeLane o.2 cs
    (o.1 :: r.1, r.2)

/-- The code groups of one lane decoded: none where there is a code violation. -/
def decodeLane : Bool → List (BitVec 10) → List (Option Char8) × Bool
  | rd, [] => ([], rd)
  | rd, g :: gs =>
    let o := decode10 rd g
    let r := decodeLane o.2 gs
    (o.1 :: r.1, r.2)

/-- Bits of a code group inverted from the first on, `n` of those that remain to be inverted (R76). -/
def invertGroups : Nat → List (BitVec 10) → List (BitVec 10) × Nat
  | n, [] => ([], n)
  | n, g :: gs =>
    let k := min n 10
    let r := invertGroups (n - k) gs
    ((g ^^^ BitVec.ofNat 10 ((2 ^ k - 1) * 2 ^ (10 - k))) :: r.1, r.2)

/-- A training set on one lane (R71). -/
def trainingSet (lane request : Nat) (ready : Bool) (preset : Nat) : List Char8 :=
  [k28_5, k28_3, ⟨false, BitVec.ofNat 8 (lane % 16)⟩, ⟨false, BitVec.ofNat 8 (request % 4)⟩,
   ⟨false, BitVec.ofNat 8 (128 * b2n ready + preset % 4)⟩] ++ List.replicate 11 d21_5

/-- The exit burst on one lane (R73). -/
def hostBurst : List Char8 := List.replicate 60 d21_5 ++ List.replicate 4 k28_5

end Sys2Proof.Machine
end

