-- ==== Sys2Proof/Machine/Lanes.lean ====
section
/-! DEFINITION. Serial lanes (chapter 03): training (R59 to R62, R70 to R72), electrical idle (R63,
R73), what the transmitters send (R51 to R54, R59, R64, R65, R71), the alarm of R79, and the test features (R74 to R78,
R80). -/

namespace Sys2Proof.Machine

/-- Key of a lane's record. -/
def laneKey : LaneId → Nat
  | .net p l => 4 * p.val + l.val
  | .host h l => 256 + 16 * h.val + l.val

/-- The link that a lane belongs to, and the lane's number within it. -/
def laneLink : LaneId → LinkId
  | .net p _ => .port p
  | .host h _ => .host h
def laneNum : LaneId → Nat
  | .net _ l => l.val
  | .host _ l => l.val

/-- Whether a lane is a host lane. -/
def laneHost : LaneId → Bool
  | .net _ _ => false
  | .host _ _ => true

/-- The lanes of a link. -/
def linkLanes : LinkId → List LaneId
  | .port p => (List.finRange 4).map (fun l => .net p l)
  | .host h => (List.finRange 16).map (fun l => .host h l)

/-- The lane of a link with a number. -/
def linkLane : LinkId → Nat → LaneId
  | .port p, l => .net p ⟨l % 4, Nat.mod_lt _ (by decide)⟩
  | .host h, l => .host h ⟨l % 16, Nat.mod_lt _ (by decide)⟩

/-- A lane's record, and a change of it. -/
def State.lane (s : State) (n : LaneId) : Lane := tGet {} s.lanes (laneKey n)
def State.modLane (s : State) (n : LaneId) (f : Lane → Lane) : State :=
  { s with lanes := tMod {} (laneKey n) f s.lanes }

/-- LANE_STATUS.state: 0 OFF, 1 TRAINING, 2 ACTIVE, 3 IDLE, 4 EXITING, 5 TEST, 6 FAILED (R80). -/
def State.laneState (s : State) (n : LaneId) : Nat := s.rf (.laneStatus n) 3 0

/-- A lane's state changed; a margin scan of a lane that is neither ACTIVE nor in TEST stops (R78). -/
def State.setLane (s : State) (n : LaneId) (st : Nat) : State :=
  let s := s.wf (.laneStatus n) 3 0 st
  if st = 2 ∨ st = 5 then s else s.wb (.laneMargin n) 63 false

/-- LANE_CTRL.force_idle: it holds a transmitter in electrical idle, and wins over a test (R80). -/
def State.laneForced (s : State) (n : LaneId) : Bool := s.rb (.laneCtrl n) 5

/-- LANE_CTRL.enable (R80). -/
def State.laneOn (s : State) (n : LaneId) : Bool := s.rb (.laneCtrl n) 3

/-- Whether a link is administratively enabled (R98). -/
def State.linkOn (s : State) (l : LinkId) : Bool := s.rb (.llCtrl l) 0

/-- Whether the lanes of a link are in service (R75): in DOWN, disabled or not yet started, they are not (R98). -/
def State.inService (s : State) (l : LinkId) : Bool := s.linkOn l && s.llState l ≠ 0

/-! ### Equalisation (R57, R70) -/

/-- The current taps of a lane's transmitter. -/
def State.setTaps (s : State) (n : LaneId) (pre post : Nat) : State :=
  s.setReg (.laneTxeq n) (setFld (setFld (setFld (s.reg (.laneTxeq n)) 19 14 pre) 13 8 post) 7 0 (64 - pre - post))

/-- Magnitudes of c(−1) and c(1) of a preset of R57, and of c(1) of a preset of R70. -/
def netPreset (k : Nat) : Nat × Nat :=
  match k with
  | 2 => (4, 8)
  | 3 => (8, 12)
  | 4 => (4, 16)
  | _ => (0, 0)
def hostPreset (k : Nat) : Nat :=
  match k with
  | 1 => 8
  | 2 => 14
  | 3 => 16
  | _ => 0

/-- A tap request applied to a magnitude at most `top` (R60): the new magnitude, and the status that answers. Taps
are never positive, so an increment lowers the magnitude. -/
def tapReq (req mag top : Nat) : Nat × Nat :=
  match req with
  | 1 => if mag = 0 then (0, 3) else (mag - 1, 1)
  | 2 => if top ≤ mag then (mag, 2) else (mag + 1, 1)
  | _ => (mag, 0)

/-- The receiver's adaptation as LANE_RXEQ shows it: CTLE peaking, and the DFE tap selected (R58, R70). -/
def State.showEq (s : State) (n : LaneId) : State :=
  let x := s.lane n
  let k := s.rf (.laneRxeq n) 36 32
  (s.wf (.laneRxeq n) 11 8 x.ctle.toNat).wf (.laneRxeq n) 23 16 (fld x.dfe (8 * k + 7) (8 * k))

/-- Adapted values within the limits of a lane's calibration `w` (R422): the peaking from ctle_min to ctle_max, and each tap,
in units of 0.5 mV, of a magnitude of at most dfe_limit, in units of 2 mV. -/
def calCtle (w : Word) (v : Nat) : BitVec 4 := BitVec.ofNat 4 (fld w 3 0 + v % (fld w 7 4 - fld w 3 0 + 1))
def calTap (w : Word) (v : Nat) : Nat :=
  let m : Int := (4 * fld w 13 8 : Nat)
  (BitVec.ofInt 8 (max (-m) (min m (toSigned 8 v)))).toNat
def calDfe (w : Word) (v : BitVec 128) : BitVec 128 :=
  mkWord 128 ((List.range 16).map (fun k => (8 * k + 7, 8 * k, calTap w (fld v (8 * k + 7) (8 * k)))))

/-- The receiver adapts: its peaking and taps are whatever its channel asks for, free values (log entry 146), within the limits
of its calibration. adapt_freeze holds them (R58). -/
def State.adapt (s : State) (n : LaneId) : State :=
  if s.rb (.laneCtrl n) 12 then s
  else
    let w := (tFind s.cals (laneKey n)).getD (mkWord 64 [(13, 8, 63), (7, 4, 15)])
    let v := s.free 132
    (v.2.modLane n (fun x => { x with ctle := calCtle w (fld v.1 3 0), dfe := calDfe w ((v.1 >>> 4).setWidth 128) })).showEq n

/-- Adaptation goes on in the background while traffic flows (R58). -/
def State.adaptOn (s : State) (n : LaneId) : State := if s.laneState n = 2 then s.adapt n else s

/-- The taps that LANE_TXEQ forces. -/
def State.forcedTaps (s : State) (n : LaneId) : State :=
  if s.rb (.laneTxeq n) 32 then
    s.setTaps n (if laneHost n then 0 else s.rf (.laneTxeq n) 31 26) (s.rf (.laneTxeq n) 25 20)
  else s

/-! ### What a lane sends -/

/-- A codeword leaves on a network lane (R51 to R54): scrambled, coded, with the bits inverted that an injection asks for
(R76), as levels of the lane's polarity. -/
def State.sendCodeword (s : State) (n : LaneId) (kind lane count : Nat) (data : List Byte) : State :=
  let x := s.lane n
  let c := encodeCw x.scr.toNat (cwTag kind lane count) data
  let bits := c.1 ^^^ ((2 ^ x.invert - 1) * 2 ^ (5440 - x.invert))
  let o := toLevels 2720 x.precode (s.rb (.laneCtrl n) 10) x.txLast bits
  (s.modLane n (fun x => { x with scr := BitVec.ofNat 58 c.2, txLast := o.2, invert := 0 })).emit
    (.codeword n (BitVec.ofNat 5440 o.1))

/-- A codeword leaves whose data the specification does not give: those of step 6 of R61, before frames flow (log entry 184). -/
def State.sendFill (s : State) (n : LaneId) : State :=
  let v := s.free 5120
  let count := match n with | .net p _ => (tGet {} s.ports p.val).txCount | .host _ _ => 0
  v.2.sendCodeword n 0xA (laneNum n) count (beBytes 640 v.1.toNat)

/-- Code groups leave on a host lane, in its polarity, with the bits inverted that an injection asks for (R65, R76). -/
def State.sendGroups (s : State) (n : LaneId) (gs : List (BitVec 10)) : State :=
  let o := invertGroups (s.lane n).invert gs
  let out := if s.rb (.laneCtrl n) 10 then o.1.map (fun g => ~~~ g) else o.1
  (s.modLane n (fun x => { x with invert := o.2 })).emit (.groups n out)

/-- Characters leave on a host lane, by its own running disparity (R65). -/
def State.sendChars (s : State) (n : LaneId) (cs : List Char8) : State :=
  let o := encodeLane (s.lane n).rd cs
  (s.modLane n (fun x => { x with rd := o.2 })).sendGroups n o.1

/-- Whether a near loopback is selected: the transmitter sends electrical idle (R77). -/
def State.nearLoop (s : State) (n : LaneId) : Bool := s.rf (.laneCtrl n) 9 7 = 1 || s.rf (.laneCtrl n) 9 7 = 2

/-- The user pattern (R74): bit 79 first. -/
def State.userPattern (s : State) (n : LaneId) : BitVec 80 :=
  BitVec.ofNat 80 (s.rf (.laneUpatHi n) 15 0 * 2 ^ 64 + (s.reg (.laneUpatLo n)).toNat)

/-- Whether a lane sends its test pattern: in TEST, with tx_test and without force_idle (R74, R80). -/
def State.sendsPattern (s : State) (n : LaneId) : Bool := s.laneState n = 5 && s.rb (.laneCtrl n) 6 && !s.laneForced n

/-- A lane that is to send its test pattern begins it, unless it is looped back here (R74, R77). -/
def State.sendPattern (s : State) (n : LaneId) : State :=
  if s.sendsPattern n then
    let s := s.modLane n (fun x => { x with gen := patStart (s.rf (.laneTest n) 6 4) x.gen })
    if s.nearLoop n then s
    else s.emit (.pattern n (s.rf (.laneTest n) 6 4) (s.userPattern n) (s.lane n).gen (s.rb (.laneCtrl n) 10))
  else s

/-! ### Training -/

/-- CRC-4 of a field's bits [15:4]: x^4 + x + 1, initial value 0 (R60). -/
def crc4 (f : BitVec 16) : Nat := (crcBits 4 0x3#4 0#4 (bitsMsb 12 (fld f 15 4))).toNat

/-- Whether a control or status field passes its CRC. -/
def fieldOk (f : BitVec 16) : Bool := crc4 f = fld f 3 0

/-- A field with its CRC. -/
def withCrc4 (f : BitVec 16) : BitVec 16 := setFld f 3 0 (crc4 f)

/-- The control field that a receiver sends (R60): in step 3 presets and tap changes, from step 4 on req_pam4, with
precoding where it asks for it, and tap changes of fine tuning. -/
def Lane.control (x : Lane) : BitVec 16 :=
  let fine := 4 ≤ x.step
  let k := if x.step = 3 ∧ fld x.ask 6 4 ≤ 4 then fld x.ask 6 4 else 0
  let tap (v : Nat) : Nat := if x.step < 3 ∨ v = 3 then 0 else v
  withCrc4 (mkWord 16 [(15, 15, b2n fine), (14, 14, b2n (fine && x.askPre)), (13, 11, k),
    (10, 9, tap (fld x.ask 3 2)), (8, 7, tap (fld x.ask 1 0))])

/-- The status field that this end sends (R60); `lane` is its logical lane. -/
def Lane.status (x : Lane) (lane : Nat) : BitVec 16 :=
  withCrc4 (mkWord 16 [(15, 15, b2n x.ready), (14, 14, b2n x.pam4), (13, 13, b2n x.precode), (12, 11, x.preStat),
    (10, 9, x.postStat), (8, 7, lane)])

/-- The training that a lane sends from now on, unless force_idle holds its transmitter (R63, R80). A network lane's requests
while it tunes are its receiver's own choice, free values (log entry 147). Bits that an injection asks for are inverted in the
frame (R76). -/
def State.sendTraining (s : State) (n : LaneId) : State :=
  if (s.lane n).txIdle then s
  else match n with
  | .net _ l =>
    let step := (s.lane n).step
    let s := if step = 3 ∨ step = 5 then
        let v := s.free 7
        v.2.modLane n (fun x => { x with ask := v.1 })
      else s
    let x := s.lane n
    let f := trainFrame x.control (x.status l.val) x.pam4 x.precode (patStart 1 x.gen) x.txLast
    let sent := if x.invert = 0 then f.1 else BitVec.ofNat 8192 (burstLevels 4096 x.invert f.1.toNat)
    let line := if s.rb (.laneCtrl n) 10 then ~~~ sent else sent
    (s.modLane n (fun x => { x with gen := f.2.1, txLast := f.2.2, invert := 0 })).emit (.training n line)
  | .host _ l =>
    let x := s.lane n
    s.sendChars n (trainingSet l.val x.req x.ready x.preset)

/-- A lane's status while nothing is received: no lock, not converged. -/
def State.unlock (s : State) (n : LaneId) : State := s.wf (.laneStatus n) 14 8 0

/-- A lane begins an attempt at step 1 of R61 or R72; running disparity starts negative (R65). -/
def State.beginAttempt (s : State) (n : LaneId) : State :=
  let s := (s.unlock n).setLane n 1
  let s := s.wf (.laneStatus n) 7 4 (satAdd 15 (s.rf (.laneStatus n) 7 4) 1)
  let s := s.modLane n (fun x => { x with
    step := 2, since := s.clk, seenPam4 := 0, seenReady := 0, pam4 := false, precode := false, farPrecode := false,
    farPam4 := false, preStat := 0, postStat := 0, preset := 0, ready := false, farReady := false, txIdle := s.laneForced n,
    rxIdle := false, farPreset := 0, req := 0, swept := false, askPre := false, rd := false, rxRd := false })
  ((s.setTaps n 0 0).forcedTaps n).sendTraining n

/-- A lane trains from step 1, its failed attempts forgotten. A lane that is not enabled stays OFF. -/
def State.trainLane (s : State) (n : LaneId) : State :=
  if s.laneOn n then (s.modLane n (fun x => { x with fails := 0 })).beginAttempt n
  else (s.unlock n).setLane n 0

/-- The lanes of a link that have power: in Dust-sheet mode the first four of H0 (R452). -/
def State.poweredLanes (s : State) (l : LinkId) : List LaneId :=
  (linkLanes l).filter (fun n => !s.dust || decide (laneNum n < 4))

/-- Every lane of a link trains from step 1. -/
def State.trainLink (s : State) (l : LinkId) : State := (s.poweredLanes l).foldl (fun t n => t.trainLane n) s

/-- Bits that a lane's checker has compared (R49, R74): 212.5 or 56.25 in each ns. -/
def State.bitsCompared (s : State) (n : LaneId) : Nat :=
  let x := s.lane n
  x.bits + (match x.chkSince with
    | some t => if laneHost n then (s.clk - t) * 225 / 64 else (s.clk - t) * 425 / 32
    | none => 0)

/-- The checker stops counting, when chk_en is cleared. -/
def State.checkerStops (s : State) (n : LaneId) : State :=
  let b := s.bitsCompared n
  (s.wb (.laneTest n) 8 false).modLane n (fun x => { x with bits := b, chkSince := none })

/-- The lanes of a link return to service: generators, loopbacks and checkers are turned off (R75). -/
def State.lanesReturn (s : State) (l : LinkId) : State :=
  (linkLanes l).foldl (fun t n => ((t.wf (.laneCtrl n) 9 6 0).wb (.laneTest n) 7 false).checkerStops n) s

/-- A lane is OFF: its enable is cleared, which stops training and tests at once (R81), or its link has stopped sending, as
R108 gives. LANE_STATUS then reads OFF for an enabled lane too (log entry 148). A LANE_TXEQ written during training takes
effect. -/
def State.laneOff (s : State) (n : LaneId) : State :=
  let s := (if s.laneState n = 1 then s.forcedTaps n else s).wb (.laneCtrl n) 4 false
  let s := if (s.lane n).chkSince.isSome then s.checkerStops n else s
  ((s.unlock n).setLane n 0).modLane n (fun x => { x with step := 0, txIdle := false, rxIdle := false })

/-- LANE_TRAIN_START and HOST_LANE_TRAIN_START: an enabled lane that is OFF, of a link that is in service and trains,
starts at step 1. -/
def State.laneTrainStart (s : State) (n : LaneId) : State :=
  if s.laneOn n && s.inService (laneLink n) && s.laneState n = 0 then s.trainLane n else s

def doLaneTrainStart (p : Port) (l : Fin 4) (s : State) : State := s.laneTrainStart (.net p l)
def doHostLaneTrainStart (h : HLink) (l : Fin 16) (s : State) : State := s.laneTrainStart (.host h l)

/-- A control field applied (R60): a preset before tap requests, neither while LANE_TXEQ forces the taps. The preset codes
5 to 7, which the rule does not name, are taken as none, and tap requests beside them are applied (log entry 149). Which
statuses answer a frame whose preset took precedence, or whose requests are ignored, the rule leaves open: those of the frame
before stay (DESIGN CHOICE, log entry 183). -/
def State.applyControl (s : State) (n : LaneId) (c : BitVec 16) : State :=
  let x := s.lane n
  let seen := if bit c 15 then x.seenPam4 + 1 else 0
  let s := s.modLane n (fun x => { x with
    seenPam4 := seen, pam4 := x.pam4 || decide (2 ≤ seen),
    precode := x.precode || (decide (2 ≤ seen) && bit c 14 && s.rb (.laneCtrl n) 11) })
  let s := if (s.lane n).precode then s.wb (.laneStatus n) 13 true else s
  if s.rb (.laneTxeq n) 32 then s
  else
    let k := fld c 13 11
    let pre := s.rf (.laneTxeq n) 19 14
    let post := s.rf (.laneTxeq n) 13 8
    if 1 ≤ k ∧ k ≤ 4 then s.setTaps n (netPreset k).1 (netPreset k).2
    else
      let a := tapReq (fld c 10 9) pre 16
      let b := tapReq (fld c 8 7) post 24
      (s.setTaps n a.1 b.1).modLane n (fun x => { x with preStat := a.2, postStat := b.2 })

/-- A status field applied (R60). -/
def State.applyStatus (s : State) (n : LaneId) (t : BitVec 16) : State :=
  let s := s.modLane n (fun x => { x with
    seenReady := if bit t 15 then x.seenReady + 1 else 0, farPam4 := bit t 14, farPrecode := bit t 13 })
  let s := if bit t 13 then s.wb (.laneStatus n) 13 true else s
  s.wf (.laneStatus n) 19 16 (fld t 8 7)

/-- What a lane in training sends next: in step 6, once rx_ready has been seen in 8 consecutive frames, codewords (R61). -/
def State.sendNext (s : State) (n : LaneId) : State :=
  if (s.lane n).txIdle then s
  else if (s.lane n).step = 6 ∧ 8 ≤ (s.lane n).seenReady then s.sendFill n else s.sendTraining n

/-- A training frame at a lane that trains: fields whose CRC fails are ignored, and break a run of consecutive frames. `last`
is the level of its last symbol, from which the receiver's precoding goes on (R51). -/
def State.trainingIn (s : State) (n : LaneId) (control status : BitVec 16) (last : BitVec 2) : State :=
  let s := s.modLane n (fun x => { x with rxLast := last.toNat })
  if (s.lane n).step < 3 then s
  else
    let s := if fieldOk control then s.applyControl n control else s.modLane n (fun x => { x with seenPam4 := 0 })
    let s := if fieldOk status then s.applyStatus n status else s.modLane n (fun x => { x with seenReady := 0 })
    s.sendNext n

/-- A lane enters ACTIVE and is offered to the link layer (R61, R72): its last step has locked its codewords or characters,
and aligns it with the others. A LANE_TXEQ written meanwhile takes effect (R81). -/
def State.laneActive (s : State) (n : LaneId) : State :=
  let s := (s.wf (.laneStatus n) 12 11 3).forcedTaps n
  let s := (s.setLane n 2).wf (.laneStatus n) 7 4 0
  let s := s.wb (.laneCtrl n) 4 false
  s.modLane n (fun x => { x with step := 0, fails := 0 })

/-- LANE_TRAIN_STEP: the step under way completes, where what it waits for has been received (R61): of step 6, a codeword
whose tag has locked the lane. -/
def doLaneTrainStep (p : Port) (l : Fin 4) (inverted : Bool) (s : State) : State :=
  let n := LaneId.net p l
  let x := s.lane n
  let go (k : Nat) (s : State) : State := (s.modLane n (fun x => { x with step := k })).sendNext n
  if s.laneState n ≠ 1 then s
  else match x.step with
    | 2 => go 3 ((s.wf (.laneStatus n) 10 9 3).wb (.laneStatus n) 14 inverted)
    | 3 =>
      let v := s.free 1
      go 4 (v.2.modLane n (fun x => { x with askPre := v.1 = 1 }))
    | 4 => if x.pam4 then go 5 s else s
    | 5 => go 6 (((s.adapt n).modLane n (fun x => { x with ready := true })).wb (.laneStatus n) 8 true)
    | 6 => if 8 ≤ x.seenReady && s.rb (.laneStatus n) 11 then s.laneActive n else s
    | _ => s

/-- The receiver's requests (R72): once the far transmitter has applied the preset asked for, the next is asked for. -/
def Lane.sweep (x : Lane) (applied : Nat) : Lane :=
  let x := { x with farPreset := applied }
  if x.step ≠ 3 ∨ applied ≠ x.req then x
  else if x.req < 3 then { x with req := x.req + 1 } else { x with swept := true }

/-- A training set at a lane that trains: the preset requested of this transmitter, which LANE_TXEQ.force ignores, the far
end's readiness and preset, and its lane (R71). The receiver's running disparity goes on through its characters (R65). -/
def State.trainingSetIn (s : State) (n : LaneId) (laneByte request status : BitVec 8) : State :=
  let cs := [k28_5, k28_3, ⟨false, laneByte⟩, ⟨false, request⟩, ⟨false, status⟩] ++ List.replicate 11 d21_5
  let s := s.modLane n (fun x => { x with rxRd := (encodeLane x.rxRd cs).2 })
  if (s.lane n).step < 3 then s
  else
    let force := s.rb (.laneTxeq n) 32
    let k := fld request 1 0
    let s := if force then s else s.setTaps n 0 (hostPreset k)
    let s := s.modLane n (fun x => ({ x with preset := if force then x.preset else k, farReady := bit status 7 } : Lane).sweep (fld status 1 0))
    (s.wf (.laneStatus n) 19 16 (fld laneByte 3 0)).sendTraining n

/-- HOST_LANE_TRAIN_STEP (R72): step 3 needs every preset to have been tried, of which the receiver keeps the best, a
free value (log entry 147); step 4 needs rx_ready of both ends on every lane that trains or is ACTIVE, and sends an alignment
set. -/
def doHostLaneTrainStep (h : HLink) (l : Fin 16) (inverted : Bool) (s : State) : State :=
  let n := LaneId.host h l
  let x := s.lane n
  let go (k : Nat) (s : State) : State := (s.modLane n (fun x => { x with step := k })).sendTraining n
  let bothReady := (linkLanes (.host h)).all (fun m => s.laneState m ≠ 1 || ((s.lane m).ready && (s.lane m).farReady))
  if s.laneState n ≠ 1 then s
  else match x.step with
    | 2 => go 3 ((s.wf (.laneStatus n) 11 9 7).wb (.laneStatus n) 14 inverted)
    | 3 =>
      if !x.swept then s
      else
        let v := (s.adapt n).free 2
        go 4 ((v.2.modLane n (fun x => { x with req := v.1.toNat, ready := true })).wb (.laneStatus n) 8 true)
    | 4 => if bothReady then ((if x.txIdle then s else s.sendChars n [k28_5, k28_5])).laneActive n else s
    | _ => s

/-- An attempt that has lasted its limit restarts, and the third in a row leaves the lane FAILED (R62, R72); the lanes of a
host link in LOST train without limit (R110). -/
def doTrainAttemptTimeout (n : LaneId) (s : State) : State :=
  let x := s.lane n
  let limit := if laneHost n then us 40000 else us 300000
  if s.laneState n ≠ 1 ∨ s.clk ≤ x.since + limit then s
  else if 2 ≤ x.fails ∧ !(laneHost n && decide (s.llState (laneLink n) = 7)) then
    let s := ((s.forcedTaps n).setLane n 6).wb (.laneCtrl n) 4 false
    (s.modLane n (fun x => { x with step := 0, fails := 3 })).fault (laneBlock n) .degrade 0x11 (laneNum n)
  else (s.modLane n (fun x => { x with fails := x.fails + 1 })).beginAttempt n

/-! ### Electrical idle (R63, R64, R73) -/

/-- A lane holds electrical idle at this end: receiver settings are held, and it reports IDLE. -/
def State.laneHold (s : State) (n : LaneId) : State :=
  (s.setLane n 3).modLane n (fun x => { x with txIdle := true })

/-- A lane's transmitter sends the burst of a fast exit (R64, R73). -/
def State.sendBurst (s : State) (n : LaneId) : State :=
  let s := s.modLane n (fun x => { x with txIdle := false })
  match n with
  | .net _ _ =>
    let x := s.lane n
    let b := exitBurst x.precode (patStart 1 x.gen) x.txLast
    let sent := if x.invert = 0 then b.1 else BitVec.ofNat 2048 (burstLevels 1024 x.invert b.1.toNat)
    let line := if s.rb (.laneCtrl n) 10 then ~~~ sent else sent
    (s.modLane n (fun x => { x with gen := b.2.1, txLast := b.2.2, invert := 0 })).emit (.exitBurst n line)
  | .host _ _ => s.sendChars n hostBurst

/-- A lane whose receiver has locked again from the held state reports ACTIVE; one that is out of service, TEST or OFF. -/
def State.laneReturn (s : State) (n : LaneId) : State :=
  let s := s.wf (.laneStatus n) 12 10 7
  if s.inService (laneLink n) then s.setLane n 2
  else (s.setLane n (if s.rb (.laneCtrl n) 6 || decide (s.rf (.laneCtrl n) 9 7 ≠ 0) || s.rb (.laneTest n) 7 then 5 else 0)).sendPattern n

/-- A lane's fast exit (R64, R73): its burst, and ACTIVE unless the far transmitter still holds idle. -/
def State.laneExit (s : State) (n : LaneId) : State :=
  let s := s.sendBurst n
  if (s.lane n).rxIdle then s else s.laneReturn n

/-- A lane's receiver has taken the far end's burst (R64, R73): it locks again, and the lane reports ACTIVE unless its own
transmitter is idle. -/
def State.laneHears (s : State) (n : LaneId) : State :=
  let s := (s.wf (.laneStatus n) 12 10 7).modLane n (fun x => { x with rxIdle := false })
  if (s.lane n).txIdle then s else s.laneReturn n

/-- A lane of a link that is out of service reads TEST while its generator, checker or loopback is on (R75); force_idle
wins over them (R80), and a FAILED lane stays so until its retrain or its enable is written (R62). -/
def State.testState (s : State) (n : LaneId) : State :=
  if s.inService (laneLink n) || decide (s.laneState n = 6) then s
  else
    let on := s.laneOn n && (s.rb (.laneCtrl n) 6 || decide (s.rf (.laneCtrl n) 9 7 ≠ 0) || s.rb (.laneTest n) 7)
    if s.laneState n = 3 && s.rb (.laneCtrl n) 5 then s
    else if on then s.setLane n 5 else if s.laneState n = 5 then s.setLane n 0 else s

/-! ### BER alarm (R79) -/

/-- Corrected symbols or code violations of a lane noted, and the alarm set when those of the last second exceed
its limit. -/
def State.noteErrors (s : State) (n : LaneId) (k : Nat) : State :=
  if k = 0 then s
  else
    let s := s.bump (.laneLineerr n) 31 0 k
    let keep := (s.lane n).corr.filter (fun e => s.clk < e.1 + us 1000000)
    let corr := keep ++ [(s.clk, k)]
    let s := s.modLane n (fun x => { x with corr := corr })
    let limit := if laneHost n then 56 else 2125000
    if limit < (corr.map (fun e => e.2)).sum ∧ s.rb (.laneStatus n) 15 = false then
      (s.wb (.laneStatus n) 15 true).fault (laneBlock n) .degrade 0x10 (laneNum n)
    else s

/-! ### Test features -/

/-- A burst of `k` bits from the next bit on: where one is still under way, the union of both (R76). The bits of a test pattern
flow without a pause, so those of a lane that sends one are inverted at once. -/
def State.injectBits (s : State) (n : LaneId) : State :=
  let k := s.rf (.laneTest n) 23 16
  let on := s.sendsPattern n && !s.nearLoop n
  (s.modLane n (fun x => { x with invert := if on then x.invert else max x.invert k })).emit (.burst n k)

/-- Counts of 1/16 ns in which a lane sends `b` bits, rounded up (R49). -/
def bitTime (host : Bool) (b : Nat) : Nat := if host then ceilDiv (b * 64) 225 else ceilDiv (b * 32) 425

/-- INJECT_BURST: a burst of the rate set in LANE_TEST, once 2^inject_rate bits have passed since the last (R76): the bits of
every period since the rate was set are counted together. -/
def doInjectBurst (n : LaneId) (s : State) : State :=
  let r := s.rf (.laneTest n) 15 10
  let k := (s.lane n).injNo + 1
  if r ≠ 0 ∧ s.laneState n ≠ 0 ∧ (s.lane n).injAt + bitTime (laneHost n) (k * 2 ^ r) ≤ s.clk
  then (s.modLane n (fun x => { x with injNo := k })).injectBits n else s

/-- INJECT_NOW: one burst at the next bit (R76); the bit that asks for it returns to 0 with it. -/
def doInjectNow (n : LaneId) (s : State) : State :=
  if s.laneState n ≠ 0 then s.injectBits n else s

/-- MARGIN_SCAN_START (R78): start is written, which clears valid; a scan begins in ACTIVE and TEST only. -/
def doMarginScanStart (n : LaneId) (s : State) : State :=
  let st := s.laneState n
  let r := Reg.laneMargin n
  if s.rb r 63 then s
  else
    let s := s.wb r 62 false
    if st = 2 ∨ st = 5 then (s.wb r 63 true).modLane n (fun x => { x with scanAt := s.clk }) else s

/-- MARGIN_SCAN_END (R78): after 2^dwell µs the count is stored and valid sets. A scan whose lane has left ACTIVE or TEST
has stopped already, without a result. -/
def doMarginScanEnd (n : LaneId) (dis : BitVec 32) (s : State) : State :=
  let r := Reg.laneMargin n
  if !s.rb r 63 then s
  else if s.clk < (s.lane n).scanAt + us (2 ^ s.rf r 39 36) then s
  else ((s.wb r 63 false).wb r 62 true).wf r 31 0 dis.toNat

/-- LANE_EYE_REFRESH (R78): the measured openings, every 1 ms while a lane is ACTIVE or in TEST; a host lane reports the middle
eye only. -/
def doLaneEyeRefresh (n : LaneId) (eye : BitVec 48) (s : State) : State :=
  let due := (s.lane n).eyeAt + us 1000 ≤ s.clk
  let s := if due then s.modLane n (fun x => { x with eyeAt := s.clk }) else s
  if (s.laneState n ≠ 2 ∧ s.laneState n ≠ 5) ∨ !due then s
  else if laneHost n then s.setReg (.laneEye n) (setFld 0 31 16 (fld eye 31 16))
  else s.setReg (.laneEye n) (eye.setWidth 64)

/-- The bits that a lane's receiver takes: those of the line, or with a near loopback those that its own generator sends
(R77). -/
def State.heardBits (s : State) (n : LaneId) (bits : List Bool) : List Bool :=
  if s.nearLoop n then
    if s.sendsPattern n then (patBits (s.rf (.laneTest n) 6 4) (s.userPattern n) bits.length (s.lane n).gen []).1
    else List.replicate bits.length false
  else bits

/-- CHECKER_SYNCHRONISED (R74): with chk_en set on a lane in TEST, 256 bits of the pattern received set chk_lock, and the counts
begin. -/
def doCheckerSynchronised (n : LaneId) (bits : BitVec 256) (s : State) : State :=
  let r := Reg.laneTest n
  let heard := s.heardBits n (bitsMsb 256 bits.toNat)
  if s.laneState n = 5 ∧ s.rb r 7 ∧ s.rb r 8 = false ∧ patMatches (s.rf r 6 4) (s.userPattern n) heard = true then
    (s.wb r 8 true).modLane n (fun x => { x with chkSince := some s.clk })
  else s

/-- LANE_ERRCNT_READ (R80): the bit count goes to LANE_BITCNT, and both running counts clear. How many of the
compared bits were in error is known to the line alone: it is a free value, at most the bits compared (log entry 22). -/
def State.errcntRead (s : State) (n : LaneId) : Word × State :=
  let bits := s.bitsCompared n
  let top := 2 ^ 48 - 1
  let v := if bits = 0 then (0, s) else s.free 48
  let errs := if bits = 0 then 0 else (v.1 : BitVec 48).toNat % (min bits top + 1)
  let s := v.2
  let s := s.setReg (.laneBitcnt n) (mkWord 64 [(63, 63, b2n (decide (top < bits))), (47, 0, min bits top)])
  let s := s.modLane n (fun x => { x with bits := 0, chkSince := x.chkSince.map (fun _ => s.clk) })
  (mkWord 64 [(63, 63, b2n (decide (top < bits) && decide (errs = top))), (47, 0, errs)], s)

def doLaneErrcntRead (n : LaneId) (s : State) : State := (s.errcntRead n).2

end Sys2Proof.Machine
end

