-- ==== Sys2Proof/Machine/Port.lean ====
section
/-! DEFINITION. The link layer of a network port (chapter 04): frames (R82 to R85), acceptance and replay (R86 to
R89), credits (R90 to R93), HELLO (R99 to R102), retraining (R103 to R107) and fencing (R108, R109). -/

namespace Sys2Proof.Machine

/-! ### Records and widths -/

/-- A port's record, and a change of it. -/
def State.port (s : State) (p : Port) : PortSt := tGet {} s.ports p.val
def State.modPort (s : State) (p : Port) (f : PortSt → PortSt) : State := { s with ports := tMod {} p.val f s.ports }

/-- The state code of a port (R98). -/
def State.portState (s : State) (p : Port) : Nat := s.llState (.port p)
def State.setLink (s : State) (l : LinkId) (st : Nat) : State := s.wf (.llStatus l) 3 0 st

/-- Lanes of a link that are ACTIVE, in ascending order. -/
def State.activeLanes (s : State) (l : LinkId) : List Nat :=
  ((linkLanes l).filter (fun n => s.laneState n = 2)).map laneNum

/-- The largest width allowed to a link (R105). In Dust-sheet mode H0 runs at x4 at most. -/
def State.widthMax (s : State) (l : LinkId) : Nat :=
  let w := 2 ^ s.rf (.llCtrl l) 22 20
  match l with
  | .port _ => min w 4
  | .host h => if h = 0 ∧ s.dust = true then min w 4 else w

/-- The width that R105 chooses: the largest allowed one that neither the ACTIVE lanes nor `width_max` exceed. -/
def widthOf (active most : Nat) : Nat :=
  ([16, 8, 4, 2, 1].find? (fun w => decide (w ≤ active ∧ w ≤ most))).getD 0

/-- The lanes in use after a choice of width, and the width that LL_STATUS shows. -/
def State.chosenLanes (s : State) (l : LinkId) : List Nat :=
  let a := s.activeLanes l
  a.take (widthOf a.length (s.widthMax l))
def State.showWidth (s : State) (l : LinkId) (w : Nat) : State := s.wf (.llStatus l) 15 11 w

/-! ### Topology (R112 to R114) -/

/-- Size and chord of dimension `d`. -/
def State.dimSize (s : State) (d : Nat) : Nat := s.rf .rtTopo (31 - 8 * d) (28 - 8 * d) + 1
def State.dimChord (s : State) (d : Nat) : Nat := s.rf .rtTopo (27 - 8 * d) (24 - 8 * d)

/-- Coordinate `d` of a chip's 16-bit coordinates. -/
def coordOf (c d : Nat) : Nat := c / 2 ^ (12 - 4 * d) % 16

/-- Coordinates with coordinate `d` replaced. -/
def withCoord (c d x : Nat) : Nat := c - coordOf c d * 2 ^ (12 - 4 * d) + x % 16 * 2 ^ (12 - 4 * d)

/-- Direction code and use of a port (R113, R421). -/
def State.portDir (s : State) (p : Port) : Nat := s.rf (.rtMap p) 5 2
def State.portRail (s : State) (p : Port) : Nat := s.rf (.rtMap p) 1 0
def State.portUsed (s : State) (p : Port) : Bool := s.rb (.rtMap p) 7 && !bit s.retired p.val

/-- Step length of a direction code. -/
def State.dirStep (s : State) (dir : Nat) : Nat := if dir % 2 = 0 then 1 else s.dimChord (dir / 4)

/-- The coordinate reached from `c` by a direction code (R112). -/
def State.stepFrom (s : State) (c dir : Nat) : Nat :=
  let d := dir / 4
  let n := s.dimSize d
  let k := s.dirStep dir % n
  let x := coordOf c d
  withCoord c d (if dir / 2 % 2 = 0 then (x + k) % n else (x + n - k) % n)

/-- The neighbour of a port. -/
def State.neighbour (s : State) (p : Port) : Nat := s.stepFrom s.coord (s.portDir p)

/-! ### Credits (R90 to R92) -/

/-- Pools of VC `v` that a HELLO announces. -/
def helloRes (h : BitVec 512) (v : Nat) : Nat := fld h (236 - 8 * v) (229 - 8 * v)
def PortSt.res (x : PortSt) (v : Nat) : Nat := match x.far with | some h => helloRes h v | none => 0
def PortSt.shared (x : PortSt) : Nat := match x.far with | some h => fld h 156 145 | none => 0
def PortSt.cap (x : PortSt) : Nat := match x.far with | some h => fld h 144 133 | none => 0
def PortSt.usedOf (x : PortSt) (v : Nat) : Nat := tGet 0 x.used v

/-- Flits of the shared pool in use. -/
def PortSt.sharedUsed (x : PortSt) : Nat := ((List.range 10).map (fun v => x.usedOf v - x.res v)).sum

/-- Whether one more flit of a VC may go (R91). -/
def PortSt.mayGo (x : PortSt) (v : Nat) : Bool :=
  decide (x.usedOf v < x.res v) ||
    (decide (2 ≤ v) && decide (x.usedOf v < x.cap) && decide (x.sharedUsed < x.shared))

/-- The port with one flit charged. -/
def PortSt.charge (x : PortSt) (v : Nat) : PortSt := { x with used := tSet 0 v (x.usedOf v + 1) x.used }

/-- How many of `n` flits of a VC may go now (R91). -/
def PortSt.mayGoN : Nat → PortSt → Nat → Nat
  | 0, _, _ => 0
  | n + 1, x, v => if x.mayGo v then 1 + PortSt.mayGoN n (x.charge v) v else 0

/-- `n` flits charged. -/
def PortSt.chargeN (x : PortSt) (v n : Nat) : PortSt := { x with used := tSet 0 v (x.usedOf v + n) x.used }

/-- A reported count applied (R92). -/
def PortSt.applyCred (x : PortSt) (v cum : Nat) : PortSt :=
  if 10 ≤ v then x
  else
    let delta := (cum + 8192 - tGet 0 x.lastCum v) % 8192
    if delta < 4096 then
      { x with used := tSet 0 v (x.usedOf v - delta) x.used, lastCum := tSet 0 v cum x.lastCum }
    else x

/-- The freed count of a VC raised (R92): flits have left the input buffer, or never stood in it (R102). -/
def PortSt.freeNow (x : PortSt) (v n : Nat) : PortSt :=
  if n = 0 then x
  else { x with freed := tSet 0 v ((tGet 0 x.freed v + n) % 8192) x.freed,
                changed := if x.changed.contains v then x.changed else x.changed ++ [v] }

/-- Flits of a VC have left the input buffer (R92): those of an earlier link-up are not counted. -/
def PortSt.free (x : PortSt) (v n : Nat) : PortSt :=
  let o := min n (tGet 0 x.old v)
  let k := n - o
  let x := { x with old := tSet 0 v (tGet 0 x.old v - o) x.old }
  x.freeNow v k

/-- The VC least recently reported among some. -/
def PortSt.oldestOf (x : PortSt) (vs : List Nat) : Nat :=
  match vs with
  | [] => 15
  | v :: rest => rest.foldl (fun b w => if tGet 0 x.credAt w < tGet 0 x.credAt b then w else b) v

/-- The VC that a trailer's next slot reports (R92): one not reported for 5 trailers, else the oldest change, else the
next in rotation. -/
def PortSt.pickCred (x : PortSt) (vs : List Nat) : Nat :=
  let o := x.oldestOf vs
  if 5 ≤ x.credNo - tGet 0 x.credAt o then o
  else match x.changed.filter (fun v => vs.contains v) with
    | v :: _ => v
    | [] => o

/-! ### Frames (R82 to R84) -/

/-- CRC-32C of a frame: its flits, then trailer bits [127:32]. -/
def frameCrc (t : BitVec 128) (flits : List (BitVec 512)) : Nat :=
  (crc32c (flits.flatMap flitBytes ++ beBytes 12 (fld t 127 32))).toNat

/-- The two VCs that the next trailer reports. -/
def PortSt.credPair (x : PortSt) : Nat × Nat :=
  let a := x.pickCred (List.range 10)
  (a, x.pickCred ((List.range 10).filter (· ≠ a)))

/-- A frame's trailer, with the current ack and credit fields (R84). -/
def PortSt.trailer (x : PortSt) (kind next vc seq : Nat) (flits : List (BitVec 512)) : BitVec 128 :=
  let c := x.credPair
  let t : BitVec 128 := mkWord 128
    [(127, 126, kind), (125, 122, flits.length), (121, 118, next), (117, 114, vc), (113, 90, seq), (89, 66, x.lastAcc),
     (65, 62, c.1), (61, 49, tGet 0 x.freed c.1), (48, 45, c.2), (44, 32, tGet 0 x.freed c.2)]
  setFld t 31 0 (frameCrc t flits)

/-- A frame as bytes of the stream (R82). -/
def frameBytes (t : BitVec 128) (flits : List (BitVec 512)) : List Byte := flits.flatMap flitBytes ++ beBytes 16 t.toNat

/-- Codewords leave, one on each lane in use (R53, R54): the lanes carry the units of a stretch of the byte stream in
turn, under one count. A lane that holds electrical idle sends none (R63). -/
def State.sendStretch (s : State) (p : Port) (bs : List Byte) : State :=
  let x := s.port p
  let w := x.use.length
  let s := ((List.range w).zip x.use).foldl (fun t (e : Nat × Nat) =>
    if (t.lane (linkLane (.port p) e.2)).txIdle then t
    else t.sendCodeword (linkLane (.port p) e.2) 0xA e.1 x.txCount (laneShare w e.1 bs)) s
  s.modPort p (fun x => { x with txCount := (x.txCount + 1) % 16384 })

/-- Bytes put into the stream of a port: codewords leave as they fill (log entry 23). -/
def State.putBytes (s : State) (p : Port) (bs : List Byte) : State :=
  let x := s.port p
  let n := 640 * x.use.length
  let all := x.txBytes ++ bs
  if n = 0 ∨ all.length < n then s.modPort p (fun x => { x with txBytes := if n = 0 then [] else all })
  else (s.modPort p (fun x => { x with txBytes := all.drop n })).sendStretch p (all.take n)

/-- A frame sent on a port. -/
def State.sendFrame (s : State) (p : Port) (kind next vc seq : Nat) (flits : List (BitVec 512)) : State :=
  let x := s.port p
  let c := x.credPair
  let t := x.trailer kind next vc seq flits
  let n := x.credNo + 1
  let s := s.modPort p (fun x => { x with
    credNo := n, credAt := tPut c.1 n (tPut c.2 n x.credAt), changed := x.changed.filter (fun v => v ≠ c.1 ∧ v ≠ c.2),
    quietAt := if x.ackOwed || x.changed ≠ [] then s.clk else x.quietAt, ackOwed := false })
  (s.emit (.frame p t flits)).putBytes p (frameBytes t flits)

/-- An IDLE frame, announcing the flits of the frame after it, or a notice (R84). -/
def State.sendIdle (s : State) (p : Port) (next : Nat) : State := s.sendFrame p 0 next 0 (s.port p).next []

/-- Bytes of the stream before the next alignment point (R83): the first unit of the codeword of logical lane 0 whose
count is a multiple of 4. A port without lanes in use has no stream. -/
def PortSt.alignRoom (x : PortSt) : Option Nat :=
  if x.use = [] then none else some (2560 * x.use.length - (x.txCount % 4 * (640 * x.use.length) + x.txBytes.length))

/-- IDLE frames up to the next alignment point, where fewer than `n` bytes are left before it (R83). -/
def State.fillTo : Nat → State → Port → Nat → State
  | 0, s, _, _ => s
  | k + 1, s, p, n =>
    match (s.port p).alignRoom with
    | some r => if r < n then State.fillTo k (s.sendIdle p 0) p n else s
    | none => s

/-- IDLE frames until one more fills the codewords in hand, which then is the notice of what follows (R63, R84, R104). -/
def State.sendPortNotice : Nat → State → Port → Nat → State
  | 0, s, p, next => s.sendIdle p next
  | k + 1, s, p, next =>
    let x := s.port p
    if x.use = [] ∨ 640 * x.use.length ≤ x.txBytes.length + 16 then s.sendIdle p next
    else State.sendPortNotice k (s.sendIdle p 0) p next

/-- The stream of a port begins again (R83, R99, R104, R107): this end's at an alignment point (log entry 151), and the far
end's frames are taken from its next alignment point on. -/
def PortSt.restreamTx (x : PortSt) : PortSt := { x with txCount := (x.txCount + 4) / 4 * 4 % 16384, txBytes := [] }
def PortSt.restreamRx (x : PortSt) : PortSt := { x with rxNext := none, rxq := [], rxBytes := [] }
def PortSt.restream (x : PortSt) : PortSt := x.restreamTx.restreamRx

/-- Whether a port can send frames: its link is up for them and its transmitter is not in electrical idle. During a
retrain it can once frames have resumed (R104). -/
def State.maySend (s : State) (p : Port) : Bool :=
  let st := s.portState p
  !(s.port p).txIdle &&
    (st = 2 || st = 3 || st = 5 || (st = 4 && (match (s.port p).retrain with | some r => r.resumed | none => false)))

/-- A NAK (R86): sent, or owed until the port can send. -/
def State.sendNak (s : State) (p : Port) : State :=
  let s := s.modPort p (fun x => { x with nak := some s.clk })
  if s.maySend p then
    (s.sendFrame p 2 0 0 (s.port p).next []).bump (.llErrcnt (.port p)) 31 16 1
  else s

/-- A NAK unless one is outstanding. -/
def State.wantNak (s : State) (p : Port) : State := if (s.port p).nak.isSome then s else s.sendNak p

/-- A frame that carries flits, behind the IDLE frame that announces it and before none that does (log entry 23); neither
straddles an alignment point (R83). -/
def State.sendAnnounced (s : State) (p : Port) (kind vc seq : Nat) (flits : List (BitVec 512)) : State :=
  ((s.fillTo 34 p (64 * flits.length + 32)).sendIdle p flits.length).sendFrame p kind 0 vc seq flits

/-- A frame that carries flits, kept for replay. -/
def State.sendData (s : State) (p : Port) (poison : Bool) (vc : Nat) (flits : List (BitVec 512)) : State :=
  let x := s.port p
  let seq := x.next
  let f : TxFrame := ⟨seq, poison, vc, flits, s.clk⟩
  let s := s.sendAnnounced p (if poison then 3 else 1) vc seq flits
  s.modPort p (fun x => { x with next := (seq + 1) % 2 ^ 24, replay := x.replay ++ [f], quietAt := s.clk })

/-- Flits that wait for acknowledgement. -/
def PortSt.fill (x : PortSt) : Nat := (x.replay.map (fun f => f.flits.length)).sum

/-! ### Retrain (R103 to R106) -/

/-- A lane enters electrical idle (R63, R73): on a network lane in use behind an idle-entry codeword, whose data are IDLE
frames; on a host lane behind K28.0. -/
def State.laneIdle (s : State) (n : LaneId) : State :=
  let s := match n with
    | .net p l =>
      let x := s.port p
      match x.use.findIdx? (· = l.val) with
      | some i => s.sendCodeword n 5 i x.txCount ((List.replicate 40 (frameBytes (x.trailer 0 0 0 x.next []) [])).flatten)
      | none => s
    | .host _ _ => s.sendChars n [k28_0]
  s.laneHold n

/-- The lanes of a link make their idle entry and are asked for a fast exit (steps 2 and 3 of R104); force_idle holds one
that is idle. -/
def State.lanesExit (s : State) (l : LinkId) : State :=
  (linkLanes l).foldl (fun t n =>
    let t := if t.laneState n = 2 ∨ (t.laneState n = 3 ∧ (t.lane n).txIdle = false) then t.laneIdle n else t
    if t.laneState n = 3 ∧ t.rb (.laneCtrl n) 5 = false then t.setLane n 4 else t) s

/-- A retrain noted: counted, and a storm recorded (R106, R111): once, by the retrain that makes 17 within 1 s; later ones
record it again only when the count has fallen and reaches 17 anew (log entry 153). -/
def State.noteRetrain (s : State) (l : LinkId) (times : List Nat) : State :=
  let s := s.bump (.llStatus l) 39 32 1
  if times.length = 17 then
    s.fault (match l with | .port p => .port p | .host h => .hostlink h) .degrade 0x20 0
  else s

/-- Steps 3 to 6 of a retrain begin again from step 2 (R104). -/
def State.portRetrainAgain (s : State) (p : Port) : State :=
  match (s.port p).retrain with
  | some r =>
    let s := if s.maySend p then s.sendPortNotice 160 p 15 else s
    (s.modPort p (fun x => { x with retrain := some { r with step2 := s.clk, step3 := s.clk, resumed := false } })).lanesExit (.port p)
  | none => s

/-- A port starts a link retrain (R104, steps 1 to 3). A trigger that comes once frames have resumed in a retrain, after the
choice of width, repeats it from step 2 (log entry 185). -/
def State.retrainPort (s : State) (p : Port) : State :=
  let st := s.portState p
  if st = 4 ∧ (s.port p).retrain.any (fun r => r.resumed) then s.portRetrainAgain p
  else if st ≠ 2 ∧ st ≠ 3 ∧ st ≠ 5 then s
  else
    let s := if s.maySend p then s.sendPortNotice 160 p 15 else s
    let times := ((s.port p).retrains.filter (fun t => s.clk < t + us 1000000)) ++ [s.clk]
    let r : Retrain := ⟨s.clk, s.clk, s.clk, st, false⟩
    let s := s.modPort p (fun x => { x with retrain := some r, resend := none, retrains := times })
    ((s.noteRetrain (.port p) times).setLink (.port p) 4).lanesExit (.port p)

/-- A replay started from a sequence number (R88, R89): the oldest frame's replay count rises, and at its limit the
port retrains. -/
def State.startReplay (s : State) (p : Port) (from_ : Nat) (counts : Bool) : State :=
  match (s.port p).replay.find? (fun f => dist 24 f.seq from_ < 2 ^ 23) with
  | none => s
  | some f =>
    let oldest := match (s.port p).replay with | g :: _ => g.seq = f.seq | [] => false
    let n := (s.port p).count + b2n (counts && oldest)
    let s := s.bump (.llErrcnt (.port p)) 47 32 1
    let s := s.modPort p (fun x => { x with resend := some f.seq, count := n })
    if counts && oldest && decide (s.rf (.llCtrl (.port p)) 27 24 ≤ n) then s.retrainPort p else s

/-- Whether a lane is idle or on its way back; and whether a retrain still waits for some lane, which one that force_idle
holds does not make it do. -/
def State.laneAway (s : State) (n : LaneId) : Bool := s.laneState n = 3 || s.laneState n = 4
def State.exiting (s : State) (l : LinkId) : Bool := (linkLanes l).any (fun n => s.laneAway n && !s.laneForced n)

/-- Frames resume once every lane has made its exit or been dropped, with the width that R105 then chooses (steps 4
and 5 of R104). -/
def State.resumePort (s : State) (p : Port) : State :=
  match (s.port p).retrain with
  | none => s
  | some r =>
    let use := s.chosenLanes (.port p)
    if r.resumed || s.exiting (.port p) || use = [] then s
    else
      let s := s.modPort p (fun x => { x.restream with use := use, txIdle := false, rxIdle := false, retrain := some { r with resumed := true } })
      (s.showWidth (.port p) use.length).sendIdle p 0

/-! ### Acknowledgements -/

/-- Frames at or below an ack released (R88). -/
def State.releaseAcked (s : State) (p : Port) (ack : Nat) : State :=
  let x := s.port p
  let done (q : Nat) : Bool := decide (dist 24 ack q < 2 ^ 23)
  let keep := x.replay.filter (fun f => !done f.seq)
  let first := match x.replay with | f :: _ => done f.seq | [] => false
  s.modPort p (fun x => { x with
    replay := keep, count := if first then 0 else x.count,
    resend := (match x.resend with
      | some q => if done q then (keep.head?).map (fun f => f.seq) else some q
      | none => none),
    helloAcked := x.helloAcked || (match x.helloSeq with | some q => done q | none => false),
    quietAt := if first then s.clk else x.quietAt })

/-! ### Worms and the input buffer (R135, R108) -/

/-- Number of a source of packets: an input VC, or a class of a stall's send engine. -/
def srcPort (p : Port) (vc : Nat) : Nat := 16 * p.val + vc
def srcInject (st cls : Nat) : Nat := 1024 + 4 * st + cls

/-- Flits at a source that have arrived and not yet left. -/
def State.srcFlits (s : State) (k : Nat) : List Flit :=
  if k < 1024 then tGet [] (s.port (portOf (k / 16))).ibuf (k % 16)
  else match tGet [] s.inject (k - 1024) with
    | p :: _ => p
    | [] => []

/-- The first `n` flits at a source have left it. -/
def State.takeSrc (s : State) (k n : Nat) : State :=
  if k < 1024 then
    s.modPort (portOf (k / 16)) (fun x =>
      { (x.free (k % 16) n) with
        ibuf := tMod [] (k % 16) (fun l => l.drop n) x.ibuf, syncIn := if k % 16 = 0 then x.syncIn.drop n else x.syncIn })
  else
    { s with inject := tMod [] (k - 1024) (fun l => match l with
        | p :: rest => if p.length ≤ n then rest else p.drop n :: rest
        | [] => []) s.inject }

/-- The first flit at a source replaced: a routing stage has rewritten the header (R119). -/
def State.putHead (s : State) (k : Nat) (f : Flit) : State :=
  let upd (l : List Flit) : List Flit := match l with | _ :: rest => f :: rest | [] => []
  if k < 1024 then s.modPort (portOf (k / 16)) (fun x => { x with ibuf := tMod [] (k % 16) upd x.ibuf })
  else { s with inject := tMod [] (k - 1024) (fun l => match l with | p :: rest => upd p :: rest | [] => []) s.inject }

/-- The input port of a source. -/
def srcPortOf (k : Nat) : Option Port := if k < 1024 then some (portOf (k / 16)) else none

/-- Flits of a packet on its way to an endpoint, or being discarded, leave their source as they arrive. -/
def State.pump (s : State) (k : Nat) : State :=
  match tFind s.worms k with
  | none => s
  | some w => match w.dest with
    | .out _ _ => s
    | d =>
      let fs := (s.srcFlits k).take w.left
      let s := s.takeSrc k fs.length
      let left := w.left - fs.length
      let got := w.got ++ fs
      if left = 0 then
        let s := { s with worms := tDel k s.worms }
        if d = .eject then { s with eject := s.eject ++ [⟨got, srcPortOf k⟩] } else s
      else { s with worms := tPut k { w with left := left, got := if d = .eject then got else [] } s.worms }

/-- LEN_FLITS of a header flit, at least 1. -/
def flitLen (f : Flit) : Nat := max 1 (fld f.bits (64 + 384) (58 + 384))

/-- Flits that the last packet of an input VC still lacks. -/
def lacking : Nat → List Flit → Nat
  | 0, _ => 0
  | _, [] => 0
  | n + 1, f :: fs => if flitLen f ≤ (f :: fs).length then lacking n ((f :: fs).drop (flitLen f)) else flitLen f - (f :: fs).length

/-- Flits that an input VC's last packet still lacks, counting a packet that has committed. -/
def State.lackingAt (s : State) (k : Nat) : Nat :=
  let fs := s.srcFlits k
  let r := match tFind s.worms k with | some w => w.left | none => 0
  if fs.length < r then r - fs.length else lacking 2304 (fs.drop r)

/-! ### Fencing (R108, R109) -/

/-- Every lane of a link in electrical idle, its training forgotten (R108). One that is FAILED stays so (R62). -/
def State.lanesStop (s : State) (l : LinkId) : State :=
  (linkLanes l).foldl (fun t n => if t.laneState n = 6 then t else t.laneOff n) s

/-- The packets that hold an output VC of a port are discarded as they arrive, each counted once. -/
def State.dropWorms (s : State) (p : Port) : State :=
  let held := (s.port p).outv
  let s := s.bump (.llDiscard (.port p)) 63 32 held.length
  let s := held.foldl (fun t e =>
    match tFind t.worms e.2.src with
    | some w => { t with worms := tPut e.2.src { w with dest := .drop } t.worms }.pump e.2.src
    | none => t) s
  s.modPort p (fun x => { x with outv := [] })

/-- Packets from a port that are incomplete are completed with poisoned filler (R108, item 5); an input VC that is
being discarded loses its flits (R122). -/
def State.fillWorms (s : State) (p : Port) : State :=
  (List.range 10).foldl (fun s v =>
    let k := srcPort p v
    if (s.port p).bad.contains v then
      s.modPort p (fun x => { (x.free v (tGet [] x.ibuf v).length) with ibuf := tDel v x.ibuf, syncIn := if v = 0 then [] else x.syncIn })
    else
      let n := s.lackingAt k
      if n = 0 then s
      else
        let s := s.modPort p (fun x => { x with 
          ibuf := tMod [] v (· ++ List.replicate n ⟨0, true⟩) x.ibuf,
          syncIn := if v = 0 then x.syncIn ++ List.replicate n s.nt.toNat else x.syncIn })
        (s.bump (.llDiscard (.port p)) 31 0 1).pump k) s

/-- Credits and sequence numbers cleared: what is left in the input buffer belongs to the past. -/
def PortSt.cleared (x : PortSt) : PortSt :=
  { x with
    lastAcc := 0xFFFFFF, nak := none, next := 0, replay := [], resend := none, count := 0, used := [], lastCum := [],
    freed := [], changed := [], credAt := [], credNo := 0, ackOwed := false, far := none, helloSeq := none,
    helloAcked := false, txLocal := [], txBypass := [], rxLocal := [], bad := [], retrain := none, txIdle := false, rxIdle := false,
    use := [], txBytes := [], rxNext := none, rxq := [], rxBytes := [], recheck := false, old := x.ibuf.map (fun (e : Nat × List Flit) => (e.1, e.2.length)) }

/-- What a fence and a disabling of a port have in common (R108). LL_STATUS.quarantine_reason then reads 0, of which the rule
says nothing (DESIGN CHOICE, log entry 183). -/
def State.stopPort (s : State) (p : Port) (st : Nat) : State :=
  let s := (s.lanesStop (.port p)).dropWorms p
  let s := (s.fillWorms p).modPort p PortSt.cleared
  let s := ((s.showWidth (.port p) 0).wf (.llCtrl (.port p)) 4 3 0).wf (.llStatus (.port p)) 19 16 0
  s.setLink (.port p) st

/-- A port trains every enabled lane from step 1 (R61, R99). -/
def State.trainPort (s : State) (p : Port) : State :=
  ((s.modPort p (fun x => { x with trainAt := s.clk })).setLink (.port p) 1).trainLink (.port p)

/-- A port is fenced (R108, R109): cause 0 the window, 1 force_fence, 2 a bad header. -/
def State.fencePort (s : State) (p : Port) (unit : Nat) : State :=
  let st := s.portState p
  if st = 0 ∨ st = 6 then s
  else
    let s := (s.stopPort p 6).wb (.llStatus (.port p)) 7 true
    let s := s.fault (.port p) .fence 0x80 unit
    if s.rb (.llCtrl (.port p)) 2 ∧ s.rb (.llCtrl (.port p)) 1 = false then s.trainPort p else s

/-- PORT_DISABLE: enable is cleared, traffic is disposed of as at a fence without a fault, and the port stays DOWN. -/
def doPortDisable (p : Port) (s : State) : State :=
  let s := s.wb (.llCtrl (.port p)) 0 false
  if s.portState p = 0 then s else s.stopPort p 0

/-- A port's enable is set (R98, R108): it trains, unless force_fence holds it. -/
def State.enablePort (s : State) (p : Port) : State :=
  let s := s.wb (.llCtrl (.port p)) 0 true
  let s := s.lanesReturn (.port p)
  let s := s.trainPort p
  if s.rb (.llCtrl (.port p)) 1 then s.fencePort p 1 else s

/-! ### Accepting flits -/

/-- Flits of a VC accepted into the input buffer (R86); in QUARANTINE those of VCs other than VC1 are discarded and
counted, and their credits return at once (R102). -/
def State.acceptFlits (s : State) (p : Port) (v : Nat) (fs : List Flit) : State :=
  let quar := s.portState p = 5 || (match (s.port p).retrain with | some r => r.back = 5 | none => false)
  if quar && v ≠ 1 then
    (s.modPort p (fun x => x.freeNow v fs.length)).bump (.llStatus (.port p)) 31 20 fs.length
  else
    let s := s.pm (.port p) 0x02 v fs.length
    if (s.port p).bad.contains v then s.modPort p (fun x => x.free v fs.length)
    else
      (s.modPort p (fun x => { x with
        ibuf := tMod [] v (· ++ fs) x.ibuf,
        syncIn := if v = 0 then x.syncIn ++ List.replicate fs.length s.nt.toNat else x.syncIn })).pump (srcPort p v)

/-! ### HELLO (R99 to R102) -/

/-- An epoch received in a HELLO or TIME_SYNC (R392): the highest is kept. -/
def State.noteEpoch (s : State) (e : Nat) : State :=
  if e ≠ 0 ∧ (s.epochSeen = 0 ∨ 2 ^ 31 ≤ dist 32 s.epochSeen e) then { s with epochSeen := e } else s

/-- This end's HELLO (R100). -/
def State.hello (s : State) (p : Port) : BitVec 512 :=
  let c := (s.port p).pools
  mkWord 512 ([(511, 504, 1), (503, 496, 1), (495, 432, (s.reg .chipId).toNat), (431, 416, s.coord), (415, 410, p.val),
    (409, 406, s.portDir p), (405, 404, s.portRail p), (403, 397, s.rf .tkSec 63 57),
    (396, 333, (s.reg .coDigestHi).toNat), (332, 269, (s.reg .coDigestLo).toNat), (268, 237, s.rf .ntStatus 31 0),
    (236, 229, fld c 39 32), (228, 221, fld c 31 24), (156, 145, fld c 63 52), (144, 133, fld c 51 40)] ++
    (List.range 8).map (fun k => (236 - 8 * (k + 2), 229 - 8 * (k + 2), fld c 23 16)))

/-- A HELLO waits to be sent. -/
def State.queueHello (s : State) (p : Port) : State := s.modPort p (fun x => { x with txLocal := x.txLocal ++ [s.hello p] })

/-- What a far HELLO fails of R101: digest, coordinate, direction, security version in bits 0 to 3. -/
def State.helloFails (s : State) (p : Port) (h : BitVec 512) : Nat :=
  let dir := s.portDir p
  let opp := dir / 4 * 4 + (if dir / 2 % 2 = 0 then 2 else 0) + dir % 2
  b2n (fld h 396 333 ≠ (s.reg .coDigestHi).toNat || fld h 332 269 ≠ (s.reg .coDigestLo).toNat) +
    2 * b2n (fld h 431 416 ≠ s.neighbour p) + 4 * b2n (fld h 409 406 ≠ opp) +
    8 * b2n (decide (fld h 403 397 < s.rf .tkSec 63 57))

/-- A port enters QUARANTINE (R101). -/
def State.quarantine (s : State) (p : Port) (reason : Nat) : State :=
  let s := (s.setLink (.port p) 5).wb (.llStatus (.port p)) 6 true
  (s.modPort p (fun x => { x with quarAt := s.clk })).fault (.port p) .degrade 0x12 reason

/-- The far HELLO judged, and the port's state set by it: at link-up once its own HELLO has been acknowledged
(step 4 of R99), later at once, and in a retrain when it ends (R102). -/
def State.judge (s : State) (p : Port) : State :=
  let st := s.portState p
  match (s.port p).far with
  | none => s
  | some h =>
    if st = 4 then s.modPort p (fun x => { x with recheck := true }) else
    let why := s.helloFails p h
    let ready := st = 3 || st = 5 || (st = 2 && (s.port p).helloAcked)
    if !ready then s
    else
      let s := s.wf (.llStatus (.port p)) 19 16 why
      if why = 0 then (if st = 3 then s else (s.setLink (.port p) 3).wb (.llCtrl (.port p)) 3 false)
      else if st = 5 then s else (s.quarantine p why).wb (.llCtrl (.port p)) 3 false

/-- Step 6 of R104: the first good trailer from the far end ends the retrain, and the far HELLO is judged again where that was
asked for meanwhile (R102). -/
def State.endRetrain (s : State) (p : Port) (ack : Nat) : State :=
  match (s.port p).retrain with
  | none => s
  | some r =>
    let s := s.releaseAcked p ack
    let again := (s.port p).recheck
    let s := (s.modPort p (fun x => { x with retrain := none, recheck := false })).setLink (.port p) r.back
    let s := s.wb (.llCtrl (.port p)) 3 false
    let s := if (s.port p).use.length < s.widthMax (.port p) then s.wb (.llStatus (.port p)) 5 true else s
    let s := s.startReplay p ((ack + 1) % 2 ^ 24) false
    if again then s.judge p else s

/-- HELLO_RECEIVED: the oldest link-local flit accepted is a HELLO, whose fields are kept and judged; another message
type is discarded and noted (R100). It waits for the end of a retrain (R102). A hello_version other than 1, of which R100 does
not say what follows, is taken as valid (DESIGN CHOICE, log entry 183). -/
def doHelloReceived (p : Port) (s : State) : State :=
  let st := s.portState p
  match (s.port p).rxLocal with
  | [] => s
  | h :: rest =>
    if st ≠ 2 ∧ st ≠ 3 ∧ st ≠ 5 then s
    else
      let s := s.modPort p (fun x => { x with rxLocal := rest })
      if fld h 511 504 ≠ 1 then s.fault (.port p) .note 3 0
      else
        let s := s.modPort p (fun x => { x with far := some h })
        let s := s.setReg (.llPeerId (.port p)) (BitVec.ofNat 64 (fld h 495 432))
        let s := s.setReg (.llPeerInfo (.port p)) (mkWord 64 [(63, 48, fld h 431 416), (47, 42, fld h 415 410),
          (41, 38, fld h 409 406), (37, 36, fld h 405 404), (35, 29, fld h 403 397), (0, 0, 1)])
        let s := (s.setReg (.llPeerDigestHi (.port p)) (BitVec.ofNat 64 (fld h 396 333))).setReg
          (.llPeerDigestLo (.port p)) (BitVec.ofNat 64 (fld h 332 269))
        (s.noteEpoch (fld h 268 237)).judge p

/-! ### FRAME_RECEIVED (R85, R86) -/

/-- Whether a frame with a good CRC carries a reserved value (R85). -/
def frameBad (t : BitVec 128) (n : Nat) : Bool :=
  let kind := fld t 127 126
  let nf := fld t 125 122
  nf ≠ n || (if kind % 2 = 0 then nf ≠ 0 else nf = 0 || decide (8 < nf)) ||
    decide (10 ≤ fld t 117 114 ∧ fld t 117 114 ≤ 14) || decide (9 ≤ fld t 121 118 ∧ fld t 121 118 ≤ 13)

/-- The flits of a DATA or POISON frame, by its sequence number (R86). -/
def State.takeFrame (s : State) (p : Port) (t : BitVec 128) (flits : List (BitVec 512)) : State :=
  let x := s.port p
  let seq := fld t 113 90
  if seq = (x.lastAcc + 1) % 2 ^ 24 then
    let s := s.modPort p (fun x => { x with lastAcc := seq, nak := none, ackOwed := true, quietAt := s.clk })
    if fld t 117 114 = 15 then s.modPort p (fun x => { x with rxLocal := x.rxLocal ++ flits })
    else s.acceptFlits p (fld t 117 114) (flits.map (fun f => ⟨f, fld t 127 126 = 3⟩))
  else if dist 24 x.lastAcc seq < 2 ^ 23 then s.bump (.llErrcnt (.port p)) 15 0 1
  else s.wantNak p

/-- At link-up the acknowledgement of this end's HELLO may be what was still awaited (step 3 of R99). -/
def State.judgeUp (s : State) (p : Port) : State := if s.portState p = 2 then s.judge p else s

/-- A frame whose CRC and fields are good (R86). A NAK that ends a retrain starts no replay of its own (R89, R104). -/
def State.goodFrame (s : State) (p : Port) (t : BitVec 128) (flits : List (BitVec 512)) : State :=
  let kind := fld t 127 126
  let ack := fld t 89 66
  let ends := s.portState p = 4
  let s := s.modPort p (fun x => (x.applyCred (fld t 65 62) (fld t 61 49)).applyCred (fld t 48 45) (fld t 44 32))
  let s := if ends then s.endRetrain p ack else s.releaseAcked p ack
  let s := s.judgeUp p
  let s := if kind = 2 ∧ !ends then s.startReplay p ((ack + 1) % 2 ^ 24) true else s
  let s := if kind % 2 = 1 then s.takeFrame p t flits
           else if fld t 113 90 ≠ ((s.port p).lastAcc + 1) % 2 ^ 24 then s.wantNak p else s
  match fld t 121 118 with
  | 14 => s.modPort p (fun x => { x with rxIdle := true })
  | 15 => s.retrainPort p
  | _ => s

/-- Whether frames are taken from the far end: the link is up for them, or a retrain's frames have resumed. -/
def State.portHears (s : State) (p : Port) : Bool :=
  let st := s.portState p
  st = 2 || st = 3 || st = 5 || (st = 4 && (match (s.port p).retrain with | some r => r.resumed | none => false))

/-- Whether a frame of `n` flits is one that the framing expects (R83, R84): at an alignment point one without flits, else
one of as many as the frame before it announced. -/
def PortSt.framed (x : PortSt) (aligned : Bool) (n : Nat) : Bool := if aligned then n = 0 else x.rxNext = some n

/-- A frame that the byte stream delivers (R83, R85, R86). After a trailer that cannot be used all is discarded up to the
next alignment point. -/
def State.frameIn (s : State) (p : Port) (aligned : Bool) (t : BitVec 128) (flits : List (BitVec 512)) (erred : Bool) : State :=
  let x := s.port p
  let expect (s : State) (n : Option Nat) : State := s.modPort p (fun x => { x with rxNext := n })
  if !s.portHears p || (!aligned && x.rxNext.isNone) then s
  else if erred || !x.framed aligned flits.length || frameCrc t flits ≠ fld t 31 0 then
    (expect (s.bump (.llErrcnt (.port p)) 63 48 1) none).wantNak p
  else if frameBad t flits.length then (expect s none).retrainPort p
  else (expect s (some (if fld t 121 118 ≤ 8 then fld t 121 118 else 0))).goodFrame p t flits

/-- FRAME_RECEIVED: a frame of the stream, as it stands between those before and after it; `aligned` where it starts at an
alignment point (log entry 152). -/
def doFrameReceived (p : Port) (aligned : Bool) (t : BitVec 128) (flits : List (BitVec 512)) (erred : Bool) (s : State) : State :=
  s.frameIn p aligned t flits erred

/-! ### The received stream (R53 to R56, R83) -/

/-- The frames that are complete in what has been received. -/
def State.parseFrames : Nat → State → Port → Bool → State
  | 0, s, _, _ => s
  | k + 1, s, p, aligned =>
    match (s.port p).rxNext with
    | none => s.modPort p (fun x => { x with rxBytes := [] })
    | some n =>
      let len := 64 * n + 16
      let bs := (s.port p).rxBytes.take len
      if bs.length < len then s
      else
        let b := bs.map (fun e => e.1)
        let flits := (List.range n).map (fun i => BitVec.ofNat 512 (ofBe ((b.drop (64 * i)).take 64)))
        let s := s.modPort p (fun x => { x with rxBytes := x.rxBytes.drop len })
        State.parseFrames k (s.frameIn p aligned (BitVec.ofNat 128 (ofBe (b.drop (64 * n)))) flits (bs.any (fun e => e.2))) p false

/-- A stretch of the stream, from codewords of one count on every lane in use: at a count that is a multiple of 4 it begins
with an alignment point. -/
def State.takeStretch (s : State) (p : Port) (count : Nat) (bs : List (Byte × Bool)) : State :=
  let aligned := count % 4 = 0
  let s := s.modPort p (fun x =>
    if aligned then { x with rxNext := some 0, rxBytes := bs } else { x with rxBytes := x.rxBytes ++ bs })
  State.parseFrames 165 s p aligned

/-- Whether one codeword count is behind another. -/
def countBehind (a b : Nat) : Bool := a ≠ b && decide (dist 14 b a < 2 ^ 13)

/-- The lanes deskewed (R55): where every logical lane has a codeword, those that are behind another are dropped, and once
all have one count their data make a stretch. -/
def State.deskew : Nat → State → Port → State
  | 0, s, _ => s
  | k + 1, s, p =>
    let q := (s.port p).rxq
    let lanes := List.range (s.port p).use.length
    let heads := lanes.filterMap (fun l => (tGet [] q l).head?)
    if lanes = [] ∨ heads.length < lanes.length then s
    else
      let late (h : RxShare) : Bool := heads.any (fun g => countBehind h.count g.count)
      let all := !heads.any late
      let next := lanes.foldl (fun q l => tMod [] l (fun (b : List RxShare) => match b with
        | h :: rest => if all || late h then rest else b
        | [] => []) q) q
      let s := s.modPort p (fun x => { x with rxq := next })
      let s := if all then
          s.takeStretch p ((heads.head?).elim 0 (fun h => h.count))
            ((List.range 20).flatMap (fun i => heads.flatMap (fun h => ((h.data.drop (32 * i)).take 32).map (fun b => (b, h.erred)))))
        else s
      State.deskew k s p

def State.deskewAll (s : State) (p : Port) : State := State.deskew 4 s p

/-- A lane in use loses its lock: a retrain starts, or one in progress starts again from step 2 (R103, R104). -/
def State.portLaneLost (s : State) (p : Port) (l : Nat) : State :=
  if !(s.port p).use.contains l then s
  else
    let n := linkLane (.port p) l
    let s := (s.wf (.laneStatus n) 12 10 0)
    match (s.port p).retrain with
    | some _ => s.portRetrainAgain p
    | none => s.retrainPort p

/-- The errors of a received codeword counted (R56, R79). -/
def State.noteCodeword (s : State) (n : LaneId) (c : RxCw) : State :=
  if c.erred then s.bump (.laneLineerr n) 63 32 1 else s.noteErrors n c.corrected

/-- A codeword sent on by a far loopback (R77), with the bits inverted that an injection asks for (R76); a lane held by
force_idle sends nothing. FAR_RETIMED sends the levels as received, in this transmitter's polarity; FAR_DECODED the codeword
as corrected, and one that cannot be corrected as it was received (DESIGN CHOICE, log entry 183). -/
def State.loopOn (s : State) (n : LaneId) (decoded : Bool) (line : LineBits) (bits : Nat) : State :=
  if s.laneForced n then s
  else
    let x := s.lane n
    let o : Nat × Nat :=
      if decoded then
        toLevels 2720 x.precode (s.rb (.laneCtrl n) 10) x.txLast (bits ^^^ ((2 ^ x.invert - 1) * 2 ^ (5440 - x.invert)))
      else
        let w := burstLevels 2720 x.invert line.toNat
        (if s.rb (.laneCtrl n) 10 then invertLevels 2720 w else w, x.txLast)
    (s.modLane n (fun x => { x with txLast := o.2, invert := 0 })).emit (.codeword n (BitVec.ofNat 5440 o.1))

/-- CODEWORD_RECEIVED (R51 to R56): the line's levels are decoded, corrected and descrambled. A lane with a far loopback
sends on what it receives (R77). In step 6 of training the tag locks the lane (R61). A normal codeword's data wait for those of
the other lanes, marked as erred where it could not be corrected; its place is then the one after the last. An idle-entry
codeword puts the receiver in idle, and without a notice starts a retrain (R103). A tag of another kind is invalid: a lane in
use that receives one has lost its lock (DESIGN CHOICE, log entry 185). -/
def doCodewordReceived (p : Port) (l : Fin 4) (line : LineBits) (s : State) : State :=
  let n := LaneId.net p l
  let st := s.laneState n
  let x := s.lane n
  let loop := s.rf (.laneCtrl n) 9 7
  if !s.laneOn n || s.nearLoop n then s
  else if loop = 3 then s.loopOn n false line 0
  else
    let i := ofLevels 2720 x.farPrecode (s.rb (.laneStatus n) 14) x.rxLast line.toNat
    let c := decodeCw x.rxScr.toNat i.1
    let s := s.modLane n (fun x => { x with rxScr := BitVec.ofNat 58 c.scr, rxLast := i.2 })
    if loop = 4 then (s.noteCodeword n c).loopOn n true line c.bits
    else if st ≠ 1 ∧ st ≠ 2 ∧ st ≠ 3 ∧ st ≠ 4 then s
    else
      let s := s.noteCodeword n c
      let kind := if c.erred then 0xA else fld c.tag 19 16
      let count := if c.erred then (x.rxCount + 1) % 16384 else fld c.tag 13 0
      if kind = 0xA then
        let s := if c.erred then s else s.wf (.laneStatus n) 19 16 (fld c.tag 15 14)
        let s := if st = 1 ∧ x.step = 6 ∧ c.erred = false then s.wb (.laneStatus n) 11 true else s
        let s := s.modLane n (fun x => { x with rxCount := count })
        if (st = 2 ∨ st = 3) ∧ x.rxIdle = false ∧ s.portHears p = true then
          let k := s.rf (.laneStatus n) 19 16
          (s.modPort p (fun x => { x with rxq := tMod [] k (· ++ [⟨count, c.erred, c.data⟩]) x.rxq })).deskewAll p
        else s
      else if st = 1 then s
      else if kind = 0x5 then
        let s := s.modLane n (fun x => { x with rxIdle := true })
        let s := if st = 2 then s.setLane n 3 else s
        if (s.port p).rxIdle ∨ (s.port p).retrain.isSome = true ∨ (s.port p).use.contains l.val = false then s
        else s.retrainPort p
      else if st = 2 then s.portLaneLost p l.val
      else s

/-! ### Timers and link-up -/

/-- A NAK is repeated every nak_repeat until the expected frame is accepted (R86). -/
def State.portNakRepeat (s : State) (p : Port) : State :=
  match (s.port p).nak with
  | some t => if s.maySend p ∧ t + ns (s.rf (.llTimers (.port p)) 19 0) < s.clk then s.sendNak p else s
  | none => s

/-- The oldest unacknowledged frame has waited replay_timeout since it was last sent (R88). Where the replay in progress is yet
to send it, that replay goes on (log entry 173). -/
def State.portReplayTimeout (s : State) (p : Port) : State :=
  match (s.port p).replay with
  | f :: _ =>
    if (s.portState p = 2 ∨ s.portState p = 3 ∨ s.portState p = 5) ∧
        f.sentAt + ns (s.rf (.llTimers (.port p)) 51 32) < s.clk ∧ (s.port p).resend ≠ some f.seq
    then s.startReplay p f.seq true else s
  | [] => s

/-- Whether link-up may start (R99): every enabled lane is ACTIVE or FAILED, or 300 ms have passed, and some lane is
ACTIVE. -/
def State.mayLinkUp (s : State) (l : LinkId) (since : Nat) : Bool :=
  ((s.poweredLanes l).all (fun n => !s.laneOn n || s.laneState n = 2 || s.laneState n = 6) || decide (since + us 300000 < s.clk)) &&
    decide (s.activeLanes l ≠ [])

/-- Link-up of a port begins: width, numbers and credits, and its HELLO (steps 1 and 2 of R99). -/
def State.portLinkUp (s : State) (p : Port) : State :=
  if s.portState p = 1 ∧ s.mayLinkUp (.port p) (s.port p).trainAt then
    let use := s.chosenLanes (.port p)
    let s := s.modPort p (fun x => { x.cleared.restream with
      use := use, helloAt := s.clk, helloSeq := some 0, pools := s.reg (.llCredit p), quietAt := s.clk })
    let s := ((s.showWidth (.port p) use.length).setLink (.port p) 2).wb (.llPeerInfo (.port p)) 0 false
    s.queueHello p
  else s

/-- The HELLO exchange has not ended within 1 ms: every lane trains again (R99). -/
def State.portHelloTimeout (s : State) (p : Port) : State :=
  if s.portState p = 2 ∧ (s.port p).helloAt + us 1000 < s.clk then
    ((s.modPort p PortSt.cleared).showWidth (.port p) 0).trainPort p
  else s

/-- QUARANTINE_HELLO: every 100 ms in QUARANTINE (R102). -/
def doQuarantineHello (p : Port) (s : State) : State :=
  if s.portState p = 5 ∧ (s.port p).quarAt + us 100000 ≤ s.clk then
    (s.modPort p (fun x => { x with quarAt := s.clk })).queueHello p
  else s

/-- LL_REHELLO: a HELLO is sent and the far one judged again (R102), in a retrain as soon as it has ended. The bit reads 1 until
the HELLO has been sent, and another write before then has no effect (R8). -/
def doLlRehello (p : Port) (s : State) : State :=
  let st := s.portState p
  if s.rb (.llCtrl (.port p)) 4 then s
  else if st = 2 ∨ st = 3 ∨ st = 4 ∨ st = 5 then ((s.wb (.llCtrl (.port p)) 4 true).queueHello p).judge p else s

/-- A lane that has not reported ACTIVE within 5 µs of the fast exit is dropped and trains (R104, step 4); one that force_idle
holds stays idle. -/
def State.portLaneDrop (s : State) (p : Port) (l : Fin 4) : State :=
  match (s.port p).retrain with
  | some r =>
    if s.laneAway (.net p l) = true ∧ s.laneForced (.net p l) = false ∧ r.step3 + us 5 < s.clk then (s.trainLane (.net p l)).resumePort p else s
  | none => s

/-- Step 6 has not occurred within 20 µs of step 2 (R104). -/
def State.portRetrainRepeat (s : State) (p : Port) : State :=
  match (s.port p).retrain with
  | some r => if r.step2 + us 20 < s.clk then s.portRetrainAgain p else s
  | none => s

/-- The retrain window ends (R106). -/
def State.portWindow (s : State) (p : Port) : State :=
  match (s.port p).retrain with
  | some r => if r.window + us 50 < s.clk then s.fencePort p 0 else s
  | none => s

/-- A retrain trigger of R103 at a port. -/
def State.portTrigger (s : State) (p : Port) : RetrainTrigger → State
  | .laneLost l => s.portLaneLost p l
  | .farNotice => s.retrainPort p
  | .widthChanged => s.retrainPort p
  | .laneReturned l =>
    if s.laneState (linkLane (.port p) l) = 2 ∧ (s.port p).use.contains (l % 4) = false ∧
        (2 ≤ s.portState p ∧ s.portState p ≤ 5) then s.retrainPort p else s

/-- LL_CTRL.retrain written (R103, R109): a retrain, or recovery from FENCED. The bit reads 1 until that has ended; a write
before then has no effect (R8). One that meets a retrain begun otherwise ends with it. -/
def State.portRetrainWrite (s : State) (p : Port) : State :=
  let st := s.portState p
  if s.rb (.llCtrl (.port p)) 3 then s
  else if st = 6 ∧ s.rb (.llCtrl (.port p)) 1 = false then (s.wb (.llCtrl (.port p)) 3 true).trainPort p
  else if 2 ≤ st ∧ st ≤ 5 then (s.wb (.llCtrl (.port p)) 3 true).retrainPort p
  else s

/-- Whether a port's transmit direction has nothing to do (R107). -/
def State.portQuiet (s : State) (p : Port) : Bool :=
  let x := s.port p
  x.replay = [] && x.txLocal = [] && x.txBypass = [] && !x.ackOwed && x.changed = [] &&
    x.outv.all (fun e => s.srcFlits e.2.src = [])

/-- IDLE_DELAY_EXPIRY at a port: after idle_delay of quiet it announces electrical idle,
which its lanes then enter (R107). -/
def State.portIdle (s : State) (p : Port) : State :=
  if s.rb (.llCtrl (.port p)) 5 ∧ (s.portState p = 3 ∨ s.portState p = 5) ∧ (s.port p).txIdle = false ∧ s.portQuiet p = true ∧
      (s.port p).quietAt + us (s.rf (.llTimers (.port p)) 31 20) < s.clk then
    (s.sendPortNotice 160 p 14).modPort p (fun x => { x with txIdle := true })
  else s

/-! ### Lanes of a port -/

/-- ELECTRICAL_IDLE_ENTRY: a lane whose force_idle is set, or whose port has entered idle, does so (R63); force_idle wins
over a test too (R80). A lane on its way back returns to idle where force_idle, set later, asks for it (R64); one that trains
stops sending. -/
def doElectricalIdleEntry (p : Port) (l : Fin 4) (s : State) : State :=
  let n := LaneId.net p l
  let forced := s.rb (.laneCtrl n) 5
  if s.laneState n = 2 ∧ (forced || (s.port p).txIdle) = true then s.laneIdle n
  else if s.laneState n = 3 ∧ (forced || (s.port p).txIdle) = true ∧ (s.lane n).txIdle = false then s.laneIdle n
  else if s.laneState n = 5 ∧ forced = true then s.laneHold n
  else if s.laneState n = 4 ∧ forced = true then
    (if (s.lane n).txIdle then s.setLane n 3 else s.laneIdle n).resumePort p
  else if s.laneState n = 1 ∧ forced = true then s.modLane n (fun x => { x with txIdle := true })
  else s

/-- Whether some lane of a link still holds electrical idle at this end. -/
def State.lanesHeld (s : State) (l : LinkId) : Bool := (linkLanes l).any (fun n => (s.lane n).txIdle)

/-- The lanes of a port have made their exit: a retrain goes on, or the transmit direction leaves idle, at the next
alignment point. -/
def State.portExited (s : State) (p : Port) : State :=
  if (s.port p).retrain.isSome then s.resumePort p
  else if s.lanesHeld (.port p) || !(s.port p).txIdle then s
  else s.modPort p (fun x => { x.restreamTx with txIdle := false, quietAt := s.clk })

/-- FAST_EXIT: asked for by a retrain, by work that waits (R107), or by force_idle cleared (R64). The lane sends its burst;
while the far transmitter still holds idle it reports IDLE until that one's burst comes. -/
def doFastExit (p : Port) (l : Fin 4) (s : State) : State :=
  let n := LaneId.net p l
  let x := s.port p
  let asked := x.retrain.isSome || !x.txIdle || !s.portQuiet p
  if s.laneAway n = true ∧ (s.lane n).txIdle = true ∧ s.rb (.laneCtrl n) 5 = false ∧ asked = true then
    (s.laneExit n).portExited p
  else s

/-- FAST_EXIT_BURST_RECEIVED: the receiver of a lane in IDLE locks again, and reports ACTIVE unless its own transmitter
is idle (R64, R107). Frames are taken from the next alignment point on. The receiver's precoding goes on from
the burst's last symbol (R51). -/
def doFastExitBurstReceived (p : Port) (burst : BurstEnd) (s : State) : State :=
  let n := LaneId.net p burst.lane
  if !s.laneAway n then s
  else
    let s := s.modPort p (fun x =>
      if x.rxIdle then { x.restreamRx with rxIdle := false } else x)
    ((s.modLane n (fun x => { x with rxLast := burst.last.toNat })).laneHears n).portExited p

/-- Whether a lane that is not in training drops out where the far end trains it (R104, step 4). -/
def State.laneFollows (s : State) (n : LaneId) : Bool :=
  s.laneOn n && s.inService (laneLink n) && (s.laneState n = 2 || s.laneAway n) && !s.laneForced n

/-- TRAINING_FRAME: at a lane that trains its fields are applied; one that does not train leaves the port and trains too. -/
def doTrainingFrame (p : Port) (l : Fin 4) (control : BitVec 16) (rest : FrameEnd) (s : State) : State :=
  let n := LaneId.net p l
  if s.laneState n = 1 then s.trainingIn n control rest.status rest.last
  else if s.laneFollows n then
    let s := s.trainLane n
    if (s.port p).retrain.any (fun r => !r.resumed) then s.resumePort p else s.portLaneLost p l.val
  else s

/-- A FAILED lane of a link that is out of service, whose retrain is written, is FAILED no longer (R62; log entry 185). -/
def State.laneForgiven (s : State) (n : LaneId) : State :=
  if s.laneState n = 6 then ((s.setLane n 0).modLane n (fun x => { x with fails := 0 })).testState n else s

/-- LANE_CTRL.retrain of a network lane: it trains from step 1 (R61, R81); a lane in use makes its port retrain. -/
def State.netLaneRetrain (s : State) (p : Port) (l : Fin 4) : State :=
  let n := LaneId.net p l
  if !s.laneOn n || s.laneState n = 1 then s
  else if !s.inService (.port p) then s.laneForgiven n
  else
    let s := (s.trainLane n).wb (.laneCtrl n) 4 true
    s.portLaneLost p l.val

end Sys2Proof.Machine
end

