-- ==== Sys2Proof/Machine/Routing.lean ====
section
/-! DEFINITION. The routing stages (chapter 05): the check of a header (R122), the target and the sets of candidates
(R123 to R126), virtual channels (R128 to R130), adaptive choice (R131 to R134), commitment (R135) and beacons (R132). -/

namespace Sys2Proof.Machine

/-! ### The routing header (R119) -/

def rhF (h : BitVec 512) (hi lo : Nat) : Nat := fld h (hi + 384) (lo + 384)
def rhSet (h : BitVec 512) (hi lo v : Nat) : BitVec 512 := setFld h (hi + 384) (lo + 384) v

/-- The class whose packets travel on a VC (R128). -/
def vcClass (v : Nat) : Nat := if v = 0 then 0 else if v = 1 then 3 else if v ≤ 5 then 1 else 2

/-- Whether a header is bad (R122). -/
def rhBad (h : BitVec 512) (vc : Nat) : Bool :=
  rhCrc h ≠ rhF h 15 0 || rhF h 64 58 = 0 || decide (65 < rhF h 64 58) || decide (3 < rhF h 76 74) || rhF h 76 74 ≠ vcClass vc

/-- Whether a packet is of the classes that detour (R129). -/
def detours (h : BitVec 512) : Bool := rhF h 76 74 = 1 || rhF h 76 74 = 2

/-- A header promoted to phase 1 (R126). -/
def promote (h : BitVec 512) : BitVec 512 :=
  rhSet (rhSet (rhSet (rhSet (rhSet h 35 35 1) 57 52 0) 73 73 0) 72 71 0) 70 67 0

/-! ### Routing banks (R426, R427) -/

/-- Address window of a stall's exception entries. -/
def excBase (st : Nat) : Nat := Reg.addr (.rtExc (stallOf st) 0)

/-- Entries of a bank that belong to a stall, in ascending index. -/
def excOf (t : Tab Word) (st : Nat) : List Word :=
  (t.filter (fun e => excBase st ≤ e.1 ∧ e.1 < excBase st + 32768)).map (fun e => e.2)

/-- Whether a register address is that of an exception entry. -/
def isExc (a : Nat) : Bool := (List.range 16).any (fun st => decide (excBase st ≤ a ∧ a < excBase st + 32768))

/-- The operating bank. -/
def State.operBank (s : State) : RtBank := ⟨s.regs, s.retired⟩

/-- Whether a route computation uses the new epoch of a pending or recent switch (R427). -/
def State.newEpoch (s : State) (h : BitVec 512) : Bool :=
  let t := s.rf .rtEpochAt 59 0
  let g := s.rf .rtEpoch 29 24 * 1000
  let now := s.ntNs
  if detours h then
    let age := (now + 65536 - fld h 47 32) % 65536
    decide (t + g ≤ now) || decide (t + age ≤ now)
  else decide (t ≤ now)

/-- The bank that a route computation uses. -/
def State.bankFor (s : State) (h : BitVec 512) : RtBank :=
  match s.newBank, s.oldBank with
  | some b, _ => if s.newEpoch h then b else s.operBank
  | none, some b => if s.newEpoch h then s.operBank else b
  | none, none => s.operBank

/-! ### Usable ports (R129, R130) -/

/-- Free flits of a far end's reserved pool. -/
def PortSt.poolFree (x : PortSt) (v : Nat) : Nat := x.res v - x.usedOf v

/-- Whether a port is usable for a VC under a bank (R130), its far pools being large enough for VC0 and VC1 (R129). -/
def State.usable (s : State) (b : RtBank) (p : Port) (v : Nat) : Bool :=
  let st := s.portState p
  let x := s.port p
  s.rb (.rtMap p) 7 && !bit b.retire p.val && (st = 3 || st = 4 || (st = 5 && v = 1)) && s.holdPort ≠ some p.val &&
    (v ≠ 0 || decide (2 ≤ x.res 0)) && (v ≠ 1 || decide (16 ≤ x.res 1))

/-- Whether a packet may take an output VC now: no other packet holds it, and for VC0 and VC1 the far pool has room
(R129, R131). -/
def State.freeVc (s : State) (p : Port) (v len : Nat) (entering : Bool) : Bool :=
  let x := s.port p
  (tFind x.outv v).isNone &&
    (if v = 0 then decide ((if entering then 2 else 1) ≤ x.poolFree 0)
     else if v = 1 then decide ((if entering then len + 8 else len) ≤ x.poolFree 1) else true)

/-! ### Directions (R123 to R125) -/

/-- Fewest hops of a signed distance in a ring with a chord (R123). -/
def hopsOf (chord δ : Nat) : Nat := δ / chord + δ % chord

/-- What a route computation knows: chip, header, bank, dimension, distances by sign. -/
structure Leg where
  h : BitVec 512
  bank : RtBank
  phase : Nat
  d : Nat
  x : Nat
  n : Nat
  chord : Nat
  plus : Nat
  minus : Nat
  entering : Bool
  dl : Bool
  deriving DecidableEq, Repr

/-- Distance in a sign (0 plus, 1 minus). -/
def Leg.dist (l : Leg) (sg : Nat) : Nat := if sg = 0 then l.plus else l.minus
def Leg.hops (l : Leg) (sg : Nat) : Nat := hopsOf l.chord (l.dist sg)

/-- Step lengths of a ring. -/
def Leg.steps (l : Leg) : List Nat := if l.chord = 1 then [1] else [l.chord, 1]

/-- Whether a link set is eligible (R124), and whether it passes the target (R126). -/
def Leg.eligible (l : Leg) (sg k : Nat) : Bool :=
  decide (k ≤ l.dist sg) && hopsOf l.chord (l.dist sg - k) + 1 = l.hops sg
def Leg.within (l : Leg) (sg k : Nat) : Bool := decide (k ≤ l.dist sg)

/-- Whether a hop wraps (R128). -/
def Leg.wraps (l : Leg) (sg k : Nat) : Bool := if sg = 0 then decide (l.n ≤ l.x + k) else decide (l.x < k)

/-- The VC of a hop (R128). -/
def Leg.vc (l : Leg) (sg k : Nat) : Nat :=
  let hi := b2n (l.wraps sg k || l.dl)
  match rhF l.h 76 74 with
  | 0 => 0
  | 3 => 1
  | 1 => 2 + 2 * l.phase + hi
  | _ => 6 + 2 * l.phase + hi

/-- A candidate: a port, the sign and the step of its hop, and its VC. -/
structure Cand where
  p : Port
  sg : Nat
  k : Nat
  v : Nat
  deriving DecidableEq, Repr

/-- The used ports of a link set that are usable for the hop, in ascending order (R114, R130). -/
def State.linkSet (s : State) (l : Leg) (sg k : Nat) : List Cand :=
  let v := l.vc sg k
  ((List.finRange 64).filter (fun p =>
    let dir := s.portDir p
    dir / 4 = l.d && dir / 2 % 2 = sg && s.dirStep dir = k && s.usable l.bank p v)).map (fun p => ⟨p, sg, k, v⟩)

/-- The usable ports of the link sets of a sign, in groups by step, the chord first. -/
def State.setsOf (s : State) (l : Leg) (sg : Nat) (keep : Nat → Bool) : List (List Cand) :=
  ((l.steps.filter keep).map (fun k => s.linkSet l sg k)).filter (fun c => c ≠ [])

/-! ### Scores (R131) -/

/-- The neighbour's reported load for a port's direction (R132): 0 once it is 4 beacon periods old. -/
def State.beaconLoad (s : State) (p : Port) : Nat :=
  match (s.port p).loads with
  | none => 0
  | some (t, w) =>
    if s.clk ≤ t + us (4 * s.rf .rtCtrl 47 42) then fld w (63 - 4 * s.portDir p) (60 - 4 * s.portDir p) else 0

/-- Flits committed to a port and not yet sent. -/
def PortSt.queued (x : PortSt) : Nat := (x.outv.map (fun e => e.2.left)).sum

def State.score (s : State) (c : Cand) : Int :=
  let x := s.port c.p
  (PortSt.mayGoN 255 x c.v : Int) - (s.rf .rtCtrl 35 32 * min 1023 x.queued / 16 : Nat) -
    (s.rf .rtCtrl 31 26 * s.beaconLoad c.p : Nat)

/-- Candidates that the packet may take now. -/
def State.freeCands (s : State) (l : Leg) (cs : List Cand) : List Cand :=
  cs.filter (fun c => s.freeVc c.p c.v (rhF l.h 64 58) l.entering)

/-- The best score among free candidates. -/
def State.bestScore (s : State) (l : Leg) (cs : List Cand) : Option Int :=
  (s.freeCands l cs).foldl (fun (b : Option Int) c => match b with
    | none => some (s.score c)
    | some m => some (max m (s.score c))) none

/-- The winner among free candidates: the highest score, and of equal ones that at FLOW_HASH mod k, ports ascending. -/
def State.bestCand (s : State) (l : Leg) (cs : List Cand) : Option Cand :=
  match s.bestScore l cs with
  | none => none
  | some m =>
    let tied := ((List.finRange 64).flatMap (fun p => (s.freeCands l cs).filter (fun c => c.p = p))).filter (fun c => s.score c = m)
    tied[rhF l.h 51 36 % max 1 tied.length]?

/-! ### Sets of candidates (R125, R126, R133) -/

/-- Whether a packet's choices are adaptive (R133). -/
def State.adaptive (s : State) (h : BitVec 512) : Bool := rhF h 65 65 = 1 && s.rb .rtCtrl 7

/-- Signs of fewest hops, plus first; one only where choices are fixed. -/
def State.minSigns (s : State) (l : Leg) : List Nat :=
  if l.hops 0 < l.hops 1 then [0] else if l.hops 1 < l.hops 0 then [1]
  else if s.adaptive l.h then [0, 1] else [0]

/-- The signs that are not minimal. With fixed choices and two minimal signs, minus is the other (R133). -/
def State.otherSigns (s : State) (l : Leg) : List Nat := [0, 1].filter (fun g => !(s.minSigns l).contains g)

/-- The first set of R125: the minimal signs, and the other where it scores well enough. -/
def State.firstSet (s : State) (l : Leg) : List (List Cand) :=
  let mins := (s.minSigns l).flatMap (fun g => s.setsOf l g (l.eligible g))
  let others := (s.otherSigns l).flatMap (fun g =>
    if s.adaptive l.h && detours l.h && decide (l.hops g ≤ l.hops (1 - g) + s.rf .rtCtrl 10 8) then
      let cs := s.setsOf l g (l.eligible g)
      match s.bestScore l cs.flatten with
      | some b => if (s.bestScore l mins.flatten).getD 0 + (s.rf .rtCtrl 23 16 : Nat) ≤ b then cs else []
      | none => []
    else [])
  mins ++ others

/-- The sets that R126 tries in turn on entering a dimension, and after it. -/
def State.trySets (s : State) (l : Leg) : List (List (List Cand)) :=
  let wide (g : Nat) : List (List Cand) := s.setsOf l g (fun k => !l.eligible g k && l.within g k)
  if l.entering then
    [s.firstSet l, (s.minSigns l).flatMap wide, (s.otherSigns l).flatMap (fun g => s.setsOf l g (l.eligible g)),
     (s.otherSigns l).flatMap wide]
  else
    let g := if rhF l.h (70 - l.d) (70 - l.d) = 1 then 1 else 0
    [s.setsOf l g (l.eligible g), s.setsOf l g (l.within g)]

/-- After entry: whether the target needs the other sign, or lies across the date line once more (R126). -/
def State.strayed (s : State) (l : Leg) : Bool :=
  let g := if rhF l.h (70 - l.d) (70 - l.d) = 1 then 1 else 0
  let wrap := if g = 0 then decide (l.n ≤ l.x + l.plus) else decide (l.x < l.minus)
  decide (l.hops (1 - g) + s.rf .rtCtrl 10 8 < l.hops g) || (l.dl && wrap)

/-! ### A route computation -/

/-- What a route computation finds. -/
inductive Route where
  | eject
  | unroutable
  | promoted
  | overHops
  | wait
  | go (c : Cand) (h : BitVec 512)
  deriving DecidableEq, Repr

/-- The via chip that an exception entry names for a phase-0 packet (R138); an impossible via never matches. -/
def State.viaOf (s : State) (b : RtBank) (st : Nat) (h : BitVec 512) : Option Nat :=
  let hit (e : Word) : Bool :=
    bit e 63 && ((BitVec.ofNat 16 (rhF h 127 112) ^^^ BitVec.ofNat 16 (fld e 55 40)) &&& BitVec.ofNat 16 (fld e 39 24)) = 0#16 &&
      ((BitVec.ofNat 4 (rhF h 39 36) ^^^ BitVec.ofNat 4 (fld e 23 20)) &&& BitVec.ofNat 4 (fld e 19 16)) = 0#4 &&
      s.faPossible (256 * fld e 15 0)
  ((excOf b.exc st).find? hit).map (fun e => fld e 15 0)

/-- The dimension in which a packet travels next (R123, R124). -/
def State.nextDim (s : State) (h : BitVec 512) (target : Nat) : Nat :=
  let o := if rhF h 76 74 = 2 then s.rf .rtOrder 15 8 else s.rf .rtOrder 7 0
  let dims := [o / 64 % 4, o / 16 % 4, o / 4 % 4, o % 4]
  (dims.find? (fun d => coordOf s.coord d ≠ coordOf target d)).getD 0

/-- What is known of the packet's way to a target. -/
def State.legTo (s : State) (b : RtBank) (h : BitVec 512) (target : Nat) : Leg :=
  let d := s.nextDim h target
  let n := s.dimSize d
  let x := coordOf s.coord d
  let plus := (coordOf target d + n - x) % n
  let entering := rhF h 57 52 = 0 || rhF h 72 71 ≠ d
  ⟨h, b, rhF h 35 35, d, x, n, s.dimChord d, plus, n - plus, entering, !entering && rhF h 73 73 = 1⟩

/-- The header as it leaves by a candidate (R124, R127, R128). -/
def Leg.header (l : Leg) (c : Cand) : BitVec 512 :=
  let h := rhSet (rhSet l.h 72 71 l.d) 73 73 (b2n (l.dl || l.wraps c.sg c.k))
  let h := if l.entering then rhSet h (70 - l.d) (70 - l.d) c.sg else h
  withRhCrc (rhSet h 57 52 (rhF h 57 52 + 1))

/-- One route computation in a stall (R124 to R131). -/
def State.routeOnce (s : State) (st : Nat) (h : BitVec 512) : Route :=
  let dest := rhF h 127 112
  if !s.faPossible (256 * dest) then .unroutable
  else if dest = s.coord then .eject
  else
    let b := s.bankFor h
    let zero := rhF h 35 35 = 0 && detours h
    let via := if zero then s.viaOf b st h else none
    if via = some s.coord then .promoted
    else
      let l := s.legTo b h (via.getD dest)
      let stuck : Route := if !l.entering && zero then .promoted else .unroutable
      if !l.entering && s.strayed l then stuck
      else match (s.trySets l).find? (fun g => g.flatten ≠ []) with
        | none => stuck
        | some sets =>
          let pick : Option Cand :=
            if s.adaptive h then s.bestCand l sets.flatten
            else
              let g := sets.headD []
              match g[rhF h 51 36 % max 1 g.length]? with
              | some c => if s.freeVc c.p c.v (rhF h 64 58) l.entering then some c else none
              | none => none
          match pick with
          | none => .wait
          | some c => if s.rf .rtCtrl 5 0 < rhF h 57 52 + 1 then .overHops else .go c (l.header c)

/-- The route of a header, through its promotion where there is one: whether it was promoted, the header then, and the
outcome. -/
def State.routeOf (s : State) (st : Nat) (h : BitVec 512) : Bool × BitVec 512 × Route :=
  match s.routeOnce st h with
  | .promoted =>
    let g := withRhCrc (promote h)
    (true, g, s.routeOnce st g)
  | r => (false, h, r)

/-! ### Rows -/

/-- The source of a header, its stall, and its port within the stall. -/
def srcKey : RouteSrc → VC → Nat
  | .port p, v => srcPort p v.val
  | .inject st, v => srcInject st.val (vcClass v.val)
def srcStall : RouteSrc → Nat
  | .port p => p.val / 4
  | .inject st => st.val
def srcUnit : RouteSrc → Nat
  | .port p => p.val % 4
  | .inject _ => 0

/-- The stall of a source by its number. -/
def keyStall (k : Nat) : Nat := if k < 1024 then k / 64 else (k - 1024) / 4

/-- A beacon or a TIME_SYNC for this chip, which its routing stage consumes (R132, R393). -/
def State.isMgmt (s : State) (h : BitVec 512) (sub : Nat) : Bool :=
  rhF h 127 112 = s.coord && rhF h 108 104 = 31 && fld h 383 376 = 0x1F && fld h 375 368 = sub && rhF h 76 74 = 0

/-- A packet at a source is committed to a destination of this chip, or discarded. -/
def State.beginWorm (s : State) (k len : Nat) (d : WormDest) : State :=
  ({ s with worms := tPut k ⟨d, len, []⟩ s.worms, waits := tDel k s.waits }).pump k

/-- A bad header (R122): what its VC holds is discarded, as what follows will be, and the port is fenced. -/
def State.badHeader (s : State) (p : Port) (vc : Nat) : State :=
  let st := stallOfPort p
  let s := (s.bump (.rtCount st) 31 16 1).fault (.stall st) .note 0x12 (p.val % 4)
  let s := s.modPort p (fun x => { (x.free vc (tGet [] x.ibuf vc).length) with 
    ibuf := tDel vc x.ibuf, syncIn := if vc = 0 then [] else x.syncIn, bad := vc :: x.bad })
  ({ s with waits := tDel (srcPort p vc) s.waits }).fencePort p 2

/-- Whole µs that a source's header has waited (R134). -/
def State.waited (s : State) (k : Nat) : Nat := match tFind s.waits k with | some t => (s.clk - t) / us 1 | none => 0

/-- Whether another header that has waited longer asks for the same output VC (R134). -/
def State.beaten (s : State) (k : Nat) (c : Cand) : Bool :=
  s.waits.any (fun e => e.1 ≠ k && decide (s.waited k < s.waited e.1) &&
    (match s.srcFlits e.1 with
      | [] => false
      | f :: _ => match (s.routeOf (keyStall e.1) f.bits).2.2 with
        | .go c' _ => decide (c'.p = c.p ∧ c'.v = c.v)
        | _ => false))

/-- A header commits to an output VC (R135). -/
def State.commit (s : State) (k : Nat) (c : Cand) (f : Flit) (h : BitVec 512) : State :=
  let len := rhF h 64 58
  let s := s.putHead k { f with bits := h }
  let s := { s with worms := tPut k ⟨.out c.p.val c.v, len, []⟩ s.worms, waits := tDel k s.waits }
  s.modPort c.p (fun x => { x with outv := tPut c.v ⟨k, rhF h 79 77, len, true⟩ x.outv })

/-- The header at the head of a source evaluated: it commits, passes to its endpoint, is discarded, or waits. -/
def State.routeHead (s : State) (src : RouteSrc) (vc : VC) (f : Flit) : State :=
  let k := srcKey src vc
  let st := srcStall src
  let h := f.bits
  let len := rhF h 64 58
  match src, rhBad h vc.val with
  | .port p, true => s.badHeader p vc.val
  | _, _ =>
    let r := s.routeOf st h
    let s := if r.1 then (s.bump (.rtCount (stallOf st)) 15 0 1).putHead k { f with bits := r.2.1 } else s
    let note (hi lo code : Nat) : State :=
      ((s.bump (.rtCount (stallOf st)) hi lo 1).fault (.stall (stallOf st)) .note code (srcUnit src)).beginWorm k len .drop
    let wait : State := if (tFind s.waits k).isSome then s else { s with waits := tPut k s.clk s.waits }
    match r.2.2 with
    | .eject => s.beginWorm k len .eject
    | .overHops => note 63 48 0x11
    | .wait => wait
    | .go c h1 => if s.beaten k c then wait else s.commit k c { f with bits := r.2.1 } h1
    | _ => note 47 32 0x10

/-- The header at the head of a source that has not committed, where the chip routes (R143); a beacon or TIME_SYNC is
left to its own row. -/
def State.waitingHead (s : State) (src : RouteSrc) (vc : VC) : Option Flit :=
  let k := srcKey src vc
  if !s.rb .rtCoord 63 || (tFind s.worms k).isSome then none
  else match s.srcFlits k with
    | [] => none
    | f :: _ =>
      if !rhBad f.bits vc.val && !f.poison && vc = 0 && (s.isMgmt f.bits 1 || s.isMgmt f.bits 2) && srcKey src vc < 1024 then none
      else some f

/-- ROUTE_HEADER: a header that has not been evaluated. -/
def doRouteHeader (src : RouteSrc) (vc : VC) (s : State) : State :=
  match s.waitingHead src vc with
  | some f => if (tFind s.waits (srcKey src vc)).isSome then s else s.routeHead src vc f
  | none => s

/-- HEADER_REEVALUATE: a header that waits (R135). -/
def doHeaderReevaluate (src : RouteSrc) (vc : VC) (s : State) : State :=
  match s.waitingHead src vc with
  | some f => if (tFind s.waits (srcKey src vc)).isSome then s.routeHead src vc f else s
  | none => s

/-! ### Beacons (R132) -/

/-- Load of a direction: the mean of the flits committed to its ports usable for data, in units of 64, at most 15. -/
def State.dirLoad (s : State) (k : Nat) : Nat :=
  let ps := (List.finRange 64).filter (fun p => s.usable s.operBank p 2 && s.portDir p = k)
  min 15 ((ps.map (fun p => (s.port p).queued)).sum / max 1 ps.length / 64)

/-- A one-flit BYPASS packet to the chip at the far end of a port; it leaves by the port, with HOPS 1 (R127). -/
def State.bypassFlit (s : State) (p : Port) (sub : Nat) (fs : List (Nat × Nat × Nat)) : BitVec 512 :=
  match buildPkt (256 * s.neighbour p + 31) (256 * s.coord + 31) 7 0 false false 0
    ([(383, 376, 0x1F), (375, 368, sub)] ++ fs) [] with
  | f :: _ => withRhCrc (rhSet f.bits 57 52 1)
  | [] => 0

/-- A port's next beacon. Its beacon_seq counts the beacons sent before it (log entry 157). -/
def State.beacon (s : State) (p : Port) : BitVec 512 :=
  s.bypassFlit p 1 ([(303, 288, (s.port p).beaconSeq)] ++ (List.range 16).map (fun k => (367 - 4 * k, 364 - 4 * k, s.dirLoad k)))

/-- BEACON_SEND: every beacon_period a port in UP has a beacon to send, whether or not RT_COORD.valid is 1 (log entry
157). -/
def doBeaconSend (p : Port) (s : State) : State :=
  if s.portState p = 3 ∧ (s.port p).beaconAt + us (s.rf .rtCtrl 47 42) ≤ s.clk ∧ 2 ≤ (s.port p).res 0 then
    s.modPort p (fun x => { x with beaconAt := s.clk, txBypass := x.txBypass ++ [false] })
  else s

/-- The VC0 header that a port's routing stage would consume, of a subtype. -/
def State.bypassHead (s : State) (p : Port) (sub : Nat) : Option (BitVec 512) :=
  let k := srcPort p 0
  if !s.rb .rtCoord 63 || (tFind s.worms k).isSome then none
  else match s.srcFlits k with
    | f :: _ => if !rhBad f.bits 0 && s.isMgmt f.bits sub && !f.poison then some f.bits else none
    | [] => none

/-- BEACON_RECEIVE. -/
def doBeaconReceive (p : Port) (s : State) : State :=
  match s.bypassHead p 1 with
  | some h => (s.takeSrc (srcPort p 0) 1).modPort p (fun x => { x with loads := some (s.clk, BitVec.ofNat 64 (fld h 367 304)) })
  | none => s

/-- BEACON_EXPIRY. -/
def doBeaconExpiry (p : Port) (s : State) : State :=
  match (s.port p).loads with
  | some (t, _) => if t + us (4 * s.rf .rtCtrl 47 42) < s.clk then s.modPort p (fun x => { x with loads := none }) else s
  | none => s

end Sys2Proof.Machine
end

