-- ==== Sys2Proof/Machine/Time.lean ====
section
/-! DEFINITION. Network time (R391 to R400): TIME_SYNC, the choice of a parent, steering and stepping, the root and PPS,
and exclusion. -/

namespace Sys2Proof.Machine

/-- Fields of NT_STATUS (R408). -/
def State.ntValid (s : State) : Bool := s.rb .ntStatus 63
def State.excluded (s : State) : Bool := s.rb .ntStatus 62
def State.ntDist (s : State) : Nat := s.rf .ntStatus 55 50
def State.ntEpoch (s : State) : Nat := s.rf .ntStatus 31 0
def State.isRoot (s : State) : Bool := s.rb .ntCtrl 63
def State.syncPeriod (s : State) : Nat := us (s.rf .ntCtrl 41 32)

/-- Filtered θ (R394, R399), in counts, signed. -/
def State.theta (s : State) : Int := toSigned 32 (s.rf .ntOffset 63 32)

/-- Whether epoch `a` is above epoch `b` by the half-range rule (R392). -/
def epochAbove (a b : Nat) : Bool := a ≠ b && decide (dist 32 a b < 2 ^ 31)

/-- What a port keeps of times, after NT has been stepped by `d`: the times at which its TIME_SYNCs left and arrived are
times of the new NT (log entry 26), and its shapers refill at the next whole µs of the new NT. -/
def PortSt.stepped (x : PortSt) (nt d : BitVec 64) : PortSt :=
  let move (t : Nat) : Nat := (BitVec.ofNat 64 t + d).toNat
  { x with refill := nt.toNat / us 1, gateAsked := move x.gateAsked, syncIn := x.syncIn.map move, sent := x.sent.map (fun (e : Nat × Nat) => (e.1, move e.2)),
           rx := x.rx.map (fun r => { r with nt := move r.nt }) }

/-- A Groom's TIMER that has not fired, moved by a step (R339, R396). -/
def Run.stepped (r : Run) (d : BitVec 64) : Run := if r.timer = 0 ∨ r.timerHit = true then r else { r with timer := r.timer + d }

/-- NT stepped to a value (R396). Deadlines of the handshake core are kept in the clock that is never stepped; the TIMERs of
Groom runs are times of NT, and move. -/
def State.stepNt (s : State) (nt : BitVec 64) : State :=
  let move (g : Groom) : Groom := { g with run := g.run.map (fun r => r.stepped (nt - s.nt)) }
  let s := { s with nt := nt, thetas := [], grooms := s.grooms.map (fun (e : Nat × Groom) => (e.1, move e.2)), ports := s.ports.map (fun (e : Nat × PortSt) => (e.1, e.2.stepped nt (nt - s.nt))) }
  (s.wb .ntStatus 59 true).fault .global .note 0x21 0

/-- The filter of R399 over the latest exchanges with the parent, of which the specification gives no more than what it
removes: a free value between the lowest and the highest θ of the last 64 exchanges. Log entry 25. -/
def State.filterTheta (s : State) (th : Int) : Int × State :=
  let ts := (th :: s.thetas).take 64
  let lo := ts.foldl min th
  let hi := ts.foldl max th
  let (v, s) := { s with thetas := ts }.free 64
  (lo + (v.toNat % ((hi - lo).toNat + 1) : Nat), s)

/-- The rate steered towards θ = 0 (R396): a correction of at most 200 ppm against the sign of the filtered θ, of which no
more is given. Log entry 25. -/
def State.steer (s : State) (th : Int) : State :=
  let (f, s) := s.filterTheta th
  let (v, s) := s.free 18
  let m : Int := (v.toNat % 200001 : Nat)
  let r := if 0 < f then -m else if f < 0 then m else 0
  s.setReg .ntOffset (mkWord 64 [(63, 32, (BitVec.ofInt 32 f).toNat), (31, 0, (BitVec.ofInt 32 r).toNat)])

/-- Whether a condition of R400 holds: θ counts while the chip has a parent. -/
def State.mustExclude (s : State) : Bool :=
  !s.ntValid || (decide (1 ≤ s.ntDist ∧ s.ntDist ≤ 62) && decide ((16 * s.rf .ntCtrl 31 16 : Nat) < s.theta.natAbs)) ||
    (!s.isRoot && (match s.holdSince with | some t => decide (t + us 1000000 < s.clk) | none => false))

/-- A condition of R400 that holds ends the time free of them, and the end of the last one begins it. -/
def State.noteGood (s : State) : State :=
  if s.mustExclude then { s with goodSince := none }
  else if s.goodSince.isNone then { s with goodSince := some s.clk } else s

/-! ### The parent (R395) -/

/-- What a candidate has announced: its last TIME_SYNC arrived within 4 sync periods, valid, and dist below 62. -/
def State.candidate (s : State) (p : Port) : Option SyncRx :=
  match (s.port p).rx with
  | some r => if r.valid && decide (r.dist < 62) && decide (s.clk ≤ r.at_ + 4 * s.syncPeriod) then some r else none
  | none => none

/-- Whether a candidate is better than another: a higher epoch, or the same and a lower dist. -/
def SyncRx.better (a b : SyncRx) : Bool := epochAbove a.epoch b.epoch || (a.epoch = b.epoch && decide (a.dist < b.dist))

/-- The best candidate: of the highest epoch the lowest dist, then the lowest port. -/
def State.bestCandidate (s : State) : Option (Port × SyncRx) :=
  (List.finRange 64).foldl (fun (b : Option (Port × SyncRx)) p =>
    match s.candidate p, b with
    | some r, none => some (p, r)
    | some r, some (q, t) => if r.better t then some (p, r) else some (q, t)
    | none, _ => b) none

/-- The current parent, while it is a candidate. -/
def State.parent (s : State) : Option (Port × SyncRx) :=
  if s.isRoot || 62 < s.ntDist || s.ntDist = 0 then none
  else
    let p := portOf (s.rf .ntStatus 49 44)
    (s.candidate p).map (fun r => (p, r))

/-- The parent chosen again (R395): kept unless another candidate is better; without a candidate the chip is in
holdover. -/
def State.chooseParent (s : State) : State :=
  if s.isRoot then s
  else
    let pick := match s.parent, s.bestCandidate with
      | some a, some b => if b.2.better a.2 then some b else some a
      | none, b => b
      | some a, none => some a
    match pick with
    | some (p, r) =>
      let s := if s.parent.all (fun a => a.1 ≠ p) then { s with thetas := [] } else s
      let s := (s.wf .ntStatus 55 50 (r.dist + 1)).wf .ntStatus 49 44 p.val
      { (s.wb .ntStatus 61 false) with holdSince := none }
    | none =>
      let s := (s.wf .ntStatus 55 50 63).wb .ntStatus 61 true
      if s.holdSince.isSome then s else { s with holdSince := some s.clk }

/-! ### TIME_SYNC (R393, R394) -/

/-- A port's next TIME_SYNC. -/
def State.timeSync (s : State) (p : Port) : BitVec 512 :=
  let x := s.port p
  let prev := match x.sent with | (_, t) :: _ => t | [] => 0
  let rx := match x.rx with | some r => (r.seq, r.nt) | none => (0, 0)
  s.bypassFlit p 2 [(367, 352, x.syncSeq), (351, 320, s.ntEpoch), (319, 314, if s.isRoot then 0 else s.ntDist),
    (313, 313, b2n s.ntValid), (303, 240, prev), (239, 224, rx.1), (223, 160, rx.2)]

/-- TIME_SYNC_SEND: every sync_period a port in UP has a TIME_SYNC to send, whether or not RT_COORD.valid is 1 (log
entry 157). -/
def doTimeSyncSend (p : Port) (s : State) : State :=
  if s.portState p = 3 ∧ (s.port p).syncAt + s.syncPeriod ≤ s.clk ∧ 2 ≤ (s.port p).res 0 then
    s.modPort p (fun x => { x with syncAt := s.clk, txBypass := x.txBypass ++ [true] })
  else s

/-- The offset from the sender of a TIME_SYNC, and the link delay (R394): of two consecutive ones, and where rx_seq names
one of the last 4 that this port sent. -/
def PortSt.offset (x : PortSt) (h : BitVec 512) : Option (Int × Int) :=
  match x.rx, x.sent.find? (fun e => e.1 = fld h 239 224) with
  | some r, some (_, t3) =>
    if fld h 367 352 = (r.seq + 1) % 65536 then
      let t1 : Int := (fld h 303 240 : Nat)
      let t4 : Int := (fld h 223 160 : Nat)
      let there : Int := (r.nt : Int) - t1
      let back : Int := t4 - (t3 : Int)
      some ((there - back) / 2, (there + back) / 2)
    else none
  | _, _ => none

/-- NT brought towards the parent's (R396): stepped where a new epoch is adopted or θ exceeds 1 µs, else steered. -/
def State.follow (s : State) (r : SyncRx) (th : Int) : State :=
  let fresh := r.epoch ≠ s.ntEpoch && r.epoch ≠ 0
  if fresh || 16000 < th.natAbs then
    let s := if fresh then (s.wf .ntStatus 31 0 r.epoch).wb .ntStatus 63 true else s
    (s.stepNt (s.nt - BitVec.ofInt 64 th)).steer 0
  else s.steer th

/-- TIME_SYNC_RECEIVE (R393 to R396): its receive time is the NT at which its frame arrived. -/
def doTimeSyncReceive (p : Port) (s : State) : State :=
  match s.bypassHead p 2 with
  | none => s
  | some h =>
    let th := (s.port p).offset h
    let r : SyncRx := ⟨fld h 351 320, fld h 319 314, fld h 313 313 = 1, fld h 367 352, s.clk,
      (s.port p).syncIn.headD s.nt.toNat⟩
    let s := (s.takeSrc (srcPort p 0) 1).modPort p (fun x => { x with
      rx := some r, delay := match th with | some t => some t.2 | none => x.delay })
    let s := (s.noteEpoch r.epoch).chooseParent
    let s := match s.parent, th with
      | some (q, r), some t => if q = p then s.follow r t.1 else s
      | _, _ => s
    s.noteGood

/-- TIME_CANDIDATE_EXPIRY: a candidate's last TIME_SYNC is more than 4 sync periods old. It stays the one that the port's
next TIME_SYNC answers (R393). -/
def doTimeCandidateExpiry (p : Port) (s : State) : State :=
  match (s.port p).rx with
  | some r => if r.at_ + 4 * s.syncPeriod < s.clk then s.chooseParent.noteGood else s
  | none => s

/-! ### The root and PPS (R397, R398) -/

/-- The highest of some epochs by the half-range rule, and the next above it, skipping 0 (R392). -/
def nextEpoch (es : List Nat) : Nat :=
  let m := es.foldl (fun a b => if a = 0 || epochAbove b a then (if b = 0 then a else b) else a) 0
  let n := (m + 1) % 2 ^ 32
  if n = 0 then 1 else n

/-- NT set from NT_SEED at the edge that follows its arming. -/
def State.seed (s : State) : State :=
  let e := nextEpoch [s.ntEpoch, s.epochSeen, s.rf .ntSeed 62 31]
  let nt : BitVec 64 := BitVec.ofNat 64 (s.rf .ntSeed 30 0 * 16000000000)
  let s := (s.stepNt nt).wb .ntSeed 63 false
  let s := ((s.wf .ntStatus 31 0 e).wb .ntStatus 63 true).wf .ntStatus 55 50 0
  { (s.wb .ntStatus 61 false) with ppsAt := s.clk, ppsNt := some nt, holdSince := none }

/-- PPS_IN_EDGE: it seeds the root when armed, or steers its rate by the edge before; other chips ignore it. An arm observed
together with the edge arms the following one (R397). -/
def doPpsInEdge (s : State) : State :=
  if !s.isRoot then s
  else if s.rb .ntSeed 63 ∧ s.armedAt < s.clk then s.seed.noteGood
  else
    let s := match s.ppsNt with
      | some t => s.steer (toSigned 64 (s.nt - t - 16000000000#64).toNat)
      | none => s
    { (s.wb .ntStatus 61 false) with ppsAt := s.clk, ppsNt := some s.nt, holdSince := none }.noteGood

/-- PPS_MISSING: the root has seen no edge for 2 s. -/
def doPpsMissing (s : State) : State :=
  if s.isRoot ∧ s.rb .ntStatus 61 = false ∧ s.ppsAt + us 2000000 < s.clk then
    { (s.wb .ntStatus 61 true) with holdSince := some s.clk }
  else s

/-- PPS_OUT_PULSE: high within 1 ns of each whole second of NT, for 100 ns; low while valid is 0. -/
def doPpsOutPulse (s : State) : State :=
  match s.ppsOut with
  | some t => if t + ns 100 ≤ s.clk ∨ s.ntValid = false then { s with ppsOut := none } else s
  | none => if s.ntValid ∧ s.nt.toNat % 16000000000 ≤ 16 then { s with ppsOut := some s.clk } else s

/-- NT_SEED written (R397, R408): seconds beyond its range refuse the write; arm, once set, stays until applied. -/
def doNtSeedArm (v : Word) (s : State) : State :=
  if 1152921505 ≤ fld v 30 0 then s.noteReserved .global 0
  else
    let s := if bit v 63 && !s.rb .ntSeed 63 then { s with armedAt := s.clk } else s
    s.setReg .ntSeed (setBit v 63 (bit v 63 || s.rb .ntSeed 63))

/-- TIME_EXCLUSION_CHANGE (R400): excluded while a condition holds, readmitted after 100 ms without one. -/
def doTimeExclusionChange (s : State) : State :=
  if s.mustExclude then
    let s := { s with goodSince := none }
    if s.excluded then s
    else ((s.wb .ntStatus 62 true).wb .ntStatus 60 true).fault .global .degrade 0x20 0
  else
    let s := s.noteGood
    if s.excluded ∧ s.goodSince.all (fun t => decide (t + us 100000 ≤ s.clk)) = true then s.wb .ntStatus 62 false else s

end Sys2Proof.Machine
end

