-- ==== Sys2Proof/Machine/Egress.lean ====
section
/-! DEFINITION. Egress of a port (R401 to R407): the order of frames, the weighted group, token-bucket shapers and gate
control lists. -/

namespace Sys2Proof.Machine

/-! ### Gates (R405, R406) -/

/-- Entries and cycle of a gate bank: the first `len` entries, and the sum of their durations in ns. -/
def State.gateLen (s : State) (p : Port) (b : Fin 2) : Nat :=
  (if b = 0 then s.rf (.egGateCtrl p) 45 40 else s.rf (.egGateCtrl p) 51 46) + 1
def State.gateDur (s : State) (p : Port) (b : Fin 2) (i : Nat) : Nat :=
  s.rf (.egGcl p b ⟨i % 64, Nat.mod_lt _ (by decide)⟩) 29 0
def State.gateOpens (s : State) (p : Port) (b : Fin 2) (i t : Nat) : Bool :=
  s.rb (.egGcl p b ⟨i % 64, Nat.mod_lt _ (by decide)⟩) (32 + t)
def State.gateCycle (s : State) (p : Port) (b : Fin 2) : Nat :=
  ((List.range (s.gateLen p b)).map (s.gateDur p b)).sum

/-- The operating bank. -/
def State.operGate (s : State) (p : Port) : Fin 2 := if s.rb (.egGateCtrl p) 60 then 1 else 0

/-- Whether a bank breaks R405. -/
def State.gateBad (s : State) (p : Port) (b : Fin 2) : Bool :=
  let c := s.gateCycle p b
  decide (c < 1000 ∨ 1000000000 < c) || (List.range (s.gateLen p b)).any (fun i => decide (s.gateDur p b i < 50))

/-- Counts of NT since the start of the bank's present cycle. -/
def State.gatePhase (s : State) (p : Port) (b : Fin 2) : Nat :=
  let c := 16 * s.gateCycle p b
  let base := 16 * s.rf (.egGateBase p b) 59 0
  if c = 0 then 0 else (s.nt.toNat + (c - base % c)) % c

/-- The entry in force at a phase, from entry `i` on, and the counts that it has left. -/
def State.gateAt (s : State) (p : Port) (b : Fin 2) : Nat → Nat → Nat → Nat × Nat
  | 0, i, _ => (i, 0)
  | k + 1, i, ph =>
    let d := 16 * s.gateDur p b i
    if ph < d then (i, d - ph) else s.gateAt p b k (i + 1) (ph - d)

/-- Whether class `t` stays open for `need` more counts from entry `i`, of which `left` counts remain. -/
def State.staysOpen (s : State) (p : Port) (b : Fin 2) (t need : Nat) : Nat → Nat → Nat → Bool
  | 0, _, _ => true
  | k + 1, i, left =>
    s.gateOpens p b i t &&
      (decide (need ≤ left) ||
        let j := if i + 1 < s.gateLen p b then i + 1 else 0
        s.staysOpen p b t (need - left) k j (16 * s.gateDur p b j))

/-- Transmission time of a frame of `n` flits and its trailer at the port's width, in counts, rounded up (R142): each lane
carries 200 Gb/s, that is 100 bits in 8 counts. -/
def State.frameTime (s : State) (p : Port) (n : Nat) : Nat :=
  ceilDiv ((64 * n + 16) * 64) (100 * max 1 ((s.port p).use.length))

/-- Whether a class is open for a frame of `n` flits (R406). -/
def State.gateOpen (s : State) (p : Port) (t n : Nat) : Bool :=
  if !s.rb (.egGateCtrl p) 63 || s.excluded || t = 7 then true
  else
    let b := s.operGate p
    let e := s.gateAt p b (s.gateLen p b) 0 (s.gatePhase p b)
    s.staysOpen p b t (s.frameTime p n) 64 e.1 e.2

/-- GATE_ENTRY_ADVANCE: the entry shown is that of the operating list now. -/
def doGateEntryAdvance (p : Port) (s : State) : State :=
  let b := s.operGate p
  s.wf (.egGateCtrl p) 37 32 (s.gateAt p b (s.gateLen p b) 0 (s.gatePhase p b)).1

/-- A write of EG_GATE_CTRL (R407, R408): of the operating bank the length stays, and a change of it is noted. -/
def doGateSwitchRequest (p : Port) (v : Word) (s : State) : State :=
  let r := Reg.egGateCtrl p
  let old := s.reg r
  let hi := if s.operGate p = 0 then 45 else 51
  let lo := if s.operGate p = 0 then 40 else 46
  let locked := fld v hi lo ≠ fld old hi lo
  let w : Word := mkWord 64 [(63, 63, fld v 63 63), (62, 62, b2n (bit v 62 || bit old 62)), (61, 61, fld v 61 61),
    (60, 60, fld old 60 60), (59, 59, b2n (bit old 59 && !bit v 59)), (51, 40, fld v 51 40), (37, 32, fld old 37 32)]
  let s := s.setReg r (setFld w hi lo (fld old hi lo))
  let s := if bit v 62 then s.modPort p (fun x => { x with gateAsked := s.nt.toNat }) else s
  if locked then s.noteReserved (.port p) 0 else s

/-- The first cycle start of a bank at or after the switch time, in counts (R407), and not before the switch was asked. -/
def State.switchAt (s : State) (p : Port) (b : Fin 2) : Nat :=
  let c := 16 * s.gateCycle p b
  let t := max (16 * s.rf (.egGateSwitch p) 59 0) (s.port p).gateAsked
  let base := 16 * s.rf (.egGateBase p b) 59 0
  if c = 0 then t else t + (c - (t + (c - base % c)) % c) % c

/-- GATE_SWITCH: the new bank becomes operating at entry 0, or the switch is refused (R407). -/
def doGateSwitch (p : Port) (s : State) : State :=
  let r := Reg.egGateCtrl p
  let b : Fin 2 := if s.rb r 61 then 1 else 0
  if !s.rb r 62 then s
  else if s.gateBad p b then ((s.wb r 62 false).wb r 59 true).fault (.port p) .note 2 b.val
  else if s.nt.toNat < s.switchAt p b then s
  else ((s.wb r 62 false).wb r 60 (b = 1)).wf r 37 32 0

/-! ### Shapers (R403, R404) -/

def PortSt.shaper (x : PortSt) (t : Nat) : Shaper := tGet {} x.shapers t

/-- A shaper after `n` refills under its register's values. -/
def Shaper.refilled (x : Shaper) (w : Word) (n : Nat) : Shaper :=
  let on := bit w 63
  let rate := fld w 61 48
  let depth := fld w 43 32
  let cap : Int := (64 * depth : Nat)
  if !on then { x with on := false }
  else if !x.on then ⟨true, cap⟩
  else ⟨true, min cap (x.tokens + (8 * rate * n : Nat))⟩

/-- A port's shapers refilled for the whole µs of NT that have passed. -/
def State.refillPort (s : State) (p : Port) : State :=
  let now := s.nt.toNat / us 1
  let n := now - (s.port p).refill
  if n = 0 then s
  else
    let one (t : Fin 7) (sh : Tab Shaper) : Tab Shaper := tMod {} t.val (fun x => x.refilled (s.reg (.egShape p t)) n) sh
    s.modPort p (fun x => { x with refill := now, shapers := (List.finRange 7).foldl (fun sh t => one t sh) x.shapers })

/-- SHAPER_REFILL. -/
def doShaperRefill (s : State) : State := (List.finRange 64).foldl (fun t p => t.refillPort p) s

/-- Whether a class is eligible, and the charge of a frame. -/
def PortSt.shaperOk (x : PortSt) (t : Nat) : Bool := !(x.shaper t).on || decide (0 < (x.shaper t).tokens)
def PortSt.chargeShaper (x : PortSt) (t n : Nat) : PortSt :=
  if (x.shaper t).on then
    { x with shapers := tMod {} t (fun y => { y with tokens := y.tokens - (64 * n : Nat) }) x.shapers }
  else x

/-! ### Frames of committed packets (R401, R402) -/

/-- Flits of the packet on an output VC that the next frame would carry: those at its source, at most 8, alike in
poison, and within credit (R82, R91, R109). -/
def State.frameOf (s : State) (p : Port) (v : Nat) (o : OutVc) : List Flit :=
  let fs := (s.srcFlits o.src).take (min 8 o.left)
  match fs with
  | [] => []
  | f :: _ => (fs.takeWhile (fun g => g.poison = f.poison)).take (PortSt.mayGoN 8 (s.port p) v)

/-- A frame of an output VC sent: its flits leave their source, and the packet lets its VC go after its last one
(R135). -/
def State.sendVc (s : State) (p : Port) (v : Nat) (o : OutVc) (fs : List Flit) : State :=
  let n := fs.length
  let poison := match fs with | f :: _ => f.poison | [] => false
  let s := (s.modPort p (fun x => x.chargeN v n)).takeSrc o.src n
  let s := (s.sendData p poison v (fs.map (fun f => f.bits))).pm (.port p) 0x01 v n
  let s := if o.head then s.pm (.port p) 0x03 o.tc 1 else s
  if o.left ≤ n then
    { (s.modPort p (fun x => { x with outv := tDel v x.outv })) with worms := tDel o.src s.worms }
  else
    let worm (w : Worm) : Worm := { w with left := w.left - n }
    { (s.modPort p (fun x => { x with outv := tPut v { o with left := o.left - n, head := false } x.outv })) with
      worms := s.worms.map (fun (e : Nat × Worm) => if e.1 = o.src then (e.1, worm e.2) else e) }

/-- Whether the replay buffer takes `n` more flits (R88). -/
def PortSt.room (x : PortSt) (n : Nat) : Bool := decide (x.fill + n ≤ 2048)

/-- The frame that an output VC has ready, where it is a candidate (R401). -/
def State.candFrame (s : State) (p : Port) (v : Nat) : Option (OutVc × List Flit) :=
  match tFind (s.port p).outv v with
  | none => none
  | some o =>
    let fs := s.frameOf p v o
    let open_ := v ≤ 1 || ((o.tc = 7 || (s.port p).shaperOk o.tc) && s.gateOpen p o.tc fs.length)
    let up := s.portState p = 3 || (s.portState p = 5 && v = 1)
    if fs ≠ [] && (s.port p).room fs.length && open_ && up then some (o, fs) else none

/-- The candidates of a class among VC1 to VC9, by VC. -/
def State.classCands (s : State) (p : Port) (t : Nat) : List (Nat × OutVc × List Flit) :=
  (List.range 10).filterMap (fun v =>
    if v = 0 then none
    else match s.candFrame p v with
      | some (o, fs) => if o.tc = t then some (v, o, fs) else none
      | none => none)

/-- Within a class VCs take turns: the first candidate above the VC last served, else the first. -/
def turnPick (last : Nat) (cs : List (Nat × OutVc × List Flit)) : Option (Nat × OutVc × List Flit) :=
  match cs.find? (fun c => last < c.1) with
  | some c => some c
  | none => cs.head?

/-- A frame of a class sent, the class's turn and shaper noted. -/
def State.serve (s : State) (p : Port) (t : Nat) (c : Nat × OutVc × List Flit) : State :=
  let n := c.2.2.length
  let s := s.modPort p (fun x => { x with turn := tPut t c.1 x.turn })
  let s := if 2 ≤ c.1 ∧ t < 7 then s.modPort p (fun x => x.chargeShaper t n) else s
  s.sendVc p c.1 c.2.1 c.2.2

/-- The pick of a class. -/
def State.classPick (s : State) (p : Port) (t : Nat) : Option (Nat × OutVc × List Flit) :=
  turnPick (tGet 9 (s.port p).turn t) (s.classCands p t)

/-- The weighted group (R402): at most once round it, and once more to the class where it began. A class without a
candidate when the pointer reaches it loses its deficit; one that runs out of candidates while it is served keeps it. The
answer says whether a frame has been sent. -/
def State.group (s : State) (p : Port) : Nat → Bool × State
  | 0 => (false, s)
  | k + 1 =>
    let x := s.port p
    let t := x.wptr % 6
    let move (s : State) : State := s.modPort p (fun x => { x with wptr := (t + 1) % 6, reached := false })
    match s.classPick p t with
    | none => State.group (move (if x.reached then s else s.modPort p (fun x => { x with deficit := tSet 0 t 0 x.deficit }))) p k
    | some c =>
      let n := c.2.2.length
      let w := s.rf (.egWeight p) (8 * t + 7) (8 * t)
      let d := tGet 0 x.deficit t + (if x.reached then 0 else 8 * w)
      if n ≤ d then
        (true, (s.modPort p (fun x => { x with reached := true, deficit := tSet 0 t (d - n) x.deficit })).serve p t c)
      else State.group (move (s.modPort p (fun x => { x with deficit := tSet 0 t d x.deficit }))) p k

/-! ### EGRESS_FRAME_START -/

/-- Whether a frame may be sent as the port stands: in QUARANTINE only link-local frames and those of VC1 (R102). -/
def State.vcMay (s : State) (p : Port) (vc : Nat) : Bool := s.portState p ≠ 5 || vc = 15 || vc = 1

/-- The next frame of a replay resent (R88); one that QUARANTINE does not let go holds the replay (R102, log entry
154). -/
def State.resendFrame (s : State) (p : Port) (q : Nat) : State :=
  match (s.port p).replay.dropWhile (fun f => f.seq ≠ q) with
  | [] => s.modPort p (fun x => { x with resend := none })
  | f :: rest =>
    if !s.vcMay p f.vc then s.sendIdle p 0
    else
      let s := s.sendAnnounced p (if f.poison then 3 else 1) f.vc f.seq f.flits
      let stampIt (g : TxFrame) : TxFrame := if g.seq = q then { g with sentAt := s.clk } else g
      s.modPort p (fun x => { x with
        replay := x.replay.map stampIt, resend := (rest.head?).map (fun g => g.seq), quietAt := s.clk })

/-- A beacon or TIME_SYNC of this port leaves (R132, R393); the NT at which a TIME_SYNC leaves is kept. -/
def State.sendBypass (s : State) (p : Port) (sync : Bool) : State :=
  let f := if sync then s.timeSync p else s.beacon p
  let s := s.modPort p (fun x => { (x.chargeN 0 1) with txBypass := x.txBypass.drop 1 })
  let s := ((s.sendData p false 0 [f]).pm (.port p) 0x01 0 1).pm (.port p) 0x03 (rhF f 79 77) 1
  if sync then
    s.modPort p (fun x => { x with syncSeq := (x.syncSeq + 1) % 65536, sent := ((x.syncSeq, s.nt.toNat) :: x.sent).take 4 })
  else s.modPort p (fun x => { x with beaconSeq := (x.beaconSeq + 1) % 65536 })

/-- The VC0 frame that is ready: a committed packet's, or one that the port makes, which enters a ring (R129). -/
def State.vc0Frame (s : State) (p : Port) : Option State :=
  match s.candFrame p 0 with
  | some (o, fs) => some (s.sendVc p 0 o fs)
  | none => match (s.port p).txBypass with
    | k :: _ =>
      if s.portState p = 3 && (tFind (s.port p).outv 0).isNone && decide (2 ≤ (s.port p).poolFree 0) && (s.port p).room 1
      then some (s.sendBypass p k) else none
    | [] => none

/-- A scheduled frame: TC7, TC6, then the weighted group. -/
def State.scheduled (s : State) (p : Port) : Bool × State :=
  match s.classPick p 7 with
  | some c => (true, s.serve p 7 c)
  | none => match s.classPick p 6 with
    | some c => (true, s.serve p 6 c)
    | none => s.group p 7

/-- EGRESS_FRAME_START: a replay frame, a link-local frame, a VC0 frame, a scheduled frame, or an IDLE frame. In a
retrain whose frames have resumed, and while an orderly stop waits, only IDLE frames go (R38, R104). -/
def doEgressFrameStart (p : Port) (s : State) : State :=
  if !s.maySend p then s
  else if s.portState p = 4 then s.sendIdle p 0
  else match (s.port p).resend with
    | some q => s.resendFrame p q
    | none => match (s.port p).txLocal with
      | h :: rest =>
        if (s.port p).room 1 then
          let s := (s.modPort p (fun x => { x with txLocal := rest })).sendData p false 15 [h]
          if rest = [] then s.wb (.llCtrl (.port p)) 4 false else s
        else s.sendIdle p 0
      | [] =>
        if s.portState p = 2 || s.tack.stopping then s.sendIdle p 0
        else match s.vc0Frame p with
          | some t => t
          | none =>
            let r := s.scheduled p
            if r.1 then r.2 else r.2.sendIdle p 0

end Sys2Proof.Machine
end

