-- ==== Sys2Proof/Machine/Deliver.lean ====
section
/-! DEFINITION. The rows of end-to-end delivery (chapter 10): PACKET_RECEIVE, the acknowledgements,
refusals and responses at the initiator, and the timers of flows. -/

namespace Sys2Proof.Machine

/-! ### What reaches an endpoint (R136, R268) -/

/-- A packet at an endpoint of this chip (R268). Packets of a fenced domain's contexts are discarded
and counted (R373). -/
def State.receive (s : State) (e : Ejected) : State :=
  let p := e.pkt
  let c := Pkt.dctx p
  let st := if (s.ctx? c).isSome then s.ctxStall c else match e.port with
    | some q => (stallOfPort q).val
    | none => 0
  if Pkt.poisoned p || Pkt.ecrcOf p ≠ Pkt.ecrc p then s.bump (.rmaErrcnt (stallOf st)) 63 48 1
  else if Pkt.opc p = 0x10 || Pkt.opc p = 0x11 then s.collIn p
  else if Pkt.opc p = 0x1F then
    (if Pkt.th p 375 368 = 1 ∨ Pkt.th p 375 368 = 2 ∨ Pkt.rh p 108 104 ≠ 31 then s
     else match e.port with
       | some q => s.fault (.stall (stallOfPort q)) .note 0x13 (q.val % 4)
       | none => s.fault (.stall (stallOf st)) .note 0x13 0)
  else if !s.domRuns (s.ctxDom c) then s.bump (.csCount (domOf (s.ctxDom c))) 31 0 1
  else if Pkt.opc p = 3 ∨ Pkt.opc p = 5 ∨ Pkt.opc p = 8 ∨ Pkt.opc p = 9 then { s with toInit := s.toInit ++ [p] }
  else if (s.ctx? c).isNone then s.sendNack none p 0x02 0
  else if Pkt.malformed p then s.sendNack (match s.findTfl p with | some tf => tFind s.tfl tf | none => none) p 0x01 0
  else if Pkt.opc p = 0x18 ∧ Pkt.tag p / 2 ^ 56 = 1 then s.flowOpen p
  else match s.findTfl p with
    | none => s.sendNack none p 0x10 0
    | some tf => s.classify tf p

/-- PACKET_RECEIVE: the packet that has waited longest at the chip's endpoints. -/
def doPacketReceive (s : State) : State :=
  match s.eject with
  | [] => s
  | e :: rest => { s with eject := rest }.receive e

/-! ### Resolution (R266) -/

/-- A PSN is resolved, with 0 or the status of its refusal. -/
def State.resolve (s : State) (f psn status detail : Nat) : State :=
  match tFind s.ifl f with
  | none => s
  | some x => match x.outst.find? (fun o => o.psn = psn) with
    | none => s
    | some o =>
      let opens := !x.est && psn = x.start
      let s := s.modIfl f (fun x => { x with outst := x.outst.filter (fun o => o.psn ≠ psn), lastUse := s.clk,
                                             est := x.est || opens })
      if opens then s
      else match o.op, o.me with
        | some op, _ =>
          let s := if status ≠ 0 then (s.noteFail op status detail).modOp op (fun q => if q.aux = 1 then { q with aux := 0 } else q)
                   else s
          s.settleCmd op
        | none, some m =>
          if status = 0 then s
          else (s.modMe m (fun y => { y with refused := y.refused + o.len }.fail status detail)).recvCheck m
        | none, none => s

/-- A receive whose rendezvous read cannot go on ends, and the initiator is told on a new flow (R251, R252). -/
def State.endRndv (s : State) (m status detail : Nat) : State := (s.modMe m (fun x => x.fail status detail)).recvOver m

/-- The rendezvous SENDs of a context that wait for a finish from a peer (R251). -/
def State.finishAwaited (s : State) (x : IFlow) : List Nat :=
  let mine (o : Op) : Bool := o.aux = 1 && o.performed && o.ctx = x.ctx &&
    (match o.peer with | some (fa, pc, _) => decide (fa = x.peerFa ∧ pc = x.peerCtx) | none => false)
  (s.ops.filter (fun e => mine e.2)).map (fun e => e.1)

/-- A flow is discarded (R272, R281): the commands that it has begun complete with a status; those that
have sent nothing on it proceed on a new flow where `again` holds, and complete too where not. Rendezvous SENDs that only wait
for a finish from the peer complete with DELIVERY_FAILED (R252, log entry 165). -/
def State.discardFlow (s : State) (f status detail : Nat) (again : Bool) : State :=
  match tFind s.ifl f with
  | none => s
  | some x =>
    let begun := (x.sentOps ++ (x.queue.filter (fun i => 0 < i.sent)).filterMap (fun i => i.op)).dedup
    let hit := if again then begun else x.allOps
    let mes := if again then (x.outst.filterMap (fun o => o.me) ++ (x.queue.filter (fun i => 0 < i.sent)).filterMap (fun i => i.me)).dedup
               else x.allMes
    let rest := if again then x.queue.filter (fun i => i.sent = 0 && (match i.op with
        | some op => !hit.contains op
        | none => (match i.me with | some m => !mes.contains m | none => true)))
      else []
    let waiting := (s.finishAwaited x).filter (fun op => !hit.contains op)
    let s := s.dropIfl f
    let s := if rest = [] then s
      else match s.flowTo x.ctx x.peerFa x.peerCtx with
        | (some g, s) => s.modIfl g (fun y => { y with queue := y.queue ++ rest })
        | (none, s) => { s with due := s.due ++ rest.map (fun i => ⟨x.ctx, x.peerFa, x.peerCtx, i⟩) }
    let s := hit.foldl (fun t op => t.cutCmd op status detail) s
    let s := waiting.foldl (fun t op => t.cutCmd op 0x0B 0) s
    mes.foldl (fun t m => t.endRndv m status detail) s

/-- A flow fails (R281). -/
def State.flowFails (s : State) (f psn : Nat) : State :=
  match tFind s.ifl f with
  | none => s
  | some x =>
    let s := s.bump (.rmaErrcnt (stallOf (s.ctxStall x.ctx))) 15 0 1
    let s := s.postCtx x.ctx 0x0604 [(3, 63, 32, psn), (7, 63, 40, x.peerFa), (7, 39, 18, x.peerCtx)]
    s.discardFlow f 0x0B 0 true

/-! ### Congestion control (R283, R284) -/

/-- The target delay of a flow, in ns. -/
def IFlow.delay (x : IFlow) : Nat := x.baseRtt.getD 0 + ctlMargin x.ctrl

/-- A sample (R283, R284): the echoed TSL, the delay to take off, and the payload bytes newly
acknowledged. -/
def State.rttSample (s : State) (f tsl delay b : Nat) : State :=
  match tFind s.ifl f with
  | none => s
  | some x =>
    let raw := dist 16 (s.ntNs % 65536) tsl
    if raw < delay then s
    else
      let v := raw - delay
      let base := match x.baseRtt with | some r => min r v | none => v
      let y := { x with baseRtt := some base }
      let td := y.delay
      let y :=
        if !ctlCc x.ctrl then y
        else if v ≤ td then { y with cwnd := min (ctlMax x.ctrl) (y.cwnd + 4096 * b / y.cwnd) }
        else if y.lastDec.all (fun t => decide (t + ns v ≤ s.clk)) then
          { y with cwnd := max 4096 (y.cwnd - y.cwnd * (v - td) / (2 * v)), lastDec := some s.clk }
        else y
      { s with ifl := tPut f y s.ifl }

/-! ### ACK and NACK (R271, R272) -/

/-- Whether an answer's cum and map cover a PSN. -/
def covers (cum map psn : Nat) : Bool :=
  let d := dist 32 psn cum
  d = 0 || decide (2 ^ 31 ≤ d) || (decide (d ≤ 64) && map.testBit (d - 1))

/-- The gaps below a PSN that an ACK or a NACK shows delivered (R280). `skip` is the PSN that a NACK refuses. -/
def State.markGaps (s : State) (f cum map : Nat) (skip : Option Nat) : State :=
  let top := (List.range 64).foldl (fun a i => if map.testBit i then wrap 32 (cum + 1 + i) else a) cum
  s.modIfl f (fun x => { x with outst := x.outst.map (fun o =>
    let d := dist 32 top o.psn
    if 0 < d && d < 2 ^ 31 && !o.acked && !covers cum map o.psn && decide (skip ≠ some o.psn) &&
      (o.opc = 1 || o.opc = 6 || o.opc = 0x18) then { o with gap := true } else o) })

/-- What an ACK shows delivered (R266, R271, R280): resolutions, the sample, and the gaps below. -/
def State.applyCover (s : State) (f cum map tsl delay : Nat) : State :=
  match tFind s.ifl f with
  | none => s
  | some x =>
    let hit := x.outst.filter (fun o => covers cum map o.psn)
    let bytes := ((hit.filter (fun o => (o.opc = 1 || o.opc = 6) && !o.acked)).map (fun o => o.bytes)).sum
    let s := s.modIfl f (fun x => { x with outst := x.outst.map (fun o =>
      if hit.any (fun h => h.psn = o.psn) then { o with acked := true } else o) })
    let s := hit.foldl (fun t o =>
      if o.opc = 1 || o.opc = 6 || o.opc = 0x18 || (o.opc = 2 && o.len = 0) then t.resolve f o.psn 0 0 else t) s
    (s.rttSample f tsl delay bytes).markGaps f cum map none

/-- Whether an answer's cum is not older than one already applied (R271). -/
def IFlow.fresh (x : IFlow) (cum : Nat) : Bool :=
  match x.outst with
  | [] => true
  | o :: _ => atOrAbove 32 (wrap 32 (cum + 1)) o.psn

/-- What a NACK shows besides its refusal (R272, R280, R283): a sample, and gaps where its cum is that of a flow record. It
resolves no other PSN (R266). -/
def State.applyNack (s : State) (f : Nat) (p : Pkt) : State :=
  match tFind s.ifl f with
  | none => s
  | some x =>
    let s := s.rttSample f (Pkt.tsl p) 0 0
    if x.est && decide (Pkt.key p / 2 ^ 24 ≠ 2) && x.fresh (Pkt.moff p)
    then s.markGaps f (Pkt.moff p) (Pkt.addr p) (some (Pkt.psn p)) else s

/-- Whether the home domain of a flow's context runs. -/
def State.iflRuns (s : State) (f : Nat) : Bool :=
  match tFind s.ifl f with
  | some x => s.domRuns (s.ctxDom x.ctx)
  | none => false

/-- The first packet of an opcode that waits at the initiator, and the rest. -/
def State.takeInit (s : State) (opc : Nat) : Option (Pkt × State) :=
  match s.toInit.findIdx? (fun p => Pkt.opc p = opc) with
  | none => none
  | some i => (s.toInit[i]?).map (fun p => (p, { s with toInit := s.toInit.eraseIdx i }))

/-- ACK_RECEIVE (R271): an ACK older than one already applied is discarded. -/
def doAckReceive (s : State) : State :=
  match s.takeInit 8 with
  | none => s
  | some (p, s) => match s.answerIfl p with
    | none => s
    | some f => match tFind s.ifl f with
      | none => s
      | some x =>
        if x.fresh (Pkt.psn p) then s.applyCover f (Pkt.psn p) (Pkt.addr p) (Pkt.tsl p) (Pkt.mlen p) else s

/-- NACK_RECEIVE (R263, R272). -/
def doNackReceive (s : State) : State :=
  match s.takeInit 9 with
  | none => s
  | some (p, s) =>
    let s := s.bump (.rmaErrcnt (stallOf (s.ctxStall (Pkt.dctx p)))) 31 16 1
    match s.answerIfl p with
    | none => s
    | some f => match tFind s.ifl f with
      | none => s
      | some x =>
        let cause := Pkt.key p / 2 ^ 24
        let psn := Pkt.psn p
        let known := x.outst.any (fun o => o.psn = psn)
        if cause = 0x10 then (if x.est then s.discardFlow f 0x0A 0x10 true else s)
        else if cause = 0x11 ∨ cause = 0x12 then
          let s := s.modIfl f (fun x => { x with outst := x.outst.map (fun o =>
            if o.psn = psn then { o with nackAt := some s.clk } else o) })
          s.applyNack f p
        else if !x.est ∧ psn = x.start then s.discardFlow f 0x0A cause false
        else (if known then s.resolve f psn 0x0A cause else s).applyNack f p

/-! ### GET_RSP and ATOMIC_RSP (R276, R277) -/

/-- GET_RSP_RECEIVE: a piece of an outstanding chunk is written at its place; a piece already held, or of
no outstanding request, is discarded and counted; a payload of a receive whose function was reset is counted and discarded
(R255). -/
def doGetRspReceive (s : State) : State :=
  match s.takeInit 3 with
  | none => s
  | some (p, s) =>
    let st := stallOf (s.ctxStall (Pkt.dctx p))
    let dup := s.bump (.rmaCount st) 47 32 1
    match s.answerIfl p with
    | none => dup
    | some f => match tFind s.ifl f with
      | none => dup
      | some x => match x.outst.find? (fun o => o.psn = Pkt.psn p && o.opc = 2) with
        | none => dup
        | some o =>
          let off := Pkt.moff p - o.moff
          let piece := off / 4096
          if Pkt.moff p < o.moff ∨ off % 4096 ≠ 0 ∨ o.len ≤ off ∨ o.pieces.contains piece then dup
          else
            let s := if o.pieces = [] then s.rttSample f (Pkt.tsl p) 0 0 else s
            let n := min 4096 (o.len - off)
            let s := s.modIfl f (fun x => { x with outst := x.outst.map (fun q =>
              if q.psn = o.psn then { q with pieces := piece :: q.pieces, bytes := q.bytes - n, writing := q.writing + 1 } else q) })
            let s := match o.op with
              | some op => s.modOp op (fun q => { q with left := q.left + 1 })
              | none => s
            let whole := decide (ceilDiv o.len 4096 ≤ o.pieces.length + 1)
            let spoilt : Bool := match o.op, o.me with
              | none, some m => (tFind s.mes m).all (fun x => x.discard)
              | _, _ => false
            let t := if spoilt then s.getDone f o.psn n 0 0 none o.me else s.startXfer (mkXfer (s.ctxStall x.ctx) x.ctx 1 0 true false (.getDst f o.psn off o.op o.me)
              (o.local_ + off) n ((Pkt.payload p).take n))
            if whole then t.resolve f o.psn 0 0 else t

/-- ATOMIC_RSP_RECEIVE: the old value is written to the result address, where there is one, before the
completion. -/
def doAtomicRspReceive (s : State) : State :=
  match s.takeInit 5 with
  | none => s
  | some (p, s) => match s.answerIfl p with
    | none => s
    | some f => match tFind s.ifl f with
      | none => s
      | some x => match x.outst.find? (fun o => o.psn = Pkt.psn p && o.opc = 4) with
        | none => s
        | some o => match o.op.bind (fun op => (tFind s.ops op).map (fun q => (op, q))) with
          | none => s.resolve f o.psn 0 0
          | some (op, q) =>
            let res := (q.words.getD 2 0).toNat
            let n := atomSize (fld (q.words.getD 3 0) 23 20)
            if res = 0 then s.resolve f o.psn 0 0
            else
              let s := s.modOp op (fun q => { q with left := q.left + 1 })
              (s.startXfer (mkXfer q.stall q.ctx 1 0 false false (.atomRes op) res n (leBytes n (Pkt.tag p)))).resolve f o.psn 0 0

/-! ### Resends and timers (R271, R280, R281, R265) -/

/-- One PSN sent again (R280): the same contents, a fresh TSL and ECRC, and ACKREQ 1. One that has been
resent retry_limit times fails its flow instead (R281). -/
def State.resend (s : State) (f : Nat) (x : IFlow) (o : Outst) (rto : Bool) : State :=
  if ctlRetry x.ctrl < o.sends then s.flowFails f o.psn
  else
    let p := match o.pkt with
      | [] => []
      | h :: t => { h with bits := setBit h.bits 373 true } :: t
    let q := s.stamp p
    let st := s.ctxStall x.ctx
    let s := (s.bump (.rmaCount (stallOf st)) 63 48 1).pm (.stall (stallOf st)) 0x25 x.ctx 1
    let s := s.modIfl f (fun x => { x with
      cwnd := if rto && ctlCc x.ctrl then max 4096 (x.cwnd / 2) else x.cwnd,
      outst := x.outst.map (fun y => if y.psn = o.psn
        then { y with pkt := q, tsl := Pkt.tsl q, lastTx := s.clk, sends := y.sends + 1, gap := false, nackAt := none } else y) })
    s.injectPkt st q

/-- RTO_EXPIRY (R280): rto × 2^r since the last transmission, at most 1 ms. -/
def doRtoExpiry (f : Nat) (psn : BitVec 32) (s : State) : State :=
  match tFind s.ifl f with
  | none => s
  | some x => match x.outst.find? (fun o => o.psn = psn.toNat) with
    | none => s
    | some o =>
      if !s.iflRuns f || s.clk ≤ o.lastTx + min (us (ctlRto x.ctrl * 2 ^ (o.sends - 1))) (us 1000) then s
      else s.resend f x o true

/-- TARGET_DELAY_EXPIRY (R272, R280): the target delay has passed since the last transmission of a PSN
below one shown delivered, or since a retryable refusal. -/
def doTargetDelayExpiry (f : Nat) (psn : BitVec 32) (s : State) : State :=
  match tFind s.ifl f with
  | none => s
  | some x => match x.outst.find? (fun o => o.psn = psn.toNat) with
    | none => s
    | some o =>
      let due := (o.gap && decide (o.lastTx + ns x.delay ≤ s.clk)) || o.nackAt.any (fun t => decide (t + ns x.delay ≤ s.clk))
      if s.iflRuns f && due then s.resend f x o false else s

/-- ACK_DELAY_EXPIRY (R271). -/
def doAckDelayExpiry (tf : Nat) (s : State) : State :=
  match tFind s.tfl tf with
  | none => s
  | some t =>
    if s.domRuns (s.ctxDom t.dctx) && t.firstUnacked.any (fun a => decide (a + ctlAckDelay t.ctrl ≤ s.clk)) then s.sendAck tf else s

/-- FLOW_IDLE_EXPIRY (R265): an initiator record with nothing outstanding for flow_idle / 2, or a target
record that has received nothing for flow_idle and holds nothing. -/
def doFlowIdleExpiry (initiator : Bool) (f : Nat) (s : State) : State :=
  if initiator then
    match tFind s.ifl f with
    | none => s
    | some x =>
      if s.iflRuns f && decide (x.outst = []) && decide (x.queue = []) && decide (x.lastUse + ctlIdle x.ctrl / 2 < s.clk)
      then s.dropIfl f else s
  else
    match tFind s.tfl f with
    | none => s
    | some t =>
      let open_ := t.prog ≠ [] ∨ t.held ≠ none ∨ t.sends ≠ [] ∨ t.issued ≠ [] ∨
        s.mes.any (fun e => e.2.tf = f && (e.2.kind = 2 || (e.2.kind = 3 && !e.2.rndv && e.2.counted < e.2.mlen))) = true
      if !s.domRuns (s.ctxDom t.dctx) || s.clk ≤ t.lastRx + ctlIdle t.ctrl || open_ then s
      else (s.endTfl f).flowGive t.dctx

end Sys2Proof.Machine
end

