-- ==== Sys2Proof/Machine/HostLl.lean ====
section
/-! DEFINITION. The link layer of a host link (chapter 04): link packets (R94, R95), acknowledgement, replay and
credits (R96, R97), link-up (R99), retraining (R103 to R106) and electrical idle (R73, R107). -/

namespace Sys2Proof.Machine

/-- The link layer of a host link, and a change of it. -/
def State.hl (s : State) (h : HLink) : HostLl := tGet {} s.hll h.val
def State.modHl (s : State) (h : HLink) (f : HostLl → HostLl) : State := { s with hll := tMod {} h.val f s.hll }

/-! ### Link packets (R94, R95) -/

/-- A link packet: header, body, and CRC-32C over both. -/
def linkPacket (ty seq : Nat) (body : List Byte) : List Byte :=
  let h := beBytes 4 (fld (mkWord 32 [(31, 28, ty), (27, 12, seq), (11, 0, body.length / 4)]) 31 0) ++ body
  h ++ beBytes 4 (crc32c h).toNat

/-- The number of the present character time of a host lane, of 10 bits (R49): 45 in every 128 counts. -/
def State.charNow (s : State) : Nat := s.clk * 45 / 128

/-- The lanes that a host link sends on: those in use that do not hold electrical idle. -/
def State.hostSends (s : State) (h : HLink) : List (Nat × Nat) :=
  let use := (s.hl h).use
  ((List.range use.length).zip use).filter (fun e => !(s.lane (linkLane (.host h) e.2)).txIdle)

/-- The K28.5 of every character time between what was sent last and now (R67): two of them or more are an alignment set
(R68). -/
def State.hostFill (s : State) (h : HLink) : State :=
  let x := s.hl h
  let k := s.charNow - x.sentTo
  if x.use = [] ∨ k = 0 then s
  else
    let s := s.modHl h (fun x => { x with sentTo := s.charNow, sinceSet := if 2 ≤ k then 0 else x.sinceSet + k })
    (s.hostSends h).foldl (fun t (e : Nat × Nat) =>
      let n := linkLane (.host h) e.2
      (t.modLane n (fun x => { x with rd := x.rd != decide (k % 2 = 1) })).emit (.fill n k)) s

/-- Character times leave on the lanes in use of a host link behind the fill, each lane's characters by its own running
disparity (R65, R67); an alignment set goes before any that would be the 4,096th since the last (R68). -/
def State.sendRows (s : State) (h : HLink) (rows : List (List Char8)) : State :=
  let s := s.hostFill h
  let x := s.hl h
  let o := alignRows x.use.length x.sinceSet rows
  let s := s.modHl h (fun x => if x.use = [] then { x with sinceSet := 0 } else { x with
    sinceSet := o.2, sentTo := x.sentTo + o.1.length })
  (s.hostSends h).foldl (fun t (e : Nat × Nat) =>
    t.sendChars (linkLane (.host h) e.2) (o.1.map (fun r => r.getD e.1 k28_5))) s

/-- A link packet put on the lanes. -/
def State.putPacket (s : State) (h : HLink) (ty seq : Nat) (body : List Byte) : State :=
  let b := linkPacket ty seq body
  let s := s.modHl h (fun x => { x with sinceAck := x.sinceAck + 1 })
  (s.emit (.hostPacket h b)).sendRows h (packetRows (s.hl h).use.length b)

/-- Whether the HELLO exchange of link-up is under way (R98, R99): in HELLO, or in LOST at that stage. -/
def State.hostHello (s : State) (h : HLink) : Bool :=
  s.hlState h.val = 2 || (s.hlState h.val = 7 && (s.hl h).hello)

/-- Whether packets can travel: in UP, in the HELLO exchange, and in a retrain once they have resumed. -/
def State.hostLive (s : State) (h : HLink) : Bool :=
  s.hlState h.val = 3 || s.hostHello h ||
    (s.hlState h.val = 4 && (match (s.hl h).retrain with | some r => r.resumed | none => false))
def State.hostMaySend (s : State) (h : HLink) : Bool := s.hostLive h && !(s.hl h).txIdle

/-- An ACK (R96). -/
def State.sendHostAck (s : State) (h : HLink) : State :=
  (s.putPacket h 8 0 (beBytes 8 ((s.hl h).lastAcc * 2 ^ 48))).modHl h (fun x => { x with
    quietAt := if x.ackDue then s.clk else x.quietAt, ackDue := false, ackCnt := 0, sinceAck := 0 })

/-- A link packet sent; at most 65,536 stand between two ACKs (R96). -/
def State.sendPacket (s : State) (h : HLink) (ty seq : Nat) (body : List Byte) : State :=
  let s := s.putPacket h ty seq body
  if 65536 ≤ (s.hl h).sinceAck then s.sendHostAck h else s

/-- A NAK: sent, or owed until the link can send (R86). -/
def State.sendHostNak (s : State) (h : HLink) : State :=
  let s := s.modHl h (fun x => { x with nak := some s.clk })
  if s.hostMaySend h then
    (s.sendPacket h 9 0 (beBytes 8 ((s.hl h).lastAcc * 2 ^ 48))).bump (.llErrcnt (.host h)) 31 16 1
  else s
def State.wantHostNak (s : State) (h : HLink) : State := if (s.hl h).nak.isSome then s else s.sendHostNak h

/-- A NOTICE: 1 idle entry follows, 2 retrain follows. -/
def State.sendNotice (s : State) (h : HLink) (reason : Nat) : State := s.sendPacket h 0xC 0 (beBytes 8 (reason * 2 ^ 56))

/-- A CREDIT with the freed counts. -/
def State.sendCredit (s : State) (h : HLink) : State :=
  let f := (s.hl h).freed
  let w : Word := mkWord 64 [(63, 52, f.rqh), (51, 36, f.rqd), (35, 24, f.rsh), (23, 8, f.rsd)]
  (s.sendPacket h 0xA 0 (beBytes 8 w.toNat)).modHl h (fun x => { x with
    quietAt := if x.credDue then s.clk else x.quietAt, credDue := false, credAt := s.clk })

/-- A HELLO with the pools announced (R95, R97). -/
def State.sendHello (s : State) (h : HLink) : State :=
  let c := (s.hl h).ann
  let w : BitVec 128 := mkWord 128 [(127, 120, 1), (118, 118, b2n (s.hl h).seen), (111, 100, fld c 63 52),
    (99, 84, fld c 51 36), (83, 72, fld c 35 24), (71, 56, fld c 23 8)]
  (s.sendPacket h 0xB 0 (beBytes 16 w.toNat)).modHl h (fun x => { x with helloTx := s.clk })

/-! ### Credits (R96) -/

/-- Data credits of `p` payload bytes. -/
def hostUnits (p : Nat) : Nat := ceilDiv p 64

/-- Whether a TLP's header and data credits allow it. -/
def HostLl.mayTlp (x : HostLl) (rsp : Bool) (units : Nat) : Bool :=
  match x.pools with
  | none => false
  | some p =>
    if rsp then decide (x.used.rsh + 1 ≤ p.rsh) && decide (x.used.rsd + units ≤ p.rsd)
    else decide (x.used.rqh + 1 ≤ p.rqh) && decide (x.used.rqd + units ≤ p.rqd)

/-- Counts of a VC raised: headers by one, data by some units. -/
def HCred.add (c : HCred) (rsp : Bool) (units : Nat) : HCred :=
  if rsp then { c with rsh := c.rsh + 1, rsd := c.rsd + units } else { c with rqh := c.rqh + 1, rqd := c.rqd + units }

/-- Freed counts are sent modulo 4,096 and 65,536. -/
def HCred.wrap (c : HCred) : HCred := ⟨c.rqh % 4096, c.rqd % 65536, c.rsh % 4096, c.rsd % 65536⟩

/-- One reported count applied: what is in use, and the count last applied. -/
def credStep (m used last cum : Nat) : Nat × Nat :=
  let delta := (cum + m - last) % m
  if delta < m / 2 then (used - delta, cum) else (used, last)

/-- A CREDIT applied. -/
def HostLl.applyCredit (x : HostLl) (w : Word) : HostLl :=
  let a := credStep 4096 x.used.rqh x.lastCum.rqh (fld w 63 52)
  let b := credStep 65536 x.used.rqd x.lastCum.rqd (fld w 51 36)
  let c := credStep 4096 x.used.rsh x.lastCum.rsh (fld w 35 24)
  let d := credStep 65536 x.used.rsd x.lastCum.rsd (fld w 23 8)
  { x with used := ⟨a.1, b.1, c.1, d.1⟩, lastCum := ⟨a.2, b.2, c.2, d.2⟩ }

/-- Buffer space of a received TLP given back. -/
def State.freeTlp (s : State) (h : HLink) (t : RxTlp) : State :=
  if t.old then s
  else s.modHl h (fun x => { x with freed := (x.freed.add t.rsp (hostUnits (t.body.length - 16))).wrap, credDue := true })

/-! ### Training and link-up -/

/-- A host link trains every enabled lane from step 1 of R72; force_fence holds it in LOST (R110, R111). -/
def State.trainHost (s : State) (h : HLink) : State :=
  if s.hlState h.val = 7 && s.rb (.llCtrl (.host h)) 1 then s.lanesStop (.host h)
  else
    let s := s.modHl h (fun x => { x with trainAt := s.clk, hello := false, seen := false, use := [], rxPkt := none })
    let s := (if s.hlState h.val = 7 then s else s.setLink (.host h) 1).showWidth (.host h) 0
    s.trainLink (.host h)

/-- The link layer of a new link: sequence numbers from 0, no credits in use. -/
def HostLl.fresh (x : HostLl) (now : Nat) : HostLl :=
  { retrains := x.retrains, trainAt := x.trainAt, quietAt := now, helloAt := now, credAt := now }

/-- Link-up of a host link begins: width, numbers and credits, and its HELLO (R99). -/
def State.hostLinkUp (s : State) (h : HLink) : State :=
  let st := s.hlState h.val
  if (st = 1 ∨ (st = 7 ∧ (s.hl h).hello = false ∧ s.rb (.llCtrl (.host h)) 1 = false)) ∧
      s.mayLinkUp (.host h) (s.hl h).trainAt = true then
    let use := s.chosenLanes (.host h)
    let ann := s.reg (.llCreditHost h)
    let old (l : List RxTlp) : List RxTlp := l.map (fun t => { t with old := true })
    let s := s.modTl h.val (fun x => { x with rxReq := old x.rxReq, rxRsp := old x.rxRsp })
    let s := s.modHl h (fun x => { (x.fresh s.clk) with use := use, hello := true, ann := ann, sentTo := s.charNow })
    let s := (s.showWidth (.host h) use.length).sendRows h (alignSet use.length)
    (if st = 1 then s.setLink (.host h) 2 else s).sendHello h
  else s

/-- The HELLO exchange has not ended within 1 ms: every lane trains again (R99). -/
def State.hostHelloTimeout (s : State) (h : HLink) : State :=
  if s.hostHello h && decide ((s.hl h).helloAt + us 1000 < s.clk) then s.trainHost h else s

/-- HOST_HELLO_PERIODIC: a HELLO every 1 µs during the exchange. -/
def doHostHelloPeriodic (h : HLink) (s : State) : State :=
  if s.hostHello h ∧ (s.hl h).helloTx + us 1 ≤ s.clk then s.sendHello h else s

/-- A completion that was held is written (R203). -/
def State.flushCpl (s : State) (c : HeldCpl) : State :=
  match tFind s.cqs c.queue with
  | some q => if q.id = c.id then s.putCpl c.queue q c.count c.writes c.after else s
  | none => s

/-- A record that was held is written (R169). -/
def State.flushRec (s : State) (r : HeldRec) : State :=
  match tFind s.eqs r.eq with
  | some q => if q.dead || !s.domRuns q.home then s else s.eqWrite r.eq r.words
  | none => s

/-- A host link enters UP (R99, R169, R203): tags withheld are freed (R154), what was held is written, in the order in
which it was posted, and HOST_LINK_UP is posted. One HELLO more is sent on entering UP, so that a far end that has not yet
seen one with hello_seen does (log entry 24). -/
def State.hostUp (s : State) (h : HLink) : State :=
  let t := s.tl h.val
  let s := (s.setLink (.host h) 3).wb (.llCtrl (.host h)) 3 false
  let s := s.modHl h (fun x => { x with hello := false, quietAt := s.clk })
  let s := s.modTl h.val (fun x => { x with withheld := [], heldRecs := [], heldCpls := [] })
  let s := t.heldRecs.foldl (fun a r => a.flushRec r) s
  let s := t.heldCpls.foldl (fun a c => a.flushCpl c) s
  let s := t.heldCpls.foldl (fun a c => a.settleQueue c.queue) s
  (s.postMgmt h.val 0x0306 none [(4, 12, 8, s.rf (.llStatus (.host h)) 15 11)]).sendHello h

/-- A HELLO received (R95, R99): the far pools are kept, and one with hello_seen ends the exchange. In UP one without
hello_seen is answered (log entry 24). One whose version is not 1 or whose role is 0, of which the rule does not say what
follows, is ignored without a record (DESIGN CHOICE, log entry 183). -/
def State.hostHelloIn (s : State) (h : HLink) (body : List Byte) : State :=
  let w : BitVec 128 := BitVec.ofNat 128 (ofBe body)
  if fld w 127 120 ≠ 1 ∨ bit w 119 = false then s
  else if s.hostHello h then
    let s := s.modHl h (fun x => { x with seen := true, pools := some ⟨fld w 111 100, fld w 99 84, fld w 83 72, fld w 71 56⟩ })
    if bit w 118 then s.hostUp h else s
  else if s.hlState h.val = 3 ∧ bit w 118 = false then s.sendHello h
  else s

/-! ### Retrain (R103 to R106) -/

/-- Steps 3 to 6 of a retrain begin again from step 2 (R104). The limit of 50 µs for a lane still on its way back runs
on. -/
def State.hostRetrainAgain (s : State) (h : HLink) : State :=
  match (s.hl h).retrain with
  | some r =>
    let s := if s.hostMaySend h then s.sendNotice h 2 else s
    let at3 := if s.exiting (.host h) then r.step3 else s.clk
    (s.modHl h (fun x => { x with retrain := some { r with step2 := s.clk, step3 := at3, resumed := false } })).lanesExit (.host h)
  | none => s

/-- A host link in UP or HELLO starts a retrain, after which it returns to that state, as a port does; during the recovery
of a LOST link its lanes train again (R103, R110; log entry 155). A trigger that comes once packets have resumed in a retrain
repeats it from step 2 (log entry 185). -/
def State.retrainHost (s : State) (h : HLink) : State :=
  let st := s.hlState h.val
  if st = 7 then s.trainHost h
  else if st = 4 ∧ (s.hl h).retrain.any (fun r => r.resumed) then s.hostRetrainAgain h
  else if st ≠ 3 ∧ st ≠ 2 then s
  else
    let s := if s.hostMaySend h then s.sendNotice h 2 else s
    let times := ((s.hl h).retrains.filter (fun t => s.clk < t + us 1000000)) ++ [s.clk]
    let r : Retrain := ⟨s.clk, s.clk, s.clk, st, false⟩
    let s := s.modHl h (fun x => { x with retrain := some r, resend := none, retrains := times })
    ((s.noteRetrain (.host h) times).setLink (.host h) 4).lanesExit (.host h)

/-- A replay started from a sequence number (R88, R89, R96). -/
def State.startHostReplay (s : State) (h : HLink) (from_ : Nat) (counts : Bool) : State :=
  match (s.hl h).replay.find? (fun f => dist 16 f.seq from_ < 2 ^ 15) with
  | none => s
  | some f =>
    let oldest := match (s.hl h).replay with | g :: _ => g.seq = f.seq | [] => false
    let n := (s.hl h).count + b2n (counts && oldest)
    let s := s.bump (.llErrcnt (.host h)) 47 32 1
    let s := s.modHl h (fun x => { x with resend := some f.seq, count := n })
    if counts && oldest && decide (s.rf (.llCtrl (.host h)) 27 24 ≤ n) then s.retrainHost h else s

/-- Packets resume once every lane has made its exit or been dropped, beginning with an ACK (R104). -/
def State.resumeHost (s : State) (h : HLink) : State :=
  match (s.hl h).retrain with
  | none => s
  | some r =>
    let use := s.chosenLanes (.host h)
    if r.resumed || s.exiting (.host h) || use = [] then s
    else
      let s := s.modHl h (fun x => { x with use := use, txIdle := false, rxIdle := false, sentTo := s.charNow, retrain := some { r with resumed := true } })
      ((s.showWidth (.host h) use.length).sendRows h (alignSet use.length)).sendHostAck h

/-- An access of a privileged core has been performed, or has failed (R363). -/
def State.coreDone (s : State) (id : Nat) : State := { s with coreAccs := s.coreAccs.filter (fun x => x.id ≠ id) }

/-- The master that a privileged core is. -/
def coreMaster (c : Nat) : Master := if c = 2 then .warden else .steward (domOf c)

/-- A privileged core's access has ended with an error, which is returned to the core (R363). -/
def State.coreFails (s : State) (id : Nat) : State :=
  match s.coreAccs.find? (fun x => x.id = id) with
  | none => s
  | some x => (s.coreDone id).emit (.busError (coreMaster x.core) x.addr)

/-- The NOTE of a core's write that fails after its early acknowledgement (R363). -/
def State.coreNote (s : State) (core : Nat) : State :=
  if core = 2 then s.fault .tack .note 1 0 else s.fault (.domain (domOf core)) .note 2 0

/-- Whoever waits for the acknowledgement of a posted write is told (R227, R278, R342). -/
def State.tellAck (s : State) : Tok → State
  | .none => s
  | .use u => s.finishUse u 0 0 []
  | .store g id => s.storeDone g id
  | .post p => s.postDue p
  | .core id => s.coreDone id
  | .coreLate _ => s
  | .atom tf psn => s.hostAtomWritten tf psn

/-- TLPs at or below an ack are released (R88, R96): a posted write's history window begins (R148). -/
def State.releaseHost (s : State) (h : HLink) (ack : Nat) : State :=
  let x := s.hl h
  let done (q : Nat) : Bool := decide (dist 16 ack q < 2 ^ 15)
  let gone := x.replay.filter (fun f => done f.seq)
  let keep := x.replay.filter (fun f => !done f.seq)
  let first := match x.replay with | f :: _ => done f.seq | [] => false
  let s := s.modHl h (fun x => { x with
    replay := keep, count := if first then 0 else x.count,
    resend := (match x.resend with
      | some q => if done q then (keep.head?).map (fun f => f.seq) else some q
      | none => none),
    quietAt := if first then s.clk else x.quietAt })
  gone.foldl (fun s f =>
    match f.wtag with
    | none => s
    | some w => match tFind (s.tl h.val).hist w with
      | none => s
      | some e =>
        let s := s.modTl h.val (fun t => { t with hist := tPut w { e with acked := some s.clk } t.hist, mwrAcked := t.mwrAcked + 1 })
        s.tellAck e.tok) s

/-- Step 6 of R104: the first ACK from the far end ends the retrain, and what it does not cover is replayed. -/
def State.endHostRetrain (s : State) (h : HLink) (ack : Nat) : State :=
  match (s.hl h).retrain with
  | none => s
  | some r =>
    let s := (s.modHl h (fun x => { x with retrain := none })).setLink (.host h) r.back
    let s := s.wb (.llCtrl (.host h)) 3 false
    let s := if (s.hl h).use.length < s.widthMax (.host h) then s.wb (.llStatus (.host h)) 5 true else s
    s.startHostReplay h ((ack + 1) % 65536) false

/-- An ACK received; `nak` where it is a NAK, which starts a replay (R86, R96). -/
def State.hostAckIn (s : State) (h : HLink) (nak : Bool) (ack : Nat) : State :=
  let s := s.releaseHost h ack
  if s.hlState h.val = 4 then s.endHostRetrain h ack
  else if nak then s.startHostReplay h ((ack + 1) % 65536) true
  else s

/-- A lane that has not reported ACTIVE within 50 µs of the fast exit is dropped and trains (R104). -/
def State.hostLaneDrop (s : State) (h : HLink) (l : Fin 16) : State :=
  match (s.hl h).retrain with
  | some r =>
    if s.laneAway (.host h l) = true ∧ s.laneForced (.host h l) = false ∧ r.step3 + us 50 < s.clk then (s.trainLane (.host h l)).resumeHost h else s
  | none => s

/-- Step 6 has not occurred within 20 µs of step 2 (R104). -/
def State.hostRetrainRepeat (s : State) (h : HLink) : State :=
  match (s.hl h).retrain with
  | some r => if r.step2 + us 20 < s.clk then s.hostRetrainAgain h else s
  | none => s

/-- A lane in use loses its lock (R103, R104). -/
def State.hostLaneLost (s : State) (h : HLink) (l : Nat) : State :=
  if !(s.hl h).use.contains l then s
  else
    let s := s.wf (.laneStatus (linkLane (.host h) l)) 12 10 0
    match (s.hl h).retrain with
    | some _ => s.hostRetrainAgain h
    | none => s.retrainHost h

/-- A retrain trigger of R103 at a host link. -/
def State.hostTrigger (s : State) (h : HLink) : RetrainTrigger → State
  | .laneLost l => s.hostLaneLost h l
  | .farNotice => s.retrainHost h
  | .widthChanged => s.retrainHost h
  | .laneReturned l =>
    if s.laneState (linkLane (.host h) l) = 2 ∧ (s.hl h).use.contains (l % 16) = false ∧ 2 ≤ s.hlState h.val ∧ s.hlState h.val ≤ 4
    then s.retrainHost h else s

/-- LL_CTRL.retrain written (R103, R111): a retrain, or the recovery of a LOST link. The bit reads 1 until that has ended; a
write before then has no effect (R8). -/
def State.hostRetrainWrite (s : State) (h : HLink) : State :=
  let st := s.hlState h.val
  if s.rb (.llCtrl (.host h)) 3 then s
  else if 2 ≤ st ∧ st ≤ 4 then (s.wb (.llCtrl (.host h)) 3 true).retrainHost h
  else if st = 7 then (s.wb (.llCtrl (.host h)) 3 true).trainHost h
  else s

/-- HOST_TRAINING_SET: at a lane that trains its bytes are applied; one that does not train leaves the link and trains too
(R104, step 4). -/
def doHostTrainingSet (h : HLink) (l : Fin 16) (laneByte request status : BitVec 8) (s : State) : State :=
  let n := LaneId.host h l
  if s.laneState n = 1 then s.trainingSetIn n laneByte request status
  else if s.laneFollows n then
    let s := s.trainLane n
    if (s.hl h).retrain.any (fun r => !r.resumed) then s.resumeHost h else s.hostLaneLost h l.val
  else s

/-- LANE_CTRL.retrain of a host lane: it trains from step 1 (R72, R81); a lane in use makes its link retrain. -/
def State.hostLaneRetrain (s : State) (h : HLink) (l : Fin 16) : State :=
  let n := LaneId.host h l
  if !s.laneOn n || s.laneState n = 1 then s
  else if !s.inService (.host h) then s.laneForgiven n
  else ((s.trainLane n).wb (.laneCtrl n) 4 true).hostLaneLost h l.val

/-! ### Timers (R86, R88, R96) -/

def State.hostNakRepeat (s : State) (h : HLink) : State :=
  match (s.hl h).nak with
  | some t => if s.hostMaySend h ∧ t + ns (s.rf (.llTimers (.host h)) 19 0) < s.clk then s.sendHostNak h else s
  | none => s

/-- The same for the oldest unacknowledged TLP (R96). -/
def State.hostReplayTimeout (s : State) (h : HLink) : State :=
  match (s.hl h).replay with
  | f :: _ =>
    if s.hlState h.val = 3 ∧ f.sentAt + ns (s.rf (.llTimers (.host h)) 51 32) < s.clk ∧ (s.hl h).resend ≠ some f.seq
    then s.startHostReplay h f.seq true else s
  | [] => s

/-- HOST_ACK_TIMER: an ACK that is owed is sent. -/
def doHostAckTimer (h : HLink) (s : State) : State :=
  if s.hostMaySend h ∧ (s.hl h).ackDue = true then s.sendHostAck h else s

/-- HOST_CREDIT_TIMER: a CREDIT after a change, and at least every 10 µs. -/
def doHostCreditTimer (h : HLink) (s : State) : State :=
  if s.hostMaySend h ∧ ((s.hl h).credDue = true ∨ (s.hl h).credAt + us 10 ≤ s.clk) then s.sendCredit h else s

/-! ### Electrical idle (R73, R107) -/

/-- Whether a host link's transmit direction has nothing to do. -/
def State.hostQuiet (s : State) (h : HLink) : Bool :=
  let x := s.hl h
  let t := s.tl h.val
  x.replay = [] && t.reqQ = [] && t.rspQ = [] && !x.ackDue && !x.credDue

/-- IDLE_DELAY_EXPIRY at a host link. -/
def State.hostIdle (s : State) (h : HLink) : State :=
  if s.rb (.llCtrl (.host h)) 5 ∧ s.hlState h.val = 3 ∧ (s.hl h).txIdle = false ∧ s.hostQuiet h = true ∧
      (s.hl h).quietAt + us (s.rf (.llTimers (.host h)) 31 20) < s.clk then
    (s.sendNotice h 1).modHl h (fun x => { x with txIdle := true })
  else s

/-- HOST_IDLE_ENTRY: every active lane of a link that has announced idle, or those whose force_idle is set, sends K28.0 and
enters electrical idle (R73, R80). A lane on its way back returns to idle where force_idle asks for it (R64, R73); one that
trains stops sending. -/
def doHostIdleEntry (h : HLink) (s : State) : State :=
  let whole := (s.hl h).txIdle
  let one (t : State) (n : LaneId) : State :=
    let forced := t.laneForced n
    if (whole || forced) && (t.laneState n = 2 || (t.laneState n = 3 && !(t.lane n).txIdle)) then t.laneIdle n
    else if forced && t.laneState n = 5 then t.laneHold n
    else if forced && t.laneState n = 4 then (if (t.lane n).txIdle then t.setLane n 3 else t.laneIdle n)
    else if forced && t.laneState n = 1 then t.modLane n (fun x => { x with txIdle := true })
    else t
  let s := (linkLanes (.host h)).foldl one (s.hostFill h)
  if (s.hl h).retrain.isSome then s.resumeHost h else s

/-- The lanes of a host link have made their exit: a retrain goes on, or the transmit direction leaves idle. -/
def State.hostExited (s : State) (h : HLink) : State :=
  if (s.hl h).retrain.isSome then s.resumeHost h
  else if s.lanesHeld (.host h) || !(s.hl h).txIdle then s
  else s.modHl h (fun x => { x with txIdle := false, quietAt := s.clk, sentTo := s.charNow })

/-- HOST_FAST_EXIT: asked for by a retrain, by work that waits (R107), or by force_idle cleared: every lane whose
transmitter is idle and not held so sends its burst, and comes back unless the far transmitter still holds idle. -/
def doHostFastExit (h : HLink) (s : State) : State :=
  let x := s.hl h
  let asked := x.retrain.isSome || !x.txIdle || !s.hostQuiet h
  let back := (linkLanes (.host h)).filter (fun n => s.laneAway n && (s.lane n).txIdle && !s.rb (.laneCtrl n) 5)
  if asked && back ≠ [] then (back.foldl (fun t n => t.laneExit n) s).hostExited h else s

/-- HOST_EXIT_BURST_RECEIVED: the receivers of lanes in electrical idle lock again, and the lanes report ACTIVE unless
their own transmitters are idle (R73, R107). -/
def doHostExitBurstReceived (h : HLink) (s : State) : State :=
  let idle := (linkLanes (.host h)).filter s.laneAway
  if idle = [] then s
  else ((idle.foldl (fun t n => (t.modLane n (fun x => { x with rxRd := (encodeLane x.rxRd hostBurst).2 })).laneHears n) s).modHl h (fun x => { x with rxIdle := false })).hostExited h

/-! ### HOST_LINK_PACKET (R94 to R97, R147) -/

/-- Header fields of a transaction (R145, R146). -/
def tlpF (body : List Byte) (hi lo : Nat) : Nat := fld (BitVec.ofNat 128 (ofBe (body.take 16))) hi lo

/-- Whether a received transaction is malformed (R147): a type or field value that is reserved, or not one that a host
sends; a payload that does not match; a read that crosses 4 KiB; the wrong VC. -/
def tlpBad (rsp : Bool) (b : List Byte) : Bool :=
  let pay (p : Nat) : Bool := b.length = 16 + 4 * ceilDiv p 4
  !(tlpF b 114 112 = 0 &&
    (match tlpF b 127 120 with
      | 0x01 => !rsp && tlpF b 47 0 = 0 && decide (tlpF b 50 48 ≤ 4) && pay (64 * tlpF b 50 48)
      | 0x02 => !rsp && tlpF b 93 64 = 0 && decide (1 ≤ tlpF b 103 94 ∧ tlpF b 103 94 ≤ 512) && tlpF b 2 0 = 0 &&
                pay (8 * tlpF b 103 94)
      | 0x03 => !rsp && tlpF b 93 64 = 0 && decide (1 ≤ tlpF b 103 94 ∧ tlpF b 103 94 ≤ 512) && tlpF b 2 0 = 0 && pay 0
      | 0x12 => rsp && tlpF b 69 0 = 0 && decide (tlpF b 99 96 ≤ 3) && decide (tlpF b 81 70 + tlpF b 94 82 ≤ 4096) &&
                (decide (tlpF b 94 82 ≠ 0) || decide (tlpF b 99 96 ≠ 0)) && pay (tlpF b 94 82)
      | 0x14 => rsp && tlpF b 87 0 = 0 && pay 0 &&
                ((tlpF b 111 108 = 1 && decide (1 ≤ tlpF b 107 104 ∧ tlpF b 107 104 ≤ 3)) ||
                 (tlpF b 111 108 = 2 && tlpF b 107 88 = 0))
      | _ => false))

/-- Whether a transaction is a CWR or a CRD. -/
def tlpAccess (b : List Byte) : Bool := tlpF b 127 120 = 2 || tlpF b 127 120 = 3

/-- Whether a CPLD crosses a 4 KiB boundary of the host address of its outstanding read (R147). -/
def State.cpldCrosses (s : State) (h : HLink) (b : List Byte) : Bool :=
  tlpF b 127 120 = 0x12 && (match tFind (s.tl h.val).reads (tlpF b 111 100) with
    | some r => decide (4096 < (r.addr + tlpF b 81 70) % 4096 + tlpF b 94 82)
    | none => false)

/-- A TLP accepted in order (R86, R96): kept for its row, or discarded as malformed (R147). -/
def State.acceptTlp (s : State) (h : HLink) (rsp : Bool) (body : List Byte) : State :=
  let bad := tlpBad rsp body || s.cpldCrosses h body
  let t : RxTlp := ⟨body, (s.tl h.val).mwrSent, bad, rsp, false⟩
  let s := s.pm (.hostlink h) 0x12 (b2n rsp) 1
  if bad && !tlpAccess body then
    (((s.bump (.hlTlperr h) 63 48 1).fault (.hostlink h) .note 3 0)).freeTlp h t
  else if tlpAccess body || tlpF body 127 120 = 1 then s.modTl h.val (fun x => { x with rxReq := x.rxReq ++ [t] })
  else s.modTl h.val (fun x => { x with rxRsp := x.rxRsp ++ [t] })

/-- A TLP packet by its sequence number (R86, R96): an ACK is owed, and sent after every 32. -/
def State.hostTlpIn (s : State) (h : HLink) (rsp : Bool) (seq : Nat) (body : List Byte) : State :=
  let x := s.hl h
  if seq = (x.lastAcc + 1) % 65536 then
    let s := s.modHl h (fun x => { x with lastAcc := seq, nak := none, ackDue := true, ackCnt := x.ackCnt + 1, quietAt := s.clk })
    let s := s.acceptTlp h rsp body
    if 32 ≤ (s.hl h).ackCnt ∧ s.hostMaySend h = true then s.sendHostAck h else s
  else if dist 16 x.lastAcc seq < 2 ^ 15 then s.bump (.llErrcnt (.host h)) 15 0 1
  else s.wantHostNak h

/-- Whether a packet's length field fits its type and its body (R94). -/
def packetLenOk (ty len n : Nat) : Bool :=
  n = 4 * len && (match ty with
    | 0 | 1 => decide (4 ≤ len ∧ len ≤ 1028)
    | 8 | 9 | 0xA | 0xC => len = 2
    | 0xB => len = 4
    | _ => false)

/-- A packet whose CRC is good. A TLP is taken once the far end's HELLO has been received (R99). -/
def State.goodPacket (s : State) (h : HLink) (hd : BitVec 32) (body : List Byte) : State :=
  let ty := fld hd 31 28
  if !packetLenOk ty (fld hd 11 0) body.length then s.fault (.hostlink h) .note 2 0
  else match ty with
    | 8 => s.hostAckIn h false (fld (BitVec.ofNat 64 (ofBe body)) 63 48)
    | 9 => s.hostAckIn h true (fld (BitVec.ofNat 64 (ofBe body)) 63 48)
    | 0xA => s.modHl h (fun x => x.applyCredit (BitVec.ofNat 64 (ofBe body)))
    | 0xB => s.hostHelloIn h body
    | 0xC =>
      if fld (BitVec.ofNat 64 (ofBe body)) 63 56 = 1 then s.modHl h (fun x => { x with rxIdle := true })
      else if fld (BitVec.ofNat 64 (ofBe body)) 63 56 = 2 then s.retrainHost h else s
    | _ => if s.hostHello h && !(s.hl h).seen then s else s.hostTlpIn h (ty = 1) (fld hd 27 12) body

/-- A packet delivered by the lanes: one that holds a code violation, or whose CRC is bad, is discarded and answered by a
NAK (R65, R86). -/
def State.takePacket (s : State) (h : HLink) (bytes : List Byte) (bad : Bool) : State :=
  let n := bytes.length - 4
  if !s.hostLive h then s
  else if bad || decide (bytes.length < 8) || (crc32c (bytes.take n)).toNat ≠ ofBe (bytes.drop n) then
    (s.bump (.llErrcnt (.host h)) 63 48 1).wantHostNak h
  else s.goodPacket h (BitVec.ofNat 32 (ofBe (bytes.take 4))) ((bytes.take n).drop 4)

/-- Characters taken in order (R66, R67): K27.7 begins a packet, K29.7 ends it, a violation spoils it; K28.5 is discarded
wherever it stands, and with it what belongs to no packet. A packet that another begins in has lost its end. -/
def State.takeChars : List (Option Char8) → State → HLink → State
  | [], s, _ => s
  | c :: cs, s, h =>
    let put (s : State) (x : Option (List Byte × Bool)) : State := s.modHl h (fun y => { y with rxPkt := x })
    let s := match c, (s.hl h).rxPkt with
      | none, some x => put s (some (x.1, true))
      | none, none => s
      | some c, x =>
        if c = k27_7 then
          let s := match x with | some y => s.takePacket h y.1 true | none => s
          put s (some ([], false))
        else if c = k29_7 then
          match x with | some y => (put s none).takePacket h y.1 y.2 | none => s
        else if c.k then s
        else match x with | some y => put s (some (y.1 ++ [c.b], y.2)) | none => s
    State.takeChars cs s h

/-- Whether a character is one of those that R66 lists. -/
def charOk (c : Char8) : Bool := !c.k || [k28_5, k27_7, k29_7, k28_3, k28_0].contains c

/-- Code groups of one lane taken (R65, R66, R77): its polarity undone, decoded by its running disparity, and each violation
counted. A special character of no use is discarded, and leaves a K28.5 in its place. A far loopback sends the code groups on
in this transmitter's polarity, or the characters re-encoded, without those that are violations, of which the rule does not
say what is sent (DESIGN CHOICE, log entry 183); a lane held by force_idle sends nothing. -/
def State.takeGroups (s : State) (n : LaneId) (gs : List (BitVec 10)) : List (Option Char8) × State :=
  let loop := s.rf (.laneCtrl n) 9 7
  if !s.laneOn n || s.nearLoop n then ([], s)
  else if loop = 3 then ([], if s.laneForced n then s else s.sendGroups n gs)
  else
    let o := decodeLane (s.lane n).rxRd (if s.rb (.laneStatus n) 14 then gs.map (fun g => ~~~ g) else gs)
    let s := s.modLane n (fun x => { x with rxRd := o.2 })
    let bad (c : Option Char8) : Bool := match c with | some c => !charOk c | none => true
    let s := s.noteErrors n (o.1.filter bad).length
    if loop = 4 then ([], if s.laneForced n then s else s.sendChars n (o.1.filterMap (fun c => if bad c then none else c)))
    else (o.1.map (fun c => match c with | some d => if charOk d then c else some k28_5 | none => none), s)

/-- Code groups received by the lanes of a host link: each lane decoded, the lanes deskewed on the K28.5 before the first
other character and put in logical order, whichever lanes this end sends on (R67, R68, R71). K28.0 on every lane announces
idle; without a notice it starts a retrain (R73, R103). -/
def State.takeLine (s : State) (h : HLink) (gs : List (Fin 16 × List (BitVec 10))) : State :=
  let one (t : List (Nat × LaneId × List (Option Char8)) × State) (e : Fin 16 × List (BitVec 10)) :=
    let n := LaneId.host h e.1
    let r := t.2.takeGroups n e.2
    if (t.2.laneState n = 2 || t.2.laneAway n) && !(t.2.lane n).rxIdle then
      (t.1 ++ [(t.2.rf (.laneStatus n) 19 16, n, r.1.dropWhile (fun c => c = some k28_5))], r.2)
    else (t.1, r.2)
  let r := gs.foldl one ([], s)
  let s := r.2
  let w := (s.hl h).use.length
  let taken := ((List.range 16).flatMap (fun k => r.1.filter (fun e => e.1 = k))).take w
  let cols := taken.map (fun e => e.2.2)
  let rows := (cols.map List.length).foldl max 0
  let chars := (List.range rows).flatMap (fun i => cols.filterMap (fun c => (c.drop i).head?))
  if w = 0 ∨ cols.length < w then s
  else
    let s := if s.hostLive h then State.takeChars chars s h else s
    if cols.all (fun c => c.contains (some k28_0)) then
      let s := taken.foldl (fun t e =>
        let t := t.modLane e.2.1 (fun x => { x with rxIdle := true })
        if t.laneState e.2.1 = 2 then t.setLane e.2.1 3 else t) s
      if (s.hl h).rxIdle ∨ (s.hl h).retrain.isSome = true ∨ s.hostLive h = false then s else s.retrainHost h
    else s

/-- HOST_LINK_PACKET: a packet, each of its code violations counted for its lane (R79, R94), or the code groups that carry
packets. -/
def doHostLinkPacket (h : HLink) (rx : HostRx) (s : State) : State :=
  match rx with
  | .packet bytes vs =>
    if !s.hostLive h then s
    else (vs.foldl (fun t l => t.noteErrors (.host h l) 1) s).takePacket h bytes (vs ≠ [])
  | .line gs => s.takeLine h gs

end Sys2Proof.Machine
end

