-- ==== Sys2Proof/Machine/HostTlp.lean ====
section
/-! DEFINITION. The transaction layer of a host link (chapter 06): the TLPs that the device builds (R144 to R152), read
completions (R153, R154), doorbells (R164), reported failures (R165, R166), and the loss of the link (R110, R168,
R169, R500). -/

namespace Sys2Proof.Machine

/-! ### Building transactions -/

/-- A transaction's header (R145, R146), as bytes. -/
def tlpHeader (ty fn : Nat) (fs : List (Nat × Nat × Nat)) : List Byte :=
  beBytes 16 (mkWord 128 ([(127, 120, ty), (119, 115, fn)] ++ fs)).toNat

/-- A payload padded to whole 4-byte words (R145). -/
def padWord (bs : List Byte) : List Byte := bs ++ List.replicate ((4 - bs.length % 4) % 4) 0

/-- Bytes of the replay buffer that TLPs take. -/
def HostLl.fill (x : HostLl) : Nat := (x.replay.map (fun f => f.body.length + 8)).sum

/-- Whether the replay buffer takes one more TLP (R96). -/
def HostLl.room (x : HostLl) (n : Nat) : Bool :=
  decide (x.replay.length < 32767) && decide (x.fill + n + 8 ≤ 262144)

/-- Whether a TLP with `p` payload bytes can be sent now (R96). -/
def State.mayTlp (s : State) (h : HLink) (rsp : Bool) (p : Nat) : Bool :=
  (s.hl h).mayTlp rsp (hostUnits p) && (s.hl h).room (16 + 4 * ceilDiv p 4)

/-- A TLP sent, charged and kept for replay. -/
def State.sendTlp (s : State) (h : HLink) (rsp : Bool) (p : Nat) (body : List Byte) (wtag : Option Nat) : State :=
  let seq := (s.hl h).next
  let s := s.sendPacket h (b2n rsp) seq body
  let s := s.modHl h (fun x => { x with
    next := (seq + 1) % 65536, replay := x.replay ++ [⟨seq, rsp, body, s.clk, wtag⟩],
    used := x.used.add rsp (hostUnits p), turn := !rsp, quietAt := s.clk })
  (s.pm (.hostlink h) 0x11 (b2n rsp) 1).pm (.hostlink h) 0x13 (b2n rsp) (hostUnits p)

/-- A history entry is live (R148). -/
def State.liveEntry (s : State) (h : HLink) (e : History) : Bool :=
  match e.acked with
  | none => true
  | some t => decide (s.clk ≤ t + us (s.rf (.hlTimers h) 15 0))

/-- The delivered packet for which a write is made (R285): a PUT's or SEND's own, or those whose bytes an unexpected message
held until a receive took it (R247). -/
def State.noteOf (s : State) (tok : Tok) : Option WrNote :=
  let mk (tf psn va : Nat) : Option WrNote :=
    match tFind s.tfl tf, s.issuedPkt tf psn with
    | some t, some p => some ⟨Pkt.firstPsn p, va, t.srcFa, t.sctx⟩
    | _, _ => none
  match tok with
  | .use u => (match tFind s.uses u with
    | some y => (match tFind s.xfers y.xfer with
      | some x => (match x.purpose with
        | .tgtPut tf psn => mk tf psn y.va
        | .recvPkt tf psn _ _ => mk tf psn y.va
        | .uxCopy m => (tFind s.mes m).map (fun x => ⟨x.firstPsn, y.va, x.srcFa, x.sctx⟩)
        | _ => none)
      | none => none)
    | none => none)
  | .atom tf psn => (match s.issuedPkt tf psn with
    | some p => mk tf psn (Pkt.addr p)
    | none => none)
  | _ => none

/-- An MWR built and sent (R148 to R150): `none` while its tag is still live, or its credits are wanting. -/
def State.buildWrite (s : State) (h : HLink) (w : WrReq) : Option State :=
  let t := s.tl h.val
  let tag := t.nextWtag
  let n := w.data.length
  let live := match tFind t.hist tag with | some e => s.liveEntry h e | none => false
  if live || !s.mayTlp h false n then none
  else
    let reg := s.hrt h.val w.addr
    let ordered := !(w.relaxed && s.isMemory h.val w.addr)
    let stash := decide (w.stash ≠ 0) && (match reg with | some i => s.rb (.hrtLimit h i) 2 | none => false)
    let e : History := ⟨w.ctx, w.fn, w.addr, n, w.tok, none, s.noteOf w.tok⟩
    let s := s.modTl h.val (fun t => { t with
      hist := tPut tag e t.hist, nextWtag := (tag + 1) % 65536, mwrSent := t.mwrSent + 1 })
    let hd := tlpHeader 0x10 w.fn [(111, 96, tag), (95, 95, b2n ordered), (94, 94, b2n stash),
      (93, 82, if stash then w.stash else 0), (81, 69, n), (63, 0, w.addr)]
    some (s.sendTlp h false n (hd ++ padWord w.data) (some tag))

/-- The lowest read tag that is free (R152). -/
def State.freeTag (s : State) (h : HLink) : Option Nat :=
  let t := s.tl h.val
  let top := s.rf (.hlCtrl h) 27 16 + 1
  if top ≤ t.reads.length then none
  else (List.range 4096).find? (fun g => (tFind t.reads g).isNone && (tFind t.withheld g).isNone)

/-- An MRD built and sent (R152). The region table is looked up as it is built: a table walk's read in a DEVICE region is not
issued, and the walk faults (R157, R215). -/
def State.buildRead (s : State) (h : HLink) (r : RdReq) : Option State :=
  let walk : Option Nat := match r.purpose with
    | .walk w => if s.isMemory h.val r.addr then none else some w
    | _ => none
  match s.freeTag h with
  | none => none
  | some g =>
    if !s.mayTlp h false 0 then none
    else match walk with
    | some w => some (s.walkFault w 5 6)
    | none =>
      let s := s.modTl h.val (fun t => { t with
        reads := tPut g ⟨r.addr, r.len, r.ctx, r.fn, r.purpose, [], s.clk, false⟩ t.reads })
      some (s.sendTlp h false 0 (tlpHeader 0x11 r.fn [(111, 100, g), (99, 87, r.len), (63, 0, r.addr)]) none)

/-- An INTR built and sent, or dropped and counted while intr_en is 0 (R161). -/
def State.buildIntr (s : State) (h : HLink) (fn vector data : Nat) : Option State :=
  if !s.rb (.hlCtrl h) 1 then some (s.dropIntr h.val)
  else if !s.mayTlp h false 0 then none
  else some (s.sendTlp h false 0 (tlpHeader 0x13 fn [(111, 101, vector), (95, 64, data)]) none)

/-- The first transaction of the REQ VC built, where tl_enable and its limits allow (R148, R152, R171). -/
def State.buildReq (s : State) (h : HLink) : Option State :=
  if !s.rb (.hlCtrl h) 0 then none
  else match (s.tl h.val).reqQ with
    | [] => none
    | r :: rest =>
      let s := s.modTl h.val (fun t => { t with reqQ := rest })
      match r with
      | .wr w => s.buildWrite h w
      | .rd r => s.buildRead h r
      | .intr fn v d => s.buildIntr h fn v d

/-- A CCPL whose earlier posted writes have all been acknowledged is sent (R159, R163). -/
def State.buildRsp (s : State) (h : HLink) : Option State :=
  let t := s.tl h.val
  match t.rspQ.find? (fun c => decide (c.barrier ≤ t.mwrAcked)) with
  | none => none
  | some c =>
    let p := 8 * c.data.length
    if !s.mayTlp h true p then none
    else
      let s := s.modTl h.val (fun t => { t with rspQ := t.rspQ.erase c })
      let hd := tlpHeader 0x04 c.fn [(111, 104, c.htag), (103, 100, c.status), (99, 90, c.len8)]
      some (s.sendTlp h true p (hd ++ c.data.flatMap (fun w => leBytes 8 w.toNat)) none)

/-- The next TLP of a replay resent (R88). -/
def State.resendTlp (s : State) (h : HLink) (q : Nat) : State :=
  match (s.hl h).replay.dropWhile (fun f => f.seq ≠ q) with
  | [] => s.modHl h (fun x => { x with resend := none })
  | f :: rest =>
    let s := s.sendPacket h (b2n f.rsp) f.seq f.body
    let stampIt (g : HTx) : HTx := if g.seq = q then { g with sentAt := s.clk } else g
    s.modHl h (fun x => { x with replay := x.replay.map stampIt, resend := (rest.head?).map (fun g => g.seq), quietAt := s.clk })

/-- HOST_TLP_START: a replay first, then the REQ and RSP VCs in turn. A link that a topcoat drains builds none (R424). -/
def doHostTlpStart (h : HLink) (s : State) : State :=
  let x := s.hl h
  if s.hlState h.val ≠ 3 ∨ x.txIdle = true then s
  else match x.resend with
    | some q => s.resendTlp h q
    | none => if s.holdHost = some h.val then s else
      let a := if x.turn then s.buildRsp h else s.buildReq h
      match a with
      | some s => s
      | none => ((if x.turn then s.buildReq h else s.buildRsp h)).getD s

/-- A CCPL queued; none is built for a link that is lost (R169). -/
def State.answer (s : State) (h : HLink) (c : Ccpl) : State :=
  if s.hlLost h.val then s else s.modTl h.val (fun t => { t with rspQ := t.rspQ ++ [c] })

/-! ### The ends of reads (R154) -/

/-- A host atomic whose read or write has failed is answered and the next one begins (R278, R286). -/
def State.hostAtomFails (s : State) (tf psn st : Nat) : State :=
  let s := match s.issuedPkt tf psn with
    | none => s
    | some p => if st = 9 then s.putOff tf p 0x11 else s.refuse tf p 0x09 (if st = 8 then 2 else 1)
  s.hostAtomEnds tf psn

/-- A privileged core's read of host memory has ended: what it brought, or the error, is returned to the core. -/
def State.coreRead (s : State) (id st : Nat) (bs : List Byte) : State :=
  match s.coreAccs.find? (fun x => x.id = id) with
  | none => s
  | some x =>
    if st = 0 then (s.coreDone id).emit (.value (coreMaster x.core) x.addr (BitVec.ofNat 64 (ofLe bs))) else s.coreFails id

/-- A host read ends: 0 with its bytes, 7 HOST_READ_ERROR, 8 HOST_READ_TIMEOUT, 9 LINK_LOST. -/
def State.readEnds (s : State) (p : RdPurpose) (st : Nat) (bs : List Byte) : State :=
  match p with
  | .use u => s.finishUse u st 0 bs
  | .walk w =>
    if st = 0 then s.modWalk w (fun x => { x with entry := some (BitVec.ofNat 64 (ofLe bs)) })
    else s.modWalk w (fun x => { x with failed := if st = 7 then 6 else st })
  | .ring q id n => if st = 0 then s.ringData q id n bs else if st = 9 then s.ringUnask q id n else s.ringFailed q id n
  | .flush q id => s.flushData q id st bs
  | .image op off => s.imageData op off st bs
  | .atom tf psn => if st = 0 then s.hostAtomRead tf psn bs else s.hostAtomFails tf psn st
  | .core id => s.coreRead id st bs

/-- A read of a function that was reset: its data is discarded (R166), and what waits for it ends as with a lost link. A
walk that serves another function too reads again for that. -/
def State.readDropped (s : State) (p : RdPurpose) : State :=
  match p with
  | .walk w => s.walkAgain w
  | _ => s.readEnds p 9 []

/-- An outstanding read ends and its tag is freed. -/
def State.readOutEnds (s : State) (h : HLink) (tag : Nat) (r : ReadOut) (st : Nat) : State :=
  let s := s.modTl h.val (fun t => { t with reads := tDel tag t.reads })
  if r.drop then s.readDropped r.purpose else s.readEnds r.purpose st (if st = 0 then r.got else [])

/-- Whether the CPLD that ends a read has been accepted (R154). -/
def State.lastCame (s : State) (h : HLink) (tag : Nat) : Bool :=
  (s.tl h.val).rxRsp.any (fun t => tlpF t.body 127 120 = 0x12 && tlpF t.body 111 100 = tag &&
    (tlpF t.body 95 95 = 1 || tlpF t.body 99 96 ≠ 0))

/-- READ_TIMEOUT: the tag is withheld for 16 × read_timeout; the CPLD that ends the read wins where it has been accepted
(R24, R154). -/
def doReadTimeout (h : HLink) (rtag : Fin 4096) (s : State) : State :=
  let lim := us (s.rf (.hlTimers h) 51 32)
  match tFind (s.tl h.val).reads rtag.val with
  | none => s
  | some r =>
    if s.clk ≤ r.sentAt + lim || s.lastCame h rtag.val then s
    else
      let s := (s.bump (.hlTlperr h) 31 16 1).wb (.hlStatus h) 0 true
      let s := s.modTl h.val (fun t => { t with withheld := tPut rtag.val (s.clk + 16 * lim) t.withheld })
      let fs := [(4, 27, 16, rtag.val), (5, 31, 0, r.len), (6, 63, 0, r.addr)]
      let s := if r.drop then s else match r.ctx with
        | some c => s.postCtx c 0x0308 fs
        | none => s.postMgmt h.val 0x0308 none fs
      s.readOutEnds h rtag.val r 8

/-- READ_TAG_RELEASE. -/
def doReadTagRelease (h : HLink) (rtag : Fin 4096) (s : State) : State :=
  match tFind (s.tl h.val).withheld rtag.val with
  | some t => if t ≤ s.clk then s.modTl h.val (fun x => { x with withheld := tDel rtag.val x.withheld }) else s
  | none => s

/-- WRITE_HISTORY_EXPIRY: an entry stops being live once its window has passed (R148, R165). -/
def doWriteHistoryExpiry (h : HLink) (wtag : BitVec 16) (s : State) : State :=
  match tFind (s.tl h.val).hist wtag.toNat with
  | some e => if s.liveEntry h e then s else s.modTl h.val (fun x => { x with hist := tDel wtag.toNat x.hist })
  | none => s

/-! ### Received transactions -/

/-- The oldest accepted transaction of a VC, where it has one of the given types; taking it frees its buffer space.
The DBELLs of a link are taken in their order too, whatever the domains of their queues (R160, log entry 163). -/
def State.takeTlp (s : State) (h : HLink) (rsp : Bool) (tys : List Nat) : Option (RxTlp × State) :=
  let q := if rsp then (s.tl h.val).rxRsp else (s.tl h.val).rxReq
  match q with
  | [] => none
  | t :: rest =>
    if tys.contains (tlpF t.body 127 120) then
      some (t, (s.modTl h.val (fun x => if rsp then { x with rxRsp := rest } else { x with rxReq := rest })).freeTlp h t)
    else none

/-- CPLD: a range of a read's bytes, its end, or its failure (R153, R154). Ranges that do not follow one another or do
not cover the read, which an adapter never sends (R153), end the read as an error. -/
def doCpld (h : HLink) (s : State) : State :=
  match s.takeTlp h true [0x12] with
  | none => s
  | some (t, s) =>
    let tag := tlpF t.body 111 100
    match tFind (s.tl h.val).reads tag with
    | none => s.bump (.hlTlperr h) 47 32 1
    | some r =>
      let n := tlpF t.body 94 82
      let got := r.got ++ (t.body.drop 16).take n
      let last := tlpF t.body 95 95 = 1
      let bad := tlpF t.body 99 96 ≠ 0 || tlpF t.body 81 70 ≠ r.got.length || decide (r.len < got.length) ||
        (last && decide (got.length ≠ r.len))
      if bad then (s.bump (.hlTlperr h) 31 16 1).readOutEnds h tag r 7
      else if last then s.readOutEnds h tag { r with got := got } 0
      else s.modTl h.val (fun x => { x with reads := tPut tag { r with got := got } x.reads })

/-- Whether a function may ring a queue's doorbell from a link (R164, R181). -/
def State.mayRing (s : State) (h : HLink) (c : Cq) (fn : Nat) : Bool :=
  decide (c.link = h.val) && (if c.admin then decide (fn < 31) && s.rb (.hlFnPriv h) fn else decide (c.fn = fn))

/-- DBELL: kept, or discarded and counted (R164, R178); a fenced domain's queue is lost, and counts as DISABLED
(R203, R373). -/
def doDbell (h : HLink) (s : State) : State :=
  match s.takeTlp h false [0x01] with
  | none => s
  | some (t, s) =>
    let q := tlpF t.body 111 92
    let fn := tlpF t.body 119 115
    let drop (d : Nat) (s : State) : State := s.bump (.cqCount (domOf d)) 63 32 1
    let report (s : State) : State := s.postMgmt h.val 0x0204 none [(2, 63, 44, q), (4, 43, 39, fn)]
    if s.dust || !s.rb (.hlCtrl h) 0 then drop (h.val / 4) s
    else match tFind s.cqs q with
      | none => report (drop (h.val / 4) s)
      | some c =>
        let d := s.cqDom c
        if !s.mayRing h c fn then report (drop d s)
        else if !s.domRuns d then drop d s
        else s.doorbell q (tlpF t.body 91 71) (tlpF t.body 70 51) fn
          ((List.range (tlpF t.body 50 48)).map (fun i => granOf ((t.body.drop (16 + 64 * i)).take 64)))

/-- REMOTE_WRITE_FAILED, and WRITE_FAILED to the initiator while the receive flow record exists (R285). -/
def State.writeFailedAbroad (s : State) (c : Nat) (n : WrNote) (len code : Nat) : State :=
  let s := s.postCtx c 0x0602 [(6, 63, 0, n.va), (5, 31, 0, len), (4, 47, 44, code), (3, 63, 32, n.first),
    (7, 63, 40, n.fa), (7, 39, 18, n.sctx)]
  if s.tfl.any (fun e => e.2.srcFa = n.fa && e.2.sctx = n.sctx && e.2.dctx = c)
  then s.enqueueTo c n.fa n.sctx (eventItem (0x03 * 2 ^ 56 + code * 2 ^ 36 + n.first) none n.va len 0 false)
  else s

/-- ERRRPT_WRITE_FAILED (R165, R285). -/
def doErrrptWriteFailed (h : HLink) (s : State) : State :=
  match (s.tl h.val).rxRsp with
  | [] => s
  | t0 :: _ =>
    if tlpF t0.body 111 108 ≠ 1 then s
    else match s.takeTlp h true [0x14] with
      | none => s
      | some (t, s) =>
        let tag := tlpF t.body 103 88
        let code := tlpF t.body 107 104
        let s := (s.bump (.hlTlperr h) 15 0 1).wb (.hlStatus h) 1 true
        let astray (s : State) : State :=
          (s.wb (.hlStatus h) 2 true).postMgmt h.val 0x0302 none
            [(4, 63, 48, tag), (4, 47, 44, code), (4, 43, 39, tlpF t.body 119 115)]
        match tFind (s.tl h.val).hist tag with
        | none => astray s
        | some e =>
          if !s.liveEntry h e then astray s
          else match e.ctx with
            | none =>
              let s := astray s
              (match e.tok with
                | .core id => s.coreFails id
                | .coreLate core => s.coreNote core
                | _ => s)
            | some c =>
              let s := (s.postCtx c 0x0301 [(4, 63, 48, tag), (4, 47, 44, code), (5, 31, 0, e.len), (6, 63, 0, e.addr)]).setSticky c
              match e.note with
              | some n => s.writeFailedAbroad c n e.len code
              | none => s

/-! ### Function reset (R166, R205, R255) -/

/-- What a queue's started commands leave behind is abandoned: what is queued is dropped, with MSG_ABORT where some of
a message has been sent (R282), and no completion is written. -/
def State.abandonOp (s : State) (id : Nat) : State :=
  let begun (i : SendItem) : Option SendItem := if i.op ≠ some id then some i else i.abort
  let cut (x : IFlow) : IFlow :=
    { x with queue := x.queue.filterMap begun, outst := x.outst.map (fun o => if o.op = some id then { o with op := none } else o) }
  let s := { s with ifl := s.ifl.map (fun (e : Nat × IFlow) => (e.1, cut e.2)), ops := tDel id s.ops }
  match tFind s.invals id with
  | some i => { s with invals := tDel id s.invals }.admitInvals i.dom
  | none => s

/-- A queue of a function that was reset. -/
def State.resetQueue (s : State) (q : Nat) : State :=
  match tFind s.cqs q with
  | none => s
  | some c =>
    let held := s.trappedUses q
    let mine := (s.ops.filter (fun e => e.2.queue = q && (match e.2.src with | .groom _ _ => false | _ => true))).map (fun e => e.1)
    let s := (s.mes.filter (fun e => e.2.kind = 1 && mine.contains e.2.op)).foldl (fun t e => t.freeMe e.1) s
    let s := { s with mes := s.mes.map (fun (e : Nat × Me) => if mine.contains e.2.op then (e.1, { e.2 with discard := true }) else e) }
    let s := mine.foldl (fun t id => t.abandonOp id) s
    let s := held.foldl (fun t u => t.finishUse u 0x0F 0 []) s
    let s := s.queueError q 0x23 (c.slot c.next)
    let s := s.modCq q (fun c => { c with oldest := c.next, open_ := [], fired := [], flushing := none })
    s.settleQueue q

/-- Whether an atomic on host memory is for a context whose function was reset and waits behind another (R166, R278). -/
def State.deadAtom (s : State) (a : HostAtom) : Bool :=
  (tFind s.tfl a.tf).any (fun t => s.ctxDead t.dctx) && s.atomWaits a

/-- ERRRPT_FUNCTION_RESET: no transaction is built for the function any more, its reads' data is discarded, its queues
enter ERROR, its event queues are disarmed, its contexts carry error_sticky, and its locks are abandoned (R166, R205,
R388). -/
def doErrrptFunctionReset (h : HLink) (s : State) : State :=
  match (s.tl h.val).rxRsp with
  | [] => s
  | t0 :: _ =>
    if tlpF t0.body 111 108 ≠ 2 then s
    else match s.takeTlp h true [0x14] with
      | none => s
      | some (t, s) =>
        let fn := tlpF t.body 119 115
        let s := s.wb (.hlStatus h) 3 true
        let keep (r : ReqTlp) : Bool := match r with
          | .wr w => w.fn ≠ fn
          | .rd r => r.fn ≠ fn
          | .intr f _ _ => f ≠ fn
        let lost := (s.tl h.val).reqQ.filter (fun r => !keep r)
        let cs := (s.ctxs.filter (fun e => fld (e.2.words.getD 2 0) 55 53 = h.val ∧ fld (e.2.words.getD 2 0) 60 56 = fn)).map (fun e => e.1)
        let s := cs.foldl (fun t c => (t.setSticky c).modCtx c (fun x => { x with dead := true })) s
        let s := s.modTl h.val (fun x => { x with
          reqQ := x.reqQ.filter keep,
          reads := x.reads.map (fun (e : Nat × ReadOut) => if e.2.fn = fn then (e.1, { e.2 with drop := true }) else e) })
        let s := { s with eqs := s.eqs.map (fun (e : Nat × Eq) =>
          if e.2.link = h.val ∧ e.2.fn = fn then (e.1, { e.2 with dead := true, armed := false }) else e) }
        let qs := (s.cqs.filter (fun e => !e.2.admin && e.2.link = h.val && e.2.fn = fn)).map (fun e => e.1)
        let s := s.modTl h.val (fun x => { x with heldCpls := x.heldCpls.filter (fun c => !qs.contains c.queue) })
        let s := qs.foldl (fun t q => t.resetQueue q) s
        let s := lost.foldl (fun t r => match r with
          | .wr w => (match w.tok with
            | .use u => t.finishUse u 9 0 []
            | .store g id => t.storeDone g id
            | .atom tf psn => t.hostAtomFails tf psn 9
            | .post p => { t with posts := tDel p t.posts }
            | .core id => t.coreFails id
            | .coreLate core => t.coreNote core
            | .none => t)
          | .rd r => t.readDropped r.purpose
          | .intr _ _ _ => t) s
        let s := s.putOffAtoms State.deadAtom
        let s := [0, 1].foldl (fun t d => if t.domRuns d then t.resetHolder d (.fn h.val fn) else t) s
        s.postMgmt h.val 0x0307 none [(4, 43, 39, fn)]

/-! ### Loss of the link (R110, R168, R169, R500) -/

/-- A posted write that was sent and not acknowledged is reported as indeterminate (R168). -/
def State.writeInDoubt (s : State) (h : HLink) (tag : Nat) (e : History) : State :=
  let fs := [(4, 63, 48, tag), (5, 31, 0, e.len), (6, 63, 0, e.addr)]
  match e.ctx with
  | some c => (s.postCtx c 0x0303 fs).setSticky c
  | none => s.postMgmt h.val 0x0303 none fs

/-- Whoever waited for the acknowledgement of a write on a lost link is told (R168, R169): 0x19 stands for it. -/
def State.writeLost (s : State) : Tok → State
  | .none => s
  | .use u => s.finishUse u 0x19 0 []
  | .store g id => s.storeDone g id
  | .atom _ _ => s
  | .post p => s.postDue p
  | .core id => s.coreFails id
  | .coreLate core => s.coreNote core

/-- The atomics in progress on a lost link's memory are put off (R286). -/
def State.atomsLost (s : State) (h : HLink) : State := s.putOffAtoms (fun _ a => a.link = h.val)

/-- Whether the buffer of a receive lies in the memory of a host link, as far as it is known: the context's link, where no
cached translation maps the buffer to HBM (R207, log entry 181). -/
def State.bufferOn (s : State) (h : HLink) (x : Me) : Bool :=
  let c := s.xlCtx x.ctx
  decide (c.link = h.val) && !(tGet [] s.xl (s.ctxStall x.ctx)).any (fun e => e.hbm && e.serves c.vmid c.asid x.buffer 1 (bit c.w7 0))

/-- BOUND receives whose bytes are outstanding as the link of their buffer is lost fail with LINK_LOST (R246). -/
def State.recvsLost (s : State) (h : HLink) : State :=
  let hit (x : Me) : Bool := decide (x.kind = 2) && !x.discard && s.bufferOn h x &&
    (decide (x.copying ≠ 0) || decide (x.counted + x.refused < if x.rndv then x.delivered else x.mlen))
  (s.mes.filter (fun e => hit e.2)).foldl (fun t e =>
    if e.2.rndv then (t.modMe e.1 (fun x => x.fail 9 0)).recvOver e.1 else t.recvFails e.1 9 0) s

/-- What is outstanding on a link is disposed of as its state leaves UP or its recovery begins (R168). Records,
completions and interrupts not yet sent go out after link-up, in their order. -/
def State.dropHost (s : State) (h : HLink) : State :=
  let t := s.tl h.val
  let x := s.hl h
  let entry (f : HTx) : Option (Nat × History) := f.wtag.bind (fun w => (tFind t.hist w).map (fun e => (w, e)))
  let doubt := x.replay.filterMap entry
  let sure := (t.hist.filter (fun e => e.2.acked.isSome && s.liveEntry h e.2)).length
  let intrs := x.replay.filter (fun f => tlpF f.body 127 120 = 0x13)
  let ccpls := x.replay.filter (fun f => f.rsp)
  let later (r : ReqTlp) : Bool := match r with
    | .wr w => (match w.tok with
      | .none => true
      | .post _ => true
      | _ => false)
    | .intr _ _ _ => true
    | .rd _ => false
  let s := s.bump (.llDiscard (.host h)) 63 32 x.replay.length
  let s := s.modHl h (fun x => x.fresh s.clk)
  let s := s.modTl h.val (fun t => { t with
    hist := [], reads := [], rspQ := [], reqQ := t.reqQ.filter later, mwrAcked := t.mwrSent })
  let s := doubt.foldl (fun a e => a.writeInDoubt h e.1 e.2) s
  let s := intrs.foldl (fun a f => a.postMgmt h.val 0x0304 none
    [(4, 38, 28, tlpF f.body 111 101), (5, 63, 32, tlpF f.body 95 64)]) s
  let sat (n : Nat) : Nat := min 65535 n
  let s := s.postMgmt h.val 0x0305 none [(2, 63, 48, sat t.reads.length), (2, 47, 32, sat doubt.length), (2, 31, 16, sat sure),
    (2, 15, 0, sat intrs.length), (3, 15, 0, sat ccpls.length)]
  let s := s.atomsLost h
  let s := doubt.foldl (fun a e => a.writeLost e.2.tok) s
  let s := t.reads.foldl (fun a e => a.readEnds e.2.purpose 9 []) s
  let s := (t.reqQ.filter (fun r => !later r)).foldl (fun a r => match r with
    | .wr w => a.writeLost w.tok
    | .rd r => a.readEnds r.purpose 9 []
    | .intr _ _ _ => a) s
  (s.recvsLost h).resetLinkHolders h.val

/-- A host link enters LOST (R110): cause 0 the window, 1 force_fence. It trains at once, unless force_fence holds it. -/
def State.loseHost (s : State) (h : HLink) (unit : Nat) : State :=
  let st := s.hlState h.val
  if st = 0 ∨ st = 7 then s
  else
    let s := (s.setLink (.host h) 7).wb (.llStatus (.host h)) 4 true
    let s := (s.showWidth (.host h) 0).wb (.llCtrl (.host h)) 3 false
    let s := (s.dropHost h).fault (.hostlink h) .fence 0x80 unit
    (s.lanesStop (.host h)).trainHost h

/-- HOST_LINK_DISABLE: enable is cleared (R500). -/
def doHostLinkDisable (h : HLink) (s : State) : State :=
  let s := s.wb (.llCtrl (.host h)) 0 false
  if s.hlState h.val = 0 then s
  else
    let s := (s.setLink (.host h) 0).showWidth (.host h) 0
    (s.wb (.llCtrl (.host h)) 3 false).dropHost h |>.lanesStop (.host h)

/-- The retrain window of a host link ends (R106). -/
def State.hostWindow (s : State) (h : HLink) : State :=
  match (s.hl h).retrain with
  | some r => if r.window + us 2000 < s.clk then s.loseHost h 0 else s
  | none => s

/-- force_fence is written (R110, R111): the link is declared LOST and held there. -/
def State.hostForce (s : State) (h : HLink) : State :=
  let s := s.wb (.llCtrl (.host h)) 1 true
  if s.hlState h.val = 7 then (s.modHl h (fun x => x.fresh s.clk)).lanesStop (.host h) else s.loseHost h 1

/-- A host link's enable is set (R98, R500): it trains; force_fence declares it LOST. -/
def State.enableHost (s : State) (h : HLink) : State :=
  let s := s.wb (.llCtrl (.host h)) 0 true
  if s.hlState h.val ≠ 0 then s
  else
    let s := (s.lanesReturn (.host h)).trainHost h
    if s.rb (.llCtrl (.host h)) 1 then s.loseHost h 1 else s

/-! ### Rows of both kinds of link -/

def doNakRepeatTimer : LinkId → State → State
  | .port p, s => s.portNakRepeat p
  | .host h, s => s.hostNakRepeat h
def doReplayTimeout : LinkId → State → State
  | .port p, s => s.portReplayTimeout p
  | .host h, s => s.hostReplayTimeout h
def doLinkUpStart : LinkId → State → State
  | .port p, s => s.portLinkUp p
  | .host h, s => s.hostLinkUp h
def doHelloTimeout : LinkId → State → State
  | .port p, s => s.portHelloTimeout p
  | .host h, s => s.hostHelloTimeout h
def doLinkRetrain : LinkId → RetrainTrigger → State → State
  | .port p, t, s => s.portTrigger p t
  | .host h, t, s => s.hostTrigger h t
def doRetrainLaneDrop : LaneId → State → State
  | .net p l, s => s.portLaneDrop p l
  | .host h l, s => s.hostLaneDrop h l
def doRetrainRepeat : LinkId → State → State
  | .port p, s => s.portRetrainRepeat p
  | .host h, s => s.hostRetrainRepeat h
def doRetrainWindowExpiry : LinkId → State → State
  | .port p, s => s.portWindow p
  | .host h, s => s.hostWindow h
/-- FORCE_FENCE (R108, R110, R111). -/
def doForceFence : LinkId → State → State
  | .port p, s => (s.wb (.llCtrl (.port p)) 1 true).fencePort p 1
  | .host h, s => s.hostForce h
def doLlRetrain : LinkId → State → State
  | .port p, s => s.portRetrainWrite p
  | .host h, s => s.hostRetrainWrite h
def doIdleDelayExpiry : LinkId → State → State
  | .port p, s => s.portIdle p
  | .host h, s => s.hostIdle h
def doLaneRetrain : LaneId → State → State
  | .net p l, s => s.netLaneRetrain p l
  | .host h l, s => s.hostLaneRetrain h l

end Sys2Proof.Machine
end

