-- ==== Sys2Proof/Machine/View.lean ====
section
/-! DEFINITION. What a register reads as: the stored value, or for the fields that report what the
device holds elsewhere, that (R173, R202, R403, R458 and the register tables). -/

namespace Sys2Proof.Machine

/-- The queue that CQ_QUERY selects, where it is homed in the domain (R206). -/
def State.shownQueue (s : State) (d : Nat) : Option Cq :=
  match tFind s.cqs (s.rf (.cqQuery (domOf d)) 19 0) with
  | some c => if s.cqDom c = d then some c else none
  | none => none

/-- CQ_INFO and CQ_PROGRESS of the selected queue: counts modulo 2^(k+1) (R173). -/
def State.cqInfoView (s : State) (d : Nat) : Word :=
  match s.shownQueue d with
  | some c => mkWord 64 [(63, 61, c.state), (60, 53, c.lastError), (52, 32, c.pi % 2 ^ (c.k + 1)), (31, 27, c.k)]
  | none => 0
def State.cqProgressView (s : State) (d : Nat) : Word :=
  match s.shownQueue d with
  | some c => mkWord 64 [(63, 43, c.fetch % 2 ^ (c.k + 1)), (42, 22, c.oldest % 2 ^ (c.k + 1))]
  | none => 0

/-- XL_STATUS: the cache's occupancy, the walks in flight, and the invalidations between steps 2 and 4 (R227). -/
def State.xlStatusView (s : State) (st : Nat) : Word :=
  let act := s.invals.filter (fun e => e.2.active && !e.2.acks.contains st)
  mkWord 64 [(47, 32, (tGet [] s.xl st).length), (23, 16, (s.walks.filter (fun e => e.2.stall = st)).length), (4, 0, act.length)]

/-- MT_STATUS: packets held for MSN order, and unexpected records of the stall's contexts. -/
def State.mtStatusView (s : State) (st : Nat) : Word :=
  let here (c : Nat) : Bool := (s.ctx? c).isSome && decide (s.ctxStall c = st)
  let held := ((s.tfl.filter (fun e => here e.2.dctx)).map (fun e => e.2.sends.length)).sum
  let ux := (s.mes.filter (fun e => e.2.kind = 3 && here e.2.ctx)).length
  setFld (setFld (s.reg (.mtStatus (stallOf st))) 63 40 (min 0xFFFFFF held)) 39 16 (min 0xFFFFFF ux)

/-- GR_STATUS: the Grooms that run, and the run queue's entries in use (R327). -/
def State.grStatusView (s : State) (st : Nat) : Word :=
  let busy := ((List.range 16).map (fun g => 2 ^ g * b2n (tGet {} s.grooms (16 * st + g)).run.isSome)).sum
  let q := s.runq st
  setFld (setFld (s.reg (.grStatus (stallOf st))) 63 48 busy) 47 39 (q.runs.length + s.reservedIn st)

/-- CL_STATUS: the engine's active streams and installed groups. -/
def State.clStatusView (s : State) (e : Engine) : Word :=
  setFld (setFld (s.reg (.clStatus e)) 63 54 (s.insts.filter (fun x => x.2.engine = e.val)).length)
    53 37 (s.groups.filter (fun x => x.2.engine = e.val)).length

/-- HK_STATUS: locks held and waiters queued. -/
def State.hkStatusView (s : State) (d : Nat) : Word :=
  let mine := s.locks.filter (fun e => e.1 / 65536 = d)
  setFld (setFld (s.reg (.hkStatus (domOf d))) 63 47 (mine.filter (fun e => e.2.owner.isSome)).length)
    46 38 (mine.map (fun e => e.2.waiters.length)).sum

/-- HL_STATUS: reads outstanding, live history entries, and the next write tag (R148, R152). -/
def State.hlStatusView (s : State) (h : HLink) : Word :=
  let t := s.tl h.val
  let w := setFld (s.reg (.hlStatus h)) 63 51 t.reads.length
  setFld (setFld w 50 34 (t.hist.filter (fun e => s.liveEntry h e.2)).length) 33 18 t.nextWtag

/-- LL_STATUS.replay_fill: unacknowledged flits, or 64-byte units. -/
def State.llStatusView (s : State) (l : LinkId) : Word :=
  setFld (s.reg (.llStatus l)) 52 40 (match l with
    | .port p => (s.port p).fill
    | .host h => ceilDiv (s.hl h).fill 64)

/-- A register as it reads now. Registers of a fenced or restarting domain's stopped parts show their stored values
(R373). -/
def State.view (s : State) (r : Reg) : Word :=
  if s.frozen r.block then (match r with | .pmFixed b => s.pmFixed b | _ => s.reg r)
  else match r with
  | .ntNow => s.nt
  | .paceStatus => setFld (s.reg r) 47 32 (s.rf .tkPaceTarget 15 0)
  | .cqInfo d => if s.domRuns d.val then s.cqInfoView d.val else s.reg r
  | .cqProgress d => if s.domRuns d.val then s.cqProgressView d.val else s.reg r
  | .xlStatus st => s.xlStatusView st.val
  | .mtStatus st => s.mtStatusView st.val
  | .grStatus st => s.grStatusView st.val
  | .clStatus e => s.clStatusView e
  | .hkStatus d => if s.domRuns d.val then s.hkStatusView d.val else s.reg r
  | .hkLock d n => (s.lock d.val n.toNat).word
  | .hlStatus h => s.hlStatusView h
  | .llStatus l => s.llStatusView l
  | .csStatus d => setFld (s.reg r) 20 0 (s.dirLines d.val)
  | .egShape p t => setFld (s.reg r) 31 0 (BitVec.ofInt 32 ((s.port p).shaper t.val).tokens).toNat
  | .rtMap p => setBit (s.reg r) 7 (s.portUsed p)
  | .pmFixed b => s.pmFixed b
  | _ => s.reg r

end Sys2Proof.Machine
end

