-- ==== Sys2Proof/Machine/Conditions.lean ====
section
/-! DEFINITION. The conditions that performance counters count (R476): whether each holds as the machine stands,
and what a counter gains as time passes. -/

namespace Sys2Proof.Machine

/-- Whether a filter passes a value: filters that are off pass all (R476). -/
def pmPass (w : Word) (v : Nat) : Bool := !bit w 61 || fld w 59 38 = v

/-- Whether a frame of an output VC is ready: flits of its packet have reached this port (R91). -/
def State.vcReady (s : State) (o : OutVc) : Bool := s.srcFlits o.src ≠ []

/-- Whether a frame that the port itself makes waits for credit of VC0. -/
def State.bypassStalled (s : State) (p : Port) (w : Word) : Bool :=
  let x := s.port p
  s.portState p = 3 && x.txBypass ≠ [] && (tFind x.outv 0).isNone && decide (x.poolFree 0 < 2) && pmPass w 0

/-- Whether a PORT condition holds for a selection. -/
def State.portCond (s : State) (p : Port) (w : Word) : Bool :=
  let x := s.port p
  let state := s.portState p
  let waits (ok : Nat → OutVc → Bool) : Bool :=
    x.outv.any (fun e => (state = 3 || (state = 5 && e.1 = 1)) && s.vcReady e.2 && ok e.1 e.2)
  let held (e : Nat) (o : OutVc) (ok : Bool) : Bool :=
    decide (2 ≤ e ∧ o.tc < 7) && s.frameOf p e o ≠ [] && !ok && pmPass w o.tc
  match fld w 15 0 with
  | 4 => waits (fun v o => s.frameOf p v o = [] && pmPass w v) || s.bypassStalled p w
  | 5 => waits (fun v o => held v o (s.gateOpen p o.tc (s.frameOf p v o).length))
  | 6 => waits (fun v o => held v o (x.shaperOk o.tc))
  | 7 => x.resend.isSome
  | 8 => s.portState p = 4
  | 9 => x.txIdle
  | _ => false

/-- Whether a HOSTLINK condition holds for a selection. -/
def State.hostCond (s : State) (h : HLink) (w : Word) : Bool :=
  let t := s.tl h.val
  match fld w 15 0 with
  | 7 => (s.hl h).resend.isSome
  | 8 => s.hlState h.val = 4
  | 9 => (s.hl h).txIdle
  | 0x14 => t.reads ≠ []
  | 0x15 => (match t.reqQ with | .wr _ :: _ => true | _ => false) &&
      (match tFind t.hist t.nextWtag with | some e => s.liveEntry h e | none => false)
  | _ => false

/-- Whether a STALL condition holds for a selection. -/
def State.stallCond (s : State) (st : Nat) (w : Word) : Bool :=
  match fld w 15 0 with
  | 0x28 => s.tfl.any (fun e => (s.ctx? e.2.dctx).isSome && s.ctxStall e.2.dctx = st && e.2.sends ≠ [] && pmPass w e.2.dctx)
  | 0x29 => s.waits.any (fun e => decide (e.1 < 1024) && keyStall e.1 = st)
  | 0x2A => (s.runq st).runs ≠ []
  | _ => false

/-- Whether a condition of a block's counter holds. -/
def State.pmCond (s : State) (b : Block) (w : Word) : Bool :=
  match b with
  | .port p => s.portCond p w
  | .hostlink h => s.hostCond h w
  | .stall st => s.stallCond st.val w
  | _ => false

/-- Whether a run's next instruction is a store that waits for a full store buffer, none of which can be performed now
(R342). -/
def State.storeWaits (s : State) (r : Run) : Bool :=
  r.live && decide (16 ≤ r.stores.length) && (nextStore [] r.stores).isNone && [0x11, 0x13].contains (fld (s.fetchWord r) 31 26)

/-- Whether a condition of a Groom's counter holds. -/
def State.groomCond (s : State) (g : GroomId) (w : Word) : Bool :=
  match (s.groom g).run with
  | none => false
  | some r =>
    pmPass w r.ref.ctx && match fld w 15 0 with
      | 0x104 => true
      | 0x105 => (match r.wait with
        | .ldv _ _ _ => true
        | .hamo _ _ _ _ => true
        | _ => s.storeWaits r)
      | 0x106 => (match r.wait with
        | .issue => true
        | .hlock _ _ => true
        | .wfe _ _ => true
        | _ => false)
      | _ => false

/-- Whether a selection counts a condition (R476). -/
def pmIsCond (w : Word) : Bool :=
  let c := fld w 15 0
  bit w 63 && (decide (4 ≤ c ∧ c ≤ 9) || c = 0x14 || c = 0x15 || decide (0x28 ≤ c ∧ c ≤ 0x2A) || decide (0x104 ≤ c ∧ c ≤ 0x106))

/-- A counter after `n` ns in which nothing else happened, its condition held as `holds` says: in level mode it adds
the time; in edge mode it adds 1 where the condition has begun since it was last observed. -/
def State.pmTick (s : State) (cnt : Reg) (w : Word) (holds : Bool) (n : Nat) : State :=
  if !pmIsCond w then s
  else if bit w 62 then (if holds then s.setReg cnt (pmAdd (s.reg cnt) n) else s)
  else
    let seen := tGet false s.pmSeen cnt.addr
    let s := { s with pmSeen := tSet false cnt.addr holds s.pmSeen }
    if holds && !seen then s.setReg cnt (pmAdd (s.reg cnt) 1) else s

/-- The counters whose selections differ from the reset value, with the registers that select for them. -/
def State.pmSelected (s : State) : List (Reg × Reg) :=
  s.regs.filterMap (fun e => match targetAt e.1 with
    | .reg (.pmSel b i) => some (.pmSel b i, .pmCnt b i)
    | .reg (.pmGsel g i) => some (.pmGsel g i, .pmGcnt g i)
    | _ => none)

/-- Whether the condition that a selection register names holds. -/
def State.pmNow (s : State) (sel : Reg) : Bool :=
  match sel with
  | .pmSel b _ => s.pmCond b (s.reg sel)
  | .pmGsel g _ => s.groomCond g (s.reg sel)
  | _ => false

/-- Every counter of a condition after time from `t0` to `t1`, in counts of the core's time (R476). -/
def State.pmPassTime (s : State) (t0 t1 : Nat) : State :=
  s.pmSelected.foldl (fun t (e : Reg × Reg) =>
    if t.frozen e.1.block then t else t.pmTick e.2 (t.reg e.1) (t.pmNow e.1) (t1 / 16 - t0 / 16)) s

/-- A counter's edge mode begins from the condition as it stands when the counter is selected. -/
def State.pmBase (s : State) (sel cnt : Reg) : State :=
  { s with pmSeen := tSet false cnt.addr (pmIsCond (s.reg sel) && s.pmNow sel) s.pmSeen }

end Sys2Proof.Machine
end

