-- ==== Sys2Proof/Machine/Power.lean ====
section
/-! DEFINITION. Supplies, pins, resets and the counting of starts (R36 to R41, R44, R447 to R454, R468), and the
loops for voltage and power (R21 to R23, R445, R446). What each step of a start applies is in Start.lean. -/

namespace Sys2Proof.Machine

/-! ### The Tack Room's registers -/

def State.setMode (s : State) (m : Nat) : State := s.wf .tkState 63 61 m
def State.setStep (s : State) (n : Nat) : State := s.wf .tkState 60 56 n
def State.step? (s : State) : Nat := s.rf .tkState 60 56

/-- The Tack Room's working state and the flash records changed. -/
def State.modTack (s : State) (f : Tack → Tack) : State := { s with tack := f s.tack }
def State.modFlash (s : State) (f : Flash → Flash) : State := { s with flash := f s.flash }
def State.modPins (s : State) (f : Pins → Pins) : State := { s with pins := f s.pins }

/-- The undercoat of a flash slot. -/
def Flash.slot (f : Flash) (n : Nat) : List Byte := if n = 0 then f.slotA else f.slotB

/-- The TK_ fields that show flash records and fuses (R455). -/
def State.showTk (s : State) : State :=
  let f := s.flash
  let s := (s.wf .tkState 55 48 f.failCount).wf .tkState 46 46 f.preferred
  let s := s.wf .tkState 45 42 (8 * b2n f.suspectB + 4 * b2n f.suspectA + 2 * b2n (decide (f.slotB = [])) + b2n (decide (f.slotA = [])))
  let s := s.wf .tkDustReason 63 48 f.reason
  s.setReg .tkSec (mkWord 64 [(63, 57, s.fuses.sec), (56, 56, b2n s.fuses.owner0.isSome), (55, 55, b2n s.fuses.revoked0),
    (54, 54, b2n s.fuses.owner1.isSome), (53, 53, b2n s.fuses.revoked1)])

/-! ### The core's loss and reset -/

/-- Everything outside the Tack Room at its reset value (R41, R453, R493); the Tack Room's registers stay. -/
def State.coreReset (s : State) : State :=
  { State.reset with
    pending := s.pending, regs := s.regs.filter (fun e => decide (e.1 < 0x100000)), tk := s.tk, coreOn := s.coreOn,
    serial := s.serial, draws := s.draws, frees := s.frees, out := s.out, pmFix := s.pmFix.filter (fun e => e.1 = 0),
    epochSeen := s.epochSeen, runs := s.runs, pins := s.pins, flash := s.flash, fuses := s.fuses,
    tack := { s.tack with coat := none, underHash := 0, burn := none, stopping := false } }

/-! ### Effective targets (R445, R446) -/

/-- TK_PACE_TARGET.target. -/
def State.target (s : State) : Nat := s.rf .tkPaceTarget 15 0

/-- A domain's effective target without the power cap: the target, or its thermal cap (R446). -/
def State.thermTarget (s : State) (d : Nat) : Nat :=
  let tj := toSigned 8 (if d = 0 then s.rf .tkTherm 63 56 else s.rf .tkTherm 55 48)
  let over_ := tj - (s.rf .tkTherm 47 40 : Int)
  if 0 < over_ ∧ s.coreOn then min s.target (max 500 (s.target - 50 * over_.toNat)) else s.target

/-- The power cap in force. -/
def State.powerCap (s : State) : Nat := s.rf .tkPower 15 0

/-- The conditions of THERMAL_CAP for each domain and of POWER_CAP, as they stand. -/
def State.capped (s : State) (k : Nat) : Bool :=
  if k < 2 then decide (s.thermTarget k < s.target) else s.coreOn && decide (s.powerCap < s.target)

/-- The effective targets shown anew, and the standing faults of TACK that begin or end with `was` (R446, R462). -/
def State.showCaps (s : State) (was : Nat → Bool) : State :=
  let eff (d : Nat) : Nat := if s.coreOn && s.powerCap ≠ 0xFFFF then min (s.thermTarget d) s.powerCap else s.thermTarget d
  let s := (s.wf .tkPaceTarget 31 16 (eff 0)).wf .tkPaceTarget 47 32 (eff 1)
  let begin_ (t : State) (k : Nat) : State :=
    if s.capped k && !was k then (if k < 2 then t.fault .tack .degrade 0x10 k else t.fault .tack .degrade 0x11 0) else t
  ([0, 1, 2].foldl begin_ s).wb (.ftStatus .tack) 1 ([0, 1, 2].any s.capped)

/-! ### The loss of main power, and failed starts -/

/-- MAIN_EN low: the regulators stop, the core's state is lost (R35, R39), and the caps end with the loops (R446, R462). -/
def State.mainOff (s : State) : State :=
  (({ s.coreReset with coreOn := false }.modPins (fun p => { p with mainEn := false, mainPg := false })).modTack
    (fun t => { t with dustStep := 0 })).showCaps s.capped

/-- A start has ended without success (R448, R449): a slot whose application had begun is suspect. -/
def State.endStart (s : State) : State :=
  let s := match s.tack.applied with
    | some 0 => s.modFlash (fun f => { f with suspectA := true })
    | some _ => s.modFlash (fun f => { f with suspectB := true })
    | none => s
  s.modTack (fun t => { t with starting := false, applied := none })

/-- The reason of a failed start recorded (R449). -/
def State.startReason (s : State) (reason : Nat) : State := s.modFlash (fun f => { f with reason := reason, inProgress := false })

/-- A start fails (R449): its reason is recorded, MAIN_EN goes low, and the pause of 1 s begins. -/
def State.failStart (s : State) (reason : Nat) : State :=
  let s := ((s.startReason reason).endStart.mainOff.setStep 0).modTack (fun t => { t with retryAt := some s.tk })
  s.showTk

/-- The core voltages at their start value, which the specification does not give: within R445's range. -/
def State.startVoltage (s : State) : State :=
  let (e, s) := s.free 16
  let (w, s) := s.free 16
  (s.wf .tkTherm 31 16 (1240 + e.toNat % 481)).wf .tkTherm 15 0 (1240 + w.toNat % 481)

/-! ### Starts (R449, R452) -/

/-- The point of counting passed: the start is marked, MAIN_EN is high, and the start stands at the first step that is
not done already (R36, R449). -/
def State.beginStart (s : State) : State :=
  let s := s.modFlash (fun f => { f with failCount := satAdd 255 f.failCount 1, inProgress := true })
  let s := s.modTack (fun t => { t with starting := true, stepAt := s.tk, retryAt := none, applied := none, tried := 0,
                                        dustStep := 0 })
  let s := (s.modPins (fun p => { p with mainEn := true })).wf .tkDustReason 47 32 0xFFFF
  let step := if !s.pins.mainPg then 4 else if s.coreOn then 6 else 5
  let s := ((s.setMode 0).setStep step).showTk
  if step = 6 then s.startVoltage.showCaps s.capped else s

/-- H0 trains at the end of Dust-sheet entry (R452), with the core voltages at their start value. -/
def State.dustUp (s : State) : State :=
  let s := { s with coreOn := true }.startVoltage
  ((s.showCaps s.capped).modTack (fun t => { t with dustStep := 5 })).trainHost 0

/-- Dust-sheet mode is entered (R452). -/
def State.enterDust (s : State) : State :=
  let s := s.modFlash (fun f => { f with oneStart := false })
  let s := s.modPins (fun p => { p with mainEn := true })
  let s := s.modTack (fun t => { t with starting := false, retryAt := none, stepAt := s.tk, dustStep := if s.pins.mainPg then 4 else 3 })
  let s := ((s.setMode 2).setStep 0).showTk
  if s.pins.mainPg && s.coreOn then s.dustUp else s

/-- The point of counting before step 3 (R449, R453). -/
def State.countPoint (s : State) : State :=
  let exempt := s.tack.leaving && (s.flash.oneStart || decide (s.flash.reason / 256 = 1))
  let s := s.modTack (fun t => { t with leaving := false, before := s.flash.failCount })
  if decide (3 ≤ s.flash.failCount) && !exempt then s.enterDust
  else (s.modFlash (fun f => { f with oneStart := false })).beginStart

/-- A Tack Room start (R36, R40, R449, R493): every register takes its reset value, and TK_ fields are loaded. -/
def State.tackStart (s : State) : State :=
  let f := s.flash
  let f := if f.inProgress then { f with reason := 0x0503, inProgress := false } else f
  let s := { s.coreReset with regs := [], pmFix := [], ftPosted := [], tk := 0, epochSeen := 0, flash := f,
                              tack := { leaving := s.tack.leaving } }
  (s.setStep 2).showTk

/-- VIN_MAIN's level as the Tack Room finds it when it starts: below 1 V the flash record of GRAVE is cleared, unless the
auxiliary latch still holds GRAVE (R40; log entry 38). -/
def State.mainSeen (s : State) (vinMain : Bool) : State :=
  let s := s.modPins (fun p => { p with vinMain := vinMain })
  if !s.pins.graveLatch && !vinMain then s.modFlash (fun f => { f with grave := none }) else s

/-- VIN_AUX_RISE. -/
def doVinAuxRise (vinMain : Bool) (s : State) : State :=
  if s.pins.vinAux then s
  else
    let s := s.modPins (fun p => { p with vinAux := true, vinMain := vinMain })
    if s.pins.resetL then (s.mainSeen vinMain).tackStart else s

/-- RESET_L_RISE. -/
def doResetLRise (s : State) : State :=
  if s.pins.resetL then s
  else
    let s := s.modPins (fun p => { p with resetL := true })
    if s.pins.vinAux then s.tackStart else s

/-- COLD_RESET: everything but the FAULT pair, the thermal-trip latch and MAIN_EN is reset; a start in progress is
recorded as INTERRUPTED (R41, R449). -/
def doColdReset (s : State) : State :=
  if !s.pins.resetL then s
  else
    let s := s.modPins (fun p => { p with resetL := false })
    if !s.pins.vinAux then s
    else
      let dust := s.mode = 2 || s.mode = 3
      let s := if s.tack.starting then (s.startReason 0x0503).endStart else s
      { s.coreReset with regs := [], pmFix := [], ftPosted := [], tack := { leaving := dust } }

/-- GRAVE latched on the auxiliary supply, and shown on the FAULT pair and THERM_TRIP_L (R44, R47). The watchdog's
indication overrides it. -/
def State.showGrave (s : State) (code : Nat) : State :=
  let s := s.modPins (fun p => { p with graveLatch := true, trip := p.trip || decide (code = 0x01F0) })
  if s.tack.dead then s else s.modPins (fun p => { p with faultP := false, faultN := true })

/-- TACK_ROOM_READY. Where main power was lost before, the pause of R449 goes on. -/
def doTackRoomReady (vinMain : Bool) (addr : BitVec 2) (s : State) : State :=
  if !s.pins.vinAux || !s.pins.resetL || s.tack.up || s.tack.dead || s.step? ≠ 2 then s
  else
    let s := ((s.mainSeen vinMain).modPins (fun p => { p with addr1 := addr.getLsbD 1, addr0 := addr.getLsbD 0 })).modTack
      (fun t => { t with up := true })
    match s.flash.grave with
    | some g => (((s.mainOff.showGrave g.1).setMode 4).setStep 0).wb (.ftStatus .tack) 3 true
    | none =>
      let s := s.modPins (fun p => { p with faultP := true, faultN := false })
      if s.tack.retryAt.isSome then s.setStep 0 else s.countPoint

/-- Counts of Tack Room time in `n` ms. -/
def ms (n : Nat) : Nat := 16000000 * n

/-- Whether more than `n` ms have passed since the step in progress began: its bound is exceeded (R447, R449). -/
def State.stepOver (s : State) (n : Nat) : Bool := decide (s.tack.stepAt + ms n < s.tk)

/-- MAIN_PG_RISE: MAIN_PG is ignored while MAIN_EN is low (R37). After its bound it is too late. -/
def doMainPgRise (s : State) : State :=
  if !s.pins.mainEn || s.pins.mainPg || !s.pins.vinAux then s
  else
    let s := s.modPins (fun p => { p with mainPg := true, vinMain := true })
    if !s.tack.up then s
    else if s.tack.starting && s.step? = 4 && s.stepOver 100 then s.failStart 0x0101
    else if s.mode = 2 && s.tack.dustStep = 3 && s.stepOver 100 then s.mainOff.setMode 3
    else if s.tack.starting && s.step? = 4 then (s.setStep 5).modTack (fun t => { t with stepAt := s.tk })
    else if s.mode = 2 && s.tack.dustStep = 3 then s.modTack (fun t => { t with dustStep := 4, stepAt := s.tk })
    else s

/-- MAIN_PG_TIMEOUT: the start fails, or Dust-sheet mode goes on without main power (R37, R452). -/
def doMainPgTimeout (s : State) : State :=
  if !s.tack.up || s.pins.mainPg || s.tk ≤ s.tack.stepAt + ms 100 then s
  else if s.tack.starting && s.step? = 4 then s.failStart 0x0101
  else if s.mode = 2 && s.tack.dustStep = 3 then s.mainOff.setMode 3
  else s

/-- START_RETRY: the pause of 1 s has ended (R449). -/
def doStartRetry (s : State) : State :=
  match s.tack.retryAt with
  | none => s
  | some t => if !s.tack.up || s.tk < t + ms 1000 then s
              else (s.modTack (fun t => { t with retryAt := none, startAt := s.tk })).countPoint

/-- MAIN_POWER_LOST (R39, R451): MAIN_PG or VIN_MAIN falls while MAIN_EN is high, in reset and before MAIN_PG rose too. A
start in step 2, which RESET_L continued with MAIN_EN high, fails before it is counted. -/
def doMainPowerLost (vinMain : Bool) (s : State) : State :=
  if !s.pins.mainEn then s
  else
    let s := (s.modPins (fun p => { p with vinMain := vinMain })).modFlash (fun f => { f with mainLost := true })
    let s := if s.tack.up then s.fault .tack .note 2 0 else s
    if s.tack.starting then s.failStart 0x0103
    else if !s.tack.up && s.pins.resetL && !s.tack.dead then
      ((s.startReason 0x0103).mainOff.modTack (fun t => { t with retryAt := some s.tk })).showTk
    else if s.mode = 1 || s.mode = 2 then s.mainOff.setMode 5
    else s.mainOff

/-- VIN_AUX_LOST (R40, R449): everything stops; the mark of a start in progress stays in flash. -/
def doVinAuxLost (s : State) : State :=
  if !s.pins.vinAux then s
  else
    let s := if s.tack.starting then s.endStart else s
    let s := s.mainOff
    { s with regs := [], pmFix := [], ftPosted := [], tack := {},
             pins := { vinMain := s.pins.vinMain, resetL := s.pins.resetL } }

/-- A GRAVE recorded by the Warden in the TACK block (R458, R468). -/
def State.graveRecord (s : State) (code unit : Nat) (first : Bool) : State :=
  if !s.tack.up then s
  else
    let s := s.bump (.ftCode .tack) 15 0 1
    if !first then s
    else
      let s := if s.rf (.ftStatus .tack) 3 0 = 0 then (s.wf (.ftCode .tack) 63 48 code).wf (.ftCode .tack) 31 24 unit else s
      (s.wf (.ftCode .tack) 47 32 code).wb (.ftStatus .tack) 3 true

/-- A GRAVE fault (R44, R468): latched, main power stopped, the code recorded. The first one latched is the one
recorded; a later one only adds to the count. -/
def State.grave (s : State) (code unit : Nat) : State :=
  if !s.pins.vinAux then s
  else match s.flash.grave with
    | some _ =>
      let s := if s.pins.mainEn then s.mainOff else s
      (s.showGrave code).graveRecord code unit false
    | none =>
      let s := (s.modFlash (fun f => { f with grave := some (code, unit) })).showGrave code
      let s := if s.tack.starting then s.endStart else s
      let s := s.mainOff.modTack (fun t => { t with retryAt := none })
      let s := if s.tack.up then ((s.setMode 4).setStep 0).showTk else s
      s.graveRecord code unit true

/-- THERMAL_TRIP: the comparators act under any condition (R44). -/
def doThermalTrip (sensor : Fin 24) (s : State) : State := s.grave 0x01F0 sensor.val

/-- GRAVE_FAULT (R463): regulator and Yard faults are those of a powered core. -/
def doGraveFault (k : GraveKind) (unit : BitVec 8) (s : State) : State :=
  match k with
  | .regulator => if s.coreOn then s.grave 0x01F1 unit.toNat else s
  | .reference => s.grave 0x01F2 0
  | .yard => if s.coreOn then s.grave 0x01F3 unit.toNat else s
  | .fuse => s.grave 0x01F4 0

/-- WATCHDOG_EXPIRY (R431, R450): the Warden has not serviced its watchdog for 50 ms, so the Tack Room has run that long at
least (log entry 137): both FAULT pins and MAIN_EN go low, and the expiry and the failed start are recorded. -/
def doWatchdogExpiry (s : State) : State :=
  if !s.tack.up ∨ s.tk ≤ ms 50 then s
  else
    let s := if s.tack.starting then (s.startReason 0x0501).endStart else s
    let s := (s.modFlash (fun f => { f with watchdog := true })).mainOff.showTk
    (s.modTack (fun t => { t with dead := true, up := false, retryAt := none })).modPins
      (fun p => { p with faultP := false, faultN := false })

/-! ### Pace, voltage and power (R21 to R23, R445, R446) -/

/-- A domain's sensors (R42). -/
def domSensors (d : Nat) : List Nat := if d = 0 then [0, 1, 2, 3, 4, 5, 6, 7, 16, 17, 18, 19] else [8, 9, 10, 11, 12, 13, 14, 15, 20, 21, 22, 23]

/-- The hottest of some sensors, in °C. -/
def hottest (tj : List (BitVec 8)) (is : List Nat) : Int := is.foldl (fun m i => max m (tj.getD i 0x80).toInt) (-128)

/-- PACE_INTERVAL: each domain's pace is the lowest reading of its 16 monitors over an interval of 1 µs of network time
(R21, R23). -/
def doPaceInterval (east west : List (BitVec 16)) (s : State) : State :=
  if s.clk < s.paceAt + us 1 ∨ east.length ≠ 16 ∨ west.length ≠ 16 then s
  else
  let s := { s with paceAt := s.clk }
  let low (ms : List (BitVec 16)) : Nat := match ms with
    | [] => 0
    | m :: rest => rest.foldl (fun a x => min a x.toNat) m.toNat
  let one (d : Nat) (ms : List (BitVec 16)) (s : State) : State :=
    let v := low ms
    let s := if d = 0 then s.wf .paceStatus 15 0 v else s.wf .paceStatus 31 16 v
    if v < 1750 ∧ s.rb .paceStatus (48 + d) = false then (s.wb .paceStatus (48 + d) true).fault .global .note 0x10 d else s
  let s := one 0 east s
  if s.dust then s.wf .paceStatus 31 16 0 else one 1 west s

/-- A core voltage after one step of the loop, in units of 0.5 mV: e / 2, at most 20 either way; where e / 2 lies half
way between two steps, which one is taken is open (R445). -/
def vStep (v : Nat) (e : Int) (half : Bool) : Nat :=
  let d := max (-20) (min 20 (e / 2 + (if e % 2 = 1 ∧ half then 1 else 0)))
  (max 1240 (min 1720 ((v : Int) + d))).toNat

/-- VOLTAGE_LOOP_TICK: every 10 µs the sensors are read, and each domain's core voltage moves towards its effective target
(R42, R445). -/
def doVoltageLoopTick (tj : List (BitVec 8)) (s : State) : State :=
  if !s.coreOn ∨ s.tk < s.tack.voltAt + us 10 ∨ tj.length ≠ 24 then s
  else
  let s := s.modTack (fun t => { t with voltAt := s.tk })
  let was := s.capped
  let top (d : Nat) : Nat := (BitVec.ofInt 8 (hottest tj (domSensors d))).toNat
  let s := ((s.wf .tkTherm 63 56 (top 0)).wf .tkTherm 55 48 (top 1)).modTack
    (fun t => { t with tjMax := (BitVec.ofInt 8 (hottest tj (List.range 24))).toNat })
  let s := s.showCaps was
  let (half, s) := s.free 2
  let e (eff pace : Nat) : Int := (eff : Int) - (pace : Int)
  let s := s.wf .tkTherm 31 16 (vStep (s.rf .tkTherm 31 16) (e (s.rf .tkPaceTarget 31 16) (s.rf .paceStatus 15 0)) (bit half 0))
  if s.dust then s
  else s.wf .tkTherm 15 0 (vStep (s.rf .tkTherm 15 0) (e (s.rf .tkPaceTarget 47 32) (s.rf .paceStatus 31 16)) (bit half 1))

/-- POWER_CAP_TICK: the end of each 1 ms (R446). -/
def doPowerCapTick (watts : BitVec 16) (s : State) : State :=
  if !s.coreOn ∨ s.tk < s.tack.powAt + ms 1 then s
  else
  let s := s.modTack (fun t => { t with powAt := s.tk })
  let was := s.capped
  let w := watts.toNat
  let limit := s.rf .tkPower 63 48
  let cap := s.powerCap
  let s := s.wf .tkPower 47 32 w
  let cap1 := if limit < w then
      max 500 ((if cap = 0xFFFF then max (s.thermTarget 0) (s.thermTarget 1) else cap) - 10)
    else if w + 10 < limit ∧ cap ≠ 0xFFFF then (if s.target ≤ cap + 10 then 0xFFFF else cap + 10)
    else cap
  (s.wf .tkPower 15 0 cap1).showCaps was

/-- REGULATORS_UP (R36, R452); after the bound of step 5 it is too late. -/
def doRegulatorsUp (s : State) : State :=
  if !s.tack.up || !s.pins.mainPg || s.coreOn then s
  else if s.tack.starting && s.step? = 5 && s.stepOver 5 then s.failStart 0x0102
  else if s.tack.starting && s.step? = 5 then
    ((State.startVoltage { s with coreOn := true } |>.showCaps s.capped).setStep 6).modTack (fun t => { t with stepAt := s.tk })
  else if s.mode = 2 && s.tack.dustStep = 4 then s.dustUp
  else s

/-! ### Pins (R48, R461) -/

/-- Every block (R457). -/
def allBlocks : List Block :=
  [.tack, .global] ++ (List.finRange 2).map .domain ++ (List.finRange 16).map .stall ++ (List.finRange 64).map .port ++
    (List.finRange 8).map .hostlink ++ (List.finRange 8).map .coll ++ (List.finRange 2).map .hitch

/-- Whether ALERT_L is low (R461). -/
def State.alertLow (s : State) : Bool :=
  s.coreOn && s.pins.resetL && allBlocks.any (fun b => decide (s.rf (.ftStatus b) 2 1 ≠ 0))

/-- Lanes in use of a link. -/
def State.lanesInUse (s : State) : LinkId → List Nat
  | .port p => (s.port p).use
  | .host h => (s.hl h).use

/-- Whether a lane is ACTIVE beside the lanes that its link uses: it stays in electrical idle (R105). -/
def State.laneSpare (s : State) (n : LaneId) : Bool :=
  let use := s.lanesInUse (laneLink n)
  s.laneState n = 2 && use ≠ [] && !use.contains (laneNum n)

/-- What a serial transmitter's pins show (R48). -/
inductive TxPin where
  | highZ | electricalIdle | active
  deriving DecidableEq, Repr

/-- The state of a lane's transmit pins (R48): high-impedance without main power, electrical idle in reset and before
lane training. -/
def State.txPin (s : State) (n : LaneId) : TxPin :=
  let h0 := match n with
    | .host h l => decide (h.val = 0 ∧ l.val < 4)
    | .net _ _ => false
  if !s.coreOn then .highZ
  else if s.dust && !h0 then .highZ
  else if !s.pins.resetL || (s.mode = 0 && decide (s.step? < 9)) then .electricalIdle
  else
    let st := s.laneState n
    let test := s.sendsPattern n || 3 ≤ s.rf (.laneCtrl n) 9 7
    if st = 0 || st = 6 || (s.lane n).txIdle || s.nearLoop n || s.laneSpare n || (st = 5 && !(test && !s.laneForced n))
    then .electricalIdle else .active

/-- Whether a receiver's termination is connected (R48). -/
def State.rxTerm (s : State) (n : LaneId) : Bool :=
  s.coreOn && (!s.dust || match n with
    | .host h l => decide (h.val = 0 ∧ l.val < 4)
    | .net _ _ => false)

/-- What a management output shows (R48): not driven, or driven to a level. An open-drain output is driven low or not at
all. -/
inductive PinDrive where
  | highZ | low | high
  deriving DecidableEq, Repr
def driven (b : Bool) : PinDrive := if b then .high else .low

/-- FAULT_P and FAULT_N, MAIN_EN, ALERT_L, THERM_TRIP_L and PPS_OUT (R48): high-impedance without VIN_AUX. -/
def State.faultPin (s : State) (n : Bool) : PinDrive :=
  if s.pins.vinAux then driven (if n then s.pins.faultN else s.pins.faultP) else .highZ
def State.mainEnPin (s : State) : PinDrive := if s.pins.vinAux then driven s.pins.mainEn else .highZ
def State.alertPin (s : State) : PinDrive := if s.pins.vinAux && s.alertLow then .low else .highZ
def State.tripPin (s : State) : PinDrive := if s.pins.vinAux && s.pins.trip then .low else .highZ
def State.ppsOutPin (s : State) : PinDrive :=
  if s.pins.vinAux then driven (s.coreOn && s.pins.resetL && !s.dust && s.ppsOut.isSome) else .highZ

/-- What TDO offers (R48): the TAP is powered with main power, and boundary scan is then available, in reset too. -/
inductive TdoPin where
  | highZ | boundaryScan
  deriving DecidableEq, Repr
def State.tdoPin (s : State) : TdoPin := if s.pins.vinAux && s.coreOn then .boundaryScan else .highZ

/-- Whether SMB_CLK and SMB_DAT are served (R48). -/
def State.smbServed (s : State) : Bool := s.pins.vinAux && s.pins.resetL && s.tack.up

/-- The 7-bit SMBus address, by the straps as read when the Tack Room became ready: 0x60 + 2a + b (R45). -/
def State.smbAddr (s : State) : BitVec 7 := BitVec.ofNat 7 (0x60 + 2 * b2n s.pins.addr1 + b2n s.pins.addr0)

end Sys2Proof.Machine
end

