-- ==== Sys2Proof/Machine/Domain.lean ====
section
/-! DEFINITION. The directory of a domain's context store (R365 to R371), and the loss of a domain (R372
to R374, R376, R464, R467). Memory is held as every agent observes it, so the directory's states decide
who holds a line, and never its value (R370). -/

namespace Sys2Proof.Machine

/-! ### What a lost domain loses -/

/-- Every register of a block whose reading is made up when it is read. -/
def madeUp (d : Nat) : List Reg :=
  let sts := (List.range 8).map (fun i => stallOf (8 * d + i))
  [.cqInfo (domOf d), .cqProgress (domOf d), .hkStatus (domOf d)] ++
    sts.flatMap (fun st => [.xlStatus st, .mtStatus st, .grStatus st]) ++
    (List.range 4).map (fun i => .clStatus (engineOf (4 * d + i)))

/-- Blocks whose registers stop with a domain: its stalls and reduction engines. -/
def stopped (d : Nat) : List Block :=
  (List.range 8).map (fun i => .stall (stallOf (8 * d + i))) ++ (List.range 4).map (fun i => .coll (engineOf (4 * d + i)))

/-- The stopped parts' registers hold the values they have now (R373, R475). -/
def State.holdValues (s : State) (d : Nat) : State :=
  let s := (stopped d).foldl (fun t b => t.pmFreeze b) s
  (madeUp d).foldl (fun t r => t.setReg r (s.view r)) s

/-- Whether a queue is homed in a domain. -/
def State.queueIn (s : State) (d q : Nat) : Bool := match tFind s.cqs q with | some c => s.cqDom c = d | none => false

/-- Whether the purpose of a host read is work of a domain. -/
def State.purposeIn (s : State) (d : Nat) : RdPurpose → Bool
  | .use u => (tFind s.uses u).any (fun x => x.stall / 8 = d)
  | .walk w => (tFind s.walks w).any (fun x => x.stall / 8 = d)
  | .ring q _ _ => s.queueIn d q
  | .flush q _ => s.queueIn d q
  | .image op _ => (tFind s.ops op).any (fun o => o.stall / 8 = d)
  | .atom tf _ => (tFind s.tfl tf).any (fun t => s.ctxDom t.dctx = d)
  | .core id => s.coreAccs.any (fun x => x.id = id && x.core = d)

/-- Whether a posted write that waits is work of a domain: for a context of it, of its Steward, a record of an event queue
homed there, or a completion in the ring of an admin queue homed there. -/
def State.writeIn (s : State) (h d : Nat) (w : WrReq) : Bool :=
  (match w.ctx with
    | some c => s.ctxDom c = d
    | none => (match w.tok with
      | .core id => s.coreAccs.any (fun x => x.id = id && x.core = d)
      | .coreLate core => decide (core = d)
      | _ => false)) ||
  s.eqs.any (fun e => e.2.home = d && e.2.link = h && decide (e.2.base ≤ w.addr ∧ w.addr < e.2.base + 65536)) ||
  s.cqs.any (fun e => e.2.admin && e.2.link = h && decide (s.cqDom e.2 = d) &&
    decide (e.2.base ≤ w.addr ∧ w.addr < e.2.base + 64 * 2 ^ e.2.k))

/-- A host link's transaction layer without a domain's work: what has been handed to the link layer completes there,
and the data of its reads is discarded (R373). -/
def State.tlWithout (s : State) (d h : Nat) (x : HostTl) : HostTl :=
  { x with
    reqQ := x.reqQ.filter (fun r => match r with
      | .wr w => !s.writeIn h d w
      | .rd r => !s.purposeIn d r.purpose
      | .intr f v n => !(tFind s.eqs n).any (fun q => q.home = d && q.link = h && decide (q.fn = f ∧ q.vector = v)))
    reads := x.reads.map (fun (e : Nat × ReadOut) => if s.purposeIn d e.2.purpose then (e.1, { e.2 with drop := true }) else e)
    heldRecs := x.heldRecs.filter (fun r => !(tFind s.eqs r.eq).any (fun q => q.home = d))
    heldCpls := x.heldCpls.filter (fun c => !s.queueIn d c.queue) }

/-- Packets that a lost domain's send engines have not begun to send are lost with it. -/
def State.injectWithout (s : State) (d : Nat) : Tab (List Pkt) :=
  let keep (e : Nat × List Pkt) : List (Nat × List Pkt) :=
    if e.1 / 32 ≠ d then [e]
    else if (tFind s.worms (1024 + e.1)).isSome then [(e.1, e.2.take 1)] else []
  s.inject.flatMap keep

/-- Shared stall scratch without a lost domain's (R374). -/
def State.bufWithout (s : State) (d : Nat) : List Host.Cell :=
  s.buf.filter (fun c => match targetAt c.1 with | .scratch n _ => decide (n.val / 8 ≠ d) | _ => true)

/-- Everything homed in a lost domain (R374). Locks and shares stay as they are until the restart; nothing reaches
them. -/
def State.dropDomain (s : State) (d : Nat) : State :=
  let home (c : Nat) : Bool := s.ctxDom c = d
  let inj := s.injectWithout d
  let ht := s.ht.map (fun (e : Nat × HostTl) => (e.1, s.tlWithout d e.1 e.2))
  let awaited (p : Nat) : Bool := ht.any (fun e =>
    e.2.reqQ.any (fun r => match r with | .wr w => decide (w.tok = .post p) | _ => false) || e.2.hist.any (fun w => w.2.tok = .post p))
  { s.groomsLost d with
    ht := ht, inject := inj, buf := s.bufWithout d, posts := s.posts.filter (fun e => awaited e.1),
    cqs := s.cqs.filter (fun e => !decide (s.cqDom e.2 = d)), eqs := s.eqs.filter (fun e => !decide (e.2.home = d)),
    ops := s.ops.filter (fun e => !decide (e.2.stall / 8 = d)), trigs := s.trigs.filter (fun t => !home t.ctx),
    uses := s.uses.filter (fun e => !decide (e.2.stall / 8 = d)), xfers := s.xfers.filter (fun e => !decide (e.2.stall / 8 = d)),
    walks := s.walks.filter (fun e => !decide (e.2.stall / 8 = d)), xl := s.xl.filter (fun e => !decide (e.1 / 8 = d)),
    invals := s.invals.filter (fun e => !decide (e.2.dom = d)), mes := s.mes.filter (fun e => !home e.2.ctx),
    coreAccs := s.coreAccs.filter (fun x => !(decide (x.core = d) && decide (x.stage ≠ .onPath))), due := s.due.filter (fun x => !home x.ctx), ifl := s.ifl.filter (fun e => !home e.2.ctx), hatoms := s.hatoms.filter (fun a => !(tFind s.tfl a.tf).any (fun t => home t.dctx)),
    tfl := s.tfl.filter (fun e => !home e.2.dctx), groups := s.groups.filter (fun e => !decide (e.1 / 65536 = d)),
    insts := s.insts.filter (fun e => !decide (e.2.dom = d)), collUp := s.collUp.filter (fun e => !decide (e.1 / 4 = d)),
    collDown := s.collDown.filter (fun e => !decide (e.1 / 4 = d)), ctxs := s.ctxs.filter (fun e => !home e.1) }

/-- INVALIDATEs that waited only for the stalls of a lost domain complete (R227). -/
def State.ackRest (s : State) : State :=
  s.invals.foldl (fun t e => (List.range 16).foldl (fun t n => if e.2.acks.contains n then t else t.invalAck n e.1) t) s

/-- The surviving domain reports the loss to every management event queue homed in it (R467). -/
def State.reportLoss (s : State) (d n cause agent : Nat) : State :=
  (List.range 8).foldl (fun t h =>
    let r := Reg.hlMgmtEq (hlinkOf h)
    if t.rb r 63 && (tFind t.eqs (t.rf r 17 0)).any (fun q => q.home = 1 - d) then
      t.postMgmt h 0x0802 none [(2, 63, 63, d), (2, 61, 56, cause), (2, 47, 40, agent), (3, 31, 0, n)]
    else t) s

/-- A domain is fenced (R373, R467): the members in the other domain of the streams that are lost complete with
DELIVERY_FAILED, or with what precedes it (R313, R316). -/
def State.fenceDomain (s : State) (d cause agent : Nat) : State :=
  if !s.domRuns d then s
  else
    let n := (s.ctxs.filter (fun e => s.ctxDom e.1 = d)).length
    let s := s.holdValues d
    let r := Reg.csStatus (domOf d)
    let s := ((s.wf r 63 62 1).wf r 61 56 cause).wf r 47 40 agent
    let lost := (s.insts.filter (fun e => e.2.dom = d)).flatMap (fun e => e.2.losses 0x0B)
    let s := s.dropDomain d
    let s := lost.foldl (fun t e => t.done e.1 e.2.1 e.2.2) s
    let s := s.ackRest
    let s := s.fault (.domain (domOf d)) .fence (0x80 + cause) agent
    if s.domRuns (1 - d) then s.reportLoss d n cause agent else s

/-- A failure of R371 or R464: the domain is lost; during a restart the restart is abandoned (R376), and before the
start has succeeded the start fails (R449). -/
def State.domainFailure (s : State) (d cause agent : Nat) : State :=
  let r := Reg.csStatus (domOf d)
  if s.tack.starting then (if s.coreOn then s.failStart 0x0403 else s)
  else if s.domState d = 2 then
    let s := ((s.wf r 63 62 1).wf r 61 56 6).wf r 47 40 agent
    { s with restart := tDel d s.restart }.fault (.domain (domOf d)) .fence 0x86 agent
  else s.fenceDomain d cause agent

/-- COHERENCE_TIMEOUT (R371): an agent has not answered a request for the whole of `dt`, at least coh_timeout, in a domain that
runs or is being restarted (R376). -/
def doCoherenceTimeout (d : Dom) (agent : BitVec 8) (dt : Nat) (s : State) : State :=
  if s.domState d.val ≠ 1 ∧ us (s.rf (.csCtrl d) 15 0) ≤ dt then s.domainFailure d.val 2 agent.toNat else s

/-- STEWARD_WATCHDOG (R371): the Steward, which serviced it last at `served` in the core's time, or not since it started, has
not serviced it for 10 ms. The timer runs while the domain is RUNNING only. -/
def doStewardWatchdog (d : Dom) (served : Nat) (s : State) : State :=
  if s.domRuns d.val ∧ served ≤ s.clk ∧ max served (tGet 0 s.stewardAt d.val) + us 10000 < s.clk then s.domainFailure d.val 4 14 else s

/-! ### Failures that the parts report -/

/-- An error of a running domain's store that costs it nothing: HBM_CORRECTED of a channel, CACHE_CORRECTED of a stall. -/
def State.corrected (s : State) (d : Dom) (b : Block) (low unit : Nat) : State :=
  if s.domRuns d.val then s.fault b .note low unit else s

/-- CONTEXT_STORE_FAILURE (R371, R464). An uncorrectable error in a cached line loses the domain where the line is held
DIRTY; elsewhere the line is dropped as if evicted and counted as CACHE_CORRECTED. -/
def doContextStoreFailure (d : Dom) (c : StoreFailure) (agent : BitVec 8) (s : State) : State :=
  let lost (cause : Nat) : State := s.domainFailure d.val cause agent.toNat
  let st := domStall d agent.toNat
  match c with
  | .protocol => lost 1
  | .directoryError => lost 3
  | .hbmUncorrectable => lost 0x10
  | .hitchInternal => lost 0x11
  | .cacheUncorrectable => lost 0x12
  | .hbmCorrected => s.corrected d (.domain d) 0x10 agent.toNat
  | .cacheCorrected => s.corrected d (.stall st) 0x30 0
  | .cacheLine line =>
    let k := lineKey d.val line
    (match tFind (s.holders k) (agent.toNat % 8) with
      | none => s
      | some .dirty => lost 0x12
      | some _ => (s.lineDrop k (agent.toNat % 8)).corrected d (.stall st) 0x30 0)

/-- DIRECTORY_REQUEST (R367). A store to a UNIQUE line makes it DIRTY with no request. A request that the line's recorded
state does not allow is a PROTOCOL failure (R371); a read that meets a line which a hint has just installed in the reader's
own cache reached the directory with the hint, and leaves it DIRTY (R370). -/
def doDirectoryRequest (d : Dom) (cache : Fin 8) (req : DirReq) (line : Nat) (s : State) : State :=
  if !s.domRuns d.val then s
  else
    let k := lineKey d.val line
    let c := cache.val
    let mine := tFind (s.holders k) c
    let fail := s.domainFailure d.val 1 c
    match req with
    | .read =>
      if tFind s.hints k = some c then { s with hints := tDel k s.hints }
      else if mine.isSome then fail else s.lineShare d.val c k
    | .readForOwnership => if mine.isSome then fail else s.lineOwn d.val c k
    | .upgrade => if mine = some .shared ∨ mine = some .lead then s.lineOwn d.val c k else fail
    | .store => if mine = some .unique then s.lineOwn d.val c k else s
    | .evict => if mine.isNone then fail else s.lineDrop k c

/-- UNCACHED_READ. -/
def doUncachedRead (d : Dom) (line : Nat) (s : State) : State :=
  if s.domRuns d.val then s.lineRead (lineKey d.val line) else s

/-- Bytes of a line written where the mask has ones. -/
def State.maskWrite (s : State) (a : Nat) (mask : BitVec 64) (data : BitVec 512) : State :=
  (List.range 64).foldl (fun t i => if mask.getLsbD i then t.hbmWrite (a + i) [BitVec.ofNat 8 (fld data (8 * i + 7) (8 * i))] else t) s

/-- UNCACHED_WRITE, of a whole line or a part of it. -/
def doUncachedWrite (d : Dom) (line : Nat) (mask : BitVec 64) (data : BitVec 512) (s : State) : State :=
  if s.domRuns d.val then
    let k := lineKey d.val line
    (s.maskWrite (64 * k) mask data).lineWrite k
  else s

/-- WRITE_HINT (R369, R370): the line is installed DIRTY in the named cache, or the hint degrades. -/
def doWriteHint (d : Dom) (line : Nat) (data : BitVec 512) (target : Fin 8) (ready : Bool) (s : State) : State :=
  if s.domRuns d.val then
    let k := lineKey d.val line
    let s := (s.maskWrite (64 * k) (BitVec.allOnes 64) data).lineWrite k
    if ready && s.rb (.csCtrl d) 16 && decide ((s.cacheLines d.val target.val).length < 131072) then
      let s := (s.makeRoom d.val k).setHolders k [(target.val, .dirty)]
      { s with hints := tPut k target.val s.hints }
    else s.bump (.csCount d) 47 32 1
  else s

/-- HITCH_ATOMIC by the domain's Steward (R378, R379, R381): a naturally aligned location of the domain's HBM; the status
and the old value are returned. A refused operation changes nothing and returns BAD_OP; a reserved code, and an address
that is not one of the domain's own HBM, are no atomic of the unit. -/
def doHitchAtomic (d : Dom) (addr : BitVec 64) (code : BitVec 11) (operand compare : BitVec 64) (s : State) : State :=
  let a := addr.toNat
  let n := atomSize (code.toNat / 16 % 8)
  if !s.domRuns d.val || !atomOk code.toNat || !inHbm a || domOfHbm a ≠ d.val || a % n ≠ 0 then s
  else if atomBad code.toNat then s.emit (.hitchStatus d 0x14)
  else
    let r := s.hitchAtom a code.toNat operand.toNat compare.toNat
    (r.1.emit (.hitchStatus d 0)).emit (.value (.steward d) a (BitVec.ofNat 64 r.2))

end Sys2Proof.Machine
end

