-- ==== Sys2Proof/Machine/RegRules.lean ====
section
/-! DEFINITION. The rules of a register write that hold for every register: reserved fields, reserved encodings
and the access codes (R7, R8, with the reserved encodings that the registers' own tables name). -/

namespace Sys2Proof.Machine

/-- Whether a value puts ones only into fields of the register. -/
def Reg.fieldsOk (r : Reg) (v : Word) : Bool :=
  (v &&& ~~~(r.fields.foldl (fun (m : Word) f => m ||| mask 64 f.hi f.lo) 0#64)) = 0#64

/-- Whether a value lies from `lo` to `hi`. -/
def within (lo hi v : Nat) : Bool := decide (lo ≤ v ∧ v ≤ hi)

/-- Whether an event code is one of the block's, in the mode given (R476). -/
def pmEventOk (b : Block) (level : Bool) (code : Nat) : Bool :=
  match b with
  | .port _ => within 1 9 code && (!level || decide (4 ≤ code))
  | .hostlink _ => within 7 9 code || within 0x14 0x15 code || (within 0x11 0x13 code && !level)
  | .stall _ => within 0x28 0x2A code || (within 0x21 0x27 code && !level)
  | _ => false

/-- The same for the counters of a Groom. -/
def pmGroomOk (level : Bool) (code : Nat) : Bool :=
  within 0x104 0x106 code || (!level && (within 0x101 0x103 code || within 0x107 0x108 code))

/-- Whether a value holds no reserved encoding of the register, whatever the machine's state. -/
def Reg.encOk (r : Reg) (v : Word) : Bool :=
  let f (hi lo : Nat) : Nat := fld v hi lo
  match r with
  | .laneCtrl _ => decide (f 9 7 ≤ 4)
  | .laneTxeq (.net _ _) => decide (f 31 26 ≤ 16 ∧ f 25 20 ≤ 24)
  | .laneTxeq (.host _ _) => decide (f 25 20 ≤ 16)
  | .laneRxeq (.net _ _) => decide (f 36 32 ≤ 15)
  | .laneRxeq (.host _ _) => decide (f 36 32 ≤ 7)
  | .laneTest n => within 1 64 (f 23 16) && (f 15 10 = 0 || within 10 40 (f 15 10)) && decide (f 6 4 ≤ 4) &&
      !(laneHost n && decide (f 6 4 = 1))
  | .laneMargin n => decide (f 57 56 ≤ (if laneHost n then 0 else 2)) &&
      decide (-32 ≤ toSigned 8 (f 55 48) ∧ toSigned 8 (f 55 48) ≤ 31) && decide (f 47 40 ≠ 0x80)
  | .llCtrl l => decide (1 ≤ f 27 24) && decide (f 22 20 ≤ (match l with | .port _ => 2 | .host _ => 4))
  | .llCredit _ => decide (f 39 32 + f 31 24 + 8 * f 23 16 + f 63 52 ≤ 2304) && within (f 23 16) (f 23 16 + f 63 52) (f 51 40)
  | .llCreditHost h =>
      let top := (Reg.llCreditHost h).reset
      decide (f 63 52 ≤ fld top 63 52 ∧ f 51 36 ≤ fld top 51 36 ∧ f 35 24 ≤ fld top 35 24 ∧ f 23 8 ≤ fld top 23 8)
  | .llTimers _ => decide (250 ≤ f 51 32 ∧ 1 ≤ f 31 20 ∧ 250 ≤ f 19 0)
  | .rtCtrl => decide (1 ≤ f 47 42 ∧ 1 ≤ f 5 0)
  | .hrtLimit _ _ => !(bit v 0 && (bit v 1 || bit v 2))
  | .hlCtrl _ => decide (f 15 12 ≤ 4)
  | .hlTimers _ => decide (10 ≤ f 51 32) && within 10 1000 (f 15 0)
  | .cqCtrl _ => within 1 5 (f 63 60)
  | .rmaCtrl _ => decide (1 ≤ f 63 60) && within 1 256 (f 59 51) && within (f 59 51) 256 (f 50 42) && within 2 1000 (f 27 18) &&
      decide (1 ≤ f 17 12 ∧ 1 ≤ f 11 4)
  | .clInstall _ => within 1 3 (f 62 60)
  | .grCtrl _ => within 1 1000 (f 25 16)
  | .csCtrl _ => within 1 1000 (f 15 0)
  | .ntCtrl => within 1 1000 (f 41 32) && decide (1 ≤ f 31 16)
  | .ntSeed => decide (f 30 0 < 1152921505)
  | .egWeight _ => (List.range 6).all (fun t => decide (1 ≤ f (8 * t + 7) (8 * t)))
  | .egShape _ _ => !bit v 63 || decide (1 ≤ f 61 48 ∧ 1 ≤ f 43 32)
  | .pmSel b _ => pmEventOk b (bit v 62) (f 15 0)
  | .pmGsel _ _ => pmGroomOk (bit v 62) (f 15 0)
  | .pmDump _ => within 1 1000000 (f 51 32)
  | .pmSample _ => within 8 24 (f 39 35)
  | .tkState => decide (f 63 61 ≤ 5)
  | _ => true

/-- Whether a telemetry FIFO's ring lies where it may (R481). -/
def State.tmPlaceOk (s : State) (d : Dom) (i : Fin 16) (v : Word) : Bool :=
  let base := fld (s.reg (.tmBase d i)) 63 16 * 65536
  if bit v 62 then s.inShare d.val 8 base 65536 else s.allMemory (fld v 61 59) base 65536

/-- Whether a value leaves no base above its limit, and places a telemetry FIFO's ring where it may lie. -/
def State.pairOk (s : State) (r : Reg) (v : Word) : Bool :=
  match r with
  | .hrtBase h i => !bit v 0 || decide (fld v 63 12 ≤ s.rf (.hrtLimit h i) 63 12)
  | .hrtLimit h i => !s.rb (.hrtBase h i) 0 || decide (s.rf (.hrtBase h i) 63 12 ≤ fld v 63 12)
  | .ratBase c i => !bit v 0 || decide (fld v 63 12 ≤ s.rf (.ratLimit c i) 63 12)
  | .ratLimit c i => !s.rb (.ratBase c i) 0 || decide (s.rf (.ratBase c i) 63 12 ≤ fld v 63 12)
  | .tmCtrl d i => !bit v 63 || s.rb r 63 || s.tmPlaceOk d i v
  | _ => true

/-- Whether a value turns on nothing that R75 keeps off in service. -/
def State.serviceOk (s : State) (r : Reg) (v : Word) : Bool :=
  match r with
  | .laneCtrl n => !(s.inService (laneLink n) && ((bit v 6 && !s.rb r 6) || (fld v 9 7 ≠ 0 && decide (s.rf r 9 7 = 0))))
  | .laneTest n => !(s.inService (laneLink n) && bit v 7 && !s.rb r 7)
  | _ => true

/-- Whether a register may take a value as the machine stands. -/
def State.encOk (s : State) (r : Reg) (v : Word) : Bool := r.encOk v && s.pairOk r v && s.serviceOk r v

/-- A field's value after a write of `v` over `old` (R8). An SC bit that is set stays set; a WO field reads 0. -/
def Acc.after (a : Acc) (warden : Bool) (old v width : Nat) : Nat :=
  match a with
  | .ro => old
  | .rw => v
  | .w1c => old &&& ((2 ^ width - 1) ^^^ v)
  | .w1s => old ||| v
  | .rc => old
  | .wo => 0
  | .sc => old ||| v
  | .tw => if warden then v else old

/-- A register's value after a write that is not refused. -/
def Reg.after (r : Reg) (warden : Bool) (old v : Word) : Word :=
  r.fields.foldl (fun (w : Word) f =>
    setFld w f.hi f.lo (f.acc.after warden (fld old f.hi f.lo) (fld v f.hi f.lo) (f.hi + 1 - f.lo))) old

/-- Whether only the Warden may change the register: a write from another master is discarded (R8, R433). -/
def Reg.wardenOnly (r : Reg) : Bool :=
  r.block = .tack || (match r with
    | .ratBase _ _ => true
    | .ratLimit _ _ => true
    | _ => false)

end Sys2Proof.Machine
end

