-- ==== Sys2Proof/Machine/Registers.lean ====
section
/-! DEFINITION. Reads and writes of the device address space (R6 to R8, R485 to R492): what a write of each register
starts, and the side effects of reads. -/

namespace Sys2Proof.Machine

/-! ### Standing faults (R459) -/

/-- Whether a port is in QUARANTINE, or in a retrain that returns to it (R101, R104). -/
def State.quarantined (s : State) (p : Port) : Bool :=
  decide (s.portState p = 5) || (decide (s.portState p = 4) && (s.port p).retrain.any (fun r => decide (r.back = 5)))

/-- The class bits that a block's standing conditions hold set (R459, R462, R463). -/
def State.standing (s : State) (b : Block) : Nat :=
  match b with
  | .tack => 2 * b2n ([0, 1, 2].any s.capped)
  | .global => 2 * b2n s.excluded
  | .domain d => 4 * b2n (decide (s.domState d.val = 1))
  | .stall st => 4 * b2n ((List.range 16).any (fun g => (tGet {} s.grooms (16 * st.val + g)).fenced))
  | .port p => 4 * b2n (decide (s.portState p = 6)) + 2 * b2n (s.quarantined p)
  | .hostlink h => 4 * b2n (decide (s.hlState h.val = 7))
  | .coll e => 4 * b2n (s.engOff.contains e.val)
  | .hitch _ => 0

/-- A register takes the value that a write gives it under the access codes (R8). -/
def State.store (s : State) (m : Master) (r : Reg) (v : Word) : State :=
  s.setReg r (r.after (decide (m = .warden)) (s.reg r) v)

/-! ### The mailbox's registers (R438, R440) -/

/-- First address of MB_BUF (R438). -/
def mbBufBase : Nat := 0x110000

/-- MB_BUF as it stands, by offset. -/
def State.mbBuf (s : State) : List Host.Cell :=
  (s.buf.filter (fun c => decide (mbBufBase ≤ c.1 ∧ c.1 < mbBufBase + 0x10000))).map (fun (c : Nat × Byte) => (c.1 - mbBufBase, c.2))

/-- MB_BUF cleared. -/
def State.clearMbBuf (s : State) : State :=
  { s with buf := s.buf.filter (fun c => !decide (mbBufBase ≤ c.1 ∧ c.1 < mbBufBase + 0x10000)) }

/-- MB_ARG[i]. -/
def mbArgs : List Reg := [.mbArg 0, .mbArg 1, .mbArg 2, .mbArg 3]

/-- The claim ends, by release or lapse: MB_STATUS, MB_ARG and MB_BUF are cleared, and a command in progress runs on
without showing its result (R438). -/
def State.endClaim (s : State) : State :=
  let s := (mbArgs.foldl (fun t r => t.setReg r 0) (s.setReg .mbStatus 0)).clearMbBuf
  let hush (c : MbCmd) : MbCmd := { c with quiet := true }
  { s with mbox := { s.mbox with holder := none, run := s.mbox.run.map hush, urgent := s.mbox.urgent.map hush } }

/-- A mailbox command's result shown in MB_STATUS, with its output in MB_BUF. -/
def State.mbShow (s : State) (result detail : Nat) (out : List Byte) : State :=
  let s := s.setReg .mbStatus (mkWord 64 [(63, 56, result), (55, 48, detail), (31, 0, out.length)])
  { s with buf := memWrite s.buf mbBufBase out }

/-- The command in progress ends (R440): its result is shown unless an urgent command has overtaken it or its claim
has ended; go reads 0 once no command is in progress. -/
def State.mbDone (s : State) (result detail : Nat) (out : List Byte) : State :=
  match s.mbox.run with
  | none => s
  | some c =>
    let show_ := !c.quiet && !s.mbox.overtaken
    let s := if show_ then s.mbShow result detail out else s
    let s := { s with mbox := { s.mbox with run := none, since := s.tk } }
    if s.mbox.urgent.isSome then s else { s.wb .mbCmd 63 false with mbox := { s.mbox with overtaken := false } }

/-- The urgent command ends. -/
def State.mbUrgentDone (s : State) (result detail : Nat) (out : List Byte) : State :=
  match s.mbox.urgent with
  | none => s
  | some c =>
    let s := if c.quiet then s else s.mbShow result detail out
    let s := { s with mbox := { s.mbox with urgent := none, since := s.tk } }
    if s.mbox.run.isSome then s else { s.wb .mbCmd 63 false with mbox := { s.mbox with overtaken := false } }

/-- Codes of the mailbox commands (R439), and the two that are urgent (R440). -/
def mbCodes : List Nat :=
  [0x01, 0x02, 0x03, 0x04, 0x10, 0x11, 0x12, 0x13, 0x20, 0x21, 0x22, 0x23, 0x30, 0x31, 0x32, 0x40, 0x41, 0x42, 0x43]
def mbUrgent (code : Nat) : Bool := code = 0x20 || code = 0x22

/-- A write of MB_CMD by the holder: with go, the command takes its inputs and is in progress; an unknown code ends
at once (R439, R440, R442). -/
def State.mbGo (s : State) (v : Word) : State :=
  let code := fld v 7 0
  let busy := s.rb .mbCmd 63
  let c : MbCmd := ⟨code, mbArgs.map s.reg, s.mbBuf, false⟩
  if !bit v 63 then s.wf .mbCmd 7 0 code
  else if !busy then
    let s := { s.setReg .mbCmd (mkWord 64 [(63, 63, 1), (7, 0, code)]) with mbox := { s.mbox with run := some c } }
    if mbCodes.contains code then s else s.mbDone 1 0 []
  else if mbUrgent code && s.mbox.urgent.isNone then
    { s.wf .mbCmd 7 0 code with mbox := { s.mbox with urgent := some c, overtaken := true } }
  else s

/-- MB_CLAIM as a master reads it. -/
def State.claimWord (s : State) (m : Master) : Word :=
  match s.mbox.holder with
  | none => 0
  | some x => mkWord 64 [(63, 63, b2n (decide (x = m))),
      (9, 8, match x with | .fn _ _ => 1 | .steward _ => 2 | .warden => 0),
      (7, 0, match x with | .fn l f => 32 * l.val + f.val | .steward d => d.val | .warden => 0)]

/-- A read of MB_CLAIM (R438): the mailbox, while free, is claimed. The Warden serves it and does not claim. -/
def State.claimRead (s : State) (m : Master) : Word × State :=
  let s := if s.mbox.holder.isNone && !decide (m = .warden) then
      { s with mbox := { s.mbox with holder := some m, since := s.tk } }
    else s
  (s.claimWord m, s)

/-! ### What writes start -/

/-- Whether a lane's link drops it: the link runs without the lane, or retrains. -/
def State.linkLosesLane (s : State) : LaneId → State
  | .net p l => s.portLaneLost p l.val
  | .host h l => s.hostLaneLost h l.val

/-- LANE_CTRL written (R80, R81). -/
def State.writeLaneCtrl (s : State) (m : Master) (n : LaneId) (v : Word) : State :=
  let r := Reg.laneCtrl n
  let was := s.laneOn n
  let s := s.store m r (setBit v 4 false)
  let s := if was && !bit v 3 then (s.laneOff n).linkLosesLane n
    else if !was && bit v 3 then s.laneTrainStart n else s
  let s := if s.laneState n = 1 ∧ (s.lane n).txIdle = true ∧ !s.laneForced n then
      (s.modLane n (fun x => { x with txIdle := false })).sendNext n else s
  let s := (s.testState n).sendPattern n
  if bit v 4 then doLaneRetrain n s else s

/-- LANE_TEST written (R74 to R76): a new inject_rate counts its bits from now on. -/
def State.writeLaneTest (s : State) (m : Master) (n : LaneId) (v : Word) : State :=
  let was := s.rb (.laneTest n) 7
  let s := if fld v 15 10 = s.rf (.laneTest n) 15 10 then s else s.modLane n (fun x => { x with injAt := s.clk, injNo := 0 })
  let s := s.store m (.laneTest n) (setBit v 9 false)
  let s := if was && !bit v 7 then s.checkerStops n else s
  let s := (s.testState n).sendPattern n
  if bit v 9 then doInjectNow n s else s

/-- LL_CTRL of a port written (R108 to R111). -/
def State.writePortCtrl (s : State) (m : Master) (p : Port) (v : Word) : State :=
  let r := Reg.llCtrl (.port p)
  let old := s.reg r
  let s := s.store m r (setFld v 4 3 0)
  let freed := s.portState p = 6 && bit v 2 && !bit v 1 && (bit old 1 || !bit old 2)
  if !bit v 0 then doPortDisable p s
  else if !bit old 0 then s.enablePort p
  else
    let s := if bit v 1 && !bit old 1 then doForceFence (.port p) s else if freed then s.trainPort p else s
    let s := if fld v 22 20 ≠ fld old 22 20 then doLinkRetrain (.port p) .widthChanged s else s
    let s := if bit v 3 then doLlRetrain (.port p) s else s
    if bit v 4 then doLlRehello p s else s

/-- LL_CTRL of a host link written. -/
def State.writeHostCtrl (s : State) (m : Master) (h : HLink) (v : Word) : State :=
  let r := Reg.llCtrl (.host h)
  let old := s.reg r
  let s := s.store m r (setBit v 3 false)
  if !bit v 0 then doHostLinkDisable h s
  else if !bit old 0 then s.enableHost h
  else
    let s := if bit v 1 && !bit old 1 then doForceFence (.host h) s
      else if !bit v 1 && bit old 1 && s.hlState h.val = 7 then s.trainHost h else s
    let s := if fld v 22 20 ≠ fld old 22 20 then doLinkRetrain (.host h) .widthChanged s else s
    if bit v 3 then doLlRetrain (.host h) s else s

/-- Whether an exception table may not be written by software now (R426). -/
def State.excLocked (s : State) : Bool := s.newBank.isSome || s.oldBank.isSome

/-- RT_EXC_WRITE (R138, R139, R426). -/
def doRtExcWrite (st : Stall) (i : Fin 4096) (v : Word) (s : State) : State :=
  let r := Reg.rtExc st i
  if s.excLocked || !r.fieldsOk v then s.noteReserved (.stall st) 0
  else
    let s := s.setReg r v
    if s.faPossible (256 * fld v 15 0) then s else s.noteReserved (.stall st) 0

/-- CQ_CTRL written (R206). -/
def State.writeCqCtrl (s : State) (d : Dom) (v : Word) : State :=
  let q := BitVec.ofNat 20 (fld v 19 0)
  match fld v 63 60 with
  | 1 => doCqStop d q s
  | 2 => doCqStart d q s
  | 3 => doCqResume d q s
  | 4 => doCqAbort d q s
  | _ => doCqFlush d q s

/-- CL_INSTALL written (R291, R316). -/
def State.writeClInstall (s : State) (m : Master) (e : Engine) (v : Word) : State :=
  let s := s.store m (.clInstall e) (setBit v 63 false)
  let g := BitVec.ofNat 16 (fld v 15 0)
  if !bit v 63 then s
  else match fld v 62 60 with
    | 1 => doClInstall e g s
    | 2 => doClRemove e g s
    | _ => doClAbort e g s

/-- CL_CTRL written: enable reads 0 while the engine is fenced (R465). -/
def State.writeClCtrl (s : State) (m : Master) (e : Engine) (v : Word) : State :=
  let off := s.engOff.contains e.val
  let s := s.store m (.clCtrl e) (setBit (setBit v 17 false) 16 (bit v 16 && !off))
  if bit v 17 then doClUnfence e s else s

/-- GR_CTRL written (R349, R465): off stays 1 for a fenced Groom that the write does not reset. -/
def State.writeGrCtrl (s : State) (m : Master) (st : Stall) (v : Word) : State :=
  let s := s.store m (.grCtrl st) (setFld v 63 48 0)
  let s := (List.finRange 16).foldl (fun t g => if bit v (48 + g.val) then doGroomReset ⟨st, g⟩ t else t) s
  (List.finRange 16).foldl (fun t g => if (t.groom ⟨st, g⟩).fenced then t.wb (.grCtrl st) (32 + g.val) true else t) s

/-- NT_CTRL written (R397): a chip that becomes the root has distance 0; one that stops being the root looks for a
parent. -/
def State.writeNtCtrl (s : State) (m : Master) (v : Word) : State :=
  let was := s.isRoot
  let s := s.store m .ntCtrl v
  if bit v 63 && !was then { s.wf .ntStatus 55 50 0 with ppsAt := s.clk, ppsNt := none }
  else if !bit v 63 && was then s.chooseParent else s

/-- Whether a gate register belongs to the operating bank (R407). -/
def State.gateLocked (s : State) : Reg → Bool
  | .egGcl p b _ => s.operGate p = b
  | .egGateBase p b => s.operGate p = b
  | _ => false

/-- TM_CTRL written (R481, R484): setting valid releases both banks and starts at slot 0 of lap 0; while valid is 1
only valid and release act. -/
def State.writeTmCtrl (s : State) (d : Dom) (i : Fin 16) (v : Word) : State :=
  let r := Reg.tmCtrl d i
  let old := s.reg r
  if bit old 63 then
    let rel (w : Word) (b : Nat) : Word := if bit v (45 + b) then setBit w (43 + b) true else w
    s.setReg r (setBit (rel (rel old 0) 1) 63 (bit v 63))
  else
    let w := setFld (setFld old 63 47 (fld v 63 47)) 46 45 0
    if bit v 63 then { s.setReg r (setFld (setFld w 44 43 3) 42 32 0) with tmWrote := tDel (16 * d.val + i.val) s.tmWrote }
    else s.setReg r w

/-- A write of a register that is not refused, with what it starts. -/
def State.regEffect (s : State) (m : Master) (r : Reg) (v : Word) : State :=
  match r with
  | .laneCtrl n => s.writeLaneCtrl m n v
  | .laneTest n => s.writeLaneTest m n v
  | .laneTxeq n =>
    let s := s.store m r v
    if s.laneState n = 1 then s else s.forcedTaps n
  | .laneRxeq n => ((s.store m r v).adaptOn n).showEq n
  | .laneMargin n =>
    let s := s.store m r (setBit v 63 false)
    if bit v 63 then doMarginScanStart n s else s
  | .llCtrl (.port p) => s.writePortCtrl m p v
  | .llCtrl (.host h) => s.writeHostCtrl m h v
  | .cqCtrl d => s.writeCqCtrl d v
  | .mtCancel d =>
    if bit v 63 then doMtCancel d (BitVec.ofNat 20 (fld v 60 41)) (BitVec.ofNat 20 (fld v 40 21)) s else s.store m r v
  | .clInstall e => s.writeClInstall m e v
  | .clCtrl e => s.writeClCtrl m e v
  | .grCtrl st => s.writeGrCtrl m st v
  | .grResume st =>
    let s := s.store m r (setBit v 63 false)
    if bit v 63 then doGrResume st s else s
  | .ntCtrl => s.writeNtCtrl m v
  | .ntSeed => doNtSeedArm v s
  | .egGateCtrl p => doGateSwitchRequest p v s
  | .tmBase d i => if s.rb (.tmCtrl d i) 63 then s else s.store m r v
  | .tmCtrl d i => s.writeTmCtrl d i v
  | .tkPaceTarget => (s.store m r v).showCaps s.capped
  | .tkTherm => (s.store m r v).showCaps s.capped
  | .tkPower => (s.store m r v).showCaps s.capped
  | .pmFixed b => s.pmFixedWrite b v
  | .pmSel b i => (s.store m r v).pmBase r (.pmCnt b i)
  | .pmGsel g i => (s.store m r v).pmBase r (.pmGcnt g i)
  | .ftStatus b =>
    let s := s.store m r v
    s.setReg r (s.reg r ||| BitVec.ofNat 64 (s.standing b))
  | _ => s.store m r v

/-- The unit that a refused write's NOTE names: the lane of a lane's register, else 0 (R463). -/
def Reg.noteUnit : Reg → Nat
  | .laneCtrl n => laneNum n
  | .laneTxeq n => laneNum n
  | .laneRxeq n => laneNum n
  | .laneTest n => laneNum n
  | .laneMargin n => laneNum n
  | .laneStatus n => laneNum n
  | .laneUpatHi n => laneNum n
  | .laneErrcnt n => laneNum n
  | .laneBitcnt n => laneNum n
  | .laneEye n => laneNum n
  | _ => 0

/-- Whether the mailbox discards a master's write of a register (R438). -/
def State.mbDiscards (s : State) (m : Master) : Reg → Bool
  | .mbClaim => s.mbox.holder ≠ some m
  | .mbCmd => s.mbox.holder ≠ some m
  | .mbArg _ => s.mbox.holder ≠ some m
  | _ => false

/-- A write of a register (R7, R8): discarded where its master may not write it, refused and noted where it holds
what is reserved, else performed. -/
def State.regWrite (s : State) (m : Master) (r : Reg) (v : Word) : State :=
  if (r.wardenOnly && !decide (m = .warden)) || s.mbDiscards m r then s
  else match r with
    | .rtExc st i => doRtExcWrite st i v s
    | .cqAdmin h => doCqAdminWrite h v s
    | _ =>
      if !r.fieldsOk v || !s.encOk r v || s.gateLocked r then s.noteReserved r.block r.noteUnit
      else match r with
        | .mbClaim => s.endClaim
        | .mbCmd => s.mbGo v
        | _ => s.regEffect m r v

/-! ### Reads -/

/-- Whether a register belongs to a part that stopped with its domain (R373). -/
def State.stoppedReg (s : State) (r : Reg) : Bool :=
  match r with
  | .rtCount _ => false
  | .rtExc _ _ => false
  | .csCtrl _ => false
  | .csStatus _ => false
  | .csCount _ => false
  | .ftStatus (.domain _) => false
  | .ftMask (.domain _) => false
  | .ftIntr (.domain _) => false
  | .ftCode (.domain _) => false
  | .ftStatus (.hitch _) => false
  | .ftMask (.hitch _) => false
  | .ftIntr (.hitch _) => false
  | .ftCode (.hitch _) => false
  | _ => match r.block with
    | .domain d => !s.domRuns d.val
    | .hitch d => !s.domRuns d.val
    | b => s.frozen b

/-- Every RC field of a register cleared (R8); one of a part that stopped with its domain holds its value (R373). -/
def State.clearRc (s : State) (r : Reg) : State :=
  if s.stoppedReg r then s else s.setReg r (r.fields.foldl (fun (w : Word) f => if f.acc = .rc then setFld w f.hi f.lo 0 else w) (s.reg r))

/-- The _LO register of a digest pair (R492). -/
def Reg.digestLo : Reg → Option Reg
  | .llPeerDigestHi l => some (.llPeerDigestLo l)
  | .coDigestHi => some .coDigestLo
  | _ => none

/-- The value of a register as a master reads it, and the read's side effects (R8, R491, R492). -/
def State.regRead (s : State) (m : Master) (r : Reg) : Word × State :=
  match r with
  | .mbClaim => s.claimRead m
  | .laneErrcnt n => s.errcntRead n
  | .laneRxeq n => ((s.adaptOn n).reg r, s.adaptOn n)
  | _ =>
    match r.digestLo with
    | some lo =>
      let rest := s.captures.filter (fun c => !(c.m = m && c.addr = lo.addr))
      (s.reg r, { s with captures := ⟨m, lo.addr, s.reg lo⟩ :: rest })
    | none =>
      match s.captures.find? (fun c => c.m = m && c.addr = r.addr) with
      | some c => (c.v, { s with captures := s.captures.erase c })
      | none => (s.view r, s.clearRc r)

/-! ### The device address space -/

/-- Whether a block of the stopped parts is addressed where it lists no register. -/
def State.stoppedBlock (s : State) : Block → Bool
  | .domain d => !s.domRuns d.val
  | .hitch d => !s.domRuns d.val
  | b => s.frozen b

/-- Whether the domain whose stack holds an offset of the HBM window runs (R373), and HBM is on (R452). -/
def State.hbmRuns (s : State) (off : Nat) : Bool := s.domRuns (off / stackSize) && s.coreOn && s.pins.resetL && !s.dust

/-- The block whose window holds an address. -/
def blockAt (a : Nat) : Option Block :=
  match targetAt a with
  | .reg r => some r.block
  | .unlisted b => some b
  | .scratch st _ => some (.stall st)
  | .mbBuf _ => some .global
  | .hkWin _ d _ => some (.hitch d)
  | _ => none

/-- Whether a block is powered and out of reset: TACK once the Tack Room is ready, the others with the core rails; in
Dust-sheet mode only GLOBAL and host link 0 (R452). -/
def State.live (s : State) : Block → Bool
  | .tack => s.tack.up
  | .global => s.coreOn && s.pins.resetL
  | .hostlink h => s.coreOn && s.pins.resetL && (!s.dust || decide (h.val = 0))
  | _ => s.coreOn && s.pins.resetL && !s.dust

/-- Whether an access of an address reaches a unit that is off: a register there reads 0 and takes no write (R452). -/
def State.off (s : State) (a : Nat) : Bool :=
  match blockAt a with
  | some b => !s.live b
  | none => false

/-- The ways an access of the device address space ends (R162). -/
inductive BusStatus where
  | ok | accessError | denied | malformed | unmapped
  deriving DecidableEq, Repr
def BusStatus.num : BusStatus → Nat
  | .ok => 0
  | .accessError => 1
  | .denied => 2
  | .malformed => 3
  | .unmapped => 4

/-- An aligned 64-bit write (R6, R373, R485, R486). Only the privileged cores have host windows, and reach them otherwise
(R361). -/
def State.busWrite (s : State) (m : Master) (a : Nat) (v : Word) : BusStatus × State :=
  if a % 8 ≠ 0 then (.accessError, s)
  else if s.off a then (.ok, s)
  else match targetAt a with
    | .reg r => if s.stoppedReg r then (.accessError, s) else (.ok, s.regWrite m r v)
    | .unlisted b =>
      if s.stoppedBlock b then (.accessError, s)
      else if v = 0 || (decide (b = .tack) && !decide (m = .warden)) then (.ok, s)
      else (.ok, s.noteReserved b 0)
    | .scratch st _ =>
      if s.frozen (.stall st) then (.accessError, s) else (.ok, { s with buf := memWrite s.buf a (leBytes 8 v.toNat) })
    | .mbBuf _ => if s.mbox.holder = some m then (.ok, { s with buf := memWrite s.buf a (leBytes 8 v.toNat) }) else (.ok, s)
    | .hkWin _ d _ => if s.domRuns d.val then (.ok, s) else (.accessError, s)
    | .hbm off => if s.hbmRuns off then (.ok, s.uncachedWrite a (leBytes 8 v.toNat)) else (.accessError, s)
    | .hostWindow _ _ => (.unmapped, s)
    | .unmapped => (.unmapped, s)

/-- Whether an access touches a share whose records the device keeps at places of its own choice: flow records, match
entries and unexpected buffers (R235, R247, R262, R360). -/
def State.deviceKept (s : State) (a n : Nat) : Bool :=
  [0, 1].any (fun d => [2, 3, 5].any (fun id =>
    let sh := s.share d id
    decide (a < sh.1 + sh.2 ∧ sh.1 < a + n)))

/-- `n` words read through the HBM window (R360): those that memory holds, and in a share that the device keeps those of match
entries and of unexpected messages as they stand (R235, R247); which other record stands where is not said, and its words
are free values (log entry 119). -/
def State.hbmWindow (s : State) (a n : Nat) : List Word × State :=
  let t := s.uncachedRead a (8 * n)
  if s.deviceKept a (8 * n) then
    ((List.range n).map (fun i => s.keptWord (a + 8 * i) (BitVec.ofNat 64 (Config.freeValue (s.frees + i)))),
      { t with frees := s.frees + n })
  else (wordsOf n (s.hbmRead a (8 * n)), t)

/-- An aligned 64-bit read of a register block (R6, R390, R485, R486). -/
def State.busRead (s : State) (m : Master) (a : Nat) : BusStatus × Word × State :=
  if a % 8 ≠ 0 then (.accessError, 0, s)
  else if s.off a then (.ok, 0, s)
  else match targetAt a with
    | .reg r => (.ok, s.regRead m r)
    | .unlisted _ => (.ok, 0, s)
    | .scratch _ _ => (.ok, BitVec.ofNat 64 (ofLe (memRead s.buf a 8)), s)
    | .mbBuf _ => (.ok, if s.mbox.holder = some m then BitVec.ofNat 64 (ofLe (memRead s.buf a 8)) else 0, s)
    | .hkWin k d n => if s.domRuns d.val then (.ok, s.hkWindow k.val d.val n.toNat m) else (.ok, 0, s)
    | .hbm off =>
      if s.hbmRuns off then (.ok, (s.hbmWindow a 1).1.headD 0, (s.hbmWindow a 1).2) else (.accessError, 0, s)
    | .hostWindow _ _ => (.unmapped, 0, s)
    | .unmapped => (.unmapped, 0, s)

/-! ### Host access (R160, R162, R452) -/

/-- Whether the address is one of the mailbox: its registers and MB_BUF (R438). -/
def inMailbox (a : Nat) : Bool := decide (0x101000 ≤ a ∧ a < 0x101038) || decide (mbBufBase ≤ a ∧ a < mbBufBase + 0x10000)

/-- Whether a host function may reach an address (R162, R452). -/
def State.fnMay (s : State) (h : HLink) (f a : Nat) : Bool :=
  decide (f < 31) && s.rb (.hlFnPriv h) f && (!(s.mode = 2) || inMailbox a)

/-- The status with which a well-formed request of `n` words ends before it is performed. -/
def State.hostStatus (s : State) (h : HLink) (t : RxTlp) (f a n : Nat) : BusStatus :=
  let tgt := targetAt a
  let hbm := match tgt with | .hbm _ => true | _ => false
  let words := (List.range n).map (fun i => a + 8 * i)
  let outside (b : Nat) : Bool := match targetAt b with
    | .unmapped => true
    | .hostWindow _ _ => true
    | _ => false
  if t.malformed || (hbm && decide (4096 < a % 4096 + 8 * n)) then .malformed
  else if !s.rb (.hlCtrl h) 0 || !words.all (fun b => s.fnMay h f b) then .denied
  else if words.any outside then .unmapped
  else match tgt with
    | .hbm off => if s.hbmRuns off then .ok else .accessError
    | _ => if n = 1 then .ok else .accessError

def hostMaster (h : HLink) (f : Nat) : Master := .fn h ⟨f % 32, Nat.mod_lt _ (by decide)⟩

/-- CWR: the next request of the link, where it is one, is performed and answered (R159, R160, R162, R360). -/
def doCwr (h : HLink) (s : State) : State :=
  match s.takeTlp h false [0x02] with
  | none => s
  | some (t, s) =>
    let n := tlpF t.body 103 94
    let a := tlpF t.body 63 0
    let f := tlpF t.body 119 115
    let st := s.hostStatus h t f a n
    let data := (t.body.drop 16).take (8 * n)
    let res : BusStatus × State :=
      if st ≠ .ok then (st, s)
      else if inHbm a then (.ok, s.uncachedWrite a data)
      else s.busWrite (hostMaster h f) a (BitVec.ofNat 64 (ofLe data))
    res.2.answer h ⟨f, tlpF t.body 111 104, res.1.num, n, [], t.barrier⟩

/-- CRD. -/
def doCrd (h : HLink) (s : State) : State :=
  match s.takeTlp h false [0x03] with
  | none => s
  | some (t, s) =>
    let n := tlpF t.body 103 94
    let a := tlpF t.body 63 0
    let f := tlpF t.body 119 115
    let st := s.hostStatus h t f a n
    let res : BusStatus × List Word × State :=
      if st ≠ .ok then (st, [], s)
      else if inHbm a then
        (.ok, (s.hbmWindow a n).1, (s.hbmWindow a n).2)
      else
        let r := s.busRead (hostMaster h f) a
        (r.1, if r.1 = .ok then [r.2.1] else [], r.2.2)
    res.2.2.answer h ⟨f, tlpF t.body 111 104, res.1.num, n, res.2.1, t.barrier⟩

/-! ### The rows of direct accesses -/

/-- Whether a master's access of an address reaches the device now: a host function as R162 lets it. -/
def State.masterMay (s : State) (m : Master) (a : Nat) : Bool :=
  match m with
  | .fn h f => s.rb (.hlCtrl h) 0 && s.fnMay h f.val a
  | _ => true

/-- MB_CLAIM_LAPSE (R438). -/
def doMbClaimLapse (s : State) : State :=
  if s.mbox.holder.isSome && !s.rb .mbCmd 63 && decide (s.mbox.since + ms 10 < s.tk) then s.endClaim else s

/-- WALK_READ (R214). -/
def doWalkRead (w : Nat) (s : State) : State := s.walkRead w

end Sys2Proof.Machine
end

