-- ==== Sys2Proof/Machine/Cores.lean ====
section
/-! DEFINITION. The accesses of the privileged cores, in the order that their memory types give them (R361 to R363), and the
rows of direct accesses of the device address space by any master. -/

namespace Sys2Proof.Machine

/-! ### Regions -/

/-- The number of a privileged core: a Steward's domain, 2 for the Warden. -/
def coreOf : Master → Option Nat
  | .fn _ _ => none
  | .steward d => some d.val
  | .warden => some 2

/-- The entry of a core's region attribute table that covers an address (R361): its RAT_LIMIT. -/
def State.region (s : State) (core a : Nat) : Option Word :=
  let c : Option Dom := if core = 2 then none else some (domOf core)
  let holds (i : Fin 64) : Bool :=
    s.rb (.ratBase c i) 0 && decide (s.rf (.ratBase c i) 63 12 ≤ a / 4096 ∧ a / 4096 ≤ s.rf (.ratLimit c i) 63 12)
  ((List.finRange 64).find? holds).map (fun i => s.reg (.ratLimit c i))

/-- The early-write-acknowledgement bit of an address: 0 outside every entry (R361, R363). -/
def State.ewa (s : State) (core a : Nat) : Bool :=
  match s.region core a with
  | some w => bit w 1
  | none => false

/-- Whether an address lies in HBM or in a host window; all others are register blocks'. -/
def isMemoryAddr (a : Nat) : Bool :=
  match targetAt a with
  | .hbm _ => true
  | .hostWindow _ _ => true
  | _ => false

/-- Whether an address is NORMAL-WEAK for a core: register-block windows, and what no entry covers, are DEVICE-STRICT
(R361, R377). -/
def State.weak (s : State) (core a : Nat) : Bool :=
  isMemoryAddr a && (match s.region core a with
    | some w => !bit w 0
    | none => false)

/-- The endpoint that an access reaches: writes to one arrive in program order (R363). -/
def endpointOf (a : Nat) : Nat :=
  match targetAt a with
  | .hbm off => 1 + off / stackSize
  | .hostWindow h _ => 16 + h.val
  | _ => match blockAt a with
    | some b => 4096 + blockBase b
    | none => 0

/-! ### Performing -/

/-- How a core's write that fails ends: with a NOTE where `late` says that it was accepted early; elsewhere the error is
returned to the writing instruction (R363). -/
def State.coreError (s : State) (core a : Nat) (late : Bool) : State :=
  if late then s.coreNote core else s.emit (.busError (coreMaster core) a)

/-- A core's write performed at its endpoint; one of host memory is sent as one MWR with `tok` (R353, R361). -/
def State.coreWrite (s : State) (core a : Nat) (v : Word) (late : Bool) (tok : Tok) : State :=
  match targetAt a with
  | .hostWindow h p =>
    if s.hlLost h.val then s.coreError core a late else s.hostWrite h.val 31 none p (leBytes 8 v.toNat) tok
  | _ =>
    let r := s.busWrite (coreMaster core) a v
    if r.1 = .ok then r.2 else r.2.coreError core a late

/-- Whether an address is host memory's. -/
def hostAddr (a : Nat) : Bool := match targetAt a with | .hostWindow _ _ => true | _ => false

/-- Whether a write of an address goes to a host link that is lost. -/
def State.lostAddr (s : State) (a : Nat) : Bool := match targetAt a with | .hostWindow h _ => s.hlLost h.val | _ => false

/-- A core's write performed without early acknowledgement: one of host memory is awaited until its MWR is acknowledged. -/
def State.coreWriteNow (s : State) (core a : Nat) (v : Word) (strict : Bool) : State :=
  if hostAddr a && !s.lostAddr a then
    let id := s.serial
    { s with serial := s.serial + 1, coreAccs := s.coreAccs ++ [CoreAcc.mk id core a v .awaited strict] }.coreWrite core a v false (.core id)
  else s.coreWrite core a v false .none

/-- An access taken out of those that are not performed, and performed: a held store, or a write on its path. -/
def State.corePerform (s : State) (x : CoreAcc) : State :=
  match x.stage with
  | .held => (s.coreDone x.id).coreWriteNow x.core x.addr x.data x.strict
  | .onPath => (s.coreDone x.id).coreWrite x.core x.addr x.data true (.coreLate x.core)
  | .awaited => s

/-- The accesses of a core at a stage, oldest first. -/
def State.coreAt (s : State) (core : Nat) (st : CoreStage) : List CoreAcc :=
  s.coreAccs.filter (fun x => decide (x.core = core ∧ x.stage = st))

/-- Whether a core waits for an access of host memory. -/
def State.coreWaits (s : State) (core : Nat) : Bool := !(s.coreAt core .awaited).isEmpty

/-- BAR.FULL (R355, R362): every earlier access of the core is performed before what follows it, `k`, which waits while one of
host memory is awaited. -/
def State.barFull (s : State) (core : Nat) (k : State → State) : State :=
  let s := (s.coreAt core .held).foldl State.corePerform s
  if s.coreWaits core then s else k s

/-- BAR.W orders the core's earlier stores before its later ones (R362): the model performs the earlier ones first. No row of
the command table issues a barrier by itself (log entry 137). -/
def State.barW (s : State) (core : Nat) (k : State → State) : State := s.barFull core k

/-- The writes of a core on their path to an endpoint arrive there, in program order (R363). -/
def State.coreArrive (s : State) (core e : Nat) : State :=
  ((s.coreAt core .onPath).filter (fun x => endpointOf x.addr = e)).foldl State.corePerform s

/-- Some of what a core holds or has on its path is performed, whichever it is: the type orders only accesses of the same
location, and EWA only those of the same endpoint (R362, R363). -/
def State.coreDrift (s : State) (core : Nat) : State :=
  let xs := s.coreAt core .held ++ s.coreAt core .onPath
  if xs.isEmpty then s
  else
    let (f, s) := s.free 64
    let one (t : State) (i : Nat) : State :=
      match xs[i]? with
      | none => t
      | some x =>
        let first := (t.coreAt core .onPath).find? (fun y => endpointOf y.addr = endpointOf x.addr)
        if f.getLsbD (i % 64) && (decide (x.stage = .held) || decide (first = some x)) then t.corePerform x else t
    (List.range xs.length).foldl one s

/-- A DEVICE-STRICT access, or a read-modify-write operation: after every earlier access of the core and, at its endpoint,
after the writes on their path to it (R362, R363). While one of host memory is awaited, it waits. -/
def State.coreStrict (s : State) (core a : Nat) (k : State → State) : State :=
  s.barFull core (fun s => (k (s.coreArrive core (endpointOf a))).coreDrift core)

/-- A NORMAL-WEAK access: after the core's earlier accesses of the same location, and after its earlier DEVICE-STRICT ones
(R362). -/
def State.coreWeak (s : State) (core a : Nat) (k : State → State) : State :=
  if (s.coreAt core .awaited).any (fun x => x.strict || decide (x.addr / 8 = a / 8)) then s else (k s).coreDrift core

/-- What a strict access or a read-modify-write operation of a master waits for, where it is a privileged core's. -/
def State.inCoreOrder (s : State) (m : Master) (a : Nat) (k : State → State) : State :=
  match coreOf m with
  | none => k s
  | some c => s.coreStrict c a k

/-- A write that the path to its endpoint has accepted. -/
def State.coreAccept (s : State) (core a : Nat) (v : Word) : State :=
  { s with coreAccs := s.coreAccs ++ [CoreAcc.mk s.serial core a v .onPath (!s.weak core a)], serial := s.serial + 1 }

/-- A NORMAL-WEAK store held by its core, merged with one of the same location that is held already (R362). -/
def State.coreHold (s : State) (core a : Nat) (v : Word) : State :=
  { s with
    coreAccs := s.coreAccs.filter (fun x => !decide (x.core = core ∧ x.stage = .held ∧ x.addr = a)) ++ [CoreAcc.mk s.serial core a v .held false]
    serial := s.serial + 1 }

/-- A store of a privileged core (R362, R363). -/
def State.coreStore (s : State) (core a : Nat) (v : Word) : State :=
  if s.weak core a then s.coreWeak core a (fun t => if t.ewa core a then t.coreAccept core a v else t.coreHold core a v)
  else s.coreStrict core a (fun t => if t.ewa core a then t.coreAccept core a v else t.coreWriteNow core a v true)

/-- A load performed: what it read is returned to its master; one of host memory is one MRD, and is awaited. -/
def State.busLoad (s : State) (m : Master) (a : Nat) : State :=
  match coreOf m, targetAt a with
  | some c, .hostWindow h p =>
    if s.hlLost h.val || a % 8 ≠ 0 then s.emit (.busError m a)
    else
      { s with serial := s.serial + 1, coreAccs := s.coreAccs ++ [CoreAcc.mk s.serial c a 0 .awaited (!s.weak c a)] }.sendReq h.val
        (.rd ⟨p, 8, none, 31, .core s.serial⟩)
  | _, _ =>
    let r := s.busRead m a
    if r.1 = .ok then r.2.2.emit (.value m a r.2.1) else r.2.2.emit (.busError m a)

/-- A load of a privileged core: a NORMAL-WEAK one after the stores of the same location (R362). The model reads nothing
ahead, and a load takes no value from a pending store: the store is performed first (log entry 137). -/
def State.coreLoad (s : State) (m : Master) (core a : Nat) : State :=
  if s.weak core a then
    let s := ((s.coreAt core .held).filter (fun x => x.addr / 8 = a / 8)).foldl State.corePerform s
    let s := s.coreArrive core (endpointOf a)
    s.coreWeak core a (fun t => t.busLoad m a)
  else s.coreStrict core a (fun t => t.busLoad m a)

/-- Every core's stores are performed: while the block idles, nothing holds them back. -/
def State.coresIdle (s : State) : State :=
  if s.coreAccs.isEmpty then s
  else (s.coreAccs.filter (fun x => decide (x.stage ≠ .awaited))).foldl State.corePerform s

/-! ### The rows of direct accesses -/

/-- REGISTER_WRITE (R7): a write of any address by any master that may reach it. -/
def doRegisterWrite (m : Master) (addr value : BitVec 64) (s : State) : State :=
  let a := addr.toNat
  if !s.masterMay m a then s
  else match coreOf m with
    | some c => s.coreStore c a value
    | none => (s.busWrite m a value).2

/-- RC_READ and DIGEST_HI_READ (R491, R492): a read by any master; the value is returned to it. -/
def doBusRead (m : Master) (addr : BitVec 64) (s : State) : State :=
  let a := addr.toNat
  if !s.masterMay m a then s
  else match coreOf m with
    | some c => s.coreLoad m c a
    | none => s.busLoad m a
def doRcRead (m : Master) (addr : BitVec 64) (s : State) : State := doBusRead m addr s
def doDigestHiRead (m : Master) (addr : BitVec 64) (s : State) : State := doBusRead m addr s

/-- MB_CLAIM_READ. -/
def doMbClaimRead (m : Master) (s : State) : State := doBusRead m 0x101000 s

/-- MB_CLAIM_RELEASE: the holder writes MB_CLAIM. -/
def doMbClaimRelease (m : Master) (s : State) : State := doRegisterWrite m 0x101000 0 s

end Sys2Proof.Machine
end

