-- ==== Sys2Proof/Machine/CoatCheck.lean ====
section
/-! DEFINITION. Coats as bytes, and their verification: the layout of R409 to R412, the scopes of R414 and R415, the
section bodies of R419 to R423 and the steps of R416. A step that fails is named by its code of R429. -/

namespace Sys2Proof.Machine

/-! ### Fields of a coat -/

/-- `n` bytes at an offset, and the little-endian number they hold (R409). -/
def cBytes (bs : List Byte) (off n : Nat) : List Byte := (bs.drop off).take n
def cNum (bs : List Byte) (off n : Nat) : Nat := ofLe (cBytes bs off n)
def allZero (bs : List Byte) : Bool := bs.all (fun b => b = 0)

def cKind (bs : List Byte) : Nat := cNum bs 6 1
def cScope (bs : List Byte) : Nat := cNum bs 7 1
def cScopeId (bs : List Byte) : Nat := cNum bs 8 4
def cSec (bs : List Byte) : Nat := cNum bs 15 1
def cChip (bs : List Byte) : Nat := cNum bs 16 8
def cTotal (bs : List Byte) : Nat := cNum bs 24 4
def cCount (bs : List Byte) : Nat := cNum bs 28 4
def cFlags (bs : List Byte) : Nat := cNum bs 32 4
def cSerial (bs : List Byte) : Nat := cNum bs 36 4
def cDigest (bs : List Byte) : Nat := ofBe (cBytes bs 40 16)
def cBurn (bs : List Byte) : Bool := (cFlags bs).testBit 0
def cAllowDown (bs : List Byte) : Bool := (cFlags bs).testBit 1

/-- Byte 0 of a digest in its high bits, as bytes. -/
def digestBytes (h : BitVec 512) : List Byte := beBytes 64 h.toNat

/-- A section: type, body, and its bytes with its header. -/
structure CoatSec where
  ty : Nat
  body : List Byte
  whole : List Byte
  deriving DecidableEq, Repr

/-- The sections of a byte string that parses exactly into `n` of them (R412). -/
def parseSecs : Nat → List Byte → Option (List CoatSec)
  | 0, bs => if bs = [] then some [] else none
  | n + 1, bs =>
    let ty := cNum bs 0 2
    let len := cNum bs 4 4
    if bs.length < 8 + len ∨ len % 8 ≠ 0 ∨ cNum bs 2 2 ≠ 0 ∨ ty = 0 ∨ 7 < ty then none
    else (parseSecs n (bs.drop (8 + len))).map (fun l => ⟨ty, cBytes bs 8 len, bs.take (8 + len)⟩ :: l)

/-- The sections of a coat. -/
def coatSecs (bs : List Byte) : Option (List CoatSec) := parseSecs (cCount bs) (cBytes bs 528 (cTotal bs - 660))

/-- The records of a body, `n` bytes each; what is left over is a shorter last one. -/
def records (n : Nat) : Nat → List Byte → List (List Word)
  | 0, _ => []
  | k + 1, bs => if bs = [] then [] else wordsOf (n / 8) (bs.take n) :: records n k (bs.drop n)
def CoatSec.recs (x : CoatSec) (n : Nat) : List (List Word) := records n (x.body.length / n + 1) x.body
def CoatSec.word (x : CoatSec) (i : Nat) : Word := BitVec.ofNat 64 (cNum x.body (8 * i) 8)

/-- The sections of one type. -/
def secsOf (ty : Nat) (l : List CoatSec) : List CoatSec := l.filter (fun x => x.ty = ty)

/-! ### Steps 1 to 7 -/

/-- Step 1: the header's form (R409, R410). -/
def coatForm (kind staged : Nat) (bs : List Byte) : Bool :=
  let total := cTotal bs
  cBytes bs 0 4 = [0x4E, 0x56, 0x43, 0x54] && cNum bs 4 2 = 1 && cKind bs = kind && allZero (cBytes bs 56 200) &&
    decide (cFlags bs < 4) && decide (660 ≤ total ∧ total ≤ (if kind = 0 then 256 else 16) * 0x100000) &&
    decide (total ≤ staged) && decide (1 ≤ cCount bs)

/-- Step 2: the part and the chip. -/
def State.coatDevice (s : State) (bs : List Byte) : Bool :=
  cNum bs 12 2 = 0x6451 && cNum bs 14 1 = 0xB0 && (cChip bs = 0 || cChip bs = (s.reg .chipId).toNat)

/-- The hash of an owner key, as its fuses hold it (R416, R436): the first 32 bytes of the SHA-512 of qx‖qy. -/
def ownerHash (block : List Byte) : BitVec 256 := BitVec.ofNat 256 ((sha512 (block.take 132)).toNat / 2 ^ 256)

/-- Whether the vendor's endorsement of an owner key block verifies (R411). -/
def State.endorsed (s : State) (block : List Byte) : Bool :=
  ecVerify s.fuses.vendorRoot.1 s.fuses.vendorRoot.2 (sha512 (block.take 136)) (ecNum block 136) (ecNum block 202)

def ownerSlot (block : List Byte) : Nat := cNum block 132 1

/-- The owner hash of a slot, and whether it is revoked. -/
def Fuses.owner (f : Fuses) (n : Nat) : Option (BitVec 256) := if n = 0 then f.owner0 else if n = 1 then f.owner1 else none
def Fuses.revoked (f : Fuses) (n : Nat) : Bool := if n = 0 then f.revoked0 else f.revoked1

/-- Step 3: the owner key block is that of a slot that is filled and not revoked, and is endorsed. -/
def State.keyOk (s : State) (block : List Byte) : Bool :=
  let n := ownerSlot block
  s.fuses.owner n = some (ownerHash block) && !s.fuses.revoked n && s.endorsed block

/-- Whether a signature, r then s, by an owner key verifies over some bytes. -/
def signedBy (block msg sig : List Byte) : Bool :=
  ecVerify (ecNum block 0) (ecNum block 66) (sha512 msg) (ecNum sig 0) (ecNum sig 66)

/-- Step 6: order and counts (R413, R414). -/
def coatOrder (kind scope : Nat) (l : List CoatSec) : Bool :=
  let n (ty : Nat) : Nat := (secsOf ty l).length
  if kind = 0 then
    (match l with
      | a :: b :: _ => a.ty = 1 && b.ty = 2
      | _ => false) && n 1 = 1 && n 2 = 1 && decide (n 3 ≤ 1)
  else n 1 = 0 && n 2 = 0 && (scope ≠ 4 || n 6 = 1) && (scope ≠ 6 || n 3 = 1)

/-- The structure digest of an undercoat's sections (R413). -/
def structDigest (l : List CoatSec) : Nat := (sha512 ((l.take 2).flatMap (fun x => x.whole))).toNat / 2 ^ 384

/-- The chip's structure digest. -/
def State.chipDigest (s : State) : Nat := (s.reg .coDigestHi).toNat * 2 ^ 64 + (s.reg .coDigestLo).toNat

/-! ### Step 8: scopes -/

/-- The lane that a lane code names (R422). -/
def laneOfCode (c : Nat) : Option LaneId :=
  let unit := c / 256 % 128
  let l := c % 16
  if 65536 ≤ c ∨ c / 16 % 16 ≠ 0 then none
  else if c < 32768 then
    (if h : unit < 64 ∧ l < 4 then some (.net ⟨unit, h.1⟩ ⟨l, h.2⟩) else none)
  else if h : unit < 8 ∧ l < 16 then some (.host ⟨unit, h.1⟩ ⟨l, h.2⟩) else none

/-- The section types that a topcoat's scope allows (R414). -/
def scopeTypes (scope : Nat) : List Nat :=
  match scope with
  | 1 => [4, 7]
  | 2 => [4, 5, 7]
  | 3 => [4, 7]
  | 4 => [6]
  | 5 => [6, 7]
  | 6 => [3]
  | _ => []

/-- Whether a domain's scope covers a block (R414). -/
def blockInDomain (d : Nat) : Block → Bool
  | .domain x => x.val = d
  | .stall st => st.val / 8 = d
  | .coll e => e.val / 4 = d
  | .hitch x => x.val = d
  | _ => false

/-- Whether a topcoat's scope covers an address of a REGISTER_SET or QOS record (R414). -/
def addrInScope (scope id a : Nat) : Bool :=
  match scope with
  | 1 => (match laneOfCode id with
    | some n =>
      let base := blockBase (laneBlock n) + laneBase n
      decide (base ≤ a ∧ a < base + 0x100)
    | none => false)
  | 2 => blockAt a = some (.port (portOf id))
  | 3 => blockAt a = some (.hostlink (hlinkOf id))
  | 5 => (match blockAt a with
    | some b => blockInDomain id b
    | none => false)
  | _ => false

/-- Registers that only an undercoat writes, and RT_EXC, which no REGISTER_SET writes (R415). -/
def Reg.underOnly : Reg → Bool
  | .rtCoord => true
  | .rtTopo => true
  | .rtOrder => true
  | .rtMap _ => true
  | .xlMirror _ => true
  | .mtPool _ => true
  | .flowPool _ => true
  | .clTable _ => true
  | _ => false
def namesExc (a : Nat) : Bool := match targetAt a with | .reg (.rtExc _ _) => true | _ => false
def namesUnder (a : Nat) : Bool := match targetAt a with | .reg r => r.underOnly | _ => false

/-- Whether the lane of a CALIBRATION record lies in a topcoat's scope. -/
def laneInScope (scope id code : Nat) : Bool :=
  match laneOfCode code with
  | none => false
  | some n =>
    match scope with
    | 1 => code = id
    | 2 => laneBlock n = .port (portOf id)
    | 3 => laneBlock n = .hostlink (hlinkOf id)
    | _ => false

/-- Fields of a GROOM_IMAGE (R423). -/
def CoatSec.bind (x : CoatSec) : Bool := bit (x.word 0) 63
def CoatSec.imgCtx (x : CoatSec) : Nat := fld (x.word 0) 21 0
def CoatSec.dest (x : CoatSec) : Nat := (x.word 1).toNat
def CoatSec.pages (x : CoatSec) : Nat := fld (x.word 2) 8 0

/-- Whether every record of a topcoat's section lies in its scope. -/
def secInScope (scope id : Nat) (x : CoatSec) : Bool :=
  (scopeTypes scope).contains x.ty && match x.ty with
    | 4 => (x.recs 32).all (fun r => laneInScope scope id (fld (r.getD 0 0) 15 0))
    | 5 => (x.recs 16).all (fun r =>
        let a := (r.getD 0 0).toNat
        addrInScope scope id a && !namesExc a && !namesUnder a)
    | 6 => if scope = 4 then x.bind && x.imgCtx = id else !x.bind && domOfHbm x.dest = id
    | 7 => (x.recs 24).all (fun r =>
        let a := (r.getD 0 0).toNat
        addrInScope scope id a && !namesExc a && !namesUnder a)
    | _ => true

/-- Step 8. -/
def State.scopeOk (s : State) (kind scope id : Nat) (l : List CoatSec) : Bool :=
  if kind = 0 then
    scope = 0 && id = 0 && (secsOf 7 l).all (fun x => (x.recs 24).all (fun r => !namesExc (r.getD 0 0).toNat))
  else
    (match scope with
      | 1 => (laneOfCode id).isSome
      | 2 => decide (id < 64)
      | 3 => decide (id < 8)
      | 4 => (s.ctx? id).isSome
      | 5 => decide (id < 2)
      | 6 => id = 0
      | _ => false) && l.all (secInScope scope id)

/-! ### Step 9: values -/

/-- A share as a STRUCTURE section gives it: domain, id, base and size. -/
structure ShareRec where
  dom : Nat
  id : Nat
  base : Nat
  size : Nat
  deriving DecidableEq, Repr
def CoatSec.shareRecs (x : CoatSec) : List ShareRec :=
  ((x.recs 16).filter (fun r => fld (r.getD 0 0) 63 56 = 1)).map (fun r =>
    ⟨fld (r.getD 0 0) 55 55, fld (r.getD 0 0) 47 40, fld (r.getD 1 0) 63 32, fld (r.getD 1 0) 31 0⟩)
/-- Contexts homed in East, from the SPLIT record. -/
def CoatSec.splits (x : CoatSec) : List Nat :=
  ((x.recs 16).filter (fun r => fld (r.getD 0 0) 63 56 = 2)).map (fun r => fld (r.getD 0 0) 31 0)

/-- Units of 16 MiB in a domain's stack (R419). -/
def stackUnits : Nat := 1536

/-- STRUCTURE (R419). -/
def structOk (x : CoatSec) : Bool :=
  let sh := x.shareRecs
  let units (d id : Nat) : Nat := ((sh.filter (fun e => e.dom = d && e.id = id)).map (fun e => e.size)).sum
  let formOk (r : List Word) : Bool :=
    let w := r.getD 0 0
    if fld w 63 56 = 1 then fld w 54 48 = 0 && fld w 39 0 = 0 && within 1 10 (fld w 47 40)
    else if fld w 63 56 = 2 then fld w 55 32 = 0 && decide (fld w 31 0 ≤ 4194304) && r.getD 1 0 = 0
    else false
  let once := [0, 1].all (fun d => (List.range 10).all (fun i => (sh.filter (fun e => e.dom = d && e.id = i + 1)).length = 1))
  let apart := sh.all (fun a => decide (a.base + a.size ≤ stackUnits) &&
    sh.all (fun b => a = b || a.dom ≠ b.dom || !overlap a.base a.size b.base b.size))
  match x.splits with
  | [east] =>
    x.body.length % 16 = 0 && (x.recs 16).all formOk && once && apart &&
      decide (65536 * (units 0 1 + units 1 1) ≤ 4194304) && decide (262144 * (units 0 2 + units 1 2) ≤ 16777216) &&
      decide (262144 * (units 0 3 + units 1 3) ≤ 67108864) &&
      decide (east ≤ 65536 * units 0 1) && decide (4194304 - east ≤ 65536 * units 1 1)
  | _ => false

/-- Whether a byte holds a permutation of the four dimensions (R143). -/
def permOk4 (o : Nat) : Bool := [0, 1, 2, 3].all (fun d => [o / 64 % 4, o / 16 % 4, o / 4 % 4, o % 4].contains d)

/-- TOPOLOGY (R420, R112, R113). -/
def topoOk (x : CoatSec) : Bool :=
  let w := x.word 0
  let ports := (List.range 64).map (fun p => cNum x.body (8 + p) 1)
  let used := ports.filter (fun b => b.testBit 7)
  x.body.length = 72 && fld w 63 48 = 0 &&
    (List.range 4).all (fun d =>
      let n := fld w (31 - 8 * d) (28 - 8 * d)
      let c := fld w (27 - 8 * d) (24 - 8 * d)
      decide (1 ≤ n) && within 1 ((n + 1) / 2) c) &&
    permOk4 (fld w 47 40) && permOk4 (fld w 39 32) && ports.all (fun b => !b.testBit 6) &&
    (let dirs : List Nat := used.map (fun (b : Nat) => b % 64); decide dirs.Nodup)

/-- The entries of a ROUTING section, by index (R421). -/
def CoatSec.routes (x : CoatSec) : List (Word × Word) :=
  (List.range (fld (x.word 0) 23 11)).map (fun k => (x.word (3 + 2 * k), x.word (4 + 2 * k)))

/-- ROUTING (R421); in an undercoat switch_at and grace are ignored. -/
def routingOk (kind : Nat) (x : CoatSec) : Bool :=
  let w := x.word 0
  let n := fld w 23 11
  x.body.length = 24 + 16 * n && decide (n ≤ 4096) && fld w 10 0 = 0 && fld (x.word 1) 63 60 = 0 &&
    (kind = 0 || within 1 60 (fld w 31 24)) &&
    x.routes.all (fun e => decide (e.1.toNat < 4096) && fld e.2 62 56 = 0) &&
    decide ((x.routes.map (fun e => e.1.toNat)).Pairwise (· < ·))

/-- One CALIBRATION record (R422). -/
def calOk (r : List Word) : Bool :=
  let w (i : Nat) : Word := r.getD i 0
  let f (hi lo : Nat) : Nat := fld (w 2) hi lo
  match laneOfCode (w 0).toNat with
  | none => false
  | some n =>
    fld (w 1) 63 33 = 0 && fld (w 1) 19 0 = 0 && (Reg.laneTxeq n).encOk (w 1) &&
      f 63 27 = 0 && f 15 14 = 0 && decide (f 3 0 ≤ f 7 4) && decide (1 ≤ f 13 8) &&
      decide (-64 ≤ toSigned 8 (f 23 16) ∧ toSigned 8 (f 23 16) ≤ 63) && w 3 = 0

/-- The register at an address. -/
def regAt (a : Nat) : Option Reg := match targetAt a with | .reg r => if a % 8 = 0 then some r else none | _ => none

/-- Whether a register is one of the egress registers of a port (R408, R423). -/
def Reg.egress : Reg → Bool
  | .egWeight _ => true
  | .egShape _ _ => true
  | .egGateCtrl _ => true
  | .egGateBase _ _ => true
  | .egGateSwitch _ => true
  | .egGcl _ _ _ => true
  | _ => false

/-- One QOS record (R423). -/
def qosOk (r : List Word) : Bool :=
  match regAt (r.getD 0 0).toNat with
  | some q => q.egress && q.fieldsOk (r.getD 1 0) && q.encOk (r.getD 1 0)
  | none => false

/-- The value that a REGISTER_SET record gives (R423). -/
def setValue (old mask v : Word) : Word := (old &&& ~~~mask) ||| (v &&& mask)

/-- Whether the TK_ fields that mailbox commands also set lie in those commands' ranges (R439). -/
def Reg.rangeOk (r : Reg) (mask v : Word) : Bool :=
  match r with
  | .tkPaceTarget => fld mask 15 0 = 0 || within 1500 2200 (fld v 15 0)
  | .tkPower => fld mask 63 48 = 0 || within 200 600 (fld v 63 48)
  | .tkTherm => fld mask 47 40 = 0 || within 85 105 (fld v 47 40)
  | _ => true

/-- Whether RT_COORD names a chip of the machine: in each dimension a coordinate from 0 to n − 1 (R112; log entry 144). -/
def State.coordOk (s : State) (r : Reg) (v : Word) : Bool :=
  match r with
  | .rtCoord => [0, 1, 2, 3].all (fun d => decide (fld v (15 - 4 * d) (12 - 4 * d) ≤ s.rf .rtTopo (31 - 8 * d) (28 - 8 * d)))
  | _ => true

/-- REGISTER_SET records over a register file: the file after them, where each is allowed (R423). -/
def State.regSetOk (s : State) : List (List Word) → Option State
  | [] => some s
  | r :: rs =>
    match regAt (r.getD 0 0).toNat with
    | none => none
    | some q =>
      let mask := r.getD 1 0
      let v := setValue (s.view q) mask (r.getD 2 0)
      if q.fieldsOk mask && q.encOk v && s.pairOk q v && q.rangeOk mask v && s.coordOk q v then State.regSetOk (s.setReg q v) rs else none

/-- Every REGISTER_SET of a coat, in order. -/
def State.regSetsOk (s : State) : List CoatSec → Bool
  | [] => true
  | x :: xs =>
    x.body.length % 24 = 0 && match s.regSetOk (x.recs 24) with
      | some t => State.regSetsOk t xs
      | none => false

/-- GROOM_IMAGE (R423), in the partition that `s` holds. -/
def State.imageSecOk (s : State) (x : CoatSec) : Bool :=
  let w := x.word
  let d := domOfHbm x.dest
  let n := 4096 * x.pages
  within 1 256 x.pages && x.body.length = 56 + n && fld (w 0) 62 22 = 0 && fld (w 2) 63 9 = 0 &&
    x.dest % 4096 = 0 && inHbm x.dest && s.inShare d 7 x.dest n &&
    (if x.bind then fld (w 3) 63 12 * 4096 = x.dest && s.handlersOk d (w 3) (w 4) (w 5) && s.ctxDom x.imgCtx = d
     else x.imgCtx = 0x3FFFFF && w 3 = 0 && w 4 = 0 && w 5 = 0 && w 6 = 0)

/-- The partition that a STRUCTURE section gives, in place of the one that `s` holds. -/
def State.withShares (s : State) (x : CoatSec) : State :=
  let put (t : Tab (Nat × Nat)) (e : ShareRec) : Tab (Nat × Nat) := tSet (0, 0) (16 * e.dom + e.id) (e.base, e.size) t
  { s with shares := x.shareRecs.foldl put [], ctxEast := x.splits.headD 0 }

/-- Whether every value is allowed (step 9, first part). -/
def State.contentOk (s : State) (kind : Nat) (l : List CoatSec) : Bool :=
  let s := match kind, l with
    | 0, x :: y :: _ =>
      let t := State.withShares { State.reset with regs := s.regs.filter (fun e => decide (e.1 < 0x100000)) } x
      t.setReg .rtTopo (mkWord 64 [(31, 0, fld (y.word 0) 31 0)])
    | _, _ => s
  (secsOf 1 l).all structOk && (secsOf 2 l).all topoOk && (secsOf 3 l).all (routingOk kind) &&
    (secsOf 4 l).all (fun x => x.body.length % 32 = 0 && (x.recs 32).all calOk) &&
    (secsOf 5 l).all (fun x => x.body.length % 16 = 0 && (x.recs 16).all qosOk) &&
    (secsOf 6 l).all s.imageSecOk && s.regSetsOk (secsOf 7 l)

/-- The image that a context's handlers are bound to: its first address and length. -/
def State.boundImage (s : State) (c : Nat) : Option (Nat × Nat) :=
  if fld (s.ctxWord c 22) 63 61 = 0 then none
  else some (fld (s.ctxWord c 20) 63 12 * 4096, 4096 * (fld (s.ctxWord c 20) 11 4 + 1))

/-- Step 9, second part: no image overlaps one that a context has bound, or another of the coat (R423). -/
def State.imagesApart (s : State) (l : List CoatSec) : Bool :=
  let imgs := (secsOf 6 l).map (fun x => (x.dest, 4096 * x.pages))
  let meets (a b : Nat × Nat) : Bool := overlap a.1 a.2 b.1 b.2
  imgs.all (fun i => s.ctxs.all (fun c => match s.boundImage c.1 with
    | some j => !meets i j
    | none => true)) &&
    decide (imgs.Pairwise (fun a b => meets a b = false))

/-- Steps 1 to 9 of R416: the sections, or the code of the step that fails. -/
def State.checkCoat (s : State) (kind staged : Nat) (bs : List Byte) : Except Nat (List CoatSec) :=
  let total := cTotal bs
  let block := cBytes bs 256 272
  if !coatForm kind staged bs then .error 1
  else if !s.coatDevice bs then .error 2
  else if !s.keyOk block then .error 3
  else if !signedBy block (bs.take (total - 132)) (cBytes bs (total - 132) 132) then .error 4
  else if cSec bs < s.fuses.sec then .error 5
  else match coatSecs bs with
    | none => .error 6
    | some l =>
      if !coatOrder kind (cScope bs) l then .error 6
      else if (if kind = 0 then structDigest l else s.chipDigest) ≠ cDigest bs then .error 7
      else if !s.scopeOk kind (cScope bs) (cScopeId bs) l then .error 8
      else if !s.contentOk kind l then .error 9
      else if !s.imagesApart l then .error 0xF
      else .ok l

end Sys2Proof.Machine
end

