-- ==== Sys2Proof/Machine/Coats.lean ====
section
/-! DEFINITION. Applying coats (R424 to R428): the records of each section, the states of a topcoat, routing epochs,
and the commands that receive, install and apply coats (R439). -/

namespace Sys2Proof.Machine

/-! ### Records performed -/

/-- The mask of a register's fields that a write under the access codes might not set to the value written. -/
def Reg.fixedMask (r : Reg) : Word :=
  r.fields.foldl (fun (m : Word) f =>
    if f.acc = .ro || f.acc = .rc || f.acc = .w1c || f.acc = .sc then m ||| mask 64 f.hi f.lo else m) 0
def Reg.w1cMask (r : Reg) : Word :=
  r.fields.foldl (fun (m : Word) f => if f.acc = .w1c then m ||| mask 64 f.hi f.lo else m) 0

/-- A field that the part computes from its own count, set with the register (R423): a shaper's tokens, and network time. -/
def State.coatCount (s : State) (r : Reg) (m v : Word) : State :=
  match r with
  | .egShape p t =>
    if fld m 31 0 = 0 then s
    else s.modPort p (fun x => { x with
      shapers := tMod {} t.val (fun y => { y with tokens := toSigned 32 (fld (setValue (s.view r) m v) 31 0) }) x.shapers })
  | .ntNow => { s with nt := setValue s.nt m v }
  | _ => s

/-- A REGISTER_SET record performed by the Warden, whatever the fields' access codes (R423): fields that software can
write act as they do for software; the others take the value, an SC field 0 too. A field that reports what the part holds
elsewhere goes on reporting it (log entry 178). What R75 keeps off in service is refused with a NOTE. -/
def State.coatSet (s : State) (rec : List Word) : State :=
  match regAt (rec.getD 0 0).toNat with
  | none => s
  | some r =>
    let m := rec.getD 1 0
    let v := setValue (s.view r) m (rec.getD 2 0)
    if !s.serviceOk r v then s.noteReserved r.block r.noteUnit
    else
    let s := match r with
      | .cqAdmin h => doCqAdminWrite h v s
      | .rtExc _ _ => s
      | _ => s.regEffect .warden r (v &&& ~~~r.w1cMask)
    let set := r.fields.foldl (fun (k : Word) f => if f.acc = .sc then k ||| (mask 64 f.hi f.lo &&& v) else k) 0
    let fm := m &&& r.fixedMask &&& ~~~set
    let s := if fm = 0 then s else s.setReg r (setValue (s.reg r) fm v)
    s.coatCount r fm v

/-- A QOS record: a write as software's (R423). -/
def State.coatQos (s : State) (rec : List Word) : State :=
  match regAt (rec.getD 0 0).toNat with
  | none => s
  | some r => s.regWrite .warden r (rec.getD 1 0)

/-- A CALIBRATION record (R422): LANE_TXEQ's settings, and the limits that adaptation keeps. -/
def State.coatCal (s : State) (rec : List Word) : State :=
  match laneOfCode (rec.getD 0 0).toNat with
  | none => s
  | some n =>
    let s := { s with cals := tSet 0 (laneKey n) (rec.getD 2 0) s.cals }
    s.regEffect .warden (.laneTxeq n) (setFld (s.reg (.laneTxeq n)) 32 20 (fld (rec.getD 1 0) 32 20))

/-- A GROOM_IMAGE (R423, R424): the image is written; with bind the context's words 20 to 23 are replaced and its
suspensions cleared. -/
def State.coatImage (s : State) (x : CoatSec) : State :=
  let s := s.uncachedWrite x.dest ((x.body.drop 56).take (4096 * x.pages))
  if x.bind && (s.ctx? x.imgCtx).isSome then
    let ws := [x.word 3, x.word 4, x.word 5, x.word 6]
    (s.modCtx x.imgCtx (fun c => { c with words := c.words.take 20 ++ ws ++ c.words.drop 24, suspended := 0 })).ctxStore
      x.imgCtx 20 ws
  else s

/-- The exception entries of a ROUTING section, in every stall (R421). -/
def CoatSec.excTable (x : CoatSec) : Tab Word :=
  (List.range 16).foldl (fun t st =>
    x.routes.foldl (fun t e => tSet 0 (excBase st + 8 * e.1.toNat) e.2 t) t) []
def CoatSec.bank (x : CoatSec) : RtBank := ⟨x.excTable, x.word 2⟩
def CoatSec.epoch (x : CoatSec) : Nat := fld (x.word 0) 63 32

/-- A register file with another exception table. -/
def withExc (regs exc : Tab Word) : Tab Word := exc.foldl (fun t e => tPut e.1 e.2 t) (regs.filter (fun e => !isExc e.1))

/-- The first operating epoch (R421). -/
def State.firstEpoch (s : State) (x : CoatSec) : State :=
  { s with regs := withExc s.regs x.excTable, retired := x.word 2 }.wf .rtEpoch 63 32 x.epoch

/-- The partition of some domains, with the registers that show it (R415, R419). -/
def State.partition (s : State) (x : CoatSec) (ds : List Nat) : State :=
  let t := s.withShares x
  let s := { s with shares := t.shares, ctxEast := t.ctxEast }
  ds.foldl (fun (s : State) d =>
    let base (id : Nat) : Nat := (s.share d id).1
    let units (id : Nat) : Nat := (tGet (0, 0) s.shares (16 * d + id)).2
    let s := s.setReg (.xlMirror (domOf d)) (mkWord 64 [(63, 24, base 6 / 0x1000000), (23, 12, units 6)])
    let s := s.setReg (.mtPool (domOf d)) (mkWord 64 [(63, 38, 262144 * units 3), (37, 16, 4096 * units 5)])
    let s := s.setReg (.flowPool (domOf d)) (mkWord 64 [(63, 40, 262144 * units 2)])
    (List.range 4).foldl (fun s i =>
      s.setReg (.clTable (engineOf (4 * d + i))) (mkWord 64 [(63, 24, base 9 / 0x1000000)])) s) s

/-- TOPOLOGY (R420). -/
def State.coatTopo (s : State) (x : CoatSec) : State :=
  let s := (s.setReg .rtTopo (mkWord 64 [(31, 0, fld (x.word 0) 31 0)])).setReg .rtOrder (mkWord 64 [(15, 0, fld (x.word 0) 47 32)])
  (List.finRange 64).foldl (fun t p => t.setReg (.rtMap p) (mkWord 64 [(7, 0, cNum x.body (8 + p.val) 1)])) s

/-- A section of a topcoat, or of an undercoat after its REGISTER_SETs, performed. -/
def State.coatSec (s : State) (x : CoatSec) : State :=
  match x.ty with
  | 4 => (x.recs 32).foldl (fun t r => t.coatCal r) s
  | 5 => (x.recs 16).foldl (fun t r => t.coatQos r) s
  | 6 => s.coatImage x
  | 7 => (x.recs 24).foldl (fun t r => t.coatSet r) s
  | _ => s

/-- A verified undercoat applied at a start (R428). At most all 64 security-version fuses are blown (log entry 176). -/
def State.applyUnder (s : State) (bs : List Byte) (l : List CoatSec) : State :=
  let s := match l with
    | a :: b :: _ => (s.partition a [0, 1]).coatTopo b
    | _ => s
  let s := (secsOf 7 l).foldl (fun t x => t.coatSec x) s
  let rest := l.filter (fun x => decide (3 ≤ x.ty ∧ x.ty ≤ 6))
  let s := rest.foldl (fun t x => if x.ty = 3 then t.firstEpoch x else t.coatSec x) s
  let dg := structDigest l
  let s := (s.setReg .coDigestHi (BitVec.ofNat 64 (dg / 2 ^ 64))).setReg .coDigestLo (BitVec.ofNat 64 dg)
  let s := s.wf .coSerial 63 32 (cSerial bs)
  let burn := if cBurn bs && decide (s.fuses.sec < cSec bs) then some (min 64 (cSec bs)) else none
  s.modTack (fun t => { t with underHash := sha512 (bs.take (cTotal bs)), burn := burn })

/-- The parts of an undercoat that a domain's restart applies again (R375). -/
def State.applyDomain (s : State) (d : Nat) (l : List CoatSec) : State :=
  let s := match l with
    | a :: _ => s.partition a [d]
    | _ => s
  let mine (r : List Word) : Bool := match blockAt (r.getD 0 0).toNat with
    | some b => blockInDomain d b
    | none => false
  let s := (secsOf 7 l).foldl (fun t x => ((x.recs 24).filter mine).foldl (fun t r => t.coatSet r) t) s
  ((secsOf 6 l).filter (fun x => domOfHbm x.dest = d)).foldl (fun t x => t.coatImage x) s

/-! ### The states of a topcoat (R424, R430) -/

def State.coState (s : State) (n : Nat) : State := s.wf .coStatus 63 61 n

/-- CO_STATUS of a coat that begins to be handled. -/
def State.coBegin (s : State) (bs : List Byte) : State :=
  s.setReg .coStatus (mkWord 64 [(47, 40, cScope bs), (31, 0, cScopeId bs)])

/-- The staged coat (R416). -/
def State.staged (s : State) : List Byte := memRead s.flash.stage 0 s.flash.stageLen

/-- No coat is handled any more: the holds of DRAINING are lifted, and the result stands in CO_STATUS. -/
def State.coatClear (s : State) (result : Nat) : State :=
  ({ s with holdPort := none, holdHost := none, holdDom := none }.modTack (fun t => { t with coat := none })).setReg .coStatus
    (setFld (setFld (s.reg .coStatus) 63 61 0) 55 48 result)

/-- A topcoat applied: its serial and the topcoat chain (R430, R437). -/
def State.countTop (s : State) (serial : Nat) (hash : BitVec 512) : State :=
  (s.wf .coSerial 31 0 serial).modTack (fun t => { t with
    chain := sha512 (digestBytes t.chain ++ digestBytes hash), chained := t.chained + 1 })

/-- A topcoat's end: refused with a code, or applied (R424). -/
def State.coatRefused (s : State) (code : Nat) : State := (s.coatClear code).mbDone 8 code []
def State.coatApplied (s : State) (serial : Nat) (hash : BitVec 512) (failed : Bool) : State :=
  ((s.coatClear (if failed then 0x20 else 0)).countTop serial hash).mbDone 0 0 []

/-- The link of a scope, where it is that of a lane, port or host link. -/
def scopeLink (scope id : Nat) : Option LinkId :=
  match scope with
  | 1 => (laneOfCode id).map laneLink
  | 2 => some (.port (portOf id))
  | 3 => some (.host (hlinkOf id))
  | _ => none

/-- The domain of a scope that lies in one. -/
def State.scopeDom (s : State) (scope id : Nat) : Option Nat :=
  match scope with
  | 4 => some (s.ctxDom id)
  | 5 => some id
  | _ => none

/-- The domain that a scope's unit belongs to (R497). -/
def State.unitDom (s : State) (scope id : Nat) : Option Nat :=
  match scopeLink scope id with
  | some (.port p) => some (p.val / 32)
  | some (.host h) => some (h.val / 4)
  | none => s.scopeDom scope id

/-- The blocks whose faults refuse a topcoat that drains: that of its port or host link, where a LANE topcoat's DEGRADE
names the lane, and that of its domain (R425). -/
def State.scopeBlocks (s : State) (scope id : Nat) : List (Nat × Option Nat) :=
  let lane := if scope = 1 then (laneOfCode id).map laneNum else none
  (match scopeLink scope id with
    | some (.port p) => [(blockBase (.port p), lane)]
    | some (.host h) => [(blockBase (.hostlink h), lane)]
    | none => []) ++
  (match s.unitDom scope id with
    | some d => [(blockBase (.domain (domOf d)), none)]
    | none => [])

/-- Whether a scope is fenced, lost or restarting (R416, R425). -/
def State.scopeDown (s : State) (scope id : Nat) : Bool :=
  (match scopeLink scope id with
    | some (.port p) => s.portState p = 6
    | some (.host h) => s.hlState h.val = 7
    | none => false) ||
  (match s.scopeDom scope id with
    | some d => !s.domRuns d || (scope = 4 && (s.ctx? id).isNone)
    | none => false)

/-- Whether a lane's link has another ACTIVE lane (R424). -/
def State.otherActive (s : State) (n : LaneId) : Bool :=
  (linkLanes (laneLink n)).any (fun m => decide (m ≠ n) && s.laneState m = 2)

/-- The scope that a LANE topcoat is applied as: none where it is unavailable (R424). -/
def State.laneScope (s : State) (id : Nat) (allowDown : Bool) : Option (Nat × Nat) :=
  match laneOfCode id with
  | none => none
  | some n =>
    if s.otherActive n then some (1, id)
    else if !allowDown then none
    else match laneLink n with
      | .port p => some (2, p.val)
      | .host h => some (3, h.val)

/-- Step 10 of R416 (R426): the scope that the topcoat is applied as, or the code of the refusal. -/
def State.coatReady (s : State) (bs : List Byte) (l : List CoatSec) : Except Nat (Nat × Nat) :=
  let scope := cScope bs
  let id := cScopeId bs
  if s.scopeDown scope id then .error 0xB
  else if scope = 6 then
    match secsOf 3 l with
    | x :: _ =>
      if s.rb .rtEpoch 31 || s.rb .rtEpoch 30 then .error 0xB
      else if !epochAbove x.epoch (s.rf .rtEpoch 63 32) then .error 0xE
      else if fld (x.word 1) 59 0 < s.ntNs + 100000 then .error 0xD
      else .ok (6, id)
    | [] => .error 6
  else if scope = 1 then
    match s.laneScope id (cAllowDown bs) with
    | some x => .ok x
    | none => .error 0xB
  else .ok (scope, id)

/-- DRAINING begins (R424, step 2). -/
def State.drainStart (s : State) (scope id : Nat) : State :=
  match scope with
  | 1 => (match laneOfCode id with
    | some n => s.writeLaneCtrl .warden n (setBit (s.reg (.laneCtrl n)) 3 false)
    | none => s)
  | 2 => { s with holdPort := some (id % 64) }
  | 3 => { s with holdHost := some (id % 8) }
  | 5 => { s with holdDom := some (id % 2) }
  | _ => s

/-- Whether a scope has drained (R424). -/
def State.drained (s : State) (scope id : Nat) : Bool :=
  match scope with
  | 1 => (match laneOfCode id with
    | some n => decide (s.llState (laneLink n) ≠ 4)
    | none => true)
  | 2 =>
    let p := portOf id
    (s.port p).outv = [] && (s.port p).replay = [] &&
      s.worms.all (fun w => match w.2.dest with | .out q _ => q ≠ p.val | _ => true)
  | 3 =>
    let h := hlinkOf id
    let t := s.tl h.val
    t.reads = [] && t.hist.all (fun e => !s.liveEntry h e.2) && (s.hl h).replay = []
  | _ => true

/-- The bound of DRAINING, in counts. -/
def State.drainBound (s : State) (scope id : Nat) : Nat :=
  match scope with
  | 1 => (match laneOfCode id with
    | some (.host _ _) => us 2000
    | _ => us 50)
  | 2 => us 100
  | 3 => us (s.rf (.hlTimers (hlinkOf id)) 51 32 + s.rf (.hlTimers (hlinkOf id)) 15 0 + 10)
  | _ => us 1

/-- A LANE topcoat's lane is enabled again, and trains from step 1. -/
def State.laneEnable (s : State) (scope id : Nat) : State :=
  match scope, laneOfCode id with
  | 1, some n => s.writeLaneCtrl .warden n (setBit (s.reg (.laneCtrl n)) 3 true)
  | _, _ => s

/-- A refused topcoat's scope is resumed unchanged: a LANE topcoat's lane is enabled again where it was before. -/
def State.laneBack (s : State) (j : CoatJob) : State := if j.was then s.laneEnable j.scope j.unit else s

/-- The sections of a job. -/
def CoatJob.sections (j : CoatJob) : List CoatSec := j.secs.map (fun e => ⟨e.1, e.2, []⟩)

/-- A port or host link set DOWN for APPLYING; its enable stays as it is. -/
def State.linkDown (s : State) : LinkId → State
  | .port p => if s.portState p = 0 then s else s.stopPort p 0
  | .host h =>
    let on := s.linkOn (.host h)
    (doHostLinkDisable h s).wb (.llCtrl (.host h)) 0 on

/-- A port or host link that is enabled trains again. -/
def State.linkBack (s : State) (l : LinkId) : State :=
  if !s.linkOn l then s
  else match l with
    | .port p => s.enablePort p
    | .host h => s.enableHost h

/-- APPLYING and the beginning of RESUMING (R424, steps 3 to 5). -/
def State.coatPerform (s : State) (j : CoatJob) : State :=
  let s := s.coState 3
  let run (t : State) : State := j.sections.foldl (fun t x => t.coatSec x) t
  let free (t : State) : State := { t with holdPort := none, holdHost := none, holdDom := none }
  let resume (t : State) : State :=
    (t.coState 4).modTack (fun t => { t with coat := some { j with since := s.clk } })
  match scopeLink j.scope j.unit with
  | none => (free (run s)).coatApplied j.serial j.hash false
  | some l =>
    if j.scope = 1 then resume ((run s).laneEnable 1 j.unit)
    else resume ((free (run (s.linkDown l))).linkBack l)

/-- Lanes whose training RESUMING waits for. -/
def CoatJob.lanes (j : CoatJob) : List LaneId :=
  match j.scope, laneOfCode j.unit, scopeLink j.scope j.unit with
  | 1, some n, _ => [n]
  | _, _, some l => linkLanes l
  | _, _, none => []

/-- Whether RESUMING has ended: training is over, and a port or link has finished link-up, or the bound has passed. -/
def State.resumed (s : State) (j : CoatJob) : Bool :=
  let host := match scopeLink j.scope j.unit with
    | some (.host _) => true
    | _ => false
  let bound := us (if j.scope = 1 then (if host then 40000 else 300000) else (if host then 41000 else 301000))
  let training := j.lanes.any (fun n => s.laneState n = 1)
  let linking := j.scope ≠ 1 && (match scopeLink j.scope j.unit with
    | some l => s.llState l = 1 || s.llState l = 2
    | none => false)
  (!training && !linking) || decide (j.since + bound ≤ s.clk)

/-- What a topcoat in progress meets after each event: its scope's fault during DRAINING, or the end of RESUMING. -/
def State.coatWatch (s : State) : State :=
  match s.tack.coat with
  | none => s
  | some j =>
    if s.rf .coStatus 63 61 = 2 then
      let gone := j.hit || s.scopeDown j.scope j.unit || (match s.unitDom j.scope j.unit with | some d => !s.domRuns d | none => false)
      (if gone then (s.laneBack j).coatRefused 0x10 else s)
    else if s.resumed j then s.coatApplied j.serial j.hash (j.lanes.any (fun n => s.laneState n = 6))
    else s

/-- An orderly stop while a topcoat drains refuses it (R425). -/
def State.coatStop (s : State) : State :=
  if s.tack.coat.isSome && s.rf .coStatus 63 61 = 2 then s.coatRefused 0x10 else s

/-- DRAIN_COMPLETE. -/
def doDrainComplete (s : State) : State :=
  match s.tack.coat with
  | none => s
  | some j => if s.rf .coStatus 63 61 = 2 && s.drained j.scope j.unit then s.coatPerform j else s

/-- DRAIN_TIMEOUT: the topcoat is refused and its scope resumed unchanged; a drain that completes at the bound counts
as drained (R425). -/
def doDrainTimeout (s : State) : State :=
  match s.tack.coat with
  | none => s
  | some j =>
    if s.rf .coStatus 63 61 = 2 && !s.drained j.scope j.unit && decide (j.since + s.drainBound j.scope j.unit ≤ s.clk) then
      (s.laneBack j).coatRefused 0xC
    else s

/-! ### Routing epochs (R426, R427) -/

/-- A ROUTING topcoat is loaded into the shadow banks, and waits for its switch time. An impossible via that it loads
records nothing (R138, log entry 159). -/
def State.loadEpoch (s : State) (x : CoatSec) : State :=
  let s := { s with newBank := some x.bank, loadedEpoch := x.epoch }
  let s := (s.wb .rtEpoch 31 true).wf .rtEpoch 29 24 (fld (x.word 0) 31 24)
  s.wf .rtEpochAt 59 0 (fld (x.word 1) 59 0)

/-- EPOCH_SWITCH: at switch_at the shadow bank operates, and the old bank serves packets under way. -/
def doEpochSwitch (s : State) : State :=
  match s.newBank with
  | none => s
  | some b =>
    if s.ntNs < s.rf .rtEpochAt 59 0 then s
    else
      let old : RtBank := ⟨s.regs.filter (fun e => isExc e.1), s.retired⟩
      let s := { s with oldBank := some old, newBank := none, regs := withExc s.regs b.exc, retired := b.retire }
      let s := (s.wb .rtEpoch 31 false).wb .rtEpoch 30 true
      if s.rf .coStatus 63 61 = 5 then s.coState 0 else s

/-- EPOCH_GRACE_END: the old bank is retired. -/
def doEpochGraceEnd (s : State) : State :=
  if s.oldBank.isNone || decide (s.ntNs < s.rf .rtEpochAt 59 0 + 1000 * s.rf .rtEpoch 29 24) then s
  else
    let e := s.loadedEpoch
    ({ s with oldBank := none }.wb .rtEpoch 30 false).wf .rtEpoch 63 32 e

/-! ### Coat commands (R417, R439, R440) -/

/-- Whether the Warden handles a coat now: a topcoat in progress, or the undercoat that a domain restart applies. -/
def State.coatBusy (s : State) : Bool := s.tack.coat.isSome || s.restart.any (fun e => e.2 = 5)

/-- The command of a code that is in progress. -/
def State.mbRun (s : State) (code : Nat) : Option MbCmd := s.mbox.run.filter (fun c => c.code = code)
def MbCmd.arg (c : MbCmd) (i : Nat) : Word := c.args.getD i 0
def MbCmd.bytes (c : MbCmd) (n : Nat) : List Byte := memRead c.buf 0 n

/-- A mailbox command performed in the modes that allow it (R439), else ended with NOT_ALLOWED. -/
def State.mbPerform (s : State) (code : Nat) (modes : List Nat) (f : MbCmd → State → State) : State :=
  match s.mbRun code with
  | none => s
  | some c => if modes.contains s.mode then f c s else s.mbDone 3 0 []

/-- COAT_BEGIN. -/
def doCoatBegin (s : State) : State :=
  s.mbPerform 0x10 [1, 2] (fun c s =>
    if s.coatBusy then s.mbDone 4 0 []
    else if 0x10000000 < (c.arg 0).toNat then s.mbDone 2 0 []
    else (s.modFlash (fun f => { f with stage := [], stageLen := (c.arg 0).toNat })).mbDone 0 0 [])

/-- COAT_CHUNK. A coat's length is never a multiple of 8 (R409), and a chunk's always is: the last chunk may reach the
next multiple of 8 (log entry 62). -/
def doCoatChunk (s : State) : State :=
  s.mbPerform 0x11 [1, 2] (fun c s =>
    let off := (c.arg 0).toNat
    let n := (c.arg 1).toNat
    if s.coatBusy then s.mbDone 4 0 []
    else if n % 8 ≠ 0 ∨ 65536 < n ∨ (s.flash.stageLen + 7) / 8 * 8 < off + n then s.mbDone 2 0 []
    else (s.modFlash (fun f => { f with stage := memWrite f.stage off (c.bytes n) })).mbDone 0 0 [])

/-- A coat refused with BUSY, as the latest coat (R417, R429): CO_STATUS shows the result. -/
def State.coatTurnedAway (s : State) : State := (s.wf .coStatus 55 48 0xA).mbDone 4 0 []

/-- COAT_APPLY (R416, R424, R426): refused, loaded, applied at once, or DRAINING. The command ends with the coat; for
a routing epoch, with its load. A PORT topcoat of QOS alone drains nothing. -/
def doCoatApply (s : State) : State :=
  if s.tack.coat.isSome then s
  else s.mbPerform 0x12 [1] (fun _ s =>
    if s.coatBusy then s.coatTurnedAway
    else
      let bs := s.staged
      let s := s.coBegin bs
      match s.checkCoat 1 s.flash.stageLen bs with
      | .error code => s.coatRefused code
      | .ok l =>
        match s.coatReady bs l with
        | .error code => s.coatRefused code
        | .ok (scope, unit) =>
          let hash := sha512 (bs.take (cTotal bs))
          let serial := cSerial bs
          match scope, secsOf 3 l with
          | 6, x :: _ => ((s.loadEpoch x).coatApplied serial hash false).coState 5
          | _, _ =>
            if scope = 2 && cScope bs = 2 && l.all (fun x => x.ty = 5) then
              (l.foldl (fun t x => t.coatSec x) s).coatApplied serial hash false
            else
              let was : Bool := match laneOfCode unit with | some n => s.laneOn n | none => false
              let j : CoatJob := ⟨scope, unit, l.map (fun x => (x.ty, x.body)), serial, hash, s.clk, was,
                s.scopeBlocks scope unit, false⟩
              ((s.coState 2).modTack (fun t => { t with coat := some j })).drainStart scope unit)

/-- COAT_INSTALL (R416, R439). -/
def doCoatInstall (s : State) : State :=
  s.mbPerform 0x13 [1, 2] (fun c s =>
    let slot := (c.arg 0).toNat
    if s.coatBusy then s.coatTurnedAway
    else if 1 < slot then s.mbDone 2 0 []
    else if s.mode = 1 && s.rf .tkState 47 47 = slot then s.mbDone 3 0 []
    else
      let bs := s.staged
      let s := s.coBegin bs
      match s.checkCoat 0 s.flash.stageLen bs with
      | .error code => s.coatRefused code
      | .ok _ =>
        let coat := bs.take (cTotal bs)
        let once := s.mode = 2
        let s := s.modFlash (fun f =>
          if slot = 0 then { f with slotA := coat, suspectA := false, preferred := 0, oneStart := f.oneStart || once }
          else { f with slotB := coat, suspectB := false, preferred := 1, oneStart := f.oneStart || once })
        s.showTk.mbDone 0 0 [])

end Sys2Proof.Machine
end

