-- ==== Sys2Proof/Machine/Mailbox.lean ====
section
/-! DEFINITION. The mailbox's commands other than those of coats (R439 to R442), signed commands, identity and
attestation (R435 to R437), and the SMBus interface (R444). -/

namespace Sys2Proof.Machine

/-! ### Reports (R435, R437) -/

def hashBytes (h : Option (BitVec 256)) : List Byte := beBytes 32 (h.getD 0).toNat

/-- The private identity key, derived from the identity secret fuses (R435). -/
def State.identityKey (s : State) : Nat := Config.deriveKey s.fuses.secret

/-- Bytes 0 to 139 of the identity block (R435). -/
def State.identityHead (s : State) : List Byte :=
  let q := ecPublic s.identityKey
  leBytes 8 (s.reg .chipId).toNat ++ beBytes 66 q.1 ++ beBytes 66 q.2

/-- The identity block (R435), with the vendor's endorsement of its bytes 0 to 139. -/
def State.identityBlock (s : State) : List Byte :=
  let sig := ecSign Config.vendorSecret (sha512 s.identityHead) Config.vendorNonce
  s.identityHead ++ beBytes 66 sig.1 ++ beBytes 66 sig.2

/-- Bytes 0 to 379 of a report (R437). -/
def State.reportBody (s : State) (nonce : List Byte) : List Byte :=
  let t := s.tack
  [0x4E, 0x56, 0x41, 0x52] ++ leBytes 2 1 ++ leBytes 2 0x6451 ++ leBytes 1 0xB0 ++ leBytes 1 s.fuses.sec ++ leBytes 1 s.mode ++
    leBytes 1 s.flash.failCount ++ leBytes 2 s.flash.reason ++ leBytes 2 0 ++ leBytes 8 (s.reg .chipId).toNat ++ nonce.take 64 ++
    digestBytes t.underHash ++ beBytes 16 (if t.underHash = 0 then 0 else s.chipDigest) ++ digestBytes t.chain ++
    leBytes 4 (s.rf .coSerial 63 32) ++ leBytes 4 t.chained ++ hashBytes s.fuses.owner0 ++ hashBytes s.fuses.owner1 ++
    leBytes 1 (b2n s.fuses.revoked0 + 2 * b2n s.fuses.revoked1) ++ leBytes 3 0 ++ leBytes 8 s.nt.toNat ++ leBytes 64 0

/-- A report signed by the identity key; the per-signature value comes from the random source (R431). -/
def State.report (s : State) (nonce : List Byte) : List Byte × State :=
  let body := s.reportBody nonce
  let (a, s) := s.random
  let (b, s) := s.random
  let k := (a.toNat * 2 ^ 512 + b.toNat) % (ecN - 1) + 1
  let sig := ecSign s.identityKey (sha512 body) k
  (body ++ beBytes 66 sig.1 ++ beBytes 66 sig.2, s)

/-- A measured supply in units of 10 mV: a free value, at least 10.8 V where the supply is known to be present. -/
def supply (there : Bool) (v : BitVec 16) : Nat := if there then 1080 + v.toNat % (65536 - 1080) else v.toNat

/-- The 16-byte status (R444). The supply voltages are free values, above the levels below which VIN_AUX, or VIN_MAIN while
main power is up, counts as lost (R39, R40). -/
def State.statusBytes (s : State) : List Byte × State :=
  let (vm, s) := s.free 16
  let (va, s) := s.free 16
  let vm := supply (s.pins.mainEn && s.pins.mainPg) vm
  let va := supply s.pins.vinAux va
  let f := s.flash
  let flags := b2n f.mainLost + 2 * b2n s.pins.trip + 4 * b2n f.watchdog + 8 * b2n s.tack.smbReport.isSome
  (leBytes 1 s.mode ++ leBytes 1 f.failCount ++ leBytes 2 f.reason ++ leBytes 2 (match f.grave with | some g => g.1 | none => 0) ++
    leBytes 1 flags ++ leBytes 1 s.tack.tjMax ++ leBytes 2 vm ++ leBytes 2 va ++ leBytes 2 (s.rf .tkPower 47 32) ++
    leBytes 1 s.fuses.sec ++ leBytes 1 (s.rf .tkState 47 47 + 2 * f.preferred), s)

/-! ### Unsigned commands -/

/-- GET_STATUS. -/
def doGetStatus (s : State) : State :=
  s.mbPerform 0x01 [0, 1, 2] (fun _ s => let r := s.statusBytes; r.2.mbDone 0 0 r.1)

/-- GET_NONCE: the nonce of the latest one alone is current (R441). -/
def doGetNonce (s : State) : State :=
  s.mbPerform 0x02 [1, 2] (fun _ s =>
    let (n, s) := s.random
    (s.modTack (fun t => { t with nonce := some (n, s.tk) })).mbDone 0 0 (digestBytes n))

/-- ATTEST. -/
def doAttest (s : State) : State :=
  s.mbPerform 0x03 [0, 1, 2] (fun c s => let r := s.report (c.bytes 64); r.2.mbDone 0 0 r.1)

/-- GET_IDENTITY. -/
def doGetIdentity (s : State) : State := s.mbPerform 0x04 [0, 1, 2] (fun _ s => s.mbDone 0 0 s.identityBlock)

/-- A SET command: a value in its range is taken, and the effective targets follow (R446). -/
def State.mbSet (s : State) (code lo hi : Nat) (put : Nat → State → State) : State :=
  s.mbPerform code [1, 2] (fun c s =>
    let v := (c.arg 0).toNat
    if within lo hi v then ((put v s).showCaps s.capped).mbDone 0 0 [] else s.mbDone 2 0 [])
def doSetPaceTarget (s : State) : State := s.mbSet 0x30 1500 2200 (fun v s => s.wf .tkPaceTarget 15 0 v)
def doSetPowerLimit (s : State) : State := s.mbSet 0x31 200 600 (fun v s => s.wf .tkPower 63 48 v)
def doSetThrottle (s : State) : State := s.mbSet 0x32 85 105 (fun v s => s.wf .tkTherm 47 40 v)

/-! ### Urgent commands and resets -/

/-- The urgent command of a code in progress, whether it runs alone or has overtaken another. -/
def State.mbUrgentRun (s : State) (code : Nat) : Option (MbCmd × Bool) :=
  match s.mbox.urgent with
  | some c => if c.code = code then some (c, true) else none
  | none => (s.mbRun code).map (fun c => (c, false))
def State.mbEnd (s : State) (urgent : Bool) (result : Nat) : State :=
  if urgent then s.mbUrgentDone result 0 [] else s.mbDone result 0 []

/-- Every lane that sends enters electrical idle (R38). -/
def State.linksIdle (s : State) : State :=
  let quiet (t : State) (l : LinkId) : State := (linkLanes l).foldl (fun t n =>
    if t.laneState n = 2 ∨ (t.laneAway n = true ∧ (t.lane n).txIdle = false) then t.laneIdle n else t) t
  (List.finRange 8).foldl (fun t h => quiet t (.host h)) ((List.finRange 64).foldl (fun t p => quiet t (.port p)) s)

/-- STOP (R38, R425, R449, R451): traffic stops while the store buffers drain; once they have, every transmitter enters
electrical idle and MAIN_EN goes low. A start that it ends leaves
the count as it stood, and no slot suspect. -/
def doStop (s : State) : State :=
  match s.mbUrgentRun 0x20 with
  | none => s
  | some (_, u) =>
    if !([0, 1, 2].contains s.mode) then s.mbEnd u 3
    else
    let s := s.groomsDrain
    if !s.storesDrained then s.modTack (fun t => { t with stopping := true })
    else
      let s := (s.coatStop.modTack (fun t => { t with stopping := false })).linksIdle
      let s := if s.tack.starting then
          (s.modFlash (fun f => { f with failCount := s.tack.before, inProgress := false })).modTack (fun t =>
            { t with starting := false, applied := none })
        else s
      (((s.mainOff.modTack (fun t => { t with retryAt := none })).setMode 5).setStep 0).showTk

/-- RESTART (R453). -/
def doRestart (s : State) : State :=
  s.mbPerform 0x21 [1, 2] (fun _ s =>
    let s := s.modTack (fun t => { t with leaving := decide (s.mode = 2) })
    (s.coreReset.modTack (fun t => { t with startAt := s.tk })).countPoint)

/-- DOMAIN_FENCE (R373): the cause is REQUESTED. -/
def doDomainFence (s : State) : State :=
  match s.mbUrgentRun 0x22 with
  | none => s
  | some (c, u) =>
    let d := (c.arg 0).toNat
    if s.mode ≠ 1 then s.mbEnd u 3
    else if 1 < d then s.mbEnd u 2
    else (s.fenceDomain d 5 0xFF).mbEnd u 0

/-- DOMAIN_RESTART (R375, R376): a fenced domain becomes RESTARTING; one that runs is left as it is. -/
def doDomainRestart (s : State) : State :=
  s.mbPerform 0x23 [1] (fun c s =>
    let d := (c.arg 0).toNat
    if 1 < d then s.mbDone 2 0 []
    else if s.domState d = 1 then
      ({ s.wf (.csStatus (domOf d)) 63 62 2 with restart := tPut d 2 s.restart }).mbDone 0 0 []
    else s.mbDone 0 0 [])

/-! ### Signed commands (R436, R441) -/

/-- Whether a nonce is current. -/
def State.nonceOk (s : State) (bs : List Byte) : Bool :=
  match s.tack.nonce with
  | some (n, t) => bs = digestBytes n && decide (s.tk < t + ms 60000)
  | none => false

/-- The checks of a signed command, in order: 0, or the code of the one that fails. `used` is the number of argument
bytes that the command uses. -/
def State.signedCheck (s : State) (c : MbCmd) (used : Nat) : Nat :=
  let bs := c.bytes 532
  let block := cBytes bs 128 272
  if cBytes bs 0 4 ≠ [0x4E, 0x56, 0x53, 0x43] ∨ cNum bs 4 1 ≠ c.code ∨ !allZero (cBytes bs 5 3) ∨
      cNum bs 8 8 ≠ (s.reg .chipId).toNat ∨ cNum bs 8 8 = 0 ∨ !allZero (cBytes bs (80 + used) (48 - used)) then 2
  else if !s.keyOk block then 5
  else if !signedBy block (bs.take 400) (cBytes bs 400 132) then 6
  else if !s.nonceOk (cBytes bs 16 64) then 7
  else 0

/-- A signed command performed once its checks pass; its nonce is used. -/
def State.mbSigned (s : State) (code used : Nat) (f : MbCmd → State → State) : State :=
  s.mbPerform code [1, 2] (fun c s =>
    match s.signedCheck c used with
    | 0 => f c (s.modTack (fun t => { t with nonce := none }))
    | e => s.mbDone e 0 [])

/-- CLEAR_STARTS. -/
def doClearStarts (s : State) : State :=
  s.mbSigned 0x40 0 (fun _ s => ((s.modFlash (fun f => { f with failCount := 0 })).showTk).mbDone 0 0 [])

/-- The slot that a signed command's arguments name. -/
def MbCmd.slot (c : MbCmd) : Nat := cNum (c.bytes 532) 80 1

/-- SELECT_SLOT: the slot becomes preferred, and the suspect marks are cleared. -/
def doSelectSlot (s : State) : State :=
  s.mbSigned 0x41 1 (fun c s =>
    if 1 < c.slot then s.mbDone 2 0 []
    else
      let n := c.slot
      ((s.modFlash (fun f => { f with preferred := n, suspectA := false, suspectB := false })).showTk).mbDone 0 0 [])

/-- OWNER_ENROL (R436): an empty slot that is not revoked is filled. -/
def doOwnerEnrol (s : State) : State :=
  s.mbPerform 0x42 [1, 2] (fun c s =>
    let block := c.bytes 272
    let n := ownerSlot block
    if 1 < n then s.mbDone 2 0 []
    else if !s.endorsed block then s.mbDone 5 0 []
    else if (s.fuses.owner n).isSome || s.fuses.revoked n then s.mbDone 3 0 []
    else
      let h := ownerHash block
      let f := s.fuses
      let f := if n = 0 then { f with owner0 := if h = 0 then none else some h } else { f with owner1 := if h = 0 then none else some h }
      ({ s with fuses := f }.showTk).mbDone 0 0 [])

/-- OWNER_REVOKE (R436): signed with the key of the other slot. -/
def doOwnerRevoke (s : State) : State :=
  s.mbSigned 0x43 1 (fun c s =>
    let n := c.slot
    if 1 < n then s.mbDone 2 0 []
    else if ownerSlot (cBytes (c.bytes 532) 128 272) ≠ 1 - n then s.mbDone 5 0 []
    else
      let f := s.fuses
      let f := if n = 0 then { f with revoked0 := true } else { f with revoked1 := true }
      ({ s with fuses := f }.showTk).mbDone 0 0 [])

/-- NONCE_EXPIRY (R441). -/
def doNonceExpiry (s : State) : State :=
  match s.tack.nonce with
  | some (_, t) => if t + ms 60000 ≤ s.tk then s.modTack (fun t => { t with nonce := none }) else s
  | none => s

/-! ### SMBus (R444) -/

/-- Whether a transaction is answered: the Tack Room is ready, and the address is its own (R45). -/
def State.smbMine (s : State) (addr : BitVec 7) : Bool := s.tack.up && addr = s.smbAddr

/-- SMBUS STATUS. -/
def doSmbStatus (addr : BitVec 7) (s : State) : State :=
  if s.smbMine addr then let r := s.statusBytes; r.2.emit (.smbus r.1) else s

/-- SMBUS ATTEST: a block of 64 bytes; the report is ready with it. -/
def doSmbAttest (addr : BitVec 7) (nonce : List Byte) (s : State) : State :=
  if s.smbMine addr && nonce.length = 64 then
    let r := s.report nonce
    r.2.modTack (fun t => { t with smbReport := some r.1 })
  else s

/-- 128 bytes that the specification leaves open. -/
def State.freeBlock (s : State) : List Byte × State :=
  let (v, s) := s.free 1024
  (leBytes 128 v.toNat, s)

/-- SMBUS REPORT: the selected part; before any report is ready, what it returns is open. -/
def doSmbReport (addr : BitVec 7) (s : State) : State :=
  if !s.smbMine addr then s
  else match s.tack.smbReport with
    | some r => s.emit (.smbus (cBytes r (128 * s.tack.smbPart) 128))
    | none => let r := s.freeBlock; r.2.emit (.smbus r.1)

/-- SMBUS PART: 0 to 3; another value is not acknowledged. -/
def doSmbPart (addr : BitVec 7) (n : BitVec 8) (s : State) : State :=
  if s.smbMine addr && decide (n.toNat ≤ 3) then s.modTack (fun t => { t with smbPart := n.toNat }) else s

/-- SMBUS IDENTITY: parts 0 to 2 of the identity block, padded with zeros to 384 bytes; what part 3 returns is open. -/
def doSmbIdentity (addr : BitVec 7) (s : State) : State :=
  if !s.smbMine addr then s
  else if s.tack.smbPart ≤ 2 then
    s.emit (.smbus (cBytes (s.identityBlock ++ List.replicate 112 0) (128 * s.tack.smbPart) 128))
  else let r := s.freeBlock; r.2.emit (.smbus r.1)

/-- TACK_NOTE_CLEAR (R462). -/
def doTackNoteClear (s : State) : State :=
  match s.tack.noteAt with
  | some t =>
    if t + ms 1000 ≤ s.tk then (s.wb (.ftStatus .tack) 0 false).modTack (fun t => { t with noteAt := none }) else s
  | none => s

end Sys2Proof.Machine
end

