-- ==== Sys2Proof/Machine/Start.lean ====
section
/-! DEFINITION. The later steps of a start (R447 to R449), and the restart of a domain (R375, R376, R493). -/

namespace Sys2Proof.Machine

/-! ### Choosing an undercoat (R448) -/

/-- Whether a slot may be passed over for the other at the first try. -/
def Flash.poor (f : Flash) (n : Nat) : Bool := f.slot n = [] || (if n = 0 then f.suspectA else f.suspectB)

/-- The slots in the order in which they are tried. -/
def Flash.order (f : Flash) : List Nat :=
  let p := f.preferred
  if f.poor p && !f.poor (1 - p) then [1 - p, p] else [p, 1 - p]

/-- What trying a slot gives: none for an empty one, else its sections or the code of its refusal. -/
def State.trySlot (s : State) (n : Nat) : Option (Except Nat (List CoatSec)) :=
  let bs := s.flash.slot n
  if bs = [] then none else some (s.checkCoat 0 bs.length bs)

/-- The filled slots in the order in which a start tries them. -/
def State.coatSlots (s : State) : List Nat := s.flash.order.filter (fun n => s.flash.slot n ≠ [])

/-- ms beyond the bound of step 7 that an undercoat's size adds (R447). -/
def extraMs (bs : List Byte) : Nat := 12 * ceilDiv (bs.length - 0x1000000) 0x100000

/-- The bound of step 7 for the slot tried after `k` others. -/
def State.slotBound (s : State) (k : Nat) : Nat :=
  match s.coatSlots[k]? with
  | some n => 300 + extraMs (s.flash.slot n)
  | none => 300
def State.step7Bound (s : State) : Nat := s.slotBound s.tack.tried

/-- The bound of the whole start, with the slots that have been tried so far (R447). -/
def State.totalBound (s : State) : Nat := 1200 + ((List.range (s.tack.tried + 1)).map s.slotBound).sum

/-- The bound of the step in progress: of step 9, the end of which is no failure, and of the steps before step 4, none. -/
def State.stepBound (s : State) : Option Nat :=
  match s.step? with
  | 4 => some 100
  | 5 => some 5
  | 6 => some 200
  | 7 => some s.step7Bound
  | 8 => some 50
  | _ => none

/-- The reason of a start whose step in progress exceeds its bound (R449). `west` says whose training or Steward is late,
where East's is not. -/
def State.lateReason (s : State) (west : Bool) : Nat :=
  match s.step? with
  | 4 => 0x0101
  | 5 => 0x0102
  | 6 => if west then 0x0202 else 0x0201
  | 8 => if west then 0x0402 else 0x0401
  | _ => 0x0502

/-- Whether more than the bound of the step in progress, or of the whole start, has passed. -/
def State.stepLate (s : State) : Bool := s.stepBound.any (fun n => s.stepOver n)
def State.startLate (s : State) : Bool := decide (s.tack.startAt + ms s.totalBound < s.tk)

/-! ### START_STEP_COMPLETE -/

/-- The result of a slot shown in TK_DUST_REASON. -/
def State.showResult (s : State) (n code : Nat) : State :=
  if n = 0 then s.wf .tkDustReason 47 40 code else s.wf .tkDustReason 39 32 code

/-- A slot refused in step 7 (R448): the next one is tried within a bound of its own, or the start fails. -/
def State.slotRefused (s : State) (n code : Nat) : State :=
  let s := ((s.showResult n code).coBegin (s.flash.slot n)).wf .coStatus 55 48 code
  let k := s.tack.tried + 1
  if k < s.coatSlots.length then s.modTack (fun t => { t with tried := k, stepAt := s.tk }) else s.failStart 0x0302

/-- Step 7 (R447, R448): the stacks are cleared, and the next slot is applied, fails to be, or is refused. -/
def State.startCoat (s : State) (ok : Bool) : State :=
  let s := { s with hbm := [] }
  match s.coatSlots[s.tack.tried]? with
  | none => s.failStart 0x0301
  | some n =>
    match s.trySlot n with
    | some (.error code) => s.slotRefused n code
    | some (.ok l) =>
      let s := ((s.showResult n 0).coBegin (s.flash.slot n)).modTack (fun t => { t with applied := some n })
      if !ok then s.failStart 0x0303
      else (((s.applyUnder (s.flash.slot n) l).showCaps s.capped).setStep 8).modTack (fun t => { t with stepAt := s.tk })
    | none => s.failStart 0x0301

/-- Step 9 begins: the lanes of every enabled link train (R447), and a chip without a candidate is in holdover (R395). A
link whose force_fence is 1 is FENCED or LOST instead, and stays so (R108, R110). -/
def State.startLinks (s : State) : State :=
  let s := (List.finRange 64).foldl (fun (t : State) p => t.linkBack (.port p)) s.chooseParent
  (List.finRange 8).foldl (fun (t : State) h => t.linkBack (.host h)) s

/-- Every port in UP judges its neighbour again by this chip's new security version (R418, R101). -/
def State.judgeAll (s : State) : State :=
  (List.finRange 64).foldl (fun (t : State) p => if t.portState p = 3 ∨ t.portState p = 4 then t.judge p else t) s

/-- Step 10: the start succeeds (R447, R418). -/
def State.startDone (s : State) : State :=
  let n := s.tack.applied.getD 0
  let sec := s.tack.burn.getD s.fuses.sec
  let burnt := s.tack.burn.isSome
  let s := s.modFlash (fun f => { f with failCount := 0, suspectA := false, suspectB := false, mainLost := false,
                                         watchdog := false, inProgress := false })
  let s := { s with fuses := { s.fuses with sec := sec } }
  let s := (s.setMode 1).setStep 10
  let s := (s.wf .tkState 47 47 n).wf .tkState 31 0 ((s.tk - s.tack.startAt) / 16000000)
  let s := (s.modTack (fun t => { t with starting := false, applied := none, burn := none })).showTk
  if burnt then s.judgeAll else s

/-- START_STEP_COMPLETE: the step in progress completes, or ends in a failure that R454 names: of a stack in steps 6 and
7, of the application in step 7. Another step has no such failure. What completes after its bound is too late: the start
fails as at START_STEP_TIMEOUT, with East's reason (log entry 45). -/
def doStartStepComplete (how : StepEnd) (s : State) : State :=
  if !s.tack.up || !s.tack.starting || !s.coreOn then s
  else if s.stepLate then s.failStart (s.lateReason false)
  else if s.startLate then s.failStart 0x0502
  else
    let next (n : Nat) (s : State) : State := (s.setStep n).modTack (fun t => { t with stepAt := s.tk })
    match s.step? with
    | 6 => (match how with
      | .done => next 7 s
      | .stackFailed => s.failStart 0x0203
      | .notApplied => s)
    | 7 => (match how with
      | .done => s.startCoat true
      | .stackFailed => s.failStart 0x0203
      | .notApplied => s.startCoat false)
    | 8 => if how = .done then (next 9 s).startLinks else s
    | 9 => if how = .done then s.startDone else s
    | _ => s

/-- START_STEP_TIMEOUT (R447, R449): the reason of the step's own bound, then that of the total. Step 9 ends at its
bound. -/
def doStartStepTimeout (west : Bool) (s : State) : State :=
  if !s.tack.up || !s.tack.starting then s
  else
    let late (bound : Nat) : Bool := decide (s.tack.stepAt + ms bound < s.tk)
    if s.stepBound.any late then s.failStart (s.lateReason west)
    else if s.step? = 9 && late 500 && !s.startLate then s.startDone
    else if s.tack.startAt + ms s.totalBound < s.tk then s.failStart 0x0502
    else s

/-! ### The restart of a domain -/

/-- Whether step 2 of a restart gives a register its reset value (R493). -/
def restartResets (d : Nat) (r : Reg) : Bool :=
  blockInDomain d r.block && (match r with
    | .rtCount _ => false
    | .rtExc _ _ => false
    | .csCtrl _ => false
    | .csStatus _ => false
    | .csCount _ => false
    | .ftStatus (.domain _) => false
    | .ftMask (.domain _) => false
    | .ftIntr (.domain _) => false
    | .ftCode (.domain _) => false
    | .ftStatus (.hitch _) => false
    | .ftMask (.hitch _) => false
    | .ftIntr (.hitch _) => false
    | .ftCode (.hitch _) => false
    | _ => true)
def restartAddr (d a : Nat) : Bool := match targetAt a with | .reg r => restartResets d r | _ => false

/-- The blocks of a domain. -/
def domBlocks (d : Nat) : List Block := stopped d ++ [.domain (domOf d), .hitch (domOf d)]

/-- The fixed counters of a domain's blocks at 0, counting or held. -/
def State.restartPm (s : State) (d : Nat) (run : Bool) : State :=
  { s with pmFix := (domBlocks d).foldl (fun t b => tSet {} (blockBase b) { val := 0, since := s.clk, run := run } t) s.pmFix }

/-- Step 2: the stopped parts are reset (R375, R493). -/
def State.restartReset (s : State) (d : Nat) : State :=
  let st (n : Nat) : Bool := n / 8 = d
  { s with
    regs := s.regs.filter (fun e => !restartAddr d e.1), locks := s.locks.filter (fun e => !decide (e.1 / 65536 = d)),
    grooms := s.grooms.filter (fun e => !st (e.1 / 16)), runqs := s.runqs.filter (fun e => !st e.1),
    buf := s.buf.filter (fun c => match targetAt c.1 with | .scratch n _ => !st n.val | _ => true),
    dir := s.dir.filter (fun e => !decide (domOfHbm (64 * e.1) = d)), hints := s.hints.filter (fun e => !decide (domOfHbm (64 * e.1) = d)),
    engOff := s.engOff.filter (fun e => !decide (e / 4 = d)),
    tmWrote := s.tmWrote.filter (fun e => !decide (e.1 / 16 = d)),
    pmSeen := s.pmSeen.filter (fun e => !restartAddr d e.1) }.restartPm d false

/-- Step 4: the stack is cleared. -/
def State.clearStack (s : State) (d : Nat) : State := { s with hbm := s.hbm.filter (fun c => !decide (c.1 / stackSize = d)) }

/-- DOMAIN_RESTARTED to every management event queue that is valid (R467). -/
def State.reportRestart (s : State) (d : Nat) : State :=
  (List.range 8).foldl (fun t h =>
    if t.rb (.hlMgmtEq (hlinkOf h)) 63 then
      t.postMgmt h 0x0803 none [(2, 63, 63, d), (2, 55, 48, t.rf (.csStatus (domOf d)) 55 48)]
    else t) s

/-- DOMAIN_RESTART_STEP: the step in progress completes, or fails, which abandons the restart (R376). -/
def doDomainRestartStep (d : Dom) (ok : Bool) (s : State) : State :=
  let go (n : Nat) (s : State) : State := { s with restart := tPut d.val n s.restart }
  match tFind s.restart d.val with
  | none => s
  | some k =>
    if k = 5 && s.tack.coat.isSome then s
    else if !ok then s.domainFailure d.val 6 0xFF
    else match k with
      | 2 => go 3 (s.restartReset d.val)
      | 3 => go 4 s
      | 4 => go 5 (s.clearStack d.val)
      | 5 => (match s.trySlot (s.rf .tkState 47 47) with
        | some (.ok l) => go 6 (s.applyDomain d.val l)
        | _ => s.domainFailure d.val 6 0xFF)
      | _ =>
        let r := Reg.csStatus d
        let s := (s.wf r 63 62 0).bump r 55 48 1
        ({ s with restart := tDel d.val s.restart, stewardAt := tSet 0 d.val s.clk s.stewardAt }.restartPm d.val true).reportRestart d.val

end Sys2Proof.Machine
end

