-- ==== Sys2Proof/Machine/Elapse.lean ====
section
/-! DEFINITION. The passing of time, and the forms in which every command's effect is performed: where its unit is
powered and out of reset, after the time that the command says has passed, with the work it leaves done at once. -/

namespace Sys2Proof.Machine

/-- The advance of network time in `dt` counts of the resonator, in parts of 10^9 of a count: NT_OFFSET.freq is the rate's
correction (R396). -/
def State.ntParts (s : State) (dt : Nat) : Nat := s.ntFrac + dt * (1000000000 + toSigned 32 (s.rf .ntOffset 31 0)).toNat

/-- Time passes (R391, R396, R432, R474, R476): Tack Room time while VIN_AUX is present and RESET_L is high; network time and
the core's counts, at the corrected rate, while the core rails are up and RESET_L is high; counters of conditions count. -/
def State.elapse (dt : Nat) (s : State) : State :=
  let s := if s.pins.vinAux && s.pins.resetL then { s with tk := s.tk + dt } else s
  if s.coreOn && s.pins.resetL then
    let n := s.ntParts dt / 1000000000
    { s with nt := s.nt + BitVec.ofNat 64 n, clk := s.clk + n, ntFrac := s.ntParts dt % 1000000000 }.pmPassTime s.clk (s.clk + n)
  else s

/-- What an effect leaves is done: the work it queued, and what a topcoat in progress meets (log entry 20). -/
def State.fin (s : State) : State := s.settle.coatWatch.settle

/-- The block idles: one count of time passes, and nothing holds the stores of the cores and the Grooms back. -/
def State.idle (s : State) : State := ((s.elapse 1).coresIdle.groomsDrain).fin

/-- An effect on a powered block, with no work left behind. -/
def State.quiet (b : Block) (f : State → State) (s : State) : Host.Outcome State Fault Refusal :=
  .next (if s.live b then f s else s)

/-- An effect on a powered block, and what it leaves. -/
def State.act (b : Block) (f : State → State) (s : State) : Host.Outcome State Fault Refusal :=
  .next (if s.live b then (f s).fin else s)

/-- An effect on a powered block after some time has passed, and what it leaves. -/
def State.actAfter (b : Block) (dt : Nat) (f : State → State) (s : State) : Host.Outcome State Fault Refusal :=
  (s.elapse dt).act b f

/-- An effect of the supplies, pins or Tack Room, which tests for itself what it needs, and what it leaves. -/
def State.tackAct (f : State → State) (s : State) : Host.Outcome State Fault Refusal := .next (f s).fin

/-- The same after some time has passed. -/
def State.tackAfter (dt : Nat) (f : State → State) (s : State) : Host.Outcome State Fault Refusal :=
  (s.elapse dt).tackAct f

/-- An effect on a powered block after some time has passed, with no work left behind. -/
def State.quietAfter (b : Block) (dt : Nat) (f : State → State) (s : State) : Host.Outcome State Fault Refusal :=
  (s.elapse dt).quiet b f

/-- Whether an agent that reaches the device address space is powered: a Steward from step 8 of a start (R447), while its
domain runs (R372). -/
def State.agentLive (s : State) : Master → Bool
  | .fn h _ => s.live (.hostlink h)
  | .steward d => s.live (.domain d) && s.domRuns d.val && (!s.tack.starting || decide (8 ≤ s.step?))
  | .warden => s.tack.up

/-- An access of the device address space by an agent that is powered (R488). -/
def State.accessAct (m : Master) (f : State → State) (s : State) : Host.Outcome State Fault Refusal :=
  .next (if s.agentLive m then (f s).fin else s)

/-- What a master does in the order that its earlier accesses require; where those left some pending, with what they leave
once performed (R362). -/
def State.ordered (s : State) (m : Master) (a : Nat) (f : State → State) : State :=
  if s.coreAccs.isEmpty then f s else (s.inCoreOrder m a f).fin

/-- A read of a lock window (R390) that its master may make, of a powered hitch unit. -/
def State.lockAct (m : Master) (k : Nat) (d : Dom) (n : BitVec 16) (f : State → State) (s : State) :
    Host.Outcome State Fault Refusal :=
  .next (if s.agentLive m && s.live (.hitch d) && s.masterMay m (hkAddr k d n) then s.ordered m (hkAddr k d n) f else s)

/-- The block of a routing source. -/
def srcBlock : RouteSrc → Block
  | .port p => .port p
  | .inject st => .stall st

end Sys2Proof.Machine
end

