-- ==== Sys2Proof/Machine/ExecColl.lean ====
section
/-! DEFINITION. The meanings of the commands, row by row.
Collectives (chapter 11).
Each performs its effect where the unit it acts on is powered, after the time that its operand says has passed. A row
of work that any stall may do names East's domain block, which is powered whenever any of them is. -/

namespace Sys2Proof.Machine

/-- COLL_UP_RECEIVE (R300). -/
def execCollUpReceive (e : Engine) (s : State) : Host.Outcome State Fault Refusal :=
  s.act (.coll e) (doCollUpReceive e)
/-- COLL_DOWN_RECEIVE (R300). -/
def execCollDownReceive (e : Engine) (s : State) : Host.Outcome State Fault Refusal :=
  s.act (.coll e) (doCollDownReceive e)
/-- COLL_TIMEOUT (R315). -/
def execCollTimeout (e : Engine) (group : BitVec 16) (inst : BitVec 24) (dt : Nat) (s : State) : Host.Outcome State Fault Refusal :=
  s.actAfter (.coll e) dt (doCollTimeout e group inst)
/-- CL_INSTALL (R291). -/
def execClInstall (e : Engine) (group : BitVec 16) (s : State) : Host.Outcome State Fault Refusal :=
  s.act (.coll e) (doClInstall e group)
/-- CL_REMOVE (R291). -/
def execClRemove (e : Engine) (group : BitVec 16) (s : State) : Host.Outcome State Fault Refusal :=
  s.act (.coll e) (doClRemove e group)
/-- CL_ABORT (R316). -/
def execClAbort (e : Engine) (group : BitVec 16) (s : State) : Host.Outcome State Fault Refusal :=
  s.act (.coll e) (doClAbort e group)
/-- CL_UNFENCE (R465). -/
def execClUnfence (e : Engine) (s : State) : Host.Outcome State Fault Refusal :=
  s.act (.coll e) (doClUnfence e)
/-- ENGINE_FENCED (R465). -/
def execEngineFenced (e : Engine) (s : State) : Host.Outcome State Fault Refusal :=
  s.act (.coll e) (doEngineFenced e)

end Sys2Proof.Machine
end

