-- ==== Sys2Proof/Machine/ExecDomain.lean ====
section
/-! DEFINITION. The meanings of the commands, row by row.
Context stores, hitch units and locks (chapters 13, 14).
Each performs its effect where the unit it acts on is powered, after the time that its operand says has passed. A row
of work that any stall may do names East's domain block, which is powered whenever any of them is. -/

namespace Sys2Proof.Machine

/-- DIRECTORY_REQUEST (R367). -/
def execDirectoryRequest (d : Dom) (cache : Fin 8) (req : DirReq) (line : Nat) (s : State) : Host.Outcome State Fault Refusal :=
  s.quiet (.domain d) (doDirectoryRequest d cache req line)
/-- UNCACHED_READ (R369). -/
def execUncachedRead (d : Dom) (line : Nat) (s : State) : Host.Outcome State Fault Refusal :=
  s.quiet (.domain d) (doUncachedRead d line)
/-- UNCACHED_WRITE (R369). -/
def execUncachedWrite (d : Dom) (line : Nat) (mask : BitVec 64) (data : BitVec 512) (s : State) : Host.Outcome State Fault Refusal :=
  s.quiet (.domain d) (doUncachedWrite d line mask data)
/-- WRITE_HINT (R370). -/
def execWriteHint (d : Dom) (line : Nat) (data : BitVec 512) (target : Fin 8) (ready : Bool) (s : State) : Host.Outcome State Fault Refusal :=
  s.quiet (.domain d) (doWriteHint d line data target ready)
/-- CONTEXT_STORE_FAILURE (R371). -/
def execContextStoreFailure (d : Dom) (cause : StoreFailure) (agent : BitVec 8) (s : State) : Host.Outcome State Fault Refusal :=
  s.act (.domain d) (doContextStoreFailure d cause agent)
/-- COHERENCE_TIMEOUT (R371). -/
def execCoherenceTimeout (d : Dom) (agent : BitVec 8) (dt : Nat) (s : State) : Host.Outcome State Fault Refusal :=
  s.actAfter (.domain d) dt (doCoherenceTimeout d agent dt)
/-- STEWARD_WATCHDOG (R371). -/
def execStewardWatchdog (d : Dom) (expiry : Expiry) (s : State) : Host.Outcome State Fault Refusal :=
  s.actAfter (.domain d) expiry.dt (doStewardWatchdog d expiry.served)
/-- DOMAIN_RESTART_STEP (R375). -/
def execDomainRestartStep (d : Dom) (ok : Bool) (s : State) : Host.Outcome State Fault Refusal :=
  s.act (.domain d) (doDomainRestartStep d ok)
/-- HITCH_ATOMIC (R378). -/
def execHitchAtomic (d : Dom) (addr : BitVec 64) (code : BitVec 11) (operand : BitVec 64) (compare : BitVec 64) (s : State) : Host.Outcome State Fault Refusal :=
  s.quiet (.hitch d) (fun t => t.ordered (.steward d) addr.toNat (doHitchAtomic d addr code operand compare))
/-- HK_ACQUIRE (R385). -/
def execHkAcquire (m : Master) (d : Dom) (n : BitVec 16) (s : State) : Host.Outcome State Fault Refusal :=
  s.lockAct m 0 d n (doHkAcquire m d n)
/-- HK_TRY (R385). -/
def execHkTry (m : Master) (d : Dom) (n : BitVec 16) (s : State) : Host.Outcome State Fault Refusal :=
  s.lockAct m 1 d n (doHkTry m d n)
/-- HK_RELEASE (R385). -/
def execHkRelease (m : Master) (d : Dom) (n : BitVec 16) (s : State) : Host.Outcome State Fault Refusal :=
  s.lockAct m 2 d n (doHkRelease m d n)
/-- HK_CANCEL (R389). -/
def execHkCancel (m : Master) (d : Dom) (n : BitVec 16) (s : State) : Host.Outcome State Fault Refusal :=
  s.lockAct m 3 d n (doHkCancel m d n)

end Sys2Proof.Machine
end

