-- ==== Sys2Proof/Machine/ExecGroom.lean ====
section
/-! DEFINITION. The meanings of the commands, row by row.
Grooms (chapter 12).
Each performs its effect where the unit it acts on is powered, after the time that its operand says has passed. A row
of work that any stall may do names East's domain block, which is powered whenever any of them is. -/

namespace Sys2Proof.Machine

/-- RUN_DISPATCH (R329). -/
def execRunDispatch (g : GroomId) (completion : Bool) (s : State) : Host.Outcome State Fault Refusal :=
  s.act (.stall g.s) (doRunDispatch g completion)
/-- ALU (R337). -/
def execAlu (g : GroomId) (rd : BitVec 5) (rs1 : BitVec 5) (rs2 : BitVec 5) (fn : BitVec 11) (s : State) : Host.Outcome State Fault Refusal :=
  s.quiet (.stall g.s) (doAlu g rd rs1 rs2 fn)
/-- ADDI (R336). -/
def execAddi (g : GroomId) (rd : BitVec 5) (rs1 : BitVec 5) (imm : BitVec 16) (s : State) : Host.Outcome State Fault Refusal :=
  s.quiet (.stall g.s) (doAddi g rd rs1 imm)
/-- ANDI (R336). -/
def execAndi (g : GroomId) (rd : BitVec 5) (rs1 : BitVec 5) (imm : BitVec 16) (s : State) : Host.Outcome State Fault Refusal :=
  s.quiet (.stall g.s) (doAndi g rd rs1 imm)
/-- ORI (R336). -/
def execOri (g : GroomId) (rd : BitVec 5) (rs1 : BitVec 5) (imm : BitVec 16) (s : State) : Host.Outcome State Fault Refusal :=
  s.quiet (.stall g.s) (doOri g rd rs1 imm)
/-- XORI (R336). -/
def execXori (g : GroomId) (rd : BitVec 5) (rs1 : BitVec 5) (imm : BitVec 16) (s : State) : Host.Outcome State Fault Refusal :=
  s.quiet (.stall g.s) (doXori g rd rs1 imm)
/-- SLTI (R336). -/
def execSlti (g : GroomId) (rd : BitVec 5) (rs1 : BitVec 5) (imm : BitVec 16) (s : State) : Host.Outcome State Fault Refusal :=
  s.quiet (.stall g.s) (doSlti g rd rs1 imm)
/-- SLTIU (R336). -/
def execSltiu (g : GroomId) (rd : BitVec 5) (rs1 : BitVec 5) (imm : BitVec 16) (s : State) : Host.Outcome State Fault Refusal :=
  s.quiet (.stall g.s) (doSltiu g rd rs1 imm)
/-- SHI (R336). -/
def execShi (g : GroomId) (rd : BitVec 5) (rs1 : BitVec 5) (imm : BitVec 16) (s : State) : Host.Outcome State Fault Refusal :=
  s.quiet (.stall g.s) (doShi g rd rs1 imm)
/-- LUI (R336). -/
def execLui (g : GroomId) (rd : BitVec 5) (rs1 : BitVec 5) (imm : BitVec 16) (s : State) : Host.Outcome State Fault Refusal :=
  s.quiet (.stall g.s) (doLui g rd rs1 imm)
/-- SHORI (R336). -/
def execShori (g : GroomId) (rd : BitVec 5) (rs1 : BitVec 5) (imm : BitVec 16) (s : State) : Host.Outcome State Fault Refusal :=
  s.quiet (.stall g.s) (doShori g rd rs1 imm)
/-- LD (R321). -/
def execLd (g : GroomId) (r : BitVec 5) (base : BitVec 5) (size : BitVec 2) (mark : BitVec 2) (off : BitVec 12) (s : State) : Host.Outcome State Fault Refusal :=
  s.act (.stall g.s) (doLd g r base size mark off)
/-- ST (R342). -/
def execSt (g : GroomId) (r : BitVec 5) (base : BitVec 5) (size : BitVec 2) (mark : BitVec 2) (off : BitVec 12) (s : State) : Host.Outcome State Fault Refusal :=
  s.act (.stall g.s) (doSt g r base size mark off)
/-- LDV (R340). -/
def execLdv (g : GroomId) (r : BitVec 5) (base : BitVec 5) (size : BitVec 2) (mark : BitVec 2) (off : BitVec 12) (s : State) : Host.Outcome State Fault Refusal :=
  s.act (.stall g.s) (doLdv g r base size mark off)
/-- STV (R340). -/
def execStv (g : GroomId) (r : BitVec 5) (base : BitVec 5) (size : BitVec 2) (mark : BitVec 2) (off : BitVec 12) (s : State) : Host.Outcome State Fault Refusal :=
  s.act (.stall g.s) (doStv g r base size mark off)
/-- AMOL (R336). -/
def execAmol (g : GroomId) (rd : BitVec 5) (rs1 : BitVec 5) (rs2 : BitVec 5) (fn : BitVec 11) (s : State) : Host.Outcome State Fault Refusal :=
  s.act (.stall g.s) (doAmol g rd rs1 rs2 fn)
/-- HAMO (R344). -/
def execHamo (g : GroomId) (rd : BitVec 5) (rs1 : BitVec 5) (rs2 : BitVec 5) (fn : BitVec 11) (s : State) : Host.Outcome State Fault Refusal :=
  s.act (.stall g.s) (doHamo g rd rs1 rs2 fn)
/-- HLOCK (R344). -/
def execHlock (g : GroomId) (rd : BitVec 5) (rs1 : BitVec 5) (imm : BitVec 16) (s : State) : Host.Outcome State Fault Refusal :=
  s.act (.stall g.s) (doHlock g rd rs1 imm)
/-- HUNLOCK (R344). -/
def execHunlock (g : GroomId) (rd : BitVec 5) (rs1 : BitVec 5) (imm : BitVec 16) (s : State) : Host.Outcome State Fault Refusal :=
  s.act (.stall g.s) (doHunlock g rd rs1 imm)
/-- BEQ (R336). -/
def execBeq (g : GroomId) (rs1 : BitVec 5) (rs2 : BitVec 5) (off : BitVec 16) (s : State) : Host.Outcome State Fault Refusal :=
  s.quiet (.stall g.s) (doBeq g rs1 rs2 off)
/-- BNE (R336). -/
def execBne (g : GroomId) (rs1 : BitVec 5) (rs2 : BitVec 5) (off : BitVec 16) (s : State) : Host.Outcome State Fault Refusal :=
  s.quiet (.stall g.s) (doBne g rs1 rs2 off)
/-- BLT (R336). -/
def execBlt (g : GroomId) (rs1 : BitVec 5) (rs2 : BitVec 5) (off : BitVec 16) (s : State) : Host.Outcome State Fault Refusal :=
  s.quiet (.stall g.s) (doBlt g rs1 rs2 off)
/-- BGE (R336). -/
def execBge (g : GroomId) (rs1 : BitVec 5) (rs2 : BitVec 5) (off : BitVec 16) (s : State) : Host.Outcome State Fault Refusal :=
  s.quiet (.stall g.s) (doBge g rs1 rs2 off)
/-- BLTU (R336). -/
def execBltu (g : GroomId) (rs1 : BitVec 5) (rs2 : BitVec 5) (off : BitVec 16) (s : State) : Host.Outcome State Fault Refusal :=
  s.quiet (.stall g.s) (doBltu g rs1 rs2 off)
/-- BGEU (R336). -/
def execBgeu (g : GroomId) (rs1 : BitVec 5) (rs2 : BitVec 5) (off : BitVec 16) (s : State) : Host.Outcome State Fault Refusal :=
  s.quiet (.stall g.s) (doBgeu g rs1 rs2 off)
/-- JAL (R336). -/
def execJal (g : GroomId) (off : BitVec 26) (s : State) : Host.Outcome State Fault Refusal :=
  s.quiet (.stall g.s) (doJal g off)
/-- JALR (R336). -/
def execJalr (g : GroomId) (rd : BitVec 5) (rs1 : BitVec 5) (imm : BitVec 16) (s : State) : Host.Outcome State Fault Refusal :=
  s.quiet (.stall g.s) (doJalr g rd rs1 imm)
/-- ISSUE (R343). -/
def execIssue (g : GroomId) (rd : BitVec 5) (rs1 : BitVec 5) (imm : BitVec 16) (s : State) : Host.Outcome State Fault Refusal :=
  s.act (.stall g.s) (doIssue g rd rs1 imm)
/-- WFE (R345). -/
def execWfe (g : GroomId) (rd : BitVec 5) (rs1 : BitVec 5) (imm : BitVec 16) (s : State) : Host.Outcome State Fault Refusal :=
  s.act (.stall g.s) (doWfe g rd rs1 imm)
/-- SIGNAL (R345). -/
def execSignal (g : GroomId) (rd : BitVec 5) (rs1 : BitVec 5) (imm : BitVec 16) (s : State) : Host.Outcome State Fault Refusal :=
  s.act (.stall g.s) (doSignal g rd rs1 imm)
/-- FENCE (R355). -/
def execFence (g : GroomId) (rd : BitVec 5) (rs1 : BitVec 5) (imm : BitVec 16) (s : State) : Host.Outcome State Fault Refusal :=
  s.act (.stall g.s) (doFence g rd rs1 imm)
/-- CSRR (R339). -/
def execCsrr (g : GroomId) (rd : BitVec 5) (rs1 : BitVec 5) (imm : BitVec 16) (s : State) : Host.Outcome State Fault Refusal :=
  s.quiet (.stall g.s) (doCsrr g rd rs1 imm)
/-- CSRW (R339). -/
def execCsrw (g : GroomId) (rd : BitVec 5) (rs1 : BitVec 5) (imm : BitVec 16) (s : State) : Host.Outcome State Fault Refusal :=
  s.quiet (.stall g.s) (doCsrw g rd rs1 imm)
/-- HALT (R331). -/
def execHalt (g : GroomId) (rd : BitVec 5) (rs1 : BitVec 5) (imm : BitVec 16) (s : State) : Host.Outcome State Fault Refusal :=
  s.act (.stall g.s) (doHalt g rd rs1 imm)
/-- RUN_END (R332). -/
def execRunEnd (g : GroomId) (s : State) : Host.Outcome State Fault Refusal :=
  s.act (.stall g.s) (doRunEnd g)
/-- RUN_TIMEOUT (R334). -/
def execRunTimeout (g : GroomId) (dt : Nat) (s : State) : Host.Outcome State Fault Refusal :=
  s.actAfter (.stall g.s) dt (doRunTimeout g)
/-- GROOM_TIMER_EVENT (R345). -/
def execGroomTimerEvent (g : GroomId) (dt : Nat) (s : State) : Host.Outcome State Fault Refusal :=
  s.actAfter (.stall g.s) dt (doGroomTimerEvent g)
/-- GROOM_RESET (R349). -/
def execGroomReset (g : GroomId) (s : State) : Host.Outcome State Fault Refusal :=
  s.act (.stall g.s) (doGroomReset g)
/-- GR_RESUME (R347). -/
def execGrResume (s : Stall) (t : State) : Host.Outcome State Fault Refusal :=
  t.act (.stall s) (doGrResume s)
/-- GROOM_FENCED (R465). -/
def execGroomFenced (g : GroomId) (s : State) : Host.Outcome State Fault Refusal :=
  s.act (.stall g.s) (doGroomFenced g)

end Sys2Proof.Machine
end

