-- ==== Sys2Proof/Machine/ExecHost.lean ====
section
/-! DEFINITION. The meanings of the commands, row by row.
Host transactions (chapter 06).
Each performs its effect where the unit it acts on is powered, after the time that its operand says has passed. A row
of work that any stall may do names East's domain block, which is powered whenever any of them is. -/

namespace Sys2Proof.Machine

/-- DBELL (R178). -/
def execDbell (h : HLink) (s : State) : Host.Outcome State Fault Refusal :=
  s.act (.hostlink h) (doDbell h)
/-- CWR (R162). -/
def execCwr (h : HLink) (s : State) : Host.Outcome State Fault Refusal :=
  s.act (.hostlink h) (doCwr h)
/-- CRD (R162). -/
def execCrd (h : HLink) (s : State) : Host.Outcome State Fault Refusal :=
  s.act (.hostlink h) (doCrd h)
/-- CPLD (R153). -/
def execCpld (h : HLink) (s : State) : Host.Outcome State Fault Refusal :=
  s.act (.hostlink h) (doCpld h)
/-- ERRRPT_WRITE_FAILED (R165). -/
def execErrrptWriteFailed (h : HLink) (s : State) : Host.Outcome State Fault Refusal :=
  s.act (.hostlink h) (doErrrptWriteFailed h)
/-- ERRRPT_FUNCTION_RESET (R166). -/
def execErrrptFunctionReset (h : HLink) (s : State) : Host.Outcome State Fault Refusal :=
  s.act (.hostlink h) (doErrrptFunctionReset h)
/-- READ_TIMEOUT (R154). -/
def execReadTimeout (h : HLink) (rtag : Fin 4096) (dt : Nat) (s : State) : Host.Outcome State Fault Refusal :=
  s.actAfter (.hostlink h) dt (doReadTimeout h rtag)
/-- READ_TAG_RELEASE (R154). -/
def execReadTagRelease (h : HLink) (rtag : Fin 4096) (dt : Nat) (s : State) : Host.Outcome State Fault Refusal :=
  s.actAfter (.hostlink h) dt (doReadTagRelease h rtag)
/-- WRITE_HISTORY_EXPIRY (R148). -/
def execWriteHistoryExpiry (h : HLink) (wtag : BitVec 16) (dt : Nat) (s : State) : Host.Outcome State Fault Refusal :=
  s.actAfter (.hostlink h) dt (doWriteHistoryExpiry h wtag)
/-- HOST_TLP_START (R96). -/
def execHostTlpStart (h : HLink) (s : State) : Host.Outcome State Fault Refusal :=
  s.act (.hostlink h) (doHostTlpStart h)

end Sys2Proof.Machine
end

