-- ==== Sys2Proof/Machine/ExecLane.lean ====
section
/-! DEFINITION. The meanings of the commands, row by row.
Lanes (chapter 03).
Each performs its effect where the unit it acts on is powered, after the time that its operand says has passed. A row
of work that any stall may do names East's domain block, which is powered whenever any of them is. -/

namespace Sys2Proof.Machine

/-- LANE_TRAIN_START (R61). -/
def execLaneTrainStart (p : Port) (l : Fin 4) (s : State) : Host.Outcome State Fault Refusal :=
  s.act (.port p) (doLaneTrainStart p l)
/-- TRAINING_FRAME (R60). -/
def execTrainingFrame (p : Port) (l : Fin 4) (control : BitVec 16) (rest : FrameEnd) (s : State) :
    Host.Outcome State Fault Refusal :=
  s.act (.port p) (doTrainingFrame p l control rest)
/-- LANE_TRAIN_STEP (R61). -/
def execLaneTrainStep (p : Port) (l : Fin 4) (inverted : Bool) (s : State) : Host.Outcome State Fault Refusal :=
  s.act (.port p) (doLaneTrainStep p l inverted)
/-- TRAIN_ATTEMPT_TIMEOUT (R62). -/
def execTrainAttemptTimeout (lane : LaneId) (dt : Nat) (s : State) : Host.Outcome State Fault Refusal :=
  s.actAfter (laneBlock lane) dt (doTrainAttemptTimeout lane)
/-- HOST_LANE_TRAIN_START (R72). -/
def execHostLaneTrainStart (h : HLink) (l : Fin 16) (s : State) : Host.Outcome State Fault Refusal :=
  s.act (.hostlink h) (doHostLaneTrainStart h l)
/-- HOST_TRAINING_SET (R71). -/
def execHostTrainingSet (h : HLink) (l : Fin 16) (laneByte : BitVec 8) (request : BitVec 8) (status : BitVec 8) (s : State) : Host.Outcome State Fault Refusal :=
  s.act (.hostlink h) (doHostTrainingSet h l laneByte request status)
/-- HOST_LANE_TRAIN_STEP (R72). -/
def execHostLaneTrainStep (h : HLink) (l : Fin 16) (inverted : Bool) (s : State) : Host.Outcome State Fault Refusal :=
  s.act (.hostlink h) (doHostLaneTrainStep h l inverted)
/-- ELECTRICAL_IDLE_ENTRY (R63). -/
def execElectricalIdleEntry (p : Port) (l : Fin 4) (s : State) : Host.Outcome State Fault Refusal :=
  s.act (.port p) (doElectricalIdleEntry p l)
/-- FAST_EXIT (R64). -/
def execFastExit (p : Port) (l : Fin 4) (s : State) : Host.Outcome State Fault Refusal :=
  s.act (.port p) (doFastExit p l)
/-- HOST_IDLE_ENTRY (R73). -/
def execHostIdleEntry (h : HLink) (s : State) : Host.Outcome State Fault Refusal :=
  s.act (.hostlink h) (doHostIdleEntry h)
/-- HOST_FAST_EXIT (R73). -/
def execHostFastExit (h : HLink) (s : State) : Host.Outcome State Fault Refusal :=
  s.act (.hostlink h) (doHostFastExit h)
/-- CODEWORD_RECEIVED (R56). -/
def execCodewordReceived (p : Port) (l : Fin 4) (line : BitVec 5440) (s : State) : Host.Outcome State Fault Refusal :=
  s.act (.port p) (doCodewordReceived p l line)
/-- INJECT_BURST (R76). -/
def execInjectBurst (lane : LaneId) (dt : Nat) (s : State) : Host.Outcome State Fault Refusal :=
  s.quietAfter (laneBlock lane) dt (doInjectBurst lane)
/-- INJECT_NOW (R76). -/
def execInjectNow (lane : LaneId) (s : State) : Host.Outcome State Fault Refusal :=
  s.quiet (laneBlock lane) (doInjectNow lane)
/-- LANE_RETRAIN (R81). -/
def execLaneRetrain (lane : LaneId) (s : State) : Host.Outcome State Fault Refusal :=
  s.act (laneBlock lane) (doLaneRetrain lane)
/-- MARGIN_SCAN_START (R78). -/
def execMarginScanStart (lane : LaneId) (s : State) : Host.Outcome State Fault Refusal :=
  s.quiet (laneBlock lane) (doMarginScanStart lane)
/-- MARGIN_SCAN_END (R78). -/
def execMarginScanEnd (lane : LaneId) (dt : Nat) (disagreements : BitVec 32) (s : State) : Host.Outcome State Fault Refusal :=
  s.quietAfter (laneBlock lane) dt (doMarginScanEnd lane disagreements)
/-- LANE_EYE_REFRESH (R78). -/
def execLaneEyeRefresh (lane : LaneId) (dt : Nat) (eye : BitVec 48) (s : State) : Host.Outcome State Fault Refusal :=
  s.quietAfter (laneBlock lane) dt (doLaneEyeRefresh lane eye)
/-- LANE_ERRCNT_READ (R80). -/
def execLaneErrcntRead (lane : LaneId) (s : State) : Host.Outcome State Fault Refusal :=
  s.quiet (laneBlock lane) (doLaneErrcntRead lane)
/-- FAST_EXIT_BURST_RECEIVED (R64). -/
def execFastExitBurstReceived (p : Port) (burst : BurstEnd) (s : State) : Host.Outcome State Fault Refusal :=
  s.act (.port p) (doFastExitBurstReceived p burst)
/-- HOST_EXIT_BURST_RECEIVED (R73). -/
def execHostExitBurstReceived (h : HLink) (s : State) : Host.Outcome State Fault Refusal :=
  s.act (.hostlink h) (doHostExitBurstReceived h)
/-- CHECKER_SYNCHRONISED (R74). -/
def execCheckerSynchronised (lane : LaneId) (bits : BitVec 256) (s : State) : Host.Outcome State Fault Refusal :=
  s.quiet (laneBlock lane) (doCheckerSynchronised lane bits)

end Sys2Proof.Machine
end

