-- ==== Sys2Proof/Machine/ExecLink.lean ====
section
/-! DEFINITION. The meanings of the commands, row by row.
The link layers (chapter 04).
Each performs its effect where the unit it acts on is powered, after the time that its operand says has passed. A row
of work that any stall may do names East's domain block, which is powered whenever any of them is. -/

namespace Sys2Proof.Machine

/-- FRAME_RECEIVED (R86). -/
def execFrameReceived (p : Port) (aligned : Bool) (trailer : BitVec 128) (flits : List (BitVec 512)) (erred : Bool) (s : State) :
    Host.Outcome State Fault Refusal :=
  s.act (.port p) (doFrameReceived p aligned trailer flits erred)
/-- NAK_REPEAT_TIMER (R86). -/
def execNakRepeatTimer (l : LinkId) (dt : Nat) (s : State) : Host.Outcome State Fault Refusal :=
  s.actAfter (linkBlock l) dt (doNakRepeatTimer l)
/-- REPLAY_TIMEOUT (R88). -/
def execReplayTimeout (l : LinkId) (dt : Nat) (s : State) : Host.Outcome State Fault Refusal :=
  s.actAfter (linkBlock l) dt (doReplayTimeout l)
/-- EGRESS_FRAME_START (R401). -/
def execEgressFrameStart (p : Port) (s : State) : Host.Outcome State Fault Refusal :=
  s.act (.port p) (doEgressFrameStart p)
/-- LINK_UP_START (R99). -/
def execLinkUpStart (l : LinkId) (dt : Nat) (s : State) : Host.Outcome State Fault Refusal :=
  s.actAfter (linkBlock l) dt (doLinkUpStart l)
/-- HELLO_RECEIVED (R101). -/
def execHelloReceived (p : Port) (s : State) : Host.Outcome State Fault Refusal :=
  s.act (.port p) (doHelloReceived p)
/-- HELLO_TIMEOUT (R99). -/
def execHelloTimeout (l : LinkId) (dt : Nat) (s : State) : Host.Outcome State Fault Refusal :=
  s.actAfter (linkBlock l) dt (doHelloTimeout l)
/-- QUARANTINE_HELLO (R102). -/
def execQuarantineHello (p : Port) (dt : Nat) (s : State) : Host.Outcome State Fault Refusal :=
  s.actAfter (.port p) dt (doQuarantineHello p)
/-- HOST_HELLO_PERIODIC (R99). -/
def execHostHelloPeriodic (h : HLink) (dt : Nat) (s : State) : Host.Outcome State Fault Refusal :=
  s.actAfter (.hostlink h) dt (doHostHelloPeriodic h)
/-- LINK_RETRAIN (R104). -/
def execLinkRetrain (l : LinkId) (t : RetrainTrigger) (s : State) : Host.Outcome State Fault Refusal :=
  s.act (linkBlock l) (doLinkRetrain l t)
/-- RETRAIN_LANE_DROP (R104). -/
def execRetrainLaneDrop (lane : LaneId) (dt : Nat) (s : State) : Host.Outcome State Fault Refusal :=
  s.actAfter (laneBlock lane) dt (doRetrainLaneDrop lane)
/-- RETRAIN_REPEAT (R104). -/
def execRetrainRepeat (l : LinkId) (dt : Nat) (s : State) : Host.Outcome State Fault Refusal :=
  s.actAfter (linkBlock l) dt (doRetrainRepeat l)
/-- RETRAIN_WINDOW_EXPIRY (R106). -/
def execRetrainWindowExpiry (l : LinkId) (dt : Nat) (s : State) : Host.Outcome State Fault Refusal :=
  s.actAfter (linkBlock l) dt (doRetrainWindowExpiry l)
/-- FORCE_FENCE (R108). -/
def execForceFence (l : LinkId) (s : State) : Host.Outcome State Fault Refusal :=
  s.act (linkBlock l) (doForceFence l)
/-- LL_RETRAIN (R103). -/
def execLlRetrain (l : LinkId) (s : State) : Host.Outcome State Fault Refusal :=
  s.act (linkBlock l) (doLlRetrain l)
/-- LL_REHELLO (R102). -/
def execLlRehello (p : Port) (s : State) : Host.Outcome State Fault Refusal :=
  s.act (.port p) (doLlRehello p)
/-- PORT_DISABLE (R108). -/
def execPortDisable (p : Port) (s : State) : Host.Outcome State Fault Refusal :=
  s.act (.port p) (doPortDisable p)
/-- IDLE_DELAY_EXPIRY (R107). -/
def execIdleDelayExpiry (l : LinkId) (dt : Nat) (s : State) : Host.Outcome State Fault Refusal :=
  s.actAfter (linkBlock l) dt (doIdleDelayExpiry l)
/-- HOST_LINK_PACKET (R94). -/
def execHostLinkPacket (h : HLink) (rx : HostRx) (s : State) : Host.Outcome State Fault Refusal :=
  s.act (.hostlink h) (doHostLinkPacket h rx)
/-- HOST_ACK_TIMER (R96). -/
def execHostAckTimer (h : HLink) (dt : Nat) (s : State) : Host.Outcome State Fault Refusal :=
  s.actAfter (.hostlink h) dt (doHostAckTimer h)
/-- HOST_CREDIT_TIMER (R96). -/
def execHostCreditTimer (h : HLink) (dt : Nat) (s : State) : Host.Outcome State Fault Refusal :=
  s.actAfter (.hostlink h) dt (doHostCreditTimer h)
/-- HOST_LINK_DISABLE (R500). -/
def execHostLinkDisable (h : HLink) (s : State) : Host.Outcome State Fault Refusal :=
  s.act (.hostlink h) (doHostLinkDisable h)

end Sys2Proof.Machine
end

