-- ==== Sys2Proof/Machine/ExecPower.lean ====
section
/-! DEFINITION. The meanings of the commands, row by row.
The supplies, pins and start, pace, voltage and power (chapters 02, 17).
Each performs its effect where the unit it acts on is powered, after the time that its operand says has passed. A row
of work that any stall may do names East's domain block, which is powered whenever any of them is. -/

namespace Sys2Proof.Machine

/-- VIN_AUX_RISE (R36). -/
def execVinAuxRise (vinMainAbove1V : Bool) (s : State) : Host.Outcome State Fault Refusal :=
  s.tackAct (doVinAuxRise vinMainAbove1V)
/-- RESET_L_RISE (R41). -/
def execResetLRise (s : State) : Host.Outcome State Fault Refusal :=
  s.tackAct doResetLRise
/-- COLD_RESET (R41). -/
def execColdReset (s : State) : Host.Outcome State Fault Refusal :=
  s.tackAct doColdReset
/-- TACK_ROOM_READY (R36). -/
def execTackRoomReady (dt : Nat) (vinMainAbove1V : Bool) (addr : BitVec 2) (s : State) : Host.Outcome State Fault Refusal :=
  s.tackAfter dt (doTackRoomReady vinMainAbove1V addr)
/-- MAIN_PG_RISE (R36). -/
def execMainPgRise (s : State) : Host.Outcome State Fault Refusal :=
  s.tackAct doMainPgRise
/-- MAIN_PG_TIMEOUT (R37). -/
def execMainPgTimeout (dt : Nat) (s : State) : Host.Outcome State Fault Refusal :=
  s.tackAfter dt doMainPgTimeout
/-- REGULATORS_UP (R36). -/
def execRegulatorsUp (s : State) : Host.Outcome State Fault Refusal :=
  s.tackAct doRegulatorsUp
/-- START_STEP_COMPLETE (R447). -/
def execStartStepComplete (how : StepEnd) (s : State) : Host.Outcome State Fault Refusal :=
  s.tackAct (doStartStepComplete how)
/-- START_STEP_TIMEOUT (R449). -/
def execStartStepTimeout (dt : Nat) (west : Bool) (s : State) : Host.Outcome State Fault Refusal :=
  s.tackAfter dt (doStartStepTimeout west)
/-- START_RETRY (R449). -/
def execStartRetry (dt : Nat) (s : State) : Host.Outcome State Fault Refusal :=
  s.tackAfter dt doStartRetry
/-- MAIN_POWER_LOST (R39). -/
def execMainPowerLost (vinMainAbove1V : Bool) (s : State) : Host.Outcome State Fault Refusal :=
  s.tackAct (doMainPowerLost vinMainAbove1V)
/-- VIN_AUX_LOST (R40). -/
def execVinAuxLost (s : State) : Host.Outcome State Fault Refusal :=
  s.tackAct doVinAuxLost
/-- THERMAL_TRIP (R44). -/
def execThermalTrip (sensor : Fin 24) (s : State) : Host.Outcome State Fault Refusal :=
  s.tackAct (doThermalTrip sensor)
/-- GRAVE_FAULT (R468). -/
def execGraveFault (kind : GraveKind) (unit : BitVec 8) (s : State) : Host.Outcome State Fault Refusal :=
  s.tackAct (doGraveFault kind unit)
/-- WATCHDOG_EXPIRY (R450). -/
def execWatchdogExpiry (s : State) : Host.Outcome State Fault Refusal :=
  s.tackAct doWatchdogExpiry
/-- PACE_INTERVAL (R23). -/
def execPaceInterval (dt : Nat) (east : List (BitVec 16)) (west : List (BitVec 16)) (s : State) : Host.Outcome State Fault Refusal :=
  s.actAfter .global dt (doPaceInterval east west)
/-- VOLTAGE_LOOP_TICK (R445). -/
def execVoltageLoopTick (dt : Nat) (tj : List (BitVec 8)) (s : State) : Host.Outcome State Fault Refusal :=
  s.quietAfter .tack dt (doVoltageLoopTick tj)
/-- POWER_CAP_TICK (R446). -/
def execPowerCapTick (dt : Nat) (watts : BitVec 16) (s : State) : Host.Outcome State Fault Refusal :=
  s.quietAfter .tack dt (doPowerCapTick watts)

end Sys2Proof.Machine
end

