-- ==== Sys2Proof/Machine/ExecQueue.lean ====
section
/-! DEFINITION. The meanings of the commands, row by row.
Command queues and commands (chapters 07 to 10).
Each performs its effect where the unit it acts on is powered, after the time that its operand says has passed. A row
of work that any stall may do names East's domain block, which is powered whenever any of them is. -/

namespace Sys2Proof.Machine

/-- RING_FETCH (R179). -/
def execRingFetch (queue : BitVec 20) (s : State) : Host.Outcome State Fault Refusal :=
  s.act (.domain 0) (doRingFetch queue)
/-- ARBITRATION_ROUND (R198). -/
def execArbitrationRound (s : Stall) (t : State) : Host.Outcome State Fault Refusal :=
  t.act (.stall s) (doArbitrationRound s)
/-- NOP (R182). -/
def execNop (op : Nat) (s : State) : Host.Outcome State Fault Refusal :=
  s.act (.domain 0) (doNop op)
/-- PUT (R275). -/
def execPut (op : Nat) (s : State) : Host.Outcome State Fault Refusal :=
  s.act (.domain 0) (doPut op)
/-- PUT_INLINE (R183). -/
def execPutInline (op : Nat) (s : State) : Host.Outcome State Fault Refusal :=
  s.act (.domain 0) (doPutInline op)
/-- GET (R276). -/
def execGet (op : Nat) (s : State) : Host.Outcome State Fault Refusal :=
  s.act (.domain 0) (doGet op)
/-- SEND (R250). -/
def execSend (op : Nat) (s : State) : Host.Outcome State Fault Refusal :=
  s.act (.domain 0) (doSend op)
/-- SEND_INLINE (R183). -/
def execSendInline (op : Nat) (s : State) : Host.Outcome State Fault Refusal :=
  s.act (.domain 0) (doSendInline op)
/-- ATOMIC (R277). -/
def execAtomic (op : Nat) (s : State) : Host.Outcome State Fault Refusal :=
  s.act (.domain 0) (doAtomic op)
/-- RECV_POST (R236). -/
def execRecvPost (op : Nat) (s : State) : Host.Outcome State Fault Refusal :=
  s.act (.domain 0) (doRecvPost op)
/-- PROBE (R253). -/
def execProbe (op : Nat) (s : State) : Host.Outcome State Fault Refusal :=
  s.act (.domain 0) (doProbe op)
/-- COLL (R294). -/
def execColl (op : Nat) (s : State) : Host.Outcome State Fault Refusal :=
  s.act (.domain 0) (doColl op)
/-- CT_SET (R185). -/
def execCtSet (op : Nat) (s : State) : Host.Outcome State Fault Refusal :=
  s.act (.domain 0) (doCtSet op)
/-- CT_INC (R185). -/
def execCtInc (op : Nat) (s : State) : Host.Outcome State Fault Refusal :=
  s.act (.domain 0) (doCtInc op)
/-- TRIG (R200). -/
def execTrig (op : Nat) (s : State) : Host.Outcome State Fault Refusal :=
  s.act (.domain 0) (doTrig op)
/-- EQ_ARM (R196). -/
def execEqArm (op : Nat) (s : State) : Host.Outcome State Fault Refusal :=
  s.act (.domain 0) (doEqArm op)
/-- INVALIDATE (R227). -/
def execInvalidate (op : Nat) (s : State) : Host.Outcome State Fault Refusal :=
  s.act (.domain 0) (doInvalidate op)
/-- INVALIDATE_ACK (R227). -/
def execInvalidateAck (s : Stall) (op : Nat) (t : State) : Host.Outcome State Fault Refusal :=
  t.act (.stall s) (doInvalidateAck s op)
/-- CTX_CREATE (R191). -/
def execCtxCreate (op : Nat) (s : State) : Host.Outcome State Fault Refusal :=
  s.act (.domain 0) (doCtxCreate op)
/-- CTX_DESTROY (R191). -/
def execCtxDestroy (op : Nat) (s : State) : Host.Outcome State Fault Refusal :=
  s.act (.domain 0) (doCtxDestroy op)
/-- CQ_CREATE (R188). -/
def execCqCreate (op : Nat) (s : State) : Host.Outcome State Fault Refusal :=
  s.act (.domain 0) (doCqCreate op)
/-- CQ_DESTROY (R188). -/
def execCqDestroy (op : Nat) (s : State) : Host.Outcome State Fault Refusal :=
  s.act (.domain 0) (doCqDestroy op)
/-- EQ_CREATE (R192). -/
def execEqCreate (op : Nat) (s : State) : Host.Outcome State Fault Refusal :=
  s.act (.domain 0) (doEqCreate op)
/-- EQ_DESTROY (R192). -/
def execEqDestroy (op : Nat) (s : State) : Host.Outcome State Fault Refusal :=
  s.act (.domain 0) (doEqDestroy op)
/-- CQ_STOP (R206). -/
def execCqStop (d : Dom) (queue : BitVec 20) (s : State) : Host.Outcome State Fault Refusal :=
  s.act (.domain d) (doCqStop d queue)
/-- CQ_START (R206). -/
def execCqStart (d : Dom) (queue : BitVec 20) (s : State) : Host.Outcome State Fault Refusal :=
  s.act (.domain d) (doCqStart d queue)
/-- CQ_RESUME (R206). -/
def execCqResume (d : Dom) (queue : BitVec 20) (s : State) : Host.Outcome State Fault Refusal :=
  s.act (.domain d) (doCqResume d queue)
/-- CQ_ABORT (R206). -/
def execCqAbort (d : Dom) (queue : BitVec 20) (s : State) : Host.Outcome State Fault Refusal :=
  s.act (.domain d) (doCqAbort d queue)
/-- CQ_FLUSH (R501). -/
def execCqFlush (d : Dom) (queue : BitVec 20) (s : State) : Host.Outcome State Fault Refusal :=
  s.act (.domain d) (doCqFlush d queue)
/-- CQ_ADMIN_WRITE (R206). -/
def execCqAdminWrite (h : HLink) (value : BitVec 64) (s : State) : Host.Outcome State Fault Refusal :=
  s.act (.hostlink h) (fun t => t.regWrite .warden (.cqAdmin h) value)
/-- WALK_READ (R214). -/
def execWalkRead (w : Nat) (s : State) : Host.Outcome State Fault Refusal :=
  s.act (.domain 0) (doWalkRead w)
/-- MT_CANCEL (R254). -/
def execMtCancel (d : Dom) (queue : BitVec 20) (slot : BitVec 20) (s : State) : Host.Outcome State Fault Refusal :=
  s.act (.domain d) (doMtCancel d queue slot)

end Sys2Proof.Machine
end

