-- ==== Sys2Proof/Machine/ExecRegs.lean ====
section
/-! DEFINITION. The meanings of the commands, row by row.
Telemetry snapshots and registers (chapters 19, 20).
Each performs its effect where the unit it acts on is powered, after the time that its operand says has passed. A row
of work that any stall may do names East's domain block, which is powered whenever any of them is. -/

namespace Sys2Proof.Machine

/-- PM_SNAPSHOT (R479). -/
def execPmSnapshot (block : Block) (dt : Nat) (s : State) : Host.Outcome State Fault Refusal :=
  s.quietAfter block dt (doPmSnapshot block)
/-- RC_READ (R491). -/
def execRcRead (m : Master) (addr : BitVec 64) (s : State) : Host.Outcome State Fault Refusal :=
  s.accessAct m (doRcRead m addr)
/-- DIGEST_HI_READ (R492). -/
def execDigestHiRead (m : Master) (addr : BitVec 64) (s : State) : Host.Outcome State Fault Refusal :=
  s.accessAct m (doDigestHiRead m addr)
/-- REGISTER_WRITE (R7). -/
def execRegisterWrite (m : Master) (addr : BitVec 64) (value : BitVec 64) (s : State) : Host.Outcome State Fault Refusal :=
  s.accessAct m (doRegisterWrite m addr value)

end Sys2Proof.Machine
end

