-- ==== Sys2Proof/Machine/ExecRma.lean ====
section
/-! DEFINITION. The meanings of the commands, row by row.
Remote memory access (chapter 10).
Each performs its effect where the unit it acts on is powered, after the time that its operand says has passed. A row
of work that any stall may do names East's domain block, which is powered whenever any of them is. -/

namespace Sys2Proof.Machine

/-- PACKET_RECEIVE (R268). -/
def execPacketReceive (s : State) : Host.Outcome State Fault Refusal :=
  s.act (.domain 0) doPacketReceive
/-- PACKET_INJECT (R266). -/
def execPacketInject (f : Nat) (s : State) : Host.Outcome State Fault Refusal :=
  s.act (.domain 0) (doPacketInject f)
/-- ACK_RECEIVE (R271). -/
def execAckReceive (s : State) : Host.Outcome State Fault Refusal :=
  s.act (.domain 0) doAckReceive
/-- NACK_RECEIVE (R272). -/
def execNackReceive (s : State) : Host.Outcome State Fault Refusal :=
  s.act (.domain 0) doNackReceive
/-- GET_RSP_RECEIVE (R276). -/
def execGetRspReceive (s : State) : Host.Outcome State Fault Refusal :=
  s.act (.domain 0) doGetRspReceive
/-- ATOMIC_RSP_RECEIVE (R277). -/
def execAtomicRspReceive (s : State) : Host.Outcome State Fault Refusal :=
  s.act (.domain 0) doAtomicRspReceive
/-- ACK_DELAY_EXPIRY (R271). -/
def execAckDelayExpiry (tf : Nat) (dt : Nat) (s : State) : Host.Outcome State Fault Refusal :=
  s.actAfter (.domain 0) dt (doAckDelayExpiry tf)
/-- RTO_EXPIRY (R280). -/
def execRtoExpiry (f : Nat) (psn : BitVec 32) (dt : Nat) (s : State) : Host.Outcome State Fault Refusal :=
  s.actAfter (.domain 0) dt (doRtoExpiry f psn)
/-- FLOW_IDLE_EXPIRY (R265). -/
def execFlowIdleExpiry (initiator : Bool) (f : Nat) (dt : Nat) (s : State) : Host.Outcome State Fault Refusal :=
  s.actAfter (.domain 0) dt (doFlowIdleExpiry initiator f)
/-- TARGET_DELAY_EXPIRY (R280). -/
def execTargetDelayExpiry (f : Nat) (psn : BitVec 32) (dt : Nat) (s : State) : Host.Outcome State Fault Refusal :=
  s.actAfter (.domain 0) dt (doTargetDelayExpiry f psn)

end Sys2Proof.Machine
end

