-- ==== Sys2Proof/Machine/ExecRoute.lean ====
section
/-! DEFINITION. The meanings of the commands, row by row.
Routing (chapter 05).
Each performs its effect where the unit it acts on is powered, after the time that its operand says has passed. A row
of work that any stall may do names East's domain block, which is powered whenever any of them is. -/

namespace Sys2Proof.Machine

/-- ROUTE_HEADER (R124). -/
def execRouteHeader (src : RouteSrc) (vc : VC) (s : State) : Host.Outcome State Fault Refusal :=
  s.act (srcBlock src) (doRouteHeader src vc)
/-- HEADER_REEVALUATE (R135). -/
def execHeaderReevaluate (src : RouteSrc) (vc : VC) (s : State) : Host.Outcome State Fault Refusal :=
  s.act (srcBlock src) (doHeaderReevaluate src vc)
/-- BEACON_SEND (R132). -/
def execBeaconSend (p : Port) (dt : Nat) (s : State) : Host.Outcome State Fault Refusal :=
  s.quietAfter (.port p) dt (doBeaconSend p)
/-- BEACON_RECEIVE (R132). -/
def execBeaconReceive (p : Port) (s : State) : Host.Outcome State Fault Refusal :=
  s.quiet (.port p) (doBeaconReceive p)
/-- BEACON_EXPIRY (R132). -/
def execBeaconExpiry (p : Port) (dt : Nat) (s : State) : Host.Outcome State Fault Refusal :=
  s.quietAfter (.port p) dt (doBeaconExpiry p)
/-- RT_EXC_WRITE (R139). -/
def execRtExcWrite (s : Stall) (i : Fin 4096) (value : BitVec 64) (t : State) : Host.Outcome State Fault Refusal :=
  t.quiet (.stall s) (fun t => t.regWrite .warden (.rtExc s i) value)

end Sys2Proof.Machine
end

