-- ==== Sys2Proof/Machine/ExecTack.lean ====
section
/-! DEFINITION. The meanings of the commands, row by row.
Coats, the mailbox and SMBus (chapters 16, 17).
Each performs its effect where the unit it acts on is powered, after the time that its operand says has passed. A row
of work that any stall may do names East's domain block, which is powered whenever any of them is. -/

namespace Sys2Proof.Machine

/-- DRAIN_COMPLETE (R424). -/
def execDrainComplete (s : State) : Host.Outcome State Fault Refusal :=
  s.act .global doDrainComplete
/-- DRAIN_TIMEOUT (R424). -/
def execDrainTimeout (dt : Nat) (s : State) : Host.Outcome State Fault Refusal :=
  s.actAfter .global dt doDrainTimeout
/-- EPOCH_SWITCH (R427). -/
def execEpochSwitch (dt : Nat) (s : State) : Host.Outcome State Fault Refusal :=
  s.actAfter .global dt doEpochSwitch
/-- EPOCH_GRACE_END (R427). -/
def execEpochGraceEnd (dt : Nat) (s : State) : Host.Outcome State Fault Refusal :=
  s.actAfter .global dt doEpochGraceEnd
/-- MB_CLAIM_READ (R438). -/
def execMbClaimRead (m : Master) (s : State) : Host.Outcome State Fault Refusal :=
  s.accessAct m (doMbClaimRead m)
/-- MB_CLAIM_RELEASE (R438). -/
def execMbClaimRelease (m : Master) (s : State) : Host.Outcome State Fault Refusal :=
  s.accessAct m (doMbClaimRelease m)
/-- MB_CLAIM_LAPSE (R438). -/
def execMbClaimLapse (dt : Nat) (s : State) : Host.Outcome State Fault Refusal :=
  s.quietAfter .global dt doMbClaimLapse
/-- NONCE_EXPIRY (R441). -/
def execNonceExpiry (dt : Nat) (s : State) : Host.Outcome State Fault Refusal :=
  s.quietAfter .tack dt doNonceExpiry
/-- GET_STATUS (R439). -/
def execGetStatus (s : State) : Host.Outcome State Fault Refusal :=
  s.quiet .global doGetStatus
/-- GET_NONCE (R441). -/
def execGetNonce (s : State) : Host.Outcome State Fault Refusal :=
  s.quiet .global doGetNonce
/-- ATTEST (R437). -/
def execAttest (s : State) : Host.Outcome State Fault Refusal :=
  s.quiet .global doAttest
/-- GET_IDENTITY (R435). -/
def execGetIdentity (s : State) : Host.Outcome State Fault Refusal :=
  s.quiet .global doGetIdentity
/-- COAT_BEGIN (R439). -/
def execCoatBegin (s : State) : Host.Outcome State Fault Refusal :=
  s.quiet .global doCoatBegin
/-- COAT_CHUNK (R439). -/
def execCoatChunk (s : State) : Host.Outcome State Fault Refusal :=
  s.quiet .global doCoatChunk
/-- COAT_APPLY (R416). -/
def execCoatApply (s : State) : Host.Outcome State Fault Refusal :=
  s.act .global doCoatApply
/-- COAT_INSTALL (R439). -/
def execCoatInstall (s : State) : Host.Outcome State Fault Refusal :=
  s.act .global doCoatInstall
/-- STOP (R38). -/
def execStop (s : State) : Host.Outcome State Fault Refusal :=
  s.act .global doStop
/-- RESTART (R453). -/
def execRestart (s : State) : Host.Outcome State Fault Refusal :=
  s.act .global doRestart
/-- DOMAIN_FENCE (R373). -/
def execDomainFence (s : State) : Host.Outcome State Fault Refusal :=
  s.act .global doDomainFence
/-- DOMAIN_RESTART (R375). -/
def execDomainRestart (s : State) : Host.Outcome State Fault Refusal :=
  s.act .global doDomainRestart
/-- SET_PACE_TARGET (R439). -/
def execSetPaceTarget (s : State) : Host.Outcome State Fault Refusal :=
  s.quiet .global doSetPaceTarget
/-- SET_POWER_LIMIT (R439). -/
def execSetPowerLimit (s : State) : Host.Outcome State Fault Refusal :=
  s.quiet .global doSetPowerLimit
/-- SET_THROTTLE (R439). -/
def execSetThrottle (s : State) : Host.Outcome State Fault Refusal :=
  s.quiet .global doSetThrottle
/-- CLEAR_STARTS (R441). -/
def execClearStarts (s : State) : Host.Outcome State Fault Refusal :=
  s.quiet .global doClearStarts
/-- SELECT_SLOT (R439). -/
def execSelectSlot (s : State) : Host.Outcome State Fault Refusal :=
  s.quiet .global doSelectSlot
/-- OWNER_ENROL (R436). -/
def execOwnerEnrol (s : State) : Host.Outcome State Fault Refusal :=
  s.quiet .global doOwnerEnrol
/-- OWNER_REVOKE (R436). -/
def execOwnerRevoke (s : State) : Host.Outcome State Fault Refusal :=
  s.quiet .global doOwnerRevoke
/-- SMB_STATUS (R444). -/
def execSmbStatus (addr : BitVec 7) (s : State) : Host.Outcome State Fault Refusal :=
  s.quiet .tack (doSmbStatus addr)
/-- SMB_ATTEST (R444). -/
def execSmbAttest (addr : BitVec 7) (nonce : List (BitVec 8)) (s : State) : Host.Outcome State Fault Refusal :=
  s.quiet .tack (doSmbAttest addr nonce)
/-- SMB_REPORT (R444). -/
def execSmbReport (addr : BitVec 7) (s : State) : Host.Outcome State Fault Refusal :=
  s.quiet .tack (doSmbReport addr)
/-- SMB_PART (R444). -/
def execSmbPart (addr : BitVec 7) (n : BitVec 8) (s : State) : Host.Outcome State Fault Refusal :=
  s.quiet .tack (doSmbPart addr n)
/-- SMB_IDENTITY (R444). -/
def execSmbIdentity (addr : BitVec 7) (s : State) : Host.Outcome State Fault Refusal :=
  s.quiet .tack (doSmbIdentity addr)
/-- TACK_NOTE_CLEAR (R462). -/
def execTackNoteClear (dt : Nat) (s : State) : Host.Outcome State Fault Refusal :=
  s.quietAfter .tack dt doTackNoteClear

end Sys2Proof.Machine
end

