-- ==== Sys2Proof/Machine/ExecTime.lean ====
section
/-! DEFINITION. The meanings of the commands, row by row.
Network time and quality of service (chapter 15).
Each performs its effect where the unit it acts on is powered, after the time that its operand says has passed. A row
of work that any stall may do names East's domain block, which is powered whenever any of them is. -/

namespace Sys2Proof.Machine

/-- TIME_SYNC_SEND (R393). -/
def execTimeSyncSend (p : Port) (dt : Nat) (s : State) : Host.Outcome State Fault Refusal :=
  s.quietAfter (.port p) dt (doTimeSyncSend p)
/-- TIME_SYNC_RECEIVE (R395). -/
def execTimeSyncReceive (p : Port) (s : State) : Host.Outcome State Fault Refusal :=
  s.quiet (.port p) (doTimeSyncReceive p)
/-- TIME_CANDIDATE_EXPIRY (R395). -/
def execTimeCandidateExpiry (p : Port) (dt : Nat) (s : State) : Host.Outcome State Fault Refusal :=
  s.quietAfter (.port p) dt (doTimeCandidateExpiry p)
/-- PPS_IN_EDGE (R397). -/
def execPpsInEdge (dt : Nat) (s : State) : Host.Outcome State Fault Refusal :=
  s.quietAfter .global dt doPpsInEdge
/-- PPS_MISSING (R397). -/
def execPpsMissing (dt : Nat) (s : State) : Host.Outcome State Fault Refusal :=
  s.quietAfter .global dt doPpsMissing
/-- PPS_OUT_PULSE (R398). -/
def execPpsOutPulse (dt : Nat) (s : State) : Host.Outcome State Fault Refusal :=
  s.quietAfter .global dt doPpsOutPulse
/-- TIME_EXCLUSION_CHANGE (R400). -/
def execTimeExclusionChange (dt : Nat) (s : State) : Host.Outcome State Fault Refusal :=
  s.quietAfter .global dt doTimeExclusionChange
/-- NT_SEED_ARM (R397). -/
def execNtSeedArm (value : BitVec 64) (s : State) : Host.Outcome State Fault Refusal :=
  s.quiet .global (fun t => t.regWrite .warden .ntSeed value)
/-- SHAPER_REFILL (R403). -/
def execShaperRefill (dt : Nat) (s : State) : Host.Outcome State Fault Refusal :=
  s.quietAfter .global dt doShaperRefill
/-- GATE_ENTRY_ADVANCE (R405). -/
def execGateEntryAdvance (p : Port) (dt : Nat) (s : State) : Host.Outcome State Fault Refusal :=
  s.quietAfter (.port p) dt (doGateEntryAdvance p)
/-- GATE_SWITCH_REQUEST (R407). -/
def execGateSwitchRequest (p : Port) (value : BitVec 64) (s : State) : Host.Outcome State Fault Refusal :=
  s.quiet (.port p) (fun t => t.regWrite .warden (.egGateCtrl p) value)
/-- GATE_SWITCH (R407). -/
def execGateSwitch (p : Port) (dt : Nat) (s : State) : Host.Outcome State Fault Refusal :=
  s.quietAfter (.port p) dt (doGateSwitch p)

end Sys2Proof.Machine
end

