-- ==== Sys2Proof/Machine/Dispatch.lean ====
section
/-! DEFINITION. The meaning of every command: one arm for each row of the table. -/

namespace Sys2Proof.Machine

def exec (i : Instr) (s : State) : Host.Outcome State Fault Refusal :=
  match i with
  | .vinAuxRise vinMainAbove1V => Sys2Proof.Machine.execVinAuxRise vinMainAbove1V s
  | .resetLRise => Sys2Proof.Machine.execResetLRise s
  | .coldReset => Sys2Proof.Machine.execColdReset s
  | .tackRoomReady dt vinMainAbove1V addr => Sys2Proof.Machine.execTackRoomReady dt vinMainAbove1V addr s
  | .mainPgRise => Sys2Proof.Machine.execMainPgRise s
  | .mainPgTimeout dt => Sys2Proof.Machine.execMainPgTimeout dt s
  | .regulatorsUp => Sys2Proof.Machine.execRegulatorsUp s
  | .startStepComplete how => Sys2Proof.Machine.execStartStepComplete how s
  | .startStepTimeout dt west => Sys2Proof.Machine.execStartStepTimeout dt west s
  | .startRetry dt => Sys2Proof.Machine.execStartRetry dt s
  | .mainPowerLost vinMainAbove1V => Sys2Proof.Machine.execMainPowerLost vinMainAbove1V s
  | .vinAuxLost => Sys2Proof.Machine.execVinAuxLost s
  | .thermalTrip sensor => Sys2Proof.Machine.execThermalTrip sensor s
  | .graveFault kind unit => Sys2Proof.Machine.execGraveFault kind unit s
  | .watchdogExpiry => Sys2Proof.Machine.execWatchdogExpiry s
  | .paceInterval dt east west => Sys2Proof.Machine.execPaceInterval dt east west s
  | .voltageLoopTick dt tj => Sys2Proof.Machine.execVoltageLoopTick dt tj s
  | .powerCapTick dt watts => Sys2Proof.Machine.execPowerCapTick dt watts s
  | .laneTrainStart p l => Sys2Proof.Machine.execLaneTrainStart p l s
  | .trainingFrame p l control rest => Sys2Proof.Machine.execTrainingFrame p l control rest s
  | .laneTrainStep p l inverted => Sys2Proof.Machine.execLaneTrainStep p l inverted s
  | .trainAttemptTimeout lane dt => Sys2Proof.Machine.execTrainAttemptTimeout lane dt s
  | .hostLaneTrainStart h l => Sys2Proof.Machine.execHostLaneTrainStart h l s
  | .hostTrainingSet h l laneByte request status => Sys2Proof.Machine.execHostTrainingSet h l laneByte request status s
  | .hostLaneTrainStep h l inverted => Sys2Proof.Machine.execHostLaneTrainStep h l inverted s
  | .electricalIdleEntry p l => Sys2Proof.Machine.execElectricalIdleEntry p l s
  | .fastExit p l => Sys2Proof.Machine.execFastExit p l s
  | .hostIdleEntry h => Sys2Proof.Machine.execHostIdleEntry h s
  | .hostFastExit h => Sys2Proof.Machine.execHostFastExit h s
  | .codewordReceived p l line => Sys2Proof.Machine.execCodewordReceived p l line s
  | .injectBurst lane dt => Sys2Proof.Machine.execInjectBurst lane dt s
  | .injectNow lane => Sys2Proof.Machine.execInjectNow lane s
  | .laneRetrain lane => Sys2Proof.Machine.execLaneRetrain lane s
  | .marginScanStart lane => Sys2Proof.Machine.execMarginScanStart lane s
  | .marginScanEnd lane dt disagreements => Sys2Proof.Machine.execMarginScanEnd lane dt disagreements s
  | .laneEyeRefresh lane dt eye => Sys2Proof.Machine.execLaneEyeRefresh lane dt eye s
  | .laneErrcntRead lane => Sys2Proof.Machine.execLaneErrcntRead lane s
  | .frameReceived p aligned trailer flits erred => Sys2Proof.Machine.execFrameReceived p aligned trailer flits erred s
  | .nakRepeatTimer l dt => Sys2Proof.Machine.execNakRepeatTimer l dt s
  | .replayTimeout l dt => Sys2Proof.Machine.execReplayTimeout l dt s
  | .egressFrameStart p => Sys2Proof.Machine.execEgressFrameStart p s
  | .linkUpStart l dt => Sys2Proof.Machine.execLinkUpStart l dt s
  | .helloReceived p => Sys2Proof.Machine.execHelloReceived p s
  | .helloTimeout l dt => Sys2Proof.Machine.execHelloTimeout l dt s
  | .quarantineHello p dt => Sys2Proof.Machine.execQuarantineHello p dt s
  | .hostHelloPeriodic h dt => Sys2Proof.Machine.execHostHelloPeriodic h dt s
  | .linkRetrain l t => Sys2Proof.Machine.execLinkRetrain l t s
  | .retrainLaneDrop lane dt => Sys2Proof.Machine.execRetrainLaneDrop lane dt s
  | .retrainRepeat l dt => Sys2Proof.Machine.execRetrainRepeat l dt s
  | .retrainWindowExpiry l dt => Sys2Proof.Machine.execRetrainWindowExpiry l dt s
  | .forceFence l => Sys2Proof.Machine.execForceFence l s
  | .llRetrain l => Sys2Proof.Machine.execLlRetrain l s
  | .llRehello p => Sys2Proof.Machine.execLlRehello p s
  | .portDisable p => Sys2Proof.Machine.execPortDisable p s
  | .idleDelayExpiry l dt => Sys2Proof.Machine.execIdleDelayExpiry l dt s
  | .hostLinkPacket h rx => Sys2Proof.Machine.execHostLinkPacket h rx s
  | .hostAckTimer h dt => Sys2Proof.Machine.execHostAckTimer h dt s
  | .hostCreditTimer h dt => Sys2Proof.Machine.execHostCreditTimer h dt s
  | .hostLinkDisable h => Sys2Proof.Machine.execHostLinkDisable h s
  | .routeHeader src vc => Sys2Proof.Machine.execRouteHeader src vc s
  | .headerReevaluate src vc => Sys2Proof.Machine.execHeaderReevaluate src vc s
  | .beaconSend p dt => Sys2Proof.Machine.execBeaconSend p dt s
  | .beaconReceive p => Sys2Proof.Machine.execBeaconReceive p s
  | .beaconExpiry p dt => Sys2Proof.Machine.execBeaconExpiry p dt s
  | .rtExcWrite st ix value => Sys2Proof.Machine.execRtExcWrite st ix value s
  | .dbell h => Sys2Proof.Machine.execDbell h s
  | .cwr h => Sys2Proof.Machine.execCwr h s
  | .crd h => Sys2Proof.Machine.execCrd h s
  | .cpld h => Sys2Proof.Machine.execCpld h s
  | .errrptWriteFailed h => Sys2Proof.Machine.execErrrptWriteFailed h s
  | .errrptFunctionReset h => Sys2Proof.Machine.execErrrptFunctionReset h s
  | .readTimeout h rtag dt => Sys2Proof.Machine.execReadTimeout h rtag dt s
  | .readTagRelease h rtag dt => Sys2Proof.Machine.execReadTagRelease h rtag dt s
  | .writeHistoryExpiry h wtag dt => Sys2Proof.Machine.execWriteHistoryExpiry h wtag dt s
  | .ringFetch queue => Sys2Proof.Machine.execRingFetch queue s
  | .arbitrationRound st => Sys2Proof.Machine.execArbitrationRound st s
  | .nop op => Sys2Proof.Machine.execNop op s
  | .put op => Sys2Proof.Machine.execPut op s
  | .putInline op => Sys2Proof.Machine.execPutInline op s
  | .get op => Sys2Proof.Machine.execGet op s
  | .send op => Sys2Proof.Machine.execSend op s
  | .sendInline op => Sys2Proof.Machine.execSendInline op s
  | .atomic op => Sys2Proof.Machine.execAtomic op s
  | .recvPost op => Sys2Proof.Machine.execRecvPost op s
  | .probe op => Sys2Proof.Machine.execProbe op s
  | .coll op => Sys2Proof.Machine.execColl op s
  | .ctSet op => Sys2Proof.Machine.execCtSet op s
  | .ctInc op => Sys2Proof.Machine.execCtInc op s
  | .trig op => Sys2Proof.Machine.execTrig op s
  | .eqArm op => Sys2Proof.Machine.execEqArm op s
  | .invalidate op => Sys2Proof.Machine.execInvalidate op s
  | .invalidateAck st op => Sys2Proof.Machine.execInvalidateAck st op s
  | .ctxCreate op => Sys2Proof.Machine.execCtxCreate op s
  | .ctxDestroy op => Sys2Proof.Machine.execCtxDestroy op s
  | .cqCreate op => Sys2Proof.Machine.execCqCreate op s
  | .cqDestroy op => Sys2Proof.Machine.execCqDestroy op s
  | .eqCreate op => Sys2Proof.Machine.execEqCreate op s
  | .eqDestroy op => Sys2Proof.Machine.execEqDestroy op s
  | .cqStop d queue => Sys2Proof.Machine.execCqStop d queue s
  | .cqStart d queue => Sys2Proof.Machine.execCqStart d queue s
  | .cqResume d queue => Sys2Proof.Machine.execCqResume d queue s
  | .cqAbort d queue => Sys2Proof.Machine.execCqAbort d queue s
  | .cqFlush d queue => Sys2Proof.Machine.execCqFlush d queue s
  | .cqAdminWrite h value => Sys2Proof.Machine.execCqAdminWrite h value s
  | .walkRead w => Sys2Proof.Machine.execWalkRead w s
  | .mtCancel d queue slot => Sys2Proof.Machine.execMtCancel d queue slot s
  | .packetReceive => Sys2Proof.Machine.execPacketReceive s
  | .packetInject f => Sys2Proof.Machine.execPacketInject f s
  | .ackReceive => Sys2Proof.Machine.execAckReceive s
  | .nackReceive => Sys2Proof.Machine.execNackReceive s
  | .getRspReceive => Sys2Proof.Machine.execGetRspReceive s
  | .atomicRspReceive => Sys2Proof.Machine.execAtomicRspReceive s
  | .ackDelayExpiry tf dt => Sys2Proof.Machine.execAckDelayExpiry tf dt s
  | .rtoExpiry f psn dt => Sys2Proof.Machine.execRtoExpiry f psn dt s
  | .flowIdleExpiry initiator f dt => Sys2Proof.Machine.execFlowIdleExpiry initiator f dt s
  | .collUpReceive e => Sys2Proof.Machine.execCollUpReceive e s
  | .collDownReceive e => Sys2Proof.Machine.execCollDownReceive e s
  | .collTimeout e group inst dt => Sys2Proof.Machine.execCollTimeout e group inst dt s
  | .clInstall e group => Sys2Proof.Machine.execClInstall e group s
  | .clRemove e group => Sys2Proof.Machine.execClRemove e group s
  | .clAbort e group => Sys2Proof.Machine.execClAbort e group s
  | .clUnfence e => Sys2Proof.Machine.execClUnfence e s
  | .engineFenced e => Sys2Proof.Machine.execEngineFenced e s
  | .runDispatch g completion => Sys2Proof.Machine.execRunDispatch g completion s
  | .alu g rd rs1 rs2 fn => Sys2Proof.Machine.execAlu g rd rs1 rs2 fn s
  | .addi g rd rs1 imm => Sys2Proof.Machine.execAddi g rd rs1 imm s
  | .andi g rd rs1 imm => Sys2Proof.Machine.execAndi g rd rs1 imm s
  | .ori g rd rs1 imm => Sys2Proof.Machine.execOri g rd rs1 imm s
  | .xori g rd rs1 imm => Sys2Proof.Machine.execXori g rd rs1 imm s
  | .slti g rd rs1 imm => Sys2Proof.Machine.execSlti g rd rs1 imm s
  | .sltiu g rd rs1 imm => Sys2Proof.Machine.execSltiu g rd rs1 imm s
  | .shi g rd rs1 imm => Sys2Proof.Machine.execShi g rd rs1 imm s
  | .lui g rd rs1 imm => Sys2Proof.Machine.execLui g rd rs1 imm s
  | .shori g rd rs1 imm => Sys2Proof.Machine.execShori g rd rs1 imm s
  | .ld g r base size mark off => Sys2Proof.Machine.execLd g r base size mark off s
  | .st g r base size mark off => Sys2Proof.Machine.execSt g r base size mark off s
  | .ldv g r base size mark off => Sys2Proof.Machine.execLdv g r base size mark off s
  | .stv g r base size mark off => Sys2Proof.Machine.execStv g r base size mark off s
  | .amol g rd rs1 rs2 fn => Sys2Proof.Machine.execAmol g rd rs1 rs2 fn s
  | .hamo g rd rs1 rs2 fn => Sys2Proof.Machine.execHamo g rd rs1 rs2 fn s
  | .hlock g rd rs1 imm => Sys2Proof.Machine.execHlock g rd rs1 imm s
  | .hunlock g rd rs1 imm => Sys2Proof.Machine.execHunlock g rd rs1 imm s
  | .beq g rs1 rs2 off => Sys2Proof.Machine.execBeq g rs1 rs2 off s
  | .bne g rs1 rs2 off => Sys2Proof.Machine.execBne g rs1 rs2 off s
  | .blt g rs1 rs2 off => Sys2Proof.Machine.execBlt g rs1 rs2 off s
  | .bge g rs1 rs2 off => Sys2Proof.Machine.execBge g rs1 rs2 off s
  | .bltu g rs1 rs2 off => Sys2Proof.Machine.execBltu g rs1 rs2 off s
  | .bgeu g rs1 rs2 off => Sys2Proof.Machine.execBgeu g rs1 rs2 off s
  | .jal g off => Sys2Proof.Machine.execJal g off s
  | .jalr g rd rs1 imm => Sys2Proof.Machine.execJalr g rd rs1 imm s
  | .issue g rd rs1 imm => Sys2Proof.Machine.execIssue g rd rs1 imm s
  | .wfe g rd rs1 imm => Sys2Proof.Machine.execWfe g rd rs1 imm s
  | .signal g rd rs1 imm => Sys2Proof.Machine.execSignal g rd rs1 imm s
  | .fence g rd rs1 imm => Sys2Proof.Machine.execFence g rd rs1 imm s
  | .csrr g rd rs1 imm => Sys2Proof.Machine.execCsrr g rd rs1 imm s
  | .csrw g rd rs1 imm => Sys2Proof.Machine.execCsrw g rd rs1 imm s
  | .halt g rd rs1 imm => Sys2Proof.Machine.execHalt g rd rs1 imm s
  | .runEnd g => Sys2Proof.Machine.execRunEnd g s
  | .runTimeout g dt => Sys2Proof.Machine.execRunTimeout g dt s
  | .groomTimerEvent g dt => Sys2Proof.Machine.execGroomTimerEvent g dt s
  | .groomReset g => Sys2Proof.Machine.execGroomReset g s
  | .grResume st => Sys2Proof.Machine.execGrResume st s
  | .groomFenced g => Sys2Proof.Machine.execGroomFenced g s
  | .directoryRequest d cache req line => Sys2Proof.Machine.execDirectoryRequest d cache req line s
  | .uncachedRead d line => Sys2Proof.Machine.execUncachedRead d line s
  | .uncachedWrite d line mask data => Sys2Proof.Machine.execUncachedWrite d line mask data s
  | .writeHint d line data target ready => Sys2Proof.Machine.execWriteHint d line data target ready s
  | .contextStoreFailure d cause agent => Sys2Proof.Machine.execContextStoreFailure d cause agent s
  | .coherenceTimeout d agent dt => Sys2Proof.Machine.execCoherenceTimeout d agent dt s
  | .stewardWatchdog d expiry => Sys2Proof.Machine.execStewardWatchdog d expiry s
  | .domainRestartStep d ok => Sys2Proof.Machine.execDomainRestartStep d ok s
  | .hitchAtomic d addr code operand compare => Sys2Proof.Machine.execHitchAtomic d addr code operand compare s
  | .hkAcquire m d n => Sys2Proof.Machine.execHkAcquire m d n s
  | .hkTry m d n => Sys2Proof.Machine.execHkTry m d n s
  | .hkRelease m d n => Sys2Proof.Machine.execHkRelease m d n s
  | .hkCancel m d n => Sys2Proof.Machine.execHkCancel m d n s
  | .timeSyncSend p dt => Sys2Proof.Machine.execTimeSyncSend p dt s
  | .timeSyncReceive p => Sys2Proof.Machine.execTimeSyncReceive p s
  | .timeCandidateExpiry p dt => Sys2Proof.Machine.execTimeCandidateExpiry p dt s
  | .ppsInEdge dt => Sys2Proof.Machine.execPpsInEdge dt s
  | .ppsMissing dt => Sys2Proof.Machine.execPpsMissing dt s
  | .ppsOutPulse dt => Sys2Proof.Machine.execPpsOutPulse dt s
  | .timeExclusionChange dt => Sys2Proof.Machine.execTimeExclusionChange dt s
  | .ntSeedArm value => Sys2Proof.Machine.execNtSeedArm value s
  | .shaperRefill dt => Sys2Proof.Machine.execShaperRefill dt s
  | .gateEntryAdvance p dt => Sys2Proof.Machine.execGateEntryAdvance p dt s
  | .gateSwitchRequest p value => Sys2Proof.Machine.execGateSwitchRequest p value s
  | .gateSwitch p dt => Sys2Proof.Machine.execGateSwitch p dt s
  | .drainComplete => Sys2Proof.Machine.execDrainComplete s
  | .drainTimeout dt => Sys2Proof.Machine.execDrainTimeout dt s
  | .epochSwitch dt => Sys2Proof.Machine.execEpochSwitch dt s
  | .epochGraceEnd dt => Sys2Proof.Machine.execEpochGraceEnd dt s
  | .mbClaimRead m => Sys2Proof.Machine.execMbClaimRead m s
  | .mbClaimRelease m => Sys2Proof.Machine.execMbClaimRelease m s
  | .mbClaimLapse dt => Sys2Proof.Machine.execMbClaimLapse dt s
  | .nonceExpiry dt => Sys2Proof.Machine.execNonceExpiry dt s
  | .getStatus => Sys2Proof.Machine.execGetStatus s
  | .getNonce => Sys2Proof.Machine.execGetNonce s
  | .attest => Sys2Proof.Machine.execAttest s
  | .getIdentity => Sys2Proof.Machine.execGetIdentity s
  | .coatBegin => Sys2Proof.Machine.execCoatBegin s
  | .coatChunk => Sys2Proof.Machine.execCoatChunk s
  | .coatApply => Sys2Proof.Machine.execCoatApply s
  | .coatInstall => Sys2Proof.Machine.execCoatInstall s
  | .stop => Sys2Proof.Machine.execStop s
  | .restart => Sys2Proof.Machine.execRestart s
  | .domainFence => Sys2Proof.Machine.execDomainFence s
  | .domainRestart => Sys2Proof.Machine.execDomainRestart s
  | .setPaceTarget => Sys2Proof.Machine.execSetPaceTarget s
  | .setPowerLimit => Sys2Proof.Machine.execSetPowerLimit s
  | .setThrottle => Sys2Proof.Machine.execSetThrottle s
  | .clearStarts => Sys2Proof.Machine.execClearStarts s
  | .selectSlot => Sys2Proof.Machine.execSelectSlot s
  | .ownerEnrol => Sys2Proof.Machine.execOwnerEnrol s
  | .ownerRevoke => Sys2Proof.Machine.execOwnerRevoke s
  | .smbStatus addr => Sys2Proof.Machine.execSmbStatus addr s
  | .smbAttest addr nonce => Sys2Proof.Machine.execSmbAttest addr nonce s
  | .smbReport addr => Sys2Proof.Machine.execSmbReport addr s
  | .smbPart addr n => Sys2Proof.Machine.execSmbPart addr n s
  | .smbIdentity addr => Sys2Proof.Machine.execSmbIdentity addr s
  | .tackNoteClear dt => Sys2Proof.Machine.execTackNoteClear dt s
  | .pmSnapshot block dt => Sys2Proof.Machine.execPmSnapshot block dt s
  | .rcRead m addr => Sys2Proof.Machine.execRcRead m addr s
  | .digestHiRead m addr => Sys2Proof.Machine.execDigestHiRead m addr s
  | .registerWrite m addr value => Sys2Proof.Machine.execRegisterWrite m addr value s
  | .targetDelayExpiry f psn dt => Sys2Proof.Machine.execTargetDelayExpiry f psn dt s
  | .fastExitBurstReceived p burst => Sys2Proof.Machine.execFastExitBurstReceived p burst s
  | .hostExitBurstReceived h => Sys2Proof.Machine.execHostExitBurstReceived h s
  | .hostTlpStart h => Sys2Proof.Machine.execHostTlpStart h s
  | .checkerSynchronised lane bits => Sys2Proof.Machine.execCheckerSynchronised lane bits s

end Sys2Proof.Machine
end

