-- ==== Sys2Proof/WellFormed.lean ====
section
/-! DEFINITION. Well-formed commands: the operands that the outside can present. The meanings are total: they give an
ill-formed command an outcome too. -/

namespace Sys2Proof

/-- Lines of 64 bytes in one HBM stack of 24 GiB (R487). -/
def stackLines : Nat := 402653184

/-- A lane that a retrain trigger names is one of the link's: 4 lanes of a port, 16 of a host link (R3). -/
def retrainWf : LinkId → RetrainTrigger → Bool
  | .port _, .laneLost i => decide (i < 4)
  | .host _, .laneLost i => decide (i < 16)
  | .port _, .laneReturned i => decide (i < 4)
  | .host _, .laneReturned i => decide (i < 16)
  | _, .farNotice => true
  | _, .widthChanged => true

/-- A GRAVE condition without units names unit 0 (R463). -/
def graveWf : GraveKind → BitVec 8 → Bool
  | .regulator, _ => true
  | .reference, u => decide (u = 0)
  | .yard, _ => true
  | .fuse, u => decide (u = 0)

/-- Whether a command's operands are those of its row: each domain has 16 pace monitors (R21), the loop reads 24 sensors
(R42), a frame at most 8 flits (R84), an SMBus block at most 255 bytes (R444). -/
def Instr.wf : Instr → Bool
  | .vinAuxRise _ => true
  | .resetLRise => true
  | .coldReset => true
  | .tackRoomReady _ _ _ => true
  | .mainPgRise => true
  | .mainPgTimeout _ => true
  | .regulatorsUp => true
  | .startStepComplete _ => true
  | .startStepTimeout _ _ => true
  | .startRetry _ => true
  | .mainPowerLost _ => true
  | .vinAuxLost => true
  | .thermalTrip _ => true
  | .graveFault k unit => graveWf k unit
  | .watchdogExpiry => true
  | .paceInterval _ east west => decide (east.length = 16 ∧ west.length = 16)
  | .voltageLoopTick _ tj => decide (tj.length = 24)
  | .powerCapTick _ _ => true
  | .laneTrainStart _ _ => true
  | .trainingFrame _ _ _ _ => true
  | .laneTrainStep _ _ _ => true
  | .trainAttemptTimeout _ _ => true
  | .hostLaneTrainStart _ _ => true
  | .hostTrainingSet _ _ _ _ _ => true
  | .hostLaneTrainStep _ _ _ => true
  | .electricalIdleEntry _ _ => true
  | .fastExit _ _ => true
  | .hostIdleEntry _ => true
  | .hostFastExit _ => true
  | .codewordReceived _ _ _ => true
  | .injectBurst _ _ => true
  | .injectNow _ => true
  | .laneRetrain _ => true
  | .marginScanStart _ => true
  | .marginScanEnd _ _ _ => true
  | .laneEyeRefresh _ _ _ => true
  | .laneErrcntRead _ => true
  | .frameReceived _ _ _ flits _ => decide (flits.length ≤ 8)
  | .nakRepeatTimer _ _ => true
  | .replayTimeout _ _ => true
  | .egressFrameStart _ => true
  | .linkUpStart _ _ => true
  | .helloReceived _ => true
  | .helloTimeout _ _ => true
  | .quarantineHello _ _ => true
  | .hostHelloPeriodic _ _ => true
  | .linkRetrain l t => retrainWf l t
  | .retrainLaneDrop _ _ => true
  | .retrainRepeat _ _ => true
  | .retrainWindowExpiry _ _ => true
  | .forceFence _ => true
  | .llRetrain _ => true
  | .llRehello _ => true
  | .portDisable _ => true
  | .idleDelayExpiry _ _ => true
  | .hostLinkPacket _ (.packet bytes _) => !bytes.isEmpty
  | .hostLinkPacket _ (.line _) => true
  | .hostAckTimer _ _ => true
  | .hostCreditTimer _ _ => true
  | .hostLinkDisable _ => true
  | .routeHeader _ _ => true
  | .headerReevaluate _ _ => true
  | .beaconSend _ _ => true
  | .beaconReceive _ => true
  | .beaconExpiry _ _ => true
  | .rtExcWrite _ _ _ => true
  | .dbell _ => true
  | .cwr _ => true
  | .crd _ => true
  | .cpld _ => true
  | .errrptWriteFailed _ => true
  | .errrptFunctionReset _ => true
  | .readTimeout _ _ _ => true
  | .readTagRelease _ _ _ => true
  | .writeHistoryExpiry _ _ _ => true
  | .ringFetch _ => true
  | .arbitrationRound _ => true
  | .nop _ => true
  | .put _ => true
  | .putInline _ => true
  | .get _ => true
  | .send _ => true
  | .sendInline _ => true
  | .atomic _ => true
  | .recvPost _ => true
  | .probe _ => true
  | .coll _ => true
  | .ctSet _ => true
  | .ctInc _ => true
  | .trig _ => true
  | .eqArm _ => true
  | .invalidate _ => true
  | .invalidateAck _ _ => true
  | .ctxCreate _ => true
  | .ctxDestroy _ => true
  | .cqCreate _ => true
  | .cqDestroy _ => true
  | .eqCreate _ => true
  | .eqDestroy _ => true
  | .cqStop _ _ => true
  | .cqStart _ _ => true
  | .cqResume _ _ => true
  | .cqAbort _ _ => true
  | .cqFlush _ _ => true
  | .cqAdminWrite _ _ => true
  | .walkRead _ => true
  | .mtCancel _ _ _ => true
  | .packetReceive => true
  | .packetInject _ => true
  | .ackReceive => true
  | .nackReceive => true
  | .getRspReceive => true
  | .atomicRspReceive => true
  | .ackDelayExpiry _ _ => true
  | .rtoExpiry _ _ _ => true
  | .flowIdleExpiry _ _ _ => true
  | .collUpReceive _ => true
  | .collDownReceive _ => true
  | .collTimeout _ _ _ _ => true
  | .clInstall _ _ => true
  | .clRemove _ _ => true
  | .clAbort _ _ => true
  | .clUnfence _ => true
  | .engineFenced _ => true
  | .runDispatch _ _ => true
  | .alu _ _ _ _ _ => true
  | .addi _ _ _ _ => true
  | .andi _ _ _ _ => true
  | .ori _ _ _ _ => true
  | .xori _ _ _ _ => true
  | .slti _ _ _ _ => true
  | .sltiu _ _ _ _ => true
  | .shi _ _ _ _ => true
  | .lui _ _ _ _ => true
  | .shori _ _ _ _ => true
  | .ld _ _ _ _ _ _ => true
  | .st _ _ _ _ _ _ => true
  | .ldv _ _ _ _ _ _ => true
  | .stv _ _ _ _ _ _ => true
  | .amol _ _ _ _ _ => true
  | .hamo _ _ _ _ _ => true
  | .hlock _ _ _ _ => true
  | .hunlock _ _ _ _ => true
  | .beq _ _ _ _ => true
  | .bne _ _ _ _ => true
  | .blt _ _ _ _ => true
  | .bge _ _ _ _ => true
  | .bltu _ _ _ _ => true
  | .bgeu _ _ _ _ => true
  | .jal _ _ => true
  | .jalr _ _ _ _ => true
  | .issue _ _ _ _ => true
  | .wfe _ _ _ _ => true
  | .signal _ _ _ _ => true
  | .fence _ _ _ _ => true
  | .csrr _ _ _ _ => true
  | .csrw _ _ _ _ => true
  | .halt _ _ _ _ => true
  | .runEnd _ => true
  | .runTimeout _ _ => true
  | .groomTimerEvent _ _ => true
  | .groomReset _ => true
  | .grResume _ => true
  | .groomFenced _ => true
  | .directoryRequest _ _ _ line => decide (line < stackLines)
  | .uncachedRead _ line => decide (line < stackLines)
  | .uncachedWrite _ line _ _ => decide (line < stackLines)
  | .writeHint _ line _ _ _ => decide (line < stackLines)
  | .contextStoreFailure _ _ _ => true
  | .coherenceTimeout _ _ _ => true
  | .stewardWatchdog _ _ => true
  | .domainRestartStep _ _ => true
  | .hitchAtomic _ _ _ _ _ => true
  | .hkAcquire _ _ _ => true
  | .hkTry _ _ _ => true
  | .hkRelease _ _ _ => true
  | .hkCancel _ _ _ => true
  | .timeSyncSend _ _ => true
  | .timeSyncReceive _ => true
  | .timeCandidateExpiry _ _ => true
  | .ppsInEdge _ => true
  | .ppsMissing _ => true
  | .ppsOutPulse _ => true
  | .timeExclusionChange _ => true
  | .ntSeedArm _ => true
  | .shaperRefill _ => true
  | .gateEntryAdvance _ _ => true
  | .gateSwitchRequest _ _ => true
  | .gateSwitch _ _ => true
  | .drainComplete => true
  | .drainTimeout _ => true
  | .epochSwitch _ => true
  | .epochGraceEnd _ => true
  | .mbClaimRead _ => true
  | .mbClaimRelease _ => true
  | .mbClaimLapse _ => true
  | .nonceExpiry _ => true
  | .getStatus => true
  | .getNonce => true
  | .attest => true
  | .getIdentity => true
  | .coatBegin => true
  | .coatChunk => true
  | .coatApply => true
  | .coatInstall => true
  | .stop => true
  | .restart => true
  | .domainFence => true
  | .domainRestart => true
  | .setPaceTarget => true
  | .setPowerLimit => true
  | .setThrottle => true
  | .clearStarts => true
  | .selectSlot => true
  | .ownerEnrol => true
  | .ownerRevoke => true
  | .smbStatus _ => true
  | .smbAttest _ nonce => decide (nonce.length ≤ 255)
  | .smbReport _ => true
  | .smbPart _ _ => true
  | .smbIdentity _ => true
  | .tackNoteClear _ => true
  | .pmSnapshot _ _ => true
  | .rcRead _ _ => true
  | .digestHiRead _ _ => true
  | .registerWrite _ _ _ => true
  | .targetDelayExpiry _ _ _ => true
  | .fastExitBurstReceived _ _ => true
  | .hostExitBurstReceived _ => true
  | .hostTlpStart _ => true
  | .checkerSynchronised _ _ => true

end Sys2Proof
end

