-- ==== Sys2Proof/Safety.lean ====
section
/-! DEFINITION. What a safe state is, in the terms that claims use. -/

namespace Sys2Proof.Machine

/-- The register file in its one form: addresses rising, each that of a register (R498), no reset value listed. -/
def State.regsCanon (s : State) : Bool :=
  tSorted s.regs && s.regs.all (fun e => match targetAt e.1 with
    | .reg r => decide (r.addr = e.1 ∧ e.2 ≠ r.reset)
    | _ => false)

/-- The memories in their one form. -/
def State.memCanon (s : State) : Bool := Memory.wf s.hbm && Memory.wf s.buf

/-- Memory and registers are in their one form. -/
def State.Canon (s : State) : Prop := s.memCanon = true ∧ s.regsCanon = true

/-- Commands of the queue are well-formed. -/
def State.queueWf (s : State) : Prop := ∀ c ∈ s.pending, c.wf = true

/-- No fault of class FENCE or DEGRADE stands in any block, and no GRAVE one is recorded (R456). -/
def State.healthy (s : State) : Bool :=
  allBlocks.all (fun b => decide (s.rf (.ftStatus b) 3 1 = 0)) && s.flash.grave.isNone

end Sys2Proof.Machine
end

