-- ==== Sys2Proof/Certificates/Slice0/Obligations.lean ====
section
/-! DEFINITION. The statements for the provers. Those of a command's own effect have as their conclusion the next state
that `exec` answers, or what that state holds. -/

open Sys2Proof Sys2Proof.Machine

namespace Sys2Proof.Machine

/-- Between commands: no work waits within a command, and no topcoat is on its way. -/
abbrev State.Calm (s : State) : Prop := s.todo = [] ∧ s.tack.coat = none

/-- The lowest of a domain's 16 readings (R21). -/
abbrev lowest (ms : List (BitVec 16)) : Nat := ms.foldl (fun a x => min a x.toNat) 0xFFFF

/-- A temperature as TK_THERM shows it. -/
abbrev shownTemp (tj : List (BitVec 8)) (is : List Nat) : Nat := (BitVec.ofInt 8 (hottest tj is)).toNat

/-- The effective target less the pace of a domain, in 0.001 Gt/s (R445). -/
abbrev State.paceError (s : State) (d : Nat) : Int := if d = 0 then (s.rf .tkPaceTarget 31 16 : Int) - (s.rf .paceStatus 15 0 : Int) else (s.rf .tkPaceTarget 47 32 : Int) - (s.rf .paceStatus 31 16 : Int)

/-- The power cap after a ms in which the input power was `w` (R446). -/
abbrev State.nextCap (s : State) (w : Nat) : Nat := if s.rf .tkPower 63 48 < w then max 500 ((if s.powerCap = 0xFFFF then max (s.thermTarget 0) (s.thermTarget 1) else s.powerCap) - 10) else if w + 10 < s.rf .tkPower 63 48 ∧ s.powerCap ≠ 0xFFFF then (if s.target ≤ s.powerCap + 10 then 0xFFFF else s.powerCap + 10) else s.powerCap

/-- A codeword as port `p`'s lane `l` receives it (R51, R53, R56). -/
abbrev State.heard (s : State) (p : Port) (l : Fin 4) (line : BitVec 5440) : RxCw := decodeCw (s.lane (.net p l)).rxScr.toNat (ofLevels 2720 (s.lane (.net p l)).farPrecode (s.rb (.laneStatus (.net p l)) 14) (s.lane (.net p l)).rxLast line.toNat).1

/-- The frames among what has left: port, trailer, flits. -/
def sentFrames (out : List Emission) : List (Port × BitVec 128 × List (BitVec 512)) :=
  out.filterMap (fun e => match e with | .frame p t fl => some (p, t, fl) | _ => none)

/-- The link packets among what has left. -/
def sentPackets (out : List Emission) : List (HLink × List Byte) :=
  out.filterMap (fun e => match e with | .hostPacket h b => some (h, b) | _ => none)

/-- A started command of a queue entry whose completion is one write to the queue's ring: the queue stays, its link is
not lost, and neither an event nor a completion run follows. -/
abbrev State.Plain (s : State) (op : Nat) (o : Op) (c : Cq) : Prop :=
  tFind s.ops op = some o ∧ o.src = .entry ∧ tFind s.cqs o.queue = some c ∧ c.dying = false ∧ c.flushing = none ∧
  s.hlLost c.link = false ∧ bit (o.w 0) 50 = false ∧ bit (s.ctxWord o.ctx 22) 61 = false ∧ s.domRuns (o.stall / 8) = true ∧
  c.slotAddr o.count % 4096 ≤ 4088

/-- A started command that its row may perform: no orderly stop waits (R38), `Plain`, not yet performed, with the opcode,
and its counter not a foreign one. -/
abbrev State.Starts (s : State) (op opc : Nat) (o : Op) (c : Cq) : Prop :=
  s.Calm ∧ s.live (.domain 0) = true ∧ s.tack.stopping = false ∧ s.Plain op o c ∧ op < s.serial ∧ o.performed = false ∧ hdrOp (o.w 0) = opc ∧ (raisesCt opc = false ∨ s.ctDenied o = false)

/-- No command of the context to the peer `fa`, `pc` that started before `o` still waits to be performed (R266). -/
abbrev State.SendsNext (s : State) (o : Op) (fa pc : Nat) : Prop :=
  ∀ e ∈ s.ops, e.2.performed = true ∨ e.2.admin = true ∨ e.2.ctx ≠ o.ctx ∨ hdrOp (e.2.w 0) = 0 ∨ 6 < hdrOp (e.2.w 0) ∨ o.started ≤ e.2.started ∨
    (s.rank o.ctx (fld (e.2.w 1) 63 32)).toOption ≠ some (fa, pc)

/-- The write of an entry's completion (R177). -/
def Cq.cpl (c : Cq) (o : Op) (status detail : Nat) : ReqTlp :=
  .wr ⟨c.slotAddr o.count, leBytes 8 (cplHeader (o.w 0) status detail).toNat, false,
    if c.admin then none else some c.ctx, if c.admin then 31 else c.fn, 0, .none⟩

/-- Groom `g` executes at the pc of its run `r` the instruction whose word is `w` (R333, R336): its stall is powered and
its domain runs, no orderly stop waits, the run neither has ended nor waits, budget is left, and the pc is within the image. -/
abbrev State.Fetches (s : State) (g : GroomId) (r : Run) (w : BitVec 32) : Prop :=
  s.Calm ∧ s.live (.stall g.s) = true ∧ s.domRuns (g.s.val / 8) = true ∧ s.tack.stopping = false ∧ (s.groom g).run = some r ∧ r.halted = false ∧
  r.exc = none ∧ r.wait = .none ∧ 1 ≤ r.budget ∧ r.pc < r.pages * 1024 ∧ s.fetchWord r = w

/-- The run after an instruction that writes `v` to register `rd` and goes on at `pc`: one instruction of its budget is
used, and the TIMER event is pending where network time has reached TIMER. -/
def State.ran (s : State) (r : Run) (rd : BitVec 5) (v : Word) (pc : Nat) : Run :=
  { (s.latchTimer r).put rd v with pc := pc, budget := r.budget - 1 }

/-- A run without what the model keeps so that a plain load of it may have been performed early (R354, log entry 127). -/
def Run.bare (r : Run) : Run := { r with pastHbm := [], pastBuf := [], seen := [] }

/-- What an instruction that changes only its own run leaves as it was: private scratch, every other Groom and, with
instruction sampling (R482) off, everything but the Groom's programmable counters (R476). -/
abbrev State.Retires (s t : State) (g : GroomId) (r : Run) : Prop :=
  (t.groom g).run = some r ∧ (t.groom g).scratch = (s.groom g).scratch ∧ (∀ h : GroomId, h ≠ g → t.groom h = s.groom h) ∧
  (s.rb (.pmSample g.s) 63 = false → t = { s with grooms := t.grooms, regs := t.regs } ∧
    ∀ q : Reg, (∀ i : Fin 8, q.addr ≠ (Reg.pmGcnt g i).addr) → t.reg q = s.reg q)

/-- The same of a load or fence, which may move the points up to which the run's plain loads may be performed early. -/
abbrev State.Loads (s t : State) (g : GroomId) (r : Run) : Prop :=
  (t.groom g).run.map Run.bare = some r.bare ∧ (t.groom g).scratch = (s.groom g).scratch ∧ (∀ h : GroomId, h ≠ g → t.groom h = s.groom h) ∧
  (s.rb (.pmSample g.s) 63 = false → t = { s with grooms := t.grooms, regs := t.regs, frees := t.frees } ∧
    ∀ q : Reg, (∀ i : Fin 8, q.addr ≠ (Reg.pmGcnt g i).addr) → t.reg q = s.reg q)

/-- A cached translation serves an access of a context in a stall, within its device-memory share (R218, R223). -/
abbrev State.Hits (s : State) (st c va access : Nat) (e : XlEntry) : Prop :=
  (s.ctx? c).isSome = true ∧ va < 2 ^ 48 ∧ bit (s.ctxWord c 5) 0 = true ∧
  (tGet [] s.xl st).find? (fun e => e.serves (fld (s.ctxWord c 7) 63 48) (fld (s.ctxWord c 7) 47 32) va access
    (bit (s.ctxWord c 7) 0) && (!e.hbm || s.inShare (s.ctxDom c) 10 ((e.out + (va - e.va)) / 4096 * 4096) 4096)) = some e

/-- A run has raised an exception (R346, R347): the excepting instruction has had no effect; the run records kind,
detail, address and pc, executes no more, and what R347 lists waits for its end. -/
abbrev State.Raised (s t : State) (g : GroomId) (r : Run) (kind detail addr : Nat) : Prop :=
  (t.groom g).run.map (fun x => x.exc) = some (some (kind, detail, addr, r.pc)) ∧
  (t.groom g).run.map (fun x => (x.regs, x.pc, x.wait, x.handles)) = some (r.regs, r.pc, .none, r.handles) ∧
  (t.groom g).scratch = (s.groom g).scratch ∧ t.buf = s.buf ∧ t.rb (.grStatus g.s) 2 = true ∧
  t.reg (.grFault g.s) = s.reg (.grFault g.s) ∧ t.reg (.grCount g.s) = s.reg (.grCount g.s)

/-- The exception of a run that has ended (R347): GR_FAULT records it where it held none and notes more where it did,
GR_COUNT.faults rises, a NOTE is recorded, and where fault_action is 0 the binding of the event is suspended. -/
abbrev State.Reported (s t : State) (g : GroomId) (r : Run) (kind detail addr pc : Nat) : Prop :=
  t.rb (.grFault g.s) 63 = true ∧ t.rf (.grCount g.s) 31 16 = min (s.rf (.grCount g.s) 31 16 + 1) 65535 ∧
  t.rb (.ftStatus (.stall g.s)) 0 = true ∧
  (s.rb (.grFault g.s) 63 = true → t.rb (.grFault g.s) 62 = true ∧ t.rf (.grFault g.s) 61 58 = s.rf (.grFault g.s) 61 58) ∧
  (s.rb (.grFault g.s) 63 = false → t.rf (.grFault g.s) 61 58 = kind % 16 ∧ t.rf (.grFault g.s) 57 50 = detail % 256 ∧
    t.rf (.grFault g.s) 49 46 = g.g.val ∧ t.rf (.grFault g.s) 45 44 = r.ref.kind % 4 ∧ t.rf (.grFault g.s) 17 0 = pc % 2 ^ 18 ∧
    t.reg (.grFaultAddr g.s) = BitVec.ofNat 64 addr) ∧
  (t.ctx? r.ctx).map (fun x => x.suspended) = (s.ctx? r.ctx).map (fun x =>
    if bit (r.bind.getD 2 0) 55 = false then x.suspended ||| 2 ^ r.ref.kind else x.suspended)

/-- A COLL of group `g` passes its checks (R294): `d`, `r` are the table that holds the group and its record, `j` the
context's place, `n` the instance that it joins, which has not ended. -/
abbrev State.Joins (s : State) (o : Op) (g d j n : Nat) (r : ClGroup) : Prop :=
  g = fld (o.w 1) 63 48 ∧ s.findGroup g = some (d, r) ∧ s.grpPlace d g o.ctx = some j ∧ n = tGet 0 r.seqs j ∧
  clAllowed (fld (o.w 1) 47 40) (fld (o.w 1) 39 36) (fld (o.w 1) 35 34) = true ∧
  fld (o.w 3) 31 0 * clUp (fld (o.w 1) 47 40) (fld (o.w 1) 39 36) (fld (o.w 1) 35 34) < 2 ^ 32 ∧
  s.rb (.clCtrl (engineOf r.engine)) 16 = true ∧ o.w 5 = s.grpWord d g 1 ∧ o.w 6 = s.grpWord d g 2 ∧
  r.gone n = false

/-- A child's packet is one of segment `seg` of an active instance `h` = `x` of its group (R299 to R301). -/
abbrev State.Feeds (s : State) (e : Engine) (p : Pkt) (d h i seg : Nat) (r : ClGroup) (x : ClInst) : Prop :=
  s.findGroup (Pkt.key p / 65536) = some (d, r) ∧ e.val ∉ s.engOff ∧ r.number (Pkt.msn p) = some x.n ∧
  r.gone x.n = false ∧ i = Pkt.sctx p % 16 ∧ i < s.grpKids d (Pkt.key p / 65536) ∧
  s.instOf d (Pkt.key p / 65536) x.n = some h ∧ tFind s.insts h = some x ∧ x.engine = e.val ∧ x.dom = d ∧
  x.group = Pkt.key p / 65536 ∧ seg = Pkt.moff p / 4096 ∧ seg < x.nseg

/-- Every COLL of the context on the group that started before `o` has been performed (R295). -/
abbrev State.CollsNext (s : State) (o : Op) : Prop :=
  ∀ e ∈ s.ops, e.2.performed = true ∨ e.2.admin = true ∨ e.2.ctx ≠ o.ctx ∨ hdrOp (e.2.w 0) ≠ 0x0C ∨
    fld (e.2.w 1) 63 48 ≠ fld (o.w 1) 63 48 ∨ o.started ≤ e.2.started

/-- Domain `d` is powered, runs, and no start is in progress. -/
abbrev State.DomainUp (s : State) (d : Dom) : Prop :=
  s.Calm ∧ s.live (.domain d) = true ∧ s.domRuns d.val = true ∧ s.tack.starting = false

/-- Domain `d` has been lost with a cause and an agent (R373, R374, R376): it is FENCED, its FENCE-class fault is recorded,
and no context, flow, group or shared scratch of it is left; HBM is untouched until its restart, and the other domain stays. -/
abbrev State.Lost (s t : State) (d : Dom) (cause agent : Nat) : Prop :=
  t.domState d.val = 1 ∧ t.rf (.csStatus d) 61 56 = cause ∧ t.rf (.csStatus d) 47 40 = agent ∧
  t.rf (.csStatus d) 55 48 = s.rf (.csStatus d) 55 48 ∧ t.rb (.ftStatus (.domain d)) 2 = true ∧
  t.ctxs = s.ctxs.filter (fun e => s.ctxDom e.1 ≠ d.val) ∧
  t.tfl = s.tfl.filter (fun e => s.ctxDom e.2.dctx ≠ d.val) ∧
  t.groups = s.groups.filter (fun e => e.1 / 65536 ≠ d.val) ∧ t.cqs = s.cqs.filter (fun e => s.cqDom e.2 ≠ d.val) ∧ t.hbm = s.hbm ∧ t.buf = s.bufWithout d.val ∧
  t.domState (1 - d.val) = s.domState (1 - d.val)

/-- The cause that CS_STATUS records for a failure that loses its domain, whichever line it is in (R377, R464). -/
abbrev storeCause : StoreFailure → Option Nat
  | .protocol => some 1
  | .directoryError => some 3
  | .hbmUncorrectable => some 0x10
  | .hitchInternal => some 0x11
  | .cacheUncorrectable => some 0x12
  | .hbmCorrected => none
  | .cacheCorrected => none
  | .cacheLine _ => none

/-- An error of a domain's store that loses nothing: a NOTE is recorded at a block, and the domain goes on (R463). -/
abbrev State.Noted (s t : State) (d : Dom) (b : Block) : Prop :=
  t.rb (.ftStatus b) 0 = true ∧ t.domState d.val = s.domState d.val ∧ t.hbm = s.hbm ∧ t.buf = s.buf

/-- The chip takes network time over its links: port `p` has consumed a TIME_SYNC with header `h` (R393), and no other
port is a candidate. -/
abbrev State.Hears (s : State) (p : Port) (h : BitVec 512) : Prop :=
  s.live (.port p) = true ∧ s.isRoot = false ∧ s.bypassHead p 2 = some h ∧ fld h 313 313 = 1 ∧ fld h 319 314 < 62 ∧
  ∀ q : Port, q ≠ p → (s.port q).rx = none

/-- A packet is whole: no flit is poisoned, and its ECRC is right (R259, R268). -/
abbrev Pkt.Sound (p : Pkt) : Prop := Pkt.poisoned p = false ∧ Pkt.ecrcOf p = Pkt.ecrc p

/-- Packet `p` is the one that has waited longest at an endpoint; `rest` wait behind it. -/
abbrev State.Arrives (s : State) (p : Pkt) (x : Option Port) (rest : List Ejected) : Prop :=
  s.Calm ∧ s.live (.domain 0) = true ∧ s.eject = ⟨p, x⟩ :: rest

/-- A well-formed request for a context of this chip whose domain runs (R260, R268), which opens no flow. -/
abbrev State.Requests (s : State) (p : Pkt) : Prop :=
  Pkt.Sound p ∧ (s.ctx? (Pkt.dctx p)).isSome = true ∧ s.domRuns (s.ctxDom (Pkt.dctx p)) = true ∧
  (Pkt.opc p = 1 ∨ Pkt.opc p = 2 ∨ Pkt.opc p = 4 ∨ Pkt.opc p = 6 ∨ Pkt.opc p = 0x18) ∧ Pkt.malformed p = false ∧
  (Pkt.opc p ≠ 0x18 ∨ Pkt.tag p / 2 ^ 56 ≠ 1)

/-- The target record `tf` of handle `f` is that of the packet's flow (R262). -/
abbrev State.Knows (s : State) (p : Pkt) (f : Nat) (tf : TFlow) : Prop :=
  s.findTfl p = some f ∧ tFind s.tfl f = some tf ∧ tf.srcFa = Pkt.srcFa p ∧ tf.sctx = Pkt.sctx p ∧ tf.dctx = Pkt.dctx p

/-- A New packet of a flow (R269): the next PSN, nothing else held, issued, delivered above cum or refused, and no run is
bound to the context's packets. -/
abbrev State.Next (s : State) (p : Pkt) (tf : TFlow) : Prop :=
  Pkt.psn p = (tf.cum + 1) % 2 ^ 32 ∧ tf.deliv = [] ∧ tf.refused = [] ∧ tf.held = none ∧ tf.sends = [] ∧ tf.issued = [] ∧
  tf.prog = [] ∧ tf.aborted = [] ∧ (∀ k, k < 3 → s.bound tf.dctx k = false)

/-- The ACK of record `tf` (R261, R271), `delay` ns after the packet that it answers. -/
def State.ackFor (s : State) (tf : TFlow) (delay : Nat) : Pkt :=
  sealPkt (buildPkt tf.srcFa (s.ctxFa tf.dctx) 6 0 false true (flowHash (s.ctxFa tf.dctx) tf.srcFa tf.dctx tf.sctx)
    [(383, 376, 0x08), (371, 350, tf.dctx), (349, 328, tf.sctx), (327, 296, tf.cum), (271, 240, tf.newestPsn),
     (239, 208, delay), (111, 48, tf.map), (47, 32, tf.newestTsl)] [])

/-- The NACK of packet `p` (R261, R272), sent from address `src` with the flow's cum and map. -/
def nackFor (p : Pkt) (src cum map cause detail : Nat) : Pkt :=
  sealPkt (buildPkt (Pkt.srcFa p) src 6 0 false true (flowHash src (Pkt.srcFa p) (Pkt.dctx p) (Pkt.sctx p))
    [(383, 376, 0x09), (371, 350, Pkt.dctx p), (349, 328, Pkt.sctx p), (327, 296, Pkt.psn p), (295, 272, Pkt.msn p),
     (271, 240, cum), (143, 136, cause), (135, 128, detail), (111, 48, map), (47, 32, Pkt.tsl p)] [])

/-- The ATOMIC_RSP of packet `p` of a flow, with the old value (R261, R277). -/
def State.atomRsp (s : State) (tf : TFlow) (p : Pkt) (old : Nat) : Pkt :=
  s.stamp (buildPkt tf.srcFa (s.ctxFa tf.dctx) (Pkt.tc p) 2 false (Pkt.adapt p)
    (flowHash (s.ctxFa tf.dctx) tf.srcFa tf.dctx tf.sctx)
    [(383, 376, 0x05), (374, 374, 1), (371, 350, tf.dctx), (349, 328, tf.sctx), (327, 296, Pkt.psn p), (207, 144, old),
     (47, 32, Pkt.tsl p)] [])

/-- The packet is answered by `q` from stall `st` and leaves no other trace: the answer waits for injection, and but for
counts nothing else changes. -/
abbrev State.AnsweredBy (s t : State) (rest : List Ejected) (st : Nat) (q : Pkt) : Prop :=
  t.inject = tMod [] (4 * st) (· ++ [q]) s.inject ∧ t = { s with eject := rest, inject := t.inject, regs := t.regs }

/-- The first waiting packet of its opcode answers requests of flow `f` = `x` (R268, R271): `l` and `r` stand before and
after it. -/
abbrev State.Answers (s : State) (opc : Nat) (p : Pkt) (l r : List Pkt) (f : Nat) (x : IFlow) : Prop :=
  s.Calm ∧ s.live (.domain 0) = true ∧ s.toInit = l ++ p :: r ∧ l.all (fun q => Pkt.opc q ≠ opc) = true ∧
  Pkt.opc p = opc ∧ s.findIfl (Pkt.dctx p) (Pkt.srcFa p) (Pkt.sctx p) = some f ∧ s.ifl = [(f, x)]

/-- An RTT sample of `v` ns with `b` bytes newly acknowledged (R283, R284): base_rtt and cwnd after it. -/
def IFlow.sampled (x : IFlow) (now v b : Nat) : Option Nat × Nat :=
  let base := match x.baseRtt with
    | some r => min r v
    | none => v
  let target := base + fld x.ctrl 41 28
  (some base,
    if bit x.ctrl 3 = false then x.cwnd
    else if v ≤ target then min (4096 * fld x.ctrl 50 42) (x.cwnd + 4096 * b / x.cwnd)
    else if x.lastDec.any (fun d => decide (now < d + 16 * v)) then x.cwnd
    else max 4096 (x.cwnd - x.cwnd * (v - target) / (2 * v)))

/-- The packet of flow `x` that item `i` gives next (R258, R261, R266, R267), its payload `pay`: `last` and `ack` are LAST
and ACKREQ, `mlen` and `addr` the fields of its opcode. -/
def State.nextPkt (s : State) (x : IFlow) (i : SendItem) (last ack flagged : Bool) (mlen addr : Nat) (pay : List Byte) : Pkt :=
  s.stamp (buildPkt x.peerFa (s.ctxFa x.ctx) i.tc 1 flagged i.adapt (flowHash (s.ctxFa x.ctx) x.peerFa x.ctx x.peerCtx)
    [(383, 376, i.opc), (375, 375, b2n last), (373, 373, b2n ack), (371, 350, x.ctx), (349, 328, x.peerCtx),
     (327, 296, x.next), (295, 272, i.msn.getD x.nextMsn), (271, 240, i.moff), (239, 208, mlen), (207, 144, i.tag),
     (143, 112, i.key), (111, 48, addr)] pay)

/-- PSN `o` of flow `f` = `x` has been sent again (R280): ACKREQ 1, a fresh TSL and ECRC, the same PSN and contents. -/
abbrev State.Resent (u t : State) (f : Nat) (x : IFlow) (o : Outst) (fl : Flit) (fs : Pkt) : Prop :=
  t.inject = tMod [] (4 * u.ctxStall x.ctx + Pkt.vclass o.pkt % 4) (· ++ [u.stamp ({ fl with bits := setBit fl.bits 373 true } :: fs)]) u.inject ∧
  (tFind t.ifl f).map (fun y => y.outst) = some (x.outst.map (fun q => if q.psn = o.psn
    then { q with pkt := u.stamp ({ fl with bits := setBit fl.bits 373 true } :: fs),
                  tsl := Pkt.tsl (u.stamp ({ fl with bits := setBit fl.bits 373 true } :: fs)),
                  lastTx := u.clk, sends := q.sends + 1, gap := false, nackAt := none } else q)) ∧
  t.rf (.rmaCount (stallOf (u.ctxStall x.ctx))) 63 48 = min (u.rf (.rmaCount (stallOf (u.ctxStall x.ctx))) 63 48 + 1) 65535 ∧
  t = { u with ifl := t.ifl, inject := t.inject, regs := t.regs }

/-- The mailbox performs command `c` of a code (R439, R440): it runs alone, and its claim has not ended. -/
abbrev State.Commanded (s : State) (code : Nat) (c : MbCmd) : Prop :=
  s.live .global = true ∧ s.mbox.run = some c ∧ c.code = code ∧ c.quiet = false ∧ s.mbox.overtaken = false ∧ s.mbox.urgent = none

/-- The mailbox's command has ended (R438, R440, R442): MB_STATUS shows result, detail and output length, MB_BUF holds the
output, go reads 0, and the claim's time runs anew. -/
abbrev State.Ended (s t : State) (result detail : Nat) (out : List Byte) : Prop :=
  t.reg .mbStatus = mkWord 64 [(63, 56, result), (55, 48, detail), (31, 0, out.length)] ∧ t.rb .mbCmd 63 = false ∧
  t.mbox = { s.mbox with run := none, since := s.tk } ∧ t.buf = memWrite s.buf 0x110000 out

/-- How MB_CLAIM names a master: its kind and its number (R438). -/
def masterKind : Master → Nat
  | .fn _ _ => 1
  | .steward _ => 2
  | .warden => 0

/-- The number of a master in MB_CLAIM (R438). -/
def masterNumber : Master → Nat
  | .fn h f => 32 * h.val + f.val
  | .steward d => d.val
  | .warden => 0

/-- The 16-byte status (R444), with the two measured supply voltages. -/
def State.status16 (s : State) (vm va : Nat) : List Byte :=
  leBytes 1 s.mode ++ leBytes 1 s.flash.failCount ++ leBytes 2 s.flash.reason ++
  leBytes 2 (match s.flash.grave with
    | some g => g.1
    | none => 0) ++
  leBytes 1 (b2n s.flash.mainLost + 2 * b2n s.pins.trip + 4 * b2n s.flash.watchdog + 8 * b2n s.tack.smbReport.isSome) ++
  leBytes 1 s.tack.tjMax ++ leBytes 2 vm ++ leBytes 2 va ++ leBytes 2 (s.rf .tkPower 47 32) ++ leBytes 1 s.fuses.sec ++
  leBytes 1 (s.rf .tkState 47 47 + 2 * s.flash.preferred)

/-- Bytes 0 to 379 of the report (R437) on a nonce. -/
def State.report380 (s : State) (nonce : List Byte) : List Byte :=
  [0x4E, 0x56, 0x41, 0x52, 1, 0, 0x51, 0x64, 0xB0] ++ leBytes 1 s.fuses.sec ++ leBytes 1 s.mode ++ leBytes 1 s.flash.failCount ++
  leBytes 2 s.flash.reason ++ [0, 0] ++ leBytes 8 (s.reg .chipId).toNat ++ nonce ++ beBytes 64 s.tack.underHash.toNat ++
  (if s.tack.underHash = 0 then List.replicate 16 0 else beBytes 8 (s.reg .coDigestHi).toNat ++ beBytes 8 (s.reg .coDigestLo).toNat) ++
  beBytes 64 s.tack.chain.toNat ++ leBytes 4 (s.rf .coSerial 63 32) ++ leBytes 4 s.tack.chained ++
  beBytes 32 (s.fuses.owner0.getD 0).toNat ++ beBytes 32 (s.fuses.owner1.getD 0).toNat ++
  leBytes 1 (b2n s.fuses.revoked0 + 2 * b2n s.fuses.revoked1) ++ [0, 0, 0] ++ leBytes 8 s.nt.toNat ++ List.replicate 64 0

/-- The identity block (R435). -/
def State.identity272 (s : State) : List Byte :=
  let b := leBytes 8 (s.reg .chipId).toNat ++ beBytes 66 (ecPublic (Config.deriveKey s.fuses.secret)).1 ++ beBytes 66 (ecPublic (Config.deriveKey s.fuses.secret)).2
  let g := ecSign Config.vendorSecret (sha512 b) Config.vendorNonce
  b ++ beBytes 66 g.1 ++ beBytes 66 g.2

/-- A result that is not an error, as an option. -/
def okOf {α : Type} : Except Nat α → Option α
  | .ok a => some a
  | .error _ => none

/-- The code of an error, 0 where there is none. -/
def codeOf {α : Type} : Except Nat α → Nat
  | .ok _ => 0
  | .error e => e

/-- A coat command takes effect (R439, R440): no coat is being handled, and the mode allows it. -/
abbrev State.CoatCommand (s : State) (code : Nat) (c : MbCmd) : Prop :=
  s.Commanded code c ∧ (s.mode = 1 ∨ (s.mode = 2 ∧ code ≠ 0x12)) ∧ s.coatBusy = false

/-- The master may reach the register at `a` now: it is powered, the address is aligned and the register's own, its block
is powered and has not stopped with its domain (R6, R162, R373, R452). -/
abbrev State.Reaches (s : State) (m : Master) (a : BitVec 64) (r : Reg) : Prop :=
  s.agentLive m = true ∧ s.masterMay m a.toNat = true ∧ a.toNat % 8 = 0 ∧ targetAt a.toNat = .reg r ∧
  s.live r.block = true ∧ s.stoppedReg r = false

/-- Where a master is a privileged core, none of its accesses waits, and its write at `a` is not acknowledged early (R363). -/
abbrev State.Prompt (s : State) (m : Master) (a : Nat) : Prop :=
  s.coreAccs = [] ∧ (match coreOf m with | some c => s.ewa c a | none => false) = false

/-- Registers of several blocks whose write starts nothing. -/
def plainReg : Reg → Bool
  | .egWeight _ => true
  | .egShape _ _ => true
  | .rmaCtrl _ => true
  | .csCtrl _ => true
  | .grStatus _ => true
  | .pmCnt _ _ => true
  | _ => false

end Sys2Proof.Machine

/-- The block's step (log entry 1): the command at the front is performed on the state with the rest of the queue
waiting, and its outcome is the step's. No command stops the block: each answers a next state on every state and
operands. -/
def Obligations.StepPerformsTheFrontCommand : Prop :=
  (∀ (s : State) (c : Instr) (rest : List Instr), s.pending = c :: rest → step s = exec c { s with pending := rest }) ∧
  (∀ (s : State) (c : Instr), ∃ t, exec c s = .next t)

/-- On an empty queue one count of 1/16 ns of the resonator passes (log entry 1, a choice of the model). While main
power is up and RESET_L is high, NT (R391) and the core's count rise by the whole counts that the rate corrected
by NT_OFFSET.freq (R396) makes of it, and the rest is kept: by 1 where freq is 0. Tack Room time (R432) rises by 1
while VIN_AUX is present and RESET_L is high; where no store of a Groom and no access of a privileged core waits
(those are performed then), memory, pins and flash stay. -/
def Obligations.EmptyQueuePassesOneCount : Prop :=
  ∀ s : State, s.pending = [] → s.Calm → s.storesDrained = true → s.coreAccs = [] → ∃ t, step s = .next t ∧ t.pending =
    [] ∧ t.nt = s.nt + (if s.coreOn && s.pins.resetL then BitVec.ofNat 64 (s.ntParts 1 / 1000000000) else 0) ∧ t.clk =
    s.clk + (if s.coreOn && s.pins.resetL then s.ntParts 1 / 1000000000 else 0) ∧ (s.rf .ntOffset 31 0 = 0 → s.ntFrac
    < 1000000000 → s.ntParts 1 / 1000000000 = 1) ∧ (s.coreOn = true → s.pins.resetL = true → t.ntFrac = s.ntParts 1 %
    1000000000) ∧ t.tk = s.tk + (if s.pins.vinAux && s.pins.resetL then 1 else 0) ∧ t.hbm = s.hbm ∧ t.buf = s.buf ∧
    t.pins = s.pins ∧ t.flash = s.flash

/-- What a part is as delivered (R499) and in cold reset (R493): every register holds its reset value, both owner-key
slots are empty, no undercoat is in either flash slot, the security version is 0, no command waits, and the
memories and the register file are in their one form (log entry 10). While both slots are empty no coat passes the
checks. -/
def Obligations.ResetLeavesThePartAsDelivered : Prop :=
  ((∀ r : Reg, State.reset.reg r = r.reset) ∧ State.reset.fuses.owner0 = none ∧ State.reset.fuses.owner1 = none ∧
    State.reset.flash.slotA = [] ∧ State.reset.flash.slotB = [] ∧ State.reset.fuses.sec = 0 ∧ State.reset.pending = []
    ∧ State.reset.Canon) ∧
  (∀ (s : State) (kind staged : Nat) (bs : List Byte) (l : List CoatSec), s.fuses.owner0 = none → s.fuses.owner1 = none →
    s.checkCoat kind staged bs ≠ .ok l)

/-- Every register lies at one address of the map (R485, R498): the register that the map has at an aligned device
address is the one whose block base and offset give that address. After a register's stored value is replaced it
reads that value, a field of it reads what was put into that field, fields above and below read as before, every
register at another address reads as before, and nothing else of the state changes. -/
def Obligations.RegistersLieAtTheirAddressesAndKeepWhatIsStored : Prop :=
  (∀ (a : Nat) (r : Reg), a % 8 = 0 → targetAt a = .reg r → r.addr = a) ∧
  (∀ (s : State) (r : Reg) (v : Word), (s.setReg r v).reg r = v ∧ (∀ q : Reg, q.addr ≠ r.addr → (s.setReg r v).reg q =
    s.reg q) ∧ (∀ hi lo x : Nat, lo ≤ hi → hi < 64 → (s.wf r hi lo x).rf r hi lo = x % 2 ^ (hi + 1 - lo) ∧ ∀ hi' lo' :
    Nat, lo' ≤ hi' → hi' < 64 → (hi < lo' ∨ hi' < lo) → (s.wf r hi lo x).rf r hi' lo' = s.rf r hi' lo') ∧ (s.setReg r
    v) = { s with regs := (s.setReg r v).regs })

/-- Every step, of every command in every state, keeps HBM, shared scratch and MB_BUF in their one form: addresses
strictly rising, and no byte listed that reads as an unlisted one does (the form of memory is the model's own, log
entry 10). -/
def Obligations.EveryStepKeepsTheFormOfMemory : Prop :=
  ∀ s t : State, s.memCanon = true → step s = .next t → t.memCanon = true

/-- VIN_AUX_RISE, RESET_L_RISE and COLD_RESET (R36, R40, R41, R449, R454, R493). Of VIN_AUX and RESET_L the one that
comes last starts the Tack Room: the start stands at step 2, Tack Room time and network time are 0, every register
outside TACK has its reset value, HBM, shared scratch, the queues, event queues, contexts and Grooms' records are
empty, the fuses and both undercoat slots stay, and the GRAVE record stays, unless VIN_AUX_RISE finds VIN_MAIN
below 1 V with the GRAVE latch clear. The one that comes first changes the pins alone, and VIN_AUX_RISE with
VIN_AUX present changes nothing. A cold reset with VIN_AUX present gives every register its reset value, empties
HBM, shared scratch, the queues, event queues, contexts and Grooms' records, and keeps main power, the fuses,
every pin but RESET_L and, unless a start was in progress, the flash records; a start that was is recorded as
INTERRUPTED (0x0503) at once. Without VIN_AUX it changes RESET_L alone. The part of a Tack Room start that resets
(R493) clears locks and the mailbox too, keeps the start count, and records a start that was marked in progress as
INTERRUPTED, the reason otherwise staying. -/
def Obligations.SuppliesAndResetStartTheTackRoom : Prop :=
  (∀ (s : State) (b : Bool), s.pins.vinAux = false → s.pins.resetL = true → ∃ t, exec (.vinAuxRise b) s = .next t ∧
    t.step? = 2 ∧ t.tk = 0 ∧ t.nt = 0 ∧ (t.hbm = [] ∧ t.buf = [] ∧ t.cqs = [] ∧ t.eqs = [] ∧ t.ctxs = [] ∧ t.grooms =
    []) ∧ (∀ r : Reg, r.block ≠ .tack → t.reg r = r.reset) ∧ t.fuses = s.fuses ∧ (t.flash.slotA = s.flash.slotA ∧
    t.flash.slotB = s.flash.slotB) ∧ t.flash.grave = (if s.pins.graveLatch = false ∧ b = false then none else
    s.flash.grave) ∧ t.pins = { s.pins with vinAux := true, vinMain := b }) ∧
  (∀ (s : State) (b : Bool), s.Calm → s.pins.vinAux = false → s.pins.resetL = false → exec (.vinAuxRise b) s = .next
    ({ s with pins := { s.pins with vinAux := true, vinMain := b } })) ∧
  (∀ (s : State) (b : Bool), s.Calm → s.pins.vinAux = true → exec (.vinAuxRise b) s = .next (s)) ∧
  (∀ (s : State), s.pins.resetL = false → s.pins.vinAux = true → ∃ t, exec .resetLRise s = .next t ∧ t.step? = 2 ∧ t.tk =
    0 ∧ t.nt = 0 ∧ (t.hbm = [] ∧ t.buf = [] ∧ t.cqs = [] ∧ t.eqs = [] ∧ t.ctxs = [] ∧ t.grooms = []) ∧ (∀ r : Reg,
    r.block ≠ .tack → t.reg r = r.reset) ∧ t.fuses = s.fuses ∧ (t.flash.slotA = s.flash.slotA ∧ t.flash.slotB =
    s.flash.slotB) ∧ t.flash.grave = s.flash.grave ∧ t.pins = { s.pins with resetL := true }) ∧
  (∀ (s : State), s.Calm → s.pins.resetL = false → s.pins.vinAux = false → exec .resetLRise s = .next
    ({ s with pins := { s.pins with resetL := true } })) ∧
  (∀ (s : State), s.pins.resetL = true → s.pins.vinAux = true → ∃ t, exec .coldReset s = .next t ∧ t.regs = [] ∧ (t.hbm =
    [] ∧ t.buf = [] ∧ t.cqs = [] ∧ t.eqs = [] ∧ t.ctxs = [] ∧ t.grooms = []) ∧ t.pins =
    { s.pins with resetL := false } ∧ t.coreOn = s.coreOn ∧ t.fuses = s.fuses ∧ (s.tack.starting = false → t.flash =
    s.flash) ∧ (s.tack.starting = true → t.flash.reason = 0x0503 ∧ t.flash.inProgress = false ∧ t.flash.failCount =
    s.flash.failCount)) ∧
  (∀ (s : State), s.Calm → s.pins.resetL = true → s.pins.vinAux = false → exec .coldReset s = .next
    ({ s with pins := { s.pins with resetL := false } })) ∧
  (∀ s : State, (∀ r : Reg, r.block ≠ .tack → s.tackStart.reg r = r.reset) ∧ s.tackStart.hbm = [] ∧ s.tackStart.buf = []
    ∧ s.tackStart.locks = [] ∧ s.tackStart.nt = 0 ∧ s.tackStart.mbox.holder = none ∧ s.tackStart.fuses = s.fuses ∧
    s.tackStart.flash.slotA = s.flash.slotA ∧ s.tackStart.flash.slotB = s.flash.slotB ∧ s.tackStart.flash.failCount =
    s.flash.failCount ∧ (s.flash.inProgress = true → s.tackStart.flash.reason = 0x0503 ∧ s.tackStart.flash.inProgress
    = false) ∧ (s.flash.inProgress = false → s.tackStart.flash.reason = s.flash.reason))

/-- TACK_ROOM_READY, START_RETRY, MAIN_PG_RISE and REGULATORS_UP (R36, R37, R40, R449): with no GRAVE recorded, or
VIN_MAIN below 1 V and the GRAVE latch clear, and with fewer than 3 failed starts the FAULT pair is driven
healthy, the straps are read, the start is counted and marked, MAIN_EN goes high and the mode is STARTING; a retry
does the same after its pause of 1 s; MAIN_PG within 100 ms then takes the start to step 5 (and is ignored while
MAIN_EN is low), and the regulators within 5 ms to step 6 with both core voltages within 0.62 V to 0.86 V. With a
GRAVE recorded, and VIN_MAIN above 1 V or the GRAVE latch set, the part is HALTED with main power off and the
FAULT pair at GRAVE. -/
def Obligations.StartRaisesMainPower : Prop :=
  (∀ (s : State) (dt : Nat) (v : Bool) (a : BitVec 2), (s.elapse dt).Calm → (s.elapse dt).pins.vinAux = true → (s.elapse
    dt).pins.resetL = true → (s.elapse dt).tack.up = false → (s.elapse dt).tack.dead = false → (s.elapse dt).step? = 2
    → ((s.elapse dt).flash.grave = none ∨ ((s.elapse dt).pins.graveLatch = false ∧ v = false)) → (s.elapse
    dt).tack.retryAt = none → (s.elapse dt).flash.failCount < 3 → ∃ t, exec (.tackRoomReady dt v a) s = .next t ∧
    t.flash.grave = none ∧ t.step? = (if (s.elapse dt).pins.mainPg = false then 4 else if (s.elapse dt).coreOn = true
    then 6 else 5) ∧ t.pins =
    { (s.elapse dt).pins with vinMain := v, addr1 := a.getLsbD 1, addr0 := a.getLsbD 0, faultP := true, faultN := false, mainEn := true }
    ∧ t.tack.up = true ∧ t.tack.starting = true ∧ t.mode = 0 ∧ t.flash.failCount = (s.elapse dt).flash.failCount + 1 ∧
    t.flash.inProgress = true) ∧
  (∀ (s : State) (dt : Nat) (v : Bool) (a : BitVec 2) (g : Nat × Nat), (s.elapse dt).Calm → (s.elapse dt).pins.vinAux =
    true → (s.elapse dt).pins.resetL = true → (s.elapse dt).tack.up = false → (s.elapse dt).tack.dead = false →
    (s.elapse dt).step? = 2 → (s.elapse dt).flash.grave = some g → ((s.elapse dt).pins.graveLatch = true ∨ v = true) →
    ∃ t, exec (.tackRoomReady dt v a) s = .next t ∧ t.flash.grave = some g ∧ t.mode = 4 ∧ t.tack.up = true ∧ t.coreOn
    = false ∧ t.pins.mainEn = false ∧ t.pins.faultP = false ∧ t.pins.faultN = true) ∧
  (∀ (s : State) (dt t0 : Nat), (s.elapse dt).Calm → (s.elapse dt).tack.retryAt = some t0 → (s.elapse dt).tack.up = true
    → t0 + ms 1000 ≤ (s.elapse dt).tk → (s.elapse dt).flash.failCount < 3 → ∃ t, exec (.startRetry dt) s = .next t ∧
    t.pins.mainEn = true ∧ t.tack.starting = true ∧ t.tack.retryAt = none ∧ t.mode = 0 ∧ t.flash.failCount = (s.elapse
    dt).flash.failCount + 1) ∧
  (∀ (s : State), s.Calm → s.pins.mainEn = true → s.pins.mainPg = false → s.pins.vinAux = true → s.tack.up = true →
    s.tack.starting = true → s.step? = 4 → s.tk ≤ s.tack.stepAt + ms 100 → ∃ t, exec .mainPgRise s = .next t ∧ t.pins
    = { s.pins with mainPg := true, vinMain := true } ∧ t.step? = 5 ∧ t.tack.stepAt = s.tk ∧ t.coreOn = s.coreOn) ∧
  (∀ (s : State), s.Calm → s.pins.mainEn = false → exec .mainPgRise s = .next (s)) ∧
  (∀ (s : State), s.Calm → s.tack.up = true → s.pins.mainPg = true → s.coreOn = false → s.tack.starting = true → s.step?
    = 5 → s.tk ≤ s.tack.stepAt + ms 5 → ∃ t, exec .regulatorsUp s = .next t ∧ t.coreOn = true ∧ t.step? = 6 ∧
    t.tack.stepAt = s.tk ∧ 1240 ≤ t.rf .tkTherm 31 16 ∧ t.rf .tkTherm 31 16 ≤ 1720 ∧ 1240 ≤ t.rf .tkTherm 15 0 ∧ t.rf
    .tkTherm 15 0 ≤ 1720)

/-- MAIN_PG_TIMEOUT, START_STEP_COMPLETE and START_STEP_TIMEOUT (R37, R447, R449): a completed step leads to the next,
and step 9 ends in READY with fail_count 0, the suspect marks cleared and the fuses due blown; MAIN_PG not high
within 100 ms, or a Steward not started within 50 ms, fails the start: MAIN_EN goes low, main power is off, the
reason is recorded, and the pause before the next start begins. -/
def Obligations.StartStepsSucceedOrFail : Prop :=
  (∀ (s : State) (dt : Nat), (s.elapse dt).Calm → (s.elapse dt).tack.up = true → (s.elapse dt).pins.mainPg = false →
    (s.elapse dt).tack.stepAt + ms 100 < (s.elapse dt).tk → (s.elapse dt).tack.starting = true → (s.elapse dt).step? =
    4 → ∃ t, exec (.mainPgTimeout dt) s = .next t ∧ t.pins.mainEn = false ∧ t.tack.starting = false ∧ t.tack.retryAt =
    some t.tk ∧ t.flash.reason = 0x0101 ∧ t.flash.failCount = (s.elapse dt).flash.failCount) ∧
  (∀ (s : State), s.Calm → s.tack.up = true → s.tack.starting = true → s.coreOn = true → s.step? = 6 → s.tk ≤
    s.tack.stepAt + ms 200 → s.startLate = false → ∃ t, exec (.startStepComplete .done) s = .next t ∧ t.step? = 7 ∧
    t.tack.stepAt = s.tk ∧ t.hbm = s.hbm) ∧
  (∀ (s : State), s.Calm → s.tack.up = true → s.tack.starting = true → s.coreOn = true → s.step? = 9 → s.startLate =
    false → ∃ t, exec (.startStepComplete .done) s = .next t ∧ t.mode = 1 ∧ t.step? = 10 ∧ t.flash.failCount = 0 ∧
    t.flash.suspectA = false ∧ t.flash.suspectB = false ∧ t.tack.starting = false ∧ t.fuses.sec = s.tack.burn.getD
    s.fuses.sec) ∧
  (∀ (s : State) (dt : Nat) (west : Bool), (s.elapse dt).Calm → (s.elapse dt).tack.up = true → (s.elapse
    dt).tack.starting = true → (s.elapse dt).step? = 8 → (s.elapse dt).tack.stepAt + ms 50 < (s.elapse dt).tk → ∃ t,
    exec (.startStepTimeout dt west) s = .next t ∧ t.pins.mainEn = false ∧ t.coreOn = false ∧ t.tack.retryAt = some
    t.tk ∧ t.flash.reason = (if west then 0x0402 else 0x0401))

/-- MAIN_POWER_LOST, VIN_AUX_LOST, THERMAL_TRIP, GRAVE_FAULT and WATCHDOG_EXPIRY (R39, R40, R44, R450, R468): each
drives MAIN_EN low, and the core is without power, HBM lost. A loss of main power in READY makes the mode
MAIN_OFF, leaves the FAULT pair and is recorded in flash; a loss of VIN_AUX leaves every pin unpowered and the
GRAVE record in flash; a trip or another GRAVE fault latches GRAVE on the FAULT pair and in flash, the trip
THERM_TRIP_L too; the watchdog drives both FAULT pins low and is recorded in flash. -/
def Obligations.LossOfPowerAndGraveStopMainPower : Prop :=
  (∀ (s : State) (b : Bool), s.Calm → s.pins.mainEn = true → s.pins.mainPg = true → s.tack.up = true → s.tack.starting =
    false → s.mode = 1 → ∃ t, exec (.mainPowerLost b) s = .next t ∧ t.pins.mainEn = false ∧ t.coreOn = false ∧ t.hbm =
    [] ∧ t.grooms = [] ∧ t.pins.faultP = s.pins.faultP ∧ t.pins.faultN = s.pins.faultN ∧ t.pins.vinMain = b ∧
    t.flash.mainLost = true ∧ t.mode = 5) ∧
  (∀ (s : State), s.Calm → s.pins.vinAux = true → ∃ t, exec .vinAuxLost s = .next t ∧ t.coreOn = false ∧ t.regs = [] ∧
    t.hbm = [] ∧ t.pins = { vinMain := s.pins.vinMain, resetL := s.pins.resetL } ∧ t.flash.grave = s.flash.grave) ∧
  (∀ (s : State) (k : Fin 24), s.Calm → s.pins.vinAux = true → s.flash.grave = none → s.tack.dead = false → ∃ t, exec
    (.thermalTrip k) s = .next t ∧ t.pins.trip = true ∧ t.pins.faultP = false ∧ t.pins.faultN = true ∧ t.pins.mainEn =
    false ∧ t.coreOn = false ∧ t.hbm = [] ∧ t.flash.grave = some (0x01F0, k.val)) ∧
  (∀ (s : State) (u : BitVec 8), s.Calm → s.pins.vinAux = true → s.flash.grave = none → s.tack.dead = false → ∃ t, exec
    (.graveFault .reference u) s = .next t ∧ t.pins.trip = s.pins.trip ∧ t.pins.faultP = false ∧ t.pins.faultN = true
    ∧ t.pins.mainEn = false ∧ t.coreOn = false ∧ t.hbm = [] ∧ t.flash.grave = some (0x01F2, 0)) ∧
  (∀ (s : State), s.Calm → s.tack.up = true → ms 50 < s.tk → ∃ t, exec .watchdogExpiry s = .next t ∧ t.pins.faultP =
    false ∧ t.pins.faultN = false ∧ t.pins.mainEn = false ∧ t.coreOn = false ∧ t.hbm = [] ∧ t.flash.watchdog = true ∧
    t.tack.dead = true)

/-- PACE_INTERVAL, VOLTAGE_LOOP_TICK and POWER_CAP_TICK (R21, R23, R445, R446). After an interval of 1 µs PACE_STATUS
shows the lowest of each domain's 16 readings, and a reading below 1.750 Gt/s sets the domain's floor bit; in
Dust-sheet mode West reads 0; before the interval has passed nothing changes. A tick of the voltage loop, 10 µs
after the last, shows the hottest sensors and moves each core voltage by a quarter of a mV for each 0.001 Gt/s of
error, at most 10 mV, within 0.62 V to 0.86 V; in Dust-sheet mode that of East alone. A tick of the power loop, 1
ms after the last, shows the measured power and changes the power cap: 10 lower, not below 500, above the limit;
10 higher more than 10 W below it, until it reaches the target and limits no more. -/
def Obligations.PaceVoltageAndPowerLoops : Prop :=
  (∀ (s : State) (dt : Nat) (e w : List (BitVec 16)), (s.elapse dt).Calm → (s.elapse dt).live .global = true → (s.elapse
    dt).dust = false → (s.elapse dt).paceAt + us 1 ≤ (s.elapse dt).clk → e.length = 16 → w.length = 16 → 1750 ≤ lowest
    e → 1750 ≤ lowest w → exec (.paceInterval dt e w) s = .next ((({ s.elapse dt with paceAt := (s.elapse dt).clk }.wf
    .paceStatus 15 0 (lowest e)).wf .paceStatus 31 16 (lowest w)))) ∧
  (∀ (s : State) (dt : Nat) (e w : List (BitVec 16)), (s.elapse dt).Calm → (s.elapse dt).live .global = true → (s.elapse
    dt).dust = false → (s.elapse dt).paceAt + us 1 ≤ (s.elapse dt).clk → e.length = 16 → w.length = 16 → ∃ t, exec
    (.paceInterval dt e w) s = .next t ∧ t.rf .paceStatus 15 0 = lowest e ∧ t.rf .paceStatus 31 16 = lowest w ∧ t.rb
    .paceStatus 48 = ((s.elapse dt).rb .paceStatus 48 || decide (lowest e < 1750)) ∧ t.rb .paceStatus 49 = ((s.elapse
    dt).rb .paceStatus 49 || decide (lowest w < 1750)) ∧ t.paceAt = (s.elapse dt).clk ∧ t.hbm = (s.elapse dt).hbm ∧
    t.pins = (s.elapse dt).pins) ∧
  (∀ (s : State) (dt : Nat) (e w : List (BitVec 16)), (s.elapse dt).Calm → (s.elapse dt).live .global = true → (s.elapse
    dt).clk < (s.elapse dt).paceAt + us 1 → exec (.paceInterval dt e w) s = .next (s.elapse dt)) ∧
  (∀ (s : State) (dt : Nat) (e w : List (BitVec 16)), (s.elapse dt).Calm → (s.elapse dt).live .global = true → (s.elapse
    dt).dust = true → (s.elapse dt).paceAt + us 1 ≤ (s.elapse dt).clk → e.length = 16 → w.length = 16 → ∃ t, exec
    (.paceInterval dt e w) s = .next t ∧ t.rf .paceStatus 15 0 = lowest e ∧ t.rf .paceStatus 31 16 = 0) ∧
  (∀ (s : State) (dt : Nat) (tj : List (BitVec 8)), (s.elapse dt).tack.up = true → (s.elapse dt).coreOn = true →
    (s.elapse dt).dust = false → (s.elapse dt).tack.voltAt + us 10 ≤ (s.elapse dt).tk → tj.length = 24 → ∃ t, exec
    (.voltageLoopTick dt tj) s = .next t ∧ t.rf .tkTherm 63 56 = shownTemp tj (domSensors 0) ∧ t.rf .tkTherm 55 48 =
    shownTemp tj (domSensors 1) ∧ ∃ h0 h1 : Bool, t.rf .tkTherm 31 16 = vStep ((s.elapse dt).rf .tkTherm 31 16)
    (t.paceError 0) h0 ∧ t.rf .tkTherm 15 0 = vStep ((s.elapse dt).rf .tkTherm 15 0) (t.paceError 1) h1 ∧ 1240 ≤ t.rf
    .tkTherm 31 16 ∧ t.rf .tkTherm 31 16 ≤ 1720 ∧ 1240 ≤ t.rf .tkTherm 15 0 ∧ t.rf .tkTherm 15 0 ≤ 1720 ∧
    t.tack.voltAt = (s.elapse dt).tk ∧ t.hbm = (s.elapse dt).hbm ∧ t.pins = (s.elapse dt).pins) ∧
  (∀ (s : State) (dt : Nat) (tj : List (BitVec 8)), (s.elapse dt).tack.up = true → (s.elapse dt).coreOn = true →
    (s.elapse dt).dust = true → (s.elapse dt).tack.voltAt + us 10 ≤ (s.elapse dt).tk → tj.length = 24 → ∃ t, exec
    (.voltageLoopTick dt tj) s = .next t ∧ ∃ h0 : Bool, t.rf .tkTherm 31 16 = vStep ((s.elapse dt).rf .tkTherm 31 16)
    (t.paceError 0) h0 ∧ t.rf .tkTherm 15 0 = (s.elapse dt).rf .tkTherm 15 0 ∧ t.tack.voltAt = (s.elapse dt).tk ∧
    t.hbm = (s.elapse dt).hbm ∧ t.pins = (s.elapse dt).pins) ∧
  (∀ (s : State) (dt : Nat) (w : BitVec 16), (s.elapse dt).tack.up = true → (s.elapse dt).coreOn = true → (s.elapse
    dt).tack.powAt + ms 1 ≤ (s.elapse dt).tk → ∃ t, exec (.powerCapTick dt w) s = .next t ∧ t.rf .tkPower 47 32 =
    w.toNat ∧ t.powerCap = (s.elapse dt).nextCap w.toNat ∧ t.rf .tkPower 63 48 = (s.elapse dt).rf .tkPower 63 48 ∧
    t.tack.powAt = (s.elapse dt).tk ∧ t.hbm = (s.elapse dt).hbm ∧ t.pins = (s.elapse dt).pins)

/-- LANE_TRAIN_START, HOST_LANE_TRAIN_START and LANE_RETRAIN (R59, R61, R72, R81): an enabled lane of a link in
service trains from step 1, one attempt more, with taps at their initial setting unless LANE_TXEQ forces them;
LANE_CTRL.retrain reads 1 while it does. A lane already in training is left alone. Beside what the lane sends,
nothing but registers and the lanes' records changes, and no other lane. TRAINING_FRAME and HOST_TRAINING_SET
(R60, R71): a frame's control and status fields whose CRCs hold are applied: a run of frames with req_pam4 and one
of frames with rx_ready lengthen or end, and a preset sets c(−1) and c(1) unless LANE_TXEQ forces the taps; fields
whose CRCs fail end both runs and are otherwise ignored. The lane then sends its own fields. A host training set
brings the preset requested, which is applied unless LANE_TXEQ forces the taps, the far end's readiness, the
preset it has applied and its lane number. Nothing else changes but what the lane sends. -/
def Obligations.LaneTrainingBeginsAndTakesFrames : Prop :=
  (∀ (s : State) (p : Port) (l : Fin 4), s.Calm → s.live (.port p) = true → s.laneOn (.net p l) = true → s.linkOn (.port
    p) = true → s.laneState (.net p l) = 0 → s.llState (.port p) ≠ 0 → ∃ t, exec (.laneTrainStart p l) s = .next t ∧
    t.laneState (.net p l) = 1 ∧ t.rf (.laneStatus (.net p l)) 7 4 = satAdd 15 (s.rf (.laneStatus (.net p l)) 7 4) 1 ∧
    (t.lane (.net p l)).step = 2 ∧ (t.lane (.net p l)).since = s.clk ∧ (s.rb (.laneTxeq (.net p l)) 32 = false → t.rf
    (.laneTxeq (.net p l)) 19 0 = 64) ∧ (∀ m : LaneId, m ≠ .net p l → t.lane m = s.lane m ∧ t.reg (.laneStatus m) =
    s.reg (.laneStatus m)) ∧ t = { s with regs := t.regs, lanes := t.lanes, out := t.out }) ∧
  (∀ (s : State) (h : HLink) (l : Fin 16), s.Calm → s.live (.hostlink h) = true → s.laneOn (.host h l) = true → s.linkOn
    (.host h) = true → s.laneState (.host h l) = 0 → s.llState (.host h) ≠ 0 → ∃ t, exec (.hostLaneTrainStart h l) s =
    .next t ∧ t.laneState (.host h l) = 1 ∧ t.rf (.laneStatus (.host h l)) 7 4 = satAdd 15 (s.rf (.laneStatus (.host h
    l)) 7 4) 1 ∧ (t.lane (.host h l)).step = 2 ∧ (t.lane (.host h l)).since = s.clk ∧ (s.rb (.laneTxeq (.host h l)) 32
    = false → t.rf (.laneTxeq (.host h l)) 19 0 = 64) ∧ (∀ m : LaneId, m ≠ .host h l → t.lane m = s.lane m ∧ t.reg
    (.laneStatus m) = s.reg (.laneStatus m)) ∧ t = { s with regs := t.regs, lanes := t.lanes, out := t.out }) ∧
  (∀ (s : State) (p : Port) (l : Fin 4), s.Calm → s.live (.port p) = true → s.laneOn (.net p l) = true → s.inService
    (.port p) = true → s.laneState (.net p l) ≠ 1 → (s.port p).use.contains l.val = false → ∃ t, exec (.laneRetrain
    (.net p l)) s = .next t ∧ t.laneState (.net p l) = 1 ∧ t.rb (.laneCtrl (.net p l)) 4 = true ∧ (t.lane (.net p
    l)).step = 2 ∧ (∀ m : LaneId, m ≠ .net p l → t.lane m = s.lane m ∧ t.reg (.laneStatus m) = s.reg (.laneStatus m))
    ∧ t = { s with regs := t.regs, lanes := t.lanes, out := t.out }) ∧
  (∀ (s : State) (h : HLink) (l : Fin 16), s.Calm → s.live (.hostlink h) = true → s.laneOn (.host h l) = true →
    s.inService (.host h) = true → s.laneState (.host h l) ≠ 1 → (s.hl h).use.contains l.val = false → ∃ t, exec
    (.laneRetrain (.host h l)) s = .next t ∧ t.laneState (.host h l) = 1 ∧ t.rb (.laneCtrl (.host h l)) 4 = true ∧
    (t.lane (.host h l)).step = 2 ∧ (∀ m : LaneId, m ≠ .host h l → t.lane m = s.lane m ∧ t.reg (.laneStatus m) = s.reg
    (.laneStatus m)) ∧ t = { s with regs := t.regs, lanes := t.lanes, out := t.out }) ∧
  (∀ (s : State) (n : LaneId), s.Calm → s.live (laneBlock n) = true → s.laneState n = 1 → exec (.laneRetrain n) s = .next
    (s)) ∧
  (∀ (s : State) (p : Port) (l : Fin 4) (c t0 : BitVec 16) (k : BitVec 2), s.Calm → s.live (.port p) = true → s.laneState
    (.net p l) = 1 → 3 ≤ (s.lane (.net p l)).step → fieldOk c = true → fieldOk t0 = true → ∃ t, exec (.trainingFrame p
    l c ⟨t0, k⟩) s = .next t ∧ (t.lane (.net p l)).seenPam4 = (if bit c 15 then (s.lane (.net p l)).seenPam4 + 1 else
    0) ∧ (t.lane (.net p l)).seenReady = (if bit t0 15 then (s.lane (.net p l)).seenReady + 1 else 0) ∧ t.rf
    (.laneStatus (.net p l)) 19 16 = fld t0 8 7 ∧ t.laneState (.net p l) = 1 ∧ (s.rb (.laneTxeq (.net p l)) 32 = false
    → fld c 13 11 = 2 → t.rf (.laneTxeq (.net p l)) 19 14 = 4 ∧ t.rf (.laneTxeq (.net p l)) 13 8 = 8 ∧ t.rf (.laneTxeq
    (.net p l)) 7 0 = 52) ∧ (s.rb (.laneTxeq (.net p l)) 32 = true → t.reg (.laneTxeq (.net p l)) = s.reg (.laneTxeq
    (.net p l))) ∧ t = { s with regs := t.regs, lanes := t.lanes, out := t.out, frees := t.frees }) ∧
  (∀ (s : State) (p : Port) (l : Fin 4) (c t0 : BitVec 16) (k : BitVec 2), s.Calm → s.live (.port p) = true → s.laneState
    (.net p l) = 1 → 3 ≤ (s.lane (.net p l)).step → fieldOk c = false → fieldOk t0 = false → ∃ t, exec (.trainingFrame
    p l c ⟨t0, k⟩) s = .next t ∧ (t.lane (.net p l)).seenPam4 = 0 ∧ (t.lane (.net p l)).seenReady = 0 ∧ t.laneState
    (.net p l) = 1 ∧ (t.lane (.net p l)).step = (s.lane (.net p l)).step ∧ t =
    { s with lanes := t.lanes, out := t.out, frees := t.frees }) ∧
  (∀ (s : State) (h : HLink) (l : Fin 16) (b r st : BitVec 8), s.Calm → s.live (.hostlink h) = true → s.laneState (.host
    h l) = 1 → 3 ≤ (s.lane (.host h l)).step → ∃ t, exec (.hostTrainingSet h l b r st) s = .next t ∧ (t.lane (.host h
    l)).preset = (if s.rb (.laneTxeq (.host h l)) 32 then (s.lane (.host h l)).preset else fld r 1 0) ∧ t.laneState
    (.host h l) = 1 ∧ (t.lane (.host h l)).farReady = bit st 7 ∧ (t.lane (.host h l)).farPreset = fld st 1 0 ∧ t.rf
    (.laneStatus (.host h l)) 19 16 = fld b 3 0 ∧ (s.rb (.laneTxeq (.host h l)) 32 = false → t.rf (.laneTxeq (.host h
    l)) 13 8 = hostPreset (fld r 1 0) ∧ t.rf (.laneTxeq (.host h l)) 19 14 = 0) ∧ t =
    { s with regs := t.regs, lanes := t.lanes, out := t.out })

/-- LANE_TRAIN_STEP, HOST_LANE_TRAIN_STEP and TRAIN_ATTEMPT_TIMEOUT (R61, R62, R72): each step leads to the next, the
first of them with the polarity that it has found; the last takes a network lane to ACTIVE once 8 consecutive
frames have carried rx_ready and a codeword has locked it, and a host lane once both ends of every lane that
trains are ready; step 4 of a network lane waits for PAM4, and step 3 of a host lane until every preset has been
tried. An attempt that has lasted longer than 300 ms (40 ms on a host lane) restarts at step 1, and the third in a
row to fail leaves the lane FAILED, but for a host link in LOST, which tries without limit (R110). -/
def Obligations.LaneTrainingEnds : Prop :=
  (∀ (s : State) (p : Port) (l : Fin 4) (b : Bool), s.Calm → s.live (.port p) = true → s.laneState (.net p l) = 1 →
    (s.lane (.net p l)).step = 6 → 8 ≤ (s.lane (.net p l)).seenReady → s.rb (.laneStatus (.net p l)) 11 = true → ∃ t,
    exec (.laneTrainStep p l b) s = .next t ∧ t.laneState (.net p l) = 2 ∧ t.rf (.laneStatus (.net p l)) 12 11 = 3 ∧
    t.rf (.laneStatus (.net p l)) 7 4 = 0 ∧ t.rb (.laneCtrl (.net p l)) 4 = false ∧ (t.lane (.net p l)).fails = 0 ∧ t
    = { s with regs := t.regs, lanes := t.lanes }) ∧
  (∀ (s : State) (p : Port) (l : Fin 4) (b : Bool), s.Calm → s.live (.port p) = true → s.laneState (.net p l) = 1 →
    (s.lane (.net p l)).step = 2 → ∃ t, exec (.laneTrainStep p l b) s = .next t ∧ (t.lane (.net p l)).step = 3 ∧
    t.laneState (.net p l) = 1 ∧ t.rf (.laneStatus (.net p l)) 10 9 = 3 ∧ t.rb (.laneStatus (.net p l)) 14 = b ∧ t =
    { s with regs := t.regs, lanes := t.lanes, out := t.out, frees := t.frees }) ∧
  (∀ (s : State) (p : Port) (l : Fin 4) (b : Bool), s.Calm → s.live (.port p) = true → s.laneState (.net p l) = 1 →
    (s.lane (.net p l)).step = 4 → (s.lane (.net p l)).pam4 = false → exec (.laneTrainStep p l b) s = .next (s)) ∧
  (∀ (s : State) (h : HLink) (l : Fin 16) (b : Bool), s.Calm → s.live (.hostlink h) = true → s.laneState (.host h l) = 1
    → (s.lane (.host h l)).step = 4 → (∀ m : Fin 16, s.laneState (.host h m) = 1 → (s.lane (.host h m)).ready = true ∧
    (s.lane (.host h m)).farReady = true) → ∃ t, exec (.hostLaneTrainStep h l b) s = .next t ∧ t.laneState (.host h l)
    = 2 ∧ t.rf (.laneStatus (.host h l)) 7 4 = 0 ∧ t = { s with regs := t.regs, lanes := t.lanes, out := t.out }) ∧
  (∀ (s : State) (n : LaneId) (dt : Nat), (s.elapse dt).Calm → (s.elapse dt).live (laneBlock n) = true → (s.elapse
    dt).laneState n = 1 → ((s.elapse dt).lane n).since + (if laneHost n then us 40000 else us 300000) < (s.elapse
    dt).clk → ((s.elapse dt).lane n).fails < 2 → ∃ t, exec (.trainAttemptTimeout n dt) s = .next t ∧ t.laneState n = 1
    ∧ (t.lane n).step = 2 ∧ (t.lane n).fails = ((s.elapse dt).lane n).fails + 1 ∧ (t.lane n).since = (s.elapse dt).clk
    ∧ t = { s.elapse dt with regs := t.regs, lanes := t.lanes, out := t.out }) ∧
  (∀ (s : State) (n : LaneId) (dt : Nat), (s.elapse dt).Calm → (s.elapse dt).live (laneBlock n) = true → (s.elapse
    dt).laneState n = 1 → ((s.elapse dt).lane n).since + (if laneHost n then us 40000 else us 300000) < (s.elapse
    dt).clk → 2 ≤ ((s.elapse dt).lane n).fails → (laneHost n = false ∨ (s.elapse dt).llState (laneLink n) ≠ 7) → ∃ t,
    exec (.trainAttemptTimeout n dt) s = .next t ∧ t.laneState n = 6 ∧ (t.lane n).step = 0 ∧ t.rb (.laneCtrl n) 4 =
    false ∧ t.hbm = (s.elapse dt).hbm ∧ t.buf = (s.elapse dt).buf) ∧
  (∀ (s : State) (h : HLink) (l : Fin 16) (dt : Nat), (s.elapse dt).Calm → (s.elapse dt).live (.hostlink h) = true →
    (s.elapse dt).laneState (.host h l) = 1 → ((s.elapse dt).lane (.host h l)).since + us 40000 < (s.elapse dt).clk →
    (s.elapse dt).llState (.host h) = 7 → ∃ t, exec (.trainAttemptTimeout (.host h l) dt) s = .next t ∧ t.laneState
    (.host h l) = 1 ∧ (t.lane (.host h l)).step = 2 ∧ t =
    { s.elapse dt with regs := t.regs, lanes := t.lanes, out := t.out }) ∧
  (∀ (s : State) (p : Port) (l : Fin 4) (b : Bool), s.Calm → s.live (.port p) = true → s.laneState (.net p l) = 1 →
    (s.lane (.net p l)).step = 4 → (s.lane (.net p l)).pam4 = true → ∃ t, exec (.laneTrainStep p l b) s = .next t ∧
    (t.lane (.net p l)).step = 5 ∧ t.laneState (.net p l) = 1 ∧ t =
    { s with lanes := t.lanes, out := t.out, frees := t.frees }) ∧
  (∀ (s : State) (h : HLink) (l : Fin 16) (b : Bool), s.Calm → s.live (.hostlink h) = true → s.laneState (.host h l) = 1
    → (s.lane (.host h l)).step = 3 → (s.lane (.host h l)).swept = true → ∃ t, exec (.hostLaneTrainStep h l b) s =
    .next t ∧ (t.lane (.host h l)).step = 4 ∧ (t.lane (.host h l)).ready = true ∧ t.rb (.laneStatus (.host h l)) 8 =
    true ∧ t.laneState (.host h l) = 1 ∧ t =
    { s with regs := t.regs, lanes := t.lanes, out := t.out, frees := t.frees }) ∧
  (∀ (s : State) (h : HLink) (l : Fin 16) (b : Bool), s.Calm → s.live (.hostlink h) = true → s.laneState (.host h l) = 1
    → (s.lane (.host h l)).step = 3 → (s.lane (.host h l)).swept = false → exec (.hostLaneTrainStep h l b) s = .next
    (s)) ∧
  (∀ (s : State) (h : HLink) (l : Fin 16) (b : Bool), s.Calm → s.live (.hostlink h) = true → s.laneState (.host h l) = 1
    → (s.lane (.host h l)).step = 2 → ∃ t, exec (.hostLaneTrainStep h l b) s = .next t ∧ (t.lane (.host h l)).step = 3
    ∧ t.laneState (.host h l) = 1 ∧ t.rf (.laneStatus (.host h l)) 11 9 = 7 ∧ t.rb (.laneStatus (.host h l)) 14 = b ∧
    t = { s with regs := t.regs, lanes := t.lanes, out := t.out }) ∧
  (∀ (s : State) (p : Port) (l : Fin 4) (b : Bool), s.Calm → s.live (.port p) = true → s.laneState (.net p l) = 1 →
    (s.lane (.net p l)).step = 3 → ∃ t, exec (.laneTrainStep p l b) s = .next t ∧ (t.lane (.net p l)).step = 4 ∧
    t.laneState (.net p l) = 1 ∧ t = { s with lanes := t.lanes, out := t.out, frees := t.frees }) ∧
  (∀ (s : State) (p : Port) (l : Fin 4) (b : Bool), s.Calm → s.live (.port p) = true → s.laneState (.net p l) = 1 →
    (s.lane (.net p l)).step = 5 → ∃ t, exec (.laneTrainStep p l b) s = .next t ∧ (t.lane (.net p l)).step = 6 ∧
    (t.lane (.net p l)).ready = true ∧ t.rb (.laneStatus (.net p l)) 8 = true ∧ t.laneState (.net p l) = 1 ∧ t =
    { s with regs := t.regs, lanes := t.lanes, out := t.out, frees := t.frees })

/-- ELECTRICAL_IDLE_ENTRY, FAST_EXIT, HOST_IDLE_ENTRY, HOST_FAST_EXIT, FAST_EXIT_BURST_RECEIVED and
HOST_EXIT_BURST_RECEIVED (R63, R64, R73): an ACTIVE lane enters electrical idle where its force_idle is set or its
link has announced it, and reports IDLE, one in TEST or on its way back where its force_idle is set (R64, R80); a
fast exit that work or force_idle asks for takes an IDLE lane back to ACTIVE with its locks, or leaves it IDLE
until the far end's burst comes; an exit burst received locks the receiver again, and the lane reports ACTIVE
unless its own transmitter is idle. No memory changes. -/
def Obligations.ElectricalIdleOfLanes : Prop :=
  (∀ (s : State) (p : Port) (l : Fin 4), s.Calm → s.live (.port p) = true → s.laneState (.net p l) = 2 → (s.rb (.laneCtrl
    (.net p l)) 5 = true ∨ (s.port p).txIdle = true) → ∃ t, exec (.electricalIdleEntry p l) s = .next t ∧ t.laneState
    (.net p l) = 3 ∧ (t.lane (.net p l)).txIdle = true ∧ t.rf (.laneStatus (.net p l)) 63 4 = s.rf (.laneStatus (.net
    p l)) 63 4 ∧ t = { s with regs := t.regs, lanes := t.lanes, out := t.out }) ∧
  (∀ (s : State) (p : Port) (l : Fin 4), s.Calm → s.live (.port p) = true → s.laneState (.net p l) = 3 → s.rb (.laneCtrl
    (.net p l)) 5 = false → s.inService (.port p) = true → (s.lane (.net p l)).txIdle = true → (s.lane (.net p
    l)).rxIdle = false → (s.port p).retrain = none → ((s.port p).txIdle = false ∨ s.portQuiet p = false) → ∃ t, exec
    (.fastExit p l) s = .next t ∧ t.laneState (.net p l) = 2 ∧ t.rf (.laneStatus (.net p l)) 12 10 = 7 ∧ (t.lane (.net
    p l)).txIdle = false ∧ t.hbm = s.hbm ∧ t.buf = s.buf) ∧
  (∀ (s : State) (h : HLink) (l : Fin 16), s.Calm → s.live (.hostlink h) = true → (s.hl h).txIdle = true → (s.hl
    h).retrain = none → ∃ t, exec (.hostIdleEntry h) s = .next t ∧ t.laneState (.host h l) = (if s.laneState (.host h
    l) = 2 ∨ ((s.laneState (.host h l) = 4 ∨ s.laneState (.host h l) = 5) ∧ s.rb (.laneCtrl (.host h l)) 5 = true)
    then 3 else s.laneState (.host h l)) ∧ t = { s with regs := t.regs, lanes := t.lanes, hll := t.hll, out := t.out }) ∧
  (∀ (s : State) (h : HLink) (l : Fin 16), s.Calm → s.live (.hostlink h) = true → s.laneState (.host h l) = 3 → s.rb
    (.laneCtrl (.host h l)) 5 = false → s.inService (.host h) = true → (s.lane (.host h l)).txIdle = true → (s.lane
    (.host h l)).rxIdle = false → (s.hl h).retrain = none → ((s.hl h).txIdle = false ∨ s.hostQuiet h = false) → ∃ t,
    exec (.hostFastExit h) s = .next t ∧ t.laneState (.host h l) = 2 ∧ t.hbm = s.hbm ∧ t.buf = s.buf) ∧
  (∀ (s : State) (p : Port) (l : Fin 4) (k : BitVec 2), s.Calm → s.live (.port p) = true → s.laneState (.net p l) = 3 →
    s.inService (.port p) = true → (s.port p).retrain = none → ∃ t, exec (.fastExitBurstReceived p ⟨l, k⟩) s = .next t
    ∧ t.laneState (.net p l) = (if (s.lane (.net p l)).txIdle then 3 else 2) ∧ t.rf (.laneStatus (.net p l)) 12 10 = 7
    ∧ (t.lane (.net p l)).rxIdle = false ∧ (t.port p).rxIdle = false ∧ t.hbm = s.hbm) ∧
  (∀ (s : State) (h : HLink) (l : Fin 16), s.Calm → s.live (.hostlink h) = true → s.laneState (.host h l) = 3 →
    s.inService (.host h) = true → (s.hl h).retrain = none → ∃ t, exec (.hostExitBurstReceived h) s = .next t ∧
    t.laneState (.host h l) = (if (s.lane (.host h l)).txIdle then 3 else 2) ∧ (t.lane (.host h l)).rxIdle = false ∧
    (t.hl h).rxIdle = false ∧ t.hbm = s.hbm) ∧
  (∀ (s : State) (p : Port) (l : Fin 4), s.Calm → s.live (.port p) = true → s.laneState (.net p l) = 3 → s.rb (.laneCtrl
    (.net p l)) 5 = false → (s.lane (.net p l)).txIdle = true → (s.lane (.net p l)).rxIdle = true → (s.port p).retrain
    = none → ((s.port p).txIdle = false ∨ s.portQuiet p = false) → ∃ t, exec (.fastExit p l) s = .next t ∧ t.laneState
    (.net p l) = 3 ∧ (t.lane (.net p l)).txIdle = false ∧ t.hbm = s.hbm) ∧
  (∀ (s : State) (p : Port) (l : Fin 4), s.Calm → s.live (.port p) = true → s.laneState (.net p l) = 5 → s.rb (.laneCtrl
    (.net p l)) 5 = true → ∃ t, exec (.electricalIdleEntry p l) s = .next t ∧ t.laneState (.net p l) = 3 ∧ (t.lane
    (.net p l)).txIdle = true ∧ t = { s with regs := t.regs, lanes := t.lanes }) ∧
  (∀ (s : State) (p : Port) (l : Fin 4), s.Calm → s.live (.port p) = true → s.laneState (.net p l) = 4 → s.rb (.laneCtrl
    (.net p l)) 5 = true → (s.lane (.net p l)).txIdle = true → (s.port p).retrain = none → ∃ t, exec
    (.electricalIdleEntry p l) s = .next t ∧ t.laneState (.net p l) = 3 ∧ t = { s with regs := t.regs })

/-- CODEWORD_RECEIVED, INJECT_BURST, INJECT_NOW, MARGIN_SCAN_START, MARGIN_SCAN_END, LANE_EYE_REFRESH,
LANE_ERRCNT_READ and CHECKER_SYNCHRONISED (R54, R56, R74 to R76, R78 to R80): a codeword whose tag is of kind 0xA
shows the far lane, corrected symbols and uncorrectable codewords count in LANE_LINEERR, and a lane with far
retimed loopback, its transmitter not held idle, sends on the levels it receives in its own polarity (R77); a
burst of the length in LANE_TEST is injected once its period has passed, or at once; a scan of a lane in ACTIVE or
TEST runs 2^dwell µs and then stores its count; a refresh stores the openings once in 1 ms, a host lane's middle
eye only; reading LANE_ERRCNT stores the count of bits compared in LANE_BITCNT and starts it again at 0; and
chk_lock of a lane in TEST sets once 256 bits received follow the pattern, not otherwise. -/
def Obligations.LaneTestFeatures : Prop :=
  (∀ (s : State) (p : Port) (l : Fin 4) (line : BitVec 5440), s.Calm → s.live (.port p) = true → s.laneOn (.net p l) =
    true → s.rf (.laneCtrl (.net p l)) 9 7 = 0 → (s.laneState (.net p l) = 1 ∨ (s.laneState (.net p l) = 2 ∧
    s.portHears p = false)) → (s.heard p l line).erred = true → ∃ t, exec (.codewordReceived p l line) s = .next t ∧
    t.rf (.laneLineerr (.net p l)) 63 32 = min 0xFFFFFFFF (s.rf (.laneLineerr (.net p l)) 63 32 + 1) ∧ t.rf
    (.laneLineerr (.net p l)) 31 0 = s.rf (.laneLineerr (.net p l)) 31 0 ∧ t.reg (.laneStatus (.net p l)) = s.reg
    (.laneStatus (.net p l)) ∧ (t.lane (.net p l)).rxCount = ((s.lane (.net p l)).rxCount + 1) % 16384 ∧ t =
    { s with regs := t.regs, lanes := t.lanes }) ∧
  (∀ (s : State) (p : Port) (l : Fin 4) (line : BitVec 5440), s.Calm → s.live (.port p) = true → s.laneOn (.net p l) =
    true → s.rf (.laneCtrl (.net p l)) 9 7 = 0 → (s.laneState (.net p l) = 1 ∨ (s.laneState (.net p l) = 2 ∧
    s.portHears p = false)) → (s.heard p l line).erred = false → fld (s.heard p l line).tag 19 16 = 0xA → ∃ t, exec
    (.codewordReceived p l line) s = .next t ∧ t.rf (.laneStatus (.net p l)) 19 16 = fld (s.heard p l line).tag 15 14
    ∧ t.rf (.laneLineerr (.net p l)) 31 0 = min 0xFFFFFFFF (s.rf (.laneLineerr (.net p l)) 31 0 + (s.heard p l
    line).corrected) ∧ t.laneState (.net p l) = s.laneState (.net p l) ∧ (t.lane (.net p l)).rxCount = fld (s.heard p
    l line).tag 13 0 ∧ t.hbm = s.hbm) ∧
  (∀ (s : State) (p : Port) (l : Fin 4) (line : BitVec 5440), s.Calm → s.live (.port p) = true → s.laneOn (.net p l) =
    true → s.rf (.laneCtrl (.net p l)) 9 7 = 3 → s.rb (.laneCtrl (.net p l)) 5 = false → (s.lane (.net p l)).invert =
    0 → ∃ t, exec (.codewordReceived p l line) s = .next t ∧ t.out = .codeword (.net p l) (if s.rb (.laneCtrl (.net p
    l)) 10 then BitVec.ofNat 5440 (invertLevels 2720 line.toNat) else line) :: s.out ∧ t.lane (.net p l) = s.lane
    (.net p l) ∧ t = { s with lanes := t.lanes, out := t.out }) ∧
  (∀ (s : State) (n : LaneId) (dt : Nat), (s.elapse dt).live (laneBlock n) = true → (s.elapse dt).rf (.laneTest n) 15 10
    ≠ 0 → (s.elapse dt).laneState n ≠ 0 → ((s.elapse dt).lane n).injAt + bitTime (laneHost n) ((((s.elapse dt).lane
    n).injNo + 1) * 2 ^ (s.elapse dt).rf (.laneTest n) 15 10) ≤ (s.elapse dt).clk → ∃ t, exec (.injectBurst n dt) s =
    .next t ∧ t.out = .burst n ((s.elapse dt).rf (.laneTest n) 23 16) :: (s.elapse dt).out ∧ (t.lane n).invert = (if
    (s.elapse dt).sendsPattern n = true ∧ (s.elapse dt).nearLoop n = false then ((s.elapse dt).lane n).invert else max
    ((s.elapse dt).lane n).invert ((s.elapse dt).rf (.laneTest n) 23 16)) ∧ (t.lane n).injNo = ((s.elapse dt).lane
    n).injNo + 1 ∧ (t.lane n).injAt = ((s.elapse dt).lane n).injAt ∧ t =
    { s.elapse dt with lanes := t.lanes, out := t.out }) ∧
  (∀ (s : State) (n : LaneId) (dt : Nat), (s.elapse dt).live (laneBlock n) = true → (s.elapse dt).clk < ((s.elapse
    dt).lane n).injAt + bitTime (laneHost n) ((((s.elapse dt).lane n).injNo + 1) * 2 ^ (s.elapse dt).rf (.laneTest n)
    15 10) → exec (.injectBurst n dt) s = .next (s.elapse dt)) ∧
  (∀ (s : State) (n : LaneId), s.live (laneBlock n) = true → s.laneState n ≠ 0 → ∃ t, exec (.injectNow n) s = .next t ∧
    t.out = .burst n (s.rf (.laneTest n) 23 16) :: s.out ∧ (t.lane n).invert = (if s.sendsPattern n = true ∧
    s.nearLoop n = false then (s.lane n).invert else max (s.lane n).invert (s.rf (.laneTest n) 23 16)) ∧ t =
    { s with lanes := t.lanes, out := t.out }) ∧
  (∀ (s : State) (n : LaneId), s.live (laneBlock n) = true → (s.laneState n = 2 ∨ s.laneState n = 5) → s.rb (.laneMargin
    n) 63 = false → ∃ t, exec (.marginScanStart n) s = .next t ∧ t.rf (.laneMargin n) 63 62 = 2 ∧ (t.lane n).scanAt =
    s.clk ∧ t = { s with regs := t.regs, lanes := t.lanes }) ∧
  (∀ (s : State) (n : LaneId) (dt : Nat) (d : BitVec 32), (s.elapse dt).live (laneBlock n) = true → (s.elapse dt).rb
    (.laneMargin n) 63 = true → ((s.elapse dt).lane n).scanAt + us (2 ^ (s.elapse dt).rf (.laneMargin n) 39 36) ≤
    (s.elapse dt).clk → ∃ t, exec (.marginScanEnd n dt d) s = .next t ∧ t.rf (.laneMargin n) 63 62 = 1 ∧ t.rf
    (.laneMargin n) 31 0 = d.toNat ∧ t = { s.elapse dt with regs := t.regs }) ∧
  (∀ (s : State) (n : LaneId) (dt : Nat) (e : BitVec 48), (s.elapse dt).live (laneBlock n) = true → ((s.elapse
    dt).laneState n = 2 ∨ (s.elapse dt).laneState n = 5) → ((s.elapse dt).lane n).eyeAt + us 1000 ≤ (s.elapse dt).clk
    → ∃ t, exec (.laneEyeRefresh n dt e) s = .next t ∧ t.rf (.laneEye n) 31 16 = fld e 31 16 ∧ t.rf (.laneEye n) 47 32
    = (if laneHost n then 0 else fld e 47 32) ∧ t.rf (.laneEye n) 15 0 = (if laneHost n then 0 else fld e 15 0) ∧
    (t.lane n).eyeAt = (s.elapse dt).clk ∧ t = { s.elapse dt with regs := t.regs, lanes := t.lanes }) ∧
  (∀ (s : State) (n : LaneId), s.live (laneBlock n) = true → ∃ t, exec (.laneErrcntRead n) s = .next t ∧ t.rf
    (.laneBitcnt n) 47 0 = min (s.bitsCompared n) (2 ^ 48 - 1) ∧ t.rb (.laneBitcnt n) 63 = decide (2 ^ 48 - 1 <
    s.bitsCompared n) ∧ (t.lane n).bits = 0 ∧ t.bitsCompared n = 0 ∧ t =
    { s with regs := t.regs, lanes := t.lanes, frees := t.frees }) ∧
  (∀ (s : State) (n : LaneId) (b : BitVec 256), s.live (laneBlock n) = true → s.laneState n = 5 → s.rb (.laneTest n) 7 =
    true → s.rb (.laneTest n) 8 = false → patMatches (s.rf (.laneTest n) 6 4) (s.userPattern n) (s.heardBits n
    (bitsMsb 256 b.toNat)) = true → ∃ t, exec (.checkerSynchronised n b) s = .next t ∧ t.rb (.laneTest n) 8 = true ∧
    (t.lane n).chkSince = some s.clk ∧ t = { s with regs := t.regs, lanes := t.lanes }) ∧
  (∀ (s : State) (n : LaneId) (b : BitVec 256), s.live (laneBlock n) = true → patMatches (s.rf (.laneTest n) 6 4)
    (s.userPattern n) (s.heardBits n (bitsMsb 256 b.toNat)) = false → exec (.checkerSynchronised n b) s = .next (s))

/-- FRAME_RECEIVED (R86): on a port that is UP, a frame that is erred, has other than the flits announced for it or
whose CRC fails counts and is answered by a NAK unless one is outstanding, nothing of it is accepted, and what
follows is discarded up to the next alignment point (R83); a good DATA or POISON frame with the expected sequence
number is accepted, which ends the wait for it and owes an acknowledgement, and its link-local flits wait for
HELLO_RECEIVED; one with a later number is answered by a NAK. NAK_REPEAT_TIMER and REPLAY_TIMEOUT (R86, R88, R89,
R96): while a NAK is outstanding it is sent again each nak_repeat and counted; once the oldest unacknowledged
frame or TLP has waited replay_timeout a replay from it begins, is counted, and its replay count rises, short of
the limit at which the link retrains. -/
def Obligations.FramesAreAcceptedInOrderAndReplayed : Prop :=
  (∀ (s : State) (p : Port) (al : Bool) (t0 : BitVec 128) (fl : List (BitVec 512)) (e : Bool), s.Calm → s.live (.port p)
    = true → s.portState p = 3 → (al = true ∨ (s.port p).rxNext.isSome = true) → (e = true ∨ (s.port p).framed al
    fl.length = false ∨ frameCrc t0 fl ≠ fld t0 31 0) → (s.port p).nak = none → ∃ t, exec (.frameReceived p al t0 fl
    e) s = .next t ∧ (t.port p).rxNext = none ∧ t.rf (.llErrcnt (.port p)) 63 48 = min 0xFFFF (s.rf (.llErrcnt (.port
    p)) 63 48 + 1) ∧ (t.port p).nak = some s.clk ∧ (t.port p).lastAcc = (s.port p).lastAcc ∧ (t.port p).ibuf = (s.port
    p).ibuf ∧ (t.port p).rxLocal = (s.port p).rxLocal ∧ t.hbm = s.hbm ∧ t.buf = s.buf) ∧
  (∀ (s : State) (p : Port) (t0 : BitVec 128) (fl : List (BitVec 512)) (e : Bool), s.Calm → s.live (.port p) = true →
    (s.port p).rxNext = none → exec (.frameReceived p false t0 fl e) s = .next (s)) ∧
  (∀ (s : State) (p : Port) (t0 : BitVec 128) (fl : List (BitVec 512)), s.Calm → s.live (.port p) = true → s.portState p
    = 3 → (s.port p).rxNext = some fl.length → frameCrc t0 fl = fld t0 31 0 → frameBad t0 fl.length = false → fld t0
    127 126 % 2 = 1 → fld t0 121 118 ≤ 8 → fld t0 113 90 = ((s.port p).lastAcc + 1) % 2 ^ 24 → ∃ t, exec
    (.frameReceived p false t0 fl false) s = .next t ∧ (t.port p).lastAcc = fld t0 113 90 ∧ (t.port p).nak = none ∧
    (t.port p).ackOwed = true ∧ (t.port p).rxNext = some (fld t0 121 118) ∧ (t.port p).rxLocal = (if fld t0 117 114 =
    15 then (s.port p).rxLocal ++ fl else (s.port p).rxLocal) ∧ t.portState p = 3 ∧ t.hbm = s.hbm ∧ t.buf = s.buf) ∧
  (∀ (s : State) (p : Port) (t0 : BitVec 128) (fl : List (BitVec 512)), s.Calm → s.live (.port p) = true → s.portState p
    = 3 → (s.port p).rxNext = some fl.length → frameCrc t0 fl = fld t0 31 0 → frameBad t0 fl.length = false → fld t0
    127 126 % 2 = 1 → fld t0 121 118 ≤ 8 → fld t0 113 90 ≠ ((s.port p).lastAcc + 1) % 2 ^ 24 → 2 ^ 23 ≤ dist 24
    (s.port p).lastAcc (fld t0 113 90) → (s.port p).nak = none → ∃ t, exec (.frameReceived p false t0 fl false) s =
    .next t ∧ (t.port p).nak = some s.clk ∧ (t.port p).lastAcc = (s.port p).lastAcc ∧ (t.port p).ibuf = (s.port
    p).ibuf ∧ (t.port p).rxLocal = (s.port p).rxLocal) ∧
  (∀ (s : State) (p : Port) (dt t0 : Nat), (s.elapse dt).Calm → (s.elapse dt).live (.port p) = true → ((s.elapse dt).port
    p).nak = some t0 → (s.elapse dt).maySend p = true → t0 + ns ((s.elapse dt).rf (.llTimers (.port p)) 19 0) <
    (s.elapse dt).clk → ∃ t, exec (.nakRepeatTimer (.port p) dt) s = .next t ∧ (t.port p).nak = some (s.elapse dt).clk
    ∧ t.rf (.llErrcnt (.port p)) 31 16 = min 0xFFFF ((s.elapse dt).rf (.llErrcnt (.port p)) 31 16 + 1) ∧ (sentFrames
    t.out).tail = sentFrames (s.elapse dt).out ∧ (sentFrames t.out).head?.map (fun e => (e.1, fld e.2.1 127 126, fld
    e.2.1 89 66, e.2.2)) = some (p, 2, ((s.elapse dt).port p).lastAcc % 2 ^ 24, []) ∧ (t.port p).replay = ((s.elapse
    dt).port p).replay ∧ t = { s.elapse dt with regs := t.regs, ports := t.ports, lanes := t.lanes, out := t.out }) ∧
  (∀ (s : State) (h : HLink) (dt t0 : Nat), (s.elapse dt).Calm → (s.elapse dt).live (.hostlink h) = true → ((s.elapse
    dt).hl h).nak = some t0 → (s.elapse dt).hostMaySend h = true → t0 + ns ((s.elapse dt).rf (.llTimers (.host h)) 19
    0) < (s.elapse dt).clk → ((s.elapse dt).hl h).sinceAck < 65535 → ∃ t, exec (.nakRepeatTimer (.host h) dt) s =
    .next t ∧ (t.hl h).nak = some (s.elapse dt).clk ∧ t.rf (.llErrcnt (.host h)) 31 16 = min 0xFFFF ((s.elapse dt).rf
    (.llErrcnt (.host h)) 31 16 + 1) ∧ sentPackets t.out = (h, linkPacket 9 0 (beBytes 8 (((s.elapse dt).hl h).lastAcc
    * 2 ^ 48))) :: sentPackets (s.elapse dt).out ∧ t =
    { s.elapse dt with regs := t.regs, hll := t.hll, lanes := t.lanes, out := t.out }) ∧
  (∀ (s : State) (p : Port) (dt : Nat) (f : TxFrame) (fs : List TxFrame), (s.elapse dt).Calm → (s.elapse dt).live (.port
    p) = true → ((s.elapse dt).port p).replay = f :: fs → ((s.elapse dt).portState p = 2 ∨ (s.elapse dt).portState p =
    3 ∨ (s.elapse dt).portState p = 5) → f.sentAt + ns ((s.elapse dt).rf (.llTimers (.port p)) 51 32) < (s.elapse
    dt).clk → ((s.elapse dt).port p).count + 1 < (s.elapse dt).rf (.llCtrl (.port p)) 27 24 → ((s.elapse dt).port
    p).resend ≠ some f.seq → ∃ t, exec (.replayTimeout (.port p) dt) s = .next t ∧ (t.port p).resend = some f.seq ∧
    (t.port p).count = ((s.elapse dt).port p).count + 1 ∧ (t.port p).replay = f :: fs ∧ t.rf (.llErrcnt (.port p)) 47
    32 = min 0xFFFF ((s.elapse dt).rf (.llErrcnt (.port p)) 47 32 + 1) ∧ t.portState p = (s.elapse dt).portState p ∧ t
    = { s.elapse dt with regs := t.regs, ports := t.ports }) ∧
  (∀ (s : State) (h : HLink) (dt : Nat) (f : HTx) (fs : List HTx), (s.elapse dt).Calm → (s.elapse dt).live (.hostlink h)
    = true → ((s.elapse dt).hl h).replay = f :: fs → (s.elapse dt).hlState h.val = 3 → f.sentAt + ns ((s.elapse dt).rf
    (.llTimers (.host h)) 51 32) < (s.elapse dt).clk → ((s.elapse dt).hl h).count + 1 < (s.elapse dt).rf (.llCtrl
    (.host h)) 27 24 → ((s.elapse dt).hl h).resend ≠ some f.seq → ∃ t, exec (.replayTimeout (.host h) dt) s = .next t
    ∧ (t.hl h).resend = some f.seq ∧ (t.hl h).count = ((s.elapse dt).hl h).count + 1 ∧ (t.hl h).replay = f :: fs ∧
    t.rf (.llErrcnt (.host h)) 47 32 = min 0xFFFF ((s.elapse dt).rf (.llErrcnt (.host h)) 47 32 + 1) ∧ t =
    { s.elapse dt with regs := t.regs, hll := t.hll })

/-- EGRESS_FRAME_START and HOST_TLP_START (R88, R96, R104, R401): on a port that is UP with no replay in progress a
link-local message goes first, then VC0, then the candidate of TC7, each kept for replay under the next sequence
number; in a retrain whose frames have resumed an IDLE frame goes and nothing else. On a host link that is UP a
replay goes before any new TLP, and an MRD, of a table walk one that does not lie in a DEVICE region (R157), takes
the lowest free tag and is kept for replay under the next sequence number. -/
def Obligations.EgressFramesAndHostTlpsLeave : Prop :=
  (∀ (s : State) (p : Port) (m : BitVec 512) (ms : List (BitVec 512)), s.Calm → s.live (.port p) = true → s.maySend p =
    true → s.portState p ≠ 4 → (s.port p).resend = none → (s.port p).txLocal = m :: ms → (s.port p).room 1 = true → ∃
    t, exec (.egressFrameStart p) s = .next t ∧ (t.port p).txLocal = ms ∧ (t.port p).next = ((s.port p).next + 1) % 2
    ^ 24 ∧ (t.port p).replay = (s.port p).replay ++ [⟨(s.port p).next, false, 15, [m], s.clk⟩] ∧ (sentFrames
    t.out).head?.map (fun e => (e.1, fld e.2.1 127 126, fld e.2.1 117 114, fld e.2.1 113 90, e.2.2)) = some (p, 1, 15,
    (s.port p).next % 2 ^ 24, [m]) ∧ t.rb (.llCtrl (.port p)) 4 = (if ms = [] then false else s.rb (.llCtrl (.port p))
    4) ∧ t = { s with regs := t.regs, ports := t.ports, lanes := t.lanes, out := t.out }) ∧
  (∀ (s : State) (p : Port) (o : OutVc) (fs : List Flit), s.Calm → s.live (.port p) = true → s.maySend p = true →
    s.portState p = 3 → s.tack.stopping = false → (s.port p).resend = none → (s.port p).txLocal = [] → s.candFrame p 0
    = some (o, fs) → ∃ t, exec (.egressFrameStart p) s = .next t ∧ (t.port p).next = ((s.port p).next + 1) % 2 ^ 24 ∧
    (t.port p).replay = (s.port p).replay ++ [⟨(s.port p).next, (fs.map (fun f => f.poison)).headD false, 0, fs.map
    (fun f => f.bits), s.clk⟩] ∧ (t.port p).turn = (s.port p).turn ∧ t.hbm = s.hbm ∧ t.buf = s.buf) ∧
  (∀ (s : State) (p : Port) (c : Nat × OutVc × List Flit), s.Calm → s.live (.port p) = true → s.maySend p = true →
    s.portState p = 3 → s.tack.stopping = false → (s.port p).resend = none → (s.port p).txLocal = [] → s.candFrame p 0
    = none → (s.port p).txBypass = [] → s.classPick p 7 = some c → ∃ t, exec (.egressFrameStart p) s = .next t ∧
    (t.port p).next = ((s.port p).next + 1) % 2 ^ 24 ∧ (t.port p).replay = (s.port p).replay ++ [⟨(s.port p).next,
    (c.2.2.map (fun f => f.poison)).headD false, c.1, c.2.2.map (fun f => f.bits), s.clk⟩] ∧ tFind (t.port p).turn 7 =
    some c.1 ∧ t.hbm = s.hbm ∧ t.buf = s.buf) ∧
  (∀ (s : State) (p : Port), s.Calm → s.live (.port p) = true → s.maySend p = true → s.portState p = 4 → ∃ t, exec
    (.egressFrameStart p) s = .next t ∧ (t.port p).next = (s.port p).next ∧ (t.port p).replay = (s.port p).replay ∧
    (t.port p).ackOwed = false ∧ (sentFrames t.out).tail = sentFrames s.out ∧ (sentFrames t.out).head?.map (fun e =>
    (e.1, fld e.2.1 127 126, e.2.2)) = some (p, 0, []) ∧ t =
    { s with ports := t.ports, lanes := t.lanes, out := t.out }) ∧
  (∀ (s : State) (h : HLink) (f : HTx) (fs : List HTx), s.Calm → s.live (.hostlink h) = true → s.hlState h.val = 3 →
    (s.hl h).txIdle = false → (s.hl h).resend = some f.seq → (s.hl h).replay = f :: fs → (s.hl h).sinceAck < 65535 → ∃
    t, exec (.hostTlpStart h) s = .next t ∧ sentPackets t.out = (h, linkPacket (b2n f.rsp) f.seq f.body) ::
    sentPackets s.out ∧ (t.hl h).resend = (fs.head?).map (fun g => g.seq) ∧ (t.hl h).next = (s.hl h).next ∧ t =
    { s with hll := t.hll, lanes := t.lanes, out := t.out }) ∧
  (∀ (s : State) (h : HLink) (r : RdReq) (q : List ReqTlp) (g : Nat), s.Calm → s.live (.hostlink h) = true → s.hlState
    h.val = 3 → (s.hl h).txIdle = false → (s.hl h).resend = none → s.holdHost ≠ some h.val → (s.hl h).turn = false →
    s.rb (.hlCtrl h) 0 = true → (s.tl h.val).reqQ = .rd r :: q → s.freeTag h = some g → s.mayTlp h false 0 = true →
    (match r.purpose with | .walk _ => s.isMemory h.val r.addr | _ => true) = true → ∃ t, exec (.hostTlpStart h) s =
    .next t ∧ (t.tl h.val).reqQ = q ∧ tFind (t.tl h.val).reads g = some ⟨r.addr, r.len, r.ctx, r.fn, r.purpose, [],
    s.clk, false⟩ ∧ (t.hl h).next = ((s.hl h).next + 1) % 65536 ∧ (t.hl h).replay = (s.hl h).replay ++ [⟨(s.hl
    h).next, false, tlpHeader 0x11 r.fn [(111, 100, g), (99, 87, r.len), (63, 0, r.addr)], s.clk, none⟩] ∧ (t.hl
    h).turn = true ∧ t.hbm = s.hbm)

/-- LINK_UP_START, HELLO_TIMEOUT, QUARANTINE_HELLO and HOST_HELLO_PERIODIC (R95, R99, R102): once the lanes allow it a
link leaves TRAINING for HELLO with the width chosen, sequence numbers from 0, no credits in use, and sends its
HELLO; an exchange that has not ended within 1 ms trains every lane again, with no lane in use; a port in
QUARANTINE sends a HELLO every 100 ms, a host link in the exchange every 1 µs. -/
def Obligations.LinkUpBegins : Prop :=
  (∀ (s : State) (p : Port) (dt : Nat), (s.elapse dt).Calm → (s.elapse dt).live (.port p) = true → (s.elapse
    dt).portState p = 1 → (s.elapse dt).mayLinkUp (.port p) ((s.elapse dt).port p).trainAt = true → ∃ t, exec
    (.linkUpStart (.port p) dt) s = .next t ∧ t.portState p = 2 ∧ t.rf (.llStatus (.port p)) 15 11 = ((s.elapse
    dt).chosenLanes (.port p)).length % 32 ∧ (t.port p).use = (s.elapse dt).chosenLanes (.port p) ∧ (t.port p).next =
    0 ∧ (t.port p).lastAcc = 0xFFFFFF ∧ (t.port p).used = [] ∧ (t.port p).txLocal.length = 1 ∧ (t.port p).helloAt =
    (s.elapse dt).clk ∧ t = { s.elapse dt with regs := t.regs, ports := t.ports }) ∧
  (∀ (s : State) (h : HLink) (dt : Nat), (s.elapse dt).Calm → (s.elapse dt).live (.hostlink h) = true → (s.elapse
    dt).hlState h.val = 1 → (s.elapse dt).mayLinkUp (.host h) ((s.elapse dt).hl h).trainAt = true → ∃ t, exec
    (.linkUpStart (.host h) dt) s = .next t ∧ t.hlState h.val = 2 ∧ (t.hl h).use = (s.elapse dt).chosenLanes (.host h)
    ∧ (t.hl h).next = 0 ∧ (t.hl h).lastAcc = 0xFFFF ∧ (t.hl h).used = {} ∧ (t.hl h).hello = true ∧ (t.hl h).helloTx =
    (s.elapse dt).clk ∧ (sentPackets t.out).tail = sentPackets (s.elapse dt).out ∧ t =
    { s.elapse dt with regs := t.regs, hll := t.hll, ht := t.ht, lanes := t.lanes, out := t.out }) ∧
  (∀ (s : State) (p : Port) (dt : Nat), (s.elapse dt).Calm → (s.elapse dt).live (.port p) = true → (s.elapse
    dt).portState p = 2 → ((s.elapse dt).port p).helloAt + us 1000 < (s.elapse dt).clk → ∃ t, exec (.helloTimeout
    (.port p) dt) s = .next t ∧ t.portState p = 1 ∧ (t.port p).trainAt = (s.elapse dt).clk ∧ (t.port p).replay = [] ∧
    t.rf (.llStatus (.port p)) 15 11 = 0 ∧ t =
    { s.elapse dt with regs := t.regs, ports := t.ports, lanes := t.lanes, out := t.out }) ∧
  (∀ (s : State) (h : HLink) (dt : Nat), (s.elapse dt).Calm → (s.elapse dt).live (.hostlink h) = true → (s.elapse
    dt).hlState h.val = 2 → ((s.elapse dt).hl h).helloAt + us 1000 < (s.elapse dt).clk → ∃ t, exec (.helloTimeout
    (.host h) dt) s = .next t ∧ t.hlState h.val = 1 ∧ (t.hl h).trainAt = (s.elapse dt).clk ∧ t.rf (.llStatus (.host
    h)) 15 11 = 0 ∧ t = { s.elapse dt with regs := t.regs, hll := t.hll, lanes := t.lanes, out := t.out }) ∧
  (∀ (s : State) (p : Port) (dt : Nat), (s.elapse dt).Calm → (s.elapse dt).live (.port p) = true → (s.elapse
    dt).portState p = 5 → ((s.elapse dt).port p).quarAt + us 100000 ≤ (s.elapse dt).clk → ∃ t, exec (.quarantineHello
    p dt) s = .next t ∧ (t.port p).txLocal = ((s.elapse dt).port p).txLocal ++ [(s.elapse dt).hello p] ∧ (t.port
    p).quarAt = (s.elapse dt).clk ∧ t = { s.elapse dt with ports := t.ports }) ∧
  (∀ (s : State) (h : HLink) (dt : Nat), (s.elapse dt).Calm → (s.elapse dt).live (.hostlink h) = true → (s.elapse
    dt).hostHello h = true → ((s.elapse dt).hl h).helloTx + us 1 ≤ (s.elapse dt).clk → ((s.elapse dt).hl h).sinceAck <
    65535 → ∃ t, exec (.hostHelloPeriodic h dt) s = .next t ∧ (t.hl h).helloTx = (s.elapse dt).clk ∧ (sentPackets
    t.out).tail = sentPackets (s.elapse dt).out ∧ (sentPackets t.out).length = (sentPackets (s.elapse dt).out).length
    + 1 ∧ t = { s.elapse dt with hll := t.hll, lanes := t.lanes, out := t.out })

/-- HELLO_RECEIVED and LL_REHELLO (R100 to R102): the fields of a HELLO are kept in the LL_PEER registers; on a port
that is UP, in QUARANTINE, or in HELLO with its own HELLO acknowledged, one that fails no check takes the port UP
and one that fails some takes it to QUARANTINE with the reasons; another message type is discarded and recorded as
a NOTE. LL_REHELLO queues a HELLO and judges the far one again, in a retrain at its end; LL_CTRL.rehello then
reads 1, and while it does another write of it changes nothing (R8). -/
def Obligations.HellosAreJudged : Prop :=
  (∀ (s : State) (p : Port) (m : BitVec 512) (ms : List (BitVec 512)), s.Calm → s.live (.port p) = true → (s.portState p
    = 3 ∨ s.portState p = 5 ∨ (s.portState p = 2 ∧ (s.port p).helloAcked = true)) → (s.port p).rxLocal = m :: ms → fld
    m 511 504 = 1 → s.helloFails p m = 0 → ∃ t, exec (.helloReceived p) s = .next t ∧ t.portState p = 3 ∧ t.rf
    (.llStatus (.port p)) 19 16 = 0 ∧ t.rf (.llPeerId (.port p)) 63 0 = fld m 495 432 ∧ t.rf (.llPeerInfo (.port p))
    63 48 = fld m 431 416 ∧ t.rb (.llPeerInfo (.port p)) 0 = true ∧ (t.port p).rxLocal = ms ∧ (t.port p).far = some m
    ∧ t = { s with regs := t.regs, ports := t.ports, epochSeen := t.epochSeen }) ∧
  (∀ (s : State) (p : Port) (m : BitVec 512) (ms : List (BitVec 512)), s.Calm → s.live (.port p) = true → (s.portState p
    = 3 ∨ (s.portState p = 2 ∧ (s.port p).helloAcked = true)) → (s.port p).rxLocal = m :: ms → fld m 511 504 = 1 →
    s.helloFails p m ≠ 0 → ∃ t, exec (.helloReceived p) s = .next t ∧ t.portState p = 5 ∧ t.rf (.llStatus (.port p))
    19 16 = s.helloFails p m ∧ t.rb (.llStatus (.port p)) 6 = true ∧ (t.port p).quarAt = s.clk ∧ (t.port p).rxLocal =
    ms ∧ t.hbm = s.hbm) ∧
  (∀ (s : State) (p : Port) (m : BitVec 512) (ms : List (BitVec 512)), s.Calm → s.live (.port p) = true → (s.portState p
    = 2 ∨ s.portState p = 3 ∨ s.portState p = 5) → (s.port p).rxLocal = m :: ms → fld m 511 504 ≠ 1 → ∃ t, exec
    (.helloReceived p) s = .next t ∧ t.portState p = s.portState p ∧ (t.port p).rxLocal = ms ∧ (t.port p).far =
    (s.port p).far ∧ t.rb (.ftStatus (.port p)) 0 = true ∧ t.hbm = s.hbm) ∧
  (∀ (s : State) (p : Port) (m : BitVec 512), s.Calm → s.live (.port p) = true → (s.portState p = 3 ∨ s.portState p = 5)
    → (s.port p).far = some m → s.helloFails p m = 0 → s.rb (.llCtrl (.port p)) 4 = false → ∃ t, exec (.llRehello p) s
    = .next t ∧ t.portState p = 3 ∧ t.rb (.llCtrl (.port p)) 4 = true ∧ (t.port p).txLocal = (s.port p).txLocal ++
    [s.hello p] ∧ t = { s with regs := t.regs, ports := t.ports }) ∧
  (∀ (s : State) (p : Port), s.Calm → s.live (.port p) = true → s.portState p = 4 → s.rb (.llCtrl (.port p)) 4 = false →
    ∃ t, exec (.llRehello p) s = .next t ∧ (t.port p).txLocal = (s.port p).txLocal ++ [s.hello p] ∧ ((s.port
    p).far.isSome = true → (t.port p).recheck = true) ∧ t.rb (.llCtrl (.port p)) 4 = true ∧ t =
    { s with regs := t.regs, ports := t.ports }) ∧
  (∀ (s : State) (p : Port), s.Calm → s.rb (.llCtrl (.port p)) 4 = true → exec (.llRehello p) s = .next (s)) ∧
  (∀ (s : State) (p : Port) (m : BitVec 512) (ms : List (BitVec 512)), s.Calm → s.live (.port p) = true → s.portState p =
    5 → (s.port p).rxLocal = m :: ms → fld m 511 504 = 1 → s.helloFails p m ≠ 0 → ∃ t, exec (.helloReceived p) s =
    .next t ∧ t.portState p = 5 ∧ t.rf (.llStatus (.port p)) 19 16 = s.helloFails p m ∧ (t.port p).rxLocal = ms ∧
    (t.port p).far = some m ∧ t = { s with regs := t.regs, ports := t.ports, epochSeen := t.epochSeen })

/-- LINK_RETRAIN, LL_RETRAIN, RETRAIN_LANE_DROP and RETRAIN_REPEAT (R103 to R105): a link that is UP, in QUARANTINE or
in HELLO enters RETRAIN on a notice of the far end, a change of width or a write of LL_CTRL.retrain, its ACTIVE
lanes make their idle entry and are asked for a fast exit, where force_idle does not hold them, and the retrain is
counted; as it is where a lane in use loses its lock or a lane that has left the port is ACTIVE again; a lane, not
held by force_idle, that is not ACTIVE when 5 µs have passed since the fast exit (50 µs on a host link) trains
from step 1; when 20 µs have passed without a trailer from the far end the retrain begins again from step 2.
LL_CTRL.retrain of a FENCED port trains every lane; written again before what it started has ended it has no
effect (R8). -/
def Obligations.LinksRetrain : Prop :=
  (∀ (s : State) (p : Port) (tr : RetrainTrigger), s.Calm → s.live (.port p) = true → (tr = .farNotice ∨ tr =
    .widthChanged) → (s.portState p = 2 ∨ s.portState p = 3 ∨ s.portState p = 5) → ∃ t, exec (.linkRetrain (.port p)
    tr) s = .next t ∧ t.portState p = 4 ∧ (t.port p).retrain = some ⟨s.clk, s.clk, s.clk, s.portState p, false⟩ ∧
    (t.port p).resend = none ∧ t.rf (.llStatus (.port p)) 39 32 = min 255 (s.rf (.llStatus (.port p)) 39 32 + 1) ∧ (∀
    l : Fin 4, t.laneState (.net p l) = if s.laneState (.net p l) = 2 ∨ s.laneState (.net p l) = 3 then (if s.rb
    (.laneCtrl (.net p l)) 5 = true then 3 else 4) else s.laneState (.net p l)) ∧ t.hbm = s.hbm) ∧
  (∀ (s : State) (p : Port) (l : Nat), s.Calm → s.live (.port p) = true → (s.portState p = 2 ∨ s.portState p = 3 ∨
    s.portState p = 5) → (s.port p).use.contains l = true → (s.port p).retrain = none → ∃ t, exec (.linkRetrain (.port
    p) (.laneLost l)) s = .next t ∧ t.portState p = 4 ∧ (t.port p).retrain = some ⟨s.clk, s.clk, s.clk, s.portState p,
    false⟩ ∧ t.rf (.laneStatus (linkLane (.port p) l)) 12 10 = 0 ∧ t.hbm = s.hbm) ∧
  (∀ (s : State) (p : Port) (l : Nat), s.Calm → s.live (.port p) = true → (s.portState p = 2 ∨ s.portState p = 3 ∨
    s.portState p = 5) → s.laneState (linkLane (.port p) l) = 2 → (s.port p).use.contains (l % 4) = false → ∃ t, exec
    (.linkRetrain (.port p) (.laneReturned l)) s = .next t ∧ t.portState p = 4 ∧ (t.port p).retrain = some ⟨s.clk,
    s.clk, s.clk, s.portState p, false⟩ ∧ t.hbm = s.hbm) ∧
  (∀ (s : State) (h : HLink) (tr : RetrainTrigger), s.Calm → s.live (.hostlink h) = true → (tr = .farNotice ∨ tr =
    .widthChanged) → (s.hlState h.val = 2 ∨ s.hlState h.val = 3) → ∃ t, exec (.linkRetrain (.host h) tr) s = .next t ∧
    t.hlState h.val = 4 ∧ (t.hl h).retrain = some ⟨s.clk, s.clk, s.clk, s.hlState h.val, false⟩ ∧ t.rf (.llStatus
    (.host h)) 39 32 = min 255 (s.rf (.llStatus (.host h)) 39 32 + 1) ∧ (∀ l : Fin 16, t.laneState (.host h l) = if
    s.laneState (.host h l) = 2 ∨ s.laneState (.host h l) = 3 then (if s.rb (.laneCtrl (.host h l)) 5 = true then 3
    else 4) else s.laneState (.host h l)) ∧ t.hbm = s.hbm) ∧
  (∀ (s : State) (p : Port), s.Calm → s.live (.port p) = true → s.portState p = 6 → s.rb (.llCtrl (.port p)) 1 = false →
    s.rb (.llCtrl (.port p)) 3 = false → ∃ t, exec (.llRetrain (.port p)) s = .next t ∧ t.portState p = 1 ∧ (t.port
    p).trainAt = s.clk ∧ t.rb (.llCtrl (.port p)) 3 = true ∧ t =
    { s with regs := t.regs, ports := t.ports, lanes := t.lanes, out := t.out }) ∧
  (∀ (s : State) (h : HLink), s.Calm → s.live (.hostlink h) = true → (s.hlState h.val = 2 ∨ s.hlState h.val = 3) → s.rb
    (.llCtrl (.host h)) 3 = false → ∃ t, exec (.llRetrain (.host h)) s = .next t ∧ t.hlState h.val = 4 ∧ t.rb (.llCtrl
    (.host h)) 3 = true ∧ t.hbm = s.hbm) ∧
  (∀ (s : State) (p : Port), s.Calm → s.live (.port p) = true → (s.portState p = 2 ∨ s.portState p = 3 ∨ s.portState p =
    5) → s.rb (.llCtrl (.port p)) 3 = false → ∃ t, exec (.llRetrain (.port p)) s = .next t ∧ t.portState p = 4 ∧ t.rb
    (.llCtrl (.port p)) 3 = true ∧ t.hbm = s.hbm) ∧
  (∀ (s : State) (l : LinkId), s.Calm → s.rb (.llCtrl l) 3 = true → exec (.llRetrain l) s = .next (s)) ∧
  (∀ (s : State) (p : Port) (l : Fin 4) (dt : Nat) (r : Retrain), (s.elapse dt).Calm → (s.elapse dt).live (.port p) =
    true → ((s.elapse dt).port p).retrain = some r → (s.elapse dt).laneAway (.net p l) = true → (s.elapse dt).laneOn
    (.net p l) = true → (s.elapse dt).rb (.laneCtrl (.net p l)) 5 = false → r.step3 + us 5 < (s.elapse dt).clk → ∃ t,
    exec (.retrainLaneDrop (.net p l) dt) s = .next t ∧ t.laneState (.net p l) = 1 ∧ (t.lane (.net p l)).fails = 0 ∧
    t.hbm = (s.elapse dt).hbm) ∧
  (∀ (s : State) (h : HLink) (l : Fin 16) (dt : Nat) (r : Retrain), (s.elapse dt).Calm → (s.elapse dt).live (.hostlink h)
    = true → ((s.elapse dt).hl h).retrain = some r → (s.elapse dt).laneAway (.host h l) = true → (s.elapse dt).laneOn
    (.host h l) = true → (s.elapse dt).rb (.laneCtrl (.host h l)) 5 = false → r.step3 + us 50 < (s.elapse dt).clk → ∃
    t, exec (.retrainLaneDrop (.host h l) dt) s = .next t ∧ t.laneState (.host h l) = 1 ∧ (t.lane (.host h l)).fails =
    0 ∧ t.hbm = (s.elapse dt).hbm) ∧
  (∀ (s : State) (p : Port) (dt : Nat) (r : Retrain), (s.elapse dt).Calm → (s.elapse dt).live (.port p) = true →
    ((s.elapse dt).port p).retrain = some r → r.step2 + us 20 < (s.elapse dt).clk → ∃ t, exec (.retrainRepeat (.port
    p) dt) s = .next t ∧ (t.port p).retrain = some
    { r with step2 := (s.elapse dt).clk, step3 := (s.elapse dt).clk, resumed := false } ∧ t.portState p = (s.elapse
    dt).portState p ∧ (∀ l : Fin 4, t.laneState (.net p l) ≠ 2) ∧ t =
    { s.elapse dt with regs := t.regs, ports := t.ports, lanes := t.lanes, out := t.out }) ∧
  (∀ (s : State) (h : HLink) (dt : Nat) (r : Retrain), (s.elapse dt).Calm → (s.elapse dt).live (.hostlink h) = true →
    ((s.elapse dt).hl h).retrain = some r → r.step2 + us 20 < (s.elapse dt).clk → ∃ t, exec (.retrainRepeat (.host h)
    dt) s = .next t ∧ (t.hl h).retrain.map (fun x => (x.window, x.step2, x.back, x.resumed)) = some (r.window,
    (s.elapse dt).clk, r.back, false) ∧ t.hlState h.val = (s.elapse dt).hlState h.val ∧ t =
    { s.elapse dt with regs := t.regs, hll := t.hll, lanes := t.lanes, out := t.out })

/-- RETRAIN_WINDOW_EXPIRY, FORCE_FENCE, PORT_DISABLE and HOST_LINK_DISABLE (R106, R108 to R111, R500). A port whose
retrain has lasted longer than 50 µs, or whose force_fence is written in a state other than DOWN and FENCED, is
FENCED: LL_STATUS.fenced and the FENCE bit of FT_STATUS are set and the width is 0, its replay buffer, messages,
output VCs and credits in use are empty, sequence numbers begin at 0, and its lanes are OFF, one that is FAILED
staying so (R62). Where the window ends with auto_recover = 1 and force_fence = 0 it then trains its enabled lanes
instead, in TRAINING. Before the window ends nothing changes. A disabled port does the same without a fault and is
DOWN. A host link whose retrain has lasted longer than 2 ms is LOST with the FENCE bit set, and its enabled lanes
train; one whose force_fence is written is LOST with the FENCE bit set, its lanes OFF but for one that is FAILED;
one that is disabled is DOWN, its lanes likewise; of these what is stated is where nothing is outstanding on the
link. LL_CTRL.force_fence written, or enable cleared, of a link that is DOWN changes that bit alone; force_fence
written of a link that is LOST stops its training, and of a port that is FENCED changes that bit alone. HBM stays
in every case. -/
def Obligations.LinksAreFencedLostAndDisabled : Prop :=
  (∀ (s : State) (p : Port) (dt : Nat) (r : Retrain), (s.elapse dt).Calm → (s.elapse dt).live (.port p) = true →
    ((s.elapse dt).port p).retrain = some r → r.window + us 50 < (s.elapse dt).clk → (s.elapse dt).portState p = 4 →
    ((s.elapse dt).rb (.llCtrl (.port p)) 2 = false ∨ (s.elapse dt).rb (.llCtrl (.port p)) 1 = true) → ∃ t, exec
    (.retrainWindowExpiry (.port p) dt) s = .next t ∧ t.portState p = 6 ∧ (t.rb (.llStatus (.port p)) 7 = true ∧ t.rb
    (.ftStatus (.port p)) 2 = true ∧ t.rf (.llStatus (.port p)) 15 11 = 0) ∧ ((t.port p).replay = [] ∧ (t.port p).used
    = [] ∧ (t.port p).txLocal = [] ∧ (t.port p).outv = [] ∧ (t.port p).next = 0 ∧ (t.port p).retrain = none) ∧ (∀ l :
    Fin 4, t.laneState (.net p l) = if (s.elapse dt).laneState (.net p l) = 6 then 6 else 0) ∧ t.hbm = (s.elapse
    dt).hbm) ∧
  (∀ (s : State) (p : Port) (dt : Nat) (r : Retrain), (s.elapse dt).Calm → (s.elapse dt).live (.port p) = true →
    ((s.elapse dt).port p).retrain = some r → r.window + us 50 < (s.elapse dt).clk → (s.elapse dt).portState p = 4 →
    ((s.elapse dt).rb (.llCtrl (.port p)) 2 = true ∧ (s.elapse dt).rb (.llCtrl (.port p)) 1 = false) → ∃ t, exec
    (.retrainWindowExpiry (.port p) dt) s = .next t ∧ t.portState p = 1 ∧ (t.rb (.llStatus (.port p)) 7 = true ∧ t.rb
    (.ftStatus (.port p)) 2 = true) ∧ ((t.port p).replay = [] ∧ (t.port p).used = [] ∧ (t.port p).retrain = none ∧
    (t.port p).trainAt = (s.elapse dt).clk) ∧ (∀ l : Fin 4, (s.elapse dt).laneOn (.net p l) = true → t.laneState (.net
    p l) = 1) ∧ t.hbm = (s.elapse dt).hbm) ∧
  (∀ (s : State) (p : Port) (dt : Nat) (r : Retrain), (s.elapse dt).Calm → ((s.elapse dt).port p).retrain = some r →
    (s.elapse dt).clk ≤ r.window + us 50 → exec (.retrainWindowExpiry (.port p) dt) s = .next (s.elapse dt)) ∧
  (∀ (s : State) (h : HLink) (dt : Nat) (r : Retrain), (s.elapse dt).Calm → (s.elapse dt).live (.hostlink h) = true →
    ((s.elapse dt).hl h).retrain = some r → r.window + us 2000 < (s.elapse dt).clk → (s.elapse dt).hlState h.val = 4 →
    (s.elapse dt).rb (.llCtrl (.host h)) 1 = false → (s.elapse dt).dust = false → ((s.elapse dt).hl h).replay = [] →
    ((s.elapse dt).tl h.val).reads = [] → ((s.elapse dt).tl h.val).reqQ = [] → ((s.elapse dt).hatoms = [] ∧ (s.elapse
    dt).locks = [] ∧ (s.elapse dt).mes = []) → ∃ t, exec (.retrainWindowExpiry (.host h) dt) s = .next t ∧ t.hlState
    h.val = 7 ∧ (t.rb (.llStatus (.host h)) 4 = true ∧ t.rb (.ftStatus (.hostlink h)) 2 = true) ∧ ((t.hl h).retrain =
    none ∧ (t.hl h).replay = [] ∧ (t.tl h.val).rspQ = []) ∧ (∀ l : Fin 16, (s.elapse dt).laneOn (.host h l) = true →
    t.laneState (.host h l) = 1) ∧ t.hbm = (s.elapse dt).hbm) ∧
  (∀ (s : State) (p : Port), s.Calm → s.live (.port p) = true → s.portState p ≠ 0 → s.portState p ≠ 6 → ∃ t, exec
    (.forceFence (.port p)) s = .next t ∧ t.rb (.llCtrl (.port p)) 1 = true ∧ t.portState p = 6 ∧ (t.rb (.llStatus
    (.port p)) 7 = true ∧ t.rb (.ftStatus (.port p)) 2 = true ∧ t.rf (.llStatus (.port p)) 15 11 = 0) ∧ ((t.port
    p).replay = [] ∧ (t.port p).used = [] ∧ (t.port p).txLocal = [] ∧ (t.port p).outv = [] ∧ (t.port p).next = 0 ∧
    (t.port p).retrain = none) ∧ (∀ l : Fin 4, t.laneState (.net p l) = if s.laneState (.net p l) = 6 then 6 else 0) ∧
    t.hbm = s.hbm) ∧
  (∀ (s : State) (p : Port), s.Calm → s.live (.port p) = true → (s.portState p = 0 ∨ s.portState p = 6) → exec
    (.forceFence (.port p)) s = .next (s.wb (.llCtrl (.port p)) 1 true)) ∧
  (∀ (s : State) (h : HLink), s.Calm → s.live (.hostlink h) = true → s.hlState h.val = 7 → ∃ t, exec (.forceFence (.host
    h)) s = .next t ∧ t.hlState h.val = 7 ∧ t.rb (.llCtrl (.host h)) 1 = true ∧ (∀ l : Fin 16, t.laneState (.host h l)
    = if s.laneState (.host h l) = 6 then 6 else 0) ∧ t = { s with regs := t.regs, hll := t.hll, lanes := t.lanes }) ∧
  (∀ (s : State) (h : HLink), s.Calm → s.live (.hostlink h) = true → (s.hlState h.val ≠ 0 ∧ s.hlState h.val ≠ 7) → (s.hl
    h).replay = [] → (s.tl h.val).reads = [] → (s.tl h.val).reqQ = [] → (s.hatoms = [] ∧ s.locks = [] ∧ s.mes = []) →
    ∃ t, exec (.forceFence (.host h)) s = .next t ∧ t.hlState h.val = 7 ∧ t.rb (.llCtrl (.host h)) 1 = true ∧ (t.rb
    (.llStatus (.host h)) 4 = true ∧ t.rb (.ftStatus (.hostlink h)) 2 = true) ∧ ((t.hl h).retrain = none ∧ (t.hl
    h).replay = [] ∧ (t.tl h.val).rspQ = []) ∧ (∀ l : Fin 16, t.laneState (.host h l) = if s.laneState (.host h l) = 6
    then 6 else 0) ∧ t.hbm = s.hbm) ∧
  (∀ (s : State) (h : HLink), s.Calm → s.live (.hostlink h) = true → s.hlState h.val = 0 → exec (.forceFence (.host h)) s
    = .next (s.wb (.llCtrl (.host h)) 1 true)) ∧
  (∀ (s : State) (p : Port), s.Calm → s.live (.port p) = true → s.portState p ≠ 0 → ∃ t, exec (.portDisable p) s = .next
    t ∧ t.portState p = 0 ∧ t.rb (.llCtrl (.port p)) 0 = false ∧ ((t.port p).replay = [] ∧ (t.port p).used = [] ∧
    (t.port p).txLocal = [] ∧ (t.port p).outv = [] ∧ (t.port p).next = 0 ∧ (t.port p).retrain = none) ∧ (∀ l : Fin 4,
    t.laneState (.net p l) = if s.laneState (.net p l) = 6 then 6 else 0) ∧ t.reg (.ftStatus (.port p)) = s.reg
    (.ftStatus (.port p)) ∧ t.hbm = s.hbm) ∧
  (∀ (s : State) (p : Port), s.Calm → s.live (.port p) = true → s.portState p = 0 → exec (.portDisable p) s = .next (s.wb
    (.llCtrl (.port p)) 0 false)) ∧
  (∀ (s : State) (h : HLink), s.Calm → s.live (.hostlink h) = true → s.hlState h.val ≠ 0 → (s.hl h).replay = [] → (s.tl
    h.val).reads = [] → (s.tl h.val).reqQ = [] → (s.hatoms = [] ∧ s.locks = [] ∧ s.mes = []) → ∃ t, exec
    (.hostLinkDisable h) s = .next t ∧ t.hlState h.val = 0 ∧ t.rb (.llCtrl (.host h)) 0 = false ∧ ((t.hl h).retrain =
    none ∧ (t.hl h).replay = [] ∧ (t.tl h.val).rspQ = []) ∧ (∀ l : Fin 16, t.laneState (.host h l) = if s.laneState
    (.host h l) = 6 then 6 else 0) ∧ t.hbm = s.hbm) ∧
  (∀ (s : State) (h : HLink), s.Calm → s.live (.hostlink h) = true → s.hlState h.val = 0 → exec (.hostLinkDisable h) s =
    .next (s.wb (.llCtrl (.host h)) 0 false))

/-- HOST_LINK_PACKET, HOST_ACK_TIMER, HOST_CREDIT_TIMER and IDLE_DELAY_EXPIRY (R86, R94 to R96, R107): a packet whose
CRC fails, or that holds a code violation, counts and is answered by a NAK unless one is outstanding; one that
comes as code groups is what they spell (R65, R67); a CREDIT packet applies its four counts and changes nothing
else; an ACK that is owed and a CREDIT that is due are sent; and a link or port with nothing to send for
idle_delay announces electrical idle. -/
def Obligations.HostLinkPacketsAreTaken : Prop :=
  (∀ (s : State) (h : HLink) (bs : List (BitVec 8)), s.Calm → s.live (.hostlink h) = true → s.hostLive h = true → 8 ≤
    bs.length → (crc32c (bs.take (bs.length - 4))).toNat ≠ ofBe (bs.drop (bs.length - 4)) → (s.hl h).nak = none → ∃ t,
    exec (.hostLinkPacket h (.packet bs [])) s = .next t ∧ (t.hl h).nak = some s.clk ∧ (t.hl h).lastAcc = (s.hl
    h).lastAcc ∧ t.rf (.llErrcnt (.host h)) 63 48 = min 0xFFFF (s.rf (.llErrcnt (.host h)) 63 48 + 1) ∧ t =
    { s with regs := t.regs, hll := t.hll, lanes := t.lanes, out := t.out }) ∧
  (∀ (s : State) (h : HLink) (bs : List (BitVec 8)) (l : Fin 16), s.Calm → s.live (.hostlink h) = true → s.hostLive h =
    true → (s.hl h).nak = none → ∃ t, exec (.hostLinkPacket h (.packet bs [l])) s = .next t ∧ (t.hl h).nak = some
    s.clk ∧ (t.hl h).lastAcc = (s.hl h).lastAcc ∧ t.rf (.laneLineerr (.host h l)) 31 0 = min 0xFFFFFFFF (s.rf
    (.laneLineerr (.host h l)) 31 0 + 1) ∧ t.hbm = s.hbm) ∧
  (∀ (s : State) (h : HLink) (l : Fin 16) (b : List (BitVec 8)), s.Calm → s.live (.hostlink h) = true → s.hostLive h =
    true → s.laneOn (.host h l) = true → s.rf (.laneCtrl (.host h l)) 9 7 = 0 → s.laneState (.host h l) = 2 → s.rf
    (.laneStatus (.host h l)) 19 14 = 0 → (s.lane (.host h l)).rxIdle = false → (s.hl h).use = [l.val] → (s.hl
    h).rxPkt = none → b.length = 8 → ∃ t, exec (.hostLinkPacket h (.line [(l, (encodeLane (s.lane (.host h l)).rxRd
    ((packetRows 1 (linkPacket 0xA 0 b)).map (fun r => r.headD k28_5))).1)])) s = .next t ∧ t.hl h = (s.hl
    h).applyCredit (BitVec.ofNat 64 (ofBe b)) ∧ t = { s with hll := t.hll, lanes := t.lanes }) ∧
  (∀ (s : State) (h : HLink) (b : List (BitVec 8)), s.Calm → s.live (.hostlink h) = true → s.hostLive h = true → b.length
    = 8 → ∃ t, exec (.hostLinkPacket h (.packet (linkPacket 0xA 0 b) [])) s = .next t ∧ t.hl h = (s.hl h).applyCredit
    (BitVec.ofNat 64 (ofBe b)) ∧ t = { s with hll := t.hll }) ∧
  (∀ (s : State) (h : HLink) (dt : Nat), (s.elapse dt).Calm → (s.elapse dt).live (.hostlink h) = true → (s.elapse
    dt).hostMaySend h = true → ((s.elapse dt).hl h).ackDue = true → ∃ t, exec (.hostAckTimer h dt) s = .next t ∧
    sentPackets t.out = (h, linkPacket 8 0 (beBytes 8 (((s.elapse dt).hl h).lastAcc * 2 ^ 48))) :: sentPackets
    (s.elapse dt).out ∧ (t.hl h).ackDue = false ∧ (t.hl h).ackCnt = 0 ∧ t =
    { s.elapse dt with hll := t.hll, lanes := t.lanes, out := t.out }) ∧
  (∀ (s : State) (h : HLink) (dt : Nat), (s.elapse dt).Calm → (s.elapse dt).live (.hostlink h) = true → (s.elapse
    dt).hostMaySend h = true → (((s.elapse dt).hl h).credDue = true ∨ ((s.elapse dt).hl h).credAt + us 10 ≤ (s.elapse
    dt).clk) → ((s.elapse dt).hl h).sinceAck < 65535 → ∃ t, exec (.hostCreditTimer h dt) s = .next t ∧ (t.hl
    h).credDue = false ∧ (t.hl h).credAt = (s.elapse dt).clk ∧ (t.hl h).freed = ((s.elapse dt).hl h).freed ∧
    (sentPackets t.out).tail = sentPackets (s.elapse dt).out ∧ (sentPackets t.out).length = (sentPackets (s.elapse
    dt).out).length + 1 ∧ t = { s.elapse dt with hll := t.hll, lanes := t.lanes, out := t.out }) ∧
  (∀ (s : State) (p : Port) (dt : Nat), (s.elapse dt).Calm → (s.elapse dt).live (.port p) = true → (s.elapse dt).rb
    (.llCtrl (.port p)) 5 = true → ((s.elapse dt).portState p = 3 ∨ (s.elapse dt).portState p = 5) → ((s.elapse
    dt).port p).txIdle = false → (s.elapse dt).portQuiet p = true → ((s.elapse dt).port p).quietAt + us ((s.elapse
    dt).rf (.llTimers (.port p)) 31 20) < (s.elapse dt).clk → ∃ t, exec (.idleDelayExpiry (.port p) dt) s = .next t ∧
    (t.port p).txIdle = true ∧ t.portState p = (s.elapse dt).portState p ∧ (sentFrames t.out).head?.map (fun e =>
    (e.1, fld e.2.1 127 126, fld e.2.1 121 118, e.2.2)) = some (p, 0, 14, []) ∧ t =
    { s.elapse dt with ports := t.ports, lanes := t.lanes, out := t.out }) ∧
  (∀ (s : State) (h : HLink) (dt : Nat), (s.elapse dt).Calm → (s.elapse dt).live (.hostlink h) = true → (s.elapse dt).rb
    (.llCtrl (.host h)) 5 = true → (s.elapse dt).hlState h.val = 3 → ((s.elapse dt).hl h).txIdle = false → (s.elapse
    dt).hostQuiet h = true → ((s.elapse dt).hl h).quietAt + us ((s.elapse dt).rf (.llTimers (.host h)) 31 20) <
    (s.elapse dt).clk → ((s.elapse dt).hl h).sinceAck < 65535 → ∃ t, exec (.idleDelayExpiry (.host h) dt) s = .next t
    ∧ (t.hl h).txIdle = true ∧ sentPackets t.out = (h, linkPacket 0xC 0 [1, 0, 0, 0, 0, 0, 0, 0]) :: sentPackets
    (s.elapse dt).out ∧ t = { s.elapse dt with hll := t.hll, lanes := t.lanes, out := t.out })

/-- ROUTE_HEADER of a header that does not wait yet, and HEADER_REEVALUATE of one that waits (R122, R124, R125, R127,
R133, R135): a packet whose destination coordinates are the chip's own and whose flits have all come passes whole
to its endpoint; one whose destination is impossible is counted as unroutable, noted, and does not reach the
endpoint; one whose route is found, with no header that has waited longer asking for the same output VC, commits
to its output VC for its whole length with the header as it then is; one that finds no output VC free starts its
wait, or goes on waiting, and nothing else changes; a bad header of a port without auto_recover is counted, its VC
is emptied and its port is fenced with cause 2. BEACON_SEND, BEACON_RECEIVE, BEACON_EXPIRY and RT_EXC_WRITE (R132,
R138, R139, R426): a port that is UP queues a beacon once beacon_period has passed, while it has a free place; the
loads of a beacon received are kept with its time, and none is kept once more than four periods have passed; an
exception entry takes a value whose fields are legal and that names a possible via, and while a routing topcoat
holds the banks the write changes nothing of it and is noted. -/
def Obligations.RoutingStagesBeaconsAndExceptions : Prop :=
  (∀ (s : State) (src : RouteSrc) (vc : VC) (f : Flit), s.Calm → s.live (srcBlock src) = true → s.waitingHead src vc =
    some f → tFind s.waits (srcKey src vc) = none → rhBad f.bits vc.val = false → rhF f.bits 127 112 = s.coord →
    s.faPossible (256 * s.coord) = true → rhF f.bits 64 58 ≤ (s.srcFlits (srcKey src vc)).length → ∃ t, exec
    (.routeHeader src vc) s = .next t ∧ t.eject = s.eject ++ [⟨(s.srcFlits (srcKey src vc)).take (rhF f.bits 64 58),
    srcPortOf (srcKey src vc)⟩] ∧ tFind t.worms (srcKey src vc) = none ∧ t.hbm = s.hbm ∧ t.regs = s.regs) ∧
  (∀ (s : State) (src : RouteSrc) (vc : VC) (f : Flit), s.Calm → s.live (srcBlock src) = true → s.waitingHead src vc =
    some f → tFind s.waits (srcKey src vc) = none → rhBad f.bits vc.val = false → s.faPossible (256 * rhF f.bits 127
    112) = false → ∃ t, exec (.routeHeader src vc) s = .next t ∧ t.rf (.rtCount (stallOf (srcStall src))) 47 32 = min
    0xFFFF (s.rf (.rtCount (stallOf (srcStall src))) 47 32 + 1) ∧ (s.frozen (.stall (stallOf (srcStall src))) = false
    → t.rb (.ftStatus (.stall (stallOf (srcStall src)))) 0 = true) ∧ t.eject = s.eject ∧ t.hbm = s.hbm) ∧
  (∀ (s : State) (src : RouteSrc) (vc : VC) (f : Flit) (c : Cand) (h1 : BitVec 512), s.Calm → s.live (srcBlock src) =
    true → s.waitingHead src vc = some f → tFind s.waits (srcKey src vc) = none → rhBad f.bits vc.val = false →
    s.routeOf (srcStall src) f.bits = (false, f.bits, .go c h1) → s.beaten (srcKey src vc) c = false → ∃ t, exec
    (.routeHeader src vc) s = .next t ∧ tFind (t.port c.p).outv c.v = some ⟨srcKey src vc, rhF h1 79 77, rhF h1 64 58,
    true⟩ ∧ tFind t.worms (srcKey src vc) = some ⟨.out c.p.val c.v, rhF h1 64 58, []⟩ ∧ (t.srcFlits (srcKey src
    vc)).head? = some { f with bits := h1 } ∧ t.regs = s.regs ∧ t.hbm = s.hbm) ∧
  (∀ (s : State) (src : RouteSrc) (vc : VC) (f : Flit), s.Calm → s.live (srcBlock src) = true → s.waitingHead src vc =
    some f → tFind s.waits (srcKey src vc) = none → rhBad f.bits vc.val = false → s.routeOf (srcStall src) f.bits =
    (false, f.bits, .wait) → exec (.routeHeader src vc) s = .next
    ({ s with waits := tPut (srcKey src vc) s.clk s.waits })) ∧
  (∀ (s : State) (p : Port) (vc : VC) (f : Flit), s.Calm → s.live (.port p) = true → s.waitingHead (.port p) vc = some f
    → tFind s.waits (srcPort p vc.val) = none → rhBad f.bits vc.val = true → s.portState p ≠ 0 → s.portState p ≠ 6 →
    s.rb (.llCtrl (.port p)) 2 = false → ∃ t, exec (.routeHeader (.port p) vc) s = .next t ∧ t.rf (.rtCount
    (stallOfPort p)) 31 16 = min 0xFFFF (s.rf (.rtCount (stallOfPort p)) 31 16 + 1) ∧ t.portState p = 6 ∧ t.rb
    (.llStatus (.port p)) 7 = true ∧ tGet [] (t.port p).ibuf vc.val = [] ∧ t.hbm = s.hbm) ∧
  (∀ (s : State) (src : RouteSrc) (vc : VC) (f : Flit) (t0 : Nat), s.Calm → s.live (srcBlock src) = true → s.waitingHead
    src vc = some f → tFind s.waits (srcKey src vc) = some t0 → rhBad f.bits vc.val = false → rhF f.bits 127 112 =
    s.coord → s.faPossible (256 * s.coord) = true → rhF f.bits 64 58 ≤ (s.srcFlits (srcKey src vc)).length → ∃ t, exec
    (.headerReevaluate src vc) s = .next t ∧ t.eject = s.eject ++ [⟨(s.srcFlits (srcKey src vc)).take (rhF f.bits 64
    58), srcPortOf (srcKey src vc)⟩] ∧ tFind t.waits (srcKey src vc) = none ∧ t.regs = s.regs ∧ t.hbm = s.hbm) ∧
  (∀ (s : State) (src : RouteSrc) (vc : VC) (f : Flit) (t0 : Nat), s.Calm → s.live (srcBlock src) = true → s.waitingHead
    src vc = some f → tFind s.waits (srcKey src vc) = some t0 → rhBad f.bits vc.val = false → s.faPossible (256 * rhF
    f.bits 127 112) = false → ∃ t, exec (.headerReevaluate src vc) s = .next t ∧ t.rf (.rtCount (stallOf (srcStall
    src))) 47 32 = min 0xFFFF (s.rf (.rtCount (stallOf (srcStall src))) 47 32 + 1) ∧ (s.frozen (.stall (stallOf
    (srcStall src))) = false → t.rb (.ftStatus (.stall (stallOf (srcStall src)))) 0 = true) ∧ t.eject = s.eject ∧
    tFind t.waits (srcKey src vc) = none ∧ t.hbm = s.hbm) ∧
  (∀ (s : State) (src : RouteSrc) (vc : VC) (f : Flit) (c : Cand) (h1 : BitVec 512) (t0 : Nat), s.Calm → s.live (srcBlock
    src) = true → s.waitingHead src vc = some f → tFind s.waits (srcKey src vc) = some t0 → rhBad f.bits vc.val =
    false → s.routeOf (srcStall src) f.bits = (false, f.bits, .go c h1) → s.beaten (srcKey src vc) c = false → ∃ t,
    exec (.headerReevaluate src vc) s = .next t ∧ tFind (t.port c.p).outv c.v = some ⟨srcKey src vc, rhF h1 79 77, rhF
    h1 64 58, true⟩ ∧ tFind t.worms (srcKey src vc) = some ⟨.out c.p.val c.v, rhF h1 64 58, []⟩ ∧ (t.srcFlits (srcKey
    src vc)).head? = some { f with bits := h1 } ∧ t.regs = s.regs ∧ tFind t.waits (srcKey src vc) = none ∧ t.hbm =
    s.hbm) ∧
  (∀ (s : State) (src : RouteSrc) (vc : VC) (f : Flit) (t0 : Nat), s.Calm → s.live (srcBlock src) = true → s.waitingHead
    src vc = some f → tFind s.waits (srcKey src vc) = some t0 → rhBad f.bits vc.val = false → s.routeOf (srcStall src)
    f.bits = (false, f.bits, .wait) → exec (.headerReevaluate src vc) s = .next (s)) ∧
  (∀ (s : State) (p : Port) (vc : VC) (f : Flit) (t0 : Nat), s.Calm → s.live (.port p) = true → s.waitingHead (.port p)
    vc = some f → tFind s.waits (srcPort p vc.val) = some t0 → rhBad f.bits vc.val = true → s.portState p ≠ 0 →
    s.portState p ≠ 6 → s.rb (.llCtrl (.port p)) 2 = false → ∃ t, exec (.headerReevaluate (.port p) vc) s = .next t ∧
    t.rf (.rtCount (stallOfPort p)) 31 16 = min 0xFFFF (s.rf (.rtCount (stallOfPort p)) 31 16 + 1) ∧ t.portState p = 6
    ∧ t.rb (.llStatus (.port p)) 7 = true ∧ tGet [] (t.port p).ibuf vc.val = [] ∧ tFind t.waits (srcPort p vc.val) =
    none ∧ t.hbm = s.hbm) ∧
  (∀ (s : State) (p : Port) (dt : Nat), (s.elapse dt).live (.port p) = true → (s.elapse dt).portState p = 3 → ((s.elapse
    dt).port p).beaconAt + us ((s.elapse dt).rf .rtCtrl 47 42) ≤ (s.elapse dt).clk → 2 ≤ ((s.elapse dt).port p).res 0
    → ∃ t, exec (.beaconSend p dt) s = .next t ∧ (t.port p).txBypass = ((s.elapse dt).port p).txBypass ++ [false] ∧
    (t.port p).beaconAt = (s.elapse dt).clk ∧ t = { s.elapse dt with ports := t.ports }) ∧
  (∀ (s : State) (p : Port) (h : BitVec 512), s.live (.port p) = true → s.bypassHead p 1 = some h → ∃ t, exec
    (.beaconReceive p) s = .next t ∧ (t.port p).loads = some (s.clk, BitVec.ofNat 64 (fld h 367 304)) ∧ t.srcFlits
    (srcPort p 0) = (s.srcFlits (srcPort p 0)).tail ∧ t = { s with ports := t.ports }) ∧
  (∀ (s : State) (p : Port) (dt t0 : Nat) (w : BitVec 64), (s.elapse dt).live (.port p) = true → ((s.elapse dt).port
    p).loads = some (t0, w) → t0 + us (4 * (s.elapse dt).rf .rtCtrl 47 42) < (s.elapse dt).clk → ∃ t, exec
    (.beaconExpiry p dt) s = .next t ∧ (t.port p).loads = none ∧ (t.port p).ibuf = ((s.elapse dt).port p).ibuf ∧ t =
    { s.elapse dt with ports := t.ports }) ∧
  (∀ (s : State) (st : Stall) (i : Fin 4096) (v : BitVec 64), s.live (.stall st) = true → s.newBank = none → s.oldBank =
    none → (Reg.rtExc st i).fieldsOk v = true → s.faPossible (256 * fld v 15 0) = true → ∃ t, exec (.rtExcWrite st i
    v) s = .next t ∧ t.reg (.rtExc st i) = v ∧ (∀ q : Reg, q.addr ≠ (Reg.rtExc st i).addr → t.reg q = s.reg q) ∧ t =
    { s with regs := t.regs }) ∧
  (∀ (s : State) (st : Stall) (i : Fin 4096) (v : BitVec 64) (b : RtBank), s.live (.stall st) = true → s.newBank = some b
    → s.domRuns (st.val / 8) = true → ∃ t, exec (.rtExcWrite st i v) s = .next t ∧ t.reg (.rtExc st i) = s.reg (.rtExc
    st i) ∧ t.rb (.ftStatus (.stall st)) 0 = true ∧ t.hbm = s.hbm)

/-- DBELL, CWR and CRD (R159, R160, R162, R164, R178): a doorbell that its queue’s function sends on the queue’s link
while tl_enable is 1 raises pi by its advance where that is neither 0 nor above the space left; one above it, and
one whose pi the queue's length cannot hold, takes the queue to ERROR with QUEUE_OVERRUN (0x20) and leaves pi; one
for a queue that does not exist changes no queue and is counted in the domain of its link. A well-formed request
of a privileged function for HBM of a running domain is performed, a write changing exactly its bytes and a read
nothing of memory, and is answered with status 0, a read with its words; a request of a function whose HL_FN_PRIV
bit is 0 is answered DENIED (2) and changes nothing. The request leaves the link’s buffer. -/
def Obligations.DoorbellsAndHostAccessesAreServed : Prop :=
  (∀ (s : State) (h : HLink) (x : RxTlp) (xs : List RxTlp) (c : Cq) (q a : Nat), s.Calm → s.live (.hostlink h) = true →
    s.dust = false → s.rb (.hlCtrl h) 0 = true → (s.tl h.val).rxReq = x :: xs → tlpF x.body 127 120 = 1 → tlpF x.body
    111 92 = q → tFind s.cqs q = some c → s.mayRing h c (tlpF x.body 119 115) = true → s.domRuns (s.cqDom c) = true →
    c.state ≠ 4 → c.dying = false → tlpF x.body 91 71 < 2 ^ (c.k + 1) → a = (tlpF x.body 91 71 + 2 ^ (c.k + 1) - c.pi
    % 2 ^ (c.k + 1)) % 2 ^ (c.k + 1) → 0 < a → a ≤ 2 ^ c.k - (c.pi - c.oldest) → ∃ t, exec (.dbell h) s = .next t ∧
    (tFind t.cqs q).map (fun d => (d.pi, d.oldest, d.next, d.state)) = some (c.pi + a, c.oldest, c.next, c.state) ∧
    (t.tl h.val).rxReq = xs ∧ t.regs = s.regs ∧ t.hbm = s.hbm) ∧
  (∀ (s : State) (h : HLink) (x : RxTlp) (xs : List RxTlp) (c : Cq) (q a : Nat), s.Calm → s.live (.hostlink h) = true →
    s.dust = false → s.rb (.hlCtrl h) 0 = true → (s.tl h.val).rxReq = x :: xs → tlpF x.body 127 120 = 1 → tlpF x.body
    111 92 = q → tFind s.cqs q = some c → s.mayRing h c (tlpF x.body 119 115) = true → s.domRuns (s.cqDom c) = true →
    c.state ≠ 4 → c.dying = false → a = (tlpF x.body 91 71 + 2 ^ (c.k + 1) - c.pi % 2 ^ (c.k + 1)) % 2 ^ (c.k + 1) → 2
    ^ c.k - (c.pi - c.oldest) < a → ∃ t, exec (.dbell h) s = .next t ∧ (tFind t.cqs q).map (fun d => (d.pi, d.state,
    d.lastError)) = some (c.pi, 4, 0x20) ∧ (t.tl h.val).rxReq = xs ∧ t.hbm = s.hbm) ∧
  (∀ (s : State) (h : HLink) (x : RxTlp) (xs : List RxTlp) (c : Cq) (q : Nat), s.Calm → s.live (.hostlink h) = true →
    s.dust = false → s.rb (.hlCtrl h) 0 = true → (s.tl h.val).rxReq = x :: xs → tlpF x.body 127 120 = 1 → tlpF x.body
    111 92 = q → tFind s.cqs q = some c → s.mayRing h c (tlpF x.body 119 115) = true → s.domRuns (s.cqDom c) = true →
    c.state ≠ 4 → c.dying = false → 2 ^ (c.k + 1) ≤ tlpF x.body 91 71 → ∃ t, exec (.dbell h) s = .next t ∧ (tFind
    t.cqs q).map (fun d => (d.pi, d.state, d.lastError)) = some (c.pi, 4, 0x20) ∧ (t.tl h.val).rxReq = xs ∧ t.hbm =
    s.hbm) ∧
  (∀ (s : State) (h : HLink) (x : RxTlp) (xs : List RxTlp), s.Calm → s.live (.hostlink h) = true → (s.tl h.val).rxReq = x
    :: xs → tlpF x.body 127 120 = 1 → tFind s.cqs (tlpF x.body 111 92) = none → ∃ t, exec (.dbell h) s = .next t ∧
    t.cqs = s.cqs ∧ t.rf (.cqCount (domOf (h.val / 4))) 63 32 = min 0xFFFFFFFF (s.rf (.cqCount (domOf (h.val / 4))) 63
    32 + 1) ∧ (t.tl h.val).rxReq = xs ∧ t.hbm = s.hbm) ∧
  (∀ (s : State) (h : HLink) (x : RxTlp) (xs : List RxTlp) (a n : Nat), s.Calm → s.live (.hostlink h) = true → s.hlLost
    h.val = false → (s.tl h.val).rxReq = x :: xs → tlpF x.body 127 120 = 2 → tlpF x.body 63 0 = a → tlpF x.body 103 94
    = n → s.hostStatus h x (tlpF x.body 119 115) a n = .ok → inHbm a = true → x.body.length = 16 + 8 * n → a + 8 * n ≤
    hbmBase + 2 * stackSize → ∃ t, exec (.cwr h) s = .next t ∧ t.hbm = memWrite s.hbm (a - hbmBase) (x.body.drop 16) ∧
    (t.tl h.val).rspQ = (s.tl h.val).rspQ ++ [⟨tlpF x.body 119 115, tlpF x.body 111 104, 0, n, [], x.barrier⟩] ∧ (t.tl
    h.val).rxReq = xs ∧ t.regs = s.regs ∧ t.buf = s.buf) ∧
  (∀ (s : State) (h : HLink) (x : RxTlp) (xs : List RxTlp) (a n : Nat), s.Calm → s.live (.hostlink h) = true → s.hlLost
    h.val = false → (s.tl h.val).rxReq = x :: xs → (tlpF x.body 127 120 = 2 ∧ tlpF x.body 63 0 = a ∧ tlpF x.body 103
    94 = n) → x.malformed = false → a % 4096 + 8 * n ≤ 4096 → s.rb (.hlFnPriv h) (tlpF x.body 119 115) = false → 1 ≤ n
    → ∃ t, exec (.cwr h) s = .next t ∧ t.hbm = s.hbm ∧ t.buf = s.buf ∧ t.regs = s.regs ∧ (t.tl h.val).rxReq = xs ∧
    (t.tl h.val).rspQ = (s.tl h.val).rspQ ++ [⟨tlpF x.body 119 115, tlpF x.body 111 104, 2, n, [], x.barrier⟩]) ∧
  (∀ (s : State) (h : HLink) (x : RxTlp) (xs : List RxTlp) (a n : Nat), s.Calm → s.live (.hostlink h) = true → s.hlLost
    h.val = false → (s.tl h.val).rxReq = x :: xs → (tlpF x.body 127 120 = 3 ∧ tlpF x.body 63 0 = a ∧ tlpF x.body 103
    94 = n) → x.malformed = false → a % 4096 + 8 * n ≤ 4096 → s.rb (.hlFnPriv h) (tlpF x.body 119 115) = false → 1 ≤ n
    → ∃ t, exec (.crd h) s = .next t ∧ t.hbm = s.hbm ∧ t.buf = s.buf ∧ t.regs = s.regs ∧ (t.tl h.val).rxReq = xs ∧
    (t.tl h.val).rspQ = (s.tl h.val).rspQ ++ [⟨tlpF x.body 119 115, tlpF x.body 111 104, 2, n, [], x.barrier⟩]) ∧
  (∀ (s : State) (h : HLink) (x : RxTlp) (xs : List RxTlp) (a n : Nat), s.Calm → s.live (.hostlink h) = true → s.hlLost
    h.val = false → (s.tl h.val).rxReq = x :: xs → tlpF x.body 127 120 = 3 → tlpF x.body 63 0 = a → tlpF x.body 103 94
    = n → s.hostStatus h x (tlpF x.body 119 115) a n = .ok → inHbm a = true → s.deviceKept a (8 * n) = false → ∃ t,
    exec (.crd h) s = .next t ∧ t.hbm = s.hbm ∧ t.buf = s.buf ∧ t.regs = s.regs ∧ (t.tl h.val).rspQ = (s.tl
    h.val).rspQ ++ [⟨tlpF x.body 119 115, tlpF x.body 111 104, 0, n, wordsOf n (s.hbmRead a (8 * n)), x.barrier⟩] ∧
    (t.tl h.val).rxReq = xs) ∧
  (∀ (s : State) (h : HLink) (x : RxTlp) (xs : List RxTlp) (a n : Nat), s.Calm → s.live (.hostlink h) = true → s.hlLost
    h.val = false → (s.tl h.val).rxReq = x :: xs → tlpF x.body 127 120 = 3 → tlpF x.body 63 0 = a → tlpF x.body 103 94
    = n → s.hostStatus h x (tlpF x.body 119 115) a n = .ok → inHbm a = true → s.deviceKept a (8 * n) = true → ∃ t,
    exec (.crd h) s = .next t ∧ t.hbm = s.hbm ∧ t.buf = s.buf ∧ t.regs = s.regs ∧ (∃ ws : List Word, ws.length = n ∧
    (t.tl h.val).rspQ = (s.tl h.val).rspQ ++ [⟨tlpF x.body 119 115, tlpF x.body 111 104, 0, n, ws, x.barrier⟩]) ∧
    (t.tl h.val).rxReq = xs)

/-- CPLD, READ_TIMEOUT, READ_TAG_RELEASE and WRITE_HISTORY_EXPIRY (R148, R153, R154): a completion for a tag that is
not outstanding counts and is discarded; one that does not end its read adds its bytes; one that ends a table
walk's read frees the tag and gives the walk its entry. A read that has been outstanding for read_timeout fails,
counts, and its tag is withheld for 16 times that long; a withheld tag is then free again; a history entry goes
once its window has passed. ERRRPT_WRITE_FAILED and ERRRPT_FUNCTION_RESET (R165, R166, R205): a report that names
a write with a live history entry of a context leaves that context's error_sticky set, in the context and in its
record in HBM, whose place in the context share is the model's (log entry 142); one that matches none is counted
and noted in HL_STATUS. After a function reset every event queue of the function takes no record and is disarmed,
HL_STATUS shows it, every context of the function has error_sticky set, and HBM changes only in those contexts'
records; here with no queue, waiting transaction or lock of the function. -/
def Obligations.HostReadsEndAndFailuresAreReported : Prop :=
  (∀ (s : State) (h : HLink) (x : RxTlp) (xs : List RxTlp), s.Calm → s.live (.hostlink h) = true → (s.tl h.val).rxRsp = x
    :: xs → tlpF x.body 127 120 = 0x12 → tFind (s.tl h.val).reads (tlpF x.body 111 100) = none → ∃ t, exec (.cpld h) s
    = .next t ∧ t.rf (.hlTlperr h) 47 32 = min 0xFFFF (s.rf (.hlTlperr h) 47 32 + 1) ∧ (t.tl h.val).rxRsp = xs ∧ (t.tl
    h.val).reads = (s.tl h.val).reads ∧ t = { s with regs := t.regs, ht := t.ht, hll := t.hll }) ∧
  (∀ (s : State) (h : HLink) (x : RxTlp) (xs : List RxTlp) (r : ReadOut) (g : Nat), s.Calm → s.live (.hostlink h) = true
    → (s.tl h.val).rxRsp = x :: xs → tlpF x.body 127 120 = 0x12 → tlpF x.body 111 100 = g → tFind (s.tl h.val).reads g
    = some r → tlpF x.body 99 96 = 0 → tlpF x.body 81 70 = r.got.length → tlpF x.body 95 95 = 0 → x.body.length = 16 +
    tlpF x.body 94 82 → r.got.length + tlpF x.body 94 82 ≤ r.len → ∃ t, exec (.cpld h) s = .next t ∧ tFind (t.tl
    h.val).reads g = some { r with got := r.got ++ x.body.drop 16 } ∧ (t.tl h.val).rxRsp = xs ∧ t =
    { s with ht := t.ht, hll := t.hll }) ∧
  (∀ (s : State) (h : HLink) (x : RxTlp) (xs : List RxTlp) (r : ReadOut) (g w : Nat) (y : Walk), s.Calm → s.live
    (.hostlink h) = true → (s.tl h.val).rxRsp = x :: xs → tlpF x.body 127 120 = 0x12 → tlpF x.body 111 100 = g → tFind
    (s.tl h.val).reads g = some r → r.drop = false → r.purpose = .walk w → tFind s.walks w = some y → tlpF x.body 99
    96 = 0 → tlpF x.body 81 70 = r.got.length → tlpF x.body 95 95 = 1 → x.body.length = 16 + tlpF x.body 94 82 →
    r.got.length + tlpF x.body 94 82 = r.len → ∃ t, exec (.cpld h) s = .next t ∧ tFind (t.tl h.val).reads g = none ∧
    tFind t.walks w = some { y with entry := some (BitVec.ofNat 64 (ofLe (r.got ++ x.body.drop 16))) } ∧ t =
    { s with ht := t.ht, hll := t.hll, walks := t.walks }) ∧
  (∀ (s : State) (h : HLink) (g : Fin 4096) (dt w : Nat) (r : ReadOut) (y : Walk), (s.elapse dt).Calm → (s.elapse
    dt).live (.hostlink h) = true → tFind ((s.elapse dt).tl h.val).reads g.val = some r → r.drop = false → r.purpose =
    .walk w → tFind (s.elapse dt).walks w = some y → r.sentAt + us ((s.elapse dt).rf (.hlTimers h) 51 32) < (s.elapse
    dt).clk → (s.elapse dt).lastCame h g.val = false → ∃ t, exec (.readTimeout h g dt) s = .next t ∧ tFind (t.tl
    h.val).reads g.val = none ∧ tFind (t.tl h.val).withheld g.val = some ((s.elapse dt).clk + 16 * us ((s.elapse
    dt).rf (.hlTimers h) 51 32)) ∧ tFind t.walks w = some { y with failed := 8 } ∧ t.rf (.hlTlperr h) 31 16 = min
    0xFFFF ((s.elapse dt).rf (.hlTlperr h) 31 16 + 1) ∧ t.rb (.hlStatus h) 0 = true ∧ t.hbm = (s.elapse dt).hbm) ∧
  (∀ (s : State) (h : HLink) (g : Fin 4096) (dt t0 : Nat), (s.elapse dt).Calm → (s.elapse dt).live (.hostlink h) = true →
    tFind ((s.elapse dt).tl h.val).withheld g.val = some t0 → t0 ≤ (s.elapse dt).clk → ∃ t, exec (.readTagRelease h g
    dt) s = .next t ∧ tFind (t.tl h.val).withheld g.val = none ∧ (t.tl h.val).reads = ((s.elapse dt).tl h.val).reads ∧
    t = { s.elapse dt with ht := t.ht }) ∧
  (∀ (s : State) (h : HLink) (g : BitVec 16) (dt : Nat) (e : History), (s.elapse dt).Calm → (s.elapse dt).live (.hostlink
    h) = true → tFind ((s.elapse dt).tl h.val).hist g.toNat = some e → (s.elapse dt).liveEntry h e = false → ∃ t, exec
    (.writeHistoryExpiry h g dt) s = .next t ∧ tFind (t.tl h.val).hist g.toNat = none ∧ (t.tl h.val).reads =
    ((s.elapse dt).tl h.val).reads ∧ t = { s.elapse dt with ht := t.ht }) ∧
  (∀ (s : State) (h : HLink) (x : RxTlp) (xs : List RxTlp) (e : History) (c : Nat) (y : Ctx), s.Calm → s.live (.hostlink
    h) = true → (s.tl h.val).rxRsp = x :: xs → tlpF x.body 127 120 = 0x14 → tlpF x.body 111 108 = 1 → tFind (s.tl
    h.val).hist (tlpF x.body 103 88) = some e → s.liveEntry h e = true → e.ctx = some c → e.note = none → s.ctx? c =
    some y → 2 < y.words.length → ∃ t, exec (.errrptWriteFailed h) s = .next t ∧ bit (t.ctxWord c 2) 62 = true ∧ t.rf
    (.hlTlperr h) 15 0 = min 0xFFFF (s.rf (.hlTlperr h) 15 0 + 1) ∧ t.rb (.hlStatus h) 1 = true ∧ (t.tl h.val).rxRsp =
    xs ∧ t.hbm = (s.ctxStore c 2 [setBit (s.ctxWord c 2) 62 true]).hbm) ∧
  (∀ (s : State) (h : HLink) (x : RxTlp) (xs : List RxTlp), s.Calm → s.live (.hostlink h) = true → (s.tl h.val).rxRsp = x
    :: xs → tlpF x.body 127 120 = 0x14 → tlpF x.body 111 108 = 1 → tFind (s.tl h.val).hist (tlpF x.body 103 88) = none
    → ∃ t, exec (.errrptWriteFailed h) s = .next t ∧ t.rb (.hlStatus h) 1 = true ∧ t.rb (.hlStatus h) 2 = true ∧ t.rf
    (.hlTlperr h) 15 0 = min 0xFFFF (s.rf (.hlTlperr h) 15 0 + 1) ∧ t.ctxs = s.ctxs ∧ t.hbm = s.hbm) ∧
  (∀ (s : State) (h : HLink) (x : RxTlp) (xs : List RxTlp), s.Calm → s.live (.hostlink h) = true → (s.tl h.val).rxRsp = x
    :: xs → tlpF x.body 127 120 = 0x14 → tlpF x.body 111 108 = 2 → s.cqs = [] → (s.tl h.val).reqQ = [] → s.locks = []
    → ∃ t, exec (.errrptFunctionReset h) s = .next t ∧ t.rb (.hlStatus h) 3 = true ∧ (∀ (e : Nat) (q : Eq), tFind
    s.eqs e = some q → q.link = h.val → q.fn = tlpF x.body 119 115 → ∃ q' : Eq, tFind t.eqs e = some q' ∧ q'.dead =
    true ∧ q'.armed = false) ∧ (t.tl h.val).rxRsp = xs ∧ (∀ (c : Nat) (y : Ctx), s.ctx? c = some y → 2 <
    y.words.length → fld (y.words.getD 2 0) 55 53 = h.val → fld (y.words.getD 2 0) 60 56 = tlpF x.body 119 115 → bit
    (t.ctxWord c 2) 62 = true) ∧ (∀ a : Nat, (∀ e ∈ s.ctxs, fld (e.2.words.getD 2 0) 55 53 = h.val → fld
    (e.2.words.getD 2 0) 60 56 = tlpF x.body 119 115 → a < s.ctxAddr e.1 + 16 ∨ s.ctxAddr e.1 + 24 ≤ a) → t.hbmByte a
    = s.hbmByte a))

/-- NOP (R177, R182) completes with status 0; PUT, PUT_INLINE, GET, SEND, SEND_INLINE and ATOMIC whose rank lookup
fails (R118) complete with the failure's code, without a message: the header is written over its ring slot with
the phase inverted, the status and the detail 0, the command's record ends, and HBM and the registers stay. Here
the completion is one write: the ring's link is not lost, and the command asks for neither an event nor a
completion run. -/
def Obligations.CommandsCompleteInTheirRing : Prop :=
  (∀ (s : State) (op : Nat) (o : Op) (c : Cq), s.Starts op 0 o c → ∃ t, exec (.nop op) s = .next t ∧ tFind t.ops op =
    none ∧ (t.tl c.link).reqQ = (s.tl c.link).reqQ ++ [c.cpl o 0 0] ∧ (t.tl c.link).rspQ = (s.tl c.link).rspQ ∧ t.hbm
    = s.hbm ∧ t.buf = s.buf ∧ t.regs = s.regs) ∧
  (∀ (s : State) (op e : Nat) (o : Op) (c : Cq), s.Starts op 1 o c → cmdCt o.words = 0xFFF → s.rank o.ctx (fld (o.w 1) 63
    32) = .error e → ∃ t, exec (.put op) s = .next t ∧ tFind t.ops op = none ∧ (t.tl c.link).reqQ = (s.tl c.link).reqQ
    ++ [c.cpl o e 0] ∧ t.ifl = s.ifl ∧ t.hbm = s.hbm ∧ t.regs = s.regs) ∧
  (∀ (s : State) (op e : Nat) (o : Op) (c : Cq), s.Starts op 2 o c → fld (o.w 3) 31 0 ≤ 64 * (hdrLen (o.w 0) - 1) → cmdCt
    o.words = 0xFFF → s.rank o.ctx (fld (o.w 1) 63 32) = .error e → ∃ t, exec (.putInline op) s = .next t ∧ tFind
    t.ops op = none ∧ (t.tl c.link).reqQ = (s.tl c.link).reqQ ++ [c.cpl o e 0] ∧ t.ifl = s.ifl ∧ t.hbm = s.hbm ∧
    t.regs = s.regs) ∧
  (∀ (s : State) (op e : Nat) (o : Op) (c : Cq), s.Starts op 3 o c → cmdCt o.words = 0xFFF → s.rank o.ctx (fld (o.w 1) 63
    32) = .error e → ∃ t, exec (.get op) s = .next t ∧ tFind t.ops op = none ∧ (t.tl c.link).reqQ = (s.tl c.link).reqQ
    ++ [c.cpl o e 0] ∧ t.ifl = s.ifl ∧ t.hbm = s.hbm ∧ t.regs = s.regs) ∧
  (∀ (s : State) (op e : Nat) (o : Op) (c : Cq), s.Starts op 4 o c → cmdCt o.words = 0xFFF → s.rank o.ctx (fld (o.w 1) 63
    32) = .error e → ∃ t, exec (.send op) s = .next t ∧ tFind t.ops op = none ∧ (t.tl c.link).reqQ = (s.tl
    c.link).reqQ ++ [c.cpl o e 0] ∧ t.ifl = s.ifl ∧ t.hbm = s.hbm ∧ t.regs = s.regs) ∧
  (∀ (s : State) (op e : Nat) (o : Op) (c : Cq), s.Starts op 5 o c → fld (o.w 3) 31 0 ≤ 64 * (hdrLen (o.w 0) - 1) → cmdCt
    o.words = 0xFFF → s.rank o.ctx (fld (o.w 1) 63 32) = .error e → ∃ t, exec (.sendInline op) s = .next t ∧ tFind
    t.ops op = none ∧ (t.tl c.link).reqQ = (s.tl c.link).reqQ ++ [c.cpl o e 0] ∧ t.ifl = s.ifl ∧ t.hbm = s.hbm ∧
    t.regs = s.regs) ∧
  (∀ (s : State) (op e : Nat) (o : Op) (c : Cq), s.Starts op 6 o c → fld (o.w 3) 31 24 ≤ 8 → fld (o.w 3) 23 20 ≤ 5 →
    cmdCt o.words = 0xFFF → s.rank o.ctx (fld (o.w 1) 63 32) = .error e → ∃ t, exec (.atomic op) s = .next t ∧ tFind
    t.ops op = none ∧ (t.tl c.link).reqQ = (s.tl c.link).reqQ ++ [c.cpl o e 0] ∧ t.ifl = s.ifl ∧ t.hbm = s.hbm ∧
    t.regs = s.regs)

/-- PUT, PUT_INLINE, GET, SEND, SEND_INLINE and ATOMIC (R118, R183, R250, R266, R277): where the rank table gives the
peer, a flow to it exists and no command of the context to that peer that started earlier still waits to be
performed, the command's message waits on that flow with the command's addresses, key, length, TC, ADAPT, ordering
and tag; inline forms carry the entry's bytes, a SEND carries the sender's rank as its key and no remote address,
a SEND above the eager limit a request-to-send that carries its local address and key, an ATOMIC its op and type
and both operands; what the enqueuing leaves is done within the command. -/
def Obligations.SendingCommandsQueueTheirMessages : Prop :=
  (∀ (s : State) (op fa pc f : Nat) (o : Op) (c : Cq), s.Starts op 1 o c → s.rank o.ctx (fld (o.w 1) 63 32) = .ok (fa,
    pc) → s.findIfl o.ctx fa pc = some f → s.SendsNext o fa pc → exec (.put op) s = .next ((((s.perform op).modOp op
    (fun x => { x with aux := 0 })).enqueue f
    { SendItem.blank 1 (fld (o.w 1) 31 29) (bit (o.w 1) 28) with op := some op, ordered := bit (o.w 0) 48, key := fld (o.w 3) 63 32, mlen := fld (o.w 3) 31 0, local_ := (o.w 2).toNat, addr := (o.w 4).toNat, tag := (o.w 5).toNat }).fin)) ∧
  (∀ (s : State) (op fa pc f : Nat) (o : Op) (c : Cq), s.Starts op 2 o c → fld (o.w 3) 31 0 ≤ 64 * (hdrLen (o.w 0) - 1) →
    s.rank o.ctx (fld (o.w 1) 63 32) = .ok (fa, pc) → s.findIfl o.ctx fa pc = some f → s.SendsNext o fa pc → exec
    (.putInline op) s = .next ((((s.perform op).modOp op (fun x => { x with aux := 0 })).enqueue f
    { SendItem.blank 1 (fld (o.w 1) 31 29) (bit (o.w 1) 28) with op := some op, ordered := bit (o.w 0) 48, key := fld (o.w 3) 63 32, mlen := fld (o.w 3) 31 0, local_ := (o.w 2).toNat, addr := (o.w 4).toNat, tag := (o.w 5).toNat, inline_ := some ((bytesOf (o.words.drop 8)).take (fld (o.w 3) 31 0)) }).fin)) ∧
  (∀ (s : State) (op fa pc f : Nat) (o : Op) (c : Cq), s.Starts op 3 o c → s.rank o.ctx (fld (o.w 1) 63 32) = .ok (fa,
    pc) → s.findIfl o.ctx fa pc = some f → s.SendsNext o fa pc → ∃ t, exec (.get op) s = .next t ∧ (tFind t.ifl f).map
    (fun x => x.queue) = (tFind s.ifl f).map (fun x => x.queue ++
    [{ SendItem.blank 2 (fld (o.w 1) 31 29) (bit (o.w 1) 28) with op := some op, ordered := bit (o.w 0) 48, key := fld (o.w 3) 63 32, mlen := fld (o.w 3) 31 0, local_ := (o.w 2).toNat, addr := (o.w 4).toNat, tag := (o.w 5).toNat }])
    ∧ (tFind t.ops op).map (fun x => x.performed) = some true ∧ t = { s with ops := t.ops, ifl := t.ifl }) ∧
  (∀ (s : State) (op fa pc f : Nat) (o : Op) (c : Cq), s.Starts op 4 o c → fld (o.w 3) 31 0 ≤ fld (s.ctxWord o.ctx 8) 31
    0 → s.rank o.ctx (fld (o.w 1) 63 32) = .ok (fa, pc) → s.findIfl o.ctx fa pc = some f → s.SendsNext o fa pc → exec
    (.send op) s = .next ((((s.perform op).modOp op (fun x => { x with aux := 0 })).enqueue f
    { SendItem.blank 6 (fld (o.w 1) 31 29) (bit (o.w 1) 28) with op := some op, ordered := bit (o.w 0) 48, key := fld (s.ctxWord o.ctx 9) 63 32, mlen := fld (o.w 3) 31 0, local_ := (o.w 2).toNat, addr := 0, tag := (o.w 5).toNat }).fin)) ∧
  (∀ (s : State) (op fa pc f : Nat) (o : Op) (c : Cq), s.Starts op 4 o c → fld (s.ctxWord o.ctx 8) 31 0 < fld (o.w 3) 31
    0 → s.rank o.ctx (fld (o.w 1) 63 32) = .ok (fa, pc) → s.findIfl o.ctx fa pc = some f → s.SendsNext o fa pc → ∃ t,
    exec (.send op) s = .next t ∧ (tFind t.ifl f).map (fun x => x.queue) = (tFind s.ifl f).map (fun x => x.queue ++
    [{ SendItem.blank 6 (fld (o.w 1) 31 29) (bit (o.w 1) 28) with op := some op, ordered := bit (o.w 0) 48, key := fld (s.ctxWord o.ctx 9) 63 32, mlen := fld (o.w 3) 31 0, local_ := (o.w 2).toNat, addr := 0, tag := (o.w 5).toNat, payload := beBytes 8 (o.w 2).toNat ++ beBytes 4 (fld (o.w 3) 63 32) }])
    ∧ (tFind t.ops op).map (fun x => (x.performed, x.aux)) = some (true, 1) ∧ t =
    { s with ops := t.ops, ifl := t.ifl }) ∧
  (∀ (s : State) (op fa pc f : Nat) (o : Op) (c : Cq), s.Starts op 5 o c → fld (o.w 3) 31 0 ≤ 64 * (hdrLen (o.w 0) - 1) →
    s.rank o.ctx (fld (o.w 1) 63 32) = .ok (fa, pc) → s.findIfl o.ctx fa pc = some f → s.SendsNext o fa pc → exec
    (.sendInline op) s = .next ((((s.perform op).modOp op (fun x => { x with aux := 0 })).enqueue f
    { SendItem.blank 6 (fld (o.w 1) 31 29) (bit (o.w 1) 28) with op := some op, ordered := bit (o.w 0) 48, key := fld (s.ctxWord o.ctx 9) 63 32, mlen := fld (o.w 3) 31 0, local_ := (o.w 2).toNat, addr := 0, tag := (o.w 5).toNat, inline_ := some ((bytesOf (o.words.drop 8)).take (fld (o.w 3) 31 0)) }).fin)) ∧
  (∀ (s : State) (op fa pc f : Nat) (o : Op) (c : Cq), s.Starts op 6 o c → fld (o.w 3) 31 24 ≤ 8 → fld (o.w 3) 23 20 ≤ 5
    → s.rank o.ctx (fld (o.w 1) 63 32) = .ok (fa, pc) → s.findIfl o.ctx fa pc = some f → s.SendsNext o fa pc → ∃ t,
    exec (.atomic op) s = .next t ∧ (tFind t.ifl f).map (fun x => x.queue) = (tFind s.ifl f).map (fun x => x.queue ++
    [{ SendItem.blank 4 (fld (o.w 1) 31 29) (bit (o.w 1) 28) with op := some op, ordered := bit (o.w 0) 48, key := fld (o.w 3) 63 32, local_ := (o.w 2).toNat, addr := (o.w 4).toNat, tag := 16 * fld (o.w 3) 23 20 + fld (o.w 3) 31 24, payload := beBytes 8 (o.w 5).toNat ++ beBytes 8 (o.w 6).toNat }])
    ∧ (tFind t.ops op).map (fun x => x.performed) = some true ∧ t = { s with ops := t.ops, ifl := t.ifl })

/-- CT_SET, CT_INC, TRIG and EQ_ARM (R195, R196, R199, R200): CT_SET gives the context’s counter word 2; CT_INC adds
word 2 [47:0] to success modulo 2^48 and word 3 [15:0] to failure, which saturates; no byte of HBM outside the
counter changes. A TRIG whose threshold is above its counter’s success is kept with its wrapped command, behind
those already kept. For an event queue of the queue’s own function and link, an arm with the position that the
producer has seen equal to the device’s arms it; with a record that it has not seen an interrupt with the queue’s
vector goes at once, where the link's interrupts are enabled, and the queue is not armed; in both cases the banks
named are released, except the one being written. Each completes with status 0. -/
def Obligations.CountersTriggersAndEventQueues : Prop :=
  (∀ (s : State) (op : Nat) (o : Op) (c : Cq), s.Starts op 0x10 o c → s.ctOk o.ctx (cmdCt o.words) = true → inHbm
    (s.ctAddr o.ctx (cmdCt o.words)) = true → inHbm (s.ctAddr o.ctx (cmdCt o.words) + 7) = true → ∃ t, exec (.ctSet
    op) s = .next t ∧ t.hbmWord (s.ctAddr o.ctx (cmdCt o.words)) = o.w 2 ∧ (∀ a : Nat, a < s.ctAddr o.ctx (cmdCt
    o.words) ∨ s.ctAddr o.ctx (cmdCt o.words) + 8 ≤ a → t.hbmByte a = s.hbmByte a) ∧ tFind t.ops op = none ∧ (t.tl
    c.link).reqQ = (s.tl c.link).reqQ ++ [c.cpl o 0 0]) ∧
  (∀ (s : State) (op : Nat) (o : Op) (c : Cq), s.Starts op 0x11 o c → s.ctOk o.ctx (cmdCt o.words) = true → inHbm
    (s.ctAddr o.ctx (cmdCt o.words)) = true → inHbm (s.ctAddr o.ctx (cmdCt o.words) + 7) = true → ∃ t, exec (.ctInc
    op) s = .next t ∧ fld (t.hbmWord (s.ctAddr o.ctx (cmdCt o.words))) 47 0 = (fld (s.hbmWord (s.ctAddr o.ctx (cmdCt
    o.words))) 47 0 + fld (o.w 2) 47 0) % 2 ^ 48 ∧ fld (t.hbmWord (s.ctAddr o.ctx (cmdCt o.words))) 63 48 = min 0xFFFF
    (fld (s.hbmWord (s.ctAddr o.ctx (cmdCt o.words))) 63 48 + fld (o.w 3) 15 0) ∧ (∀ a : Nat, a < s.ctAddr o.ctx
    (cmdCt o.words) ∨ s.ctAddr o.ctx (cmdCt o.words) + 8 ≤ a → t.hbmByte a = s.hbmByte a) ∧ tFind t.ops op = none ∧
    (t.tl c.link).reqQ = (s.tl c.link).reqQ ++ [c.cpl o 0 0]) ∧
  (∀ (s : State) (op : Nat) (o : Op) (c : Cq), s.Starts op 0x12 o c → trigBad o = false → s.ctOk o.ctx (cmdCt o.words) =
    true → (s.trigs.filter (fun t => t.ctx = o.ctx)).length < fld (s.ctxWord o.ctx 4) 47 36 → fld (s.hbmWord (s.ctAddr
    o.ctx (cmdCt o.words))) 47 0 < fld (o.w 2) 47 0 → ∃ t, exec (.trig op) s = .next t ∧ t.trigs = s.trigs ++
    [⟨o.queue, o.ctx, c.slot o.count, cmdCt o.words, fld (o.w 2) 47 0, o.words.drop 8⟩] ∧ tFind t.ops op = none ∧
    (t.tl c.link).reqQ = (s.tl c.link).reqQ ++ [c.cpl o 0 0] ∧ t.hbm = s.hbm) ∧
  (∀ (s : State) (op e : Nat) (o : Op) (c : Cq) (q : Eq), s.Starts op 0x14 o c → e = fld (o.w 1) 63 46 → tFind s.eqs e =
    some q → (q.fn = c.fn ∧ q.link = c.link) → bit (o.w 1) 43 = true → q.wpos % 2048 = fld (o.w 1) 41 32 + 1024 * fld
    (o.w 1) 42 42 → ∃ t, exec (.eqArm op) s = .next t ∧ (tFind t.eqs e).map (fun x => (x.armed, x.wpos)) = some (true,
    q.wpos) ∧ (tFind t.eqs e).map (fun x => (x.rel0, x.rel1)) = some (q.rel0 || (bit (o.w 1) 44 && !(!q.bank &&
    q.room)), q.rel1 || (bit (o.w 1) 45 && !(q.bank && q.room))) ∧ tFind t.ops op = none ∧ (t.tl c.link).reqQ = (s.tl
    c.link).reqQ ++ [c.cpl o 0 0] ∧ t.hbm = s.hbm) ∧
  (∀ (s : State) (op e : Nat) (o : Op) (c : Cq) (q : Eq), s.Starts op 0x14 o c → e = fld (o.w 1) 63 46 → tFind s.eqs e =
    some q → (q.fn = c.fn ∧ q.link = c.link) → bit (o.w 1) 43 = true → q.wpos % 2048 ≠ fld (o.w 1) 41 32 + 1024 * fld
    (o.w 1) 42 42 → s.rb (.hlCtrl (hlinkOf q.link)) 1 = true → ∃ t, exec (.eqArm op) s = .next t ∧ (tFind t.eqs e).map
    (fun x => x.armed) = some false ∧ (tFind t.eqs e).map (fun x => (x.rel0, x.rel1)) = some (q.rel0 || (bit (o.w 1)
    44 && !(!q.bank && q.room)), q.rel1 || (bit (o.w 1) 45 && !(q.bank && q.room))) ∧ (t.tl c.link).reqQ = (s.tl
    c.link).reqQ ++ [.intr q.fn q.vector e, c.cpl o 0 0] ∧ tFind t.ops op = none ∧ t.hbm = s.hbm)

/-- RECV_POST, PROBE and MT_CANCEL (R232, R236, R240, R253, R254, R257): a receive that arrives in ring order, has a
match entry to take and for which no unexpected message is found becomes a POSTED entry with the context's posting
sequence, which rises, and one that arrives before an earlier receive or probe of its queue has no effect yet; a
probe that finds none completes with status 0, detail 0, and one that finds a record with detail 1 and its rank,
length and tag in words 3 and 4, leaving the record; MT_CANCEL removes the posted receive of its queue and slot,
which completes with CANCELLED (0x0F), detail 1, and answers 1, or answers 2, with the queue and the slot, where
there is none. -/
def Obligations.ReceivesProbesAndCancels : Prop :=
  (∀ (s : State) (op : Nat) (o : Op) (c : Cq) (x : Ctx), s.Starts op 8 o c → s.ctx? o.ctx = some x → (s.inOrder o = true
    ∧ s.meFits o.ctx = true ∧ s.queueDying o = false) → s.findUx o.ctx (fld (o.w 1) 63 32) (o.w 4).toNat (o.w 5).toNat
    = none → ∃ t, exec (.recvPost op) s = .next t ∧ tFind t.mes s.serial = some
    { Me.blank o.ctx 1 with cls := recvClass (fld (o.w 1) 63 32) (o.w 5).toNat, slot := lowestFree (s.slots o.ctx false), rank := fld (o.w 1) 63 32, tag := (o.w 4).toNat, mask := (o.w 5).toNat, seq := x.postSeq, buffer := (o.w 2).toNat, bufLen := fld (o.w 3) 31 0, ct := fld (o.w 1) 27 16, op := op }
    ∧ (t.ctx? o.ctx).map (fun y => y.postSeq) = some ((x.postSeq + 1) % 2 ^ 48) ∧ (tFind t.ops op).map (fun y =>
    y.performed) = some true ∧ t.serial = s.serial + 1 ∧ (t.tl c.link).reqQ = (s.tl c.link).reqQ ∧ t.hbm = s.hbm) ∧
  (∀ (s : State) (op : Nat) (o : Op), s.Calm → tFind s.ops op = some o → s.inOrder o = false → exec (.recvPost op) s =
    .next (s)) ∧
  (∀ (s : State) (op : Nat) (o : Op) (c : Cq), s.Starts op 9 o c → s.inOrder o = true → cmdCt o.words = 0xFFF → s.findUx
    o.ctx (fld (o.w 1) 63 32) (o.w 4).toNat (o.w 5).toNat = none → ∃ t, exec (.probe op) s = .next t ∧ tFind t.ops op
    = none ∧ (t.tl c.link).reqQ = (s.tl c.link).reqQ ++ [c.cpl o 0 0] ∧ t.mes = s.mes ∧ t.hbm = s.hbm) ∧
  (∀ (s : State) (op m : Nat) (o : Op) (c : Cq) (x : Me), s.Starts op 9 o c → s.inOrder o = true → cmdCt o.words = 0xFFF
    → s.findUx o.ctx (fld (o.w 1) 63 32) (o.w 4).toNat (o.w 5).toNat = some m → tFind s.mes m = some x → (c.slotAddr
    o.count + 24) % 4096 ≤ 4080 → c.admin = false → ∃ t, exec (.probe op) s = .next t ∧ tFind t.ops op = none ∧ (t.tl
    c.link).reqQ = (s.tl c.link).reqQ ++ [.wr ⟨c.slotAddr o.count + 24, leBytes 8 (x.rank * 2 ^ 32 + x.mlen) ++
    leBytes 8 x.tag, false, some c.ctx, c.fn, 0, .none⟩, c.cpl o 0 1] ∧ t.mes = s.mes ∧ t.hbm = s.hbm) ∧
  (∀ (s : State) (d : Dom) (q slot : BitVec 20), s.Calm → s.live (.domain d) = true → s.mes = [] → ∃ t, exec (.mtCancel d
    q slot) s = .next t ∧ t.rf (.mtCancel d) 63 61 = 2 ∧ t.rf (.mtCancel d) 60 41 = q.toNat ∧ t.rf (.mtCancel d) 40 21
    = slot.toNat ∧ t = { s with regs := t.regs }) ∧
  (∀ (s : State) (d : Dom) (q slot : BitVec 20) (m : Nat) (x : Me) (o : Op) (c : Cq), s.Calm → s.live (.domain d) = true
    → s.mes = [(m, x)] → (x.kind = 1 ∧ x.discard = false ∧ x.blocks = []) → s.Plain x.op o c → o.queue = q.toNat →
    c.slot o.count = slot.toNat → s.cqDom c = d.val → cmdCt o.words = 0xFFF → hdrOp (o.w 0) = 8 → ∃ t, exec (.mtCancel
    d q slot) s = .next t ∧ t.rf (.mtCancel d) 63 61 = 1 ∧ t.mes = [] ∧ tFind t.ops x.op = none ∧ (t.tl c.link).reqQ =
    (s.tl c.link).reqQ ++ [c.cpl o 0x0F 1] ∧ t.hbm = s.hbm)

/-- CTX_CREATE, CTX_DESTROY, CQ_CREATE, CQ_DESTROY, EQ_CREATE and EQ_DESTROY (R181, R188, R191, R192): a creation of a
context reads its 256-byte image on the admin queue's link; a context that no queue names is destroyed, and its
record in HBM, whose place in the context share is the model's (log entry 142), is no longer valid; a queue is
created ACTIVE and empty, an event queue with both banks released and disarmed; an idle queue, and an event queue
that nothing names, are destroyed. Each but the first completes with status 0. -/
def Obligations.ContextsQueuesAndEventQueuesAreMade : Prop :=
  (∀ (s : State) (op : Nat) (o : Op) (c : Cq), s.Starts op 0x30 o c → fld (o.w 2) 5 0 = 0 → s.ctxFree (fld (o.w 1) 63 42)
    = true → s.hlLost o.link = false → (o.w 2).toNat % 4096 ≤ 3840 → ∃ t, exec (.ctxCreate op) s = .next t ∧ (t.tl
    o.link).reqQ = (s.tl o.link).reqQ ++ [.rd ⟨(o.w 2).toNat, 256, none, o.fn, .image op 0⟩] ∧ (tFind t.ops op).map
    (fun x => (x.performed, x.left)) = some (true, 1) ∧ t.ctxs = s.ctxs ∧ t.hbm = s.hbm) ∧
  (∀ (s : State) (op : Nat) (o : Op) (c : Cq), s.Starts op 0x31 o c → (s.ctx? (fld (o.w 1) 63 42)).isSome = true →
    s.cqs.any (fun e => !e.2.admin && e.2.ctx = fld (o.w 1) 63 42) = false → c.admin = true → ∃ t, exec (.ctxDestroy
    op) s = .next t ∧ t.ctx? (fld (o.w 1) 63 42) = none ∧ tFind t.ops op = none ∧ (t.tl c.link).reqQ = (s.tl
    c.link).reqQ ++ [c.cpl o 0 0] ∧ t.hbm = (s.ctxStore (fld (o.w 1) 63 42) 2 [setBit (s.ctxWord (fld (o.w 1) 63 42)
    2) 63 false]).hbm) ∧
  (∀ (s : State) (op q : Nat) (o : Op) (c : Cq), s.Starts op 0x32 o c → q = fld (o.w 1) 63 44 → fld (o.w 3) 63 56 ≠ 0 →
    tFind s.cqs q = none → adminIndex q = false → (6 ≤ fld (o.w 1) 16 12 ∧ fld (o.w 1) 16 12 ≤ 20) → s.allMemory
    o.link (fld (o.w 2) 63 12 * 4096) (64 * 2 ^ fld (o.w 1) 16 12) = true → (s.ctx? (fld (o.w 1) 43 22)).isSome = true
    → (s.ctxFn (fld (o.w 1) 43 22) = fld (o.w 1) 21 17 ∧ s.ctxLink (fld (o.w 1) 43 22) = o.link ∧ fld (o.w 1) 11 8 / 8
    = s.ctxDom (fld (o.w 1) 43 22)) → ∃ t, exec (.cqCreate op) s = .next t ∧ tFind t.cqs q = some (Cq.new s.serial
    o.link (fld (o.w 1) 21 17) (fld (o.w 1) 43 22) (fld (o.w 1) 11 8) (fld (o.w 1) 16 12) (fld (o.w 2) 63 12 * 4096)
    (fld (o.w 3) 63 56) (fld (o.w 3) 55 50 + 1) false (bit (o.w 3) 49) (bit (o.w 3) 48) (fld (o.w 3) 47 30)) ∧ tFind
    t.ops op = none ∧ (t.tl c.link).reqQ = (s.tl c.link).reqQ ++ [c.cpl o 0 0] ∧ t.hbm = s.hbm) ∧
  (∀ (s : State) (op q : Nat) (o : Op) (c x : Cq), s.Starts op 0x33 o c → q = fld (o.w 1) 63 44 → q ≠ o.queue →
    adminIndex q = false → tFind s.cqs q = some x → (x.open_ = [] ∧ x.dying = false ∧ x.fired = []) → s.mes = [] → ∃
    t, exec (.cqDestroy op) s = .next t ∧ tFind t.cqs q = none ∧ t.trigs = s.trigs.filter (fun t => t.queue ≠ q) ∧
    tFind t.ops op = none ∧ (t.tl c.link).reqQ = (s.tl c.link).reqQ ++ [c.cpl o 0 0] ∧ t.hbm = s.hbm) ∧
  (∀ (s : State) (op : Nat) (o : Op) (c : Cq), s.Starts op 0x34 o c → tFind s.eqs (fld (o.w 1) 63 46) = none →
    s.allMemory o.link (fld (o.w 2) 63 16 * 65536) 65536 = true → ∃ t, exec (.eqCreate op) s = .next t ∧ tFind t.eqs
    (fld (o.w 1) 63 46) = some ⟨fld (o.w 1) 45 41, fld (o.w 1) 40 30, fld (o.w 1) 29 29, o.link, fld (o.w 2) 63 16 *
    65536, true, true, 0, false, 0, false⟩ ∧ tFind t.ops op = none ∧ (t.tl c.link).reqQ = (s.tl c.link).reqQ ++ [c.cpl
    o 0 0] ∧ t.hbm = s.hbm) ∧
  (∀ (s : State) (op : Nat) (o : Op) (c : Cq), s.Starts op 0x35 o c → (tFind s.eqs (fld (o.w 1) 63 46)).isSome = true →
    s.eqNamed (fld (o.w 1) 63 46) = false → ∃ t, exec (.eqDestroy op) s = .next t ∧ tFind t.eqs (fld (o.w 1) 63 46) =
    none ∧ tFind t.ops op = none ∧ (t.tl c.link).reqQ = (s.tl c.link).reqQ ++ [c.cpl o 0 0] ∧ t.hbm = s.hbm)

/-- CQ_STOP, CQ_START, CQ_RESUME, CQ_ABORT, CQ_FLUSH and CQ_ADMIN_WRITE (R206, R501): an ACTIVE queue stops, a STOPPED
one starts, a HELD one with no access trapped becomes ACTIVE, by RESUME and by ABORT; FLUSH of a STOPPED queue
completes an entry that has not started with ABORTED (0x0F) and the queue becomes ACTIVE with fetch at pi; an
action not allowed in the queue's state (STOP only in ACTIVE, START in STOPPED, RESUME and ABORT in HELD, FLUSH in
STOPPED or ERROR) changes no queue and is noted. A write of CQ_ADMIN with valid, a legal k and a ring in host
memory makes the link's admin queue where there is none. -/
def Obligations.QueueActions : Prop :=
  (∀ (s : State) (d : Dom) (q : BitVec 20) (c : Cq), s.Calm → s.live (.domain d) = true → tFind s.cqs q.toNat = some c →
    s.cqDom c = d.val → c.state = 1 → ∃ t, exec (.cqStop d q) s = .next t ∧ tFind t.cqs q.toNat = some
    { c with state := 3 } ∧ t = { s with cqs := t.cqs }) ∧
  (∀ (s : State) (d : Dom) (q : BitVec 20) (c : Cq), s.Calm → s.live (.domain d) = true → tFind s.cqs q.toNat = some c →
    s.cqDom c = d.val → c.state = 3 → c.flushing = none → ∃ t, exec (.cqStart d q) s = .next t ∧ tFind t.cqs q.toNat =
    some { c with state := 1 } ∧ t = { s with cqs := t.cqs }) ∧
  (∀ (s : State) (d : Dom) (q : BitVec 20) (c : Cq), s.Calm → s.live (.domain d) = true → tFind s.cqs q.toNat = some c →
    s.cqDom c = d.val → c.state ≠ 3 → ∃ t, exec (.cqStart d q) s = .next t ∧ t.cqs = s.cqs ∧ t.rb (.ftStatus (.domain
    d)) 0 = true ∧ t.hbm = s.hbm) ∧
  (∀ (s : State) (d : Dom) (q : BitVec 20) (c : Cq), s.Calm → s.live (.domain d) = true → tFind s.cqs q.toNat = some c →
    s.cqDom c = d.val → c.state ≠ 1 → ∃ t, exec (.cqStop d q) s = .next t ∧ t.cqs = s.cqs ∧ t.rb (.ftStatus (.domain
    d)) 0 = true ∧ t.hbm = s.hbm) ∧
  (∀ (s : State) (d : Dom) (q : BitVec 20) (c : Cq), s.Calm → s.live (.domain d) = true → tFind s.cqs q.toNat = some c →
    s.cqDom c = d.val → c.state ≠ 2 → ∃ t, exec (.cqResume d q) s = .next t ∧ t.cqs = s.cqs ∧ t.rb (.ftStatus (.domain
    d)) 0 = true ∧ t.hbm = s.hbm) ∧
  (∀ (s : State) (d : Dom) (q : BitVec 20) (c : Cq), s.Calm → s.live (.domain d) = true → tFind s.cqs q.toNat = some c →
    s.cqDom c = d.val → c.state ≠ 2 → ∃ t, exec (.cqAbort d q) s = .next t ∧ t.cqs = s.cqs ∧ t.rb (.ftStatus (.domain
    d)) 0 = true ∧ t.hbm = s.hbm) ∧
  (∀ (s : State) (d : Dom) (q : BitVec 20) (c : Cq), s.Calm → s.live (.domain d) = true → tFind s.cqs q.toNat = some c →
    s.cqDom c = d.val → (c.state = 0 ∨ c.state = 1 ∨ c.state = 2) → ∃ t, exec (.cqFlush d q) s = .next t ∧ t.cqs =
    s.cqs ∧ t.rb (.ftStatus (.domain d)) 0 = true ∧ t.hbm = s.hbm) ∧
  (∀ (s : State) (d : Dom) (q : BitVec 20) (c : Cq), s.Calm → s.live (.domain d) = true → tFind s.cqs q.toNat = some c →
    s.cqDom c = d.val → c.state = 2 → s.trappedUses q.toNat = [] → ∃ t, exec (.cqResume d q) s = .next t ∧ tFind t.cqs
    q.toNat = some { c with state := 1 } ∧ t = { s with cqs := t.cqs }) ∧
  (∀ (s : State) (d : Dom) (q : BitVec 20) (c : Cq), s.Calm → s.live (.domain d) = true → tFind s.cqs q.toNat = some c →
    s.cqDom c = d.val → c.state = 2 → s.trappedUses q.toNat = [] → ∃ t, exec (.cqAbort d q) s = .next t ∧ tFind t.cqs
    q.toNat = some { c with state := 1 } ∧ t = { s with cqs := t.cqs }) ∧
  (∀ (s : State) (d : Dom) (q : BitVec 20) (c : Cq) (g : BitVec 512) (w : Word), s.Calm → s.live (.domain d) = true →
    tFind s.cqs q.toNat = some c → s.cqDom c = d.val → c.state = 3 → (c.flushing = none ∧ c.dying = false ∧ c.open_ =
    [] ∧ c.admin = false) → s.hlLost c.link = false → (tFind c.gran c.next = some g ∧ c.bell.contains c.next = true) →
    w = BitVec.ofNat 64 g.toNat → b2n (bit w 63) = c.lap c.next → c.slot c.next + hdrLen w ≤ 2 ^ c.k → c.next + hdrLen
    w = c.pi → c.slotAddr c.next % 4096 ≤ 4088 → c.oldest = c.next → ∃ t, exec (.cqFlush d q) s = .next t ∧ (tFind
    t.cqs q.toNat).map (fun x => (x.state, x.next, x.oldest, x.pi)) = some (1, c.pi, c.pi, c.pi) ∧ (tFind t.cqs
    q.toNat).map (fun x => x.flushing) = some none ∧ (t.tl c.link).reqQ = (s.tl c.link).reqQ ++ [.wr ⟨c.slotAddr
    c.next, leBytes 8 (cplHeader w 0x0F 0).toNat, false, some c.ctx, c.fn, 0, .none⟩] ∧ t.ops = s.ops ∧ t.hbm = s.hbm) ∧
  (∀ (s : State) (h : HLink) (v : BitVec 64), s.Calm → s.live (.hostlink h) = true → s.rb (.cqAdmin h) 0 = false → bit v
    0 = true → fld v 11 6 = 0 → (6 ≤ fld v 5 1 ∧ fld v 5 1 ≤ 12) → s.allMemory h.val (fld v 63 12 * 4096) (64 * 2 ^
    fld v 5 1) = true → tFind s.cqs (0xFFFF8 + h.val) = none → ∃ t, exec (.cqAdminWrite h v) s = .next t ∧ tFind t.cqs
    (0xFFFF8 + h.val) = some (Cq.new s.serial h.val 31 0 (2 * h.val) (fld v 5 1) (fld v 63 12 * 4096) 1 1 true false
    false 0) ∧ t.reg (.cqAdmin h) = v ∧ t = { s with regs := t.regs, cqs := t.cqs, serial := s.serial + 1 })

/-- RING_FETCH, ARBITRATION_ROUND, INVALIDATE, INVALIDATE_ACK and WALK_READ (R176, R179, R198, R211, R214, R226,
R227): a queue with granules posted and not held asks for at most 16 of them, within one page, in one read; a
round of a stall with one ready queue that has one entry, whose first checks hold, starts it: the fetch count
passes it, and it is a started command with the entry's words; with no other in progress an INVALIDATE is active
at once and every cached entry that its scope and leaf_only name is gone; with the last stall's acknowledgement it
completes with status 0; a walk whose entry is a table pointer, in stage 1 with stage 2 off and the next table in
HBM, goes one level down to the entry that the input address indexes; a walk in host memory waits for its read. -/
def Obligations.QueuesFetchInvalidateAndWalk : Prop :=
  (∀ (s : State) (q : BitVec 20) (c : Cq) (n0 n : Nat), s.Calm → s.live (.domain 0) = true → tFind s.cqs q.toNat = some c
    → (c.state = 1 ∨ c.state = 2) → c.dying = false → c.admin = false → c.readsOut < 4 → s.hlLost c.link = false → n0
    = c.firstGap (2 ^ c.k) (max c.asked c.next) → n = min (c.gap 16 n0) ((4096 - c.slotAddr n0 % 4096) / 64) → 0 < n →
    ∃ t, exec (.ringFetch q) s = .next t ∧ (t.tl c.link).reqQ = (s.tl c.link).reqQ ++ [.rd ⟨c.slotAddr n0, 64 * n,
    some c.ctx, c.fn, .ring q.toNat c.id n0⟩] ∧ tFind t.cqs q.toNat = some
    { c with asked := n0 + n, readsOut := c.readsOut + 1 } ∧ n ≤ 16 ∧ t = { s with cqs := t.cqs, ht := t.ht }) ∧
  (∀ (s : State) (st : Stall) (q n : Nat) (c : Cq) (ws : List Word), s.Calm → s.live (.stall st) = true → s.domRuns
    (st.val / 8) = true → s.ops = [] → s.stallQueues st.val = [q] → tFind s.cqs q = some c → (c.fired = [] ∧ c.weight
    ≠ 0 ∧ c.burst ≠ 0) → s.ready c = true → c.head = .entry n ws → c.pi = c.next + n → cmdCheck c.admin c.priv ws = 0
    → s.tack.stopping = false → ∃ t, exec (.arbitrationRound st) s = .next t ∧ (tFind t.cqs q).map (fun x => (x.next,
    x.pi, x.state)) = some (c.next + n, c.pi, 1) ∧ (tFind t.ops s.serial).map (fun x => (x.src, x.queue, x.count)) =
    some (.entry, q, c.next) ∧ (tFind t.ops s.serial).map (fun x => (x.ctx, x.words, x.performed)) = some (c.ctx, ws,
    false) ∧ t.serial = s.serial + 1 ∧ t.hbm = s.hbm) ∧
  (∀ (s : State) (op : Nat) (o : Op) (c : Cq), s.Starts op 0x20 o c → invalBad o = false → s.invals = [] → ∃ t, exec
    (.invalidate op) s = .next t ∧ tFind t.invals op = some ⟨o.stall / 8, fld (o.w 1) 63 61, bit (o.w 1) 60, fld (o.w
    1) 47 32, fld (o.w 1) 31 16, fld (o.w 2) 63 12 * 4096, fld (o.w 3) 31 0, true, []⟩ ∧ (∀ (i : Inval) (st : Nat) (e
    : XlEntry), tFind t.invals op = some i → e ∈ tGet [] t.xl st → i.removes e = false) ∧ (tFind t.ops op).map (fun x
    => x.performed) = some true ∧ t.hbm = s.hbm ∧ t.regs = s.regs) ∧
  (∀ (s : State) (st : Stall) (op : Nat) (o : Op) (c : Cq) (i : Inval), s.Calm → s.live (.stall st) = true → s.Plain op o
    c → hdrOp (o.w 0) = 0x20 → s.invals = [(op, i)] → i.active = true → i.acks.contains st.val = false → (∀ n : Fin
    16, n ≠ st → i.acks.contains n.val = true) → s.uses = [] → s.walks = [] → ∃ t, exec (.invalidateAck st op) s =
    .next t ∧ t.invals = [] ∧ tFind t.ops op = none ∧ (t.tl c.link).reqQ = (s.tl c.link).reqQ ++ [c.cpl o 0 0] ∧ t.hbm
    = s.hbm) ∧
  (∀ (s : State) (w a l : Nat) (x : Walk) (e : Word), s.Calm → s.live (.domain 0) = true → tFind s.walks w = some x →
    x.ptr = .hbm a → e = s.hbmWord a → (bit e 0 = true ∧ bit e 1 = false ∧ bit e 2 = true) → entBad e x.level x.input
    = false → x.stage2 = false → l = x.level + 1 → s.inShare x.cx.dom 6 (entAddr e + 8 * xlIndex x.va l) 8 = true → ∃
    t, exec (.walkRead w) s = .next t ∧ (tFind t.walks w).map (fun y => (y.level, y.ptr, y.input, y.users)) = some (l,
    .hbm (entAddr e + 8 * xlIndex x.va l), x.va, x.users) ∧ t =
    { s with walks := t.walks, xl := t.xl, dir := t.dir, hints := t.hints, regs := t.regs, frees := t.frees }) ∧
  (∀ (s : State) (w h a : Nat) (x : Walk), s.Calm → s.live (.domain 0) = true → tFind s.walks w = some x → x.ptr = .host
    h a → (x.failed = 0 ∧ x.entry = none) → exec (.walkRead w) s = .next (s))

/-- ALU, ADDI, ANDI, ORI, XORI, SLTI, SLTIU, SHI, LUI, SHORI and CSRR (R333, R336, R337, R339): rd receives the result
that the tables give, pc rises by 1 and the budget falls by 1; the run's other registers, private scratch and
every other Groom stay, and with sampling off nothing else changes but the Groom's counters. A write to g0 is
discarded (R320). ALU writes what its fn gives (the values are stated in AluFollowsItsTable). -/
def Obligations.GroomInstructionsWriteTheirRegister : Prop :=
  (∀ (s : State) (g : GroomId) (r : Run) (rd a b : BitVec 5) (fn : BitVec 11) (v : Word), s.Fetches g r (encR 0x00 rd a b
    fn) → aluFn fn.toNat (r.get a) (r.get b) = some v → (aluUnary fn.toNat = true → b = 0) → ∃ t, exec (.alu g rd a b
    fn) s = .next t ∧ s.Retires t g (s.ran r rd v (r.pc + 1))) ∧
  (∀ (s : State) (g : GroomId) (r : Run) (rd a : BitVec 5) (i : BitVec 16), s.Fetches g r (encI 0x01 rd a i) → ∃ t, exec
    (.addi g rd a i) s = .next t ∧ s.Retires t g (s.ran r rd (r.get a + i.signExtend 64) (r.pc + 1))) ∧
  (∀ (s : State) (g : GroomId) (r : Run) (rd a : BitVec 5) (i : BitVec 16), s.Fetches g r (encI 0x02 rd a i) → ∃ t, exec
    (.andi g rd a i) s = .next t ∧ s.Retires t g (s.ran r rd (r.get a &&& i.setWidth 64) (r.pc + 1))) ∧
  (∀ (s : State) (g : GroomId) (r : Run) (rd a : BitVec 5) (i : BitVec 16), s.Fetches g r (encI 0x03 rd a i) → ∃ t, exec
    (.ori g rd a i) s = .next t ∧ s.Retires t g (s.ran r rd (r.get a ||| i.setWidth 64) (r.pc + 1))) ∧
  (∀ (s : State) (g : GroomId) (r : Run) (rd a : BitVec 5) (i : BitVec 16), s.Fetches g r (encI 0x04 rd a i) → ∃ t, exec
    (.xori g rd a i) s = .next t ∧ s.Retires t g (s.ran r rd (r.get a ^^^ i.setWidth 64) (r.pc + 1))) ∧
  (∀ (s : State) (g : GroomId) (r : Run) (rd a : BitVec 5) (i : BitVec 16), s.Fetches g r (encI 0x05 rd a i) → ∃ t, exec
    (.slti g rd a i) s = .next t ∧ s.Retires t g (s.ran r rd (if (r.get a).toInt < i.toInt then 1 else 0) (r.pc + 1))) ∧
  (∀ (s : State) (g : GroomId) (r : Run) (rd a : BitVec 5) (i : BitVec 16), s.Fetches g r (encI 0x06 rd a i) → ∃ t, exec
    (.sltiu g rd a i) s = .next t ∧ s.Retires t g (s.ran r rd (if (r.get a).toNat < (i.signExtend 64).toNat then 1
    else 0) (r.pc + 1))) ∧
  (∀ (s : State) (g : GroomId) (r : Run) (rd a : BitVec 5) (i : BitVec 16), s.Fetches g r (encI 0x07 rd a i) → fld i 15 8
    = 0 → fld i 7 6 ≤ 2 → ∃ t, exec (.shi g rd a i) s = .next t ∧ s.Retires t g (s.ran r rd (if fld i 7 6 = 0 then
    r.get a <<< fld i 5 0 else if fld i 7 6 = 1 then r.get a >>> fld i 5 0 else (r.get a).sshiftRight (fld i 5 0))
    (r.pc + 1))) ∧
  (∀ (s : State) (g : GroomId) (r : Run) (rd : BitVec 5) (i : BitVec 16), s.Fetches g r (encI 0x08 rd 0 i) → ∃ t, exec
    (.lui g rd 0 i) s = .next t ∧ s.Retires t g (s.ran r rd (i.signExtend 64 <<< 16) (r.pc + 1))) ∧
  (∀ (s : State) (g : GroomId) (r : Run) (rd a : BitVec 5) (i : BitVec 16), s.Fetches g r (encI 0x09 rd a i) → ∃ t, exec
    (.shori g rd a i) s = .next t ∧ s.Retires t g (s.ran r rd ((r.get a <<< 16) ||| i.setWidth 64) (r.pc + 1))) ∧
  (∀ (s : State) (g : GroomId) (r : Run) (rd : BitVec 5) (i : BitVec 16), s.Fetches g r (encI 0x34 rd 0 i) → i.toNat ≤ 6
    → ∃ t, exec (.csrr g rd 0 i) s = .next t ∧ s.Retires t g (s.ran r rd ([s.nt, BitVec.ofNat 64 (r.budget - 1),
    mkWord 64 [(8, 8, g.s.val / 8), (7, 4, g.s.val % 8), (3, 0, g.g.val)], BitVec.ofNat 64 r.ref.kind, r.timer,
    BitVec.ofNat 64 (s.latchTimer r).events, BitVec.ofNat 64 (r.handles.foldl (fun a h => a ||| 2 ^ h.1) 0)].getD
    i.toNat 0) (r.pc + 1))) ∧
  (∀ (s : State) (g : GroomId) (r : Run) (rd : BitVec 5) (i : BitVec 16) (k : Fin 8), s.Fetches g r (encI 0x34 rd 0 i) →
    i.toNat = 16 + k.val → ∃ t, exec (.csrr g rd 0 i) s = .next t ∧ s.Retires t g (s.ran r rd (if s.rb (.pmGsel g k)
    60 = true ∧ s.rf (.pmGsel g k) 37 16 = r.ctx then t.reg (.pmGcnt g k) else 0) (r.pc + 1)))

/-- BEQ, BNE, BLT, BGE, BLTU, BGEU, JAL, JALR, HALT, FENCE and CSRW (R331, R333, R335, R336, R339, R355): a branch
taken moves the pc by the signed offset, one not taken by 1; JAL writes pc + 1 to g31, JALR to rd; HALT ends the
run, of a header run only with a disposition of the table; FENCE.SC drains the store buffer and goes on once it is
empty, so not while a write of host memory is not acknowledged; CSRW sets TIMER. Each uses one instruction of the
budget and writes no other register. -/
def Obligations.GroomControlFlow : Prop :=
  (∀ (s : State) (g : GroomId) (r : Run) (a b : BitVec 5) (off : BitVec 16), s.Fetches g r (encI 0x18 a b off) → ∃ t,
    exec (.beq g a b off) s = .next t ∧ s.Retires t g (s.ran r 0 0 (if r.get a = r.get b then (((r.pc : Int) +
    off.toInt) % 2 ^ 64).toNat else r.pc + 1))) ∧
  (∀ (s : State) (g : GroomId) (r : Run) (a b : BitVec 5) (off : BitVec 16), s.Fetches g r (encI 0x19 a b off) → ∃ t,
    exec (.bne g a b off) s = .next t ∧ s.Retires t g (s.ran r 0 0 (if r.get a ≠ r.get b then (((r.pc : Int) +
    off.toInt) % 2 ^ 64).toNat else r.pc + 1))) ∧
  (∀ (s : State) (g : GroomId) (r : Run) (a b : BitVec 5) (off : BitVec 16), s.Fetches g r (encI 0x1A a b off) → ∃ t,
    exec (.blt g a b off) s = .next t ∧ s.Retires t g (s.ran r 0 0 (if (r.get a).toInt < (r.get b).toInt then (((r.pc
    : Int) + off.toInt) % 2 ^ 64).toNat else r.pc + 1))) ∧
  (∀ (s : State) (g : GroomId) (r : Run) (a b : BitVec 5) (off : BitVec 16), s.Fetches g r (encI 0x1B a b off) → ∃ t,
    exec (.bge g a b off) s = .next t ∧ s.Retires t g (s.ran r 0 0 (if (r.get b).toInt ≤ (r.get a).toInt then (((r.pc
    : Int) + off.toInt) % 2 ^ 64).toNat else r.pc + 1))) ∧
  (∀ (s : State) (g : GroomId) (r : Run) (a b : BitVec 5) (off : BitVec 16), s.Fetches g r (encI 0x1C a b off) → ∃ t,
    exec (.bltu g a b off) s = .next t ∧ s.Retires t g (s.ran r 0 0 (if (r.get a).toNat < (r.get b).toNat then (((r.pc
    : Int) + off.toInt) % 2 ^ 64).toNat else r.pc + 1))) ∧
  (∀ (s : State) (g : GroomId) (r : Run) (a b : BitVec 5) (off : BitVec 16), s.Fetches g r (encI 0x1D a b off) → ∃ t,
    exec (.bgeu g a b off) s = .next t ∧ s.Retires t g (s.ran r 0 0 (if (r.get b).toNat ≤ (r.get a).toNat then (((r.pc
    : Int) + off.toInt) % 2 ^ 64).toNat else r.pc + 1))) ∧
  (∀ (s : State) (g : GroomId) (r : Run) (off : BitVec 26), s.Fetches g r (encJ 0x1E off) → ∃ t, exec (.jal g off) s =
    .next t ∧ s.Retires t g (s.ran r 31 (BitVec.ofNat 64 (r.pc + 1)) (((r.pc : Int) + off.toInt) % 2 ^ 64).toNat)) ∧
  (∀ (s : State) (g : GroomId) (r : Run) (rd a : BitVec 5) (i : BitVec 16), s.Fetches g r (encI 0x1F rd a i) → ∃ t, exec
    (.jalr g rd a i) s = .next t ∧ s.Retires t g (s.ran r rd (BitVec.ofNat 64 (r.pc + 1)) (r.get a + i.signExtend
    64).toNat)) ∧
  (∀ (s : State) (g : GroomId) (r : Run), s.Fetches g r (encI 0x3F 0 0 0) → (r.ref.kind = 0 → (r.get 1).toNat ≤ 2) → ∃ t,
    exec (.halt g 0 0 0) s = .next t ∧ s.Retires t g { s.ran r 0 0 r.pc with halted := true }) ∧
  (∀ (s : State) (g : GroomId) (r : Run), s.Fetches g r (encI 0x33 0 0 0) → r.stores = [] → ∃ t, exec (.fence g 0 0 0) s
    = .next t ∧ s.Loads t g (s.ran r 0 0 (r.pc + 1))) ∧
  (∀ (s : State) (g : GroomId) (r : Run), s.Fetches g r (encI 0x33 0 0 0) → r.stores ≠ [] → r.stores.all (fun x =>
    x.busy) = true → ∃ t, exec (.fence g 0 0 0) s = .next t ∧ (t.groom g).run = some (s.latchTimer r) ∧ t =
    { s with grooms := t.grooms }) ∧
  (∀ (s : State) (g : GroomId) (r : Run) (x : GStore), s.Fetches g r (encI 0x33 0 0 0) → r.stores = [x] → (x.phys = none
    ∧ x.busy = false ∧ x.use = none ∧ x.addr < 0x20000) → ∃ t, exec (.fence g 0 0 0) s = .next t ∧ (t.groom g).run.map
    Run.bare = some { s.ran r 0 0 (r.pc + 1) with stores := [] }.bare ∧ (t.groom g).scratch = memWrite (s.groom
    g).scratch x.addr (leBytes x.size x.data) ∧ (s.rb (.pmSample g.s) 63 = false → t =
    { s with grooms := t.grooms, regs := t.regs })) ∧
  (∀ (s : State) (g : GroomId) (r : Run) (a : BitVec 5), s.Fetches g r (encI 0x35 0 a 4) → ∃ t, exec (.csrw g 0 a 4) s =
    .next t ∧ s.Retires t g { s.ran r 0 0 (r.pc + 1) with timer := r.get a, timerHit := false })

/-- LD, ST, AMOL, LDV, STV and HAMO (R320, R321, R336, R338, R340, R342, R344, R378): an aligned load from private
scratch, a bound slice of shared scratch or the packet window writes its bytes, little-endian and zero-extended,
to rd; a load takes what the run's own buffered store holds of it; a store with the store buffer empty is
performed, or stays in the buffer for a time that is not said (R354); AMOL combines 8 bytes of shared scratch and
returns the old value; LDV, STV and HAMO act on the HBM that a cached translation gives (instruction sampling
off), HAMO dropping cached copies of its line. Where a translation leads to host memory, LDV is one read on the
context's link and the run waits. -/
def Obligations.GroomLoadsStoresAndAtomics : Prop :=
  (∀ (s : State) (g : GroomId) (r : Run) (rd b : BitVec 5) (z m : BitVec 2) (off : BitVec 12) (a n : Nat), s.Fetches g r
    (encM 0x10 rd b z m off) → m.toNat < 2 → n = 2 ^ z.toNat → a = (r.get b + off.signExtend 64).toNat → a % n = 0 → a
    + n ≤ 0x20000 → r.meets false a n = false → ∃ t, exec (.ld g rd b z m off) s = .next t ∧ s.Loads t g (s.ran r rd
    (BitVec.ofNat 64 ((r.own false a n).getD (ofLe (memRead (s.groom g).scratch a n)))) (r.pc + 1))) ∧
  (∀ (s : State) (g : GroomId) (r : Run) (rd b : BitVec 5) (z m : BitVec 2) (off : BitVec 12) (a n : Nat), s.Fetches g r
    (encM 0x10 rd b z m off) → m.toNat < 2 → n = 2 ^ z.toNat → a = (r.get b + off.signExtend 64).toNat → a % n = 0 →
    (0x100000 ≤ a ∧ a + n ≤ 0x300000) → (fld (r.bind.getD 2 0) 39 8).testBit ((a - 0x100000) / 0x10000) = true →
    r.meets false a n = false → ∃ t, exec (.ld g rd b z m off) s = .next t ∧ (s.Loads t g (s.ran r rd (BitVec.ofNat 64
    ((r.own false a n).getD (ofLe (memRead s.buf (blockBase (.stall g.s) + 0x800000 + (a - 0x100000)) n)))) (r.pc +
    1)) ∨ (m = 0 ∧ r.own false a n = none ∧ r.sees false (blockBase (.stall g.s) + 0x800000 + (a - 0x100000)) n =
    false ∧ s.Loads t g (s.ran r rd (BitVec.ofNat 64 (ofLe (memRead r.pastBuf (blockBase (.stall g.s) + 0x800000 + (a
    - 0x100000)) n))) (r.pc + 1))))) ∧
  (∀ (s : State) (g : GroomId) (r : Run) (rd b : BitVec 5) (z m : BitVec 2) (off : BitVec 12) (a n : Nat), s.Fetches g r
    (encM 0x10 rd b z m off) → m.toNat < 2 → n = 2 ^ z.toNat → a = (r.get b + off.signExtend 64).toNat → a % n = 0 →
    (0x400000 ≤ a ∧ a + n ≤ 0x401040) → r.meets false a n = false → ∃ t, exec (.ld g rd b z m off) s = .next t ∧
    s.Loads t g (s.ran r rd (BitVec.ofNat 64 ((r.own false a n).getD (ofLe ((List.range n).map (fun i =>
    r.ref.window.getD (a - 0x400000 + i) 0))))) (r.pc + 1))) ∧
  (∀ (s : State) (g : GroomId) (r : Run) (x b : BitVec 5) (z m : BitVec 2) (off : BitVec 12) (a n : Nat), s.Fetches g r
    (encM 0x11 x b z m off) → (m = 0 ∨ m = 2) → n = 2 ^ z.toNat → a = (r.get b + off.signExtend 64).toNat → a % n = 0
    → a + n ≤ 0x20000 → r.stores = [] → ∃ t, exec (.st g x b z m off) s = .next t ∧ (((t.groom g).run = some
    { s.ran r 0 0 (r.pc + 1) with nextStore := r.nextStore + 1 } ∧ (t.groom g).scratch = memWrite (s.groom g).scratch
    a (leBytes n ((r.get x).toNat % 2 ^ (8 * n)))) ∨ ((t.groom g).run = some
    { s.ran r 0 0 (r.pc + 1) with nextStore := r.nextStore + 1, stores := [⟨r.nextStore, none, a, n, (r.get x).toNat % 2 ^ (8 * n), decide (m = 2), false, none⟩] }
    ∧ (t.groom g).scratch = (s.groom g).scratch)) ∧ t.buf = s.buf ∧ (∀ h : GroomId, h ≠ g → t.groom h = s.groom h) ∧
    (s.rb (.pmSample g.s) 63 = false → t = { s with grooms := t.grooms, regs := t.regs, frees := t.frees })) ∧
  (∀ (s : State) (g : GroomId) (r : Run) (x b : BitVec 5) (z m : BitVec 2) (off : BitVec 12) (a n : Nat), s.Fetches g r
    (encM 0x11 x b z m off) → (m = 0 ∨ m = 2) → n = 2 ^ z.toNat → a = (r.get b + off.signExtend 64).toNat → a % n = 0
    → (0x100000 ≤ a ∧ a + n ≤ 0x300000) → (fld (r.bind.getD 2 0) 39 8).testBit ((a - 0x100000) / 0x10000) = true →
    r.stores = [] → ∃ t, exec (.st g x b z m off) s = .next t ∧ (((t.groom g).run.map Run.bare = some
    { s.ran r 0 0 (r.pc + 1) with nextStore := r.nextStore + 1 }.bare ∧ t.buf = memWrite s.buf (blockBase (.stall g.s)
    + 0x800000 + (a - 0x100000)) (leBytes n ((r.get x).toNat % 2 ^ (8 * n)))) ∨ ((t.groom g).run = some
    { s.ran r 0 0 (r.pc + 1) with nextStore := r.nextStore + 1, stores := [⟨r.nextStore, none, a, n, (r.get x).toNat % 2 ^ (8 * n), decide (m = 2), false, none⟩] }
    ∧ t.buf = s.buf)) ∧ (t.groom g).scratch = (s.groom g).scratch ∧ (∀ h : GroomId, h ≠ g → t.groom h = s.groom h) ∧
    (s.rb (.pmSample g.s) 63 = false → t =
    { s with grooms := t.grooms, regs := t.regs, buf := t.buf, frees := t.frees })) ∧
  (∀ (s : State) (g : GroomId) (r : Run) (rd a b : BitVec 5) (fn : BitVec 11) (o old : Word), s.Fetches g r (encR 0x14 rd
    a b fn) → fn.toNat ≤ 4 → (r.get a).toNat = 0x100000 + o.toNat → o.toNat % 8 = 0 → o.toNat < 0x200000 → (fld
    (r.bind.getD 2 0) 39 8).testBit (o.toNat / 0x10000) = true → r.stores = [] → old = BitVec.ofNat 64 (ofLe (memRead
    s.buf (blockBase (.stall g.s) + 0x800000 + o.toNat) 8)) → ∃ t, exec (.amol g rd a b fn) s = .next t ∧ (t.groom
    g).run.map Run.bare = some (s.ran r rd old (r.pc + 1)).bare ∧ (t.groom g).scratch = (s.groom g).scratch ∧ t.buf =
    memWrite s.buf (blockBase (.stall g.s) + 0x800000 + o.toNat) (leBytes 8 (([r.get b, old + r.get b, old &&& r.get
    b, old ||| r.get b, if old = r.get rd then r.get b else old] : List Word).getD fn.toNat 0).toNat) ∧ (∀ h :
    GroomId, h ≠ g → t.groom h = s.groom h) ∧ (s.rb (.pmSample g.s) 63 = false → t =
    { s with grooms := t.grooms, regs := t.regs, buf := t.buf })) ∧
  (∀ (s : State) (g : GroomId) (r : Run) (rd b : BitVec 5) (z m : BitVec 2) (off : BitVec 12) (a n p : Nat) (e :
    XlEntry), s.Fetches g r (encM 0x12 rd b z m off) → m.toNat < 2 → n = 2 ^ z.toNat → a = (r.get b + off.signExtend
    64).toNat → a % n = 0 → r.meets true a n = false → s.rb (.pmSample g.s) 63 = false → s.Hits g.s.val r.ctx a 0 e →
    e.hbm = true → p = e.out + (a - e.va) → ∃ t, exec (.ldv g rd b z m off) s = .next t ∧ ((t.groom g).run.map
    Run.bare = some (s.ran r rd (BitVec.ofNat 64 ((r.own true a n).getD (ofLe (s.hbmRead p n)))) (r.pc + 1)).bare ∨ (m
    = 0 ∧ r.own true a n = none ∧ r.sees true p n = false ∧ (t.groom g).run.map Run.bare = some (s.ran r rd
    (BitVec.ofNat 64 (ofLe (memRead r.pastHbm (p - hbmBase) n))) (r.pc + 1)).bare)) ∧ (t.groom g).scratch = (s.groom
    g).scratch ∧ t.hbm = s.hbm ∧ t.buf = s.buf ∧ t.ht = s.ht) ∧
  (∀ (s : State) (g : GroomId) (r : Run) (rd b : BitVec 5) (z m : BitVec 2) (off : BitVec 12) (a n p : Nat) (e :
    XlEntry), s.Fetches g r (encM 0x12 rd b z m off) → m.toNat < 2 → n = 2 ^ z.toNat → a = (r.get b + off.signExtend
    64).toNat → a % n = 0 → r.meets true a n = false → s.rb (.pmSample g.s) 63 = false → s.Hits g.s.val r.ctx a 0 e →
    e.hbm = false → p = e.out + (a - e.va) → s.hlLost (s.ctxLink r.ctx) = false → (s.ctx? r.ctx).any (fun y =>
    !y.dead) = true → ∃ t, exec (.ldv g rd b z m off) s = .next t ∧ (t.groom g).run = some
    { s.ran r 0 0 r.pc with wait := .ldv a (r.own true a n) (decide (m = 1)) } ∧ (t.tl (s.ctxLink r.ctx)).reqQ = (s.tl
    (s.ctxLink r.ctx)).reqQ ++ [.rd ⟨p, n, some r.ctx, s.ctxFn r.ctx, .use (s.serial + 1)⟩] ∧ t.hbm = s.hbm ∧ t.buf =
    s.buf) ∧
  (∀ (s : State) (g : GroomId) (r : Run) (x b : BitVec 5) (z m : BitVec 2) (off : BitVec 12) (a n p : Nat) (e : XlEntry),
    s.Fetches g r (encM 0x13 x b z m off) → (m = 0 ∨ m = 2) → n = 2 ^ z.toNat → a = (r.get b + off.signExtend
    64).toNat → a % n = 0 → r.stores = [] → s.rb (.pmSample g.s) 63 = false → s.Hits g.s.val r.ctx a 1 e → e.hbm =
    true → p = e.out + (a - e.va) → ∃ t, exec (.stv g x b z m off) s = .next t ∧ (((t.groom g).run.map Run.bare = some
    { s.ran r 0 0 (r.pc + 1) with nextStore := r.nextStore + 1 }.bare ∧ t.hbm = (s.hbmWrite p (leBytes n (r.get
    x).toNat)).hbm) ∨ ((∃ u, (t.groom g).run = some
    { s.ran r 0 0 (r.pc + 1) with nextStore := r.nextStore + 1, stores := [⟨r.nextStore, some (.hbm p), a, n, (r.get x).toNat % 2 ^ (8 * n), decide (m = 2), false, u⟩] })
    ∧ t.hbm = s.hbm)) ∧ (t.groom g).scratch = (s.groom g).scratch ∧ t.buf = s.buf ∧ t.ht = s.ht) ∧
  (∀ (s : State) (g : GroomId) (r : Run) (rd a b : BitVec 5) (fn : BitVec 11) (v n p : Nat) (e : XlEntry), s.Fetches g r
    (encR 0x15 rd a b fn) → atomOk fn.toNat = true → atomBad fn.toNat = false → n = atomSize (fn.toNat / 16 % 8) → v =
    (r.get a).toNat → v % n = 0 → r.stores = [] → s.rb (.pmSample g.s) 63 = false → s.Hits g.s.val r.ctx v 2 e → e.hbm
    = true → p = e.out + (v - e.va) → ∃ t, exec (.hamo g rd a b fn) s = .next t ∧ (t.groom g).run.map Run.bare = some
    (s.ran r rd (BitVec.ofNat 64 (ofLe (s.hbmRead p n))) (r.pc + 1)).bare ∧ (t.groom g).scratch = (s.groom g).scratch
    ∧ t.hbm = (s.hbmWrite p (leBytes n (atomNew fn.toNat (ofLe (s.hbmRead p n)) (r.get b).toNat (r.get
    rd).toNat))).hbm ∧ t.dir = (s.dropCopies p n).dir ∧ t.buf = s.buf ∧ t.ht = s.ht)

/-- ISSUE, WFE, SIGNAL, HLOCK and HUNLOCK (R343, R344, R345, R385): a well-formed image of an allowed opcode becomes a
command of the bound context and rd its smallest free handle, and with 8 outstanding the run waits for one to
complete; WFE takes the pending events of its mask, or sleeps; SIGNAL makes event 3 pending in every other run of
the context in the stall that has not ended, and in no other; an acquire of a free lock writes 0 (1 after
abandonment) and owns it, of a held one queues the run, or with try writes 2; a release of an owned lock that
nobody waits for frees it. -/
def Obligations.GroomWaitsAndSignals : Prop :=
  (∀ (s : State) (g : GroomId) (r : Run) (rd b : BitVec 5) (a h : Nat) (w : Word), s.Fetches g r (encI 0x30 rd b 0) →
    r.handles.length < 8 → r.imageWaits (r.get b).toNat = false → a = (r.get b).toNat → a % 64 = 0 → a + 64 ≤ 0x20000
    → w = BitVec.ofNat 64 (ofLe (memRead (s.groom g).scratch a 8)) → a + 64 * hdrLen w ≤ 0x20000 → hdrEvent w = false
    → hdrOp w ∈ [1, 2, 3, 4, 5, 6, 0x10, 0x11] → h < 8 → r.handles.all (fun e => e.1 ≠ h) = true → (List.range h).all
    (fun k => r.handles.any (fun e => e.1 = k)) = true → ∃ t, exec (.issue g rd b 0) s = .next t ∧ (t.groom g).run =
    some { s.ran r rd (BitVec.ofNat 64 h) (r.pc + 1) with handles := r.handles ++ [(h, a, s.serial)] } ∧ (tFind t.ops
    s.serial).map (fun o => (o.ctx, o.link, o.fn, o.stall)) = some (r.ctx, s.ctxLink r.ctx, s.ctxFn r.ctx, g.s.val) ∧
    (tFind t.ops s.serial).map (fun o => o.words) = some (wordsOf (8 * hdrLen w) (memRead (s.groom g).scratch a (64 *
    hdrLen w))) ∧ t.serial = s.serial + 1 ∧ (t.groom g).scratch = (s.groom g).scratch ∧ (s.rb (.pmSample g.s) 63 =
    false → t = { s with grooms := t.grooms, regs := t.regs, ops := t.ops, serial := t.serial })) ∧
  (∀ (s : State) (g : GroomId) (r : Run) (rd b : BitVec 5), s.Fetches g r (encI 0x30 rd b 0) → 8 ≤ r.handles.length →
    r.stores = [] → ∃ t, exec (.issue g rd b 0) s = .next t ∧ (t.groom g).run = some
    { s.latchTimer r with wait := .issue } ∧ t = { s with grooms := t.grooms }) ∧
  (∀ (s : State) (g : GroomId) (r : Run) (rd b : BitVec 5) (e m : Nat), s.Fetches g r (encI 0x31 rd b 0) → m = fld (r.get
    b) 4 0 → e = (s.latchTimer r).events → e &&& m ≠ 0 → ∃ t, exec (.wfe g rd b 0) s = .next t ∧ s.Retires t g
    { s.ran r rd (BitVec.ofNat 64 (e &&& m)) (r.pc + 1) with events := e - (e &&& m) }) ∧
  (∀ (s : State) (g : GroomId) (r : Run) (rd b : BitVec 5) (m : Nat), s.Fetches g r (encI 0x31 rd b 0) → m = fld (r.get
    b) 4 0 → m ≠ 0 → (s.latchTimer r).events &&& m = 0 → ∃ t, exec (.wfe g rd b 0) s = .next t ∧ s.Retires t g
    { s.ran r 0 0 r.pc with wait := .wfe rd.toNat m }) ∧
  (∀ (s : State) (g : GroomId) (r : Run), s.Fetches g r (encI 0x32 0 0 0) → ∃ t, exec (.signal g 0 0 0) s = .next t ∧
    (t.groom g).run = some (s.ran r 0 0 (r.pc + 1)) ∧ (∀ h : GroomId, h ≠ g → t.groom h =
    { s.groom h with run := (s.groom h).run.map (fun x => if h.s = g.s ∧ x.ctx = r.ctx ∧ x.exc = none ∧ x.halted = false then wakeRun 8 x else x) })
    ∧ (s.rb (.pmSample g.s) 63 = false → t = { s with grooms := t.grooms, regs := t.regs })) ∧
  (∀ (s : State) (g : GroomId) (r : Run) (rd b : BitVec 5) (i : BitVec 16) (d n : Nat), s.Fetches g r (encI 0x16 rd b i)
    → fld i 15 9 = 0 → d = g.s.val / 8 → n = fld (r.get b) 15 0 → (s.lock d n).owner = none → s.waitsOn d (.run g) =
    none → ∃ t, exec (.hlock g rd b i) s = .next t ∧ (t.groom g).run.map Run.bare = some (s.ran r rd (if (s.lock d
    n).abandoned = true then 1 else 0) (r.pc + 1)).bare ∧ t.lock d n =
    { s.lock d n with owner := some (.run g), prio := fld i 7 0, gen := ((s.lock d n).gen + 1) % 65536 } ∧ (s.rb
    (.pmSample g.s) 63 = false → t = { s with grooms := t.grooms, regs := t.regs, locks := t.locks })) ∧
  (∀ (s : State) (g : GroomId) (r : Run) (rd b : BitVec 5) (i : BitVec 16) (d n : Nat) (w : Holder), s.Fetches g r (encI
    0x16 rd b i) → fld i 15 9 = 0 → d = g.s.val / 8 → n = fld (r.get b) 15 0 → (s.lock d n).owner = some w → w ≠ .run
    g → bit i 8 = true → ∃ t, exec (.hlock g rd b i) s = .next t ∧ s.Loads t g (s.ran r rd 2 (r.pc + 1))) ∧
  (∀ (s : State) (g : GroomId) (r : Run) (rd b : BitVec 5) (i : BitVec 16) (d n : Nat) (w : Holder), s.Fetches g r (encI
    0x16 rd b i) → fld i 15 8 = 0 → d = g.s.val / 8 → n = fld (r.get b) 15 0 → (s.lock d n).owner = some w → w ≠ .run
    g → s.waitsOn d (.run g) = none → fld i 7 0 ≤ (s.lock d n).eff → ∃ t, exec (.hlock g rd b i) s = .next t ∧
    (t.groom g).run = some { s.ran r 0 0 r.pc with wait := .hlock rd.toNat n } ∧ t.lock d n =
    { s.lock d n with waiters := (s.lock d n).waiters ++ [⟨.run g, fld i 7 0, s.clk⟩] } ∧ (s.rb (.pmSample g.s) 63 =
    false → t = { s with grooms := t.grooms, regs := t.regs, locks := t.locks })) ∧
  (∀ (s : State) (g : GroomId) (r : Run) (b : BitVec 5) (d n : Nat), s.Fetches g r (encI 0x17 0 b 0) → r.stores = [] → d
    = g.s.val / 8 → n = fld (r.get b) 15 0 → (s.lock d n).owner = some (.run g) → (s.lock d n).waiters = [] → ∃ t,
    exec (.hunlock g 0 b 0) s = .next t ∧ (t.groom g).run = some (s.ran r 0 0 (r.pc + 1)) ∧ t.lock d n =
    { s.lock d n with owner := none, prio := 0, abandoned := false } ∧ (s.rb (.pmSample g.s) 63 = false → t =
    { s with grooms := t.grooms, regs := t.regs, locks := t.locks }))

/-- Exceptions of a Groom's run (R320, R321, R333, R336, R337, R338, R339, R343, R344, R345, R346, R347): ILLEGAL for
a reserved major opcode, fn or field, a CSR that is not listed or a mask of 0; MISALIGNED, LOCAL_RANGE and
LOCAL_PERM of local accesses; FETCH_RANGE beyond the image; BUDGET with none left; ISSUE_INVALID, HITCH and
DISPOSITION with their details. The excepting instruction changes no register, pc or private or shared scratch of
the run; the run keeps the exception's kind, detail, address and pc for its end, and GR_FAULT and GR_COUNT are as
before until then. -/
def Obligations.GroomExceptions : Prop :=
  (∀ (s : State) (g : GroomId) (r : Run) (w : BitVec 32), s.Fetches g r w → majorOk (fld w 31 26) = false → ∃ t, exec
    (.halt g 0 0 0) s = .next t ∧ s.Raised t g r 1 0 0) ∧
  (∀ (s : State) (g : GroomId) (r : Run) (rd a b : BitVec 5) (fn : BitVec 11), s.Fetches g r (encR 0x00 rd a b fn) → (20
    < fn.toNat ∨ (16 ≤ fn.toNat ∧ fn.toNat ≤ 19 ∧ b ≠ 0)) → ∃ t, exec (.alu g rd a b fn) s = .next t ∧ s.Raised t g r
    1 0 0) ∧
  (∀ (s : State) (g : GroomId) (r : Run) (rd a : BitVec 5) (i : BitVec 16), s.Fetches g r (encI 0x34 rd a i) → (a ≠ 0 ∨
    (6 < i.toNat ∧ i.toNat < 16) ∨ 23 < i.toNat) → ∃ t, exec (.csrr g rd a i) s = .next t ∧ s.Raised t g r 1 0 0) ∧
  (∀ (s : State) (g : GroomId) (r : Run) (rd a : BitVec 5) (i : BitVec 16), s.Fetches g r (encI 0x35 rd a i) → (rd ≠ 0 ∨
    i ≠ 4) → ∃ t, exec (.csrw g rd a i) s = .next t ∧ s.Raised t g r 1 0 0) ∧
  (∀ (s : State) (g : GroomId) (r : Run) (rd b : BitVec 5) (i : BitVec 16), s.Fetches g r (encI 0x31 rd b i) → (i ≠ 0 ∨
    fld (r.get b) 4 0 = 0) → ∃ t, exec (.wfe g rd b i) s = .next t ∧ s.Raised t g r 1 0 0) ∧
  (∀ (s : State) (g : GroomId) (r : Run) (rd b : BitVec 5) (z m : BitVec 2) (off : BitVec 12) (a : Nat), s.Fetches g r
    (encM 0x10 rd b z m off) → m.toNat < 2 → a = (r.get b + off.signExtend 64).toNat → a % 2 ^ z.toNat ≠ 0 → r.stores
    = [] → ∃ t, exec (.ld g rd b z m off) s = .next t ∧ s.Raised t g r 2 0 a) ∧
  (∀ (s : State) (g : GroomId) (r : Run) (x b : BitVec 5) (z m : BitVec 2) (off : BitVec 12) (a : Nat), s.Fetches g r
    (encM 0x11 x b z m off) → (m = 0 ∨ m = 2) → a = (r.get b + off.signExtend 64).toNat → a % 2 ^ z.toNat = 0 →
    ((0x20000 ≤ a ∧ a < 0x100000) ∨ (0x300000 ≤ a ∧ a < 0x400000) ∨ 0x401040 ≤ a) → r.stores.length < 16 → ∃ t, exec
    (.st g x b z m off) s = .next t ∧ s.Raised t g r 3 0 a) ∧
  (∀ (s : State) (g : GroomId) (r : Run) (x b : BitVec 5) (z m : BitVec 2) (off : BitVec 12) (a : Nat), s.Fetches g r
    (encM 0x11 x b z m off) → (m = 0 ∨ m = 2) → a = (r.get b + off.signExtend 64).toNat → a % 2 ^ z.toNat = 0 →
    ((0x100000 ≤ a ∧ a < 0x300000 ∧ (fld (r.bind.getD 2 0) 39 8).testBit ((a - 0x100000) / 0x10000) = false) ∨
    (0x400000 ≤ a ∧ a < 0x401040)) → r.stores.length < 16 → ∃ t, exec (.st g x b z m off) s = .next t ∧ s.Raised t g r
    4 0 a) ∧
  (∀ (s : State) (g : GroomId) (r : Run) (rd a : BitVec 5) (i : BitVec 16), (s.Calm ∧ s.live (.stall g.s) = true ∧
    s.domRuns (g.s.val / 8) = true) → (s.groom g).run = some r → (r.halted = false ∧ r.exc = none ∧ r.wait = .none) →
    1 ≤ r.budget → r.pages * 1024 ≤ r.pc → s.tack.stopping = false → ∃ t, exec (.addi g rd a i) s = .next t ∧ s.Raised
    t g r 5 0 0 ∧ (t.groom g).run.map (fun x => x.budget) = some (r.budget - 1)) ∧
  (∀ (s : State) (g : GroomId) (r : Run) (rd a : BitVec 5) (i : BitVec 16), (s.Calm ∧ s.live (.stall g.s) = true ∧
    s.domRuns (g.s.val / 8) = true) → (s.groom g).run = some r → (r.halted = false ∧ r.exc = none ∧ r.wait = .none) →
    r.budget = 0 → s.tack.stopping = false → ∃ t, exec (.addi g rd a i) s = .next t ∧ s.Raised t g r 11 0 0 ∧ t.rb
    (.grStatus g.s) 0 = true) ∧
  (∀ (s : State) (g : GroomId) (r : Run) (rd b : BitVec 5) (a : Nat) (w : Word), s.Fetches g r (encI 0x30 rd b 0) →
    r.handles.length < 8 → a = (r.get b).toNat → a % 64 = 0 → a + 64 ≤ 0x20000 → w = BitVec.ofNat 64 (ofLe (memRead
    (s.groom g).scratch a 8)) → a + 64 * hdrLen w ≤ 0x20000 → hdrEvent w = false → hdrOp w ∉ [1, 2, 3, 4, 5, 6, 0x10,
    0x11] → ∃ t, exec (.issue g rd b 0) s = .next t ∧ s.Raised t g r 9 2 a ∧ t.ops = s.ops) ∧
  (∀ (s : State) (g : GroomId) (r : Run) (b : BitVec 5) (d n : Nat), s.Fetches g r (encI 0x17 0 b 0) → r.stores = [] → d
    = g.s.val / 8 → n = fld (r.get b) 15 0 → (s.lock d n).owner ≠ some (.run g) → ∃ t, exec (.hunlock g 0 b 0) s =
    .next t ∧ s.Raised t g r 10 0x10 0 ∧ t.lock d n = (s.dropWaits d (.run g)).lock d n) ∧
  (∀ (s : State) (g : GroomId) (r : Run), s.Fetches g r (encI 0x3F 0 0 0) → r.ref.kind = 0 → 2 < (r.get 1).toNat → ∃ t,
    exec (.halt g 0 0 0) s = .next t ∧ s.Raised t g r 13 (fld (r.get 1) 7 0) 0 ∧ (t.groom g).run.map (fun x =>
    x.halted) = some false)

/-- RUN_DISPATCH, RUN_END, RUN_TIMEOUT, GROOM_TIMER_EVENT, GROOM_RESET, GROOM_FENCED and GR_RESUME (R322, R324, R327,
R329, R331, R332, R334, R345, R349, R465): a run starts at its event's entry with the listed registers, in scratch
cleared unless the Groom's last run was its context's; it ends once its commands and stores are done, counted, its
locks released and marked abandoned, a dropped packet leaving the packets in delivery; the exception of a run that
ends so is recorded in GR_FAULT, counted and noted, and suspends the event's binding where fault_action is 0; a
run that is past its deadline raises TIMEOUT; a reset ends a fence and clears scratch; a fence switches the Groom
off. -/
def Obligations.RunsStartAndEnd : Prop :=
  (∀ (s : State) (g : GroomId) (q : RunQ) (x : RunRef) (rest : List RunRef) (w1 : Word), s.Calm → (s.live (.stall g.s) =
    true ∧ s.domRuns (g.s.val / 8) = true) → s.holdDom ≠ some (g.s.val / 8) → (s.groom g).run = none → (s.groom
    g).fenced = false → (s.rb (.grCtrl g.s) 0 = true ∧ s.rb (.grCtrl g.s) (32 + g.g.val) = false) → s.runq g.s.val = q
    → q.runs = x :: rest → bit (s.ctxWord x.ctx 22) 56 = false → (x.kind = 0 ∨ x.kind = 1) → w1 = s.ctxWord x.ctx 21 →
    s.tack.stopping = false → ∃ t, exec (.runDispatch g false) s = .next t ∧ (t.groom g).run = some
    { id := s.runs, ref := x, bind := [s.ctxWord x.ctx 20, w1, s.ctxWord x.ctx 22, s.ctxWord x.ctx 23], regs := [0, 0, BitVec.ofNat 64 x.kind, BitVec.ofNat 64 x.ctx, BitVec.ofNat 64 x.code, BitVec.ofNat 64 x.psn, 0x400000, BitVec.ofNat 64 x.n, s.ctxWord x.ctx 23] ++ List.replicate 23 0, pc := if x.kind = 0 then fld w1 63 46 else fld w1 45 28, budget := x.budget.getD (fld (s.ctxWord x.ctx 22) 52 40), since := s.clk, wait := .none, stores := [], nextStore := 0, handles := [], events := 0, timer := 0, timerHit := false, pastHbm := s.hbm, pastBuf := s.buf, seen := [], halted := false, exc := none }
    ∧ (t.groom g).scratch = (if (s.groom g).prevCtx = some x.ctx then (s.groom g).scratch else []) ∧ t.runq g.s.val =
    { q with runs := rest } ∧ t = { s with grooms := t.grooms, runqs := t.runqs, runs := s.runs + 1 }) ∧
  (∀ (s : State) (g : GroomId) (q : RunQ) (x : RunRef) (rest : List RunRef), s.Calm → (s.live (.stall g.s) = true ∧
    s.domRuns (g.s.val / 8) = true) → s.holdDom ≠ some (g.s.val / 8) → (s.groom g).run = none → (s.groom g).fenced =
    false → (s.rb (.grCtrl g.s) 0 = true ∧ s.rb (.grCtrl g.s) (32 + g.g.val) = false) → s.runq g.s.val = q → q.cpls =
    x :: rest → bit (s.ctxWord x.ctx 22) 56 = false → x.kind = 2 → s.tack.stopping = false → ∃ t, exec (.runDispatch g
    true) s = .next t ∧ (t.groom g).run.map (fun r => (r.pc, r.budget, r.ref)) = some (fld (s.ctxWord x.ctx 21) 27 10,
    x.budget.getD (fld (s.ctxWord x.ctx 22) 52 40), x) ∧ (t.groom g).run.map (fun r => r.regs) = some ([0, 0, 2,
    BitVec.ofNat 64 x.ctx, BitVec.ofNat 64 x.code, 0, 0x400000, 0, s.ctxWord x.ctx 23] ++ List.replicate 23 0) ∧
    (t.groom g).scratch = (if (s.groom g).prevCtx = some x.ctx then (s.groom g).scratch else []) ∧ t.runq g.s.val =
    { q with cpls := rest ++ q.spill.take 1, spill := q.spill.drop 1 } ∧ t =
    { s with grooms := t.grooms, runqs := t.runqs, runs := s.runs + 1 }) ∧
  (∀ (s : State) (g : GroomId) (r : Run), s.Calm → (s.live (.stall g.s) = true ∧ s.domRuns (g.s.val / 8) = true) →
    (s.groom g).run = some r → (r.halted = true ∧ r.exc = none) → (r.handles = [] ∧ r.stores = []) → r.ref.kind ≠ 0 →
    s.holds (g.s.val / 8) (.run g) = false → s.waitsOn (g.s.val / 8) (.run g) = none → ∃ t, exec (.runEnd g) s = .next
    t ∧ t.groom g = { s.groom g with run := none, prevCtx := (s.ctx? r.ctx).map (fun _ => r.ctx) } ∧ t.rf (.grCount
    g.s) 63 32 = min (s.rf (.grCount g.s) 63 32 + 1) (2 ^ 32 - 1) ∧ t = { s with grooms := t.grooms, regs := t.regs }) ∧
  (∀ (s : State) (g : GroomId) (r : Run) (kind detail addr pc : Nat), s.Calm → (s.live (.stall g.s) = true ∧ s.domRuns
    (g.s.val / 8) = true) → (s.groom g).run = some r → r.exc = some (kind, detail, addr, pc) → (r.handles = [] ∧
    r.stores = []) → r.ref.kind ≠ 0 → ∃ t, exec (.runEnd g) s = .next t ∧ (t.groom g).run = none ∧ s.Reported t g r
    kind detail addr pc ∧ t.rf (.grCount g.s) 63 32 = min (s.rf (.grCount g.s) 63 32 + 1) (2 ^ 32 - 1)) ∧
  (∀ (s : State) (g : GroomId) (r : Run) (n : Nat), s.Calm → (s.live (.stall g.s) = true ∧ s.domRuns (g.s.val / 8) =
    true) → (s.groom g).run = some r → (r.halted = true ∨ r.exc.isSome = true) → (r.handles = [] ∧ r.stores = []) →
    r.ref.kind ≠ 0 → s.locks = [(65536 * (g.s.val / 8) + n, { owner := some (.run g) })] → n < 65536 → ∃ t, exec
    (.runEnd g) s = .next t ∧ t.groom g =
    { s.groom g with run := none, prevCtx := (s.ctx? r.ctx).map (fun _ => r.ctx) } ∧ t.lock (g.s.val / 8) n =
    { owner := none, abandoned := true } ∧ t.rb (.hkStatus (domOf (g.s.val / 8))) 0 = true ∧ t.rb (.ftStatus (.stall
    g.s)) 0 = true) ∧
  (∀ (s : State) (g : GroomId) (r : Run) (p : Pkt) (f : TFlow), s.Calm → (s.live (.stall g.s) = true ∧ s.domRuns (g.s.val
    / 8) = true) → (s.groom g).run = some r → ((r.halted = true ∧ (r.get 1).toNat = 2) ∨ r.exc.isSome = true) →
    (r.handles = [] ∧ r.stores = []) → r.ref.kind = 0 → s.issuedPkt r.ref.tf r.ref.psn = some p → tFind s.tfl r.ref.tf
    = some f → s.holds (g.s.val / 8) (.run g) = false → s.waitsOn (g.s.val / 8) (.run g) = none → ∃ t, exec (.runEnd
    g) s = .next t ∧ t.groom g = { s.groom g with run := none, prevCtx := (s.ctx? r.ctx).map (fun _ => r.ctx) } ∧
    (tFind t.tfl r.ref.tf).map (fun f => f.issued) = some (f.issued.filter (fun i => i.psn ≠ r.ref.psn)) ∧ (tFind
    t.tfl r.ref.tf).map (fun f => (f.cum, f.deliv)) = some (f.cum, f.deliv) ∧ t.hbm = s.hbm) ∧
  (∀ (s u : State) (g : GroomId) (dt : Nat) (r : Run), u = s.elapse dt → u.Calm → (u.live (.stall g.s) = true ∧ u.domRuns
    (g.s.val / 8) = true) → (u.groom g).run = some r → (r.halted = false ∧ r.exc = none) → r.since + us (u.rf (.grCtrl
    g.s) 25 16) < u.clk → ∃ t, exec (.runTimeout g dt) s = .next t ∧ u.Raised t g r 12 0 0 ∧ t.rb (.grStatus g.s) 1 =
    true) ∧
  (∀ (s u : State) (g : GroomId) (dt : Nat) (r : Run), u = s.elapse dt → u.Calm → (u.live (.stall g.s) = true ∧ u.domRuns
    (g.s.val / 8) = true) → (u.groom g).run = some r → (r.halted = false ∧ r.exc = none) → (r.timer ≠ 0 ∧ r.timerHit =
    false ∧ r.timer.toNat ≤ u.nt.toNat) → ∃ t, exec (.groomTimerEvent g dt) s = .next t ∧ (t.groom g).run = some
    (wakeRun 4 { r with timerHit := true }) ∧ t = { u with grooms := t.grooms }) ∧
  (∀ (s : State) (g : GroomId) (r : Run), s.Calm → (s.live (.stall g.s) = true ∧ s.domRuns (g.s.val / 8) = true) →
    (s.groom g).run = some r → r.exc = none → (s.groom g).fenced = false → ∃ t, exec (.groomReset g) s = .next t ∧
    s.Raised t g r 14 0 0) ∧
  (∀ (s : State) (g : GroomId), s.Calm → (s.live (.stall g.s) = true ∧ s.domRuns (g.s.val / 8) = true) → (s.groom g).run
    = none → (s.groom g).fenced = true → ∃ t, exec (.groomReset g) s = .next t ∧ t.groom g =
    { s.groom g with fenced := false, scratch := [] } ∧ t = { s with grooms := t.grooms }) ∧
  (∀ (s : State) (g : GroomId), s.Calm → (s.live (.stall g.s) = true ∧ s.domRuns (g.s.val / 8) = true) → (s.groom g).run
    = none → (s.groom g).fenced = false → ∃ t, exec (.groomFenced g) s = .next t ∧ t.groom g =
    { s.groom g with fenced := true } ∧ t.rb (.grCtrl g.s) (32 + g.g.val) = true ∧ t.rb (.ftStatus (.stall g.s)) 2 =
    true ∧ (t.hbm = s.hbm ∧ t.buf = s.buf ∧ t.locks = s.locks)) ∧
  (∀ (s : State) (g : GroomId) (r : Run), s.Calm → (s.live (.stall g.s) = true ∧ s.domRuns (g.s.val / 8) = true) →
    (s.groom g).run = some r → r.exc = none → (s.groom g).fenced = false → ∃ t, exec (.groomFenced g) s = .next t ∧
    s.Raised t g r 14 0 0 ∧ (t.groom g).fenced = true ∧ t.rb (.grCtrl g.s) (32 + g.g.val) = true) ∧
  (∀ (s : State) (n : Stall) (x : Ctx) (c : Nat), s.Calm → (s.live (.stall n) = true ∧ s.domRuns (n.val / 8) = true) → c
    = s.rf (.grResume n) 21 0 → s.ctx? c = some x → s.ctxStall c = n.val → ∃ t, exec (.grResume n) s = .next t ∧
    (t.ctx? c).map (fun y => y.suspended % 8) = some ((x.suspended % 8) &&& (7 - (if s.rb (.grResume n) 60 = true then
    1 else 0) - (if s.rb (.grResume n) 59 = true then 2 else 0) - (if s.rb (.grResume n) 58 = true then 4 else 0))) ∧
    t.rf (.grResume n) 62 61 = 1 ∧ t.rb (.grResume n) 63 = false ∧ t = { s with ctxs := t.ctxs, regs := t.regs }) ∧
  (∀ (s : State) (n : Stall), s.Calm → (s.live (.stall n) = true ∧ s.domRuns (n.val / 8) = true) → s.ctx? (s.rf
    (.grResume n) 21 0) = none → ∃ t, exec (.grResume n) s = .next t ∧ t.rf (.grResume n) 62 61 = 2 ∧ t.rb (.grResume
    n) 63 = false ∧ t = { s with regs := t.regs })

/-- The fn table of ALU (R337), in terms of whole numbers and bits: sums, products and shifts modulo 2^64 with the
amount rs2[5:0], signed and unsigned comparisons, MULHU, MIN to MAXU, CLZ and CTZ with 64 for zero, POPC, BSWAP,
and CRC as the CRC-32C register rs1[31:0] (polynomial 0x82F63B78 as reflected) advanced over the bits of rs2,
lowest first; every fn above 20 is reserved. ALU writes what its fn gives; a reserved fn, and a unary operation
whose rs2 is not g0, is a reserved instruction (exception 1). -/
def Obligations.AluFollowsItsTable : Prop :=
  (∀ (a b : Word) (k : Nat), k = b.toNat % 64 → aluFn 0 a b = some (BitVec.ofNat 64 (a.toNat + b.toNat)) ∧ aluFn 1 a b =
    some (BitVec.ofInt 64 (a.toInt - b.toInt)) ∧ aluFn 2 a b = some (a &&& b) ∧ aluFn 3 a b = some (a ||| b) ∧ aluFn 4
    a b = some (a ^^^ b) ∧ aluFn 5 a b = some (BitVec.ofNat 64 (a.toNat * 2 ^ k)) ∧ aluFn 6 a b = some (BitVec.ofNat
    64 (a.toNat / 2 ^ k)) ∧ aluFn 7 a b = some (BitVec.ofInt 64 (a.toInt / 2 ^ k)) ∧ aluFn 8 a b = some (if a.toInt <
    b.toInt then 1 else 0) ∧ aluFn 9 a b = some (if a.toNat < b.toNat then 1 else 0) ∧ aluFn 10 a b = some
    (BitVec.ofNat 64 (a.toNat * b.toNat)) ∧ aluFn 11 a b = some (BitVec.ofNat 64 (a.toNat * b.toNat / 2 ^ 64)) ∧ aluFn
    12 a b = some (BitVec.ofInt 64 (min a.toInt b.toInt)) ∧ aluFn 13 a b = some (BitVec.ofInt 64 (max a.toInt
    b.toInt)) ∧ aluFn 14 a b = some (BitVec.ofNat 64 (min a.toNat b.toNat)) ∧ aluFn 15 a b = some (BitVec.ofNat 64
    (max a.toNat b.toNat))) ∧
  (∀ a b : Word, ∃ n : Nat, aluFn 16 a b = some (BitVec.ofNat 64 n) ∧ n ≤ 64 ∧ (n = 64 ↔ a = 0) ∧ (n < 64 → 2 ^ (63 - n)
    ≤ a.toNat ∧ a.toNat < 2 ^ (64 - n))) ∧
  (∀ a b : Word, ∃ n : Nat, aluFn 17 a b = some (BitVec.ofNat 64 n) ∧ n ≤ 64 ∧ (n = 64 ↔ a = 0) ∧ (n < 64 → a.toNat % 2 ^
    (n + 1) = 2 ^ n)) ∧
  (∀ a b : Word, aluFn 18 a b = some (BitVec.ofNat 64 (((List.range 64).filter (fun i => a.getLsbD i)).length))) ∧
  (∀ a b : Word, ∃ v : Word, aluFn 19 a b = some v ∧ ∀ i : Nat, i < 64 → v.getLsbD i = a.getLsbD (8 * (7 - i / 8) + i %
    8)) ∧
  (∀ a b : Word, aluFn 20 a b = some (((List.range 64).foldl (fun (c : BitVec 32) i => if c.getLsbD 0 ≠ b.getLsbD i then
    (c >>> 1) ^^^ 0x82F63B78 else c >>> 1) (a.setWidth 32)).setWidth 64)) ∧
  (∀ (a b : Word) (fn : Nat), 20 < fn → aluFn fn a b = none) ∧
  (∀ (s : State) (g : GroomId) (r : Run) (rd a b : BitVec 5) (fn : BitVec 11) (v : Word), s.Fetches g r (encR 0x00 rd a b
    fn) → aluFn fn.toNat (r.get a) (r.get b) = some v → (16 ≤ fn.toNat → fn.toNat ≤ 19 → b = 0) → ∃ t, exec (.alu g rd
    a b fn) s = .next t ∧ s.Retires t g (s.ran r rd v (r.pc + 1))) ∧
  (∀ (s : State) (g : GroomId) (r : Run) (rd a b : BitVec 5) (fn : BitVec 11), s.Fetches g r (encR 0x00 rd a b fn) → (20
    < fn.toNat ∨ (16 ≤ fn.toNat ∧ fn.toNat ≤ 19 ∧ b ≠ 0)) → ∃ t, exec (.alu g rd a b fn) s = .next t ∧ s.Raised t g r
    1 0 0)

/-- For every instruction of a Groom with every operand at every value that its format admits (R335, R336), the
instruction read from its word is that instruction; and an instruction read from any word has that word: no bit of
an encoding is dropped, and no two instructions share a word. -/
def Obligations.GroomWordsAreReadBack : Prop :=
  (∀ (i : Instr) (w : BitVec 32), groomWord i = some w → ∃ g : GroomId, groomDecode g w = some i) ∧
  (∀ (g : GroomId) (w : BitVec 32) (i : Instr), groomDecode g w = some i → groomWord i = some w)

/-- The encodings of the worked example of chapter 12, as its table lists them: LD, ALU BSWAP, two SHI, SLTIU, BEQ,
LUI, AMOL ADD and HALT; and the words 0 and 0xA800_0000: ADD g0, g0, g0, and a reserved major opcode, which is no
instruction. -/
def Obligations.GroomWordsOfTheManual : Prop :=
  ∀ g : GroomId, groomDecode g 0x4126C020 = some (.ld g 9 6 3 0 32) ∧ groomDecode g 0x01290013 = some (.alu g 9 9 0 19)
    ∧ groomDecode g 0x1D290010 = some (.shi g 9 9 0x10) ∧ groomDecode g 0x1D290060 = some (.shi g 9 9 0x60) ∧
    groomDecode g 0x19490101 = some (.sltiu g 10 9 257) ∧ groomDecode g 0x61400003 = some (.beq g 10 0 3) ∧
    groomDecode g 0x21600010 = some (.lui g 11 0 16) ∧ groomDecode g 0x500B4801 = some (.amol g 0 11 9 1) ∧
    groomDecode g 0xFC000000 = some (.halt g 0 0 0) ∧ groomDecode g 0 = some (.alu g 0 0 0 0) ∧ groomDecode g
    0xA8000000 = none

/-- COLL (R294, R295, R297, R298, R300, R313): a first contribution of one segment to an instance begins it with the
command's op, type, mode and count and reads its elements at the send address, here untranslated host memory; a
contribution of no elements to a root group of one local member and no child is combined, finished and completes
with status 0, its instance ended; a COLL of a reserved op or type, of a group not installed, or with a digest
that differs completes with MALFORMED_ENTRY (1), DENIED (2) or GROUP_MISMATCH (0x0D), the last counted and taking
its number in the group's sequence. Each here is the next of its context on the group, and asks for no counter. -/
def Obligations.ContributionsJoinTheirInstance : Prop :=
  (∀ (s : State) (op g d j n h len : Nat) (o : Op) (c : Cq) (r : ClGroup), s.Starts op 0x0C o c → cmdCt o.words = 0xFFF →
    s.CollsNext o → s.Joins o g d j n r → s.instOf d g n = none → h = s.serial → len = fld (o.w 3) 31 0 * clElem (fld
    (o.w 1) 47 40) (fld (o.w 1) 39 36) → 0 < len → fld (o.w 3) 31 0 * clUp (fld (o.w 1) 47 40) (fld (o.w 1) 39 36)
    (fld (o.w 1) 35 34) ≤ 4096 → (o.w 2).toNat % 4096 + len ≤ 4096 → (o.w 2).toNat < 2 ^ 48 → (s.ctx? o.ctx).any (fun
    y => !y.dead) = true → (bit (s.ctxWord o.ctx 5) 0 = false ∧ bit (s.ctxWord o.ctx 6) 0 = false) → s.hlLost
    (s.ctxLink o.ctx) = false → ∃ t, exec (.coll op) s = .next t ∧ (tFind t.insts h).map (fun x => (x.op, x.ty,
    x.mode, x.count)) = some (fld (o.w 1) 47 40, fld (o.w 1) 39 36, fld (o.w 1) 35 34, fld (o.w 3) 31 0) ∧ (tFind
    t.insts h).map (fun x => (x.engine, x.n, x.since, x.next)) = some (r.engine, n, s.clk, 0) ∧ (tFind t.insts h).map
    (fun x => (x.members.map (fun m => (m.1, m.2.op)))) = some [(j, some op)] ∧ (tFind t.groups (grpKey d g)).map (fun
    r => tGet 0 r.seqs j) = some (n + 1) ∧ (t.tl (s.ctxLink o.ctx)).reqQ = (s.tl (s.ctxLink o.ctx)).reqQ ++ [.rd ⟨(o.w
    2).toNat, len, some o.ctx, s.ctxFn o.ctx, .use (s.serial + 2)⟩] ∧ (tFind t.ops op).map (fun x => x.performed) =
    some true ∧ t.hbm = s.hbm) ∧
  (∀ (s : State) (op g d j n : Nat) (o : Op) (c : Cq) (r : ClGroup), s.Starts op 0x0C o c → cmdCt o.words = 0xFFF →
    s.CollsNext o → s.Joins o g d j n r → s.instOf d g n = none → fld (o.w 3) 31 0 = 0 → (s.grpRoot d g = true ∧
    s.grpKids d g = 0 ∧ s.grpLocals d g = 1) → ∃ t, exec (.coll op) s = .next t ∧ tFind t.ops op = none ∧ (t.tl
    c.link).reqQ = (s.tl c.link).reqQ ++ [c.cpl o 0 0] ∧ t.instOf d g n = none ∧ (tFind t.groups (grpKey d g)).map
    (fun r => (tGet 0 r.seqs j, r.gone n)) = some (n + 1, true) ∧ t.hbm = s.hbm) ∧
  (∀ (s : State) (op : Nat) (o : Op) (c : Cq), s.Starts op 0x0C o c → cmdCt o.words = 0xFFF → s.CollsNext o → s.findGroup
    (fld (o.w 1) 63 48) = none → clAllowed (fld (o.w 1) 47 40) (fld (o.w 1) 39 36) (fld (o.w 1) 35 34) = false → ∃ t,
    exec (.coll op) s = .next t ∧ tFind t.ops op = none ∧ (t.tl c.link).reqQ = (s.tl c.link).reqQ ++ [c.cpl o 1 0] ∧
    t.insts = s.insts) ∧
  (∀ (s : State) (op : Nat) (o : Op) (c : Cq), s.Starts op 0x0C o c → cmdCt o.words = 0xFFF → s.CollsNext o → s.findGroup
    (fld (o.w 1) 63 48) = none → clAllowed (fld (o.w 1) 47 40) (fld (o.w 1) 39 36) (fld (o.w 1) 35 34) = true → fld
    (o.w 3) 31 0 * clUp (fld (o.w 1) 47 40) (fld (o.w 1) 39 36) (fld (o.w 1) 35 34) < 2 ^ 32 → ∃ t, exec (.coll op) s
    = .next t ∧ tFind t.ops op = none ∧ (t.tl c.link).reqQ = (s.tl c.link).reqQ ++ [c.cpl o 2 0] ∧ t.insts = s.insts) ∧
  (∀ (s : State) (op g d j n : Nat) (o : Op) (c : Cq) (r : ClGroup), s.Starts op 0x0C o c → cmdCt o.words = 0xFFF →
    s.CollsNext o → (g = fld (o.w 1) 63 48 ∧ s.findGroup g = some (d, r) ∧ s.grpPlace d g o.ctx = some j ∧ n = tGet 0
    r.seqs j) → clAllowed (fld (o.w 1) 47 40) (fld (o.w 1) 39 36) (fld (o.w 1) 35 34) = true → fld (o.w 3) 31 0 * clUp
    (fld (o.w 1) 47 40) (fld (o.w 1) 39 36) (fld (o.w 1) 35 34) < 2 ^ 32 → s.rb (.clCtrl (engineOf r.engine)) 16 =
    true → (o.w 5 ≠ s.grpWord d g 1 ∨ o.w 6 ≠ s.grpWord d g 2) → s.instOf d g n = none → ∃ t, exec (.coll op) s =
    .next t ∧ tFind t.ops op = none ∧ (t.tl c.link).reqQ = (s.tl c.link).reqQ ++ [c.cpl o 0x0D 0] ∧ (tFind t.groups
    (grpKey d g)).map (fun r => tGet 0 r.seqs j) = some (n + 1) ∧ t.rf (.clCount (engineOf r.engine)) 63 48 = min
    (s.rf (.clCount (engineOf r.engine)) 63 48 + 1) 65535 ∧ t.rb (.clStatus (engineOf r.engine)) 3 = true)

/-- COLL_UP_RECEIVE, COLL_DOWN_RECEIVE, COLL_TIMEOUT, ENGINE_FENCED and CL_UNFENCE (R300, R301, R313, R315, R465): an
up packet's segment is held until every input has supplied it; the last one is combined with none other and sent
up, on a chip that is not the root; a packet of a group not installed is counted in late_drop; a down packet's
result completes the local members that receive nothing, by its flags; at the deadline an instance ends, its
member completing with DELIVERY_FAILED; a fence loses every stream of its engine; unfence enables it again. -/
def Obligations.EnginesPassSegmentsOn : Prop :=
  (∀ (s : State) (e : Engine) (p : Pkt) (rest : List Pkt) (d h i seg k : Nat) (r : ClGroup) (x : ClInst), s.Calm →
    (s.live (.coll e) = true ∧ s.domRuns (e.val / 4) = true) → tGet [] s.collUp e.val = p :: rest → s.Feeds e p d h i
    seg r x → Pkt.key p % 65536 = x.op * 256 + x.ty * 16 + x.mode * 4 → (clAllowed x.op x.ty x.mode = true ∧ x.mode <
    4 ∧ x.ty < 16 ∧ x.op < 256) → Pkt.mlen p = x.count * x.up → (Pkt.tag p = (s.grpWord d x.group 1).toNat ∧ Pkt.addr
    p = (s.grpWord d x.group 2).toNat) → (x.next ≤ seg ∧ seg ≤ x.next + 16) → (tGet {} x.kids i).out = false → (tFind
    (tGet {} x.kids i).segs seg).isSome = false → (k < s.grpLocals d x.group ∧ tFind x.members k = none) → ∃ t, exec
    (.collUpReceive e) s = .next t ∧ (tFind t.insts h).map (fun y => (tFind (tGet {} y.kids i).segs seg)) = some (some
    (wireElems x.up (x.elems seg) (Pkt.payload p))) ∧ (tFind t.insts h).map (fun y => (y.next, y.flags, y.members)) =
    some (x.next, x.flags ||| (Pkt.psn p % 8), x.members) ∧ tGet [] t.collUp e.val = rest ∧ (t.inject = s.inject ∧
    t.hbm = s.hbm ∧ t.ops = s.ops)) ∧
  (∀ (s : State) (e : Engine) (p : Pkt) (rest : List Pkt) (d h : Nat) (r : ClGroup) (x : ClInst), s.Calm → (s.live (.coll
    e) = true ∧ s.domRuns (e.val / 4) = true) → tGet [] s.collUp e.val = p :: rest → s.Feeds e p d h 0 0 r x → Pkt.key
    p % 65536 = x.op * 256 + x.ty * 16 + x.mode * 4 → (clAllowed x.op x.ty x.mode = true ∧ x.mode < 4 ∧ x.ty < 16 ∧
    x.op < 256) → Pkt.mlen p = x.count * x.up → (Pkt.tag p = (s.grpWord d x.group 1).toNat ∧ Pkt.addr p = (s.grpWord d
    x.group 2).toNat) → (x.next = 0 ∧ x.nseg = 1 ∧ x.kids = [] ∧ x.members = []) → (s.grpRoot d x.group = false ∧
    s.grpLocals d x.group = 0 ∧ s.grpKids d x.group = 1) → ∃ t, exec (.collUpReceive e) s = .next t ∧ (tFind t.insts
    h).map (fun y => (y.next, y.flags)) = some (1, x.flags ||| (Pkt.psn p % 8)) ∧ tGet [] t.inject (8 * e.val + 1) =
    tGet [] s.inject (8 * e.val + 1) ++ [s.stamp (buildPkt (fld (s.grpWord d x.group 0) 15 0 * 256 + 31) (s.coord *
    256 + 31) (fld (s.grpWord d x.group 0) 47 45) 1 false true 0 (s.collHdr x 0x10 (x.flags ||| (Pkt.psn p % 8)) 0
    (x.count * x.up) true (clRepro x.op x.ty x.mode) (fld (s.grpWord d x.group 0) 44 41)) (wireBytes x.up (wireElems
    x.up x.count (Pkt.payload p))))] ∧ tGet [] t.collUp e.val = rest ∧ (t.hbm = s.hbm ∧ t.ops = s.ops)) ∧
  (∀ (s : State) (e : Engine) (p : Pkt) (rest : List Pkt), s.Calm → (s.live (.coll e) = true ∧ s.domRuns (e.val / 4) =
    true) → tGet [] s.collUp e.val = p :: rest → s.findGroup (Pkt.key p / 65536) = none → ∃ t, exec (.collUpReceive e)
    s = .next t ∧ t.rf (.clCount e) 31 16 = min (s.rf (.clCount e) 31 16 + 1) 65535 ∧ tGet [] t.collUp e.val = rest ∧
    t = { s with regs := t.regs, collUp := t.collUp }) ∧
  (∀ (s : State) (e : Engine) (p : Pkt) (rest : List Pkt) (d h m op : Nat) (r : ClGroup) (x : ClInst) (o : Op) (c : Cq)
    (mi : ClIn), s.Calm → (s.live (.coll e) = true ∧ s.domRuns (e.val / 4) = true) → tGet [] s.collDown e.val = p ::
    rest → (s.findGroup (Pkt.key p / 65536) = some (d, r) ∧ e.val ∉ s.engOff ∧ r.number (Pkt.msn p) = some x.n ∧
    r.gone x.n = false) → (s.instOf d (Pkt.key p / 65536) x.n = some h ∧ tFind s.insts h = some x ∧ x.dom = d ∧
    x.group = Pkt.key p / 65536) → (x.nseg = 1 ∧ x.downs = [] ∧ x.members = [(m, mi)] ∧ Pkt.moff p = 0 ∧ x.result = 0)
    → s.Plain op o c → mi.op = some op → (mi.ended = false ∧ mi.writes = 0 ∧ mi.status = 0) → (o.w 4 = 0 ∧ cmdCt
    o.words = 0xFFF) → ∃ t, exec (.collDownReceive e) s = .next t ∧ tFind t.ops op = none ∧ (t.tl c.link).reqQ = (s.tl
    c.link).reqQ ++ [c.cpl o (if Pkt.psn p % 2 = 1 then 0x0D else if Pkt.psn p / 2 % 2 = 1 then 0x0A else 0) (if
    Pkt.psn p % 2 = 1 then 0 else if Pkt.psn p / 2 % 2 = 1 then 0x20 else Pkt.psn p / 4 % 2)] ∧ t.instOf d (Pkt.key p
    / 65536) x.n = none ∧ tGet [] t.collDown e.val = rest) ∧
  (∀ (s : State) (e : Engine) (p : Pkt) (rest : List Pkt), s.Calm → (s.live (.coll e) = true ∧ s.domRuns (e.val / 4) =
    true) → tGet [] s.collDown e.val = p :: rest → s.findGroup (Pkt.key p / 65536) = none → ∃ t, exec
    (.collDownReceive e) s = .next t ∧ t.rf (.clCount e) 31 16 = min (s.rf (.clCount e) 31 16 + 1) 65535 ∧ tGet []
    t.collDown e.val = rest ∧ t = { s with regs := t.regs, collDown := t.collDown })

/-- CL_INSTALL, CL_REMOVE, CL_ABORT, COLL_TIMEOUT, ENGINE_FENCED and CL_UNFENCE (R291, R315, R316, R319, R465): an
entry that passes the checks is marked valid, its words 24 to 31 zero, and answers 1; one that a check refuses
answers 2; an entry of another engine answers 4; removal answers 3 while an instance is active; an abort completes
each waiting member with ABORTED (0x0F), a timeout or a fence with DELIVERY_FAILED (0x0B); unfence enables the
engine again and has no effect on one that is not fenced. -/
def Obligations.GroupsAreInstalledAndEnded : Prop :=
  (∀ (s : State) (e : Engine) (g : BitVec 16) (d a : Nat), s.Calm → (s.live (.coll e) = true ∧ s.domRuns (e.val / 4) =
    true) → d = e.val / 4 → fld (s.grpWord d g.toNat 0) 61 59 = e.val → s.grpRefused d g.toNat = false → a = (s.share
    d 9).1 + 256 * g.toNat → inHbm (a + 255) = true → ∃ t, exec (.clInstall e g) s = .next t ∧ t.rf (.clInstall e) 59
    56 = 1 ∧ t.rb (.clInstall e) 63 = false ∧ tFind t.groups (grpKey d g.toNat) = some { engine := e.val } ∧ t.grpWord
    d g.toNat 0 = setBit (s.grpWord d g.toNat 0) 63 true ∧ (List.range 8).map (fun i => t.grpWord d g.toNat (24 + i))
    = List.replicate 8 0 ∧ (List.range 23).map (fun i => t.grpWord d g.toNat (1 + i)) = (List.range 23).map (fun i =>
    s.grpWord d g.toNat (1 + i)) ∧ t.buf = s.buf) ∧
  (∀ (s : State) (e : Engine) (g : BitVec 16), s.Calm → (s.live (.coll e) = true ∧ s.domRuns (e.val / 4) = true) → fld
    (s.grpWord (e.val / 4) g.toNat 0) 61 59 ≠ e.val → ∃ t, exec (.clInstall e g) s = .next t ∧ t.rf (.clInstall e) 59
    56 = 4 ∧ t.rb (.clInstall e) 63 = false ∧ t = { s with regs := t.regs }) ∧
  (∀ (s : State) (e : Engine) (g : BitVec 16) (w0 w3 : Word), s.Calm → (s.live (.coll e) = true ∧ s.domRuns (e.val / 4) =
    true) → w0 = s.grpWord (e.val / 4) g.toNat 0 → w3 = s.grpWord (e.val / 4) g.toNat 3 → fld w0 61 59 = e.val → (fld
    w0 40 16 ≠ 0 ∨ fld w3 63 20 ≠ 0 ∨ 16 < fld w0 58 54 ∨ 32 < fld w0 53 48 ∨ (fld w0 58 54 = 0 ∧ fld w0 53 48 = 0) ∨
    fld w3 19 0 = 0 ∨ 524288 < fld w3 19 0 ∨ bit w0 63 = true ∨ (s.findGroup g.toNat).isSome = true) → ∃ t, exec
    (.clInstall e g) s = .next t ∧ t.rf (.clInstall e) 59 56 = 2 ∧ t.rb (.clInstall e) 63 = false ∧ t =
    { s with regs := t.regs }) ∧
  (∀ (s : State) (e : Engine) (g : BitVec 16) (d : Nat) (r : ClGroup), s.Calm → (s.live (.coll e) = true ∧ s.domRuns
    (e.val / 4) = true) → d = e.val / 4 → tFind s.groups (grpKey d g.toNat) = some r → r.engine = e.val → s.insts.any
    (fun x => x.2.dom = d ∧ x.2.group = g.toNat) = false → inHbm ((s.share d 9).1 + 256 * g.toNat + 7) = true → ∃ t,
    exec (.clRemove e g) s = .next t ∧ t.rf (.clInstall e) 59 56 = 1 ∧ tFind t.groups (grpKey d g.toNat) = none ∧
    t.grpWord d g.toNat 0 = setBit (s.grpWord d g.toNat 0) 63 false ∧ (t.insts = s.insts ∧ t.buf = s.buf)) ∧
  (∀ (s : State) (e : Engine) (g : BitVec 16) (d : Nat) (r : ClGroup), s.Calm → (s.live (.coll e) = true ∧ s.domRuns
    (e.val / 4) = true) → d = e.val / 4 → tFind s.groups (grpKey d g.toNat) = some r → r.engine = e.val → s.insts.any
    (fun x => x.2.dom = d ∧ x.2.group = g.toNat) = true → ∃ t, exec (.clRemove e g) s = .next t ∧ t.rf (.clInstall e)
    59 56 = 3 ∧ t = { s with regs := t.regs }) ∧
  (∀ (s : State) (e : Engine) (g : BitVec 16) (d h m op : Nat) (r : ClGroup) (x : ClInst) (mi : ClIn) (o : Op) (c : Cq),
    s.Calm → (s.live (.coll e) = true ∧ s.domRuns (e.val / 4) = true) → d = e.val / 4 → tFind s.groups (grpKey d
    g.toNat) = some r → r.engine = e.val → s.insts = [(h, x)] → (x.dom = d ∧ x.group = g.toNat ∧ x.members = [(m, mi)]
    ∧ x.result = 0 ∧ x.downs = []) → (mi.op = some op ∧ mi.ended = false ∧ mi.status = 0) → s.Plain op o c → cmdCt
    o.words = 0xFFF → ∃ t, exec (.clAbort e g) s = .next t ∧ t.rf (.clInstall e) 59 56 = 1 ∧ t.insts = [] ∧ tFind
    t.ops op = none ∧ (t.tl c.link).reqQ = (s.tl c.link).reqQ ++ [c.cpl o 0x0F 0] ∧ (tFind t.groups (grpKey d
    g.toNat)).map (fun r => r.gone x.n) = some true ∧ t.rf (.clCount e) 15 0 = min (s.rf (.clCount e) 15 0 + 1) 65535
    ∧ t.hbm = s.hbm) ∧
  (∀ (s u : State) (e : Engine) (g : BitVec 16) (n : BitVec 24) (dt h m op : Nat) (x : ClInst) (mi : ClIn) (o : Op) (c :
    Cq), u = s.elapse dt → u.Calm → (u.live (.coll e) = true ∧ u.domRuns (e.val / 4) = true) → u.insts = [(h, x)] →
    (x.engine = e.val ∧ x.group = g.toNat ∧ x.n % 2 ^ 24 = n.toNat ∧ x.members = [(m, mi)] ∧ x.result = 0 ∧ x.downs =
    []) → (mi.op = some op ∧ mi.ended = false ∧ mi.status = 0) → u.Plain op o c → cmdCt o.words = 0xFFF → u.rf
    (.clCtrl e) 15 0 ≠ 0 → x.since + us (100 * u.rf (.clCtrl e) 15 0) < u.clk → (u.collUp = [] ∧ u.collDown = []) → ∃
    t, exec (.collTimeout e g n dt) s = .next t ∧ t.insts = [] ∧ tFind t.ops op = none ∧ (t.tl c.link).reqQ = (u.tl
    c.link).reqQ ++ [c.cpl o 0x0B 0] ∧ t.rf (.clCount e) 47 32 = min (u.rf (.clCount e) 47 32 + 1) 65535 ∧ t.rb
    (.clStatus e) 2 = true ∧ t.hbm = u.hbm) ∧
  (∀ (s : State) (e : Engine), s.Calm → (s.live (.coll e) = true ∧ s.domRuns (e.val / 4) = true) → e.val ∉ s.engOff →
    s.insts.all (fun x => x.2.engine ≠ e.val) = true → ∃ t, exec (.engineFenced e) s = .next t ∧ t.engOff = e.val ::
    s.engOff ∧ t.rb (.clCtrl e) 16 = false ∧ t.rb (.ftStatus (.coll e)) 2 = true ∧ (t.insts = s.insts ∧ t.hbm = s.hbm
    ∧ t.ops = s.ops)) ∧
  (∀ (s : State) (e : Engine) (h m op : Nat) (x : ClInst) (mi : ClIn) (o : Op) (c : Cq), s.Calm → (s.live (.coll e) =
    true ∧ s.domRuns (e.val / 4) = true) → e.val ∉ s.engOff → s.insts = [(h, x)] → (x.engine = e.val ∧ x.members =
    [(m, mi)] ∧ x.result = 0) → (mi.op = some op ∧ mi.ended = false ∧ mi.status = 0) → s.Plain op o c → cmdCt o.words
    = 0xFFF → ∃ t, exec (.engineFenced e) s = .next t ∧ t.engOff = e.val :: s.engOff ∧ t.insts = [] ∧ tFind t.ops op =
    none ∧ (t.tl c.link).reqQ = (s.tl c.link).reqQ ++ [c.cpl o 0x0B 0] ∧ t.rb (.ftStatus (.coll e)) 2 = true ∧ t.hbm =
    s.hbm) ∧
  (∀ (s : State) (e : Engine), s.Calm → (s.live (.coll e) = true ∧ s.domRuns (e.val / 4) = true) → e.val ∈ s.engOff → ∃
    t, exec (.clUnfence e) s = .next t ∧ e.val ∉ t.engOff ∧ t.rb (.clCtrl e) 16 = true ∧ t =
    { s with engOff := t.engOff, regs := t.regs }) ∧
  (∀ (s : State) (e : Engine), s.Calm → e.val ∉ s.engOff → exec (.clUnfence e) s = .next (s))

/-- The combination of two binned forms (R308): nz is the OR; NaN, and opposite infinities, give NaN; otherwise an
infinity stays; a form that is none gives the other; two finite forms keep the higher top and add, bin by bin of
its window, the bins each has there, 0 outside a form's own window. The combination is commutative and, over
finite forms that hold K bins, associative. -/
def Obligations.ReproFormsCombineInAnyOrder : Prop :=
  (∀ (b : BinPar) (x y : BinForm), BinForm.combine b x y = BinForm.combine b y x) ∧
  (∀ (b : BinPar) (x y z : BinForm), (∀ f : BinForm, f = x ∨ f = y ∨ f = z → ∀ t l n, f = .fin t l n → l.length = b.k) →
    BinForm.combine b (BinForm.combine b x y) z = BinForm.combine b x (BinForm.combine b y z)) ∧
  (∀ (b : BinPar) (x y : BinForm) (m n : Bool), (BinForm.combine b x y).nz = (x.nz || y.nz) ∧ BinForm.combine b (.nan n)
    y = .nan (n || y.nz) ∧ BinForm.combine b (.inf true m) (.inf false n) = .nan (m || n) ∧ BinForm.combine b (.inf m
    n) (.inf m n) = .inf m n ∧ BinForm.combine b (.inf m n) (.none m) = .inf m (n || m) ∧ BinForm.combine b (.none m)
    (.none n) = .none (m || n)) ∧
  (∀ (b : BinPar) (t u : Nat) (l r : List Int) (m n g : Bool), BinForm.combine b (.inf g m) (.fin u r n) = .inf g (m ||
    n) ∧ BinForm.combine b (.none m) (.fin u r n) = .fin u r (m || n) ∧ (l.length = b.k → r.length = b.k →
    BinForm.combine b (.fin t l m) (.fin u r n) = .fin (max t u) ((List.range b.k).map (fun k => (if max t u ≤ k + t
    then l.getD (k + t - max t u) 0 else 0) + (if max t u ≤ k + u then r.getD (k + u - max t u) 0 else 0))) (m || n)))

/-- DIRECTORY_REQUEST, UNCACHED_READ, UNCACHED_WRITE and WRITE_HINT (R365, R366, R367, R369, R370, R371): a read of a
line that nobody holds makes the reader UNIQUE, of one held alone makes the holder LEAD and the reader SHARED, of
a shared one adds a SHARED reader; read for ownership and upgrade leave the requester alone, DIRTY; an eviction
from LEAD appoints the lowest-numbered of several, and one that remains is UNIQUE; an uncached read leaves a DIRTY
holder UNIQUE; an uncached write takes every copy and writes the masked bytes alone; a hint does the same and
installs the line DIRTY, or degrades and is counted; a read that its reader's own cache has just been given by a
hint changes no holder; a request that the state does not allow loses the domain. Here the cache and the directory
have room for one more line. -/
def Obligations.DirectoryKeepsTheHoldersOfALine : Prop :=
  (∀ (s : State) (d : Dom) (c : Fin 8) (line k : Nat), s.DomainUp d → k = lineKey d.val line → s.holders k = [] →
    s.dirLines d.val < 1048576 → (s.cacheLines d.val c.val).length < 131072 → tFind s.hints k ≠ some c.val → ∃ t, exec
    (.directoryRequest d c .read line) s = .next t ∧ t.holders k = [(c.val, .unique)] ∧ (∀ j, j ≠ k → t.holders j =
    s.holders j) ∧ t = { s with dir := t.dir, hints := t.hints, regs := t.regs }) ∧
  (∀ (s : State) (d : Dom) (c : Fin 8) (line k h : Nat) (st : LineState), s.DomainUp d → k = lineKey d.val line →
    s.holders k = [(h, st)] → h ≠ c.val → (s.cacheLines d.val c.val).length < 131072 → tFind s.hints k ≠ some c.val →
    ∃ t, exec (.directoryRequest d c .read line) s = .next t ∧ tFind (t.holders k) h = some .lead ∧ tFind (t.holders
    k) c.val = some .shared ∧ (t.holders k).length = 2 ∧ (∀ j, j ≠ k → t.holders j = s.holders j) ∧ t =
    { s with dir := t.dir, hints := t.hints, regs := t.regs }) ∧
  (∀ (s : State) (d : Dom) (c : Fin 8) (line k : Nat) (a b : Nat × LineState) (hs : List (Nat × LineState)), s.DomainUp d
    → k = lineKey d.val line → s.holders k = a :: b :: hs → tFind (a :: b :: hs) c.val = none → (s.cacheLines d.val
    c.val).length < 131072 → tFind s.hints k ≠ some c.val → ∃ t, exec (.directoryRequest d c .read line) s = .next t ∧
    tFind (t.holders k) c.val = some .shared ∧ (∀ j, j ≠ c.val → tFind (t.holders k) j = tFind (s.holders k) j) ∧ t =
    { s with dir := t.dir, hints := t.hints, regs := t.regs }) ∧
  (∀ (s : State) (d : Dom) (c : Fin 8) (line k : Nat), s.DomainUp d → k = lineKey d.val line → tFind (s.holders k) c.val
    = none → (s.holders k ≠ [] ∨ s.dirLines d.val < 1048576) → (s.cacheLines d.val c.val).length < 131072 → ∃ t, exec
    (.directoryRequest d c .readForOwnership line) s = .next t ∧ t.holders k = [(c.val, .dirty)] ∧ (∀ j, j ≠ k →
    t.holders j = s.holders j) ∧ t = { s with dir := t.dir, hints := t.hints, regs := t.regs }) ∧
  (∀ (s : State) (d : Dom) (c : Fin 8) (line k : Nat), s.DomainUp d → k = lineKey d.val line → (tFind (s.holders k) c.val
    = some .shared ∨ tFind (s.holders k) c.val = some .lead) → ∃ t, exec (.directoryRequest d c .upgrade line) s =
    .next t ∧ t.holders k = [(c.val, .dirty)] ∧ (∀ j, j ≠ k → t.holders j = s.holders j) ∧ t =
    { s with dir := t.dir, hints := t.hints }) ∧
  (∀ (s : State) (d : Dom) (c : Fin 8) (line k a b : Nat) (x y : LineState) (hs : List (Nat × LineState)), s.DomainUp d →
    k = lineKey d.val line → tFind (s.holders k) c.val = some .lead → tDel c.val (s.holders k) = (a, x) :: (b, y) ::
    hs → ((a, x) :: (b, y) :: hs).all (fun e => e.2 ≠ .lead) = true → ∃ t, exec (.directoryRequest d c .evict line) s
    = .next t ∧ t.holders k = (a, .lead) :: (b, y) :: hs ∧ (∀ j, j ≠ k → t.holders j = s.holders j) ∧ t =
    { s with dir := t.dir, hints := t.hints }) ∧
  (∀ (s : State) (d : Dom) (c : Fin 8) (line k a : Nat) (x : LineState), s.DomainUp d → k = lineKey d.val line → (tFind
    (s.holders k) c.val).isSome = true → tDel c.val (s.holders k) = [(a, x)] → (x = .shared ∨ x = .lead) → ∃ t, exec
    (.directoryRequest d c .evict line) s = .next t ∧ t.holders k = [(a, .unique)] ∧ (∀ j, j ≠ k → t.holders j =
    s.holders j) ∧ t = { s with dir := t.dir, hints := t.hints }) ∧
  (∀ (s : State) (d : Dom) (c : Fin 8) (line k : Nat) (q : DirReq), s.DomainUp d → k = lineKey d.val line → ((tFind
    (s.holders k) c.val = none ∧ (q = .upgrade ∨ q = .evict)) ∨ ((tFind (s.holders k) c.val).isSome = true ∧ (q =
    .read ∨ q = .readForOwnership))) → (q = .read → tFind s.hints k ≠ some c.val) → s.insts = [] → s.invals = [] → ∃
    t, exec (.directoryRequest d c q line) s = .next t ∧ s.Lost t d 1 c.val) ∧
  (∀ (s : State) (d : Dom) (line k c : Nat), s.DomainUp d → k = lineKey d.val line → s.holders k = [(c, .dirty)] → ∃ t,
    exec (.uncachedRead d line) s = .next t ∧ t.holders k = [(c, .unique)] ∧ (∀ j, j ≠ k → t.holders j = s.holders j)
    ∧ t = { s with dir := t.dir, hints := t.hints }) ∧
  (∀ (s : State) (d : Dom) (line k : Nat), s.DomainUp d → k = lineKey d.val line → (s.holders k).all (fun h => h.2 ≠
    .dirty) = true → exec (.uncachedRead d line) s = .next (s)) ∧
  (∀ (s : State) (d : Dom) (line k : Nat) (mask : BitVec 64) (data : BitVec 512), s.DomainUp d → k = lineKey d.val line →
    ∃ t, exec (.uncachedWrite d line mask data) s = .next t ∧ t.holders k = [] ∧ (∀ j, j ≠ k → t.holders j = s.holders
    j) ∧ (∀ i, i < 64 → t.hbmByte (64 * k + i) = if mask.getLsbD i then BitVec.ofNat 8 (fld data (8 * i + 7) (8 * i))
    else s.hbmByte (64 * k + i)) ∧ (∀ a, (a < 64 * k ∨ 64 * k + 64 ≤ a) → t.hbmByte a = s.hbmByte a) ∧ t =
    { s with dir := t.dir, hints := t.hints, hbm := t.hbm } ∧ (List.range 64).all (fun i => t.hbmByte (64 * k + i) =
    if mask.getLsbD i then BitVec.ofNat 8 (fld data (8 * i + 7) (8 * i)) else s.hbmByte (64 * k + i)) = true) ∧
  (∀ (s : State) (d : Dom) (line k : Nat) (data : BitVec 512) (c : Fin 8), s.DomainUp d → k = lineKey d.val line → s.rb
    (.csCtrl d) 16 = true → s.dirLines d.val < 1048576 → (s.cacheLines d.val c.val).length < 131072 → ∃ t, exec
    (.writeHint d line data c true) s = .next t ∧ t.holders k = [(c.val, .dirty)] ∧ (∀ j, j ≠ k → t.holders j =
    s.holders j) ∧ (List.range 64).all (fun i => t.hbmByte (64 * k + i) = BitVec.ofNat 8 (fld data (8 * i + 7) (8 *
    i))) = true ∧ (∀ a, (a < 64 * k ∨ 64 * k + 64 ≤ a) → t.hbmByte a = s.hbmByte a) ∧ tFind t.hints k = some c.val ∧ t
    = { s with dir := t.dir, hints := t.hints, hbm := t.hbm }) ∧
  (∀ (s : State) (d : Dom) (line k : Nat) (data : BitVec 512) (c : Fin 8) (ready : Bool), s.DomainUp d → k = lineKey
    d.val line → (s.rb (.csCtrl d) 16 = false ∨ ready = false) → ∃ t, exec (.writeHint d line data c ready) s = .next
    t ∧ t.holders k = [] ∧ t.rf (.csCount d) 47 32 = min (s.rf (.csCount d) 47 32 + 1) 65535 ∧ (List.range 64).all
    (fun i => t.hbmByte (64 * k + i) = BitVec.ofNat 8 (fld data (8 * i + 7) (8 * i))) = true ∧ (∀ a, (a < 64 * k ∨ 64
    * k + 64 ≤ a) → t.hbmByte a = s.hbmByte a) ∧ t =
    { s with dir := t.dir, hints := t.hints, hbm := t.hbm, regs := t.regs }) ∧
  (∀ (s : State) (d : Dom) (c : Fin 8) (line k : Nat), s.DomainUp d → k = lineKey d.val line → tFind s.hints k = some
    c.val → exec (.directoryRequest d c .read line) s = .next ({ s with hints := tDel k s.hints }))

/-- CONTEXT_STORE_FAILURE, COHERENCE_TIMEOUT, STEWARD_WATCHDOG and DOMAIN_RESTART_STEP (R371, R373 to R376): each
failure that loses data, a coherence timeout past coh_timeout and a watchdog that the Steward has not serviced for
10 ms fence the domain with its cause and agent and take what is homed in it, the other domain staying (here with
no collective and no INVALIDATE in progress); a corrected error, and an error in a line that is not DIRTY, is a
NOTE (R463); step 2 resets the domain's registers, locks, scratch and directory, 3 goes on, 4 clears its stack, 6
makes it RUNNING and counts the restart; a failed step leaves it FENCED with RESTART_FAILED. -/
def Obligations.DomainsAreLostAndRestarted : Prop :=
  (∀ (s : State) (d : Dom) (c : StoreFailure) (agent : BitVec 8) (k : Nat), s.DomainUp d → s.insts = [] → s.invals = [] →
    storeCause c = some k → ∃ t, exec (.contextStoreFailure d c agent) s = .next t ∧ s.Lost t d k agent.toNat) ∧
  (∀ (s : State) (d : Dom) (line : Nat) (agent : BitVec 8), s.DomainUp d → s.insts = [] → s.invals = [] → tFind
    (s.holders (lineKey d.val line)) (agent.toNat % 8) = some .dirty → ∃ t, exec (.contextStoreFailure d (.cacheLine
    line) agent) s = .next t ∧ s.Lost t d 0x12 agent.toNat) ∧
  (∀ (s : State) (d : Dom) (line : Nat) (agent : BitVec 8) (k : Nat), s.DomainUp d → k = lineKey d.val line → tFind
    (s.holders k) (agent.toNat % 8) = some .shared → ∃ t, exec (.contextStoreFailure d (.cacheLine line) agent) s =
    .next t ∧ t.holders k = settleHolders (tDel (agent.toNat % 8) (s.holders k)) ∧ s.Noted t d (.stall (domStall d
    agent.toNat))) ∧
  (∀ (s : State) (d : Dom) (agent : BitVec 8), s.DomainUp d → ∃ t, exec (.contextStoreFailure d .hbmCorrected agent) s =
    .next t ∧ s.Noted t d (.domain d) ∧ t.dir = s.dir) ∧
  (∀ (s : State) (d : Dom) (agent : BitVec 8), s.DomainUp d → ∃ t, exec (.contextStoreFailure d .cacheCorrected agent) s
    = .next t ∧ s.Noted t d (.stall (domStall d agent.toNat)) ∧ t.dir = s.dir) ∧
  (∀ (s u : State) (d : Dom) (agent : BitVec 8) (dt : Nat), u = s.elapse dt → u.DomainUp d → u.insts = [] → u.invals = []
    → us (u.rf (.csCtrl d) 15 0) ≤ dt → ∃ t, exec (.coherenceTimeout d agent dt) s = .next t ∧ u.Lost t d 2
    agent.toNat) ∧
  (∀ (s u : State) (d : Dom) (agent : BitVec 8) (dt : Nat), u = s.elapse dt → u.Calm → dt < us (u.rf (.csCtrl d) 15 0) →
    exec (.coherenceTimeout d agent dt) s = .next (u)) ∧
  (∀ (s u : State) (d : Dom) (dt n : Nat), u = s.elapse dt → u.DomainUp d → u.insts = [] → u.invals = [] → n ≤ u.clk →
    max n (tGet 0 u.stewardAt d.val) + us 10000 < u.clk → ∃ t, exec (.stewardWatchdog d ⟨dt, n⟩) s = .next t ∧ u.Lost
    t d 4 14) ∧
  (∀ (s : State) (d : Dom), s.Calm → s.live (.domain d) = true → tFind s.restart d.val = some 2 → ∃ t, exec
    (.domainRestartStep d true) s = .next t ∧ tFind t.restart d.val = some 3 ∧ t.locks = s.locks.filter (fun e => e.1
    / 65536 ≠ d.val) ∧ t.grooms = s.grooms.filter (fun e => e.1 / 128 ≠ d.val) ∧ t.dir = s.dir.filter (fun e =>
    domOfHbm (64 * e.1) ≠ d.val) ∧ (∀ r : Reg, restartAddr d.val r.addr = true → t.reg r = r.reset) ∧ (∀ r : Reg,
    restartAddr d.val r.addr = false → t.reg r = s.reg r) ∧ t.hbm = s.hbm) ∧
  (∀ (s : State) (d : Dom), s.Calm → s.live (.domain d) = true → tFind s.restart d.val = some 3 → exec
    (.domainRestartStep d true) s = .next ({ s with restart := tPut d.val 4 s.restart })) ∧
  (∀ (s : State) (d : Dom), s.Calm → s.live (.domain d) = true → tFind s.restart d.val = some 4 → exec
    (.domainRestartStep d true) s = .next
    ({ s with restart := tPut d.val 5 s.restart, hbm := s.hbm.filter (fun c => c.1 / stackSize ≠ d.val) })) ∧
  (∀ (s : State) (d : Dom), s.Calm → s.live (.domain d) = true → tFind s.restart d.val = some 6 → ∃ t, exec
    (.domainRestartStep d true) s = .next t ∧ t.domState d.val = 0 ∧ t.rf (.csStatus d) 55 48 = min (s.rf (.csStatus
    d) 55 48 + 1) 255 ∧ tFind t.restart d.val = none ∧ (t.hbm = s.hbm ∧ t.ctxs = s.ctxs ∧ t.locks = s.locks)) ∧
  (∀ (s : State) (d : Dom) (k : Nat), s.Calm → s.live (.domain d) = true → tFind s.restart d.val = some k → s.domState
    d.val = 2 → s.tack.starting = false → ∃ t, exec (.domainRestartStep d false) s = .next t ∧ t.domState d.val = 1 ∧
    t.rf (.csStatus d) 61 56 = 6 ∧ tFind t.restart d.val = none ∧ t.hbm = s.hbm)

/-- HK_ACQUIRE, HK_TRY, HK_RELEASE, HK_CANCEL and HITCH_ATOMIC (R378, R379, R381, R382, R384, R385, R387): an acquire
of a free lock owns it and raises gen; of a held one queues the master (WAITING) or, as a try, leaves it (HELD);
the owner's own is RECURSIVE; a release frees a lock that nobody waits for, passes it to the first waiter
otherwise, and by another is NOT_OWNER; a cancel removes the wait. Each answers the lock result word. A master
whose function has no entry is turned away. An atomic of the Steward on a naturally aligned location of its own
domain's HBM is an uncached write of its line and answers status 0 and the old value, with a bitwise operation on
a floating type BAD_OP (0x14) and changes nothing. -/
def Obligations.LocksAndHitchAtomics : Prop :=
  (∀ (s : State) (m : Master) (d : Dom) (n : BitVec 16) (w : Holder) (p g : Nat) (l : Lock), (s.agentLive m = true ∧
    s.live (.hitch d) = true ∧ s.masterMay m (hkAddr 0 d n) = true ∧ s.domRuns d.val = true) → s.holderOf d.val m =
    some (w, p) → l = s.lock d.val n.toNat → l.owner = none → s.waitsOn d.val w = none → g = (l.gen + 1) % 65536 → ∃
    t, exec (.hkAcquire m d n) s = .next t ∧ t.lock d.val n.toNat = { l with owner := some w, prio := p, gen := g } ∧
    t.out = .value m (hkAddr 0 d n) (mkWord 64 [(63, 56, if l.abandoned = true then 1 else 0), (47, 32, g)]) :: s.out
    ∧ t = { s with locks := t.locks, regs := t.regs, out := t.out }) ∧
  (∀ (s : State) (m : Master) (d : Dom) (n : BitVec 16) (w v : Holder) (p : Nat) (l : Lock), (s.agentLive m = true ∧
    s.live (.hitch d) = true ∧ s.masterMay m (hkAddr 0 d n) = true ∧ s.domRuns d.val = true) → s.holderOf d.val m =
    some (w, p) → l = s.lock d.val n.toNat → l.owner = some v → v ≠ w → s.waitsOn d.val w = none → p ≤ l.eff → ∃ t,
    exec (.hkAcquire m d n) s = .next t ∧ t.lock d.val n.toNat = { l with waiters := l.waiters ++ [⟨w, p, s.clk⟩] } ∧
    t.out = .value m (hkAddr 0 d n) (mkWord 64 [(63, 56, 3), (47, 32, l.gen)]) :: s.out ∧ t =
    { s with locks := t.locks, out := t.out }) ∧
  (∀ (s : State) (m : Master) (d : Dom) (n : BitVec 16) (w v : Holder) (p : Nat) (l : Lock), (s.agentLive m = true ∧
    s.live (.hitch d) = true ∧ s.masterMay m (hkAddr 1 d n) = true ∧ s.domRuns d.val = true) → s.holderOf d.val m =
    some (w, p) → l = s.lock d.val n.toNat → l.owner = some v → ∃ t, exec (.hkTry m d n) s = .next t ∧ t.out = .value
    m (hkAddr 1 d n) (mkWord 64 [(63, 56, if v = w then 0x11 else 2), (47, 32, l.gen)]) :: s.out ∧ t =
    { s with out := t.out }) ∧
  (∀ (s : State) (m : Master) (d : Dom) (n : BitVec 16) (w : Holder) (p g : Nat) (l : Lock), (s.agentLive m = true ∧
    s.live (.hitch d) = true ∧ s.masterMay m (hkAddr 1 d n) = true ∧ s.domRuns d.val = true) → s.holderOf d.val m =
    some (w, p) → l = s.lock d.val n.toNat → l.owner = none → g = (l.gen + 1) % 65536 → ∃ t, exec (.hkTry m d n) s =
    .next t ∧ t.lock d.val n.toNat = { l with owner := some w, prio := p, gen := g } ∧ t.out = .value m (hkAddr 1 d n)
    (mkWord 64 [(63, 56, if l.abandoned = true then 1 else 0), (47, 32, g)]) :: s.out ∧ t =
    { s with locks := t.locks, regs := t.regs, out := t.out }) ∧
  (∀ (s : State) (m : Master) (d : Dom) (n : BitVec 16) (w : Holder) (p : Nat) (l : Lock), (s.agentLive m = true ∧ s.live
    (.hitch d) = true ∧ s.masterMay m (hkAddr 2 d n) = true ∧ s.domRuns d.val = true) → s.holderOf d.val m = some (w,
    p) → l = s.lock d.val n.toNat → l.owner = some w → l.waiters = [] → ∃ t, exec (.hkRelease m d n) s = .next t ∧
    t.lock d.val n.toNat = { l with owner := none, prio := 0, abandoned := false } ∧ t.out = .value m (hkAddr 2 d n)
    (mkWord 64 [(47, 32, l.gen)]) :: s.out ∧ t = { s with locks := t.locks, out := t.out }) ∧
  (∀ (s : State) (m : Master) (d : Dom) (n : BitVec 16) (w : Holder) (p g : Nat) (l : Lock) (x : Waiter), (s.agentLive m
    = true ∧ s.live (.hitch d) = true ∧ s.masterMay m (hkAddr 2 d n) = true ∧ s.domRuns d.val = true) → s.holderOf
    d.val m = some (w, p) → l = s.lock d.val n.toNat → l.owner = some w → firstWaiter s.clk l.waiters = some x → g =
    (l.gen + 1) % 65536 → ∃ t, exec (.hkRelease m d n) s = .next t ∧ t.lock d.val n.toNat =
    { l with owner := some x.who, prio := x.prio, abandoned := false, gen := g, waiters := l.waiters.filter (fun v => v.who ≠ x.who) }
    ∧ (t.hbm = s.hbm ∧ t.buf = s.buf)) ∧
  (∀ (s : State) (m : Master) (d : Dom) (n : BitVec 16) (w : Holder) (p : Nat) (l : Lock), (s.agentLive m = true ∧ s.live
    (.hitch d) = true ∧ s.masterMay m (hkAddr 2 d n) = true ∧ s.domRuns d.val = true) → s.holderOf d.val m = some (w,
    p) → l = s.lock d.val n.toNat → l.owner ≠ some w → ∃ t, exec (.hkRelease m d n) s = .next t ∧ t.out = .value m
    (hkAddr 2 d n) (mkWord 64 [(63, 56, 0x10), (47, 32, l.gen)]) :: s.out ∧ t = { s with out := t.out }) ∧
  (∀ (s : State) (m : Master) (d : Dom) (n : BitVec 16) (w : Holder) (p : Nat) (l : Lock), (s.agentLive m = true ∧ s.live
    (.hitch d) = true ∧ s.masterMay m (hkAddr 3 d n) = true ∧ s.domRuns d.val = true) → s.holderOf d.val m = some (w,
    p) → l = s.lock d.val n.toNat → s.waitsOn d.val w = some n.toNat → ∃ t, exec (.hkCancel m d n) s = .next t ∧
    t.lock d.val n.toNat = { l with waiters := l.waiters.filter (fun v => v.who ≠ w) } ∧ t.out = .value m (hkAddr 3 d
    n) (mkWord 64 [(63, 56, 4), (47, 32, l.gen)]) :: s.out ∧ t = { s with locks := t.locks, out := t.out }) ∧
  (∀ (s : State) (m : Master) (d : Dom) (n : BitVec 16) (w : Holder) (p : Nat) (l : Lock), (s.agentLive m = true ∧ s.live
    (.hitch d) = true ∧ s.masterMay m (hkAddr 3 d n) = true ∧ s.domRuns d.val = true) → s.holderOf d.val m = some (w,
    p) → l = s.lock d.val n.toNat → s.waitsOn d.val w ≠ some n.toNat → ∃ t, exec (.hkCancel m d n) s = .next t ∧ t.out
    = .value m (hkAddr 3 d n) (mkWord 64 [(63, 56, 5), (47, 32, l.gen)]) :: s.out ∧ t = { s with out := t.out }) ∧
  (∀ (s : State) (m : Master) (d : Dom) (n : BitVec 16) (l : Lock), (s.agentLive m = true ∧ s.live (.hitch d) = true ∧
    s.masterMay m (hkAddr 0 d n) = true ∧ s.domRuns d.val = true) → s.holderOf d.val m = none → l = s.lock d.val
    n.toNat → ∃ t, exec (.hkAcquire m d n) s = .next t ∧ t.out = .value m (hkAddr 0 d n) (mkWord 64 [(63, 56, 0x13),
    (47, 32, l.gen)]) :: s.out ∧ t = { s with out := t.out }) ∧
  (∀ (s : State) (d : Dom) (addr b c : BitVec 64) (code : BitVec 11) (n old : Nat), s.live (.hitch d) = true → s.domRuns
    d.val = true → atomOk code.toNat = true → atomBad code.toNat = false → n = atomSize (code.toNat / 16 % 8) → (inHbm
    addr.toNat = true ∧ domOfHbm addr.toNat = d.val) → addr.toNat % n = 0 → old = ofLe (s.hbmRead addr.toNat n) → ∃ t,
    exec (.hitchAtomic d addr code b c) s = .next t ∧ t.hbm = (s.hbmWrite addr.toNat (leBytes n (atomNew code.toNat
    old b.toNat c.toNat))).hbm ∧ t.holders (addr.toNat / 64) = [] ∧ t.rf (.hkCount d) 63 32 = min (s.rf (.hkCount d)
    63 32 + 1) (2 ^ 32 - 1) ∧ t.out = .value (.steward d) addr.toNat (BitVec.ofNat 64 old) :: .hitchStatus d 0 ::
    s.out ∧ t = { s with hbm := t.hbm, dir := t.dir, hints := t.hints, regs := t.regs, out := t.out }) ∧
  (∀ (s : State) (d : Dom) (addr b c : BitVec 64) (code : BitVec 11) (n : Nat), s.live (.hitch d) = true → s.domRuns
    d.val = true → atomOk code.toNat = true → atomBad code.toNat = true → n = atomSize (code.toNat / 16 % 8) → (inHbm
    addr.toNat = true ∧ domOfHbm addr.toNat = d.val) → addr.toNat % n = 0 → exec (.hitchAtomic d addr code b c) s =
    .next ({ s with out := .hitchStatus d 0x14 :: s.out }))

/-- TIME_SYNC_SEND and _RECEIVE, TIME_CANDIDATE_EXPIRY, PPS_IN_EDGE, PPS_MISSING, PPS_OUT_PULSE, TIME_EXCLUSION_CHANGE
and NT_SEED_ARM (R391 to R400): a port in UP owes a TIME_SYNC once a sync period has passed; one received is kept
with the time at which its frame arrived; the only candidate becomes the parent, and dist is one more; two
consecutive ones give θ and the link delay; with θ of at most 1 µs and the same epoch NT is not stepped, the
filtered θ stays within 1 µs (what the filter gives between the exchanges is the model's free value, log entry
25), and the rate correction, at most 200 ppm, has not its sign; a new epoch is adopted with a step of −θ; once
the only candidate is more than 4 sync periods old the chip is in holdover at dist 63; an armed root is seeded at
the first edge after the arming, with the epoch after the highest it has seen; an edge without arming, or observed
together with it, steers the rate; a root without edges for more than 2 s is in holdover at its dist; other chips
ignore the edge. PPS_OUT rises within 1 ns after a whole second while valid is 1, and falls 100 ns later or when
valid is 0. A condition of R400 excludes the chip, with a DEGRADE; it is readmitted 100 ms after the last one.
NT_SEED takes a value of fewer than 1,152,921,505 seconds, its arm staying until it is applied, and refuses
another with a NOTE. -/
def Obligations.NetworkTimeIsKept : Prop :=
  (∀ (s u : State) (p : Port) (dt : Nat), u = s.elapse dt → u.live (.port p) = true → u.portState p = 3 → (u.port
    p).syncAt + us (u.rf .ntCtrl 41 32) ≤ u.clk → 2 ≤ (u.port p).res 0 → ∃ t, exec (.timeSyncSend p dt) s = .next t ∧
    t.port p = { u.port p with syncAt := u.clk, txBypass := (u.port p).txBypass ++ [true] } ∧ t =
    { u with ports := t.ports }) ∧
  (∀ (s : State) (p : Port) (h : BitVec 512), s.Hears p h → (s.port p).offset h = none → ∃ t, exec (.timeSyncReceive p) s
    = .next t ∧ (t.port p).rx = some ⟨fld h 351 320, fld h 319 314, true, fld h 367 352, s.clk, (s.port
    p).syncIn.headD s.nt.toNat⟩ ∧ (t.port p).delay = (s.port p).delay ∧ t.ntDist = fld h 319 314 + 1 ∧ t.rf .ntStatus
    49 44 = p.val ∧ t.rb .ntStatus 61 = false ∧ t.nt = s.nt ∧ t.ntEpoch = s.ntEpoch ∧ tGet [] (t.port p).ibuf 0 =
    (tGet [] (s.port p).ibuf 0).drop 1 ∧ t.hbm = s.hbm) ∧
  (∀ (s : State) (p : Port) (h : BitVec 512) (r : SyncRx) (t3 : Nat) (th : Int), s.Hears p h → (s.port p).rx = some r →
    fld h 367 352 = (r.seq + 1) % 65536 → (s.port p).sent.find? (fun e => e.1 = fld h 239 224) = some (fld h 239 224,
    t3) → th = (((r.nt : Int) - (fld h 303 240 : Nat)) - ((fld h 223 160 : Nat) - (t3 : Int))) / 2 → fld h 351 320 =
    s.ntEpoch → th.natAbs ≤ 16000 → s.thetas.all (fun x => decide (x.natAbs ≤ 16000)) = true → ∃ t, exec
    (.timeSyncReceive p) s = .next t ∧ t.nt = s.nt ∧ t.ntEpoch = s.ntEpoch ∧ t.ntDist = fld h 319 314 + 1 ∧ (toSigned
    32 (t.rf .ntOffset 31 0)).natAbs ≤ 200000 ∧ (toSigned 32 (t.rf .ntOffset 63 32)).natAbs ≤ 16000 ∧ (s.thetas = [] →
    toSigned 32 (t.rf .ntOffset 63 32) = th) ∧ (0 < toSigned 32 (t.rf .ntOffset 63 32) → toSigned 32 (t.rf .ntOffset
    31 0) ≤ 0) ∧ (toSigned 32 (t.rf .ntOffset 63 32) < 0 → 0 ≤ toSigned 32 (t.rf .ntOffset 31 0)) ∧ (t.port p).delay =
    some ((((r.nt : Int) - (fld h 303 240 : Nat)) + ((fld h 223 160 : Nat) - (t3 : Int))) / 2) ∧ t.rb .ntStatus 59 =
    s.rb .ntStatus 59 ∧ t.hbm = s.hbm) ∧
  (∀ (s : State) (p : Port) (h : BitVec 512) (r : SyncRx) (t3 : Nat) (th : Int), s.Hears p h → (s.port p).rx = some r →
    fld h 367 352 = (r.seq + 1) % 65536 → (s.port p).sent.find? (fun e => e.1 = fld h 239 224) = some (fld h 239 224,
    t3) → th = (((r.nt : Int) - (fld h 303 240 : Nat)) - ((fld h 223 160 : Nat) - (t3 : Int))) / 2 → (fld h 351 320 ≠
    s.ntEpoch ∧ fld h 351 320 ≠ 0) → ∃ t, exec (.timeSyncReceive p) s = .next t ∧ t.nt = s.nt - BitVec.ofInt 64 th ∧
    t.ntEpoch = fld h 351 320 ∧ t.rb .ntStatus 63 = true ∧ t.rb .ntStatus 59 = true ∧ t.clk = s.clk ∧ t.hbm = s.hbm) ∧
  (∀ (s u : State) (p : Port) (dt : Nat) (r : SyncRx), u = s.elapse dt → u.live (.port p) = true → (u.port p).rx = some r
    → r.at_ + 4 * us (u.rf .ntCtrl 41 32) < u.clk → u.isRoot = false → (∀ q : Port, q ≠ p → (u.port q).rx = none) → ∃
    t, exec (.timeCandidateExpiry p dt) s = .next t ∧ t.ports = u.ports ∧ t.ntDist = 63 ∧ t.rb .ntStatus 61 = true ∧
    t.holdSince = (if u.holdSince.isSome then u.holdSince else some u.clk) ∧ t.nt = u.nt ∧ t.hbm = u.hbm) ∧
  (∀ (s u : State) (dt m : Nat), u = s.elapse dt → u.live .global = true → u.isRoot = true → (u.rb .ntSeed 63 = true ∧
    u.armedAt < u.clk) → m = u.ntEpoch → (u.epochSeen = 0 ∨ u.epochSeen = m) → u.rf .ntSeed 62 31 = 0 → m + 1 < 2 ^ 32
    → ∃ t, exec (.ppsInEdge dt) s = .next t ∧ t.nt = BitVec.ofNat 64 (u.rf .ntSeed 30 0 * 16 * 10 ^ 9) ∧ t.ntEpoch = m
    + 1 ∧ t.rb .ntStatus 63 = true ∧ t.ntDist = 0 ∧ t.rb .ntSeed 63 = false ∧ t.rb .ntStatus 59 = true ∧ (t.clk =
    u.clk ∧ t.hbm = u.hbm)) ∧
  (∀ (s u : State) (dt : Nat), u = s.elapse dt → u.live .global = true → u.isRoot = true → (u.rb .ntSeed 63 = false ∨
    u.clk ≤ u.armedAt) → ∃ t, exec (.ppsInEdge dt) s = .next t ∧ t.nt = u.nt ∧ t.ntEpoch = u.ntEpoch ∧ t.rb .ntStatus
    61 = false ∧ (t.ppsAt = u.clk ∧ t.ppsNt = u.nt) ∧ (u.ppsNt ≠ none → (toSigned 32 (t.rf .ntOffset 31 0)).natAbs ≤
    200000) ∧ t.reg .ntSeed = u.reg .ntSeed ∧ t.hbm = u.hbm) ∧
  (∀ (s u : State) (dt : Nat), u = s.elapse dt → u.isRoot = false → exec (.ppsInEdge dt) s = .next (u)) ∧
  (∀ (s u : State) (dt : Nat), u = s.elapse dt → u.live .global = true → u.isRoot = true → u.rb .ntStatus 61 = false →
    u.ppsAt + us 2000000 < u.clk → ∃ t, exec (.ppsMissing dt) s = .next t ∧ t.rb .ntStatus 61 = true ∧ t.ntDist =
    u.ntDist ∧ t.holdSince = some u.clk ∧ t = { u with regs := t.regs, holdSince := t.holdSince }) ∧
  (∀ (s u : State) (dt : Nat), u = s.elapse dt → u.live .global = true → u.ppsOut = none → u.rb .ntStatus 63 = true →
    u.nt.toNat % 16000000000 ≤ 16 → exec (.ppsOutPulse dt) s = .next ({ u with ppsOut := some u.clk })) ∧
  (∀ (s u : State) (dt t0 : Nat), u = s.elapse dt → u.live .global = true → u.ppsOut = some t0 → (t0 + 1600 ≤ u.clk ∨
    u.rb .ntStatus 63 = false) → exec (.ppsOutPulse dt) s = .next ({ u with ppsOut := none })) ∧
  (∀ (s u : State) (dt : Nat), u = s.elapse dt → u.live .global = true → u.rb .ntStatus 62 = false → (u.rb .ntStatus 63 =
    false ∨ (1 ≤ u.ntDist ∧ u.ntDist ≤ 62 ∧ 16 * u.rf .ntCtrl 31 16 < (toSigned 32 (u.rf .ntOffset 63 32)).natAbs) ∨
    (u.isRoot = false ∧ u.holdSince.any (fun t0 => decide (t0 + us 1000000 < u.clk)) = true)) → ∃ t, exec
    (.timeExclusionChange dt) s = .next t ∧ t.rb .ntStatus 62 = true ∧ t.rb .ntStatus 60 = true ∧ t.rb (.ftStatus
    .global) 1 = true ∧ (t.nt = u.nt ∧ t.hbm = u.hbm)) ∧
  (∀ (s u : State) (dt t0 : Nat), u = s.elapse dt → u.live .global = true → u.rb .ntStatus 62 = true → (u.rb .ntStatus 63
    = true ∧ (u.ntDist = 0 ∨ u.ntDist = 63 ∨ (toSigned 32 (u.rf .ntOffset 63 32)).natAbs ≤ 16 * u.rf .ntCtrl 31 16)) →
    u.holdSince = none → u.goodSince = some t0 → t0 + us 100000 ≤ u.clk → ∃ t, exec (.timeExclusionChange dt) s =
    .next t ∧ t.rb .ntStatus 62 = false ∧ t.rb .ntStatus 60 = u.rb .ntStatus 60 ∧ t = { u with regs := t.regs }) ∧
  (∀ (s : State) (v : BitVec 64), s.live .global = true → fld v 30 0 < 1152921505 → ∃ t, exec (.ntSeedArm v) s = .next t
    ∧ t.reg .ntSeed = setBit v 63 (bit v 63 || s.rb .ntSeed 63) ∧ t.armedAt = (if bit v 63 = true ∧ s.rb .ntSeed 63 =
    false then s.clk else s.armedAt) ∧ t = { s with regs := t.regs, armedAt := t.armedAt }) ∧
  (∀ (s : State) (v : BitVec 64), s.live .global = true → 1152921505 ≤ fld v 30 0 → ∃ t, exec (.ntSeedArm v) s = .next t
    ∧ t.reg .ntSeed = s.reg .ntSeed ∧ t.rb (.ftStatus .global) 0 = true ∧ t.hbm = s.hbm)

/-- SHAPER_REFILL, GATE_ENTRY_ADVANCE, GATE_SWITCH_REQUEST, GATE_SWITCH, EPOCH_SWITCH, EPOCH_GRACE_END, DRAIN_COMPLETE
and DRAIN_TIMEOUT (R403, R404, R405, R407, R424, R425, R427): tokens rise by 8 × rate for each whole µs, up to 64
× depth, and a newly enabled shaper starts full; the entry shown is the one in force; a switch takes effect at the
first cycle start of the new bank at or after its time, and one to a bank that breaks R405 is refused; at
switch_at the shadow bank operates, and after its grace the epoch is the new one; a drained DOMAIN topcoat's
register record is performed, and a scope not drained within its bound is resumed unchanged with DRAIN_TIMEOUT
(0x0C). -/
def Obligations.ShapersGatesAndEpochsFollowTime : Prop :=
  (∀ (s u : State) (dt n : Nat) (p : Port) (c : Fin 7) (x : Shaper) (w : Word), u = s.elapse dt → u.live .global = true →
    u.nt.toNat / 16000 = (u.port p).refill + n → 1 ≤ n → w = u.reg (.egShape p c) → x = (u.port p).shaper c.val → ∃ t,
    exec (.shaperRefill dt) s = .next t ∧ (bit w 63 = true → x.on = true → ((t.port p).shaper c.val).tokens = min (64
    * (fld w 43 32 : Int)) (x.tokens + 8 * (fld w 61 48 : Int) * n)) ∧ (bit w 63 = true → x.on = false → ((t.port
    p).shaper c.val).tokens = 64 * (fld w 43 32 : Int)) ∧ ((t.port p).shaper c.val).on = bit w 63 ∧ (t.port p).refill
    = (u.port p).refill + n ∧ t = { u with ports := t.ports }) ∧
  (∀ (s u : State) (p : Port) (dt i ph c : Nat) (b : Fin 2), u = s.elapse dt → u.live (.port p) = true → b = u.operGate p
    → i < u.gateLen p b → c = ((List.range (u.gateLen p b)).map (u.gateDur p b)).sum → ph = (((u.nt.toNat : Int) - 16
    * (u.rf (.egGateBase p b) 59 0 : Nat)) % (16 * (c : Int))).toNat → 16 * ((List.range i).map (u.gateDur p b)).sum ≤
    ph → ph < 16 * ((List.range (i + 1)).map (u.gateDur p b)).sum → ∃ t, exec (.gateEntryAdvance p dt) s = .next t ∧
    t.rf (.egGateCtrl p) 37 32 = i ∧ t.rf (.egGateCtrl p) 63 40 = u.rf (.egGateCtrl p) 63 40 ∧ t =
    { u with regs := t.regs }) ∧
  (∀ (s : State) (p : Port) (v : BitVec 64), s.live (.port p) = true → (v &&& 0x0FF000C0FFFFFFFF) = 0 → s.operGate p = 0
    → fld v 45 40 = s.rf (.egGateCtrl p) 45 40 → ∃ t, exec (.gateSwitchRequest p v) s = .next t ∧ t.rb (.egGateCtrl p)
    63 = bit v 63 ∧ t.rb (.egGateCtrl p) 62 = (bit v 62 || s.rb (.egGateCtrl p) 62) ∧ t.rb (.egGateCtrl p) 61 = bit v
    61 ∧ t.rb (.egGateCtrl p) 60 = false ∧ t.rf (.egGateCtrl p) 51 40 = fld v 51 40 ∧ (bit v 62 = true → (t.port
    p).gateAsked = s.nt.toNat) ∧ t = { s with regs := t.regs, ports := t.ports }) ∧
  (∀ (s u : State) (p : Port) (dt start c : Nat) (b : Fin 2), u = s.elapse dt → u.live (.port p) = true → u.rb
    (.egGateCtrl p) 62 = true → b = (if u.rb (.egGateCtrl p) 61 = true then 1 else 0) → u.gateBad p b = false → c =
    ((List.range (u.gateLen p b)).map (u.gateDur p b)).sum → (u.rf (.egGateSwitch p) 59 0 ≤ start ∧ start < u.rf
    (.egGateSwitch p) 59 0 + c) → ((start : Int) - (u.rf (.egGateBase p b) 59 0 : Nat)) % (c : Int) = 0 → ∃ t, exec
    (.gateSwitch p dt) s = .next t ∧ (16 * start ≤ u.nt.toNat → t.rb (.egGateCtrl p) 60 = decide (b = 1) ∧ t.rf
    (.egGateCtrl p) 37 32 = 0 ∧ t.rb (.egGateCtrl p) 62 = false) ∧ (u.nt.toNat < 16 * start → t = u) ∧ t =
    { u with regs := t.regs }) ∧
  (∀ (s u : State) (p : Port) (dt : Nat) (b : Fin 2), u = s.elapse dt → u.live (.port p) = true → u.rb (.egGateCtrl p) 62
    = true → b = (if u.rb (.egGateCtrl p) 61 = true then 1 else 0) → (((List.range (u.gateLen p b)).map (u.gateDur p
    b)).sum < 1000 ∨ 10 ^ 9 < ((List.range (u.gateLen p b)).map (u.gateDur p b)).sum ∨ (List.range (u.gateLen p
    b)).any (fun i => u.gateDur p b i < 50) = true) → ∃ t, exec (.gateSwitch p dt) s = .next t ∧ t.rb (.egGateCtrl p)
    62 = false ∧ t.rb (.egGateCtrl p) 59 = true ∧ t.rb (.egGateCtrl p) 60 = u.rb (.egGateCtrl p) 60 ∧ t.rb (.ftStatus
    (.port p)) 0 = true ∧ t.hbm = u.hbm) ∧
  (∀ (s u : State) (dt : Nat) (b : RtBank), u = s.elapse dt → u.Calm → u.live .global = true → u.newBank = some b → u.rf
    .rtEpochAt 59 0 ≤ u.nt.toNat / 16 → ∃ t, exec (.epochSwitch dt) s = .next t ∧ t.newBank = none ∧ t.oldBank = some
    ⟨u.regs.filter (fun e => isExc e.1), u.retired⟩ ∧ t.retired = b.retire ∧ (t.rb .rtEpoch 31 = false ∧ t.rb .rtEpoch
    30 = true) ∧ t.rf .rtEpoch 63 32 = u.rf .rtEpoch 63 32 ∧ t.hbm = u.hbm) ∧
  (∀ (s u : State) (dt : Nat), u = s.elapse dt → u.Calm → u.live .global = true → u.oldBank.isSome = true → u.rf
    .rtEpochAt 59 0 + 1000 * u.rf .rtEpoch 29 24 ≤ u.nt.toNat / 16 → u.loadedEpoch < 2 ^ 32 → ∃ t, exec
    (.epochGraceEnd dt) s = .next t ∧ t.oldBank = none ∧ t.rb .rtEpoch 30 = false ∧ t.rf .rtEpoch 63 32 =
    u.loadedEpoch ∧ t = { u with oldBank := none, regs := t.regs }) ∧
  (∀ (s : State) (j : CoatJob) (d : Dom) (m v : Word), s.todo = [] → s.live .global = true → s.tack.coat = some j →
    (j.scope = 5 ∧ j.unit = d.val) → s.domRuns d.val = true → s.rf .coStatus 63 61 = 2 → j.secs = [(7, bytesOf
    [BitVec.ofNat 64 (Reg.csCtrl d).addr, m, v])] → (m &&& 0x1FFFF) = m → s.mbox.run = none → ∃ t, exec .drainComplete
    s = .next t ∧ t.reg (.csCtrl d) = (s.reg (.csCtrl d) &&& ~~~m) ||| (v &&& m) ∧ t.tack.coat = none ∧ t.holdDom =
    none ∧ t.rf .coStatus 63 61 = 0 ∧ t.rf .coStatus 55 48 = 0 ∧ t.rf .coSerial 31 0 = j.serial % 2 ^ 32 ∧
    t.tack.chained = s.tack.chained + 1 ∧ t.hbm = s.hbm) ∧
  (∀ (s u : State) (dt : Nat) (j : CoatJob) (p : Port), u = s.elapse dt → u.todo = [] → u.live .global = true →
    u.tack.coat = some j → (j.scope = 2 ∧ j.unit = p.val) → u.portState p ≠ 6 → u.rf .coStatus 63 61 = 2 → (u.port
    p).outv ≠ [] → j.since + us 100 ≤ u.clk → u.mbox.run = none → ∃ t, exec (.drainTimeout dt) s = .next t ∧
    t.tack.coat = none ∧ t.holdPort = none ∧ t.rf .coStatus 63 61 = 0 ∧ t.rf .coStatus 55 48 = 0x0C ∧ (t.ports =
    u.ports ∧ t.hbm = u.hbm) ∧ t.rf .coSerial 31 0 = u.rf .coSerial 31 0)

/-- PACKET_RECEIVE (R263, R268, R272, R373): a damaged packet is discarded and counted; one of a fenced domain's
context is discarded and counted there; an answer passes to the initiator; one for no context of this chip is
answered by NACK CTX_INVALID, sent for no context, a malformed one by NACK MALFORMED with the flow's cum and map,
one of no flow by FLOW_UNKNOWN, and none of these changes any flow; FLOW_OPEN makes a record from its PSN and
sends an ACK, repeats the ACK when the record has that start PSN, begins a new record for another, and is refused
with RESOURCE when no record can be had. With no packet waiting nothing changes. -/
def Obligations.EndpointsTakeOrRefuseAPacket : Prop :=
  (∀ (s : State) (p : Pkt) (x : Option Port) (rest : List Ejected) (st : Stall), s.Arrives p x rest → (Pkt.poisoned p =
    true ∨ Pkt.ecrcOf p ≠ Pkt.ecrc p) → (s.ctx? (Pkt.dctx p)).isSome = true → st = stallOf (s.ctxStall (Pkt.dctx p)) →
    ∃ t, exec .packetReceive s = .next t ∧ t.rf (.rmaErrcnt st) 63 48 = min (s.rf (.rmaErrcnt st) 63 48 + 1) 65535 ∧
    t.rf (.rmaErrcnt st) 47 0 = s.rf (.rmaErrcnt st) 47 0 ∧ (∀ q : Reg, q.addr ≠ (Reg.rmaErrcnt st).addr → t.reg q =
    s.reg q) ∧ t = { s with eject := rest, regs := t.regs }) ∧
  (∀ (s : State) (p : Pkt) (x : Option Port) (rest : List Ejected) (d : Dom), s.Arrives p x rest → Pkt.Sound p → (Pkt.opc
    p ≠ 0x10 ∧ Pkt.opc p ≠ 0x11 ∧ Pkt.opc p ≠ 0x1F) → (d = domOf (s.ctxDom (Pkt.dctx p)) ∧ s.domRuns d.val = false) →
    ∃ t, exec .packetReceive s = .next t ∧ t.rf (.csCount d) 31 0 = min (s.rf (.csCount d) 31 0 + 1) 0xFFFFFFFF ∧ (∀ q
    : Reg, q.addr ≠ (Reg.csCount d).addr → t.reg q = s.reg q) ∧ t = { s with eject := rest, regs := t.regs }) ∧
  (∀ (s : State) (p : Pkt) (x : Option Port) (rest : List Ejected), s.Arrives p x rest → Pkt.Sound p → s.domRuns
    (s.ctxDom (Pkt.dctx p)) = true → (Pkt.opc p = 3 ∨ Pkt.opc p = 5 ∨ Pkt.opc p = 8 ∨ Pkt.opc p = 9) → exec
    .packetReceive s = .next ({ s with eject := rest, toInit := s.toInit ++ [p] })) ∧
  (∀ (s : State) (p : Pkt) (x : Option Port) (rest : List Ejected), s.Arrives p x rest → Pkt.Sound p → (s.ctx? (Pkt.dctx
    p) = none ∧ s.domRuns (s.ctxDom (Pkt.dctx p)) = true) → (Pkt.opc p = 1 ∨ Pkt.opc p = 2 ∨ Pkt.opc p = 4 ∨ Pkt.opc p
    = 6 ∨ Pkt.opc p = 0x18) → ∃ t, exec .packetReceive s = .next t ∧ s.AnsweredBy t rest 0 (nackFor p (s.rf .rtCoord
    15 0 * 256 + 31) 0 0 0x02 0) ∧ t.rf (.rmaErrcnt 0) 47 32 = min (s.rf (.rmaErrcnt 0) 47 32 + 1) 65535) ∧
  (∀ (s : State) (p : Pkt) (x : Option Port) (rest : List Ejected) (f : Nat) (tf : TFlow), s.Arrives p x rest → Pkt.Sound
    p → ((s.ctx? (Pkt.dctx p)).isSome = true ∧ s.domRuns (s.ctxDom (Pkt.dctx p)) = true ∧ s.Knows p f tf) → (Pkt.opc p
    = 1 ∨ Pkt.opc p = 2 ∨ Pkt.opc p = 4 ∨ Pkt.opc p = 6 ∨ Pkt.opc p = 0x18) → Pkt.malformed p = true → ∃ t, exec
    .packetReceive s = .next t ∧ s.AnsweredBy t rest (s.ctxStall (Pkt.dctx p)) (nackFor p (s.ctxFa (Pkt.dctx p))
    tf.cum tf.map 0x01 0)) ∧
  (∀ (s : State) (p : Pkt) (x : Option Port) (rest : List Ejected), s.Arrives p x rest → s.Requests p → s.findTfl p =
    none → ∃ t, exec .packetReceive s = .next t ∧ s.AnsweredBy t rest (s.ctxStall (Pkt.dctx p)) (nackFor p (s.ctxFa
    (Pkt.dctx p)) 0 0 0x10 0)) ∧
  (∀ (s : State) (p : Pkt) (x : Option Port) (rest : List Ejected) (f : Nat) (r : Reg), s.Arrives p x rest → Pkt.Sound p
    → ((s.ctx? (Pkt.dctx p)).isSome = true ∧ s.domRuns (s.ctxDom (Pkt.dctx p)) = true) → (Pkt.opc p = 0x18 ∧ Pkt.tag p
    / 2 ^ 56 = 1 ∧ Pkt.malformed p = false) → (s.findTfl p = none ∧ s.flowRoom (Pkt.dctx p) = true) → (f = s.serial ∧
    r = .flowPool (domOf (s.ctxDom (Pkt.dctx p)))) → ∃ t, exec .packetReceive s = .next t ∧ tFind t.tfl f = some
    (TFlow.fresh p s.clk (s.reg (.rmaCtrl (domOf (s.ctxDom (Pkt.dctx p)))))) ∧ (tFind t.tfl f).map (fun y => (y.srcFa,
    y.sctx, y.dctx, y.start)) = some (Pkt.srcFa p, Pkt.sctx p, Pkt.dctx p, Pkt.psn p) ∧ (tFind t.tfl f).map (fun y =>
    (y.cum, y.nextMsn, y.deliv)) = some (Pkt.psn p, 0, []) ∧ (∀ g, g ≠ f → tFind t.tfl g = tFind s.tfl g) ∧ t.rf r 63
    40 = s.rf r 63 40 - 1 ∧ t.inject = tMod [] (4 * s.ctxStall (Pkt.dctx p)) (· ++ [s.ackFor (TFlow.fresh p s.clk 0)
    0]) s.inject ∧ t =
    { s with eject := rest, tfl := t.tfl, inject := t.inject, regs := t.regs, serial := s.serial + 1 }) ∧
  (∀ (s : State) (p : Pkt) (x : Option Port) (rest : List Ejected) (f : Nat) (tf : TFlow), s.Arrives p x rest → Pkt.Sound
    p → ((s.ctx? (Pkt.dctx p)).isSome = true ∧ s.domRuns (s.ctxDom (Pkt.dctx p)) = true ∧ s.Knows p f tf) → (Pkt.opc p
    = 0x18 ∧ Pkt.tag p / 2 ^ 56 = 1 ∧ Pkt.malformed p = false) → ∃ t, exec .packetReceive s = .next t ∧ (Pkt.psn p =
    tf.start → tFind t.tfl f = some
    { tf with newestPsn := Pkt.psn p, newestTsl := Pkt.tsl p, newestAt := s.clk, lastRx := s.clk, unacked := 0, firstUnacked := none })
    ∧ (Pkt.psn p = tf.start → t.inject = tMod [] (4 * s.ctxStall (Pkt.dctx p)) (· ++ [s.ackFor
    { tf with newestPsn := Pkt.psn p, newestTsl := Pkt.tsl p } 0]) s.inject) ∧ (Pkt.psn p = tf.start → t =
    { s with eject := rest, tfl := t.tfl, inject := t.inject, regs := t.regs }) ∧ (Pkt.psn p ≠ tf.start → ∃ g, (tFind
    t.tfl g).map (fun y => (y.srcFa, y.sctx, y.dctx, y.start, y.cum, y.nextMsn, y.deliv, y.held, y.sends, y.prog)) =
    some (Pkt.srcFa p, Pkt.sctx p, Pkt.dctx p, Pkt.psn p, Pkt.psn p, 0, [], none, [], []))) ∧
  (∀ (s : State) (p : Pkt) (x : Option Port) (rest : List Ejected), s.Arrives p x rest → Pkt.Sound p → ((s.ctx? (Pkt.dctx
    p)).isSome = true ∧ s.domRuns (s.ctxDom (Pkt.dctx p)) = true) → (Pkt.opc p = 0x18 ∧ Pkt.tag p / 2 ^ 56 = 1 ∧
    Pkt.malformed p = false) → (s.findTfl p = none ∧ s.flowRoom (Pkt.dctx p) = false) → ∃ t, exec .packetReceive s =
    .next t ∧ s.AnsweredBy t rest (s.ctxStall (Pkt.dctx p)) (nackFor p (s.ctxFa (Pkt.dctx p)) 0 0 0x12 0)) ∧
  (∀ (s : State), (s.Calm ∧ s.eject = []) → exec .packetReceive s = .next (s))

/-- PACKET_RECEIVE of a request on a flow, ACK_DELAY_EXPIRY and FLOW_IDLE_EXPIRY at the target (R265, R269, R270,
R271, R274, R275, R277, R279): a PSN above the window, or one held or in progress, is discarded without
acknowledgement; a duplicate has no effect but its answer, an ACK, the NACK of a refusal, or the cached result of
an atomic; a flagged packet ahead of a missing PSN is held, and a second discarded; a New PUT writes its bytes, a
New atomic is performed and its result cached, and either delivers its PSN; one that its key does not allow is
refused with nothing written; the ACK follows ack_delay; an idle record is freed after flow_idle. -/
def Obligations.TargetsApplyEachPacketOnce : Prop :=
  (∀ (s : State) (p : Pkt) (x : Option Port) (rest : List Ejected) (f : Nat) (tf : TFlow) (r : Reg), (s.Arrives p x rest
    ∧ s.Knows p f tf) → s.Requests p → (256 < dist 32 (Pkt.psn p) tf.cum ∧ 2 ^ 31 ≤ dist 32 tf.cum (Pkt.psn p) ∧
    Pkt.psn p ∉ tf.deliv) → r = .rmaCount (stallOf (s.ctxStall tf.dctx)) → ∃ t, exec .packetReceive s = .next t ∧ t.rf
    r 31 16 = min (s.rf r 31 16 + 1) 65535 ∧ (∀ q : Reg, q.addr ≠ r.addr → t.reg q = s.reg q) ∧ t =
    { s with eject := rest, tfl := tPut f { tf with lastRx := s.clk } s.tfl, regs := t.regs }) ∧
  (∀ (s : State) (p : Pkt) (x : Option Port) (rest : List Ejected) (f : Nat) (tf : TFlow), (s.Arrives p x rest ∧ s.Knows
    p f tf) → s.Requests p → (dist 32 (Pkt.psn p) tf.cum ≤ 256 ∧ 1 ≤ dist 32 (Pkt.psn p) tf.cum ∧ Pkt.psn p ∉
    tf.deliv) → (tf.held.any (fun h => Pkt.psn h = Pkt.psn p) = true ∨ tf.issued.any (fun i => i.psn = Pkt.psn p) =
    true) → exec .packetReceive s = .next ({ s with eject := rest, tfl := tPut f { tf with lastRx := s.clk } s.tfl })) ∧
  (∀ (s : State) (p : Pkt) (x : Option Port) (rest : List Ejected) (f : Nat) (tf : TFlow) (r : Reg), (s.Arrives p x rest
    ∧ s.Knows p f tf) → s.Requests p → (dist 32 tf.cum (Pkt.psn p) < 2 ^ 31 ∨ Pkt.psn p ∈ tf.deliv) → (Pkt.psn p ∉
    tf.refused ∧ Pkt.opc p ≠ 2 ∧ Pkt.opc p ≠ 4) → r = .rmaCount (stallOf (s.ctxStall tf.dctx)) → ∃ t, exec
    .packetReceive s = .next t ∧ t.rf r 47 32 = min (s.rf r 47 32 + 1) 65535 ∧ t.inject = tMod [] (4 * s.ctxStall
    tf.dctx) (· ++ [s.ackFor { tf with newestPsn := Pkt.psn p, newestTsl := Pkt.tsl p } 0]) s.inject ∧ tFind t.tfl f =
    some
    { tf with newestPsn := Pkt.psn p, newestTsl := Pkt.tsl p, newestAt := s.clk, lastRx := s.clk, unacked := 0, firstUnacked := none }
    ∧ t = { s with eject := rest, tfl := t.tfl, inject := t.inject, regs := t.regs }) ∧
  (∀ (s : State) (p : Pkt) (x : Option Port) (rest : List Ejected) (f : Nat) (tf : TFlow), (s.Arrives p x rest ∧ s.Knows
    p f tf) → s.Requests p → (dist 32 tf.cum (Pkt.psn p) < 2 ^ 31 ∨ Pkt.psn p ∈ tf.deliv) → (Pkt.psn p ∈ tf.refused ∧
    tf.cause ≠ 2) → ∃ t, exec .packetReceive s = .next t ∧ t.inject = tMod [] (4 * s.ctxStall tf.dctx) (· ++ [nackFor
    p (s.ctxFa tf.dctx) tf.cum tf.map tf.cause tf.causeDetail]) s.inject ∧ t =
    { s with eject := rest, tfl := tPut f { tf with lastRx := s.clk } s.tfl, inject := t.inject, regs := t.regs }) ∧
  (∀ (s : State) (p : Pkt) (x : Option Port) (rest : List Ejected) (f : Nat) (tf : TFlow) (a : Option (Nat × Word ×
    Nat)), (s.Arrives p x rest ∧ s.Knows p f tf) → s.Requests p → (dist 32 tf.cum (Pkt.psn p) < 2 ^ 31 ∨ Pkt.psn p ∈
    tf.deliv) → (Pkt.psn p ∉ tf.refused ∧ Pkt.opc p = 4 ∧ a = tf.atoms.find? (fun a => a.1 = Pkt.psn p)) → ∃ t, exec
    .packetReceive s = .next t ∧ (a = none → t.inject = s.inject) ∧ (a.isSome = true → t.inject = tMod [] (4 *
    s.ctxStall tf.dctx + 2) (· ++ [s.atomRsp tf p (a.getD (0, 0, 0)).2.1.toNat]) s.inject) ∧ t =
    { s with eject := rest, tfl := tPut f { tf with lastRx := s.clk } s.tfl, inject := t.inject, regs := t.regs }) ∧
  (∀ (s : State) (p : Pkt) (x : Option Port) (rest : List Ejected) (f : Nat) (tf : TFlow) (r : Reg), (s.Arrives p x rest
    ∧ s.Knows p f tf) → s.Requests p → (2 ≤ dist 32 (Pkt.psn p) tf.cum ∧ dist 32 (Pkt.psn p) tf.cum ≤ 256) → (tf.deliv
    = [] ∧ tf.sends = [] ∧ tf.issued = [] ∧ tf.held.all (fun h => Pkt.psn h ≠ Pkt.psn p) = true) → (Pkt.flagged p =
    true ∧ r = .rmaCount (stallOf (s.ctxStall tf.dctx))) → ∃ t, exec .packetReceive s = .next t ∧ (tf.held = none → t
    = { s with eject := rest, tfl := t.tfl } ∧ tFind t.tfl f = some { tf with lastRx := s.clk, held := some p }) ∧
    (tf.held ≠ none → t.rf r 15 0 = min (s.rf r 15 0 + 1) 65535 ∧ t =
    { s with eject := rest, tfl := tPut f { tf with lastRx := s.clk } s.tfl, regs := t.regs })) ∧
  (∀ (s : State) (p : Pkt) (x : Option Port) (rest : List Ejected) (f : Nat) (tf : TFlow) (cause : Nat), (s.Arrives p x
    rest ∧ s.Knows p f tf) → s.Requests p → s.Next p tf → Pkt.opc p = 1 → (s.keyCheck tf.dctx (Pkt.key p) (Pkt.addr p
    + Pkt.moff p) (min 4096 (Pkt.mlen p - Pkt.moff p)) 61 = cause ∧ cause ≠ 0) → ∃ t, exec .packetReceive s = .next t
    ∧ (tGet [] t.inject (4 * s.ctxStall tf.dctx)).length = (tGet [] s.inject (4 * s.ctxStall tf.dctx)).length + 1 ∧
    ((tGet [] t.inject (4 * s.ctxStall tf.dctx)).getLast?).map (fun q => (Pkt.opc q, Pkt.psn q, Pkt.key q / 2 ^ 24,
    Pkt.moff q)) = some (9, Pkt.psn p, cause, Pkt.psn p) ∧ (tFind t.tfl f).map (fun y => (y.cum, y.deliv, y.refused,
    y.cause)) = some (Pkt.psn p, [], [Pkt.psn p], cause) ∧ (t.hbm = s.hbm ∧ t.ops = s.ops ∧ t.cqs = s.cqs ∧ t.eject =
    rest)) ∧
  (∀ (s : State) (p : Pkt) (x : Option Port) (rest : List Ejected) (f n va a : Nat) (tf : TFlow) (e : XlEntry),
    (s.Arrives p x rest ∧ s.Knows p f tf) → s.Requests p → s.Next p tf → (Pkt.opc p = 1 ∧ Pkt.moff p = 0 ∧ n =
    Pkt.mlen p ∧ 1 ≤ n ∧ n ≤ 4096) → (va = Pkt.addr p ∧ va % 4096 + n ≤ 4096) → s.keyCheck tf.dctx (Pkt.key p) va n 61
    = 0 → (fld (s.hbmWord (s.keyAddr tf.dctx (Pkt.key p))) 47 36 = 0xFFF ∧ bit (s.hbmWord (s.keyAddr tf.dctx (Pkt.key
    p))) 59 = false) → (s.Hits (s.ctxStall tf.dctx) tf.dctx va 1 e ∧ e.hbm = true ∧ a = e.out + (va - e.va)) → ∃ t,
    exec .packetReceive s = .next t ∧ t.hbm = (s.hbmWrite a ((Pkt.payload p).take n)).hbm ∧ (tFind t.tfl f).map (fun y
    => (y.cum, y.deliv, y.refused, y.prog)) = some (Pkt.psn p, [], [], []) ∧ (tFind t.tfl f).map (fun y => y.issued) =
    some [] ∧ (Pkt.ackreq p = true → tGet [] t.inject (4 * s.ctxStall tf.dctx) = tGet [] s.inject (4 * s.ctxStall
    tf.dctx) ++ [s.ackFor { tf with cum := Pkt.psn p, newestPsn := Pkt.psn p, newestTsl := Pkt.tsl p } 0]) ∧
    (Pkt.ackreq p = false → tf.unacked < 7 → t.inject = s.inject) ∧ (t.ops = s.ops ∧ t.cqs = s.cqs ∧ t.eject = rest)) ∧
  (∀ (s : State) (p : Pkt) (x : Option Port) (rest : List Ejected) (f n a old : Nat) (tf : TFlow) (e : XlEntry),
    (s.Arrives p x rest ∧ s.Knows p f tf) → s.Requests p → s.Next p tf → (Pkt.opc p = 4 ∧ atomBad (Pkt.tag p) = false
    ∧ n = atomSize (Pkt.tag p / 16 % 8) ∧ Pkt.addr p % n = 0) → s.keyCheck tf.dctx (Pkt.key p) (Pkt.addr p) n (if
    Pkt.tag p % 16 = 0 then 62 else 60) = 0 → (s.Hits (s.ctxStall tf.dctx) tf.dctx (Pkt.addr p) 2 e ∧ e.hbm = true ∧ a
    = e.out + (Pkt.addr p - e.va)) → old = ofLe (s.hbmRead a n) → ∃ t, exec .packetReceive s = .next t ∧ t.hbm =
    (s.hbmWrite a (leBytes n (atomNew (Pkt.tag p) old (atomArgs p).1 (atomArgs p).2.1))).hbm ∧ (tFind t.tfl f).map
    (fun y => (y.cum, y.deliv, y.refused)) = some (Pkt.psn p, [], []) ∧ (tFind t.tfl f).map (fun y => (y.atoms.head?))
    = some (some (Pkt.psn p, BitVec.ofNat 64 old, Pkt.tc p + 8 * b2n (Pkt.adapt p))) ∧ tGet [] t.inject (4 *
    s.ctxStall tf.dctx + 2) = tGet [] s.inject (4 * s.ctxStall tf.dctx + 2) ++ [s.atomRsp tf p old] ∧ (t.ops = s.ops ∧
    t.cqs = s.cqs ∧ t.eject = rest)) ∧
  (∀ (s u : State) (dt f a : Nat) (tf : TFlow), u = s.elapse dt → (u.Calm ∧ u.live (.domain 0) = true) → (tFind u.tfl f =
    some tf ∧ u.domRuns (u.ctxDom tf.dctx) = true ∧ tf.firstUnacked = some a) → ∃ t, exec (.ackDelayExpiry f dt) s =
    .next t ∧ (a + 16 * (4 * fld tf.ctrl 11 4) ≤ u.clk → t.inject = tMod [] (4 * u.ctxStall tf.dctx) (· ++ [u.ackFor
    tf (min 0xFFFFFFFF ((u.clk - tf.newestAt) / 16))]) u.inject) ∧ (a + 16 * (4 * fld tf.ctrl 11 4) ≤ u.clk → tFind
    t.tfl f = some { tf with unacked := 0, firstUnacked := none }) ∧ (u.clk < a + 16 * (4 * fld tf.ctrl 11 4) → t = u)
    ∧ t = { u with tfl := t.tfl, inject := t.inject, regs := t.regs }) ∧
  (∀ (s u : State) (dt f : Nat) (tf : TFlow), u = s.elapse dt → (u.Calm ∧ u.live (.domain 0) = true) → (tFind u.tfl f =
    some tf ∧ u.domRuns (u.ctxDom tf.dctx) = true) → (tf.prog = [] ∧ tf.held = none ∧ tf.sends = [] ∧ tf.issued = [] ∧
    u.mes = []) → ∃ t, exec (.flowIdleExpiry false f dt) s = .next t ∧ (tf.lastRx + 16 * (100000000 * fld tf.ctrl 17
    12) < u.clk → t.tfl = tDel f u.tfl) ∧ (u.clk ≤ tf.lastRx + 16 * (100000000 * fld tf.ctrl 17 12) → t = u) ∧ (t.hbm
    = u.hbm ∧ t.inject = u.inject ∧ t.ops = u.ops))

/-- PACKET_INJECT (R261, R263, R266, R267): a flow not yet opened sends FLOW_OPEN with its start PSN, MSN 0 and ACKREQ
1 and nothing else; an established flow sends the last packet of a relaxed PUT with its payload, LAST, ACKREQ and
FLAGGED, and a chunk of at most 65,536 bytes of a GET, which takes the next PSN and stays outstanding; while cwnd,
the PSN window of 255 or 16 outstanding atomics forbid it, nothing is sent; FLOW_IDLE_EXPIRY at the initiator
discards a record with nothing outstanding for flow_idle / 2. -/
def Obligations.FlowsOpenAndSend : Prop :=
  (∀ (s : State) (f : Nat) (x : IFlow) (i : SendItem) (rest : List SendItem) (p : Pkt), (s.Calm ∧ s.live (.domain 0) =
    true) → (tFind s.ifl f = some x ∧ s.domRuns (s.ctxDom x.ctx) = true) → x.queue = i :: rest → x.opened = false → p
    = s.stamp (buildPkt x.peerFa (s.ctxFa x.ctx) i.tc 1 false i.adapt (flowHash (s.ctxFa x.ctx) x.peerFa x.ctx
    x.peerCtx) [(383, 376, 0x18), (373, 373, 1), (371, 350, x.ctx), (349, 328, x.peerCtx), (327, 296, x.start), (207,
    144, 2 ^ 56)] []) → ∃ t, exec (.packetInject f) s = .next t ∧ t.inject = tMod [] (4 * s.ctxStall x.ctx + 1) (· ++
    [p]) s.inject ∧ tFind t.ifl f = some
    { x with opened := true, next := (x.start + 1) % 2 ^ 32, lastUse := s.clk, outst := x.outst ++ [{ Outst.blank x.start 0x18 with bytes := 64, pkt := p, tsl := Pkt.tsl p, lastTx := s.clk }] }
    ∧ t = { s with ifl := t.ifl, inject := t.inject, regs := t.regs }) ∧
  (∀ (s : State) (f op : Nat) (x : IFlow) (i : SendItem) (rest : List SendItem) (o : Op) (bs : List Byte) (p : Pkt),
    (s.Calm ∧ s.live (.domain 0) = true) → (tFind s.ifl f = some x ∧ s.domRuns (s.ctxDom x.ctx) = true) → (x.queue = i
    :: rest ∧ x.opened = true ∧ x.est = true ∧ x.outst = []) → (i.opc = 1 ∧ i.payload = [] ∧ i.ordered = false ∧
    i.data = some bs ∧ i.moff + bs.length = i.mlen ∧ bs.length ≤ 4096) → (i.op = some op ∧ tFind s.ops op = some o ∧
    o.aux = 0) → p = s.nextPkt x i true true true i.mlen i.addr bs → ∃ t, exec (.packetInject f) s = .next t ∧
    t.inject = tMod [] (4 * o.stall + 1) (· ++ [p]) s.inject ∧ tFind t.ifl f = some
    { x with next := (x.next + 1) % 2 ^ 32, queue := rest, lastUse := s.clk, outst := [{ Outst.blank x.next 1 with op := some op, me := i.me, bytes := bs.length, local_ := i.local_ + i.moff, moff := i.moff, len := bs.length, pkt := p, tsl := Pkt.tsl p, lastTx := s.clk }] }
    ∧ t = { s with ifl := t.ifl, inject := t.inject, ops := t.ops, regs := t.regs }) ∧
  (∀ (s : State) (f op n : Nat) (x : IFlow) (i : SendItem) (rest : List SendItem) (o : Op) (p : Pkt), (s.Calm ∧ s.live
    (.domain 0) = true) → (tFind s.ifl f = some x ∧ s.domRuns (s.ctxDom x.ctx) = true) → (x.queue = i :: rest ∧
    x.opened = true ∧ x.est = true ∧ x.outst = []) → (i.opc = 2 ∧ n = min 65536 (i.mlen - i.moff) ∧ n < x.cwnd) →
    (i.op = some op ∧ tFind s.ops op = some o ∧ o.aux = 0) → p = s.nextPkt x i false false i.ordered n (i.addr +
    i.moff) [] → ∃ t, exec (.packetInject f) s = .next t ∧ t.inject = tMod [] (4 * o.stall + 1) (· ++ [p]) s.inject ∧
    (tFind t.ifl f).map (fun y => (y.next, y.nextMsn, y.cwnd)) = some ((x.next + 1) % 2 ^ 32, x.nextMsn, x.cwnd) ∧
    (tFind t.ifl f).map (fun y => y.outst) = some
    [{ Outst.blank x.next 2 with op := some op, me := i.me, bytes := n, local_ := i.local_ + i.moff, moff := i.moff, len := n, pkt := p, tsl := Pkt.tsl p, lastTx := s.clk }]
    ∧ (i.mlen ≤ i.moff + n → (tFind t.ifl f).map (fun y => y.queue) = some rest) ∧ t =
    { s with ifl := t.ifl, inject := t.inject, ops := t.ops, regs := t.regs }) ∧
  (∀ (s : State) (f : Nat) (x : IFlow) (i : SendItem) (rest : List SendItem), (s.Calm ∧ s.live (.domain 0) = true) →
    (tFind s.ifl f = some x ∧ s.domRuns (s.ctxDom x.ctx) = true) → (x.queue = i :: rest ∧ x.opened = true) → (x.est =
    false ∨ (x.outst ≠ [] ∧ 0 < x.inFlight ∧ x.cwnd < x.inFlight + i.weight) ∨ 255 < x.ahead ∨ (i.opc = 4 ∧ 16 ≤
    (x.outst.filter (fun o => o.opc = 4)).length)) → exec (.packetInject f) s = .next (s)) ∧
  (∀ (s u : State) (dt f : Nat) (x : IFlow), u = s.elapse dt → (u.Calm ∧ u.live (.domain 0) = true) → (tFind u.ifl f =
    some x ∧ u.domRuns (u.ctxDom x.ctx) = true) → (x.outst = [] ∧ x.queue = []) → u.rf (.flowPool (domOf (u.ctxDom
    x.ctx))) 63 40 < 2 ^ 24 - 1 → ∃ t, exec (.flowIdleExpiry true f dt) s = .next t ∧ (x.lastUse + 16 * (100000000 *
    fld x.ctrl 17 12) / 2 < u.clk → t.ifl = tDel f u.ifl ∧ t.rf (.flowPool (domOf (u.ctxDom x.ctx))) 63 40 = u.rf
    (.flowPool (domOf (u.ctxDom x.ctx))) 63 40 + 1) ∧ (u.clk ≤ x.lastUse + 16 * (100000000 * fld x.ctrl 17 12) / 2 → t
    = u) ∧ t = { u with ifl := t.ifl, regs := t.regs })

/-- ACK_RECEIVE, NACK_RECEIVE, GET_RSP_RECEIVE and ATOMIC_RSP_RECEIVE (R263, R266, R271, R272, R276, R277, R284): an
ACK establishes a flow, resolves what it covers and completes its command with OK, moves cwnd by R284, and marks a
lower PSN not covered; an older one is discarded; a NACK completes the command with REMOTE_ERROR (0x0A) and its
cause, defers a PSN on a retryable cause, and ends a flow on FLOW_UNKNOWN; the bytes of a GET_RSP and the old
value of an ATOMIC_RSP are written before the completion, and a piece of no request is discarded and counted. -/
def Obligations.AnswersResolveWhatWasSent : Prop :=
  (∀ (s : State) (f op raw v b : Nat) (x : IFlow) (p : Pkt) (l r : List Pkt) (q : Outst) (o : Op) (c : Cq), s.Answers 8 p
    l r f x → (x.outst = [q] ∧ x.queue = [] ∧ q.op = some op ∧ q.opc = 1 ∧ q.acked = false ∧ q.psn ≠ x.start) →
    Pkt.psn p = q.psn → (raw = dist 16 (s.nt.toNat / 16 % 65536) (Pkt.tsl p) ∧ Pkt.mlen p ≤ raw ∧ v = raw - Pkt.mlen p
    ∧ b = q.bytes) → (s.Plain op o c ∧ o.performed = true ∧ o.left = 0 ∧ o.aux = 0 ∧ o.status = 0 ∧ o.detail = 0 ∧
    o.result = 0 ∧ hdrOp (o.w 0) = 1 ∧ cmdCt o.words = 0xFFF) → ∃ t, exec .ackReceive s = .next t ∧ t.toInit = l ++ r
    ∧ (tFind t.ifl f).map (fun y => (y.outst, y.lastUse)) = some ([], s.clk) ∧ (tFind t.ifl f).map (fun y =>
    (y.baseRtt, y.cwnd)) = some (x.sampled s.clk v b) ∧ tFind t.ops op = none ∧ (t.tl c.link).reqQ = (s.tl
    c.link).reqQ ++ [c.cpl o 0 0] ∧ (t.hbm = s.hbm ∧ t.inject = s.inject)) ∧
  (∀ (s : State) (f : Nat) (x : IFlow) (p : Pkt) (l r : List Pkt) (a b : Outst), s.Answers 8 p l r f x → (x.outst = [a,
    b] ∧ a.opc = 1 ∧ a.acked = false ∧ b.opc = 1 ∧ b.op = none ∧ b.me = none ∧ x.est = true) → (a.psn < 2 ^ 32 ∧
    Pkt.psn p = (a.psn + 2 ^ 32 - 1) % 2 ^ 32 ∧ b.psn = (a.psn + 1) % 2 ^ 32 ∧ Pkt.addr p = 2) → ∃ t, exec .ackReceive
    s = .next t ∧ t.toInit = l ++ r ∧ (tFind t.ifl f).map (fun y => y.outst) = some [{ a with gap := true }] ∧ (t.ops
    = s.ops ∧ t.hbm = s.hbm ∧ t.inject = s.inject ∧ t.regs = s.regs)) ∧
  (∀ (s : State) (f : Nat) (x : IFlow) (p : Pkt) (l r : List Pkt) (q : Outst), s.Answers 8 p l r f x → (x.outst = [q] ∧
    x.est = false ∧ q.opc = 0x18 ∧ q.psn = x.start) → Pkt.psn p = x.start → ∃ t, exec .ackReceive s = .next t ∧
    t.toInit = l ++ r ∧ (tFind t.ifl f).map (fun y => (y.outst, y.est)) = some ([], true) ∧ (tFind t.ifl f).map (fun y
    => (y.queue, y.next)) = some (x.queue, x.next) ∧ t = { s with ifl := t.ifl, toInit := t.toInit }) ∧
  (∀ (s : State) (f : Nat) (x : IFlow) (p : Pkt) (l r : List Pkt) (q : Outst) (os : List Outst), s.Answers 8 p l r f x →
    x.outst = q :: os → 2 ^ 31 ≤ dist 32 ((Pkt.psn p + 1) % 2 ^ 32) q.psn → exec .ackReceive s = .next
    ({ s with toInit := l ++ r })) ∧
  (∀ (s : State) (f op cause : Nat) (x : IFlow) (p : Pkt) (l r : List Pkt) (q : Outst) (o : Op) (c : Cq), s.Answers 9 p l
    r f x → (x.outst = [q] ∧ x.queue = [] ∧ q.op = some op ∧ q.me = none ∧ x.est = true) → (Pkt.psn p = q.psn ∧ cause
    = Pkt.key p / 2 ^ 24) → (1 ≤ cause ∧ cause ≤ 9 ∨ cause = 0x10) → (s.Plain op o c ∧ o.performed = true ∧ o.left = 0
    ∧ o.aux = 0 ∧ o.status = 0 ∧ o.result = 0 ∧ cmdCt o.words = 0xFFF ∧ hdrOp (o.w 0) = 1) → ∃ t, exec .nackReceive s
    = .next t ∧ t.toInit = l ++ r ∧ t.rf (.rmaErrcnt (stallOf (s.ctxStall x.ctx))) 31 16 = min (s.rf (.rmaErrcnt
    (stallOf (s.ctxStall x.ctx))) 31 16 + 1) 65535 ∧ (tFind t.ifl f).map (fun y => y.outst) = (if cause = 0x10 then
    none else some []) ∧ tFind t.ops op = none ∧ (t.tl c.link).reqQ = (s.tl c.link).reqQ ++ [c.cpl o 0x0A cause] ∧
    (t.hbm = s.hbm ∧ t.inject = s.inject)) ∧
  (∀ (s : State) (f cause : Nat) (x : IFlow) (p : Pkt) (l r : List Pkt) (q : Outst), s.Answers 9 p l r f x → (x.outst =
    [q] ∧ q.gap = false) → (Pkt.psn p = q.psn ∧ cause = Pkt.key p / 2 ^ 24) → (cause = 0x11 ∨ cause = 0x12) → ∃ t,
    exec .nackReceive s = .next t ∧ t.toInit = l ++ r ∧ (tFind t.ifl f).map (fun y => (y.outst.map (fun z => (z.psn,
    z.nackAt, z.sends)), y.queue, y.est)) = some ([(q.psn, some s.clk, q.sends)], x.queue, x.est) ∧ t =
    { s with ifl := t.ifl, toInit := t.toInit, regs := t.regs }) ∧
  (∀ (s : State) (f op cause : Nat) (x : IFlow) (p : Pkt) (l r : List Pkt) (q : Outst) (o : Op) (c : Cq) (i : SendItem),
    s.Answers 9 p l r f x → (x.outst = [q] ∧ x.queue = [i] ∧ q.op = none ∧ q.me = none ∧ i.op = some op ∧ i.me = none
    ∧ x.est = false ∧ q.psn = x.start) → (Pkt.psn p = x.start ∧ cause = Pkt.key p / 2 ^ 24) → (1 ≤ cause ∧ cause ≤ 9)
    → (s.Plain op o c ∧ o.performed = true ∧ o.left = 0 ∧ o.aux = 0 ∧ o.status = 0 ∧ o.result = 0 ∧ cmdCt o.words =
    0xFFF ∧ hdrOp (o.w 0) = 1) → ∃ t, exec .nackReceive s = .next t ∧ t.toInit = l ++ r ∧ tFind t.ifl f = none ∧ tFind
    t.ops op = none ∧ (t.tl c.link).reqQ = (s.tl c.link).reqQ ++ [c.cpl o 0x0A cause] ∧ (t.hbm = s.hbm ∧ t.inject =
    s.inject)) ∧
  (∀ (s : State) (f op a : Nat) (x : IFlow) (p : Pkt) (l r : List Pkt) (q : Outst) (o : Op) (c : Cq) (e : XlEntry),
    s.Answers 3 p l r f x → (x.outst = [q] ∧ x.queue = [] ∧ q.op = some op ∧ q.opc = 2 ∧ q.pieces = [] ∧ q.psn =
    Pkt.psn p ∧ (x.est = true ∨ q.psn ≠ x.start)) → (Pkt.moff p = q.moff ∧ 0 < q.len ∧ q.len ≤ 4096 ∧ q.local_ % 4096
    + q.len ≤ 4096) → (s.Hits (s.ctxStall x.ctx) x.ctx q.local_ 1 e ∧ e.hbm = true ∧ a = e.out + (q.local_ - e.va)) →
    (s.Plain op o c ∧ o.performed = true ∧ o.left = 0 ∧ o.aux = 0 ∧ o.status = 0 ∧ o.detail = 0 ∧ o.result = 0 ∧ cmdCt
    o.words = 0xFFF ∧ hdrOp (o.w 0) = 2) → ∃ t, exec .getRspReceive s = .next t ∧ t.toInit = l ++ r ∧ (tFind t.ifl
    f).map (fun y => y.outst) = some [] ∧ t.hbm = (s.hbmWrite a ((Pkt.payload p).take q.len)).hbm ∧ tFind t.ops op =
    none ∧ (t.tl c.link).reqQ = (s.tl c.link).reqQ ++ [c.cpl o 0 0]) ∧
  (∀ (s : State) (f : Nat) (x : IFlow) (p : Pkt) (l r : List Pkt), s.Answers 3 p l r f x → x.outst.all (fun q => q.psn ≠
    Pkt.psn p || q.opc ≠ 2) = true → ∃ t, exec .getRspReceive s = .next t ∧ t.rf (.rmaCount (stallOf (s.ctxStall
    (Pkt.dctx p)))) 47 32 = min (s.rf (.rmaCount (stallOf (s.ctxStall (Pkt.dctx p)))) 47 32 + 1) 65535 ∧ (∀ g : Reg,
    g.addr ≠ (Reg.rmaCount (stallOf (s.ctxStall (Pkt.dctx p)))).addr → t.reg g = s.reg g) ∧ t =
    { s with toInit := l ++ r, regs := t.regs }) ∧
  (∀ (s : State) (f op n a : Nat) (x : IFlow) (p : Pkt) (l r : List Pkt) (q : Outst) (o : Op) (c : Cq) (e : XlEntry),
    s.Answers 5 p l r f x → (x.outst = [q] ∧ x.queue = [] ∧ q.op = some op ∧ q.opc = 4 ∧ q.psn = Pkt.psn p ∧ (x.est =
    true ∨ q.psn ≠ x.start)) → ((o.w 2).toNat ≠ 0 ∧ n = atomSize (fld (o.w 3) 23 20) ∧ (o.w 2).toNat % 4096 + n ≤
    4096) → (s.Hits o.stall o.ctx (o.w 2).toNat 1 e ∧ e.hbm = true ∧ a = e.out + ((o.w 2).toNat - e.va)) → (s.Plain op
    o c ∧ o.performed = true ∧ o.left = 0 ∧ o.aux = 0 ∧ o.status = 0 ∧ o.detail = 0 ∧ o.result = 0 ∧ cmdCt o.words =
    0xFFF ∧ hdrOp (o.w 0) = 4) → ∃ t, exec .atomicRspReceive s = .next t ∧ t.toInit = l ++ r ∧ (tFind t.ifl f).map
    (fun y => y.outst) = some [] ∧ t.hbm = (s.hbmWrite a (leBytes n (Pkt.tag p))).hbm ∧ tFind t.ops op = none ∧ (t.tl
    c.link).reqQ = (s.tl c.link).reqQ ++ [c.cpl o 0 0])

/-- RTO_EXPIRY and TARGET_DELAY_EXPIRY (R280, R281, R284): rto × 2^r µs, at most 1 ms, after its last transmission a
PSN is sent again with the same PSN and contents, ACKREQ 1 and a fresh TSL, and cwnd is halved, not below 4,096; a
PSN below one shown delivered, or refused for a retryable cause, is sent again after the target delay, cwnd
unchanged; before that nothing is sent; one that has been sent again retry_limit times fails its flow, and its
command completes with DELIVERY_FAILED (0x0B). -/
def Obligations.UnansweredPacketsAreSentAgain : Prop :=
  (∀ (s u : State) (dt f : Nat) (psn : BitVec 32) (x : IFlow) (o : Outst) (fl : Flit) (fs : Pkt), u = s.elapse dt →
    (u.Calm ∧ u.live (.domain 0) = true) → (tFind u.ifl f = some x ∧ u.domRuns (u.ctxDom x.ctx) = true) →
    (x.outst.find? (fun q => q.psn = psn.toNat) = some o ∧ o.pkt = fl :: fs) → (1 ≤ o.sends ∧ o.sends ≤ fld x.ctrl 63
    60) → o.lastTx + 16000 * min (fld x.ctrl 27 18 * 2 ^ (o.sends - 1)) 1000 < u.clk → ∃ t, exec (.rtoExpiry f psn dt)
    s = .next t ∧ u.Resent t f x o fl fs ∧ (tFind t.ifl f).map (fun y => y.cwnd) = some (if bit x.ctrl 3 then max 4096
    (x.cwnd / 2) else x.cwnd)) ∧
  (∀ (s u : State) (dt f : Nat) (psn : BitVec 32) (x : IFlow) (o : Outst), u = s.elapse dt → (u.Calm ∧ u.live (.domain 0)
    = true) → tFind u.ifl f = some x → (x.outst.find? (fun q => q.psn = psn.toNat) = some o ∧ 1 ≤ o.sends) → u.clk ≤
    o.lastTx + 16000 * min (fld x.ctrl 27 18 * 2 ^ (o.sends - 1)) 1000 → exec (.rtoExpiry f psn dt) s = .next (u)) ∧
  (∀ (s u : State) (dt f op : Nat) (psn : BitVec 32) (x : IFlow) (q : Outst) (o : Op) (c : Cq), u = s.elapse dt → (u.Calm
    ∧ u.live (.domain 0) = true) → (u.ifl = [(f, x)] ∧ u.domRuns (u.ctxDom x.ctx) = true) → (x.outst = [q] ∧ x.queue =
    [] ∧ q.psn = psn.toNat ∧ q.op = some op ∧ q.me = none) → (1 ≤ q.sends ∧ fld x.ctrl 63 60 < q.sends) → q.lastTx +
    16000 * min (fld x.ctrl 27 18 * 2 ^ (q.sends - 1)) 1000 < u.clk → (u.Plain op o c ∧ o.performed = true ∧ o.result
    = 0 ∧ cmdCt o.words = 0xFFF ∧ hdrOp (o.w 0) = 1) → (fld (u.ctxWord x.ctx 2) 61 61 = 1 ∧ tFind u.eqs (fld
    (u.ctxWord x.ctx 2) 52 35) = none) → ∃ t, exec (.rtoExpiry f psn dt) s = .next t ∧ tFind t.ifl f = none ∧ tFind
    t.ops op = none ∧ (t.tl c.link).reqQ = (u.tl c.link).reqQ ++ [c.cpl o 0x0B 0] ∧ t.rf (.rmaErrcnt (stallOf
    (u.ctxStall x.ctx))) 15 0 = min (u.rf (.rmaErrcnt (stallOf (u.ctxStall x.ctx))) 15 0 + 1) 65535 ∧ (t.hbm = u.hbm ∧
    t.inject = u.inject)) ∧
  (∀ (s u : State) (dt f d : Nat) (psn : BitVec 32) (x : IFlow) (o : Outst) (fl : Flit) (fs : Pkt), u = s.elapse dt →
    (u.Calm ∧ u.live (.domain 0) = true) → (tFind u.ifl f = some x ∧ u.domRuns (u.ctxDom x.ctx) = true) →
    (x.outst.find? (fun q => q.psn = psn.toNat) = some o ∧ o.pkt = fl :: fs) → o.sends ≤ fld x.ctrl 63 60 → d = 16 *
    (x.baseRtt.getD 0 + fld x.ctrl 41 28) → ((o.gap = true ∧ o.lastTx + d ≤ u.clk) ∨ (o.nackAt.isSome = true ∧
    o.nackAt.getD 0 + d ≤ u.clk)) → ∃ t, exec (.targetDelayExpiry f psn dt) s = .next t ∧ u.Resent t f x o fl fs ∧
    (tFind t.ifl f).map (fun y => y.cwnd) = some x.cwnd) ∧
  (∀ (s u : State) (dt f : Nat) (psn : BitVec 32) (x : IFlow) (o : Outst), u = s.elapse dt → (u.Calm ∧ u.live (.domain 0)
    = true) → tFind u.ifl f = some x → x.outst.find? (fun q => q.psn = psn.toNat) = some o → ((o.gap = false ∨ u.clk <
    o.lastTx + 16 * (x.baseRtt.getD 0 + fld x.ctrl 41 28)) ∧ o.nackAt = none) → exec (.targetDelayExpiry f psn dt) s =
    .next (u))

/-- MB_CLAIM_READ, MB_CLAIM_RELEASE, MB_CLAIM_LAPSE, GET_STATUS, GET_NONCE, ATTEST, GET_IDENTITY, NONCE_EXPIRY (R435,
R437, R438, R439, R441, R442, R444): the first reader of a free MB_CLAIM holds it and reads granted 1, another
reads granted 0 and the holder; on release or after 10 ms without a command MB_STATUS, MB_ARG and MB_BUF are
cleared; each command ends with OK and its output in MB_BUF: the status, whose supply voltages are free values but
at least the 10.8 V below which a supply counts as lost (log entry 59), a fresh nonce that alone is current, the
report on the caller's nonce with a signature of 132 bytes, the identity block; a command outside its modes ends
with NOT_ALLOWED (3); a nonce ends after 60 s. -/
def Obligations.MailboxIsClaimedAndAnswers : Prop :=
  (∀ (s : State) (m : Master), s.Calm → (s.agentLive m = true ∧ m ≠ .warden ∧ s.masterMay m 0x101000 = true ∧ s.live
    .global = true) → s.mbox.holder = none → exec (.mbClaimRead m) s = .next
    ({ s with mbox := { s.mbox with holder := some m, since := s.tk }, out := .value m 0x101000 (mkWord 64 [(63, 63, 1), (9, 8, masterKind m), (7, 0, masterNumber m)]) :: s.out })) ∧
  (∀ (s : State) (m x : Master), s.Calm → (s.agentLive m = true ∧ s.masterMay m 0x101000 = true ∧ s.live .global = true)
    → s.mbox.holder = some x → exec (.mbClaimRead m) s = .next
    ({ s with out := .value m 0x101000 (mkWord 64 [(63, 63, b2n (decide (x = m))), (9, 8, masterKind x), (7, 0, masterNumber x)]) :: s.out })) ∧
  (∀ (s : State) (m : Master), s.Calm → (s.agentLive m = true ∧ s.masterMay m 0x101000 = true ∧ s.live .global = true) →
    (s.mbox.holder = some m ∧ s.mbox.urgent = none) → ∃ t, exec (.mbClaimRelease m) s = .next t ∧ t.mbox =
    { s.mbox with holder := none, run := s.mbox.run.map (fun c => { c with quiet := true }) } ∧ t.reg .mbStatus = 0 ∧
    (∀ i : Fin 4, t.reg (.mbArg i) = 0) ∧ (∀ a, 0x110000 ≤ a → a < 0x120000 → memByte t.buf a = 0) ∧ (∀ a, (a <
    0x110000 ∨ 0x120000 ≤ a) → memByte t.buf a = memByte s.buf a) ∧ t =
    { s with mbox := t.mbox, regs := t.regs, buf := t.buf } ∧ (t.reg (.mbArg 0) = 0 ∧ t.buf = s.buf.filter (fun c =>
    c.1 < 0x110000 || 0x120000 ≤ c.1))) ∧
  (∀ (s u : State) (dt : Nat), u = s.elapse dt → (u.live .global = true ∧ u.mbox.holder.isSome = true ∧ u.mbox.urgent =
    none ∧ u.mbox.run = none) → ∃ t, exec (.mbClaimLapse dt) s = .next t ∧ ((u.rb .mbCmd 63 = true ∨ u.tk ≤
    u.mbox.since + 160000000) → t = u) ∧ (u.rb .mbCmd 63 = false → u.mbox.since + 160000000 < u.tk → t.mbox =
    { u.mbox with holder := none }) ∧ (u.rb .mbCmd 63 = false → u.mbox.since + 160000000 < u.tk → t.reg .mbStatus = 0)
    ∧ t = { u with mbox := t.mbox, regs := t.regs, buf := t.buf }) ∧
  (∀ (s : State) (c : MbCmd), s.Commanded 0x01 c → s.mode ≤ 2 → ∃ t, exec .getStatus s = .next t ∧ (∃ vm va : Nat, vm <
    65536 ∧ va < 65536 ∧ (s.pins.mainEn = true → s.pins.mainPg = true → 1080 ≤ vm) ∧ (s.pins.vinAux = true → 1080 ≤
    va) ∧ s.Ended t 0 0 (s.status16 vm va)) ∧ t =
    { s with frees := s.frees + 2, regs := t.regs, mbox := t.mbox, buf := t.buf }) ∧
  (∀ (s : State) (c : MbCmd), s.Commanded 0x02 c → (s.mode = 1 ∨ s.mode = 2) → ∃ t, exec .getNonce s = .next t ∧ s.Ended
    t 0 0 (beBytes 64 (Config.random s.draws).toNat) ∧ t.tack =
    { s.tack with nonce := some (Config.random s.draws, s.tk) } ∧ t =
    { s with draws := s.draws + 1, tack := t.tack, regs := t.regs, mbox := t.mbox, buf := t.buf }) ∧
  (∀ (s : State) (c : MbCmd), s.Commanded 0x03 c → s.mode ≤ 2 → ∃ t, exec .attest s = .next t ∧ (∃ sig : List Byte,
    sig.length = 132 ∧ s.Ended t 0 0 (s.report380 (c.bytes 64) ++ sig)) ∧ t =
    { s with draws := s.draws + 2, regs := t.regs, mbox := t.mbox, buf := t.buf }) ∧
  (∀ (s : State) (c : MbCmd), s.Commanded 0x04 c → s.mode ≤ 2 → ∃ t, exec .getIdentity s = .next t ∧ s.Ended t 0 0
    s.identity272 ∧ t = { s with regs := t.regs, mbox := t.mbox, buf := t.buf }) ∧
  (∀ (s : State) (c : MbCmd), s.Commanded 0x02 c → (s.mode ≠ 1 ∧ s.mode ≠ 2) → ∃ t, exec .getNonce s = .next t ∧ s.Ended
    t 3 0 [] ∧ t = { s with regs := t.regs, mbox := t.mbox }) ∧
  (∀ (s u : State) (dt at_ : Nat) (n : BitVec 512), u = s.elapse dt → u.live .tack = true → u.tack.nonce = some (n, at_)
    → ∃ t, exec (.nonceExpiry dt) s = .next t ∧ (u.tk < at_ + 16 * (60 * 10 ^ 9) → t = u) ∧ (at_ + 16 * (60 * 10 ^ 9)
    ≤ u.tk → t = { u with tack := { u.tack with nonce := none } }))

/-- SET_PACE_TARGET, SET_POWER_LIMIT, SET_THROTTLE, STOP, RESTART, DOMAIN_FENCE and DOMAIN_RESTART (R38, R373, R375,
R439, R449, R453): a value in its range is taken and the command ends with OK, one outside it changes nothing and
ends with BAD_ARGUMENT (2); STOP waits for the store buffers, then main power is off, the core's state is lost and
the mode is MAIN_OFF, and a start in progress ends with the count as it stood before it; RESTART resets the core
and begins a start that is counted, or, after three failed starts and outside the cases of R453, enters Dust-sheet
mode; DOMAIN_FENCE loses the domain with cause REQUESTED (5) and DOMAIN_RESTART lets a fenced one restart. -/
def Obligations.MailboxControlsPowerAndDomains : Prop :=
  (∀ (s : State) (c : MbCmd), s.Commanded 0x30 c → (s.mode = 1 ∨ s.mode = 2) → ∃ t, exec .setPaceTarget s = .next t ∧
    (1500 ≤ (c.arg 0).toNat → (c.arg 0).toNat ≤ 2200 → s.Ended t 0 0 [] ∧ t.rf .tkPaceTarget 15 0 = (c.arg 0).toNat) ∧
    (((c.arg 0).toNat < 1500 ∨ 2200 < (c.arg 0).toNat) → s.Ended t 2 0 [] ∧ t.reg .tkPaceTarget = s.reg .tkPaceTarget
    ∧ t = { s with regs := t.regs, mbox := t.mbox }) ∧ (t.hbm = s.hbm ∧ t.flash = s.flash ∧ t.tack.coat = s.tack.coat)) ∧
  (∀ (s : State) (c : MbCmd), s.Commanded 0x31 c → (s.mode = 1 ∨ s.mode = 2) → ∃ t, exec .setPowerLimit s = .next t ∧
    (200 ≤ (c.arg 0).toNat → (c.arg 0).toNat ≤ 600 → s.Ended t 0 0 [] ∧ t.rf .tkPower 63 48 = (c.arg 0).toNat) ∧
    (((c.arg 0).toNat < 200 ∨ 600 < (c.arg 0).toNat) → s.Ended t 2 0 [] ∧ t.reg .tkPower = s.reg .tkPower ∧ t =
    { s with regs := t.regs, mbox := t.mbox }) ∧ (t.hbm = s.hbm ∧ t.flash = s.flash ∧ t.tack.coat = s.tack.coat)) ∧
  (∀ (s : State) (c : MbCmd), s.Commanded 0x32 c → (s.mode = 1 ∨ s.mode = 2) → ∃ t, exec .setThrottle s = .next t ∧ (85 ≤
    (c.arg 0).toNat → (c.arg 0).toNat ≤ 105 → s.Ended t 0 0 [] ∧ t.rf .tkTherm 47 40 = (c.arg 0).toNat) ∧ (((c.arg
    0).toNat < 85 ∨ 105 < (c.arg 0).toNat) → s.Ended t 2 0 [] ∧ t.reg .tkTherm = s.reg .tkTherm ∧ t =
    { s with regs := t.regs, mbox := t.mbox }) ∧ (t.hbm = s.hbm ∧ t.flash = s.flash ∧ t.tack.coat = s.tack.coat)) ∧
  (∀ (s : State) (c : MbCmd), s.Calm → s.Commanded 0x20 c → (s.mode ≤ 2 ∧ s.tack.starting = false) → ∃ t, exec .stop s =
    .next t ∧ (s.groomsDrain.storesDrained = false → t.tack.stopping = true ∧ t.mode = s.mode ∧ t.coreOn = s.coreOn ∧
    t.pins = s.pins) ∧ (s.groomsDrain.storesDrained = true → t.mode = 5 ∧ t.coreOn = false ∧ t.pins =
    { s.pins with mainEn := false, mainPg := false }) ∧ (s.groomsDrain.storesDrained = true → t.hbm = [] ∧ t.buf = []
    ∧ t.ctxs = [] ∧ t.cqs = [] ∧ t.groups = []) ∧ (t.flash = s.flash ∧ t.fuses = s.fuses ∧ t.pending = s.pending)) ∧
  (∀ (s : State) (c : MbCmd), s.Calm → s.Commanded 0x21 c → ((s.mode = 1 ∧ s.flash.failCount < 3) ∨ (s.mode = 2 ∧
    (s.flash.failCount < 3 ∨ s.flash.oneStart = true ∨ s.flash.reason / 256 = 1))) → ∃ t, exec .restart s = .next t ∧
    (t.mode = 0 ∧ t.tack.starting = true ∧ t.tack.startAt = s.tk ∧ t.tack.stepAt = s.tk) ∧ t.flash =
    { s.flash with failCount := min 255 (s.flash.failCount + 1), inProgress := true, oneStart := false } ∧ (t.hbm = []
    ∧ t.buf = [] ∧ t.ctxs = [] ∧ t.cqs = [] ∧ t.groups = []) ∧ (t.coreOn = s.coreOn ∧ t.pins.mainEn = true ∧ t.fuses =
    s.fuses ∧ t.pending = s.pending)) ∧
  (∀ (s : State) (c : MbCmd), s.Calm → s.Commanded 0x21 c → (3 ≤ s.flash.failCount ∧ (s.mode = 1 ∨ (s.mode = 2 ∧
    s.flash.oneStart = false ∧ s.flash.reason / 256 ≠ 1))) → ∃ t, exec .restart s = .next t ∧ (t.mode = 2 ∧
    t.tack.starting = false ∧ t.tack.stepAt = s.tk) ∧ t.flash = { s.flash with oneStart := false } ∧ (t.hbm = [] ∧
    t.buf = [] ∧ t.ctxs = [] ∧ t.cqs = [] ∧ t.groups = []) ∧ (t.pins.mainEn = true ∧ t.fuses = s.fuses ∧ t.pending =
    s.pending)) ∧
  (∀ (s : State) (c : MbCmd), s.Calm → s.Commanded 0x20 c → (s.mode ≤ 2 ∧ s.tack.starting = true) → ∃ t, exec .stop s =
    .next t ∧ (s.groomsDrain.storesDrained = false → t.tack.stopping = true ∧ t.mode = s.mode ∧ t.coreOn = s.coreOn ∧
    t.pins = s.pins ∧ t.flash = s.flash) ∧ (s.groomsDrain.storesDrained = true → t.mode = 5 ∧ t.coreOn = false ∧
    t.pins = { s.pins with mainEn := false, mainPg := false }) ∧ (s.groomsDrain.storesDrained = true → t.tack.starting
    = false ∧ t.flash = { s.flash with failCount := s.tack.before, inProgress := false }) ∧ (t.fuses = s.fuses ∧
    t.pending = s.pending)) ∧
  (∀ (s : State) (c : MbCmd) (d : Dom), s.Calm → s.Commanded 0x22 c → (s.mode = 1 ∧ c.arg 0 = BitVec.ofNat 64 d.val ∧
    s.domRuns d.val = true ∧ s.insts = [] ∧ s.invals = []) → ∃ t, exec .domainFence s = .next t ∧ s.Lost t d 5 0xFF ∧
    (t.reg .mbStatus = 0 ∧ t.rb .mbCmd 63 = false ∧ t.mbox.run = none)) ∧
  (∀ (s : State) (c : MbCmd), s.Calm → s.Commanded 0x22 c → (s.mode = 1 ∧ 1 < (c.arg 0).toNat) → ∃ t, exec .domainFence s
    = .next t ∧ s.Ended t 2 0 [] ∧ t = { s with regs := t.regs, mbox := t.mbox }) ∧
  (∀ (s : State) (c : MbCmd) (d : Dom), s.Calm → s.Commanded 0x23 c → (s.mode = 1 ∧ c.arg 0 = BitVec.ofNat 64 d.val) → ∃
    t, exec .domainRestart s = .next t ∧ s.Ended t 0 0 [] ∧ (s.domState d.val = 1 → t.domState d.val = 2 ∧ tFind
    t.restart d.val = some 2) ∧ (s.domState d.val ≠ 1 → t.restart = s.restart ∧ t.reg (.csStatus d) = s.reg (.csStatus
    d)) ∧ t = { s with regs := t.regs, mbox := t.mbox, restart := t.restart })

/-- CLEAR_STARTS, SELECT_SLOT, OWNER_ENROL and OWNER_REVOKE (R436, R439, R441, R442): a signed command whose format,
key, signature and nonce pass is performed, its nonce is used, and it ends with OK: fail_count is 0, or the slot
is preferred and no slot is suspect, or the revocation fuse of the slot is blown by the key of the other; one that
fails a check ends with BAD_ARGUMENT (2), KEY (5), SIGNATURE (6) or NONCE (7) in that order and changes nothing
else; an endorsed block fills the empty slot that it names, and one without the endorsement ends with KEY. -/
def Obligations.OwnersSignTheirCommands : Prop :=
  (∀ (s : State) (c : MbCmd), s.Commanded 0x40 c → (s.mode = 1 ∨ s.mode = 2) → s.signedCheck c 0 = 0 → ∃ t, exec
    .clearStarts s = .next t ∧ s.Ended t 0 0 [] ∧ t.flash = { s.flash with failCount := 0 } ∧ t.tack =
    { s.tack with nonce := none } ∧ t.rf .tkState 55 48 = 0 ∧ t =
    { s with flash := t.flash, tack := t.tack, regs := t.regs, mbox := t.mbox }) ∧
  (∀ (s : State) (c : MbCmd) (n : Nat), s.Commanded 0x41 c → (s.mode = 1 ∨ s.mode = 2) → s.signedCheck c 1 = 0 → (n =
    (memByte c.buf 80).toNat ∧ n ≤ 1) → ∃ t, exec .selectSlot s = .next t ∧ s.Ended t 0 0 [] ∧ t.flash =
    { s.flash with preferred := n, suspectA := false, suspectB := false } ∧ t.tack = { s.tack with nonce := none } ∧ t
    = { s with flash := t.flash, tack := t.tack, regs := t.regs, mbox := t.mbox }) ∧
  (∀ (s : State) (c : MbCmd) (n : Nat), s.Commanded 0x43 c → (s.mode = 1 ∨ s.mode = 2) → s.signedCheck c 1 = 0 → (n =
    (memByte c.buf 80).toNat ∧ n ≤ 1 ∧ (memByte c.buf 260).toNat = 1 - n) → ∃ t, exec .ownerRevoke s = .next t ∧
    s.Ended t 0 0 [] ∧ t.fuses = (if n = 0 then { s.fuses with revoked0 := true } else
    { s.fuses with revoked1 := true }) ∧ t.tack = { s.tack with nonce := none } ∧ t =
    { s with fuses := t.fuses, tack := t.tack, regs := t.regs, mbox := t.mbox }) ∧
  (∀ (s : State) (c : MbCmd) (e : Nat), s.Commanded 0x40 c → (s.mode = 1 ∨ s.mode = 2) → (s.signedCheck c 0 = e ∧ e ≠ 0)
    → ∃ t, exec .clearStarts s = .next t ∧ s.Ended t e 0 [] ∧ (e = 2 ∨ e = 5 ∨ e = 6 ∨ e = 7) ∧ (memRead c.buf 0 4 ≠
    [0x4E, 0x56, 0x53, 0x43] → e = 2) ∧ (e = 7 → s.tack.nonce.all (fun n => decide (n.2 + 16 * (60 * 10 ^ 9) ≤ s.tk ∨
    memRead c.buf 16 64 ≠ beBytes 64 n.1.toNat)) = true) ∧ t = { s with regs := t.regs, mbox := t.mbox }) ∧
  (∀ (s : State) (c : MbCmd) (e : Nat), s.Commanded 0x43 c → (s.mode = 1 ∨ s.mode = 2) → (s.signedCheck c 1 = e ∧ e ≠ 0)
    → ∃ t, exec .ownerRevoke s = .next t ∧ s.Ended t e 0 [] ∧ t = { s with regs := t.regs, mbox := t.mbox }) ∧
  (∀ (s : State) (c : MbCmd) (bs : List Byte) (n : Nat), s.Commanded 0x42 c → (s.mode = 1 ∨ s.mode = 2) → bs = memRead
    c.buf 0 272 → (n = ownerSlot bs ∧ n ≤ 1) → ∃ t, exec .ownerEnrol s = .next t ∧ (s.endorsed bs = true →
    s.fuses.owner n = none → s.fuses.revoked n = false → ownerHash bs ≠ 0 → s.Ended t 0 0 [] ∧ t.fuses = (if n = 0
    then { s.fuses with owner0 := some (ownerHash bs) } else { s.fuses with owner1 := some (ownerHash bs) })) ∧
    (s.endorsed bs = false → s.Ended t 5 0 [] ∧ t.fuses = s.fuses) ∧ (s.endorsed bs = true → (s.fuses.owner n).isSome
    = true ∨ s.fuses.revoked n = true → s.Ended t 3 0 [] ∧ t.fuses = s.fuses) ∧ t =
    { s with fuses := t.fuses, regs := t.regs, mbox := t.mbox })

/-- COAT_BEGIN, COAT_CHUNK, COAT_APPLY and COAT_INSTALL (R416, R424, R429, R430, R439, R440): staging is erased and
its length set, a chunk is written into it; a staged topcoat that fails a check is refused, its code in CO_STATUS
and in the mailbox (COAT, 8); a QOS topcoat of a port is applied at once, CO_SERIAL and the topcoat chain follow
and the command ends with OK; one that must drain its port stands DRAINING with the port held and the command in
progress; a staged undercoat that passes is written into its slot, which becomes preferred and is not suspect;
while a coat is handled these commands end with BUSY (4), which CO_STATUS shows as 0x0A for COAT_APPLY and
COAT_INSTALL; a chunk of a wrong length, or beyond the length of the coat rounded up to a multiple of 8 (log entry
62), ends with BAD_ARGUMENT (2); a slot is also written in Dust-sheet mode, the one in use included, which allows
one start. -/
def Obligations.CoatsAreStagedAndTaken : Prop :=
  (∀ (s : State) (c : MbCmd), s.CoatCommand 0x10 c → (c.arg 0).toNat ≤ 0x10000000 → ∃ t, exec .coatBegin s = .next t ∧
    s.Ended t 0 0 [] ∧ t.flash = { s.flash with stage := [], stageLen := (c.arg 0).toNat } ∧ t =
    { s with flash := t.flash, regs := t.regs, mbox := t.mbox }) ∧
  (∀ (s : State) (c : MbCmd), s.CoatCommand 0x11 c → ((c.arg 1).toNat % 8 = 0 ∧ (c.arg 1).toNat ≤ 65536 ∧ (c.arg 0).toNat
    + (c.arg 1).toNat ≤ s.flash.stageLen) → ∃ t, exec .coatChunk s = .next t ∧ s.Ended t 0 0 [] ∧ t.flash =
    { s.flash with stage := memWrite s.flash.stage (c.arg 0).toNat (memRead c.buf 0 (c.arg 1).toNat) } ∧ t =
    { s with flash := t.flash, regs := t.regs, mbox := t.mbox }) ∧
  (∀ (s : State) (c : MbCmd), s.Commanded 0x11 c → ((s.mode = 1 ∨ s.mode = 2) ∧ s.coatBusy = true) → ∃ t, exec .coatChunk
    s = .next t ∧ s.Ended t 4 0 [] ∧ t = { s with regs := t.regs, mbox := t.mbox }) ∧
  (∀ (s : State) (c : MbCmd), s.Commanded 0x10 c → ((s.mode = 1 ∨ s.mode = 2) ∧ s.coatBusy = true) → ∃ t, exec .coatBegin
    s = .next t ∧ s.Ended t 4 0 [] ∧ t = { s with regs := t.regs, mbox := t.mbox }) ∧
  (∀ (s : State) (c : MbCmd), s.Commanded 0x12 c → (s.mode = 1 ∧ s.coatBusy = true ∧ s.tack.coat = none ∧ s.todo = []) →
    ∃ t, exec .coatApply s = .next t ∧ s.Ended t 4 0 [] ∧ t.rf .coStatus 55 48 = 0x0A ∧ (t.rf .coStatus 63 56 = s.rf
    .coStatus 63 56 ∧ t.rf .coStatus 47 0 = s.rf .coStatus 47 0) ∧ t = { s with regs := t.regs, mbox := t.mbox }) ∧
  (∀ (s : State) (c : MbCmd), s.Commanded 0x13 c → ((s.mode = 1 ∨ s.mode = 2) ∧ s.coatBusy = true ∧ s.tack.coat = none ∧
    s.todo = []) → ∃ t, exec .coatInstall s = .next t ∧ s.Ended t 4 0 [] ∧ t.rf .coStatus 55 48 = 0x0A ∧ (t.rf
    .coStatus 63 56 = s.rf .coStatus 63 56 ∧ t.rf .coStatus 47 0 = s.rf .coStatus 47 0) ∧ t =
    { s with regs := t.regs, mbox := t.mbox }) ∧
  (∀ (s : State) (c : MbCmd), s.CoatCommand 0x11 c → ((c.arg 1).toNat % 8 ≠ 0 ∨ 65536 < (c.arg 1).toNat ∨
    s.flash.stageLen + 8 ≤ (c.arg 0).toNat + (c.arg 1).toNat) → ∃ t, exec .coatChunk s = .next t ∧ s.Ended t 2 0 [] ∧
    t = { s with regs := t.regs, mbox := t.mbox }) ∧
  (∀ (s : State) (c : MbCmd) (bs : List Byte) (code : Nat), (s.Calm ∧ s.CoatCommand 0x12 c) → bs = s.staged → (codeOf
    ((s.coBegin bs).checkCoat 1 s.flash.stageLen bs) = code ∧ code ≠ 0) → ∃ t, exec .coatApply s = .next t ∧ s.Ended t
    8 code [] ∧ (t.rf .coStatus 55 48 = code ∧ t.rf .coStatus 63 61 = 0) ∧ (t.flash = s.flash ∧ t.fuses = s.fuses ∧
    t.reg .coSerial = s.reg .coSerial) ∧ t.tack = s.tack) ∧
  (∀ (s : State) (c : MbCmd) (bs : List Byte) (l : List CoatSec) (p : Port) (k : Fin 7) (v : Word) (x : CoatSec), (s.Calm
    ∧ s.CoatCommand 0x12 c) → bs = s.staged → okOf ((s.coBegin bs).checkCoat 1 s.flash.stageLen bs) = some l → (l =
    [x] ∧ x.ty = 5 ∧ cScope bs = 2 ∧ cScopeId bs = p.val ∧ s.portState p ≠ 6) → (x.recs 16 = [[BitVec.ofNat 64
    (Reg.egShape p k).addr, v]] ∧ s.live (.port p) = true) → ∃ t, exec .coatApply s = .next t ∧ s.Ended t 0 0 [] ∧
    t.rf (.egShape p k) 63 32 = fld v 63 32 ∧ (t.rf .coStatus 63 61 = 0 ∧ t.rf .coStatus 55 48 = 0 ∧ t.rf .coSerial 31
    0 = cSerial bs) ∧ (t.tack.chained = s.tack.chained + 1 ∧ t.tack.coat = none) ∧ t.tack.chain = sha512 (beBytes 64
    s.tack.chain.toNat ++ beBytes 64 (sha512 (bs.take (cTotal bs))).toNat) ∧ (t.flash = s.flash ∧ t.fuses = s.fuses ∧
    t.hbm = s.hbm)) ∧
  (∀ (s : State) (c : MbCmd) (bs : List Byte) (l : List CoatSec) (p : Port), (s.Calm ∧ s.CoatCommand 0x12 c) → bs =
    s.staged → okOf ((s.coBegin bs).checkCoat 1 s.flash.stageLen bs) = some l → (cScope bs = 2 ∧ cScopeId bs = p.val ∧
    s.portState p ≠ 6 ∧ s.domRuns (p.val / 32) = true ∧ l.any (fun x => x.ty ≠ 5) = true) → ∃ t, exec .coatApply s =
    .next t ∧ (t.rf .coStatus 63 61 = 2 ∧ t.rf .coStatus 47 40 = 2 ∧ t.rf .coStatus 31 0 = p.val) ∧ t.tack.coat.map
    (fun j => (j.scope, j.unit, j.secs, j.serial, j.hash, j.since)) = some (2, p.val, l.map (fun x => (x.ty, x.body)),
    cSerial bs, sha512 (bs.take (cTotal bs)), s.clk) ∧ t.tack = { s.tack with coat := t.tack.coat } ∧ t.holdPort =
    some p.val ∧ t = { s with regs := t.regs, tack := t.tack, holdPort := t.holdPort }) ∧
  (∀ (s : State) (c : MbCmd) (bs : List Byte) (n : Nat), (s.Calm ∧ s.CoatCommand 0x13 c) → bs = s.staged → (okOf
    ((s.coBegin bs).checkCoat 0 s.flash.stageLen bs)).isSome = true → (n = (c.arg 0).toNat ∧ n ≤ 1 ∧ (s.mode = 1 → n ≠
    s.rf .tkState 47 47)) → ∃ t, exec .coatInstall s = .next t ∧ s.Ended t 0 0 [] ∧ t.flash = (if n = 0 then
    { s.flash with slotA := bs.take (cTotal bs), suspectA := false, preferred := 0, oneStart := t.flash.oneStart }
    else
    { s.flash with slotB := bs.take (cTotal bs), suspectB := false, preferred := 1, oneStart := t.flash.oneStart }) ∧
    t.flash.oneStart = (s.flash.oneStart || decide (s.mode = 2)) ∧ (t.rf .tkState 46 46 = n ∧ t.fuses = s.fuses ∧
    t.tack = s.tack) ∧ t = { s with flash := t.flash, regs := t.regs, mbox := t.mbox })

/-- SMB_STATUS, SMB_ATTEST, SMB_REPORT, SMB_PART, SMB_IDENTITY and TACK_NOTE_CLEAR (R435, R437, R444, R462): STATUS
answers 16 bytes of status; ATTEST with 64 bytes makes the report on that nonce ready, with a signature of 132
bytes; PART selects 0 to 3, and another value is not acknowledged; REPORT and IDENTITY answer 128 bytes of the
selected part, the identity block padded with zeros to 384 bytes; a NOTE bit of TACK clears 1 s after the latest
NOTE. While the Tack Room is off nothing answers, and a transaction to another address than the part's own (R45)
is left alone. Bytes that the specification leaves open (a report before any is ready, part 3 of IDENTITY) and the
supply voltages are free values of the model (log entries 7 and 59), but that a supply which stands measures at
least the 10.8 V below which it counts as lost (R39, R40). -/
def Obligations.SmbusReportsAndIdentifies : Prop :=
  (∀ (s : State) (b : BitVec 7), (s.tack.up = true ∧ b = s.smbAddr) → ∃ t, exec (.smbStatus b) s = .next t ∧ (∃ vm va :
    Nat, vm < 65536 ∧ va < 65536 ∧ (s.pins.mainEn = true → s.pins.mainPg = true → 1080 ≤ vm) ∧ (s.pins.vinAux = true →
    1080 ≤ va) ∧ t = { s with frees := s.frees + 2, out := .smbus (s.status16 vm va) :: s.out })) ∧
  (∀ (s : State) (b : BitVec 7) (nonce : List Byte), (s.tack.up = true ∧ b = s.smbAddr) → nonce.length = 64 → ∃ t, exec
    (.smbAttest b nonce) s = .next t ∧ (∃ sig : List Byte, sig.length = 132 ∧ t.tack =
    { s.tack with smbReport := some (s.report380 nonce ++ sig) }) ∧ t =
    { s with draws := s.draws + 2, tack := t.tack }) ∧
  (∀ (s : State) (b : BitVec 7) (nonce : List Byte), nonce.length ≠ 64 → exec (.smbAttest b nonce) s = .next (s)) ∧
  (∀ (s : State) (b : BitVec 7) (r : List Byte), (s.tack.up = true ∧ b = s.smbAddr) → s.tack.smbReport = some r → exec
    (.smbReport b) s = .next ({ s with out := .smbus ((r.drop (128 * s.tack.smbPart)).take 128) :: s.out })) ∧
  (∀ (s : State) (b : BitVec 7), (s.tack.up = true ∧ b = s.smbAddr) → s.tack.smbReport = none → exec (.smbReport b) s =
    .next
    ({ s with frees := s.frees + 1, out := .smbus (leBytes 128 (Config.freeValue s.frees % 2 ^ 1024)) :: s.out })) ∧
  (∀ (s : State) (b : BitVec 7) (n : BitVec 8), (s.tack.up = true ∧ b = s.smbAddr) → ∃ t, exec (.smbPart b n) s = .next t
    ∧ (n.toNat ≤ 3 → t = { s with tack := { s.tack with smbPart := n.toNat } }) ∧ (3 < n.toNat → t = s)) ∧
  (∀ (s : State) (b : BitVec 7), (s.tack.up = true ∧ b = s.smbAddr) → ∃ t, exec (.smbIdentity b) s = .next t ∧
    (s.tack.smbPart ≤ 2 → t =
    { s with out := .smbus (((s.identity272 ++ List.replicate 112 0).drop (128 * s.tack.smbPart)).take 128) :: s.out })
    ∧ (2 < s.tack.smbPart → t =
    { s with frees := s.frees + 1, out := .smbus (leBytes 128 (Config.freeValue s.frees % 2 ^ 1024)) :: s.out })) ∧
  (∀ (s u : State) (dt at_ : Nat), u = s.elapse dt → u.tack.up = true → u.tack.noteAt = some at_ → ∃ t, exec
    (.tackNoteClear dt) s = .next t ∧ (u.tk < at_ + 16 * 10 ^ 9 → t = u) ∧ (at_ + 16 * 10 ^ 9 ≤ u.tk → t.rb (.ftStatus
    .tack) 0 = false ∧ t.rf (.ftStatus .tack) 63 1 = u.rf (.ftStatus .tack) 63 1 ∧ t.tack =
    { u.tack with noteAt := none } ∧ t = { u with regs := t.regs, tack := t.tack })) ∧
  (∀ (s : State) (b : BitVec 7), (s.tack.up = false ∨ b ≠ s.smbAddr) → exec (.smbStatus b) s = .next (s)) ∧
  (∀ (s : State) (b : BitVec 7) (nonce : List Byte), (s.tack.up = false ∨ b ≠ s.smbAddr) → exec (.smbAttest b nonce) s =
    .next (s)) ∧
  (∀ (s : State) (b : BitVec 7), (s.tack.up = false ∨ b ≠ s.smbAddr) → exec (.smbReport b) s = .next (s)) ∧
  (∀ (s : State) (b : BitVec 7), (s.tack.up = false ∨ b ≠ s.smbAddr) → exec (.smbIdentity b) s = .next (s)) ∧
  (∀ (s : State) (b : BitVec 7) (n : BitVec 8), (s.tack.up = false ∨ b ≠ s.smbAddr) → exec (.smbPart b n) s = .next (s))

/-- REGISTER_WRITE, RC_READ, DIGEST_HI_READ and PM_SNAPSHOT (R6, R7, R8, R433, R438, R440, R479, R483, R491, R492): a
write changes each field as its access code says and no other register, and one that is acknowledged early (R363)
does so now or waits on its path; one with a reserved bit or encoding changes nothing but is noted; one at an
address that is not a multiple of 8 has no effect, and a core that sends it is told of the bus error; a TACK
register is written only by the Warden, MB_ARG and MB_CMD only by the holder of the claim, and MB_CMD with go
starts the command with its inputs; a read returns the value and clears RC fields; a read of a _HI digest captures
_LO for its reader, whose next read of _LO returns it; a counter snapshot is written as a record of 64 bytes at
its time, or counted as lost. -/
def Obligations.RegisterAccessesTakeEffect : Prop :=
  (∀ (s : State) (m : Master) (a v : BitVec 64) (r : Reg), s.Calm → (s.Reaches m a r ∧ plainReg r = true ∧ r.wardenOnly =
    false) → s.Prompt m a.toNat → (r.fieldsOk v = true ∧ s.encOk r v = true) → ∃ t, exec (.registerWrite m a v) s =
    .next t ∧ (∀ f ∈ r.fields, (f.acc = .rw → t.rf r f.hi f.lo = fld v f.hi f.lo) ∧ (f.acc = .ro → t.rf r f.hi f.lo =
    s.rf r f.hi f.lo) ∧ (f.acc = .w1c → f.hi = f.lo ∧ t.rb r f.lo = (s.rb r f.lo && !bit v f.lo))) ∧ (∀ q : Reg,
    q.addr ≠ r.addr → t.reg q = s.reg q) ∧ t = { s with regs := t.regs }) ∧
  (∀ (s : State) (m : Master) (a v : BitVec 64) (r : Reg), s.Calm → (s.Reaches m a r ∧ plainReg r = true ∧ r.wardenOnly =
    false ∧ s.frozen r.block = false) → s.Prompt m a.toNat → (r.fieldsOk v = false ∨ s.encOk r v = false) → s.rb
    (.ftMask r.block) 0 = true → ∃ t, exec (.registerWrite m a v) s = .next t ∧ t.reg r = s.reg r ∧ (t.rb (.ftStatus
    r.block) 0 = true ∧ t.rf (.ftCode r.block) 47 32 = 256 * blockType r.block + 1) ∧ (s.rf (.ftStatus r.block) 3 0 =
    0 → t.rf (.ftCode r.block) 63 48 = 256 * blockType r.block + 1 ∧ t.rf (.ftCode r.block) 31 24 = 0) ∧ t =
    { s with regs := t.regs }) ∧
  (∀ (s : State) (m : Master) (a v : BitVec 64) (r : Reg), s.Calm → (s.Reaches m a r ∧ r.wardenOnly = true ∧ m ≠ .warden)
    → s.Prompt m a.toNat → exec (.registerWrite m a v) s = .next (s)) ∧
  (∀ (s : State) (m : Master) (a v : BitVec 64) (r : Reg) (c : Nat), s.Calm → (s.Reaches m a r ∧ plainReg r = true ∧
    r.wardenOnly = false) → (r.fieldsOk v = true ∧ s.encOk r v = true) → (s.coreAccs = [] ∧ coreOf m = some c ∧ s.ewa
    c a.toNat = true) → ∃ t, exec (.registerWrite m a v) s = .next t ∧ ((t.coreAccs = [⟨s.serial, c, a.toNat, v,
    .onPath, !s.weak c a.toNat⟩] ∧ t.regs = s.regs) ∨ (t.coreAccs = [] ∧ ∀ f ∈ r.fields, f.acc = .rw → t.rf r f.hi
    f.lo = fld v f.hi f.lo)) ∧ (∀ q : Reg, q.addr ≠ r.addr → t.reg q = s.reg q) ∧ t =
    { s with regs := t.regs, coreAccs := t.coreAccs, serial := s.serial + 1, frees := s.frees + 1 }) ∧
  (∀ (s : State) (m : Master) (a v : BitVec 64) (i : Fin 4), s.Calm → s.Reaches m a (.mbArg i) → s.Prompt m a.toNat →
    exec (.registerWrite m a v) s = .next ((if s.mbox.holder = some m then s.setReg (.mbArg i) v else s))) ∧
  (∀ (s : State) (m : Master) (a v : BitVec 64) (code : Nat), s.Calm → s.Reaches m a .mbCmd → s.Prompt m a.toNat → (code
    < 256 ∧ v = mkWord 64 [(63, 63, 1), (7, 0, code)]) → (s.mbox.holder = some m ∧ s.rb .mbCmd 63 = false ∧
    s.mbox.urgent = none ∧ s.mbox.overtaken = false) → ∃ t, exec (.registerWrite m a v) s = .next t ∧
    (mbCodes.contains code = true → t.mbox =
    { s.mbox with run := some ⟨code, [s.reg (.mbArg 0), s.reg (.mbArg 1), s.reg (.mbArg 2), s.reg (.mbArg 3)], s.mbBuf, false⟩ }
    ∧ t.reg .mbCmd = v ∧ t = { s with regs := t.regs, mbox := t.mbox }) ∧ (mbCodes.contains code = false → t.reg
    .mbStatus = 0x0100000000000000 ∧ t.rb .mbCmd 63 = false ∧ t.mbox = { s.mbox with run := none, since := s.tk } ∧ t
    = { s with regs := t.regs, mbox := t.mbox })) ∧
  (∀ (s : State) (m : Master) (a v : BitVec 64), s.Calm → (s.agentLive m = true ∧ s.masterMay m a.toNat = false) → exec
    (.registerWrite m a v) s = .next (s)) ∧
  (∀ (s : State) (m : Master) (a v : BitVec 64), s.Calm → (s.agentLive m = true ∧ s.masterMay m a.toNat = true ∧ a.toNat
    % 8 ≠ 0 ∧ isMemoryAddr a.toNat = false) → s.Prompt m a.toNat → ∃ t, exec (.registerWrite m a v) s = .next t ∧
    (coreOf m = none → t = s) ∧ (∀ c, coreOf m = some c → t =
    { s with out := .busError (coreMaster c) a.toNat :: s.out })) ∧
  (∀ (s : State) (m : Master) (a : BitVec 64) (st : Stall), s.Calm → s.Reaches m a (.rmaCount st) → s.Prompt m a.toNat →
    s.captures = [] → exec (.rcRead m a) s = .next
    ({ s.setReg (.rmaCount st) 0 with out := .value m a.toNat (s.reg (.rmaCount st)) :: s.out })) ∧
  (∀ (s : State) (m : Master) (a : BitVec 64) (p : Port), s.Calm → s.Reaches m a (.egWeight p) → s.Prompt m a.toNat →
    s.captures = [] → exec (.rcRead m a) s = .next ({ s with out := .value m a.toNat (s.reg (.egWeight p)) :: s.out })) ∧
  (∀ (s : State) (m : Master) (a : BitVec 64) (hi lo : Reg), s.Calm → (s.Reaches m a hi ∧ hi.digestLo = some lo) →
    s.Prompt m a.toNat → s.captures = [] → exec (.digestHiRead m a) s = .next
    ({ s with captures := [⟨m, lo.addr, s.reg lo⟩], out := .value m a.toNat (s.reg hi) :: s.out })) ∧
  (∀ (s : State) (m : Master) (a : BitVec 64) (hi lo : Reg) (v : Word), s.Calm → (s.Reaches m a lo ∧ hi.digestLo = some
    lo) → s.Prompt m a.toNat → s.captures = [⟨m, lo.addr, v⟩] → exec (.rcRead m a) s = .next
    ({ s with captures := [], out := .value m a.toNat v :: s.out })) ∧
  (∀ (s u : State) (p : Port) (dt : Nat) (w : Word), u = s.elapse dt → (u.live (.port p) = true ∧ w = u.reg (.pmDump
    (.port p))) → (bit w 63 = false ∨ u.nt.toNat % 16 ≠ 0 ∨ u.ntNs % (1000 * fld w 51 32) ≠ 0) → exec (.pmSnapshot
    (.port p) dt) s = .next (u)) ∧
  (∀ (s u : State) (p : Port) (dt : Nat) (w : Word), u = s.elapse dt → (u.live (.port p) = true ∧ w = u.reg (.pmDump
    (.port p))) → (bit w 63 = true ∧ u.nt.toNat % 16 = 0 ∧ fld w 51 32 ≠ 0 ∧ u.ntNs % (1000 * fld w 51 32) = 0) →
    u.tmValid (fld w 56 56) (fld w 55 52) = false → ∃ t, exec (.pmSnapshot (.port p) dt) s = .next t ∧ t.rf (.pmDump
    (.port p)) 31 0 = min (fld w 31 0 + 1) 0xFFFFFFFF ∧ t.rf (.pmDump (.port p)) 63 32 = fld w 63 32 ∧ t =
    { u with regs := t.regs }) ∧
  (∀ (s u : State) (p : Port) (dt a n : Nat) (w c : Word) (d : Dom) (i : Fin 16), u = s.elapse dt → (u.live (.port p) =
    true ∧ w = u.reg (.pmDump (.port p))) → (bit w 63 = true ∧ u.nt.toNat % 16 = 0 ∧ fld w 51 32 ≠ 0 ∧ u.ntNs % (1000
    * fld w 51 32) = 0) → (d.val = fld w 56 56 ∧ i.val = fld w 55 52 ∧ c = u.reg (.tmCtrl d i) ∧ u.tmValid d.val i.val
    = true ∧ bit c 62 = true ∧ fld c 31 0 = 0) → (n = tGet 0 u.tmWrote (16 * d.val + i.val) ∧ bit c (43 + n / 512 % 2)
    = true ∧ (n + 1) % 512 ≠ 0) → (a = 65536 * u.rf (.tmBase d i) 63 16 + 64 * (n % 1024) ∧ inHbm a = true) → ∃ t,
    exec (.pmSnapshot (.port p) dt) s = .next t ∧ t.hbmRead a 64 = bytesOf [mkWord 64 [(63, 63, b2n (decide (n / 1024
    % 2 = 0))), (62, 56, 1), (47, 40, 1), (39, 32, 5), (31, 24, p.val)], u.nt, u.pmFixed (.port p), u.reg (.pmCnt
    (.port p) 0), u.reg (.pmCnt (.port p) 1), u.reg (.pmCnt (.port p) 2), u.reg (.pmCnt (.port p) 3), 0] ∧ (∀ x, (x <
    a ∨ a + 64 ≤ x) → t.hbmRead x 1 = u.hbmRead x 1) ∧ (tGet 0 t.tmWrote (16 * d.val + i.val) = n + 1 ∧ t.rf (.tmCtrl
    d i) 42 32 = (n + 1) % 1024) ∧ (t.buf = u.buf ∧ t.flash = u.flash ∧ t.tack = u.tack ∧ t.mbox = u.mbox))
end

