-- ==== Sys2Proof/Laws/Bits.lean ====
section
/-! SUPPORT. Bit fields: what a field reads after it, or another field, has been written. -/

namespace Sys2Proof.Machine

/-- Bit `i` of a word whose field [hi:lo] was replaced. -/
theorem getLsbD_setFld {n : Nat} (w : BitVec n) (hi lo v i : Nat) (hn : i < n) :
    (setFld w hi lo v).getLsbD i =
      if lo ≤ i ∧ i < hi + 1 then v.testBit (i - lo) else w.getLsbD i := by
  have key : ∀ x : Nat, x < 2 ^ (hi + 1 - lo) → (x * 2 ^ lo).testBit i = (decide (lo ≤ i) && x.testBit (i - lo)) := by
    intro x _
    rw [Nat.testBit_mul_two_pow]
  unfold setFld mask
  simp only [BitVec.getLsbD_or, BitVec.getLsbD_and, BitVec.getLsbD_not, BitVec.getLsbD_ofNat, hn, decide_true, Bool.true_and]
  rw [key _ (by have := Nat.two_pow_pos (hi + 1 - lo); omega), key _ (Nat.mod_lt _ (Nat.two_pow_pos _))]
  rw [Nat.testBit_two_pow_sub_one, Nat.testBit_mod_two_pow]
  by_cases h1 : lo ≤ i
  · by_cases h2 : i < hi + 1
    · have h3 : i - lo < hi + 1 - lo := by omega
      simp [h1, h2, h3]
    · have h3 : ¬ (i - lo < hi + 1 - lo) := by omega
      simp [h1, h2, h3]
  · simp [h1]

/-- Bit `i` of a field read as a number. -/
theorem testBit_fld {n : Nat} (w : BitVec n) (hi lo i : Nat) :
    (fld w hi lo).testBit i = (decide (i < hi + 1 - lo) && w.getLsbD (lo + i)) := by
  unfold fld
  rw [Nat.testBit_mod_two_pow, Nat.testBit_div_two_pow, Nat.add_comm i lo]
  rfl

/-- A field reads what was written to it, cut to its width. -/
theorem fld_setFld_same {n : Nat} (w : BitVec n) (hi lo v : Nat) (h : hi < n) :
    fld (setFld w hi lo v) hi lo = v % 2 ^ (hi + 1 - lo) := by
  apply Nat.eq_of_testBit_eq
  intro i
  rw [testBit_fld, Nat.testBit_mod_two_pow]
  by_cases hi' : i < hi + 1 - lo
  · have h1 : lo + i < n := by omega
    rw [getLsbD_setFld w hi lo v _ h1]
    have h2 : lo ≤ lo + i ∧ lo + i < hi + 1 := by omega
    simp [hi', h2]
  · simp [hi']

/-- A field is unchanged by a write to a field above or below it. -/
theorem fld_setFld_other {n : Nat} (w : BitVec n) (hi lo v hi' lo' : Nat) (hn : hi' < n)
    (h : hi < lo' ∨ hi' < lo) : fld (setFld w hi lo v) hi' lo' = fld w hi' lo' := by
  apply Nat.eq_of_testBit_eq
  intro i
  rw [testBit_fld, testBit_fld]
  by_cases hi' : i < hi' + 1 - lo'
  · have h1 : lo' + i < n := by omega
    rw [getLsbD_setFld w hi lo v _ h1]
    have h2 : ¬ (lo ≤ lo' + i ∧ lo' + i < hi + 1) := by omega
    rw [if_neg h2]
  · simp [hi']

/-- A field is below the power of its width. -/
theorem fld_lt {n : Nat} (w : BitVec n) (hi lo : Nat) : fld w hi lo < 2 ^ (hi + 1 - lo) :=
  Nat.mod_lt _ (Nat.two_pow_pos _)

/-- A bit is unchanged by a write to a field that does not hold it. -/
theorem bit_setFld_other {n : Nat} (w : BitVec n) (hi lo v i : Nat) (hn : i < n) (h : hi < i ∨ i < lo) :
    bit (setFld w hi lo v) i = bit w i := by
  unfold bit
  rw [getLsbD_setFld w hi lo v i hn]
  have h2 : ¬ (lo ≤ i ∧ i < hi + 1) := by omega
  rw [if_neg h2]

/-- A bit that was written reads what was written. -/
theorem bit_setFld_same {n : Nat} (w : BitVec n) (i : Nat) (b : Bool) (hn : i < n) :
    bit (setFld w i i (b2n b)) i = b := by
  unfold bit b2n
  rw [getLsbD_setFld w i i _ i hn]
  cases b <;> simp

/-- Bytes laid out low byte first and read back. -/
theorem ofLe_leBytes (n v : Nat) : ofLe (leBytes n v) = v % 256 ^ n := by
  induction n generalizing v with
  | zero => simp [leBytes, ofLe, Nat.mod_one]
  | succ n ih =>
    simp only [leBytes, ofLe, ih, BitVec.toNat_ofNat]
    have h := Nat.mod_mul (x := v) (a := 256) (b := 256 ^ n)
    have e : 256 ^ (n + 1) = 256 * 256 ^ n := by rw [Nat.pow_succ, Nat.mul_comm]
    rw [e]
    omega

/-- The number of bytes laid out. -/
@[simp] theorem leBytes_length (n v : Nat) : (leBytes n v).length = n := by
  induction n generalizing v with
  | zero => rfl
  | succ n ih => simp [leBytes, ih]

/-- The number of bytes laid out, high byte first. -/
@[simp] theorem beBytes_length (n v : Nat) : (beBytes n v).length = n := by simp [beBytes]

/-- A list changed at one place keeps its length. -/
@[simp] theorem modAt_length {α : Type} (l : List α) (i : Nat) (f : α → α) : (modAt l i f).length = l.length := by
  induction l generalizing i with
  | nil => rfl
  | cons a as ih => cases i <;> simp [modAt, ih]

/-- A list changed at one place, read there and elsewhere. -/
theorem modAt_getD {α : Type} (l : List α) (i j : Nat) (f : α → α) (d : α) (h : i < l.length) :
    (modAt l i f).getD j d = if j = i then f (l.getD i d) else l.getD j d := by
  induction l generalizing i j with
  | nil => simp at h
  | cons a as ih =>
    cases i with
    | zero => cases j <;> simp [modAt]
    | succ i =>
      cases j with
      | zero => simp [modAt]
      | succ j =>
        have := ih i j (by simpa using h)
        simpa [modAt] using this

end Sys2Proof.Machine
end

