-- ==== Sys2Proof/Laws/Tab.lean ====
section
/-! SUPPORT. Tables and memories: what is read after a write, there and elsewhere, and that every write keeps the one
form of a memory. -/

namespace Sys2Proof.Machine

variable {α : Type}

/-- A key that was put is found. -/
@[simp] theorem tFind_tPut_same (k : Nat) (v : α) (t : Tab α) : tFind (tPut k v t) k = some v := by
  induction t with
  | nil => simp [tPut, tFind]
  | cons e t ih =>
    obtain ⟨j, w⟩ := e
    unfold tPut
    split
    · simp [tFind]
    · split
      · simp [tFind]
      · next h1 h2 => simp [tFind, h2, ih]

/-- Any other key is found as before. -/
theorem tFind_tPut_other (k j : Nat) (v : α) (t : Tab α) (h : j ≠ k) : tFind (tPut k v t) j = tFind t j := by
  induction t with
  | nil => simp [tPut, tFind, h]
  | cons e t ih =>
    obtain ⟨i, w⟩ := e
    unfold tPut
    split
    · simp [tFind, h]
    · split
      · next h1 h2 => subst h2; simp [tFind, h]
      · simp only [tFind, ih]

/-- A key that was deleted is not found. -/
@[simp] theorem tFind_tDel_same (k : Nat) (t : Tab α) : tFind (tDel k t) k = none := by
  induction t with
  | nil => rfl
  | cons e t ih =>
    obtain ⟨j, w⟩ := e
    unfold tDel at ih ⊢
    by_cases hj : j = k
    · subst hj; simpa using ih
    · have hk : k ≠ j := fun h => hj h.symm
      simpa [hj, tFind, hk] using ih

/-- Any other key is found as before. -/
theorem tFind_tDel_other (k j : Nat) (t : Tab α) (h : j ≠ k) : tFind (tDel k t) j = tFind t j := by
  induction t with
  | nil => rfl
  | cons e t ih =>
    obtain ⟨i, w⟩ := e
    unfold tDel at ih ⊢
    by_cases hi : i = k
    · subst hi; simpa [tFind, h] using ih
    · simp only [hi, ne_eq, not_false_eq_true, decide_true, List.filter_cons_of_pos, tFind]
      split
      · rfl
      · exact ih

/-- A table with a default reads what was set. -/
@[simp] theorem tGet_tSet_same [DecidableEq α] (d : α) (k : Nat) (v : α) (t : Tab α) : tGet d (tSet d k v t) k = v := by
  unfold tGet tSet
  split
  · next h => simp [h]
  · simp

/-- It reads any other key as before. -/
theorem tGet_tSet_other [DecidableEq α] (d : α) (k j : Nat) (v : α) (t : Tab α) (h : j ≠ k) :
    tGet d (tSet d k v t) j = tGet d t j := by
  unfold tGet tSet
  split
  · rw [tFind_tDel_other k j t h]
  · rw [tFind_tPut_other k j v t h]

/-- A changed entry reads as changed. -/
@[simp] theorem tGet_tMod_same [DecidableEq α] (d : α) (k : Nat) (f : α → α) (t : Tab α) :
    tGet d (tMod d k f t) k = f (tGet d t k) := by unfold tMod; simp

/-- Another entry reads as before. -/
theorem tGet_tMod_other [DecidableEq α] (d : α) (k j : Nat) (f : α → α) (t : Tab α) (h : j ≠ k) :
    tGet d (tMod d k f t) j = tGet d t j := tGet_tSet_other d k j _ t h

/-! ### Rising keys -/

/-- Keys rise strictly when every later key is above every earlier one. -/
theorem tSorted_iff (t : Tab α) : tSorted t = true ↔ t.Pairwise (fun a b => a.1 < b.1) := by
  induction t with
  | nil => simp [tSorted]
  | cons e t ih =>
    cases t with
    | nil => simp [tSorted]
    | cons f t =>
      rw [tSorted, Bool.and_eq_true, ih, decide_eq_true_iff, List.pairwise_cons (a := e)]
      constructor
      · rintro ⟨h1, h2⟩
        refine ⟨fun b hb => ?_, h2⟩
        rcases List.mem_cons.1 hb with rfl | hb
        · exact h1
        · exact lt_trans h1 ((List.pairwise_cons.1 h2).1 b hb)
      · rintro ⟨h1, h2⟩
        exact ⟨h1 f (List.mem_cons_self ..), h2⟩

/-- An entry of a table with a key put. -/
theorem mem_tPut {k : Nat} {v : α} {t : Tab α} {e : Nat × α} (h : e ∈ tPut k v t) : e = (k, v) ∨ e ∈ t := by
  induction t with
  | nil => simpa [tPut] using h
  | cons f t ih =>
    obtain ⟨j, w⟩ := f
    unfold tPut at h
    split at h
    · rcases List.mem_cons.1 h with h | h
      · exact .inl h
      · exact .inr h
    · split at h
      · rcases List.mem_cons.1 h with h | h
        · exact .inl h
        · exact .inr (List.mem_cons_of_mem _ h)
      · rcases List.mem_cons.1 h with h | h
        · exact .inr (h ▸ List.mem_cons_self ..)
        · rcases ih h with h | h
          · exact .inl h
          · exact .inr (List.mem_cons_of_mem _ h)

/-- A put keeps the keys rising. -/
theorem tSorted_tPut (k : Nat) (v : α) (t : Tab α) (h : tSorted t = true) : tSorted (tPut k v t) = true := by
  rw [tSorted_iff] at h ⊢
  induction t with
  | nil => simp [tPut]
  | cons e t ih =>
    obtain ⟨j, w⟩ := e
    rw [List.pairwise_cons] at h
    unfold tPut
    split
    · next hk =>
      rw [List.pairwise_cons, List.pairwise_cons]
      refine ⟨fun b hb => ?_, h⟩
      rcases List.mem_cons.1 hb with rfl | hb
      · exact hk
      · exact lt_trans hk (h.1 b hb)
    · split
      · next hk => subst hk; exact List.pairwise_cons.2 h
      · next h1 h2 =>
        rw [List.pairwise_cons]
        refine ⟨fun b hb => ?_, ih h.2⟩
        rcases mem_tPut hb with rfl | hb
        · simp only; omega
        · exact h.1 b hb

/-- A part of a table keeps the keys rising. -/
theorem tSorted_filter (p : Nat × α → Bool) (t : Tab α) (h : tSorted t = true) : tSorted (t.filter p) = true := by
  rw [tSorted_iff] at h ⊢
  exact h.filter p

/-! ### The one form -/

/-- A part of a table in its one form is in that form. -/
theorem tCanon_filter [DecidableEq α] (d : α) (p : Nat × α → Bool) (t : Tab α) (h : tCanon d t = true) :
    tCanon d (t.filter p) = true := by
  unfold tCanon at *
  rw [Bool.and_eq_true] at *
  refine ⟨tSorted_filter p t h.1, ?_⟩
  rw [List.all_eq_true] at *
  exact fun x hx => h.2 x (List.mem_filter.1 hx).1

/-- Setting an entry keeps the one form. -/
theorem tCanon_tSet [DecidableEq α] (d : α) (k : Nat) (v : α) (t : Tab α) (h : tCanon d t = true) :
    tCanon d (tSet d k v t) = true := by
  unfold tSet
  split
  · exact tCanon_filter d _ t h
  · next hv =>
    unfold tCanon at *
    rw [Bool.and_eq_true] at *
    refine ⟨tSorted_tPut k v t h.1, ?_⟩
    rw [List.all_eq_true] at *
    intro x hx
    rcases mem_tPut hx with rfl | hx
    · simpa using hv
    · exact h.2 x hx

/-! ### Memory -/

/-- A byte written is read. -/
@[simp] theorem memByte_memPut_same (m : List Host.Cell) (a : Nat) (b : Byte) : memByte (memPut m a b) a = b :=
  tGet_tSet_same 0 a b m

/-- Every other byte is read as before. -/
theorem memByte_memPut_other (m : List Host.Cell) (a c : Nat) (b : Byte) (h : c ≠ a) :
    memByte (memPut m a b) c = memByte m c := tGet_tSet_other 0 a c b m h

/-- A write of a byte keeps the one form of a memory. -/
theorem wf_memPut (m : List Host.Cell) (a : Nat) (b : Byte) (h : Memory.wf m = true) : Memory.wf (memPut m a b) = true :=
  tCanon_tSet 0 a b m h

/-- A write of bytes keeps the one form of a memory. -/
theorem wf_memWrite (bs : List Byte) (m : List Host.Cell) (a : Nat) (h : Memory.wf m = true) :
    Memory.wf (memWrite m a bs) = true := by
  induction bs generalizing m a with
  | nil => exact h
  | cons b bs ih => exact ih _ _ (wf_memPut m a b h)

/-- A part of a memory is in the one form. -/
theorem wf_filter (p : Host.Cell → Bool) (m : List Host.Cell) (h : Memory.wf m = true) : Memory.wf (m.filter p) = true :=
  tCanon_filter 0 p m h

/-- A write of bytes leaves every byte outside them. -/
theorem memByte_memWrite_other (bs : List Byte) (m : List Host.Cell) (a c : Nat) (h : c < a ∨ a + bs.length ≤ c) :
    memByte (memWrite m a bs) c = memByte m c := by
  induction bs generalizing m a with
  | nil => rfl
  | cons b bs ih =>
    simp only [List.length_cons] at h
    rw [memWrite, ih _ _ (by omega), memByte_memPut_other _ _ _ _ (by omega)]

/-- A write of bytes is read back. -/
theorem memByte_memWrite_same (bs : List Byte) (m : List Host.Cell) (a i : Nat) (h : i < bs.length) :
    memByte (memWrite m a bs) (a + i) = bs.getD i 0 := by
  induction bs generalizing m a i with
  | nil => simp at h
  | cons b bs ih =>
    cases i with
    | zero =>
      rw [memWrite, memByte_memWrite_other _ _ _ _ (by omega)]
      simp
    | succ i =>
      have := ih (memPut m a b) (a + 1) i (by simpa using h)
      rw [memWrite, show a + (i + 1) = a + 1 + i by omega, this]
      simp

/-- The bytes read at the place of a write are those written. -/
theorem memRead_memWrite (bs : List Byte) (m : List Host.Cell) (a : Nat) :
    memRead (memWrite m a bs) a bs.length = bs := by
  unfold memRead
  apply List.ext_getElem
  · simp
  · intro i h1 h2
    simp only [List.getElem_map, List.getElem_range]
    rw [memByte_memWrite_same bs m a i h2]
    simp [List.getD_eq_getElem?_getD, h2]

end Sys2Proof.Machine
end

