-- ==== Sys2Proof/Laws/Ops.lean ====
section
/-! SUPPORT. What the named operations do: registers read after a write, HBM read after a write, and the effect forms
on a state in which no work waits. -/

namespace Sys2Proof.Machine

/-! ### Registers -/

/-- A register reads what was written. -/
@[simp] theorem reg_setReg_same (s : State) (r : Reg) (v : Word) : (s.setReg r v).reg r = v := by
  unfold State.reg State.setReg
  simp only
  split
  · next h => simp [h]
  · simp

/-- A register at another address reads as before. -/
theorem reg_setReg_other (s : State) (r q : Reg) (v : Word) (h : q.addr ≠ r.addr) : (s.setReg r v).reg q = s.reg q := by
  unfold State.reg State.setReg
  simp only
  split
  · rw [tFind_tDel_other _ _ _ h]
  · rw [tFind_tPut_other _ _ _ _ h]

/-- A field reads what was written to it, cut to its width. -/
theorem rf_wf_same (s : State) (r : Reg) (hi lo v : Nat) (h : hi < 64) :
    (s.wf r hi lo v).rf r hi lo = v % 2 ^ (hi + 1 - lo) := by
  unfold State.rf State.wf
  rw [reg_setReg_same, fld_setFld_same _ _ _ _ h]

/-- A field above or below it reads as before. -/
theorem rf_wf_field (s : State) (r : Reg) (hi lo v hi' lo' : Nat) (hn : hi' < 64) (h : hi < lo' ∨ hi' < lo) :
    (s.wf r hi lo v).rf r hi' lo' = s.rf r hi' lo' := by
  unfold State.rf State.wf
  rw [reg_setReg_same, fld_setFld_other _ _ _ _ _ _ hn h]

/-- A field of a register at another address reads as before. -/
theorem rf_wf_other (s : State) (r q : Reg) (hi lo v hi' lo' : Nat) (h : q.addr ≠ r.addr) :
    (s.wf r hi lo v).rf q hi' lo' = s.rf q hi' lo' := by
  unfold State.rf State.wf
  rw [reg_setReg_other _ _ _ _ h]

/-- A bit reads what was written to it. -/
theorem rb_wb_same (s : State) (r : Reg) (i : Nat) (b : Bool) (h : i < 64) : (s.wb r i b).rb r i = b := by
  unfold State.rb State.wb State.wf
  rw [reg_setReg_same, bit_setFld_same _ _ _ h]

/-- A bit of a register at another address reads as before. -/
theorem rb_wf_other (s : State) (r q : Reg) (hi lo v i : Nat) (h : q.addr ≠ r.addr) :
    (s.wf r hi lo v).rb q i = s.rb q i := by
  unfold State.rb State.wf
  rw [reg_setReg_other _ _ _ _ h]

/-! ### HBM -/

/-- A write of HBM keeps the one form of the memories. -/
theorem memCanon_hbmWrite (s : State) (a : Nat) (bs : List Byte) (h : s.memCanon = true) :
    (s.hbmWrite a bs).memCanon = true := by
  unfold State.hbmWrite
  split
  · unfold State.memCanon at *
    rw [Bool.and_eq_true] at *
    exact ⟨wf_memWrite _ _ _ h.1, h.2⟩
  · exact h

/-- A write of HBM leaves every byte outside the bytes written. -/
theorem hbmByte_hbmWrite_other (s : State) (a c : Nat) (bs : List Byte) (h : c < a ∨ a + bs.length ≤ c) :
    (s.hbmWrite a bs).hbmByte c = s.hbmByte c := by
  unfold State.hbmWrite
  split
  · next hw =>
    unfold State.hbmByte
    split
    · next hc =>
      simp only [inHbm, Bool.and_eq_true, decide_eq_true_eq] at hw hc
      exact memByte_memWrite_other _ _ _ _ (by omega)
    · rfl
  · rfl

/-- A write that lies in HBM is read back. -/
theorem hbmRead_hbmWrite (s : State) (a : Nat) (bs : List Byte) (h0 : inHbm a = true) (h1 : inHbm (a + bs.length - 1) = true) :
    (s.hbmWrite a bs).hbmRead a bs.length = bs := by
  unfold State.hbmRead State.hbmWrite
  rw [h0, h1]
  simp only [Bool.and_self, if_true]
  apply List.ext_getElem
  · simp
  · intro i g1 g2
    simp only [List.getElem_map, List.getElem_range]
    have hi : inHbm (a + i) = true := by
      simp only [inHbm, decide_eq_true_eq] at *
      omega
    have hb : hbmBase ≤ a := by simp only [inHbm, decide_eq_true_eq] at h0; exact h0.1
    unfold State.hbmByte
    rw [if_pos hi]
    rw [show a + i - hbmBase = a - hbmBase + i by omega, memByte_memWrite_same bs s.hbm (a - hbmBase) i g2]
    simp [List.getD_eq_getElem?_getD, g2]

/-! ### The forms of an effect -/

/-- With no work left, the work left is done. -/
theorem settle_of_todo (s : State) (h : s.todo = []) : s.settle = s := by
  unfold State.settle
  show State.settleN (999999 + 1) s = s
  unfold State.settleN
  rw [h]

/-- With no topcoat on its way, none is watched. -/
theorem coatWatch_of_none (s : State) (h : s.tack.coat = none) : s.coatWatch = s := by
  unfold State.coatWatch
  rw [h]

/-- With no work left and no topcoat on its way, an effect leaves what it did. -/
theorem fin_of_calm (s : State) (h : s.todo = []) (hc : s.tack.coat = none) : s.fin = s := by
  unfold State.fin
  rw [settle_of_todo s h, coatWatch_of_none s hc, settle_of_todo s h]

/-- An effect on a powered block that leaves no work. -/
theorem act_of_calm (s : State) (b : Block) (f : State → State) (hl : s.live b = true) (h : (f s).todo = [])
    (hc : (f s).tack.coat = none) : s.act b f = .next (f s) := by
  unfold State.act
  rw [if_pos hl, fin_of_calm _ h hc]

/-- The same without a block. -/
theorem tackAct_of_calm (s : State) (f : State → State) (h : (f s).todo = []) (hc : (f s).tack.coat = none) :
    s.tackAct f = .next (f s) := by
  unfold State.tackAct
  rw [fin_of_calm _ h hc]

/-- An effect on a powered block that never leaves work. -/
theorem quiet_of_live (s : State) (b : Block) (f : State → State) (hl : s.live b = true) : s.quiet b f = .next (f s) := by
  unfold State.quiet
  rw [if_pos hl]

/-- An effect on a block that is off changes nothing. -/
theorem quiet_of_off (s : State) (b : Block) (f : State → State) (hl : s.live b = false) : s.quiet b f = .next s := by
  unfold State.quiet
  simp [hl]

/-- The same for an effect that may leave work. -/
theorem act_of_off (s : State) (b : Block) (f : State → State) (hl : s.live b = false) : s.act b f = .next s := by
  unfold State.act
  simp [hl]

end Sys2Proof.Machine
end

