-- ==== Sys2Proof/Laws/PerInstr.lean ====
section
/-! SUPPORT. Facts about every command as syntax, one lemma for each constructor. The family GroomMajor: the word of a
Groom's instruction has one of the major opcodes of R336, and a command that is no instruction has no word. -/

namespace Sys2Proof.Laws.GroomMajor

open Sys2Proof.Machine

/-- Every word of the instruction has a major opcode of R336. -/
def Statement (i : Instr) : Prop := ∀ w : BitVec 32, groomWord i = some w → majorOk (fld w 31 26) = true

/-- The major opcode of a word of the first format is the one it was built with. -/
theorem major_encR (op : Nat) (rd a b : BitVec 5) (fn : BitVec 11) (h : op < 64) : fld (encR op rd a b fn) 31 26 = op := by
  simp only [encR, mkWord, List.foldl_cons, List.foldl_nil]
  repeat rw [fld_setFld_other _ _ _ _ _ _ (by decide) (by decide)]
  rw [fld_setFld_same _ _ _ _ (by decide)]
  exact Nat.mod_eq_of_lt h

/-- The same of a word of the second format. -/
theorem major_encI (op : Nat) (rd a : BitVec 5) (imm : BitVec 16) (h : op < 64) : fld (encI op rd a imm) 31 26 = op := by
  simp only [encI, mkWord, List.foldl_cons, List.foldl_nil]
  repeat rw [fld_setFld_other _ _ _ _ _ _ (by decide) (by decide)]
  rw [fld_setFld_same _ _ _ _ (by decide)]
  exact Nat.mod_eq_of_lt h

/-- The same of a word of the memory format. -/
theorem major_encM (op : Nat) (r a : BitVec 5) (x y : BitVec 2) (off : BitVec 12) (h : op < 64) :
    fld (encM op r a x y off) 31 26 = op := by
  simp only [encM, mkWord, List.foldl_cons, List.foldl_nil]
  repeat rw [fld_setFld_other _ _ _ _ _ _ (by decide) (by decide)]
  rw [fld_setFld_same _ _ _ _ (by decide)]
  exact Nat.mod_eq_of_lt h

/-- The same of a word of the jump format. -/
theorem major_encJ (op : Nat) (off : BitVec 26) (h : op < 64) : fld (encJ op off) 31 26 = op := by
  simp only [encJ, mkWord, List.foldl_cons, List.foldl_nil]
  repeat rw [fld_setFld_other _ _ _ _ _ _ (by decide) (by decide)]
  rw [fld_setFld_same _ _ _ _ (by decide)]
  exact Nat.mod_eq_of_lt h

theorem vinAuxRise (vinMainAbove1V : Bool) : Statement (.vinAuxRise vinMainAbove1V) := fun _ h => nomatch h

theorem resetLRise : Statement .resetLRise := fun _ h => nomatch h

theorem coldReset : Statement .coldReset := fun _ h => nomatch h

theorem tackRoomReady (dt : Nat) (vinMainAbove1V : Bool) (addr : BitVec 2) :
    Statement (.tackRoomReady dt vinMainAbove1V addr) := fun _ h => nomatch h

theorem mainPgRise : Statement .mainPgRise := fun _ h => nomatch h

theorem mainPgTimeout (dt : Nat) : Statement (.mainPgTimeout dt) := fun _ h => nomatch h

theorem regulatorsUp : Statement .regulatorsUp := fun _ h => nomatch h

theorem startStepComplete (how : StepEnd) : Statement (.startStepComplete how) := fun _ h => nomatch h

theorem startStepTimeout (dt : Nat) (west : Bool) : Statement (.startStepTimeout dt west) := fun _ h => nomatch h

theorem startRetry (dt : Nat) : Statement (.startRetry dt) := fun _ h => nomatch h

theorem mainPowerLost (vinMainAbove1V : Bool) : Statement (.mainPowerLost vinMainAbove1V) := fun _ h => nomatch h

theorem vinAuxLost : Statement .vinAuxLost := fun _ h => nomatch h

theorem thermalTrip (sensor : Fin 24) : Statement (.thermalTrip sensor) := fun _ h => nomatch h

theorem graveFault (kind : GraveKind) (unit : BitVec 8) : Statement (.graveFault kind unit) := fun _ h => nomatch h

theorem watchdogExpiry : Statement .watchdogExpiry := fun _ h => nomatch h

theorem paceInterval (dt : Nat) (east west : List (BitVec 16)) :
    Statement (.paceInterval dt east west) := fun _ h => nomatch h

theorem voltageLoopTick (dt : Nat) (tj : List (BitVec 8)) : Statement (.voltageLoopTick dt tj) := fun _ h => nomatch h

theorem powerCapTick (dt : Nat) (watts : BitVec 16) : Statement (.powerCapTick dt watts) := fun _ h => nomatch h

theorem laneTrainStart (p : Port) (l : Fin 4) : Statement (.laneTrainStart p l) := fun _ h => nomatch h

theorem trainingFrame (p : Port) (l : Fin 4) (control : BitVec 16) (rest : FrameEnd) :
    Statement (.trainingFrame p l control rest) := fun _ h => nomatch h

theorem laneTrainStep (p : Port) (l : Fin 4) (inverted : Bool) :
    Statement (.laneTrainStep p l inverted) := fun _ h => nomatch h

theorem trainAttemptTimeout (lane : LaneId) (dt : Nat) :
    Statement (.trainAttemptTimeout lane dt) := fun _ h => nomatch h

theorem hostLaneTrainStart (h : HLink) (l : Fin 16) : Statement (.hostLaneTrainStart h l) := fun _ h => nomatch h

theorem hostTrainingSet (h : HLink) (l : Fin 16) (laneByte request status : BitVec 8) :
    Statement (.hostTrainingSet h l laneByte request status) := fun _ h => nomatch h

theorem hostLaneTrainStep (h : HLink) (l : Fin 16) (inverted : Bool) :
    Statement (.hostLaneTrainStep h l inverted) := fun _ h => nomatch h

theorem electricalIdleEntry (p : Port) (l : Fin 4) : Statement (.electricalIdleEntry p l) := fun _ h => nomatch h

theorem fastExit (p : Port) (l : Fin 4) : Statement (.fastExit p l) := fun _ h => nomatch h

theorem hostIdleEntry (h : HLink) : Statement (.hostIdleEntry h) := fun _ h => nomatch h

theorem hostFastExit (h : HLink) : Statement (.hostFastExit h) := fun _ h => nomatch h

theorem codewordReceived (p : Port) (l : Fin 4) (line : BitVec 5440) :
    Statement (.codewordReceived p l line) := fun _ h => nomatch h

theorem injectBurst (lane : LaneId) (dt : Nat) : Statement (.injectBurst lane dt) := fun _ h => nomatch h

theorem injectNow (lane : LaneId) : Statement (.injectNow lane) := fun _ h => nomatch h

theorem laneRetrain (lane : LaneId) : Statement (.laneRetrain lane) := fun _ h => nomatch h

theorem marginScanStart (lane : LaneId) : Statement (.marginScanStart lane) := fun _ h => nomatch h

theorem marginScanEnd (lane : LaneId) (dt : Nat) (disagreements : BitVec 32) :
    Statement (.marginScanEnd lane dt disagreements) := fun _ h => nomatch h

theorem laneEyeRefresh (lane : LaneId) (dt : Nat) (eye : BitVec 48) :
    Statement (.laneEyeRefresh lane dt eye) := fun _ h => nomatch h

theorem laneErrcntRead (lane : LaneId) : Statement (.laneErrcntRead lane) := fun _ h => nomatch h

theorem frameReceived (p : Port) (aligned : Bool) (trailer : BitVec 128) (flits : List (BitVec 512)) (erred : Bool) :
    Statement (.frameReceived p aligned trailer flits erred) := fun _ h => nomatch h

theorem nakRepeatTimer (l : LinkId) (dt : Nat) : Statement (.nakRepeatTimer l dt) := fun _ h => nomatch h

theorem replayTimeout (l : LinkId) (dt : Nat) : Statement (.replayTimeout l dt) := fun _ h => nomatch h

theorem egressFrameStart (p : Port) : Statement (.egressFrameStart p) := fun _ h => nomatch h

theorem linkUpStart (l : LinkId) (dt : Nat) : Statement (.linkUpStart l dt) := fun _ h => nomatch h

theorem helloReceived (p : Port) : Statement (.helloReceived p) := fun _ h => nomatch h

theorem helloTimeout (l : LinkId) (dt : Nat) : Statement (.helloTimeout l dt) := fun _ h => nomatch h

theorem quarantineHello (p : Port) (dt : Nat) : Statement (.quarantineHello p dt) := fun _ h => nomatch h

theorem hostHelloPeriodic (h : HLink) (dt : Nat) : Statement (.hostHelloPeriodic h dt) := fun _ h => nomatch h

theorem linkRetrain (l : LinkId) (t : RetrainTrigger) : Statement (.linkRetrain l t) := fun _ h => nomatch h

theorem retrainLaneDrop (lane : LaneId) (dt : Nat) : Statement (.retrainLaneDrop lane dt) := fun _ h => nomatch h

theorem retrainRepeat (l : LinkId) (dt : Nat) : Statement (.retrainRepeat l dt) := fun _ h => nomatch h

theorem retrainWindowExpiry (l : LinkId) (dt : Nat) : Statement (.retrainWindowExpiry l dt) := fun _ h => nomatch h

theorem forceFence (l : LinkId) : Statement (.forceFence l) := fun _ h => nomatch h

theorem llRetrain (l : LinkId) : Statement (.llRetrain l) := fun _ h => nomatch h

theorem llRehello (p : Port) : Statement (.llRehello p) := fun _ h => nomatch h

theorem portDisable (p : Port) : Statement (.portDisable p) := fun _ h => nomatch h

theorem idleDelayExpiry (l : LinkId) (dt : Nat) : Statement (.idleDelayExpiry l dt) := fun _ h => nomatch h

theorem hostLinkPacket (h : HLink) (rx : HostRx) : Statement (.hostLinkPacket h rx) := fun _ h => nomatch h

theorem hostAckTimer (h : HLink) (dt : Nat) : Statement (.hostAckTimer h dt) := fun _ h => nomatch h

theorem hostCreditTimer (h : HLink) (dt : Nat) : Statement (.hostCreditTimer h dt) := fun _ h => nomatch h

theorem hostLinkDisable (h : HLink) : Statement (.hostLinkDisable h) := fun _ h => nomatch h

theorem routeHeader (src : RouteSrc) (vc : VC) : Statement (.routeHeader src vc) := fun _ h => nomatch h

theorem headerReevaluate (src : RouteSrc) (vc : VC) : Statement (.headerReevaluate src vc) := fun _ h => nomatch h

theorem beaconSend (p : Port) (dt : Nat) : Statement (.beaconSend p dt) := fun _ h => nomatch h

theorem beaconReceive (p : Port) : Statement (.beaconReceive p) := fun _ h => nomatch h

theorem beaconExpiry (p : Port) (dt : Nat) : Statement (.beaconExpiry p dt) := fun _ h => nomatch h

theorem rtExcWrite (s : Stall) (i : Fin 4096) (value : BitVec 64) :
    Statement (.rtExcWrite s i value) := fun _ h => nomatch h

theorem dbell (h : HLink) : Statement (.dbell h) := fun _ h => nomatch h

theorem cwr (h : HLink) : Statement (.cwr h) := fun _ h => nomatch h

theorem crd (h : HLink) : Statement (.crd h) := fun _ h => nomatch h

theorem cpld (h : HLink) : Statement (.cpld h) := fun _ h => nomatch h

theorem errrptWriteFailed (h : HLink) : Statement (.errrptWriteFailed h) := fun _ h => nomatch h

theorem errrptFunctionReset (h : HLink) : Statement (.errrptFunctionReset h) := fun _ h => nomatch h

theorem readTimeout (h : HLink) (rtag : Fin 4096) (dt : Nat) :
    Statement (.readTimeout h rtag dt) := fun _ h => nomatch h

theorem readTagRelease (h : HLink) (rtag : Fin 4096) (dt : Nat) :
    Statement (.readTagRelease h rtag dt) := fun _ h => nomatch h

theorem writeHistoryExpiry (h : HLink) (wtag : BitVec 16) (dt : Nat) :
    Statement (.writeHistoryExpiry h wtag dt) := fun _ h => nomatch h

theorem ringFetch (queue : BitVec 20) : Statement (.ringFetch queue) := fun _ h => nomatch h

theorem arbitrationRound (s : Stall) : Statement (.arbitrationRound s) := fun _ h => nomatch h

theorem nop (op : Nat) : Statement (.nop op) := fun _ h => nomatch h

theorem put (op : Nat) : Statement (.put op) := fun _ h => nomatch h

theorem putInline (op : Nat) : Statement (.putInline op) := fun _ h => nomatch h

theorem get (op : Nat) : Statement (.get op) := fun _ h => nomatch h

theorem send (op : Nat) : Statement (.send op) := fun _ h => nomatch h

theorem sendInline (op : Nat) : Statement (.sendInline op) := fun _ h => nomatch h

theorem atomic (op : Nat) : Statement (.atomic op) := fun _ h => nomatch h

theorem recvPost (op : Nat) : Statement (.recvPost op) := fun _ h => nomatch h

theorem probe (op : Nat) : Statement (.probe op) := fun _ h => nomatch h

theorem coll (op : Nat) : Statement (.coll op) := fun _ h => nomatch h

theorem ctSet (op : Nat) : Statement (.ctSet op) := fun _ h => nomatch h

theorem ctInc (op : Nat) : Statement (.ctInc op) := fun _ h => nomatch h

theorem trig (op : Nat) : Statement (.trig op) := fun _ h => nomatch h

theorem eqArm (op : Nat) : Statement (.eqArm op) := fun _ h => nomatch h

theorem invalidate (op : Nat) : Statement (.invalidate op) := fun _ h => nomatch h

theorem invalidateAck (s : Stall) (op : Nat) : Statement (.invalidateAck s op) := fun _ h => nomatch h

theorem ctxCreate (op : Nat) : Statement (.ctxCreate op) := fun _ h => nomatch h

theorem ctxDestroy (op : Nat) : Statement (.ctxDestroy op) := fun _ h => nomatch h

theorem cqCreate (op : Nat) : Statement (.cqCreate op) := fun _ h => nomatch h

theorem cqDestroy (op : Nat) : Statement (.cqDestroy op) := fun _ h => nomatch h

theorem eqCreate (op : Nat) : Statement (.eqCreate op) := fun _ h => nomatch h

theorem eqDestroy (op : Nat) : Statement (.eqDestroy op) := fun _ h => nomatch h

theorem cqStop (d : Dom) (queue : BitVec 20) : Statement (.cqStop d queue) := fun _ h => nomatch h

theorem cqStart (d : Dom) (queue : BitVec 20) : Statement (.cqStart d queue) := fun _ h => nomatch h

theorem cqResume (d : Dom) (queue : BitVec 20) : Statement (.cqResume d queue) := fun _ h => nomatch h

theorem cqAbort (d : Dom) (queue : BitVec 20) : Statement (.cqAbort d queue) := fun _ h => nomatch h

theorem cqFlush (d : Dom) (queue : BitVec 20) : Statement (.cqFlush d queue) := fun _ h => nomatch h

theorem cqAdminWrite (h : HLink) (value : BitVec 64) : Statement (.cqAdminWrite h value) := fun _ h => nomatch h

theorem walkRead (w : Nat) : Statement (.walkRead w) := fun _ h => nomatch h

theorem mtCancel (d : Dom) (queue slot : BitVec 20) : Statement (.mtCancel d queue slot) := fun _ h => nomatch h

theorem packetReceive : Statement .packetReceive := fun _ h => nomatch h

theorem packetInject (f : Nat) : Statement (.packetInject f) := fun _ h => nomatch h

theorem ackReceive : Statement .ackReceive := fun _ h => nomatch h

theorem nackReceive : Statement .nackReceive := fun _ h => nomatch h

theorem getRspReceive : Statement .getRspReceive := fun _ h => nomatch h

theorem atomicRspReceive : Statement .atomicRspReceive := fun _ h => nomatch h

theorem ackDelayExpiry (tf : Nat) (dt : Nat) : Statement (.ackDelayExpiry tf dt) := fun _ h => nomatch h

theorem rtoExpiry (f : Nat) (psn : BitVec 32) (dt : Nat) : Statement (.rtoExpiry f psn dt) := fun _ h => nomatch h

theorem flowIdleExpiry (initiator : Bool) (f : Nat) (dt : Nat) :
    Statement (.flowIdleExpiry initiator f dt) := fun _ h => nomatch h

theorem collUpReceive (e : Engine) : Statement (.collUpReceive e) := fun _ h => nomatch h

theorem collDownReceive (e : Engine) : Statement (.collDownReceive e) := fun _ h => nomatch h

theorem collTimeout (e : Engine) (group : BitVec 16) (inst : BitVec 24) (dt : Nat) :
    Statement (.collTimeout e group inst dt) := fun _ h => nomatch h

theorem clInstall (e : Engine) (group : BitVec 16) : Statement (.clInstall e group) := fun _ h => nomatch h

theorem clRemove (e : Engine) (group : BitVec 16) : Statement (.clRemove e group) := fun _ h => nomatch h

theorem clAbort (e : Engine) (group : BitVec 16) : Statement (.clAbort e group) := fun _ h => nomatch h

theorem clUnfence (e : Engine) : Statement (.clUnfence e) := fun _ h => nomatch h

theorem engineFenced (e : Engine) : Statement (.engineFenced e) := fun _ h => nomatch h

theorem runDispatch (g : GroomId) (completion : Bool) : Statement (.runDispatch g completion) := fun _ h => nomatch h

theorem alu (g : GroomId) (rd rs1 rs2 : BitVec 5) (fn : BitVec 11) :
    Statement (.alu g rd rs1 rs2 fn) := by
  intro w h
  injection h with h
  rw [← h, major_encR _ _ _ _ _ (by decide)]
  rfl

theorem addi (g : GroomId) (rd rs1 : BitVec 5) (imm : BitVec 16) :
    Statement (.addi g rd rs1 imm) := by
  intro w h
  injection h with h
  rw [← h, major_encI _ _ _ _ (by decide)]
  rfl

theorem andi (g : GroomId) (rd rs1 : BitVec 5) (imm : BitVec 16) :
    Statement (.andi g rd rs1 imm) := by
  intro w h
  injection h with h
  rw [← h, major_encI _ _ _ _ (by decide)]
  rfl

theorem ori (g : GroomId) (rd rs1 : BitVec 5) (imm : BitVec 16) : Statement (.ori g rd rs1 imm) := by
  intro w h
  injection h with h
  rw [← h, major_encI _ _ _ _ (by decide)]
  rfl

theorem xori (g : GroomId) (rd rs1 : BitVec 5) (imm : BitVec 16) :
    Statement (.xori g rd rs1 imm) := by
  intro w h
  injection h with h
  rw [← h, major_encI _ _ _ _ (by decide)]
  rfl

theorem slti (g : GroomId) (rd rs1 : BitVec 5) (imm : BitVec 16) :
    Statement (.slti g rd rs1 imm) := by
  intro w h
  injection h with h
  rw [← h, major_encI _ _ _ _ (by decide)]
  rfl

theorem sltiu (g : GroomId) (rd rs1 : BitVec 5) (imm : BitVec 16) :
    Statement (.sltiu g rd rs1 imm) := by
  intro w h
  injection h with h
  rw [← h, major_encI _ _ _ _ (by decide)]
  rfl

theorem shi (g : GroomId) (rd rs1 : BitVec 5) (imm : BitVec 16) : Statement (.shi g rd rs1 imm) := by
  intro w h
  injection h with h
  rw [← h, major_encI _ _ _ _ (by decide)]
  rfl

theorem lui (g : GroomId) (rd rs1 : BitVec 5) (imm : BitVec 16) : Statement (.lui g rd rs1 imm) := by
  intro w h
  injection h with h
  rw [← h, major_encI _ _ _ _ (by decide)]
  rfl

theorem shori (g : GroomId) (rd rs1 : BitVec 5) (imm : BitVec 16) :
    Statement (.shori g rd rs1 imm) := by
  intro w h
  injection h with h
  rw [← h, major_encI _ _ _ _ (by decide)]
  rfl

theorem ld (g : GroomId) (r base : BitVec 5) (size mark : BitVec 2) (off : BitVec 12) :
    Statement (.ld g r base size mark off) := by
  intro w h
  injection h with h
  rw [← h, major_encM _ _ _ _ _ _ (by decide)]
  rfl

theorem st (g : GroomId) (r base : BitVec 5) (size mark : BitVec 2) (off : BitVec 12) :
    Statement (.st g r base size mark off) := by
  intro w h
  injection h with h
  rw [← h, major_encM _ _ _ _ _ _ (by decide)]
  rfl

theorem ldv (g : GroomId) (r base : BitVec 5) (size mark : BitVec 2) (off : BitVec 12) :
    Statement (.ldv g r base size mark off) := by
  intro w h
  injection h with h
  rw [← h, major_encM _ _ _ _ _ _ (by decide)]
  rfl

theorem stv (g : GroomId) (r base : BitVec 5) (size mark : BitVec 2) (off : BitVec 12) :
    Statement (.stv g r base size mark off) := by
  intro w h
  injection h with h
  rw [← h, major_encM _ _ _ _ _ _ (by decide)]
  rfl

theorem amol (g : GroomId) (rd rs1 rs2 : BitVec 5) (fn : BitVec 11) :
    Statement (.amol g rd rs1 rs2 fn) := by
  intro w h
  injection h with h
  rw [← h, major_encR _ _ _ _ _ (by decide)]
  rfl

theorem hamo (g : GroomId) (rd rs1 rs2 : BitVec 5) (fn : BitVec 11) :
    Statement (.hamo g rd rs1 rs2 fn) := by
  intro w h
  injection h with h
  rw [← h, major_encR _ _ _ _ _ (by decide)]
  rfl

theorem hlock (g : GroomId) (rd rs1 : BitVec 5) (imm : BitVec 16) :
    Statement (.hlock g rd rs1 imm) := by
  intro w h
  injection h with h
  rw [← h, major_encI _ _ _ _ (by decide)]
  rfl

theorem hunlock (g : GroomId) (rd rs1 : BitVec 5) (imm : BitVec 16) :
    Statement (.hunlock g rd rs1 imm) := by
  intro w h
  injection h with h
  rw [← h, major_encI _ _ _ _ (by decide)]
  rfl

theorem beq (g : GroomId) (rs1 rs2 : BitVec 5) (off : BitVec 16) :
    Statement (.beq g rs1 rs2 off) := by
  intro w h
  injection h with h
  rw [← h, major_encI _ _ _ _ (by decide)]
  rfl

theorem bne (g : GroomId) (rs1 rs2 : BitVec 5) (off : BitVec 16) :
    Statement (.bne g rs1 rs2 off) := by
  intro w h
  injection h with h
  rw [← h, major_encI _ _ _ _ (by decide)]
  rfl

theorem blt (g : GroomId) (rs1 rs2 : BitVec 5) (off : BitVec 16) :
    Statement (.blt g rs1 rs2 off) := by
  intro w h
  injection h with h
  rw [← h, major_encI _ _ _ _ (by decide)]
  rfl

theorem bge (g : GroomId) (rs1 rs2 : BitVec 5) (off : BitVec 16) :
    Statement (.bge g rs1 rs2 off) := by
  intro w h
  injection h with h
  rw [← h, major_encI _ _ _ _ (by decide)]
  rfl

theorem bltu (g : GroomId) (rs1 rs2 : BitVec 5) (off : BitVec 16) :
    Statement (.bltu g rs1 rs2 off) := by
  intro w h
  injection h with h
  rw [← h, major_encI _ _ _ _ (by decide)]
  rfl

theorem bgeu (g : GroomId) (rs1 rs2 : BitVec 5) (off : BitVec 16) :
    Statement (.bgeu g rs1 rs2 off) := by
  intro w h
  injection h with h
  rw [← h, major_encI _ _ _ _ (by decide)]
  rfl

theorem jal (g : GroomId) (off : BitVec 26) : Statement (.jal g off) := by
  intro w h
  injection h with h
  rw [← h, major_encJ _ _ (by decide)]
  rfl

theorem jalr (g : GroomId) (rd rs1 : BitVec 5) (imm : BitVec 16) :
    Statement (.jalr g rd rs1 imm) := by
  intro w h
  injection h with h
  rw [← h, major_encI _ _ _ _ (by decide)]
  rfl

theorem issue (g : GroomId) (rd rs1 : BitVec 5) (imm : BitVec 16) :
    Statement (.issue g rd rs1 imm) := by
  intro w h
  injection h with h
  rw [← h, major_encI _ _ _ _ (by decide)]
  rfl

theorem wfe (g : GroomId) (rd rs1 : BitVec 5) (imm : BitVec 16) : Statement (.wfe g rd rs1 imm) := by
  intro w h
  injection h with h
  rw [← h, major_encI _ _ _ _ (by decide)]
  rfl

theorem signal (g : GroomId) (rd rs1 : BitVec 5) (imm : BitVec 16) :
    Statement (.signal g rd rs1 imm) := by
  intro w h
  injection h with h
  rw [← h, major_encI _ _ _ _ (by decide)]
  rfl

theorem fence (g : GroomId) (rd rs1 : BitVec 5) (imm : BitVec 16) :
    Statement (.fence g rd rs1 imm) := by
  intro w h
  injection h with h
  rw [← h, major_encI _ _ _ _ (by decide)]
  rfl

theorem csrr (g : GroomId) (rd rs1 : BitVec 5) (imm : BitVec 16) :
    Statement (.csrr g rd rs1 imm) := by
  intro w h
  injection h with h
  rw [← h, major_encI _ _ _ _ (by decide)]
  rfl

theorem csrw (g : GroomId) (rd rs1 : BitVec 5) (imm : BitVec 16) :
    Statement (.csrw g rd rs1 imm) := by
  intro w h
  injection h with h
  rw [← h, major_encI _ _ _ _ (by decide)]
  rfl

theorem halt (g : GroomId) (rd rs1 : BitVec 5) (imm : BitVec 16) :
    Statement (.halt g rd rs1 imm) := by
  intro w h
  injection h with h
  rw [← h, major_encI _ _ _ _ (by decide)]
  rfl

theorem runEnd (g : GroomId) : Statement (.runEnd g) := fun _ h => nomatch h

theorem runTimeout (g : GroomId) (dt : Nat) : Statement (.runTimeout g dt) := fun _ h => nomatch h

theorem groomTimerEvent (g : GroomId) (dt : Nat) : Statement (.groomTimerEvent g dt) := fun _ h => nomatch h

theorem groomReset (g : GroomId) : Statement (.groomReset g) := fun _ h => nomatch h

theorem grResume (s : Stall) : Statement (.grResume s) := fun _ h => nomatch h

theorem groomFenced (g : GroomId) : Statement (.groomFenced g) := fun _ h => nomatch h

theorem directoryRequest (d : Dom) (cache : Fin 8) (req : DirReq) (line : Nat) :
    Statement (.directoryRequest d cache req line) := fun _ h => nomatch h

theorem uncachedRead (d : Dom) (line : Nat) : Statement (.uncachedRead d line) := fun _ h => nomatch h

theorem uncachedWrite (d : Dom) (line : Nat) (mask : BitVec 64) (data : BitVec 512) :
    Statement (.uncachedWrite d line mask data) := fun _ h => nomatch h

theorem writeHint (d : Dom) (line : Nat) (data : BitVec 512) (target : Fin 8) (ready : Bool) :
    Statement (.writeHint d line data target ready) := fun _ h => nomatch h

theorem contextStoreFailure (d : Dom) (cause : StoreFailure) (agent : BitVec 8) :
    Statement (.contextStoreFailure d cause agent) := fun _ h => nomatch h

theorem coherenceTimeout (d : Dom) (agent : BitVec 8) (dt : Nat) :
    Statement (.coherenceTimeout d agent dt) := fun _ h => nomatch h

theorem stewardWatchdog (d : Dom) (expiry : Expiry) : Statement (.stewardWatchdog d expiry) := fun _ h => nomatch h

theorem domainRestartStep (d : Dom) (ok : Bool) : Statement (.domainRestartStep d ok) := fun _ h => nomatch h

theorem hitchAtomic (d : Dom) (addr : BitVec 64) (code : BitVec 11) (operand compare : BitVec 64) :
    Statement (.hitchAtomic d addr code operand compare) := fun _ h => nomatch h

theorem hkAcquire (m : Master) (d : Dom) (n : BitVec 16) : Statement (.hkAcquire m d n) := fun _ h => nomatch h

theorem hkTry (m : Master) (d : Dom) (n : BitVec 16) : Statement (.hkTry m d n) := fun _ h => nomatch h

theorem hkRelease (m : Master) (d : Dom) (n : BitVec 16) : Statement (.hkRelease m d n) := fun _ h => nomatch h

theorem hkCancel (m : Master) (d : Dom) (n : BitVec 16) : Statement (.hkCancel m d n) := fun _ h => nomatch h

theorem timeSyncSend (p : Port) (dt : Nat) : Statement (.timeSyncSend p dt) := fun _ h => nomatch h

theorem timeSyncReceive (p : Port) : Statement (.timeSyncReceive p) := fun _ h => nomatch h

theorem timeCandidateExpiry (p : Port) (dt : Nat) : Statement (.timeCandidateExpiry p dt) := fun _ h => nomatch h

theorem ppsInEdge (dt : Nat) : Statement (.ppsInEdge dt) := fun _ h => nomatch h

theorem ppsMissing (dt : Nat) : Statement (.ppsMissing dt) := fun _ h => nomatch h

theorem ppsOutPulse (dt : Nat) : Statement (.ppsOutPulse dt) := fun _ h => nomatch h

theorem timeExclusionChange (dt : Nat) : Statement (.timeExclusionChange dt) := fun _ h => nomatch h

theorem ntSeedArm (value : BitVec 64) : Statement (.ntSeedArm value) := fun _ h => nomatch h

theorem shaperRefill (dt : Nat) : Statement (.shaperRefill dt) := fun _ h => nomatch h

theorem gateEntryAdvance (p : Port) (dt : Nat) : Statement (.gateEntryAdvance p dt) := fun _ h => nomatch h

theorem gateSwitchRequest (p : Port) (value : BitVec 64) :
    Statement (.gateSwitchRequest p value) := fun _ h => nomatch h

theorem gateSwitch (p : Port) (dt : Nat) : Statement (.gateSwitch p dt) := fun _ h => nomatch h

theorem drainComplete : Statement .drainComplete := fun _ h => nomatch h

theorem drainTimeout (dt : Nat) : Statement (.drainTimeout dt) := fun _ h => nomatch h

theorem epochSwitch (dt : Nat) : Statement (.epochSwitch dt) := fun _ h => nomatch h

theorem epochGraceEnd (dt : Nat) : Statement (.epochGraceEnd dt) := fun _ h => nomatch h

theorem mbClaimRead (m : Master) : Statement (.mbClaimRead m) := fun _ h => nomatch h

theorem mbClaimRelease (m : Master) : Statement (.mbClaimRelease m) := fun _ h => nomatch h

theorem mbClaimLapse (dt : Nat) : Statement (.mbClaimLapse dt) := fun _ h => nomatch h

theorem nonceExpiry (dt : Nat) : Statement (.nonceExpiry dt) := fun _ h => nomatch h

theorem getStatus : Statement .getStatus := fun _ h => nomatch h

theorem getNonce : Statement .getNonce := fun _ h => nomatch h

theorem attest : Statement .attest := fun _ h => nomatch h

theorem getIdentity : Statement .getIdentity := fun _ h => nomatch h

theorem coatBegin : Statement .coatBegin := fun _ h => nomatch h

theorem coatChunk : Statement .coatChunk := fun _ h => nomatch h

theorem coatApply : Statement .coatApply := fun _ h => nomatch h

theorem coatInstall : Statement .coatInstall := fun _ h => nomatch h

theorem stop : Statement .stop := fun _ h => nomatch h

theorem restart : Statement .restart := fun _ h => nomatch h

theorem domainFence : Statement .domainFence := fun _ h => nomatch h

theorem domainRestart : Statement .domainRestart := fun _ h => nomatch h

theorem setPaceTarget : Statement .setPaceTarget := fun _ h => nomatch h

theorem setPowerLimit : Statement .setPowerLimit := fun _ h => nomatch h

theorem setThrottle : Statement .setThrottle := fun _ h => nomatch h

theorem clearStarts : Statement .clearStarts := fun _ h => nomatch h

theorem selectSlot : Statement .selectSlot := fun _ h => nomatch h

theorem ownerEnrol : Statement .ownerEnrol := fun _ h => nomatch h

theorem ownerRevoke : Statement .ownerRevoke := fun _ h => nomatch h

theorem smbStatus (addr : BitVec 7) : Statement (.smbStatus addr) := fun _ h => nomatch h

theorem smbAttest (addr : BitVec 7) (nonce : List (BitVec 8)) : Statement (.smbAttest addr nonce) := fun _ h => nomatch h

theorem smbReport (addr : BitVec 7) : Statement (.smbReport addr) := fun _ h => nomatch h

theorem smbPart (addr : BitVec 7) (n : BitVec 8) : Statement (.smbPart addr n) := fun _ h => nomatch h

theorem smbIdentity (addr : BitVec 7) : Statement (.smbIdentity addr) := fun _ h => nomatch h

theorem tackNoteClear (dt : Nat) : Statement (.tackNoteClear dt) := fun _ h => nomatch h

theorem pmSnapshot (block : Block) (dt : Nat) : Statement (.pmSnapshot block dt) := fun _ h => nomatch h

theorem rcRead (m : Master) (addr : BitVec 64) : Statement (.rcRead m addr) := fun _ h => nomatch h

theorem digestHiRead (m : Master) (addr : BitVec 64) : Statement (.digestHiRead m addr) := fun _ h => nomatch h

theorem registerWrite (m : Master) (addr value : BitVec 64) :
    Statement (.registerWrite m addr value) := fun _ h => nomatch h

theorem targetDelayExpiry (f : Nat) (psn : BitVec 32) (dt : Nat) :
    Statement (.targetDelayExpiry f psn dt) := fun _ h => nomatch h

theorem fastExitBurstReceived (p : Port) (burst : BurstEnd) :
    Statement (.fastExitBurstReceived p burst) := fun _ h => nomatch h

theorem hostExitBurstReceived (h : HLink) : Statement (.hostExitBurstReceived h) := fun _ h => nomatch h

theorem hostTlpStart (h : HLink) : Statement (.hostTlpStart h) := fun _ h => nomatch h

theorem checkerSynchronised (lane : LaneId) (bits : BitVec 256) : Statement (.checkerSynchronised lane bits) := fun _ h => nomatch h

end Sys2Proof.Laws.GroomMajor
end

