-- ==== Sys2Proof/Laws/State.lean ====
section
/-! SUPPORT. What each update of the state leaves alone: one lemma for each field and each update. -/

namespace Sys2Proof.Machine

/-- The Tack Room's working state after a change of it. -/
@[simp] theorem modTack_tack (s : State) (f : Tack → Tack) : (s.modTack f).tack = f s.tack := (rfl)
/-- The flash after a change of it. -/
@[simp] theorem modFlash_flash (s : State) (f : Flash → Flash) : (s.modFlash f).flash = f s.flash := (rfl)
/-- The pins after a change of them. -/
@[simp] theorem modPins_pins (s : State) (f : Pins → Pins) : (s.modPins f).pins = f s.pins := (rfl)
/-- What has been sent, after something more is. -/
@[simp] theorem emit_out (s : State) (e : Emission) : (s.emit e).out = e :: s.out := (rfl)

/-! ### setReg -/

@[simp] theorem setReg_pending (s : State) (r : Reg) (v : Word) : (s.setReg r v).pending = s.pending   := (rfl)
@[simp] theorem setReg_hbm (s : State) (r : Reg) (v : Word) : (s.setReg r v).hbm = s.hbm   := (rfl)
@[simp] theorem setReg_buf (s : State) (r : Reg) (v : Word) : (s.setReg r v).buf = s.buf   := (rfl)
@[simp] theorem setReg_clk (s : State) (r : Reg) (v : Word) : (s.setReg r v).clk = s.clk   := (rfl)
@[simp] theorem setReg_nt (s : State) (r : Reg) (v : Word) : (s.setReg r v).nt = s.nt   := (rfl)
@[simp] theorem setReg_tk (s : State) (r : Reg) (v : Word) : (s.setReg r v).tk = s.tk   := (rfl)
@[simp] theorem setReg_coreOn (s : State) (r : Reg) (v : Word) : (s.setReg r v).coreOn = s.coreOn   := (rfl)
@[simp] theorem setReg_serial (s : State) (r : Reg) (v : Word) : (s.setReg r v).serial = s.serial   := (rfl)
@[simp] theorem setReg_draws (s : State) (r : Reg) (v : Word) : (s.setReg r v).draws = s.draws   := (rfl)
@[simp] theorem setReg_frees (s : State) (r : Reg) (v : Word) : (s.setReg r v).frees = s.frees   := (rfl)
@[simp] theorem setReg_out (s : State) (r : Reg) (v : Word) : (s.setReg r v).out = s.out   := (rfl)
@[simp] theorem setReg_pmFix (s : State) (r : Reg) (v : Word) : (s.setReg r v).pmFix = s.pmFix   := (rfl)
@[simp] theorem setReg_pmSeen (s : State) (r : Reg) (v : Word) : (s.setReg r v).pmSeen = s.pmSeen   := (rfl)
@[simp] theorem setReg_ftPosted (s : State) (r : Reg) (v : Word) : (s.setReg r v).ftPosted = s.ftPosted   := (rfl)
@[simp] theorem setReg_shares (s : State) (r : Reg) (v : Word) : (s.setReg r v).shares = s.shares   := (rfl)
@[simp] theorem setReg_ctxEast (s : State) (r : Reg) (v : Word) : (s.setReg r v).ctxEast = s.ctxEast   := (rfl)
@[simp] theorem setReg_ht (s : State) (r : Reg) (v : Word) : (s.setReg r v).ht = s.ht   := (rfl)
@[simp] theorem setReg_eqs (s : State) (r : Reg) (v : Word) : (s.setReg r v).eqs = s.eqs   := (rfl)
@[simp] theorem setReg_cqs (s : State) (r : Reg) (v : Word) : (s.setReg r v).cqs = s.cqs   := (rfl)
@[simp] theorem setReg_trigs (s : State) (r : Reg) (v : Word) : (s.setReg r v).trigs = s.trigs   := (rfl)
@[simp] theorem setReg_ops (s : State) (r : Reg) (v : Word) : (s.setReg r v).ops = s.ops   := (rfl)
@[simp] theorem setReg_ctxs (s : State) (r : Reg) (v : Word) : (s.setReg r v).ctxs = s.ctxs   := (rfl)
@[simp] theorem setReg_uses (s : State) (r : Reg) (v : Word) : (s.setReg r v).uses = s.uses   := (rfl)
@[simp] theorem setReg_xfers (s : State) (r : Reg) (v : Word) : (s.setReg r v).xfers = s.xfers   := (rfl)
@[simp] theorem setReg_walks (s : State) (r : Reg) (v : Word) : (s.setReg r v).walks = s.walks   := (rfl)
@[simp] theorem setReg_xl (s : State) (r : Reg) (v : Word) : (s.setReg r v).xl = s.xl   := (rfl)
@[simp] theorem setReg_invals (s : State) (r : Reg) (v : Word) : (s.setReg r v).invals = s.invals   := (rfl)
@[simp] theorem setReg_mes (s : State) (r : Reg) (v : Word) : (s.setReg r v).mes = s.mes   := (rfl)
@[simp] theorem setReg_ifl (s : State) (r : Reg) (v : Word) : (s.setReg r v).ifl = s.ifl   := (rfl)
@[simp] theorem setReg_tfl (s : State) (r : Reg) (v : Word) : (s.setReg r v).tfl = s.tfl   := (rfl)
@[simp] theorem setReg_hatoms (s : State) (r : Reg) (v : Word) : (s.setReg r v).hatoms = s.hatoms   := (rfl)
@[simp] theorem setReg_inject (s : State) (r : Reg) (v : Word) : (s.setReg r v).inject = s.inject   := (rfl)
@[simp] theorem setReg_eject (s : State) (r : Reg) (v : Word) : (s.setReg r v).eject = s.eject   := (rfl)
@[simp] theorem setReg_toInit (s : State) (r : Reg) (v : Word) : (s.setReg r v).toInit = s.toInit   := (rfl)
@[simp] theorem setReg_due (s : State) (r : Reg) (v : Word) : (s.setReg r v).due = s.due   := (rfl)
@[simp] theorem setReg_posts (s : State) (r : Reg) (v : Word) : (s.setReg r v).posts = s.posts   := (rfl)
@[simp] theorem setReg_todo (s : State) (r : Reg) (v : Word) : (s.setReg r v).todo = s.todo   := (rfl)
@[simp] theorem setReg_groups (s : State) (r : Reg) (v : Word) : (s.setReg r v).groups = s.groups   := (rfl)
@[simp] theorem setReg_insts (s : State) (r : Reg) (v : Word) : (s.setReg r v).insts = s.insts   := (rfl)
@[simp] theorem setReg_collUp (s : State) (r : Reg) (v : Word) : (s.setReg r v).collUp = s.collUp   := (rfl)
@[simp] theorem setReg_collDown (s : State) (r : Reg) (v : Word) : (s.setReg r v).collDown = s.collDown   := (rfl)
@[simp] theorem setReg_engOff (s : State) (r : Reg) (v : Word) : (s.setReg r v).engOff = s.engOff   := (rfl)
@[simp] theorem setReg_locks (s : State) (r : Reg) (v : Word) : (s.setReg r v).locks = s.locks   := (rfl)
@[simp] theorem setReg_tmWrote (s : State) (r : Reg) (v : Word) : (s.setReg r v).tmWrote = s.tmWrote   := (rfl)
@[simp] theorem setReg_grooms (s : State) (r : Reg) (v : Word) : (s.setReg r v).grooms = s.grooms   := (rfl)
@[simp] theorem setReg_runqs (s : State) (r : Reg) (v : Word) : (s.setReg r v).runqs = s.runqs   := (rfl)
@[simp] theorem setReg_lanes (s : State) (r : Reg) (v : Word) : (s.setReg r v).lanes = s.lanes   := (rfl)
@[simp] theorem setReg_cals (s : State) (r : Reg) (v : Word) : (s.setReg r v).cals = s.cals   := (rfl)
@[simp] theorem setReg_ports (s : State) (r : Reg) (v : Word) : (s.setReg r v).ports = s.ports   := (rfl)
@[simp] theorem setReg_hll (s : State) (r : Reg) (v : Word) : (s.setReg r v).hll = s.hll   := (rfl)
@[simp] theorem setReg_worms (s : State) (r : Reg) (v : Word) : (s.setReg r v).worms = s.worms   := (rfl)
@[simp] theorem setReg_epochSeen (s : State) (r : Reg) (v : Word) : (s.setReg r v).epochSeen = s.epochSeen   := (rfl)
@[simp] theorem setReg_waits (s : State) (r : Reg) (v : Word) : (s.setReg r v).waits = s.waits   := (rfl)
@[simp] theorem setReg_newBank (s : State) (r : Reg) (v : Word) : (s.setReg r v).newBank = s.newBank   := (rfl)
@[simp] theorem setReg_oldBank (s : State) (r : Reg) (v : Word) : (s.setReg r v).oldBank = s.oldBank   := (rfl)
@[simp] theorem setReg_loadedEpoch (s : State) (r : Reg) (v : Word) : (s.setReg r v).loadedEpoch = s.loadedEpoch   := (rfl)
@[simp] theorem setReg_retired (s : State) (r : Reg) (v : Word) : (s.setReg r v).retired = s.retired   := (rfl)
@[simp] theorem setReg_holdPort (s : State) (r : Reg) (v : Word) : (s.setReg r v).holdPort = s.holdPort   := (rfl)
@[simp] theorem setReg_holdHost (s : State) (r : Reg) (v : Word) : (s.setReg r v).holdHost = s.holdHost   := (rfl)
@[simp] theorem setReg_holdDom (s : State) (r : Reg) (v : Word) : (s.setReg r v).holdDom = s.holdDom   := (rfl)
@[simp] theorem setReg_holdSince (s : State) (r : Reg) (v : Word) : (s.setReg r v).holdSince = s.holdSince   := (rfl)
@[simp] theorem setReg_goodSince (s : State) (r : Reg) (v : Word) : (s.setReg r v).goodSince = s.goodSince   := (rfl)
@[simp] theorem setReg_ppsAt (s : State) (r : Reg) (v : Word) : (s.setReg r v).ppsAt = s.ppsAt   := (rfl)
@[simp] theorem setReg_ppsNt (s : State) (r : Reg) (v : Word) : (s.setReg r v).ppsNt = s.ppsNt   := (rfl)
@[simp] theorem setReg_armedAt (s : State) (r : Reg) (v : Word) : (s.setReg r v).armedAt = s.armedAt   := (rfl)
@[simp] theorem setReg_thetas (s : State) (r : Reg) (v : Word) : (s.setReg r v).thetas = s.thetas   := (rfl)
@[simp] theorem setReg_ntFrac (s : State) (r : Reg) (v : Word) : (s.setReg r v).ntFrac = s.ntFrac   := (rfl)
@[simp] theorem setReg_ppsOut (s : State) (r : Reg) (v : Word) : (s.setReg r v).ppsOut = s.ppsOut   := (rfl)
@[simp] theorem setReg_runs (s : State) (r : Reg) (v : Word) : (s.setReg r v).runs = s.runs   := (rfl)
@[simp] theorem setReg_pins (s : State) (r : Reg) (v : Word) : (s.setReg r v).pins = s.pins   := (rfl)
@[simp] theorem setReg_flash (s : State) (r : Reg) (v : Word) : (s.setReg r v).flash = s.flash   := (rfl)
@[simp] theorem setReg_fuses (s : State) (r : Reg) (v : Word) : (s.setReg r v).fuses = s.fuses   := (rfl)
@[simp] theorem setReg_tack (s : State) (r : Reg) (v : Word) : (s.setReg r v).tack = s.tack   := (rfl)
@[simp] theorem setReg_mbox (s : State) (r : Reg) (v : Word) : (s.setReg r v).mbox = s.mbox   := (rfl)
@[simp] theorem setReg_dir (s : State) (r : Reg) (v : Word) : (s.setReg r v).dir = s.dir   := (rfl)
@[simp] theorem setReg_hints (s : State) (r : Reg) (v : Word) : (s.setReg r v).hints = s.hints   := (rfl)
@[simp] theorem setReg_restart (s : State) (r : Reg) (v : Word) : (s.setReg r v).restart = s.restart   := (rfl)
@[simp] theorem setReg_captures (s : State) (r : Reg) (v : Word) : (s.setReg r v).captures = s.captures   := (rfl)
@[simp] theorem setReg_paceAt (s : State) (r : Reg) (v : Word) : (s.setReg r v).paceAt = s.paceAt   := (rfl)
@[simp] theorem setReg_stewardAt (s : State) (r : Reg) (v : Word) : (s.setReg r v).stewardAt = s.stewardAt   := (rfl)
@[simp] theorem setReg_coreAccs (s : State) (r : Reg) (v : Word) : (s.setReg r v).coreAccs = s.coreAccs   := (rfl)

/-! ### wf -/

@[simp] theorem wf_pending (s : State) (r : Reg) (hi lo v : Nat) : (s.wf r hi lo v).pending = s.pending   := (rfl)
@[simp] theorem wf_hbm (s : State) (r : Reg) (hi lo v : Nat) : (s.wf r hi lo v).hbm = s.hbm   := (rfl)
@[simp] theorem wf_buf (s : State) (r : Reg) (hi lo v : Nat) : (s.wf r hi lo v).buf = s.buf   := (rfl)
@[simp] theorem wf_clk (s : State) (r : Reg) (hi lo v : Nat) : (s.wf r hi lo v).clk = s.clk   := (rfl)
@[simp] theorem wf_nt (s : State) (r : Reg) (hi lo v : Nat) : (s.wf r hi lo v).nt = s.nt   := (rfl)
@[simp] theorem wf_tk (s : State) (r : Reg) (hi lo v : Nat) : (s.wf r hi lo v).tk = s.tk   := (rfl)
@[simp] theorem wf_coreOn (s : State) (r : Reg) (hi lo v : Nat) : (s.wf r hi lo v).coreOn = s.coreOn   := (rfl)
@[simp] theorem wf_serial (s : State) (r : Reg) (hi lo v : Nat) : (s.wf r hi lo v).serial = s.serial   := (rfl)
@[simp] theorem wf_draws (s : State) (r : Reg) (hi lo v : Nat) : (s.wf r hi lo v).draws = s.draws   := (rfl)
@[simp] theorem wf_frees (s : State) (r : Reg) (hi lo v : Nat) : (s.wf r hi lo v).frees = s.frees   := (rfl)
@[simp] theorem wf_out (s : State) (r : Reg) (hi lo v : Nat) : (s.wf r hi lo v).out = s.out   := (rfl)
@[simp] theorem wf_pmFix (s : State) (r : Reg) (hi lo v : Nat) : (s.wf r hi lo v).pmFix = s.pmFix   := (rfl)
@[simp] theorem wf_pmSeen (s : State) (r : Reg) (hi lo v : Nat) : (s.wf r hi lo v).pmSeen = s.pmSeen   := (rfl)
@[simp] theorem wf_ftPosted (s : State) (r : Reg) (hi lo v : Nat) : (s.wf r hi lo v).ftPosted = s.ftPosted   := (rfl)
@[simp] theorem wf_shares (s : State) (r : Reg) (hi lo v : Nat) : (s.wf r hi lo v).shares = s.shares   := (rfl)
@[simp] theorem wf_ctxEast (s : State) (r : Reg) (hi lo v : Nat) : (s.wf r hi lo v).ctxEast = s.ctxEast   := (rfl)
@[simp] theorem wf_ht (s : State) (r : Reg) (hi lo v : Nat) : (s.wf r hi lo v).ht = s.ht   := (rfl)
@[simp] theorem wf_eqs (s : State) (r : Reg) (hi lo v : Nat) : (s.wf r hi lo v).eqs = s.eqs   := (rfl)
@[simp] theorem wf_cqs (s : State) (r : Reg) (hi lo v : Nat) : (s.wf r hi lo v).cqs = s.cqs   := (rfl)
@[simp] theorem wf_trigs (s : State) (r : Reg) (hi lo v : Nat) : (s.wf r hi lo v).trigs = s.trigs   := (rfl)
@[simp] theorem wf_ops (s : State) (r : Reg) (hi lo v : Nat) : (s.wf r hi lo v).ops = s.ops   := (rfl)
@[simp] theorem wf_ctxs (s : State) (r : Reg) (hi lo v : Nat) : (s.wf r hi lo v).ctxs = s.ctxs   := (rfl)
@[simp] theorem wf_uses (s : State) (r : Reg) (hi lo v : Nat) : (s.wf r hi lo v).uses = s.uses   := (rfl)
@[simp] theorem wf_xfers (s : State) (r : Reg) (hi lo v : Nat) : (s.wf r hi lo v).xfers = s.xfers   := (rfl)
@[simp] theorem wf_walks (s : State) (r : Reg) (hi lo v : Nat) : (s.wf r hi lo v).walks = s.walks   := (rfl)
@[simp] theorem wf_xl (s : State) (r : Reg) (hi lo v : Nat) : (s.wf r hi lo v).xl = s.xl   := (rfl)
@[simp] theorem wf_invals (s : State) (r : Reg) (hi lo v : Nat) : (s.wf r hi lo v).invals = s.invals   := (rfl)
@[simp] theorem wf_mes (s : State) (r : Reg) (hi lo v : Nat) : (s.wf r hi lo v).mes = s.mes   := (rfl)
@[simp] theorem wf_ifl (s : State) (r : Reg) (hi lo v : Nat) : (s.wf r hi lo v).ifl = s.ifl   := (rfl)
@[simp] theorem wf_tfl (s : State) (r : Reg) (hi lo v : Nat) : (s.wf r hi lo v).tfl = s.tfl   := (rfl)
@[simp] theorem wf_hatoms (s : State) (r : Reg) (hi lo v : Nat) : (s.wf r hi lo v).hatoms = s.hatoms   := (rfl)
@[simp] theorem wf_inject (s : State) (r : Reg) (hi lo v : Nat) : (s.wf r hi lo v).inject = s.inject   := (rfl)
@[simp] theorem wf_eject (s : State) (r : Reg) (hi lo v : Nat) : (s.wf r hi lo v).eject = s.eject   := (rfl)
@[simp] theorem wf_toInit (s : State) (r : Reg) (hi lo v : Nat) : (s.wf r hi lo v).toInit = s.toInit   := (rfl)
@[simp] theorem wf_due (s : State) (r : Reg) (hi lo v : Nat) : (s.wf r hi lo v).due = s.due   := (rfl)
@[simp] theorem wf_posts (s : State) (r : Reg) (hi lo v : Nat) : (s.wf r hi lo v).posts = s.posts   := (rfl)
@[simp] theorem wf_todo (s : State) (r : Reg) (hi lo v : Nat) : (s.wf r hi lo v).todo = s.todo   := (rfl)
@[simp] theorem wf_groups (s : State) (r : Reg) (hi lo v : Nat) : (s.wf r hi lo v).groups = s.groups   := (rfl)
@[simp] theorem wf_insts (s : State) (r : Reg) (hi lo v : Nat) : (s.wf r hi lo v).insts = s.insts   := (rfl)
@[simp] theorem wf_collUp (s : State) (r : Reg) (hi lo v : Nat) : (s.wf r hi lo v).collUp = s.collUp   := (rfl)
@[simp] theorem wf_collDown (s : State) (r : Reg) (hi lo v : Nat) : (s.wf r hi lo v).collDown = s.collDown   := (rfl)
@[simp] theorem wf_engOff (s : State) (r : Reg) (hi lo v : Nat) : (s.wf r hi lo v).engOff = s.engOff   := (rfl)
@[simp] theorem wf_locks (s : State) (r : Reg) (hi lo v : Nat) : (s.wf r hi lo v).locks = s.locks   := (rfl)
@[simp] theorem wf_tmWrote (s : State) (r : Reg) (hi lo v : Nat) : (s.wf r hi lo v).tmWrote = s.tmWrote   := (rfl)
@[simp] theorem wf_grooms (s : State) (r : Reg) (hi lo v : Nat) : (s.wf r hi lo v).grooms = s.grooms   := (rfl)
@[simp] theorem wf_runqs (s : State) (r : Reg) (hi lo v : Nat) : (s.wf r hi lo v).runqs = s.runqs   := (rfl)
@[simp] theorem wf_lanes (s : State) (r : Reg) (hi lo v : Nat) : (s.wf r hi lo v).lanes = s.lanes   := (rfl)
@[simp] theorem wf_cals (s : State) (r : Reg) (hi lo v : Nat) : (s.wf r hi lo v).cals = s.cals   := (rfl)
@[simp] theorem wf_ports (s : State) (r : Reg) (hi lo v : Nat) : (s.wf r hi lo v).ports = s.ports   := (rfl)
@[simp] theorem wf_hll (s : State) (r : Reg) (hi lo v : Nat) : (s.wf r hi lo v).hll = s.hll   := (rfl)
@[simp] theorem wf_worms (s : State) (r : Reg) (hi lo v : Nat) : (s.wf r hi lo v).worms = s.worms   := (rfl)
@[simp] theorem wf_epochSeen (s : State) (r : Reg) (hi lo v : Nat) : (s.wf r hi lo v).epochSeen = s.epochSeen   := (rfl)
@[simp] theorem wf_waits (s : State) (r : Reg) (hi lo v : Nat) : (s.wf r hi lo v).waits = s.waits   := (rfl)
@[simp] theorem wf_newBank (s : State) (r : Reg) (hi lo v : Nat) : (s.wf r hi lo v).newBank = s.newBank   := (rfl)
@[simp] theorem wf_oldBank (s : State) (r : Reg) (hi lo v : Nat) : (s.wf r hi lo v).oldBank = s.oldBank   := (rfl)
@[simp] theorem wf_loadedEpoch (s : State) (r : Reg) (hi lo v : Nat) : (s.wf r hi lo v).loadedEpoch = s.loadedEpoch   := (rfl)
@[simp] theorem wf_retired (s : State) (r : Reg) (hi lo v : Nat) : (s.wf r hi lo v).retired = s.retired   := (rfl)
@[simp] theorem wf_holdPort (s : State) (r : Reg) (hi lo v : Nat) : (s.wf r hi lo v).holdPort = s.holdPort   := (rfl)
@[simp] theorem wf_holdHost (s : State) (r : Reg) (hi lo v : Nat) : (s.wf r hi lo v).holdHost = s.holdHost   := (rfl)
@[simp] theorem wf_holdDom (s : State) (r : Reg) (hi lo v : Nat) : (s.wf r hi lo v).holdDom = s.holdDom   := (rfl)
@[simp] theorem wf_holdSince (s : State) (r : Reg) (hi lo v : Nat) : (s.wf r hi lo v).holdSince = s.holdSince   := (rfl)
@[simp] theorem wf_goodSince (s : State) (r : Reg) (hi lo v : Nat) : (s.wf r hi lo v).goodSince = s.goodSince   := (rfl)
@[simp] theorem wf_ppsAt (s : State) (r : Reg) (hi lo v : Nat) : (s.wf r hi lo v).ppsAt = s.ppsAt   := (rfl)
@[simp] theorem wf_ppsNt (s : State) (r : Reg) (hi lo v : Nat) : (s.wf r hi lo v).ppsNt = s.ppsNt   := (rfl)
@[simp] theorem wf_armedAt (s : State) (r : Reg) (hi lo v : Nat) : (s.wf r hi lo v).armedAt = s.armedAt   := (rfl)
@[simp] theorem wf_thetas (s : State) (r : Reg) (hi lo v : Nat) : (s.wf r hi lo v).thetas = s.thetas   := (rfl)
@[simp] theorem wf_ntFrac (s : State) (r : Reg) (hi lo v : Nat) : (s.wf r hi lo v).ntFrac = s.ntFrac   := (rfl)
@[simp] theorem wf_ppsOut (s : State) (r : Reg) (hi lo v : Nat) : (s.wf r hi lo v).ppsOut = s.ppsOut   := (rfl)
@[simp] theorem wf_runs (s : State) (r : Reg) (hi lo v : Nat) : (s.wf r hi lo v).runs = s.runs   := (rfl)
@[simp] theorem wf_pins (s : State) (r : Reg) (hi lo v : Nat) : (s.wf r hi lo v).pins = s.pins   := (rfl)
@[simp] theorem wf_flash (s : State) (r : Reg) (hi lo v : Nat) : (s.wf r hi lo v).flash = s.flash   := (rfl)
@[simp] theorem wf_fuses (s : State) (r : Reg) (hi lo v : Nat) : (s.wf r hi lo v).fuses = s.fuses   := (rfl)
@[simp] theorem wf_tack (s : State) (r : Reg) (hi lo v : Nat) : (s.wf r hi lo v).tack = s.tack   := (rfl)
@[simp] theorem wf_mbox (s : State) (r : Reg) (hi lo v : Nat) : (s.wf r hi lo v).mbox = s.mbox   := (rfl)
@[simp] theorem wf_dir (s : State) (r : Reg) (hi lo v : Nat) : (s.wf r hi lo v).dir = s.dir   := (rfl)
@[simp] theorem wf_hints (s : State) (r : Reg) (hi lo v : Nat) : (s.wf r hi lo v).hints = s.hints   := (rfl)
@[simp] theorem wf_restart (s : State) (r : Reg) (hi lo v : Nat) : (s.wf r hi lo v).restart = s.restart   := (rfl)
@[simp] theorem wf_captures (s : State) (r : Reg) (hi lo v : Nat) : (s.wf r hi lo v).captures = s.captures   := (rfl)
@[simp] theorem wf_paceAt (s : State) (r : Reg) (hi lo v : Nat) : (s.wf r hi lo v).paceAt = s.paceAt   := (rfl)
@[simp] theorem wf_stewardAt (s : State) (r : Reg) (hi lo v : Nat) : (s.wf r hi lo v).stewardAt = s.stewardAt   := (rfl)
@[simp] theorem wf_coreAccs (s : State) (r : Reg) (hi lo v : Nat) : (s.wf r hi lo v).coreAccs = s.coreAccs   := (rfl)

/-! ### wb -/

@[simp] theorem wb_pending (s : State) (r : Reg) (i : Nat) (b : Bool) : (s.wb r i b).pending = s.pending   := (rfl)
@[simp] theorem wb_hbm (s : State) (r : Reg) (i : Nat) (b : Bool) : (s.wb r i b).hbm = s.hbm   := (rfl)
@[simp] theorem wb_buf (s : State) (r : Reg) (i : Nat) (b : Bool) : (s.wb r i b).buf = s.buf   := (rfl)
@[simp] theorem wb_clk (s : State) (r : Reg) (i : Nat) (b : Bool) : (s.wb r i b).clk = s.clk   := (rfl)
@[simp] theorem wb_nt (s : State) (r : Reg) (i : Nat) (b : Bool) : (s.wb r i b).nt = s.nt   := (rfl)
@[simp] theorem wb_tk (s : State) (r : Reg) (i : Nat) (b : Bool) : (s.wb r i b).tk = s.tk   := (rfl)
@[simp] theorem wb_coreOn (s : State) (r : Reg) (i : Nat) (b : Bool) : (s.wb r i b).coreOn = s.coreOn   := (rfl)
@[simp] theorem wb_serial (s : State) (r : Reg) (i : Nat) (b : Bool) : (s.wb r i b).serial = s.serial   := (rfl)
@[simp] theorem wb_draws (s : State) (r : Reg) (i : Nat) (b : Bool) : (s.wb r i b).draws = s.draws   := (rfl)
@[simp] theorem wb_frees (s : State) (r : Reg) (i : Nat) (b : Bool) : (s.wb r i b).frees = s.frees   := (rfl)
@[simp] theorem wb_out (s : State) (r : Reg) (i : Nat) (b : Bool) : (s.wb r i b).out = s.out   := (rfl)
@[simp] theorem wb_pmFix (s : State) (r : Reg) (i : Nat) (b : Bool) : (s.wb r i b).pmFix = s.pmFix   := (rfl)
@[simp] theorem wb_pmSeen (s : State) (r : Reg) (i : Nat) (b : Bool) : (s.wb r i b).pmSeen = s.pmSeen   := (rfl)
@[simp] theorem wb_ftPosted (s : State) (r : Reg) (i : Nat) (b : Bool) : (s.wb r i b).ftPosted = s.ftPosted   := (rfl)
@[simp] theorem wb_shares (s : State) (r : Reg) (i : Nat) (b : Bool) : (s.wb r i b).shares = s.shares   := (rfl)
@[simp] theorem wb_ctxEast (s : State) (r : Reg) (i : Nat) (b : Bool) : (s.wb r i b).ctxEast = s.ctxEast   := (rfl)
@[simp] theorem wb_ht (s : State) (r : Reg) (i : Nat) (b : Bool) : (s.wb r i b).ht = s.ht   := (rfl)
@[simp] theorem wb_eqs (s : State) (r : Reg) (i : Nat) (b : Bool) : (s.wb r i b).eqs = s.eqs   := (rfl)
@[simp] theorem wb_cqs (s : State) (r : Reg) (i : Nat) (b : Bool) : (s.wb r i b).cqs = s.cqs   := (rfl)
@[simp] theorem wb_trigs (s : State) (r : Reg) (i : Nat) (b : Bool) : (s.wb r i b).trigs = s.trigs   := (rfl)
@[simp] theorem wb_ops (s : State) (r : Reg) (i : Nat) (b : Bool) : (s.wb r i b).ops = s.ops   := (rfl)
@[simp] theorem wb_ctxs (s : State) (r : Reg) (i : Nat) (b : Bool) : (s.wb r i b).ctxs = s.ctxs   := (rfl)
@[simp] theorem wb_uses (s : State) (r : Reg) (i : Nat) (b : Bool) : (s.wb r i b).uses = s.uses   := (rfl)
@[simp] theorem wb_xfers (s : State) (r : Reg) (i : Nat) (b : Bool) : (s.wb r i b).xfers = s.xfers   := (rfl)
@[simp] theorem wb_walks (s : State) (r : Reg) (i : Nat) (b : Bool) : (s.wb r i b).walks = s.walks   := (rfl)
@[simp] theorem wb_xl (s : State) (r : Reg) (i : Nat) (b : Bool) : (s.wb r i b).xl = s.xl   := (rfl)
@[simp] theorem wb_invals (s : State) (r : Reg) (i : Nat) (b : Bool) : (s.wb r i b).invals = s.invals   := (rfl)
@[simp] theorem wb_mes (s : State) (r : Reg) (i : Nat) (b : Bool) : (s.wb r i b).mes = s.mes   := (rfl)
@[simp] theorem wb_ifl (s : State) (r : Reg) (i : Nat) (b : Bool) : (s.wb r i b).ifl = s.ifl   := (rfl)
@[simp] theorem wb_tfl (s : State) (r : Reg) (i : Nat) (b : Bool) : (s.wb r i b).tfl = s.tfl   := (rfl)
@[simp] theorem wb_hatoms (s : State) (r : Reg) (i : Nat) (b : Bool) : (s.wb r i b).hatoms = s.hatoms   := (rfl)
@[simp] theorem wb_inject (s : State) (r : Reg) (i : Nat) (b : Bool) : (s.wb r i b).inject = s.inject   := (rfl)
@[simp] theorem wb_eject (s : State) (r : Reg) (i : Nat) (b : Bool) : (s.wb r i b).eject = s.eject   := (rfl)
@[simp] theorem wb_toInit (s : State) (r : Reg) (i : Nat) (b : Bool) : (s.wb r i b).toInit = s.toInit   := (rfl)
@[simp] theorem wb_due (s : State) (r : Reg) (i : Nat) (b : Bool) : (s.wb r i b).due = s.due   := (rfl)
@[simp] theorem wb_posts (s : State) (r : Reg) (i : Nat) (b : Bool) : (s.wb r i b).posts = s.posts   := (rfl)
@[simp] theorem wb_todo (s : State) (r : Reg) (i : Nat) (b : Bool) : (s.wb r i b).todo = s.todo   := (rfl)
@[simp] theorem wb_groups (s : State) (r : Reg) (i : Nat) (b : Bool) : (s.wb r i b).groups = s.groups   := (rfl)
@[simp] theorem wb_insts (s : State) (r : Reg) (i : Nat) (b : Bool) : (s.wb r i b).insts = s.insts   := (rfl)
@[simp] theorem wb_collUp (s : State) (r : Reg) (i : Nat) (b : Bool) : (s.wb r i b).collUp = s.collUp   := (rfl)
@[simp] theorem wb_collDown (s : State) (r : Reg) (i : Nat) (b : Bool) : (s.wb r i b).collDown = s.collDown   := (rfl)
@[simp] theorem wb_engOff (s : State) (r : Reg) (i : Nat) (b : Bool) : (s.wb r i b).engOff = s.engOff   := (rfl)
@[simp] theorem wb_locks (s : State) (r : Reg) (i : Nat) (b : Bool) : (s.wb r i b).locks = s.locks   := (rfl)
@[simp] theorem wb_tmWrote (s : State) (r : Reg) (i : Nat) (b : Bool) : (s.wb r i b).tmWrote = s.tmWrote   := (rfl)
@[simp] theorem wb_grooms (s : State) (r : Reg) (i : Nat) (b : Bool) : (s.wb r i b).grooms = s.grooms   := (rfl)
@[simp] theorem wb_runqs (s : State) (r : Reg) (i : Nat) (b : Bool) : (s.wb r i b).runqs = s.runqs   := (rfl)
@[simp] theorem wb_lanes (s : State) (r : Reg) (i : Nat) (b : Bool) : (s.wb r i b).lanes = s.lanes   := (rfl)
@[simp] theorem wb_cals (s : State) (r : Reg) (i : Nat) (b : Bool) : (s.wb r i b).cals = s.cals   := (rfl)
@[simp] theorem wb_ports (s : State) (r : Reg) (i : Nat) (b : Bool) : (s.wb r i b).ports = s.ports   := (rfl)
@[simp] theorem wb_hll (s : State) (r : Reg) (i : Nat) (b : Bool) : (s.wb r i b).hll = s.hll   := (rfl)
@[simp] theorem wb_worms (s : State) (r : Reg) (i : Nat) (b : Bool) : (s.wb r i b).worms = s.worms   := (rfl)
@[simp] theorem wb_epochSeen (s : State) (r : Reg) (i : Nat) (b : Bool) : (s.wb r i b).epochSeen = s.epochSeen   := (rfl)
@[simp] theorem wb_waits (s : State) (r : Reg) (i : Nat) (b : Bool) : (s.wb r i b).waits = s.waits   := (rfl)
@[simp] theorem wb_newBank (s : State) (r : Reg) (i : Nat) (b : Bool) : (s.wb r i b).newBank = s.newBank   := (rfl)
@[simp] theorem wb_oldBank (s : State) (r : Reg) (i : Nat) (b : Bool) : (s.wb r i b).oldBank = s.oldBank   := (rfl)
@[simp] theorem wb_loadedEpoch (s : State) (r : Reg) (i : Nat) (b : Bool) : (s.wb r i b).loadedEpoch = s.loadedEpoch   := (rfl)
@[simp] theorem wb_retired (s : State) (r : Reg) (i : Nat) (b : Bool) : (s.wb r i b).retired = s.retired   := (rfl)
@[simp] theorem wb_holdPort (s : State) (r : Reg) (i : Nat) (b : Bool) : (s.wb r i b).holdPort = s.holdPort   := (rfl)
@[simp] theorem wb_holdHost (s : State) (r : Reg) (i : Nat) (b : Bool) : (s.wb r i b).holdHost = s.holdHost   := (rfl)
@[simp] theorem wb_holdDom (s : State) (r : Reg) (i : Nat) (b : Bool) : (s.wb r i b).holdDom = s.holdDom   := (rfl)
@[simp] theorem wb_holdSince (s : State) (r : Reg) (i : Nat) (b : Bool) : (s.wb r i b).holdSince = s.holdSince   := (rfl)
@[simp] theorem wb_goodSince (s : State) (r : Reg) (i : Nat) (b : Bool) : (s.wb r i b).goodSince = s.goodSince   := (rfl)
@[simp] theorem wb_ppsAt (s : State) (r : Reg) (i : Nat) (b : Bool) : (s.wb r i b).ppsAt = s.ppsAt   := (rfl)
@[simp] theorem wb_ppsNt (s : State) (r : Reg) (i : Nat) (b : Bool) : (s.wb r i b).ppsNt = s.ppsNt   := (rfl)
@[simp] theorem wb_armedAt (s : State) (r : Reg) (i : Nat) (b : Bool) : (s.wb r i b).armedAt = s.armedAt   := (rfl)
@[simp] theorem wb_thetas (s : State) (r : Reg) (i : Nat) (b : Bool) : (s.wb r i b).thetas = s.thetas   := (rfl)
@[simp] theorem wb_ntFrac (s : State) (r : Reg) (i : Nat) (b : Bool) : (s.wb r i b).ntFrac = s.ntFrac   := (rfl)
@[simp] theorem wb_ppsOut (s : State) (r : Reg) (i : Nat) (b : Bool) : (s.wb r i b).ppsOut = s.ppsOut   := (rfl)
@[simp] theorem wb_runs (s : State) (r : Reg) (i : Nat) (b : Bool) : (s.wb r i b).runs = s.runs   := (rfl)
@[simp] theorem wb_pins (s : State) (r : Reg) (i : Nat) (b : Bool) : (s.wb r i b).pins = s.pins   := (rfl)
@[simp] theorem wb_flash (s : State) (r : Reg) (i : Nat) (b : Bool) : (s.wb r i b).flash = s.flash   := (rfl)
@[simp] theorem wb_fuses (s : State) (r : Reg) (i : Nat) (b : Bool) : (s.wb r i b).fuses = s.fuses   := (rfl)
@[simp] theorem wb_tack (s : State) (r : Reg) (i : Nat) (b : Bool) : (s.wb r i b).tack = s.tack   := (rfl)
@[simp] theorem wb_mbox (s : State) (r : Reg) (i : Nat) (b : Bool) : (s.wb r i b).mbox = s.mbox   := (rfl)
@[simp] theorem wb_dir (s : State) (r : Reg) (i : Nat) (b : Bool) : (s.wb r i b).dir = s.dir   := (rfl)
@[simp] theorem wb_hints (s : State) (r : Reg) (i : Nat) (b : Bool) : (s.wb r i b).hints = s.hints   := (rfl)
@[simp] theorem wb_restart (s : State) (r : Reg) (i : Nat) (b : Bool) : (s.wb r i b).restart = s.restart   := (rfl)
@[simp] theorem wb_captures (s : State) (r : Reg) (i : Nat) (b : Bool) : (s.wb r i b).captures = s.captures   := (rfl)
@[simp] theorem wb_paceAt (s : State) (r : Reg) (i : Nat) (b : Bool) : (s.wb r i b).paceAt = s.paceAt   := (rfl)
@[simp] theorem wb_stewardAt (s : State) (r : Reg) (i : Nat) (b : Bool) : (s.wb r i b).stewardAt = s.stewardAt   := (rfl)
@[simp] theorem wb_coreAccs (s : State) (r : Reg) (i : Nat) (b : Bool) : (s.wb r i b).coreAccs = s.coreAccs   := (rfl)

/-! ### bump -/

@[simp] theorem bump_pending (s : State) (r : Reg) (hi lo n : Nat) : (s.bump r hi lo n).pending = s.pending   := (rfl)
@[simp] theorem bump_hbm (s : State) (r : Reg) (hi lo n : Nat) : (s.bump r hi lo n).hbm = s.hbm   := (rfl)
@[simp] theorem bump_buf (s : State) (r : Reg) (hi lo n : Nat) : (s.bump r hi lo n).buf = s.buf   := (rfl)
@[simp] theorem bump_clk (s : State) (r : Reg) (hi lo n : Nat) : (s.bump r hi lo n).clk = s.clk   := (rfl)
@[simp] theorem bump_nt (s : State) (r : Reg) (hi lo n : Nat) : (s.bump r hi lo n).nt = s.nt   := (rfl)
@[simp] theorem bump_tk (s : State) (r : Reg) (hi lo n : Nat) : (s.bump r hi lo n).tk = s.tk   := (rfl)
@[simp] theorem bump_coreOn (s : State) (r : Reg) (hi lo n : Nat) : (s.bump r hi lo n).coreOn = s.coreOn   := (rfl)
@[simp] theorem bump_serial (s : State) (r : Reg) (hi lo n : Nat) : (s.bump r hi lo n).serial = s.serial   := (rfl)
@[simp] theorem bump_draws (s : State) (r : Reg) (hi lo n : Nat) : (s.bump r hi lo n).draws = s.draws   := (rfl)
@[simp] theorem bump_frees (s : State) (r : Reg) (hi lo n : Nat) : (s.bump r hi lo n).frees = s.frees   := (rfl)
@[simp] theorem bump_out (s : State) (r : Reg) (hi lo n : Nat) : (s.bump r hi lo n).out = s.out   := (rfl)
@[simp] theorem bump_pmFix (s : State) (r : Reg) (hi lo n : Nat) : (s.bump r hi lo n).pmFix = s.pmFix   := (rfl)
@[simp] theorem bump_pmSeen (s : State) (r : Reg) (hi lo n : Nat) : (s.bump r hi lo n).pmSeen = s.pmSeen   := (rfl)
@[simp] theorem bump_ftPosted (s : State) (r : Reg) (hi lo n : Nat) : (s.bump r hi lo n).ftPosted = s.ftPosted   := (rfl)
@[simp] theorem bump_shares (s : State) (r : Reg) (hi lo n : Nat) : (s.bump r hi lo n).shares = s.shares   := (rfl)
@[simp] theorem bump_ctxEast (s : State) (r : Reg) (hi lo n : Nat) : (s.bump r hi lo n).ctxEast = s.ctxEast   := (rfl)
@[simp] theorem bump_ht (s : State) (r : Reg) (hi lo n : Nat) : (s.bump r hi lo n).ht = s.ht   := (rfl)
@[simp] theorem bump_eqs (s : State) (r : Reg) (hi lo n : Nat) : (s.bump r hi lo n).eqs = s.eqs   := (rfl)
@[simp] theorem bump_cqs (s : State) (r : Reg) (hi lo n : Nat) : (s.bump r hi lo n).cqs = s.cqs   := (rfl)
@[simp] theorem bump_trigs (s : State) (r : Reg) (hi lo n : Nat) : (s.bump r hi lo n).trigs = s.trigs   := (rfl)
@[simp] theorem bump_ops (s : State) (r : Reg) (hi lo n : Nat) : (s.bump r hi lo n).ops = s.ops   := (rfl)
@[simp] theorem bump_ctxs (s : State) (r : Reg) (hi lo n : Nat) : (s.bump r hi lo n).ctxs = s.ctxs   := (rfl)
@[simp] theorem bump_uses (s : State) (r : Reg) (hi lo n : Nat) : (s.bump r hi lo n).uses = s.uses   := (rfl)
@[simp] theorem bump_xfers (s : State) (r : Reg) (hi lo n : Nat) : (s.bump r hi lo n).xfers = s.xfers   := (rfl)
@[simp] theorem bump_walks (s : State) (r : Reg) (hi lo n : Nat) : (s.bump r hi lo n).walks = s.walks   := (rfl)
@[simp] theorem bump_xl (s : State) (r : Reg) (hi lo n : Nat) : (s.bump r hi lo n).xl = s.xl   := (rfl)
@[simp] theorem bump_invals (s : State) (r : Reg) (hi lo n : Nat) : (s.bump r hi lo n).invals = s.invals   := (rfl)
@[simp] theorem bump_mes (s : State) (r : Reg) (hi lo n : Nat) : (s.bump r hi lo n).mes = s.mes   := (rfl)
@[simp] theorem bump_ifl (s : State) (r : Reg) (hi lo n : Nat) : (s.bump r hi lo n).ifl = s.ifl   := (rfl)
@[simp] theorem bump_tfl (s : State) (r : Reg) (hi lo n : Nat) : (s.bump r hi lo n).tfl = s.tfl   := (rfl)
@[simp] theorem bump_hatoms (s : State) (r : Reg) (hi lo n : Nat) : (s.bump r hi lo n).hatoms = s.hatoms   := (rfl)
@[simp] theorem bump_inject (s : State) (r : Reg) (hi lo n : Nat) : (s.bump r hi lo n).inject = s.inject   := (rfl)
@[simp] theorem bump_eject (s : State) (r : Reg) (hi lo n : Nat) : (s.bump r hi lo n).eject = s.eject   := (rfl)
@[simp] theorem bump_toInit (s : State) (r : Reg) (hi lo n : Nat) : (s.bump r hi lo n).toInit = s.toInit   := (rfl)
@[simp] theorem bump_due (s : State) (r : Reg) (hi lo n : Nat) : (s.bump r hi lo n).due = s.due   := (rfl)
@[simp] theorem bump_posts (s : State) (r : Reg) (hi lo n : Nat) : (s.bump r hi lo n).posts = s.posts   := (rfl)
@[simp] theorem bump_todo (s : State) (r : Reg) (hi lo n : Nat) : (s.bump r hi lo n).todo = s.todo   := (rfl)
@[simp] theorem bump_groups (s : State) (r : Reg) (hi lo n : Nat) : (s.bump r hi lo n).groups = s.groups   := (rfl)
@[simp] theorem bump_insts (s : State) (r : Reg) (hi lo n : Nat) : (s.bump r hi lo n).insts = s.insts   := (rfl)
@[simp] theorem bump_collUp (s : State) (r : Reg) (hi lo n : Nat) : (s.bump r hi lo n).collUp = s.collUp   := (rfl)
@[simp] theorem bump_collDown (s : State) (r : Reg) (hi lo n : Nat) : (s.bump r hi lo n).collDown = s.collDown   := (rfl)
@[simp] theorem bump_engOff (s : State) (r : Reg) (hi lo n : Nat) : (s.bump r hi lo n).engOff = s.engOff   := (rfl)
@[simp] theorem bump_locks (s : State) (r : Reg) (hi lo n : Nat) : (s.bump r hi lo n).locks = s.locks   := (rfl)
@[simp] theorem bump_tmWrote (s : State) (r : Reg) (hi lo n : Nat) : (s.bump r hi lo n).tmWrote = s.tmWrote   := (rfl)
@[simp] theorem bump_grooms (s : State) (r : Reg) (hi lo n : Nat) : (s.bump r hi lo n).grooms = s.grooms   := (rfl)
@[simp] theorem bump_runqs (s : State) (r : Reg) (hi lo n : Nat) : (s.bump r hi lo n).runqs = s.runqs   := (rfl)
@[simp] theorem bump_lanes (s : State) (r : Reg) (hi lo n : Nat) : (s.bump r hi lo n).lanes = s.lanes   := (rfl)
@[simp] theorem bump_cals (s : State) (r : Reg) (hi lo n : Nat) : (s.bump r hi lo n).cals = s.cals   := (rfl)
@[simp] theorem bump_ports (s : State) (r : Reg) (hi lo n : Nat) : (s.bump r hi lo n).ports = s.ports   := (rfl)
@[simp] theorem bump_hll (s : State) (r : Reg) (hi lo n : Nat) : (s.bump r hi lo n).hll = s.hll   := (rfl)
@[simp] theorem bump_worms (s : State) (r : Reg) (hi lo n : Nat) : (s.bump r hi lo n).worms = s.worms   := (rfl)
@[simp] theorem bump_epochSeen (s : State) (r : Reg) (hi lo n : Nat) : (s.bump r hi lo n).epochSeen = s.epochSeen   := (rfl)
@[simp] theorem bump_waits (s : State) (r : Reg) (hi lo n : Nat) : (s.bump r hi lo n).waits = s.waits   := (rfl)
@[simp] theorem bump_newBank (s : State) (r : Reg) (hi lo n : Nat) : (s.bump r hi lo n).newBank = s.newBank   := (rfl)
@[simp] theorem bump_oldBank (s : State) (r : Reg) (hi lo n : Nat) : (s.bump r hi lo n).oldBank = s.oldBank   := (rfl)
@[simp] theorem bump_loadedEpoch (s : State) (r : Reg) (hi lo n : Nat) : (s.bump r hi lo n).loadedEpoch = s.loadedEpoch   := (rfl)
@[simp] theorem bump_retired (s : State) (r : Reg) (hi lo n : Nat) : (s.bump r hi lo n).retired = s.retired   := (rfl)
@[simp] theorem bump_holdPort (s : State) (r : Reg) (hi lo n : Nat) : (s.bump r hi lo n).holdPort = s.holdPort   := (rfl)
@[simp] theorem bump_holdHost (s : State) (r : Reg) (hi lo n : Nat) : (s.bump r hi lo n).holdHost = s.holdHost   := (rfl)
@[simp] theorem bump_holdDom (s : State) (r : Reg) (hi lo n : Nat) : (s.bump r hi lo n).holdDom = s.holdDom   := (rfl)
@[simp] theorem bump_holdSince (s : State) (r : Reg) (hi lo n : Nat) : (s.bump r hi lo n).holdSince = s.holdSince   := (rfl)
@[simp] theorem bump_goodSince (s : State) (r : Reg) (hi lo n : Nat) : (s.bump r hi lo n).goodSince = s.goodSince   := (rfl)
@[simp] theorem bump_ppsAt (s : State) (r : Reg) (hi lo n : Nat) : (s.bump r hi lo n).ppsAt = s.ppsAt   := (rfl)
@[simp] theorem bump_ppsNt (s : State) (r : Reg) (hi lo n : Nat) : (s.bump r hi lo n).ppsNt = s.ppsNt   := (rfl)
@[simp] theorem bump_armedAt (s : State) (r : Reg) (hi lo n : Nat) : (s.bump r hi lo n).armedAt = s.armedAt   := (rfl)
@[simp] theorem bump_thetas (s : State) (r : Reg) (hi lo n : Nat) : (s.bump r hi lo n).thetas = s.thetas   := (rfl)
@[simp] theorem bump_ntFrac (s : State) (r : Reg) (hi lo n : Nat) : (s.bump r hi lo n).ntFrac = s.ntFrac   := (rfl)
@[simp] theorem bump_ppsOut (s : State) (r : Reg) (hi lo n : Nat) : (s.bump r hi lo n).ppsOut = s.ppsOut   := (rfl)
@[simp] theorem bump_runs (s : State) (r : Reg) (hi lo n : Nat) : (s.bump r hi lo n).runs = s.runs   := (rfl)
@[simp] theorem bump_pins (s : State) (r : Reg) (hi lo n : Nat) : (s.bump r hi lo n).pins = s.pins   := (rfl)
@[simp] theorem bump_flash (s : State) (r : Reg) (hi lo n : Nat) : (s.bump r hi lo n).flash = s.flash   := (rfl)
@[simp] theorem bump_fuses (s : State) (r : Reg) (hi lo n : Nat) : (s.bump r hi lo n).fuses = s.fuses   := (rfl)
@[simp] theorem bump_tack (s : State) (r : Reg) (hi lo n : Nat) : (s.bump r hi lo n).tack = s.tack   := (rfl)
@[simp] theorem bump_mbox (s : State) (r : Reg) (hi lo n : Nat) : (s.bump r hi lo n).mbox = s.mbox   := (rfl)
@[simp] theorem bump_dir (s : State) (r : Reg) (hi lo n : Nat) : (s.bump r hi lo n).dir = s.dir   := (rfl)
@[simp] theorem bump_hints (s : State) (r : Reg) (hi lo n : Nat) : (s.bump r hi lo n).hints = s.hints   := (rfl)
@[simp] theorem bump_restart (s : State) (r : Reg) (hi lo n : Nat) : (s.bump r hi lo n).restart = s.restart   := (rfl)
@[simp] theorem bump_captures (s : State) (r : Reg) (hi lo n : Nat) : (s.bump r hi lo n).captures = s.captures   := (rfl)
@[simp] theorem bump_paceAt (s : State) (r : Reg) (hi lo n : Nat) : (s.bump r hi lo n).paceAt = s.paceAt   := (rfl)
@[simp] theorem bump_stewardAt (s : State) (r : Reg) (hi lo n : Nat) : (s.bump r hi lo n).stewardAt = s.stewardAt   := (rfl)
@[simp] theorem bump_coreAccs (s : State) (r : Reg) (hi lo n : Nat) : (s.bump r hi lo n).coreAccs = s.coreAccs   := (rfl)

/-! ### emit -/

@[simp] theorem emit_pending (s : State) (e : Emission) : (s.emit e).pending = s.pending   := (rfl)
@[simp] theorem emit_regs (s : State) (e : Emission) : (s.emit e).regs = s.regs   := (rfl)
@[simp] theorem emit_hbm (s : State) (e : Emission) : (s.emit e).hbm = s.hbm   := (rfl)
@[simp] theorem emit_buf (s : State) (e : Emission) : (s.emit e).buf = s.buf   := (rfl)
@[simp] theorem emit_clk (s : State) (e : Emission) : (s.emit e).clk = s.clk   := (rfl)
@[simp] theorem emit_nt (s : State) (e : Emission) : (s.emit e).nt = s.nt   := (rfl)
@[simp] theorem emit_tk (s : State) (e : Emission) : (s.emit e).tk = s.tk   := (rfl)
@[simp] theorem emit_coreOn (s : State) (e : Emission) : (s.emit e).coreOn = s.coreOn   := (rfl)
@[simp] theorem emit_serial (s : State) (e : Emission) : (s.emit e).serial = s.serial   := (rfl)
@[simp] theorem emit_draws (s : State) (e : Emission) : (s.emit e).draws = s.draws   := (rfl)
@[simp] theorem emit_frees (s : State) (e : Emission) : (s.emit e).frees = s.frees   := (rfl)
@[simp] theorem emit_pmFix (s : State) (e : Emission) : (s.emit e).pmFix = s.pmFix   := (rfl)
@[simp] theorem emit_pmSeen (s : State) (e : Emission) : (s.emit e).pmSeen = s.pmSeen   := (rfl)
@[simp] theorem emit_ftPosted (s : State) (e : Emission) : (s.emit e).ftPosted = s.ftPosted   := (rfl)
@[simp] theorem emit_shares (s : State) (e : Emission) : (s.emit e).shares = s.shares   := (rfl)
@[simp] theorem emit_ctxEast (s : State) (e : Emission) : (s.emit e).ctxEast = s.ctxEast   := (rfl)
@[simp] theorem emit_ht (s : State) (e : Emission) : (s.emit e).ht = s.ht   := (rfl)
@[simp] theorem emit_eqs (s : State) (e : Emission) : (s.emit e).eqs = s.eqs   := (rfl)
@[simp] theorem emit_cqs (s : State) (e : Emission) : (s.emit e).cqs = s.cqs   := (rfl)
@[simp] theorem emit_trigs (s : State) (e : Emission) : (s.emit e).trigs = s.trigs   := (rfl)
@[simp] theorem emit_ops (s : State) (e : Emission) : (s.emit e).ops = s.ops   := (rfl)
@[simp] theorem emit_ctxs (s : State) (e : Emission) : (s.emit e).ctxs = s.ctxs   := (rfl)
@[simp] theorem emit_uses (s : State) (e : Emission) : (s.emit e).uses = s.uses   := (rfl)
@[simp] theorem emit_xfers (s : State) (e : Emission) : (s.emit e).xfers = s.xfers   := (rfl)
@[simp] theorem emit_walks (s : State) (e : Emission) : (s.emit e).walks = s.walks   := (rfl)
@[simp] theorem emit_xl (s : State) (e : Emission) : (s.emit e).xl = s.xl   := (rfl)
@[simp] theorem emit_invals (s : State) (e : Emission) : (s.emit e).invals = s.invals   := (rfl)
@[simp] theorem emit_mes (s : State) (e : Emission) : (s.emit e).mes = s.mes   := (rfl)
@[simp] theorem emit_ifl (s : State) (e : Emission) : (s.emit e).ifl = s.ifl   := (rfl)
@[simp] theorem emit_tfl (s : State) (e : Emission) : (s.emit e).tfl = s.tfl   := (rfl)
@[simp] theorem emit_hatoms (s : State) (e : Emission) : (s.emit e).hatoms = s.hatoms   := (rfl)
@[simp] theorem emit_inject (s : State) (e : Emission) : (s.emit e).inject = s.inject   := (rfl)
@[simp] theorem emit_eject (s : State) (e : Emission) : (s.emit e).eject = s.eject   := (rfl)
@[simp] theorem emit_toInit (s : State) (e : Emission) : (s.emit e).toInit = s.toInit   := (rfl)
@[simp] theorem emit_due (s : State) (e : Emission) : (s.emit e).due = s.due   := (rfl)
@[simp] theorem emit_posts (s : State) (e : Emission) : (s.emit e).posts = s.posts   := (rfl)
@[simp] theorem emit_todo (s : State) (e : Emission) : (s.emit e).todo = s.todo   := (rfl)
@[simp] theorem emit_groups (s : State) (e : Emission) : (s.emit e).groups = s.groups   := (rfl)
@[simp] theorem emit_insts (s : State) (e : Emission) : (s.emit e).insts = s.insts   := (rfl)
@[simp] theorem emit_collUp (s : State) (e : Emission) : (s.emit e).collUp = s.collUp   := (rfl)
@[simp] theorem emit_collDown (s : State) (e : Emission) : (s.emit e).collDown = s.collDown   := (rfl)
@[simp] theorem emit_engOff (s : State) (e : Emission) : (s.emit e).engOff = s.engOff   := (rfl)
@[simp] theorem emit_locks (s : State) (e : Emission) : (s.emit e).locks = s.locks   := (rfl)
@[simp] theorem emit_tmWrote (s : State) (e : Emission) : (s.emit e).tmWrote = s.tmWrote   := (rfl)
@[simp] theorem emit_grooms (s : State) (e : Emission) : (s.emit e).grooms = s.grooms   := (rfl)
@[simp] theorem emit_runqs (s : State) (e : Emission) : (s.emit e).runqs = s.runqs   := (rfl)
@[simp] theorem emit_lanes (s : State) (e : Emission) : (s.emit e).lanes = s.lanes   := (rfl)
@[simp] theorem emit_cals (s : State) (e : Emission) : (s.emit e).cals = s.cals   := (rfl)
@[simp] theorem emit_ports (s : State) (e : Emission) : (s.emit e).ports = s.ports   := (rfl)
@[simp] theorem emit_hll (s : State) (e : Emission) : (s.emit e).hll = s.hll   := (rfl)
@[simp] theorem emit_worms (s : State) (e : Emission) : (s.emit e).worms = s.worms   := (rfl)
@[simp] theorem emit_epochSeen (s : State) (e : Emission) : (s.emit e).epochSeen = s.epochSeen   := (rfl)
@[simp] theorem emit_waits (s : State) (e : Emission) : (s.emit e).waits = s.waits   := (rfl)
@[simp] theorem emit_newBank (s : State) (e : Emission) : (s.emit e).newBank = s.newBank   := (rfl)
@[simp] theorem emit_oldBank (s : State) (e : Emission) : (s.emit e).oldBank = s.oldBank   := (rfl)
@[simp] theorem emit_loadedEpoch (s : State) (e : Emission) : (s.emit e).loadedEpoch = s.loadedEpoch   := (rfl)
@[simp] theorem emit_retired (s : State) (e : Emission) : (s.emit e).retired = s.retired   := (rfl)
@[simp] theorem emit_holdPort (s : State) (e : Emission) : (s.emit e).holdPort = s.holdPort   := (rfl)
@[simp] theorem emit_holdHost (s : State) (e : Emission) : (s.emit e).holdHost = s.holdHost   := (rfl)
@[simp] theorem emit_holdDom (s : State) (e : Emission) : (s.emit e).holdDom = s.holdDom   := (rfl)
@[simp] theorem emit_holdSince (s : State) (e : Emission) : (s.emit e).holdSince = s.holdSince   := (rfl)
@[simp] theorem emit_goodSince (s : State) (e : Emission) : (s.emit e).goodSince = s.goodSince   := (rfl)
@[simp] theorem emit_ppsAt (s : State) (e : Emission) : (s.emit e).ppsAt = s.ppsAt   := (rfl)
@[simp] theorem emit_ppsNt (s : State) (e : Emission) : (s.emit e).ppsNt = s.ppsNt   := (rfl)
@[simp] theorem emit_armedAt (s : State) (e : Emission) : (s.emit e).armedAt = s.armedAt   := (rfl)
@[simp] theorem emit_thetas (s : State) (e : Emission) : (s.emit e).thetas = s.thetas   := (rfl)
@[simp] theorem emit_ntFrac (s : State) (e : Emission) : (s.emit e).ntFrac = s.ntFrac   := (rfl)
@[simp] theorem emit_ppsOut (s : State) (e : Emission) : (s.emit e).ppsOut = s.ppsOut   := (rfl)
@[simp] theorem emit_runs (s : State) (e : Emission) : (s.emit e).runs = s.runs   := (rfl)
@[simp] theorem emit_pins (s : State) (e : Emission) : (s.emit e).pins = s.pins   := (rfl)
@[simp] theorem emit_flash (s : State) (e : Emission) : (s.emit e).flash = s.flash   := (rfl)
@[simp] theorem emit_fuses (s : State) (e : Emission) : (s.emit e).fuses = s.fuses   := (rfl)
@[simp] theorem emit_tack (s : State) (e : Emission) : (s.emit e).tack = s.tack   := (rfl)
@[simp] theorem emit_mbox (s : State) (e : Emission) : (s.emit e).mbox = s.mbox   := (rfl)
@[simp] theorem emit_dir (s : State) (e : Emission) : (s.emit e).dir = s.dir   := (rfl)
@[simp] theorem emit_hints (s : State) (e : Emission) : (s.emit e).hints = s.hints   := (rfl)
@[simp] theorem emit_restart (s : State) (e : Emission) : (s.emit e).restart = s.restart   := (rfl)
@[simp] theorem emit_captures (s : State) (e : Emission) : (s.emit e).captures = s.captures   := (rfl)
@[simp] theorem emit_paceAt (s : State) (e : Emission) : (s.emit e).paceAt = s.paceAt   := (rfl)
@[simp] theorem emit_stewardAt (s : State) (e : Emission) : (s.emit e).stewardAt = s.stewardAt   := (rfl)
@[simp] theorem emit_coreAccs (s : State) (e : Emission) : (s.emit e).coreAccs = s.coreAccs   := (rfl)

/-! ### modTl -/

@[simp] theorem modTl_pending (s : State) (h : Nat) (f : HostTl → HostTl) : (s.modTl h f).pending = s.pending   := (rfl)
@[simp] theorem modTl_regs (s : State) (h : Nat) (f : HostTl → HostTl) : (s.modTl h f).regs = s.regs   := (rfl)
@[simp] theorem modTl_hbm (s : State) (h : Nat) (f : HostTl → HostTl) : (s.modTl h f).hbm = s.hbm   := (rfl)
@[simp] theorem modTl_buf (s : State) (h : Nat) (f : HostTl → HostTl) : (s.modTl h f).buf = s.buf   := (rfl)
@[simp] theorem modTl_clk (s : State) (h : Nat) (f : HostTl → HostTl) : (s.modTl h f).clk = s.clk   := (rfl)
@[simp] theorem modTl_nt (s : State) (h : Nat) (f : HostTl → HostTl) : (s.modTl h f).nt = s.nt   := (rfl)
@[simp] theorem modTl_tk (s : State) (h : Nat) (f : HostTl → HostTl) : (s.modTl h f).tk = s.tk   := (rfl)
@[simp] theorem modTl_coreOn (s : State) (h : Nat) (f : HostTl → HostTl) : (s.modTl h f).coreOn = s.coreOn   := (rfl)
@[simp] theorem modTl_serial (s : State) (h : Nat) (f : HostTl → HostTl) : (s.modTl h f).serial = s.serial   := (rfl)
@[simp] theorem modTl_draws (s : State) (h : Nat) (f : HostTl → HostTl) : (s.modTl h f).draws = s.draws   := (rfl)
@[simp] theorem modTl_frees (s : State) (h : Nat) (f : HostTl → HostTl) : (s.modTl h f).frees = s.frees   := (rfl)
@[simp] theorem modTl_out (s : State) (h : Nat) (f : HostTl → HostTl) : (s.modTl h f).out = s.out   := (rfl)
@[simp] theorem modTl_pmFix (s : State) (h : Nat) (f : HostTl → HostTl) : (s.modTl h f).pmFix = s.pmFix   := (rfl)
@[simp] theorem modTl_pmSeen (s : State) (h : Nat) (f : HostTl → HostTl) : (s.modTl h f).pmSeen = s.pmSeen   := (rfl)
@[simp] theorem modTl_ftPosted (s : State) (h : Nat) (f : HostTl → HostTl) : (s.modTl h f).ftPosted = s.ftPosted   := (rfl)
@[simp] theorem modTl_shares (s : State) (h : Nat) (f : HostTl → HostTl) : (s.modTl h f).shares = s.shares   := (rfl)
@[simp] theorem modTl_ctxEast (s : State) (h : Nat) (f : HostTl → HostTl) : (s.modTl h f).ctxEast = s.ctxEast   := (rfl)
@[simp] theorem modTl_eqs (s : State) (h : Nat) (f : HostTl → HostTl) : (s.modTl h f).eqs = s.eqs   := (rfl)
@[simp] theorem modTl_cqs (s : State) (h : Nat) (f : HostTl → HostTl) : (s.modTl h f).cqs = s.cqs   := (rfl)
@[simp] theorem modTl_trigs (s : State) (h : Nat) (f : HostTl → HostTl) : (s.modTl h f).trigs = s.trigs   := (rfl)
@[simp] theorem modTl_ops (s : State) (h : Nat) (f : HostTl → HostTl) : (s.modTl h f).ops = s.ops   := (rfl)
@[simp] theorem modTl_ctxs (s : State) (h : Nat) (f : HostTl → HostTl) : (s.modTl h f).ctxs = s.ctxs   := (rfl)
@[simp] theorem modTl_uses (s : State) (h : Nat) (f : HostTl → HostTl) : (s.modTl h f).uses = s.uses   := (rfl)
@[simp] theorem modTl_xfers (s : State) (h : Nat) (f : HostTl → HostTl) : (s.modTl h f).xfers = s.xfers   := (rfl)
@[simp] theorem modTl_walks (s : State) (h : Nat) (f : HostTl → HostTl) : (s.modTl h f).walks = s.walks   := (rfl)
@[simp] theorem modTl_xl (s : State) (h : Nat) (f : HostTl → HostTl) : (s.modTl h f).xl = s.xl   := (rfl)
@[simp] theorem modTl_invals (s : State) (h : Nat) (f : HostTl → HostTl) : (s.modTl h f).invals = s.invals   := (rfl)
@[simp] theorem modTl_mes (s : State) (h : Nat) (f : HostTl → HostTl) : (s.modTl h f).mes = s.mes   := (rfl)
@[simp] theorem modTl_ifl (s : State) (h : Nat) (f : HostTl → HostTl) : (s.modTl h f).ifl = s.ifl   := (rfl)
@[simp] theorem modTl_tfl (s : State) (h : Nat) (f : HostTl → HostTl) : (s.modTl h f).tfl = s.tfl   := (rfl)
@[simp] theorem modTl_hatoms (s : State) (h : Nat) (f : HostTl → HostTl) : (s.modTl h f).hatoms = s.hatoms   := (rfl)
@[simp] theorem modTl_inject (s : State) (h : Nat) (f : HostTl → HostTl) : (s.modTl h f).inject = s.inject   := (rfl)
@[simp] theorem modTl_eject (s : State) (h : Nat) (f : HostTl → HostTl) : (s.modTl h f).eject = s.eject   := (rfl)
@[simp] theorem modTl_toInit (s : State) (h : Nat) (f : HostTl → HostTl) : (s.modTl h f).toInit = s.toInit   := (rfl)
@[simp] theorem modTl_due (s : State) (h : Nat) (f : HostTl → HostTl) : (s.modTl h f).due = s.due   := (rfl)
@[simp] theorem modTl_posts (s : State) (h : Nat) (f : HostTl → HostTl) : (s.modTl h f).posts = s.posts   := (rfl)
@[simp] theorem modTl_todo (s : State) (h : Nat) (f : HostTl → HostTl) : (s.modTl h f).todo = s.todo   := (rfl)
@[simp] theorem modTl_groups (s : State) (h : Nat) (f : HostTl → HostTl) : (s.modTl h f).groups = s.groups   := (rfl)
@[simp] theorem modTl_insts (s : State) (h : Nat) (f : HostTl → HostTl) : (s.modTl h f).insts = s.insts   := (rfl)
@[simp] theorem modTl_collUp (s : State) (h : Nat) (f : HostTl → HostTl) : (s.modTl h f).collUp = s.collUp   := (rfl)
@[simp] theorem modTl_collDown (s : State) (h : Nat) (f : HostTl → HostTl) : (s.modTl h f).collDown = s.collDown   := (rfl)
@[simp] theorem modTl_engOff (s : State) (h : Nat) (f : HostTl → HostTl) : (s.modTl h f).engOff = s.engOff   := (rfl)
@[simp] theorem modTl_locks (s : State) (h : Nat) (f : HostTl → HostTl) : (s.modTl h f).locks = s.locks   := (rfl)
@[simp] theorem modTl_tmWrote (s : State) (h : Nat) (f : HostTl → HostTl) : (s.modTl h f).tmWrote = s.tmWrote   := (rfl)
@[simp] theorem modTl_grooms (s : State) (h : Nat) (f : HostTl → HostTl) : (s.modTl h f).grooms = s.grooms   := (rfl)
@[simp] theorem modTl_runqs (s : State) (h : Nat) (f : HostTl → HostTl) : (s.modTl h f).runqs = s.runqs   := (rfl)
@[simp] theorem modTl_lanes (s : State) (h : Nat) (f : HostTl → HostTl) : (s.modTl h f).lanes = s.lanes   := (rfl)
@[simp] theorem modTl_cals (s : State) (h : Nat) (f : HostTl → HostTl) : (s.modTl h f).cals = s.cals   := (rfl)
@[simp] theorem modTl_ports (s : State) (h : Nat) (f : HostTl → HostTl) : (s.modTl h f).ports = s.ports   := (rfl)
@[simp] theorem modTl_hll (s : State) (h : Nat) (f : HostTl → HostTl) : (s.modTl h f).hll = s.hll   := (rfl)
@[simp] theorem modTl_worms (s : State) (h : Nat) (f : HostTl → HostTl) : (s.modTl h f).worms = s.worms   := (rfl)
@[simp] theorem modTl_epochSeen (s : State) (h : Nat) (f : HostTl → HostTl) : (s.modTl h f).epochSeen = s.epochSeen   := (rfl)
@[simp] theorem modTl_waits (s : State) (h : Nat) (f : HostTl → HostTl) : (s.modTl h f).waits = s.waits   := (rfl)
@[simp] theorem modTl_newBank (s : State) (h : Nat) (f : HostTl → HostTl) : (s.modTl h f).newBank = s.newBank   := (rfl)
@[simp] theorem modTl_oldBank (s : State) (h : Nat) (f : HostTl → HostTl) : (s.modTl h f).oldBank = s.oldBank   := (rfl)
@[simp] theorem modTl_loadedEpoch (s : State) (h : Nat) (f : HostTl → HostTl) : (s.modTl h f).loadedEpoch = s.loadedEpoch   := (rfl)
@[simp] theorem modTl_retired (s : State) (h : Nat) (f : HostTl → HostTl) : (s.modTl h f).retired = s.retired   := (rfl)
@[simp] theorem modTl_holdPort (s : State) (h : Nat) (f : HostTl → HostTl) : (s.modTl h f).holdPort = s.holdPort   := (rfl)
@[simp] theorem modTl_holdHost (s : State) (h : Nat) (f : HostTl → HostTl) : (s.modTl h f).holdHost = s.holdHost   := (rfl)
@[simp] theorem modTl_holdDom (s : State) (h : Nat) (f : HostTl → HostTl) : (s.modTl h f).holdDom = s.holdDom   := (rfl)
@[simp] theorem modTl_holdSince (s : State) (h : Nat) (f : HostTl → HostTl) : (s.modTl h f).holdSince = s.holdSince   := (rfl)
@[simp] theorem modTl_goodSince (s : State) (h : Nat) (f : HostTl → HostTl) : (s.modTl h f).goodSince = s.goodSince   := (rfl)
@[simp] theorem modTl_ppsAt (s : State) (h : Nat) (f : HostTl → HostTl) : (s.modTl h f).ppsAt = s.ppsAt   := (rfl)
@[simp] theorem modTl_ppsNt (s : State) (h : Nat) (f : HostTl → HostTl) : (s.modTl h f).ppsNt = s.ppsNt   := (rfl)
@[simp] theorem modTl_armedAt (s : State) (h : Nat) (f : HostTl → HostTl) : (s.modTl h f).armedAt = s.armedAt   := (rfl)
@[simp] theorem modTl_thetas (s : State) (h : Nat) (f : HostTl → HostTl) : (s.modTl h f).thetas = s.thetas   := (rfl)
@[simp] theorem modTl_ntFrac (s : State) (h : Nat) (f : HostTl → HostTl) : (s.modTl h f).ntFrac = s.ntFrac   := (rfl)
@[simp] theorem modTl_ppsOut (s : State) (h : Nat) (f : HostTl → HostTl) : (s.modTl h f).ppsOut = s.ppsOut   := (rfl)
@[simp] theorem modTl_runs (s : State) (h : Nat) (f : HostTl → HostTl) : (s.modTl h f).runs = s.runs   := (rfl)
@[simp] theorem modTl_pins (s : State) (h : Nat) (f : HostTl → HostTl) : (s.modTl h f).pins = s.pins   := (rfl)
@[simp] theorem modTl_flash (s : State) (h : Nat) (f : HostTl → HostTl) : (s.modTl h f).flash = s.flash   := (rfl)
@[simp] theorem modTl_fuses (s : State) (h : Nat) (f : HostTl → HostTl) : (s.modTl h f).fuses = s.fuses   := (rfl)
@[simp] theorem modTl_tack (s : State) (h : Nat) (f : HostTl → HostTl) : (s.modTl h f).tack = s.tack   := (rfl)
@[simp] theorem modTl_mbox (s : State) (h : Nat) (f : HostTl → HostTl) : (s.modTl h f).mbox = s.mbox   := (rfl)
@[simp] theorem modTl_dir (s : State) (h : Nat) (f : HostTl → HostTl) : (s.modTl h f).dir = s.dir   := (rfl)
@[simp] theorem modTl_hints (s : State) (h : Nat) (f : HostTl → HostTl) : (s.modTl h f).hints = s.hints   := (rfl)
@[simp] theorem modTl_restart (s : State) (h : Nat) (f : HostTl → HostTl) : (s.modTl h f).restart = s.restart   := (rfl)
@[simp] theorem modTl_captures (s : State) (h : Nat) (f : HostTl → HostTl) : (s.modTl h f).captures = s.captures   := (rfl)
@[simp] theorem modTl_paceAt (s : State) (h : Nat) (f : HostTl → HostTl) : (s.modTl h f).paceAt = s.paceAt   := (rfl)
@[simp] theorem modTl_stewardAt (s : State) (h : Nat) (f : HostTl → HostTl) : (s.modTl h f).stewardAt = s.stewardAt   := (rfl)
@[simp] theorem modTl_coreAccs (s : State) (h : Nat) (f : HostTl → HostTl) : (s.modTl h f).coreAccs = s.coreAccs   := (rfl)

/-! ### modLane -/

@[simp] theorem modLane_pending (s : State) (n : LaneId) (f : Lane → Lane) : (s.modLane n f).pending = s.pending   := (rfl)
@[simp] theorem modLane_regs (s : State) (n : LaneId) (f : Lane → Lane) : (s.modLane n f).regs = s.regs   := (rfl)
@[simp] theorem modLane_hbm (s : State) (n : LaneId) (f : Lane → Lane) : (s.modLane n f).hbm = s.hbm   := (rfl)
@[simp] theorem modLane_buf (s : State) (n : LaneId) (f : Lane → Lane) : (s.modLane n f).buf = s.buf   := (rfl)
@[simp] theorem modLane_clk (s : State) (n : LaneId) (f : Lane → Lane) : (s.modLane n f).clk = s.clk   := (rfl)
@[simp] theorem modLane_nt (s : State) (n : LaneId) (f : Lane → Lane) : (s.modLane n f).nt = s.nt   := (rfl)
@[simp] theorem modLane_tk (s : State) (n : LaneId) (f : Lane → Lane) : (s.modLane n f).tk = s.tk   := (rfl)
@[simp] theorem modLane_coreOn (s : State) (n : LaneId) (f : Lane → Lane) : (s.modLane n f).coreOn = s.coreOn   := (rfl)
@[simp] theorem modLane_serial (s : State) (n : LaneId) (f : Lane → Lane) : (s.modLane n f).serial = s.serial   := (rfl)
@[simp] theorem modLane_draws (s : State) (n : LaneId) (f : Lane → Lane) : (s.modLane n f).draws = s.draws   := (rfl)
@[simp] theorem modLane_frees (s : State) (n : LaneId) (f : Lane → Lane) : (s.modLane n f).frees = s.frees   := (rfl)
@[simp] theorem modLane_out (s : State) (n : LaneId) (f : Lane → Lane) : (s.modLane n f).out = s.out   := (rfl)
@[simp] theorem modLane_pmFix (s : State) (n : LaneId) (f : Lane → Lane) : (s.modLane n f).pmFix = s.pmFix   := (rfl)
@[simp] theorem modLane_pmSeen (s : State) (n : LaneId) (f : Lane → Lane) : (s.modLane n f).pmSeen = s.pmSeen   := (rfl)
@[simp] theorem modLane_ftPosted (s : State) (n : LaneId) (f : Lane → Lane) : (s.modLane n f).ftPosted = s.ftPosted   := (rfl)
@[simp] theorem modLane_shares (s : State) (n : LaneId) (f : Lane → Lane) : (s.modLane n f).shares = s.shares   := (rfl)
@[simp] theorem modLane_ctxEast (s : State) (n : LaneId) (f : Lane → Lane) : (s.modLane n f).ctxEast = s.ctxEast   := (rfl)
@[simp] theorem modLane_ht (s : State) (n : LaneId) (f : Lane → Lane) : (s.modLane n f).ht = s.ht   := (rfl)
@[simp] theorem modLane_eqs (s : State) (n : LaneId) (f : Lane → Lane) : (s.modLane n f).eqs = s.eqs   := (rfl)
@[simp] theorem modLane_cqs (s : State) (n : LaneId) (f : Lane → Lane) : (s.modLane n f).cqs = s.cqs   := (rfl)
@[simp] theorem modLane_trigs (s : State) (n : LaneId) (f : Lane → Lane) : (s.modLane n f).trigs = s.trigs   := (rfl)
@[simp] theorem modLane_ops (s : State) (n : LaneId) (f : Lane → Lane) : (s.modLane n f).ops = s.ops   := (rfl)
@[simp] theorem modLane_ctxs (s : State) (n : LaneId) (f : Lane → Lane) : (s.modLane n f).ctxs = s.ctxs   := (rfl)
@[simp] theorem modLane_uses (s : State) (n : LaneId) (f : Lane → Lane) : (s.modLane n f).uses = s.uses   := (rfl)
@[simp] theorem modLane_xfers (s : State) (n : LaneId) (f : Lane → Lane) : (s.modLane n f).xfers = s.xfers   := (rfl)
@[simp] theorem modLane_walks (s : State) (n : LaneId) (f : Lane → Lane) : (s.modLane n f).walks = s.walks   := (rfl)
@[simp] theorem modLane_xl (s : State) (n : LaneId) (f : Lane → Lane) : (s.modLane n f).xl = s.xl   := (rfl)
@[simp] theorem modLane_invals (s : State) (n : LaneId) (f : Lane → Lane) : (s.modLane n f).invals = s.invals   := (rfl)
@[simp] theorem modLane_mes (s : State) (n : LaneId) (f : Lane → Lane) : (s.modLane n f).mes = s.mes   := (rfl)
@[simp] theorem modLane_ifl (s : State) (n : LaneId) (f : Lane → Lane) : (s.modLane n f).ifl = s.ifl   := (rfl)
@[simp] theorem modLane_tfl (s : State) (n : LaneId) (f : Lane → Lane) : (s.modLane n f).tfl = s.tfl   := (rfl)
@[simp] theorem modLane_hatoms (s : State) (n : LaneId) (f : Lane → Lane) : (s.modLane n f).hatoms = s.hatoms   := (rfl)
@[simp] theorem modLane_inject (s : State) (n : LaneId) (f : Lane → Lane) : (s.modLane n f).inject = s.inject   := (rfl)
@[simp] theorem modLane_eject (s : State) (n : LaneId) (f : Lane → Lane) : (s.modLane n f).eject = s.eject   := (rfl)
@[simp] theorem modLane_toInit (s : State) (n : LaneId) (f : Lane → Lane) : (s.modLane n f).toInit = s.toInit   := (rfl)
@[simp] theorem modLane_due (s : State) (n : LaneId) (f : Lane → Lane) : (s.modLane n f).due = s.due   := (rfl)
@[simp] theorem modLane_posts (s : State) (n : LaneId) (f : Lane → Lane) : (s.modLane n f).posts = s.posts   := (rfl)
@[simp] theorem modLane_todo (s : State) (n : LaneId) (f : Lane → Lane) : (s.modLane n f).todo = s.todo   := (rfl)
@[simp] theorem modLane_groups (s : State) (n : LaneId) (f : Lane → Lane) : (s.modLane n f).groups = s.groups   := (rfl)
@[simp] theorem modLane_insts (s : State) (n : LaneId) (f : Lane → Lane) : (s.modLane n f).insts = s.insts   := (rfl)
@[simp] theorem modLane_collUp (s : State) (n : LaneId) (f : Lane → Lane) : (s.modLane n f).collUp = s.collUp   := (rfl)
@[simp] theorem modLane_collDown (s : State) (n : LaneId) (f : Lane → Lane) : (s.modLane n f).collDown = s.collDown   := (rfl)
@[simp] theorem modLane_engOff (s : State) (n : LaneId) (f : Lane → Lane) : (s.modLane n f).engOff = s.engOff   := (rfl)
@[simp] theorem modLane_locks (s : State) (n : LaneId) (f : Lane → Lane) : (s.modLane n f).locks = s.locks   := (rfl)
@[simp] theorem modLane_tmWrote (s : State) (n : LaneId) (f : Lane → Lane) : (s.modLane n f).tmWrote = s.tmWrote   := (rfl)
@[simp] theorem modLane_grooms (s : State) (n : LaneId) (f : Lane → Lane) : (s.modLane n f).grooms = s.grooms   := (rfl)
@[simp] theorem modLane_runqs (s : State) (n : LaneId) (f : Lane → Lane) : (s.modLane n f).runqs = s.runqs   := (rfl)
@[simp] theorem modLane_cals (s : State) (n : LaneId) (f : Lane → Lane) : (s.modLane n f).cals = s.cals   := (rfl)
@[simp] theorem modLane_ports (s : State) (n : LaneId) (f : Lane → Lane) : (s.modLane n f).ports = s.ports   := (rfl)
@[simp] theorem modLane_hll (s : State) (n : LaneId) (f : Lane → Lane) : (s.modLane n f).hll = s.hll   := (rfl)
@[simp] theorem modLane_worms (s : State) (n : LaneId) (f : Lane → Lane) : (s.modLane n f).worms = s.worms   := (rfl)
@[simp] theorem modLane_epochSeen (s : State) (n : LaneId) (f : Lane → Lane) : (s.modLane n f).epochSeen = s.epochSeen   := (rfl)
@[simp] theorem modLane_waits (s : State) (n : LaneId) (f : Lane → Lane) : (s.modLane n f).waits = s.waits   := (rfl)
@[simp] theorem modLane_newBank (s : State) (n : LaneId) (f : Lane → Lane) : (s.modLane n f).newBank = s.newBank   := (rfl)
@[simp] theorem modLane_oldBank (s : State) (n : LaneId) (f : Lane → Lane) : (s.modLane n f).oldBank = s.oldBank   := (rfl)
@[simp] theorem modLane_loadedEpoch (s : State) (n : LaneId) (f : Lane → Lane) : (s.modLane n f).loadedEpoch = s.loadedEpoch   := (rfl)
@[simp] theorem modLane_retired (s : State) (n : LaneId) (f : Lane → Lane) : (s.modLane n f).retired = s.retired   := (rfl)
@[simp] theorem modLane_holdPort (s : State) (n : LaneId) (f : Lane → Lane) : (s.modLane n f).holdPort = s.holdPort   := (rfl)
@[simp] theorem modLane_holdHost (s : State) (n : LaneId) (f : Lane → Lane) : (s.modLane n f).holdHost = s.holdHost   := (rfl)
@[simp] theorem modLane_holdDom (s : State) (n : LaneId) (f : Lane → Lane) : (s.modLane n f).holdDom = s.holdDom   := (rfl)
@[simp] theorem modLane_holdSince (s : State) (n : LaneId) (f : Lane → Lane) : (s.modLane n f).holdSince = s.holdSince   := (rfl)
@[simp] theorem modLane_goodSince (s : State) (n : LaneId) (f : Lane → Lane) : (s.modLane n f).goodSince = s.goodSince   := (rfl)
@[simp] theorem modLane_ppsAt (s : State) (n : LaneId) (f : Lane → Lane) : (s.modLane n f).ppsAt = s.ppsAt   := (rfl)
@[simp] theorem modLane_ppsNt (s : State) (n : LaneId) (f : Lane → Lane) : (s.modLane n f).ppsNt = s.ppsNt   := (rfl)
@[simp] theorem modLane_armedAt (s : State) (n : LaneId) (f : Lane → Lane) : (s.modLane n f).armedAt = s.armedAt   := (rfl)
@[simp] theorem modLane_thetas (s : State) (n : LaneId) (f : Lane → Lane) : (s.modLane n f).thetas = s.thetas   := (rfl)
@[simp] theorem modLane_ntFrac (s : State) (n : LaneId) (f : Lane → Lane) : (s.modLane n f).ntFrac = s.ntFrac   := (rfl)
@[simp] theorem modLane_ppsOut (s : State) (n : LaneId) (f : Lane → Lane) : (s.modLane n f).ppsOut = s.ppsOut   := (rfl)
@[simp] theorem modLane_runs (s : State) (n : LaneId) (f : Lane → Lane) : (s.modLane n f).runs = s.runs   := (rfl)
@[simp] theorem modLane_pins (s : State) (n : LaneId) (f : Lane → Lane) : (s.modLane n f).pins = s.pins   := (rfl)
@[simp] theorem modLane_flash (s : State) (n : LaneId) (f : Lane → Lane) : (s.modLane n f).flash = s.flash   := (rfl)
@[simp] theorem modLane_fuses (s : State) (n : LaneId) (f : Lane → Lane) : (s.modLane n f).fuses = s.fuses   := (rfl)
@[simp] theorem modLane_tack (s : State) (n : LaneId) (f : Lane → Lane) : (s.modLane n f).tack = s.tack   := (rfl)
@[simp] theorem modLane_mbox (s : State) (n : LaneId) (f : Lane → Lane) : (s.modLane n f).mbox = s.mbox   := (rfl)
@[simp] theorem modLane_dir (s : State) (n : LaneId) (f : Lane → Lane) : (s.modLane n f).dir = s.dir   := (rfl)
@[simp] theorem modLane_hints (s : State) (n : LaneId) (f : Lane → Lane) : (s.modLane n f).hints = s.hints   := (rfl)
@[simp] theorem modLane_restart (s : State) (n : LaneId) (f : Lane → Lane) : (s.modLane n f).restart = s.restart   := (rfl)
@[simp] theorem modLane_captures (s : State) (n : LaneId) (f : Lane → Lane) : (s.modLane n f).captures = s.captures   := (rfl)
@[simp] theorem modLane_paceAt (s : State) (n : LaneId) (f : Lane → Lane) : (s.modLane n f).paceAt = s.paceAt   := (rfl)
@[simp] theorem modLane_stewardAt (s : State) (n : LaneId) (f : Lane → Lane) : (s.modLane n f).stewardAt = s.stewardAt   := (rfl)
@[simp] theorem modLane_coreAccs (s : State) (n : LaneId) (f : Lane → Lane) : (s.modLane n f).coreAccs = s.coreAccs   := (rfl)

/-! ### modPort -/

@[simp] theorem modPort_pending (s : State) (p : Port) (f : PortSt → PortSt) : (s.modPort p f).pending = s.pending   := (rfl)
@[simp] theorem modPort_regs (s : State) (p : Port) (f : PortSt → PortSt) : (s.modPort p f).regs = s.regs   := (rfl)
@[simp] theorem modPort_hbm (s : State) (p : Port) (f : PortSt → PortSt) : (s.modPort p f).hbm = s.hbm   := (rfl)
@[simp] theorem modPort_buf (s : State) (p : Port) (f : PortSt → PortSt) : (s.modPort p f).buf = s.buf   := (rfl)
@[simp] theorem modPort_clk (s : State) (p : Port) (f : PortSt → PortSt) : (s.modPort p f).clk = s.clk   := (rfl)
@[simp] theorem modPort_nt (s : State) (p : Port) (f : PortSt → PortSt) : (s.modPort p f).nt = s.nt   := (rfl)
@[simp] theorem modPort_tk (s : State) (p : Port) (f : PortSt → PortSt) : (s.modPort p f).tk = s.tk   := (rfl)
@[simp] theorem modPort_coreOn (s : State) (p : Port) (f : PortSt → PortSt) : (s.modPort p f).coreOn = s.coreOn   := (rfl)
@[simp] theorem modPort_serial (s : State) (p : Port) (f : PortSt → PortSt) : (s.modPort p f).serial = s.serial   := (rfl)
@[simp] theorem modPort_draws (s : State) (p : Port) (f : PortSt → PortSt) : (s.modPort p f).draws = s.draws   := (rfl)
@[simp] theorem modPort_frees (s : State) (p : Port) (f : PortSt → PortSt) : (s.modPort p f).frees = s.frees   := (rfl)
@[simp] theorem modPort_out (s : State) (p : Port) (f : PortSt → PortSt) : (s.modPort p f).out = s.out   := (rfl)
@[simp] theorem modPort_pmFix (s : State) (p : Port) (f : PortSt → PortSt) : (s.modPort p f).pmFix = s.pmFix   := (rfl)
@[simp] theorem modPort_pmSeen (s : State) (p : Port) (f : PortSt → PortSt) : (s.modPort p f).pmSeen = s.pmSeen   := (rfl)
@[simp] theorem modPort_ftPosted (s : State) (p : Port) (f : PortSt → PortSt) : (s.modPort p f).ftPosted = s.ftPosted   := (rfl)
@[simp] theorem modPort_shares (s : State) (p : Port) (f : PortSt → PortSt) : (s.modPort p f).shares = s.shares   := (rfl)
@[simp] theorem modPort_ctxEast (s : State) (p : Port) (f : PortSt → PortSt) : (s.modPort p f).ctxEast = s.ctxEast   := (rfl)
@[simp] theorem modPort_ht (s : State) (p : Port) (f : PortSt → PortSt) : (s.modPort p f).ht = s.ht   := (rfl)
@[simp] theorem modPort_eqs (s : State) (p : Port) (f : PortSt → PortSt) : (s.modPort p f).eqs = s.eqs   := (rfl)
@[simp] theorem modPort_cqs (s : State) (p : Port) (f : PortSt → PortSt) : (s.modPort p f).cqs = s.cqs   := (rfl)
@[simp] theorem modPort_trigs (s : State) (p : Port) (f : PortSt → PortSt) : (s.modPort p f).trigs = s.trigs   := (rfl)
@[simp] theorem modPort_ops (s : State) (p : Port) (f : PortSt → PortSt) : (s.modPort p f).ops = s.ops   := (rfl)
@[simp] theorem modPort_ctxs (s : State) (p : Port) (f : PortSt → PortSt) : (s.modPort p f).ctxs = s.ctxs   := (rfl)
@[simp] theorem modPort_uses (s : State) (p : Port) (f : PortSt → PortSt) : (s.modPort p f).uses = s.uses   := (rfl)
@[simp] theorem modPort_xfers (s : State) (p : Port) (f : PortSt → PortSt) : (s.modPort p f).xfers = s.xfers   := (rfl)
@[simp] theorem modPort_walks (s : State) (p : Port) (f : PortSt → PortSt) : (s.modPort p f).walks = s.walks   := (rfl)
@[simp] theorem modPort_xl (s : State) (p : Port) (f : PortSt → PortSt) : (s.modPort p f).xl = s.xl   := (rfl)
@[simp] theorem modPort_invals (s : State) (p : Port) (f : PortSt → PortSt) : (s.modPort p f).invals = s.invals   := (rfl)
@[simp] theorem modPort_mes (s : State) (p : Port) (f : PortSt → PortSt) : (s.modPort p f).mes = s.mes   := (rfl)
@[simp] theorem modPort_ifl (s : State) (p : Port) (f : PortSt → PortSt) : (s.modPort p f).ifl = s.ifl   := (rfl)
@[simp] theorem modPort_tfl (s : State) (p : Port) (f : PortSt → PortSt) : (s.modPort p f).tfl = s.tfl   := (rfl)
@[simp] theorem modPort_hatoms (s : State) (p : Port) (f : PortSt → PortSt) : (s.modPort p f).hatoms = s.hatoms   := (rfl)
@[simp] theorem modPort_inject (s : State) (p : Port) (f : PortSt → PortSt) : (s.modPort p f).inject = s.inject   := (rfl)
@[simp] theorem modPort_eject (s : State) (p : Port) (f : PortSt → PortSt) : (s.modPort p f).eject = s.eject   := (rfl)
@[simp] theorem modPort_toInit (s : State) (p : Port) (f : PortSt → PortSt) : (s.modPort p f).toInit = s.toInit   := (rfl)
@[simp] theorem modPort_due (s : State) (p : Port) (f : PortSt → PortSt) : (s.modPort p f).due = s.due   := (rfl)
@[simp] theorem modPort_posts (s : State) (p : Port) (f : PortSt → PortSt) : (s.modPort p f).posts = s.posts   := (rfl)
@[simp] theorem modPort_todo (s : State) (p : Port) (f : PortSt → PortSt) : (s.modPort p f).todo = s.todo   := (rfl)
@[simp] theorem modPort_groups (s : State) (p : Port) (f : PortSt → PortSt) : (s.modPort p f).groups = s.groups   := (rfl)
@[simp] theorem modPort_insts (s : State) (p : Port) (f : PortSt → PortSt) : (s.modPort p f).insts = s.insts   := (rfl)
@[simp] theorem modPort_collUp (s : State) (p : Port) (f : PortSt → PortSt) : (s.modPort p f).collUp = s.collUp   := (rfl)
@[simp] theorem modPort_collDown (s : State) (p : Port) (f : PortSt → PortSt) : (s.modPort p f).collDown = s.collDown   := (rfl)
@[simp] theorem modPort_engOff (s : State) (p : Port) (f : PortSt → PortSt) : (s.modPort p f).engOff = s.engOff   := (rfl)
@[simp] theorem modPort_locks (s : State) (p : Port) (f : PortSt → PortSt) : (s.modPort p f).locks = s.locks   := (rfl)
@[simp] theorem modPort_tmWrote (s : State) (p : Port) (f : PortSt → PortSt) : (s.modPort p f).tmWrote = s.tmWrote   := (rfl)
@[simp] theorem modPort_grooms (s : State) (p : Port) (f : PortSt → PortSt) : (s.modPort p f).grooms = s.grooms   := (rfl)
@[simp] theorem modPort_runqs (s : State) (p : Port) (f : PortSt → PortSt) : (s.modPort p f).runqs = s.runqs   := (rfl)
@[simp] theorem modPort_lanes (s : State) (p : Port) (f : PortSt → PortSt) : (s.modPort p f).lanes = s.lanes   := (rfl)
@[simp] theorem modPort_cals (s : State) (p : Port) (f : PortSt → PortSt) : (s.modPort p f).cals = s.cals   := (rfl)
@[simp] theorem modPort_hll (s : State) (p : Port) (f : PortSt → PortSt) : (s.modPort p f).hll = s.hll   := (rfl)
@[simp] theorem modPort_worms (s : State) (p : Port) (f : PortSt → PortSt) : (s.modPort p f).worms = s.worms   := (rfl)
@[simp] theorem modPort_epochSeen (s : State) (p : Port) (f : PortSt → PortSt) : (s.modPort p f).epochSeen = s.epochSeen   := (rfl)
@[simp] theorem modPort_waits (s : State) (p : Port) (f : PortSt → PortSt) : (s.modPort p f).waits = s.waits   := (rfl)
@[simp] theorem modPort_newBank (s : State) (p : Port) (f : PortSt → PortSt) : (s.modPort p f).newBank = s.newBank   := (rfl)
@[simp] theorem modPort_oldBank (s : State) (p : Port) (f : PortSt → PortSt) : (s.modPort p f).oldBank = s.oldBank   := (rfl)
@[simp] theorem modPort_loadedEpoch (s : State) (p : Port) (f : PortSt → PortSt) : (s.modPort p f).loadedEpoch = s.loadedEpoch   := (rfl)
@[simp] theorem modPort_retired (s : State) (p : Port) (f : PortSt → PortSt) : (s.modPort p f).retired = s.retired   := (rfl)
@[simp] theorem modPort_holdPort (s : State) (p : Port) (f : PortSt → PortSt) : (s.modPort p f).holdPort = s.holdPort   := (rfl)
@[simp] theorem modPort_holdHost (s : State) (p : Port) (f : PortSt → PortSt) : (s.modPort p f).holdHost = s.holdHost   := (rfl)
@[simp] theorem modPort_holdDom (s : State) (p : Port) (f : PortSt → PortSt) : (s.modPort p f).holdDom = s.holdDom   := (rfl)
@[simp] theorem modPort_holdSince (s : State) (p : Port) (f : PortSt → PortSt) : (s.modPort p f).holdSince = s.holdSince   := (rfl)
@[simp] theorem modPort_goodSince (s : State) (p : Port) (f : PortSt → PortSt) : (s.modPort p f).goodSince = s.goodSince   := (rfl)
@[simp] theorem modPort_ppsAt (s : State) (p : Port) (f : PortSt → PortSt) : (s.modPort p f).ppsAt = s.ppsAt   := (rfl)
@[simp] theorem modPort_ppsNt (s : State) (p : Port) (f : PortSt → PortSt) : (s.modPort p f).ppsNt = s.ppsNt   := (rfl)
@[simp] theorem modPort_armedAt (s : State) (p : Port) (f : PortSt → PortSt) : (s.modPort p f).armedAt = s.armedAt   := (rfl)
@[simp] theorem modPort_thetas (s : State) (p : Port) (f : PortSt → PortSt) : (s.modPort p f).thetas = s.thetas   := (rfl)
@[simp] theorem modPort_ntFrac (s : State) (p : Port) (f : PortSt → PortSt) : (s.modPort p f).ntFrac = s.ntFrac   := (rfl)
@[simp] theorem modPort_ppsOut (s : State) (p : Port) (f : PortSt → PortSt) : (s.modPort p f).ppsOut = s.ppsOut   := (rfl)
@[simp] theorem modPort_runs (s : State) (p : Port) (f : PortSt → PortSt) : (s.modPort p f).runs = s.runs   := (rfl)
@[simp] theorem modPort_pins (s : State) (p : Port) (f : PortSt → PortSt) : (s.modPort p f).pins = s.pins   := (rfl)
@[simp] theorem modPort_flash (s : State) (p : Port) (f : PortSt → PortSt) : (s.modPort p f).flash = s.flash   := (rfl)
@[simp] theorem modPort_fuses (s : State) (p : Port) (f : PortSt → PortSt) : (s.modPort p f).fuses = s.fuses   := (rfl)
@[simp] theorem modPort_tack (s : State) (p : Port) (f : PortSt → PortSt) : (s.modPort p f).tack = s.tack   := (rfl)
@[simp] theorem modPort_mbox (s : State) (p : Port) (f : PortSt → PortSt) : (s.modPort p f).mbox = s.mbox   := (rfl)
@[simp] theorem modPort_dir (s : State) (p : Port) (f : PortSt → PortSt) : (s.modPort p f).dir = s.dir   := (rfl)
@[simp] theorem modPort_hints (s : State) (p : Port) (f : PortSt → PortSt) : (s.modPort p f).hints = s.hints   := (rfl)
@[simp] theorem modPort_restart (s : State) (p : Port) (f : PortSt → PortSt) : (s.modPort p f).restart = s.restart   := (rfl)
@[simp] theorem modPort_captures (s : State) (p : Port) (f : PortSt → PortSt) : (s.modPort p f).captures = s.captures   := (rfl)
@[simp] theorem modPort_paceAt (s : State) (p : Port) (f : PortSt → PortSt) : (s.modPort p f).paceAt = s.paceAt   := (rfl)
@[simp] theorem modPort_stewardAt (s : State) (p : Port) (f : PortSt → PortSt) : (s.modPort p f).stewardAt = s.stewardAt   := (rfl)
@[simp] theorem modPort_coreAccs (s : State) (p : Port) (f : PortSt → PortSt) : (s.modPort p f).coreAccs = s.coreAccs   := (rfl)

/-! ### modHl -/

@[simp] theorem modHl_pending (s : State) (h : HLink) (f : HostLl → HostLl) : (s.modHl h f).pending = s.pending   := (rfl)
@[simp] theorem modHl_regs (s : State) (h : HLink) (f : HostLl → HostLl) : (s.modHl h f).regs = s.regs   := (rfl)
@[simp] theorem modHl_hbm (s : State) (h : HLink) (f : HostLl → HostLl) : (s.modHl h f).hbm = s.hbm   := (rfl)
@[simp] theorem modHl_buf (s : State) (h : HLink) (f : HostLl → HostLl) : (s.modHl h f).buf = s.buf   := (rfl)
@[simp] theorem modHl_clk (s : State) (h : HLink) (f : HostLl → HostLl) : (s.modHl h f).clk = s.clk   := (rfl)
@[simp] theorem modHl_nt (s : State) (h : HLink) (f : HostLl → HostLl) : (s.modHl h f).nt = s.nt   := (rfl)
@[simp] theorem modHl_tk (s : State) (h : HLink) (f : HostLl → HostLl) : (s.modHl h f).tk = s.tk   := (rfl)
@[simp] theorem modHl_coreOn (s : State) (h : HLink) (f : HostLl → HostLl) : (s.modHl h f).coreOn = s.coreOn   := (rfl)
@[simp] theorem modHl_serial (s : State) (h : HLink) (f : HostLl → HostLl) : (s.modHl h f).serial = s.serial   := (rfl)
@[simp] theorem modHl_draws (s : State) (h : HLink) (f : HostLl → HostLl) : (s.modHl h f).draws = s.draws   := (rfl)
@[simp] theorem modHl_frees (s : State) (h : HLink) (f : HostLl → HostLl) : (s.modHl h f).frees = s.frees   := (rfl)
@[simp] theorem modHl_out (s : State) (h : HLink) (f : HostLl → HostLl) : (s.modHl h f).out = s.out   := (rfl)
@[simp] theorem modHl_pmFix (s : State) (h : HLink) (f : HostLl → HostLl) : (s.modHl h f).pmFix = s.pmFix   := (rfl)
@[simp] theorem modHl_pmSeen (s : State) (h : HLink) (f : HostLl → HostLl) : (s.modHl h f).pmSeen = s.pmSeen   := (rfl)
@[simp] theorem modHl_ftPosted (s : State) (h : HLink) (f : HostLl → HostLl) : (s.modHl h f).ftPosted = s.ftPosted   := (rfl)
@[simp] theorem modHl_shares (s : State) (h : HLink) (f : HostLl → HostLl) : (s.modHl h f).shares = s.shares   := (rfl)
@[simp] theorem modHl_ctxEast (s : State) (h : HLink) (f : HostLl → HostLl) : (s.modHl h f).ctxEast = s.ctxEast   := (rfl)
@[simp] theorem modHl_ht (s : State) (h : HLink) (f : HostLl → HostLl) : (s.modHl h f).ht = s.ht   := (rfl)
@[simp] theorem modHl_eqs (s : State) (h : HLink) (f : HostLl → HostLl) : (s.modHl h f).eqs = s.eqs   := (rfl)
@[simp] theorem modHl_cqs (s : State) (h : HLink) (f : HostLl → HostLl) : (s.modHl h f).cqs = s.cqs   := (rfl)
@[simp] theorem modHl_trigs (s : State) (h : HLink) (f : HostLl → HostLl) : (s.modHl h f).trigs = s.trigs   := (rfl)
@[simp] theorem modHl_ops (s : State) (h : HLink) (f : HostLl → HostLl) : (s.modHl h f).ops = s.ops   := (rfl)
@[simp] theorem modHl_ctxs (s : State) (h : HLink) (f : HostLl → HostLl) : (s.modHl h f).ctxs = s.ctxs   := (rfl)
@[simp] theorem modHl_uses (s : State) (h : HLink) (f : HostLl → HostLl) : (s.modHl h f).uses = s.uses   := (rfl)
@[simp] theorem modHl_xfers (s : State) (h : HLink) (f : HostLl → HostLl) : (s.modHl h f).xfers = s.xfers   := (rfl)
@[simp] theorem modHl_walks (s : State) (h : HLink) (f : HostLl → HostLl) : (s.modHl h f).walks = s.walks   := (rfl)
@[simp] theorem modHl_xl (s : State) (h : HLink) (f : HostLl → HostLl) : (s.modHl h f).xl = s.xl   := (rfl)
@[simp] theorem modHl_invals (s : State) (h : HLink) (f : HostLl → HostLl) : (s.modHl h f).invals = s.invals   := (rfl)
@[simp] theorem modHl_mes (s : State) (h : HLink) (f : HostLl → HostLl) : (s.modHl h f).mes = s.mes   := (rfl)
@[simp] theorem modHl_ifl (s : State) (h : HLink) (f : HostLl → HostLl) : (s.modHl h f).ifl = s.ifl   := (rfl)
@[simp] theorem modHl_tfl (s : State) (h : HLink) (f : HostLl → HostLl) : (s.modHl h f).tfl = s.tfl   := (rfl)
@[simp] theorem modHl_hatoms (s : State) (h : HLink) (f : HostLl → HostLl) : (s.modHl h f).hatoms = s.hatoms   := (rfl)
@[simp] theorem modHl_inject (s : State) (h : HLink) (f : HostLl → HostLl) : (s.modHl h f).inject = s.inject   := (rfl)
@[simp] theorem modHl_eject (s : State) (h : HLink) (f : HostLl → HostLl) : (s.modHl h f).eject = s.eject   := (rfl)
@[simp] theorem modHl_toInit (s : State) (h : HLink) (f : HostLl → HostLl) : (s.modHl h f).toInit = s.toInit   := (rfl)
@[simp] theorem modHl_due (s : State) (h : HLink) (f : HostLl → HostLl) : (s.modHl h f).due = s.due   := (rfl)
@[simp] theorem modHl_posts (s : State) (h : HLink) (f : HostLl → HostLl) : (s.modHl h f).posts = s.posts   := (rfl)
@[simp] theorem modHl_todo (s : State) (h : HLink) (f : HostLl → HostLl) : (s.modHl h f).todo = s.todo   := (rfl)
@[simp] theorem modHl_groups (s : State) (h : HLink) (f : HostLl → HostLl) : (s.modHl h f).groups = s.groups   := (rfl)
@[simp] theorem modHl_insts (s : State) (h : HLink) (f : HostLl → HostLl) : (s.modHl h f).insts = s.insts   := (rfl)
@[simp] theorem modHl_collUp (s : State) (h : HLink) (f : HostLl → HostLl) : (s.modHl h f).collUp = s.collUp   := (rfl)
@[simp] theorem modHl_collDown (s : State) (h : HLink) (f : HostLl → HostLl) : (s.modHl h f).collDown = s.collDown   := (rfl)
@[simp] theorem modHl_engOff (s : State) (h : HLink) (f : HostLl → HostLl) : (s.modHl h f).engOff = s.engOff   := (rfl)
@[simp] theorem modHl_locks (s : State) (h : HLink) (f : HostLl → HostLl) : (s.modHl h f).locks = s.locks   := (rfl)
@[simp] theorem modHl_tmWrote (s : State) (h : HLink) (f : HostLl → HostLl) : (s.modHl h f).tmWrote = s.tmWrote   := (rfl)
@[simp] theorem modHl_grooms (s : State) (h : HLink) (f : HostLl → HostLl) : (s.modHl h f).grooms = s.grooms   := (rfl)
@[simp] theorem modHl_runqs (s : State) (h : HLink) (f : HostLl → HostLl) : (s.modHl h f).runqs = s.runqs   := (rfl)
@[simp] theorem modHl_lanes (s : State) (h : HLink) (f : HostLl → HostLl) : (s.modHl h f).lanes = s.lanes   := (rfl)
@[simp] theorem modHl_cals (s : State) (h : HLink) (f : HostLl → HostLl) : (s.modHl h f).cals = s.cals   := (rfl)
@[simp] theorem modHl_ports (s : State) (h : HLink) (f : HostLl → HostLl) : (s.modHl h f).ports = s.ports   := (rfl)
@[simp] theorem modHl_worms (s : State) (h : HLink) (f : HostLl → HostLl) : (s.modHl h f).worms = s.worms   := (rfl)
@[simp] theorem modHl_epochSeen (s : State) (h : HLink) (f : HostLl → HostLl) : (s.modHl h f).epochSeen = s.epochSeen   := (rfl)
@[simp] theorem modHl_waits (s : State) (h : HLink) (f : HostLl → HostLl) : (s.modHl h f).waits = s.waits   := (rfl)
@[simp] theorem modHl_newBank (s : State) (h : HLink) (f : HostLl → HostLl) : (s.modHl h f).newBank = s.newBank   := (rfl)
@[simp] theorem modHl_oldBank (s : State) (h : HLink) (f : HostLl → HostLl) : (s.modHl h f).oldBank = s.oldBank   := (rfl)
@[simp] theorem modHl_loadedEpoch (s : State) (h : HLink) (f : HostLl → HostLl) : (s.modHl h f).loadedEpoch = s.loadedEpoch   := (rfl)
@[simp] theorem modHl_retired (s : State) (h : HLink) (f : HostLl → HostLl) : (s.modHl h f).retired = s.retired   := (rfl)
@[simp] theorem modHl_holdPort (s : State) (h : HLink) (f : HostLl → HostLl) : (s.modHl h f).holdPort = s.holdPort   := (rfl)
@[simp] theorem modHl_holdHost (s : State) (h : HLink) (f : HostLl → HostLl) : (s.modHl h f).holdHost = s.holdHost   := (rfl)
@[simp] theorem modHl_holdDom (s : State) (h : HLink) (f : HostLl → HostLl) : (s.modHl h f).holdDom = s.holdDom   := (rfl)
@[simp] theorem modHl_holdSince (s : State) (h : HLink) (f : HostLl → HostLl) : (s.modHl h f).holdSince = s.holdSince   := (rfl)
@[simp] theorem modHl_goodSince (s : State) (h : HLink) (f : HostLl → HostLl) : (s.modHl h f).goodSince = s.goodSince   := (rfl)
@[simp] theorem modHl_ppsAt (s : State) (h : HLink) (f : HostLl → HostLl) : (s.modHl h f).ppsAt = s.ppsAt   := (rfl)
@[simp] theorem modHl_ppsNt (s : State) (h : HLink) (f : HostLl → HostLl) : (s.modHl h f).ppsNt = s.ppsNt   := (rfl)
@[simp] theorem modHl_armedAt (s : State) (h : HLink) (f : HostLl → HostLl) : (s.modHl h f).armedAt = s.armedAt   := (rfl)
@[simp] theorem modHl_thetas (s : State) (h : HLink) (f : HostLl → HostLl) : (s.modHl h f).thetas = s.thetas   := (rfl)
@[simp] theorem modHl_ntFrac (s : State) (h : HLink) (f : HostLl → HostLl) : (s.modHl h f).ntFrac = s.ntFrac   := (rfl)
@[simp] theorem modHl_ppsOut (s : State) (h : HLink) (f : HostLl → HostLl) : (s.modHl h f).ppsOut = s.ppsOut   := (rfl)
@[simp] theorem modHl_runs (s : State) (h : HLink) (f : HostLl → HostLl) : (s.modHl h f).runs = s.runs   := (rfl)
@[simp] theorem modHl_pins (s : State) (h : HLink) (f : HostLl → HostLl) : (s.modHl h f).pins = s.pins   := (rfl)
@[simp] theorem modHl_flash (s : State) (h : HLink) (f : HostLl → HostLl) : (s.modHl h f).flash = s.flash   := (rfl)
@[simp] theorem modHl_fuses (s : State) (h : HLink) (f : HostLl → HostLl) : (s.modHl h f).fuses = s.fuses   := (rfl)
@[simp] theorem modHl_tack (s : State) (h : HLink) (f : HostLl → HostLl) : (s.modHl h f).tack = s.tack   := (rfl)
@[simp] theorem modHl_mbox (s : State) (h : HLink) (f : HostLl → HostLl) : (s.modHl h f).mbox = s.mbox   := (rfl)
@[simp] theorem modHl_dir (s : State) (h : HLink) (f : HostLl → HostLl) : (s.modHl h f).dir = s.dir   := (rfl)
@[simp] theorem modHl_hints (s : State) (h : HLink) (f : HostLl → HostLl) : (s.modHl h f).hints = s.hints   := (rfl)
@[simp] theorem modHl_restart (s : State) (h : HLink) (f : HostLl → HostLl) : (s.modHl h f).restart = s.restart   := (rfl)
@[simp] theorem modHl_captures (s : State) (h : HLink) (f : HostLl → HostLl) : (s.modHl h f).captures = s.captures   := (rfl)
@[simp] theorem modHl_paceAt (s : State) (h : HLink) (f : HostLl → HostLl) : (s.modHl h f).paceAt = s.paceAt   := (rfl)
@[simp] theorem modHl_stewardAt (s : State) (h : HLink) (f : HostLl → HostLl) : (s.modHl h f).stewardAt = s.stewardAt   := (rfl)
@[simp] theorem modHl_coreAccs (s : State) (h : HLink) (f : HostLl → HostLl) : (s.modHl h f).coreAccs = s.coreAccs   := (rfl)

/-! ### modLock -/

@[simp] theorem modLock_pending (s : State) (d n : Nat) (f : Lock → Lock) : (s.modLock d n f).pending = s.pending   := (rfl)
@[simp] theorem modLock_regs (s : State) (d n : Nat) (f : Lock → Lock) : (s.modLock d n f).regs = s.regs   := (rfl)
@[simp] theorem modLock_hbm (s : State) (d n : Nat) (f : Lock → Lock) : (s.modLock d n f).hbm = s.hbm   := (rfl)
@[simp] theorem modLock_buf (s : State) (d n : Nat) (f : Lock → Lock) : (s.modLock d n f).buf = s.buf   := (rfl)
@[simp] theorem modLock_clk (s : State) (d n : Nat) (f : Lock → Lock) : (s.modLock d n f).clk = s.clk   := (rfl)
@[simp] theorem modLock_nt (s : State) (d n : Nat) (f : Lock → Lock) : (s.modLock d n f).nt = s.nt   := (rfl)
@[simp] theorem modLock_tk (s : State) (d n : Nat) (f : Lock → Lock) : (s.modLock d n f).tk = s.tk   := (rfl)
@[simp] theorem modLock_coreOn (s : State) (d n : Nat) (f : Lock → Lock) : (s.modLock d n f).coreOn = s.coreOn   := (rfl)
@[simp] theorem modLock_serial (s : State) (d n : Nat) (f : Lock → Lock) : (s.modLock d n f).serial = s.serial   := (rfl)
@[simp] theorem modLock_draws (s : State) (d n : Nat) (f : Lock → Lock) : (s.modLock d n f).draws = s.draws   := (rfl)
@[simp] theorem modLock_frees (s : State) (d n : Nat) (f : Lock → Lock) : (s.modLock d n f).frees = s.frees   := (rfl)
@[simp] theorem modLock_out (s : State) (d n : Nat) (f : Lock → Lock) : (s.modLock d n f).out = s.out   := (rfl)
@[simp] theorem modLock_pmFix (s : State) (d n : Nat) (f : Lock → Lock) : (s.modLock d n f).pmFix = s.pmFix   := (rfl)
@[simp] theorem modLock_pmSeen (s : State) (d n : Nat) (f : Lock → Lock) : (s.modLock d n f).pmSeen = s.pmSeen   := (rfl)
@[simp] theorem modLock_ftPosted (s : State) (d n : Nat) (f : Lock → Lock) : (s.modLock d n f).ftPosted = s.ftPosted   := (rfl)
@[simp] theorem modLock_shares (s : State) (d n : Nat) (f : Lock → Lock) : (s.modLock d n f).shares = s.shares   := (rfl)
@[simp] theorem modLock_ctxEast (s : State) (d n : Nat) (f : Lock → Lock) : (s.modLock d n f).ctxEast = s.ctxEast   := (rfl)
@[simp] theorem modLock_ht (s : State) (d n : Nat) (f : Lock → Lock) : (s.modLock d n f).ht = s.ht   := (rfl)
@[simp] theorem modLock_eqs (s : State) (d n : Nat) (f : Lock → Lock) : (s.modLock d n f).eqs = s.eqs   := (rfl)
@[simp] theorem modLock_cqs (s : State) (d n : Nat) (f : Lock → Lock) : (s.modLock d n f).cqs = s.cqs   := (rfl)
@[simp] theorem modLock_trigs (s : State) (d n : Nat) (f : Lock → Lock) : (s.modLock d n f).trigs = s.trigs   := (rfl)
@[simp] theorem modLock_ops (s : State) (d n : Nat) (f : Lock → Lock) : (s.modLock d n f).ops = s.ops   := (rfl)
@[simp] theorem modLock_ctxs (s : State) (d n : Nat) (f : Lock → Lock) : (s.modLock d n f).ctxs = s.ctxs   := (rfl)
@[simp] theorem modLock_uses (s : State) (d n : Nat) (f : Lock → Lock) : (s.modLock d n f).uses = s.uses   := (rfl)
@[simp] theorem modLock_xfers (s : State) (d n : Nat) (f : Lock → Lock) : (s.modLock d n f).xfers = s.xfers   := (rfl)
@[simp] theorem modLock_walks (s : State) (d n : Nat) (f : Lock → Lock) : (s.modLock d n f).walks = s.walks   := (rfl)
@[simp] theorem modLock_xl (s : State) (d n : Nat) (f : Lock → Lock) : (s.modLock d n f).xl = s.xl   := (rfl)
@[simp] theorem modLock_invals (s : State) (d n : Nat) (f : Lock → Lock) : (s.modLock d n f).invals = s.invals   := (rfl)
@[simp] theorem modLock_mes (s : State) (d n : Nat) (f : Lock → Lock) : (s.modLock d n f).mes = s.mes   := (rfl)
@[simp] theorem modLock_ifl (s : State) (d n : Nat) (f : Lock → Lock) : (s.modLock d n f).ifl = s.ifl   := (rfl)
@[simp] theorem modLock_tfl (s : State) (d n : Nat) (f : Lock → Lock) : (s.modLock d n f).tfl = s.tfl   := (rfl)
@[simp] theorem modLock_hatoms (s : State) (d n : Nat) (f : Lock → Lock) : (s.modLock d n f).hatoms = s.hatoms   := (rfl)
@[simp] theorem modLock_inject (s : State) (d n : Nat) (f : Lock → Lock) : (s.modLock d n f).inject = s.inject   := (rfl)
@[simp] theorem modLock_eject (s : State) (d n : Nat) (f : Lock → Lock) : (s.modLock d n f).eject = s.eject   := (rfl)
@[simp] theorem modLock_toInit (s : State) (d n : Nat) (f : Lock → Lock) : (s.modLock d n f).toInit = s.toInit   := (rfl)
@[simp] theorem modLock_due (s : State) (d n : Nat) (f : Lock → Lock) : (s.modLock d n f).due = s.due   := (rfl)
@[simp] theorem modLock_posts (s : State) (d n : Nat) (f : Lock → Lock) : (s.modLock d n f).posts = s.posts   := (rfl)
@[simp] theorem modLock_todo (s : State) (d n : Nat) (f : Lock → Lock) : (s.modLock d n f).todo = s.todo   := (rfl)
@[simp] theorem modLock_groups (s : State) (d n : Nat) (f : Lock → Lock) : (s.modLock d n f).groups = s.groups   := (rfl)
@[simp] theorem modLock_insts (s : State) (d n : Nat) (f : Lock → Lock) : (s.modLock d n f).insts = s.insts   := (rfl)
@[simp] theorem modLock_collUp (s : State) (d n : Nat) (f : Lock → Lock) : (s.modLock d n f).collUp = s.collUp   := (rfl)
@[simp] theorem modLock_collDown (s : State) (d n : Nat) (f : Lock → Lock) : (s.modLock d n f).collDown = s.collDown   := (rfl)
@[simp] theorem modLock_engOff (s : State) (d n : Nat) (f : Lock → Lock) : (s.modLock d n f).engOff = s.engOff   := (rfl)
@[simp] theorem modLock_tmWrote (s : State) (d n : Nat) (f : Lock → Lock) : (s.modLock d n f).tmWrote = s.tmWrote   := (rfl)
@[simp] theorem modLock_grooms (s : State) (d n : Nat) (f : Lock → Lock) : (s.modLock d n f).grooms = s.grooms   := (rfl)
@[simp] theorem modLock_runqs (s : State) (d n : Nat) (f : Lock → Lock) : (s.modLock d n f).runqs = s.runqs   := (rfl)
@[simp] theorem modLock_lanes (s : State) (d n : Nat) (f : Lock → Lock) : (s.modLock d n f).lanes = s.lanes   := (rfl)
@[simp] theorem modLock_cals (s : State) (d n : Nat) (f : Lock → Lock) : (s.modLock d n f).cals = s.cals   := (rfl)
@[simp] theorem modLock_ports (s : State) (d n : Nat) (f : Lock → Lock) : (s.modLock d n f).ports = s.ports   := (rfl)
@[simp] theorem modLock_hll (s : State) (d n : Nat) (f : Lock → Lock) : (s.modLock d n f).hll = s.hll   := (rfl)
@[simp] theorem modLock_worms (s : State) (d n : Nat) (f : Lock → Lock) : (s.modLock d n f).worms = s.worms   := (rfl)
@[simp] theorem modLock_epochSeen (s : State) (d n : Nat) (f : Lock → Lock) : (s.modLock d n f).epochSeen = s.epochSeen   := (rfl)
@[simp] theorem modLock_waits (s : State) (d n : Nat) (f : Lock → Lock) : (s.modLock d n f).waits = s.waits   := (rfl)
@[simp] theorem modLock_newBank (s : State) (d n : Nat) (f : Lock → Lock) : (s.modLock d n f).newBank = s.newBank   := (rfl)
@[simp] theorem modLock_oldBank (s : State) (d n : Nat) (f : Lock → Lock) : (s.modLock d n f).oldBank = s.oldBank   := (rfl)
@[simp] theorem modLock_loadedEpoch (s : State) (d n : Nat) (f : Lock → Lock) : (s.modLock d n f).loadedEpoch = s.loadedEpoch   := (rfl)
@[simp] theorem modLock_retired (s : State) (d n : Nat) (f : Lock → Lock) : (s.modLock d n f).retired = s.retired   := (rfl)
@[simp] theorem modLock_holdPort (s : State) (d n : Nat) (f : Lock → Lock) : (s.modLock d n f).holdPort = s.holdPort   := (rfl)
@[simp] theorem modLock_holdHost (s : State) (d n : Nat) (f : Lock → Lock) : (s.modLock d n f).holdHost = s.holdHost   := (rfl)
@[simp] theorem modLock_holdDom (s : State) (d n : Nat) (f : Lock → Lock) : (s.modLock d n f).holdDom = s.holdDom   := (rfl)
@[simp] theorem modLock_holdSince (s : State) (d n : Nat) (f : Lock → Lock) : (s.modLock d n f).holdSince = s.holdSince   := (rfl)
@[simp] theorem modLock_goodSince (s : State) (d n : Nat) (f : Lock → Lock) : (s.modLock d n f).goodSince = s.goodSince   := (rfl)
@[simp] theorem modLock_ppsAt (s : State) (d n : Nat) (f : Lock → Lock) : (s.modLock d n f).ppsAt = s.ppsAt   := (rfl)
@[simp] theorem modLock_ppsNt (s : State) (d n : Nat) (f : Lock → Lock) : (s.modLock d n f).ppsNt = s.ppsNt   := (rfl)
@[simp] theorem modLock_armedAt (s : State) (d n : Nat) (f : Lock → Lock) : (s.modLock d n f).armedAt = s.armedAt   := (rfl)
@[simp] theorem modLock_thetas (s : State) (d n : Nat) (f : Lock → Lock) : (s.modLock d n f).thetas = s.thetas   := (rfl)
@[simp] theorem modLock_ntFrac (s : State) (d n : Nat) (f : Lock → Lock) : (s.modLock d n f).ntFrac = s.ntFrac   := (rfl)
@[simp] theorem modLock_ppsOut (s : State) (d n : Nat) (f : Lock → Lock) : (s.modLock d n f).ppsOut = s.ppsOut   := (rfl)
@[simp] theorem modLock_runs (s : State) (d n : Nat) (f : Lock → Lock) : (s.modLock d n f).runs = s.runs   := (rfl)
@[simp] theorem modLock_pins (s : State) (d n : Nat) (f : Lock → Lock) : (s.modLock d n f).pins = s.pins   := (rfl)
@[simp] theorem modLock_flash (s : State) (d n : Nat) (f : Lock → Lock) : (s.modLock d n f).flash = s.flash   := (rfl)
@[simp] theorem modLock_fuses (s : State) (d n : Nat) (f : Lock → Lock) : (s.modLock d n f).fuses = s.fuses   := (rfl)
@[simp] theorem modLock_tack (s : State) (d n : Nat) (f : Lock → Lock) : (s.modLock d n f).tack = s.tack   := (rfl)
@[simp] theorem modLock_mbox (s : State) (d n : Nat) (f : Lock → Lock) : (s.modLock d n f).mbox = s.mbox   := (rfl)
@[simp] theorem modLock_dir (s : State) (d n : Nat) (f : Lock → Lock) : (s.modLock d n f).dir = s.dir   := (rfl)
@[simp] theorem modLock_hints (s : State) (d n : Nat) (f : Lock → Lock) : (s.modLock d n f).hints = s.hints   := (rfl)
@[simp] theorem modLock_restart (s : State) (d n : Nat) (f : Lock → Lock) : (s.modLock d n f).restart = s.restart   := (rfl)
@[simp] theorem modLock_captures (s : State) (d n : Nat) (f : Lock → Lock) : (s.modLock d n f).captures = s.captures   := (rfl)
@[simp] theorem modLock_paceAt (s : State) (d n : Nat) (f : Lock → Lock) : (s.modLock d n f).paceAt = s.paceAt   := (rfl)
@[simp] theorem modLock_stewardAt (s : State) (d n : Nat) (f : Lock → Lock) : (s.modLock d n f).stewardAt = s.stewardAt   := (rfl)
@[simp] theorem modLock_coreAccs (s : State) (d n : Nat) (f : Lock → Lock) : (s.modLock d n f).coreAccs = s.coreAccs   := (rfl)

/-! ### modGroom -/

@[simp] theorem modGroom_pending (s : State) (g : GroomId) (f : Groom → Groom) : (s.modGroom g f).pending = s.pending   := (rfl)
@[simp] theorem modGroom_regs (s : State) (g : GroomId) (f : Groom → Groom) : (s.modGroom g f).regs = s.regs   := (rfl)
@[simp] theorem modGroom_hbm (s : State) (g : GroomId) (f : Groom → Groom) : (s.modGroom g f).hbm = s.hbm   := (rfl)
@[simp] theorem modGroom_buf (s : State) (g : GroomId) (f : Groom → Groom) : (s.modGroom g f).buf = s.buf   := (rfl)
@[simp] theorem modGroom_clk (s : State) (g : GroomId) (f : Groom → Groom) : (s.modGroom g f).clk = s.clk   := (rfl)
@[simp] theorem modGroom_nt (s : State) (g : GroomId) (f : Groom → Groom) : (s.modGroom g f).nt = s.nt   := (rfl)
@[simp] theorem modGroom_tk (s : State) (g : GroomId) (f : Groom → Groom) : (s.modGroom g f).tk = s.tk   := (rfl)
@[simp] theorem modGroom_coreOn (s : State) (g : GroomId) (f : Groom → Groom) : (s.modGroom g f).coreOn = s.coreOn   := (rfl)
@[simp] theorem modGroom_serial (s : State) (g : GroomId) (f : Groom → Groom) : (s.modGroom g f).serial = s.serial   := (rfl)
@[simp] theorem modGroom_draws (s : State) (g : GroomId) (f : Groom → Groom) : (s.modGroom g f).draws = s.draws   := (rfl)
@[simp] theorem modGroom_frees (s : State) (g : GroomId) (f : Groom → Groom) : (s.modGroom g f).frees = s.frees   := (rfl)
@[simp] theorem modGroom_out (s : State) (g : GroomId) (f : Groom → Groom) : (s.modGroom g f).out = s.out   := (rfl)
@[simp] theorem modGroom_pmFix (s : State) (g : GroomId) (f : Groom → Groom) : (s.modGroom g f).pmFix = s.pmFix   := (rfl)
@[simp] theorem modGroom_pmSeen (s : State) (g : GroomId) (f : Groom → Groom) : (s.modGroom g f).pmSeen = s.pmSeen   := (rfl)
@[simp] theorem modGroom_ftPosted (s : State) (g : GroomId) (f : Groom → Groom) : (s.modGroom g f).ftPosted = s.ftPosted   := (rfl)
@[simp] theorem modGroom_shares (s : State) (g : GroomId) (f : Groom → Groom) : (s.modGroom g f).shares = s.shares   := (rfl)
@[simp] theorem modGroom_ctxEast (s : State) (g : GroomId) (f : Groom → Groom) : (s.modGroom g f).ctxEast = s.ctxEast   := (rfl)
@[simp] theorem modGroom_ht (s : State) (g : GroomId) (f : Groom → Groom) : (s.modGroom g f).ht = s.ht   := (rfl)
@[simp] theorem modGroom_eqs (s : State) (g : GroomId) (f : Groom → Groom) : (s.modGroom g f).eqs = s.eqs   := (rfl)
@[simp] theorem modGroom_cqs (s : State) (g : GroomId) (f : Groom → Groom) : (s.modGroom g f).cqs = s.cqs   := (rfl)
@[simp] theorem modGroom_trigs (s : State) (g : GroomId) (f : Groom → Groom) : (s.modGroom g f).trigs = s.trigs   := (rfl)
@[simp] theorem modGroom_ops (s : State) (g : GroomId) (f : Groom → Groom) : (s.modGroom g f).ops = s.ops   := (rfl)
@[simp] theorem modGroom_ctxs (s : State) (g : GroomId) (f : Groom → Groom) : (s.modGroom g f).ctxs = s.ctxs   := (rfl)
@[simp] theorem modGroom_uses (s : State) (g : GroomId) (f : Groom → Groom) : (s.modGroom g f).uses = s.uses   := (rfl)
@[simp] theorem modGroom_xfers (s : State) (g : GroomId) (f : Groom → Groom) : (s.modGroom g f).xfers = s.xfers   := (rfl)
@[simp] theorem modGroom_walks (s : State) (g : GroomId) (f : Groom → Groom) : (s.modGroom g f).walks = s.walks   := (rfl)
@[simp] theorem modGroom_xl (s : State) (g : GroomId) (f : Groom → Groom) : (s.modGroom g f).xl = s.xl   := (rfl)
@[simp] theorem modGroom_invals (s : State) (g : GroomId) (f : Groom → Groom) : (s.modGroom g f).invals = s.invals   := (rfl)
@[simp] theorem modGroom_mes (s : State) (g : GroomId) (f : Groom → Groom) : (s.modGroom g f).mes = s.mes   := (rfl)
@[simp] theorem modGroom_ifl (s : State) (g : GroomId) (f : Groom → Groom) : (s.modGroom g f).ifl = s.ifl   := (rfl)
@[simp] theorem modGroom_tfl (s : State) (g : GroomId) (f : Groom → Groom) : (s.modGroom g f).tfl = s.tfl   := (rfl)
@[simp] theorem modGroom_hatoms (s : State) (g : GroomId) (f : Groom → Groom) : (s.modGroom g f).hatoms = s.hatoms   := (rfl)
@[simp] theorem modGroom_inject (s : State) (g : GroomId) (f : Groom → Groom) : (s.modGroom g f).inject = s.inject   := (rfl)
@[simp] theorem modGroom_eject (s : State) (g : GroomId) (f : Groom → Groom) : (s.modGroom g f).eject = s.eject   := (rfl)
@[simp] theorem modGroom_toInit (s : State) (g : GroomId) (f : Groom → Groom) : (s.modGroom g f).toInit = s.toInit   := (rfl)
@[simp] theorem modGroom_due (s : State) (g : GroomId) (f : Groom → Groom) : (s.modGroom g f).due = s.due   := (rfl)
@[simp] theorem modGroom_posts (s : State) (g : GroomId) (f : Groom → Groom) : (s.modGroom g f).posts = s.posts   := (rfl)
@[simp] theorem modGroom_todo (s : State) (g : GroomId) (f : Groom → Groom) : (s.modGroom g f).todo = s.todo   := (rfl)
@[simp] theorem modGroom_groups (s : State) (g : GroomId) (f : Groom → Groom) : (s.modGroom g f).groups = s.groups   := (rfl)
@[simp] theorem modGroom_insts (s : State) (g : GroomId) (f : Groom → Groom) : (s.modGroom g f).insts = s.insts   := (rfl)
@[simp] theorem modGroom_collUp (s : State) (g : GroomId) (f : Groom → Groom) : (s.modGroom g f).collUp = s.collUp   := (rfl)
@[simp] theorem modGroom_collDown (s : State) (g : GroomId) (f : Groom → Groom) : (s.modGroom g f).collDown = s.collDown   := (rfl)
@[simp] theorem modGroom_engOff (s : State) (g : GroomId) (f : Groom → Groom) : (s.modGroom g f).engOff = s.engOff   := (rfl)
@[simp] theorem modGroom_locks (s : State) (g : GroomId) (f : Groom → Groom) : (s.modGroom g f).locks = s.locks   := (rfl)
@[simp] theorem modGroom_tmWrote (s : State) (g : GroomId) (f : Groom → Groom) : (s.modGroom g f).tmWrote = s.tmWrote   := (rfl)
@[simp] theorem modGroom_runqs (s : State) (g : GroomId) (f : Groom → Groom) : (s.modGroom g f).runqs = s.runqs   := (rfl)
@[simp] theorem modGroom_lanes (s : State) (g : GroomId) (f : Groom → Groom) : (s.modGroom g f).lanes = s.lanes   := (rfl)
@[simp] theorem modGroom_cals (s : State) (g : GroomId) (f : Groom → Groom) : (s.modGroom g f).cals = s.cals   := (rfl)
@[simp] theorem modGroom_ports (s : State) (g : GroomId) (f : Groom → Groom) : (s.modGroom g f).ports = s.ports   := (rfl)
@[simp] theorem modGroom_hll (s : State) (g : GroomId) (f : Groom → Groom) : (s.modGroom g f).hll = s.hll   := (rfl)
@[simp] theorem modGroom_worms (s : State) (g : GroomId) (f : Groom → Groom) : (s.modGroom g f).worms = s.worms   := (rfl)
@[simp] theorem modGroom_epochSeen (s : State) (g : GroomId) (f : Groom → Groom) : (s.modGroom g f).epochSeen = s.epochSeen   := (rfl)
@[simp] theorem modGroom_waits (s : State) (g : GroomId) (f : Groom → Groom) : (s.modGroom g f).waits = s.waits   := (rfl)
@[simp] theorem modGroom_newBank (s : State) (g : GroomId) (f : Groom → Groom) : (s.modGroom g f).newBank = s.newBank   := (rfl)
@[simp] theorem modGroom_oldBank (s : State) (g : GroomId) (f : Groom → Groom) : (s.modGroom g f).oldBank = s.oldBank   := (rfl)
@[simp] theorem modGroom_loadedEpoch (s : State) (g : GroomId) (f : Groom → Groom) : (s.modGroom g f).loadedEpoch = s.loadedEpoch   := (rfl)
@[simp] theorem modGroom_retired (s : State) (g : GroomId) (f : Groom → Groom) : (s.modGroom g f).retired = s.retired   := (rfl)
@[simp] theorem modGroom_holdPort (s : State) (g : GroomId) (f : Groom → Groom) : (s.modGroom g f).holdPort = s.holdPort   := (rfl)
@[simp] theorem modGroom_holdHost (s : State) (g : GroomId) (f : Groom → Groom) : (s.modGroom g f).holdHost = s.holdHost   := (rfl)
@[simp] theorem modGroom_holdDom (s : State) (g : GroomId) (f : Groom → Groom) : (s.modGroom g f).holdDom = s.holdDom   := (rfl)
@[simp] theorem modGroom_holdSince (s : State) (g : GroomId) (f : Groom → Groom) : (s.modGroom g f).holdSince = s.holdSince   := (rfl)
@[simp] theorem modGroom_goodSince (s : State) (g : GroomId) (f : Groom → Groom) : (s.modGroom g f).goodSince = s.goodSince   := (rfl)
@[simp] theorem modGroom_ppsAt (s : State) (g : GroomId) (f : Groom → Groom) : (s.modGroom g f).ppsAt = s.ppsAt   := (rfl)
@[simp] theorem modGroom_ppsNt (s : State) (g : GroomId) (f : Groom → Groom) : (s.modGroom g f).ppsNt = s.ppsNt   := (rfl)
@[simp] theorem modGroom_armedAt (s : State) (g : GroomId) (f : Groom → Groom) : (s.modGroom g f).armedAt = s.armedAt   := (rfl)
@[simp] theorem modGroom_thetas (s : State) (g : GroomId) (f : Groom → Groom) : (s.modGroom g f).thetas = s.thetas   := (rfl)
@[simp] theorem modGroom_ntFrac (s : State) (g : GroomId) (f : Groom → Groom) : (s.modGroom g f).ntFrac = s.ntFrac   := (rfl)
@[simp] theorem modGroom_ppsOut (s : State) (g : GroomId) (f : Groom → Groom) : (s.modGroom g f).ppsOut = s.ppsOut   := (rfl)
@[simp] theorem modGroom_runs (s : State) (g : GroomId) (f : Groom → Groom) : (s.modGroom g f).runs = s.runs   := (rfl)
@[simp] theorem modGroom_pins (s : State) (g : GroomId) (f : Groom → Groom) : (s.modGroom g f).pins = s.pins   := (rfl)
@[simp] theorem modGroom_flash (s : State) (g : GroomId) (f : Groom → Groom) : (s.modGroom g f).flash = s.flash   := (rfl)
@[simp] theorem modGroom_fuses (s : State) (g : GroomId) (f : Groom → Groom) : (s.modGroom g f).fuses = s.fuses   := (rfl)
@[simp] theorem modGroom_tack (s : State) (g : GroomId) (f : Groom → Groom) : (s.modGroom g f).tack = s.tack   := (rfl)
@[simp] theorem modGroom_mbox (s : State) (g : GroomId) (f : Groom → Groom) : (s.modGroom g f).mbox = s.mbox   := (rfl)
@[simp] theorem modGroom_dir (s : State) (g : GroomId) (f : Groom → Groom) : (s.modGroom g f).dir = s.dir   := (rfl)
@[simp] theorem modGroom_hints (s : State) (g : GroomId) (f : Groom → Groom) : (s.modGroom g f).hints = s.hints   := (rfl)
@[simp] theorem modGroom_restart (s : State) (g : GroomId) (f : Groom → Groom) : (s.modGroom g f).restart = s.restart   := (rfl)
@[simp] theorem modGroom_captures (s : State) (g : GroomId) (f : Groom → Groom) : (s.modGroom g f).captures = s.captures   := (rfl)
@[simp] theorem modGroom_paceAt (s : State) (g : GroomId) (f : Groom → Groom) : (s.modGroom g f).paceAt = s.paceAt   := (rfl)
@[simp] theorem modGroom_stewardAt (s : State) (g : GroomId) (f : Groom → Groom) : (s.modGroom g f).stewardAt = s.stewardAt   := (rfl)
@[simp] theorem modGroom_coreAccs (s : State) (g : GroomId) (f : Groom → Groom) : (s.modGroom g f).coreAccs = s.coreAccs   := (rfl)

/-! ### modRun -/

@[simp] theorem modRun_pending (s : State) (g : GroomId) (f : Run → Run) : (s.modRun g f).pending = s.pending   := (rfl)
@[simp] theorem modRun_regs (s : State) (g : GroomId) (f : Run → Run) : (s.modRun g f).regs = s.regs   := (rfl)
@[simp] theorem modRun_hbm (s : State) (g : GroomId) (f : Run → Run) : (s.modRun g f).hbm = s.hbm   := (rfl)
@[simp] theorem modRun_buf (s : State) (g : GroomId) (f : Run → Run) : (s.modRun g f).buf = s.buf   := (rfl)
@[simp] theorem modRun_clk (s : State) (g : GroomId) (f : Run → Run) : (s.modRun g f).clk = s.clk   := (rfl)
@[simp] theorem modRun_nt (s : State) (g : GroomId) (f : Run → Run) : (s.modRun g f).nt = s.nt   := (rfl)
@[simp] theorem modRun_tk (s : State) (g : GroomId) (f : Run → Run) : (s.modRun g f).tk = s.tk   := (rfl)
@[simp] theorem modRun_coreOn (s : State) (g : GroomId) (f : Run → Run) : (s.modRun g f).coreOn = s.coreOn   := (rfl)
@[simp] theorem modRun_serial (s : State) (g : GroomId) (f : Run → Run) : (s.modRun g f).serial = s.serial   := (rfl)
@[simp] theorem modRun_draws (s : State) (g : GroomId) (f : Run → Run) : (s.modRun g f).draws = s.draws   := (rfl)
@[simp] theorem modRun_frees (s : State) (g : GroomId) (f : Run → Run) : (s.modRun g f).frees = s.frees   := (rfl)
@[simp] theorem modRun_out (s : State) (g : GroomId) (f : Run → Run) : (s.modRun g f).out = s.out   := (rfl)
@[simp] theorem modRun_pmFix (s : State) (g : GroomId) (f : Run → Run) : (s.modRun g f).pmFix = s.pmFix   := (rfl)
@[simp] theorem modRun_pmSeen (s : State) (g : GroomId) (f : Run → Run) : (s.modRun g f).pmSeen = s.pmSeen   := (rfl)
@[simp] theorem modRun_ftPosted (s : State) (g : GroomId) (f : Run → Run) : (s.modRun g f).ftPosted = s.ftPosted   := (rfl)
@[simp] theorem modRun_shares (s : State) (g : GroomId) (f : Run → Run) : (s.modRun g f).shares = s.shares   := (rfl)
@[simp] theorem modRun_ctxEast (s : State) (g : GroomId) (f : Run → Run) : (s.modRun g f).ctxEast = s.ctxEast   := (rfl)
@[simp] theorem modRun_ht (s : State) (g : GroomId) (f : Run → Run) : (s.modRun g f).ht = s.ht   := (rfl)
@[simp] theorem modRun_eqs (s : State) (g : GroomId) (f : Run → Run) : (s.modRun g f).eqs = s.eqs   := (rfl)
@[simp] theorem modRun_cqs (s : State) (g : GroomId) (f : Run → Run) : (s.modRun g f).cqs = s.cqs   := (rfl)
@[simp] theorem modRun_trigs (s : State) (g : GroomId) (f : Run → Run) : (s.modRun g f).trigs = s.trigs   := (rfl)
@[simp] theorem modRun_ops (s : State) (g : GroomId) (f : Run → Run) : (s.modRun g f).ops = s.ops   := (rfl)
@[simp] theorem modRun_ctxs (s : State) (g : GroomId) (f : Run → Run) : (s.modRun g f).ctxs = s.ctxs   := (rfl)
@[simp] theorem modRun_uses (s : State) (g : GroomId) (f : Run → Run) : (s.modRun g f).uses = s.uses   := (rfl)
@[simp] theorem modRun_xfers (s : State) (g : GroomId) (f : Run → Run) : (s.modRun g f).xfers = s.xfers   := (rfl)
@[simp] theorem modRun_walks (s : State) (g : GroomId) (f : Run → Run) : (s.modRun g f).walks = s.walks   := (rfl)
@[simp] theorem modRun_xl (s : State) (g : GroomId) (f : Run → Run) : (s.modRun g f).xl = s.xl   := (rfl)
@[simp] theorem modRun_invals (s : State) (g : GroomId) (f : Run → Run) : (s.modRun g f).invals = s.invals   := (rfl)
@[simp] theorem modRun_mes (s : State) (g : GroomId) (f : Run → Run) : (s.modRun g f).mes = s.mes   := (rfl)
@[simp] theorem modRun_ifl (s : State) (g : GroomId) (f : Run → Run) : (s.modRun g f).ifl = s.ifl   := (rfl)
@[simp] theorem modRun_tfl (s : State) (g : GroomId) (f : Run → Run) : (s.modRun g f).tfl = s.tfl   := (rfl)
@[simp] theorem modRun_hatoms (s : State) (g : GroomId) (f : Run → Run) : (s.modRun g f).hatoms = s.hatoms   := (rfl)
@[simp] theorem modRun_inject (s : State) (g : GroomId) (f : Run → Run) : (s.modRun g f).inject = s.inject   := (rfl)
@[simp] theorem modRun_eject (s : State) (g : GroomId) (f : Run → Run) : (s.modRun g f).eject = s.eject   := (rfl)
@[simp] theorem modRun_toInit (s : State) (g : GroomId) (f : Run → Run) : (s.modRun g f).toInit = s.toInit   := (rfl)
@[simp] theorem modRun_due (s : State) (g : GroomId) (f : Run → Run) : (s.modRun g f).due = s.due   := (rfl)
@[simp] theorem modRun_posts (s : State) (g : GroomId) (f : Run → Run) : (s.modRun g f).posts = s.posts   := (rfl)
@[simp] theorem modRun_todo (s : State) (g : GroomId) (f : Run → Run) : (s.modRun g f).todo = s.todo   := (rfl)
@[simp] theorem modRun_groups (s : State) (g : GroomId) (f : Run → Run) : (s.modRun g f).groups = s.groups   := (rfl)
@[simp] theorem modRun_insts (s : State) (g : GroomId) (f : Run → Run) : (s.modRun g f).insts = s.insts   := (rfl)
@[simp] theorem modRun_collUp (s : State) (g : GroomId) (f : Run → Run) : (s.modRun g f).collUp = s.collUp   := (rfl)
@[simp] theorem modRun_collDown (s : State) (g : GroomId) (f : Run → Run) : (s.modRun g f).collDown = s.collDown   := (rfl)
@[simp] theorem modRun_engOff (s : State) (g : GroomId) (f : Run → Run) : (s.modRun g f).engOff = s.engOff   := (rfl)
@[simp] theorem modRun_locks (s : State) (g : GroomId) (f : Run → Run) : (s.modRun g f).locks = s.locks   := (rfl)
@[simp] theorem modRun_tmWrote (s : State) (g : GroomId) (f : Run → Run) : (s.modRun g f).tmWrote = s.tmWrote   := (rfl)
@[simp] theorem modRun_runqs (s : State) (g : GroomId) (f : Run → Run) : (s.modRun g f).runqs = s.runqs   := (rfl)
@[simp] theorem modRun_lanes (s : State) (g : GroomId) (f : Run → Run) : (s.modRun g f).lanes = s.lanes   := (rfl)
@[simp] theorem modRun_cals (s : State) (g : GroomId) (f : Run → Run) : (s.modRun g f).cals = s.cals   := (rfl)
@[simp] theorem modRun_ports (s : State) (g : GroomId) (f : Run → Run) : (s.modRun g f).ports = s.ports   := (rfl)
@[simp] theorem modRun_hll (s : State) (g : GroomId) (f : Run → Run) : (s.modRun g f).hll = s.hll   := (rfl)
@[simp] theorem modRun_worms (s : State) (g : GroomId) (f : Run → Run) : (s.modRun g f).worms = s.worms   := (rfl)
@[simp] theorem modRun_epochSeen (s : State) (g : GroomId) (f : Run → Run) : (s.modRun g f).epochSeen = s.epochSeen   := (rfl)
@[simp] theorem modRun_waits (s : State) (g : GroomId) (f : Run → Run) : (s.modRun g f).waits = s.waits   := (rfl)
@[simp] theorem modRun_newBank (s : State) (g : GroomId) (f : Run → Run) : (s.modRun g f).newBank = s.newBank   := (rfl)
@[simp] theorem modRun_oldBank (s : State) (g : GroomId) (f : Run → Run) : (s.modRun g f).oldBank = s.oldBank   := (rfl)
@[simp] theorem modRun_loadedEpoch (s : State) (g : GroomId) (f : Run → Run) : (s.modRun g f).loadedEpoch = s.loadedEpoch   := (rfl)
@[simp] theorem modRun_retired (s : State) (g : GroomId) (f : Run → Run) : (s.modRun g f).retired = s.retired   := (rfl)
@[simp] theorem modRun_holdPort (s : State) (g : GroomId) (f : Run → Run) : (s.modRun g f).holdPort = s.holdPort   := (rfl)
@[simp] theorem modRun_holdHost (s : State) (g : GroomId) (f : Run → Run) : (s.modRun g f).holdHost = s.holdHost   := (rfl)
@[simp] theorem modRun_holdDom (s : State) (g : GroomId) (f : Run → Run) : (s.modRun g f).holdDom = s.holdDom   := (rfl)
@[simp] theorem modRun_holdSince (s : State) (g : GroomId) (f : Run → Run) : (s.modRun g f).holdSince = s.holdSince   := (rfl)
@[simp] theorem modRun_goodSince (s : State) (g : GroomId) (f : Run → Run) : (s.modRun g f).goodSince = s.goodSince   := (rfl)
@[simp] theorem modRun_ppsAt (s : State) (g : GroomId) (f : Run → Run) : (s.modRun g f).ppsAt = s.ppsAt   := (rfl)
@[simp] theorem modRun_ppsNt (s : State) (g : GroomId) (f : Run → Run) : (s.modRun g f).ppsNt = s.ppsNt   := (rfl)
@[simp] theorem modRun_armedAt (s : State) (g : GroomId) (f : Run → Run) : (s.modRun g f).armedAt = s.armedAt   := (rfl)
@[simp] theorem modRun_thetas (s : State) (g : GroomId) (f : Run → Run) : (s.modRun g f).thetas = s.thetas   := (rfl)
@[simp] theorem modRun_ntFrac (s : State) (g : GroomId) (f : Run → Run) : (s.modRun g f).ntFrac = s.ntFrac   := (rfl)
@[simp] theorem modRun_ppsOut (s : State) (g : GroomId) (f : Run → Run) : (s.modRun g f).ppsOut = s.ppsOut   := (rfl)
@[simp] theorem modRun_runs (s : State) (g : GroomId) (f : Run → Run) : (s.modRun g f).runs = s.runs   := (rfl)
@[simp] theorem modRun_pins (s : State) (g : GroomId) (f : Run → Run) : (s.modRun g f).pins = s.pins   := (rfl)
@[simp] theorem modRun_flash (s : State) (g : GroomId) (f : Run → Run) : (s.modRun g f).flash = s.flash   := (rfl)
@[simp] theorem modRun_fuses (s : State) (g : GroomId) (f : Run → Run) : (s.modRun g f).fuses = s.fuses   := (rfl)
@[simp] theorem modRun_tack (s : State) (g : GroomId) (f : Run → Run) : (s.modRun g f).tack = s.tack   := (rfl)
@[simp] theorem modRun_mbox (s : State) (g : GroomId) (f : Run → Run) : (s.modRun g f).mbox = s.mbox   := (rfl)
@[simp] theorem modRun_dir (s : State) (g : GroomId) (f : Run → Run) : (s.modRun g f).dir = s.dir   := (rfl)
@[simp] theorem modRun_hints (s : State) (g : GroomId) (f : Run → Run) : (s.modRun g f).hints = s.hints   := (rfl)
@[simp] theorem modRun_restart (s : State) (g : GroomId) (f : Run → Run) : (s.modRun g f).restart = s.restart   := (rfl)
@[simp] theorem modRun_captures (s : State) (g : GroomId) (f : Run → Run) : (s.modRun g f).captures = s.captures   := (rfl)
@[simp] theorem modRun_paceAt (s : State) (g : GroomId) (f : Run → Run) : (s.modRun g f).paceAt = s.paceAt   := (rfl)
@[simp] theorem modRun_stewardAt (s : State) (g : GroomId) (f : Run → Run) : (s.modRun g f).stewardAt = s.stewardAt   := (rfl)
@[simp] theorem modRun_coreAccs (s : State) (g : GroomId) (f : Run → Run) : (s.modRun g f).coreAccs = s.coreAccs   := (rfl)

/-! ### modTack -/

@[simp] theorem modTack_pending (s : State) (f : Tack → Tack) : (s.modTack f).pending = s.pending   := (rfl)
@[simp] theorem modTack_regs (s : State) (f : Tack → Tack) : (s.modTack f).regs = s.regs   := (rfl)
@[simp] theorem modTack_hbm (s : State) (f : Tack → Tack) : (s.modTack f).hbm = s.hbm   := (rfl)
@[simp] theorem modTack_buf (s : State) (f : Tack → Tack) : (s.modTack f).buf = s.buf   := (rfl)
@[simp] theorem modTack_clk (s : State) (f : Tack → Tack) : (s.modTack f).clk = s.clk   := (rfl)
@[simp] theorem modTack_nt (s : State) (f : Tack → Tack) : (s.modTack f).nt = s.nt   := (rfl)
@[simp] theorem modTack_tk (s : State) (f : Tack → Tack) : (s.modTack f).tk = s.tk   := (rfl)
@[simp] theorem modTack_coreOn (s : State) (f : Tack → Tack) : (s.modTack f).coreOn = s.coreOn   := (rfl)
@[simp] theorem modTack_serial (s : State) (f : Tack → Tack) : (s.modTack f).serial = s.serial   := (rfl)
@[simp] theorem modTack_draws (s : State) (f : Tack → Tack) : (s.modTack f).draws = s.draws   := (rfl)
@[simp] theorem modTack_frees (s : State) (f : Tack → Tack) : (s.modTack f).frees = s.frees   := (rfl)
@[simp] theorem modTack_out (s : State) (f : Tack → Tack) : (s.modTack f).out = s.out   := (rfl)
@[simp] theorem modTack_pmFix (s : State) (f : Tack → Tack) : (s.modTack f).pmFix = s.pmFix   := (rfl)
@[simp] theorem modTack_pmSeen (s : State) (f : Tack → Tack) : (s.modTack f).pmSeen = s.pmSeen   := (rfl)
@[simp] theorem modTack_ftPosted (s : State) (f : Tack → Tack) : (s.modTack f).ftPosted = s.ftPosted   := (rfl)
@[simp] theorem modTack_shares (s : State) (f : Tack → Tack) : (s.modTack f).shares = s.shares   := (rfl)
@[simp] theorem modTack_ctxEast (s : State) (f : Tack → Tack) : (s.modTack f).ctxEast = s.ctxEast   := (rfl)
@[simp] theorem modTack_ht (s : State) (f : Tack → Tack) : (s.modTack f).ht = s.ht   := (rfl)
@[simp] theorem modTack_eqs (s : State) (f : Tack → Tack) : (s.modTack f).eqs = s.eqs   := (rfl)
@[simp] theorem modTack_cqs (s : State) (f : Tack → Tack) : (s.modTack f).cqs = s.cqs   := (rfl)
@[simp] theorem modTack_trigs (s : State) (f : Tack → Tack) : (s.modTack f).trigs = s.trigs   := (rfl)
@[simp] theorem modTack_ops (s : State) (f : Tack → Tack) : (s.modTack f).ops = s.ops   := (rfl)
@[simp] theorem modTack_ctxs (s : State) (f : Tack → Tack) : (s.modTack f).ctxs = s.ctxs   := (rfl)
@[simp] theorem modTack_uses (s : State) (f : Tack → Tack) : (s.modTack f).uses = s.uses   := (rfl)
@[simp] theorem modTack_xfers (s : State) (f : Tack → Tack) : (s.modTack f).xfers = s.xfers   := (rfl)
@[simp] theorem modTack_walks (s : State) (f : Tack → Tack) : (s.modTack f).walks = s.walks   := (rfl)
@[simp] theorem modTack_xl (s : State) (f : Tack → Tack) : (s.modTack f).xl = s.xl   := (rfl)
@[simp] theorem modTack_invals (s : State) (f : Tack → Tack) : (s.modTack f).invals = s.invals   := (rfl)
@[simp] theorem modTack_mes (s : State) (f : Tack → Tack) : (s.modTack f).mes = s.mes   := (rfl)
@[simp] theorem modTack_ifl (s : State) (f : Tack → Tack) : (s.modTack f).ifl = s.ifl   := (rfl)
@[simp] theorem modTack_tfl (s : State) (f : Tack → Tack) : (s.modTack f).tfl = s.tfl   := (rfl)
@[simp] theorem modTack_hatoms (s : State) (f : Tack → Tack) : (s.modTack f).hatoms = s.hatoms   := (rfl)
@[simp] theorem modTack_inject (s : State) (f : Tack → Tack) : (s.modTack f).inject = s.inject   := (rfl)
@[simp] theorem modTack_eject (s : State) (f : Tack → Tack) : (s.modTack f).eject = s.eject   := (rfl)
@[simp] theorem modTack_toInit (s : State) (f : Tack → Tack) : (s.modTack f).toInit = s.toInit   := (rfl)
@[simp] theorem modTack_due (s : State) (f : Tack → Tack) : (s.modTack f).due = s.due   := (rfl)
@[simp] theorem modTack_posts (s : State) (f : Tack → Tack) : (s.modTack f).posts = s.posts   := (rfl)
@[simp] theorem modTack_todo (s : State) (f : Tack → Tack) : (s.modTack f).todo = s.todo   := (rfl)
@[simp] theorem modTack_groups (s : State) (f : Tack → Tack) : (s.modTack f).groups = s.groups   := (rfl)
@[simp] theorem modTack_insts (s : State) (f : Tack → Tack) : (s.modTack f).insts = s.insts   := (rfl)
@[simp] theorem modTack_collUp (s : State) (f : Tack → Tack) : (s.modTack f).collUp = s.collUp   := (rfl)
@[simp] theorem modTack_collDown (s : State) (f : Tack → Tack) : (s.modTack f).collDown = s.collDown   := (rfl)
@[simp] theorem modTack_engOff (s : State) (f : Tack → Tack) : (s.modTack f).engOff = s.engOff   := (rfl)
@[simp] theorem modTack_locks (s : State) (f : Tack → Tack) : (s.modTack f).locks = s.locks   := (rfl)
@[simp] theorem modTack_tmWrote (s : State) (f : Tack → Tack) : (s.modTack f).tmWrote = s.tmWrote   := (rfl)
@[simp] theorem modTack_grooms (s : State) (f : Tack → Tack) : (s.modTack f).grooms = s.grooms   := (rfl)
@[simp] theorem modTack_runqs (s : State) (f : Tack → Tack) : (s.modTack f).runqs = s.runqs   := (rfl)
@[simp] theorem modTack_lanes (s : State) (f : Tack → Tack) : (s.modTack f).lanes = s.lanes   := (rfl)
@[simp] theorem modTack_cals (s : State) (f : Tack → Tack) : (s.modTack f).cals = s.cals   := (rfl)
@[simp] theorem modTack_ports (s : State) (f : Tack → Tack) : (s.modTack f).ports = s.ports   := (rfl)
@[simp] theorem modTack_hll (s : State) (f : Tack → Tack) : (s.modTack f).hll = s.hll   := (rfl)
@[simp] theorem modTack_worms (s : State) (f : Tack → Tack) : (s.modTack f).worms = s.worms   := (rfl)
@[simp] theorem modTack_epochSeen (s : State) (f : Tack → Tack) : (s.modTack f).epochSeen = s.epochSeen   := (rfl)
@[simp] theorem modTack_waits (s : State) (f : Tack → Tack) : (s.modTack f).waits = s.waits   := (rfl)
@[simp] theorem modTack_newBank (s : State) (f : Tack → Tack) : (s.modTack f).newBank = s.newBank   := (rfl)
@[simp] theorem modTack_oldBank (s : State) (f : Tack → Tack) : (s.modTack f).oldBank = s.oldBank   := (rfl)
@[simp] theorem modTack_loadedEpoch (s : State) (f : Tack → Tack) : (s.modTack f).loadedEpoch = s.loadedEpoch   := (rfl)
@[simp] theorem modTack_retired (s : State) (f : Tack → Tack) : (s.modTack f).retired = s.retired   := (rfl)
@[simp] theorem modTack_holdPort (s : State) (f : Tack → Tack) : (s.modTack f).holdPort = s.holdPort   := (rfl)
@[simp] theorem modTack_holdHost (s : State) (f : Tack → Tack) : (s.modTack f).holdHost = s.holdHost   := (rfl)
@[simp] theorem modTack_holdDom (s : State) (f : Tack → Tack) : (s.modTack f).holdDom = s.holdDom   := (rfl)
@[simp] theorem modTack_holdSince (s : State) (f : Tack → Tack) : (s.modTack f).holdSince = s.holdSince   := (rfl)
@[simp] theorem modTack_goodSince (s : State) (f : Tack → Tack) : (s.modTack f).goodSince = s.goodSince   := (rfl)
@[simp] theorem modTack_ppsAt (s : State) (f : Tack → Tack) : (s.modTack f).ppsAt = s.ppsAt   := (rfl)
@[simp] theorem modTack_ppsNt (s : State) (f : Tack → Tack) : (s.modTack f).ppsNt = s.ppsNt   := (rfl)
@[simp] theorem modTack_armedAt (s : State) (f : Tack → Tack) : (s.modTack f).armedAt = s.armedAt   := (rfl)
@[simp] theorem modTack_thetas (s : State) (f : Tack → Tack) : (s.modTack f).thetas = s.thetas   := (rfl)
@[simp] theorem modTack_ntFrac (s : State) (f : Tack → Tack) : (s.modTack f).ntFrac = s.ntFrac   := (rfl)
@[simp] theorem modTack_ppsOut (s : State) (f : Tack → Tack) : (s.modTack f).ppsOut = s.ppsOut   := (rfl)
@[simp] theorem modTack_runs (s : State) (f : Tack → Tack) : (s.modTack f).runs = s.runs   := (rfl)
@[simp] theorem modTack_pins (s : State) (f : Tack → Tack) : (s.modTack f).pins = s.pins   := (rfl)
@[simp] theorem modTack_flash (s : State) (f : Tack → Tack) : (s.modTack f).flash = s.flash   := (rfl)
@[simp] theorem modTack_fuses (s : State) (f : Tack → Tack) : (s.modTack f).fuses = s.fuses   := (rfl)
@[simp] theorem modTack_mbox (s : State) (f : Tack → Tack) : (s.modTack f).mbox = s.mbox   := (rfl)
@[simp] theorem modTack_dir (s : State) (f : Tack → Tack) : (s.modTack f).dir = s.dir   := (rfl)
@[simp] theorem modTack_hints (s : State) (f : Tack → Tack) : (s.modTack f).hints = s.hints   := (rfl)
@[simp] theorem modTack_restart (s : State) (f : Tack → Tack) : (s.modTack f).restart = s.restart   := (rfl)
@[simp] theorem modTack_captures (s : State) (f : Tack → Tack) : (s.modTack f).captures = s.captures   := (rfl)
@[simp] theorem modTack_paceAt (s : State) (f : Tack → Tack) : (s.modTack f).paceAt = s.paceAt   := (rfl)
@[simp] theorem modTack_stewardAt (s : State) (f : Tack → Tack) : (s.modTack f).stewardAt = s.stewardAt   := (rfl)
@[simp] theorem modTack_coreAccs (s : State) (f : Tack → Tack) : (s.modTack f).coreAccs = s.coreAccs   := (rfl)

/-! ### modFlash -/

@[simp] theorem modFlash_pending (s : State) (f : Flash → Flash) : (s.modFlash f).pending = s.pending   := (rfl)
@[simp] theorem modFlash_regs (s : State) (f : Flash → Flash) : (s.modFlash f).regs = s.regs   := (rfl)
@[simp] theorem modFlash_hbm (s : State) (f : Flash → Flash) : (s.modFlash f).hbm = s.hbm   := (rfl)
@[simp] theorem modFlash_buf (s : State) (f : Flash → Flash) : (s.modFlash f).buf = s.buf   := (rfl)
@[simp] theorem modFlash_clk (s : State) (f : Flash → Flash) : (s.modFlash f).clk = s.clk   := (rfl)
@[simp] theorem modFlash_nt (s : State) (f : Flash → Flash) : (s.modFlash f).nt = s.nt   := (rfl)
@[simp] theorem modFlash_tk (s : State) (f : Flash → Flash) : (s.modFlash f).tk = s.tk   := (rfl)
@[simp] theorem modFlash_coreOn (s : State) (f : Flash → Flash) : (s.modFlash f).coreOn = s.coreOn   := (rfl)
@[simp] theorem modFlash_serial (s : State) (f : Flash → Flash) : (s.modFlash f).serial = s.serial   := (rfl)
@[simp] theorem modFlash_draws (s : State) (f : Flash → Flash) : (s.modFlash f).draws = s.draws   := (rfl)
@[simp] theorem modFlash_frees (s : State) (f : Flash → Flash) : (s.modFlash f).frees = s.frees   := (rfl)
@[simp] theorem modFlash_out (s : State) (f : Flash → Flash) : (s.modFlash f).out = s.out   := (rfl)
@[simp] theorem modFlash_pmFix (s : State) (f : Flash → Flash) : (s.modFlash f).pmFix = s.pmFix   := (rfl)
@[simp] theorem modFlash_pmSeen (s : State) (f : Flash → Flash) : (s.modFlash f).pmSeen = s.pmSeen   := (rfl)
@[simp] theorem modFlash_ftPosted (s : State) (f : Flash → Flash) : (s.modFlash f).ftPosted = s.ftPosted   := (rfl)
@[simp] theorem modFlash_shares (s : State) (f : Flash → Flash) : (s.modFlash f).shares = s.shares   := (rfl)
@[simp] theorem modFlash_ctxEast (s : State) (f : Flash → Flash) : (s.modFlash f).ctxEast = s.ctxEast   := (rfl)
@[simp] theorem modFlash_ht (s : State) (f : Flash → Flash) : (s.modFlash f).ht = s.ht   := (rfl)
@[simp] theorem modFlash_eqs (s : State) (f : Flash → Flash) : (s.modFlash f).eqs = s.eqs   := (rfl)
@[simp] theorem modFlash_cqs (s : State) (f : Flash → Flash) : (s.modFlash f).cqs = s.cqs   := (rfl)
@[simp] theorem modFlash_trigs (s : State) (f : Flash → Flash) : (s.modFlash f).trigs = s.trigs   := (rfl)
@[simp] theorem modFlash_ops (s : State) (f : Flash → Flash) : (s.modFlash f).ops = s.ops   := (rfl)
@[simp] theorem modFlash_ctxs (s : State) (f : Flash → Flash) : (s.modFlash f).ctxs = s.ctxs   := (rfl)
@[simp] theorem modFlash_uses (s : State) (f : Flash → Flash) : (s.modFlash f).uses = s.uses   := (rfl)
@[simp] theorem modFlash_xfers (s : State) (f : Flash → Flash) : (s.modFlash f).xfers = s.xfers   := (rfl)
@[simp] theorem modFlash_walks (s : State) (f : Flash → Flash) : (s.modFlash f).walks = s.walks   := (rfl)
@[simp] theorem modFlash_xl (s : State) (f : Flash → Flash) : (s.modFlash f).xl = s.xl   := (rfl)
@[simp] theorem modFlash_invals (s : State) (f : Flash → Flash) : (s.modFlash f).invals = s.invals   := (rfl)
@[simp] theorem modFlash_mes (s : State) (f : Flash → Flash) : (s.modFlash f).mes = s.mes   := (rfl)
@[simp] theorem modFlash_ifl (s : State) (f : Flash → Flash) : (s.modFlash f).ifl = s.ifl   := (rfl)
@[simp] theorem modFlash_tfl (s : State) (f : Flash → Flash) : (s.modFlash f).tfl = s.tfl   := (rfl)
@[simp] theorem modFlash_hatoms (s : State) (f : Flash → Flash) : (s.modFlash f).hatoms = s.hatoms   := (rfl)
@[simp] theorem modFlash_inject (s : State) (f : Flash → Flash) : (s.modFlash f).inject = s.inject   := (rfl)
@[simp] theorem modFlash_eject (s : State) (f : Flash → Flash) : (s.modFlash f).eject = s.eject   := (rfl)
@[simp] theorem modFlash_toInit (s : State) (f : Flash → Flash) : (s.modFlash f).toInit = s.toInit   := (rfl)
@[simp] theorem modFlash_due (s : State) (f : Flash → Flash) : (s.modFlash f).due = s.due   := (rfl)
@[simp] theorem modFlash_posts (s : State) (f : Flash → Flash) : (s.modFlash f).posts = s.posts   := (rfl)
@[simp] theorem modFlash_todo (s : State) (f : Flash → Flash) : (s.modFlash f).todo = s.todo   := (rfl)
@[simp] theorem modFlash_groups (s : State) (f : Flash → Flash) : (s.modFlash f).groups = s.groups   := (rfl)
@[simp] theorem modFlash_insts (s : State) (f : Flash → Flash) : (s.modFlash f).insts = s.insts   := (rfl)
@[simp] theorem modFlash_collUp (s : State) (f : Flash → Flash) : (s.modFlash f).collUp = s.collUp   := (rfl)
@[simp] theorem modFlash_collDown (s : State) (f : Flash → Flash) : (s.modFlash f).collDown = s.collDown   := (rfl)
@[simp] theorem modFlash_engOff (s : State) (f : Flash → Flash) : (s.modFlash f).engOff = s.engOff   := (rfl)
@[simp] theorem modFlash_locks (s : State) (f : Flash → Flash) : (s.modFlash f).locks = s.locks   := (rfl)
@[simp] theorem modFlash_tmWrote (s : State) (f : Flash → Flash) : (s.modFlash f).tmWrote = s.tmWrote   := (rfl)
@[simp] theorem modFlash_grooms (s : State) (f : Flash → Flash) : (s.modFlash f).grooms = s.grooms   := (rfl)
@[simp] theorem modFlash_runqs (s : State) (f : Flash → Flash) : (s.modFlash f).runqs = s.runqs   := (rfl)
@[simp] theorem modFlash_lanes (s : State) (f : Flash → Flash) : (s.modFlash f).lanes = s.lanes   := (rfl)
@[simp] theorem modFlash_cals (s : State) (f : Flash → Flash) : (s.modFlash f).cals = s.cals   := (rfl)
@[simp] theorem modFlash_ports (s : State) (f : Flash → Flash) : (s.modFlash f).ports = s.ports   := (rfl)
@[simp] theorem modFlash_hll (s : State) (f : Flash → Flash) : (s.modFlash f).hll = s.hll   := (rfl)
@[simp] theorem modFlash_worms (s : State) (f : Flash → Flash) : (s.modFlash f).worms = s.worms   := (rfl)
@[simp] theorem modFlash_epochSeen (s : State) (f : Flash → Flash) : (s.modFlash f).epochSeen = s.epochSeen   := (rfl)
@[simp] theorem modFlash_waits (s : State) (f : Flash → Flash) : (s.modFlash f).waits = s.waits   := (rfl)
@[simp] theorem modFlash_newBank (s : State) (f : Flash → Flash) : (s.modFlash f).newBank = s.newBank   := (rfl)
@[simp] theorem modFlash_oldBank (s : State) (f : Flash → Flash) : (s.modFlash f).oldBank = s.oldBank   := (rfl)
@[simp] theorem modFlash_loadedEpoch (s : State) (f : Flash → Flash) : (s.modFlash f).loadedEpoch = s.loadedEpoch   := (rfl)
@[simp] theorem modFlash_retired (s : State) (f : Flash → Flash) : (s.modFlash f).retired = s.retired   := (rfl)
@[simp] theorem modFlash_holdPort (s : State) (f : Flash → Flash) : (s.modFlash f).holdPort = s.holdPort   := (rfl)
@[simp] theorem modFlash_holdHost (s : State) (f : Flash → Flash) : (s.modFlash f).holdHost = s.holdHost   := (rfl)
@[simp] theorem modFlash_holdDom (s : State) (f : Flash → Flash) : (s.modFlash f).holdDom = s.holdDom   := (rfl)
@[simp] theorem modFlash_holdSince (s : State) (f : Flash → Flash) : (s.modFlash f).holdSince = s.holdSince   := (rfl)
@[simp] theorem modFlash_goodSince (s : State) (f : Flash → Flash) : (s.modFlash f).goodSince = s.goodSince   := (rfl)
@[simp] theorem modFlash_ppsAt (s : State) (f : Flash → Flash) : (s.modFlash f).ppsAt = s.ppsAt   := (rfl)
@[simp] theorem modFlash_ppsNt (s : State) (f : Flash → Flash) : (s.modFlash f).ppsNt = s.ppsNt   := (rfl)
@[simp] theorem modFlash_armedAt (s : State) (f : Flash → Flash) : (s.modFlash f).armedAt = s.armedAt   := (rfl)
@[simp] theorem modFlash_thetas (s : State) (f : Flash → Flash) : (s.modFlash f).thetas = s.thetas   := (rfl)
@[simp] theorem modFlash_ntFrac (s : State) (f : Flash → Flash) : (s.modFlash f).ntFrac = s.ntFrac   := (rfl)
@[simp] theorem modFlash_ppsOut (s : State) (f : Flash → Flash) : (s.modFlash f).ppsOut = s.ppsOut   := (rfl)
@[simp] theorem modFlash_runs (s : State) (f : Flash → Flash) : (s.modFlash f).runs = s.runs   := (rfl)
@[simp] theorem modFlash_pins (s : State) (f : Flash → Flash) : (s.modFlash f).pins = s.pins   := (rfl)
@[simp] theorem modFlash_fuses (s : State) (f : Flash → Flash) : (s.modFlash f).fuses = s.fuses   := (rfl)
@[simp] theorem modFlash_tack (s : State) (f : Flash → Flash) : (s.modFlash f).tack = s.tack   := (rfl)
@[simp] theorem modFlash_mbox (s : State) (f : Flash → Flash) : (s.modFlash f).mbox = s.mbox   := (rfl)
@[simp] theorem modFlash_dir (s : State) (f : Flash → Flash) : (s.modFlash f).dir = s.dir   := (rfl)
@[simp] theorem modFlash_hints (s : State) (f : Flash → Flash) : (s.modFlash f).hints = s.hints   := (rfl)
@[simp] theorem modFlash_restart (s : State) (f : Flash → Flash) : (s.modFlash f).restart = s.restart   := (rfl)
@[simp] theorem modFlash_captures (s : State) (f : Flash → Flash) : (s.modFlash f).captures = s.captures   := (rfl)
@[simp] theorem modFlash_paceAt (s : State) (f : Flash → Flash) : (s.modFlash f).paceAt = s.paceAt   := (rfl)
@[simp] theorem modFlash_stewardAt (s : State) (f : Flash → Flash) : (s.modFlash f).stewardAt = s.stewardAt   := (rfl)
@[simp] theorem modFlash_coreAccs (s : State) (f : Flash → Flash) : (s.modFlash f).coreAccs = s.coreAccs   := (rfl)

/-! ### modPins -/

@[simp] theorem modPins_pending (s : State) (f : Pins → Pins) : (s.modPins f).pending = s.pending   := (rfl)
@[simp] theorem modPins_regs (s : State) (f : Pins → Pins) : (s.modPins f).regs = s.regs   := (rfl)
@[simp] theorem modPins_hbm (s : State) (f : Pins → Pins) : (s.modPins f).hbm = s.hbm   := (rfl)
@[simp] theorem modPins_buf (s : State) (f : Pins → Pins) : (s.modPins f).buf = s.buf   := (rfl)
@[simp] theorem modPins_clk (s : State) (f : Pins → Pins) : (s.modPins f).clk = s.clk   := (rfl)
@[simp] theorem modPins_nt (s : State) (f : Pins → Pins) : (s.modPins f).nt = s.nt   := (rfl)
@[simp] theorem modPins_tk (s : State) (f : Pins → Pins) : (s.modPins f).tk = s.tk   := (rfl)
@[simp] theorem modPins_coreOn (s : State) (f : Pins → Pins) : (s.modPins f).coreOn = s.coreOn   := (rfl)
@[simp] theorem modPins_serial (s : State) (f : Pins → Pins) : (s.modPins f).serial = s.serial   := (rfl)
@[simp] theorem modPins_draws (s : State) (f : Pins → Pins) : (s.modPins f).draws = s.draws   := (rfl)
@[simp] theorem modPins_frees (s : State) (f : Pins → Pins) : (s.modPins f).frees = s.frees   := (rfl)
@[simp] theorem modPins_out (s : State) (f : Pins → Pins) : (s.modPins f).out = s.out   := (rfl)
@[simp] theorem modPins_pmFix (s : State) (f : Pins → Pins) : (s.modPins f).pmFix = s.pmFix   := (rfl)
@[simp] theorem modPins_pmSeen (s : State) (f : Pins → Pins) : (s.modPins f).pmSeen = s.pmSeen   := (rfl)
@[simp] theorem modPins_ftPosted (s : State) (f : Pins → Pins) : (s.modPins f).ftPosted = s.ftPosted   := (rfl)
@[simp] theorem modPins_shares (s : State) (f : Pins → Pins) : (s.modPins f).shares = s.shares   := (rfl)
@[simp] theorem modPins_ctxEast (s : State) (f : Pins → Pins) : (s.modPins f).ctxEast = s.ctxEast   := (rfl)
@[simp] theorem modPins_ht (s : State) (f : Pins → Pins) : (s.modPins f).ht = s.ht   := (rfl)
@[simp] theorem modPins_eqs (s : State) (f : Pins → Pins) : (s.modPins f).eqs = s.eqs   := (rfl)
@[simp] theorem modPins_cqs (s : State) (f : Pins → Pins) : (s.modPins f).cqs = s.cqs   := (rfl)
@[simp] theorem modPins_trigs (s : State) (f : Pins → Pins) : (s.modPins f).trigs = s.trigs   := (rfl)
@[simp] theorem modPins_ops (s : State) (f : Pins → Pins) : (s.modPins f).ops = s.ops   := (rfl)
@[simp] theorem modPins_ctxs (s : State) (f : Pins → Pins) : (s.modPins f).ctxs = s.ctxs   := (rfl)
@[simp] theorem modPins_uses (s : State) (f : Pins → Pins) : (s.modPins f).uses = s.uses   := (rfl)
@[simp] theorem modPins_xfers (s : State) (f : Pins → Pins) : (s.modPins f).xfers = s.xfers   := (rfl)
@[simp] theorem modPins_walks (s : State) (f : Pins → Pins) : (s.modPins f).walks = s.walks   := (rfl)
@[simp] theorem modPins_xl (s : State) (f : Pins → Pins) : (s.modPins f).xl = s.xl   := (rfl)
@[simp] theorem modPins_invals (s : State) (f : Pins → Pins) : (s.modPins f).invals = s.invals   := (rfl)
@[simp] theorem modPins_mes (s : State) (f : Pins → Pins) : (s.modPins f).mes = s.mes   := (rfl)
@[simp] theorem modPins_ifl (s : State) (f : Pins → Pins) : (s.modPins f).ifl = s.ifl   := (rfl)
@[simp] theorem modPins_tfl (s : State) (f : Pins → Pins) : (s.modPins f).tfl = s.tfl   := (rfl)
@[simp] theorem modPins_hatoms (s : State) (f : Pins → Pins) : (s.modPins f).hatoms = s.hatoms   := (rfl)
@[simp] theorem modPins_inject (s : State) (f : Pins → Pins) : (s.modPins f).inject = s.inject   := (rfl)
@[simp] theorem modPins_eject (s : State) (f : Pins → Pins) : (s.modPins f).eject = s.eject   := (rfl)
@[simp] theorem modPins_toInit (s : State) (f : Pins → Pins) : (s.modPins f).toInit = s.toInit   := (rfl)
@[simp] theorem modPins_due (s : State) (f : Pins → Pins) : (s.modPins f).due = s.due   := (rfl)
@[simp] theorem modPins_posts (s : State) (f : Pins → Pins) : (s.modPins f).posts = s.posts   := (rfl)
@[simp] theorem modPins_todo (s : State) (f : Pins → Pins) : (s.modPins f).todo = s.todo   := (rfl)
@[simp] theorem modPins_groups (s : State) (f : Pins → Pins) : (s.modPins f).groups = s.groups   := (rfl)
@[simp] theorem modPins_insts (s : State) (f : Pins → Pins) : (s.modPins f).insts = s.insts   := (rfl)
@[simp] theorem modPins_collUp (s : State) (f : Pins → Pins) : (s.modPins f).collUp = s.collUp   := (rfl)
@[simp] theorem modPins_collDown (s : State) (f : Pins → Pins) : (s.modPins f).collDown = s.collDown   := (rfl)
@[simp] theorem modPins_engOff (s : State) (f : Pins → Pins) : (s.modPins f).engOff = s.engOff   := (rfl)
@[simp] theorem modPins_locks (s : State) (f : Pins → Pins) : (s.modPins f).locks = s.locks   := (rfl)
@[simp] theorem modPins_tmWrote (s : State) (f : Pins → Pins) : (s.modPins f).tmWrote = s.tmWrote   := (rfl)
@[simp] theorem modPins_grooms (s : State) (f : Pins → Pins) : (s.modPins f).grooms = s.grooms   := (rfl)
@[simp] theorem modPins_runqs (s : State) (f : Pins → Pins) : (s.modPins f).runqs = s.runqs   := (rfl)
@[simp] theorem modPins_lanes (s : State) (f : Pins → Pins) : (s.modPins f).lanes = s.lanes   := (rfl)
@[simp] theorem modPins_cals (s : State) (f : Pins → Pins) : (s.modPins f).cals = s.cals   := (rfl)
@[simp] theorem modPins_ports (s : State) (f : Pins → Pins) : (s.modPins f).ports = s.ports   := (rfl)
@[simp] theorem modPins_hll (s : State) (f : Pins → Pins) : (s.modPins f).hll = s.hll   := (rfl)
@[simp] theorem modPins_worms (s : State) (f : Pins → Pins) : (s.modPins f).worms = s.worms   := (rfl)
@[simp] theorem modPins_epochSeen (s : State) (f : Pins → Pins) : (s.modPins f).epochSeen = s.epochSeen   := (rfl)
@[simp] theorem modPins_waits (s : State) (f : Pins → Pins) : (s.modPins f).waits = s.waits   := (rfl)
@[simp] theorem modPins_newBank (s : State) (f : Pins → Pins) : (s.modPins f).newBank = s.newBank   := (rfl)
@[simp] theorem modPins_oldBank (s : State) (f : Pins → Pins) : (s.modPins f).oldBank = s.oldBank   := (rfl)
@[simp] theorem modPins_loadedEpoch (s : State) (f : Pins → Pins) : (s.modPins f).loadedEpoch = s.loadedEpoch   := (rfl)
@[simp] theorem modPins_retired (s : State) (f : Pins → Pins) : (s.modPins f).retired = s.retired   := (rfl)
@[simp] theorem modPins_holdPort (s : State) (f : Pins → Pins) : (s.modPins f).holdPort = s.holdPort   := (rfl)
@[simp] theorem modPins_holdHost (s : State) (f : Pins → Pins) : (s.modPins f).holdHost = s.holdHost   := (rfl)
@[simp] theorem modPins_holdDom (s : State) (f : Pins → Pins) : (s.modPins f).holdDom = s.holdDom   := (rfl)
@[simp] theorem modPins_holdSince (s : State) (f : Pins → Pins) : (s.modPins f).holdSince = s.holdSince   := (rfl)
@[simp] theorem modPins_goodSince (s : State) (f : Pins → Pins) : (s.modPins f).goodSince = s.goodSince   := (rfl)
@[simp] theorem modPins_ppsAt (s : State) (f : Pins → Pins) : (s.modPins f).ppsAt = s.ppsAt   := (rfl)
@[simp] theorem modPins_ppsNt (s : State) (f : Pins → Pins) : (s.modPins f).ppsNt = s.ppsNt   := (rfl)
@[simp] theorem modPins_armedAt (s : State) (f : Pins → Pins) : (s.modPins f).armedAt = s.armedAt   := (rfl)
@[simp] theorem modPins_thetas (s : State) (f : Pins → Pins) : (s.modPins f).thetas = s.thetas   := (rfl)
@[simp] theorem modPins_ntFrac (s : State) (f : Pins → Pins) : (s.modPins f).ntFrac = s.ntFrac   := (rfl)
@[simp] theorem modPins_ppsOut (s : State) (f : Pins → Pins) : (s.modPins f).ppsOut = s.ppsOut   := (rfl)
@[simp] theorem modPins_runs (s : State) (f : Pins → Pins) : (s.modPins f).runs = s.runs   := (rfl)
@[simp] theorem modPins_flash (s : State) (f : Pins → Pins) : (s.modPins f).flash = s.flash   := (rfl)
@[simp] theorem modPins_fuses (s : State) (f : Pins → Pins) : (s.modPins f).fuses = s.fuses   := (rfl)
@[simp] theorem modPins_tack (s : State) (f : Pins → Pins) : (s.modPins f).tack = s.tack   := (rfl)
@[simp] theorem modPins_mbox (s : State) (f : Pins → Pins) : (s.modPins f).mbox = s.mbox   := (rfl)
@[simp] theorem modPins_dir (s : State) (f : Pins → Pins) : (s.modPins f).dir = s.dir   := (rfl)
@[simp] theorem modPins_hints (s : State) (f : Pins → Pins) : (s.modPins f).hints = s.hints   := (rfl)
@[simp] theorem modPins_restart (s : State) (f : Pins → Pins) : (s.modPins f).restart = s.restart   := (rfl)
@[simp] theorem modPins_captures (s : State) (f : Pins → Pins) : (s.modPins f).captures = s.captures   := (rfl)
@[simp] theorem modPins_paceAt (s : State) (f : Pins → Pins) : (s.modPins f).paceAt = s.paceAt   := (rfl)
@[simp] theorem modPins_stewardAt (s : State) (f : Pins → Pins) : (s.modPins f).stewardAt = s.stewardAt   := (rfl)
@[simp] theorem modPins_coreAccs (s : State) (f : Pins → Pins) : (s.modPins f).coreAccs = s.coreAccs   := (rfl)

/-! ### setMode -/

@[simp] theorem setMode_pending (s : State) (m : Nat) : (s.setMode m).pending = s.pending   := (rfl)
@[simp] theorem setMode_hbm (s : State) (m : Nat) : (s.setMode m).hbm = s.hbm   := (rfl)
@[simp] theorem setMode_buf (s : State) (m : Nat) : (s.setMode m).buf = s.buf   := (rfl)
@[simp] theorem setMode_clk (s : State) (m : Nat) : (s.setMode m).clk = s.clk   := (rfl)
@[simp] theorem setMode_nt (s : State) (m : Nat) : (s.setMode m).nt = s.nt   := (rfl)
@[simp] theorem setMode_tk (s : State) (m : Nat) : (s.setMode m).tk = s.tk   := (rfl)
@[simp] theorem setMode_coreOn (s : State) (m : Nat) : (s.setMode m).coreOn = s.coreOn   := (rfl)
@[simp] theorem setMode_serial (s : State) (m : Nat) : (s.setMode m).serial = s.serial   := (rfl)
@[simp] theorem setMode_draws (s : State) (m : Nat) : (s.setMode m).draws = s.draws   := (rfl)
@[simp] theorem setMode_frees (s : State) (m : Nat) : (s.setMode m).frees = s.frees   := (rfl)
@[simp] theorem setMode_out (s : State) (m : Nat) : (s.setMode m).out = s.out   := (rfl)
@[simp] theorem setMode_pmFix (s : State) (m : Nat) : (s.setMode m).pmFix = s.pmFix   := (rfl)
@[simp] theorem setMode_pmSeen (s : State) (m : Nat) : (s.setMode m).pmSeen = s.pmSeen   := (rfl)
@[simp] theorem setMode_ftPosted (s : State) (m : Nat) : (s.setMode m).ftPosted = s.ftPosted   := (rfl)
@[simp] theorem setMode_shares (s : State) (m : Nat) : (s.setMode m).shares = s.shares   := (rfl)
@[simp] theorem setMode_ctxEast (s : State) (m : Nat) : (s.setMode m).ctxEast = s.ctxEast   := (rfl)
@[simp] theorem setMode_ht (s : State) (m : Nat) : (s.setMode m).ht = s.ht   := (rfl)
@[simp] theorem setMode_eqs (s : State) (m : Nat) : (s.setMode m).eqs = s.eqs   := (rfl)
@[simp] theorem setMode_cqs (s : State) (m : Nat) : (s.setMode m).cqs = s.cqs   := (rfl)
@[simp] theorem setMode_trigs (s : State) (m : Nat) : (s.setMode m).trigs = s.trigs   := (rfl)
@[simp] theorem setMode_ops (s : State) (m : Nat) : (s.setMode m).ops = s.ops   := (rfl)
@[simp] theorem setMode_ctxs (s : State) (m : Nat) : (s.setMode m).ctxs = s.ctxs   := (rfl)
@[simp] theorem setMode_uses (s : State) (m : Nat) : (s.setMode m).uses = s.uses   := (rfl)
@[simp] theorem setMode_xfers (s : State) (m : Nat) : (s.setMode m).xfers = s.xfers   := (rfl)
@[simp] theorem setMode_walks (s : State) (m : Nat) : (s.setMode m).walks = s.walks   := (rfl)
@[simp] theorem setMode_xl (s : State) (m : Nat) : (s.setMode m).xl = s.xl   := (rfl)
@[simp] theorem setMode_invals (s : State) (m : Nat) : (s.setMode m).invals = s.invals   := (rfl)
@[simp] theorem setMode_mes (s : State) (m : Nat) : (s.setMode m).mes = s.mes   := (rfl)
@[simp] theorem setMode_ifl (s : State) (m : Nat) : (s.setMode m).ifl = s.ifl   := (rfl)
@[simp] theorem setMode_tfl (s : State) (m : Nat) : (s.setMode m).tfl = s.tfl   := (rfl)
@[simp] theorem setMode_hatoms (s : State) (m : Nat) : (s.setMode m).hatoms = s.hatoms   := (rfl)
@[simp] theorem setMode_inject (s : State) (m : Nat) : (s.setMode m).inject = s.inject   := (rfl)
@[simp] theorem setMode_eject (s : State) (m : Nat) : (s.setMode m).eject = s.eject   := (rfl)
@[simp] theorem setMode_toInit (s : State) (m : Nat) : (s.setMode m).toInit = s.toInit   := (rfl)
@[simp] theorem setMode_due (s : State) (m : Nat) : (s.setMode m).due = s.due   := (rfl)
@[simp] theorem setMode_posts (s : State) (m : Nat) : (s.setMode m).posts = s.posts   := (rfl)
@[simp] theorem setMode_todo (s : State) (m : Nat) : (s.setMode m).todo = s.todo   := (rfl)
@[simp] theorem setMode_groups (s : State) (m : Nat) : (s.setMode m).groups = s.groups   := (rfl)
@[simp] theorem setMode_insts (s : State) (m : Nat) : (s.setMode m).insts = s.insts   := (rfl)
@[simp] theorem setMode_collUp (s : State) (m : Nat) : (s.setMode m).collUp = s.collUp   := (rfl)
@[simp] theorem setMode_collDown (s : State) (m : Nat) : (s.setMode m).collDown = s.collDown   := (rfl)
@[simp] theorem setMode_engOff (s : State) (m : Nat) : (s.setMode m).engOff = s.engOff   := (rfl)
@[simp] theorem setMode_locks (s : State) (m : Nat) : (s.setMode m).locks = s.locks   := (rfl)
@[simp] theorem setMode_tmWrote (s : State) (m : Nat) : (s.setMode m).tmWrote = s.tmWrote   := (rfl)
@[simp] theorem setMode_grooms (s : State) (m : Nat) : (s.setMode m).grooms = s.grooms   := (rfl)
@[simp] theorem setMode_runqs (s : State) (m : Nat) : (s.setMode m).runqs = s.runqs   := (rfl)
@[simp] theorem setMode_lanes (s : State) (m : Nat) : (s.setMode m).lanes = s.lanes   := (rfl)
@[simp] theorem setMode_cals (s : State) (m : Nat) : (s.setMode m).cals = s.cals   := (rfl)
@[simp] theorem setMode_ports (s : State) (m : Nat) : (s.setMode m).ports = s.ports   := (rfl)
@[simp] theorem setMode_hll (s : State) (m : Nat) : (s.setMode m).hll = s.hll   := (rfl)
@[simp] theorem setMode_worms (s : State) (m : Nat) : (s.setMode m).worms = s.worms   := (rfl)
@[simp] theorem setMode_epochSeen (s : State) (m : Nat) : (s.setMode m).epochSeen = s.epochSeen   := (rfl)
@[simp] theorem setMode_waits (s : State) (m : Nat) : (s.setMode m).waits = s.waits   := (rfl)
@[simp] theorem setMode_newBank (s : State) (m : Nat) : (s.setMode m).newBank = s.newBank   := (rfl)
@[simp] theorem setMode_oldBank (s : State) (m : Nat) : (s.setMode m).oldBank = s.oldBank   := (rfl)
@[simp] theorem setMode_loadedEpoch (s : State) (m : Nat) : (s.setMode m).loadedEpoch = s.loadedEpoch   := (rfl)
@[simp] theorem setMode_retired (s : State) (m : Nat) : (s.setMode m).retired = s.retired   := (rfl)
@[simp] theorem setMode_holdPort (s : State) (m : Nat) : (s.setMode m).holdPort = s.holdPort   := (rfl)
@[simp] theorem setMode_holdHost (s : State) (m : Nat) : (s.setMode m).holdHost = s.holdHost   := (rfl)
@[simp] theorem setMode_holdDom (s : State) (m : Nat) : (s.setMode m).holdDom = s.holdDom   := (rfl)
@[simp] theorem setMode_holdSince (s : State) (m : Nat) : (s.setMode m).holdSince = s.holdSince   := (rfl)
@[simp] theorem setMode_goodSince (s : State) (m : Nat) : (s.setMode m).goodSince = s.goodSince   := (rfl)
@[simp] theorem setMode_ppsAt (s : State) (m : Nat) : (s.setMode m).ppsAt = s.ppsAt   := (rfl)
@[simp] theorem setMode_ppsNt (s : State) (m : Nat) : (s.setMode m).ppsNt = s.ppsNt   := (rfl)
@[simp] theorem setMode_armedAt (s : State) (m : Nat) : (s.setMode m).armedAt = s.armedAt   := (rfl)
@[simp] theorem setMode_thetas (s : State) (m : Nat) : (s.setMode m).thetas = s.thetas   := (rfl)
@[simp] theorem setMode_ntFrac (s : State) (m : Nat) : (s.setMode m).ntFrac = s.ntFrac   := (rfl)
@[simp] theorem setMode_ppsOut (s : State) (m : Nat) : (s.setMode m).ppsOut = s.ppsOut   := (rfl)
@[simp] theorem setMode_runs (s : State) (m : Nat) : (s.setMode m).runs = s.runs   := (rfl)
@[simp] theorem setMode_pins (s : State) (m : Nat) : (s.setMode m).pins = s.pins   := (rfl)
@[simp] theorem setMode_flash (s : State) (m : Nat) : (s.setMode m).flash = s.flash   := (rfl)
@[simp] theorem setMode_fuses (s : State) (m : Nat) : (s.setMode m).fuses = s.fuses   := (rfl)
@[simp] theorem setMode_tack (s : State) (m : Nat) : (s.setMode m).tack = s.tack   := (rfl)
@[simp] theorem setMode_mbox (s : State) (m : Nat) : (s.setMode m).mbox = s.mbox   := (rfl)
@[simp] theorem setMode_dir (s : State) (m : Nat) : (s.setMode m).dir = s.dir   := (rfl)
@[simp] theorem setMode_hints (s : State) (m : Nat) : (s.setMode m).hints = s.hints   := (rfl)
@[simp] theorem setMode_restart (s : State) (m : Nat) : (s.setMode m).restart = s.restart   := (rfl)
@[simp] theorem setMode_captures (s : State) (m : Nat) : (s.setMode m).captures = s.captures   := (rfl)
@[simp] theorem setMode_paceAt (s : State) (m : Nat) : (s.setMode m).paceAt = s.paceAt   := (rfl)
@[simp] theorem setMode_stewardAt (s : State) (m : Nat) : (s.setMode m).stewardAt = s.stewardAt   := (rfl)
@[simp] theorem setMode_coreAccs (s : State) (m : Nat) : (s.setMode m).coreAccs = s.coreAccs   := (rfl)

/-! ### setStep -/

@[simp] theorem setStep_pending (s : State) (n : Nat) : (s.setStep n).pending = s.pending   := (rfl)
@[simp] theorem setStep_hbm (s : State) (n : Nat) : (s.setStep n).hbm = s.hbm   := (rfl)
@[simp] theorem setStep_buf (s : State) (n : Nat) : (s.setStep n).buf = s.buf   := (rfl)
@[simp] theorem setStep_clk (s : State) (n : Nat) : (s.setStep n).clk = s.clk   := (rfl)
@[simp] theorem setStep_nt (s : State) (n : Nat) : (s.setStep n).nt = s.nt   := (rfl)
@[simp] theorem setStep_tk (s : State) (n : Nat) : (s.setStep n).tk = s.tk   := (rfl)
@[simp] theorem setStep_coreOn (s : State) (n : Nat) : (s.setStep n).coreOn = s.coreOn   := (rfl)
@[simp] theorem setStep_serial (s : State) (n : Nat) : (s.setStep n).serial = s.serial   := (rfl)
@[simp] theorem setStep_draws (s : State) (n : Nat) : (s.setStep n).draws = s.draws   := (rfl)
@[simp] theorem setStep_frees (s : State) (n : Nat) : (s.setStep n).frees = s.frees   := (rfl)
@[simp] theorem setStep_out (s : State) (n : Nat) : (s.setStep n).out = s.out   := (rfl)
@[simp] theorem setStep_pmFix (s : State) (n : Nat) : (s.setStep n).pmFix = s.pmFix   := (rfl)
@[simp] theorem setStep_pmSeen (s : State) (n : Nat) : (s.setStep n).pmSeen = s.pmSeen   := (rfl)
@[simp] theorem setStep_ftPosted (s : State) (n : Nat) : (s.setStep n).ftPosted = s.ftPosted   := (rfl)
@[simp] theorem setStep_shares (s : State) (n : Nat) : (s.setStep n).shares = s.shares   := (rfl)
@[simp] theorem setStep_ctxEast (s : State) (n : Nat) : (s.setStep n).ctxEast = s.ctxEast   := (rfl)
@[simp] theorem setStep_ht (s : State) (n : Nat) : (s.setStep n).ht = s.ht   := (rfl)
@[simp] theorem setStep_eqs (s : State) (n : Nat) : (s.setStep n).eqs = s.eqs   := (rfl)
@[simp] theorem setStep_cqs (s : State) (n : Nat) : (s.setStep n).cqs = s.cqs   := (rfl)
@[simp] theorem setStep_trigs (s : State) (n : Nat) : (s.setStep n).trigs = s.trigs   := (rfl)
@[simp] theorem setStep_ops (s : State) (n : Nat) : (s.setStep n).ops = s.ops   := (rfl)
@[simp] theorem setStep_ctxs (s : State) (n : Nat) : (s.setStep n).ctxs = s.ctxs   := (rfl)
@[simp] theorem setStep_uses (s : State) (n : Nat) : (s.setStep n).uses = s.uses   := (rfl)
@[simp] theorem setStep_xfers (s : State) (n : Nat) : (s.setStep n).xfers = s.xfers   := (rfl)
@[simp] theorem setStep_walks (s : State) (n : Nat) : (s.setStep n).walks = s.walks   := (rfl)
@[simp] theorem setStep_xl (s : State) (n : Nat) : (s.setStep n).xl = s.xl   := (rfl)
@[simp] theorem setStep_invals (s : State) (n : Nat) : (s.setStep n).invals = s.invals   := (rfl)
@[simp] theorem setStep_mes (s : State) (n : Nat) : (s.setStep n).mes = s.mes   := (rfl)
@[simp] theorem setStep_ifl (s : State) (n : Nat) : (s.setStep n).ifl = s.ifl   := (rfl)
@[simp] theorem setStep_tfl (s : State) (n : Nat) : (s.setStep n).tfl = s.tfl   := (rfl)
@[simp] theorem setStep_hatoms (s : State) (n : Nat) : (s.setStep n).hatoms = s.hatoms   := (rfl)
@[simp] theorem setStep_inject (s : State) (n : Nat) : (s.setStep n).inject = s.inject   := (rfl)
@[simp] theorem setStep_eject (s : State) (n : Nat) : (s.setStep n).eject = s.eject   := (rfl)
@[simp] theorem setStep_toInit (s : State) (n : Nat) : (s.setStep n).toInit = s.toInit   := (rfl)
@[simp] theorem setStep_due (s : State) (n : Nat) : (s.setStep n).due = s.due   := (rfl)
@[simp] theorem setStep_posts (s : State) (n : Nat) : (s.setStep n).posts = s.posts   := (rfl)
@[simp] theorem setStep_todo (s : State) (n : Nat) : (s.setStep n).todo = s.todo   := (rfl)
@[simp] theorem setStep_groups (s : State) (n : Nat) : (s.setStep n).groups = s.groups   := (rfl)
@[simp] theorem setStep_insts (s : State) (n : Nat) : (s.setStep n).insts = s.insts   := (rfl)
@[simp] theorem setStep_collUp (s : State) (n : Nat) : (s.setStep n).collUp = s.collUp   := (rfl)
@[simp] theorem setStep_collDown (s : State) (n : Nat) : (s.setStep n).collDown = s.collDown   := (rfl)
@[simp] theorem setStep_engOff (s : State) (n : Nat) : (s.setStep n).engOff = s.engOff   := (rfl)
@[simp] theorem setStep_locks (s : State) (n : Nat) : (s.setStep n).locks = s.locks   := (rfl)
@[simp] theorem setStep_tmWrote (s : State) (n : Nat) : (s.setStep n).tmWrote = s.tmWrote   := (rfl)
@[simp] theorem setStep_grooms (s : State) (n : Nat) : (s.setStep n).grooms = s.grooms   := (rfl)
@[simp] theorem setStep_runqs (s : State) (n : Nat) : (s.setStep n).runqs = s.runqs   := (rfl)
@[simp] theorem setStep_lanes (s : State) (n : Nat) : (s.setStep n).lanes = s.lanes   := (rfl)
@[simp] theorem setStep_cals (s : State) (n : Nat) : (s.setStep n).cals = s.cals   := (rfl)
@[simp] theorem setStep_ports (s : State) (n : Nat) : (s.setStep n).ports = s.ports   := (rfl)
@[simp] theorem setStep_hll (s : State) (n : Nat) : (s.setStep n).hll = s.hll   := (rfl)
@[simp] theorem setStep_worms (s : State) (n : Nat) : (s.setStep n).worms = s.worms   := (rfl)
@[simp] theorem setStep_epochSeen (s : State) (n : Nat) : (s.setStep n).epochSeen = s.epochSeen   := (rfl)
@[simp] theorem setStep_waits (s : State) (n : Nat) : (s.setStep n).waits = s.waits   := (rfl)
@[simp] theorem setStep_newBank (s : State) (n : Nat) : (s.setStep n).newBank = s.newBank   := (rfl)
@[simp] theorem setStep_oldBank (s : State) (n : Nat) : (s.setStep n).oldBank = s.oldBank   := (rfl)
@[simp] theorem setStep_loadedEpoch (s : State) (n : Nat) : (s.setStep n).loadedEpoch = s.loadedEpoch   := (rfl)
@[simp] theorem setStep_retired (s : State) (n : Nat) : (s.setStep n).retired = s.retired   := (rfl)
@[simp] theorem setStep_holdPort (s : State) (n : Nat) : (s.setStep n).holdPort = s.holdPort   := (rfl)
@[simp] theorem setStep_holdHost (s : State) (n : Nat) : (s.setStep n).holdHost = s.holdHost   := (rfl)
@[simp] theorem setStep_holdDom (s : State) (n : Nat) : (s.setStep n).holdDom = s.holdDom   := (rfl)
@[simp] theorem setStep_holdSince (s : State) (n : Nat) : (s.setStep n).holdSince = s.holdSince   := (rfl)
@[simp] theorem setStep_goodSince (s : State) (n : Nat) : (s.setStep n).goodSince = s.goodSince   := (rfl)
@[simp] theorem setStep_ppsAt (s : State) (n : Nat) : (s.setStep n).ppsAt = s.ppsAt   := (rfl)
@[simp] theorem setStep_ppsNt (s : State) (n : Nat) : (s.setStep n).ppsNt = s.ppsNt   := (rfl)
@[simp] theorem setStep_armedAt (s : State) (n : Nat) : (s.setStep n).armedAt = s.armedAt   := (rfl)
@[simp] theorem setStep_thetas (s : State) (n : Nat) : (s.setStep n).thetas = s.thetas   := (rfl)
@[simp] theorem setStep_ntFrac (s : State) (n : Nat) : (s.setStep n).ntFrac = s.ntFrac   := (rfl)
@[simp] theorem setStep_ppsOut (s : State) (n : Nat) : (s.setStep n).ppsOut = s.ppsOut   := (rfl)
@[simp] theorem setStep_runs (s : State) (n : Nat) : (s.setStep n).runs = s.runs   := (rfl)
@[simp] theorem setStep_pins (s : State) (n : Nat) : (s.setStep n).pins = s.pins   := (rfl)
@[simp] theorem setStep_flash (s : State) (n : Nat) : (s.setStep n).flash = s.flash   := (rfl)
@[simp] theorem setStep_fuses (s : State) (n : Nat) : (s.setStep n).fuses = s.fuses   := (rfl)
@[simp] theorem setStep_tack (s : State) (n : Nat) : (s.setStep n).tack = s.tack   := (rfl)
@[simp] theorem setStep_mbox (s : State) (n : Nat) : (s.setStep n).mbox = s.mbox   := (rfl)
@[simp] theorem setStep_dir (s : State) (n : Nat) : (s.setStep n).dir = s.dir   := (rfl)
@[simp] theorem setStep_hints (s : State) (n : Nat) : (s.setStep n).hints = s.hints   := (rfl)
@[simp] theorem setStep_restart (s : State) (n : Nat) : (s.setStep n).restart = s.restart   := (rfl)
@[simp] theorem setStep_captures (s : State) (n : Nat) : (s.setStep n).captures = s.captures   := (rfl)
@[simp] theorem setStep_paceAt (s : State) (n : Nat) : (s.setStep n).paceAt = s.paceAt   := (rfl)
@[simp] theorem setStep_stewardAt (s : State) (n : Nat) : (s.setStep n).stewardAt = s.stewardAt   := (rfl)
@[simp] theorem setStep_coreAccs (s : State) (n : Nat) : (s.setStep n).coreAccs = s.coreAccs   := (rfl)

/-! ### showTk -/

@[simp] theorem showTk_pending (s : State) : s.showTk.pending = s.pending := by
  unfold State.showTk
  rw [setReg_pending, wf_pending, wf_pending, wf_pending, wf_pending]
@[simp] theorem showTk_hbm (s : State) : s.showTk.hbm = s.hbm := by
  unfold State.showTk
  rw [setReg_hbm, wf_hbm, wf_hbm, wf_hbm, wf_hbm]
@[simp] theorem showTk_buf (s : State) : s.showTk.buf = s.buf := by
  unfold State.showTk
  rw [setReg_buf, wf_buf, wf_buf, wf_buf, wf_buf]
@[simp] theorem showTk_clk (s : State) : s.showTk.clk = s.clk := by
  unfold State.showTk
  rw [setReg_clk, wf_clk, wf_clk, wf_clk, wf_clk]
@[simp] theorem showTk_nt (s : State) : s.showTk.nt = s.nt := by
  unfold State.showTk
  rw [setReg_nt, wf_nt, wf_nt, wf_nt, wf_nt]
@[simp] theorem showTk_tk (s : State) : s.showTk.tk = s.tk := by
  unfold State.showTk
  rw [setReg_tk, wf_tk, wf_tk, wf_tk, wf_tk]
@[simp] theorem showTk_coreOn (s : State) : s.showTk.coreOn = s.coreOn := by
  unfold State.showTk
  rw [setReg_coreOn, wf_coreOn, wf_coreOn, wf_coreOn, wf_coreOn]
@[simp] theorem showTk_serial (s : State) : s.showTk.serial = s.serial := by
  unfold State.showTk
  rw [setReg_serial, wf_serial, wf_serial, wf_serial, wf_serial]
@[simp] theorem showTk_draws (s : State) : s.showTk.draws = s.draws := by
  unfold State.showTk
  rw [setReg_draws, wf_draws, wf_draws, wf_draws, wf_draws]
@[simp] theorem showTk_frees (s : State) : s.showTk.frees = s.frees := by
  unfold State.showTk
  rw [setReg_frees, wf_frees, wf_frees, wf_frees, wf_frees]
@[simp] theorem showTk_out (s : State) : s.showTk.out = s.out := by
  unfold State.showTk
  rw [setReg_out, wf_out, wf_out, wf_out, wf_out]
@[simp] theorem showTk_pmFix (s : State) : s.showTk.pmFix = s.pmFix := by
  unfold State.showTk
  rw [setReg_pmFix, wf_pmFix, wf_pmFix, wf_pmFix, wf_pmFix]
@[simp] theorem showTk_pmSeen (s : State) : s.showTk.pmSeen = s.pmSeen := by
  unfold State.showTk
  rw [setReg_pmSeen, wf_pmSeen, wf_pmSeen, wf_pmSeen, wf_pmSeen]
@[simp] theorem showTk_ftPosted (s : State) : s.showTk.ftPosted = s.ftPosted := by
  unfold State.showTk
  rw [setReg_ftPosted, wf_ftPosted, wf_ftPosted, wf_ftPosted, wf_ftPosted]
@[simp] theorem showTk_shares (s : State) : s.showTk.shares = s.shares := by
  unfold State.showTk
  rw [setReg_shares, wf_shares, wf_shares, wf_shares, wf_shares]
@[simp] theorem showTk_ctxEast (s : State) : s.showTk.ctxEast = s.ctxEast := by
  unfold State.showTk
  rw [setReg_ctxEast, wf_ctxEast, wf_ctxEast, wf_ctxEast, wf_ctxEast]
@[simp] theorem showTk_ht (s : State) : s.showTk.ht = s.ht := by
  unfold State.showTk
  rw [setReg_ht, wf_ht, wf_ht, wf_ht, wf_ht]
@[simp] theorem showTk_eqs (s : State) : s.showTk.eqs = s.eqs := by
  unfold State.showTk
  rw [setReg_eqs, wf_eqs, wf_eqs, wf_eqs, wf_eqs]
@[simp] theorem showTk_cqs (s : State) : s.showTk.cqs = s.cqs := by
  unfold State.showTk
  rw [setReg_cqs, wf_cqs, wf_cqs, wf_cqs, wf_cqs]
@[simp] theorem showTk_trigs (s : State) : s.showTk.trigs = s.trigs := by
  unfold State.showTk
  rw [setReg_trigs, wf_trigs, wf_trigs, wf_trigs, wf_trigs]
@[simp] theorem showTk_ops (s : State) : s.showTk.ops = s.ops := by
  unfold State.showTk
  rw [setReg_ops, wf_ops, wf_ops, wf_ops, wf_ops]
@[simp] theorem showTk_ctxs (s : State) : s.showTk.ctxs = s.ctxs := by
  unfold State.showTk
  rw [setReg_ctxs, wf_ctxs, wf_ctxs, wf_ctxs, wf_ctxs]
@[simp] theorem showTk_uses (s : State) : s.showTk.uses = s.uses := by
  unfold State.showTk
  rw [setReg_uses, wf_uses, wf_uses, wf_uses, wf_uses]
@[simp] theorem showTk_xfers (s : State) : s.showTk.xfers = s.xfers := by
  unfold State.showTk
  rw [setReg_xfers, wf_xfers, wf_xfers, wf_xfers, wf_xfers]
@[simp] theorem showTk_walks (s : State) : s.showTk.walks = s.walks := by
  unfold State.showTk
  rw [setReg_walks, wf_walks, wf_walks, wf_walks, wf_walks]
@[simp] theorem showTk_xl (s : State) : s.showTk.xl = s.xl := by
  unfold State.showTk
  rw [setReg_xl, wf_xl, wf_xl, wf_xl, wf_xl]
@[simp] theorem showTk_invals (s : State) : s.showTk.invals = s.invals := by
  unfold State.showTk
  rw [setReg_invals, wf_invals, wf_invals, wf_invals, wf_invals]
@[simp] theorem showTk_mes (s : State) : s.showTk.mes = s.mes := by
  unfold State.showTk
  rw [setReg_mes, wf_mes, wf_mes, wf_mes, wf_mes]
@[simp] theorem showTk_ifl (s : State) : s.showTk.ifl = s.ifl := by
  unfold State.showTk
  rw [setReg_ifl, wf_ifl, wf_ifl, wf_ifl, wf_ifl]
@[simp] theorem showTk_tfl (s : State) : s.showTk.tfl = s.tfl := by
  unfold State.showTk
  rw [setReg_tfl, wf_tfl, wf_tfl, wf_tfl, wf_tfl]
@[simp] theorem showTk_hatoms (s : State) : s.showTk.hatoms = s.hatoms := by
  unfold State.showTk
  rw [setReg_hatoms, wf_hatoms, wf_hatoms, wf_hatoms, wf_hatoms]
@[simp] theorem showTk_inject (s : State) : s.showTk.inject = s.inject := by
  unfold State.showTk
  rw [setReg_inject, wf_inject, wf_inject, wf_inject, wf_inject]
@[simp] theorem showTk_eject (s : State) : s.showTk.eject = s.eject := by
  unfold State.showTk
  rw [setReg_eject, wf_eject, wf_eject, wf_eject, wf_eject]
@[simp] theorem showTk_toInit (s : State) : s.showTk.toInit = s.toInit := by
  unfold State.showTk
  rw [setReg_toInit, wf_toInit, wf_toInit, wf_toInit, wf_toInit]
@[simp] theorem showTk_due (s : State) : s.showTk.due = s.due := by
  unfold State.showTk
  rw [setReg_due, wf_due, wf_due, wf_due, wf_due]
@[simp] theorem showTk_posts (s : State) : s.showTk.posts = s.posts := by
  unfold State.showTk
  rw [setReg_posts, wf_posts, wf_posts, wf_posts, wf_posts]
@[simp] theorem showTk_todo (s : State) : s.showTk.todo = s.todo := by
  unfold State.showTk
  rw [setReg_todo, wf_todo, wf_todo, wf_todo, wf_todo]
@[simp] theorem showTk_groups (s : State) : s.showTk.groups = s.groups := by
  unfold State.showTk
  rw [setReg_groups, wf_groups, wf_groups, wf_groups, wf_groups]
@[simp] theorem showTk_insts (s : State) : s.showTk.insts = s.insts := by
  unfold State.showTk
  rw [setReg_insts, wf_insts, wf_insts, wf_insts, wf_insts]
@[simp] theorem showTk_collUp (s : State) : s.showTk.collUp = s.collUp := by
  unfold State.showTk
  rw [setReg_collUp, wf_collUp, wf_collUp, wf_collUp, wf_collUp]
@[simp] theorem showTk_collDown (s : State) : s.showTk.collDown = s.collDown := by
  unfold State.showTk
  rw [setReg_collDown, wf_collDown, wf_collDown, wf_collDown, wf_collDown]
@[simp] theorem showTk_engOff (s : State) : s.showTk.engOff = s.engOff := by
  unfold State.showTk
  rw [setReg_engOff, wf_engOff, wf_engOff, wf_engOff, wf_engOff]
@[simp] theorem showTk_locks (s : State) : s.showTk.locks = s.locks := by
  unfold State.showTk
  rw [setReg_locks, wf_locks, wf_locks, wf_locks, wf_locks]
@[simp] theorem showTk_tmWrote (s : State) : s.showTk.tmWrote = s.tmWrote := by
  unfold State.showTk
  rw [setReg_tmWrote, wf_tmWrote, wf_tmWrote, wf_tmWrote, wf_tmWrote]
@[simp] theorem showTk_grooms (s : State) : s.showTk.grooms = s.grooms := by
  unfold State.showTk
  rw [setReg_grooms, wf_grooms, wf_grooms, wf_grooms, wf_grooms]
@[simp] theorem showTk_runqs (s : State) : s.showTk.runqs = s.runqs := by
  unfold State.showTk
  rw [setReg_runqs, wf_runqs, wf_runqs, wf_runqs, wf_runqs]
@[simp] theorem showTk_lanes (s : State) : s.showTk.lanes = s.lanes := by
  unfold State.showTk
  rw [setReg_lanes, wf_lanes, wf_lanes, wf_lanes, wf_lanes]
@[simp] theorem showTk_cals (s : State) : s.showTk.cals = s.cals := by
  unfold State.showTk
  rw [setReg_cals, wf_cals, wf_cals, wf_cals, wf_cals]
@[simp] theorem showTk_ports (s : State) : s.showTk.ports = s.ports := by
  unfold State.showTk
  rw [setReg_ports, wf_ports, wf_ports, wf_ports, wf_ports]
@[simp] theorem showTk_hll (s : State) : s.showTk.hll = s.hll := by
  unfold State.showTk
  rw [setReg_hll, wf_hll, wf_hll, wf_hll, wf_hll]
@[simp] theorem showTk_worms (s : State) : s.showTk.worms = s.worms := by
  unfold State.showTk
  rw [setReg_worms, wf_worms, wf_worms, wf_worms, wf_worms]
@[simp] theorem showTk_epochSeen (s : State) : s.showTk.epochSeen = s.epochSeen := by
  unfold State.showTk
  rw [setReg_epochSeen, wf_epochSeen, wf_epochSeen, wf_epochSeen, wf_epochSeen]
@[simp] theorem showTk_waits (s : State) : s.showTk.waits = s.waits := by
  unfold State.showTk
  rw [setReg_waits, wf_waits, wf_waits, wf_waits, wf_waits]
@[simp] theorem showTk_newBank (s : State) : s.showTk.newBank = s.newBank := by
  unfold State.showTk
  rw [setReg_newBank, wf_newBank, wf_newBank, wf_newBank, wf_newBank]
@[simp] theorem showTk_oldBank (s : State) : s.showTk.oldBank = s.oldBank := by
  unfold State.showTk
  rw [setReg_oldBank, wf_oldBank, wf_oldBank, wf_oldBank, wf_oldBank]
@[simp] theorem showTk_loadedEpoch (s : State) : s.showTk.loadedEpoch = s.loadedEpoch := by
  unfold State.showTk
  rw [setReg_loadedEpoch, wf_loadedEpoch, wf_loadedEpoch, wf_loadedEpoch, wf_loadedEpoch]
@[simp] theorem showTk_retired (s : State) : s.showTk.retired = s.retired := by
  unfold State.showTk
  rw [setReg_retired, wf_retired, wf_retired, wf_retired, wf_retired]
@[simp] theorem showTk_holdPort (s : State) : s.showTk.holdPort = s.holdPort := by
  unfold State.showTk
  rw [setReg_holdPort, wf_holdPort, wf_holdPort, wf_holdPort, wf_holdPort]
@[simp] theorem showTk_holdHost (s : State) : s.showTk.holdHost = s.holdHost := by
  unfold State.showTk
  rw [setReg_holdHost, wf_holdHost, wf_holdHost, wf_holdHost, wf_holdHost]
@[simp] theorem showTk_holdDom (s : State) : s.showTk.holdDom = s.holdDom := by
  unfold State.showTk
  rw [setReg_holdDom, wf_holdDom, wf_holdDom, wf_holdDom, wf_holdDom]
@[simp] theorem showTk_holdSince (s : State) : s.showTk.holdSince = s.holdSince := by
  unfold State.showTk
  rw [setReg_holdSince, wf_holdSince, wf_holdSince, wf_holdSince, wf_holdSince]
@[simp] theorem showTk_goodSince (s : State) : s.showTk.goodSince = s.goodSince := by
  unfold State.showTk
  rw [setReg_goodSince, wf_goodSince, wf_goodSince, wf_goodSince, wf_goodSince]
@[simp] theorem showTk_ppsAt (s : State) : s.showTk.ppsAt = s.ppsAt := by
  unfold State.showTk
  rw [setReg_ppsAt, wf_ppsAt, wf_ppsAt, wf_ppsAt, wf_ppsAt]
@[simp] theorem showTk_ppsNt (s : State) : s.showTk.ppsNt = s.ppsNt := by
  unfold State.showTk
  rw [setReg_ppsNt, wf_ppsNt, wf_ppsNt, wf_ppsNt, wf_ppsNt]
@[simp] theorem showTk_armedAt (s : State) : s.showTk.armedAt = s.armedAt := by
  unfold State.showTk
  rw [setReg_armedAt, wf_armedAt, wf_armedAt, wf_armedAt, wf_armedAt]
@[simp] theorem showTk_thetas (s : State) : s.showTk.thetas = s.thetas := by
  unfold State.showTk
  rw [setReg_thetas, wf_thetas, wf_thetas, wf_thetas, wf_thetas]
@[simp] theorem showTk_ntFrac (s : State) : s.showTk.ntFrac = s.ntFrac := by
  unfold State.showTk
  rw [setReg_ntFrac, wf_ntFrac, wf_ntFrac, wf_ntFrac, wf_ntFrac]
@[simp] theorem showTk_ppsOut (s : State) : s.showTk.ppsOut = s.ppsOut := by
  unfold State.showTk
  rw [setReg_ppsOut, wf_ppsOut, wf_ppsOut, wf_ppsOut, wf_ppsOut]
@[simp] theorem showTk_runs (s : State) : s.showTk.runs = s.runs := by
  unfold State.showTk
  rw [setReg_runs, wf_runs, wf_runs, wf_runs, wf_runs]
@[simp] theorem showTk_pins (s : State) : s.showTk.pins = s.pins := by
  unfold State.showTk
  rw [setReg_pins, wf_pins, wf_pins, wf_pins, wf_pins]
@[simp] theorem showTk_flash (s : State) : s.showTk.flash = s.flash := by
  unfold State.showTk
  rw [setReg_flash, wf_flash, wf_flash, wf_flash, wf_flash]
@[simp] theorem showTk_fuses (s : State) : s.showTk.fuses = s.fuses := by
  unfold State.showTk
  rw [setReg_fuses, wf_fuses, wf_fuses, wf_fuses, wf_fuses]
@[simp] theorem showTk_tack (s : State) : s.showTk.tack = s.tack := by
  unfold State.showTk
  rw [setReg_tack, wf_tack, wf_tack, wf_tack, wf_tack]
@[simp] theorem showTk_mbox (s : State) : s.showTk.mbox = s.mbox := by
  unfold State.showTk
  rw [setReg_mbox, wf_mbox, wf_mbox, wf_mbox, wf_mbox]
@[simp] theorem showTk_dir (s : State) : s.showTk.dir = s.dir := by
  unfold State.showTk
  rw [setReg_dir, wf_dir, wf_dir, wf_dir, wf_dir]
@[simp] theorem showTk_hints (s : State) : s.showTk.hints = s.hints := by
  unfold State.showTk
  rw [setReg_hints, wf_hints, wf_hints, wf_hints, wf_hints]
@[simp] theorem showTk_restart (s : State) : s.showTk.restart = s.restart := by
  unfold State.showTk
  rw [setReg_restart, wf_restart, wf_restart, wf_restart, wf_restart]
@[simp] theorem showTk_captures (s : State) : s.showTk.captures = s.captures := by
  unfold State.showTk
  rw [setReg_captures, wf_captures, wf_captures, wf_captures, wf_captures]
@[simp] theorem showTk_paceAt (s : State) : s.showTk.paceAt = s.paceAt := by
  unfold State.showTk
  rw [setReg_paceAt, wf_paceAt, wf_paceAt, wf_paceAt, wf_paceAt]
@[simp] theorem showTk_stewardAt (s : State) : s.showTk.stewardAt = s.stewardAt := by
  unfold State.showTk
  rw [setReg_stewardAt, wf_stewardAt, wf_stewardAt, wf_stewardAt, wf_stewardAt]
@[simp] theorem showTk_coreAccs (s : State) : s.showTk.coreAccs = s.coreAccs := by
  unfold State.showTk
  rw [setReg_coreAccs, wf_coreAccs, wf_coreAccs, wf_coreAccs, wf_coreAccs]

end Sys2Proof.Machine
end

