-- ==== Sys2Proof/Laws/Power.lean ====
section
/-! SUPPORT. The Tack Room's mode and step, and what the stages of a start and the ends of main power leave. -/

namespace Sys2Proof.Machine

/-- The mode after it is set. -/
theorem mode_setMode (s : State) (m : Nat) (h : m < 8) : (s.setMode m).mode = m := by
  unfold State.mode State.setMode
  rw [rf_wf_same _ _ _ _ _ (by decide)]
  exact Nat.mod_eq_of_lt h

/-- The step after it is set. -/
theorem step_setStep (s : State) (n : Nat) (h : n < 32) : (s.setStep n).step? = n := by
  unfold State.step? State.setStep
  rw [rf_wf_same _ _ _ _ _ (by decide)]
  exact Nat.mod_eq_of_lt h

/-- Setting the step keeps the mode. -/
@[simp] theorem mode_setStep (s : State) (n : Nat) : (s.setStep n).mode = s.mode :=
  rf_wf_field _ _ _ _ _ _ _ (by decide) (by decide)

/-- Setting the mode keeps the step. -/
@[simp] theorem step_setMode (s : State) (m : Nat) : (s.setMode m).step? = s.step? :=
  rf_wf_field _ _ _ _ _ _ _ (by decide) (by decide)

/-- A register at another address than TK_STATE's leaves the mode. -/
theorem mode_setReg (s : State) (r : Reg) (v : Word) (h : Reg.tkState.addr ≠ r.addr) : (s.setReg r v).mode = s.mode := by
  unfold State.mode State.rf
  rw [reg_setReg_other _ _ _ _ h]

/-- Showing the flash records keeps the mode. -/
@[simp] theorem mode_showTk (s : State) : s.showTk.mode = s.mode := by
  unfold State.showTk
  simp only
  rw [mode_setReg _ _ _ (by decide)]
  unfold State.mode
  rw [rf_wf_other _ _ _ _ _ _ _ _ (by decide), rf_wf_field _ _ _ _ _ _ _ (by decide) (by decide),
    rf_wf_field _ _ _ _ _ _ _ (by decide) (by decide), rf_wf_field _ _ _ _ _ _ _ (by decide) (by decide)]

/-- Showing the flash records keeps the step. -/
@[simp] theorem step_showTk (s : State) : s.showTk.step? = s.step? := by
  unfold State.showTk State.step?
  simp only
  have e : Reg.tkState.addr ≠ Reg.tkSec.addr := by decide
  unfold State.rf
  rw [reg_setReg_other _ _ _ _ e]
  show State.rf _ _ _ _ = _
  rw [rf_wf_other _ _ _ _ _ _ _ _ (by decide), rf_wf_field _ _ _ _ _ _ _ (by decide) (by decide),
    rf_wf_field _ _ _ _ _ _ _ (by decide) (by decide), rf_wf_field _ _ _ _ _ _ _ (by decide) (by decide)]
  rfl

/-- The end of a start changes the flash's suspect marks and the Tack Room's working state alone. -/
theorem endStart_frame (s : State) : s.endStart = { s with flash := s.endStart.flash, tack := s.endStart.tack } := by
  unfold State.endStart
  split <;> rfl
/-- The end of a start: none is in progress. -/
@[simp] theorem endStart_starting (s : State) : s.endStart.tack.starting = false := by
  unfold State.endStart
  split <;> rfl
/-- It keeps the topcoat on its way, if any. -/
@[simp] theorem endStart_coat (s : State) : s.endStart.tack.coat = s.tack.coat := by
  unfold State.endStart
  split <;> rfl

/-- With the core off nothing is capped (R446, R462). -/
theorem capped_off (s : State) (h : s.coreOn = false) (k : Nat) : s.capped k = false := by
  unfold State.capped State.thermTarget
  simp [h]

/-- With the core off the caps' show only writes registers: the targets stand alone, and TACK's degrade bit is clear. -/
theorem showCaps_off (s : State) (h : s.coreOn = false) (was : Nat → Bool) :
    s.showCaps was = ((s.wf .tkPaceTarget 31 16 (s.thermTarget 0)).wf .tkPaceTarget 47 32 (s.thermTarget 1)).wb
      (.ftStatus .tack) 1 false := by
  unfold State.showCaps
  have hc : ∀ k, ((s.wf .tkPaceTarget 31 16 (s.thermTarget 0)).wf .tkPaceTarget 47 32 (s.thermTarget 1)).capped k = false :=
    fun k => capped_off _ (by simpa using h) k
  simp [h, hc]

/-- Main power off: the core's state is gone, MAIN_EN is low, and the registers of the caps show none. -/
theorem mainOff_eq (s : State) : ∃ regs, s.mainOff =
    { (({ s.coreReset with coreOn := false }.modPins (fun p => { p with mainEn := false, mainPg := false })).modTack
        (fun t => { t with dustStep := 0 })) with regs := regs } := by
  unfold State.mainOff
  rw [showCaps_off _ (by rfl)]
  exact ⟨_, rfl⟩
@[simp] theorem mainOff_coreOn (s : State) : s.mainOff.coreOn = false := by obtain ⟨r, h⟩ := mainOff_eq s; rw [h]; rfl
@[simp] theorem mainOff_hbm (s : State) : s.mainOff.hbm = [] := by obtain ⟨r, h⟩ := mainOff_eq s; rw [h]; rfl
@[simp] theorem mainOff_grooms (s : State) : s.mainOff.grooms = [] := by obtain ⟨r, h⟩ := mainOff_eq s; rw [h]; rfl
@[simp] theorem mainOff_todo (s : State) : s.mainOff.todo = [] := by obtain ⟨r, h⟩ := mainOff_eq s; rw [h]; rfl
@[simp] theorem mainOff_coat (s : State) : s.mainOff.tack.coat = none := by obtain ⟨r, h⟩ := mainOff_eq s; rw [h]; rfl
@[simp] theorem mainOff_starting (s : State) : s.mainOff.tack.starting = s.tack.starting := by
  obtain ⟨r, h⟩ := mainOff_eq s; rw [h]; rfl
@[simp] theorem mainOff_flash (s : State) : s.mainOff.flash = s.flash := by obtain ⟨r, h⟩ := mainOff_eq s; rw [h]; rfl
@[simp] theorem mainOff_tk (s : State) : s.mainOff.tk = s.tk := by obtain ⟨r, h⟩ := mainOff_eq s; rw [h]; rfl
@[simp] theorem mainOff_pins (s : State) : s.mainOff.pins = { s.pins with mainEn := false, mainPg := false } := by
  obtain ⟨r, h⟩ := mainOff_eq s; rw [h]; rfl

/-- A failed start (R449): its reason stands in flash, MAIN_EN is low, and the pause begins. -/
theorem failStart_spec (s : State) (reason : Nat) :
    (s.failStart reason).pins.mainEn = false ∧ (s.failStart reason).coreOn = false ∧
    (s.failStart reason).tack.starting = false ∧ (s.failStart reason).tack.retryAt = some (s.failStart reason).tk ∧
    (s.failStart reason).flash.reason = reason ∧ (s.failStart reason).flash.inProgress = false ∧
    (s.failStart reason).flash.failCount = s.flash.failCount ∧ (s.failStart reason).todo = [] ∧
    (s.failStart reason).tack.coat = none := by
  unfold State.failStart
  simp only [showTk_pins, showTk_coreOn, showTk_tack, showTk_tk, showTk_flash, showTk_todo, modTack_pins, modTack_coreOn,
    modTack_tack, modTack_tk, modTack_flash, modTack_todo, setStep_pins, setStep_coreOn, setStep_tack, setStep_tk,
    setStep_flash, setStep_todo, mainOff_pins, mainOff_coreOn, mainOff_tk, mainOff_flash, mainOff_todo, mainOff_starting,
    mainOff_coat, true_and, and_true]
  unfold State.endStart State.startReason
  split <;> simp

/-- The start begins (R36, R449) where main power is not up already: counted, marked, MAIN_EN high, STARTING, at step 4 or
5. -/
theorem beginStart_spec (s : State) (h : s.pins.mainPg = false ∨ s.coreOn = false) :
    s.beginStart.pins = { s.pins with mainEn := true } ∧ s.beginStart.tack.starting = true ∧
    s.beginStart.tack.retryAt = none ∧ s.beginStart.mode = 0 ∧
    s.beginStart.flash.failCount = satAdd 255 s.flash.failCount 1 ∧ s.beginStart.flash.inProgress = true ∧
    s.beginStart.todo = s.todo ∧ s.beginStart.tack.coat = s.tack.coat ∧ s.beginStart.tack.up = s.tack.up := by
  have hs : s.beginStart = ((((((s.modFlash (fun f => { f with failCount := satAdd 255 f.failCount 1, inProgress := true })).modTack
      (fun t => { t with starting := true, stepAt := s.tk, retryAt := none, applied := none, tried := 0, dustStep := 0 })).modPins
      (fun p => { p with mainEn := true })).wf .tkDustReason 47 32 0xFFFF).setMode 0).setStep
      (if s.pins.mainPg = false then 4 else 5)).showTk := by
    unfold State.beginStart
    cases hp : s.pins.mainPg
    · simp [hp, State.modFlash, State.modTack, State.modPins]
    · have hc : s.coreOn = false := by simpa [hp] using h
      simp [hp, hc, State.modFlash, State.modTack, State.modPins]
  rw [hs]
  refine ⟨?_, ?_, ?_, ?_, ?_, ?_, ?_, ?_, ?_⟩
  · simp
  · simp
  · simp
  · simp only [mode_showTk, mode_setStep]
    exact mode_setMode _ _ (by decide)
  all_goals simp

end Sys2Proof.Machine
end

