-- ==== Sys2Proof/Tests/Slice0.lean ====
section
/-! SUPPORT. The model's own tests: ill-formed commands refused, worked examples of the manual, and for every statement a
state and operands that meet the hypotheses of each of its cases. -/

namespace Sys2Proof.Tests

open Sys2Proof.Machine

set_option Elab.async false

/-! ### States and operands of the tests -/

def off : State := State.reset

def ready : State := ({ State.reset with coreOn := true, pins := { vinAux := true, vinMain := true, resetL := true, mainEn := true, mainPg := true, faultP := true }, tack := { up := true } }.setMode 1).setStep 10

def booting : State := { State.reset with pins := { vinAux := true, resetL := true }, tk := 100 }.setStep 2

def halting : State := booting.modFlash (fun f => { f with grave := some (0x01F0, 3) })

def pausing : State := { State.reset with pins := { vinAux := true, resetL := true, faultP := true }, tk := 20000000000, tack := { up := true, retryAt := some 5 }, flash := { failCount := 1, reason := 0x0101 } }

def waitPg : State := ({ State.reset with pins := { vinAux := true, resetL := true, mainEn := true, faultP := true }, tk := 2000000000, tack := { up := true, starting := true, stepAt := 600000000 }, flash := { failCount := 1, inProgress := true } }).setStep 4

def waitReg : State := ({ State.reset with pins := { vinAux := true, vinMain := true, resetL := true, mainEn := true, mainPg := true }, tack := { up := true, starting := true }, flash := { failCount := 1, inProgress := true } }).setStep 5

def starting (n : Nat) : State := ({ State.reset with pins := { vinAux := true, vinMain := true, resetL := true, mainEn := true, mainPg := true }, coreOn := true, tk := 900000000, tack := { up := true, starting := true, stepAt := 2 }, flash := { failCount := 1, inProgress := true } }).setStep n

def n52 : LaneId := .net 5 2

def h3 : LaneId := .host 1 3

def lane (n : LaneId) (st : Nat) (f : Lane → Lane) : State := (((ready.wb (.laneCtrl n) 3 true).wb (.llCtrl (laneLink n)) 0 true).setLane n st).modLane n f |>.wf (.llStatus (laneLink n)) 3 0 1

def goodLine : BitVec 5440 := BitVec.ofNat 5440 (toLevels 2720 false false 0 (encodeCw 0 (cwTag 10 2 7) (List.replicate 640 0)).1).1

def badLine : BitVec 5440 := BitVec.ofNat 5440 (2 ^ 400 - 1)

def userTest : State := ((((lane n52 5 id).wb (.laneTest n52) 7 true).wf (.laneTest n52) 6 4 4).setReg (.laneUpatLo n52) 0x456789ABCDEF5A5A).setReg (.laneUpatHi n52) 0x0123

def ctl : BitVec 16 := 0x9000 + BitVec.ofNat 16 (crc4 0x9000)

def sts : BitVec 16 := 0x8000 + BitVec.ofNat 16 (crc4 0x8000)

def port (st : Nat) (f : PortSt → PortSt) : State := (((lane n52 2 id).setLink (.port 5) st).modPort 5 f).wf (.llCtrl (.port 5)) 22 20 2 |>.wf (.llCtrl (.port 5)) 27 24 4

def hlink (st : Nat) (f : HostLl → HostLl) : State := (((lane h3 2 id).setLink (.host 1) st).modHl 1 f).wf (.llCtrl (.host 1)) 22 20 4 |>.wf (.llCtrl (.host 1)) 27 24 4

def hdr (dest : Nat) : BitVec 512 := withRhCrc (mkWord 512 [(511, 496, dest), (448, 442, 1), (460, 458, 1)])

def routed (h : BitVec 512) : State := ((((port 3 (fun x => { x with ibuf := [(2, [⟨h, false⟩])] })).wb .rtCoord 63 true).wf .rtTopo 31 28 3).wf (.rtMap 5) 7 0 0x80).wb (.llCtrl (.port 5)) 2 false

def away : BitVec 512 := hdr 0x1000

def leg : Leg := (routed away).legTo (routed away).operBank away 0x1000

def beaconHdr : BitVec 512 := withRhCrc (mkWord 512 [(511, 496, 0), (492, 488, 31), (448, 442, 1), (383, 376, 0x1F), (375, 368, 1), (367, 304, 0x1234)])

def tlp (ty : Nat) (fs : List (Nat × Nat × Nat)) (pay : List (BitVec 8)) : RxTlp := ⟨beBytes 16 (mkWord 128 ([(127, 120, ty), (119, 115, 2)] ++ fs)).toNat ++ pay, 0, false, ty = 0x12 || ty = 0x14, false⟩

def hl (g : HostTl → HostTl) : State := ((hlink 3 id).modTl 1 g).wf (.hlCtrl 1) 27 0 0xFFF0001 |>.wb (.hlFnPriv 1) 2 true

def cq0 : Cq := { id := 0, bell := [], admin := false, link := 1, fn := 2, ctx := 9, stall := 3, k := 4, base := 0x10000, weight := 1, burst := 1, priv := false, eqValid := false, eq := 0, state := 1, lastError := 0, pi := 0, oldest := 0, next := 0, asked := 0, readsOut := 0, gran := [], fns := [], open_ := [], fired := [], credit := 0, joined := false, flushing := none, destroyer := none, dying := false, waited := none }

def eq0 : Eq := { fn := 2, vector := 3, home := 0, link := 1, base := 0x20000, rel0 := true, rel1 := true, wpos := 0, armed := true, drops := 0, dead := false }

def ctx0 : Ctx := { words := List.replicate 32 0 }

def wtag0 : History := ⟨some 9, 2, 0x3000, 64, .none, none, none⟩

def walk0 : Walk := { stall := 0, cx := ⟨0, 0, 0, 1, 0, 0, 0⟩, va := 0, users := [], stage2 := false, table := false, level := 0, s1lev := 0, input := 0, ptr := .host 1 0, leaf1 := none, size1 := 48, ipa := 0, entry := none, failed := 0, cache := true, used := false, stale := false, marks := [] }

def rdWalk : ReadOut := ⟨0x1000, 8, none, 0, .walk 4, [], 0, false⟩

def op0 (opc : Nat) (ws : List Word) : Op := { src := .entry, queue := 7, count := 0, ctx := 9, link := 1, fn := 2, stall := 3, words := BitVec.ofNat 64 (opc * 2 ^ 51) :: ws, performed := false, left := 0, status := 0, detail := 0, result := 0, aux := 0 }

def ctx1 : Ctx := { words := modAt (modAt (modAt (modAt (List.replicate 32 0) 2 (fun _ => mkWord 64 [(63, 63, 1), (60, 56, 2), (55, 53, 1)])) 3 (fun _ => mkWord 64 [(63, 3, hbmBase / 8)])) 4 (fun _ => mkWord 64 [(63, 52, 8), (47, 36, 2)])) 8 (fun _ => 4096) }

def fl0 : IFlow := { ctx := 9, peerFa := 0x1234, peerCtx := 5, start := 3, next := 3, nextMsn := 0, est := true, opened := true, ctrl := 0, cwnd := 65536, baseRtt := none, lastDec := none, outst := [], queue := [], lastUse := 0 }

def que (o : Op) : State := { hl id with cqs := [(7, { cq0 with open_ := [(0, 1, false)], next := 1, pi := 1 })], ctxs := [(9, ctx1)], ctxEast := 100, ops := [(20, o)], serial := 50 }

def cqo : Cq := { cq0 with open_ := [(0, 1, false)], next := 1, pi := 1 }

def ct (n : Nat) : Word := BitVec.ofNat 64 (n * 2 ^ 16)

def ranked (o : Op) : State := let s := que o; { s with shares := [(4, (0, 1))], ctxs := [(9, { ctx1 with words := modAt (modAt ctx1.words 0 (fun _ => BitVec.ofNat 64 hbmBase)) 1 (fun _ => mkWord 64 [(63, 63, 1), (60, 32, 1)]) })], hbm := [(0, 5), (6, 0), (7, 0x80)].filter (fun e => e.2 ≠ 0), ifl := [(30, { fl0 with peerFa := 0 })] }

def adm (o : Op) : State := { que { o with fn := 31 } with cqs := [(7, { cqo with admin := true })] }

def acqo : Cq := { cqo with admin := true }

def aop (opc : Nat) (ws : List Word) : Op := { op0 opc ws with fn := 31 }

def region (s : State) : State := (s.setReg (.hrtBase 1 0) 1).setReg (.hrtLimit 1 0) (mkWord 64 [(63, 12, 0xFFFFF)])

def inv0 : Inval := { dom := 0, scope := 1, leafOnly := false, vmid := 0, asid := 0, start := 0, pages := 0, active := true, acks := [0, 1, 2, 4, 5, 6, 7, 8, 9, 10, 11, 12, 13, 14, 15] }

def ctx8 : Ctx := { ctx1 with words := modAt ctx1.words 8 (fun _ => 8 * 2 ^ 32) }

def me0 : Me := { Me.blank 9 3 with rank := 4, tag := 6, mlen := 100, seq := 2 }

def gid : GroomId := ⟨3, 5⟩

def run0 : Run := { id := 4, ref := ⟨2, 9, 0, 0, 0x0201, 0, List.replicate 64 7, some 64, 0⟩, bind := [mkWord 64 [(63, 12, hbmBase / 4096)], 0, mkWord 64 [(39, 8, 1)], 0], regs := [0, 0, 2, 9, 0x0201, 0, 0x400000, 0, 0, 5, 3] ++ List.replicate 21 0, pc := 0, budget := 64, since := 0, wait := .none, stores := [], nextStore := 0, handles := [], events := 0, timer := 0, timerHit := false, pastHbm := [], pastBuf := [], seen := [], halted := false, exc := none }

def gr (r : Run) (w : BitVec 32) : State := { que (op0 0 []) with grooms := [(53, { scratch := [(9, 6)], run := some r })], hbm := memWrite [] 0 (leBytes 4 w.toNat) }

def rg (n : Nat) (v : Word) : Run := { run0 with regs := modAt run0.regs n (fun _ => v) }

def xle : XlEntry := { kind := 0, vmid := 0, asid := 0, level := 3, e := 0, va := 0x8000, ipa := 0x8000, log2 := 12, out := hbmBase + 0x3000, hbm := true, rd := true, wr := true, acc := true, dirty := true }

def grx (r : Run) (w : BitVec 32) : State := { gr r w with shares := [(10, (0, 1))], xl := [(3, [xle])], ctxs := [(9, { ctx1 with words := modAt ctx1.words 5 (fun _ => 1) })] }

def gr0 : State := { gr run0 0 with grooms := [] }

def rr0 : RunRef := ⟨1, 9, 0, 77, 1, 256, [1, 2, 3], some 50, 0⟩

def rq (q : RunQ) : State := { gr0 with runqs := [(3, q)], ctxs := [(9, { ctx1 with words := modAt (modAt ctx1.words 20 (fun _ => 0x80000001)) 21 (fun _ => mkWord 64 [(63, 46, 6), (45, 28, 5), (27, 10, 4)]) })], grooms := [(53, { scratch := [(9, 6)], prevCtx := some 9 })] }

def tf0 : TFlow := { ctrl := 0, srcFa := 0x1234, sctx := 5, dctx := 9, start := 70, cum := 76, deliv := [], refused := [], cause := 0, causeDetail := 0, nextMsn := 0, skipMsn := [], aborted := [], unsure := [], prog := [], atoms := [], held := none, sends := [], issued := [⟨77, [], 0, 0, false, none⟩], unacked := 0, firstUnacked := none, newestPsn := 77, newestTsl := 0, newestAt := 0, lastRx := 0 }

def ge (w0 : Word) (s : State) : State := { s with shares := [(9, (2, 1))], groups := [(6, { engine := 1 })], hbm := [(0, w0), (8, 0x77), (16, 0x99), (64, 9)].foldl (fun m (e : Nat × Word) => memWrite m (2 * 0x1000000 + 256 * 6 + e.1) (leBytes 8 e.2.toNat)) s.hbm }

def cw0 (root : Nat) (nk nl : Nat) : Word := mkWord 64 [(63, 63, 1), (62, 62, root), (61, 59, 1), (58, 54, nk), (53, 48, nl), (15, 0, 0x4455)]

def cop (ty mode cnt recv : Nat) : Op := op0 0x0C [mkWord 64 [(63, 48, 6), (39, 36, ty), (35, 34, mode), (27, 16, 0xFFF)], 0x5000, BitVec.ofNat 64 cnt, BitVec.ofNat 64 recv, 0x77, 0x99]

def upk (opc moff mlen flags : Nat) (pay : List (BitVec 8)) : Pkt := buildPkt 0 0 0 1 false true 0 [(383, 376, opc), (327, 296, flags), (271, 240, moff), (239, 208, mlen), (207, 144, 0x77), (143, 112, 6 * 65536 + 2 * 16), (111, 48, 0x99)] pay

def in0 : ClInst := { engine := 1, dom := 0, group := 6, n := 0, op := 0, ty := 2, mode := 0, count := 2, since := 0, next := 0, members := [], kids := [], flags := 0, result := 0, downs := [] }

def cst (w0 : Word) (x : ClInst) : State := ge w0 { que (cop 2 0 2 0) with insts := [(40, x)] }

def dr (hs : List (Nat × LineState)) : State := { que (op0 0 []) with dir := [(lineKey 0 5, hs), (lineKey 0 6, [(1, .dirty)])] }

def m1 : Master := .fn 1 2

def hk (l : List (Nat × Lock)) : State := { que (op0 0 []) with locks := l }.setReg (.hkFncfg 0 34) (mkWord 64 [(63, 63, 1), (47, 40, 40), (26, 16, 64)]) |>.wb (.hlCtrl 1) 0 true

def sync (epoch dist seq prev rseq rnt : Nat) : BitVec 512 := withRhCrc (mkWord 512 [(511, 488, 31), (448, 442, 1), (463, 461, 7), (383, 376, 0x1F), (375, 368, 2), (367, 352, seq), (351, 320, epoch), (319, 314, dist), (313, 313, 1), (303, 240, prev), (239, 224, rseq), (223, 160, rnt)])

def tmst (h : BitVec 512) (f : PortSt → PortSt) : State := { port 3 (fun x => f { x with ibuf := [(0, [⟨h, false⟩])] }) with nt := 900000 }.wb .rtCoord 63 true

def rx0 : SyncRx := ⟨7, 2, true, 20, 0, 80688⟩

def tsync : State := tmst (sync 7 2 21 80000 5 82224) (fun x => { x with rx := some rx0, sent := [(5, 81600)] })

def gt : State := (((port 3 id).setReg (.egGateCtrl 5) (mkWord 64 [(63, 63, 1), (45, 40, 1)])).setReg (.egGcl 5 0 0) 0x20000007D0).setReg (.egGcl 5 0 1) 0x5F00001F40

def gsw : State := (((port 3 id).setReg (.egGateCtrl 5) (mkWord 64 [(63, 63, 1), (62, 62, 1), (61, 61, 1), (51, 46, 1)])).setReg (.egGcl 5 1 0) 0x20000007D0).setReg (.egGcl 5 1 1) 0x5F00001F40 |>.setReg (.egGateSwitch 5) 3000

def coat5 (secs : List (Nat × List Byte)) : State := { ready with tack := { ready.tack with coat := some ⟨5, 0, secs, 77, 0, 0, false, [], false⟩ }, mbox := { ready.mbox with run := none }, holdDom := some 0 }.wf .coStatus 63 61 2

def coat2 : State := { port 3 (fun x => { x with outv := [(1, ⟨3, 2, 0, false⟩)] }) with holdPort := some 5 }

def pAck : Pkt := [⟨0x123444020400000000001464080000014000090000004d0000000000000000000000000000000000000000000000000000000000000000005a97eb5d, false⟩]

def pPut0 : Pkt := [⟨0x123444020400000000001464018000014000090000004d000000000000000000000000000000000000000000010100000000000080100000ba26b2b3, false⟩]

def pMal : Pkt := [⟨0x12344402040000000000146401c000014000090000004d00000000000000000000000000000000000000000001010000000000008010000028d491b0, false⟩]

def pOpen : Pkt := [⟨0x123444020400000000001464182000014000090000006400000000000000000000000100000000000000000000000000000000000000000071761c50, false⟩]

def pFlag : Pkt := [⟨0x12344406040000000000d5a2018000014000090000004f000000000000000000000000000000000000000000010100000000000080100000dc70719e, false⟩]

def pPut : Pkt := [⟨0x123444020800000000001f8701a000014000090000004d000000000000000000000300000000000000000000010100000000000080100000f8e4f319, false⟩, ⟨0x7080900000000000000000000000000000000000000000000000000000000000000000000000000000000000000000000000000000000000000000000000000, false⟩]

def pAtom : Pkt := [⟨0x123444020800000000001f87040000014000090000004d000000000000000000000000000000000000330000010100000000000080100000491b8e98, false⟩, ⟨0x50000000000000000000000000000000000000000000000000000000000000000000000000000000000000000000000000000000000000000, false⟩]

def pGet : Pkt := [⟨0x123444020400000000001464020000014000090000004d0000000000000000000003000000000000000000000101000000000000801000005c1612a8, false⟩]

def tfx : TFlow := { tf0 with issued := [] }

def tgt (tf : TFlow) (p : Pkt) : State := { que (op0 1 []) with tfl := [(30, tf)], eject := [⟨p, none⟩], nt := 48000000, clk := 4800000 }

def key1 (w0 : Word) (s : State) : State := { s with shares := [(10, (0, 1))], ctxs := [(9, { ctx1 with words := modAt (modAt ctx1.words 5 (fun _ => 1)) 14 (fun _ => BitVec.ofNat 64 (hbmBase + 4)) })], xl := [(0, [xle])], hbm := [(32, w0), (40, 0x8000), (48, 0x1000)].foldl (fun m (e : Nat × Word) => memWrite m e.1 (leBytes 8 e.2.toNat)) [] }

def kw : Word := mkWord 64 [(63, 63, 1), (62, 60, 7), (55, 48, 1), (47, 36, 0xFFF)]

def apk (opc psn moff mlen : Nat) (fs : List (Nat × Nat × Nat)) (pay : List (BitVec 8)) : Pkt := buildPkt 0 0x1234 6 0 false true 0 ([(383, 376, opc), (371, 350, 5), (349, 328, 9), (327, 296, psn), (271, 240, moff), (239, 208, mlen)] ++ fs) pay

def od (psn opc : Nat) : Outst := { psn := psn, opc := opc, op := some 20, me := none, bytes := 4096, pkt := [], lastTx := 0, sends := 1, acked := false, local_ := 0, moff := 0, len := 4096, pieces := [], writing := 0, tsl := 0, gap := false, nackAt := none }

def opd (opc : Nat) (ws : List Word) : Op := { op0 opc ws with performed := true }

def rctl : Word := 0x8084003E8040A7D8

def fls (x : IFlow) (p : List Pkt) (o : Op) : State := { que o with ifl := [(30, x)], toInit := p, nt := 48000000, clk := 4800000 }

def flo (os : List Outst) : IFlow := { fl0 with ctrl := rctl, next := 20, outst := os }

def odp (n : Nat) : Outst := { od 12 1 with pkt := [⟨mkWord 512 [(458, 458, 1), (383, 376, 1), (327, 296, 12)], false⟩], sends := n, lastTx := 320 }

def itm (opc : Nat) : SendItem := { op := some 20, me := none, opc := opc, tc := 3, adapt := true, ordered := false, addr := 0x7000, key := 0x101, local_ := 0, tag := 0, mlen := 3, moff := 0, msn := none, firstPsn := none, inline_ := none, data := none, reading := false, payload := [], sent := 0, ended := false }

def mb0 : State := let s := hk []; { s with tk := 1000, mbox := { holder := some m1, since := 5 } }

def mcd (code : Nat) (args : List Word) (buf : List Host.Cell) : MbCmd := ⟨code, args, buf, false⟩

def mbr (c : MbCmd) : State := { mb0 with mbox := { mb0.mbox with run := some c } }.wb .mbCmd 63 true

def inMode (code mode : Nat) (f : Tack → Tack) (g : Flash → Flash) : State := (((mbr (mcd code [] [])).setMode mode).modTack f).modFlash g

def b_blk0 : List (BitVec 8) := beBytes 272 0x1e842f0df187c92384b13b61add1847df376b3a5c3afc09c8f51e3565374f0ae6188e17ca9f8c3e9d0d1e7c29e70bec336d980ee9eda5b3203fbffb7e83bababc01009760730a28dba289dcee1fa3b4d0191840e4ba270ea35800357a89b1655d8dcbbdd288585a0b6459e4de23cee360c29a774f53459a8b3bd2cba0e383d065d796e70000000001a32727125b5900704004ae712ee412d760c612e176c12f4cd801566e92ff18610d031b4ddc308c02208c99d33fab2f0307dd5ddf872eeb5c2d3e53a478f7436de3017f24d4259d3b8c18324e7d61d9f2426e3631c02dad7459215d15c3027000aa5c420afed31e772de5666d44ebb926a0dc432a62a9207b1fa4412d6a48ec7e74b86000000000

def b_sc40 : List (BitVec 8) := beBytes 532 0x4e5653434000000077000000000000000000000000000000000000000000000000000000000000000000000000000000000000000000000000000000000000000000000000000000000000000123456700000000000000000000000000000000000000000000000000000000000000000000000000000000000000000000000001e842f0df187c92384b13b61add1847df376b3a5c3afc09c8f51e3565374f0ae6188e17ca9f8c3e9d0d1e7c29e70bec336d980ee9eda5b3203fbffb7e83bababc01009760730a28dba289dcee1fa3b4d0191840e4ba270ea35800357a89b1655d8dcbbdd288585a0b6459e4de23cee360c29a774f53459a8b3bd2cba0e383d065d796e70000000001a32727125b5900704004ae712ee412d760c612e176c12f4cd801566e92ff18610d031b4ddc308c02208c99d33fab2f0307dd5ddf872eeb5c2d3e53a478f7436de3017f24d4259d3b8c18324e7d61d9f2426e3631c02dad7459215d15c3027000aa5c420afed31e772de5666d44ebb926a0dc432a62a9207b1fa4412d6a48ec7e74b860000000000090c8d0d718cb9d8d81094e6d068fb13c16b4df8c77bac676dddfe3e68855bed06b9ba8d0f8a80edce03a9fac7da561e24b1cd22d459239a146695a671f81f73aaf01d2f096b4b1a37bb1c4a534111801a49a4c054b6afc6ae84aa68d00dd7d043f2dc23934deb6bec410e09b644690c82fcd431622267509ba8ab2ecd12851df376348

def b_sc41 : List (BitVec 8) := beBytes 532 0x4e5653434100000077000000000000000000000000000000000000000000000000000000000000000000000000000000000000000000000000000000000000000000000000000000000000000123456701000000000000000000000000000000000000000000000000000000000000000000000000000000000000000000000001e842f0df187c92384b13b61add1847df376b3a5c3afc09c8f51e3565374f0ae6188e17ca9f8c3e9d0d1e7c29e70bec336d980ee9eda5b3203fbffb7e83bababc01009760730a28dba289dcee1fa3b4d0191840e4ba270ea35800357a89b1655d8dcbbdd288585a0b6459e4de23cee360c29a774f53459a8b3bd2cba0e383d065d796e70000000001a32727125b5900704004ae712ee412d760c612e176c12f4cd801566e92ff18610d031b4ddc308c02208c99d33fab2f0307dd5ddf872eeb5c2d3e53a478f7436de3017f24d4259d3b8c18324e7d61d9f2426e3631c02dad7459215d15c3027000aa5c420afed31e772de5666d44ebb926a0dc432a62a9207b1fa4412d6a48ec7e74b860000000000090c8d0d718cb9d8d81094e6d068fb13c16b4df8c77bac676dddfe3e68855bed06b9ba8d0f8a80edce03a9fac7da561e24b1cd22d459239a146695a671f81f73aaf00afede3c7cca40cbd21068770c432279715cd549c40e48514b76aa3784401f49bd9e7bdd4bdd7e58255464b1b5887f04d910da672a4aba3885c9c321275066eefb2

def b_sc43 : List (BitVec 8) := beBytes 532 0x4e56534343000000770000000000000000000000000000000000000000000000000000000000000000000000000000000000000000000000000000000000000000000000000000000000000001234567000000000000000000000000000000000000000000000000000000000000000000000000000000000000000000000000013fb6adf3d170477cbd68ffbf49a24553700e479122dfd251657684749b52c647ad665a89dd5f75e402bdb423212de4b134bed3c8c548df31f33a866ee73977644b0123cf70b094251887e4a3888f2bc8f4ed4d9254178998b6b39d782bbeab5bde29730c0fcbbff41b85df140fdb14e2576599c60d4a0d93cfcab99eedee0570f661d70100000001a32727125b5900704004ae712ee412d760c612e176c12f4cd801566e92ff18610d031b4ddc308c02208c99d33fab2f0307dd5ddf872eeb5c2d3e53a478f7436de3004a87a8fbb9cae0465507bb980c37e556b1fc22a9d71de998fc70895e210dc0652b600447526098d1743791f4688a090d7fd40168a0b625648c8ca26844b7dfa6e8000000000090c8d0d718cb9d8d81094e6d068fb13c16b4df8c77bac676dddfe3e68855bed06b9ba8d0f8a80edce03a9fac7da561e24b1cd22d459239a146695a671f81f73aaf014662b83f15c200204719be2f525316a81d560786bb8c04503797fd10c26a1c94f1495c150ceb49dddc4654a300e221ed859484fdf48f1751796f29d730f65145c5

def b_qos : List (BitVec 8) := beBytes 684 0x4e56435401000102050000005164b0000000000000000000ac02000001000000000000000900000000000000000000000000000000000000000000000000000000000000000000000000000000000000000000000000000000000000000000000000000000000000000000000000000000000000000000000000000000000000000000000000000000000000000000000000000000000000000000000000000000000000000000000000000000000000000000000000000000000000000000000000000000000000000000000000000000000000000000000000000000000000000000000000000000000000000000000000000000000000000000000000000001e842f0df187c92384b13b61add1847df376b3a5c3afc09c8f51e3565374f0ae6188e17ca9f8c3e9d0d1e7c29e70bec336d980ee9eda5b3203fbffb7e83bababc01009760730a28dba289dcee1fa3b4d0191840e4ba270ea35800357a89b1655d8dcbbdd288585a0b6459e4de23cee360c29a774f53459a8b3bd2cba0e383d065d796e70000000001a32727125b5900704004ae712ee412d760c612e176c12f4cd801566e92ff18610d031b4ddc308c02208c99d33fab2f0307dd5ddf872eeb5c2d3e53a478f7436de3017f24d4259d3b8c18324e7d61d9f2426e3631c02dad7459215d15c3027000aa5c420afed31e772de5666d44ebb926a0dc432a62a9207b1fa4412d6a48ec7e74b86000000000050000001000000020300520000000000000000000011a86003226aec3ea16a7cf7fbf0281b4c320a516ac51d3242f8be19dbfafd81a899df88f42f047421f2d3899e5a4ff33212f4c94bbecb2f28e133cd2becfa375c502a6000192e34ffe234a4ad536020d63f29c62b53a0e47609f7f21dee7933ce03acc4e6296499911676b067934b1823ada4033cea55480696444a4c9278cf0ad90de267de7

def b_rset : List (BitVec 8) := beBytes 692 0x4e56435401000102050000005164b0000000000000000000b402000001000000000000000a00000000000000000000000000000000000000000000000000000000000000000000000000000000000000000000000000000000000000000000000000000000000000000000000000000000000000000000000000000000000000000000000000000000000000000000000000000000000000000000000000000000000000000000000000000000000000000000000000000000000000000000000000000000000000000000000000000000000000000000000000000000000000000000000000000000000000000000000000000000000000000000000000000001e842f0df187c92384b13b61add1847df376b3a5c3afc09c8f51e3565374f0ae6188e17ca9f8c3e9d0d1e7c29e70bec336d980ee9eda5b3203fbffb7e83bababc01009760730a28dba289dcee1fa3b4d0191840e4ba270ea35800357a89b1655d8dcbbdd288585a0b6459e4de23cee360c29a774f53459a8b3bd2cba0e383d065d796e70000000001a32727125b5900704004ae712ee412d760c612e176c12f4cd801566e92ff18610d031b4ddc308c02208c99d33fab2f0307dd5ddf872eeb5c2d3e53a478f7436de3017f24d4259d3b8c18324e7d61d9f2426e3631c02dad7459215d15c3027000aa5c420afed31e772de5666d44ebb926a0dc432a62a9207b1fa4412d6a48ec7e74b8600000000007000000180000001810052000000000ffff0f00000000002c01000000000000003226aec3ea16a7cf7fbf0281b4c320a516ac51d3242f8be19dbfafd81a899df88f42f047421f2d3899e5a4ff33212f4c94bbecb2f28e133cd2becfa375c502a600001c6496a41e9bef02b7cfd54f54f6c3857e112fb33af823cfe377e6d90ffe6b219bc0a80d63022f69d199a3b486da75935de96e2d5ef93f0c48213055f11eeef6df

def b_under : List (BitVec 8) := beBytes 1084 0x4e56435401000000000000005164b00000000000000000003c04000002000000000000004d0000004339afbf2f06c4df12d32259c6f64e7f000000000000000000000000000000000000000000000000000000000000000000000000000000000000000000000000000000000000000000000000000000000000000000000000000000000000000000000000000000000000000000000000000000000000000000000000000000000000000000000000000000000000000000000000000000000000000000000000000000000000000000000000000000000000000000000000000000000000000000000000000000000000000000000000000000000000000001e842f0df187c92384b13b61add1847df376b3a5c3afc09c8f51e3565374f0ae6188e17ca9f8c3e9d0d1e7c29e70bec336d980ee9eda5b3203fbffb7e83bababc01009760730a28dba289dcee1fa3b4d0191840e4ba270ea35800357a89b1655d8dcbbdd288585a0b6459e4de23cee360c29a774f53459a8b3bd2cba0e383d065d796e70000000001a32727125b5900704004ae712ee412d760c612e176c12f4cd801566e92ff18610d031b4ddc308c02208c99d33fab2f0307dd5ddf872eeb5c2d3e53a478f7436de3017f24d4259d3b8c18324e7d61d9f2426e3631c02dad7459215d15c3027000aa5c420afed31e772de5666d44ebb926a0dc432a62a9207b1fa4412d6a48ec7e74b86000000000010000005001000000000000000100012000000000000000000000000002000101000000210000000000000000030001010000002200000000000000000400010000000023000000000000000005000100000000240000000000000000060001000000002500000000000000000700010000000026000000000000000008000100000000270000000000000000090001000000002800000000000000000a0001000000002900000000000000000180012000000000000000000000000002800101000000210000000000000000038001010000002200000000000000000480010000000023000000000000000005800100000000240000000000000000068001000000002500000000000000000780010000000026000000000000000008800100000000270000000000000000098001000000002800000000000000000a80010000000029000000000020000000000200000000000000000200000048000000111111111b1b000000000000000000000000000000000000000000000000000000000000000000000000000000000000000000000000000000000000000000000000000000000000003226aec3ea16a7cf7fbf0281b4c320a516ac51d3242f8be19dbfafd81a899df88f42f047421f2d3899e5a4ff33212f4c94bbecb2f28e133cd2becfa375c502a600007c334653614757e2a865cce426fb33451e058539af2e02c4ba682db158ddbc49d96df83fa2a34b73f085de92e06e766fb739dc05a5391a85ad8e6dcfa5be55bf9c

def cells (bs : List (BitVec 8)) : List Host.Cell := bs.zipIdx.map (fun e => (e.2, e.1))

def sg (c : MbCmd) (stage : List (BitVec 8)) : State := { mbr c with fuses := { owner0 := some 0xdda18bbb3cb0a55cc9a7b3d978d0412b831c619fe7b0e0970973f271230bba2d, owner1 := some 0x63fd6f70676853db592fc705aa70cf1903c1015d958388758cb333df468bbf3d, vendorRoot := (0x7e6b30057e16b97715d59ed5c1f9e5cd93efbb454aa0a876e3b8d5aa122a27f70dafcfc0d0f734c4b7cd9e6e0b5e43b2b8ea9bb0957991ab50b89347d544a7ceb5, 0x1dbea5982e59fee8fda6cc7689fd237af1b368cce3bb3e874aef120f33b8922998a07266d271e23458a1646a9f6d52961b7d8d3aaee4e9276a445573560a9b65b32) }, tack := { mb0.tack with nonce := some (0x1234567, 0) }, flash := { mb0.flash with stage := cells stage, stageLen := stage.length, failCount := 2, suspectA := true }, regs := tPut Reg.chipId.addr 0x77 (mbr c).regs }

def smb (r : Option (List (BitVec 8))) (p : Nat) : State := { off with tack := { up := true, smbReport := r, smbPart := p } }

def rwa (r : Reg) : BitVec 64 := BitVec.ofNat 64 r.addr


def z16 : List Byte := List.replicate 16 0

theorem z16_1 : z16.foldl crc32cByte 0xFFFFFFFF#32 = 3180291349#32 := by decide +kernel

theorem z16_2 : z16.foldl crc32cByte 3180291349#32 = 1970194773#32 := by decide +kernel

theorem z16_3 : z16.foldl crc32cByte 1970194773#32 = 3614688582#32 := by decide +kernel

theorem z16_4 : (List.replicate 15 (0 : Byte) ++ [7]).foldl crc32cByte 3614688582#32 = 687698035#32 := by decide +kernel

theorem flit_crc : ([(7 : BitVec 512)].flatMap flitBytes).foldl crc32cByte 0xFFFFFFFF#32 = 687698035#32 := by
  rw [show [(7 : BitVec 512)].flatMap flitBytes = z16 ++ (z16 ++ (z16 ++ (List.replicate 15 (0 : Byte) ++ [7]))) by decide +kernel]
  rw [List.foldl_append, z16_1, List.foldl_append, z16_2, List.foldl_append, z16_3, z16_4]

def frame0 : BitVec 128 := 90699041526124309049844931902805814435

def frame1 : BitVec 128 := 90699041527362249089130312177152634574

theorem frame0_crc : frameCrc frame0 [7] = fld frame0 31 0 := by
  unfold frameCrc crc32c
  rw [List.foldl_append, flit_crc]
  decide +kernel

theorem frame1_crc : frameCrc frame1 [7] = fld frame1 31 0 := by
  unfold frameCrc crc32c
  rw [List.foldl_append, flit_crc]
  decide +kernel

def crcSteps : List (BitVec 32) → List Byte → BitVec 32 → Bool
  | [], bs, _ => bs.isEmpty
  | y :: ys, bs, x => decide ((bs.take 16).foldl crc32cByte x = y) && crcSteps ys (bs.drop 16) y

theorem crc_steps (ys : List (BitVec 32)) : ∀ (bs : List Byte) (x : BitVec 32), crcSteps ys bs x = true →
    bs.foldl crc32cByte x = ys.getLastD x := by
  induction ys with
  | nil =>
    intro bs x h
    cases bs with
    | nil => rfl
    | cons a l => simp [crcSteps] at h
  | cons y ys ih =>
    intro bs x h
    simp only [crcSteps, Bool.and_eq_true, decide_eq_true_eq] at h
    rw [← List.take_append_drop 16 bs, List.foldl_append, h.1, ih _ _ h.2]
    exact (List.getLastD_cons ..).symm

def pktBytes (p : Pkt) : List Byte := match p with
  | [] => []
  | f :: fs => flitBytes (ecrcView f.bits) ++ fs.flatMap (fun f => flitBytes f.bits)

theorem sound_of (p : Pkt) (ys : List (BitVec 32)) (h : (crcSteps ys (pktBytes p) 0xFFFFFFFF#32 = true ∧ p ≠ [] ∧
    Pkt.poisoned p = false ∧ (~~~ ys.getLastD 0xFFFFFFFF#32).toNat = Pkt.ecrc p)) : Pkt.Sound p := by
  obtain ⟨h1, h2, h3, h4⟩ := h
  refine ⟨h3, ?_⟩
  have := crc_steps ys _ _ h1
  cases p with
  | nil => exact absurd rfl h2
  | cons f fs => simp only [pktBytes] at this; simp only [Pkt.ecrcOf, crc32c, this]; exact h4

theorem pAck_sound : Pkt.Sound pAck := sound_of pAck [0xa4057822, 0x7a743481, 0x701accc0, 0xa56814a2] (by decide +kernel)

theorem pPut0_sound : Pkt.Sound pPut0 := sound_of pPut0 [0xa4057822, 0x2b9ebcfb, 0x2d4d775e, 0x45d94d4c] (by decide +kernel)

theorem pMal_sound : Pkt.Sound pMal := sound_of pMal [0xa4057822, 0xbc6952d2, 0x6958baa0, 0xd72b6e4f] (by decide +kernel)

theorem pOpen_sound : Pkt.Sound pOpen := sound_of pOpen [0xa4057822, 0xaf9db5d9, 0x59974ad4, 0x8e89e3af] (by decide +kernel)

theorem pFlag_sound : Pkt.Sound pFlag := sound_of pFlag [0x7acaba11, 0x48c1324c, 0x7919d014, 0x238f8e61] (by decide +kernel)

theorem pPut_sound : Pkt.Sound pPut := sound_of pPut [0xc723fe95, 0xc0572e08, 0x3864afd2, 0xfb017e53, 0x8e389859, 0x2d2315a6, 0xcc3176c, 0x71b0ce6] (by decide +kernel)

theorem pAtom_sound : Pkt.Sound pAtom := sound_of pAtom [0xc723fe95, 0x1751e9d2, 0x9ece6969, 0x822148bd, 0x30b9067c, 0xefe339e2, 0x50567fc8, 0xb6e47167] (by decide +kernel)

theorem pGet_sound : Pkt.Sound pGet := sound_of pGet [0xa4057822, 0x126576ab, 0x5ff3f34d, 0xa3e9ed57] (by decide +kernel)

theorem tFind_cells (bs : List Byte) : ∀ k i, tFind ((bs.zipIdx k).map (fun e => (e.2, e.1))) (k + i) = bs[i]? := by
  induction bs with
  | nil => intro k i; rfl
  | cons b bs ih =>
    intro k i
    cases i with
    | zero => simp [List.zipIdx_cons, tFind]
    | succ i =>
      have h := ih (k + 1) i
      simp only [List.zipIdx_cons, List.map_cons, tFind]
      rw [if_neg (by omega)]
      have e : k + (i + 1) = k + 1 + i := by omega
      rw [e, h]; rfl

theorem memRead_cells (bs : List Byte) : memRead (cells bs) 0 bs.length = bs := by
  unfold memRead memByte tGet cells
  apply List.ext_getElem
  · simp
  · intro i h1 h2
    have h := tFind_cells bs 0 i
    simp only [Nat.zero_add] at h
    simp [h, h2]

theorem memRead_cells_n (bs : List Byte) (n : Nat) (h : n = bs.length) : bs = memRead (cells bs) 0 n := by
  rw [h]; exact (memRead_cells bs).symm

theorem bytes_mcd (k : Nat) (bs : List Byte) (n : Nat) (h : bs.length = n) : (mcd k [] (cells bs)).bytes n = bs := by
  subst h; exact memRead_cells bs

theorem staged_sg (c : MbCmd) (bs : List Byte) : bs = (sg c bs).staged := (memRead_cells bs).symm

theorem buf_mcd (k : Nat) (bs : List Byte) (n : Nat) (h : bs.length = n) : bs = memRead (mcd k [] (cells bs)).buf 0 n := by
  subst h; exact (memRead_cells bs).symm

theorem sc40_read : (mcd 0x40 [] (cells b_sc40)).bytes 532 = b_sc40 :=
  bytes_mcd _ _ _ (beBytes_length _ _)

theorem sc40_ok : (sg (mcd 0x40 [] (cells b_sc40)) []).signedCheck (mcd 0x40 [] (cells b_sc40)) 0 = 0 := by
  unfold State.signedCheck
  rw [sc40_read]
  decide +kernel

theorem sc41_read : (mcd 0x41 [] (cells b_sc41)).bytes 532 = b_sc41 :=
  bytes_mcd _ _ _ (beBytes_length _ _)

theorem sc41_ok : (sg (mcd 0x41 [] (cells b_sc41)) []).signedCheck (mcd 0x41 [] (cells b_sc41)) 1 = 0 := by
  unfold State.signedCheck
  rw [sc41_read]
  decide +kernel

theorem sc43_read : (mcd 0x43 [] (cells b_sc43)).bytes 532 = b_sc43 :=
  bytes_mcd _ _ _ (beBytes_length _ _)

theorem sc43_ok : (sg (mcd 0x43 [] (cells b_sc43)) []).signedCheck (mcd 0x43 [] (cells b_sc43)) 1 = 0 := by
  unfold State.signedCheck
  rw [sc43_read]
  decide +kernel

theorem blk0_read : b_blk0 = memRead (mcd 0x42 [] (cells b_blk0)).buf 0 272 := buf_mcd _ _ _ (beBytes_length _ _)

theorem qos_read : b_qos = (sg (mcd 0x12 [] []) b_qos).staged := staged_sg _ _

theorem rset_read : b_rset = (sg (mcd 0x12 [] []) b_rset).staged := staged_sg _ _

theorem under_read : b_under = (sg (mcd 0x13 [1] []) b_under).staged := staged_sg _ _

/-- Each case of EmptyQueuePassesOneCount is met by some state. -/
theorem test_met_EmptyQueuePassesOneCount :
    (∃ (s : State), s.pending = [] ∧ s.Calm ∧ s.storesDrained = true ∧ s.coreAccs = []) :=
  ⟨ready, by decide +kernel⟩

/-- Each case of ResetLeavesThePartAsDelivered is met by some state. -/
theorem test_met_ResetLeavesThePartAsDelivered :
    (∃ (s : State), (s.fuses.owner0 = none ∧ s.fuses.owner1 = none)) :=
  ⟨off, by decide +kernel⟩

/-- Each case of SuppliesAndResetStartTheTackRoom is met by some state. -/
theorem test_met_SuppliesAndResetStartTheTackRoom :
    (∃ (s : State) (_b : Bool), s.pins.vinAux = false ∧ s.pins.resetL = true) ∧
    (∃ (s : State) (_b : Bool), s.Calm ∧ s.pins.vinAux = false ∧ s.pins.resetL = false) ∧
    (∃ (s : State) (_b : Bool), s.Calm ∧ s.pins.vinAux = true) ∧
    (∃ (s : State), s.pins.resetL = false ∧ s.pins.vinAux = true) ∧
    (∃ (s : State), s.Calm ∧ s.pins.resetL = false ∧ s.pins.vinAux = false) ∧
    (∃ (s : State), s.pins.resetL = true ∧ s.pins.vinAux = true) ∧
    (∃ (s : State), s.Calm ∧ s.pins.resetL = true ∧ s.pins.vinAux = false) :=
  ⟨⟨off.modPins (fun _ => { resetL := true }), true, by decide +kernel⟩, ⟨off.modPins (fun _ => {}), false,
   by decide +kernel⟩, ⟨ready, true, by decide +kernel⟩, ⟨off, by decide +kernel⟩, ⟨off.modPins (fun _ => {}),
   by decide +kernel⟩, ⟨ready, by decide +kernel⟩, ⟨off.modPins (fun _ => { resetL := true }), by decide +kernel⟩⟩

/-- Each case of StartRaisesMainPower is met by some state. -/
theorem test_met_StartRaisesMainPower :
    (∃ (s : State) (dt : Nat) (v : Bool) (_a : BitVec 2), (s.elapse dt).Calm ∧ (s.elapse dt).pins.vinAux = true ∧
      (s.elapse dt).pins.resetL = true ∧ (s.elapse dt).tack.up = false ∧ (s.elapse dt).tack.dead = false ∧ (s.elapse
      dt).step? = 2 ∧ ((s.elapse dt).flash.grave = none ∨ ((s.elapse dt).pins.graveLatch = false ∧ v = false)) ∧
      (s.elapse dt).tack.retryAt = none ∧ (s.elapse dt).flash.failCount < 3) ∧
    (∃ (s : State) (dt : Nat) (v : Bool) (_a : BitVec 2) (g : Nat × Nat), (s.elapse dt).Calm ∧ (s.elapse dt).pins.vinAux =
      true ∧ (s.elapse dt).pins.resetL = true ∧ (s.elapse dt).tack.up = false ∧ (s.elapse dt).tack.dead = false ∧
      (s.elapse dt).step? = 2 ∧ (s.elapse dt).flash.grave = some g ∧ ((s.elapse dt).pins.graveLatch = true ∨ v =
      true)) ∧
    (∃ (s : State) (dt t0 : Nat), (s.elapse dt).Calm ∧ (s.elapse dt).tack.retryAt = some t0 ∧ (s.elapse dt).tack.up = true
      ∧ t0 + ms 1000 ≤ (s.elapse dt).tk ∧ (s.elapse dt).flash.failCount < 3) ∧
    (∃ (s : State), s.Calm ∧ s.pins.mainEn = true ∧ s.pins.mainPg = false ∧ s.pins.vinAux = true ∧ s.tack.up = true ∧
      s.tack.starting = true ∧ s.step? = 4 ∧ s.tk ≤ s.tack.stepAt + ms 100) ∧
    (∃ (s : State), s.Calm ∧ s.pins.mainEn = false) ∧
    (∃ (s : State), s.Calm ∧ s.tack.up = true ∧ s.pins.mainPg = true ∧ s.coreOn = false ∧ s.tack.starting = true ∧ s.step?
      = 5 ∧ s.tk ≤ s.tack.stepAt + ms 5) :=
  ⟨⟨booting, 16, true, 2, by decide +kernel⟩, ⟨halting, 16, true, 1, (0x01F0, 3), by decide +kernel⟩, ⟨pausing, 0, 5,
   by decide +kernel⟩, ⟨waitPg, by decide +kernel⟩, ⟨off, by decide +kernel⟩, ⟨waitReg, by decide +kernel⟩⟩

/-- Each case of StartStepsSucceedOrFail is met by some state. -/
theorem test_met_StartStepsSucceedOrFail :
    (∃ (s : State) (dt : Nat), (s.elapse dt).Calm ∧ (s.elapse dt).tack.up = true ∧ (s.elapse dt).pins.mainPg = false ∧
      (s.elapse dt).tack.stepAt + ms 100 < (s.elapse dt).tk ∧ (s.elapse dt).tack.starting = true ∧ (s.elapse dt).step?
      = 4) ∧
    (∃ (s : State), s.Calm ∧ s.tack.up = true ∧ s.tack.starting = true ∧ s.coreOn = true ∧ s.step? = 6 ∧ s.tk ≤
      s.tack.stepAt + ms 200 ∧ s.startLate = false) ∧
    (∃ (s : State), s.Calm ∧ s.tack.up = true ∧ s.tack.starting = true ∧ s.coreOn = true ∧ s.step? = 9 ∧ s.startLate =
      false) ∧
    (∃ (s : State) (dt : Nat) (_west : Bool), (s.elapse dt).Calm ∧ (s.elapse dt).tack.up = true ∧ (s.elapse
      dt).tack.starting = true ∧ (s.elapse dt).step? = 8 ∧ (s.elapse dt).tack.stepAt + ms 50 < (s.elapse dt).tk) :=
  ⟨⟨waitPg, 200000001, by decide +kernel⟩, ⟨starting 6, by decide +kernel⟩, ⟨starting 9, by decide +kernel⟩, ⟨starting 8,
   1, true, by decide +kernel⟩⟩

/-- Each case of LossOfPowerAndGraveStopMainPower is met by some state. -/
theorem test_met_LossOfPowerAndGraveStopMainPower :
    (∃ (s : State) (_b : Bool), s.Calm ∧ s.pins.mainEn = true ∧ s.pins.mainPg = true ∧ s.tack.up = true ∧ s.tack.starting
      = false ∧ s.mode = 1) ∧
    (∃ (s : State), s.Calm ∧ s.pins.vinAux = true) ∧
    (∃ (s : State) (_k : Fin 24), s.Calm ∧ s.pins.vinAux = true ∧ s.flash.grave = none ∧ s.tack.dead = false) ∧
    (∃ (s : State) (_u : BitVec 8), s.Calm ∧ s.pins.vinAux = true ∧ s.flash.grave = none ∧ s.tack.dead = false) ∧
    (∃ (s : State), s.Calm ∧ s.tack.up = true ∧ ms 50 < s.tk) :=
  ⟨⟨ready, true, by decide +kernel⟩, ⟨ready, by decide +kernel⟩, ⟨ready, 23, by decide +kernel⟩, ⟨ready, 0,
   by decide +kernel⟩, ⟨ready.elapse (ms 50 + 1), by decide +kernel⟩⟩

/-- Each case of PaceVoltageAndPowerLoops is met by some state. -/
theorem test_met_PaceVoltageAndPowerLoops :
    (∃ (s : State) (dt : Nat) (e w : List (BitVec 16)), (s.elapse dt).Calm ∧ (s.elapse dt).live .global = true ∧ (s.elapse
      dt).dust = false ∧ (s.elapse dt).paceAt + us 1 ≤ (s.elapse dt).clk ∧ e.length = 16 ∧ w.length = 16 ∧ 1750 ≤
      lowest e ∧ 1750 ≤ lowest w) ∧
    (∃ (s : State) (dt : Nat) (e w : List (BitVec 16)), (s.elapse dt).Calm ∧ (s.elapse dt).live .global = true ∧ (s.elapse
      dt).dust = false ∧ (s.elapse dt).paceAt + us 1 ≤ (s.elapse dt).clk ∧ e.length = 16 ∧ w.length = 16) ∧
    (∃ (s : State) (dt : Nat) (_e _w : List (BitVec 16)), (s.elapse dt).Calm ∧ (s.elapse dt).live .global = true ∧
      (s.elapse dt).clk < (s.elapse dt).paceAt + us 1) ∧
    (∃ (s : State) (dt : Nat) (e w : List (BitVec 16)), (s.elapse dt).Calm ∧ (s.elapse dt).live .global = true ∧ (s.elapse
      dt).dust = true ∧ (s.elapse dt).paceAt + us 1 ≤ (s.elapse dt).clk ∧ e.length = 16 ∧ w.length = 16) ∧
    (∃ (s : State) (dt : Nat) (tj : List (BitVec 8)), (s.elapse dt).tack.up = true ∧ (s.elapse dt).coreOn = true ∧
      (s.elapse dt).dust = false ∧ (s.elapse dt).tack.voltAt + us 10 ≤ (s.elapse dt).tk ∧ tj.length = 24) ∧
    (∃ (s : State) (dt : Nat) (tj : List (BitVec 8)), (s.elapse dt).tack.up = true ∧ (s.elapse dt).coreOn = true ∧
      (s.elapse dt).dust = true ∧ (s.elapse dt).tack.voltAt + us 10 ≤ (s.elapse dt).tk ∧ tj.length = 24) ∧
    (∃ (s : State) (dt : Nat) (_w : BitVec 16), (s.elapse dt).tack.up = true ∧ (s.elapse dt).coreOn = true ∧ (s.elapse
      dt).tack.powAt + ms 1 ≤ (s.elapse dt).tk) :=
  ⟨⟨ready, 16000, 1760 :: List.replicate 15 2400, List.replicate 16 1830, by decide +kernel⟩, ⟨ready, 16000, 1740 ::
   List.replicate 15 2400, List.replicate 16 1830, by decide +kernel⟩, ⟨ready, 15999, List.replicate 16 1740,
   List.replicate 16 1830, by decide +kernel⟩, ⟨ready.setMode 2, 16000, 1740 :: List.replicate 15 2400, List.replicate
   16 1830, by decide +kernel⟩, ⟨ready, 160000, List.replicate 24 80, by decide +kernel⟩, ⟨ready.setMode 2, 160000,
   List.replicate 24 80, by decide +kernel⟩, ⟨ready.wf .tkPower 15 0 1800, 16000000, 601, by decide +kernel⟩⟩

/-- Each case of LaneTrainingBeginsAndTakesFrames is met by some state. -/
theorem test_met_LaneTrainingBeginsAndTakesFrames :
    (∃ (s : State) (p : Port) (l : Fin 4), s.Calm ∧ s.live (.port p) = true ∧ s.laneOn (.net p l) = true ∧ s.linkOn (.port
      p) = true ∧ s.laneState (.net p l) = 0 ∧ s.llState (.port p) ≠ 0) ∧
    (∃ (s : State) (h : HLink) (l : Fin 16), s.Calm ∧ s.live (.hostlink h) = true ∧ s.laneOn (.host h l) = true ∧ s.linkOn
      (.host h) = true ∧ s.laneState (.host h l) = 0 ∧ s.llState (.host h) ≠ 0) ∧
    (∃ (s : State) (p : Port) (l : Fin 4), s.Calm ∧ s.live (.port p) = true ∧ s.laneOn (.net p l) = true ∧ s.inService
      (.port p) = true ∧ s.laneState (.net p l) ≠ 1 ∧ (s.port p).use.contains l.val = false) ∧
    (∃ (s : State) (h : HLink) (l : Fin 16), s.Calm ∧ s.live (.hostlink h) = true ∧ s.laneOn (.host h l) = true ∧
      s.inService (.host h) = true ∧ s.laneState (.host h l) ≠ 1 ∧ (s.hl h).use.contains l.val = false) ∧
    (∃ (s : State) (n : LaneId), s.Calm ∧ s.live (laneBlock n) = true ∧ s.laneState n = 1) ∧
    (∃ (s : State) (p : Port) (l : Fin 4) (c t0 : BitVec 16) (_k : BitVec 2), s.Calm ∧ s.live (.port p) = true ∧
      s.laneState (.net p l) = 1 ∧ 3 ≤ (s.lane (.net p l)).step ∧ fieldOk c = true ∧ fieldOk t0 = true) ∧
    (∃ (s : State) (p : Port) (l : Fin 4) (c t0 : BitVec 16) (_k : BitVec 2), s.Calm ∧ s.live (.port p) = true ∧
      s.laneState (.net p l) = 1 ∧ 3 ≤ (s.lane (.net p l)).step ∧ fieldOk c = false ∧ fieldOk t0 = false) ∧
    (∃ (s : State) (h : HLink) (l : Fin 16) (_b _r _st : BitVec 8), s.Calm ∧ s.live (.hostlink h) = true ∧ s.laneState
      (.host h l) = 1 ∧ 3 ≤ (s.lane (.host h l)).step) :=
  ⟨⟨lane n52 0 id, 5, 2, by decide +kernel⟩, ⟨lane h3 0 id, 1, 3, by decide +kernel⟩, ⟨lane n52 2 id, 5, 2,
   by decide +kernel⟩, ⟨lane h3 6 id, 1, 3, by decide +kernel⟩, ⟨lane h3 1 id, h3, by decide +kernel⟩, ⟨lane n52 1
   (fun x => { x with step := 4 }), 5, 2, ctl, sts, 1, by decide +kernel⟩, ⟨lane n52 1 (fun x =>
   { x with step := 4 }), 5, 2, ctl + 1, sts + 2, 3, by decide +kernel⟩, ⟨lane h3 1 (fun x => { x with step := 3 }),
   1, 3, 3, 2, 0x80, by decide +kernel⟩⟩

/-- Each case of LaneTrainingEnds is met by some state. -/
theorem test_met_LaneTrainingEnds :
    (∃ (s : State) (p : Port) (l : Fin 4) (_b : Bool), s.Calm ∧ s.live (.port p) = true ∧ s.laneState (.net p l) = 1 ∧
      (s.lane (.net p l)).step = 6 ∧ 8 ≤ (s.lane (.net p l)).seenReady ∧ s.rb (.laneStatus (.net p l)) 11 = true) ∧
    (∃ (s : State) (p : Port) (l : Fin 4) (_b : Bool), s.Calm ∧ s.live (.port p) = true ∧ s.laneState (.net p l) = 1 ∧
      (s.lane (.net p l)).step = 2) ∧
    (∃ (s : State) (p : Port) (l : Fin 4) (_b : Bool), s.Calm ∧ s.live (.port p) = true ∧ s.laneState (.net p l) = 1 ∧
      (s.lane (.net p l)).step = 4 ∧ (s.lane (.net p l)).pam4 = false) ∧
    (∃ (s : State) (h : HLink) (l : Fin 16) (_b : Bool), s.Calm ∧ s.live (.hostlink h) = true ∧ s.laneState (.host h l) =
      1 ∧ (s.lane (.host h l)).step = 4 ∧ (∀ m : Fin 16, s.laneState (.host h m) = 1 → (s.lane (.host h m)).ready =
      true ∧ (s.lane (.host h m)).farReady = true)) ∧
    (∃ (s : State) (n : LaneId) (dt : Nat), (s.elapse dt).Calm ∧ (s.elapse dt).live (laneBlock n) = true ∧ (s.elapse
      dt).laneState n = 1 ∧ ((s.elapse dt).lane n).since + (if laneHost n then us 40000 else us 300000) < (s.elapse
      dt).clk ∧ ((s.elapse dt).lane n).fails < 2) ∧
    (∃ (s : State) (n : LaneId) (dt : Nat), (s.elapse dt).Calm ∧ (s.elapse dt).live (laneBlock n) = true ∧ (s.elapse
      dt).laneState n = 1 ∧ ((s.elapse dt).lane n).since + (if laneHost n then us 40000 else us 300000) < (s.elapse
      dt).clk ∧ 2 ≤ ((s.elapse dt).lane n).fails ∧ (laneHost n = false ∨ (s.elapse dt).llState (laneLink n) ≠ 7)) ∧
    (∃ (s : State) (h : HLink) (l : Fin 16) (dt : Nat), (s.elapse dt).Calm ∧ (s.elapse dt).live (.hostlink h) = true ∧
      (s.elapse dt).laneState (.host h l) = 1 ∧ ((s.elapse dt).lane (.host h l)).since + us 40000 < (s.elapse dt).clk
      ∧ (s.elapse dt).llState (.host h) = 7) ∧
    (∃ (s : State) (p : Port) (l : Fin 4) (_b : Bool), s.Calm ∧ s.live (.port p) = true ∧ s.laneState (.net p l) = 1 ∧
      (s.lane (.net p l)).step = 4 ∧ (s.lane (.net p l)).pam4 = true) ∧
    (∃ (s : State) (h : HLink) (l : Fin 16) (_b : Bool), s.Calm ∧ s.live (.hostlink h) = true ∧ s.laneState (.host h l) =
      1 ∧ (s.lane (.host h l)).step = 3 ∧ (s.lane (.host h l)).swept = true) ∧
    (∃ (s : State) (h : HLink) (l : Fin 16) (_b : Bool), s.Calm ∧ s.live (.hostlink h) = true ∧ s.laneState (.host h l) =
      1 ∧ (s.lane (.host h l)).step = 3 ∧ (s.lane (.host h l)).swept = false) ∧
    (∃ (s : State) (h : HLink) (l : Fin 16) (_b : Bool), s.Calm ∧ s.live (.hostlink h) = true ∧ s.laneState (.host h l) =
      1 ∧ (s.lane (.host h l)).step = 2) ∧
    (∃ (s : State) (p : Port) (l : Fin 4) (_b : Bool), s.Calm ∧ s.live (.port p) = true ∧ s.laneState (.net p l) = 1 ∧
      (s.lane (.net p l)).step = 3) ∧
    (∃ (s : State) (p : Port) (l : Fin 4) (_b : Bool), s.Calm ∧ s.live (.port p) = true ∧ s.laneState (.net p l) = 1 ∧
      (s.lane (.net p l)).step = 5) :=
  ⟨⟨(lane n52 1 (fun x => { x with step := 6, seenReady := 8, fails := 2 })).wb (.laneStatus n52) 11 true, 5, 2, false,
   by decide +kernel⟩, ⟨lane n52 1 (fun x => { x with step := 2 }), 5, 2, true, by decide +kernel⟩, ⟨lane n52 1 (fun x
   => { x with step := 4 }), 5, 2, false, by decide +kernel⟩, ⟨lane h3 1 (fun x =>
   { x with step := 4, ready := true, farReady := true }), 1, 3, false, by decide +kernel⟩, ⟨lane h3 1 (fun x =>
   { x with fails := 1 }), h3, us 40000 + 1, by decide +kernel⟩, ⟨lane n52 1 (fun x => { x with fails := 2 }), n52, us
   300000 + 1, by decide +kernel⟩, ⟨(lane h3 1 (fun x => { x with fails := 2 })).wf (.llStatus (.host 1)) 3 0 7, 1, 3,
   us 40000 + 1, by decide +kernel⟩, ⟨lane n52 1 (fun x => { x with step := 4, pam4 := true }), 5, 2, false,
   by decide +kernel⟩, ⟨lane h3 1 (fun x => { x with step := 3, swept := true }), 1, 3, false, by decide +kernel⟩,
   ⟨lane h3 1 (fun x => { x with step := 3 }), 1, 3, false, by decide +kernel⟩, ⟨lane h3 1 (fun x =>
   { x with step := 2 }), 1, 3, true, by decide +kernel⟩, ⟨lane n52 1 (fun x => { x with step := 3 }), 5, 2, false,
   by decide +kernel⟩, ⟨lane n52 1 (fun x => { x with step := 5 }), 5, 2, false, by decide +kernel⟩⟩

/-- Each case of ElectricalIdleOfLanes is met by some state. -/
theorem test_met_ElectricalIdleOfLanes :
    (∃ (s : State) (p : Port) (l : Fin 4), s.Calm ∧ s.live (.port p) = true ∧ s.laneState (.net p l) = 2 ∧ (s.rb
      (.laneCtrl (.net p l)) 5 = true ∨ (s.port p).txIdle = true)) ∧
    (∃ (s : State) (p : Port) (l : Fin 4), s.Calm ∧ s.live (.port p) = true ∧ s.laneState (.net p l) = 3 ∧ s.rb (.laneCtrl
      (.net p l)) 5 = false ∧ s.inService (.port p) = true ∧ (s.lane (.net p l)).txIdle = true ∧ (s.lane (.net p
      l)).rxIdle = false ∧ (s.port p).retrain = none ∧ ((s.port p).txIdle = false ∨ s.portQuiet p = false)) ∧
    (∃ (s : State) (h : HLink) (_l : Fin 16), s.Calm ∧ s.live (.hostlink h) = true ∧ (s.hl h).txIdle = true ∧ (s.hl
      h).retrain = none) ∧
    (∃ (s : State) (h : HLink) (l : Fin 16), s.Calm ∧ s.live (.hostlink h) = true ∧ s.laneState (.host h l) = 3 ∧ s.rb
      (.laneCtrl (.host h l)) 5 = false ∧ s.inService (.host h) = true ∧ (s.lane (.host h l)).txIdle = true ∧ (s.lane
      (.host h l)).rxIdle = false ∧ (s.hl h).retrain = none ∧ ((s.hl h).txIdle = false ∨ s.hostQuiet h = false)) ∧
    (∃ (s : State) (p : Port) (l : Fin 4) (_k : BitVec 2), s.Calm ∧ s.live (.port p) = true ∧ s.laneState (.net p l) = 3 ∧
      s.inService (.port p) = true ∧ (s.port p).retrain = none) ∧
    (∃ (s : State) (h : HLink) (l : Fin 16), s.Calm ∧ s.live (.hostlink h) = true ∧ s.laneState (.host h l) = 3 ∧
      s.inService (.host h) = true ∧ (s.hl h).retrain = none) ∧
    (∃ (s : State) (p : Port) (l : Fin 4), s.Calm ∧ s.live (.port p) = true ∧ s.laneState (.net p l) = 3 ∧ s.rb (.laneCtrl
      (.net p l)) 5 = false ∧ (s.lane (.net p l)).txIdle = true ∧ (s.lane (.net p l)).rxIdle = true ∧ (s.port
      p).retrain = none ∧ ((s.port p).txIdle = false ∨ s.portQuiet p = false)) ∧
    (∃ (s : State) (p : Port) (l : Fin 4), s.Calm ∧ s.live (.port p) = true ∧ s.laneState (.net p l) = 5 ∧ s.rb (.laneCtrl
      (.net p l)) 5 = true) ∧
    (∃ (s : State) (p : Port) (l : Fin 4), s.Calm ∧ s.live (.port p) = true ∧ s.laneState (.net p l) = 4 ∧ s.rb (.laneCtrl
      (.net p l)) 5 = true ∧ (s.lane (.net p l)).txIdle = true ∧ (s.port p).retrain = none) :=
  ⟨⟨(lane n52 2 id).wb (.laneCtrl n52) 5 true, 5, 2, by decide +kernel⟩, ⟨lane n52 3 (fun x =>
   { x with txIdle := true }), 5, 2, by decide +kernel⟩, ⟨(lane h3 2 id).modHl 1 (fun x => { x with txIdle := true }),
   1, 3, by decide +kernel⟩, ⟨lane h3 3 (fun x => { x with txIdle := true }), 1, 3, by decide +kernel⟩, ⟨lane n52 3
   (fun x => { x with rxIdle := true }), 5, 2, 1, by decide +kernel⟩, ⟨lane h3 3 (fun x => { x with rxIdle := true }),
   1, 3, by decide +kernel⟩, ⟨lane n52 3 (fun x => { x with txIdle := true, rxIdle := true }), 5, 2,
   by decide +kernel⟩, ⟨(lane n52 5 id).wb (.laneCtrl n52) 5 true, 5, 2, by decide +kernel⟩, ⟨(lane n52 4 (fun x =>
   { x with txIdle := true })).wb (.laneCtrl n52) 5 true, 5, 2, by decide +kernel⟩⟩

/-- Each case of LaneTestFeatures is met by some state. -/
theorem test_met_LaneTestFeatures :
    (∃ (s : State) (p : Port) (l : Fin 4) (line : BitVec 5440), s.Calm ∧ s.live (.port p) = true ∧ s.laneOn (.net p l) =
      true ∧ s.rf (.laneCtrl (.net p l)) 9 7 = 0 ∧ (s.laneState (.net p l) = 1 ∨ (s.laneState (.net p l) = 2 ∧
      s.portHears p = false)) ∧ (s.heard p l line).erred = true) ∧
    (∃ (s : State) (p : Port) (l : Fin 4) (line : BitVec 5440), s.Calm ∧ s.live (.port p) = true ∧ s.laneOn (.net p l) =
      true ∧ s.rf (.laneCtrl (.net p l)) 9 7 = 0 ∧ (s.laneState (.net p l) = 1 ∨ (s.laneState (.net p l) = 2 ∧
      s.portHears p = false)) ∧ (s.heard p l line).erred = false ∧ fld (s.heard p l line).tag 19 16 = 0xA) ∧
    (∃ (s : State) (p : Port) (l : Fin 4) (_line : BitVec 5440), s.Calm ∧ s.live (.port p) = true ∧ s.laneOn (.net p l) =
      true ∧ s.rf (.laneCtrl (.net p l)) 9 7 = 3 ∧ s.rb (.laneCtrl (.net p l)) 5 = false ∧ (s.lane (.net p l)).invert
      = 0) ∧
    (∃ (s : State) (n : LaneId) (dt : Nat), (s.elapse dt).live (laneBlock n) = true ∧ (s.elapse dt).rf (.laneTest n) 15 10
      ≠ 0 ∧ (s.elapse dt).laneState n ≠ 0 ∧ ((s.elapse dt).lane n).injAt + bitTime (laneHost n) ((((s.elapse dt).lane
      n).injNo + 1) * 2 ^ (s.elapse dt).rf (.laneTest n) 15 10) ≤ (s.elapse dt).clk) ∧
    (∃ (s : State) (n : LaneId) (dt : Nat), (s.elapse dt).live (laneBlock n) = true ∧ (s.elapse dt).clk < ((s.elapse
      dt).lane n).injAt + bitTime (laneHost n) ((((s.elapse dt).lane n).injNo + 1) * 2 ^ (s.elapse dt).rf (.laneTest
      n) 15 10)) ∧
    (∃ (s : State) (n : LaneId), s.live (laneBlock n) = true ∧ s.laneState n ≠ 0) ∧
    (∃ (s : State) (n : LaneId), s.live (laneBlock n) = true ∧ (s.laneState n = 2 ∨ s.laneState n = 5) ∧ s.rb (.laneMargin
      n) 63 = false) ∧
    (∃ (s : State) (n : LaneId) (dt : Nat) (_d : BitVec 32), (s.elapse dt).live (laneBlock n) = true ∧ (s.elapse dt).rb
      (.laneMargin n) 63 = true ∧ ((s.elapse dt).lane n).scanAt + us (2 ^ (s.elapse dt).rf (.laneMargin n) 39 36) ≤
      (s.elapse dt).clk) ∧
    (∃ (s : State) (n : LaneId) (dt : Nat) (_e : BitVec 48), (s.elapse dt).live (laneBlock n) = true ∧ ((s.elapse
      dt).laneState n = 2 ∨ (s.elapse dt).laneState n = 5) ∧ ((s.elapse dt).lane n).eyeAt + us 1000 ≤ (s.elapse
      dt).clk) ∧
    (∃ (s : State) (n : LaneId), s.live (laneBlock n) = true) ∧
    (∃ (s : State) (n : LaneId) (b : BitVec 256), s.live (laneBlock n) = true ∧ s.laneState n = 5 ∧ s.rb (.laneTest n) 7 =
      true ∧ s.rb (.laneTest n) 8 = false ∧ patMatches (s.rf (.laneTest n) 6 4) (s.userPattern n) (s.heardBits n
      (bitsMsb 256 b.toNat)) = true) ∧
    (∃ (s : State) (n : LaneId) (b : BitVec 256), s.live (laneBlock n) = true ∧ patMatches (s.rf (.laneTest n) 6 4)
      (s.userPattern n) (s.heardBits n (bitsMsb 256 b.toNat)) = false) :=
  ⟨⟨lane n52 2 id, 5, 2, badLine, by decide +kernel⟩, ⟨lane n52 2 id, 5, 2, goodLine, by decide +kernel⟩, ⟨(lane n52 5
   id).wf (.laneCtrl n52) 9 7 3, 5, 2, badLine, by decide +kernel⟩, ⟨(lane h3 2 id).wf (.laneTest h3) 15 10 12, h3,
   1166, by decide +kernel⟩, ⟨(lane h3 2 id).wf (.laneTest h3) 15 10 12, h3, 1165, by decide +kernel⟩, ⟨lane h3 2 id,
   h3, by decide +kernel⟩, ⟨lane n52 2 id, n52, by decide +kernel⟩, ⟨(lane n52 5 id).wb (.laneMargin n52) 63 true,
   n52, us 2, 77, by decide +kernel⟩, ⟨lane h3 2 id, h3, us 1000, 0x112233445566, by decide +kernel⟩, ⟨lane n52 2 (fun
   x => { x with bits := 4000, chkSince := some 0 }), n52, by decide +kernel⟩, ⟨userTest, n52,
   0x0123456789ABCDEF5A5A0123456789ABCDEF5A5A0123456789ABCDEF5A5A0123, by decide +kernel⟩, ⟨userTest, n52,
   0x1123456789ABCDEF5A5A0123456789ABCDEF5A5A0123456789ABCDEF5A5A0123, by decide +kernel⟩⟩

/-- Each case of FramesAreAcceptedInOrderAndReplayed is met by some state. -/
theorem test_met_FramesAreAcceptedInOrderAndReplayed :
    (∃ (s : State) (p : Port) (al : Bool) (t0 : BitVec 128) (fl : List (BitVec 512)) (e : Bool), s.Calm ∧ s.live (.port p)
      = true ∧ s.portState p = 3 ∧ (al = true ∨ (s.port p).rxNext.isSome = true) ∧ (e = true ∨ (s.port p).framed al
      fl.length = false ∨ frameCrc t0 fl ≠ fld t0 31 0) ∧ (s.port p).nak = none) ∧
    (∃ (s : State) (p : Port) (_t0 : BitVec 128) (_fl : List (BitVec 512)) (_e : Bool), s.Calm ∧ s.live (.port p) = true ∧
      (s.port p).rxNext = none) ∧
    (∃ (s : State) (p : Port) (t0 : BitVec 128) (fl : List (BitVec 512)), s.Calm ∧ s.live (.port p) = true ∧ s.portState p
      = 3 ∧ (s.port p).rxNext = some fl.length ∧ frameCrc t0 fl = fld t0 31 0 ∧ frameBad t0 fl.length = false ∧ fld t0
      127 126 % 2 = 1 ∧ fld t0 121 118 ≤ 8 ∧ fld t0 113 90 = ((s.port p).lastAcc + 1) % 2 ^ 24) ∧
    (∃ (s : State) (p : Port) (t0 : BitVec 128) (fl : List (BitVec 512)), s.Calm ∧ s.live (.port p) = true ∧ s.portState p
      = 3 ∧ (s.port p).rxNext = some fl.length ∧ frameCrc t0 fl = fld t0 31 0 ∧ frameBad t0 fl.length = false ∧ fld t0
      127 126 % 2 = 1 ∧ fld t0 121 118 ≤ 8 ∧ fld t0 113 90 ≠ ((s.port p).lastAcc + 1) % 2 ^ 24 ∧ 2 ^ 23 ≤ dist 24
      (s.port p).lastAcc (fld t0 113 90) ∧ (s.port p).nak = none) ∧
    (∃ (s : State) (p : Port) (dt t0 : Nat), (s.elapse dt).Calm ∧ (s.elapse dt).live (.port p) = true ∧ ((s.elapse
      dt).port p).nak = some t0 ∧ (s.elapse dt).maySend p = true ∧ t0 + ns ((s.elapse dt).rf (.llTimers (.port p)) 19
      0) < (s.elapse dt).clk) ∧
    (∃ (s : State) (h : HLink) (dt t0 : Nat), (s.elapse dt).Calm ∧ (s.elapse dt).live (.hostlink h) = true ∧ ((s.elapse
      dt).hl h).nak = some t0 ∧ (s.elapse dt).hostMaySend h = true ∧ t0 + ns ((s.elapse dt).rf (.llTimers (.host h))
      19 0) < (s.elapse dt).clk ∧ ((s.elapse dt).hl h).sinceAck < 65535) ∧
    (∃ (s : State) (p : Port) (dt : Nat) (f : TxFrame) (fs : List TxFrame), (s.elapse dt).Calm ∧ (s.elapse dt).live (.port
      p) = true ∧ ((s.elapse dt).port p).replay = f :: fs ∧ ((s.elapse dt).portState p = 2 ∨ (s.elapse dt).portState p
      = 3 ∨ (s.elapse dt).portState p = 5) ∧ f.sentAt + ns ((s.elapse dt).rf (.llTimers (.port p)) 51 32) < (s.elapse
      dt).clk ∧ ((s.elapse dt).port p).count + 1 < (s.elapse dt).rf (.llCtrl (.port p)) 27 24 ∧ ((s.elapse dt).port
      p).resend ≠ some f.seq) ∧
    (∃ (s : State) (h : HLink) (dt : Nat) (f : HTx) (fs : List HTx), (s.elapse dt).Calm ∧ (s.elapse dt).live (.hostlink h)
      = true ∧ ((s.elapse dt).hl h).replay = f :: fs ∧ (s.elapse dt).hlState h.val = 3 ∧ f.sentAt + ns ((s.elapse
      dt).rf (.llTimers (.host h)) 51 32) < (s.elapse dt).clk ∧ ((s.elapse dt).hl h).count + 1 < (s.elapse dt).rf
      (.llCtrl (.host h)) 27 24 ∧ ((s.elapse dt).hl h).resend ≠ some f.seq) :=
  ⟨⟨port 3 id, 5, true, frame0, [7], false, by decide +kernel⟩, ⟨port 3 id, 5, frame0, [7], false, by decide +kernel⟩,
   ⟨port 3 (fun x => { x with rxNext := some 1 }), 5, frame0, [7], by decide +kernel, by decide +kernel,
   by decide +kernel, by decide +kernel, frame0_crc, by decide +kernel, by decide +kernel, by decide +kernel,
   by decide +kernel⟩, ⟨port 3 (fun x => { x with rxNext := some 1 }), 5, frame1, [7], by decide +kernel,
   by decide +kernel, by decide +kernel, by decide +kernel, frame1_crc, by decide +kernel, by decide +kernel,
   by decide +kernel, by decide +kernel, by decide +kernel, by decide +kernel⟩, ⟨port 3 (fun x =>
   { x with nak := some 0 }), 5, us 1000, 0, by decide +kernel⟩, ⟨hlink 3 (fun x => { x with nak := some 0 }), 1, us
   1000, 0, by decide +kernel⟩, ⟨port 3 (fun x => { x with replay := [⟨9, false, 2, [1], 0⟩] }), 5, us 1000, ⟨9,
   false, 2, [1], 0⟩, [], by decide +kernel⟩, ⟨hlink 3 (fun x => { x with replay := [⟨9, false, [1], 0, none⟩] }), 1,
   us 1000, ⟨9, false, [1], 0, none⟩, [], by decide +kernel⟩⟩

/-- Each case of EgressFramesAndHostTlpsLeave is met by some state. -/
theorem test_met_EgressFramesAndHostTlpsLeave :
    (∃ (s : State) (p : Port) (m : BitVec 512) (ms : List (BitVec 512)), s.Calm ∧ s.live (.port p) = true ∧ s.maySend p =
      true ∧ s.portState p ≠ 4 ∧ (s.port p).resend = none ∧ (s.port p).txLocal = m :: ms ∧ (s.port p).room 1 = true) ∧
    (∃ (s : State) (p : Port) (o : OutVc) (fs : List Flit), s.Calm ∧ s.live (.port p) = true ∧ s.maySend p = true ∧
      s.portState p = 3 ∧ s.tack.stopping = false ∧ (s.port p).resend = none ∧ (s.port p).txLocal = [] ∧ s.candFrame p
      0 = some (o, fs)) ∧
    (∃ (s : State) (p : Port) (c : Nat × OutVc × List Flit), s.Calm ∧ s.live (.port p) = true ∧ s.maySend p = true ∧
      s.portState p = 3 ∧ s.tack.stopping = false ∧ (s.port p).resend = none ∧ (s.port p).txLocal = [] ∧ s.candFrame p
      0 = none ∧ (s.port p).txBypass = [] ∧ s.classPick p 7 = some c) ∧
    (∃ (s : State) (p : Port), s.Calm ∧ s.live (.port p) = true ∧ s.maySend p = true ∧ s.portState p = 4) ∧
    (∃ (s : State) (h : HLink) (f : HTx) (fs : List HTx), s.Calm ∧ s.live (.hostlink h) = true ∧ s.hlState h.val = 3 ∧
      (s.hl h).txIdle = false ∧ (s.hl h).resend = some f.seq ∧ (s.hl h).replay = f :: fs ∧ (s.hl h).sinceAck < 65535) ∧
    (∃ (s : State) (h : HLink) (r : RdReq) (q : List ReqTlp) (g : Nat), s.Calm ∧ s.live (.hostlink h) = true ∧ s.hlState
      h.val = 3 ∧ (s.hl h).txIdle = false ∧ (s.hl h).resend = none ∧ s.holdHost ≠ some h.val ∧ (s.hl h).turn = false ∧
      s.rb (.hlCtrl h) 0 = true ∧ (s.tl h.val).reqQ = .rd r :: q ∧ s.freeTag h = some g ∧ s.mayTlp h false 0 = true ∧
      (match r.purpose with | .walk _ => s.isMemory h.val r.addr | _ => true) = true) :=
  ⟨⟨port 3 (fun x => { x with txLocal := [5] }), 5, 5, [], by decide +kernel⟩, ⟨port 3 (fun x =>
   { x with outv := [(0, ⟨80, 0, 1, true⟩)], ibuf := [(0, [⟨77, false⟩])], far := some (mkWord 512 [(236, 229, 4)]) }),
   5, ⟨80, 0, 1, true⟩, [⟨77, false⟩], by decide +kernel⟩, ⟨port 3 (fun x =>
   { x with outv := [(2, ⟨82, 7, 1, true⟩)], ibuf := [(2, [⟨77, true⟩])], far := some (mkWord 512 [(220, 213, 4)]) }),
   5, (2, ⟨82, 7, 1, true⟩, [⟨77, true⟩]), by decide +kernel⟩, ⟨port 4 (fun x =>
   { x with retrain := some ⟨0, 0, 0, 3, true⟩ }), 5, by decide +kernel⟩, ⟨hlink 3 (fun x =>
   { x with resend := some 9, replay := [⟨9, false, [1], 0, none⟩] }), 1, ⟨9, false, [1], 0, none⟩, [],
   by decide +kernel⟩, ⟨((hlink 3 (fun x => { x with pools := some ⟨8, 8, 8, 8⟩ })).modTl 1 (fun x =>
   { x with reqQ := [.rd ⟨0x1000, 64, none, 0, .flush 3 0⟩] })).wf (.hlCtrl 1) 27 0 0xFFF0001, 1, ⟨0x1000, 64, none,
   0, .flush 3 0⟩, [], 0, by decide +kernel⟩⟩

/-- Each case of LinkUpBegins is met by some state. -/
theorem test_met_LinkUpBegins :
    (∃ (s : State) (p : Port) (dt : Nat), (s.elapse dt).Calm ∧ (s.elapse dt).live (.port p) = true ∧ (s.elapse
      dt).portState p = 1 ∧ (s.elapse dt).mayLinkUp (.port p) ((s.elapse dt).port p).trainAt = true) ∧
    (∃ (s : State) (h : HLink) (dt : Nat), (s.elapse dt).Calm ∧ (s.elapse dt).live (.hostlink h) = true ∧ (s.elapse
      dt).hlState h.val = 1 ∧ (s.elapse dt).mayLinkUp (.host h) ((s.elapse dt).hl h).trainAt = true) ∧
    (∃ (s : State) (p : Port) (dt : Nat), (s.elapse dt).Calm ∧ (s.elapse dt).live (.port p) = true ∧ (s.elapse
      dt).portState p = 2 ∧ ((s.elapse dt).port p).helloAt + us 1000 < (s.elapse dt).clk) ∧
    (∃ (s : State) (h : HLink) (dt : Nat), (s.elapse dt).Calm ∧ (s.elapse dt).live (.hostlink h) = true ∧ (s.elapse
      dt).hlState h.val = 2 ∧ ((s.elapse dt).hl h).helloAt + us 1000 < (s.elapse dt).clk) ∧
    (∃ (s : State) (p : Port) (dt : Nat), (s.elapse dt).Calm ∧ (s.elapse dt).live (.port p) = true ∧ (s.elapse
      dt).portState p = 5 ∧ ((s.elapse dt).port p).quarAt + us 100000 ≤ (s.elapse dt).clk) ∧
    (∃ (s : State) (h : HLink) (dt : Nat), (s.elapse dt).Calm ∧ (s.elapse dt).live (.hostlink h) = true ∧ (s.elapse
      dt).hostHello h = true ∧ ((s.elapse dt).hl h).helloTx + us 1 ≤ (s.elapse dt).clk ∧ ((s.elapse dt).hl h).sinceAck
      < 65535) :=
  ⟨⟨port 1 id, 5, us 300000 + 1, by decide +kernel⟩, ⟨hlink 1 id, 1, us 300000 + 1, by decide +kernel⟩, ⟨port 2 id, 5, us
   1000 + 1, by decide +kernel⟩, ⟨hlink 2 id, 1, us 1000 + 1, by decide +kernel⟩, ⟨port 5 id, 5, us 100000,
   by decide +kernel⟩, ⟨hlink 2 (fun x => { x with hello := true }), 1, us 1, by decide +kernel⟩⟩

/-- Each case of HellosAreJudged is met by some state. -/
theorem test_met_HellosAreJudged :
    (∃ (s : State) (p : Port) (m : BitVec 512) (ms : List (BitVec 512)), s.Calm ∧ s.live (.port p) = true ∧ (s.portState p
      = 3 ∨ s.portState p = 5 ∨ (s.portState p = 2 ∧ (s.port p).helloAcked = true)) ∧ (s.port p).rxLocal = m :: ms ∧
      fld m 511 504 = 1 ∧ s.helloFails p m = 0) ∧
    (∃ (s : State) (p : Port) (m : BitVec 512) (ms : List (BitVec 512)), s.Calm ∧ s.live (.port p) = true ∧ (s.portState p
      = 3 ∨ (s.portState p = 2 ∧ (s.port p).helloAcked = true)) ∧ (s.port p).rxLocal = m :: ms ∧ fld m 511 504 = 1 ∧
      s.helloFails p m ≠ 0) ∧
    (∃ (s : State) (p : Port) (m : BitVec 512) (ms : List (BitVec 512)), s.Calm ∧ s.live (.port p) = true ∧ (s.portState p
      = 2 ∨ s.portState p = 3 ∨ s.portState p = 5) ∧ (s.port p).rxLocal = m :: ms ∧ fld m 511 504 ≠ 1) ∧
    (∃ (s : State) (p : Port) (m : BitVec 512), s.Calm ∧ s.live (.port p) = true ∧ (s.portState p = 3 ∨ s.portState p = 5)
      ∧ (s.port p).far = some m ∧ s.helloFails p m = 0 ∧ s.rb (.llCtrl (.port p)) 4 = false) ∧
    (∃ (s : State) (p : Port), s.Calm ∧ s.live (.port p) = true ∧ s.portState p = 4 ∧ s.rb (.llCtrl (.port p)) 4 = false) ∧
    (∃ (s : State) (p : Port), s.Calm ∧ s.rb (.llCtrl (.port p)) 4 = true) ∧
    (∃ (s : State) (p : Port) (m : BitVec 512) (ms : List (BitVec 512)), s.Calm ∧ s.live (.port p) = true ∧ s.portState p
      = 5 ∧ (s.port p).rxLocal = m :: ms ∧ fld m 511 504 = 1 ∧ s.helloFails p m ≠ 0) :=
  ⟨⟨port 5 (fun x => { x with rxLocal := [mkWord 512 [(511, 504, 1), (495, 432, 9), (409, 406, 7)]] }), 5, mkWord 512
   [(511, 504, 1), (495, 432, 9), (409, 406, 7)], [], by decide +kernel⟩, ⟨port 3 (fun x =>
   { x with rxLocal := [mkWord 512 [(511, 504, 1), (431, 416, 0x1000)]] }), 5, mkWord 512 [(511, 504, 1), (431, 416,
   0x1000)], [], by decide +kernel⟩, ⟨port 3 (fun x => { x with rxLocal := [7] }), 5, 7, [], by decide +kernel⟩, ⟨port
   5 (fun x => { x with far := some (mkWord 512 [(511, 504, 1), (409, 406, 7)]) }), 5, mkWord 512 [(511, 504, 1),
   (409, 406, 7)], by decide +kernel⟩, ⟨port 4 id, 5, by decide +kernel⟩, ⟨(port 3 id).wb (.llCtrl (.port 5)) 4 true,
   5, by decide +kernel⟩, ⟨port 5 (fun x => { x with rxLocal := [mkWord 512 [(511, 504, 1), (431, 416, 0x1000)]] }),
   5, mkWord 512 [(511, 504, 1), (431, 416, 0x1000)], [], by decide +kernel⟩⟩

/-- Each case of LinksRetrain is met by some state. -/
theorem test_met_LinksRetrain :
    (∃ (s : State) (p : Port) (tr : RetrainTrigger), s.Calm ∧ s.live (.port p) = true ∧ (tr = .farNotice ∨ tr =
      .widthChanged) ∧ (s.portState p = 2 ∨ s.portState p = 3 ∨ s.portState p = 5)) ∧
    (∃ (s : State) (p : Port) (l : Nat), s.Calm ∧ s.live (.port p) = true ∧ (s.portState p = 2 ∨ s.portState p = 3 ∨
      s.portState p = 5) ∧ (s.port p).use.contains l = true ∧ (s.port p).retrain = none) ∧
    (∃ (s : State) (p : Port) (l : Nat), s.Calm ∧ s.live (.port p) = true ∧ (s.portState p = 2 ∨ s.portState p = 3 ∨
      s.portState p = 5) ∧ s.laneState (linkLane (.port p) l) = 2 ∧ (s.port p).use.contains (l % 4) = false) ∧
    (∃ (s : State) (h : HLink) (tr : RetrainTrigger), s.Calm ∧ s.live (.hostlink h) = true ∧ (tr = .farNotice ∨ tr =
      .widthChanged) ∧ (s.hlState h.val = 2 ∨ s.hlState h.val = 3)) ∧
    (∃ (s : State) (p : Port), s.Calm ∧ s.live (.port p) = true ∧ s.portState p = 6 ∧ s.rb (.llCtrl (.port p)) 1 = false ∧
      s.rb (.llCtrl (.port p)) 3 = false) ∧
    (∃ (s : State) (h : HLink), s.Calm ∧ s.live (.hostlink h) = true ∧ (s.hlState h.val = 2 ∨ s.hlState h.val = 3) ∧ s.rb
      (.llCtrl (.host h)) 3 = false) ∧
    (∃ (s : State) (p : Port), s.Calm ∧ s.live (.port p) = true ∧ (s.portState p = 2 ∨ s.portState p = 3 ∨ s.portState p =
      5) ∧ s.rb (.llCtrl (.port p)) 3 = false) ∧
    (∃ (s : State) (l : LinkId), s.Calm ∧ s.rb (.llCtrl l) 3 = true) ∧
    (∃ (s : State) (p : Port) (l : Fin 4) (dt : Nat) (r : Retrain), (s.elapse dt).Calm ∧ (s.elapse dt).live (.port p) =
      true ∧ ((s.elapse dt).port p).retrain = some r ∧ (s.elapse dt).laneAway (.net p l) = true ∧ (s.elapse dt).laneOn
      (.net p l) = true ∧ (s.elapse dt).rb (.laneCtrl (.net p l)) 5 = false ∧ r.step3 + us 5 < (s.elapse dt).clk) ∧
    (∃ (s : State) (h : HLink) (l : Fin 16) (dt : Nat) (r : Retrain), (s.elapse dt).Calm ∧ (s.elapse dt).live (.hostlink
      h) = true ∧ ((s.elapse dt).hl h).retrain = some r ∧ (s.elapse dt).laneAway (.host h l) = true ∧ (s.elapse
      dt).laneOn (.host h l) = true ∧ (s.elapse dt).rb (.laneCtrl (.host h l)) 5 = false ∧ r.step3 + us 50 < (s.elapse
      dt).clk) ∧
    (∃ (s : State) (p : Port) (dt : Nat) (r : Retrain), (s.elapse dt).Calm ∧ (s.elapse dt).live (.port p) = true ∧
      ((s.elapse dt).port p).retrain = some r ∧ r.step2 + us 20 < (s.elapse dt).clk) ∧
    (∃ (s : State) (h : HLink) (dt : Nat) (r : Retrain), (s.elapse dt).Calm ∧ (s.elapse dt).live (.hostlink h) = true ∧
      ((s.elapse dt).hl h).retrain = some r ∧ r.step2 + us 20 < (s.elapse dt).clk) :=
  ⟨⟨port 3 id, 5, .farNotice, by decide +kernel⟩, ⟨port 3 (fun x => { x with use := [2] }), 5, 2, by decide +kernel⟩,
   ⟨port 3 (fun x => { x with use := [1] }), 5, 2, by decide +kernel⟩, ⟨hlink 3 id, 1, .widthChanged,
   by decide +kernel⟩, ⟨port 6 id, 5, by decide +kernel⟩, ⟨hlink 3 id, 1, by decide +kernel⟩, ⟨port 3 id, 5,
   by decide +kernel⟩, ⟨(hlink 7 id).wb (.llCtrl (.host 1)) 3 true, .host 1, by decide +kernel⟩, ⟨(port 4 (fun x =>
   { x with retrain := some ⟨0, 0, 0, 3, false⟩ })).setLane n52 3, 5, 2, us 5 + 1, ⟨0, 0, 0, 3, false⟩,
   by decide +kernel⟩, ⟨(hlink 4 (fun x => { x with retrain := some ⟨0, 0, 0, 3, false⟩ })).setLane h3 3, 1, 3, us 50
   + 1, ⟨0, 0, 0, 3, false⟩, by decide +kernel⟩, ⟨port 4 (fun x => { x with retrain := some ⟨0, 0, 0, 3, true⟩ }), 5,
   us 20 + 1, ⟨0, 0, 0, 3, true⟩, by decide +kernel⟩, ⟨hlink 4 (fun x =>
   { x with retrain := some ⟨0, 0, 0, 3, true⟩ }), 1, us 20 + 1, ⟨0, 0, 0, 3, true⟩, by decide +kernel⟩⟩

/-- Each case of LinksAreFencedLostAndDisabled is met by some state. -/
theorem test_met_LinksAreFencedLostAndDisabled :
    (∃ (s : State) (p : Port) (dt : Nat) (r : Retrain), (s.elapse dt).Calm ∧ (s.elapse dt).live (.port p) = true ∧
      ((s.elapse dt).port p).retrain = some r ∧ r.window + us 50 < (s.elapse dt).clk ∧ (s.elapse dt).portState p = 4 ∧
      ((s.elapse dt).rb (.llCtrl (.port p)) 2 = false ∨ (s.elapse dt).rb (.llCtrl (.port p)) 1 = true)) ∧
    (∃ (s : State) (p : Port) (dt : Nat) (r : Retrain), (s.elapse dt).Calm ∧ (s.elapse dt).live (.port p) = true ∧
      ((s.elapse dt).port p).retrain = some r ∧ r.window + us 50 < (s.elapse dt).clk ∧ (s.elapse dt).portState p = 4 ∧
      ((s.elapse dt).rb (.llCtrl (.port p)) 2 = true ∧ (s.elapse dt).rb (.llCtrl (.port p)) 1 = false)) ∧
    (∃ (s : State) (p : Port) (dt : Nat) (r : Retrain), (s.elapse dt).Calm ∧ ((s.elapse dt).port p).retrain = some r ∧
      (s.elapse dt).clk ≤ r.window + us 50) ∧
    (∃ (s : State) (h : HLink) (dt : Nat) (r : Retrain), (s.elapse dt).Calm ∧ (s.elapse dt).live (.hostlink h) = true ∧
      ((s.elapse dt).hl h).retrain = some r ∧ r.window + us 2000 < (s.elapse dt).clk ∧ (s.elapse dt).hlState h.val = 4
      ∧ (s.elapse dt).rb (.llCtrl (.host h)) 1 = false ∧ (s.elapse dt).dust = false ∧ ((s.elapse dt).hl h).replay = []
      ∧ ((s.elapse dt).tl h.val).reads = [] ∧ ((s.elapse dt).tl h.val).reqQ = [] ∧ ((s.elapse dt).hatoms = [] ∧
      (s.elapse dt).locks = [] ∧ (s.elapse dt).mes = [])) ∧
    (∃ (s : State) (p : Port), s.Calm ∧ s.live (.port p) = true ∧ s.portState p ≠ 0 ∧ s.portState p ≠ 6) ∧
    (∃ (s : State) (p : Port), s.Calm ∧ s.live (.port p) = true ∧ (s.portState p = 0 ∨ s.portState p = 6)) ∧
    (∃ (s : State) (h : HLink), s.Calm ∧ s.live (.hostlink h) = true ∧ s.hlState h.val = 7) ∧
    (∃ (s : State) (h : HLink), s.Calm ∧ s.live (.hostlink h) = true ∧ (s.hlState h.val ≠ 0 ∧ s.hlState h.val ≠ 7) ∧ (s.hl
      h).replay = [] ∧ (s.tl h.val).reads = [] ∧ (s.tl h.val).reqQ = [] ∧ (s.hatoms = [] ∧ s.locks = [] ∧ s.mes = [])) ∧
    (∃ (s : State) (h : HLink), s.Calm ∧ s.live (.hostlink h) = true ∧ s.hlState h.val = 0) ∧
    (∃ (s : State) (p : Port), s.Calm ∧ s.live (.port p) = true ∧ s.portState p ≠ 0) ∧
    (∃ (s : State) (p : Port), s.Calm ∧ s.live (.port p) = true ∧ s.portState p = 0) ∧
    (∃ (s : State) (h : HLink), s.Calm ∧ s.live (.hostlink h) = true ∧ s.hlState h.val ≠ 0 ∧ (s.hl h).replay = [] ∧ (s.tl
      h.val).reads = [] ∧ (s.tl h.val).reqQ = [] ∧ (s.hatoms = [] ∧ s.locks = [] ∧ s.mes = [])) ∧
    (∃ (s : State) (h : HLink), s.Calm ∧ s.live (.hostlink h) = true ∧ s.hlState h.val = 0) :=
  ⟨⟨(port 4 (fun x => { x with retrain := some ⟨0, 0, 0, 3, true⟩ })).wb (.llCtrl (.port 5)) 2 false, 5, us 50 + 1, ⟨0,
   0, 0, 3, true⟩, by decide +kernel⟩, ⟨(port 4 (fun x => { x with retrain := some ⟨0, 0, 0, 3, true⟩ })).wb (.llCtrl
   (.port 5)) 2 true, 5, us 50 + 1, ⟨0, 0, 0, 3, true⟩, by decide +kernel⟩, ⟨port 4 (fun x =>
   { x with retrain := some ⟨0, 0, 0, 3, true⟩ }), 5, us 50, ⟨0, 0, 0, 3, true⟩, by decide +kernel⟩, ⟨hlink 4 (fun x
   => { x with retrain := some ⟨0, 0, 0, 3, true⟩ }), 1, us 2000 + 1, ⟨0, 0, 0, 3, true⟩, by decide +kernel⟩, ⟨port 3
   id, 5, by decide +kernel⟩, ⟨port 6 id, 5, by decide +kernel⟩, ⟨hlink 7 id, 1, by decide +kernel⟩, ⟨hlink 3 id, 1,
   by decide +kernel⟩, ⟨hlink 0 id, 1, by decide +kernel⟩, ⟨port 3 id, 5, by decide +kernel⟩, ⟨port 0 id, 5,
   by decide +kernel⟩, ⟨hlink 3 id, 1, by decide +kernel⟩, ⟨hlink 0 id, 1, by decide +kernel⟩⟩

/-- Each case of HostLinkPacketsAreTaken is met by some state. -/
theorem test_met_HostLinkPacketsAreTaken :
    (∃ (s : State) (h : HLink) (bs : List (BitVec 8)), s.Calm ∧ s.live (.hostlink h) = true ∧ s.hostLive h = true ∧ 8 ≤
      bs.length ∧ (crc32c (bs.take (bs.length - 4))).toNat ≠ ofBe (bs.drop (bs.length - 4)) ∧ (s.hl h).nak = none) ∧
    (∃ (s : State) (h : HLink) (_bs : List (BitVec 8)) (_l : Fin 16), s.Calm ∧ s.live (.hostlink h) = true ∧ s.hostLive h
      = true ∧ (s.hl h).nak = none) ∧
    (∃ (s : State) (h : HLink) (l : Fin 16) (b : List (BitVec 8)), s.Calm ∧ s.live (.hostlink h) = true ∧ s.hostLive h =
      true ∧ s.laneOn (.host h l) = true ∧ s.rf (.laneCtrl (.host h l)) 9 7 = 0 ∧ s.laneState (.host h l) = 2 ∧ s.rf
      (.laneStatus (.host h l)) 19 14 = 0 ∧ (s.lane (.host h l)).rxIdle = false ∧ (s.hl h).use = [l.val] ∧ (s.hl
      h).rxPkt = none ∧ b.length = 8) ∧
    (∃ (s : State) (h : HLink) (b : List (BitVec 8)), s.Calm ∧ s.live (.hostlink h) = true ∧ s.hostLive h = true ∧
      b.length = 8) ∧
    (∃ (s : State) (h : HLink) (dt : Nat), (s.elapse dt).Calm ∧ (s.elapse dt).live (.hostlink h) = true ∧ (s.elapse
      dt).hostMaySend h = true ∧ ((s.elapse dt).hl h).ackDue = true) ∧
    (∃ (s : State) (h : HLink) (dt : Nat), (s.elapse dt).Calm ∧ (s.elapse dt).live (.hostlink h) = true ∧ (s.elapse
      dt).hostMaySend h = true ∧ (((s.elapse dt).hl h).credDue = true ∨ ((s.elapse dt).hl h).credAt + us 10 ≤
      (s.elapse dt).clk) ∧ ((s.elapse dt).hl h).sinceAck < 65535) ∧
    (∃ (s : State) (p : Port) (dt : Nat), (s.elapse dt).Calm ∧ (s.elapse dt).live (.port p) = true ∧ (s.elapse dt).rb
      (.llCtrl (.port p)) 5 = true ∧ ((s.elapse dt).portState p = 3 ∨ (s.elapse dt).portState p = 5) ∧ ((s.elapse
      dt).port p).txIdle = false ∧ (s.elapse dt).portQuiet p = true ∧ ((s.elapse dt).port p).quietAt + us ((s.elapse
      dt).rf (.llTimers (.port p)) 31 20) < (s.elapse dt).clk) ∧
    (∃ (s : State) (h : HLink) (dt : Nat), (s.elapse dt).Calm ∧ (s.elapse dt).live (.hostlink h) = true ∧ (s.elapse dt).rb
      (.llCtrl (.host h)) 5 = true ∧ (s.elapse dt).hlState h.val = 3 ∧ ((s.elapse dt).hl h).txIdle = false ∧ (s.elapse
      dt).hostQuiet h = true ∧ ((s.elapse dt).hl h).quietAt + us ((s.elapse dt).rf (.llTimers (.host h)) 31 20) <
      (s.elapse dt).clk ∧ ((s.elapse dt).hl h).sinceAck < 65535) :=
  ⟨⟨hlink 3 id, 1, [1, 2, 3, 4, 5, 6, 7, 8], by decide +kernel⟩, ⟨hlink 3 id, 1, linkPacket 0xA 0 [0, 0x10, 0, 0, 0, 0,
   0, 0], 3, by decide +kernel⟩, ⟨hlink 3 (fun x => { x with used := ⟨4, 4, 4, 4⟩, use := [3] }), 1, 3, [0, 0x10, 0,
   0, 0, 0, 0, 0], by decide +kernel⟩, ⟨hlink 3 (fun x => { x with used := ⟨4, 4, 4, 4⟩ }), 1, [0, 0x10, 0, 0, 0, 0,
   0, 0], by decide +kernel⟩, ⟨hlink 3 (fun x => { x with ackDue := true, ackCnt := 3, lastAcc := 7 }), 1, 16,
   by decide +kernel⟩, ⟨hlink 3 id, 1, us 10, by decide +kernel⟩, ⟨(port 3 id).wb (.llCtrl (.port 5)) 5 true, 5, us
   5000, by decide +kernel⟩, ⟨(hlink 3 id).wb (.llCtrl (.host 1)) 5 true, 1, us 5000, by decide +kernel⟩⟩

/-- Each case of RoutingStagesBeaconsAndExceptions is met by some state. -/
theorem test_met_RoutingStagesBeaconsAndExceptions :
    (∃ (s : State) (src : RouteSrc) (vc : VC) (f : Flit), s.Calm ∧ s.live (srcBlock src) = true ∧ s.waitingHead src vc =
      some f ∧ tFind s.waits (srcKey src vc) = none ∧ rhBad f.bits vc.val = false ∧ rhF f.bits 127 112 = s.coord ∧
      s.faPossible (256 * s.coord) = true ∧ rhF f.bits 64 58 ≤ (s.srcFlits (srcKey src vc)).length) ∧
    (∃ (s : State) (src : RouteSrc) (vc : VC) (f : Flit), s.Calm ∧ s.live (srcBlock src) = true ∧ s.waitingHead src vc =
      some f ∧ tFind s.waits (srcKey src vc) = none ∧ rhBad f.bits vc.val = false ∧ s.faPossible (256 * rhF f.bits 127
      112) = false) ∧
    (∃ (s : State) (src : RouteSrc) (vc : VC) (f : Flit) (c : Cand) (h1 : BitVec 512), s.Calm ∧ s.live (srcBlock src) =
      true ∧ s.waitingHead src vc = some f ∧ tFind s.waits (srcKey src vc) = none ∧ rhBad f.bits vc.val = false ∧
      s.routeOf (srcStall src) f.bits = (false, f.bits, .go c h1) ∧ s.beaten (srcKey src vc) c = false) ∧
    (∃ (s : State) (src : RouteSrc) (vc : VC) (f : Flit), s.Calm ∧ s.live (srcBlock src) = true ∧ s.waitingHead src vc =
      some f ∧ tFind s.waits (srcKey src vc) = none ∧ rhBad f.bits vc.val = false ∧ s.routeOf (srcStall src) f.bits =
      (false, f.bits, .wait)) ∧
    (∃ (s : State) (p : Port) (vc : VC) (f : Flit), s.Calm ∧ s.live (.port p) = true ∧ s.waitingHead (.port p) vc = some f
      ∧ tFind s.waits (srcPort p vc.val) = none ∧ rhBad f.bits vc.val = true ∧ s.portState p ≠ 0 ∧ s.portState p ≠ 6 ∧
      s.rb (.llCtrl (.port p)) 2 = false) ∧
    (∃ (s : State) (src : RouteSrc) (vc : VC) (f : Flit) (t0 : Nat), s.Calm ∧ s.live (srcBlock src) = true ∧ s.waitingHead
      src vc = some f ∧ tFind s.waits (srcKey src vc) = some t0 ∧ rhBad f.bits vc.val = false ∧ rhF f.bits 127 112 =
      s.coord ∧ s.faPossible (256 * s.coord) = true ∧ rhF f.bits 64 58 ≤ (s.srcFlits (srcKey src vc)).length) ∧
    (∃ (s : State) (src : RouteSrc) (vc : VC) (f : Flit) (t0 : Nat), s.Calm ∧ s.live (srcBlock src) = true ∧ s.waitingHead
      src vc = some f ∧ tFind s.waits (srcKey src vc) = some t0 ∧ rhBad f.bits vc.val = false ∧ s.faPossible (256 *
      rhF f.bits 127 112) = false) ∧
    (∃ (s : State) (src : RouteSrc) (vc : VC) (f : Flit) (c : Cand) (h1 : BitVec 512) (t0 : Nat), s.Calm ∧ s.live
      (srcBlock src) = true ∧ s.waitingHead src vc = some f ∧ tFind s.waits (srcKey src vc) = some t0 ∧ rhBad f.bits
      vc.val = false ∧ s.routeOf (srcStall src) f.bits = (false, f.bits, .go c h1) ∧ s.beaten (srcKey src vc) c =
      false) ∧
    (∃ (s : State) (src : RouteSrc) (vc : VC) (f : Flit) (t0 : Nat), s.Calm ∧ s.live (srcBlock src) = true ∧ s.waitingHead
      src vc = some f ∧ tFind s.waits (srcKey src vc) = some t0 ∧ rhBad f.bits vc.val = false ∧ s.routeOf (srcStall
      src) f.bits = (false, f.bits, .wait)) ∧
    (∃ (s : State) (p : Port) (vc : VC) (f : Flit) (t0 : Nat), s.Calm ∧ s.live (.port p) = true ∧ s.waitingHead (.port p)
      vc = some f ∧ tFind s.waits (srcPort p vc.val) = some t0 ∧ rhBad f.bits vc.val = true ∧ s.portState p ≠ 0 ∧
      s.portState p ≠ 6 ∧ s.rb (.llCtrl (.port p)) 2 = false) ∧
    (∃ (s : State) (p : Port) (dt : Nat), (s.elapse dt).live (.port p) = true ∧ (s.elapse dt).portState p = 3 ∧ ((s.elapse
      dt).port p).beaconAt + us ((s.elapse dt).rf .rtCtrl 47 42) ≤ (s.elapse dt).clk ∧ 2 ≤ ((s.elapse dt).port p).res
      0) ∧
    (∃ (s : State) (p : Port) (h : BitVec 512), s.live (.port p) = true ∧ s.bypassHead p 1 = some h) ∧
    (∃ (s : State) (p : Port) (dt t0 : Nat) (w : BitVec 64), (s.elapse dt).live (.port p) = true ∧ ((s.elapse dt).port
      p).loads = some (t0, w) ∧ t0 + us (4 * (s.elapse dt).rf .rtCtrl 47 42) < (s.elapse dt).clk) ∧
    (∃ (s : State) (st : Stall) (i : Fin 4096) (v : BitVec 64), s.live (.stall st) = true ∧ s.newBank = none ∧ s.oldBank =
      none ∧ (Reg.rtExc st i).fieldsOk v = true ∧ s.faPossible (256 * fld v 15 0) = true) ∧
    (∃ (s : State) (st : Stall) (_i : Fin 4096) (_v : BitVec 64) (b : RtBank), s.live (.stall st) = true ∧ s.newBank =
      some b ∧ s.domRuns (st.val / 8) = true) :=
  ⟨⟨routed (hdr 0), .port 5, 2, ⟨hdr 0, false⟩, by decide +kernel⟩, ⟨routed (hdr 0x8000), .port 5, 2, ⟨hdr 0x8000,
   false⟩, by decide +kernel⟩, ⟨routed away, .port 5, 2, ⟨away, false⟩, ⟨5, 0, 1, 2⟩, leg.header ⟨5, 0, 1, 2⟩,
   by decide +kernel⟩, ⟨(routed away).modPort 5 (fun x => { x with outv := [(2, ⟨7, 0, 1, false⟩)] }), .port 5, 2,
   ⟨away, false⟩, by decide +kernel⟩, ⟨routed (hdr 0 + 2 ^ 384), 5, 2, ⟨hdr 0 + 2 ^ 384, false⟩, by decide +kernel⟩,
   ⟨{ routed (hdr 0) with waits := [(82, 5)] }, .port 5, 2, ⟨hdr 0, false⟩, 5, by decide +kernel⟩,
   ⟨{ routed (hdr 0x8000) with waits := [(82, 5)] }, .port 5, 2, ⟨hdr 0x8000, false⟩, 5, by decide +kernel⟩,
   ⟨{ routed away with waits := [(82, 5)] }, .port 5, 2, ⟨away, false⟩, ⟨5, 0, 1, 2⟩, leg.header ⟨5, 0, 1, 2⟩, 5,
   by decide +kernel⟩,
   ⟨{ (routed away).modPort 5 (fun x => { x with outv := [(2, ⟨7, 0, 1, false⟩)] }) with waits := [(82, 5)] }, .port
   5, 2, ⟨away, false⟩, 5, by decide +kernel⟩, ⟨{ routed (hdr 0 + 2 ^ 384) with waits := [(82, 5)] }, 5, 2, ⟨hdr 0 + 2
   ^ 384, false⟩, 5, by decide +kernel⟩, ⟨port 3 (fun x => { x with far := some (mkWord 512 [(236, 229, 2)]) }), 5, us
   64, by decide +kernel⟩, ⟨(routed 0).modPort 5 (fun x => { x with ibuf := [(0, [⟨beaconHdr, false⟩])] }), 5,
   beaconHdr, by decide +kernel⟩, ⟨port 3 (fun x => { x with loads := some (0, 5) }), 5, us 257, 0, 5,
   by decide +kernel⟩, ⟨ready, 3, 77, 0x8000000000000000, by decide +kernel⟩, ⟨{ ready with newBank := some ⟨[], 0⟩ },
   3, 77, 0x8000000000000000, ⟨[], 0⟩, by decide +kernel⟩⟩

/-- Each case of DoorbellsAndHostAccessesAreServed is met by some state. -/
theorem test_met_DoorbellsAndHostAccessesAreServed :
    (∃ (s : State) (h : HLink) (x : RxTlp) (xs : List RxTlp) (c : Cq) (q a : Nat), s.Calm ∧ s.live (.hostlink h) = true ∧
      s.dust = false ∧ s.rb (.hlCtrl h) 0 = true ∧ (s.tl h.val).rxReq = x :: xs ∧ tlpF x.body 127 120 = 1 ∧ tlpF
      x.body 111 92 = q ∧ tFind s.cqs q = some c ∧ s.mayRing h c (tlpF x.body 119 115) = true ∧ s.domRuns (s.cqDom c)
      = true ∧ c.state ≠ 4 ∧ c.dying = false ∧ tlpF x.body 91 71 < 2 ^ (c.k + 1) ∧ a = (tlpF x.body 91 71 + 2 ^ (c.k +
      1) - c.pi % 2 ^ (c.k + 1)) % 2 ^ (c.k + 1) ∧ 0 < a ∧ a ≤ 2 ^ c.k - (c.pi - c.oldest)) ∧
    (∃ (s : State) (h : HLink) (x : RxTlp) (xs : List RxTlp) (c : Cq) (q a : Nat), s.Calm ∧ s.live (.hostlink h) = true ∧
      s.dust = false ∧ s.rb (.hlCtrl h) 0 = true ∧ (s.tl h.val).rxReq = x :: xs ∧ tlpF x.body 127 120 = 1 ∧ tlpF
      x.body 111 92 = q ∧ tFind s.cqs q = some c ∧ s.mayRing h c (tlpF x.body 119 115) = true ∧ s.domRuns (s.cqDom c)
      = true ∧ c.state ≠ 4 ∧ c.dying = false ∧ a = (tlpF x.body 91 71 + 2 ^ (c.k + 1) - c.pi % 2 ^ (c.k + 1)) % 2 ^
      (c.k + 1) ∧ 2 ^ c.k - (c.pi - c.oldest) < a) ∧
    (∃ (s : State) (h : HLink) (x : RxTlp) (xs : List RxTlp) (c : Cq) (q : Nat), s.Calm ∧ s.live (.hostlink h) = true ∧
      s.dust = false ∧ s.rb (.hlCtrl h) 0 = true ∧ (s.tl h.val).rxReq = x :: xs ∧ tlpF x.body 127 120 = 1 ∧ tlpF
      x.body 111 92 = q ∧ tFind s.cqs q = some c ∧ s.mayRing h c (tlpF x.body 119 115) = true ∧ s.domRuns (s.cqDom c)
      = true ∧ c.state ≠ 4 ∧ c.dying = false ∧ 2 ^ (c.k + 1) ≤ tlpF x.body 91 71) ∧
    (∃ (s : State) (h : HLink) (x : RxTlp) (xs : List RxTlp), s.Calm ∧ s.live (.hostlink h) = true ∧ (s.tl h.val).rxReq =
      x :: xs ∧ tlpF x.body 127 120 = 1 ∧ tFind s.cqs (tlpF x.body 111 92) = none) ∧
    (∃ (s : State) (h : HLink) (x : RxTlp) (xs : List RxTlp) (a n : Nat), s.Calm ∧ s.live (.hostlink h) = true ∧ s.hlLost
      h.val = false ∧ (s.tl h.val).rxReq = x :: xs ∧ tlpF x.body 127 120 = 2 ∧ tlpF x.body 63 0 = a ∧ tlpF x.body 103
      94 = n ∧ s.hostStatus h x (tlpF x.body 119 115) a n = .ok ∧ inHbm a = true ∧ x.body.length = 16 + 8 * n ∧ a + 8
      * n ≤ hbmBase + 2 * stackSize) ∧
    (∃ (s : State) (h : HLink) (x : RxTlp) (xs : List RxTlp) (a n : Nat), s.Calm ∧ s.live (.hostlink h) = true ∧ s.hlLost
      h.val = false ∧ (s.tl h.val).rxReq = x :: xs ∧ (tlpF x.body 127 120 = 2 ∧ tlpF x.body 63 0 = a ∧ tlpF x.body 103
      94 = n) ∧ x.malformed = false ∧ a % 4096 + 8 * n ≤ 4096 ∧ s.rb (.hlFnPriv h) (tlpF x.body 119 115) = false ∧ 1 ≤
      n) ∧
    (∃ (s : State) (h : HLink) (x : RxTlp) (xs : List RxTlp) (a n : Nat), s.Calm ∧ s.live (.hostlink h) = true ∧ s.hlLost
      h.val = false ∧ (s.tl h.val).rxReq = x :: xs ∧ (tlpF x.body 127 120 = 3 ∧ tlpF x.body 63 0 = a ∧ tlpF x.body 103
      94 = n) ∧ x.malformed = false ∧ a % 4096 + 8 * n ≤ 4096 ∧ s.rb (.hlFnPriv h) (tlpF x.body 119 115) = false ∧ 1 ≤
      n) ∧
    (∃ (s : State) (h : HLink) (x : RxTlp) (xs : List RxTlp) (a n : Nat), s.Calm ∧ s.live (.hostlink h) = true ∧ s.hlLost
      h.val = false ∧ (s.tl h.val).rxReq = x :: xs ∧ tlpF x.body 127 120 = 3 ∧ tlpF x.body 63 0 = a ∧ tlpF x.body 103
      94 = n ∧ s.hostStatus h x (tlpF x.body 119 115) a n = .ok ∧ inHbm a = true ∧ s.deviceKept a (8 * n) = false) ∧
    (∃ (s : State) (h : HLink) (x : RxTlp) (xs : List RxTlp) (a n : Nat), s.Calm ∧ s.live (.hostlink h) = true ∧ s.hlLost
      h.val = false ∧ (s.tl h.val).rxReq = x :: xs ∧ tlpF x.body 127 120 = 3 ∧ tlpF x.body 63 0 = a ∧ tlpF x.body 103
      94 = n ∧ s.hostStatus h x (tlpF x.body 119 115) a n = .ok ∧ inHbm a = true ∧ s.deviceKept a (8 * n) = true) :=
  ⟨⟨{ hl (fun g => { g with rxReq := [tlp 1 [(111, 92, 7), (91, 71, 3)] []] }) with cqs := [(7, cq0)] }, 1, tlp 1 [(111,
   92, 7), (91, 71, 3)] [], [], cq0, 7, 3, by decide +kernel⟩,
   ⟨{ hl (fun g => { g with rxReq := [tlp 1 [(111, 92, 7), (91, 71, 17)] []] }) with cqs := [(7, cq0)] }, 1, tlp 1
   [(111, 92, 7), (91, 71, 17)] [], [], cq0, 7, 17, by decide +kernel⟩,
   ⟨{ hl (fun g => { g with rxReq := [tlp 1 [(111, 92, 7), (91, 71, 32)] []] }) with cqs := [(7, cq0)] }, 1, tlp 1
   [(111, 92, 7), (91, 71, 32)] [], [], cq0, 7, by decide +kernel⟩, ⟨hl (fun g =>
   { g with rxReq := [tlp 1 [(111, 92, 7), (91, 71, 3)] []] }), 1, tlp 1 [(111, 92, 7), (91, 71, 3)] [], [],
   by decide +kernel⟩, ⟨hl (fun g =>
   { g with rxReq := [tlp 2 [(103, 94, 1), (63, 0, hbmBase + 0x40)] [1, 2, 3, 4, 5, 6, 7, 8]] }), 1, tlp 2 [(103, 94,
   1), (63, 0, hbmBase + 0x40)] [1, 2, 3, 4, 5, 6, 7, 8], [], hbmBase + 0x40, 1, by decide +kernel⟩, ⟨(hl (fun g =>
   { g with rxReq := [tlp 2 [(103, 94, 1), (63, 0, 0x40)] [1, 2, 3, 4, 5, 6, 7, 8]] })).wb (.hlFnPriv 1) 2 false, 1,
   tlp 2 [(103, 94, 1), (63, 0, 0x40)] [1, 2, 3, 4, 5, 6, 7, 8], [], 0x40, 1, by decide +kernel⟩, ⟨(hl (fun g =>
   { g with rxReq := [tlp 3 [(103, 94, 1), (63, 0, 0x40)] []] })).wb (.hlFnPriv 1) 2 false, 1, tlp 3 [(103, 94, 1),
   (63, 0, 0x40)] [], [], 0x40, 1, by decide +kernel⟩, ⟨hl (fun g =>
   { g with rxReq := [tlp 3 [(103, 94, 2), (63, 0, hbmBase + 0x40)] []] }), 1, tlp 3 [(103, 94, 2), (63, 0, hbmBase +
   0x40)] [], [], hbmBase + 0x40, 2, by decide +kernel⟩,
   ⟨{ hl (fun g => { g with rxReq := [tlp 3 [(103, 94, 2), (63, 0, hbmBase + 0x40)] []] }) with shares := [(3, (0, 1))] },
   1, tlp 3 [(103, 94, 2), (63, 0, hbmBase + 0x40)] [], [], hbmBase + 0x40, 2, by decide +kernel⟩⟩

/-- Each case of HostReadsEndAndFailuresAreReported is met by some state. -/
theorem test_met_HostReadsEndAndFailuresAreReported :
    (∃ (s : State) (h : HLink) (x : RxTlp) (xs : List RxTlp), s.Calm ∧ s.live (.hostlink h) = true ∧ (s.tl h.val).rxRsp =
      x :: xs ∧ tlpF x.body 127 120 = 0x12 ∧ tFind (s.tl h.val).reads (tlpF x.body 111 100) = none) ∧
    (∃ (s : State) (h : HLink) (x : RxTlp) (xs : List RxTlp) (r : ReadOut) (g : Nat), s.Calm ∧ s.live (.hostlink h) = true
      ∧ (s.tl h.val).rxRsp = x :: xs ∧ tlpF x.body 127 120 = 0x12 ∧ tlpF x.body 111 100 = g ∧ tFind (s.tl h.val).reads
      g = some r ∧ tlpF x.body 99 96 = 0 ∧ tlpF x.body 81 70 = r.got.length ∧ tlpF x.body 95 95 = 0 ∧ x.body.length =
      16 + tlpF x.body 94 82 ∧ r.got.length + tlpF x.body 94 82 ≤ r.len) ∧
    (∃ (s : State) (h : HLink) (x : RxTlp) (xs : List RxTlp) (r : ReadOut) (g w : Nat) (y : Walk), s.Calm ∧ s.live
      (.hostlink h) = true ∧ (s.tl h.val).rxRsp = x :: xs ∧ tlpF x.body 127 120 = 0x12 ∧ tlpF x.body 111 100 = g ∧
      tFind (s.tl h.val).reads g = some r ∧ r.drop = false ∧ r.purpose = .walk w ∧ tFind s.walks w = some y ∧ tlpF
      x.body 99 96 = 0 ∧ tlpF x.body 81 70 = r.got.length ∧ tlpF x.body 95 95 = 1 ∧ x.body.length = 16 + tlpF x.body
      94 82 ∧ r.got.length + tlpF x.body 94 82 = r.len) ∧
    (∃ (s : State) (h : HLink) (g : Fin 4096) (dt w : Nat) (r : ReadOut) (y : Walk), (s.elapse dt).Calm ∧ (s.elapse
      dt).live (.hostlink h) = true ∧ tFind ((s.elapse dt).tl h.val).reads g.val = some r ∧ r.drop = false ∧ r.purpose
      = .walk w ∧ tFind (s.elapse dt).walks w = some y ∧ r.sentAt + us ((s.elapse dt).rf (.hlTimers h) 51 32) <
      (s.elapse dt).clk ∧ (s.elapse dt).lastCame h g.val = false) ∧
    (∃ (s : State) (h : HLink) (g : Fin 4096) (dt t0 : Nat), (s.elapse dt).Calm ∧ (s.elapse dt).live (.hostlink h) = true
      ∧ tFind ((s.elapse dt).tl h.val).withheld g.val = some t0 ∧ t0 ≤ (s.elapse dt).clk) ∧
    (∃ (s : State) (h : HLink) (g : BitVec 16) (dt : Nat) (e : History), (s.elapse dt).Calm ∧ (s.elapse dt).live
      (.hostlink h) = true ∧ tFind ((s.elapse dt).tl h.val).hist g.toNat = some e ∧ (s.elapse dt).liveEntry h e =
      false) ∧
    (∃ (s : State) (h : HLink) (x : RxTlp) (xs : List RxTlp) (e : History) (c : Nat) (y : Ctx), s.Calm ∧ s.live (.hostlink
      h) = true ∧ (s.tl h.val).rxRsp = x :: xs ∧ tlpF x.body 127 120 = 0x14 ∧ tlpF x.body 111 108 = 1 ∧ tFind (s.tl
      h.val).hist (tlpF x.body 103 88) = some e ∧ s.liveEntry h e = true ∧ e.ctx = some c ∧ e.note = none ∧ s.ctx? c =
      some y ∧ 2 < y.words.length) ∧
    (∃ (s : State) (h : HLink) (x : RxTlp) (xs : List RxTlp), s.Calm ∧ s.live (.hostlink h) = true ∧ (s.tl h.val).rxRsp =
      x :: xs ∧ tlpF x.body 127 120 = 0x14 ∧ tlpF x.body 111 108 = 1 ∧ tFind (s.tl h.val).hist (tlpF x.body 103 88) =
      none) ∧
    (∃ (s : State) (h : HLink) (x : RxTlp) (xs : List RxTlp), s.Calm ∧ s.live (.hostlink h) = true ∧ (s.tl h.val).rxRsp =
      x :: xs ∧ tlpF x.body 127 120 = 0x14 ∧ tlpF x.body 111 108 = 2 ∧ s.cqs = [] ∧ (s.tl h.val).reqQ = [] ∧ s.locks =
      []) :=
  ⟨⟨hl (fun g => { g with rxRsp := [tlp 0x12 [(111, 100, 5), (94, 82, 4), (95, 95, 1)] [1, 2, 3, 4]] }), 1, tlp 0x12
   [(111, 100, 5), (94, 82, 4), (95, 95, 1)] [1, 2, 3, 4], [], by decide +kernel⟩, ⟨hl (fun g =>
   { g with rxRsp := [tlp 0x12 [(111, 100, 5), (94, 82, 4)] [1, 2, 3, 4]], reads := [(5, rdWalk)] }), 1, tlp 0x12
   [(111, 100, 5), (94, 82, 4)] [1, 2, 3, 4], [], rdWalk, 5, by decide +kernel⟩,
   ⟨{ hl (fun g => { g with rxRsp := [tlp 0x12 [(111, 100, 5), (94, 82, 8), (95, 95, 1)] [1, 2, 3, 4, 5, 6, 7, 8]], reads := [(5, rdWalk)] }) with walks := [(4, walk0)] },
   1, tlp 0x12 [(111, 100, 5), (94, 82, 8), (95, 95, 1)] [1, 2, 3, 4, 5, 6, 7, 8], [], rdWalk, 5, 4, walk0,
   by decide +kernel⟩, ⟨{ hl (fun g => { g with reads := [(5, rdWalk)] }) with walks := [(4, walk0)] }, 1, 5, us
   100000, 4, rdWalk, walk0, by decide +kernel⟩, ⟨hl (fun g => { g with withheld := [(5, 16)] }), 1, 5, 16, 16,
   by decide +kernel⟩, ⟨hl (fun g => { g with hist := [(5, { wtag0 with acked := some 0 })] }), 1, 5, us 2000,
   { wtag0 with acked := some 0 }, by decide +kernel⟩,
   ⟨{ hl (fun g => { g with rxRsp := [tlp 0x14 [(111, 108, 1), (107, 104, 2), (103, 88, 6)] []], hist := [(6, wtag0)] }) with ctxs := [(9, ctx0)] },
   1, tlp 0x14 [(111, 108, 1), (107, 104, 2), (103, 88, 6)] [], [], wtag0, 9, ctx0, by decide +kernel⟩, ⟨hl (fun g =>
   { g with rxRsp := [tlp 0x14 [(111, 108, 1), (107, 104, 2), (103, 88, 6)] []] }), 1, tlp 0x14 [(111, 108, 1), (107,
   104, 2), (103, 88, 6)] [], [], by decide +kernel⟩,
   ⟨{ hl (fun g => { g with rxRsp := [tlp 0x14 [(111, 108, 2)] []] }) with eqs := [(4, eq0)] }, 1, tlp 0x14 [(111,
   108, 2)] [], [], by decide +kernel⟩⟩

/-- Each case of CommandsCompleteInTheirRing is met by some state. -/
theorem test_met_CommandsCompleteInTheirRing :
    (∃ (s : State) (op : Nat) (o : Op) (c : Cq), s.Starts op 0 o c) ∧
    (∃ (s : State) (op e : Nat) (o : Op) (c : Cq), s.Starts op 1 o c ∧ cmdCt o.words = 0xFFF ∧ s.rank o.ctx (fld (o.w 1)
      63 32) = .error e) ∧
    (∃ (s : State) (op e : Nat) (o : Op) (c : Cq), s.Starts op 2 o c ∧ fld (o.w 3) 31 0 ≤ 64 * (hdrLen (o.w 0) - 1) ∧
      cmdCt o.words = 0xFFF ∧ s.rank o.ctx (fld (o.w 1) 63 32) = .error e) ∧
    (∃ (s : State) (op e : Nat) (o : Op) (c : Cq), s.Starts op 3 o c ∧ cmdCt o.words = 0xFFF ∧ s.rank o.ctx (fld (o.w 1)
      63 32) = .error e) ∧
    (∃ (s : State) (op e : Nat) (o : Op) (c : Cq), s.Starts op 4 o c ∧ cmdCt o.words = 0xFFF ∧ s.rank o.ctx (fld (o.w 1)
      63 32) = .error e) ∧
    (∃ (s : State) (op e : Nat) (o : Op) (c : Cq), s.Starts op 5 o c ∧ fld (o.w 3) 31 0 ≤ 64 * (hdrLen (o.w 0) - 1) ∧
      cmdCt o.words = 0xFFF ∧ s.rank o.ctx (fld (o.w 1) 63 32) = .error e) ∧
    (∃ (s : State) (op e : Nat) (o : Op) (c : Cq), s.Starts op 6 o c ∧ fld (o.w 3) 31 24 ≤ 8 ∧ fld (o.w 3) 23 20 ≤ 5 ∧
      cmdCt o.words = 0xFFF ∧ s.rank o.ctx (fld (o.w 1) 63 32) = .error e) :=
  ⟨⟨que (op0 0 []), 20, op0 0 [], cqo, by decide +kernel⟩, ⟨que (op0 1 [ct 0xFFF]), 20, 3, op0 1 [ct 0xFFF], cqo,
   by decide +kernel⟩, ⟨que (op0 2 [ct 0xFFF]), 20, 3, op0 2 [ct 0xFFF], cqo, by decide +kernel⟩, ⟨que (op0 3 [ct
   0xFFF]), 20, 3, op0 3 [ct 0xFFF], cqo, by decide +kernel⟩, ⟨que (op0 4 [ct 0xFFF]), 20, 3, op0 4 [ct 0xFFF], cqo,
   by decide +kernel⟩, ⟨que (op0 5 [ct 0xFFF]), 20, 3, op0 5 [ct 0xFFF], cqo, by decide +kernel⟩, ⟨que (op0 6 [ct
   0xFFF]), 20, 3, op0 6 [ct 0xFFF], cqo, by decide +kernel⟩⟩

/-- Each case of SendingCommandsQueueTheirMessages is met by some state. -/
theorem test_met_SendingCommandsQueueTheirMessages :
    (∃ (s : State) (op fa pc f : Nat) (o : Op) (c : Cq), s.Starts op 1 o c ∧ s.rank o.ctx (fld (o.w 1) 63 32) = .ok (fa,
      pc) ∧ s.findIfl o.ctx fa pc = some f ∧ s.SendsNext o fa pc) ∧
    (∃ (s : State) (op fa pc f : Nat) (o : Op) (c : Cq), s.Starts op 2 o c ∧ fld (o.w 3) 31 0 ≤ 64 * (hdrLen (o.w 0) - 1)
      ∧ s.rank o.ctx (fld (o.w 1) 63 32) = .ok (fa, pc) ∧ s.findIfl o.ctx fa pc = some f ∧ s.SendsNext o fa pc) ∧
    (∃ (s : State) (op fa pc f : Nat) (o : Op) (c : Cq), s.Starts op 3 o c ∧ s.rank o.ctx (fld (o.w 1) 63 32) = .ok (fa,
      pc) ∧ s.findIfl o.ctx fa pc = some f ∧ s.SendsNext o fa pc) ∧
    (∃ (s : State) (op fa pc f : Nat) (o : Op) (c : Cq), s.Starts op 4 o c ∧ fld (o.w 3) 31 0 ≤ fld (s.ctxWord o.ctx 8) 31
      0 ∧ s.rank o.ctx (fld (o.w 1) 63 32) = .ok (fa, pc) ∧ s.findIfl o.ctx fa pc = some f ∧ s.SendsNext o fa pc) ∧
    (∃ (s : State) (op fa pc f : Nat) (o : Op) (c : Cq), s.Starts op 4 o c ∧ fld (s.ctxWord o.ctx 8) 31 0 < fld (o.w 3) 31
      0 ∧ s.rank o.ctx (fld (o.w 1) 63 32) = .ok (fa, pc) ∧ s.findIfl o.ctx fa pc = some f ∧ s.SendsNext o fa pc) ∧
    (∃ (s : State) (op fa pc f : Nat) (o : Op) (c : Cq), s.Starts op 5 o c ∧ fld (o.w 3) 31 0 ≤ 64 * (hdrLen (o.w 0) - 1)
      ∧ s.rank o.ctx (fld (o.w 1) 63 32) = .ok (fa, pc) ∧ s.findIfl o.ctx fa pc = some f ∧ s.SendsNext o fa pc) ∧
    (∃ (s : State) (op fa pc f : Nat) (o : Op) (c : Cq), s.Starts op 6 o c ∧ fld (o.w 3) 31 24 ≤ 8 ∧ fld (o.w 3) 23 20 ≤ 5
      ∧ s.rank o.ctx (fld (o.w 1) 63 32) = .ok (fa, pc) ∧ s.findIfl o.ctx fa pc = some f ∧ s.SendsNext o fa pc) :=
  ⟨⟨ranked (op0 1 [ct 0xFFF, 0, 0, 7]), 20, 0, 5, 30, op0 1 [ct 0xFFF, 0, 0, 7], cqo, by decide +kernel⟩, ⟨ranked (op0 2
   [ct 0xFFF]), 20, 0, 5, 30, op0 2 [ct 0xFFF], cqo, by decide +kernel⟩, ⟨ranked (op0 3 [ct 0xFFF]), 20, 0, 5, 30, op0
   3 [ct 0xFFF], cqo, by decide +kernel⟩, ⟨ranked (op0 4 [ct 0xFFF]), 20, 0, 5, 30, op0 4 [ct 0xFFF], cqo,
   by decide +kernel⟩, ⟨ranked (op0 4 [ct 0xFFF, 0, 5000]), 20, 0, 5, 30, op0 4 [ct 0xFFF, 0, 5000], cqo,
   by decide +kernel⟩, ⟨ranked (op0 5 [ct 0xFFF]), 20, 0, 5, 30, op0 5 [ct 0xFFF], cqo, by decide +kernel⟩, ⟨ranked
   (op0 6 [ct 0xFFF]), 20, 0, 5, 30, op0 6 [ct 0xFFF], cqo, by decide +kernel⟩⟩

/-- Each case of CountersTriggersAndEventQueues is met by some state. -/
theorem test_met_CountersTriggersAndEventQueues :
    (∃ (s : State) (op : Nat) (o : Op) (c : Cq), s.Starts op 0x10 o c ∧ s.ctOk o.ctx (cmdCt o.words) = true ∧ inHbm
      (s.ctAddr o.ctx (cmdCt o.words)) = true ∧ inHbm (s.ctAddr o.ctx (cmdCt o.words) + 7) = true) ∧
    (∃ (s : State) (op : Nat) (o : Op) (c : Cq), s.Starts op 0x11 o c ∧ s.ctOk o.ctx (cmdCt o.words) = true ∧ inHbm
      (s.ctAddr o.ctx (cmdCt o.words)) = true ∧ inHbm (s.ctAddr o.ctx (cmdCt o.words) + 7) = true) ∧
    (∃ (s : State) (op : Nat) (o : Op) (c : Cq), s.Starts op 0x12 o c ∧ trigBad o = false ∧ s.ctOk o.ctx (cmdCt o.words) =
      true ∧ (s.trigs.filter (fun t => t.ctx = o.ctx)).length < fld (s.ctxWord o.ctx 4) 47 36 ∧ fld (s.hbmWord
      (s.ctAddr o.ctx (cmdCt o.words))) 47 0 < fld (o.w 2) 47 0) ∧
    (∃ (s : State) (op e : Nat) (o : Op) (c : Cq) (q : Eq), s.Starts op 0x14 o c ∧ e = fld (o.w 1) 63 46 ∧ tFind s.eqs e =
      some q ∧ (q.fn = c.fn ∧ q.link = c.link) ∧ bit (o.w 1) 43 = true ∧ q.wpos % 2048 = fld (o.w 1) 41 32 + 1024 *
      fld (o.w 1) 42 42) ∧
    (∃ (s : State) (op e : Nat) (o : Op) (c : Cq) (q : Eq), s.Starts op 0x14 o c ∧ e = fld (o.w 1) 63 46 ∧ tFind s.eqs e =
      some q ∧ (q.fn = c.fn ∧ q.link = c.link) ∧ bit (o.w 1) 43 = true ∧ q.wpos % 2048 ≠ fld (o.w 1) 41 32 + 1024 *
      fld (o.w 1) 42 42 ∧ s.rb (.hlCtrl (hlinkOf q.link)) 1 = true) :=
  ⟨⟨que (op0 0x10 [ct 3, 0x1234]), 20, op0 0x10 [ct 3, 0x1234], cqo, by decide +kernel⟩, ⟨que (op0 0x11 [ct 3, 0x1234,
   0x10002]), 20, op0 0x11 [ct 3, 0x1234, 0x10002], cqo, by decide +kernel⟩, ⟨que
   { op0 0x12 [ct 3, 2, 0, 0, 0, 0, 0, 0, 0, 0, 0, 0, 0, 0, 0] with words := [BitVec.ofNat 64 (2 ^ 59 + 0x12 * 2 ^ 51), ct 3, 2, 0, 0, 0, 0, 0, BitVec.ofNat 64 (2 ^ 51), 0, 0, 0, 0, 0, 0, 0] },
   20,
   { op0 0x12 [] with words := [BitVec.ofNat 64 (2 ^ 59 + 0x12 * 2 ^ 51), ct 3, 2, 0, 0, 0, 0, 0, BitVec.ofNat 64 (2 ^ 51), 0, 0, 0, 0, 0, 0, 0] },
   cqo, by decide +kernel⟩,
   ⟨{ que (op0 0x14 [mkWord 64 [(63, 46, 4), (43, 43, 1), (41, 32, 3)]]) with eqs := [(4, { eq0 with wpos := 3, armed := false })] },
   20, 4, op0 0x14 [mkWord 64 [(63, 46, 4), (43, 43, 1), (41, 32, 3)]], cqo, { eq0 with wpos := 3, armed := false },
   by decide +kernel⟩,
   ⟨{ (que (op0 0x14 [mkWord 64 [(63, 46, 4), (43, 43, 1), (41, 32, 2)]])).wb (.hlCtrl 1) 1 true with eqs := [(4, { eq0 with wpos := 3, armed := false })] },
   20, 4, op0 0x14 [mkWord 64 [(63, 46, 4), (43, 43, 1), (41, 32, 2)]], cqo, { eq0 with wpos := 3, armed := false },
   by decide +kernel⟩⟩

/-- Each case of ReceivesProbesAndCancels is met by some state. -/
theorem test_met_ReceivesProbesAndCancels :
    (∃ (s : State) (op : Nat) (o : Op) (c : Cq) (x : Ctx), s.Starts op 8 o c ∧ s.ctx? o.ctx = some x ∧ (s.inOrder o = true
      ∧ s.meFits o.ctx = true ∧ s.queueDying o = false) ∧ s.findUx o.ctx (fld (o.w 1) 63 32) (o.w 4).toNat (o.w
      5).toNat = none) ∧
    (∃ (s : State) (op : Nat) (o : Op), s.Calm ∧ tFind s.ops op = some o ∧ s.inOrder o = false) ∧
    (∃ (s : State) (op : Nat) (o : Op) (c : Cq), s.Starts op 9 o c ∧ s.inOrder o = true ∧ cmdCt o.words = 0xFFF ∧ s.findUx
      o.ctx (fld (o.w 1) 63 32) (o.w 4).toNat (o.w 5).toNat = none) ∧
    (∃ (s : State) (op m : Nat) (o : Op) (c : Cq) (x : Me), s.Starts op 9 o c ∧ s.inOrder o = true ∧ cmdCt o.words = 0xFFF
      ∧ s.findUx o.ctx (fld (o.w 1) 63 32) (o.w 4).toNat (o.w 5).toNat = some m ∧ tFind s.mes m = some x ∧ (c.slotAddr
      o.count + 24) % 4096 ≤ 4080 ∧ c.admin = false) ∧
    (∃ (s : State) (d : Dom) (_q _slot : BitVec 20), s.Calm ∧ s.live (.domain d) = true ∧ s.mes = []) ∧
    (∃ (s : State) (d : Dom) (q slot : BitVec 20) (m : Nat) (x : Me) (o : Op) (c : Cq), s.Calm ∧ s.live (.domain d) = true
      ∧ s.mes = [(m, x)] ∧ (x.kind = 1 ∧ x.discard = false ∧ x.blocks = []) ∧ s.Plain x.op o c ∧ o.queue = q.toNat ∧
      c.slot o.count = slot.toNat ∧ s.cqDom c = d.val ∧ cmdCt o.words = 0xFFF ∧ hdrOp (o.w 0) = 8) :=
  ⟨⟨{ que (op0 8 [ct 0xFFF, 0, 64]) with ctxs := [(9, ctx8)] }.wf (.mtPool 0) 63 38 8, 20, op0 8 [ct 0xFFF, 0, 64], cqo,
   ctx8, by decide +kernel⟩,
   ⟨{ que (op0 8 [ct 0xFFF]) with ops := [(20, { op0 8 [ct 0xFFF] with started := 4 }), (21, { op0 8 [ct 0xFFF] with started := 3 })] },
   20, { op0 8 [ct 0xFFF] with started := 4 }, by decide +kernel⟩, ⟨que (op0 9 [ct 0xFFF]), 20, op0 9 [ct 0xFFF], cqo,
   by decide +kernel⟩,
   ⟨{ que (op0 9 [BitVec.ofNat 64 (4 * 2 ^ 32 + 0xFFF * 2 ^ 16), 0, 0, 6]) with mes := [(40, me0)] }, 20, 40, op0 9
   [BitVec.ofNat 64 (4 * 2 ^ 32 + 0xFFF * 2 ^ 16), 0, 0, 6], cqo, me0, by decide +kernel⟩, ⟨que (op0 8 []), 0, 7, 0,
   by decide +kernel⟩,
   ⟨{ que { op0 8 [ct 0xFFF] with performed := true } with mes := [(40, { Me.blank 9 1 with op := 20 })] }, 0, 7, 0,
   40, { Me.blank 9 1 with op := 20 }, { op0 8 [ct 0xFFF] with performed := true }, cqo, by decide +kernel⟩⟩

/-- Each case of ContextsQueuesAndEventQueuesAreMade is met by some state. -/
theorem test_met_ContextsQueuesAndEventQueuesAreMade :
    (∃ (s : State) (op : Nat) (o : Op) (c : Cq), s.Starts op 0x30 o c ∧ fld (o.w 2) 5 0 = 0 ∧ s.ctxFree (fld (o.w 1) 63
      42) = true ∧ s.hlLost o.link = false ∧ (o.w 2).toNat % 4096 ≤ 3840) ∧
    (∃ (s : State) (op : Nat) (o : Op) (c : Cq), s.Starts op 0x31 o c ∧ (s.ctx? (fld (o.w 1) 63 42)).isSome = true ∧
      s.cqs.any (fun e => !e.2.admin && e.2.ctx = fld (o.w 1) 63 42) = false ∧ c.admin = true) ∧
    (∃ (s : State) (op q : Nat) (o : Op) (c : Cq), s.Starts op 0x32 o c ∧ q = fld (o.w 1) 63 44 ∧ fld (o.w 3) 63 56 ≠ 0 ∧
      tFind s.cqs q = none ∧ adminIndex q = false ∧ (6 ≤ fld (o.w 1) 16 12 ∧ fld (o.w 1) 16 12 ≤ 20) ∧ s.allMemory
      o.link (fld (o.w 2) 63 12 * 4096) (64 * 2 ^ fld (o.w 1) 16 12) = true ∧ (s.ctx? (fld (o.w 1) 43 22)).isSome =
      true ∧ (s.ctxFn (fld (o.w 1) 43 22) = fld (o.w 1) 21 17 ∧ s.ctxLink (fld (o.w 1) 43 22) = o.link ∧ fld (o.w 1)
      11 8 / 8 = s.ctxDom (fld (o.w 1) 43 22))) ∧
    (∃ (s : State) (op q : Nat) (o : Op) (c x : Cq), s.Starts op 0x33 o c ∧ q = fld (o.w 1) 63 44 ∧ q ≠ o.queue ∧
      adminIndex q = false ∧ tFind s.cqs q = some x ∧ (x.open_ = [] ∧ x.dying = false ∧ x.fired = []) ∧ s.mes = []) ∧
    (∃ (s : State) (op : Nat) (o : Op) (c : Cq), s.Starts op 0x34 o c ∧ tFind s.eqs (fld (o.w 1) 63 46) = none ∧
      s.allMemory o.link (fld (o.w 2) 63 16 * 65536) 65536 = true) ∧
    (∃ (s : State) (op : Nat) (o : Op) (c : Cq), s.Starts op 0x35 o c ∧ (tFind s.eqs (fld (o.w 1) 63 46)).isSome = true ∧
      s.eqNamed (fld (o.w 1) 63 46) = false) :=
  ⟨⟨{ adm (aop 0x30 [mkWord 64 [(63, 42, 3)], 0x4000]) with shares := [(1, (0, 1))] }, 20, aop 0x30 [mkWord 64 [(63, 42,
   3)], 0x4000], acqo, by decide +kernel⟩, ⟨adm (aop 0x31 [mkWord 64 [(63, 42, 9)]]), 20, aop 0x31 [mkWord 64 [(63,
   42, 9)]], acqo, by decide +kernel⟩, ⟨region (adm (aop 0x32 [mkWord 64 [(63, 44, 33), (43, 22, 9), (21, 17, 2), (16,
   12, 6), (11, 8, 1)], 0x40000, mkWord 64 [(63, 56, 1)]])), 20, 33, aop 0x32 [mkWord 64 [(63, 44, 33), (43, 22, 9),
   (21, 17, 2), (16, 12, 6), (11, 8, 1)], 0x40000, mkWord 64 [(63, 56, 1)]], acqo, by decide +kernel⟩,
   ⟨{ adm (aop 0x33 [mkWord 64 [(63, 44, 33)]]) with cqs := [(7, acqo), (33, cq0)] }, 20, 33, aop 0x33 [mkWord 64
   [(63, 44, 33)]], acqo, cq0, by decide +kernel⟩, ⟨region (adm (aop 0x34 [mkWord 64 [(63, 46, 4), (40, 30, 3)],
   0x40000])), 20, aop 0x34 [mkWord 64 [(63, 46, 4), (40, 30, 3)], 0x40000], acqo, by decide +kernel⟩,
   ⟨{ adm (aop 0x35 [mkWord 64 [(63, 46, 4)]]) with eqs := [(4, eq0)] }, 20, aop 0x35 [mkWord 64 [(63, 46, 4)]], acqo,
   by decide +kernel⟩⟩

/-- Each case of QueueActions is met by some state. -/
theorem test_met_QueueActions :
    (∃ (s : State) (d : Dom) (q : BitVec 20) (c : Cq), s.Calm ∧ s.live (.domain d) = true ∧ tFind s.cqs q.toNat = some c ∧
      s.cqDom c = d.val ∧ c.state = 1) ∧
    (∃ (s : State) (d : Dom) (q : BitVec 20) (c : Cq), s.Calm ∧ s.live (.domain d) = true ∧ tFind s.cqs q.toNat = some c ∧
      s.cqDom c = d.val ∧ c.state = 3 ∧ c.flushing = none) ∧
    (∃ (s : State) (d : Dom) (q : BitVec 20) (c : Cq), s.Calm ∧ s.live (.domain d) = true ∧ tFind s.cqs q.toNat = some c ∧
      s.cqDom c = d.val ∧ c.state ≠ 3) ∧
    (∃ (s : State) (d : Dom) (q : BitVec 20) (c : Cq), s.Calm ∧ s.live (.domain d) = true ∧ tFind s.cqs q.toNat = some c ∧
      s.cqDom c = d.val ∧ c.state ≠ 1) ∧
    (∃ (s : State) (d : Dom) (q : BitVec 20) (c : Cq), s.Calm ∧ s.live (.domain d) = true ∧ tFind s.cqs q.toNat = some c ∧
      s.cqDom c = d.val ∧ c.state ≠ 2) ∧
    (∃ (s : State) (d : Dom) (q : BitVec 20) (c : Cq), s.Calm ∧ s.live (.domain d) = true ∧ tFind s.cqs q.toNat = some c ∧
      s.cqDom c = d.val ∧ c.state ≠ 2) ∧
    (∃ (s : State) (d : Dom) (q : BitVec 20) (c : Cq), s.Calm ∧ s.live (.domain d) = true ∧ tFind s.cqs q.toNat = some c ∧
      s.cqDom c = d.val ∧ (c.state = 0 ∨ c.state = 1 ∨ c.state = 2)) ∧
    (∃ (s : State) (d : Dom) (q : BitVec 20) (c : Cq), s.Calm ∧ s.live (.domain d) = true ∧ tFind s.cqs q.toNat = some c ∧
      s.cqDom c = d.val ∧ c.state = 2 ∧ s.trappedUses q.toNat = []) ∧
    (∃ (s : State) (d : Dom) (q : BitVec 20) (c : Cq), s.Calm ∧ s.live (.domain d) = true ∧ tFind s.cqs q.toNat = some c ∧
      s.cqDom c = d.val ∧ c.state = 2 ∧ s.trappedUses q.toNat = []) ∧
    (∃ (s : State) (d : Dom) (q : BitVec 20) (c : Cq) (g : BitVec 512) (w : Word), s.Calm ∧ s.live (.domain d) = true ∧
      tFind s.cqs q.toNat = some c ∧ s.cqDom c = d.val ∧ c.state = 3 ∧ (c.flushing = none ∧ c.dying = false ∧ c.open_
      = [] ∧ c.admin = false) ∧ s.hlLost c.link = false ∧ (tFind c.gran c.next = some g ∧ c.bell.contains c.next =
      true) ∧ w = BitVec.ofNat 64 g.toNat ∧ b2n (bit w 63) = c.lap c.next ∧ c.slot c.next + hdrLen w ≤ 2 ^ c.k ∧
      c.next + hdrLen w = c.pi ∧ c.slotAddr c.next % 4096 ≤ 4088 ∧ c.oldest = c.next) ∧
    (∃ (s : State) (h : HLink) (v : BitVec 64), s.Calm ∧ s.live (.hostlink h) = true ∧ s.rb (.cqAdmin h) 0 = false ∧ bit v
      0 = true ∧ fld v 11 6 = 0 ∧ (6 ≤ fld v 5 1 ∧ fld v 5 1 ≤ 12) ∧ s.allMemory h.val (fld v 63 12 * 4096) (64 * 2 ^
      fld v 5 1) = true ∧ tFind s.cqs (0xFFFF8 + h.val) = none) :=
  ⟨⟨que (op0 0 []), 0, 7, cqo, by decide +kernel⟩, ⟨{ que (op0 0 []) with cqs := [(7, { cqo with state := 3 })] }, 0, 7,
   { cqo with state := 3 }, by decide +kernel⟩, ⟨que (op0 0 []), 0, 7, cqo, by decide +kernel⟩,
   ⟨{ que (op0 0 []) with cqs := [(7, { cqo with state := 3 })] }, 0, 7, { cqo with state := 3 }, by decide +kernel⟩,
   ⟨{ que (op0 0 []) with cqs := [(7, { cqo with state := 1 })] }, 0, 7, { cqo with state := 1 }, by decide +kernel⟩,
   ⟨{ que (op0 0 []) with cqs := [(7, { cqo with state := 3 })] }, 0, 7, { cqo with state := 3 }, by decide +kernel⟩,
   ⟨{ que (op0 0 []) with cqs := [(7, { cqo with state := 2 })] }, 0, 7, { cqo with state := 2 }, by decide +kernel⟩,
   ⟨{ que (op0 0 []) with cqs := [(7, { cqo with state := 2 })] }, 0, 7, { cqo with state := 2 }, by decide +kernel⟩,
   ⟨{ que (op0 0 []) with cqs := [(7, { cqo with state := 2 })] }, 0, 7, { cqo with state := 2 }, by decide +kernel⟩,
   ⟨{ que (op0 0 []) with cqs := [(7, { cq0 with state := 3, pi := 1, gran := [(0, 5)], bell := [0] })] }, 0, 7,
   { cq0 with state := 3, pi := 1, gran := [(0, 5)], bell := [0] }, 5, 5, by decide +kernel⟩, ⟨region (hl id), 1,
   0x4000D, by decide +kernel⟩⟩

/-- Each case of QueuesFetchInvalidateAndWalk is met by some state. -/
theorem test_met_QueuesFetchInvalidateAndWalk :
    (∃ (s : State) (q : BitVec 20) (c : Cq) (n0 n : Nat), s.Calm ∧ s.live (.domain 0) = true ∧ tFind s.cqs q.toNat = some
      c ∧ (c.state = 1 ∨ c.state = 2) ∧ c.dying = false ∧ c.admin = false ∧ c.readsOut < 4 ∧ s.hlLost c.link = false ∧
      n0 = c.firstGap (2 ^ c.k) (max c.asked c.next) ∧ n = min (c.gap 16 n0) ((4096 - c.slotAddr n0 % 4096) / 64) ∧ 0
      < n) ∧
    (∃ (s : State) (st : Stall) (q n : Nat) (c : Cq) (ws : List Word), s.Calm ∧ s.live (.stall st) = true ∧ s.domRuns
      (st.val / 8) = true ∧ s.ops = [] ∧ s.stallQueues st.val = [q] ∧ tFind s.cqs q = some c ∧ (c.fired = [] ∧
      c.weight ≠ 0 ∧ c.burst ≠ 0) ∧ s.ready c = true ∧ c.head = .entry n ws ∧ c.pi = c.next + n ∧ cmdCheck c.admin
      c.priv ws = 0 ∧ s.tack.stopping = false) ∧
    (∃ (s : State) (op : Nat) (o : Op) (c : Cq), s.Starts op 0x20 o c ∧ invalBad o = false ∧ s.invals = []) ∧
    (∃ (s : State) (st : Stall) (op : Nat) (o : Op) (c : Cq) (i : Inval), s.Calm ∧ s.live (.stall st) = true ∧ s.Plain op
      o c ∧ hdrOp (o.w 0) = 0x20 ∧ s.invals = [(op, i)] ∧ i.active = true ∧ i.acks.contains st.val = false ∧ (∀ n :
      Fin 16, n ≠ st → i.acks.contains n.val = true) ∧ s.uses = [] ∧ s.walks = []) ∧
    (∃ (s : State) (w a l : Nat) (x : Walk) (e : Word), s.Calm ∧ s.live (.domain 0) = true ∧ tFind s.walks w = some x ∧
      x.ptr = .hbm a ∧ e = s.hbmWord a ∧ (bit e 0 = true ∧ bit e 1 = false ∧ bit e 2 = true) ∧ entBad e x.level
      x.input = false ∧ x.stage2 = false ∧ l = x.level + 1 ∧ s.inShare x.cx.dom 6 (entAddr e + 8 * xlIndex x.va l) 8 =
      true) ∧
    (∃ (s : State) (w h a : Nat) (x : Walk), s.Calm ∧ s.live (.domain 0) = true ∧ tFind s.walks w = some x ∧ x.ptr = .host
      h a ∧ (x.failed = 0 ∧ x.entry = none)) :=
  ⟨⟨{ hl id with cqs := [(7, { cq0 with pi := 3, gran := [(0, 5)] })] }, 7, { cq0 with pi := 3, gran := [(0, 5)] }, 1, 2,
   by decide +kernel⟩, ⟨{ que (op0 0 []) with ops := [], cqs := [(7, { cq0 with pi := 1, gran := [(0, 5)] })] }, 3, 7,
   1, { cq0 with pi := 1, gran := [(0, 5)] }, granWords 5, by decide +kernel⟩, ⟨que (op0 0x20 [mkWord 64 [(63, 61,
   2)]]), 20, op0 0x20 [mkWord 64 [(63, 61, 2)]], cqo, by decide +kernel⟩,
   ⟨{ que { op0 0x20 [] with performed := true } with invals := [(20, inv0)] }, 3, 20,
   { op0 0x20 [] with performed := true }, cqo, inv0, by decide +kernel⟩,
   ⟨{ que (op0 0 []) with walks := [(4, { walk0 with ptr := .hbm hbmBase })], hbm := [(0, 5), (5, 1)], shares := [(6, (0, 1))] },
   4, hbmBase, 1, { walk0 with ptr := .hbm hbmBase }, 0x10000000005, by decide +kernel⟩,
   ⟨{ que (op0 0 []) with walks := [(4, walk0)] }, 4, 1, 0, walk0, by decide +kernel⟩⟩

/-- Each case of GroomInstructionsWriteTheirRegister is met by some state. -/
theorem test_met_GroomInstructionsWriteTheirRegister :
    (∃ (s : State) (g : GroomId) (r : Run) (rd a b : BitVec 5) (fn : BitVec 11) (v : Word), s.Fetches g r (encR 0x00 rd a
      b fn) ∧ aluFn fn.toNat (r.get a) (r.get b) = some v ∧ (aluUnary fn.toNat = true → b = 0)) ∧
    (∃ (s : State) (g : GroomId) (r : Run) (rd a : BitVec 5) (i : BitVec 16), s.Fetches g r (encI 0x01 rd a i)) ∧
    (∃ (s : State) (g : GroomId) (r : Run) (rd a : BitVec 5) (i : BitVec 16), s.Fetches g r (encI 0x02 rd a i)) ∧
    (∃ (s : State) (g : GroomId) (r : Run) (rd a : BitVec 5) (i : BitVec 16), s.Fetches g r (encI 0x03 rd a i)) ∧
    (∃ (s : State) (g : GroomId) (r : Run) (rd a : BitVec 5) (i : BitVec 16), s.Fetches g r (encI 0x04 rd a i)) ∧
    (∃ (s : State) (g : GroomId) (r : Run) (rd a : BitVec 5) (i : BitVec 16), s.Fetches g r (encI 0x05 rd a i)) ∧
    (∃ (s : State) (g : GroomId) (r : Run) (rd a : BitVec 5) (i : BitVec 16), s.Fetches g r (encI 0x06 rd a i)) ∧
    (∃ (s : State) (g : GroomId) (r : Run) (rd a : BitVec 5) (i : BitVec 16), s.Fetches g r (encI 0x07 rd a i) ∧ fld i 15
      8 = 0 ∧ fld i 7 6 ≤ 2) ∧
    (∃ (s : State) (g : GroomId) (r : Run) (rd : BitVec 5) (i : BitVec 16), s.Fetches g r (encI 0x08 rd 0 i)) ∧
    (∃ (s : State) (g : GroomId) (r : Run) (rd a : BitVec 5) (i : BitVec 16), s.Fetches g r (encI 0x09 rd a i)) ∧
    (∃ (s : State) (g : GroomId) (r : Run) (rd : BitVec 5) (i : BitVec 16), s.Fetches g r (encI 0x34 rd 0 i) ∧ i.toNat ≤
      6) ∧
    (∃ (s : State) (g : GroomId) (r : Run) (rd : BitVec 5) (i : BitVec 16) (k : Fin 8), s.Fetches g r (encI 0x34 rd 0 i) ∧
      i.toNat = 16 + k.val) :=
  ⟨⟨gr run0 (encR 0 9 9 10 1), gid, run0, 9, 9, 10, 1, 2, by decide +kernel⟩, ⟨gr run0 (encI 1 9 10 0xFFFF), gid, run0,
   9, 10, 0xFFFF, by decide +kernel⟩, ⟨gr run0 (encI 2 0 9 4), gid, run0, 0, 9, 4, by decide +kernel⟩, ⟨gr run0 (encI
   3 31 9 8), gid, run0, 31, 9, 8, by decide +kernel⟩, ⟨gr run0 (encI 4 9 9 1), gid, run0, 9, 9, 1,
   by decide +kernel⟩, ⟨gr run0 (encI 5 9 10 0xFFFF), gid, run0, 9, 10, 0xFFFF, by decide +kernel⟩, ⟨gr run0 (encI 6 9
   10 0xFFFF), gid, run0, 9, 10, 0xFFFF, by decide +kernel⟩, ⟨gr run0 (encI 7 9 9 0x10), gid, run0, 9, 9, 0x10,
   by decide +kernel⟩, ⟨gr run0 (encI 8 9 0 0x8000), gid, run0, 9, 0x8000, by decide +kernel⟩, ⟨gr run0 (encI 9 9 9
   0x8000), gid, run0, 9, 9, 0x8000, by decide +kernel⟩, ⟨gr run0 (encI 0x34 9 0 2), gid, run0, 9, 2,
   by decide +kernel⟩, ⟨gr run0 (encI 0x34 9 0 18), gid, run0, 9, 18, 2, by decide +kernel⟩⟩

/-- Each case of GroomControlFlow is met by some state. -/
theorem test_met_GroomControlFlow :
    (∃ (s : State) (g : GroomId) (r : Run) (a b : BitVec 5) (off : BitVec 16), s.Fetches g r (encI 0x18 a b off)) ∧
    (∃ (s : State) (g : GroomId) (r : Run) (a b : BitVec 5) (off : BitVec 16), s.Fetches g r (encI 0x19 a b off)) ∧
    (∃ (s : State) (g : GroomId) (r : Run) (a b : BitVec 5) (off : BitVec 16), s.Fetches g r (encI 0x1A a b off)) ∧
    (∃ (s : State) (g : GroomId) (r : Run) (a b : BitVec 5) (off : BitVec 16), s.Fetches g r (encI 0x1B a b off)) ∧
    (∃ (s : State) (g : GroomId) (r : Run) (a b : BitVec 5) (off : BitVec 16), s.Fetches g r (encI 0x1C a b off)) ∧
    (∃ (s : State) (g : GroomId) (r : Run) (a b : BitVec 5) (off : BitVec 16), s.Fetches g r (encI 0x1D a b off)) ∧
    (∃ (s : State) (g : GroomId) (r : Run) (off : BitVec 26), s.Fetches g r (encJ 0x1E off)) ∧
    (∃ (s : State) (g : GroomId) (r : Run) (rd a : BitVec 5) (i : BitVec 16), s.Fetches g r (encI 0x1F rd a i)) ∧
    (∃ (s : State) (g : GroomId) (r : Run), s.Fetches g r (encI 0x3F 0 0 0) ∧ (r.ref.kind = 0 → (r.get 1).toNat ≤ 2)) ∧
    (∃ (s : State) (g : GroomId) (r : Run), s.Fetches g r (encI 0x33 0 0 0) ∧ r.stores = []) ∧
    (∃ (s : State) (g : GroomId) (r : Run), s.Fetches g r (encI 0x33 0 0 0) ∧ r.stores ≠ [] ∧ r.stores.all (fun x =>
      x.busy) = true) ∧
    (∃ (s : State) (g : GroomId) (r : Run) (x : GStore), s.Fetches g r (encI 0x33 0 0 0) ∧ r.stores = [x] ∧ (x.phys = none
      ∧ x.busy = false ∧ x.use = none ∧ x.addr < 0x20000)) ∧
    (∃ (s : State) (g : GroomId) (r : Run) (a : BitVec 5), s.Fetches g r (encI 0x35 0 a 4)) :=
  ⟨⟨gr run0 (encI 0x18 9 9 3), gid, run0, 9, 9, 3, by decide +kernel⟩, ⟨gr run0 (encI 0x19 9 10 0xFFFF), gid, run0, 9,
   10, 0xFFFF, by decide +kernel⟩, ⟨gr run0 (encI 0x1A 10 9 3), gid, run0, 10, 9, 3, by decide +kernel⟩, ⟨gr run0
   (encI 0x1B 9 9 3), gid, run0, 9, 9, 3, by decide +kernel⟩, ⟨gr run0 (encI 0x1C 9 10 3), gid, run0, 9, 10, 3,
   by decide +kernel⟩, ⟨gr run0 (encI 0x1D 9 10 3), gid, run0, 9, 10, 3, by decide +kernel⟩, ⟨gr run0 (encJ 0x1E
   0x2000000), gid, run0, 0x2000000, by decide +kernel⟩, ⟨gr run0 (encI 0x1F 9 9 0xFFFF), gid, run0, 9, 9, 0xFFFF,
   by decide +kernel⟩, ⟨gr run0 (encI 0x3F 0 0 0), gid, run0, by decide +kernel⟩, ⟨gr run0 (encI 0x33 0 0 0), gid,
   run0, by decide +kernel⟩, ⟨gr { run0 with stores := [⟨0, some (.host 1 0), 0, 8, 0, false, true, none⟩] } (encI
   0x33 0 0 0), gid, { run0 with stores := [⟨0, some (.host 1 0), 0, 8, 0, false, true, none⟩] }, by decide +kernel⟩,
   ⟨gr { run0 with stores := [⟨0, none, 64, 8, 5, false, false, none⟩] } (encI 0x33 0 0 0), gid,
   { run0 with stores := [⟨0, none, 64, 8, 5, false, false, none⟩] }, ⟨0, none, 64, 8, 5, false, false, none⟩,
   by decide +kernel⟩, ⟨gr run0 (encI 0x35 0 9 4), gid, run0, 9, by decide +kernel⟩⟩

/-- Each case of GroomLoadsStoresAndAtomics is met by some state. -/
theorem test_met_GroomLoadsStoresAndAtomics :
    (∃ (s : State) (g : GroomId) (r : Run) (rd b : BitVec 5) (z m : BitVec 2) (off : BitVec 12) (a n : Nat), s.Fetches g r
      (encM 0x10 rd b z m off) ∧ m.toNat < 2 ∧ n = 2 ^ z.toNat ∧ a = (r.get b + off.signExtend 64).toNat ∧ a % n = 0 ∧
      a + n ≤ 0x20000 ∧ r.meets false a n = false) ∧
    (∃ (s : State) (g : GroomId) (r : Run) (rd b : BitVec 5) (z m : BitVec 2) (off : BitVec 12) (a n : Nat), s.Fetches g r
      (encM 0x10 rd b z m off) ∧ m.toNat < 2 ∧ n = 2 ^ z.toNat ∧ a = (r.get b + off.signExtend 64).toNat ∧ a % n = 0 ∧
      (0x100000 ≤ a ∧ a + n ≤ 0x300000) ∧ (fld (r.bind.getD 2 0) 39 8).testBit ((a - 0x100000) / 0x10000) = true ∧
      r.meets false a n = false) ∧
    (∃ (s : State) (g : GroomId) (r : Run) (rd b : BitVec 5) (z m : BitVec 2) (off : BitVec 12) (a n : Nat), s.Fetches g r
      (encM 0x10 rd b z m off) ∧ m.toNat < 2 ∧ n = 2 ^ z.toNat ∧ a = (r.get b + off.signExtend 64).toNat ∧ a % n = 0 ∧
      (0x400000 ≤ a ∧ a + n ≤ 0x401040) ∧ r.meets false a n = false) ∧
    (∃ (s : State) (g : GroomId) (r : Run) (x b : BitVec 5) (z m : BitVec 2) (off : BitVec 12) (a n : Nat), s.Fetches g r
      (encM 0x11 x b z m off) ∧ (m = 0 ∨ m = 2) ∧ n = 2 ^ z.toNat ∧ a = (r.get b + off.signExtend 64).toNat ∧ a % n =
      0 ∧ a + n ≤ 0x20000 ∧ r.stores = []) ∧
    (∃ (s : State) (g : GroomId) (r : Run) (x b : BitVec 5) (z m : BitVec 2) (off : BitVec 12) (a n : Nat), s.Fetches g r
      (encM 0x11 x b z m off) ∧ (m = 0 ∨ m = 2) ∧ n = 2 ^ z.toNat ∧ a = (r.get b + off.signExtend 64).toNat ∧ a % n =
      0 ∧ (0x100000 ≤ a ∧ a + n ≤ 0x300000) ∧ (fld (r.bind.getD 2 0) 39 8).testBit ((a - 0x100000) / 0x10000) = true ∧
      r.stores = []) ∧
    (∃ (s : State) (g : GroomId) (r : Run) (rd a b : BitVec 5) (fn : BitVec 11) (o old : Word), s.Fetches g r (encR 0x14
      rd a b fn) ∧ fn.toNat ≤ 4 ∧ (r.get a).toNat = 0x100000 + o.toNat ∧ o.toNat % 8 = 0 ∧ o.toNat < 0x200000 ∧ (fld
      (r.bind.getD 2 0) 39 8).testBit (o.toNat / 0x10000) = true ∧ r.stores = [] ∧ old = BitVec.ofNat 64 (ofLe
      (memRead s.buf (blockBase (.stall g.s) + 0x800000 + o.toNat) 8))) ∧
    (∃ (s : State) (g : GroomId) (r : Run) (rd b : BitVec 5) (z m : BitVec 2) (off : BitVec 12) (a n p : Nat) (e :
      XlEntry), s.Fetches g r (encM 0x12 rd b z m off) ∧ m.toNat < 2 ∧ n = 2 ^ z.toNat ∧ a = (r.get b + off.signExtend
      64).toNat ∧ a % n = 0 ∧ r.meets true a n = false ∧ s.rb (.pmSample g.s) 63 = false ∧ s.Hits g.s.val r.ctx a 0 e
      ∧ e.hbm = true ∧ p = e.out + (a - e.va)) ∧
    (∃ (s : State) (g : GroomId) (r : Run) (rd b : BitVec 5) (z m : BitVec 2) (off : BitVec 12) (a n p : Nat) (e :
      XlEntry), s.Fetches g r (encM 0x12 rd b z m off) ∧ m.toNat < 2 ∧ n = 2 ^ z.toNat ∧ a = (r.get b + off.signExtend
      64).toNat ∧ a % n = 0 ∧ r.meets true a n = false ∧ s.rb (.pmSample g.s) 63 = false ∧ s.Hits g.s.val r.ctx a 0 e
      ∧ e.hbm = false ∧ p = e.out + (a - e.va) ∧ s.hlLost (s.ctxLink r.ctx) = false ∧ (s.ctx? r.ctx).any (fun y =>
      !y.dead) = true) ∧
    (∃ (s : State) (g : GroomId) (r : Run) (x b : BitVec 5) (z m : BitVec 2) (off : BitVec 12) (a n p : Nat) (e :
      XlEntry), s.Fetches g r (encM 0x13 x b z m off) ∧ (m = 0 ∨ m = 2) ∧ n = 2 ^ z.toNat ∧ a = (r.get b +
      off.signExtend 64).toNat ∧ a % n = 0 ∧ r.stores = [] ∧ s.rb (.pmSample g.s) 63 = false ∧ s.Hits g.s.val r.ctx a
      1 e ∧ e.hbm = true ∧ p = e.out + (a - e.va)) ∧
    (∃ (s : State) (g : GroomId) (r : Run) (rd a b : BitVec 5) (fn : BitVec 11) (v n p : Nat) (e : XlEntry), s.Fetches g r
      (encR 0x15 rd a b fn) ∧ atomOk fn.toNat = true ∧ atomBad fn.toNat = false ∧ n = atomSize (fn.toNat / 16 % 8) ∧ v
      = (r.get a).toNat ∧ v % n = 0 ∧ r.stores = [] ∧ s.rb (.pmSample g.s) 63 = false ∧ s.Hits g.s.val r.ctx v 2 e ∧
      e.hbm = true ∧ p = e.out + (v - e.va)) :=
  ⟨⟨gr run0 (encM 0x10 9 10 0 0 6), gid, run0, 9, 10, 0, 0, 6, 9, 1, by decide +kernel⟩,
   ⟨{ gr (rg 9 0x100010) (encM 0x10 9 9 3 1 0xFF8) with buf := [(blockBase (.stall 3) + 0x80000A, 4)] }, gid, rg 9
   0x100010, 9, 9, 3, 1, 0xFF8, 0x100008, 8, by decide +kernel⟩, ⟨gr run0 (encM 0x10 9 6 3 0 32), gid, run0, 9, 6, 3,
   0, 32, 0x400020, 8, by decide +kernel⟩, ⟨gr run0 (encM 0x11 9 0 3 2 8), gid, run0, 9, 0, 3, 2, 8, 8, 8,
   by decide +kernel⟩, ⟨gr (rg 9 0x10FFFF) (encM 0x11 10 9 0 0 0), gid, rg 9 0x10FFFF, 10, 9, 0, 0, 0, 0x10FFFF, 1,
   by decide +kernel⟩,
   ⟨{ gr (rg 11 0x100000) (encR 0x14 0 11 9 1) with buf := [(blockBase (.stall 3) + 0x800000, 4)] }, gid, rg 11
   0x100000, 0, 11, 9, 1, 0, 4, by decide +kernel⟩,
   ⟨{ grx (rg 9 0x8010) (encM 0x12 9 9 3 0 0) with hbm := memWrite [] 0 (leBytes 4 (encM 0x12 9 9 3 0 0).toNat) ++ [(0x3011, 7)] },
   gid, rg 9 0x8010, 9, 9, 3, 0, 0, 0x8010, 8, hbmBase + 0x3010, xle, by decide +kernel⟩,
   ⟨{ grx (rg 9 0x8010) (encM 0x12 9 9 3 0 0) with xl := [(3, [{ xle with hbm := false, out := 0x5000 }])] }, gid, rg
   9 0x8010, 9, 9, 3, 0, 0, 0x8010, 8, 0x5010, { xle with hbm := false, out := 0x5000 }, by decide +kernel⟩, ⟨grx (rg
   9 0x8010) (encM 0x13 10 9 3 0 0), gid, rg 9 0x8010, 10, 9, 3, 0, 0, 0x8010, 8, hbmBase + 0x3010, xle,
   by decide +kernel⟩, ⟨grx (rg 9 0x8010) (encR 0x15 10 9 2 0x23), gid, rg 9 0x8010, 10, 9, 2, 0x23, 0x8010, 8,
   hbmBase + 0x3010, xle, by decide +kernel⟩⟩

/-- Each case of GroomWaitsAndSignals is met by some state. -/
theorem test_met_GroomWaitsAndSignals :
    (∃ (s : State) (g : GroomId) (r : Run) (rd b : BitVec 5) (a h : Nat) (w : Word), s.Fetches g r (encI 0x30 rd b 0) ∧
      r.handles.length < 8 ∧ r.imageWaits (r.get b).toNat = false ∧ a = (r.get b).toNat ∧ a % 64 = 0 ∧ a + 64 ≤
      0x20000 ∧ w = BitVec.ofNat 64 (ofLe (memRead (s.groom g).scratch a 8)) ∧ a + 64 * hdrLen w ≤ 0x20000 ∧ hdrEvent
      w = false ∧ hdrOp w ∈ [1, 2, 3, 4, 5, 6, 0x10, 0x11] ∧ h < 8 ∧ r.handles.all (fun e => e.1 ≠ h) = true ∧
      (List.range h).all (fun k => r.handles.any (fun e => e.1 = k)) = true) ∧
    (∃ (s : State) (g : GroomId) (r : Run) (rd b : BitVec 5), s.Fetches g r (encI 0x30 rd b 0) ∧ 8 ≤ r.handles.length ∧
      r.stores = []) ∧
    (∃ (s : State) (g : GroomId) (r : Run) (rd b : BitVec 5) (e m : Nat), s.Fetches g r (encI 0x31 rd b 0) ∧ m = fld
      (r.get b) 4 0 ∧ e = (s.latchTimer r).events ∧ e &&& m ≠ 0) ∧
    (∃ (s : State) (g : GroomId) (r : Run) (rd b : BitVec 5) (m : Nat), s.Fetches g r (encI 0x31 rd b 0) ∧ m = fld (r.get
      b) 4 0 ∧ m ≠ 0 ∧ (s.latchTimer r).events &&& m = 0) ∧
    (∃ (s : State) (g : GroomId) (r : Run), s.Fetches g r (encI 0x32 0 0 0)) ∧
    (∃ (s : State) (g : GroomId) (r : Run) (rd b : BitVec 5) (i : BitVec 16) (d n : Nat), s.Fetches g r (encI 0x16 rd b i)
      ∧ fld i 15 9 = 0 ∧ d = g.s.val / 8 ∧ n = fld (r.get b) 15 0 ∧ (s.lock d n).owner = none ∧ s.waitsOn d (.run g) =
      none) ∧
    (∃ (s : State) (g : GroomId) (r : Run) (rd b : BitVec 5) (i : BitVec 16) (d n : Nat) (w : Holder), s.Fetches g r (encI
      0x16 rd b i) ∧ fld i 15 9 = 0 ∧ d = g.s.val / 8 ∧ n = fld (r.get b) 15 0 ∧ (s.lock d n).owner = some w ∧ w ≠
      .run g ∧ bit i 8 = true) ∧
    (∃ (s : State) (g : GroomId) (r : Run) (rd b : BitVec 5) (i : BitVec 16) (d n : Nat) (w : Holder), s.Fetches g r (encI
      0x16 rd b i) ∧ fld i 15 8 = 0 ∧ d = g.s.val / 8 ∧ n = fld (r.get b) 15 0 ∧ (s.lock d n).owner = some w ∧ w ≠
      .run g ∧ s.waitsOn d (.run g) = none ∧ fld i 7 0 ≤ (s.lock d n).eff) ∧
    (∃ (s : State) (g : GroomId) (r : Run) (b : BitVec 5) (d n : Nat), s.Fetches g r (encI 0x17 0 b 0) ∧ r.stores = [] ∧ d
      = g.s.val / 8 ∧ n = fld (r.get b) 15 0 ∧ (s.lock d n).owner = some (.run g) ∧ (s.lock d n).waiters = []) :=
  ⟨⟨{ gr (rg 9 64) (encI 0x30 9 9 0) with grooms := [(53, { scratch := memWrite [] 64 (leBytes 8 (0x10 * 2 ^ 51)), run := some (rg 9 64) })] },
   gid, rg 9 64, 9, 9, 64, 0, BitVec.ofNat 64 (0x10 * 2 ^ 51), by decide +kernel⟩, ⟨gr
   { rg 9 64 with handles := (List.range 8).map (fun k => (k, 64 * k, k)) } (encI 0x30 9 9 0), gid,
   { rg 9 64 with handles := (List.range 8).map (fun k => (k, 64 * k, k)) }, 9, 9, by decide +kernel⟩, ⟨gr
   { rg 9 12 with events := 13 } (encI 0x31 9 9 0), gid, { rg 9 12 with events := 13 }, 9, 9, 13, 12,
   by decide +kernel⟩, ⟨gr (rg 9 12) (encI 0x31 9 9 0), gid, rg 9 12, 9, 9, 12, by decide +kernel⟩, ⟨gr run0 (encI
   0x32 0 0 0), gid, run0, by decide +kernel⟩, ⟨gr run0 (encI 0x16 9 10 0x105), gid, run0, 9, 10, 0x105, 0, 3,
   by decide +kernel⟩, ⟨{ gr run0 (encI 0x16 9 10 0x105) with locks := [(3, { owner := some .steward })] }, gid, run0,
   9, 10, 0x105, 0, 3, .steward, by decide +kernel⟩,
   ⟨{ gr run0 (encI 0x16 9 10 5) with locks := [(3, { owner := some .steward, prio := 9 })] }, gid, run0, 9, 10, 5, 0,
   3, .steward, by decide +kernel⟩,
   ⟨{ gr run0 (encI 0x17 0 10 0) with locks := [(3, { owner := some (.run gid), gen := 4 })] }, gid, run0, 10, 0, 3,
   by decide +kernel⟩⟩

/-- Each case of GroomExceptions is met by some state. -/
theorem test_met_GroomExceptions :
    (∃ (s : State) (g : GroomId) (r : Run) (w : BitVec 32), s.Fetches g r w ∧ majorOk (fld w 31 26) = false) ∧
    (∃ (s : State) (g : GroomId) (r : Run) (rd a b : BitVec 5) (fn : BitVec 11), s.Fetches g r (encR 0x00 rd a b fn) ∧ (20
      < fn.toNat ∨ (16 ≤ fn.toNat ∧ fn.toNat ≤ 19 ∧ b ≠ 0))) ∧
    (∃ (s : State) (g : GroomId) (r : Run) (rd a : BitVec 5) (i : BitVec 16), s.Fetches g r (encI 0x34 rd a i) ∧ (a ≠ 0 ∨
      (6 < i.toNat ∧ i.toNat < 16) ∨ 23 < i.toNat)) ∧
    (∃ (s : State) (g : GroomId) (r : Run) (rd a : BitVec 5) (i : BitVec 16), s.Fetches g r (encI 0x35 rd a i) ∧ (rd ≠ 0 ∨
      i ≠ 4)) ∧
    (∃ (s : State) (g : GroomId) (r : Run) (rd b : BitVec 5) (i : BitVec 16), s.Fetches g r (encI 0x31 rd b i) ∧ (i ≠ 0 ∨
      fld (r.get b) 4 0 = 0)) ∧
    (∃ (s : State) (g : GroomId) (r : Run) (rd b : BitVec 5) (z m : BitVec 2) (off : BitVec 12) (a : Nat), s.Fetches g r
      (encM 0x10 rd b z m off) ∧ m.toNat < 2 ∧ a = (r.get b + off.signExtend 64).toNat ∧ a % 2 ^ z.toNat ≠ 0 ∧
      r.stores = []) ∧
    (∃ (s : State) (g : GroomId) (r : Run) (x b : BitVec 5) (z m : BitVec 2) (off : BitVec 12) (a : Nat), s.Fetches g r
      (encM 0x11 x b z m off) ∧ (m = 0 ∨ m = 2) ∧ a = (r.get b + off.signExtend 64).toNat ∧ a % 2 ^ z.toNat = 0 ∧
      ((0x20000 ≤ a ∧ a < 0x100000) ∨ (0x300000 ≤ a ∧ a < 0x400000) ∨ 0x401040 ≤ a) ∧ r.stores.length < 16) ∧
    (∃ (s : State) (g : GroomId) (r : Run) (x b : BitVec 5) (z m : BitVec 2) (off : BitVec 12) (a : Nat), s.Fetches g r
      (encM 0x11 x b z m off) ∧ (m = 0 ∨ m = 2) ∧ a = (r.get b + off.signExtend 64).toNat ∧ a % 2 ^ z.toNat = 0 ∧
      ((0x100000 ≤ a ∧ a < 0x300000 ∧ (fld (r.bind.getD 2 0) 39 8).testBit ((a - 0x100000) / 0x10000) = false) ∨
      (0x400000 ≤ a ∧ a < 0x401040)) ∧ r.stores.length < 16) ∧
    (∃ (s : State) (g : GroomId) (r : Run) (_rd _a : BitVec 5) (_i : BitVec 16), (s.Calm ∧ s.live (.stall g.s) = true ∧
      s.domRuns (g.s.val / 8) = true) ∧ (s.groom g).run = some r ∧ (r.halted = false ∧ r.exc = none ∧ r.wait = .none)
      ∧ 1 ≤ r.budget ∧ r.pages * 1024 ≤ r.pc ∧ s.tack.stopping = false) ∧
    (∃ (s : State) (g : GroomId) (r : Run) (_rd _a : BitVec 5) (_i : BitVec 16), (s.Calm ∧ s.live (.stall g.s) = true ∧
      s.domRuns (g.s.val / 8) = true) ∧ (s.groom g).run = some r ∧ (r.halted = false ∧ r.exc = none ∧ r.wait = .none)
      ∧ r.budget = 0 ∧ s.tack.stopping = false) ∧
    (∃ (s : State) (g : GroomId) (r : Run) (rd b : BitVec 5) (a : Nat) (w : Word), s.Fetches g r (encI 0x30 rd b 0) ∧
      r.handles.length < 8 ∧ a = (r.get b).toNat ∧ a % 64 = 0 ∧ a + 64 ≤ 0x20000 ∧ w = BitVec.ofNat 64 (ofLe (memRead
      (s.groom g).scratch a 8)) ∧ a + 64 * hdrLen w ≤ 0x20000 ∧ hdrEvent w = false ∧ hdrOp w ∉ [1, 2, 3, 4, 5, 6,
      0x10, 0x11]) ∧
    (∃ (s : State) (g : GroomId) (r : Run) (b : BitVec 5) (d n : Nat), s.Fetches g r (encI 0x17 0 b 0) ∧ r.stores = [] ∧ d
      = g.s.val / 8 ∧ n = fld (r.get b) 15 0 ∧ (s.lock d n).owner ≠ some (.run g)) ∧
    (∃ (s : State) (g : GroomId) (r : Run), s.Fetches g r (encI 0x3F 0 0 0) ∧ r.ref.kind = 0 ∧ 2 < (r.get 1).toNat) :=
  ⟨⟨gr run0 0xA8000000, gid, run0, 0xA8000000, by decide +kernel⟩, ⟨gr run0 (encR 0 9 9 1 19), gid, run0, 9, 9, 1, 19,
   by decide +kernel⟩, ⟨gr run0 (encI 0x34 9 0 7), gid, run0, 9, 0, 7, by decide +kernel⟩, ⟨gr run0 (encI 0x35 0 9 0),
   gid, run0, 0, 9, 0, by decide +kernel⟩, ⟨gr (rg 9 32) (encI 0x31 0 9 0), gid, rg 9 32, 0, 9, 0, by decide +kernel⟩,
   ⟨gr run0 (encM 0x10 9 9 3 0 0), gid, run0, 9, 9, 3, 0, 0, 5, by decide +kernel⟩, ⟨gr (rg 9 0x20000) (encM 0x11 10 9
   3 0 0), gid, rg 9 0x20000, 10, 9, 3, 0, 0, 0x20000, by decide +kernel⟩, ⟨gr (rg 9 0x2FFFF8) (encM 0x11 10 9 3 0 0),
   gid, rg 9 0x2FFFF8, 10, 9, 3, 0, 0, 0x2FFFF8, by decide +kernel⟩, ⟨gr { run0 with pc := 1024 } 0, gid,
   { run0 with pc := 1024 }, 0, 0, 0, by decide +kernel⟩, ⟨gr { run0 with budget := 0 } 0, gid,
   { run0 with budget := 0 }, 0, 0, 0, by decide +kernel⟩, ⟨gr (rg 9 64) (encI 0x30 9 9 0), gid, rg 9 64, 9, 9, 64, 0,
   by decide +kernel⟩, ⟨gr run0 (encI 0x17 0 10 0), gid, run0, 10, 0, 3, by decide +kernel⟩, ⟨gr
   { rg 1 0x103 with ref := { run0.ref with kind := 0 } } (encI 0x3F 0 0 0), gid,
   { rg 1 0x103 with ref := { run0.ref with kind := 0 } }, by decide +kernel⟩⟩

/-- Each case of RunsStartAndEnd is met by some state. -/
theorem test_met_RunsStartAndEnd :
    (∃ (s : State) (g : GroomId) (q : RunQ) (x : RunRef) (rest : List RunRef) (w1 : Word), s.Calm ∧ (s.live (.stall g.s) =
      true ∧ s.domRuns (g.s.val / 8) = true) ∧ s.holdDom ≠ some (g.s.val / 8) ∧ (s.groom g).run = none ∧ (s.groom
      g).fenced = false ∧ (s.rb (.grCtrl g.s) 0 = true ∧ s.rb (.grCtrl g.s) (32 + g.g.val) = false) ∧ s.runq g.s.val =
      q ∧ q.runs = x :: rest ∧ bit (s.ctxWord x.ctx 22) 56 = false ∧ (x.kind = 0 ∨ x.kind = 1) ∧ w1 = s.ctxWord x.ctx
      21 ∧ s.tack.stopping = false) ∧
    (∃ (s : State) (g : GroomId) (q : RunQ) (x : RunRef) (rest : List RunRef), s.Calm ∧ (s.live (.stall g.s) = true ∧
      s.domRuns (g.s.val / 8) = true) ∧ s.holdDom ≠ some (g.s.val / 8) ∧ (s.groom g).run = none ∧ (s.groom g).fenced =
      false ∧ (s.rb (.grCtrl g.s) 0 = true ∧ s.rb (.grCtrl g.s) (32 + g.g.val) = false) ∧ s.runq g.s.val = q ∧ q.cpls
      = x :: rest ∧ bit (s.ctxWord x.ctx 22) 56 = false ∧ x.kind = 2 ∧ s.tack.stopping = false) ∧
    (∃ (s : State) (g : GroomId) (r : Run), s.Calm ∧ (s.live (.stall g.s) = true ∧ s.domRuns (g.s.val / 8) = true) ∧
      (s.groom g).run = some r ∧ (r.halted = true ∧ r.exc = none) ∧ (r.handles = [] ∧ r.stores = []) ∧ r.ref.kind ≠ 0
      ∧ s.holds (g.s.val / 8) (.run g) = false ∧ s.waitsOn (g.s.val / 8) (.run g) = none) ∧
    (∃ (s : State) (g : GroomId) (r : Run) (kind detail addr pc : Nat), s.Calm ∧ (s.live (.stall g.s) = true ∧ s.domRuns
      (g.s.val / 8) = true) ∧ (s.groom g).run = some r ∧ r.exc = some (kind, detail, addr, pc) ∧ (r.handles = [] ∧
      r.stores = []) ∧ r.ref.kind ≠ 0) ∧
    (∃ (s : State) (g : GroomId) (r : Run) (n : Nat), s.Calm ∧ (s.live (.stall g.s) = true ∧ s.domRuns (g.s.val / 8) =
      true) ∧ (s.groom g).run = some r ∧ (r.halted = true ∨ r.exc.isSome = true) ∧ (r.handles = [] ∧ r.stores = []) ∧
      r.ref.kind ≠ 0 ∧ s.locks = [(65536 * (g.s.val / 8) + n, { owner := some (.run g) })] ∧ n < 65536) ∧
    (∃ (s : State) (g : GroomId) (r : Run) (p : Pkt) (f : TFlow), s.Calm ∧ (s.live (.stall g.s) = true ∧ s.domRuns
      (g.s.val / 8) = true) ∧ (s.groom g).run = some r ∧ ((r.halted = true ∧ (r.get 1).toNat = 2) ∨ r.exc.isSome =
      true) ∧ (r.handles = [] ∧ r.stores = []) ∧ r.ref.kind = 0 ∧ s.issuedPkt r.ref.tf r.ref.psn = some p ∧ tFind
      s.tfl r.ref.tf = some f ∧ s.holds (g.s.val / 8) (.run g) = false ∧ s.waitsOn (g.s.val / 8) (.run g) = none) ∧
    (∃ (s u : State) (g : GroomId) (dt : Nat) (r : Run), u = s.elapse dt ∧ u.Calm ∧ (u.live (.stall g.s) = true ∧
      u.domRuns (g.s.val / 8) = true) ∧ (u.groom g).run = some r ∧ (r.halted = false ∧ r.exc = none) ∧ r.since + us
      (u.rf (.grCtrl g.s) 25 16) < u.clk) ∧
    (∃ (s u : State) (g : GroomId) (dt : Nat) (r : Run), u = s.elapse dt ∧ u.Calm ∧ (u.live (.stall g.s) = true ∧
      u.domRuns (g.s.val / 8) = true) ∧ (u.groom g).run = some r ∧ (r.halted = false ∧ r.exc = none) ∧ (r.timer ≠ 0 ∧
      r.timerHit = false ∧ r.timer.toNat ≤ u.nt.toNat)) ∧
    (∃ (s : State) (g : GroomId) (r : Run), s.Calm ∧ (s.live (.stall g.s) = true ∧ s.domRuns (g.s.val / 8) = true) ∧
      (s.groom g).run = some r ∧ r.exc = none ∧ (s.groom g).fenced = false) ∧
    (∃ (s : State) (g : GroomId), s.Calm ∧ (s.live (.stall g.s) = true ∧ s.domRuns (g.s.val / 8) = true) ∧ (s.groom g).run
      = none ∧ (s.groom g).fenced = true) ∧
    (∃ (s : State) (g : GroomId), s.Calm ∧ (s.live (.stall g.s) = true ∧ s.domRuns (g.s.val / 8) = true) ∧ (s.groom g).run
      = none ∧ (s.groom g).fenced = false) ∧
    (∃ (s : State) (g : GroomId) (r : Run), s.Calm ∧ (s.live (.stall g.s) = true ∧ s.domRuns (g.s.val / 8) = true) ∧
      (s.groom g).run = some r ∧ r.exc = none ∧ (s.groom g).fenced = false) ∧
    (∃ (s : State) (n : Stall) (x : Ctx) (c : Nat), s.Calm ∧ (s.live (.stall n) = true ∧ s.domRuns (n.val / 8) = true) ∧ c
      = s.rf (.grResume n) 21 0 ∧ s.ctx? c = some x ∧ s.ctxStall c = n.val) ∧
    (∃ (s : State) (n : Stall), s.Calm ∧ (s.live (.stall n) = true ∧ s.domRuns (n.val / 8) = true) ∧ s.ctx? (s.rf
      (.grResume n) 21 0) = none) :=
  ⟨⟨rq { runs := [rr0] }, gid, { runs := [rr0] }, rr0, [], mkWord 64 [(63, 46, 6), (45, 28, 5), (27, 10, 4)],
   by decide +kernel⟩, ⟨rq { cpls := [{ rr0 with kind := 2 }], spill := [rr0] }, gid,
   { cpls := [{ rr0 with kind := 2 }], spill := [rr0] }, { rr0 with kind := 2 }, [], by decide +kernel⟩, ⟨gr
   { run0 with halted := true } 0, gid, { run0 with halted := true }, by decide +kernel⟩, ⟨gr
   { run0 with exc := some (3, 0, 0x20000, 7) } 0, gid, { run0 with exc := some (3, 0, 0x20000, 7) }, 3, 0, 0x20000,
   7, by decide +kernel⟩, ⟨{ gr { run0 with halted := true } 0 with locks := [(6, { owner := some (.run gid) })] },
   gid, { run0 with halted := true }, 6, by decide +kernel⟩,
   ⟨{ gr { run0 with halted := true, ref := { run0.ref with kind := 0, tf := 30, psn := 77 }, regs := modAt run0.regs 1 (fun _ => 2) } 0 with tfl := [(30, tf0)] },
   gid,
   { run0 with halted := true, ref := { run0.ref with kind := 0, tf := 30, psn := 77 }, regs := modAt run0.regs 1 (fun _ => 2) },
   [], tf0, by decide +kernel⟩, ⟨gr run0 0, (gr run0 0).elapse 320001, gid, 320001, run0, rfl, by decide +kernel⟩, ⟨gr
   { run0 with timer := 10, wait := .wfe 9 4 } 0, (gr { run0 with timer := 10, wait := .wfe 9 4 } 0).elapse 16, gid,
   16, { run0 with timer := 10, wait := .wfe 9 4 }, rfl, by decide +kernel⟩, ⟨gr run0 0, gid, run0,
   by decide +kernel⟩, ⟨{ gr0 with grooms := [(53, { scratch := [(9, 6)], fenced := true })] }, gid,
   by decide +kernel⟩, ⟨gr0, gid, by decide +kernel⟩, ⟨gr run0 0, gid, run0, by decide +kernel⟩,
   ⟨{ gr0 with ctxs := [(9, { ctx1 with words := modAt ctx1.words 2 (fun w => setFld w 22 20 3), suspended := 7 })] }.setReg
   (.grResume 3) (mkWord 64 [(63, 63, 1), (59, 59, 1), (21, 0, 9)]), 3,
   { ctx1 with words := modAt ctx1.words 2 (fun w => setFld w 22 20 3), suspended := 7 }, 9, by decide +kernel⟩, ⟨gr0,
   3, by decide +kernel⟩⟩

/-- Each case of AluFollowsItsTable is met by some state. -/
theorem test_met_AluFollowsItsTable :
    (∃ (s : State) (g : GroomId) (r : Run) (rd a b : BitVec 5) (fn : BitVec 11) (v : Word), s.Fetches g r (encR 0x00 rd a
      b fn) ∧ aluFn fn.toNat (r.get a) (r.get b) = some v ∧ (16 ≤ fn.toNat → fn.toNat ≤ 19 → b = 0)) ∧
    (∃ (s : State) (g : GroomId) (r : Run) (rd a b : BitVec 5) (fn : BitVec 11), s.Fetches g r (encR 0x00 rd a b fn) ∧ (20
      < fn.toNat ∨ (16 ≤ fn.toNat ∧ fn.toNat ≤ 19 ∧ b ≠ 0))) :=
  ⟨⟨gr run0 (encR 0 9 9 0 19), gid, run0, 9, 9, 0, 19, (aluFn 19 (run0.get 9) 0).getD 0, by decide +kernel⟩, ⟨gr run0
   (encR 0 9 9 1 16), gid, run0, 9, 9, 1, 16, by decide +kernel⟩⟩

/-- Each case of ContributionsJoinTheirInstance is met by some state. -/
theorem test_met_ContributionsJoinTheirInstance :
    (∃ (s : State) (op g d j n h len : Nat) (o : Op) (c : Cq) (r : ClGroup), s.Starts op 0x0C o c ∧ cmdCt o.words = 0xFFF
      ∧ s.CollsNext o ∧ s.Joins o g d j n r ∧ s.instOf d g n = none ∧ h = s.serial ∧ len = fld (o.w 3) 31 0 * clElem
      (fld (o.w 1) 47 40) (fld (o.w 1) 39 36) ∧ 0 < len ∧ fld (o.w 3) 31 0 * clUp (fld (o.w 1) 47 40) (fld (o.w 1) 39
      36) (fld (o.w 1) 35 34) ≤ 4096 ∧ (o.w 2).toNat % 4096 + len ≤ 4096 ∧ (o.w 2).toNat < 2 ^ 48 ∧ (s.ctx? o.ctx).any
      (fun y => !y.dead) = true ∧ (bit (s.ctxWord o.ctx 5) 0 = false ∧ bit (s.ctxWord o.ctx 6) 0 = false) ∧ s.hlLost
      (s.ctxLink o.ctx) = false) ∧
    (∃ (s : State) (op g d j n : Nat) (o : Op) (c : Cq) (r : ClGroup), s.Starts op 0x0C o c ∧ cmdCt o.words = 0xFFF ∧
      s.CollsNext o ∧ s.Joins o g d j n r ∧ s.instOf d g n = none ∧ fld (o.w 3) 31 0 = 0 ∧ (s.grpRoot d g = true ∧
      s.grpKids d g = 0 ∧ s.grpLocals d g = 1)) ∧
    (∃ (s : State) (op : Nat) (o : Op) (c : Cq), s.Starts op 0x0C o c ∧ cmdCt o.words = 0xFFF ∧ s.CollsNext o ∧
      s.findGroup (fld (o.w 1) 63 48) = none ∧ clAllowed (fld (o.w 1) 47 40) (fld (o.w 1) 39 36) (fld (o.w 1) 35 34) =
      false) ∧
    (∃ (s : State) (op : Nat) (o : Op) (c : Cq), s.Starts op 0x0C o c ∧ cmdCt o.words = 0xFFF ∧ s.CollsNext o ∧
      s.findGroup (fld (o.w 1) 63 48) = none ∧ clAllowed (fld (o.w 1) 47 40) (fld (o.w 1) 39 36) (fld (o.w 1) 35 34) =
      true ∧ fld (o.w 3) 31 0 * clUp (fld (o.w 1) 47 40) (fld (o.w 1) 39 36) (fld (o.w 1) 35 34) < 2 ^ 32) ∧
    (∃ (s : State) (op g d j n : Nat) (o : Op) (c : Cq) (r : ClGroup), s.Starts op 0x0C o c ∧ cmdCt o.words = 0xFFF ∧
      s.CollsNext o ∧ (g = fld (o.w 1) 63 48 ∧ s.findGroup g = some (d, r) ∧ s.grpPlace d g o.ctx = some j ∧ n = tGet
      0 r.seqs j) ∧ clAllowed (fld (o.w 1) 47 40) (fld (o.w 1) 39 36) (fld (o.w 1) 35 34) = true ∧ fld (o.w 3) 31 0 *
      clUp (fld (o.w 1) 47 40) (fld (o.w 1) 39 36) (fld (o.w 1) 35 34) < 2 ^ 32 ∧ s.rb (.clCtrl (engineOf r.engine))
      16 = true ∧ (o.w 5 ≠ s.grpWord d g 1 ∨ o.w 6 ≠ s.grpWord d g 2) ∧ s.instOf d g n = none) :=
  ⟨⟨ge (cw0 1 0 1) (que (cop 2 0 2 0)), 20, 6, 0, 0, 0, 50, 8, cop 2 0 2 0, cqo, { engine := 1 }, by decide +kernel⟩, ⟨ge
   (cw0 1 0 1) (que (cop 2 0 0 0)), 20, 6, 0, 0, 0, cop 2 0 0 0, cqo, { engine := 1 }, by decide +kernel⟩, ⟨que (cop
   14 0 0 0), 20, cop 14 0 0 0, cqo, by decide +kernel⟩, ⟨que (cop 2 0 0 0), 20, cop 2 0 0 0, cqo, by decide +kernel⟩,
   ⟨{ ge (cw0 0 0 2) (que (cop 2 0 2 0)) with hbm := memWrite (ge (cw0 0 0 2) (que (cop 2 0 2 0))).hbm (2 * 0x1000000 + 256 * 6 + 8) [0x78] },
   20, 6, 0, 0, 0, cop 2 0 2 0, cqo, { engine := 1 }, by decide +kernel⟩⟩

/-- Each case of EnginesPassSegmentsOn is met by some state. -/
theorem test_met_EnginesPassSegmentsOn :
    (∃ (s : State) (e : Engine) (p : Pkt) (rest : List Pkt) (d h i seg k : Nat) (r : ClGroup) (x : ClInst), s.Calm ∧
      (s.live (.coll e) = true ∧ s.domRuns (e.val / 4) = true) ∧ tGet [] s.collUp e.val = p :: rest ∧ s.Feeds e p d h
      i seg r x ∧ Pkt.key p % 65536 = x.op * 256 + x.ty * 16 + x.mode * 4 ∧ (clAllowed x.op x.ty x.mode = true ∧
      x.mode < 4 ∧ x.ty < 16 ∧ x.op < 256) ∧ Pkt.mlen p = x.count * x.up ∧ (Pkt.tag p = (s.grpWord d x.group 1).toNat
      ∧ Pkt.addr p = (s.grpWord d x.group 2).toNat) ∧ (x.next ≤ seg ∧ seg ≤ x.next + 16) ∧ (tGet {} x.kids i).out =
      false ∧ (tFind (tGet {} x.kids i).segs seg).isSome = false ∧ (k < s.grpLocals d x.group ∧ tFind x.members k =
      none)) ∧
    (∃ (s : State) (e : Engine) (p : Pkt) (rest : List Pkt) (d h : Nat) (r : ClGroup) (x : ClInst), s.Calm ∧ (s.live
      (.coll e) = true ∧ s.domRuns (e.val / 4) = true) ∧ tGet [] s.collUp e.val = p :: rest ∧ s.Feeds e p d h 0 0 r x
      ∧ Pkt.key p % 65536 = x.op * 256 + x.ty * 16 + x.mode * 4 ∧ (clAllowed x.op x.ty x.mode = true ∧ x.mode < 4 ∧
      x.ty < 16 ∧ x.op < 256) ∧ Pkt.mlen p = x.count * x.up ∧ (Pkt.tag p = (s.grpWord d x.group 1).toNat ∧ Pkt.addr p
      = (s.grpWord d x.group 2).toNat) ∧ (x.next = 0 ∧ x.nseg = 1 ∧ x.kids = [] ∧ x.members = []) ∧ (s.grpRoot d
      x.group = false ∧ s.grpLocals d x.group = 0 ∧ s.grpKids d x.group = 1)) ∧
    (∃ (s : State) (e : Engine) (p : Pkt) (rest : List Pkt), s.Calm ∧ (s.live (.coll e) = true ∧ s.domRuns (e.val / 4) =
      true) ∧ tGet [] s.collUp e.val = p :: rest ∧ s.findGroup (Pkt.key p / 65536) = none) ∧
    (∃ (s : State) (e : Engine) (p : Pkt) (rest : List Pkt) (d h m op : Nat) (r : ClGroup) (x : ClInst) (o : Op) (c : Cq)
      (mi : ClIn), s.Calm ∧ (s.live (.coll e) = true ∧ s.domRuns (e.val / 4) = true) ∧ tGet [] s.collDown e.val = p ::
      rest ∧ (s.findGroup (Pkt.key p / 65536) = some (d, r) ∧ e.val ∉ s.engOff ∧ r.number (Pkt.msn p) = some x.n ∧
      r.gone x.n = false) ∧ (s.instOf d (Pkt.key p / 65536) x.n = some h ∧ tFind s.insts h = some x ∧ x.dom = d ∧
      x.group = Pkt.key p / 65536) ∧ (x.nseg = 1 ∧ x.downs = [] ∧ x.members = [(m, mi)] ∧ Pkt.moff p = 0 ∧ x.result =
      0) ∧ s.Plain op o c ∧ mi.op = some op ∧ (mi.ended = false ∧ mi.writes = 0 ∧ mi.status = 0) ∧ (o.w 4 = 0 ∧ cmdCt
      o.words = 0xFFF)) ∧
    (∃ (s : State) (e : Engine) (p : Pkt) (rest : List Pkt), s.Calm ∧ (s.live (.coll e) = true ∧ s.domRuns (e.val / 4) =
      true) ∧ tGet [] s.collDown e.val = p :: rest ∧ s.findGroup (Pkt.key p / 65536) = none) :=
  ⟨⟨{ cst (cw0 1 1 1) in0 with collUp := [(1, [upk 0x10 0 8 2 [0, 0, 0, 5, 0, 0, 0, 6]])] }, 1, upk 0x10 0 8 2 [0, 0, 0,
   5, 0, 0, 0, 6], [], 0, 40, 0, 0, 0, { engine := 1 }, in0, by decide +kernel⟩,
   ⟨{ cst (cw0 0 1 0) in0 with collUp := [(1, [upk 0x10 0 8 2 [0, 0, 0, 5, 0, 0, 0, 6]])] }, 1, upk 0x10 0 8 2 [0, 0,
   0, 5, 0, 0, 0, 6], [], 0, 40, { engine := 1 }, in0, by decide +kernel⟩,
   ⟨{ que (op0 0 []) with collUp := [(1, [upk 0x10 0 8 0 []])] }, 1, upk 0x10 0 8 0 [], [], by decide +kernel⟩,
   ⟨{ cst (cw0 0 0 1) { in0 with members := [(0, { op := some 20 })] } with ops := [(20, { cop 2 0 2 0 with performed := true })], collDown := [(1, [upk 0x11 0 8 2 [0, 0, 0, 5, 0, 0, 0, 6]])] },
   1, upk 0x11 0 8 2 [0, 0, 0, 5, 0, 0, 0, 6], [], 0, 40, 0, 20, { engine := 1 },
   { in0 with members := [(0, { op := some 20 })] }, { cop 2 0 2 0 with performed := true }, cqo, { op := some 20 },
   by decide +kernel⟩, ⟨{ que (op0 0 []) with collDown := [(1, [upk 0x11 0 8 0 []])] }, 1, upk 0x11 0 8 0 [], [],
   by decide +kernel⟩⟩

/-- Each case of GroupsAreInstalledAndEnded is met by some state. -/
theorem test_met_GroupsAreInstalledAndEnded :
    (∃ (s : State) (e : Engine) (g : BitVec 16) (d a : Nat), s.Calm ∧ (s.live (.coll e) = true ∧ s.domRuns (e.val / 4) =
      true) ∧ d = e.val / 4 ∧ fld (s.grpWord d g.toNat 0) 61 59 = e.val ∧ s.grpRefused d g.toNat = false ∧ a =
      (s.share d 9).1 + 256 * g.toNat ∧ inHbm (a + 255) = true) ∧
    (∃ (s : State) (e : Engine) (g : BitVec 16), s.Calm ∧ (s.live (.coll e) = true ∧ s.domRuns (e.val / 4) = true) ∧ fld
      (s.grpWord (e.val / 4) g.toNat 0) 61 59 ≠ e.val) ∧
    (∃ (s : State) (e : Engine) (g : BitVec 16) (w0 w3 : Word), s.Calm ∧ (s.live (.coll e) = true ∧ s.domRuns (e.val / 4)
      = true) ∧ w0 = s.grpWord (e.val / 4) g.toNat 0 ∧ w3 = s.grpWord (e.val / 4) g.toNat 3 ∧ fld w0 61 59 = e.val ∧
      (fld w0 40 16 ≠ 0 ∨ fld w3 63 20 ≠ 0 ∨ 16 < fld w0 58 54 ∨ 32 < fld w0 53 48 ∨ (fld w0 58 54 = 0 ∧ fld w0 53 48
      = 0) ∨ fld w3 19 0 = 0 ∨ 524288 < fld w3 19 0 ∨ bit w0 63 = true ∨ (s.findGroup g.toNat).isSome = true)) ∧
    (∃ (s : State) (e : Engine) (g : BitVec 16) (d : Nat) (r : ClGroup), s.Calm ∧ (s.live (.coll e) = true ∧ s.domRuns
      (e.val / 4) = true) ∧ d = e.val / 4 ∧ tFind s.groups (grpKey d g.toNat) = some r ∧ r.engine = e.val ∧
      s.insts.any (fun x => x.2.dom = d ∧ x.2.group = g.toNat) = false ∧ inHbm ((s.share d 9).1 + 256 * g.toNat + 7) =
      true) ∧
    (∃ (s : State) (e : Engine) (g : BitVec 16) (d : Nat) (r : ClGroup), s.Calm ∧ (s.live (.coll e) = true ∧ s.domRuns
      (e.val / 4) = true) ∧ d = e.val / 4 ∧ tFind s.groups (grpKey d g.toNat) = some r ∧ r.engine = e.val ∧
      s.insts.any (fun x => x.2.dom = d ∧ x.2.group = g.toNat) = true) ∧
    (∃ (s : State) (e : Engine) (g : BitVec 16) (d h m op : Nat) (r : ClGroup) (x : ClInst) (mi : ClIn) (o : Op) (c : Cq),
      s.Calm ∧ (s.live (.coll e) = true ∧ s.domRuns (e.val / 4) = true) ∧ d = e.val / 4 ∧ tFind s.groups (grpKey d
      g.toNat) = some r ∧ r.engine = e.val ∧ s.insts = [(h, x)] ∧ (x.dom = d ∧ x.group = g.toNat ∧ x.members = [(m,
      mi)] ∧ x.result = 0 ∧ x.downs = []) ∧ (mi.op = some op ∧ mi.ended = false ∧ mi.status = 0) ∧ s.Plain op o c ∧
      cmdCt o.words = 0xFFF) ∧
    (∃ (s u : State) (e : Engine) (g : BitVec 16) (n : BitVec 24) (dt h m op : Nat) (x : ClInst) (mi : ClIn) (o : Op) (c :
      Cq), u = s.elapse dt ∧ u.Calm ∧ (u.live (.coll e) = true ∧ u.domRuns (e.val / 4) = true) ∧ u.insts = [(h, x)] ∧
      (x.engine = e.val ∧ x.group = g.toNat ∧ x.n % 2 ^ 24 = n.toNat ∧ x.members = [(m, mi)] ∧ x.result = 0 ∧ x.downs
      = []) ∧ (mi.op = some op ∧ mi.ended = false ∧ mi.status = 0) ∧ u.Plain op o c ∧ cmdCt o.words = 0xFFF ∧ u.rf
      (.clCtrl e) 15 0 ≠ 0 ∧ x.since + us (100 * u.rf (.clCtrl e) 15 0) < u.clk ∧ (u.collUp = [] ∧ u.collDown = [])) ∧
    (∃ (s : State) (e : Engine), s.Calm ∧ (s.live (.coll e) = true ∧ s.domRuns (e.val / 4) = true) ∧ e.val ∉ s.engOff ∧
      s.insts.all (fun x => x.2.engine ≠ e.val) = true) ∧
    (∃ (s : State) (e : Engine) (h m op : Nat) (x : ClInst) (mi : ClIn) (o : Op) (c : Cq), s.Calm ∧ (s.live (.coll e) =
      true ∧ s.domRuns (e.val / 4) = true) ∧ e.val ∉ s.engOff ∧ s.insts = [(h, x)] ∧ (x.engine = e.val ∧ x.members =
      [(m, mi)] ∧ x.result = 0) ∧ (mi.op = some op ∧ mi.ended = false ∧ mi.status = 0) ∧ s.Plain op o c ∧ cmdCt
      o.words = 0xFFF) ∧
    (∃ (s : State) (e : Engine), s.Calm ∧ (s.live (.coll e) = true ∧ s.domRuns (e.val / 4) = true) ∧ e.val ∈ s.engOff) ∧
    (∃ (s : State) (e : Engine), s.Calm ∧ e.val ∉ s.engOff) :=
  ⟨⟨{ ge (mkWord 64 [(62, 62, 1), (61, 59, 1), (53, 48, 1)]) (que (op0 0 [])) with groups := [], ctxs := [(9, { ctx1 with words := modAt ctx1.words 24 (fun _ => mkWord 64 [(63, 63, 1)]) })] }.hbmWrite
   (hbmBase + 2 * 0x1000000 + 256 * 6 + 24) [1], 1, 6, 0, hbmBase + 2 * 0x1000000 + 256 * 6, by decide +kernel⟩, ⟨que
   (op0 0 []), 1, 6, by decide +kernel⟩, ⟨que (op0 0 []), 0, 6, 0, 0, by decide +kernel⟩, ⟨ge (cw0 1 0 1) (que (op0 0
   [])), 1, 6, 0, { engine := 1 }, by decide +kernel⟩, ⟨cst (cw0 1 0 1) in0, 1, 6, 0, { engine := 1 },
   by decide +kernel⟩,
   ⟨{ cst (cw0 0 0 1) { in0 with members := [(0, { op := some 20 })] } with ops := [(20, { cop 2 0 2 0 with performed := true })] },
   1, 6, 0, 40, 0, 20, { engine := 1 }, { in0 with members := [(0, { op := some 20 })] }, { op := some 20 },
   { cop 2 0 2 0 with performed := true }, cqo, by decide +kernel⟩,
   ⟨{ cst (cw0 0 0 1) { in0 with members := [(0, { op := some 20 })] } with ops := [(20, { cop 2 0 2 0 with performed := true })] }.wf
   (.clCtrl 1) 15 0 1,
   ({ cst (cw0 0 0 1) { in0 with members := [(0, { op := some 20 })] } with ops := [(20, { cop 2 0 2 0 with performed := true })] }.wf
   (.clCtrl 1) 15 0 1).elapse 1600001, 1, 6, 0, 1600001, 40, 0, 20, { in0 with members := [(0, { op := some 20 })] },
   { op := some 20 }, { cop 2 0 2 0 with performed := true }, cqo, rfl, by decide +kernel⟩, ⟨que (op0 0 []), 1,
   by decide +kernel⟩,
   ⟨{ cst (cw0 0 0 1) { in0 with members := [(0, { op := some 20 })] } with ops := [(20, { cop 2 0 2 0 with performed := true })] },
   1, 40, 0, 20, { in0 with members := [(0, { op := some 20 })] }, { op := some 20 },
   { cop 2 0 2 0 with performed := true }, cqo, by decide +kernel⟩, ⟨{ que (op0 0 []) with engOff := [1] }, 1,
   by decide +kernel⟩, ⟨que (op0 0 []), 1, by decide +kernel⟩⟩

/-- Each case of DirectoryKeepsTheHoldersOfALine is met by some state. -/
theorem test_met_DirectoryKeepsTheHoldersOfALine :
    (∃ (s : State) (d : Dom) (c : Fin 8) (line k : Nat), s.DomainUp d ∧ k = lineKey d.val line ∧ s.holders k = [] ∧
      s.dirLines d.val < 1048576 ∧ (s.cacheLines d.val c.val).length < 131072 ∧ tFind s.hints k ≠ some c.val) ∧
    (∃ (s : State) (d : Dom) (c : Fin 8) (line k h : Nat) (st : LineState), s.DomainUp d ∧ k = lineKey d.val line ∧
      s.holders k = [(h, st)] ∧ h ≠ c.val ∧ (s.cacheLines d.val c.val).length < 131072 ∧ tFind s.hints k ≠ some c.val) ∧
    (∃ (s : State) (d : Dom) (c : Fin 8) (line k : Nat) (a b : Nat × LineState) (hs : List (Nat × LineState)), s.DomainUp
      d ∧ k = lineKey d.val line ∧ s.holders k = a :: b :: hs ∧ tFind (a :: b :: hs) c.val = none ∧ (s.cacheLines
      d.val c.val).length < 131072 ∧ tFind s.hints k ≠ some c.val) ∧
    (∃ (s : State) (d : Dom) (c : Fin 8) (line k : Nat), s.DomainUp d ∧ k = lineKey d.val line ∧ tFind (s.holders k) c.val
      = none ∧ (s.holders k ≠ [] ∨ s.dirLines d.val < 1048576) ∧ (s.cacheLines d.val c.val).length < 131072) ∧
    (∃ (s : State) (d : Dom) (c : Fin 8) (line k : Nat), s.DomainUp d ∧ k = lineKey d.val line ∧ (tFind (s.holders k)
      c.val = some .shared ∨ tFind (s.holders k) c.val = some .lead)) ∧
    (∃ (s : State) (d : Dom) (c : Fin 8) (line k a b : Nat) (x y : LineState) (hs : List (Nat × LineState)), s.DomainUp d
      ∧ k = lineKey d.val line ∧ tFind (s.holders k) c.val = some .lead ∧ tDel c.val (s.holders k) = (a, x) :: (b, y)
      :: hs ∧ ((a, x) :: (b, y) :: hs).all (fun e => e.2 ≠ .lead) = true) ∧
    (∃ (s : State) (d : Dom) (c : Fin 8) (line k a : Nat) (x : LineState), s.DomainUp d ∧ k = lineKey d.val line ∧ (tFind
      (s.holders k) c.val).isSome = true ∧ tDel c.val (s.holders k) = [(a, x)] ∧ (x = .shared ∨ x = .lead)) ∧
    (∃ (s : State) (d : Dom) (c : Fin 8) (line k : Nat) (q : DirReq), s.DomainUp d ∧ k = lineKey d.val line ∧ ((tFind
      (s.holders k) c.val = none ∧ (q = .upgrade ∨ q = .evict)) ∨ ((tFind (s.holders k) c.val).isSome = true ∧ (q =
      .read ∨ q = .readForOwnership))) ∧ (q = .read → tFind s.hints k ≠ some c.val) ∧ s.insts = [] ∧ s.invals = []) ∧
    (∃ (s : State) (d : Dom) (line k c : Nat), s.DomainUp d ∧ k = lineKey d.val line ∧ s.holders k = [(c, .dirty)]) ∧
    (∃ (s : State) (d : Dom) (line k : Nat), s.DomainUp d ∧ k = lineKey d.val line ∧ (s.holders k).all (fun h => h.2 ≠
      .dirty) = true) ∧
    (∃ (s : State) (d : Dom) (line k : Nat) (_mask : BitVec 64) (_data : BitVec 512), s.DomainUp d ∧ k = lineKey d.val
      line) ∧
    (∃ (s : State) (d : Dom) (line k : Nat) (_data : BitVec 512) (c : Fin 8), s.DomainUp d ∧ k = lineKey d.val line ∧ s.rb
      (.csCtrl d) 16 = true ∧ s.dirLines d.val < 1048576 ∧ (s.cacheLines d.val c.val).length < 131072) ∧
    (∃ (s : State) (d : Dom) (line k : Nat) (_data : BitVec 512) (_c : Fin 8) (ready : Bool), s.DomainUp d ∧ k = lineKey
      d.val line ∧ (s.rb (.csCtrl d) 16 = false ∨ ready = false)) ∧
    (∃ (s : State) (d : Dom) (c : Fin 8) (line k : Nat), s.DomainUp d ∧ k = lineKey d.val line ∧ tFind s.hints k = some
      c.val) :=
  ⟨⟨dr [], 0, 2, 5, lineKey 0 5, by decide +kernel⟩, ⟨dr [(4, .dirty)], 0, 2, 5, lineKey 0 5, 4, .dirty,
   by decide +kernel⟩, ⟨dr [(0, .lead), (2, .shared)], 0, 3, 5, lineKey 0 5, (0, .lead), (2, .shared), [],
   by decide +kernel⟩, ⟨dr [(0, .lead), (2, .shared)], 0, 3, 5, lineKey 0 5, by decide +kernel⟩, ⟨dr [(0, .lead), (2,
   .shared)], 0, 2, 5, lineKey 0 5, by decide +kernel⟩, ⟨dr [(0, .lead), (2, .shared), (5, .shared)], 0, 0, 5, lineKey
   0 5, 2, 5, .shared, .shared, [], by decide +kernel⟩, ⟨dr [(0, .lead), (2, .shared)], 0, 2, 5, lineKey 0 5, 0,
   .lead, by decide +kernel⟩, ⟨dr [(0, .lead), (2, .shared)], 0, 3, 5, lineKey 0 5, .upgrade, by decide +kernel⟩, ⟨dr
   [(4, .dirty)], 0, 5, lineKey 0 5, 4, by decide +kernel⟩, ⟨dr [(0, .lead), (2, .shared)], 0, 5, lineKey 0 5,
   by decide +kernel⟩, ⟨{ dr [(0, .lead), (2, .shared)] with hbm := [(320, 7), (321, 8), (384, 9)] }, 0, 5, lineKey 0
   5, 0x8000000000000001, 0xAB, by decide +kernel⟩, ⟨dr [(3, .unique)], 0, 5, lineKey 0 5, 0xAB, 2,
   by decide +kernel⟩, ⟨dr [(3, .unique)], 0, 5, lineKey 0 5, 0xAB, 2, false, by decide +kernel⟩,
   ⟨{ dr [(2, .dirty)] with hints := [(lineKey 0 5, 2)] }, 0, 2, 5, lineKey 0 5, by decide +kernel⟩⟩

/-- Each case of DomainsAreLostAndRestarted is met by some state. -/
theorem test_met_DomainsAreLostAndRestarted :
    (∃ (s : State) (d : Dom) (c : StoreFailure) (_agent : BitVec 8) (k : Nat), s.DomainUp d ∧ s.insts = [] ∧ s.invals = []
      ∧ storeCause c = some k) ∧
    (∃ (s : State) (d : Dom) (line : Nat) (agent : BitVec 8), s.DomainUp d ∧ s.insts = [] ∧ s.invals = [] ∧ tFind
      (s.holders (lineKey d.val line)) (agent.toNat % 8) = some .dirty) ∧
    (∃ (s : State) (d : Dom) (line : Nat) (agent : BitVec 8) (k : Nat), s.DomainUp d ∧ k = lineKey d.val line ∧ tFind
      (s.holders k) (agent.toNat % 8) = some .shared) ∧
    (∃ (s : State) (d : Dom) (_agent : BitVec 8), s.DomainUp d) ∧
    (∃ (s : State) (d : Dom) (_agent : BitVec 8), s.DomainUp d) ∧
    (∃ (s u : State) (d : Dom) (_agent : BitVec 8) (dt : Nat), u = s.elapse dt ∧ u.DomainUp d ∧ u.insts = [] ∧ u.invals =
      [] ∧ us (u.rf (.csCtrl d) 15 0) ≤ dt) ∧
    (∃ (s u : State) (d : Dom) (_agent : BitVec 8) (dt : Nat), u = s.elapse dt ∧ u.Calm ∧ dt < us (u.rf (.csCtrl d) 15 0)) ∧
    (∃ (s u : State) (d : Dom) (dt n : Nat), u = s.elapse dt ∧ u.DomainUp d ∧ u.insts = [] ∧ u.invals = [] ∧ n ≤ u.clk ∧
      max n (tGet 0 u.stewardAt d.val) + us 10000 < u.clk) ∧
    (∃ (s : State) (d : Dom), s.Calm ∧ s.live (.domain d) = true ∧ tFind s.restart d.val = some 2) ∧
    (∃ (s : State) (d : Dom), s.Calm ∧ s.live (.domain d) = true ∧ tFind s.restart d.val = some 3) ∧
    (∃ (s : State) (d : Dom), s.Calm ∧ s.live (.domain d) = true ∧ tFind s.restart d.val = some 4) ∧
    (∃ (s : State) (d : Dom), s.Calm ∧ s.live (.domain d) = true ∧ tFind s.restart d.val = some 6) ∧
    (∃ (s : State) (d : Dom) (k : Nat), s.Calm ∧ s.live (.domain d) = true ∧ tFind s.restart d.val = some k ∧ s.domState
      d.val = 2 ∧ s.tack.starting = false) :=
  ⟨⟨que (op0 0 []), 0, .hbmUncorrectable, 3, 0x10, by decide +kernel⟩, ⟨dr [(3, .dirty)], 0, 5, 3, by decide +kernel⟩,
   ⟨dr [(2, .lead), (3, .shared)], 0, 5, 3, lineKey 0 5, by decide +kernel⟩, ⟨dr [(3, .dirty)], 0, 9,
   by decide +kernel⟩, ⟨dr [(3, .dirty)], 0, 3, by decide +kernel⟩, ⟨que (op0 0 []), (que (op0 0 [])).elapse (us 100),
   0, 3, us 100, rfl, by decide +kernel⟩, ⟨que (op0 0 []), (que (op0 0 [])).elapse 1599, 0, 3, 1599, rfl,
   by decide +kernel⟩, ⟨que (op0 0 []), (que (op0 0 [])).elapse (us 10000 + 1), 1, us 10000 + 1, 0, rfl,
   by decide +kernel⟩,
   ⟨{ que (op0 0 []) with restart := [(0, 2)], locks := [(6, { prio := 3 }), (65539, { prio := 4 })], grooms := [(53, { scratch := [(9, 6)] })] },
   0, by decide +kernel⟩, ⟨{ que (op0 0 []) with restart := [(0, 3)] }, 0, by decide +kernel⟩,
   ⟨{ que (op0 0 []) with restart := [(0, 4)], hbm := [(5, 6), (stackSize, 7)] }, 0, by decide +kernel⟩,
   ⟨{ que (op0 0 []) with restart := [(0, 6)] }.wf (.csStatus 0) 63 62 2, 0, by decide +kernel⟩,
   ⟨{ que (op0 0 []) with restart := [(0, 3)] }.wf (.csStatus 0) 63 62 2, 0, 3, by decide +kernel⟩⟩

/-- Each case of LocksAndHitchAtomics is met by some state. -/
theorem test_met_LocksAndHitchAtomics :
    (∃ (s : State) (m : Master) (d : Dom) (n : BitVec 16) (w : Holder) (p g : Nat) (l : Lock), (s.agentLive m = true ∧
      s.live (.hitch d) = true ∧ s.masterMay m (hkAddr 0 d n) = true ∧ s.domRuns d.val = true) ∧ s.holderOf d.val m =
      some (w, p) ∧ l = s.lock d.val n.toNat ∧ l.owner = none ∧ s.waitsOn d.val w = none ∧ g = (l.gen + 1) % 65536) ∧
    (∃ (s : State) (m : Master) (d : Dom) (n : BitVec 16) (w v : Holder) (p : Nat) (l : Lock), (s.agentLive m = true ∧
      s.live (.hitch d) = true ∧ s.masterMay m (hkAddr 0 d n) = true ∧ s.domRuns d.val = true) ∧ s.holderOf d.val m =
      some (w, p) ∧ l = s.lock d.val n.toNat ∧ l.owner = some v ∧ v ≠ w ∧ s.waitsOn d.val w = none ∧ p ≤ l.eff) ∧
    (∃ (s : State) (m : Master) (d : Dom) (n : BitVec 16) (w v : Holder) (p : Nat) (l : Lock), (s.agentLive m = true ∧
      s.live (.hitch d) = true ∧ s.masterMay m (hkAddr 1 d n) = true ∧ s.domRuns d.val = true) ∧ s.holderOf d.val m =
      some (w, p) ∧ l = s.lock d.val n.toNat ∧ l.owner = some v) ∧
    (∃ (s : State) (m : Master) (d : Dom) (n : BitVec 16) (w : Holder) (p g : Nat) (l : Lock), (s.agentLive m = true ∧
      s.live (.hitch d) = true ∧ s.masterMay m (hkAddr 1 d n) = true ∧ s.domRuns d.val = true) ∧ s.holderOf d.val m =
      some (w, p) ∧ l = s.lock d.val n.toNat ∧ l.owner = none ∧ g = (l.gen + 1) % 65536) ∧
    (∃ (s : State) (m : Master) (d : Dom) (n : BitVec 16) (w : Holder) (p : Nat) (l : Lock), (s.agentLive m = true ∧
      s.live (.hitch d) = true ∧ s.masterMay m (hkAddr 2 d n) = true ∧ s.domRuns d.val = true) ∧ s.holderOf d.val m =
      some (w, p) ∧ l = s.lock d.val n.toNat ∧ l.owner = some w ∧ l.waiters = []) ∧
    (∃ (s : State) (m : Master) (d : Dom) (n : BitVec 16) (w : Holder) (p g : Nat) (l : Lock) (x : Waiter), (s.agentLive m
      = true ∧ s.live (.hitch d) = true ∧ s.masterMay m (hkAddr 2 d n) = true ∧ s.domRuns d.val = true) ∧ s.holderOf
      d.val m = some (w, p) ∧ l = s.lock d.val n.toNat ∧ l.owner = some w ∧ firstWaiter s.clk l.waiters = some x ∧ g =
      (l.gen + 1) % 65536) ∧
    (∃ (s : State) (m : Master) (d : Dom) (n : BitVec 16) (w : Holder) (p : Nat) (l : Lock), (s.agentLive m = true ∧
      s.live (.hitch d) = true ∧ s.masterMay m (hkAddr 2 d n) = true ∧ s.domRuns d.val = true) ∧ s.holderOf d.val m =
      some (w, p) ∧ l = s.lock d.val n.toNat ∧ l.owner ≠ some w) ∧
    (∃ (s : State) (m : Master) (d : Dom) (n : BitVec 16) (w : Holder) (p : Nat) (l : Lock), (s.agentLive m = true ∧
      s.live (.hitch d) = true ∧ s.masterMay m (hkAddr 3 d n) = true ∧ s.domRuns d.val = true) ∧ s.holderOf d.val m =
      some (w, p) ∧ l = s.lock d.val n.toNat ∧ s.waitsOn d.val w = some n.toNat) ∧
    (∃ (s : State) (m : Master) (d : Dom) (n : BitVec 16) (w : Holder) (p : Nat) (l : Lock), (s.agentLive m = true ∧
      s.live (.hitch d) = true ∧ s.masterMay m (hkAddr 3 d n) = true ∧ s.domRuns d.val = true) ∧ s.holderOf d.val m =
      some (w, p) ∧ l = s.lock d.val n.toNat ∧ s.waitsOn d.val w ≠ some n.toNat) ∧
    (∃ (s : State) (m : Master) (d : Dom) (n : BitVec 16) (l : Lock), (s.agentLive m = true ∧ s.live (.hitch d) = true ∧
      s.masterMay m (hkAddr 0 d n) = true ∧ s.domRuns d.val = true) ∧ s.holderOf d.val m = none ∧ l = s.lock d.val
      n.toNat) ∧
    (∃ (s : State) (d : Dom) (addr _b _c : BitVec 64) (code : BitVec 11) (n old : Nat), s.live (.hitch d) = true ∧
      s.domRuns d.val = true ∧ atomOk code.toNat = true ∧ atomBad code.toNat = false ∧ n = atomSize (code.toNat / 16 %
      8) ∧ (inHbm addr.toNat = true ∧ domOfHbm addr.toNat = d.val) ∧ addr.toNat % n = 0 ∧ old = ofLe (s.hbmRead
      addr.toNat n)) ∧
    (∃ (s : State) (d : Dom) (addr _b _c : BitVec 64) (code : BitVec 11) (n : Nat), s.live (.hitch d) = true ∧ s.domRuns
      d.val = true ∧ atomOk code.toNat = true ∧ atomBad code.toNat = true ∧ n = atomSize (code.toNat / 16 % 8) ∧
      (inHbm addr.toNat = true ∧ domOfHbm addr.toNat = d.val) ∧ addr.toNat % n = 0) :=
  ⟨⟨hk [(6, { abandoned := true, gen := 4 })], m1, 0, 6, .fn 1 2, 40, 5, { abandoned := true, gen := 4 },
   by decide +kernel⟩, ⟨hk [(6, { owner := some .steward, prio := 50, gen := 4 })], m1, 0, 6, .fn 1 2, .steward, 40,
   { owner := some .steward, prio := 50, gen := 4 }, by decide +kernel⟩, ⟨hk [(6,
   { owner := some .steward, prio := 50, gen := 4 })], m1, 0, 6, .fn 1 2, .steward, 40,
   { owner := some .steward, prio := 50, gen := 4 }, by decide +kernel⟩, ⟨hk [], m1, 0, 6, .fn 1 2, 40, 1, {},
   by decide +kernel⟩, ⟨hk [(6, { owner := some (.fn 1 2), prio := 50, gen := 4, abandoned := true })], m1, 0, 6, .fn
   1 2, 40, { owner := some (.fn 1 2), prio := 50, gen := 4, abandoned := true }, by decide +kernel⟩, ⟨hk [(6,
   { owner := some (.fn 1 2), prio := 50, gen := 4, waiters := [⟨.steward, 255, 0⟩] })], m1, 0, 6, .fn 1 2, 40, 5,
   { owner := some (.fn 1 2), prio := 50, gen := 4, waiters := [⟨.steward, 255, 0⟩] }, ⟨.steward, 255, 0⟩,
   by decide +kernel⟩, ⟨hk [], m1, 0, 6, .fn 1 2, 40, {}, by decide +kernel⟩, ⟨hk [(6,
   { owner := some .steward, gen := 4, waiters := [⟨.fn 1 2, 40, 0⟩] })], m1, 0, 6, .fn 1 2, 40,
   { owner := some .steward, gen := 4, waiters := [⟨.fn 1 2, 40, 0⟩] }, by decide +kernel⟩, ⟨hk [], m1, 0, 6, .fn 1 2,
   40, {}, by decide +kernel⟩, ⟨(hk []).setReg (.hkFncfg 0 34) 0, m1, 0, 6, {}, by decide +kernel⟩,
   ⟨{ dr [(3, .unique)] with hbm := [(320, 7)] }, 0, BitVec.ofNat 64 (hbmBase + 320), 5, 0, 0x23, 8, 7,
   by decide +kernel⟩, ⟨dr [(3, .unique)], 0, BitVec.ofNat 64 (hbmBase + 320), 5, 0, 0x45, 4, by decide +kernel⟩⟩

/-- Each case of NetworkTimeIsKept is met by some state. -/
theorem test_met_NetworkTimeIsKept :
    (∃ (s u : State) (p : Port) (dt : Nat), u = s.elapse dt ∧ u.live (.port p) = true ∧ u.portState p = 3 ∧ (u.port
      p).syncAt + us (u.rf .ntCtrl 41 32) ≤ u.clk ∧ 2 ≤ (u.port p).res 0) ∧
    (∃ (s : State) (p : Port) (h : BitVec 512), s.Hears p h ∧ (s.port p).offset h = none) ∧
    (∃ (s : State) (p : Port) (h : BitVec 512) (r : SyncRx) (t3 : Nat) (th : Int), s.Hears p h ∧ (s.port p).rx = some r ∧
      fld h 367 352 = (r.seq + 1) % 65536 ∧ (s.port p).sent.find? (fun e => e.1 = fld h 239 224) = some (fld h 239
      224, t3) ∧ th = (((r.nt : Int) - (fld h 303 240 : Nat)) - ((fld h 223 160 : Nat) - (t3 : Int))) / 2 ∧ fld h 351
      320 = s.ntEpoch ∧ th.natAbs ≤ 16000 ∧ s.thetas.all (fun x => decide (x.natAbs ≤ 16000)) = true) ∧
    (∃ (s : State) (p : Port) (h : BitVec 512) (r : SyncRx) (t3 : Nat) (th : Int), s.Hears p h ∧ (s.port p).rx = some r ∧
      fld h 367 352 = (r.seq + 1) % 65536 ∧ (s.port p).sent.find? (fun e => e.1 = fld h 239 224) = some (fld h 239
      224, t3) ∧ th = (((r.nt : Int) - (fld h 303 240 : Nat)) - ((fld h 223 160 : Nat) - (t3 : Int))) / 2 ∧ (fld h 351
      320 ≠ s.ntEpoch ∧ fld h 351 320 ≠ 0)) ∧
    (∃ (s u : State) (p : Port) (dt : Nat) (r : SyncRx), u = s.elapse dt ∧ u.live (.port p) = true ∧ (u.port p).rx = some
      r ∧ r.at_ + 4 * us (u.rf .ntCtrl 41 32) < u.clk ∧ u.isRoot = false ∧ (∀ q : Port, q ≠ p → (u.port q).rx = none)) ∧
    (∃ (s u : State) (dt m : Nat), u = s.elapse dt ∧ u.live .global = true ∧ u.isRoot = true ∧ (u.rb .ntSeed 63 = true ∧
      u.armedAt < u.clk) ∧ m = u.ntEpoch ∧ (u.epochSeen = 0 ∨ u.epochSeen = m) ∧ u.rf .ntSeed 62 31 = 0 ∧ m + 1 < 2 ^
      32) ∧
    (∃ (s u : State) (dt : Nat), u = s.elapse dt ∧ u.live .global = true ∧ u.isRoot = true ∧ (u.rb .ntSeed 63 = false ∨
      u.clk ≤ u.armedAt)) ∧
    (∃ (s u : State) (dt : Nat), u = s.elapse dt ∧ u.isRoot = false) ∧
    (∃ (s u : State) (dt : Nat), u = s.elapse dt ∧ u.live .global = true ∧ u.isRoot = true ∧ u.rb .ntStatus 61 = false ∧
      u.ppsAt + us 2000000 < u.clk) ∧
    (∃ (s u : State) (dt : Nat), u = s.elapse dt ∧ u.live .global = true ∧ u.ppsOut = none ∧ u.rb .ntStatus 63 = true ∧
      u.nt.toNat % 16000000000 ≤ 16) ∧
    (∃ (s u : State) (dt t0 : Nat), u = s.elapse dt ∧ u.live .global = true ∧ u.ppsOut = some t0 ∧ (t0 + 1600 ≤ u.clk ∨
      u.rb .ntStatus 63 = false)) ∧
    (∃ (s u : State) (dt : Nat), u = s.elapse dt ∧ u.live .global = true ∧ u.rb .ntStatus 62 = false ∧ (u.rb .ntStatus 63
      = false ∨ (1 ≤ u.ntDist ∧ u.ntDist ≤ 62 ∧ 16 * u.rf .ntCtrl 31 16 < (toSigned 32 (u.rf .ntOffset 63 32)).natAbs)
      ∨ (u.isRoot = false ∧ u.holdSince.any (fun t0 => decide (t0 + us 1000000 < u.clk)) = true))) ∧
    (∃ (s u : State) (dt t0 : Nat), u = s.elapse dt ∧ u.live .global = true ∧ u.rb .ntStatus 62 = true ∧ (u.rb .ntStatus
      63 = true ∧ (u.ntDist = 0 ∨ u.ntDist = 63 ∨ (toSigned 32 (u.rf .ntOffset 63 32)).natAbs ≤ 16 * u.rf .ntCtrl 31
      16)) ∧ u.holdSince = none ∧ u.goodSince = some t0 ∧ t0 + us 100000 ≤ u.clk) ∧
    (∃ (s : State) (v : BitVec 64), s.live .global = true ∧ fld v 30 0 < 1152921505) ∧
    (∃ (s : State) (v : BitVec 64), s.live .global = true ∧ 1152921505 ≤ fld v 30 0) :=
  ⟨⟨port 3 (fun x => { x with far := some (mkWord 512 [(447, 0, 2 ^ 448 - 1)]) }), (port 3 (fun x =>
   { x with far := some (mkWord 512 [(447, 0, 2 ^ 448 - 1)]) })).elapse 160000, 5, 160000, rfl, by decide +kernel⟩,
   ⟨tmst (sync 7 2 21 80000 5 82224) id, 5, sync 7 2 21 80000 5 82224, by decide +kernel⟩, ⟨tsync.wf .ntStatus 31 0 7,
   5, sync 7 2 21 80000 5 82224, rx0, 81600, 32, by decide +kernel⟩, ⟨tsync, 5, sync 7 2 21 80000 5 82224, rx0, 81600,
   32, by decide +kernel⟩, ⟨tsync, tsync.elapse 640001, 5, 640001, rx0, rfl, by decide +kernel⟩, ⟨(ready.wb .ntCtrl 63
   true).setReg .ntSeed 0x800000003B9ACA00, ((ready.wb .ntCtrl 63 true).setReg .ntSeed 0x800000003B9ACA00).elapse 160,
   160, 0, rfl, by decide +kernel⟩, ⟨ready.wb .ntCtrl 63 true, (ready.wb .ntCtrl 63 true).elapse 160, 160, rfl,
   by decide +kernel⟩, ⟨ready, ready.elapse 160, 160, rfl, by decide +kernel⟩, ⟨ready.wb .ntCtrl 63 true, (ready.wb
   .ntCtrl 63 true).elapse 32000000001, 32000000001, rfl, by decide +kernel⟩, ⟨ready.wb .ntStatus 63 true, (ready.wb
   .ntStatus 63 true).elapse 16000000000, 16000000000, rfl, by decide +kernel⟩,
   ⟨{ ready.wb .ntStatus 63 true with ppsOut := some 0 }, { ready.wb .ntStatus 63 true with ppsOut := some 0 }.elapse
   1600, 1600, 0, rfl, by decide +kernel⟩, ⟨ready, ready.elapse 16, 16, rfl, by decide +kernel⟩,
   ⟨{ (ready.wb .ntStatus 63 true).wb .ntStatus 62 true with goodSince := some 0 },
   { (ready.wb .ntStatus 63 true).wb .ntStatus 62 true with goodSince := some 0 }.elapse 1600000000, 1600000000, 0,
   rfl, by decide +kernel⟩, ⟨ready, 0x800000003B9ACA00, by decide +kernel⟩, ⟨ready, 0x8000000065EC5080,
   by decide +kernel⟩⟩

/-- Each case of ShapersGatesAndEpochsFollowTime is met by some state. -/
theorem test_met_ShapersGatesAndEpochsFollowTime :
    (∃ (s u : State) (dt n : Nat) (p : Port) (c : Fin 7) (x : Shaper) (w : Word), u = s.elapse dt ∧ u.live .global = true
      ∧ u.nt.toNat / 16000 = (u.port p).refill + n ∧ 1 ≤ n ∧ w = u.reg (.egShape p c) ∧ x = (u.port p).shaper c.val) ∧
    (∃ (s u : State) (p : Port) (dt i ph c : Nat) (b : Fin 2), u = s.elapse dt ∧ u.live (.port p) = true ∧ b = u.operGate
      p ∧ i < u.gateLen p b ∧ c = ((List.range (u.gateLen p b)).map (u.gateDur p b)).sum ∧ ph = (((u.nt.toNat : Int) -
      16 * (u.rf (.egGateBase p b) 59 0 : Nat)) % (16 * (c : Int))).toNat ∧ 16 * ((List.range i).map (u.gateDur p
      b)).sum ≤ ph ∧ ph < 16 * ((List.range (i + 1)).map (u.gateDur p b)).sum) ∧
    (∃ (s : State) (p : Port) (v : BitVec 64), s.live (.port p) = true ∧ (v &&& 0x0FF000C0FFFFFFFF) = 0 ∧ s.operGate p = 0
      ∧ fld v 45 40 = s.rf (.egGateCtrl p) 45 40) ∧
    (∃ (s u : State) (p : Port) (dt start c : Nat) (b : Fin 2), u = s.elapse dt ∧ u.live (.port p) = true ∧ u.rb
      (.egGateCtrl p) 62 = true ∧ b = (if u.rb (.egGateCtrl p) 61 = true then 1 else 0) ∧ u.gateBad p b = false ∧ c =
      ((List.range (u.gateLen p b)).map (u.gateDur p b)).sum ∧ (u.rf (.egGateSwitch p) 59 0 ≤ start ∧ start < u.rf
      (.egGateSwitch p) 59 0 + c) ∧ ((start : Int) - (u.rf (.egGateBase p b) 59 0 : Nat)) % (c : Int) = 0) ∧
    (∃ (s u : State) (p : Port) (dt : Nat) (b : Fin 2), u = s.elapse dt ∧ u.live (.port p) = true ∧ u.rb (.egGateCtrl p)
      62 = true ∧ b = (if u.rb (.egGateCtrl p) 61 = true then 1 else 0) ∧ (((List.range (u.gateLen p b)).map
      (u.gateDur p b)).sum < 1000 ∨ 10 ^ 9 < ((List.range (u.gateLen p b)).map (u.gateDur p b)).sum ∨ (List.range
      (u.gateLen p b)).any (fun i => u.gateDur p b i < 50) = true)) ∧
    (∃ (s u : State) (dt : Nat) (b : RtBank), u = s.elapse dt ∧ u.Calm ∧ u.live .global = true ∧ u.newBank = some b ∧ u.rf
      .rtEpochAt 59 0 ≤ u.nt.toNat / 16) ∧
    (∃ (s u : State) (dt : Nat), u = s.elapse dt ∧ u.Calm ∧ u.live .global = true ∧ u.oldBank.isSome = true ∧ u.rf
      .rtEpochAt 59 0 + 1000 * u.rf .rtEpoch 29 24 ≤ u.nt.toNat / 16 ∧ u.loadedEpoch < 2 ^ 32) ∧
    (∃ (s : State) (j : CoatJob) (d : Dom) (m v : Word), s.todo = [] ∧ s.live .global = true ∧ s.tack.coat = some j ∧
      (j.scope = 5 ∧ j.unit = d.val) ∧ s.domRuns d.val = true ∧ s.rf .coStatus 63 61 = 2 ∧ j.secs = [(7, bytesOf
      [BitVec.ofNat 64 (Reg.csCtrl d).addr, m, v])] ∧ (m &&& 0x1FFFF) = m ∧ s.mbox.run = none) ∧
    (∃ (s u : State) (dt : Nat) (j : CoatJob) (p : Port), u = s.elapse dt ∧ u.todo = [] ∧ u.live .global = true ∧
      u.tack.coat = some j ∧ (j.scope = 2 ∧ j.unit = p.val) ∧ u.portState p ≠ 6 ∧ u.rf .coStatus 63 61 = 2 ∧ (u.port
      p).outv ≠ [] ∧ j.since + us 100 ≤ u.clk ∧ u.mbox.run = none) :=
  ⟨⟨(port 3 (fun x => { x with shapers := [(3, ⟨true, -100⟩)] })).setReg (.egShape 5 3) 0x861A010000000000, ((port 3 (fun
   x => { x with shapers := [(3, ⟨true, -100⟩)] })).setReg (.egShape 5 3) 0x861A010000000000).elapse 16000, 16000, 1,
   5, 3, ⟨true, -100⟩, 0x861A010000000000, rfl, by decide +kernel⟩, ⟨gt, gt.elapse 32000, 5, 32000, 1, 32000, 10000,
   0, rfl, by decide +kernel⟩, ⟨port 3 id, 5, 0xE000400000000000, by decide +kernel⟩, ⟨gsw, gsw.elapse 160000, 5,
   160000, 10000, 10000, 1, rfl, by decide +kernel⟩, ⟨(port 3 id).setReg (.egGateCtrl 5) (mkWord 64 [(62, 62, 1)]),
   ((port 3 id).setReg (.egGateCtrl 5) (mkWord 64 [(62, 62, 1)])).elapse 16, 5, 16, 0, rfl, by decide +kernel⟩,
   ⟨{ ready with newBank := some ⟨[], 0x20⟩ }, { ready with newBank := some ⟨[], 0x20⟩ }.elapse 16, 16, ⟨[], 0x20⟩,
   rfl, by decide +kernel⟩, ⟨{ ready with oldBank := some ⟨[], 0⟩, loadedEpoch := 9 }.wb .rtEpoch 30 true,
   ({ ready with oldBank := some ⟨[], 0⟩, loadedEpoch := 9 }.wb .rtEpoch 30 true).elapse 16, 16, rfl,
   by decide +kernel⟩, ⟨coat5 [(7, bytesOf [BitVec.ofNat 64 (Reg.csCtrl 0).addr, 0xFFFF, 20])], ⟨5, 0, [(7, bytesOf
   [BitVec.ofNat 64 (Reg.csCtrl 0).addr, 0xFFFF, 20])], 77, 0, 0, false, [], false⟩, 0, 0xFFFF, 20,
   by decide +kernel⟩,
   ⟨{ coat2 with tack := { coat2.tack with coat := some ⟨2, 5, [], 77, 0, 0, false, [], false⟩ } }.wf .coStatus 63 61
   2, ({ coat2 with tack := { coat2.tack with coat := some ⟨2, 5, [], 77, 0, 0, false, [], false⟩ } }.wf .coStatus 63
   61 2).elapse 1600000, 1600000, ⟨2, 5, [], 77, 0, 0, false, [], false⟩, 5, rfl, by decide +kernel⟩⟩

/-- Each case of EndpointsTakeOrRefuseAPacket is met by some state. -/
theorem test_met_EndpointsTakeOrRefuseAPacket :
    (∃ (s : State) (p : Pkt) (x : Option Port) (rest : List Ejected) (st : Stall), s.Arrives p x rest ∧ (Pkt.poisoned p =
      true ∨ Pkt.ecrcOf p ≠ Pkt.ecrc p) ∧ (s.ctx? (Pkt.dctx p)).isSome = true ∧ st = stallOf (s.ctxStall (Pkt.dctx
      p))) ∧
    (∃ (s : State) (p : Pkt) (x : Option Port) (rest : List Ejected) (d : Dom), s.Arrives p x rest ∧ Pkt.Sound p ∧
      (Pkt.opc p ≠ 0x10 ∧ Pkt.opc p ≠ 0x11 ∧ Pkt.opc p ≠ 0x1F) ∧ (d = domOf (s.ctxDom (Pkt.dctx p)) ∧ s.domRuns d.val
      = false)) ∧
    (∃ (s : State) (p : Pkt) (x : Option Port) (rest : List Ejected), s.Arrives p x rest ∧ Pkt.Sound p ∧ s.domRuns
      (s.ctxDom (Pkt.dctx p)) = true ∧ (Pkt.opc p = 3 ∨ Pkt.opc p = 5 ∨ Pkt.opc p = 8 ∨ Pkt.opc p = 9)) ∧
    (∃ (s : State) (p : Pkt) (x : Option Port) (rest : List Ejected), s.Arrives p x rest ∧ Pkt.Sound p ∧ (s.ctx? (Pkt.dctx
      p) = none ∧ s.domRuns (s.ctxDom (Pkt.dctx p)) = true) ∧ (Pkt.opc p = 1 ∨ Pkt.opc p = 2 ∨ Pkt.opc p = 4 ∨ Pkt.opc
      p = 6 ∨ Pkt.opc p = 0x18)) ∧
    (∃ (s : State) (p : Pkt) (x : Option Port) (rest : List Ejected) (f : Nat) (tf : TFlow), s.Arrives p x rest ∧
      Pkt.Sound p ∧ ((s.ctx? (Pkt.dctx p)).isSome = true ∧ s.domRuns (s.ctxDom (Pkt.dctx p)) = true ∧ s.Knows p f tf)
      ∧ (Pkt.opc p = 1 ∨ Pkt.opc p = 2 ∨ Pkt.opc p = 4 ∨ Pkt.opc p = 6 ∨ Pkt.opc p = 0x18) ∧ Pkt.malformed p = true) ∧
    (∃ (s : State) (p : Pkt) (x : Option Port) (rest : List Ejected), s.Arrives p x rest ∧ s.Requests p ∧ s.findTfl p =
      none) ∧
    (∃ (s : State) (p : Pkt) (x : Option Port) (rest : List Ejected) (f : Nat) (r : Reg), s.Arrives p x rest ∧ Pkt.Sound p
      ∧ ((s.ctx? (Pkt.dctx p)).isSome = true ∧ s.domRuns (s.ctxDom (Pkt.dctx p)) = true) ∧ (Pkt.opc p = 0x18 ∧ Pkt.tag
      p / 2 ^ 56 = 1 ∧ Pkt.malformed p = false) ∧ (s.findTfl p = none ∧ s.flowRoom (Pkt.dctx p) = true) ∧ (f =
      s.serial ∧ r = .flowPool (domOf (s.ctxDom (Pkt.dctx p))))) ∧
    (∃ (s : State) (p : Pkt) (x : Option Port) (rest : List Ejected) (f : Nat) (tf : TFlow), s.Arrives p x rest ∧
      Pkt.Sound p ∧ ((s.ctx? (Pkt.dctx p)).isSome = true ∧ s.domRuns (s.ctxDom (Pkt.dctx p)) = true ∧ s.Knows p f tf)
      ∧ (Pkt.opc p = 0x18 ∧ Pkt.tag p / 2 ^ 56 = 1 ∧ Pkt.malformed p = false)) ∧
    (∃ (s : State) (p : Pkt) (x : Option Port) (rest : List Ejected), s.Arrives p x rest ∧ Pkt.Sound p ∧ ((s.ctx?
      (Pkt.dctx p)).isSome = true ∧ s.domRuns (s.ctxDom (Pkt.dctx p)) = true) ∧ (Pkt.opc p = 0x18 ∧ Pkt.tag p / 2 ^ 56
      = 1 ∧ Pkt.malformed p = false) ∧ (s.findTfl p = none ∧ s.flowRoom (Pkt.dctx p) = false)) ∧
    (∃ (s : State), (s.Calm ∧ s.eject = [])) :=
  ⟨⟨tgt tf0 [⟨mkWord 512 [(349, 328, 9)], true⟩], [⟨mkWord 512 [(349, 328, 9)], true⟩], none, [], 0, by decide +kernel,
   Or.inl (by decide +kernel), by decide +kernel, by decide +kernel⟩, ⟨(tgt tf0 pAck).wf (.csStatus 0) 63 62 1, pAck,
   none, [], 0, by decide +kernel, pAck_sound, by decide +kernel, by decide +kernel⟩, ⟨tgt tf0 pAck, pAck, none, [],
   by decide +kernel, pAck_sound, by decide +kernel, by decide +kernel⟩, ⟨{ tgt tf0 pPut0 with ctxs := [] }, pPut0,
   none, [], by decide +kernel, pPut0_sound, by decide +kernel, by decide +kernel⟩, ⟨tgt tf0 pMal, pMal, none, [], 30,
   tf0, by decide +kernel, pMal_sound, by decide +kernel, by decide +kernel, by decide +kernel⟩,
   ⟨{ tgt tf0 pPut0 with tfl := [] }, pPut0, none, [], by decide +kernel, ⟨pPut0_sound, by decide +kernel⟩,
   by decide +kernel⟩, ⟨{ tgt tf0 pOpen with tfl := [] }.wf (.flowPool 0) 63 40 5, pOpen, none, [], 50, .flowPool 0,
   by decide +kernel, pOpen_sound, by decide +kernel, by decide +kernel, by decide +kernel, by decide +kernel⟩, ⟨tgt
   tf0 pOpen, pOpen, none, [], 30, tf0, by decide +kernel, pOpen_sound, by decide +kernel, by decide +kernel⟩,
   ⟨{ tgt tf0 pOpen with tfl := [] }, pOpen, none, [], by decide +kernel, pOpen_sound, by decide +kernel,
   by decide +kernel, by decide +kernel⟩, ⟨que (op0 1 []), by decide +kernel⟩⟩

/-- Each case of TargetsApplyEachPacketOnce is met by some state. -/
theorem test_met_TargetsApplyEachPacketOnce :
    (∃ (s : State) (p : Pkt) (x : Option Port) (rest : List Ejected) (f : Nat) (tf : TFlow) (r : Reg), (s.Arrives p x rest
      ∧ s.Knows p f tf) ∧ s.Requests p ∧ (256 < dist 32 (Pkt.psn p) tf.cum ∧ 2 ^ 31 ≤ dist 32 tf.cum (Pkt.psn p) ∧
      Pkt.psn p ∉ tf.deliv) ∧ r = .rmaCount (stallOf (s.ctxStall tf.dctx))) ∧
    (∃ (s : State) (p : Pkt) (x : Option Port) (rest : List Ejected) (f : Nat) (tf : TFlow), (s.Arrives p x rest ∧ s.Knows
      p f tf) ∧ s.Requests p ∧ (dist 32 (Pkt.psn p) tf.cum ≤ 256 ∧ 1 ≤ dist 32 (Pkt.psn p) tf.cum ∧ Pkt.psn p ∉
      tf.deliv) ∧ (tf.held.any (fun h => Pkt.psn h = Pkt.psn p) = true ∨ tf.issued.any (fun i => i.psn = Pkt.psn p) =
      true)) ∧
    (∃ (s : State) (p : Pkt) (x : Option Port) (rest : List Ejected) (f : Nat) (tf : TFlow) (r : Reg), (s.Arrives p x rest
      ∧ s.Knows p f tf) ∧ s.Requests p ∧ (dist 32 tf.cum (Pkt.psn p) < 2 ^ 31 ∨ Pkt.psn p ∈ tf.deliv) ∧ (Pkt.psn p ∉
      tf.refused ∧ Pkt.opc p ≠ 2 ∧ Pkt.opc p ≠ 4) ∧ r = .rmaCount (stallOf (s.ctxStall tf.dctx))) ∧
    (∃ (s : State) (p : Pkt) (x : Option Port) (rest : List Ejected) (f : Nat) (tf : TFlow), (s.Arrives p x rest ∧ s.Knows
      p f tf) ∧ s.Requests p ∧ (dist 32 tf.cum (Pkt.psn p) < 2 ^ 31 ∨ Pkt.psn p ∈ tf.deliv) ∧ (Pkt.psn p ∈ tf.refused
      ∧ tf.cause ≠ 2)) ∧
    (∃ (s : State) (p : Pkt) (x : Option Port) (rest : List Ejected) (f : Nat) (tf : TFlow) (a : Option (Nat × Word ×
      Nat)), (s.Arrives p x rest ∧ s.Knows p f tf) ∧ s.Requests p ∧ (dist 32 tf.cum (Pkt.psn p) < 2 ^ 31 ∨ Pkt.psn p ∈
      tf.deliv) ∧ (Pkt.psn p ∉ tf.refused ∧ Pkt.opc p = 4 ∧ a = tf.atoms.find? (fun a => a.1 = Pkt.psn p))) ∧
    (∃ (s : State) (p : Pkt) (x : Option Port) (rest : List Ejected) (f : Nat) (tf : TFlow) (r : Reg), (s.Arrives p x rest
      ∧ s.Knows p f tf) ∧ s.Requests p ∧ (2 ≤ dist 32 (Pkt.psn p) tf.cum ∧ dist 32 (Pkt.psn p) tf.cum ≤ 256) ∧
      (tf.deliv = [] ∧ tf.sends = [] ∧ tf.issued = [] ∧ tf.held.all (fun h => Pkt.psn h ≠ Pkt.psn p) = true) ∧
      (Pkt.flagged p = true ∧ r = .rmaCount (stallOf (s.ctxStall tf.dctx)))) ∧
    (∃ (s : State) (p : Pkt) (x : Option Port) (rest : List Ejected) (f : Nat) (tf : TFlow) (cause : Nat), (s.Arrives p x
      rest ∧ s.Knows p f tf) ∧ s.Requests p ∧ s.Next p tf ∧ Pkt.opc p = 1 ∧ (s.keyCheck tf.dctx (Pkt.key p) (Pkt.addr
      p + Pkt.moff p) (min 4096 (Pkt.mlen p - Pkt.moff p)) 61 = cause ∧ cause ≠ 0)) ∧
    (∃ (s : State) (p : Pkt) (x : Option Port) (rest : List Ejected) (f n va a : Nat) (tf : TFlow) (e : XlEntry),
      (s.Arrives p x rest ∧ s.Knows p f tf) ∧ s.Requests p ∧ s.Next p tf ∧ (Pkt.opc p = 1 ∧ Pkt.moff p = 0 ∧ n =
      Pkt.mlen p ∧ 1 ≤ n ∧ n ≤ 4096) ∧ (va = Pkt.addr p ∧ va % 4096 + n ≤ 4096) ∧ s.keyCheck tf.dctx (Pkt.key p) va n
      61 = 0 ∧ (fld (s.hbmWord (s.keyAddr tf.dctx (Pkt.key p))) 47 36 = 0xFFF ∧ bit (s.hbmWord (s.keyAddr tf.dctx
      (Pkt.key p))) 59 = false) ∧ (s.Hits (s.ctxStall tf.dctx) tf.dctx va 1 e ∧ e.hbm = true ∧ a = e.out + (va -
      e.va))) ∧
    (∃ (s : State) (p : Pkt) (x : Option Port) (rest : List Ejected) (f n a old : Nat) (tf : TFlow) (e : XlEntry),
      (s.Arrives p x rest ∧ s.Knows p f tf) ∧ s.Requests p ∧ s.Next p tf ∧ (Pkt.opc p = 4 ∧ atomBad (Pkt.tag p) =
      false ∧ n = atomSize (Pkt.tag p / 16 % 8) ∧ Pkt.addr p % n = 0) ∧ s.keyCheck tf.dctx (Pkt.key p) (Pkt.addr p) n
      (if Pkt.tag p % 16 = 0 then 62 else 60) = 0 ∧ (s.Hits (s.ctxStall tf.dctx) tf.dctx (Pkt.addr p) 2 e ∧ e.hbm =
      true ∧ a = e.out + (Pkt.addr p - e.va)) ∧ old = ofLe (s.hbmRead a n)) ∧
    (∃ (s u : State) (dt f a : Nat) (tf : TFlow), u = s.elapse dt ∧ (u.Calm ∧ u.live (.domain 0) = true) ∧ (tFind u.tfl f
      = some tf ∧ u.domRuns (u.ctxDom tf.dctx) = true ∧ tf.firstUnacked = some a)) ∧
    (∃ (s u : State) (dt f : Nat) (tf : TFlow), u = s.elapse dt ∧ (u.Calm ∧ u.live (.domain 0) = true) ∧ (tFind u.tfl f =
      some tf ∧ u.domRuns (u.ctxDom tf.dctx) = true) ∧ (tf.prog = [] ∧ tf.held = none ∧ tf.sends = [] ∧ tf.issued = []
      ∧ u.mes = [])) :=
  ⟨⟨tgt { tfx with cum := 4294967000 } pPut0, pPut0, none, [], 30, { tfx with cum := 4294967000 }, .rmaCount 0,
   by decide +kernel, ⟨pPut0_sound, by decide +kernel⟩, by decide +kernel, by decide +kernel⟩, ⟨tgt tf0 pPut0, pPut0,
   none, [], 30, tf0, by decide +kernel, ⟨pPut0_sound, by decide +kernel⟩, by decide +kernel, by decide +kernel⟩, ⟨tgt
   { tfx with cum := 80 } pPut0, pPut0, none, [], 30, { tfx with cum := 80 }, .rmaCount 0, by decide +kernel,
   ⟨pPut0_sound, by decide +kernel⟩, by decide +kernel, by decide +kernel, by decide +kernel⟩, ⟨tgt
   { tfx with cum := 80, refused := [77], cause := 4 } pPut0, pPut0, none, [], 30,
   { tfx with cum := 80, refused := [77], cause := 4 }, by decide +kernel, ⟨pPut0_sound, by decide +kernel⟩,
   by decide +kernel, by decide +kernel⟩, ⟨tgt { tfx with cum := 80, atoms := [(77, 6, 0)] } pAtom, pAtom, none, [],
   30, { tfx with cum := 80, atoms := [(77, 6, 0)] }, some (77, 6, 0), by decide +kernel, ⟨pAtom_sound,
   by decide +kernel⟩, by decide +kernel, by decide +kernel⟩, ⟨tgt tfx pFlag, pFlag, none, [], 30, tfx, .rmaCount 0,
   by decide +kernel, ⟨pFlag_sound, by decide +kernel⟩, by decide +kernel, by decide +kernel, by decide +kernel⟩, ⟨tgt
   tfx pPut0, pPut0, none, [], 30, tfx, 3, by decide +kernel, ⟨pPut0_sound, by decide +kernel⟩, by decide +kernel,
   by decide +kernel, by decide +kernel⟩, ⟨key1 kw (tgt tfx pPut), pPut, none, [], 30, 3, 0x8010, hbmBase + 0x3010,
   tfx, xle, by decide +kernel, ⟨pPut_sound, by decide +kernel⟩, by decide +kernel, by decide +kernel,
   by decide +kernel, by decide +kernel, by decide +kernel, by decide +kernel⟩, ⟨key1 kw (tgt tfx pAtom), pAtom, none,
   [], 30, 8, hbmBase + 0x3010, 0, tfx, xle, by decide +kernel, ⟨pAtom_sound, by decide +kernel⟩, by decide +kernel,
   by decide +kernel, by decide +kernel, by decide +kernel, by decide +kernel⟩, ⟨tgt
   { tfx with firstUnacked := some 4799000, ctrl := rctl } pAck, (tgt
   { tfx with firstUnacked := some 4799000, ctrl := rctl } pAck).elapse 8000, 8000, 30, 4799000,
   { tfx with firstUnacked := some 4799000, ctrl := rctl }, rfl, by decide +kernel⟩, ⟨tgt { tfx with ctrl := rctl }
   pAck, (tgt { tfx with ctrl := rctl } pAck).elapse 16000000001, 16000000001, 30, { tfx with ctrl := rctl }, rfl,
   by decide +kernel⟩⟩

/-- Each case of FlowsOpenAndSend is met by some state. -/
theorem test_met_FlowsOpenAndSend :
    (∃ (s : State) (f : Nat) (x : IFlow) (i : SendItem) (rest : List SendItem) (p : Pkt), (s.Calm ∧ s.live (.domain 0) =
      true) ∧ (tFind s.ifl f = some x ∧ s.domRuns (s.ctxDom x.ctx) = true) ∧ x.queue = i :: rest ∧ x.opened = false ∧
      p = s.stamp (buildPkt x.peerFa (s.ctxFa x.ctx) i.tc 1 false i.adapt (flowHash (s.ctxFa x.ctx) x.peerFa x.ctx
      x.peerCtx) [(383, 376, 0x18), (373, 373, 1), (371, 350, x.ctx), (349, 328, x.peerCtx), (327, 296, x.start),
      (207, 144, 2 ^ 56)] [])) ∧
    (∃ (s : State) (f op : Nat) (x : IFlow) (i : SendItem) (rest : List SendItem) (o : Op) (bs : List Byte) (p : Pkt),
      (s.Calm ∧ s.live (.domain 0) = true) ∧ (tFind s.ifl f = some x ∧ s.domRuns (s.ctxDom x.ctx) = true) ∧ (x.queue =
      i :: rest ∧ x.opened = true ∧ x.est = true ∧ x.outst = []) ∧ (i.opc = 1 ∧ i.payload = [] ∧ i.ordered = false ∧
      i.data = some bs ∧ i.moff + bs.length = i.mlen ∧ bs.length ≤ 4096) ∧ (i.op = some op ∧ tFind s.ops op = some o ∧
      o.aux = 0) ∧ p = s.nextPkt x i true true true i.mlen i.addr bs) ∧
    (∃ (s : State) (f op n : Nat) (x : IFlow) (i : SendItem) (rest : List SendItem) (o : Op) (p : Pkt), (s.Calm ∧ s.live
      (.domain 0) = true) ∧ (tFind s.ifl f = some x ∧ s.domRuns (s.ctxDom x.ctx) = true) ∧ (x.queue = i :: rest ∧
      x.opened = true ∧ x.est = true ∧ x.outst = []) ∧ (i.opc = 2 ∧ n = min 65536 (i.mlen - i.moff) ∧ n < x.cwnd) ∧
      (i.op = some op ∧ tFind s.ops op = some o ∧ o.aux = 0) ∧ p = s.nextPkt x i false false i.ordered n (i.addr +
      i.moff) []) ∧
    (∃ (s : State) (f : Nat) (x : IFlow) (i : SendItem) (rest : List SendItem), (s.Calm ∧ s.live (.domain 0) = true) ∧
      (tFind s.ifl f = some x ∧ s.domRuns (s.ctxDom x.ctx) = true) ∧ (x.queue = i :: rest ∧ x.opened = true) ∧ (x.est
      = false ∨ (x.outst ≠ [] ∧ 0 < x.inFlight ∧ x.cwnd < x.inFlight + i.weight) ∨ 255 < x.ahead ∨ (i.opc = 4 ∧ 16 ≤
      (x.outst.filter (fun o => o.opc = 4)).length))) ∧
    (∃ (s u : State) (dt f : Nat) (x : IFlow), u = s.elapse dt ∧ (u.Calm ∧ u.live (.domain 0) = true) ∧ (tFind u.ifl f =
      some x ∧ u.domRuns (u.ctxDom x.ctx) = true) ∧ (x.outst = [] ∧ x.queue = []) ∧ u.rf (.flowPool (domOf (u.ctxDom
      x.ctx))) 63 40 < 2 ^ 24 - 1) :=
  ⟨⟨fls { flo [] with queue := [itm 1], opened := false, est := false } [] (opd 1 []), 30,
   { flo [] with queue := [itm 1], opened := false, est := false }, itm 1, [], (fls
   { flo [] with queue := [itm 1], opened := false, est := false } [] (opd 1 [])).stamp (buildPkt 0x1234 ((fls
   { flo [] with queue := [itm 1], opened := false, est := false } [] (opd 1 [])).ctxFa 9) 3 1 false true (flowHash
   ((fls { flo [] with queue := [itm 1], opened := false, est := false } [] (opd 1 [])).ctxFa 9) 0x1234 9 5) [(383,
   376, 0x18), (373, 373, 1), (371, 350, 9), (349, 328, 5), (327, 296, 3), (207, 144, 2 ^ 56)] []), by decide +kernel,
   by decide +kernel, by decide +kernel, by decide +kernel, rfl⟩, ⟨fls
   { flo [] with queue := [{ itm 1 with data := some [1, 2, 3] }] } [] (opd 1 []), 30, 20,
   { flo [] with queue := [{ itm 1 with data := some [1, 2, 3] }] }, { itm 1 with data := some [1, 2, 3] }, [], opd 1
   [], [1, 2, 3], (fls { flo [] with queue := [{ itm 1 with data := some [1, 2, 3] }] } [] (opd 1 [])).nextPkt
   { flo [] with queue := [{ itm 1 with data := some [1, 2, 3] }] } { itm 1 with data := some [1, 2, 3] } true true
   true 3 0x7000 [1, 2, 3], by decide +kernel, by decide +kernel, by decide +kernel, by decide +kernel,
   by decide +kernel, rfl⟩, ⟨fls { flo [] with queue := [{ itm 2 with mlen := 70000, moff := 65536 }] } [] (opd 2 []),
   30, 20, 4464, { flo [] with queue := [{ itm 2 with mlen := 70000, moff := 65536 }] },
   { itm 2 with mlen := 70000, moff := 65536 }, [], opd 2 [], (fls
   { flo [] with queue := [{ itm 2 with mlen := 70000, moff := 65536 }] } [] (opd 2 [])).nextPkt
   { flo [] with queue := [{ itm 2 with mlen := 70000, moff := 65536 }] } { itm 2 with mlen := 70000, moff := 65536 }
   false false false 4464 0x17000 [], by decide +kernel, by decide +kernel, by decide +kernel, by decide +kernel,
   by decide +kernel, rfl⟩, ⟨fls { flo (List.replicate 16 { od 12 4 with bytes := 64 }) with queue := [itm 4] } []
   (opd 4 []), 30, { flo (List.replicate 16 { od 12 4 with bytes := 64 }) with queue := [itm 4] }, itm 4, [],
   by decide +kernel⟩, ⟨fls (flo []) [] (opd 1 []), (fls (flo []) [] (opd 1 [])).elapse 8000000000, 8000000000, 30,
   flo [], rfl, by decide +kernel⟩⟩

/-- Each case of AnswersResolveWhatWasSent is met by some state. -/
theorem test_met_AnswersResolveWhatWasSent :
    (∃ (s : State) (f op raw v b : Nat) (x : IFlow) (p : Pkt) (l r : List Pkt) (q : Outst) (o : Op) (c : Cq), s.Answers 8
      p l r f x ∧ (x.outst = [q] ∧ x.queue = [] ∧ q.op = some op ∧ q.opc = 1 ∧ q.acked = false ∧ q.psn ≠ x.start) ∧
      Pkt.psn p = q.psn ∧ (raw = dist 16 (s.nt.toNat / 16 % 65536) (Pkt.tsl p) ∧ Pkt.mlen p ≤ raw ∧ v = raw - Pkt.mlen
      p ∧ b = q.bytes) ∧ (s.Plain op o c ∧ o.performed = true ∧ o.left = 0 ∧ o.aux = 0 ∧ o.status = 0 ∧ o.detail = 0 ∧
      o.result = 0 ∧ hdrOp (o.w 0) = 1 ∧ cmdCt o.words = 0xFFF)) ∧
    (∃ (s : State) (f : Nat) (x : IFlow) (p : Pkt) (l r : List Pkt) (a b : Outst), s.Answers 8 p l r f x ∧ (x.outst = [a,
      b] ∧ a.opc = 1 ∧ a.acked = false ∧ b.opc = 1 ∧ b.op = none ∧ b.me = none ∧ x.est = true) ∧ (a.psn < 2 ^ 32 ∧
      Pkt.psn p = (a.psn + 2 ^ 32 - 1) % 2 ^ 32 ∧ b.psn = (a.psn + 1) % 2 ^ 32 ∧ Pkt.addr p = 2)) ∧
    (∃ (s : State) (f : Nat) (x : IFlow) (p : Pkt) (l r : List Pkt) (q : Outst), s.Answers 8 p l r f x ∧ (x.outst = [q] ∧
      x.est = false ∧ q.opc = 0x18 ∧ q.psn = x.start) ∧ Pkt.psn p = x.start) ∧
    (∃ (s : State) (f : Nat) (x : IFlow) (p : Pkt) (l r : List Pkt) (q : Outst) (os : List Outst), s.Answers 8 p l r f x ∧
      x.outst = q :: os ∧ 2 ^ 31 ≤ dist 32 ((Pkt.psn p + 1) % 2 ^ 32) q.psn) ∧
    (∃ (s : State) (f op cause : Nat) (x : IFlow) (p : Pkt) (l r : List Pkt) (q : Outst) (o : Op) (c : Cq), s.Answers 9 p
      l r f x ∧ (x.outst = [q] ∧ x.queue = [] ∧ q.op = some op ∧ q.me = none ∧ x.est = true) ∧ (Pkt.psn p = q.psn ∧
      cause = Pkt.key p / 2 ^ 24) ∧ (1 ≤ cause ∧ cause ≤ 9 ∨ cause = 0x10) ∧ (s.Plain op o c ∧ o.performed = true ∧
      o.left = 0 ∧ o.aux = 0 ∧ o.status = 0 ∧ o.result = 0 ∧ cmdCt o.words = 0xFFF ∧ hdrOp (o.w 0) = 1)) ∧
    (∃ (s : State) (f cause : Nat) (x : IFlow) (p : Pkt) (l r : List Pkt) (q : Outst), s.Answers 9 p l r f x ∧ (x.outst =
      [q] ∧ q.gap = false) ∧ (Pkt.psn p = q.psn ∧ cause = Pkt.key p / 2 ^ 24) ∧ (cause = 0x11 ∨ cause = 0x12)) ∧
    (∃ (s : State) (f op cause : Nat) (x : IFlow) (p : Pkt) (l r : List Pkt) (q : Outst) (o : Op) (c : Cq) (i : SendItem),
      s.Answers 9 p l r f x ∧ (x.outst = [q] ∧ x.queue = [i] ∧ q.op = none ∧ q.me = none ∧ i.op = some op ∧ i.me =
      none ∧ x.est = false ∧ q.psn = x.start) ∧ (Pkt.psn p = x.start ∧ cause = Pkt.key p / 2 ^ 24) ∧ (1 ≤ cause ∧
      cause ≤ 9) ∧ (s.Plain op o c ∧ o.performed = true ∧ o.left = 0 ∧ o.aux = 0 ∧ o.status = 0 ∧ o.result = 0 ∧ cmdCt
      o.words = 0xFFF ∧ hdrOp (o.w 0) = 1)) ∧
    (∃ (s : State) (f op a : Nat) (x : IFlow) (p : Pkt) (l r : List Pkt) (q : Outst) (o : Op) (c : Cq) (e : XlEntry),
      s.Answers 3 p l r f x ∧ (x.outst = [q] ∧ x.queue = [] ∧ q.op = some op ∧ q.opc = 2 ∧ q.pieces = [] ∧ q.psn =
      Pkt.psn p ∧ (x.est = true ∨ q.psn ≠ x.start)) ∧ (Pkt.moff p = q.moff ∧ 0 < q.len ∧ q.len ≤ 4096 ∧ q.local_ %
      4096 + q.len ≤ 4096) ∧ (s.Hits (s.ctxStall x.ctx) x.ctx q.local_ 1 e ∧ e.hbm = true ∧ a = e.out + (q.local_ -
      e.va)) ∧ (s.Plain op o c ∧ o.performed = true ∧ o.left = 0 ∧ o.aux = 0 ∧ o.status = 0 ∧ o.detail = 0 ∧ o.result
      = 0 ∧ cmdCt o.words = 0xFFF ∧ hdrOp (o.w 0) = 2)) ∧
    (∃ (s : State) (f : Nat) (x : IFlow) (p : Pkt) (l r : List Pkt), s.Answers 3 p l r f x ∧ x.outst.all (fun q => q.psn ≠
      Pkt.psn p || q.opc ≠ 2) = true) ∧
    (∃ (s : State) (f op n a : Nat) (x : IFlow) (p : Pkt) (l r : List Pkt) (q : Outst) (o : Op) (c : Cq) (e : XlEntry),
      s.Answers 5 p l r f x ∧ (x.outst = [q] ∧ x.queue = [] ∧ q.op = some op ∧ q.opc = 4 ∧ q.psn = Pkt.psn p ∧ (x.est
      = true ∨ q.psn ≠ x.start)) ∧ ((o.w 2).toNat ≠ 0 ∧ n = atomSize (fld (o.w 3) 23 20) ∧ (o.w 2).toNat % 4096 + n ≤
      4096) ∧ (s.Hits o.stall o.ctx (o.w 2).toNat 1 e ∧ e.hbm = true ∧ a = e.out + ((o.w 2).toNat - e.va)) ∧ (s.Plain
      op o c ∧ o.performed = true ∧ o.left = 0 ∧ o.aux = 0 ∧ o.status = 0 ∧ o.detail = 0 ∧ o.result = 0 ∧ cmdCt
      o.words = 0xFFF ∧ hdrOp (o.w 0) = 4)) :=
  ⟨⟨fls (flo [od 12 1]) [apk 8 12 12 100 [(47, 32, 0xC000)] []] (opd 1 [ct 0xFFF]), 30, 20, 1728, 1628, 4096, flo [od 12
   1], apk 8 12 12 100 [(47, 32, 0xC000)] [], [], [], od 12 1, opd 1 [ct 0xFFF], cqo, by decide +kernel⟩, ⟨fls (flo
   [od 12 1, { od 13 1 with op := none }]) [apk 8 11 13 0 [(111, 48, 2)] []] (opd 1 [ct 0xFFF]), 30, flo [od 12 1,
   { od 13 1 with op := none }], apk 8 11 13 0 [(111, 48, 2)] [], [], [], od 12 1, { od 13 1 with op := none },
   by decide +kernel⟩, ⟨fls { flo [od 3 0x18] with est := false, queue := [itm 1] } [apk 8 3 3 0 [] []] (opd 1 [ct
   0xFFF]), 30, { flo [od 3 0x18] with est := false, queue := [itm 1] }, apk 8 3 3 0 [] [], [], [], od 3 0x18,
   by decide +kernel⟩, ⟨fls (flo [od 12 1]) [apk 3 9 9 0 [] [], apk 8 9 9 0 [] []] (opd 1 [ct 0xFFF]), 30, flo [od 12
   1], apk 8 9 9 0 [] [], [apk 3 9 9 0 [] []], [], od 12 1, [], by decide +kernel⟩, ⟨fls (flo [od 12 1]) [apk 9 12 11
   0 [(143, 136, 4)] []] (opd 1 [ct 0xFFF]), 30, 20, 4, flo [od 12 1], apk 9 12 11 0 [(143, 136, 4)] [], [], [], od 12
   1, opd 1 [ct 0xFFF], cqo, by decide +kernel⟩, ⟨fls (flo [od 12 1]) [apk 9 12 11 0 [(143, 136, 0x12)] []] (opd 1 [ct
   0xFFF]), 30, 0x12, flo [od 12 1], apk 9 12 11 0 [(143, 136, 0x12)] [], [], [], od 12 1, by decide +kernel⟩, ⟨fls
   { flo [{ od 3 0x18 with op := none }] with est := false, queue := [itm 1] } [apk 9 3 0 0 [(143, 136, 2)] []] (opd 1
   [ct 0xFFF]), 30, 20, 2, { flo [{ od 3 0x18 with op := none }] with est := false, queue := [itm 1] }, apk 9 3 0 0
   [(143, 136, 2)] [], [], [], { od 3 0x18 with op := none }, opd 1 [ct 0xFFF], cqo, itm 1, by decide +kernel⟩,
   ⟨{ fls (flo [{ od 12 2 with len := 3, local_ := 0x8010 }]) [apk 3 12 0 3 [] [7, 8, 9]] (opd 2 [ct 0xFFF]) with shares := [(10, (0, 1))], xl := [(0, [xle])], ctxs := [(9, { ctx1 with words := modAt ctx1.words 5 (fun _ => 1) })] },
   30, 20, hbmBase + 0x3010, flo [{ od 12 2 with len := 3, local_ := 0x8010 }], apk 3 12 0 3 [] [7, 8, 9], [], [],
   { od 12 2 with len := 3, local_ := 0x8010 }, opd 2 [ct 0xFFF], cqo, xle, by decide +kernel⟩, ⟨fls (flo [od 12 1])
   [apk 3 12 0 3 [] [7, 8, 9]] (opd 2 [ct 0xFFF]), 30, flo [od 12 1], apk 3 12 0 3 [] [7, 8, 9], [], [],
   by decide +kernel⟩,
   ⟨{ fls (flo [od 12 4]) [apk 5 12 0 0 [(207, 144, 0x77)] []] (opd 4 [ct 0xFFF, 0x8010, mkWord 64 [(23, 20, 3)]]) with shares := [(10, (0, 1))], xl := [(3, [xle])], ctxs := [(9, { ctx1 with words := modAt ctx1.words 5 (fun _ => 1) })] },
   30, 20, 8, hbmBase + 0x3010, flo [od 12 4], apk 5 12 0 0 [(207, 144, 0x77)] [], [], [], od 12 4, opd 4 [ct 0xFFF,
   0x8010, mkWord 64 [(23, 20, 3)]], cqo, xle, by decide +kernel⟩⟩

/-- Each case of UnansweredPacketsAreSentAgain is met by some state. -/
theorem test_met_UnansweredPacketsAreSentAgain :
    (∃ (s u : State) (dt f : Nat) (psn : BitVec 32) (x : IFlow) (o : Outst) (fl : Flit) (fs : Pkt), u = s.elapse dt ∧
      (u.Calm ∧ u.live (.domain 0) = true) ∧ (tFind u.ifl f = some x ∧ u.domRuns (u.ctxDom x.ctx) = true) ∧
      (x.outst.find? (fun q => q.psn = psn.toNat) = some o ∧ o.pkt = fl :: fs) ∧ (1 ≤ o.sends ∧ o.sends ≤ fld x.ctrl
      63 60) ∧ o.lastTx + 16000 * min (fld x.ctrl 27 18 * 2 ^ (o.sends - 1)) 1000 < u.clk) ∧
    (∃ (s u : State) (dt f : Nat) (psn : BitVec 32) (x : IFlow) (o : Outst), u = s.elapse dt ∧ (u.Calm ∧ u.live (.domain
      0) = true) ∧ tFind u.ifl f = some x ∧ (x.outst.find? (fun q => q.psn = psn.toNat) = some o ∧ 1 ≤ o.sends) ∧
      u.clk ≤ o.lastTx + 16000 * min (fld x.ctrl 27 18 * 2 ^ (o.sends - 1)) 1000) ∧
    (∃ (s u : State) (dt f op : Nat) (psn : BitVec 32) (x : IFlow) (q : Outst) (o : Op) (c : Cq), u = s.elapse dt ∧
      (u.Calm ∧ u.live (.domain 0) = true) ∧ (u.ifl = [(f, x)] ∧ u.domRuns (u.ctxDom x.ctx) = true) ∧ (x.outst = [q] ∧
      x.queue = [] ∧ q.psn = psn.toNat ∧ q.op = some op ∧ q.me = none) ∧ (1 ≤ q.sends ∧ fld x.ctrl 63 60 < q.sends) ∧
      q.lastTx + 16000 * min (fld x.ctrl 27 18 * 2 ^ (q.sends - 1)) 1000 < u.clk ∧ (u.Plain op o c ∧ o.performed =
      true ∧ o.result = 0 ∧ cmdCt o.words = 0xFFF ∧ hdrOp (o.w 0) = 1) ∧ (fld (u.ctxWord x.ctx 2) 61 61 = 1 ∧ tFind
      u.eqs (fld (u.ctxWord x.ctx 2) 52 35) = none)) ∧
    (∃ (s u : State) (dt f d : Nat) (psn : BitVec 32) (x : IFlow) (o : Outst) (fl : Flit) (fs : Pkt), u = s.elapse dt ∧
      (u.Calm ∧ u.live (.domain 0) = true) ∧ (tFind u.ifl f = some x ∧ u.domRuns (u.ctxDom x.ctx) = true) ∧
      (x.outst.find? (fun q => q.psn = psn.toNat) = some o ∧ o.pkt = fl :: fs) ∧ o.sends ≤ fld x.ctrl 63 60 ∧ d = 16 *
      (x.baseRtt.getD 0 + fld x.ctrl 41 28) ∧ ((o.gap = true ∧ o.lastTx + d ≤ u.clk) ∨ (o.nackAt.isSome = true ∧
      o.nackAt.getD 0 + d ≤ u.clk))) ∧
    (∃ (s u : State) (dt f : Nat) (psn : BitVec 32) (x : IFlow) (o : Outst), u = s.elapse dt ∧ (u.Calm ∧ u.live (.domain
      0) = true) ∧ tFind u.ifl f = some x ∧ x.outst.find? (fun q => q.psn = psn.toNat) = some o ∧ ((o.gap = false ∨
      u.clk < o.lastTx + 16 * (x.baseRtt.getD 0 + fld x.ctrl 41 28)) ∧ o.nackAt = none)) :=
  ⟨⟨fls (flo [odp 1]) [] (opd 1 []), (fls (flo [odp 1]) [] (opd 1 [])).elapse 256320, 256320, 30, 12, flo [odp 1], odp 1,
   ⟨mkWord 512 [(458, 458, 1), (383, 376, 1), (327, 296, 12)], false⟩, [], rfl, by decide +kernel⟩,
   ⟨{ fls (flo [odp 1]) [] (opd 1 []) with clk := 400 }, { fls (flo [odp 1]) [] (opd 1 []) with clk := 400 }.elapse
   16, 16, 30, 12, flo [odp 1], odp 1, rfl, by decide +kernel⟩,
   ⟨{ fls (flo [odp 9]) [] (opd 1 [ct 0xFFF]) with clk := 32000000, ctxs := [(9, { ctx1 with words := modAt ctx1.words 2 (fun w => setBit w 61 true) })] },
   { fls (flo [odp 9]) [] (opd 1 [ct 0xFFF]) with clk := 32000000, ctxs := [(9, { ctx1 with words := modAt ctx1.words 2 (fun w => setBit w 61 true) })] }.elapse
   16, 16, 30, 20, 12, flo [odp 9], odp 9, opd 1 [ct 0xFFF], cqo, rfl, by decide +kernel⟩, ⟨fls (flo
   [{ odp 1 with gap := true }]) [] (opd 1 []), (fls (flo [{ odp 1 with gap := true }]) [] (opd 1 [])).elapse 16, 16,
   30, 16000, 12, flo [{ odp 1 with gap := true }], { odp 1 with gap := true }, ⟨mkWord 512 [(458, 458, 1), (383, 376,
   1), (327, 296, 12)], false⟩, [], rfl, by decide +kernel⟩, ⟨fls (flo [odp 1]) [] (opd 1 []), (fls (flo [odp 1]) []
   (opd 1 [])).elapse 16, 16, 30, 12, flo [odp 1], odp 1, rfl, by decide +kernel⟩⟩

/-- Each case of MailboxIsClaimedAndAnswers is met by some state. -/
theorem test_met_MailboxIsClaimedAndAnswers :
    (∃ (s : State) (m : Master), s.Calm ∧ (s.agentLive m = true ∧ m ≠ .warden ∧ s.masterMay m 0x101000 = true ∧ s.live
      .global = true) ∧ s.mbox.holder = none) ∧
    (∃ (s : State) (m x : Master), s.Calm ∧ (s.agentLive m = true ∧ s.masterMay m 0x101000 = true ∧ s.live .global = true)
      ∧ s.mbox.holder = some x) ∧
    (∃ (s : State) (m : Master), s.Calm ∧ (s.agentLive m = true ∧ s.masterMay m 0x101000 = true ∧ s.live .global = true) ∧
      (s.mbox.holder = some m ∧ s.mbox.urgent = none)) ∧
    (∃ (s u : State) (dt : Nat), u = s.elapse dt ∧ (u.live .global = true ∧ u.mbox.holder.isSome = true ∧ u.mbox.urgent =
      none ∧ u.mbox.run = none)) ∧
    (∃ (s : State) (c : MbCmd), s.Commanded 0x01 c ∧ s.mode ≤ 2) ∧
    (∃ (s : State) (c : MbCmd), s.Commanded 0x02 c ∧ (s.mode = 1 ∨ s.mode = 2)) ∧
    (∃ (s : State) (c : MbCmd), s.Commanded 0x03 c ∧ s.mode ≤ 2) ∧
    (∃ (s : State) (c : MbCmd), s.Commanded 0x04 c ∧ s.mode ≤ 2) ∧
    (∃ (s : State) (c : MbCmd), s.Commanded 0x02 c ∧ (s.mode ≠ 1 ∧ s.mode ≠ 2)) ∧
    (∃ (s u : State) (dt at_ : Nat) (n : BitVec 512), u = s.elapse dt ∧ u.live .tack = true ∧ u.tack.nonce = some (n,
      at_)) :=
  ⟨⟨{ mb0 with mbox := {} }, m1, by decide +kernel⟩, ⟨{ mb0 with mbox := { holder := some (.steward 1) } }, m1, .steward
   1, by decide +kernel⟩,
   ⟨{ mb0.setReg .mbStatus 5 |>.setReg (.mbArg 0) 7 with buf := [(0x10FFFF, 1), (0x110000, 2)] }, m1,
   by decide +kernel⟩, ⟨mb0.setReg .mbStatus 5, (mb0.setReg .mbStatus 5).elapse 160000000, 160000000, rfl,
   by decide +kernel⟩, ⟨mbr (mcd 1 [] []), mcd 1 [] [], by decide +kernel⟩, ⟨mbr (mcd 2 [] []), mcd 2 [] [],
   by decide +kernel⟩, ⟨mbr (mcd 3 [] [(0, 7), (63, 8)]), mcd 3 [] [(0, 7), (63, 8)], by decide +kernel⟩, ⟨mbr (mcd 4
   [] []), mcd 4 [] [], by decide +kernel⟩, ⟨(mbr (mcd 2 [] [])).setMode 0, mcd 2 [] [], by decide +kernel⟩,
   ⟨{ mb0 with tack := { mb0.tack with nonce := some (7, 50) } },
   { mb0 with tack := { mb0.tack with nonce := some (7, 50) } }.elapse 960000000000, 960000000000, 50, 7, rfl,
   by decide +kernel⟩⟩

/-- Each case of MailboxControlsPowerAndDomains is met by some state. -/
theorem test_met_MailboxControlsPowerAndDomains :
    (∃ (s : State) (c : MbCmd), s.Commanded 0x30 c ∧ (s.mode = 1 ∨ s.mode = 2)) ∧
    (∃ (s : State) (c : MbCmd), s.Commanded 0x31 c ∧ (s.mode = 1 ∨ s.mode = 2)) ∧
    (∃ (s : State) (c : MbCmd), s.Commanded 0x32 c ∧ (s.mode = 1 ∨ s.mode = 2)) ∧
    (∃ (s : State) (c : MbCmd), s.Calm ∧ s.Commanded 0x20 c ∧ (s.mode ≤ 2 ∧ s.tack.starting = false)) ∧
    (∃ (s : State) (c : MbCmd), s.Calm ∧ s.Commanded 0x21 c ∧ ((s.mode = 1 ∧ s.flash.failCount < 3) ∨ (s.mode = 2 ∧
      (s.flash.failCount < 3 ∨ s.flash.oneStart = true ∨ s.flash.reason / 256 = 1)))) ∧
    (∃ (s : State) (c : MbCmd), s.Calm ∧ s.Commanded 0x21 c ∧ (3 ≤ s.flash.failCount ∧ (s.mode = 1 ∨ (s.mode = 2 ∧
      s.flash.oneStart = false ∧ s.flash.reason / 256 ≠ 1)))) ∧
    (∃ (s : State) (c : MbCmd), s.Calm ∧ s.Commanded 0x20 c ∧ (s.mode ≤ 2 ∧ s.tack.starting = true)) ∧
    (∃ (s : State) (c : MbCmd) (d : Dom), s.Calm ∧ s.Commanded 0x22 c ∧ (s.mode = 1 ∧ c.arg 0 = BitVec.ofNat 64 d.val ∧
      s.domRuns d.val = true ∧ s.insts = [] ∧ s.invals = [])) ∧
    (∃ (s : State) (c : MbCmd), s.Calm ∧ s.Commanded 0x22 c ∧ (s.mode = 1 ∧ 1 < (c.arg 0).toNat)) ∧
    (∃ (s : State) (c : MbCmd) (d : Dom), s.Calm ∧ s.Commanded 0x23 c ∧ (s.mode = 1 ∧ c.arg 0 = BitVec.ofNat 64 d.val)) :=
  ⟨⟨mbr (mcd 0x30 [1600] []), mcd 0x30 [1600] [], by decide +kernel⟩, ⟨mbr (mcd 0x31 [200] []), mcd 0x31 [200] [],
   by decide +kernel⟩, ⟨mbr (mcd 0x32 [106] []), mcd 0x32 [106] [], by decide +kernel⟩, ⟨mbr (mcd 0x20 [] []), mcd
   0x20 [] [], by decide +kernel⟩, ⟨inMode 0x21 2 id (fun f => { f with failCount := 3, oneStart := true }), mcd 0x21
   [] [], by decide +kernel⟩, ⟨inMode 0x21 2 id (fun f => { f with failCount := 3 }), mcd 0x21 [] [],
   by decide +kernel⟩, ⟨inMode 0x20 0 (fun x => { x with starting := true, before := 1 }) (fun f =>
   { f with failCount := 2, inProgress := true }), mcd 0x20 [] [], by decide +kernel⟩, ⟨mbr (mcd 0x22 [1] []), mcd
   0x22 [1] [], 1, by decide +kernel⟩, ⟨mbr (mcd 0x22 [2] []), mcd 0x22 [2] [], by decide +kernel⟩, ⟨(mbr (mcd 0x23
   [1] [])).wf (.csStatus 1) 63 62 1, mcd 0x23 [1] [], 1, by decide +kernel⟩⟩

/-- Each case of OwnersSignTheirCommands is met by some state. -/
theorem test_met_OwnersSignTheirCommands :
    (∃ (s : State) (c : MbCmd), s.Commanded 0x40 c ∧ (s.mode = 1 ∨ s.mode = 2) ∧ s.signedCheck c 0 = 0) ∧
    (∃ (s : State) (c : MbCmd) (n : Nat), s.Commanded 0x41 c ∧ (s.mode = 1 ∨ s.mode = 2) ∧ s.signedCheck c 1 = 0 ∧ (n =
      (memByte c.buf 80).toNat ∧ n ≤ 1)) ∧
    (∃ (s : State) (c : MbCmd) (n : Nat), s.Commanded 0x43 c ∧ (s.mode = 1 ∨ s.mode = 2) ∧ s.signedCheck c 1 = 0 ∧ (n =
      (memByte c.buf 80).toNat ∧ n ≤ 1 ∧ (memByte c.buf 260).toNat = 1 - n)) ∧
    (∃ (s : State) (c : MbCmd) (e : Nat), s.Commanded 0x40 c ∧ (s.mode = 1 ∨ s.mode = 2) ∧ (s.signedCheck c 0 = e ∧ e ≠
      0)) ∧
    (∃ (s : State) (c : MbCmd) (e : Nat), s.Commanded 0x43 c ∧ (s.mode = 1 ∨ s.mode = 2) ∧ (s.signedCheck c 1 = e ∧ e ≠
      0)) ∧
    (∃ (s : State) (c : MbCmd) (bs : List Byte) (n : Nat), s.Commanded 0x42 c ∧ (s.mode = 1 ∨ s.mode = 2) ∧ bs = memRead
      c.buf 0 272 ∧ (n = ownerSlot bs ∧ n ≤ 1)) :=
  ⟨⟨sg (mcd 0x40 [] (cells b_sc40)) [], mcd 0x40 [] (cells b_sc40), by decide +kernel, by decide +kernel, sc40_ok⟩, ⟨sg
   (mcd 0x41 [] (cells b_sc41)) [], mcd 0x41 [] (cells b_sc41), 1, by decide +kernel, by decide +kernel, sc41_ok,
   by decide +kernel⟩, ⟨sg (mcd 0x43 [] (cells b_sc43)) [], mcd 0x43 [] (cells b_sc43), 0, by decide +kernel,
   by decide +kernel, sc43_ok, by decide +kernel⟩, ⟨sg (mcd 0x40 [] []) [], mcd 0x40 [] [], 2, by decide +kernel⟩, ⟨sg
   (mcd 0x43 [] []) [], mcd 0x43 [] [], 2, by decide +kernel⟩,
   ⟨{ sg (mcd 0x42 [] (cells b_blk0)) [] with fuses := { vendorRoot := (0x7e6b30057e16b97715d59ed5c1f9e5cd93efbb454aa0a876e3b8d5aa122a27f70dafcfc0d0f734c4b7cd9e6e0b5e43b2b8ea9bb0957991ab50b89347d544a7ceb5, 0x1dbea5982e59fee8fda6cc7689fd237af1b368cce3bb3e874aef120f33b8922998a07266d271e23458a1646a9f6d52961b7d8d3aaee4e9276a445573560a9b65b32) } },
   mcd 0x42 [] (cells b_blk0), b_blk0, 0, by decide +kernel, by decide +kernel, blk0_read, by decide +kernel⟩⟩

/-- Each case of CoatsAreStagedAndTaken is met by some state. -/
theorem test_met_CoatsAreStagedAndTaken :
    (∃ (s : State) (c : MbCmd), s.CoatCommand 0x10 c ∧ (c.arg 0).toNat ≤ 0x10000000) ∧
    (∃ (s : State) (c : MbCmd), s.CoatCommand 0x11 c ∧ ((c.arg 1).toNat % 8 = 0 ∧ (c.arg 1).toNat ≤ 65536 ∧ (c.arg
      0).toNat + (c.arg 1).toNat ≤ s.flash.stageLen)) ∧
    (∃ (s : State) (c : MbCmd), s.Commanded 0x11 c ∧ ((s.mode = 1 ∨ s.mode = 2) ∧ s.coatBusy = true)) ∧
    (∃ (s : State) (c : MbCmd), s.Commanded 0x10 c ∧ ((s.mode = 1 ∨ s.mode = 2) ∧ s.coatBusy = true)) ∧
    (∃ (s : State) (c : MbCmd), s.Commanded 0x12 c ∧ (s.mode = 1 ∧ s.coatBusy = true ∧ s.tack.coat = none ∧ s.todo = [])) ∧
    (∃ (s : State) (c : MbCmd), s.Commanded 0x13 c ∧ ((s.mode = 1 ∨ s.mode = 2) ∧ s.coatBusy = true ∧ s.tack.coat = none ∧
      s.todo = [])) ∧
    (∃ (s : State) (c : MbCmd), s.CoatCommand 0x11 c ∧ ((c.arg 1).toNat % 8 ≠ 0 ∨ 65536 < (c.arg 1).toNat ∨
      s.flash.stageLen + 8 ≤ (c.arg 0).toNat + (c.arg 1).toNat)) ∧
    (∃ (s : State) (c : MbCmd) (bs : List Byte) (code : Nat), (s.Calm ∧ s.CoatCommand 0x12 c) ∧ bs = s.staged ∧ (codeOf
      ((s.coBegin bs).checkCoat 1 s.flash.stageLen bs) = code ∧ code ≠ 0)) ∧
    (∃ (s : State) (c : MbCmd) (bs : List Byte) (l : List CoatSec) (p : Port) (k : Fin 7) (v : Word) (x : CoatSec),
      (s.Calm ∧ s.CoatCommand 0x12 c) ∧ bs = s.staged ∧ okOf ((s.coBegin bs).checkCoat 1 s.flash.stageLen bs) = some l
      ∧ (l = [x] ∧ x.ty = 5 ∧ cScope bs = 2 ∧ cScopeId bs = p.val ∧ s.portState p ≠ 6) ∧ (x.recs 16 = [[BitVec.ofNat
      64 (Reg.egShape p k).addr, v]] ∧ s.live (.port p) = true)) ∧
    (∃ (s : State) (c : MbCmd) (bs : List Byte) (l : List CoatSec) (p : Port), (s.Calm ∧ s.CoatCommand 0x12 c) ∧ bs =
      s.staged ∧ okOf ((s.coBegin bs).checkCoat 1 s.flash.stageLen bs) = some l ∧ (cScope bs = 2 ∧ cScopeId bs = p.val
      ∧ s.portState p ≠ 6 ∧ s.domRuns (p.val / 32) = true ∧ l.any (fun x => x.ty ≠ 5) = true)) ∧
    (∃ (s : State) (c : MbCmd) (bs : List Byte) (n : Nat), (s.Calm ∧ s.CoatCommand 0x13 c) ∧ bs = s.staged ∧ (okOf
      ((s.coBegin bs).checkCoat 0 s.flash.stageLen bs)).isSome = true ∧ (n = (c.arg 0).toNat ∧ n ≤ 1 ∧ (s.mode = 1 → n
      ≠ s.rf .tkState 47 47))) :=
  ⟨⟨sg (mcd 0x10 [684] []) [7], mcd 0x10 [684] [], by decide +kernel⟩, ⟨sg (mcd 0x11 [8, 16] [(0, 3), (15, 4)]) b_qos,
   mcd 0x11 [8, 16] [(0, 3), (15, 4)], by decide +kernel⟩,
   ⟨{ sg (mcd 0x11 [8, 16] [(0, 3), (15, 4)]) b_qos with restart := [(1, 5)] }, mcd 0x11 [8, 16] [(0, 3), (15, 4)],
   by decide +kernel⟩, ⟨{ sg (mcd 0x10 [684] []) [7] with restart := [(1, 5)] }, mcd 0x10 [684] [],
   by decide +kernel⟩, ⟨{ sg (mcd 0x12 [] []) [7] with restart := [(1, 5)] }, mcd 0x12 [] [], by decide +kernel⟩,
   ⟨{ sg (mcd 0x13 [1] []) [7] with restart := [(1, 5)] }, mcd 0x13 [1] [], by decide +kernel⟩, ⟨sg (mcd 0x11 [8, 4]
   [(0, 3), (15, 4)]) b_qos, mcd 0x11 [8, 4] [(0, 3), (15, 4)], by decide +kernel⟩, ⟨sg (mcd 0x12 [] []) [7], mcd 0x12
   [] [], [7], 1, by decide +kernel⟩, ⟨sg (mcd 0x12 [] []) b_qos, mcd 0x12 [] [], b_qos, (coatSecs b_qos).getD [], 5,
   3, 0x861A010000000000, ((coatSecs b_qos).getD []).headD ⟨0, [], []⟩, by decide +kernel, qos_read,
   by decide +kernel, by decide +kernel, by decide +kernel⟩, ⟨sg (mcd 0x12 [] []) b_rset, mcd 0x12 [] [], b_rset,
   (coatSecs b_rset).getD [], 5, by decide +kernel, rset_read, by decide +kernel, by decide +kernel⟩, ⟨sg (mcd 0x13
   [1] []) b_under, mcd 0x13 [1] [], b_under, 1, by decide +kernel, under_read, by decide +kernel, by decide +kernel⟩⟩

/-- Each case of SmbusReportsAndIdentifies is met by some state. -/
theorem test_met_SmbusReportsAndIdentifies :
    (∃ (s : State) (b : BitVec 7), (s.tack.up = true ∧ b = s.smbAddr)) ∧
    (∃ (s : State) (b : BitVec 7) (nonce : List Byte), (s.tack.up = true ∧ b = s.smbAddr) ∧ nonce.length = 64) ∧
    (∃ (_s : State) (_b : BitVec 7) (nonce : List Byte), nonce.length ≠ 64) ∧
    (∃ (s : State) (b : BitVec 7) (r : List Byte), (s.tack.up = true ∧ b = s.smbAddr) ∧ s.tack.smbReport = some r) ∧
    (∃ (s : State) (b : BitVec 7), (s.tack.up = true ∧ b = s.smbAddr) ∧ s.tack.smbReport = none) ∧
    (∃ (s : State) (b : BitVec 7) (_n : BitVec 8), (s.tack.up = true ∧ b = s.smbAddr)) ∧
    (∃ (s : State) (b : BitVec 7), (s.tack.up = true ∧ b = s.smbAddr)) ∧
    (∃ (s u : State) (dt at_ : Nat), u = s.elapse dt ∧ u.tack.up = true ∧ u.tack.noteAt = some at_) ∧
    (∃ (s : State) (b : BitVec 7), (s.tack.up = false ∨ b ≠ s.smbAddr)) ∧
    (∃ (s : State) (b : BitVec 7) (_nonce : List Byte), (s.tack.up = false ∨ b ≠ s.smbAddr)) ∧
    (∃ (s : State) (b : BitVec 7), (s.tack.up = false ∨ b ≠ s.smbAddr)) ∧
    (∃ (s : State) (b : BitVec 7), (s.tack.up = false ∨ b ≠ s.smbAddr)) ∧
    (∃ (s : State) (b : BitVec 7) (_n : BitVec 8), (s.tack.up = false ∨ b ≠ s.smbAddr)) :=
  ⟨⟨smb none 0, 0x60, by decide +kernel⟩, ⟨smb none 0, 0x60, List.replicate 64 3, by decide +kernel⟩, ⟨smb none 0, 0x60,
   [], by decide +kernel⟩, ⟨smb (some (List.replicate 512 9)) 3, 0x60, List.replicate 512 9, by decide +kernel⟩, ⟨smb
   none 0, 0x60, by decide +kernel⟩, ⟨smb none 0, 0x60, 3, by decide +kernel⟩, ⟨smb none 2, 0x60, by decide +kernel⟩,
   ⟨{ smb none 2 with tack := { up := true, noteAt := some 4 }, pins := { vinAux := true, resetL := true } }.setReg
   (.ftStatus .tack) 3,
   ({ smb none 2 with tack := { up := true, noteAt := some 4 }, pins := { vinAux := true, resetL := true } }.setReg
   (.ftStatus .tack) 3).elapse 16000000004, 16000000004, 4, rfl, by decide +kernel⟩, ⟨smb none 0, 0x61,
   by decide +kernel⟩, ⟨off, 0x60, List.replicate 64 1, by decide +kernel⟩, ⟨smb none 0, 0x61, by decide +kernel⟩,
   ⟨smb none 0, 0x61, by decide +kernel⟩, ⟨smb none 0, 0x62, 3, by decide +kernel⟩⟩

/-- Each case of RegisterAccessesTakeEffect is met by some state. -/
theorem test_met_RegisterAccessesTakeEffect :
    (∃ (s : State) (m : Master) (a v : BitVec 64) (r : Reg), s.Calm ∧ (s.Reaches m a r ∧ plainReg r = true ∧ r.wardenOnly
      = false) ∧ s.Prompt m a.toNat ∧ (r.fieldsOk v = true ∧ s.encOk r v = true)) ∧
    (∃ (s : State) (m : Master) (a v : BitVec 64) (r : Reg), s.Calm ∧ (s.Reaches m a r ∧ plainReg r = true ∧ r.wardenOnly
      = false ∧ s.frozen r.block = false) ∧ s.Prompt m a.toNat ∧ (r.fieldsOk v = false ∨ s.encOk r v = false) ∧ s.rb
      (.ftMask r.block) 0 = true) ∧
    (∃ (s : State) (m : Master) (a _v : BitVec 64) (r : Reg), s.Calm ∧ (s.Reaches m a r ∧ r.wardenOnly = true ∧ m ≠
      .warden) ∧ s.Prompt m a.toNat) ∧
    (∃ (s : State) (m : Master) (a v : BitVec 64) (r : Reg) (c : Nat), s.Calm ∧ (s.Reaches m a r ∧ plainReg r = true ∧
      r.wardenOnly = false) ∧ (r.fieldsOk v = true ∧ s.encOk r v = true) ∧ (s.coreAccs = [] ∧ coreOf m = some c ∧
      s.ewa c a.toNat = true)) ∧
    (∃ (s : State) (m : Master) (a _v : BitVec 64) (i : Fin 4), s.Calm ∧ s.Reaches m a (.mbArg i) ∧ s.Prompt m a.toNat) ∧
    (∃ (s : State) (m : Master) (a v : BitVec 64) (code : Nat), s.Calm ∧ s.Reaches m a .mbCmd ∧ s.Prompt m a.toNat ∧ (code
      < 256 ∧ v = mkWord 64 [(63, 63, 1), (7, 0, code)]) ∧ (s.mbox.holder = some m ∧ s.rb .mbCmd 63 = false ∧
      s.mbox.urgent = none ∧ s.mbox.overtaken = false)) ∧
    (∃ (s : State) (m : Master) (a _v : BitVec 64), s.Calm ∧ (s.agentLive m = true ∧ s.masterMay m a.toNat = false)) ∧
    (∃ (s : State) (m : Master) (a _v : BitVec 64), s.Calm ∧ (s.agentLive m = true ∧ s.masterMay m a.toNat = true ∧
      a.toNat % 8 ≠ 0 ∧ isMemoryAddr a.toNat = false) ∧ s.Prompt m a.toNat) ∧
    (∃ (s : State) (m : Master) (a : BitVec 64) (st : Stall), s.Calm ∧ s.Reaches m a (.rmaCount st) ∧ s.Prompt m a.toNat ∧
      s.captures = []) ∧
    (∃ (s : State) (m : Master) (a : BitVec 64) (p : Port), s.Calm ∧ s.Reaches m a (.egWeight p) ∧ s.Prompt m a.toNat ∧
      s.captures = []) ∧
    (∃ (s : State) (m : Master) (a : BitVec 64) (hi lo : Reg), s.Calm ∧ (s.Reaches m a hi ∧ hi.digestLo = some lo) ∧
      s.Prompt m a.toNat ∧ s.captures = []) ∧
    (∃ (s : State) (m : Master) (a : BitVec 64) (hi lo : Reg) (v : Word), s.Calm ∧ (s.Reaches m a lo ∧ hi.digestLo = some
      lo) ∧ s.Prompt m a.toNat ∧ s.captures = [⟨m, lo.addr, v⟩]) ∧
    (∃ (s u : State) (p : Port) (dt : Nat) (w : Word), u = s.elapse dt ∧ (u.live (.port p) = true ∧ w = u.reg (.pmDump
      (.port p))) ∧ (bit w 63 = false ∨ u.nt.toNat % 16 ≠ 0 ∨ u.ntNs % (1000 * fld w 51 32) ≠ 0)) ∧
    (∃ (s u : State) (p : Port) (dt : Nat) (w : Word), u = s.elapse dt ∧ (u.live (.port p) = true ∧ w = u.reg (.pmDump
      (.port p))) ∧ (bit w 63 = true ∧ u.nt.toNat % 16 = 0 ∧ fld w 51 32 ≠ 0 ∧ u.ntNs % (1000 * fld w 51 32) = 0) ∧
      u.tmValid (fld w 56 56) (fld w 55 52) = false) ∧
    (∃ (s u : State) (p : Port) (dt a n : Nat) (w c : Word) (d : Dom) (i : Fin 16), u = s.elapse dt ∧ (u.live (.port p) =
      true ∧ w = u.reg (.pmDump (.port p))) ∧ (bit w 63 = true ∧ u.nt.toNat % 16 = 0 ∧ fld w 51 32 ≠ 0 ∧ u.ntNs %
      (1000 * fld w 51 32) = 0) ∧ (d.val = fld w 56 56 ∧ i.val = fld w 55 52 ∧ c = u.reg (.tmCtrl d i) ∧ u.tmValid
      d.val i.val = true ∧ bit c 62 = true ∧ fld c 31 0 = 0) ∧ (n = tGet 0 u.tmWrote (16 * d.val + i.val) ∧ bit c (43
      + n / 512 % 2) = true ∧ (n + 1) % 512 ≠ 0) ∧ (a = 65536 * u.rf (.tmBase d i) 63 16 + 64 * (n % 1024) ∧ inHbm a =
      true)) :=
  ⟨⟨ready, .steward 0, rwa (.egShape 5 3), 0x8001000200000000, .egShape 5 3, by decide +kernel⟩, ⟨ready.setReg (.ftMask
   (.port 5)) 1, .steward 0, rwa (.egShape 5 3), 0xC001000200000000, .egShape 5 3, by decide +kernel⟩, ⟨ready,
   .steward 0, rwa .tkPower, 5, .tkPower, by decide +kernel⟩, ⟨(ready.setReg (.ratBase (some 0) 0) (BitVec.ofNat 64
   ((Reg.egShape 5 3).addr / 4096 * 4096 + 1))).setReg (.ratLimit (some 0) 0) (BitVec.ofNat 64 ((Reg.egShape 5 3).addr
   / 4096 * 4096 + 3)), .steward 0, rwa (.egShape 5 3), 0x8001000200000000, .egShape 5 3, 0, by decide +kernel⟩,
   ⟨ready, .steward 0, rwa (.mbArg 2), 5, 2, by decide +kernel⟩,
   ⟨{ ready with mbox := { holder := some (.steward 0) } }.setReg (.mbArg 1) 7, .steward 0, rwa .mbCmd,
   0x8000000000000010, 0x10, by decide +kernel⟩, ⟨hlink 3 id, .fn 1 30, rwa (.mbArg 2), 5, by decide +kernel⟩, ⟨ready,
   .steward 0, rwa (.mbArg 2) + 1, 5, by decide +kernel⟩, ⟨ready.setReg (.rmaCount 4) 0x0001000200030004, .steward 0,
   rwa (.rmaCount 4), 4, by decide +kernel⟩, ⟨ready, .warden, rwa (.egWeight 4), 4, by decide +kernel⟩, ⟨ready.setReg
   .coDigestLo 77, .steward 1, rwa .coDigestHi, .coDigestHi, .coDigestLo, by decide +kernel⟩,
   ⟨{ ready with captures := [⟨.steward 1, Reg.coDigestLo.addr, 77⟩] }, .steward 1, rwa .coDigestLo, .coDigestHi,
   .coDigestLo, 77, by decide +kernel⟩, ⟨ready, ready.elapse 5, 5, 5, ready.reg (.pmDump (.port 5)), rfl,
   by decide +kernel⟩, ⟨ready.setReg (.pmDump (.port 5)) 0x8020000300000002, (ready.setReg (.pmDump (.port 5))
   0x8020000300000002).elapse 48000, 5, 48000, 0x8020000300000002, rfl, by decide +kernel⟩, ⟨(ready.setReg (.pmDump
   (.port 5)) 0x8020000300000000).setReg (.tmCtrl 0 2) 0xC000180000000000 |>.setReg (.tmBase 0 2) 0x0000010000000000,
   ((ready.setReg (.pmDump (.port 5)) 0x8020000300000000).setReg (.tmCtrl 0 2) 0xC000180000000000 |>.setReg (.tmBase 0
   2) 0x0000010000000000).elapse 48000, 5, 48000, 0x10000000000, 0, 0x8020000300000000, 0xC000180000000000, 0, 2, rfl,
   by decide +kernel⟩⟩

/-! ### Ill-formed commands are refused (the checks of `Instr.wf`) -/

theorem test_wf_pace_needs_readings_east : (Instr.paceInterval 0 [1] (List.replicate 16 1)).wf = false := by decide
theorem test_wf_pace_needs_readings_west : (Instr.paceInterval 0 (List.replicate 16 1) [1]).wf = false := by decide
theorem test_wf_pace_with_readings : (Instr.paceInterval 0 (List.replicate 16 1) (List.replicate 16 1)).wf = true := by decide
theorem test_wf_voltage_tick_needs_24_sensors : (Instr.voltageLoopTick 0 [0, 0, 0]).wf = false := by decide
theorem test_wf_voltage_tick_of_24_sensors : (Instr.voltageLoopTick 0 (List.replicate 24 0)).wf = true := by decide
theorem test_wf_frame_holds_8_flits : (Instr.frameReceived 0 0 0 (List.replicate 9 0) false).wf = false := by decide
theorem test_wf_host_packet_has_bytes : (Instr.hostLinkPacket 0 (.packet [] [])).wf = false := by decide
theorem test_wf_retrain_lane_of_a_port : (Instr.linkRetrain (.port 0) (.laneLost 4)).wf = false := by decide
theorem test_wf_retrain_lane_of_a_port_returned : (Instr.linkRetrain (.port 0) (.laneReturned 4)).wf = false := by decide
theorem test_wf_retrain_lane_of_a_host_link : (Instr.linkRetrain (.host 0) (.laneLost 15)).wf = true := by decide
theorem test_wf_directory_line_in_stack : (Instr.directoryRequest 0 3 .read stackLines).wf = false := by decide
theorem test_wf_uncached_read_line_in_stack : (Instr.uncachedRead 0 stackLines).wf = false := by decide
theorem test_wf_smbus_nonce_in_block : (Instr.smbAttest 0x60 (List.replicate 256 0)).wf = false := by decide +kernel
theorem test_wf_reference_has_no_unit : (Instr.graveFault .reference 1).wf = false := by decide
theorem test_wf_fuse_has_no_unit : (Instr.graveFault .fuse 1).wf = false := by decide
theorem test_wf_regulator_has_units : (Instr.graveFault .regulator 1).wf = true := by decide

/-! ### Words of a Groom's instructions, written out from R335 and R336 -/

theorem test_word_jal : groomDecode gid 0x78000005 = some (.jal gid 5) := by decide
theorem test_word_csrr : groomDecode gid 0xD0600006 = some (.csrr gid 3 0 6) := by decide
theorem test_word_st : groomDecode gid 0x4441F008 = some (.st gid 2 1 3 3 8) := by decide
theorem test_word_hlock : groomDecode gid 0x58A10010 = some (.hlock gid 5 1 16) := by decide
theorem test_word_hamo : groomDecode gid 0x546208A3 = some (.hamo gid 3 2 1 0xA3) := by decide
theorem test_word_reserved_major : groomDecode gid 0x28000000 = none := by decide

/-! ### The rows of the table have no bits -/

theorem test_no_word_spells_a_command : decodeTableWord 0 0 = none := rfl
theorem test_fetch_word_leaves_the_queue (s : State) : s.withFetchWord 0 0 = s := rfl

/-! ### Worked examples of the manual -/

/-- R23: East reads 1830, West 1730, the target is 1800: 0x0002_0708_06C2_0726. -/
theorem test_pace_example :
    (match exec (.paceInterval 16000 (1830 :: List.replicate 15 2000) (1730 :: List.replicate 15 1731)) ready with | .next t => t.view .paceStatus | _ => 0) = 0x0002070806C20726 := by
  decide +kernel

/-- R472: PORT[37].FT_CODE lies at 0x2025_F018. -/
theorem test_ft_code_address : Reg.addr (.ftCode (.port 37)) = 0x2025F018 := by decide

/-- R498: 0x2084_0720 is HOSTLINK[4].LANE_TEST[7]. -/
theorem test_lane_test_address : targetAt 0x20840720 = .reg (.laneTest (.host 4 7)) := by decide +kernel

/-- R497: BLK_INFO of PORT[37] reads 0x0525_1001_0000_0000. -/
theorem test_blk_info : Reg.reset (.blkInfo (.port 37)) = 0x0525100100000000 := by decide

/-- R307: the wire form of FP64 1 in REPRO: top 27, nz, bin 27 of 1. -/
theorem test_repro_form_of_one :
    clConvert 0 8 2 0x3FF0000000000000 = BinForm.encode 8 2 (.fin 27 [1, 0, 0] true) := by decide +kernel

/-- R308: both trees of the worked example give top 28, nz and bins 0, 1 and 1024. -/
theorem test_repro_tree1 :
    (clCombine 0 8 2 (clCombine 0 8 2 (clConvert 0 8 2 0x43B0000000000000)
      (clCombine 0 8 2 (clConvert 0 8 2 0x3FF0000000000000) (clConvert 0 8 2 0x3E10002000000000)).1).1
      (clConvert 0 8 2 0xC3B0000000000000)).1 = 0x1C80000000000000 * 2 ^ 192 + 2 ^ 64 + 0x400 := by decide +kernel
theorem test_repro_tree2 :
    (clCombine 0 8 2 (clCombine 0 8 2 (clConvert 0 8 2 0xC3B0000000000000) (clConvert 0 8 2 0x3FF0000000000000)).1
      (clCombine 0 8 2 (clConvert 0 8 2 0x43B0000000000000) (clConvert 0 8 2 0x3E10002000000000)).1).1 =
      0x1C80000000000000 * 2 ^ 192 + 2 ^ 64 + 0x400 := by decide +kernel

/-- R309: the root finishes 1 + 2^-30. -/
theorem test_repro_finish :
    (clFinish 0 8 2 (0x1C80000000000000 * 2 ^ 192 + 2 ^ 64 + 0x400)).1 = 0x3FF0000000400000 := by decide +kernel

/-- The associativity clause of ReproFormsCombineInAnyOrder speaks of forms such as these. -/
theorem test_repro_forms_hold_k_bins :
    ∃ (b : BinPar) (x y z : BinForm), ∀ f : BinForm, f = x ∨ f = y ∨ f = z → ∀ t l n, f = .fin t l n → l.length = b.k := by
  refine ⟨binPar 8 2, .fin 28 [1, 0, 0] true, .fin 27 [1, 0, 0] true, .fin 26 [1024, 5, 0] true, ?_⟩
  rintro f (rfl | rfl | rfl) t l n h <;> cases h <;> decide

/-- R382: lock 0x0123 owned by Groom 5 of stall 2 at priority 16 with gen 0x0042 reads 0x9002_5101_0000_0042. -/
theorem test_lock_word_owned :
    (Lock.word { owner := some (.run ⟨10, 5⟩), prio := 16, gen := 0x42 }) = 0x9002510100000042 := by decide

/-- R382: owned, abandoned, by function 3 of link 5 at priority 40 with gen 0x0043. -/
theorem test_lock_word_abandoned :
    (Lock.word { owner := some (.fn 5 3), prio := 40, abandoned := true, gen := 0x43 }) = 0xF00A328280000043 := by decide

/-! ### The queue -/

/-- A step performs the command at the front of the queue on the state with the rest. -/
theorem test_step_takes_the_front :
    (match step { off with pending := [.vinAuxRise false, .resetLRise] } with | .next t => t.pending | _ => []) = [.resetLRise] := by
  decide +kernel

/-- On an empty queue a step changes nothing of a part in cold reset but the time. -/
theorem test_step_on_an_empty_queue : (match step off with | .next t => decide (t.hbm = off.hbm) | _ => false) = true := by
  decide +kernel

end Sys2Proof.Tests
end

section
/-! PROOFS. Binned forms combine in any order (R308). The bins of two finite forms add over the window of the higher
top; a bin of that window is the sum of the two forms' bins wherever it is looked at again, so the order in which three
forms are added leaves no trace. The other forms follow from an equation for each pair of kinds. -/

namespace Sys2Proof.Machine

/-- The bins of two finite forms added over the window of the higher top, from the top down (R308). -/
def binSums (K t : Nat) (l : List Int) (u : Nat) (r : List Int) : List Int :=
  (List.range K).map fun k : Nat => binPart t l ((max t u : Nat) - k) + binPart u r ((max t u : Nat) - k)

/-! ### Bins of a form and of a sum -/

theorem binPart_of_top_lt {t : Nat} {j : Int} (l : List Int) (h : (t : Int) < j) : binPart t l j = 0 :=
  if_neg (by omega)

/-- A bin `i` places below the top is entry `i` of the list. -/
theorem binPart_top_sub (t : Nat) (l : List Int) (i : Nat) : binPart t l (t - i) = l.getD i 0 := by
  rw [binPart, if_pos (by omega)]
  congr 1
  omega

/-- The bin at place `k` of a window with top `p`, in numbers without sign. -/
theorem binPart_sub_eq_ite (p t : Nat) (l : List Int) (k : Nat) :
    binPart t l (p - k) = if p ≤ k + t then l.getD (k + t - p) 0 else 0 := by
  split
  case isTrue h =>
    have hj : (p : Int) - k = t - (k + t - p : Nat) := by omega
    rw [hj, binPart_top_sub]
  case isFalse h => exact binPart_of_top_lt l (by omega)

/-- A sum's bin is the sum of the bins, at every place that a window of `K` bins with a top no lower still shows: what
the sum dropped lies below it. -/
theorem binPart_binSums {K : Nat} (t : Nat) (l : List Int) (u : Nat) (r : List Int) {j : Int}
    (hj : (max t u : Nat) < j + K) :
    binPart (max t u) (binSums K t l u r) j = binPart t l j + binPart u r j := by
  by_cases h : j ≤ (max t u : Nat)
  case pos =>
    obtain ⟨i, hi⟩ : ∃ i : Nat, j = (max t u : Nat) - i := ⟨((max t u : Nat) - j).toNat, by omega⟩
    have hK : i < K := by omega
    rw [hi, binPart_top_sub]
    simp [binSums, List.getD_eq_getElem?_getD, hK]
  case neg =>
    rw [binPart_of_top_lt _ (by omega), binPart_of_top_lt l (by omega), binPart_of_top_lt r (by omega), add_zero]

theorem binSums_comm (K t : Nat) (l : List Int) (u : Nat) (r : List Int) :
    binSums K t l u r = binSums K u r t l := by
  simp only [binSums, max_comm t u, add_comm]

theorem binSums_assoc (K t : Nat) (l : List Int) (u : Nat) (r : List Int) (v : Nat) (q : List Int) :
    binSums K (max t u) (binSums K t l u r) v q = binSums K t l (max u v) (binSums K u r v q) := by
  refine List.map_congr_left fun k hk => ?_
  have hK : k < K := List.mem_range.mp hk
  rw [binPart_binSums t l u r (by omega), binPart_binSums u r v q (by omega), max_assoc, add_assoc]

/-! ### The combination of each pair of kinds -/

namespace BinForm

variable (b : BinPar) (x y z : BinForm) (g h m n : Bool) (t u : Nat) (l r : List Int)

@[simp] theorem nz_nan : (BinForm.nan n).nz = n := rfl
@[simp] theorem nz_inf : (BinForm.inf g n).nz = n := rfl
@[simp] theorem nz_none : (BinForm.none n).nz = n := rfl
@[simp] theorem nz_fin : (BinForm.fin t l n).nz = n := rfl

@[simp] theorem combine_nan_left : combine b (.nan n) y = .nan (n || y.nz) := by cases y <;> rfl

@[simp] theorem combine_nan_right : combine b x (.nan n) = .nan (x.nz || n) := by cases x <;> rfl

@[simp] theorem combine_inf_inf :
    combine b (.inf g m) (.inf h n) = if g = h then .inf g (m || n) else .nan (m || n) := rfl

@[simp] theorem combine_inf_none : combine b (.inf g m) (.none n) = .inf g (m || n) := rfl

@[simp] theorem combine_none_inf : combine b (.none m) (.inf g n) = .inf g (m || n) := rfl

@[simp] theorem combine_inf_fin : combine b (.inf g m) (.fin u r n) = .inf g (m || n) := rfl

@[simp] theorem combine_fin_inf : combine b (.fin t l m) (.inf g n) = .inf g (m || n) := rfl

@[simp] theorem combine_none_none : combine b (.none m) (.none n) = .none (m || n) := rfl

@[simp] theorem combine_none_fin : combine b (.none m) (.fin u r n) = .fin u r (m || n) := rfl

@[simp] theorem combine_fin_none : combine b (.fin t l m) (.none n) = .fin t l (m || n) := rfl

/-- The model maps over `List.range` bound in the list monad; that is one map over the range. -/
@[simp] theorem combine_fin_fin :
    combine b (.fin t l m) (.fin u r n) = .fin (max t u) (binSums b.k t l u r) (m || n) := by
  simp only [combine, binSums, nz_fin, bind_pure_comp, List.map_eq_map, List.map_map, Function.comp_def]

@[simp] theorem nz_combine : (combine b x y).nz = (x.nz || y.nz) := by
  cases x <;> cases y
  case inf.inf g m h n => by_cases e : g = h <;> simp [e]
  all_goals simp

/-! ### Commutative and associative -/

theorem combine_comm : combine b x y = combine b y x := by
  cases x <;> cases y
  case inf.inf g m h n =>
    by_cases e : g = h
    · simp [e, Bool.or_comm]
    · simp [e, Ne.symm e, Bool.or_comm]
  case fin.fin t l m u r n => simp [binSums_comm b.k t l, max_comm t u, Bool.or_comm]
  all_goals simp [Bool.or_comm]

/-- Infinities meet in a NaN when their signs differ, whichever pair meets first. -/
theorem combine_assoc_inf (f g h m n p : Bool) :
    combine b (combine b (.inf f m) (.inf g n)) (.inf h p) =
      combine b (.inf f m) (combine b (.inf g n) (.inf h p)) := by
  cases f <;> cases g <;> cases h <;> simp [Bool.or_assoc]

theorem combine_assoc : combine b (combine b x y) z = combine b x (combine b y z) := by
  cases x <;> cases y <;> cases z
  case inf.inf.inf => exact combine_assoc_inf ..
  case inf.inf.none g _ h _ _ | inf.inf.fin g _ h _ _ _ _ | none.inf.inf g _ h _ | fin.inf.inf g _ h _ =>
    by_cases e : g = h <;> simp [e, Bool.or_assoc]
  case fin.fin.fin => simp [binSums_assoc, max_assoc, Bool.or_assoc]
  all_goals simp [Bool.or_assoc, apply_ite nz]

end BinForm

/-- Settles O44: commutativity and associativity from the bin sums', the rest from the equation of each pair. The
combination reads no entry past a window of K bins, so associativity holds whatever the forms hold. -/
theorem reproFormsCombineInAnyOrder : Obligations.ReproFormsCombineInAnyOrder := by
  unfold Obligations.ReproFormsCombineInAnyOrder
  refine ⟨BinForm.combine_comm, fun b x y z _ => BinForm.combine_assoc b x y z, fun b x y m n => ?_,
    fun b t u l r m n g => ⟨BinForm.combine_inf_fin .., BinForm.combine_none_fin .., fun _ _ => ?_⟩⟩
  · exact ⟨BinForm.nz_combine b x y, BinForm.combine_nan_left .., by simp⟩
  · simp only [BinForm.combine_fin_fin, binSums, binPart_sub_eq_ite]

end Sys2Proof.Machine
end

section
/-! PROOFS. The values of the fn table of ALU (R337): the machine's operations on words are those on whole numbers, a
count of zeros is the place of a one, BSWAP turns the order of the bytes, and the CRC taken byte by byte is the one taken
bit by bit. -/

namespace Sys2Proof.Machine

/-! ### Sums, shifts and comparisons -/

theorem ofInt_toInt_sub_toInt {n : Nat} (a b : BitVec n) : BitVec.ofInt n (a.toInt - b.toInt) = a - b :=
  BitVec.eq_of_toInt_eq (by rw [BitVec.toInt_ofInt, BitVec.toInt_sub])

theorem ofNat_toNat_mul_two_pow {n : Nat} (a : BitVec n) (k : Nat) : BitVec.ofNat n (a.toNat * 2 ^ k) = a <<< k := by
  rw [← Nat.shiftLeft_eq]; rfl

theorem ofNat_toNat_div_two_pow {n : Nat} (a : BitVec n) (k : Nat) : BitVec.ofNat n (a.toNat / 2 ^ k) = a >>> k := by
  rw [← Nat.shiftRight_eq_div_pow, ← BitVec.toNat_ushiftRight, BitVec.ofNat_toNat, BitVec.setWidth_eq]

theorem ofInt_toInt_div_two_pow {n : Nat} (a : BitVec n) (k : Nat) :
    BitVec.ofInt n (a.toInt / 2 ^ k) = a.sshiftRight k := by
  rw [BitVec.sshiftRight_eq, Int.shiftRight_eq_div_pow, Nat.cast_pow, Nat.cast_ofNat]

theorem ite_slt {n : Nat} {α : Type} (a b : BitVec n) (x y : α) :
    (if a.slt b then x else y) = if a.toInt < b.toInt then x else y := by
  simp only [BitVec.slt_iff_toInt_lt]

theorem ite_ult {n : Nat} {α : Type} (a b : BitVec n) (x y : α) :
    (if a.ult b then x else y) = if a.toNat < b.toNat then x else y := by
  simp only [BitVec.ult_iff_lt, BitVec.lt_def]

theorem ofInt_min_toInt {n : Nat} (a b : BitVec n) :
    BitVec.ofInt n (min a.toInt b.toInt) = if a.slt b then a else b := by
  simp only [ite_slt, min_def_lt, apply_ite (BitVec.ofInt n), BitVec.ofInt_toInt]

theorem ofInt_max_toInt {n : Nat} (a b : BitVec n) :
    BitVec.ofInt n (max a.toInt b.toInt) = if a.slt b then b else a := by
  simp only [ite_slt, max_def_lt, apply_ite (BitVec.ofInt n), BitVec.ofInt_toInt]

theorem ofNat_min_toNat {n : Nat} (a b : BitVec n) :
    BitVec.ofNat n (min a.toNat b.toNat) = if a.ult b then a else b := by
  simp only [ite_ult, min_def_lt, apply_ite (BitVec.ofNat n), BitVec.ofNat_toNat, BitVec.setWidth_eq]

theorem ofNat_max_toNat {n : Nat} (a b : BitVec n) :
    BitVec.ofNat n (max a.toNat b.toNat) = if a.ult b then b else a := by
  simp only [ite_ult, max_def_lt, apply_ite (BitVec.ofNat n), BitVec.ofNat_toNat, BitVec.setWidth_eq]

/-! ### Counts of zeros -/

theorem clz64_spec (a : Word) : clz64 a ≤ 64 ∧ (clz64 a = 64 ↔ a = 0) ∧
    (clz64 a < 64 → 2 ^ (63 - clz64 a) ≤ a.toNat ∧ a.toNat < 2 ^ (64 - clz64 a)) := by
  by_cases h : a = 0
  case pos => simp [clz64, h]
  case neg =>
    have ha : a.toNat ≠ 0 := fun e => h (BitVec.eq_of_toNat_eq e)
    have hl : a.toNat.log2 < 64 := (Nat.log2_lt ha).2 a.isLt
    have hc : clz64 a = 63 - a.toNat.log2 := if_neg h
    refine ⟨by omega, by simp only [h, iff_false]; omega, fun _ => ?_⟩
    rw [show 63 - clz64 a = a.toNat.log2 by omega, show 64 - clz64 a = a.toNat.log2 + 1 by omega]
    exact ⟨Nat.log2_self_le ha, Nat.lt_log2_self⟩

/-- The lowest one, and zeros below it, are the remainder of the power of two above that one. -/
theorem mod_two_pow_succ_of_lowest_one {v n : Nat} (hn : v.testBit n = true) (low : ∀ j < n, v.testBit j = false) :
    v % 2 ^ (n + 1) = 2 ^ n := by
  refine Nat.eq_of_testBit_eq fun i => ?_
  rw [Nat.testBit_mod_two_pow, Nat.testBit_two_pow]
  rcases Nat.lt_trichotomy i n with hi | rfl | hi
  · simp [low i hi, hi.ne']
  · simp [hn]
  · simp [hi.ne, show ¬ i < n + 1 by omega]

theorem ctz64_spec (a : Word) : ctz64 a ≤ 64 ∧ (ctz64 a = 64 ↔ a = 0) ∧
    (ctz64 a < 64 → a.toNat % 2 ^ (ctz64 a + 1) = 2 ^ ctz64 a) := by
  cases h : (List.range 64).find? (fun i => a.getLsbD i)
  case none =>
    have hc : ctz64 a = 64 := by rw [ctz64, h]; rfl
    have ha : a = 0 := BitVec.eq_of_getLsbD_eq fun i hi => by
      simpa using List.find?_eq_none.1 h i (List.mem_range.2 hi)
    exact ⟨hc.le, iff_of_true hc ha, fun hlt => absurd hc hlt.ne⟩
  case some n =>
    have hc : ctz64 a = n := by rw [ctz64, h]; rfl
    obtain ⟨hn, hlt, low⟩ := List.find?_range_eq_some.1 h
    have ha : a ≠ 0 := by rintro rfl; simp at hn
    have h64 := List.mem_range.1 hlt
    rw [hc]
    exact ⟨h64.le, iff_of_false h64.ne ha, fun _ =>
      mod_two_pow_succ_of_lowest_one hn fun j hj => Bool.not_eq_true' _ ▸ low j hj⟩

/-! ### BSWAP -/

theorem ofBe_append_singleton (bs : List (BitVec 8)) (b : BitVec 8) : ofBe (bs ++ [b]) = 2 ^ 8 * ofBe bs + b.toNat := by
  simp [ofBe]

/-- A byte in front of others is the highest. -/
theorem ofBe_cons (b : BitVec 8) (bs : List (BitVec 8)) : ofBe (b :: bs) = 2 ^ (8 * bs.length) * b.toNat + ofBe bs := by
  induction bs using List.reverseRecOn with
  | nil => simp [ofBe]
  | append_singleton bs c ih =>
    rw [← List.cons_append, ofBe_append_singleton, ofBe_append_singleton, ih, List.length_append, List.length_singleton]
    ring

theorem ofBe_lt (bs : List (BitVec 8)) : ofBe bs < 2 ^ (8 * bs.length) := by
  induction bs using List.reverseRecOn with
  | nil => simp [ofBe]
  | append_singleton bs c ih =>
    rw [ofBe_append_singleton, List.length_append, List.length_singleton, Nat.mul_add, Nat.pow_add]
    have := c.isLt
    omega

/-- Bytes laid out low byte first and read high byte first: byte `k` from below is byte `k` from above. -/
theorem testBit_ofBe_leBytes (n v i : Nat) (hi : i < 8 * n) :
    (ofBe (leBytes n v)).testBit i = v.testBit (8 * (n - 1 - i / 8) + i % 8) := by
  induction n generalizing v with
  | zero => omega
  | succ n ih =>
    have hlt : ofBe (leBytes n (v / 2 ^ 8)) < 2 ^ (8 * n) := by
      simpa only [leBytes_length] using ofBe_lt (leBytes n (v / 2 ^ 8))
    have e : ofBe (leBytes (n + 1) v) = 2 ^ (8 * n) * (v % 2 ^ 8) + ofBe (leBytes n (v / 2 ^ 8)) := by
      rw [leBytes, ofBe_cons, leBytes_length, BitVec.toNat_ofNat]
      rfl
    rw [e, Nat.testBit_two_pow_mul_add _ hlt]
    split
    case isTrue h =>
      rw [ih _ h, Nat.testBit_div_two_pow]
      congr 1
      omega
    case isFalse h =>
      rw [Nat.testBit_mod_two_pow, decide_eq_true (by omega : i - 8 * n < 8), Bool.true_and]
      congr 1
      omega

/-! ### CRC -/

/-- The CRC-32C register advanced over one bit (R337). -/
def crc32cStep (c : BitVec 32) (x : Bool) : BitVec 32 :=
  if c.getLsbD 0 ≠ x then (c >>> 1) ^^^ 0x82F63B78 else c >>> 1

/-- The CRC-32C register advanced over the low `n` bits of a number, lowest first. -/
def crc32cBits (c : BitVec 32) (v n : Nat) : BitVec 32 := (List.range n).foldl (fun c i => crc32cStep c (v.testBit i)) c

/-- Bits that wait in the register, added to it ahead of their turn, act as bits that arrive one by one. -/
theorem crc32cBit_xor (c d : BitVec 32) : crc32cBit (c ^^^ d) = crc32cStep c (d.getLsbD 0) ^^^ (d >>> 1) := by
  unfold crc32cBit crc32cStep bit
  rw [BitVec.getLsbD_xor, BitVec.ushiftRight_xor_distrib]
  cases c.getLsbD 0 <;> cases d.getLsbD 0 <;> simp [BitVec.xor_assoc, BitVec.xor_comm (0x82F63B78#32)]

theorem foldl_crc32cBit_xor (c d : BitVec 32) (n : Nat) :
    (List.range n).foldl (fun c _ => crc32cBit c) (c ^^^ d) = crc32cBits c d.toNat n ^^^ (d >>> n) := by
  unfold crc32cBits
  induction n with
  | zero => simp
  | succ n ih =>
    rw [List.range_succ, List.foldl_append, List.foldl_append, ih]
    simp [crc32cBit_xor, BitVec.shiftRight_add, BitVec.getLsbD]

theorem crc32cByte_eq_crc32cBits (c : BitVec 32) (b : Byte) : crc32cByte c b = crc32cBits c b.toNat 8 := by
  have hb : b.toNat < 2 ^ 8 := b.isLt
  have hn : (b.setWidth 32).toNat = b.toNat := by rw [BitVec.toNat_setWidth]; omega
  have h0 : b.setWidth 32 >>> 8 = 0#32 := by
    refine BitVec.eq_of_toNat_eq ?_
    rw [BitVec.toNat_ushiftRight, hn, Nat.shiftRight_eq_div_pow, Nat.div_eq_of_lt hb]
    rfl
  rw [crc32cByte, foldl_crc32cBit_xor, hn, h0, BitVec.xor_zero]

theorem crc32cBits_add (c : BitVec 32) (v m n : Nat) :
    crc32cBits c v (m + n) = crc32cBits (crc32cBits c v m) (v / 2 ^ m) n := by
  simp [crc32cBits, List.range_add, List.foldl_map, Nat.testBit_div_two_pow, Nat.add_comm]

theorem crc32cBits_mod_two_pow (c : BitVec 32) (v n : Nat) : crc32cBits c (v % 2 ^ n) n = crc32cBits c v n :=
  List.foldl_ext _ _ _ fun c i hi => by simp [Nat.testBit_mod_two_pow, List.mem_range.1 hi]

/-- The register advanced byte by byte, low byte first, is advanced bit by bit, low bit first. -/
theorem foldl_crc32cByte_leBytes (n : Nat) (c : BitVec 32) (v : Nat) :
    (leBytes n v).foldl crc32cByte c = crc32cBits c v (8 * n) := by
  induction n generalizing c v with
  | zero => rfl
  | succ n ih =>
    calc (leBytes (n + 1) v).foldl crc32cByte c
        = (leBytes n (v / 2 ^ 8)).foldl crc32cByte (crc32cByte c (BitVec.ofNat 8 v)) := rfl
      _ = crc32cBits (crc32cBits c v 8) (v / 2 ^ 8) (8 * n) := by
          rw [ih, crc32cByte_eq_crc32cBits, BitVec.toNat_ofNat, crc32cBits_mod_two_pow]
      _ = crc32cBits c v (8 * (n + 1)) := by rw [← crc32cBits_add, Nat.mul_succ, Nat.add_comm]

/-! ### The table of fn (R337) -/

theorem aluFn_bswap (a b : Word) :
    ∃ v : Word, aluFn 19 a b = some v ∧ ∀ i : Nat, i < 64 → v.getLsbD i = a.getLsbD (8 * (7 - i / 8) + i % 8) := by
  refine ⟨_, rfl, fun i hi => ?_⟩
  rw [BitVec.getLsbD_ofNat, decide_eq_true hi, Bool.true_and]
  exact testBit_ofBe_leBytes 8 a.toNat i hi

theorem aluFn_crc (a b : Word) :
    aluFn 20 a b = some ((crc32cBits (a.setWidth 32) b.toNat 64).setWidth 64) :=
  congrArg (fun c : BitVec 32 => some (c.setWidth 64)) (foldl_crc32cByte_leBytes 8 (a.setWidth 32) b.toNat)

theorem aluFn_eq_none_of_lt {fn : Nat} (h : 20 < fn) (a b : Word) : aluFn fn a b = none := by
  obtain ⟨n, rfl⟩ := Nat.exists_eq_add_of_lt h
  rw [show 20 + n + 1 = n + 21 by omega]; rfl

end Sys2Proof.Machine
end

section
/-! PROOFS. An instruction of a Groom that never waits and has a value or none (R333, R336, R346). What happens around it,
the budget, the counters, the sampling with its telemetry and the exception, leaves the other Grooms, the scratch and
the records of exceptions alone; so its run shows what the instruction itself did. -/

namespace Sys2Proof.Machine

/-! ### Grooms and registers read after a write -/

theorem groomKey_inj {g h : GroomId} (e : 16 * h.s.val + h.g.val = 16 * g.s.val + g.g.val) : h = g := by
  obtain ⟨hs, hg⟩ := h
  obtain ⟨gs, gg⟩ := g
  simp only [GroomId.mk.injEq, Fin.ext_iff] at e ⊢
  omega

@[simp] theorem groom_modGroom_same (s : State) (g : GroomId) (f : Groom → Groom) :
    (s.modGroom g f).groom g = f (s.groom g) := tGet_tMod_same ..

theorem groom_modGroom_other (s : State) {g h : GroomId} (f : Groom → Groom) (hne : h ≠ g) :
    (s.modGroom g f).groom h = s.groom h := tGet_tMod_other _ _ _ _ _ fun e => hne (groomKey_inj e)

/-- Another bit of the register written reads as before. -/
theorem rb_wb_bit_other (s : State) (q : Reg) {i j : Nat} (b : Bool) (hj : j < 64) (h : i ≠ j) :
    (s.wb q i b).rb q j = s.rb q j := by
  unfold State.rb State.wb State.wf
  rw [reg_setReg_same, bit_setFld_other _ _ _ _ _ hj (by omega)]

/-! ### The counters of a Groom (R476) -/

theorem pmOne_eq_or_eq (sel cnt : Reg) (code filt n : Nat) (s : State) :
    pmOne sel cnt code filt n s = s.setReg cnt (pmAdd (s.reg cnt) n) ∨ pmOne sel cnt code filt n s = s :=
  ite_eq_or_eq ..

/-- Counting writes the Groom's counters alone: what such writes keep, it keeps. -/
theorem pmG_induction {P : State → Prop} {s : State} {g : GroomId} (code ctx n : Nat) (h : P s)
    (hset : ∀ t i v, P t → P (t.setReg (.pmGcnt g i) v)) : P (s.pmG g code ctx n) := by
  have one : ∀ t i, P t → P (pmOne (.pmGsel g i) (.pmGcnt g i) code ctx n t) := by
    intro t i ht
    rcases pmOne_eq_or_eq (.pmGsel g i) (.pmGcnt g i) code ctx n t with e | e <;> rw [e]
    · exact hset t i _ ht
    · exact ht
  unfold State.pmG
  split
  · exact h
  · exact List.foldlRecOn _ _ h fun t ht i _ => one t i ht

/-! ### What telemetry leaves alone -/

/-- GR_FAULT and GR_COUNT, which change where the exception of an ended run is reported (R347). -/
def Reg.RecordsExc (q : Reg) : Prop := ∃ n, q = .grFault n ∨ q = .grCount n

theorem Reg.RecordsExc.addr_ne_pmGcnt {q : Reg} (h : q.RecordsExc) (g : GroomId) (i : Fin 8) :
    q.addr ≠ (Reg.pmGcnt g i).addr := by
  obtain ⟨n, rfl | rfl⟩ := h <;> simp only [Reg.addr, Reg.block, Reg.off, blockBase] <;> omega

theorem Reg.RecordsExc.addr_ne_tmCtrl {q : Reg} (h : q.RecordsExc) (d : Dom) (i : Fin 16) :
    q.addr ≠ (Reg.tmCtrl d i).addr := by
  obtain ⟨n, rfl | rfl⟩ := h <;> simp only [Reg.addr, Reg.block, Reg.off, blockBase] <;> omega

theorem Reg.RecordsExc.addr_ne_hlStatus {q : Reg} (h : q.RecordsExc) (l : HLink) : q.addr ≠ (Reg.hlStatus l).addr := by
  obtain ⟨n, rfl | rfl⟩ := h <;> simp only [Reg.addr, Reg.block, Reg.off, blockBase] <;> omega

theorem Reg.RecordsExc.addr_ne_grStatus {q : Reg} (h : q.RecordsExc) (n : Stall) : q.addr ≠ (Reg.grStatus n).addr := by
  obtain ⟨m, rfl | rfl⟩ := h <;> simp only [Reg.addr, Reg.block, Reg.off, blockBase] <;> omega

theorem grStatus_addr_ne_pmGcnt (n : Stall) (g : GroomId) (i : Fin 8) :
    (Reg.grStatus n).addr ≠ (Reg.pmGcnt g i).addr := by
  simp only [Reg.addr, Reg.block, Reg.off, blockBase]; omega

theorem pmSample_addr_ne_pmGcnt (n : Stall) (g : GroomId) (i : Fin 8) :
    (Reg.pmSample n).addr ≠ (Reg.pmGcnt g i).addr := by
  simp only [Reg.addr, Reg.block, Reg.off, blockBase]; omega

/-- `t` has the Grooms, the shared scratch and the records of exceptions of `s`. -/
structure State.SparesGrooms (s t : State) : Prop where
  grooms : t.grooms = s.grooms
  buf : t.buf = s.buf
  regs : ∀ q : Reg, q.RecordsExc → t.reg q = s.reg q

namespace State.SparesGrooms

variable {s t u : State}

theorem of_regs_eq (hg : t.grooms = s.grooms) (hb : t.buf = s.buf) (hr : t.regs = s.regs) : s.SparesGrooms t :=
  ⟨hg, hb, fun _ _ => by simp only [State.reg, hr]⟩

theorem refl (s : State) : s.SparesGrooms s := of_regs_eq rfl rfl rfl

theorem trans (h : s.SparesGrooms t) (k : t.SparesGrooms u) : s.SparesGrooms u :=
  ⟨k.grooms.trans h.grooms, k.buf.trans h.buf, fun q hq => (k.regs q hq).trans (h.regs q hq)⟩

theorem ite {c : Prop} [Decidable c] (ht : s.SparesGrooms t) (hu : s.SparesGrooms u) :
    s.SparesGrooms (if c then t else u) := by
  split
  · exact ht
  · exact hu

theorem foldl {α : Type} {f : State → α → State} (h : ∀ t x, SparesGrooms t (f t x)) (xs : List α) (s : State) :
    s.SparesGrooms (xs.foldl f s) :=
  List.foldlRecOn xs f (refl s) fun t ht x _ => ht.trans (h t x)

theorem setReg (s : State) {r : Reg} (v : Word) (h : ∀ q : Reg, q.RecordsExc → q.addr ≠ r.addr) :
    s.SparesGrooms (s.setReg r v) :=
  ⟨rfl, rfl, fun q hq => reg_setReg_other _ _ _ _ (h q hq)⟩

theorem pmG (s : State) (g : GroomId) (code ctx n : Nat) : s.SparesGrooms (s.pmG g code ctx n) :=
  pmG_induction code ctx n (refl s) fun t i v h => h.trans (setReg t v fun _ hq => hq.addr_ne_pmGcnt g i)

theorem sendReq (s : State) (h : Nat) (x : ReqTlp) : s.SparesGrooms (s.sendReq h x) :=
  ite (refl s) (of_regs_eq rfl rfl rfl)

theorem hostWrite (s : State) (h fn : Nat) (ctx : Option Nat) (a : Nat) (bs : List Byte) (tok : Tok) :
    s.SparesGrooms (s.hostWrite h fn ctx a bs tok) :=
  foldl (fun t _ => sendReq t h _) _ s

theorem sendIntr (s : State) (h fn vector data : Nat) : s.SparesGrooms (s.sendIntr h fn vector data) :=
  ite (sendReq s h _) ((setReg s _ fun _ hq => hq.addr_ne_hlStatus _).trans (of_regs_eq rfl rfl rfl))

theorem uncachedWrite (s : State) (a : Nat) (bs : List Byte) : s.SparesGrooms (s.uncachedWrite a bs) :=
  have h : s.SparesGrooms (s.hbmWrite a bs) := ite (of_regs_eq rfl rfl rfl) (refl s)
  h.trans (of_regs_eq rfl rfl rfl)

theorem setTmCtrl (s : State) (d : Dom) (i : Fin 16) (v : Word) : s.SparesGrooms (s.setReg (.tmCtrl d i) v) :=
  setReg s v fun _ hq => hq.addr_ne_tmCtrl d i

/-- A record's write (R481): its bytes, the position, and where its bank fills, the bank's release and INTR. -/
theorem tmWrite1 (s : State) (d i : Nat) (ws : List Word) : s.SparesGrooms (s.tmWrite1 d i ws) := by
  unfold State.tmWrite1
  extract_lets c n w0 a bs link s1 s2 r s3 s4
  have h1 : s.SparesGrooms s1 := ite (uncachedWrite ..) (hostWrite ..)
  have h2 : s.SparesGrooms s2 := h1.trans (of_regs_eq rfl rfl rfl)
  have h3 : s.SparesGrooms s3 := h2.trans (setTmCtrl ..)
  have h4 : s.SparesGrooms s4 := h3.trans (setTmCtrl ..)
  exact ite (ite (h4.trans (sendIntr ..)) h4) h3

theorem tmWrite (s : State) (d i : Nat) (recs : List (List Word)) : s.SparesGrooms (s.tmWrite d i recs) := by
  unfold State.tmWrite
  extract_lets c drops s1
  have h1 : s.SparesGrooms s1 := ite ((setTmCtrl ..).trans (tmWrite1 ..)) (refl s)
  exact ite (setTmCtrl ..) (ite (h1.trans (foldl (fun t _ => tmWrite1 t d i _) _ _)) (h1.trans (setTmCtrl ..)))

end State.SparesGrooms

/-! ### The state that an instruction has reached -/

/-- From `s`, an instruction of Groom `g` has reached `t`, where the Groom's run is `r`: its own and the shared scratch, every
other Groom and the records of exceptions are as in `s`. -/
structure State.Executes (s t : State) (g : GroomId) (r : Run) : Prop where
  run : (t.groom g).run = some r
  scratch : (t.groom g).scratch = (s.groom g).scratch
  others : ∀ h : GroomId, h ≠ g → t.groom h = s.groom h
  buf : t.buf = s.buf
  regs : ∀ q : Reg, q.RecordsExc → t.reg q = s.reg q

namespace State.Executes

variable {s t u : State} {g : GroomId} {r : Run}

theorem refl (h : (s.groom g).run = some r) : s.Executes s g r := ⟨h, rfl, fun _ _ => rfl, rfl, fun _ _ => rfl⟩

theorem spares (h : s.Executes t g r) (k : t.SparesGrooms u) : s.Executes u g r := by
  have e : ∀ x, u.groom x = t.groom x := fun x => by simp only [State.groom, k.grooms]
  exact ⟨by rw [e, h.run], by rw [e, h.scratch], fun x hx => by rw [e, h.others x hx], k.buf.trans h.buf,
    fun q hq => (k.regs q hq).trans (h.regs q hq)⟩

theorem modGroom (h : s.Executes t g r) {f : Groom → Groom} {r' : Run} (hrun : (f (t.groom g)).run = some r')
    (hscr : (f (t.groom g)).scratch = (t.groom g).scratch) : s.Executes (t.modGroom g f) g r' :=
  ⟨by rw [groom_modGroom_same, hrun], by rw [groom_modGroom_same, hscr, h.scratch],
    fun x hx => by rw [groom_modGroom_other _ _ hx, h.others x hx], h.buf, h.regs⟩

theorem modRun (h : s.Executes t g r) (f : Run → Run) : s.Executes (t.modRun g f) g (f r) :=
  h.modGroom (by rw [h.run]; rfl) rfl

theorem drawInterval (h : s.Executes t g r) : s.Executes (t.drawInterval g).2 g r :=
  h.spares (.of_regs_eq rfl rfl rfl)

theorem sample (h : s.Executes t g r) (r' : Run) (w : BitVec 32) : s.Executes (t.sample g r' w) g r := by
  unfold State.sample
  extract_lets c left x d t1 dom i
  have hx : s.Executes x.2 g r := by
    unfold x
    split
    · exact h.drawInterval
    · exact h
  split
  · exact h
  · split
    · exact hx.modGroom hx.run rfl
    · have h1 : s.Executes t1 g r := hx.drawInterval.modGroom hx.drawInterval.run rfl
      split
      · exact h1.spares (.tmWrite ..)
      · exact h1

theorem beginInstr (h : s.Executes t g r) (r' : Run) (w : BitVec 32) :
    s.Executes (t.beginInstr g r' w) g { r with budget := r.budget - 1 } :=
  ((h.modRun _).spares (.pmG ..)).sample _ w

theorem wbGrStatus (h : s.Executes t g r) (n : Stall) (i : Nat) (b : Bool) :
    s.Executes (t.wb (.grStatus n) i b) g r :=
  h.spares (.setReg t _ fun _ hq => hq.addr_ne_grStatus n)

theorem dropWaits (h : s.Executes t g r) (d : Nat) (m : Holder) : s.Executes (t.dropWaits d m) g r := by
  unfold State.dropWaits
  split
  · exact h.spares (.of_regs_eq rfl rfl rfl)
  · exact h

end State.Executes

/-! ### Exceptions (R346) -/

/-- The same, where GR_STATUS shows that a run has raised an exception. -/
def State.Excepts (s t : State) (g : GroomId) (r : Run) : Prop := s.Executes t g r ∧ t.rb (.grStatus g.s) 2 = true

namespace State.Excepts

variable {s t : State} {g : GroomId} {r : Run}

theorem ite_wbGrStatus (h : s.Excepts t g r) (c : Prop) [Decidable c] {i : Nat} (hi : i ≠ 2) (b : Bool) :
    s.Excepts (if c then t.wb (.grStatus g.s) i b else t) g r := by
  split
  · exact ⟨h.1.wbGrStatus .., (rb_wb_bit_other _ _ _ (by decide) hi).trans h.2⟩
  · exact h

theorem pmG (h : s.Excepts t g r) (code ctx n : Nat) : s.Excepts (t.pmG g code ctx n) g r := by
  refine ⟨h.1.spares (.pmG ..), ?_⟩
  refine pmG_induction (P := fun u => u.rb (.grStatus g.s) 2 = true) _ _ _ h.2 fun u i v hu => ?_
  rwa [State.rb, reg_setReg_other _ _ _ _ (grStatus_addr_ne_pmGcnt g.s g i)]

end State.Excepts

theorem State.Executes.raise {s t : State} {g : GroomId} {r : Run} (h : s.Executes t g r) (hexc : r.exc = none)
    (kind detail addr : Nat) : s.Excepts (t.raise g kind detail addr) g
      { r with exc := some (kind, detail, addr, r.pc), wait := .none } := by
  unfold State.raise
  simp only [h.run, hexc, Option.isSome_none, Bool.false_eq_true, if_false]
  have mark : s.Excepts
      (((t.modRun g fun r => { r with exc := some (kind, detail, addr, r.pc), wait := .none }).dropWaits (g.s.val / 8)
        (.run g)).wb (.grStatus g.s) 2 true)
      g { r with exc := some (kind, detail, addr, r.pc), wait := .none } :=
    ⟨((h.modRun _).dropWaits ..).wbGrStatus .., rb_wb_same _ _ _ _ (by decide)⟩
  exact ((mark.ite_wbGrStatus _ (by decide) _).ite_wbGrStatus _ (by decide) _).pmG ..

/-! ### Sampling off -/

theorem sample_of_off {s : State} {g : GroomId} (h : s.rb (.pmSample g.s) 63 = false) (r : Run) (w : BitVec 32) :
    s.sample g r w = s :=
  if_pos (by rw [show bit (s.reg (.pmSample g.s)) 63 = false from h]; rfl)

/-- From `s` to `t` nothing but Grooms and the counters of Groom `g` has changed. -/
def State.CountsOnly (s t : State) (g : GroomId) : Prop :=
  t = { s with grooms := t.grooms, regs := t.regs } ∧
    ∀ q : Reg, (∀ i : Fin 8, q.addr ≠ (Reg.pmGcnt g i).addr) → t.reg q = s.reg q

namespace State.CountsOnly

variable {s t : State} {g : GroomId}

theorem refl (s : State) (g : GroomId) : s.CountsOnly s g := ⟨rfl, fun _ _ => rfl⟩

theorem modGroom (h : s.CountsOnly t g) (x : GroomId) (f : Groom → Groom) : s.CountsOnly (t.modGroom x f) g :=
  ⟨by rw [h.1]; rfl, h.2⟩

theorem modRun (h : s.CountsOnly t g) (f : Run → Run) : s.CountsOnly (t.modRun g f) g := h.modGroom g _

theorem setPmGcnt (h : s.CountsOnly t g) (i : Fin 8) (v : Word) : s.CountsOnly (t.setReg (.pmGcnt g i) v) g :=
  ⟨by rw [h.1]; rfl, fun q hq => (reg_setReg_other _ _ _ _ (hq i)).trans (h.2 q hq)⟩

theorem pmG (h : s.CountsOnly t g) (code ctx n : Nat) : s.CountsOnly (t.pmG g code ctx n) g :=
  pmG_induction (P := fun u => s.CountsOnly u g) code ctx n h fun _ i v ht => ht.setPmGcnt i v

theorem beginInstr (h : s.CountsOnly t g) (hoff : s.rb (.pmSample g.s) 63 = false) (r : Run) (w : BitVec 32) :
    s.CountsOnly (t.beginInstr g r w) g := by
  have hc := (h.modRun fun r => { r with budget := r.budget - 1 }).pmG 0x0101 r.ctx 1
  unfold State.beginInstr
  rwa [sample_of_off]
  rwa [State.rb, hc.2 _ (pmSample_addr_ne_pmGcnt g.s g)]

end State.CountsOnly

/-! ### The start of an instruction -/

theorem live_of_fetches {s : State} {g : GroomId} {r : Run} {w : BitVec 32} (hf : s.Fetches g r w) :
    s.live (.stall g.s) = true := by
  obtain ⟨-, hlive, -⟩ := hf
  exact hlive

theorem exc_of_fetches {s : State} {g : GroomId} {r : Run} {w : BitVec 32} (hf : s.Fetches g r w) : r.exc = none := by
  obtain ⟨-, -, -, -, -, -, hexc, -⟩ := hf
  exact hexc

theorem wait_of_fetches {s : State} {g : GroomId} {r : Run} {w : BitVec 32} (hf : s.Fetches g r w) :
    r.wait = .none := by
  obtain ⟨-, -, -, -, -, -, -, hwait, -⟩ := hf
  exact hwait

theorem latchTimer_eq (s : State) {r : Run} (h : r.wait = .none) :
    ∃ e b, s.latchTimer r = { r with events := e, timerHit := b } := by
  unfold State.latchTimer
  split
  · exact ⟨r.events ||| 4, true, by simp only [wakeRun, h]⟩
  · exact ⟨r.events, r.timerHit, rfl⟩

/-- The run as its instruction meets it: the TIMER event latched, one instruction of the budget used (R333, R345). -/
def State.begun (s : State) (r : Run) : Run := { s.latchTimer r with budget := r.budget - 1 }

theorem begun_eq (s : State) {r : Run} (h : r.wait = .none) :
    ∃ e b, s.begun r = { r with events := e, timerHit := b, budget := r.budget - 1 } := by
  obtain ⟨e, b, hl⟩ := latchTimer_eq s h
  exact ⟨e, b, by rw [State.begun, hl]⟩

theorem get_begun (s : State) {r : Run} (h : r.wait = .none) (n : BitVec 5) : (s.begun r).get n = r.get n := by
  obtain ⟨e, b, hb⟩ := begun_eq s h
  rw [hb]
  rfl

theorem step_put_begun (s : State) {r : Run} (h : r.wait = .none) (rd : BitVec 5) (x : Word) :
    ((s.begun r).put rd x).step = s.ran r rd x (r.pc + 1) := by
  obtain ⟨e, b, hl⟩ := latchTimer_eq s h
  unfold State.ran State.begun Run.put Run.step
  rw [hl]
  split <;> rfl

/-! ### An instruction that never waits -/

/-- What `Fetches` says of a run leads to the state in which its instruction is performed. -/
theorem instr_noWait_of_fetches {s : State} {g : GroomId} {r : Run} {w : BitVec 32} (hf : s.Fetches g r w)
    (hm : majorOk (fld w 31 26) = true) :
    ∃ t, s.Executes t g (s.begun r) ∧
      (s.rb (.pmSample g.s) 63 = false → s.CountsOnly t g) ∧
      ∀ k, s.instr g w noWait k = k (s.begun r) t := by
  obtain ⟨hcalm, hlive, hdom, hstop, hrun, hhalt, hexc, hwait, hbudget, hpc, hword⟩ := hf
  obtain ⟨e, b, hl⟩ := latchTimer_eq s hwait
  have hb : (s.latchTimer r).budget = r.budget := by rw [hl]
  refine ⟨(s.modRun g fun _ => s.latchTimer r).beginInstr g (s.latchTimer r) w, ?_, fun hoff => ?_, fun k => ?_⟩
  · have := ((State.Executes.refl hrun).modRun fun _ => s.latchTimer r).beginInstr (s.latchTimer r) w
    rwa [hb] at this
  · exact ((State.CountsOnly.refl s g).modRun _).beginInstr hoff _ _
  · have hlive : r.live = true := by simp [Run.live, hhalt, hexc, hwait]
    have hfrozen : s.frozen (.stall g.s) = false := by simp [State.frozen, hdom]
    have hleft : r.budget ≠ 0 := Nat.ne_of_gt hbudget
    have hin : ¬ (s.latchTimer r).pages * 1024 ≤ (s.latchTimer r).pc := by rw [hl]; exact hpc.not_ge
    have hfetch : (s.modRun g fun _ => s.latchTimer r).fetchWord (s.latchTimer r) = w := by rw [hl]; exact hword
    unfold State.instr
    simp [hrun, hfrozen, hstop, hlive, hleft, hin, hfetch, hm, noWait, State.begun, hb]

section

variable {s : State} {g : GroomId} {r : Run} {w : BitVec 32} {v : Run → Option Word}

/-- An instruction whose result is `x` writes it and goes on (R336). -/
theorem valueOp_retires (hf : s.Fetches g r w) (hm : majorOk (fld w 31 26) = true) (rd : BitVec 5) {x : Word}
    (hv : v (s.begun r) = some x) :
    s.Retires (s.valueOp g w rd v) g (s.ran r rd x (r.pc + 1)) := by
  have hwait := wait_of_fetches hf
  obtain ⟨t, ht, hoff, hk⟩ := instr_noWait_of_fetches hf hm
  have e : s.valueOp g w rd v = t.writeReg g rd x := by rw [State.valueOp, hk, hv]
  have hw : s.Executes (t.writeReg g rd x) g (s.ran r rd x (r.pc + 1)) :=
    step_put_begun s hwait rd x ▸ ht.modRun fun r => (r.put rd x).step
  rw [e]
  exact ⟨hw.run, hw.scratch, hw.others, fun h => (hoff h).modRun _⟩

/-- An instruction without a result is a reserved one: ILLEGAL (R346). -/
theorem valueOp_raises (hf : s.Fetches g r w) (hm : majorOk (fld w 31 26) = true) (rd : BitVec 5)
    (hv : v (s.begun r) = none) : s.Raised (s.valueOp g w rd v) g r 1 0 0 := by
  obtain ⟨t, ht, -, hk⟩ := instr_noWait_of_fetches hf hm
  have e : s.valueOp g w rd v = t.raise g 1 0 0 := by rw [State.valueOp, hk, hv]
  have hexc : r.exc = none := exc_of_fetches hf
  obtain ⟨events, hit, hb⟩ := begun_eq s (wait_of_fetches hf)
  rw [hb] at ht
  obtain ⟨hx, hs⟩ := ht.raise hexc 1 0 0
  rw [e]
  exact ⟨by rw [hx.run]; rfl, by rw [hx.run]; rfl, hx.scratch, hx.buf, hs, hx.regs _ ⟨_, .inl rfl⟩,
    hx.regs _ ⟨_, .inr rfl⟩⟩

end

/-! ### ALU (R337) -/

section

variable {s : State} {g : GroomId} {r : Run} {rd a b : BitVec 5} {fn : BitVec 11}

theorem exec_alu_of_live (h : s.live (.stall g.s) = true) : exec (.alu g rd a b fn) s = .next (doAlu g rd a b fn s) :=
  quiet_of_live s _ _ h

theorem majorOk_encR_alu : majorOk (fld (encR 0x00 rd a b fn) 31 26) = true := by
  rw [Laws.GroomMajor.major_encR _ _ _ _ _ (by decide)]
  rfl

theorem alu_retires {v : Word} (hf : s.Fetches g r (encR 0x00 rd a b fn))
    (hv : aluFn fn.toNat (r.get a) (r.get b) = some v) (hu : 16 ≤ fn.toNat → fn.toNat ≤ 19 → b = 0) :
    s.Retires (doAlu g rd a b fn s) g (s.ran r rd v (r.pc + 1)) := by
  have hwait := wait_of_fetches hf
  have hno : ¬ (aluUnary fn.toNat && decide (b ≠ 0)) = true := by
    simpa [aluUnary] using hu
  refine valueOp_retires hf majorOk_encR_alu rd ?_
  rw [if_neg hno, get_begun s hwait, get_begun s hwait, hv]

theorem alu_raises (hf : s.Fetches g r (encR 0x00 rd a b fn))
    (hr : 20 < fn.toNat ∨ (16 ≤ fn.toNat ∧ fn.toNat ≤ 19 ∧ b ≠ 0)) : s.Raised (doAlu g rd a b fn s) g r 1 0 0 := by
  refine valueOp_raises hf majorOk_encR_alu rd ?_
  rcases hr with hfn | ⟨hlo, hhi, hb⟩
  · rw [aluFn_eq_none_of_lt hfn, ite_self]
  · exact if_pos (by simpa [aluUnary, hlo, hhi] using hb)

end

/-- Settles O38: the rows of two operands by arithmetic on words, CLZ, CTZ, BSWAP and CRC by the bits that they give, and
the instruction itself as one that never waits and has a value or none. -/
theorem aluFollowsItsTable : Obligations.AluFollowsItsTable := by
  unfold Obligations.AluFollowsItsTable
  refine ⟨fun a b k hk => ?_, fun a _ => ⟨clz64 a, rfl, clz64_spec a⟩, fun a _ => ⟨ctz64 a, rfl, ctz64_spec a⟩,
    fun _ _ => rfl, aluFn_bswap, aluFn_crc, fun a b fn h => aluFn_eq_none_of_lt h a b, ?_, ?_⟩
  · subst hk
    simp only [← BitVec.add_def, ofInt_toInt_sub_toInt, ofNat_toNat_mul_two_pow, ofNat_toNat_div_two_pow,
      ofInt_toInt_div_two_pow, ← ite_slt, ← ite_ult, ofInt_min_toInt, ofInt_max_toInt,
      ofNat_min_toNat, ofNat_max_toNat]
    exact ⟨rfl, rfl, rfl, rfl, rfl, rfl, rfl, rfl, rfl, rfl, rfl, rfl, rfl, rfl, rfl, rfl⟩
  · intro s g r rd a b fn v hf hv hu
    exact ⟨_, exec_alu_of_live (live_of_fetches hf), alu_retires hf hv hu⟩
  · intro s g r rd a b fn hf hr
    exact ⟨_, exec_alu_of_live (live_of_fetches hf), alu_raises hf hr⟩

end Sys2Proof.Machine
end

section
namespace Sys2Proof.Machine

theorem reg_of_regs_nil {s : State} (h : s.regs = []) (r : Reg) : s.reg r = r.reset := by
  unfold State.reg
  rw [h]
  rfl

theorem owner_of_keyOk {s : State} {block : List Byte} (h : s.keyOk block = true) :
    s.fuses.owner (ownerSlot block) = some (ownerHash block) := by
  simp only [State.keyOk, Bool.and_eq_true, decide_eq_true_eq] at h
  obtain ⟨⟨hown, -⟩, -⟩ := h
  exact hown

theorem keyOk_of_checkCoat {s : State} {kind staged : Nat} {bs : List Byte} {l : List CoatSec}
    (h : s.checkCoat kind staged bs = .ok l) : s.keyOk (cBytes bs 256 272) = true := by
  by_contra hkey
  rw [Bool.not_eq_true] at hkey
  simp only [State.checkCoat, hkey, Bool.not_false, if_true] at h
  split_ifs at h

/-- With both slots empty no number names an owner, in the slots or beyond them. -/
theorem owner_of_slots_empty {f : Fuses} (h0 : f.owner0 = none) (h1 : f.owner1 = none) (n : Nat) :
    f.owner n = none := by
  simp [Fuses.owner, h0, h1]

/-- Settles O3: in cold reset the register file lists nothing, and a coat that passed the checks would have passed step 3
of R416, which finds its key in a filled slot. -/
theorem resetLeavesThePartAsDelivered : Obligations.ResetLeavesThePartAsDelivered := by
  unfold Obligations.ResetLeavesThePartAsDelivered
  refine ⟨⟨reg_of_regs_nil rfl, rfl, rfl, rfl, rfl, rfl, rfl, rfl, rfl⟩, ?_⟩
  intro s kind staged bs l h0 h1 hpass
  have hfilled := owner_of_keyOk (keyOk_of_checkCoat hpass)
  rw [owner_of_slots_empty h0 h1] at hfilled
  cases hfilled

end Sys2Proof.Machine
end

section
/-! PROOFS. What an effect changes: the fields of the state, and the registers by their addresses. Effects are composed, so
each operation's changes are told once and those of what uses it follow. The reports to a host and the records of faults
stand first: everything makes them (R161, R170, R193 to R196, R458, R460). -/

namespace Sys2Proof.Machine

-- The proofs are elaborated one after another: in parallel their threads' stacks need more memory than a compile may have.
set_option Elab.async false

/-! ### Registers outside the one written -/

theorem reg_wf_other (s : State) (r q : Reg) (hi lo v : Nat) (h : q.addr ≠ r.addr) : (s.wf r hi lo v).reg q = s.reg q :=
  reg_setReg_other _ _ _ _ h

theorem reg_wb_other (s : State) (r q : Reg) (i : Nat) (b : Bool) (h : q.addr ≠ r.addr) : (s.wb r i b).reg q = s.reg q :=
  reg_setReg_other _ _ _ _ h

theorem reg_bump_other (s : State) (r q : Reg) (hi lo n : Nat) (h : q.addr ≠ r.addr) : (s.bump r hi lo n).reg q = s.reg q :=
  reg_setReg_other _ _ _ _ h

theorem rb_wf_field (s : State) (r : Reg) (hi lo v i : Nat) (hn : i < 64) (h : hi < i ∨ i < lo) :
    (s.wf r hi lo v).rb r i = s.rb r i := by
  rw [State.rb, State.rb, State.wf, reg_setReg_same, bit_setFld_other _ _ _ _ _ hn h]

theorem rf_wb_field (s : State) (r : Reg) (i hi lo : Nat) (b : Bool) (hn : hi < 64) (h : i < lo ∨ hi < i) :
    (s.wb r i b).rf r hi lo = s.rf r hi lo := rf_wf_field _ _ _ _ _ _ _ hn h

theorem rf_wb_other (s : State) (r q : Reg) (i hi lo : Nat) (b : Bool) (h : q.addr ≠ r.addr) :
    (s.wb r i b).rf q hi lo = s.rf q hi lo := rf_wf_other _ _ _ _ _ _ _ _ h

/-- Every block lies at a multiple of 64 KiB (R485). -/
theorem addr_mod (r : Reg) : r.addr % 0x10000 = r.off % 0x10000 := by
  have hb : ∀ b, blockBase b % 0x10000 = 0 := fun b => by
    cases b <;> simp only [blockBase] <;> omega
  have := hb r.block
  simp only [Reg.addr]
  omega

/-- Registers at other offsets in their 64 KiB lie at other addresses. -/
theorem addr_ne_of_off {q r : Reg} (o o' : Nat) (hq : q.off = o) (hr : r.off = o')
    (h : o % 0x10000 ≠ o' % 0x10000 := by decide) : q.addr ≠ r.addr := fun e =>
  h (by rw [← hq, ← hr, ← addr_mod, ← addr_mod, e])

/-! ### Fields that change and fields that stay -/

/-- The fields of the state. Of the Tack Room's working state it is told whether all of it stays (`tack`), all but what it
keeps of faults (`tackWork`), and whether no topcoat is on its way where none was (`calmCoat`). -/
inductive Field where
  | pending | regs | hbm | buf | clk | nt | tk | coreOn | serial | draws | frees | out | pmFix | pmSeen | ftPosted
  | shares | ctxEast | ht | eqs | cqs | trigs | ops | ctxs | uses | xfers | walks | xl | invals | mes | ifl | tfl
  | hatoms | inject | eject | toInit | due | posts | todo | groups | insts | collUp | collDown | engOff | locks
  | tmWrote | grooms | runqs | lanes | cals | ports | hll | worms | epochSeen | waits | newBank | oldBank
  | loadedEpoch | retired | holdPort | holdHost | holdDom | holdSince | goodSince | ppsAt | ppsNt | armedAt | thetas
  | ntFrac | ppsOut | runs | pins | flash | fuses | mbox | dir | hints | restart | captures | paceAt | stewardAt
  | coreAccs | tack | tackWork | calmCoat
  deriving DecidableEq, Repr

/-- Field `f` of `s` stays in `t`. -/
abbrev Field.Same (f : Field) (s t : State) : Prop :=
  match f with
  | .pending => t.pending = s.pending
  | .regs => t.regs = s.regs
  | .hbm => t.hbm = s.hbm
  | .buf => t.buf = s.buf
  | .clk => t.clk = s.clk
  | .nt => t.nt = s.nt
  | .tk => t.tk = s.tk
  | .coreOn => t.coreOn = s.coreOn
  | .serial => t.serial = s.serial
  | .draws => t.draws = s.draws
  | .frees => t.frees = s.frees
  | .out => t.out = s.out
  | .pmFix => t.pmFix = s.pmFix
  | .pmSeen => t.pmSeen = s.pmSeen
  | .ftPosted => t.ftPosted = s.ftPosted
  | .shares => t.shares = s.shares
  | .ctxEast => t.ctxEast = s.ctxEast
  | .ht => t.ht = s.ht
  | .eqs => t.eqs = s.eqs
  | .cqs => t.cqs = s.cqs
  | .trigs => t.trigs = s.trigs
  | .ops => t.ops = s.ops
  | .ctxs => t.ctxs = s.ctxs
  | .uses => t.uses = s.uses
  | .xfers => t.xfers = s.xfers
  | .walks => t.walks = s.walks
  | .xl => t.xl = s.xl
  | .invals => t.invals = s.invals
  | .mes => t.mes = s.mes
  | .ifl => t.ifl = s.ifl
  | .tfl => t.tfl = s.tfl
  | .hatoms => t.hatoms = s.hatoms
  | .inject => t.inject = s.inject
  | .eject => t.eject = s.eject
  | .toInit => t.toInit = s.toInit
  | .due => t.due = s.due
  | .posts => t.posts = s.posts
  | .todo => t.todo = s.todo
  | .groups => t.groups = s.groups
  | .insts => t.insts = s.insts
  | .collUp => t.collUp = s.collUp
  | .collDown => t.collDown = s.collDown
  | .engOff => t.engOff = s.engOff
  | .locks => t.locks = s.locks
  | .tmWrote => t.tmWrote = s.tmWrote
  | .grooms => t.grooms = s.grooms
  | .runqs => t.runqs = s.runqs
  | .lanes => t.lanes = s.lanes
  | .cals => t.cals = s.cals
  | .ports => t.ports = s.ports
  | .hll => t.hll = s.hll
  | .worms => t.worms = s.worms
  | .epochSeen => t.epochSeen = s.epochSeen
  | .waits => t.waits = s.waits
  | .newBank => t.newBank = s.newBank
  | .oldBank => t.oldBank = s.oldBank
  | .loadedEpoch => t.loadedEpoch = s.loadedEpoch
  | .retired => t.retired = s.retired
  | .holdPort => t.holdPort = s.holdPort
  | .holdHost => t.holdHost = s.holdHost
  | .holdDom => t.holdDom = s.holdDom
  | .holdSince => t.holdSince = s.holdSince
  | .goodSince => t.goodSince = s.goodSince
  | .ppsAt => t.ppsAt = s.ppsAt
  | .ppsNt => t.ppsNt = s.ppsNt
  | .armedAt => t.armedAt = s.armedAt
  | .thetas => t.thetas = s.thetas
  | .ntFrac => t.ntFrac = s.ntFrac
  | .ppsOut => t.ppsOut = s.ppsOut
  | .runs => t.runs = s.runs
  | .pins => t.pins = s.pins
  | .flash => t.flash = s.flash
  | .fuses => t.fuses = s.fuses
  | .mbox => t.mbox = s.mbox
  | .dir => t.dir = s.dir
  | .hints => t.hints = s.hints
  | .restart => t.restart = s.restart
  | .captures => t.captures = s.captures
  | .paceAt => t.paceAt = s.paceAt
  | .stewardAt => t.stewardAt = s.stewardAt
  | .coreAccs => t.coreAccs = s.coreAccs
  | .tack => t.tack = s.tack
  | .tackWork => t.tack = { s.tack with noteAt := t.tack.noteAt, coat := t.tack.coat }
  | .calmCoat => s.tack.coat = none → t.tack.coat = none

/-- From `s` to `t` only fields in `F` change, and of the registers only those whose addresses `P` admits. -/
structure State.Alters (s t : State) (F : List Field) (P : Nat → Prop) : Prop where
  same : ∀ f, f ∉ F → f.Same s t
  reg : ∀ q : Reg, ¬ P q.addr → t.reg q = s.reg q

namespace State.Alters

variable {s t u : State} {F G : List Field} {P Q : Nat → Prop}

theorem refl (s : State) : s.Alters s F P := ⟨fun f _ => by
  cases f
  case calmCoat => exact id
  all_goals rfl, fun _ _ => rfl⟩

theorem trans (h : s.Alters t F P) (k : t.Alters u F P) : s.Alters u F P := by
  refine ⟨fun f hf => ?_, fun q hq => (k.reg q hq).trans (h.reg q hq)⟩
  have h1 := h.same f hf
  have h2 := k.same f hf
  cases f
  case tackWork => exact h2.trans (by rw [h1])
  case calmCoat => exact h2 ∘ h1
  all_goals exact h2.trans h1

theorem mono (h : s.Alters t F P) (hF : F ⊆ G := by decide) (hP : ∀ a, P a → Q a := by exact fun _ h => h) : s.Alters t G Q :=
  ⟨fun f hf => h.same f fun e => hf (hF e), fun q hq => h.reg q fun e => hq (hP _ e)⟩

theorem ite {c : Prop} [Decidable c] (ht : s.Alters t F P) (hu : s.Alters u F P) : s.Alters (if c then t else u) F P := by
  split
  · exact ht
  · exact hu

theorem foldl {α : Type} {f : State → α → State} (h : ∀ t x, State.Alters t (f t x) F P) (xs : List α) (s : State) :
    s.Alters (xs.foldl f s) F P :=
  List.foldlRecOn (motive := fun t => s.Alters t F P) xs f (refl s) fun t ht x _ => ht.trans (h t x)

theorem rf (h : s.Alters t F P) {q : Reg} (hq : ¬ P q.addr) (hi lo : Nat) : t.rf q hi lo = s.rf q hi lo := by
  rw [State.rf, State.rf, h.reg q hq]

theorem rb (h : s.Alters t F P) {q : Reg} (hq : ¬ P q.addr) (i : Nat) : t.rb q i = s.rb q i := by
  rw [State.rb, State.rb, h.reg q hq]

theorem setReg (s : State) {r : Reg} (v : Word) (hP : P r.addr) (hF : .regs ∈ F := by decide) :
    s.Alters (s.setReg r v) F P :=
  ⟨fun f hf => by cases f <;> first | rfl | exact id | exact absurd hF hf,
    fun _ hq => reg_setReg_other _ _ _ _ fun e => hq (e ▸ hP)⟩

/-- A change of the Tack Room's working state that brings no topcoat on its way. -/
theorem modTack (s : State) (f : Tack → Tack) (hcoat : s.tack.coat = none → (f s.tack).coat = none)
    (hF : [.tack, .tackWork] ⊆ F := by decide) : s.Alters (s.modTack f) F P :=
  ⟨fun x hx => by
    cases x
    case tack => exact absurd (hF (by decide)) hx
    case tackWork => exact absurd (hF (by decide)) hx
    case calmCoat => exact hcoat
    all_goals rfl, fun _ _ => rfl⟩

/-! One lemma for each field: it stays where `F` does not name it, and a change of it alone. -/

theorem pending (h : s.Alters t F P) (hf : .pending ∉ F := by decide) : t.pending = s.pending := h.same .pending hf
theorem regs (h : s.Alters t F P) (hf : .regs ∉ F := by decide) : t.regs = s.regs := h.same .regs hf
theorem hbm (h : s.Alters t F P) (hf : .hbm ∉ F := by decide) : t.hbm = s.hbm := h.same .hbm hf
theorem buf (h : s.Alters t F P) (hf : .buf ∉ F := by decide) : t.buf = s.buf := h.same .buf hf
theorem clk (h : s.Alters t F P) (hf : .clk ∉ F := by decide) : t.clk = s.clk := h.same .clk hf
theorem nt (h : s.Alters t F P) (hf : .nt ∉ F := by decide) : t.nt = s.nt := h.same .nt hf
theorem tk (h : s.Alters t F P) (hf : .tk ∉ F := by decide) : t.tk = s.tk := h.same .tk hf
theorem coreOn (h : s.Alters t F P) (hf : .coreOn ∉ F := by decide) : t.coreOn = s.coreOn := h.same .coreOn hf
theorem serial (h : s.Alters t F P) (hf : .serial ∉ F := by decide) : t.serial = s.serial := h.same .serial hf
theorem draws (h : s.Alters t F P) (hf : .draws ∉ F := by decide) : t.draws = s.draws := h.same .draws hf
theorem frees (h : s.Alters t F P) (hf : .frees ∉ F := by decide) : t.frees = s.frees := h.same .frees hf
theorem out (h : s.Alters t F P) (hf : .out ∉ F := by decide) : t.out = s.out := h.same .out hf
theorem pmFix (h : s.Alters t F P) (hf : .pmFix ∉ F := by decide) : t.pmFix = s.pmFix := h.same .pmFix hf
theorem pmSeen (h : s.Alters t F P) (hf : .pmSeen ∉ F := by decide) : t.pmSeen = s.pmSeen := h.same .pmSeen hf
theorem ftPosted (h : s.Alters t F P) (hf : .ftPosted ∉ F := by decide) : t.ftPosted = s.ftPosted := h.same .ftPosted hf
theorem shares (h : s.Alters t F P) (hf : .shares ∉ F := by decide) : t.shares = s.shares := h.same .shares hf
theorem ctxEast (h : s.Alters t F P) (hf : .ctxEast ∉ F := by decide) : t.ctxEast = s.ctxEast := h.same .ctxEast hf
theorem ht (h : s.Alters t F P) (hf : .ht ∉ F := by decide) : t.ht = s.ht := h.same .ht hf
theorem eqs (h : s.Alters t F P) (hf : .eqs ∉ F := by decide) : t.eqs = s.eqs := h.same .eqs hf
theorem cqs (h : s.Alters t F P) (hf : .cqs ∉ F := by decide) : t.cqs = s.cqs := h.same .cqs hf
theorem trigs (h : s.Alters t F P) (hf : .trigs ∉ F := by decide) : t.trigs = s.trigs := h.same .trigs hf
theorem ops (h : s.Alters t F P) (hf : .ops ∉ F := by decide) : t.ops = s.ops := h.same .ops hf
theorem ctxs (h : s.Alters t F P) (hf : .ctxs ∉ F := by decide) : t.ctxs = s.ctxs := h.same .ctxs hf
theorem uses (h : s.Alters t F P) (hf : .uses ∉ F := by decide) : t.uses = s.uses := h.same .uses hf
theorem xfers (h : s.Alters t F P) (hf : .xfers ∉ F := by decide) : t.xfers = s.xfers := h.same .xfers hf
theorem walks (h : s.Alters t F P) (hf : .walks ∉ F := by decide) : t.walks = s.walks := h.same .walks hf
theorem xl (h : s.Alters t F P) (hf : .xl ∉ F := by decide) : t.xl = s.xl := h.same .xl hf
theorem invals (h : s.Alters t F P) (hf : .invals ∉ F := by decide) : t.invals = s.invals := h.same .invals hf
theorem mes (h : s.Alters t F P) (hf : .mes ∉ F := by decide) : t.mes = s.mes := h.same .mes hf
theorem ifl (h : s.Alters t F P) (hf : .ifl ∉ F := by decide) : t.ifl = s.ifl := h.same .ifl hf
theorem tfl (h : s.Alters t F P) (hf : .tfl ∉ F := by decide) : t.tfl = s.tfl := h.same .tfl hf
theorem hatoms (h : s.Alters t F P) (hf : .hatoms ∉ F := by decide) : t.hatoms = s.hatoms := h.same .hatoms hf
theorem inject (h : s.Alters t F P) (hf : .inject ∉ F := by decide) : t.inject = s.inject := h.same .inject hf
theorem eject (h : s.Alters t F P) (hf : .eject ∉ F := by decide) : t.eject = s.eject := h.same .eject hf
theorem toInit (h : s.Alters t F P) (hf : .toInit ∉ F := by decide) : t.toInit = s.toInit := h.same .toInit hf
theorem due (h : s.Alters t F P) (hf : .due ∉ F := by decide) : t.due = s.due := h.same .due hf
theorem posts (h : s.Alters t F P) (hf : .posts ∉ F := by decide) : t.posts = s.posts := h.same .posts hf
theorem todo (h : s.Alters t F P) (hf : .todo ∉ F := by decide) : t.todo = s.todo := h.same .todo hf
theorem groups (h : s.Alters t F P) (hf : .groups ∉ F := by decide) : t.groups = s.groups := h.same .groups hf
theorem insts (h : s.Alters t F P) (hf : .insts ∉ F := by decide) : t.insts = s.insts := h.same .insts hf
theorem collUp (h : s.Alters t F P) (hf : .collUp ∉ F := by decide) : t.collUp = s.collUp := h.same .collUp hf
theorem collDown (h : s.Alters t F P) (hf : .collDown ∉ F := by decide) : t.collDown = s.collDown := h.same .collDown hf
theorem engOff (h : s.Alters t F P) (hf : .engOff ∉ F := by decide) : t.engOff = s.engOff := h.same .engOff hf
theorem locks (h : s.Alters t F P) (hf : .locks ∉ F := by decide) : t.locks = s.locks := h.same .locks hf
theorem tmWrote (h : s.Alters t F P) (hf : .tmWrote ∉ F := by decide) : t.tmWrote = s.tmWrote := h.same .tmWrote hf
theorem grooms (h : s.Alters t F P) (hf : .grooms ∉ F := by decide) : t.grooms = s.grooms := h.same .grooms hf
theorem runqs (h : s.Alters t F P) (hf : .runqs ∉ F := by decide) : t.runqs = s.runqs := h.same .runqs hf
theorem lanes (h : s.Alters t F P) (hf : .lanes ∉ F := by decide) : t.lanes = s.lanes := h.same .lanes hf
theorem cals (h : s.Alters t F P) (hf : .cals ∉ F := by decide) : t.cals = s.cals := h.same .cals hf
theorem ports (h : s.Alters t F P) (hf : .ports ∉ F := by decide) : t.ports = s.ports := h.same .ports hf
theorem hll (h : s.Alters t F P) (hf : .hll ∉ F := by decide) : t.hll = s.hll := h.same .hll hf
theorem worms (h : s.Alters t F P) (hf : .worms ∉ F := by decide) : t.worms = s.worms := h.same .worms hf
theorem epochSeen (h : s.Alters t F P) (hf : .epochSeen ∉ F := by decide) : t.epochSeen = s.epochSeen := h.same .epochSeen hf
theorem waits (h : s.Alters t F P) (hf : .waits ∉ F := by decide) : t.waits = s.waits := h.same .waits hf
theorem newBank (h : s.Alters t F P) (hf : .newBank ∉ F := by decide) : t.newBank = s.newBank := h.same .newBank hf
theorem oldBank (h : s.Alters t F P) (hf : .oldBank ∉ F := by decide) : t.oldBank = s.oldBank := h.same .oldBank hf
theorem loadedEpoch (h : s.Alters t F P) (hf : .loadedEpoch ∉ F := by decide) : t.loadedEpoch = s.loadedEpoch := h.same .loadedEpoch hf
theorem retired (h : s.Alters t F P) (hf : .retired ∉ F := by decide) : t.retired = s.retired := h.same .retired hf
theorem holdPort (h : s.Alters t F P) (hf : .holdPort ∉ F := by decide) : t.holdPort = s.holdPort := h.same .holdPort hf
theorem holdHost (h : s.Alters t F P) (hf : .holdHost ∉ F := by decide) : t.holdHost = s.holdHost := h.same .holdHost hf
theorem holdDom (h : s.Alters t F P) (hf : .holdDom ∉ F := by decide) : t.holdDom = s.holdDom := h.same .holdDom hf
theorem holdSince (h : s.Alters t F P) (hf : .holdSince ∉ F := by decide) : t.holdSince = s.holdSince := h.same .holdSince hf
theorem goodSince (h : s.Alters t F P) (hf : .goodSince ∉ F := by decide) : t.goodSince = s.goodSince := h.same .goodSince hf
theorem ppsAt (h : s.Alters t F P) (hf : .ppsAt ∉ F := by decide) : t.ppsAt = s.ppsAt := h.same .ppsAt hf
theorem ppsNt (h : s.Alters t F P) (hf : .ppsNt ∉ F := by decide) : t.ppsNt = s.ppsNt := h.same .ppsNt hf
theorem armedAt (h : s.Alters t F P) (hf : .armedAt ∉ F := by decide) : t.armedAt = s.armedAt := h.same .armedAt hf
theorem thetas (h : s.Alters t F P) (hf : .thetas ∉ F := by decide) : t.thetas = s.thetas := h.same .thetas hf
theorem ntFrac (h : s.Alters t F P) (hf : .ntFrac ∉ F := by decide) : t.ntFrac = s.ntFrac := h.same .ntFrac hf
theorem ppsOut (h : s.Alters t F P) (hf : .ppsOut ∉ F := by decide) : t.ppsOut = s.ppsOut := h.same .ppsOut hf
theorem runs (h : s.Alters t F P) (hf : .runs ∉ F := by decide) : t.runs = s.runs := h.same .runs hf
theorem pins (h : s.Alters t F P) (hf : .pins ∉ F := by decide) : t.pins = s.pins := h.same .pins hf
theorem flash (h : s.Alters t F P) (hf : .flash ∉ F := by decide) : t.flash = s.flash := h.same .flash hf
theorem fuses (h : s.Alters t F P) (hf : .fuses ∉ F := by decide) : t.fuses = s.fuses := h.same .fuses hf
theorem mbox (h : s.Alters t F P) (hf : .mbox ∉ F := by decide) : t.mbox = s.mbox := h.same .mbox hf
theorem dir (h : s.Alters t F P) (hf : .dir ∉ F := by decide) : t.dir = s.dir := h.same .dir hf
theorem hints (h : s.Alters t F P) (hf : .hints ∉ F := by decide) : t.hints = s.hints := h.same .hints hf
theorem restart (h : s.Alters t F P) (hf : .restart ∉ F := by decide) : t.restart = s.restart := h.same .restart hf
theorem captures (h : s.Alters t F P) (hf : .captures ∉ F := by decide) : t.captures = s.captures := h.same .captures hf
theorem paceAt (h : s.Alters t F P) (hf : .paceAt ∉ F := by decide) : t.paceAt = s.paceAt := h.same .paceAt hf
theorem stewardAt (h : s.Alters t F P) (hf : .stewardAt ∉ F := by decide) : t.stewardAt = s.stewardAt := h.same .stewardAt hf
theorem coreAccs (h : s.Alters t F P) (hf : .coreAccs ∉ F := by decide) : t.coreAccs = s.coreAccs := h.same .coreAccs hf
theorem tack (h : s.Alters t F P) (hf : .tack ∉ F := by decide) : t.tack = s.tack := h.same .tack hf
theorem tackWork (h : s.Alters t F P) (hf : .tackWork ∉ F := by decide) :
    t.tack = { s.tack with noteAt := t.tack.noteAt, coat := t.tack.coat } := h.same .tackWork hf
theorem calmCoat (h : s.Alters t F P) (hc : s.tack.coat = none) (hf : .calmCoat ∉ F := by decide) : t.tack.coat = none :=
  h.same .calmCoat hf hc

theorem calm (h : s.Alters t F P) (hc : s.Calm) (htodo : .todo ∉ F := by decide) (hcoat : .calmCoat ∉ F := by decide) : t.Calm :=
  ⟨(h.todo htodo).trans hc.1, h.calmCoat hc.2 hcoat⟩

theorem put_pending (s : State) (x : List Instr) (h : .pending ∈ F := by decide) : s.Alters { s with pending := x } F P :=
  ⟨fun f hf => by cases f <;> first | rfl | exact id | exact absurd h hf, fun _ _ => rfl⟩
theorem put_hbm (s : State) (x : List Host.Cell) (h : .hbm ∈ F := by decide) : s.Alters { s with hbm := x } F P :=
  ⟨fun f hf => by cases f <;> first | rfl | exact id | exact absurd h hf, fun _ _ => rfl⟩
theorem put_buf (s : State) (x : List Host.Cell) (h : .buf ∈ F := by decide) : s.Alters { s with buf := x } F P :=
  ⟨fun f hf => by cases f <;> first | rfl | exact id | exact absurd h hf, fun _ _ => rfl⟩
theorem put_clk (s : State) (x : Nat) (h : .clk ∈ F := by decide) : s.Alters { s with clk := x } F P :=
  ⟨fun f hf => by cases f <;> first | rfl | exact id | exact absurd h hf, fun _ _ => rfl⟩
theorem put_nt (s : State) (x : BitVec 64) (h : .nt ∈ F := by decide) : s.Alters { s with nt := x } F P :=
  ⟨fun f hf => by cases f <;> first | rfl | exact id | exact absurd h hf, fun _ _ => rfl⟩
theorem put_tk (s : State) (x : Nat) (h : .tk ∈ F := by decide) : s.Alters { s with tk := x } F P :=
  ⟨fun f hf => by cases f <;> first | rfl | exact id | exact absurd h hf, fun _ _ => rfl⟩
theorem put_coreOn (s : State) (x : Bool) (h : .coreOn ∈ F := by decide) : s.Alters { s with coreOn := x } F P :=
  ⟨fun f hf => by cases f <;> first | rfl | exact id | exact absurd h hf, fun _ _ => rfl⟩
theorem put_serial (s : State) (x : Nat) (h : .serial ∈ F := by decide) : s.Alters { s with serial := x } F P :=
  ⟨fun f hf => by cases f <;> first | rfl | exact id | exact absurd h hf, fun _ _ => rfl⟩
theorem put_draws (s : State) (x : Nat) (h : .draws ∈ F := by decide) : s.Alters { s with draws := x } F P :=
  ⟨fun f hf => by cases f <;> first | rfl | exact id | exact absurd h hf, fun _ _ => rfl⟩
theorem put_frees (s : State) (x : Nat) (h : .frees ∈ F := by decide) : s.Alters { s with frees := x } F P :=
  ⟨fun f hf => by cases f <;> first | rfl | exact id | exact absurd h hf, fun _ _ => rfl⟩
theorem put_out (s : State) (x : List Emission) (h : .out ∈ F := by decide) : s.Alters { s with out := x } F P :=
  ⟨fun f hf => by cases f <;> first | rfl | exact id | exact absurd h hf, fun _ _ => rfl⟩
theorem put_pmFix (s : State) (x : Tab PmFix) (h : .pmFix ∈ F := by decide) : s.Alters { s with pmFix := x } F P :=
  ⟨fun f hf => by cases f <;> first | rfl | exact id | exact absurd h hf, fun _ _ => rfl⟩
theorem put_pmSeen (s : State) (x : Tab Bool) (h : .pmSeen ∈ F := by decide) : s.Alters { s with pmSeen := x } F P :=
  ⟨fun f hf => by cases f <;> first | rfl | exact id | exact absurd h hf, fun _ _ => rfl⟩
theorem put_ftPosted (s : State) (x : Tab Nat) (h : .ftPosted ∈ F := by decide) : s.Alters { s with ftPosted := x } F P :=
  ⟨fun f hf => by cases f <;> first | rfl | exact id | exact absurd h hf, fun _ _ => rfl⟩
theorem put_shares (s : State) (x : Tab (Nat × Nat)) (h : .shares ∈ F := by decide) : s.Alters { s with shares := x } F P :=
  ⟨fun f hf => by cases f <;> first | rfl | exact id | exact absurd h hf, fun _ _ => rfl⟩
theorem put_ctxEast (s : State) (x : Nat) (h : .ctxEast ∈ F := by decide) : s.Alters { s with ctxEast := x } F P :=
  ⟨fun f hf => by cases f <;> first | rfl | exact id | exact absurd h hf, fun _ _ => rfl⟩
theorem put_ht (s : State) (x : Tab HostTl) (h : .ht ∈ F := by decide) : s.Alters { s with ht := x } F P :=
  ⟨fun f hf => by cases f <;> first | rfl | exact id | exact absurd h hf, fun _ _ => rfl⟩
theorem put_eqs (s : State) (x : Tab Eq) (h : .eqs ∈ F := by decide) : s.Alters { s with eqs := x } F P :=
  ⟨fun f hf => by cases f <;> first | rfl | exact id | exact absurd h hf, fun _ _ => rfl⟩
theorem put_cqs (s : State) (x : Tab Cq) (h : .cqs ∈ F := by decide) : s.Alters { s with cqs := x } F P :=
  ⟨fun f hf => by cases f <;> first | rfl | exact id | exact absurd h hf, fun _ _ => rfl⟩
theorem put_trigs (s : State) (x : List Trig) (h : .trigs ∈ F := by decide) : s.Alters { s with trigs := x } F P :=
  ⟨fun f hf => by cases f <;> first | rfl | exact id | exact absurd h hf, fun _ _ => rfl⟩
theorem put_ops (s : State) (x : Tab Op) (h : .ops ∈ F := by decide) : s.Alters { s with ops := x } F P :=
  ⟨fun f hf => by cases f <;> first | rfl | exact id | exact absurd h hf, fun _ _ => rfl⟩
theorem put_ctxs (s : State) (x : Tab Ctx) (h : .ctxs ∈ F := by decide) : s.Alters { s with ctxs := x } F P :=
  ⟨fun f hf => by cases f <;> first | rfl | exact id | exact absurd h hf, fun _ _ => rfl⟩
theorem put_uses (s : State) (x : Tab Use) (h : .uses ∈ F := by decide) : s.Alters { s with uses := x } F P :=
  ⟨fun f hf => by cases f <;> first | rfl | exact id | exact absurd h hf, fun _ _ => rfl⟩
theorem put_xfers (s : State) (x : Tab Xfer) (h : .xfers ∈ F := by decide) : s.Alters { s with xfers := x } F P :=
  ⟨fun f hf => by cases f <;> first | rfl | exact id | exact absurd h hf, fun _ _ => rfl⟩
theorem put_walks (s : State) (x : Tab Walk) (h : .walks ∈ F := by decide) : s.Alters { s with walks := x } F P :=
  ⟨fun f hf => by cases f <;> first | rfl | exact id | exact absurd h hf, fun _ _ => rfl⟩
theorem put_xl (s : State) (x : Tab (List XlEntry)) (h : .xl ∈ F := by decide) : s.Alters { s with xl := x } F P :=
  ⟨fun f hf => by cases f <;> first | rfl | exact id | exact absurd h hf, fun _ _ => rfl⟩
theorem put_invals (s : State) (x : Tab Inval) (h : .invals ∈ F := by decide) : s.Alters { s with invals := x } F P :=
  ⟨fun f hf => by cases f <;> first | rfl | exact id | exact absurd h hf, fun _ _ => rfl⟩
theorem put_mes (s : State) (x : Tab Me) (h : .mes ∈ F := by decide) : s.Alters { s with mes := x } F P :=
  ⟨fun f hf => by cases f <;> first | rfl | exact id | exact absurd h hf, fun _ _ => rfl⟩
theorem put_ifl (s : State) (x : Tab IFlow) (h : .ifl ∈ F := by decide) : s.Alters { s with ifl := x } F P :=
  ⟨fun f hf => by cases f <;> first | rfl | exact id | exact absurd h hf, fun _ _ => rfl⟩
theorem put_tfl (s : State) (x : Tab TFlow) (h : .tfl ∈ F := by decide) : s.Alters { s with tfl := x } F P :=
  ⟨fun f hf => by cases f <;> first | rfl | exact id | exact absurd h hf, fun _ _ => rfl⟩
theorem put_hatoms (s : State) (x : List HostAtom) (h : .hatoms ∈ F := by decide) : s.Alters { s with hatoms := x } F P :=
  ⟨fun f hf => by cases f <;> first | rfl | exact id | exact absurd h hf, fun _ _ => rfl⟩
theorem put_inject (s : State) (x : Tab (List Pkt)) (h : .inject ∈ F := by decide) : s.Alters { s with inject := x } F P :=
  ⟨fun f hf => by cases f <;> first | rfl | exact id | exact absurd h hf, fun _ _ => rfl⟩
theorem put_eject (s : State) (x : List Ejected) (h : .eject ∈ F := by decide) : s.Alters { s with eject := x } F P :=
  ⟨fun f hf => by cases f <;> first | rfl | exact id | exact absurd h hf, fun _ _ => rfl⟩
theorem put_toInit (s : State) (x : List Pkt) (h : .toInit ∈ F := by decide) : s.Alters { s with toInit := x } F P :=
  ⟨fun f hf => by cases f <;> first | rfl | exact id | exact absurd h hf, fun _ _ => rfl⟩
theorem put_due (s : State) (x : List Due) (h : .due ∈ F := by decide) : s.Alters { s with due := x } F P :=
  ⟨fun f hf => by cases f <;> first | rfl | exact id | exact absurd h hf, fun _ _ => rfl⟩
theorem put_posts (s : State) (x : Tab (List Post)) (h : .posts ∈ F := by decide) : s.Alters { s with posts := x } F P :=
  ⟨fun f hf => by cases f <;> first | rfl | exact id | exact absurd h hf, fun _ _ => rfl⟩
theorem put_todo (s : State) (x : List Task) (h : .todo ∈ F := by decide) : s.Alters { s with todo := x } F P :=
  ⟨fun f hf => by cases f <;> first | rfl | exact id | exact absurd h hf, fun _ _ => rfl⟩
theorem put_groups (s : State) (x : Tab ClGroup) (h : .groups ∈ F := by decide) : s.Alters { s with groups := x } F P :=
  ⟨fun f hf => by cases f <;> first | rfl | exact id | exact absurd h hf, fun _ _ => rfl⟩
theorem put_insts (s : State) (x : Tab ClInst) (h : .insts ∈ F := by decide) : s.Alters { s with insts := x } F P :=
  ⟨fun f hf => by cases f <;> first | rfl | exact id | exact absurd h hf, fun _ _ => rfl⟩
theorem put_collUp (s : State) (x : Tab (List Pkt)) (h : .collUp ∈ F := by decide) : s.Alters { s with collUp := x } F P :=
  ⟨fun f hf => by cases f <;> first | rfl | exact id | exact absurd h hf, fun _ _ => rfl⟩
theorem put_collDown (s : State) (x : Tab (List Pkt)) (h : .collDown ∈ F := by decide) : s.Alters { s with collDown := x } F P :=
  ⟨fun f hf => by cases f <;> first | rfl | exact id | exact absurd h hf, fun _ _ => rfl⟩
theorem put_engOff (s : State) (x : List Nat) (h : .engOff ∈ F := by decide) : s.Alters { s with engOff := x } F P :=
  ⟨fun f hf => by cases f <;> first | rfl | exact id | exact absurd h hf, fun _ _ => rfl⟩
theorem put_locks (s : State) (x : Tab Lock) (h : .locks ∈ F := by decide) : s.Alters { s with locks := x } F P :=
  ⟨fun f hf => by cases f <;> first | rfl | exact id | exact absurd h hf, fun _ _ => rfl⟩
theorem put_tmWrote (s : State) (x : Tab Nat) (h : .tmWrote ∈ F := by decide) : s.Alters { s with tmWrote := x } F P :=
  ⟨fun f hf => by cases f <;> first | rfl | exact id | exact absurd h hf, fun _ _ => rfl⟩
theorem put_grooms (s : State) (x : Tab Groom) (h : .grooms ∈ F := by decide) : s.Alters { s with grooms := x } F P :=
  ⟨fun f hf => by cases f <;> first | rfl | exact id | exact absurd h hf, fun _ _ => rfl⟩
theorem put_runqs (s : State) (x : Tab RunQ) (h : .runqs ∈ F := by decide) : s.Alters { s with runqs := x } F P :=
  ⟨fun f hf => by cases f <;> first | rfl | exact id | exact absurd h hf, fun _ _ => rfl⟩
theorem put_lanes (s : State) (x : Tab Lane) (h : .lanes ∈ F := by decide) : s.Alters { s with lanes := x } F P :=
  ⟨fun f hf => by cases f <;> first | rfl | exact id | exact absurd h hf, fun _ _ => rfl⟩
theorem put_cals (s : State) (x : Tab Word) (h : .cals ∈ F := by decide) : s.Alters { s with cals := x } F P :=
  ⟨fun f hf => by cases f <;> first | rfl | exact id | exact absurd h hf, fun _ _ => rfl⟩
theorem put_ports (s : State) (x : Tab PortSt) (h : .ports ∈ F := by decide) : s.Alters { s with ports := x } F P :=
  ⟨fun f hf => by cases f <;> first | rfl | exact id | exact absurd h hf, fun _ _ => rfl⟩
theorem put_hll (s : State) (x : Tab HostLl) (h : .hll ∈ F := by decide) : s.Alters { s with hll := x } F P :=
  ⟨fun f hf => by cases f <;> first | rfl | exact id | exact absurd h hf, fun _ _ => rfl⟩
theorem put_worms (s : State) (x : Tab Worm) (h : .worms ∈ F := by decide) : s.Alters { s with worms := x } F P :=
  ⟨fun f hf => by cases f <;> first | rfl | exact id | exact absurd h hf, fun _ _ => rfl⟩
theorem put_epochSeen (s : State) (x : Nat) (h : .epochSeen ∈ F := by decide) : s.Alters { s with epochSeen := x } F P :=
  ⟨fun f hf => by cases f <;> first | rfl | exact id | exact absurd h hf, fun _ _ => rfl⟩
theorem put_waits (s : State) (x : Tab Nat) (h : .waits ∈ F := by decide) : s.Alters { s with waits := x } F P :=
  ⟨fun f hf => by cases f <;> first | rfl | exact id | exact absurd h hf, fun _ _ => rfl⟩
theorem put_newBank (s : State) (x : Option RtBank) (h : .newBank ∈ F := by decide) : s.Alters { s with newBank := x } F P :=
  ⟨fun f hf => by cases f <;> first | rfl | exact id | exact absurd h hf, fun _ _ => rfl⟩
theorem put_oldBank (s : State) (x : Option RtBank) (h : .oldBank ∈ F := by decide) : s.Alters { s with oldBank := x } F P :=
  ⟨fun f hf => by cases f <;> first | rfl | exact id | exact absurd h hf, fun _ _ => rfl⟩
theorem put_loadedEpoch (s : State) (x : Nat) (h : .loadedEpoch ∈ F := by decide) : s.Alters { s with loadedEpoch := x } F P :=
  ⟨fun f hf => by cases f <;> first | rfl | exact id | exact absurd h hf, fun _ _ => rfl⟩
theorem put_retired (s : State) (x : Word) (h : .retired ∈ F := by decide) : s.Alters { s with retired := x } F P :=
  ⟨fun f hf => by cases f <;> first | rfl | exact id | exact absurd h hf, fun _ _ => rfl⟩
theorem put_holdPort (s : State) (x : Option Nat) (h : .holdPort ∈ F := by decide) : s.Alters { s with holdPort := x } F P :=
  ⟨fun f hf => by cases f <;> first | rfl | exact id | exact absurd h hf, fun _ _ => rfl⟩
theorem put_holdHost (s : State) (x : Option Nat) (h : .holdHost ∈ F := by decide) : s.Alters { s with holdHost := x } F P :=
  ⟨fun f hf => by cases f <;> first | rfl | exact id | exact absurd h hf, fun _ _ => rfl⟩
theorem put_holdDom (s : State) (x : Option Nat) (h : .holdDom ∈ F := by decide) : s.Alters { s with holdDom := x } F P :=
  ⟨fun f hf => by cases f <;> first | rfl | exact id | exact absurd h hf, fun _ _ => rfl⟩
theorem put_holdSince (s : State) (x : Option Nat) (h : .holdSince ∈ F := by decide) : s.Alters { s with holdSince := x } F P :=
  ⟨fun f hf => by cases f <;> first | rfl | exact id | exact absurd h hf, fun _ _ => rfl⟩
theorem put_goodSince (s : State) (x : Option Nat) (h : .goodSince ∈ F := by decide) : s.Alters { s with goodSince := x } F P :=
  ⟨fun f hf => by cases f <;> first | rfl | exact id | exact absurd h hf, fun _ _ => rfl⟩
theorem put_ppsAt (s : State) (x : Nat) (h : .ppsAt ∈ F := by decide) : s.Alters { s with ppsAt := x } F P :=
  ⟨fun f hf => by cases f <;> first | rfl | exact id | exact absurd h hf, fun _ _ => rfl⟩
theorem put_ppsNt (s : State) (x : Option (BitVec 64)) (h : .ppsNt ∈ F := by decide) : s.Alters { s with ppsNt := x } F P :=
  ⟨fun f hf => by cases f <;> first | rfl | exact id | exact absurd h hf, fun _ _ => rfl⟩
theorem put_armedAt (s : State) (x : Nat) (h : .armedAt ∈ F := by decide) : s.Alters { s with armedAt := x } F P :=
  ⟨fun f hf => by cases f <;> first | rfl | exact id | exact absurd h hf, fun _ _ => rfl⟩
theorem put_thetas (s : State) (x : List Int) (h : .thetas ∈ F := by decide) : s.Alters { s with thetas := x } F P :=
  ⟨fun f hf => by cases f <;> first | rfl | exact id | exact absurd h hf, fun _ _ => rfl⟩
theorem put_ntFrac (s : State) (x : Nat) (h : .ntFrac ∈ F := by decide) : s.Alters { s with ntFrac := x } F P :=
  ⟨fun f hf => by cases f <;> first | rfl | exact id | exact absurd h hf, fun _ _ => rfl⟩
theorem put_ppsOut (s : State) (x : Option Nat) (h : .ppsOut ∈ F := by decide) : s.Alters { s with ppsOut := x } F P :=
  ⟨fun f hf => by cases f <;> first | rfl | exact id | exact absurd h hf, fun _ _ => rfl⟩
theorem put_runs (s : State) (x : Nat) (h : .runs ∈ F := by decide) : s.Alters { s with runs := x } F P :=
  ⟨fun f hf => by cases f <;> first | rfl | exact id | exact absurd h hf, fun _ _ => rfl⟩
theorem put_pins (s : State) (x : Pins) (h : .pins ∈ F := by decide) : s.Alters { s with pins := x } F P :=
  ⟨fun f hf => by cases f <;> first | rfl | exact id | exact absurd h hf, fun _ _ => rfl⟩
theorem put_flash (s : State) (x : Flash) (h : .flash ∈ F := by decide) : s.Alters { s with flash := x } F P :=
  ⟨fun f hf => by cases f <;> first | rfl | exact id | exact absurd h hf, fun _ _ => rfl⟩
theorem put_fuses (s : State) (x : Fuses) (h : .fuses ∈ F := by decide) : s.Alters { s with fuses := x } F P :=
  ⟨fun f hf => by cases f <;> first | rfl | exact id | exact absurd h hf, fun _ _ => rfl⟩
theorem put_mbox (s : State) (x : Mbox) (h : .mbox ∈ F := by decide) : s.Alters { s with mbox := x } F P :=
  ⟨fun f hf => by cases f <;> first | rfl | exact id | exact absurd h hf, fun _ _ => rfl⟩
theorem put_dir (s : State) (x : Tab (List (Nat × LineState))) (h : .dir ∈ F := by decide) : s.Alters { s with dir := x } F P :=
  ⟨fun f hf => by cases f <;> first | rfl | exact id | exact absurd h hf, fun _ _ => rfl⟩
theorem put_hints (s : State) (x : Tab Nat) (h : .hints ∈ F := by decide) : s.Alters { s with hints := x } F P :=
  ⟨fun f hf => by cases f <;> first | rfl | exact id | exact absurd h hf, fun _ _ => rfl⟩
theorem put_restart (s : State) (x : Tab Nat) (h : .restart ∈ F := by decide) : s.Alters { s with restart := x } F P :=
  ⟨fun f hf => by cases f <;> first | rfl | exact id | exact absurd h hf, fun _ _ => rfl⟩
theorem put_captures (s : State) (x : List Capture) (h : .captures ∈ F := by decide) : s.Alters { s with captures := x } F P :=
  ⟨fun f hf => by cases f <;> first | rfl | exact id | exact absurd h hf, fun _ _ => rfl⟩
theorem put_paceAt (s : State) (x : Nat) (h : .paceAt ∈ F := by decide) : s.Alters { s with paceAt := x } F P :=
  ⟨fun f hf => by cases f <;> first | rfl | exact id | exact absurd h hf, fun _ _ => rfl⟩
theorem put_stewardAt (s : State) (x : Tab Nat) (h : .stewardAt ∈ F := by decide) : s.Alters { s with stewardAt := x } F P :=
  ⟨fun f hf => by cases f <;> first | rfl | exact id | exact absurd h hf, fun _ _ => rfl⟩
theorem put_coreAccs (s : State) (x : List CoreAcc) (h : .coreAccs ∈ F := by decide) : s.Alters { s with coreAccs := x } F P :=
  ⟨fun f hf => by cases f <;> first | rfl | exact id | exact absurd h hf, fun _ _ => rfl⟩

/-! ### Reports to a host -/

theorem sendReq (s : State) (h : Nat) (x : ReqTlp) (hF : .ht ∈ F := by decide) : s.Alters (s.sendReq h x) F P :=
  ite (refl s) (put_ht s _ hF)

theorem hostWrite (s : State) (h fn : Nat) (ctx : Option Nat) (a : Nat) (bs : List Byte) (tok : Tok)
    (hF : .ht ∈ F := by decide) : s.Alters (s.hostWrite h fn ctx a bs tok) F P :=
  foldl (fun t _ => sendReq t h _ hF) _ s

theorem dropIntr (s : State) (h : Nat) (hP : ∀ l, P (Reg.hlStatus l).addr) (hF : [.regs, .ht] ⊆ F := by decide) :
    s.Alters (s.dropIntr h) F P :=
  (setReg s _ (hP _) (hF (by decide))).trans (put_ht _ _ (hF (by decide)))

theorem sendIntr (s : State) (h fn vector data : Nat) (hP : ∀ l, P (Reg.hlStatus l).addr)
    (hF : [.regs, .ht] ⊆ F := by decide) : s.Alters (s.sendIntr h fn vector data) F P :=
  ite (sendReq s h _ (hF (by decide))) (dropIntr s h hP hF)

theorem eqPut (s : State) (e : Nat) (q : Eq) (ws : List Word) (hP : ∀ l, P (Reg.hlStatus l).addr)
    (hF : [.regs, .ht, .eqs] ⊆ F := by decide) : s.Alters (s.eqPut e q ws) F P := by
  unfold State.eqPut
  extract_lets w0 ctx s1 q1 s2
  have h2 : s.Alters s2 F P := (hostWrite s _ _ _ _ _ _ (hF (by decide))).trans (put_eqs s1 _ (hF (by decide)))
  exact ite (h2.trans (sendIntr _ _ _ _ _ hP (List.Subset.trans (by decide) hF))) h2

theorem eqWrite (s : State) (e : Nat) (ws : List Word) (hP : ∀ l, P (Reg.hlStatus l).addr)
    (hF : [.regs, .ht, .eqs] ⊆ F := by decide) : s.Alters (s.eqWrite e ws) F P := by
  have hput : ∀ (s : State) x, s.Alters { s with eqs := x } F P := fun s x => put_eqs s x (hF (by decide))
  unfold State.eqWrite
  split
  · exact refl s
  · refine ite (hput s _) (ite (eqPut s _ _ _ hP hF) ?_)
    extract_lets s1
    have h1 : s.Alters s1 F P := eqPut s _ _ _ hP hF
    split
    · exact h1
    · exact ite (h1.trans (eqPut _ _ _ _ hP hF)) (h1.trans (hput s1 _))

theorem postEq (s : State) (e code : Nat) (ctx : Option Nat) (fs : List (Nat × Nat × Nat × Nat))
    (hP : ∀ l, P (Reg.hlStatus l).addr) (hF : [.regs, .ht, .eqs] ⊆ F := by decide) : s.Alters (s.postEq e code ctx fs) F P := by
  unfold State.postEq
  split
  · exact refl s
  · exact ite (refl s) (ite (put_ht s _ (hF (by decide))) (eqWrite s e _ hP hF))

theorem postMgmt (s : State) (h code : Nat) (ctx : Option Nat) (fs : List (Nat × Nat × Nat × Nat))
    (hP : ∀ l, P (Reg.hlStatus l).addr) (hF : [.regs, .ht, .eqs] ⊆ F := by decide) :
    s.Alters (s.postMgmt h code ctx fs) F P :=
  ite (postEq s _ code ctx fs hP hF) (setReg s _ (hP _) (hF (by decide)))

theorem postCtx (s : State) (c code : Nat) (fs : List (Nat × Nat × Nat × Nat))
    (hP : ∀ l, P (Reg.hlStatus l).addr) (hF : [.regs, .ht, .eqs] ⊆ F := by decide) : s.Alters (s.postCtx c code fs) F P :=
  ite (postEq s _ code _ fs hP hF) (postMgmt s _ code _ fs hP hF)

end State.Alters

/-! ### Faults -/

/-- The addresses at which a block records a fault (R458), and those of HL_STATUS, which shows a lost report of it (R170). -/
def FaultAt (b : Block) (a : Nat) : Prop :=
  a = (Reg.ftStatus b).addr ∨ a = (Reg.ftCode b).addr ∨ ∃ h, a = (Reg.hlStatus h).addr

/-- Below the FT_ registers of the first block there is none of them, and no HL_STATUS (R485). -/
theorem not_faultAt_of_lt {a : Nat} (h : a < 0xF000) (b : Block) : ¬ FaultAt b a := by
  rintro (e | e | ⟨n, e⟩) <;> rw [e] at h <;> simp only [Reg.addr, Reg.off, Reg.block, blockBase] at h <;> omega

theorem not_faultAt_of_off {q : Reg} (b : Block) (o : Nat) (ho : q.off = o)
    (h : o % 0x10000 ≠ 0xF000 ∧ o % 0x10000 ≠ 0xF018 ∧ o % 0x10000 ≠ 0x0008 := by decide) : ¬ FaultAt b q.addr := by
  obtain ⟨h1, h2, h3⟩ := h
  rintro (e | e | ⟨n, e⟩)
  · exact addr_ne_of_off o 0xF000 ho rfl h1 e
  · exact addr_ne_of_off o 0xF018 ho rfl h2 e
  · exact addr_ne_of_off o 0x20008 ho rfl h3 e

/-- The fields that the record of a fault changes. -/
def faultFields : List Field := [.regs, .ht, .eqs, .ftPosted, .tack]

namespace State.Alters

variable {F : List Field} {P : Nat → Prop} {b : Block}

theorem faultSeen (s : State) (b : Block) (cls : FtClass) (unit : Nat) (hF : .tack ∈ F := by decide) :
    s.Alters (s.faultSeen b cls unit) F P :=
  ⟨fun x hx => by
    cases x
    case tack => exact absurd hF hx
    case calmCoat => exact fun h => by simp [State.faultSeen, h]
    all_goals rfl, fun _ _ => rfl⟩

theorem postFault (s : State) (cls : FtClass) (code unit : Nat) (hP : ∀ a, FaultAt b a → P a)
    (hF : faultFields ⊆ F := by decide) : s.Alters (s.postFault b cls code unit) F P := by
  unfold State.postFault
  extract_lets k due i s1
  exact ite ((put_ftPosted s _ (hF (by decide))).trans (postMgmt _ _ _ _ _ (fun l => hP _ (.inr (.inr ⟨l, rfl⟩)))
    (List.Subset.trans (by decide) hF))) (refl s)

theorem fault (s : State) (cls : FtClass) (low unit : Nat) (hP : ∀ a, FaultAt b a → P a)
    (hF : faultFields ⊆ F := by decide) : s.Alters (s.fault b cls low unit) F P := by
  have hst : ∀ (s : State) v, s.Alters (s.setReg (.ftStatus b) v) F P := fun s v =>
    setReg s v (hP _ (.inl rfl)) (hF (by decide))
  have hcode : ∀ (s : State) v, s.Alters (s.setReg (.ftCode b) v) F P := fun s v =>
    setReg s v (hP _ (.inr (.inl rfl))) (hF (by decide))
  unfold State.fault
  refine ite (refl s) ?_
  extract_lets s1 code first s2 s3 s4
  have h2 : s.Alters s2 F P := (faultSeen s b cls unit (hF (by decide))).trans (hst ..)
  have h3 : s.Alters s3 F P := ite ((h2.trans (hcode ..)).trans (hcode ..)) h2
  have h4 : s.Alters s4 F P := (h3.trans (hcode ..)).trans (hcode ..)
  exact ite h4 (h4.trans (postFault _ _ _ _ hP hF))

theorem noteReserved (s : State) (unit : Nat) (hP : ∀ a, FaultAt b a → P a) (hF : faultFields ⊆ F := by decide) :
    s.Alters (s.noteReserved b unit) F P := fault _ _ _ _ hP hF

end State.Alters

theorem fault_alters (s : State) (b : Block) (cls : FtClass) (low unit : Nat) :
    s.Alters (s.fault b cls low unit) faultFields (FaultAt b) := .fault _ _ _ _ fun _ h => h

theorem rf_fault (s : State) (b : Block) (cls : FtClass) (low unit : Nat) {q : Reg} (h : ¬ FaultAt b q.addr) (hi lo : Nat) :
    (s.fault b cls low unit).rf q hi lo = s.rf q hi lo := (fault_alters s b cls low unit).rf h hi lo

theorem rb_fault (s : State) (b : Block) (cls : FtClass) (low unit : Nat) {q : Reg} (h : ¬ FaultAt b q.addr) (i : Nat) :
    (s.fault b cls low unit).rb q i = s.rb q i := (fault_alters s b cls low unit).rb h i

end Sys2Proof.Machine
end

section
/-! PROOFS. The block's step: a command's outcome is always a next state (log entry 1), and on an empty queue one count of
time passes, which changes the clocks, registers of counters and what they have observed (R391, R396, R432, R476). -/

namespace Sys2Proof.Machine

-- The proofs are elaborated one after another: in parallel their threads' stacks need more memory than a compile may have.
set_option Elab.async false

theorem step_of_pending_cons {s : State} {c : Instr} {rest : List Instr} (h : s.pending = c :: rest) :
    step s = exec c { s with pending := rest } := by
  rw [step, h]

theorem step_of_pending_nil {s : State} (h : s.pending = []) : step s = .next s.idle := by
  rw [step, h]

/-- Each row's effect is performed in one of the forms of `Elapse`, and each of them answers a next state. -/
theorem exec_next (c : Instr) (s : State) : ∃ t, exec c s = .next t := by
  cases c <;> exact ⟨_, rfl⟩

/-- Settles O1. -/
theorem stepPerformsTheFrontCommand : Obligations.StepPerformsTheFrontCommand :=
  ⟨fun _ _ _ => step_of_pending_cons, fun s c => exec_next c s⟩

/-! ### The passing of time -/

/-- Counting changes registers, and what the counters have observed. -/
theorem pmTick_eq (s : State) (cnt : Reg) (w : Word) (holds : Bool) (n : Nat) :
    ∃ regs seen, s.pmTick cnt w holds n = { s with regs := regs, pmSeen := seen } := by
  unfold State.pmTick
  extract_lets seen s1
  split_ifs
  · exact ⟨s.regs, s.pmSeen, rfl⟩
  · exact ⟨(s.setReg cnt (pmAdd (s.reg cnt) n)).regs, s.pmSeen, rfl⟩
  · exact ⟨s.regs, s.pmSeen, rfl⟩
  · exact ⟨(s1.setReg cnt (pmAdd (s1.reg cnt) 1)).regs, s1.pmSeen, rfl⟩
  · exact ⟨s.regs, s1.pmSeen, rfl⟩

theorem pmPassTime_eq (s : State) (t0 t1 : Nat) :
    ∃ regs seen, s.pmPassTime t0 t1 = { s with regs := regs, pmSeen := seen } := by
  refine List.foldlRecOn (motive := fun t : State => ∃ regs seen, t = { s with regs := regs, pmSeen := seen }) _ _
    ⟨s.regs, s.pmSeen, rfl⟩ fun t ht e _ => ?_
  obtain ⟨regs, seen, rfl⟩ := ht
  split
  · exact ⟨regs, seen, rfl⟩
  · exact pmTick_eq ..

/-- The Tack Room's clock after `dt` counts (R432). -/
def State.tkAfter (s : State) (dt : Nat) : Nat := s.tk + if s.pins.vinAux && s.pins.resetL then dt else 0

/-- The counts of network time and of the core in `dt` counts of the resonator (R391, R396). -/
def State.coreCounts (s : State) (dt : Nat) : Nat := if s.coreOn && s.pins.resetL then s.ntParts dt / 1000000000 else 0

theorem elapse_eq (dt : Nat) (s : State) : ∃ regs seen, s.elapse dt =
    { s with
      tk := s.tkAfter dt
      nt := s.nt + BitVec.ofNat 64 (s.coreCounts dt)
      clk := s.clk + s.coreCounts dt
      ntFrac := if s.coreOn && s.pins.resetL then s.ntParts dt % 1000000000 else s.ntFrac
      regs := regs
      pmSeen := seen } := by
  have htk : (if s.pins.vinAux && s.pins.resetL then { s with tk := s.tk + dt } else s) = { s with tk := s.tkAfter dt } := by
    unfold State.tkAfter
    split <;> rfl
  unfold State.elapse State.coreCounts
  simp only [htk]
  cases h : s.coreOn && s.pins.resetL
  case false => exact ⟨s.regs, s.pmSeen, by simp⟩
  case true =>
    simp only [if_true]
    exact pmPassTime_eq ..

/-- Without a correction of the rate each count of the resonator is one of network time. -/
theorem ntParts_one_div {s : State} (hfreq : s.rf .ntOffset 31 0 = 0) (hfrac : s.ntFrac < 1000000000) :
    s.ntParts 1 / 1000000000 = 1 := by
  have h : toSigned 32 0 = 0 := rfl
  simp only [State.ntParts, hfreq, h]
  omega

theorem groomsDrain_of_storesDrained {s : State} (h : s.storesDrained = true) : s.groomsDrain = s := if_pos h

theorem coresIdle_of_nil {s : State} (h : s.coreAccs = []) : s.coresIdle = s := by
  simp [State.coresIdle, h]

/-- With no work, topcoat, store or access waiting, an idle count is the passing of time alone. -/
theorem idle_eq_elapse {s : State} (hcalm : s.Calm) (hstores : s.storesDrained = true) (haccs : s.coreAccs = []) :
    s.idle = s.elapse 1 := by
  obtain ⟨htodo, hcoat⟩ := hcalm
  obtain ⟨regs, seen, e⟩ := elapse_eq 1 s
  have hcores : (s.elapse 1).coresIdle = s.elapse 1 := coresIdle_of_nil (by rw [e]; exact haccs)
  have hgrooms : (s.elapse 1).groomsDrain = s.elapse 1 := groomsDrain_of_storesDrained (by rw [e]; exact hstores)
  rw [State.idle, hcores, hgrooms]
  exact fin_of_calm _ (by rw [e]; exact htodo) (by rw [e]; exact hcoat)

/-- Settles O2: the idle count is the passing of time, whose fields `elapse_eq` gives. -/
theorem emptyQueuePassesOneCount : Obligations.EmptyQueuePassesOneCount := by
  unfold Obligations.EmptyQueuePassesOneCount
  intro s hpend hcalm hstores haccs
  obtain ⟨regs, seen, e⟩ := elapse_eq 1 s
  refine ⟨s.elapse 1, by rw [step_of_pending_nil hpend, idle_eq_elapse hcalm hstores haccs], ?_⟩
  rw [e]
  refine ⟨hpend, ?_, rfl, ntParts_one_div, fun hon hreset => if_pos (by rw [hon, hreset]; rfl), rfl, rfl, rfl, rfl, rfl⟩
  simp only [State.coreCounts]
  split <;> rfl

end Sys2Proof.Machine
end

section
/-! PROOFS. Each register lies at one address (R485, R498): what the map has at an offset of a block is a register of that
block, whose offset that is. -/

namespace Sys2Proof.Machine

-- The proofs are elaborated one after another: in parallel their threads' stacks need more memory than a compile may have.
set_option Elab.async false

/-- Register `r` is one of block `b`, at offset `o`. -/
def Reg.LiesAt (r : Reg) (b : Block) (o : Nat) : Prop := r.block = b ∧ r.off = o

theorem Reg.LiesAt.addr {r : Reg} {b : Block} {o : Nat} (h : r.LiesAt b o) : r.addr = blockBase b + o := by
  rw [Reg.addr, h.1, h.2]

theorem idx_eq_some {n k : Nat} {i : Fin n} : idx n k = some i ↔ k = i.val := by
  unfold idx
  split
  · simp [Fin.ext_iff]
  · have := i.isLt
    simp only [reduceCtorEq, false_iff]
    omega

theorem laneRegAt_liesAt {n : LaneId} {o : Nat} {r : Reg} (h : laneRegAt n o = some r) :
    r.LiesAt (laneBlock n) (laneBase n + o) := by
  unfold laneRegAt at h
  split at h
  all_goals cases h
  all_goals exact ⟨rfl, rfl⟩

theorem linkRegAt_liesAt {l : LinkId} {o : Nat} {r : Reg} (h : linkRegAt l o = some r) :
    r.LiesAt (linkBlock l) (linkBase l + o) := by
  unfold linkRegAt at h
  cases l
  all_goals
    split at h
    all_goals cases h
    all_goals exact ⟨rfl, rfl⟩

theorem Reg.LiesAt.congr {r : Reg} {b : Block} {o o' : Nat} (h : r.LiesAt b o) (e : o = o') : r.LiesAt b o' := e ▸ h

/-- A register picked out of an array of them by an index. -/
theorem liesAt_of_idx_map {n k o : Nat} {b : Block} {f : Fin n → Reg} {r : Reg} (h : (idx n k).map f = some r)
    (hf : ∀ i : Fin n, k = i.val → (f i).LiesAt b o) : r.LiesAt b o := by
  obtain ⟨i, hi, rfl⟩ := Option.map_eq_some_iff.1 h
  exact hf i (idx_eq_some.1 hi)

/-- The same where what the index picks holds several registers. -/
theorem liesAt_of_idx_bind {n k o : Nat} {b : Block} {f : Fin n → Option Reg} {r : Reg} (h : (idx n k).bind f = some r)
    (hf : ∀ i : Fin n, k = i.val → f i = some r → r.LiesAt b o) : r.LiesAt b o := by
  obtain ⟨i, hi, hr⟩ := Option.bind_eq_some_iff.1 h
  exact hf i (idx_eq_some.1 hi) hr

theorem commonRegAt_liesAt {b : Block} {pm o : Nat} {r : Reg} (ho : o % 8 = 0) (h : commonRegAt b pm o = some r) :
    r.LiesAt b o := by
  unfold commonRegAt at h
  split_ifs at h with h1 h2 h3 h4 h5 h6 h7 _ h8 h9
  · cases h; exact ⟨rfl, h1.symm⟩
  · cases h; exact ⟨rfl, h2.symm⟩
  · cases h; exact ⟨rfl, h3.symm⟩
  · cases h; exact ⟨rfl, h4.symm⟩
  · cases h; exact ⟨rfl, h5.symm⟩
  · cases h; exact ⟨rfl, h6.symm⟩
  · cases h; exact ⟨rfl, h7.symm⟩
  · exact liesAt_of_idx_map h fun i hi => ⟨rfl, by simp only [Reg.off]; omega⟩
  · exact liesAt_of_idx_map h fun i hi => ⟨rfl, by simp only [Reg.off]; omega⟩

theorem tackRegAt_liesAt {o : Nat} {r : Reg} (ho : o % 8 = 0) (h : tackRegAt o = some r) : r.LiesAt .tack o := by
  unfold tackRegAt at h
  split at h
  case h_7 =>
    split_ifs at h
    · exact liesAt_of_idx_map h fun i hi => ⟨rfl, by simp only [Reg.off]; omega⟩
    · exact liesAt_of_idx_map h fun i hi => ⟨rfl, by simp only [Reg.off]; omega⟩
    · exact commonRegAt_liesAt ho h
  all_goals cases h; exact ⟨rfl, rfl⟩

theorem globalRegAt_liesAt {o : Nat} {r : Reg} (ho : o % 8 = 0) (h : globalRegAt o = some r) : r.LiesAt .global o := by
  unfold globalRegAt at h
  split at h
  case h_27 => exact commonRegAt_liesAt ho h
  all_goals cases h; exact ⟨rfl, rfl⟩

theorem domainRegAt_liesAt {d : Dom} {o : Nat} {r : Reg} (ho : o % 8 = 0) (h : domainRegAt d o = some r) :
    r.LiesAt (.domain d) o := by
  unfold domainRegAt at h
  split at h
  case h_14 =>
    split_ifs at h
    · exact liesAt_of_idx_map h fun i hi => ⟨rfl, by simp only [Reg.off]; omega⟩
    · exact liesAt_of_idx_map h fun i hi => ⟨rfl, by simp only [Reg.off]; omega⟩
    · exact liesAt_of_idx_map h fun i hi => ⟨rfl, by simp only [Reg.off]; omega⟩
    · exact liesAt_of_idx_map h fun i hi => ⟨rfl, by simp only [Reg.off]; omega⟩
    · exact commonRegAt_liesAt ho h
  all_goals cases h; exact ⟨rfl, rfl⟩

theorem stallRegAt_liesAt {n : Stall} {o : Nat} {r : Reg} (ho : o % 8 = 0) (h : stallRegAt n o = some r) :
    r.LiesAt (.stall n) o := by
  unfold stallRegAt at h
  split at h
  case h_16 =>
    split_ifs at h
    · exact liesAt_of_idx_map h fun i hi => ⟨rfl, by simp only [Reg.off]; omega⟩
    · refine liesAt_of_idx_bind h fun g hg h => liesAt_of_idx_map h fun i hi => ⟨rfl, ?_⟩
      simp only [Reg.off]; omega
    · refine liesAt_of_idx_bind h fun g hg h => liesAt_of_idx_map h fun i hi => ⟨rfl, ?_⟩
      simp only [Reg.off]; omega
    · exact commonRegAt_liesAt ho h
  all_goals cases h; exact ⟨rfl, rfl⟩

theorem portRegAt_liesAt {p : Port} {o : Nat} {r : Reg} (ho : o % 8 = 0) (h : portRegAt p o = some r) :
    r.LiesAt (.port p) o := by
  unfold portRegAt at h
  split_ifs at h with h1 h2 h3 h4 h5 h6 h7 h8 h9 h10
  · exact (linkRegAt_liesAt h).congr (by simp only [linkBase]; omega)
  · cases h; exact ⟨rfl, h2.symm⟩
  · cases h; exact ⟨rfl, h3.symm⟩
  · exact liesAt_of_idx_map h fun i hi => ⟨rfl, by simp only [Reg.off]; omega⟩
  · cases h; exact ⟨rfl, h5.symm⟩
  · cases h; exact ⟨rfl, h6.symm⟩
  · cases h; exact ⟨rfl, h7.symm⟩
  · cases h; exact ⟨rfl, h8.symm⟩
  · refine liesAt_of_idx_bind h fun g hg h => liesAt_of_idx_map h fun i hi => ⟨rfl, ?_⟩
    simp only [Reg.off]; omega
  · exact liesAt_of_idx_bind h fun l hl h => (laneRegAt_liesAt h).congr (by simp only [laneBase]; omega)
  · exact commonRegAt_liesAt ho h

theorem hostRegAt_liesAt {n : HLink} {o : Nat} {r : Reg} (ho : o % 8 = 0) (h : hostRegAt n o = some r) :
    r.LiesAt (.hostlink n) o := by
  unfold hostRegAt at h
  split_ifs at h with h1 h2 h3 h4 h5 h6 h7 h8 h9 h10
  · exact (linkRegAt_liesAt h).congr (by simp only [linkBase]; omega)
  · cases h; exact ⟨rfl, h2.symm⟩
  · cases h; exact ⟨rfl, h3.symm⟩
  · cases h; exact ⟨rfl, h4.symm⟩
  · cases h; exact ⟨rfl, h5.symm⟩
  · cases h; exact ⟨rfl, h6.symm⟩
  · cases h; exact ⟨rfl, h7.symm⟩
  · exact liesAt_of_idx_map h fun i hi => ⟨rfl, by simp only [Reg.off]; omega⟩
  · exact liesAt_of_idx_map h fun i hi => ⟨rfl, by simp only [Reg.off]; omega⟩
  · exact liesAt_of_idx_bind h fun l hl h => (laneRegAt_liesAt h).congr (by simp only [laneBase]; omega)
  · cases h; exact ⟨rfl, Eq.symm ‹_›⟩
  · exact commonRegAt_liesAt ho h

theorem collRegAt_liesAt {e : Engine} {o : Nat} {r : Reg} (ho : o % 8 = 0) (h : collRegAt e o = some r) :
    r.LiesAt (.coll e) o := by
  unfold collRegAt at h
  split at h
  case h_6 => exact commonRegAt_liesAt ho h
  all_goals cases h; exact ⟨rfl, rfl⟩

theorem hitchAt_liesAt {d : Dom} {o : Nat} {r : Reg} (ho : o % 8 = 0) (h : hitchAt d o = .reg r) :
    r.LiesAt (.hitch d) o := by
  unfold hitchAt at h
  split_ifs at h with h1 h2 h3 h4
  · cases h; exact ⟨rfl, h1.symm⟩
  · cases h; exact ⟨rfl, h2.symm⟩
  · split at h
    case h_1 i hi => cases h; exact ⟨rfl, by have := idx_eq_some.1 hi; simp only [Reg.off]; omega⟩
    case h_2 => cases h
  · split at h
    · cases h; exact ⟨rfl, by simp only [Reg.off, BitVec.toNat_ofNat]; omega⟩
    · cases h
  · split at h <;> cases h
  · split at h
    case h_1 q hq => cases h; exact commonRegAt_liesAt ho hq
    case h_2 => cases h

theorem regOr_eq_reg {b : Block} {x : Option Reg} {r : Reg} : regOr b x = .reg r ↔ x = some r := by
  cases x <;> simp [regOr]

theorem addr_of_targetAt {a : Nat} {r : Reg} (ha : a % 8 = 0) (h : targetAt a = .reg r) : r.addr = a := by
  have at_ : ∀ {b : Block} {o : Nat}, r.LiesAt b o → blockBase b + o = a → r.addr = a := fun hr e => hr.addr.trans e
  unfold targetAt at h
  split_ifs at h
  · exact at_ (tackRegAt_liesAt ha (regOr_eq_reg.1 h)) (by simp only [blockBase]; omega)
  · exact at_ (globalRegAt_liesAt (by omega) (regOr_eq_reg.1 h)) (by simp only [blockBase]; omega)
  all_goals
    split at h
    rotate_left
    · cases h
    rename_i n hn
    replace hn := idx_eq_some.1 hn
  · exact at_ (domainRegAt_liesAt (by omega) (regOr_eq_reg.1 h)) (by simp only [blockBase]; omega)
  · cases h
  · exact at_ (stallRegAt_liesAt (by omega) (regOr_eq_reg.1 h)) (by simp only [blockBase]; omega)
  · exact at_ (portRegAt_liesAt (by omega) (regOr_eq_reg.1 h)) (by simp only [blockBase]; omega)
  · exact at_ (hostRegAt_liesAt (by omega) (regOr_eq_reg.1 h)) (by simp only [blockBase]; omega)
  · exact at_ (collRegAt_liesAt (by omega) (regOr_eq_reg.1 h)) (by simp only [blockBase]; omega)
  · exact at_ (hitchAt_liesAt (by omega) h) (by simp only [blockBase]; omega)
  · cases h

/-- Settles O4: the map by its blocks, what a register reads by the laws of the register file. -/
theorem registersLieAtTheirAddressesAndKeepWhatIsStored :
    Obligations.RegistersLieAtTheirAddressesAndKeepWhatIsStored := by
  unfold Obligations.RegistersLieAtTheirAddressesAndKeepWhatIsStored
  refine ⟨fun _ _ => addr_of_targetAt, fun s r v => ⟨reg_setReg_same s r v, fun q hq => reg_setReg_other s r q v hq, ?_, rfl⟩⟩
  intro hi lo x _ hhi
  exact ⟨rf_wf_same s r hi lo x hhi, fun hi' lo' _ hhi' h => rf_wf_field s r hi lo x hi' lo' hhi' h⟩

end Sys2Proof.Machine
end

section
/-! PROOFS. The words of a Groom's instructions (R335, R336): every bit of a word belongs to one field of its format, so
the fields read from a word that was built are those it was built with, and a word is the one built from its fields. -/

namespace Sys2Proof

open Machine

/-! ### The fields of a word -/

theorem wordField_setFld_same {n : Nat} (w : BitVec 32) {hi lo : Nat} (v : BitVec n) (hn : hi < 32) (h : hi + 1 - lo = n) :
    wordField n (setFld w hi lo v.toNat) lo = v := by
  have hf : (setFld w hi lo v.toNat).toNat / 2 ^ lo % 2 ^ n = v.toNat := by
    have := fld_setFld_same w hi lo v.toNat hn
    rwa [fld, h, Nat.mod_eq_of_lt v.isLt] at this
  exact BitVec.eq_of_toNat_eq (by rw [wordField, BitVec.toNat_ofNat, hf])

/-- A field does not show what is written above or below it. -/
theorem wordField_setFld_other {n : Nat} (w : BitVec 32) {hi lo v lo' : Nat} (hn : lo' + n ≤ 32)
    (h : hi < lo' ∨ lo' + n ≤ lo) : wordField n (setFld w hi lo v) lo' = wordField n w lo' := by
  cases n with
  | zero => exact Subsingleton.elim _ _
  | succ n =>
    have hf := fld_setFld_other w hi lo v (lo' + n) lo' (by omega) (by omega)
    rw [fld, fld, show lo' + n + 1 - lo' = n + 1 by omega] at hf
    exact BitVec.eq_of_toNat_eq (by rw [wordField, wordField, BitVec.toNat_ofNat, BitVec.toNat_ofNat, hf])

/-- A bit of a field is the bit of the word at its place. -/
theorem testBit_wordField_sub {n : Nat} (w : BitVec 32) {lo i : Nat} (h : lo ≤ i) (hi : i < lo + n) :
    (wordField n w lo).toNat.testBit (i - lo) = w.getLsbD i := by
  rw [wordField, BitVec.toNat_ofNat, Nat.testBit_mod_two_pow, Nat.testBit_div_two_pow, decide_eq_true (by omega),
    Bool.true_and, Nat.sub_add_cancel h]
  rfl

/-- The same of the major opcode. -/
theorem testBit_major_sub (w : BitVec 32) {i : Nat} (h : 26 ≤ i) (hi : i < 32) :
    (fld w 31 26).testBit (i - 26) = w.getLsbD i := by
  rw [testBit_fld, decide_eq_true (by omega), Bool.true_and, Nat.add_sub_cancel' h]

/-! ### The four formats: a word's fields -/

section

variable (op : Nat) (rd a b : BitVec 5) (fn : BitVec 11) (imm : BitVec 16) (x y : BitVec 2) (off : BitVec 12)
  (far : BitVec 26)

theorem fields_encR : wordField 5 (encR op rd a b fn) 21 = rd ∧ wordField 5 (encR op rd a b fn) 16 = a ∧
    wordField 5 (encR op rd a b fn) 11 = b ∧ wordField 11 (encR op rd a b fn) 0 = fn := by
  simp [encR, mkWord, wordField_setFld_same, wordField_setFld_other]

theorem fields_encI : wordField 5 (encI op rd a imm) 21 = rd ∧ wordField 5 (encI op rd a imm) 16 = a ∧
    wordField 16 (encI op rd a imm) 0 = imm := by
  simp [encI, mkWord, wordField_setFld_same, wordField_setFld_other]

theorem fields_encM : wordField 5 (encM op rd a x y off) 21 = rd ∧ wordField 5 (encM op rd a x y off) 16 = a ∧
    wordField 2 (encM op rd a x y off) 14 = x ∧ wordField 2 (encM op rd a x y off) 12 = y ∧
    wordField 12 (encM op rd a x y off) 0 = off := by
  simp [encM, mkWord, wordField_setFld_same, wordField_setFld_other]

theorem fields_encJ : wordField 26 (encJ op far) 0 = far := by
  simp [encJ, mkWord, wordField_setFld_same]

end

/-! ### The four formats: the word of its fields -/

section

variable (w : BitVec 32)

theorem encR_fields : encR (fld w 31 26) (wordField 5 w 21) (wordField 5 w 16) (wordField 5 w 11) (wordField 11 w 0) = w := by
  refine BitVec.eq_of_getLsbD_eq fun i hi => ?_
  simp only [encR, mkWord, List.foldl_cons, List.foldl_nil, getLsbD_setFld _ _ _ _ _ hi]
  split_ifs
  · exact testBit_wordField_sub w (by omega) (by omega)
  · exact testBit_wordField_sub w (by omega) (by omega)
  · exact testBit_wordField_sub w (by omega) (by omega)
  · exact testBit_wordField_sub w (by omega) (by omega)
  · exact testBit_major_sub w (by omega) hi
  · omega

theorem encI_fields : encI (fld w 31 26) (wordField 5 w 21) (wordField 5 w 16) (wordField 16 w 0) = w := by
  refine BitVec.eq_of_getLsbD_eq fun i hi => ?_
  simp only [encI, mkWord, List.foldl_cons, List.foldl_nil, getLsbD_setFld _ _ _ _ _ hi]
  split_ifs
  · exact testBit_wordField_sub w (by omega) (by omega)
  · exact testBit_wordField_sub w (by omega) (by omega)
  · exact testBit_wordField_sub w (by omega) (by omega)
  · exact testBit_major_sub w (by omega) hi
  · omega

theorem encM_fields : encM (fld w 31 26) (wordField 5 w 21) (wordField 5 w 16) (wordField 2 w 14) (wordField 2 w 12)
    (wordField 12 w 0) = w := by
  refine BitVec.eq_of_getLsbD_eq fun i hi => ?_
  simp only [encM, mkWord, List.foldl_cons, List.foldl_nil, getLsbD_setFld _ _ _ _ _ hi]
  split_ifs
  · exact testBit_wordField_sub w (by omega) (by omega)
  · exact testBit_wordField_sub w (by omega) (by omega)
  · exact testBit_wordField_sub w (by omega) (by omega)
  · exact testBit_wordField_sub w (by omega) (by omega)
  · exact testBit_wordField_sub w (by omega) (by omega)
  · exact testBit_major_sub w (by omega) hi
  · omega

theorem encJ_fields : encJ (fld w 31 26) (wordField 26 w 0) = w := by
  refine BitVec.eq_of_getLsbD_eq fun i hi => ?_
  simp only [encJ, mkWord, List.foldl_cons, List.foldl_nil, getLsbD_setFld _ _ _ _ _ hi]
  split_ifs
  · exact testBit_wordField_sub w (by omega) (by omega)
  · exact testBit_major_sub w (by omega) hi
  · omega

end

/-! ### The instruction of a word -/

/-- The operands of a format, read from a word of the format, are those that it was built with; the major opcode picks the
instruction. -/
theorem groomDecode_of_groomWord {i : Instr} {w : BitVec 32} (h : groomWord i = some w) :
    ∃ g : GroomId, groomDecode g w = some i := by
  cases i
  case alu g rd a b fn | amol g rd a b fn | hamo g rd a b fn =>
    cases h
    obtain ⟨e1, e2, e3, e4⟩ := fields_encR _ rd a b fn
    exact ⟨g, by rw [groomDecode, Laws.GroomMajor.major_encR _ _ _ _ _ (by decide), e1, e2, e3, e4]; rfl⟩
  case ld g rd a x y off | st g rd a x y off | ldv g rd a x y off | stv g rd a x y off =>
    cases h
    obtain ⟨e1, e2, e3, e4, e5⟩ := fields_encM _ rd a x y off
    exact ⟨g, by rw [groomDecode, Laws.GroomMajor.major_encM _ _ _ _ _ _ (by decide), e1, e2, e3, e4, e5]; rfl⟩
  case jal g off =>
    cases h
    exact ⟨g, by rw [groomDecode, Laws.GroomMajor.major_encJ _ _ (by decide), fields_encJ]; rfl⟩
  case addi g rd a imm | andi g rd a imm | ori g rd a imm | xori g rd a imm | slti g rd a imm | sltiu g rd a imm |
      shi g rd a imm | lui g rd a imm | shori g rd a imm | hlock g rd a imm | hunlock g rd a imm | beq g rd a imm |
      bne g rd a imm | blt g rd a imm | bge g rd a imm | bltu g rd a imm | bgeu g rd a imm | jalr g rd a imm |
      issue g rd a imm | wfe g rd a imm | signal g rd a imm | fence g rd a imm | csrr g rd a imm | csrw g rd a imm |
      halt g rd a imm =>
    cases h
    obtain ⟨e1, e2, e3⟩ := fields_encI _ rd a imm
    exact ⟨g, by rw [groomDecode, Laws.GroomMajor.major_encI _ _ _ _ (by decide), e1, e2, e3]; rfl⟩
  all_goals cases h

/-- An instruction is read from the word of its own format with its own opcode, all of whose bits are fields. -/
theorem groomWord_of_groomDecode {g : GroomId} {w : BitVec 32} {i : Instr} (h : groomDecode g w = some i) :
    groomWord i = some w := by
  unfold groomDecode at h
  have hR := encR_fields w
  have hI := encI_fields w
  have hM := encM_fields w
  have hJ := encJ_fields w
  split at h
  all_goals cases h
  all_goals simp_all only [groomWord]

/-- Settles O39, from the two directions. -/
theorem groomWordsAreReadBack : Obligations.GroomWordsAreReadBack :=
  ⟨fun _ _ => groomDecode_of_groomWord, fun _ _ _ => groomWord_of_groomDecode⟩

end Sys2Proof
end

section
/-! PROOFS. The supplies and resets (R36, R40, R41, R449, R454, R493): a Tack Room start writes the registers of TACK alone,
over a register file in which every register has its reset value. -/

namespace Sys2Proof.Machine

-- The proofs are elaborated one after another: in parallel their threads' stacks need more memory than a compile may have.
set_option Elab.async false

/-! ### Registers outside TACK -/

/-- The TACK block lies below every other block (R485). -/
theorem le_blockBase {b : Block} (h : b ≠ .tack) : 0x100000 ≤ blockBase b := by
  cases b <;> first | exact absurd rfl h | (simp only [blockBase]; omega)

theorem addr_ne_of_block_ne_tack {q r : Reg} (hq : q.block ≠ .tack) (hr : r.addr < 0x100000) : q.addr ≠ r.addr := by
  have := le_blockBase hq
  simp only [Reg.addr] at hr ⊢
  omega

/-- Showing the flash records writes registers of TACK alone. -/
theorem reg_showTk_of_block_ne_tack (s : State) {q : Reg} (h : q.block ≠ .tack) : s.showTk.reg q = s.reg q := by
  have hne : ∀ {r : Reg}, r.addr < 0x100000 → q.addr ≠ r.addr := addr_ne_of_block_ne_tack h
  unfold State.showTk
  simp only
  rw [reg_setReg_other _ _ _ _ (hne (by decide)), reg_wf_other _ _ _ _ _ _ (hne (by decide)),
    reg_wf_other _ _ _ _ _ _ (hne (by decide)), reg_wf_other _ _ _ _ _ _ (hne (by decide)),
    reg_wf_other _ _ _ _ _ _ (hne (by decide))]

theorem reg_setStep_of_block_ne_tack (s : State) (n : Nat) {q : Reg} (h : q.block ≠ .tack) :
    (s.setStep n).reg q = s.reg q :=
  reg_wf_other _ _ _ _ _ _ (addr_ne_of_block_ne_tack h (by decide))

/-! ### A Tack Room start -/

theorem showTk_eq (s : State) : s.showTk = { s with regs := s.showTk.regs } := rfl

/-- The flash records after a start that was marked in progress is recorded as INTERRUPTED (R449, R454). -/
def Flash.interrupted (f : Flash) : Flash := if f.inProgress then { f with reason := 0x0503, inProgress := false } else f

/-- Beside TK_ registers, a Tack Room start leaves the state of reset, with what a reset never clears (R493). -/
theorem tackStart_eq (s : State) : ∃ regs, s.tackStart =
    { s.coreReset with regs := regs, pmFix := [], ftPosted := [], tk := 0, epochSeen := 0,
                       flash := s.flash.interrupted, tack := { leaving := s.tack.leaving } } := by
  unfold State.tackStart
  rw [showTk_eq]
  exact ⟨_, rfl⟩

theorem reg_tackStart_of_block_ne_tack (s : State) {q : Reg} (h : q.block ≠ .tack) : s.tackStart.reg q = q.reset := by
  unfold State.tackStart
  simp only
  rw [reg_showTk_of_block_ne_tack _ h, reg_setStep_of_block_ne_tack _ _ h]
  exact reg_of_regs_nil rfl q

theorem step_tackStart (s : State) : s.tackStart.step? = 2 := by
  unfold State.tackStart
  simp only
  rw [step_showTk, step_setStep _ _ (by decide)]

/-- A Tack Room start, with the work that an effect leaves: none. -/
theorem fin_tackStart (s : State) : s.tackStart.fin = s.tackStart := by
  obtain ⟨regs, e⟩ := tackStart_eq s
  exact fin_of_calm _ (by rw [e]; rfl) (by rw [e])

@[simp] theorem flash_interrupted_failCount (f : Flash) : f.interrupted.failCount = f.failCount := by
  unfold Flash.interrupted; split <;> rfl
@[simp] theorem flash_interrupted_slotA (f : Flash) : f.interrupted.slotA = f.slotA := by
  unfold Flash.interrupted; split <;> rfl
@[simp] theorem flash_interrupted_slotB (f : Flash) : f.interrupted.slotB = f.slotB := by
  unfold Flash.interrupted; split <;> rfl
@[simp] theorem flash_interrupted_grave (f : Flash) : f.interrupted.grave = f.grave := by
  unfold Flash.interrupted; split <;> rfl

/-- What a Tack Room start leaves of the state before it, as a reader of the state sees it. -/
theorem tackStart_spec (s : State) :
    s.tackStart.step? = 2 ∧ s.tackStart.tk = 0 ∧ s.tackStart.nt = 0 ∧
    (s.tackStart.hbm = [] ∧ s.tackStart.buf = [] ∧ s.tackStart.cqs = [] ∧ s.tackStart.eqs = [] ∧ s.tackStart.ctxs = [] ∧
      s.tackStart.grooms = []) ∧
    (∀ r : Reg, r.block ≠ .tack → s.tackStart.reg r = r.reset) ∧ s.tackStart.fuses = s.fuses ∧
    s.tackStart.flash = s.flash.interrupted ∧ s.tackStart.pins = s.pins := by
  refine ⟨step_tackStart s, ?_, ?_, ?_, fun r => reg_tackStart_of_block_ne_tack s, ?_, ?_, ?_⟩
  all_goals
    obtain ⟨regs, e⟩ := tackStart_eq s
    rw [e]
  case refine_3 => exact ⟨rfl, rfl, rfl, rfl, rfl, rfl⟩
  all_goals rfl

/-! ### VIN_AUX_RISE, RESET_L_RISE and COLD_RESET -/

theorem mainSeen_eq (s : State) (b : Bool) : s.mainSeen b =
    { s with pins := { s.pins with vinMain := b },
             flash := { s.flash with grave := if s.pins.graveLatch = false ∧ b = false then none else s.flash.grave } } := by
  unfold State.mainSeen
  cases h : s.pins.graveLatch <;> cases b <;> simp [State.modPins, State.modFlash, h]

theorem doVinAuxRise_of_resetL {s : State} (b : Bool) (haux : s.pins.vinAux = false) (hreset : s.pins.resetL = true) :
    doVinAuxRise b s = ((s.modPins (fun p => { p with vinAux := true, vinMain := b })).mainSeen b).tackStart := by
  simp [doVinAuxRise, haux, hreset]

theorem doVinAuxRise_of_not_resetL {s : State} (b : Bool) (haux : s.pins.vinAux = false) (hreset : s.pins.resetL = false) :
    doVinAuxRise b s = s.modPins (fun p => { p with vinAux := true, vinMain := b }) := by
  simp [doVinAuxRise, haux, hreset]

theorem doResetLRise_of_vinAux {s : State} (hreset : s.pins.resetL = false) (haux : s.pins.vinAux = true) :
    doResetLRise s = (s.modPins (fun p => { p with resetL := true })).tackStart := by
  simp [doResetLRise, haux, hreset]

theorem doResetLRise_of_not_vinAux {s : State} (hreset : s.pins.resetL = false) (haux : s.pins.vinAux = false) :
    doResetLRise s = s.modPins (fun p => { p with resetL := true }) := by
  simp [doResetLRise, haux, hreset]

/-- An effect that leaves no work and no topcoat, on the Tack Room. -/
theorem tackAct_of_fin {s : State} {f : State → State} {t : State} (hf : f s = t) (h : t.fin = t) :
    s.tackAct f = .next t := by
  rw [State.tackAct, hf, h]

/-- The state that a cold reset leaves, from the state with RESET_L low. -/
def State.coldReset (s : State) : State :=
  { (if s.tack.starting then (s.startReason 0x0503).endStart else s).coreReset with
    regs := [], pmFix := [], ftPosted := [], tack := { leaving := decide (s.mode = 2) || decide (s.mode = 3) } }

theorem doColdReset_of_vinAux {s : State} (hreset : s.pins.resetL = true) (haux : s.pins.vinAux = true) :
    doColdReset s = (s.modPins (fun p => { p with resetL := false })).coldReset := by
  simp [doColdReset, State.coldReset, haux, hreset]

theorem doColdReset_of_not_vinAux {s : State} (hreset : s.pins.resetL = true) (haux : s.pins.vinAux = false) :
    doColdReset s = s.modPins (fun p => { p with resetL := false }) := by
  simp [doColdReset, haux, hreset]

theorem coldReset_flash_of_starting {s : State} (h : s.tack.starting = true) :
    s.coldReset.flash = (s.startReason 0x0503).endStart.flash := by
  unfold State.coldReset
  rw [if_pos h]
  rfl

theorem endStart_flash (s : State) : s.endStart.flash.reason = s.flash.reason ∧
    s.endStart.flash.inProgress = s.flash.inProgress ∧ s.endStart.flash.failCount = s.flash.failCount := by
  unfold State.endStart
  split <;> exact ⟨rfl, rfl, rfl⟩

/-- What a start that ends changes beside the Tack Room's working state is flash. -/
theorem interruptedStart_eq (s : State) : ∃ flash tack, (if s.tack.starting then (s.startReason 0x0503).endStart else s) =
    { s with flash := flash, tack := tack } := by
  split
  · rw [endStart_frame]
    exact ⟨_, _, rfl⟩
  · exact ⟨s.flash, s.tack, rfl⟩

theorem coldReset_frame (s : State) :
    s.coldReset.regs = [] ∧
    (s.coldReset.hbm = [] ∧ s.coldReset.buf = [] ∧ s.coldReset.cqs = [] ∧ s.coldReset.eqs = [] ∧ s.coldReset.ctxs = [] ∧
      s.coldReset.grooms = []) ∧
    s.coldReset.pins = s.pins ∧ s.coldReset.coreOn = s.coreOn ∧ s.coldReset.fuses = s.fuses ∧ s.coldReset.todo = [] ∧
    s.coldReset.tack.coat = none := by
  obtain ⟨flash, tack, e⟩ := interruptedStart_eq s
  unfold State.coldReset
  rw [e]
  exact ⟨rfl, ⟨rfl, rfl, rfl, rfl, rfl, rfl⟩, rfl, rfl, rfl, rfl, rfl⟩

/-- Settles O6: the Tack Room's start and the cold reset by what they leave, the other orders of arrival by their pin. -/
theorem suppliesAndResetStartTheTackRoom : Obligations.SuppliesAndResetStartTheTackRoom := by
  unfold Obligations.SuppliesAndResetStartTheTackRoom
  refine ⟨fun s b haux hreset => ?_, fun s b hc haux hreset => ?_, fun s b hc haux => ?_, fun s hreset haux => ?_,
    fun s hc hreset haux => ?_, fun s hreset haux => ?_, fun s hc hreset haux => ?_, fun s => ?_⟩
  · obtain ⟨hstep, htk, hnt, hempty, hreg, hfuses, hflash, hpins⟩ :=
      tackStart_spec ((s.modPins (fun p => { p with vinAux := true, vinMain := b })).mainSeen b)
    refine ⟨_, tackAct_of_fin (doVinAuxRise_of_resetL b haux hreset) (fin_tackStart _), hstep, htk, hnt, hempty, hreg, ?_⟩
    rw [hfuses, hflash, hpins, mainSeen_eq]
    exact ⟨rfl, ⟨flash_interrupted_slotA _, flash_interrupted_slotB _⟩, flash_interrupted_grave _, rfl⟩
  · exact tackAct_of_fin (doVinAuxRise_of_not_resetL b haux hreset) (fin_of_calm _ hc.1 hc.2)
  · exact tackAct_of_fin (if_pos haux) (fin_of_calm _ hc.1 hc.2)
  · obtain ⟨hstep, htk, hnt, hempty, hreg, hfuses, hflash, hpins⟩ := tackStart_spec (s.modPins (fun p => { p with resetL := true }))
    refine ⟨_, tackAct_of_fin (doResetLRise_of_vinAux hreset haux) (fin_tackStart _), hstep, htk, hnt, hempty, hreg, ?_⟩
    rw [hfuses, hflash, hpins]
    simp
  · exact tackAct_of_fin (doResetLRise_of_not_vinAux hreset haux) (fin_of_calm _ hc.1 hc.2)
  · obtain ⟨hregs, hempty, hpins, hcore, hfuses, htodo, hcoat⟩ := coldReset_frame (s.modPins (fun p => { p with resetL := false }))
    refine ⟨_, tackAct_of_fin (doColdReset_of_vinAux hreset haux) (fin_of_calm _ htodo hcoat), hregs, hempty, hpins, hcore,
      hfuses, fun hs => ?_, fun hs => ?_⟩
    · rw [State.coldReset, modPins_tack, if_neg (by simp [hs])]
      rfl
    · rw [coldReset_flash_of_starting (s := s.modPins _) hs]
      obtain ⟨h1, h2, h3⟩ := endStart_flash ((s.modPins (fun p => { p with resetL := false })).startReason 0x0503)
      exact ⟨h1, h2, h3⟩
  · exact tackAct_of_fin (doColdReset_of_not_vinAux hreset haux) (fin_of_calm _ hc.1 hc.2)
  · obtain ⟨-, -, hnt, ⟨hhbm, hbuf, -⟩, hreg, hfuses, hflash, -⟩ := tackStart_spec s
    have hrest : s.tackStart.locks = [] ∧ s.tackStart.mbox.holder = none := by
      obtain ⟨regs, e⟩ := tackStart_eq s
      rw [e]
      exact ⟨rfl, rfl⟩
    refine ⟨hreg, hhbm, hbuf, hrest.1, hnt, hrest.2, hfuses, ?_⟩
    rw [hflash]
    refine ⟨flash_interrupted_slotA _, flash_interrupted_slotB _, flash_interrupted_failCount _, fun h => ?_, fun h => ?_⟩
    · rw [Flash.interrupted, if_pos h]
      exact ⟨rfl, rfl⟩
    · rw [Flash.interrupted, if_neg (by simp [h])]

end Sys2Proof.Machine
end

section
/-! PROOFS. A start's steps (R36, R37, R40, R447, R449), the loss of main power (R39, R40, R44, R450, R468), and the loops of
pace, voltage and power (R21, R23, R445, R446). -/

namespace Sys2Proof.Machine

-- The proofs are elaborated one after another: in parallel their threads' stacks need more memory than a compile may have.
set_option Elab.async false

/-! ### The caps (R446) -/

/-- The addresses of what showing the caps writes: TK_PACE_TARGET, and where TACK records a fault. -/
def CapsAt (a : Nat) : Prop := a = Reg.tkPaceTarget.addr ∨ FaultAt .tack a

theorem not_capsAt {a : Nat} (h : a < 0xF000) (hne : a ≠ Reg.tkPaceTarget.addr) : ¬ CapsAt a :=
  fun e => e.elim hne (not_faultAt_of_lt h _)

theorem State.Alters.showCaps (s : State) (was : Nat → Bool) : s.Alters (s.showCaps was) faultFields CapsAt := by
  unfold State.showCaps
  extract_lets eff s1 begin_
  have h1 : s.Alters s1 faultFields CapsAt := (setReg s _ (.inl rfl)).trans (setReg _ _ (.inl rfl))
  have hbegin : ∀ t k, State.Alters t (begin_ t k) faultFields CapsAt := fun t k =>
    ite (ite (fault _ _ _ _ fun _ => .inr) (fault _ _ _ _ fun _ => .inr)) (refl t)
  exact (h1.trans (foldl hbegin _ _)).trans (setReg _ _ (.inr (.inl rfl)))

/-! ### The voltages at a start (R445) -/

theorem startVoltage_eq (s : State) : s.startVoltage = { s with regs := s.startVoltage.regs, frees := s.frees + 2 } := rfl

theorem startVoltage_range (s : State) :
    1240 ≤ s.startVoltage.rf .tkTherm 31 16 ∧ s.startVoltage.rf .tkTherm 31 16 ≤ 1720 ∧
    1240 ≤ s.startVoltage.rf .tkTherm 15 0 ∧ s.startVoltage.rf .tkTherm 15 0 ≤ 1720 := by
  unfold State.startVoltage
  simp only
  rw [rf_wf_field _ _ _ _ _ _ _ (by decide) (by decide), rf_wf_same _ _ _ _ _ (by decide), rf_wf_same _ _ _ _ _ (by decide)]
  omega

theorem reg_startVoltage_other (s : State) {q : Reg} (h : q.addr ≠ Reg.tkTherm.addr) : s.startVoltage.reg q = s.reg q := by
  unfold State.startVoltage
  simp only
  rw [reg_wf_other _ _ _ _ _ _ h, reg_wf_other _ _ _ _ _ _ h]
  rfl

/-! ### A start begins (R36, R449) -/

theorem not_capsAt_tkState : ¬ CapsAt Reg.tkState.addr := not_capsAt (by decide) (by decide)

/-- The start marked, at step `n` (R449): what `State.beginStart` does but for the voltages of a core that is up. -/
def State.startMarked (s : State) (n : Nat) : State :=
  ((((((s.modFlash (fun f => { f with failCount := satAdd 255 f.failCount 1, inProgress := true })).modTack
    (fun t => { t with starting := true, stepAt := s.tk, retryAt := none, applied := none, tried := 0, dustStep := 0 })).modPins
    (fun p => { p with mainEn := true })).wf .tkDustReason 47 32 0xFFFF).setMode 0).setStep n).showTk

theorem beginStart_eq (s : State) : s.beginStart =
    if s.pins.mainPg = true ∧ s.coreOn = true then (s.startMarked 6).startVoltage.showCaps (s.startMarked 6).capped
    else s.startMarked (if s.pins.mainPg = false then 4 else 5) := by
  unfold State.beginStart State.startMarked
  cases hp : s.pins.mainPg <;> cases hc : s.coreOn <;> simp [hp, hc]

/-- A start that has begun: counted, marked, MAIN_EN high, STARTING, with no work and no topcoat left. -/
def State.Begins (s t : State) : Prop :=
  t.pins = { s.pins with mainEn := true } ∧ t.tack.starting = true ∧ t.tack.retryAt = none ∧ t.tack.up = s.tack.up ∧
  t.mode = 0 ∧ (t.flash.grave = s.flash.grave ∧ t.flash.failCount = satAdd 255 s.flash.failCount 1 ∧ t.flash.inProgress = true) ∧
  t.todo = s.todo ∧ (s.tack.coat = none → t.tack.coat = none)

theorem begins_startMarked (s : State) (n : Nat) : s.Begins (s.startMarked n) := by
  unfold State.startMarked
  refine ⟨by simp, by simp, by simp, by simp, ?_, by simp, by simp, by simp⟩
  rw [mode_showTk, mode_setStep, mode_setMode _ _ (by decide)]

theorem step_startMarked (s : State) {n : Nat} (h : n < 32) : (s.startMarked n).step? = n := by
  unfold State.startMarked
  rw [step_showTk, step_setStep _ _ h]

/-- The voltages and the caps leave the start as it is. -/
theorem State.Begins.showCaps {s t : State} (h : s.Begins t) (was : Nat → Bool) : s.Begins (t.startVoltage.showCaps was) := by
  obtain ⟨hpins, hstart, hretry, hup, hmode, hflash, htodo, hcoat⟩ := h
  have hr := State.Alters.showCaps t.startVoltage was
  have hm : (t.startVoltage.showCaps was).mode = t.mode := by
    rw [State.mode, hr.rf not_capsAt_tkState, State.rf, reg_startVoltage_other _ (by decide)]
    rfl
  have htack := hr.tackWork
  exact ⟨hr.pins.trans hpins, by rw [htack]; exact hstart, by rw [htack]; exact hretry, by rw [htack]; exact hup,
    hm.trans hmode, hr.flash ▸ hflash, hr.todo.trans htodo, fun h => hr.calmCoat (hcoat h)⟩

theorem beginStart_begins (s : State) : s.Begins s.beginStart := by
  rw [beginStart_eq]
  split
  · exact (begins_startMarked s 6).showCaps _
  · exact begins_startMarked s _

theorem step_beginStart (s : State) :
    s.beginStart.step? = if s.pins.mainPg = false then 4 else if s.coreOn = true then 6 else 5 := by
  rw [beginStart_eq]
  split
  case isTrue h =>
    rw [State.step?, (State.Alters.showCaps _ _).rf not_capsAt_tkState, State.rf, reg_startVoltage_other _ (by decide)]
    rw [if_neg (by simp [h]), if_pos h.2]
    exact step_startMarked s (by decide)
  case isFalse h =>
    rw [step_startMarked _ (by split <;> decide)]
    cases hp : s.pins.mainPg
    · rfl
    · simp [show s.coreOn = false by simpa [hp] using h]

/-! ### TACK_ROOM_READY and START_RETRY -/

/-- A part whose starts have not failed three times goes on to a start (R449). -/
theorem countPoint_of_lt {s : State} (h : s.flash.failCount < 3) : s.countPoint =
    State.beginStart { s with flash := { s.flash with oneStart := false }
                              tack := { s.tack with leaving := false, before := s.flash.failCount } } := by
  unfold State.countPoint
  rw [if_neg (by simp [h])]
  rfl

theorem countPoint_begins {s : State} (h : s.flash.failCount < 3) : s.Begins s.countPoint ∧
    s.countPoint.step? = if s.pins.mainPg = false then 4 else if s.coreOn = true then 6 else 5 := by
  rw [countPoint_of_lt h]
  generalize he : ({ s with flash := { s.flash with oneStart := false }
                            tack := { s.tack with leaving := false, before := s.flash.failCount } } : State) = u
  have hb := beginStart_begins u
  have hs := step_beginStart u
  unfold State.Begins at hb ⊢
  generalize u.beginStart = t at hb hs ⊢
  subst he
  exact ⟨hb, hs⟩

theorem satAdd_of_lt {n : Nat} (h : n < 3) : satAdd 255 n 1 = n + 1 := if_pos (by omega)

/-- The Tack Room as it becomes ready, with its straps read and VIN_MAIN seen (R36, R40, R45). -/
def State.readied (s : State) (v : Bool) (a : BitVec 2) : State :=
  { s with
    pins := { s.pins with vinMain := v, addr1 := a.getLsbD 1, addr0 := a.getLsbD 0 }
    flash := { s.flash with grave := if s.pins.graveLatch = false ∧ v = false then none else s.flash.grave }
    tack := { s.tack with up := true } }

/-- A Tack Room that may become ready: its supply is present, it is out of reset, and its start stands at step 2. -/
def State.MayReady (s : State) : Prop :=
  s.pins.vinAux = true ∧ s.pins.resetL = true ∧ s.tack.up = false ∧ s.tack.dead = false ∧ s.step? = 2

theorem doTackRoomReady_eq {s : State} (v : Bool) (a : BitVec 2) (h : s.MayReady) : doTackRoomReady v a s =
    match (s.readied v a).flash.grave with
    | some g => (((((s.readied v a).mainOff.showGrave g.1).setMode 4).setStep 0).wb (.ftStatus .tack) 3 true)
    | none =>
      if s.tack.retryAt.isSome then ((s.readied v a).modPins (fun p => { p with faultP := true, faultN := false })).setStep 0
      else ((s.readied v a).modPins (fun p => { p with faultP := true, faultN := false })).countPoint := by
  obtain ⟨haux, hreset, hup, hdead, hstep⟩ := h
  have e : ((s.mainSeen v).modPins (fun p => { p with addr1 := a.getLsbD 1, addr0 := a.getLsbD 0 })).modTack
      (fun t => { t with up := true }) = s.readied v a := by
    rw [mainSeen_eq]
    rfl
  unfold doTackRoomReady
  rw [if_neg (by simp [haux, hreset, hup, hdead, hstep]), e]
  rfl

theorem tackRoomReady_starts {s : State} (v : Bool) (a : BitVec 2) (hc : s.Calm) (h : s.MayReady)
    (hgrave : s.flash.grave = none ∨ (s.pins.graveLatch = false ∧ v = false)) (hretry : s.tack.retryAt = none)
    (hfail : s.flash.failCount < 3) :
    ∃ t, s.tackAct (doTackRoomReady v a) = .next t ∧ t.flash.grave = none ∧
      t.step? = (if s.pins.mainPg = false then 4 else if s.coreOn = true then 6 else 5) ∧
      t.pins = { s.pins with
        vinMain := v, addr1 := a.getLsbD 1, addr0 := a.getLsbD 0, faultP := true, faultN := false, mainEn := true } ∧
      t.tack.up = true ∧ t.tack.starting = true ∧ t.mode = 0 ∧ t.flash.failCount = s.flash.failCount + 1 ∧
      t.flash.inProgress = true := by
  have hg : (s.readied v a).flash.grave = none := by
    rcases hgrave with hg | hg
    · simp [State.readied, hg]
    · exact if_pos hg
  have hdo := doTackRoomReady_eq v a h
  rw [hg, hretry] at hdo
  simp only [Option.isSome_none, Bool.false_eq_true, if_false] at hdo
  obtain ⟨⟨hpins, hstart, -, hup, hmode, ⟨hgr, hcount, hprog⟩, htodo, hcoat⟩, hstep⟩ :=
    countPoint_begins (s := (s.readied v a).modPins (fun p => { p with faultP := true, faultN := false })) hfail
  exact ⟨_, tackAct_of_fin hdo (fin_of_calm _ (htodo.trans hc.1) (hcoat hc.2)), hgr.trans hg, hstep, hpins, hup, hstart, hmode,
    hcount.trans (satAdd_of_lt hfail), hprog⟩

@[simp] theorem mainOff_tack (s : State) : s.mainOff.tack =
    { s.tack with coat := none, underHash := 0, burn := none, stopping := false, dustStep := 0 } := by
  obtain ⟨r, h⟩ := mainOff_eq s
  rw [h]
  rfl

/-- GRAVE on the FAULT pair, while the watchdog's indication does not override it (R44, R47). -/
theorem showGrave_of_not_dead {s : State} (h : s.tack.dead = false) (code : Nat) : s.showGrave code =
    s.modPins (fun p => { p with graveLatch := true, trip := p.trip || decide (code = 0x01F0), faultP := false, faultN := true }) := by
  unfold State.showGrave
  exact if_neg (by simp [h])

theorem tackRoomReady_halts {s : State} (v : Bool) (a : BitVec 2) (h : s.MayReady) {g : Nat × Nat}
    (hgrave : s.flash.grave = some g) (hv : s.pins.graveLatch = true ∨ v = true) :
    ∃ t, s.tackAct (doTackRoomReady v a) = .next t ∧ t.flash.grave = some g ∧ t.mode = 4 ∧ t.tack.up = true ∧
      t.coreOn = false ∧ t.pins.mainEn = false ∧ t.pins.faultP = false ∧ t.pins.faultN = true := by
  have hg : (s.readied v a).flash.grave = some g := by
    rcases hv with hv | hv <;> simp [State.readied, hgrave, hv]
  have hdo := doTackRoomReady_eq v a h
  rw [hg] at hdo
  simp only at hdo
  have hdead : (s.readied v a).mainOff.tack.dead = false := by
    rw [mainOff_tack]
    exact h.2.2.2.1
  rw [showGrave_of_not_dead hdead] at hdo
  refine ⟨_, tackAct_of_fin hdo (fin_of_calm _ (by simp) (by simp)), by simpa using hg, ?_, by simp [State.readied], by simp,
    by simp, by simp, by simp⟩
  rw [State.wb, State.wf, mode_setReg _ _ _ (by decide), mode_setStep, mode_setMode _ _ (by decide)]

theorem startRetry_starts {s : State} (hc : s.Calm) {t0 : Nat} (hretry : s.tack.retryAt = some t0) (hup : s.tack.up = true)
    (hdue : t0 + ms 1000 ≤ s.tk) (hfail : s.flash.failCount < 3) :
    ∃ t, s.tackAct doStartRetry = .next t ∧ t.pins.mainEn = true ∧ t.tack.starting = true ∧ t.tack.retryAt = none ∧
      t.mode = 0 ∧ t.flash.failCount = s.flash.failCount + 1 := by
  have hdo : doStartRetry s = (s.modTack (fun t => { t with retryAt := none, startAt := s.tk })).countPoint := by
    unfold doStartRetry
    rw [hretry]
    exact if_neg (by simp [hup]; omega)
  obtain ⟨⟨hpins, hstart, hretry', -, hmode, ⟨-, hcount, -⟩, htodo, hcoat⟩, -⟩ :=
    countPoint_begins (s := s.modTack (fun t => { t with retryAt := none, startAt := s.tk })) hfail
  exact ⟨_, tackAct_of_fin hdo (fin_of_calm _ (htodo.trans hc.1) (hcoat hc.2)), by rw [hpins], hstart, hretry', hmode,
    hcount.trans (satAdd_of_lt hfail)⟩

/-! ### MAIN_PG_RISE and REGULATORS_UP -/

theorem stepOver_of_le {s : State} {n : Nat} (h : s.tk ≤ s.tack.stepAt + ms n) : s.stepOver n = false :=
  decide_eq_false (by omega)

theorem mainPgRise_goes_on {s : State} (hc : s.Calm) (hen : s.pins.mainEn = true) (hpg : s.pins.mainPg = false)
    (haux : s.pins.vinAux = true) (hup : s.tack.up = true) (hstart : s.tack.starting = true) (hstep : s.step? = 4)
    (hin : s.tk ≤ s.tack.stepAt + ms 100) :
    ∃ t, s.tackAct doMainPgRise = .next t ∧ t.pins = { s.pins with mainPg := true, vinMain := true } ∧ t.step? = 5 ∧
      t.tack.stepAt = s.tk ∧ t.coreOn = s.coreOn := by
  have hdo : doMainPgRise s = ((s.modPins (fun p => { p with mainPg := true, vinMain := true })).setStep 5).modTack
      (fun t => { t with stepAt := s.tk }) := by
    have hover : (s.modPins (fun p => { p with mainPg := true, vinMain := true })).stepOver 100 = false := stepOver_of_le hin
    have hstep' : (s.modPins (fun p => { p with mainPg := true, vinMain := true })).step? = 4 := hstep
    simp [doMainPgRise, hen, hpg, haux, hup, hstart, hstep', hover]
  exact ⟨_, tackAct_of_fin hdo (fin_of_calm _ hc.1 hc.2), rfl, step_setStep _ _ (by decide), rfl, rfl⟩

theorem regulatorsUp_goes_on {s : State} (hc : s.Calm) (hup : s.tack.up = true) (hpg : s.pins.mainPg = true)
    (hoff : s.coreOn = false) (hstart : s.tack.starting = true) (hstep : s.step? = 5)
    (hin : s.tk ≤ s.tack.stepAt + ms 5) :
    ∃ t, s.tackAct doRegulatorsUp = .next t ∧ t.coreOn = true ∧ t.step? = 6 ∧ t.tack.stepAt = s.tk ∧
      1240 ≤ t.rf .tkTherm 31 16 ∧ t.rf .tkTherm 31 16 ≤ 1720 ∧ 1240 ≤ t.rf .tkTherm 15 0 ∧ t.rf .tkTherm 15 0 ≤ 1720 := by
  have hdo : doRegulatorsUp s = (((State.startVoltage { s with coreOn := true }).showCaps s.capped).setStep 6).modTack
      (fun t => { t with stepAt := s.tk }) := by
    simp [doRegulatorsUp, hup, hpg, hoff, hstart, hstep, stepOver_of_le hin]
  have hr := State.Alters.showCaps (State.startVoltage { s with coreOn := true }) s.capped
  have htherm : ∀ hi lo, ((State.startVoltage { s with coreOn := true }).showCaps s.capped).rf .tkTherm hi lo =
      (State.startVoltage { s with coreOn := true }).rf .tkTherm hi lo :=
    hr.rf (not_capsAt (by decide) (by decide))
  have htodo := hr.todo.trans hc.1
  have hcoat := hr.calmCoat hc.2
  have hon : _ = true := hr.coreOn
  have hrange := startVoltage_range { s with coreOn := true }
  generalize (State.startVoltage { s with coreOn := true }).showCaps s.capped = u at *
  refine ⟨_, tackAct_of_fin hdo (fin_of_calm _ htodo hcoat), hon, step_setStep _ _ (by decide), rfl, ?_⟩
  have hset : ∀ hi lo, (u.setStep 6).rf .tkTherm hi lo = u.rf .tkTherm hi lo := fun _ _ => rf_wf_other _ _ _ _ _ _ _ _ (by decide)
  simp only [← htherm, ← hset] at hrange
  exact hrange

/-- Settles O7. -/
theorem startRaisesMainPower : Obligations.StartRaisesMainPower := by
  unfold Obligations.StartRaisesMainPower
  refine ⟨fun s dt v a hc h1 h2 h3 h4 h5 hg hr hf => tackRoomReady_starts v a hc ⟨h1, h2, h3, h4, h5⟩ hg hr hf,
    fun s dt v a g hc h1 h2 h3 h4 h5 hg hv => tackRoomReady_halts v a ⟨h1, h2, h3, h4, h5⟩ hg hv,
    fun s dt t0 hc hr hu hd hf => startRetry_starts hc hr hu hd hf,
    fun s hc => mainPgRise_goes_on hc, fun s hc hen => ?_, fun s hc => regulatorsUp_goes_on hc⟩
  exact tackAct_of_fin (if_pos (by simp [hen])) (fin_of_calm _ hc.1 hc.2)

end Sys2Proof.Machine
end

section
/-! PROOFS. The later steps of a start (R447, R449), and the loss of main power (R39, R40, R44, R450, R468). -/

namespace Sys2Proof.Machine

-- The proofs are elaborated one after another: in parallel their threads' stacks need more memory than a compile may have.
set_option Elab.async false

/-! ### Judging the neighbours again (R101, R418) -/

/-- The addresses of the state and control of ports' links, and those at which ports record faults. -/
def PortLinkAt (a : Nat) : Prop :=
  ∃ p : Port, a = (Reg.llStatus (.port p)).addr ∨ a = (Reg.llCtrl (.port p)).addr ∨ FaultAt (.port p) a

theorem not_portLinkAt_of_lt {a : Nat} (h : a < 0xF000) : ¬ PortLinkAt a := by
  rintro ⟨p, e | e | e⟩
  · simp only [e, Reg.addr, Reg.off, Reg.block, linkBlock, linkBase, blockBase] at h; omega
  · simp only [e, Reg.addr, Reg.off, Reg.block, linkBlock, linkBase, blockBase] at h; omega
  · exact not_faultAt_of_lt h _ e

/-- The fields that a port's judgement changes. -/
def judgeFields : List Field := .ports :: faultFields

namespace State.Alters

theorem quarantine (s : State) (p : Port) (why : Nat) : s.Alters (s.quarantine p why) judgeFields PortLinkAt :=
  (((setReg s _ ⟨p, .inl rfl⟩).trans (setReg _ _ ⟨p, .inl rfl⟩)).trans (put_ports _ _)).trans
    (fault _ _ _ _ fun _ h => ⟨p, .inr (.inr h)⟩)

theorem judge (s : State) (p : Port) : s.Alters (s.judge p) judgeFields PortLinkAt := by
  unfold State.judge
  extract_lets st ready
  split
  · exact refl s
  · refine ite (put_ports s _) ?_
    extract_lets why s1
    refine ite (refl s) ?_
    have h1 : s.Alters s1 judgeFields PortLinkAt := setReg s _ ⟨p, .inl rfl⟩
    have hdone : ∀ u : State, u.Alters (u.wb (.llCtrl (.port p)) 3 false) judgeFields PortLinkAt := fun u =>
      setReg u _ ⟨p, .inr (.inl rfl)⟩
    exact ite (ite h1 ((h1.trans (setReg _ _ ⟨p, .inl rfl⟩)).trans (hdone _)))
      (ite h1 ((h1.trans (quarantine ..)).trans (hdone _)))

theorem judgeAll (s : State) : s.Alters s.judgeAll judgeFields PortLinkAt :=
  foldl (fun t p => ite (judge t p) (refl t)) _ s

end State.Alters

/-! ### The steps of a start complete, or fail (R37, R447, R449) -/

theorem fin_failStart (s : State) (reason : Nat) : (s.failStart reason).fin = s.failStart reason := by
  obtain ⟨-, -, -, -, -, -, -, htodo, hcoat⟩ := failStart_spec s reason
  exact fin_of_calm _ htodo hcoat

@[simp] theorem mode_modTack (s : State) (f : Tack → Tack) : (s.modTack f).mode = s.mode := rfl
@[simp] theorem step_modTack (s : State) (f : Tack → Tack) : (s.modTack f).step? = s.step? := rfl

theorem startDone_eq (s : State) : ∃ u : State, s.startDone = (if s.tack.burn.isSome then u.judgeAll else u) ∧ u.mode = 1 ∧ u.step? = 10 ∧
    u.flash.failCount = 0 ∧ u.flash.suspectA = false ∧ u.flash.suspectB = false ∧ u.tack.starting = false ∧
    u.fuses.sec = s.tack.burn.getD s.fuses.sec ∧ u.todo = s.todo ∧ u.tack.coat = s.tack.coat := by
  unfold State.startDone
  extract_lets n sec burnt s1 _ s3 s4 s5 s6
  have hmode : s4.mode = 1 := by rw [mode_setStep, mode_setMode _ _ (by decide)]
  have hstep : s4.step? = 10 := step_setStep _ _ (by decide)
  have hshown : ∀ hi < 64, ∀ lo, 48 ≤ lo → s5.rf .tkState hi lo = s4.rf .tkState hi lo := fun hi h lo h' => by
    rw [rf_wf_field _ _ _ _ _ _ _ (by omega) (by omega), rf_wf_field _ _ _ _ _ _ _ (by omega) (by omega)]
  refine ⟨s6, rfl, ?_, ?_, ?_⟩
  case refine_3 => simp [s6, s5, s4, s3, s1, sec]
  · rw [mode_showTk, mode_modTack, State.mode]
    exact (hshown 63 (by decide) 61 (by decide)).trans hmode
  · rw [step_showTk, step_modTack, State.step?]
    exact (hshown 60 (by decide) 56 (by decide)).trans hstep

theorem startDone_spec (s : State) : s.startDone.mode = 1 ∧ s.startDone.step? = 10 ∧ s.startDone.flash.failCount = 0 ∧
    s.startDone.flash.suspectA = false ∧ s.startDone.flash.suspectB = false ∧ s.startDone.tack.starting = false ∧
    s.startDone.fuses.sec = s.tack.burn.getD s.fuses.sec ∧ (s.Calm → s.startDone.Calm) := by
  obtain ⟨u, e, hmode, hstep, hfail, hA, hB, hstart, hsec, htodo, hcoat⟩ := startDone_eq s
  have hcalm : s.Calm → u.Calm := fun h => ⟨htodo.trans h.1, hcoat.trans h.2⟩
  have hj := State.Alters.judgeAll u
  have hst : ∀ hi lo, u.judgeAll.rf .tkState hi lo = u.rf .tkState hi lo := hj.rf (not_portLinkAt_of_lt (by decide))
  rw [e]
  clear e
  split
  · refine ⟨?_, ?_, ?_⟩
    · rw [State.mode, hst]
      exact hmode
    · rw [State.step?, hst]
      exact hstep
    rw [hj.flash, hj.fuses, hj.tackWork]
    exact ⟨hfail, hA, hB, hstart, hsec, fun h => hj.calm (hcalm h)⟩
  · exact ⟨hmode, hstep, hfail, hA, hB, hstart, hsec, hcalm⟩

theorem stepBound_of_six {s : State} (h : s.step? = 6) : s.stepBound = some 200 := by
  rw [State.stepBound, h]
  rfl
theorem stepBound_of_eight {s : State} (h : s.step? = 8) : s.stepBound = some 50 := by
  rw [State.stepBound, h]
  rfl
theorem lateReason_of_eight {s : State} (h : s.step? = 8) (west : Bool) :
    s.lateReason west = if west then 0x0402 else 0x0401 := by
  rw [State.lateReason, h]
  rfl

/-- Settles O8. -/
theorem startStepsSucceedOrFail : Obligations.StartStepsSucceedOrFail := by
  unfold Obligations.StartStepsSucceedOrFail
  refine ⟨fun s dt hc hup hpg hlate hstart hstep => ?_, fun s hc hup hstart hon hstep hin hlate => ?_,
    fun s hc hup hstart hon hstep hlate => ?_, fun s dt west hc hup hstart hstep hlate => ?_⟩
  · have hdo : doMainPgTimeout (s.elapse dt) = (s.elapse dt).failStart 0x0101 := by
      unfold doMainPgTimeout
      rw [if_neg (by simp [hup, hpg]; omega), if_pos (by simp [hstart, hstep])]
    obtain ⟨hen, -, hst, hretry, hreason, -, hcount, -⟩ := failStart_spec (s.elapse dt) 0x0101
    exact ⟨_, tackAct_of_fin hdo (fin_failStart _ _), hen, hst, hretry, hreason, hcount⟩
  · have hstepLate : s.stepLate = false := by
      rw [State.stepLate, stepBound_of_six hstep, Option.any_some, stepOver_of_le hin]
    have hdo : doStartStepComplete .done s = (s.setStep 7).modTack (fun t => { t with stepAt := s.tk }) := by
      unfold doStartStepComplete
      rw [if_neg (by simp [hup, hstart, hon]), if_neg (by simp [hstepLate]), if_neg (by simp [hlate]), hstep]
      rfl
    exact ⟨_, tackAct_of_fin hdo (fin_of_calm _ hc.1 hc.2), step_setStep _ _ (by decide), rfl, rfl⟩
  · have hdo : doStartStepComplete .done s = s.startDone := by
      have hstepLate : s.stepLate = false := by simp [State.stepLate, State.stepBound, hstep]
      simp [doStartStepComplete, hup, hstart, hon, hstepLate, hlate, hstep]
    obtain ⟨hmode, hst, hfail, hA, hB, hends, hsec, hcalm⟩ := startDone_spec s
    exact ⟨_, tackAct_of_fin hdo (fin_of_calm _ (hcalm hc).1 (hcalm hc).2), hmode, hst, hfail, hA, hB, hends, hsec⟩
  · have hdo : doStartStepTimeout west (s.elapse dt) = (s.elapse dt).failStart (if west then 0x0402 else 0x0401) := by
      unfold doStartStepTimeout
      rw [if_neg (by simp [hup, hstart]), stepBound_of_eight hstep, lateReason_of_eight hstep]
      extract_lets late
      rw [Option.any_some, if_pos (decide_eq_true hlate)]
    obtain ⟨hen, hoff, -, hretry, hreason, -⟩ := failStart_spec (s.elapse dt) (if west then 0x0402 else 0x0401)
    exact ⟨_, tackAct_of_fin hdo (fin_failStart _ _), hen, hoff, hretry, hreason⟩

/-! ### Main power stops (R39, R40, R44, R450, R468) -/

@[simp] theorem mode_modPins (s : State) (f : Pins → Pins) : (s.modPins f).mode = s.mode := rfl
@[simp] theorem mode_modFlash (s : State) (f : Flash → Flash) : (s.modFlash f).mode = s.mode := rfl

@[simp] theorem endStart_pins (s : State) : s.endStart.pins = s.pins := by rw [endStart_frame]
@[simp] theorem endStart_grave (s : State) : s.endStart.flash.grave = s.flash.grave := by
  unfold State.endStart
  split <;> rfl

theorem mainPowerLost_stops {s : State} (b : Bool) (hen : s.pins.mainEn = true) (hup : s.tack.up = true)
    (hstart : s.tack.starting = false) (hmode : s.mode = 1) :
    ∃ t, s.tackAct (doMainPowerLost b) = .next t ∧ t.pins = { s.pins with vinMain := b, mainEn := false, mainPg := false } ∧
      t.coreOn = false ∧ t.hbm = [] ∧ t.grooms = [] ∧ t.flash.mainLost = true ∧ t.mode = 5 := by
  obtain ⟨u, hu⟩ : ∃ u, u = (s.modPins (fun p => { p with vinMain := b })).modFlash (fun f => { f with mainLost := true }) :=
    ⟨_, rfl⟩
  have hf : u.Alters (u.fault .tack .note 2 0) faultFields (FaultAt .tack) := State.Alters.fault _ _ _ _ fun _ h => h
  have hmode' : (u.fault .tack .note 2 0).mode = 1 := by
    rw [State.mode, hf.rf (not_faultAt_of_lt (by decide) _), hu]
    exact hmode
  have hstart' : (u.fault .tack .note 2 0).tack.starting = false := by
    rw [hf.tackWork, hu]
    exact hstart
  have hpins : (u.fault .tack .note 2 0).pins = { s.pins with vinMain := b } := by
    rw [hf.pins, hu]
    rfl
  have hlost : (u.fault .tack .note 2 0).flash.mainLost = true := by
    rw [hf.flash, hu]
    rfl
  have hdo : doMainPowerLost b s = (u.fault .tack .note 2 0).mainOff.setMode 5 := by
    unfold doMainPowerLost
    rw [if_neg (by simp [hen])]
    simp only
    rw [← hu, if_pos (show u.tack.up = true by rw [hu]; exact hup)]
    have hup' : (u.fault .tack .note 2 0).tack.up = true := by
      rw [hf.tackWork, hu]
      exact hup
    simp [hstart', hmode', hup']
  generalize u.fault .tack .note 2 0 = v at *
  exact ⟨_, tackAct_of_fin hdo (fin_of_calm _ (by simp [State.setMode]) (by simp [State.setMode])), by simp [State.setMode, hpins],
    by simp [State.setMode], by simp [State.setMode], by simp [State.setMode], by simp [State.setMode, hlost],
    mode_setMode _ _ (by decide)⟩

theorem vinAuxLost_stops {s : State} (haux : s.pins.vinAux = true) :
    ∃ t, s.tackAct doVinAuxLost = .next t ∧ t.coreOn = false ∧ t.regs = [] ∧ t.hbm = [] ∧
      t.pins = { vinMain := s.pins.vinMain, resetL := s.pins.resetL } ∧ t.flash.grave = s.flash.grave := by
  obtain ⟨u, hu, hpins, hgrave⟩ : ∃ u, u = (if s.tack.starting then s.endStart else s) ∧ u.pins = s.pins ∧
      u.flash.grave = s.flash.grave := by
    refine ⟨_, rfl, ?_⟩
    split <;> simp
  have hdo : doVinAuxLost s = { u.mainOff with
      regs := [], pmFix := [], ftPosted := [], tack := {}
      pins := { vinMain := u.mainOff.pins.vinMain, resetL := u.mainOff.pins.resetL } } := by
    unfold doVinAuxLost
    rw [if_neg (by simp [haux]), hu]
  exact ⟨_, tackAct_of_fin hdo (fin_of_calm _ (mainOff_todo u) rfl), mainOff_coreOn u, rfl, mainOff_hbm u, by simp [hpins],
    by simp [hgrave]⟩

/-- A GRAVE in the TACK block's record writes registers alone. -/
theorem graveRecord_eq (s : State) (code unit : Nat) (first : Bool) :
    ∃ regs, s.graveRecord code unit first = { s with regs := regs } := by
  unfold State.graveRecord
  split
  · exact ⟨s.regs, rfl⟩
  · simp only
    split
    · exact ⟨_, rfl⟩
    · split <;> exact ⟨_, rfl⟩

/-- The first GRAVE fault (R44, R468): latched and shown, recorded in flash, and main power off. -/
theorem grave_first {s : State} (haux : s.pins.vinAux = true) (hgrave : s.flash.grave = none) (hdead : s.tack.dead = false)
    (code unit : Nat) :
    (s.grave code unit).pins = { s.pins with graveLatch := true, trip := s.pins.trip || decide (code = 0x01F0), faultP := false,
                                             faultN := true, mainEn := false, mainPg := false } ∧
    (s.grave code unit).coreOn = false ∧ (s.grave code unit).hbm = [] ∧ (s.grave code unit).flash.grave = some (code, unit) ∧
    (s.grave code unit).todo = [] ∧ (s.grave code unit).tack.coat = none := by
  unfold State.grave
  rw [if_neg (by simp [haux]), hgrave]
  extract_lets _ s1 s2 s3 s4
  have h1 : s1 = (s.modFlash (fun f => { f with grave := some (code, unit) })).modPins (fun p => { p with
      graveLatch := true, trip := p.trip || decide (code = 0x01F0), faultP := false, faultN := true }) :=
    showGrave_of_not_dead (s := s.modFlash _) hdead code
  have h2 : s2.pins = s1.pins ∧ s2.flash.grave = s1.flash.grave := by
    unfold s2
    split <;> simp
  have h4 : s4.pins = { s1.pins with mainEn := false, mainPg := false } ∧ s4.coreOn = false ∧ s4.hbm = [] ∧
      s4.flash.grave = s1.flash.grave ∧ s4.todo = [] ∧ s4.tack.coat = none := by
    unfold s4 s3
    split <;> simp [State.setMode, h2]
  obtain ⟨regs, e⟩ := graveRecord_eq s4 code unit true
  simp only [e]
  rw [h1] at h4
  exact h4

/-- WATCHDOG_EXPIRY: what goes before the loss of main power changes the flash and the Tack Room's working state alone. -/
theorem watchdogExpiry_stops {s : State} (hup : s.tack.up = true) (hrun : ms 50 < s.tk) :
    ∃ t, s.tackAct doWatchdogExpiry = .next t ∧ t.pins.faultP = false ∧ t.pins.faultN = false ∧ t.pins.mainEn = false ∧
      t.coreOn = false ∧ t.hbm = [] ∧ t.flash.watchdog = true ∧ t.tack.dead = true := by
  obtain ⟨u, hdo⟩ : ∃ u : State, doWatchdogExpiry s = ((u.modFlash (fun f => { f with watchdog := true })).mainOff.showTk.modTack
      (fun t => { t with dead := true, up := false, retryAt := none })).modPins (fun p => { p with faultP := false, faultN := false }) := by
    unfold doWatchdogExpiry
    rw [if_neg (by simp [hup]; omega)]
    exact ⟨_, rfl⟩
  exact ⟨_, tackAct_of_fin hdo (fin_of_calm _ (by simp) (by simp)), by simp, by simp, by simp, by simp, by simp, by simp, by simp⟩

/-- Settles O9. -/
theorem lossOfPowerAndGraveStopMainPower : Obligations.LossOfPowerAndGraveStopMainPower := by
  unfold Obligations.LossOfPowerAndGraveStopMainPower
  refine ⟨fun s b _ hen _ hup hstart hmode => ?_, fun s _ haux => vinAuxLost_stops haux, fun s k _ haux hgrave hdead => ?_,
    fun s u _ haux hgrave hdead => ?_, fun s _ hup hrun => watchdogExpiry_stops hup hrun⟩
  · obtain ⟨t, he, hpins, hon, hhbm, hgr, hlost, hmode⟩ := mainPowerLost_stops b hen hup hstart hmode
    exact ⟨t, he, by rw [hpins], hon, hhbm, hgr, by rw [hpins], by rw [hpins], by rw [hpins], hlost, hmode⟩
  · obtain ⟨hpins, hon, hhbm, hg, htodo, hcoat⟩ := grave_first haux hgrave hdead 0x01F0 k.val
    exact ⟨s.grave 0x01F0 k.val, tackAct_of_fin rfl (fin_of_calm _ htodo hcoat), by simp [hpins], by rw [hpins], by rw [hpins], by rw [hpins], hon,
      hhbm, hg⟩
  · obtain ⟨hpins, hon, hhbm, hg, htodo, hcoat⟩ := grave_first haux hgrave hdead 0x01F2 0
    exact ⟨s.grave 0x01F2 0, tackAct_of_fin rfl (fin_of_calm _ htodo hcoat), by simp [hpins], by rw [hpins], by rw [hpins], by rw [hpins], hon,
      hhbm, hg⟩

end Sys2Proof.Machine
end

section
/-! PROOFS. The loops of pace, voltage and power (R21, R23, R445, R446). -/

namespace Sys2Proof.Machine

-- The proofs are elaborated one after another: in parallel their threads' stacks need more memory than a compile may have.
set_option Elab.async false

/-! ### The pace reading (R21, R23) -/

theorem lowest_cons (m : BitVec 16) (ms : List (BitVec 16)) :
    lowest (m :: ms) = ms.foldl (fun a x => min a x.toNat) m.toNat := by
  have h : min 0xFFFF m.toNat = m.toNat := Nat.min_eq_right (by omega)
  rw [lowest, List.foldl_cons, h]

theorem lowest_lt (ms : List (BitVec 16)) : lowest ms < 65536 := by
  have h : ∀ a < 65536, ms.foldl (fun a x => min a x.toNat) a < 65536 := by
    induction ms with
    | nil => exact fun a ha => ha
    | cons m ms ih => exact fun a ha => ih _ (lt_of_le_of_lt (Nat.min_le_left _ _) ha)
  exact h _ (by decide)

/-- A domain's pace shown: its reading, and its floor bit with a NOTE where it is the first below 1.750 Gt/s. -/
def State.showPace (s : State) (d v : Nat) : State :=
  let s := if d = 0 then s.wf .paceStatus 15 0 v else s.wf .paceStatus 31 16 v
  if v < 1750 ∧ s.rb .paceStatus (48 + d) = false then (s.wb .paceStatus (48 + d) true).fault .global .note 0x10 d else s

/-- An interval of 1 µs has passed and both domains' 16 readings are there. -/
def State.PaceDue (s : State) (e w : List (BitVec 16)) : Prop :=
  s.paceAt + us 1 ≤ s.clk ∧ e.length = 16 ∧ w.length = 16

theorem doPaceInterval_eq {s : State} {e w : List (BitVec 16)} (h : s.PaceDue e w) : doPaceInterval e w s =
    if (State.showPace { s with paceAt := s.clk } 0 (lowest e)).dust then
      (State.showPace { s with paceAt := s.clk } 0 (lowest e)).wf .paceStatus 31 16 0
    else (State.showPace { s with paceAt := s.clk } 0 (lowest e)).showPace 1 (lowest w) := by
  obtain ⟨hdue, he, hw⟩ := h
  obtain ⟨m, e, rfl⟩ := List.exists_cons_of_length_eq_add_one he
  obtain ⟨m', w, rfl⟩ := List.exists_cons_of_length_eq_add_one hw
  unfold doPaceInterval
  rw [if_neg (by omega), lowest_cons, lowest_cons]
  rfl

def PaceAt (a : Nat) : Prop := a = Reg.paceStatus.addr ∨ FaultAt .global a

theorem showPace_alters (s : State) (d v : Nat) : s.Alters (s.showPace d v) faultFields PaceAt := by
  unfold State.showPace
  extract_lets s1
  have h1 : s.Alters s1 faultFields PaceAt := .ite (.setReg s _ (.inl rfl)) (.setReg s _ (.inl rfl))
  exact .ite ((h1.trans (.setReg _ _ (.inl rfl))).trans (.fault _ _ _ _ fun _ => .inr)) h1

theorem dust_showPace (s : State) (d v : Nat) : (s.showPace d v).dust = s.dust := by
  have h : (s.showPace d v).mode = s.mode :=
    (showPace_alters s d v).rf (fun e => e.elim (by decide) (not_faultAt_of_lt (by decide) _)) _ _
  rw [State.dust, State.dust, h]

theorem not_faultAt_paceStatus : ¬ FaultAt .global Reg.paceStatus.addr := not_faultAt_of_off _ 0x300 rfl

theorem showPace_floor (s : State) (d v : Nat) (hd : d < 2) :
    (s.showPace d v).rb .paceStatus (48 + d) = (s.rb .paceStatus (48 + d) || decide (v < 1750)) := by
  unfold State.showPace
  extract_lets s1
  have h1 : s1.rb .paceStatus (48 + d) = s.rb .paceStatus (48 + d) := by
    unfold s1
    split <;> exact rb_wf_field _ _ _ _ _ _ (by omega) (by omega)
  split
  case isTrue h =>
    rw [rb_fault _ _ _ _ _ not_faultAt_paceStatus, rb_wb_same _ _ _ _ (by omega)]
    simp [h.1]
  case isFalse h =>
    rw [h1] at h ⊢
    cases hb : s.rb .paceStatus (48 + d)
    · simp only [hb, and_true] at h
      simp [h]
    · rfl

/-- Beside its own reading and floor bit, PACE_STATUS shows what it did. -/
theorem showPace_fields (s : State) (d v : Nat) (hd : d < 2) {hi lo : Nat} (hhi : hi < 48) :
    (s.showPace d v).rf .paceStatus hi lo =
      (if d = 0 then s.wf .paceStatus 15 0 v else s.wf .paceStatus 31 16 v).rf .paceStatus hi lo := by
  unfold State.showPace
  extract_lets s1
  split
  · rw [rf_fault _ _ _ _ _ not_faultAt_paceStatus,
      rf_wb_field _ _ _ _ _ _ (by omega) (by omega)]
  · rfl

theorem showPace_floor_other (s : State) (d v : Nat) (hd : d < 2) :
    (s.showPace d v).rb .paceStatus (49 - d) = s.rb .paceStatus (49 - d) := by
  unfold State.showPace
  extract_lets s1
  have h1 : s1.rb .paceStatus (49 - d) = s.rb .paceStatus (49 - d) := by
    unfold s1
    split <;> exact rb_wf_field _ _ _ _ _ _ (by omega) (by omega)
  split
  · rw [rb_fault _ _ _ _ _ not_faultAt_paceStatus,
      rb_wb_bit_other _ _ _ (by omega) (by omega), h1]
  · exact h1

theorem showPace_of_fast {s : State} {v : Nat} (d : Nat) (h : 1750 ≤ v) :
    s.showPace d v = if d = 0 then s.wf .paceStatus 15 0 v else s.wf .paceStatus 31 16 v :=
  if_neg (by omega)

/-! ### The voltage loop (R445) -/

theorem vStep_range (v : Nat) (e : Int) (half : Bool) : 1240 ≤ vStep v e half ∧ vStep v e half ≤ 1720 := by
  unfold vStep
  extract_lets d
  omega

@[simp] theorem rf_modTack (s : State) (f : Tack → Tack) (r : Reg) (hi lo : Nat) : (s.modTack f).rf r hi lo = s.rf r hi lo := rfl

theorem shownTemp_lt (tj : List (BitVec 8)) (is : List Nat) : shownTemp tj is < 256 := (BitVec.ofInt 8 _).isLt

/-- The state in which a tick of the voltage loop has shown the sensors and the caps. -/
def State.sensed (s : State) (tj : List (BitVec 8)) : State :=
  (((((s.modTack (fun t => { t with voltAt := s.tk })).wf .tkTherm 63 56 (shownTemp tj (domSensors 0))).wf .tkTherm 55 48
    (shownTemp tj (domSensors 1))).modTack
      (fun t => { t with tjMax := (BitVec.ofInt 8 (hottest tj (List.range 24))).toNat })).showCaps
    (s.modTack (fun t => { t with voltAt := s.tk })).capped)

theorem sensed_spec (s : State) (tj : List (BitVec 8)) :
    (s.sensed tj).rf .tkTherm 63 56 = shownTemp tj (domSensors 0) ∧ (s.sensed tj).rf .tkTherm 55 48 = shownTemp tj (domSensors 1) ∧
    (s.sensed tj).rf .tkTherm 31 16 = s.rf .tkTherm 31 16 ∧ (s.sensed tj).rf .tkTherm 15 0 = s.rf .tkTherm 15 0 ∧
    (s.sensed tj).dust = s.dust ∧ (s.sensed tj).tack.voltAt = s.tk ∧ (s.sensed tj).hbm = s.hbm ∧ (s.sensed tj).pins = s.pins := by
  unfold State.sensed
  obtain ⟨u, hu⟩ : ∃ u, u = (((s.modTack (fun t => { t with voltAt := s.tk })).wf .tkTherm 63 56 (shownTemp tj (domSensors 0))).wf
    .tkTherm 55 48 (shownTemp tj (domSensors 1))).modTack
      (fun t => { t with tjMax := (BitVec.ofInt 8 (hottest tj (List.range 24))).toNat }) := ⟨_, rfl⟩
  rw [← hu]
  have hc := State.Alters.showCaps u (s.modTack (fun t => { t with voltAt := s.tk })).capped
  have htherm : ¬ CapsAt Reg.tkTherm.addr := not_capsAt (by decide) (by decide)
  rw [hc.rf htherm, hc.rf htherm, hc.rf htherm, hc.rf htherm, State.dust, State.mode, hc.rf not_capsAt_tkState, hc.tackWork,
    hc.hbm, hc.pins, ← State.mode, ← State.dust]
  subst hu
  refine ⟨?_, ?_, ?_, ?_, ?_, by simp, by simp, by simp⟩
  case refine_5 => rw [State.dust, mode_modTack, State.wf, mode_setReg _ _ _ (by decide), State.wf, mode_setReg _ _ _ (by decide),
    mode_modTack, State.dust]
  all_goals rw [rf_modTack]
  · rw [rf_wf_field _ _ _ _ _ _ _ (by decide) (by decide), rf_wf_same _ _ _ _ _ (by decide)]
    exact Nat.mod_eq_of_lt (shownTemp_lt _ _)
  · rw [rf_wf_same _ _ _ _ _ (by decide)]
    exact Nat.mod_eq_of_lt (shownTemp_lt _ _)
  · rw [rf_wf_field _ _ _ _ _ _ _ (by decide) (by decide), rf_wf_field _ _ _ _ _ _ _ (by decide) (by decide), rf_modTack]
  · rw [rf_wf_field _ _ _ _ _ _ _ (by decide) (by decide), rf_wf_field _ _ _ _ _ _ _ (by decide) (by decide), rf_modTack]

/-- The core voltages moved by one step of the loop, that of West outside Dust-sheet mode alone. -/
def State.regulated (s : State) (h0 h1 : Bool) : State :=
  let u := ({ s with frees := s.frees + 1 } : State).wf .tkTherm 31 16 (vStep (s.rf .tkTherm 31 16) (s.paceError 0) h0)
  if u.dust then u else u.wf .tkTherm 15 0 (vStep (u.rf .tkTherm 15 0) (u.paceError 1) h1)

theorem doVoltageLoopTick_eq {s : State} {tj : List (BitVec 8)} (hon : s.coreOn = true) (hdue : s.tack.voltAt + us 10 ≤ s.tk)
    (htj : tj.length = 24) : ∃ h0 h1 : Bool, doVoltageLoopTick tj s = (s.sensed tj).regulated h0 h1 := by
  unfold doVoltageLoopTick
  rw [if_neg (by simp [hon, htj]; omega)]
  exact ⟨_, _, rfl⟩

theorem rf_tkTherm_step (s : State) (v : Nat) (e : Int) (h : Bool) (hi lo : Nat) (hlt : hi < 64) (hw : 2 ^ 11 ≤ 2 ^ (hi + 1 - lo)) :
    (s.wf .tkTherm hi lo (vStep v e h)).rf .tkTherm hi lo = vStep v e h := by
  rw [rf_wf_same _ _ _ _ _ hlt]
  have := vStep_range v e h
  exact Nat.mod_eq_of_lt (by omega)

theorem paceError_wf_tkTherm (s : State) (hi lo v d : Nat) : (s.wf .tkTherm hi lo v).paceError d = s.paceError d := by
  simp only [State.paceError, rf_wf_other s .tkTherm .tkPaceTarget hi lo v _ _ (by decide),
    rf_wf_other s .tkTherm .paceStatus hi lo v _ _ (by decide)]

theorem dust_wf_tkTherm (s : State) (hi lo v : Nat) : (s.wf .tkTherm hi lo v).dust = s.dust := by
  rw [State.dust, State.wf, mode_setReg _ _ _ (by decide), State.dust]

theorem regulated_spec (s : State) (h0 h1 : Bool) :
    (s.regulated h0 h1).rf .tkTherm 63 56 = s.rf .tkTherm 63 56 ∧ (s.regulated h0 h1).rf .tkTherm 55 48 = s.rf .tkTherm 55 48 ∧
    (s.regulated h0 h1).rf .tkTherm 31 16 = vStep (s.rf .tkTherm 31 16) ((s.regulated h0 h1).paceError 0) h0 ∧
    (s.regulated h0 h1).rf .tkTherm 15 0 =
      (if s.dust then s.rf .tkTherm 15 0 else vStep (s.rf .tkTherm 15 0) ((s.regulated h0 h1).paceError 1) h1) ∧
    (s.regulated h0 h1).tack = s.tack ∧ (s.regulated h0 h1).hbm = s.hbm ∧ (s.regulated h0 h1).pins = s.pins := by
  have hother : ∀ u : State, ∀ hi < 64, ∀ lo v hi' lo', hi < lo' ∨ hi' < lo →
      (u.wf .tkTherm hi' lo' v).rf .tkTherm hi lo = u.rf .tkTherm hi lo := fun u hi hlt lo v hi' lo' h =>
    rf_wf_field u .tkTherm hi' lo' v hi lo hlt h.symm
  have hfrees : ∀ hi lo, State.rf { s with frees := s.frees + 1 } .tkTherm hi lo = s.rf .tkTherm hi lo := fun _ _ => rfl
  have hpace : ∀ d, State.paceError { s with frees := s.frees + 1 } d = s.paceError d := fun _ => rfl
  have hdust : State.dust { s with frees := s.frees + 1 } = s.dust := rfl
  unfold State.regulated
  simp only [dust_wf_tkTherm, hdust]
  have hstep : ∀ (u : State) v e h, (u.wf .tkTherm 31 16 (vStep v e h)).rf .tkTherm 31 16 = vStep v e h := fun u v e h =>
    rf_tkTherm_step u v e h 31 16 (by decide) (by decide)
  cases hd : s.dust
  · simp only [Bool.false_eq_true, if_false, paceError_wf_tkTherm, hpace]
    rw [hother _ 63 (by decide) _ _ _ _ (by decide), hother _ 63 (by decide) _ _ _ _ (by decide), hfrees,
      hother _ 55 (by decide) _ _ _ _ (by decide), hother _ 55 (by decide) _ _ _ _ (by decide), hfrees,
      hother _ 31 (by decide) _ _ _ _ (by decide), hstep, rf_tkTherm_step _ _ _ _ _ _ (by decide) (by decide),
      hother _ 15 (by decide) _ _ _ _ (by decide), hfrees]
    exact ⟨rfl, rfl, rfl, rfl, rfl, rfl, rfl⟩
  · simp only [if_true, paceError_wf_tkTherm, hpace]
    rw [hother _ 63 (by decide) _ _ _ _ (by decide), hfrees, hother _ 55 (by decide) _ _ _ _ (by decide), hfrees, hstep,
      hother _ 15 (by decide) _ _ _ _ (by decide), hfrees]
    exact ⟨rfl, rfl, rfl, rfl, rfl, rfl, rfl⟩

/-! ### The power loop (R446) -/

theorem rf_wf_tkPower (s : State) (hi lo v : Nat) (q : Reg) (hq : q.addr ≠ Reg.tkPower.addr) (hi' lo' : Nat) :
    (s.wf .tkPower hi lo v).rf q hi' lo' = s.rf q hi' lo' := rf_wf_other _ _ _ _ _ _ _ _ hq

theorem target_wf_tkPower (s : State) (hi lo v : Nat) : (s.wf .tkPower hi lo v).target = s.target :=
  rf_wf_tkPower _ _ _ _ _ (by decide) _ _

theorem thermTarget_wf_tkPower (s : State) (hi lo v d : Nat) : (s.wf .tkPower hi lo v).thermTarget d = s.thermTarget d := by
  simp only [State.thermTarget, target_wf_tkPower, rf_wf_tkPower s hi lo v .tkTherm (by decide), wf_coreOn]

theorem doPowerCapTick_eq {s : State} {w : BitVec 16} (hon : s.coreOn = true) (hdue : s.tack.powAt + ms 1 ≤ s.tk) :
    doPowerCapTick w s = ((((s.modTack (fun t => { t with powAt := s.tk })).wf .tkPower 47 32 w.toNat).wf .tkPower 15 0
      (s.nextCap w.toNat)).showCaps s.capped) := by
  unfold doPowerCapTick
  rw [if_neg (by simp [hon]; omega)]
  extract_lets s1 was w' limit cap s2 cap1
  have hcap : cap1 = s.nextCap w.toNat := by
    unfold cap1 s2
    simp only [thermTarget_wf_tkPower, target_wf_tkPower]
    rfl
  rw [hcap]
  rfl

theorem thermTarget_le (s : State) (d : Nat) : s.thermTarget d ≤ max 500 s.target := by
  unfold State.thermTarget
  extract_lets tj over_
  split <;> omega

theorem nextCap_lt (s : State) (w : Nat) : s.nextCap w < 65536 := by
  have hcap : s.powerCap < 65536 := fld_lt ..
  have htarget : s.target < 65536 := fld_lt ..
  have h0 := thermTarget_le s 0
  have h1 := thermTarget_le s 1
  unfold State.nextCap
  split_ifs <;> omega

theorem powerCapTick_spec {s : State} {w : BitVec 16} (hon : s.coreOn = true) (hdue : s.tack.powAt + ms 1 ≤ s.tk) :
    (doPowerCapTick w s).rf .tkPower 47 32 = w.toNat ∧ (doPowerCapTick w s).powerCap = s.nextCap w.toNat ∧
    (doPowerCapTick w s).rf .tkPower 63 48 = s.rf .tkPower 63 48 ∧ (doPowerCapTick w s).tack.powAt = s.tk ∧
    (doPowerCapTick w s).hbm = s.hbm ∧ (doPowerCapTick w s).pins = s.pins := by
  rw [doPowerCapTick_eq hon hdue]
  obtain ⟨u, hu⟩ : ∃ u, u = (((s.modTack (fun t => { t with powAt := s.tk })).wf .tkPower 47 32 w.toNat).wf .tkPower 15 0
      (s.nextCap w.toNat)) := ⟨_, rfl⟩
  rw [← hu]
  have hc := State.Alters.showCaps u s.capped
  have hpower : ¬ CapsAt Reg.tkPower.addr := not_capsAt (by decide) (by decide)
  rw [State.powerCap, hc.rf hpower, hc.rf hpower, hc.rf hpower, hc.tackWork, hc.hbm, hc.pins]
  subst hu
  refine ⟨?_, ?_, ?_, by simp, by simp, by simp⟩
  · rw [rf_wf_field _ _ _ _ _ _ _ (by decide) (by decide), rf_wf_same _ _ _ _ _ (by decide)]
    exact Nat.mod_eq_of_lt w.isLt
  · rw [rf_wf_same _ _ _ _ _ (by decide)]
    exact Nat.mod_eq_of_lt (nextCap_lt s _)
  · rw [rf_wf_field _ _ _ _ _ _ _ (by decide) (by decide), rf_wf_field _ _ _ _ _ _ _ (by decide) (by decide), rf_modTack]

theorem paceInterval_alters {s : State} {e w : List (BitVec 16)} (h : s.PaceDue e w) :
    s.Alters (doPaceInterval e w s) (.paceAt :: faultFields) PaceAt := by
  rw [doPaceInterval_eq h]
  have h1 : s.Alters (State.showPace { s with paceAt := s.clk } 0 (lowest e)) (.paceAt :: faultFields) PaceAt :=
    (State.Alters.put_paceAt s _).trans ((showPace_alters _ _ _).mono)
  exact .ite (h1.trans (.setReg _ _ (.inl rfl))) (h1.trans ((showPace_alters _ _ _).mono))

theorem dust_paced (s : State) (v : Nat) : (State.showPace { s with paceAt := s.clk } 0 v).dust = s.dust := dust_showPace _ _ _

theorem rf_wf_pace (s : State) {hi lo v : Nat} (hlt : hi < 64) (hv : v < 2 ^ (hi + 1 - lo)) :
    (s.wf .paceStatus hi lo v).rf .paceStatus hi lo = v :=
  (rf_wf_same _ _ _ _ _ hlt).trans (Nat.mod_eq_of_lt hv)

/-- Both domains' readings as shown outside Dust-sheet mode. -/
theorem paceStatus_both (s : State) {v v' : Nat} (hv : v < 65536) (hv' : v' < 65536) :
    ((s.showPace 0 v).showPace 1 v').rf .paceStatus 15 0 = v ∧ ((s.showPace 0 v).showPace 1 v').rf .paceStatus 31 16 = v' ∧
    ((s.showPace 0 v).showPace 1 v').rb .paceStatus 48 = (s.rb .paceStatus 48 || decide (v < 1750)) ∧
    ((s.showPace 0 v).showPace 1 v').rb .paceStatus 49 = (s.rb .paceStatus 49 || decide (v' < 1750)) := by
  refine ⟨?_, ?_, ?_, ?_⟩
  · rw [showPace_fields _ 1 _ (by decide) (by decide), if_neg (by decide), rf_wf_field _ _ _ _ _ _ _ (by decide) (by decide),
      showPace_fields _ 0 _ (by decide) (by decide), if_pos rfl, rf_wf_pace _ (by decide) hv]
  · rw [showPace_fields _ 1 _ (by decide) (by decide), if_neg (by decide), rf_wf_pace _ (by decide) hv']
  · rw [← showPace_floor s 0 v (by decide)]
    exact showPace_floor_other _ 1 v' (by decide)
  · rw [← showPace_floor_other s 0 v (by decide)]
    exact showPace_floor _ 1 v' (by decide)

/-- An effect on a powered block that leaves no work and no topcoat where there was none. -/
theorem act_of_alters {s t : State} {b : Block} {f : State → State} {F : List Field} {P : Nat → Prop} (hlive : s.live b = true)
    (hc : s.Calm) (hf : f s = t) (h : s.Alters t F P) (htodo : .todo ∉ F := by decide) (hcoat : .calmCoat ∉ F := by decide) :
    s.act b f = .next t := by
  subst hf
  exact act_of_calm _ _ _ hlive (h.calm hc htodo hcoat).1 (h.calm hc htodo hcoat).2

section Pace

variable {s : State} {e w : List (BitVec 16)}

theorem paceInterval_fast (hc : s.Calm) (hlive : s.live .global = true) (hdust : s.dust = false) (h : s.PaceDue e w)
    (he : 1750 ≤ lowest e) (hw : 1750 ≤ lowest w) : s.act .global (doPaceInterval e w) = .next
      (({ s with paceAt := s.clk }.wf .paceStatus 15 0 (lowest e)).wf .paceStatus 31 16 (lowest w)) := by
  have hdo := doPaceInterval_eq h
  rw [dust_paced, hdust, if_neg (by decide), showPace_of_fast 1 hw, showPace_of_fast 0 he, if_neg (by decide), if_pos rfl] at hdo
  exact act_of_alters hlive hc hdo (hdo ▸ paceInterval_alters h)

theorem paceInterval_shows (hc : s.Calm) (hlive : s.live .global = true) (hdust : s.dust = false) (h : s.PaceDue e w) :
    ∃ t, s.act .global (doPaceInterval e w) = .next t ∧ t.rf .paceStatus 15 0 = lowest e ∧ t.rf .paceStatus 31 16 = lowest w ∧
      t.rb .paceStatus 48 = (s.rb .paceStatus 48 || decide (lowest e < 1750)) ∧
      t.rb .paceStatus 49 = (s.rb .paceStatus 49 || decide (lowest w < 1750)) ∧ t.paceAt = s.clk ∧ t.hbm = s.hbm ∧
      t.pins = s.pins := by
  have hdo := doPaceInterval_eq h
  have hr := paceInterval_alters h
  rw [dust_paced, hdust, if_neg (by decide)] at hdo
  obtain ⟨h1, h2, h3, h4⟩ := paceStatus_both { s with paceAt := s.clk } (lowest_lt e) (lowest_lt w)
  have hat : (doPaceInterval e w s).paceAt = s.clk := by
    rw [hdo, (showPace_alters _ _ _).paceAt, (showPace_alters _ _ _).paceAt]
  rw [← hdo] at h1 h2 h3 h4
  exact ⟨_, act_of_alters hlive hc rfl hr, h1, h2, h3, h4, hat, hr.hbm, hr.pins⟩

theorem paceInterval_early (hc : s.Calm) (hlive : s.live .global = true) (h : s.clk < s.paceAt + us 1) :
    s.act .global (doPaceInterval e w) = .next s :=
  act_of_alters hlive hc (if_pos (.inl h)) (.refl (F := []) (P := PaceAt) s)

theorem paceInterval_dust (hc : s.Calm) (hlive : s.live .global = true) (hdust : s.dust = true) (h : s.PaceDue e w) :
    ∃ t, s.act .global (doPaceInterval e w) = .next t ∧ t.rf .paceStatus 15 0 = lowest e ∧ t.rf .paceStatus 31 16 = 0 := by
  have hdo := doPaceInterval_eq h
  rw [dust_paced, hdust, if_pos rfl] at hdo
  refine ⟨_, act_of_alters hlive hc rfl (paceInterval_alters h), ?_, ?_⟩
  · rw [hdo, rf_wf_field _ _ _ _ _ _ _ (by decide) (by decide), showPace_fields _ 0 _ (by decide) (by decide), if_pos rfl,
      rf_wf_pace _ (by decide) (lowest_lt e)]
  · rw [hdo, rf_wf_pace _ (by decide) (by decide)]

end Pace

section Voltage

variable {s : State} {tj : List (BitVec 8)}

theorem voltageLoopTick_spec (hup : s.tack.up = true) (hon : s.coreOn = true) (hdue : s.tack.voltAt + us 10 ≤ s.tk)
    (htj : tj.length = 24) : ∃ t, s.quiet .tack (doVoltageLoopTick tj) = .next t ∧
      t.rf .tkTherm 63 56 = shownTemp tj (domSensors 0) ∧ t.rf .tkTherm 55 48 = shownTemp tj (domSensors 1) ∧ ∃ h0 h1 : Bool,
      t.rf .tkTherm 31 16 = vStep (s.rf .tkTherm 31 16) (t.paceError 0) h0 ∧
      t.rf .tkTherm 15 0 = (if s.dust then s.rf .tkTherm 15 0 else vStep (s.rf .tkTherm 15 0) (t.paceError 1) h1) ∧
      t.tack.voltAt = s.tk ∧ t.hbm = s.hbm ∧ t.pins = s.pins := by
  obtain ⟨h0, h1, hdo⟩ := doVoltageLoopTick_eq hon hdue htj
  obtain ⟨r1, r2, r3, r4, rtack, rhbm, rpins⟩ := regulated_spec (s.sensed tj) h0 h1
  obtain ⟨e1, e2, e3, e4, edust, eat, ehbm, epins⟩ := sensed_spec s tj
  rw [edust, e4] at r4
  rw [e3] at r3
  rw [← hdo] at r1 r2 r3 r4 rtack rhbm rpins
  exact ⟨_, quiet_of_live _ _ _ hup, r1.trans e1, r2.trans e2, h0, h1, r3, r4, (congrArg _ rtack).trans eat, rhbm.trans ehbm,
    rpins.trans epins⟩

end Voltage

/-- Settles O10. -/
theorem paceVoltageAndPowerLoops : Obligations.PaceVoltageAndPowerLoops := by
  unfold Obligations.PaceVoltageAndPowerLoops
  refine ⟨fun s dt e w hc hlive hdust hdue he hw => paceInterval_fast hc hlive hdust ⟨hdue, he, hw⟩,
    fun s dt e w hc hlive hdust hdue he hw => paceInterval_shows hc hlive hdust ⟨hdue, he, hw⟩,
    fun s dt e w hc hlive => paceInterval_early hc hlive,
    fun s dt e w hc hlive hdust hdue he hw => paceInterval_dust hc hlive hdust ⟨hdue, he, hw⟩,
    fun s dt tj hup hon hdust hdue htj => ?_, fun s dt tj hup hon hdust hdue htj => ?_,
    fun s dt w hup hon hdue => ⟨_, quiet_of_live _ _ _ hup, powerCapTick_spec hon hdue⟩⟩
  · obtain ⟨t, he, ht0, ht1, h0, h1, hv0, hv1, hat, hhbm, hpins⟩ := voltageLoopTick_spec hup hon hdue htj
    rw [hdust, if_neg (by decide)] at hv1
    exact ⟨t, he, ht0, ht1, h0, h1, hv0, hv1, by rw [hv0]; exact (vStep_range _ _ _).1, by rw [hv0]; exact (vStep_range _ _ _).2,
      by rw [hv1]; exact (vStep_range _ _ _).1, by rw [hv1]; exact (vStep_range _ _ _).2, hat, hhbm, hpins⟩
  · obtain ⟨t, he, -, -, h0, _, hv0, hv1, hat, hhbm, hpins⟩ := voltageLoopTick_spec hup hon hdue htj
    rw [hdust, if_pos rfl] at hv1
    exact ⟨t, he, h0, hv0, hv1, hat, hhbm, hpins⟩

end Sys2Proof.Machine
end

section
/-! PROOFS. Words of Grooms' instructions (R335, R336). -/

namespace Sys2Proof.Machine

-- The proofs are elaborated one after another: in parallel their threads' stacks need more memory than a compile may have.
set_option Elab.async false

/-- Settles O40, by reading each word; the one that no instruction has is of a reserved major opcode. -/
theorem groomWordsOfTheManual : Obligations.GroomWordsOfTheManual := by
  intro g
  refine ⟨rfl, rfl, rfl, rfl, rfl, rfl, rfl, rfl, rfl, rfl, rfl⟩

end Sys2Proof.Machine
end

section
/-! PROOFS. What telemetry and the start of a Groom's instruction change (R333, R476, R480 to R482), and the instructions
that write one register and go on (R336, R339). -/

namespace Sys2Proof.Machine

-- The proofs are elaborated one after another: in parallel their threads' stacks need more memory than a compile may have.
set_option Elab.async false

/-! ### Telemetry (R480, R481) -/

/-- The addresses of what telemetry writes: TM_CTRL, and HL_STATUS for an interrupt that finds no place. -/
def TmAt (a : Nat) : Prop := (∃ d i, a = (Reg.tmCtrl d i).addr) ∨ ∃ h, a = (Reg.hlStatus h).addr

theorem not_tmAt_of_off {q : Reg} (o : Nat) (ho : q.off = o)
    (h : (o % 0x10000 < 0x9008 ∨ 0x9100 ≤ o % 0x10000) ∧ o % 0x10000 ≠ 8 := by decide) : ¬ TmAt q.addr := by
  rintro (⟨d, i, e⟩ | ⟨n, e⟩)
  · have h1 := addr_mod q
    rw [ho, e, addr_mod] at h1
    simp only [Reg.off] at h1
    omega
  · exact addr_ne_of_off o 0x20008 ho rfl h.2 e

/-- The fields that telemetry changes. -/
def tmFields : List Field := [.regs, .hbm, .dir, .hints, .ht, .tmWrote]

namespace State.Alters

variable {F : List Field} {P : Nat → Prop}

theorem dropCopies (s : State) (a n : Nat) (hF : [.dir, .hints] ⊆ F := by decide) : s.Alters (s.dropCopies a n) F P :=
  (put_dir s (s.dir.filter fun e => !(linesOf a n).contains e.1) (hF (by decide))).trans (put_hints _ _ (hF (by decide)))

theorem hbmWrite (s : State) (a : Nat) (bs : List Byte) (hF : .hbm ∈ F := by decide) : s.Alters (s.hbmWrite a bs) F P :=
  ite (put_hbm s _ hF) (refl s)

theorem uncachedWrite (s : State) (a : Nat) (bs : List Byte) (hF : [.hbm, .dir, .hints] ⊆ F := by decide) :
    s.Alters (s.uncachedWrite a bs) F P :=
  (hbmWrite s a bs (hF (by decide))).trans (dropCopies _ _ _ (List.Subset.trans (by decide) hF))

theorem tmWrite1 (s : State) (d i : Nat) (ws : List Word) : s.Alters (s.tmWrite1 d i ws) tmFields TmAt := by
  have hctrl : ∀ (s : State) d i v, s.Alters (s.setReg (.tmCtrl d i) v) tmFields TmAt := fun s d i v => setReg s v (.inl ⟨d, i, rfl⟩)
  unfold State.tmWrite1
  extract_lets c n w0 a bs link s1 s2 r s3 s4
  have h1 : s.Alters s1 tmFields TmAt := ite (uncachedWrite s a bs) (hostWrite s _ _ _ _ _ _)
  have h2 : s.Alters s2 tmFields TmAt := h1.trans (put_tmWrote s1 _)
  have h3 : s.Alters s3 tmFields TmAt := h2.trans (hctrl ..)
  have h4 : s.Alters s4 tmFields TmAt := h3.trans (hctrl ..)
  exact ite (ite (h4.trans (sendIntr _ _ _ _ _ fun l => .inr ⟨l, rfl⟩)) h4) h3

theorem tmWrite (s : State) (d i : Nat) (recs : List (List Word)) : s.Alters (s.tmWrite d i recs) tmFields TmAt := by
  have hctrl : ∀ (s : State) d i v, s.Alters (s.setReg (.tmCtrl d i) v) tmFields TmAt := fun s d i v => setReg s v (.inl ⟨d, i, rfl⟩)
  unfold State.tmWrite
  extract_lets c drops s1
  have h1 : s.Alters s1 tmFields TmAt := ite ((hctrl ..).trans (tmWrite1 ..)) (refl s)
  exact ite (hctrl ..) (ite (h1.trans (foldl (fun t _ => tmWrite1 t d i _) _ _)) (h1.trans (hctrl ..)))

end State.Alters

/-! ### The start of an instruction (R333, R476, R482) -/

/-- The addresses of what the start of an instruction of Groom `g` writes. -/
def InstrAt (g : GroomId) (a : Nat) : Prop := (∃ i, a = (Reg.pmGcnt g i).addr) ∨ TmAt a

theorem not_instrAt_of_off {q : Reg} (g : GroomId) (o : Nat) (ho : q.off = o)
    (h : (o % 0x10000 < 0x9008 ∨ 0x9100 ≤ o % 0x10000) ∧ o % 0x10000 ≠ 8 ∧ (o % 0x10000 < 0xE800 ∨ 0xEC00 ≤ o % 0x10000) := by decide) :
    ¬ InstrAt g q.addr := by
  obtain ⟨htm, hhl, hcnt⟩ := h
  rintro (⟨i, e⟩ | e)
  · have h1 := addr_mod q
    rw [ho, e, addr_mod] at h1
    simp only [Reg.off] at h1
    omega
  · exact not_tmAt_of_off o ho ⟨htm, hhl⟩ e

/-- The fields that the start of an instruction changes. -/
def instrFields : List Field := .grooms :: .frees :: tmFields

namespace State.Alters

variable {F : List Field} {P : Nat → Prop}

theorem modGroom (s : State) (g : GroomId) (f : Groom → Groom) (hF : .grooms ∈ F := by decide) : s.Alters (s.modGroom g f) F P :=
  put_grooms s _ hF

theorem modRun (s : State) (g : GroomId) (f : Run → Run) (hF : .grooms ∈ F := by decide) : s.Alters (s.modRun g f) F P :=
  put_grooms s _ hF

theorem pmG (s : State) (g : GroomId) (code ctx n : Nat) (hP : ∀ i, P (Reg.pmGcnt g i).addr) (hF : .regs ∈ F := by decide) :
    s.Alters (s.pmG g code ctx n) F P :=
  pmG_induction (P := fun t => s.Alters t F P) code ctx n (refl s) fun _ i v h => h.trans (setReg _ v (hP i) hF)

theorem sample (s : State) (g : GroomId) (r : Run) (w : BitVec 32) : s.Alters (s.sample g r w) instrFields (InstrAt g) := by
  have hdraw : ∀ t : State, t.Alters (t.drawInterval g).2 instrFields (InstrAt g) := fun t => put_frees t _
  unfold State.sample
  extract_lets c left x d t1 dom i
  have hx : s.Alters x.2 instrFields (InstrAt g) := by
    unfold x
    split
    · exact hdraw s
    · exact refl s
  have h1 : s.Alters t1 instrFields (InstrAt g) := (hx.trans (hdraw _)).trans (modGroom _ _ _)
  exact ite (refl s) (ite (hx.trans (modGroom _ _ _)) (ite (h1.trans ((tmWrite ..).mono (hP := fun _ => .inr))) h1))

theorem beginInstr (s : State) (g : GroomId) (r : Run) (w : BitVec 32) :
    s.Alters (s.beginInstr g r w) instrFields (InstrAt g) :=
  ((modRun s _ _).trans (pmG _ _ _ _ _ fun i => .inl ⟨i, rfl⟩)).trans (sample ..)

end State.Alters

/-- What `Fetches` says of a run leads to the state in which an instruction that does not wait is performed: the fields and
registers that the start of an instruction changes are told too. -/
theorem instr_begins {s : State} {g : GroomId} {r : Run} {w : BitVec 32} {waits : Run → State → Bool} (hf : s.Fetches g r w)
    (hm : majorOk (fld w 31 26) = true) (hw : waits (s.latchTimer r) (s.modRun g fun _ => s.latchTimer r) = false) :
    ∃ t, s.Executes t g (s.begun r) ∧ s.Alters t instrFields (InstrAt g) ∧
      (s.rb (.pmSample g.s) 63 = false → s.CountsOnly t g) ∧
      ∀ k, s.instr g w waits k = k (s.begun r) t := by
  obtain ⟨hcalm, hlive, hdom, hstop, hrun, hhalt, hexc, hwait, hbudget, hpc, hword⟩ := hf
  obtain ⟨e, b, hl⟩ := latchTimer_eq s hwait
  have hb : (s.latchTimer r).budget = r.budget := by rw [hl]
  refine ⟨(s.modRun g fun _ => s.latchTimer r).beginInstr g (s.latchTimer r) w, ?_,
    (State.Alters.modRun s _ _).trans (.beginInstr ..), fun hoff => ?_, fun k => ?_⟩
  · have := ((State.Executes.refl hrun).modRun fun _ => s.latchTimer r).beginInstr (s.latchTimer r) w
    rwa [hb] at this
  · exact ((State.CountsOnly.refl s g).modRun _).beginInstr hoff _ _
  · have hlive : r.live = true := by simp [Run.live, hhalt, hexc, hwait]
    have hfrozen : s.frozen (.stall g.s) = false := by simp [State.frozen, hdom]
    have hleft : r.budget ≠ 0 := Nat.ne_of_gt hbudget
    have hin : ¬ (s.latchTimer r).pages * 1024 ≤ (s.latchTimer r).pc := by rw [hl]; exact hpc.not_ge
    have hfetch : (s.modRun g fun _ => s.latchTimer r).fetchWord (s.latchTimer r) = w := by rw [hl]; exact hword
    unfold State.instr
    simp [hrun, hfrozen, hstop, hlive, hleft, hin, hfetch, hm, hw, State.begun, hb]

end Sys2Proof.Machine
end

section
/-! PROOFS. The instructions of a Groom that write a register, branch, jump, halt or fence (R331, R333, R335 to R339, R355). -/

namespace Sys2Proof.Machine

-- The proofs are elaborated one after another: in parallel their threads' stacks need more memory than a compile may have.
set_option Elab.async false

/-! ### Instructions that change their own run alone -/

theorem pc_begun (s : State) {r : Run} (h : r.wait = .none) : (s.begun r).pc = r.pc := by
  obtain ⟨e, b, hb⟩ := begun_eq s h
  rw [hb]

theorem ctx_begun (s : State) {r : Run} (h : r.wait = .none) : (s.begun r).ctx = r.ctx := by
  obtain ⟨e, b, hb⟩ := begun_eq s h
  rw [hb]
  rfl

/-- No register is written through g0 (R320): the run goes on at `p`. -/
theorem ran_zero (s : State) (r : Run) (v : Word) (p : Nat) : s.ran r 0 v p = { s.begun r with pc := p } := rfl

theorem put_begun (s : State) (r : Run) (rd : BitVec 5) (v : Word) (p : Nat) :
    { (s.begun r).put rd v with pc := p } = s.ran r rd v p := by
  unfold State.ran State.begun Run.put
  split <;> rfl

section

variable {s : State} {g : GroomId} {r : Run} {w : BitVec 32}

/-- An instruction that waits for nothing and changes its own run alone retires (R336). -/
theorem instr_retires {waits : Run → State → Bool} {k : Run → State → State} {f : Run → Run} (hf : s.Fetches g r w)
    (hm : majorOk (fld w 31 26) = true) (hw : waits (s.latchTimer r) (s.modRun g fun _ => s.latchTimer r) = false)
    (hk : ∀ t, s.Alters t instrFields (InstrAt g) → k (s.begun r) t = t.modRun g f) :
    s.Retires (s.instr g w waits k) g (f (s.begun r)) := by
  obtain ⟨t, ht, ha, hoff, hi⟩ := instr_begins hf hm hw
  rw [hi, hk t ha]
  have hx := ht.modRun f
  exact ⟨hx.run, hx.scratch, hx.others, fun h => (hoff h).modRun _⟩

theorem majorOk_encI {op : Nat} (rd a : BitVec 5) (imm : BitVec 16) (h : majorOk op = true) (hlt : op < 64 := by decide) :
    majorOk (fld (encI op rd a imm) 31 26) = true := by
  rw [Laws.GroomMajor.major_encI _ _ _ _ hlt, h]

/-- An instruction whose result does not depend on what the run has latched. -/
theorem valueOp_writes (hf : s.Fetches g r w) (hm : majorOk (fld w 31 26) = true) (rd : BitVec 5) {v : Run → Option Word} {x : Word}
    (hv : v (s.begun r) = some x) (hlive : s.live (.stall g.s) = true := by exact live_of_fetches ‹_›) :
    ∃ t, s.quiet (.stall g.s) (fun s => s.valueOp g w rd v) = .next t ∧ s.Retires t g (s.ran r rd x (r.pc + 1)) :=
  ⟨_, quiet_of_live _ _ _ hlive, valueOp_retires hf hm rd hv⟩

/-- The same where it is a function of one register. -/
theorem imm_writes {op : Nat} {rd a : BitVec 5} {i : BitVec 16} (hf : s.Fetches g r (encI op rd a i)) (hop : majorOk op = true)
    (v : Word → Option Word) {x : Word} (hv : v (r.get a) = some x) (hlt : op < 64 := by decide) :
    ∃ t, s.quiet (.stall g.s) (fun s => s.valueOp g (encI op rd a i) rd (fun r => v (r.get a))) = .next t ∧
      s.Retires t g (s.ran r rd x (r.pc + 1)) :=
  valueOp_writes hf (majorOk_encI _ _ _ hop hlt) rd (by rw [get_begun s (wait_of_fetches hf), hv])

end

/-! ### CSRs (R339) -/

/-- A CSR as an instruction reads it, from the state in which the instruction was fetched. -/
theorem csr_of_alters {s t : State} {g : GroomId} (h : s.Alters t instrFields (InstrAt g)) (r : Run) {n : Nat} (hn : n ≤ 6) :
    t.csr g r n = s.csr g r n := by
  have hnt : t.nt = s.nt := h.nt
  unfold State.csr
  rw [hnt]
  have h16 : ¬ (16 ≤ n ∧ n ≤ 23) := by omega
  simp only [if_neg h16]

theorem shiFn_eq {i : BitVec 16} (h : fld i 15 8 = 0) (h' : fld i 7 6 ≤ 2) (x : Word) : shiFn i x =
    some (if fld i 7 6 = 0 then x <<< fld i 5 0 else if fld i 7 6 = 1 then x >>> fld i 5 0 else x.sshiftRight (fld i 5 0)) := by
  unfold shiFn
  rw [if_neg (not_not.2 h)]
  generalize fld i 7 6 = n at h' ⊢
  match n, h' with
  | 0, _ => rfl
  | 1, _ => rfl
  | 2, _ => rfl

/-- A CSR read as the tables of R339 and R478 give it retires. -/
theorem csrr_retires {s : State} {g : GroomId} {r : Run} {rd : BitVec 5} {i : BitVec 16} {v : Word} (hf : s.Fetches g r (encI 0x34 rd 0 i))
    (hv : ∀ t, s.Alters t instrFields (InstrAt g) → t.csr g (s.begun r) i.toNat = some v) :
    s.Retires (doCsrr g rd 0 i s) g (s.ran r rd v (r.pc + 1)) := by
  rw [← step_put_begun s (wait_of_fetches hf)]
  refine instr_retires (f := fun r => (r.put rd v).step) hf (majorOk_encI _ _ _ rfl) rfl fun t ht => ?_
  rw [if_neg (not_not.2 rfl), hv t ht]
  rfl

theorem csr_fixed (s : State) (g : GroomId) {r : Run} (h : r.wait = .none) {n : Nat} (hn : n ≤ 6) :
    s.csr g (s.begun r) n = some ([s.nt, BitVec.ofNat 64 (r.budget - 1),
      mkWord 64 [(8, 8, g.s.val / 8), (7, 4, g.s.val % 8), (3, 0, g.g.val)], BitVec.ofNat 64 r.ref.kind, r.timer,
      BitVec.ofNat 64 (s.latchTimer r).events, BitVec.ofNat 64 (r.handles.foldl (fun a h => a ||| 2 ^ h.1) 0)].getD n 0) := by
  have he : (s.begun r).events = (s.latchTimer r).events := rfl
  obtain ⟨e, b, hb⟩ := begun_eq s h
  rw [← he, hb]
  match n, hn with
  | 0, _ => rfl
  | 1, _ => rfl
  | 2, _ => rfl
  | 3, _ => rfl
  | 4, _ => rfl
  | 5, _ => rfl
  | 6, _ => rfl

theorem pmGsel_of_alters {s t : State} {g : GroomId} (h : s.Alters t instrFields (InstrAt g)) (k : Fin 8) :
    t.reg (.pmGsel g k) = s.reg (.pmGsel g k) := by
  refine h.reg _ ?_
  have hoff : (Reg.pmGsel g k).off = 0xE400 + 64 * g.g.val + 8 * k.val := rfl
  exact not_instrAt_of_off g _ hoff (by omega)

/-- A Groom's counter is read where its selection names the run's context (R478). -/
theorem csr_counter (s t : State) (g : GroomId) {r : Run} (h : r.wait = .none) {n : Nat} {k : Fin 8} (hn : n = 16 + k.val) :
    t.csr g (s.begun r) n = some (if t.rb (.pmGsel g k) 60 = true ∧ t.rf (.pmGsel g k) 37 16 = r.ctx then t.reg (.pmGcnt g k)
      else 0) := by
  have hfin : (⟨(n - 16) % 8, Nat.mod_lt _ (by decide)⟩ : Fin 8) = k := Fin.ext (by simp only; omega)
  have hk := k.isLt
  unfold State.csr
  rw [if_neg (by omega), if_neg (by omega), if_neg (by omega), if_neg (by omega), if_neg (by omega), if_neg (by omega),
    if_neg (by omega), if_pos (by omega)]
  simp only [hfin, ctx_begun s h, Bool.and_eq_true, decide_eq_true_eq]
  rfl

@[simp] theorem writeReg_reg (s : State) (g : GroomId) (rd : BitVec 5) (v : Word) (q : Reg) : (s.writeReg g rd v).reg q = s.reg q := rfl

/-- Settles O32. -/
theorem groomInstructionsWriteTheirRegister : Obligations.GroomInstructionsWriteTheirRegister := by
  unfold Obligations.GroomInstructionsWriteTheirRegister
  refine ⟨fun s g r rd a b fn v hf hv hu => ⟨_, exec_alu_of_live (live_of_fetches hf), alu_retires hf hv fun h h' => hu ?_⟩,
    fun s g r rd a i hf => imm_writes hf rfl (fun x => some (x + sext16 i)) rfl,
    fun s g r rd a i hf => imm_writes hf rfl (fun x => some (x &&& i.setWidth 64)) rfl,
    fun s g r rd a i hf => imm_writes hf rfl (fun x => some (x ||| i.setWidth 64)) rfl,
    fun s g r rd a i hf => imm_writes hf rfl (fun x => some (x ^^^ i.setWidth 64)) rfl,
    fun s g r rd a i hf => imm_writes hf rfl (fun x => some (if x.slt (sext16 i) then 1 else 0)) ?_,
    fun s g r rd a i hf => imm_writes hf rfl (fun x => some (if x.ult (sext16 i) then 1 else 0)) ?_,
    fun s g r rd a i hf h h' => imm_writes hf rfl (shiFn i) (shiFn_eq h h' _),
    fun s g r rd i hf => imm_writes hf rfl (fun _ => some (sext16 i <<< 16)) rfl,
    fun s g r rd a i hf => imm_writes hf rfl (fun x => some ((x <<< 16) ||| i.setWidth 64)) rfl,
    fun s g r rd i hf hi => ?_, fun s g r rd i k hf hi => ?_⟩
  · exact decide_eq_true ⟨h, h'⟩
  · rw [ite_slt, sext16, BitVec.toInt_signExtend_of_le (by decide)]
  · rw [ite_ult, sext16]
  · refine ⟨_, quiet_of_live _ _ _ (live_of_fetches hf), csrr_retires hf fun t ht => ?_⟩
    rw [csr_of_alters ht _ hi, csr_fixed s g (wait_of_fetches hf) hi]
  · obtain ⟨t, ht, ha, hoff, hk⟩ := instr_begins (waits := noWait) hf (majorOk_encI _ _ _ rfl) rfl
    have hwait := wait_of_fetches hf
    have hv : t.csr g (s.begun r) i.toNat = some (if s.rb (.pmGsel g k) 60 = true ∧ s.rf (.pmGsel g k) 37 16 = r.ctx then
        t.reg (.pmGcnt g k) else 0) := by
      have hb : t.rb (.pmGsel g k) 60 = s.rb (.pmGsel g k) 60 := congrArg (bit · 60) (pmGsel_of_alters ha k)
      have hctx : t.rf (.pmGsel g k) 37 16 = s.rf (.pmGsel g k) 37 16 := congrArg (fld · 37 16) (pmGsel_of_alters ha k)
      rw [csr_counter s t g hwait hi, hb, hctx]
    generalize hx : (if s.rb (.pmGsel g k) 60 = true ∧ s.rf (.pmGsel g k) 37 16 = r.ctx then t.reg (.pmGcnt g k) else 0) = x at hv
    have he : doCsrr g rd 0 i s = t.writeReg g rd x := by
      rw [doCsrr, hk, if_neg (not_not.2 rfl), hv]
    have hw := ht.modRun fun r => (r.put rd x).step
    rw [step_put_begun s hwait] at hw
    refine ⟨_, quiet_of_live _ _ _ (live_of_fetches hf), ?_⟩
    rw [he, writeReg_reg, hx]
    exact ⟨hw.run, hw.scratch, hw.others, fun h => (hoff h).modRun _⟩

end Sys2Proof.Machine
end

section
/-! PROOFS. Branches, jumps, HALT, FENCE and CSRW of a Groom (R331, R333, R335, R336, R339, R355). -/

namespace Sys2Proof.Machine

-- The proofs are elaborated one after another: in parallel their threads' stacks need more memory than a compile may have.
set_option Elab.async false

/-! ### An instruction that waits for the store buffer -/

/-- What `Fetches` says of a run leads an instruction that must wait to the store buffer (R342): it waits on, or goes on once
the buffer is drained. -/
theorem instr_drains {s : State} {g : GroomId} {r r' : Run} {w : BitVec 32} (hf : s.Fetches g r w)
    (hm : majorOk (fld w 31 26) = true) {waits : Run → State → Bool} (k : Run → State → State) {u v : State}
    (hu : (s.modRun g fun _ => s.latchTimer r) = u) (hw : waits (s.latchTimer r) u = true) (hv : u.drainStores 17 g = v)
    (hrun : (v.groom g).run = some r') : s.instr g w waits k =
      if waits r' v then v else k { r' with budget := r'.budget - 1 } (v.beginInstr g r' w) := by
  obtain ⟨hcalm, hlive, hdom, hstop, hrun0, hhalt, hexc, hwait, hbudget, hpc, hword⟩ := hf
  obtain ⟨e, b, hl⟩ := latchTimer_eq s hwait
  have hlive : r.live = true := by simp [Run.live, hhalt, hexc, hwait]
  have hfrozen : s.frozen (.stall g.s) = false := by simp [State.frozen, hdom]
  have hleft : ¬ (s.latchTimer r).budget = 0 := by rw [hl]; exact Nat.ne_of_gt hbudget
  have hin : ¬ (s.latchTimer r).pages * 1024 ≤ (s.latchTimer r).pc := by rw [hl]; exact hpc.not_ge
  have hfetch : u.fetchWord (s.latchTimer r) = w := by rw [← hu, hl]; exact hword
  unfold State.instr
  simp [hrun0, hfrozen, hstop, hlive, hu, hleft, hin, hfetch, hm, hw, hv, hrun]

theorem drainStores_of_none {s : State} {g : GroomId} {r : Run} (hrun : (s.groom g).run = some r)
    (hnext : nextStore [] r.stores = none) (n : Nat) : s.drainStores n g = s := by
  cases n with
  | zero => rfl
  | succ n =>
    unfold State.drainStores
    rw [hrun]
    simp only [hnext]

theorem nextStore_of_busy {xs : List GStore} (h : xs.all (fun x => x.busy) = true) (before : List GStore) :
    nextStore before xs = none := by
  induction xs generalizing before with
  | nil => rfl
  | cons x xs ih =>
    obtain ⟨hx, hxs⟩ : x.busy = true ∧ xs.all (fun x => x.busy) = true := by simpa using h
    unfold nextStore
    rw [show storeReady before x = false by unfold storeReady; simp [hx]]
    exact ih hxs _

/-! ### Branches and jumps (R335, R336) -/

section

variable {s : State} {g : GroomId} {r : Run} {w : BitVec 32}

theorem pcPlus_eq (pc : Nat) (off : Int) : pcPlus pc off = (((pc : Int) + off) % 2 ^ 64).toNat := by
  rw [pcPlus, Nat.cast_pow, Nat.cast_ofNat]

theorem branch_retires {op : Nat} {a b : BitVec 5} {off : BitVec 16} (hf : s.Fetches g r (encI op a b off)) (hop : majorOk op = true)
    (c : Word → Word → Bool) {p : Nat} (hp : (if c (r.get a) (r.get b) = true then pcPlus r.pc off.toInt else r.pc + 1) = p)
    (hlt : op < 64 := by decide) :
    ∃ t, s.quiet (.stall g.s) (fun s => s.branch g op a b off c) = .next t ∧ s.Retires t g (s.ran r 0 0 p) := by
  have hwait := wait_of_fetches hf
  refine ⟨_, quiet_of_live _ _ _ (live_of_fetches hf), ?_⟩
  have h := instr_retires (k := fun r t => t.modRun g fun x =>
      { x with pc := if c (r.get a) (r.get b) then pcPlus x.pc off.toInt else x.pc + 1 }) hf (majorOk_encI a b off hop hlt)
    (waits := noWait) rfl fun t _ => rfl
  rw [get_begun s hwait, get_begun s hwait, pc_begun s hwait, hp] at h
  exact h

theorem majorOk_encJ {op : Nat} (off : BitVec 26) (h : majorOk op = true) (hlt : op < 64 := by decide) :
    majorOk (fld (encJ op off) 31 26) = true := by
  rw [Laws.GroomMajor.major_encJ _ _ hlt, h]

theorem jal_retires {off : BitVec 26} (hf : s.Fetches g r (encJ 0x1E off)) :
    s.Retires (doJal g off s) g (s.ran r 31 (BitVec.ofNat 64 (r.pc + 1)) (((r.pc : Int) + off.toInt) % 2 ^ 64).toNat) := by
  have h := instr_retires hf (majorOk_encJ off rfl) (waits := noWait) rfl (k := fun r t => t.modRun g fun x =>
      { x.put 31 (BitVec.ofNat 64 (r.pc + 1)) with pc := pcPlus r.pc off.toInt }) fun t _ => rfl
  rw [put_begun, pc_begun s (wait_of_fetches hf), pcPlus_eq] at h
  exact h

theorem jalr_retires {rd a : BitVec 5} {i : BitVec 16} (hf : s.Fetches g r (encI 0x1F rd a i)) :
    s.Retires (doJalr g rd a i s) g (s.ran r rd (BitVec.ofNat 64 (r.pc + 1)) (r.get a + sext16 i).toNat) := by
  have h := instr_retires hf (majorOk_encI rd a i rfl) (waits := noWait) rfl (k := fun r t => t.modRun g fun x =>
      { x.put rd (BitVec.ofNat 64 (r.pc + 1)) with pc := (r.get a + sext16 i).toNat }) fun t _ => rfl
  rw [put_begun, pc_begun s (wait_of_fetches hf), get_begun s (wait_of_fetches hf)] at h
  exact h

/-! ### HALT, FENCE.SC and CSRW (R331, R339, R355) -/

theorem refKind_begun (s : State) {r : Run} (h : r.wait = .none) : (s.begun r).ref.kind = r.ref.kind := by
  obtain ⟨e, b, hb⟩ := begun_eq s h
  rw [hb]

/-- An instruction that changes no more than the start of one does leaves no work. -/
theorem act_instr {f : State → State} {t : State} (hf : s.Fetches g r w) (he : f s = t) (h : s.Alters t instrFields (InstrAt g)) :
    s.act (.stall g.s) f = .next t := by
  obtain ⟨hc, hlive, -⟩ := hf
  exact act_of_alters hlive hc he h

theorem halt_retires (hf : s.Fetches g r (encI 0x3F 0 0 0)) (hd : r.ref.kind = 0 → (r.get 1).toNat ≤ 2) :
    ∃ t, s.act (.stall g.s) (doHalt g 0 0 0) = .next t ∧ s.Retires t g { s.ran r 0 0 r.pc with halted := true } := by
  have hwait := wait_of_fetches hf
  obtain ⟨t, ht, ha, hoff, hk⟩ := instr_begins (waits := noWait) hf (majorOk_encI 0 0 0 rfl) rfl
  have he : doHalt g 0 0 0 s = t.modRun g fun x => { x with halted := true } := by
    rw [doHalt, hk, if_neg (by decide), if_neg]
    rw [refKind_begun s hwait, get_begun s hwait]
    exact fun h => absurd (hd h.1) (by omega)
  refine ⟨_, act_instr hf he (ha.trans (.modRun ..)), ?_⟩
  have hx := ht.modRun fun x => { x with halted := true }
  rw [ran_zero, ← pc_begun s hwait]
  exact ⟨hx.run, hx.scratch, hx.others, fun h => (hoff h).modRun _⟩

theorem csrw_retires {a : BitVec 5} (hf : s.Fetches g r (encI 0x35 0 a 4)) :
    s.Retires (doCsrw g 0 a 4 s) g { s.ran r 0 0 (r.pc + 1) with timer := r.get a, timerHit := false } := by
  have hwait := wait_of_fetches hf
  have h := instr_retires hf (majorOk_encI 0 a 4 rfl) (waits := noWait) rfl (k := fun r t =>
      if (0 : BitVec 5) ≠ 0 ∨ (4 : BitVec 16) ≠ 4 then t.raise g 1 0 0
      else t.modRun g fun x => { x.step with timer := r.get a, timerHit := false }) fun t _ => if_neg (by decide)
  rw [ran_zero, ← pc_begun s hwait, ← get_begun s hwait]
  exact h

theorem stores_latchTimer (s : State) {r : Run} (h : r.wait = .none) : (s.latchTimer r).stores = r.stores := by
  obtain ⟨e, b, hl⟩ := latchTimer_eq s h
  rw [hl]

/-- FENCE.SC waits while a store is in the buffer (R355). -/
def fenceWaits (r : Run) (_ : State) : Bool := decide ((0 : BitVec 5) = 0 ∧ (0 : BitVec 5) = 0 ∧ (0 : BitVec 16) = 0 ∧ r.stores ≠ [])

theorem fenceWaits_eq (r : Run) (u : State) : fenceWaits r u = decide (r.stores ≠ []) := by
  simp [fenceWaits]

/-- What FENCE.SC does once the store buffer is empty. -/
theorem doFence_eq (g : GroomId) (s : State) :
    doFence g 0 0 0 s = s.instr g (encI 0x33 0 0 0) fenceWaits fun _ t => (t.catchUp g).modRun g Run.step := rfl

theorem fence_loads (hf : s.Fetches g r (encI 0x33 0 0 0)) (hs : r.stores = []) :
    ∃ t, s.act (.stall g.s) (doFence g 0 0 0) = .next t ∧ s.Loads t g (s.ran r 0 0 (r.pc + 1)) := by
  have hwait := wait_of_fetches hf
  obtain ⟨t, ht, ha, hoff, hk⟩ := instr_begins (waits := fenceWaits) hf (majorOk_encI 0 0 0 rfl)
    (by simp [fenceWaits_eq, stores_latchTimer s hwait, hs])
  have he : doFence g 0 0 0 s = (t.catchUp g).modRun g Run.step := by rw [doFence_eq, hk]
  refine ⟨_, act_instr hf he ((ha.trans (.modRun ..)).trans (.modRun ..)), ?_⟩
  have hx := (ht.modRun fun r => { r with pastHbm := t.hbm, pastBuf := t.buf, seen := [] }).modRun Run.step
  refine ⟨?_, hx.scratch, hx.others, fun h => ?_⟩
  · rw [State.catchUp, hx.run, ran_zero, ← pc_begun s hwait]
    rfl
  · obtain ⟨e, hregs⟩ := ((hoff h).modRun fun r => { r with pastHbm := t.hbm, pastBuf := t.buf, seen := [] }).modRun Run.step
    exact ⟨by rw [State.catchUp, e], hregs⟩

/-- A write of host memory that is not acknowledged keeps FENCE.SC waiting. -/
theorem fence_waits (hf : s.Fetches g r (encI 0x33 0 0 0)) (hs : r.stores ≠ []) (hb : r.stores.all (fun x => x.busy) = true) :
    ∃ t, s.act (.stall g.s) (doFence g 0 0 0) = .next t ∧ (t.groom g).run = some (s.latchTimer r) ∧
      t = { s with grooms := t.grooms } := by
  have hwait := wait_of_fetches hf
  have hrun : (s.groom g).run = some r := (State.Executes.refl (s := s) (g := g) (r := r) (by obtain ⟨-, -, -, -, h, -⟩ := hf; exact h)).run
  have hrun' : ((s.modRun g fun _ => s.latchTimer r).groom g).run = some (s.latchTimer r) :=
    ((State.Executes.refl hrun).modRun _).run
  have hstores := stores_latchTimer s hwait
  have he : doFence g 0 0 0 s = s.modRun g fun _ => s.latchTimer r := by
    rw [doFence_eq, instr_drains hf (majorOk_encI 0 0 0 rfl) _ rfl (by simp [fenceWaits_eq, hstores, hs])
      (drainStores_of_none hrun' (nextStore_of_busy (by rw [hstores]; exact hb) _) _) hrun', if_pos]
    simp [fenceWaits_eq, hstores, hs]
  exact ⟨_, act_instr hf he (.modRun ..), hrun', rfl⟩

/-- A store of private scratch alone in the buffer, performed (R342): its bytes are written, and it leaves the buffer. -/
theorem drainStores_of_scratch {u : State} {x : GStore} {r : Run} (hrun : (u.groom g).run = some r) (hs : r.stores = [x])
    (hx : x.phys = none ∧ x.busy = false ∧ x.use = none ∧ x.addr < 0x20000) (n : Nat) :
    ∃ v, u.drainStores (n + 1) g = v ∧ (v.groom g).run = some { r with stores := [] } ∧
      (v.groom g).scratch = memWrite (u.groom g).scratch x.addr (leBytes x.size x.data) ∧
      v = (u.modGroom g fun y => { y with scratch := memWrite y.scratch x.addr (leBytes x.size x.data) }).modRun g fun r =>
        { r with stores := r.stores.filter fun y => y.id ≠ x.id } := by
  obtain ⟨hphys, hbusy, huse, hlt⟩ := hx
  have hready : nextStore [] [x] = some x := by simp [nextStore, storeReady, hbusy]
  have hperf : u.performStore g r.ctx x = (u.modGroom g fun y =>
      { y with scratch := memWrite y.scratch x.addr (leBytes x.size x.data) }).modRun g fun r =>
        { r with stores := r.stores.filter fun y => y.id ≠ x.id } := by
    unfold State.performStore
    simp only [hphys, huse, State.endHeld, State.localWrite, if_pos hlt, if_pos (show x.addr < 0x100000 by omega)]
  obtain ⟨v, hv⟩ : ∃ v, v = u.performStore g r.ctx x := ⟨_, rfl⟩
  have hrun' : (v.groom g).run = some { r with stores := [] } := by
    rw [hv, hperf, State.modRun, groom_modGroom_same, groom_modGroom_same]
    simp [hrun, hs]
  refine ⟨v, ?_, hrun', ?_, hv.trans hperf⟩
  · unfold State.drainStores
    rw [hrun]
    simp only [hs, hready, ← hv]
    exact drainStores_of_none hrun' rfl n
  · rw [hv, hperf, State.modRun, groom_modGroom_same, groom_modGroom_same]

theorem fence_drains {x : GStore} (hf : s.Fetches g r (encI 0x33 0 0 0)) (hs : r.stores = [x])
    (hx : x.phys = none ∧ x.busy = false ∧ x.use = none ∧ x.addr < 0x20000) :
    ∃ t, s.act (.stall g.s) (doFence g 0 0 0) = .next t ∧
      (t.groom g).run.map Run.bare = some { s.ran r 0 0 (r.pc + 1) with stores := [] }.bare ∧
      (t.groom g).scratch = memWrite (s.groom g).scratch x.addr (leBytes x.size x.data) ∧
      (s.rb (.pmSample g.s) 63 = false → t = { s with grooms := t.grooms, regs := t.regs }) := by
  have hwait := wait_of_fetches hf
  have hrun : (s.groom g).run = some r := by
    obtain ⟨-, -, -, -, h, -⟩ := hf
    exact h
  have hu := (State.Executes.refl hrun).modRun fun _ => s.latchTimer r
  have hstores := stores_latchTimer s hwait
  obtain ⟨v, hv, hrunv, hscr, hveq⟩ := drainStores_of_scratch hu.run (hstores.trans hs) hx 16
  have he : doFence g 0 0 0 s = ((v.beginInstr g { s.latchTimer r with stores := [] } (encI 0x33 0 0 0)).catchUp g).modRun g Run.step := by
    rw [doFence_eq, instr_drains hf (majorOk_encI 0 0 0 rfl) _ rfl (by simp [fenceWaits_eq, hstores, hs]) hv hrunv, if_neg]
    simp [fenceWaits_eq]
  have hx := (State.Executes.refl hrunv).beginInstr { s.latchTimer r with stores := [] } (encI 0x33 0 0 0)
  have ha : s.Alters v instrFields (InstrAt g) := by
    rw [hveq]
    exact ((State.Alters.modRun s _ _).trans (.modGroom ..)).trans (.modRun ..)
  have hoff : s.rb (.pmSample g.s) 63 = false →
      s.CountsOnly (v.beginInstr g { s.latchTimer r with stores := [] } (encI 0x33 0 0 0)) g := fun h => by
    have h1 : s.CountsOnly v g := by
      rw [hveq]
      exact ((((State.CountsOnly.refl s g).modRun _).modGroom _ _).modRun _)
    exact h1.beginInstr h _ _
  have hb := State.Alters.beginInstr v g { s.latchTimer r with stores := [] } (encI 0x33 0 0 0)
  generalize v.beginInstr g { s.latchTimer r with stores := [] } (encI 0x33 0 0 0) = t at *
  have hy := (hx.modRun fun r => { r with pastHbm := t.hbm, pastBuf := t.buf, seen := [] }).modRun Run.step
  refine ⟨_, act_instr hf he (((ha.trans hb).trans (.modRun ..)).trans (.modRun ..)), ?_, hy.scratch.trans (hu.scratch ▸ hscr), fun h => ?_⟩
  · obtain ⟨e, b, hl⟩ := latchTimer_eq s hwait
    rw [State.catchUp, hy.run, ran_zero, State.begun, hl]
    rfl
  · exact (((hoff h).modRun fun r => { r with pastHbm := t.hbm, pastBuf := t.buf, seen := [] }).modRun Run.step).1

end

/-- Settles O33. -/
theorem groomControlFlow : Obligations.GroomControlFlow := by
  unfold Obligations.GroomControlFlow
  refine ⟨fun s g r a b off hf => branch_retires hf rfl (fun a b => a = b) ?_,
    fun s g r a b off hf => branch_retires hf rfl (fun a b => a ≠ b) ?_,
    fun s g r a b off hf => branch_retires hf rfl (fun a b => a.slt b) ?_,
    fun s g r a b off hf => branch_retires hf rfl (fun a b => !a.slt b) ?_,
    fun s g r a b off hf => branch_retires hf rfl (fun a b => a.ult b) ?_,
    fun s g r a b off hf => branch_retires hf rfl (fun a b => !a.ult b) ?_,
    fun s g r off hf => ⟨_, quiet_of_live _ _ _ (live_of_fetches hf), jal_retires hf⟩,
    fun s g r rd a i hf => ⟨_, quiet_of_live _ _ _ (live_of_fetches hf), jalr_retires hf⟩,
    fun s g r hf hd => halt_retires hf hd, fun s g r hf hs => fence_loads hf hs, fun s g r hf hs hb => fence_waits hf hs hb,
    fun s g r x hf hs hx => ?_,
    fun s g r a hf => ⟨_, quiet_of_live _ _ _ (live_of_fetches hf), csrw_retires hf⟩⟩
  · simp only [decide_eq_true_eq, pcPlus_eq]
  · simp only [decide_eq_true_eq, pcPlus_eq]
  · rw [ite_slt, pcPlus_eq]
  · rw [pcPlus_eq]
    exact if_congr (by rw [Bool.not_eq_true', ← Bool.not_eq_true, BitVec.slt_iff_toInt_lt, Int.not_lt]) rfl rfl
  · rw [ite_ult, pcPlus_eq]
  · rw [pcPlus_eq]
    exact if_congr (by rw [Bool.not_eq_true', ← Bool.not_eq_true, BitVec.ult_iff_lt, BitVec.lt_def, Nat.not_lt]) rfl rfl
  · exact fence_drains hf hs hx

end Sys2Proof.Machine
end

section
/-! PROOFS. What raises an exception in a Groom, and what the exception leaves (R320, R321, R333, R336 to R339, R343 to
R347). -/

namespace Sys2Proof.Machine

-- The proofs are elaborated one after another: in parallel their threads' stacks need more memory than a compile may have.
set_option Elab.async false

/-! ### A run raises an exception (R346) -/

/-- The addresses of what an exception writes at once: GR_STATUS, and the Groom's counters. -/
def RaiseAt (g : GroomId) (a : Nat) : Prop := a = (Reg.grStatus g.s).addr ∨ ∃ i, a = (Reg.pmGcnt g i).addr

def raiseFields : List Field := [.grooms, .locks, .regs]

theorem State.Alters.dropWaits {F : List Field} {P : Nat → Prop} (s : State) (d : Nat) (m : Holder) (hF : .locks ∈ F := by decide) :
    s.Alters (s.dropWaits d m) F P := by
  unfold State.dropWaits
  split
  · exact put_locks s _ hF
  · exact refl s

theorem State.Alters.raise (s : State) (g : GroomId) (kind detail addr : Nat) :
    s.Alters (s.raise g kind detail addr) raiseFields (RaiseAt g) := by
  have hst : ∀ (s : State) v, s.Alters (s.setReg (.grStatus g.s) v) raiseFields (RaiseAt g) := fun s v => setReg s v (.inl rfl)
  unfold State.raise
  split
  · exact refl s
  · refine ite (refl s) ?_
    extract_lets s1 s2 s3 s4
    have h2 : s.Alters s2 raiseFields (RaiseAt g) := ((modRun s _ _).trans (dropWaits ..)).trans (hst ..)
    have h3 : s.Alters s3 raiseFields (RaiseAt g) := ite (h2.trans (hst ..)) h2
    have h4 : s.Alters s4 raiseFields (RaiseAt g) := ite (h3.trans (hst ..)) h3
    exact h4.trans (pmG _ _ _ _ _ fun i => .inr ⟨i, rfl⟩)

section

variable {s t : State} {g : GroomId} {r : Run}

/-- The exceptions of GR_STATUS that its bits 0 and 1 tell apart: BUDGET and TIMEOUT. -/
theorem raise_status (hrun : (t.groom g).run = some r) (hexc : r.exc = none) (kind detail addr : Nat) :
    (kind = 11 → (t.raise g kind detail addr).rb (.grStatus g.s) 0 = true) ∧
    (kind = 12 → (t.raise g kind detail addr).rb (.grStatus g.s) 1 = true) := by
  have hpm : ∀ (u : State) code ctx n i, (u.pmG g code ctx n).rb (.grStatus g.s) i = u.rb (.grStatus g.s) i :=
    fun u code ctx n i => (State.Alters.pmG (F := [.regs]) (P := fun a => ∃ i, a = (Reg.pmGcnt g i).addr) u g code ctx n
      fun i => ⟨i, rfl⟩).rb (fun ⟨j, e⟩ => grStatus_addr_ne_pmGcnt g.s g j e) i
  unfold State.raise
  simp only [hrun, hexc, Option.isSome_none, Bool.false_eq_true, if_false, hpm]
  refine ⟨fun h => ?_, fun h => ?_⟩
  · rw [if_pos h, rb_wb_same _ _ _ _ (by decide)]
  · rw [if_neg (by omega), if_pos h, rb_wb_same _ _ _ _ (by decide)]

/-- A run that excepts, of which only events and budget have changed: its registers, pc and handles are as they stood (R346). -/
theorem raised_of_executes {e n : Nat} {b : Bool} (hexc : r.exc = none)
    (ht : s.Executes t g { r with events := e, timerHit := b, budget := n }) (kind detail addr : Nat) :
    s.Raised (t.raise g kind detail addr) g r kind detail addr := by
  obtain ⟨hx, hs⟩ := ht.raise hexc kind detail addr
  exact ⟨by rw [hx.run]; rfl, by rw [hx.run]; rfl, hx.scratch, hx.buf, hs, hx.regs _ ⟨_, .inl rfl⟩, hx.regs _ ⟨_, .inr rfl⟩⟩

end

/-! ### An ISSUE whose image a store of its run has yet to reach -/

/-- A run of context 9 at an ISSUE whose image, at 64 in private scratch, is empty, with a store to that image in its buffer. -/
def issuingRun : Run :=
  { id := 0, ref := ⟨1, 9, 0, 0, 0, 0, [], none, 0⟩, bind := [mkWord 64 [(63, 12, hbmBase / 4096)], 0, 0, 0],
    regs := [0, 64], pc := 0, budget := 8, since := 0, wait := .none,
    stores := [{ id := 0, phys := none, addr := 72, size := 1, data := 5, release := false, busy := false, use := none }],
    nextStore := 1, handles := [], events := 0, timer := 0, timerHit := false, pastHbm := [], pastBuf := [], seen := [],
    halted := false, exc := none }

/-- The part with that run on Groom 0 of stall 0, and nothing but its instruction in HBM. -/
def issuingState : State :=
  { State.reset with
    coreOn := true, pins := { resetL := true }, grooms := [(0, { run := some issuingRun })],
    hbm := memWrite [] 0 (leBytes 4 (encI 0x30 2 1 0).toNat) }

theorem issuingState_fetches : issuingState.Fetches ⟨0, 0⟩ issuingRun (encI 0x30 2 1 0) := by decide +kernel

/-- The ISSUE has the store performed before it excepts. -/
theorem issuingState_scratch : (match exec (.issue ⟨0, 0⟩ 2 1 0) issuingState with
    | .next t => (t.groom ⟨0, 0⟩).scratch
    | _ => []) = [(72, 5)] := by decide +kernel

/-- Refutes O36: an ISSUE whose image a buffered store of its run meets has the buffer drained first (R342, R343), so that the
exception does not find private scratch as it stood. -/
theorem not_groomExceptions : ¬ Obligations.GroomExceptions := by
  intro h
  obtain ⟨-, -, -, -, -, -, -, -, -, -, hissue, -⟩ := h
  obtain ⟨t, he, ⟨-, -, hscratch, -⟩, -⟩ := hissue issuingState ⟨0, 0⟩ issuingRun 2 1 64 0 issuingState_fetches (by decide)
    (by decide) (by decide) (by decide) (by decide +kernel) (by decide) (by decide) (by decide)
  have hs := issuingState_scratch
  rw [he] at hs
  exact absurd (hscratch.symm.trans hs) (by decide)

end Sys2Proof.Machine
end

section
/-! PROOFS. ISSUE, WFE, SIGNAL, HLOCK and HUNLOCK (R343, R344, R345, R385). -/

namespace Sys2Proof.Machine

-- The proofs are elaborated one after another: in parallel their threads' stacks need more memory than a compile may have.
set_option Elab.async false

/-! ### ISSUE (R343) -/

section

variable {s : State} {g : GroomId} {r : Run}

theorem handles_latchTimer (s : State) {r : Run} (h : r.wait = .none) : (s.latchTimer r).handles = r.handles := by
  obtain ⟨e, b, hl⟩ := latchTimer_eq s h
  rw [hl]

theorem issueWaits_latchTimer (s : State) {r : Run} (h : r.wait = .none) (a : BitVec 5) :
    (s.latchTimer r).issueWaits a 0 = (decide (8 ≤ r.handles.length) || r.imageWaits (r.get a).toNat) := by
  obtain ⟨e, b, hl⟩ := latchTimer_eq s h
  have hget : (s.latchTimer r).get a = r.get a := by rw [hl]; rfl
  have hh : (s.latchTimer r).handles = r.handles := by rw [hl]
  have hi : ∀ n, (s.latchTimer r).imageWaits n = r.imageWaits n := fun n => by rw [hl]; rfl
  simp [Run.issueWaits, hget, hh, hi]

theorem issueFull_of_fetches {w : BitVec 32} (hf : s.Fetches g r w) : s.issueFull g = decide (8 ≤ r.handles.length) := by
  obtain ⟨-, -, hdom, hstop, hrun, hhalt, hexc, hwait, -⟩ := hf
  simp [State.issueFull, State.frozen, hdom, hstop, hrun, Run.live, hhalt, hexc, hwait]

/-- The least number that no handle of a run has is its smallest free handle. -/
theorem freeHandle_eq {h : Nat} (hlt : h < 8) (hfree : r.handles.all (fun e => e.1 ≠ h) = true)
    (hused : (List.range h).all (fun k => r.handles.any (fun e => e.1 = k)) = true) : r.freeHandle = h := by
  have hfind : (List.range 8).find? (fun h => r.handles.all (fun e => e.1 ≠ h)) = some h := by
    rw [List.find?_range_eq_some]
    refine ⟨hfree, List.mem_range.2 hlt, fun k hk => ?_⟩
    have := List.all_eq_true.1 hused k (List.mem_range.2 hk)
    simpa using this
  rw [Run.freeHandle, hfind]
  rfl

theorem memRead_take (m : List Host.Cell) (a : Nat) {n k : Nat} (h : k ≤ n) : (memRead m a n).take k = memRead m a k := by
  rw [memRead, ← List.map_take, List.take_range, Nat.min_eq_left h, memRead]

/-- The header of a command's image in memory. -/
theorem wordsOf_head (m : List Host.Cell) (a : Nat) :
    (wordsOf (8 * 1) (memRead m a (64 * 1))).getD 0 0 = BitVec.ofNat 64 (ofLe (memRead m a 8)) := by
  rw [← memRead_take m a (show 8 ≤ 64 * 1 by decide)]
  rfl

/-- The command that an ISSUE begins, of an image of the words `ws` at `a` (R343). -/
def State.issuedOp (s : State) (g : GroomId) (c a : Nat) (ws : List Word) : Op :=
  { src := .groom g a, queue := 0x100000, count := 0, ctx := c, link := s.ctxLink c, fn := s.ctxFn c, stall := g.s.val,
    words := ws, performed := true, left := 0, status := 0, detail := 0, result := 0, aux := 2 }

/-- An ISSUE with a free handle and a well-formed image (R343). -/
theorem doIssue_eq {rd b : BitVec 5} {a h : Nat} {w : Word} {t : State} (hfull : s.issueFull g = false)
    (hwait : r.wait = .none)
    (hk : ∀ k, s.instr g (encI 0x30 rd b 0) (fun r _ => r.issueWaits b 0) k = k (s.begun r) t) (ha : a = (r.get b).toNat)
    (hal : a % 64 = 0) (hin : a + 64 ≤ 0x20000) (hw : w = BitVec.ofNat 64 (ofLe (memRead (t.groom g).scratch a 8)))
    (hfit : a + 64 * hdrLen w ≤ 0x20000) (hev : hdrEvent w = false) (hop : hdrOp w ∈ [1, 2, 3, 4, 5, 6, 0x10, 0x11])
    (hh : r.freeHandle = h) :
    doIssue g rd b 0 s =
      (({ t with ops := tPut t.serial (t.issuedOp g r.ctx a (wordsOf (8 * hdrLen w) (memRead (t.groom g).scratch a (64 * hdrLen w)))) t.ops,
                 serial := t.serial + 1 } : State).modRun g fun r => { r with handles := r.handles ++ [(h, a, t.serial)] }).writeReg
        g rd (BitVec.ofNat 64 h) := by
  have hfree : (s.begun r).freeHandle = h := by
    obtain ⟨e, b, hb⟩ := begun_eq s hwait
    rw [hb]
    exact hh
  have hgo : issueOk (hdrOp w) = true := decide_eq_true hop
  have hnot : ¬ (0x20000 < a + 64 * hdrLen w ∨ hdrEvent w = true) := by
    rw [hev]
    simp only [Bool.false_eq_true, or_false]
    omega
  unfold doIssue
  simp only [hfull, Bool.and_false, Bool.false_eq_true, if_false]
  rw [hk]
  simp only [get_begun s hwait, ctx_begun s hwait, ← ha, ne_eq, not_true_eq_false, if_false, hal,
    if_neg (show ¬ 0x20000 < a + 64 by omega), wordsOf_head, ← hw, if_neg hnot, hgo, Bool.not_true, Bool.false_eq_true, hfree]
  rfl

theorem run_of_fetches {w : BitVec 32} (hf : s.Fetches g r w) : (s.groom g).run = some r := by
  obtain ⟨-, -, -, -, hrun, -⟩ := hf
  exact hrun

theorem calm_of_fetches {w : BitVec 32} (hf : s.Fetches g r w) : s.Calm := by
  obtain ⟨hcalm, -⟩ := hf
  exact hcalm

theorem groom_of_grooms {s t : State} (h : t.grooms = s.grooms) (g : GroomId) : t.groom g = s.groom g := by
  rw [State.groom, h, State.groom]

theorem issue_begins {rd b : BitVec 5} {a h : Nat} {w : Word} (hf : s.Fetches g r (encI 0x30 rd b 0)) (hlen : r.handles.length < 8)
    (himg : r.imageWaits (r.get b).toNat = false) (ha : a = (r.get b).toNat) (hal : a % 64 = 0) (hin : a + 64 ≤ 0x20000)
    (hw : w = BitVec.ofNat 64 (ofLe (memRead (s.groom g).scratch a 8))) (hfit : a + 64 * hdrLen w ≤ 0x20000)
    (hev : hdrEvent w = false) (hop : hdrOp w ∈ [1, 2, 3, 4, 5, 6, 0x10, 0x11]) (hh : r.freeHandle = h) :
    ∃ t, exec (.issue g rd b 0) s = .next t ∧
      (t.groom g).run = some { s.ran r rd (BitVec.ofNat 64 h) (r.pc + 1) with handles := r.handles ++ [(h, a, s.serial)] } ∧
      (∃ o : Op, tFind t.ops s.serial = some o ∧ (o.ctx, o.link, o.fn, o.stall) = (r.ctx, s.ctxLink r.ctx, s.ctxFn r.ctx, g.s.val) ∧
        o.words = wordsOf (8 * hdrLen w) (memRead (s.groom g).scratch a (64 * hdrLen w))) ∧
      t.serial = s.serial + 1 ∧ (t.groom g).scratch = (s.groom g).scratch ∧
      (s.rb (.pmSample g.s) 63 = false → t = { s with grooms := t.grooms, regs := t.regs, ops := t.ops, serial := t.serial }) := by
  have hwait := wait_of_fetches hf
  have hfull : s.issueFull g = false := by rw [issueFull_of_fetches hf, decide_eq_false (by omega)]
  obtain ⟨t, ht, hA, hoff, hk⟩ := instr_begins (waits := fun r _ => r.issueWaits b 0) hf (majorOk_encI rd b 0 rfl)
    (by rw [issueWaits_latchTimer s hwait, himg, decide_eq_false (by omega), Bool.false_or])
  have hctx : t.ctxs = s.ctxs := hA.ctxs
  have hserial : t.serial = s.serial := hA.serial
  rw [← ht.scratch] at hw
  have he := doIssue_eq hfull hwait hk ha hal hin hw hfit hev hop hh
  rw [← ht.scratch, ← hserial]
  generalize hws : wordsOf (8 * hdrLen w) (memRead (t.groom g).scratch a (64 * hdrLen w)) = ws at he ⊢
  obtain ⟨u, hu⟩ : ∃ u, u = ({ t with
      ops := tPut t.serial (t.issuedOp g r.ctx a ws) t.ops,
      serial := t.serial + 1 } : State) := ⟨_, rfl⟩
  have hux : s.Executes u g (s.begun r) := ht.spares (hu ▸ .of_regs_eq rfl rfl rfl)
  rw [← hu] at he
  have hx := (hux.modRun fun r => { r with handles := r.handles ++ [(h, a, t.serial)] }).modRun
    fun r => (r.put rd (BitVec.ofNat 64 h)).step
  have hAu : s.Alters u (.ops :: .serial :: instrFields) (InstrAt g) := by
    have hAt : s.Alters t (.ops :: .serial :: instrFields) (InstrAt g) := hA.mono
    have hAo := hAt.trans (.put_ops t (tPut t.serial (t.issuedOp g r.ctx a ws) t.ops))
    exact hu ▸ hAo.trans (.put_serial _ (t.serial + 1))
  have hops : u.ops = tPut t.serial (t.issuedOp g r.ctx a ws) t.ops := by
    rw [hu]
  have hput : ({ s.begun r with handles := r.handles ++ [(h, a, t.serial)] }.put rd (BitVec.ofNat 64 h)).step =
      { s.ran r rd (BitVec.ofNat 64 h) (r.pc + 1) with handles := r.handles ++ [(h, a, t.serial)] } := by
    rw [← step_put_begun s hwait, Run.put, Run.put]
    split <;> rfl
  have hhan : (s.begun r).handles = r.handles := handles_latchTimer s hwait
  refine ⟨_, act_of_alters (live_of_fetches hf) (calm_of_fetches hf) he ((hAu.trans (.modRun ..)).trans (.modRun ..)), ?_, ⟨t.issuedOp g r.ctx a ws, ?_, ?_, rfl⟩, ?_, ?_, fun hs => ?_⟩
  · rw [← hput, ← hhan]
    exact hx.run
  · exact (congrArg (tFind · t.serial) hops).trans (tFind_tPut_same ..)
  · have hl : t.ctxLink r.ctx = s.ctxLink r.ctx := by simp only [State.ctxLink, State.ctxWord, State.ctx?, hctx]
    have hfn : t.ctxFn r.ctx = s.ctxFn r.ctx := by simp only [State.ctxFn, State.ctxWord, State.ctx?, hctx]
    rw [← hl, ← hfn]
    rfl
  · rw [hu]
    rfl
  · exact hx.scratch.trans ht.scratch.symm
  · rw [hu, (hoff hs).1]
    rfl

/-- With 8 commands outstanding and nothing in the store buffer an ISSUE begins its wait (R343). -/
theorem issue_waits {rd b : BitVec 5} (hf : s.Fetches g r (encI 0x30 rd b 0)) (hlen : 8 ≤ r.handles.length) (hs : r.stores = []) :
    ∃ t, exec (.issue g rd b 0) s = .next t ∧ (t.groom g).run = some { s.latchTimer r with wait := .issue } ∧
      t = { s with grooms := t.grooms } := by
  have hwait := wait_of_fetches hf
  have hrun := (State.Executes.refl (run_of_fetches hf)).modRun fun _ => s.latchTimer r
  obtain ⟨u, hu⟩ : ∃ u, u = s.modRun g fun _ => s.latchTimer r := ⟨_, rfl⟩
  rw [← hu] at hrun
  have hwaits : (s.latchTimer r).issueWaits b 0 = true := by
    rw [issueWaits_latchTimer s hwait, decide_eq_true hlen, Bool.true_or]
  have hinstr : ∀ k, s.instr g (encI 0x30 rd b 0) (fun r _ => r.issueWaits b 0) k = u := fun k => by
    rw [instr_drains hf (majorOk_encI rd b 0 rfl) (waits := fun r _ => r.issueWaits b 0) k hu.symm hwaits
      (drainStores_of_none hrun.run (by rw [stores_latchTimer s hwait, hs]; rfl) _) hrun.run, if_pos hwaits]
  have hstalls : (if (s.latchTimer r).live && u.fetchWord (s.latchTimer r) = encI 0x30 rd b 0 then
      { s.latchTimer r with wait := .issue } else s.latchTimer r) = { s.latchTimer r with wait := .issue } := by
    obtain ⟨-, -, -, -, -, hhalt, hexc, -, -, -, hword⟩ := hf
    obtain ⟨e, x, hl⟩ := latchTimer_eq s hwait
    have hfetch : u.fetchWord (s.latchTimer r) = encI 0x30 rd b 0 := by rw [hu, hl]; exact hword
    have hlive : (s.latchTimer r).live = true := by rw [hl]; simp [Run.live, hhalt, hexc, hwait]
    rw [if_pos (by simp [hlive, hfetch])]
  have he : doIssue g rd b 0 s = u.issueStall g (encI 0x30 rd b 0) := by
    unfold doIssue
    simp only [hinstr, issueFull_of_fetches hf, decide_eq_true hlen, decide_true, Bool.and_true, if_true]
  have hx := hrun.modRun fun r => if r.live && u.fetchWord r = encI 0x30 rd b 0 then { r with wait := .issue } else r
  refine ⟨_, act_instr hf he (hu ▸ (State.Alters.modRun s g _).trans (.modRun ..)), ?_, ?_⟩
  · rw [← hstalls]
    exact hx.run
  · rw [hu]
    rfl

/-! ### WFE (R345) -/

theorem wakeRun_zero_of_miss {rd m : Nat} (x : Run) (h : x.events &&& m = 0) :
    wakeRun 0 { x with wait := .wfe rd m } = { x with wait := .wfe rd m } := by
  simp [wakeRun, h]

/-- A WFE that finds events of its mask takes them and goes on. -/
theorem wakeRun_zero_of_hit {m : Nat} (rd : BitVec 5) {x : Run} (hw : x.wait = .none) (h : x.events &&& m ≠ 0) :
    wakeRun 0 { x with wait := .wfe rd.toNat m } =
      { (x.put rd (BitVec.ofNat 64 (x.events &&& m))).step with events := x.events - (x.events &&& m) } := by
  have hrd : rd.toNat = 0 ↔ rd = 0 := by rw [← BitVec.toNat_inj]; rfl
  unfold wakeRun Run.put Run.step
  simp only [Nat.or_zero, if_neg h, hrd, ← hw]
  split <;> rfl

theorem wfe_retires {rd b : BitVec 5} {m : Nat} (hf : s.Fetches g r (encI 0x31 rd b 0)) (hm : m = fld (r.get b) 4 0) (hne : m ≠ 0) :
    ∃ t, exec (.wfe g rd b 0) s = .next t ∧ s.Retires t g (wakeRun 0 { s.begun r with wait := .wfe rd.toNat m }) := by
  have hwait := wait_of_fetches hf
  obtain ⟨t, ht, hA, hoff, hk⟩ := instr_begins (waits := noWait) hf (majorOk_encI rd b 0 rfl) rfl
  have he : doWfe g rd b 0 s = t.modRun g fun r => wakeRun 0 { r with wait := .wfe rd.toNat m } := by
    rw [doWfe, hk, get_begun s hwait, ← hm]
    exact if_neg (by simp [hne])
  have hx := ht.modRun fun r => wakeRun 0 { r with wait := .wfe rd.toNat m }
  exact ⟨_, act_instr hf he (hA.trans (.modRun ..)), hx.run, hx.scratch, hx.others, fun h => (hoff h).modRun _⟩

theorem events_begun (s : State) (r : Run) : (s.begun r).events = (s.latchTimer r).events := rfl

theorem wait_begun (s : State) {r : Run} (h : r.wait = .none) : (s.begun r).wait = .none := by
  obtain ⟨e, b, hb⟩ := begun_eq s h
  rw [hb, ← h]

/-! ### SIGNAL (R345) -/

/-- A SIGNAL as another run of its context in the stall takes it. -/
def signalRun (ctx : Nat) (x : Run) : Run := if x.ctx = ctx ∧ x.exc = none ∧ x.halted = false then wakeRun 8 x else x

theorem groom_modRun_same (s : State) (g : GroomId) (f : Run → Run) :
    (s.modRun g f).groom g = { s.groom g with run := (s.groom g).run.map f } := groom_modGroom_same ..

theorem groom_modRun_other (s : State) {g h : GroomId} (f : Run → Run) (hne : h ≠ g) : (s.modRun g f).groom h = s.groom h :=
  groom_modGroom_other _ _ hne

/-- The other Grooms of the stall, of those listed, have their runs changed; the rest stays. -/
theorem groom_foldl_modRun (f : Run → Run) (g h : GroomId) {is : List (Fin 16)} (hnd : is.Nodup) (t : State) :
    (is.foldl (fun t i => if i = g.g then t else t.modRun ⟨g.s, i⟩ f) t).groom h =
      if h.s = g.s ∧ h.g ≠ g.g ∧ h.g ∈ is then { t.groom h with run := (t.groom h).run.map f } else t.groom h := by
  induction is generalizing t with
  | nil => simp
  | cons i is ih =>
    obtain ⟨hi, hnd⟩ := List.nodup_cons.1 hnd
    rw [List.foldl_cons, ih hnd]
    by_cases hig : i = g.g
    · rw [if_pos hig]
      refine ite_congr (propext ?_) (fun _ => rfl) fun _ => rfl
      rw [List.mem_cons]
      exact ⟨fun ⟨hs, hne, hm⟩ => ⟨hs, hne, .inr hm⟩, fun ⟨hs, hne, hm⟩ => ⟨hs, hne, hm.resolve_left fun e => hne (e.trans hig)⟩⟩
    · rw [if_neg hig]
      by_cases hh : h = ⟨g.s, i⟩
      · subst hh
        rw [if_neg fun ⟨_, _, hm⟩ => hi hm, if_pos ⟨rfl, hig, List.mem_cons_self ..⟩, groom_modRun_same]
      · rw [groom_modRun_other _ _ hh]
        refine ite_congr (propext ?_) (fun _ => rfl) fun _ => rfl
        rw [List.mem_cons]
        refine ⟨fun ⟨hs, hne, hm⟩ => ⟨hs, hne, .inr hm⟩, fun ⟨hs, hne, hm⟩ => ⟨hs, hne, hm.resolve_left fun e => hh ?_⟩⟩
        rw [← hs, ← e]

theorem signal_retires (hf : s.Fetches g r (encI 0x32 0 0 0)) :
    ∃ t, exec (.signal g 0 0 0) s = .next t ∧ (t.groom g).run = some (s.ran r 0 0 (r.pc + 1)) ∧
      (∀ h : GroomId, h ≠ g → t.groom h = { s.groom h with run := (s.groom h).run.map fun x =>
        if h.s = g.s ∧ x.ctx = r.ctx ∧ x.exc = none ∧ x.halted = false then wakeRun 8 x else x }) ∧
      (s.rb (.pmSample g.s) 63 = false → t = { s with grooms := t.grooms, regs := t.regs }) := by
  have hwait := wait_of_fetches hf
  obtain ⟨t, ht, hA, hoff, hk⟩ := instr_begins (waits := noWait) hf (majorOk_encI 0 0 0 rfl) rfl
  obtain ⟨u, hu⟩ : ∃ u, u = (List.finRange 16).foldl (fun t i => if i = g.g then t else t.modRun ⟨g.s, i⟩ (signalRun r.ctx)) t := ⟨_, rfl⟩
  have hgroom := fun h => hu ▸ groom_foldl_modRun (signalRun r.ctx) g h (List.nodup_finRange 16) t
  have he : doSignal g 0 0 0 s = u.modRun g Run.step := by
    rw [doSignal, hk, if_neg (by decide), ctx_begun s hwait, hu]
    rfl
  have hAu : t.Alters u instrFields (InstrAt g) :=
    hu ▸ .foldl (fun t i => .ite (.refl t) (.modRun ..)) _ _
  refine ⟨_, act_instr hf he ((hA.trans hAu).trans (.modRun ..)), ?_, fun h hne => ?_, fun hs => ?_⟩
  · rw [groom_modRun_same, hgroom, if_neg fun hg => hg.2.1 rfl, ht.run, ran_zero, ← pc_begun s hwait]
    rfl
  · rw [groom_modRun_other _ _ hne, hgroom, ht.others h hne]
    have hmem : h.g ∈ List.finRange 16 := List.mem_finRange _
    by_cases hs : h.s = g.s
    · have hg : h.g ≠ g.g := fun hg => hne (by cases h; cases g; cases hs; cases hg; rfl)
      simp only [hs, hg, hmem, ne_eq, not_false_eq_true, and_self, if_true, true_and]
      rfl
    · simp [hs]
  · have hcounts : s.CountsOnly u g := by
      rw [hu]
      refine List.foldlRecOn (motive := fun u => s.CountsOnly u g) _ _ (hoff hs) fun v hv i _ => ?_
      split
      · exact hv
      · exact hv.modGroom _ _
    rw [(hcounts.modRun Run.step).1]

/-! ### HLOCK and HUNLOCK (R344, R385) -/

theorem lock_modLock_same (s : State) (d n : Nat) (f : Lock → Lock) : (s.modLock d n f).lock d n = f (s.lock d n) :=
  tGet_tMod_same ..

theorem groom_modLock (s : State) (d n : Nat) (f : Lock → Lock) (g : GroomId) : (s.modLock d n f).groom g = s.groom g := rfl

theorem lock_modRun (s : State) (d n : Nat) (f : Run → Run) (g : GroomId) : (s.modRun g f).lock d n = s.lock d n := rfl

theorem lock_of_locks {s t : State} (h : t.locks = s.locks) (d n : Nat) : t.lock d n = s.lock d n := by
  rw [State.lock, h, State.lock]

theorem waitsOn_of_locks {s t : State} (h : t.locks = s.locks) (d : Nat) (m : Holder) : t.waitsOn d m = s.waitsOn d m := by
  rw [State.waitsOn, h, State.waitsOn]

/-- An acquire of a free lock by a master that waits on none (R385). -/
theorem acquire_of_free {d n prio : Nat} {m : Holder} {try_ : Bool} (ho : (s.lock d n).owner = none) (hw : s.waitsOn d m = none) :
    s.acquire d n m prio try_ = (b2n (s.lock d n).abandoned, s.grant d n m prio (s.lock d n).abandoned false) := by
  unfold State.acquire
  simp [ho, hw]

/-- A try of a lock that another master owns changes nothing (R385). -/
theorem acquire_try_of_held {d n prio : Nat} {m w : Holder} (ho : (s.lock d n).owner = some w) (hne : w ≠ m) :
    s.acquire d n m prio true = (2, s) := by
  unfold State.acquire
  simp [ho, hne]

/-- An acquire of a lock that another master owns queues the master, which raises no priority (R385). -/
theorem acquire_of_held {d n prio : Nat} {m w : Holder} (ho : (s.lock d n).owner = some w) (hne : w ≠ m)
    (hw : s.waitsOn d m = none) (hle : prio ≤ (s.lock d n).eff) :
    s.acquire d n m prio false = (3, s.modLock d n fun l => { l with waiters := l.waiters ++ [⟨m, prio, s.clk⟩] }) := by
  have heff : ¬ (s.lock d n).eff <
      ((s.modLock d n fun l => { l with waiters := l.waiters ++ [⟨m, prio, s.clk⟩] }).lock d n).eff := by
    rw [lock_modLock_same]
    simp only [Lock.eff, ho, Option.isNone_some, Bool.false_eq_true, if_false, List.foldl_append, List.foldl_cons, List.foldl_nil] at hle ⊢
    omega
  unfold State.acquire
  simp [ho, hne, hw, heff]

/-- A lock that nobody waits for is freed (R385). -/
theorem passLock_of_no_waiters {d n : Nat} {ab : Bool} (h : (s.lock d n).waiters = []) :
    s.passLock d n ab = s.modLock d n fun l => { l with owner := none, prio := 0, abandoned := ab } := by
  unfold State.passLock
  simp only [h]
  rfl

/-- The fields that an instruction on a lock changes. -/
def lockFields : List Field := .locks :: instrFields

theorem hlock_eq {rd b : BitVec 5} {i : BitVec 16} {t u : State} {st n : Nat} (hwait : r.wait = .none)
    (hk : ∀ k, s.instr g (encI 0x16 rd b i) noWait k = k (s.begun r) t)
    (hi : fld i 15 9 = 0) (hn : n = fld (r.get b) 15 0)
    (ha : t.acquire (g.s.val / 8) n (.run g) (fld i 7 0) (bit i 8) = (st, u)) (h3 : st ≠ 3) (hlt : st < 0x10) :
    doHlock g rd b i s = (u.catchUp g).writeReg g rd (BitVec.ofNat 64 st) := by
  unfold doHlock
  rw [hk, if_neg (not_not.2 hi), get_begun s hwait, ← hn]
  simp only [ha, if_neg (show ¬ 0x10 ≤ st by omega)]

theorem hlock_waits_eq {rd b : BitVec 5} {i : BitVec 16} {t u : State} {n : Nat} (hwait : r.wait = .none)
    (hk : ∀ k, s.instr g (encI 0x16 rd b i) noWait k = k (s.begun r) t)
    (hi : fld i 15 9 = 0) (hn : n = fld (r.get b) 15 0)
    (ha : t.acquire (g.s.val / 8) n (.run g) (fld i 7 0) (bit i 8) = (3, u)) :
    doHlock g rd b i s = u.modRun g fun r => { r with wait := .hlock rd.toNat n } := by
  unfold doHlock
  rw [hk, if_neg (not_not.2 hi), get_begun s hwait, ← hn]
  simp only [ha]

theorem bare_step_put (hwait : r.wait = .none) (x y : List Host.Cell) (rd : BitVec 5) (v : Word) :
    (({ s.begun r with pastHbm := x, pastBuf := y, seen := [] }.put rd v).step).bare = (s.ran r rd v (r.pc + 1)).bare := by
  rw [← step_put_begun s hwait, Run.put, Run.put]
  split <;> rfl

theorem hlock_of_free {rd b : BitVec 5} {i : BitVec 16} {d n : Nat} (hf : s.Fetches g r (encI 0x16 rd b i)) (hi : fld i 15 9 = 0)
    (hd : d = g.s.val / 8) (hn : n = fld (r.get b) 15 0) (how : (s.lock d n).owner = none) (hno : s.waitsOn d (.run g) = none) :
    ∃ t, exec (.hlock g rd b i) s = .next t ∧ (t.groom g).run.map Run.bare =
        some (s.ran r rd (if (s.lock d n).abandoned = true then 1 else 0) (r.pc + 1)).bare ∧
      t.lock d n = { s.lock d n with owner := some (.run g), prio := fld i 7 0, gen := ((s.lock d n).gen + 1) % 65536 } ∧
      (s.rb (.pmSample g.s) 63 = false → t = { s with grooms := t.grooms, regs := t.regs, locks := t.locks }) := by
  have hwait := wait_of_fetches hf
  obtain ⟨t, ht, hA, hoff, hk⟩ := instr_begins (waits := noWait) hf (majorOk_encI rd b i rfl) rfl
  have hlocks : t.locks = s.locks := hA.locks
  have hlock := lock_of_locks hlocks d n
  have hacq := acquire_of_free (prio := fld i 7 0) (try_ := bit i 8) (hlock ▸ how) ((waitsOn_of_locks hlocks d (.run g)).trans hno)
  rw [hlock] at hacq
  obtain ⟨u, hu⟩ : ∃ u, u = t.grant d n (.run g) (fld i 7 0) (s.lock d n).abandoned false := ⟨_, rfl⟩
  have hueq : u = (t.modLock d n fun l =>
      { l with owner := some (.run g), prio := fld i 7 0, abandoned := (s.lock d n).abandoned, gen := (l.gen + 1) % 65536 }).bump
        (.hkCount (domOf d)) 31 16 1 := hu
  have hst : b2n (s.lock d n).abandoned ≤ 1 := by cases (s.lock d n).abandoned <;> decide
  have he := hlock_eq hwait hk hi hn (by rw [← hd, hacq, ← hu]) (by omega) (by omega)
  have hAt : s.Alters t lockFields (fun _ => True) := hA.mono (hP := fun _ _ => trivial)
  have hAu : t.Alters u lockFields (fun _ => True) :=
    hueq ▸ (State.Alters.put_locks t _).trans (.setReg _ _ trivial)
  have hgroom := groom_of_grooms (s := t) (t := u) (by rw [hueq]; rfl) g
  refine ⟨_, act_of_alters (live_of_fetches hf) (calm_of_fetches hf) he (((hAt.trans hAu).trans (.modRun ..)).trans (.modRun ..)),
    ?_, ?_, fun hs => ?_⟩
  · rw [State.writeReg, State.catchUp, groom_modRun_same, groom_modRun_same, hgroom, ht.run]
    simp only [Option.map_some, bare_step_put hwait]
    cases (s.lock d n).abandoned <;> rfl
  · rw [show ((u.catchUp g).writeReg g rd (BitVec.ofNat 64 (b2n (s.lock d n).abandoned))).lock d n = u.lock d n from rfl, hueq,
      show ∀ v : State, (v.bump (.hkCount (domOf d)) 31 16 1).lock d n = v.lock d n from fun _ => rfl, lock_modLock_same, hlock]
  · rw [hueq, (hoff hs).1]
    rfl

theorem hlock_try_of_held {rd b : BitVec 5} {i : BitVec 16} {d n : Nat} {w : Holder} (hf : s.Fetches g r (encI 0x16 rd b i))
    (hi : fld i 15 9 = 0) (hd : d = g.s.val / 8) (hn : n = fld (r.get b) 15 0) (how : (s.lock d n).owner = some w)
    (hne : w ≠ .run g) (htry : bit i 8 = true) :
    ∃ t, exec (.hlock g rd b i) s = .next t ∧ s.Loads t g (s.ran r rd 2 (r.pc + 1)) := by
  have hwait := wait_of_fetches hf
  obtain ⟨t, ht, hA, hoff, hk⟩ := instr_begins (waits := noWait) hf (majorOk_encI rd b i rfl) rfl
  have he := hlock_eq hwait hk hi hn (by
    rw [← hd, htry, acquire_try_of_held ((congrArg Lock.owner (lock_of_locks hA.locks d n)).trans how) hne]) (by decide) (by decide)
  have hx := (ht.modRun fun r => { r with pastHbm := t.hbm, pastBuf := t.buf, seen := [] }).modRun
    fun r => (r.put rd (BitVec.ofNat 64 2)).step
  refine ⟨_, act_instr hf he ((hA.trans (.modRun ..)).trans (.modRun ..)), ?_, hx.scratch, hx.others, fun h => ?_⟩
  · rw [State.writeReg, State.catchUp, hx.run, Option.map_some, bare_step_put hwait]
    rfl
  · obtain ⟨e, hregs⟩ := ((hoff h).modRun fun r => { r with pastHbm := t.hbm, pastBuf := t.buf, seen := [] }).modRun
      fun r => (r.put rd (BitVec.ofNat 64 2)).step
    exact ⟨by rw [State.writeReg, State.catchUp, e], hregs⟩

theorem hlock_of_held {rd b : BitVec 5} {i : BitVec 16} {d n : Nat} {w : Holder} (hf : s.Fetches g r (encI 0x16 rd b i))
    (hi : fld i 15 8 = 0) (hd : d = g.s.val / 8) (hn : n = fld (r.get b) 15 0) (how : (s.lock d n).owner = some w)
    (hne : w ≠ .run g) (hno : s.waitsOn d (.run g) = none) (hle : fld i 7 0 ≤ (s.lock d n).eff) :
    ∃ t, exec (.hlock g rd b i) s = .next t ∧ (t.groom g).run = some { s.ran r 0 0 r.pc with wait := .hlock rd.toNat n } ∧
      t.lock d n = { s.lock d n with waiters := (s.lock d n).waiters ++ [⟨.run g, fld i 7 0, s.clk⟩] } ∧
      (s.rb (.pmSample g.s) 63 = false → t = { s with grooms := t.grooms, regs := t.regs, locks := t.locks }) := by
  have hwait := wait_of_fetches hf
  have hi9 : fld i 15 9 = 0 := by simp [fld] at hi ⊢; omega
  have hi8 : bit i 8 = false := by simp [fld, bit, BitVec.getLsbD, Nat.testBit] at hi ⊢; omega
  obtain ⟨t, ht, hA, hoff, hk⟩ := instr_begins (waits := noWait) hf (majorOk_encI rd b i rfl) rfl
  have hlocks : t.locks = s.locks := hA.locks
  have hlock := lock_of_locks hlocks d n
  have hclk : t.clk = s.clk := hA.clk
  have hacq := acquire_of_held (prio := fld i 7 0) (hlock ▸ how) hne ((waitsOn_of_locks hlocks d (.run g)).trans hno) (hlock ▸ hle)
  rw [hclk] at hacq
  have he := hlock_waits_eq hwait hk hi9 hn (by rw [← hd, hi8, hacq])
  have hAt : s.Alters t lockFields (InstrAt g) := hA.mono
  refine ⟨_, act_of_alters (live_of_fetches hf) (calm_of_fetches hf) he ((hAt.trans (.put_locks t _)).trans (.modRun ..)), ?_, ?_,
    fun hs => ?_⟩
  · rw [groom_modRun_same, groom_modLock, ht.run, ran_zero, ← pc_begun s hwait]
    rfl
  · rw [lock_modRun, lock_modLock_same, hlock]
  · rw [(hoff hs).1]
    rfl

/-- HUNLOCK waits while a store is in the buffer (R356). -/
def hunlockWaits (r : Run) (_ : State) : Bool := decide ((0 : BitVec 5) = 0 ∧ (0 : BitVec 16) = 0 ∧ r.stores ≠ [])

theorem hunlock_frees {b : BitVec 5} {d n : Nat} (hf : s.Fetches g r (encI 0x17 0 b 0)) (hs : r.stores = []) (hd : d = g.s.val / 8)
    (hn : n = fld (r.get b) 15 0) (how : (s.lock d n).owner = some (.run g)) (hwt : (s.lock d n).waiters = []) :
    ∃ t, exec (.hunlock g 0 b 0) s = .next t ∧ (t.groom g).run = some (s.ran r 0 0 (r.pc + 1)) ∧
      t.lock d n = { s.lock d n with owner := none, prio := 0, abandoned := false } ∧
      (s.rb (.pmSample g.s) 63 = false → t = { s with grooms := t.grooms, regs := t.regs, locks := t.locks }) := by
  have hwait := wait_of_fetches hf
  obtain ⟨t, ht, hA, hoff, hk⟩ := instr_begins (waits := hunlockWaits) hf (majorOk_encI 0 b 0 rfl)
    (by simp [hunlockWaits, stores_latchTimer s hwait, hs])
  have hlocks : t.locks = s.locks := hA.locks
  have hlock := lock_of_locks hlocks d n
  have hrel : t.release d n (.run g) = (0, t.modLock d n fun l => { l with owner := none, prio := 0, abandoned := false }) := by
    rw [State.release, if_pos (hlock ▸ how), passLock_of_no_waiters (hlock ▸ hwt)]
  have he : doHunlock g 0 b 0 s = (t.modLock d n fun l => { l with owner := none, prio := 0, abandoned := false }).modRun g Run.step := by
    refine (hk _).trans ?_
    rw [if_neg (by decide), get_begun s hwait, ← hn, ← hd]
    simp only [hrel]
  have hAt : s.Alters t lockFields (InstrAt g) := hA.mono
  refine ⟨_, act_of_alters (live_of_fetches hf) (calm_of_fetches hf) he ((hAt.trans (.put_locks t _)).trans (.modRun ..)), ?_, ?_,
    fun hs => ?_⟩
  · rw [groom_modRun_same, groom_modLock, ht.run, ran_zero, ← pc_begun s hwait]
    rfl
  · rw [lock_modRun, lock_modLock_same, hlock]
  · rw [(hoff hs).1]
    rfl

end

/-- Settles O35. -/
theorem groomWaitsAndSignals : Obligations.GroomWaitsAndSignals := by
  unfold Obligations.GroomWaitsAndSignals
  refine ⟨fun s g r rd b a h w hf hlen himg ha hal hin hw hfit hev hop hlt hfree hused => ?_,
    fun s g r rd b hf hlen hs => ?_, fun s g r rd b e m hf hm he hem => ?_, fun s g r rd b m hf hm hne he => ?_,
    fun s g r hf => ?_, fun s g r rd b i d n hf hi hd hn how hno => ?_, fun s g r rd b i d n w hf hi hd hn how hne htry => ?_,
    fun s g r rd b i d n w hf hi hd hn how hne hno hle => ?_, fun s g r b d n hf hs hd hn how hwt => ?_⟩
  · obtain ⟨t, he, hrun, ⟨o, ho, hid, hwords⟩, hser, hscr, hoff⟩ := issue_begins hf hlen himg ha hal hin hw hfit hev hop
      (freeHandle_eq hlt hfree hused)
    exact ⟨t, he, hrun, by rw [ho, Option.map_some, hid], by rw [ho, Option.map_some, hwords], hser, hscr, hoff⟩
  · exact issue_waits hf hlen hs
  · have hwait := wait_of_fetches hf
    subst he
    obtain ⟨t, he, ht⟩ := wfe_retires hf hm fun h => hem (by rw [h, Nat.and_zero])
    rw [wakeRun_zero_of_hit rd (wait_begun s hwait) hem, step_put_begun s hwait] at ht
    exact ⟨t, he, ht⟩
  · have hwait := wait_of_fetches hf
    obtain ⟨t, h, ht⟩ := wfe_retires hf hm hne
    rw [wakeRun_zero_of_miss (s.begun r) he] at ht
    rw [ran_zero, ← pc_begun s hwait]
    exact ⟨t, h, ht⟩
  · exact signal_retires hf
  · exact hlock_of_free hf hi hd hn how hno
  · exact hlock_try_of_held hf hi hd hn how hne htry
  · exact hlock_of_held hf hi hd hn how hne hno hle
  · exact hunlock_frees hf hs hd hn how hwt

end Sys2Proof.Machine
end

section
/-! PROOFS. Loads, stores and the atomic of a Groom in local space (R320, R321, R336, R338, R342, R354). -/

namespace Sys2Proof.Machine

-- The proofs are elaborated one after another: in parallel their threads' stacks need more memory than a compile may have.
set_option Elab.async false

/-! ### What the start of an instruction leaves of a run -/

section

variable {s : State} {r : Run} (h : r.wait = .none)
include h

theorem own_begun (phys : Bool) (a n : Nat) : (s.begun r).own phys a n = r.own phys a n := by
  obtain ⟨e, b, hb⟩ := begun_eq s h
  rw [hb]
  rfl

theorem local_begun (a n : Nat) : (s.begun r).local_ a n = r.local_ a n := by
  obtain ⟨e, b, hb⟩ := begun_eq s h
  rw [hb]
  rfl

theorem addr_begun (b : BitVec 5) (off : BitVec 12) : (s.begun r).addr b off = (r.get b + off.signExtend 64).toNat := by
  rw [Run.addr, get_begun s h]

theorem sees_begun (hbm : Bool) (a n : Nat) : (s.begun r).sees hbm a n = r.sees hbm a n := by
  obtain ⟨e, b, hb⟩ := begun_eq s h
  rw [hb]
  rfl

theorem past_begun : (s.begun r).pastHbm = r.pastHbm ∧ (s.begun r).pastBuf = r.pastBuf := by
  obtain ⟨e, b, hb⟩ := begun_eq s h
  rw [hb]
  exact ⟨rfl, rfl⟩

theorem meets_latchTimer (b : BitVec 5) (off : BitVec 12) (phys : Bool) (n : Nat) :
    (s.latchTimer r).meets phys ((s.latchTimer r).addr b off) n = r.meets phys (r.get b + off.signExtend 64).toNat n := by
  obtain ⟨e, x, hl⟩ := latchTimer_eq s h
  rw [hl]
  rfl

end

/-! ### Where local accesses fall (R321) -/

section

variable {r : Run} {a n : Nat}

theorem local_scratch (h : a + n ≤ 0x20000) : r.local_ a n = .scratch a := if_pos h

theorem local_shared (h : 0x100000 ≤ a ∧ a + n ≤ 0x300000)
    (hb : (fld (r.bind.getD 2 0) 39 8).testBit ((a - 0x100000) / 0x10000) = true) : r.local_ a n = .shared (a - 0x100000) := by
  rw [Run.local_, if_neg (by omega), if_pos h, if_pos hb]

theorem local_window (h : 0x400000 ≤ a ∧ a + n ≤ 0x401040) : r.local_ a n = .window (a - 0x400000) := by
  rw [Run.local_, if_neg (by omega), if_neg (by omega), if_pos h]

end

/-! ### Loads -/

/-- From `s` a load has reached `t`, in which the run's last loads and ordering point may have moved. -/
structure State.Reads (s t : State) (g : GroomId) (r : Run) : Prop where
  run : (t.groom g).run.map Run.bare = some r.bare
  scratch : (t.groom g).scratch = (s.groom g).scratch
  others : ∀ h : GroomId, h ≠ g → t.groom h = s.groom h
  alters : s.Alters t (.frees :: instrFields) (InstrAt g)
  counts : s.rb (.pmSample g.s) 63 = false → t = { s with grooms := t.grooms, regs := t.regs, frees := t.frees } ∧
    ∀ q : Reg, (∀ i : Fin 8, q.addr ≠ (Reg.pmGcnt g i).addr) → t.reg q = s.reg q

namespace State.Reads

variable {s t : State} {g : GroomId} {r : Run}

theorem of_executes (h : s.Executes t g r) (ha : s.Alters t instrFields (InstrAt g))
    (hc : s.rb (.pmSample g.s) 63 = false → s.CountsOnly t g) : s.Reads t g r :=
  ⟨by rw [h.run]; rfl, h.scratch, h.others, ha.mono, fun hs => ⟨by rw [(hc hs).1], (hc hs).2⟩⟩

/-- A run changed in a way that does not depend on what it keeps of earlier loads. -/
theorem modRun (h : s.Reads t g r) {f : Run → Run} {r' : Run} (hf : ∀ x : Run, x.bare = r.bare → (f x).bare = r'.bare) :
    s.Reads (t.modRun g f) g r' := by
  obtain ⟨x, hx, hb⟩ := Option.map_eq_some_iff.1 h.run
  refine ⟨?_, ?_, fun y hy => ?_, h.alters.trans (.modRun ..), fun hs => ⟨?_, (h.counts hs).2⟩⟩
  · rw [groom_modRun_same, hx]
    exact congrArg some (hf x hb)
  · rw [groom_modRun_same, h.scratch]
  · rw [groom_modRun_other _ _ hy, h.others y hy]
  · rw [(h.counts hs).1]
    rfl

theorem put_frees (h : s.Reads t g r) (n : Nat) : s.Reads { t with frees := n } g r :=
  ⟨h.run, h.scratch, h.others, h.alters.trans (.put_frees ..), fun hs => ⟨by rw [(h.counts hs).1], (h.counts hs).2⟩⟩

theorem catchUp (h : s.Reads t g r) : s.Reads (t.catchUp g) g r := h.modRun fun _ hx => hx

theorem seeAt (h : s.Reads t g r) (hbm : Bool) (a n : Nat) : s.Reads (t.seeAt g hbm a n) g r := h.modRun fun _ hx => hx

theorem writeReg (h : s.Reads t g r) (rd : BitVec 5) (v : Word) : s.Reads (t.writeReg g rd v) g (r.put rd v).step :=
  h.modRun fun x hx => by
    have hp : ∀ y : Run, ((y.put rd v).step).bare = (y.bare.put rd v).step := fun y => by
      unfold Run.put
      split <;> rfl
    rw [hp, hx, ← hp]

theorem loads (h : s.Reads t g r) : s.Loads t g r := ⟨h.run, h.scratch, h.others, h.counts⟩

end State.Reads

/-- A plain load gives what stands there, or what stood there at the ordering point where the run has not seen the place since (R354). -/
theorem plainLoad_cases {s t : State} {g : GroomId} {r r' : Run} (h : s.Reads t g r) (hbm : Bool) (a n : Nat) (now : List Byte) :
    s.Reads (t.plainLoad g r' hbm a n now).2 g r ∧
      ((t.plainLoad g r' hbm a n now).1 = now ∨ (r'.sees hbm a n = false ∧
        (t.plainLoad g r' hbm a n now).1 = if hbm then memRead r'.pastHbm (a - hbmBase) n else memRead r'.pastBuf a n)) := by
  unfold State.plainLoad
  extract_lets past
  split
  · exact ⟨h.seeAt .., .inl rfl⟩
  case isFalse hn =>
    have hsees : r'.sees hbm a n = false := by
      rw [Bool.or_eq_true, not_or] at hn
      exact Bool.not_eq_true _ ▸ hn.1
    refine ⟨(h.put_frees _).seeAt .., ?_⟩
    by_cases hf : (t.free 1).1 = 0
    · exact .inl (if_pos hf)
    · exact .inr ⟨hsees, if_neg hf⟩

section

variable {s : State} {g : GroomId} {r : Run}

theorem majorOk_encM {op : Nat} (x b : BitVec 5) (z m : BitVec 2) (off : BitVec 12) (h : majorOk op = true) (hlt : op < 64 := by decide) :
    majorOk (fld (encM op x b z m off) 31 26) = true := by
  rw [Laws.GroomMajor.major_encM _ _ _ _ _ _ hlt, h]

/-- A load from local space that takes the value `v` retires with it. -/
theorem ld_loads {rd b : BitVec 5} {z m : BitVec 2} {off : BitVec 12} {a n : Nat} {l : Local} (hf : s.Fetches g r (encM 0x10 rd b z m off))
    (hm : m.toNat < 2) (hn : n = 2 ^ z.toNat) (ha : a = (r.get b + off.signExtend 64).toNat) (hal : a % n = 0)
    (hmeet : r.meets false a n = false) (hl : r.local_ a n = l) (hr : l ≠ .range) (hp : l ≠ .perm) :
    ∃ t u, s.Reads t g (s.begun r) ∧ t.buf = s.buf ∧ t.loadLocal g (s.begun r) l a n (decide (m.toNat = 1)) = u ∧
      (s.Reads u.2 g (s.begun r) → ∃ t', exec (.ld g rd b z m off) s = .next t' ∧
        s.Loads t' g (s.ran r rd (BitVec.ofNat 64 u.1) (r.pc + 1))) := by
  have hwait := wait_of_fetches hf
  obtain ⟨t, ht, hA, hoff, hk⟩ := instr_begins
    (waits := fun r _ => decide (m.toNat < 2) && r.meets false (r.addr b off) (accSize z)) hf (majorOk_encM rd b z m off rfl)
    (by rw [meets_latchTimer hwait, ← ha, accSize, ← hn, hmeet, Bool.and_false])
  refine ⟨t, _, .of_executes ht hA hoff, ht.buf, rfl, fun hu => ?_⟩
  generalize hx : t.loadLocal g (s.begun r) l a n (decide (m.toNat = 1)) = u at hu ⊢
  have he : doLd g rd b z m off s = (if decide (m.toNat = 1) then u.2.catchUp g else u.2).writeReg g rd (BitVec.ofNat 64 u.1) := by
    rw [doLd, hk, if_neg (by omega)]
    simp only [addr_begun hwait, ← ha, accSize, ← hn, hal, ne_eq, not_true_eq_false, if_false, local_begun hwait, hl]
    cases l with
    | range => exact absurd rfl hr
    | perm => exact absurd rfl hp
    | scratch o => rw [hx]
    | shared o => rw [hx]
    | window o => rw [hx]
  have hc : s.Reads (if decide (m.toNat = 1) then u.2.catchUp g else u.2) g (s.begun r) := by
    split
    · exact hu.catchUp
    · exact hu
  have hw := hc.writeReg rd (BitVec.ofNat 64 u.1)
  rw [step_put_begun s hwait] at hw
  exact ⟨_, act_of_alters (live_of_fetches hf) (calm_of_fetches hf) he hw.alters, hw.loads⟩

theorem ld_scratch {rd b : BitVec 5} {z m : BitVec 2} {off : BitVec 12} {a n : Nat} (hf : s.Fetches g r (encM 0x10 rd b z m off))
    (hm : m.toNat < 2) (hn : n = 2 ^ z.toNat) (ha : a = (r.get b + off.signExtend 64).toNat) (hal : a % n = 0)
    (hin : a + n ≤ 0x20000) (hmeet : r.meets false a n = false) :
    ∃ t, exec (.ld g rd b z m off) s = .next t ∧
      s.Loads t g (s.ran r rd (BitVec.ofNat 64 ((r.own false a n).getD (ofLe (memRead (s.groom g).scratch a n)))) (r.pc + 1)) := by
  obtain ⟨t, u, ht, -, hu, h⟩ := ld_loads hf hm hn ha hal hmeet (local_scratch hin) nofun nofun
  have he : t.loadLocal g (s.begun r) (.scratch a) a n (decide (m.toNat = 1)) =
      ((r.own false a n).getD (ofLe (memRead (s.groom g).scratch a n)), t) := by
    unfold State.loadLocal
    rw [own_begun (wait_of_fetches hf), ← ht.scratch]
    cases r.own false a n <;> rfl
  rw [he] at hu
  subst hu
  exact h ht

theorem ld_window {rd b : BitVec 5} {z m : BitVec 2} {off : BitVec 12} {a n : Nat} (hf : s.Fetches g r (encM 0x10 rd b z m off))
    (hm : m.toNat < 2) (hn : n = 2 ^ z.toNat) (ha : a = (r.get b + off.signExtend 64).toNat) (hal : a % n = 0)
    (hin : 0x400000 ≤ a ∧ a + n ≤ 0x401040) (hmeet : r.meets false a n = false) :
    ∃ t, exec (.ld g rd b z m off) s = .next t ∧ s.Loads t g (s.ran r rd (BitVec.ofNat 64 ((r.own false a n).getD
      (ofLe ((List.range n).map fun i => r.ref.window.getD (a - 0x400000 + i) 0)))) (r.pc + 1)) := by
  have hwait := wait_of_fetches hf
  obtain ⟨t, u, ht, -, hu, h⟩ := ld_loads hf hm hn ha hal hmeet (local_window hin) nofun nofun
  have hwin : (s.begun r).ref.window = r.ref.window := by
    obtain ⟨e, b, hb⟩ := begun_eq s hwait
    rw [hb]
  have he : t.loadLocal g (s.begun r) (.window (a - 0x400000)) a n (decide (m.toNat = 1)) =
      ((r.own false a n).getD (ofLe ((List.range n).map fun i => r.ref.window.getD (a - 0x400000 + i) 0)), t) := by
    unfold State.loadLocal
    rw [own_begun hwait, ← hwin]
    cases r.own false a n <;> rfl
  rw [he] at hu
  subst hu
  exact h ht

/-- Device address of a byte of local space that lies in shared scratch (R321, R323). -/
def sharedOf (g : GroomId) (a : Nat) : Nat := blockBase (.stall g.s) + 0x800000 + (a - 0x100000)

theorem ld_shared {rd b : BitVec 5} {z m : BitVec 2} {off : BitVec 12} {a n : Nat} (hf : s.Fetches g r (encM 0x10 rd b z m off))
    (hm : m.toNat < 2) (hn : n = 2 ^ z.toNat) (ha : a = (r.get b + off.signExtend 64).toNat) (hal : a % n = 0)
    (hin : 0x100000 ≤ a ∧ a + n ≤ 0x300000) (hb : (fld (r.bind.getD 2 0) 39 8).testBit ((a - 0x100000) / 0x10000) = true)
    (hmeet : r.meets false a n = false) :
    ∃ t, exec (.ld g rd b z m off) s = .next t ∧
      (s.Loads t g (s.ran r rd (BitVec.ofNat 64 ((r.own false a n).getD (ofLe (memRead s.buf (sharedOf g a) n)))) (r.pc + 1)) ∨
      (m = 0 ∧ r.own false a n = none ∧ r.sees false (sharedOf g a) n = false ∧
        s.Loads t g (s.ran r rd (BitVec.ofNat 64 (ofLe (memRead r.pastBuf (sharedOf g a) n))) (r.pc + 1)))) := by
  have hwait := wait_of_fetches hf
  obtain ⟨t, u, ht, hbuf, hu, h⟩ := ld_loads hf hm hn ha hal hmeet (local_shared hin hb) nofun nofun
  unfold State.loadLocal at hu
  rw [own_begun hwait] at hu
  cases hown : r.own false a n with
  | some v =>
    rw [hown] at hu
    subst hu
    obtain ⟨t', he, hl⟩ := h ht
    exact ⟨t', he, .inl hl⟩
  | none =>
    rw [hown] at hu
    have hnow : t.localRead g (s.begun r) (.shared (a - 0x100000)) n = memRead s.buf (sharedOf g a) n := by
      rw [← hbuf]
      rfl
    simp only [hnow] at hu
    by_cases hacq : m.toNat = 1
    · simp only [decide_eq_true hacq, if_true] at hu
      subst hu
      obtain ⟨t', he, hl⟩ := h ht
      exact ⟨t', he, .inl hl⟩
    · simp only [decide_eq_false hacq, Bool.false_eq_true, if_false] at hu
      obtain ⟨hreads, hval⟩ := plainLoad_cases (r' := s.begun r) ht false (sharedAddr g.s (a - 0x100000)) n (memRead s.buf (sharedOf g a) n)
      rw [sees_begun hwait, (past_begun hwait).2] at hval
      subst hu
      obtain ⟨t', he, hl⟩ := h hreads
      refine ⟨t', he, hval.imp (fun hv => ?_) fun ⟨hs, hv⟩ => ⟨BitVec.eq_of_toNat_eq (show m.toNat = 0 by omega), rfl, hs, ?_⟩⟩
      · rw [hv] at hl
        exact hl
      · rw [hv] at hl
        exact hl

/-! ### Stores (R342) -/

theorem driftStores_of_empty {u : State} {r : Run} (hrun : (u.groom g).run = some r) (hs : r.stores = []) (n : Nat) :
    u.driftStores n g = u := by
  cases n with
  | zero => rfl
  | succ n =>
    unfold State.driftStores
    rw [hrun]
    simp only [hs, nextStore]

/-- A store alone in the buffer stays, or is performed (R354). -/
theorem driftStores_single {u : State} {r : Run} {x : GStore} (hrun : (u.groom g).run = some r) (hs : r.stores = [x])
    (hready : storeReady [] x = true) (n : Nat) :
    u.driftStores (n + 1) g = { u with frees := u.frees + 1 } ∨
      u.driftStores (n + 1) g = State.driftStores n (({ u with frees := u.frees + 1 } : State).performStore g r.ctx x) g := by
  conv in (occs := *) u.driftStores (n + 1) g => all_goals unfold State.driftStores
  rw [hrun]
  simp only [hs, nextStore, hready, if_true, State.free]
  exact (ite_eq_or_eq ..)

theorem storeReady_alone {x : GStore} (h : x.busy = false) : storeReady [] x = true := by
  simp [storeReady, h]

/-- What an instruction that buffers a store has reached: the run `x` with nothing in its buffer, one store put into it. -/
theorem pushStore_cases {t : State} {x : Run} (ht : s.Executes t g x) (hs : x.stores = []) (phys : Option Phys) (a n data : Nat)
    (release : Bool) (use : Option Nat) {y : GStore} (hy : y = ⟨x.nextStore, phys, a, n, data, release, false, use⟩) :
    ∃ u, s.Executes u g { x with stores := [y], nextStore := x.nextStore + 1 } ∧ (∃ gs k, u = { t with grooms := gs, frees := k }) ∧
      (t.pushStore g phys a n data release use = u ∨
        t.pushStore g phys a n data release use = State.driftStores 16 (u.performStore g x.ctx y) g) := by
  have hrun := ht.modRun fun r => { r with
    stores := r.stores ++ [⟨r.nextStore, phys, a, n, data, release, false, use⟩], nextStore := r.nextStore + 1 }
  rw [hs, List.nil_append, ← hy] at hrun
  refine ⟨{ (t.modRun g fun r => { r with stores := r.stores ++ [⟨r.nextStore, phys, a, n, data, release, false, use⟩],
                                          nextStore := r.nextStore + 1 }) with frees := t.frees + 1 }, ?_, ?_, ?_⟩
  · exact hrun.spares (.of_regs_eq rfl rfl rfl)
  · exact ⟨_, _, rfl⟩
  · exact driftStores_single hrun.run rfl (storeReady_alone (hy ▸ rfl)) 16

/-- A local store that retires puts its data into the buffer (R342). -/
theorem st_pushes {x b : BitVec 5} {z m : BitVec 2} {off : BitVec 12} {a n : Nat} {l : Local} (hf : s.Fetches g r (encM 0x11 x b z m off))
    (hm : m = 0 ∨ m = 2) (hn : n = 2 ^ z.toNat) (ha : a = (r.get b + off.signExtend 64).toNat) (hal : a % n = 0)
    (hl : r.local_ a n = l) (hr : l ≠ .range) (hp : l ≠ .perm) (hw : ∀ o, l ≠ .window o) (hs : r.stores = []) :
    ∃ t, s.Executes t g (s.ran r 0 0 (r.pc + 1)) ∧ s.Alters t instrFields (InstrAt g) ∧
      (s.rb (.pmSample g.s) 63 = false → s.CountsOnly t g) ∧
      doSt g x b z m off s = t.pushStore g none a n ((r.get x).toNat % 2 ^ (8 * n)) (decide (m = 2)) none := by
  have hwait := wait_of_fetches hf
  obtain ⟨t, ht, hA, hoff, hk⟩ := instr_begins (waits := fun r _ => decide (16 ≤ r.stores.length)) hf (majorOk_encM x b z m off rfl)
    (by rw [stores_latchTimer s hwait, hs]; rfl)
  refine ⟨t.modRun g Run.step, ?_, hA.trans (.modRun ..), fun h => (hoff h).modRun _, ?_⟩
  · have hx := ht.modRun Run.step
    rw [ran_zero, ← pc_begun s hwait]
    exact hx
  · have hm2 : decide (m.toNat = 2) = decide (m = 2) := decide_eq_decide.2 ⟨fun h => BitVec.eq_of_toNat_eq h, fun h => by rw [h]; rfl⟩
    have hmark : ¬ (m.toNat = 1 ∨ m.toNat = 3) := by
      rcases hm with rfl | rfl <;> decide
    rw [doSt, hk, if_neg hmark]
    simp only [addr_begun hwait, ← ha, accSize, ← hn, hal, ne_eq, not_true_eq_false, if_false, local_begun hwait, hl, get_begun s hwait, hm2]

theorem stores_ran (s : State) {r : Run} (h : r.wait = .none) (p : Nat) :
    (s.ran r 0 0 p).stores = r.stores ∧ (s.ran r 0 0 p).nextStore = r.nextStore := by
  obtain ⟨e, b, hb⟩ := begun_eq s h
  rw [ran_zero, hb]
  exact ⟨rfl, rfl⟩

/-- The Grooms' runs changed, and what the counters of one start count. -/
theorem put_grooms_frees {t : State} (hA : s.Alters t instrFields (InstrAt g)) (gs : Tab Groom) (k : Nat) :
    s.Alters { t with grooms := gs, frees := k } (.buf :: .frees :: instrFields) (InstrAt g) := by
  have h : s.Alters t (.buf :: .frees :: instrFields) (InstrAt g) := hA.mono
  exact (h.trans (.put_grooms t gs)).trans (.put_frees _ k)

/-- A store of local space below shared scratch is performed (R342): its bytes are written and it leaves the buffer. -/
theorem performStore_scratch (u : State) (c : Nat) {y : GStore} (hp : y.phys = none) (hu : y.use = none) (ha : y.addr < 0x20000) :
    u.performStore g c y = (u.modGroom g fun x => { x with scratch := memWrite x.scratch y.addr (leBytes y.size y.data) }).modRun g fun r =>
      { r with stores := r.stores.filter fun z => z.id ≠ y.id } := by
  unfold State.performStore
  simp only [hp, hu, State.localWrite, if_pos ha, if_pos (show y.addr < 0x100000 by omega), State.endHeld]

/-- The same of shared scratch. -/
theorem performStore_shared (u : State) (c : Nat) {y : GStore} (hp : y.phys = none) (hu : y.use = none) (ha : 0x100000 ≤ y.addr) :
    u.performStore g c y = (({ u with buf := memWrite u.buf (sharedOf g y.addr) (leBytes y.size y.data) } : State).seeAt g false
      (sharedOf g y.addr) (leBytes y.size y.data).length).modRun g fun r => { r with stores := r.stores.filter fun z => z.id ≠ y.id } := by
  unfold State.performStore
  simp only [hp, hu, State.localWrite, if_neg (show ¬ y.addr < 0x20000 by omega), if_neg (show ¬ y.addr < 0x100000 by omega), State.endHeld]
  rfl

theorem st_scratch {x b : BitVec 5} {z m : BitVec 2} {off : BitVec 12} {a n : Nat} (hf : s.Fetches g r (encM 0x11 x b z m off))
    (hm : m = 0 ∨ m = 2) (hn : n = 2 ^ z.toNat) (ha : a = (r.get b + off.signExtend 64).toNat) (hal : a % n = 0)
    (hin : a + n ≤ 0x20000) (hs : r.stores = []) :
    ∃ t, exec (.st g x b z m off) s = .next t ∧ (((t.groom g).run = some { s.ran r 0 0 (r.pc + 1) with nextStore := r.nextStore + 1 } ∧
        (t.groom g).scratch = memWrite (s.groom g).scratch a (leBytes n ((r.get x).toNat % 2 ^ (8 * n)))) ∨
      ((t.groom g).run = some { s.ran r 0 0 (r.pc + 1) with nextStore := r.nextStore + 1, stores := [⟨r.nextStore, none, a, n, (r.get x).toNat % 2 ^ (8 * n), decide (m = 2), false, none⟩] } ∧
        (t.groom g).scratch = (s.groom g).scratch)) ∧ t.buf = s.buf ∧ (∀ h : GroomId, h ≠ g → t.groom h = s.groom h) ∧
      (s.rb (.pmSample g.s) 63 = false → t = { s with grooms := t.grooms, regs := t.regs, frees := t.frees }) := by
  have hwait := wait_of_fetches hf
  have hpos : 0 < n := hn ▸ Nat.two_pow_pos _
  obtain ⟨t, ht, hA, hoff, he⟩ := st_pushes hf hm hn ha hal (local_scratch hin) nofun nofun nofun hs
  obtain ⟨hstores, hnext⟩ := stores_ran s hwait (r.pc + 1)
  rw [hs] at hstores
  generalize s.ran r 0 0 (r.pc + 1) = x0 at ht hstores hnext ⊢
  obtain ⟨y, hy⟩ : ∃ y : GStore, y = ⟨r.nextStore, none, a, n, (r.get x).toNat % 2 ^ (8 * n), decide (m = 2), false, none⟩ := ⟨_, rfl⟩
  obtain ⟨u, hu, ⟨gs, k, hgs⟩, hcase⟩ :=
    pushStore_cases ht hstores none a n ((r.get x).toNat % 2 ^ (8 * n)) (decide (m = 2)) none (hnext ▸ hy)
  rw [hnext] at hu
  have hcounts : s.rb (.pmSample g.s) 63 = false → u = { s with grooms := u.grooms, regs := u.regs, frees := u.frees } := fun h => by
    rw [hgs, (hoff h).1]
  have hAu := hgs ▸ put_grooms_frees hA gs k
  rcases hcase with hc | hc
  · refine ⟨_, act_of_alters (live_of_fetches hf) (calm_of_fetches hf) (he.trans hc) hAu,
      .inr ⟨?_, hu.scratch⟩, hu.buf, hu.others, hcounts⟩
    rw [hu.run, hy]
  · rw [performStore_scratch u x0.ctx (by rw [hy]) (by rw [hy]) (by rw [hy]; simp only; omega)] at hc
    have hrun : (((u.modGroom g fun x => { x with scratch := memWrite x.scratch y.addr (leBytes y.size y.data) }).modRun g fun r =>
        { r with stores := r.stores.filter fun z => z.id ≠ y.id }).groom g).run = some { x0 with nextStore := r.nextStore + 1 } := by
      rw [groom_modRun_same, groom_modGroom_same, hu.run]
      have hfil : [y].filter (fun z => z.id ≠ y.id) = x0.stores := by simp [hstores]
      simp only [Option.map_some, hfil]
    rw [driftStores_of_empty hrun hstores] at hc
    refine ⟨_, act_of_alters (live_of_fetches hf) (calm_of_fetches hf) (he.trans hc) ((hAu.trans (.modGroom ..)).trans (.modRun ..)),
      .inl ⟨hrun, ?_⟩, hu.buf, fun h hne => ?_, fun h => ?_⟩
    · rw [groom_modRun_same, groom_modGroom_same, hu.scratch, hy]
    · rw [groom_modRun_other _ _ hne, groom_modGroom_other _ _ hne, hu.others h hne]
    · rw [hcounts h]
      rfl

theorem st_shared {x b : BitVec 5} {z m : BitVec 2} {off : BitVec 12} {a n : Nat} (hf : s.Fetches g r (encM 0x11 x b z m off))
    (hm : m = 0 ∨ m = 2) (hn : n = 2 ^ z.toNat) (ha : a = (r.get b + off.signExtend 64).toNat) (hal : a % n = 0)
    (hin : 0x100000 ≤ a ∧ a + n ≤ 0x300000) (hb : (fld (r.bind.getD 2 0) 39 8).testBit ((a - 0x100000) / 0x10000) = true)
    (hs : r.stores = []) :
    ∃ t, exec (.st g x b z m off) s = .next t ∧ (((t.groom g).run.map Run.bare =
          some { s.ran r 0 0 (r.pc + 1) with nextStore := r.nextStore + 1 }.bare ∧
        t.buf = memWrite s.buf (sharedOf g a) (leBytes n ((r.get x).toNat % 2 ^ (8 * n)))) ∨
      ((t.groom g).run = some { s.ran r 0 0 (r.pc + 1) with nextStore := r.nextStore + 1, stores := [⟨r.nextStore, none, a, n, (r.get x).toNat % 2 ^ (8 * n), decide (m = 2), false, none⟩] } ∧
        t.buf = s.buf)) ∧ (t.groom g).scratch = (s.groom g).scratch ∧ (∀ h : GroomId, h ≠ g → t.groom h = s.groom h) ∧
      (s.rb (.pmSample g.s) 63 = false → t = { s with grooms := t.grooms, regs := t.regs, buf := t.buf, frees := t.frees }) := by
  have hwait := wait_of_fetches hf
  obtain ⟨t, ht, hA, hoff, he⟩ := st_pushes hf hm hn ha hal (local_shared hin hb) nofun nofun nofun hs
  obtain ⟨hstores, hnext⟩ := stores_ran s hwait (r.pc + 1)
  rw [hs] at hstores
  generalize s.ran r 0 0 (r.pc + 1) = x0 at ht hstores hnext ⊢
  obtain ⟨y, hy⟩ : ∃ y : GStore, y = ⟨r.nextStore, none, a, n, (r.get x).toNat % 2 ^ (8 * n), decide (m = 2), false, none⟩ := ⟨_, rfl⟩
  obtain ⟨u, hu, ⟨gs, k, hgs⟩, hcase⟩ :=
    pushStore_cases ht hstores none a n ((r.get x).toNat % 2 ^ (8 * n)) (decide (m = 2)) none (hnext ▸ hy)
  rw [hnext] at hu
  have hcounts : s.rb (.pmSample g.s) 63 = false → u = { s with grooms := u.grooms, regs := u.regs, frees := u.frees } := fun h => by
    rw [hgs, (hoff h).1]
  have hAu := hgs ▸ put_grooms_frees hA gs k
  rcases hcase with hc | hc
  · refine ⟨_, act_of_alters (live_of_fetches hf) (calm_of_fetches hf) (he.trans hc) hAu, .inr ⟨?_, hu.buf⟩, hu.scratch, hu.others,
      fun h => ?_⟩
    · rw [hu.run, hy]
    · rw [hcounts h]
  · rw [performStore_shared u x0.ctx (by rw [hy]) (by rw [hy]) (by rw [hy]; exact hin.1)] at hc
    obtain ⟨v, hv⟩ : ∃ v, v = ({ u with buf := memWrite u.buf (sharedOf g y.addr) (leBytes y.size y.data) } : State) := ⟨_, rfl⟩
    have hgroom : ∀ h, v.groom h = u.groom h := groom_of_grooms (by rw [hv])
    rw [← hv] at hc
    have hfil : [y].filter (fun z => z.id ≠ y.id) = x0.stores := by simp [hstores]
    have hrun : (((v.seeAt g false (sharedOf g y.addr) (leBytes y.size y.data).length).modRun g fun r =>
        { r with stores := r.stores.filter fun z => z.id ≠ y.id }).groom g).run =
          some { x0 with nextStore := r.nextStore + 1, seen := (false, sharedOf g y.addr, (leBytes y.size y.data).length) :: x0.seen } := by
      rw [groom_modRun_same, State.seeAt, groom_modRun_same, hgroom, hu.run]
      simp only [Option.map_some, hfil]
    rw [driftStores_of_empty hrun hstores] at hc
    have hAv := hv ▸ hAu.trans (.put_buf u (memWrite u.buf (sharedOf g y.addr) (leBytes y.size y.data)))
    refine ⟨_, act_of_alters (live_of_fetches hf) (calm_of_fetches hf) (he.trans hc) ((hAv.trans (.modRun ..)).trans (.modRun ..)),
      .inl ⟨?_, ?_⟩, ?_, fun h hne => ?_, fun h => ?_⟩
    · rw [hrun]
      rfl
    · rw [hv, ← hu.buf, hy]
      rfl
    · rw [groom_modRun_same, State.seeAt, groom_modRun_same, hgroom, hu.scratch]
    · rw [groom_modRun_other _ _ hne, State.seeAt, groom_modRun_other _ _ hne, hgroom, hu.others h hne]
    · rw [hv, hcounts h]
      rfl

/-! ### AMOL (R336, R356) -/

theorem amolFn_eq {fn : Nat} (h : fn ≤ 4) (old b c : Word) :
    amolFn fn old b c = some (([b, old + b, old &&& b, old ||| b, if old = c then b else old] : List Word).getD fn 0) := by
  match fn, h with
  | 0, _ => rfl
  | 1, _ => rfl
  | 2, _ => rfl
  | 3, _ => rfl
  | 4, _ => rfl

theorem amol_shared {rd a b : BitVec 5} {fn : BitVec 11} {o old : Word} (hf : s.Fetches g r (encR 0x14 rd a b fn)) (hfn : fn.toNat ≤ 4)
    (ha : (r.get a).toNat = 0x100000 + o.toNat) (hal : o.toNat % 8 = 0) (hin : o.toNat < 0x200000)
    (hb : (fld (r.bind.getD 2 0) 39 8).testBit (o.toNat / 0x10000) = true) (hs : r.stores = [])
    (hold : old = BitVec.ofNat 64 (ofLe (memRead s.buf (blockBase (.stall g.s) + 0x800000 + o.toNat) 8))) :
    ∃ t, exec (.amol g rd a b fn) s = .next t ∧ (t.groom g).run.map Run.bare = some (s.ran r rd old (r.pc + 1)).bare ∧
      (t.groom g).scratch = (s.groom g).scratch ∧ t.buf = memWrite s.buf (blockBase (.stall g.s) + 0x800000 + o.toNat)
        (leBytes 8 (([r.get b, old + r.get b, old &&& r.get b, old ||| r.get b, if old = r.get rd then r.get b else old] :
          List Word).getD fn.toNat 0).toNat) ∧ (∀ h : GroomId, h ≠ g → t.groom h = s.groom h) ∧
      (s.rb (.pmSample g.s) 63 = false → t = { s with grooms := t.grooms, regs := t.regs, buf := t.buf }) := by
  have hwait := wait_of_fetches hf
  obtain ⟨t, ht, hA, hoff, hk⟩ := instr_begins (waits := fun r _ => decide (fn.toNat ≤ 4 ∧ r.stores ≠ [])) hf
    (by rw [Laws.GroomMajor.major_encR _ _ _ _ _ (by decide)]; rfl) (by simp [stores_latchTimer s hwait, hs])
  generalize hv : (([r.get b, old + r.get b, old &&& r.get b, old ||| r.get b, if old = r.get rd then r.get b else old] :
    List Word).getD fn.toNat 0) = v
  have hfin : amolFn fn.toNat old (r.get b) (r.get rd) = some v := hv ▸ amolFn_eq hfn ..
  obtain ⟨u, hu⟩ : ∃ u, u = ({ t with buf := memWrite t.buf (blockBase (.stall g.s) + 0x800000 + o.toNat) (leBytes 8 v.toNat) } : State) :=
    ⟨_, rfl⟩
  have hplace : (s.begun r).local_ (0x100000 + o.toNat) 8 = .shared o.toNat := by
    rw [local_begun hwait, local_shared (by omega) (by rwa [Nat.add_sub_cancel_left]), Nat.add_sub_cancel_left]
  have hread : BitVec.ofNat 64 (ofLe (t.localRead g (s.begun r) (.shared o.toNat) 8)) = old := by
    rw [hold, ← ht.buf]
    rfl
  have hwrite : t.localWrite g (0x100000 + o.toNat) (leBytes 8 v.toNat) = u := by
    rw [State.localWrite, if_neg (by omega), Nat.add_sub_cancel_left, hu]
    rfl
  have he : doAmol g rd a b fn s = (u.catchUp g).writeReg g rd old := by
    rw [doAmol, hk, if_neg (by omega)]
    simp only [get_begun s hwait, ha, hplace, hread, hfin, hwrite]
    exact if_neg (by omega)
  have hgroom : ∀ h, u.groom h = t.groom h := groom_of_grooms (by rw [hu])
  have hAt : s.Alters t (.buf :: instrFields) (InstrAt g) := hA.mono
  have hAu := hu ▸ hAt.trans (.put_buf t (memWrite t.buf (blockBase (.stall g.s) + 0x800000 + o.toNat) (leBytes 8 v.toNat)))
  refine ⟨_, act_of_alters (live_of_fetches hf) (calm_of_fetches hf) he ((hAu.trans (.modRun ..)).trans (.modRun ..)),
    ?_, ?_, ?_, fun h hne => ?_, fun h => ?_⟩
  · rw [State.writeReg, State.catchUp, groom_modRun_same, groom_modRun_same, hgroom, ht.run]
    simp only [Option.map_some, bare_step_put hwait]
  · rw [State.writeReg, State.catchUp, groom_modRun_same, groom_modRun_same, hgroom, ht.scratch]
  · rw [hu, ← ht.buf]
    rfl
  · rw [State.writeReg, State.catchUp, groom_modRun_other _ _ hne, groom_modRun_other _ _ hne, hgroom, ht.others h hne]
  · rw [hu, (hoff h).1]
    rfl

end

end Sys2Proof.Machine
end

section
/-! PROOFS. Work that an effect leaves, done piece by piece (log entry 20), and the transfer of one page whose translation is
cached (R214, R223, R224). -/

namespace Sys2Proof.Machine

-- The proofs are elaborated one after another: in parallel their threads' stacks need more memory than a compile may have.
set_option Elab.async false

/-! ### The work left -/

/-- From `s` at most `k` pieces of work lead to `t`, which leaves none. -/
def State.Leads (s t : State) (k : Nat) : Prop := t.todo = [] ∧ ∀ n, State.settleN (k + n) s = State.settleN n t

namespace State.Leads

variable {s t : State} {k : Nat}

theorem done (h : s.todo = []) : s.Leads s 0 := ⟨h, fun n => by rw [Nat.zero_add]⟩

theorem step {x : Task} {ts : List Task} (h : s.todo = x :: ts) (hk : (({ s with todo := ts } : State).doTask x).Leads t k) :
    s.Leads t (k + 1) := by
  refine ⟨hk.1, fun n => ?_⟩
  rw [← hk.2 n, Nat.add_right_comm, State.settleN]
  simp only [h]

/-- The same where a single piece of work has been left to a state that had none. -/
theorem single {u : State} (x : Task) (hu : u.todo = []) (hk : (u.doTask x).Leads t k) :
    State.Leads { u with todo := [x] } t (k + 1) := by
  refine step (ts := []) rfl ?_
  have e : ({ ({ u with todo := [x] } : State) with todo := [] } : State) = u := by
    rw [← hu]
  rwa [e]

theorem settleN_eq (h : s.Leads t k) (n : Nat) : State.settleN (k + n) s = t := by
  rw [h.2]
  cases n with
  | zero => rfl
  | succ n =>
    rw [State.settleN]
    simp only [h.1]

theorem settle_eq (h : s.Leads t k) (hk : k ≤ 1000000) : s.settle = t := by
  rw [State.settle, ← h.settleN_eq (1000000 - k), Nat.add_sub_cancel' hk]

end State.Leads

/-- An effect on a powered block whose work leads to `t`, with no topcoat on its way. -/
theorem act_of_leads {s t : State} {b : Block} {f : State → State} {k : Nat} (hlive : s.live b = true) (h : (f s).Leads t k)
    (hk : k ≤ 1000000) (hc : t.tack.coat = none) : s.act b f = .next t := by
  rw [State.act, if_pos hlive, State.fin, h.settle_eq hk, coatWatch_of_none t hc, settle_of_todo t h.1]

/-! ### The lines of the context stores (R351, R365) -/

/-- The addresses of what counts requests for lines. -/
def LineAt (a : Nat) : Prop := (∃ b i, a = (Reg.pmCnt b i).addr) ∨ ∃ d, a = (Reg.csCount d).addr

/-- The fields that an access through the context stores changes. -/
def lineFields : List Field := [.dir, .hints, .frees, .regs]

namespace State.Alters

theorem pm {F : List Field} {P : Nat → Prop} (s : State) (b : Block) (code filt n : Nat) (hP : ∀ i, P (Reg.pmCnt b i).addr)
    (hF : .regs ∈ F := by decide) : s.Alters (s.pm b code filt n) F P := by
  unfold State.pm
  refine ite (refl s) (foldl (fun t i => ?_) _ _)
  rcases pmOne_eq_or_eq (.pmSel b i) (.pmCnt b i) code filt n t with h | h <;> rw [h]
  · exact setReg t _ (hP i) hF
  · exact refl t

theorem setHolders (s : State) (k : Nat) (hs : List (Nat × LineState)) : s.Alters (s.setHolders k hs) lineFields LineAt :=
  (put_dir s (tSet [] k hs s.dir)).trans (put_hints _ _)

theorem makeRoom (s : State) (d k : Nat) : s.Alters (s.makeRoom d k) lineFields LineAt := by
  unfold State.makeRoom
  have hf : s.Alters (s.free 32).2 lineFields LineAt := put_frees s _
  generalize s.free 32 = x at hf ⊢
  obtain ⟨f, u⟩ := x
  refine ite (refl s) ?_
  · simp only
    split
    case h_1 e _ =>
      have h := (hf.trans (put_dir u (tDel e.1 u.dir))).trans (put_hints _ (tDel e.1 u.hints))
      exact h.trans (setReg _ _ (.inr ⟨_, rfl⟩))
    · exact hf

theorem cacheRoom (s : State) (d c : Nat) : s.Alters (s.cacheRoom d c) lineFields LineAt := by
  unfold State.cacheRoom
  extract_lets mine
  exact ite (refl s) ((put_frees s (s.frees + 1)).trans (setHolders ..))

theorem lineMiss (s : State) (d c k : Nat) : s.Alters (s.lineMiss d c k) lineFields LineAt :=
  ((cacheRoom s d c).trans (pm _ _ _ _ _ fun i => .inl ⟨_, i, rfl⟩)).trans (makeRoom _ d k)

theorem lineShare (s : State) (d c k : Nat) : s.Alters (s.lineShare d c k) lineFields LineAt := by
  unfold State.lineShare
  refine ite (refl s) ?_
  split <;> exact (lineMiss s d c k).trans (setHolders ..)

theorem lineOwn (s : State) (d c k : Nat) : s.Alters (s.lineOwn d c k) lineFields LineAt := by
  unfold State.lineOwn
  split
  · exact refl s
  · exact setHolders ..
  · exact (lineMiss s d c k).trans (setHolders ..)

theorem lineRead (s : State) (k : Nat) : s.Alters (s.lineRead k) lineFields LineAt := by
  unfold State.lineRead
  split
  · exact setHolders ..
  · exact refl s

theorem cacheUse (s : State) (stall a n : Nat) (own : Bool) : s.Alters (s.cacheUse stall a n own) lineFields LineAt :=
  ite (foldl (fun t k => ite (ite (lineOwn t _ _ k) (lineShare t _ _ k)) (ite (setHolders t k []) (lineRead t k))) _ _) (refl s)

theorem cacheWrite (s : State) (stall a : Nat) (bs : List Byte) : s.Alters (s.cacheWrite stall a bs) (.hbm :: lineFields) LineAt :=
  (hbmWrite s a bs).trans (cacheUse ..).mono

end State.Alters

/-! ### Transfers of one page -/

/-- An access within one page is one use (R224). -/
theorem pageSplit_one {k va n : Nat} (hn : 0 < n) (h : va % 4096 + n ≤ 4096) : pageSplit (k + 2) va n = [(0, n)] := by
  have hmin : min n (4096 - va % 4096) = n := by omega
  rw [pageSplit, if_neg (by omega)]
  simp only [hmin, Nat.sub_self]
  rw [pageSplit, if_pos rfl]
  rfl

/-- The use of a transfer `x` of one page whose number is `id`. -/
def Xfer.useOf (x : Xfer) (id : Nat) (cx : XlCtx) (phys : Option Phys) (ipa log2 : Nat) : Use :=
  { xfer := id, stall := x.stall, ctx := x.ctx, cx := cx, va := x.va, len := x.len, off := 0, access := x.access, fresh := false,
    waiting := false, trapped := false, held := false, phys := phys, ipa := ipa, log2 := log2, marks := [] }

section

variable {t : State} {x : Xfer} {e : XlEntry} {id u : Nat}

/-- A transfer of one page begun: its use waits to be looked up. -/
theorem startXfer_one (ht : t.todo = []) (hn : 0 < x.len) (h : x.va % 4096 + x.len ≤ 4096) :
    t.startXfer x = { t with xfers := tPut t.serial { x with left := 1 } t.xfers,
                             uses := tPut (t.serial + 1) (x.useOf t.serial (t.xlCtx x.ctx) none 0 12) t.uses,
                             serial := t.serial + 2, todo := [.lookup (t.serial + 1)] } := by
  unfold State.startXfer
  simp only [pageSplit_one hn h, List.length_singleton, List.cons_ne_nil, if_false, List.foldl_cons, List.foldl_nil, State.push,
    ht, List.nil_append, Nat.add_zero]
  rfl

/-- A cached translation serves the access (R223). -/
theorem lookup_of_hits (hu : tFind t.uses u = some (x.useOf id (t.xlCtx x.ctx) none 0 12)) (hits : t.Hits x.stall x.ctx x.va x.access e) :
    t.lookup u = { t with
      uses := tPut u (x.useOf id (t.xlCtx x.ctx) (some ((t.xlCtx x.ctx).place e.hbm (e.out + (x.va - e.va)))) (e.ipa + (x.va - e.va)) e.log2) t.uses,
      todo := t.todo ++ [.access u] } := by
  obtain ⟨hctx, hva, hbit, hfind⟩ := hits
  have hsome : (t.ctx? x.ctx).isNone = false := by
    cases hc : t.ctx? x.ctx with
    | none => exact absurd (hc ▸ hctx) (by decide)
    | some c => rfl
  have hw5 : bit (t.xlCtx x.ctx).w5 0 = true := hbit
  have hfind' : (tGet [] t.xl x.stall).find? (fun e => e.serves (t.xlCtx x.ctx).vmid (t.xlCtx x.ctx).asid x.va x.access
      (bit (t.xlCtx x.ctx).w7 0) && (!e.hbm || t.inShare (t.xlCtx x.ctx).dom 10 ((e.out + (x.va - e.va)) / 4096 * 4096) 4096)) = some e :=
    hfind
  unfold State.lookup
  simp only [hu]
  rw [if_neg (by simp [Xfer.useOf, hsome]), if_neg (by simp only [Xfer.useOf]; omega), if_neg (by simp [Xfer.useOf, hw5])]
  simp only [Xfer.useOf, Bool.false_eq_true, if_false, hfind', State.modUse, hu, State.push]

/-- The fields that a transfer changes before its purpose is told. -/
def xferFields : List Field := [.xfers, .uses, .serial, .dir, .hints, .frees, .regs, .hbm]

/-- A transfer of one page that a cached translation serves comes to its access. -/
theorem startXfer_hits (ht : t.todo = []) (hn : 0 < x.len) (h : x.va % 4096 + x.len ≤ 4096)
    (hits : t.Hits x.stall x.ctx x.va x.access e) :
    ∃ v y, v.todo = [] ∧ (∃ us, v = { t with xfers := tPut t.serial { x with left := 1 } t.xfers, uses := us, serial := t.serial + 2 }) ∧
      tFind v.uses (t.serial + 1) = some y ∧
      y = x.useOf t.serial (t.xlCtx x.ctx) (some ((t.xlCtx x.ctx).place e.hbm (e.out + (x.va - e.va)))) (e.ipa + (x.va - e.va)) e.log2 ∧
      ∀ w k, (v.access (t.serial + 1)).Leads w k → (t.startXfer x).Leads w (k + 2) := by
  obtain ⟨y, hy⟩ : ∃ y, y = x.useOf t.serial (t.xlCtx x.ctx) (some ((t.xlCtx x.ctx).place e.hbm (e.out + (x.va - e.va))))
    (e.ipa + (x.va - e.va)) e.log2 := ⟨_, rfl⟩
  obtain ⟨u, hu⟩ : ∃ u, u = ({ t with
      xfers := tPut t.serial { x with left := 1 } t.xfers, serial := t.serial + 2,
      uses := tPut (t.serial + 1) (x.useOf t.serial (t.xlCtx x.ctx) none 0 12) t.uses } : State) := ⟨_, rfl⟩
  obtain ⟨v, hv⟩ : ∃ v, v = ({ u with uses := tPut (t.serial + 1) y u.uses } : State) := ⟨_, rfl⟩
  have hutodo : u.todo = [] := hu ▸ ht
  have hstart : t.startXfer x = { u with todo := [.lookup (t.serial + 1)] } := by rw [startXfer_one ht hn h, hu]
  have hlook := lookup_of_hits (t := u) (u := t.serial + 1) (id := t.serial) (x := x) (e := e) (by rw [hu]; exact tFind_tPut_same ..)
    (by rw [hu]; exact hits)
  have hcx : u.xlCtx x.ctx = t.xlCtx x.ctx := hu ▸ rfl
  rw [hcx, ← hy, hutodo] at hlook
  have hlook' : u.lookup (t.serial + 1) = { v with todo := [.access (t.serial + 1)] } := by rw [hlook, hv]; rfl
  refine ⟨v, y, hv ▸ hutodo, ⟨v.uses, by rw [hv, hu]⟩, by rw [hv]; exact tFind_tPut_same .., hy, fun w k hk => ?_⟩
  rw [hstart]
  refine State.Leads.single _ hutodo ?_
  rw [State.doTask, hlook']
  exact State.Leads.single _ (hv ▸ hutodo) hk

/-- The last part of a transfer ends well: the transfer is done (R224). -/
theorem xferPart_last {v : State} {y : Use} {z : Xfer} (bs : List Byte) (hz : tFind v.xfers y.xfer = some z) (hleft : z.left = 1)
    (hphys : z.phys = none) (hgot : z.got = []) :
    v.xferPart y 0 0 bs = ({ v with xfers := tPut y.xfer { z with left := 0, got := if bs = [] then [] else [(y.off, bs)], phys := y.phys } v.xfers } : State).push
      (.xferDone y.xfer) := by
  unfold State.xferPart
  simp only [hz, hleft, hphys, hgot, Option.isNone_none, if_true, ne_eq, not_true_eq_false, false_and, if_false, Nat.sub_self]
  rfl

/-- A read of one page of HBM that a cached translation serves: the transfer is done with the bytes that stand there. -/
theorem startXfer_hbmRead (ht : t.todo = []) (hn : 0 < x.len) (h : x.va % 4096 + x.len ≤ 4096)
    (hits : t.Hits x.stall x.ctx x.va x.access e) (hhbm : e.hbm = true) (hx : x.only = false ∧ x.access = 0 ∧ x.phys = none ∧ x.got = [])
    (hp : ∀ op seg, x.purpose ≠ .collSrc op seg) :
    ∃ v, t.Alters v xferFields (fun _ => True) ∧ v.hbm = t.hbm ∧
      tFind v.xfers t.serial = some { x with left := 0, got := [(0, t.hbmRead (e.out + (x.va - e.va)) x.len)],
                                             phys := some (.hbm (e.out + (x.va - e.va))) } ∧
      ∀ w k, (v.xferDone t.serial).Leads w k → (t.startXfer x).Leads w (k + 3) := by
  obtain ⟨honly, hacc, hphys, hgot⟩ := hx
  obtain ⟨v, y, hv, ⟨us, hvt⟩, huse, hy, hlead⟩ := startXfer_hits ht hn h hits
  have hplace : y.phys = some (.hbm (e.out + (x.va - e.va))) := by rw [hy, hhbm]; rfl
  have hyx : y.xfer = t.serial ∧ y.len = x.len ∧ y.off = 0 ∧ y.stall = x.stall := by rw [hy]; exact ⟨rfl, rfl, rfl, rfl⟩
  obtain ⟨hid, hlen, hoff, hstall⟩ := hyx
  have hvx : tFind v.xfers t.serial = some { x with left := 1 } := by rw [hvt]; exact tFind_tPut_same ..
  have hvA : t.Alters v xferFields (fun _ => True) := by
    rw [hvt]
    exact ((State.Alters.put_xfers t _).trans (.put_uses _ us)).trans (.put_serial _ (t.serial + 2))
  generalize e.out + (x.va - e.va) = p at hplace ⊢
  obtain ⟨c, hc⟩ : ∃ c, c = v.cacheUse x.stall p x.len false := ⟨_, rfl⟩
  have hcA : v.Alters c lineFields LineAt := hc ▸ .cacheUse ..
  have hbytes : v.hbmRead p x.len = t.hbmRead p x.len := by rw [hvt]; rfl
  have hne : t.hbmRead p x.len ≠ [] := fun h0 => by
    have := congrArg List.length h0
    rw [State.hbmRead, List.length_map, List.length_range, List.length_nil] at this
    omega
  have hcu : tFind c.uses (t.serial + 1) = some y := by rw [hcA.uses, huse]
  have hcx : tFind c.xfers t.serial = some { x with left := 1 } := by rw [hcA.xfers, hvx]
  have hacc' : v.access (t.serial + 1) = c.finishUse (t.serial + 1) 0 0 (t.hbmRead p x.len) := by
    unfold State.access
    simp only [huse, hid, hvx, hplace, honly, hacc, hlen, hstall, hbytes, ← hc, Bool.false_eq_true, if_false, if_true]
  obtain ⟨w, hw⟩ : ∃ w, w = ({ c with uses := tDel (t.serial + 1) c.uses, xfers := tPut t.serial { x with left := 0, got := [(0, t.hbmRead p x.len)], phys := some (.hbm p) } c.xfers } : State) := ⟨_, rfl⟩
  have hfin : c.finishUse (t.serial + 1) 0 0 (t.hbmRead p x.len) = { w with todo := [.xferDone t.serial] } := by
    have hctodo : c.todo = [] := hcA.todo.trans hv
    unfold State.finishUse
    simp only [hcu]
    rw [xferPart_last _ (z := { x with left := 1 }) (by rw [hid]; exact hcx) rfl hphys hgot, if_neg hne, hid, hoff, hplace, State.push, hw]
    simp only [hctodo, List.nil_append]
  have hwA : t.Alters w xferFields (fun _ => True) := by
    have h := (hvA.trans (hcA.mono (hP := fun _ _ => trivial))).trans (.put_uses c (tDel (t.serial + 1) c.uses))
    exact hw ▸ h.trans (.put_xfers _ _)
  refine ⟨w, hwA, by rw [hw]; exact hcA.hbm.trans (by rw [hvt]), by rw [hw]; exact tFind_tPut_same .., fun z k hk => ?_⟩
  refine hlead z (k + 1) ?_
  rw [hacc', hfin]
  exact State.Leads.single _ (hwA.todo.trans ht) hk

/-- An access of one page of HBM that its unit makes itself: the transfer is done, and its use is held (R227). -/
theorem startXfer_hbmHeld (ht : t.todo = []) (hn : 0 < x.len) (h : x.va % 4096 + x.len ≤ 4096)
    (hits : t.Hits x.stall x.ctx x.va x.access e) (hhbm : e.hbm = true) (hx : x.only = true ∧ x.phys = none ∧ x.got = []) :
    ∃ v, t.Alters v [.xfers, .uses, .serial] (fun _ => False) ∧
      tFind v.xfers t.serial = some { x with left := 0, phys := some (.hbm (e.out + (x.va - e.va))), use := some (t.serial + 1) } ∧
      ∀ w k, (v.xferDone t.serial).Leads w k → (t.startXfer x).Leads w (k + 3) := by
  obtain ⟨honly, hphys, hgot⟩ := hx
  obtain ⟨v, y, hv, ⟨us, hvt⟩, huse, hy, hlead⟩ := startXfer_hits ht hn h hits
  have hplace : y.phys = some (.hbm (e.out + (x.va - e.va))) := by rw [hy, hhbm]; rfl
  have hid : y.xfer = t.serial := by rw [hy]; rfl
  have hvx : tFind v.xfers t.serial = some { x with left := 1 } := by rw [hvt]; exact tFind_tPut_same ..
  have hvA : t.Alters v [.xfers, .uses, .serial] (fun _ => False) := by
    rw [hvt]
    exact ((State.Alters.put_xfers t _).trans (.put_uses _ us)).trans (.put_serial _ (t.serial + 2))
  generalize e.out + (x.va - e.va) = p at hplace ⊢
  obtain ⟨z, hz⟩ : ∃ z : Xfer, z = { x with left := 1 } := ⟨_, rfl⟩
  have hvz : tFind v.xfers y.xfer = some z := by rw [hid, hvx, hz]
  have hzo : z.only = true := by rw [hz, ← honly]
  obtain ⟨w, hw⟩ : ∃ w, w = ({ v with
      uses := tPut (t.serial + 1) { y with held := true } v.uses,
      xfers := tPut t.serial { x with left := 0, got := [], phys := some (.hbm p), use := some (t.serial + 1) }
        (tPut t.serial { z with use := some (t.serial + 1) } v.xfers) } : State) := ⟨_, rfl⟩
  have hacc : v.access (t.serial + 1) = { w with todo := [.xferDone t.serial] } := by
    unfold State.access
    simp only [huse, hvz, hplace]
    rw [if_pos hzo]
    simp only [State.holdUse, State.modUse, State.modXfer, huse, hvz]
    rw [xferPart_last _ (z := { z with use := some (t.serial + 1) }) (tFind_tPut_same ..) (by rw [hz]) (by rw [hz, ← hphys])
      (by rw [hz, ← hgot]), if_pos rfl, State.push, hw]
    simp only [hv, List.nil_append, hid, hplace, hz]
  have hwA : t.Alters w [.xfers, .uses, .serial] (fun _ => False) := by
    have h := hvA.trans (.put_uses v (tPut (t.serial + 1) { y with held := true } v.uses))
    exact hw ▸ h.trans (.put_xfers _ _)
  refine ⟨w, hwA, by rw [hw, ← hgot]; exact tFind_tPut_same .., fun z k hk => ?_⟩
  refine hlead z (k + 1) ?_
  rw [hacc]
  exact State.Leads.single _ (hwA.todo.trans ht) hk

/-- A read of one page of host memory that a cached translation leads to is one read on the context's link (R224). -/
theorem startXfer_hostRead (ht : t.todo = []) (hn : 0 < x.len) (h : x.va % 4096 + x.len ≤ 4096)
    (hits : t.Hits x.stall x.ctx x.va x.access e) (hhbm : e.hbm = false) (hx : x.only = false ∧ x.access = 0 ∧ x.source ≠ 1)
    (hlost : t.hlLost (t.ctxLink x.ctx) = false) (hdead : t.ctxDead x.ctx = false) :
    ∃ v w, t.Alters v [.xfers, .uses, .serial] (fun _ => False) ∧
      w = v.sendReq (t.ctxLink x.ctx) (.rd ⟨e.out + (x.va - e.va), x.len, some x.ctx, t.ctxFn x.ctx, .use (t.serial + 1)⟩) ∧
      (t.startXfer x).Leads w 2 := by
  obtain ⟨honly, hacc, hsrc⟩ := hx
  obtain ⟨v, y, hv, ⟨us, hvt⟩, huse, hy, hlead⟩ := startXfer_hits ht hn h hits
  have hplace : y.phys = some (.host (t.ctxLink x.ctx) (e.out + (x.va - e.va))) := by rw [hy, hhbm]; rfl
  have hyx : y.xfer = t.serial ∧ y.len = x.len ∧ y.ctx = x.ctx ∧ y.cx.fn = t.ctxFn x.ctx := by rw [hy]; exact ⟨rfl, rfl, rfl, rfl⟩
  obtain ⟨hid, hlen, hctx, hfn⟩ := hyx
  have hvx : tFind v.xfers t.serial = some { x with left := 1 } := by rw [hvt]; exact tFind_tPut_same ..
  have hvA : t.Alters v [.xfers, .uses, .serial] (fun _ => False) := by
    rw [hvt]
    exact ((State.Alters.put_xfers t _).trans (.put_uses _ us)).trans (.put_serial _ (t.serial + 2))
  have hvlost : v.hlLost (t.ctxLink x.ctx) = false := by rw [hvt]; exact hlost
  have hvdead : v.ctxDead x.ctx = false := by rw [hvt]; exact hdead
  refine ⟨v, _, hvA, rfl, hlead _ 0 ?_⟩
  have he : v.access (t.serial + 1) = v.sendReq (t.ctxLink x.ctx)
      (.rd ⟨e.out + (x.va - e.va), x.len, some x.ctx, t.ctxFn x.ctx, .use (t.serial + 1)⟩) := by
    unfold State.access
    simp only [huse, hid, hvx, hplace, hctx, hvlost, hvdead, hsrc, honly, hacc, hlen, hfn, decide_false, Bool.false_and, Bool.or_false,
      Bool.false_eq_true, if_false, if_true]
  rw [he]
  refine State.Leads.done ?_
  have hq := (State.Alters.sendReq (F := [.ht]) (P := fun _ => False) v (t.ctxLink x.ctx)
    (.rd ⟨e.out + (x.va - e.va), x.len, some x.ctx, t.ctxFn x.ctx, .use (t.serial + 1)⟩)).todo
  exact hq.trans hv

end

end Sys2Proof.Machine
end

section
/-! PROOFS. Loads, stores and atomics of a Groom by virtual address (R340, R344, R378). -/

namespace Sys2Proof.Machine

-- The proofs are elaborated one after another: in parallel their threads' stacks need more memory than a compile may have.
set_option Elab.async false

/-! ### Translations that serve -/

/-- What a cached translation serves does not depend on what an instruction changes. -/
theorem hits_of_alters {s t : State} {F : List Field} {P : Nat → Prop} {st c va access : Nat} {e : XlEntry} (h : s.Alters t F P)
    (hits : s.Hits st c va access e) (hF : [Field.ctxs, .xl, .shares, .ctxEast].all (fun f => decide (f ∉ F)) = true := by decide) :
    t.Hits st c va access e := by
  simp only [List.all_cons, List.all_nil, Bool.and_true, Bool.and_eq_true, decide_eq_true_eq] at hF
  obtain ⟨h1, h2, h3, h4⟩ := hF
  have hctx : t.ctxs = s.ctxs := h.ctxs h1
  have hxl : t.xl = s.xl := h.xl h2
  have hsh : t.shares = s.shares := h.shares h3
  have hce : t.ctxEast = s.ctxEast := h.ctxEast h4
  have hdom : t.ctxDom c = s.ctxDom c := by rw [State.ctxDom, hce, State.ctxDom]
  have hword : ∀ i, t.ctxWord c i = s.ctxWord c i := fun i => by simp only [State.ctxWord, State.ctx?, hctx]
  have hshare : ∀ d id a n, t.inShare d id a n = s.inShare d id a n := fun d id a n => by
    rw [State.inShare, State.share, hsh]
    rfl
  simpa only [State.Hits, State.ctx?, hctx, hword, hxl, hdom, hshare] using hits

/-- An aligned access lies within one page. -/
theorem aligned_in_page {a n : Nat} (z : BitVec 2) (hn : n = 2 ^ z.toNat) (h : a % n = 0) : 0 < n ∧ a % 4096 + n ≤ 4096 := by
  have hz : z.toNat < 4 := z.isLt
  generalize z.toNat = k at hn hz
  match k, hz with
  | 0, _ => subst hn; omega
  | 1, _ => subst hn; omega
  | 2, _ => subst hn; omega
  | 3, _ => subst hn; omega

/-! ### LDV (R340) -/

theorem State.Alters.plainLoad (t : State) (g : GroomId) (r : Run) (hbm : Bool) (a n : Nat) (now : List Byte) :
    t.Alters (t.plainLoad g r hbm a n now).2 [.grooms, .frees] (fun _ => False) := by
  unfold State.plainLoad
  extract_lets past
  split
  · exact modRun t _ _
  · exact (put_frees t _).trans (modRun _ _ _)

section

variable {s : State} {g : GroomId} {r : Run}

theorem reads_refl {v : State} {x : Run} (h : (v.groom g).run = some x) : v.Reads v g x :=
  .of_executes (.refl h) (.refl v) fun _ => .refl v g

/-- A load whose data has arrived from HBM (R340): the run's own store's bytes, those read, or earlier ones (R354). -/
theorem groomLoaded_hbm {v : State} {x : Run} {rd n va p a : Nat} {own : Option Nat} {acq : Bool} {bs : List Byte}
    (hrun : (v.groom g).run = some x) (hwait : x.wait = .ldv a own acq) (hlen : bs.length = n) :
    ∃ u val, v.groomLoaded g x.id rd n 0 0 va (some (.hbm p)) bs =
        u.modRun g (fun r => ({ r with wait := .none }.put (BitVec.ofNat 5 rd) (BitVec.ofNat 64 val)).step) ∧
      v.Reads u g x ∧ v.Alters u [.grooms, .frees] (fun _ => False) ∧
      (val = own.getD (ofLe bs) ∨ (acq = false ∧ own = none ∧ x.sees true p n = false ∧
        val = ofLe (memRead x.pastHbm (p - hbmBase) n))) := by
  have hw : v.waiting g x.id = true := by
    unfold State.waiting
    simp [hrun, hwait]
  have htake : bs.take n = bs := by rw [← hlen, List.take_length]
  have hrefl := reads_refl hrun
  unfold State.groomLoaded
  simp only [hw, Bool.not_true, Bool.false_eq_true, if_false, ne_eq, not_true_eq_false, hrun, hwait]
  cases own with
  | some y =>
    refine ⟨if acq then v.catchUp g else v, y, rfl, ?_, ?_, .inl rfl⟩
    · cases acq
      · exact hrefl
      · exact hrefl.catchUp
    · cases acq
      · exact .refl v
      · exact .modRun v _ _
  | none =>
    cases acq with
    | true => exact ⟨v.catchUp g, ofLe bs, by simp only [if_true, htake, Option.getD_none], hrefl.catchUp, .modRun v _ _, .inl rfl⟩
    | false =>
      obtain ⟨hreads, hval⟩ := plainLoad_cases (r' := x) hrefl true p n bs
      refine ⟨(v.plainLoad g x true p n bs).2, ofLe ((v.plainLoad g x true p n bs).1.take n), ?_, hreads, .plainLoad .., ?_⟩
      · simp only [Bool.false_eq_true, if_false, htake, Option.getD_none]
      · refine hval.imp (fun h => ?_) fun ⟨hs, h⟩ => ⟨rfl, rfl, hs, ?_⟩
        · rw [h, htake, Option.getD_none]
        · rw [h, if_pos rfl, memRead_take _ _ (Nat.le_refl n)]

theorem id_begun (s : State) {r : Run} (h : r.wait = .none) : (s.begun r).id = r.id := by
  obtain ⟨e, b, hb⟩ := begun_eq s h
  rw [hb]

/-- The transfer that an LDV starts (R340). -/
def ldvXfer (g : GroomId) (r : Run) (rd : BitVec 5) (a n : Nat) : Xfer :=
  mkXfer g.s.val r.ctx 0 2 false false (.groomLd g r.id rd.toNat n) a n []

/-- An LDV comes to its transfer. -/
theorem ldv_starts {rd b : BitVec 5} {z m : BitVec 2} {off : BitVec 12} {a n : Nat} (hf : s.Fetches g r (encM 0x12 rd b z m off))
    (hm : m.toNat < 2) (hn : n = 2 ^ z.toNat) (ha : a = (r.get b + off.signExtend 64).toNat) (hal : a % n = 0)
    (hmeet : r.meets true a n = false) :
    ∃ t, s.Executes t g { s.begun r with wait := .ldv a (r.own true a n) (decide (m.toNat = 1)) } ∧ s.Alters t instrFields (InstrAt g) ∧
      (s.rb (.pmSample g.s) 63 = false → s.CountsOnly t g) ∧ doLdv g rd b z m off s = t.startXfer (ldvXfer g r rd a n) := by
  have hwait := wait_of_fetches hf
  obtain ⟨t, ht, hA, hoff, hk⟩ := instr_begins
    (waits := fun r _ => decide (m.toNat < 2) && r.meets true (r.addr b off) (accSize z)) hf (majorOk_encM rd b z m off rfl)
    (by rw [meets_latchTimer hwait, ← ha, accSize, ← hn, hmeet, Bool.and_false])
  have hx := ht.modRun fun x => { x with wait := .ldv a (x.own true a n) (decide (m.toNat = 1)) }
  rw [own_begun hwait] at hx
  refine ⟨_, hx, hA.trans (.modRun ..), fun h => (hoff h).modRun _, ?_⟩
  rw [doLdv, hk, if_neg (by omega)]
  simp only [addr_begun hwait, ← ha, accSize, ← hn, hal, ne_eq, not_true_eq_false, if_false, ctx_begun s hwait, id_begun s hwait]
  rfl

theorem bare_step_put_wait (hwait : r.wait = .none) (rd : BitVec 5) (v : Word) {x : Run} {w : GWait}
    (hx : x.bare = ({ s.begun r with wait := w } : Run).bare) :
    (({ x with wait := .none } : Run).put (BitVec.ofNat 5 rd.toNat) v).step.bare = (s.ran r rd v (r.pc + 1)).bare := by
  have hp : ∀ y : Run, ((y.put rd v).step).bare = (y.bare.put rd v).step := fun y => by
    unfold Run.put
    split <;> rfl
  have hw : ({ x with wait := .none } : Run).bare = (s.begun r).bare := by
    have h1 : ({ x with wait := .none } : Run).bare = { x.bare with wait := .none } := rfl
    rw [h1, hx]
    obtain ⟨e, b, hb⟩ := begun_eq s hwait
    rw [hb, ← hwait]
    rfl
  rw [BitVec.ofNat_toNat, BitVec.setWidth_eq, hp, hw, ← hp, step_put_begun s hwait]

/-- What an instruction and its transfer leave where instructions are not sampled. -/
theorem kept_of_counts {t v : State} {F : List Field} {P : Nat → Prop} (hc : s.CountsOnly t g) (h : t.Alters v F P)
    (hF : [Field.buf, .ht].all (fun f => decide (f ∉ F)) = true := by decide) : v.buf = s.buf ∧ v.ht = s.ht := by
  simp only [List.all_cons, List.all_nil, Bool.and_true, Bool.and_eq_true, decide_eq_true_eq] at hF
  obtain ⟨h1, h2⟩ := hF
  have e := hc.1
  have hb : t.buf = s.buf := by rw [e]
  have hh : t.ht = s.ht := by rw [e]
  exact ⟨(h.buf h1).trans hb, (h.ht h2).trans hh⟩

/-- The end of a Groom's load is told to its run (R340). -/
theorem xferDone_groomLd {v : State} {id run rd size : Nat} {x : Xfer} (h : tFind v.xfers id = some x) (hp : x.purpose = .groomLd g run rd size) :
    v.xferDone id = ({ v with xfers := tDel id v.xfers } : State).groomLoaded g run rd size x.status x.detail x.va x.phys x.bytes := by
  unfold State.xferDone
  simp only [h, hp]

theorem ldv_hbm {rd b : BitVec 5} {z m : BitVec 2} {off : BitVec 12} {a n p : Nat} {e : XlEntry} (hf : s.Fetches g r (encM 0x12 rd b z m off))
    (hm : m.toNat < 2) (hn : n = 2 ^ z.toNat) (ha : a = (r.get b + off.signExtend 64).toNat) (hal : a % n = 0)
    (hmeet : r.meets true a n = false) (hoff : s.rb (.pmSample g.s) 63 = false) (hits : s.Hits g.s.val r.ctx a 0 e)
    (hhbm : e.hbm = true) (hp : p = e.out + (a - e.va)) :
    ∃ t, exec (.ldv g rd b z m off) s = .next t ∧
      ((t.groom g).run.map Run.bare = some (s.ran r rd (BitVec.ofNat 64 ((r.own true a n).getD (ofLe (s.hbmRead p n)))) (r.pc + 1)).bare ∨
        (m = 0 ∧ r.own true a n = none ∧ r.sees true p n = false ∧
          (t.groom g).run.map Run.bare = some (s.ran r rd (BitVec.ofNat 64 (ofLe (memRead r.pastHbm (p - hbmBase) n))) (r.pc + 1)).bare)) ∧
      (t.groom g).scratch = (s.groom g).scratch ∧ t.hbm = s.hbm ∧ t.buf = s.buf ∧ t.ht = s.ht := by
  have hwait := wait_of_fetches hf
  obtain ⟨t, ht, hA, hcounts, he⟩ := ldv_starts hf hm hn ha hal hmeet
  have hc := hcounts hoff
  have hcalm : t.Calm := hA.calm (calm_of_fetches hf)
  obtain ⟨hpos, hpage⟩ := aligned_in_page z hn hal
  obtain ⟨v, hvA, hvhbm, hvx, hlead⟩ := startXfer_hbmRead (x := ldvXfer g r rd a n) hcalm.1 hpos hpage (hits_of_alters hA hits) hhbm
    ⟨rfl, rfl, rfl, rfl⟩ nofun
  have hthbm : t.hbm = s.hbm := by rw [hc.1]
  have hread : t.hbmRead p n = s.hbmRead p n := by simp only [State.hbmRead, State.hbmByte, hthbm]
  have hplace : e.out + ((ldvXfer g r rd a n).va - e.va) = p := hp.symm
  rw [hplace] at hvx
  obtain ⟨v', hv'⟩ : ∃ v', v' = ({ v with xfers := tDel t.serial v.xfers } : State) := ⟨_, rfl⟩
  have hv'A : t.Alters v' xferFields (fun _ => True) := hv' ▸ hvA.trans (.put_xfers v _)
  have hgroom : ∀ h, v'.groom h = t.groom h := groom_of_grooms hv'A.grooms
  have hrun : (v'.groom g).run = some { s.begun r with wait := .ldv a (r.own true a n) (decide (m.toNat = 1)) } := by rw [hgroom, ht.run]
  obtain ⟨u, val, hload, hu, huA, hval⟩ := groomLoaded_hbm (rd := rd.toNat) (n := n) (va := a) (p := p) (bs := s.hbmRead p n) hrun rfl
    (by rw [State.hbmRead, List.length_map, List.length_range])
  generalize hxd : ({ ldvXfer g r rd a n with left := 0, got := [(0, t.hbmRead p (ldvXfer g r rd a n).len)], phys := some (.hbm p) } : Xfer) = xd at hvx
  have hbytes : xd.bytes = s.hbmRead p n := by
    rw [← hread, ← hxd]
    exact List.append_nil _
  have hdone : v.xferDone t.serial = u.modRun g fun r => ({ r with wait := .none }.put (BitVec.ofNat 5 rd.toNat) (BitVec.ofNat 64 val)).step := by
    rw [← hload, hv', id_begun s hwait, xferDone_groomLd (g := g) (run := r.id) (rd := rd.toNat) (size := n) hvx (by rw [← hxd]; rfl), hbytes, ← hxd]
    rfl
  have hdA : t.Alters (v.xferDone t.serial) (.grooms :: xferFields) (fun _ => True) := by
    have h : t.Alters u (.grooms :: xferFields) (fun _ => True) := hv'A.mono.trans (huA.mono (hP := fun _ _ => trivial))
    exact hdone ▸ h.trans (.modRun ..)
  have hlive := live_of_fetches hf
  refine ⟨v.xferDone t.serial, act_of_leads hlive (k := 3) (he ▸ hlead _ 0 (.done (hdA.todo.trans hcalm.1))) (by decide)
    (hdA.calmCoat hcalm.2), ?_, ?_, ?_, kept_of_counts hc hdA⟩
  · have hfin : ((v.xferDone t.serial).groom g).run.map Run.bare = some (s.ran r rd (BitVec.ofNat 64 val) (r.pc + 1)).bare := by
      obtain ⟨x, hx, hb⟩ := Option.map_eq_some_iff.1 hu.run
      rw [hdone, groom_modRun_same, hx]
      exact congrArg some (bare_step_put_wait hwait rd (BitVec.ofNat 64 val) hb)
    refine hval.imp (fun h => ?_) fun ⟨hacq, hown, hsees, h⟩ => ⟨?_, hown, ?_, ?_⟩
    · rw [hfin, h]
    · have : m.toNat ≠ 1 := of_decide_eq_false hacq
      exact BitVec.eq_of_toNat_eq (show m.toNat = 0 by omega)
    · rw [← sees_begun hwait true p n (s := s)]
      exact hsees
    · rw [hfin, h, ← (past_begun (s := s) hwait).1]
  · rw [hdone, groom_modRun_same, hu.scratch, hgroom, ht.scratch]
  · rw [hdone, ← hthbm, ← hvhbm]
    exact huA.hbm.trans (by rw [hv'])

theorem llStatus_not_instrAt (g : GroomId) (l : HLink) : ¬ InstrAt g (Reg.llStatus (.host l)).addr := by
  rintro (⟨i, e⟩ | ⟨d, i, e⟩ | ⟨h, e⟩) <;>
    simp only [Reg.addr, Reg.block, Reg.off, blockBase, linkBase, linkBlock] at e <;> omega

/-- Whether a host link is lost is said by its LL_STATUS (R98). -/
theorem hlLost_of_alters {s t : State} {F : List Field} {P : Nat → Prop} (h : s.Alters t F P) (hP : ∀ l, ¬ P (Reg.llStatus (.host l)).addr)
    (k : Nat) : t.hlLost k = s.hlLost k := by
  unfold State.hlLost State.hlState State.llState
  rw [h.rf (hP _)]

theorem ldv_host {rd b : BitVec 5} {z m : BitVec 2} {off : BitVec 12} {a n p : Nat} {e : XlEntry} (hf : s.Fetches g r (encM 0x12 rd b z m off))
    (hm : m.toNat < 2) (hn : n = 2 ^ z.toNat) (ha : a = (r.get b + off.signExtend 64).toNat) (hal : a % n = 0)
    (hmeet : r.meets true a n = false) (hoff : s.rb (.pmSample g.s) 63 = false) (hits : s.Hits g.s.val r.ctx a 0 e)
    (hhbm : e.hbm = false) (hp : p = e.out + (a - e.va)) (hlost : s.hlLost (s.ctxLink r.ctx) = false)
    (hdead : (s.ctx? r.ctx).any (fun y => !y.dead) = true) :
    ∃ t, exec (.ldv g rd b z m off) s = .next t ∧
      (t.groom g).run = some { s.ran r 0 0 r.pc with wait := .ldv a (r.own true a n) (decide (m = 1)) } ∧
      (t.tl (s.ctxLink r.ctx)).reqQ = (s.tl (s.ctxLink r.ctx)).reqQ ++ [.rd ⟨p, n, some r.ctx, s.ctxFn r.ctx, .use (s.serial + 1)⟩] ∧
      t.hbm = s.hbm ∧ t.buf = s.buf := by
  have hwait := wait_of_fetches hf
  obtain ⟨t, ht, hA, hcounts, he⟩ := ldv_starts hf hm hn ha hal hmeet
  have hc := hcounts hoff
  have hcalm : t.Calm := hA.calm (calm_of_fetches hf)
  obtain ⟨hpos, hpage⟩ := aligned_in_page z hn hal
  have hctx : t.ctxs = s.ctxs := hA.ctxs
  have hlink : t.ctxLink r.ctx = s.ctxLink r.ctx := by simp only [State.ctxLink, State.ctxWord, State.ctx?, hctx]
  have hfn : t.ctxFn r.ctx = s.ctxFn r.ctx := by simp only [State.ctxFn, State.ctxWord, State.ctx?, hctx]
  have hserial : t.serial = s.serial := hA.serial
  have htl : ∀ h, t.tl h = s.tl h := fun h => by rw [hc.1]; rfl
  have hthbm : t.hbm = s.hbm := by rw [hc.1]
  have hlost' := hlLost_of_alters hA (llStatus_not_instrAt g)
  have hdead' : t.ctxDead r.ctx = false := by
    unfold State.ctxDead State.ctx? at *
    rw [hctx]
    cases hx : tFind s.ctxs r.ctx with
    | none => rfl
    | some y => simpa [hx] using hdead
  obtain ⟨v, w, hvA, hw, hlead⟩ := startXfer_hostRead (x := ldvXfer g r rd a n) hcalm.1 hpos hpage (hits_of_alters hA hits) hhbm
    ⟨rfl, rfl, fun h => nomatch h⟩ (by rw [hlost']; exact hlink ▸ hlost) hdead'
  have hplace : e.out + ((ldvXfer g r rd a n).va - e.va) = p := hp.symm
  have hxctx : (ldvXfer g r rd a n).ctx = r.ctx := rfl
  rw [hplace, hxctx, hlink, hfn, hserial] at hw
  have hwA : t.Alters w [.xfers, .uses, .serial, .ht] (fun _ => False) := by
    have h : t.Alters v [.xfers, .uses, .serial, .ht] (fun _ => False) := hvA.mono
    exact hw ▸ h.trans (.sendReq ..)
  have hvlost : v.hlLost (s.ctxLink r.ctx) = false := by
    rw [hlLost_of_alters hvA fun _ => id, hlost', hlost]
  refine ⟨w, act_of_leads (live_of_fetches hf) (he ▸ hlead) (by decide) (hwA.calmCoat hcalm.2), ?_, ?_, hwA.hbm.trans hthbm,
    hwA.buf.trans ht.buf⟩
  · have hm1 : decide (m.toNat = 1) = decide (m = 1) := decide_eq_decide.2 ⟨fun h => BitVec.eq_of_toNat_eq h, fun h => by rw [h]; rfl⟩
    rw [groom_of_grooms hwA.grooms, ht.run, hm1, ran_zero, ← pc_begun s hwait]
  · rw [hw, State.sendReq, hvlost, if_neg (by decide), State.tl, State.modTl, tGet_tMod_same, ← htl, State.tl, ← hvA.ht]
    rfl

/-! ### STV (R340) -/

theorem leBytes_mod (n v : Nat) : leBytes n (v % 2 ^ (8 * n)) = leBytes n v := by
  induction n generalizing v with
  | zero => rfl
  | succ n ih =>
    have hdiv : v % 2 ^ (8 * (n + 1)) / 256 = v / 256 % 2 ^ (8 * n) := by
      rw [Nat.mul_succ, Nat.pow_add, Nat.mul_comm, Nat.mod_mul_right_div_self]
    have hlow : BitVec.ofNat 8 (v % 2 ^ (8 * (n + 1))) = BitVec.ofNat 8 v := by
      refine BitVec.eq_of_toNat_eq ?_
      rw [BitVec.toNat_ofNat, BitVec.toNat_ofNat, Nat.mod_mod_of_dvd _ (Nat.pow_dvd_pow 2 (by omega))]
    rw [leBytes, leBytes, hdiv, ih, hlow]

theorem ofLe_leBytes_mod (n v : Nat) : ofLe (leBytes n v) = v % 2 ^ (8 * n) := by
  rw [ofLe_leBytes, Nat.pow_mul]

/-- What changes neither Grooms, shared scratch nor registers spares the Grooms. -/
theorem spares_of_alters {t v : State} {F : List Field} (h : t.Alters v F fun _ => False)
    (hF : [Field.grooms, .buf].all (fun f => decide (f ∉ F)) = true := by decide) : t.SparesGrooms v := by
  simp only [List.all_cons, List.all_nil, Bool.and_true, Bool.and_eq_true, decide_eq_true_eq] at hF
  obtain ⟨h1, h2⟩ := hF
  exact ⟨h.grooms h1, h.buf h2, fun q _ => h.reg q id⟩

/-- The transfer that an STV starts (R340). -/
def stvXfer (g : GroomId) (r : Run) (m : BitVec 2) (a n : Nat) (w : Word) : Xfer :=
  mkXfer g.s.val r.ctx 1 2 false true (.groomSt g r.id (b2n (m.toNat = 2))) a n (leBytes n w.toNat)

/-- The end of a Groom's store's translation is told to its run (R340). -/
theorem xferDone_groomSt {v : State} {id run rel : Nat} {x : Xfer} (h : tFind v.xfers id = some x) (hp : x.purpose = .groomSt g run rel) :
    v.xferDone id = ({ v with xfers := tDel id v.xfers } : State).groomStored g run rel x.status x.detail x.va x.phys x.data x.use := by
  unfold State.xferDone
  simp only [h, hp]

theorem groomStored_eq {v : State} {x : Run} {rel a va : Nat} {phys : Option Phys} {bs : List Byte} {use : Option Nat}
    (hrun : (v.groom g).run = some x) (hwait : x.wait = .stv a) :
    v.groomStored g x.id rel 0 0 va phys bs use =
      (v.modRun g fun r => ({ r with wait := .none } : Run).step).pushStore g phys a bs.length (ofLe bs) (rel = 1) use := by
  have hw : v.waiting g x.id = true := by
    unfold State.waiting
    simp [hrun, hwait]
  unfold State.groomStored
  simp only [hw, Bool.not_true, Bool.false_eq_true, if_false, ne_eq, not_true_eq_false, hrun, hwait]

/-- The fields that a store of HBM changes. -/
def storeFields : List Field := .grooms :: xferFields

theorem groom_uses (u : State) (us : Tab Use) (g : GroomId) : ({ u with uses := us } : State).groom g = u.groom g := rfl

theorem hbmWrite_hbm {s t : State} (h : t.hbm = s.hbm) (a : Nat) (bs : List Byte) : (t.hbmWrite a bs).hbm = (s.hbmWrite a bs).hbm := by
  unfold State.hbmWrite
  split
  · rw [h]
  · exact h

/-- A store of HBM alone in the buffer is performed through the stall's context cache, and its use ends (R342, R351). -/
theorem performStore_hbm {u : State} {x1 : Run} {y : GStore} {p k : Nat} (hrun : (u.groom g).run = some x1) (hs : x1.stores = [y])
    (hp : y.phys = some (.hbm p)) (hu : y.use = some k) (c : Nat) :
    ∃ w, u.performStore g c y = w ∧ u.Alters w storeFields (fun _ => True) ∧
      (w.groom g).run = some { x1 with stores := [], seen := (true, p, y.size) :: x1.seen } ∧ (w.groom g).scratch = (u.groom g).scratch ∧
      w.hbm = (u.hbmWrite p (leBytes y.size y.data)).hbm := by
  obtain ⟨v, hv⟩ : ∃ v, v = u.cacheWrite g.s.val p (leBytes y.size y.data) := ⟨_, rfl⟩
  have hvA : u.Alters v (.hbm :: lineFields) LineAt := hv ▸ .cacheWrite ..
  have hgroom := groom_of_grooms (s := u) (t := v) hvA.grooms g
  obtain ⟨w1, hw1⟩ : ∃ w1, w1 = (v.seeAt g true p y.size).modRun g fun r => { r with stores := r.stores.filter fun z => z.id ≠ y.id } := ⟨_, rfl⟩
  have hperf : u.performStore g c y = { w1 with uses := tDel k w1.uses } := by
    unfold State.performStore
    simp only [hp, hu, State.endHeld, leBytes_length, ← hv, ← hw1]
  have hw1A : u.Alters w1 storeFields (fun _ => True) := by
    have h : u.Alters v storeFields (fun _ => True) := hvA.mono (hP := fun _ _ => trivial)
    have h' := h.trans (.modRun v g fun r => { r with seen := (true, p, y.size) :: r.seen })
    exact hw1 ▸ h'.trans (.modRun ..)
  have hfil : [y].filter (fun z => z.id ≠ y.id) = [] := by simp
  refine ⟨_, hperf, hw1A.trans (.put_uses ..), ?_, ?_, ?_⟩
  · rw [groom_uses, hw1, groom_modRun_same, State.seeAt, groom_modRun_same, hgroom, hrun]
    simp only [Option.map_some, hs, hfil]
  · rw [groom_uses, hw1, groom_modRun_same, State.seeAt, groom_modRun_same, hgroom]
  · have h : v.hbm = (u.hbmWrite p (leBytes y.size y.data)).hbm := by
      rw [hv]
      exact (State.Alters.cacheUse ..).hbm
    rw [← h, hw1]
    rfl

/-- An STV of HBM comes to the store buffer. -/
theorem stv_pushes {x b : BitVec 5} {z m : BitVec 2} {off : BitVec 12} {a n p : Nat} {e : XlEntry} (hf : s.Fetches g r (encM 0x13 x b z m off))
    (hm : m = 0 ∨ m = 2) (hn : n = 2 ^ z.toNat) (ha : a = (r.get b + off.signExtend 64).toNat) (hal : a % n = 0) (hs : r.stores = [])
    (hoff : s.rb (.pmSample g.s) 63 = false) (hits : s.Hits g.s.val r.ctx a 1 e) (hhbm : e.hbm = true) (hp : p = e.out + (a - e.va)) :
    ∃ t2 k, s.Executes t2 g (s.ran r 0 0 (r.pc + 1)) ∧ t2.buf = s.buf ∧ t2.ht = s.ht ∧ t2.hbm = s.hbm ∧ t2.Calm ∧
      ∀ w, t2.pushStore g (some (.hbm p)) a n ((r.get x).toNat % 2 ^ (8 * n)) (decide (m = 2)) (some k) = w → w.Calm →
        exec (.stv g x b z m off) s = .next w := by
  have hwait := wait_of_fetches hf
  obtain ⟨t0, ht0, hA0, hoff0, hk⟩ := instr_begins (waits := fun r _ => decide (16 ≤ r.stores.length)) hf (majorOk_encM x b z m off rfl)
    (by rw [stores_latchTimer s hwait, hs]; rfl)
  have ht := ht0.modRun fun r => { r with wait := .stv a }
  have hA := hA0.trans (.modRun t0 g fun r => { r with wait := .stv a })
  have hc := (hoff0 hoff).modRun fun r => { r with wait := .stv a }
  have he : doStv g x b z m off s = (t0.modRun g fun r => { r with wait := .stv a }).startXfer (stvXfer g r m a n (r.get x)) := by
    have hmark : ¬ (m.toNat = 1 ∨ m.toNat = 3) := by
      rcases hm with rfl | rfl <;> decide
    rw [doStv, hk, if_neg hmark]
    simp only [addr_begun hwait, ← ha, accSize, ← hn, hal, ne_eq, not_true_eq_false, if_false, ctx_begun s hwait, id_begun s hwait,
      get_begun s hwait]
    rfl
  generalize t0.modRun g (fun r => { r with wait := .stv a }) = t at ht hA hc he
  have hcalm : t.Calm := hA.calm (calm_of_fetches hf)
  obtain ⟨hpos, hpage⟩ := aligned_in_page z hn hal
  obtain ⟨v, hvA, hvx, hlead⟩ := startXfer_hbmHeld (x := stvXfer g r m a n (r.get x)) hcalm.1 hpos hpage (hits_of_alters hA hits) hhbm
    ⟨rfl, rfl, rfl⟩
  have hplace : e.out + ((stvXfer g r m a n (r.get x)).va - e.va) = p := hp.symm
  rw [hplace] at hvx
  generalize hxd : ({ stvXfer g r m a n (r.get x) with left := 0, phys := some (.hbm p), use := some (t.serial + 1) } : Xfer) = xd at hvx
  obtain ⟨v', hv'⟩ : ∃ v', v' = ({ v with xfers := tDel t.serial v.xfers } : State) := ⟨_, rfl⟩
  have hv'A : t.Alters v' [.xfers, .uses, .serial] (fun _ => False) := hv' ▸ hvA.trans (.put_xfers v _)
  have hv'x : s.Executes v' g { s.begun r with wait := .stv a } := ht.spares (spares_of_alters hv'A)
  have hx2 := hv'x.modRun fun r => ({ r with wait := .none } : Run).step
  have hran : ({ ({ s.begun r with wait := .stv a } : Run) with wait := .none } : Run).step = s.ran r 0 0 (r.pc + 1) := by
    obtain ⟨ev, hit, hb⟩ := begun_eq s hwait
    rw [ran_zero, hb, ← hwait]
    rfl
  rw [hran] at hx2
  have hrel : decide (b2n (decide (m.toNat = 2)) = 1) = decide (m = 2) := by
    rcases hm with rfl | rfl <;> decide
  have hdone : v.xferDone t.serial = (v'.modRun g fun r => ({ r with wait := .none } : Run).step).pushStore g (some (.hbm p)) a n
      ((r.get x).toNat % 2 ^ (8 * n)) (decide (m = 2)) (some (t.serial + 1)) := by
    have h := groomStored_eq (rel := b2n (m.toNat = 2)) (va := a) (phys := some (.hbm p)) (bs := leBytes n (r.get x).toNat)
      (use := some (t.serial + 1)) hv'x.run rfl
    rw [leBytes_length, ofLe_leBytes_mod, hrel] at h
    rw [← h, hv', xferDone_groomSt (g := g) (run := r.id) (rel := b2n (m.toNat = 2)) hvx (by rw [← hxd]; rfl), ← hxd, id_begun s hwait]
    rfl
  have hA2 : t.Alters (v'.modRun g fun r => ({ r with wait := .none } : Run).step) storeFields (fun _ => True) := by
    have h : t.Alters v' storeFields (fun _ => True) := hv'A.mono (hP := fun _ h => h.elim)
    exact h.trans (.modRun ..)
  have hhbm2 : (v'.modRun g fun r => ({ r with wait := .none } : Run).step).hbm = s.hbm := by
    have h : v'.hbm = t.hbm := hv'A.hbm
    have h' : t.hbm = s.hbm := by rw [hc.1]
    exact h.trans h'
  obtain ⟨hbuf, hht⟩ := kept_of_counts hc hA2
  exact ⟨_, t.serial + 1, hx2, hbuf, hht, hhbm2, hA2.calm hcalm, fun w hw hwc => act_of_leads (live_of_fetches hf) (k := 3)
    (he ▸ hlead _ 0 (by rw [hdone, hw]; exact .done hwc.1)) (by decide) hwc.2⟩

theorem stv_hbm {x b : BitVec 5} {z m : BitVec 2} {off : BitVec 12} {a n p : Nat} {e : XlEntry} (hf : s.Fetches g r (encM 0x13 x b z m off))
    (hm : m = 0 ∨ m = 2) (hn : n = 2 ^ z.toNat) (ha : a = (r.get b + off.signExtend 64).toNat) (hal : a % n = 0) (hs : r.stores = [])
    (hoff : s.rb (.pmSample g.s) 63 = false) (hits : s.Hits g.s.val r.ctx a 1 e) (hhbm : e.hbm = true) (hp : p = e.out + (a - e.va)) :
    ∃ t, exec (.stv g x b z m off) s = .next t ∧ (((t.groom g).run.map Run.bare =
          some { s.ran r 0 0 (r.pc + 1) with nextStore := r.nextStore + 1 }.bare ∧
        t.hbm = (s.hbmWrite p (leBytes n (r.get x).toNat)).hbm) ∨
      ((∃ u, (t.groom g).run = some { s.ran r 0 0 (r.pc + 1) with nextStore := r.nextStore + 1, stores := [⟨r.nextStore, some (.hbm p), a, n, (r.get x).toNat % 2 ^ (8 * n), decide (m = 2), false, u⟩] }) ∧
        t.hbm = s.hbm)) ∧ (t.groom g).scratch = (s.groom g).scratch ∧ t.buf = s.buf ∧ t.ht = s.ht := by
  have hwait := wait_of_fetches hf
  obtain ⟨t2, k, hx2, hbuf, hht, hhbm2, hcalm, hdone⟩ := stv_pushes hf hm hn ha hal hs hoff hits hhbm hp
  obtain ⟨hstores, hnext⟩ := stores_ran s hwait (r.pc + 1)
  rw [hs] at hstores
  generalize s.ran r 0 0 (r.pc + 1) = x0 at hx2 hstores hnext ⊢
  obtain ⟨y, hy⟩ : ∃ y : GStore, y = ⟨r.nextStore, some (.hbm p), a, n, (r.get x).toNat % 2 ^ (8 * n), decide (m = 2), false, some k⟩ :=
    ⟨_, rfl⟩
  obtain ⟨u, hu, ⟨gs, j, hgs⟩, hcase⟩ := pushStore_cases hx2 hstores (some (.hbm p)) a n ((r.get x).toNat % 2 ^ (8 * n)) (decide (m = 2))
    (some k) (hnext ▸ hy)
  rw [hnext] at hu
  have hucalm : u.Calm := hgs ▸ hcalm
  have huhbm : u.hbm = s.hbm := by rw [hgs, ← hhbm2]
  have huht : u.ht = s.ht := by rw [hgs, ← hht]
  rcases hcase with hpush | hpush
  · refine ⟨u, hdone u hpush hucalm, .inr ⟨⟨some k, ?_⟩, huhbm⟩, hu.scratch, hu.buf, huht⟩
    rw [hu.run, hy]
  · obtain ⟨w, hw, hwA, hwrun, hwscr, hwhbm⟩ := performStore_hbm (p := p) (k := k) hu.run rfl (by rw [hy]) (by rw [hy]) x0.ctx
    rw [hw, driftStores_of_empty hwrun rfl] at hpush
    refine ⟨w, hdone w hpush (hwA.calm hucalm), .inl ⟨?_, ?_⟩, hwscr.trans hu.scratch, hwA.buf.trans hu.buf, hwA.ht.trans huht⟩
    · rw [hwrun, ← hstores]
      rfl
    · rw [hwhbm, hbmWrite_hbm huhbm, hy, leBytes_mod]

/-! ### HAMO (R344, R378) -/

/-- The transfer that a HAMO starts (R344). -/
def hamoXfer (g : GroomId) (r : Run) (rd : BitVec 5) (a n : Nat) : Xfer :=
  mkXfer g.s.val r.ctx 2 2 false true (.groomAmo g r.id rd.toNat) a n []

/-- The end of a HAMO's translation is told to its run (R344). -/
theorem xferDone_groomAmo {v : State} {id run rd : Nat} {x : Xfer} (h : tFind v.xfers id = some x) (hp : x.purpose = .groomAmo g run rd) :
    v.xferDone id = ({ v with xfers := tDel id v.xfers } : State).groomAtom g run rd x.status x.detail x.va x.phys x.use := by
  unfold State.xferDone
  simp only [h, hp]

/-- An atomic of HBM that is not refused (R378, R379): its line is written uncached, and the old value is answered. -/
theorem hitchAtom_eq (t : State) {a code operand compare n : Nat} (hok : atomBad code = false) (hn : n = atomSize (code / 16 % 8)) :
    ∃ u, t.hitchAtom a code operand compare = (u, ofLe (t.hbmRead a n)) ∧ t.Alters u xferFields (fun _ => True) ∧
      u.hbm = (t.hbmWrite a (leBytes n (atomNew code (ofLe (t.hbmRead a n)) operand compare))).hbm ∧ u.dir = (t.dropCopies a n).dir := by
  obtain ⟨t1, ht1⟩ : ∃ t1, t1 = t.bump (.hkCount (domOf (domOfHbm a))) 63 32 1 := ⟨_, rfl⟩
  have h1 : t.Alters t1 xferFields (fun _ => True) := ht1 ▸ .setReg t _ trivial
  have hhbm : t1.hbm = t.hbm := by rw [ht1]; rfl
  have hdir : t1.dir = t.dir := by rw [ht1]; rfl
  subst hn
  refine ⟨t1.uncachedWrite a (leBytes (atomSize (code / 16 % 8)) (atomNew code (ofLe (t.hbmRead a (atomSize (code / 16 % 8)))) operand compare)),
    ?_, h1.trans (.uncachedWrite ..), hbmWrite_hbm hhbm .., ?_⟩
  · unfold State.hitchAtom
    simp only [hok, Bool.false_eq_true, if_false, ← ht1]
  · have h2 : ∀ (v : State) bs, (v.hbmWrite a bs).dir = v.dir := fun v bs => (State.Alters.hbmWrite (F := [.hbm]) (P := fun _ => False) v a bs).dir
    unfold State.uncachedWrite State.dropCopies
    simp only [h2, hdir, leBytes_length]

theorem hamo_hbm {rd a b : BitVec 5} {fn : BitVec 11} {v n p : Nat} {e : XlEntry} (hf : s.Fetches g r (encR 0x15 rd a b fn))
    (hok : atomOk fn.toNat = true) (hbad : atomBad fn.toNat = false) (hn : n = atomSize (fn.toNat / 16 % 8)) (hv : v = (r.get a).toNat)
    (hal : v % n = 0) (hs : r.stores = []) (hoff : s.rb (.pmSample g.s) 63 = false) (hits : s.Hits g.s.val r.ctx v 2 e)
    (hhbm : e.hbm = true) (hp : p = e.out + (v - e.va)) :
    ∃ t, exec (.hamo g rd a b fn) s = .next t ∧
      (t.groom g).run.map Run.bare = some (s.ran r rd (BitVec.ofNat 64 (ofLe (s.hbmRead p n))) (r.pc + 1)).bare ∧
      (t.groom g).scratch = (s.groom g).scratch ∧
      t.hbm = (s.hbmWrite p (leBytes n (atomNew fn.toNat (ofLe (s.hbmRead p n)) (r.get b).toNat (r.get rd).toNat))).hbm ∧
      t.dir = (s.dropCopies p n).dir ∧ t.buf = s.buf ∧ t.ht = s.ht := by
  have hwait := wait_of_fetches hf
  obtain ⟨t0, ht0, hA0, hoff0, hk⟩ := instr_begins (waits := fun r _ => atomOk fn.toNat && decide (r.stores ≠ [])) hf
    (by rw [Laws.GroomMajor.major_encR _ _ _ _ _ (by decide)]; rfl) (by simp [stores_latchTimer s hwait, hs])
  have ht := ht0.modRun fun x => { x with wait := .hamo v fn.toNat (r.get b).toNat (r.get rd).toNat }
  have hA := hA0.trans (.modRun t0 g fun x => { x with wait := .hamo v fn.toNat (r.get b).toNat (r.get rd).toNat })
  have hc := (hoff0 hoff).modRun fun x => { x with wait := .hamo v fn.toNat (r.get b).toNat (r.get rd).toNat }
  have he : doHamo g rd a b fn s = (t0.modRun g fun x =>
      { x with wait := .hamo v fn.toNat (r.get b).toNat (r.get rd).toNat }).startXfer (hamoXfer g r rd v n) := by
    rw [doHamo, hk]
    simp only [hok, Bool.not_true, Bool.false_eq_true, if_false, get_begun s hwait, ← hv, ← hn, hal, ne_eq, not_true_eq_false,
      ctx_begun s hwait, id_begun s hwait]
    rfl
  generalize t0.modRun g (fun x => { x with wait := .hamo v fn.toNat (r.get b).toNat (r.get rd).toNat }) = t at ht hA hc he
  have hcalm : t.Calm := hA.calm (calm_of_fetches hf)
  have hpage : 0 < n ∧ v % 4096 + n ≤ 4096 := by
    have h : n = 4 ∨ n = 8 := by
      rw [hn, atomSize]
      exact ite_eq_or_eq ..
    rcases h with rfl | rfl <;> omega
  obtain ⟨w, hwA, hwx, hlead⟩ := startXfer_hbmHeld (x := hamoXfer g r rd v n) hcalm.1 hpage.1 hpage.2 (hits_of_alters hA hits) hhbm
    ⟨rfl, rfl, rfl⟩
  have hplace : e.out + ((hamoXfer g r rd v n).va - e.va) = p := hp.symm
  rw [hplace] at hwx
  generalize hxd : ({ hamoXfer g r rd v n with left := 0, phys := some (.hbm p), use := some (t.serial + 1) } : Xfer) = xd at hwx
  obtain ⟨w', hw'⟩ : ∃ w', w' = ({ w with xfers := tDel t.serial w.xfers, uses := tDel (t.serial + 1) w.uses } : State) := ⟨_, rfl⟩
  have hw'A : t.Alters w' [.xfers, .uses, .serial] (fun _ => False) := by
    have h := hwA.trans (.put_xfers w (tDel t.serial w.xfers))
    exact hw' ▸ h.trans (.put_uses ..)
  have hw'x := ht.spares (spares_of_alters hw'A)
  have hthbm : w'.hbm = s.hbm := hw'A.hbm.trans (by rw [hc.1])
  have htdir : w'.dir = s.dir := hw'A.dir.trans (by rw [hc.1])
  obtain ⟨u, hatom, huA, huhbm, hudir⟩ := hitchAtom_eq w' (a := p) (operand := (r.get b).toNat) (compare := (r.get rd).toNat) hbad hn
  have hread : w'.hbmRead p n = s.hbmRead p n := by simp only [State.hbmRead, State.hbmByte, hthbm]
  rw [hread] at hatom huhbm
  have hwaits : w'.waiting g r.id = true := by
    unfold State.waiting
    simp [hw'x.run, id_begun s hwait]
  have hdone : w.xferDone t.serial = (u.catchUp g).modRun g fun r =>
      ({ r with wait := .none }.put (BitVec.ofNat 5 rd.toNat) (BitVec.ofNat 64 (ofLe (s.hbmRead p n)))).step := by
    rw [xferDone_groomAmo (g := g) (run := r.id) (rd := rd.toNat) hwx (by rw [← hxd]; rfl)]
    have hend : ({ w with xfers := tDel t.serial w.xfers } : State).endHeld xd.use = w' := by rw [← hxd, hw']; rfl
    have hst : xd.status = 0 ∧ xd.phys = some (.hbm p) := by rw [← hxd]; exact ⟨rfl, rfl⟩
    unfold State.groomAtom
    rw [hend, hst.1, hst.2]
    simp [hwaits, hw'x.run, hbad, hatom]
  have hgroom : ∀ h, u.groom h = w'.groom h := groom_of_grooms huA.grooms
  have hfA : t.Alters (w.xferDone t.serial) storeFields (fun _ => True) := by
    have h : t.Alters u storeFields (fun _ => True) := (hw'A.mono (hP := fun _ h => h.elim)).trans huA.mono
    have h' := h.trans (.modRun u g fun r => { r with pastHbm := u.hbm, pastBuf := u.buf, seen := [] })
    exact hdone ▸ h'.trans (.modRun ..)
  refine ⟨w.xferDone t.serial, act_of_leads (live_of_fetches hf) (k := 3) (he ▸ hlead _ 0 (.done (hfA.todo.trans hcalm.1))) (by decide)
    (hfA.calmCoat hcalm.2), ?_, ?_, ?_, ?_, kept_of_counts hc hfA⟩
  · rw [hdone, State.catchUp, groom_modRun_same, groom_modRun_same, hgroom, hw'x.run]
    exact congrArg some (bare_step_put_wait hwait rd _ rfl)
  · rw [hdone, State.catchUp, groom_modRun_same, groom_modRun_same, hgroom, hw'x.scratch]
  · rw [← hbmWrite_hbm hthbm, ← huhbm, hdone]
    rfl
  · rw [hdone, State.dropCopies, ← htdir]
    exact hudir

end

/-- Settles O34. -/
theorem groomLoadsStoresAndAtomics : Obligations.GroomLoadsStoresAndAtomics := by
  unfold Obligations.GroomLoadsStoresAndAtomics
  exact ⟨fun s g r rd b z m off a n hf hm hn ha hal hin hmeet => ld_scratch hf hm hn ha hal hin hmeet,
    fun s g r rd b z m off a n hf hm hn ha hal hin hb hmeet => ld_shared hf hm hn ha hal hin hb hmeet,
    fun s g r rd b z m off a n hf hm hn ha hal hin hmeet => ld_window hf hm hn ha hal hin hmeet,
    fun s g r x b z m off a n hf hm hn ha hal hin hs => st_scratch hf hm hn ha hal hin hs,
    fun s g r x b z m off a n hf hm hn ha hal hin hb hs => st_shared hf hm hn ha hal hin hb hs,
    fun s g r rd a b fn o old hf hfn ha hal hin hb hs hold => amol_shared hf hfn ha hal hin hb hs hold,
    fun s g r rd b z m off a n p e hf hm hn ha hal hmeet hoff hits hhbm hp => ldv_hbm hf hm hn ha hal hmeet hoff hits hhbm hp,
    fun s g r rd b z m off a n p e hf hm hn ha hal hmeet hoff hits hhbm hp hlost hdead =>
      ldv_host hf hm hn ha hal hmeet hoff hits hhbm hp hlost hdead,
    fun s g r x b z m off a n p e hf hm hn ha hal hs hoff hits hhbm hp => stv_hbm hf hm hn ha hal hs hoff hits hhbm hp,
    fun s g r rd a b fn v n p e hf hok hbad hn hv hal hs hoff hits hhbm hp => hamo_hbm hf hok hbad hn hv hal hs hoff hits hhbm hp⟩

end Sys2Proof.Machine
end

section
/-! PROOFS. The life of a run: dispatch, end, timeout, reset and fence (R322 to R334, R345, R347, R349, R465). -/

namespace Sys2Proof.Machine

-- The proofs are elaborated one after another: in parallel their threads' stacks need more memory than a compile may have.
set_option Elab.async false

/-! ### Counts and fields -/

theorem bit_setFld_one {n : Nat} (w : BitVec n) (i : Nat) (h : i < n) : bit (setFld w i i 1) i = true := bit_setFld_same w i true h

theorem fld_satFld {n : Nat} (w : BitVec n) (hi lo v : Nat) (h : hi < n) :
    fld (satFld w hi lo v) hi lo = min (fld w hi lo + v) (2 ^ (hi + 1 - lo) - 1) := by
  have hpos : 0 < 2 ^ (hi + 1 - lo) := Nat.two_pow_pos _
  rw [satFld, fld_setFld_same _ _ _ _ h, satAdd]
  split
  · rw [Nat.mod_eq_of_lt (by omega), Nat.min_eq_left ‹_›]
  · rw [Nat.mod_eq_of_lt (by omega), Nat.min_eq_right (by omega)]

theorem rf_bump_same (s : State) (q : Reg) (hi lo n : Nat) (h : hi < 64) :
    (s.bump q hi lo n).rf q hi lo = min (s.rf q hi lo + n) (2 ^ (hi + 1 - lo) - 1) := by
  rw [State.rf, State.bump, reg_setReg_same, fld_satFld _ _ _ _ h, State.rf]

theorem rf_bump_other (s : State) (q : Reg) (hi lo n hi' lo' : Nat) (h' : hi' < 64) (h : hi < lo' ∨ hi' < lo) :
    (s.bump q hi lo n).rf q hi' lo' = s.rf q hi' lo' := by
  rw [State.rf, State.bump, reg_setReg_same, satFld, fld_setFld_other _ _ _ _ _ _ h' h, State.rf]

/-- A fault of a block that is not frozen shows in its status (R458). -/
theorem fault_status (s : State) (b : Block) (cls : FtClass) (low unit : Nat) (hfz : s.frozen b = false) :
    (s.fault b cls low unit).rb (.ftStatus b) cls.num = true := by
  have hnum : cls.num < 64 := by cases cls <;> decide
  have hcode : ∀ (F : List Field) (s : State) v, .regs ∈ F → s.Alters (s.setReg (.ftCode b) v) F (fun a => a ≠ (Reg.ftStatus b).addr) :=
    fun F s v hF => .setReg s v (addr_ne_of_off 0xF018 0xF000 rfl rfl (by decide)) hF
  have hhl : ∀ l, (Reg.hlStatus l).addr ≠ (Reg.ftStatus b).addr := fun l => addr_ne_of_off 0x20008 0xF000 rfl rfl (by decide)
  unfold State.fault
  rw [if_neg (by rw [hfz]; decide)]
  extract_lets s1 code first s2 s3 s4
  have h2 : s2.rb (.ftStatus b) cls.num = true := rb_wb_same _ _ _ _ hnum
  have h3 : s2.Alters s3 faultFields (fun a => a ≠ (Reg.ftStatus b).addr) :=
    .ite ((hcode faultFields _ _ (by decide)).trans (hcode faultFields _ _ (by decide))) (.refl s2)
  have h4 : s2.Alters s4 faultFields (fun a => a ≠ (Reg.ftStatus b).addr) :=
    h3.trans ((hcode faultFields _ _ (by decide)).trans (hcode faultFields _ _ (by decide)))
  have h5 : s4.Alters (s4.postFault b cls code unit) faultFields (fun a => a ≠ (Reg.ftStatus b).addr) := by
    unfold State.postFault
    extract_lets k due i t
    exact .ite ((State.Alters.put_ftPosted s4 _).trans (.postMgmt _ _ _ _ _ hhl)) (.refl s4)
  have hfin : s2.Alters (if s4.rb (.ftMask b) cls.num then s4 else s4.postFault b cls code unit) faultFields
      (fun a => a ≠ (Reg.ftStatus b).addr) := .ite h4 (h4.trans h5)
  rw [hfin.rb (fun h => h rfl), h2]

/-! ### Dispatch (R322, R327, R329) -/

section

variable {s : State} {g : GroomId}

/-- A Groom of a running stall that is switched on and has no run. -/
structure State.Idle (s : State) (g : GroomId) : Prop where
  runs : s.domRuns (g.s.val / 8) = true
  free : s.holdDom ≠ some (g.s.val / 8)
  run : (s.groom g).run = none
  fenced : (s.groom g).fenced = false
  on : s.rb (.grCtrl g.s) 0 = true
  off : s.rb (.grCtrl g.s) (32 + g.g.val) = false
  going : s.tack.stopping = false

/-- The run that a reference of the queue starts as. -/
def State.newRun (s : State) (x : RunRef) : Run :=
  let bind := [s.ctxWord x.ctx 20, s.ctxWord x.ctx 21, s.ctxWord x.ctx 22, s.ctxWord x.ctx 23]
  { id := s.runs, ref := x, bind := bind, regs := runRegs bind x, pc := runEntry bind x.kind,
    budget := x.budget.getD (fld (s.ctxWord x.ctx 22) 52 40), since := s.clk, wait := .none, stores := [], nextStore := 0, handles := [],
    events := 0, timer := 0, timerHit := false, pastHbm := s.hbm, pastBuf := s.buf, seen := [], halted := false, exc := none }

/-- A run started under its binding. -/
theorem startRun_groom (s : State) (g : GroomId) (x : RunRef) :
    (s.startRun g x).groom g = { s.groom g with
      run := some (s.newRun x), scratch := if (s.groom g).prevCtx = some x.ctx then (s.groom g).scratch else [] } := by
  unfold State.startRun
  exact groom_modGroom_same ..

theorem takeRun_of_parallel {x : RunRef} {rest : List RunRef} (h : bit (s.ctxWord x.ctx 22) 56 = false) :
    s.takeRun g.s (x :: rest) = some (x, rest) := by
  rw [State.takeRun, State.mayRun, h, Bool.not_false, Bool.true_or, if_pos rfl]

/-- A run queue whose first run has been taken. -/
def RunQ.less (q : RunQ) (completion : Bool) (rest : List RunRef) : RunQ :=
  if completion then { q with cpls := rest ++ q.spill.take 1, spill := q.spill.drop 1 } else { q with runs := rest }

/-- A dispatch takes the first run of its queue. -/
theorem dispatch_eq (hi : s.Idle g) {x : RunRef} {rest : List RunRef} (hser : bit (s.ctxWord x.ctx 22) 56 = false) (completion : Bool)
    (hq : (if completion then (s.runq g.s.val).cpls else (s.runq g.s.val).runs) = x :: rest) :
    doRunDispatch g completion s = State.startRun { s with runqs := tSet {} g.s.val ((s.runq g.s.val).less completion rest) s.runqs } g x := by
  have hfz : s.frozen (.stall g.s) = false := by simp [State.frozen, hi.runs]
  unfold doRunDispatch
  simp only [hfz, hi.going, hi.free, hi.run, hi.fenced, hi.on, hi.off, Option.isSome_none, decide_false, Bool.or_false, Bool.not_true,
    Bool.false_eq_true, if_false]
  cases completion with
  | false =>
    simp only [Bool.false_eq_true, if_false] at hq ⊢
    rw [hq, takeRun_of_parallel hser]
    rfl
  | true =>
    simp only [if_true] at hq ⊢
    rw [hq, takeRun_of_parallel hser]
    rfl

theorem dispatch_alters {x : RunRef} (qs : Tab RunQ) :
    s.Alters (State.startRun { s with runqs := qs } g x) [.runqs, .runs, .grooms] (fun _ => False) :=
  ((State.Alters.put_runqs s qs).trans (.put_runs _ (s.runs + 1))).trans (.put_grooms _ _)

end

/-! ### Locks given up (R388) -/

/-- The addresses of what counts and shows grants and abandoned locks. -/
def HolderAt (a : Nat) : Prop := (∃ d, a = (Reg.hkCount d).addr) ∨ (∃ d, a = (Reg.hkStatus d).addr) ∨ ∃ h, a = (Reg.hlStatus h).addr

/-- The fields that a lock given up changes. -/
def holderFields : List Field := [.locks, .regs, .ht, .grooms, .out]

namespace State.Alters

theorem wakeHlock (s : State) (g : GroomId) (status : Nat) : s.Alters (s.wakeHlock g status) holderFields HolderAt :=
  (modRun s g fun r => { r with pastHbm := s.hbm, pastBuf := s.buf, seen := [] }).trans (modRun _ _ _)

theorem grant (s : State) (d n : Nat) (m : Holder) (prio : Nat) (ab queued : Bool) :
    s.Alters (s.grant d n m prio ab queued) holderFields HolderAt := by
  unfold State.grant
  extract_lets s1 s2
  have h1 : s.Alters s1 holderFields HolderAt := put_locks s _
  have h2 : s.Alters s2 holderFields HolderAt := h1.trans (setReg _ _ (.inl ⟨_, rfl⟩))
  refine ite h2 ?_
  cases m with
  | run g => exact h2.trans (wakeHlock ..)
  | steward => exact h2.trans (put_out _ _)
  | fn l f => exact h2.trans (sendIntr _ _ _ _ _ fun l => .inr (.inr ⟨l, rfl⟩))

theorem passLock (s : State) (d n : Nat) (ab : Bool) : s.Alters (s.passLock d n ab) holderFields HolderAt := by
  unfold State.passLock
  extract_lets l s1
  have h1 : s.Alters s1 holderFields HolderAt := put_locks s _
  split
  · exact h1
  · exact (h1.trans (put_locks _ _)).trans (grant ..)

theorem resetHolder (s : State) (d : Nat) (m : Holder) : s.Alters (s.resetHolder d m) holderFields HolderAt := by
  unfold State.resetHolder
  extract_lets s1 mine
  refine (dropWaits s d m).trans (foldl (fun t e => ?_) _ _)
  have h1 : t.Alters ((t.bump (.hkCount (domOf d)) 15 0 1).wb (.hkStatus (domOf d)) 0 true) holderFields HolderAt :=
    (setReg t _ (.inl ⟨_, rfl⟩)).trans (setReg _ _ (.inr (.inl ⟨_, rfl⟩)))
  exact h1.trans (passLock ..)

end State.Alters

theorem dropWaits_of_none {s : State} {d : Nat} {m : Holder} (h : s.waitsOn d m = none) : s.dropWaits d m = s := by
  unfold State.dropWaits
  rw [h]

/-- A master that waits on nothing and owns nothing gives nothing up. -/
theorem resetHolder_of_none {s : State} {d : Nat} {m : Holder} (hw : s.waitsOn d m = none) (hh : s.holds d m = false) :
    s.resetHolder d m = s := by
  have hmine : s.locks.filter (fun e => e.1 / 65536 = d ∧ e.2.owner = some m) = [] := by
    rw [List.filter_eq_nil_iff]
    intro e he hd
    have h := List.any_eq_false.1 hh e he
    exact h hd
  unfold State.resetHolder
  rw [dropWaits_of_none hw]
  simp only [hmine]
  rfl

/-- A master that owns one lock, and nobody waits for it, abandons it. -/
theorem resetHolder_single {s : State} {d n : Nat} {m : Holder} (h : s.locks = [(65536 * d + n, { owner := some m })]) (hn : n < 65536) :
    ∃ t, s.resetHolder d m = t ∧ t.lock d n = { owner := none, abandoned := true } ∧ t.rb (.hkStatus (domOf d)) 0 = true ∧
      t.grooms = s.grooms := by
  have hkey : (65536 * d + n) / 65536 = d ∧ (65536 * d + n) % 65536 = n := by omega
  have hw : s.waitsOn d m = none := by
    unfold State.waitsOn
    rw [h]
    simp
  obtain ⟨u, hu⟩ : ∃ u, u = (s.bump (.hkCount (domOf d)) 15 0 1).wb (.hkStatus (domOf d)) 0 true := ⟨_, rfl⟩
  have hlock : u.lock d n = { owner := some m } := by
    have hlocks : u.locks = s.locks := by rw [hu]; rfl
    rw [lock_of_locks hlocks, State.lock, h]
    simp [tGet, tFind, lockKey]
  have hreset : s.resetHolder d m = u.modLock d n fun l => { l with owner := none, prio := 0, abandoned := true } := by
    have hmine : s.locks.filter (fun e => e.1 / 65536 = d ∧ e.2.owner = some m) = s.locks := by
      rw [h]
      simp [hkey]
    unfold State.resetHolder
    rw [dropWaits_of_none hw]
    simp only [hmine]
    rw [h, List.foldl_cons, List.foldl_nil, ← hu, hkey.2, passLock_of_no_waiters (by rw [hlock])]
  refine ⟨_, hreset, ?_, ?_, by rw [hu]; rfl⟩
  · rw [lock_modLock_same, hlock]
  · have hrb : u.rb (.hkStatus (domOf d)) 0 = true := hu ▸ rb_wb_same _ _ _ _ (by decide)
    exact hrb

/-! ### The end of a run (R332, R347) -/

section

variable {s : State} {g : GroomId} {r : Run}

/-- The locks of a Groom's run released, and a NOTE where it owned one (R332). -/
def State.unlocked (s : State) (g : GroomId) : State :=
  if s.holds (g.s.val / 8) (.run g) then (s.resetHolder (g.s.val / 8) (.run g)).fault (.stall g.s) .note 0x21 g.g.val
  else s.resetHolder (g.s.val / 8) (.run g)

/-- A run's exception reported, where it has one (R347). -/
def State.excReported (s : State) (g : GroomId) (r : Run) : State :=
  match r.exc with
  | some (kind, detail, addr, pc) => s.reportExc g r kind detail addr pc
  | none => s

/-- A run gone from its Groom, and counted (R332). -/
def State.runGone (s : State) (g : GroomId) (r : Run) : State :=
  let t := s.modGroom g fun x => { x with run := none, prevCtx := (s.ctx? r.ctx).map fun _ => r.ctx }
  (t.bump (.grCount g.s) 63 32 1).pmG g 0x0103 r.ctx 1

/-- A run that is over, with no command outstanding and nothing in its store buffer, ends. -/
theorem doRunEnd_eq (hdom : s.domRuns (g.s.val / 8) = true) (hrun : (s.groom g).run = some r) (hover : r.halted = true ∨ r.exc.isSome = true)
    (hidle : r.handles = [] ∧ r.stores = []) :
    doRunEnd g s = if r.ref.kind = 0 then
        (((s.unlocked g).excReported g r).runGone g r).disposePkt r.ref.tf r.ref.psn (if r.exc.isSome then 3 else (r.get 1).toNat) r.budget
      else ((s.unlocked g).excReported g r).runGone g r := by
  obtain ⟨hh, hs⟩ := hidle
  have hfz : s.frozen (.stall g.s) = false := by simp [State.frozen, hdom]
  have hov : s.runOver g = true := by
    rw [State.runOver, hrun]
    simpa using hover
  unfold doRunEnd
  simp only [hfz, hov, Bool.not_true, Bool.or_self, Bool.false_eq_true, if_false, drainStores_of_none hrun (by rw [hs]; rfl), hrun, hh, hs,
    ne_eq, not_true_eq_false, decide_false]
  rfl

/-- What an instruction has reached stays where neither Grooms nor the records of exceptions change. -/
theorem State.Executes.of_alters {t u : State} {F : List Field} {P : Nat → Prop} (h : s.Executes t g r) (k : t.Alters u F P)
    (hP : ∀ q : Reg, q.RecordsExc → ¬ P q.addr) (hF : [Field.grooms, .buf].all (fun f => decide (f ∉ F)) = true := by decide) :
    s.Executes u g r := by
  simp only [List.all_cons, List.all_nil, Bool.and_true, Bool.and_eq_true, decide_eq_true_eq] at hF
  obtain ⟨h1, h2⟩ := hF
  exact h.spares ⟨k.grooms h1, k.buf h2, fun q hq => k.reg q (hP q hq)⟩

/-- The addresses that the end of a run writes when it counts it. -/
def GoneAt (g : GroomId) (a : Nat) : Prop := a = (Reg.grCount g.s).addr ∨ ∃ i, a = (Reg.pmGcnt g i).addr

theorem runGone_alters (t : State) (g : GroomId) (r : Run) : t.Alters (t.runGone g r) [.grooms, .regs] (GoneAt g) := by
  unfold State.runGone
  extract_lets u
  have h1 : t.Alters u [.grooms, .regs] (GoneAt g) := .modGroom t g _
  have h2 : u.Alters (u.bump (.grCount g.s) 63 32 1) [.grooms, .regs] (GoneAt g) := .setReg u _ (.inl rfl)
  exact (h1.trans h2).trans (.pmG _ _ _ _ _ fun i => .inr ⟨i, rfl⟩)

theorem runGone_groom (t : State) (g : GroomId) (r : Run) :
    (t.runGone g r).groom g = { t.groom g with run := none, prevCtx := (t.ctx? r.ctx).map fun _ => r.ctx } := by
  have h : ∀ (u : State) c x n, (u.pmG g c x n).grooms = u.grooms := fun u c x n =>
    (State.Alters.pmG (F := [.regs]) (P := fun _ => True) u g c x n fun _ => trivial).grooms
  unfold State.runGone
  rw [groom_of_grooms (h ..)]
  have hb : ∀ (u : State), (u.bump (.grCount g.s) 63 32 1).groom g = u.groom g := fun u => groom_of_grooms rfl g
  rw [hb, groom_modGroom_same]

theorem runGone_count (t : State) (g : GroomId) (r : Run) :
    (t.runGone g r).rf (.grCount g.s) 63 32 = min (t.rf (.grCount g.s) 63 32 + 1) (2 ^ 32 - 1) ∧
      (t.runGone g r).rf (.grCount g.s) 31 16 = t.rf (.grCount g.s) 31 16 := by
  have h : ∀ (u : State) c x n hi lo, (u.pmG g c x n).rf (.grCount g.s) hi lo = u.rf (.grCount g.s) hi lo := fun u c x n hi lo =>
    (State.Alters.pmG (F := [.regs]) (P := fun a => ∃ i, a = (Reg.pmGcnt g i).addr) u g c x n fun i => ⟨i, rfl⟩).rf
      (fun ⟨i, e⟩ => Reg.RecordsExc.addr_ne_pmGcnt ⟨_, .inr rfl⟩ g i e) hi lo
  unfold State.runGone
  rw [h, h, rf_bump_same _ _ _ _ _ (by decide), rf_bump_other _ _ _ _ _ _ _ (by decide) (by decide)]
  exact ⟨rfl, rfl⟩

/-- The addresses that the locks' release and the report of a run's exception write, beside its records. -/
def EndAt (g : GroomId) (a : Nat) : Prop := HolderAt a ∨ FaultAt (.stall g.s) a

def endFields : List Field := .locks :: .grooms :: .out :: faultFields

theorem unlocked_alters (s : State) (g : GroomId) : s.Alters (s.unlocked g) endFields (EndAt g) := by
  have h : s.Alters (s.resetHolder (g.s.val / 8) (.run g)) endFields (EndAt g) := (State.Alters.resetHolder ..).mono (hP := fun _ => .inl)
  exact .ite (h.trans ((fault_alters ..).mono (hP := fun _ => .inr))) h

theorem not_endAt_of_off {q : Reg} (g : GroomId) (o : Nat) (ho : q.off = o)
    (h : o % 0x10000 ≠ 0xF000 ∧ o % 0x10000 ≠ 0xF018 ∧ o % 0x10000 ≠ 0x0008 ∧ o % 0x10000 ≠ 0 := by decide) : ¬ EndAt g q.addr := by
  obtain ⟨h1, h2, h3, h4⟩ := h
  rintro ((⟨d, e⟩ | ⟨d, e⟩ | ⟨l, e⟩) | e)
  · exact addr_ne_of_off o 0x0008 ho rfl h3 e
  · exact addr_ne_of_off o 0x0000 ho rfl h4 e
  · exact addr_ne_of_off o 0x20008 ho rfl h3 e
  · exact not_faultAt_of_off _ o ho ⟨h1, h2, h3⟩ e

/-! ### The report of an exception (R347) -/

theorem frozen_of_alters {t u : State} {F : List Field} {P : Nat → Prop} (h : t.Alters u F P) {b : Block}
    (hP : ∀ d : Dom, ¬ P (Reg.csStatus d).addr) : u.frozen b = t.frozen b := by
  have hd : ∀ d, u.domRuns d = t.domRuns d := fun d => by
    rw [State.domRuns, State.domRuns, State.domState, State.domState, h.rf (hP _)]
  cases b <;> simp [State.frozen, hd]

theorem State.Alters.modCtx {F : List Field} {P : Nat → Prop} (s : State) (c : Nat) (f : Ctx → Ctx) (hF : .ctxs ∈ F := by decide) :
    s.Alters (s.modCtx c f) F P := by
  unfold State.modCtx
  split
  · exact put_ctxs s _ hF
  · exact refl s

theorem ctx?_modCtx_same (s : State) (c : Nat) (f : Ctx → Ctx) : (s.modCtx c f).ctx? c = (s.ctx? c).map f := by
  unfold State.modCtx State.ctx?
  cases h : tFind s.ctxs c with
  | none => simp [h]
  | some x => simp [tFind_tPut_same]

/-- GR_FAULT as a run's exception leaves it, where it held none. -/
def faultWord (g : GroomId) (r : Run) (kind detail pc : Nat) (more : Nat) : Word :=
  mkWord 64 [(63, 63, 1), (62, 62, more), (61, 58, kind), (57, 50, detail), (49, 46, g.g.val), (45, 44, r.ref.kind), (43, 22, r.ctx), (17, 0, pc)]

theorem faultWord_fields (g : GroomId) (r : Run) (kind detail pc more : Nat) :
    bit (faultWord g r kind detail pc more) 63 = true ∧ fld (faultWord g r kind detail pc more) 61 58 = kind % 16 ∧
    fld (faultWord g r kind detail pc more) 57 50 = detail % 256 ∧ fld (faultWord g r kind detail pc more) 49 46 = g.g.val ∧
    fld (faultWord g r kind detail pc more) 45 44 = r.ref.kind % 4 ∧ fld (faultWord g r kind detail pc more) 17 0 = pc % 2 ^ 18 := by
  have hg := g.g.isLt
  refine ⟨?_, ?_, ?_, ?_, ?_, ?_⟩ <;>
    simp only [faultWord, mkWord, List.foldl_cons, List.foldl_nil]
  · rw [bit_setFld_other, bit_setFld_other, bit_setFld_other, bit_setFld_other, bit_setFld_other, bit_setFld_other, bit_setFld_other,
      bit_setFld_one] <;> decide
  all_goals simp [fld_setFld_same, fld_setFld_other]

/-- What a report makes of GR_FAULT and GR_FAULT_ADDR (R347). -/
def State.faultNoted (s : State) (g : GroomId) (r : Run) (kind detail addr pc : Nat) : State :=
  if s.rb (.grFault g.s) 63 then s.wb (.grFault g.s) 62 true
  else (s.setReg (.grFault g.s) (faultWord g r kind detail pc (b2n (s.rb (.grFault g.s) 62)))).setReg (.grFaultAddr g.s) (BitVec.ofNat 64 addr)

theorem faultNoted_alters (s : State) (g : GroomId) (r : Run) (kind detail addr pc : Nat) :
    s.Alters (s.faultNoted g r kind detail addr pc) [.regs] (fun a => a = (Reg.grFault g.s).addr ∨ a = (Reg.grFaultAddr g.s).addr) :=
  .ite (.setReg s _ (.inl rfl)) ((State.Alters.setReg s _ (.inl rfl)).trans (.setReg _ _ (.inr rfl)))

/-- GR_FAULT after the report: the first exception since it was cleared stands, and bit 62 says that there were more. -/
theorem faultNoted_spec (s : State) (g : GroomId) (r : Run) (kind detail addr pc : Nat) {t : State}
    (ht : t = s.faultNoted g r kind detail addr pc) : t.rb (.grFault g.s) 63 = true ∧
    (s.rb (.grFault g.s) 63 = true → t.rb (.grFault g.s) 62 = true ∧ t.rf (.grFault g.s) 61 58 = s.rf (.grFault g.s) 61 58) ∧
    (s.rb (.grFault g.s) 63 = false → t.rf (.grFault g.s) 61 58 = kind % 16 ∧ t.rf (.grFault g.s) 57 50 = detail % 256 ∧
      t.rf (.grFault g.s) 49 46 = g.g.val ∧ t.rf (.grFault g.s) 45 44 = r.ref.kind % 4 ∧ t.rf (.grFault g.s) 17 0 = pc % 2 ^ 18 ∧
      t.reg (.grFaultAddr g.s) = BitVec.ofNat 64 addr) := by
  subst ht
  unfold State.faultNoted
  cases h : s.rb (.grFault g.s) 63 with
  | true =>
    rw [if_pos rfl, rb_wb_bit_other (h := by decide) (hj := by decide), rb_wb_same _ _ _ _ (by decide), rf_wb_field _ _ _ _ _ _ (by decide) (by decide)]
    exact ⟨h, fun _ => ⟨rfl, rfl⟩, nofun⟩
  | false =>
    rw [if_neg (by decide)]
    obtain ⟨w, hw⟩ : ∃ w, w = faultWord g r kind detail pc (b2n (s.rb (.grFault g.s) 62)) := ⟨_, rfl⟩
    have hne : (Reg.grFault g.s).addr ≠ (Reg.grFaultAddr g.s).addr := addr_ne_of_off 0x5018 0x5020 rfl rfl (by decide)
    have hreg : ((s.setReg (.grFault g.s) w).setReg (.grFaultAddr g.s) (BitVec.ofNat 64 addr)).reg (.grFault g.s) = w := by
      rw [reg_setReg_other _ _ _ _ hne, reg_setReg_same]
    obtain ⟨h63, hrest⟩ := faultWord_fields g r kind detail pc (b2n (s.rb (.grFault g.s) 62))
    rw [← hw] at h63 hrest
    rw [← hw]
    simp only [State.rb, State.rf, hreg, reg_setReg_same]
    obtain ⟨hk, hd, hg, hr, hp⟩ := hrest
    exact ⟨h63, nofun, fun _ => ⟨hk, hd, hg, hr, hp, trivial⟩⟩

/-- The fields that the report of an exception changes. -/
def reportFields : List Field := .ctxs :: faultFields

/-- The addresses that it writes. -/
def ReportAt (g : GroomId) (a : Nat) : Prop :=
  a = (Reg.grFault g.s).addr ∨ a = (Reg.grFaultAddr g.s).addr ∨ a = (Reg.grCount g.s).addr ∨ FaultAt (.stall g.s) a

theorem postCtx_alters (s : State) (b : Block) (c code : Nat) (fs : List (Nat × Nat × Nat × Nat)) :
    s.Alters (s.postCtx c code fs) faultFields (fun a => FaultAt b a ∧ a ≠ (Reg.ftStatus b).addr) :=
  .postCtx s _ _ _ fun l => ⟨.inr (.inr ⟨l, rfl⟩), addr_ne_of_off 0x20008 0xF000 rfl rfl (by decide)⟩

/-- The report's count, NOTE and HANDLER_FAULT, before the binding is suspended. -/
def State.excPosted (s : State) (g : GroomId) (r : Run) (kind detail addr pc : Nat) : State :=
  ((s.bump (.grCount g.s) 31 16 1).fault (.stall g.s) .note 0x20 g.g.val).postCtx r.ctx 0x0701 [(2, 15, 8, detail),
    (3, 63, 32, r.ref.psn), (3, 31, 26, kind), (3, 25, 24, r.ref.kind), (3, 23, 23, b2n (!bit (r.bind.getD 2 0) 55)), (3, 17, 0, pc), (6, 63, 0, addr)]

theorem reportExc_eq (s : State) (g : GroomId) (r : Run) (kind detail addr pc : Nat) :
    s.reportExc g r kind detail addr pc =
      if !bit (r.bind.getD 2 0) 55 then
        ((s.faultNoted g r kind detail addr pc).excPosted g r kind detail addr pc).modCtx r.ctx
          fun x => { x with suspended := x.suspended ||| 2 ^ r.ref.kind }
      else (s.faultNoted g r kind detail addr pc).excPosted g r kind detail addr pc := rfl

theorem excPosted_alters (s : State) (g : GroomId) (r : Run) (kind detail addr pc : Nat) :
    s.Alters (s.excPosted g r kind detail addr pc) faultFields (fun a => a = (Reg.grCount g.s).addr ∨ FaultAt (.stall g.s) a) :=
  ((State.Alters.setReg s _ (.inl rfl)).trans ((fault_alters ..).mono (hP := fun _ => .inr))).trans
    ((postCtx_alters _ (.stall g.s) ..).mono (hP := fun _ h => .inr h.1))

theorem excPosted_spec (s : State) (g : GroomId) (r : Run) (kind detail addr pc : Nat) (hfz : s.frozen (.stall g.s) = false) :
    (s.excPosted g r kind detail addr pc).rf (.grCount g.s) 31 16 = min (s.rf (.grCount g.s) 31 16 + 1) 65535 ∧
    (s.excPosted g r kind detail addr pc).rb (.ftStatus (.stall g.s)) 0 = true := by
  have hcount : ¬ FaultAt (.stall g.s) (Reg.grCount g.s).addr := not_faultAt_of_off _ 0x5010 rfl (by decide)
  obtain ⟨u, hu⟩ : ∃ u, u = s.bump (.grCount g.s) 31 16 1 := ⟨_, rfl⟩
  have hsu : s.Alters u [.regs] (fun a => a = (Reg.grCount g.s).addr) := hu ▸ .setReg s _ rfl
  have hfzu : u.frozen (.stall g.s) = false := by
    rw [frozen_of_alters hsu fun d => addr_ne_of_off 0x7008 0x5010 rfl rfl (by decide), hfz]
  have hu16 : u.rf (.grCount g.s) 31 16 = min (s.rf (.grCount g.s) 31 16 + 1) 65535 := hu ▸ rf_bump_same _ _ _ _ _ (by decide)
  unfold State.excPosted
  rw [← hu, (postCtx_alters _ (.stall g.s) ..).rf (fun h => hcount h.1), (postCtx_alters _ (.stall g.s) ..).rb (fun h => h.2 rfl),
    (fault_alters ..).rf hcount, hu16]
  exact ⟨rfl, fault_status _ _ _ _ _ hfzu⟩

theorem reportExc_alters (s : State) (g : GroomId) (r : Run) (kind detail addr pc : Nat) :
    s.Alters (s.reportExc g r kind detail addr pc) reportFields (ReportAt g) := by
  have h1 := (faultNoted_alters s g r kind detail addr pc).mono (G := reportFields) (Q := ReportAt g)
    (hP := fun _ h => h.elim .inl fun h => .inr (.inl h))
  have h2 := (excPosted_alters (s.faultNoted g r kind detail addr pc) g r kind detail addr pc).mono (G := reportFields) (Q := ReportAt g)
    (hP := fun _ h => .inr (.inr h))
  rw [reportExc_eq]
  exact .ite ((h1.trans h2).trans (.modCtx ..)) (h1.trans h2)

/-- The report of a run's exception on an unfrozen stall is what R347 lists. -/
theorem reportExc_reported (s : State) (g : GroomId) (r : Run) (kind detail addr pc : Nat) (hfz : s.frozen (.stall g.s) = false) :
    s.Reported (s.reportExc g r kind detail addr pc) g r kind detail addr pc := by
  obtain ⟨u, hu⟩ : ∃ u, u = s.faultNoted g r kind detail addr pc := ⟨_, rfl⟩
  obtain ⟨v, hv⟩ : ∃ v, v = u.excPosted g r kind detail addr pc := ⟨_, rfl⟩
  have hsu := hu ▸ faultNoted_alters s g r kind detail addr pc
  have huv := hv ▸ excPosted_alters u g r kind detail addr pc
  have hfault : ¬ ((Reg.grFault g.s).addr = (Reg.grCount g.s).addr ∨ FaultAt (.stall g.s) (Reg.grFault g.s).addr) :=
    not_or.2 ⟨addr_ne_of_off 0x5018 0x5010 rfl rfl (by decide), not_faultAt_of_off _ 0x5018 rfl (by decide)⟩
  have haddr : ¬ ((Reg.grFaultAddr g.s).addr = (Reg.grCount g.s).addr ∨ FaultAt (.stall g.s) (Reg.grFaultAddr g.s).addr) :=
    not_or.2 ⟨addr_ne_of_off 0x5020 0x5010 rfl rfl (by decide), not_faultAt_of_off _ 0x5020 rfl (by decide)⟩
  have hcount : ¬ ((Reg.grCount g.s).addr = (Reg.grFault g.s).addr ∨ (Reg.grCount g.s).addr = (Reg.grFaultAddr g.s).addr) :=
    not_or.2 ⟨addr_ne_of_off 0x5010 0x5018 rfl rfl (by decide), addr_ne_of_off 0x5010 0x5020 rfl rfl (by decide)⟩
  have hfzu : u.frozen (.stall g.s) = false := by
    rw [frozen_of_alters hsu fun d => not_or.2 ⟨addr_ne_of_off 0x7008 0x5018 rfl rfl (by decide), addr_ne_of_off 0x7008 0x5020 rfl rfl (by decide)⟩, hfz]
  obtain ⟨hcnt, hnote⟩ := hv ▸ excPosted_spec u g r kind detail addr pc hfzu
  rw [hsu.rf hcount] at hcnt
  obtain ⟨hvalid, hold, hnew⟩ := faultNoted_spec s g r kind detail addr pc hu
  have hctx : ∀ c, v.ctx? c = s.ctx? c := fun c => by rw [State.ctx?, State.ctx?, huv.ctxs, hsu.ctxs]
  have hregs : ∀ {t : State}, t.regs = v.regs → (t.ctx? r.ctx).map (fun x => x.suspended) = (s.ctx? r.ctx).map (fun x =>
      if bit (r.bind.getD 2 0) 55 = false then x.suspended ||| 2 ^ r.ref.kind else x.suspended) → s.Reported t g r kind detail addr pc := by
    intro t ht hs
    have hreg : ∀ q, t.reg q = v.reg q := fun q => by rw [State.reg, State.reg, ht]
    have h1 : ∀ q i, t.rb q i = v.rb q i := fun q i => by rw [State.rb, State.rb, hreg]
    have h2 : ∀ q i j, t.rf q i j = v.rf q i j := fun q i j => by rw [State.rf, State.rf, hreg]
    simp only [State.Reported, h1, h2, hreg, huv.rb hfault, huv.rf hfault, huv.reg _ haddr]
    exact ⟨hvalid, hcnt, hnote, hold, hnew, hs⟩
  rw [reportExc_eq, ← hu, ← hv]
  cases hb : bit (r.bind.getD 2 0) 55 with
  | true =>
    refine hregs rfl ?_
    simp only [hb, hctx, Bool.not_true, Bool.false_eq_true, if_false, reduceCtorEq]
  | false =>
    refine hregs (State.Alters.regs (F := [.ctxs]) (P := fun _ => False) (.modCtx ..)) ?_
    rw [Bool.not_false, if_pos rfl, ctx?_modCtx_same, hctx]
    simp only [hb, if_true, Option.map_map, Function.comp_def]

end

/-! ### A run's end, from the locks' release to its count -/

section

variable {s : State} {g : GroomId} {r : Run}

theorem frozen_stall_of_runs (h : s.domRuns (g.s.val / 8) = true) : s.frozen (.stall g.s) = false := by simp [State.frozen, h]

theorem excReported_alters (s : State) (g : GroomId) (r : Run) : s.Alters (s.excReported g r) reportFields (ReportAt g) := by
  unfold State.excReported
  split
  · exact reportExc_alters ..
  · exact .refl s

/-- The report of an exception leaves the count of the runs that have ended. -/
theorem excReported_ended (s : State) (g : GroomId) (r : Run) : (s.excReported g r).rf (.grCount g.s) 63 32 = s.rf (.grCount g.s) 63 32 := by
  have hcount : ¬ FaultAt (.stall g.s) (Reg.grCount g.s).addr := not_faultAt_of_off _ 0x5010 rfl (by decide)
  have hpost : ∀ (u : State) k d a p, (u.excPosted g r k d a p).rf (.grCount g.s) 63 32 = u.rf (.grCount g.s) 63 32 := fun u k d a p => by
    unfold State.excPosted
    rw [(postCtx_alters _ (.stall g.s) ..).rf (fun h => hcount h.1), (fault_alters ..).rf hcount,
      rf_bump_other _ _ _ _ _ _ _ (by decide) (by decide)]
  have hnoted : ∀ k d a p, (s.faultNoted g r k d a p).rf (.grCount g.s) 63 32 = s.rf (.grCount g.s) 63 32 := fun k d a p =>
    (faultNoted_alters s g r k d a p).rf
      (not_or.2 ⟨addr_ne_of_off 0x5010 0x5018 rfl rfl (by decide), addr_ne_of_off 0x5010 0x5020 rfl rfl (by decide)⟩) _ _
  have hctx : ∀ (u : State) c f, (u.modCtx c f).rf (.grCount g.s) 63 32 = u.rf (.grCount g.s) 63 32 := fun u c f =>
    (State.Alters.modCtx (F := [.ctxs]) (P := fun _ => False) u c f).rf id _ _
  unfold State.excReported
  split
  · rw [reportExc_eq]
    split
    · rw [hctx, hpost, hnoted]
    · rw [hpost, hnoted]
  · rfl

/-- A report keeps which contexts there are. -/
theorem excReported_ctx (s : State) (g : GroomId) (r : Run) {α : Type} (x : α) :
    ((s.excReported g r).ctx? r.ctx).map (fun _ => x) = (s.ctx? r.ctx).map (fun _ => x) := by
  have hpost : ∀ k d a p, ((s.faultNoted g r k d a p).excPosted g r k d a p).ctx? r.ctx = s.ctx? r.ctx := fun k d a p => by
    rw [State.ctx?, State.ctx?, (excPosted_alters ..).ctxs, (faultNoted_alters ..).ctxs]
  unfold State.excReported
  split
  · rw [reportExc_eq]
    split
    · rw [ctx?_modCtx_same, hpost, Option.map_map]
      rfl
    · rw [hpost]
  · rfl

/-- A run's end up to the disposition of its packet: locks released, exception reported, run counted. -/
def State.ended (s : State) (g : GroomId) (r : Run) : State := ((s.unlocked g).excReported g r).runGone g r

/-- The fields that a run's end changes, before the disposition. -/
def endedFields : List Field := [.locks, .grooms, .out, .ctxs, .regs, .ht, .eqs, .ftPosted, .tack]

/-- The addresses that it writes. -/
def EndedAt (g : GroomId) (a : Nat) : Prop := EndAt g a ∨ ReportAt g a ∨ GoneAt g a

theorem ended_alters (s : State) (g : GroomId) (r : Run) : s.Alters (s.ended g r) endedFields (EndedAt g) :=
  (((unlocked_alters s g).mono (hP := fun _ => .inl)).trans ((excReported_alters ..).mono (hP := fun _ h => .inr (.inl h)))).trans
    ((runGone_alters ..).mono (hP := fun _ h => .inr (.inr h)))

theorem unlocked_of_none (hh : s.holds (g.s.val / 8) (.run g) = false) (hw : s.waitsOn (g.s.val / 8) (.run g) = none) : s.unlocked g = s := by
  unfold State.unlocked
  rw [hh, resetHolder_of_none hw hh]
  rfl

theorem unlocked_frozen (s : State) (g : GroomId) (b : Block) : (s.unlocked g).frozen b = s.frozen b :=
  frozen_of_alters (unlocked_alters s g) fun d => not_endAt_of_off g 0x7008 rfl

/-- A run that has ended is gone, and counted, where its locks' release has left the Grooms. -/
theorem ended_groom (hgrooms : (s.unlocked g).grooms = s.grooms) :
    (s.ended g r).groom g = { s.groom g with run := none, prevCtx := (s.ctx? r.ctx).map fun _ => r.ctx } := by
  have hu : (s.unlocked g).ctx? r.ctx = s.ctx? r.ctx := by rw [State.ctx?, State.ctx?, (unlocked_alters s g).ctxs]
  rw [State.ended, runGone_groom, excReported_ctx, hu, groom_of_grooms ((excReported_alters ..).grooms), groom_of_grooms hgrooms]

theorem ended_run (s : State) (g : GroomId) (r : Run) : ((s.ended g r).groom g).run = none := by rw [State.ended, runGone_groom]

theorem ended_count (s : State) (g : GroomId) (r : Run) :
    (s.ended g r).rf (.grCount g.s) 63 32 = min (s.rf (.grCount g.s) 63 32 + 1) (2 ^ 32 - 1) := by
  rw [State.ended, (runGone_count ..).1, excReported_ended, (unlocked_alters s g).rf (not_endAt_of_off g 0x5010 rfl)]

theorem addr_ne_pmGcnt_of_off {q : Reg} (o : Nat) (ho : q.off = o) (h : o % 0x10000 < 0xE800 ∨ 0xEC00 ≤ o % 0x10000) (g : GroomId) (i : Fin 8) :
    q.addr ≠ (Reg.pmGcnt g i).addr := by
  intro e
  have h1 := addr_mod q
  rw [ho, e, addr_mod] at h1
  simp only [Reg.off] at h1
  omega

theorem not_goneAt_of_off {q : Reg} (g : GroomId) (o : Nat) (ho : q.off = o) (h : o % 0x10000 ≠ 0x5010 := by decide)
    (hpm : ∀ i, q.addr ≠ (Reg.pmGcnt g i).addr) : ¬ GoneAt g q.addr := by
  rintro (e | ⟨i, e⟩)
  · exact addr_ne_of_off o 0x5010 ho rfl h e
  · exact hpm i e

/-- A run whose exception has been reported ends so. -/
theorem ended_reported {kind detail addr pc : Nat} (hexc : r.exc = some (kind, detail, addr, pc)) (hfz : s.frozen (.stall g.s) = false) :
    s.Reported (s.ended g r) g r kind detail addr pc := by
  have hu := unlocked_alters s g
  have hrep : (s.unlocked g).Reported ((s.unlocked g).excReported g r) g r kind detail addr pc := by
    rw [State.excReported, hexc]
    exact reportExc_reported _ _ _ _ _ _ _ (by rw [unlocked_frozen, hfz])
  have hgone := runGone_alters ((s.unlocked g).excReported g r) g r
  have hf := not_goneAt_of_off (q := .grFault g.s) g 0x5018 rfl (by decide) fun i => Reg.RecordsExc.addr_ne_pmGcnt ⟨_, .inl rfl⟩ g i
  have ha := not_goneAt_of_off (q := .grFaultAddr g.s) g 0x5020 rfl (by decide) fun i => addr_ne_pmGcnt_of_off 0x5020 rfl (by decide) g i
  have hst := not_goneAt_of_off (q := .ftStatus (.stall g.s)) g 0xF000 rfl (by decide) fun i => addr_ne_pmGcnt_of_off 0xF000 rfl (by decide) g i
  have hf' : ¬ EndAt g (Reg.grFault g.s).addr := not_endAt_of_off g 0x5018 rfl
  have hc' : ¬ EndAt g (Reg.grCount g.s).addr := not_endAt_of_off g 0x5010 rfl
  have hctx : ∀ c, (((s.unlocked g).excReported g r).runGone g r).ctx? c = ((s.unlocked g).excReported g r).ctx? c := fun c => by
    rw [State.ctx?, State.ctx?, hgone.ctxs]
  have hctx' : ∀ c, (s.unlocked g).ctx? c = s.ctx? c := fun c => by rw [State.ctx?, State.ctx?, hu.ctxs]
  simp only [State.Reported, State.ended, hgone.rb hf, hgone.rf hf, hgone.rb hst, hgone.reg _ ha, (runGone_count ..).2, hctx] at hrep ⊢
  simpa only [hu.rb hf', hu.rf hf', hu.rf hc', hctx'] using hrep

theorem doRunEnd_event (hdom : s.domRuns (g.s.val / 8) = true) (hrun : (s.groom g).run = some r) (hover : r.halted = true ∨ r.exc.isSome = true)
    (hidle : r.handles = [] ∧ r.stores = []) (hk : r.ref.kind ≠ 0) : doRunEnd g s = s.ended g r := by
  rw [doRunEnd_eq hdom hrun hover hidle, if_neg hk]
  rfl

/-- The end of a run of no packet. -/
theorem runEnd_event (hc : s.Calm) (hlive : s.live (.stall g.s) = true ∧ s.domRuns (g.s.val / 8) = true) (hrun : (s.groom g).run = some r)
    (hover : r.halted = true ∨ r.exc.isSome = true) (hidle : r.handles = [] ∧ r.stores = []) (hk : r.ref.kind ≠ 0) :
    exec (.runEnd g) s = .next (s.ended g r) :=
  act_of_alters hlive.1 hc (doRunEnd_event hlive.2 hrun hover hidle hk) (ended_alters s g r)

end

/-! ### The packet of a header run (R331) -/

section

variable {s : State} {g : GroomId} {r : Run}

theorem State.Alters.modTfl {F : List Field} {P : Nat → Prop} (s : State) (n : Nat) (f : TFlow → TFlow) (hF : .tfl ∈ F := by decide) :
    s.Alters (s.modTfl n f) F P := by
  unfold State.modTfl
  split
  · exact put_tfl s _ hF
  · exact refl s

theorem tfl_modTfl_same (s : State) (n : Nat) (f : TFlow → TFlow) : tFind (s.modTfl n f).tfl n = (tFind s.tfl n).map f := by
  unfold State.modTfl
  cases h : tFind s.tfl n with
  | none => simpa using h
  | some x => simp [tFind_tPut_same]

/-- A target flow whose packet of a PSN is at a stage of its delivery. -/
def TFlow.staged (f : TFlow) (psn stage : Nat) : TFlow :=
  { f with issued := f.issued.map (fun i => if i.psn = psn then { i with stage := stage } else i) }

/-- A target flow with no packet of a PSN in delivery. -/
def TFlow.without (f : TFlow) (psn : Nat) : TFlow := { f with issued := f.issued.filter (fun i => i.psn ≠ psn) }

/-- A disposition that discards the packet takes it off those in delivery. -/
theorem disposePkt_discard {tf psn disp left : Nat} {p : Pkt} {f : TFlow} (hp : s.issuedPkt tf psn = some p) (hf : tFind s.tfl tf = some f)
    (hd : 2 ≤ disp) : s.Alters (s.disposePkt tf psn disp left) [.tfl] (fun _ => False) ∧
      tFind (s.disposePkt tf psn disp left).tfl tf = some ((f.staged psn (2 + left)).without psn) := by
  have he : s.disposePkt tf psn disp left = (s.modTfl tf fun t => t.staged psn (2 + left)).modTfl tf fun t => t.without psn := by
    obtain ⟨d, rfl⟩ : ∃ d, disp = d + 2 := ⟨disp - 2, by omega⟩
    unfold State.disposePkt
    simp only [hp, hf]
    rfl
  rw [he]
  refine ⟨(State.Alters.modTfl ..).trans (.modTfl ..), ?_⟩
  rw [tfl_modTfl_same, tfl_modTfl_same, hf]
  rfl

theorem filter_staged (xs : List Issued) (psn stage : Nat) :
    (xs.map fun i => if i.psn = psn then { i with stage := stage } else i).filter (fun i => i.psn ≠ psn) =
      xs.filter fun i => i.psn ≠ psn := by
  induction xs with
  | nil => rfl
  | cons x xs ih =>
    by_cases h : x.psn = psn
    · simpa [h] using ih
    · simpa [h] using ih

/-- The end of a header run whose packet is discarded. -/
theorem runEnd_discard {p : Pkt} {f : TFlow} (hc : s.Calm) (hlive : s.live (.stall g.s) = true ∧ s.domRuns (g.s.val / 8) = true)
    (hrun : (s.groom g).run = some r) (hdisp : (r.halted = true ∧ (r.get 1).toNat = 2) ∨ r.exc.isSome = true)
    (hidle : r.handles = [] ∧ r.stores = []) (hk : r.ref.kind = 0) (hp : s.issuedPkt r.ref.tf r.ref.psn = some p)
    (hf : tFind s.tfl r.ref.tf = some f) (hh : s.holds (g.s.val / 8) (.run g) = false) (hw : s.waitsOn (g.s.val / 8) (.run g) = none) :
    ∃ t, exec (.runEnd g) s = .next t ∧ t.groom g = { s.groom g with run := none, prevCtx := (s.ctx? r.ctx).map fun _ => r.ctx } ∧
      (tFind t.tfl r.ref.tf).map (fun f => f.issued) = some (f.issued.filter fun i => i.psn ≠ r.ref.psn) ∧
      (tFind t.tfl r.ref.tf).map (fun f => (f.cum, f.deliv)) = some (f.cum, f.deliv) ∧ t.hbm = s.hbm := by
  obtain ⟨u, hu⟩ : ∃ u, u = s.ended g r := ⟨_, rfl⟩
  have hsu := hu ▸ ended_alters s g r
  have hgroom := hu ▸ ended_groom (g := g) (r := r) (congrArg State.grooms (unlocked_of_none hh hw))
  have hpu : u.issuedPkt r.ref.tf r.ref.psn = some p := by rw [← hp, State.issuedPkt, State.issuedPkt, hsu.tfl]
  have hfu : tFind u.tfl r.ref.tf = some f := by rw [hsu.tfl, hf]
  have hd : 2 ≤ if r.exc.isSome then 3 else (r.get 1).toNat := by
    split
    · decide
    · have h := hdisp.resolve_right ‹_›
      rw [h.2]
  obtain ⟨hut, htf⟩ := disposePkt_discard (left := r.budget) hpu hfu hd
  have he : doRunEnd g s = u.disposePkt r.ref.tf r.ref.psn (if r.exc.isSome then 3 else (r.get 1).toNat) r.budget := by
    rw [doRunEnd_eq hlive.2 hrun (hdisp.imp_left fun h => h.1) hidle, if_pos hk, hu]
    rfl
  refine ⟨_, act_of_alters hlive.1 hc he ((hsu.mono (G := .tfl :: endedFields)).trans (hut.mono (Q := EndedAt g) (hP := nofun))), ?_, ?_, ?_, ?_⟩
  · rw [groom_of_grooms hut.grooms, hgroom]
  · rw [htf, Option.map_some]
    exact congrArg some (filter_staged ..)
  · rw [htf]
    rfl
  · rw [hut.hbm, hsu.hbm]

/-! ### Deadlines, resets and fences (R334, R345, R349, R465) -/

theorem raise_of_no_run (hrun : (s.groom g).run = none) (kind detail addr : Nat) : s.raise g kind detail addr = s := by
  unfold State.raise
  rw [hrun]

/-- A run with no exception raises one, and its Groom keeps the rest. -/
theorem raise_groom (hrun : (s.groom g).run = some r) (hexc : r.exc = none) (kind detail addr : Nat) :
    (s.raise g kind detail addr).groom g = { s.groom g with run := some { r with exc := some (kind, detail, addr, r.pc), wait := .none } } := by
  have hpm : ∀ (u : State) c x n, (u.pmG g c x n).groom g = u.groom g := fun u c x n =>
    groom_of_grooms (State.Alters.pmG (F := [.regs]) (P := fun _ => True) u g c x n fun _ => trivial).grooms g
  have hwb : ∀ (u : State) i b, (u.wb (.grStatus g.s) i b).groom g = u.groom g := fun u i b => groom_of_grooms rfl g
  have hdrop : ∀ (u : State) d m, (u.dropWaits d m).groom g = u.groom g := fun u d m =>
    groom_of_grooms (State.Alters.dropWaits (F := [.locks]) (P := fun _ => False) u d m).grooms g
  unfold State.raise
  simp only [hrun, hexc, Option.isSome_none, Bool.false_eq_true, if_false, hpm, apply_ite (fun u : State => u.groom g), hwb, hdrop, ite_self,
    groom_modRun_same, Option.map_some]

theorem raised_of_run (hrun : (s.groom g).run = some r) (hexc : r.exc = none) (kind detail addr : Nat) :
    s.Raised (s.raise g kind detail addr) g r kind detail addr :=
  raised_of_executes (e := r.events) (n := r.budget) (b := r.timerHit) hexc (.refl hrun) kind detail addr

theorem doGroomReset_run (hdom : s.domRuns (g.s.val / 8) = true) (hrun : (s.groom g).run = some r) (hexc : r.exc = none)
    (hf : (s.groom g).fenced = false) : doGroomReset g s = s.raise g 14 0 0 := by
  unfold doGroomReset
  rw [if_neg (by simp [frozen_stall_of_runs hdom]), if_neg]
  rw [raise_groom hrun hexc]
  simp [hf]

/-- A Groom marked as fenced. -/
def State.fencing (s : State) (g : GroomId) : State :=
  (s.modGroom g fun x => { x with fenced := true }).wb (.grCtrl g.s) (32 + g.g.val) true

theorem doGroomFenced_eq (hdom : s.domRuns (g.s.val / 8) = true) (hf : (s.groom g).fenced = false) :
    doGroomFenced g s = ((s.raise g 14 0 0).fencing g).fault (.stall g.s) .fence 0x80 g.g.val := by
  unfold doGroomFenced
  rw [if_neg (by simp [frozen_stall_of_runs hdom, hf])]
  rfl

theorem fencing_alters (s : State) (g : GroomId) : s.Alters (s.fencing g) [.grooms, .regs] (fun a => a = (Reg.grCtrl g.s).addr) :=
  (State.Alters.modGroom s g fun x => { x with fenced := true }).trans (.setReg (r := .grCtrl g.s) _ _ rfl)

/-- What the fence of a Groom shows and leaves. -/
theorem fencing_fault {t : State} (ht : t = (s.fencing g).fault (.stall g.s) .fence 0x80 g.g.val) :
    t.groom g = { s.groom g with fenced := true } ∧ t.rb (.grCtrl g.s) (32 + g.g.val) = true ∧
      s.Alters t (.grooms :: faultFields) (fun a => a = (Reg.grCtrl g.s).addr ∨ FaultAt (.stall g.s) a) := by
  have hg := g.g.isLt
  obtain ⟨u, hu⟩ : ∃ u, u = s.fencing g := ⟨_, rfl⟩
  rw [← hu] at ht
  have hut := ht ▸ fault_alters u (.stall g.s) .fence 0x80 g.g.val
  have hgroom : u.groom g = { s.groom g with fenced := true } := by
    rw [hu, State.fencing]
    exact (groom_of_grooms rfl g).trans (groom_modGroom_same s g fun x => { x with fenced := true })
  have hsu := hu ▸ fencing_alters s g
  refine ⟨by rw [groom_of_grooms hut.grooms, hgroom], ?_, (hsu.mono (hP := fun _ => .inl)).trans (hut.mono (hP := fun _ => .inr))⟩
  rw [hut.rb (not_faultAt_of_off _ 0x5000 rfl (by decide)), hu]
  exact rb_wb_same _ _ _ _ (by omega)

/-! ### GR_RESUME (R347, R350) -/

/-- The bindings that a write of GR_RESUME leaves suspended. -/
def keepBits (w : Word) (n : Nat) : Nat := b2n (n.testBit 0 && !bit w 60) + 2 * b2n (n.testBit 1 && !bit w 59) + 4 * b2n (n.testBit 2 && !bit w 58)

theorem keepBits_mod (w : Word) (n : Nat) : keepBits w n % 8 =
    (n % 8) &&& (7 - (if bit w 60 = true then 1 else 0) - (if bit w 59 = true then 2 else 0) - (if bit w 58 = true then 4 else 0)) := by
  have hm : n % 8 < 8 := Nat.mod_lt _ (by decide)
  have h0 : n.testBit 0 = (n % 8).testBit 0 := (Nat.testBit_mod_two_pow n 3 0).symm
  have h1 : n.testBit 1 = (n % 8).testBit 1 := (Nat.testBit_mod_two_pow n 3 1).symm
  have h2 : n.testBit 2 = (n % 8).testBit 2 := (Nat.testBit_mod_two_pow n 3 2).symm
  rw [keepBits, h0, h1, h2]
  generalize bit w 60 = a
  generalize bit w 59 = b
  generalize bit w 58 = c
  generalize n % 8 = m at hm
  revert a b c
  interval_cases m <;> decide

/-- GR_RESUME answered: its result, and go clear. -/
def State.resumeDone (s : State) (n : Stall) (res : Nat) : State := (s.wf (.grResume n) 62 61 res).wb (.grResume n) 63 false

theorem resumeDone_spec (s : State) (n : Stall) {res : Nat} (h : res < 4) :
    (s.resumeDone n res).rf (.grResume n) 62 61 = res ∧ (s.resumeDone n res).rb (.grResume n) 63 = false := by
  unfold State.resumeDone
  rw [rf_wb_field _ _ _ _ _ _ (by decide) (by decide), rf_wf_same _ _ _ _ _ (by decide), rb_wb_same _ _ _ _ (by decide)]
  exact ⟨Nat.mod_eq_of_lt h, rfl⟩

theorem doGrResume_eq {n : Stall} (hdom : s.domRuns (n.val / 8) = true) :
    doGrResume n s = if (s.ctx? (s.rf (.grResume n) 21 0)).isNone ∨ s.ctxStall (s.rf (.grResume n) 21 0) ≠ n.val then s.resumeDone n 2
      else (s.modCtx (s.rf (.grResume n) 21 0) fun x => { x with suspended := keepBits (s.reg (.grResume n)) x.suspended }).resumeDone n 1 := by
  unfold doGrResume
  rw [if_neg (by simp [State.frozen, hdom])]
  rfl

end

theorem newRun_runqs (s : State) (qs : Tab RunQ) (x : RunRef) : State.newRun { s with runqs := qs } x = s.newRun x := rfl

theorem resumeDone_alters {s t : State} {n : Stall} {res : Nat} (h : s.Alters t [.ctxs, .regs] (fun a => a = (Reg.grResume n).addr)) :
    s.Alters (t.resumeDone n res) [.ctxs, .regs] (fun a => a = (Reg.grResume n).addr) :=
  have h1 : t.Alters (t.wf (.grResume n) 62 61 res) [.ctxs, .regs] (fun a => a = (Reg.grResume n).addr) := .setReg t _ rfl
  h.trans (h1.trans (.setReg _ _ rfl))

/-- Settles O37. A dispatch takes the first run of its queue; the end of a run is the release of its locks, the report of its
exception, its count and the disposition of its packet in that order; a deadline, a reset and a fence raise an exception, which its end
reports. -/
theorem runsStartAndEnd : Obligations.RunsStartAndEnd := by
  unfold Obligations.RunsStartAndEnd
  refine ⟨?_, ?_, ?_, ?_, ?_, ?_, ?_, ?_, ?_, ?_, ?_, ?_, ?_, ?_⟩
  case refine_1 =>
    intro s g q x rest w1 hc hlive hhold hrun hf hctrl hq hx hser hk hw hstop
    subst hw hq
    have he := dispatch_eq ⟨hlive.2, hhold, hrun, hf, hctrl.1, hctrl.2, hstop⟩ hser false hx
    obtain ⟨qs, hqs⟩ : ∃ qs, qs = tSet {} g.s.val ((s.runq g.s.val).less false rest) s.runqs := ⟨_, rfl⟩
    rw [← hqs] at he
    have hg := startRun_groom { s with runqs := qs } g x
    rw [newRun_runqs] at hg
    refine ⟨_, act_of_alters hlive.1 hc he (dispatch_alters qs), ?_, ?_, ?_, rfl⟩
    · rw [hg]
      rcases hk with h | h <;> simp [State.newRun, runRegs, runEntry, h]
    · rw [hg]
      rfl
    · exact hqs ▸ tGet_tSet_same ..
  case refine_2 =>
    intro s g q x rest hc hlive hhold hrun hf hctrl hq hx hser hk hstop
    subst hq
    have he := dispatch_eq ⟨hlive.2, hhold, hrun, hf, hctrl.1, hctrl.2, hstop⟩ hser true hx
    obtain ⟨qs, hqs⟩ : ∃ qs, qs = tSet {} g.s.val ((s.runq g.s.val).less true rest) s.runqs := ⟨_, rfl⟩
    rw [← hqs] at he
    have hg := startRun_groom { s with runqs := qs } g x
    rw [newRun_runqs] at hg
    refine ⟨_, act_of_alters hlive.1 hc he (dispatch_alters qs), ?_, ?_, ?_, ?_, rfl⟩
    · rw [hg]
      simp [State.newRun, runEntry, hk]
    · rw [hg]
      simp [State.newRun, runRegs, hk]
    · rw [hg]
      rfl
    · exact hqs ▸ tGet_tSet_same ..
  case refine_3 =>
    intro s g r hc hlive hrun hover hidle hk hh hw
    have hun : s.unlocked g = s := unlocked_of_none hh hw
    refine ⟨_, runEnd_event hc hlive hrun (.inl hover.1) hidle hk, ended_groom (congrArg State.grooms hun), ended_count .., ?_⟩
    rw [State.ended, hun, State.excReported, hover.2]
    exact pmG_induction (P := fun t : State => t = { s with grooms := t.grooms, regs := t.regs }) 0x0103 r.ctx 1 rfl fun t i v h => by rw [h]; rfl
  case refine_4 =>
    intro s g r kind detail addr pc hc hlive hrun hexc hidle hk
    have hover : r.exc.isSome = true := by rw [hexc]; rfl
    exact ⟨_, runEnd_event hc hlive hrun (.inr hover) hidle hk, ended_run .., ended_reported hexc (frozen_stall_of_runs hlive.2), ended_count ..⟩
  case refine_5 =>
    intro s g r n hc hlive hrun hover hidle hk hlocks hn
    obtain ⟨t, ht, hlock, hstatus, hgrooms⟩ := resetHolder_single hlocks hn
    have hholds : s.holds (g.s.val / 8) (.run g) = true := by
      unfold State.holds
      rw [hlocks, List.any_cons]
      simp
      omega
    have hfz := frozen_stall_of_runs hlive.2
    have hun : s.unlocked g = t.fault (.stall g.s) .note 0x21 g.g.val := by
      rw [State.unlocked, if_pos hholds, ht]
    have htu := hun ▸ fault_alters t (.stall g.s) .note 0x21 g.g.val
    have hfzt : t.frozen (.stall g.s) = false := by
      rw [← ht, frozen_of_alters (State.Alters.resetHolder ..) fun d h => not_endAt_of_off g 0x7008 rfl (by decide) (.inl h), hfz]
    have hnote : (s.unlocked g).rb (.ftStatus (.stall g.s)) 0 = true := hun ▸ fault_status _ _ _ _ _ hfzt
    refine ⟨_, runEnd_event hc hlive hrun hover hidle hk, ended_groom (by rw [htu.grooms, hgrooms]), ?_, ?_, ?_⟩
    · rw [State.ended, lock_of_locks ((runGone_alters ..).locks.trans ((excReported_alters ..).locks.trans htu.locks)), hlock]
    · rw [State.ended, (runGone_alters ..).rb (not_goneAt_of_off (q := .hkStatus (domOf (g.s.val / 8))) g 0x0000 rfl (by decide)
          fun i => addr_ne_pmGcnt_of_off 0x0000 rfl (by decide) g i), (excReported_alters ..).rb (not_or.2
          ⟨addr_ne_of_off 0x0000 0x5018 rfl rfl (by decide), not_or.2 ⟨addr_ne_of_off 0x0000 0x5020 rfl rfl (by decide),
            not_or.2 ⟨addr_ne_of_off 0x0000 0x5010 rfl rfl (by decide), not_faultAt_of_off _ 0x0000 rfl (by decide)⟩⟩⟩),
        htu.rb (not_faultAt_of_off _ 0x0000 rfl (by decide)), hstatus]
    · cases hexc : r.exc with
      | some e => exact (ended_reported hexc hfz).2.2.1
      | none =>
        rw [State.ended, (runGone_alters ..).rb (not_goneAt_of_off (q := .ftStatus (.stall g.s)) g 0xF000 rfl (by decide)
          fun i => addr_ne_pmGcnt_of_off 0xF000 rfl (by decide) g i), State.excReported, hexc, hnote]
  case refine_6 =>
    intro s g r p f hc hlive hrun hdisp hidle hk hp hf hh hw
    exact runEnd_discard hc hlive hrun hdisp hidle hk hp hf hh hw
  case refine_7 =>
    intro s u g dt r hu hc hlive hrun hgoing hlate
    subst hu
    have he : doRunTimeout g (s.elapse dt) = (s.elapse dt).raise g 12 0 0 := by
      unfold doRunTimeout
      rw [hrun]
      exact if_neg (by simp [frozen_stall_of_runs hlive.2, hgoing.1, hgoing.2, hlate])
    exact ⟨_, act_of_alters hlive.1 hc he (.raise ..), raised_of_run hrun hgoing.2 12 0 0, (raise_status hrun hgoing.2 12 0 0).2 rfl⟩
  case refine_8 =>
    intro s u g dt r hu hc hlive hrun hgoing htimer
    subst hu
    have he : doGroomTimerEvent g (s.elapse dt) = (s.elapse dt).modRun g fun _ => (s.elapse dt).latchTimer r := by
      unfold doGroomTimerEvent
      rw [hrun]
      exact if_neg (by simp [frozen_stall_of_runs hlive.2, hgoing.1, hgoing.2])
    refine ⟨_, act_of_alters hlive.1 hc he (.modRun (F := [.grooms]) (P := fun _ => False) ..), ?_, rfl⟩
    rw [groom_modRun_same, hrun, State.latchTimer, if_pos htimer]
    rfl
  case refine_9 =>
    intro s g r hc hlive hrun hexc hf
    exact ⟨_, act_of_alters hlive.1 hc (doGroomReset_run hlive.2 hrun hexc hf) (.raise ..), raised_of_run hrun hexc 14 0 0⟩
  case refine_10 =>
    intro s g hc hlive hrun hf
    have he : doGroomReset g s = s.modGroom g fun x => { x with fenced := false, scratch := [] } := by
      unfold doGroomReset
      rw [if_neg (by simp [frozen_stall_of_runs hlive.2]), raise_of_no_run hrun, if_pos hf]
    exact ⟨_, act_of_alters hlive.1 hc he (.modGroom (F := [.grooms]) (P := fun _ => False) ..), groom_modGroom_same .., rfl⟩
  case refine_11 =>
    intro s g hc hlive hrun hf
    have he := doGroomFenced_eq hlive.2 hf
    rw [raise_of_no_run hrun] at he
    have hnofault : (s.fencing g).frozen (.stall g.s) = false := by
      rw [frozen_of_alters (fencing_alters s g) fun d => addr_ne_of_off 0x7008 0x5000 rfl rfl (by decide), frozen_stall_of_runs hlive.2]
    obtain ⟨hg, hctrl, ha⟩ := fencing_fault (s := s) (g := g) rfl
    exact ⟨_, act_of_alters hlive.1 hc he ha, hg, hctrl, fault_status _ _ _ _ _ hnofault, ha.hbm, ha.buf, ha.locks⟩
  case refine_12 =>
    intro s g r hc hlive hrun hexc hf
    have he := doGroomFenced_eq hlive.2 hf
    obtain ⟨hg, hctrl, ha⟩ := fencing_fault (s := s.raise g 14 0 0) (g := g) rfl
    have hr := (State.Alters.raise s g 14 0 0).mono (G := .locks :: .grooms :: faultFields) (Q := fun a => RaiseAt g a ∨ a = (Reg.grCtrl g.s).addr ∨ FaultAt (.stall g.s) a)
      (hP := fun _ => .inl)
    have hall := hr.trans (ha.mono (hP := fun _ => .inr))
    obtain ⟨hx, hrest, hscratch, hbuf, hstatus, hfault, hcount⟩ := raised_of_run hrun hexc 14 0 0
    refine ⟨_, act_of_alters hlive.1 hc he hall, ⟨?_, ?_, ?_, ?_, ?_, ?_, ?_⟩, ?_, hctrl⟩
    · rw [hg]
      exact hx
    · rw [hg]
      exact hrest
    · rw [hg]
      exact hscratch
    · rw [ha.buf, hbuf]
    · rw [ha.rb (not_or.2 ⟨addr_ne_of_off 0x5008 0x5000 rfl rfl (by decide), not_faultAt_of_off _ 0x5008 rfl (by decide)⟩), hstatus]
    · rw [ha.reg _ (not_or.2 ⟨addr_ne_of_off 0x5018 0x5000 rfl rfl (by decide), not_faultAt_of_off _ 0x5018 rfl (by decide)⟩), hfault]
    · rw [ha.reg _ (not_or.2 ⟨addr_ne_of_off 0x5010 0x5000 rfl rfl (by decide), not_faultAt_of_off _ 0x5010 rfl (by decide)⟩), hcount]
    · rw [hg]
  case refine_13 =>
    intro s n x c hc hlive hcs hx hst
    subst hcs
    have he : doGrResume n s = _ := doGrResume_eq hlive.2
    rw [if_neg (by simp [hx, hst])] at he
    obtain ⟨hres, hgo⟩ := resumeDone_spec (s.modCtx (s.rf (.grResume n) 21 0) fun x =>
      { x with suspended := keepBits (s.reg (.grResume n)) x.suspended }) n (res := 1) (by decide)
    have hctx : ∀ (u : State) c, (u.resumeDone n 1).ctx? c = u.ctx? c := fun _ _ => rfl
    refine ⟨_, act_of_alters hlive.1 hc he (resumeDone_alters (.modCtx ..)), ?_, hres, hgo, ?_⟩
    · rw [hctx, ctx?_modCtx_same, hx]
      exact congrArg some (keepBits_mod ..)
    · rw [State.modCtx, hx]
      rfl
  case refine_14 =>
    intro s n hc hlive hx
    have he : doGrResume n s = _ := doGrResume_eq hlive.2
    rw [if_pos (by simp [hx])] at he
    obtain ⟨hres, hgo⟩ := resumeDone_spec s n (res := 2) (by decide)
    exact ⟨_, act_of_alters hlive.1 hc he (resumeDone_alters (.refl s)), hres, hgo, rfl⟩

end Sys2Proof.Machine
end

section
/-! PROOFS. The completion of a command of a queue in its ring, and what a command meets before its effect (R177, R182, R199). -/

namespace Sys2Proof.Machine

-- The proofs are elaborated one after another: in parallel their threads' stacks need more memory than a compile may have.
set_option Elab.async false

/-! ### A queue's record at a completion -/

/-- What a completion written leaves of a queue's record but its open entries and its oldest count. -/
structure Cq.SameBut (c d : Cq) : Prop where
  dying : d.dying = c.dying
  flushing : d.flushing = c.flushing
  link : d.link = c.link
  state : d.state = c.state

theorem Cq.settleOldest_sameBut (n : Nat) (c : Cq) : c.SameBut (c.settleOldest n) := by
  induction n generalizing c with
  | zero => exact ⟨rfl, rfl, rfl, rfl⟩
  | succ n ih =>
    unfold Cq.settleOldest
    split
    · split
      · obtain ⟨h1, h2, h3, h4⟩ := ih { c with oldest := max c.oldest (_ + _), open_ := _ }
        exact ⟨h1, h2, h3, h4⟩
      · exact ⟨rfl, rfl, rfl, rfl⟩
    · exact ⟨rfl, rfl, rfl, rfl⟩

theorem Cq.closeEntry_sameBut (c : Cq) (count : Nat) : c.SameBut (c.closeEntry count) := by
  obtain ⟨h1, h2, h3, h4⟩ := Cq.settleOldest_sameBut c.open_.length { c with open_ := c.open_.map fun e => if e.1 = count then (e.1, e.2.1, true) else e }
  unfold Cq.closeEntry
  simp only [List.length_map]
  exact ⟨h1, h2, h3, h4⟩

/-! ### Host links' queues -/

section

variable {s : State}

theorem tl_modTl_same (s : State) (h : Nat) (f : HostTl → HostTl) : (s.modTl h f).tl h = f (s.tl h) := tGet_tMod_same ..

theorem State.Alters.modTl {F : List Field} {P : Nat → Prop} (s : State) (h : Nat) (f : HostTl → HostTl) (hF : .ht ∈ F := by decide) :
    s.Alters (s.modTl h f) F P := put_ht s _ hF

theorem sendReq_of_up {h : Nat} (hup : s.hlLost h = false) (x : ReqTlp) :
    s.sendReq h x = s.modTl h fun y => { y with reqQ := y.reqQ ++ [x] } := by
  rw [State.sendReq, if_neg (by simp [hup])]

/-- A write of one page is one request. -/
theorem hostWrite_one {h fn a : Nat} {ctx : Option Nat} {bs : List Byte} {tok : Tok} (hn : 0 < bs.length) (hp : a % 4096 + bs.length ≤ 4096) :
    s.hostWrite h fn ctx a bs tok = s.sendReq h (.wr ⟨a, bs, false, ctx, fn, 0, tok⟩) := by
  unfold State.hostWrite
  rw [pageSplit_one hn hp, List.foldl_cons, List.foldl_nil, List.drop_zero, List.take_length]
  rfl

end

/-! ### A command's completion (R177, R199) -/

section

variable {s : State} {op : Nat} {o : Op} {c : Cq}

/-- A command's record gone, its completion sent to its ring, and its entry closed. -/
def State.completed (s : State) (op : Nat) (o : Op) (c : Cq) (status detail : Nat) : State :=
  ((State.sendReq { s with ops := tDel op s.ops } c.link (c.cpl o status detail))).modCq o.queue fun c => c.closeEntry o.count

/-- A command that raises no counter as it completes. -/
def Op.Countless (o : Op) : Prop := raisesCt (hdrOp (o.w 0)) = false ∨ cmdCt o.words = 0xFFF

theorem ctOk_none (s : State) (c : Nat) : s.ctOk c 0xFFF = false := by
  rw [State.ctOk, decide_eq_false_iff_not, not_lt]
  have h := fld_lt (s.ctxWord c 4) 63 52
  omega

theorem queueIdle_of_calm {q : Nat} {d : Cq} (hq : tFind s.cqs q = some d) (hd : d.dying = false) (hf : d.flushing = none) :
    s.queueIdle q = (s, none) := by
  unfold State.queueIdle
  simp only [hq, hd, hf, Bool.false_eq_true, if_false]

theorem cqs_modCq_same (s : State) (q : Nat) (f : Cq → Cq) : tFind (s.modCq q f).cqs q = (tFind s.cqs q).map f := by
  unfold State.modCq
  cases h : tFind s.cqs q with
  | none => simpa using h
  | some x => simp [tFind_tPut_same]

theorem State.Alters.modCq {F : List Field} {P : Nat → Prop} (s : State) (q : Nat) (f : Cq → Cq) (hF : .cqs ∈ F := by decide) :
    s.Alters (s.modCq q f) F P := by
  unfold State.modCq
  split
  · exact put_cqs s _ hF
  · exact refl s

theorem State.Alters.modOp {F : List Field} {P : Nat → Prop} (s : State) (n : Nat) (f : Op → Op) (hF : .ops ∈ F := by decide) :
    s.Alters (s.modOp n f) F P := by
  unfold State.modOp
  split
  · exact put_ops s _ hF
  · exact refl s

theorem putCpl_header {q count a : Nat} {w : List Byte} (hw : w.length = 8) (ha : a % 4096 ≤ 4088) :
    s.putCpl q c count [(a, w)] [] =
      (s.sendReq c.link (.wr ⟨a, w, false, if c.admin then none else some c.ctx, if c.admin then 31 else c.fn, 0, .none⟩)).modCq q
        fun c => c.closeEntry count := by
  unfold State.putCpl
  simp only [List.filter_nil, List.dropLast_singleton, List.foldl_nil, List.getLast?_singleton, if_true]
  rw [hostWrite_one (by omega) (by omega)]

/-- A command of an entry, whose completion is one write and raises no counter, completes. -/
theorem done_eq (hp : s.Plain op o c) (hct : o.Countless) (status detail : Nat) : s.done op status detail = s.completed op o c status detail := by
  obtain ⟨hop, hsrc, hq, hdying, hflush, hlost, hev, hrun, hdom, hslot⟩ := hp
  have hbound : s.bound o.ctx 2 = false := by
    unfold State.bound
    simp only [show (63 - 2 : Nat) = 61 from rfl, hrun, Bool.false_and]
  obtain ⟨t, ht⟩ : ∃ t, t = ({ s with ops := tDel op s.ops } : State) := ⟨_, rfl⟩
  have hlost' : t.hlLost c.link = false := by rw [ht]; exact hlost
  have hct' : (raisesCt (hdrOp (o.words.getD 0 0)) && !o.admin) = false ∨ cmdCt o.words = 0xFFF :=
    hct.imp_left fun h => by rw [show hdrOp (o.words.getD 0 0) = hdrOp (o.w 0) from rfl, h, Bool.false_and]
  have hend : s.endOp1 op status detail [] = s.completed op o c status detail := by
    have hput := putCpl_header (s := t) (q := o.queue) (c := c) (count := o.count) (a := c.slotAddr o.count)
      (w := leBytes 8 (cplHeader (o.w 0) status detail).toNat) (leBytes_length ..) hslot
    have hw : t.writeCpl o.queue c o.count [(c.slotAddr o.count, leBytes 8 (cplHeader (o.words.getD 0 0) status detail).toNat)] [] =
        s.completed op o c status detail := by
      rw [State.writeCpl, if_neg (by simp [hlost']), State.completed, ← ht]
      exact hput
    have hbound' : t.bound o.ctx 2 = false := by rw [ht]; exact hbound
    have hev' : hdrEvent (o.words.getD 0 0) = false := hev
    unfold State.endOp1
    simp only [hop, hsrc, hq, ← ht, hbound', hev', Bool.and_false, Bool.false_and, Bool.false_eq_true, if_false, List.append_nil, List.nil_append, hw]
    rcases hct' with h | h
    · rw [h, if_neg (by decide)]
    · rw [h, State.ctAdd, ctOk_none]
      simp
  have hcq : tFind (s.completed op o c status detail).cqs o.queue = some (c.closeEntry o.count) := by
    rw [State.completed, ← ht, cqs_modCq_same, (State.Alters.sendReq (F := [.ht]) (P := fun _ => False) ..).cqs]
    rw [ht]
    exact congrArg _ hq
  have hsame := c.closeEntry_sameBut o.count
  unfold State.done State.endOp
  rw [hop]
  simp only
  rw [hend, State.settleQueue, queueIdle_of_calm hcq (hsame.dying.trans hdying) (hsame.flushing.trans hflush)]

/-- What a completion changes, and what it sends. -/
theorem completed_spec (hlost : s.hlLost c.link = false) (status detail : Nat) {t : State} (ht : t = s.completed op o c status detail) :
    tFind t.ops op = none ∧ (t.tl c.link).reqQ = (s.tl c.link).reqQ ++ [c.cpl o status detail] ∧ (t.tl c.link).rspQ = (s.tl c.link).rspQ ∧
      s.Alters t [.ops, .ht, .cqs] (fun _ => False) := by
  obtain ⟨u, hu⟩ : ∃ u, u = ({ s with ops := tDel op s.ops } : State) := ⟨_, rfl⟩
  have hsu : s.Alters u [.ops, .ht, .cqs] (fun _ => False) := hu ▸ .put_ops s _
  have hlost' : u.hlLost c.link = false := by rw [hu]; exact hlost
  have huv : u.Alters (u.sendReq c.link (c.cpl o status detail)) [.ht] (fun _ => False) := .sendReq ..
  obtain ⟨v, hv⟩ : ∃ v, v = u.sendReq c.link (c.cpl o status detail) := ⟨_, rfl⟩
  rw [← hv] at huv
  have hvt : v.Alters t [.cqs] (fun _ => False) := by
    rw [ht, State.completed, ← hu, ← hv]
    exact .modCq ..
  have htl : t.tl c.link = { s.tl c.link with reqQ := (s.tl c.link).reqQ ++ [c.cpl o status detail] } := by
    have h1 : t.tl c.link = v.tl c.link := by rw [State.tl, State.tl, hvt.ht]
    have h2 : u.tl c.link = s.tl c.link := by rw [hu]; rfl
    rw [h1, hv, sendReq_of_up hlost', tl_modTl_same, h2]
  refine ⟨?_, by rw [htl], by rw [htl], (hsu.trans huv.mono).trans hvt.mono⟩
  rw [hvt.ops, huv.ops, hu]
  exact tFind_tDel_same ..

/-! ### What a command meets before its effect (R182, R199, R38) -/

theorem ops_modOp_same (s : State) (n : Nat) (f : Op → Op) : tFind (s.modOp n f).ops n = (tFind s.ops n).map f := by
  unfold State.modOp
  cases h : tFind s.ops n with
  | none => simpa using h
  | some x => simp [tFind_tPut_same]

/-- A command marked as performed. -/
def Op.done (o : Op) : Op := { o with performed := true }

theorem perform_alters (s : State) (op : Nat) : s.Alters (s.perform op) [.ops] (fun _ => False) := .modOp ..

theorem ctxWord_of_ctxs {t : State} (h : t.ctxs = s.ctxs) (n i : Nat) : t.ctxWord n i = s.ctxWord n i := by
  unfold State.ctxWord State.ctx?
  rw [h]

/-- What a command's completion depends on. -/
structure Op.Like (o p : Op) : Prop where
  src : p.src = o.src
  queue : p.queue = o.queue
  count : p.count = o.count
  ctx : p.ctx = o.ctx
  stall : p.stall = o.stall
  words : p.words = o.words

theorem plain_of_alters {t : State} {p : Op} {F : List Field} (hp : s.Plain op o c) (h : s.Alters t F (fun _ => False))
    (hop : tFind t.ops op = some p) (hlike : o.Like p) (hF : [Field.cqs, .ctxs].all (fun f => decide (f ∉ F)) = true := by decide) :
    t.Plain op p c := by
  obtain ⟨-, hsrc, hq, hdying, hflush, hlost, hev, hrun, hdom, hslot⟩ := hp
  obtain ⟨lsrc, lqueue, lcount, lctx, lstall, lwords⟩ := hlike
  simp only [List.all_cons, List.all_nil, Bool.and_true, Bool.and_eq_true, decide_eq_true_eq] at hF
  obtain ⟨hcqs, hctxs⟩ := hF
  refine ⟨hop, by rw [lsrc, hsrc], by rw [h.cqs hcqs, lqueue]; exact hq, hdying, hflush, by rw [hlLost_of_alters h (fun _ => id)]; exact hlost,
    by rw [Op.w, lwords]; exact hev, by rw [ctxWord_of_ctxs (h.ctxs hctxs), lctx]; exact hrun, ?_, by rw [lcount]; exact hslot⟩
  rw [lstall, State.domRuns, State.domState, h.rf id]
  exact hdom

theorem Op.like_done (o : Op) : o.Like o.done := ⟨rfl, rfl, rfl, rfl, rfl, rfl⟩

theorem plain_perform (hp : s.Plain op o c) : (s.perform op).Plain op o.done c :=
  plain_of_alters hp (perform_alters s op) (by rw [State.perform, ops_modOp_same, hp.1]; rfl) o.like_done

/-- A command that its row may perform, whose fields are in order, is performed. -/
theorem checked_of_starts {opc : Nat} (hs : s.Starts op opc o c) {bad : Op → Bool} (hb : bad o = false) (k : Op → State → State) :
    s.checked op opc bad k = k o s := by
  obtain ⟨-, -, hstop, ⟨hop, -, -, -, -, -, -, -, hdom, -⟩, -, hperf, hopc, hct⟩ := hs
  have hstart : s.startedOp op opc = some o := by
    unfold State.startedOp
    simp only [hop]
    have hopc' : hdrOp (o.words.getD 0 0) = opc := hopc
    rw [if_pos]
    simp only [hperf, hstop, hdom, hopc', Bool.not_false, decide_true, Bool.and_self]
  unfold State.checked
  rw [hstart]
  simp only [hb, Bool.false_eq_true, if_false]
  rw [if_neg]
  rcases hct with h | h <;> simp [h]

/-- A command that raises no counter, performed and completed at once. -/
theorem act_completes {status : Nat} {f : State → State} (hc : s.Calm) (hlive : s.live (.domain 0) = true) (hp : s.Plain op o c)
    (hct : o.Countless) (hf : f s = (s.perform op).done op status) : ∃ t, s.act (.domain 0) f = .next t ∧ tFind t.ops op = none ∧
      (t.tl c.link).reqQ = (s.tl c.link).reqQ ++ [c.cpl o status 0] ∧ (t.tl c.link).rspQ = (s.tl c.link).rspQ ∧
      s.Alters t [.ops, .ht, .cqs] (fun _ => False) := by
  have hpp := plain_perform hp
  rw [done_eq hpp hct] at hf
  have ha := perform_alters s op
  obtain ⟨hops, hreq, hrsp, hall⟩ := completed_spec (o := o.done) hpp.2.2.2.2.2.1 status 0 rfl
  have htl : (s.perform op).tl c.link = s.tl c.link := by rw [State.tl, State.tl, ha.ht]
  rw [htl] at hreq hrsp
  exact ⟨_, act_of_alters hlive hc hf (ha.mono.trans hall), hops, hreq, hrsp, ha.mono.trans hall⟩

end

/-! ### Commands that fail their rank lookup (R118) -/

section

variable {s : State} {op e opc : Nat} {o : Op} {c : Cq} {bad : Op → Bool} {k : Op → State → State}

/-- A sending command whose rank lookup fails completes with the failure's code, without a message. -/
theorem act_rankless (hs : s.Starts op opc o c) (hb : bad o = false) (hct : cmdCt o.words = 0xFFF) (hrank : s.rank o.ctx (fld (o.w 1) 63 32) = .error e)
    (hk : ∃ item rndv, k o s = s.sendCmd op o item rndv) : ∃ t, s.act (.domain 0) (State.checked · op opc bad k) = .next t ∧ tFind t.ops op = none ∧
      (t.tl c.link).reqQ = (s.tl c.link).reqQ ++ [c.cpl o e 0] ∧ t.ifl = s.ifl ∧ t.hbm = s.hbm ∧ t.regs = s.regs := by
  obtain ⟨item, rndv, hk⟩ := hk
  have hf : s.checked op opc bad k = (s.perform op).done op e := by
    rw [checked_of_starts hs hb, hk, State.sendCmd, hrank]
  obtain ⟨hc, hlive, -, hp, -⟩ := hs
  obtain ⟨t, ht, hops, hreq, -, ha⟩ := act_completes (f := (State.checked · op opc bad k)) hc hlive hp (.inr hct) hf
  exact ⟨t, ht, hops, hreq, ha.ifl, ha.hbm, ha.regs⟩

/-- Settles O25: a command that ends at once is performed, and its completion is the one write of its header. -/
theorem commandsCompleteInTheirRing : Obligations.CommandsCompleteInTheirRing := by
  unfold Obligations.CommandsCompleteInTheirRing
  refine ⟨?nop, ?put, ?putInline, ?get, ?send, ?sendInline, ?atomic⟩
  case nop =>
    intro s op o c hs
    have hf : doNop op s = (s.perform op).done op 0 := checked_of_starts hs rfl _
    obtain ⟨hc, hlive, -, hp, -, -, hopc, -⟩ := hs
    obtain ⟨t, ht, hops, hreq, hrsp, ha⟩ := act_completes hc hlive hp (.inl (by rw [hopc]; rfl)) hf
    exact ⟨t, ht, hops, hreq, hrsp, ha.hbm, ha.buf, ha.regs⟩
  case put =>
    intro s op e o c hs hct hrank
    exact act_rankless hs rfl hct hrank ⟨_, _, rfl⟩
  case putInline =>
    intro s op e o c hs hlen hct hrank
    exact act_rankless hs (decide_eq_false (Nat.not_lt.2 hlen)) hct hrank ⟨_, _, rfl⟩
  case get =>
    intro s op e o c hs hct hrank
    exact act_rankless hs rfl hct hrank ⟨_, _, rfl⟩
  case send =>
    intro s op e o c hs hct hrank
    refine act_rankless hs rfl hct hrank ?_
    by_cases h : fld (s.ctxWord o.ctx 8) 31 0 < o.length
    · exact ⟨_, _, if_pos h⟩
    · exact ⟨_, _, if_neg h⟩
  case sendInline =>
    intro s op e o c hs hlen hct hrank
    exact act_rankless hs (decide_eq_false (Nat.not_lt.2 hlen)) hct hrank ⟨_, _, rfl⟩
  case atomic =>
    intro s op e o c hs hop hty hct hrank
    exact act_rankless hs (decide_eq_false (by omega)) hct hrank ⟨_, _, rfl⟩

end

end Sys2Proof.Machine
end

section
/-! PROOFS. A TRIG while another pending command of its counter is due (R200). -/

namespace Sys2Proof.Machine

-- The proofs are elaborated one after another: in parallel their threads' stacks need more memory than a compile may have.
set_option Elab.async false

/-- A TRIG of context 9 in slot 0 of its queue 7, on counter 3 at threshold 2, that wraps a NOP. -/
def armingOp : Op :=
  { src := .entry, queue := 7, count := 0, ctx := 9, link := 1, fn := 2, stall := 3,
    words := [mkWord 64 [(62, 59, 1), (58, 51, 0x12)], mkWord 64 [(27, 16, 3)], 2, 0, 0, 0, 0, 0, mkWord 64 [(62, 59, 0)], 0, 0, 0, 0, 0, 0, 0],
    performed := false, left := 0, status := 0, detail := 0, result := 0, aux := 0 }

/-- Its queue, with that entry open. -/
def armingCq : Cq :=
  { id := 0, admin := false, link := 1, fn := 2, ctx := 9, stall := 3, k := 4, base := 0x10000, weight := 1, burst := 1, priv := false,
    eqValid := false, eq := 0, state := 1, lastError := 0, pi := 1, oldest := 0, next := 1, asked := 1, readsOut := 0, gran := [], bell := [],
    fns := [], open_ := [(0, 1, false)], fired := [], credit := 0, joined := false, flushing := none, destroyer := none, dying := false,
    waited := none }

/-- Its context, with 8 counters at the start of HBM and room for 2 pending commands. -/
def armingCtx : Ctx :=
  { words := [0, 0, mkWord 64 [(63, 63, 1), (60, 56, 2), (55, 53, 1)], mkWord 64 [(63, 3, hbmBase / 8)], mkWord 64 [(63, 52, 8), (47, 36, 2)]] }

/-- A pending command of the same counter whose threshold, 0, the counter has reached. -/
def dueTrig : Trig := { queue := 7, ctx := 9, slot := 1, ct := 3, threshold := 0, words := [0] }

/-- The part with that TRIG started and that command pending. -/
def armingState : State :=
  let s : State :=
    { State.reset with
      coreOn := true, pins := { resetL := true }, cqs := [(7, armingCq)], ctxs := [(9, armingCtx)], ops := [(20, armingOp)], serial := 50,
      trigs := [dueTrig] }
  s.wf (.llStatus (.host 1)) 3 0 3

theorem armingState_starts : armingState.Starts 20 0x12 armingOp armingCq := by decide +kernel

theorem armingState_fits : trigBad armingOp = false ∧ armingState.ctOk armingOp.ctx (cmdCt armingOp.words) = true ∧
    (armingState.trigs.filter (fun t => t.ctx = armingOp.ctx)).length < fld (armingState.ctxWord armingOp.ctx 4) 47 36 ∧
    fld (armingState.hbmWord (armingState.ctAddr armingOp.ctx (cmdCt armingOp.words))) 47 0 < fld (armingOp.w 2) 47 0 := by decide +kernel

/-- The TRIG has the command that is due fire, which is then pending no more. -/
theorem armingState_trigs : (match exec (.trig 20) armingState with
    | .next t => t.trigs.length
    | _ => 0) = 1 := by decide +kernel

/-- Refutes O27: a TRIG is not kept behind all those already kept where one of its counter's, its threshold reached, is still pending. -/
theorem not_countersTriggersAndEventQueues : ¬ Obligations.CountersTriggersAndEventQueues := by
  intro h
  obtain ⟨-, -, htrig, -⟩ := h
  obtain ⟨hbad, hok, hroom, hbelow⟩ := armingState_fits
  obtain ⟨t, he, htrigs, -⟩ := htrig armingState 20 armingOp armingCq armingState_starts hbad hok hroom hbelow
  have hlen := armingState_trigs
  rw [he] at hlen
  have hlen' : t.trigs.length = 2 := by
    rw [htrigs]
    rfl
  exact absurd (hlen'.symm.trans hlen) (by decide)

end Sys2Proof.Machine
end

section
/-! PROOFS. A table walk that a cached table entry serves (R221, R223). -/

namespace Sys2Proof.Machine

-- The proofs are elaborated one after another: in parallel their threads' stacks need more memory than a compile may have.
set_option Elab.async false

/-- A walk of stall 0 at the top of its tables, at the start of HBM. -/
def topWalk : Walk :=
  { stall := 0, cx := ⟨0, 0, 0, 1, 0, 0, 0⟩, va := 0, users := [], stage2 := false, table := false, level := 0, s1lev := 0, input := 0,
    ptr := .hbm hbmBase, leaf1 := none, size1 := 48, ipa := 0, entry := none, failed := 0, cache := true, used := false, stale := false,
    marks := [] }

/-- A table pointer to the start of HBM. -/
def topEntry : Word := mkWord 64 [(51, 12, hbmBase / 4096), (2, 2, 1), (0, 0, 1)]

/-- The entry of level 1 of the same tables, cached by the stall: again a table pointer. -/
def cachedEntry : XlEntry :=
  { kind := 1, vmid := 0, asid := 0, level := 1, va := 0, log2 := 30, e := topEntry, ipa := 0, out := 0, hbm := false, rd := false, wr := false,
    acc := false, dirty := false }

/-- The part with that walk, its first entry in HBM and the next one cached. -/
def walkingState : State :=
  { State.reset with
    coreOn := true, pins := { resetL := true }, walks := [(4, topWalk)], shares := [(6, (0, 1))], xl := [(0, [cachedEntry])],
    hbm := memWrite [] 0 (leBytes 8 topEntry.toNat) }

theorem walkingState_meets : (walkingState.Calm ∧ walkingState.live (.domain 0) = true ∧ tFind walkingState.walks 4 = some topWalk) ∧
    topEntry = walkingState.hbmWord hbmBase ∧ (bit topEntry 0 = true ∧ bit topEntry 1 = false ∧ bit topEntry 2 = true) ∧
    entBad topEntry topWalk.level topWalk.input = false ∧
    walkingState.inShare topWalk.cx.dom 6 (entAddr topEntry + 8 * xlIndex topWalk.va 1) 8 = true := by decide +kernel

/-- The cached entry serves the walk at level 1, which is then at level 2. -/
theorem walkingState_level : (match exec (.walkRead 4) walkingState with
    | .next t => (tFind t.walks 4).map fun x => x.level
    | _ => none) = some 2 := by decide +kernel

/-- Refutes O31: a walk that has read a table pointer goes on past the next entry where a cached one serves it. -/
theorem not_queuesFetchInvalidateAndWalk : ¬ Obligations.QueuesFetchInvalidateAndWalk := by
  intro h
  obtain ⟨-, -, -, -, hwalk, -⟩ := h
  obtain ⟨⟨hcalm, hlive, hw⟩, he, hbits, hgood, hshare⟩ := walkingState_meets
  obtain ⟨t, hnext, hto, -⟩ := hwalk walkingState 4 hbmBase 1 topWalk topEntry hcalm hlive hw rfl he hbits hgood rfl rfl hshare
  have hlevel := walkingState_level
  rw [hnext] at hlevel
  have hone := congrArg (Option.map fun y => y.1) hto
  rw [Option.map_map, Option.map_some] at hone
  exact absurd (hlevel.symm.trans hone) (by decide)

end Sys2Proof.Machine
end

section
/-! PROOFS. A result that comes down to one of two instances of the same number (R300, R313). -/

namespace Sys2Proof.Machine

-- The proofs are elaborated one after another: in parallel their threads' stacks need more memory than a compile may have.
set_option Elab.async false

/-- A performed COLL of context 9 in slot 0 of its queue 7, on group 0, that receives nothing. -/
def joinedOp : Op :=
  { src := .entry, queue := 7, count := 0, ctx := 9, link := 1, fn := 2, stall := 3,
    words := [mkWord 64 [(58, 51, 0x0C)], mkWord 64 [(39, 36, 2), (27, 16, 0xFFF)]], performed := true, left := 0, status := 0, detail := 0,
    result := 0, aux := 0 }

/-- An instance of number 0 of group 0 at engine 0, of one segment, with no members. -/
def firstInst : ClInst :=
  { engine := 0, dom := 0, group := 0, n := 0, op := 0, ty := 2, mode := 0, count := 2, since := 0, next := 0, members := [], kids := [],
    flags := 0, result := 0, downs := [] }

/-- The same with that COLL as its member. -/
def joinedInst : ClInst := { firstInst with members := [(0, { op := some 20 })] }

/-- The part with both instances, and a packet of all zeros, of group 0 and number 0, come down at engine 0. -/
def twoInstState : State :=
  let s : State :=
    { State.reset with
      coreOn := true, pins := { resetL := true }, cqs := [(7, armingCq)], ctxs := [(9, armingCtx)], ops := [(20, joinedOp)], serial := 50,
      groups := [(0, { engine := 0 })], insts := [(40, joinedInst), (41, firstInst)], collDown := [(0, [[]])] }
  s.wf (.llStatus (.host 1)) 3 0 3

theorem twoInstState_meets : twoInstState.Calm ∧ (twoInstState.live (.coll 0) = true ∧ twoInstState.domRuns ((0 : Engine).val / 4) = true) ∧
    tGet [] twoInstState.collDown (0 : Engine).val = [] :: [] ∧
    (twoInstState.findGroup (Pkt.key [] / 65536) = some (0, { engine := 0 }) ∧ (0 : Engine).val ∉ twoInstState.engOff ∧
      ClGroup.number { engine := 0 } (Pkt.msn []) = some joinedInst.n ∧ ClGroup.gone { engine := 0 } joinedInst.n = false) ∧
    (twoInstState.instOf 0 (Pkt.key [] / 65536) joinedInst.n = some 40 ∧ tFind twoInstState.insts 40 = some joinedInst ∧
      joinedInst.dom = 0 ∧ joinedInst.group = Pkt.key [] / 65536) ∧
    (joinedInst.nseg = 1 ∧ joinedInst.downs = [] ∧ joinedInst.members = [(0, { op := some 20 })] ∧ Pkt.moff [] = 0 ∧ joinedInst.result = 0) ∧
    twoInstState.Plain 20 joinedOp armingCq := by decide +kernel

/-- The other instance of the number is still there. -/
theorem twoInstState_left : (match exec (.collDownReceive 0) twoInstState with
    | .next t => t.instOf 0 (Pkt.key [] / 65536) joinedInst.n
    | _ => none) = some 41 := by decide +kernel

/-- Refutes O42: where two instances bear one number, the result that ends the first leaves the second under that number. -/
theorem not_enginesPassSegmentsOn : ¬ Obligations.EnginesPassSegmentsOn := by
  intro h
  obtain ⟨-, -, -, hdown, -⟩ := h
  obtain ⟨hcalm, hlive, hp, hgroup, hinst, hx, hplain⟩ := twoInstState_meets
  obtain ⟨t, he, -, -, hnone, -⟩ := hdown twoInstState 0 [] [] 0 40 0 20 { engine := 0 } joinedInst joinedOp armingCq { op := some 20 } hcalm
    hlive hp hgroup hinst hx hplain rfl ⟨rfl, rfl, rfl⟩ (by decide)
  have hleft := twoInstState_left
  rw [he] at hleft
  exact absurd (hnone.symm.trans hleft) (by decide)

end Sys2Proof.Machine
end

section
/-! PROOFS. The loss of a domain (R371, R373, R374, R467). -/

namespace Sys2Proof.Machine

-- The proofs are elaborated one after another: in parallel their threads' stacks need more memory than a compile may have.
set_option Elab.async false

section

variable {s t : State} {d : Dom}

theorem domOf_val (d : Dom) : domOf d.val = d := Fin.ext (Nat.mod_eq_of_lt d.isLt)

/-- A register whose reading is made up is no CS_STATUS. -/
theorem csStatus_addr_ne_of_madeUp (d : Nat) {r : Reg} (h : r ∈ madeUp d) (e : Dom) : (Reg.csStatus e).addr ≠ r.addr := by
  simp only [madeUp, List.mem_append, List.mem_cons, List.not_mem_nil, or_false, List.mem_flatMap, List.mem_map] at h
  rcases h with ((rfl | rfl | rfl) | ⟨st, -, rfl | rfl | rfl⟩) | ⟨i, -, rfl⟩
  · exact addr_ne_of_off 0x7008 0x3010 rfl rfl (by decide)
  · exact addr_ne_of_off 0x7008 0x3018 rfl rfl (by decide)
  · exact addr_ne_of_off 0x7008 0x0000 rfl rfl (by decide)
  · exact addr_ne_of_off 0x7008 0x2000 rfl rfl (by decide)
  · exact addr_ne_of_off 0x7008 0x3008 rfl rfl (by decide)
  · exact addr_ne_of_off 0x7008 0x5008 rfl rfl (by decide)
  · exact addr_ne_of_off 0x7008 0x0018 rfl rfl (by decide)

/-- Holding the values of a domain's registers writes no CS_STATUS. -/
theorem holdValues_alters (s : State) (d : Nat) : s.Alters (s.holdValues d) [.regs, .pmFix] (fun a => ∀ e : Dom, (Reg.csStatus e).addr ≠ a) := by
  unfold State.holdValues
  extract_lets u
  have hfreeze : s.Alters u [.regs, .pmFix] (fun a => ∀ e : Dom, (Reg.csStatus e).addr ≠ a) :=
    .foldl (fun t b => by unfold State.pmFreeze; exact .put_pmFix t _) _ _
  have h : ∀ (rs : List Reg), (∀ r ∈ rs, r ∈ madeUp d) → ∀ t : State,
      t.Alters (rs.foldl (fun t r => t.setReg r (u.view r)) t) [.regs, .pmFix] (fun a => ∀ e : Dom, (Reg.csStatus e).addr ≠ a) := by
    intro rs
    induction rs with
    | nil => exact fun _ t => .refl t
    | cons r rs ih =>
      intro hr t
      exact (State.Alters.setReg t _ fun e => csStatus_addr_ne_of_madeUp d (hr r (.head _)) e).trans (ih (fun x hx => hr x (.tail _ hx)) _)
  exact hfreeze.trans (h (madeUp d) (fun _ hr => hr) u)

/-- CS_STATUS once its domain is FENCED with a cause and an agent (R373). -/
def State.fencedStatus (s : State) (d : Dom) (cause agent : Nat) : State :=
  ((s.wf (.csStatus d) 63 62 1).wf (.csStatus d) 61 56 cause).wf (.csStatus d) 47 40 agent

theorem fencedStatus_alters (s : State) (d : Dom) (cause agent : Nat) :
    s.Alters (s.fencedStatus d cause agent) [.regs] (fun a => a = (Reg.csStatus d).addr) :=
  have h1 : s.Alters (s.wf (.csStatus d) 63 62 1) [.regs] (fun a => a = (Reg.csStatus d).addr) := .setReg s _ rfl
  have h2 := h1.trans (State.Alters.setReg (r := .csStatus d) (s.wf (.csStatus d) 63 62 1) _ rfl)
  h2.trans (.setReg _ _ rfl)

theorem fencedStatus_spec (s : State) (d : Dom) {cause agent : Nat} (hc : cause < 64) (ha : agent < 256) :
    (s.fencedStatus d cause agent).domState d.val = 1 ∧ (s.fencedStatus d cause agent).rf (.csStatus d) 61 56 = cause ∧
      (s.fencedStatus d cause agent).rf (.csStatus d) 47 40 = agent ∧
      (s.fencedStatus d cause agent).rf (.csStatus d) 55 48 = s.rf (.csStatus d) 55 48 := by
  have other : ∀ (u : State) (hi lo v hi' lo' : Nat), hi' < 64 → hi < lo' ∨ hi' < lo →
      (u.wf (.csStatus d) hi lo v).rf (.csStatus d) hi' lo' = u.rf (.csStatus d) hi' lo' := fun u hi lo v hi' lo' h h' => by
    rw [State.rf, State.wf, reg_setReg_same, fld_setFld_other _ _ _ _ _ _ h h', State.rf]
  unfold State.fencedStatus
  refine ⟨?_, ?_, ?_, ?_⟩
  · rw [State.domState, domOf_val, other _ _ _ _ _ _ (by decide) (by decide), other _ _ _ _ _ _ (by decide) (by decide),
      rf_wf_same _ _ _ _ _ (by decide)]
    rfl
  · rw [other _ _ _ _ _ _ (by decide) (by decide), rf_wf_same _ _ _ _ _ (by decide)]
    exact Nat.mod_eq_of_lt hc
  · rw [rf_wf_same _ _ _ _ _ (by decide)]
    exact Nat.mod_eq_of_lt ha
  · rw [other _ _ _ _ _ _ (by decide) (by decide), other _ _ _ _ _ _ (by decide) (by decide), other _ _ _ _ _ _ (by decide) (by decide)]

theorem reportLoss_alters (s : State) (d n cause agent : Nat) (b : Block) :
    s.Alters (s.reportLoss d n cause agent) faultFields (fun a => FaultAt b a ∧ a ≠ (Reg.ftStatus b).addr) :=
  .foldl (fun t h => .ite (.postMgmt t _ _ _ _ fun l => ⟨.inr (.inr ⟨l, rfl⟩), addr_ne_of_off 0x20008 0xF000 rfl rfl (by decide)⟩) (.refl t)) _ _

/-- A running domain fenced while it carries no collective and no INVALIDATE (R373, R374). -/
theorem fenceDomain_lost {cause agent : Nat} (hrun : s.domRuns d.val = true) (hi : s.insts = []) (hv : s.invals = [])
    (hc : cause < 64) (ha : agent < 256) : s.Lost (s.fenceDomain d.val cause agent) d cause agent ∧ (s.Calm → (s.fenceDomain d.val cause agent).Calm) := by
  obtain ⟨u1, hu1⟩ : ∃ u, u = s.holdValues d.val := ⟨_, rfl⟩
  obtain ⟨u2, hu2⟩ : ∃ u, u = u1.fencedStatus d cause agent := ⟨_, rfl⟩
  obtain ⟨u3, hu3⟩ : ∃ u, u = u2.dropDomain d.val := ⟨_, rfl⟩
  obtain ⟨u4, hu4⟩ : ∃ u, u = u3.fault (.domain d) .fence (0x80 + cause) agent := ⟨_, rfl⟩
  obtain ⟨t, ht⟩ : ∃ t, t = s.fenceDomain d.val cause agent := ⟨_, rfl⟩
  have a1 := hu1 ▸ holdValues_alters s d.val
  have a2 := hu2 ▸ fencedStatus_alters u1 d cause agent
  have a4 := hu4 ▸ fault_alters u3 (.domain d) .fence (0x80 + cause) agent
  have hinsts : u2.insts = [] := by rw [a2.insts, a1.insts, hi]
  have hinvals : u3.invals = [] := by
    rw [hu3]
    change u2.invals.filter _ = []
    rw [a2.invals, a1.invals, hv]
    rfl
  have a5 : u4.Alters t faultFields (fun a => FaultAt (.domain d) a ∧ a ≠ (Reg.ftStatus (.domain d)).addr) := by
    have he : t = if u4.domRuns (1 - d.val) then u4.reportLoss d.val (s.ctxs.filter (fun e => s.ctxDom e.1 = d.val)).length cause agent else u4 := by
      rw [ht, State.fenceDomain, if_neg (by simp [hrun])]
      simp only [domOf_val]
      rw [← hu1, show ((u1.wf (.csStatus d) 63 62 1).wf (.csStatus d) 61 56 cause).wf (.csStatus d) 47 40 agent = u2 from hu2.symm, hinsts,
        ← hu3]
      simp only [List.filter_nil, List.flatMap_nil, List.foldl_nil]
      rw [show u3.ackRest = u3 by rw [State.ackRest, hinvals]; rfl, ← hu4]
    rw [he]
    exact .ite (reportLoss_alters ..) (.refl u4)
  have a45 : u3.Alters t faultFields (FaultAt (.domain d)) := a4.trans (a5.mono (hP := fun _ h => h.1))
  have hnf : ∀ e : Dom, ¬ FaultAt (.domain d) (Reg.csStatus e).addr := fun e => not_faultAt_of_off _ 0x7008 rfl (by decide)
  have hregs : ∀ (e : Dom) hi lo, t.rf (.csStatus e) hi lo = u2.rf (.csStatus e) hi lo := fun e hi lo => by
    rw [a45.rf (hnf e), hu3]
    rfl
  obtain ⟨hstate, hcause, hagent, hcount⟩ := hu2 ▸ fencedStatus_spec u1 d hc ha
  have hne : (Reg.csStatus (domOf (1 - d.val))).addr ≠ (Reg.csStatus d).addr := by
    have hd := d.isLt
    rw [Reg.addr, Reg.addr]
    simp only [Reg.block, blockBase, domOf, Reg.off]
    omega
  have hu1s : ∀ (e : Dom) hi lo, u1.rf (.csStatus e) hi lo = s.rf (.csStatus e) hi lo := fun e hi lo => a1.rf (fun h => h e rfl) hi lo
  have heast : u2.ctxEast = s.ctxEast := by rw [a2.ctxEast, a1.ctxEast]
  have hdom : ∀ c, u2.ctxDom c = s.ctxDom c := fun c => by rw [State.ctxDom, State.ctxDom, heast]
  have hcq : ∀ c, u2.cqDom c = s.cqDom c := fun c => by rw [State.cqDom, State.cqDom, hdom]
  rw [← ht]
  refine ⟨⟨?_, ?_, ?_, ?_, ?_, ?_, ?_, ?_, ?_, ?_, ?_, ?_⟩, fun hcalm => ?_⟩
  · rw [State.domState, hregs]
    exact hstate
  · rw [hregs, hcause]
  · rw [hregs, hagent]
  · rw [hregs, hcount, hu1s]
  · rw [a5.rb (fun h => h.2 rfl), hu4]
    exact fault_status _ _ _ _ _ rfl
  · rw [a45.ctxs, hu3]
    change u2.ctxs.filter (fun e => !decide (u2.ctxDom e.1 = d.val)) = _
    rw [a2.ctxs, a1.ctxs]
    simp only [hdom, ne_eq, decide_not]
  · rw [a45.tfl, hu3]
    change u2.tfl.filter (fun e => !decide (u2.ctxDom e.2.dctx = d.val)) = _
    rw [a2.tfl, a1.tfl]
    simp only [hdom, ne_eq, decide_not]
  · rw [a45.groups, hu3]
    change u2.groups.filter (fun e => !decide (e.1 / 65536 = d.val)) = _
    rw [a2.groups, a1.groups]
    simp only [ne_eq, decide_not]
  · rw [a45.cqs, hu3]
    change u2.cqs.filter (fun e => !decide (u2.cqDom e.2 = d.val)) = _
    rw [a2.cqs, a1.cqs]
    simp only [hcq, ne_eq, decide_not]
  · rw [a45.hbm, hu3]
    change u2.hbm = _
    rw [a2.hbm, a1.hbm]
  · rw [a45.buf, hu3]
    change u2.bufWithout d.val = _
    rw [State.bufWithout, State.bufWithout, a2.buf, a1.buf]
  · rw [State.domState, hregs, a2.rf hne, hu1s, State.domState]
  · have h2 : u2.Calm := (a1.mono (G := [.regs, .pmFix]) (Q := fun _ => True) (hP := fun _ _ => trivial)).calm hcalm |> fun h =>
      (a2.mono (G := [.regs]) (Q := fun _ => True) (hP := fun _ _ => trivial)).calm h
    have h3 : u3.Calm := by
      rw [hu3]
      exact h2
    exact a45.calm h3

/-- A failure of a running domain, the start over, fences it (R371). -/
theorem domainFailure_eq (hup : s.DomainUp d) (cause agent : Nat) : s.domainFailure d.val cause agent = s.fenceDomain d.val cause agent := by
  obtain ⟨-, -, hrun, hstart⟩ := hup
  have h0 : s.domState d.val = 0 := of_decide_eq_true hrun
  unfold State.domainFailure
  simp [hstart, h0]

/-- A failure of a running domain, before the start has succeeded or while the domain restarts aside, loses it (R371). -/
theorem act_domainFailure {cause agent : Nat} {f : State → State} (hup : s.DomainUp d) (hi : s.insts = []) (hv : s.invals = [])
    (hc : cause < 64) (ha : agent < 256) (hf : f s = s.domainFailure d.val cause agent) :
    ∃ t, s.act (.domain d) f = .next t ∧ s.Lost t d cause agent := by
  have he := domainFailure_eq hup cause agent
  obtain ⟨hcalm, hlive, hrun, -⟩ := hup
  obtain ⟨hlost, hkeep⟩ := fenceDomain_lost hrun hi hv hc ha
  have hf' := hf.trans he
  refine ⟨_, act_of_calm s _ f hlive ?_ ?_, ?_⟩
  · rw [hf']
    exact (hkeep hcalm).1
  · rw [hf']
    exact (hkeep hcalm).2
  · rwa [hf']

end

end Sys2Proof.Machine
end

section
/-! PROOFS. Failures of a domain's store, its deadlines, and the steps of its restart (R371, R373 to R376, R463, R464). -/

namespace Sys2Proof.Machine

-- The proofs are elaborated one after another: in parallel their threads' stacks need more memory than a compile may have.
set_option Elab.async false

section

variable {s t : State} {d : Dom}

theorem tFind_filter_key (p : Nat → Bool) (m : Tab α) (k : Nat) :
    tFind (m.filter fun e => p e.1) k = if p k then tFind m k else none := by
  induction m with
  | nil => simp [tFind]
  | cons e m ih =>
    obtain ⟨j, v⟩ := e
    by_cases hj : k = j
    · subst hj
      cases hp : p k <;> simp [hp, tFind, ih]
    · cases hp : p j <;> simp [hp, tFind, ih, hj]

/-- An error that costs a running domain nothing is recorded as a NOTE (R463). -/
theorem corrected_noted {b : Block} (hrun : s.domRuns d.val = true) (hb : s.frozen b = false) (low unit : Nat) :
    s.Noted (s.corrected d b low unit) d b ∧ s.Alters (s.corrected d b low unit) faultFields (FaultAt b) := by
  have he : s.corrected d b low unit = s.fault b .note low unit := if_pos hrun
  have ha := fault_alters s b .note low unit
  rw [he]
  refine ⟨⟨fault_status _ _ _ _ _ hb, ?_, ha.hbm, ha.buf⟩, ha⟩
  rw [State.domState, State.domState, domOf_val, ha.rf (not_faultAt_of_off _ 0x7008 rfl (by decide))]

theorem frozen_domStall (hrun : s.domRuns d.val = true) (n : Nat) : s.frozen (.stall (domStall d n)) = false := by
  have hd := d.isLt
  have hst : (domStall d n).val / 8 = d.val := by
    simp only [domStall, stallOf]
    omega
  rw [State.frozen, hst, hrun]
  rfl

theorem lineDrop_alters (s : State) (k c : Nat) : s.Alters (s.lineDrop k c) lineFields LineAt := .setHolders ..

theorem holders_setHolders_same (s : State) (k : Nat) (hs : List (Nat × LineState)) : (s.setHolders k hs).holders k = hs := tGet_tSet_same ..

theorem holders_setHolders_other (s : State) {k j : Nat} (hs : List (Nat × LineState)) (h : j ≠ k) :
    (s.setHolders k hs).holders j = s.holders j := tGet_tSet_other _ _ _ _ _ h

/-- A step of a restart completes, and the next begins. -/
theorem restartStep_next (hcalm : s.Calm) (hlive : s.live (.domain d) = true) {u : State} (hf : doDomainRestartStep d true s = u)
    (hu : u.todo = s.todo ∧ u.tack = s.tack) : exec (.domainRestartStep d true) s = .next u := by
  subst hf
  exact act_of_calm s _ _ hlive (hu.1.trans hcalm.1) (hu.2 ▸ hcalm.2)

theorem reg_of_kept {p : Nat → Bool} {r : Reg} (h : t.regs = s.regs.filter fun e => !p e.1) :
    t.reg r = if p r.addr then r.reset else s.reg r := by
  rw [State.reg, h, tFind_filter_key fun a => !p a]
  cases p r.addr <;> rfl

theorem reportRestart_alters (s : State) (d : Nat) : s.Alters (s.reportRestart d) faultFields (fun a => ∃ l, a = (Reg.hlStatus l).addr) :=
  .foldl (fun t h => .ite (.postMgmt t _ _ _ _ fun l => ⟨l, rfl⟩) (.refl t)) _ _

/-- A domain RUNNING again, its restart counted (R376). -/
def State.restarted (s : State) (d : Dom) : State :=
  let u := (s.wf (.csStatus d) 63 62 0).bump (.csStatus d) 55 48 1
  State.restartPm { u with restart := tDel d.val u.restart, stewardAt := tSet 0 d.val u.clk u.stewardAt } d.val true

theorem restarted_spec (s : State) (d : Dom) :
    (s.restarted d).domState d.val = 0 ∧ (s.restarted d).rf (.csStatus d) 55 48 = min (s.rf (.csStatus d) 55 48 + 1) 255 ∧
      tFind (s.restarted d).restart d.val = none := by
  obtain ⟨v, hv⟩ : ∃ v, v = s.wf (.csStatus d) 63 62 0 := ⟨_, rfl⟩
  have hreg : ∀ hi lo, (s.restarted d).rf (.csStatus d) hi lo = (v.bump (.csStatus d) 55 48 1).rf (.csStatus d) hi lo := fun hi lo => by
    rw [hv]
    rfl
  refine ⟨?_, ?_, tFind_tDel_same ..⟩
  · rw [State.domState, domOf_val, hreg, rf_bump_other _ _ _ _ _ _ _ (by decide) (by decide), hv, rf_wf_same _ _ _ _ _ (by decide)]
    rfl
  · rw [hreg, rf_bump_same _ _ _ _ _ (by decide), hv, State.rf, State.wf, reg_setReg_same, fld_setFld_other _ _ _ _ _ _ (by decide) (by decide),
      State.rf]
    rfl

/-- Settles O46. Every failure that loses data fences its domain; one that costs nothing is a NOTE; each step of a restart is an update of its own. -/
theorem domainsAreLostAndRestarted : Obligations.DomainsAreLostAndRestarted := by
  unfold Obligations.DomainsAreLostAndRestarted
  refine ⟨?failure, ?dirty, ?shared, ?hbm, ?cache, ?timeout, ?early, ?watchdog, ?reset, ?go, ?clear, ?running, ?failed⟩
  case failure =>
    intro s d c agent k hup hi hv hk
    have hk64 : k < 64 := by cases c <;> simp only [storeCause, Option.some.injEq, reduceCtorEq] at hk <;> omega
    refine act_domainFailure hup hi hv hk64 agent.isLt ?_
    cases c <;> simp only [storeCause, Option.some.injEq, reduceCtorEq] at hk <;> subst hk <;> rfl
  case dirty =>
    intro s d line agent hup hi hv hd
    refine act_domainFailure hup hi hv (by decide) agent.isLt ?_
    simp only [doContextStoreFailure, hd]
  case shared =>
    intro s d line agent k hup hk hs
    subst hk
    obtain ⟨hcalm, hlive, hrun, -⟩ := hup
    obtain ⟨u, hu⟩ : ∃ u, u = s.lineDrop (lineKey d.val line) (agent.toNat % 8) := ⟨_, rfl⟩
    have hf : doContextStoreFailure d (.cacheLine line) agent s = u.corrected d (.stall (domStall d agent.toNat)) 0x30 0 := by
      simp only [doContextStoreFailure, hs, hu]
    have hsu := hu ▸ lineDrop_alters s (lineKey d.val line) (agent.toNat % 8)
    have hregs : u.regs = s.regs := by rw [hu]; rfl
    have hrun' : u.domRuns d.val = true := by
      rw [State.domRuns, State.domState, State.rf, State.reg, hregs]
      exact hrun
    obtain ⟨⟨hnote, hstate, hhbm, hbuf⟩, ha⟩ := corrected_noted hrun' (frozen_domStall hrun' agent.toNat) 0x30 0
    refine ⟨_, act_of_alters hlive hcalm hf ((hsu.mono (G := lineFields ++ faultFields) (Q := fun _ => True) (hP := fun _ _ => trivial)).trans
      (ha.mono (hP := fun _ _ => trivial))), ?_, hnote, ?_, hhbm.trans hsu.hbm, hbuf.trans hsu.buf⟩
    · rw [State.holders, ha.dir, hu]
      exact holders_setHolders_same ..
    · rw [hstate, State.domState, State.domState, State.rf, State.rf, State.reg, State.reg, hregs]
  case hbm =>
    intro s d agent hup
    obtain ⟨hcalm, hlive, hrun, -⟩ := hup
    obtain ⟨hnote, ha⟩ := corrected_noted (d := d) (b := .domain d) hrun rfl 0x10 agent.toNat
    exact ⟨_, act_of_alters hlive hcalm rfl ha, hnote, ha.dir⟩
  case cache =>
    intro s d agent hup
    obtain ⟨hcalm, hlive, hrun, -⟩ := hup
    obtain ⟨hnote, ha⟩ := corrected_noted (d := d) hrun (frozen_domStall hrun agent.toNat) 0x30 0
    exact ⟨_, act_of_alters hlive hcalm rfl ha, hnote, ha.dir⟩
  case timeout =>
    intro s u d agent dt hu hup hi hv hdt
    subst hu
    have hstate : (s.elapse dt).domState d.val ≠ 1 := by
      have h0 : (s.elapse dt).domState d.val = 0 := of_decide_eq_true hup.2.2.1
      omega
    exact act_domainFailure (f := doCoherenceTimeout d agent dt) hup hi hv (by decide) agent.isLt (if_pos ⟨hstate, hdt⟩)
  case early =>
    intro s u d agent dt hu hcalm hdt
    subst hu
    have hf : doCoherenceTimeout d agent dt (s.elapse dt) = s.elapse dt := if_neg fun h => Nat.not_le.2 hdt h.2
    cases hlive : (s.elapse dt).live (.domain d) with
    | true => exact act_of_alters hlive hcalm hf (.refl (F := []) (P := fun _ => False) _)
    | false => exact act_of_off _ _ _ hlive
  case watchdog =>
    intro s u d dt n hu hup hi hv hn hlate
    subst hu
    exact act_domainFailure (f := doStewardWatchdog d n) hup hi hv (by decide) (by decide) (if_pos ⟨hup.2.2.1, hn, hlate⟩)
  case reset =>
    intro s d hcalm hlive hk
    have hf : doDomainRestartStep d true s = { s.restartReset d.val with restart := tPut d.val 3 s.restart } := by
      unfold doDomainRestartStep
      rw [hk]
      rfl
    refine ⟨_, restartStep_next hcalm hlive hf ⟨rfl, rfl⟩, tFind_tPut_same .., ?_, ?_, ?_, fun r hr => ?_, fun r hr => ?_, rfl⟩
    · exact List.filter_congr fun e _ => by simp
    · refine List.filter_congr fun e _ => ?_
      have hdiv : e.1 / 16 / 8 = e.1 / 128 := Nat.div_div_eq_div_mul ..
      simp [hdiv]
    · exact List.filter_congr fun e _ => by simp
    · rw [reg_of_kept (s := s) (p := restartAddr d.val) rfl, if_pos hr]
    · rw [reg_of_kept (s := s) (p := restartAddr d.val) rfl, hr]
      rfl
  case go =>
    intro s d hcalm hlive hk
    refine restartStep_next hcalm hlive ?_ ⟨rfl, rfl⟩
    unfold doDomainRestartStep
    rw [hk]
    rfl
  case clear =>
    intro s d hcalm hlive hk
    refine restartStep_next hcalm hlive ?_ ⟨rfl, rfl⟩
    unfold doDomainRestartStep
    rw [hk]
    simp [State.clearStack]
  case running =>
    intro s d hcalm hlive hk
    obtain ⟨u, hu⟩ : ∃ u, u = s.restarted d := ⟨_, rfl⟩
    have hf : doDomainRestartStep d true s = u.reportRestart d.val := by
      unfold doDomainRestartStep
      rw [hk, hu]
      rfl
    have ha := reportRestart_alters u d.val
    have hcs : ¬ ∃ l, (Reg.csStatus d).addr = (Reg.hlStatus l).addr := fun ⟨l, e⟩ => addr_ne_of_off 0x7008 0x20008 rfl rfl (by decide) e
    obtain ⟨hstate, hcount, hnone⟩ := hu ▸ restarted_spec s d
    have hcalm' : u.Calm := by
      rw [hu]
      exact hcalm
    have hkeep : u.hbm = s.hbm ∧ u.ctxs = s.ctxs ∧ u.locks = s.locks := by
      rw [hu]
      exact ⟨rfl, rfl, rfl⟩
    obtain ⟨hhbm, hctxs, hlocks⟩ := hkeep
    refine ⟨_, act_of_calm s _ _ hlive ?_ ?_, ?_, ?_, ?_, ?_, ?_, ?_⟩
    · rw [hf]
      exact (ha.calm hcalm').1
    · rw [hf]
      exact (ha.calm hcalm').2
    all_goals rw [hf]
    · rw [State.domState, domOf_val] at hstate ⊢
      rw [ha.rf hcs, hstate]
    · rw [ha.rf hcs, hcount]
    · rw [ha.restart, hnone]
    · rw [ha.hbm, hhbm]
    · rw [ha.ctxs, hctxs]
    · rw [ha.locks, hlocks]
  case failed =>
    intro s d k hcalm hlive hk hstate hstart
    obtain ⟨u, hu⟩ : ∃ u, u = s.fencedStatus d 6 0xFF := ⟨_, rfl⟩
    have hf : doDomainRestartStep d false s = State.fault { u with restart := tDel d.val u.restart } (.domain d) .fence 0x86 0xFF := by
      unfold doDomainRestartStep
      rw [hk]
      simp only [hcalm.2, Option.isSome_none, Bool.and_false, Bool.false_eq_true, if_false, Bool.not_false, if_true]
      unfold State.domainFailure
      simp only [hstart, Bool.false_eq_true, if_false, hstate, if_true, domOf_val]
      rw [hu]
      rfl
    have hsu := hu ▸ fencedStatus_alters s d 6 0xFF
    obtain ⟨h1, h6, -, -⟩ := hu ▸ fencedStatus_spec s d (cause := 6) (agent := 0xFF) (by decide) (by decide)
    have ha := fault_alters { u with restart := tDel d.val u.restart } (.domain d) .fence 0x86 0xFF
    have hcs : ¬ FaultAt (.domain d) (Reg.csStatus d).addr := not_faultAt_of_off _ 0x7008 rfl (by decide)
    have hall := (hsu.mono (G := .restart :: faultFields) (Q := fun _ => True) (hP := fun _ _ => trivial)).trans
      ((State.Alters.put_restart u (tDel d.val u.restart)).trans (ha.mono (hP := fun _ _ => trivial)))
    refine ⟨_, act_of_alters hlive hcalm hf hall, ?_, ?_, ?_, ?_⟩
    · rw [State.domState, domOf_val] at h1 ⊢
      rw [ha.rf hcs]
      exact h1
    · rw [ha.rf hcs]
      exact h6
    · rw [ha.restart]
      exact tFind_tDel_same ..
    · rw [hall.hbm]

end

end Sys2Proof.Machine
end

section
/-! PROOFS. The directory of a domain's context stores (R365 to R371). -/

namespace Sys2Proof.Machine

-- The proofs are elaborated one after another: in parallel their threads' stacks need more memory than a compile may have.
set_option Elab.async false

section

variable {s t : State} {d : Dom} {c k : Nat}

theorem dirRequest_of_up (hup : s.DomainUp d) (e : Fin 8) (q : DirReq) (line : Nat) :
    exec (.directoryRequest d e q line) s = .next (doDirectoryRequest d e q line s) := quiet_of_live _ _ _ hup.2.1

theorem pm_frame (s : State) (b : Block) (code filt n : Nat) : s.pm b code filt n = { s with regs := (s.pm b code filt n).regs } := by
  have hone : ∀ (t : State) (i : Fin 8), t = { s with regs := t.regs } →
      pmOne (.pmSel b i) (.pmCnt b i) code filt n t = { s with regs := (pmOne (.pmSel b i) (.pmCnt b i) code filt n t).regs } := fun t i h => by
    rcases pmOne_eq_or_eq (.pmSel b i) (.pmCnt b i) code filt n t with e | e <;> rw [e]
    · rw [h]
      rfl
    · exact h
  have hall : ∀ (is : List (Fin 8)) (t : State), t = { s with regs := t.regs } →
      is.foldl (fun t i => pmOne (.pmSel b i) (.pmCnt b i) code filt n t) t =
        { s with regs := (is.foldl (fun t i => pmOne (.pmSel b i) (.pmCnt b i) code filt n t) t).regs } := by
    intro is
    induction is with
    | nil => exact fun t h => h
    | cons i is ih => exact fun t h => ih _ (hone t i h)
  unfold State.pm
  split
  · rfl
  · exact hall _ s rfl

/-- A cache with room, and a directory that tracks the line or has room, count the request and no more. -/
theorem lineMiss_of_room {e : Nat} (hc : (s.cacheLines d.val e).length < 131072) (hd : s.holders k ≠ [] ∨ s.dirLines d.val < 1048576) :
    s.lineMiss d.val e k = { s with regs := (s.lineMiss d.val e k).regs } := by
  obtain ⟨u, hu⟩ : ∃ u, u = s.pm (.stall (domStall (domOf d.val) e)) 0x27 0 1 := ⟨_, rfl⟩
  have hus : u = { s with regs := u.regs } := hu ▸ pm_frame ..
  have hdir : u.dir = s.dir := by rw [hus]
  have he : s.lineMiss d.val e k = u := by
    have hroom : s.cacheRoom d.val e = s := if_pos hc
    rw [State.lineMiss, hroom, ← hu, State.makeRoom, if_pos]
    have hh : u.holders k = s.holders k := by rw [State.holders, State.holders, hdir]
    have hl : u.dirLines d.val = s.dirLines d.val := by rw [State.dirLines, State.dirLines, hdir]
    rw [hh, hl]
    simpa using hd
  rw [he]
  exact hus

/-- What an update of a line's holders changes. -/
theorem setHolders_of_miss {u : State} (hu : u = { s with regs := u.regs }) {hs : List (Nat × LineState)} {t : State} (ht : t = u.setHolders k hs) :
    t.holders k = hs ∧ (∀ j, j ≠ k → t.holders j = s.holders j) ∧ t = { s with dir := t.dir, hints := t.hints, regs := t.regs } := by
  subst ht
  refine ⟨holders_setHolders_same .., fun j hj => ?_, ?_⟩
  · rw [holders_setHolders_other _ _ hj, hu]
    rfl
  · rw [hu]
    rfl

theorem setHolders_spec {hs : List (Nat × LineState)} {t : State} (ht : t = s.setHolders k hs) :
    t.holders k = hs ∧ (∀ j, j ≠ k → t.holders j = s.holders j) ∧ t = { s with dir := t.dir, hints := t.hints } := by
  subst ht
  exact ⟨holders_setHolders_same .., fun j hj => holders_setHolders_other _ _ hj, rfl⟩

/-- The holders of a line once a cache that did not hold it has read it (R367). -/
def withReader (c : Nat) : List (Nat × LineState) → List (Nat × LineState)
  | [] => [(c, .unique)]
  | [h] => putHolder c .shared [(h.1, .lead)]
  | h :: i :: hs => putHolder c .shared (h :: i :: hs)

/-- A line that a cache does not hold, read through it. -/
theorem lineShare_eq {hs : List (Nat × LineState)} (hh : s.holders k = hs) (hmine : tFind hs c = none) :
    s.lineShare d.val c k = (s.lineMiss d.val c k).setHolders k (withReader c hs) := by
  unfold State.lineShare
  simp only [hh, hmine, Option.isSome_none, Bool.false_eq_true, if_false]
  match hs with
  | [] => rfl
  | [_] => rfl
  | _ :: _ :: _ => rfl

theorem holders_of_dir {s t : State} (h : t.dir = s.dir) (j : Nat) : t.holders j = s.holders j := by rw [State.holders, State.holders, h]

theorem doDirectoryRequest_read (hup : s.DomainUp d) {e : Fin 8} {line : Nat} (hmine : tFind (s.holders (lineKey d.val line)) e.val = none)
    (hhint : tFind s.hints (lineKey d.val line) ≠ some e.val) : doDirectoryRequest d e .read line s = s.lineShare d.val e.val (lineKey d.val line) := by
  unfold doDirectoryRequest
  simp only [hup.2.2.1, Bool.not_true, Bool.false_eq_true, if_false, hhint, hmine, Option.isSome_none]

theorem doDirectoryRequest_eq (hup : s.DomainUp d) (e : Fin 8) (line : Nat) :
    doDirectoryRequest d e .readForOwnership line s = (if (tFind (s.holders (lineKey d.val line)) e.val).isSome then s.domainFailure d.val 1 e.val
      else s.lineOwn d.val e.val (lineKey d.val line)) ∧
    doDirectoryRequest d e .upgrade line s = (if tFind (s.holders (lineKey d.val line)) e.val = some .shared ∨
      tFind (s.holders (lineKey d.val line)) e.val = some .lead then s.lineOwn d.val e.val (lineKey d.val line) else s.domainFailure d.val 1 e.val) ∧
    doDirectoryRequest d e .evict line s = (if (tFind (s.holders (lineKey d.val line)) e.val).isNone then s.domainFailure d.val 1 e.val
      else s.lineDrop (lineKey d.val line) e.val) := by
  unfold doDirectoryRequest
  simp only [hup.2.2.1, Bool.not_true, Bool.false_eq_true, if_false, and_self]

/-! ### Bytes of a line written under a mask -/

theorem hbmByte_hbmWrite_one {a : Nat} (h : inHbm a = true) (b : Byte) : (s.hbmWrite a [b]).hbmByte a = b := by
  have hr := hbmRead_hbmWrite s a [b] h h
  simpa [State.hbmRead] using hr

/-- The byte of a line's data at an offset. -/
def lineByte (data : BitVec 512) (i : Nat) : Byte := BitVec.ofNat 8 (fld data (8 * i + 7) (8 * i))

/-- The first `n` bytes of a line written under a mask. -/
def State.maskPart (s : State) (a : Nat) (mask : BitVec 64) (data : BitVec 512) (n : Nat) : State :=
  (List.range n).foldl (fun t i => if mask.getLsbD i then t.hbmWrite (a + i) [lineByte data i] else t) s

theorem maskPart_spec {a : Nat} (mask : BitVec 64) (data : BitVec 512) (n : Nat) (hin : ∀ i, i < n → inHbm (a + i) = true) :
    (∀ i, i < n → (s.maskPart a mask data n).hbmByte (a + i) = if mask.getLsbD i then lineByte data i else s.hbmByte (a + i)) ∧
    (∀ b, (b < a ∨ a + n ≤ b) → (s.maskPart a mask data n).hbmByte b = s.hbmByte b) ∧
    s.maskPart a mask data n = { s with hbm := (s.maskPart a mask data n).hbm } := by
  induction n with
  | zero => exact ⟨fun i hi => absurd hi (Nat.not_lt_zero i), fun b _ => rfl, rfl⟩
  | succ n ih =>
    obtain ⟨hsame, hother, hframe⟩ := ih fun i hi => hin i (by omega)
    obtain ⟨u, hu⟩ : ∃ u, u = s.maskPart a mask data n := ⟨_, rfl⟩
    rw [← hu] at hsame hother hframe
    have hstep : s.maskPart a mask data (n + 1) = if mask.getLsbD n then u.hbmWrite (a + n) [lineByte data n] else u := by
      rw [hu, State.maskPart, List.range_succ, List.foldl_append, List.foldl_cons, List.foldl_nil]
      rfl
    rw [hstep]
    cases hm : mask.getLsbD n with
    | false =>
      rw [if_neg (by decide)]
      refine ⟨fun i hi => ?_, fun b hb => hother b (by omega), hframe⟩
      by_cases hin' : i = n
      · subst hin'
        rw [hm, if_neg (by decide), hother _ (.inr (Nat.le_refl _))]
      · exact hsame i (by omega)
    | true =>
      rw [if_pos rfl]
      refine ⟨fun i hi => ?_, fun b hb => ?_, ?_⟩
      · by_cases hin' : i = n
        · subst hin'
          rw [hm, if_pos rfl, hbmByte_hbmWrite_one (hin i hi)]
        · rw [hbmByte_hbmWrite_other _ _ _ _ (by left; omega)]
          exact hsame i (by omega)
      · rw [hbmByte_hbmWrite_other _ _ _ _ (by simp; omega)]
        exact hother b (by omega)
      · rw [State.hbmWrite]
        split
        · rw [hframe]
        · exact hframe

theorem maskWrite_spec {a : Nat} (mask : BitVec 64) (data : BitVec 512) (hin : ∀ i, i < 64 → inHbm (a + i) = true) {t : State}
    (ht : t = s.maskWrite a mask data) :
    (∀ i, i < 64 → t.hbmByte (a + i) = if mask.getLsbD i then lineByte data i else s.hbmByte (a + i)) ∧
    (∀ b, (b < a ∨ a + 64 ≤ b) → t.hbmByte b = s.hbmByte b) ∧ t = { s with hbm := t.hbm } :=
  ht ▸ maskPart_spec mask data 64 hin

theorem inHbm_line (d : Dom) (line : Nat) {i : Nat} (hi : i < 64) : inHbm (64 * lineKey d.val line + i) = true := by
  have hd := d.isLt
  have hl : line % (stackSize / 64) < stackSize / 64 := Nat.mod_lt _ (by decide)
  unfold inHbm lineKey
  rw [decide_eq_true_eq]
  simp only [hbmBase, stackSize] at hl ⊢
  omega

theorem lineBytes_of_ones {t : State} {data : BitVec 512} {a : Nat}
    (h : ∀ i, i < 64 → t.hbmByte (a + i) = if (BitVec.allOnes 64).getLsbD i then lineByte data i else s.hbmByte (a + i)) :
    (List.range 64).all (fun i => t.hbmByte (a + i) = BitVec.ofNat 8 (fld data (8 * i + 7) (8 * i))) = true := by
  rw [List.all_eq_true]
  intro i hi
  rw [List.mem_range] at hi
  rw [decide_eq_true_eq, h i hi, BitVec.getLsbD_allOnes, decide_eq_true hi, if_pos rfl]
  rfl

/-- Lines that are dropped make room. -/
theorem length_filter_tDel {α : Type} (k : Nat) (m : Tab α) (p : Nat × α → Bool) : ((tDel k m).filter p).length ≤ (m.filter p).length :=
  (List.filter_sublist.filter p).length_le

theorem dir_lineWrite (s : State) (k : Nat) : (s.lineWrite k).dir = tDel k s.dir := by
  unfold State.lineWrite State.setHolders tSet
  rw [if_pos rfl]

end

/-- Settles O45. A request makes of a line's holders what the directory's table gives, by cases on who holds it. -/
theorem directoryKeepsTheHoldersOfALine : Obligations.DirectoryKeepsTheHoldersOfALine := by
  unfold Obligations.DirectoryKeepsTheHoldersOfALine
  refine ⟨?nobody, ?alone, ?several, ?own, ?upgrade, ?evictLead, ?evictLast, ?protocol, ?dirty, ?clean, ?write, ?hint, ?degrade, ?hinted⟩
  case nobody =>
    intro s d c line k hup hk hnone hroom hcache hhint
    subst hk
    have he := (doDirectoryRequest_read (e := c) hup (by rw [hnone]; rfl) hhint).trans (lineShare_eq hnone rfl)
    refine ⟨_, dirRequest_of_up hup .., ?_⟩
    exact setHolders_of_miss (lineMiss_of_room hcache (.inr hroom)) he
  case alone =>
    intro s d c line k h st hup hk hone hne hcache hhint
    subst hk
    have hmine : tFind [(h, st)] c.val = none := by simp [tFind, hne.symm]
    have he := (doDirectoryRequest_read (e := c) hup (by rw [hone, hmine]) hhint).trans (lineShare_eq hone hmine)
    obtain ⟨hk, hother, hframe⟩ := setHolders_of_miss (lineMiss_of_room hcache (.inl (by rw [hone]; simp))) he
    refine ⟨_, dirRequest_of_up hup .., ?_, ?_, ?_, hother, hframe⟩
    all_goals rw [hk]
    · rw [withReader, putHolder, tFind_tPut_other _ _ _ _ hne]
      simp [tFind]
    · exact tFind_tPut_same ..
    · rcases Nat.lt_or_gt_of_ne hne with h' | h' <;> simp [withReader, putHolder, tPut, h', hne.symm, Nat.lt_asymm h']
  case several =>
    intro s d c line k a b hs hup hk hmany hmine hcache hhint
    subst hk
    have he := (doDirectoryRequest_read (e := c) hup (by rw [hmany, hmine]) hhint).trans (lineShare_eq hmany hmine)
    obtain ⟨hk, -, hframe⟩ := setHolders_of_miss (lineMiss_of_room hcache (.inl (by rw [hmany]; simp))) he
    refine ⟨_, dirRequest_of_up hup .., ?_, fun j hj => ?_, hframe⟩
    · rw [hk]
      exact tFind_tPut_same ..
    · rw [hk, hmany]
      exact tFind_tPut_other _ _ _ _ hj
  case own =>
    intro s d c line k hup hk hmine hroom hcache
    subst hk
    have he : doDirectoryRequest d c .readForOwnership line s =
        (s.lineMiss d.val c.val (lineKey d.val line)).setHolders (lineKey d.val line) [(c.val, .dirty)] := by
      rw [(doDirectoryRequest_eq hup c line).1, hmine, Option.isSome_none, if_neg (by decide), State.lineOwn, hmine]
    exact ⟨_, dirRequest_of_up hup .., setHolders_of_miss (lineMiss_of_room hcache hroom) he⟩
  case upgrade =>
    intro s d c line k hup hk hmine
    subst hk
    have he : doDirectoryRequest d c .upgrade line s = s.setHolders (lineKey d.val line) [(c.val, .dirty)] := by
      rw [(doDirectoryRequest_eq hup c line).2.1, if_pos hmine, State.lineOwn]
      rcases hmine with h | h <;> rw [h]
    exact ⟨_, dirRequest_of_up hup .., setHolders_spec he⟩
  case evictLead =>
    intro s d c line k a b x y hs hup hk hmine hrest hlead
    subst hk
    have he : doDirectoryRequest d c .evict line s = s.setHolders (lineKey d.val line) ((a, .lead) :: (b, y) :: hs) := by
      rw [(doDirectoryRequest_eq hup c line).2.2, hmine, Option.isNone_some, if_neg (by decide), State.lineDrop, hrest]
      have hany : ((a, x) :: (b, y) :: hs).any (fun e => decide (e.2 = .lead)) = false := by
        rw [List.any_eq_false]
        intro e he
        simpa using List.all_eq_true.1 hlead e he
      unfold settleHolders
      simp only [hany, Bool.false_eq_true, if_false]
    exact ⟨_, dirRequest_of_up hup .., setHolders_spec he⟩
  case evictLast =>
    intro s d c line k a x hup hk hmine hrest hx
    subst hk
    have he : doDirectoryRequest d c .evict line s = s.setHolders (lineKey d.val line) [(a, .unique)] := by
      have hsome : (tFind (s.holders (lineKey d.val line)) c.val).isNone = false := by
        rw [← Option.not_isSome, hmine]
        rfl
      rw [(doDirectoryRequest_eq hup c line).2.2, hsome, if_neg (by decide), State.lineDrop, hrest]
      rcases hx with rfl | rfl <;> rfl
    exact ⟨_, dirRequest_of_up hup .., setHolders_spec he⟩
  case protocol =>
    intro s d c line k q hup hk hbad hhint hi hv
    subst hk
    have he : doDirectoryRequest d c q line s = s.domainFailure d.val 1 c.val := by
      obtain ⟨hown, hup', hev⟩ := doDirectoryRequest_eq hup c line
      rcases hbad with ⟨hmine, rfl | rfl⟩ | ⟨hmine, rfl | rfl⟩
      · rw [hup', hmine]
        exact if_neg (by simp)
      · rw [hev, hmine]
        rfl
      · unfold doDirectoryRequest
        simp only [hup.2.2.1, Bool.not_true, Bool.false_eq_true, if_false, hhint rfl, hmine, if_true]
      · rw [hown, if_pos hmine]
    have hc := c.isLt
    have hfail : s.domainFailure d.val 1 c.val = s.fenceDomain d.val 1 c.val := domainFailure_eq hup 1 c.val
    exact ⟨_, dirRequest_of_up hup .., by
      rw [he, hfail]
      exact (fenceDomain_lost hup.2.2.1 hi hv (by decide) (by omega)).1⟩
  case dirty =>
    intro s d line k c hup hk hone
    subst hk
    have he : doUncachedRead d line s = s.setHolders (lineKey d.val line) [(c, .unique)] := by
      unfold doUncachedRead State.lineRead
      rw [if_pos hup.2.2.1, hone]
    exact ⟨_, quiet_of_live _ _ _ hup.2.1, setHolders_spec he⟩
  case clean =>
    intro s d line k hup hk hclean
    subst hk
    have he : doUncachedRead d line s = s := by
      unfold doUncachedRead State.lineRead
      rw [if_pos hup.2.2.1]
      split
      · next c heq =>
        rw [heq] at hclean
        exact absurd hclean (by simp)
      · rfl
    exact (quiet_of_live _ _ _ hup.2.1).trans (congrArg _ he)
  case write =>
    intro s d line k mask data hup hk
    subst hk
    obtain ⟨u, hu⟩ : ∃ u, u = s.maskWrite (64 * lineKey d.val line) mask data := ⟨_, rfl⟩
    obtain ⟨hsame, hother, hframe⟩ := maskWrite_spec mask data (fun i hi => inHbm_line d line hi) hu
    have he : doUncachedWrite d line mask data s = u.lineWrite (lineKey d.val line) := by
      unfold doUncachedWrite
      rw [if_pos hup.2.2.1, hu]
    obtain ⟨hk, hkeep, hset⟩ := setHolders_spec he
    have hbyte : ∀ a, (doUncachedWrite d line mask data s).hbmByte a = u.hbmByte a := fun a => by rw [he]; rfl
    refine ⟨_, quiet_of_live _ _ _ hup.2.1, hk, fun j hj => ?_, fun i hi => ?_, fun a ha => ?_, ?_, ?_⟩
    · rw [hkeep j hj, State.holders, State.holders, hframe]
    · rw [hbyte, hsame i hi]
      rfl
    · rw [hbyte, hother a ha]
    · rw [he, hframe]
      rfl
    · rw [List.all_eq_true]
      intro i hi
      rw [decide_eq_true_eq, hbyte, hsame i (List.mem_range.1 hi)]
      rfl
  case hint =>
    intro s d line k data c hup hk hctrl hroom hcache
    subst hk
    obtain ⟨u, hu⟩ : ∃ u, u = s.maskWrite (64 * lineKey d.val line) (BitVec.allOnes 64) data := ⟨_, rfl⟩
    obtain ⟨hsame, hother, hframe⟩ := maskWrite_spec (BitVec.allOnes 64) data (fun i hi => inHbm_line d line hi) hu
    obtain ⟨v, hv⟩ : ∃ v, v = u.lineWrite (lineKey d.val line) := ⟨_, rfl⟩
    have hdir : v.dir = tDel (lineKey d.val line) s.dir := by rw [hv, dir_lineWrite, hframe]
    have hvf : v = { s with hbm := u.hbm, dir := v.dir, hints := v.hints } := by
      rw [hv, hframe]
      rfl
    have hlines : v.dirLines d.val < 1048576 := by
      refine Nat.lt_of_le_of_lt ?_ hroom
      rw [State.dirLines, hdir]
      exact length_filter_tDel ..
    have hcache' : (v.cacheLines d.val c.val).length < 131072 := by
      refine Nat.lt_of_le_of_lt ?_ hcache
      rw [State.cacheLines, State.cacheLines, hdir, List.length_map, List.length_map]
      exact length_filter_tDel ..
    have hctrl' : v.rb (.csCtrl d) 16 = true := by
      rw [hvf]
      exact hctrl
    have hroom' : v.makeRoom d.val (lineKey d.val line) = v := if_pos (by simp [hlines])
    have he : doWriteHint d line data c true s = { v.setHolders (lineKey d.val line) [(c.val, .dirty)] with
        hints := tPut (lineKey d.val line) c.val (v.setHolders (lineKey d.val line) [(c.val, .dirty)]).hints } := by
      unfold doWriteHint
      simp only [hup.2.2.1, if_true, ← hu, ← hv, hctrl', hcache', hroom', decide_true, Bool.and_self]
    have hbyte : ∀ a, (doWriteHint d line data c true s).hbmByte a = u.hbmByte a := fun a => by
      rw [he, hv]
      rfl
    refine ⟨_, quiet_of_live _ _ _ hup.2.1, ?_, fun j hj => ?_, lineBytes_of_ones fun i hi => (hbyte _).trans (hsame i hi),
      fun a ha => by rw [hbyte, hother a ha], ?_, ?_⟩
    · rw [he]
      exact (holders_of_dir (s := v.setHolders (lineKey d.val line) [(c.val, .dirty)]) rfl _).trans (holders_setHolders_same ..)
    · rw [he]
      refine (holders_of_dir (s := v.setHolders (lineKey d.val line) [(c.val, .dirty)]) rfl j).trans ((holders_setHolders_other v [(c.val, .dirty)] hj).trans ?_)
      rw [State.holders, hdir, State.holders, tGet, tGet, tFind_tDel_other _ _ _ hj]
    · rw [he]
      exact tFind_tPut_same ..
    · rw [he, hvf]
      rfl
  case degrade =>
    intro s d line k data c ready hup hk hno
    subst hk
    obtain ⟨u, hu⟩ : ∃ u, u = s.maskWrite (64 * lineKey d.val line) (BitVec.allOnes 64) data := ⟨_, rfl⟩
    obtain ⟨hsame, hother, hframe⟩ := maskWrite_spec (BitVec.allOnes 64) data (fun i hi => inHbm_line d line hi) hu
    obtain ⟨v, hv⟩ : ∃ v, v = u.lineWrite (lineKey d.val line) := ⟨_, rfl⟩
    have hregs : ∀ q, v.reg q = s.reg q := fun q => by
      rw [hv, hframe]
      rfl
    have he : doWriteHint d line data c ready s = v.bump (.csCount d) 47 32 1 := by
      unfold doWriteHint
      simp only [hup.2.2.1, if_true, ← hu, ← hv]
      rw [if_neg]
      rcases hno with h | h
      · rw [State.rb, hregs, show bit (s.reg (.csCtrl d)) 16 = false from h]
        simp
      · simp [h]
    have hbyte : ∀ a, (doWriteHint d line data c ready s).hbmByte a = u.hbmByte a := fun a => by
      rw [he, hv]
      rfl
    refine ⟨_, quiet_of_live _ _ _ hup.2.1, ?_, ?_, lineBytes_of_ones fun i hi => (hbyte _).trans (hsame i hi),
      fun a ha => by rw [hbyte, hother a ha], ?_⟩
    · rw [he, hv]
      exact (holders_of_dir (s := u.lineWrite (lineKey d.val line)) rfl _).trans (holders_setHolders_same ..)
    · rw [he, rf_bump_same _ _ _ _ _ (by decide), State.rf, hregs]
      rfl
    · rw [he, hv, hframe]
      rfl
  case hinted =>
    intro s d c line k hup hk hhint
    subst hk
    refine (dirRequest_of_up hup ..).trans (congrArg _ ?_)
    unfold doDirectoryRequest
    simp only [hup.2.2.1, Bool.not_true, Bool.false_eq_true, if_false, hhint, if_true]

end Sys2Proof.Machine
end

section
/-! PROOFS. An atomic of a Steward that has a write of its own in flight (R362, R378). -/

namespace Sys2Proof.Machine

-- The proofs are elaborated one after another: in parallel their threads' stacks need more memory than a compile may have.
set_option Elab.async false

/-- The part with a write of East's Steward to the first word of HBM acknowledged early and not yet performed (R363). -/
def writingState : State :=
  { State.reset with coreOn := true, pins := { resetL := true }, coreAccs := [⟨0, 0, hbmBase, 5, .held, false⟩], serial := 1 }

theorem writingState_meets : writingState.live (.hitch 0) = true ∧ writingState.domRuns (0 : Dom).val = true ∧
    atomOk (0x45 : BitVec 11).toNat = true ∧ atomBad (0x45 : BitVec 11).toNat = true ∧ 4 = atomSize ((0x45 : BitVec 11).toNat / 16 % 8) ∧
    (inHbm (BitVec.ofNat 64 hbmBase).toNat = true ∧ domOfHbm (BitVec.ofNat 64 hbmBase).toNat = (0 : Dom).val) ∧
    (BitVec.ofNat 64 hbmBase).toNat % 4 = 0 := by decide +kernel

/-- The write is performed before the atomic of the same location. -/
theorem writingState_byte : (match exec (.hitchAtomic 0 (BitVec.ofNat 64 hbmBase) 0x45 0 0) writingState with
    | .next t => t.hbmByte hbmBase
    | _ => 0) = 5 := by decide +kernel

/-- Refutes O47: a refused atomic changes HBM where the Steward's own earlier write to the location is performed before it. -/
theorem not_locksAndHitchAtomics : ¬ Obligations.LocksAndHitchAtomics := by
  intro h
  obtain ⟨-, -, -, -, -, -, -, -, -, -, -, hbad⟩ := h
  obtain ⟨hlive, hrun, hok, hno, hn, hin, ha⟩ := writingState_meets
  have he := hbad writingState 0 (BitVec.ofNat 64 hbmBase) 0 0 0x45 4 hlive hrun hok hno hn hin ha
  have hbyte := writingState_byte
  rw [he] at hbyte
  have hzero : writingState.hbmByte hbmBase = 0 := by decide +kernel
  exact absurd (hzero.symm.trans hbyte) (by decide)

end Sys2Proof.Machine
end

section
/-! PROOFS. Network time (R391 to R400): the only candidate is the parent, what steering and stepping change, the root and
its edges, and exclusion. -/

namespace Sys2Proof.Machine

-- The proofs are elaborated one after another: in parallel their threads' stacks need more memory than a compile may have.
set_option Elab.async false

/-! ### The registers of network time -/

/-- The addresses of the registers that network time keeps. -/
def NtAt (a : Nat) : Prop := a = Reg.ntStatus.addr ∨ a = Reg.ntOffset.addr ∨ a = Reg.ntSeed.addr

theorem ntOffset_ne_ntStatus : Reg.ntOffset.addr ≠ Reg.ntStatus.addr := addr_ne_of_off 0x520 0x518 rfl rfl
theorem ntSeed_ne_ntStatus : Reg.ntSeed.addr ≠ Reg.ntStatus.addr := addr_ne_of_off 0x510 0x518 rfl rfl
theorem ntCtrl_ne_ntStatus : Reg.ntCtrl.addr ≠ Reg.ntStatus.addr := addr_ne_of_off 0x508 0x518 rfl rfl
theorem not_faultAt_ntStatus : ¬ FaultAt .global Reg.ntStatus.addr := not_faultAt_of_off _ 0x518 rfl
theorem not_faultAt_ntSeed : ¬ FaultAt .global Reg.ntSeed.addr := not_faultAt_of_off _ 0x510 rfl

/-- What is noted of exclusion is when the last condition ended. -/
theorem noteGood_eq (s : State) : ∃ x, s.noteGood = { s with goodSince := x } := by
  unfold State.noteGood
  split_ifs
  · exact ⟨none, rfl⟩
  · exact ⟨some s.clk, rfl⟩
  · exact ⟨s.goodSince, rfl⟩

/-! ### The parent (R395) -/

section

variable {s : State} {p : Port} {r : SyncRx}

theorem candidate_of_rx_none {q : Port} (h : (s.port q).rx = none) : s.candidate q = none := by
  rw [State.candidate, h]

theorem candidate_of_expired (h : (s.port p).rx = some r) (hlate : r.at_ + 4 * s.syncPeriod < s.clk) :
    s.candidate p = none := by
  rw [State.candidate, h]
  exact if_neg (by simp only [Bool.and_eq_true, decide_eq_true_eq]; omega)

theorem candidate_of_now (h : (s.port p).rx = some r) (hv : r.valid = true) (hd : r.dist < 62) (hat : r.at_ = s.clk) :
    s.candidate p = some r := by
  rw [State.candidate, h]
  exact if_pos (by simp only [Bool.and_eq_true, decide_eq_true_eq]; exact ⟨⟨hv, hd⟩, by omega⟩)

/-- What the choice among candidates keeps when it comes to a port. -/
def State.betterOf (s : State) (b : Option (Port × SyncRx)) (p : Port) : Option (Port × SyncRx) :=
  match s.candidate p, b with
  | some r, none => some (p, r)
  | some r, some (q, t) => if r.better t then some (p, r) else some (q, t)
  | none, _ => b

theorem bestCandidate_eq (s : State) : s.bestCandidate = (List.finRange 64).foldl s.betterOf none := rfl

theorem betterOf_of_none {q : Port} (h : s.candidate q = none) (b : Option (Port × SyncRx)) : s.betterOf b q = b := by
  simp [State.betterOf, h]

theorem betterOf_of_only (h : s.candidate p = some r) {b : Option (Port × SyncRx)} (hb : b = none ∨ b = some (p, r)) :
    s.betterOf b p = some (p, r) := by
  rcases hb with rfl | rfl <;> simp [State.betterOf, h]

theorem bestCandidate_of_none (h : ∀ q, s.candidate q = none) : s.bestCandidate = none :=
  List.foldlRecOn (motive := fun b => b = none) _ _ rfl fun b hb q _ => (betterOf_of_none (h q) b).trans hb

/-- Where one port alone is a candidate it is the best. -/
theorem bestCandidate_of_only (h : s.candidate p = some r) (ho : ∀ q, q ≠ p → s.candidate q = none) :
    s.bestCandidate = some (p, r) := by
  have fold : ∀ (l : List Port) (b : Option (Port × SyncRx)), (p ∈ l ∧ b = none) ∨ b = some (p, r) →
      l.foldl s.betterOf b = some (p, r) := by
    intro l
    induction l with
    | nil =>
      rintro b (⟨hb, _⟩ | hb)
      · exact absurd hb List.not_mem_nil
      · exact hb
    | cons q l ih =>
      intro b hb
      refine ih _ ?_
      by_cases hq : q = p
      · rw [hq]
        exact .inr (betterOf_of_only h (hb.imp_left And.right))
      · rw [betterOf_of_none (ho q hq)]
        exact hb.imp_left fun hb => ⟨(List.mem_cons.1 hb.1).resolve_left (Ne.symm hq), hb.2⟩
  exact fold _ none (.inl ⟨List.mem_finRange p, rfl⟩)

/-- The parent is a candidate. -/
theorem parent_candidate {q : Port} {t : SyncRx} (h : s.parent = some (q, t)) : s.candidate q = some t := by
  unfold State.parent at h
  split_ifs at h
  obtain ⟨x, hx, e⟩ := Option.map_eq_some_iff.1 h
  cases e
  exact hx

/-- NT_STATUS shows port `p` as the parent, with what its TIME_SYNC `r` says. -/
def State.showParent (s : State) (p : Port) (r : SyncRx) : State :=
  ((s.wf .ntStatus 55 50 (r.dist + 1)).wf .ntStatus 49 44 p.val).wb .ntStatus 61 false

/-- The chip follows port `p`, whose last TIME_SYNC is `r` (R395). -/
def State.adopt (s : State) (p : Port) (r : SyncRx) : State := { s.showParent p r with holdSince := none }

/-- The only candidate becomes the parent; the exchanges with another are forgotten. -/
theorem chooseParent_of_only (hroot : s.isRoot = false) (h : s.candidate p = some r) (ho : ∀ q, q ≠ p → s.candidate q = none) :
    ∃ ts, (ts = [] ∨ ts = s.thetas) ∧ s.chooseParent = State.adopt { s with thetas := ts } p r := by
  have hpar : s.parent = none ∨ s.parent = some (p, r) := by
    cases e : s.parent with
    | none => exact .inl rfl
    | some x =>
      obtain ⟨q, t⟩ := x
      have hc := parent_candidate e
      by_cases hq : q = p
      · subst hq; rw [h] at hc; cases hc; exact .inr rfl
      · rw [ho q hq] at hc; cases hc
  have hput : ∃ s1, (s1 = { s with thetas := [] } ∨ s1 = s) ∧ s.chooseParent = s1.adopt p r := by
    unfold State.chooseParent
    rw [if_neg (by rw [hroot]; decide), bestCandidate_of_only h ho]
    rcases hpar with e | e
    · rw [e]; exact ⟨_, .inl rfl, rfl⟩
    · rw [e]
      refine ⟨s, .inr rfl, ?_⟩
      have hb : (if r.better r = true then some (p, r) else some (p, r)) = some (p, r) := ite_self _
      dsimp only
      rw [hb]
      exact congrArg (fun u : State => u.adopt p r) (if_neg (by simp))
  obtain ⟨s1, rfl | rfl, e⟩ := hput
  · exact ⟨[], .inl rfl, e⟩
  · exact ⟨s1.thetas, .inr rfl, e⟩

/-- NT_STATUS shows a chip without a parent. -/
def State.showAdrift (s : State) : State := (s.wf .ntStatus 55 50 63).wb .ntStatus 61 true

/-- The chip has no parent: it is in holdover at dist 63 (R395). -/
def State.adrift (s : State) : State :=
  { s.showAdrift with holdSince := if s.holdSince.isSome then s.holdSince else some s.clk }

theorem chooseParent_of_none (hroot : s.isRoot = false) (h : ∀ q, s.candidate q = none) : s.chooseParent = s.adrift := by
  have hpar : s.parent = none := by
    cases e : s.parent with
    | none => rfl
    | some x =>
      have hx := parent_candidate (q := x.1) (t := x.2) e
      rw [h] at hx
      cases hx
  have hput : s.chooseParent = if s.showAdrift.holdSince.isSome then s.showAdrift else
      { s.showAdrift with holdSince := some s.showAdrift.clk } := by
    unfold State.chooseParent
    rw [if_neg (by rw [hroot]; decide), bestCandidate_of_none h, hpar]
    rfl
  have hs : s.showAdrift.holdSince = s.holdSince := rfl
  rw [hput, State.adrift, ← hs]
  cases s.showAdrift.holdSince.isSome <;> rfl

end

theorem showParent_spec (s : State) (p : Port) {r : SyncRx} (h : r.dist < 62) :
    (s.showParent p r).rf .ntStatus 55 50 = r.dist + 1 ∧ (s.showParent p r).rf .ntStatus 49 44 = p.val ∧
    (s.showParent p r).rb .ntStatus 61 = false := by
  unfold State.showParent
  refine ⟨?_, ?_, rb_wb_same _ _ _ _ (by decide)⟩
  · rw [rf_wb_field _ _ _ _ _ _ (by decide) (by decide), rf_wf_field _ _ _ _ _ _ _ (by decide) (by decide),
      rf_wf_same _ _ _ _ _ (by decide)]
    exact Nat.mod_eq_of_lt (by omega)
  · rw [rf_wb_field _ _ _ _ _ _ (by decide) (by decide), rf_wf_same _ _ _ _ _ (by decide)]
    exact Nat.mod_eq_of_lt (by have := p.isLt; omega)

theorem showParent_other (s : State) (p : Port) (r : SyncRx) :
    (s.showParent p r).rf .ntStatus 31 0 = s.rf .ntStatus 31 0 ∧ (s.showParent p r).rb .ntStatus 59 = s.rb .ntStatus 59 := by
  unfold State.showParent
  refine ⟨?_, ?_⟩
  · rw [rf_wb_field _ _ _ _ _ _ (by decide) (by decide), rf_wf_field _ _ _ _ _ _ _ (by decide) (by decide),
      rf_wf_field _ _ _ _ _ _ _ (by decide) (by decide)]
  · rw [rb_wb_bit_other _ _ _ (by decide) (by decide), rb_wf_field _ _ _ _ _ _ (by decide) (by decide),
      rb_wf_field _ _ _ _ _ _ (by decide) (by decide)]

/-- Of registers adopting a parent writes NT_STATUS alone. -/
theorem adopt_alters (s : State) (p : Port) (r : SyncRx) :
    s.Alters (s.adopt p r) [.regs, .holdSince] (fun a => a = Reg.ntStatus.addr) :=
  have put : ∀ (t : State) v, t.Alters (t.setReg .ntStatus v) [.regs, .holdSince] (fun a => a = Reg.ntStatus.addr) :=
    fun t v => .setReg t v rfl
  have h : s.Alters (s.showParent p r) [.regs, .holdSince] (fun a => a = Reg.ntStatus.addr) :=
    ((put s _).trans (put _ _)).trans (put _ _)
  h.trans (.put_holdSince _ _)

/-! ### Steering and stepping (R396, R399) -/

theorem foldl_min_bounds (th : Int) (ts : List Int) {n : Nat} (h : ∀ x ∈ th :: ts, x.natAbs ≤ n) :
    (ts.foldl min th).natAbs ≤ n ∧ ts.foldl min th ≤ th := by
  induction ts generalizing th with
  | nil => exact ⟨h th (by simp), le_refl _⟩
  | cons x ts ih =>
    have hx := h x (by simp)
    have hth := h th (by simp)
    obtain ⟨h1, h2⟩ := ih (min th x) fun y hy => by
      rcases List.mem_cons.1 hy with rfl | hy
      · rcases min_choice th x with e | e <;> rw [e] <;> assumption
      · exact h y (by simp [hy])
    exact ⟨h1, h2.trans (min_le_left _ _)⟩

theorem foldl_max_bounds (th : Int) (ts : List Int) {n : Nat} (h : ∀ x ∈ th :: ts, x.natAbs ≤ n) :
    (ts.foldl max th).natAbs ≤ n ∧ th ≤ ts.foldl max th := by
  induction ts generalizing th with
  | nil => exact ⟨h th (by simp), le_refl _⟩
  | cons x ts ih =>
    have hx := h x (by simp)
    have hth := h th (by simp)
    obtain ⟨h1, h2⟩ := ih (max th x) fun y hy => by
      rcases List.mem_cons.1 hy with rfl | hy
      · rcases max_choice th x with e | e <;> rw [e] <;> assumption
      · exact h y (by simp [hy])
    exact ⟨h1, (le_max_left _ _).trans h2⟩

/-- The filter of R399 stays within the bounds of what it filters. -/
theorem filterTheta_natAbs (s : State) (th : Int) {n : Nat} (hth : th.natAbs ≤ n) (h : ∀ x ∈ s.thetas, x.natAbs ≤ n) :
    (s.filterTheta th).1.natAbs ≤ n := by
  have hts : ∀ x ∈ th :: (th :: s.thetas).take 64, x.natAbs ≤ n := fun x hx => by
    rcases List.mem_cons.1 hx with rfl | hx
    · exact hth
    · rcases List.mem_cons.1 (List.mem_of_mem_take hx) with rfl | hx
      exacts [hth, h x hx]
  obtain ⟨l1, l2⟩ := foldl_min_bounds _ _ hts
  obtain ⟨h1, h2⟩ := foldl_max_bounds _ _ hts
  simp only [State.filterTheta, State.free]
  generalize ((th :: s.thetas).take 64).foldl min th = lo at *
  generalize ((th :: s.thetas).take 64).foldl max th = hi at *
  generalize (BitVec.ofNat 64 (Config.freeValue s.frees)).toNat = v
  have hmod := Nat.mod_lt v (y := (hi - lo).toNat + 1) (by omega)
  omega

theorem filterTheta_of_nil {s : State} (th : Int) (h : s.thetas = []) : (s.filterTheta th).1 = th := by
  simp [State.filterTheta, State.free, h, Nat.mod_one]

theorem toSigned_ofInt (x : Int) (h : x.natAbs < 2 ^ 31) : toSigned 32 (BitVec.ofInt 32 x).toNat = x := by
  rw [toSigned, BitVec.ofNat_toNat, BitVec.setWidth_eq, BitVec.toInt_ofInt]
  exact Int.bmod_eq_of_le (by omega) (by omega)

/-- The rate's correction that steering gives for a filtered θ of `f`: at most 200 ppm against its sign. -/
def rateFor (f : Int) (m : Nat) : Int := if 0 < f then -m else if f < 0 then m else 0

theorem rateFor_spec (f : Int) {m : Nat} (hm : m ≤ 200000) : (rateFor f m).natAbs ≤ 200000 ∧ (0 < f → rateFor f m ≤ 0) ∧
    (f < 0 → 0 ≤ rateFor f m) := by
  unfold rateFor
  split_ifs <;> omega

theorem steer_eq (s : State) (th : Int) : ∃ m ≤ 200000, ∃ ts n, s.steer th = State.setReg { s with thetas := ts, frees := n } .ntOffset
    (mkWord 64 [(63, 32, (BitVec.ofInt 32 (s.filterTheta th).1).toNat), (31, 0, (BitVec.ofInt 32 (rateFor (s.filterTheta th).1 m)).toNat)]) :=
  ⟨_, Nat.le_of_lt_succ (Nat.mod_lt _ (by decide)), _, _, rfl⟩

theorem steer_alters (s : State) (th : Int) : s.Alters (s.steer th) [.regs, .thetas, .frees] (fun a => a = Reg.ntOffset.addr) := by
  obtain ⟨m, _, ts, n, e⟩ := steer_eq s th
  rw [e]
  exact ((State.Alters.put_thetas s ts).trans (.put_frees _ n)).trans (.setReg _ _ rfl)

theorem steer_fields (s : State) (th : Int) : ∃ m ≤ 200000,
    (s.steer th).rf .ntOffset 63 32 = (BitVec.ofInt 32 (s.filterTheta th).1).toNat ∧
    toSigned 32 ((s.steer th).rf .ntOffset 31 0) = rateFor (s.filterTheta th).1 m := by
  obtain ⟨m, hm, ts, n, e⟩ := steer_eq s th
  refine ⟨m, hm, ?_, ?_⟩
  · rw [e, State.rf, reg_setReg_same]
    simp only [mkWord, List.foldl]
    rw [fld_setFld_other _ _ _ _ _ _ (by decide) (by decide), fld_setFld_same _ _ _ _ (by decide)]
    exact Nat.mod_eq_of_lt (BitVec.isLt _)
  · rw [e, State.rf, reg_setReg_same]
    simp only [mkWord, List.foldl]
    rw [fld_setFld_same _ _ _ _ (by decide), Nat.mod_eq_of_lt (BitVec.isLt _)]
    exact toSigned_ofInt _ (by have := (rateFor_spec (s.filterTheta th).1 hm).1; omega)

/-- A step of NT marks NT_STATUS, and is a NOTE (R396). -/
theorem stepNt_alters (s : State) (x : BitVec 64) : s.Alters (s.stepNt x) (faultFields ++ [.nt, .thetas, .grooms, .ports])
    (fun a => a = Reg.ntStatus.addr ∨ FaultAt .global a) := by
  have h : ∀ a b c d, s.Alters { s with nt := a, thetas := b, grooms := c, ports := d } (faultFields ++ [.nt, .thetas, .grooms, .ports])
      (fun a => a = Reg.ntStatus.addr ∨ FaultAt .global a) := fun a b c d =>
    (((State.Alters.put_nt s a).trans (.put_thetas _ b)).trans (.put_grooms _ c)).trans (.put_ports _ d)
  exact ((h ..).trans (.setReg _ _ (.inl rfl))).trans (.fault _ _ _ _ fun _ => .inr)

theorem stepNt_spec (s : State) (x : BitVec 64) : (s.stepNt x).nt = x ∧ (s.stepNt x).rb .ntStatus 59 = true :=
  ⟨(fault_alters _ _ _ _ _).nt, (rb_fault _ _ _ _ _ not_faultAt_ntStatus _).trans (rb_wb_same _ _ _ _ (by decide))⟩

/-- A step keeps what NT_STATUS shows but the mark of it. -/
theorem stepNt_ntStatus (s : State) (x : BitVec 64) : (∀ i, i < 64 → i ≠ 59 → (s.stepNt x).rb .ntStatus i = s.rb .ntStatus i) ∧
    (s.stepNt x).ntEpoch = s.ntEpoch := by
  refine ⟨fun i hi hne => ?_, ?_⟩
  · exact (rb_fault _ _ _ _ _ not_faultAt_ntStatus _).trans (rb_wb_bit_other _ _ _ hi (Ne.symm hne))
  · exact (rf_fault _ _ _ _ _ not_faultAt_ntStatus _ _).trans (rf_wb_field _ _ _ _ _ _ (by decide) (by decide))

end Sys2Proof.Machine
end

section
/-! PROOFS. A TIME_SYNC received: it is kept, its port becomes the parent, and NT is steered or stepped towards it (R393 to
R396). -/

namespace Sys2Proof.Machine

-- The proofs are elaborated one after another: in parallel their threads' stacks need more memory than a compile may have.
set_option Elab.async false

/-- What a port keeps of the TIME_SYNC with header `h` (R393). -/
def State.rxOf (s : State) (p : Port) (h : BitVec 512) : SyncRx :=
  ⟨fld h 351 320, fld h 319 314, decide (fld h 313 313 = 1), fld h 367 352, s.clk, (s.port p).syncIn.headD s.nt.toNat⟩

/-- A port that has taken a TIME_SYNC off its input. -/
def PortSt.synced (x : PortSt) (r : SyncRx) (h : BitVec 512) : PortSt :=
  { x with rx := some r, delay := match x.offset h with | some t => some t.2 | none => x.delay }

/-- A port from whose input VC0 `n` flits have left. -/
def PortSt.took (x : PortSt) (n : Nat) : PortSt :=
  { x.free 0 n with ibuf := tMod [] 0 (fun l => l.drop n) x.ibuf, syncIn := x.syncIn.drop n }

section

variable {s : State} {p : Port} {h : BitVec 512}

theorem takeSrc_srcPort (s : State) (p : Port) (n : Nat) : s.takeSrc (srcPort p 0) n = s.modPort p (fun x => x.took n) := by
  have hp := p.isLt
  have hk : srcPort p 0 / 16 = p.val ∧ srcPort p 0 % 16 = 0 ∧ srcPort p 0 < 1024 := by unfold srcPort; omega
  have hport : portOf p.val = p := Fin.ext (Nat.mod_eq_of_lt hp)
  rw [State.takeSrc, if_pos hk.2.2, hk.1, hk.2.1, hport]
  rfl

theorem free_kept (x : PortSt) (v n : Nat) : (x.free v n).rx = x.rx ∧ (x.free v n).sent = x.sent ∧ (x.free v n).delay = x.delay := by
  unfold PortSt.free PortSt.freeNow
  extract_lets o k y
  split_ifs <;> exact ⟨rfl, rfl, rfl⟩

theorem took_kept (x : PortSt) (n : Nat) : (x.took n).rx = x.rx ∧ (x.took n).sent = x.sent ∧ (x.took n).delay = x.delay ∧
    tGet [] (x.took n).ibuf 0 = (tGet [] x.ibuf 0).drop n :=
  ⟨(free_kept x 0 n).1, (free_kept x 0 n).2.1, (free_kept x 0 n).2.2, tGet_tMod_same ..⟩

theorem offset_took (x : PortSt) (n : Nat) (h : BitVec 512) : (x.took n).offset h = x.offset h := by
  obtain ⟨h1, h2, -⟩ := took_kept x n
  rw [PortSt.offset, PortSt.offset, h1, h2]

/-- The TIME_SYNC has left the input and is kept. -/
def State.notedSync (s : State) (p : Port) (h : BitVec 512) : State :=
  ((s.modPort p (fun x => x.took 1)).modPort p (fun x => { x with
    rx := some (s.rxOf p h), delay := match (s.port p).offset h with | some t => some t.2 | none => x.delay })).noteEpoch
    (fld h 351 320)

theorem noteEpoch_alters (s : State) (e : Nat) {F : List Field} {P : Nat → Prop} (hF : .epochSeen ∈ F := by decide) :
    s.Alters (s.noteEpoch e) F P := .ite (.put_epochSeen s _ hF) (.refl s)

theorem notedSync_alters (s : State) (p : Port) (h : BitVec 512) : s.Alters (s.notedSync p h) [.ports, .epochSeen] (fun _ => False) :=
  ((State.Alters.put_ports s _).trans (.put_ports _ _)).trans (noteEpoch_alters ..)

theorem notedSync_port (s : State) (p : Port) (h : BitVec 512) :
    ((s.notedSync p h).port p).rx = some (s.rxOf p h) ∧
    ((s.notedSync p h).port p).delay = (match (s.port p).offset h with | some t => some t.2 | none => (s.port p).delay) ∧
    tGet [] ((s.notedSync p h).port p).ibuf 0 = (tGet [] (s.port p).ibuf 0).drop 1 ∧
    ∀ q, q ≠ p → (s.notedSync p h).port q = s.port q := by
  have hports : (s.notedSync p h).ports = tMod {} p.val (fun x => { x with
      rx := some (s.rxOf p h), delay := match (s.port p).offset h with | some t => some t.2 | none => x.delay })
      (tMod {} p.val (fun x => x.took 1) s.ports) :=
    (noteEpoch_alters (F := [.epochSeen]) (P := fun _ => False) _ _).ports
  have hat : (s.notedSync p h).port p = { (s.port p).took 1 with
      rx := some (s.rxOf p h), delay := match (s.port p).offset h with | some t => some t.2 | none => ((s.port p).took 1).delay } := by
    unfold State.port
    rw [hports, tGet_tMod_same, tGet_tMod_same]
    rfl
  obtain ⟨-, -, hd, hi⟩ := took_kept (s.port p) 1
  rw [hat]
  refine ⟨rfl, ?_, hi, fun q hq => ?_⟩
  · dsimp only
    rw [hd]
  · have hne : q.val ≠ p.val := fun e => hq (Fin.ext e)
    unfold State.port
    rw [hports, tGet_tMod_other _ _ _ _ _ hne, tGet_tMod_other _ _ _ _ _ hne]

/-- The chip has taken the TIME_SYNC and follows its port, with `ts` the exchanges kept. -/
def State.taken (s : State) (p : Port) (h : BitVec 512) (ts : List Int) : State :=
  State.adopt { s.notedSync p h with thetas := ts } p (s.rxOf p h)

theorem taken_alters (s : State) (p : Port) (h : BitVec 512) (ts : List Int) :
    s.Alters (s.taken p h ts) [.regs, .ports, .epochSeen, .holdSince, .thetas] (fun a => a = Reg.ntStatus.addr) :=
  (((notedSync_alters s p h).mono (by decide) fun _ => False.elim).trans (.put_thetas _ ts)).trans ((adopt_alters _ p _).mono)

theorem taken_port (s : State) (p : Port) (h : BitVec 512) (ts : List Int) (q : Port) :
    (s.taken p h ts).port q = (s.notedSync p h).port q := rfl

theorem rf_adopt (s : State) (p : Port) (r : SyncRx) (q : Reg) (hi lo : Nat) :
    (s.adopt p r).rf q hi lo = (s.showParent p r).rf q hi lo :=
  (State.Alters.put_holdSince (F := [.holdSince]) (P := fun _ => False) (s.showParent p r) none).rf (fun h => h) hi lo

theorem rb_adopt (s : State) (p : Port) (r : SyncRx) (q : Reg) (i : Nat) : (s.adopt p r).rb q i = (s.showParent p r).rb q i :=
  (State.Alters.put_holdSince (F := [.holdSince]) (P := fun _ => False) (s.showParent p r) none).rb (fun h => h) i

/-- What the chip shows of a parent that it has adopted. -/
theorem adopt_spec (s : State) (p : Port) (r : SyncRx) (hd : r.dist < 62) :
    (s.adopt p r).ntDist = r.dist + 1 ∧ (s.adopt p r).rf .ntStatus 49 44 = p.val ∧ (s.adopt p r).rb .ntStatus 61 = false ∧
    (s.adopt p r).rf .ntStatus 31 0 = s.rf .ntStatus 31 0 ∧ (s.adopt p r).rb .ntStatus 59 = s.rb .ntStatus 59 := by
  obtain ⟨h1, h2, h3⟩ := showParent_spec s p hd
  obtain ⟨h4, h5⟩ := showParent_other s p r
  rw [State.ntDist, rf_adopt, rf_adopt, rb_adopt, rf_adopt, rb_adopt]
  exact ⟨h1, h2, h3, h4, h5⟩

/-- What the chip shows of its parent once it has taken the TIME_SYNC. -/
theorem taken_spec (s : State) (p : Port) (h : BitVec 512) (ts : List Int) (hd : fld h 319 314 < 62) :
    (s.taken p h ts).ntDist = fld h 319 314 + 1 ∧ (s.taken p h ts).rf .ntStatus 49 44 = p.val ∧
    (s.taken p h ts).rb .ntStatus 61 = false ∧ (s.taken p h ts).ntEpoch = s.ntEpoch ∧
    (s.taken p h ts).rb .ntStatus 59 = s.rb .ntStatus 59 := by
  have hA : s.Alters { s.notedSync p h with thetas := ts } [.ports, .epochSeen, .thetas] (fun _ => False) :=
    ((notedSync_alters s p h).mono).trans (.put_thetas _ ts)
  obtain ⟨h1, h2, h3, h4, h5⟩ := adopt_spec { s.notedSync p h with thetas := ts } p (s.rxOf p h) hd
  exact ⟨h1, h2, h3, h4.trans (hA.rf (fun h => h) 31 0), h5.trans (hA.rb (fun h => h) 59)⟩

theorem parent_taken (hroot : s.isRoot = false) (hv : fld h 313 313 = 1) (hd : fld h 319 314 < 62) (ts : List Int) :
    (s.taken p h ts).parent = some (p, s.rxOf p h) := by
  obtain ⟨h1, h2, -⟩ := taken_spec s p h ts hd
  have hr : (s.taken p h ts).isRoot = false := ((taken_alters s p h ts).rb ntCtrl_ne_ntStatus 63).trans hroot
  have hc : (s.taken p h ts).candidate p = some (s.rxOf p h) :=
    candidate_of_now (notedSync_port s p h).1 (by simp [State.rxOf, hv]) hd (taken_alters s p h ts).clk.symm
  have hp : portOf p.val = p := Fin.ext (Nat.mod_eq_of_lt p.isLt)
  unfold State.parent
  rw [if_neg (by rw [hr, h1]; simp; omega), h2, hp]
  dsimp only
  rw [hc]
  rfl

/-- A TIME_SYNC of the only candidate is taken, and NT is brought towards its time where its offset is known. -/
theorem doTimeSyncReceive_eq (hh : s.Hears p h) : ∃ ts, (ts = [] ∨ ts = s.thetas) ∧ ∃ g, doTimeSyncReceive p s =
    { (match (s.port p).offset h with
      | some t => (s.taken p h ts).follow (s.rxOf p h) t.1
      | none => s.taken p h ts) with goodSince := g } := by
  obtain ⟨-, hroot, hhead, hv, hd, ho⟩ := hh
  have hA := notedSync_alters s p h
  obtain ⟨hrx, -, -, hother⟩ := notedSync_port s p h
  have hcand : (s.notedSync p h).candidate p = some (s.rxOf p h) := candidate_of_now hrx (by simp [State.rxOf, hv]) hd hA.clk.symm
  obtain ⟨ts, hts, hch⟩ := chooseParent_of_only ((hA.rb (fun h => h) 63).trans hroot) hcand fun q hq =>
    candidate_of_rx_none ((hother q hq) ▸ ho q hq)
  refine ⟨ts, hts.imp_right fun e => e.trans hA.thetas, ?_⟩
  have hpar := parent_taken (p := p) hroot hv hd ts
  have e : doTimeSyncReceive p s = State.noteGood (match (s.notedSync p h).chooseParent.parent, (s.port p).offset h with
      | some (q, r), some t => if q = p then (s.notedSync p h).chooseParent.follow r t.1 else (s.notedSync p h).chooseParent
      | _, _ => (s.notedSync p h).chooseParent) := by
    unfold doTimeSyncReceive
    rw [hhead, takeSrc_srcPort]
    rfl
  have ht : (s.notedSync p h).chooseParent = s.taken p h ts := hch
  rw [e, ht, hpar]
  cases (s.port p).offset h with
  | none => exact noteGood_eq _
  | some t =>
    dsimp only
    rw [if_pos rfl]
    exact noteGood_eq _

end

end Sys2Proof.Machine
end

section
/-! PROOFS. The statements about a TIME_SYNC sent, received and outlived, and about the root, its edges and exclusion (R393 to
R400). -/

namespace Sys2Proof.Machine

-- The proofs are elaborated one after another: in parallel their threads' stacks need more memory than a compile may have.
set_option Elab.async false

/-- When the conditions of R400 ended is no register. -/
theorem goodSince_alters (s : State) (g : Option Nat) : s.Alters { s with goodSince := g } [.goodSince] (fun _ => False) :=
  .put_goodSince s g

/-! ### Following a parent -/

section

variable {s : State} {r : SyncRx} {th : Int}

theorem follow_of_near (he : r.epoch = s.ntEpoch) (h : th.natAbs ≤ 16000) : s.follow r th = s.steer th := by
  unfold State.follow
  extract_lets fresh
  have hf : fresh = false := by simp [fresh, he]
  rw [if_neg (by rw [hf]; simp; omega)]

/-- NT_STATUS takes a parent's epoch. -/
def State.takeEpoch (s : State) (e : Nat) : State := (s.wf .ntStatus 31 0 e).wb .ntStatus 63 true

theorem takeEpoch_alters (s : State) (e : Nat) : s.Alters (s.takeEpoch e) [.regs] (fun a => a = Reg.ntStatus.addr) :=
  have put : ∀ (t : State) v, t.Alters (t.setReg .ntStatus v) [.regs] (fun a => a = Reg.ntStatus.addr) :=
    fun t v => .setReg t v rfl
  (put s _).trans (put _ _)

theorem takeEpoch_spec (s : State) {e : Nat} (he : e < 2 ^ 32) : (s.takeEpoch e).ntEpoch = e ∧ (s.takeEpoch e).rb .ntStatus 63 = true := by
  refine ⟨?_, rb_wb_same _ _ _ _ (by decide)⟩
  rw [State.ntEpoch, State.takeEpoch, rf_wb_field _ _ _ _ _ _ (by decide) (by decide), rf_wf_same _ _ _ _ _ (by decide)]
  exact Nat.mod_eq_of_lt he

theorem follow_of_fresh (he : r.epoch ≠ s.ntEpoch) (h0 : r.epoch ≠ 0) :
    s.follow r th = ((s.takeEpoch r.epoch).stepNt (s.nt - BitVec.ofInt 64 th)).steer 0 := by
  unfold State.follow
  extract_lets fresh s1
  have hf : fresh = true := by simp [fresh, he, h0]
  rw [if_pos (by simp [hf])]
  have h1 : s1 = s.takeEpoch r.epoch := if_pos hf
  rw [h1]
  rfl

end

/-! ### TIME_SYNC -/

theorem port_of_ports {s t : State} (h : t.ports = s.ports) (p : Port) : t.port p = s.port p := by
  rw [State.port, State.port, h]

theorem port_modPort_same (s : State) (p : Port) (f : PortSt → PortSt) : (s.modPort p f).port p = f (s.port p) :=
  tGet_tMod_same ..

theorem port_modPort_other (s : State) {p q : Port} (f : PortSt → PortSt) (h : q ≠ p) : (s.modPort p f).port q = s.port q :=
  tGet_tMod_other _ _ _ _ _ fun e => h (Fin.ext e)

section

variable {s : State} {p : Port} {h : BitVec 512}

theorem timeSyncReceive_first (hh : s.Hears p h) (hoff : (s.port p).offset h = none) : ∃ t, exec (.timeSyncReceive p) s
    = .next t ∧ (t.port p).rx = some ⟨fld h 351 320, fld h 319 314, true, fld h 367 352, s.clk, (s.port
    p).syncIn.headD s.nt.toNat⟩ ∧ (t.port p).delay = (s.port p).delay ∧ t.ntDist = fld h 319 314 + 1 ∧ t.rf .ntStatus
    49 44 = p.val ∧ t.rb .ntStatus 61 = false ∧ t.nt = s.nt ∧ t.ntEpoch = s.ntEpoch ∧ tGet [] (t.port p).ibuf 0 =
    (tGet [] (s.port p).ibuf 0).drop 1 ∧ t.hbm = s.hbm := by
  obtain ⟨ts, -, g, e⟩ := doTimeSyncReceive_eq hh
  obtain ⟨hl, hroot, hhead, hv, hd, ho⟩ := hh
  rw [hoff] at e
  have hA := taken_alters s p h ts
  obtain ⟨h1, h2, h3, h4, -⟩ := taken_spec s p h ts hd
  obtain ⟨p1, p2, p3, -⟩ := notedSync_port s p h
  rw [hoff] at p2
  rw [← taken_port s p h ts p] at p1 p2 p3
  dsimp only at e
  generalize s.taken p h ts = u at *
  have hg := goodSince_alters u g
  have hp := port_of_ports hg.ports p
  rw [← hp] at p1 p2 p3
  refine ⟨_, (quiet_of_live _ _ _ hl).trans (congrArg _ e), p1.trans ?_, p2, (hg.rf id 55 50).trans h1,
    (hg.rf id 49 44).trans h2, (hg.rb id 61).trans h3, hA.nt, (hg.rf id 31 0).trans h4, p3, hA.hbm⟩
  rw [State.rxOf, hv]
  rfl

theorem offset_of_consecutive {x : PortSt} {r : SyncRx} {t3 : Nat} (hrx : x.rx = some r) (hseq : fld h 367 352 = (r.seq + 1) % 65536)
    (hsent : x.sent.find? (fun e => e.1 = fld h 239 224) = some (fld h 239 224, t3)) : x.offset h =
      some ((((r.nt : Int) - (fld h 303 240 : Nat)) - ((fld h 223 160 : Nat) - (t3 : Int))) / 2,
        (((r.nt : Int) - (fld h 303 240 : Nat)) + ((fld h 223 160 : Nat) - (t3 : Int))) / 2) := by
  rw [PortSt.offset, hrx, hsent]
  exact if_pos hseq

theorem timeSyncReceive_steers {r : SyncRx} {t3 : Nat} {th : Int} (hh : s.Hears p h) (hrx : (s.port p).rx = some r)
    (hseq : fld h 367 352 = (r.seq + 1) % 65536)
    (hsent : (s.port p).sent.find? (fun e => e.1 = fld h 239 224) = some (fld h 239 224, t3))
    (hth : th = (((r.nt : Int) - (fld h 303 240 : Nat)) - ((fld h 223 160 : Nat) - (t3 : Int))) / 2)
    (he : fld h 351 320 = s.ntEpoch) (hle : th.natAbs ≤ 16000) (hall : s.thetas.all (fun x => decide (x.natAbs ≤ 16000)) = true) :
    ∃ t, exec
    (.timeSyncReceive p) s = .next t ∧ t.nt = s.nt ∧ t.ntEpoch = s.ntEpoch ∧ t.ntDist = fld h 319 314 + 1 ∧ (toSigned
    32 (t.rf .ntOffset 31 0)).natAbs ≤ 200000 ∧ (toSigned 32 (t.rf .ntOffset 63 32)).natAbs ≤ 16000 ∧ (s.thetas = [] →
    toSigned 32 (t.rf .ntOffset 63 32) = th) ∧ (0 < toSigned 32 (t.rf .ntOffset 63 32) → toSigned 32 (t.rf .ntOffset
    31 0) ≤ 0) ∧ (toSigned 32 (t.rf .ntOffset 63 32) < 0 → 0 ≤ toSigned 32 (t.rf .ntOffset 31 0)) ∧ (t.port p).delay =
    some ((((r.nt : Int) - (fld h 303 240 : Nat)) + ((fld h 223 160 : Nat) - (t3 : Int))) / 2) ∧ t.rb .ntStatus 59 =
    s.rb .ntStatus 59 ∧ t.hbm = s.hbm := by
  obtain ⟨ts, hts, g, e⟩ := doTimeSyncReceive_eq hh
  obtain ⟨hl, hroot, hhead, hv, hd, ho⟩ := hh
  have hoff := offset_of_consecutive hrx hseq hsent
  rw [← hth] at hoff
  obtain ⟨h1, -, -, h4, h5⟩ := taken_spec s p h ts hd
  obtain ⟨-, p2, -, -⟩ := notedSync_port s p h
  have hA := taken_alters s p h ts
  obtain ⟨u, hu⟩ : ∃ u, u = s.taken p h ts := ⟨_, rfl⟩
  rw [hoff] at e p2
  dsimp only at e p2
  have hdelay : (u.port p).delay = ((s.notedSync p h).port p).delay := by rw [hu]; rfl
  have huth : u.thetas = ts := by rw [hu]; rfl
  rw [← hu] at hA e h1 h4 h5
  rw [follow_of_near (he.trans h4.symm) hle] at e
  have hS := steer_alters u th
  have hg := goodSince_alters (u.steer th) g
  obtain ⟨m, hm, f1, f2⟩ := steer_fields u th
  have hf : (u.filterTheta th).1.natAbs ≤ 16000 := filterTheta_natAbs u th hle fun x hx => by
    rw [huth] at hx
    rcases hts with rfl | rfl
    · cases hx
    · simpa using List.all_eq_true.1 hall x hx
  obtain ⟨r1, r2, r3⟩ := rateFor_spec (u.filterTheta th).1 hm
  have hne : Reg.ntStatus.addr ≠ Reg.ntOffset.addr := ntOffset_ne_ntStatus.symm
  have g1 : toSigned 32 (State.rf { u.steer th with goodSince := g } .ntOffset 63 32) = (u.filterTheta th).1 := by
    rw [hg.rf id, f1]
    exact toSigned_ofInt _ (by omega)
  have g2 : toSigned 32 (State.rf { u.steer th with goodSince := g } .ntOffset 31 0) = rateFor (u.filterTheta th).1 m := by
    rw [hg.rf id, f2]
  refine ⟨_, (quiet_of_live _ _ _ hl).trans (congrArg _ e), hS.nt.trans hA.nt,
    ((hg.rf id 31 0).trans (hS.rf hne 31 0)).trans h4, ((hg.rf id 55 50).trans (hS.rf hne 55 50)).trans h1, ?_, ?_, ?_, ?_, ?_,
    ?_, ((hg.rb id 59).trans (hS.rb hne 59)).trans h5, hS.hbm.trans hA.hbm⟩
  · rw [g2]; exact r1
  · rw [g1]; exact hf
  · intro hnil
    rw [g1]
    refine filterTheta_of_nil th (huth.trans ?_)
    rcases hts with rfl | rfl
    exacts [rfl, hnil]
  · rw [g1, g2]; exact r2
  · rw [g1, g2]; exact r3
  · rw [port_of_ports (hg.ports.trans hS.ports) p]
    exact hdelay.trans p2

theorem timeSyncReceive_steps {r : SyncRx} {t3 : Nat} {th : Int} (hh : s.Hears p h) (hrx : (s.port p).rx = some r)
    (hseq : fld h 367 352 = (r.seq + 1) % 65536)
    (hsent : (s.port p).sent.find? (fun e => e.1 = fld h 239 224) = some (fld h 239 224, t3))
    (hth : th = (((r.nt : Int) - (fld h 303 240 : Nat)) - ((fld h 223 160 : Nat) - (t3 : Int))) / 2)
    (he : fld h 351 320 ≠ s.ntEpoch ∧ fld h 351 320 ≠ 0) : ∃ t, exec (.timeSyncReceive p) s = .next t ∧
    t.nt = s.nt - BitVec.ofInt 64 th ∧ t.ntEpoch = fld h 351 320 ∧ t.rb .ntStatus 63 = true ∧ t.rb .ntStatus 59 = true ∧
    t.clk = s.clk ∧ t.hbm = s.hbm := by
  obtain ⟨ts, hts, g, e⟩ := doTimeSyncReceive_eq hh
  obtain ⟨hl, hroot, hhead, hv, hd, ho⟩ := hh
  have hoff := offset_of_consecutive hrx hseq hsent
  rw [← hth] at hoff
  obtain ⟨-, -, -, h4, -⟩ := taken_spec s p h ts hd
  have hA := taken_alters s p h ts
  obtain ⟨u, hu⟩ : ∃ u, u = s.taken p h ts := ⟨_, rfl⟩
  rw [hoff] at e
  dsimp only at e
  rw [← hu] at hA e h4
  rw [follow_of_fresh (r := s.rxOf p h) (fun x => he.1 (x.trans h4)) he.2] at e
  have hT := takeEpoch_alters u (s.rxOf p h).epoch
  obtain ⟨t1, t2⟩ := takeEpoch_spec u (e := (s.rxOf p h).epoch) (fld_lt h 351 320)
  generalize u.takeEpoch (s.rxOf p h).epoch = v at *
  have hN := stepNt_alters v (u.nt - BitVec.ofInt 64 th)
  obtain ⟨n1, n2⟩ := stepNt_spec v (u.nt - BitVec.ofInt 64 th)
  obtain ⟨n3, n4⟩ := stepNt_ntStatus v (u.nt - BitVec.ofInt 64 th)
  generalize v.stepNt (u.nt - BitVec.ofInt 64 th) = w at *
  have hS := steer_alters w 0
  have hg := goodSince_alters (w.steer 0) g
  have hne : Reg.ntStatus.addr ≠ Reg.ntOffset.addr := ntOffset_ne_ntStatus.symm
  refine ⟨_, (quiet_of_live _ _ _ hl).trans (congrArg _ e), hS.nt.trans (n1.trans (by rw [hA.nt])), ?_, ?_, ?_,
    hS.clk.trans (hN.clk.trans (hT.clk.trans hA.clk)), hS.hbm.trans (hN.hbm.trans (hT.hbm.trans hA.hbm))⟩
  · exact ((hg.rf id 31 0).trans (hS.rf hne 31 0)).trans (n4.trans t1)
  · exact ((hg.rb id 63).trans (hS.rb hne 63)).trans ((n3 63 (by decide) (by decide)).trans t2)
  · exact ((hg.rb id 59).trans (hS.rb hne 59)).trans n2

theorem timeSyncSend_due {u : State} {dt : Nat} (hu : u = s.elapse dt) (hl : u.live (.port p) = true)
    (hup : u.portState p = 3) (hdue : (u.port p).syncAt + us (u.rf .ntCtrl 41 32) ≤ u.clk) (hroom : 2 ≤ (u.port p).res 0) :
    ∃ t, exec (.timeSyncSend p dt) s = .next t ∧
    t.port p = { u.port p with syncAt := u.clk, txBypass := (u.port p).txBypass ++ [true] } ∧ t = { u with ports := t.ports } := by
  subst hu
  have e : doTimeSyncSend p (s.elapse dt) = (s.elapse dt).modPort p
      (fun x => { x with syncAt := (s.elapse dt).clk, txBypass := x.txBypass ++ [true] }) := if_pos ⟨hup, hdue, hroom⟩
  exact ⟨_, (quiet_of_live _ _ _ hl).trans (congrArg _ e), port_modPort_same .., rfl⟩

theorem timeCandidateExpiry_adrift {u : State} {dt : Nat} {r : SyncRx} (hu : u = s.elapse dt) (hl : u.live (.port p) = true)
    (hrx : (u.port p).rx = some r) (hlate : r.at_ + 4 * us (u.rf .ntCtrl 41 32) < u.clk) (hroot : u.isRoot = false)
    (ho : ∀ q : Port, q ≠ p → (u.port q).rx = none) : ∃
    t, exec (.timeCandidateExpiry p dt) s = .next t ∧ t.ports = u.ports ∧ t.ntDist = 63 ∧ t.rb .ntStatus 61 = true ∧
    t.holdSince = (if u.holdSince.isSome then u.holdSince else some u.clk) ∧ t.nt = u.nt ∧ t.hbm = u.hbm := by
  have hnone : ∀ q, u.candidate q = none := fun q => by
    by_cases hq : q = p
    · rw [hq]; exact candidate_of_expired hrx hlate
    · exact candidate_of_rx_none (ho q hq)
  obtain ⟨g, hg⟩ := noteGood_eq u.adrift
  have e : doTimeCandidateExpiry p u = { u.adrift with goodSince := g } := by
    rw [doTimeCandidateExpiry, hrx]
    exact (if_pos hlate).trans ((congrArg State.noteGood (chooseParent_of_none hroot hnone)).trans hg)
  have hA : u.showAdrift.Alters { u.adrift with goodSince := g } [.holdSince, .goodSince] (fun _ => False) :=
    (State.Alters.put_holdSince u.showAdrift _).trans (.put_goodSince _ g)
  subst hu
  refine ⟨_, (quiet_of_live _ _ _ hl).trans (congrArg _ e), rfl, (hA.rf id 55 50).trans ?_,
    (hA.rb id 61).trans (rb_wb_same _ _ _ _ (by decide)), rfl, rfl, rfl⟩
  rw [State.showAdrift, rf_wb_field _ _ _ _ _ _ (by decide) (by decide), rf_wf_same _ _ _ _ _ (by decide)]
  rfl

end

end Sys2Proof.Machine
end

section
/-! PROOFS. The root and its edges, PPS_OUT, exclusion and NT_SEED (R397, R398, R400). -/

namespace Sys2Proof.Machine

-- The proofs are elaborated one after another: in parallel their threads' stacks need more memory than a compile may have.
set_option Elab.async false

section

variable {s u : State} {dt : Nat}

/-! ### The root (R397) -/

/-- The epoch after the highest seen: the chip's own, where it is. -/
theorem nextEpoch_of_own {m e : Nat} (he : e = 0 ∨ e = m) (hm : m + 1 < 2 ^ 32) : nextEpoch [m, e, 0] = m + 1 := by
  have habove : epochAbove m m = false := by simp [epochAbove]
  have hfold : [m, e, 0].foldl (fun a b => if a = 0 || epochAbove b a then (if b = 0 then a else b) else a) 0 = m := by
    rcases he with he | he <;> by_cases h0 : m = 0 <;> simp [h0, he, habove]
  unfold nextEpoch
  rw [hfold]
  dsimp only
  rw [Nat.mod_eq_of_lt hm, if_neg (by omega)]

/-- What NT_STATUS shows of a root that has been seeded with epoch `e`. -/
def State.showSeeded (s : State) (e : Nat) : State :=
  ((((s.wb .ntSeed 63 false).wf .ntStatus 31 0 e).wb .ntStatus 63 true).wf .ntStatus 55 50 0).wb .ntStatus 61 false

theorem showSeeded_alters (s : State) (e : Nat) : s.Alters (s.showSeeded e) [.regs] NtAt :=
  have put : ∀ (t : State) v, t.Alters (t.setReg .ntStatus v) [.regs] NtAt := fun t v => .setReg t v (.inl rfl)
  have seed : s.Alters (s.wb .ntSeed 63 false) [.regs] NtAt := .setReg s _ (.inr (.inr rfl))
  (((seed.trans (put _ _)).trans (put _ _)).trans (put _ _)).trans (put _ _)

theorem showSeeded_spec (s : State) {e : Nat} (he : e < 2 ^ 32) : (s.showSeeded e).ntEpoch = e ∧
    (s.showSeeded e).rb .ntStatus 63 = true ∧ (s.showSeeded e).ntDist = 0 ∧ (s.showSeeded e).rb .ntSeed 63 = false ∧
    (s.showSeeded e).rb .ntStatus 59 = s.rb .ntStatus 59 := by
  unfold State.showSeeded State.ntEpoch State.ntDist
  refine ⟨?_, ?_, ?_, ?_, ?_⟩
  · rw [rf_wb_field _ _ _ _ _ _ (by decide) (by decide), rf_wf_field _ _ _ _ _ _ _ (by decide) (by decide),
      rf_wb_field _ _ _ _ _ _ (by decide) (by decide), rf_wf_same _ _ _ _ _ (by decide)]
    exact Nat.mod_eq_of_lt he
  · rw [rb_wb_bit_other _ _ _ (by decide) (by decide), rb_wf_field _ _ _ _ _ _ (by decide) (by decide),
      rb_wb_same _ _ _ _ (by decide)]
  · rw [rf_wb_field _ _ _ _ _ _ (by decide) (by decide), rf_wf_same _ _ _ _ _ (by decide)]
    rfl
  · rw [State.wb, rb_wf_other _ _ _ _ _ _ _ ntSeed_ne_ntStatus, rb_wf_other _ _ _ _ _ _ _ ntSeed_ne_ntStatus, State.wb,
      rb_wf_other _ _ _ _ _ _ _ ntSeed_ne_ntStatus, rb_wf_other _ _ _ _ _ _ _ ntSeed_ne_ntStatus]
    exact rb_wb_same _ _ _ _ (by decide)
  · rw [rb_wb_bit_other _ _ _ (by decide) (by decide), rb_wf_field _ _ _ _ _ _ (by decide) (by decide),
      rb_wb_bit_other _ _ _ (by decide) (by decide), rb_wf_field _ _ _ _ _ _ (by decide) (by decide)]
    exact rb_wf_other _ _ _ _ _ _ _ ntSeed_ne_ntStatus.symm

theorem noteGood_alters (s : State) : s.Alters s.noteGood [.goodSince] (fun _ => False) := by
  obtain ⟨g, e⟩ := noteGood_eq s
  rw [e]
  exact .put_goodSince s g

/-- The root begins its time at clock `c` with NT at `x`. -/
def State.edgeAt (s : State) (c : Nat) (x : BitVec 64) : State := { s with ppsAt := c, ppsNt := some x, holdSince := none }

theorem edgeAt_alters (s : State) (c : Nat) (x : BitVec 64) :
    s.Alters (s.edgeAt c x) [.ppsAt, .ppsNt, .holdSince] (fun _ => False) :=
  ((State.Alters.put_ppsAt s c).trans (.put_ppsNt _ (some x))).trans (.put_holdSince _ none)

theorem seed_eq (s : State) : s.seed = State.edgeAt (State.showSeeded (s.stepNt (BitVec.ofNat 64 (s.rf .ntSeed 30 0 * 16000000000)))
    (nextEpoch [s.ntEpoch, s.epochSeen, s.rf .ntSeed 62 31])) (s.stepNt (BitVec.ofNat 64 (s.rf .ntSeed 30 0 * 16000000000))).clk
      (BitVec.ofNat 64 (s.rf .ntSeed 30 0 * 16000000000)) := rfl

theorem ppsInEdge_seeds {m : Nat} (hu : u = s.elapse dt) (hl : u.live .global = true) (hroot : u.isRoot = true)
    (harm : u.rb .ntSeed 63 = true ∧ u.armedAt < u.clk) (hm : m = u.ntEpoch) (hseen : u.epochSeen = 0 ∨ u.epochSeen = m)
    (hseed : u.rf .ntSeed 62 31 = 0) (hlt : m + 1 < 2 ^ 32) : ∃ t, exec (.ppsInEdge dt) s = .next t ∧
    t.nt = BitVec.ofNat 64 (u.rf .ntSeed 30 0 * 16 * 10 ^ 9) ∧ t.ntEpoch = m
    + 1 ∧ t.rb .ntStatus 63 = true ∧ t.ntDist = 0 ∧ t.rb .ntSeed 63 = false ∧ t.rb .ntStatus 59 = true ∧ (t.clk =
    u.clk ∧ t.hbm = u.hbm) := by
  have e : doPpsInEdge u = u.seed.noteGood := by
    unfold doPpsInEdge
    rw [if_neg (by rw [hroot]; decide), if_pos harm]
  rw [seed_eq, ← hm, hseed, nextEpoch_of_own hseen hlt] at e
  obtain ⟨x, hx⟩ : ∃ x, x = BitVec.ofNat 64 (u.rf .ntSeed 30 0 * 16000000000) := ⟨_, rfl⟩
  rw [← hx] at e
  have hN := stepNt_alters u x
  obtain ⟨n1, n2⟩ := stepNt_spec u x
  generalize u.stepNt x = v at *
  have hS := showSeeded_alters v (m + 1)
  obtain ⟨h1, h2, h3, h4, h5⟩ := showSeeded_spec v hlt
  generalize v.showSeeded (m + 1) = w at *
  have hA : w.Alters (w.edgeAt v.clk x).noteGood [.ppsAt, .ppsNt, .holdSince, .goodSince] (fun _ => False) :=
    (edgeAt_alters w v.clk x).mono.trans (noteGood_alters _).mono
  subst hu
  refine ⟨_, (quiet_of_live _ _ _ hl).trans (congrArg _ e), ?_, (hA.rf id 31 0).trans h1, (hA.rb id 63).trans h2,
    (hA.rf id 55 50).trans h3, (hA.rb id 63).trans h4, ((hA.rb id 59).trans h5).trans n2, hA.clk.trans (hS.clk.trans hN.clk),
    hA.hbm.trans (hS.hbm.trans hN.hbm)⟩
  exact hA.nt.trans (hS.nt.trans (n1.trans (by rw [hx, Nat.mul_assoc]; rfl)))

/-- The root's rate steered by the edge before, where there was one. -/
def State.steerEdge (s : State) : State :=
  match s.ppsNt with
  | some t => s.steer (toSigned 64 (s.nt - t - 16000000000#64).toNat)
  | none => s

theorem steerEdge_alters (s : State) : s.Alters s.steerEdge [.regs, .thetas, .frees] (fun a => a = Reg.ntOffset.addr) := by
  unfold State.steerEdge
  cases s.ppsNt with
  | none => exact .refl s
  | some t => exact steer_alters ..

/-- The root has seen an edge. -/
def State.edgeSeen (s : State) : State :=
  (s.wb .ntStatus 61 false).edgeAt s.clk s.nt

theorem edgeSeen_alters (s : State) : s.Alters s.edgeSeen [.regs, .ppsAt, .ppsNt, .holdSince] (fun a => a = Reg.ntStatus.addr) :=
  have h : s.Alters (s.wb .ntStatus 61 false) [.regs, .ppsAt, .ppsNt, .holdSince] (fun a => a = Reg.ntStatus.addr) := .setReg s _ rfl
  h.trans ((edgeAt_alters _ s.clk s.nt).mono (by decide) fun _ => False.elim)

theorem edgeSeen_spec (s : State) : s.edgeSeen.rb .ntStatus 61 = false ∧ s.edgeSeen.ntEpoch = s.ntEpoch := by
  have h : (s.wb .ntStatus 61 false).Alters s.edgeSeen [.ppsAt, .ppsNt, .holdSince] (fun _ => False) := edgeAt_alters ..
  exact ⟨(h.rb id 61).trans (rb_wb_same _ _ _ _ (by decide)), (h.rf id 31 0).trans (rf_wb_field _ _ _ _ _ _ (by decide) (by decide))⟩

theorem ppsInEdge_steers (hu : u = s.elapse dt) (hl : u.live .global = true) (hroot : u.isRoot = true)
    (harm : u.rb .ntSeed 63 = false ∨ u.clk ≤ u.armedAt) : ∃ t, exec (.ppsInEdge dt) s = .next t ∧ t.nt = u.nt ∧
    t.ntEpoch = u.ntEpoch ∧ t.rb .ntStatus 61 = false ∧ (t.ppsAt = u.clk ∧ t.ppsNt = u.nt) ∧
    (u.ppsNt ≠ none → (toSigned 32 (t.rf .ntOffset 31 0)).natAbs ≤ 200000) ∧ t.reg .ntSeed = u.reg .ntSeed ∧ t.hbm = u.hbm := by
  have e : doPpsInEdge u = u.steerEdge.edgeSeen.noteGood := by
    unfold doPpsInEdge
    rw [if_neg (by rw [hroot]; decide), if_neg (by rcases harm with h | h <;> simp [h])]
    rfl
  have hS := steerEdge_alters u
  have hfreq : u.ppsNt ≠ none → (toSigned 32 (u.steerEdge.rf .ntOffset 31 0)).natAbs ≤ 200000 := fun h => by
    obtain ⟨t, ht⟩ := Option.ne_none_iff_exists'.1 h
    obtain ⟨m, hm, -, f2⟩ := steer_fields u (toSigned 64 (u.nt - t - 16000000000#64).toNat)
    rw [State.steerEdge, ht, f2]
    exact (rateFor_spec _ hm).1
  generalize u.steerEdge = v at *
  have hE := edgeSeen_alters v
  obtain ⟨e1, e2⟩ := edgeSeen_spec v
  have hat : v.edgeSeen.ppsAt = v.clk ∧ v.edgeSeen.ppsNt = some v.nt := ⟨rfl, rfl⟩
  generalize v.edgeSeen = w at *
  obtain ⟨g, hg⟩ := noteGood_eq w
  have hG := goodSince_alters w g
  subst hu
  refine ⟨_, (quiet_of_live _ _ _ hl).trans (congrArg _ (e.trans hg)), hE.nt.trans hS.nt,
    ((hG.rf id 31 0).trans e2).trans (hS.rf ntOffset_ne_ntStatus.symm 31 0), (hG.rb id 61).trans e1,
    ⟨hat.1.trans hS.clk, hat.2.trans (congrArg some hS.nt)⟩, fun h => ?_, ?_, hE.hbm.trans hS.hbm⟩
  · rw [hG.rf id, hE.rf ntOffset_ne_ntStatus]
    exact hfreq h
  · rw [hG.reg _ id, hE.reg _ ntSeed_ne_ntStatus, hS.reg _ (addr_ne_of_off 0x510 0x520 rfl rfl)]

theorem ppsInEdge_ignored (hu : u = s.elapse dt) (hroot : u.isRoot = false) : exec (.ppsInEdge dt) s = .next u := by
  subst hu
  have e : doPpsInEdge (s.elapse dt) = s.elapse dt := if_pos (by rw [hroot]; rfl)
  show Host.Outcome.next (if (s.elapse dt).live .global = true then doPpsInEdge (s.elapse dt) else s.elapse dt) = _
  rw [e, ite_self]

theorem ppsMissing_holds (hu : u = s.elapse dt) (hl : u.live .global = true) (hroot : u.isRoot = true)
    (hon : u.rb .ntStatus 61 = false) (hlate : u.ppsAt + us 2000000 < u.clk) : ∃ t, exec (.ppsMissing dt) s = .next t ∧
    t.rb .ntStatus 61 = true ∧ t.ntDist = u.ntDist ∧ t.holdSince = some u.clk ∧
    t = { u with regs := t.regs, holdSince := t.holdSince } := by
  have e : doPpsMissing u = { (u.wb .ntStatus 61 true) with holdSince := some u.clk } := if_pos ⟨hroot, hon, hlate⟩
  have hA : (u.wb .ntStatus 61 true).Alters { (u.wb .ntStatus 61 true) with holdSince := some u.clk } [.holdSince] (fun _ => False) :=
    .put_holdSince _ _
  subst hu
  exact ⟨_, (quiet_of_live _ _ _ hl).trans (congrArg _ e), (hA.rb id 61).trans (rb_wb_same _ _ _ _ (by decide)),
    (hA.rf id 55 50).trans (rf_wb_field _ _ _ _ _ _ (by decide) (by decide)), rfl, rfl⟩

/-! ### PPS_OUT (R398) -/

theorem ppsOutPulse_rises (hu : u = s.elapse dt) (hl : u.live .global = true) (hlow : u.ppsOut = none)
    (hv : u.rb .ntStatus 63 = true) (hsec : u.nt.toNat % 16000000000 ≤ 16) :
    exec (.ppsOutPulse dt) s = .next { u with ppsOut := some u.clk } := by
  have e : doPpsOutPulse u = { u with ppsOut := some u.clk } := by
    unfold doPpsOutPulse
    rw [hlow]
    exact if_pos ⟨hv, hsec⟩
  subst hu
  exact (quiet_of_live _ _ _ hl).trans (congrArg _ e)

theorem ppsOutPulse_falls {t0 : Nat} (hu : u = s.elapse dt) (hl : u.live .global = true) (hhigh : u.ppsOut = some t0)
    (hend : t0 + 1600 ≤ u.clk ∨ u.rb .ntStatus 63 = false) : exec (.ppsOutPulse dt) s = .next { u with ppsOut := none } := by
  have e : doPpsOutPulse u = { u with ppsOut := none } := by
    unfold doPpsOutPulse
    rw [hhigh]
    exact if_pos hend
  subst hu
  exact (quiet_of_live _ _ _ hl).trans (congrArg _ e)

/-! ### Exclusion (R400) -/

theorem mustExclude_of (h : u.rb .ntStatus 63 = false ∨ (1 ≤ u.ntDist ∧ u.ntDist ≤ 62 ∧ 16 * u.rf .ntCtrl 31 16 <
    (toSigned 32 (u.rf .ntOffset 63 32)).natAbs) ∨
    (u.isRoot = false ∧ u.holdSince.any (fun t0 => decide (t0 + us 1000000 < u.clk)) = true)) : u.mustExclude = true := by
  unfold State.mustExclude State.ntValid State.theta
  rcases h with h | ⟨h1, h2, h3⟩ | ⟨h1, h2⟩
  · simp [h]
  · have : ((1 ≤ u.ntDist ∧ u.ntDist ≤ 62)) := ⟨h1, h2⟩
    simp only [decide_eq_true this, Bool.true_and, decide_eq_true h3, Bool.or_true, Bool.true_or]
  · cases e : u.holdSince with
    | none => rw [e] at h2; cases h2
    | some t0 =>
      rw [e, Option.any_some] at h2
      simp only [h1, Bool.not_false, Bool.true_and]
      rw [h2, Bool.or_true]

theorem not_mustExclude_of (hv : u.rb .ntStatus 63 = true) (hd : u.ntDist = 0 ∨ u.ntDist = 63 ∨
    (toSigned 32 (u.rf .ntOffset 63 32)).natAbs ≤ 16 * u.rf .ntCtrl 31 16) (hh : u.holdSince = none) : u.mustExclude = false := by
  unfold State.mustExclude State.ntValid State.theta
  simp only [hv, hh, Bool.not_true, Bool.false_or, Bool.and_false, Bool.or_false, Bool.and_eq_false_imp, decide_eq_true_eq,
    decide_eq_false_iff_not]
  omega

theorem ftStatus_ne_ntStatus : Reg.ntStatus.addr ≠ (Reg.ftStatus .global).addr := addr_ne_of_off 0x518 0xF000 rfl rfl

theorem timeExclusionChange_excludes (hu : u = s.elapse dt) (hl : u.live .global = true) (hin : u.rb .ntStatus 62 = false)
    (h : u.mustExclude = true) : ∃ t, exec
    (.timeExclusionChange dt) s = .next t ∧ t.rb .ntStatus 62 = true ∧ t.rb .ntStatus 60 = true ∧ t.rb (.ftStatus
    .global) 1 = true ∧ (t.nt = u.nt ∧ t.hbm = u.hbm) := by
  obtain ⟨v, hv⟩ : ∃ v, v = { u with goodSince := none } := ⟨_, rfl⟩
  have hx : v.excluded = false := by rw [hv]; exact ((goodSince_alters u none).rb id 62).trans hin
  have e : doTimeExclusionChange u = ((v.wb .ntStatus 62 true).wb .ntStatus 60 true).fault .global .degrade 0x20 0 := by
    unfold doTimeExclusionChange
    rw [if_pos h, ← hv]
    dsimp only
    rw [if_neg (by rw [hx]; decide)]
  have hnt : v.nt = u.nt ∧ v.hbm = u.hbm := by rw [hv]; exact ⟨rfl, rfl⟩
  have hA : v.Alters ((v.wb .ntStatus 62 true).wb .ntStatus 60 true) [.regs] (fun _ => True) :=
    (State.Alters.setReg v _ trivial).trans (.setReg _ _ trivial)
  have hF := fault_alters ((v.wb .ntStatus 62 true).wb .ntStatus 60 true) .global .degrade 0x20 0
  subst hu
  refine ⟨_, (quiet_of_live _ _ _ hl).trans (congrArg _ e), ?_, ?_, fault_status _ _ _ _ _ rfl, hF.nt.trans (hA.nt.trans hnt.1),
    hF.hbm.trans (hA.hbm.trans hnt.2)⟩
  · rw [hF.rb not_faultAt_ntStatus, rb_wb_bit_other _ _ _ (by decide) (by decide)]
    exact rb_wb_same _ _ _ _ (by decide)
  · rw [hF.rb not_faultAt_ntStatus]
    exact rb_wb_same _ _ _ _ (by decide)

theorem timeExclusionChange_readmits {t0 : Nat} (hu : u = s.elapse dt) (hl : u.live .global = true) (hout : u.rb .ntStatus 62 = true)
    (h : u.mustExclude = false) (hg : u.goodSince = some t0) (hlong : t0 + us 100000 ≤ u.clk) :
    ∃ t, exec (.timeExclusionChange dt) s =
    .next t ∧ t.rb .ntStatus 62 = false ∧ t.rb .ntStatus 60 = u.rb .ntStatus 60 ∧ t = { u with regs := t.regs } := by
  have hn : u.noteGood = u := by
    unfold State.noteGood
    rw [if_neg (by rw [h]; decide), if_neg (by simp [hg])]
  have e : doTimeExclusionChange u = u.wb .ntStatus 62 false := by
    unfold doTimeExclusionChange
    rw [if_neg (by rw [h]; decide), hn]
    refine if_pos ⟨hout, ?_⟩
    rw [hg, Option.all_some, decide_eq_true_eq]
    exact hlong
  subst hu
  exact ⟨_, (quiet_of_live _ _ _ hl).trans (congrArg _ e), rb_wb_same _ _ _ _ (by decide),
    rb_wb_bit_other _ _ _ (by decide) (by decide), rfl⟩

/-! ### NT_SEED (R397) -/

/-- When NT_SEED was armed, after a write of `v`. -/
def State.armedBy (s : State) (v : BitVec 64) : State :=
  { s with armedAt := if bit v 63 = true ∧ s.rb .ntSeed 63 = false then s.clk else s.armedAt }

theorem doNtSeedArm_of_lt {v : BitVec 64} (h : fld v 30 0 < 1152921505) : doNtSeedArm v s =
    (s.armedBy v).setReg .ntSeed (setBit v 63 (bit v 63 || s.rb .ntSeed 63)) := by
  have harm : (if (bit v 63 && !s.rb .ntSeed 63) = true then { s with armedAt := s.clk } else s) = s.armedBy v := by
    unfold State.armedBy
    split_ifs with h1 h2 h2
    · rfl
    · exact absurd (by simpa using h1) h2
    · exact absurd (by simpa using h2) h1
    · rfl
  have hb : (s.armedBy v).rb .ntSeed 63 = s.rb .ntSeed 63 :=
    (State.Alters.put_armedAt (F := [.armedAt]) (P := fun _ => False) s _).rb id 63
  unfold doNtSeedArm
  rw [if_neg (by omega)]
  dsimp only
  rw [harm, hb]

theorem ntSeed_fieldsOk (v : BitVec 64) : Reg.ntSeed.fieldsOk v = true := by
  have hm : ~~~(Reg.ntSeed.fields.foldl (fun (m : Word) f => m ||| mask 64 f.hi f.lo) 0#64) = 0#64 := by decide +kernel
  rw [Reg.fieldsOk, hm]
  simp

theorem regWrite_ntSeed (v : BitVec 64) (h : fld v 30 0 < 1152921505) : s.regWrite .warden .ntSeed v = doNtSeedArm v s := by
  have henc : s.encOk .ntSeed v = true := by
    simp [State.encOk, Reg.encOk, State.pairOk, State.serviceOk, h]
  unfold State.regWrite
  rw [if_neg (by simp [State.mbDiscards])]
  dsimp only
  rw [if_neg (by simp [ntSeed_fieldsOk, henc, State.gateLocked])]
  rfl

theorem regWrite_ntSeed_refused (v : BitVec 64) (h : 1152921505 ≤ fld v 30 0) : s.regWrite .warden .ntSeed v = s.noteReserved .global 0 := by
  have henc : s.encOk .ntSeed v = false := by
    simp [State.encOk, Reg.encOk, h]
  unfold State.regWrite
  rw [if_neg (by simp [State.mbDiscards])]
  dsimp only
  rw [if_pos (by rw [henc]; simp)]
  rfl

end

/-- Settles O48. -/
theorem networkTimeIsKept : Obligations.NetworkTimeIsKept := by
  unfold Obligations.NetworkTimeIsKept
  refine ⟨fun s u p dt => timeSyncSend_due, fun s p h => timeSyncReceive_first, fun s p h r t3 th => timeSyncReceive_steers,
    fun s p h r t3 th => timeSyncReceive_steps, fun s u p dt r => timeCandidateExpiry_adrift, fun s u dt m => ppsInEdge_seeds,
    fun s u dt => ppsInEdge_steers, fun s u dt => ppsInEdge_ignored, fun s u dt => ppsMissing_holds, fun s u dt => ppsOutPulse_rises,
    fun s u dt t0 => ppsOutPulse_falls, fun s u dt hu hl hin h => timeExclusionChange_excludes hu hl hin (mustExclude_of h),
    fun s u dt t0 hu hl hout hok hh => timeExclusionChange_readmits hu hl hout (not_mustExclude_of hok.1 hok.2 hh),
    fun s v hl hv => ?_, fun s v hl hv => ?_⟩
  · have e : exec (.ntSeedArm v) s = .next ((s.armedBy v).setReg .ntSeed (setBit v 63 (bit v 63 || s.rb .ntSeed 63))) :=
      (quiet_of_live s .global (fun t => t.regWrite .warden .ntSeed v) hl).trans (congrArg _ ((regWrite_ntSeed v hv).trans (doNtSeedArm_of_lt hv)))
    exact ⟨_, e, reg_setReg_same .., rfl, rfl⟩
  · have e : exec (.ntSeedArm v) s = .next (s.noteReserved .global 0) :=
      (quiet_of_live s .global (fun t => t.regWrite .warden .ntSeed v) hl).trans (congrArg _ (regWrite_ntSeed_refused v hv))
    have hF := fault_alters s .global .note 1 0
    exact ⟨_, e, hF.reg _ not_faultAt_ntSeed, fault_status _ _ _ _ _ rfl, hF.hbm⟩

end Sys2Proof.Machine
end

section
/-! PROOFS. A switch of a port's gates that is asked for after the switch time (R407). -/

namespace Sys2Proof.Machine

-- The proofs are elaborated one after another: in parallel their threads' stacks need more memory than a compile may have.
set_option Elab.async false

/-- The part at NT 0, port 0 with a switch to bank 0 requested whose asking is marked one count later: one entry of 1000 ns,
base and switch time 0. -/
def lateSwitchState : State :=
  let s : State := { State.reset with coreOn := true, pins := { resetL := true }, ports := [(0, { gateAsked := 1 })] }
  (s.wb (.egGateCtrl 0) 62 true).wf (.egGcl 0 0 0) 29 0 1000

theorem lateSwitchState_meets : (lateSwitchState.elapse 0).live (.port 0) = true ∧
    (lateSwitchState.elapse 0).rb (.egGateCtrl 0) 62 = true ∧
    (0 : Fin 2) = (if (lateSwitchState.elapse 0).rb (.egGateCtrl 0) 61 = true then 1 else 0) ∧
    (lateSwitchState.elapse 0).gateBad 0 0 = false ∧
    1000 = ((List.range ((lateSwitchState.elapse 0).gateLen 0 0)).map ((lateSwitchState.elapse 0).gateDur 0 0)).sum ∧
    ((lateSwitchState.elapse 0).rf (.egGateSwitch 0) 59 0 ≤ 0 ∧ 0 < (lateSwitchState.elapse 0).rf (.egGateSwitch 0) 59 0 + 1000) ∧
    ((0 : Nat) - ((lateSwitchState.elapse 0).rf (.egGateBase 0 0) 59 0 : Nat) : Int) % (1000 : Nat) = 0 := by decide +kernel

/-- The switch is still requested: the next cycle of the bank has not begun. -/
theorem lateSwitchState_waits : (match exec (.gateSwitch 0 0) lateSwitchState with
    | .next t => t.rb (.egGateCtrl 0) 62
    | _ => false) = true := by decide +kernel

/-- Refutes O49: a switch asked for after its time waits for the cycle that begins after the asking. -/
theorem not_shapersGatesAndEpochsFollowTime : ¬ Obligations.ShapersGatesAndEpochsFollowTime := by
  intro h
  obtain ⟨-, -, -, hswitch, -⟩ := h
  obtain ⟨hlive, hreq, hb, hok, hc, hstart, hmod⟩ := lateSwitchState_meets
  obtain ⟨t, he, hnow, -⟩ := hswitch lateSwitchState _ 0 0 0 1000 0 rfl hlive hreq hb hok hc hstart hmod
  have hwaits := lateSwitchState_waits
  rw [he] at hwaits
  exact absurd ((hnow (Nat.zero_le _)).2.2.symm.trans hwaits) (by decide)

end Sys2Proof.Machine
end

section
/-! PROOFS. What the completion of a command changes (R177, R188, R199, R200, R343), and what the end of a receive changes
(R245, R246). -/

namespace Sys2Proof.Machine

-- The proofs are elaborated one after another: in parallel their threads' stacks need more memory than a compile may have.
set_option Elab.async false

/-- The fields that the completion of a command changes. -/
def doneFields : List Field :=
  [.ops, .cqs, .trigs, .posts, .serial, .ht, .eqs, .regs, .grooms, .runqs, .hbm, .dir, .hints, .frees]

/-- The addresses of the registers that it writes: counters of the stores, and what hosts are told of. -/
def DoneAt (a : Nat) : Prop := LineAt a ∨ ∃ l, a = (Reg.hlStatus l).addr

namespace State.Alters

theorem put_posts_serial (s : State) (x : Tab (List Post)) (n : Nat) : s.Alters { s with posts := x, serial := n } doneFields DoneAt :=
  (put_posts s x).trans (put_serial _ n)

theorem put_ops_serial (s : State) (x : Tab Op) (n : Nat) : s.Alters { s with ops := x, serial := n } doneFields DoneAt :=
  (put_ops s x).trans (put_serial _ n)

theorem put_cqs_trigs (s : State) (x : Tab Cq) (y : List Trig) : s.Alters { s with cqs := x, trigs := y } doneFields DoneAt :=
  (put_cqs s x).trans (put_trigs _ y)

theorem fireCompletion (s : State) (c code : Nat) (w : List Word) : s.Alters (s.fireCompletion c code w) doneFields DoneAt :=
  put_runqs s _

theorem post (s : State) (p : Post) : s.Alters (s.post p) doneFields DoneAt := by
  have hl : ∀ l, DoneAt (Reg.hlStatus l).addr := fun l => .inr ⟨l, rfl⟩
  unfold State.post
  split
  · exact postMgmt s _ _ _ _ hl
  · exact postEq s _ _ _ _ hl
  · exact postCtx s _ _ _ hl
  · exact ite (fireCompletion ..) (refl s)

theorem putCpl (s : State) (q : Nat) (c : Cq) (count : Nat) (writes : List (Nat × List Byte)) (after : List Post) :
    s.Alters (s.putCpl q c count writes after) doneFields DoneAt := by
  unfold State.putCpl
  extract_lets fn ctx late soon id tok s1 s2 s3
  have h1 : s.Alters s1 doneFields DoneAt := ite (refl s) (put_posts_serial ..)
  have h2 : s.Alters s2 doneFields DoneAt := h1.trans (foldl (fun t w => .hostWrite t _ _ _ _ _ _) _ s1)
  have h3 : s.Alters s3 doneFields DoneAt := by
    unfold s3
    split
    · exact h2.trans (.hostWrite s2 _ _ _ _ _ _)
    · exact h2
  exact (h3.trans (modCq s3 _ _)).trans (foldl post _ _)

theorem writeCpl (s : State) (q : Nat) (c : Cq) (count : Nat) (writes : List (Nat × List Byte)) (after : List Post) :
    s.Alters (s.writeCpl q c count writes after) doneFields DoneAt := ite (modTl s _ _) (putCpl ..)

theorem groomCpl (s : State) (g : GroomId) (op : Nat) (hdr : Word) : s.Alters (s.groomCpl g op hdr) doneFields DoneAt := by
  unfold State.groomCpl
  split
  · exact refl s
  · split
    · exact refl s
    · exact (ite (refl s) (modGroom s _ _)).trans (modRun _ _ _)

theorem fireTrigs (s : State) (c ct : Nat) : s.Alters (s.fireTrigs c ct) doneFields DoneAt := by
  unfold State.fireTrigs
  extract_lets now fires due s1
  refine (put_trigs s _).trans (foldl (fun t x => ?_) due s1)
  split
  · exact refl t
  · exact ite (refl t) ((put_ops_serial t _ _).trans (modCq _ _ _))

theorem ctPut (s : State) (c ct : Nat) (w : Word) : s.Alters (s.ctPut c ct w) doneFields DoneAt :=
  ((cacheWrite s _ _ _).mono (by decide) fun _ => .inl).trans (fireTrigs ..)

theorem ctAdd (s : State) (c ct succ failed : Nat) : s.Alters (s.ctAdd c ct succ failed) doneFields DoneAt :=
  ite (ctPut ..) (refl s)

theorem queueIdle (s : State) (q : Nat) : s.Alters (s.queueIdle q).1 doneFields DoneAt := by
  unfold State.queueIdle
  split
  · exact refl s
  · split
    · split
      · exact refl s
      · exact put_cqs_trigs ..
    · split
      · exact refl s
      · split
        · exact refl s
        · exact modCq s _ _

theorem endOp1 (s : State) (id status detail : Nat) (writes : List (Nat × List Byte)) :
    s.Alters (s.endOp1 id status detail writes) doneFields DoneAt := by
  unfold State.endOp1
  split
  · exact refl s
  · extract_lets s1 hdr new ok cq slot fs event run s2
    have h2 : s.Alters s2 doneFields DoneAt := (put_ops s _).trans (by
      unfold s2
      split
      · exact writeCpl ..
      · exact groomCpl ..
      · exact foldl post _ _
      · exact refl s1)
    exact ite (h2.trans (ctAdd ..)) h2

theorem endDestroy (s : State) (id : Nat) : s.Alters (s.endDestroy id) doneFields DoneAt := by
  unfold State.endDestroy
  split
  · exact refl s
  · exact (endOp1 s _ _ _ _).trans (queueIdle ..)

theorem settleQueue (s : State) (q : Nat) : s.Alters (s.settleQueue q) doneFields DoneAt := by
  have h := queueIdle s q
  unfold State.settleQueue
  split
  case h_1 t d e => rw [e] at h; exact h.trans (endDestroy t d)
  case h_2 t e => rw [e] at h; exact h

theorem endOp (s : State) (id status detail : Nat) (writes : List (Nat × List Byte)) :
    s.Alters (s.endOp id status detail writes) doneFields DoneAt := by
  unfold State.endOp
  split
  · exact refl s
  · exact (endOp1 s _ _ _ _).trans (settleQueue ..)

theorem done (s : State) (id status detail : Nat) : s.Alters (s.done id status detail) doneFields DoneAt := endOp ..

end State.Alters

/-! ### Receives (R245, R246) -/

/-- The fields that the end of a receive changes. -/
def recvFields : List Field := .mes :: .ctxs :: doneFields

/-- The addresses of the registers that it writes: those of completions, and the free entries and blocks of its domain. -/
def RecvAt (a : Nat) : Prop := DoneAt a ∨ ∃ d, a = (Reg.mtPool d).addr

namespace State.Alters

theorem modMe {F : List Field} {P : Nat → Prop} (s : State) (m : Nat) (f : Me → Me) (hF : .mes ∈ F := by decide) :
    s.Alters (s.modMe m f) F P := by
  unfold State.modMe
  split
  · exact put_mes s _ hF
  · exact refl s

theorem uxGive (s : State) (c n : Nat) : s.Alters (s.uxGive c n) recvFields RecvAt :=
  (setReg s _ (.inr ⟨_, rfl⟩)).trans (modCtx _ _ _)

theorem freeMe (s : State) (m : Nat) : s.Alters (s.freeMe m) recvFields RecvAt := by
  unfold State.freeMe
  split
  · exact refl s
  · extract_lets s1 s2
    have h2 : s.Alters s2 recvFields RecvAt := (put_mes s _).trans (ite (uxGive ..) (refl s1))
    exact ite (h2.trans (setReg s2 _ (.inr ⟨_, rfl⟩))) (ite (h2.trans (setReg s2 _ (.inr ⟨_, rfl⟩))) h2)

theorem recvEnds (s : State) (m status detail : Nat) : s.Alters (s.recvEnds m status detail) recvFields RecvAt := by
  unfold State.recvEnds
  split
  · exact refl s
  · refine ite (freeMe s m) ?_
    split
    · exact freeMe s m
    · exact (freeMe s m).trans ((endOp ..).mono (by decide) fun _ => .inl)

theorem recvFails (s : State) (m status detail : Nat) : s.Alters (s.recvFails m status detail) recvFields RecvAt := by
  unfold State.recvFails
  extract_lets s1
  have h1 : s.Alters s1 recvFields RecvAt := modMe s _ _
  split
  · exact h1
  · exact h1.trans (recvEnds ..)

end State.Alters

end Sys2Proof.Machine
end

section
/-! PROOFS. What an endpoint makes of a packet (R268, R269): what is discarded, what is answered, and how a flow is opened at
its target (R263). -/

namespace Sys2Proof.Machine

-- The proofs are elaborated one after another: in parallel their threads' stacks need more memory than a compile may have.
set_option Elab.async false

/-! ### Headers -/

theorem fld_foldl_setFld_other {n hi lo : Nat} (hn : hi < n) (fs : List (Nat × Nat × Nat)) (w : BitVec n)
    (h : ∀ f ∈ fs, hi < f.2.1 ∨ f.1 < lo) : fld (fs.foldl (fun w f => setFld w f.1 f.2.1 f.2.2) w) hi lo = fld w hi lo := by
  induction fs generalizing w with
  | nil => rfl
  | cons f fs ih =>
    rw [List.foldl_cons, ih _ fun g hg => h g (List.mem_cons_of_mem _ hg)]
    exact fld_setFld_other _ _ _ _ _ _ hn ((h f List.mem_cons_self).symm.imp id id)

/-- The VC class of a packet as it is built: the transport header's fields lie below the routing header. -/
theorem vclass_buildPkt {dest src tc vc hash : Nat} {flagged adapt : Bool} {th : List (Nat × Nat × Nat)} {bs : List Byte}
    (hth : ∀ f ∈ th, f.1 < 384) (hvc : vc < 8) : Pkt.vclass (buildPkt dest src tc vc flagged adapt hash th bs) = vc := by
  unfold Pkt.vclass Pkt.rh Pkt.hdr buildPkt mkWord
  dsimp only
  rw [List.foldl_append, fld_foldl_setFld_other (by decide) _ _ fun f hf => .inr (by have := hth f hf; omega)]
  simp only [List.foldl]
  rw [fld_setFld_other _ _ _ _ _ _ (by decide) (by decide), fld_setFld_other _ _ _ _ _ _ (by decide) (by decide),
    fld_setFld_other _ _ _ _ _ _ (by decide) (by decide), fld_setFld_other _ _ _ _ _ _ (by decide) (by decide),
    fld_setFld_same _ _ _ _ (by decide)]
  exact Nat.mod_eq_of_lt hvc

/-- Sealing a packet writes its CRCs alone. -/
theorem vclass_sealPkt {p : Pkt} : Pkt.vclass (sealPkt p) = Pkt.vclass p := by
  cases p with
  | nil => rfl
  | cons f fs =>
    show fld (setFld (setFld f.bits 31 0 _) 399 384 _) (76 + 384) (74 + 384) = fld f.bits (76 + 384) (74 + 384)
    rw [fld_setFld_other _ _ _ _ _ _ (by decide) (by decide), fld_setFld_other _ _ _ _ _ _ (by decide) (by decide)]

theorem vclass_nackFor (p : Pkt) (src cum map cause detail : Nat) : Pkt.vclass (nackFor p src cum map cause detail) = 0 := by
  rw [nackFor, vclass_sealPkt]
  exact vclass_buildPkt (by simp) (by decide)

theorem vclass_ackFor (s : State) (tf : TFlow) (delay : Nat) : Pkt.vclass (s.ackFor tf delay) = 0 := by
  rw [State.ackFor, vclass_sealPkt]
  exact vclass_buildPkt (by simp) (by decide)

/-! ### Answers (R271, R272) -/

/-- The addresses of performance counters. -/
def CountAt (a : Nat) : Prop := ∃ b i, a = (Reg.pmCnt b i).addr

theorem not_countAt_of_off {q : Reg} (o : Nat) (ho : q.off = o) (h : o % 0x10000 < 0xE080 ∨ 0xE0C0 ≤ o % 0x10000 := by decide) :
    ¬ CountAt q.addr := by
  rintro ⟨b, i, e⟩
  have hq := addr_mod q
  have hc := addr_mod (.pmCnt b i)
  have hi := i.isLt
  rw [ho] at hq
  simp only [Reg.off] at hc
  omega

theorem injectPkt_frame (s : State) (st : Nat) (p : Pkt) : s.injectPkt st p =
    { s with inject := tMod [] (4 * st + Pkt.vclass p % 4) (· ++ [p]) s.inject, regs := (s.injectPkt st p).regs } := by
  unfold State.injectPkt
  exact pm_frame ..

theorem injectPkt_alters (s : State) (st : Nat) (p : Pkt) : s.Alters (s.injectPkt st p) [.inject, .regs] CountAt :=
  (State.Alters.put_inject s _).trans (.pm _ _ _ _ _ fun i => ⟨_, i, rfl⟩)

theorem inject_injectPkt (s : State) (st : Nat) (p : Pkt) :
    (s.injectPkt st p).inject = tMod [] (4 * st + Pkt.vclass p % 4) (· ++ [p]) s.inject := by
  rw [injectPkt_frame]

/-- The state after an ACK of a flow with record `t`. -/
theorem sendAck_eq {s : State} {f : Nat} {t : TFlow} (h : tFind s.tfl f = some t) : s.sendAck f =
    (s.modTfl f (fun t => { t with unacked := 0, firstUnacked := none })).injectPkt (s.ctxStall t.dctx)
      (s.ackFor t (min 0xFFFFFFFF ((s.clk - t.newestAt) / 16))) := by
  unfold State.sendAck
  rw [h]
  rfl

/-- The cum and the map that a NACK carries (R272): those of the flow, where there is one. -/
def cumOf (tf : Option TFlow) : Nat := match tf with | some t => t.cum | none => 0
def mapOf (tf : Option TFlow) : Nat := match tf with | some t => t.map | none => 0

/-- The state after the NACK of a packet, sent from stall `st` under address `src`. -/
def State.nacked (s : State) (p : Pkt) (st src cum map cause detail : Nat) : State :=
  (s.injectPkt st (nackFor p src cum map cause detail)).bump (.rmaErrcnt (stallOf st)) 47 32 1

theorem sendNack_known {s : State} {p : Pkt} (h : (s.ctx? (Pkt.dctx p)).isSome = true) (tf : Option TFlow) {cause detail : Nat}
    (hc : cause ≠ 2) : s.sendNack tf p cause detail = s.nacked p (s.ctxStall (Pkt.dctx p)) (s.ctxFa (Pkt.dctx p))
      (cumOf tf) (mapOf tf) cause detail := by
  have hk : ((s.ctx? (Pkt.dctx p)).isSome && decide (cause ≠ 2)) = true := by simp [h, hc]
  unfold State.sendNack
  simp only [hk, if_true]
  rfl

theorem sendNack_unknown (s : State) (p : Pkt) (tf : Option TFlow) (detail : Nat) : s.sendNack tf p 2 detail =
    s.nacked p 0 (s.coord * 256 + 31)
      (cumOf tf) (mapOf tf) 2 detail := by
  have hk : ((s.ctx? (Pkt.dctx p)).isSome && decide (2 ≠ 2)) = false := by simp
  unfold State.sendNack
  simp only [hk]
  rfl

section

variable {s u : State} {p : Pkt} {st src cum map cause detail : Nat}

theorem nacked_alters (s : State) (p : Pkt) (st src cum map cause detail : Nat) :
    s.Alters (s.nacked p st src cum map cause detail) [.inject, .regs] (fun _ => True) :=
  ((injectPkt_alters s st _).mono (by decide) fun _ _ => trivial).trans (.setReg _ _ trivial)

/-- A NACK that goes out is the packet's whole answer. -/
theorem nacked_answers (s : State) (p : Pkt) (rest : List Ejected) (st src cum map cause detail : Nat) :
    s.AnsweredBy (State.nacked { s with eject := rest } p st src cum map cause detail) rest st (nackFor p src cum map cause detail) := by
  have hin : (State.nacked { s with eject := rest } p st src cum map cause detail).inject =
      tMod [] (4 * st) (· ++ [nackFor p src cum map cause detail]) s.inject := by
    show (State.injectPkt { s with eject := rest } st _).inject = _
    rw [inject_injectPkt, vclass_nackFor]
    rfl
  refine ⟨hin, ?_⟩
  rw [hin, State.nacked, injectPkt_frame, vclass_nackFor]
  rfl

/-- A NACK is counted at its stall. -/
theorem nacked_counted (s : State) (p : Pkt) (st src cum map cause detail : Nat) :
    (s.nacked p st src cum map cause detail).rf (.rmaErrcnt (stallOf st)) 47 32 =
      min (s.rf (.rmaErrcnt (stallOf st)) 47 32 + 1) 65535 := by
  rw [State.nacked, rf_bump_same _ _ _ _ _ (by decide), (injectPkt_alters s st _).rf (not_countAt_of_off 0x4008 rfl)]
  rfl

end

/-! ### What a packet meets (R268) -/

section

variable {s : State} {p : Pkt} {x : Option Port} {rest : List Ejected}

/-- The record of a packet's flow. -/
def State.flowOf (s : State) (p : Pkt) : Option TFlow := match s.findTfl p with | some tf => tFind s.tfl tf | none => none

theorem flowOf_of_some {f : Nat} (hf : s.findTfl p = some f) : s.flowOf p = tFind s.tfl f := by
  rw [State.flowOf, hf]

/-- A sound packet that is neither a collective's nor a report of a fault's. -/
def State.meet (s : State) (p : Pkt) : State :=
  if !s.domRuns (s.ctxDom (Pkt.dctx p)) then s.bump (.csCount (domOf (s.ctxDom (Pkt.dctx p)))) 31 0 1
  else if Pkt.opc p = 3 ∨ Pkt.opc p = 5 ∨ Pkt.opc p = 8 ∨ Pkt.opc p = 9 then { s with toInit := s.toInit ++ [p] }
  else if (s.ctx? (Pkt.dctx p)).isNone then s.sendNack none p 0x02 0
  else if Pkt.malformed p then s.sendNack (s.flowOf p) p 0x01 0
  else if Pkt.opc p = 0x18 ∧ Pkt.tag p / 2 ^ 56 = 1 then s.flowOpen p
  else match s.findTfl p with
    | none => s.sendNack none p 0x10 0
    | some tf => s.classify tf p

theorem receive_of_sound (hp : Pkt.Sound p) (h : Pkt.opc p ≠ 0x10 ∧ Pkt.opc p ≠ 0x11 ∧ Pkt.opc p ≠ 0x1F) :
    s.receive ⟨p, x⟩ = s.meet p := by
  obtain ⟨hpo, hec⟩ := hp
  obtain ⟨h1, h2, h3⟩ := h
  unfold State.receive
  dsimp only
  rw [if_neg (by simp [hpo, hec]), if_neg (by simp [h1, h2]), if_neg h3]
  rfl

theorem doPacketReceive_eq (he : s.eject = ⟨p, x⟩ :: rest) : doPacketReceive s = State.receive { s with eject := rest } ⟨p, x⟩ := by
  unfold doPacketReceive
  rw [he]

/-- The row performed on a packet that has arrived, once it is known what it makes of the state. -/
theorem packetReceive_of_alters {t : State} {F : List Field} {P : Nat → Prop} (ha : s.Arrives p x rest)
    (ht : State.receive { s with eject := rest } ⟨p, x⟩ = t) (h : State.Alters { s with eject := rest } t F P)
    (htodo : .todo ∉ F := by decide) (hcoat : .calmCoat ∉ F := by decide) : exec .packetReceive s = .next t := by
  obtain ⟨hc, hl, he⟩ := ha
  have e : doPacketReceive s = t := (doPacketReceive_eq he).trans ht
  obtain ⟨htd, htc⟩ := h.calm (s := { s with eject := rest }) ⟨hc.1, hc.2⟩ htodo hcoat
  rw [← e] at htd htc
  exact (act_of_calm _ _ _ hl htd htc).trans (congrArg _ e)

theorem packetReceive_meets {t : State} {F : List Field} {P : Nat → Prop} (ha : s.Arrives p x rest) (hp : Pkt.Sound p)
    (ho : Pkt.opc p ≠ 0x10 ∧ Pkt.opc p ≠ 0x11 ∧ Pkt.opc p ≠ 0x1F)
    (ht : State.meet { s with eject := rest } p = t) (h : State.Alters { s with eject := rest } t F P)
    (htodo : .todo ∉ F := by decide) (hcoat : .calmCoat ∉ F := by decide) : exec .packetReceive s = .next t :=
  packetReceive_of_alters ha ((receive_of_sound hp ho).trans ht) h htodo hcoat

/-! ### Packets that are discarded, passed on or refused -/

theorem meet_fenced (h : s.domRuns (s.ctxDom (Pkt.dctx p)) = false) :
    s.meet p = s.bump (.csCount (domOf (s.ctxDom (Pkt.dctx p)))) 31 0 1 := if_pos (by rw [h]; rfl)

theorem meet_answer (hr : s.domRuns (s.ctxDom (Pkt.dctx p)) = true) (h : Pkt.opc p = 3 ∨ Pkt.opc p = 5 ∨ Pkt.opc p = 8 ∨ Pkt.opc p = 9) :
    s.meet p = { s with toInit := s.toInit ++ [p] } := (if_neg (by rw [hr]; decide)).trans (if_pos h)

/-- The opcodes of requests (R260). -/
def Pkt.IsRequest (p : Pkt) : Prop := Pkt.opc p = 1 ∨ Pkt.opc p = 2 ∨ Pkt.opc p = 4 ∨ Pkt.opc p = 6 ∨ Pkt.opc p = 0x18

theorem Pkt.IsRequest.ne (h : Pkt.IsRequest p) : (Pkt.opc p ≠ 0x10 ∧ Pkt.opc p ≠ 0x11 ∧ Pkt.opc p ≠ 0x1F) ∧
    ¬ (Pkt.opc p = 3 ∨ Pkt.opc p = 5 ∨ Pkt.opc p = 8 ∨ Pkt.opc p = 9) := by
  unfold Pkt.IsRequest at h
  omega

theorem meet_request (hr : s.domRuns (s.ctxDom (Pkt.dctx p)) = true) (h : Pkt.IsRequest p) : s.meet p =
    if (s.ctx? (Pkt.dctx p)).isNone then s.sendNack none p 0x02 0
    else if Pkt.malformed p then s.sendNack (s.flowOf p) p 0x01 0
    else if Pkt.opc p = 0x18 ∧ Pkt.tag p / 2 ^ 56 = 1 then s.flowOpen p
    else match s.findTfl p with
      | none => s.sendNack none p 0x10 0
      | some tf => s.classify tf p := (if_neg (by rw [hr]; decide)).trans (if_neg h.ne.2)

theorem meet_request_known (hr : s.domRuns (s.ctxDom (Pkt.dctx p)) = true) (h : Pkt.IsRequest p)
    (hk : (s.ctx? (Pkt.dctx p)).isSome = true) : s.meet p =
    if Pkt.malformed p then s.sendNack (s.flowOf p) p 0x01 0
    else if Pkt.opc p = 0x18 ∧ Pkt.tag p / 2 ^ 56 = 1 then s.flowOpen p
    else match s.findTfl p with
      | none => s.sendNack none p 0x10 0
      | some tf => s.classify tf p :=
  (meet_request hr h).trans (if_neg (by rw [Option.isNone_eq_false_iff.2 hk]; decide))

theorem packetReceive_damaged {st : Stall} (ha : s.Arrives p x rest) (hbad : Pkt.poisoned p = true ∨ Pkt.ecrcOf p ≠ Pkt.ecrc p)
    (hk : (s.ctx? (Pkt.dctx p)).isSome = true) (hst : st = stallOf (s.ctxStall (Pkt.dctx p))) :
    ∃ t, exec .packetReceive s = .next t ∧ t.rf (.rmaErrcnt st) 63 48 = min (s.rf (.rmaErrcnt st) 63 48 + 1) 65535 ∧
    t.rf (.rmaErrcnt st) 47 0 = s.rf (.rmaErrcnt st) 47 0 ∧ (∀ q : Reg, q.addr ≠ (Reg.rmaErrcnt st).addr → t.reg q =
    s.reg q) ∧ t = { s with eject := rest, regs := t.regs } := by
  have e : State.receive { s with eject := rest } ⟨p, x⟩ = State.bump { s with eject := rest } (.rmaErrcnt st) 63 48 1 := by
    have hb : (Pkt.poisoned p || decide (Pkt.ecrcOf p ≠ Pkt.ecrc p)) = true := by simpa using hbad
    have hs : (State.ctx? { s with eject := rest } (Pkt.dctx p)).isSome = true := hk
    unfold State.receive
    dsimp only
    rw [if_pos hb, if_pos hs, hst]
    rfl
  refine ⟨_, packetReceive_of_alters ha e (.setReg (F := [.regs]) (P := fun _ => True) _ _ trivial), rf_bump_same _ _ _ _ _ (by decide),
    rf_bump_other _ _ _ _ _ _ _ (by decide) (by decide), fun q hq => reg_bump_other _ _ _ _ _ _ hq, rfl⟩

theorem packetReceive_fenced {d : Dom} (ha : s.Arrives p x rest) (hp : Pkt.Sound p)
    (ho : Pkt.opc p ≠ 0x10 ∧ Pkt.opc p ≠ 0x11 ∧ Pkt.opc p ≠ 0x1F) (hd : d = domOf (s.ctxDom (Pkt.dctx p)) ∧ s.domRuns d.val = false) :
    ∃ t, exec .packetReceive s = .next t ∧ t.rf (.csCount d) 31 0 = min (s.rf (.csCount d) 31 0 + 1) 0xFFFFFFFF ∧ (∀ q
    : Reg, q.addr ≠ (Reg.csCount d).addr → t.reg q = s.reg q) ∧ t = { s with eject := rest, regs := t.regs } := by
  obtain ⟨rfl, hr⟩ := hd
  have hdom : s.domRuns (s.ctxDom (Pkt.dctx p)) = false := by
    rw [← hr]
    unfold State.ctxDom
    split <;> rfl
  have e : State.meet { s with eject := rest } p =
      State.bump { s with eject := rest } (.csCount (domOf (s.ctxDom (Pkt.dctx p)))) 31 0 1 := meet_fenced hdom
  exact ⟨_, packetReceive_meets ha hp ho e (.setReg (F := [.regs]) (P := fun _ => True) _ _ trivial),
    rf_bump_same _ _ _ _ _ (by decide), fun q hq => reg_bump_other _ _ _ _ _ _ hq, rfl⟩

theorem packetReceive_answer (ha : s.Arrives p x rest) (hp : Pkt.Sound p) (hr : s.domRuns (s.ctxDom (Pkt.dctx p)) = true)
    (ho : Pkt.opc p = 3 ∨ Pkt.opc p = 5 ∨ Pkt.opc p = 8 ∨ Pkt.opc p = 9) :
    exec .packetReceive s = .next { s with eject := rest, toInit := s.toInit ++ [p] } :=
  packetReceive_meets ha hp (by omega) (meet_answer (s := { s with eject := rest }) hr ho)
    (.put_toInit (F := [.toInit]) (P := fun _ => True) _ _)

theorem packetReceive_foreign (ha : s.Arrives p x rest) (hp : Pkt.Sound p)
    (hk : s.ctx? (Pkt.dctx p) = none ∧ s.domRuns (s.ctxDom (Pkt.dctx p)) = true) (ho : Pkt.IsRequest p) :
    ∃ t, exec .packetReceive s = .next t ∧ s.AnsweredBy t rest 0 (nackFor p (s.rf .rtCoord 15 0 * 256 + 31) 0 0 0x02 0) ∧
    t.rf (.rmaErrcnt 0) 47 32 = min (s.rf (.rmaErrcnt 0) 47 32 + 1) 65535 := by
  have hn : (State.ctx? { s with eject := rest } (Pkt.dctx p)).isNone = true := Option.isNone_iff_eq_none.2 hk.1
  have hco : State.coord { s with eject := rest } = s.rf .rtCoord 15 0 := rfl
  have h0 : stallOf 0 = (0 : Stall) := rfl
  have hrf : State.rf { s with eject := rest } (.rmaErrcnt 0) 47 32 = s.rf (.rmaErrcnt 0) 47 32 := rfl
  have e := ((meet_request (s := { s with eject := rest }) hk.2 ho).trans (if_pos hn)).trans (sendNack_unknown ..)
  have hc := nacked_counted { s with eject := rest } p 0 (s.rf .rtCoord 15 0 * 256 + 31) 0 0 2 0
  rw [hco] at e
  rw [h0, hrf] at hc
  exact ⟨_, packetReceive_meets ha hp ho.ne.1 e (nacked_alters ..), nacked_answers .., hc⟩

/-- A request of a known context that is refused by a NACK. -/
theorem packetReceive_refused {tf : Option TFlow} {cause : Nat} (ha : s.Arrives p x rest) (hp : Pkt.Sound p)
    (hk : (s.ctx? (Pkt.dctx p)).isSome = true) (ho : Pkt.IsRequest p) (hc : cause ≠ 2)
    (e : State.meet { s with eject := rest } p = State.sendNack { s with eject := rest } tf p cause 0) :
    ∃ t, exec .packetReceive s = .next t ∧ s.AnsweredBy t rest (s.ctxStall (Pkt.dctx p)) (nackFor p (s.ctxFa (Pkt.dctx p))
      (cumOf tf) (mapOf tf) cause 0) := by
  have hst : State.ctxStall { s with eject := rest } (Pkt.dctx p) = s.ctxStall (Pkt.dctx p) := rfl
  have hfa : State.ctxFa { s with eject := rest } (Pkt.dctx p) = s.ctxFa (Pkt.dctx p) := rfl
  have e' := e.trans (sendNack_known (s := { s with eject := rest }) hk tf hc)
  rw [hst, hfa] at e'
  exact ⟨_, packetReceive_meets ha hp ho.ne.1 e' (nacked_alters ..), nacked_answers ..⟩

end

end Sys2Proof.Machine
end

section
/-! PROOFS. FLOW_OPEN at its target (R263): a record made, the ACK repeated, and a new incarnation. -/

namespace Sys2Proof.Machine

-- The proofs are elaborated one after another: in parallel their threads' stacks need more memory than a compile may have.
set_option Elab.async false

section

variable {s : State} {p : Pkt} {f : Nat} {t : TFlow}

theorem modTfl_of_some {g : TFlow → TFlow} (h : tFind s.tfl f = some t) : s.modTfl f g = { s with tfl := tPut f (g t) s.tfl } := by
  rw [State.modTfl, h]

/-- An ACK leaves its flow with nothing to acknowledge, and nothing but counters and the packet that waits for injection. -/
theorem sendAck_frame (h : tFind s.tfl f = some t) : s.sendAck f =
    { s with tfl := tPut f { t with unacked := 0, firstUnacked := none } s.tfl,
             inject := tMod [] (4 * s.ctxStall t.dctx) (· ++ [s.ackFor t (min 0xFFFFFFFF ((s.clk - t.newestAt) / 16))]) s.inject,
             regs := (s.sendAck f).regs } := by
  have e := sendAck_eq h
  rw [modTfl_of_some h] at e
  rw [e, injectPkt_frame, vclass_ackFor]
  rfl

theorem sendAck_alters (s : State) (f : Nat) : s.Alters (s.sendAck f) [.tfl, .inject, .regs] CountAt := by
  cases h : tFind s.tfl f with
  | none =>
    have e : s.sendAck f = s := by rw [State.sendAck, h]
    rw [e]
    exact .refl s
  | some t =>
    rw [sendAck_eq h]
    exact (State.Alters.modTfl s f _).trans ((injectPkt_alters ..).mono)

/-- What an ACK says depends on its flow's addresses, what has been delivered and the newest packet, and on the address of its
context. -/
theorem ackFor_congr {u : State} {t' : TFlow} {d : Nat} (hfa : u.ctxFa t'.dctx = s.ctxFa t.dctx)
    (h : (t'.srcFa, t'.dctx, t'.sctx, t'.cum, t'.deliv, t'.newestPsn, t'.newestTsl) =
      (t.srcFa, t.dctx, t.sctx, t.cum, t.deliv, t.newestPsn, t.newestTsl)) : u.ackFor t' d = s.ackFor t d := by
  simp only [Prod.mk.injEq] at h
  obtain ⟨h1, h2, h3, h4, h5, h6, h7⟩ := h
  have hmap : t'.map = t.map := by rw [TFlow.map, TFlow.map, h4, h5]
  rw [State.ackFor, State.ackFor, hfa, h1, h2, h3, h4, h6, h7, hmap]

/-- What an answer on a flow may change: flow records, what waits for injection, registers and the serial number. -/
theorem answered_alters (s : State) (a : Tab TFlow) (b : Tab (List Pkt)) (c : Tab Word) (d : Nat) :
    s.Alters { s with tfl := a, inject := b, regs := c, serial := d } [.tfl, .inject, .regs, .serial] (fun _ => True) :=
  ⟨fun x hx => by
    cases x
    case tfl | inject | regs | serial => exact absurd (by decide) hx
    case calmCoat => exact id
    all_goals rfl, fun _ hq => absurd trivial hq⟩

/-- A record made by FLOW_OPEN, under the next serial number. -/
def State.opened (s : State) (p : Pkt) : State :=
  { s with tfl := tPut s.serial (TFlow.fresh p s.clk (s.rmaCtrlOf (Pkt.dctx p))) s.tfl, serial := s.serial + 1 }

theorem opened_alters (s : State) (p : Pkt) : s.Alters (s.opened p) [.tfl, .serial] (fun _ => False) := by
  have h : ∀ a b, s.Alters { s with tfl := a, serial := b } [.tfl, .serial] (fun _ => False) := fun a b =>
    (State.Alters.put_tfl s a).trans (.put_serial _ b)
  exact h ..

theorem opened_tfl (s : State) (p : Pkt) :
    tFind (s.opened p).tfl s.serial = some (TFlow.fresh p s.clk (s.rmaCtrlOf (Pkt.dctx p))) := tFind_tPut_same ..

theorem flowOpen_new (hnew : s.findTfl p = none) (hroom : s.flowRoom (Pkt.dctx p) = true) :
    s.flowOpen p = ((s.opened p).flowTake (Pkt.dctx p)).sendAck s.serial := by
  unfold State.flowOpen
  rw [hnew]
  exact if_pos hroom

theorem flowOpen_full (hnew : s.findTfl p = none) (hroom : s.flowRoom (Pkt.dctx p) = false) :
    s.flowOpen p = s.sendNack none p 0x12 0 := by
  unfold State.flowOpen
  rw [hnew]
  exact if_neg (by rw [hroom]; decide)

/-- A flow's record once its FLOW_OPEN has come again. -/
def TFlow.reopened (t : TFlow) (p : Pkt) (now : Nat) : TFlow :=
  { t with newestPsn := Pkt.psn p, newestTsl := Pkt.tsl p, newestAt := now, lastRx := now }

theorem flowOpen_again (hf : s.findTfl p = some f) (ht : tFind s.tfl f = some t) (hpsn : Pkt.psn p = t.start) :
    s.flowOpen p = State.sendAck { s with tfl := tPut f (t.reopened p s.clk) s.tfl } f := by
  unfold State.flowOpen
  rw [hf]
  dsimp only
  rw [ht]
  dsimp only
  rw [if_pos hpsn, modTfl_of_some ht]
  rfl

theorem flowOpen_other (hf : s.findTfl p = some f) (ht : tFind s.tfl f = some t) (hpsn : Pkt.psn p ≠ t.start) :
    s.flowOpen p = ((s.endTfl f).opened p).sendAck (s.endTfl f).serial := by
  unfold State.flowOpen
  rw [hf]
  dsimp only
  rw [ht]
  exact if_neg hpsn

/-- The fields that the end of a flow at its target changes. -/
def endTflFields : List Field := .tfl :: .hatoms :: .uses :: recvFields

theorem dropAtoms_alters (s : State) (f : Nat) : s.Alters (s.dropAtoms f) [.hatoms, .uses] (fun _ => False) := by
  unfold State.dropAtoms
  extract_lets mine
  refine (State.Alters.put_hatoms s _).trans (.foldl (fun t a => ?_) _ _)
  unfold State.endHeld
  split
  · exact .put_uses t _
  · exact .refl t

theorem endTfl_alters (s : State) (f : Nat) : s.Alters (s.endTfl f) endTflFields RecvAt := by
  unfold State.endTfl
  split
  · exact .refl s
  · next t _ =>
    extract_lets s1 mine s2
    have h1 : s.Alters s1 endTflFields RecvAt := (State.Alters.uxGive ..).mono
    have h2 : s1.Alters s2 endTflFields RecvAt := .foldl (fun t e => .ite (State.Alters.recvFails ..).mono
      (.ite (State.Alters.freeMe ..).mono (.refl t))) _ _
    exact (h1.trans h2).trans (((dropAtoms_alters s2 f).mono (by decide) fun _ => False.elim).trans (.put_tfl _ _))

end

section

variable {s : State} {p : Pkt} {x : Option Port} {rest : List Ejected} {f : Nat} {tf : TFlow}

/-- FLOW_OPEN of a known context reaches the flow's record. -/
theorem meet_flowOpen (hk : (s.ctx? (Pkt.dctx p)).isSome = true ∧ s.domRuns (s.ctxDom (Pkt.dctx p)) = true)
    (ho : Pkt.opc p = 0x18 ∧ Pkt.tag p / 2 ^ 56 = 1 ∧ Pkt.malformed p = false) : s.meet p = s.flowOpen p :=
  (meet_request_known hk.2 (.inr (.inr (.inr (.inr ho.1)))) hk.1).trans
    ((if_neg (by rw [ho.2.2]; decide)).trans (if_pos ⟨ho.1, ho.2.1⟩))

/-- The state once a record has been taken from the pool. -/
theorem flowTake_opened (s : State) (p : Pkt) : ((s.opened p).flowTake (Pkt.dctx p)) =
    { s with tfl := tPut s.serial (TFlow.fresh p s.clk (s.rmaCtrlOf (Pkt.dctx p))) s.tfl, serial := s.serial + 1,
             regs := ((s.opened p).flowTake (Pkt.dctx p)).regs } := rfl

theorem flowTake_alters (s : State) (c : Nat) : s.Alters (s.flowTake c) [.regs] (fun a => ∃ d, a = (Reg.flowPool d).addr) :=
  .setReg s _ ⟨_, rfl⟩

theorem rf_flowTake (s : State) (c : Nat) :
    (s.flowTake c).rf (.flowPool (domOf (s.ctxDom c))) 63 40 = s.rf (.flowPool (domOf (s.ctxDom c))) 63 40 - 1 := by
  unfold State.flowTake
  rw [rf_wf_same _ _ _ _ _ (by decide)]
  have hlt : s.rf (.flowPool (domOf (s.ctxDom c))) 63 40 < 2 ^ (63 + 1 - 40) := fld_lt ..
  exact Nat.mod_eq_of_lt (by omega)

theorem ctxFa_of_alters {u : State} {F : List Field} {P : Nat → Prop} (h : s.Alters u F P) (hP : ¬ P Reg.rtCoord.addr)
    (hF : .ctxs ∉ F := by decide) (c : Nat) : u.ctxFa c = s.ctxFa c := by
  have hw : ∀ i, u.ctxWord c i = s.ctxWord c i := fun i => ctxWord_of_ctxs (h.ctxs hF) c i
  rw [State.ctxFa, State.ctxFa, State.ctxLink, State.ctxLink, State.ctxFn, State.ctxFn, hw, State.coord, State.coord, h.rf hP]

/-- What a FLOW_OPEN that makes a record leaves. -/
theorem flowOpen_opens (hnew : s.findTfl p = none) (hroom : s.flowRoom (Pkt.dctx p) = true) : ∃ t, s.flowOpen p = t ∧
    t.tfl = tPut s.serial (TFlow.fresh p s.clk (s.rmaCtrlOf (Pkt.dctx p)))
      (tPut s.serial (TFlow.fresh p s.clk (s.rmaCtrlOf (Pkt.dctx p))) s.tfl) ∧
    t.rf (.flowPool (domOf (s.ctxDom (Pkt.dctx p)))) 63 40 = s.rf (.flowPool (domOf (s.ctxDom (Pkt.dctx p)))) 63 40 - 1 ∧
    t.inject = tMod [] (4 * s.ctxStall (Pkt.dctx p)) (· ++ [s.ackFor (TFlow.fresh p s.clk 0) 0]) s.inject ∧
    t = { s with tfl := t.tfl, inject := t.inject, regs := t.regs, serial := s.serial + 1 } := by
  have hA : (s.opened p).Alters ((s.opened p).flowTake (Pkt.dctx p)) [.regs] (fun a => ∃ d, a = (Reg.flowPool d).addr) := flowTake_alters ..
  have hP := rf_flowTake (s.opened p) (Pkt.dctx p)
  have hO := opened_alters s p
  have ht := flowTake_opened s p
  have hfa : ((s.opened p).flowTake (Pkt.dctx p)).ctxFa (Pkt.dctx p) = s.ctxFa (Pkt.dctx p) :=
    (ctxFa_of_alters hA (fun ⟨d, e⟩ => addr_ne_of_off 0x400 0x6008 rfl rfl (by decide) e) (by decide) _).trans
      (ctxFa_of_alters hO id (by decide) _)
  have hrf : (s.opened p).rf (.flowPool (domOf (s.ctxDom (Pkt.dctx p)))) 63 40 = s.rf (.flowPool (domOf (s.ctxDom (Pkt.dctx p)))) 63 40 :=
    hO.rf id _ _
  have hdom : (s.opened p).ctxDom (Pkt.dctx p) = s.ctxDom (Pkt.dctx p) := rfl
  rw [hdom, hrf] at hP
  have htfl : tFind ((s.opened p).flowTake (Pkt.dctx p)).tfl s.serial = some (TFlow.fresh p s.clk (s.rmaCtrlOf (Pkt.dctx p))) :=
    opened_tfl s p
  have hacc := flowOpen_new hnew hroom
  generalize (s.opened p).flowTake (Pkt.dctx p) = v at *
  have e := sendAck_frame htfl
  have hclk : v.clk = s.clk ∧ v.inject = s.inject ∧ v.ctxStall (Pkt.dctx p) = s.ctxStall (Pkt.dctx p) ∧
      v.tfl = tPut s.serial (TFlow.fresh p s.clk (s.rmaCtrlOf (Pkt.dctx p))) s.tfl := by rw [ht]; exact ⟨rfl, rfl, rfl, rfl⟩
  obtain ⟨c1, c2, c3, c4⟩ := hclk
  have hack : v.ackFor (TFlow.fresh p s.clk (s.rmaCtrlOf (Pkt.dctx p))) (min 0xFFFFFFFF ((v.clk -
      (TFlow.fresh p s.clk (s.rmaCtrlOf (Pkt.dctx p))).newestAt) / 16)) = s.ackFor (TFlow.fresh p s.clk 0) 0 := by
    rw [c1]
    have h0 : min 0xFFFFFFFF ((s.clk - (TFlow.fresh p s.clk (s.rmaCtrlOf (Pkt.dctx p))).newestAt) / 16) = 0 := by
      simp [TFlow.fresh]
    rw [h0]
    exact ackFor_congr hfa rfl
  have hst : (TFlow.fresh p s.clk (s.rmaCtrlOf (Pkt.dctx p))).dctx = Pkt.dctx p := rfl
  rw [hack, c2, c4, hst, c3] at e
  have hregs := (sendAck_alters v s.serial).rf (not_countAt_of_off (q := .flowPool (domOf (s.ctxDom (Pkt.dctx p)))) 0x6008 rfl) 63 40
  generalize v.sendAck s.serial = t at *
  refine ⟨t, hacc, by rw [e]; rfl, hregs.trans hP, by rw [e], ?_⟩
  rw [e, ht]

theorem packetReceive_opens {r : Reg} (ha : s.Arrives p x rest) (hp : Pkt.Sound p)
    (hk : (s.ctx? (Pkt.dctx p)).isSome = true ∧ s.domRuns (s.ctxDom (Pkt.dctx p)) = true)
    (ho : Pkt.opc p = 0x18 ∧ Pkt.tag p / 2 ^ 56 = 1 ∧ Pkt.malformed p = false)
    (hnew : s.findTfl p = none ∧ s.flowRoom (Pkt.dctx p) = true)
    (hf : f = s.serial ∧ r = .flowPool (domOf (s.ctxDom (Pkt.dctx p)))) :
    ∃ t, exec .packetReceive s = .next t ∧ tFind t.tfl f = some
    (TFlow.fresh p s.clk (s.reg (.rmaCtrl (domOf (s.ctxDom (Pkt.dctx p)))))) ∧ (tFind t.tfl f).map (fun y => (y.srcFa,
    y.sctx, y.dctx, y.start)) = some (Pkt.srcFa p, Pkt.sctx p, Pkt.dctx p, Pkt.psn p) ∧ (tFind t.tfl f).map (fun y =>
    (y.cum, y.nextMsn, y.deliv)) = some (Pkt.psn p, 0, []) ∧ (∀ g, g ≠ f → tFind t.tfl g = tFind s.tfl g) ∧ t.rf r 63
    40 = s.rf r 63 40 - 1 ∧ t.inject = tMod [] (4 * s.ctxStall (Pkt.dctx p)) (· ++ [s.ackFor (TFlow.fresh p s.clk 0)
    0]) s.inject ∧ t =
    { s with eject := rest, tfl := t.tfl, inject := t.inject, regs := t.regs, serial := s.serial + 1 } := by
  obtain ⟨rfl, rfl⟩ := hf
  obtain ⟨t, he, htfl, hpool, hinj, hframe⟩ := flowOpen_opens (s := { s with eject := rest }) hnew.1 hnew.2
  have hlook : tFind t.tfl s.serial = some (TFlow.fresh p s.clk (s.reg (.rmaCtrl (domOf (s.ctxDom (Pkt.dctx p)))))) := by
    rw [htfl]
    exact tFind_tPut_same ..
  have hA : State.Alters { s with eject := rest } t [.tfl, .inject, .regs, .serial] (fun _ => True) := by
    rw [hframe]
    exact answered_alters ..
  refine ⟨t, packetReceive_meets ha hp (by omega) ((meet_flowOpen (s := { s with eject := rest }) hk ho).trans he) hA, hlook, ?_, ?_,
    fun g hg => ?_, hpool, hinj, hframe⟩
  · rw [hlook]; rfl
  · rw [hlook]; rfl
  · rw [htfl, tFind_tPut_other _ _ _ _ hg, tFind_tPut_other _ _ _ _ hg]

/-- FLOW_OPEN of a flow that exists, with its start PSN, repeats the ACK. -/
theorem flowOpen_repeats (hf : s.findTfl p = some f) (ht : tFind s.tfl f = some tf) (hd : tf.dctx = Pkt.dctx p) (hpsn : Pkt.psn p = tf.start) :
    ∃ t, s.flowOpen p = t ∧ tFind t.tfl f = some
      { tf with newestPsn := Pkt.psn p, newestTsl := Pkt.tsl p, newestAt := s.clk, lastRx := s.clk, unacked := 0, firstUnacked := none } ∧
    t.inject = tMod [] (4 * s.ctxStall (Pkt.dctx p)) (· ++ [s.ackFor
      { tf with newestPsn := Pkt.psn p, newestTsl := Pkt.tsl p } 0]) s.inject ∧
    t = { s with tfl := t.tfl, inject := t.inject, regs := t.regs } := by
  have hacc := flowOpen_again hf ht hpsn
  have htfl : tFind (State.tfl { s with tfl := tPut f (tf.reopened p s.clk) s.tfl }) f = some (tf.reopened p s.clk) := tFind_tPut_same ..
  obtain ⟨v, hv⟩ : ∃ v : State, v = { s with tfl := tPut f (tf.reopened p s.clk) s.tfl } := ⟨_, rfl⟩
  rw [← hv] at hacc htfl
  have e := sendAck_frame htfl
  have hclk : v.clk = s.clk ∧ v.inject = s.inject ∧ v.ctxStall tf.dctx = s.ctxStall tf.dctx ∧ v.ctxFa tf.dctx = s.ctxFa tf.dctx := by
    rw [hv]; exact ⟨rfl, rfl, rfl, rfl⟩
  obtain ⟨c1, c2, c3, c4⟩ := hclk
  have hack : v.ackFor (tf.reopened p s.clk) (min 0xFFFFFFFF ((v.clk - (tf.reopened p s.clk).newestAt) / 16)) =
      s.ackFor { tf with newestPsn := Pkt.psn p, newestTsl := Pkt.tsl p } 0 := by
    rw [c1]
    have h0 : min 0xFFFFFFFF ((s.clk - (tf.reopened p s.clk).newestAt) / 16) = 0 := by simp [TFlow.reopened]
    rw [h0]
    exact ackFor_congr c4 rfl
  have hst : (tf.reopened p s.clk).dctx = tf.dctx := rfl
  generalize s.ackFor { tf with newestPsn := Pkt.psn p, newestTsl := Pkt.tsl p } 0 = q at hack ⊢
  rw [hack, c2, hst, c3, hd] at e
  generalize v.sendAck f = t at *
  refine ⟨t, hacc, ?_, congrArg State.inject e, ?_⟩
  · rw [congrArg State.tfl e]
    dsimp only
    rw [tFind_tPut_same, ← hd]
    rfl
  · rw [e, hv]

/-- FLOW_OPEN of a flow that exists, with another PSN, begins a new record. -/
theorem flowOpen_begins (hf : s.findTfl p = some f) (ht : tFind s.tfl f = some tf) (hpsn : Pkt.psn p ≠ tf.start) :
    s.Alters (s.flowOpen p) (.inject :: endTflFields) (fun _ => True) ∧ ∃ g now ctrl, tFind (s.flowOpen p).tfl g =
      some { TFlow.fresh p now ctrl with unacked := 0, firstUnacked := none } := by
  rw [flowOpen_other hf ht hpsn]
  have h1 := (endTfl_alters s f).mono (G := .inject :: endTflFields) (Q := fun _ => True) (by decide) fun _ _ => trivial
  generalize s.endTfl f = u at *
  have htfl := opened_tfl u p
  have h2 := (opened_alters u p).mono (G := .inject :: endTflFields) (Q := fun _ => True) (by decide) fun _ _ => trivial
  have h3 := (sendAck_alters (u.opened p) u.serial).mono (G := .inject :: endTflFields) (Q := fun _ => True) (by decide) fun _ _ => trivial
  refine ⟨(h1.trans h2).trans h3, u.serial, u.clk, u.rmaCtrlOf (Pkt.dctx p), ?_⟩
  rw [sendAck_frame htfl]
  exact tFind_tPut_same ..

theorem packetReceive_reopens (ha : s.Arrives p x rest) (hp : Pkt.Sound p)
    (hk : (s.ctx? (Pkt.dctx p)).isSome = true ∧ s.domRuns (s.ctxDom (Pkt.dctx p)) = true ∧ s.Knows p f tf)
    (ho : Pkt.opc p = 0x18 ∧ Pkt.tag p / 2 ^ 56 = 1 ∧ Pkt.malformed p = false) :
    ∃ t, exec .packetReceive s = .next t ∧ (Pkt.psn p =
    tf.start → tFind t.tfl f = some
    { tf with newestPsn := Pkt.psn p, newestTsl := Pkt.tsl p, newestAt := s.clk, lastRx := s.clk, unacked := 0, firstUnacked := none })
    ∧ (Pkt.psn p = tf.start → t.inject = tMod [] (4 * s.ctxStall (Pkt.dctx p)) (· ++ [s.ackFor
    { tf with newestPsn := Pkt.psn p, newestTsl := Pkt.tsl p } 0]) s.inject) ∧ (Pkt.psn p = tf.start → t =
    { s with eject := rest, tfl := t.tfl, inject := t.inject, regs := t.regs }) ∧ (Pkt.psn p ≠ tf.start → ∃ g, (tFind
    t.tfl g).map (fun y => (y.srcFa, y.sctx, y.dctx, y.start, y.cum, y.nextMsn, y.deliv, y.held, y.sends, y.prog)) =
    some (Pkt.srcFa p, Pkt.sctx p, Pkt.dctx p, Pkt.psn p, Pkt.psn p, 0, [], none, [], [])) := by
  obtain ⟨hc, hr, hf, ht, -, -, hd⟩ := hk
  have hmeet := meet_flowOpen (s := { s with eject := rest }) ⟨hc, hr⟩ ho
  by_cases hpsn : Pkt.psn p = tf.start
  · obtain ⟨t, he, htfl, hinj, hframe⟩ := flowOpen_repeats (s := { s with eject := rest }) hf ht hd hpsn
    have hA : State.Alters { s with eject := rest } t [.tfl, .inject, .regs, .serial] (fun _ => True) := by
      rw [hframe]
      exact answered_alters _ _ _ _ s.serial
    exact ⟨t, packetReceive_meets ha hp (by omega) (hmeet.trans he) hA, fun _ => htfl, fun _ => hinj, fun _ => hframe,
      fun h => absurd hpsn h⟩
  · obtain ⟨hA, g, now, ctrl, hg⟩ := flowOpen_begins (s := { s with eject := rest }) hf ht hpsn
    refine ⟨_, packetReceive_meets ha hp (by omega) hmeet hA, fun h => absurd h hpsn, fun h => absurd h hpsn, fun h => absurd h hpsn,
      fun _ => ⟨g, ?_⟩⟩
    rw [hg]
    rfl

end

/-- Settles O50. -/
theorem endpointsTakeOrRefuseAPacket : Obligations.EndpointsTakeOrRefuseAPacket := by
  unfold Obligations.EndpointsTakeOrRefuseAPacket
  refine ⟨fun s p x rest st => packetReceive_damaged, fun s p x rest d => packetReceive_fenced, fun s p x rest => packetReceive_answer,
    fun s p x rest => packetReceive_foreign, fun s p x rest f tf ha hp hk ho hm => ?_, fun s p x rest ha hq hnew => ?_,
    fun s p x rest f r => packetReceive_opens, fun s p x rest f tf => packetReceive_reopens, fun s p x rest ha hp hk ho hnew => ?_,
    fun s h => ?_⟩
  · obtain ⟨hc, hr, hf, ht, -⟩ := hk
    refine packetReceive_refused (tf := some tf) ha hp hc ho (by decide) ?_
    have hmeet := meet_request_known (s := { s with eject := rest }) hr ho hc
    rw [if_pos hm] at hmeet
    rw [(flowOf_of_some (s := { s with eject := rest }) hf).trans ht] at hmeet
    exact hmeet
  · obtain ⟨hp, hc, hr, ho, hm, hn⟩ := hq
    refine packetReceive_refused (tf := none) ha hp hc ho (by decide) ?_
    have hmeet := meet_request_known (s := { s with eject := rest }) hr ho hc
    rw [if_neg (by rw [hm]; decide), if_neg (by omega), show State.findTfl { s with eject := rest } p = none from hnew] at hmeet
    exact hmeet
  · refine packetReceive_refused (tf := none) ha hp hk.1 (.inr (.inr (.inr (.inr ho.1)))) (by decide) ?_
    exact (meet_flowOpen (s := { s with eject := rest }) hk ho).trans (flowOpen_full (s := { s with eject := rest }) hnew.1 hnew.2)
  · have e : doPacketReceive s = s := by rw [doPacketReceive, h.2]
    have hfin : (if s.live (.domain 0) = true then (doPacketReceive s).fin else s) = s := by
      rw [e, fin_of_calm s h.1.1 h.1.2, ite_self]
    exact congrArg Host.Outcome.next hfin

end Sys2Proof.Machine
end

section
/-! PROOFS. What the statements about end-to-end delivery leave open: sixteen cached results of atomics (R262, R272), and a
command that awaits its peer's finish on a flow that ends (R252). -/

namespace Sys2Proof.Machine

-- The proofs are elaborated one after another: in parallel their threads' stacks need more memory than a compile may have.
set_option Elab.async false

/-! ### The CRC of a packet in steps that the kernel can follow -/

/-- The CRC register at `x` stands at the values `ys` after each 16 of the bytes. -/
def crcPasses (x : BitVec 32) (bs : List Byte) : List (BitVec 32) → Bool
  | [] => bs.isEmpty
  | y :: ys => (bs.take 16).foldl crc32cByte x == y && crcPasses y (bs.drop 16) ys

theorem foldl_of_crcPasses {ys : List (BitVec 32)} : ∀ {x : BitVec 32} {bs : List Byte}, crcPasses x bs ys = true →
    bs.foldl crc32cByte x = ys.getLastD x := by
  induction ys with
  | nil =>
    intro x bs h
    rw [List.isEmpty_iff.mp h]
    rfl
  | cons y ys ih =>
    intro x bs h
    obtain ⟨hy, hys⟩ := Bool.and_eq_true_iff.mp h
    calc bs.foldl crc32cByte x = (bs.drop 16).foldl crc32cByte ((bs.take 16).foldl crc32cByte x) := by
          rw [← List.foldl_append, List.take_append_drop]
      _ = (y :: ys).getLastD x := by rw [beq_iff_eq.mp hy, ih hys, List.getLastD_cons]

theorem sound_of_crcPasses {f : Flit} {fs : Pkt} (ys : List (BitVec 32)) (hp : Pkt.poisoned (f :: fs) = false)
    (h : crcPasses 0xFFFFFFFF (flitBytes (ecrcView f.bits) ++ fs.flatMap (fun g => flitBytes g.bits)) ys = true)
    (he : (~~~ ys.getLastD 0xFFFFFFFF).toNat = Pkt.ecrc (f :: fs)) : Pkt.Sound (f :: fs) := by
  refine ⟨hp, ?_⟩
  rw [← he, ← foldl_of_crcPasses h]
  rfl

/-- An ATOMIC_REQ of PSN 77: an 8-byte add at 0x8010 under key 0x101, from context 5 of chip 0x12 to context 9. -/
def atomReq : Pkt :=
  [⟨0x123444020800000000001f87040000014000090000004d000000000000000000000000000000000000330000010100000000000080100000491b8e98, false⟩,
   ⟨0x50000000000000000000000000000000000000000000000000000000000000000000000000000000000000000000000000000000000000000, false⟩]

theorem atomReq_sound : Pkt.Sound atomReq :=
  sound_of_crcPasses [0xc723fe95, 0x1751e9d2, 0x9ece6969, 0x822148bd, 0x30b9067c, 0xefe339e2, 0x50567fc8, 0xb6e47167]
    rfl (by decide +kernel) (by decide +kernel)

/-! ### An atomic that finds sixteen results cached -/

/-- Context 9 with translation on (word 5) and a table of sixteen keys at the start of HBM (word 14). -/
def keyedCtx : Ctx :=
  { words := (List.range 32).map fun i => if i = 5 then 1 else if i = 14 then BitVec.ofNat 64 (hbmBase + 4) else 0 }

/-- The page of the atomic's location, cached with all permissions. -/
def atomPage : XlEntry :=
  { kind := 0, vmid := 0, asid := 0, level := 3, e := 0, va := 0x8000, ipa := 0x8000, log2 := 12, out := hbmBase + 0x3000, hbm := true,
    rd := true, wr := true, acc := true, dirty := true }

/-- The atomic's flow, on which PSN 76 is the last delivered, with sixteen results that the initiator still awaits (R262). -/
def fullFlow : TFlow :=
  { TFlow.fresh atomReq 0 0 with cum := 76, atoms := List.replicate 16 (76, 0, 0) }

/-- The part with the atomic at its endpoint; key 0x101, of 0x1000 bytes at 0x8000, allows all accesses. -/
def fullState : State :=
  { State.reset with
    coreOn := true, pins := { resetL := true }, ctxs := [(9, keyedCtx)], ctxEast := 100, shares := [(10, (0, 1))],
    xl := [(0, [atomPage])], tfl := [(30, fullFlow)], eject := [⟨atomReq, none⟩], serial := 50,
    hbm := memWrite [] 32 (leBytes 8 (mkWord 64 [(63, 63, 1), (62, 60, 7), (55, 48, 1), (47, 36, 0xFFF)]).toNat ++
      leBytes 8 0x8000 ++ leBytes 8 0x1000) }

theorem fullState_meets : (fullState.Arrives atomReq none [] ∧ fullState.Knows atomReq 30 fullFlow) ∧
    ((fullState.ctx? (Pkt.dctx atomReq)).isSome = true ∧ fullState.domRuns (fullState.ctxDom (Pkt.dctx atomReq)) = true ∧
      (Pkt.opc atomReq = 1 ∨ Pkt.opc atomReq = 2 ∨ Pkt.opc atomReq = 4 ∨ Pkt.opc atomReq = 6 ∨ Pkt.opc atomReq = 0x18) ∧
      Pkt.malformed atomReq = false ∧ (Pkt.opc atomReq ≠ 0x18 ∨ Pkt.tag atomReq / 2 ^ 56 ≠ 1)) ∧ fullState.Next atomReq fullFlow ∧
    (Pkt.opc atomReq = 4 ∧ atomBad (Pkt.tag atomReq) = false ∧ 8 = atomSize (Pkt.tag atomReq / 16 % 8) ∧ Pkt.addr atomReq % 8 = 0) ∧
    fullState.keyCheck fullFlow.dctx (Pkt.key atomReq) (Pkt.addr atomReq) 8 (if Pkt.tag atomReq % 16 = 0 then 62 else 60) = 0 ∧
    (fullState.Hits (fullState.ctxStall fullFlow.dctx) fullFlow.dctx (Pkt.addr atomReq) 2 atomPage ∧ atomPage.hbm = true) := by
  decide +kernel

/-- What the atomic makes of the part. -/
def fullMet : State := State.meet { fullState with eject := [] } atomReq

theorem fullMet_is : (fullMet.todo = [] ∧ fullMet.tack.coat = none) ∧ (tFind fullMet.tfl 30).map (fun y => y.cum) = some 76 := by
  decide +kernel

/-- The atomic is put off: its PSN is not delivered. -/
theorem fullState_receives (ha : fullState.Arrives atomReq none []) : exec .packetReceive fullState = .next fullMet := by
  obtain ⟨-, hl, he⟩ := ha
  have e : doPacketReceive fullState = fullMet :=
    (doPacketReceive_eq he).trans (receive_of_sound atomReq_sound (by decide +kernel))
  obtain ⟨⟨htd, htc⟩, -⟩ := fullMet_is
  rw [← e] at htd htc
  exact (act_of_calm _ _ _ hl htd htc).trans (congrArg _ e)

/-- Refutes O51: an atomic of the next PSN is put off while the cache of sixteen results is full (R262, R272). -/
theorem not_targetsApplyEachPacketOnce : ¬ Obligations.TargetsApplyEachPacketOnce := by
  intro h
  obtain ⟨-, -, -, -, -, -, -, -, hatom, -⟩ := h
  obtain ⟨harr, hreq, hnext, hop, hkey, hhit, hhbm⟩ := fullState_meets
  obtain ⟨t, he, -, htfl, -⟩ := hatom fullState atomReq none [] 30 8 _ _ fullFlow atomPage harr ⟨atomReq_sound, hreq⟩ hnext hop hkey
    ⟨hhit, hhbm, rfl⟩ rfl
  obtain rfl : fullMet = t := Host.Outcome.next.inj ((fullState_receives harr.1).symm.trans he)
  have hpsn := congrArg (Option.map fun y => y.1) htfl
  rw [Option.map_map, Option.map_some] at hpsn
  exact absurd (fullMet_is.2.symm.trans hpsn) (by decide +kernel)

end Sys2Proof.Machine
end

section
/-! PROOFS. Flows that send and end: the payload of a GET that holds data (R266), and a rendezvous SEND that awaits the finish of
a peer whose flow ends (R252, R281). -/

namespace Sys2Proof.Machine

-- The proofs are elaborated one after another: in parallel their threads' stacks need more memory than a compile may have.
set_option Elab.async false

/-! ### A GET that holds data -/

/-- A GET of 3 bytes, which holds a byte of data. -/
def dataGet : SendItem := { SendItem.blank 2 0 false with op := some 20, mlen := 3, data := some [1] }

/-- Its established flow, on which nothing is outstanding. -/
def dataFlow : IFlow :=
  { ctx := 9, peerFa := 0x1234, peerCtx := 5, start := 3, next := 3, nextMsn := 0, est := true, opened := true, ctrl := 0, cwnd := 65536,
    baseRtt := none, lastDec := none, outst := [], queue := [dataGet], lastUse := 0 }

/-- The part with that flow and the GET's command. -/
def dataState : State :=
  { State.reset with
    coreOn := true, pins := { resetL := true }, ctxs := [(9, armingCtx)], ops := [(20, joinedOp)], ifl := [(30, dataFlow)], serial := 50 }

theorem dataState_meets : (dataState.Calm ∧ dataState.live (.domain 0) = true) ∧
    (tFind dataState.ifl 30 = some dataFlow ∧ dataState.domRuns (dataState.ctxDom dataFlow.ctx) = true) ∧
    (dataFlow.queue = dataGet :: [] ∧ dataFlow.opened = true ∧ dataFlow.est = true ∧ dataFlow.outst = []) ∧
    (dataGet.opc = 2 ∧ 3 = min 65536 (dataGet.mlen - dataGet.moff) ∧ 3 < dataFlow.cwnd) ∧
    (dataGet.op = some 20 ∧ tFind dataState.ops 20 = some joinedOp ∧ joinedOp.aux = 0) := by decide +kernel

/-- The packet sent has a payload flit. -/
theorem dataState_sends : (match exec (.packetInject 30) dataState with
    | .next t => (tFind t.ifl 30).map fun y => y.outst.map fun o => o.pkt.length
    | _ => none) = some [2] := by decide +kernel

/-- Refutes O52: a GET_REQ carries the data that its item holds. -/
theorem not_flowsOpenAndSend : ¬ Obligations.FlowsOpenAndSend := by
  intro h
  obtain ⟨-, -, hget, -⟩ := h
  obtain ⟨hlive, hflow, hqueue, hitem, hop⟩ := dataState_meets
  obtain ⟨t, he, -, -, hout, -⟩ := hget dataState 30 20 3 dataFlow dataGet [] joinedOp _ hlive hflow hqueue hitem hop rfl
  have hlen := dataState_sends
  rw [he] at hlen
  have hone := congrArg (Option.map (List.map fun o : Outst => o.pkt.length)) hout
  rw [Option.map_map, Option.map_some] at hone
  exact absurd (hlen.symm.trans hone) (by decide +kernel)

/-! ### A finish awaited from the peer of a flow that ends -/

/-- A PUT whose only packet, of PSN 12, is outstanding. -/
def sentPut : Op := { joinedOp with words := [mkWord 64 [(58, 51, 1)], mkWord 64 [(27, 16, 0xFFF)]] }

/-- A rendezvous SEND in slot 1 of the same queue that awaits its finish from the PUT's peer. -/
def finishSend : Op :=
  { joinedOp with count := 1, words := [mkWord 64 [(58, 51, 5)], mkWord 64 [(27, 16, 0xFFF)]], aux := 1, peer := some (0x1234, 5, 0) }

/-- The PUT's packet. -/
def sentOut : Outst := { Outst.blank 12 1 with op := some 20 }

/-- The flow to the peer. -/
def endingFlow : IFlow := { dataFlow with outst := [sentOut], queue := [] }

/-- A NACK of PSN 12 from the peer, with FLOW_UNKNOWN. -/
def unknownNack : Pkt :=
  [⟨mkWord 512 [(487, 464, 0x1234), (383, 376, 9), (371, 350, 5), (349, 328, 9), (327, 296, 12), (143, 136, 0x10)], false⟩]

/-- The context of both, whose event queue does not exist. -/
def eventlessCtx : Ctx := { armingCtx with words := modAt armingCtx.words 2 fun w => setBit w 61 true }

/-- Their queue. -/
def bothCq : Cq := { armingCq with open_ := [(0, 1, false), (1, 1, false)], next := 2, pi := 2 }

/-- The part one count after 0 with that flow, both commands and the NACK. -/
def endingState : State :=
  let s : State :=
    { State.reset with
      coreOn := true, pins := { resetL := true }, clk := 1, cqs := [(7, bothCq)],
      ctxs := [(9, eventlessCtx)], ops := [(20, sentPut), (21, finishSend)], ifl := [(30, endingFlow)], toInit := [unknownNack], serial := 50 }
  s.wf (.llStatus (.host 1)) 3 0 3

theorem endingState_answers : endingState.Answers 9 unknownNack [] [] 30 endingFlow ∧
    (endingFlow.outst = [sentOut] ∧ endingFlow.queue = [] ∧ sentOut.op = some 20 ∧ sentOut.me = none ∧ endingFlow.est = true) ∧
    (Pkt.psn unknownNack = sentOut.psn ∧ 0x10 = Pkt.key unknownNack / 2 ^ 24) ∧
    (endingState.Plain 20 sentPut bothCq ∧ sentPut.performed = true ∧ sentPut.left = 0 ∧ sentPut.aux = 0 ∧ sentPut.status = 0 ∧
      sentPut.result = 0 ∧ cmdCt sentPut.words = 0xFFF ∧ hdrOp (sentPut.w 0) = 1) := by decide +kernel

/-- Both commands complete. -/
theorem endingState_nack : (match exec .nackReceive endingState with
    | .next t => (t.tl bothCq.link).reqQ.length
    | _ => 0) = 2 := by decide +kernel

/-- Refutes O53: with FLOW_UNKNOWN a rendezvous SEND that awaits the peer's finish completes too, in the same ring. -/
theorem not_answersResolveWhatWasSent : ¬ Obligations.AnswersResolveWhatWasSent := by
  intro h
  obtain ⟨-, -, -, -, hnack, -⟩ := h
  obtain ⟨hans, hout, hpsn, hplain⟩ := endingState_answers
  obtain ⟨t, he, -, -, -, -, hreq, -⟩ := hnack endingState 30 20 0x10 endingFlow unknownNack [] [] sentOut sentPut bothCq hans hout hpsn
    (.inr rfl) hplain
  have hlen := endingState_nack
  rw [he] at hlen
  exact absurd (hlen.symm.trans (congrArg List.length hreq)) (by decide +kernel)

theorem endingState_late : ((endingState.elapse 0).Calm ∧ (endingState.elapse 0).live (.domain 0) = true) ∧
    ((endingState.elapse 0).ifl = [(30, endingFlow)] ∧ (endingState.elapse 0).domRuns ((endingState.elapse 0).ctxDom endingFlow.ctx) = true) ∧
    (endingFlow.outst = [sentOut] ∧ endingFlow.queue = [] ∧ sentOut.psn = (12 : BitVec 32).toNat ∧ sentOut.op = some 20 ∧ sentOut.me = none) ∧
    (1 ≤ sentOut.sends ∧ fld endingFlow.ctrl 63 60 < sentOut.sends) ∧
    sentOut.lastTx + 16000 * min (fld endingFlow.ctrl 27 18 * 2 ^ (sentOut.sends - 1)) 1000 < (endingState.elapse 0).clk ∧
    ((endingState.elapse 0).Plain 20 sentPut bothCq ∧ sentPut.performed = true ∧ sentPut.result = 0 ∧ cmdCt sentPut.words = 0xFFF ∧
      hdrOp (sentPut.w 0) = 1) ∧
    (fld ((endingState.elapse 0).ctxWord endingFlow.ctx 2) 61 61 = 1 ∧
      tFind (endingState.elapse 0).eqs (fld ((endingState.elapse 0).ctxWord endingFlow.ctx 2) 52 35) = none) := by decide +kernel

theorem endingState_rto : (match exec (.rtoExpiry 30 12 0) endingState with
    | .next t => (t.tl bothCq.link).reqQ.length
    | _ => 0) = 2 := by decide +kernel

/-- Refutes O54: where a flow fails, a rendezvous SEND that awaits the peer's finish completes too, in the same ring. -/
theorem not_unansweredPacketsAreSentAgain : ¬ Obligations.UnansweredPacketsAreSentAgain := by
  intro h
  obtain ⟨-, -, hfail, -⟩ := h
  obtain ⟨hlive, hflow, hout, hlimit, hlate, hplain, heq⟩ := endingState_late
  obtain ⟨t, he, -, -, hreq, -⟩ := hfail endingState _ 0 30 20 12 endingFlow sentOut sentPut bothCq rfl hlive hflow hout hlimit hlate hplain heq
  have hlen := endingState_rto
  rw [he] at hlen
  exact absurd (hlen.symm.trans (congrArg List.length hreq)) (by decide +kernel)

end Sys2Proof.Machine
end

section
/-! PROOFS. A read of a register that the register file lists at its reset value (R8). -/

namespace Sys2Proof.Machine

-- The proofs are elaborated one after another: in parallel their threads' stacks need more memory than a compile may have.
set_option Elab.async false

/-- The part whose register file lists EG_WEIGHT of port 0 at its reset value. -/
def listedState : State :=
  { State.reset with coreOn := true, pins := { resetL := true }, regs := [((Reg.egWeight 0).addr, (Reg.egWeight 0).reset)] }

theorem listedState_meets : listedState.Calm ∧
    listedState.Reaches (.steward 0) (BitVec.ofNat 64 (Reg.egWeight 0).addr) (.egWeight 0) ∧
    listedState.Prompt (.steward 0) (BitVec.ofNat 64 (Reg.egWeight 0).addr).toNat ∧ listedState.captures = [] := by decide +kernel

/-- The read leaves it listed no more. -/
theorem listedState_regs : (match exec (.rcRead (.steward 0) (BitVec.ofNat 64 (Reg.egWeight 0).addr)) listedState with
    | .next t => t.regs.length
    | _ => 1) = 0 := by decide +kernel

/-- Refutes O60: a read changes the register file where it lists a register at its reset value. -/
theorem not_registerAccessesTakeEffect : ¬ Obligations.RegisterAccessesTakeEffect := by
  intro h
  obtain ⟨-, -, -, -, -, -, -, -, -, hread, -⟩ := h
  obtain ⟨hcalm, hreach, hprompt, hcap⟩ := listedState_meets
  have he := hread listedState (.steward 0) _ 0 hcalm hreach hprompt hcap
  have hlen := listedState_regs
  rw [he] at hlen
  exact absurd hlen (by decide)

end Sys2Proof.Machine
end

section
/-! PROOFS. What the mailbox's statements leave open: a Steward's earlier store, which a claim waits for (R362), and a topcoat that
a thermal cap strikes (R425). -/

namespace Sys2Proof.Machine

-- The proofs are elaborated one after another: in parallel their threads' stacks need more memory than a compile may have.
set_option Elab.async false

/-! ### A claim after a store -/

theorem writingState_claims : writingState.Calm ∧ (writingState.agentLive (.steward 0) = true ∧
    writingState.masterMay (.steward 0) 0x101000 = true ∧ writingState.live .global = true) ∧ writingState.mbox.holder = none := by
  decide +kernel

/-- The store is performed before the claim's read. -/
theorem writingState_claimed : (match exec (.mbClaimRead (.steward 0)) writingState with
    | .next t => t.hbmByte hbmBase
    | _ => 0) = 5 := by decide +kernel

/-- Refutes O55: a claim by a Steward that has an earlier store in flight changes HBM, where that store is performed first. -/
theorem not_mailboxIsClaimedAndAnswers : ¬ Obligations.MailboxIsClaimedAndAnswers := by
  intro h
  obtain ⟨hclaim, -⟩ := h
  obtain ⟨hcalm, ⟨hagent, hmay, hlive⟩, hfree⟩ := writingState_claims
  have he := hclaim writingState (.steward 0) hcalm ⟨hagent, by decide, hmay, hlive⟩ hfree
  have hbyte := writingState_claimed
  rw [he] at hbyte
  exact absurd hbyte (by decide +kernel)

/-! ### A throttle that caps while a topcoat drains -/

/-- A command that sets the throttle temperature to 85 degrees. -/
def throttleCmd : MbCmd := { code := 0x32, args := [85], buf := [], quiet := false }

/-- A topcoat that drains and that any fault of TACK refuses. -/
def tackJob : CoatJob := { scope := 0, unit := 0, secs := [], serial := 0, hash := 0, since := 0, was := false, blocks := [(blockBase .tack, none)], hit := false }

/-- The part with that command in progress and that topcoat, at 90 degrees in East. -/
def drainingState : State :=
  let s : State :=
    { State.reset with
      coreOn := true, pins := { resetL := true }, mbox := { holder := some (.steward 0), run := some throttleCmd },
      tack := { coat := some tackJob } }
  ((s.setMode 1).wf .tkTherm 63 56 90).wf .coStatus 63 61 2

theorem drainingState_meets : drainingState.Commanded 0x32 throttleCmd ∧ (drainingState.mode = 1 ∨ drainingState.mode = 2) := by decide +kernel

/-- The cap begins, and the topcoat will be refused. -/
theorem drainingState_hit : (match exec .setThrottle drainingState with
    | .next t => t.tack.coat.map fun j => j.hit
    | _ => none) = some true := by decide +kernel

/-- Refutes O56: a throttle below the temperature begins a DEGRADE of TACK, which the topcoat that drains keeps. -/
theorem not_mailboxControlsPowerAndDomains : ¬ Obligations.MailboxControlsPowerAndDomains := by
  intro h
  obtain ⟨-, -, hset, -⟩ := h
  obtain ⟨hcmd, hmode⟩ := drainingState_meets
  obtain ⟨t, he, -, -, -, -, hcoat⟩ := hset drainingState throttleCmd hcmd hmode
  have hhit := drainingState_hit
  rw [he] at hhit
  dsimp only at hhit
  rw [hcoat] at hhit
  exact absurd hhit (by decide +kernel)

end Sys2Proof.Machine
end

section
/-! PROOFS. The SMBus interface (R444) and what it reports (R435, R437). -/

namespace Sys2Proof.Machine

-- The proofs are elaborated one after another: in parallel their threads' stacks need more memory than a compile may have.
set_option Elab.async false

section
variable {s : State} {b : BitVec 7}

/-! ### Bytes -/

theorem leBytes_zero (n : Nat) : leBytes n 0 = List.replicate n 0 := by
  induction n with
  | zero => rfl
  | succ n ih => rw [leBytes, Nat.zero_div, ih]; rfl

theorem beBytes_zero (n : Nat) : beBytes n 0 = List.replicate n 0 := by
  rw [beBytes, leBytes_zero, List.reverse_replicate]

theorem leBytes_add (m n v : Nat) : leBytes (m + n) v = leBytes m v ++ leBytes n (v / 256 ^ m) := by
  induction m generalizing v with
  | zero => rw [Nat.zero_add, Nat.pow_zero, Nat.div_one]; rfl
  | succ m ih =>
    rw [Nat.succ_add, leBytes, ih, leBytes, Nat.div_div_eq_div_mul, ← Nat.pow_succ', List.cons_append]

/-- The bytes of a number put together from two words. -/
theorem beBytes_words (hi lo : Nat) (h : lo < 2 ^ 64) : beBytes 16 (hi * 2 ^ 64 + lo) = beBytes 8 hi ++ beBytes 8 lo := by
  have hlo : (hi * 2 ^ 64 + lo) % 2 ^ (8 * 8) = lo := by omega
  have hhi : (hi * 2 ^ 64 + lo) / 256 ^ 8 = hi := by omega
  rw [beBytes, leBytes_add 8 8, hhi, ← leBytes_mod 8, hlo, List.reverse_append]
  rfl

/-! ### Reports -/

/-- A measured supply fits its field, and is at least the level below which one that stands counts as lost. -/
theorem supply_lt (there : Bool) (v : BitVec 16) : supply there v < 65536 ∧ (there = true → 1080 ≤ supply there v) := by
  have hv := v.isLt
  cases there
  · exact ⟨hv, fun h => nomatch h⟩
  · refine ⟨?_, fun _ => Nat.le_add_right _ _⟩
    rw [supply, if_pos rfl]
    omega

theorem statusBytes_eq (s : State) : ∃ v w : BitVec 16, s.statusBytes =
    (s.status16 (supply (s.pins.mainEn && s.pins.mainPg) v) (supply s.pins.vinAux w), { s with frees := s.frees + 2 }) := ⟨_, _, rfl⟩

theorem reportBody_eq {nonce : List Byte} (h : nonce.length = 64) : s.reportBody nonce = s.report380 nonce := by
  have hdig : beBytes 16 (if s.tack.underHash = 0 then 0 else s.chipDigest) = if s.tack.underHash = 0 then List.replicate 16 0 else
      beBytes 8 (s.reg .coDigestHi).toNat ++ beBytes 8 (s.reg .coDigestLo).toNat := by
    split
    · exact beBytes_zero 16
    · exact beBytes_words _ _ (BitVec.isLt _)
  unfold State.reportBody State.report380
  dsimp only
  rw [hdig, List.take_of_length_le h.le, leBytes_zero 64]
  rfl

theorem report_eq (s : State) {nonce : List Byte} (h : nonce.length = 64) : ∃ x y : Nat,
    s.report nonce = (s.report380 nonce ++ (beBytes 66 x ++ beBytes 66 y), { s with draws := s.draws + 2 }) := by
  have e : ∃ x y : Nat, s.report nonce = (s.reportBody nonce ++ beBytes 66 x ++ beBytes 66 y, { s with draws := s.draws + 2 }) := ⟨_, _, rfl⟩
  obtain ⟨x, y, e⟩ := e
  exact ⟨x, y, by rw [e, reportBody_eq h, List.append_assoc]⟩

theorem identityBlock_eq (s : State) : s.identityBlock = s.identity272 := rfl

/-- A block of 128 bytes that the specification leaves open. -/
theorem freeBlock_eq (s : State) : s.freeBlock = (leBytes 128 (Config.freeValue s.frees % 2 ^ 1024), { s with frees := s.frees + 1 }) := by
  unfold State.freeBlock State.free
  dsimp only
  rw [BitVec.toNat_ofNat]

/-! ### Transactions -/

theorem smbMine_of (h : s.tack.up = true ∧ b = s.smbAddr) : s.smbMine b = true := by
  rw [State.smbMine, h.1, h.2, Bool.true_and]
  exact decide_eq_true rfl

theorem smbMine_eq_false (h : s.tack.up = false ∨ b ≠ s.smbAddr) : s.smbMine b = false := by
  rw [State.smbMine, Bool.and_eq_false_iff, decide_eq_false_iff_not]
  exact h

/-- A transaction that the part answers. -/
theorem smb_answered {f : State → State} {t : State} (h : s.tack.up = true ∧ b = s.smbAddr) (ht : s.smbMine b = true → f s = t) :
    s.quiet .tack f = .next t :=
  (quiet_of_live s .tack f h.1).trans (congrArg _ (ht (smbMine_of h)))

/-- One that changes nothing, whether or not the Tack Room is ready. -/
theorem quiet_of_unchanged {f : State → State} (k : Block) (h : f s = s) : s.quiet k f = .next s := by
  unfold State.quiet
  split
  · rw [h]
  · rfl

theorem smbStatus_answers (h : s.tack.up = true ∧ b = s.smbAddr) : ∃ t, exec (.smbStatus b) s = .next t ∧ (∃ vm va :
    Nat, vm < 65536 ∧ va < 65536 ∧ (s.pins.mainEn = true → s.pins.mainPg = true → 1080 ≤ vm) ∧ (s.pins.vinAux = true →
    1080 ≤ va) ∧ t = { s with frees := s.frees + 2, out := .smbus (s.status16 vm va) :: s.out }) := by
  obtain ⟨v, w, e⟩ := statusBytes_eq s
  obtain ⟨hm, hmain⟩ := supply_lt (s.pins.mainEn && s.pins.mainPg) v
  obtain ⟨ha, haux⟩ := supply_lt s.pins.vinAux w
  refine ⟨_, smb_answered h fun hmine => ?_, _, _, hm, ha, fun h1 h2 => hmain (by rw [h1, h2]; rfl), haux, rfl⟩
  unfold doSmbStatus
  rw [if_pos hmine, e]
  rfl

theorem smbAttest_reports {nonce : List Byte} (h : s.tack.up = true ∧ b = s.smbAddr) (hn : nonce.length = 64) : ∃ t,
    exec (.smbAttest b nonce) s = .next t ∧ (∃ sig : List Byte, sig.length = 132 ∧ t.tack =
    { s.tack with smbReport := some (s.report380 nonce ++ sig) }) ∧ t = { s with draws := s.draws + 2, tack := t.tack } := by
  obtain ⟨x, y, e⟩ := report_eq s hn
  refine ⟨{ s with draws := s.draws + 2, tack := { s.tack with smbReport := some (s.report380 nonce ++ (beBytes 66 x ++ beBytes 66 y)) } },
    smb_answered h fun hmine => ?_, ⟨beBytes 66 x ++ beBytes 66 y, by simp, rfl⟩, rfl⟩
  unfold doSmbAttest
  rw [if_pos (by rw [hmine, hn]; rfl), e]
  rfl

theorem smbPart_selects (n : BitVec 8) (h : s.tack.up = true ∧ b = s.smbAddr) : ∃ t, exec (.smbPart b n) s = .next t
    ∧ (n.toNat ≤ 3 → t = { s with tack := { s.tack with smbPart := n.toNat } }) ∧ (3 < n.toNat → t = s) := by
  by_cases hn : n.toNat ≤ 3
  · refine ⟨_, smb_answered h fun hmine => ?_, fun _ => rfl, fun h => absurd hn (by omega)⟩
    unfold doSmbPart
    rw [if_pos (by rw [hmine, decide_eq_true hn]; rfl)]
    rfl
  · refine ⟨s, smb_answered h fun hmine => ?_, fun h => absurd h hn, fun _ => rfl⟩
    unfold doSmbPart
    rw [if_neg (by simp [hn])]

theorem smbIdentity_answers (h : s.tack.up = true ∧ b = s.smbAddr) : ∃ t, exec (.smbIdentity b) s = .next t ∧
    (s.tack.smbPart ≤ 2 → t =
    { s with out := .smbus (((s.identity272 ++ List.replicate 112 0).drop (128 * s.tack.smbPart)).take 128) :: s.out })
    ∧ (2 < s.tack.smbPart → t =
    { s with frees := s.frees + 1, out := .smbus (leBytes 128 (Config.freeValue s.frees % 2 ^ 1024)) :: s.out }) := by
  by_cases hp : s.tack.smbPart ≤ 2
  · refine ⟨_, smb_answered h fun hmine => ?_, fun _ => rfl, fun h => absurd hp (by omega)⟩
    unfold doSmbIdentity
    rw [hmine, if_neg (by decide), if_pos hp, identityBlock_eq]
    rfl
  · refine ⟨_, smb_answered h fun hmine => ?_, fun h => absurd h hp, fun _ => rfl⟩
    unfold doSmbIdentity
    rw [hmine, if_neg (by decide), if_neg hp, freeBlock_eq]
    rfl

theorem smbReport_answers {r : List Byte} (h : s.tack.up = true ∧ b = s.smbAddr) (hr : s.tack.smbReport = some r) : exec
    (.smbReport b) s = .next { s with out := .smbus ((r.drop (128 * s.tack.smbPart)).take 128) :: s.out } := by
  refine smb_answered h fun hmine => ?_
  unfold doSmbReport
  rw [hmine, if_neg (by decide), hr]
  rfl

theorem smbReport_open (h : s.tack.up = true ∧ b = s.smbAddr) (hr : s.tack.smbReport = none) : exec (.smbReport b) s =
    .next { s with frees := s.frees + 1, out := .smbus (leBytes 128 (Config.freeValue s.frees % 2 ^ 1024)) :: s.out } := by
  refine smb_answered h fun hmine => ?_
  unfold doSmbReport
  rw [hmine, if_neg (by decide), hr, freeBlock_eq]
  rfl

/-- What the part does not answer leaves it as it is. -/
theorem smb_ignored (h : s.tack.up = false ∨ b ≠ s.smbAddr) : exec (.smbStatus b) s = .next s ∧
    (∀ nonce, exec (.smbAttest b nonce) s = .next s) ∧ exec (.smbReport b) s = .next s ∧ exec (.smbIdentity b) s = .next s ∧
    (∀ n, exec (.smbPart b n) s = .next s) := by
  have hmine := smbMine_eq_false h
  refine ⟨quiet_of_unchanged _ ?_, fun _ => quiet_of_unchanged _ ?_, quiet_of_unchanged _ ?_, quiet_of_unchanged _ ?_,
    fun _ => quiet_of_unchanged _ ?_⟩
  · exact if_neg (by rw [hmine]; decide)
  · exact if_neg (by rw [hmine, Bool.false_and]; decide)
  · exact if_pos (by rw [hmine]; rfl)
  · exact if_pos (by rw [hmine]; rfl)
  · exact if_neg (by rw [hmine, Bool.false_and]; decide)

theorem smbAttest_short {nonce : List Byte} (h : nonce.length ≠ 64) : exec (.smbAttest b nonce) s = .next s :=
  quiet_of_unchanged _ (if_neg (by simp [h]))

theorem tackNoteClear_clears {u : State} {dt at_ : Nat} (hu : u = s.elapse dt) (hup : u.tack.up = true) (hat : u.tack.noteAt = some at_) :
    ∃ t, exec (.tackNoteClear dt) s = .next t ∧ (u.tk < at_ + 16 * 10 ^ 9 → t = u) ∧ (at_ + 16 * 10 ^ 9 ≤ u.tk → t.rb (.ftStatus
    .tack) 0 = false ∧ t.rf (.ftStatus .tack) 63 1 = u.rf (.ftStatus .tack) 63 1 ∧ t.tack =
    { u.tack with noteAt := none } ∧ t = { u with regs := t.regs, tack := t.tack }) := by
  have he : exec (.tackNoteClear dt) s = u.quiet .tack doTackNoteClear := by rw [hu]; rfl
  refine ⟨doTackNoteClear u, he.trans (quiet_of_live _ _ _ hup), fun h => ?_, fun h => ?_⟩
  · unfold doTackNoteClear
    rw [hat]
    exact if_neg (by rw [ms]; omega)
  · have e : doTackNoteClear u = (u.wb (.ftStatus .tack) 0 false).modTack fun t => { t with noteAt := none } := by
      unfold doTackNoteClear
      rw [hat]
      exact if_pos (by rw [ms]; omega)
    have h0 : (u.wb (.ftStatus .tack) 0 false).rb (.ftStatus .tack) 0 = false := rb_wb_same _ _ _ _ (by decide)
    have h1 : (u.wb (.ftStatus .tack) 0 false).rf (.ftStatus .tack) 63 1 = u.rf (.ftStatus .tack) 63 1 :=
      rf_wb_field _ _ _ _ _ _ (by decide) (.inl (by decide))
    have hf : u.wb (.ftStatus .tack) 0 false = { u with regs := (u.wb (.ftStatus .tack) 0 false).regs } := rfl
    generalize u.wb (.ftStatus .tack) 0 false = v at *
    have hA : v.Alters (v.modTack fun t => { t with noteAt := none }) [.tack, .tackWork] fun _ => False := .modTack v _ id
    rw [e]
    refine ⟨(hA.rb id 0).trans h0, (hA.rf id 63 1).trans h1, ?_, ?_⟩
    · rw [hf]; rfl
    · rw [hf]; rfl

end

/-- Settles O59. -/
theorem smbusReportsAndIdentifies : Obligations.SmbusReportsAndIdentifies := by
  unfold Obligations.SmbusReportsAndIdentifies
  exact ⟨fun s b => smbStatus_answers, fun s b nonce => smbAttest_reports, fun s b nonce => smbAttest_short,
    fun s b r => smbReport_answers, fun s b => smbReport_open, fun s b n => smbPart_selects n, fun s b => smbIdentity_answers,
    fun s u dt at_ => tackNoteClear_clears, fun s b h => (smb_ignored h).1, fun s b nonce h => (smb_ignored h).2.1 nonce,
    fun s b h => (smb_ignored h).2.2.1, fun s b h => (smb_ignored h).2.2.2.1, fun s b n h => (smb_ignored h).2.2.2.2 n⟩

end Sys2Proof.Machine
end

section
/-! PROOFS. How the mailbox's commands end (R440), and the commands that owners sign (R436, R441). -/

namespace Sys2Proof.Machine

-- The proofs are elaborated one after another: in parallel their threads' stacks need more memory than a compile may have.
set_option Elab.async false

section
variable {s u : State} {c : MbCmd} {code r d : Nat} {out : List Byte}

/-! ### The end of a command -/

/-- A command in a mode that allows it. -/
theorem mbPerform_of (h : s.Commanded code c) {modes : List Nat} {f : MbCmd → State → State} (hm : modes.contains s.mode = true) :
    s.mbPerform code modes f = f c s := by
  obtain ⟨-, hrun, hcode, -⟩ := h
  have e : s.mbRun code = some c := by
    rw [State.mbRun, hrun, Option.filter_some, if_pos (decide_eq_true hcode)]
  unfold State.mbPerform
  rw [e]
  exact if_pos hm

theorem modes_contain (h : s.mode = 1 ∨ s.mode = 2) : [1, 2].contains s.mode = true := by
  rcases h with h | h <;> rw [h] <;> rfl

/-- The state with a word in a register and bytes in MB_BUF. -/
def State.mbShown (s : State) (k : Reg) (w : Word) (out : List Byte) : State := { s.setReg k w with buf := memWrite (s.setReg k w).buf mbBufBase out }

theorem mbShow_eq (s : State) (r d : Nat) (out : List Byte) :
    s.mbShow r d out = s.mbShown .mbStatus (mkWord 64 [(63, 56, r), (55, 48, d), (31, 0, out.length)]) out := by
  delta State.mbShow
  exact Eq.refl _

theorem mbShown_keeps (s : State) (k : Reg) (w : Word) (out : List Byte) : (s.mbShown k w out).mbox = s.mbox ∧
    (s.mbShown k w out).tk = s.tk := ⟨rfl, rfl⟩

theorem mbShown_nil (s : State) (k : Reg) (w : Word) : s.mbShown k w [] = s.setReg k w := rfl

/-- The state with a command ended: go reads 0, nothing runs, and the claim's time runs anew. -/
def State.mbIdle (s : State) (k : Reg) : State := { s.wb k 63 false with mbox := { s.mbox with run := none, since := s.tk } }

theorem mbIdle_keeps (s : State) (k : Reg) : (s.mbIdle k).mbox = { s.mbox with run := none, since := s.tk } ∧ (s.mbIdle k).buf = s.buf ∧
    (∀ q, (s.mbIdle k).reg q = (s.wb k 63 false).reg q) ∧
    s.mbIdle k = { s with regs := (s.mbIdle k).regs, mbox := (s.mbIdle k).mbox } := ⟨rfl, rfl, fun _ => rfl, rfl⟩

theorem withMbox_wb (v : State) (m m' : Mbox) (k : Reg) (i : Nat) (b : Bool) :
    { State.wb { v with mbox := m } k i b with mbox := m' } = { v.wb k i b with mbox := m' } := rfl

/-- What the end of a command makes of a state whose mailbox is as it was. -/
theorem mbDone_eq (h : s.Commanded code c) (hb : u.mbox = s.mbox) : u.mbDone r d out = (u.mbShow r d out).mbIdle .mbCmd := by
  obtain ⟨-, hrun, -, hq, ho, hu⟩ := h
  rw [← hb] at hrun ho hu
  have hshow : (!c.quiet && !u.mbox.overtaken) = true := by rw [hq, ho]; rfl
  have hmb : (u.mbShow r d out).mbox = u.mbox := by rw [mbShow_eq]; exact (mbShown_keeps ..).1
  unfold State.mbDone
  rw [hrun]
  dsimp only
  rw [hshow, if_pos rfl]
  generalize Reg.mbCmd = k
  generalize u.mbShow r d out = v at *
  rw [if_neg (by rw [hmb, hu]; decide)]
  rw [← hmb] at ho
  have hm : ({ v.mbox with run := none, since := v.tk, overtaken := false } : Mbox) = { v.mbox with run := none, since := v.tk } := by
    rw [← ho]
  exact (withMbox_wb v _ _ k 63 false).trans (congrArg (fun m => { v.wb k 63 false with mbox := m }) hm)

/-- The command has ended, where what came before it has left mailbox, MB_BUF and time as they were. -/
theorem mbDone_ended (h : s.Commanded code c) (hb : u.mbox = s.mbox) (htk : u.tk = s.tk) (hbuf : u.buf = s.buf) :
    s.Ended (u.mbDone r d out) r d out := by
  obtain ⟨w, hw⟩ : ∃ w, w = mkWord 64 [(63, 56, r), (55, 48, d), (31, 0, out.length)] := ⟨_, rfl⟩
  rw [mbDone_eq h hb, mbShow_eq, ← hw]
  have h1 : ((u.mbShown .mbStatus w out).wb .mbCmd 63 false).reg .mbStatus = w :=
    (reg_wb_other _ _ _ _ _ (by decide)).trans (reg_setReg_same u .mbStatus w)
  have h2 : ((u.mbShown .mbStatus w out).wb .mbCmd 63 false).rb .mbCmd 63 = false := rb_wb_same _ _ _ _ (by decide)
  have h3 : (u.mbShown .mbStatus w out).buf = memWrite s.buf mbBufBase out := congrArg (fun m => memWrite m mbBufBase out) hbuf
  obtain ⟨h4, h5⟩ := mbShown_keeps u .mbStatus w out
  generalize u.mbShown .mbStatus w out = v at *
  obtain ⟨k1, k2, k3, -⟩ := mbIdle_keeps v .mbCmd
  refine ⟨(k3 _).trans (h1.trans hw), ?_, ?_, k2.trans h3⟩
  · rw [State.rb, k3]; exact h2
  · rw [k1, h4, h5, hb, htk]

/-- The registers of the mailbox that the end of a command writes. -/
def MbAt (a : Nat) : Prop := a = Reg.mbStatus.addr ∨ a = Reg.mbCmd.addr

/-- With no output, registers and mailbox alone change. -/
theorem mbDone_frame (h : s.Commanded code c) (hb : u.mbox = s.mbox) :
    u.mbDone r d [] = { u with regs := (u.mbDone r d []).regs, mbox := (u.mbDone r d []).mbox } := by
  obtain ⟨w, hw⟩ : ∃ w, w = mkWord 64 [(63, 56, r), (55, 48, d), (31, 0, ([] : List Byte).length)] := ⟨_, rfl⟩
  rw [mbDone_eq h hb, mbShow_eq, ← hw, mbShown_nil]
  generalize Reg.mbStatus = k
  generalize Reg.mbCmd = j
  rfl

theorem mbDone_reg (h : s.Commanded code c) (hb : u.mbox = s.mbox) {q : Reg} (hq : ¬ MbAt q.addr) :
    (u.mbDone r d out).reg q = u.reg q := by
  obtain ⟨w, hw⟩ : ∃ w, w = mkWord 64 [(63, 56, r), (55, 48, d), (31, 0, out.length)] := ⟨_, rfl⟩
  rw [mbDone_eq h hb, mbShow_eq, ← hw]
  have h1 : ((u.mbShown .mbStatus w out).wb .mbCmd 63 false).reg q = (u.setReg .mbStatus w).reg q :=
    reg_wb_other _ _ _ _ _ fun e => hq (.inr e)
  obtain ⟨-, -, k3, -⟩ := mbIdle_keeps (u.mbShown .mbStatus w out) .mbCmd
  exact (k3 q).trans (h1.trans (reg_setReg_other u .mbStatus q _ fun e => hq (.inl e)))

end

end Sys2Proof.Machine
end

section
/-! PROOFS. The commands that owners sign, and the enrolment of an owner (R436, R441). -/

namespace Sys2Proof.Machine

-- The proofs are elaborated one after another: in parallel their threads' stacks need more memory than a compile may have.
set_option Elab.async false

section
variable {s u : State} {c : MbCmd} {code used e n : Nat} {F : Flash} {X : Fuses} {T : Tack} {R : Tab Word}

/-- The end of a command that has changed flash, fuses, the Tack Room's state and registers. -/
theorem mbDone_of_put (h : s.Commanded code c) (hu : u = { s with flash := F, fuses := X, tack := T, regs := R }) (r : Nat) :
    s.Ended (u.mbDone r 0 []) r 0 [] ∧
    u.mbDone r 0 [] = { s with flash := F, fuses := X, tack := T, regs := (u.mbDone r 0 []).regs, mbox := (u.mbDone r 0 []).mbox } ∧
    ∀ q : Reg, ¬ MbAt q.addr → (u.mbDone r 0 []).reg q = u.reg q := by
  have hb : u.mbox = s.mbox := by rw [hu]
  have htk : u.tk = s.tk := by rw [hu]
  have hbuf : u.buf = s.buf := by rw [hu]
  refine ⟨mbDone_ended h hb htk hbuf, ?_, fun q hq => mbDone_reg h hb hq⟩
  have hf := mbDone_frame (r := r) (d := 0) h hb
  generalize u.mbDone r 0 [] = t at *
  rw [hu] at hf
  exact hf

/-- A command that ends at once. -/
theorem mbDone_at_once (h : s.Commanded code c) (r : Nat) :
    s.Ended (s.mbDone r 0 []) r 0 [] ∧ s.mbDone r 0 [] = { s with regs := (s.mbDone r 0 []).regs, mbox := (s.mbDone r 0 []).mbox } :=
  ⟨mbDone_ended h rfl rfl rfl, mbDone_frame h rfl⟩

/-! ### The checks -/

/-- The state whose current nonce is used. -/
def State.spent (s : State) : State := s.modTack fun t => { t with nonce := none }

theorem mbSigned_passes {f : MbCmd → State → State} (h : s.Commanded code c) (hm : s.mode = 1 ∨ s.mode = 2)
    (hc : s.signedCheck c used = 0) : s.mbSigned code used f = f c s.spent := by
  unfold State.mbSigned
  rw [mbPerform_of h (modes_contain hm), hc]
  rfl

theorem mbSigned_fails {f : MbCmd → State → State} (h : s.Commanded code c) (hm : s.mode = 1 ∨ s.mode = 2)
    (hc : s.signedCheck c used = e) (he : e ≠ 0) : s.mbSigned code used f = s.mbDone e 0 [] := by
  unfold State.mbSigned
  rw [mbPerform_of h (modes_contain hm), hc]
  cases e with
  | zero => exact absurd rfl he
  | succ n => rfl

theorem cBytes_memRead (m : List Host.Cell) {off k total : Nat} (h : off + k ≤ total) :
    cBytes (memRead m 0 total) off k = memRead m off k := by
  unfold cBytes memRead
  refine List.ext_getElem (by simp; omega) fun i h1 h2 => ?_
  simp

theorem cNum_memRead (m : List Host.Cell) {off total : Nat} (h : off + 1 ≤ total) :
    cNum (memRead m 0 total) off 1 = (memByte m off).toNat := by
  rw [cNum, cBytes_memRead m h]
  simp [memRead, ofLe]

/-- The results of the checks, and what the first and the last of them say. -/
theorem signedCheck_cases (hc : s.signedCheck c used = e) (he : e ≠ 0) : (e = 2 ∨ e = 5 ∨ e = 6 ∨ e = 7) ∧
    (memRead c.buf 0 4 ≠ [0x4E, 0x56, 0x53, 0x43] → e = 2) ∧ (e = 7 → s.nonceOk (memRead c.buf 16 64) = false) := by
  have h4 : cBytes (c.bytes 532) 0 4 = memRead c.buf 0 4 := cBytes_memRead _ (by decide)
  have h64 : cBytes (c.bytes 532) 16 64 = memRead c.buf 16 64 := cBytes_memRead _ (by decide)
  unfold State.signedCheck at hc
  dsimp only at hc
  rw [h4, h64] at hc
  split at hc
  · subst hc
    exact ⟨.inl rfl, fun _ => rfl, fun h => nomatch h⟩
  next hform =>
    have hmagic : memRead c.buf 0 4 = [0x4E, 0x56, 0x53, 0x43] := not_not.mp fun h => hform (.inl h)
    refine ⟨?_, fun h => absurd hmagic h, ?_⟩ <;> split at hc
    · exact .inr (.inl hc.symm)
    · split at hc
      · exact .inr (.inr (.inl hc.symm))
      · split at hc
        · exact .inr (.inr (.inr hc.symm))
        · exact absurd hc.symm he
    · exact fun h => absurd (hc.trans h) (by decide)
    · split at hc
      · exact fun h => absurd (hc.trans h) (by decide)
      · split at hc
        next hn => exact fun _ => by simpa using hn
        · exact absurd hc.symm he

theorem nonceOk_false (h : s.nonceOk bs = false) : s.tack.nonce.all (fun n => decide (n.2 + 16 * (60 * 10 ^ 9) ≤ s.tk ∨
    bs ≠ beBytes 64 n.1.toNat)) = true := by
  unfold State.nonceOk at h
  cases hn : s.tack.nonce with
  | none => rfl
  | some x =>
    rw [hn] at h
    obtain ⟨n, t⟩ := x
    rw [Option.all_some, decide_eq_true_eq]
    dsimp only at h ⊢
    by_contra hcon
    obtain ⟨h1, h2⟩ := not_or.mp hcon
    rw [decide_eq_true (p := bs = digestBytes n) (not_not.mp h2), Bool.true_and, decide_eq_false_iff_not] at h
    exact h (by rw [ms]; omega)

/-! ### The commands -/

/-- TK_ shown anew (R449). -/
theorem showTk_put (s : State) (F : Flash) (X : Fuses) (T : Tack) : State.showTk { s with flash := F, fuses := X, tack := T } =
    { s with flash := F, fuses := X, tack := T, regs := (State.showTk { s with flash := F, fuses := X, tack := T }).regs } := rfl

theorem rf_showTk_failCount (s : State) : s.showTk.rf .tkState 55 48 = s.flash.failCount % 256 := by
  unfold State.showTk
  dsimp only
  rw [State.rf, reg_setReg_other _ _ _ _ (by decide), reg_wf_other _ _ _ _ _ _ (by decide)]
  exact (rf_wf_field _ _ _ _ _ _ _ (by decide) (by decide)).trans
    ((rf_wf_field _ _ _ _ _ _ _ (by decide) (by decide)).trans (rf_wf_same _ _ _ _ _ (by decide)))

/-- A command that ends after it has changed flash, fuses, the Tack Room's state and registers. -/
theorem command_ends {x : Instr} {r : Nat} (h : s.Commanded code c) (he : exec x s = .next (u.mbDone r 0 []))
    (hu : u = { s with flash := F, fuses := X, tack := T, regs := R }) : ∃ t, exec x s = .next t ∧ s.Ended t r 0 [] ∧ t.flash = F ∧
    t.fuses = X ∧ t.tack = T ∧ (∀ q : Reg, ¬ MbAt q.addr → t.reg q = u.reg q) ∧
    t = { s with flash := t.flash, fuses := t.fuses, tack := t.tack, regs := t.regs, mbox := t.mbox } := by
  obtain ⟨hend, hf, hreg⟩ := mbDone_of_put h hu r
  generalize u.mbDone r 0 [] = t at *
  have h1 : t.flash = F := by rw [hf]
  have h2 : t.fuses = X := by rw [hf]
  have h3 : t.tack = T := by rw [hf]
  exact ⟨t, he, hend, h1, h2, h3, hreg, by rw [h1, h2, h3]; exact hf⟩

theorem command_ends_at_once {x : Instr} {r : Nat} (h : s.Commanded code c) (he : exec x s = .next (s.mbDone r 0 [])) :
    ∃ t, exec x s = .next t ∧ s.Ended t r 0 [] ∧ t = { s with regs := t.regs, mbox := t.mbox } :=
  ⟨_, he, mbDone_at_once h r⟩

theorem clearStarts_passes (h : s.Commanded 0x40 c) (hm : s.mode = 1 ∨ s.mode = 2) (hc : s.signedCheck c 0 = 0) : ∃ t, exec
    .clearStarts s = .next t ∧ s.Ended t 0 0 [] ∧ t.flash = { s.flash with failCount := 0 } ∧ t.tack =
    { s.tack with nonce := none } ∧ t.rf .tkState 55 48 = 0 ∧ t =
    { s with flash := t.flash, tack := t.tack, regs := t.regs, mbox := t.mbox } := by
  have he : exec .clearStarts s = .next _ := (quiet_of_live s .global doClearStarts h.1).trans (congrArg _ (mbSigned_passes h hm hc))
  have hn := rf_showTk_failCount { s with flash := { s.flash with failCount := 0 }, fuses := s.fuses, tack := { s.tack with nonce := none } }
  obtain ⟨t, he, hend, hflash, hfuses, htack, hreg, hframe⟩ := command_ends h he
    (showTk_put s { s.flash with failCount := 0 } s.fuses { s.tack with nonce := none })
  rw [hfuses] at hframe
  exact ⟨t, he, hend, hflash, htack, (congrArg (fun w => fld w 55 48) (hreg .tkState (by unfold MbAt; decide))).trans hn, hframe⟩

theorem selectSlot_passes (h : s.Commanded 0x41 c) (hm : s.mode = 1 ∨ s.mode = 2) (hc : s.signedCheck c 1 = 0)
    (hn : n = (memByte c.buf 80).toNat ∧ n ≤ 1) : ∃ t, exec .selectSlot s = .next t ∧ s.Ended t 0 0 [] ∧ t.flash =
    { s.flash with preferred := n, suspectA := false, suspectB := false } ∧ t.tack = { s.tack with nonce := none } ∧ t
    = { s with flash := t.flash, tack := t.tack, regs := t.regs, mbox := t.mbox } := by
  have hslot : c.slot = n := (cNum_memRead c.buf (by decide)).trans hn.1.symm
  have hdo : doSelectSlot s = State.mbDone (State.showTk { s with flash := { s.flash with preferred := n, suspectA := false, suspectB := false }, fuses := s.fuses, tack := { s.tack with nonce := none } }) 0 0 [] := by
    refine (mbSigned_passes h hm hc).trans ?_
    dsimp only
    rw [hslot, if_neg (by omega)]
    rfl
  have he : exec .selectSlot s = .next _ := (quiet_of_live s .global doSelectSlot h.1).trans (congrArg _ hdo)
  obtain ⟨t, he, hend, hflash, hfuses, htack, -, hframe⟩ := command_ends h he
    (showTk_put s { s.flash with preferred := n, suspectA := false, suspectB := false } s.fuses { s.tack with nonce := none })
  rw [hfuses] at hframe
  exact ⟨t, he, hend, hflash, htack, hframe⟩

theorem ownerRevoke_passes (h : s.Commanded 0x43 c) (hm : s.mode = 1 ∨ s.mode = 2) (hc : s.signedCheck c 1 = 0)
    (hn : n = (memByte c.buf 80).toNat ∧ n ≤ 1 ∧ (memByte c.buf 260).toNat = 1 - n) : ∃ t, exec .ownerRevoke s = .next t ∧
    s.Ended t 0 0 [] ∧ t.fuses = (if n = 0 then { s.fuses with revoked0 := true } else
    { s.fuses with revoked1 := true }) ∧ t.tack = { s.tack with nonce := none } ∧ t =
    { s with fuses := t.fuses, tack := t.tack, regs := t.regs, mbox := t.mbox } := by
  have hslot : c.slot = n := (cNum_memRead c.buf (by decide)).trans hn.1.symm
  have howner : ownerSlot (cBytes (c.bytes 532) 128 272) = 1 - n := by
    rw [← hn.2.2, ← cNum_memRead c.buf (total := 532) (by decide)]
    unfold ownerSlot cNum cBytes
    rw [List.drop_take, List.drop_drop, List.take_take]
    rfl
  have hdo : doOwnerRevoke s = State.mbDone (State.showTk { s with flash := s.flash, fuses := if n = 0 then { s.fuses with revoked0 := true } else { s.fuses with revoked1 := true }, tack := { s.tack with nonce := none } }) 0 0 [] := by
    refine (mbSigned_passes h hm hc).trans ?_
    dsimp only
    rw [hslot, if_neg (by omega), if_neg (not_not.mpr howner)]
    rfl
  have he : exec .ownerRevoke s = .next _ := (quiet_of_live s .global doOwnerRevoke h.1).trans (congrArg _ hdo)
  obtain ⟨t, he, hend, hflash, hfuses, htack, -, hframe⟩ := command_ends h he
    (showTk_put s s.flash (if n = 0 then { s.fuses with revoked0 := true } else { s.fuses with revoked1 := true }) { s.tack with nonce := none })
  rw [hflash] at hframe
  exact ⟨t, he, hend, hfuses, htack, hframe⟩

/-- The fuses with a slot's owner hash blown; a hash of 0 leaves the slot empty. -/
def Fuses.enrolled (f : Fuses) (n : Nat) (h : BitVec 256) : Fuses :=
  if n = 0 then { f with owner0 := if h = 0 then none else some h } else { f with owner1 := if h = 0 then none else some h }

/-- What OWNER_ENROL makes of an owner key block. -/
theorem doOwnerEnrol_eq {bs : List Byte} (h : s.Commanded 0x42 c) (hm : s.mode = 1 ∨ s.mode = 2) (hbs : bs = memRead c.buf 0 272)
    (hn : ownerSlot bs ≤ 1) : doOwnerEnrol s =
    if s.endorsed bs = false then s.mbDone 5 0 []
    else if (s.fuses.owner (ownerSlot bs)).isSome = true ∨ s.fuses.revoked (ownerSlot bs) = true then s.mbDone 3 0 []
    else (State.showTk { s with flash := s.flash, fuses := s.fuses.enrolled (ownerSlot bs) (ownerHash bs), tack := s.tack }).mbDone 0 0 [] := by
  have hb : c.bytes 272 = bs := hbs.symm
  unfold doOwnerEnrol
  rw [mbPerform_of h (modes_contain hm)]
  dsimp only
  rw [hb, if_neg (by omega)]
  simp only [Bool.not_eq_true', Bool.or_eq_true]
  rfl

theorem ownerEnrol_ends {bs : List Byte} (h : s.Commanded 0x42 c) (hm : s.mode = 1 ∨ s.mode = 2) (hbs : bs = memRead c.buf 0 272)
    (hn : n = ownerSlot bs ∧ n ≤ 1) : ∃ t, exec .ownerEnrol s = .next t ∧ (s.endorsed bs = true →
    s.fuses.owner n = none → s.fuses.revoked n = false → ownerHash bs ≠ 0 → s.Ended t 0 0 [] ∧ t.fuses = (if n = 0
    then { s.fuses with owner0 := some (ownerHash bs) } else { s.fuses with owner1 := some (ownerHash bs) })) ∧
    (s.endorsed bs = false → s.Ended t 5 0 [] ∧ t.fuses = s.fuses) ∧ (s.endorsed bs = true → (s.fuses.owner n).isSome
    = true ∨ s.fuses.revoked n = true → s.Ended t 3 0 [] ∧ t.fuses = s.fuses) ∧ t =
    { s with fuses := t.fuses, regs := t.regs, mbox := t.mbox } := by
  have hq : exec .ownerEnrol s = .next _ := (quiet_of_live s .global doOwnerEnrol h.1).trans
    (congrArg _ (doOwnerEnrol_eq h hm hbs (hn.1 ▸ hn.2)))
  obtain ⟨rfl, hn⟩ := hn
  by_cases he : s.endorsed bs = false
  · rw [if_pos he] at hq
    obtain ⟨t, hx, hend, hf⟩ := command_ends_at_once h hq
    have hfu : t.fuses = s.fuses := by rw [hf]
    exact ⟨t, hx, fun h1 => absurd (he.symm.trans h1) (by decide), fun _ => ⟨hend, hfu⟩, fun h1 => absurd (he.symm.trans h1) (by decide),
      by rw [hfu]; exact hf⟩
  rw [if_neg he] at hq
  by_cases ho : (s.fuses.owner (ownerSlot bs)).isSome = true ∨ s.fuses.revoked (ownerSlot bs) = true
  · rw [if_pos ho] at hq
    obtain ⟨t, hx, hend, hf⟩ := command_ends_at_once h hq
    have hfu : t.fuses = s.fuses := by rw [hf]
    refine ⟨t, hx, fun _ h1 h2 => ?_, fun h1 => absurd h1 he, fun _ _ => ⟨hend, hfu⟩, by rw [hfu]; exact hf⟩
    rw [h1, h2] at ho
    exact absurd ho (by decide)
  · rw [if_neg ho] at hq
    obtain ⟨t, hx, hend, hflash, hfuses, htack, -, hframe⟩ := command_ends h hq (showTk_put s s.flash _ s.tack)
    rw [hflash, htack] at hframe
    refine ⟨t, hx, fun _ _ _ h0 => ⟨hend, ?_⟩, fun h1 => absurd h1 he, fun _ h1 => absurd h1 ho, hframe⟩
    rw [hfuses, Fuses.enrolled, if_neg h0]

end

/-- Settles O57. -/
theorem ownersSignTheirCommands : Obligations.OwnersSignTheirCommands := by
  unfold Obligations.OwnersSignTheirCommands
  refine ⟨fun s c => clearStarts_passes, fun s c n => selectSlot_passes, fun s c n => ownerRevoke_passes, fun s c e h hm hc => ?_,
    fun s c e h hm hc => ?_, fun s c bs n => ownerEnrol_ends⟩
  · obtain ⟨h1, h2, h3⟩ := signedCheck_cases hc.1 hc.2
    have he : exec .clearStarts s = .next _ := (quiet_of_live s .global doClearStarts h.1).trans (congrArg _ (mbSigned_fails h hm hc.1 hc.2))
    obtain ⟨t, he, hend, hframe⟩ := command_ends_at_once h he
    exact ⟨t, he, hend, h1, h2, fun h => nonceOk_false (h3 h), hframe⟩
  · have he : exec .ownerRevoke s = .next _ := (quiet_of_live s .global doOwnerRevoke h.1).trans (congrArg _ (mbSigned_fails h hm hc.1 hc.2))
    exact command_ends_at_once h he

end Sys2Proof.Machine
end

section
/-! PROOFS. A doorbell that carries an entry whose header fails R176. -/

namespace Sys2Proof.Machine

-- The proofs are elaborated one after another: in parallel their threads' stacks need more memory than a compile may have.
set_option Elab.async false

/-- The queue 7 of link 1, empty. -/
def ringingCq : Cq := { armingCq with pi := 0, next := 0, asked := 0, open_ := [] }

/-- A doorbell of function 2 for queue 7 that posts one entry and brings its granule, whose phase is not that of the lap. -/
def ringingTlp : RxTlp :=
  { body := beBytes 16 (mkWord 128 [(127, 120, 1), (119, 115, 2), (111, 92, 7), (91, 71, 1), (50, 48, 1)]).toNat ++
      ([0, 0, 0, 0, 0, 0, 0, 0x80] ++ List.replicate 56 0),
    barrier := 0, malformed := false, rsp := false, old := false }

/-- The part with that doorbell next on link 1. -/
def ringingState : State :=
  let s : State :=
    { State.reset with
      coreOn := true, pins := { resetL := true }, cqs := [(7, ringingCq)], ctxs := [(9, armingCtx)], ht := [(1, { rxReq := [ringingTlp] })] }
  (s.wf (.llStatus (.host 1)) 3 0 3).wb (.hlCtrl 1) 0 true

theorem ringingState_rings : ringingState.Calm ∧ ringingState.live (.hostlink 1) = true ∧ ringingState.dust = false ∧
    ringingState.rb (.hlCtrl 1) 0 = true ∧ (ringingState.tl (1 : HLink).val).rxReq = [ringingTlp] ∧ tlpF ringingTlp.body 127 120 = 1 ∧
    tlpF ringingTlp.body 111 92 = 7 ∧ tFind ringingState.cqs 7 = some ringingCq ∧
    ringingState.mayRing 1 ringingCq (tlpF ringingTlp.body 119 115) = true ∧ ringingState.domRuns (ringingState.cqDom ringingCq) = true ∧
    tlpF ringingTlp.body 91 71 = 1 := by decide +kernel

/-- The queue takes the header and enters ERROR. -/
theorem ringingState_errs : (match exec (.dbell 1) ringingState with
    | .next t => (tFind t.cqs 7).map (fun c => c.state)
    | _ => none) = some 4 := by decide +kernel

/-- Refutes O23: a doorbell that brings an entry whose header has the wrong phase takes its queue to ERROR. -/
theorem not_doorbellsAndHostAccessesAreServed : ¬ Obligations.DoorbellsAndHostAccessesAreServed := by
  intro h
  obtain ⟨hbell, -⟩ := h
  obtain ⟨hcalm, hlive, hdust, hen, hreq, hty, hq, hc, hmay, hdom, hpi⟩ := ringingState_rings
  obtain ⟨t, he, hcq, -⟩ := hbell ringingState 1 ringingTlp [] ringingCq 7 1 hcalm hlive hdust hen hreq hty hq hc hmay hdom (by decide) rfl
    (by rw [hpi]; decide) (by rw [hpi]; rfl) (by decide) (by decide)
  have herr := ringingState_errs
  rw [he] at herr
  obtain ⟨d, hd, hst⟩ := Option.map_eq_some_iff.mp herr
  rw [hd, Option.map_some, Option.some.injEq, Prod.mk.injEq, Prod.mk.injEq, Prod.mk.injEq] at hcq
  exact absurd (hst.symm.trans hcq.2.2.2) (by decide)

end Sys2Proof.Machine
end

section
/-! PROOFS. A CQ_DESTROY of a queue one of whose fired commands is started (R188, R200). -/

namespace Sys2Proof.Machine

-- The proofs are elaborated one after another: in parallel their threads' stacks need more memory than a compile may have.
set_option Elab.async false

/-- A CQ_DESTROY of queue 8, in slot 0 of queue 7. -/
def destroyingOp : Op := { armingOp with words := [mkWord 64 [(62, 59, 1), (58, 51, 0x33)], mkWord 64 [(63, 44, 8)], 0, 0, 0, 0, 0, 0] }

/-- A command that queue 8 fired, started and not ended. -/
def firedOp : Op := { armingOp with src := .fired, queue := 8, performed := true, words := [mkWord 64 [(58, 51, 1)], 0, 0, 0, 0, 0, 0, 0] }

/-- Queue 8, with no entry open and no fired command that has not started. -/
def busyCq : Cq := { armingCq with id := 1, open_ := [] }

/-- The part with that CQ_DESTROY and that command started. -/
def destroyingState : State :=
  let s : State :=
    { State.reset with
      coreOn := true, pins := { resetL := true }, cqs := [(7, armingCq), (8, busyCq)], ctxs := [(9, armingCtx)],
      ops := [(20, destroyingOp), (30, firedOp)], serial := 50 }
  s.wf (.llStatus (.host 1)) 3 0 3

theorem destroyingState_starts : destroyingState.Starts 20 0x33 destroyingOp armingCq := by decide +kernel

theorem destroyingState_names : fld (destroyingOp.w 1) 63 44 = 8 ∧ adminIndex 8 = false ∧ tFind destroyingState.cqs 8 = some busyCq ∧
    destroyingState.mes = [] := by decide +kernel

/-- The queue waits for the fired command, and stays until that has ended. -/
theorem destroyingState_keeps : (match exec (.cqDestroy 20) destroyingState with
    | .next t => (tFind t.cqs 8).isSome
    | _ => false) = true := by decide +kernel

/-- Refutes O29: a queue without an open entry is not destroyed while a command that it fired has not ended. -/
theorem not_contextsQueuesAndEventQueuesAreMade : ¬ Obligations.ContextsQueuesAndEventQueuesAreMade := by
  intro h
  obtain ⟨-, -, -, hdestroy, -, -⟩ := h
  obtain ⟨hq, hadmin, hcq, hmes⟩ := destroyingState_names
  obtain ⟨t, he, hgone, -⟩ := hdestroy destroyingState 20 8 destroyingOp armingCq busyCq destroyingState_starts hq.symm (by decide) hadmin hcq
    ⟨rfl, rfl, rfl⟩ hmes
  have hstays := destroyingState_keeps
  rw [he] at hstays
  simp only [hgone, Option.isSome_none, Bool.false_eq_true] at hstays

end Sys2Proof.Machine
end

section
/-! PROOFS. The actions of CQ_CTRL and the write of CQ_ADMIN (R206, R501). -/

namespace Sys2Proof.Machine

-- The proofs are elaborated one after another: in parallel their threads' stacks need more memory than a compile may have.
set_option Elab.async false

section

variable {s : State} {d : Dom} {q : BitVec 20} {c : Cq} {st : List Nat} {k : Cq → State → State}

theorem modCq_of_find {n : Nat} (h : tFind s.cqs n = some c) (f : Cq → Cq) : s.modCq n f = { s with cqs := tPut n (f c) s.cqs } := by
  rw [State.modCq, h]

theorem ctrlQueue_of_find (h : tFind s.cqs q.toNat = some c) (hd : s.cqDom c = d.val) :
    s.ctrlQueue d q.toNat st = if st.contains c.state then some c else none := by
  simp only [State.ctrlQueue, h, hd, decide_true, Bool.true_and]

/-- An action in a state that it starts from. -/
theorem cqAction_hit (h : tFind s.cqs q.toNat = some c) (hd : s.cqDom c = d.val) (hst : st.contains c.state = true) :
    s.cqAction d q.toNat st k = k c s := by
  rw [State.cqAction, ctrlQueue_of_find h hd, if_pos hst]

/-- An action in another state is noted. -/
theorem cqAction_miss (h : tFind s.cqs q.toNat = some c) (hd : s.cqDom c = d.val) (hst : st.contains c.state = false) :
    s.cqAction d q.toNat st k = s.noteReserved (.domain d) 0 := by
  rw [State.cqAction, ctrlQueue_of_find h hd, if_neg (by simp only [hst, Bool.false_eq_true, not_false_eq_true])]

/-- An action not allowed changes no queue and is noted. -/
theorem act_noted {f : State → State} (hc : s.Calm) (hlive : s.live (.domain d) = true) (hf : f s = s.noteReserved (.domain d) 0) :
    ∃ t, s.act (.domain d) f = .next t ∧ t.cqs = s.cqs ∧ t.rb (.ftStatus (.domain d)) 0 = true ∧ t.hbm = s.hbm := by
  have ha : s.Alters (s.noteReserved (.domain d) 0) faultFields (FaultAt (.domain d)) := fault_alters ..
  exact ⟨_, act_of_alters hlive hc hf ha, ha.cqs, fault_status s (.domain d) .note _ _ rfl, ha.hbm⟩

/-- An action that changes its queue's record alone. -/
theorem act_modCq {f : State → State} {g : Cq → Cq} (hc : s.Calm) (hlive : s.live (.domain d) = true) (hq : tFind s.cqs q.toNat = some c)
    (hf : f s = s.modCq q.toNat g) :
    ∃ t, s.act (.domain d) f = .next t ∧ tFind t.cqs q.toNat = some (g c) ∧ t = { s with cqs := t.cqs } := by
  refine ⟨_, act_of_alters (F := [.cqs]) (P := fun _ => False) hlive hc hf (.modCq ..), ?_, ?_⟩
  · rw [cqs_modCq_same, hq, Option.map_some]
  · rw [modCq_of_find hq]

end

/-! ### FLUSH of an entry whose granule a doorbell brought (R501) -/

section

variable {s : State} {q : Nat} {c : Cq} {f : Flush}

theorem flushWalk_step {n hi m : Nat} {rest : List (Nat × Nat)} {g : BitVec 512} (hq : tFind s.cqs q = some c) (hf : c.flushing = some f)
    (hw : f.walks = (n, hi) :: rest) (hn : n < hi) (hb : c.bell.contains n = true) (hg : tFind c.gran n = some g) :
    s.flushWalk (m + 1) q = (s.flushOne q c n hi ((granWords g).getD 0 0)).flushWalk m q := by
  rw [State.flushWalk]
  simp only [hq, hf, hw, hb, hg, if_true]
  rw [if_neg (by omega)]

theorem flushWalk_stop {n hi m : Nat} {rest : List (Nat × Nat)} (hq : tFind s.cqs q = some c) (hf : c.flushing = some f)
    (hw : f.walks = (n, hi) :: rest) (hn : hi ≤ n) : s.flushWalk (m + 1) q = (s.flushStop q).flushWalk m q := by
  rw [State.flushWalk]
  simp only [hq, hf, hw]
  rw [if_pos hn]

theorem flushWalk_nil {m : Nat} (hq : tFind s.cqs q = some c) (hf : c.flushing = some f) (hw : f.walks = []) :
    s.flushWalk (m + 1) q = s.settleQueue q := by
  rw [State.flushWalk]
  simp only [hq, hf, hw]

/-- The walk of a queue's record ended, with what it used let go. -/
def Cq.walked (c : Cq) (f : Flush) : Cq :=
  { c with flushing := some { f with walks := [] }, gran := c.gran.filter (fun e => c.next ≤ e.1), bell := c.bell.filter (fun e => c.next ≤ e) }

theorem flushStop_last {e : Nat × Nat} (hq : tFind s.cqs q = some c) (hf : c.flushing = some f) (hw : f.walks = [e]) :
    s.flushStop q = { s with cqs := tPut q (c.walked f) s.cqs } := by
  rw [State.flushStop, modCq_of_find hq]
  simp only [hf, hw, List.length_singleton, Nat.reduceLeDiff, if_false, List.drop_one, List.tail_cons]
  rfl

/-- The queue's record when its FLUSH has ended. -/
def Cq.flushed (c : Cq) (f : Flush) : Cq := { c with flushing := none, state := 1, oldest := max c.oldest f.hi }

theorem settleQueue_flushed (hq : tFind s.cqs q = some c) (hd : c.dying = false) (hf : c.flushing = some f) (hw : f.walks = [])
    (hact : f.act = true) (ho : c.open_ = []) : s.settleQueue q = { s with cqs := tPut q (c.flushed f) s.cqs } := by
  have hi : s.queueIdle q = ({ s with cqs := tPut q (c.flushed f) s.cqs }, none) := by
    unfold State.queueIdle
    simp only [hq, hd, hf, hw, ho, hact, Bool.false_eq_true, if_false, ne_eq, not_true_eq_false, List.any_nil, decide_false, Bool.or_false]
    rw [modCq_of_find hq]
    simp only [congrArg List.length ho, List.length_nil, Cq.settleOldest, if_true]
    rfl
  rw [State.settleQueue, hi]

theorem Cq.closeEntry_of_nil (ho : c.open_ = []) (n : Nat) : c.closeEntry n = c := by
  unfold Cq.closeEntry
  simp only [ho, List.map_nil, List.length_nil, Cq.settleOldest]
  rw [← ho]

/-- The record with its walk at `m`. -/
def Cq.walkAt (c : Cq) (f : Flush) (m hi : Nat) : Cq := { c with flushing := some { f with walks := [(m, hi)] } }

/-- The walk aborts the entry that it has reached. -/
theorem flushOne_aborts {n hi : Nat} {w : Word} (hq : tFind s.cqs q = some c) (ho : c.open_ = []) (hadm : c.admin = false)
    (hf : c.flushing = some f) (hw : f.walks = [(n, hi)]) (hlost : s.hlLost c.link = false) (hphase : b2n (bit w 63) = c.lap n)
    (hfit : c.slot n + hdrLen w ≤ 2 ^ c.k) (hslot : c.slotAddr n % 4096 ≤ 4088) :
    s.flushOne q c n hi w =
      ((s.sendReq c.link (.wr ⟨c.slotAddr n, leBytes 8 (cplHeader w 0x0F 0).toNat, false, some c.ctx, c.fn, 0, .none⟩)).modCq q
        (fun c => c.closeEntry n)).modCq q (fun _ => c.walkAt f (n + hdrLen w) hi) := by
  have hput := putCpl_header (s := s) (q := q) (c := c) (count := n) (a := c.slotAddr n) (w := leBytes 8 (cplHeader w 0x0F 0).toNat)
    (leBytes_length ..) hslot
  rw [hadm] at hput
  simp only [Bool.false_eq_true, if_false] at hput
  obtain ⟨u, hu⟩ : ∃ u, u = s.sendReq c.link (.wr ⟨c.slotAddr n, leBytes 8 (cplHeader w 0x0F 0).toNat, false, some c.ctx, c.fn, 0, .none⟩) :=
    ⟨_, rfl⟩
  have hcqs : tFind (u.modCq q (fun c => c.closeEntry n)).cqs q = some c := by
    have hs : s.Alters u [.ht] (fun _ => False) := hu ▸ .sendReq ..
    rw [cqs_modCq_same, hs.cqs, hq, Option.map_some, Cq.closeEntry_of_nil ho]
  have hone : s.flushOne q c n hi w = (s.flushHeader q c n w).modCq q (fun c => { c with
      flushing := c.flushing.map fun f => { f with walks := (n + hdrLen w, hi) :: f.walks.drop 1 } }) := by
    unfold State.flushOne
    exact if_neg (by rw [not_or, not_not]; exact ⟨hphase, by omega⟩)
  rw [hone, State.flushHeader, State.writeCpl, if_neg (by simp [hlost]), hput, ← hu, modCq_of_find hcqs, modCq_of_find hcqs, hf]
  simp only [Option.map_some, hw]
  rfl

/-- The record as a FLUSH of one whose entries are not yet walked begins. -/
def Cq.flushing1 (c : Cq) (id : Nat) : Flush := { id := id, walks := [(c.next, c.pi)], hi := c.pi, act := true }

def Cq.flushBegun (c : Cq) (id : Nat) : Cq := { c with flushing := some (c.flushing1 id), next := c.pi, asked := max c.asked c.pi }

/-- A FLUSH of a STOPPED queue begins a walk of what has not started. -/
theorem doCqFlush_begins {d : Dom} {q : BitVec 20} (hq : tFind s.cqs q.toNat = some c) (hd : s.cqDom c = d.val) (hst : c.state = 3)
    (hf : c.flushing = none) :
    doCqFlush d q s = State.flushWalk flushFuel
      { s with cqs := tPut q.toNat (c.flushBegun s.serial) s.cqs, serial := s.serial + 1 } q.toNat := by
  unfold doCqFlush
  rw [cqAction_hit hq hd (by rw [hst]; rfl)]
  simp only [hf, Option.map_none, Option.getD_none, List.nil_append, if_true, State.abortInError, if_neg (show ¬ c.state = 4 by omega),
    modCq_of_find hq]
  rfl

/-- A queue's record is all that differs, beside the requests of its link and the count of handles. -/
def flushFields : List Field := [.cqs, .ht, .serial]

/-- A FLUSH of a STOPPED queue with one entry not started, which a doorbell brought (R501). -/
theorem flush_one {d : Dom} {q : BitVec 20} {g : BitVec 512} {w : Word} (hq : tFind s.cqs q.toNat = some c) (hd : s.cqDom c = d.val)
    (hst : c.state = 3) (hidle : c.flushing = none ∧ c.dying = false ∧ c.open_ = [] ∧ c.admin = false) (hlost : s.hlLost c.link = false)
    (hgran : tFind c.gran c.next = some g ∧ c.bell.contains c.next = true) (hw : w = BitVec.ofNat 64 g.toNat)
    (hphase : b2n (bit w 63) = c.lap c.next) (hfit : c.slot c.next + hdrLen w ≤ 2 ^ c.k) (hlen : c.next + hdrLen w = c.pi)
    (hslot : c.slotAddr c.next % 4096 ≤ 4088) (hold : c.oldest = c.next) :
    ∃ (t : State) (x : Cq), doCqFlush d q s = t ∧ s.Alters t flushFields (fun _ => False) ∧ tFind t.cqs q.toNat = some x ∧
      (x.state = 1 ∧ x.next = c.pi ∧ x.oldest = c.pi ∧ x.pi = c.pi ∧ x.flushing = none) ∧
      (t.tl c.link).reqQ = (s.tl c.link).reqQ ++
        [.wr ⟨c.slotAddr c.next, leBytes 8 (cplHeader w 0x0F 0).toNat, false, some c.ctx, c.fn, 0, .none⟩] := by
  obtain ⟨hf, hdy, ho, hadm⟩ := hidle
  obtain ⟨hg, hb⟩ := hgran
  have hpos : c.next < c.pi := by unfold hdrLen at hlen; omega
  obtain ⟨u, hu⟩ : ∃ u, u = { s with cqs := tPut q.toNat (c.flushBegun s.serial) s.cqs, serial := s.serial + 1 } := ⟨_, rfl⟩
  have hsu : s.Alters u flushFields (fun _ => False) := by
    rw [hu]
    exact (State.Alters.put_cqs s _).trans (.put_serial { s with cqs := tPut q.toNat (c.flushBegun s.serial) s.cqs } _)
  have huq : tFind u.cqs q.toNat = some (c.flushBegun s.serial) := by rw [hu]; exact tFind_tPut_same ..
  have hulost : u.hlLost c.link = false := by rw [hu]; exact hlost
  obtain ⟨y, hy⟩ : ∃ y, y = u.sendReq c.link
    (.wr ⟨c.slotAddr c.next, leBytes 8 (cplHeader w 0x0F 0).toNat, false, some c.ctx, c.fn, 0, .none⟩) := ⟨_, rfl⟩
  have hone : u.flushOne q.toNat (c.flushBegun s.serial) c.next c.pi w = (y.modCq q.toNat (fun x => x.closeEntry c.next)).modCq q.toNat
      (fun _ => (c.flushBegun s.serial).walkAt (c.flushing1 s.serial) (c.next + hdrLen w) c.pi) := by
    rw [hy]
    exact flushOne_aborts (w := w) huq ho hadm rfl rfl hulost hphase hfit hslot
  have huy : u.Alters y [.ht] (fun _ => False) := hy ▸ .sendReq ..
  have hyreq : (y.tl c.link).reqQ = (s.tl c.link).reqQ ++
      [.wr ⟨c.slotAddr c.next, leBytes 8 (cplHeader w 0x0F 0).toNat, false, some c.ctx, c.fn, 0, .none⟩] := by
    rw [hy, sendReq_of_up hulost, tl_modTl_same, hu]
    rfl
  obtain ⟨v, hv⟩ : ∃ v, v = u.flushOne q.toNat (c.flushBegun s.serial) c.next c.pi w := ⟨_, rfl⟩
  have hyv : y.Alters v [.cqs] (fun _ => False) := by
    rw [hv, hone]
    exact (State.Alters.modCq ..).trans (.modCq ..)
  have hvq : tFind v.cqs q.toNat = some ((c.flushBegun s.serial).walkAt (c.flushing1 s.serial) c.pi c.pi) := by
    have hyq : tFind y.cqs q.toNat = some (c.flushBegun s.serial) := by rw [huy.cqs, huq]
    rw [hv, hone]
    rw [cqs_modCq_same, cqs_modCq_same, hyq, hlen]
    rfl
  have hstop := flushStop_last hvq rfl rfl
  obtain ⟨x, hx⟩ : ∃ x, x = v.flushStop q.toNat := ⟨_, rfl⟩
  have hxq : tFind x.cqs q.toNat = some (Cq.walked ((c.flushBegun s.serial).walkAt (c.flushing1 s.serial) c.pi c.pi)
      { c.flushing1 s.serial with walks := [(c.pi, c.pi)] }) := by
    rw [hx, hstop]
    exact tFind_tPut_same ..
  have hend := settleQueue_flushed hxq hdy rfl rfl rfl ho
  have hword : (granWords g).getD 0 0 = w := by
    rw [hw]
    show BitVec.ofNat 64 (g.toNat / 2 ^ (64 * 0)) = _
    rw [Nat.mul_zero, Nat.pow_zero, Nat.div_one]
  have hdo : doCqFlush d q s = x.settleQueue q.toNat := by
    rw [doCqFlush_begins hq hd hst hf, ← hu, show flushFuel = 2097149 + 1 + 1 + 1 from rfl,
      flushWalk_step huq rfl rfl hpos hb hg, hword, ← hv, flushWalk_stop hvq rfl rfl (le_refl _), ← hx, flushWalk_nil hxq rfl rfl]
  have hvx : v.Alters x [.cqs] (fun _ => False) := by
    rw [hx, hstop]
    exact .put_cqs ..
  have hxt : x.Alters (x.settleQueue q.toNat) [.cqs] (fun _ => False) := by
    rw [hend]
    exact .put_cqs ..
  have hrest : y.Alters (x.settleQueue q.toNat) [.cqs] (fun _ => False) := (hyv.trans hvx).trans hxt
  refine ⟨_, _, hdo, (hsu.trans huy.mono).trans hrest.mono, (congrArg (fun z : State => tFind z.cqs q.toNat) hend).trans (tFind_tPut_same ..), ⟨rfl, rfl, ?_, rfl, rfl⟩, ?_⟩
  · show max c.oldest c.pi = c.pi
    omega
  · rw [State.tl, hrest.ht]
    exact hyreq

end

/-! ### The admin queue of a link (R206) -/

/-- A write of CQ_ADMIN with valid, a legal k and a ring in host memory makes the admin queue. -/
theorem regWrite_cqAdmin_makes {s : State} {h : HLink} {v : Word} (hold : s.rb (.cqAdmin h) 0 = false) (hv : bit v 0 = true)
    (hres : fld v 11 6 = 0) (hk : 6 ≤ fld v 5 1 ∧ fld v 5 1 ≤ 12)
    (hm : s.allMemory h.val (fld v 63 12 * 4096) (64 * 2 ^ fld v 5 1) = true) (hq : tFind s.cqs (adminQueue h) = none) :
    s.regWrite .warden (.cqAdmin h) v = { s.setReg (.cqAdmin h) v with
      cqs := tPut (adminQueue h) (Cq.new s.serial h.val 31 0 (2 * h.val) (fld v 5 1) (fld v 63 12 * 4096) 1 1 true false false 0) s.cqs,
      serial := s.serial + 1 } := by
  have hw : s.regWrite .warden (.cqAdmin h) v = doCqAdminWrite h v s := rfl
  have hold' : bit (s.reg (.cqAdmin h)) 0 = false := hold
  rw [hw]
  unfold doCqAdminWrite
  simp only [hres, hold', hv, hm, hq, ne_eq, not_true_eq_false, if_false, Bool.false_eq_true, Bool.true_eq_false, or_false, Bool.not_true,
    Option.isSome_none]
  rw [if_neg (by omega)]

/-- Settles O30: an action acts in the states that it starts from and is noted in the others, and a FLUSH walks what has not started. -/
theorem queueActions : Obligations.QueueActions := by
  unfold Obligations.QueueActions
  refine ⟨?stop, ?start, ?startElse, ?stopElse, ?resumeElse, ?abortElse, ?flushElse, ?resume, ?abort, ?flush, ?admin⟩
  case stop =>
    intro s d q c hc hlive hq hd hst
    have hf : doCqStop d q s = s.modCq q.toNat (fun c => { c with state := 3 }) := cqAction_hit (st := [1]) hq hd (by rw [hst]; rfl)
    exact act_modCq hc hlive hq hf
  case start =>
    intro s d q c hc hlive hq hd hst hf
    have hf' : doCqStart d q s = s.modCq q.toNat (fun c => { c with state := 1, flushing := c.flushing.map fun f => { f with act := false } }) := by
      unfold doCqStart
      rw [cqAction_hit hq hd (by rw [hst]; rfl)]
    obtain ⟨t, ht, hcq, hall⟩ := act_modCq hc hlive hq hf'
    refine ⟨t, ht, hcq.trans ?_, hall⟩
    rw [hf, Option.map_none, ← hf]
  case startElse =>
    intro s d q c hc hlive hq hd hst
    exact act_noted (f := doCqStart d q) hc hlive (by unfold doCqStart; exact cqAction_miss hq hd (by simpa using hst))
  case stopElse =>
    intro s d q c hc hlive hq hd hst
    exact act_noted (f := doCqStop d q) hc hlive (by unfold doCqStop; exact cqAction_miss hq hd (by simpa using hst))
  case resumeElse =>
    intro s d q c hc hlive hq hd hst
    exact act_noted (f := doCqResume d q) hc hlive (by unfold doCqResume; exact cqAction_miss hq hd (by simpa using hst))
  case abortElse =>
    intro s d q c hc hlive hq hd hst
    exact act_noted (f := doCqAbort d q) hc hlive (by unfold doCqAbort; exact cqAction_miss hq hd (by simpa using hst))
  case flushElse =>
    intro s d q c hc hlive hq hd hst
    exact act_noted (f := doCqFlush d q) hc hlive (by unfold doCqFlush; exact cqAction_miss hq hd (by rcases hst with h | h | h <;> rw [h] <;> rfl))
  case resume =>
    intro s d q c hc hlive hq hd hst htrap
    have hf : doCqResume d q s = s.modCq q.toNat (fun c => { c with state := 1 }) := by
      unfold doCqResume
      rw [cqAction_hit hq hd (by rw [hst]; rfl), htrap]
      rfl
    exact act_modCq hc hlive hq hf
  case abort =>
    intro s d q c hc hlive hq hd hst htrap
    have htrap' : (s.modCq q.toNat (fun c => { c with state := 1 })).trappedUses q.toNat = [] := by
      rw [modCq_of_find hq]
      exact htrap
    have hf : doCqAbort d q s = s.modCq q.toNat (fun c => { c with state := 1 }) := by
      unfold doCqAbort
      rw [cqAction_hit hq hd (by rw [hst]; rfl), State.abortTrapped, htrap']
      rfl
    exact act_modCq hc hlive hq hf
  case flush =>
    intro s d q c g w hc hlive hq hd hst hidle hlost hgran hw hphase hfit hlen hslot hold
    obtain ⟨t, x, hdo, ha, hx, ⟨h1, h2, h3, h4, h5⟩, hreq⟩ := flush_one hq hd hst hidle hlost hgran hw hphase hfit hlen hslot hold
    refine ⟨t, act_of_alters hlive hc hdo ha, ?_, ?_, hreq, ha.ops, ha.hbm⟩
    · rw [hx, Option.map_some, h1, h2, h3, h4]
    · rw [hx, Option.map_some, h5]
  case admin =>
    intro s h v hc hlive hold hv hres hk hm hq
    have hf := regWrite_cqAdmin_makes hold hv hres hk hm hq
    obtain ⟨x, hx⟩ : ∃ x, x = s.setReg (.cqAdmin h) v := ⟨_, rfl⟩
    have hsx : x = { s with regs := x.regs } := by rw [hx]; rfl
    obtain ⟨c, hcn⟩ : ∃ c, c = Cq.new s.serial h.val 31 0 (2 * h.val) (fld v 5 1) (fld v 63 12 * 4096) 1 1 true false false 0 := ⟨_, rfl⟩
    rw [← hx, ← hcn] at hf
    have hsx' : s.Alters x [.regs, .cqs, .serial] (fun a => a = (Reg.cqAdmin h).addr) := hx ▸ .setReg s v rfl
    have hall := (hsx'.trans (.put_cqs x (tPut (adminQueue h) c s.cqs))).trans (.put_serial { x with cqs := tPut (adminQueue h) c s.cqs } (s.serial + 1))
    refine ⟨_, act_of_alters (f := (State.regWrite · .warden (.cqAdmin h) v)) hlive hc hf hall, ?_, ?_, ?_⟩
    · rw [← hcn]
      exact tFind_tPut_same ..
    · show x.reg (.cqAdmin h) = v
      rw [hx]
      exact reg_setReg_same ..
    · rw [hsx]

end Sys2Proof.Machine
end

section
/-! PROOFS. Commands that send queue their message on the flow to their rank (R118, R266). -/

namespace Sys2Proof.Machine

-- The proofs are elaborated one after another: in parallel their threads' stacks need more memory than a compile may have.
set_option Elab.async false

section

variable {s : State} {op opc fa pc f : Nat} {o : Op} {c : Cq} {item : SendItem} {rndv : Bool}

/-- A command that no earlier one to its peer precedes is not held back. -/
theorem sendTurn_of_next (hr : s.rank o.ctx (fld (o.w 1) 63 32) = .ok (fa, pc)) (hn : s.SendsNext o fa pc) (t : State) : s.sendTurn o t = t := by
  unfold State.sendTurn
  refine if_neg ?_
  rw [List.any_eq_true]
  rintro ⟨e, he, hb⟩
  have hpeer : (s.rank o.ctx (fld (o.words.getD 1 0) 63 32)).toOption = some (fa, pc) := congrArg Except.toOption hr
  simp only [Bool.and_eq_true, Bool.not_eq_true', decide_eq_true_eq, hpeer] at hb
  obtain ⟨⟨⟨⟨⟨⟨hperf, hadm⟩, hctx⟩, hlow⟩, hhigh⟩, hbefore⟩, hsame⟩ := hb
  rw [hctx] at hsame
  rcases hn e he with h | h | h | h | h | h | h
  · simp [h] at hperf
  · simp [h] at hadm
  · exact h hctx
  · have : hdrOp (e.2.words.getD 0 0) = 0 := h
    omega
  · have : 6 < hdrOp (e.2.words.getD 0 0) := h
    omega
  · omega
  · exact h hsame

/-- A command whose rank is found, on an existing flow, in its turn. -/
theorem sendCmd_enqueues (hr : s.rank o.ctx (fld (o.w 1) 63 32) = .ok (fa, pc)) (hf : s.findIfl o.ctx fa pc = some f) (hn : s.SendsNext o fa pc) :
    s.sendCmd op o item rndv = ((s.perform op).modOp op (fun o => { o with aux := b2n rndv })).enqueue f item := by
  have hflow : s.flowTo o.ctx fa pc = (some f, s) := by rw [State.flowTo, hf]
  rw [State.sendCmd, hr]
  simp only [hflow]
  rw [sendTurn_of_next hr hn]

/-- A message that carries no bytes of a local buffer is queued as it is. -/
theorem enqueue_of_not_carries (hc : item.carries = false) : s.enqueue f item = s.modIfl f fun x => { x with queue := x.queue ++ [item] } := by
  have hfeed : s.feedItem f item = (item, s) := by
    unfold State.feedItem
    rw [if_pos (by rw [hc]; rfl)]
  rw [State.enqueue, hfeed]

theorem act_fin {b : Block} {g : State → State} {t : State} (hlive : s.live b = true) (hg : g s = t) : s.act b g = .next t.fin := by
  rw [State.act, if_pos hlive, hg]

theorem ifl_modIfl_same (s : State) (n : Nat) (g : IFlow → IFlow) : tFind (s.modIfl n g).ifl n = (tFind s.ifl n).map g := by
  unfold State.modIfl
  cases h : tFind s.ifl n with
  | none => simpa using h
  | some x => simp [tFind_tPut_same]

theorem State.Alters.modIfl {F : List Field} {P : Nat → Prop} (s : State) (n : Nat) (g : IFlow → IFlow) (hF : .ifl ∈ F := by decide) :
    s.Alters (s.modIfl n g) F P := by
  unfold State.modIfl
  split
  · exact put_ifl s _ hF
  · exact refl s

theorem modIfl_eq (s : State) (n : Nat) (g : IFlow → IFlow) : s.modIfl n g = { s with ifl := (s.modIfl n g).ifl } := by
  unfold State.modIfl
  split <;> rfl

theorem modOp_eq (s : State) (n : Nat) (g : Op → Op) : s.modOp n g = { s with ops := (s.modOp n g).ops } := by
  unfold State.modOp
  split <;> rfl

/-- A command whose message carries no bytes of a local buffer: the message waits on its flow, and the command is performed. -/
theorem act_queues {bad : Op → Bool} {k : Op → State → State} (hs : s.Starts op opc o c) (hbad : bad o = false)
    (hr : s.rank o.ctx (fld (o.w 1) 63 32) = .ok (fa, pc)) (hf : s.findIfl o.ctx fa pc = some f) (hn : s.SendsNext o fa pc)
    (hcar : item.carries = false) (hk : k o s = s.sendCmd op o item rndv) :
    ∃ t, s.act (.domain 0) (State.checked · op opc bad k) = .next t ∧
      (tFind t.ifl f).map (fun x => x.queue) = (tFind s.ifl f).map (fun x => x.queue ++ [item]) ∧
      (tFind t.ops op).map (fun x => (x.performed, x.aux)) = some (true, b2n rndv) ∧ t = { s with ops := t.ops, ifl := t.ifl } := by
  have hdo := checked_of_starts hs hbad k
  rw [hk, sendCmd_enqueues hr hf hn, enqueue_of_not_carries hcar] at hdo
  obtain ⟨hc, hlive, -, ⟨hop, -⟩, -⟩ := hs
  obtain ⟨u, hu⟩ : ∃ u, u = (s.perform op).modOp op (fun o => { o with aux := b2n rndv }) := ⟨_, rfl⟩
  have hsu : s.Alters u [.ops] (fun _ => False) := by
    rw [hu]
    exact (State.Alters.modOp s op _).trans (.modOp _ op _)
  have hops : tFind u.ops op = some { o with performed := true, aux := b2n rndv } := by
    rw [hu, ops_modOp_same, State.perform, ops_modOp_same, hop]
    rfl
  have hueq : u = { s with ops := u.ops } := by
    have hp := modOp_eq s op (fun o => { o with performed := true })
    have hu' := modOp_eq (s.perform op) op (fun o => { o with aux := b2n rndv })
    rw [← hu, State.perform, hp] at hu'
    exact hu'
  rw [← hu] at hdo
  have hut : u.Alters (u.modIfl f fun x => { x with queue := x.queue ++ [item] }) [.ifl] (fun _ => False) := .modIfl ..
  refine ⟨_, act_of_alters hlive hc hdo (F := [.ops, .ifl]) (hsu.mono.trans hut.mono), ?_, ?_, ?_⟩
  · rw [ifl_modIfl_same, hsu.ifl, Option.map_map]
    rfl
  · rw [hut.ops, hops]
    rfl
  · rw [modIfl_eq, hueq]

/-- A command whose message may carry bytes of a local buffer: what its queuing leaves is done within the command. -/
theorem act_enqueues {bad : Op → Bool} {k : Op → State → State} (hs : s.Starts op opc o c) (hbad : bad o = false)
    (hr : s.rank o.ctx (fld (o.w 1) 63 32) = .ok (fa, pc)) (hf : s.findIfl o.ctx fa pc = some f) (hn : s.SendsNext o fa pc)
    (hk : k o s = s.sendCmd op o item rndv) :
    s.act (.domain 0) (State.checked · op opc bad k) =
      .next (((s.perform op).modOp op (fun o => { o with aux := b2n rndv })).enqueue f item).fin :=
  act_fin hs.2.1 ((checked_of_starts hs hbad k).trans (hk.trans (sendCmd_enqueues hr hf hn)))

end

/-- Settles O26: the message of a sending command waits on the flow to its rank. -/
theorem sendingCommandsQueueTheirMessages : Obligations.SendingCommandsQueueTheirMessages := by
  unfold Obligations.SendingCommandsQueueTheirMessages
  refine ⟨?put, ?putInline, ?get, ?eager, ?rts, ?sendInline, ?atomic⟩
  case put =>
    intro s op fa pc f o c hs hr hf hn
    exact act_enqueues (item := o.item op 1) (rndv := false) hs (bad := noBad) rfl hr hf hn
      (k := fun o s => s.sendCmd op o (o.item op 1) false) rfl
  case putInline =>
    intro s op fa pc f o c hs hlen hr hf hn
    exact act_enqueues (item := { o.item op 1 with inline_ := some o.payload }) (rndv := false) hs (bad := inlineBad)
      (decide_eq_false (Nat.not_lt.2 hlen)) hr hf hn (k := fun o s => s.sendCmd op o { o.item op 1 with inline_ := some o.payload } false) rfl
  case get =>
    intro s op fa pc f o c hs hr hf hn
    obtain ⟨t, ht, hq, hop, hall⟩ := act_queues (item := o.item op 2) (rndv := false) hs (bad := noBad) rfl hr hf hn rfl
      (k := fun o s => s.sendCmd op o (o.item op 2) false) rfl
    refine ⟨t, ht, hq, ?_, hall⟩
    have := congrArg (Option.map Prod.fst) hop
    rwa [Option.map_map] at this
  case eager =>
    intro s op fa pc f o c hs hlen hr hf hn
    exact act_enqueues (item := s.sendItemOf o op) (rndv := false) hs (bad := noBad) rfl hr hf hn (k := fun o s =>
      if fld (s.ctxWord o.ctx 8) 31 0 < o.length then s.sendCmd op o (s.rtsItemOf o op) true else s.sendCmd op o (s.sendItemOf o op) false) (if_neg (Nat.not_lt.2 hlen))
  case rts =>
    intro s op fa pc f o c hs hlen hr hf hn
    have hcar : (s.rtsItemOf o op).carries = false := by
      unfold SendItem.carries
      have hne : (s.rtsItemOf o op).payload ≠ [] := by
        show beBytes 8 (o.w 2).toNat ++ _ ≠ []
        exact List.append_ne_nil_of_left_ne_nil (List.ne_nil_of_length_pos (by rw [beBytes_length]; decide)) _
      rw [decide_eq_false hne, Bool.and_false]
    exact act_queues (item := s.rtsItemOf o op) (rndv := true) hs (bad := noBad) rfl hr hf hn hcar (k := fun o s =>
      if fld (s.ctxWord o.ctx 8) 31 0 < o.length then s.sendCmd op o (s.rtsItemOf o op) true else s.sendCmd op o (s.sendItemOf o op) false) (if_pos hlen)
  case sendInline =>
    intro s op fa pc f o c hs hlen hr hf hn
    exact act_enqueues (item := { s.sendItemOf o op with inline_ := some o.payload }) (rndv := false) hs (bad := inlineBad)
      (decide_eq_false (Nat.not_lt.2 hlen)) hr hf hn (k := fun o s => s.sendCmd op o { s.sendItemOf o op with inline_ := some o.payload } false) rfl
  case atomic =>
    intro s op fa pc f o c hs hop hty hr hf hn
    obtain ⟨item, hitem⟩ : ∃ item : Op → SendItem, item = fun o => { o.item op 4 with
        tag := atomicCode o, mlen := 0, payload := beBytes 8 (o.w 5).toNat ++ beBytes 8 (o.w 6).toNat } := ⟨_, rfl⟩
    obtain ⟨t, ht, hq, hop', hall⟩ := act_queues (item := item o) (rndv := false) hs (bad := atomicBad) (decide_eq_false (by omega)) hr hf hn
      (by rw [hitem]; rfl) (k := fun o s => s.sendCmd op o (item o) false) rfl
    subst hitem
    refine ⟨t, ht, hq.trans ?_, ?_, hall⟩
    · rw [show 16 * fld (o.w 3) 23 20 + fld (o.w 3) 31 24 = atomicCode o from by rw [atomicCode, Nat.mul_comm]]
      rfl
    · have := congrArg (Option.map Prod.fst) hop'
      rwa [Option.map_map] at this

end Sys2Proof.Machine
end

section
/-! PROOFS. The fence of an engine whose fault is posted on the link of the command that it ends (R460, R465). -/

namespace Sys2Proof.Machine

-- The proofs are elaborated one after another: in parallel their threads' stacks need more memory than a compile may have.
set_option Elab.async false

/-- A COLL of context 9, in slot 0 of its queue 7, performed. -/
def lostOp : Op := { armingOp with words := [mkWord 64 [(58, 51, 0x0C)], mkWord 64 [(27, 16, 0xFFF)], 0, 0, 0, 0, 0, 0], performed := true }

/-- The contribution of that command. -/
def lostMember : ClIn := { op := some 20 }

/-- Its instance, at engine 0. -/
def lostInst : ClInst :=
  { engine := 0, dom := 0, group := 5, n := 0, op := 0, ty := 0, mode := 0, count := 1, since := 0, next := 0, members := [(0, lostMember)], kids := [],
    flags := 0, result := 0, downs := [] }

/-- The management event queue of link 1, with both banks released. -/
def mgmtEq : Eq :=
  { fn := 31, vector := 0, home := 0, link := 1, base := 0x20000, rel0 := true, rel1 := true, wpos := 0, armed := false, drops := 0, dead := false }

/-- The part with that instance active, where FT_INTR of engine 0 names link 1. -/
def losingState : State :=
  let s : State :=
    { State.reset with
      coreOn := true, pins := { resetL := true }, cqs := [(7, armingCq)], ctxs := [(9, armingCtx)], ops := [(20, lostOp)], insts := [(30, lostInst)],
      eqs := [(3, mgmtEq)], serial := 50 }
  (((s.wf (.llStatus (.host 1)) 3 0 3).wf (.ftIntr (.coll 0)) 2 0 1).wb (.ftIntr (.coll 0)) 63 true).setReg (.hlMgmtEq 1)
    (mkWord 64 [(63, 63, 1), (17, 0, 3)])

theorem losingState_loses : losingState.Calm ∧ (losingState.live (.coll 0) = true ∧ losingState.domRuns ((0 : Engine).val / 4) = true) ∧
    (0 : Engine).val ∉ losingState.engOff ∧ losingState.insts = [(30, lostInst)] ∧ losingState.Plain 20 lostOp armingCq ∧
    (losingState.tl armingCq.link).reqQ = [] := by decide +kernel

/-- Behind the completion of the command goes the record of the fault. -/
theorem losingState_posts : (match exec (.engineFenced 0) losingState with
    | .next t => (t.tl 1).reqQ.length
    | _ => 0) = 2 := by decide +kernel

/-- Refutes O43: where the fence of an engine is reported on a link, the completion of the command that it ends is not all that goes on it. -/
theorem not_groupsAreInstalledAndEnded : ¬ Obligations.GroupsAreInstalledAndEnded := by
  intro h
  obtain ⟨-, -, -, -, -, -, -, -, hfence, -, -⟩ := h
  obtain ⟨hc, hlive, hon, hi, hp, hq⟩ := losingState_loses
  obtain ⟨t, he, -, -, -, hreq, -⟩ := hfence losingState 0 30 0 20 lostInst lostMember lostOp armingCq hc hlive hon hi ⟨rfl, rfl, rfl⟩ ⟨rfl, rfl, rfl⟩ hp
    (by decide)
  have hlen := losingState_posts
  rw [he] at hlen
  have hone : (t.tl 1).reqQ.length = 1 := by
    rw [show (1 : Nat) = armingCq.link from rfl, hreq, hq]
    rfl
  exact absurd (hone.symm.trans hlen) (by decide)

end Sys2Proof.Machine
end

section
/-! PROOFS. Receives posted, probes and cancels (R236, R253, R254). -/

namespace Sys2Proof.Machine

-- The proofs are elaborated one after another: in parallel their threads' stacks need more memory than a compile may have.
set_option Elab.async false

section

variable {s : State} {op : Nat} {o : Op} {c : Cq}

/-! ### A completion with result words (R177) -/

theorem putCpl_cqs {q count : Nat} {ws : List (Nat × List Byte)} (hq : tFind s.cqs q = some c) :
    tFind (s.putCpl q c count ws []).cqs q = some (c.closeEntry count) := by
  unfold State.putCpl
  simp only [List.filter_nil, if_true, List.foldl_nil]
  obtain ⟨u, hu⟩ : ∃ u, u = ws.dropLast.foldl (fun t w =>
      t.hostWrite c.link (if c.admin then 31 else c.fn) (if c.admin then none else some c.ctx) w.1 w.2 .none) s := ⟨_, rfl⟩
  have hsu : s.Alters u [.ht] (fun _ => False) := by
    rw [hu]
    exact State.Alters.foldl (fun _ _ => .hostWrite ..) _ _
  rw [← hu, cqs_modCq_same]
  have huq : tFind u.cqs q = some c := by rw [hsu.cqs, hq]
  cases ws.getLast? with
  | none => rw [huq, Option.map_some]
  | some w =>
    have hw : u.Alters (u.hostWrite c.link (if c.admin then 31 else c.fn) (if c.admin then none else some c.ctx) w.1 w.2 .none) [.ht]
        (fun _ => False) := .hostWrite ..
    rw [hw.cqs, huq, Option.map_some]

/-- A command of an entry that raises no counter and asks for no event completes with its result words. -/
theorem endOp_eq (hp : s.Plain op o c) (hct : o.Countless) (status detail : Nat) (ws : List (Nat × List Byte)) :
    s.endOp op status detail ws = State.putCpl { s with ops := tDel op s.ops } o.queue c o.count
      (ws ++ [(c.slotAddr o.count, leBytes 8 (cplHeader (o.w 0) status detail).toNat)]) [] := by
  obtain ⟨hop, hsrc, hq, hdying, hflush, hlost, hev, hrun, hdom, hslot⟩ := hp
  have hbound : s.bound o.ctx 2 = false := by
    unfold State.bound
    simp only [show (63 - 2 : Nat) = 61 from rfl, hrun, Bool.false_and]
  obtain ⟨t, ht⟩ : ∃ t, t = ({ s with ops := tDel op s.ops } : State) := ⟨_, rfl⟩
  have hlost' : t.hlLost c.link = false := by rw [ht]; exact hlost
  have hct' : (raisesCt (hdrOp (o.words.getD 0 0)) && !o.admin) = false ∨ cmdCt o.words = 0xFFF :=
    hct.imp_left fun h => by rw [show hdrOp (o.words.getD 0 0) = hdrOp (o.w 0) from rfl, h, Bool.false_and]
  obtain ⟨u, hu⟩ : ∃ u, u = t.putCpl o.queue c o.count (ws ++ [(c.slotAddr o.count, leBytes 8 (cplHeader (o.w 0) status detail).toNat)]) [] :=
    ⟨_, rfl⟩
  have hw : t.writeCpl o.queue c o.count (ws ++ [(c.slotAddr o.count, leBytes 8 (cplHeader (o.words.getD 0 0) status detail).toNat)]) [] = u := by
    rw [State.writeCpl, if_neg (by simp [hlost']), hu]
    rfl
  have hend : s.endOp1 op status detail ws = u := by
    have hbound' : t.bound o.ctx 2 = false := by rw [ht]; exact hbound
    have hev' : hdrEvent (o.words.getD 0 0) = false := hev
    unfold State.endOp1
    simp only [hop, hsrc, hq, ← ht, hbound', hev', Bool.and_false, Bool.false_and, Bool.false_eq_true, if_false, List.append_nil, hw]
    rcases hct' with h | h
    · rw [h, if_neg (by decide)]
    · rw [h, State.ctAdd, ctOk_none]
      simp
  have hcq : tFind u.cqs o.queue = some (c.closeEntry o.count) := by
    rw [hu]
    exact putCpl_cqs (by rw [ht]; exact hq)
  have hsame := c.closeEntry_sameBut o.count
  unfold State.endOp
  rw [hop]
  simp only
  rw [hend, State.settleQueue, queueIdle_of_calm hcq (hsame.dying.trans hdying) (hsame.flushing.trans hflush), hu, ht]

/-- A result of one piece and the header are two requests on the ring's link. -/
theorem putCpl_result {q count a b : Nat} {bs w : List Byte} (hlost : s.hlLost c.link = false) (hadm : c.admin = false) (hn : 0 < bs.length)
    (ha : a % 4096 + bs.length ≤ 4096) (hw : w.length = 8) (hb : b % 4096 ≤ 4088) {t : State} (ht : t = s.putCpl q c count [(a, bs), (b, w)] []) :
    (t.tl c.link).reqQ = (s.tl c.link).reqQ ++ [.wr ⟨a, bs, false, some c.ctx, c.fn, 0, .none⟩, .wr ⟨b, w, false, some c.ctx, c.fn, 0, .none⟩] ∧
      s.Alters t [.ht, .cqs] (fun _ => False) := by
  have hput : t = ((s.sendReq c.link (.wr ⟨a, bs, false, some c.ctx, c.fn, 0, .none⟩)).sendReq c.link
      (.wr ⟨b, w, false, some c.ctx, c.fn, 0, .none⟩)).modCq q fun c => c.closeEntry count := by
    rw [ht]
    unfold State.putCpl
    simp only [List.filter_nil, if_true, List.foldl_nil, hadm, Bool.false_eq_true, if_false]
    show State.modCq (State.hostWrite (State.hostWrite s c.link c.fn (some c.ctx) a bs .none) c.link c.fn (some c.ctx) b w .none) _ _ = _
    rw [hostWrite_one hn ha, hostWrite_one (by omega) (by omega)]
  obtain ⟨u, hu⟩ : ∃ u, u = s.sendReq c.link (.wr ⟨a, bs, false, some c.ctx, c.fn, 0, .none⟩) := ⟨_, rfl⟩
  have hsu : s.Alters u [.ht] (fun _ => False) := hu ▸ .sendReq ..
  have hulost : u.hlLost c.link = false := by rw [hlLost_of_alters hsu (fun _ => id)]; exact hlost
  obtain ⟨v, hv⟩ : ∃ v, v = u.sendReq c.link (.wr ⟨b, w, false, some c.ctx, c.fn, 0, .none⟩) := ⟨_, rfl⟩
  have huv : u.Alters v [.ht] (fun _ => False) := hv ▸ .sendReq ..
  rw [← hu, ← hv] at hput
  have hvt : v.Alters t [.cqs] (fun _ => False) := hput ▸ .modCq ..
  refine ⟨?_, (hsu.mono.trans huv.mono).trans hvt.mono⟩
  rw [State.tl, hvt.ht, ← State.tl, hv, sendReq_of_up hulost, tl_modTl_same, hu, sendReq_of_up hlost, tl_modTl_same]
  simp only [List.append_assoc, List.cons_append, List.nil_append]

/-! ### Receives and probes in their turn (R236, R253) -/

theorem findUx_of_mes {t : State} (h : t.mes = s.mes) (k r g m : Nat) : t.findUx k r g m = s.findUx k r g m := by
  unfold State.findUx
  rw [h]

theorem queueDying_of_cqs {t : State} (h : t.cqs = s.cqs) (o : Op) : t.queueDying o = s.queueDying o := by
  unfold State.queueDying
  rw [h]

theorem slots_of_mes {t : State} (h : t.mes = s.mes) (he : t.ctxEast = s.ctxEast) (k : Nat) (ux : Bool) : t.slots k ux = s.slots k ux := by
  unfold State.slots State.ctxDom
  rw [h, he]

/-- A command that reaches the matching unit in its turn. -/
theorem inTurn_of_order (hop : tFind s.ops op = some o) (ho : s.inOrder o = true) (t : State) : s.inTurn op t = t := by
  rw [State.inTurn, hop]
  exact if_pos ho

/-- One that comes before an earlier one of its queue has no effect yet. -/
theorem inTurn_of_early (hop : tFind s.ops op = some o) (ho : s.inOrder o = false) (t : State) : s.inTurn op t = s := by
  rw [State.inTurn, hop]
  exact if_neg (by rw [ho]; decide)

/-- The match entry of a receive that is posted (R236). -/
def Op.posted (o : Op) (op slot seq : Nat) : Me :=
  { Me.blank o.ctx 1 with
    cls := recvClass (fld (o.w 1) 63 32) (o.w 5).toNat, slot := slot, rank := fld (o.w 1) 63 32, tag := (o.w 4).toNat, mask := (o.w 5).toNat,
    seq := seq, buffer := (o.w 2).toNat, bufLen := fld (o.w 3) 31 0, ct := cmdCt o.words, op := op }

/-- The registers in which the matching unit counts. -/
def MatchAt (a : Nat) : Prop := (∃ b i, a = (Reg.pmCnt b i).addr) ∨ ∃ d, a = (Reg.mtPool d).addr

theorem postRecv_posts {x : Ctx} (hx : s.ctx? o.ctx = some x) (hd : s.queueDying o = false)
    (hux : s.findUx o.ctx (fld (o.w 1) 63 32) (o.w 4).toNat (o.w 5).toNat = none) {t : State} (ht : t = s.postRecv op o) :
    tFind t.mes s.serial = some (o.posted op (lowestFree (s.slots o.ctx false)) x.postSeq) ∧
      (t.ctx? o.ctx).map (fun y => y.postSeq) = some ((x.postSeq + 1) % 2 ^ 48) ∧ t.serial = s.serial + 1 ∧
      s.Alters t [.regs, .mes, .serial, .ctxs] MatchAt := by
  obtain ⟨u, hu⟩ : ∃ u, u = s.pm (.stall (stallOf (s.ctxStall o.ctx))) 0x24 o.ctx 1 := ⟨_, rfl⟩
  have hsu : s.Alters u [.regs] MatchAt := hu ▸ .pm _ _ _ _ _ fun i => .inl ⟨_, i, rfl⟩
  have hxu : u.ctx? o.ctx = some x := by rw [State.ctx?, hsu.ctxs]; exact hx
  obtain ⟨e, he⟩ : ∃ e, e = o.posted op (lowestFree (s.slots o.ctx false)) x.postSeq := ⟨_, rfl⟩
  obtain ⟨v, hv⟩ : ∃ v, v = ({ u with mes := tPut u.serial e u.mes, serial := u.serial + 1 } : State) := ⟨_, rfl⟩
  obtain ⟨w, hw⟩ : ∃ w, w = v.modCtx o.ctx (fun x => { x with postSeq := wrap 48 (x.postSeq + 1) }) := ⟨_, rfl⟩
  have ht' : t = w.meFree o.ctx false := by
    rw [ht, State.postRecv, ← hu]
    simp only [show u.findUx o.ctx (fld (o.words.getD 1 0) 63 32) (o.words.getD 4 0).toNat (o.words.getD 5 0).toNat = none from
      (findUx_of_mes hsu.mes ..).trans hux, hxu, queueDying_of_cqs hsu.cqs, hd, Bool.false_eq_true, if_false, slots_of_mes hsu.mes hsu.ctxEast]
    rw [hw, hv, he]
    rfl
  have huv : u.Alters v [.mes, .serial] (fun _ => False) := by
    rw [hv]
    exact (State.Alters.put_mes u _).trans (.put_serial { u with mes := tPut u.serial e u.mes } _)
  have hvw : v.Alters w [.ctxs] (fun _ => False) := hw ▸ .modCtx ..
  have hwt : w.Alters t [.regs] MatchAt := by
    rw [ht']
    exact .setReg w _ (.inr ⟨_, rfl⟩)
  refine ⟨?_, ?_, ?_, (hsu.mono.trans (huv.mono (by decide) (fun _ => False.elim))).trans ((hvw.mono (by decide) (fun _ => False.elim)).trans hwt.mono)⟩
  · rw [hwt.mes, hvw.mes, hv, ← hsu.serial, ← he]
    exact tFind_tPut_same ..
  · rw [State.ctx?, hwt.ctxs, ← State.ctx?, hw, ctx?_modCtx_same, show v.ctx? o.ctx = some x from by rw [State.ctx?, huv.ctxs]; exact hxu]
    rfl
  · rw [hwt.serial, hvw.serial, hv, hsu.serial]

/-! ### MT_CANCEL (R254, R257) -/

/-- A field of two bits under a cleared bit 63. -/
theorem fld_answer (w : Word) {v : Nat} (hv : v < 4) : fld (setBit (setFld w 62 61 v) 63 false) 63 61 = v := by
  apply Nat.eq_of_testBit_eq
  intro i
  rw [testBit_fld, setBit]
  by_cases hi : i < 3
  · rw [getLsbD_setFld _ _ _ _ _ (by omega), getLsbD_setFld _ _ _ _ _ (by omega)]
    interval_cases i <;> simp
    exact Nat.testBit_lt_two_pow (show v < 2 ^ 2 from hv)
  · have : v.testBit i = false := Nat.testBit_lt_two_pow (lt_of_lt_of_le (show v < 2 ^ 2 from hv) (Nat.pow_le_pow_right (by decide) (by omega)))
    simp [this, hi]

/-- MT_CANCEL's answer. -/
def State.cancelled (s : State) (d : Dom) (v : Nat) : State := (s.wf (.mtCancel d) 62 61 v).wb (.mtCancel d) 63 false

theorem cancelled_spec (s : State) (d : Dom) {v : Nat} (hv : v < 4) {t : State} (ht : t = s.cancelled d v) :
    t.rf (.mtCancel d) 63 61 = v ∧ t.rf (.mtCancel d) 60 41 = s.rf (.mtCancel d) 60 41 ∧ t.rf (.mtCancel d) 40 21 = s.rf (.mtCancel d) 40 21 ∧
      s.Alters t [.regs] (fun a => a = (Reg.mtCancel d).addr) ∧ t = { s with regs := t.regs } := by
  obtain ⟨r, hr⟩ : ∃ r, r = Reg.mtCancel d := ⟨_, rfl⟩
  have ht' : t = (s.setReg r (setFld (s.reg r) 62 61 v)).wb r 63 false := by rw [ht, hr]; rfl
  have hreg : t.reg r = setBit (setFld (s.reg r) 62 61 v) 63 false := by
    rw [ht', State.wb, State.wf, reg_setReg_same, reg_setReg_same]
    rfl
  rw [← hr]
  refine ⟨by rw [State.rf, hreg, fld_answer _ hv], ?_, ?_, ?_, ?_⟩
  · rw [State.rf, hreg, setBit, fld_setFld_other _ _ _ _ _ _ (by decide) (.inr (by decide)), fld_setFld_other _ _ _ _ _ _ (by decide) (.inr (by decide)),
      State.rf]
  · rw [State.rf, hreg, setBit, fld_setFld_other _ _ _ _ _ _ (by decide) (.inr (by decide)), fld_setFld_other _ _ _ _ _ _ (by decide) (.inr (by decide)),
      State.rf]
  · rw [ht']
    exact (State.Alters.setReg (F := [.regs]) (P := fun a => a = r.addr) s _ rfl).trans (.setReg _ _ rfl)
  · rw [ht']
    rfl

/-- MT_CANCEL's register names what is to be cancelled. -/
def State.cancels (s : State) (d : Dom) (q slot : BitVec 20) : State := (s.wf (.mtCancel d) 60 41 q.toNat).wf (.mtCancel d) 40 21 slot.toNat

theorem cancels_spec (s : State) (d : Dom) (q slot : BitVec 20) {t : State} (ht : t = s.cancels d q slot) :
    t.rf (.mtCancel d) 60 41 = q.toNat ∧ t.rf (.mtCancel d) 40 21 = slot.toNat ∧ s.Alters t [.regs] (fun a => a = (Reg.mtCancel d).addr) ∧
      t = { s with regs := t.regs } := by
  obtain ⟨r, hr⟩ : ∃ r, r = Reg.mtCancel d := ⟨_, rfl⟩
  have ht' : t = (s.wf r 60 41 q.toNat).wf r 40 21 slot.toNat := by rw [ht, hr]; rfl
  rw [← hr]
  refine ⟨?_, ?_, ?_, ?_⟩
  · rw [ht', State.wf, State.rf, reg_setReg_same, fld_setFld_other _ _ _ _ _ _ (by decide) (.inl (by decide)), ← State.rf,
      rf_wf_same _ _ _ _ _ (by decide)]
    exact Nat.mod_eq_of_lt q.isLt
  · rw [ht', rf_wf_same _ _ _ _ _ (by decide)]
    exact Nat.mod_eq_of_lt slot.isLt
  · rw [ht']
    exact (State.Alters.setReg (F := [.regs]) (P := fun a => a = r.addr) s _ rfl).trans (.setReg _ _ rfl)
  · rw [ht']
    rfl

theorem doMtCancel_eq (d : Dom) (q slot : BitVec 20) : doMtCancel d q slot s =
    let u := s.cancels d q slot
    let home := match tFind u.cqs q.toNat with
      | some c => decide (u.cqDom c = d.val)
      | none => false
    let t := if home then u.removePosted q.toNat (some slot.toNat) else (u, 0)
    t.1.cancelled d (if t.2 = 0 then 2 else 1) := rfl

theorem removePosted_of_empty (hm : s.mes = []) (q : Nat) (slot : Option Nat) : s.removePosted q slot = (s, 0) := by
  unfold State.removePosted
  split
  · rfl
  · rw [hm]
    rfl

/-- The pools of match entries and of blocks. -/
def PoolAt (a : Nat) : Prop := ∃ d, a = (Reg.mtPool d).addr

/-- A POSTED entry without blocks freed (R255). -/
theorem freeMe_posted {m : Nat} {x : Me} (hm : s.mes = [(m, x)]) (hk : x.kind = 1) (hb : x.blocks = []) {t : State} (ht : t = s.freeMe m) :
    t.mes = [] ∧ s.Alters t [.mes, .regs] PoolAt := by
  have hfind : tFind s.mes m = some x := by
    rw [hm]
    simp [tFind]
  obtain ⟨u, hu⟩ : ∃ u, u = ({ s with mes := tDel m s.mes } : State) := ⟨_, rfl⟩
  have hsu : s.Alters u [.mes] (fun _ => False) := hu ▸ .put_mes s _
  have ht' : t = u.meFree x.ctx true := by
    rw [ht, State.freeMe, hfind]
    simp only [hb, ne_eq, not_true_eq_false, if_false, hk, true_or, if_true, ← hu]
  have hut : u.Alters t [.regs] PoolAt := by
    rw [ht']
    exact .setReg u _ ⟨_, rfl⟩
  refine ⟨?_, (hsu.mono (by decide) (fun _ => False.elim)).trans hut.mono⟩
  rw [hut.mes, hu, hm]
  simp [tDel]

/-- What a completion depends on stays where no register of a link's or domain's state changes. -/
theorem plain_of_alters_regs {t : State} {F : List Field} {P : Nat → Prop} (hp : s.Plain op o c) (h : s.Alters t F P)
    (hll : ∀ l, ¬ P (Reg.llStatus (.host l)).addr) (hcs : ∀ d, ¬ P (Reg.csStatus d).addr)
    (hF : [Field.cqs, .ctxs, .ops].all (fun f => decide (f ∉ F)) = true := by decide) : t.Plain op o c := by
  obtain ⟨hop, hsrc, hq, hdying, hflush, hlost, hev, hrun, hdom, hslot⟩ := hp
  simp only [List.all_cons, List.all_nil, Bool.and_true, Bool.and_eq_true, decide_eq_true_eq] at hF
  obtain ⟨hcqs, hctxs, hops⟩ := hF
  refine ⟨by rw [h.ops hops]; exact hop, hsrc, by rw [h.cqs hcqs]; exact hq, hdying, hflush, by rw [hlLost_of_alters h hll]; exact hlost, hev,
    by rw [ctxWord_of_ctxs (h.ctxs hctxs)]; exact hrun, ?_, hslot⟩
  rw [State.domRuns, State.domState, h.rf (hcs _)]
  exact hdom

/-- The only match entry, a POSTED one of the queue and slot, removed. -/
theorem removePosted_one {m q slot : Nat} {x : Me} (hm : s.mes = [(m, x)]) (hk : x.kind = 1) (hq : tFind s.cqs q = some c)
    (hop : tFind s.ops x.op = some o) (hsrc : o.src = .entry) (hoq : o.queue = q) (hslot : c.slot o.count = slot) :
    s.removePosted q (some slot) =
      (((s.freeMe m).endOp x.op 0x0F 0x01 []).bump (.mtCount (stallOf (s.ctxStall x.ctx))) 15 0 1, 1) := by
  unfold State.removePosted
  rw [hq]
  simp only [hm, List.filter_cons, hk, hop, hsrc, hoq, hslot, decide_true, Bool.and_self, if_true, List.filter_nil, List.foldl_cons,
    List.foldl_nil, List.length_singleton]

end

/-- Settles O28: a receive is posted in its turn, a probe answers, and a cancel removes the receive that it names. -/
theorem receivesProbesAndCancels : Obligations.ReceivesProbesAndCancels := by
  unfold Obligations.ReceivesProbesAndCancels
  refine ⟨?post, ?early, ?none, ?found, ?nothing, ?cancel⟩
  case post =>
    rintro s op o c x hs hx ⟨horder, hfits, hdy⟩ hux
    have hop := hs.2.2.2.1.1
    obtain ⟨u, hu⟩ : ∃ u, u = s.perform op := ⟨_, rfl⟩
    have hsu : s.Alters u [.ops] (fun _ => False) := hu ▸ perform_alters s op
    obtain ⟨t, ht⟩ : ∃ t, t = u.postRecv op o := ⟨_, rfl⟩
    obtain ⟨hme, hctx, hser, hut⟩ := postRecv_posts (o := o) (op := op) (x := x) (by rw [State.ctx?, hsu.ctxs]; exact hx)
      (by rw [queueDying_of_cqs hsu.cqs]; exact hdy) (by rw [findUx_of_mes hsu.mes]; exact hux) ht
    have hdo : doRecvPost op s = t := by
      unfold doRecvPost
      rw [inTurn_of_order hop horder, checked_of_starts hs rfl, State.recvFits, hfits, Bool.true_or, if_pos rfl, ← hu, ht]
    have hall : s.Alters t [.ops, .regs, .mes, .serial, .ctxs] MatchAt := (hsu.mono (by decide) (fun _ => False.elim)).trans hut.mono
    refine ⟨t, act_of_alters hs.2.1 hs.1 hdo hall, ?_, hctx, ?_, ?_, by rw [State.tl, hall.ht]; rfl, hall.hbm⟩
    · rw [← hsu.serial, hme, slots_of_mes hsu.mes hsu.ctxEast]
      rfl
    · rw [hut.ops, hu, State.perform, ops_modOp_same, hop]
      rfl
    · rw [hser, hsu.serial]
  case early =>
    intro s op o hc hop horder
    have hdo : doRecvPost op s = s := inTurn_of_early hop horder _
    by_cases hlive : s.live (.domain 0) = true
    · exact act_of_alters (F := []) (P := fun _ => False) hlive hc hdo (.refl s)
    · exact congrArg Host.Outcome.next (if_neg hlive)
  case none =>
    intro s op o c hs horder hct hux
    have hf : doProbe op s = (s.perform op).done op 0 := by
      unfold doProbe
      rw [inTurn_of_order hs.2.2.2.1.1 horder, checked_of_starts hs rfl]
      unfold State.probeEnds
      simp only [show (s.perform op).findUx o.ctx (fld (o.words.getD 1 0) 63 32) (o.words.getD 4 0).toNat (o.words.getD 5 0).toNat = none from
        (findUx_of_mes (perform_alters s op).mes ..).trans hux]
      rfl
    obtain ⟨t, ht, hops, hreq, -, ha⟩ := act_completes hs.1 hs.2.1 hs.2.2.2.1 (.inr hct) hf
    exact ⟨t, ht, hops, hreq, ha.mes, ha.hbm⟩
  case found =>
    intro s op m o c x hs horder hct hux hm hfit hadm
    obtain ⟨u, hu⟩ : ∃ u, u = s.perform op := ⟨_, rfl⟩
    have hsu : s.Alters u [.ops] (fun _ => False) := hu ▸ perform_alters s op
    have hp : u.Plain op o.done c := hu ▸ plain_perform hs.2.2.2.1
    obtain ⟨-, hsrc, hq, -, -, hlost, -, -, -, hslot⟩ := id hp
    obtain ⟨v, hv⟩ : ∃ v, v = ({ u with ops := tDel op u.ops } : State) := ⟨_, rfl⟩
    have huv : u.Alters v [.ops] (fun _ => False) := hv ▸ .put_ops u _
    have hvlost : v.hlLost c.link = false := by rw [hlLost_of_alters huv (fun _ => id)]; exact hlost
    obtain ⟨bs, hbs⟩ : ∃ bs, bs = leBytes 8 (x.rank * 2 ^ 32 + x.mlen) ++ leBytes 8 x.tag := ⟨_, rfl⟩
    have hlen : bs.length = 16 := by rw [hbs, List.length_append, leBytes_length, leBytes_length]
    obtain ⟨t, ht⟩ : ∃ t, t = v.putCpl o.queue c o.count [(c.slotAddr o.count + 24, bs), (c.slotAddr o.count, leBytes 8 (cplHeader (o.w 0) 0 1).toNat)] [] :=
      ⟨_, rfl⟩
    obtain ⟨hreq, hvt⟩ := putCpl_result hvlost hadm (by omega) (by omega) (leBytes_length ..) hslot ht
    have hdo : doProbe op s = t := by
      unfold doProbe
      rw [inTurn_of_order hs.2.2.2.1.1 horder, checked_of_starts hs rfl, ← hu]
      unfold State.probeEnds State.entryAddr
      simp only [show u.findUx o.ctx (fld (o.words.getD 1 0) 63 32) (o.words.getD 4 0).toNat (o.words.getD 5 0).toNat = some m from
        (findUx_of_mes hsu.mes ..).trans hux, show tFind u.mes m = some x from by rw [hsu.mes]; exact hm, show o.src = .entry from hsrc,
        show tFind u.cqs o.queue = some c from hq]
      rw [← hbs, endOp_eq hp (.inr hct), ht, hv]
      rfl
    have hall : s.Alters t [.ops, .ht, .cqs] (fun _ => False) := (hsu.mono.trans huv.mono).trans hvt.mono
    refine ⟨t, act_of_alters hs.2.1 hs.1 hdo hall, ?_, ?_, hall.mes, hall.hbm⟩
    · rw [hvt.ops, hv]
      exact tFind_tDel_same ..
    · rw [hreq, State.tl, huv.ht, hsu.ht, hbs, Cq.cpl, hadm]
      rfl
  case nothing =>
    intro s d q slot hc hlive hm
    obtain ⟨u, hu⟩ : ∃ u, u = s.cancels d q slot := ⟨_, rfl⟩
    obtain ⟨hq, hslot, hsu, hueq⟩ := cancels_spec s d q slot hu
    obtain ⟨t, ht⟩ : ∃ t, t = u.cancelled d 2 := ⟨_, rfl⟩
    obtain ⟨hans, hq', hslot', hut, hteq⟩ := cancelled_spec u d (by decide) ht
    have hdo : doMtCancel d q slot s = t := by
      rw [doMtCancel_eq, ← hu]
      simp only [removePosted_of_empty (hsu.mes.trans hm), ite_self, if_true, ht]
    refine ⟨t, act_of_alters hlive hc hdo (hsu.trans hut), hans, hq'.trans hq, hslot'.trans hslot, ?_⟩
    rw [hueq] at hteq
    exact hteq
  case cancel =>
    rintro s d q slot m x o c hc hlive hm ⟨hk, -, hb⟩ hp hoq hslot hdom hct hopc
    obtain ⟨u, hu⟩ : ∃ u, u = s.cancels d q slot := ⟨_, rfl⟩
    obtain ⟨-, -, hsu, -⟩ := cancels_spec s d q slot hu
    have hlloff : ∀ l, (Reg.llStatus (.host l)).addr ≠ (Reg.mtCancel d).addr := fun l => addr_ne_of_off 0x10008 0x5008 rfl rfl
    have hup : u.Plain x.op o c := plain_of_alters_regs hp hsu hlloff fun e => addr_ne_of_off 0x7008 0x5008 rfl rfl
    have hum : u.mes = [(m, x)] := by rw [hsu.mes, hm]
    obtain ⟨v, hv⟩ : ∃ v, v = u.freeMe m := ⟨_, rfl⟩
    obtain ⟨hvm, huv⟩ := freeMe_posted hum hk hb hv
    have hvp : v.Plain x.op o c := plain_of_alters_regs hup huv (fun l ⟨e, h⟩ => addr_ne_of_off 0x10008 0x5000 rfl rfl (by decide) h)
      fun e ⟨e', h⟩ => addr_ne_of_off 0x7008 0x5000 rfl rfl (by decide) h
    obtain ⟨w, hw⟩ : ∃ w, w = v.completed x.op o c 0x0F 1 := ⟨_, rfl⟩
    obtain ⟨hops, hreq, -, hvw⟩ := completed_spec hvp.2.2.2.2.2.1 0x0F 1 hw
    obtain ⟨y, hy⟩ : ∃ y, y = w.bump (.mtCount (stallOf (u.ctxStall x.ctx))) 15 0 1 := ⟨_, rfl⟩
    have hwy : w.Alters y [.regs] (fun a => a = (Reg.mtCount (stallOf (u.ctxStall x.ctx))).addr) := by
      rw [hy]
      exact .setReg w _ rfl
    obtain ⟨t, ht⟩ : ∃ t, t = y.cancelled d 1 := ⟨_, rfl⟩
    obtain ⟨hans, -, -, hyt, -⟩ := cancelled_spec y d (by decide) ht
    have hdo : doMtCancel d q slot s = t := by
      have hrem := removePosted_one hum hk (hoq ▸ hup.2.2.1) hup.1 hup.2.1 hoq hslot
      have hdone : v.endOp x.op 0x0F 0x01 [] = w := (done_eq hvp (.inr hct) 0x0F 1).trans hw.symm
      rw [← hv, hdone, ← hy] at hrem
      rw [doMtCancel_eq, ← hu]
      simp only [show tFind u.cqs q.toNat = some c from hoq ▸ hup.2.2.1, show u.cqDom c = d.val from hu ▸ hdom, decide_true, if_true, hrem, Nat.one_ne_zero,
        if_false, ht]
    have hall : s.Alters t [.regs, .mes, .ops, .ht, .cqs] (fun _ => True) :=
      ((hsu.mono (by decide) (fun _ _ => trivial)).trans (huv.mono (by decide) (fun _ _ => trivial))).trans
        ((hvw.mono (by decide) (fun _ _ => trivial)).trans ((hwy.mono (by decide) (fun _ _ => trivial)).trans (hyt.mono (by decide) (fun _ _ => trivial))))
    refine ⟨t, act_of_alters hlive hc hdo hall, hans, ?_, ?_, ?_, hall.hbm⟩
    · rw [hyt.mes, hwy.mes, hvw.mes, hvm]
    · rw [hyt.ops, hwy.ops, hops]
    · rw [State.tl, hyt.ht, hwy.ht, ← State.tl, hreq, State.tl, huv.ht, hsu.ht]
      rfl

end Sys2Proof.Machine
end

section
/-! PROOFS. What the posting of events leaves of the links, the event queues and HL_STATUS (R161, R169, R170, R193). -/

namespace Sys2Proof.Machine

-- The proofs are elaborated one after another: in parallel their threads' stacks need more memory than a compile may have.
set_option Elab.async false

/-- A link's transaction layer with nothing changed but what waits to go out. -/
def HostTl.Sends (x y : HostTl) : Prop := y = { x with reqQ := y.reqQ, heldRecs := y.heldRecs, intrLost := y.intrLost }

theorem HostTl.Sends.refl (x : HostTl) : x.Sends x := rfl

theorem HostTl.Sends.trans {x y z : HostTl} (h : x.Sends y) (k : y.Sends z) : x.Sends z := by
  unfold HostTl.Sends at *
  rw [k, h]

theorem HostTl.Sends.keeps {x y : HostTl} (h : x.Sends y) :
    y.reads = x.reads ∧ y.withheld = x.withheld ∧ y.hist = x.hist ∧ y.rxRsp = x.rxRsp ∧ y.rspQ = x.rspQ ∧ y.rxReq = x.rxReq := by
  unfold HostTl.Sends at h
  rw [h]
  exact ⟨rfl, rfl, rfl, rfl, rfl, rfl⟩

theorem hlStatus_addr_inj {l k : HLink} (h : (Reg.hlStatus l).addr = (Reg.hlStatus k).addr) : l = k := by
  simp only [Reg.addr, Reg.off, Reg.block, blockBase] at h
  exact Fin.ext (by omega)

/-- What the posting of an event does at most: requests and records that wait, records of live event queues, and the bits of HL_STATUS
that tell of dropped events and interrupts. -/
structure State.Posts (s t : State) : Prop where
  alters : s.Alters t [.ht, .eqs, .regs] (fun a => ∃ l, a = (Reg.hlStatus l).addr)
  links : ∀ k, (s.tl k).Sends (t.tl k)
  status : ∀ l i, i < 4 → t.rb (.hlStatus l) i = s.rb (.hlStatus l) i
  dead : ∀ e q, tFind s.eqs e = some q → q.dead = true → tFind t.eqs e = some q

namespace State.Posts

variable {s t u : State}

theorem refl (s : State) : s.Posts s := ⟨.refl s, fun _ => .refl _, fun _ _ _ => rfl, fun _ _ h _ => h⟩

theorem trans (h : s.Posts t) (k : t.Posts u) : s.Posts u :=
  ⟨h.alters.trans k.alters, fun n => (h.links n).trans (k.links n), fun l i hi => (k.status l i hi).trans (h.status l i hi),
    fun e q he hd => k.dead e q (h.dead e q he hd) hd⟩

theorem ite {p : Prop} [Decidable p] (ht : s.Posts t) (hu : s.Posts u) : s.Posts (if p then t else u) := by
  split
  · exact ht
  · exact hu

theorem foldl {α : Type} {f : State → α → State} (h : ∀ t x, State.Posts t (f t x)) (xs : List α) (s : State) : s.Posts (xs.foldl f s) :=
  List.foldlRecOn (motive := fun t => s.Posts t) xs f (refl s) fun t ht x _ => ht.trans (h t x)

/-- A change of what waits on a link. -/
theorem modTl (s : State) (h : Nat) (f : HostTl → HostTl) (hf : ∀ x : HostTl, x.Sends (f x)) : s.Posts (s.modTl h f) := by
  refine ⟨.modTl .., fun k => ?_, fun l i _ => rfl, fun _ _ he _ => he⟩
  by_cases hk : k = h
  · rw [hk, tl_modTl_same]
    exact hf _
  · have : (s.modTl h f).tl k = s.tl k := tGet_tMod_other _ _ _ _ _ hk
    rw [this]
    exact .refl _

theorem sendReq (s : State) (h : Nat) (x : ReqTlp) : s.Posts (s.sendReq h x) := ite (refl s) (modTl s h _ fun _ => rfl)

theorem hostWrite (s : State) (h fn : Nat) (ctx : Option Nat) (a : Nat) (bs : List Byte) (tok : Tok) : s.Posts (s.hostWrite h fn ctx a bs tok) :=
  foldl (fun t _ => sendReq t h _) _ s

/-- A field of HL_STATUS from bit 4 on. -/
theorem wf_status (s : State) (l : HLink) (hi lo v : Nat) (hlo : 4 ≤ lo) : s.Posts (s.wf (.hlStatus l) hi lo v) := by
  refine ⟨(State.Alters.setReg s _ ⟨l, rfl⟩), fun _ => .refl _, fun k i hi' => ?_, fun _ _ he _ => he⟩
  by_cases hk : k = l
  · subst hk
    rw [State.rb, State.wf, reg_setReg_same, bit_setFld_other _ _ _ _ _ (by omega) (.inr (by omega)), State.rb]
  · rw [State.rb, State.wf, reg_setReg_other _ _ _ _ fun e => hk (hlStatus_addr_inj e), State.rb]

theorem dropIntr (s : State) (h : Nat) : s.Posts (s.dropIntr h) :=
  (wf_status s (hlinkOf h) 4 4 _ (le_refl _)).trans (modTl _ h _ fun _ => rfl)

theorem sendIntr (s : State) (h fn vector data : Nat) : s.Posts (s.sendIntr h fn vector data) := ite (sendReq s h _) (dropIntr s h)

/-- The record of a live event queue changed. -/
theorem put_eq {e : Nat} {q q' : Eq} (hq : tFind s.eqs e = some q) (hd : q.dead = false) : s.Posts { s with eqs := tPut e q' s.eqs } := by
  refine ⟨.put_eqs s _, fun _ => .refl _, fun _ _ _ => rfl, fun k x hk hx => ?_⟩
  by_cases he : k = e
  · rw [he, hq] at hk
    rw [Option.some.inj hk] at hd
    rw [hd] at hx
    exact absurd hx (by decide)
  · exact (tFind_tPut_other _ _ _ _ he).trans hk

theorem eqPut {e : Nat} {q q0 : Eq} (ws : List Word) (hq : tFind s.eqs e = some q0) (hd : q0.dead = false) : s.Posts (s.eqPut e q ws) := by
  unfold State.eqPut
  extract_lets w0 ctx s1 q1 s2
  have h1 : s.Posts s1 := hostWrite ..
  have hq1 : tFind s1.eqs e = some q0 := by
    have ha : s.Alters s1 [.ht] (fun _ => False) := .hostWrite ..
    rw [ha.eqs, hq]
  have h2 : s.Posts s2 := h1.trans (put_eq hq1 hd)
  exact ite (h2.trans (sendIntr ..)) h2

theorem advance_dead (q : Eq) : q.advance.dead = q.dead := by
  unfold Eq.advance
  extract_lets q1
  split
  · split <;> rfl
  · rfl

/-- A record written leaves its queue as live as it was. -/
theorem eqPut_dead (s : State) (e : Nat) (q : Eq) (ws : List Word) {q' : Eq} (h : tFind (s.eqPut e q ws).eqs e = some q') : q'.dead = q.dead := by
  unfold State.eqPut at h
  extract_lets w0 ctx s1 q1 s2 at h
  have h2 : tFind s2.eqs e = some { q1 with armed := false } := tFind_tPut_same ..
  have hall : tFind (if q.armed = true then s2.sendIntr q.link q.fn q.vector e else s2).eqs e = some { q1 with armed := false } := by
    split
    · have ha : s2.Alters (s2.sendIntr q.link q.fn q.vector e) [.regs, .ht] (fun _ => True) := .sendIntr _ _ _ _ _ fun _ => trivial
      rw [ha.eqs, h2]
    · exact h2
  rw [hall] at h
  rw [← Option.some.inj h]
  exact advance_dead q

theorem eqWrite (s : State) (e : Nat) (ws : List Word) (hd : ∀ q, tFind s.eqs e = some q → q.dead = false) : s.Posts (s.eqWrite e ws) := by
  unfold State.eqWrite
  split
  · exact refl s
  · next q hq =>
    have hq0 := hd q hq
    refine ite (put_eq hq hq0) (ite (eqPut _ hq hq0) ?_)
    extract_lets s1
    have h1 : s.Posts s1 := eqPut _ hq hq0
    split
    · exact h1
    · next q1 hq1 =>
      have hq1d : q1.dead = false := (eqPut_dead s e _ _ hq1).trans hq0
      exact ite (h1.trans (eqPut _ hq1 hq1d)) (h1.trans (put_eq hq1 hq1d))

theorem postEq (s : State) (e code : Nat) (ctx : Option Nat) (fs : List (Nat × Nat × Nat × Nat)) : s.Posts (s.postEq e code ctx fs) := by
  unfold State.postEq
  split
  · exact refl s
  · next q hq =>
    extract_lets ws
    by_cases hd : q.dead = true
    · rw [if_pos (by rw [hd]; rfl)]
      exact refl s
    · refine ite (refl s) (ite (modTl s _ _ fun _ => rfl) (eqWrite s e _ fun q' hq' => ?_))
      rw [hq] at hq'
      rw [← Option.some.inj hq']
      exact Bool.not_eq_true _ ▸ hd

theorem postMgmt (s : State) (h code : Nat) (ctx : Option Nat) (fs : List (Nat × Nat × Nat × Nat)) : s.Posts (s.postMgmt h code ctx fs) :=
  ite (postEq s _ code ctx fs) (wf_status s (hlinkOf h) 17 8 _ (by decide))

theorem postCtx (s : State) (c code : Nat) (fs : List (Nat × Nat × Nat × Nat)) : s.Posts (s.postCtx c code fs) :=
  ite (postEq s _ code _ fs) (postMgmt s _ code _ fs)

end State.Posts

end Sys2Proof.Machine
end

section
/-! PROOFS. Reads of host memory end, and failures that the adapter reports (R148, R153, R154, R165, R166). -/

namespace Sys2Proof.Machine

-- The proofs are elaborated one after another: in parallel their threads' stacks need more memory than a compile may have.
set_option Elab.async false

section

variable {s t : State} {h : HLink} {x : RxTlp} {xs : List RxTlp}

/-! ### A transaction taken from a link's buffer -/

/-- The oldest response of a link taken, and its space freed. -/
def State.tookRsp (s : State) (h : HLink) (x : RxTlp) (xs : List RxTlp) : State := (s.modTl h.val fun y => { y with rxRsp := xs }).freeTlp h x

theorem takeTlp_rsp {tys : List Nat} (hq : (s.tl h.val).rxRsp = x :: xs) (ht : tys.contains (tlpF x.body 127 120) = true) :
    s.takeTlp h true tys = some (x, s.tookRsp h x xs) := by
  unfold State.takeTlp State.tookRsp
  simp only [if_true, hq, ht]

theorem freeTlp_frame (s : State) (h : HLink) (x : RxTlp) : s.freeTlp h x = { s with hll := (s.freeTlp h x).hll } := by
  unfold State.freeTlp
  split <;> rfl

theorem tookRsp_spec (s : State) (h : HLink) (x : RxTlp) (xs : List RxTlp) (ht : t = s.tookRsp h x xs) :
    t.tl h.val = { s.tl h.val with rxRsp := xs } ∧ s.Alters t [.ht, .hll] (fun _ => False) ∧ t = { s with ht := t.ht, hll := t.hll } := by
  obtain ⟨u, hu⟩ : ∃ u, u = s.modTl h.val fun y => { y with rxRsp := xs } := ⟨_, rfl⟩
  have htu : t = u.freeTlp h x := by rw [ht, hu]; rfl
  have hsu : s.Alters u [.ht] (fun _ => False) := hu ▸ .modTl ..
  have hframe := freeTlp_frame u h x
  rw [← htu] at hframe
  have hut : u.Alters t [.hll] (fun _ => False) := by
    rw [hframe]
    exact .put_hll u _
  refine ⟨?_, hsu.mono.trans hut.mono, ?_⟩
  · rw [State.tl, hut.ht, ← State.tl, hu, tl_modTl_same]
  · rw [hut.ht]
    rw [hu] at hframe ⊢
    exact hframe

theorem tl_modTl_other {k n : Nat} (hk : k ≠ n) (f : HostTl → HostTl) : (s.modTl n f).tl k = s.tl k := tGet_tMod_other _ _ _ _ _ hk

theorem walks_modWalk_same (s : State) (w : Nat) (f : Walk → Walk) : tFind (s.modWalk w f).walks w = (tFind s.walks w).map f := by
  unfold State.modWalk
  cases hw : tFind s.walks w with
  | none => simpa using hw
  | some y => simp [tFind_tPut_same]

theorem modWalk_frame (s : State) (w : Nat) (f : Walk → Walk) : s.modWalk w f = { s with walks := (s.modWalk w f).walks } := by
  unfold State.modWalk
  split <;> rfl

theorem State.Alters.modWalk {F : List Field} {P : Nat → Prop} (s : State) (w : Nat) (f : Walk → Walk) (hF : .walks ∈ F := by decide) :
    s.Alters (s.modWalk w f) F P := by
  unfold State.modWalk
  split
  · exact put_walks s _ hF
  · exact refl s

/-! ### CPLD (R153) -/

/-- Whether a CPLD's range breaks its read (R153). -/
def cpldBad (x : RxTlp) (r : ReadOut) : Bool :=
  let got := r.got ++ (x.body.drop 16).take (tlpF x.body 94 82)
  tlpF x.body 99 96 ≠ 0 || tlpF x.body 81 70 ≠ r.got.length || decide (r.len < got.length) || (decide (tlpF x.body 95 95 = 1) && decide (got.length ≠ r.len))

theorem doCpld_eq (hq : (s.tl h.val).rxRsp = x :: xs) (hty : tlpF x.body 127 120 = 0x12) (ht : t = s.tookRsp h x xs) :
    doCpld h s = match tFind (t.tl h.val).reads (tlpF x.body 111 100) with
      | none => t.bump (.hlTlperr h) 47 32 1
      | some r =>
        let got := r.got ++ (x.body.drop 16).take (tlpF x.body 94 82)
        if cpldBad x r then (t.bump (.hlTlperr h) 31 16 1).readOutEnds h (tlpF x.body 111 100) r 7
        else if tlpF x.body 95 95 = 1 then t.readOutEnds h (tlpF x.body 111 100) { r with got := got } 0
        else t.modTl h.val (fun y => { y with reads := tPut (tlpF x.body 111 100) { r with got := got } y.reads }) := by
  unfold doCpld
  rw [takeTlp_rsp hq (by rw [hty]; rfl), ← ht]
  rfl

/-- The bytes of a CPLD of the read's whole count. -/
theorem cpld_bytes (hlen : x.body.length = 16 + tlpF x.body 94 82) : (x.body.drop 16).take (tlpF x.body 94 82) = x.body.drop 16 :=
  List.take_of_length_le (by rw [List.length_drop]; omega)

theorem cpldBad_of_good {r : ReadOut} (hst : tlpF x.body 99 96 = 0) (hoff : tlpF x.body 81 70 = r.got.length)
    (hlen : x.body.length = 16 + tlpF x.body 94 82) (hfit : r.got.length + tlpF x.body 94 82 ≤ r.len)
    (hlast : tlpF x.body 95 95 = 1 → r.got.length + tlpF x.body 94 82 = r.len) : cpldBad x r = false := by
  have hgot : (r.got ++ (x.body.drop 16).take (tlpF x.body 94 82)).length = r.got.length + tlpF x.body 94 82 := by
    rw [cpld_bytes hlen, List.length_append, List.length_drop]
    omega
  unfold cpldBad
  simp only [hgot, hst, hoff, ne_eq, not_true_eq_false, decide_false, Bool.false_or, Bool.or_eq_false_iff, decide_eq_false_iff_not, Bool.and_eq_false_iff,
    not_not]
  exact ⟨by omega, (em (tlpF x.body 95 95 = 1)).symm.imp_right hlast⟩

/-! ### READ_TIMEOUT (R154) -/

/-- A table walk's read whose time is up: it fails, counts, and its tag is withheld. -/
theorem doReadTimeout_walk {g : Fin 4096} {w : Nat} {r : ReadOut} {y : Walk} (hr : tFind (s.tl h.val).reads g.val = some r) (hdrop : r.drop = false)
    (hp : r.purpose = .walk w) (hy : tFind s.walks w = some y) (hlate : r.sentAt + us (s.rf (.hlTimers h) 51 32) < s.clk)
    (hlast : s.lastCame h g.val = false) (ht : t = doReadTimeout h g s) :
    tFind (t.tl h.val).reads g.val = none ∧ tFind (t.tl h.val).withheld g.val = some (s.clk + 16 * us (s.rf (.hlTimers h) 51 32)) ∧
      tFind t.walks w = some { y with failed := 8 } ∧ t.rf (.hlTlperr h) 31 16 = min 0xFFFF (s.rf (.hlTlperr h) 31 16 + 1) ∧
      t.rb (.hlStatus h) 0 = true ∧ s.Alters t [.regs, .ht, .eqs, .walks] (fun _ => True) := by
  obtain ⟨lim, hlim⟩ : ∃ lim, lim = us (s.rf (.hlTimers h) 51 32) := ⟨_, rfl⟩
  obtain ⟨u, hu⟩ : ∃ u, u = s.bump (.hlTlperr h) 31 16 1 := ⟨_, rfl⟩
  have hsu : s.Alters u [.regs] (fun a => a = (Reg.hlTlperr h).addr) := by
    rw [hu]
    exact .setReg s _ rfl
  obtain ⟨v, hv⟩ : ∃ v, v = u.wb (.hlStatus h) 0 true := ⟨_, rfl⟩
  have huv : u.Alters v [.regs] (fun a => a = (Reg.hlStatus h).addr) := by
    rw [hv]
    exact .setReg u _ rfl
  obtain ⟨w1, hw1⟩ : ∃ w1, w1 = v.modTl h.val fun y => { y with withheld := tPut g.val (s.clk + 16 * lim) y.withheld } := ⟨_, rfl⟩
  have hvw : v.Alters w1 [.ht] (fun _ => False) := hw1 ▸ .modTl ..
  obtain ⟨p, hwp, hdo⟩ : ∃ p, w1.Posts p ∧ doReadTimeout h g s = p.readOutEnds h g.val r 8 := by
    unfold doReadTimeout
    simp only [hr, ← hlim]
    rw [if_neg (by rw [hlast]; simp only [Bool.or_false, decide_eq_true_eq]; omega), hdrop, if_neg (by decide), ← hu, ← hv,
      show v.clk = s.clk from by rw [huv.clk, hsu.clk], ← hw1]
    cases r.ctx with
    | none => exact ⟨_, .postMgmt .., rfl⟩
    | some c => exact ⟨_, .postCtx .., rfl⟩
  obtain ⟨z, hz⟩ : ∃ z, z = p.modTl h.val fun y => { y with reads := tDel g.val y.reads } := ⟨_, rfl⟩
  have hpz : p.Alters z [.ht] (fun _ => False) := hz ▸ .modTl ..
  have ht' : t = z.modWalk w fun x => { x with failed := 8 } := by
    rw [ht, hdo, State.readOutEnds, ← hz, hdrop, if_neg (by decide), hp]
    rfl
  have hzt : z.Alters t [.walks] (fun _ => False) := ht' ▸ .modWalk ..
  have htl : t.tl h.val = { p.tl h.val with reads := tDel g.val (p.tl h.val).reads } := by
    rw [State.tl, hzt.ht, ← State.tl, hz, tl_modTl_same]
  obtain ⟨-, hwith, -⟩ := (hwp.links h.val).keeps
  have hvt : ∀ q : Reg, q.addr ≠ (Reg.hlStatus h).addr → (∀ l, q.addr ≠ (Reg.hlStatus l).addr) → ∀ hi lo, t.rf q hi lo = u.rf q hi lo := by
    intro q hq hql hi lo
    rw [hzt.rf id, hpz.rf id, hwp.alters.rf (by rintro ⟨l, e⟩; exact hql l e), hvw.rf id, huv.rf hq]
  refine ⟨?_, ?_, ?_, ?_, ?_, ?_⟩
  · rw [htl]
    exact tFind_tDel_same ..
  · rw [htl, hwith, hw1, tl_modTl_same, ← hlim]
    exact tFind_tPut_same ..
  · rw [ht', walks_modWalk_same, hpz.walks, hwp.alters.walks, hvw.walks, huv.walks, hsu.walks, hy]
    rfl
  · have hoff : ∀ l, (Reg.hlTlperr h).addr ≠ (Reg.hlStatus l).addr := fun l => addr_ne_of_off 0x20028 0x20008 rfl rfl
    rw [hvt _ (hoff h) hoff, hu, rf_bump_same _ _ _ _ _ (by decide), Nat.min_comm]
    rfl
  · rw [hzt.rb id, hpz.rb id, hwp.status _ _ (by decide), hvw.rb id, hv, rb_wb_same _ _ _ _ (by decide)]
  · exact (((hsu.mono (by decide) (fun _ _ => trivial)).trans (huv.mono (by decide) (fun _ _ => trivial))).trans
      (hvw.mono (by decide) (fun _ _ => trivial))).trans (((hwp.alters.mono (by decide) (fun _ _ => trivial)).trans
      (hpz.mono (by decide) (fun _ _ => trivial))).trans (hzt.mono (by decide) (fun _ _ => trivial)))

/-! ### error_sticky (R165) -/

/-- The word that tells of error_sticky. -/
def State.stuck (s : State) (c : Nat) : Prop := bit (s.ctxWord c 2) 62 = true

theorem setSticky_alters (s : State) (c : Nat) : s.Alters (s.setSticky c) [.ctxs, .hbm] (fun _ => False) := by
  unfold State.setSticky
  split
  · exact .refl s
  · exact (State.Alters.modCtx ..).trans (.hbmWrite ..)

theorem ctxAddr_of_alters {F : List Field} {P : Nat → Prop} (ha : s.Alters t F P) (c : Nat)
    (hF : [Field.shares, .ctxEast].all (fun f => decide (f ∉ F)) = true := by decide) : t.ctxAddr c = s.ctxAddr c := by
  simp only [List.all_cons, List.all_nil, Bool.and_true, Bool.and_eq_true, decide_eq_true_eq] at hF
  unfold State.ctxAddr State.share State.ctxDom
  rw [ha.shares hF.1, ha.ctxEast hF.2]

theorem bytesOf_one (w : Word) : (bytesOf [w]).length = 8 := by
  simp [bytesOf]

/-- Setting error_sticky writes word 2 of the context's record alone. -/
theorem hbmByte_setSticky (s : State) (c a : Nat) (h : a < s.ctxAddr c + 16 ∨ s.ctxAddr c + 24 ≤ a) : (s.setSticky c).hbmByte a = s.hbmByte a := by
  unfold State.setSticky
  split
  · rfl
  · extract_lets u
    have hsu : s.Alters u [.ctxs] (fun _ => False) := .modCtx ..
    rw [State.ctxStore, hbmByte_hbmWrite_other _ _ _ _ (by rw [ctxAddr_of_alters hsu, bytesOf_one]; omega)]
    unfold State.hbmByte
    rw [hsu.hbm]

/-- The context and its record after error_sticky has been set. -/
theorem setSticky_spec {c : Nat} {y : Ctx} (hy : s.ctx? c = some y) (hlen : 2 < y.words.length) (ht : t = s.setSticky c) :
    t.ctx? c = some { y with words := modAt y.words 2 (fun w => setBit w 62 true) } ∧
      t.hbm = (s.ctxStore c 2 [setBit (s.ctxWord c 2) 62 true]).hbm := by
  obtain ⟨u, hu⟩ : ∃ u, u = s.modCtx c fun x => { x with words := modAt x.words 2 (fun w => setBit w 62 true) } := ⟨_, rfl⟩
  have hsu : s.Alters u [.ctxs] (fun _ => False) := hu ▸ .modCtx ..
  have hctx : u.ctx? c = some { y with words := modAt y.words 2 (fun w => setBit w 62 true) } := by
    rw [hu, ctx?_modCtx_same, hy]
    rfl
  have hword : u.ctxWord c 2 = setBit (s.ctxWord c 2) 62 true := by
    simp only [State.ctxWord, hctx, hy]
    rw [modAt_getD _ _ _ _ _ hlen, if_pos rfl]
  have ht' : t = u.ctxStore c 2 [setBit (s.ctxWord c 2) 62 true] := by
    rw [ht, State.setSticky, hy, ← hword, hu]
  have hut : u.Alters t [.hbm] (fun _ => False) := ht' ▸ .hbmWrite ..
  refine ⟨?_, ?_⟩
  · rw [State.ctx?, hut.ctxs]
    exact hctx
  · rw [ht', State.ctxStore, ctxAddr_of_alters hsu]
    exact hbmWrite_hbm hsu.hbm ..

theorem stuck_of_ctx {c : Nat} {y : Ctx} (hlen : 2 < y.words.length)
    (h : s.ctx? c = some { y with words := modAt y.words 2 (fun w => setBit w 62 true) }) : s.stuck c := by
  unfold State.stuck
  simp only [State.ctxWord, h]
  rw [modAt_getD _ _ _ _ _ hlen, if_pos rfl, setBit]
  exact bit_setFld_same _ 62 true (by decide)

/-! ### ERRRPT_WRITE_FAILED (R165) -/

/-- The registers in which a link tells of failures. -/
def FailAt (h : HLink) (a : Nat) : Prop := a = (Reg.hlTlperr h).addr ∨ ∃ l, a = (Reg.hlStatus l).addr

theorem hlTlperr_off (h l : HLink) : (Reg.hlTlperr h).addr ≠ (Reg.hlStatus l).addr := addr_ne_of_off 0x20028 0x20008 rfl rfl

theorem State.Posts.rf_hlTlperr (hp : s.Posts t) (h : HLink) (hi lo : Nat) : t.rf (.hlTlperr h) hi lo = s.rf (.hlTlperr h) hi lo :=
  hp.alters.rf (by rintro ⟨l, e⟩; exact hlTlperr_off h l e) hi lo

theorem State.Posts.fail (hp : s.Posts t) (h : HLink) : s.Alters t [.ht, .eqs, .regs] (FailAt h) := hp.alters.mono (by decide) fun _ => .inr

/-- A report of a failed write taken, counted and noted. -/
def State.tookReport (s : State) (h : HLink) (x : RxTlp) (xs : List RxTlp) : State :=
  ((s.tookRsp h x xs).bump (.hlTlperr h) 15 0 1).wb (.hlStatus h) 1 true

theorem tookReport_spec (ht : t = s.tookReport h x xs) :
    t.tl h.val = { s.tl h.val with rxRsp := xs } ∧ t.rf (.hlTlperr h) 15 0 = min 0xFFFF (s.rf (.hlTlperr h) 15 0 + 1) ∧
      t.rb (.hlStatus h) 1 = true ∧ s.Alters t [.ht, .hll, .regs] (FailAt h) := by
  obtain ⟨u, hu⟩ : ∃ u, u = s.tookRsp h x xs := ⟨_, rfl⟩
  obtain ⟨htl, hsu, -⟩ := tookRsp_spec s h x xs hu
  obtain ⟨v, hv⟩ : ∃ v, v = u.bump (.hlTlperr h) 15 0 1 := ⟨_, rfl⟩
  have huv : u.Alters v [.regs] (fun a => a = (Reg.hlTlperr h).addr) := by
    rw [hv]
    exact .setReg u _ rfl
  have ht' : t = v.wb (.hlStatus h) 1 true := by rw [ht, hv, hu]; rfl
  have hvt : v.Alters t [.regs] (fun a => a = (Reg.hlStatus h).addr) := by
    rw [ht']
    exact .setReg v _ rfl
  refine ⟨?_, ?_, ?_, ((hsu.mono (by decide) (fun _ => False.elim)).trans (huv.mono (by decide) (fun _ => .inl))).trans
    (hvt.mono (by decide) (fun _ e => .inr ⟨h, e⟩))⟩
  · rw [State.tl, hvt.ht, huv.ht]
    exact htl
  · rw [hvt.rf (hlTlperr_off h h), hv, rf_bump_same _ _ _ _ _ (by decide), hsu.rf id, Nat.min_comm]
    rfl
  · rw [ht', rb_wb_same _ _ _ _ (by decide)]

/-- The report of a write that no live history entry names (R165). -/
def State.astray (s : State) (h : HLink) (x : RxTlp) : State :=
  (s.wb (.hlStatus h) 2 true).postMgmt h.val 0x0302 none
    [(4, 63, 48, tlpF x.body 103 88), (4, 47, 44, tlpF x.body 107 104), (4, 43, 39, tlpF x.body 119 115)]

theorem doErrrptWriteFailed_eq (hq : (s.tl h.val).rxRsp = x :: xs) (hty : tlpF x.body 127 120 = 0x14) (hsub : tlpF x.body 111 108 = 1)
    (ht : t = s.tookReport h x xs) : doErrrptWriteFailed h s = match tFind (t.tl h.val).hist (tlpF x.body 103 88) with
      | none => t.astray h x
      | some e =>
        if !t.liveEntry h e then t.astray h x
        else match e.ctx with
          | none =>
            match e.tok with
            | .core id => (t.astray h x).coreFails id
            | .coreLate core => (t.astray h x).coreNote core
            | _ => t.astray h x
          | some c =>
            let u := (t.postCtx c 0x0301 [(4, 63, 48, tlpF x.body 103 88), (4, 47, 44, tlpF x.body 107 104), (5, 31, 0, e.len), (6, 63, 0, e.addr)]).setSticky c
            match e.note with
            | some n => u.writeFailedAbroad c n e.len (tlpF x.body 107 104)
            | none => u := by
  unfold doErrrptWriteFailed
  rw [hq]
  simp only [hsub, ne_eq, not_true_eq_false, if_false]
  rw [takeTlp_rsp hq (by rw [hty]; rfl), ht]
  rfl

/-- A report that matches no write is counted and noted. -/
theorem errrpt_astray (hq : (s.tl h.val).rxRsp = x :: xs) (hty : tlpF x.body 127 120 = 0x14) (hsub : tlpF x.body 111 108 = 1)
    (hnone : tFind (s.tl h.val).hist (tlpF x.body 103 88) = none) (ht : t = doErrrptWriteFailed h s) :
    t.rb (.hlStatus h) 1 = true ∧ t.rb (.hlStatus h) 2 = true ∧ t.rf (.hlTlperr h) 15 0 = min 0xFFFF (s.rf (.hlTlperr h) 15 0 + 1) ∧
      s.Alters t [.ht, .hll, .regs, .eqs] (FailAt h) := by
  obtain ⟨u, hu⟩ : ∃ u, u = s.tookReport h x xs := ⟨_, rfl⟩
  obtain ⟨htl, hcount, hst, hsu⟩ := tookReport_spec hu
  obtain ⟨v, hv⟩ : ∃ v, v = u.wb (.hlStatus h) 2 true := ⟨_, rfl⟩
  have huv : u.Alters v [.regs] (fun a => a = (Reg.hlStatus h).addr) := by
    rw [hv]
    exact .setReg u _ rfl
  have hvt : v.Posts t := by
    rw [ht, doErrrptWriteFailed_eq hq hty hsub hu, htl]
    simp only [hnone]
    rw [State.astray, ← hv]
    exact .postMgmt ..
  refine ⟨?_, ?_, ?_, (hsu.mono).trans ((huv.mono (by decide) (fun _ e => .inr ⟨h, e⟩)).trans ((hvt.fail h).mono))⟩
  · rw [hvt.status _ _ (by decide), hv, State.rb, State.wb, State.wf, reg_setReg_same, bit_setFld_other _ _ _ _ _ (by decide) (.inr (by decide))]
    exact hst
  · rw [hvt.status _ _ (by decide), hv, rb_wb_same _ _ _ _ (by decide)]
  · rw [hvt.rf_hlTlperr, huv.rf (hlTlperr_off h h), hcount]

/-- A report that names a write of a context leaves its error_sticky set. -/
theorem errrpt_sticky {e : History} {c : Nat} {y : Ctx} (hq : (s.tl h.val).rxRsp = x :: xs) (hty : tlpF x.body 127 120 = 0x14)
    (hsub : tlpF x.body 111 108 = 1) (he : tFind (s.tl h.val).hist (tlpF x.body 103 88) = some e) (hlive : s.liveEntry h e = true)
    (hc : e.ctx = some c) (hn : e.note = none) (hy : s.ctx? c = some y) (hlen : 2 < y.words.length) (ht : t = doErrrptWriteFailed h s) :
    bit (t.ctxWord c 2) 62 = true ∧ t.rf (.hlTlperr h) 15 0 = min 0xFFFF (s.rf (.hlTlperr h) 15 0 + 1) ∧ t.rb (.hlStatus h) 1 = true ∧
      (t.tl h.val).rxRsp = xs ∧ t.hbm = (s.ctxStore c 2 [setBit (s.ctxWord c 2) 62 true]).hbm ∧
      s.Alters t [.ht, .hll, .regs, .eqs, .ctxs, .hbm] (FailAt h) := by
  obtain ⟨u, hu⟩ : ∃ u, u = s.tookReport h x xs := ⟨_, rfl⟩
  obtain ⟨htl, hcount, hst, hsu⟩ := tookReport_spec hu
  obtain ⟨v, hv⟩ : ∃ v, v = u.postCtx c 0x0301 [(4, 63, 48, tlpF x.body 103 88), (4, 47, 44, tlpF x.body 107 104), (5, 31, 0, e.len), (6, 63, 0, e.addr)] :=
    ⟨_, rfl⟩
  have huv : u.Posts v := hv ▸ .postCtx ..
  have hlive' : u.liveEntry h e = true := by
    have hclk : u.clk = s.clk := hsu.clk
    have htimer : u.rf (.hlTimers h) 15 0 = s.rf (.hlTimers h) 15 0 := by
      refine hsu.rf ?_ 15 0
      rintro (e | ⟨l, e⟩)
      · exact addr_ne_of_off 0x20010 0x20028 rfl rfl (by decide) e
      · exact addr_ne_of_off 0x20010 0x20008 rfl rfl (by decide) e
    unfold State.liveEntry
    rw [hclk, htimer]
    exact hlive
  have ht' : t = v.setSticky c := by
    rw [ht, doErrrptWriteFailed_eq hq hty hsub hu, htl]
    simp only [he, hlive', Bool.not_true, Bool.false_eq_true, if_false, hc, hn]
    rw [hv]
  have hvt : v.Alters t [.ctxs, .hbm] (fun _ => False) := ht' ▸ setSticky_alters ..
  have hsv := (hsu.mono (G := [.ht, .hll, .regs, .eqs])).trans ((huv.fail h).mono)
  have hctx : v.ctx? c = some y := by rw [State.ctx?, hsv.ctxs]; exact hy
  obtain ⟨hctx', hhbm⟩ := setSticky_spec hctx hlen ht'
  refine ⟨stuck_of_ctx hlen hctx', ?_, ?_, ?_, ?_, (hsv.mono).trans (hvt.mono (by decide) (fun _ => False.elim))⟩
  · rw [hvt.rf id, huv.rf_hlTlperr, hcount]
  · rw [hvt.rb id, huv.status _ _ (by decide), hst]
  · obtain ⟨-, -, -, hrx, -⟩ := (huv.links h.val).keeps
    rw [State.tl, hvt.ht, ← State.tl, hrx, htl]
  · rw [hhbm, State.ctxStore, State.ctxStore, ctxAddr_of_alters hsv, ctxWord_of_ctxs hsv.ctxs]
    exact hbmWrite_hbm hsv.hbm ..

end

end Sys2Proof.Machine
end

section
/-! PROOFS. A function is reset (R166, R205, R388): what the report leaves of its event queues, its contexts and HBM. -/

namespace Sys2Proof.Machine

-- The proofs are elaborated one after another: in parallel their threads' stacks need more memory than a compile may have.
set_option Elab.async false

section

variable {s t : State} {h : HLink} {x : RxTlp} {xs : List RxTlp}

/-! ### The contexts of a function that was reset -/

/-- A context of a function that was reset: error_sticky is set, and nothing is built for it any more. -/
def State.disown (s : State) (c : Nat) : State := (s.setSticky c).modCtx c fun x => { x with dead := true }

/-- Whether a context is there with its word 2, in the state that `b` tells of. -/
def State.HasCtx (s : State) (c : Nat) (sticky : Bool) : Prop :=
  ∃ y, s.ctx? c = some y ∧ 2 < y.words.length ∧ (sticky = true → s.stuck c)

theorem disown_alters (s : State) (c : Nat) : s.Alters (s.disown c) [.ctxs, .hbm] (fun _ => False) := (setSticky_alters s c).trans (.modCtx ..)

theorem hbmByte_disown (s : State) (c a : Nat) (h : a < s.ctxAddr c + 16 ∨ s.ctxAddr c + 24 ≤ a) : (s.disown c).hbmByte a = s.hbmByte a := by
  have ha : (s.setSticky c).Alters (s.disown c) [.ctxs] (fun _ => False) := .modCtx ..
  unfold State.hbmByte
  rw [ha.hbm]
  exact hbmByte_setSticky s c a h

/-- The context itself carries error_sticky. -/
theorem hasCtx_disown_same {c : Nat} {b : Bool} (hc : s.HasCtx c b) : (s.disown c).HasCtx c true := by
  obtain ⟨y, hy, hlen, -⟩ := hc
  obtain ⟨hctx, -⟩ := setSticky_spec hy hlen rfl
  have hd : (s.disown c).ctx? c = some { y with words := modAt y.words 2 (fun w => setBit w 62 true), dead := true } := by
    rw [State.disown, ctx?_modCtx_same, hctx]
    rfl
  refine ⟨_, hd, (modAt_length ..).symm ▸ hlen, fun _ => ?_⟩
  unfold State.stuck
  simp only [State.ctxWord, hd]
  rw [modAt_getD _ _ _ _ _ hlen, if_pos rfl, setBit]
  exact bit_setFld_same _ 62 true (by decide)

theorem ctx?_modCtx_other {c k : Nat} (hk : c ≠ k) (f : Ctx → Ctx) : (s.modCtx k f).ctx? c = s.ctx? c := by
  unfold State.modCtx
  split
  · exact tFind_tPut_other _ _ _ _ hk
  · rfl

theorem ctx?_disown_other {c k : Nat} (hk : c ≠ k) : (s.disown k).ctx? c = s.ctx? c := by
  rw [State.disown, ctx?_modCtx_other hk]
  unfold State.setSticky
  split
  · rfl
  · extract_lets u
    have hu : u.Alters (u.ctxStore k 2 [u.ctxWord k 2]) [.hbm] (fun _ => False) := .hbmWrite ..
    rw [State.ctx?, hu.ctxs, ← State.ctx?]
    exact ctx?_modCtx_other hk _

theorem hasCtx_disown {c k : Nat} {b : Bool} (hc : s.HasCtx c b) : (s.disown k).HasCtx c b := by
  by_cases hk : c = k
  · subst hk
    obtain ⟨y, hy, hlen, hst⟩ := hasCtx_disown_same hc
    exact ⟨y, hy, hlen, fun _ => hst rfl⟩
  · obtain ⟨y, hy, hlen, hst⟩ := hc
    refine ⟨y, (ctx?_disown_other hk).trans hy, hlen, fun hb => ?_⟩
    have h := hst hb
    unfold State.stuck State.ctxWord at h ⊢
    rwa [ctx?_disown_other hk]

/-- Several contexts: those named carry error_sticky, and HBM changes in their records alone. -/
theorem disowned_spec (cs : List Nat) (s : State) :
    s.Alters (cs.foldl State.disown s) [.ctxs, .hbm] (fun _ => False) ∧
      (∀ c b, s.HasCtx c b → (cs.foldl State.disown s).HasCtx c (b || decide (c ∈ cs))) ∧
      ∀ a, (∀ c ∈ cs, a < s.ctxAddr c + 16 ∨ s.ctxAddr c + 24 ≤ a) → (cs.foldl State.disown s).hbmByte a = s.hbmByte a := by
  induction cs generalizing s with
  | nil => exact ⟨.refl s, fun c b h => by simpa using h, fun _ _ => rfl⟩
  | cons k cs ih =>
    obtain ⟨hal, hctx, hbyte⟩ := ih (s.disown k)
    have hk := disown_alters s k
    rw [List.foldl_cons]
    refine ⟨hk.trans hal, fun c b hc => ?_, fun a ha => ?_⟩
    · by_cases hck : c = k
      · subst hck
        simpa using hctx c true (hasCtx_disown_same hc)
      · simpa [hck] using hctx c b (hasCtx_disown hc)
    · rw [hbyte a fun c hc => by rw [ctxAddr_of_alters hk]; exact ha c (List.mem_cons_of_mem _ hc)]
      exact hbmByte_disown s k a (ha k List.mem_cons_self)

/-! ### Atomics put off, and locks -/

/-- The registers that count what an endpoint refuses. -/
def RefuseAt (a : Nat) : Prop := CountAt a ∨ ∃ st, a = (Reg.rmaErrcnt st).addr

theorem sendNack_alters (s : State) (tf : Option TFlow) (p : Pkt) (cause detail : Nat) :
    s.Alters (s.sendNack tf p cause detail) [.inject, .regs] RefuseAt :=
  ((injectPkt_alters s _ _).mono (by decide) fun _ => .inl).trans (.setReg _ _ (.inr ⟨_, rfl⟩))

theorem putOff_alters (s : State) (tf : Nat) (p : Pkt) (cause : Nat) : s.Alters (s.putOff tf p cause) [.tfl, .inject, .regs] RefuseAt :=
  (State.Alters.modTfl ..).trans ((sendNack_alters ..).mono)

theorem endHeld_alters (s : State) (u : Option Nat) : s.Alters (s.endHeld u) [.uses] (fun _ => False) := by
  cases u with
  | none => exact .refl s
  | some u => exact .put_uses s _

theorem putOffAtoms_alters (s : State) (p : State → HostAtom → Bool) :
    s.Alters (s.putOffAtoms p) [.hatoms, .uses, .tfl, .inject, .regs] RefuseAt := by
  unfold State.putOffAtoms
  refine (State.Alters.put_hatoms s _).trans (.foldl (fun t a => ?_) _ _)
  have h1 : t.Alters (t.endHeld a.use) [.hatoms, .uses, .tfl, .inject, .regs] RefuseAt := (endHeld_alters ..).mono (by decide) fun _ => False.elim
  dsimp only
  split
  · exact h1.trans ((putOff_alters ..).mono)
  · exact h1

theorem not_refuseAt_hlStatus (l : HLink) : ¬ RefuseAt (Reg.hlStatus l).addr := by
  rintro (h | ⟨st, h⟩)
  · exact not_countAt_of_off 0x20008 rfl (by decide) h
  · exact addr_ne_of_off 0x20008 0x4008 rfl rfl (by decide) h

theorem resetHolder_of_free {d : Nat} {m : Holder} (hl : s.locks = []) : s.resetHolder d m = s := by
  refine resetHolder_of_none ?_ ?_
  · rw [State.waitsOn, hl]
    rfl
  · rw [State.holds, hl]
    rfl

theorem resetHolders_of_free {m : Holder} (hl : s.locks = []) :
    [0, 1].foldl (fun t d => if t.domRuns d then t.resetHolder d m else t) s = s := by
  simp only [List.foldl, resetHolder_of_free hl, ite_self]

end

end Sys2Proof.Machine
end

section
/-! PROOFS. ERRRPT_FUNCTION_RESET (R166): the state that the report leaves, where the function has no queue and nothing waits. -/

namespace Sys2Proof.Machine

-- The proofs are elaborated one after another: in parallel their threads' stacks need more memory than a compile may have.
set_option Elab.async false

section

variable {s t : State} {h : HLink} {x : RxTlp} {xs : List RxTlp}

/-- The contexts of a function of a link. -/
def State.ctxsOf (s : State) (l fn : Nat) : List Nat :=
  (s.ctxs.filter (fun e => fld (e.2.words.getD 2 0) 55 53 = l ∧ fld (e.2.words.getD 2 0) 60 56 = fn)).map (fun e => e.1)

/-- The event queues of a function of a link take no record and are disarmed. -/
def State.deadEqs (s : State) (l fn : Nat) : State :=
  { s with eqs := s.eqs.map (fun (e : Nat × Eq) => if e.2.link = l ∧ e.2.fn = fn then (e.1, { e.2 with dead := true, armed := false }) else e) }

/-- What a function's reset takes from its link beside the transactions to build. -/
def HostTl.dropFn (x : HostTl) (keep : ReqTlp → Bool) (fn : Nat) : HostTl :=
  { x with reqQ := x.reqQ.filter keep, reads := x.reads.map (fun (e : Nat × ReadOut) => if e.2.fn = fn then (e.1, { e.2 with drop := true }) else e) }

theorem doErrrptFunctionReset_eq {fn : Nat} (hq : (s.tl h.val).rxRsp = x :: xs) (hty : tlpF x.body 127 120 = 0x14) (hsub : tlpF x.body 111 108 = 2)
    (hfn : tlpF x.body 119 115 = fn) (hcqs : s.cqs = []) (hreq : (s.tl h.val).reqQ = []) (ht : t = (s.tookRsp h x xs).wb (.hlStatus h) 3 true) :
    ∃ keep g, doErrrptFunctionReset h s =
      ([0, 1].foldl (fun t d => if t.domRuns d then t.resetHolder d (.fn h.val fn) else t)
        ((((((t.ctxsOf h.val fn).foldl State.disown t).modTl h.val (fun y => y.dropFn keep fn)).deadEqs h.val fn).modTl h.val
          (fun y => { y with heldCpls := y.heldCpls.filter g })).putOffAtoms State.deadAtom)).postMgmt h.val 0x0307 none [(4, 43, 39, fn)] := by
  obtain ⟨v, hv⟩ : ∃ v, v = s.tookRsp h x xs := ⟨_, rfl⟩
  obtain ⟨htl, hsv, -⟩ := tookRsp_spec s h x xs hv
  rw [← hv] at ht
  have hvt : v.Alters t [.regs] (fun _ => True) := ht ▸ .setReg v _ trivial
  obtain ⟨r, hr⟩ : ∃ r, r = doErrrptFunctionReset h s := ⟨_, rfl⟩
  rw [← hr]
  unfold doErrrptFunctionReset at hr
  simp -zeta only [hq, hsub, ne_eq, not_true_eq_false, if_false] at hr
  rw [takeTlp_rsp hq (by rw [hty]; rfl), ← hv] at hr
  simp -zeta only [] at hr
  rw [hfn, ← ht] at hr
  extract_lets f s1 keep lost cs s2 s3 s4 qs s5 s6 s7 s8 s9 at hr
  have hlost : lost = [] := by
    have : (s1.tl h.val).reqQ = [] := by
      rw [State.tl, hvt.ht, ← State.tl, htl]
      exact hreq
    unfold lost
    rw [this]
    rfl
  have h2 : s1.Alters s2 [.ctxs, .hbm] (fun _ => False) := (disowned_spec cs s1).1
  have h3 : s2.Alters s3 [.ht] (fun _ => False) := .modTl ..
  have h4 : s3.Alters s4 [.eqs] (fun _ => False) := .put_eqs s3 _
  have hqs : qs = [] := by
    unfold qs
    rw [h4.cqs, h3.cqs, h2.cqs, hvt.cqs, hsv.cqs, hcqs]
    rfl
  have h6 : s6 = s5 := by
    unfold s6
    rw [hqs]
    rfl
  have h7 : s7 = s5 := by
    unfold s7
    rw [hlost, ← h6]
    rfl
  have h8 : s8 = s5.putOffAtoms State.deadAtom := by
    unfold s8
    rw [h7]
  refine ⟨keep, fun c => !qs.contains c.queue, hr.trans ?_⟩
  unfold s9
  rw [h8]
  rfl

/-- A table whose values are changed. -/
theorem tFind_map {α : Type} (f : Nat × α → Nat × α) (hf : ∀ e, (f e).1 = e.1) (l : List (Nat × α)) (k : Nat) :
    tFind (l.map f) k = (tFind l k).map fun y => (f (k, y)).2 := by
  induction l with
  | nil => rfl
  | cons e l ih =>
    obtain ⟨j, y⟩ := e
    have hj := hf (j, y)
    rw [List.map_cons]
    rw [show f (j, y) = ((f (j, y)).1, (f (j, y)).2) from rfl, hj, tFind, tFind]
    by_cases hk : k = j
    · rw [if_pos hk, if_pos hk, hk]
      rfl
    · rw [if_neg hk, if_neg hk, ih]

theorem mem_of_tFind {α : Type} {l : Tab α} {k : Nat} {y : α} (h : tFind l k = some y) : (k, y) ∈ l := by
  induction l with
  | nil => simp [tFind] at h
  | cons e l ih =>
    obtain ⟨j, z⟩ := e
    rw [tFind] at h
    split at h
    · next hk =>
      rw [hk, ← Option.some.inj h]
      exact List.mem_cons_self
    · exact List.mem_cons_of_mem _ (ih h)

theorem eqs_deadEqs {l fn e : Nat} {q : Eq} (hq : tFind s.eqs e = some q) (hl : q.link = l) (hfn : q.fn = fn) :
    tFind (s.deadEqs l fn).eqs e = some { q with dead := true, armed := false } := by
  have hmap := tFind_map (fun (e : Nat × Eq) => if e.2.link = l ∧ e.2.fn = fn then (e.1, { e.2 with dead := true, armed := false }) else e)
    (fun e => by dsimp only; split <;> rfl) s.eqs e
  rw [State.deadEqs, hmap, hq, Option.map_some, if_pos ⟨hl, hfn⟩]

/-- What a function's reset leaves: HL_STATUS tells of it, its event queues are dead, its contexts carry error_sticky. -/
theorem functionReset_spec {fn : Nat} (hq : (s.tl h.val).rxRsp = x :: xs) (hty : tlpF x.body 127 120 = 0x14) (hsub : tlpF x.body 111 108 = 2)
    (hfn : tlpF x.body 119 115 = fn) (hcqs : s.cqs = []) (hreq : (s.tl h.val).reqQ = []) (hlocks : s.locks = [])
    (ht : t = doErrrptFunctionReset h s) :
    t.rb (.hlStatus h) 3 = true ∧
    (∀ e q, tFind s.eqs e = some q → q.link = h.val → q.fn = fn → ∃ q', tFind t.eqs e = some q' ∧ q'.dead = true ∧ q'.armed = false) ∧
    (t.tl h.val).rxRsp = xs ∧ (∀ c ∈ s.ctxsOf h.val fn, s.HasCtx c false → t.stuck c) ∧
    (∀ a, (∀ c ∈ s.ctxsOf h.val fn, a < s.ctxAddr c + 16 ∨ s.ctxAddr c + 24 ≤ a) → t.hbmByte a = s.hbmByte a) ∧
    s.Alters t [.ht, .hll, .regs, .ctxs, .hbm, .eqs, .hatoms, .uses, .tfl, .inject] (fun _ => True) := by
  obtain ⟨v, hv⟩ : ∃ v, v = s.tookRsp h x xs := ⟨_, rfl⟩
  obtain ⟨htl, hsv, -⟩ := tookRsp_spec s h x xs hv
  obtain ⟨a, ha⟩ : ∃ a, a = v.wb (.hlStatus h) 3 true := ⟨_, rfl⟩
  have hva : v.Alters a [.regs] (fun _ => True) := ha ▸ .setReg v _ trivial
  have hsa : s.Alters a [.ht, .hll, .regs] (fun _ => True) := (hsv.mono (by decide) fun _ _ => trivial).trans hva.mono
  obtain ⟨keep, g, hdo⟩ := doErrrptFunctionReset_eq hq hty hsub hfn hcqs hreq (hv ▸ ha)
  have hcs : a.ctxsOf h.val fn = s.ctxsOf h.val fn := by rw [State.ctxsOf, hsa.ctxs, State.ctxsOf]
  rw [hcs] at hdo
  obtain ⟨b, hb⟩ : ∃ b, b = (s.ctxsOf h.val fn).foldl State.disown a := ⟨_, rfl⟩
  have hspec := disowned_spec (s.ctxsOf h.val fn) a
  rw [← hb] at hspec hdo
  obtain ⟨hab, hctx, hbyte⟩ := hspec
  obtain ⟨c, hc⟩ : ∃ c, c = b.modTl h.val (fun y => y.dropFn keep fn) := ⟨_, rfl⟩
  have hbc : b.Alters c [.ht] (fun _ => False) := hc ▸ .modTl ..
  obtain ⟨d, hd⟩ : ∃ d, d = c.deadEqs h.val fn := ⟨_, rfl⟩
  have hcd : c.Alters d [.eqs] (fun _ => False) := hd ▸ .put_eqs c _
  obtain ⟨e, he⟩ : ∃ e, e = d.modTl h.val (fun y => { y with heldCpls := y.heldCpls.filter g }) := ⟨_, rfl⟩
  have hde : d.Alters e [.ht] (fun _ => False) := he ▸ .modTl ..
  obtain ⟨f, hf⟩ : ∃ f, f = e.putOffAtoms State.deadAtom := ⟨_, rfl⟩
  have hef : e.Alters f [.hatoms, .uses, .tfl, .inject, .regs] RefuseAt := hf ▸ putOffAtoms_alters ..
  have hflocks : f.locks = [] := by rw [hef.locks, hde.locks, hcd.locks, hbc.locks, hab.locks, hsa.locks, hlocks]
  rw [← hc, ← hd, ← he, ← hf, resetHolders_of_free hflocks] at hdo
  have hft : f.Posts t := by
    rw [ht, hdo]
    exact .postMgmt ..
  have hctxs : t.ctxs = b.ctxs := by rw [hft.alters.ctxs, hef.ctxs, hde.ctxs, hcd.ctxs, hbc.ctxs]
  have hhbm : t.hbm = b.hbm := by rw [hft.alters.hbm, hef.hbm, hde.hbm, hcd.hbm, hbc.hbm]
  refine ⟨?_, fun k q hk hl hfn' => ?_, ?_, fun k hk hs => ?_, fun n hn => ?_, ?_⟩
  · rw [hft.status _ _ (by decide), hef.rb (not_refuseAt_hlStatus h), hde.rb id, hcd.rb id, hbc.rb id, hab.rb id, ha, rb_wb_same _ _ _ _ (by decide)]
  · have hkc : tFind c.eqs k = some q := by rw [hbc.eqs, hab.eqs, hsa.eqs, hk]
    have hkf : tFind f.eqs k = some { q with dead := true, armed := false } := by
      rw [hef.eqs, hde.eqs, hd]
      exact eqs_deadEqs hkc hl hfn'
    exact ⟨_, hft.dead k _ hkf rfl, rfl, rfl⟩
  · obtain ⟨-, -, -, hrx, -⟩ := (hft.links h.val).keeps
    rw [hrx, State.tl, hef.ht, ← State.tl, he, tl_modTl_same]
    dsimp only
    rw [State.tl, hcd.ht, ← State.tl, hc, tl_modTl_same]
    dsimp only [HostTl.dropFn]
    rw [State.tl, hab.ht, hva.ht, ← State.tl, htl]
  · have hak : a.HasCtx k false := by
      obtain ⟨y, hy, hlen, -⟩ := hs
      exact ⟨y, by rw [State.ctx?, hsa.ctxs]; exact hy, hlen, by simp⟩
    obtain ⟨-, -, -, hst⟩ := hctx k false hak
    have := hst (by simpa using hk)
    unfold State.stuck at this ⊢
    rwa [ctxWord_of_ctxs hctxs]
  · have h1 : t.hbmByte n = b.hbmByte n := by
      unfold State.hbmByte
      rw [hhbm]
    have h2 : a.hbmByte n = s.hbmByte n := by
      unfold State.hbmByte
      rw [hsa.hbm]
    rw [h1, hbyte n fun c hc => by rw [ctxAddr_of_alters hsa]; exact hn c hc, h2]
  · have hae : a.Alters e [.ctxs, .hbm, .ht, .eqs] (fun _ => False) := (hab.mono.trans hbc.mono).trans (hcd.mono.trans hde.mono)
    exact (hsa.mono.trans (hae.mono (by decide) fun _ => False.elim)).trans
      ((hef.mono (by decide) fun _ _ => trivial).trans (hft.alters.mono (by decide) fun _ _ => trivial))

end

end Sys2Proof.Machine
end

section
/-! PROOFS. Reads of host memory end, and failures that the adapter reports: the statement (R148, R153, R154, R165, R166). -/

namespace Sys2Proof.Machine

-- The proofs are elaborated one after another: in parallel their threads' stacks need more memory than a compile may have.
set_option Elab.async false

section

variable {s t : State} {h : HLink} {x : RxTlp} {xs : List RxTlp}

/-- A completion for a tag that is not outstanding. -/
theorem cpld_unexpected (hq : (s.tl h.val).rxRsp = x :: xs) (hty : tlpF x.body 127 120 = 0x12)
    (hr : tFind (s.tl h.val).reads (tlpF x.body 111 100) = none) (ht : t = doCpld h s) :
    t.rf (.hlTlperr h) 47 32 = min 0xFFFF (s.rf (.hlTlperr h) 47 32 + 1) ∧ (t.tl h.val).rxRsp = xs ∧ (t.tl h.val).reads = (s.tl h.val).reads ∧
      t = { s with regs := t.regs, ht := t.ht, hll := t.hll } ∧ s.Alters t [.ht, .hll, .regs] (fun _ => True) := by
  obtain ⟨u, hu⟩ : ∃ u, u = s.tookRsp h x xs := ⟨_, rfl⟩
  obtain ⟨htl, hsu, hframe⟩ := tookRsp_spec s h x xs hu
  have ht' : t = u.bump (.hlTlperr h) 47 32 1 := by
    rw [ht, doCpld_eq hq hty hu, htl]
    simp only [hr]
  have hut : u.Alters t [.regs] (fun _ => True) := ht' ▸ .setReg u _ trivial
  have hf : t = { u with regs := t.regs } := by rw [ht']; rfl
  have htl' : t.tl h.val = { s.tl h.val with rxRsp := xs } := by
    rw [State.tl, hut.ht]
    exact htl
  refine ⟨?_, by rw [htl'], by rw [htl'], ?_, (hsu.mono (by decide) fun _ => False.elim).trans hut.mono⟩
  · rw [ht', rf_bump_same _ _ _ _ _ (by decide), hsu.rf id, Nat.min_comm]
    rfl
  · rw [hut.ht, hut.hll]
    rw [hframe] at hf
    exact hf

/-- A completion that does not end its read. -/
theorem cpld_continues {r : ReadOut} {g : Nat} (hq : (s.tl h.val).rxRsp = x :: xs) (hty : tlpF x.body 127 120 = 0x12) (hg : tlpF x.body 111 100 = g)
    (hr : tFind (s.tl h.val).reads g = some r) (hst : tlpF x.body 99 96 = 0) (hoff : tlpF x.body 81 70 = r.got.length) (hmore : tlpF x.body 95 95 = 0)
    (hlen : x.body.length = 16 + tlpF x.body 94 82) (hfit : r.got.length + tlpF x.body 94 82 ≤ r.len) (ht : t = doCpld h s) :
    tFind (t.tl h.val).reads g = some { r with got := r.got ++ x.body.drop 16 } ∧ (t.tl h.val).rxRsp = xs ∧ t = { s with ht := t.ht, hll := t.hll } ∧
      s.Alters t [.ht, .hll] (fun _ => False) := by
  obtain ⟨u, hu⟩ : ∃ u, u = s.tookRsp h x xs := ⟨_, rfl⟩
  obtain ⟨htl, hsu, hframe⟩ := tookRsp_spec s h x xs hu
  have hbad := cpldBad_of_good hst hoff hlen hfit fun e => by omega
  have ht' : t = u.modTl h.val (fun y => { y with reads := tPut g { r with got := r.got ++ x.body.drop 16 } y.reads }) := by
    rw [ht, doCpld_eq hq hty hu, htl, hg]
    simp only [hr, hbad, Bool.false_eq_true, if_false, hmore, cpld_bytes hlen, Nat.zero_ne_one]
  have hut : u.Alters t [.ht] (fun _ => False) := ht' ▸ .modTl ..
  have hf : t = { u with ht := t.ht } := by rw [ht']; rfl
  refine ⟨?_, ?_, ?_, hsu.mono.trans hut.mono⟩
  · rw [ht', tl_modTl_same]
    exact tFind_tPut_same ..
  · rw [ht', tl_modTl_same, htl]
  · rw [hut.hll]
    rw [hframe] at hf
    exact hf

/-- A completion that ends a table walk's read. -/
theorem cpld_walk {r : ReadOut} {g w : Nat} {y : Walk} (hq : (s.tl h.val).rxRsp = x :: xs) (hty : tlpF x.body 127 120 = 0x12)
    (hg : tlpF x.body 111 100 = g) (hr : tFind (s.tl h.val).reads g = some r) (hdrop : r.drop = false) (hp : r.purpose = .walk w)
    (hy : tFind s.walks w = some y) (hst : tlpF x.body 99 96 = 0) (hoff : tlpF x.body 81 70 = r.got.length) (hlast : tlpF x.body 95 95 = 1)
    (hlen : x.body.length = 16 + tlpF x.body 94 82) (hfit : r.got.length + tlpF x.body 94 82 = r.len) (ht : t = doCpld h s) :
    tFind (t.tl h.val).reads g = none ∧ tFind t.walks w = some { y with entry := some (BitVec.ofNat 64 (ofLe (r.got ++ x.body.drop 16))) } ∧
      t = { s with ht := t.ht, hll := t.hll, walks := t.walks } ∧ s.Alters t [.ht, .hll, .walks] (fun _ => False) := by
  obtain ⟨u, hu⟩ : ∃ u, u = s.tookRsp h x xs := ⟨_, rfl⟩
  obtain ⟨htl, hsu, hframe⟩ := tookRsp_spec s h x xs hu
  have hbad := cpldBad_of_good hst hoff hlen hfit.le fun _ => hfit
  obtain ⟨v, hv⟩ : ∃ v, v = u.modTl h.val (fun y => { y with reads := tDel g y.reads }) := ⟨_, rfl⟩
  have huv : u.Alters v [.ht] (fun _ => False) := hv ▸ .modTl ..
  have hfv : v = { u with ht := v.ht } := by rw [hv]; rfl
  have ht' : t = v.modWalk w fun z => { z with entry := some (BitVec.ofNat 64 (ofLe (r.got ++ x.body.drop 16))) } := by
    rw [ht, doCpld_eq hq hty hu, htl, hg]
    simp only [hr, hbad, Bool.false_eq_true, if_false, hlast, if_true, cpld_bytes hlen, State.readOutEnds, ← hv, hdrop, hp]
    rfl
  have hvt : v.Alters t [.walks] (fun _ => False) := ht' ▸ .modWalk ..
  have hft : t = { v with walks := t.walks } := by rw [ht']; exact modWalk_frame ..
  refine ⟨?_, ?_, ?_, hsu.mono.trans (huv.mono.trans hvt.mono)⟩
  · rw [State.tl, hvt.ht, ← State.tl, hv, tl_modTl_same]
    exact tFind_tDel_same ..
  · rw [ht', walks_modWalk_same, huv.walks, hsu.walks, hy]
    rfl
  · rw [hvt.ht, hvt.hll, huv.hll]
    rw [hfv, hframe] at hft
    exact hft

end

/-- Settles O24: each command is one change of its link's reads, tags or history entries; a report of a failure is counted, noted and posted,
and error_sticky is written in the contexts of a function that was reset, one after the other. -/
theorem hostReadsEndAndFailuresAreReported : Obligations.HostReadsEndAndFailuresAreReported := by
  unfold Obligations.HostReadsEndAndFailuresAreReported
  refine ⟨?_, ?_, ?_, ?_, ?_, ?_, ?_, ?_, ?_⟩
  · intro s h x xs hc hlive hq hty hr
    obtain ⟨hn, hrx, hreads, hframe, hal⟩ := cpld_unexpected hq hty hr rfl
    exact ⟨_, act_of_alters hlive hc rfl hal, hn, hrx, hreads, hframe⟩
  · intro s h x xs r g hc hlive hq hty hg hr hst hoff hmore hlen hfit
    obtain ⟨hread, hrx, hframe, hal⟩ := cpld_continues hq hty hg hr hst hoff hmore hlen hfit rfl
    exact ⟨_, act_of_alters hlive hc rfl hal, hread, hrx, hframe⟩
  · intro s h x xs r g w y hc hlive hq hty hg hr hdrop hp hy hst hoff hlast hlen hfit
    obtain ⟨hread, hwalk, hframe, hal⟩ := cpld_walk hq hty hg hr hdrop hp hy hst hoff hlast hlen hfit rfl
    exact ⟨_, act_of_alters hlive hc rfl hal, hread, hwalk, hframe⟩
  · intro s h g dt w r y hc hlive hr hdrop hp hy hlate hlast
    obtain ⟨hread, hwith, hwalk, hn, hst, hal⟩ := doReadTimeout_walk hr hdrop hp hy hlate hlast rfl
    exact ⟨_, act_of_alters hlive hc rfl hal, hread, hwith, hwalk, hn, hst, hal.hbm⟩
  · intro s h g dt t0 hc hlive hg hle
    obtain ⟨u, hu⟩ : ∃ u, u = s.elapse dt := ⟨_, rfl⟩
    rw [← hu] at hc hlive hg hle ⊢
    have hdo : doReadTagRelease h g u = u.modTl h.val fun x => { x with withheld := tDel g.val x.withheld } := by
      unfold doReadTagRelease
      simp only [hg]
      rw [if_pos hle]
    refine ⟨u.modTl h.val fun x => { x with withheld := tDel g.val x.withheld }, ?_, ?_, ?_, rfl⟩
    · show (s.elapse dt).act (.hostlink h) (doReadTagRelease h g) = _
      rw [← hu]
      exact act_of_alters hlive hc hdo (.modTl (F := [.ht]) (P := fun _ => False) ..)
    · rw [tl_modTl_same]
      exact tFind_tDel_same ..
    · rw [tl_modTl_same]
  · intro s h g dt e hc hlive hg hle
    obtain ⟨u, hu⟩ : ∃ u, u = s.elapse dt := ⟨_, rfl⟩
    rw [← hu] at hc hlive hg hle ⊢
    have hdo : doWriteHistoryExpiry h g u = u.modTl h.val fun x => { x with hist := tDel g.toNat x.hist } := by
      unfold doWriteHistoryExpiry
      simp only [hg]
      rw [if_neg (by rw [hle]; decide)]
    refine ⟨u.modTl h.val fun x => { x with hist := tDel g.toNat x.hist }, ?_, ?_, ?_, rfl⟩
    · show (s.elapse dt).act (.hostlink h) (doWriteHistoryExpiry h g) = _
      rw [← hu]
      exact act_of_alters hlive hc hdo (.modTl (F := [.ht]) (P := fun _ => False) ..)
    · rw [tl_modTl_same]
      exact tFind_tDel_same ..
    · rw [tl_modTl_same]
  · intro s h x xs e c y hc hlive hq hty hsub he hl hctx hn hy hlen
    obtain ⟨hst, hcount, hstatus, hrx, hhbm, hal⟩ := errrpt_sticky hq hty hsub he hl hctx hn hy hlen rfl
    exact ⟨_, act_of_alters hlive hc rfl hal, hst, hcount, hstatus, hrx, hhbm⟩
  · intro s h x xs hc hlive hq hty hsub hnone
    obtain ⟨h1, h2, hcount, hal⟩ := errrpt_astray hq hty hsub hnone rfl
    exact ⟨_, act_of_alters hlive hc rfl hal, h1, h2, hcount, hal.ctxs, hal.hbm⟩
  · intro s h x xs hc hlive hq hty hsub hcqs hreq hlocks
    obtain ⟨hst, heqs, hrx, hctx, hbyte, hal⟩ := functionReset_spec hq hty hsub rfl hcqs hreq hlocks rfl
    refine ⟨_, act_of_alters hlive hc rfl hal, hst, heqs, hrx, fun c y hy hlen hl hfn => ?_, fun a ha => hbyte a fun c hcs => ?_⟩
    · refine hctx c ?_ ⟨y, hy, hlen, by simp⟩
      exact List.mem_map.2 ⟨(c, y), List.mem_filter.2 ⟨mem_of_tFind hy, by simpa using ⟨hl, hfn⟩⟩, rfl⟩
    · obtain ⟨e, he, rfl⟩ := List.mem_map.1 hcs
      obtain ⟨hmem, hof⟩ := List.mem_filter.1 he
      obtain ⟨hl, hfn⟩ : fld (e.2.words.getD 2 0) 55 53 = h.val ∧ fld (e.2.words.getD 2 0) 60 56 = tlpF x.body 119 115 := by simpa using hof
      exact ha e hmem hl hfn

end Sys2Proof.Machine
end

section
/-! PROOFS. Collectives: an instance to which no command contributes, and the inputs that a segment waits for (R298 to R301, R313). -/

namespace Sys2Proof.Machine

-- The proofs are elaborated one after another: in parallel their threads' stacks need more memory than a compile may have.
set_option Elab.async false

section

variable {s t u : State} {h : Nat} {x : ClInst}

/-! ### An instance that no command of the chip waits for -/

/-- No member of an instance is a command. -/
def State.Opless (s : State) (h : Nat) : Prop := ∀ x, tFind s.insts h = some x → ∀ m ∈ x.members, m.2.op = none

/-- What combining does at most to an instance that no command waits for. -/
def State.Combines (h : Nat) (s t : State) : Prop :=
  s.Opless h → s.Alters t [.insts, .groups, .frees, .inject] (fun _ => False) ∧
    (∀ k, (tFind t.groups k).map ClGroup.seqs = (tFind s.groups k).map ClGroup.seqs) ∧ t.Opless h

namespace State.Combines

theorem refl (s : State) : State.Combines h s s := fun hs => ⟨.refl s, fun _ => rfl, hs⟩

theorem trans (h1 : State.Combines h s t) (h2 : State.Combines h t u) : State.Combines h s u := fun hs => by
  obtain ⟨ha, hg, ho⟩ := h1 hs
  obtain ⟨ha', hg', ho'⟩ := h2 ho
  exact ⟨ha.trans ha', fun k => (hg' k).trans (hg k), ho'⟩

theorem ite {p : Prop} [Decidable p] (ht : State.Combines h s t) (hu : State.Combines h s u) : State.Combines h s (if p then t else u) := by
  split
  · exact ht
  · exact hu

theorem foldl {α : Type} {f : State → α → State} (hf : ∀ t x, State.Combines h t (f t x)) (xs : List α) (s : State) : State.Combines h s (xs.foldl f s) :=
  List.foldlRecOn (motive := fun t => State.Combines h s t) xs f (refl s) fun t ht x _ => ht.trans (hf t x)

/-- A change that leaves the instances and groups. -/
theorem of_alters {F : List Field} (ha : s.Alters t F (fun _ => False)) (hF : F ⊆ [.frees, .inject] := by decide) : State.Combines h s t := fun hs =>
  ⟨ha.mono (fun f hf => by have := hF hf; simp only [List.mem_cons, List.not_mem_nil, or_false] at this ⊢; tauto),
    fun k => by rw [ha.groups fun hf => by simpa using hF hf], fun x hx => hs x (by rw [← hx, ha.insts fun hf => by simpa using hF hf])⟩

/-- The instance itself changed, its members still no commands. -/
theorem put_inst {y : ClInst} (hy : s.Opless h → ∀ m ∈ y.members, m.2.op = none) : State.Combines h s { s with insts := tPut h y s.insts } := fun hs =>
  ⟨.put_insts s _, fun _ => rfl, fun x hx => by
    have hxy : x = y := by
      have : tFind (tPut h y s.insts) h = some x := hx
      rw [tFind_tPut_same] at this
      exact (Option.some.inj this).symm
    rw [hxy]
    exact hy hs⟩

theorem modInst {f : ClInst → ClInst} (hf : ∀ x : ClInst, (∀ m ∈ x.members, m.2.op = none) → ∀ m ∈ (f x).members, m.2.op = none) :
    State.Combines h s (s.modInst h f) := by
  unfold State.modInst
  split
  · next x hx => exact put_inst fun hs => hf x (hs x hx)
  · exact refl s

theorem modGroup {d g : Nat} {f : ClGroup → ClGroup} (hf : ∀ r, (f r).seqs = r.seqs) : State.Combines h s (s.modGroup d g f) := by
  unfold State.modGroup
  split
  · next r hr =>
    refine fun hs => ⟨.put_groups s _, fun k => ?_, hs⟩
    by_cases hk : k = grpKey d g
    · subst hk
      rw [tFind_tPut_same, hr]
      exact congrArg some (hf r)
    · rw [tFind_tPut_other _ _ _ _ hk]
  · exact refl s

theorem closeInst : State.Combines h s (s.closeInst h) := by
  unfold State.closeInst
  split
  · exact refl s
  · next x hx =>
    refine trans (t := { s with insts := tDel h s.insts }) ?_ (modGroup fun _ => rfl)
    refine fun _ => ⟨.put_insts s _, fun _ => rfl, fun y hy => ?_⟩
    have hnone : tFind (tDel h s.insts) h = none := tFind_tDel_same ..
    exact absurd (hy.symm.trans hnone) (by simp)

theorem collSend (e dest vclass tc : Nat) (p : List (Nat × Nat × Nat)) (payload : List Byte) :
    State.Combines h s (s.collSend e dest vclass tc p payload) := of_alters (.put_inject (F := [.inject]) s _)

theorem sendUp (y : ClInst) (j : Nat) (vs : List Nat) : State.Combines h s (s.sendUp y j vs) := collSend _ _ _ _ _ _

theorem sendDown (y : ClInst) (j : Nat) (vs : List Nat) : State.Combines h s (s.sendDown y j vs) := foldl (fun _ _ => collSend _ _ _ _ _ _) _ _

end State.Combines

/-- A pass over an instance's members that touches commands alone. -/
theorem foldl_opless {α β : Type} {f : β → α → β} {xs : List α} (hf : ∀ t, ∀ m ∈ xs, f t m = t) (b : β) : xs.foldl f b = b :=
  List.foldlRecOn (motive := fun t => t = b) xs f rfl fun t ht m hm => (hf t m hm).trans ht

namespace State.Combines

theorem collCheck : State.Combines h s (s.collCheck h) := fun hs => by
  cases hx : tFind s.insts h with
  | none =>
    rw [show s.collCheck h = s by simp only [State.collCheck, hx]]
    exact refl s hs
  | some x =>
    have hops := hs x hx
    unfold State.collCheck
    simp only [hx]
    refine ite (refl s) ?_ hs
    rw [foldl_opless (xs := x.members) (b := s) fun t m hm => by simp only [hops m hm]]
    simp only [hx]
    exact ite closeInst (refl s)

theorem collWrite (j : Nat) (vs : List Nat) : State.Combines h s (s.collWrite h j vs) := fun hs => by
  have he : s.collWrite h j vs = s := by
    unfold State.collWrite
    split
    · rfl
    · next x hx => exact foldl_opless (fun t m hm => by simp only [hs x hx m hm]) s
  rw [he]
  exact refl s hs

theorem collRow (j : Nat) (vs : List Nat) : State.Combines h s (s.collRow h j vs) := by
  unfold State.collRow
  have h1 : State.Combines h s (s.modInst h fun x => { x with rows := tPut j vs x.rows }) := modInst fun _ hx => hx
  extract_lets s1 s2
  split
  · exact h1
  · refine ite h1 ?_
    extract_lets s3
    have h2 : State.Combines h s1 s2 := modInst (f := fun x => { x with rows := [] }) fun _ hx => hx
    have h3 : State.Combines h s2 s3 := ite (refl _) (foldl (fun _ _ => collWrite _ _) _ _)
    exact (h1.trans h2).trans (h3.trans collCheck)

theorem freeElems_alters (k : Nat) (s : State) (w : Nat) : s.Alters (State.freeElems k s w).2 [.frees] (fun _ => False) := by
  induction k generalizing s with
  | zero => exact .refl s
  | succ k ih => exact (State.Alters.put_frees (F := [.frees]) s _).trans (ih _)

theorem foldAny_alters (k : Nat) (s : State) (x : ClInst) (l : List (List Nat)) : s.Alters (State.foldAny k s x l).2 [.frees] (fun _ => False) := by
  induction k generalizing s l with
  | zero => exact .refl s
  | succ k ih =>
    unfold State.foldAny
    split
    · exact .refl s
    · exact .refl s
    · exact ((State.Alters.put_frees (F := [.frees]) s _).trans (.put_frees _ _)).trans (ih _ _)

/-- Combining leaves the commands of an instance's members. -/
theorem op_dropSeg {j : Nat} {l : Tab ClIn} (hl : ∀ m ∈ l, m.2.op = none) : ∀ m ∈ dropSeg j l, m.2.op = none := fun m hm => by
  obtain ⟨e, he, rfl⟩ := List.mem_map.1 hm
  exact hl e he

/-- A step of combining. -/
theorem collStep (hst : s.collStep h = some t) : State.Combines h s t := by
  unfold State.collStep at hst
  split at hst
  · exact absurd hst (by simp)
  · next x hx =>
    split at hst
    · exact absurd hst (by simp)
    · split at hst
      · exact absurd hst (by simp)
      · next l hl =>
        extract_lets j f r vs spill x1 s0 s1 fs fl x2 s2 ds at hst
        have hr : State.Combines h s r.2 := by
          unfold r
          split
          · exact of_alters (freeElems_alters ..)
          · split
            · exact of_alters (foldAny_alters ..)
            · exact refl s
        have hops : s.Opless h → ∀ m ∈ x1.members, m.2.op = none := fun hs => op_dropSeg (hs x hx)
        have hs1 : State.Combines h s s1 := fun hs => (hr.trans (put_inst fun _ => hops hs)) hs
        have hs2 : State.Combines h s s2 := fun hs => (hs1.trans (put_inst (y := x2) fun _ => hops hs)) hs
        split at hst
        · rw [← Option.some.inj hst]
          exact (hs2.trans (sendDown _ _ _)).trans (collRow _ _)
        · rw [← Option.some.inj hst]
          exact hs1.trans (sendUp _ _ _)

theorem collReads : State.Combines h s (s.collReads h) := fun hs => by
  have he : s.collReads h = s := by
    unfold State.collReads
    split
    · rfl
    · next x hx => exact foldl_opless (fun t m hm => by simp only [hs x hx m hm]) s
  rw [he]
  exact refl s hs

theorem collTry (k : Nat) (s : State) : State.Combines h s (State.collTry k s h) := by
  induction k generalizing s with
  | zero => exact refl s
  | succ k ih =>
    unfold State.collTry
    split
    · next t ht => exact ((collStep ht).trans collReads).trans (ih _)
    · exact refl s

theorem collRun : State.Combines h s (s.collRun h) := by
  unfold State.collRun
  split
  · exact refl s
  · exact collTry _ s

end State.Combines

end

end Sys2Proof.Machine
end

section
/-! PROOFS. A COLL joins the instance that it begins, or is left out of it (R294, R295, R314). -/

namespace Sys2Proof.Machine

-- The proofs are elaborated one after another: in parallel their threads' stacks need more memory than a compile may have.
set_option Elab.async false

section

variable {s t u : State} {op h g d j n : Nat} {o : Op} {c : Cq} {r : ClGroup} {x : ClInst}

/-! ### The command's place (R295) -/

theorem collTurn_of_next (hn : s.CollsNext o) (t : State) : s.collTurn o t = t := by
  unfold State.collTurn
  rw [if_neg]
  simp only [List.any_eq_true, not_exists, not_and, Bool.not_eq_true]
  intro e he
  rw [Bool.eq_false_iff]
  intro hall
  simp only [Bool.and_eq_true, Bool.not_eq_true', decide_eq_true_eq] at hall
  obtain ⟨⟨⟨⟨⟨hp, ha⟩, hc⟩, hop⟩, hg⟩, hst⟩ := hall
  rcases hn e he with h | h | h | h | h | h
  · exact absurd (h.symm.trans hp) (by decide)
  · exact absurd (h.symm.trans ha) (by decide)
  · exact h hc
  · exact h hop
  · exact h hg
  · omega

/-- The state with the command marked as performed: nothing but its record has changed. -/
theorem perform_eq (hop : tFind s.ops op = some o) : s.perform op = { s with ops := tPut op o.done s.ops } := by
  unfold State.perform State.modOp
  simp only [hop]
  rfl

theorem doColl_eq (hs : s.Starts op 0x0C o c) (hn : s.CollsNext o) : doColl op s = (s.perform op).startColl op o := by
  rw [doColl, checked_of_starts hs rfl, collTurn_of_next hn]

theorem group_of_find (hg : s.findGroup g = some (d, r)) : tFind s.groups (grpKey d g) = some r := by
  unfold State.findGroup at hg
  split at hg
  · next r0 h0 =>
    obtain ⟨rfl, rfl⟩ := Prod.mk.inj (Option.some.inj hg)
    exact h0
  · split at hg
    · next r1 h1 =>
      obtain ⟨rfl, rfl⟩ := Prod.mk.inj (Option.some.inj hg)
      exact h1
    · exact absurd hg (by simp)

/-! ### The instance begun (R295) -/

/-- The instance that a COLL begins at a group of record `r`, with given members and flags. -/
def Op.begins (o : Op) (r : ClGroup) (d g n clk count : Nat) (members : Tab ClIn) (flags : Nat) : ClInst :=
  { engine := r.engine, dom := d, group := g, n := n, op := fld (o.w 1) 47 40, ty := fld (o.w 1) 39 36, mode := fld (o.w 1) 35 34,
    count := count, since := clk, next := 0, members := members, kids := [], flags := flags, result := 0, downs := [] }

/-- A group's record once its member `j` has taken number `n`. -/
def ClGroup.taken (r : ClGroup) (j n : Nat) : ClGroup := { r with seqs := tPut j (n + 1) r.seqs }

/-- The member's number taken, and an instance there under the next serial number. -/
def State.began (s : State) (d g : Nat) (r : ClGroup) (x : ClInst) : State :=
  { s with groups := tPut (grpKey d g) r s.groups, insts := tPut s.serial x s.insts, serial := s.serial + 1 }

theorem modGroup_of_find {f : ClGroup → ClGroup} (hg : tFind s.groups (grpKey d g) = some r) :
    s.modGroup d g f = { s with groups := tPut (grpKey d g) (f r) s.groups } := by
  unfold State.modGroup
  simp only [hg]

theorem modInst_of_find {f : ClInst → ClInst} (hx : tFind s.insts h = some x) : s.modInst h f = { s with insts := tPut h (f x) s.insts } := by
  unfold State.modInst
  simp only [hx]

theorem newInst_eq {ty mode count : Nat} (hg : tFind s.groups (grpKey d g) = some r) : s.newInst d g n op ty mode count =
    ({ s with insts := tPut s.serial { engine := r.engine, dom := d, group := g, n := n, op := op, ty := ty, mode := mode, count := count, since := s.clk,
                                       next := 0, members := [], kids := [], flags := 0, result := 0, downs := [] } s.insts,
              serial := s.serial + 1 }, s.serial) := by
  unfold State.newInst
  simp only [hg]

theorem tPut_tPut {α : Type} (k : Nat) (v w : α) (l : Tab α) : tPut k v (tPut k w l) = tPut k v l := by
  induction l with
  | nil => simp [tPut]
  | cons e l ih =>
    obtain ⟨i, z⟩ := e
    simp only [tPut]
    split
    · simp [tPut]
    · split
      · simp [tPut]
      · next h1 h2 => simp [tPut, h1, h2, ih]

theorem collStatus_of_joins (hj : s.Joins o g d j n r) : s.collStatus o = 0 := by
  obtain ⟨rfl, hg, hp, -, hcl, hlen, hen, h5, h6, -⟩ := hj
  have hcoded : collCoded o.words = true := by
    unfold collCoded
    rw [Bool.and_eq_true, decide_eq_true_eq]
    exact ⟨hcl, hlen⟩
  unfold State.collStatus
  rw [hcoded]
  have h5' : o.words.getD 5 0 = s.grpWord d (fld (o.w 1) 63 48) 1 := h5
  have h6' : o.words.getD 6 0 = s.grpWord d (fld (o.w 1) 63 48) 2 := h6
  rw [if_neg (by decide)]
  have hg' : s.findGroup (fld (o.words.getD 1 0) 63 48) = some (d, r) := hg
  have hp' : s.grpPlace d (fld (o.words.getD 1 0) 63 48) o.ctx = some j := hp
  simp only [hg', hp', hen, Bool.not_true, Option.isNone_some, Bool.or_self, Bool.false_eq_true, if_false]
  rw [if_neg]
  intro h
  rw [Bool.or_eq_true, decide_eq_true_eq, decide_eq_true_eq] at h
  exact h.elim (fun e => e h5') (fun e => e h6')

theorem tMod_nil {α : Type} [DecidableEq α] {e : α} {k : Nat} {f : α → α} (hf : f e ≠ e) : tMod e k f [] = [(k, f e)] := by
  unfold tMod tSet
  rw [show tGet e [] k = e from rfl, if_neg hf]
  rfl

/-- A COLL whose checks hold begins its instance and contributes to it. -/
theorem startColl_begins (hj : s.Joins o g d j n r) (hnone : s.instOf d g n = none) :
    s.startColl op o = ((s.began d g (r.taken j n) (o.begins r d g n s.clk (fld (o.w 3) 31 0) [(j, { op := some op })] 0)).collReads s.serial).collRun s.serial := by
  have hst := collStatus_of_joins hj
  obtain ⟨rfl, hg, hp, rfl, -, -, -, -, -, hgone⟩ := hj
  have hgk := group_of_find hg
  obtain ⟨v, hv⟩ : ∃ v, v = ({ s with groups := tPut (grpKey d (fld (o.words.getD 1 0) 63 48)) (r.taken j (tGet 0 r.seqs j)) s.groups } : State) := ⟨_, rfl⟩
  have hvg : tFind v.groups (grpKey d (fld (o.words.getD 1 0) 63 48)) = some (r.taken j (tGet 0 r.seqs j)) := by
    rw [hv]
    exact tFind_tPut_same ..
  have hvi : v.instOf d (fld (o.words.getD 1 0) 63 48) (tGet 0 r.seqs j) = none := hv ▸ hnone
  have hvs : (s.modGroup d (fld (o.words.getD 1 0) 63 48) fun q => { q with seqs := tPut j (tGet 0 r.seqs j + 1) q.seqs }) = v :=
    (modGroup_of_find hgk).trans hv.symm
  obtain ⟨y, hy⟩ : ∃ y, y = o.begins r d (fld (o.words.getD 1 0) 63 48) (tGet 0 r.seqs j) s.clk (fld (o.w 3) 31 0) [] 0 := ⟨_, rfl⟩
  obtain ⟨hyop, hyty, hymode, hycount, hymem⟩ : y.op = fld (o.words.getD 1 0) 47 40 ∧ y.ty = fld (o.words.getD 1 0) 39 36 ∧
      y.mode = fld (o.words.getD 1 0) 35 34 ∧ y.count = fld (o.words.getD 3 0) 31 0 ∧ y.members = [] := by rw [hy]; exact ⟨rfl, rfl, rfl, rfl, rfl⟩
  obtain ⟨w, hw⟩ : ∃ w, w = ({ v with insts := tPut s.serial y v.insts, serial := s.serial + 1 } : State) := ⟨_, rfl⟩
  have hwx : tFind w.insts s.serial = some y := by
    rw [hw]
    exact tFind_tPut_same ..
  have hnew : v.newInst d (fld (o.words.getD 1 0) 63 48) (tGet 0 r.seqs j) (fld (o.words.getD 1 0) 47 40) (fld (o.words.getD 1 0) 39 36)
      (fld (o.words.getD 1 0) 35 34) (fld (o.words.getD 3 0) 31 0) = (w, s.serial) := by
    rw [newInst_eq hvg, hw, hy, hv]
    rfl
  obtain ⟨t, ht⟩ : ∃ t, t = s.startColl op o := ⟨_, rfl⟩
  rw [← ht]
  unfold State.startColl at ht
  rw [hst] at ht
  obtain ⟨G, hG⟩ : ∃ G, s.grpPlace = G := ⟨_, rfl⟩
  rw [hG] at ht
  have hpl : G d (fld (o.words.getD 1 0) 63 48) o.ctx = some j := hG ▸ hp
  extract_lets w1 gg oo ty mode count at ht
  rw [show s.findGroup gg = some (d, r) from hg] at ht
  simp -zeta only [show G d gg o.ctx = some j from hpl] at ht
  extract_lets n s1 sm p s2 h1 at ht
  rw [if_neg (by decide), if_neg (by rw [show r.gone n = false from hgone]; decide)] at ht
  have hp2 : p = (w, s.serial) := by
    unfold p
    rw [show s1 = v from hvs, show v.instOf d gg n = none from hvi]
    exact hnew
  have hs2 : s2 = w := congrArg Prod.fst hp2
  have hh1 : h1 = s.serial := congrArg Prod.snd hp2
  rw [hs2, hh1, hwx] at ht
  simp -zeta only [] at ht
  rw [if_pos ⟨hyop, hyty, hymode, hycount⟩, modInst_of_find hwx, hymem, tMod_nil (by simp)] at ht
  have hb : ({ w with insts := tPut s.serial { y with members := [(j, { op := some op })] } w.insts } : State) =
      s.began d (fld (o.w 1) 63 48) (r.taken j (tGet 0 r.seqs j))
        (o.begins r d (fld (o.w 1) 63 48) (tGet 0 r.seqs j) s.clk (fld (o.w 3) 31 0) [(j, { op := some op })] 0) := by
    rw [hw]
    dsimp only
    rw [tPut_tPut, hy, hv]
    rfl
  rw [ht, hb]

/-- A COLL of a group that is not installed completes with the status of its checks. -/
theorem startColl_ungrouped {g st : Nat} (hw : fld (o.w 1) 63 48 = g) (hg : s.findGroup g = none) (hst : s.collStatus o = st) :
    s.startColl op o = s.done op st := by
  subst hw
  obtain ⟨t, ht⟩ : ∃ t, t = s.startColl op o := ⟨_, rfl⟩
  rw [← ht]
  unfold State.startColl at ht
  rw [hst] at ht
  extract_lets w1 gg oo ty mode count at ht
  rw [show s.findGroup gg = none from hg] at ht
  exact ht

theorem collStatus_uncoded (h : collCoded o.words = false) : s.collStatus o = 1 := by
  unfold State.collStatus
  rw [h]
  rfl

theorem collStatus_ungrouped {g : Nat} (hw : fld (o.w 1) 63 48 = g) (h : collCoded o.words = true) (hg : s.findGroup g = none) :
    s.collStatus o = 2 := by
  have hg' : s.findGroup (fld (o.words.getD 1 0) 63 48) = none := hw ▸ hg
  unfold State.collStatus
  rw [h, if_neg (by decide)]
  simp only [hg']

theorem collCoded_iff : collCoded o.words = true ↔ clAllowed (fld (o.w 1) 47 40) (fld (o.w 1) 39 36) (fld (o.w 1) 35 34) = true ∧
    fld (o.w 3) 31 0 * clUp (fld (o.w 1) 47 40) (fld (o.w 1) 39 36) (fld (o.w 1) 35 34) < 2 ^ 32 := by
  unfold collCoded
  rw [Bool.and_eq_true, decide_eq_true_eq]
  exact Iff.rfl

/-! ### A member mismatched (R294, R314) -/

theorem collStatus_mismatch (hw : fld (o.w 1) 63 48 = g) (hcoded : collCoded o.words = true) (hg : s.findGroup g = some (d, r))
    (hp : s.grpPlace d g o.ctx = some j) (hen : s.rb (.clCtrl (engineOf r.engine)) 16 = true)
    (hne : o.w 5 ≠ s.grpWord d g 1 ∨ o.w 6 ≠ s.grpWord d g 2) : s.collStatus o = 0x0D := by
  subst hw
  have hg' : s.findGroup (fld (o.words.getD 1 0) 63 48) = some (d, r) := hg
  have hp' : s.grpPlace d (fld (o.words.getD 1 0) 63 48) o.ctx = some j := hp
  unfold State.collStatus
  rw [hcoded, if_neg (by decide)]
  simp only [hg', hp', hen, Bool.not_true, Option.isNone_some, Bool.or_self, Bool.false_eq_true, if_false]
  rw [if_pos]
  rw [Bool.or_eq_true, decide_eq_true_eq, decide_eq_true_eq]
  exact hne

/-- The instance of a number, once an instance of it has been put where there was none. -/
theorem find_put {l : Tab ClInst} {p : Nat × ClInst → Bool} {k : Nat} {y : ClInst} {e : Nat × ClInst} (hnone : l.find? p = none)
    (he : (tPut k y l).find? p = some e) : e = (k, y) := by
  have hp := List.find?_some he
  rcases mem_tPut (List.mem_of_find?_eq_some he) with h | h
  · exact h
  · exact absurd hp (List.find?_eq_none.1 hnone e h)

/-- A COLL that fails its checks is taken as mismatched, in the instance that it begins where it may begin one. -/
theorem startColl_mismatch {st : Nat} (hw : fld (o.w 1) 63 48 = g) (hg : s.findGroup g = some (d, r)) (hp : s.grpPlace d g o.ctx = some j)
    (hn : n = tGet 0 r.seqs j) (hst : s.collStatus o = st) (hst0 : st ≠ 0) (hnone : s.instOf d g n = none) :
    ∃ v u, v = ({ s with groups := tPut (grpKey d g) (r.taken j n) s.groups } : State) ∧ v.Alters u [.insts, .serial] (fun _ => False) ∧
      (∀ h, u.instOf d g n = some h → ∃ y, tFind u.insts h = some y ∧ y.members = []) ∧
      s.startColl op o = (u.missMember d g n j r.engine).done op st := by
  subst hw hn
  obtain ⟨v, hv⟩ : ∃ v, v = ({ s with groups := tPut (grpKey d (fld (o.w 1) 63 48)) (r.taken j (tGet 0 r.seqs j)) s.groups } : State) := ⟨_, rfl⟩
  have hvg : tFind v.groups (grpKey d (fld (o.w 1) 63 48)) = some (r.taken j (tGet 0 r.seqs j)) := by
    rw [hv]
    exact tFind_tPut_same ..
  have hvs : (s.modGroup d (fld (o.w 1) 63 48) fun q => { q with seqs := tPut j (tGet 0 r.seqs j + 1) q.seqs }) = v :=
    (modGroup_of_find (group_of_find hg)).trans hv.symm
  have hvn : v.instOf d (fld (o.w 1) 63 48) (tGet 0 r.seqs j) = none := by
    rw [hv]
    exact hnone
  obtain ⟨t, ht⟩ : ∃ t, t = s.startColl op o := ⟨_, rfl⟩
  rw [← ht]
  unfold State.startColl at ht
  rw [hst] at ht
  obtain ⟨G, hG⟩ : ∃ G, s.grpPlace = G := ⟨_, rfl⟩
  rw [hG] at ht hp
  extract_lets w1 gg oo ty mode count at ht
  rw [show s.findGroup gg = some (d, r) from hg] at ht
  simp -zeta only [show G d gg o.ctx = some j from hp] at ht
  extract_lets n s1 sm at ht
  rw [if_pos hst0] at ht
  have hnew := fun count => newInst_eq (g := gg) (op := oo) (n := n) (ty := ty) (mode := mode) (count := count) hvg
  refine ⟨v, sm, hv, ?_, fun h hh => ?_, ht⟩
  · unfold sm
    rw [show s1 = v from hvs]
    split
    · rw [hnew]
      exact State.Alters.trans (.put_insts v (tPut v.serial _ v.insts)) (.put_serial (F := [.insts, .serial]) _ (v.serial + 1))
    · exact .refl v
  · unfold sm at hh ⊢
    rw [show s1 = v from hvs] at hh ⊢
    split at hh
    · next hc =>
      rw [if_pos hc, hnew]
      rw [hnew] at hh
      obtain ⟨e, he, rfl⟩ := Option.map_eq_some_iff.1 hh
      have hee := find_put (Option.map_eq_none_iff.1 hvn) he
      rw [hee]
      exact ⟨_, tFind_tPut_same .., rfl⟩
    · exact absurd (hh.symm.trans hvn) (by simp)

/-- Where the mismatches of an engine are counted and noted. -/
def MissAt (e : Nat) (a : Nat) : Prop := a = (Reg.clCount (engineOf e)).addr ∨ a = (Reg.clStatus (engineOf e)).addr

/-- A member mismatched in an instance that has none yet: counted and noted, and its number stays taken. -/
theorem missMember_spec {e : Nat} (hy : ∀ h, s.instOf d g n = some h → ∃ y, tFind s.insts h = some y ∧ y.members = []) (ht : t = s.missMember d g n j e) :
    t.rf (.clCount (engineOf e)) 63 48 = min (s.rf (.clCount (engineOf e)) 63 48 + 1) 65535 ∧ t.rb (.clStatus (engineOf e)) 3 = true ∧
      (∀ k, (tFind t.groups k).map ClGroup.seqs = (tFind s.groups k).map ClGroup.seqs) ∧
      s.Alters t [.insts, .groups, .frees, .inject, .regs] (MissAt e) := by
  obtain ⟨u, hu⟩ : ∃ u, u = s.noteMismatch e := ⟨_, rfl⟩
  have hne : (Reg.clCount (engineOf e)).addr ≠ (Reg.clStatus (engineOf e)).addr := addr_ne_of_off 0x20 0x18 rfl rfl
  have hsu : s.Alters u [.regs] (MissAt e) := by
    rw [hu]
    exact (State.Alters.setReg s _ (.inl rfl)).trans (.setReg _ _ (.inr rfl))
  have hcount : u.rf (.clCount (engineOf e)) 63 48 = min (s.rf (.clCount (engineOf e)) 63 48 + 1) 65535 := by
    rw [hu, State.noteMismatch, State.wb, rf_wf_other _ _ _ _ _ _ _ _ hne, rf_bump_same _ _ _ _ _ (by decide)]
    rfl
  have hst : u.rb (.clStatus (engineOf e)) 3 = true := by rw [hu, State.noteMismatch, rb_wb_same _ _ _ _ (by decide)]
  have hut : u.Alters t [.insts, .groups, .frees, .inject] (fun _ => False) ∧ ∀ k, (tFind t.groups k).map ClGroup.seqs = (tFind u.groups k).map ClGroup.seqs := by
    rw [ht, State.missMember, ← hu]
    have hi : u.instOf d g n = s.instOf d g n := by rw [State.instOf, hsu.insts, State.instOf]
    rw [hi]
    cases hh : s.instOf d g n with
    | none => exact ⟨.refl u, fun _ => rfl⟩
    | some h =>
      obtain ⟨y, hfy, hym⟩ := hy h hh
      have hfu : tFind u.insts h = some y := by rw [hsu.insts, hfy]
      have hop : u.Opless h := fun x hx m hm => by
        rw [Option.some.inj (hx.symm.trans hfu), hym] at hm
        exact absurd hm (by simp)
      dsimp only
      rw [modInst_of_find hfu, hym, tMod_nil (by simp)]
      obtain ⟨ha, hseq, -⟩ := ((State.Combines.put_inst (h := h) (y := { y with members := [(j, { out := true })], flags := y.flags ||| 1 }) fun _ m hm => by
        rw [List.mem_singleton.1 hm]).trans .collRun) hop
      exact ⟨ha, hseq⟩
  obtain ⟨hut, hseq⟩ := hut
  refine ⟨by rw [hut.rf id, hcount], by rw [hut.rb id, hst], fun k => by rw [hseq, hsu.groups], hsu.mono.trans (hut.mono (by decide) fun _ => False.elim)⟩


end

end Sys2Proof.Machine
end

section
/-! PROOFS. The send buffer's read of a contribution of one segment, and the instance that waits for it (R297, R300, R301). -/

namespace Sys2Proof.Machine

-- The proofs are elaborated one after another: in parallel their threads' stacks need more memory than a compile may have.
set_option Elab.async false

section

variable {s t u w : State} {op h d g j n : Nat} {o : Op} {x y : ClInst} {m : ClIn}

/-- The read of segment 0 of a member's send buffer. -/
def ClInst.firstRead (x : ClInst) (op stall : Nat) (o : Op) : Xfer :=
  mkXfer stall o.ctx 0 0 false false (.collSrc op 0) ((o.w 2).toNat + 0 * x.per * clElem x.op x.ty) (x.elems 0 * clElem x.op x.ty) []

/-- The window's reads of an instance of one segment and one member, which is a command. -/
theorem collReads_one (hx : tFind w.insts h = some x) (hm : x.members = [(j, { op := some op })]) (hseg : x.nseg = 1) (hnext : x.next = 0)
    (ho : tFind w.ops op = some o) (hy : y = { x with members := [(j, { op := some op, asked := 1 })] })
    (hu : u = { w with insts := tPut h y w.insts }) :
    w.collReads h = if x.elems 0 = 0 then u.modInst h (fun x => { x with members := tMod {} j (fun i => { i with segs := tPut 0 [] i.segs }) x.members })
      else u.startXfer (x.firstRead op (u.ctxStall o.ctx) o) := by
  have hmod : (w.modInst h fun z => { z with members := tMod {} j (fun i => { i with asked := max i.asked 1 }) z.members }) = u := by
    rw [modInst_of_find hx, hu, hy, hm]
    have e : tMod ({} : ClIn) j (fun i => { i with asked := max i.asked 1 }) [(j, { op := some op })] = [(j, { op := some op, asked := 1 })] := by
      unfold tMod tSet
      simp [tGet, tFind, tPut]
    rw [e]
  unfold State.collReads
  simp only [hx, hm, List.foldl_cons, List.foldl_nil, ho, Bool.false_eq_true, if_false, hseg, hnext]
  rw [show min 1 (0 + 17) = 1 from rfl, hmod, show List.range (1 - 0) = [0] from rfl, List.foldl_cons, List.foldl_nil]
  rfl

/-! ### Inputs that are missing (R300) -/

/-- A pass that is stopped by what it lacks. -/
theorem foldl_none {α : Type} {f : Option (List α) → Option (List α) → Option (List α)} (hf : ∀ a, f none a = none) (l : List (Option (List α))) :
    l.foldl f none = none := by
  induction l with
  | nil => rfl
  | cons a l ih => rw [List.foldl_cons, hf, ih]

theorem foldl_none_of_mem {α : Type} {f : Option (List α) → Option (List α) → Option (List α)} (hf : ∀ a, f none a = none) (hf' : ∀ a, f a none = none)
    {l : List (Option (List α))} (h : none ∈ l) (a : Option (List α)) : l.foldl f a = none := by
  induction l generalizing a with
  | nil => simp at h
  | cons b l ih =>
    rw [List.foldl_cons]
    rcases List.mem_cons.1 h with hb | hl
    · rw [← hb, hf', foldl_none hf]
    · exact ih hl _

/-- A segment waits for a local member that has not supplied it. -/
theorem inputs_none {nl nk k i : Nat} (hi : i < nl) (hm : tFind x.members i = some m) (hout : m.out = false) (hseg : tFind m.segs k = none) :
    x.inputs nl nk k = none := by
  unfold ClInst.inputs
  refine foldl_none_of_mem (fun a => by cases a <;> rfl) (fun a => by cases a <;> rfl) ?_ _
  refine List.mem_append_left _ (List.mem_map.2 ⟨i, List.mem_range.2 hi, ?_⟩)
  simp only [hm, hout, Bool.false_eq_true, if_false, hseg]

theorem collStep_none (hx : tFind s.insts h = some x) (hin : x.inputs (s.grpLocals x.dom x.group) (s.grpKids x.dom x.group) x.next = none) :
    s.collStep h = none := by
  unfold State.collStep
  simp only [hx, hin]
  split <;> rfl

theorem collRun_waits (hx : tFind s.insts h = some x) (hin : x.inputs (s.grpLocals x.dom x.group) (s.grpKids x.dom x.group) x.next = none) :
    s.collRun h = s := by
  unfold State.collRun
  simp only [hx]
  unfold State.collTry
  rw [collStep_none hx hin]

/-! ### A read of untranslated host memory (R215, R224) -/

/-- A context whose translation is off in both stages reads host memory at the addresses that it names. -/
theorem startXfer_plainRead {z : Xfer} (ht : t.todo = []) (hn : 0 < z.len) (hpage : z.va % 4096 + z.len ≤ 4096) (hva : z.va < 2 ^ 48)
    (hlive : (t.ctx? z.ctx).any (fun y => !y.dead) = true) (hoff : bit (t.ctxWord z.ctx 5) 0 = false ∧ bit (t.ctxWord z.ctx 6) 0 = false)
    (hlost : t.hlLost (t.ctxLink z.ctx) = false) (hz : z.only = false ∧ z.access = 0 ∧ z.source ≠ 1) :
    ∃ v w us, v = ({ t with xfers := tPut t.serial { z with left := 1 } t.xfers, uses := us, serial := t.serial + 2 } : State) ∧
      w = v.sendReq (t.ctxLink z.ctx) (.rd ⟨z.va, z.len, some z.ctx, t.ctxFn z.ctx, .use (t.serial + 1)⟩) ∧ (t.startXfer z).Leads w 2 := by
  obtain ⟨honly, hacc, hsrc⟩ := hz
  obtain ⟨hw5, hw6⟩ := hoff
  obtain ⟨y0, hy0⟩ : ∃ y, y = z.useOf t.serial (t.xlCtx z.ctx) none 0 12 := ⟨_, rfl⟩
  obtain ⟨y, hy⟩ : ∃ y, y = z.useOf t.serial (t.xlCtx z.ctx) (some (.host (t.ctxLink z.ctx) z.va)) 0 12 := ⟨_, rfl⟩
  obtain ⟨u, hu⟩ : ∃ u, u = ({ t with
      xfers := tPut t.serial { z with left := 1 } t.xfers, serial := t.serial + 2, uses := tPut (t.serial + 1) y0 t.uses } : State) := ⟨_, rfl⟩
  obtain ⟨v, hv⟩ : ∃ v, v = ({ t with
      xfers := tPut t.serial { z with left := 1 } t.xfers, uses := tPut (t.serial + 1) y u.uses, serial := t.serial + 2 } : State) := ⟨_, rfl⟩
  have hutodo : u.todo = [] := by rw [hu]; exact ht
  have hvtodo : v.todo = [] := by rw [hv]; exact ht
  have hstart : t.startXfer z = { u with todo := [.lookup (t.serial + 1)] } := by rw [startXfer_one ht hn hpage, hu, hy0]
  have huse : tFind u.uses (t.serial + 1) = some y0 := by rw [hu]; exact tFind_tPut_same ..
  have hvuse : tFind v.uses (t.serial + 1) = some y := by rw [hv]; exact tFind_tPut_same ..
  have hvx : tFind v.xfers t.serial = some { z with left := 1 } := by rw [hv]; exact tFind_tPut_same ..
  obtain ⟨c, hc, hdead⟩ : ∃ c, t.ctx? z.ctx = some c ∧ c.dead = false := by
    cases hc : t.ctx? z.ctx with
    | none => rw [hc] at hlive; exact absurd hlive (by decide)
    | some c => exact ⟨c, rfl, by rw [hc] at hlive; simpa using hlive⟩
  have huc : u.ctx? z.ctx = some c := by rw [hu]; exact hc
  have hvdead : v.ctxDead z.ctx = false := by
    have hvc : v.ctx? z.ctx = some c := by rw [hv]; exact hc
    simp only [State.ctxDead, hvc, hdead]
  have hvlost : v.hlLost (t.ctxLink z.ctx) = false := by rw [hv]; exact hlost
  have hlook : u.lookup (t.serial + 1) = { v with todo := [.access (t.serial + 1)] } := by
    have h5 : bit y0.cx.w5 0 = false := by rw [hy0]; exact hw5
    have h6 : bit y0.cx.w6 0 = false := by rw [hy0]; exact hw6
    have hctx : y0.ctx = z.ctx ∧ y0.va = z.va := by rw [hy0]; exact ⟨rfl, rfl⟩
    have hmod : u.modUse (t.serial + 1) (fun q => { q with phys := some (.host q.cx.link q.va) }) = v := by
      unfold State.modUse
      simp only [huse]
      rw [hv, hu, hy0, hy]
      rfl
    unfold State.lookup
    simp only [huse]
    rw [hctx.1, huc, if_neg (by rw [Option.isNone_some]; decide), hctx.2, if_neg (by omega), h5, h6, if_pos (by decide), hmod, State.push, hvtodo]
    rfl
  have hacc' : v.access (t.serial + 1) = v.sendReq (t.ctxLink z.ctx) (.rd ⟨z.va, z.len, some z.ctx, t.ctxFn z.ctx, .use (t.serial + 1)⟩) := by
    obtain ⟨hyx, hyc, hyl, hyf, hyp⟩ : y.xfer = t.serial ∧ y.ctx = z.ctx ∧ y.len = z.len ∧ y.cx.fn = t.ctxFn z.ctx ∧
        y.phys = some (.host (t.ctxLink z.ctx) z.va) := by rw [hy]; exact ⟨rfl, rfl, rfl, rfl, rfl⟩
    unfold State.access
    simp only [hvuse, hyx, hvx, hyp, hyc, hvlost, hvdead, hsrc, honly, hacc, hyl, hyf, decide_false, Bool.false_and, Bool.or_false,
      Bool.false_eq_true, if_false, if_true]
  refine ⟨v, _, _, hv, rfl, ?_⟩
  rw [hstart]
  refine State.Leads.single _ hutodo ?_
  rw [State.doTask, hlook]
  refine State.Leads.single _ hvtodo ?_
  rw [State.doTask, hacc']
  refine State.Leads.done ?_
  have hq : v.Alters (v.sendReq (t.ctxLink z.ctx) (.rd ⟨z.va, z.len, some z.ctx, t.ctxFn z.ctx, .use (t.serial + 1)⟩)) [.ht] (fun _ => False) := .sendReq ..
  exact hq.todo.trans hvtodo

/-! ### A group of one (R300, R313) -/

/-- The only input of a segment without elements. -/
theorem inputs_one {k : Nat} (hm : x.members = [(0, m)]) (hout : m.out = false) (hseg : tFind m.segs k = some []) : x.inputs 1 0 k = some [[]] := by
  unfold ClInst.inputs
  have hf : tFind x.members 0 = some m := by rw [hm]; rfl
  simp only [List.range_one, List.map_cons, List.map_nil, List.range_zero, List.append_nil, List.foldl_cons, List.foldl_nil, hf, hout,
    Bool.false_eq_true, if_false, hseg, List.nil_append]

/-- The segment combined of a group of one: there is nothing to combine, to send or to write. -/
theorem collStep_alone (hx : tFind s.insts h = some x) (hm : x.members = [(0, m)]) (hkids : x.kids = []) (hout : m.out = false)
    (hsegs : m.segs = [(0, [])]) (hseg : x.nseg = 1) (hnext : x.next = 0) (hflags : x.flags = 0) (hres : x.result = 0) (hdowns : x.downs = [])
    (hroot : s.grpRoot x.dom x.group = true) (hk : s.grpKids x.dom x.group = 0) (hl : s.grpLocals x.dom x.group = 1)
    (hy : y = { x with next := 1, members := [(0, { m with segs := [] })], downs := [0] }) :
    s.collStep h = some (State.collRow { s with insts := tPut h y s.insts } h 0 []) := by
  have hin : x.inputs (s.grpLocals x.dom x.group) (s.grpKids x.dom x.group) x.next = some [[]] := by
    rw [hk, hl, hnext]
    exact inputs_one hm hout (by rw [hsegs]; rfl)
  have hr : (if x.mode = 0 then State.foldAny 1 s x [[]] else (x.fold [] [], s)) = (([], false), s) := by
    split <;> rfl
  obtain ⟨q, hq⟩ : ∃ q, q = s.collStep h := ⟨_, rfl⟩
  rw [← hq]
  unfold State.collStep at hq
  obtain ⟨G, hG⟩ : ∃ G, s.grpLocals = G := ⟨_, rfl⟩
  obtain ⟨K, hK⟩ : ∃ K, s.grpKids = K := ⟨_, rfl⟩
  rw [hG, hK] at hq hin
  simp -zeta only [hx, hin] at hq
  rw [if_neg (by omega)] at hq
  extract_lets j r vs spill x1 e s0 fs fl x2 s2 ds at hq
  have hr0 : r = (([], false), s) := hr
  have hvs : vs = [] := by unfold vs; rw [hr0]
  have hfs : fs = [] := by unfold fs; rw [hvs]; rfl
  have hds : ds = [] := by unfold ds; rw [hfs]; rfl
  have hspill : spill = false := by unfold spill; rw [hr0]; rfl
  have hx1 : x1 = { x with next := 1, members := [(0, { m with segs := [] })] } := by
    unfold x1
    rw [hspill, show j = 0 from hnext, hm, hkids]
    simp [dropSeg, tDel, hsegs]
  have hfl : fl = 0 := by unfold fl; rw [hfs, hx1]; exact hflags
  have hx2 : x2 = y := by
    unfold x2
    rw [hfl, hx1, hy, show j = 0 from hnext]
    simp [hflags, hres, hdowns]
  have he : e = s := by unfold e; rw [hr0]
  have hs0 : s0 = { s with insts := tPut h x1 s.insts } := by
    show ({ e with insts := tPut h x1 e.insts } : State) = _
    rw [he]
  have hs2 : s2 = { s with insts := tPut h y s.insts } := by
    unfold s2
    rw [hx2, hs0]
    dsimp only
    rw [tPut_tPut]
  have hroot0 : s0.grpRoot x.dom x.group = true := by rw [hs0]; exact hroot
  have hdown : s2.sendDown x2 j ds = s2 := by
    have hk2 : fld (s2.grpWord x2.dom x2.group 0) 58 54 = 0 := by
      rw [hx2, hs2, hy]
      exact hk
    unfold State.sendDown
    dsimp only
    rw [hk2]
    rfl
  rw [hq, if_pos hroot0, hdown, hds, hs2, show j = 0 from hnext]

/-- A finished segment of a group of one, with nothing to write: its member completes, and the instance ends. -/
theorem collRow_alone (hx : tFind s.insts h = some x) (hm : x.members = [(0, m)]) (hop : m.op = some op) (hended : m.ended = false) (hwrites : m.writes = 0)
    (hstatus : m.status = 0) (hseg : x.nseg = 1) (hres : x.result = 0) (hdowns : x.downs = [0]) (hrows : x.rows = [])
    (hy : y = { x with members := [(0, { m with ended := true })] }) (hu : u = { s with insts := tPut h y s.insts }) (hd : (u.done op 0).insts = u.insts) :
    s.collRow h 0 [] = (u.done op 0).closeInst h := by
  obtain ⟨a, ha⟩ : ∃ a, a = s.modInst h fun x => { x with rows := tPut 0 [] x.rows } := ⟨_, rfl⟩
  obtain ⟨z, hz⟩ : ∃ z, z = { x with rows := [(0, [])] } := ⟨_, rfl⟩
  have haz : a = { s with insts := tPut h z s.insts } := by
    rw [ha, modInst_of_find hx, hrows, hz]
    rfl
  have hza : tFind a.insts h = some z := by rw [haz]; exact tFind_tPut_same ..
  obtain ⟨b, hb⟩ : ∃ b, b = a.modInst h fun x => { x with rows := [] } := ⟨_, rfl⟩
  have hxr : { z with rows := [] } = x := by rw [hz, ← hrows]
  have hbx : b = { s with insts := tPut h x s.insts } := by
    rw [hb, modInst_of_find hza, hxr, haz]
    dsimp only
    rw [tPut_tPut]
  have hxb : tFind b.insts h = some x := by rw [hbx]; exact tFind_tPut_same ..
  have hwhole : z.whole = true := by
    have hn : z.nseg = 1 := by rw [hz]; exact hseg
    unfold ClInst.whole
    rw [hn, hz, hdowns]
    rfl
  have hwrite : b.collWrite h 0 [] = b := by
    unfold State.collWrite
    simp only [hxb, hm, List.foldl_cons, List.foldl_nil, hop]
    split <;> simp
  have hzr : z.result = 0 ∧ z.rows = [(0, [])] := by rw [hz]; exact ⟨hres, rfl⟩
  have hrow : s.collRow h 0 [] = b.collCheck h := by
    unfold State.collRow
    simp only [← ha, hza, hwhole, Bool.not_true, Bool.false_eq_true, if_false, ← hb, hzr.1, hzr.2, List.foldl_cons, List.foldl_nil, hwrite, ite_self]
  have hxw : x.whole = true := by
    unfold ClInst.whole
    rw [hseg, hdowns]
    rfl
  have hout : x.outcome m = (0, 0) := by
    unfold ClInst.outcome ClInst.found
    simp [hstatus, hres, b2n]
  have hmod : (b.modInst h fun x => { x with members := tMod {} 0 (fun i => { i with ended := true }) x.members }) = u := by
    have e : tMod ({} : ClIn) 0 (fun i => { i with ended := true }) [(0, m)] = [(0, { m with ended := true })] := by
      unfold tMod tSet
      rw [show tGet ({} : ClIn) [(0, m)] 0 = m from rfl, if_neg (fun h => by simpa using congrArg ClIn.ended h)]
      rfl
    rw [modInst_of_find hxb, hm, e, hbx, hu, hy]
    dsimp only
    rw [tPut_tPut]
  have hyd : tFind (u.done op 0).insts h = some y := by
    rw [hd, hu]
    exact tFind_tPut_same ..
  have hall : y.members.all (fun m => m.2.op.isNone || m.2.ended) = true := by
    rw [hy]
    simp
  rw [hrow]
  unfold State.collCheck
  simp only [hxb, hxw, Bool.not_true, Bool.false_eq_true, if_false, hm, List.foldl_cons, List.foldl_nil, hop, hended, hwrites, hout, Bool.false_or, ne_eq,
    not_true_eq_false, decide_false, hmod, hyd, hall, if_true]

end

end Sys2Proof.Machine
end

section
/-! PROOFS. COLL: the statement of its contributions (R294, R295, R297, R298, R300, R313). -/

namespace Sys2Proof.Machine

-- The proofs are elaborated one after another: in parallel their threads' stacks need more memory than a compile may have.
set_option Elab.async false

section

variable {s t u w : State} {op h d g j n : Nat} {o : Op} {c : Cq} {r : ClGroup} {x y : ClInst} {F : List Field} {P : Nat → Prop}

/-! ### What a command's record does not decide -/

theorem grpWord_of_alters (ha : s.Alters t F P) (hF : [Field.hbm, .shares].all (fun f => decide (f ∉ F)) = true := by decide) (d g i : Nat) :
    t.grpWord d g i = s.grpWord d g i := by
  simp only [List.all_cons, List.all_nil, Bool.and_true, Bool.and_eq_true, decide_eq_true_eq] at hF
  have hb : ∀ a, t.hbmByte a = s.hbmByte a := fun a => by rw [State.hbmByte, ha.hbm hF.1, State.hbmByte]
  have hr : ∀ a k, t.hbmRead a k = s.hbmRead a k := fun a k => by simp only [State.hbmRead, hb]
  have hsh : t.share d 9 = s.share d 9 := by rw [State.share, ha.shares hF.2, State.share]
  rw [State.grpWord, State.hbmWord, hr, hsh, State.grpWord, State.hbmWord]

theorem grpPlace_of_alters (ha : s.Alters t F P) (hF : [Field.hbm, .shares].all (fun f => decide (f ∉ F)) = true := by decide) (d g c : Nat) :
    t.grpPlace d g c = s.grpPlace d g c := by
  have hl : t.grpLocals d g = s.grpLocals d g := by rw [State.grpLocals, grpWord_of_alters ha hF, State.grpLocals]
  have hm : ∀ j, t.grpMember d g j = s.grpMember d g j := fun j => by simp only [State.grpMember, grpWord_of_alters ha hF]
  unfold State.grpPlace
  rw [hl]
  simp only [hm]

theorem findGroup_of_groups (hg : t.groups = s.groups) (g : Nat) : t.findGroup g = s.findGroup g := by
  simp only [State.findGroup, hg]

theorem instOf_of_insts (hi : t.insts = s.insts) (d g n : Nat) : t.instOf d g n = s.instOf d g n := by
  simp only [State.instOf, hi]

theorem joins_perform (hj : s.Joins o g d j n r) : (s.perform op).Joins o g d j n r := by
  have ha := perform_alters s op
  obtain ⟨hw, hg, hp, hn, hcl, hlen, hen, h5, h6, hgone⟩ := hj
  exact ⟨hw, by rw [findGroup_of_groups ha.groups, hg], by rw [grpPlace_of_alters ha, hp], hn, hcl, hlen, by rw [ha.rb id, hen],
    by rw [grpWord_of_alters ha, h5], by rw [grpWord_of_alters ha, h6], hgone⟩

/-- The place of a context in a group's list is one of its local members. -/
theorem place_lt (hp : s.grpPlace d g n = some j) : j < s.grpLocals d g := by
  unfold State.grpPlace at hp
  exact List.mem_range.1 (List.mem_of_find?_eq_some hp)

/-! ### The shape of a stream of one segment (R298) -/

theorem clUp_pos {op ty mode : Nat} (h : 0 < clElem op ty) : 0 < clUp op ty mode := by
  unfold clUp
  split
  · split <;> decide
  · split
    · split <;> decide
    · exact h

theorem nseg_one (h : x.count * x.up ≤ 4096) : x.nseg = 1 := by
  have : ceilDiv (x.count * x.up) 4096 ≤ 1 := Nat.lt_succ_iff.1 ((Nat.div_lt_iff_lt_mul (by decide)).2 (by omega))
  unfold ClInst.nseg
  omega

theorem elems_zero (hup : 0 < x.up) (h : x.count * x.up ≤ 4096) : x.elems 0 = x.count := by
  have : x.count ≤ x.per := (Nat.le_div_iff_mul_le hup).2 h
  unfold ClInst.elems
  omega

theorem startXfer_alters {z : Xfer} (ht : t.todo = []) (hn : 0 < z.len) (hpage : z.va % 4096 + z.len ≤ 4096) :
    t.Alters (t.startXfer z) [.xfers, .uses, .serial, .todo] (fun _ => False) := by
  rw [startXfer_one ht hn hpage]
  exact ((State.Alters.put_xfers t _).trans (.put_uses _ _)).trans ((State.Alters.put_serial _ (t.serial + 2)).trans (.put_todo _ _))

/-! ### The first contribution (R295, R297) -/

theorem coll_reads {len : Nat} (hs : s.Starts op 0x0C o c) (hn : s.CollsNext o) (hj : s.Joins o g d j n r) (hnone : s.instOf d g n = none)
    (hlen : len = fld (o.w 3) 31 0 * clElem (fld (o.w 1) 47 40) (fld (o.w 1) 39 36)) (hpos : 0 < len)
    (hseg : fld (o.w 3) 31 0 * clUp (fld (o.w 1) 47 40) (fld (o.w 1) 39 36) (fld (o.w 1) 35 34) ≤ 4096) (hpage : (o.w 2).toNat % 4096 + len ≤ 4096)
    (hva : (o.w 2).toNat < 2 ^ 48) (hctx : (s.ctx? o.ctx).any (fun y => !y.dead) = true)
    (hoff : bit (s.ctxWord o.ctx 5) 0 = false ∧ bit (s.ctxWord o.ctx 6) 0 = false) (hlost : s.hlLost (s.ctxLink o.ctx) = false) :
    ∃ t, s.act (.domain 0) (doColl op) = .next t ∧
      tFind t.insts s.serial = some (o.begins r d g n s.clk (fld (o.w 3) 31 0) [(j, { op := some op, asked := 1 })] 0) ∧
      tFind t.groups (grpKey d g) = some (r.taken j n) ∧
      (t.tl (s.ctxLink o.ctx)).reqQ = (s.tl (s.ctxLink o.ctx)).reqQ ++ [.rd ⟨(o.w 2).toNat, len, some o.ctx, s.ctxFn o.ctx, .use (s.serial + 2)⟩] ∧
      tFind t.ops op = some o.done ∧ t.hbm = s.hbm := by
  obtain ⟨hcalm, hlive, -, ⟨hop, -⟩, -⟩ := id hs
  obtain ⟨u, hu⟩ : ∃ u, u = s.perform op := ⟨_, rfl⟩
  have hsu : s.Alters u [.ops] (fun _ => False) := hu ▸ perform_alters s op
  have huop : tFind u.ops op = some o.done := by rw [hu, State.perform, ops_modOp_same, hop]; rfl
  obtain ⟨x, hx⟩ : ∃ x, x = o.begins r d g n u.clk (fld (o.w 3) 31 0) [(j, { op := some op })] 0 := ⟨_, rfl⟩
  obtain ⟨y, hy⟩ : ∃ y, y = o.begins r d g n u.clk (fld (o.w 3) 31 0) [(j, { op := some op, asked := 1 })] 0 := ⟨_, rfl⟩
  have hxy : y = { x with members := [(j, { op := some op, asked := 1 })] } := by rw [hx, hy]; rfl
  obtain ⟨w, hw⟩ : ∃ w, w = u.began d g (r.taken j n) x := ⟨_, rfl⟩
  obtain ⟨v, hv⟩ : ∃ v, v = ({ w with insts := tPut u.serial y w.insts } : State) := ⟨_, rfl⟩
  have hju : u.Joins o g d j n r := hu ▸ joins_perform hj
  have hcoll : doColl op s = (w.collReads u.serial).collRun u.serial := by
    rw [doColl_eq hs hn, ← hu, startColl_begins hju (by rw [instOf_of_insts hsu.insts, hnone]), hw, hx]
  have huw : u.Alters w [.groups, .insts, .serial] (fun _ => False) := by
    rw [hw]
    exact State.Alters.trans ((State.Alters.put_groups u _).trans (.put_insts _ (tPut u.serial x u.insts)))
      (.put_serial (F := [.groups, .insts, .serial]) _ (u.serial + 1))
  have hwv : w.Alters v [.insts] (fun _ => False) := hv ▸ .put_insts w _
  have huv : u.Alters v [.groups, .insts, .serial] (fun _ => False) := huw.trans hwv.mono
  have hsv : s.Alters v [.ops, .groups, .insts, .serial] (fun _ => False) := hsu.mono.trans huv.mono
  have hwx : tFind w.insts u.serial = some x := by rw [hw]; exact tFind_tPut_same ..
  have hvy : tFind v.insts u.serial = some y := by rw [hv]; exact tFind_tPut_same ..
  obtain ⟨hxm, hxn, hxc, hxo, hxt, hxu⟩ : x.members = [(j, { op := some op })] ∧ x.next = 0 ∧ x.count = fld (o.w 3) 31 0 ∧ x.op = fld (o.w 1) 47 40 ∧
      x.ty = fld (o.w 1) 39 36 ∧ x.up = clUp (fld (o.w 1) 47 40) (fld (o.w 1) 39 36) (fld (o.w 1) 35 34) := by
    rw [hx]
    exact ⟨rfl, rfl, rfl, rfl, rfl, rfl⟩
  have hcount : 0 < x.count ∧ 0 < clElem (fld (o.w 1) 47 40) (fld (o.w 1) 39 36) := by
    rw [hxc]
    exact ⟨Nat.pos_of_mul_pos_right (hlen ▸ hpos), Nat.pos_of_mul_pos_left (hlen ▸ hpos)⟩
  have hup : x.count * x.up ≤ 4096 := by rw [hxc, hxu]; exact hseg
  have helems : x.elems 0 = x.count := elems_zero (hxu ▸ clUp_pos hcount.2) hup
  have hreads : w.collReads u.serial = v.startXfer (x.firstRead op (v.ctxStall o.ctx) o.done) := by
    rw [collReads_one hwx hxm (nseg_one hup) hxn (by rw [huw.ops, huop]) hxy hv, if_neg (by omega)]
    rfl
  obtain ⟨z, hz⟩ : ∃ z, z = x.firstRead op (v.ctxStall o.ctx) o.done := ⟨_, rfl⟩
  obtain ⟨hzva, hzlen, hzctx, hzk⟩ : z.va = (o.w 2).toNat ∧ z.len = len ∧ z.ctx = o.ctx ∧ (z.only = false ∧ z.access = 0 ∧ z.source ≠ 1) := by
    rw [hz]
    refine ⟨?_, ?_, rfl, rfl, rfl, ?_⟩
    · show (o.w 2).toNat + 0 * x.per * clElem x.op x.ty = _
      omega
    · show x.elems 0 * clElem x.op x.ty = len
      rw [helems, hxc, hxo, hxt, hlen]
    · exact Nat.zero_ne_one
  have hvtodo : v.todo = [] := hsv.todo.trans hcalm.1
  have hxf := startXfer_alters hvtodo (by rw [hzlen]; exact hpos) (by rw [hzva, hzlen]; exact hpage)
  have hstart : (v.startXfer z).collRun u.serial = v.startXfer z := by
    refine collRun_waits (x := y) (by rw [hxf.insts, hvy]) ?_
    have hl : (v.startXfer z).grpLocals y.dom y.group = u.grpLocals d g := by
      rw [State.grpLocals, grpWord_of_alters hxf, grpWord_of_alters huv, hy]
      rfl
    rw [hl]
    obtain ⟨-, -, hp, -⟩ := hju
    exact inputs_none (m := { op := some op, asked := 1 }) (place_lt hp) (by rw [hy]; simp [Op.begins, tFind]) rfl rfl
  have hvlink : v.ctxLink o.ctx = s.ctxLink o.ctx := by rw [State.ctxLink, ctxWord_of_ctxs hsv.ctxs, State.ctxLink]
  have hvfn : v.ctxFn o.ctx = s.ctxFn o.ctx := by rw [State.ctxFn, ctxWord_of_ctxs hsv.ctxs, State.ctxFn]
  have hvlost : v.hlLost (s.ctxLink o.ctx) = false := by rw [hlLost_of_alters hsv fun _ => id, hlost]
  obtain ⟨a, b, us, ha, hb, hlead⟩ := startXfer_plainRead (z := z) hvtodo (by rw [hzlen]; exact hpos) (by rw [hzva, hzlen]; exact hpage) (by rw [hzva]; exact hva)
    (by rw [hzctx, State.ctx?, hsv.ctxs]; exact hctx) (by rw [hzctx, ctxWord_of_ctxs hsv.ctxs, ctxWord_of_ctxs hsv.ctxs]; exact hoff)
    (by rw [hzctx, hvlink]; exact hvlost) hzk
  rw [hzva, hzlen, hzctx, hvlink, hvfn] at hb
  have hva' : v.Alters a [.xfers, .uses, .serial] (fun _ => False) := by
    rw [ha]
    exact ((State.Alters.put_xfers v _).trans (.put_uses _ us)).trans (.put_serial _ (v.serial + 2))
  have hab : a.Alters b [.ht] (fun _ => False) := hb ▸ .sendReq ..
  have halost : a.hlLost (s.ctxLink o.ctx) = false := by rw [hlLost_of_alters hva' fun _ => id, hvlost]
  have hser : v.serial + 1 = s.serial + 2 := by
    rw [hwv.serial, hw]
    show u.serial + 1 + 1 = _
    rw [hsu.serial]
  refine ⟨b, act_of_leads (k := 2) hlive ?_ (by decide) ?_, ?_, ?_, ?_, ?_, ?_⟩
  · rw [hcoll, hreads, ← hz, hstart]
    exact hlead
  · exact hab.calmCoat (hva'.calmCoat (hsv.calmCoat hcalm.2))
  · rw [hab.insts, hva'.insts, ← hsu.serial, hvy, hy, hsu.clk]
  · rw [hab.groups, hva'.groups, hwv.groups, hw]
    exact tFind_tPut_same ..
  · rw [hb, sendReq_of_up halost, tl_modTl_same]
    show (a.tl (s.ctxLink o.ctx)).reqQ ++ _ = _
    rw [State.tl, hva'.ht, hsv.ht, ← State.tl, hser]
  · rw [hab.ops, hva'.ops, huv.ops, huop]
  · rw [hab.hbm, hva'.hbm, hsv.hbm]

/-! ### A group of one without elements (R298, R300, R313) -/

theorem gone_close (r : ClGroup) (n : Nat) : (r.close n).gone n = true := by
  have h : ∀ up, (decide (n < up) || ((n :: r.ended).filter fun k => decide (up ≤ k)).contains n) = true := fun up => by
    by_cases hn : n < up
    · simp [hn]
    · simp [hn, Nat.not_lt.1 hn]
  exact h _

theorem instOf_tDel {l : Tab ClInst} (hnone : s.instOf d g n = none) (hl : ∀ e ∈ l, e.1 = h ∨ e ∈ s.insts) (ht : t.insts = tDel h l) :
    t.instOf d g n = none := by
  have hs := List.find?_eq_none.1 (Option.map_eq_none_iff.1 hnone)
  unfold State.instOf
  rw [Option.map_eq_none_iff, ht, List.find?_eq_none]
  intro e he
  obtain ⟨hel, hne⟩ := List.mem_filter.1 he
  rcases hl e hel with h1 | h1
  · exact absurd h1 (by simpa using hne)
  · exact hs e h1

theorem closeInst_eq (hx : tFind s.insts h = some x) (hg : tFind s.groups (grpKey x.dom x.group) = some r) :
    s.closeInst h = { s with insts := tDel h s.insts, groups := tPut (grpKey x.dom x.group) (r.close x.n) s.groups } := by
  obtain ⟨t, ht⟩ : ∃ t, t = ({ s with insts := tDel h s.insts } : State) := ⟨_, rfl⟩
  have hgt : tFind t.groups (grpKey x.dom x.group) = some r := by rw [ht]; exact hg
  unfold State.closeInst
  simp only [hx, ← ht]
  rw [modGroup_of_find hgt, ht]

/-- Nothing is left to combine or to read of an instance that has ended. -/
theorem collTry_ended (hx : tFind s.insts h = none) (k : Nat) : State.collTry k (s.collReads h) h = s := by
  have hr : s.collReads h = s := by
    unfold State.collReads
    simp only [hx]
  have hst : s.collStep h = none := by
    unfold State.collStep
    simp only [hx]
  rw [hr]
  cases k with
  | zero => rfl
  | succ k =>
    unfold State.collTry
    rw [hst]

theorem coll_alone (hs : s.Starts op 0x0C o c) (hct : cmdCt o.words = 0xFFF) (hn : s.CollsNext o) (hj : s.Joins o g d j n r)
    (hnone : s.instOf d g n = none) (hcount : fld (o.w 3) 31 0 = 0) (hroot : s.grpRoot d g = true) (hkids : s.grpKids d g = 0)
    (hlocals : s.grpLocals d g = 1) :
    ∃ t, s.act (.domain 0) (doColl op) = .next t ∧ tFind t.ops op = none ∧ (t.tl c.link).reqQ = (s.tl c.link).reqQ ++ [c.cpl o 0 0] ∧
      t.instOf d g n = none ∧ tFind t.groups (grpKey d g) = some ((r.taken j n).close n) ∧ t.hbm = s.hbm := by
  obtain ⟨hcalm, hlive, -, hplain, -⟩ := id hs
  obtain ⟨u, hu⟩ : ∃ u, u = s.perform op := ⟨_, rfl⟩
  have hsu : s.Alters u [.ops] (fun _ => False) := hu ▸ perform_alters s op
  have huplain : u.Plain op o.done c := hu ▸ plain_perform hplain
  obtain ⟨huop, -⟩ := id huplain
  have hju : u.Joins o g d j n r := hu ▸ joins_perform hj
  obtain rfl : j = 0 := by
    obtain ⟨-, -, hp, -⟩ := hj
    have := place_lt hp
    omega
  obtain ⟨x, hx⟩ : ∃ x, x = o.begins r d g n u.clk (fld (o.w 3) 31 0) [(0, { op := some op })] 0 := ⟨_, rfl⟩
  obtain ⟨m, hm⟩ : ∃ m : ClIn, m = { op := some op, asked := 1, segs := [(0, [])] } := ⟨_, rfl⟩
  obtain ⟨y1, hy1⟩ : ∃ y, y = { x with members := [(0, { op := some op, asked := 1 })] } := ⟨_, rfl⟩
  obtain ⟨y2, hy2⟩ : ∃ y, y = { x with members := [(0, m)] } := ⟨_, rfl⟩
  obtain ⟨y3, hy3⟩ : ∃ y, y = { y2 with next := 1, members := [(0, { m with segs := [] })], downs := [0] } := ⟨_, rfl⟩
  obtain ⟨y4, hy4⟩ : ∃ y, y = { y3 with members := [(0, { { m with segs := [] } with ended := true })] } := ⟨_, rfl⟩
  obtain ⟨w, hw⟩ : ∃ w, w = u.began d g (r.taken 0 n) x := ⟨_, rfl⟩
  obtain ⟨v1, hv1⟩ : ∃ v, v = ({ w with insts := tPut u.serial y1 w.insts } : State) := ⟨_, rfl⟩
  obtain ⟨v2, hv2⟩ : ∃ v, v = ({ w with insts := tPut u.serial y2 w.insts } : State) := ⟨_, rfl⟩
  obtain ⟨v3, hv3⟩ : ∃ v, v = ({ v2 with insts := tPut u.serial y3 v2.insts } : State) := ⟨_, rfl⟩
  obtain ⟨v4, hv4⟩ : ∃ v, v = ({ v3 with insts := tPut u.serial y4 v3.insts } : State) := ⟨_, rfl⟩
  have hcoll : doColl op s = (w.collReads u.serial).collRun u.serial := by
    rw [doColl_eq hs hn, ← hu, startColl_begins hju (by rw [instOf_of_insts hsu.insts, hnone]), hw, hx]
  obtain ⟨hxm, hxn, hxc, hxd, hxg, hxi⟩ : x.members = [(0, { op := some op })] ∧ x.next = 0 ∧ x.count = fld (o.w 3) 31 0 ∧ x.dom = d ∧ x.group = g ∧
      x.n = n := by
    rw [hx]
    exact ⟨rfl, rfl, rfl, rfl, rfl, rfl⟩
  have hnseg : x.nseg = 1 := nseg_one (by rw [hxc, hcount, Nat.zero_mul]; decide)
  have helems : x.elems 0 = 0 := by
    unfold ClInst.elems
    rw [hxc, hcount]
    omega
  have huw : u.Alters w [.groups, .insts, .serial] (fun _ => False) := by
    rw [hw]
    exact State.Alters.trans ((State.Alters.put_groups u _).trans (.put_insts _ (tPut u.serial x u.insts)))
      (.put_serial (F := [.groups, .insts, .serial]) _ (u.serial + 1))
  have hw2 : w.Alters v2 [.insts] (fun _ => False) := hv2 ▸ .put_insts w _
  have h24 : v2.Alters v4 [.insts] (fun _ => False) := by
    have h23 : v2.Alters v3 [.insts] (fun _ => False) := hv3 ▸ .put_insts v2 _
    exact h23.trans (hv4 ▸ .put_insts v3 _)
  have hu2 : u.Alters v2 [.groups, .insts, .serial] (fun _ => False) := huw.trans hw2.mono
  have hu4 : u.Alters v4 [.groups, .insts, .serial] (fun _ => False) := hu2.trans h24.mono
  have hwx : tFind w.insts u.serial = some x := by rw [hw]; exact tFind_tPut_same ..
  have hreads : w.collReads u.serial = v2 := by
    have hv1y : tFind v1.insts u.serial = some y1 := by rw [hv1]; exact tFind_tPut_same ..
    have e : tMod ({} : ClIn) 0 (fun i => { i with segs := tPut 0 [] i.segs }) [(0, { op := some op, asked := 1 })] = [(0, m)] := by
      unfold tMod tSet
      simp [tGet, tFind, tPut, hm]
    have hym : y1.members = [(0, { op := some op, asked := 1 })] := by rw [hy1]
    have hyy : { y1 with members := [(0, m)] } = y2 := by rw [hy1, hy2]
    rw [collReads_one hwx hxm hnseg hxn (by rw [huw.ops, huop]) hy1 hv1, if_pos helems, modInst_of_find hv1y, hym, e, hyy, hv1, hv2]
    dsimp only
    rw [tPut_tPut]
  have hv2y : tFind v2.insts u.serial = some y2 := by rw [hv2]; exact tFind_tPut_same ..
  have hv3y : tFind v3.insts u.serial = some y3 := by rw [hv3]; exact tFind_tPut_same ..
  have hv4y : tFind v4.insts u.serial = some y4 := by rw [hv4]; exact tFind_tPut_same ..
  obtain ⟨h2k, h2n, h2s, h2f, h2r, h2d, h2dom, h2grp⟩ : y2.kids = [] ∧ y2.next = 0 ∧ y2.nseg = 1 ∧ y2.flags = 0 ∧ y2.result = 0 ∧ y2.downs = [] ∧
      y2.dom = d ∧ y2.group = g := by
    rw [hy2]
    refine ⟨?_, hxn, hnseg, ?_, ?_, ?_, hxd, hxg⟩ <;> rw [hx] <;> rfl
  have hword : v2.grpWord d g 0 = s.grpWord d g 0 := by rw [grpWord_of_alters hu2, grpWord_of_alters hsu]
  have hstep : v2.collStep u.serial = some (v3.collRow u.serial 0 []) := by
    rw [hv3]
    refine collStep_alone hv2y (by rw [hy2]) h2k (by rw [hm]) (by rw [hm]) h2s h2n h2f h2r h2d ?_ ?_ ?_ hy3
    · rw [h2dom, h2grp, State.grpRoot, hword]; exact hroot
    · rw [h2dom, h2grp, State.grpKids, hword]; exact hkids
    · rw [h2dom, h2grp, State.grpLocals, hword]; exact hlocals
  have hplain4 : v4.Plain op o.done c := plain_of_alters huplain hu4 (by rw [hu4.ops, huop]) ⟨rfl, rfl, rfl, rfl, rfl, rfl⟩
  have hdone : v4.done op 0 = v4.completed op o.done c 0 0 := done_eq hplain4 (.inr hct) 0 0
  have hlost4 : v4.hlLost c.link = false := by
    obtain ⟨-, -, -, -, -, hl, -⟩ := hplain4
    exact hl
  obtain ⟨hops, hreq, -, hd⟩ := completed_spec hlost4 0 0 hdone
  have hrow : v3.collRow u.serial 0 [] = (v4.done op 0).closeInst u.serial := by
    refine collRow_alone hv3y (m := { m with segs := [] }) (by rw [hy3]) (by rw [hm]) (by rw [hm]) (by rw [hm]) (by rw [hm]) ?_ ?_ (by rw [hy3]) ?_ hy4 hv4 hd.insts
    · rw [hy3]; exact h2s
    · rw [hy3]; exact h2r
    · rw [hy3, hy2, hx]; rfl
  obtain ⟨h4d, h4g, h4n⟩ : y4.dom = d ∧ y4.group = g ∧ y4.n = n := by
    rw [hy4, hy3, hy2]
    exact ⟨hxd, hxg, hxi⟩
  have hgroup : tFind (v4.done op 0).groups (grpKey y4.dom y4.group) = some (r.taken 0 n) := by
    rw [h4d, h4g, hd.groups, h24.groups, hw2.groups, hw]
    exact tFind_tPut_same ..
  have hclose := closeInst_eq (by rw [hd.insts, hv4y]) hgroup
  obtain ⟨t, ht⟩ : ∃ t, t = (v4.done op 0).closeInst u.serial := ⟨_, rfl⟩
  have hti : t.insts = tDel u.serial v4.insts := by
    rw [ht, hclose]
    show tDel u.serial (v4.done op 0).insts = _
    rw [hd.insts]
  have hrun : doColl op s = t := by
    rw [hcoll, hreads]
    unfold State.collRun
    simp only [hv2y, h2s]
    unfold State.collTry
    rw [hstep, hrow]
    dsimp only
    rw [← ht]
    exact collTry_ended (by rw [hti]; exact tFind_tDel_same ..) 1
  have hdt : (v4.done op 0).Alters t [.insts, .groups] (fun _ => False) := by
    rw [ht, hclose]
    exact (State.Alters.put_insts _ (tDel u.serial (v4.done op 0).insts)).trans (.put_groups _ _)
  have hmem : ∀ e ∈ v4.insts, e.1 = u.serial ∨ e ∈ s.insts := by
    intro e he
    rw [hv4, hv3, hv2, hw] at he
    simp only [State.began, tPut_tPut] at he
    rcases mem_tPut he with rfl | h
    · exact .inl rfl
    · exact .inr (hsu.insts ▸ h)
  have hst : s.Alters t [.ops, .groups, .insts, .serial, .ht, .cqs] (fun _ => False) :=
    (hsu.mono.trans hu4.mono).trans (hd.mono.trans hdt.mono)
  refine ⟨t, act_of_alters hlive hcalm hrun hst, ?_, ?_, instOf_tDel hnone hmem hti, ?_, hst.hbm⟩
  · rw [hdt.ops, hops]
  · rw [State.tl, hdt.ht, ← State.tl, hreq, State.tl, hu4.ht, hsu.ht]
    rfl
  · rw [ht, hclose, h4d, h4g, h4n]
    exact tFind_tPut_same ..

/-! ### A digest that differs (R294, R314) -/

theorem coll_mismatch (hs : s.Starts op 0x0C o c) (hct : cmdCt o.words = 0xFFF) (hn : s.CollsNext o)
    (hg : g = fld (o.w 1) 63 48 ∧ s.findGroup g = some (d, r) ∧ s.grpPlace d g o.ctx = some j ∧ n = tGet 0 r.seqs j)
    (hcoded : collCoded o.words = true) (hen : s.rb (.clCtrl (engineOf r.engine)) 16 = true)
    (hne : o.w 5 ≠ s.grpWord d g 1 ∨ o.w 6 ≠ s.grpWord d g 2) (hnone : s.instOf d g n = none) :
    ∃ t, s.act (.domain 0) (doColl op) = .next t ∧ tFind t.ops op = none ∧ (t.tl c.link).reqQ = (s.tl c.link).reqQ ++ [c.cpl o 0x0D 0] ∧
      (tFind t.groups (grpKey d g)).map (fun r => tGet 0 r.seqs j) = some (n + 1) ∧
      t.rf (.clCount (engineOf r.engine)) 63 48 = min (s.rf (.clCount (engineOf r.engine)) 63 48 + 1) 65535 ∧
      t.rb (.clStatus (engineOf r.engine)) 3 = true := by
  obtain ⟨hcalm, hlive, -, hplain, -⟩ := id hs
  obtain ⟨hw, hfind, hp, hnum⟩ := hg
  obtain ⟨u, hu⟩ : ∃ u, u = s.perform op := ⟨_, rfl⟩
  have hsu : s.Alters u [.ops] (fun _ => False) := hu ▸ perform_alters s op
  have huplain : u.Plain op o.done c := hu ▸ plain_perform hplain
  obtain ⟨huop, -⟩ := id huplain
  have hug : u.findGroup g = some (d, r) := by rw [findGroup_of_groups hsu.groups, hfind]
  have hup : u.grpPlace d g o.ctx = some j := by rw [grpPlace_of_alters hsu, hp]
  have hst : u.collStatus o = 0x0D := collStatus_mismatch hw.symm hcoded hug hup (by rw [hsu.rb id, hen])
    (by rw [grpWord_of_alters hsu, grpWord_of_alters hsu]; exact hne)
  obtain ⟨v, w, hv, hvw, hmem, hstart⟩ := startColl_mismatch (op := op) hw.symm hug hup hnum hst (by decide) (by rw [instOf_of_insts hsu.insts, hnone])
  obtain ⟨a, ha⟩ : ∃ a, a = w.missMember d g n j r.engine := ⟨_, rfl⟩
  obtain ⟨hcount, hstatus, hseqs, hwa⟩ := missMember_spec hmem ha
  have huv : u.Alters v [.groups] (fun _ => False) := hv ▸ .put_groups u _
  have huw : u.Alters w [.groups, .insts, .serial] (fun _ => False) := huv.mono.trans hvw.mono
  have hsw : s.Alters w [.ops, .groups, .insts, .serial] (fun _ => False) := hsu.mono.trans huw.mono
  have hua : u.Alters a [.groups, .insts, .serial, .frees, .inject, .regs] (MissAt r.engine) := (huw.mono (by decide) fun _ => False.elim).trans hwa.mono
  have haplain : a.Plain op o.done c := plain_of_alters_regs huplain hua
    (fun _ e => e.elim (addr_ne_of_off 0x10008 0x20 rfl rfl) (addr_ne_of_off 0x10008 0x18 rfl rfl))
    (fun _ e => e.elim (addr_ne_of_off 0x7008 0x20 rfl rfl) (addr_ne_of_off 0x7008 0x18 rfl rfl))
  have halost : a.hlLost c.link = false := by
    obtain ⟨-, -, -, -, -, hl, -⟩ := haplain
    exact hl
  obtain ⟨t, ht⟩ : ∃ t, t = a.completed op o.done c 0x0D 0 := ⟨_, rfl⟩
  obtain ⟨hops, hreq, -, hat⟩ := completed_spec halost 0x0D 0 ht
  have hrun : doColl op s = t := by
    rw [doColl_eq hs hn, ← hu, hstart, ← ha, done_eq haplain (.inr hct), ht]
  have hsa : s.Alters a [.ops, .groups, .insts, .serial, .frees, .inject, .regs] (MissAt r.engine) := (hsu.mono (by decide) fun _ => False.elim).trans hua.mono
  have hstt : s.Alters t [.ops, .groups, .insts, .serial, .frees, .inject, .regs, .ht, .cqs] (MissAt r.engine) :=
    hsa.mono.trans (hat.mono (by decide) fun _ => False.elim)
  refine ⟨t, act_of_alters hlive hcalm hrun hstt, hops, ?_, ?_, ?_, ?_⟩
  · rw [hreq, State.tl, hsa.ht]
    rfl
  · have hk := hseqs (grpKey d g)
    have hvg : tFind w.groups (grpKey d g) = some (r.taken j n) := by
      rw [hvw.groups, hv]
      exact tFind_tPut_same ..
    rw [hvg] at hk
    rw [hat.groups]
    obtain ⟨r', hr', hseq⟩ := Option.map_eq_some_iff.1 hk
    rw [hr', Option.map_some, hseq]
    simp [ClGroup.taken, tGet, tFind_tPut_same]
  · rw [hat.rf id, hcount, huw.rf id, hsu.rf id]
  · rw [hat.rb id, hstatus]

theorem coll_fails {st : Nat} (hs : s.Starts op 0x0C o c) (hct : cmdCt o.words = 0xFFF) (hn : s.CollsNext o) (hg : s.findGroup (fld (o.w 1) 63 48) = none)
    (hst : (s.perform op).collStatus o = st) :
    ∃ t, s.act (.domain 0) (doColl op) = .next t ∧ tFind t.ops op = none ∧ (t.tl c.link).reqQ = (s.tl c.link).reqQ ++ [c.cpl o st 0] ∧ t.insts = s.insts := by
  obtain ⟨hcalm, hlive, -, hplain, -⟩ := id hs
  have hf : doColl op s = (s.perform op).done op st := by
    rw [doColl_eq hs hn, startColl_ungrouped rfl (by rw [findGroup_of_groups (perform_alters s op).groups, hg]) hst]
  obtain ⟨t, ht, hops, hreq, -, ha⟩ := act_completes hcalm hlive hplain (.inr hct) hf
  exact ⟨t, ht, hops, hreq, ha.insts⟩

end

/-- Settles O41: a contribution of one segment begins its instance and reads its send buffer; one without elements to a group of one is combined
at once; one that fails its checks completes with their status. -/
theorem contributionsJoinTheirInstance : Obligations.ContributionsJoinTheirInstance := by
  unfold Obligations.ContributionsJoinTheirInstance
  refine ⟨?reads, ?alone, ?uncoded, ?ungrouped, ?mismatch⟩
  case reads =>
    intro s op g d j n h len o c r hs hct hn hj hnone hh hlen hpos hseg hpage hva hctx hoff hlost
    obtain ⟨t, ht, hi, hg, hreq, hops, hhbm⟩ := coll_reads hs hn hj hnone hlen hpos hseg hpage hva hctx hoff hlost
    subst hh
    refine ⟨t, ht, ?_, ?_, ?_, ?_, hreq, ?_, hhbm⟩
    · rw [hi]
      rfl
    · rw [hi]
      rfl
    · rw [hi]
      rfl
    · rw [hg]
      simp [ClGroup.taken, tGet, tFind_tPut_same]
    · rw [hops]
      rfl
  case alone =>
    intro s op g d j n o c r hs hct hn hj hnone hcount ⟨hroot, hkids, hlocals⟩
    obtain ⟨t, ht, hops, hreq, hend, hg, hhbm⟩ := coll_alone hs hct hn hj hnone hcount hroot hkids hlocals
    refine ⟨t, ht, hops, hreq, hend, ?_, hhbm⟩
    rw [hg, Option.map_some, gone_close]
    simp [ClGroup.close, ClGroup.taken, tGet, tFind_tPut_same]
  case uncoded =>
    intro s op o c hs hct hn hg hcl
    refine coll_fails hs hct hn hg (collStatus_uncoded ?_)
    rw [Bool.eq_false_iff]
    intro h
    obtain ⟨hcl', -⟩ := collCoded_iff.1 h
    exact absurd (hcl'.symm.trans hcl) (by decide)
  case ungrouped =>
    intro s op o c hs hct hn hg hcl hlen
    exact coll_fails hs hct hn hg (collStatus_ungrouped rfl (collCoded_iff.2 ⟨hcl, hlen⟩) (by rw [findGroup_of_groups (perform_alters s op).groups, hg]))
  case mismatch =>
    intro s op g d j n o c r hs hct hn hg hcl hlen hen hne hnone
    exact coll_mismatch hs hct hn hg (collCoded_iff.2 ⟨hcl, hlen⟩) hen hne hnone

end Sys2Proof.Machine
end

section
/-! PROOFS. The records and registers of the lanes (R60, R80): the window of each lane, what a change of one lane leaves
unchanged of the others, and what sending on a lane changes. -/

namespace Sys2Proof.Machine

-- The proofs are elaborated one after another: in parallel their threads' stacks need more memory than a compile may have.
set_option Elab.async false

/-! ### A state whose changed fields are named -/

/-- A state that differs in the fields of lanes, links and what is sent only, written out. -/
theorem State.Alters.eq_links {s t : State} {P : Nat → Prop}
    (h : s.Alters t [.regs, .lanes, .out, .frees, .ports, .hll] P) :
    t = { s with regs := t.regs, lanes := t.lanes, out := t.out, frees := t.frees, ports := t.ports, hll := t.hll } := by
  rw [← h.pending, ← h.hbm, ← h.buf, ← h.clk, ← h.nt, ← h.tk, ← h.coreOn, ← h.serial, ← h.draws, ← h.pmFix, ← h.pmSeen,
    ← h.ftPosted, ← h.shares, ← h.ctxEast, ← h.ht, ← h.eqs, ← h.cqs, ← h.trigs, ← h.ops, ← h.ctxs, ← h.uses, ← h.xfers,
    ← h.walks, ← h.xl, ← h.invals, ← h.mes, ← h.ifl, ← h.tfl, ← h.hatoms, ← h.inject, ← h.eject, ← h.toInit, ← h.due,
    ← h.posts, ← h.todo, ← h.groups, ← h.insts, ← h.collUp, ← h.collDown, ← h.engOff, ← h.locks, ← h.tmWrote, ← h.grooms,
    ← h.runqs, ← h.cals, ← h.worms, ← h.epochSeen, ← h.waits, ← h.newBank, ← h.oldBank, ← h.loadedEpoch, ← h.retired,
    ← h.holdPort, ← h.holdHost, ← h.holdDom, ← h.holdSince, ← h.goodSince, ← h.ppsAt, ← h.ppsNt, ← h.armedAt, ← h.thetas,
    ← h.ntFrac, ← h.ppsOut, ← h.runs, ← h.pins, ← h.flash, ← h.fuses, ← h.mbox, ← h.dir, ← h.hints, ← h.restart,
    ← h.captures, ← h.paceAt, ← h.stewardAt, ← h.coreAccs, ← h.tack]

/-- No register at all. -/
abbrev NoReg (_ : Nat) : Prop := False

section
variable {s t : State} {P : Nat → Prop}

theorem State.Alters.eq_sent (h : s.Alters t [.regs, .lanes, .out, .frees] P) :
    t = { s with regs := t.regs, lanes := t.lanes, out := t.out, frees := t.frees } :=
  (h.mono (by decide)).eq_links.trans (by rw [h.ports, h.hll])

theorem State.Alters.eq_lanes (h : s.Alters t [.regs, .lanes, .out] P) :
    t = { s with regs := t.regs, lanes := t.lanes, out := t.out } :=
  (h.mono (by decide)).eq_sent.trans (by rw [h.frees])

theorem State.Alters.eq_laneOut (h : s.Alters t [.lanes, .out] P) : t = { s with lanes := t.lanes, out := t.out } :=
  (h.mono (by decide)).eq_lanes.trans (by rw [h.regs])

theorem State.Alters.eq_laneReg (h : s.Alters t [.regs, .lanes] P) : t = { s with regs := t.regs, lanes := t.lanes } :=
  (h.mono (by decide)).eq_lanes.trans (by rw [h.out])

theorem State.Alters.eq_laneFree (h : s.Alters t [.lanes, .out, .frees] P) :
    t = { s with lanes := t.lanes, out := t.out, frees := t.frees } :=
  (h.mono (by decide)).eq_sent.trans (by rw [h.regs])

end

/-! ### The records of lanes -/

theorem laneKey_inj {n m : LaneId} (h : laneKey n = laneKey m) : n = m := by
  cases n <;> cases m <;> simp only [laneKey] at h
  case net.net p l q k => rw [Fin.ext (a := p) (b := q) (by omega), Fin.ext (a := l) (b := k) (by omega)]
  case host.host p l q k => rw [Fin.ext (a := p) (b := q) (by omega), Fin.ext (a := l) (b := k) (by omega)]
  all_goals omega

@[simp] theorem lane_modLane_same (s : State) (n : LaneId) (f : Lane → Lane) : (s.modLane n f).lane n = f (s.lane n) :=
  tGet_tMod_same ..

theorem lane_modLane_other (s : State) {n m : LaneId} (f : Lane → Lane) (h : m ≠ n) : (s.modLane n f).lane m = s.lane m :=
  tGet_tMod_other _ _ _ _ _ fun e => h (laneKey_inj e)

theorem lane_of_lanes {s t : State} (h : t.lanes = s.lanes) (n : LaneId) : t.lane n = s.lane n := by
  rw [State.lane, State.lane, h]

@[simp] theorem lane_setReg (s : State) (r : Reg) (v : Word) (n : LaneId) : (s.setReg r v).lane n = s.lane n := rfl
@[simp] theorem lane_wf (s : State) (r : Reg) (hi lo v : Nat) (n : LaneId) : (s.wf r hi lo v).lane n = s.lane n := rfl
@[simp] theorem lane_wb (s : State) (r : Reg) (i : Nat) (b : Bool) (n : LaneId) : (s.wb r i b).lane n = s.lane n := rfl
@[simp] theorem lane_bump (s : State) (r : Reg) (hi lo k : Nat) (n : LaneId) : (s.bump r hi lo k).lane n = s.lane n := rfl
@[simp] theorem lane_emit (s : State) (e : Emission) (n : LaneId) : (s.emit e).lane n = s.lane n := rfl

@[simp] theorem reg_modLane (s : State) (n : LaneId) (f : Lane → Lane) (r : Reg) : (s.modLane n f).reg r = s.reg r := rfl
@[simp] theorem rf_modLane (s : State) (n : LaneId) (f : Lane → Lane) (r : Reg) (hi lo : Nat) :
    (s.modLane n f).rf r hi lo = s.rf r hi lo := rfl
@[simp] theorem rb_modLane (s : State) (n : LaneId) (f : Lane → Lane) (r : Reg) (i : Nat) :
    (s.modLane n f).rb r i = s.rb r i := rfl
@[simp] theorem laneState_modLane (s : State) (n m : LaneId) (f : Lane → Lane) :
    (s.modLane n f).laneState m = s.laneState m := rfl

/-! ### What each kind of write alters -/

section
variable {s : State} {F : List Field} {P : Nat → Prop}

theorem alters_modLane (n : LaneId) (f : Lane → Lane) (h : .lanes ∈ F := by decide) : s.Alters (s.modLane n f) F P :=
  .put_lanes _ _ h

theorem alters_emit (e : Emission) (h : .out ∈ F := by decide) : s.Alters (s.emit e) F P := .put_out _ _ h

theorem alters_free (k : Nat) (h : .frees ∈ F := by decide) : s.Alters (s.free k).2 F P := .put_frees _ _ h

theorem alters_wf {r : Reg} (hi lo v : Nat) (hP : P r.addr) (hF : .regs ∈ F := by decide) : s.Alters (s.wf r hi lo v) F P :=
  .setReg _ _ hP hF

theorem alters_wb {r : Reg} (i : Nat) (b : Bool) (hP : P r.addr) (hF : .regs ∈ F := by decide) :
    s.Alters (s.wb r i b) F P := .setReg _ _ hP hF

theorem alters_bump {r : Reg} (hi lo k : Nat) (hP : P r.addr) (hF : .regs ∈ F := by decide) :
    s.Alters (s.bump r hi lo k) F P := .setReg _ _ hP hF

end

/-! ### The windows of lanes -/

/-- An address in a lane's window. -/
def LaneAt (n : LaneId) (a : Nat) : Prop :=
  blockBase (laneBlock n) + laneBase n ≤ a ∧ a < blockBase (laneBlock n) + laneBase n + 0x60

/-- A lane's registers. -/
def laneRegs (n : LaneId) : List Reg :=
  [.laneCtrl n, .laneStatus n, .laneTxeq n, .laneRxeq n, .laneTest n, .laneUpatLo n, .laneUpatHi n, .laneErrcnt n,
    .laneBitcnt n, .laneLineerr n, .laneMargin n, .laneEye n]

theorem addr_laneReg {n : LaneId} {r : Reg} (h : r ∈ laneRegs n) :
    ∃ k < 12, r.addr = blockBase (laneBlock n) + laneBase n + 8 * k := by
  simp only [laneRegs, List.mem_cons, List.not_mem_nil, or_false] at h
  rcases h with rfl | rfl | rfl | rfl | rfl | rfl | rfl | rfl | rfl | rfl | rfl | rfl
  exacts [⟨0, by decide, rfl⟩, ⟨1, by decide, rfl⟩, ⟨2, by decide, rfl⟩, ⟨3, by decide, rfl⟩, ⟨4, by decide, rfl⟩,
    ⟨5, by decide, rfl⟩, ⟨6, by decide, rfl⟩, ⟨7, by decide, rfl⟩, ⟨8, by decide, rfl⟩, ⟨9, by decide, rfl⟩,
    ⟨10, by decide, rfl⟩, ⟨11, by decide, rfl⟩]

theorem laneAt_of_mem {n : LaneId} {r : Reg} (h : r ∈ laneRegs n) : LaneAt n r.addr := by
  obtain ⟨k, hk, e⟩ := addr_laneReg h
  unfold LaneAt
  omega

/-- The windows of two lanes do not meet. -/
theorem laneAt_unique {n m : LaneId} {a : Nat} (hn : LaneAt n a) (hm : LaneAt m a) : n = m := by
  unfold LaneAt at hn hm
  cases n <;> cases m <;> simp only [laneBlock, blockBase, laneBase] at hn hm
  case net.net p l q k => rw [Fin.ext (a := p) (b := q) (by omega), Fin.ext (a := l) (b := k) (by omega)]
  case host.host p l q k => rw [Fin.ext (a := p) (b := q) (by omega), Fin.ext (a := l) (b := k) (by omega)]
  all_goals omega

theorem not_laneAt_of_mem {n m : LaneId} (hne : m ≠ n) {r : Reg} (h : r ∈ laneRegs m) : ¬ LaneAt n r.addr :=
  fun e => hne (laneAt_unique (laneAt_of_mem h) e)

section
variable (n : LaneId)

theorem at_laneCtrl : LaneAt n (Reg.laneCtrl n).addr := laneAt_of_mem (by simp [laneRegs])
theorem at_laneStatus : LaneAt n (Reg.laneStatus n).addr := laneAt_of_mem (by simp [laneRegs])
theorem at_laneTxeq : LaneAt n (Reg.laneTxeq n).addr := laneAt_of_mem (by simp [laneRegs])
theorem at_laneRxeq : LaneAt n (Reg.laneRxeq n).addr := laneAt_of_mem (by simp [laneRegs])
theorem at_laneTest : LaneAt n (Reg.laneTest n).addr := laneAt_of_mem (by simp [laneRegs])
theorem at_laneBitcnt : LaneAt n (Reg.laneBitcnt n).addr := laneAt_of_mem (by simp [laneRegs])
theorem at_laneLineerr : LaneAt n (Reg.laneLineerr n).addr := laneAt_of_mem (by simp [laneRegs])
theorem at_laneMargin : LaneAt n (Reg.laneMargin n).addr := laneAt_of_mem (by simp [laneRegs])
theorem at_laneEye : LaneAt n (Reg.laneEye n).addr := laneAt_of_mem (by simp [laneRegs])

end

/-- Registers of a lane at two places of its window are two registers. -/
theorem lane_reg_ne {n : LaneId} {q r : Reg} (i j : Nat) (hq : q.addr = blockBase (laneBlock n) + laneBase n + i)
    (hr : r.addr = blockBase (laneBlock n) + laneBase n + j) (h : i ≠ j := by decide) : q.addr ≠ r.addr := by
  rw [hq, hr]
  omega

/-- A register of another lane is another register. -/
theorem lane_addr_ne {n m : LaneId} {q r : Reg} (hq : q ∈ laneRegs m) (hr : r ∈ laneRegs n) (h : m ≠ n) : q.addr ≠ r.addr :=
  fun e => not_laneAt_of_mem h hq (e ▸ laneAt_of_mem hr)

/-- No record of a fault lies in a lane's window (R457, R485). -/
theorem not_faultAt_of_lane {n : LaneId} {a : Nat} (h : LaneAt n a) (b : Block) : ¬ FaultAt b a := by
  unfold LaneAt at h
  rintro (e | e | ⟨k, e⟩)
  · have := addr_mod (.ftStatus b)
    rw [← e] at this
    cases n <;> simp only [laneBlock, blockBase, laneBase, Reg.off] at h this <;> omega
  · have := addr_mod (.ftCode b)
    rw [← e] at this
    cases n <;> simp only [laneBlock, blockBase, laneBase, Reg.off] at h this <;> omega
  · rw [e] at h
    cases n <;> simp only [laneBlock, blockBase, laneBase, Reg.addr, Reg.off, Reg.block] at h <;> omega

/-- No LL_ register of a link lies in a lane's window (R111). -/
theorem not_laneAt_link {r : Reg} (n : LaneId) (l : LinkId) (o : Nat) (h : r.addr = blockBase (linkBlock l) + linkBase l + o)
    (ho : o < 0x3000 := by decide) : ¬ LaneAt n r.addr := by
  rw [h]
  unfold LaneAt
  cases n <;> cases l <;> simp only [laneBlock, linkBlock, blockBase, laneBase, linkBase] <;> omega

theorem not_laneAt_llStatus (n : LaneId) (l : LinkId) : ¬ LaneAt n (Reg.llStatus l).addr := not_laneAt_link n l 8 rfl
theorem not_laneAt_llCtrl (n : LaneId) (l : LinkId) : ¬ LaneAt n (Reg.llCtrl l).addr := not_laneAt_link n l 0 rfl

/-- A link's state is not a record of a fault. -/
theorem not_faultAt_link {r : Reg} (b : Block) (l : LinkId) (o : Nat) (h : r.addr = blockBase (linkBlock l) + linkBase l + o)
    (ho : o < 0x3000 := by decide) : ¬ FaultAt b r.addr := by
  rintro (e | e | ⟨k, e⟩)
  · have := addr_mod (.ftStatus b)
    rw [← e, h] at this
    cases l <;> simp only [linkBlock, blockBase, linkBase, Reg.off] at this <;> omega
  · have := addr_mod (.ftCode b)
    rw [← e, h] at this
    cases l <;> simp only [linkBlock, blockBase, linkBase, Reg.off] at this <;> omega
  · rw [h] at e
    cases l <;> simp only [linkBlock, blockBase, linkBase, Reg.addr, Reg.off, Reg.block] at e <;> omega

end Sys2Proof.Machine
end

section
/-! PROOFS. LaneTestFeatures (R54, R56, R74 to R76, R78 to R80). -/

namespace Sys2Proof.Machine

-- The proofs are elaborated one after another: in parallel their threads' stacks need more memory than a compile may have.
set_option Elab.async false

/-! ### The Gray map is its own inverse (R51) -/

/-- The even bits below `2 * n`. -/
theorem evenBits_succ (n : Nat) : (4 ^ (n + 1) - 1) / 3 = 4 * ((4 ^ n - 1) / 3) + 1 := by
  have h : 4 ^ n % 3 = 1 := by simp [Nat.pow_mod]
  rw [Nat.pow_succ]
  omega

theorem evenBits_apart (n i : Nat) : ((4 ^ n - 1) / 3).testBit i = true → ((4 ^ n - 1) / 3).testBit (i + 1) = false := by
  induction n generalizing i with
  | zero => simp
  | succ n ih =>
    rw [evenBits_succ]
    match i with
    | 0 => intro _; simp [Nat.testBit_succ]; omega
    | 1 => intro h; simp [Nat.testBit_succ] at h; omega
    | i + 2 =>
      have e : (4 * ((4 ^ n - 1) / 3) + 1) / 2 / 2 = (4 ^ n - 1) / 3 := by omega
      simp only [Nat.testBit_succ, e]
      simpa only [Nat.testBit_succ] using ih i

theorem gray_gray (n w : Nat) : gray n (gray n w) = w := by
  apply Nat.eq_of_testBit_eq
  intro i
  have h := evenBits_apart n i
  unfold gray
  simp only [Nat.testBit_xor, Nat.testBit_and, Nat.testBit_div_two]
  revert h
  cases ((4 ^ n - 1) / 3).testBit i <;> simp +contextual

theorem burstLevels_zero (n w : Nat) : burstLevels n 0 w = w := by
  simp only [burstLevels, Nat.pow_zero, Nat.sub_self, Nat.zero_mul, Nat.xor_zero, gray_gray]

/-! ### Two bits of a register -/

theorem fld_top (w : Word) : fld w 63 62 = 2 * b2n (bit w 63) + b2n (bit w 62) := by
  simp only [fld, bit, b2n, ← BitVec.testBit_toNat, Nat.testBit_eq_decide_div_mod_eq]
  have := w.isLt
  split <;> split <;> simp_all <;> omega

/-- Bits 63 and 62 of a register, as its top field. -/
theorem rf_top (s : State) (r : Reg) : s.rf r 63 62 = 2 * b2n (s.rb r 63) + b2n (s.rb r 62) := fld_top _

/-! ### The rows on any state -/

section
variable (s : State) (n : LaneId)

theorem injectBits_alters : s.Alters (s.injectBits n) [.lanes, .out] NoReg :=
  (alters_modLane _ _).trans (alters_emit _)

theorem lane_injectBits : (s.injectBits n).lane n = { s.lane n with
    invert := if s.sendsPattern n = true ∧ s.nearLoop n = false then (s.lane n).invert
      else max (s.lane n).invert (s.rf (.laneTest n) 23 16) } := by
  simp [State.injectBits]

theorem doInjectNow_spec (h : s.laneState n ≠ 0) : ∃ t, doInjectNow n s = t ∧
    t.out = .burst n (s.rf (.laneTest n) 23 16) :: s.out ∧
    (t.lane n).invert = (if s.sendsPattern n = true ∧ s.nearLoop n = false then (s.lane n).invert
      else max (s.lane n).invert (s.rf (.laneTest n) 23 16)) ∧
    t = { s with lanes := t.lanes, out := t.out } := by
  refine ⟨s.injectBits n, if_pos h, rfl, ?_, (injectBits_alters s n).eq_laneOut⟩
  rw [lane_injectBits]


theorem doInjectBurst_early
    (h : s.clk < (s.lane n).injAt + bitTime (laneHost n) (((s.lane n).injNo + 1) * 2 ^ s.rf (.laneTest n) 15 10)) :
    doInjectBurst n s = s := if_neg fun ⟨_, _, k⟩ => absurd k (by omega)

theorem doInjectBurst_spec (hr : s.rf (.laneTest n) 15 10 ≠ 0) (hs : s.laneState n ≠ 0)
    (h : (s.lane n).injAt + bitTime (laneHost n) (((s.lane n).injNo + 1) * 2 ^ s.rf (.laneTest n) 15 10) ≤ s.clk) :
    ∃ t, doInjectBurst n s = t ∧ t.out = .burst n (s.rf (.laneTest n) 23 16) :: s.out ∧
    (t.lane n).invert = (if s.sendsPattern n = true ∧ s.nearLoop n = false then (s.lane n).invert
      else max (s.lane n).invert (s.rf (.laneTest n) 23 16)) ∧
    (t.lane n).injNo = (s.lane n).injNo + 1 ∧ (t.lane n).injAt = (s.lane n).injAt ∧
    t = { s with lanes := t.lanes, out := t.out } := by
  obtain ⟨u, hu⟩ : ∃ u, u = s.modLane n (fun x => { x with injNo := (s.lane n).injNo + 1 }) := ⟨_, rfl⟩
  have hsu : s.Alters u [.lanes, .out] NoReg := hu ▸ alters_modLane _ _
  have hl : u.lane n = { s.lane n with injNo := (s.lane n).injNo + 1 } := by rw [hu, lane_modLane_same]
  obtain ⟨t, ht⟩ : ∃ t, t = u.injectBits n := ⟨_, rfl⟩
  have htl : t.lane n = _ := ht ▸ lane_injectBits u n
  refine ⟨t, ?_, ?_, ?_, ?_, ?_, (hsu.trans (ht ▸ injectBits_alters u n)).eq_laneOut⟩
  · rw [ht, hu]
    exact if_pos ⟨hr, hs, h⟩
  · rw [ht, hu]
    rfl
  · rw [htl, hl]
    subst hu
    rfl
  · rw [htl, hl]
  · rw [htl, hl]

theorem doMarginScanStart_spec (h : s.laneState n = 2 ∨ s.laneState n = 5) (hr : s.rb (.laneMargin n) 63 = false) :
    ∃ t, doMarginScanStart n s = t ∧ t.rf (.laneMargin n) 63 62 = 2 ∧ (t.lane n).scanAt = s.clk ∧
    t = { s with regs := t.regs, lanes := t.lanes } := by
  refine ⟨((s.wb (.laneMargin n) 62 false).wb (.laneMargin n) 63 true).modLane n (fun x => { x with scanAt := s.clk }),
    ?_, ?_, ?_, ?_⟩
  · simp only [doMarginScanStart, hr, Bool.false_eq_true, ↓reduceIte, if_pos h]
    rfl
  · rw [rf_top]
    show 2 * b2n (((s.wb (.laneMargin n) 62 false).wb (.laneMargin n) 63 true).rb (.laneMargin n) 63) +
      b2n (((s.wb (.laneMargin n) 62 false).wb (.laneMargin n) 63 true).rb (.laneMargin n) 62) = 2
    rw [rb_wb_same _ _ _ _ (by decide), rb_wb_bit_other _ _ _ (by decide) (by decide), rb_wb_same _ _ _ _ (by decide)]
    rfl
  · rw [lane_modLane_same]
  · exact (((alters_wb (P := LaneAt n) _ _ (at_laneMargin n)).trans (alters_wb _ _ (at_laneMargin n))).trans
      (alters_modLane _ _)).eq_laneReg

theorem doMarginScanEnd_spec (d : BitVec 32) (hr : s.rb (.laneMargin n) 63 = true)
    (h : (s.lane n).scanAt + us (2 ^ s.rf (.laneMargin n) 39 36) ≤ s.clk) :
    ∃ t, doMarginScanEnd n d s = t ∧ t.rf (.laneMargin n) 63 62 = 1 ∧ t.rf (.laneMargin n) 31 0 = d.toNat ∧
    t = { s with regs := t.regs } := by
  refine ⟨((s.wb (.laneMargin n) 63 false).wb (.laneMargin n) 62 true).wf (.laneMargin n) 31 0 d.toNat, ?_, ?_, ?_, rfl⟩
  · simp only [doMarginScanEnd, hr, Bool.not_true, Bool.false_eq_true, ↓reduceIte, if_neg (Nat.not_lt.mpr h)]
  · rw [rf_wf_field _ _ _ _ _ _ _ (by decide) (by decide), rf_top, rb_wb_same _ _ _ _ (by decide),
      rb_wb_bit_other _ _ _ (by decide) (by decide), rb_wb_same _ _ _ _ (by decide)]
    rfl
  · rw [rf_wf_same _ _ _ _ _ (by decide)]
    exact Nat.mod_eq_of_lt d.isLt

theorem fld_setWidth {m k : Nat} (w : BitVec m) (hi lo : Nat) (h : hi < k) : fld (w.setWidth k) hi lo = fld w hi lo := by
  apply Nat.eq_of_testBit_eq
  intro i
  rw [testBit_fld, testBit_fld]
  by_cases hi' : i < hi + 1 - lo
  · simp [hi', show lo + i < k by omega]
  · simp [hi']

theorem fld_zero (m hi lo : Nat) : fld (0 : BitVec m) hi lo = 0 := by simp [fld]

/-- The eye that a lane shows (R78). -/
def shownEye (n : LaneId) (e : BitVec 48) : Word := if laneHost n then setFld 0 31 16 (fld e 31 16) else e.setWidth 64

theorem fld_shownEye_middle (e : BitVec 48) : fld (shownEye n e) 31 16 = fld e 31 16 := by
  unfold shownEye
  split
  · rw [fld_setFld_same _ _ _ _ (by decide)]
    exact Nat.mod_eq_of_lt (fld_lt e 31 16)
  · exact fld_setWidth _ _ _ (by decide)

theorem fld_shownEye_outer (e : BitVec 48) {hi lo : Nat} (h : hi < 64) (ho : 31 < lo ∨ hi < 16) :
    fld (shownEye n e) hi lo = if laneHost n then 0 else fld e hi lo := by
  unfold shownEye
  split
  · rw [fld_setFld_other _ _ _ _ _ _ h ho]
    exact fld_zero ..
  · exact fld_setWidth _ _ _ h

theorem doLaneEyeRefresh_spec (e : BitVec 48) (h : s.laneState n = 2 ∨ s.laneState n = 5)
    (hd : (s.lane n).eyeAt + us 1000 ≤ s.clk) :
    ∃ t, doLaneEyeRefresh n e s = t ∧ t.rf (.laneEye n) 31 16 = fld e 31 16 ∧
    t.rf (.laneEye n) 47 32 = (if laneHost n then 0 else fld e 47 32) ∧
    t.rf (.laneEye n) 15 0 = (if laneHost n then 0 else fld e 15 0) ∧ (t.lane n).eyeAt = s.clk ∧
    t = { s with regs := t.regs, lanes := t.lanes } := by
  obtain ⟨u, hu⟩ : ∃ u, u = s.modLane n (fun x => { x with eyeAt := s.clk }) := ⟨_, rfl⟩
  have hs : ¬ ((u.laneState n ≠ 2 ∧ u.laneState n ≠ 5) ∨ (!true) = true) := by
    rw [show u.laneState n = s.laneState n from hu ▸ rfl]
    rintro (⟨h2, h5⟩ | h)
    · exact h.elim h2 h5
    · cases h
  have hf : ∀ hi lo, (u.setReg (.laneEye n) (shownEye n e)).rf (.laneEye n) hi lo = fld (shownEye n e) hi lo := fun hi lo => by
    rw [State.rf, reg_setReg_same]
  refine ⟨u.setReg (.laneEye n) (shownEye n e), ?_, ?_, ?_, ?_, ?_, ?_⟩
  · simp only [doLaneEyeRefresh, if_pos hd, ← hu, decide_eq_true hd, if_neg hs, shownEye]
    split <;> rfl
  · rw [hf, fld_shownEye_middle]
  · rw [hf, fld_shownEye_outer _ _ (by decide) (by decide)]
  · rw [hf, fld_shownEye_outer _ _ (by decide) (by decide)]
  · rw [lane_setReg, hu, lane_modLane_same]
  · exact ((hu ▸ alters_modLane n _ : s.Alters u [.regs, .lanes] (LaneAt n)).trans (.setReg _ _ (at_laneEye n))).eq_laneReg

/-- What LANE_BITCNT shows of a count of bits (R80). -/
def bitcntWord (bits : Nat) : Word := mkWord 64 [(63, 63, b2n (decide (2 ^ 48 - 1 < bits))), (47, 0, min bits (2 ^ 48 - 1))]

theorem errcntRead_snd : ∃ u w, s.Alters u [.regs, .lanes, .frees] (LaneAt n) ∧
    w = u.setReg (.laneBitcnt n) (bitcntWord (s.bitsCompared n)) ∧
    (s.errcntRead n).2 = w.modLane n (fun x => { x with bits := 0, chkSince := x.chkSince.map (fun _ => w.clk) }) := by
  obtain ⟨v, hv⟩ : ∃ v : BitVec 48 × State, v = if s.bitsCompared n = 0 then (0, s) else s.free 48 := ⟨_, rfl⟩
  refine ⟨v.2, _, ?_, rfl, ?_⟩
  · rw [hv]
    split
    · exact .refl s
    · exact alters_free _
  · unfold State.errcntRead
    rw [hv]
    rfl

theorem doLaneErrcntRead_spec : ∃ t, doLaneErrcntRead n s = t ∧
    t.rf (.laneBitcnt n) 47 0 = min (s.bitsCompared n) (2 ^ 48 - 1) ∧
    t.rb (.laneBitcnt n) 63 = decide (2 ^ 48 - 1 < s.bitsCompared n) ∧ (t.lane n).bits = 0 ∧ t.bitsCompared n = 0 ∧
    t = { s with regs := t.regs, lanes := t.lanes, frees := t.frees } := by
  obtain ⟨u, w, hu, hw, ht⟩ := errcntRead_snd s n
  have hsw : s.Alters w [.regs, .lanes, .frees] (LaneAt n) := hw ▸ hu.trans (.setReg _ _ (at_laneBitcnt n))
  obtain ⟨t, he⟩ : ∃ t, t = (s.errcntRead n).2 := ⟨_, rfl⟩
  have hw' := he.trans ht
  have ha : s.Alters t [.regs, .lanes, .frees] (LaneAt n) := by
    rw [hw']
    exact hsw.trans (alters_modLane _ _)
  have hl : t.lane n = { w.lane n with bits := 0, chkSince := (w.lane n).chkSince.map (fun _ => w.clk) } := by
    rw [hw', lane_modLane_same]
  have hr : t.reg (.laneBitcnt n) = bitcntWord (s.bitsCompared n) := by rw [hw', reg_modLane, hw, reg_setReg_same]
  refine ⟨t, he.symm, ?_, ?_, ?_, ?_, ?_⟩
  · rw [State.rf, hr]
    simp only [bitcntWord, mkWord, List.foldl_cons, List.foldl_nil]
    rw [fld_setFld_same _ _ _ _ (by decide)]
    exact Nat.mod_eq_of_lt (by omega)
  · rw [State.rb, hr]
    simp only [bitcntWord, mkWord, List.foldl_cons, List.foldl_nil]
    rw [bit_setFld_other _ _ _ _ _ (by decide) (by decide), bit_setFld_same _ _ _ (by decide)]
  · rw [hl]
  · rw [State.bitsCompared, hl, ha.clk, hsw.clk]
    cases (w.lane n).chkSince <;> simp
  · exact (ha.mono (by decide)).eq_sent.trans (by rw [ha.out])

theorem doCheckerSynchronised_spec (b : BitVec 256) (h5 : s.laneState n = 5) (h7 : s.rb (.laneTest n) 7 = true)
    (h8 : s.rb (.laneTest n) 8 = false) (hm : patMatches (s.rf (.laneTest n) 6 4) (s.userPattern n)
      (s.heardBits n (bitsMsb 256 b.toNat)) = true) :
    ∃ t, doCheckerSynchronised n b s = t ∧ t.rb (.laneTest n) 8 = true ∧ (t.lane n).chkSince = some s.clk ∧
    t = { s with regs := t.regs, lanes := t.lanes } := by
  refine ⟨(s.wb (.laneTest n) 8 true).modLane n (fun x => { x with chkSince := some s.clk }), ?_, ?_, ?_, ?_⟩
  · unfold doCheckerSynchronised
    extract_lets r heard
    rw [if_pos ⟨h5, h7, h8, hm⟩]
  · rw [rb_modLane, rb_wb_same _ _ _ _ (by decide)]
  · rw [lane_modLane_same]
  · exact ((alters_wb (P := LaneAt n) _ _ (at_laneTest n)).trans (alters_modLane _ _)).eq_laneReg

theorem doCheckerSynchronised_off (b : BitVec 256) (hm : patMatches (s.rf (.laneTest n) 6 4) (s.userPattern n)
      (s.heardBits n (bitsMsb 256 b.toNat)) = false) : doCheckerSynchronised n b s = s := by
  unfold doCheckerSynchronised
  extract_lets r heard
  exact if_neg fun ⟨_, _, _, h⟩ => by
    rw [hm] at h
    cases h

end

/-! ### Codewords (R54, R56, R77) -/

theorem nearLoop_of_loop {s : State} {n : LaneId} {k : Nat} (h : s.rf (.laneCtrl n) 9 7 = k) (hk : k ≠ 1 ∧ k ≠ 2) :
    s.nearLoop n = false := by
  simp only [State.nearLoop, h, hk.1, hk.2, decide_false, Bool.or_self]

/-- The addresses that the errors of a lane change: its registers, and the records of the alarm (R79). -/
def ErrorsAt (n : LaneId) (a : Nat) : Prop := LaneAt n a ∨ FaultAt (laneBlock n) a

/-- The fields that the errors of a lane change. -/
def errorFields : List Field := .lanes :: faultFields

theorem noteErrors_alters (s : State) (n : LaneId) (k : Nat) : s.Alters (s.noteErrors n k) errorFields (ErrorsAt n) := by
  unfold State.noteErrors
  split
  · exact .refl s
  extract_lets u keep corr v limit
  have hv : s.Alters v errorFields (ErrorsAt n) := (alters_bump _ _ _ (.inl (at_laneLineerr n))).trans (alters_modLane _ _)
  split
  · exact hv.trans ((alters_wb _ _ (.inl (at_laneStatus n))).trans (.fault _ _ _ _ fun _ => .inr))
  · exact hv

theorem rf_noteErrors_count (s : State) (n : LaneId) (k : Nat) :
    (s.noteErrors n k).rf (.laneLineerr n) 31 0 = min 0xFFFFFFFF (s.rf (.laneLineerr n) 31 0 + k) := by
  have hlt : s.rf (.laneLineerr n) 31 0 < 2 ^ 32 := fld_lt _ 31 0
  unfold State.noteErrors
  split
  · omega
  extract_lets u keep corr v limit
  have hv : v.rf (.laneLineerr n) 31 0 = min 0xFFFFFFFF (s.rf (.laneLineerr n) 31 0 + k) := by
    rw [rf_modLane, rf_bump_same _ _ _ _ _ (by decide)]
    omega
  split
  · rw [rf_fault _ _ _ _ _ (not_faultAt_of_lane (at_laneLineerr n) _), rf_wb_other _ _ _ _ _ _ _ (lane_reg_ne 0x48 8 rfl rfl), hv]
  · exact hv

theorem laneState_noteErrors (s : State) (n : LaneId) (k : Nat) : (s.noteErrors n k).laneState n = s.laneState n := by
  unfold State.noteErrors
  split
  · rfl
  extract_lets u keep corr v limit
  have hv : v.laneState n = s.laneState n := by
    rw [laneState_modLane]
    exact congrArg (fld · 3 0) (reg_bump_other _ _ _ _ _ _ (lane_reg_ne 8 0x48 rfl rfl))
  split
  · rw [State.laneState, rf_fault _ _ _ _ _ (not_faultAt_of_lane (at_laneStatus n) _),
      rf_wb_field _ _ _ _ _ _ (by decide) (by decide)]
    exact hv
  · exact hv

section
variable (s : State) (p : Port) (l : Fin 4) (line : BitVec 5440)

theorem noteCodeword_alters (n : LaneId) (c : RxCw) : s.Alters (s.noteCodeword n c) errorFields (ErrorsAt n) := by
  unfold State.noteCodeword
  split
  · exact alters_bump _ _ _ (.inl (at_laneLineerr n))
  · exact noteErrors_alters s n _

theorem portHears_of_alters {s t : State} {F : List Field} {P : Nat → Prop} (h : s.Alters t F P) (p : Port)
    (hP : ¬ P (Reg.llStatus (.port p)).addr) (hF : .ports ∉ F := by decide) : t.portHears p = s.portHears p := by
  rw [State.portHears, State.portHears, State.portState, State.llState, h.rf hP, port_of_ports (h.ports hF)]
  rfl

/-- What a codeword of kind 0xA, or one that cannot be corrected, leaves where its data are not taken. -/
theorem doCodewordReceived_untaken (hon : s.laneOn (.net p l) = true) (hloop : s.rf (.laneCtrl (.net p l)) 9 7 = 0)
    (hst : s.laneState (.net p l) = 1 ∨ (s.laneState (.net p l) = 2 ∧ s.portHears p = false)) {c : RxCw}
    (hc : c = s.heard p l line) (hk : (if c.erred = true then 0xA else fld c.tag 19 16) = 0xA) :
    ∃ u v w : State, u.regs = s.regs ∧ s.Alters u [.lanes] NoReg ∧
      (u.lane (.net p l)).rxCount = (s.lane (.net p l)).rxCount ∧ v = u.noteCodeword (.net p l) c ∧
      w = (if c.erred = true then v else v.wf (.laneStatus (.net p l)) 19 16 (fld c.tag 15 14)) ∧
      doCodewordReceived p l line s = (if s.laneState (.net p l) = 1 ∧ (s.lane (.net p l)).step = 6 ∧ c.erred = false
        then w.wb (.laneStatus (.net p l)) 11 true else w).modLane (.net p l)
        (fun x => { x with rxCount := if c.erred = true then ((s.lane (.net p l)).rxCount + 1) % 16384 else fld c.tag 13 0 }) := by
  obtain ⟨t, ht⟩ : ∃ t, t = doCodewordReceived p l line s := ⟨_, rfl⟩
  rw [← ht]
  unfold doCodewordReceived at ht
  extract_lets n st x loop i c' s1 s2 kind count s3 s4 s5 k s6 s7 at ht
  have hl : loop = 0 := hloop
  rw [show (!s.laneOn n || s.nearLoop n) = false by rw [show s.laneOn n = true from hon, nearLoop_of_loop hloop (by decide)]; rfl,
    if_neg (by decide), if_neg (by omega)] at ht
  have hcc : c' = c := hc.symm
  have hkind : kind = 0xA := by
    show (if c'.erred = true then 0xA else fld c'.tag 19 16) = 0xA
    rw [hcc]
    exact hk
  have ha : s.Alters s5 errorFields (ErrorsAt n) := by
    have h2 : s.Alters s2 errorFields (ErrorsAt n) := (alters_modLane _ _).trans (noteCodeword_alters _ _ _)
    have h3 : s.Alters s3 errorFields (ErrorsAt n) := .ite h2 (h2.trans (alters_wf _ _ _ (.inl (at_laneStatus n))))
    have h4 : s.Alters s4 errorFields (ErrorsAt n) := .ite (h3.trans (alters_wb _ _ (.inl (at_laneStatus n)))) h3
    exact h4.trans (alters_modLane _ _)
  have hh : s5.portHears p = s.portHears p := portHears_of_alters ha p (by
    rintro (e | e)
    · exact not_laneAt_llStatus _ _ e
    · exact not_faultAt_link _ (.port p) 8 rfl (by decide) e)
  rw [if_neg (show ¬ loop = 4 by omega), if_neg (show ¬ (st ≠ 1 ∧ st ≠ 2 ∧ st ≠ 3 ∧ st ≠ 4) from by
    rcases hst with h | ⟨h, -⟩
    · exact fun e => e.1 h
    · exact fun e => e.2.1 h), if_pos hkind, if_neg (show ¬ ((st = 2 ∨ st = 3) ∧ x.rxIdle = false ∧ s5.portHears p = true) from by
    rw [hh]
    rintro ⟨h2, -, h⟩
    rcases hst with h1 | ⟨-, hp⟩
    · have : st = 1 := h1
      omega
    · rw [hp] at h
      cases h)] at ht
  refine ⟨s1, s2, s3, rfl, alters_modLane _ _, ?_, ?_, ?_, ht.trans ?_⟩
  · rw [lane_modLane_same]
  · rw [← hcc]
  · rw [← hcc]
  · rw [← hcc]

/-- A codeword that cannot be corrected. -/
theorem doCodewordReceived_erred (hon : s.laneOn (.net p l) = true) (hloop : s.rf (.laneCtrl (.net p l)) 9 7 = 0)
    (hst : s.laneState (.net p l) = 1 ∨ (s.laneState (.net p l) = 2 ∧ s.portHears p = false))
    (he : (s.heard p l line).erred = true) : ∃ t, doCodewordReceived p l line s = t ∧
    s.Alters t [.regs, .lanes] (LaneAt (.net p l)) ∧
    t.rf (.laneLineerr (.net p l)) 63 32 = min 0xFFFFFFFF (s.rf (.laneLineerr (.net p l)) 63 32 + 1) ∧
    t.rf (.laneLineerr (.net p l)) 31 0 = s.rf (.laneLineerr (.net p l)) 31 0 ∧
    t.reg (.laneStatus (.net p l)) = s.reg (.laneStatus (.net p l)) ∧
    (t.lane (.net p l)).rxCount = ((s.lane (.net p l)).rxCount + 1) % 16384 := by
  obtain ⟨c, hc⟩ : ∃ c, c = s.heard p l line := ⟨_, rfl⟩
  rw [← hc] at he
  obtain ⟨u, v, w, hur, hu, -, hv, hw, ht⟩ := doCodewordReceived_untaken s p l line hon hloop hst hc (if_pos he)
  rw [if_neg (fun h => by rw [he] at h; exact absurd h.2.2 (by decide)), if_pos he] at ht
  rw [if_pos he] at hw
  rw [State.noteCodeword, if_pos he] at hv
  have hreg : ∀ q, u.reg q = s.reg q := fun q => hu.reg q id
  refine ⟨_, ht, ?_, ?_, ?_, ?_, ?_⟩
  · rw [hw, hv]
    exact ((hu.mono (by decide) fun _ => False.elim).trans (alters_bump _ _ _ (at_laneLineerr _))).trans (alters_modLane _ _)
  · rw [rf_modLane, hw, hv, rf_bump_same _ _ _ _ _ (by decide), State.rf, hreg, min_comm]
    rfl
  · rw [rf_modLane, hw, hv, rf_bump_other _ _ _ _ _ _ _ (by decide) (by decide), State.rf, hreg]
    rfl
  · rw [reg_modLane, hw, hv, reg_bump_other _ _ _ _ _ _ (lane_reg_ne (n := .net p l) 8 0x48 rfl rfl), hreg]
  · rw [lane_modLane_same]

/-- A codeword of kind 0xA. -/
theorem doCodewordReceived_good (hon : s.laneOn (.net p l) = true) (hloop : s.rf (.laneCtrl (.net p l)) 9 7 = 0)
    (hst : s.laneState (.net p l) = 1 ∨ (s.laneState (.net p l) = 2 ∧ s.portHears p = false))
    (he : (s.heard p l line).erred = false) (hk : fld (s.heard p l line).tag 19 16 = 0xA) :
    ∃ t, doCodewordReceived p l line s = t ∧ s.Alters t errorFields (ErrorsAt (.net p l)) ∧
    t.rf (.laneStatus (.net p l)) 19 16 = fld (s.heard p l line).tag 15 14 ∧
    t.rf (.laneLineerr (.net p l)) 31 0 =
      min 0xFFFFFFFF (s.rf (.laneLineerr (.net p l)) 31 0 + (s.heard p l line).corrected) ∧
    t.laneState (.net p l) = s.laneState (.net p l) ∧ (t.lane (.net p l)).rxCount = fld (s.heard p l line).tag 13 0 := by
  obtain ⟨c, hc⟩ : ∃ c, c = s.heard p l line := ⟨_, rfl⟩
  rw [← hc] at he hk ⊢
  have hn : ¬ c.erred = true := by simp [he]
  obtain ⟨u, v, w, hur, hu, -, hv, hw, ht⟩ := doCodewordReceived_untaken s p l line hon hloop hst hc ((if_neg hn).trans hk)
  rw [if_neg hn] at hw
  rw [State.noteCodeword, if_neg hn] at hv
  obtain ⟨x, hx⟩ : ∃ x, x = (if s.laneState (.net p l) = 1 ∧ (s.lane (.net p l)).step = 6 ∧ c.erred = false
        then w.wb (.laneStatus (.net p l)) 11 true else w) := ⟨_, rfl⟩
  rw [← hx] at ht
  have hxr : ∀ hi lo, hi < 64 → (11 < lo ∨ hi < 11) → x.rf (.laneStatus (.net p l)) hi lo = w.rf (.laneStatus (.net p l)) hi lo :=
    fun hi lo hh ho => by
      rw [hx]
      split
      · exact rf_wb_field _ _ _ _ _ _ hh ho
      · rfl
  have hxl : x.rf (.laneLineerr (.net p l)) 31 0 = w.rf (.laneLineerr (.net p l)) 31 0 := by
    rw [hx]
    split
    · exact rf_wb_other _ _ _ _ _ _ _ (lane_reg_ne (n := .net p l) 0x48 8 rfl rfl)
    · rfl
  have hwa : s.Alters w errorFields (ErrorsAt (.net p l)) := by
    rw [hw, hv]
    exact ((hu.mono (by decide) fun _ => False.elim).trans (noteErrors_alters _ _ _)).trans
      (alters_wf _ _ _ (.inl (at_laneStatus _)))
  refine ⟨_, ht, ?_, ?_, ?_, ?_, ?_⟩
  · rw [hx]
    exact (State.Alters.ite (hwa.trans (alters_wb _ _ (.inl (at_laneStatus _)))) hwa).trans (alters_modLane _ _)
  · rw [rf_modLane, hxr _ _ (by decide) (by decide), hw, rf_wf_same _ _ _ _ _ (by decide)]
    exact Nat.mod_eq_of_lt ((fld_lt c.tag 15 14).trans (by decide))
  · rw [rf_modLane, hxl, hw, rf_wf_other _ _ _ _ _ _ _ _ (lane_reg_ne (n := .net p l) 0x48 8 rfl rfl), hv, rf_noteErrors_count, hu.rf id]
  · rw [laneState_modLane, State.laneState, hxr _ _ (by decide) (by decide), hw,
      rf_wf_field _ _ _ _ _ _ _ (by decide) (by decide), hv]
    exact (laneState_noteErrors _ _ _).trans (hu.rf id 3 0)
  · rw [lane_modLane_same]
    exact if_neg hn

/-- A far retimed loopback. -/
theorem doCodewordReceived_loop (hon : s.laneOn (.net p l) = true) (hloop : s.rf (.laneCtrl (.net p l)) 9 7 = 3)
    (hf : s.rb (.laneCtrl (.net p l)) 5 = false) (hi : (s.lane (.net p l)).invert = 0) :
    ∃ t, doCodewordReceived p l line s = t ∧ s.Alters t [.lanes, .out] NoReg ∧
    t.out = .codeword (.net p l) (if s.rb (.laneCtrl (.net p l)) 10 then BitVec.ofNat 5440 (invertLevels 2720 line.toNat)
      else line) :: s.out ∧
    t.lane (.net p l) = s.lane (.net p l) := by
  obtain ⟨t, ht⟩ : ∃ t, t = s.loopOn (.net p l) false line 0 := ⟨_, rfl⟩
  have hd : doCodewordReceived p l line s = t := by
    rw [ht, doCodewordReceived]
    simp only [hon, nearLoop_of_loop hloop (by decide), Bool.not_true, Bool.or_self, Bool.false_eq_true, if_false, hloop,
      if_true]
  have ht' : t = (s.modLane (.net p l) (fun x => { x with txLast := (s.lane (.net p l)).txLast, invert := 0 })).emit
      (.codeword (.net p l) (BitVec.ofNat 5440 (if s.rb (.laneCtrl (.net p l)) 10 then invertLevels 2720 line.toNat
        else line.toNat))) := by
    rw [ht]
    simp only [State.loopOn, State.laneForced, hf, hi, burstLevels_zero, Bool.false_eq_true, if_false]
  refine ⟨t, hd, ?_, ?_, ?_⟩
  · rw [ht']
    exact (alters_modLane _ _).trans (alters_emit _)
  · rw [ht']
    show _ :: s.out = _
    congr 2
    split
    · rfl
    · exact (BitVec.ofNat_toNat _ line).trans (BitVec.setWidth_eq line)
  · rw [ht', lane_emit, lane_modLane_same, ← hi]

end

/-- A field that an effect on any state gives, after some time has passed. -/
theorem quietAfter_of_live {s t : State} {b : Block} {f : State → State} (dt : Nat) (hl : (s.elapse dt).live b = true)
    (h : f (s.elapse dt) = t) : s.quietAfter b dt f = .next t := (quiet_of_live _ _ _ hl).trans (congrArg _ h)

/-- Settles O14, clause by clause from the rows' own lemmas. -/
theorem laneTestFeatures : Obligations.LaneTestFeatures := by
  unfold Obligations.LaneTestFeatures
  refine ⟨?_, ?_, ?_, ?_, ?_, ?_, ?_, ?_, ?_, ?_, ?_, ?_⟩
  · intro s p l line hc hl hon hloop hst he
    obtain ⟨t, ht, ha, h1, h2, h3, h4⟩ := doCodewordReceived_erred s p l line hon hloop hst he
    exact ⟨t, act_of_alters hl hc ht ha, h1, h2, h3, h4, ha.eq_laneReg⟩
  · intro s p l line hc hl hon hloop hst he hk
    obtain ⟨t, ht, ha, h1, h2, h3, h4⟩ := doCodewordReceived_good s p l line hon hloop hst he hk
    exact ⟨t, act_of_alters hl hc ht ha, h1, h2, h3, h4, ha.hbm⟩
  · intro s p l line hc hl hon hloop hf hi
    obtain ⟨t, ht, ha, h1, h2⟩ := doCodewordReceived_loop s p l line hon hloop hf hi
    exact ⟨t, act_of_alters hl hc ht ha, h1, h2, ha.eq_laneOut⟩
  · intro s n dt hl hr hs h
    obtain ⟨t, ht, hrest⟩ := doInjectBurst_spec (s.elapse dt) n hr hs h
    exact ⟨t, quietAfter_of_live dt hl ht, hrest⟩
  · intro s n dt hl h
    exact quietAfter_of_live dt hl (doInjectBurst_early _ _ h)
  · intro s n hl h
    obtain ⟨t, ht, hrest⟩ := doInjectNow_spec s n h
    exact ⟨t, (quiet_of_live _ _ _ hl).trans (congrArg _ ht), hrest⟩
  · intro s n hl h hr
    obtain ⟨t, ht, hrest⟩ := doMarginScanStart_spec s n h hr
    exact ⟨t, (quiet_of_live _ _ _ hl).trans (congrArg _ ht), hrest⟩
  · intro s n dt d hl hr h
    obtain ⟨t, ht, hrest⟩ := doMarginScanEnd_spec (s.elapse dt) n d hr h
    exact ⟨t, quietAfter_of_live dt hl ht, hrest⟩
  · intro s n dt e hl h hd
    obtain ⟨t, ht, hrest⟩ := doLaneEyeRefresh_spec (s.elapse dt) n e h hd
    exact ⟨t, quietAfter_of_live dt hl ht, hrest⟩
  · intro s n hl
    obtain ⟨t, ht, hrest⟩ := doLaneErrcntRead_spec s n
    exact ⟨t, (quiet_of_live _ _ _ hl).trans (congrArg _ ht), hrest⟩
  · intro s n b hl h5 h7 h8 hm
    obtain ⟨t, ht, hrest⟩ := doCheckerSynchronised_spec s n b h5 h7 h8 hm
    exact ⟨t, (quiet_of_live _ _ _ hl).trans (congrArg _ ht), hrest⟩
  · intro s n b hl hm
    exact (quiet_of_live _ _ _ hl).trans (congrArg _ (doCheckerSynchronised_off s n b hm))

end Sys2Proof.Machine
end

section
/-! PROOFS. What training and sending change of a lane (R57 to R62, R70 to R72): a layer of one lemma for each operation. -/

namespace Sys2Proof.Machine

-- The proofs are elaborated one after another: in parallel their threads' stacks need more memory than a compile may have.
set_option Elab.async false

/-! ### Changes of one lane -/

/-- A lane's record after it has sent: what it sends goes on, the rest stays. -/
def Lane.Sent (x y : Lane) : Prop :=
  y = { x with ask := y.ask, gen := y.gen, txLast := y.txLast, invert := y.invert, rd := y.rd, scr := y.scr }

theorem Lane.Sent.trans {x y z : Lane} (h : x.Sent y) (k : y.Sent z) : x.Sent z := Eq.trans k (by rw [h])

/-- From `s` to `t` lane `n` has sent. -/
structure State.Sends (s t : State) (n : LaneId) (F : List Field) : Prop where
  same : s.Alters t F NoReg
  lane : (s.lane n).Sent (t.lane n)
  other : ∀ m, m ≠ n → t.lane m = s.lane m

/-- From `s` to `t` only registers and the record of lane `n`, and fields in `F`, change. -/
structure State.OnLane (s t : State) (n : LaneId) (F : List Field) : Prop where
  same : s.Alters t F (LaneAt n)
  other : ∀ m, m ≠ n → t.lane m = s.lane m

section
variable {s t u : State} {n : LaneId} {F G : List Field}

theorem State.Sends.refl (s : State) (n : LaneId) : s.Sends s n F := ⟨.refl s, rfl, fun _ _ => rfl⟩

theorem State.Sends.trans (h : s.Sends t n F) (k : t.Sends u n F) : s.Sends u n F :=
  ⟨h.same.trans k.same, h.lane.trans k.lane, fun m hm => (k.other m hm).trans (h.other m hm)⟩

theorem State.Sends.mono (h : s.Sends t n F) (hF : F ⊆ G := by decide) : s.Sends t n G := ⟨h.same.mono hF, h.lane, h.other⟩

theorem State.Sends.reg (h : s.Sends t n F) (q : Reg) : t.reg q = s.reg q := h.same.reg q id
theorem State.Sends.rf (h : s.Sends t n F) (q : Reg) (hi lo : Nat) : t.rf q hi lo = s.rf q hi lo := h.same.rf id hi lo
theorem State.Sends.rb (h : s.Sends t n F) (q : Reg) (i : Nat) : t.rb q i = s.rb q i := h.same.rb id i
theorem State.Sends.laneState (h : s.Sends t n F) (m : LaneId) : t.laneState m = s.laneState m := h.rf _ 3 0

theorem State.Sends.onLane (h : s.Sends t n F) : s.OnLane t n F := ⟨h.same.mono (fun _ h => h) (fun _ => False.elim), h.other⟩

theorem State.OnLane.refl (s : State) (n : LaneId) : s.OnLane s n F := ⟨.refl s, fun _ _ => rfl⟩

theorem State.OnLane.trans (h : s.OnLane t n F) (k : t.OnLane u n F) : s.OnLane u n F :=
  ⟨h.same.trans k.same, fun m hm => (k.other m hm).trans (h.other m hm)⟩

theorem State.OnLane.mono (h : s.OnLane t n F) (hF : F ⊆ G := by decide) : s.OnLane t n G := ⟨h.same.mono hF, h.other⟩

/-- A register of another lane stays. -/
theorem State.OnLane.reg_other (h : s.OnLane t n F) {m : LaneId} (hm : m ≠ n) {q : Reg} (hq : q ∈ laneRegs m) :
    t.reg q = s.reg q := h.same.reg q (not_laneAt_of_mem hm hq)

theorem State.OnLane.status_other (h : s.OnLane t n F) {m : LaneId} (hm : m ≠ n) :
    t.reg (.laneStatus m) = s.reg (.laneStatus m) := h.reg_other hm (by simp [laneRegs])

theorem State.OnLane.laneState_other (h : s.OnLane t n F) {m : LaneId} (hm : m ≠ n) : t.laneState m = s.laneState m := by
  rw [State.laneState, State.laneState, State.rf, State.rf, h.status_other hm]

theorem State.OnLane.llState (h : s.OnLane t n F) (l : LinkId) : t.llState l = s.llState l :=
  h.same.rf (not_laneAt_llStatus n l) 3 0

theorem State.OnLane.ite {c : Prop} [Decidable c] (ht : s.OnLane t n F) (hu : s.OnLane u n F) :
    s.OnLane (if c then t else u) n F := by
  split
  · exact ht
  · exact hu

/-- A write of one of the lane's registers. -/
theorem onLane_setReg {r : Reg} (v : Word) (h : LaneAt n r.addr) (hF : .regs ∈ F := by decide) : s.OnLane (s.setReg r v) n F :=
  ⟨.setReg _ _ h hF, fun _ _ => rfl⟩

theorem onLane_wf {r : Reg} (hi lo v : Nat) (h : LaneAt n r.addr) (hF : .regs ∈ F := by decide) :
    s.OnLane (s.wf r hi lo v) n F := onLane_setReg _ h hF

theorem onLane_wb {r : Reg} (i : Nat) (b : Bool) (h : LaneAt n r.addr) (hF : .regs ∈ F := by decide) :
    s.OnLane (s.wb r i b) n F := onLane_setReg _ h hF

theorem onLane_modLane (f : Lane → Lane) (h : .lanes ∈ F := by decide) : s.OnLane (s.modLane n f) n F :=
  ⟨alters_modLane _ _ h, fun _ hm => lane_modLane_other _ _ hm⟩

theorem sends_modLane (f : Lane → Lane) (hf : (s.lane n).Sent (f (s.lane n))) (h : .lanes ∈ F := by decide) :
    s.Sends (s.modLane n f) n F :=
  ⟨alters_modLane _ _ h, by rw [lane_modLane_same]; exact hf, fun _ hm => lane_modLane_other _ _ hm⟩

theorem sends_emit (e : Emission) (h : .out ∈ F := by decide) : s.Sends (s.emit e) n F :=
  ⟨alters_emit e h, rfl, fun _ _ => rfl⟩

theorem sends_free (k : Nat) (h : .frees ∈ F := by decide) : s.Sends (s.free k).2 n F :=
  ⟨alters_free k h, rfl, fun _ _ => rfl⟩

end

/-! ### What a lane sends -/

section
variable (s : State) (n : LaneId)

theorem sendCodeword_sends (kind lane count : Nat) (data : List Byte) :
    s.Sends (s.sendCodeword n kind lane count data) n [.lanes, .out] := by
  unfold State.sendCodeword
  extract_lets x c bits o
  exact (sends_modLane _ (by rfl)).trans (sends_emit _)

theorem sendFill_sends : s.Sends (s.sendFill n) n [.lanes, .out, .frees] := by
  unfold State.sendFill
  extract_lets v count
  exact (sends_free 5120).trans (sendCodeword_sends ..).mono

theorem sendGroups_sends (gs : List (BitVec 10)) : s.Sends (s.sendGroups n gs) n [.lanes, .out] := by
  unfold State.sendGroups
  extract_lets o out
  exact (sends_modLane _ (by rfl)).trans (sends_emit _)

theorem sendChars_sends (cs : List Char8) : s.Sends (s.sendChars n cs) n [.lanes, .out] := by
  unfold State.sendChars
  extract_lets o
  exact (sends_modLane _ (by rfl)).trans (sendGroups_sends ..)

/-- Where the lane tunes its far transmitter it draws free values, else it does not. -/
theorem sendTraining_sends : s.Sends (s.sendTraining n) n [.lanes, .out, .frees] := by
  unfold State.sendTraining
  split
  · exact .refl s n
  cases n with
  | net p l =>
    extract_lets step v t x f
    have ht : s.Sends t (.net p l) [.lanes, .out, .frees] := by
      show s.Sends (if step = 3 ∨ step = 5 then _ else s) _ _
      split
      · exact (sends_free 7).trans (sends_modLane _ (by rfl))
      · exact .refl s _
    exact ht.trans ((sends_modLane _ (by rfl)).trans (sends_emit _))
  | host h l => exact (sendChars_sends ..).mono

theorem sendTraining_sends_plain (h : laneHost n = true ∨ ((s.lane n).step ≠ 3 ∧ (s.lane n).step ≠ 5)) :
    s.Sends (s.sendTraining n) n [.lanes, .out] := by
  unfold State.sendTraining
  split
  · exact .refl s n
  cases n with
  | net p l =>
    have hs : ¬ ((s.lane (.net p l)).step = 3 ∨ (s.lane (.net p l)).step = 5) := by
      rcases h with h | ⟨h3, h5⟩
      · cases h
      · exact fun e => e.elim h3 h5
    extract_lets step v t x f
    have ht : t = s := if_neg hs
    rw [← ht]
    exact (sends_modLane _ (by rfl)).trans (sends_emit _)
  | host h l => exact sendChars_sends ..

theorem sendNext_sends : s.Sends (s.sendNext n) n [.lanes, .out, .frees] := by
  unfold State.sendNext
  split
  · exact .refl s n
  · split
    · exact sendFill_sends s n
    · exact sendTraining_sends s n

end

/-! ### Training (R57 to R62) -/

section
variable (s : State) (n : LaneId)

theorem unlock_onLane {F : List Field} (h : .regs ∈ F := by decide) : s.OnLane (s.unlock n) n F :=
  onLane_wf _ _ _ (at_laneStatus n) h

theorem setLane_onLane (st : Nat) {F : List Field} (h : .regs ∈ F := by decide) : s.OnLane (s.setLane n st) n F := by
  unfold State.setLane
  extract_lets u
  have hu : s.OnLane u n F := onLane_wf _ _ _ (at_laneStatus n) h
  exact .ite hu (hu.trans (onLane_wb _ _ (at_laneMargin n) h))

/-- Of the status only the state changes. -/
theorem reg_setLane_status (st : Nat) : (s.setLane n st).reg (.laneStatus n) = setFld (s.reg (.laneStatus n)) 3 0 st := by
  unfold State.setLane
  extract_lets u
  have hu : u.reg (.laneStatus n) = setFld (s.reg (.laneStatus n)) 3 0 st := reg_setReg_same ..
  split
  · exact hu
  · exact (reg_wb_other _ _ _ _ _ (lane_reg_ne 8 0x50 rfl rfl)).trans hu

/-- A state of one of the codes of LANE_STATUS (R80). -/
theorem laneState_setLane {st : Nat} (h : st < 16) : (s.setLane n st).laneState n = st := by
  rw [State.laneState, State.rf, reg_setLane_status, fld_setFld_same _ _ _ _ (by decide)]
  exact Nat.mod_eq_of_lt h

theorem rf_setLane_status (st hi lo : Nat) (h : hi < 64) (ho : 3 < lo) :
    (s.setLane n st).rf (.laneStatus n) hi lo = s.rf (.laneStatus n) hi lo := by
  rw [State.rf, reg_setLane_status, fld_setFld_other _ _ _ _ _ _ h (.inl ho)]
  rfl

theorem rb_setLane_status (st i : Nat) (h : i < 64) (ho : 3 < i) :
    (s.setLane n st).rb (.laneStatus n) i = s.rb (.laneStatus n) i := by
  rw [State.rb, reg_setLane_status, bit_setFld_other _ _ _ _ _ h (.inl ho)]
  rfl

theorem reg_setLane_other (st : Nat) {q : Reg} (h : q.addr ≠ (Reg.laneStatus n).addr) (hm : q.addr ≠ (Reg.laneMargin n).addr) :
    (s.setLane n st).reg q = s.reg q := by
  unfold State.setLane
  extract_lets u
  have hu : u.reg q = s.reg q := reg_setReg_other _ _ _ _ h
  split
  · exact hu
  · exact (reg_wb_other _ _ _ _ _ hm).trans hu

@[simp] theorem lane_setLane (st : Nat) (m : LaneId) : (s.setLane n st).lane m = s.lane m := by
  unfold State.setLane
  split <;> rfl

theorem reg_setLane_ctrl (st : Nat) : (s.setLane n st).reg (.laneCtrl n) = s.reg (.laneCtrl n) :=
  reg_setLane_other _ _ _ (lane_reg_ne 0 8 rfl rfl) (lane_reg_ne 0 0x50 rfl rfl)

theorem reg_setLane_txeq (st : Nat) : (s.setLane n st).reg (.laneTxeq n) = s.reg (.laneTxeq n) :=
  reg_setLane_other _ _ _ (lane_reg_ne 0x10 8 rfl rfl) (lane_reg_ne 0x10 0x50 rfl rfl)

/-- What changes only LANE_TXEQ of a lane. -/
abbrev TxeqAt (n : LaneId) (a : Nat) : Prop := a = (Reg.laneTxeq n).addr

theorem status_not_txeq : ¬ TxeqAt n (Reg.laneStatus n).addr := lane_reg_ne 8 0x10 rfl rfl
theorem ctrl_not_txeq : ¬ TxeqAt n (Reg.laneCtrl n).addr := lane_reg_ne 0 0x10 rfl rfl

theorem setTaps_alters (pre post : Nat) : s.Alters (s.setTaps n pre post) [.regs] (TxeqAt n) := .setReg _ _ rfl

theorem forcedTaps_alters : s.Alters (s.forcedTaps n) [.regs] (TxeqAt n) := by
  unfold State.forcedTaps
  exact .ite (setTaps_alters ..) (.refl s)

theorem onLane_of_txeq {t : State} {F : List Field} (h : s.Alters t [.regs] (TxeqAt n)) (hF : .regs ∈ F := by decide) :
    s.OnLane t n F :=
  ⟨h.mono (List.cons_subset.mpr ⟨hF, List.nil_subset _⟩) (fun _ e => e ▸ at_laneTxeq n), fun m _ => lane_of_lanes h.lanes m⟩

/-- The taps of a setting (R57). -/
theorem rf_setTaps_pre (pre post : Nat) : (s.setTaps n pre post).rf (.laneTxeq n) 19 14 = pre % 64 := by
  rw [State.rf, State.setTaps, reg_setReg_same, fld_setFld_other _ _ _ _ _ _ (by decide) (by decide),
    fld_setFld_other _ _ _ _ _ _ (by decide) (by decide), fld_setFld_same _ _ _ _ (by decide)]
  norm_num

theorem rf_setTaps_post (pre post : Nat) : (s.setTaps n pre post).rf (.laneTxeq n) 13 8 = post % 64 := by
  rw [State.rf, State.setTaps, reg_setReg_same, fld_setFld_other _ _ _ _ _ _ (by decide) (by decide),
    fld_setFld_same _ _ _ _ (by decide)]
  norm_num

theorem rf_setTaps_main (pre post : Nat) : (s.setTaps n pre post).rf (.laneTxeq n) 7 0 = (64 - pre - post) % 256 := by
  rw [State.rf, State.setTaps, reg_setReg_same, fld_setFld_same _ _ _ _ (by decide)]
  norm_num

/-- The record of a lane that begins an attempt (R61). -/
def Lane.begun (x : Lane) (clk : Nat) (forced : Bool) : Lane := { x with
  step := 2, since := clk, seenPam4 := 0, seenReady := 0, pam4 := false, precode := false, farPrecode := false,
  farPam4 := false, preStat := 0, postStat := 0, preset := 0, ready := false, farReady := false, txIdle := forced,
  rxIdle := false, farPreset := 0, req := 0, swept := false, askPre := false, rd := false, rxRd := false }

/-- The taps of the initial setting, read as one field. -/
theorem rf_setTaps_initial : (s.setTaps n 0 0).rf (.laneTxeq n) 19 0 = 64 := by
  have h1 := rf_setTaps_pre s n 0 0
  have h2 := rf_setTaps_post s n 0 0
  have h3 := rf_setTaps_main s n 0 0
  simp only [State.rf, fld] at h1 h2 h3 ⊢
  omega

theorem rb_setTaps_force (pre post : Nat) : (s.setTaps n pre post).rb (.laneTxeq n) 32 = s.rb (.laneTxeq n) 32 := by
  rw [State.rb, State.setTaps, reg_setReg_same, bit_setFld_other _ _ _ _ _ (by decide) (by decide),
    bit_setFld_other _ _ _ _ _ (by decide) (by decide), bit_setFld_other _ _ _ _ _ (by decide) (by decide)]
  rfl

theorem forcedTaps_of_free (h : s.rb (.laneTxeq n) 32 = false) : s.forcedTaps n = s := if_neg (by rw [h]; decide)

theorem beginAttempt_eq : ∃ u, s.OnLane u n [.regs] ∧ u.laneState n = 1 ∧ u.reg (.laneCtrl n) = s.reg (.laneCtrl n) ∧
    u.rf (.laneStatus n) 14 8 = 0 ∧ u.rf (.laneStatus n) 7 4 = satAdd 15 (s.rf (.laneStatus n) 7 4) 1 ∧
    u.reg (.laneTxeq n) = s.reg (.laneTxeq n) ∧
    s.beginAttempt n = (((u.modLane n (fun x => x.begun u.clk (u.laneForced n))).setTaps n 0 0).forcedTaps n).sendTraining n := by
  have hold : ((s.unlock n).setLane n 1).rf (.laneStatus n) 7 4 = s.rf (.laneStatus n) 7 4 := by
    rw [rf_setLane_status _ _ _ _ _ (by decide) (by decide)]
    exact rf_wf_field _ _ _ _ _ _ _ (by decide) (by decide)
  refine ⟨((s.unlock n).setLane n 1).wf (.laneStatus n) 7 4
    (satAdd 15 (((s.unlock n).setLane n 1).rf (.laneStatus n) 7 4) 1), ?_, ?_, ?_, ?_, ?_, ?_, rfl⟩
  · exact ((unlock_onLane s n).trans (setLane_onLane _ _ _)).trans (onLane_wf _ _ _ (at_laneStatus n))
  · rw [State.laneState, rf_wf_field _ _ _ _ _ _ _ (by decide) (by decide)]
    exact laneState_setLane _ _ (by decide)
  · rw [reg_wf_other _ _ _ _ _ _ (lane_reg_ne 0 8 rfl rfl), reg_setLane_ctrl]
    exact reg_wf_other _ _ _ _ _ _ (lane_reg_ne 0 8 rfl rfl)
  · rw [rf_wf_field _ _ _ _ _ _ _ (by decide) (by decide), rf_setLane_status _ _ _ _ _ (by decide) (by decide)]
    exact rf_wf_same _ _ _ _ _ (by decide)
  · rw [rf_wf_same _ _ _ _ _ (by decide), hold]
    exact Nat.mod_eq_of_lt (by unfold satAdd; split <;> omega)
  · rw [reg_wf_other _ _ _ _ _ _ (lane_reg_ne 0x10 8 rfl rfl), reg_setLane_txeq]
    exact reg_wf_other _ _ _ _ _ _ (lane_reg_ne 0x10 8 rfl rfl)

/-- What an attempt that begins leaves. -/
structure State.Begun (s t : State) (n : LaneId) : Prop where
  onLane : s.OnLane t n [.regs, .lanes, .out]
  state : t.laneState n = 1
  ctrl : t.reg (.laneCtrl n) = s.reg (.laneCtrl n)
  locks : t.rf (.laneStatus n) 14 8 = 0
  attempts : t.rf (.laneStatus n) 7 4 = satAdd 15 (s.rf (.laneStatus n) 7 4) 1
  taps : s.rb (.laneTxeq n) 32 = false → t.rf (.laneTxeq n) 19 0 = 64
  sent : ((s.lane n).begun s.clk (s.laneForced n)).Sent (t.lane n)

theorem beginAttempt_begun : s.Begun (s.beginAttempt n) n := by
  obtain ⟨u, hu, hst, hc, hlk, hat, htx, ht⟩ := beginAttempt_eq s n
  obtain ⟨v, hv⟩ : ∃ v, v = u.modLane n (fun x => x.begun u.clk (u.laneForced n)) := ⟨_, rfl⟩
  obtain ⟨w, hw⟩ : ∃ w, w = (v.setTaps n 0 0).forcedTaps n := ⟨_, rfl⟩
  rw [← hv, ← hw] at ht
  have hvw : v.Alters w [.regs] (TxeqAt n) := hw ▸ (setTaps_alters _ _ _ _).trans (forcedTaps_alters _ _)
  have hforced : u.laneForced n = s.laneForced n := by rw [State.laneForced, State.laneForced, State.rb, State.rb, hc]
  have hlv : v.lane n = (s.lane n).begun s.clk (s.laneForced n) := by
    rw [hv, lane_modLane_same, hforced, hu.same.clk, lane_of_lanes hu.same.lanes]
  have hlw : w.lane n = (s.lane n).begun s.clk (s.laneForced n) := (lane_of_lanes hvw.lanes n).trans hlv
  have hs : w.Sends (s.beginAttempt n) n [.lanes, .out] := ht ▸ sendTraining_sends_plain w n (.inr (by
    rw [hlw]
    exact ⟨by simp [Lane.begun], by simp [Lane.begun]⟩))
  have huv : ∀ q, v.reg q = u.reg q := fun q => by rw [hv, reg_modLane]
  refine ⟨((hu.mono.trans (hv ▸ onLane_modLane _)).trans (onLane_of_txeq _ _ hvw)).trans hs.onLane.mono, ?_, ?_, ?_, ?_,
    fun hfree => ?_, ?_⟩
  · rw [hs.laneState, State.laneState, hvw.rf (status_not_txeq n), State.rf, huv]
    exact hst
  · rw [hs.reg, hvw.reg _ (ctrl_not_txeq n), huv, hc]
  · rw [hs.rf, hvw.rf (status_not_txeq n), State.rf, huv]
    exact hlk
  · rw [hs.rf, hvw.rf (status_not_txeq n), State.rf, huv]
    exact hat
  · rw [hs.rf, hw, forcedTaps_of_free _ _ (by
      rw [rb_setTaps_force, State.rb, huv, htx]
      exact hfree)]
    exact rf_setTaps_initial v n
  · rw [← hlw]
    exact hs.lane

/-- A lane that is enabled trains from step 1, without failed attempts. -/
theorem trainLane_eq (h : s.laneOn n = true) :
    s.trainLane n = (s.modLane n (fun x => { x with fails := 0 })).beginAttempt n := if_pos h

theorem trainLane_begun (h : s.laneOn n = true) : (s.modLane n (fun x => { x with fails := 0 })).Begun (s.trainLane n) n :=
  trainLane_eq s n h ▸ beginAttempt_begun _ n

theorem trainLane_onLane : s.OnLane (s.trainLane n) n [.regs, .lanes, .out] := by
  by_cases h : s.laneOn n = true
  · exact (onLane_modLane _).trans (trainLane_begun s n h).onLane
  · rw [State.trainLane, if_neg h]
    exact (unlock_onLane s n).trans (setLane_onLane _ _ _)

end

end Sys2Proof.Machine
end

section
/-! PROOFS. LaneTrainingBeginsAndTakesFrames (R59 to R61, R71, R72, R81). -/

namespace Sys2Proof.Machine

-- The proofs are elaborated one after another: in parallel their threads' stacks need more memory than a compile may have.
set_option Elab.async false

/-! ### LANE_RETRAIN -/

section
variable (s : State)

theorem portLaneLost_of_unused (p : Port) (l : Nat) (h : (s.port p).use.contains l = false) : s.portLaneLost p l = s :=
  if_pos (by rw [h]; rfl)

theorem hostLaneLost_of_unused (h : HLink) (l : Nat) (hu : (s.hl h).use.contains l = false) : s.hostLaneLost h l = s :=
  if_pos (by rw [hu]; rfl)

theorem hl_of_hll {s t : State} (h : t.hll = s.hll) (k : HLink) : t.hl k = s.hl k := by rw [State.hl, State.hl, h]

/-- A lane that begins to train by its retrain bit (R81). -/
theorem retrained_spec (n : LaneId) (h : s.laneOn n = true) : ∃ t, t = (s.trainLane n).wb (.laneCtrl n) 4 true ∧
    s.OnLane t n [.regs, .lanes, .out] ∧ t.laneState n = 1 ∧ t.rb (.laneCtrl n) 4 = true ∧ (t.lane n).step = 2 := by
  obtain ⟨v, hv⟩ : ∃ v, v = s.trainLane n := ⟨_, rfl⟩
  have hb := trainLane_begun s n h
  rw [← hv] at hb ⊢
  refine ⟨_, rfl, ((hv ▸ trainLane_onLane s n).trans (onLane_wb _ _ (at_laneCtrl n))), ?_, rb_wb_same _ _ _ _ (by decide), ?_⟩
  · rw [State.laneState, rf_wb_other _ _ _ _ _ _ _ (lane_reg_ne 8 0 rfl rfl)]
    exact hb.state
  · rw [lane_wb, hb.sent]
    rfl

theorem netLaneRetrain_unused (p : Port) (l : Fin 4) (hon : s.laneOn (.net p l) = true) (hs : s.inService (.port p) = true)
    (h1 : s.laneState (.net p l) ≠ 1) (hu : (s.port p).use.contains l.val = false) :
    s.netLaneRetrain p l = (s.trainLane (.net p l)).wb (.laneCtrl (.net p l)) 4 true := by
  unfold State.netLaneRetrain
  simp only [hon, h1, hs, Bool.not_true, decide_false, Bool.or_self, Bool.false_eq_true, if_false]
  exact portLaneLost_of_unused _ _ _ (by
    rw [port_of_ports (((trainLane_onLane s (.net p l)).trans (onLane_wb 4 true (at_laneCtrl _))).same.ports)]
    exact hu)

theorem hostLaneRetrain_unused (h : HLink) (l : Fin 16) (hon : s.laneOn (.host h l) = true) (hs : s.inService (.host h) = true)
    (h1 : s.laneState (.host h l) ≠ 1) (hu : (s.hl h).use.contains l.val = false) :
    s.hostLaneRetrain h l = (s.trainLane (.host h l)).wb (.laneCtrl (.host h l)) 4 true := by
  unfold State.hostLaneRetrain
  simp only [hon, h1, hs, Bool.not_true, decide_false, Bool.or_self, Bool.false_eq_true, if_false]
  exact hostLaneLost_of_unused _ _ _ (by
    rw [hl_of_hll (((trainLane_onLane s (.host h l)).trans (onLane_wb 4 true (at_laneCtrl _))).same.hll)]
    exact hu)

theorem doLaneRetrain_training (n : LaneId) (h : s.laneState n = 1) : doLaneRetrain n s = s := by
  cases n with
  | net p l => exact if_pos (by rw [h, Bool.or_eq_true]; exact .inr rfl)
  | host k l => exact if_pos (by rw [h, Bool.or_eq_true]; exact .inr rfl)

/-! ### Training frames (R60) -/

/-- A polarity, precoding or lock bit set beside a lane's state. -/
theorem precoded_spec (c : Prop) [Decidable c] (n : LaneId) {t : State}
    (ht : t = if c then s.wb (.laneStatus n) 13 true else s) : s.OnLane t n [.regs, .lanes] ∧
    t.laneState n = s.laneState n ∧ t.lanes = s.lanes ∧ t.reg (.laneTxeq n) = s.reg (.laneTxeq n) := by
  rw [ht]
  split
  · exact ⟨onLane_wb _ _ (at_laneStatus n), rf_wb_field _ _ _ _ _ _ (by decide) (by decide), rfl,
      reg_wb_other _ _ _ _ _ (lane_reg_ne 0x10 8 rfl rfl)⟩
  · exact ⟨.refl s n, rfl, rfl, rfl⟩

@[simp] theorem lane_setTaps (n m : LaneId) (pre post : Nat) : (s.setTaps n pre post).lane m = s.lane m := rfl

/-- What a change of the taps leaves: the preset of R57 where there is one. -/
theorem setTaps_spec (n : LaneId) (pre post : Nat) : s.OnLane (s.setTaps n pre post) n [.regs, .lanes] ∧
    (s.setTaps n pre post).laneState n = s.laneState n :=
  ⟨onLane_setReg _ (at_laneTxeq n), (setTaps_alters s n pre post).rf (status_not_txeq n) 3 0⟩

/-- What a control field leaves of a lane (R60). -/
structure State.Controlled (s t : State) (n : LaneId) (c : BitVec 16) : Prop where
  onLane : s.OnLane t n [.regs, .lanes]
  state : t.laneState n = s.laneState n
  step : (t.lane n).step = (s.lane n).step
  seenPam4 : (t.lane n).seenPam4 = if bit c 15 then (s.lane n).seenPam4 + 1 else 0
  seenReady : (t.lane n).seenReady = (s.lane n).seenReady
  preset : s.rb (.laneTxeq n) 32 = false → fld c 13 11 = 2 →
    t.rf (.laneTxeq n) 19 14 = 4 ∧ t.rf (.laneTxeq n) 13 8 = 8 ∧ t.rf (.laneTxeq n) 7 0 = 52
  forced : s.rb (.laneTxeq n) 32 = true → t.reg (.laneTxeq n) = s.reg (.laneTxeq n)

theorem applyControl_spec (n : LaneId) (c : BitVec 16) : s.Controlled (s.applyControl n c) n c := by
  obtain ⟨t, ht⟩ : ∃ t, t = s.applyControl n c := ⟨_, rfl⟩
  rw [← ht]
  unfold State.applyControl at ht
  extract_lets x seen u v k pre post a b at ht
  have hu : s.OnLane u n [.regs, .lanes] := onLane_modLane _
  obtain ⟨hv, hvs, hvl, hvt⟩ := precoded_spec u _ n (t := v) rfl
  have hlu : u.lane n = _ := lane_modLane_same s n _
  have hlv : v.lane n = _ := (lane_of_lanes hvl n).trans hlu
  have htx : v.reg (.laneTxeq n) = s.reg (.laneTxeq n) := hvt
  have hvst : v.laneState n = s.laneState n := hvs
  have hf : v.rb (.laneTxeq n) 32 = s.rb (.laneTxeq n) 32 := congrArg (bit · 32) htx
  rw [hf] at ht
  split at ht
  next hforce =>
    rw [ht]
    refine ⟨hu.trans hv, hvst, ?_, ?_, ?_, fun h => ?_, fun _ => htx⟩
    · rw [hlv]
    · rw [hlv]
    · rw [hlv]
    · rw [h] at hforce
      cases hforce
  next hforce =>
    split at ht
    next hk =>
      rw [ht]
      obtain ⟨ht1, ht2⟩ := setTaps_spec v n (netPreset k).1 (netPreset k).2
      refine ⟨(hu.trans hv).trans ht1, ht2.trans hvst, ?_, ?_, ?_, fun _ h2 => ?_, fun h => absurd h hforce⟩
      · rw [lane_setTaps, hlv]
      · rw [lane_setTaps, hlv]
      · rw [lane_setTaps, hlv]
      · rw [rf_setTaps_pre, rf_setTaps_post, rf_setTaps_main, show k = 2 from h2]
        decide
    next hk =>
      obtain ⟨ht1, ht2⟩ := setTaps_spec v n a.1 b.1
      rw [ht]
      refine ⟨((hu.trans hv).trans ht1).trans (onLane_modLane _), ht2.trans hvst, ?_, ?_, ?_, fun _ h2 => ?_,
        fun h => absurd h hforce⟩
      · rw [lane_modLane_same, lane_setTaps, hlv]
      · rw [lane_modLane_same, lane_setTaps, hlv]
      · rw [lane_modLane_same, lane_setTaps, hlv]
      · exact absurd ⟨by omega, by omega⟩ (show ¬ (1 ≤ fld c 13 11 ∧ fld c 13 11 ≤ 4) from hk)

/-- What a status field leaves of a lane (R60). -/
structure State.Statused (s t : State) (n : LaneId) (f : BitVec 16) : Prop where
  onLane : s.OnLane t n [.regs, .lanes]
  state : t.laneState n = s.laneState n
  step : (t.lane n).step = (s.lane n).step
  seenPam4 : (t.lane n).seenPam4 = (s.lane n).seenPam4
  seenReady : (t.lane n).seenReady = if bit f 15 then (s.lane n).seenReady + 1 else 0
  far : t.rf (.laneStatus n) 19 16 = fld f 8 7
  taps : t.reg (.laneTxeq n) = s.reg (.laneTxeq n)

theorem applyStatus_spec (n : LaneId) (f : BitVec 16) : s.Statused (s.applyStatus n f) n f := by
  obtain ⟨t, ht⟩ : ∃ t, t = s.applyStatus n f := ⟨_, rfl⟩
  rw [← ht]
  unfold State.applyStatus at ht
  extract_lets u v at ht
  have hu : s.OnLane u n [.regs, .lanes] := onLane_modLane _
  obtain ⟨hv, hvs, hvl, hvt⟩ := precoded_spec u _ n (t := v) rfl
  have hlv : t.lane n = _ := (congrArg (State.lane · n) ht).trans ((lane_of_lanes hvl n).trans (lane_modLane_same s n _))
  refine ⟨?_, ?_, ?_, ?_, ?_, ?_, ?_⟩
  · rw [ht]
    exact (hu.trans hv).trans (onLane_wf _ _ _ (at_laneStatus n))
  · rw [ht, State.laneState, rf_wf_field _ _ _ _ _ _ _ (by decide) (by decide)]
    exact hvs
  · rw [hlv]
  · rw [hlv]
  · rw [hlv]
  · rw [ht, rf_wf_same _ _ _ _ _ (by decide)]
    exact Nat.mod_eq_of_lt ((fld_lt f 8 7).trans (by decide))
  · rw [ht, reg_wf_other _ _ _ _ _ _ (lane_reg_ne 0x10 8 rfl rfl)]
    exact hvt

theorem trainingIn_good (n : LaneId) (c f : BitVec 16) (k : BitVec 2) (h3 : 3 ≤ (s.lane n).step) (hc : fieldOk c = true)
    (hf : fieldOk f = true) : ∃ t, s.trainingIn n c f k = t ∧ s.OnLane t n [.regs, .lanes, .out, .frees] ∧
    (t.lane n).seenPam4 = (if bit c 15 then (s.lane n).seenPam4 + 1 else 0) ∧
    (t.lane n).seenReady = (if bit f 15 then (s.lane n).seenReady + 1 else 0) ∧
    t.rf (.laneStatus n) 19 16 = fld f 8 7 ∧ t.laneState n = s.laneState n ∧
    (s.rb (.laneTxeq n) 32 = false → fld c 13 11 = 2 →
      t.rf (.laneTxeq n) 19 14 = 4 ∧ t.rf (.laneTxeq n) 13 8 = 8 ∧ t.rf (.laneTxeq n) 7 0 = 52) ∧
    (s.rb (.laneTxeq n) 32 = true → t.reg (.laneTxeq n) = s.reg (.laneTxeq n)) := by
  obtain ⟨t, ht⟩ : ∃ t, t = s.trainingIn n c f k := ⟨_, rfl⟩
  obtain ⟨u, hu⟩ : ∃ u, u = s.modLane n (fun x => { x with rxLast := k.toNat }) := ⟨_, rfl⟩
  have hlu : u.lane n = { s.lane n with rxLast := k.toNat } := hu ▸ lane_modLane_same ..
  have hsu : s.OnLane u n [.regs, .lanes, .out, .frees] := hu ▸ onLane_modLane _
  have hru : ∀ q, u.reg q = s.reg q := fun q => hu ▸ rfl
  have hv := applyControl_spec u n c
  obtain ⟨v, hve⟩ : ∃ v, v = u.applyControl n c := ⟨_, rfl⟩
  have hw := applyStatus_spec v n f
  obtain ⟨w, hwe⟩ : ∃ w, w = v.applyStatus n f := ⟨_, rfl⟩
  rw [← hve] at hv
  rw [← hwe] at hw
  have hte : t = w.sendNext n := by
    rw [ht, State.trainingIn, ← hu, if_neg (by rw [hlu]; exact Nat.not_lt.mpr h3), if_pos hc, ← hve, hwe]
    exact congrArg (State.sendNext · n) (if_pos hf)
  have hs : w.Sends t n [.lanes, .out, .frees] := hte ▸ sendNext_sends w n
  have hlt := hs.lane
  refine ⟨t, ht.symm, ((hsu.trans hv.onLane.mono).trans hw.onLane.mono).trans hs.onLane.mono, ?_, ?_, ?_, ?_, ?_, ?_⟩
  · rw [hlt]
    show (w.lane n).seenPam4 = _
    rw [hw.seenPam4, hv.seenPam4, hlu]
  · rw [hlt]
    show (w.lane n).seenReady = _
    rw [hw.seenReady, hv.seenReady, hlu]
  · rw [hs.rf, hw.far]
  · rw [hs.laneState, hw.state, hv.state, State.laneState, State.rf, hru]
    rfl
  · intro hn h2
    rw [State.rf, State.rf, State.rf, hs.reg, hw.taps]
    exact hv.preset ((congrArg (bit · 32) (hru _)).trans hn) h2
  · intro hn
    rw [hs.reg, hw.taps, hv.forced ((congrArg (bit · 32) (hru _)).trans hn), hru]

theorem trainingIn_bad (n : LaneId) (c f : BitVec 16) (k : BitVec 2) (h3 : 3 ≤ (s.lane n).step) (hc : fieldOk c = false)
    (hf : fieldOk f = false) : ∃ t, s.trainingIn n c f k = t ∧ s.Alters t [.lanes, .out, .frees] NoReg ∧
    (t.lane n).seenPam4 = 0 ∧ (t.lane n).seenReady = 0 ∧ (t.lane n).step = (s.lane n).step := by
  obtain ⟨t, ht⟩ : ∃ t, t = s.trainingIn n c f k := ⟨_, rfl⟩
  obtain ⟨u, hu⟩ : ∃ u, u = s.modLane n (fun x => { x with rxLast := k.toNat }) := ⟨_, rfl⟩
  have hlu : u.lane n = { s.lane n with rxLast := k.toNat } := hu ▸ lane_modLane_same ..
  obtain ⟨w, hwe⟩ : ∃ w, w = (u.modLane n (fun x => { x with seenPam4 := 0 })).modLane n (fun x => { x with seenReady := 0 }) :=
    ⟨_, rfl⟩
  have hlw : w.lane n = { s.lane n with rxLast := k.toNat, seenPam4 := 0, seenReady := 0 } := by
    rw [hwe, lane_modLane_same, lane_modLane_same, hlu]
  have hsw : s.Alters w [.lanes, .out, .frees] NoReg := by
    rw [hwe, hu]
    exact ((alters_modLane _ _).trans (alters_modLane _ _)).trans (alters_modLane _ _)
  have hte : t = w.sendNext n := by
    rw [ht, State.trainingIn, ← hu, if_neg (by rw [hlu]; exact Nat.not_lt.mpr h3),
      if_neg (show ¬ fieldOk c = true by rw [hc]; decide), hwe]
    exact congrArg (State.sendNext · n) (if_neg (show ¬ fieldOk f = true by rw [hf]; decide))
  have hs : w.Sends t n [.lanes, .out, .frees] := hte ▸ sendNext_sends w n
  have hlt := hs.lane
  rw [hlw] at hlt
  refine ⟨t, ht.symm, hsw.trans hs.same, ?_, ?_, ?_⟩
  · rw [hlt]
  · rw [hlt]
  · rw [hlt]

theorem sweep_kept (x : Lane) (a : Nat) : (x.sweep a).preset = x.preset ∧ (x.sweep a).farReady = x.farReady ∧
    (x.sweep a).farPreset = a ∧ (x.sweep a).step = x.step := by
  unfold Lane.sweep
  extract_lets y
  split
  · exact ⟨rfl, rfl, rfl, rfl⟩
  · split <;> exact ⟨rfl, rfl, rfl, rfl⟩

theorem hostPreset_lt (k : Nat) : hostPreset k < 64 := by
  unfold hostPreset
  split <;> decide

theorem trainingSetIn_spec (n : LaneId) (b r st : BitVec 8) (hh : laneHost n = true) (h3 : 3 ≤ (s.lane n).step) :
    ∃ t, s.trainingSetIn n b r st = t ∧ s.OnLane t n [.regs, .lanes, .out] ∧
    (t.lane n).preset = (if s.rb (.laneTxeq n) 32 then (s.lane n).preset else fld r 1 0) ∧ t.laneState n = s.laneState n ∧
    (t.lane n).farReady = bit st 7 ∧ (t.lane n).farPreset = fld st 1 0 ∧ t.rf (.laneStatus n) 19 16 = fld b 3 0 ∧
    (s.rb (.laneTxeq n) 32 = false → t.rf (.laneTxeq n) 13 8 = hostPreset (fld r 1 0) ∧ t.rf (.laneTxeq n) 19 14 = 0) := by
  obtain ⟨t, ht⟩ : ∃ t, t = s.trainingSetIn n b r st := ⟨_, rfl⟩
  refine ⟨t, ht.symm, ?_⟩
  unfold State.trainingSetIn at ht
  extract_lets cs u force k v w at ht
  have hsu : s.OnLane u n [.regs, .lanes, .out] := onLane_modLane _
  have hlu : u.lane n = { s.lane n with rxRd := (encodeLane (s.lane n).rxRd cs).2 } := lane_modLane_same ..
  rw [if_neg (by rw [hlu]; exact Nat.not_lt.mpr h3)] at ht
  have hforce : force = s.rb (.laneTxeq n) 32 := rfl
  have hv : u.OnLane v n [.regs, .lanes, .out] ∧ v.laneState n = u.laneState n ∧ v.lane n = u.lane n ∧
      (force = false → v.rf (.laneTxeq n) 13 8 = hostPreset k ∧ v.rf (.laneTxeq n) 19 14 = 0) := by
    have hve : v = if force = true then u else u.setTaps n 0 (hostPreset k) := rfl
    rw [hve]
    split
    next h => exact ⟨.refl u n, rfl, rfl, fun e => by rw [e] at h; cases h⟩
    next h =>
      refine ⟨(setTaps_spec u n _ _).1.mono, (setTaps_spec u n _ _).2, rfl, fun _ => ⟨?_, rf_setTaps_pre ..⟩⟩
      rw [rf_setTaps_post]
      exact Nat.mod_eq_of_lt (hostPreset_lt k)
  obtain ⟨hv1, hv2, hv3, hv4⟩ := hv
  have hw : v.OnLane w n [.regs, .lanes, .out] := onLane_modLane _
  have hlw : w.lane n = ({ v.lane n with preset := if force then (v.lane n).preset else k, farReady := bit st 7 } : Lane).sweep (fld st 1 0) :=
    lane_modLane_same ..
  obtain ⟨k1, k2, k3, k4⟩ := sweep_kept { v.lane n with preset := if force then (v.lane n).preset else k, farReady := bit st 7 } (fld st 1 0)
  rw [← hlw] at k1 k2 k3 k4
  obtain ⟨z, hz⟩ : ∃ z, z = w.wf (.laneStatus n) 19 16 (fld b 3 0) := ⟨_, rfl⟩
  have hlz : z.lane n = w.lane n := hz ▸ rfl
  rw [← hz] at ht
  have hs : z.Sends t n [.lanes, .out] := ht ▸ sendTraining_sends_plain z n (.inl hh)
  have hlt := hs.lane
  refine ⟨(((hsu.trans hv1).trans hw).trans (hz ▸ onLane_wf _ _ _ (at_laneStatus n))).trans hs.onLane.mono,
    ?_, ?_, ?_, ?_, ?_, fun hn => ?_⟩
  · rw [hlt]
    show (z.lane n).preset = _
    rw [hlz, k1, hv3, hlu, hforce]
  · rw [hs.laneState, hz, State.laneState, rf_wf_field _ _ _ _ _ _ _ (by decide) (by decide)]
    exact hv2
  · rw [hlt]
    show (z.lane n).farReady = _
    rw [hlz, k2]
  · rw [hlt]
    show (z.lane n).farPreset = _
    rw [hlz, k3]
  · rw [hs.rf, hz, rf_wf_same _ _ _ _ _ (by decide)]
    exact Nat.mod_eq_of_lt (fld_lt b 3 0)
  · rw [hs.rf, hs.rf, hz, rf_wf_other _ _ _ _ _ _ _ _ (lane_reg_ne 0x10 8 rfl rfl),
      rf_wf_other _ _ _ _ _ _ _ _ (lane_reg_ne 0x10 8 rfl rfl)]
    exact hv4 (hforce.trans hn)

end

/-- What LANE_TRAIN_START leaves of an enabled lane that is OFF. -/
theorem laneTrainStart_spec (s : State) (n : LaneId) (hon : s.laneOn n = true) (hlk : s.linkOn (laneLink n) = true)
    (h0 : s.laneState n = 0) (hs : s.llState (laneLink n) ≠ 0) : ∃ t, s.laneTrainStart n = t ∧
    s.OnLane t n [.regs, .lanes, .out] ∧ t.laneState n = 1 ∧
    t.rf (.laneStatus n) 7 4 = satAdd 15 (s.rf (.laneStatus n) 7 4) 1 ∧ (t.lane n).step = 2 ∧ (t.lane n).since = s.clk ∧
    (s.rb (.laneTxeq n) 32 = false → t.rf (.laneTxeq n) 19 0 = 64) := by
  have hb := trainLane_begun s n hon
  refine ⟨s.trainLane n, if_pos ?_, trainLane_onLane s n, hb.state, hb.attempts, ?_, ?_, hb.taps⟩
  · simp [hon, State.inService, hlk, h0, hs]
  · rw [hb.sent]
    rfl
  · rw [hb.sent]
    rfl

/-- Settles O11. A lane that is not in use stays alone in training, so no link retrains with it. -/
theorem laneTrainingBeginsAndTakesFrames : Obligations.LaneTrainingBeginsAndTakesFrames := by
  unfold Obligations.LaneTrainingBeginsAndTakesFrames
  refine ⟨?_, ?_, ?_, ?_, ?_, ?_, ?_, ?_⟩
  · intro s p l hc hl hon hlk h0 hs
    obtain ⟨t, ht, ha, h1, h2, h3, h4, h5⟩ := laneTrainStart_spec s (.net p l) hon hlk h0 hs
    exact ⟨t, act_of_alters hl hc ht ha.same, h1, h2, h3, h4, h5, fun m hm => ⟨ha.other m hm, ha.status_other hm⟩,
      ha.same.eq_lanes⟩
  · intro s h l hc hl hon hlk h0 hs
    obtain ⟨t, ht, ha, h1, h2, h3, h4, h5⟩ := laneTrainStart_spec s (.host h l) hon hlk h0 hs
    exact ⟨t, act_of_alters hl hc ht ha.same, h1, h2, h3, h4, h5, fun m hm => ⟨ha.other m hm, ha.status_other hm⟩,
      ha.same.eq_lanes⟩
  · intro s p l hc hl hon hs h1 hu
    obtain ⟨t, ht, ha, h2, h3, h4⟩ := retrained_spec s (.net p l) hon
    exact ⟨t, act_of_alters hl hc ((netLaneRetrain_unused s p l hon hs h1 hu).trans ht.symm) ha.same, h2, h3, h4,
      fun m hm => ⟨ha.other m hm, ha.status_other hm⟩, ha.same.eq_lanes⟩
  · intro s h l hc hl hon hs h1 hu
    obtain ⟨t, ht, ha, h2, h3, h4⟩ := retrained_spec s (.host h l) hon
    exact ⟨t, act_of_alters hl hc ((hostLaneRetrain_unused s h l hon hs h1 hu).trans ht.symm) ha.same, h2, h3, h4,
      fun m hm => ⟨ha.other m hm, ha.status_other hm⟩, ha.same.eq_lanes⟩
  · intro s n hc hl h
    exact act_of_alters hl hc (doLaneRetrain_training s n h) (.refl (F := []) (P := NoReg) s)
  · intro s p l c f k hc hl h1 h3 hco hfo
    obtain ⟨t, ht, ha, h4, h5, h6, h7, h8, h9⟩ := trainingIn_good s (.net p l) c f k h3 hco hfo
    exact ⟨t, act_of_alters hl hc ((if_pos h1).trans ht) ha.same, h4, h5, h6, h7.trans h1, h8, h9, ha.same.eq_sent⟩
  · intro s p l c f k hc hl h1 h3 hco hfo
    obtain ⟨t, ht, ha, h4, h5, h6⟩ := trainingIn_bad s (.net p l) c f k h3 hco hfo
    exact ⟨t, act_of_alters hl hc ((if_pos h1).trans ht) ha, h4, h5, (ha.rf id 3 0).trans h1, h6, ha.eq_laneFree⟩
  · intro s h l b r st hc hl h1 h3
    obtain ⟨t, ht, ha, h4, h5, h6, h7, h8, h9⟩ := trainingSetIn_spec s (.host h l) b r st rfl h3
    exact ⟨t, act_of_alters hl hc ((if_pos h1).trans ht) ha.same, h4, h5.trans h1, h6, h7, h8, h9, ha.same.eq_lanes⟩

end Sys2Proof.Machine
end

section
/-! PROOFS. LaneTrainingEnds (R61, R62, R72, R110). -/

namespace Sys2Proof.Machine

-- The proofs are elaborated one after another: in parallel their threads' stacks need more memory than a compile may have.
set_option Elab.async false

section
variable (s : State) (n : LaneId)

theorem lane_of_txeq {t : State} (h : s.Alters t [.regs] (TxeqAt n)) (m : LaneId) : t.lane m = s.lane m := lane_of_lanes h.lanes m

/-- What ACTIVE leaves of a lane (R61). -/
structure State.Activated (s t : State) (n : LaneId) : Prop where
  onLane : s.OnLane t n [.regs, .lanes]
  state : t.laneState n = 2
  locks : t.rf (.laneStatus n) 12 11 = 3
  attempts : t.rf (.laneStatus n) 7 4 = 0
  retrain : t.rb (.laneCtrl n) 4 = false
  lane : t.lane n = { s.lane n with step := 0, fails := 0 }

theorem laneActive_activated : s.Activated (s.laneActive n) n := by
  obtain ⟨t, ht⟩ : ∃ t, t = s.laneActive n := ⟨_, rfl⟩
  rw [← ht]
  unfold State.laneActive at ht
  extract_lets u v w at ht
  have hu : (s.wf (.laneStatus n) 12 11 3).Alters u [.regs] (TxeqAt n) := forcedTaps_alters _ _
  have hul : u.rf (.laneStatus n) 12 11 = 3 := by
    rw [hu.rf (status_not_txeq n), rf_wf_same _ _ _ _ _ (by decide)]
    norm_num
  have hlu : u.lane n = s.lane n := lane_of_lanes hu.lanes n
  have hsu : s.OnLane u n [.regs, .lanes] := (onLane_wf _ _ _ (at_laneStatus n)).trans (onLane_of_txeq _ _ hu)
  have hst : ∀ hi lo, w.rf (.laneStatus n) hi lo = v.rf (.laneStatus n) hi lo := fun hi lo =>
    rf_wb_other _ _ _ _ _ _ _ (lane_reg_ne 8 0 rfl rfl)
  rw [ht]
  refine ⟨?_, ?_, ?_, ?_, ?_, ?_⟩
  · exact (((hsu.trans (setLane_onLane _ _ _)).trans (onLane_wf _ _ _ (at_laneStatus n))).trans
      (onLane_wb _ _ (at_laneCtrl n))).trans (onLane_modLane _)
  · rw [laneState_modLane, State.laneState, hst, rf_wf_field _ _ _ _ _ _ _ (by decide) (by decide)]
    exact laneState_setLane _ _ (by decide)
  · rw [rf_modLane, hst, rf_wf_field _ _ _ _ _ _ _ (by decide) (by decide), rf_setLane_status _ _ _ _ _ (by decide) (by decide), hul]
  · rw [rf_modLane, hst, rf_wf_same _ _ _ _ _ (by decide)]
    rfl
  · rw [rb_modLane, rb_wb_same _ _ _ _ (by decide)]
  · rw [lane_modLane_same]
    show ({ (w.lane n) with step := 0, fails := 0 } : Lane) = _
    rw [lane_wb, lane_wf, lane_setLane, hlu]

theorem adapt_spec : ∃ t, t = s.adapt n ∧ s.OnLane t n [.regs, .lanes, .frees] ∧
    t.reg (.laneStatus n) = s.reg (.laneStatus n) ∧ (t.lane n).step = (s.lane n).step := by
  obtain ⟨t, ht⟩ : ∃ t, t = s.adapt n := ⟨_, rfl⟩
  refine ⟨t, ht, ?_⟩
  unfold State.adapt at ht
  split at ht
  · rw [ht]
    exact ⟨.refl s n, rfl, rfl⟩
  · extract_lets w v at ht
    obtain ⟨u, hu⟩ : ∃ u, u = v.2.modLane n (fun x => { x with ctle := calCtle w (fld v.1 3 0), dfe := calDfe w ((v.1 >>> 4).setWidth 128) }) :=
      ⟨_, rfl⟩
    have hv : s.OnLane v.2 n [.regs, .lanes, .frees] := (sends_free 132).onLane
    have hsu : s.OnLane u n [.regs, .lanes, .frees] := hu ▸ hv.trans (onLane_modLane _)
    rw [← hu, State.showEq] at ht
    rw [ht]
    refine ⟨(hsu.trans (onLane_wf _ _ _ (at_laneRxeq n))).trans (onLane_wf _ _ _ (at_laneRxeq n)), ?_, ?_⟩
    · rw [reg_wf_other _ _ _ _ _ _ (lane_reg_ne 8 0x18 rfl rfl), reg_wf_other _ _ _ _ _ _ (lane_reg_ne 8 0x18 rfl rfl), hu]
      rfl
    · rw [lane_wf, lane_wf, hu, lane_modLane_same]
      rfl

/-- A lane of `u` goes on to step `k` and sends. -/
structure State.Advanced (u t : State) (n : LaneId) (k : Nat) (F : List Field) : Prop where
  onLane : u.OnLane t n F
  reg : ∀ q, t.reg q = u.reg q
  lane : ({ u.lane n with step := k } : Lane).Sent (t.lane n)

theorem advanced_sendNext (k : Nat) :
    s.Advanced ((s.modLane n (fun x => { x with step := k })).sendNext n) n k [.lanes, .out, .frees] := by
  have h := sendNext_sends (s.modLane n (fun x => { x with step := k })) n
  exact ⟨(onLane_modLane _).trans h.onLane, fun q => (h.reg q).trans (reg_modLane ..),
    (lane_modLane_same s n (fun x => { x with step := k })) ▸ h.lane⟩

theorem advanced_sendTraining (k : Nat) (hh : laneHost n = true) :
    s.Advanced ((s.modLane n (fun x => { x with step := k })).sendTraining n) n k [.lanes, .out] := by
  have h := sendTraining_sends_plain (s.modLane n (fun x => { x with step := k })) n (.inl hh)
  exact ⟨(onLane_modLane _).trans h.onLane, fun q => (h.reg q).trans (reg_modLane ..),
    (lane_modLane_same s n (fun x => { x with step := k })) ▸ h.lane⟩

variable {s n} in
theorem State.Advanced.step {t : State} {k : Nat} {F : List Field} (h : s.Advanced t n k F) : (t.lane n).step = k := by
  rw [h.lane]

variable {s n} in
theorem State.Advanced.ready {t : State} {k : Nat} {F : List Field} (h : s.Advanced t n k F) :
    (t.lane n).ready = (s.lane n).ready := by rw [h.lane]

variable {s n} in
theorem State.Advanced.laneState {t : State} {k : Nat} {F : List Field} (h : s.Advanced t n k F) (m : LaneId) :
    t.laneState m = s.laneState m := congrArg (fld · 3 0) (h.reg _)

variable {s n} in
theorem State.Advanced.rf {t : State} {k : Nat} {F : List Field} (h : s.Advanced t n k F) (q : Reg) (hi lo : Nat) :
    t.rf q hi lo = s.rf q hi lo := congrArg (fld · hi lo) (h.reg q)

variable {s n} in
theorem State.Advanced.rb {t : State} {k : Nat} {F : List Field} (h : s.Advanced t n k F) (q : Reg) (i : Nat) :
    t.rb q i = s.rb q i := congrArg (bit · i) (h.reg q)

/-- A lane's receiver has found its polarity and what it locks to; the locks are in LANE_STATUS bits [hi:9]. -/
theorem polarity_spec (hi v : Nat) (b : Bool) (hh : hi < 14) :
    ∃ u, u = (s.wf (.laneStatus n) hi 9 v).wb (.laneStatus n) 14 b ∧ s.OnLane u n [.regs] ∧
    u.laneState n = s.laneState n ∧ u.rf (.laneStatus n) hi 9 = v % 2 ^ (hi + 1 - 9) ∧ u.rb (.laneStatus n) 14 = b := by
  refine ⟨_, rfl, (onLane_wf _ _ _ (at_laneStatus n)).trans (onLane_wb _ _ (at_laneStatus n)), ?_, ?_,
    rb_wb_same _ _ _ _ (by decide)⟩
  · rw [State.laneState, rf_wb_field _ _ _ _ _ _ (by decide) (by decide), rf_wf_field _ _ _ _ _ _ _ (by decide) (by omega)]
    rfl
  · rw [rf_wb_field _ _ _ _ _ _ (by omega) (by omega), rf_wf_same _ _ _ _ _ (by omega)]

/-- The receiver is ready, which LANE_STATUS shows. -/
theorem readied_spec (f : Lane → Lane) (hf : (f (s.lane n)).ready = true) :
    ∃ u, u = (s.modLane n f).wb (.laneStatus n) 8 true ∧ s.OnLane u n [.regs, .lanes] ∧
    u.laneState n = s.laneState n ∧ (u.lane n).ready = true ∧ u.rb (.laneStatus n) 8 = true := by
  refine ⟨_, rfl, (onLane_modLane _).trans (onLane_wb _ _ (at_laneStatus n)), ?_, ?_, rb_wb_same _ _ _ _ (by decide)⟩
  · rw [State.laneState, rf_wb_field _ _ _ _ _ _ (by decide) (by decide)]
    rfl
  · rw [lane_wb, lane_modLane_same]
    exact hf

end

/-! ### LANE_TRAIN_STEP (R61) -/

section
variable (s : State) (p : Port) (l : Fin 4) (b : Bool)

variable {s p l}

theorem doLaneTrainStep_two (h1 : s.laneState (.net p l) = 1) (hk : (s.lane (.net p l)).step = 2) : doLaneTrainStep p l b s =
    (((s.wf (.laneStatus (.net p l)) 10 9 3).wb (.laneStatus (.net p l)) 14 b).modLane (.net p l)
      (fun x => { x with step := 3 })).sendNext (.net p l) := by
  simp only [doLaneTrainStep, h1, hk, ne_eq, not_true_eq_false, if_false]

theorem doLaneTrainStep_three (h1 : s.laneState (.net p l) = 1) (hk : (s.lane (.net p l)).step = 3) : doLaneTrainStep p l b s =
    (((s.free 1).2.modLane (.net p l) (fun x => { x with askPre := (s.free 1).1 = 1 })).modLane (.net p l)
      (fun x => { x with step := 4 })).sendNext (.net p l) := by
  simp only [doLaneTrainStep, h1, hk, ne_eq, not_true_eq_false, if_false]

theorem doLaneTrainStep_four (h1 : s.laneState (.net p l) = 1) (hk : (s.lane (.net p l)).step = 4) : doLaneTrainStep p l b s =
    if (s.lane (.net p l)).pam4 then (s.modLane (.net p l) (fun x => { x with step := 5 })).sendNext (.net p l) else s := by
  simp only [doLaneTrainStep, h1, hk, ne_eq, not_true_eq_false, if_false]

theorem doLaneTrainStep_five (h1 : s.laneState (.net p l) = 1) (hk : (s.lane (.net p l)).step = 5) : doLaneTrainStep p l b s =
    ((((s.adapt (.net p l)).modLane (.net p l) (fun x => { x with ready := true })).wb (.laneStatus (.net p l)) 8 true).modLane
      (.net p l) (fun x => { x with step := 6 })).sendNext (.net p l) := by
  simp only [doLaneTrainStep, h1, hk, ne_eq, not_true_eq_false, if_false]

theorem doLaneTrainStep_six (h1 : s.laneState (.net p l) = 1) (hk : (s.lane (.net p l)).step = 6) : doLaneTrainStep p l b s =
    if 8 ≤ (s.lane (.net p l)).seenReady && s.rb (.laneStatus (.net p l)) 11 then s.laneActive (.net p l) else s := by
  simp only [doLaneTrainStep, h1, hk, ne_eq, not_true_eq_false, if_false]

end

/-! ### HOST_LANE_TRAIN_STEP (R72) -/

section
variable {s : State} {h : HLink} {l : Fin 16} (b : Bool)

theorem doHostLaneTrainStep_two (h1 : s.laneState (.host h l) = 1) (hk : (s.lane (.host h l)).step = 2) :
    doHostLaneTrainStep h l b s = (((s.wf (.laneStatus (.host h l)) 11 9 7).wb (.laneStatus (.host h l)) 14 b).modLane (.host h l)
      (fun x => { x with step := 3 })).sendTraining (.host h l) := by
  simp only [doHostLaneTrainStep, h1, hk, ne_eq, not_true_eq_false, if_false]

theorem doHostLaneTrainStep_unswept (h1 : s.laneState (.host h l) = 1) (hk : (s.lane (.host h l)).step = 3)
    (hw : (s.lane (.host h l)).swept = false) : doHostLaneTrainStep h l b s = s := by
  simp only [doHostLaneTrainStep, h1, hk, ne_eq, not_true_eq_false, if_false, hw, Bool.not_false, if_true]

theorem doHostLaneTrainStep_swept (h1 : s.laneState (.host h l) = 1) (hk : (s.lane (.host h l)).step = 3)
    (hw : (s.lane (.host h l)).swept = true) : doHostLaneTrainStep h l b s =
    (((((s.adapt (.host h l)).free 2).2.modLane (.host h l) (fun x => { x with
      req := ((s.adapt (.host h l)).free 2).1.toNat, ready := true })).wb (.laneStatus (.host h l)) 8 true).modLane (.host h l)
      (fun x => { x with step := 4 })).sendTraining (.host h l) := by
  simp only [doHostLaneTrainStep, h1, hk, ne_eq, not_true_eq_false, if_false, hw, Bool.not_true, Bool.false_eq_true]

theorem doHostLaneTrainStep_four (h1 : s.laneState (.host h l) = 1) (hk : (s.lane (.host h l)).step = 4)
    (hr : ∀ m : Fin 16, s.laneState (.host h m) = 1 → (s.lane (.host h m)).ready = true ∧ (s.lane (.host h m)).farReady = true) :
    doHostLaneTrainStep h l b s =
    (if (s.lane (.host h l)).txIdle then s else s.sendChars (.host h l) [k28_5, k28_5]).laneActive (.host h l) := by
  have hall : (linkLanes (.host h)).all (fun m => s.laneState m ≠ 1 || ((s.lane m).ready && (s.lane m).farReady)) = true := by
    rw [List.all_eq_true]
    intro m hm
    obtain ⟨k, -, rfl⟩ := List.mem_map.mp hm
    by_cases h : s.laneState (.host ‹_› k) = 1
    · simp [hr k h]
    · simp [h]
  simp only [doHostLaneTrainStep, h1, hk, ne_eq, not_true_eq_false, if_false]
  rw [if_pos (by simpa using hall)]

end

/-! ### TRAIN_ATTEMPT_TIMEOUT (R62, R72, R110) -/

section
variable (s : State) (n : LaneId)

/-- How long an attempt may last. -/
abbrev attemptLimit (n : LaneId) : Nat := if laneHost n then us 40000 else us 300000

theorem doTrainAttemptTimeout_again (h1 : s.laneState n = 1) (hl : (s.lane n).since + attemptLimit n < s.clk)
    (hf : (s.lane n).fails < 2 ∨ (laneHost n = true ∧ s.llState (laneLink n) = 7)) :
    ∃ t, doTrainAttemptTimeout n s = t ∧ s.OnLane t n [.regs, .lanes, .out] ∧ t.laneState n = 1 ∧ (t.lane n).step = 2 ∧
    (t.lane n).fails = (s.lane n).fails + 1 ∧ (t.lane n).since = s.clk := by
  have hb := beginAttempt_begun (s.modLane n (fun x => { x with fails := x.fails + 1 })) n
  have hlane := hb.sent
  rw [lane_modLane_same] at hlane
  refine ⟨_, ?_, (onLane_modLane _).trans hb.onLane, hb.state, ?_, ?_, ?_⟩
  · unfold doTrainAttemptTimeout
    extract_lets x limit
    rw [if_neg (by rintro (h | h); exacts [h h1, absurd hl (Nat.not_lt.mpr h)]), if_neg]
    rintro ⟨h2, h7⟩
    rcases hf with hf | ⟨hh, hs⟩
    · exact absurd hf (Nat.not_lt.mpr h2)
    · rw [hh, hs] at h7
      cases h7
  · rw [hlane]
    rfl
  · rw [hlane]
    rfl
  · rw [hlane]
    rfl

theorem doTrainAttemptTimeout_failed (h1 : s.laneState n = 1) (hl : (s.lane n).since + attemptLimit n < s.clk)
    (h2 : 2 ≤ (s.lane n).fails) (h7 : laneHost n = false ∨ s.llState (laneLink n) ≠ 7) :
    ∃ t, doTrainAttemptTimeout n s = t ∧ s.Alters t errorFields (ErrorsAt n) ∧ t.laneState n = 6 ∧ (t.lane n).step = 0 ∧
    t.rb (.laneCtrl n) 4 = false := by
  obtain ⟨u, hu⟩ : ∃ u, u = (((s.forcedTaps n).setLane n 6).wb (.laneCtrl n) 4 false).modLane n
    (fun x => { x with step := 0, fails := 3 }) := ⟨_, rfl⟩
  have hsu : s.OnLane u n [.regs, .lanes] := by
    rw [hu]
    exact (((onLane_of_txeq _ _ (forcedTaps_alters s n)).trans (setLane_onLane _ _ _)).trans (onLane_wb _ _ (at_laneCtrl n))).trans
      (onLane_modLane _)
  have ha := fault_alters u (laneBlock n) .degrade 0x11 (laneNum n)
  refine ⟨u.fault (laneBlock n) .degrade 0x11 (laneNum n), ?_, ?_, ?_, ?_, ?_⟩
  · rw [hu]
    unfold doTrainAttemptTimeout
    extract_lets x limit
    rw [if_neg (by rintro (h | h); exacts [h h1, absurd hl (Nat.not_lt.mpr h)]), if_pos]
    refine ⟨h2, ?_⟩
    rcases h7 with hh | hs
    · rw [hh]
      rfl
    · simp [hs]
  · exact (hsu.same.mono (by decide) fun _ => .inl).trans (ha.mono (by decide) fun _ => .inr)
  · rw [State.laneState, rf_fault _ _ _ _ _ (not_faultAt_of_lane (at_laneStatus n) _), hu, rf_modLane,
      rf_wb_other _ _ _ _ _ _ _ (lane_reg_ne 8 0 rfl rfl)]
    exact laneState_setLane _ _ (by decide)
  · rw [lane_of_lanes ha.lanes, hu, lane_modLane_same]
  · rw [rb_fault _ _ _ _ _ (not_faultAt_of_lane (at_laneCtrl n) _), hu, rb_modLane, rb_wb_same _ _ _ _ (by decide)]

end

/-! ### The steps' own effects -/

section
variable {s : State} {p : Port} {l : Fin 4} (b : Bool)

theorem step_two_spec (h1 : s.laneState (.net p l) = 1) (hk : (s.lane (.net p l)).step = 2) : ∃ t, doLaneTrainStep p l b s = t ∧
    s.OnLane t (.net p l) [.regs, .lanes, .out, .frees] ∧ (t.lane (.net p l)).step = 3 ∧ t.laneState (.net p l) = 1 ∧
    t.rf (.laneStatus (.net p l)) 10 9 = 3 ∧ t.rb (.laneStatus (.net p l)) 14 = b := by
  obtain ⟨u, hu, hs, hst, hlk, hp⟩ := polarity_spec s (.net p l) 10 3 b (by decide)
  have ha := advanced_sendNext u (.net p l) 3
  refine ⟨_, doLaneTrainStep_two b h1 hk, ?_, ?_, ?_, ?_, ?_⟩ <;> rw [← hu]
  · exact hs.mono.trans ha.onLane.mono
  · exact ha.step
  · exact (ha.laneState _).trans (hst.trans h1)
  · exact (ha.rf _ _ _).trans hlk
  · exact (ha.rb _ _).trans hp

theorem step_three_spec (h1 : s.laneState (.net p l) = 1) (hk : (s.lane (.net p l)).step = 3) :
    ∃ t, doLaneTrainStep p l b s = t ∧ s.Alters t [.lanes, .out, .frees] NoReg ∧ (t.lane (.net p l)).step = 4 := by
  obtain ⟨u, hu⟩ : ∃ u, u = (s.free 1).2.modLane (.net p l) (fun x => { x with askPre := (s.free 1).1 = 1 }) := ⟨_, rfl⟩
  have hsu : s.Alters u [.lanes, .out, .frees] NoReg := hu ▸ (alters_free 1).trans (alters_modLane _ _)
  have ht := sendNext_sends (u.modLane (.net p l) (fun x => { x with step := 4 })) (.net p l)
  refine ⟨_, doLaneTrainStep_three b h1 hk, ?_, ?_⟩ <;> rw [← hu]
  · exact (hsu.trans (alters_modLane _ _)).trans ht.same
  · exact (advanced_sendNext u (.net p l) 4).step

theorem step_four_spec (h1 : s.laneState (.net p l) = 1) (hk : (s.lane (.net p l)).step = 4)
    (hp : (s.lane (.net p l)).pam4 = true) : ∃ t, doLaneTrainStep p l b s = t ∧ s.Alters t [.lanes, .out, .frees] NoReg ∧
    (t.lane (.net p l)).step = 5 :=
  ⟨_, (doLaneTrainStep_four b h1 hk).trans (if_pos hp),
    (alters_modLane _ _).trans (sendNext_sends (s.modLane (.net p l) (fun x => { x with step := 5 })) (.net p l)).same,
    (advanced_sendNext s (.net p l) 5).step⟩

theorem step_five_spec (h1 : s.laneState (.net p l) = 1) (hk : (s.lane (.net p l)).step = 5) : ∃ t, doLaneTrainStep p l b s = t ∧
    s.OnLane t (.net p l) [.regs, .lanes, .out, .frees] ∧ (t.lane (.net p l)).step = 6 ∧ (t.lane (.net p l)).ready = true ∧
    t.rb (.laneStatus (.net p l)) 8 = true ∧ t.laneState (.net p l) = 1 := by
  obtain ⟨u, hu, hs, hst, -⟩ := adapt_spec s (.net p l)
  obtain ⟨v, hv, huv, hvs, hvr, hvb⟩ := readied_spec u (.net p l) (fun x => { x with ready := true }) rfl
  have ha := advanced_sendNext v (.net p l) 6
  refine ⟨_, doLaneTrainStep_five b h1 hk, ?_, ?_, ?_, ?_, ?_⟩ <;> rw [← hu, ← hv]
  · exact (hs.mono.trans huv.mono).trans ha.onLane.mono
  · exact ha.step
  · exact ha.ready.trans hvr
  · exact (ha.rb _ _).trans hvb
  · exact (ha.laneState _).trans (hvs.trans ((congrArg (fld · 3 0) hst).trans h1))

end

section
variable {s : State} {h : HLink} {l : Fin 16} (b : Bool)

theorem host_step_two_spec (h1 : s.laneState (.host h l) = 1) (hk : (s.lane (.host h l)).step = 2) :
    ∃ t, doHostLaneTrainStep h l b s = t ∧ s.OnLane t (.host h l) [.regs, .lanes, .out] ∧ (t.lane (.host h l)).step = 3 ∧
    t.laneState (.host h l) = 1 ∧ t.rf (.laneStatus (.host h l)) 11 9 = 7 ∧ t.rb (.laneStatus (.host h l)) 14 = b := by
  obtain ⟨u, hu, hs, hst, hlk, hp⟩ := polarity_spec s (.host h l) 11 7 b (by decide)
  have ha := advanced_sendTraining u (.host h l) 3 rfl
  refine ⟨_, doHostLaneTrainStep_two b h1 hk, ?_, ?_, ?_, ?_, ?_⟩ <;> rw [← hu]
  · exact hs.mono.trans ha.onLane.mono
  · exact ha.step
  · exact (ha.laneState _).trans (hst.trans h1)
  · exact (ha.rf _ _ _).trans hlk
  · exact (ha.rb _ _).trans hp

theorem host_step_three_spec (h1 : s.laneState (.host h l) = 1) (hk : (s.lane (.host h l)).step = 3)
    (hw : (s.lane (.host h l)).swept = true) : ∃ t, doHostLaneTrainStep h l b s = t ∧
    s.OnLane t (.host h l) [.regs, .lanes, .out, .frees] ∧ (t.lane (.host h l)).step = 4 ∧ (t.lane (.host h l)).ready = true ∧
    t.rb (.laneStatus (.host h l)) 8 = true ∧ t.laneState (.host h l) = 1 := by
  obtain ⟨u, hu, hs, hst, -⟩ := adapt_spec s (.host h l)
  obtain ⟨v, hv, huv, hvs, hvr, hvb⟩ := readied_spec (u.free 2).2 (.host h l)
    (fun x => { x with req := (u.free 2).1.toNat, ready := true }) rfl
  have ha := advanced_sendTraining v (.host h l) 4 rfl
  refine ⟨_, doHostLaneTrainStep_swept b h1 hk hw, ?_, ?_, ?_, ?_, ?_⟩ <;> rw [← hu, ← hv]
  · exact ((hs.mono.trans (sends_free 2).onLane).trans huv.mono).trans ha.onLane.mono
  · exact ha.step
  · exact ha.ready.trans hvr
  · exact (ha.rb _ _).trans hvb
  · exact (ha.laneState _).trans (hvs.trans ((congrArg (fld · 3 0) hst).trans h1))

theorem host_step_four_spec (h1 : s.laneState (.host h l) = 1) (hk : (s.lane (.host h l)).step = 4)
    (hr : ∀ m : Fin 16, s.laneState (.host h m) = 1 → (s.lane (.host h m)).ready = true ∧ (s.lane (.host h m)).farReady = true) :
    ∃ t, doHostLaneTrainStep h l b s = t ∧ s.OnLane t (.host h l) [.regs, .lanes, .out] ∧ t.laneState (.host h l) = 2 ∧
    t.rf (.laneStatus (.host h l)) 7 4 = 0 := by
  obtain ⟨u, hu⟩ : ∃ u, u = if (s.lane (.host h l)).txIdle then s else s.sendChars (.host h l) [k28_5, k28_5] := ⟨_, rfl⟩
  have hs : s.OnLane u (.host h l) [.regs, .lanes, .out] := by
    rw [hu]
    exact .ite (.refl s _) (sendChars_sends ..).onLane.mono
  have ha := laneActive_activated u (.host h l)
  refine ⟨_, doHostLaneTrainStep_four b h1 hk hr, ?_, ?_, ?_⟩ <;> rw [← hu]
  · exact hs.trans ha.onLane.mono
  · exact ha.state
  · exact ha.attempts

end

/-- Settles O12, step by step. -/
theorem laneTrainingEnds : Obligations.LaneTrainingEnds := by
  unfold Obligations.LaneTrainingEnds
  refine ⟨?_, ?_, ?_, ?_, ?_, ?_, ?_, ?_, ?_, ?_, ?_, ?_, ?_⟩
  · intro s p l b hc hl h1 hk hr hlk
    have ha := laneActive_activated s (.net p l)
    exact ⟨_, act_of_alters hl hc ((doLaneTrainStep_six b h1 hk).trans (if_pos (by simp [hr, hlk]))) ha.onLane.same, ha.state,
      ha.locks, ha.attempts, ha.retrain, by rw [ha.lane], ha.onLane.same.eq_laneReg⟩
  · intro s p l b hc hl h1 hk
    obtain ⟨t, ht, ha, h2, h3, h4, h5⟩ := step_two_spec b h1 hk
    exact ⟨t, act_of_alters hl hc ht ha.same, h2, h3, h4, h5, ha.same.eq_sent⟩
  · intro s p l b hc hl h1 hk hp
    exact act_of_alters hl hc ((doLaneTrainStep_four b h1 hk).trans (if_neg (by rw [hp]; decide))) (.refl (F := []) (P := NoReg) s)
  · intro s h l b hc hl h1 hk hr
    obtain ⟨t, ht, ha, h2, h3⟩ := host_step_four_spec b h1 hk hr
    exact ⟨t, act_of_alters hl hc ht ha.same, h2, h3, ha.same.eq_lanes⟩
  · intro s n dt hc hl h1 hlim hf
    obtain ⟨t, ht, ha, h2, h3, h4, h5⟩ := doTrainAttemptTimeout_again (s.elapse dt) n h1 hlim (.inl hf)
    exact ⟨t, act_of_alters hl hc ht ha.same, h2, h3, h4, h5, ha.same.eq_lanes⟩
  · intro s n dt hc hl h1 hlim hf h7
    obtain ⟨t, ht, ha, h2, h3, h4⟩ := doTrainAttemptTimeout_failed (s.elapse dt) n h1 hlim hf h7
    exact ⟨t, act_of_alters hl hc ht ha, h2, h3, h4, ha.hbm, ha.buf⟩
  · intro s h l dt hc hl h1 hlim h7
    obtain ⟨t, ht, ha, h2, h3, -⟩ := doTrainAttemptTimeout_again (s.elapse dt) (.host h l) h1 hlim (.inr ⟨rfl, h7⟩)
    exact ⟨t, act_of_alters hl hc ht ha.same, h2, h3, ha.same.eq_lanes⟩
  · intro s p l b hc hl h1 hk hp
    obtain ⟨t, ht, ha, h2⟩ := step_four_spec b h1 hk hp
    exact ⟨t, act_of_alters hl hc ht ha, h2, (ha.rf id 3 0).trans h1, ha.eq_laneFree⟩
  · intro s h l b hc hl h1 hk hw
    obtain ⟨t, ht, ha, h2, h3, h4, h5⟩ := host_step_three_spec b h1 hk hw
    exact ⟨t, act_of_alters hl hc ht ha.same, h2, h3, h4, h5, ha.same.eq_sent⟩
  · intro s h l b hc hl h1 hk hw
    exact act_of_alters hl hc (doHostLaneTrainStep_unswept b h1 hk hw) (.refl (F := []) (P := NoReg) s)
  · intro s h l b hc hl h1 hk
    obtain ⟨t, ht, ha, h2, h3, h4, h5⟩ := host_step_two_spec b h1 hk
    exact ⟨t, act_of_alters hl hc ht ha.same, h2, h3, h4, h5, ha.same.eq_lanes⟩
  · intro s p l b hc hl h1 hk
    obtain ⟨t, ht, ha, h2⟩ := step_three_spec b h1 hk
    exact ⟨t, act_of_alters hl hc ht ha, h2, (ha.rf id 3 0).trans h1, ha.eq_laneFree⟩
  · intro s p l b hc hl h1 hk
    obtain ⟨t, ht, ha, h2, h3, h4, h5⟩ := step_five_spec b h1 hk
    exact ⟨t, act_of_alters hl hc ht ha.same, h2, h3, h4, h5, ha.same.eq_sent⟩

end Sys2Proof.Machine
end

section
/-! PROOFS. ElectricalIdleOfLanes (R63, R64, R73): entry, exit and return of one lane, and of every lane of a host link in
turn. -/

namespace Sys2Proof.Machine

-- The proofs are elaborated one after another: in parallel their threads' stacks need more memory than a compile may have.
set_option Elab.async false

/-! ### One lane enters, leaves and hears -/

section
variable (s : State) (n : LaneId)

theorem laneHold_onLane : s.OnLane (s.laneHold n) n [.regs, .lanes] := (setLane_onLane s n 3).trans (onLane_modLane _)

theorem laneState_laneHold : (s.laneHold n).laneState n = 3 := laneState_setLane _ _ (by decide)

theorem laneHold_idle : ((s.laneHold n).lane n).txIdle = true := by rw [State.laneHold, lane_modLane_same]

theorem rf_laneHold (hi lo : Nat) (h : hi < 64) (hl : 3 < lo) :
    (s.laneHold n).rf (.laneStatus n) hi lo = s.rf (.laneStatus n) hi lo := rf_setLane_status s n 3 hi lo h hl

/-- A lane's idle entry: the codeword or character that announces it, then idle (R63, R73). -/
theorem laneIdle_eq : ∃ u, s.Sends u n [.lanes, .out] ∧ s.laneIdle n = u.laneHold n := by
  cases n with
  | net p l =>
    cases hf : (s.port p).use.findIdx? (· = l.val) with
    | none => exact ⟨s, .refl s _, by simp only [State.laneIdle, hf]⟩
    | some i =>
      refine ⟨_, ?_, by simp only [State.laneIdle, hf]; rfl⟩
      exact sendCodeword_sends ..
  | host h l => exact ⟨_, sendChars_sends .., rfl⟩

/-- What a lane that goes idle leaves. -/
structure State.Idled (s t : State) (n : LaneId) : Prop where
  onLane : s.OnLane t n [.regs, .lanes, .out]
  state : t.laneState n = 3
  idle : (t.lane n).txIdle = true
  rest : t.rf (.laneStatus n) 63 4 = s.rf (.laneStatus n) 63 4

theorem laneIdle_idled : s.Idled (s.laneIdle n) n := by
  obtain ⟨u, hu, ht⟩ := laneIdle_eq s n
  rw [ht]
  exact ⟨hu.onLane.mono.trans (laneHold_onLane u n).mono, laneState_laneHold u n, laneHold_idle u n,
    (rf_laneHold u n 63 4 (by decide) (by decide)).trans (hu.rf _ _ _)⟩

theorem Lane.sent_gen (x : Lane) (g t i : Nat) : x.Sent { x with gen := g, txLast := t, invert := i } := rfl

/-- A burst leaves the lane as it was, but that its transmitter is idle no more. -/
structure State.Bursts (s t : State) (n : LaneId) : Prop where
  onLane : s.OnLane t n [.lanes, .out]
  reg : ∀ q, t.reg q = s.reg q
  lane : ({ s.lane n with txIdle := false } : Lane).Sent (t.lane n)

theorem sendBurst_bursts : s.Bursts (s.sendBurst n) n := by
  obtain ⟨u, hu⟩ : ∃ u, u = s.modLane n (fun x => { x with txIdle := false }) := ⟨_, rfl⟩
  have hlu : u.lane n = { s.lane n with txIdle := false } := hu ▸ lane_modLane_same ..
  have hsu : s.OnLane u n [.lanes, .out] := hu ▸ onLane_modLane _
  have hs : u.Sends (s.sendBurst n) n [.lanes, .out] := by
    cases n with
    | net p l =>
      rw [hu]
      unfold State.sendBurst
      extract_lets v x b sent line
      exact (sends_modLane (s := v) (fun x => { x with gen := b.2.1, txLast := b.2.2, invert := 0 }) (Lane.sent_gen ..)).trans
        (sends_emit _)
    | host h l =>
      rw [hu]
      exact sendChars_sends ..
  exact ⟨hsu.trans hs.onLane, fun q => (hs.reg q).trans (hu ▸ rfl), hlu ▸ hs.lane⟩

theorem sendPattern_onLane : s.OnLane (s.sendPattern n) n [.regs, .lanes, .out] := by
  unfold State.sendPattern
  split
  · extract_lets u
    have hu : s.OnLane u n [.regs, .lanes, .out] := onLane_modLane _
    exact .ite hu (hu.trans (sends_emit _).onLane)
  · exact .refl s n

theorem laneReturn_onLane : s.OnLane (s.laneReturn n) n [.regs, .lanes, .out] := by
  unfold State.laneReturn
  extract_lets u
  have hu : s.OnLane u n [.regs, .lanes, .out] := onLane_wf _ _ _ (at_laneStatus n)
  exact .ite (hu.trans (setLane_onLane _ _ _)) ((hu.trans (setLane_onLane _ _ _)).trans (sendPattern_onLane _ _))

/-- A link's service is not told by the registers of lanes. -/
theorem inService_of_onLane {s t : State} {n : LaneId} {F : List Field} (h : s.OnLane t n F) (l : LinkId) :
    t.inService l = s.inService l := by
  rw [State.inService, State.inService, State.linkOn, State.linkOn, h.same.rb (not_laneAt_llCtrl n l), h.llState]

/-- A lane in service that returns is ACTIVE, with its locks. -/
theorem laneReturn_active (hs : s.inService (laneLink n) = true) : (s.laneReturn n).laneState n = 2 ∧
    (s.laneReturn n).rf (.laneStatus n) 12 10 = 7 ∧ ∀ m, (s.laneReturn n).lane m = s.lane m := by
  obtain ⟨t, ht⟩ : ∃ t, t = s.laneReturn n := ⟨_, rfl⟩
  rw [← ht]
  unfold State.laneReturn at ht
  extract_lets u at ht
  have hu : s.OnLane u n [.regs] := onLane_wf _ _ _ (at_laneStatus n)
  rw [if_pos ((inService_of_onLane hu _).trans hs)] at ht
  rw [ht]
  refine ⟨laneState_setLane _ _ (by decide), ?_, fun m => (lane_setLane u n 2 m).trans rfl⟩
  rw [rf_setLane_status _ _ _ _ _ (by decide) (by decide), rf_wf_same _ _ _ _ _ (by decide)]
  norm_num

theorem laneExit_onLane : s.OnLane (s.laneExit n) n [.regs, .lanes, .out] := by
  have h := (sendBurst_bursts s n).onLane.mono (G := [.regs, .lanes, .out])
  unfold State.laneExit
  exact .ite h (h.trans (laneReturn_onLane _ _))

theorem laneExit_active (hs : s.inService (laneLink n) = true) (hr : (s.lane n).rxIdle = false) :
    (s.laneExit n).laneState n = 2 ∧ (s.laneExit n).rf (.laneStatus n) 12 10 = 7 ∧ ((s.laneExit n).lane n).txIdle = false := by
  have hb := sendBurst_bursts s n
  have he : s.laneExit n = (s.sendBurst n).laneReturn n := if_neg (by rw [hb.lane]; exact Bool.eq_false_iff.mp hr)
  obtain ⟨h1, h2, h3⟩ := laneReturn_active (s.sendBurst n) n ((inService_of_onLane hb.onLane _).trans hs)
  rw [he]
  exact ⟨h1, h2, by rw [h3, hb.lane]⟩

theorem laneExit_deaf (hr : (s.lane n).rxIdle = true) :
    (s.laneExit n).laneState n = s.laneState n ∧ ((s.laneExit n).lane n).txIdle = false := by
  have hb := sendBurst_bursts s n
  have he : s.laneExit n = s.sendBurst n := if_pos (by rw [hb.lane]; exact hr)
  rw [he]
  exact ⟨congrArg (fld · 3 0) (hb.reg _), by rw [hb.lane]⟩

theorem laneHears_onLane : s.OnLane (s.laneHears n) n [.regs, .lanes, .out] := by
  unfold State.laneHears
  extract_lets u
  have hu : s.OnLane u n [.regs, .lanes, .out] := (onLane_wf _ _ _ (at_laneStatus n)).trans (onLane_modLane _)
  exact .ite hu (hu.trans (laneReturn_onLane _ _))

/-- A lane whose receiver has locked again (R64). -/
theorem laneHears_spec (hs : s.inService (laneLink n) = true) (h3 : s.laneState n = 3) :
    (s.laneHears n).laneState n = (if (s.lane n).txIdle then 3 else 2) ∧ (s.laneHears n).rf (.laneStatus n) 12 10 = 7 ∧
    ((s.laneHears n).lane n).rxIdle = false := by
  obtain ⟨t, ht⟩ : ∃ t, t = s.laneHears n := ⟨_, rfl⟩
  rw [← ht]
  unfold State.laneHears at ht
  extract_lets u at ht
  have hu : s.OnLane u n [.regs, .lanes] := (onLane_wf _ _ _ (at_laneStatus n)).trans (onLane_modLane _)
  have hl : u.lane n = { s.lane n with rxIdle := false } := lane_modLane_same ..
  rw [show (u.lane n).txIdle = (s.lane n).txIdle by rw [hl]] at ht
  split at ht
  next hi =>
    rw [ht, if_pos hi]
    refine ⟨?_, ?_, by rw [hl]⟩
    · exact (rf_wf_field s _ _ _ _ _ _ (by decide) (by decide)).trans h3
    · rw [rf_modLane, rf_wf_same _ _ _ _ _ (by decide)]
      norm_num
  next hi =>
    obtain ⟨h1, h2, h4⟩ := laneReturn_active u n ((inService_of_onLane hu _).trans hs)
    rw [ht, if_neg hi]
    exact ⟨h1, h2, by rw [h4, hl]⟩

end

/-! ### Lanes one after the other -/

/-- An address in some lane's window. -/
def AnyLaneAt (a : Nat) : Prop := ∃ n, LaneAt n a

/-- Lane `n` reads in `t` as in `s`: its record and its registers. -/
structure State.SameLane (s t : State) (n : LaneId) : Prop where
  lane : t.lane n = s.lane n
  reg : ∀ q ∈ laneRegs n, t.reg q = s.reg q

section
variable {s t u : State} {n m : LaneId} {F : List Field}

theorem State.SameLane.trans (h : s.SameLane t n) (k : t.SameLane u n) : s.SameLane u n :=
  ⟨k.lane.trans h.lane, fun q hq => (k.reg q hq).trans (h.reg q hq)⟩

theorem State.OnLane.sameLane (h : s.OnLane t m F) (hn : n ≠ m) : s.SameLane t n :=
  ⟨h.other n hn, fun _ hq => h.reg_other hn hq⟩

theorem State.OnLane.any (h : s.OnLane t m F) : s.Alters t F AnyLaneAt := h.same.mono (fun _ h => h) fun _ h => ⟨m, h⟩

theorem State.SameLane.laneState (h : s.SameLane t n) : t.laneState n = s.laneState n :=
  congrArg (fld · 3 0) (h.reg _ (by simp [laneRegs]))

theorem State.SameLane.rb_ctrl (h : s.SameLane t n) (i : Nat) : t.rb (.laneCtrl n) i = s.rb (.laneCtrl n) i :=
  congrArg (bit · i) (h.reg _ (by simp [laneRegs]))

theorem foldl_lane_other {f : State → LaneId → State} (hf : ∀ t m, State.OnLane t (f t m) m F) (xs : List LaneId) (s : State)
    (hn : n ∉ xs) : s.SameLane (xs.foldl f s) n := by
  induction xs generalizing s with
  | nil => exact ⟨rfl, fun _ _ => rfl⟩
  | cons x xs ih =>
    obtain ⟨hx, hxs⟩ := not_or.mp (mt List.mem_cons.mpr hn)
    exact ((hf s x).sameLane hx).trans (ih _ hxs)

/-- Of effects on lanes one after the other, a lane sees its own alone. -/
theorem foldl_lane {f : State → LaneId → State} (hf : ∀ t m, State.OnLane t (f t m) m F) (xs : List LaneId) (s : State)
    (hn : n ∈ xs) (hd : xs.Nodup) :
    ∃ u, s.Alters u F AnyLaneAt ∧ s.SameLane u n ∧ (f u n).SameLane (xs.foldl f s) n := by
  induction xs generalizing s with
  | nil => cases hn
  | cons x xs ih =>
    obtain ⟨hx, hd'⟩ := List.nodup_cons.mp hd
    by_cases h : n = x
    · subst h
      exact ⟨s, .refl s, ⟨rfl, fun _ _ => rfl⟩, foldl_lane_other hf xs _ hx⟩
    · obtain ⟨u, h1, h2, h3⟩ := ih (f s x) ((List.mem_cons.mp hn).resolve_left h) hd'
      exact ⟨u, (hf s x).any.trans h1, ((hf s x).sameLane h).trans h2, h3⟩

theorem foldl_any {f : State → LaneId → State} (hf : ∀ t m, State.OnLane t (f t m) m F) (xs : List LaneId) (s : State) :
    s.Alters (xs.foldl f s) F AnyLaneAt := .foldl (fun t m => (hf t m).any) xs s

end

theorem linkLanes_nodup (l : LinkId) : (linkLanes l).Nodup := by
  cases l with
  | port p => exact (List.nodup_finRange 4).map fun a b h => by cases h; rfl
  | host h => exact (List.nodup_finRange 16).map fun a b h => by cases h; rfl

theorem mem_linkLanes_host (h : HLink) (l : Fin 16) : LaneId.host h l ∈ linkLanes (.host h) :=
  List.mem_map.mpr ⟨l, List.mem_finRange l, rfl⟩

theorem laneLink_of_mem {l : LinkId} {n : LaneId} (h : n ∈ linkLanes l) : laneLink n = l := by
  cases l <;> obtain ⟨k, -, rfl⟩ := List.mem_map.mp h <;> rfl

theorem not_anyLaneAt_link {r : Reg} (l : LinkId) (o : Nat) (h : r.addr = blockBase (linkBlock l) + linkBase l + o)
    (ho : o < 0x3000 := by decide) : ¬ AnyLaneAt r.addr := fun ⟨n, e⟩ => not_laneAt_link n l o h ho e

theorem inService_of_any {s t : State} {F : List Field} (h : s.Alters t F AnyLaneAt) (l : LinkId) :
    t.inService l = s.inService l := by
  rw [State.inService, State.inService, State.linkOn, State.linkOn, h.rb (not_anyLaneAt_link l 0 rfl), State.llState,
    State.llState, h.rf (not_anyLaneAt_link l 8 rfl)]

/-! ### Rows of a network lane -/

section
variable (s : State) (p : Port) (l : Fin 4)

theorem portExited_alters (h : (s.port p).retrain = none) : s.Alters (s.portExited p) [.ports] NoReg := by
  unfold State.portExited
  rw [if_neg (by rw [h]; decide)]
  exact .ite (.refl s) (.put_ports _ _)

theorem portExited_rxIdle (h : (s.port p).retrain = none) : ((s.portExited p).port p).rxIdle = (s.port p).rxIdle := by
  unfold State.portExited
  rw [if_neg (by rw [h]; decide)]
  split
  · rfl
  · rw [port_modPort_same]
    rfl

/-- What a lane that makes its exit passes through. -/
theorem doFastExit_eq (h3 : s.laneState (.net p l) = 3) (hf : s.rb (.laneCtrl (.net p l)) 5 = false)
    (ht : (s.lane (.net p l)).txIdle = true) (ha : (s.port p).txIdle = false ∨ s.portQuiet p = false) :
    doFastExit p l s = (s.laneExit (.net p l)).portExited p := by
  unfold doFastExit
  extract_lets n x asked
  refine if_pos ⟨?_, ht, hf, ?_⟩
  · rw [State.laneAway, show s.laneState n = 3 from h3]
    rfl
  · show ((s.port p).retrain.isSome || !(s.port p).txIdle || !s.portQuiet p) = true
    rcases ha with h | h <;> simp [h]

/-- What a lane that hears the far end's burst passes through. -/
theorem doFastExitBurstReceived_eq (k : BitVec 2) (h3 : s.laneState (.net p l) = 3) : doFastExitBurstReceived p ⟨l, k⟩ s =
    (((s.modPort p (fun x => if x.rxIdle then { x.restreamRx with rxIdle := false } else x)).modLane (.net p l)
      (fun x => { x with rxLast := k.toNat })).laneHears (.net p l)).portExited p := by
  unfold doFastExitBurstReceived
  extract_lets n u
  refine if_neg ?_
  rw [State.laneAway, show s.laneState n = 3 from h3]
  decide

theorem fastExitBurst_spec (k : BitVec 2) (h3 : s.laneState (.net p l) = 3) (hs : s.inService (.port p) = true)
    (hr : (s.port p).retrain = none) : ∃ t, doFastExitBurstReceived p ⟨l, k⟩ s = t ∧
    s.Alters t [.regs, .lanes, .out, .ports] AnyLaneAt ∧
    t.laneState (.net p l) = (if (s.lane (.net p l)).txIdle then 3 else 2) ∧ t.rf (.laneStatus (.net p l)) 12 10 = 7 ∧
    (t.lane (.net p l)).rxIdle = false ∧ (t.port p).rxIdle = false := by
  obtain ⟨u, hu⟩ : ∃ u, u = s.modPort p (fun x => if x.rxIdle then { x.restreamRx with rxIdle := false } else x) := ⟨_, rfl⟩
  obtain ⟨v, hv⟩ : ∃ v, v = u.modLane (.net p l) (fun x => { x with rxLast := k.toNat }) := ⟨_, rfl⟩
  obtain ⟨w, hw⟩ : ∃ w, w = v.laneHears (.net p l) := ⟨_, rfl⟩
  have hsv : s.Alters v [.lanes, .ports] NoReg := by
    rw [hv, hu]
    exact (State.Alters.put_ports _ _).trans (alters_modLane _ _)
  have hlv : v.lane (.net p l) = { s.lane (.net p l) with rxLast := k.toNat } := by
    rw [hv, lane_modLane_same, lane_of_lanes (hu ▸ rfl : u.lanes = s.lanes)]
  have hup : (u.port p).retrain = none ∧ (u.port p).rxIdle = false := by
    rw [hu, port_modPort_same]
    split
    · exact ⟨hr, rfl⟩
    next h => exact ⟨hr, Bool.eq_false_iff.mpr h⟩
  have hvw : v.OnLane w (.net p l) [.regs, .lanes, .out] := hw ▸ laneHears_onLane _ _
  have hpw : w.port p = u.port p := (port_of_ports hvw.same.ports p).trans (hv ▸ rfl)
  have hrw : (w.port p).retrain = none := hpw ▸ hup.1
  obtain ⟨h1, h2, h4⟩ := laneHears_spec v (.net p l)
    ((inService_of_any (hsv.mono (fun _ h => h) fun _ => False.elim) _).trans hs) ((hsv.rf id 3 0).trans h3)
  rw [← hw] at h1 h2 h4
  have hx := portExited_alters w p hrw
  refine ⟨w.portExited p, ?_, ?_, ?_, ?_, ?_, ?_⟩
  · rw [doFastExitBurstReceived_eq s p l k h3, ← hu, ← hv, ← hw]
  · exact ((hsv.mono (by decide) fun _ => False.elim).trans (hvw.any.mono (by decide))).trans
      (hx.mono (by decide) fun _ => False.elim)
  · exact (hx.rf id 3 0).trans (h1.trans (by rw [hlv]))
  · exact (hx.rf id 12 10).trans h2
  · rw [lane_of_lanes hx.lanes]
    exact h4
  · rw [portExited_rxIdle w p hrw, hpw]
    exact hup.2

theorem fastExit_spec (h3 : s.laneState (.net p l) = 3) (hf : s.rb (.laneCtrl (.net p l)) 5 = false)
    (ht : (s.lane (.net p l)).txIdle = true) (hr : (s.port p).retrain = none)
    (ha : (s.port p).txIdle = false ∨ s.portQuiet p = false) : ∃ t, doFastExit p l s = t ∧
    s.Alters t [.regs, .lanes, .out, .ports] AnyLaneAt ∧
    ((s.lane (.net p l)).rxIdle = true → t.laneState (.net p l) = 3 ∧ (t.lane (.net p l)).txIdle = false) ∧
    ((s.lane (.net p l)).rxIdle = false → s.inService (.port p) = true →
      t.laneState (.net p l) = 2 ∧ t.rf (.laneStatus (.net p l)) 12 10 = 7 ∧ (t.lane (.net p l)).txIdle = false) := by
  obtain ⟨w, hw⟩ : ∃ w, w = s.laneExit (.net p l) := ⟨_, rfl⟩
  have hsw : s.OnLane w (.net p l) [.regs, .lanes, .out] := hw ▸ laneExit_onLane _ _
  have hrw : (w.port p).retrain = none := (port_of_ports hsw.same.ports p).symm ▸ hr
  have hx := portExited_alters w p hrw
  have hlx : (w.portExited p).lane (.net p l) = w.lane (.net p l) := lane_of_lanes hx.lanes _
  refine ⟨w.portExited p, ?_, (hsw.any.mono (by decide)).trans (hx.mono (by decide) fun _ => False.elim), ?_, ?_⟩
  · rw [doFastExit_eq s p l h3 hf ht ha, ← hw]
  · intro hd
    obtain ⟨h1, h2⟩ := laneExit_deaf s (.net p l) hd
    rw [hlx]
    exact ⟨(hx.rf id 3 0).trans (hw ▸ h1.trans h3), hw ▸ h2⟩
  · intro hd hs
    obtain ⟨h1, h2, h4⟩ := laneExit_active s (.net p l) hs hd
    rw [hlx]
    exact ⟨(hx.rf id 3 0).trans (hw ▸ h1), (hx.rf id 12 10).trans (hw ▸ h2), hw ▸ h4⟩

end

/-! ### Rows of a host link -/

section
variable (s : State) (h : HLink) (l : Fin 16)

theorem hl_modHl_same (f : HostLl → HostLl) : (s.modHl h f).hl h = f (s.hl h) := tGet_tMod_same ..

/-- A change of a host link's record that keeps its retrain. -/
theorem State.modHl_retrain (f : HostLl → HostLl) (hf : ∀ x, (f x).retrain = x.retrain) :
    ((s.modHl h f).hl h).retrain = (s.hl h).retrain := by rw [hl_modHl_same, hf]

theorem hostFill_alters : s.Alters (s.hostFill h) [.lanes, .hll, .out] NoReg := by
  unfold State.hostFill
  extract_lets x k u
  refine .ite (.refl s) ((State.Alters.put_hll _ _).trans (.foldl (fun t e => ?_) _ _))
  exact (alters_modLane _ _).trans (alters_emit _)

theorem hostFill_retrain : ((s.hostFill h).hl h).retrain = (s.hl h).retrain := by
  unfold State.hostFill
  extract_lets x k u
  split
  · rfl
  · have hf : u.Alters ((u.hostSends h).foldl (fun t (e : Nat × Nat) =>
        (t.modLane (linkLane (.host h) e.2) (fun x => { x with rd := x.rd != decide (k % 2 = 1) })).emit
          (.fill (linkLane (.host h) e.2) k)) u) [.lanes, .out] NoReg :=
      .foldl (fun t e => (alters_modLane _ _).trans (alters_emit _)) _ _
    rw [hl_of_hll hf.hll]
    exact State.modHl_retrain s h _ fun _ => rfl

/-- What HOST_IDLE_ENTRY makes of one lane; `whole` where the link has announced idle (R73). -/
def State.hostIdleOne (whole : Bool) (t : State) (n : LaneId) : State :=
  let forced := t.laneForced n
  if (whole || forced) && (t.laneState n = 2 || (t.laneState n = 3 && !(t.lane n).txIdle)) then t.laneIdle n
  else if forced && t.laneState n = 5 then t.laneHold n
  else if forced && t.laneState n = 4 then (if (t.lane n).txIdle then t.setLane n 3 else t.laneIdle n)
  else if forced && t.laneState n = 1 then t.modLane n (fun x => { x with txIdle := true })
  else t

theorem hostIdleOne_onLane (whole : Bool) (t : State) (n : LaneId) : t.OnLane (t.hostIdleOne whole n) n [.regs, .lanes, .out] := by
  unfold State.hostIdleOne
  extract_lets forced
  have hi := (laneIdle_idled t n).onLane
  exact .ite hi (.ite (laneHold_onLane t n).mono (.ite (.ite (setLane_onLane t n 3) hi) (.ite (onLane_modLane _) (.refl t n))))

theorem doHostIdleEntry_eq (hr : (s.hl h).retrain = none) :
    doHostIdleEntry h s = (linkLanes (.host h)).foldl (State.hostIdleOne (s.hl h).txIdle) (s.hostFill h) := by
  have hf := foldl_any (hostIdleOne_onLane (s.hl h).txIdle) (linkLanes (.host h)) (s.hostFill h)
  unfold doHostIdleEntry
  extract_lets whole one u
  refine if_neg ?_
  rw [show u.hl h = (s.hostFill h).hl h from hl_of_hll hf.hll h, hostFill_retrain, hr]
  decide

/-- A lane of a link that has announced idle. -/
theorem laneState_hostIdleOne (t : State) (n : LaneId) : (t.hostIdleOne true n).laneState n =
    if t.laneState n = 2 ∨ ((t.laneState n = 4 ∨ t.laneState n = 5) ∧ t.laneForced n = true) then 3 else t.laneState n := by
  unfold State.hostIdleOne
  extract_lets forced
  have hi := (laneIdle_idled t n).state
  have hs := laneState_setLane t n (st := 3) (by decide)
  have hh := laneState_laneHold t n
  rw [show t.laneForced n = forced from rfl]
  cases forced <;> (repeat' split) <;> simp_all

theorem hostIdleEntry_spec (hi : (s.hl h).txIdle = true) (hr : (s.hl h).retrain = none) : ∃ t, doHostIdleEntry h s = t ∧
    s.Alters t [.regs, .lanes, .hll, .out] AnyLaneAt ∧ t.laneState (.host h l) =
      (if s.laneState (.host h l) = 2 ∨ ((s.laneState (.host h l) = 4 ∨ s.laneState (.host h l) = 5) ∧
        s.rb (.laneCtrl (.host h l)) 5 = true) then 3 else s.laneState (.host h l)) := by
  have hfill := hostFill_alters s h
  obtain ⟨u, -, hu, ht⟩ := foldl_lane (hostIdleOne_onLane true) (linkLanes (.host h)) (s.hostFill h)
    (mem_linkLanes_host h l) (linkLanes_nodup _)
  refine ⟨_, doHostIdleEntry_eq s h hr, ?_, ?_⟩ <;> rw [hi]
  · exact (hfill.mono (by decide) fun _ => False.elim).trans ((foldl_any (hostIdleOne_onLane true) _ _).mono (by decide))
  · rw [ht.laneState, laneState_hostIdleOne, hu.laneState, State.laneForced, hu.rb_ctrl, hfill.rb id,
      show (s.hostFill h).laneState (.host h l) = s.laneState (.host h l) from hfill.rf id 3 0]

theorem hostExited_alters (hr : (s.hl h).retrain = none) : s.Alters (s.hostExited h) [.hll] NoReg := by
  unfold State.hostExited
  rw [if_neg (by rw [hr]; decide)]
  exact .ite (.refl s) (.put_hll _ _)

theorem hostExited_rxIdle (hr : (s.hl h).retrain = none) : ((s.hostExited h).hl h).rxIdle = (s.hl h).rxIdle := by
  unfold State.hostExited
  rw [if_neg (by rw [hr]; decide)]
  split
  · rfl
  · rw [hl_modHl_same]

theorem hostFastExit_spec (h3 : s.laneState (.host h l) = 3) (hf : s.rb (.laneCtrl (.host h l)) 5 = false)
    (hs : s.inService (.host h) = true) (ht : (s.lane (.host h l)).txIdle = true) (hd : (s.lane (.host h l)).rxIdle = false)
    (hr : (s.hl h).retrain = none) (ha : (s.hl h).txIdle = false ∨ s.hostQuiet h = false) : ∃ t, doHostFastExit h s = t ∧
    s.Alters t [.regs, .lanes, .hll, .out] AnyLaneAt ∧ t.laneState (.host h l) = 2 := by
  obtain ⟨back, hb⟩ : ∃ back, back = (linkLanes (.host h)).filter
    (fun n => s.laneAway n && (s.lane n).txIdle && !s.rb (.laneCtrl n) 5) := ⟨_, rfl⟩
  have hmem : LaneId.host h l ∈ back := by
    rw [hb, List.mem_filter]
    refine ⟨mem_linkLanes_host h l, ?_⟩
    rw [State.laneAway, h3, ht, hf]
    rfl
  obtain ⟨w, hw⟩ : ∃ w, w = back.foldl (fun t n => t.laneExit n) s := ⟨_, rfl⟩
  obtain ⟨u, hsu, hu, hut⟩ := foldl_lane (f := fun t n => t.laneExit n) (fun t n => laneExit_onLane t n) back s hmem
    (hb ▸ (linkLanes_nodup _).filter _)
  have hsw : s.Alters w [.regs, .lanes, .out] AnyLaneAt := hw ▸ foldl_any (fun t n => laneExit_onLane t n) back s
  have hx := hostExited_alters w h ((hl_of_hll hsw.hll h).symm ▸ hr)
  refine ⟨w.hostExited h, ?_, (hsw.mono (by decide)).trans (hx.mono (by decide) fun _ => False.elim), ?_⟩
  · unfold doHostFastExit
    extract_lets x asked back'
    rw [show back' = back from hb.symm, if_pos, ← hw]
    have hasked : asked = true := by
      show ((s.hl h).retrain.isSome || !(s.hl h).txIdle || !s.hostQuiet h) = true
      rcases ha with h | h <;> simp [h]
    simp [hasked, List.ne_nil_of_mem hmem]
  · refine (hx.rf id 3 0).trans ?_
    have h2 := (laneExit_active u (.host h l) ((inService_of_any hsu _).trans hs) (by rw [hu.lane, hd])).1
    rw [← hw] at hut
    exact hut.laneState.trans h2

/-- What HOST_EXIT_BURST_RECEIVED makes of one lane (R73). -/
def State.hostHearsOne (t : State) (n : LaneId) : State :=
  (t.modLane n (fun x => { x with rxRd := (encodeLane x.rxRd hostBurst).2 })).laneHears n

theorem hostHearsOne_onLane (t : State) (n : LaneId) : t.OnLane (t.hostHearsOne n) n [.regs, .lanes, .out] :=
  (onLane_modLane _).trans (laneHears_onLane _ n)

theorem hostExitBurst_spec (h3 : s.laneState (.host h l) = 3) (hs : s.inService (.host h) = true)
    (hr : (s.hl h).retrain = none) : ∃ t, doHostExitBurstReceived h s = t ∧
    s.Alters t [.regs, .lanes, .hll, .out] AnyLaneAt ∧
    t.laneState (.host h l) = (if (s.lane (.host h l)).txIdle then 3 else 2) ∧ (t.lane (.host h l)).rxIdle = false ∧
    (t.hl h).rxIdle = false := by
  obtain ⟨idle, hi⟩ : ∃ idle, idle = (linkLanes (.host h)).filter s.laneAway := ⟨_, rfl⟩
  have hmem : LaneId.host h l ∈ idle := by
    rw [hi, List.mem_filter]
    refine ⟨mem_linkLanes_host h l, ?_⟩
    rw [State.laneAway, h3]
    rfl
  obtain ⟨v, hv⟩ : ∃ v, v = idle.foldl State.hostHearsOne s := ⟨_, rfl⟩
  obtain ⟨w, hw⟩ : ∃ w, w = v.modHl h (fun x => { x with rxIdle := false }) := ⟨_, rfl⟩
  obtain ⟨u, hsu, hu, hut⟩ := foldl_lane hostHearsOne_onLane idle s hmem (hi ▸ (linkLanes_nodup _).filter _)
  rw [← hv] at hut
  have hsv : s.Alters v [.regs, .lanes, .out] AnyLaneAt := hv ▸ foldl_any hostHearsOne_onLane idle s
  have hvw : v.Alters w [.hll] NoReg := hw ▸ .put_hll _ _
  have hwr : (w.hl h).retrain = none := by
    rw [hw, hl_modHl_same, hl_of_hll hsv.hll]
    exact hr
  have hx := hostExited_alters w h hwr
  obtain ⟨x, hxe⟩ : ∃ x, x = u.modLane (.host h l) (fun x => { x with rxRd := (encodeLane x.rxRd hostBurst).2 }) := ⟨_, rfl⟩
  have hux : u.Alters x [.lanes] AnyLaneAt := hxe ▸ alters_modLane _ _
  have hlx : x.lane (.host h l) = { s.lane (.host h l) with rxRd := (encodeLane (s.lane (.host h l)).rxRd hostBurst).2 } := by
    rw [hxe, lane_modLane_same, hu.lane]
  obtain ⟨h1, -, h4⟩ := laneHears_spec x (.host h l)
    ((inService_of_any ((hsu.mono (by decide)).trans (hux.mono (G := [.regs, .lanes, .out]))) _).trans hs)
    ((congrArg (fld · 3 0) (hxe ▸ rfl : x.reg (.laneStatus (.host h l)) = u.reg _)).trans (hu.laneState.trans h3))
  have hone : x.laneHears (.host h l) = u.hostHearsOne (.host h l) := by rw [hxe, State.hostHearsOne]
  rw [hone] at h1 h4
  refine ⟨w.hostExited h, ?_, ((hsv.mono (by decide)).trans (hvw.mono (by decide) fun _ => False.elim)).trans
    (hx.mono (by decide) fun _ => False.elim), ?_, ?_, ?_⟩
  · unfold doHostExitBurstReceived
    extract_lets idle'
    rw [show idle' = idle from hi.symm, if_neg (List.ne_nil_of_mem hmem), hw, hv]
    rfl
  · refine (hx.rf id 3 0).trans ((hvw.rf id 3 0).trans (hut.laneState.trans (h1.trans ?_)))
    rw [hlx]
  · rw [lane_of_lanes hx.lanes, lane_of_lanes hvw.lanes, hut.lane]
    exact h4
  · rw [hostExited_rxIdle w h hwr, hw, hl_modHl_same]

end

/-- Settles O13. -/
theorem electricalIdleOfLanes : Obligations.ElectricalIdleOfLanes := by
  unfold Obligations.ElectricalIdleOfLanes
  refine ⟨?_, ?_, ?_, ?_, ?_, ?_, ?_, ?_, ?_⟩
  · intro s p l hc hl h2 hi
    have ha := laneIdle_idled s (.net p l)
    exact ⟨_, act_of_alters hl hc (if_pos ⟨h2, by simpa using hi⟩) ha.onLane.same, ha.state, ha.idle, ha.rest,
      ha.onLane.same.eq_lanes⟩
  · intro s p l hc hl h3 hf hs ht hd hr ha
    obtain ⟨t, he, hst, -, hact⟩ := fastExit_spec s p l h3 hf ht hr ha
    obtain ⟨h1, h2, h4⟩ := hact hd hs
    exact ⟨t, act_of_alters hl hc he hst, h1, h2, h4, hst.hbm, hst.buf⟩
  · intro s h l hc hl hi hr
    obtain ⟨t, he, hst, h1⟩ := hostIdleEntry_spec s h l hi hr
    exact ⟨t, act_of_alters hl hc he hst, h1, (hst.mono (by decide)).eq_links.trans (by rw [hst.frees, hst.ports])⟩
  · intro s h l hc hl h3 hf hs ht hd hr ha
    obtain ⟨t, he, hst, h1⟩ := hostFastExit_spec s h l h3 hf hs ht hd hr ha
    exact ⟨t, act_of_alters hl hc he hst, h1, hst.hbm, hst.buf⟩
  · intro s p l k hc hl h3 hs hr
    obtain ⟨t, he, hst, h1, h2, h4, h5⟩ := fastExitBurst_spec s p l k h3 hs hr
    exact ⟨t, act_of_alters hl hc he hst, h1, h2, h4, h5, hst.hbm⟩
  · intro s h l hc hl h3 hs hr
    obtain ⟨t, he, hst, h1, h2, h4⟩ := hostExitBurst_spec s h l h3 hs hr
    exact ⟨t, act_of_alters hl hc he hst, h1, h2, h4, hst.hbm⟩
  · intro s p l hc hl h3 hf ht hd hr ha
    obtain ⟨t, he, hst, hdeaf, -⟩ := fastExit_spec s p l h3 hf ht hr ha
    obtain ⟨h1, h2⟩ := hdeaf hd
    exact ⟨t, act_of_alters hl hc he hst, h1, h2, hst.hbm⟩
  · intro s p l hc hl h5 hf
    have ha := laneHold_onLane s (.net p l)
    exact ⟨_, act_of_alters hl hc (by simp [doElectricalIdleEntry, h5, hf]) ha.same, laneState_laneHold _ _, laneHold_idle _ _,
      ha.same.eq_laneReg⟩
  · intro s p l hc hl h4 hf ht hr
    have ha := setLane_onLane s (.net p l) 3 (F := [.regs])
    have he : doElectricalIdleEntry p l s = s.setLane (.net p l) 3 := by
      have hn : ((s.setLane (.net p l) 3).port p).retrain = none := (port_of_ports ha.same.ports p).symm ▸ hr
      simp [doElectricalIdleEntry, h4, hf, ht, State.resumePort, hn]
    exact ⟨_, act_of_alters hl hc he ha.same, laneState_setLane _ _ (by decide),
      (ha.same.mono (by decide)).eq_laneReg.trans (by rw [ha.same.lanes])⟩

end Sys2Proof.Machine
end

section
/-! PROOFS. What leaves on a port and on a host link, and what sending it changes (R53, R67, R82 to R84, R94). -/

namespace Sys2Proof.Machine

-- The proofs are elaborated one after another: in parallel their threads' stacks need more memory than a compile may have.
set_option Elab.async false

/-! ### Records of ports and host links -/

section
variable {s : State} {F : List Field} {P : Nat → Prop}

theorem alters_modPort (p : Port) (f : PortSt → PortSt) (h : .ports ∈ F := by decide) : s.Alters (s.modPort p f) F P :=
  .put_ports _ _ h

theorem alters_modHl (k : HLink) (f : HostLl → HostLl) (h : .hll ∈ F := by decide) : s.Alters (s.modHl k f) F P :=
  .put_hll _ _ h
end

@[simp] theorem rf_modPort (s : State) (p : Port) (f : PortSt → PortSt) (q : Reg) (hi lo : Nat) :
    (s.modPort p f).rf q hi lo = s.rf q hi lo := rfl
@[simp] theorem rf_modHl (s : State) (k : HLink) (f : HostLl → HostLl) (q : Reg) (hi lo : Nat) :
    (s.modHl k f).rf q hi lo = s.rf q hi lo := rfl
@[simp] theorem port_bump (s : State) (r : Reg) (hi lo n : Nat) (p : Port) : (s.bump r hi lo n).port p = s.port p := rfl
@[simp] theorem hl_bump (s : State) (r : Reg) (hi lo n : Nat) (k : HLink) : (s.bump r hi lo n).hl k = s.hl k := rfl

/-! ### Lanes that send -/

/-- From `s` to `t` lanes have sent what is neither a frame nor a link packet. -/
structure State.LanesSend (s t : State) : Prop where
  same : s.Alters t [.lanes, .out] NoReg
  lane : ∀ n, (s.lane n).Sent (t.lane n)
  frames : sentFrames t.out = sentFrames s.out
  packets : sentPackets t.out = sentPackets s.out

section
variable {s t u : State}

theorem State.LanesSend.refl (s : State) : s.LanesSend s := ⟨.refl s, fun _ => rfl, rfl, rfl⟩

theorem State.LanesSend.trans (h : s.LanesSend t) (k : t.LanesSend u) : s.LanesSend u :=
  ⟨h.same.trans k.same, fun n => (h.lane n).trans (k.lane n), k.frames.trans h.frames, k.packets.trans h.packets⟩

theorem State.LanesSend.foldl {α : Type} {f : State → α → State} (h : ∀ t x, State.LanesSend t (f t x)) (xs : List α) (s : State) :
    s.LanesSend (xs.foldl f s) :=
  List.foldlRecOn (motive := fun t => s.LanesSend t) xs f (.refl s) fun t ht x _ => ht.trans (h t x)

theorem State.Sends.lanesSend {n : LaneId} (h : s.Sends t n [.lanes, .out]) (hf : sentFrames t.out = sentFrames s.out)
    (hp : sentPackets t.out = sentPackets s.out) : s.LanesSend t :=
  ⟨h.same, fun m => if hm : m = n then hm ▸ h.lane else by rw [h.other m hm]; rfl, hf, hp⟩
end

/-- What is emitted beside frames and packets is neither. -/
theorem lanesSend_emit (s : State) (e : Emission) (hf : sentFrames [e] = []) (hp : sentPackets [e] = []) : s.LanesSend (s.emit e) :=
  ⟨alters_emit e, fun _ => rfl, by rw [State.emit, sentFrames, ← List.singleton_append, List.filterMap_append, ← sentFrames, hf]; rfl,
    by rw [State.emit, sentPackets, ← List.singleton_append, List.filterMap_append, ← sentPackets, hp]; rfl⟩

theorem lanesSend_modLane (s : State) (n : LaneId) (f : Lane → Lane) (hf : (s.lane n).Sent (f (s.lane n))) :
    s.LanesSend (s.modLane n f) := (sends_modLane f hf).lanesSend rfl rfl

theorem sendCodeword_lanesSend (s : State) (n : LaneId) (kind lane count : Nat) (data : List Byte) :
    s.LanesSend (s.sendCodeword n kind lane count data) := by
  unfold State.sendCodeword
  extract_lets x c bits o
  exact (lanesSend_modLane s n _ (by rfl)).trans (lanesSend_emit _ _ rfl rfl)

theorem sendChars_lanesSend (s : State) (n : LaneId) (cs : List Char8) : s.LanesSend (s.sendChars n cs) := by
  unfold State.sendChars State.sendGroups
  extract_lets o o' out
  exact (lanesSend_modLane s n _ (by rfl)).trans ((lanesSend_modLane _ n _ (by rfl)).trans (lanesSend_emit _ _ rfl rfl))

/-! ### Frames of a port -/

/-- A port's record after it has sent. -/
def PortSt.Sent (x y : PortSt) : Prop :=
  y = { x with credNo := y.credNo, credAt := y.credAt, changed := y.changed, quietAt := y.quietAt, ackOwed := y.ackOwed,
               txBytes := y.txBytes, txCount := y.txCount }

theorem PortSt.Sent.trans {x y z : PortSt} (h : x.Sent y) (k : y.Sent z) : x.Sent z := Eq.trans k (by rw [h])

/-- From `s` to `t` port `p` has sent the frames `new`, the last first. -/
structure State.PortSends (s t : State) (p : Port) (new : List (Port × BitVec 128 × List (BitVec 512))) : Prop where
  same : s.Alters t [.lanes, .out, .ports] NoReg
  lane : ∀ n, (s.lane n).Sent (t.lane n)
  port : (s.port p).Sent (t.port p)
  other : ∀ q, q ≠ p → t.port q = s.port q
  frames : sentFrames t.out = new ++ sentFrames s.out
  packets : sentPackets t.out = sentPackets s.out

section
variable {s t u : State} {p : Port} {new more : List (Port × BitVec 128 × List (BitVec 512))}

theorem State.PortSends.refl (s : State) (p : Port) : s.PortSends s p [] := ⟨.refl s, fun _ => rfl, rfl, fun _ _ => rfl, rfl, rfl⟩

theorem State.PortSends.trans (h : s.PortSends t p new) (k : t.PortSends u p more) : s.PortSends u p (more ++ new) :=
  ⟨h.same.trans k.same, fun n => (h.lane n).trans (k.lane n), h.port.trans k.port, fun q hq => (k.other q hq).trans (h.other q hq),
    by rw [k.frames, h.frames, List.append_assoc], k.packets.trans h.packets⟩

theorem State.LanesSend.portSends (h : s.LanesSend t) (p : Port) : s.PortSends t p [] :=
  ⟨h.same.mono, h.lane, by rw [port_of_ports h.same.ports]; rfl, fun q _ => port_of_ports h.same.ports q, h.frames, h.packets⟩

theorem portSends_modPort (f : PortSt → PortSt) (h : (s.port p).Sent (f (s.port p))) : s.PortSends (s.modPort p f) p [] :=
  ⟨.put_ports _ _, fun _ => rfl, by rw [port_modPort_same]; exact h, fun _ hq => port_modPort_other _ _ hq, rfl, rfl⟩

theorem State.PortSends.rf (h : s.PortSends t p new) (q : Reg) (hi lo : Nat) : t.rf q hi lo = s.rf q hi lo := h.same.rf id hi lo
theorem State.PortSends.rb (h : s.PortSends t p new) (q : Reg) (i : Nat) : t.rb q i = s.rb q i := h.same.rb id i
end

section
variable (s : State) (p : Port)

theorem sendStretch_sends (bs : List Byte) : s.PortSends (s.sendStretch p bs) p [] := by
  unfold State.sendStretch
  extract_lets x w u
  have hu : s.LanesSend u := .foldl (fun t e => by
    split
    · exact .refl t
    · exact sendCodeword_lanesSend ..) _ _
  exact (hu.portSends p).trans (portSends_modPort _ (by rfl))

theorem putBytes_sends (bs : List Byte) : s.PortSends (s.putBytes p bs) p [] := by
  unfold State.putBytes
  extract_lets x n all
  split
  · exact portSends_modPort _ (by rfl)
  · exact (portSends_modPort _ (by rfl)).trans (sendStretch_sends _ _ _)

theorem emit_frame_sends (t : BitVec 128) (flits : List (BitVec 512)) :
    s.PortSends (s.emit (.frame p t flits)) p [(p, t, flits)] :=
  ⟨.put_out _ _, fun _ => rfl, rfl, fun _ _ => rfl, rfl, rfl⟩

theorem sendFrame_sends (kind next vc seq : Nat) (flits : List (BitVec 512)) :
    s.PortSends (s.sendFrame p kind next vc seq flits) p [(p, (s.port p).trailer kind next vc seq flits, flits)] := by
  unfold State.sendFrame
  extract_lets x c t n u
  have hu : s.PortSends u p [] := portSends_modPort _ (by rfl)
  exact (hu.trans (emit_frame_sends u p t flits)).trans (putBytes_sends _ p _)

theorem sendIdle_sends (next : Nat) :
    s.PortSends (s.sendIdle p next) p [(p, (s.port p).trailer 0 next 0 (s.port p).next [], [])] := sendFrame_sends ..

end

/-! ### Link packets of a host link -/

/-- A host link's record after it has sent. -/
def HostLl.Sent (x y : HostLl) : Prop := y = { x with sinceAck := y.sinceAck, sinceSet := y.sinceSet, sentTo := y.sentTo }

theorem HostLl.Sent.trans {x y z : HostLl} (h : x.Sent y) (k : y.Sent z) : x.Sent z := Eq.trans k (by rw [h])

/-- From `s` to `t` host link `h` has sent the packets `new`, the last first. -/
structure State.HostSends (s t : State) (h : HLink) (new : List (HLink × List Byte)) : Prop where
  same : s.Alters t [.lanes, .out, .hll] NoReg
  lane : ∀ n, (s.lane n).Sent (t.lane n)
  link : (s.hl h).Sent (t.hl h)
  other : ∀ k, k ≠ h → t.hl k = s.hl k
  frames : sentFrames t.out = sentFrames s.out
  packets : sentPackets t.out = new ++ sentPackets s.out

section
variable {s t u : State} {h : HLink} {new more : List (HLink × List Byte)}

theorem State.HostSends.refl (s : State) (h : HLink) : s.HostSends s h [] := ⟨.refl s, fun _ => rfl, rfl, fun _ _ => rfl, rfl, rfl⟩

theorem State.HostSends.trans (a : s.HostSends t h new) (b : t.HostSends u h more) : s.HostSends u h (more ++ new) :=
  ⟨a.same.trans b.same, fun n => (a.lane n).trans (b.lane n), a.link.trans b.link, fun k hk => (b.other k hk).trans (a.other k hk),
    b.frames.trans a.frames, by rw [b.packets, a.packets, List.append_assoc]⟩

theorem State.LanesSend.hostSends (a : s.LanesSend t) (h : HLink) : s.HostSends t h [] :=
  ⟨a.same.mono, a.lane, by rw [hl_of_hll a.same.hll]; rfl, fun k _ => hl_of_hll a.same.hll k, a.frames, a.packets⟩

theorem hl_modHl_other (s : State) {h k : HLink} (f : HostLl → HostLl) (hk : k ≠ h) : (s.modHl h f).hl k = s.hl k :=
  tGet_tMod_other _ _ _ _ _ fun e => hk (Fin.ext e)

theorem hostSends_modHl (f : HostLl → HostLl) (hf : (s.hl h).Sent (f (s.hl h))) : s.HostSends (s.modHl h f) h [] :=
  ⟨.put_hll _ _, fun _ => rfl, by rw [hl_modHl_same]; exact hf, fun _ hk => hl_modHl_other _ _ hk, rfl, rfl⟩

theorem State.HostSends.rf (a : s.HostSends t h new) (q : Reg) (hi lo : Nat) : t.rf q hi lo = s.rf q hi lo := a.same.rf id hi lo
theorem State.HostSends.rb (a : s.HostSends t h new) (q : Reg) (i : Nat) : t.rb q i = s.rb q i := a.same.rb id i
end

/-- From `s` to `t` characters have left on the lanes of host link `h`, and no packet is counted. -/
structure State.HostRows (s t : State) (h : HLink) : Prop where
  sends : s.HostSends t h []
  ack : (t.hl h).sinceAck = (s.hl h).sinceAck

section
variable {s t u : State} {h : HLink}

theorem State.HostRows.refl (s : State) (h : HLink) : s.HostRows s h := ⟨.refl s h, rfl⟩

theorem State.HostRows.trans (a : s.HostRows t h) (b : t.HostRows u h) : s.HostRows u h :=
  ⟨a.sends.trans b.sends, b.ack.trans a.ack⟩

theorem State.LanesSend.hostRows (a : s.LanesSend t) (h : HLink) : s.HostRows t h :=
  ⟨a.hostSends h, by rw [hl_of_hll a.same.hll]⟩

theorem hostRows_modHl (f : HostLl → HostLl) (hf : (s.hl h).Sent (f (s.hl h)))
    (ha : (f (s.hl h)).sinceAck = (s.hl h).sinceAck) : s.HostRows (s.modHl h f) h :=
  ⟨hostSends_modHl f hf, by rw [hl_modHl_same]; exact ha⟩
end

section
variable (s : State) (h : HLink)

theorem hostFill_rows : s.HostRows (s.hostFill h) h := by
  unfold State.hostFill
  extract_lets x k u
  split
  · exact .refl s h
  · have hu : s.HostRows u h := hostRows_modHl _ (by rfl) rfl
    refine hu.trans (State.LanesSend.hostRows (State.LanesSend.foldl (fun t e => ?_) _ u) h)
    exact (lanesSend_modLane t (linkLane (.host h) e.2) _ (by rfl)).trans (lanesSend_emit _ _ rfl rfl)

theorem sendRows_rows (rows : List (List Char8)) : s.HostRows (s.sendRows h rows) h := by
  unfold State.sendRows
  extract_lets u x o v
  have hu : s.HostRows u h := hostFill_rows s h
  have hv : u.HostRows v h := hostRows_modHl _ (by split <;> rfl) (by split <;> rfl)
  exact (hu.trans hv).trans (State.LanesSend.hostRows (.foldl (fun t e => sendChars_lanesSend ..) _ v) h)

theorem emit_packet_sends (b : List Byte) : s.HostSends (s.emit (.hostPacket h b)) h [(h, b)] :=
  ⟨.put_out _ _, fun _ => rfl, rfl, fun _ _ => rfl, rfl, rfl⟩

theorem putPacket_spec (ty seq : Nat) (body : List Byte) :
    s.HostSends (s.putPacket h ty seq body) h [(h, linkPacket ty seq body)] ∧
    ((s.putPacket h ty seq body).hl h).sinceAck = (s.hl h).sinceAck + 1 := by
  unfold State.putPacket
  extract_lets b u
  have hu : s.HostSends u h [] := hostSends_modHl _ (by rfl)
  have hr := sendRows_rows (u.emit (.hostPacket h b)) h (packetRows ((u.emit (.hostPacket h b)).hl h).use.length b)
  refine ⟨(hu.trans (emit_packet_sends u h b)).trans hr.sends, hr.ack.trans ?_⟩
  exact congrArg HostLl.sinceAck (hl_modHl_same s h (fun x => { x with sinceAck := x.sinceAck + 1 }))

/-- Short of the 65,536th packet no ACK goes with a packet. -/
theorem sendPacket_sends (ty seq : Nat) (body : List Byte) (hs : (s.hl h).sinceAck < 65535) :
    s.HostSends (s.sendPacket h ty seq body) h [(h, linkPacket ty seq body)] := by
  obtain ⟨hp, hn⟩ := putPacket_spec s h ty seq body
  have he : s.sendPacket h ty seq body = s.putPacket h ty seq body := by
    unfold State.sendPacket
    extract_lets u
    exact if_neg (show ¬ 65536 ≤ ((s.putPacket h ty seq body).hl h).sinceAck by rw [hn]; omega)
  rw [he]
  exact hp

end

end Sys2Proof.Machine
end

section
/-! PROOFS. FramesAreAcceptedInOrderAndReplayed (R83, R86, R88, R89, R96). -/

namespace Sys2Proof.Machine

-- The proofs are elaborated one after another: in parallel their threads' stacks need more memory than a compile may have.
set_option Elab.async false

/-! ### NAKs (R86) -/

/-- The addresses of the error counts of a link. -/
abbrev ErrcntAt (l : LinkId) (a : Nat) : Prop := a = (Reg.llErrcnt l).addr

/-- What a NAK, sent or owed, leaves. -/
structure State.Naks (s t : State) (p : Port) : Prop where
  same : s.Alters t [.regs, .lanes, .out, .ports] (ErrcntAt (.port p))
  port : ({ s.port p with nak := some s.clk } : PortSt).Sent (t.port p)
  crcs : t.rf (.llErrcnt (.port p)) 63 48 = s.rf (.llErrcnt (.port p)) 63 48

section
variable (s : State) (p : Port)

theorem maySend_of_portSends {s t : State} {p : Port} {new} (h : s.PortSends t p new) : t.maySend p = s.maySend p := by
  rw [State.maySend, State.maySend, State.portState, State.portState, State.llState, State.llState, h.rf, h.port]

theorem sendNak_eq : ∃ u, u = s.modPort p (fun x => { x with nak := some s.clk }) ∧ u.maySend p = s.maySend p ∧
    s.sendNak p = if s.maySend p then (u.sendFrame p 2 0 0 (u.port p).next []).bump (.llErrcnt (.port p)) 31 16 1 else u := by
  have hm : (s.modPort p (fun x => { x with nak := some s.clk })).maySend p = s.maySend p := by
    rw [State.maySend, State.maySend, port_modPort_same]
    rfl
  refine ⟨_, rfl, hm, ?_⟩
  unfold State.sendNak
  extract_lets u
  rw [show u.maySend p = s.maySend p from hm]

theorem sendNak_naks : s.Naks (s.sendNak p) p := by
  obtain ⟨u, hu, -, ht⟩ := sendNak_eq s p
  have hsu : s.Alters u [.regs, .lanes, .out, .ports] (ErrcntAt (.port p)) := hu ▸ .put_ports _ _
  have hpu : u.port p = { s.port p with nak := some s.clk } := hu ▸ port_modPort_same ..
  rw [ht]
  split
  · have hs := sendFrame_sends u p 2 0 0 (u.port p).next []
    refine ⟨(hsu.trans (hs.same.mono (by decide) fun _ => False.elim)).trans (alters_bump _ _ _ rfl), ?_, ?_⟩
    · rw [← hpu]
      exact hs.port
    · rw [rf_bump_other _ _ _ _ _ _ _ (by decide) (by decide), hs.rf, hu]
      rfl
  · exact ⟨hsu, by rw [hpu]; rfl, hu ▸ rfl⟩

theorem wantNak_of_none (h : (s.port p).nak = none) : s.wantNak p = s.sendNak p := by
  rw [State.wantNak, if_neg (by rw [h]; decide)]

theorem portHears_of_up (h : s.portState p = 3) : s.portHears p = true := by
  unfold State.portHears
  extract_lets st
  rw [show st = 3 from h]
  rfl

/-- A frame that cannot be used (R83, R86). -/
theorem frameIn_bad (al e : Bool) (t0 : BitVec 128) (fl : List (BitVec 512)) (h3 : s.portState p = 3)
    (hal : al = true ∨ (s.port p).rxNext.isSome = true)
    (hbad : e = true ∨ (s.port p).framed al fl.length = false ∨ frameCrc t0 fl ≠ fld t0 31 0) :
    s.frameIn p al t0 fl e =
      ((s.bump (.llErrcnt (.port p)) 63 48 1).modPort p (fun x => { x with rxNext := none })).wantNak p := by
  unfold State.frameIn
  extract_lets x expect
  rw [if_neg, if_pos]
  · rcases hbad with h | h | h
    · simp [h]
    · simp [show x.framed al fl.length = false from h]
    · simp [h]
  · rw [portHears_of_up s p h3]
    rcases hal with h | h
    · simp [h]
    · simp [Option.isSome_iff_ne_none.mp h, x]

theorem frameIn_bad_spec (al e : Bool) (t0 : BitVec 128) (fl : List (BitVec 512)) (h3 : s.portState p = 3)
    (hal : al = true ∨ (s.port p).rxNext.isSome = true)
    (hbad : e = true ∨ (s.port p).framed al fl.length = false ∨ frameCrc t0 fl ≠ fld t0 31 0) (hn : (s.port p).nak = none) :
    ∃ t, s.frameIn p al t0 fl e = t ∧ s.Alters t [.regs, .lanes, .out, .ports] (ErrcntAt (.port p)) ∧
    (t.port p).rxNext = none ∧ t.rf (.llErrcnt (.port p)) 63 48 = min 0xFFFF (s.rf (.llErrcnt (.port p)) 63 48 + 1) ∧
    (t.port p).nak = some s.clk ∧ (t.port p).lastAcc = (s.port p).lastAcc ∧ (t.port p).ibuf = (s.port p).ibuf ∧
    (t.port p).rxLocal = (s.port p).rxLocal := by
  obtain ⟨u, hu⟩ : ∃ u, u = (s.bump (.llErrcnt (.port p)) 63 48 1).modPort p (fun x => { x with rxNext := none }) := ⟨_, rfl⟩
  have hpu : u.port p = { s.port p with rxNext := none } := by
    rw [hu, port_modPort_same, port_bump]
  have hsu : s.Alters u [.regs, .lanes, .out, .ports] (ErrcntAt (.port p)) := by
    rw [hu]
    exact State.Alters.trans (F := [.regs, .lanes, .out, .ports]) (P := ErrcntAt (.port p)) (alters_bump _ _ _ rfl)
      (alters_modPort _ _)
  have hcu : u.rf (.llErrcnt (.port p)) 63 48 = min (s.rf (.llErrcnt (.port p)) 63 48 + 1) 0xFFFF := by
    rw [hu, rf_modPort, rf_bump_same _ _ _ _ _ (by decide)]
    norm_num
  have hk := sendNak_naks u p
  have hlt := hk.port
  rw [hpu, hsu.clk] at hlt
  refine ⟨u.sendNak p, ?_, hsu.trans hk.same, ?_, ?_, ?_, ?_, ?_, ?_⟩
  · rw [frameIn_bad s p al e t0 fl h3 hal hbad, ← hu, wantNak_of_none u p (by rw [hpu]; exact hn)]
  · rw [hlt]
  · rw [hk.crcs, hcu, min_comm]
  · rw [hlt]
  · rw [hlt]
  · rw [hlt]
  · rw [hlt]

theorem frameIn_lost (t0 : BitVec 128) (fl : List (BitVec 512)) (e : Bool) (h : (s.port p).rxNext = none) :
    s.frameIn p false t0 fl e = s := by
  unfold State.frameIn
  extract_lets x expect
  exact if_pos (by simp [show x.rxNext = none from h])

/-! ### Good frames (R86) -/

/-- A port's record after a trailer's acknowledgement and credits have been applied. -/
def PortSt.Acked (x y : PortSt) : Prop :=
  y = { x with used := y.used, lastCum := y.lastCum, replay := y.replay, count := y.count, resend := y.resend,
               helloAcked := y.helloAcked, quietAt := y.quietAt }

theorem PortSt.Acked.trans {x y z : PortSt} (h : x.Acked y) (k : y.Acked z) : x.Acked z := Eq.trans k (by rw [h])

theorem applyCred_acked (x : PortSt) (v cum : Nat) : x.Acked (x.applyCred v cum) := by
  unfold PortSt.applyCred
  split
  · rfl
  · extract_lets delta
    split <;> rfl

theorem releaseAcked_eq (ack : Nat) : ∃ f : PortSt → PortSt, s.releaseAcked p ack = s.modPort p f ∧
    (s.port p).Acked (f (s.port p)) := ⟨_, rfl, rfl⟩

/-- A good frame with flits of a port that is UP, which announces up to 8 more: what it acknowledges is applied, then its
flits are taken. -/
theorem frameIn_good (t0 : BitVec 128) (fl : List (BitVec 512)) (h3 : s.portState p = 3)
    (hx : (s.port p).rxNext = some fl.length) (hcrc : frameCrc t0 fl = fld t0 31 0) (hb : frameBad t0 fl.length = false)
    (hk : fld t0 127 126 % 2 = 1) (hn : fld t0 121 118 ≤ 8) :
    ∃ u, s.Alters u [.ports] NoReg ∧ ({ s.port p with rxNext := some (fld t0 121 118) } : PortSt).Acked (u.port p) ∧
    s.frameIn p false t0 fl false = u.takeFrame p t0 fl := by
  obtain ⟨v, hv⟩ : ∃ v, v = (s.modPort p (fun x => { x with rxNext := some (fld t0 121 118) })).modPort p
    (fun x => (x.applyCred (fld t0 65 62) (fld t0 61 49)).applyCred (fld t0 48 45) (fld t0 44 32)) := ⟨_, rfl⟩
  obtain ⟨f, hf, hfa⟩ := releaseAcked_eq v p (fld t0 89 66)
  have hsv : s.Alters v [.ports] NoReg := hv ▸ (State.Alters.put_ports _ _).trans (.put_ports _ _)
  have hpv : ({ s.port p with rxNext := some (fld t0 121 118) } : PortSt).Acked (v.port p) := by
    rw [hv, port_modPort_same, port_modPort_same]
    exact (applyCred_acked _ _ _).trans (applyCred_acked _ _ _)
  obtain ⟨u, hu⟩ : ∃ u, u = v.releaseAcked p (fld t0 89 66) := ⟨_, rfl⟩
  have huf := hu.trans hf
  have hsu : s.Alters u [.ports] NoReg := huf ▸ hsv.trans (.put_ports _ _)
  have h3' : u.portState p = 3 := (hsu.rf id 3 0).trans h3
  refine ⟨u, hsu, ?_, ?_⟩
  · rw [huf, port_modPort_same]
    exact hpv.trans hfa
  · have hj : u.judgeUp p = u := if_neg (by rw [h3']; decide)
    have hg : s.frameIn p false t0 fl false =
        (s.modPort p (fun x => { x with rxNext := some (fld t0 121 118) })).goodFrame p t0 fl := by
      unfold State.frameIn
      extract_lets x expect
      have hx' : x.rxNext = some fl.length := hx
      rw [if_neg (by simp [portHears_of_up s p h3, hx']), if_neg (by simp [PortSt.framed, hx', hcrc]),
        if_neg (by rw [hb]; decide), if_pos hn]
    rw [hg]
    unfold State.goodFrame
    extract_lets kind ack ends s1 s2 s3 s4 s5
    have hends : ¬ ends := by
      show ¬ s.portState p = 4
      rw [h3]
      decide
    have h1 : s1 = v := hv.symm
    have h2 : s2 = u := by
      rw [hu, ← h1]
      exact if_neg hends
    have h3e : s3 = u := by
      show s2.judgeUp p = u
      rw [h2, hj]
    have h4 : s4 = u := (if_neg (fun h => absurd h.1 (by show ¬ fld t0 127 126 = 2; omega))).trans h3e
    have h5 : s5 = u.takeFrame p t0 fl := (if_pos hk).trans (by rw [h4])
    split
    · omega
    · omega
    · exact h5

theorem takeFrame_next (t0 : BitVec 128) (fl : List (BitVec 512)) (h : fld t0 113 90 = ((s.port p).lastAcc + 1) % 2 ^ 24) :
    ∃ u, u = s.modPort p (fun x => { x with lastAcc := fld t0 113 90, nak := none, ackOwed := true, quietAt := s.clk }) ∧
    s.takeFrame p t0 fl = if fld t0 117 114 = 15 then u.modPort p (fun x => { x with rxLocal := x.rxLocal ++ fl })
      else u.acceptFlits p (fld t0 117 114) (fl.map (fun f => ⟨f, fld t0 127 126 = 3⟩)) := by
  refine ⟨_, rfl, ?_⟩
  unfold State.takeFrame
  extract_lets x seq u
  exact if_pos h

theorem takeFrame_later (t0 : BitVec 128) (fl : List (BitVec 512)) (h : fld t0 113 90 ≠ ((s.port p).lastAcc + 1) % 2 ^ 24)
    (hd : 2 ^ 23 ≤ dist 24 (s.port p).lastAcc (fld t0 113 90)) : s.takeFrame p t0 fl = s.wantNak p := by
  unfold State.takeFrame
  extract_lets x seq u
  rw [if_neg h]
  exact if_neg (Nat.not_lt.mpr hd)

/-! ### Flits taken into the input buffer (R86, R102) -/

/-- A port's record after flits have come into its input buffer or left it. -/
def PortSt.Took (x y : PortSt) : Prop :=
  y = { x with old := y.old, freed := y.freed, changed := y.changed, ibuf := y.ibuf, syncIn := y.syncIn }

theorem PortSt.Took.trans {x y z : PortSt} (h : x.Took y) (k : y.Took z) : x.Took z := Eq.trans k (by rw [h])

/-- The addresses that flits taken change: counters of performance, and the flits discarded in QUARANTINE. -/
def TakenAt (p : Port) (a : Nat) : Prop := CountAt a ∨ a = (Reg.llStatus (.port p)).addr

/-- From `s` to `t` flits of port `p` have been taken. -/
structure State.Takes (s t : State) (p : Port) : Prop where
  same : s.Alters t [.regs, .ports, .worms, .eject, .inject] (TakenAt p)
  port : ∀ q, (s.port q).Took (t.port q)
  state : t.portState p = s.portState p

end

section
variable {s t u : State} {p : Port}

theorem State.Takes.refl (s : State) (p : Port) : s.Takes s p := ⟨.refl s, fun _ => rfl, rfl⟩

theorem State.Takes.trans (h : s.Takes t p) (k : t.Takes u p) : s.Takes u p :=
  ⟨h.same.trans k.same, fun q => (h.port q).trans (k.port q), k.state.trans h.state⟩

theorem takes_modPort (q : Port) (f : PortSt → PortSt) (hf : (s.port q).Took (f (s.port q))) : s.Takes (s.modPort q f) p :=
  ⟨alters_modPort _ _, fun r => if h : r = q then by subst h; rw [port_modPort_same]; exact hf
    else by rw [port_modPort_other _ _ h]; rfl, rfl⟩
end

section
variable (s : State) (p : Port)

theorem freeNow_took (x : PortSt) (v n : Nat) : x.Took (x.freeNow v n) := by
  unfold PortSt.freeNow
  split <;> rfl

theorem free_took (x : PortSt) (v n : Nat) : x.Took (x.free v n) := by
  unfold PortSt.free
  extract_lets o k y
  exact PortSt.Took.trans (y := y) rfl (freeNow_took y v k)

theorem takeSrc_takes (k n : Nat) : s.Takes (s.takeSrc k n) p := by
  unfold State.takeSrc
  split
  · exact takes_modPort _ _ (PortSt.Took.trans (free_took (s.port (portOf (k / 16))) (k % 16) n) rfl)
  · exact ⟨.put_inject _ _, fun _ => rfl, rfl⟩

theorem pump_takes (k : Nat) : s.Takes (s.pump k) p := by
  unfold State.pump
  split
  · exact .refl s p
  split
  · exact .refl s p
  extract_lets fs u left got v
  have hu : s.Takes u p := takeSrc_takes s p k _
  split
  · have hv : u.Takes v p := ⟨.put_worms _ _, fun _ => rfl, rfl⟩
    split
    · exact (hu.trans hv).trans ⟨.put_eject _ _, fun _ => rfl, rfl⟩
    · exact hu.trans hv
  · exact hu.trans ⟨.put_worms _ _, fun _ => rfl, rfl⟩

theorem acceptFlits_takes (v : Nat) (fs : List Flit) : s.Takes (s.acceptFlits p v fs) p := by
  unfold State.acceptFlits
  extract_lets quar u
  split
  · refine (takes_modPort p _ (freeNow_took _ _ _)).trans ⟨alters_bump _ _ _ (.inr rfl), fun _ => rfl, ?_⟩
    exact rf_bump_other _ _ _ _ _ _ _ (by decide) (by decide)
  · have ha : s.Alters u [.regs, .ports, .worms, .eject, .inject] (TakenAt p) := .pm _ _ _ _ _ fun i => .inl ⟨_, i, rfl⟩
    have hr : s.Alters u [.regs] CountAt := .pm _ _ _ _ _ fun i => ⟨_, i, rfl⟩
    have hu : s.Takes u p := ⟨ha, fun q => by rw [port_of_ports hr.ports]; rfl,
      hr.rf (not_countAt_of_off 0x1008 rfl) 3 0⟩
    split
    · exact hu.trans (takes_modPort p _ (free_took _ _ _))
    · exact (hu.trans (takes_modPort p _ (by rfl))).trans (pump_takes _ p _)

/-- The next frame in order (R86). -/
theorem frameIn_next_spec (t0 : BitVec 128) (fl : List (BitVec 512)) (h3 : s.portState p = 3)
    (hx : (s.port p).rxNext = some fl.length) (hcrc : frameCrc t0 fl = fld t0 31 0) (hb : frameBad t0 fl.length = false)
    (hk : fld t0 127 126 % 2 = 1) (hn : fld t0 121 118 ≤ 8) (hseq : fld t0 113 90 = ((s.port p).lastAcc + 1) % 2 ^ 24) :
    ∃ t, s.frameIn p false t0 fl false = t ∧ s.Alters t [.regs, .ports, .worms, .eject, .inject] (TakenAt p) ∧
    (t.port p).lastAcc = fld t0 113 90 ∧ (t.port p).nak = none ∧ (t.port p).ackOwed = true ∧
    (t.port p).rxNext = some (fld t0 121 118) ∧
    (t.port p).rxLocal = (if fld t0 117 114 = 15 then (s.port p).rxLocal ++ fl else (s.port p).rxLocal) ∧ t.portState p = 3 := by
  obtain ⟨u, hsu, hpu, ht⟩ := frameIn_good s p t0 fl h3 hx hcrc hb hk hn
  obtain ⟨v, hv, hte⟩ := takeFrame_next u p t0 fl (by rw [hpu]; exact hseq)
  have hpv : v.port p = { u.port p with lastAcc := fld t0 113 90, nak := none, ackOwed := true, quietAt := u.clk } := by
    rw [hv, port_modPort_same]
  have hsv : s.Alters v [.regs, .ports, .worms, .eject, .inject] (TakenAt p) := by
    rw [hv]
    exact (hsu.mono (by decide) fun _ => False.elim).trans (alters_modPort _ _)
  have h3v : v.portState p = 3 := (congrArg (fun s => s.portState p) hv).trans ((hsu.rf id 3 0).trans h3)
  rw [ht, hte]
  split
  next h15 =>
    obtain ⟨w, hw⟩ : ∃ w, w = v.modPort p (fun x => { x with rxLocal := x.rxLocal ++ fl }) := ⟨_, rfl⟩
    have hpw : w.port p = { v.port p with rxLocal := (v.port p).rxLocal ++ fl } := hw ▸ port_modPort_same ..
    have hvw : v.Alters w [.ports] NoReg := hw ▸ alters_modPort _ _
    refine ⟨w, hw.symm, hsv.trans (hvw.mono (by decide) fun _ => False.elim), ?_, ?_, ?_, ?_, ?_, (hvw.rf id 3 0).trans h3v⟩
    · rw [hpw, hpv]
    · rw [hpw, hpv]
    · rw [hpw, hpv]
    · rw [hpw, hpv, hpu]
    · rw [hpw, hpv, hpu]
  next h15 =>
    have ha := acceptFlits_takes v p (fld t0 117 114) (fl.map (fun f => ⟨f, fld t0 127 126 = 3⟩))
    obtain ⟨w, hw⟩ : ∃ w, w = v.acceptFlits p (fld t0 117 114) (fl.map (fun f => ⟨f, fld t0 127 126 = 3⟩)) := ⟨_, rfl⟩
    rw [← hw] at ha ⊢
    have hpw := ha.port p
    refine ⟨w, rfl, hsv.trans ha.same, ?_, ?_, ?_, ?_, ?_, ha.state.trans h3v⟩
    · rw [hpw, hpv]
    · rw [hpw, hpv]
    · rw [hpw, hpv]
    · rw [hpw, hpv, hpu]
    · rw [hpw, hpv, hpu]

/-- A frame that is ahead of the next in order. -/
theorem frameIn_later_spec (t0 : BitVec 128) (fl : List (BitVec 512)) (h3 : s.portState p = 3)
    (hx : (s.port p).rxNext = some fl.length) (hcrc : frameCrc t0 fl = fld t0 31 0) (hb : frameBad t0 fl.length = false)
    (hk : fld t0 127 126 % 2 = 1) (hn : fld t0 121 118 ≤ 8) (hseq : fld t0 113 90 ≠ ((s.port p).lastAcc + 1) % 2 ^ 24)
    (hd : 2 ^ 23 ≤ dist 24 (s.port p).lastAcc (fld t0 113 90)) (hnak : (s.port p).nak = none) :
    ∃ t, s.frameIn p false t0 fl false = t ∧ s.Alters t [.regs, .lanes, .out, .ports] (ErrcntAt (.port p)) ∧
    (t.port p).nak = some s.clk ∧ (t.port p).lastAcc = (s.port p).lastAcc ∧ (t.port p).ibuf = (s.port p).ibuf ∧
    (t.port p).rxLocal = (s.port p).rxLocal := by
  obtain ⟨u, hsu, hpu, ht⟩ := frameIn_good s p t0 fl h3 hx hcrc hb hk hn
  have hacc : (u.port p).lastAcc = (s.port p).lastAcc := by rw [hpu]
  have hte := takeFrame_later u p t0 fl (by rw [hacc]; exact hseq) (by rw [hacc]; exact hd)
  rw [wantNak_of_none u p (by rw [hpu]; exact hnak)] at hte
  have hnk := sendNak_naks u p
  have hpt := hnk.port
  rw [hsu.clk] at hpt
  refine ⟨_, ht.trans hte, (hsu.mono (by decide) fun _ => False.elim).trans hnk.same, ?_, ?_, ?_, ?_⟩
  · rw [hpt]
  · rw [hpt, hpu]
  · rw [hpt, hpu]
  · rw [hpt, hpu]

end

/-! ### Timers (R86, R88, R96) -/

/-- Fields of a trailer (R84). -/
theorem trailer_kind (x : PortSt) (kind next vc seq : Nat) (fl : List (BitVec 512)) :
    fld (x.trailer kind next vc seq fl) 127 126 = kind % 4 := by
  unfold PortSt.trailer
  simp only [mkWord, List.foldl_cons, List.foldl_nil]
  repeat rw [fld_setFld_other _ _ _ _ _ _ (by decide) (by decide)]
  rw [fld_setFld_same _ _ _ _ (by decide)]
  norm_num

theorem trailer_ack (x : PortSt) (kind next vc seq : Nat) (fl : List (BitVec 512)) :
    fld (x.trailer kind next vc seq fl) 89 66 = x.lastAcc % 2 ^ 24 := by
  unfold PortSt.trailer
  simp only [mkWord, List.foldl_cons, List.foldl_nil]
  repeat rw [fld_setFld_other _ _ _ _ _ _ (by decide) (by decide)]
  rw [fld_setFld_same _ _ _ _ (by decide)]

section
variable (s : State)

theorem portNakRepeat_spec (p : Port) {t0 : Nat} (hn : (s.port p).nak = some t0) (hm : s.maySend p = true)
    (hd : t0 + ns (s.rf (.llTimers (.port p)) 19 0) < s.clk) : ∃ t, s.portNakRepeat p = t ∧
    s.Alters t [.regs, .lanes, .out, .ports] (ErrcntAt (.port p)) ∧ (t.port p).nak = some s.clk ∧
    t.rf (.llErrcnt (.port p)) 31 16 = min 0xFFFF (s.rf (.llErrcnt (.port p)) 31 16 + 1) ∧
    (sentFrames t.out).tail = sentFrames s.out ∧
    (sentFrames t.out).head?.map (fun e => (e.1, fld e.2.1 127 126, fld e.2.1 89 66, e.2.2)) =
      some (p, 2, (s.port p).lastAcc % 2 ^ 24, []) ∧
    (t.port p).replay = (s.port p).replay := by
  obtain ⟨u, hu, -, ht⟩ := sendNak_eq s p
  rw [if_pos hm] at ht
  have hpu : u.port p = { s.port p with nak := some s.clk } := hu ▸ port_modPort_same ..
  have hs := sendFrame_sends u p 2 0 0 (u.port p).next []
  have hk := sendNak_naks s p
  have hpt := hk.port
  have hfr : sentFrames (s.sendNak p).out = (p, (u.port p).trailer 2 0 0 (u.port p).next [], []) :: sentFrames s.out := by
    rw [ht]
    exact hs.frames.trans (by rw [hu]; rfl)
  refine ⟨s.sendNak p, ?_, hk.same, ?_, ?_, ?_, ?_, ?_⟩
  · unfold State.portNakRepeat
    rw [hn]
    exact if_pos ⟨hm, hd⟩
  · rw [hpt]
  · rw [ht, rf_bump_same _ _ _ _ _ (by decide), hs.rf, hu, rf_modPort, min_comm]
    norm_num
  · rw [hfr, List.tail_cons]
  · rw [hfr, List.head?_cons, Option.map_some, trailer_kind, trailer_ack, hpu]
  · rw [hpt]

theorem dist_self (n a : Nat) : dist n a a = 0 := by
  unfold dist
  rw [show a + 2 ^ n - a % 2 ^ n = 2 ^ n * (a / 2 ^ n + 1) from ?_, Nat.mul_mod_right]
  have h1 := Nat.div_add_mod a (2 ^ n)
  rw [Nat.mul_add, Nat.mul_one]
  omega

theorem hostMaySend_of {s t : State} {h : HLink} (hr : ∀ q, t.reg q = s.reg q) (h1 : (t.hl h).hello = (s.hl h).hello)
    (h2 : (t.hl h).retrain = (s.hl h).retrain) (h3 : (t.hl h).txIdle = (s.hl h).txIdle) : t.hostMaySend h = s.hostMaySend h := by
  have hst : t.hlState h.val = s.hlState h.val := congrArg (fld · 3 0) (hr _)
  rw [State.hostMaySend, State.hostMaySend, State.hostLive, State.hostLive, State.hostHello, State.hostHello, hst, h1, h2, h3]

theorem hostNakRepeat_spec (h : HLink) {t0 : Nat} (hn : (s.hl h).nak = some t0) (hm : s.hostMaySend h = true)
    (hd : t0 + ns (s.rf (.llTimers (.host h)) 19 0) < s.clk) (hack : (s.hl h).sinceAck < 65535) :
    ∃ t, s.hostNakRepeat h = t ∧ s.Alters t [.regs, .hll, .lanes, .out] (ErrcntAt (.host h)) ∧
    (t.hl h).nak = some s.clk ∧ t.rf (.llErrcnt (.host h)) 31 16 = min 0xFFFF (s.rf (.llErrcnt (.host h)) 31 16 + 1) ∧
    sentPackets t.out = (h, linkPacket 9 0 (beBytes 8 ((s.hl h).lastAcc * 2 ^ 48))) :: sentPackets s.out := by
  obtain ⟨u, hu⟩ : ∃ u, u = s.modHl h (fun x => { x with nak := some s.clk }) := ⟨_, rfl⟩
  have hlu : u.hl h = { s.hl h with nak := some s.clk } := hu ▸ hl_modHl_same ..
  have hmu : u.hostMaySend h = true := (hostMaySend_of (fun q => hu ▸ rfl) (by rw [hlu]) (by rw [hlu]) (by rw [hlu])).trans hm
  have hs := sendPacket_sends u h 9 0 (beBytes 8 ((u.hl h).lastAcc * 2 ^ 48)) (by rw [hlu]; exact hack)
  have ht : s.sendHostNak h = (u.sendPacket h 9 0 (beBytes 8 ((u.hl h).lastAcc * 2 ^ 48))).bump (.llErrcnt (.host h)) 31 16 1 := by
    unfold State.sendHostNak
    rw [← hu, if_pos hmu]
  have hlv := hs.link
  refine ⟨s.sendHostNak h, ?_, ?_, ?_, ?_, ?_⟩
  · unfold State.hostNakRepeat
    rw [hn]
    exact if_pos ⟨hm, hd⟩
  · have hsu : s.Alters u [.regs, .hll, .lanes, .out] (ErrcntAt (.host h)) := hu ▸ alters_modHl _ _
    rw [ht]
    exact (hsu.trans (hs.same.mono (by decide) fun _ => False.elim)).trans (alters_bump _ _ _ rfl)
  · rw [ht, hl_bump, hlv, hlu]
  · rw [ht, rf_bump_same _ _ _ _ _ (by decide), hs.rf, hu, rf_modHl, min_comm]
    norm_num
  · have ho : ∀ x : State, (x.bump (.llErrcnt (.host h)) 31 16 1).out = x.out := fun _ => rfl
    have hou : u.out = s.out := hu ▸ rfl
    rw [ht, ho, hs.packets, hou, hlu, List.singleton_append]

/-- A replay of the oldest frame, short of the limit (R88, R89). -/
theorem startReplay_oldest (p : Port) (f : TxFrame) (fs : List TxFrame) (hr : (s.port p).replay = f :: fs)
    (hl : (s.port p).count + 1 < s.rf (.llCtrl (.port p)) 27 24) : s.startReplay p f.seq true =
    (s.bump (.llErrcnt (.port p)) 47 32 1).modPort p (fun x => { x with resend := some f.seq, count := (s.port p).count + 1 }) := by
  have hfind : (s.port p).replay.find? (fun g => dist 24 g.seq f.seq < 2 ^ 23) = some f := by
    rw [hr, List.find?_cons_of_pos]
    rw [dist_self]
    exact decide_eq_true (by positivity)
  unfold State.startReplay
  rw [hfind, hr]
  simp -zeta only []
  extract_lets oldest n u v
  have hn : n = (s.port p).count + 1 := by
    have ho : oldest = true := decide_eq_true trivial
    show (s.port p).count + b2n (true && oldest) = _
    rw [ho]
    rfl
  have hlim : v.rf (.llCtrl (.port p)) 27 24 = s.rf (.llCtrl (.port p)) 27 24 := by
    rw [rf_modPort, State.rf, reg_bump_other _ _ _ _ _ _ (addr_ne_of_off 0x1000 0x1020 rfl rfl)]
    rfl
  rw [if_neg]
  · show u.modPort p (fun x => { x with resend := some f.seq, count := n }) = _
    rw [hn]
  · rw [hlim, hn, decide_eq_false (Nat.not_le.mpr hl), Bool.and_false]
    decide

theorem portReplayTimeout_spec (p : Port) (f : TxFrame) (fs : List TxFrame) (hr : (s.port p).replay = f :: fs)
    (hst : s.portState p = 2 ∨ s.portState p = 3 ∨ s.portState p = 5)
    (hd : f.sentAt + ns (s.rf (.llTimers (.port p)) 51 32) < s.clk) (hl : (s.port p).count + 1 < s.rf (.llCtrl (.port p)) 27 24)
    (hre : (s.port p).resend ≠ some f.seq) : ∃ t, s.portReplayTimeout p = t ∧
    s.Alters t [.regs, .ports] (ErrcntAt (.port p)) ∧ (t.port p).resend = some f.seq ∧
    (t.port p).count = (s.port p).count + 1 ∧ (t.port p).replay = f :: fs ∧
    t.rf (.llErrcnt (.port p)) 47 32 = min 0xFFFF (s.rf (.llErrcnt (.port p)) 47 32 + 1) ∧ t.portState p = s.portState p := by
  obtain ⟨t, ht⟩ : ∃ t, t = (s.bump (.llErrcnt (.port p)) 47 32 1).modPort p
    (fun x => { x with resend := some f.seq, count := (s.port p).count + 1 }) := ⟨_, rfl⟩
  have hpt : t.port p = { s.port p with resend := some f.seq, count := (s.port p).count + 1 } := by
    rw [ht, port_modPort_same, port_bump]
  have ha : s.Alters t [.regs, .ports] (ErrcntAt (.port p)) := by
    rw [ht]
    exact State.Alters.trans (F := [.regs, .ports]) (P := ErrcntAt (.port p)) (alters_bump _ _ _ rfl) (alters_modPort _ _)
  refine ⟨t, ?_, ha, by rw [hpt], by rw [hpt], by rw [hpt]; exact hr, ?_, ?_⟩
  · unfold State.portReplayTimeout
    rw [hr]
    exact (if_pos ⟨hst, hd, hre⟩).trans ((startReplay_oldest s p f fs hr hl).trans ht.symm)
  · rw [ht, rf_modPort, rf_bump_same _ _ _ _ _ (by decide), min_comm]
    norm_num
  · exact ha.rf (addr_ne_of_off 0x1008 0x1020 rfl rfl) 3 0

theorem startHostReplay_oldest (h : HLink) (f : HTx) (fs : List HTx) (hr : (s.hl h).replay = f :: fs)
    (hl : (s.hl h).count + 1 < s.rf (.llCtrl (.host h)) 27 24) : s.startHostReplay h f.seq true =
    (s.bump (.llErrcnt (.host h)) 47 32 1).modHl h (fun x => { x with resend := some f.seq, count := (s.hl h).count + 1 }) := by
  have hfind : (s.hl h).replay.find? (fun g => dist 16 g.seq f.seq < 2 ^ 15) = some f := by
    rw [hr, List.find?_cons_of_pos]
    rw [dist_self]
    exact decide_eq_true (by positivity)
  unfold State.startHostReplay
  rw [hfind, hr]
  simp -zeta only []
  extract_lets oldest n u v
  have hn : n = (s.hl h).count + 1 := by
    have ho : oldest = true := decide_eq_true trivial
    show (s.hl h).count + b2n (true && oldest) = _
    rw [ho]
    rfl
  have hlim : v.rf (.llCtrl (.host h)) 27 24 = s.rf (.llCtrl (.host h)) 27 24 := by
    rw [rf_modHl, State.rf, reg_bump_other _ _ _ _ _ _ (addr_ne_of_off 0x10000 0x10020 rfl rfl)]
    rfl
  rw [if_neg]
  · show u.modHl h (fun x => { x with resend := some f.seq, count := n }) = _
    rw [hn]
  · rw [hlim, hn, decide_eq_false (Nat.not_le.mpr hl), Bool.and_false]
    decide

theorem hostReplayTimeout_spec (h : HLink) (f : HTx) (fs : List HTx) (hr : (s.hl h).replay = f :: fs)
    (hst : s.hlState h.val = 3) (hd : f.sentAt + ns (s.rf (.llTimers (.host h)) 51 32) < s.clk)
    (hl : (s.hl h).count + 1 < s.rf (.llCtrl (.host h)) 27 24) (hre : (s.hl h).resend ≠ some f.seq) :
    ∃ t, s.hostReplayTimeout h = t ∧ s.Alters t [.regs, .hll] (ErrcntAt (.host h)) ∧ (t.hl h).resend = some f.seq ∧
    (t.hl h).count = (s.hl h).count + 1 ∧ (t.hl h).replay = f :: fs ∧
    t.rf (.llErrcnt (.host h)) 47 32 = min 0xFFFF (s.rf (.llErrcnt (.host h)) 47 32 + 1) := by
  obtain ⟨t, ht⟩ : ∃ t, t = (s.bump (.llErrcnt (.host h)) 47 32 1).modHl h
    (fun x => { x with resend := some f.seq, count := (s.hl h).count + 1 }) := ⟨_, rfl⟩
  have hpt : t.hl h = { s.hl h with resend := some f.seq, count := (s.hl h).count + 1 } := by
    rw [ht, hl_modHl_same, hl_bump]
  refine ⟨t, ?_, ?_, by rw [hpt], by rw [hpt], by rw [hpt]; exact hr, ?_⟩
  · unfold State.hostReplayTimeout
    rw [hr]
    exact (if_pos ⟨hst, hd, hre⟩).trans ((startHostReplay_oldest s h f fs hr hl).trans ht.symm)
  · rw [ht]
    exact State.Alters.trans (F := [.regs, .hll]) (P := ErrcntAt (.host h)) (alters_bump _ _ _ rfl) (alters_modHl _ _)
  · rw [ht, rf_modHl, rf_bump_same _ _ _ _ _ (by decide), min_comm]
    norm_num

end

/-- Settles O15. -/
theorem framesAreAcceptedInOrderAndReplayed : Obligations.FramesAreAcceptedInOrderAndReplayed := by
  unfold Obligations.FramesAreAcceptedInOrderAndReplayed
  refine ⟨?_, ?_, ?_, ?_, ?_, ?_, ?_, ?_⟩
  · intro s p al t0 fl e hc hl h3 hal hbad hn
    obtain ⟨t, ht, ha, h1, h2, h4, h5, h6, h7⟩ := frameIn_bad_spec s p al e t0 fl h3 hal hbad hn
    exact ⟨t, act_of_alters hl hc ht ha, h1, h2, h4, h5, h6, h7, ha.hbm, ha.buf⟩
  · intro s p t0 fl e hc hl hx
    exact act_of_alters hl hc (frameIn_lost s p t0 fl e hx) (.refl (F := []) (P := NoReg) s)
  · intro s p t0 fl hc hl h3 hx hcrc hb hk hn hseq
    obtain ⟨t, ht, ha, h1, h2, h4, h5, h6, h7⟩ := frameIn_next_spec s p t0 fl h3 hx hcrc hb hk hn hseq
    exact ⟨t, act_of_alters hl hc ht ha, h1, h2, h4, h5, h6, h7, ha.hbm, ha.buf⟩
  · intro s p t0 fl hc hl h3 hx hcrc hb hk hn hseq hd hnak
    obtain ⟨t, ht, ha, h1, h2, h4, h5⟩ := frameIn_later_spec s p t0 fl h3 hx hcrc hb hk hn hseq hd hnak
    exact ⟨t, act_of_alters hl hc ht ha, h1, h2, h4, h5⟩
  · intro s p dt t0 hc hl hn hm hd
    obtain ⟨t, ht, ha, h1, h2, h4, h5, h6⟩ := portNakRepeat_spec (s.elapse dt) p hn hm hd
    exact ⟨t, act_of_alters hl hc ht ha, h1, h2, h4, h5, h6, (ha.mono (by decide)).eq_links.trans (by rw [ha.frees, ha.hll])⟩
  · intro s h dt t0 hc hl hn hm hd hack
    obtain ⟨t, ht, ha, h1, h2, h4⟩ := hostNakRepeat_spec (s.elapse dt) h hn hm hd hack
    exact ⟨t, act_of_alters hl hc ht ha, h1, h2, h4, (ha.mono (by decide)).eq_links.trans (by rw [ha.frees, ha.ports])⟩
  · intro s p dt f fs hc hl hr hst hd hlim hre
    obtain ⟨t, ht, ha, h1, h2, h4, h5, h6⟩ := portReplayTimeout_spec (s.elapse dt) p f fs hr hst hd hlim hre
    exact ⟨t, act_of_alters hl hc ht ha, h1, h2, h4, h5, h6,
      (ha.mono (by decide)).eq_links.trans (by rw [ha.frees, ha.hll, ha.lanes, ha.out])⟩
  · intro s h dt f fs hc hl hr hst hd hlim hre
    obtain ⟨t, ht, ha, h1, h2, h4, h5⟩ := hostReplayTimeout_spec (s.elapse dt) h f fs hr hst hd hlim hre
    exact ⟨t, act_of_alters hl hc ht ha, h1, h2, h4, h5,
      (ha.mono (by decide)).eq_links.trans (by rw [ha.frees, ha.ports, ha.lanes, ha.out])⟩

end Sys2Proof.Machine
end

section
/-! PROOFS. LinkUpBegins (R95, R99, R102), and what the operations of a link's state change. -/

namespace Sys2Proof.Machine

-- The proofs are elaborated one after another: in parallel their threads' stacks need more memory than a compile may have.
set_option Elab.async false

/-! ### A state whose changed fields are named -/

/-- Any register. -/
abbrev AnyReg (_ : Nat) : Prop := True

/-- A state that differs in the fields of links only, those of the host's rows and the highest epoch included. -/
theorem State.Alters.eq_linkWork {s t : State} {P : Nat → Prop}
    (h : s.Alters t [.regs, .lanes, .out, .frees, .ports, .hll, .ht, .epochSeen] P) :
    t = { s with regs := t.regs, lanes := t.lanes, out := t.out, frees := t.frees, ports := t.ports, hll := t.hll, ht := t.ht,
                 epochSeen := t.epochSeen } := by
  rw [← h.pending, ← h.hbm, ← h.buf, ← h.clk, ← h.nt, ← h.tk, ← h.coreOn, ← h.serial, ← h.draws, ← h.pmFix, ← h.pmSeen,
    ← h.ftPosted, ← h.shares, ← h.ctxEast, ← h.eqs, ← h.cqs, ← h.trigs, ← h.ops, ← h.ctxs, ← h.uses, ← h.xfers,
    ← h.walks, ← h.xl, ← h.invals, ← h.mes, ← h.ifl, ← h.tfl, ← h.hatoms, ← h.inject, ← h.eject, ← h.toInit, ← h.due,
    ← h.posts, ← h.todo, ← h.groups, ← h.insts, ← h.collUp, ← h.collDown, ← h.engOff, ← h.locks, ← h.tmWrote, ← h.grooms,
    ← h.runqs, ← h.cals, ← h.worms, ← h.waits, ← h.newBank, ← h.oldBank, ← h.loadedEpoch, ← h.retired,
    ← h.holdPort, ← h.holdHost, ← h.holdDom, ← h.holdSince, ← h.goodSince, ← h.ppsAt, ← h.ppsNt, ← h.armedAt, ← h.thetas,
    ← h.ntFrac, ← h.ppsOut, ← h.runs, ← h.pins, ← h.flash, ← h.fuses, ← h.mbox, ← h.dir, ← h.hints, ← h.restart,
    ← h.captures, ← h.paceAt, ← h.stewardAt, ← h.coreAccs, ← h.tack]

section
variable {s t : State} {P : Nat → Prop}

theorem State.Alters.eq_portRegs (h : s.Alters t [.regs, .ports] P) : t = { s with regs := t.regs, ports := t.ports } :=
  (h.mono (by decide)).eq_links.trans (by rw [h.lanes, h.out, h.frees, h.hll])

theorem State.Alters.eq_portSent (h : s.Alters t [.regs, .ports, .lanes, .out] P) :
    t = { s with regs := t.regs, ports := t.ports, lanes := t.lanes, out := t.out } :=
  (h.mono (by decide)).eq_links.trans (by rw [h.frees, h.hll])

theorem State.Alters.eq_hostSent (h : s.Alters t [.regs, .hll, .lanes, .out] P) :
    t = { s with regs := t.regs, hll := t.hll, lanes := t.lanes, out := t.out } :=
  (h.mono (by decide)).eq_links.trans (by rw [h.frees, h.ports])

theorem State.Alters.any {F : List Field} (h : s.Alters t F P) : s.Alters t F AnyReg := h.mono (fun _ h => h) fun _ _ => trivial

end

/-! ### The state of a link, and its width (R98, R105) -/

theorem hlinkOf_val (h : HLink) : hlinkOf h.val = h := Fin.ext (Nat.mod_eq_of_lt h.isLt)

theorem hlState_val (s : State) (h : HLink) : s.hlState h.val = s.llState (.host h) := by
  rw [State.hlState, hlinkOf_val]

section
variable (s : State) (l : LinkId)

theorem llState_setLink {st : Nat} (h : st < 16) : (s.setLink l st).llState l = st :=
  (rf_wf_same _ _ _ _ _ (by decide)).trans (Nat.mod_eq_of_lt h)

theorem width_setLink (st : Nat) : (s.setLink l st).rf (.llStatus l) 15 11 = s.rf (.llStatus l) 15 11 :=
  rf_wf_field _ _ _ _ _ _ _ (by decide) (by decide)

theorem width_showWidth (w : Nat) : (s.showWidth l w).rf (.llStatus l) 15 11 = w % 32 := by
  rw [State.showWidth, rf_wf_same _ _ _ _ _ (by decide)]
  norm_num

theorem llState_showWidth (w : Nat) : (s.showWidth l w).llState l = s.llState l :=
  rf_wf_field _ _ _ _ _ _ _ (by decide) (by decide)

@[simp] theorem port_wb (r : Reg) (i : Nat) (b : Bool) (p : Port) : (s.wb r i b).port p = s.port p := rfl
@[simp] theorem hl_wb (r : Reg) (i : Nat) (b : Bool) (h : HLink) : (s.wb r i b).hl h = s.hl h := rfl
@[simp] theorem port_setLink (st : Nat) (p : Port) : (s.setLink l st).port p = s.port p := rfl
@[simp] theorem port_showWidth (w : Nat) (p : Port) : (s.showWidth l w).port p = s.port p := rfl
@[simp] theorem hl_setLink (st : Nat) (h : HLink) : (s.setLink l st).hl h = s.hl h := rfl
@[simp] theorem hl_showWidth (w : Nat) (h : HLink) : (s.showWidth l w).hl h = s.hl h := rfl

/-- What changes only LL_STATUS of a link. -/
abbrev LlStatusAt (a : Nat) : Prop := a = (Reg.llStatus l).addr

theorem setLink_alters (st : Nat) : s.Alters (s.setLink l st) [.regs] (LlStatusAt l) := alters_wf _ _ _ rfl
theorem showWidth_alters (w : Nat) : s.Alters (s.showWidth l w) [.regs] (LlStatusAt l) := alters_wf _ _ _ rfl

theorem trainLink_alters : s.Alters (s.trainLink l) [.regs, .lanes, .out] AnyLaneAt := foldl_any trainLane_onLane _ _

theorem not_anyLaneAt_llStatus : ¬ AnyLaneAt (Reg.llStatus l).addr := not_anyLaneAt_link l 8 rfl
theorem not_anyLaneAt_llCtrl : ¬ AnyLaneAt (Reg.llCtrl l).addr := not_anyLaneAt_link l 0 rfl

end

/-! ### A port trains, and comes up -/

section
variable (s : State) (p : Port)

/-- A port that trains (R61, R99). -/
structure State.PortTrains (s t : State) (p : Port) : Prop where
  same : s.Alters t [.regs, .ports, .lanes, .out] (fun a => AnyLaneAt a ∨ LlStatusAt (.port p) a)
  state : t.portState p = 1
  width : t.rf (.llStatus (.port p)) 15 11 = s.rf (.llStatus (.port p)) 15 11
  port : t.port p = { s.port p with trainAt := s.clk }
  other : ∀ q, q ≠ p → t.port q = s.port q

theorem trainPort_trains : s.PortTrains (s.trainPort p) p := by
  obtain ⟨u, hu⟩ : ∃ u, u = s.modPort p (fun x => { x with trainAt := s.clk }) := ⟨_, rfl⟩
  have hx : s.trainPort p = (u.setLink (.port p) 1).trainLink (.port p) := by rw [hu]; rfl
  have hsu : s.Alters u [.ports] NoReg := hu ▸ alters_modPort _ _
  have hv := setLink_alters u (.port p) 1
  have ht := trainLink_alters (u.setLink (.port p) 1) (.port p)
  have hp : ∀ q, (s.trainPort p).port q = u.port q := fun q => by rw [hx, port_of_ports ht.ports, port_setLink]
  refine ⟨?_, ?_, ?_, ?_, fun q hq => ?_⟩
  · rw [hx]
    exact ((hsu.mono (by decide) fun _ => False.elim).trans (hv.mono (by decide) fun _ => .inr)).trans
      (ht.mono (by decide) fun _ => .inl)
  · rw [hx]
    exact (ht.rf (not_anyLaneAt_llStatus _) 3 0).trans (llState_setLink u _ (by decide))
  · rw [hx, ht.rf (not_anyLaneAt_llStatus _), width_setLink, hsu.rf id]
  · rw [hp, hu, port_modPort_same]
  · rw [hp, hu, port_modPort_other _ _ hq]

theorem portHelloTimeout_spec (h2 : s.portState p = 2) (hd : (s.port p).helloAt + us 1000 < s.clk) :
    ∃ t, s.portHelloTimeout p = t ∧ s.Alters t [.regs, .ports, .lanes, .out] AnyReg ∧ t.portState p = 1 ∧
    (t.port p).trainAt = s.clk ∧ (t.port p).replay = [] ∧ t.rf (.llStatus (.port p)) 15 11 = 0 := by
  obtain ⟨u, hu⟩ : ∃ u, u = (s.modPort p PortSt.cleared).showWidth (.port p) 0 := ⟨_, rfl⟩
  have hsu : s.Alters u [.regs, .ports] AnyReg := by
    rw [hu]
    exact State.Alters.trans (F := [.regs, .ports]) (P := AnyReg) (alters_modPort _ _)
      ((showWidth_alters _ _ _).any.mono)
  have hk := trainPort_trains u p
  have hpu : u.port p = (s.port p).cleared := by rw [hu, port_showWidth, port_modPort_same]
  refine ⟨u.trainPort p, ?_, (hsu.mono).trans hk.same.any, hk.state, ?_, ?_, ?_⟩
  · rw [State.portHelloTimeout, if_pos ⟨h2, hd⟩, ← hu]
  · rw [hk.port, hsu.clk]
  · rw [hk.port, hpu]
    rfl
  · rw [hk.width, hu, width_showWidth]

/-- The record of a port whose link-up begins (R99). -/
def State.upPort (s : State) (p : Port) (x : PortSt) : PortSt := { x.cleared.restream with
  use := s.chosenLanes (.port p), helloAt := s.clk, helloSeq := some 0, pools := s.reg (.llCredit p), quietAt := s.clk }

theorem portLinkUp_spec (h1 : s.portState p = 1) (hm : s.mayLinkUp (.port p) (s.port p).trainAt = true) :
    ∃ t m, s.portLinkUp p = t ∧ s.Alters t [.regs, .ports] AnyReg ∧ t.portState p = 2 ∧
    t.rf (.llStatus (.port p)) 15 11 = (s.chosenLanes (.port p)).length % 32 ∧
    t.port p = { s.upPort p (s.port p) with txLocal := [m] } := by
  obtain ⟨u, hu⟩ : ∃ u, u = s.modPort p (s.upPort p) := ⟨_, rfl⟩
  obtain ⟨v, hv⟩ : ∃ v, v = ((u.showWidth (.port p) (s.chosenLanes (.port p)).length).setLink (.port p) 2).wb
    (.llPeerInfo (.port p)) 0 false := ⟨_, rfl⟩
  have hx : s.portLinkUp p = v.queueHello p := by
    rw [State.portLinkUp, if_pos ⟨h1, hm⟩, hv, hu]
    rfl
  have hsv : s.Alters v [.regs, .ports] AnyReg := by
    rw [hv, hu]
    exact State.Alters.trans (F := [.regs, .ports]) (P := AnyReg) ((alters_modPort _ _).trans ((showWidth_alters _ _ _).any.mono))
      (((setLink_alters _ _ _).any.mono).trans (alters_wb _ _ trivial))
  have hpv : v.port p = s.upPort p (s.port p) := by rw [hv, hu, port_wb, port_setLink, port_showWidth, port_modPort_same]
  have hadr : (Reg.llStatus (.port p)).addr ≠ (Reg.llPeerInfo (.port p)).addr := addr_ne_of_off 0x1008 0x1038 rfl rfl
  refine ⟨v.queueHello p, v.hello p, hx, hsv.trans (alters_modPort _ _), ?_, ?_, ?_⟩
  · exact (congrArg (fun s => State.rf s (.llStatus (.port p)) 3 0) hv).trans
      ((rf_wb_other _ _ _ _ _ _ _ hadr).trans (llState_setLink _ _ (by decide)))
  · rw [State.queueHello, rf_modPort, hv, rf_wb_other _ _ _ _ _ _ _ hadr, width_setLink, width_showWidth]
  · rw [State.queueHello, port_modPort_same, hpv]
    rfl

theorem quarantineHello_spec (h5 : s.portState p = 5) (hd : (s.port p).quarAt + us 100000 ≤ s.clk) :
    ∃ t, doQuarantineHello p s = t ∧ s.Alters t [.ports] NoReg ∧ (t.port p).txLocal = (s.port p).txLocal ++ [s.hello p] ∧
    (t.port p).quarAt = s.clk := by
  obtain ⟨u, hu⟩ : ∃ u, u = s.modPort p (fun x => { x with quarAt := s.clk }) := ⟨_, rfl⟩
  have hpu : u.port p = { s.port p with quarAt := s.clk } := hu ▸ port_modPort_same ..
  have hh : u.hello p = s.hello p := by
    rw [State.hello, hpu, hu]
    rfl
  have hpt : (u.queueHello p).port p = { u.port p with txLocal := (u.port p).txLocal ++ [u.hello p] } := port_modPort_same ..
  refine ⟨u.queueHello p, ?_, ?_, ?_, ?_⟩
  · rw [doQuarantineHello, if_pos ⟨h5, hd⟩, hu]
  · exact State.Alters.trans (F := [.ports]) (P := NoReg) (hu ▸ alters_modPort _ _) (alters_modPort _ _)
  · rw [hpt, hpu, hh]
  · rw [hpt, hpu]

end

/-! ### A host link trains, and comes up -/

section
variable (s : State) (h : HLink)

/-- What a host link has received, as of an earlier link-up. -/
def HostTl.aged (x : HostTl) : HostTl := { x with
  rxReq := x.rxReq.map (fun t => { t with old := true }), rxRsp := x.rxRsp.map (fun t => { t with old := true }) }

/-- A HELLO leaves a host link (R95). -/
theorem sendHello_spec (hs : (s.hl h).sinceAck < 65535) : ∃ b, s.Alters (s.sendHello h) [.hll, .lanes, .out] NoReg ∧
    sentPackets (s.sendHello h).out = (h, b) :: sentPackets s.out ∧
    ({ s.hl h with helloTx := s.clk } : HostLl).Sent ((s.sendHello h).hl h) := by
  obtain ⟨b, u, hu, ht⟩ : ∃ b u, s.HostSends u h [(h, b)] ∧ s.sendHello h = u.modHl h (fun x => { x with helloTx := s.clk }) := by
    unfold State.sendHello
    extract_lets c w
    exact ⟨_, _, sendPacket_sends s h 0xB 0 (beBytes 16 w.toNat) hs, rfl⟩
  refine ⟨b, ?_, ?_, ?_⟩
  · rw [ht]
    exact (hu.same.mono).trans (alters_modHl _ _)
  · rw [ht]
    exact hu.packets
  · have hl := hu.link
    rw [ht, hl_modHl_same, hl]
    rfl

theorem trainHost_spec (h7 : s.hlState h.val ≠ 7) : ∃ t, s.trainHost h = t ∧ s.Alters t [.regs, .hll, .lanes, .out] AnyReg ∧
    t.hlState h.val = 1 ∧ (t.hl h).trainAt = s.clk ∧ t.rf (.llStatus (.host h)) 15 11 = 0 := by
  obtain ⟨u, hu⟩ : ∃ u, u = s.modHl h (fun x => { x with trainAt := s.clk, hello := false, seen := false, use := [], rxPkt := none }) :=
    ⟨_, rfl⟩
  obtain ⟨v, hv⟩ : ∃ v, v = (u.setLink (.host h) 1).showWidth (.host h) 0 := ⟨_, rfl⟩
  have hsu : s.Alters u [.regs, .hll, .lanes, .out] AnyReg := hu ▸ alters_modHl _ _
  have hst : u.hlState h.val = s.hlState h.val := by rw [hu]; rfl
  have hx : s.trainHost h = v.trainLink (.host h) := by
    unfold State.trainHost
    rw [if_neg (by simp [h7]), ← hu]
    extract_lets w x
    rw [show x = v from hv ▸ congrArg (fun x => State.showWidth x (.host h) 0) (if_neg (hst ▸ h7))]
  have hv1 : v.Alters (v.trainLink (.host h)) [.regs, .lanes, .out] AnyLaneAt := trainLink_alters _ _
  have huv : u.Alters v [.regs, .hll, .lanes, .out] AnyReg := by
    rw [hv]
    exact State.Alters.trans (F := [.regs, .hll, .lanes, .out]) (P := AnyReg) ((setLink_alters _ _ _).any.mono)
      ((showWidth_alters _ _ _).any.mono)
  refine ⟨_, hx, (hsu.trans huv).trans hv1.any.mono, ?_, ?_, ?_⟩
  · rw [hlState_val, State.llState, hv1.rf (not_anyLaneAt_llStatus _)]
    exact (congrArg (fun s => State.llState s (.host h)) hv).trans
      ((llState_showWidth _ _ _).trans (llState_setLink _ _ (by decide)))
  · rw [hl_of_hll hv1.hll, hv, hl_showWidth, hl_setLink, hu, hl_modHl_same]
  · rw [hv1.rf (not_anyLaneAt_llStatus _), hv, width_showWidth]

theorem hostHelloTimeout_spec (h2 : s.hlState h.val = 2) (hd : (s.hl h).helloAt + us 1000 < s.clk) :
    s.hostHelloTimeout h = s.trainHost h := by
  rw [State.hostHelloTimeout, State.hostHello, h2, decide_eq_true hd]
  rfl

theorem hostHelloPeriodic_spec (hh : s.hostHello h = true) (hd : (s.hl h).helloTx + us 1 ≤ s.clk) :
    doHostHelloPeriodic h s = s.sendHello h := if_pos ⟨hh, hd⟩

/-- The record of a host link whose link-up begins (R99). -/
def State.upHost (s : State) (h : HLink) (x : HostLl) : HostLl := { x.fresh s.clk with
  use := s.chosenLanes (.host h), hello := true, ann := s.reg (.llCreditHost h), sentTo := s.charNow }

theorem hostLinkUp_spec (h1 : s.hlState h.val = 1) (hm : s.mayLinkUp (.host h) (s.hl h).trainAt = true) :
    ∃ t b, s.hostLinkUp h = t ∧ s.Alters t [.regs, .hll, .ht, .lanes, .out] AnyReg ∧ t.hlState h.val = 2 ∧
    sentPackets t.out = (h, b) :: sentPackets s.out ∧
    (t.hl h).helloTx = s.clk ∧ ∃ x, t.hl h = x ∧ x.use = s.chosenLanes (.host h) ∧ x.next = 0 ∧ x.lastAcc = 0xFFFF ∧ x.used = {} ∧
    x.hello = true := by
  obtain ⟨u, hu⟩ : ∃ u, u = s.modTl h.val HostTl.aged := ⟨_, rfl⟩
  obtain ⟨v, hv⟩ : ∃ v, v = (u.modHl h (s.upHost h)).showWidth (.host h) (s.chosenLanes (.host h)).length := ⟨_, rfl⟩
  obtain ⟨w, hw⟩ : ∃ w, w = v.sendRows h (alignSet (s.chosenLanes (.host h)).length) := ⟨_, rfl⟩
  have hx : s.hostLinkUp h = (w.setLink (.host h) 2).sendHello h := by
    unfold State.hostLinkUp
    extract_lets st use ann old u' v' w'
    rw [if_pos ⟨.inl h1, hm⟩, if_pos h1, hw, hv, hu]
    rfl
  have hsu : s.Alters u [.regs, .hll, .ht, .lanes, .out] AnyReg := hu ▸ .put_ht _ _
  have huv : u.Alters v [.regs, .hll, .ht, .lanes, .out] AnyReg := by
    rw [hv]
    exact State.Alters.trans (F := [.regs, .hll, .ht, .lanes, .out]) (P := AnyReg) (alters_modHl _ _)
      ((showWidth_alters _ _ _).any.mono)
  have hvw : v.HostRows w h := hw ▸ sendRows_rows _ _ _
  have hsl := setLink_alters w (.host h) 2
  have hlv : v.hl h = s.upHost h (s.hl h) := by
    rw [hv, hl_showWidth, hl_modHl_same, hl_of_hll (hu ▸ rfl : u.hll = s.hll)]
  have hack : ((w.setLink (.host h) 2).hl h).sinceAck < 65535 := by
    rw [hl_setLink, hvw.ack, hlv]
    exact Nat.zero_lt_succ _
  obtain ⟨b, ha, hb, hl⟩ := sendHello_spec (w.setLink (.host h) 2) h hack
  have hsw : s.Alters (w.setLink (.host h) 2) [.regs, .hll, .ht, .lanes, .out] AnyReg :=
    ((hsu.trans huv).trans (hvw.sends.same.any.mono)).trans hsl.any.mono
  have hlw := hvw.sends.link
  rw [hlv] at hlw
  rw [hl_setLink] at hl
  refine ⟨_, b, hx, hsw.trans ha.any.mono, ?_, ?_, by rw [hl, hsw.clk], _, hl, ?_, ?_, ?_, ?_, ?_⟩
  · rw [hlState_val, State.llState, ha.rf id]
    exact llState_setLink _ _ (by decide)
  · have ho : (w.setLink (.host h) 2).out = w.out := hsl.out
    rw [hb, ho, hvw.sends.packets, hv, hu]
    rfl
  all_goals rw [hlw]; rfl

end

/-- Settles O17. -/
theorem linkUpBegins : Obligations.LinkUpBegins := by
  unfold Obligations.LinkUpBegins
  refine ⟨?_, ?_, ?_, ?_, ?_, ?_⟩
  · intro s p dt hc hl h1 hm
    obtain ⟨t, m, ht, ha, h2, hw, hp⟩ := portLinkUp_spec (s.elapse dt) p h1 hm
    exact ⟨t, act_of_alters hl hc ht ha, h2, hw, by rw [hp]; rfl, by rw [hp]; rfl, by rw [hp]; rfl, by rw [hp]; rfl, by rw [hp]; rfl,
      by rw [hp]; rfl, ha.eq_portRegs⟩
  · intro s h dt hc hl h1 hm
    obtain ⟨t, b, ht, ha, h2, hb, h9, -, rfl, h3, h4, h5, h6, h7⟩ := hostLinkUp_spec (s.elapse dt) h h1 hm
    exact ⟨t, act_of_alters hl hc ht ha, h2, h3, h4, h5, h6, h7, h9, by rw [hb]; rfl, (ha.mono (by decide)).eq_linkWork.trans (by rw [ha.frees, ha.ports, ha.epochSeen])⟩
  · intro s p dt hc hl h2 hd
    obtain ⟨t, ht, ha, h1, h3, h4, h5⟩ := portHelloTimeout_spec (s.elapse dt) p h2 hd
    exact ⟨t, act_of_alters hl hc ht ha, h1, h3, h4, h5, ha.eq_portSent⟩
  · intro s h dt hc hl h2 hd
    obtain ⟨t, ht, ha, h1, h3, h4⟩ := trainHost_spec (s.elapse dt) h (by rw [h2]; decide)
    exact ⟨t, act_of_alters hl hc ((hostHelloTimeout_spec _ h h2 hd).trans ht) ha, h1, h3, h4, ha.eq_hostSent⟩
  · intro s p dt hc hl h5 hd
    obtain ⟨t, ht, ha, h1, h2⟩ := quarantineHello_spec (s.elapse dt) p h5 hd
    exact ⟨t, act_of_alters hl hc ht ha, h1, h2,
      (ha.mono (by decide)).eq_links.trans (by rw [ha.regs, ha.lanes, ha.out, ha.frees, ha.hll])⟩
  · intro s h dt hc hl hh hd hs
    obtain ⟨b, ha, hb, hk⟩ := sendHello_spec (s.elapse dt) h hs
    exact ⟨_, act_of_alters hl hc (hostHelloPeriodic_spec _ h hh hd) ha, by rw [hk], by rw [hb]; rfl, by rw [hb]; rfl,
      (ha.mono (by decide)).eq_links.trans (by rw [ha.regs, ha.ports, ha.frees])⟩

end Sys2Proof.Machine
end

section
/-! PROOFS. LinksRetrain (R103 to R105). -/

namespace Sys2Proof.Machine

-- The proofs are elaborated one after another: in parallel their threads' stacks need more memory than a compile may have.
set_option Elab.async false

/-! ### Lanes make their exit (R104, steps 2 and 3) -/

/-- What a retrain makes of one lane. -/
def State.exitOne (t : State) (n : LaneId) : State :=
  let t := if t.laneState n = 2 ∨ (t.laneState n = 3 ∧ (t.lane n).txIdle = false) then t.laneIdle n else t
  if t.laneState n = 3 ∧ t.rb (.laneCtrl n) 5 = false then t.setLane n 4 else t

theorem lanesExit_eq (s : State) (l : LinkId) : s.lanesExit l = (linkLanes l).foldl State.exitOne s := rfl

/-- The state that a retrain leaves a lane in. -/
def State.exitState (s : State) (n : LaneId) : Nat :=
  if s.laneState n = 2 ∨ s.laneState n = 3 then (if s.rb (.laneCtrl n) 5 = true then 3 else 4) else s.laneState n

section
variable (s : State) (n : LaneId)

theorem rb_of_reg {s t : State} {q : Reg} (h : t.reg q = s.reg q) (i : Nat) : t.rb q i = s.rb q i := congrArg (bit · i) h

theorem laneIdle_ctrl : (s.laneIdle n).reg (.laneCtrl n) = s.reg (.laneCtrl n) := by
  obtain ⟨u, hu, ht⟩ := laneIdle_eq s n
  rw [ht, State.laneHold, reg_modLane, reg_setLane_ctrl, hu.reg]

/-- The first half: the idle entry. -/
theorem exitOne_idle : ∃ u, s.OnLane u n [.regs, .lanes, .out] ∧ u.reg (.laneCtrl n) = s.reg (.laneCtrl n) ∧
    u.laneState n = (if s.laneState n = 2 then 3 else s.laneState n) ∧
    u.rf (.laneStatus n) 63 4 = s.rf (.laneStatus n) 63 4 ∧
    s.exitOne n = if u.laneState n = 3 ∧ u.rb (.laneCtrl n) 5 = false then u.setLane n 4 else u := by
  have hi := laneIdle_idled s n
  by_cases h : s.laneState n = 2 ∨ (s.laneState n = 3 ∧ (s.lane n).txIdle = false)
  · refine ⟨s.laneIdle n, hi.onLane, laneIdle_ctrl s n, ?_, hi.rest, ?_⟩
    · rw [hi.state]
      rcases h with h | ⟨h, -⟩ <;> rw [h] <;> rfl
    · unfold State.exitOne
      rw [if_pos h]
  · refine ⟨s, .refl s n, rfl, (if_neg fun e => h (.inl e)).symm, rfl, ?_⟩
    unfold State.exitOne
    rw [if_neg h]

theorem exitOne_onLane : s.OnLane (s.exitOne n) n [.regs, .lanes, .out] := by
  obtain ⟨u, hu, -, -, -, ht⟩ := exitOne_idle s n
  rw [ht]
  exact .ite (hu.trans (setLane_onLane u n 4)) hu

theorem laneState_exitOne : (s.exitOne n).laneState n = s.exitState n := by
  obtain ⟨u, hu, hc, hs, -, ht⟩ := exitOne_idle s n
  have h4 := laneState_setLane u n (st := 4) (by decide)
  have hb : u.rb (.laneCtrl n) 5 = s.rb (.laneCtrl n) 5 := rb_of_reg hc 5
  rw [ht, hb, hs, State.exitState]
  by_cases h2 : s.laneState n = 2 <;> by_cases h3 : s.laneState n = 3 <;> cases s.rb (.laneCtrl n) 5 <;> simp_all

theorem rf_exitOne : (s.exitOne n).rf (.laneStatus n) 63 4 = s.rf (.laneStatus n) 63 4 := by
  obtain ⟨u, -, -, -, hr, ht⟩ := exitOne_idle s n
  rw [ht, ← hr]
  split
  · exact rf_setLane_status _ _ _ _ _ (by decide) (by decide)
  · rfl

end

/-- Locks lie above the state (R80). -/
theorem locks_of_rest {s t : State} {n : LaneId} (h : t.rf (.laneStatus n) 63 4 = s.rf (.laneStatus n) 63 4) :
    t.rf (.laneStatus n) 12 10 = s.rf (.laneStatus n) 12 10 := by
  simp only [State.rf, fld] at h ⊢
  omega

/-- What of its lanes a link's exit leaves. -/
structure State.Exits (s t : State) (l : LinkId) : Prop where
  same : s.Alters t [.regs, .lanes, .out] AnyLaneAt
  state : ∀ n ∈ linkLanes l, t.laneState n = s.exitState n
  locks : ∀ n ∈ linkLanes l, t.rf (.laneStatus n) 12 10 = s.rf (.laneStatus n) 12 10

theorem exitState_of_same {s t : State} {n : LaneId} (h : s.SameLane t n) : t.exitState n = s.exitState n := by
  rw [State.exitState, State.exitState, h.laneState, h.rb_ctrl]

theorem State.SameLane.status {s t : State} {n : LaneId} (h : s.SameLane t n) : t.reg (.laneStatus n) = s.reg (.laneStatus n) :=
  h.reg _ (by simp [laneRegs])

theorem lanesExit_exits (s : State) (l : LinkId) : s.Exits (s.lanesExit l) l := by
  rw [lanesExit_eq]
  refine ⟨foldl_any exitOne_onLane _ _, fun n hn => ?_, fun n hn => ?_⟩ <;>
    obtain ⟨u, -, h1, h2⟩ := foldl_lane exitOne_onLane (linkLanes l) s hn (linkLanes_nodup l)
  · rw [h2.laneState, laneState_exitOne, exitState_of_same h1]
  · rw [State.rf, h2.status]
    refine (locks_of_rest (rf_exitOne u n)).trans ?_
    rw [State.rf, State.rf, h1.status]

/-- Lanes whose registers stay. -/
theorem exitState_of_alters {s t : State} {F : List Field} {P : Nat → Prop} (h : s.Alters t F P) {n : LaneId}
    (hP : ∀ a, LaneAt n a → ¬ P a) : t.exitState n = s.exitState n := by
  have h1 : t.laneState n = s.laneState n := h.rf (hP _ (at_laneStatus n)) 3 0
  rw [State.exitState, State.exitState, h1, h.rb (hP _ (at_laneCtrl n))]

/-! ### A link enters a retrain -/

/-- The fields that a retrain changes. -/
def retrainFields : List Field := [.regs, .lanes, .out, .ports, .hll, .ht, .eqs, .ftPosted, .tack]

/-- The registers that a retrain changes. -/
def RetrainAt (l : LinkId) (a : Nat) : Prop := AnyLaneAt a ∨ LlStatusAt l a ∨ FaultAt (linkBlock l) a

theorem laneAt_not_retrain {l : LinkId} {n : LaneId} {a : Nat} (h : LaneAt n a) : ¬ (LlStatusAt l a ∨ FaultAt (linkBlock l) a) := by
  rintro (e | e)
  · exact not_laneAt_llStatus n l (e ▸ h)
  · exact not_faultAt_of_lane h _ e

/-- Registers of a link at two places of its block are two registers. -/
theorem link_reg_ne {l : LinkId} {q r : Reg} (i j : Nat) (hq : q.addr = blockBase (linkBlock l) + linkBase l + i)
    (hr : r.addr = blockBase (linkBlock l) + linkBase l + j) (h : i ≠ j := by decide) : q.addr ≠ r.addr := by
  rw [hq, hr]
  omega

theorem not_retrainAt_llCtrl (l : LinkId) : ¬ RetrainAt l (Reg.llCtrl l).addr := by
  rintro (e | e | e)
  · exact not_anyLaneAt_llCtrl l e
  · exact link_reg_ne 0 8 rfl rfl (by decide) e
  · exact not_faultAt_link _ l 0 rfl (by decide) e

/-- What a retrain that begins leaves. -/
structure State.Retrains (s t : State) (l : LinkId) : Prop where
  same : s.Alters t retrainFields (RetrainAt l)
  state : t.llState l = 4
  count : t.rf (.llStatus l) 39 32 = min 255 (s.rf (.llStatus l) 39 32 + 1)
  lanes : ∀ n ∈ linkLanes l, t.laneState n = s.exitState n
  locks : ∀ n ∈ linkLanes l, t.rf (.laneStatus n) 12 10 = s.rf (.laneStatus n) 12 10
  port : ∀ p, t.port p = s.port p
  link : ∀ h, t.hl h = s.hl h

section
variable (s : State) (l : LinkId)

theorem noteRetrain_alters (times : List Nat) :
    s.Alters (s.noteRetrain l times) faultFields (fun a => LlStatusAt l a ∨ FaultAt (linkBlock l) a) := by
  unfold State.noteRetrain
  extract_lets u
  have hu : s.Alters u faultFields (fun a => LlStatusAt l a ∨ FaultAt (linkBlock l) a) := alters_bump _ _ _ (.inl rfl)
  refine .ite (hu.trans ?_) hu
  cases l <;> exact (fault_alters u _ _ _ _).mono (fun _ h => h) fun _ => .inr

theorem rf_noteRetrain (times : List Nat) : (s.noteRetrain l times).rf (.llStatus l) 39 32 = min 255 (s.rf (.llStatus l) 39 32 + 1) := by
  have h : (s.bump (.llStatus l) 39 32 1).rf (.llStatus l) 39 32 = min 255 (s.rf (.llStatus l) 39 32 + 1) := by
    rw [rf_bump_same _ _ _ _ _ (by decide), min_comm]
    norm_num
  unfold State.noteRetrain
  extract_lets u
  split
  · exact (rf_fault u _ _ _ _ (not_faultAt_link _ l 8 rfl) _ _).trans h
  · exact h

theorem enterRetrain (times : List Nat) : s.Retrains (((s.noteRetrain l times).setLink l 4).lanesExit l) l := by
  obtain ⟨u, hu⟩ : ∃ u, u = s.noteRetrain l times := ⟨_, rfl⟩
  obtain ⟨v, hv⟩ : ∃ v, v = u.setLink l 4 := ⟨_, rfl⟩
  have hsu : s.Alters u faultFields (fun a => LlStatusAt l a ∨ FaultAt (linkBlock l) a) := hu ▸ noteRetrain_alters s l times
  have huv : u.Alters v [.regs] (LlStatusAt l) := hv ▸ setLink_alters u l 4
  have hsv : s.Alters v faultFields (fun a => LlStatusAt l a ∨ FaultAt (linkBlock l) a) :=
    hsu.trans (huv.mono (by decide) fun _ => .inl)
  have hx := lanesExit_exits v l
  rw [← hu, ← hv]
  have hll := not_anyLaneAt_llStatus l
  refine ⟨(hsv.mono (by decide) fun _ => .inr).trans (hx.same.mono (by decide) fun _ => .inl), ?_, ?_, fun n hn => ?_,
    fun n hn => ?_, fun p => ?_, fun h => ?_⟩
  · exact (hx.same.rf hll 3 0).trans (hv ▸ llState_setLink u l (by decide))
  · rw [hx.same.rf hll, hv, State.setLink, rf_wf_field _ _ _ _ _ _ _ (by decide) (by decide), hu, rf_noteRetrain]
  · rw [hx.state n hn]
    exact exitState_of_alters hsv fun _ => laneAt_not_retrain
  · rw [hx.locks n hn]
    exact hsv.rf (laneAt_not_retrain (at_laneStatus n)) 12 10
  · exact port_of_ports (hx.same.ports.trans hsv.ports) p
  · exact hl_of_hll (hx.same.hll.trans hsv.hll) h

end

/-! ### Ports -/

section
variable (s : State) (p : Port)

theorem sendPortNotice_sends (k next : Nat) : ∃ new, s.PortSends (s.sendPortNotice k p next) p new := by
  induction k generalizing s with
  | zero => exact ⟨_, sendIdle_sends s p next⟩
  | succ k ih =>
    unfold State.sendPortNotice
    extract_lets x
    split
    · exact ⟨_, sendIdle_sends s p next⟩
    · obtain ⟨new, h⟩ := ih (s.sendIdle p 0)
      exact ⟨_, (sendIdle_sends s p 0).trans h⟩

/-- The notice of a retrain, where the port can send. -/
theorem notice_sends (next : Nat) : ∃ new, s.PortSends (if s.maySend p then s.sendPortNotice 160 p next else s) p new := by
  split
  · exact sendPortNotice_sends s p 160 next
  · exact ⟨_, .refl s p⟩

theorem State.PortSends.exitState {s t : State} {p : Port} {new} (h : s.PortSends t p new) (n : LaneId) :
    t.exitState n = s.exitState n := exitState_of_alters h.same fun _ _ => id

/-- When the retrains of the last second began, that of now among them (R106). -/
def State.retrainTimes (s : State) (old : List Nat) : List Nat := old.filter (fun t => s.clk < t + us 1000000) ++ [s.clk]

/-- A port that enters a retrain (R104). -/
structure State.PortRetrains (s t : State) (p : Port) : Prop where
  same : s.Alters t retrainFields (RetrainAt (.port p))
  state : t.portState p = 4
  retrain : (t.port p).retrain = some ⟨s.clk, s.clk, s.clk, s.portState p, false⟩
  resend : (t.port p).resend = none
  count : t.rf (.llStatus (.port p)) 39 32 = min 255 (s.rf (.llStatus (.port p)) 39 32 + 1)
  lanes : ∀ n ∈ linkLanes (.port p), t.laneState n = s.exitState n
  locks : ∀ n ∈ linkLanes (.port p), t.rf (.laneStatus n) 12 10 = s.rf (.laneStatus n) 12 10

theorem retrainPort_retrains (h : s.portState p = 2 ∨ s.portState p = 3 ∨ s.portState p = 5) : s.PortRetrains (s.retrainPort p) p := by
  obtain ⟨u, hu⟩ : ∃ u, u = if s.maySend p then s.sendPortNotice 160 p 15 else s := ⟨_, rfl⟩
  obtain ⟨new, hsu⟩ : ∃ new, s.PortSends u p new := hu ▸ notice_sends s p 15
  obtain ⟨times, htimes⟩ : ∃ times, times = u.retrainTimes (u.port p).retrains := ⟨_, rfl⟩
  obtain ⟨v, hv, ht⟩ : ∃ v, v = u.modPort p (fun x => { x with
      retrain := some ⟨u.clk, u.clk, u.clk, s.portState p, false⟩, resend := none, retrains := times }) ∧
      s.retrainPort p = ((v.noteRetrain (.port p) times).setLink (.port p) 4).lanesExit (.port p) := by
    refine ⟨_, rfl, ?_⟩
    unfold State.retrainPort
    extract_lets st w old r x
    rw [if_neg (show ¬ (st = 4 ∧ _) from fun e => by rcases h with h | h | h <;> exact absurd (h.symm.trans e.1) (by decide)),
      if_neg (show ¬ (st ≠ 2 ∧ st ≠ 3 ∧ st ≠ 5) from fun e => h.elim e.1 fun h => h.elim e.2.1 e.2.2)]
    rw [htimes, hu]
    rfl
  have huv : u.Alters v [.ports] NoReg := hv ▸ alters_modPort _ _
  have hsv : s.Alters v [.lanes, .out, .ports] NoReg := hsu.same.trans huv.mono
  have he := enterRetrain v (.port p) times
  have hpt : (s.retrainPort p).port p = { u.port p with
      retrain := some ⟨u.clk, u.clk, u.clk, s.portState p, false⟩, resend := none, retrains := times } := by
    rw [ht, he.port, hv, port_modPort_same]
  rw [← ht] at he
  refine ⟨(hsv.mono (by decide) fun _ => False.elim).trans he.same, he.state, ?_, by rw [hpt], ?_, fun n hn => ?_, fun n hn => ?_⟩
  · rw [hpt, hsu.same.clk]
  · rw [he.count, hsv.rf id]
  · rw [he.lanes n hn]
    exact exitState_of_alters hsv fun _ _ => id
  · rw [he.locks n hn, hsv.rf id]

theorem mem_linkLanes_port (l : Fin 4) : LaneId.net p l ∈ linkLanes (.port p) := List.mem_map.mpr ⟨l, List.mem_finRange l, rfl⟩

/-- The choice of retrain that a trigger of the lanes' record makes. -/
theorem portTrigger_plain (tr : RetrainTrigger) (h : tr = .farNotice ∨ tr = .widthChanged) : s.portTrigger p tr = s.retrainPort p := by
  rcases h with rfl | rfl <;> rfl

theorem portTrigger_returned (l : Nat) (h : s.portState p = 2 ∨ s.portState p = 3 ∨ s.portState p = 5)
    (h2 : s.laneState (linkLane (.port p) l) = 2) (hu : (s.port p).use.contains (l % 4) = false) :
    s.portTrigger p (.laneReturned l) = s.retrainPort p := if_pos ⟨h2, hu, by omega⟩

theorem portLaneLost_spec (l : Nat) (h : s.portState p = 2 ∨ s.portState p = 3 ∨ s.portState p = 5)
    (hu : (s.port p).use.contains l = true) (hr : (s.port p).retrain = none) : ∃ t, s.portTrigger p (.laneLost l) = t ∧
    s.Alters t retrainFields (RetrainAt (.port p)) ∧ t.portState p = 4 ∧
    (t.port p).retrain = some ⟨s.clk, s.clk, s.clk, s.portState p, false⟩ ∧
    t.rf (.laneStatus (linkLane (.port p) l)) 12 10 = 0 := by
  obtain ⟨u, hsu⟩ : ∃ u, u = s.wf (.laneStatus (linkLane (.port p) l)) 12 10 0 := ⟨_, rfl⟩
  have ha : s.OnLane u (linkLane (.port p) l) [.regs] := hsu ▸ onLane_wf _ _ _ (at_laneStatus _)
  have hst : u.portState p = s.portState p := ha.llState _
  have hp : u.port p = s.port p := port_of_ports ha.same.ports p
  have hk := retrainPort_retrains u p (by rw [hst]; exact h)
  refine ⟨u.retrainPort p, ?_, (ha.any.mono (by decide) fun _ => .inl).trans hk.same, hk.state, ?_, ?_⟩
  · unfold State.portTrigger State.portLaneLost
    simp only [hu, Bool.not_true, Bool.false_eq_true, if_false]
    rw [← hsu, hp, hr]
  · rw [hk.retrain, hst, ha.same.clk]
  · rw [hk.locks (linkLane (.port p) l) (mem_linkLanes_port p _), hsu, rf_wf_same _ _ _ _ _ (by decide)]
    norm_num

/-! ### A write of LL_CTRL.retrain -/

/-- The bit that shows a retrain in progress, set (R8). -/
theorem retrainBit_alters (l : LinkId) : s.Alters (s.wb (.llCtrl l) 3 true) [.regs] (fun a => a = (Reg.llCtrl l).addr) :=
  alters_wb _ _ rfl

theorem llState_retrainBit (l : LinkId) : (s.wb (.llCtrl l) 3 true).llState l = s.llState l :=
  (retrainBit_alters s l).rf (link_reg_ne 8 0 rfl rfl) 3 0

theorem retrainBit_set (l : LinkId) : (s.wb (.llCtrl l) 3 true).rb (.llCtrl l) 3 = true := rb_wb_same _ _ _ _ (by decide)

theorem portRetrainWrite_fenced (h6 : s.portState p = 6) (hf : s.rb (.llCtrl (.port p)) 1 = false)
    (hr : s.rb (.llCtrl (.port p)) 3 = false) : ∃ t, s.portRetrainWrite p = t ∧ s.Alters t [.regs, .ports, .lanes, .out] AnyReg ∧
    t.portState p = 1 ∧ (t.port p).trainAt = s.clk ∧ t.rb (.llCtrl (.port p)) 3 = true := by
  obtain ⟨u, hu⟩ : ∃ u, u = s.wb (.llCtrl (.port p)) 3 true := ⟨_, rfl⟩
  have ha : s.Alters u [.regs] (fun a => a = (Reg.llCtrl (.port p)).addr) := hu ▸ retrainBit_alters s (.port p)
  have hk := trainPort_trains u p
  refine ⟨u.trainPort p, ?_, ha.any.mono.trans hk.same.any, hk.state, ?_, ?_⟩
  · unfold State.portRetrainWrite
    extract_lets st
    rw [if_neg (by rw [hr]; decide), if_pos ⟨h6, hf⟩, ← hu]
  · rw [hk.port, ha.clk]
  · rw [hk.same.rb (fun e => e.elim (not_anyLaneAt_llCtrl _) (link_reg_ne (l := .port p) 0 8 rfl rfl)), hu]
    exact retrainBit_set s (.port p)

theorem portRetrainWrite_up (h : s.portState p = 2 ∨ s.portState p = 3 ∨ s.portState p = 5)
    (hr : s.rb (.llCtrl (.port p)) 3 = false) : ∃ t, s.portRetrainWrite p = t ∧ s.Alters t retrainFields AnyReg ∧
    t.portState p = 4 ∧ t.rb (.llCtrl (.port p)) 3 = true := by
  obtain ⟨u, hu⟩ : ∃ u, u = s.wb (.llCtrl (.port p)) 3 true := ⟨_, rfl⟩
  have ha : s.Alters u [.regs] (fun a => a = (Reg.llCtrl (.port p)).addr) := hu ▸ retrainBit_alters s (.port p)
  have hst : u.portState p = s.portState p := hu ▸ llState_retrainBit s (.port p)
  have hk := retrainPort_retrains u p (by rw [hst]; exact h)
  refine ⟨u.retrainPort p, ?_, (ha.any.mono (by decide)).trans hk.same.any, hk.state, ?_⟩
  · unfold State.portRetrainWrite
    extract_lets st
    rw [if_neg (by rw [hr]; decide), if_neg (fun e => by omega), if_pos (by omega), ← hu]
  · rw [hk.same.rb (not_retrainAt_llCtrl _), hu]
    exact retrainBit_set s (.port p)

/-! ### Lanes that are late, and a retrain that begins again -/

/-- Frames resume, or wait (R104). -/
structure State.PortResumes (s t : State) (p : Port) : Prop where
  same : s.Alters t [.regs, .ports, .lanes, .out] (LlStatusAt (.port p))
  lane : ∀ n, (s.lane n).Sent (t.lane n)

theorem resumePort_resumes : s.PortResumes (s.resumePort p) p := by
  unfold State.resumePort
  split
  · exact ⟨.refl s, fun _ => rfl⟩
  next r hr =>
    extract_lets use u
    split
    · exact ⟨.refl s, fun _ => rfl⟩
    · have hs := sendIdle_sends (u.showWidth (.port p) use.length) p 0
      have hu : s.Alters (u.showWidth (.port p) use.length) [.regs, .ports, .lanes, .out] (LlStatusAt (.port p)) :=
        State.Alters.trans (F := [.regs, .ports, .lanes, .out]) (P := LlStatusAt (.port p)) (alters_modPort _ _)
          ((showWidth_alters u _ _).mono)
      exact ⟨hu.trans (hs.same.mono (by decide) fun _ => False.elim), fun n => hs.lane n⟩

theorem not_llStatusAt_lane (n : LaneId) (l : LinkId) : ¬ LlStatusAt l (Reg.laneStatus n).addr :=
  fun e => not_laneAt_llStatus n l (e ▸ at_laneStatus n)

theorem portLaneDrop_spec (l : Fin 4) {r : Retrain} (hr : (s.port p).retrain = some r) (ha : s.laneAway (.net p l) = true)
    (ho : s.laneOn (.net p l) = true) (hf : s.rb (.laneCtrl (.net p l)) 5 = false) (hd : r.step3 + us 5 < s.clk) :
    ∃ t, s.portLaneDrop p l = t ∧ s.Alters t [.regs, .ports, .lanes, .out] AnyReg ∧ t.laneState (.net p l) = 1 ∧
    (t.lane (.net p l)).fails = 0 := by
  have hb := trainLane_begun s (.net p l) ho
  have hk := resumePort_resumes (s.trainLane (.net p l)) p
  have hlane := hb.sent.trans (hk.lane _)
  refine ⟨(s.trainLane (.net p l)).resumePort p, ?_, ?_, ?_, ?_⟩
  · unfold State.portLaneDrop
    rw [hr]
    exact if_pos ⟨ha, hf, hd⟩
  · exact ((trainLane_onLane s _).any.any.mono (by decide)).trans hk.same.any
  · exact (hk.same.rf (not_llStatusAt_lane _ _) 3 0).trans hb.state
  · rw [hlane, lane_modLane_same]
    rfl

theorem exitState_ne (n : LaneId) : s.exitState n ≠ 2 := by
  unfold State.exitState
  (repeat' split) <;> simp_all

theorem portRetrainRepeat_spec {r : Retrain} (hr : (s.port p).retrain = some r) (hd : r.step2 + us 20 < s.clk) :
    ∃ t, s.portRetrainRepeat p = t ∧ s.Alters t [.regs, .ports, .lanes, .out] AnyLaneAt ∧
    (t.port p).retrain = some { r with step2 := s.clk, step3 := s.clk, resumed := false } ∧
    ∀ l : Fin 4, t.laneState (.net p l) ≠ 2 := by
  obtain ⟨u, hu⟩ : ∃ u, u = if s.maySend p then s.sendPortNotice 160 p 15 else s := ⟨_, rfl⟩
  obtain ⟨new, hsu⟩ : ∃ new, s.PortSends u p new := hu ▸ notice_sends s p 15
  obtain ⟨v, hv⟩ : ∃ v, v = u.modPort p (fun x => { x with
    retrain := some { r with step2 := u.clk, step3 := u.clk, resumed := false } }) := ⟨_, rfl⟩
  have hx := lanesExit_exits v (.port p)
  have huv : u.Alters v [.ports] NoReg := hv ▸ alters_modPort _ _
  refine ⟨v.lanesExit (.port p), ?_, ?_, ?_, fun l => ?_⟩
  · unfold State.portRetrainRepeat
    rw [hr]
    refine (if_pos hd).trans ?_
    unfold State.portRetrainAgain
    rw [hr, hv, hu]
  · exact ((hsu.same.mono (by decide) fun _ => False.elim).trans (huv.mono (by decide) fun _ => False.elim)).trans
      (hx.same.mono (by decide))
  · rw [port_of_ports hx.same.ports, hv, port_modPort_same, hsu.same.clk]
  · rw [hx.state _ (mem_linkLanes_port p l)]
    exact exitState_ne v _

end

end Sys2Proof.Machine
end

section
/-! PROOFS. LinksRetrain at host links, and the whole of it (R103 to R105). -/

namespace Sys2Proof.Machine

-- The proofs are elaborated one after another: in parallel their threads' stacks need more memory than a compile may have.
set_option Elab.async false

/-! ### What a host link sends beside its packets of a replay -/

/-- From `s` to `t` host link `h` has sent, and at most its own record has changed. -/
structure State.HostTalks (s t : State) (h : HLink) : Prop where
  same : s.Alters t [.lanes, .out, .hll] NoReg
  lane : ∀ n, (s.lane n).Sent (t.lane n)
  retrain : (t.hl h).retrain = (s.hl h).retrain

section
variable {s t u : State} {h : HLink}

theorem State.HostTalks.refl (s : State) (h : HLink) : s.HostTalks s h := ⟨.refl s, fun _ => rfl, rfl⟩

theorem State.HostTalks.trans (a : s.HostTalks t h) (b : t.HostTalks u h) : s.HostTalks u h :=
  ⟨a.same.trans b.same, fun n => (a.lane n).trans (b.lane n), b.retrain.trans a.retrain⟩

theorem State.HostSends.talks {new : List (HLink × List Byte)} (a : s.HostSends t h new) : s.HostTalks t h :=
  ⟨a.same, a.lane, by rw [a.link]⟩

theorem hostTalks_modHl (f : HostLl → HostLl) (hf : ∀ x, (f x).retrain = x.retrain) : s.HostTalks (s.modHl h f) h :=
  ⟨.put_hll _ _, fun _ => rfl, by rw [hl_modHl_same]; exact hf _⟩
end

section
variable (s : State) (h : HLink)

theorem putPacket_talks (ty seq : Nat) (body : List Byte) : s.HostTalks (s.putPacket h ty seq body) h :=
  (putPacket_spec s h ty seq body).1.talks

theorem sendHostAck_talks : s.HostTalks (s.sendHostAck h) h := by
  obtain ⟨body, hb⟩ : ∃ body, body = beBytes 8 ((s.hl h).lastAcc * 2 ^ 48) := ⟨_, rfl⟩
  unfold State.sendHostAck
  rw [← hb]
  exact (putPacket_talks s h 8 0 body).trans (hostTalks_modHl _ fun _ => rfl)

theorem sendPacket_talks (ty seq : Nat) (body : List Byte) : s.HostTalks (s.sendPacket h ty seq body) h := by
  have hp := putPacket_talks s h ty seq body
  unfold State.sendPacket
  extract_lets u
  split
  · exact hp.trans (sendHostAck_talks u h)
  · exact hp

/-- The notice of a retrain, where the link can send. -/
theorem hostNotice_talks (reason : Nat) : s.HostTalks (if s.hostMaySend h then s.sendNotice h reason else s) h := by
  split
  · exact sendPacket_talks ..
  · exact .refl s h

/-! ### A host link enters a retrain -/

/-- A host link that enters a retrain (R104). -/
structure State.HostRetrains (s t : State) (h : HLink) : Prop where
  same : s.Alters t retrainFields (RetrainAt (.host h))
  state : t.hlState h.val = 4
  retrain : (t.hl h).retrain = some ⟨s.clk, s.clk, s.clk, s.hlState h.val, false⟩
  count : t.rf (.llStatus (.host h)) 39 32 = min 255 (s.rf (.llStatus (.host h)) 39 32 + 1)
  lanes : ∀ n ∈ linkLanes (.host h), t.laneState n = s.exitState n

theorem retrainHost_retrains (hst : s.hlState h.val = 2 ∨ s.hlState h.val = 3) : s.HostRetrains (s.retrainHost h) h := by
  obtain ⟨u, hu⟩ : ∃ u, u = if s.hostMaySend h then s.sendNotice h 2 else s := ⟨_, rfl⟩
  have hsu : s.HostTalks u h := hu ▸ hostNotice_talks s h 2
  obtain ⟨times, htimes⟩ : ∃ times, times = u.retrainTimes (u.hl h).retrains := ⟨_, rfl⟩
  obtain ⟨v, hv, ht⟩ : ∃ v, v = u.modHl h (fun x => { x with
      retrain := some ⟨u.clk, u.clk, u.clk, s.hlState h.val, false⟩, resend := none, retrains := times }) ∧
      s.retrainHost h = ((v.noteRetrain (.host h) times).setLink (.host h) 4).lanesExit (.host h) := by
    refine ⟨_, rfl, ?_⟩
    unfold State.retrainHost
    extract_lets st w old r x
    rw [if_neg (show ¬ st = 7 from fun e => by rcases hst with h | h <;> exact absurd (h.symm.trans e) (by decide)),
      if_neg (show ¬ (st = 4 ∧ _) from fun e => by rcases hst with h | h <;> exact absurd (h.symm.trans e.1) (by decide)),
      if_neg (show ¬ (st ≠ 3 ∧ st ≠ 2) from fun e => hst.elim e.2 e.1), htimes, hu]
    rfl
  have huv : u.Alters v [.hll] NoReg := hv ▸ alters_modHl _ _
  have hsv : s.Alters v [.lanes, .out, .hll] NoReg := hsu.same.trans huv.mono
  have he := enterRetrain v (.host h) times
  have hpt : (s.retrainHost h).hl h = { u.hl h with
      retrain := some ⟨u.clk, u.clk, u.clk, s.hlState h.val, false⟩, resend := none, retrains := times } := by
    rw [ht, he.link, hv, hl_modHl_same]
  rw [← ht] at he
  refine ⟨(hsv.mono (by decide) fun _ => False.elim).trans he.same, (hlState_val _ h).trans he.state, ?_, ?_, fun n hn => ?_⟩
  · rw [hpt, hsu.same.clk]
  · rw [he.count, hsv.rf id]
  · rw [he.lanes n hn]
    exact exitState_of_alters hsv fun _ _ => id

theorem hostTrigger_plain (tr : RetrainTrigger) (htr : tr = .farNotice ∨ tr = .widthChanged) : s.hostTrigger h tr = s.retrainHost h := by
  rcases htr with rfl | rfl <;> rfl

theorem hostRetrainWrite_up (hst : s.hlState h.val = 2 ∨ s.hlState h.val = 3) (hr : s.rb (.llCtrl (.host h)) 3 = false) :
    ∃ t, s.hostRetrainWrite h = t ∧ s.Alters t retrainFields AnyReg ∧ t.hlState h.val = 4 ∧ t.rb (.llCtrl (.host h)) 3 = true := by
  obtain ⟨u, hu⟩ : ∃ u, u = s.wb (.llCtrl (.host h)) 3 true := ⟨_, rfl⟩
  have ha : s.Alters u [.regs] (fun a => a = (Reg.llCtrl (.host h)).addr) := hu ▸ retrainBit_alters s (.host h)
  have hus : u.hlState h.val = s.hlState h.val := by
    rw [hlState_val, hlState_val, hu]
    exact llState_retrainBit s (.host h)
  have hk := retrainHost_retrains u h (by rw [hus]; exact hst)
  refine ⟨u.retrainHost h, ?_, (ha.any.mono (by decide)).trans hk.same.any, hk.state, ?_⟩
  · unfold State.hostRetrainWrite
    extract_lets st
    rw [if_neg (by rw [hr]; decide), if_pos (by omega), ← hu]
  · rw [hk.same.rb (not_retrainAt_llCtrl _), hu]
    exact retrainBit_set s (.host h)

/-! ### Lanes that are late, and a retrain that begins again -/

/-- Packets resume, or wait (R104). -/
structure State.HostResumes (s t : State) (h : HLink) : Prop where
  same : s.Alters t [.regs, .hll, .lanes, .out] (LlStatusAt (.host h))
  lane : ∀ n, (s.lane n).Sent (t.lane n)

theorem resumeHost_resumes : s.HostResumes (s.resumeHost h) h := by
  unfold State.resumeHost
  split
  · exact ⟨.refl s, fun _ => rfl⟩
  next r hr =>
    extract_lets use u
    split
    · exact ⟨.refl s, fun _ => rfl⟩
    · have hs := (sendRows_rows (u.showWidth (.host h) use.length) h (alignSet use.length)).sends.talks.trans (sendHostAck_talks _ h)
      have hu : s.Alters (u.showWidth (.host h) use.length) [.regs, .hll, .lanes, .out] (LlStatusAt (.host h)) :=
        State.Alters.trans (F := [.regs, .hll, .lanes, .out]) (P := LlStatusAt (.host h)) (alters_modHl _ _)
          ((showWidth_alters u _ _).mono)
      exact ⟨hu.trans (hs.same.mono (by decide) fun _ => False.elim), fun n => hs.lane n⟩

theorem hostLaneDrop_spec (l : Fin 16) {r : Retrain} (hr : (s.hl h).retrain = some r) (ha : s.laneAway (.host h l) = true)
    (ho : s.laneOn (.host h l) = true) (hf : s.rb (.laneCtrl (.host h l)) 5 = false) (hd : r.step3 + us 50 < s.clk) :
    ∃ t, s.hostLaneDrop h l = t ∧ s.Alters t [.regs, .hll, .lanes, .out] AnyReg ∧ t.laneState (.host h l) = 1 ∧
    (t.lane (.host h l)).fails = 0 := by
  have hb := trainLane_begun s (.host h l) ho
  have hk := resumeHost_resumes (s.trainLane (.host h l)) h
  have hlane := hb.sent.trans (hk.lane _)
  refine ⟨(s.trainLane (.host h l)).resumeHost h, ?_, ?_, ?_, ?_⟩
  · unfold State.hostLaneDrop
    rw [hr]
    exact if_pos ⟨ha, hf, hd⟩
  · exact ((trainLane_onLane s _).any.any.mono (by decide)).trans hk.same.any
  · exact (hk.same.rf (not_llStatusAt_lane _ _) 3 0).trans hb.state
  · rw [hlane, lane_modLane_same]
    rfl

theorem hostRetrainRepeat_spec {r : Retrain} (hr : (s.hl h).retrain = some r) (hd : r.step2 + us 20 < s.clk) :
    ∃ t, s.hostRetrainRepeat h = t ∧ s.Alters t [.regs, .hll, .lanes, .out] AnyLaneAt ∧
    (t.hl h).retrain.map (fun x => (x.window, x.step2, x.back, x.resumed)) = some (r.window, s.clk, r.back, false) := by
  obtain ⟨u, hu⟩ : ∃ u, u = if s.hostMaySend h then s.sendNotice h 2 else s := ⟨_, rfl⟩
  have hsu : s.HostTalks u h := hu ▸ hostNotice_talks s h 2
  obtain ⟨at3, h3⟩ : ∃ at3, at3 = if u.exiting (.host h) then r.step3 else u.clk := ⟨_, rfl⟩
  obtain ⟨v, hv⟩ : ∃ v, v = u.modHl h (fun x => { x with
    retrain := some { r with step2 := u.clk, step3 := at3, resumed := false } }) := ⟨_, rfl⟩
  have hx := lanesExit_exits v (.host h)
  have huv : u.Alters v [.hll] NoReg := hv ▸ alters_modHl _ _
  refine ⟨v.lanesExit (.host h), ?_, ?_, ?_⟩
  · unfold State.hostRetrainRepeat
    rw [hr]
    refine (if_pos hd).trans ?_
    unfold State.hostRetrainAgain
    rw [hr, hv, h3, hu]
  · exact ((hsu.same.mono (by decide) fun _ => False.elim).trans (huv.mono (by decide) fun _ => False.elim)).trans
      (hx.same.mono (by decide))
  · rw [hl_of_hll hx.same.hll, hv, hl_modHl_same, hsu.same.clk]
    rfl

end

/-- An effect that leaves a calm state as it is, on a block that is powered or not. -/
theorem act_unchanged {s : State} {b : Block} {f : State → State} (hc : s.Calm) (h : f s = s) : s.act b f = .next s := by
  cases hl : s.live b with
  | false => exact act_of_off s b f hl
  | true => exact act_of_alters hl hc h (.refl (F := []) (P := NoReg) s)

theorem doLlRetrain_noop (s : State) (l : LinkId) (h : s.rb (.llCtrl l) 3 = true) : doLlRetrain l s = s := by
  cases l with
  | port p => exact if_pos h
  | host k => exact if_pos h

/-- Settles O19. -/
theorem linksRetrain : Obligations.LinksRetrain := by
  unfold Obligations.LinksRetrain
  refine ⟨?_, ?_, ?_, ?_, ?_, ?_, ?_, ?_, ?_, ?_, ?_, ?_⟩
  · intro s p tr hc hl htr hst
    have hk := retrainPort_retrains s p hst
    exact ⟨_, act_of_alters hl hc (portTrigger_plain s p tr htr) hk.same, hk.state, hk.retrain, hk.resend, hk.count,
      fun l => hk.lanes _ (mem_linkLanes_port p l), hk.same.hbm⟩
  · intro s p l hc hl hst hu hr
    obtain ⟨t, ht, ha, h1, h2, h3⟩ := portLaneLost_spec s p l hst hu hr
    exact ⟨t, act_of_alters hl hc ht ha, h1, h2, h3, ha.hbm⟩
  · intro s p l hc hl hst h2 hu
    have hk := retrainPort_retrains s p hst
    exact ⟨_, act_of_alters hl hc (portTrigger_returned s p l hst h2 hu) hk.same, hk.state, hk.retrain, hk.same.hbm⟩
  · intro s h tr hc hl htr hst
    have hk := retrainHost_retrains s h hst
    exact ⟨_, act_of_alters hl hc (hostTrigger_plain s h tr htr) hk.same, hk.state, hk.retrain, hk.count,
      fun l => hk.lanes _ (mem_linkLanes_host h l), hk.same.hbm⟩
  · intro s p hc hl h6 hf hr
    obtain ⟨t, ht, ha, h1, h2, h3⟩ := portRetrainWrite_fenced s p h6 hf hr
    exact ⟨t, act_of_alters hl hc ht ha, h1, h2, h3, ha.eq_portSent⟩
  · intro s h hc hl hst hr
    obtain ⟨t, ht, ha, h1, h2⟩ := hostRetrainWrite_up s h hst hr
    exact ⟨t, act_of_alters hl hc ht ha, h1, h2, ha.hbm⟩
  · intro s p hc hl hst hr
    obtain ⟨t, ht, ha, h1, h2⟩ := portRetrainWrite_up s p hst hr
    exact ⟨t, act_of_alters hl hc ht ha, h1, h2, ha.hbm⟩
  · intro s l hc hr
    exact act_unchanged hc (doLlRetrain_noop s l hr)
  · intro s p l dt r hc hl hr ha ho hf hd
    obtain ⟨t, ht, ha, h1, h2⟩ := portLaneDrop_spec (s.elapse dt) p l hr ha ho hf hd
    exact ⟨t, act_of_alters hl hc ht ha, h1, h2, ha.hbm⟩
  · intro s h l dt r hc hl hr ha ho hf hd
    obtain ⟨t, ht, ha, h1, h2⟩ := hostLaneDrop_spec (s.elapse dt) h l hr ha ho hf hd
    exact ⟨t, act_of_alters hl hc ht ha, h1, h2, ha.hbm⟩
  · intro s p dt r hc hl hr hd
    obtain ⟨t, ht, ha, h1, h2⟩ := portRetrainRepeat_spec (s.elapse dt) p hr hd
    exact ⟨t, act_of_alters hl hc ht ha, h1, ha.rf (not_anyLaneAt_llStatus _) 3 0, h2, ha.eq_portSent⟩
  · intro s h dt r hc hl hr hd
    obtain ⟨t, ht, ha, h1⟩ := hostRetrainRepeat_spec (s.elapse dt) h hr hd
    exact ⟨t, act_of_alters hl hc ht ha, h1, ha.rf (not_anyLaneAt_llStatus _) 3 0, ha.eq_hostSent⟩

end Sys2Proof.Machine
end

section
/-! PROOFS. HellosAreJudged (R100 to R102). -/

namespace Sys2Proof.Machine

-- The proofs are elaborated one after another: in parallel their threads' stacks need more memory than a compile may have.
set_option Elab.async false

/-! ### What a HELLO reads -/

/-- The registers that a port's HELLO shows, and that the far end's is checked against (R100, R101). -/
def helloRegs (p : Port) : List Reg := [.chipId, .rtCoord, .rtTopo, .rtMap p, .tkSec, .coDigestHi, .coDigestLo, .ntStatus]

/-- The registers of a port's link that judging a HELLO writes. -/
def JudgeAt (p : Port) (a : Nat) : Prop := a = (Reg.llCtrl (.port p)).addr ∨ a = (Reg.llStatus (.port p)).addr ∨
  a = (Reg.llPeerId (.port p)).addr ∨ a = (Reg.llPeerInfo (.port p)).addr ∨ a = (Reg.llPeerDigestHi (.port p)).addr ∨
  a = (Reg.llPeerDigestLo (.port p)).addr

theorem not_judgeAt_of_off {q : Reg} (p : Port) (o : Nat) (ho : q.off = o)
    (h : o % 0x10000 ∉ [0x1000, 0x1008, 0x1030, 0x1038, 0x1040, 0x1048] := by decide) : ¬ JudgeAt p q.addr := by
  simp only [List.mem_cons, List.not_mem_nil, or_false, not_or] at h
  obtain ⟨h1, h2, h3, h4, h5, h6⟩ := h
  rintro (e | e | e | e | e | e)
  · exact addr_ne_of_off o 0x1000 ho rfl h1 e
  · exact addr_ne_of_off o 0x1008 ho rfl h2 e
  · exact addr_ne_of_off o 0x1030 ho rfl h3 e
  · exact addr_ne_of_off o 0x1038 ho rfl h4 e
  · exact addr_ne_of_off o 0x1040 ho rfl h5 e
  · exact addr_ne_of_off o 0x1048 ho rfl h6 e

theorem not_judgeAt_hello (p : Port) : ∀ r ∈ helloRegs p, ¬ JudgeAt p r.addr := by
  simp only [helloRegs, List.forall_mem_cons]
  exact ⟨not_judgeAt_of_off p 8 rfl, not_judgeAt_of_off p 0x400 rfl, not_judgeAt_of_off p 0x408 rfl, not_judgeAt_of_off p 0x2000 rfl,
    not_judgeAt_of_off p 0x28 rfl, not_judgeAt_of_off p 0x610 rfl, not_judgeAt_of_off p 0x618 rfl, not_judgeAt_of_off p 0x518 rfl,
    fun _ h => nomatch h⟩

section
variable {s t : State} {p : Port}

/-- The check of a HELLO reads those registers alone. -/
theorem helloFails_of_regs (h : ∀ r ∈ helloRegs p, t.reg r = s.reg r) (m : BitVec 512) : t.helloFails p m = s.helloFails p m := by
  simp only [helloRegs, List.forall_mem_cons] at h
  obtain ⟨-, h1, h2, h3, h4, h5, h6, -, -⟩ := h
  have hd : t.portDir p = s.portDir p := congrArg (fld · 5 2) h3
  have hn : t.neighbour p = s.neighbour p := by
    simp only [State.neighbour, State.stepFrom, State.dimSize, State.dirStep, State.dimChord, State.coord, hd, State.rf, h1, h2]
  have hs : t.rf .tkSec 63 57 = s.rf .tkSec 63 57 := congrArg (fld · 63 57) h4
  unfold State.helloFails
  rw [hd, hn, hs, h5, h6]

/-- A HELLO shows those registers, and the pools announced. -/
theorem hello_of_regs (h : ∀ r ∈ helloRegs p, t.reg r = s.reg r) (hp : (t.port p).pools = (s.port p).pools) : t.hello p = s.hello p := by
  simp only [helloRegs, List.forall_mem_cons] at h
  obtain ⟨h0, h1, -, h3, h4, h5, h6, h7, -⟩ := h
  simp only [State.hello, State.coord, State.portDir, State.portRail, State.rf, h0, h1, h3, h4, h5, h6, h7, hp]

theorem State.Alters.helloRegs {F : List Field} (h : s.Alters t F (JudgeAt p)) : ∀ r ∈ helloRegs p, t.reg r = s.reg r :=
  fun r hr => h.reg r (not_judgeAt_hello p r hr)

end

theorem helloFails_lt (s : State) (p : Port) (m : BitVec 512) : s.helloFails p m < 16 := by
  unfold State.helloFails
  extract_lets dir opp
  have h : ∀ b, b2n b ≤ 1 := fun b => by cases b <;> decide
  have h1 := h (decide (fld m 396 333 ≠ (s.reg .coDigestHi).toNat) || decide (fld m 332 269 ≠ (s.reg .coDigestLo).toNat))
  have h2 := h (decide (fld m 431 416 ≠ s.neighbour p))
  have h3 := h (decide (fld m 409 406 ≠ opp))
  have h4 := h (decide (fld m 403 397 < s.rf .tkSec 63 57))
  omega

/-! ### The judgement (R101) -/

section
variable (s : State) (p : Port)

/-- Whether a port judges a HELLO at once. -/
def State.Ready (s : State) (p : Port) : Prop :=
  s.portState p = 3 ∨ s.portState p = 5 ∨ (s.portState p = 2 ∧ (s.port p).helloAcked = true)

/-- A port that judges shows the reasons. -/
theorem judge_ready {m : BitVec 512} (hr : s.Ready p) (hf : (s.port p).far = some m) :
    ∃ u, u = s.wf (.llStatus (.port p)) 19 16 (s.helloFails p m) ∧ s.judge p =
      if s.helloFails p m = 0 then (if s.portState p = 3 then u else (u.setLink (.port p) 3).wb (.llCtrl (.port p)) 3 false)
      else if s.portState p = 5 then u else (u.quarantine p (s.helloFails p m)).wb (.llCtrl (.port p)) 3 false := by
  refine ⟨_, rfl, ?_⟩
  have h4 : s.portState p ≠ 4 := by
    rcases hr with h | h | ⟨h, -⟩ <;> rw [h] <;> decide
  unfold State.judge
  extract_lets st
  simp only [hf]
  rw [if_neg h4, if_neg]
  show ¬ (!(decide (s.portState p = 3) || decide (s.portState p = 5) ||
    (decide (s.portState p = 2) && (s.port p).helloAcked))) = true
  rcases hr with h | h | ⟨h, ha⟩
  · simp [h]
  · simp [h]
  · simp [h, ha]

/-- What LL_STATUS and the link's registers read once the reasons are shown. -/
theorem reasons_alters (why : Nat) : s.Alters (s.wf (.llStatus (.port p)) 19 16 why) [.regs] (LlStatusAt (.port p)) := alters_wf _ _ _ rfl

theorem reasons_shown {why : Nat} (h : why < 16) : (s.wf (.llStatus (.port p)) 19 16 why).rf (.llStatus (.port p)) 19 16 = why :=
  (rf_wf_same _ _ _ _ _ (by decide)).trans (Nat.mod_eq_of_lt h)

theorem reasons_state (why : Nat) : (s.wf (.llStatus (.port p)) 19 16 why).portState p = s.portState p :=
  rf_wf_field _ _ _ _ _ _ _ (by decide) (by decide)

theorem reasons_setLink (st : Nat) : (s.setLink (.port p) st).rf (.llStatus (.port p)) 19 16 = s.rf (.llStatus (.port p)) 19 16 :=
  rf_wf_field _ _ _ _ _ _ _ (by decide) (by decide)

/-- What a judgement that ends in UP, or leaves the state, changes. -/
structure State.Judged (s t : State) (p : Port) (st why : Nat) : Prop where
  same : s.Alters t [.regs] (fun a => a = (Reg.llStatus (.port p)).addr ∨ a = (Reg.llCtrl (.port p)).addr)
  state : t.portState p = st
  reason : t.rf (.llStatus (.port p)) 19 16 = why
  hello : t.rb (.llCtrl (.port p)) 4 = s.rb (.llCtrl (.port p)) 4

theorem judge_passes {m : BitVec 512} (hr : s.Ready p) (hf : (s.port p).far = some m) (h0 : s.helloFails p m = 0) :
    s.Judged (s.judge p) p 3 0 := by
  obtain ⟨u, hu, ht⟩ := judge_ready s p hr hf
  rw [h0] at hu
  rw [if_pos h0] at ht
  have ha : s.Alters u [.regs] (LlStatusAt (.port p)) := hu ▸ reasons_alters s p 0
  have hw : u.rf (.llStatus (.port p)) 19 16 = 0 := hu ▸ reasons_shown s p (by decide)
  have hne : (Reg.llStatus (.port p)).addr ≠ (Reg.llCtrl (.port p)).addr := link_reg_ne (l := .port p) 8 0 rfl rfl
  have hne' := hne.symm
  rw [ht]
  split
  next h3 =>
    exact ⟨ha.mono (fun _ h => h) fun _ => .inl, (hu ▸ reasons_state s p 0).trans h3, hw, ha.rb hne' 4⟩
  next h3 =>
    have hv := setLink_alters u (.port p) 3
    have hl : (u.setLink (.port p) 3).Alters ((u.setLink (.port p) 3).wb (.llCtrl (.port p)) 3 false) [.regs]
      (fun a => a = (Reg.llCtrl (.port p)).addr) := alters_wb _ _ rfl
    refine ⟨(ha.mono (fun _ h => h) fun _ => .inl).trans ((hv.mono (fun _ h => h) fun _ => .inl).trans
      (hl.mono (fun _ h => h) fun _ => .inr)), ?_, ?_, ?_⟩
    · exact (hl.rf hne 3 0).trans (llState_setLink _ _ (by decide))
    · rw [hl.rf hne, reasons_setLink, hw]
    · rw [rb_wb_bit_other _ _ _ (by decide) (by decide), hv.rb hne', ha.rb hne']

/-- In QUARANTINE a HELLO that fails leaves the state. -/
theorem judge_stays {m : BitVec 512} (h5 : s.portState p = 5) (hf : (s.port p).far = some m) (h0 : s.helloFails p m ≠ 0) :
    s.Judged (s.judge p) p 5 (s.helloFails p m) := by
  obtain ⟨u, hu, ht⟩ := judge_ready s p (.inr (.inl h5)) hf
  rw [if_neg h0, if_pos h5] at ht
  have ha : s.Alters u [.regs] (LlStatusAt (.port p)) := hu ▸ reasons_alters s p _
  rw [ht]
  exact ⟨ha.mono (fun _ h => h) fun _ => .inl, (hu ▸ reasons_state s p _).trans h5, hu ▸ reasons_shown s p (helloFails_lt s p m),
    ha.rb (link_reg_ne (l := .port p) 0 8 rfl rfl) 4⟩

/-- What a judgement that ends in QUARANTINE changes. -/
structure State.Quarantined (s t : State) (p : Port) (why : Nat) : Prop where
  same : s.Alters t (.ports :: faultFields) AnyReg
  state : t.portState p = 5
  reason : t.rf (.llStatus (.port p)) 19 16 = why
  mark : t.rb (.llStatus (.port p)) 6 = true
  port : t.port p = { s.port p with quarAt := s.clk }

theorem judge_quarantines {m : BitVec 512} (hr : s.Ready p) (h5 : s.portState p ≠ 5) (hf : (s.port p).far = some m)
    (h0 : s.helloFails p m ≠ 0) : s.Quarantined (s.judge p) p (s.helloFails p m) := by
  obtain ⟨u, hu, ht⟩ := judge_ready s p hr hf
  rw [if_neg h0, if_neg h5] at ht
  have ha : s.Alters u [.regs] (LlStatusAt (.port p)) := hu ▸ reasons_alters s p _
  obtain ⟨v, hv⟩ : ∃ v, v = (u.setLink (.port p) 5).wb (.llStatus (.port p)) 6 true := ⟨_, rfl⟩
  obtain ⟨w, hw⟩ : ∃ w, w = v.modPort p (fun x => { x with quarAt := v.clk }) := ⟨_, rfl⟩
  obtain ⟨x, hx⟩ : ∃ x, x = w.fault (.port p) .degrade 0x12 (s.helloFails p m) := ⟨_, rfl⟩
  have he : s.judge p = x.wb (.llCtrl (.port p)) 3 false := by rw [ht, hx, hw, hv]; rfl
  have huv : u.Alters v [.regs] (LlStatusAt (.port p)) := by
    rw [hv]
    exact (setLink_alters u _ 5).trans (alters_wb _ _ rfl)
  have hvw : v.Alters w [.ports] NoReg := hw ▸ alters_modPort _ _
  have hwx : w.Alters x faultFields (FaultAt (.port p)) := hx ▸ fault_alters ..
  have hlast : x.Alters (s.judge p) [.regs] (fun a => a = (Reg.llCtrl (.port p)).addr) := he ▸ alters_wb _ _ rfl
  have hne : (Reg.llStatus (.port p)).addr ≠ (Reg.llCtrl (.port p)).addr := link_reg_ne (l := .port p) 8 0 rfl rfl
  have hreg : ∀ hi lo, (s.judge p).rf (.llStatus (.port p)) hi lo = v.rf (.llStatus (.port p)) hi lo := fun hi lo => by
    rw [hlast.rf hne, hwx.rf (not_faultAt_link _ (.port p) 8 rfl), hvw.rf id]
  refine ⟨?_, ?_, ?_, ?_, ?_⟩
  · exact (((ha.trans huv).any.mono (by decide)).trans (hvw.any.mono (by decide))).trans
      ((hwx.any.mono (by decide)).trans (hlast.any.mono (by decide)))
  · rw [State.portState, State.llState, hreg, hv, rf_wb_field _ _ _ _ _ _ (by decide) (by decide)]
    exact llState_setLink u _ (by decide)
  · rw [hreg, hv, rf_wb_field _ _ _ _ _ _ (by decide) (by decide), reasons_setLink, hu, reasons_shown _ _ (helloFails_lt s p m)]
  · rw [hlast.rb hne, hwx.rb (not_faultAt_link _ (.port p) 8 rfl), hvw.rb id, hv]
    exact rb_wb_same _ _ _ _ (by decide)
  · rw [port_of_ports (hlast.ports.trans hwx.ports), hw, port_modPort_same, (ha.trans huv).clk, port_of_ports (ha.trans huv).ports]

end

/-! ### HELLO_RECEIVED (R100) -/

section
variable (s : State) (p : Port) (m : BitVec 512) (ms : List (BitVec 512))

/-- A port with a HELLO received and kept, before it is judged. -/
structure State.Kept (s t : State) (p : Port) (m : BitVec 512) (ms : List (BitVec 512)) : Prop where
  same : s.Alters t [.regs, .ports, .epochSeen] (fun a => a = (Reg.llPeerId (.port p)).addr ∨ a = (Reg.llPeerInfo (.port p)).addr ∨
    a = (Reg.llPeerDigestHi (.port p)).addr ∨ a = (Reg.llPeerDigestLo (.port p)).addr)
  port : t.port p = { s.port p with rxLocal := ms, far := some m }
  id : t.rf (.llPeerId (.port p)) 63 0 = fld m 495 432
  coord : t.rf (.llPeerInfo (.port p)) 63 48 = fld m 431 416
  valid : t.rb (.llPeerInfo (.port p)) 0 = true

/-- The word of LL_PEER_INFO. -/
theorem fld_peerInfo (a b c d e : Nat) :
    fld (mkWord 64 [(63, 48, a), (47, 42, b), (41, 38, c), (37, 36, d), (35, 29, e), (0, 0, 1)]) 63 48 = a % 2 ^ 16 := by
  simp only [mkWord, List.foldl_cons, List.foldl_nil]
  repeat rw [fld_setFld_other _ _ _ _ _ _ (by decide) (by decide)]
  rw [fld_setFld_same _ _ _ _ (by decide)]

theorem bit_peerInfo (a b c d e : Nat) :
    bit (mkWord 64 [(63, 48, a), (47, 42, b), (41, 38, c), (37, 36, d), (35, 29, e), (0, 0, 1)]) 0 = true := by
  simp only [mkWord, List.foldl_cons, List.foldl_nil]
  exact bit_setFld_one _ 0 (by decide)

theorem helloReceived_kept (hst : s.portState p = 2 ∨ s.portState p = 3 ∨ s.portState p = 5) (hm : (s.port p).rxLocal = m :: ms)
    (h1 : fld m 511 504 = 1) : ∃ u, s.Kept u p m ms ∧ doHelloReceived p s = u.judge p := by
  obtain ⟨a, ha⟩ : ∃ a, a = (s.modPort p (fun x => { x with rxLocal := ms })).modPort p (fun x => { x with far := some m }) := ⟨_, rfl⟩
  obtain ⟨info, hinfo⟩ : ∃ w : Word, w = mkWord 64 [(63, 48, fld m 431 416), (47, 42, fld m 415 410),
    (41, 38, fld m 409 406), (37, 36, fld m 405 404), (35, 29, fld m 403 397), (0, 0, 1)] := ⟨_, rfl⟩
  obtain ⟨b, hb⟩ : ∃ b, b = a.setReg (.llPeerId (.port p)) (BitVec.ofNat 64 (fld m 495 432)) := ⟨_, rfl⟩
  obtain ⟨c, hc⟩ : ∃ c, c = b.setReg (.llPeerInfo (.port p)) info := ⟨_, rfl⟩
  obtain ⟨d, hd⟩ : ∃ d, d = (c.setReg (.llPeerDigestHi (.port p)) (BitVec.ofNat 64 (fld m 396 333))).setReg
    (.llPeerDigestLo (.port p)) (BitVec.ofNat 64 (fld m 332 269)) := ⟨_, rfl⟩
  have hsa : s.Alters a [.ports] NoReg := by
    rw [ha]
    exact State.Alters.trans (F := [.ports]) (P := NoReg) (alters_modPort _ _) (alters_modPort _ _)
  have hpa : a.port p = { s.port p with rxLocal := ms, far := some m } := by rw [ha, port_modPort_same, port_modPort_same]
  have hab : a.Alters b [.regs] (fun a => a = (Reg.llPeerId (.port p)).addr) := hb ▸ .setReg _ _ rfl
  have hbc : b.Alters c [.regs] (fun a => a = (Reg.llPeerInfo (.port p)).addr) := hc ▸ .setReg _ _ rfl
  have hcd : c.Alters d [.regs] (fun a => a = (Reg.llPeerDigestHi (.port p)).addr ∨ a = (Reg.llPeerDigestLo (.port p)).addr) := by
    rw [hd]
    exact (State.Alters.setReg (F := [.regs]) _ _ (.inl rfl)).trans (.setReg _ _ (.inr rfl))
  have hde := noteEpoch_alters (F := [.epochSeen]) (P := NoReg) d (fld m 268 237)
  have hbreg : b.reg (.llPeerId (.port p)) = BitVec.ofNat 64 (fld m 495 432) := hb ▸ reg_setReg_same ..
  have hcreg : c.reg (.llPeerInfo (.port p)) = info := hc ▸ reg_setReg_same ..
  have hinf : (d.noteEpoch (fld m 268 237)).reg (.llPeerInfo (.port p)) = info := by
    rw [hde.reg _ id, hcd.reg _ (fun e => e.elim (link_reg_ne (l := .port p) 0x38 0x40 rfl rfl) (link_reg_ne (l := .port p) 0x38 0x48 rfl rfl)),
      hcreg]
  refine ⟨d.noteEpoch (fld m 268 237), ⟨?_, ?_, ?_, ?_, ?_⟩, ?_⟩
  · exact ((hsa.mono (by decide) fun _ => False.elim).trans (hab.mono (by decide) fun _ => .inl)).trans
      (((hbc.mono (by decide) fun _ h => .inr (.inl h)).trans (hcd.mono (by decide) fun _ h => .inr (.inr h))).trans
        (hde.mono (by decide) fun _ => False.elim))
  · rw [port_of_ports (hde.ports.trans (hcd.ports.trans (hbc.ports.trans hab.ports))), hpa]
  · rw [State.rf, hde.reg _ id,
      hcd.reg _ (fun e => e.elim (link_reg_ne (l := .port p) 0x30 0x40 rfl rfl) (link_reg_ne (l := .port p) 0x30 0x48 rfl rfl)),
      hbc.reg _ (link_reg_ne (l := .port p) 0x30 0x38 rfl rfl), hbreg]
    have hlt : fld m 495 432 < 2 ^ 64 := Nat.mod_lt _ (by positivity)
    simp only [fld, BitVec.toNat_ofNat] at hlt ⊢
    omega
  · rw [State.rf, hinf, hinfo, fld_peerInfo]
    exact Nat.mod_eq_of_lt (Nat.mod_lt _ (by positivity))
  · rw [State.rb, hinf, hinfo, bit_peerInfo]
  · unfold doHelloReceived
    extract_lets st
    simp -zeta only [hm]
    rw [if_neg (show ¬ (st ≠ 2 ∧ st ≠ 3 ∧ st ≠ 5) from fun e => hst.elim e.1 fun h => h.elim e.2.1 e.2.2)]
    extract_lets x y z w
    rw [if_neg (by rw [h1]; decide), hd, hc, hb, hinfo, ha]

theorem State.Kept.judge {s t : State} {p : Port} {m : BitVec 512} {ms} (h : s.Kept t p m ms) (hr : s.Ready p) :
    t.Ready p ∧ (t.port p).far = some m ∧ t.portState p = s.portState p ∧ t.helloFails p m = s.helloFails p m := by
  have hst : t.portState p = s.portState p := h.same.rf (by
    rintro (e | e | e | e)
    · exact link_reg_ne (l := .port p) 8 0x30 rfl rfl (by decide) e
    · exact link_reg_ne (l := .port p) 8 0x38 rfl rfl (by decide) e
    · exact link_reg_ne (l := .port p) 8 0x40 rfl rfl (by decide) e
    · exact link_reg_ne (l := .port p) 8 0x48 rfl rfl (by decide) e) 3 0
  refine ⟨?_, by rw [h.port], hst, helloFails_of_regs (h.same.mono (fun _ h => h) fun _ e => .inr (.inr e)).helloRegs m⟩
  rw [State.Ready, hst, h.port]
  exact hr

theorem State.Ready.up {s : State} {p : Port} (h : s.Ready p) : s.portState p = 2 ∨ s.portState p = 3 ∨ s.portState p = 5 :=
  h.elim (fun h => .inr (.inl h)) fun h => h.elim (fun h => .inr (.inr h)) fun h => .inl h.1

/-- Where the far end's fields stand, a judgement leaves them. -/
theorem State.Judged.peer {s t : State} {p : Port} {st why : Nat} (h : s.Judged t p st why) {r : Reg} (o : Nat)
    (hr : r.addr = blockBase (linkBlock (.port p)) + linkBase (.port p) + o) (ho : o ≠ 0 ∧ o ≠ 8) : t.reg r = s.reg r :=
  h.same.reg r fun e => e.elim (link_reg_ne o 8 hr rfl ho.2) (link_reg_ne o 0 hr rfl ho.1)

theorem helloReceived_passes (hr : s.Ready p) (hm : (s.port p).rxLocal = m :: ms) (h1 : fld m 511 504 = 1) (h0 : s.helloFails p m = 0) :
    ∃ t, doHelloReceived p s = t ∧ s.Alters t [.regs, .ports, .epochSeen] AnyReg ∧ t.portState p = 3 ∧
    t.rf (.llStatus (.port p)) 19 16 = 0 ∧ t.rf (.llPeerId (.port p)) 63 0 = fld m 495 432 ∧
    t.rf (.llPeerInfo (.port p)) 63 48 = fld m 431 416 ∧ t.rb (.llPeerInfo (.port p)) 0 = true ∧ (t.port p).rxLocal = ms ∧
    (t.port p).far = some m := by
  obtain ⟨u, hu, ht⟩ := helloReceived_kept s p m ms hr.up hm h1
  obtain ⟨hr', hf, -, he⟩ := hu.judge hr
  have hj := judge_passes u p hr' hf (he.trans h0)
  have hp := port_of_ports hj.same.ports p
  refine ⟨u.judge p, ht, hu.same.any.trans hj.same.any.mono, hj.state, hj.reason, ?_, ?_, ?_, ?_, ?_⟩
  · exact (congrArg (fld · 63 0) (hj.peer 0x30 rfl (by decide))).trans hu.id
  · exact (congrArg (fld · 63 48) (hj.peer 0x38 rfl (by decide))).trans hu.coord
  · exact (congrArg (bit · 0) (hj.peer 0x38 rfl (by decide))).trans hu.valid
  · rw [hp, hu.port]
  · rw [hp, hu.port]

theorem helloReceived_quarantines (hr : s.Ready p) (h5 : s.portState p ≠ 5) (hm : (s.port p).rxLocal = m :: ms)
    (h1 : fld m 511 504 = 1) (h0 : s.helloFails p m ≠ 0) : ∃ t, doHelloReceived p s = t ∧
    s.Alters t (.epochSeen :: .ports :: faultFields) AnyReg ∧ t.portState p = 5 ∧
    t.rf (.llStatus (.port p)) 19 16 = s.helloFails p m ∧ t.rb (.llStatus (.port p)) 6 = true ∧ (t.port p).quarAt = s.clk ∧
    (t.port p).rxLocal = ms := by
  obtain ⟨u, hu, ht⟩ := helloReceived_kept s p m ms hr.up hm h1
  obtain ⟨hr', hf, hst, he⟩ := hu.judge hr
  have hj := judge_quarantines u p hr' (hst ▸ h5) hf (he ▸ h0)
  refine ⟨u.judge p, ht, (hu.same.any.mono (by decide)).trans (hj.same.mono (by decide)), hj.state, hj.reason.trans he, hj.mark, ?_, ?_⟩
  · rw [hj.port, hu.same.clk]
  · rw [hj.port, hu.port]

theorem helloReceived_stays (h5 : s.portState p = 5) (hm : (s.port p).rxLocal = m :: ms)
    (h1 : fld m 511 504 = 1) (h0 : s.helloFails p m ≠ 0) : ∃ t, doHelloReceived p s = t ∧
    s.Alters t [.regs, .ports, .epochSeen] AnyReg ∧ t.portState p = 5 ∧
    t.rf (.llStatus (.port p)) 19 16 = s.helloFails p m ∧ (t.port p).rxLocal = ms ∧ (t.port p).far = some m := by
  have hr : s.Ready p := .inr (.inl h5)
  obtain ⟨u, hu, ht⟩ := helloReceived_kept s p m ms hr.up hm h1
  obtain ⟨-, hf, hst, he⟩ := hu.judge hr
  have hj := judge_stays u p (hst.trans h5) hf (he ▸ h0)
  have hp := port_of_ports hj.same.ports p
  refine ⟨u.judge p, ht, hu.same.any.trans hj.same.any.mono, hj.state, hj.reason.trans he, ?_, ?_⟩
  · rw [hp, hu.port]
  · rw [hp, hu.port]

/-- A link-local message of another type (R100). -/
theorem helloReceived_other (hst : s.portState p = 2 ∨ s.portState p = 3 ∨ s.portState p = 5) (hm : (s.port p).rxLocal = m :: ms)
    (h1 : fld m 511 504 ≠ 1) : ∃ t, doHelloReceived p s = t ∧ s.Alters t (.ports :: faultFields) (FaultAt (.port p)) ∧
    t.portState p = s.portState p ∧ (t.port p).rxLocal = ms ∧ (t.port p).far = (s.port p).far ∧ t.rb (.ftStatus (.port p)) 0 = true := by
  obtain ⟨u, hu⟩ : ∃ u, u = s.modPort p (fun x => { x with rxLocal := ms }) := ⟨_, rfl⟩
  have hsu : s.Alters u [.ports] NoReg := hu ▸ alters_modPort _ _
  have hpu : u.port p = { s.port p with rxLocal := ms } := hu ▸ port_modPort_same ..
  have hf := fault_alters u (.port p) .note 3 0
  have hp : (u.fault (.port p) .note 3 0).port p = u.port p := port_of_ports hf.ports p
  refine ⟨u.fault (.port p) .note 3 0, ?_, ?_, ?_, ?_, ?_, fault_status u _ _ _ _ rfl⟩
  · unfold doHelloReceived
    extract_lets st
    simp -zeta only [hm]
    rw [if_neg (show ¬ (st ≠ 2 ∧ st ≠ 3 ∧ st ≠ 5) from fun e => hst.elim e.1 fun h => h.elim e.2.1 e.2.2)]
    extract_lets x
    rw [if_pos h1, hu]
  · exact (hsu.mono (by decide) fun _ => False.elim).trans (hf.mono (by decide))
  · exact (hf.rf (not_faultAt_link _ (.port p) 8 rfl) 3 0).trans (hsu.rf id 3 0)
  · rw [hp, hpu]
  · rw [hp, hpu]

end

/-! ### LL_REHELLO (R102) -/

section
variable (s : State) (p : Port)

/-- A HELLO waits to be sent, and LL_CTRL.rehello shows it (R8). -/
structure State.Rehello (s t : State) (p : Port) : Prop where
  same : s.Alters t [.regs, .ports] (fun a => a = (Reg.llCtrl (.port p)).addr)
  port : t.port p = { s.port p with txLocal := (s.port p).txLocal ++ [s.hello p] }
  bit : t.rb (.llCtrl (.port p)) 4 = true

theorem rehello_queued : s.Rehello ((s.wb (.llCtrl (.port p)) 4 true).queueHello p) p := by
  obtain ⟨u, hu⟩ : ∃ u, u = s.wb (.llCtrl (.port p)) 4 true := ⟨_, rfl⟩
  have hsu : s.Alters u [.regs] (fun a => a = (Reg.llCtrl (.port p)).addr) := hu ▸ alters_wb _ _ rfl
  have hpu : u.port p = s.port p := port_of_ports hsu.ports p
  have hh : u.hello p = s.hello p :=
    hello_of_regs (hsu.mono (fun _ h => h) fun _ => .inl).helloRegs (by rw [hpu])
  have hq : u.Alters (u.queueHello p) [.ports] NoReg := alters_modPort _ _
  rw [← hu]
  refine ⟨hsu.mono.trans (hq.mono (by decide) fun _ => False.elim), ?_, ?_⟩
  · rw [State.queueHello, port_modPort_same, hpu, hh]
  · rw [hq.rb id, hu]
    exact rb_wb_same _ _ _ _ (by decide)

theorem State.Rehello.state {s t : State} {p : Port} (h : s.Rehello t p) : t.portState p = s.portState p :=
  h.same.rf (link_reg_ne (l := .port p) 8 0 rfl rfl) 3 0

theorem doLlRehello_eq (h4 : s.rb (.llCtrl (.port p)) 4 = false) (hst : s.portState p = 3 ∨ s.portState p = 4 ∨ s.portState p = 5) :
    doLlRehello p s = ((s.wb (.llCtrl (.port p)) 4 true).queueHello p).judge p := by
  unfold doLlRehello
  extract_lets st
  rw [if_neg (by rw [h4]; decide), if_pos (by omega)]

theorem llRehello_up {m : BitVec 512} (h4 : s.rb (.llCtrl (.port p)) 4 = false) (hst : s.portState p = 3 ∨ s.portState p = 5)
    (hf : (s.port p).far = some m) (h0 : s.helloFails p m = 0) : ∃ t, doLlRehello p s = t ∧ s.Alters t [.regs, .ports] AnyReg ∧
    t.portState p = 3 ∧ t.rb (.llCtrl (.port p)) 4 = true ∧ (t.port p).txLocal = (s.port p).txLocal ++ [s.hello p] := by
  have hq := rehello_queued s p
  obtain ⟨u, hu⟩ : ∃ u, u = (s.wb (.llCtrl (.port p)) 4 true).queueHello p := ⟨_, rfl⟩
  rw [← hu] at hq
  have hr : u.Ready p := by
    rw [State.Ready, hq.state]
    exact hst.elim .inl fun h => .inr (.inl h)
  have hj := judge_passes u p hr (m := m) (by rw [hq.port]; exact hf)
    ((helloFails_of_regs (hq.same.mono (fun _ h => h) fun _ => .inl).helloRegs m).trans h0)
  refine ⟨u.judge p, ?_, hq.same.any.trans hj.same.any.mono, hj.state, hj.hello.trans hq.bit, ?_⟩
  · rw [doLlRehello_eq s p h4 (by omega), hu]
  · rw [port_of_ports hj.same.ports, hq.port]

theorem llRehello_retrain (h4 : s.rb (.llCtrl (.port p)) 4 = false) (hst : s.portState p = 4) : ∃ t, doLlRehello p s = t ∧
    s.Alters t [.regs, .ports] AnyReg ∧ (t.port p).txLocal = (s.port p).txLocal ++ [s.hello p] ∧
    ((s.port p).far.isSome = true → (t.port p).recheck = true) ∧ t.rb (.llCtrl (.port p)) 4 = true := by
  have hq := rehello_queued s p
  obtain ⟨u, hu⟩ : ∃ u, u = (s.wb (.llCtrl (.port p)) 4 true).queueHello p := ⟨_, rfl⟩
  rw [← hu] at hq
  have he : doLlRehello p s = u.judge p := by rw [doLlRehello_eq s p h4 (by omega), hu]
  have hfu : (u.port p).far = (s.port p).far := by rw [hq.port]
  cases hf : (s.port p).far with
  | none =>
    have hj : u.judge p = u := by
      unfold State.judge
      rw [hfu, hf]
    refine ⟨u, he.trans hj, hq.same.any, by rw [hq.port], ?_, hq.bit⟩
    intro h
    cases h
  | some m =>
    have hj : u.judge p = u.modPort p (fun x => { x with recheck := true }) := by
      unfold State.judge
      rw [hfu, hf]
      exact if_pos (hq.state.trans hst)
    refine ⟨_, he.trans hj, hq.same.any.trans (alters_modPort _ _), ?_, fun _ => ?_, hq.bit⟩
    · rw [port_modPort_same, hq.port]
    · rw [port_modPort_same]

end

/-- Settles O18. -/
theorem hellosAreJudged : Obligations.HellosAreJudged := by
  unfold Obligations.HellosAreJudged
  refine ⟨?_, ?_, ?_, ?_, ?_, ?_, ?_⟩
  · intro s p m ms hc hl hr hm h1 h0
    obtain ⟨t, ht, ha, h2, h3, h4, h5, h6, h7, h8⟩ := helloReceived_passes s p m ms hr hm h1 h0
    exact ⟨t, act_of_alters hl hc ht ha, h2, h3, h4, h5, h6, h7, h8,
      (ha.mono (by decide)).eq_linkWork.trans (by rw [ha.lanes, ha.out, ha.frees, ha.hll, ha.ht])⟩
  · intro s p m ms hc hl hr hm h1 h0
    have h5 : s.portState p ≠ 5 := by omega
    obtain ⟨t, ht, ha, h2, h3, h4, h6, h7⟩ := helloReceived_quarantines s p m ms (hr.elim .inl fun h => .inr (.inr h)) h5 hm h1 h0
    exact ⟨t, act_of_alters hl hc ht ha, h2, h3, h4, h6, h7, ha.hbm⟩
  · intro s p m ms hc hl hst hm h1
    obtain ⟨t, ht, ha, h2, h3, h4, h5⟩ := helloReceived_other s p m ms hst hm h1
    exact ⟨t, act_of_alters hl hc ht ha, h2, h3, h4, h5, ha.hbm⟩
  · intro s p m hc hl hst hf h0 h4
    obtain ⟨t, ht, ha, h1, h2, h3⟩ := llRehello_up s p h4 hst hf h0
    exact ⟨t, act_of_alters hl hc ht ha, h1, h2, h3, ha.eq_portRegs⟩
  · intro s p hc hl hst h4
    obtain ⟨t, ht, ha, h1, h2, h3⟩ := llRehello_retrain s p h4 hst
    exact ⟨t, act_of_alters hl hc ht ha, h1, h2, h3, ha.eq_portRegs⟩
  · intro s p hc h4
    exact act_unchanged hc (if_pos h4)
  · intro s p m ms hc hl h5 hm h1 h0
    obtain ⟨t, ht, ha, h2, h3, h4, h6⟩ := helloReceived_stays s p m ms h5 hm h1 h0
    exact ⟨t, act_of_alters hl hc ht ha, h2, h3, h4, h6,
      (ha.mono (by decide)).eq_linkWork.trans (by rw [ha.lanes, ha.out, ha.frees, ha.hll, ha.ht])⟩

end Sys2Proof.Machine
end

section
/-! PROOFS. EgressFramesAndHostTlpsLeave (R88, R96, R104, R401). -/

namespace Sys2Proof.Machine

-- The proofs are elaborated one after another: in parallel their threads' stacks need more memory than a compile may have.
set_option Elab.async false

/-! ### Frames that carry flits (R82 to R88) -/

theorem trailer_vc (x : PortSt) (kind next vc seq : Nat) (fl : List (BitVec 512)) :
    fld (x.trailer kind next vc seq fl) 117 114 = vc % 16 := by
  unfold PortSt.trailer
  simp only [mkWord, List.foldl_cons, List.foldl_nil]
  repeat rw [fld_setFld_other _ _ _ _ _ _ (by decide) (by decide)]
  rw [fld_setFld_same _ _ _ _ (by decide)]
  norm_num

theorem trailer_seq (x : PortSt) (kind next vc seq : Nat) (fl : List (BitVec 512)) :
    fld (x.trailer kind next vc seq fl) 113 90 = seq % 2 ^ 24 := by
  unfold PortSt.trailer
  simp only [mkWord, List.foldl_cons, List.foldl_nil]
  repeat rw [fld_setFld_other _ _ _ _ _ _ (by decide) (by decide)]
  rw [fld_setFld_same _ _ _ _ (by decide)]

section
variable (s : State) (p : Port)

theorem fillTo_sends (k n : Nat) : ∃ new, s.PortSends (s.fillTo k p n) p new := by
  induction k generalizing s with
  | zero => exact ⟨_, .refl s p⟩
  | succ k ih =>
    unfold State.fillTo
    split
    next r hr =>
      split
      · obtain ⟨new, h⟩ := ih (s.sendIdle p 0)
        exact ⟨_, (sendIdle_sends s p 0).trans h⟩
      · exact ⟨_, .refl s p⟩
    · exact ⟨_, .refl s p⟩

theorem sendAnnounced_sends (kind vc seq : Nat) (fl : List (BitVec 512)) : ∃ (x : PortSt) (new : _),
    s.PortSends (s.sendAnnounced p kind vc seq fl) p ((p, x.trailer kind 0 vc seq fl, fl) :: new) := by
  obtain ⟨new, h⟩ := fillTo_sends s p 34 (64 * fl.length + 32)
  exact ⟨_, _, (h.trans (sendIdle_sends _ p fl.length)).trans (sendFrame_sends _ p kind 0 vc seq fl)⟩

/-- The record of a port that keeps a frame for replay. -/
def PortSt.keep (x : PortSt) (poison : Bool) (vc : Nat) (fl : List (BitVec 512)) (now : Nat) : PortSt :=
  { x with next := (x.next + 1) % 2 ^ 24, replay := x.replay ++ [⟨x.next, poison, vc, fl, now⟩] }

/-- What a frame sent and kept for replay leaves. -/
structure State.SendsData (s t : State) (p : Port) (poison : Bool) (vc : Nat) (fl : List (BitVec 512)) : Prop where
  same : s.Alters t [.lanes, .out, .ports] NoReg
  port : ((s.port p).keep poison vc fl s.clk).Sent (t.port p)
  frames : (sentFrames t.out).head?.map (fun e => (e.1, fld e.2.1 127 126, fld e.2.1 117 114, fld e.2.1 113 90, e.2.2)) =
    some (p, (if poison then 3 else 1), vc % 16, (s.port p).next % 2 ^ 24, fl)

theorem sendData_sends (poison : Bool) (vc : Nat) (fl : List (BitVec 512)) : s.SendsData (s.sendData p poison vc fl) p poison vc fl := by
  obtain ⟨x, new, h⟩ := sendAnnounced_sends s p (if poison then 3 else 1) vc (s.port p).next fl
  obtain ⟨u, hu⟩ : ∃ u, u = s.sendAnnounced p (if poison then 3 else 1) vc (s.port p).next fl := ⟨_, rfl⟩
  have ht : s.sendData p poison vc fl = u.modPort p (fun x => { x with
      next := ((s.port p).next + 1) % 2 ^ 24, replay := x.replay ++ [⟨(s.port p).next, poison, vc, fl, s.clk⟩], quietAt := u.clk }) := by
    rw [hu]
    rfl
  rw [← hu] at h
  refine ⟨?_, ?_, ?_⟩
  · rw [ht]
    exact h.same.trans (alters_modPort _ _)
  · rw [ht, port_modPort_same, h.port]
    rfl
  · have ho : (s.sendData p poison vc fl).out = u.out := by rw [ht]; rfl
    rw [ho, h.frames, List.cons_append, List.head?_cons, Option.map_some, trailer_kind, trailer_vc, trailer_seq]
    cases poison <;> rfl

/-- A link-local message leaves (R401). -/
theorem egress_local {m : BitVec 512} {ms : List (BitVec 512)} (hm : s.maySend p = true) (h4 : s.portState p ≠ 4)
    (hr : (s.port p).resend = none) (hx : (s.port p).txLocal = m :: ms) (hroom : (s.port p).room 1 = true) :
    ∃ t, doEgressFrameStart p s = t ∧ s.Alters t [.regs, .ports, .lanes, .out] AnyReg ∧ (t.port p).txLocal = ms ∧
    (t.port p).next = ((s.port p).next + 1) % 2 ^ 24 ∧
    (t.port p).replay = (s.port p).replay ++ [⟨(s.port p).next, false, 15, [m], s.clk⟩] ∧
    (sentFrames t.out).head?.map (fun e => (e.1, fld e.2.1 127 126, fld e.2.1 117 114, fld e.2.1 113 90, e.2.2)) =
      some (p, 1, 15, (s.port p).next % 2 ^ 24, [m]) ∧
    t.rb (.llCtrl (.port p)) 4 = (if ms = [] then false else s.rb (.llCtrl (.port p)) 4) := by
  obtain ⟨u, hu⟩ : ∃ u, u = s.modPort p (fun x => { x with txLocal := ms }) := ⟨_, rfl⟩
  have hsu : s.Alters u [.ports] NoReg := hu ▸ alters_modPort _ _
  have hpu : u.port p = { s.port p with txLocal := ms } := hu ▸ port_modPort_same ..
  have hd := sendData_sends u p false 15 [m]
  obtain ⟨v, hv⟩ : ∃ v, v = u.sendData p false 15 [m] := ⟨_, rfl⟩
  rw [← hv] at hd
  have hsv : s.Alters v [.lanes, .out, .ports] NoReg := hsu.mono.trans hd.same
  have hpv := hd.port
  rw [hpu, hsu.clk] at hpv
  have hf := hd.frames
  rw [hpu] at hf
  have ht : doEgressFrameStart p s = if ms = [] then v.wb (.llCtrl (.port p)) 4 false else v := by
    unfold doEgressFrameStart
    rw [hm, if_neg (by decide), if_neg h4]
    simp -zeta only [hr, hx]
    rw [if_pos hroom, hv, hu]
  rw [ht]
  split
  · refine ⟨_, rfl, (hsv.any.mono (by decide)).trans (alters_wb _ _ trivial), ?_, ?_, ?_, hf, rb_wb_same _ _ _ _ (by decide)⟩
    all_goals rw [port_wb, hpv]; rfl
  · refine ⟨v, rfl, hsv.any.mono (by decide), ?_, ?_, ?_, hf, hsv.rb id 4⟩
    all_goals rw [hpv]; rfl

/-- In a retrain whose frames have resumed an IDLE frame goes (R104). -/
theorem egress_retrain (hm : s.maySend p = true) (h4 : s.portState p = 4) : doEgressFrameStart p s = s.sendIdle p 0 := by
  unfold doEgressFrameStart
  rw [hm, if_neg (by decide), if_pos h4]

theorem sendStretch_ackOwed (bs : List Byte) : ((s.sendStretch p bs).port p).ackOwed = (s.port p).ackOwed := by
  unfold State.sendStretch
  extract_lets x w u
  have hu : s.LanesSend u := .foldl (fun t e => by
    split
    · exact .refl t
    · exact sendCodeword_lanesSend ..) _ _
  rw [port_modPort_same, port_of_ports hu.same.ports]

theorem putBytes_ackOwed (bs : List Byte) : ((s.putBytes p bs).port p).ackOwed = (s.port p).ackOwed := by
  unfold State.putBytes
  extract_lets x n all
  split
  · rw [port_modPort_same]
  · rw [sendStretch_ackOwed, port_modPort_same]

/-- Every frame carries what is owed of acknowledgement (R84). -/
theorem sendFrame_ackOwed (kind next vc seq : Nat) (fl : List (BitVec 512)) :
    ((s.sendFrame p kind next vc seq fl).port p).ackOwed = false := by
  unfold State.sendFrame
  extract_lets x c t n u
  have hu : (u.emit (.frame p t fl)).port p = u.port p := rfl
  rw [putBytes_ackOwed, hu, port_modPort_same]

/-! ### Frames of committed packets (R401) -/

/-- A port's record, but for its input buffer, its output VCs and the credits in use. -/
def PortSt.Flows (x y : PortSt) : Prop :=
  y.next = x.next ∧ y.replay = x.replay ∧ y.turn = x.turn

theorem PortSt.Took.flows {x y : PortSt} (h : x.Took y) : x.Flows y := by rw [h]; exact ⟨rfl, rfl, rfl⟩

/-- What a frame of an output VC leaves. -/
structure State.SendsVc (s t : State) (p : Port) (vc : Nat) (fs : List Flit) : Prop where
  same : s.Alters t [.regs, .ports, .worms, .inject, .lanes, .out] AnyReg
  next : (t.port p).next = ((s.port p).next + 1) % 2 ^ 24
  replay : (t.port p).replay = (s.port p).replay ++ [⟨(s.port p).next, (fs.map (fun f => f.poison)).headD false, vc,
    fs.map (fun f => f.bits), s.clk⟩]
  turn : (t.port p).turn = (s.port p).turn

theorem pm_any (b : Block) (code filt n : Nat) : s.Alters (s.pm b code filt n) [.regs] AnyReg := .pm _ _ _ _ _ fun _ => trivial

/-- The flits charged and taken from their source. -/
theorem sendVc_taken (k n v : Nat) : ∃ u, u = (s.modPort p (fun x => x.chargeN v n)).takeSrc k n ∧
    s.Alters u [.ports, .inject] NoReg ∧ (s.port p).Flows (u.port p) := by
  obtain ⟨w, hw⟩ : ∃ w, w = s.modPort p (fun x => x.chargeN v n) := ⟨_, rfl⟩
  have hsw : s.Alters w [.ports, .inject] NoReg := hw ▸ alters_modPort _ _
  have hpw : (s.port p).Flows (w.port p) := by
    rw [hw, port_modPort_same]
    exact ⟨rfl, rfl, rfl⟩
  have hwu : w.Alters (w.takeSrc k n) [.ports, .inject] NoReg := by
    unfold State.takeSrc
    exact .ite (alters_modPort _ _) (.put_inject _ _)
  obtain ⟨h1, h2, h3⟩ := ((takeSrc_takes w p k n).port p).flows
  obtain ⟨g1, g2, g3⟩ := hpw
  exact ⟨w.takeSrc k n, by rw [hw], hsw.trans hwu, h1.trans g1, h2.trans g2, h3.trans g3⟩

theorem flows_worms (f : PortSt → PortSt) (w : Tab Worm) (hf : ∀ x : PortSt, x.Flows (f x)) :
    (s.port p).Flows (({ s.modPort p f with worms := w } : State).port p) := by
  have h : ({ s.modPort p f with worms := w } : State).port p = f (s.port p) := port_modPort_same s p f
  rw [h]
  exact hf _

/-- A packet lets its output VC go, or keeps it for what is left of it (R135). -/
theorem releaseVc (v : Nat) (o : OutVc) (n : Nat) : ∃ t, t = (if o.left ≤ n then
      { (s.modPort p (fun x => { x with outv := tDel v x.outv })) with worms := tDel o.src s.worms }
    else
      { (s.modPort p (fun x => { x with outv := tPut v { o with left := o.left - n, head := false } x.outv })) with
        worms := s.worms.map (fun (e : Nat × Worm) => if e.1 = o.src then (e.1, { e.2 with left := e.2.left - n }) else e) }) ∧
    s.Alters t [.ports, .worms] NoReg ∧ (s.port p).Flows (t.port p) := by
  refine ⟨_, rfl, ?_, ?_⟩
  · split
    · exact State.Alters.trans (F := [.ports, .worms]) (P := NoReg) (alters_modPort _ _) (.put_worms _ _)
    · exact State.Alters.trans (F := [.ports, .worms]) (P := NoReg) (alters_modPort _ _) (.put_worms _ _)
  · split
    · exact flows_worms s p _ _ fun _ => ⟨rfl, rfl, rfl⟩
    · exact flows_worms s p _ _ fun _ => ⟨rfl, rfl, rfl⟩

theorem sendVc_sends (v : Nat) (o : OutVc) (fs : List Flit) : s.SendsVc (s.sendVc p v o fs) p v fs := by
  obtain ⟨u, hu, hsu, u1, u2, u3⟩ := sendVc_taken s p o.src fs.length v
  obtain ⟨poison, hpo⟩ : ∃ b, b = (fs.map (fun f => f.poison)).headD false := ⟨_, rfl⟩
  have hd := sendData_sends u p poison v (fs.map (fun f => f.bits))
  obtain ⟨w, hw⟩ : ∃ w, w = u.sendData p poison v (fs.map (fun f => f.bits)) := ⟨_, rfl⟩
  rw [← hw] at hd
  obtain ⟨x, hx⟩ : ∃ x, x = w.pm (.port p) 0x01 v fs.length := ⟨_, rfl⟩
  obtain ⟨y, hy⟩ : ∃ y, y = if o.head then x.pm (.port p) 0x03 o.tc 1 else x := ⟨_, rfl⟩
  obtain ⟨t, ht, hyt, t1, t2, t3⟩ := releaseVc y p v o fs.length
  have hwx : w.Alters x [.regs] AnyReg := hx ▸ pm_any w _ _ _ _
  have hxy : x.Alters y [.regs] AnyReg := hy ▸ .ite (pm_any x _ _ _ _) (.refl x)
  have he : s.sendVc p v o fs = t := by
    rw [ht, hy, hx, hw, hu, hpo]
    cases fs <;> rfl
  have hpy : y.port p = w.port p := port_of_ports (hxy.ports.trans hwx.ports) p
  have hpw := hd.port
  rw [hpy, hpw] at t1 t2 t3
  rw [he]
  refine ⟨?_, ?_, ?_, ?_⟩
  · exact ((hsu.any.mono (by decide)).trans (hd.same.any.mono (by decide))).trans
      (((hwx.trans hxy).mono (by decide)).trans (hyt.any.mono (by decide)))
  · rw [t1]
    exact congrArg (fun n => (n + 1) % 2 ^ 24) u1
  · rw [t2, ← hpo, ← u1, ← u2, ← hsu.clk]
    rfl
  · rw [t3]
    exact u3

theorem egress_scheduled (hm : s.maySend p = true) (h3 : s.portState p = 3) (hs : s.tack.stopping = false)
    (hr : (s.port p).resend = none) (hx : (s.port p).txLocal = []) : doEgressFrameStart p s = match s.vc0Frame p with
      | some t => t
      | none => if (s.scheduled p).1 then (s.scheduled p).2 else (s.scheduled p).2.sendIdle p 0 := by
  unfold doEgressFrameStart
  rw [hm, if_neg (by decide), if_neg (by rw [h3]; decide)]
  simp -zeta only [hr, hx]
  refine (if_neg (by rw [h3, hs]; decide)).trans ?_
  cases s.vc0Frame p <;> rfl

theorem egress_vc0 {o : OutVc} {fs : List Flit} (hm : s.maySend p = true) (h3 : s.portState p = 3) (hs : s.tack.stopping = false)
    (hr : (s.port p).resend = none) (hx : (s.port p).txLocal = []) (hc : s.candFrame p 0 = some (o, fs)) :
    doEgressFrameStart p s = s.sendVc p 0 o fs := by
  rw [egress_scheduled s p hm h3 hs hr hx]
  unfold State.vc0Frame
  rw [hc]

/-- TC7 has no shaper (R403). -/
theorem serve_class7 (c : Nat × OutVc × List Flit) :
    s.serve p 7 c = (s.modPort p (fun x => { x with turn := tPut 7 c.1 x.turn })).sendVc p c.1 c.2.1 c.2.2 := by
  unfold State.serve
  extract_lets n u v
  rw [show v = u from if_neg (fun e => absurd e.2 (by decide))]

theorem egress_class7 {c : Nat × OutVc × List Flit} (hm : s.maySend p = true) (h3 : s.portState p = 3)
    (hs : s.tack.stopping = false) (hr : (s.port p).resend = none) (hx : (s.port p).txLocal = []) (hc : s.candFrame p 0 = none)
    (hb : (s.port p).txBypass = []) (h7 : s.classPick p 7 = some c) :
    doEgressFrameStart p s = (s.modPort p (fun x => { x with turn := tPut 7 c.1 x.turn })).sendVc p c.1 c.2.1 c.2.2 := by
  rw [egress_scheduled s p hm h3 hs hr hx]
  have hv : s.vc0Frame p = none := by
    unfold State.vc0Frame
    rw [hc, hb]
  have hsc : s.scheduled p = (true, s.serve p 7 c) := by
    unfold State.scheduled
    rw [h7]
  rw [hv, hsc]
  exact (if_pos rfl).trans (serve_class7 s p c)

end

/-! ### Host links (R88, R96, R152) -/

/-- A host link's record after it has sent, an ACK perhaps among it (R96). -/
def HostLl.Talked (x y : HostLl) : Prop :=
  y = { x with sinceAck := y.sinceAck, sinceSet := y.sinceSet, sentTo := y.sentTo, quietAt := y.quietAt, ackDue := y.ackDue,
               ackCnt := y.ackCnt }

theorem HostLl.Talked.trans {x y z : HostLl} (h : x.Talked y) (k : y.Talked z) : x.Talked z := Eq.trans k (by rw [h])
theorem HostLl.Sent.talked {x y : HostLl} (h : x.Sent y) : x.Talked y := by rw [h]; rfl

section
variable (s : State) (h : HLink)

theorem putPacket_talked (ty seq : Nat) (body : List Byte) : (s.hl h).Talked ((s.putPacket h ty seq body).hl h) :=
  (putPacket_spec s h ty seq body).1.link.talked

theorem talked_acked (x : HostLl) (now : Nat) : x.Talked
    { x with quietAt := if x.ackDue then now else x.quietAt, ackDue := false, ackCnt := 0, sinceAck := 0 } := rfl

theorem sendHostAck_talked : (s.hl h).Talked ((s.sendHostAck h).hl h) := by
  obtain ⟨body, hb⟩ : ∃ body, body = beBytes 8 ((s.hl h).lastAcc * 2 ^ 48) := ⟨_, rfl⟩
  have hp := putPacket_talked s h 8 0 body
  unfold State.sendHostAck
  rw [← hb, hl_modHl_same]
  exact hp.trans (talked_acked _ _)

theorem sendPacket_talked (ty seq : Nat) (body : List Byte) : (s.hl h).Talked ((s.sendPacket h ty seq body).hl h) := by
  have hp := putPacket_talked s h ty seq body
  unfold State.sendPacket
  extract_lets u
  split
  · exact hp.trans (sendHostAck_talked u h)
  · exact hp

/-- A replay goes before any new TLP (R88). -/
theorem hostTlp_resends {f : HTx} {fs : List HTx} (h3 : s.hlState h.val = 3) (hi : (s.hl h).txIdle = false)
    (hr : (s.hl h).resend = some f.seq) (hq : (s.hl h).replay = f :: fs) (ha : (s.hl h).sinceAck < 65535) :
    ∃ t, doHostTlpStart h s = t ∧ s.Alters t [.hll, .lanes, .out] NoReg ∧
    sentPackets t.out = (h, linkPacket (b2n f.rsp) f.seq f.body) :: sentPackets s.out ∧
    (t.hl h).resend = (fs.head?).map (fun g => g.seq) ∧ (t.hl h).next = (s.hl h).next := by
  obtain ⟨u, hu⟩ : ∃ u, u = s.sendPacket h (b2n f.rsp) f.seq f.body := ⟨_, rfl⟩
  have hs : s.HostSends u h [(h, linkPacket (b2n f.rsp) f.seq f.body)] := hu ▸ sendPacket_sends s h _ _ _ ha
  have hd : (s.hl h).replay.dropWhile (fun g => g.seq ≠ f.seq) = f :: fs := by
    rw [hq]
    exact List.dropWhile_cons_of_neg (by simp)
  have hre : s.resendTlp h f.seq = u.modHl h (fun x => { x with
      replay := x.replay.map (fun g => if g.seq = f.seq then { g with sentAt := u.clk } else g),
      resend := (fs.head?).map (fun g => g.seq), quietAt := u.clk }) := by
    unfold State.resendTlp
    rw [hd, hu]
  have ht := hre
  rw [← show doHostTlpStart h s = s.resendTlp h f.seq by
    unfold doHostTlpStart
    extract_lets x
    rw [if_neg (by rw [h3, show x.txIdle = false from hi]; decide), show x.resend = some f.seq from hr]] at ht
  rw [ht]
  refine ⟨_, rfl, hs.same.mono.trans (alters_modHl _ _), hs.packets, ?_, ?_⟩
  · rw [hl_modHl_same]
  · rw [hl_modHl_same, hs.link]

/-- What a TLP that is sent and kept for replay leaves. -/
theorem sendTlp_spec (rsp : Bool) (n : Nat) (body : List Byte) (wtag : Option Nat) :
    s.Alters (s.sendTlp h rsp n body wtag) [.regs, .hll, .lanes, .out] AnyReg ∧
    ((s.sendTlp h rsp n body wtag).hl h).next = ((s.hl h).next + 1) % 65536 ∧
    ((s.sendTlp h rsp n body wtag).hl h).replay = (s.hl h).replay ++ [⟨(s.hl h).next, rsp, body, s.clk, wtag⟩] ∧
    ((s.sendTlp h rsp n body wtag).hl h).turn = !rsp := by
  obtain ⟨u, hu⟩ : ∃ u, u = s.sendPacket h (b2n rsp) (s.hl h).next body := ⟨_, rfl⟩
  have hsu : s.HostTalks u h := hu ▸ sendPacket_talks s h _ _ _
  have hlu : (s.hl h).Talked (u.hl h) := hu ▸ sendPacket_talked s h _ _ _
  obtain ⟨v, hv⟩ : ∃ v, v = u.modHl h (fun x => { x with
    next := ((s.hl h).next + 1) % 65536, replay := x.replay ++ [⟨(s.hl h).next, rsp, body, u.clk, wtag⟩],
    used := x.used.add rsp (hostUnits n), turn := !rsp, quietAt := u.clk }) := ⟨_, rfl⟩
  have ht : s.sendTlp h rsp n body wtag =
      (v.pm (.hostlink h) 0x11 (b2n rsp) 1).pm (.hostlink h) 0x13 (b2n rsp) (hostUnits n) := by
    rw [hv, hu]
    rfl
  have huv : u.Alters v [.hll] NoReg := hv ▸ alters_modHl _ _
  have hvt : v.Alters (s.sendTlp h rsp n body wtag) [.regs] AnyReg := ht ▸ (pm_any v _ _ _ _).trans (pm_any _ _ _ _ _)
  have hlt : (s.sendTlp h rsp n body wtag).hl h = v.hl h := hl_of_hll hvt.hll h
  refine ⟨(hsu.same.any.mono (by decide)).trans ((huv.any.mono (by decide)).trans (hvt.mono (by decide))), ?_, ?_, ?_⟩
  · rw [hlt, hv, hl_modHl_same]
  · rw [hlt, hv, hl_modHl_same, hsu.same.clk, hlu]
  · rw [hlt, hv, hl_modHl_same]

/-- The region table tells a read of a walk (R157). -/
def RdReq.Allowed (r : RdReq) (s : State) (h : HLink) : Prop :=
  (match r.purpose with | .walk _ => s.isMemory h.val r.addr | _ => true) = true

theorem buildRead_eq {r : RdReq} {g : Nat} (hg : s.freeTag h = some g) (hm : s.mayTlp h false 0 = true) (hp : r.Allowed s h) :
    s.buildRead h r = some ((s.modTl h.val (fun t => { t with
        reads := tPut g ⟨r.addr, r.len, r.ctx, r.fn, r.purpose, [], s.clk, false⟩ t.reads })).sendTlp h false 0
      (tlpHeader 0x11 r.fn [(111, 100, g), (99, 87, r.len), (63, 0, r.addr)]) none) := by
  unfold State.buildRead
  rw [hg, hm]
  unfold RdReq.Allowed at hp
  cases hr : r.purpose <;> simp_all

/-- The limits on a read look at neither queue of the link. -/
theorem freeTag_modTl (f : HostTl → HostTl) (hf : ∀ x, (f x).reads = x.reads ∧ (f x).withheld = x.withheld) :
    (s.modTl h.val f).freeTag h = s.freeTag h := by
  have ht := tl_modTl_same s h.val f
  obtain ⟨h1, h2⟩ := hf (s.tl h.val)
  unfold State.freeTag
  extract_lets t top t' top'
  have hr : t.reads = t'.reads := (congrArg HostTl.reads ht).trans h1
  have hw : t.withheld = t'.withheld := (congrArg HostTl.withheld ht).trans h2
  rw [hr, hw]
  rfl

/-- An MRD leaves (R152). -/
theorem hostTlp_reads {r : RdReq} {q : List ReqTlp} {g : Nat} (h3 : s.hlState h.val = 3) (hi : (s.hl h).txIdle = false)
    (hr : (s.hl h).resend = none) (hh : s.holdHost ≠ some h.val) (hturn : (s.hl h).turn = false)
    (hen : s.rb (.hlCtrl h) 0 = true) (hq : (s.tl h.val).reqQ = .rd r :: q) (hg : s.freeTag h = some g)
    (hm : s.mayTlp h false 0 = true) (hp : r.Allowed s h) : ∃ t, doHostTlpStart h s = t ∧
    s.Alters t [.regs, .ht, .hll, .lanes, .out] AnyReg ∧ (t.tl h.val).reqQ = q ∧
    tFind (t.tl h.val).reads g = some ⟨r.addr, r.len, r.ctx, r.fn, r.purpose, [], s.clk, false⟩ ∧
    (t.hl h).next = ((s.hl h).next + 1) % 65536 ∧ (t.hl h).replay = (s.hl h).replay ++
      [⟨(s.hl h).next, false, tlpHeader 0x11 r.fn [(111, 100, g), (99, 87, r.len), (63, 0, r.addr)], s.clk, none⟩] ∧
    (t.hl h).turn = true := by
  obtain ⟨u, hu⟩ : ∃ u, u = s.modTl h.val (fun t => { t with reqQ := q }) := ⟨_, rfl⟩
  have hgu : u.freeTag h = some g := by
    rw [hu, freeTag_modTl s h (fun t => { t with reqQ := q }) fun _ => ⟨rfl, rfl⟩]
    exact hg
  have hmu : u.mayTlp h false 0 = true := hu ▸ hm
  have hpu : r.Allowed u h := hu ▸ hp
  have hsu : s.Alters u [.regs, .ht, .hll, .lanes, .out] AnyReg := hu ▸ .put_ht _ _
  have hlu : u.hl h = s.hl h := hl_of_hll (hu ▸ rfl) h
  have htu : u.tl h.val = { s.tl h.val with reqQ := q } := by rw [hu, tl_modTl_same]
  obtain ⟨v, hv⟩ : ∃ v, v = u.modTl h.val (fun t => { t with
    reads := tPut g ⟨r.addr, r.len, r.ctx, r.fn, r.purpose, [], u.clk, false⟩ t.reads }) := ⟨_, rfl⟩
  have huv : u.Alters v [.regs, .ht, .hll, .lanes, .out] AnyReg := hv ▸ .put_ht _ _
  have hlv : v.hl h = s.hl h := (hl_of_hll (hv ▸ rfl) h).trans hlu
  have htv : v.tl h.val = { s.tl h.val with
      reqQ := q, reads := tPut g ⟨r.addr, r.len, r.ctx, r.fn, r.purpose, [], s.clk, false⟩ (s.tl h.val).reads } := by
    rw [hv, tl_modTl_same, htu, hsu.clk]
  obtain ⟨body, hb⟩ : ∃ body, body = tlpHeader 0x11 r.fn [(111, 100, g), (99, 87, r.len), (63, 0, r.addr)] := ⟨_, rfl⟩
  have hbuild : s.buildReq h = some (v.sendTlp h false 0 body none) := by
    unfold State.buildReq
    rw [hen, if_neg (by decide), hq]
    simp -zeta only []
    rw [← hu, buildRead_eq u h hgu hmu hpu, hv, hb]
  have ht : doHostTlpStart h s = v.sendTlp h false 0 body none := by
    unfold doHostTlpStart
    extract_lets x a
    rw [if_neg (by rw [h3, show x.txIdle = false from hi]; decide), show x.resend = none from hr]
    simp -zeta only []
    rw [if_neg hh, show a = some (v.sendTlp h false 0 body none) from (if_neg (by rw [hturn]; decide)).trans hbuild]
  obtain ⟨hs, h1, h2, h4⟩ := sendTlp_spec v h false 0 body none
  have htl : (v.sendTlp h false 0 body none).tl h.val = v.tl h.val := by rw [State.tl, State.tl, hs.ht]
  refine ⟨_, ht, (hsu.trans huv).trans (hs.mono (by decide)), ?_, ?_, ?_, ?_, h4⟩
  · rw [htl, htv]
  · rw [htl, htv, tFind_tPut_same]
  · rw [h1, hlv]
  · rw [h2, hlv, huv.clk, hsu.clk, hb]

end

/-- Settles O16. -/
theorem egressFramesAndHostTlpsLeave : Obligations.EgressFramesAndHostTlpsLeave := by
  unfold Obligations.EgressFramesAndHostTlpsLeave
  refine ⟨?_, ?_, ?_, ?_, ?_, ?_⟩
  · intro s p m ms hc hl hm h4 hr hx hroom
    obtain ⟨t, ht, ha, h1, h2, h3, h5, h6⟩ := egress_local s p hm h4 hr hx hroom
    exact ⟨t, act_of_alters hl hc ht ha, h1, h2, h3, h5, h6, ha.eq_portSent⟩
  · intro s p o fs hc hl hm h3 hs hr hx hcand
    have hk := sendVc_sends s p 0 o fs
    exact ⟨_, act_of_alters hl hc (egress_vc0 s p hm h3 hs hr hx hcand) hk.same, hk.next, hk.replay, hk.turn, hk.same.hbm, hk.same.buf⟩
  · intro s p c hc hl hm h3 hs hr hx hcand hb h7
    obtain ⟨u, hu⟩ : ∃ u, u = s.modPort p (fun x => { x with turn := tPut 7 c.1 x.turn }) := ⟨_, rfl⟩
    have hpu : u.port p = { s.port p with turn := tPut 7 c.1 (s.port p).turn } := hu ▸ port_modPort_same ..
    have hsu : s.Alters u [.regs, .ports, .worms, .inject, .lanes, .out] AnyReg := hu ▸ alters_modPort _ _
    have hk := sendVc_sends u p c.1 c.2.1 c.2.2
    have ht : doEgressFrameStart p s = u.sendVc p c.1 c.2.1 c.2.2 := hu ▸ egress_class7 s p hm h3 hs hr hx hcand hb h7
    refine ⟨_, act_of_alters hl hc ht (hsu.trans hk.same), ?_, ?_, ?_, (hsu.trans hk.same).hbm, (hsu.trans hk.same).buf⟩
    · rw [hk.next, hpu]
    · rw [hk.replay, hpu, hsu.clk]
    · rw [hk.turn, hpu, tFind_tPut_same]
  · intro s p hc hl hm h4
    have hs := sendIdle_sends s p 0
    refine ⟨_, act_of_alters hl hc (egress_retrain s p hm h4) hs.same, ?_, ?_, sendFrame_ackOwed .., ?_, ?_, ?_⟩
    · rw [hs.port]
    · rw [hs.port]
    · rw [hs.frames]
      rfl
    · rw [hs.frames, List.singleton_append, List.head?_cons, Option.map_some, trailer_kind]
    · exact (hs.same.mono (by decide)).eq_links.trans (by rw [hs.same.regs, hs.same.frees, hs.same.hll])
  · intro s h f fs hc hl h3 hi hr hq ha
    obtain ⟨t, ht, hal, h1, h2, h4⟩ := hostTlp_resends s h h3 hi hr hq ha
    exact ⟨t, act_of_alters hl hc ht hal, h1, h2, h4,
      (hal.mono (by decide)).eq_links.trans (by rw [hal.regs, hal.frees, hal.ports])⟩
  · intro s h r q g hc hl h3 hi hr hh hturn hen hq hg hm hp
    obtain ⟨t, ht, ha, h1, h2, h4, h5, h6⟩ := hostTlp_reads s h h3 hi hr hh hturn hen hq hg hm (r := r) (by
      unfold RdReq.Allowed
      exact hp)
    exact ⟨t, act_of_alters hl hc ht ha, h1, h2, h4, h5, h6, ha.hbm⟩

end Sys2Proof.Machine
end

section
/-! PROOFS. Links stop (R62, R108, R109): their lanes, and what a port that is fenced or disabled leaves. -/

namespace Sys2Proof.Machine

-- The proofs are elaborated one after another: in parallel their threads' stacks need more memory than a compile may have.
set_option Elab.async false

/-! ### Lanes stop -/

section
variable (s : State) (n : LaneId)

theorem checkerStops_onLane : s.OnLane (s.checkerStops n) n [.regs, .lanes] := by
  unfold State.checkerStops
  extract_lets b
  exact (onLane_wb _ _ (laneAt_of_mem (by simp [laneRegs]))).trans (onLane_modLane _)

/-- A lane that is turned off: before its state is written. -/
theorem laneOff_eq : ∃ u, s.OnLane u n [.regs, .lanes] ∧ u.rb (.laneCtrl n) 3 = s.rb (.laneCtrl n) 3 ∧
    s.laneOff n = (u.setLane n 0).modLane n (fun x => { x with step := 0, txIdle := false, rxIdle := false }) := by
  obtain ⟨a, ha⟩ : ∃ a, a = if s.laneState n = 1 then s.forcedTaps n else s := ⟨_, rfl⟩
  obtain ⟨b, hb⟩ : ∃ b, b = a.wb (.laneCtrl n) 4 false := ⟨_, rfl⟩
  obtain ⟨c, hc⟩ : ∃ c, c = if (b.lane n).chkSince.isSome then b.checkerStops n else b := ⟨_, rfl⟩
  have hsa : s.Alters a [.regs] (TxeqAt n) := ha ▸ .ite (forcedTaps_alters s n) (.refl s)
  have hab : a.OnLane b n [.regs, .lanes] := hb ▸ onLane_wb _ _ (at_laneCtrl n)
  have hbc : b.OnLane c n [.regs, .lanes] := hc ▸ .ite (checkerStops_onLane b n) (.refl b n)
  have hcu : c.OnLane (c.unlock n) n [.regs, .lanes] := unlock_onLane c n
  refine ⟨c.unlock n, (((onLane_of_txeq s n hsa).trans hab).trans hbc).trans hcu, ?_, ?_⟩
  · have h1 : c.rb (.laneCtrl n) 3 = b.rb (.laneCtrl n) 3 := by
      rw [hc]
      split
      · unfold State.checkerStops
        rw [rb_modLane, State.rb, State.rb, reg_wb_other _ _ _ _ _ (lane_reg_ne 0 0x20 rfl rfl)]
      · rfl
    rw [State.rb, State.unlock, reg_wf_other _ _ _ _ _ _ (lane_reg_ne 0 8 rfl rfl)]
    refine h1.trans ?_
    rw [hb, rb_wb_bit_other _ _ _ (by decide) (by decide), hsa.rb (ctrl_not_txeq n)]
  · rw [hc, hb, ha]
    rfl

theorem laneOff_onLane : s.OnLane (s.laneOff n) n [.regs, .lanes] := by
  obtain ⟨u, hu, -, ht⟩ := laneOff_eq s n
  rw [ht]
  exact (hu.trans (setLane_onLane u n 0)).trans (onLane_modLane _)

theorem laneState_laneOff : (s.laneOff n).laneState n = 0 := by
  obtain ⟨u, -, -, ht⟩ := laneOff_eq s n
  rw [ht, laneState_modLane]
  exact laneState_setLane u n (by decide)

theorem laneOn_laneOff : (s.laneOff n).laneOn n = s.laneOn n := by
  obtain ⟨u, -, hu, ht⟩ := laneOff_eq s n
  rw [State.laneOn, State.laneOn, ht, rb_modLane, State.rb, reg_setLane_ctrl]
  exact hu

/-- What a link that stops makes of one lane. -/
def State.stopOne (t : State) (n : LaneId) : State := if t.laneState n = 6 then t else t.laneOff n

theorem stopOne_onLane : s.OnLane (s.stopOne n) n [.regs, .lanes] := .ite (.refl s n) (laneOff_onLane s n)

theorem laneState_stopOne : (s.stopOne n).laneState n = if s.laneState n = 6 then 6 else 0 := by
  unfold State.stopOne
  split
  next h => exact h
  · exact laneState_laneOff s n

theorem laneOn_stopOne : (s.stopOne n).laneOn n = s.laneOn n := by
  unfold State.stopOne
  split
  · rfl
  · exact laneOn_laneOff s n

end

/-- What a link whose lanes stop leaves. -/
structure State.LanesStop (s t : State) (l : LinkId) : Prop where
  same : s.Alters t [.regs, .lanes] AnyLaneAt
  state : ∀ n ∈ linkLanes l, t.laneState n = if s.laneState n = 6 then 6 else 0
  on : ∀ n ∈ linkLanes l, t.laneOn n = s.laneOn n

theorem lanesStop_stops (s : State) (l : LinkId) : s.LanesStop (s.lanesStop l) l := by
  rw [show s.lanesStop l = (linkLanes l).foldl State.stopOne s from rfl]
  refine ⟨foldl_any stopOne_onLane _ _, fun n hn => ?_, fun n hn => ?_⟩ <;>
    obtain ⟨u, -, h1, h2⟩ := foldl_lane stopOne_onLane (linkLanes l) s hn (linkLanes_nodup l)
  · rw [h2.laneState, laneState_stopOne, h1.laneState]
  · rw [State.laneOn, h2.rb_ctrl, ← State.laneOn, laneOn_stopOne, State.laneOn, h1.rb_ctrl, State.laneOn]

/-! ### The lanes of a link train -/

theorem laneOn_of_same {s t : State} {n : LaneId} (h : s.SameLane t n) : t.laneOn n = s.laneOn n := h.rb_ctrl 3

/-- Every enabled lane of a powered link trains. -/
theorem trainLink_state (s : State) (l : LinkId) {n : LaneId} (hn : n ∈ linkLanes l) (hd : s.dust = false) (ho : s.laneOn n = true) :
    (s.trainLink l).laneState n = 1 := by
  have hp : s.poweredLanes l = linkLanes l := List.filter_eq_self.mpr fun _ _ => by rw [hd]; rfl
  obtain ⟨u, -, h1, h2⟩ := foldl_lane trainLane_onLane (s.poweredLanes l) s (hp ▸ hn) (hp ▸ linkLanes_nodup l)
  refine h2.laneState.trans ?_
  exact (trainLane_begun u n ((laneOn_of_same h1).trans ho)).state

/-! ### Packets of a port end (R108) -/

/-- The register that counts discards of a port. -/
abbrev DiscardAt (p : Port) (a : Nat) : Prop := a = (Reg.llDiscard (.port p)).addr

/-- A VC whose flits a port discards (R122), and which holds none. -/
def PortSt.Discards (x : PortSt) (v : Nat) : Prop := x.bad.contains v = true ∧ tGet [] x.ibuf v = []

/-- From `s` to `t` packets have left the input buffers, or been filled up there. -/
structure State.Drains (s t : State) (p : Port) : Prop where
  same : s.Alters t [.regs, .ports, .worms, .eject, .inject] (DiscardAt p)
  port : ∀ q, (s.port q).Took (t.port q)
  lost : ∀ q v, (s.port q).Discards v → (t.port q).Discards v

section
variable {s t u : State} {p : Port}

theorem State.Drains.refl (s : State) (p : Port) : s.Drains s p := ⟨.refl s, fun _ => rfl, fun _ _ => id⟩

theorem State.Drains.trans (h : s.Drains t p) (k : t.Drains u p) : s.Drains u p :=
  ⟨h.same.trans k.same, fun q => (h.port q).trans (k.port q), fun q v d => k.lost q v (h.lost q v d)⟩

theorem State.Drains.foldl {α : Type} {f : State → α → State} (h : ∀ t x, State.Drains t (f t x) p) (xs : List α) (s : State) :
    s.Drains (xs.foldl f s) p :=
  List.foldlRecOn (motive := fun t => s.Drains t p) xs f (.refl s p) fun t ht x _ => ht.trans (h t x)

theorem drains_modPort (q : Port) (f : PortSt → PortSt) (hf : ∀ x : PortSt, x.Took (f x))
    (hl : ∀ v, (s.port q).Discards v → (f (s.port q)).Discards v) : s.Drains (s.modPort q f) p :=
  ⟨alters_modPort _ _, (takes_modPort (p := p) q f (hf _)).port, fun r v d =>
    if h : r = q then by subst h; rw [port_modPort_same]; exact hl v d else by rw [port_modPort_other _ _ h]; exact d⟩

theorem drains_bump (hi lo n : Nat) : s.Drains (s.bump (.llDiscard (.port p)) hi lo n) p :=
  ⟨alters_bump _ _ _ rfl, fun _ => rfl, fun _ _ => id⟩

theorem drains_worms (w : Tab Worm) : s.Drains { s with worms := w } p := ⟨.put_worms _ _, fun _ => rfl, fun _ _ => id⟩
end

section
variable (s : State) (p : Port)

theorem freeNow_buffer (x : PortSt) (v n : Nat) : (x.freeNow v n).ibuf = x.ibuf ∧ (x.freeNow v n).bad = x.bad := by
  unfold PortSt.freeNow
  split <;> exact ⟨rfl, rfl⟩

theorem free_buffer (x : PortSt) (v n : Nat) : (x.free v n).ibuf = x.ibuf ∧ (x.free v n).bad = x.bad :=
  freeNow_buffer ..

theorem tGet_tMod_nil {α : Type} [DecidableEq α] (j k : Nat) (f : List α → List α) (t : Tab (List α)) (hf : f [] = [])
    (h : tGet [] t k = []) : tGet [] (tMod [] j f t) k = [] := by
  by_cases e : k = j
  · subst e
    rw [tGet_tMod_same, h, hf]
  · rw [tGet_tMod_other _ _ _ _ _ e, h]

theorem tGet_tDel_nil {α : Type} {j k : Nat} {t : Tab (List α)} (h : tGet [] t k = []) : tGet [] (tDel j t) k = [] := by
  by_cases e : k = j
  · subst e
    rw [tGet, tFind_tDel_same]
    rfl
  · rw [tGet, tFind_tDel_other _ _ _ e]
    exact h

theorem takeSrc_drains (k n : Nat) : s.Drains (s.takeSrc k n) p := by
  unfold State.takeSrc
  split
  · refine drains_modPort _ _ (fun x => PortSt.Took.trans (free_took x (k % 16) n) rfl) fun v ⟨hb, hi⟩ => ⟨?_, ?_⟩
    · exact (congrArg (·.contains v) (free_buffer _ _ _).2).trans hb
    · exact tGet_tMod_nil _ _ _ _ List.drop_nil hi
  · exact ⟨.put_inject _ _, fun _ => rfl, fun _ _ => id⟩

theorem pump_lost (k : Nat) (q : Port) (v : Nat) (d : (s.port q).Discards v) : ((s.pump k).port q).Discards v := by
  unfold State.pump
  split
  · exact d
  split
  · exact d
  extract_lets fs u left got w
  have hu : (u.port q).Discards v := (takeSrc_drains s q k _).lost q v d
  split
  · split <;> exact hu
  · exact hu

theorem pump_drains (k : Nat) : s.Drains (s.pump k) p := by
  refine ⟨?_, (pump_takes s p k).port, pump_lost s k⟩
  unfold State.pump
  split
  · exact .refl s
  split
  · exact .refl s
  extract_lets fs u left got v
  have hu : s.Alters u [.regs, .ports, .worms, .eject, .inject] (DiscardAt p) := .ite (alters_modPort _ _) (.put_inject _ _)
  have hv : u.Alters v [.regs, .ports, .worms, .eject, .inject] (DiscardAt p) := .put_worms _ _
  exact .ite (.ite ((hu.trans hv).trans (.put_eject _ _)) (hu.trans hv)) (hu.trans (.put_worms _ _))

/-- What the packets that hold output VCs leave: the VCs are free. -/
theorem dropWorms_drains : ∃ u, s.Drains u p ∧ s.dropWorms p = u.modPort p (fun x => { x with outv := [] }) := by
  unfold State.dropWorms
  extract_lets held v w
  refine ⟨w, ?_, rfl⟩
  have hv : s.Drains v p := drains_bump ..
  refine hv.trans (.foldl (fun t e => ?_) _ _)
  split
  · exact (drains_worms _).trans (pump_drains _ p _)
  · exact .refl t p

theorem fillWorms_drains : s.Drains (s.fillWorms p) p := by
  refine .foldl (fun t v => ?_) _ _
  extract_lets k n u
  split
  next =>
    refine drains_modPort p _ (fun x => PortSt.Took.trans (free_took x v _) (by rfl)) fun w ⟨hb, hi⟩ => ⟨?_, ?_⟩
    · exact (congrArg (·.contains w) (free_buffer _ _ _).2).trans hb
    · exact tGet_tDel_nil hi
  next hbad =>
    split
    · exact .refl t p
    · have hu : t.Drains u p := drains_modPort p _ (fun _ => rfl) fun w ⟨hb, hi⟩ =>
        ⟨hb, by rw [tGet_tMod_other [] v w _ _ fun e => hbad (e ▸ hb)]; exact hi⟩
      exact (hu.trans (drains_bump ..)).trans (pump_drains _ p k)

/-! ### A port stops (R108) -/

/-- The registers that a port that stops writes, those of its lanes aside. -/
def StopAt (p : Port) (a : Nat) : Prop := AnyLaneAt a ∨ DiscardAt p a ∨ LlStatusAt (.port p) a ∨ a = (Reg.llCtrl (.port p)).addr

/-- What a port that stops leaves. -/
structure State.PortStops (s t : State) (p : Port) (st : Nat) : Prop where
  same : s.Alters t [.regs, .lanes, .ports, .worms, .eject, .inject] (StopAt p)
  state : t.portState p = st
  width : t.rf (.llStatus (.port p)) 15 11 = 0
  ctrl : ∀ i < 3, t.rb (.llCtrl (.port p)) i = s.rb (.llCtrl (.port p)) i
  port : ∃ x : PortSt, t.port p = x.cleared ∧ x.outv = []
  lost : ∀ v, (s.port p).Discards v → tGet [] (t.port p).ibuf v = []
  lanes : ∀ n ∈ linkLanes (.port p), t.laneState n = if s.laneState n = 6 then 6 else 0
  on : ∀ n ∈ linkLanes (.port p), t.laneOn n = s.laneOn n

/-- The registers of a port that stops, cleared. -/
theorem stopRegs_spec (st : Nat) (hst : st < 16) : ∃ t, t = (((s.showWidth (.port p) 0).wf (.llCtrl (.port p)) 4 3 0).wf
      (.llStatus (.port p)) 19 16 0).setLink (.port p) st ∧
    s.Alters t [.regs] (fun a => LlStatusAt (.port p) a ∨ a = (Reg.llCtrl (.port p)).addr) ∧ t.portState p = st ∧
    t.rf (.llStatus (.port p)) 15 11 = 0 ∧ ∀ i < 3, t.rb (.llCtrl (.port p)) i = s.rb (.llCtrl (.port p)) i := by
  have hne : (Reg.llStatus (.port p)).addr ≠ (Reg.llCtrl (.port p)).addr := link_reg_ne (l := .port p) 8 0 rfl rfl
  refine ⟨_, rfl, ?_, llState_setLink _ _ hst, ?_, fun i hi => ?_⟩
  · exact State.Alters.trans (((alters_wf _ _ _ (.inl rfl)).trans (alters_wf _ _ _ (.inr rfl))).trans (alters_wf _ _ _ (.inl rfl)))
      (alters_wf _ _ _ (.inl rfl))
  · rw [width_setLink, rf_wf_field _ _ _ _ _ _ _ (by decide) (by decide), rf_wf_other _ _ _ _ _ _ _ _ hne, width_showWidth]
  · rw [(setLink_alters _ _ _).rb hne.symm, (reasons_alters _ p 0).rb hne.symm, rb_wf_field _ _ _ _ _ _ (by omega) (by omega),
      (showWidth_alters _ _ _).rb hne.symm]

theorem discard_not_lane {n : LaneId} {a : Nat} (h : LaneAt n a) : ¬ DiscardAt p a :=
  fun e => not_laneAt_link n (.port p) 0x28 rfl (by decide) (e ▸ h)

/-- What `stopPort` passes through. -/
theorem stopPort_eq (st : Nat) : ∃ a b c d, a = s.lanesStop (.port p) ∧ a.Drains b p ∧
    c = b.modPort p (fun x => { x with outv := [] }) ∧ c.Drains d p ∧
    s.stopPort p st = ((((d.modPort p PortSt.cleared).showWidth (.port p) 0).wf (.llCtrl (.port p)) 4 3 0).wf
      (.llStatus (.port p)) 19 16 0).setLink (.port p) st := by
  obtain ⟨b, hb, hc⟩ := dropWorms_drains (s.lanesStop (.port p)) p
  refine ⟨_, b, _, _, rfl, hb, rfl, fillWorms_drains _ p, ?_⟩
  rw [← hc]
  rfl

theorem stopPort_stops (st : Nat) (hst : st < 16) : s.PortStops (s.stopPort p st) p st := by
  obtain ⟨a, b, c, d, ha, hab, hc, hcd, ht⟩ := stopPort_eq s p st
  obtain ⟨e, he⟩ : ∃ e, e = d.modPort p PortSt.cleared := ⟨_, rfl⟩
  obtain ⟨t, ht', het, h1, h2, h3⟩ := stopRegs_spec e p st hst
  have hst' : s.stopPort p st = t := by rw [ht, ht', he]
  have hsa : s.LanesStop a (.port p) := ha ▸ lanesStop_stops s (.port p)
  have hbc : b.Alters c [.ports] NoReg := hc ▸ alters_modPort _ _
  have hde : d.Alters e [.ports] NoReg := he ▸ alters_modPort _ _
  have hae : a.Alters e [.regs, .ports, .worms, .eject, .inject] (DiscardAt p) :=
    (hab.same.trans (hbc.mono (by decide) fun _ => False.elim)).trans (hcd.same.trans (hde.mono (by decide) fun _ => False.elim))
  have hlane : ∀ n, ∀ q ∈ laneRegs n, t.reg q = a.reg q := fun n q hq => by
    have hl : LaneAt n q.addr := laneAt_of_mem hq
    rw [het.reg q ?_, hae.reg q (discard_not_lane p hl)]
    rintro (e | e)
    · exact not_laneAt_llStatus n _ (e ▸ hl)
    · exact not_laneAt_llCtrl n _ (e ▸ hl)
  have hdt : t.port p = (d.port p).cleared := by rw [port_of_ports het.ports, he, port_modPort_same]
  have hctrl : ∀ i, e.rb (.llCtrl (.port p)) i = s.rb (.llCtrl (.port p)) i := fun i => by
    rw [hae.rb (link_reg_ne (l := .port p) 0 0x28 rfl rfl), hsa.same.rb (not_anyLaneAt_llCtrl _)]
  rw [hst']
  refine ⟨?_, h1, h2, fun i hi => (h3 i hi).trans (hctrl i), ⟨d.port p, hdt, ?_⟩, fun v hv => ?_, fun n hn => ?_, fun n hn => ?_⟩
  · exact ((hsa.same.mono (by decide) fun _ => .inl).trans (hae.mono (by decide) fun _ h => .inr (.inl h))).trans
      (het.mono (by decide) fun _ h => .inr (.inr h))
  · rw [hcd.port p, hc, port_modPort_same]
  · have ha : (a.port p).Discards v := by
      rw [port_of_ports hsa.same.ports]
      exact hv
    have hb : (c.port p).Discards v := by
      rw [hc, port_modPort_same]
      exact hab.lost p v ha
    rw [hdt]
    exact (hcd.lost p v hb).2
  · rw [← hsa.state n hn]
    exact congrArg (fld · 3 0) (hlane n _ (by simp [laneRegs]))
  · rw [← hsa.on n hn]
    exact congrArg (bit · 3) (hlane n _ (by simp [laneRegs]))

end

/-! ### A port is fenced or disabled (R108, R109) -/

/-- The fields that a fence of a port changes. -/
def fenceFields : List Field := [.regs, .lanes, .ports, .worms, .eject, .inject, .ht, .eqs, .ftPosted, .tack]

/-- Tack Room registers lie in no window of a lane. -/
theorem not_anyLaneAt_tkState : ¬ AnyLaneAt Reg.tkState.addr := by
  rintro ⟨n, h⟩
  unfold LaneAt at h
  cases n <;> simp only [laneBlock, blockBase, laneBase, Reg.addr, Reg.off, Reg.block] at h <;> omega

theorem not_stopAt_tkState (p : Port) : ¬ StopAt p Reg.tkState.addr := by
  rintro (e | e | e | e)
  · exact not_anyLaneAt_tkState e
  · exact addr_ne_of_off 0 0x1028 rfl rfl (by decide) e
  · exact addr_ne_of_off 0 0x1008 rfl rfl (by decide) e
  · exact addr_ne_of_off 0 0x1000 rfl rfl (by decide) e

/-- What a fence leaves, before the port trains again. -/
structure State.Fenced (s t : State) (p : Port) : Prop where
  same : s.Alters t fenceFields (fun a => StopAt p a ∨ FaultAt (.port p) a)
  state : t.portState p = 6
  mark : t.rb (.llStatus (.port p)) 7 = true
  fault : t.rb (.ftStatus (.port p)) 2 = true
  width : t.rf (.llStatus (.port p)) 15 11 = 0
  ctrl : ∀ i < 3, t.rb (.llCtrl (.port p)) i = s.rb (.llCtrl (.port p)) i
  port : ∃ x : PortSt, t.port p = x.cleared ∧ x.outv = []
  lost : ∀ v, (s.port p).Discards v → tGet [] (t.port p).ibuf v = []
  lanes : ∀ n ∈ linkLanes (.port p), t.laneState n = if s.laneState n = 6 then 6 else 0
  on : ∀ n ∈ linkLanes (.port p), t.laneOn n = s.laneOn n

theorem fencePort_fenced (s : State) (p : Port) (unit : Nat) (h0 : s.portState p ≠ 0) (h6 : s.portState p ≠ 6) : ∃ t, s.Fenced t p ∧
    s.fencePort p unit = if t.rb (.llCtrl (.port p)) 2 ∧ t.rb (.llCtrl (.port p)) 1 = false then t.trainPort p else t := by
  obtain ⟨u, hu⟩ : ∃ u, u = s.stopPort p 6 := ⟨_, rfl⟩
  obtain ⟨v, hv⟩ : ∃ v, v = u.wb (.llStatus (.port p)) 7 true := ⟨_, rfl⟩
  obtain ⟨w, hw⟩ : ∃ w, w = v.fault (.port p) .fence 0x80 unit := ⟨_, rfl⟩
  have hs : s.PortStops u p 6 := hu ▸ stopPort_stops s p 6 (by decide)
  have huv : u.Alters v [.regs] (LlStatusAt (.port p)) := hv ▸ alters_wb _ _ rfl
  have hvw : v.Alters w faultFields (FaultAt (.port p)) := hw ▸ fault_alters ..
  have hll : ∀ hi lo, w.rf (.llStatus (.port p)) hi lo = v.rf (.llStatus (.port p)) hi lo :=
    fun hi lo => hvw.rf (not_faultAt_link _ (.port p) 8 rfl) hi lo
  have hlane : ∀ n, ∀ q ∈ laneRegs n, w.reg q = u.reg q := fun n q hq => by
    have hl : LaneAt n q.addr := laneAt_of_mem hq
    rw [hvw.reg q (not_faultAt_of_lane hl _), huv.reg q fun e => not_laneAt_llStatus n _ (e ▸ hl)]
  have hport : w.port p = u.port p := port_of_ports (hvw.ports.trans huv.ports) p
  obtain ⟨x, hx, ho⟩ := hs.port
  refine ⟨w, ⟨?_, ?_, ?_, ?_, ?_, fun i hi => ?_, ⟨x, hport.trans hx, ho⟩, ?_, fun n hn => ?_, fun n hn => ?_⟩, ?_⟩
  · exact ((hs.same.mono (by decide) fun _ => .inl).trans (huv.mono (by decide) fun _ h => .inl (.inr (.inr (.inl h))))).trans
      (hvw.mono (by decide) fun _ => .inr)
  · refine (hll 3 0).trans ?_
    rw [hv, rf_wb_field _ _ _ _ _ _ (by decide) (by decide)]
    exact hs.state
  · rw [hvw.rb (not_faultAt_link _ (.port p) 8 rfl), hv]
    exact rb_wb_same _ _ _ _ (by decide)
  · rw [hw]
    exact fault_status v _ _ _ _ rfl
  · rw [hll, hv, rf_wb_field _ _ _ _ _ _ (by decide) (by decide)]
    exact hs.width
  · rw [hvw.rb (not_faultAt_link _ (.port p) 0 rfl), huv.rb (link_reg_ne (l := .port p) 0 8 rfl rfl)]
    exact hs.ctrl i hi
  · rw [hport]
    exact hs.lost
  · rw [← hs.lanes n hn]
    exact congrArg (fld · 3 0) (hlane n _ (by simp [laneRegs]))
  · rw [← hs.on n hn]
    exact congrArg (bit · 3) (hlane n _ (by simp [laneRegs]))
  · unfold State.fencePort
    extract_lets st a b
    rw [if_neg (show ¬ (st = 0 ∨ st = 6) from fun e => e.elim h0 h6), hw, hv, hu]

/-- A mode that the Tack Room shows stays with its register. -/
theorem dust_of_reg {s t : State} (h : t.reg .tkState = s.reg .tkState) : t.dust = s.dust := by
  have hm : t.mode = s.mode := congrArg (fld · 63 61) h
  rw [State.dust, State.dust, hm]

theorem dust_of_live {s : State} {p : Port} (h : s.live (.port p) = true) : s.dust = false := by
  have h' : (s.coreOn && s.pins.resetL && !s.dust) = true := h
  cases hd : s.dust with
  | false => rfl
  | true => rw [hd, Bool.not_true, Bool.and_false] at h'; cases h'

section
variable (s : State) (p : Port)

/-- The record of a port that has stopped. -/
theorem cleared_fields {x : PortSt} {y : PortSt} (h : y = x.cleared) (ho : x.outv = []) :
    y.replay = [] ∧ y.used = [] ∧ y.txLocal = [] ∧ y.outv = [] ∧ y.next = 0 ∧ y.retrain = none := by
  rw [h]
  exact ⟨rfl, rfl, rfl, ho, rfl, rfl⟩

/-- A fence that holds. -/
theorem fencePort_holds (unit : Nat) (h0 : s.portState p ≠ 0) (h6 : s.portState p ≠ 6)
    (hc : s.rb (.llCtrl (.port p)) 2 = false ∨ s.rb (.llCtrl (.port p)) 1 = true) : s.Fenced (s.fencePort p unit) p := by
  obtain ⟨t, ht, he⟩ := fencePort_fenced s p unit h0 h6
  rw [he, if_neg]
  · exact ht
  · rw [ht.ctrl 2 (by decide), ht.ctrl 1 (by decide)]
    rcases hc with h | h <;> rw [h] <;> simp

/-- A fence from which the port recovers by itself (R109). -/
theorem fencePort_recovers (unit : Nat) (hd : s.dust = false) (h0 : s.portState p ≠ 0) (h6 : s.portState p ≠ 6)
    (hc : s.rb (.llCtrl (.port p)) 2 = true ∧ s.rb (.llCtrl (.port p)) 1 = false) : ∃ t, s.fencePort p unit = t ∧
    s.Alters t (.out :: fenceFields) AnyReg ∧ t.portState p = 1 ∧ t.rb (.llStatus (.port p)) 7 = true ∧
    t.rb (.ftStatus (.port p)) 2 = true ∧ ((t.port p).replay = [] ∧ (t.port p).used = [] ∧ (t.port p).retrain = none) ∧
    (t.port p).trainAt = s.clk ∧ ∀ n ∈ linkLanes (.port p), s.laneOn n = true → t.laneState n = 1 := by
  obtain ⟨u, hu, he⟩ := fencePort_fenced s p unit h0 h6
  obtain ⟨hc2, hc1⟩ := hc
  rw [if_pos ⟨(hu.ctrl 2 (by decide)).trans hc2, (hu.ctrl 1 (by decide)).trans hc1⟩] at he
  have ht := trainPort_trains u p
  obtain ⟨x, hx, ho⟩ := hu.port
  have hp : (u.trainPort p).port p = { x.cleared with trainAt := u.clk } := by rw [ht.port, hx]
  have hdu : u.dust = false := (dust_of_reg (hu.same.reg _ fun e => e.elim (not_stopAt_tkState p)
    (not_faultAt_of_off _ 0 rfl))).trans hd
  obtain ⟨v, hv⟩ : ∃ v, v = (u.modPort p (fun x => { x with trainAt := u.clk })).setLink (.port p) 1 := ⟨_, rfl⟩
  have hx' : u.trainPort p = v.trainLink (.port p) := by rw [hv]; rfl
  have huv : u.Alters v [.regs, .ports] (LlStatusAt (.port p)) := by
    rw [hv]
    exact State.Alters.trans (F := [.regs, .ports]) (P := LlStatusAt (.port p)) (alters_modPort _ _) ((setLink_alters _ _ _).mono)
  have hvt := trainLink_alters v (.port p)
  refine ⟨u.trainPort p, he, (hu.same.any.mono (by decide)).trans (ht.same.any.mono (by decide)), ht.state, ?_, ?_, ?_, ?_,
    fun n hn ho => ?_⟩
  · rw [hx', hvt.rb (not_anyLaneAt_llStatus _), hv, State.setLink, rb_wf_field _ _ _ _ _ _ (by decide) (by decide)]
    exact hu.mark
  · rw [ht.same.rb (fun e => e.elim (fun ⟨n, h⟩ => not_faultAt_of_lane h (.port p) (.inl rfl)) (addr_ne_of_off 0xF000 0x1008 rfl rfl))]
    exact hu.fault
  · rw [hp]
    exact ⟨rfl, rfl, rfl⟩
  · rw [hp, hu.same.clk]
  · have hov : v.laneOn n = u.laneOn n := huv.rb (fun e => not_laneAt_llStatus n _ (e ▸ at_laneCtrl n)) 3
    rw [hx']
    refine trainLink_state v (.port p) hn ?_ (hov.trans ((hu.on n hn).trans ho))
    exact (dust_of_reg (huv.reg _ (addr_ne_of_off 0 0x1008 rfl rfl))).trans hdu

end

end Sys2Proof.Machine
end

section
/-! PROOFS. LinksAreFencedLostAndDisabled: host links, and the whole of it (R106, R108 to R111, R500). -/

namespace Sys2Proof.Machine

-- The proofs are elaborated one after another: in parallel their threads' stacks need more memory than a compile may have.
set_option Elab.async false

/-! ### What is outstanding on a host link is disposed of (R168) -/

/-- Nothing is outstanding on a host link, and no lock, receive or host atomic stands anywhere. -/
structure State.HostClear (s : State) (h : HLink) : Prop where
  replay : (s.hl h).replay = []
  reads : (s.tl h.val).reads = []
  reqQ : (s.tl h.val).reqQ = []
  hatoms : s.hatoms = []
  locks : s.locks = []
  mes : s.mes = []

section
variable (s : State) (h : HLink)

theorem resetLinkHolders_of_none (hl : s.locks = []) (k : Nat) : s.resetLinkHolders k = s := by
  have hw : ∀ d m, s.waitsOn d m = none := fun d m => by rw [State.waitsOn, hl]; rfl
  have hh : ∀ d m, s.holds d m = false := fun d m => by rw [State.holds, hl]; rfl
  have hdrop : ∀ d m, s.dropWaits d m = s := fun d m => by rw [State.dropWaits, hw]
  unfold State.resetLinkHolders
  extract_lets ds t
  have ht : t = s := List.foldl_fixed' (fun f => List.foldl_fixed' (fun d => hdrop d _) ds) _
  rw [ht]
  exact List.foldl_fixed' (fun f => List.foldl_fixed' (fun d => resetHolder_of_none (hw d _) (hh d _)) ds) _

theorem recvsLost_of_none (hm : s.mes = []) : s.recvsLost h = s := by
  unfold State.recvsLost
  rw [hm]
  rfl

theorem atomsLost_alters (ha : s.hatoms = []) : s.Alters (s.atomsLost h) [.hatoms] NoReg := by
  unfold State.atomsLost State.putOffAtoms
  extract_lets mine t
  rw [show mine = [] by simp only [mine, ha, List.filter_nil]]
  exact .put_hatoms _ _

/-- The registers that a host link's loss writes, its lanes, its state and its faults aside. -/
def DropAt (h : HLink) (a : Nat) : Prop := a = (Reg.llDiscard (.host h)).addr ∨ ∃ l, a = (Reg.hlStatus l).addr

/-- What a host link with nothing outstanding leaves as it is lost. -/
structure State.Drops (s t : State) (h : HLink) : Prop where
  same : s.Alters t [.regs, .hll, .ht, .eqs, .hatoms] (DropAt h)
  link : t.hl h = (s.hl h).fresh s.clk
  rspQ : (t.tl h.val).rspQ = []

theorem posts_dropAt {s t : State} (hp : s.Posts t) : s.Alters t [.regs, .hll, .ht, .eqs, .hatoms] (DropAt h) :=
  hp.alters.mono (by decide) fun _ => .inr

theorem dropHost_drops (hc : s.HostClear h) : s.Drops (s.dropHost h) h := by
  obtain ⟨hreplay, hreads, hreqQ, hatoms, hlocks, hmes⟩ := hc
  unfold State.dropHost
  extract_lets t x entry doubt sure intrs ccpls later s1 s2 s3 s4 s5 sat s6 s7 s8 s9 s10
  have hx : x.replay = [] := hreplay
  have hdoubt : doubt = [] := by simp only [doubt, hx, List.filterMap_nil]
  have hintrs : intrs = [] := by simp only [intrs, hx, List.filter_nil]
  have h12 : s.Alters s1 [.regs, .hll, .ht, .eqs, .hatoms] (DropAt h) := alters_bump _ _ _ (.inl rfl)
  have h13 : s.Alters s2 [.regs, .hll, .ht, .eqs, .hatoms] (DropAt h) := h12.trans (alters_modHl _ _)
  have h14 : s.Alters s3 [.regs, .hll, .ht, .eqs, .hatoms] (DropAt h) := h13.trans (.modTl _ _ _)
  have e4 : s4 = s3 := by simp only [s4, hdoubt, List.foldl_nil]
  have e5 : s5 = s3 := by simp only [s5, hintrs, List.foldl_nil, e4]
  have hpost : s3.Posts s6 := e5 ▸ State.Posts.postMgmt s5 h.val 0x0305 none _
  have h16 : s.Alters s6 [.regs, .hll, .ht, .eqs, .hatoms] (DropAt h) := h14.trans (posts_dropAt h hpost)
  have h67 : s6.Alters s7 [.hatoms] NoReg := atomsLost_alters s6 h (by
    rw [hpost.alters.hatoms]
    exact hatoms)
  have h17 : s.Alters s7 [.regs, .hll, .ht, .eqs, .hatoms] (DropAt h) := h16.trans (h67.mono (by decide) fun _ => False.elim)
  have e8 : s8 = s7 := by simp only [s8, hdoubt, List.foldl_nil]
  have e9 : s9 = s7 := by
    have ht : t.reads = [] := hreads
    simp only [s9, ht, List.foldl_nil, e8]
  have e10 : s10 = s7 := by
    have ht : t.reqQ = [] := hreqQ
    simp only [s10, ht, List.filter_nil, List.foldl_nil, e9]
  have hlast : (s10.recvsLost h).resetLinkHolders h.val = s7 := by
    rw [e10, recvsLost_of_none s7 h (h17.mes.trans hmes), resetLinkHolders_of_none s7 (h17.locks.trans hlocks)]
  rw [hlast]
  have h2 : s2.hl h = (s.hl h).fresh s.clk := hl_modHl_same s1 h _
  have h3 : s3.hl h = s2.hl h := rfl
  have h7 : s7.hl h = s3.hl h := hl_of_hll (h67.hll.trans hpost.alters.hll) h
  refine ⟨h17, h7.trans (h3.trans h2), ?_⟩
  have hq : (s6.tl h.val).rspQ = (s3.tl h.val).rspQ := (hpost.links h.val).keeps.2.2.2.2.1
  have hq3 : (s3.tl h.val).rspQ = [] := congrArg HostTl.rspQ (tl_modTl_same s2 h.val _)
  have hq7 : s7.tl h.val = s6.tl h.val := by rw [State.tl, State.tl, h67.ht]
  rw [hq7, hq, hq3]

/-! ### Faults keep the responses that wait -/

theorem tl_of_ht {s t : State} (h : t.ht = s.ht) (k : Nat) : t.tl k = s.tl k := by rw [State.tl, State.tl, h]

theorem postFault_rspQ (b : Block) (cls : FtClass) (code unit k : Nat) :
    ((s.postFault b cls code unit).tl k).rspQ = (s.tl k).rspQ := by
  unfold State.postFault
  extract_lets key due i u
  split
  · exact ((State.Posts.postMgmt u _ 0x0801 none _).links k).keeps.2.2.2.2.1
  · rfl

theorem fault_rspQ (b : Block) (cls : FtClass) (low unit k : Nat) : ((s.fault b cls low unit).tl k).rspQ = (s.tl k).rspQ := by
  unfold State.fault
  split
  · rfl
  · extract_lets a code first c d e
    have hd : d.ht = s.ht := by
      show (if first then _ else c).ht = _
      split <;> rfl
    have he : e.tl k = s.tl k := tl_of_ht hd k
    split
    · rw [he]
    · rw [postFault_rspQ, he]

end

/-! ### A host link is lost (R110) -/

theorem addr_llCtrl (l : LinkId) : (Reg.llCtrl l).addr = blockBase (linkBlock l) + linkBase l + 0 := rfl
theorem addr_llStatus (l : LinkId) : (Reg.llStatus l).addr = blockBase (linkBlock l) + linkBase l + 8 := rfl
theorem addr_llDiscard (l : LinkId) : (Reg.llDiscard l).addr = blockBase (linkBlock l) + linkBase l + 0x28 := rfl

theorem llStatus_ne_llCtrl (l : LinkId) : (Reg.llStatus l).addr ≠ (Reg.llCtrl l).addr :=
  link_reg_ne 8 0 (addr_llStatus l) (addr_llCtrl l)

theorem rb_wb_other (s : State) (r q : Reg) (i j : Nat) (b : Bool) (h : q.addr ≠ r.addr) : (s.wb r i b).rb q j = s.rb q j :=
  congrArg (bit · j) (reg_wb_other _ _ _ _ _ h)

/-- The fields that the loss of a host link changes. -/
def lossFields : List Field := [.regs, .lanes, .hll, .ht, .eqs, .hatoms, .ftPosted, .tack]

/-- The registers that the loss of a host link writes. -/
def LossAt (h : HLink) (a : Nat) : Prop := AnyLaneAt a ∨ DropAt h a ∨ LlStatusAt (.host h) a ∨ a = (Reg.llCtrl (.host h)).addr ∨
  FaultAt (.hostlink h) a

theorem not_dropAt_link {r : Reg} {h : HLink} (l : LinkId) (o : Nat) (hr : r.addr = blockBase (linkBlock l) + linkBase l + o)
    (hl : l = .host h) (ho : o ≠ 0x28 := by decide) (hlt : o < 0x3000 := by decide) : ¬ DropAt h r.addr := by
  subst hl
  rintro (e | ⟨k, e⟩)
  · exact link_reg_ne (l := .host h) o 0x28 hr (addr_llDiscard _) ho e
  · exact not_faultAt_link (.hostlink h) (.host h) o hr hlt (.inr (.inr ⟨k, e⟩))

theorem not_dropAt_of_lane {h : HLink} {n : LaneId} {a : Nat} (hl : LaneAt n a) : ¬ DropAt h a := by
  rintro (e | e)
  · exact not_laneAt_link n (.host h) 0x28 (addr_llDiscard _) (by decide) (e ▸ hl)
  · exact not_faultAt_of_lane hl (.hostlink h) (.inr (.inr e))

/-- A host link that has lost what was outstanding and stopped its lanes. -/
structure State.HostStops (s t : State) (h : HLink) (st : Nat) : Prop where
  same : s.Alters t lossFields (LossAt h)
  state : t.llState (.host h) = st
  link : ∃ x : HostLl, t.hl h = x.fresh s.clk
  rspQ : (t.tl h.val).rspQ = []
  ctrl : ∀ i < 3, t.rb (.llCtrl (.host h)) i = s.rb (.llCtrl (.host h)) i
  lanes : ∀ n ∈ linkLanes (.host h), t.laneState n = if s.laneState n = 6 then 6 else 0
  on : ∀ n ∈ linkLanes (.host h), t.laneOn n = s.laneOn n

section
variable (s : State) (h : HLink)

/-- The state and width of a host link that goes down. -/
theorem downRegs_spec (st : Nat) (hst : st < 16) : ∃ t, t = ((s.setLink (.host h) st).showWidth (.host h) 0).wb (.llCtrl (.host h)) 3 false ∧
    s.Alters t [.regs] (fun a => LlStatusAt (.host h) a ∨ a = (Reg.llCtrl (.host h)).addr) ∧ t.llState (.host h) = st ∧
    ∀ i < 3, t.rb (.llCtrl (.host h)) i = s.rb (.llCtrl (.host h)) i := by
  have hne : (Reg.llStatus (.host h)).addr ≠ (Reg.llCtrl (.host h)).addr := llStatus_ne_llCtrl _
  refine ⟨_, rfl, ?_, ?_, fun i hi => ?_⟩
  · exact State.Alters.trans ((alters_wf _ _ _ (.inl rfl)).trans (alters_wf _ _ _ (.inl rfl))) (alters_wb _ _ (.inr rfl))
  · rw [State.llState, rf_wb_other _ _ _ _ _ _ _ hne]
    exact (llState_showWidth _ _ _).trans (llState_setLink _ _ hst)
  · rw [rb_wb_bit_other _ _ _ (by omega) (by omega), (showWidth_alters _ _ _).rb hne.symm, (setLink_alters _ _ _).rb hne.symm]

/-- From the registers of a link that goes down on: what was outstanding goes, and the lanes stop. -/
theorem hostStops_of {a b t : State} {st : Nat} (hsa : s.Alters a [.regs] (fun x => LlStatusAt (.host h) x ∨ x = (Reg.llCtrl (.host h)).addr))
    (hst : a.llState (.host h) = st) (hctrl : ∀ i < 3, a.rb (.llCtrl (.host h)) i = s.rb (.llCtrl (.host h)) i) (hb : a.Drops b h)
    {c : State} (hbc : b.Alters c faultFields (FaultAt (.hostlink h))) (hq : (c.tl h.val).rspQ = (b.tl h.val).rspQ)
    (ht : t = c.lanesStop (.host h)) : s.HostStops t h st := by
  have hcl : c.LanesStop t (.host h) := ht ▸ lanesStop_stops c (.host h)
  have hlane : ∀ n, ∀ q ∈ laneRegs n, c.reg q = s.reg q := fun n q hq => by
    have hl : LaneAt n q.addr := laneAt_of_mem hq
    rw [hbc.reg q (not_faultAt_of_lane hl _), hb.same.reg q (not_dropAt_of_lane hl), hsa.reg q]
    rintro (e | e)
    · exact not_laneAt_llStatus n _ (e ▸ hl)
    · exact not_laneAt_llCtrl n _ (e ▸ hl)
  have hll : ∀ hi lo, t.rf (.llStatus (.host h)) hi lo = a.rf (.llStatus (.host h)) hi lo := fun hi lo => by
    rw [hcl.same.rf (not_anyLaneAt_llStatus _), hbc.rf (not_faultAt_link _ (.host h) 8 (addr_llStatus _)),
      hb.same.rf (not_dropAt_link (.host h) 8 (addr_llStatus _) rfl)]
  refine ⟨?_, (hll 3 0).trans hst, ⟨a.hl h, ?_⟩, ?_, fun i hi => ?_, fun n hn => ?_, fun n hn => ?_⟩
  · exact ((hsa.mono (by decide) fun _ e => .inr (.inr (e.elim .inl fun e => .inr (.inl e)))).trans
      (hb.same.mono (by decide) fun _ e => .inr (.inl e))).trans
      ((hbc.mono (by decide) fun _ e => .inr (.inr (.inr (.inr e)))).trans (hcl.same.mono (by decide) fun _ => .inl))
  · rw [hl_of_hll (hcl.same.hll.trans hbc.hll), hb.link, hsa.clk]
  · rw [tl_of_ht hcl.same.ht, hq, hb.rspQ]
  · rw [hcl.same.rb (not_anyLaneAt_llCtrl _), hbc.rb (not_faultAt_link _ (.host h) 0 (addr_llCtrl _)),
      hb.same.rb (not_dropAt_link (.host h) 0 (addr_llCtrl _) rfl), hctrl i hi]
  · rw [hcl.state n hn, show c.laneState n = s.laneState n from congrArg (fld · 3 0) (hlane n _ (by simp [laneRegs]))]
  · rw [hcl.on n hn]
    exact congrArg (bit · 3) (hlane n _ (by simp [laneRegs]))

theorem HostClear_of_regs {a : State} {P : Nat → Prop} (hsa : s.Alters a [.regs] P) (hc : s.HostClear h) : a.HostClear h :=
  ⟨by rw [hl_of_hll hsa.hll]; exact hc.replay, by rw [tl_of_ht hsa.ht]; exact hc.reads, by rw [tl_of_ht hsa.ht]; exact hc.reqQ,
    hsa.hatoms.trans hc.hatoms, hsa.locks.trans hc.locks, hsa.mes.trans hc.mes⟩

/-- What `loseHost` passes through. -/
theorem loseHost_eq (unit : Nat) (h0 : s.hlState h.val ≠ 0) (h7 : s.hlState h.val ≠ 7) (hc : s.HostClear h) :
    ∃ t, s.HostStops t h 7 ∧ t.rb (.llStatus (.host h)) 4 = true ∧ t.rb (.ftStatus (.hostlink h)) 2 = true ∧
      s.loseHost h unit = t.trainHost h := by
  have hne : (Reg.llStatus (.host h)).addr ≠ (Reg.llCtrl (.host h)).addr := llStatus_ne_llCtrl _
  obtain ⟨a, ha⟩ : ∃ a, a = (((s.setLink (.host h) 7).wb (.llStatus (.host h)) 4 true).showWidth (.host h) 0).wb
    (.llCtrl (.host h)) 3 false := ⟨_, rfl⟩
  have hsa : s.Alters a [.regs] (fun x => LlStatusAt (.host h) x ∨ x = (Reg.llCtrl (.host h)).addr) := by
    rw [ha]
    exact State.Alters.trans (((alters_wf _ _ _ (.inl rfl)).trans (alters_wb _ _ (.inl rfl))).trans (alters_wf _ _ _ (.inl rfl)))
      (alters_wb _ _ (.inr rfl))
  have hst : a.llState (.host h) = 7 := by
    rw [ha, State.llState, rf_wb_other _ _ _ _ _ _ _ hne]
    refine (llState_showWidth _ _ _).trans ?_
    rw [State.llState, rf_wb_field _ _ _ _ _ _ (by decide) (by decide)]
    exact llState_setLink _ _ (by decide)
  have hmark : a.rb (.llStatus (.host h)) 4 = true := by
    rw [ha, rb_wb_other _ _ _ _ _ _ hne, State.showWidth, rb_wf_field _ _ _ _ _ _ (by decide) (by decide)]
    exact rb_wb_same _ _ _ _ (by decide)
  have hctrl : ∀ i < 3, a.rb (.llCtrl (.host h)) i = s.rb (.llCtrl (.host h)) i := fun i hi => by
    rw [ha, rb_wb_bit_other _ _ _ (by omega) (by omega), (showWidth_alters _ _ _).rb hne.symm, rb_wb_other _ _ _ _ _ _ hne.symm,
      (setLink_alters _ _ _).rb hne.symm]
  have hb : a.Drops (a.dropHost h) h := dropHost_drops a h (HostClear_of_regs s h hsa hc)
  obtain ⟨c, hcd⟩ : ∃ c, c = (a.dropHost h).fault (.hostlink h) .fence 0x80 unit := ⟨_, rfl⟩
  have hbc : (a.dropHost h).Alters c faultFields (FaultAt (.hostlink h)) := hcd ▸ fault_alters ..
  have hcl := lanesStop_stops c (.host h)
  refine ⟨c.lanesStop (.host h), hostStops_of s h hsa hst hctrl hb hbc (hcd ▸ fault_rspQ ..) rfl, ?_, ?_, ?_⟩
  · rw [hcl.same.rb (not_anyLaneAt_llStatus _), hbc.rb (not_faultAt_link _ (.host h) 8 (addr_llStatus _)),
      hb.same.rb (not_dropAt_link (.host h) 8 (addr_llStatus _) rfl), hmark]
  · rw [hcl.same.rb (fun ⟨n, e⟩ => not_faultAt_of_lane e (.hostlink h) (.inl rfl)), hcd]
    exact fault_status _ _ _ _ _ rfl
  · unfold State.loseHost
    extract_lets st u v w
    rw [if_neg (show ¬ (st = 0 ∨ st = 7) from fun e => e.elim h0 h7), hcd, ha]

/-- A link that force_fence holds does not train (R110, R111). -/
theorem trainHost_held (h7 : s.llState (.host h) = 7) (h1 : s.rb (.llCtrl (.host h)) 1 = true) :
    s.trainHost h = s.lanesStop (.host h) := by
  unfold State.trainHost
  rw [if_pos]
  rw [hlState_val, h7, h1]
  rfl

/-- A LOST link trains, and stays LOST (R110). -/
theorem trainHost_lost (h7 : s.llState (.host h) = 7) (h1 : s.rb (.llCtrl (.host h)) 1 = false) (hd : s.dust = false) :
    ∃ t, s.trainHost h = t ∧ s.Alters t [.regs, .hll, .lanes, .out] (fun a => AnyLaneAt a ∨ LlStatusAt (.host h) a) ∧
    t.llState (.host h) = 7 ∧ t.rb (.llStatus (.host h)) 4 = s.rb (.llStatus (.host h)) 4 ∧
    (t.hl h).retrain = (s.hl h).retrain ∧ (t.hl h).replay = (s.hl h).replay ∧
    ∀ n ∈ linkLanes (.host h), s.laneOn n = true → t.laneState n = 1 := by
  obtain ⟨u, hu⟩ : ∃ u, u = s.modHl h (fun x => { x with trainAt := s.clk, hello := false, seen := false, use := [], rxPkt := none }) :=
    ⟨_, rfl⟩
  obtain ⟨v, hv⟩ : ∃ v, v = u.showWidth (.host h) 0 := ⟨_, rfl⟩
  have hsu : s.Alters u [.hll] NoReg := hu ▸ alters_modHl _ _
  have huv : u.Alters v [.regs] (LlStatusAt (.host h)) := hv ▸ showWidth_alters _ _ _
  have hst : u.hlState h.val = 7 := by
    rw [hlState_val]
    exact (hsu.rf id 3 0).trans h7
  have hx : s.trainHost h = v.trainLink (.host h) := by
    unfold State.trainHost
    rw [if_neg (by rw [h1, Bool.and_false]; decide), ← hu]
    extract_lets w x
    rw [show x = v from hv ▸ congrArg (fun x => State.showWidth x (.host h) 0) (if_pos hst)]
  have hvt := trainLink_alters v (.host h)
  have hlv : v.hl h = { s.hl h with trainAt := s.clk, hello := false, seen := false, use := [], rxPkt := none } := by
    rw [hv, hl_showWidth, hu, hl_modHl_same]
  have hon : ∀ n, v.laneOn n = s.laneOn n := fun n => by
    rw [State.laneOn, huv.rb (fun e => not_laneAt_llStatus n _ (e ▸ at_laneCtrl n)), hsu.rb id, State.laneOn]
  have hdv : v.dust = false := (dust_of_reg ((huv.reg _ (addr_ne_of_off 0 0x10008 rfl rfl)).trans (hsu.reg _ id))).trans hd
  refine ⟨_, hx, ?_, ?_, ?_, ?_, ?_, fun n hn ho => ?_⟩
  · exact ((hsu.mono (by decide) fun _ => False.elim).trans (huv.mono (by decide) fun _ => .inr)).trans
      (hvt.mono (by decide) fun _ => .inl)
  · rw [State.llState, hvt.rf (not_anyLaneAt_llStatus _), hv]
    exact (llState_showWidth u _ _).trans ((hsu.rf id 3 0).trans h7)
  · rw [hvt.rb (not_anyLaneAt_llStatus _), hv, State.showWidth, rb_wf_field _ _ _ _ _ _ (by decide) (by decide), hsu.rb id]
  · rw [hl_of_hll hvt.hll, hlv]
  · rw [hl_of_hll hvt.hll, hlv]
  · exact trainLink_state v (.host h) hn hdv ((hon n).trans ho)

end

end Sys2Proof.Machine
end

section
/-! PROOFS. LinksAreFencedLostAndDisabled, put together (R106, R108 to R111, R500). -/

namespace Sys2Proof.Machine

-- The proofs are elaborated one after another: in parallel their threads' stacks need more memory than a compile may have.
set_option Elab.async false

/-! ### Ports -/

section
variable (s : State) (p : Port)

theorem portWindow_fences {r : Retrain} (hr : (s.port p).retrain = some r) (hd : r.window + us 50 < s.clk) :
    s.portWindow p = s.fencePort p 0 := by
  unfold State.portWindow
  rw [hr]
  exact if_pos hd

theorem portWindow_waits {r : Retrain} (hr : (s.port p).retrain = some r) (hd : s.clk ≤ r.window + us 50) : s.portWindow p = s := by
  unfold State.portWindow
  rw [hr]
  exact if_neg (by omega)

theorem fencePort_down (unit : Nat) (h : s.portState p = 0 ∨ s.portState p = 6) : s.fencePort p unit = s := if_pos h

/-- A bit of LL_CTRL written leaves the state of the link. -/
theorem llState_ctrl (l : LinkId) (i : Nat) (b : Bool) : (s.wb (.llCtrl l) i b).llState l = s.llState l :=
  rf_wb_other _ _ _ _ _ _ _ (llStatus_ne_llCtrl l)

theorem ctrl_alters (l : LinkId) (i : Nat) (b : Bool) : s.Alters (s.wb (.llCtrl l) i b) [.regs] (fun a => a = (Reg.llCtrl l).addr) :=
  alters_wb _ _ rfl

theorem laneState_ctrl (l : LinkId) (i : Nat) (b : Bool) (n : LaneId) : (s.wb (.llCtrl l) i b).laneState n = s.laneState n :=
  (ctrl_alters s l i b).rf (fun e => not_laneAt_llCtrl n l (e ▸ at_laneStatus n)) 3 0

theorem laneOn_ctrl (l : LinkId) (i : Nat) (b : Bool) (n : LaneId) : (s.wb (.llCtrl l) i b).laneOn n = s.laneOn n :=
  (ctrl_alters s l i b).rb (fun e => not_laneAt_llCtrl n l (e ▸ at_laneCtrl n)) 3

/-- force_fence written (R108). -/
theorem forceFence_fences (h0 : s.portState p ≠ 0) (h6 : s.portState p ≠ 6) : ∃ u, u = s.wb (.llCtrl (.port p)) 1 true ∧
    u.Fenced (u.fencePort p 1) p ∧ (u.fencePort p 1).rb (.llCtrl (.port p)) 1 = true := by
  obtain ⟨u, hu⟩ : ∃ u, u = s.wb (.llCtrl (.port p)) 1 true := ⟨_, rfl⟩
  have h1 : u.rb (.llCtrl (.port p)) 1 = true := hu ▸ rb_wb_same _ _ _ _ (by decide)
  have hst : u.portState p = s.portState p := hu ▸ llState_ctrl s (.port p) 1 true
  have hf := fencePort_holds u p 1 (hst ▸ h0) (hst ▸ h6) (.inr h1)
  exact ⟨u, hu, hf, (hf.ctrl 1 (by decide)).trans h1⟩

/-- No lane's window holds FT_STATUS. -/
theorem not_stopAt_ftStatus : ¬ StopAt p (Reg.ftStatus (.port p)).addr := by
  rintro (⟨n, e⟩ | e | e | e)
  · exact not_faultAt_of_lane e (.port p) (.inl rfl)
  · exact addr_ne_of_off 0xF000 0x1028 rfl rfl (by decide) e
  · exact addr_ne_of_off 0xF000 0x1008 rfl rfl (by decide) e
  · exact addr_ne_of_off 0xF000 0x1000 rfl rfl (by decide) e

theorem portDisable_stops (h0 : s.portState p ≠ 0) : ∃ u t, u = s.wb (.llCtrl (.port p)) 0 false ∧ doPortDisable p s = t ∧
    u.PortStops t p 0 ∧ t.rb (.llCtrl (.port p)) 0 = false ∧ t.reg (.ftStatus (.port p)) = s.reg (.ftStatus (.port p)) := by
  obtain ⟨u, hu⟩ : ∃ u, u = s.wb (.llCtrl (.port p)) 0 false := ⟨_, rfl⟩
  have hst : u.portState p = s.portState p := hu ▸ llState_ctrl s (.port p) 0 false
  have hs := stopPort_stops u p 0 (by decide)
  refine ⟨u, u.stopPort p 0, hu, ?_, hs, ?_, ?_⟩
  · unfold doPortDisable
    extract_lets v
    rw [show v = u from hu.symm, if_neg (hst ▸ h0)]
  · rw [hs.ctrl 0 (by decide), hu]
    exact rb_wb_same _ _ _ _ (by decide)
  · rw [hs.same.reg _ (not_stopAt_ftStatus p), hu]
    exact reg_wb_other _ _ _ _ _ (addr_ne_of_off 0xF000 0x1000 rfl rfl)

theorem portDisable_down (h0 : s.portState p = 0) : doPortDisable p s = s.wb (.llCtrl (.port p)) 0 false := by
  unfold doPortDisable
  extract_lets v
  exact if_pos ((llState_ctrl s (.port p) 0 false).trans h0)

end

/-! ### Host links -/

section
variable (s : State) (h : HLink)

theorem hlState_ctrl (i : Nat) (b : Bool) : (s.wb (.llCtrl (.host h)) i b).hlState h.val = s.hlState h.val := by
  rw [hlState_val, hlState_val]
  exact llState_ctrl s (.host h) i b

theorem hostWindow_loses {r : Retrain} (hr : (s.hl h).retrain = some r) (hd : r.window + us 2000 < s.clk) :
    s.hostWindow h = s.loseHost h 0 := by
  unfold State.hostWindow
  rw [hr]
  exact if_pos hd

theorem not_lossAt_tkState : ¬ LossAt h Reg.tkState.addr := by
  rintro (e | (e | ⟨k, e⟩) | e | e | e)
  · exact not_anyLaneAt_tkState e
  · exact addr_ne_of_off 0 0x10028 rfl rfl (by decide) e
  · exact addr_ne_of_off 0 0x20008 rfl rfl (by decide) e
  · exact addr_ne_of_off 0 0x10008 rfl rfl (by decide) e
  · simp only [Reg.addr, Reg.off, Reg.block, linkBase, linkBlock, blockBase] at e
    omega
  · exact not_faultAt_of_off _ 0 rfl (by decide) e

theorem ftStatus_not_link (o : Nat) {r : Reg} (hr : r.off = o) (ho : 0xF000 ≠ o % 0x10000) :
    (Reg.ftStatus (.hostlink h)).addr ≠ r.addr := addr_ne_of_off 0xF000 o rfl hr ho

/-- The record of a host link that has lost everything. -/
theorem fresh_fields {x y : HostLl} {now : Nat} (e : y = x.fresh now) : y.retrain = none ∧ y.replay = [] := by
  rw [e]
  exact ⟨rfl, rfl⟩

/-- A link whose window ends is LOST, and trains (R106, R110). -/
theorem loseHost_trains (unit : Nat) (hd : s.dust = false) (h1 : s.rb (.llCtrl (.host h)) 1 = false) (h0 : s.hlState h.val ≠ 0)
    (h7 : s.hlState h.val ≠ 7) (hc : s.HostClear h) : ∃ t, s.loseHost h unit = t ∧ s.Alters t (.out :: lossFields) AnyReg ∧
    t.hlState h.val = 7 ∧ t.rb (.llStatus (.host h)) 4 = true ∧ t.rb (.ftStatus (.hostlink h)) 2 = true ∧
    (t.hl h).retrain = none ∧ (t.hl h).replay = [] ∧ (t.tl h.val).rspQ = [] ∧
    ∀ n ∈ linkLanes (.host h), s.laneOn n = true → t.laneState n = 1 := by
  obtain ⟨u, hu, hmark, hft, he⟩ := loseHost_eq s h unit h0 h7 hc
  have hdu : u.dust = false := (dust_of_reg (hu.same.reg _ (not_lossAt_tkState h))).trans hd
  obtain ⟨t, ht, hut, hst, hm, hre, hrp, hl⟩ := trainHost_lost u h hu.state ((hu.ctrl 1 (by decide)).trans h1) hdu
  obtain ⟨x, hx⟩ := hu.link
  obtain ⟨f1, f2⟩ := fresh_fields hx
  refine ⟨t, he.trans ht, (hu.same.any.mono (by decide)).trans (hut.any.mono (by decide)), (hlState_val t h).trans hst, hm.trans hmark,
    ?_, hre.trans f1, hrp.trans f2, ?_, fun n hn ho => hl n hn ((hu.on n hn).trans ho)⟩
  · rw [hut.rb (fun e => e.elim (fun ⟨n, e⟩ => not_faultAt_of_lane e (.hostlink h) (.inl rfl)) (ftStatus_not_link h 0x10008 rfl (by decide)))]
    exact hft
  · rw [tl_of_ht hut.ht, hu.rspQ]

/-- force_fence declares a link LOST and holds it there (R110, R111). -/
theorem hostForce_loses (h0 : s.hlState h.val ≠ 0) (h7 : s.hlState h.val ≠ 7) (hc : s.HostClear h) : ∃ t, s.hostForce h = t ∧
    s.Alters t lossFields AnyReg ∧ t.hlState h.val = 7 ∧ t.rb (.llCtrl (.host h)) 1 = true ∧ t.rb (.llStatus (.host h)) 4 = true ∧
    t.rb (.ftStatus (.hostlink h)) 2 = true ∧ (t.hl h).retrain = none ∧ (t.hl h).replay = [] ∧ (t.tl h.val).rspQ = [] ∧
    ∀ n ∈ linkLanes (.host h), t.laneState n = if s.laneState n = 6 then 6 else 0 := by
  obtain ⟨u, hu⟩ : ∃ u, u = s.wb (.llCtrl (.host h)) 1 true := ⟨_, rfl⟩
  have hsu : s.Alters u [.regs] (fun a => a = (Reg.llCtrl (.host h)).addr) := hu ▸ ctrl_alters s (.host h) 1 true
  have h1 : u.rb (.llCtrl (.host h)) 1 = true := hu ▸ rb_wb_same _ _ _ _ (by decide)
  have hst : u.hlState h.val = s.hlState h.val := hu ▸ hlState_ctrl s h 1 true
  obtain ⟨v, hv, hmark, hft, he⟩ := loseHost_eq u h 1 (hst ▸ h0) (hst ▸ h7) (HostClear_of_regs s h hsu hc)
  have hv1 : v.rb (.llCtrl (.host h)) 1 = true := (hv.ctrl 1 (by decide)).trans h1
  have hvt := lanesStop_stops v (.host h)
  obtain ⟨x, hx⟩ := hv.link
  obtain ⟨f1, f2⟩ := fresh_fields hx
  refine ⟨v.lanesStop (.host h), ?_, (hsu.any.mono (by decide)).trans ((hv.same.any.mono (by decide)).trans (hvt.same.any.mono (by decide))),
    ?_, ?_, ?_, ?_, ?_, ?_, ?_, fun n hn => ?_⟩
  · unfold State.hostForce
    extract_lets w
    rw [show w = u from hu.symm, if_neg (hst ▸ h7), he, trainHost_held v h hv.state hv1]
  · rw [hlState_val]
    exact (hvt.same.rf (not_anyLaneAt_llStatus _) 3 0).trans hv.state
  · rw [hvt.same.rb (not_anyLaneAt_llCtrl _), hv1]
  · rw [hvt.same.rb (not_anyLaneAt_llStatus _), hmark]
  · rw [hvt.same.rb (fun ⟨n, e⟩ => not_faultAt_of_lane e (.hostlink h) (.inl rfl)), hft]
  · rw [hl_of_hll hvt.same.hll, f1]
  · rw [hl_of_hll hvt.same.hll, f2]
  · rw [tl_of_ht hvt.same.ht, hv.rspQ]
  · rw [hvt.state n hn, hv.lanes n hn, hu, laneState_ctrl]
    split
    · rfl
    · rfl

/-- force_fence written of a LOST link (R111). -/
theorem hostForce_lost (h7 : s.hlState h.val = 7) : ∃ t, s.hostForce h = t ∧ s.Alters t [.regs, .hll, .lanes] AnyReg ∧
    t.hlState h.val = 7 ∧ t.rb (.llCtrl (.host h)) 1 = true ∧
    ∀ n ∈ linkLanes (.host h), t.laneState n = if s.laneState n = 6 then 6 else 0 := by
  obtain ⟨u, hu⟩ : ∃ u, u = s.wb (.llCtrl (.host h)) 1 true := ⟨_, rfl⟩
  obtain ⟨v, hv⟩ : ∃ v, v = u.modHl h (fun x => x.fresh u.clk) := ⟨_, rfl⟩
  have hsu : s.Alters u [.regs] (fun a => a = (Reg.llCtrl (.host h)).addr) := hu ▸ ctrl_alters s (.host h) 1 true
  have hst : u.hlState h.val = 7 := (hu ▸ hlState_ctrl s h 1 true).trans h7
  have huv : u.Alters v [.hll] NoReg := hv ▸ alters_modHl _ _
  have hvt := lanesStop_stops v (.host h)
  refine ⟨v.lanesStop (.host h), ?_, (hsu.any.mono (by decide)).trans ((huv.any.mono (by decide)).trans (hvt.same.any.mono (by decide))),
    ?_, ?_, fun n hn => ?_⟩
  · unfold State.hostForce
    extract_lets w
    rw [show w = u from hu.symm, if_pos hst, hv]
  · rw [hlState_val, State.llState, hvt.same.rf (not_anyLaneAt_llStatus _), huv.rf id]
    exact (hlState_val u h).symm.trans hst
  · rw [hvt.same.rb (not_anyLaneAt_llCtrl _), huv.rb id, hu]
    exact rb_wb_same _ _ _ _ (by decide)
  · rw [hvt.state n hn, show v.laneState n = u.laneState n from huv.rf id 3 0, hu, laneState_ctrl]

theorem hostForce_down (h0 : s.hlState h.val = 0) : s.hostForce h = s.wb (.llCtrl (.host h)) 1 true := by
  have hst := (hlState_ctrl s h 1 true).trans h0
  unfold State.hostForce
  extract_lets w
  rw [if_neg (show ¬ w.hlState h.val = 7 from fun e => absurd (hst.symm.trans e) (by decide))]
  exact if_pos (.inl hst)

/-- A host link that is disabled (R500). -/
theorem hostLinkDisable_stops (h0 : s.hlState h.val ≠ 0) (hc : s.HostClear h) : ∃ t, doHostLinkDisable h s = t ∧
    s.Alters t lossFields AnyReg ∧ t.hlState h.val = 0 ∧ t.rb (.llCtrl (.host h)) 0 = false ∧ (t.hl h).retrain = none ∧
    (t.hl h).replay = [] ∧ (t.tl h.val).rspQ = [] ∧
    ∀ n ∈ linkLanes (.host h), t.laneState n = if s.laneState n = 6 then 6 else 0 := by
  obtain ⟨u, hu⟩ : ∃ u, u = s.wb (.llCtrl (.host h)) 0 false := ⟨_, rfl⟩
  have hsu : s.Alters u [.regs] (fun a => a = (Reg.llCtrl (.host h)).addr) := hu ▸ ctrl_alters s (.host h) 0 false
  have hst : u.hlState h.val = s.hlState h.val := hu ▸ hlState_ctrl s h 0 false
  obtain ⟨a, ha, hua, hsa, hctrl⟩ := downRegs_spec u h 0 (by decide)
  have hb : a.Drops (a.dropHost h) h := dropHost_drops a h (HostClear_of_regs u h hua (HostClear_of_regs s h hsu hc))
  have hs : u.HostStops ((a.dropHost h).lanesStop (.host h)) h 0 := hostStops_of u h hua hsa hctrl hb (.refl _) rfl rfl
  obtain ⟨x, hx⟩ := hs.link
  obtain ⟨f1, f2⟩ := fresh_fields hx
  refine ⟨_, ?_, (hsu.any.mono (by decide)).trans hs.same.any, (hlState_val _ h).trans hs.state, ?_, f1, f2, hs.rspQ, fun n hn => ?_⟩
  · unfold doHostLinkDisable
    extract_lets w v
    have hv : v = (u.setLink (.host h) 0).showWidth (.host h) 0 := by rw [hu]
    rw [if_neg (show ¬ w.hlState h.val = 0 from fun e => h0 ((hlState_ctrl s h 0 false).symm.trans e)), hv, ha]
  · rw [hs.ctrl 0 (by decide), hu]
    exact rb_wb_same _ _ _ _ (by decide)
  · rw [hs.lanes n hn, hu, laneState_ctrl]

theorem hostLinkDisable_down (h0 : s.hlState h.val = 0) : doHostLinkDisable h s = s.wb (.llCtrl (.host h)) 0 false :=
  if_pos ((hlState_ctrl s h 0 false).trans h0)

end

/-- Settles O20. -/
theorem linksAreFencedLostAndDisabled : Obligations.LinksAreFencedLostAndDisabled := by
  unfold Obligations.LinksAreFencedLostAndDisabled
  refine ⟨?_, ?_, ?_, ?_, ?_, ?_, ?_, ?_, ?_, ?_, ?_, ?_, ?_⟩
  · intro s p dt r hc hl hr hd h4 hcl
    have hf := fencePort_holds (s.elapse dt) p 0 (by rw [h4]; decide) (by rw [h4]; decide) hcl
    obtain ⟨x, hx, ho⟩ := hf.port
    exact ⟨_, act_of_alters hl hc (portWindow_fences _ p hr hd) hf.same, hf.state, ⟨hf.mark, hf.fault, hf.width⟩,
      cleared_fields hx ho, fun l => hf.lanes _ (mem_linkLanes_port p l), hf.same.hbm⟩
  · intro s p dt r hc hl hr hd h4 hcl
    obtain ⟨t, ht, ha, h1, h2, h3, ⟨h5, h6, h7⟩, h8, h9⟩ :=
      fencePort_recovers (s.elapse dt) p 0 (dust_of_live hl) (by rw [h4]; decide) (by rw [h4]; decide) hcl
    exact ⟨t, act_of_alters hl hc ((portWindow_fences _ p hr hd).trans ht) ha, h1, ⟨h2, h3⟩, ⟨h5, h6, h7, h8⟩,
      fun l => h9 _ (mem_linkLanes_port p l), ha.hbm⟩
  · intro s p dt r hc hr hd
    exact act_unchanged hc (portWindow_waits _ p hr hd)
  · intro s h dt r hc hl hr hd h4 h1 hdust hrp hrd hrq ⟨hha, hlk, hme⟩
    obtain ⟨t, ht, ha, h2, h3, h5, h6, h7, h8, h9⟩ :=
      loseHost_trains (s.elapse dt) h 0 hdust h1 (by rw [h4]; decide) (by rw [h4]; decide) ⟨hrp, hrd, hrq, hha, hlk, hme⟩
    exact ⟨t, act_of_alters hl hc ((hostWindow_loses _ h hr hd).trans ht) ha, h2, ⟨h3, h5⟩, ⟨h6, h7, h8⟩,
      fun l => h9 _ (mem_linkLanes_host h l), ha.hbm⟩
  · intro s p hc hl h0 h6
    obtain ⟨u, hu, hf, h1⟩ := forceFence_fences s p h0 h6
    have hsu : s.Alters u [.regs] (fun a => a = (Reg.llCtrl (.port p)).addr) := hu ▸ ctrl_alters s (.port p) 1 true
    have ht : doForceFence (.port p) s = u.fencePort p 1 := hu ▸ rfl
    obtain ⟨x, hx, ho⟩ := hf.port
    refine ⟨_, act_of_alters hl hc ht ((hsu.any.mono (by decide)).trans hf.same.any), h1, hf.state, ⟨hf.mark, hf.fault, hf.width⟩,
      cleared_fields hx ho, fun l => ?_, hf.same.hbm.trans hsu.hbm⟩
    rw [hf.lanes _ (mem_linkLanes_port p l), hu, laneState_ctrl]
  · intro s p hc hl hst
    exact act_of_alters hl hc (fencePort_down _ p 1 (by
      rw [show (s.wb (.llCtrl (.port p)) 1 true).portState p = s.portState p from llState_ctrl s (.port p) 1 true]
      exact hst)) (ctrl_alters s (.port p) 1 true)
  · intro s h hc hl h7
    obtain ⟨t, ht, ha, h1, h2, h3⟩ := hostForce_lost s h h7
    exact ⟨t, act_of_alters hl hc ht ha, h1, h2, fun l => h3 _ (mem_linkLanes_host h l),
      (ha.mono (by decide)).eq_links.trans (by rw [ha.out, ha.frees, ha.ports])⟩
  · intro s h hc hl ⟨h0, h7⟩ hrp hrd hrq ⟨hha, hlk, hme⟩
    obtain ⟨t, ht, ha, h1, h2, h3, h4, h5, h6, h8, h9⟩ := hostForce_loses s h h0 h7 ⟨hrp, hrd, hrq, hha, hlk, hme⟩
    exact ⟨t, act_of_alters hl hc ht ha, h1, h2, ⟨h3, h4⟩, ⟨h5, h6, h8⟩, fun l => h9 _ (mem_linkLanes_host h l), ha.hbm⟩
  · intro s h hc hl h0
    exact act_of_alters hl hc (hostForce_down s h h0) (ctrl_alters s (.host h) 1 true)
  · intro s p hc hl h0
    obtain ⟨u, t, hu, ht, hs, h1, h2⟩ := portDisable_stops s p h0
    have hsu : s.Alters u [.regs] (fun a => a = (Reg.llCtrl (.port p)).addr) := hu ▸ ctrl_alters s (.port p) 0 false
    obtain ⟨x, hx, ho⟩ := hs.port
    refine ⟨t, act_of_alters hl hc ht ((hsu.any.mono (by decide)).trans hs.same.any), hs.state, h1, cleared_fields hx ho, fun l => ?_, h2,
      hs.same.hbm.trans hsu.hbm⟩
    rw [hs.lanes _ (mem_linkLanes_port p l), hu, laneState_ctrl]
  · intro s p hc hl h0
    exact act_of_alters hl hc (portDisable_down s p h0) (ctrl_alters s (.port p) 0 false)
  · intro s h hc hl h0 hrp hrd hrq ⟨hha, hlk, hme⟩
    obtain ⟨t, ht, ha, h1, h2, h3, h4, h5, h6⟩ := hostLinkDisable_stops s h h0 ⟨hrp, hrd, hrq, hha, hlk, hme⟩
    exact ⟨t, act_of_alters hl hc ht ha, h1, h2, ⟨h3, h4, h5⟩, fun l => h6 _ (mem_linkLanes_host h l), ha.hbm⟩
  · intro s h hc hl h0
    exact act_of_alters hl hc (hostLinkDisable_down s h h0) (ctrl_alters s (.host h) 0 false)

end Sys2Proof.Machine
end

section
/-! PROOFS. RoutingStagesBeaconsAndExceptions (R122 to R139, R426). -/

namespace Sys2Proof.Machine

-- The proofs are elaborated one after another: in parallel their threads' stacks need more memory than a compile may have.
set_option Elab.async false

/-! ### The sources of packets (R135) -/

section
variable (s : State) (k : Nat)

/-- A header that is to be routed is the first flit of its source, and no packet of the source has committed. -/
theorem waitingHead_spec {src : RouteSrc} {vc : VC} {f : Flit} (h : s.waitingHead src vc = some f) :
    tFind s.worms (srcKey src vc) = none ∧ ∃ fs, s.srcFlits (srcKey src vc) = f :: fs := by
  unfold State.waitingHead at h
  extract_lets k at h
  split at h
  · cases h
  next hw =>
    split at h
    · cases h
    next g gs hs =>
      split at h
      · cases h
      · cases h
        refine ⟨?_, gs, hs⟩
        rw [Bool.or_eq_true, not_or] at hw
        exact Option.not_isSome_iff_eq_none.mp hw.2

/-- The sources' flits are read from the ports and the send engines. -/
theorem srcFlits_of {s t : State} (hp : t.ports = s.ports) (hi : t.inject = s.inject) : t.srcFlits k = s.srcFlits k := by
  rw [State.srcFlits, State.srcFlits, port_of_ports hp, hi]

theorem putHead_head {f g : Flit} {fs : List Flit} (h : s.srcFlits k = f :: fs) : ((s.putHead k g).srcFlits k).head? = some g := by
  unfold State.srcFlits at h
  unfold State.putHead
  extract_lets upd
  split at h
  next hk =>
    rw [if_pos hk, State.srcFlits, if_pos hk, port_modPort_same]
    simp only [tGet_tMod_same, h, upd, List.head?_cons]
  next hk =>
    rw [if_neg hk, State.srcFlits, if_neg hk]
    split at h
    next q rest hq => simp only [tGet_tMod_same, hq, h, upd, List.head?_cons]
    · cases h

theorem putHead_alters (g : Flit) : s.Alters (s.putHead k g) [.ports, .inject] NoReg := by
  unfold State.putHead
  exact .ite (alters_modPort _ _) (.put_inject _ _)

theorem takeSrc_alters (n : Nat) : s.Alters (s.takeSrc k n) [.ports, .inject] NoReg := by
  unfold State.takeSrc
  exact .ite (alters_modPort _ _) (.put_inject _ _)

theorem pump_alters : s.Alters (s.pump k) [.ports, .worms, .eject, .inject] NoReg := by
  unfold State.pump
  split
  · exact .refl s
  split
  · exact .refl s
  extract_lets fs u left got v
  have hu : s.Alters u [.ports, .worms, .eject, .inject] NoReg := (takeSrc_alters s k _).mono (by decide) fun _ => id
  have hv : u.Alters v [.ports, .worms, .eject, .inject] NoReg := .put_worms _ _
  exact .ite (.ite ((hu.trans hv).trans (.put_eject _ _)) (hu.trans hv)) (hu.trans (.put_worms _ _))

end

/-! ### Packets that leave their source (R133, R135) -/

section
variable (s : State) (k len : Nat)

/-- The fields that a packet on its way to an endpoint, or being discarded, changes. -/
def wormFields : List Field := [.ports, .worms, .eject, .inject, .waits]

theorem beginWorm_alters (d : WormDest) : s.Alters (s.beginWorm k len d) wormFields NoReg := by
  obtain ⟨u, hu⟩ : ∃ u, u = { s with worms := tPut k ⟨d, len, []⟩ s.worms, waits := tDel k s.waits } := ⟨_, rfl⟩
  have h : s.Alters u wormFields NoReg := by
    rw [hu]
    exact State.Alters.trans (.put_worms s (tPut k ⟨d, len, []⟩ s.worms)) (.put_waits _ _)
  rw [State.beginWorm, ← hu]
  exact h.trans ((pump_alters u k).mono (by decide) fun _ => id)

theorem beginWorm_waits (d : WormDest) : tFind (s.beginWorm k len d).waits k = none := by
  rw [State.beginWorm, (pump_alters _ k).waits]
  exact tFind_tDel_same ..

/-- A packet whose flits have all come passes whole to its endpoint. -/
theorem beginWorm_whole (h : len ≤ (s.srcFlits k).length) :
    (s.beginWorm k len .eject).eject = s.eject ++ [⟨(s.srcFlits k).take len, srcPortOf k⟩] ∧
    tFind (s.beginWorm k len .eject).worms k = none := by
  obtain ⟨u, hu⟩ : ∃ u, u = { s with worms := tPut k ⟨.eject, len, []⟩ s.worms, waits := tDel k s.waits } := ⟨_, rfl⟩
  have hw : tFind u.worms k = some ⟨.eject, len, []⟩ := by
    rw [hu]
    exact tFind_tPut_same ..
  have hf : u.srcFlits k = s.srcFlits k := by
    rw [hu]
    exact srcFlits_of k rfl rfl
  have he : u.eject = s.eject := by rw [hu]
  rw [State.beginWorm, ← hu]
  unfold State.pump
  simp -zeta only [hw, hf]
  extract_lets fs v left got w
  have hl : left = 0 := by
    show len - ((s.srcFlits k).take len).length = 0
    rw [List.length_take]
    omega
  rw [if_pos hl, if_pos trivial]
  refine ⟨?_, tFind_tDel_same ..⟩
  show v.eject ++ _ = _
  rw [(takeSrc_alters u k _).eject, he]
  rfl

/-- A packet that is discarded reaches no endpoint. -/
theorem beginWorm_drop : (s.beginWorm k len .drop).eject = s.eject := by
  obtain ⟨u, hu⟩ : ∃ u, u = { s with worms := tPut k ⟨.drop, len, []⟩ s.worms, waits := tDel k s.waits } := ⟨_, rfl⟩
  have hw : tFind u.worms k = some ⟨.drop, len, []⟩ := by
    rw [hu]
    exact tFind_tPut_same ..
  have he : u.eject = s.eject := by rw [hu]
  rw [State.beginWorm, ← hu]
  unfold State.pump
  simp -zeta only [hw]
  extract_lets fs v left got w
  have hv : v.eject = s.eject := (takeSrc_alters u k _).eject.trans he
  split
  · exact hv
  · exact hv

end

/-- A header that commits holds its output VC for its packet's whole length (R135). -/
structure State.Commits (s t : State) (k : Nat) (c : Cand) (f : Flit) (h : BitVec 512) : Prop where
  same : s.Alters t [.ports, .inject, .worms, .waits] NoReg
  out : tFind (t.port c.p).outv c.v = some ⟨k, rhF h 79 77, rhF h 64 58, true⟩
  worm : tFind t.worms k = some ⟨.out c.p.val c.v, rhF h 64 58, []⟩
  head : (t.srcFlits k).head? = some { f with bits := h }
  waits : tFind t.waits k = none

theorem commit_commits (s : State) (k : Nat) (c : Cand) {f : Flit} {fs : List Flit} (h : BitVec 512) (hf : s.srcFlits k = f :: fs) :
    s.Commits (s.commit k c f h) k c f h := by
  obtain ⟨u, hu⟩ : ∃ u, u = s.putHead k { f with bits := h } := ⟨_, rfl⟩
  obtain ⟨v, hv⟩ : ∃ v, v = { u with worms := tPut k ⟨.out c.p.val c.v, rhF h 64 58, []⟩ u.worms, waits := tDel k u.waits } := ⟨_, rfl⟩
  have ht : s.commit k c f h = v.modPort c.p (fun x => { x with outv := tPut c.v ⟨k, rhF h 79 77, rhF h 64 58, true⟩ x.outv }) := by
    rw [hv, hu]
    rfl
  have hsu : s.Alters u [.ports, .inject, .worms, .waits] NoReg := by
    rw [hu]
    exact (putHead_alters s k _).mono (by decide) fun _ => id
  have huv : u.Alters v [.ports, .inject, .worms, .waits] NoReg := by
    rw [hv]
    exact State.Alters.trans (.put_worms u (tPut k ⟨.out c.p.val c.v, rhF h 64 58, []⟩ u.worms)) (.put_waits _ _)
  have hvf : v.srcFlits k = u.srcFlits k := by
    rw [hv]
    exact srcFlits_of k rfl rfl
  have hbuf : ∀ q, (((v.modPort c.p (fun x => { x with outv := tPut c.v ⟨k, rhF h 79 77, rhF h 64 58, true⟩ x.outv })).port q).ibuf) =
      (v.port q).ibuf := fun q => by
    by_cases e : q = c.p
    · subst e
      rw [port_modPort_same]
    · rw [port_modPort_other _ _ e]
  have hvt : (s.commit k c f h).srcFlits k = v.srcFlits k := by
    rw [ht, State.srcFlits, State.srcFlits, hbuf]
    rfl
  rw [ht] at hvt ⊢
  refine ⟨(hsu.trans huv).trans (alters_modPort _ _), ?_, ?_, ?_, ?_⟩
  · rw [port_modPort_same]
    exact tFind_tPut_same ..
  · rw [hv]
    exact tFind_tPut_same ..
  · rw [hvt, hvf, hu]
    exact putHead_head s k hf
  · rw [hv]
    exact tFind_tDel_same ..

/-! ### Headers evaluated (R122, R133 to R135) -/

section
variable (s : State) (src : RouteSrc) (vc : VC) (f : Flit)

/-- The registers that an exception of a stall's routing stage writes. -/
def ExcAt (st : Stall) (a : Nat) : Prop := a = (Reg.rtCount st).addr ∨ FaultAt (.stall st) a

/-- An exception of a stall's routing stage is counted and noted, whatever else a packet does. -/
theorem bump_note_spec (st : Stall) (hi lo code unit : Nat) (hh : hi < 64) :
    s.Alters ((s.bump (.rtCount st) hi lo 1).fault (.stall st) .note code unit) faultFields (ExcAt st) ∧
    ((s.bump (.rtCount st) hi lo 1).fault (.stall st) .note code unit).rf (.rtCount st) hi lo =
      min (2 ^ (hi + 1 - lo) - 1) (s.rf (.rtCount st) hi lo + 1) ∧
    (s.frozen (.stall st) = false →
      ((s.bump (.rtCount st) hi lo 1).fault (.stall st) .note code unit).rb (.ftStatus (.stall st)) 0 = true) := by
  have h1 : s.Alters (s.bump (.rtCount st) hi lo 1) [.regs] (ExcAt st) := alters_bump _ _ _ (.inl rfl)
  have h2 := fault_alters (s.bump (.rtCount st) hi lo 1) (.stall st) .note code unit
  refine ⟨(h1.mono (by decide) fun _ => id).trans (h2.mono (by decide) fun _ => .inr), ?_, fun hf => ?_⟩
  · rw [h2.rf (not_faultAt_of_off _ 0x1000 rfl), rf_bump_same _ _ _ _ _ hh, min_comm]
  · refine fault_status _ _ .note _ _ ?_
    rw [frozen_of_alters (P := fun a => a = (Reg.rtCount st).addr) (F := [.regs]) (alters_bump _ _ _ rfl)
      fun d => addr_ne_of_off 0x7008 0x1000 rfl rfl]
    exact hf

/-- A header that is not bad goes by its route: to an endpoint of this chip. -/
theorem routeHead_eject (hb : rhBad f.bits vc.val = false) (hr : s.routeOf (srcStall src) f.bits = (false, f.bits, .eject)) :
    s.routeHead src vc f = s.beginWorm (srcKey src vc) (rhF f.bits 64 58) .eject := by
  unfold State.routeHead
  cases src <;> simp only [hb, hr, Bool.false_eq_true, if_false]

/-- To no chip: it is counted, noted and discarded. -/
theorem routeHead_unroutable (hb : rhBad f.bits vc.val = false)
    (hr : s.routeOf (srcStall src) f.bits = (false, f.bits, .unroutable)) :
    s.routeHead src vc f = ((s.bump (.rtCount (stallOf (srcStall src))) 47 32 1).fault (.stall (stallOf (srcStall src))) .note 0x10
      (srcUnit src)).beginWorm (srcKey src vc) (rhF f.bits 64 58) .drop := by
  unfold State.routeHead
  cases src <;> simp only [hb, hr, Bool.false_eq_true, if_false]

/-- To an output VC. -/
theorem routeHead_go {c : Cand} {h : BitVec 512} (hb : rhBad f.bits vc.val = false)
    (hr : s.routeOf (srcStall src) f.bits = (false, f.bits, .go c h)) (hx : s.beaten (srcKey src vc) c = false) :
    s.routeHead src vc f = s.commit (srcKey src vc) c f h := by
  unfold State.routeHead
  cases src <;> simp only [hb, hr, hx, Bool.false_eq_true, if_false]

/-- Or it waits. -/
theorem routeHead_wait (hb : rhBad f.bits vc.val = false) (hr : s.routeOf (srcStall src) f.bits = (false, f.bits, .wait)) :
    s.routeHead src vc f =
      if (tFind s.waits (srcKey src vc)).isSome then s else { s with waits := tPut (srcKey src vc) s.clk s.waits } := by
  unfold State.routeHead
  cases src <;> simp only [hb, hr, Bool.false_eq_true, if_false]

theorem routeHead_bad (p : Port) (hb : rhBad f.bits vc.val = true) : s.routeHead (.port p) vc f = s.badHeader p vc.val := by
  unfold State.routeHead
  simp only [hb]

/-- The route of a packet for this chip, and of one for a chip that the map does not have. -/
theorem routeOf_here (st : Nat) (h : BitVec 512) (hd : rhF h 127 112 = s.coord) (hp : s.faPossible (256 * s.coord) = true) :
    s.routeOf st h = (false, h, .eject) := by
  have hr : s.routeOnce st h = .eject := by
    unfold State.routeOnce
    extract_lets dest
    rw [if_neg (by rw [show dest = s.coord from hd, hp]; decide), if_pos hd]
  unfold State.routeOf
  rw [hr]

theorem routeOf_nowhere (st : Nat) (h : BitVec 512) (hp : s.faPossible (256 * rhF h 127 112) = false) :
    s.routeOf st h = (false, h, .unroutable) := by
  have hr : s.routeOnce st h = .unroutable := by
    unfold State.routeOnce
    extract_lets dest
    rw [if_pos (by rw [show s.faPossible (256 * dest) = false from hp]; rfl)]
  unfold State.routeOf
  rw [hr]

/-- A header that has not been evaluated, and one that waits (R135). -/
theorem doRouteHeader_eq (hw : s.waitingHead src vc = some f) (hk : tFind s.waits (srcKey src vc) = none) :
    doRouteHeader src vc s = s.routeHead src vc f := by
  unfold doRouteHeader
  simp only [hw, hk, Option.isSome_none, Bool.false_eq_true, if_false]

theorem doHeaderReevaluate_eq {t0 : Nat} (hw : s.waitingHead src vc = some f) (hk : tFind s.waits (srcKey src vc) = some t0) :
    doHeaderReevaluate src vc s = s.routeHead src vc f := by
  unfold doHeaderReevaluate
  simp only [hw, hk, Option.isSome_some, if_true]

end

section
variable (s : State) (p : Port)

/-! ### A bad header (R122) -/

/-- The registers of a stall lie below those of every port. -/
theorem rtCount_lt (st : Stall) : (Reg.rtCount st).addr < 0x20000000 := by
  simp only [Reg.addr, Reg.off, Reg.block, blockBase]
  omega

theorem port_reg_ge {r : Reg} (hb : r.block = .port p) : 0x20000000 ≤ r.addr := by
  simp only [Reg.addr, hb, blockBase]
  omega

theorem stopAt_ge {a : Nat} (h : StopAt p a) : 0x20000000 ≤ a := by
  rcases h with ⟨n, h⟩ | h | h | h
  · unfold LaneAt at h
    cases n <;> simp only [laneBlock, blockBase] at h <;> omega
  · exact h ▸ port_reg_ge p rfl
  · exact h ▸ port_reg_ge p rfl
  · exact h ▸ port_reg_ge p rfl

theorem not_excAt_port {r : Reg} (st : Stall) (o : Nat) (hb : r.block = .port p) (ho : r.off = o)
    (h : o % 0x10000 ≠ 0xF000 ∧ o % 0x10000 ≠ 0xF018 ∧ o % 0x10000 ≠ 0x0008 := by decide) : ¬ ExcAt st r.addr := by
  rintro (e | e)
  · have h1 := port_reg_ge p hb
    have h2 := rtCount_lt st
    omega
  · exact not_faultAt_of_off _ o ho h e

theorem badHeader_spec (vc : VC) (h0 : s.portState p ≠ 0) (h6 : s.portState p ≠ 6) (hc : s.rb (.llCtrl (.port p)) 2 = false) :
    ∃ t, s.badHeader p vc.val = t ∧ s.Alters t (.waits :: fenceFields) AnyReg ∧
    t.rf (.rtCount (stallOfPort p)) 31 16 = min 0xFFFF (s.rf (.rtCount (stallOfPort p)) 31 16 + 1) ∧ t.portState p = 6 ∧
    t.rb (.llStatus (.port p)) 7 = true ∧ tGet [] (t.port p).ibuf vc.val = [] ∧ tFind t.waits (srcPort p vc.val) = none := by
  obtain ⟨u, hu⟩ : ∃ u, u = (s.bump (.rtCount (stallOfPort p)) 31 16 1).fault (.stall (stallOfPort p)) .note 0x12 (p.val % 4) := ⟨_, rfl⟩
  obtain ⟨v, hv⟩ : ∃ v, v = u.modPort p (fun x => { (x.free vc.val (tGet [] x.ibuf vc.val).length) with
    ibuf := tDel vc.val x.ibuf, syncIn := if vc.val = 0 then [] else x.syncIn, bad := vc.val :: x.bad }) := ⟨_, rfl⟩
  obtain ⟨w, hw⟩ : ∃ w, w = { v with waits := tDel (srcPort p vc.val) v.waits } := ⟨_, rfl⟩
  obtain ⟨hsu, hn, -⟩ := bump_note_spec s (stallOfPort p) 31 16 0x12 (p.val % 4) (by decide)
  rw [← hu] at hsu hn
  have huw : u.Alters w [.ports, .waits] NoReg := by
    rw [hw, hv]
    exact State.Alters.trans (F := [.ports, .waits]) (P := NoReg) (alters_modPort _ _) (.put_waits _ _)
  have hsw : s.Alters w (.waits :: fenceFields) (ExcAt (stallOfPort p)) :=
    (hsu.mono (by decide) fun _ => id).trans (huw.mono (by decide) fun _ => False.elim)
  have hd : (w.port p).Discards vc.val := by
    rw [hw, show ({ v with waits := tDel (srcPort p vc.val) v.waits } : State).port p = v.port p from rfl, hv, port_modPort_same]
    refine ⟨by simp, ?_⟩
    show tGet [] (tDel vc.val (u.port p).ibuf) vc.val = []
    rw [tGet, tFind_tDel_same]
    rfl
  have h0w : w.portState p = s.portState p := hsw.rf (not_excAt_port p _ 0x1008 rfl rfl) 3 0
  have hf := fencePort_holds w p 2 (by rw [h0w]; exact h0) (by rw [h0w]; exact h6)
    (.inl ((hsw.rb (q := .llCtrl (.port p)) (not_excAt_port p _ 0x1000 rfl rfl) 2).trans hc))
  have ht : s.badHeader p vc.val = w.fencePort p 2 := by
    rw [hw, hv, hu]
    rfl
  have hcount : ¬ (StopAt p (Reg.rtCount (stallOfPort p)).addr ∨ FaultAt (.port p) (Reg.rtCount (stallOfPort p)).addr) := by
    rintro (e | e)
    · have h1 := stopAt_ge p e
      have h2 := rtCount_lt (stallOfPort p)
      omega
    · exact not_faultAt_of_off _ 0x1000 rfl (by decide) e
  refine ⟨_, ht, (hsw.any).trans ((hf.same.any).mono (by decide)), ?_, hf.state, hf.mark, hf.lost _ hd, ?_⟩
  · rw [hf.same.rf hcount, huw.rf id]
    exact hn
  · rw [hf.same.waits, hw]
    exact tFind_tDel_same ..

end

/-! ### Beacons and exception entries (R132, R138, R139) -/

section
variable (s : State) (p : Port)

theorem excWrite_spec (st : Stall) (i : Fin 4096) (v : BitVec 64) (hn : s.newBank = none) (ho : s.oldBank = none)
    (hf : (Reg.rtExc st i).fieldsOk v = true) (hp : s.faPossible (256 * fld v 15 0) = true) :
    s.regWrite .warden (.rtExc st i) v = s.setReg (.rtExc st i) v := by
  have hfa : (s.setReg (.rtExc st i) v).faPossible (256 * fld v 15 0) = true := by
    have ht : (s.setReg (.rtExc st i) v).reg .rtTopo = s.reg .rtTopo := reg_setReg_other _ _ _ _ (by
      simp only [Reg.addr, Reg.off, Reg.block, blockBase]
      omega)
    rw [State.faPossible, ht]
    exact hp
  have hd : s.regWrite .warden (.rtExc st i) v = doRtExcWrite st i v s := rfl
  rw [hd]
  unfold doRtExcWrite
  extract_lets r u
  rw [if_neg (by rw [State.excLocked, hn, ho, show r.fieldsOk v = true from hf]; decide), if_pos hfa]

theorem excWrite_locked (st : Stall) (i : Fin 4096) (v : BitVec 64) {b : RtBank} (hn : s.newBank = some b) :
    s.regWrite .warden (.rtExc st i) v = s.noteReserved (.stall st) 0 := by
  have hd : s.regWrite .warden (.rtExc st i) v = doRtExcWrite st i v s := rfl
  rw [hd]
  unfold doRtExcWrite
  extract_lets r u
  rw [if_pos (by rw [State.excLocked, hn]; rfl)]

theorem not_faultAt_rtExc (st : Stall) (i : Fin 4096) : ¬ FaultAt (.stall st) (Reg.rtExc st i).addr := by
  rintro (e | e | ⟨n, e⟩) <;> simp only [Reg.addr, Reg.off, Reg.block, blockBase] at e <;> omega

/-- The input VC of a port as a source. -/
theorem srcPort_spec (v : VC) : srcPort p v.val < 1024 ∧ portOf (srcPort p v.val / 16) = p ∧ srcPort p v.val % 16 = v.val := by
  unfold srcPort
  refine ⟨by omega, Fin.ext ?_, by omega⟩
  show (16 * p.val + v.val) / 16 % 64 = p.val
  omega

theorem srcFlits_port (v : VC) : s.srcFlits (srcPort p v.val) = tGet [] (s.port p).ibuf v.val := by
  obtain ⟨hk, hq, hm⟩ := srcPort_spec p v
  rw [State.srcFlits, if_pos hk, hq, hm]

theorem takeSrc_port (v : VC) (n : Nat) : ∃ f : PortSt → PortSt, s.takeSrc (srcPort p v.val) n = s.modPort p f ∧
    tGet [] (f (s.port p)).ibuf v.val = (tGet [] (s.port p).ibuf v.val).drop n := by
  obtain ⟨hk, hq, hm⟩ := srcPort_spec p v
  rw [State.takeSrc, if_pos hk, hq, hm]
  exact ⟨_, rfl, tGet_tMod_same ..⟩

theorem beaconReceive_spec {h : BitVec 512} (hh : s.bypassHead p 1 = some h) : ∃ t, doBeaconReceive p s = t ∧
    (t.port p).loads = some (s.clk, BitVec.ofNat 64 (fld h 367 304)) ∧
    t.srcFlits (srcPort p 0) = (s.srcFlits (srcPort p 0)).tail ∧ s.Alters t [.ports] NoReg := by
  obtain ⟨g, hg, hi⟩ := takeSrc_port s p 0 1
  refine ⟨(s.modPort p g).modPort p (fun x => { x with loads := some (s.clk, BitVec.ofNat 64 (fld h 367 304)) }), ?_, ?_, ?_, ?_⟩
  · unfold doBeaconReceive
    rw [hh, ← hg]
    rfl
  · rw [port_modPort_same]
  · rw [show srcPort p 0 = srcPort p (0 : VC).val from rfl, srcFlits_port, srcFlits_port, port_modPort_same, port_modPort_same,
      ← List.drop_one]
    exact hi
  · exact State.Alters.trans (F := [.ports]) (P := NoReg) (alters_modPort _ _) (alters_modPort _ _)

end

/-! ### What a routing stage does with a header, for ROUTE_HEADER and HEADER_REEVALUATE alike -/

section
variable {s : State} {src : RouteSrc} {vc : VC} {f : Flit} {g : State → State} (hc : s.Calm) (hl : s.live (srcBlock src) = true)
  (hw : s.waitingHead src vc = some f) (hg : g s = s.routeHead src vc f)
include hc hl hg

theorem act_eject (hb : rhBad f.bits vc.val = false) (hd : rhF f.bits 127 112 = s.coord) (hp : s.faPossible (256 * s.coord) = true)
    (hn : rhF f.bits 64 58 ≤ (s.srcFlits (srcKey src vc)).length) : ∃ t, s.act (srcBlock src) g = .next t ∧
    t.eject = s.eject ++ [⟨(s.srcFlits (srcKey src vc)).take (rhF f.bits 64 58), srcPortOf (srcKey src vc)⟩] ∧
    tFind t.worms (srcKey src vc) = none ∧ tFind t.waits (srcKey src vc) = none ∧ t.hbm = s.hbm ∧ t.regs = s.regs := by
  obtain ⟨he, hk⟩ := beginWorm_whole s (srcKey src vc) (rhF f.bits 64 58) hn
  have ha := beginWorm_alters s (srcKey src vc) (rhF f.bits 64 58) .eject
  exact ⟨_, act_of_alters hl hc (hg.trans (routeHead_eject s src vc f hb (routeOf_here s _ _ hd hp))) ha, he, hk,
    beginWorm_waits .., ha.hbm, ha.regs⟩

theorem act_unroutable (hb : rhBad f.bits vc.val = false) (hp : s.faPossible (256 * rhF f.bits 127 112) = false) :
    ∃ t, s.act (srcBlock src) g = .next t ∧
    t.rf (.rtCount (stallOf (srcStall src))) 47 32 = min 0xFFFF (s.rf (.rtCount (stallOf (srcStall src))) 47 32 + 1) ∧
    (s.frozen (.stall (stallOf (srcStall src))) = false → t.rb (.ftStatus (.stall (stallOf (srcStall src)))) 0 = true) ∧
    t.eject = s.eject ∧ tFind t.waits (srcKey src vc) = none ∧ t.hbm = s.hbm := by
  obtain ⟨ha, hn, hf⟩ := bump_note_spec s (stallOf (srcStall src)) 47 32 0x10 (srcUnit src) (by decide)
  obtain ⟨u, hu⟩ : ∃ u, u = (s.bump (.rtCount (stallOf (srcStall src))) 47 32 1).fault (.stall (stallOf (srcStall src))) .note 0x10
    (srcUnit src) := ⟨_, rfl⟩
  have hr := routeHead_unroutable s src vc f hb (routeOf_nowhere s _ _ hp)
  rw [← hu] at ha hn hf hr
  have hb := beginWorm_alters u (srcKey src vc) (rhF f.bits 64 58) .drop
  exact ⟨_, act_of_alters hl hc (hg.trans hr) ((ha.any.mono (by decide)).trans (hb.any.mono (F := wormFields) (G := faultFields ++ wormFields)
    (by decide))), (hb.rf id 47 32).trans hn, fun h => (hb.rb id 0).trans (hf h),
    (beginWorm_drop u _ _).trans ha.eject, beginWorm_waits .., hb.hbm.trans ha.hbm⟩

include hw in
theorem act_commit {c : Cand} {h1 : BitVec 512} (hb : rhBad f.bits vc.val = false)
    (hr : s.routeOf (srcStall src) f.bits = (false, f.bits, .go c h1)) (hx : s.beaten (srcKey src vc) c = false) :
    ∃ t, s.act (srcBlock src) g = .next t ∧ s.Commits t (srcKey src vc) c f h1 := by
  obtain ⟨-, fs, hf⟩ := waitingHead_spec s hw
  have ht := commit_commits s (srcKey src vc) c h1 hf
  exact ⟨_, act_of_alters hl hc (hg.trans (routeHead_go s src vc f hb hr hx)) ht.same, ht⟩

end

theorem act_bad {s : State} {p : Port} {vc : VC} {f : Flit} {g : State → State} (hc : s.Calm) (hl : s.live (.port p) = true)
    (hg : g s = s.routeHead (.port p) vc f) (hb : rhBad f.bits vc.val = true) (h0 : s.portState p ≠ 0) (h6 : s.portState p ≠ 6)
    (hr : s.rb (.llCtrl (.port p)) 2 = false) : ∃ t, s.act (.port p) g = .next t ∧
    t.rf (.rtCount (stallOfPort p)) 31 16 = min 0xFFFF (s.rf (.rtCount (stallOfPort p)) 31 16 + 1) ∧ t.portState p = 6 ∧
    t.rb (.llStatus (.port p)) 7 = true ∧ tGet [] (t.port p).ibuf vc.val = [] ∧ tFind t.waits (srcPort p vc.val) = none ∧
    t.hbm = s.hbm := by
  obtain ⟨t, ht, ha, h1, h2, h3, h4, h5⟩ := badHeader_spec s p vc h0 h6 hr
  exact ⟨t, act_of_alters hl hc (hg.trans ((routeHead_bad s vc f p hb).trans ht)) ha, h1, h2, h3, h4, h5, ha.hbm⟩

/-- Settles O22. -/
theorem routingStagesBeaconsAndExceptions : Obligations.RoutingStagesBeaconsAndExceptions := by
  unfold Obligations.RoutingStagesBeaconsAndExceptions
  refine ⟨?_, ?_, ?_, ?_, ?_, ?_, ?_, ?_, ?_, ?_, ?_, ?_, ?_, ?_, ?_⟩
  · intro s src vc f hc hl hw hk hb hd hp hn
    obtain ⟨t, ht, h1, h2, -, h3, h4⟩ := act_eject hc hl (doRouteHeader_eq s src vc f hw hk) hb hd hp hn
    exact ⟨t, ht, h1, h2, h3, h4⟩
  · intro s src vc f hc hl hw hk hb hp
    obtain ⟨t, ht, h1, h2, h3, -, h4⟩ := act_unroutable hc hl (doRouteHeader_eq s src vc f hw hk) hb hp
    exact ⟨t, ht, h1, h2, h3, h4⟩
  · intro s src vc f c h1 hc hl hw hk hb hr hx
    obtain ⟨t, ht, h⟩ := act_commit hc hl hw (doRouteHeader_eq s src vc f hw hk) hb hr hx
    exact ⟨t, ht, h.out, h.worm, h.head, h.same.regs, h.same.hbm⟩
  · intro s src vc f hc hl hw hk hb hr
    refine act_of_alters (F := [.waits]) (P := NoReg) hl hc ?_ (.put_waits _ _)
    rw [doRouteHeader_eq s src vc f hw hk, routeHead_wait s src vc f hb hr, hk]
    rfl
  · intro s p vc f hc hl hw hk hb h0 h6 hr
    obtain ⟨t, ht, h1, h2, h3, h4, -, h5⟩ := act_bad hc hl (doRouteHeader_eq s (.port p) vc f hw hk) hb h0 h6 hr
    exact ⟨t, ht, h1, h2, h3, h4, h5⟩
  · intro s src vc f t0 hc hl hw hk hb hd hp hn
    obtain ⟨t, ht, h1, -, h2, h3, h4⟩ := act_eject hc hl (doHeaderReevaluate_eq s src vc f hw hk) hb hd hp hn
    exact ⟨t, ht, h1, h2, h4, h3⟩
  · intro s src vc f t0 hc hl hw hk hb hp
    exact act_unroutable hc hl (doHeaderReevaluate_eq s src vc f hw hk) hb hp
  · intro s src vc f c h1 t0 hc hl hw hk hb hr hx
    obtain ⟨t, ht, h⟩ := act_commit hc hl hw (doHeaderReevaluate_eq s src vc f hw hk) hb hr hx
    exact ⟨t, ht, h.out, h.worm, h.head, h.same.regs, h.waits, h.same.hbm⟩
  · intro s src vc f t0 hc hl hw hk hb hr
    refine act_unchanged hc ?_
    rw [doHeaderReevaluate_eq s src vc f hw hk, routeHead_wait s src vc f hb hr, hk]
    rfl
  · intro s p vc f t0 hc hl hw hk hb h0 h6 hr
    exact act_bad hc hl (doHeaderReevaluate_eq s (.port p) vc f hw hk) hb h0 h6 hr
  · intro s p dt hl h3 hd h2
    have ht : doBeaconSend p (s.elapse dt) = (s.elapse dt).modPort p
        (fun x => { x with beaconAt := (s.elapse dt).clk, txBypass := x.txBypass ++ [false] }) := by
      unfold doBeaconSend
      exact if_pos ⟨h3, hd, h2⟩
    refine ⟨_, (quiet_of_live _ _ _ hl).trans (congrArg _ ht), ?_, ?_, rfl⟩ <;> rw [port_modPort_same]
  · intro s p h hl hh
    obtain ⟨t, ht, h1, h2, h3⟩ := beaconReceive_spec s p hh
    exact ⟨t, (quiet_of_live _ _ _ hl).trans (congrArg _ ht), h1, h2, (h3.mono (by decide)).eq_portRegs.trans (by rw [h3.regs])⟩
  · intro s p dt t0 w hl hx hd
    have ht : doBeaconExpiry p (s.elapse dt) = (s.elapse dt).modPort p (fun x => { x with loads := none }) := by
      unfold doBeaconExpiry
      rw [hx]
      exact if_pos hd
    refine ⟨_, (quiet_of_live _ _ _ hl).trans (congrArg _ ht), ?_, ?_, rfl⟩ <;> rw [port_modPort_same]
  · intro s st i v hl hn ho hf hp
    exact ⟨_, (quiet_of_live _ _ (fun t => t.regWrite .warden (.rtExc st i) v) hl).trans (congrArg _ (excWrite_spec s st i v hn ho hf hp)), reg_setReg_same ..,
      fun q hq => reg_setReg_other _ _ _ _ hq, rfl⟩
  · intro s st i v b hl hn hd
    have ha := fault_alters s (.stall st) .note 1 0
    refine ⟨_, (quiet_of_live _ _ (fun t => t.regWrite .warden (.rtExc st i) v) hl).trans (congrArg _ (excWrite_locked s st i v hn)), ha.reg _ (not_faultAt_rtExc st i),
      fault_status _ _ .note _ _ ?_, ha.hbm⟩
    simp [State.frozen, hd]

end Sys2Proof.Machine
end

section
/-! PROOFS. HostLinkPacketsAreTaken (R65 to R67, R86, R94 to R96, R107): the packets of a host link. -/

namespace Sys2Proof.Machine

-- The proofs are elaborated one after another: in parallel their threads' stacks need more memory than a compile may have.
set_option Elab.async false

/-! ### The bytes of a link packet (R94) -/

theorem ofBe_beBytes (n v : Nat) : ofBe (beBytes n v) = v % 256 ^ n := by
  induction n generalizing v with
  | zero => rw [Nat.pow_zero, Nat.mod_one]; rfl
  | succ n ih =>
    have h : beBytes (n + 1) v = beBytes n (v / 256) ++ [BitVec.ofNat 8 v] := by
      rw [beBytes, leBytes, List.reverse_cons]
      rfl
    rw [h, ofBe_append_singleton, ih, BitVec.toNat_ofNat]
    show 256 * (v / 256 % 256 ^ n) + v % 256 = _
    rw [Nat.pow_succ', Nat.mod_mul, Nat.add_comm]

/-- The bytes of a CREDIT packet: its header, its body, and the CRC over both. -/
theorem creditPacket_eq {b : List Byte} (hb : b.length = 8) :
    linkPacket 0xA 0 b = ([0xA0, 0, 0, 2] ++ b) ++ beBytes 4 (crc32c ([0xA0, 0, 0, 2] ++ b)).toNat := by
  unfold linkPacket
  rw [hb]
  rfl

theorem ofBe_crc (c : BitVec 32) : ofBe (beBytes 4 c.toNat) = c.toNat := by
  rw [ofBe_beBytes]
  exact Nat.mod_eq_of_lt c.isLt

/-! ### Packets delivered by the lanes (R65, R86) -/

section
variable (s : State) (h : HLink)

theorem hostLive_of {s t : State} {h : HLink} (hr : t.hlState h.val = s.hlState h.val) (h1 : (t.hl h).hello = (s.hl h).hello)
    (h2 : (t.hl h).retrain = (s.hl h).retrain) : t.hostLive h = s.hostLive h := by
  rw [State.hostLive, State.hostLive, State.hostHello, State.hostHello, hr, h1, h2]

theorem takePacket_bad (bs : List Byte) (bad : Bool) (hl : s.hostLive h = true)
    (hb : bad = true ∨ (crc32c (bs.take (bs.length - 4))).toNat ≠ ofBe (bs.drop (bs.length - 4))) (hn : (s.hl h).nak = none) :
    s.takePacket h bs bad = (s.bump (.llErrcnt (.host h)) 63 48 1).sendHostNak h := by
  unfold State.takePacket
  extract_lets n
  rw [if_neg (by rw [hl]; decide), if_pos]
  · unfold State.wantHostNak
    rw [if_neg (by rw [hl_bump, hn]; decide)]
  · rcases hb with rfl | hb
    · simp
    · simp [n, hb]

theorem takePacket_credit {b : List Byte} (hb : b.length = 8) (hl : s.hostLive h = true) :
    s.takePacket h (linkPacket 0xA 0 b) false = s.modHl h (fun x => x.applyCredit (BitVec.ofNat 64 (ofBe b))) := by
  obtain ⟨hd, hhd⟩ : ∃ hd : List Byte, hd = [0xA0, 0, 0, 2] := ⟨_, rfl⟩
  have hlen : hd.length = 4 := by rw [hhd]; rfl
  obtain ⟨c, hc⟩ : ∃ c : BitVec 32, c = crc32c (hd ++ b) := ⟨_, rfl⟩
  have hp : linkPacket 0xA 0 b = (hd ++ b) ++ beBytes 4 c.toNat := by rw [creditPacket_eq hb, hc, hhd]
  have hl12 : (hd ++ b).length = 12 := by rw [List.length_append, hlen, hb]
  rw [hp]
  unfold State.takePacket
  extract_lets n
  have hn : n = 12 := by
    show ((hd ++ b) ++ beBytes 4 c.toNat).length - 4 = 12
    rw [List.length_append, beBytes_length, hl12]
  have ht : ((hd ++ b) ++ beBytes 4 c.toNat).take n = hd ++ b := by rw [hn, ← hl12, List.take_left]
  have hdrop : ((hd ++ b) ++ beBytes 4 c.toNat).drop n = beBytes 4 c.toNat := by rw [hn, ← hl12, List.drop_left]
  rw [if_neg (by rw [hl]; decide), ht, hdrop, ofBe_crc, ← hc, if_neg]
  · have h4 : ((hd ++ b) ++ beBytes 4 c.toNat).take 4 = hd := by rw [List.append_assoc, ← hlen, List.take_left]
    rw [h4, ← hlen, List.drop_left, hhd]
    unfold State.goodPacket
    extract_lets ty
    have hty : ty = 0xA := rfl
    rw [if_neg (by rw [hb]; decide), hty]
    exact rfl
  · simp [beBytes_length, hlen, hb]

/-- A NAK of a host link, sent or owed. -/
theorem sendHostNak_naks : s.Alters (s.sendHostNak h) [.regs, .hll, .lanes, .out] (ErrcntAt (.host h)) ∧
    ((s.sendHostNak h).hl h).nak = some s.clk ∧ ((s.sendHostNak h).hl h).lastAcc = (s.hl h).lastAcc ∧
    (s.sendHostNak h).rf (.llErrcnt (.host h)) 63 48 = s.rf (.llErrcnt (.host h)) 63 48 := by
  obtain ⟨u, hu⟩ : ∃ u, u = s.modHl h (fun x => { x with nak := some s.clk }) := ⟨_, rfl⟩
  have hlu : u.hl h = { s.hl h with nak := some s.clk } := hu ▸ hl_modHl_same ..
  have hsu : s.Alters u [.regs, .hll, .lanes, .out] (ErrcntAt (.host h)) := hu ▸ alters_modHl _ _
  have hru : u.rf (.llErrcnt (.host h)) 63 48 = s.rf (.llErrcnt (.host h)) 63 48 := hu ▸ rfl
  have ht : s.sendHostNak h = if u.hostMaySend h then
      (u.sendPacket h 9 0 (beBytes 8 ((u.hl h).lastAcc * 2 ^ 48))).bump (.llErrcnt (.host h)) 31 16 1 else u := by
    rw [hu]
    rfl
  rw [ht]
  split
  · have hs := sendPacket_talks u h 9 0 (beBytes 8 ((u.hl h).lastAcc * 2 ^ 48))
    have hk := sendPacket_talked u h 9 0 (beBytes 8 ((u.hl h).lastAcc * 2 ^ 48))
    refine ⟨(hsu.trans (hs.same.mono (by decide) fun _ => False.elim)).trans (alters_bump _ _ _ rfl), ?_, ?_, ?_⟩
    · rw [hl_bump, hk, hlu]
    · rw [hl_bump, hk, hlu]
    · rw [rf_bump_other _ _ _ _ _ _ _ (by decide) (by decide), hs.same.rf id, hru]
  · exact ⟨hsu, by rw [hlu], by rw [hlu], hru⟩

/-- A packet that is discarded counts and is answered by a NAK. -/
theorem takePacket_bad_spec (bs : List Byte) (bad : Bool) (hl : s.hostLive h = true)
    (hb : bad = true ∨ (crc32c (bs.take (bs.length - 4))).toNat ≠ ofBe (bs.drop (bs.length - 4))) (hn : (s.hl h).nak = none) :
    ∃ t, s.takePacket h bs bad = t ∧ s.Alters t [.regs, .hll, .lanes, .out] (ErrcntAt (.host h)) ∧ (t.hl h).nak = some s.clk ∧
    (t.hl h).lastAcc = (s.hl h).lastAcc ∧
    t.rf (.llErrcnt (.host h)) 63 48 = min 0xFFFF (s.rf (.llErrcnt (.host h)) 63 48 + 1) := by
  obtain ⟨u, hu⟩ : ∃ u, u = s.bump (.llErrcnt (.host h)) 63 48 1 := ⟨_, rfl⟩
  have hsu : s.Alters u [.regs, .hll, .lanes, .out] (ErrcntAt (.host h)) := hu ▸ alters_bump _ _ _ rfl
  obtain ⟨ha, h1, h2, h3⟩ := sendHostNak_naks u h
  refine ⟨_, (takePacket_bad s h bs bad hl hb hn).trans (by rw [hu]), hsu.trans ha, h1.trans (by rw [hsu.clk]), h2.trans ?_, ?_⟩
  · rw [hu, hl_bump]
  · rw [h3, hu, rf_bump_same _ _ _ _ _ (by decide), min_comm]
    norm_num

/-! ### Timers (R96, R107) -/

@[simp] theorem out_modHl (f : HostLl → HostLl) : (s.modHl h f).out = s.out := rfl

theorem sendHostAck_spec : ∃ t, s.sendHostAck h = t ∧ s.Alters t [.lanes, .out, .hll] NoReg ∧
    sentPackets t.out = (h, linkPacket 8 0 (beBytes 8 ((s.hl h).lastAcc * 2 ^ 48))) :: sentPackets s.out ∧
    (t.hl h).ackDue = false ∧ (t.hl h).ackCnt = 0 := by
  obtain ⟨body, hb⟩ : ∃ body, body = beBytes 8 ((s.hl h).lastAcc * 2 ^ 48) := ⟨_, rfl⟩
  obtain ⟨hp, -⟩ := putPacket_spec s h 8 0 body
  rw [← hb]
  refine ⟨_, rfl, ?_⟩
  unfold State.sendHostAck
  rw [← hb]
  exact ⟨hp.same.trans (alters_modHl _ _), by rw [out_modHl, hp.packets]; rfl, by rw [hl_modHl_same], by rw [hl_modHl_same]⟩

theorem sendCredit_spec (hs : (s.hl h).sinceAck < 65535) : ∃ t body, s.sendCredit h = t ∧ s.Alters t [.lanes, .out, .hll] NoReg ∧
    sentPackets t.out = (h, linkPacket 0xA 0 body) :: sentPackets s.out ∧ (t.hl h).credDue = false ∧ (t.hl h).credAt = s.clk ∧
    (t.hl h).freed = (s.hl h).freed := by
  unfold State.sendCredit
  extract_lets f w
  obtain ⟨body, hb⟩ : ∃ body, body = beBytes 8 w.toNat := ⟨_, rfl⟩
  have hp := sendPacket_sends s h 0xA 0 body hs
  obtain ⟨u, hu⟩ : ∃ u, u = s.sendPacket h 0xA 0 body := ⟨_, rfl⟩
  rw [← hu] at hp
  rw [← hb, ← hu]
  have hf : (u.hl h).freed = (s.hl h).freed := by rw [hp.link]
  exact ⟨_, body, rfl, hp.same.trans (alters_modHl _ _), by rw [out_modHl, hp.packets]; rfl, by rw [hl_modHl_same], by rw [hl_modHl_same],
    by rw [hl_modHl_same]; exact hf⟩

theorem hostIdle_spec (h5 : s.rb (.llCtrl (.host h)) 5 = true) (h3 : s.hlState h.val = 3) (hi : (s.hl h).txIdle = false)
    (hq : s.hostQuiet h = true) (hd : (s.hl h).quietAt + us (s.rf (.llTimers (.host h)) 31 20) < s.clk)
    (hs : (s.hl h).sinceAck < 65535) : ∃ t, s.hostIdle h = t ∧ s.Alters t [.lanes, .out, .hll] NoReg ∧ (t.hl h).txIdle = true ∧
    sentPackets t.out = (h, linkPacket 0xC 0 [1, 0, 0, 0, 0, 0, 0, 0]) :: sentPackets s.out := by
  have hp := sendPacket_sends s h 0xC 0 (beBytes 8 (1 * 2 ^ 56)) hs
  refine ⟨(s.sendNotice h 1).modHl h (fun x => { x with txIdle := true }), if_pos ⟨h5, h3, hi, hq, hd⟩,
    hp.same.trans (alters_modHl _ _), by rw [hl_modHl_same], by rw [out_modHl]; exact hp.packets⟩

end

/-- The notice of a port ends with an IDLE frame that announces what follows (R84). -/
theorem sendPortNotice_last (s : State) (p : Port) (k next : Nat) : ∃ new, s.PortSends (s.sendPortNotice k p next) p new ∧
    ∃ (x : PortSt) (old : _), new = (p, x.trailer 0 next 0 x.next [], []) :: old := by
  induction k generalizing s with
  | zero => exact ⟨_, sendIdle_sends s p next, s.port p, [], rfl⟩
  | succ k ih =>
    unfold State.sendPortNotice
    extract_lets x
    split
    · exact ⟨_, sendIdle_sends s p next, s.port p, [], rfl⟩
    · obtain ⟨new, h, y, old, he⟩ := ih (s.sendIdle p 0)
      exact ⟨_, (sendIdle_sends s p 0).trans h, y, _, by rw [he, List.cons_append]⟩

theorem trailer_next (x : PortSt) (kind next vc seq : Nat) (fl : List (BitVec 512)) :
    fld (x.trailer kind next vc seq fl) 121 118 = next % 16 := by
  unfold PortSt.trailer
  simp only [mkWord, List.foldl_cons, List.foldl_nil]
  repeat rw [fld_setFld_other _ _ _ _ _ _ (by decide) (by decide)]
  rw [fld_setFld_same _ _ _ _ (by decide)]
  norm_num

theorem portIdle_spec (s : State) (p : Port) (h5 : s.rb (.llCtrl (.port p)) 5 = true) (h3 : s.portState p = 3 ∨ s.portState p = 5)
    (hi : (s.port p).txIdle = false) (hq : s.portQuiet p = true)
    (hd : (s.port p).quietAt + us (s.rf (.llTimers (.port p)) 31 20) < s.clk) : ∃ t, s.portIdle p = t ∧
    s.Alters t [.lanes, .out, .ports] NoReg ∧ (t.port p).txIdle = true ∧ t.portState p = s.portState p ∧
    (sentFrames t.out).head?.map (fun e => (e.1, fld e.2.1 127 126, fld e.2.1 121 118, e.2.2)) = some (p, 0, 14, []) := by
  obtain ⟨new, hs, x, old, he⟩ := sendPortNotice_last s p 160 14
  have ha : s.Alters ((s.sendPortNotice 160 p 14).modPort p (fun x => { x with txIdle := true })) [.lanes, .out, .ports] NoReg :=
    hs.same.trans (alters_modPort _ _)
  refine ⟨_, if_pos ⟨h5, h3, hi, hq, hd⟩, ha, by rw [port_modPort_same], ha.rf id 3 0, ?_⟩
  have hf : sentFrames ((s.sendPortNotice 160 p 14).modPort p (fun x => { x with txIdle := true })).out = new ++ sentFrames s.out := hs.frames
  rw [hf, he, List.cons_append, List.head?_cons, Option.map_some, trailer_kind, trailer_next]

end Sys2Proof.Machine
end

section
/-! PROOFS. HostLinkPacketsAreTaken: packets that come as code groups (R65 to R67). -/

namespace Sys2Proof.Machine

-- The proofs are elaborated one after another: in parallel their threads' stacks need more memory than a compile may have.
set_option Elab.async false

/-! ### Code groups of one lane (R65, R66) -/

/-- A character that comes through a lane: R66 lists it, and its code group gives it back. -/
structure Char8.Coded (c : Char8) : Prop where
  ok : charOk c = true
  decoded : ∀ rd, decode10 rd (encode10 rd c).1 = (some c, (encode10 rd c).2)

theorem data_coded (b : Byte) : Char8.Coded ⟨false, b⟩ := by
  have h : ∀ rd : Bool, ∀ b : Byte,
      decode10 rd (encode10 rd ⟨false, b⟩).1 = (some ⟨false, b⟩, (encode10 rd ⟨false, b⟩).2) := by
    decide +kernel
  exact ⟨rfl, fun rd => h rd b⟩

theorem start_coded : k27_7.Coded := ⟨by decide, by decide +kernel⟩
theorem stop_coded : k29_7.Coded := ⟨by decide, by decide +kernel⟩

theorem decodeLane_encodeLane {cs : List Char8} (h : ∀ c ∈ cs, c.Coded) (rd : Bool) :
    decodeLane rd (encodeLane rd cs).1 = (cs.map some, (encodeLane rd cs).2) := by
  induction cs generalizing rd with
  | nil => rfl
  | cons c cs ih =>
    obtain ⟨hc, hcs⟩ := List.forall_mem_cons.mp h
    simp only [encodeLane, decodeLane, hc.decoded, ih hcs, List.map_cons]

/-- The characters of a packet on one lane (R67). -/
def packetChars (bytes : List Byte) : List Char8 := k27_7 :: bytes.map (fun b => ⟨false, b⟩) ++ [k29_7]

theorem packetChars_coded (bytes : List Byte) : ∀ c ∈ packetChars bytes, c.Coded := by
  simp only [packetChars, List.cons_append, List.mem_cons, List.mem_append, List.mem_map, List.not_mem_nil, or_false]
  rintro c (rfl | ⟨b, -, rfl⟩ | rfl)
  · exact start_coded
  · exact data_coded b
  · exact stop_coded

theorem rowsOf_one (cs : List Char8) : rowsOf 1 cs.length cs = cs.map (fun c => [c]) := by
  induction cs with
  | nil => rfl
  | cons c cs ih =>
    rw [List.length_cons, rowsOf, if_neg (List.cons_ne_nil c cs), List.drop_one, List.tail_cons, ih]
    simp

theorem packetRows_one (bytes : List Byte) : (packetRows 1 bytes).map (fun r => r.headD k28_5) = packetChars bytes := by
  unfold packetRows
  extract_lets cs
  rw [rowsOf_one, List.map_map]
  exact List.map_id _

section
variable (s : State) (n : LaneId)

/-- A lane in service that does not loop back gives the characters that were sent. -/
theorem takeGroups_coded {cs : List Char8} (h : ∀ c ∈ cs, c.Coded) (ho : s.laneOn n = true) (hl : s.rf (.laneCtrl n) 9 7 = 0)
    (hp : s.rb (.laneStatus n) 14 = false) : s.takeGroups n (encodeLane (s.lane n).rxRd cs).1 =
      (cs.map some, s.modLane n (fun x => { x with rxRd := (encodeLane (s.lane n).rxRd cs).2 })) := by
  unfold State.takeGroups
  extract_lets loop o u bad v
  have hloop : loop = 0 := hl
  have hod : o = (cs.map some, (encodeLane (s.lane n).rxRd cs).2) := by
    show decodeLane _ (if s.rb (.laneStatus n) 14 = true then _ else _) = _
    rw [hp, if_neg (by decide), decodeLane_encodeLane h]
  have hbad : o.1.filter bad = [] := by
    rw [hod, List.filter_eq_nil_iff]
    simp only [List.mem_map]
    rintro _ ⟨c, hc, rfl⟩
    show ¬ (!charOk c) = true
    rw [(h c hc).ok]
    decide
  have hv : v = s.modLane n (fun x => { x with rxRd := (encodeLane (s.lane n).rxRd cs).2 }) := by
    show u.noteErrors n (o.1.filter bad).length = _
    rw [hbad]
    show s.modLane n (fun x => { x with rxRd := o.2 }) = _
    rw [hod]
  rw [if_neg (by rw [ho, nearLoop_of_loop hl (by decide)]; decide), hloop, if_neg (by decide), if_neg (by decide), hv, hod]
  refine Prod.ext ?_ rfl
  show (cs.map some).map _ = cs.map some
  rw [List.map_map]
  refine List.map_congr_left fun c hc => ?_
  show (if charOk c then some c else _) = some c
  rw [if_pos (h c hc).ok]

end

/-! ### A packet among the characters (R67) -/

section
variable (s : State) (h : HLink)

/-- The bytes of a packet are collected, and its end delivers it. -/
theorem takeChars_bytes (bytes acc : List Byte) (hx : (s.hl h).rxPkt = some (acc, false)) : ∃ t, s.Alters t [.hll] NoReg ∧
    t.hl h = { s.hl h with rxPkt := none } ∧
    State.takeChars ((bytes.map (fun b => (⟨false, b⟩ : Char8)) ++ [k29_7]).map some) s h = t.takePacket h (acc ++ bytes) false := by
  induction bytes generalizing s acc with
  | nil =>
    refine ⟨s.modHl h (fun y => { y with rxPkt := none }), alters_modHl _ _, hl_modHl_same .., ?_⟩
    simp only [List.map_nil, List.nil_append, List.map_cons, State.takeChars, hx, List.append_nil]
    rfl
  | cons b bs ih =>
    obtain ⟨u, hu⟩ : ∃ u, u = s.modHl h (fun y => { y with rxPkt := some (acc ++ [b], false) }) := ⟨_, rfl⟩
    have hul : u.hl h = { s.hl h with rxPkt := some (acc ++ [b], false) } := hu ▸ hl_modHl_same ..
    have hsu : s.Alters u [.hll] NoReg := hu ▸ alters_modHl _ _
    obtain ⟨t, ht, h1, h2⟩ := ih u (acc ++ [b]) (by rw [hul])
    refine ⟨t, hsu.trans ht, by rw [h1, hul], ?_⟩
    rw [List.append_assoc, List.singleton_append] at h2
    rw [← h2, hu]
    simp only [List.map_cons, List.cons_append, State.takeChars, hx]
    rfl

theorem takeChars_packet (bytes : List Byte) (hx : (s.hl h).rxPkt = none) : ∃ t, s.Alters t [.hll] NoReg ∧ t.hl h = s.hl h ∧
    State.takeChars ((packetChars bytes).map some) s h = t.takePacket h bytes false := by
  obtain ⟨u, hu⟩ : ∃ u, u = s.modHl h (fun y => { y with rxPkt := some ([], false) }) := ⟨_, rfl⟩
  have hul : u.hl h = { s.hl h with rxPkt := some ([], false) } := hu ▸ hl_modHl_same ..
  have hsu : s.Alters u [.hll] NoReg := hu ▸ alters_modHl _ _
  obtain ⟨t, ht, h1, h2⟩ := takeChars_bytes u h bytes [] (by rw [hul])
  refine ⟨t, hsu.trans ht, ?_, ?_⟩
  · rw [h1, hul, ← hx]
  · rw [List.nil_append] at h2
    rw [← h2, hu]
    simp only [packetChars, List.map_cons, List.cons_append, State.takeChars, hx]
    rfl

theorem columns_of_one {α : Type} (c : List α) :
    (List.range c.length).flatMap (fun i => [c].filterMap (fun c => (c.drop i).head?)) = c := by
  induction c with
  | nil => rfl
  | cons a c ih =>
    rw [List.length_cons, List.range_succ_eq_map, List.flatMap_cons, List.flatMap_map]
    exact congrArg (a :: ·) ih

theorem packetChars_no_idle (bytes : List Byte) : ((packetChars bytes).map some).contains (some k28_0) = false := by
  rw [Bool.eq_false_iff, ne_eq, List.contains_iff_mem, List.mem_map]
  rintro ⟨c, hc, e⟩
  cases e
  simp only [packetChars, List.cons_append, List.mem_cons, List.mem_append, List.mem_map, List.not_mem_nil, or_false] at hc
  rcases hc with e | ⟨b, -, e⟩ | e
  · exact absurd e (by decide)
  · cases congrArg Char8.k e
  · exact absurd e (by decide)

theorem packetChars_deskewed (bytes : List Byte) :
    ((packetChars bytes).map some).dropWhile (fun c => c = some k28_5) = (packetChars bytes).map some := by
  rw [packetChars, List.cons_append, List.map_cons, List.dropWhile_cons_of_neg (by decide)]

/-- A lane of logical number 0 in its own polarity. -/
theorem lane_plain {n : LaneId} (h : s.rf (.laneStatus n) 19 14 = 0) :
    s.rb (.laneStatus n) 14 = false ∧ s.rf (.laneStatus n) 19 16 = 0 := by
  simp only [State.rf, State.rb, fld, bit, BitVec.getLsbD, Nat.testBit_eq_decide_div_mod_eq] at h ⊢
  constructor
  · rw [decide_eq_false_iff_not]
    omega
  · omega

/-- Code groups that carry a packet on the one lane in use are taken as the packet that they spell. -/
theorem takeLine_packet (l : Fin 16) (bytes : List Byte) (hlive : s.hostLive h = true) (ho : s.laneOn (.host h l) = true)
    (hc : s.rf (.laneCtrl (.host h l)) 9 7 = 0) (h2 : s.laneState (.host h l) = 2)
    (h0 : s.rf (.laneStatus (.host h l)) 19 14 = 0) (hi : (s.lane (.host h l)).rxIdle = false) (hu : (s.hl h).use = [l.val])
    (hx : (s.hl h).rxPkt = none) : ∃ t, s.Alters t [.hll, .lanes] NoReg ∧ t.hl h = s.hl h ∧
    s.takeLine h [(l, (encodeLane (s.lane (.host h l)).rxRd ((packetRows 1 bytes).map (fun r => r.headD k28_5))).1)] =
      t.takePacket h bytes false := by
  rw [packetRows_one]
  obtain ⟨hp, h16⟩ := lane_plain s h0
  obtain ⟨cs, hcs⟩ : ∃ cs, cs = packetChars bytes := ⟨_, rfl⟩
  obtain ⟨u, huu⟩ : ∃ u, u = s.modLane (.host h l) (fun x => { x with rxRd := (encodeLane (s.lane (.host h l)).rxRd cs).2 }) := ⟨_, rfl⟩
  have hg := takeGroups_coded s (.host h l) (hcs ▸ packetChars_coded bytes) ho hc hp
  have hsu : s.Alters u [.hll, .lanes] NoReg := huu ▸ alters_modLane _ _
  have hul : u.hl h = s.hl h := hl_of_hll (huu ▸ rfl) h
  rw [← huu] at hg
  obtain ⟨t, ht, hth, hte⟩ := takeChars_packet u h bytes (by rw [hul]; exact hx)
  refine ⟨t, hsu.trans (ht.mono (by decide) fun _ => id), hth.trans hul, ?_⟩
  rw [← hcs] at hte ⊢
  unfold State.takeLine
  extract_lets one r v w taken cols rows chars y z
  have hr : r = ([(0, .host h l, cs.map some)], u) := by
    have hd : (cs.map some).dropWhile (fun c => c = some k28_5) = cs.map some := hcs ▸ packetChars_deskewed bytes
    show one ([], s) (l, (encodeLane (s.lane (.host h l)).rxRd cs).1) = _
    simp only [one, hg, h2, hi, h16, hd]
    rfl
  have hv : v = u := congrArg Prod.snd hr
  have hw : w = 1 := by
    show (v.hl h).use.length = 1
    rw [hv, hul, hu]
    rfl
  have hcols : cols = [cs.map some] := by
    show (((List.range 16).flatMap (fun k => r.1.filter (fun e => e.1 = k))).take w).map (fun e => e.2.2) = _
    rw [hr, hw]
    rfl
  have hchars : chars = cs.map some := by
    have hrows : rows = (cs.map some).length := by
      show (cols.map List.length).foldl max 0 = _
      rw [hcols]
      exact Nat.zero_max _
    show (List.range rows).flatMap (fun i => cols.filterMap (fun c => (c.drop i).head?)) = _
    rw [hrows, hcols]
    exact columns_of_one _
  have hul' : u.hostLive h = true := (hostLive_of (hsu.rf id 3 0) (by rw [hul]) (by rw [hul])).trans hlive
  have hy : y = t.takePacket h bytes false := by
    show (if v.hostLive h then State.takeChars chars v h else v) = _
    rw [hv, if_pos hul', hchars, hte]
  have hidle : (cols.all fun c => c.contains (some k28_0)) = false := by
    rw [hcols, hcs, List.all_cons, packetChars_no_idle, Bool.false_and]
  rw [if_neg (by rw [hw, hcols]; simp), if_neg (by rw [hidle]; decide), hy]

end

theorem addr_llErrcnt (l : LinkId) : (Reg.llErrcnt l).addr = blockBase (linkBlock l) + linkBase l + 0x20 := rfl

/-- Settles O21. -/
theorem hostLinkPacketsAreTaken : Obligations.HostLinkPacketsAreTaken := by
  unfold Obligations.HostLinkPacketsAreTaken
  refine ⟨?_, ?_, ?_, ?_, ?_, ?_, ?_, ?_⟩
  · intro s h bs hc hl hlive h8 hcrc hn
    obtain ⟨t, ht, ha, h1, h2, h3⟩ := takePacket_bad_spec s h bs false hlive (.inr hcrc) hn
    have hd : doHostLinkPacket h (.packet bs []) s = t := by
      unfold doHostLinkPacket
      simp only [hlive, Bool.not_true, Bool.false_eq_true, if_false]
      exact ht
    exact ⟨t, act_of_alters hl hc hd ha, h1, h2, h3, ha.eq_hostSent⟩
  · intro s h bs l hc hl hlive hn
    obtain ⟨u, hu⟩ : ∃ u, u = s.noteErrors (.host h l) 1 := ⟨_, rfl⟩
    have hsu : s.Alters u errorFields (ErrorsAt (.host h l)) := hu ▸ noteErrors_alters ..
    have hul : u.hl h = s.hl h := hl_of_hll hsu.hll h
    have hst : ¬ ErrorsAt (.host h l) (Reg.llStatus (.host h)).addr := fun e =>
      e.elim (not_laneAt_link _ (.host h) 8 (addr_llStatus _)) (not_faultAt_link _ (.host h) 8 (addr_llStatus _))
    have hulive : u.hostLive h = true :=
      (hostLive_of (by rw [hlState_val, hlState_val]; exact hsu.rf hst 3 0) (by rw [hul]) (by rw [hul])).trans hlive
    obtain ⟨t, ht, ha, h1, h2, h3⟩ := takePacket_bad_spec u h bs true hulive (.inl rfl) (by rw [hul]; exact hn)
    have hd : doHostLinkPacket h (.packet bs [l]) s = t := by
      unfold doHostLinkPacket
      simp only [hlive, Bool.not_true, Bool.false_eq_true, if_false]
      rw [← ht, hu]
      rfl
    refine ⟨t, act_of_alters (F := [.hll, .out] ++ errorFields) (P := AnyReg) hl hc hd ((hsu.any.mono (by decide)).trans (ha.any.mono (by decide))),
      h1.trans (by rw [hsu.clk]), h2.trans (by rw [hul]), ?_, ha.hbm.trans hsu.hbm⟩
    have herr : ¬ ErrcntAt (.host h) (Reg.laneLineerr (.host h l)).addr := fun e =>
      absurd (e ▸ at_laneLineerr (.host h l)) (not_laneAt_link (.host h l) (.host h) 0x20 (addr_llErrcnt _))
    rw [ha.rf herr, hu]
    exact rf_noteErrors_count s _ 1
  · intro s h l b hc hl hlive ho hctrl h2 h0 hi hu hx hb
    obtain ⟨u, hsu, hul, ht⟩ := takeLine_packet s h l (linkPacket 0xA 0 b) hlive ho hctrl h2 h0 hi hu hx
    rw [takePacket_credit u h hb ((hostLive_of (hsu.rf id 3 0) (by rw [hul]) (by rw [hul])).trans hlive)] at ht
    have ha : s.Alters (u.modHl h (fun x => x.applyCredit (BitVec.ofNat 64 (ofBe b)))) [.hll, .lanes] NoReg := hsu.trans (alters_modHl _ _)
    exact ⟨_, act_of_alters hl hc ht ha, by rw [hl_modHl_same, hul],
      (ha.mono (by decide)).eq_hostSent.trans (by rw [ha.regs, ha.out])⟩
  · intro s h b hc hl hlive hb
    have hd : doHostLinkPacket h (.packet (linkPacket 0xA 0 b) []) s = s.modHl h (fun x => x.applyCredit (BitVec.ofNat 64 (ofBe b))) := by
      unfold doHostLinkPacket
      simp only [hlive, Bool.not_true, Bool.false_eq_true, if_false]
      exact takePacket_credit s h hb hlive
    exact ⟨_, act_of_alters hl hc hd (alters_modHl (F := [.hll]) (P := NoReg) _ _), hl_modHl_same .., rfl⟩
  · intro s h dt hc hl hm hd
    obtain ⟨t, ht, ha, h1, h2, h3⟩ := sendHostAck_spec (s.elapse dt) h
    exact ⟨t, act_of_alters hl hc ((if_pos ⟨hm, hd⟩).trans ht) ha, h1, h2, h3, (ha.mono (by decide)).eq_hostSent.trans (by rw [ha.regs])⟩
  · intro s h dt hc hl hm hd hs
    obtain ⟨t, body, ht, ha, h1, h2, h3, h4⟩ := sendCredit_spec (s.elapse dt) h hs
    exact ⟨t, act_of_alters hl hc ((if_pos ⟨hm, hd⟩).trans ht) ha, h2, h3, h4, by rw [h1]; rfl, by rw [h1]; rfl,
      (ha.mono (by decide)).eq_hostSent.trans (by rw [ha.regs])⟩
  · intro s p dt hc hl h5 h3 hi hq hd
    obtain ⟨t, ht, ha, h1, h2, h4⟩ := portIdle_spec (s.elapse dt) p h5 h3 hi hq hd
    exact ⟨t, act_of_alters hl hc ht ha, h1, h2, h4, (ha.mono (by decide)).eq_portSent.trans (by rw [ha.regs])⟩
  · intro s h dt hc hl h5 h3 hi hq hd hs
    obtain ⟨t, ht, ha, h1, h2⟩ := hostIdle_spec (s.elapse dt) h h5 h3 hi hq hd hs
    exact ⟨t, act_of_alters hl hc ht ha, h1, h2, (ha.mono (by decide)).eq_hostSent.trans (by rw [ha.regs])⟩

end Sys2Proof.Machine
end

section
/-! PROOFS. A QOS topcoat for a port one of whose shapers' registers holds a reserved bit (R423, R424). -/

namespace Sys2Proof.Machine

-- The proofs are elaborated one after another: in parallel their threads' stacks need more memory than a compile may have.
set_option Elab.async false

/-- A QOS topcoat of port 5 that sets the shaper of class 3, signed by owner 0. -/
def shaperCoat : List Byte := beBytes 684 0x4e56435401000102050000005164b0000000000000000000ac02000001000000000000000900000000000000000000000000000000000000000000000000000000000000000000000000000000000000000000000000000000000000000000000000000000000000000000000000000000000000000000000000000000000000000000000000000000000000000000000000000000000000000000000000000000000000000000000000000000000000000000000000000000000000000000000000000000000000000000000000000000000000000000000000000000000000000000000000000000000000000000000000000000000000000000000000000001e842f0df187c92384b13b61add1847df376b3a5c3afc09c8f51e3565374f0ae6188e17ca9f8c3e9d0d1e7c29e70bec336d980ee9eda5b3203fbffb7e83bababc01009760730a28dba289dcee1fa3b4d0191840e4ba270ea35800357a89b1655d8dcbbdd288585a0b6459e4de23cee360c29a774f53459a8b3bd2cba0e383d065d796e70000000001a32727125b5900704004ae712ee412d760c612e176c12f4cd801566e92ff18610d031b4ddc308c02208c99d33fab2f0307dd5ddf872eeb5c2d3e53a478f7436de3017f24d4259d3b8c18324e7d61d9f2426e3631c02dad7459215d15c3027000aa5c420afed31e772de5666d44ebb926a0dc432a62a9207b1fa4412d6a48ec7e74b86000000000050000001000000020300520000000000000000000011a86003226aec3ea16a7cf7fbf0281b4c320a516ac51d3242f8be19dbfafd81a899df88f42f047421f2d3899e5a4ff33212f4c94bbecb2f28e133cd2becfa375c502a6000192e34ffe234a4ad536020d63f29c62b53a0e47609f7f21dee7933ce03acc4e6296499911676b067934b1823ada4033cea55480696444a4c9278cf0ad90de267de7

/-- COAT_APPLY. -/
def applyCommand : MbCmd := ⟨0x12, [], [], false⟩

/-- A part in READY whose Warden performs COAT_APPLY of that topcoat, and whose register EG_SHAPE3 of port 5 holds a 1 in its
reserved bit 62. -/
def applyingState : State :=
  let s : State :=
    { State.reset with
      coreOn := true, pins := { resetL := true }, tack := { up := true }, mbox := { run := some applyCommand },
      fuses := { owner0 := some 0xdda18bbb3cb0a55cc9a7b3d978d0412b831c619fe7b0e0970973f271230bba2d, owner1 := some 0x63fd6f70676853db592fc705aa70cf1903c1015d958388758cb333df468bbf3d, vendorRoot := (0x7e6b30057e16b97715d59ed5c1f9e5cd93efbb454aa0a876e3b8d5aa122a27f70dafcfc0d0f734c4b7cd9e6e0b5e43b2b8ea9bb0957991ab50b89347d544a7ceb5, 0x1dbea5982e59fee8fda6cc7689fd237af1b368cce3bb3e874aef120f33b8922998a07266d271e23458a1646a9f6d52961b7d8d3aaee4e9276a445573560a9b65b32) },
      flash := { stage := shaperCoat.zipIdx.map (fun e => (e.2, e.1)), stageLen := 684 } }
  let u : State := (s.setMode 1).setReg (.egShape 5 3) 0x4000000000000000
  { u with regs := tPut Reg.chipId.addr 0x77 u.regs }

/-- A memory that lists some bytes from 0 on reads as them. -/
theorem tFind_enumerated (bs : List Byte) : ∀ k i, tFind ((bs.zipIdx k).map (fun e => (e.2, e.1))) (k + i) = bs[i]? := by
  induction bs with
  | nil => exact fun _ _ => rfl
  | cons b bs ih =>
    intro k i
    simp only [List.zipIdx_cons, List.map_cons, tFind]
    cases i with
    | zero => exact if_pos rfl
    | succ i =>
      rw [if_neg (by omega), show k + (i + 1) = k + 1 + i by omega, ih]
      rfl

theorem memRead_enumerated (bs : List Byte) : memRead (bs.zipIdx.map (fun e => (e.2, e.1))) 0 bs.length = bs := by
  refine List.ext_getElem (by simp [memRead]) fun i h1 h2 => ?_
  have h := tFind_enumerated bs 0 i
  rw [Nat.zero_add, List.getElem?_eq_getElem h2] at h
  simp [memRead, memByte, tGet, h]

theorem staged_of (s : State) {bs : List Byte} (h : s.flash.stage = bs.zipIdx.map (fun e => (e.2, e.1)))
    (hn : s.flash.stageLen = bs.length) : s.staged = bs := by
  rw [State.staged, h, hn, memRead_enumerated]

theorem applyingState_staged : applyingState.staged = shaperCoat := by
  exact staged_of _ (by decide +kernel) (by decide +kernel)

/-- The sections of that topcoat. -/
def shaperSecs : List CoatSec := (coatSecs shaperCoat).getD []
def shaperSec : CoatSec := shaperSecs.headD ⟨0, [], []⟩

theorem applyingState_commanded : applyingState.Calm ∧ applyingState.CoatCommand 0x12 applyCommand := by decide +kernel

theorem applyingState_accepts :
    okOf ((applyingState.coBegin shaperCoat).checkCoat 1 applyingState.flash.stageLen shaperCoat) = some shaperSecs := by
  decide +kernel

theorem shaperSecs_port : (shaperSecs = [shaperSec] ∧ shaperSec.ty = 5 ∧ cScope shaperCoat = 2 ∧
    cScopeId shaperCoat = (5 : Port).val ∧ applyingState.portState 5 ≠ 6) ∧
    shaperSec.recs 16 = [[BitVec.ofNat 64 (Reg.egShape 5 3).addr, 0x861A010000000000]] ∧ applyingState.live (.port 5) = true := by
  decide +kernel

/-- The part once the topcoat's section has been performed. -/
def shapedState : State := shaperSecs.foldl (fun t x => t.coatSec x) (applyingState.coBegin shaperCoat)

theorem applyingState_ready : (applyingState.coBegin shaperCoat).coatReady shaperCoat shaperSecs = .ok (2, 5) ∧
    secsOf 3 shaperSecs = [] ∧ shaperSecs.all (fun x => x.ty = 5) = true ∧ applyingState.tack.coat.isSome = false ∧
    applyingState.mbRun 0x12 = some applyCommand ∧ applyingState.mode = 1 ∧ applyingState.coatBusy = false := by decide +kernel

theorem checkCoat_of_okOf {α : Type} {x : Except Nat α} {a : α} (h : okOf x = some a) : x = .ok a := by
  cases x with
  | ok b => exact congrArg _ (Option.some.inj h)
  | error e => cases h

/-- A topcoat of QOS sections for a port is applied at once. -/
theorem doCoatApply_qos (s : State) {c : MbCmd} {bs : List Byte} {l : List CoatSec} {n : Nat} (hcoat : s.tack.coat.isSome = false)
    (hrun : s.mbRun 0x12 = some c) (hmode : s.mode = 1) (hbusy : s.coatBusy = false) (hst : s.staged = bs)
    (hok : (s.coBegin bs).checkCoat 1 (s.coBegin bs).flash.stageLen bs = .ok l) (hready : (s.coBegin bs).coatReady bs l = .ok (2, n))
    (hsec : secsOf 3 l = []) (hall : l.all (fun x => x.ty = 5) = true) (hscope : cScope bs = 2) :
    doCoatApply s = (l.foldl (fun t x => t.coatSec x) (s.coBegin bs)).coatApplied (cSerial bs) (sha512 (bs.take (cTotal bs))) false := by
  unfold doCoatApply
  rw [hcoat, if_neg (by decide)]
  unfold State.mbPerform
  rw [hrun, hmode]
  simp only [hbusy, hst, hok, hready, hsec, hscope, hall]
  rfl

theorem applyingState_applies : doCoatApply applyingState =
    shapedState.coatApplied (cSerial shaperCoat) (sha512 (shaperCoat.take (cTotal shaperCoat))) false := by
  obtain ⟨hready, hsec, hall, hcoat, hrun, hmode, hbusy⟩ := applyingState_ready
  obtain ⟨⟨-, -, hscope, -⟩, -⟩ := shaperSecs_port
  exact doCoatApply_qos _ hcoat hrun hmode hbusy applyingState_staged (checkCoat_of_okOf applyingState_accepts) hready hsec hall hscope

theorem shapedState_shape : ((shapedState.coatApplied (cSerial shaperCoat) (sha512 (shaperCoat.take (cTotal shaperCoat))) false).fin).rf
    (.egShape 5 3) 63 32 = 0xC61A0100 := by decide +kernel

theorem exec_coatApply (s : State) (h : s.live .global = true) : exec .coatApply s = .next (doCoatApply s).fin :=
  congrArg Host.Outcome.next (if_pos h)

/-- Refutes O58: a reserved bit of EG_SHAPE that the register holds stays beside what a QOS record writes. -/
theorem not_coatsAreStagedAndTaken : ¬ Obligations.CoatsAreStagedAndTaken := by
  intro h
  obtain ⟨-, -, -, -, -, -, -, -, hqos, -⟩ := h
  obtain ⟨hcalm, hcmd⟩ := applyingState_commanded
  obtain ⟨hport, hrec⟩ := shaperSecs_port
  obtain ⟨t, he, -, hshape, -⟩ := hqos applyingState applyCommand shaperCoat shaperSecs 5 3 0x861A010000000000 shaperSec ⟨hcalm, hcmd⟩
    applyingState_staged.symm applyingState_accepts hport hrec
  rw [exec_coatApply _ hcmd.1.1, Host.Outcome.next.injEq, applyingState_applies] at he
  rw [← he, shapedState_shape] at hshape
  exact absurd hshape (by decide)

end Sys2Proof.Machine
end

section
/-! PROOFS. EveryStepKeepsTheFormOfMemory: the form of the memories, and what keeps it. -/

namespace Sys2Proof.Machine

-- The proofs are elaborated one after another: in parallel their threads' stacks need more memory than a compile may have.
set_option Elab.async false

/-- The memories are in their one form. -/
structure State.Formed (s : State) : Prop where
  hbm : Memory.wf s.hbm = true
  buf : Memory.wf s.buf = true

theorem State.formed_iff (s : State) : s.Formed ↔ s.memCanon = true := by
  rw [State.memCanon, Bool.and_eq_true]
  exact ⟨fun h => ⟨h.hbm, h.buf⟩, fun h => ⟨h.1, h.2⟩⟩

namespace State.Formed

variable {s t : State}

/-- What changes neither memory keeps their form. -/
theorem put (h : s.Formed) (h1 : t.hbm = s.hbm := by rfl) (h2 : t.buf = s.buf := by rfl) : t.Formed :=
  ⟨h1 ▸ h.hbm, h2 ▸ h.buf⟩

theorem ite {c : Prop} {d : Decidable c} (hs : s.Formed) (ht : t.Formed) : (if c then s else t).Formed := by
  split
  · exact hs
  · exact ht

theorem foldl {α : Type} {f : State → α → State} {xs : List α} (hf : ∀ t x, t.Formed → (f t x).Formed) (h : s.Formed) :
    (xs.foldl f s).Formed :=
  List.foldlRecOn (motive := State.Formed) xs f h fun t ht x _ => hf t x ht

theorem ofSnd {α : Type} {p : α × State} {a : α} (h : p.2.Formed) (he : p = (a, t)) : t.Formed := by
  rw [he] at h
  exact h

theorem ofFst {α : Type} {p : State × α} {a : α} (h : p.1.Formed) (he : p = (t, a)) : t.Formed := by
  rw [he] at h
  exact h

theorem snd {α : Type} {a : α} (h : s.Formed) : (a, s).2.Formed := h

theorem sndSnd {α β : Type} {a : α} {p : β × State} (h : p.2.Formed) : (a, p).2.2.Formed := h

theorem ofSome (h : s.Formed) (he : some s = some t) : t.Formed := by
  cases he
  exact h

theorem ofSomeFst {α : Type} {a b : α} (h : s.Formed) (he : some (s, a) = some (t, b)) : t.Formed := by
  cases he
  exact h

theorem getD {o : Option State} (h : s.Formed) (ho : ∀ u, o = some u → u.Formed) : (o.getD s).Formed := by
  cases o with
  | none => exact h
  | some u => exact ho u rfl

end State.Formed

end Sys2Proof.Machine
end

section
/-! PROOFS. EveryStepKeepsTheFormOfMemory: the named operations and the lines of the context stores. -/

namespace Sys2Proof.Machine

-- The proofs are elaborated one after another: in parallel their threads' stacks need more memory than a compile may have.
set_option Elab.async false

namespace State.Formed

theorem setReg {s : State} {r : Reg} {v : Word} (h : s.Formed) : (s.setReg r v).Formed := .put h

theorem wf {s : State} {r : Reg} {hi lo v : Nat} (h : s.Formed) : (s.wf r hi lo v).Formed := .setReg h

theorem wb {s : State} {r : Reg} {i : Nat} {b : Bool} (h : s.Formed) : (s.wb r i b).Formed := .wf h

theorem bump {s : State} {r : Reg} {hi lo n : Nat} (h : s.Formed) : (s.bump r hi lo n).Formed := .setReg h

theorem hbmWrite {s : State} {a : Nat} {bs : List Byte} (h : s.Formed) : (s.hbmWrite a bs).Formed := by
  unfold State.hbmWrite
  split
  · exact ⟨wf_memWrite _ _ _ h.hbm, h.buf⟩
  · exact h

theorem dropCopies {s : State} {a n : Nat} (h : s.Formed) : (s.dropCopies a n).Formed := .put h

theorem uncachedWrite {s : State} {a : Nat} {bs : List Byte} (h : s.Formed) : (s.uncachedWrite a bs).Formed :=
  .dropCopies (.hbmWrite h)

theorem random {s : State} (h : s.Formed) : s.random.2.Formed := .put h

theorem free {s : State} {n : Nat} (h : s.Formed) : (s.free n).2.Formed := .put h

theorem emit {s : State} {e : Emission} (h : s.Formed) : (s.emit e).Formed := .put h

theorem pmOne {sel cnt : Reg} {code filt n : Nat} {s : State} (h : s.Formed) : (pmOne sel cnt code filt n s).Formed :=
  .ite (.setReg h) h

theorem pm {s : State} {b : Block} {code filt n : Nat} (h : s.Formed) : (s.pm b code filt n).Formed :=
  .ite h (.foldl (fun _ _ ht => .pmOne ht) h)

theorem pmG {s : State} {g : GroomId} {code ctx n : Nat} (h : s.Formed) : (s.pmG g code ctx n).Formed :=
  .ite h (.foldl (fun _ _ ht => .pmOne ht) h)

theorem modCtx {s : State} {c : Nat} {f : Ctx → Ctx} (h : s.Formed) : (s.modCtx c f).Formed := by
  unfold State.modCtx
  split
  · exact .put h
  · exact h

theorem ctxStore {s : State} {c i : Nat} {ws : List Word} (h : s.Formed) : (s.ctxStore c i ws).Formed := .hbmWrite h

theorem setSticky {s : State} {c : Nat} (h : s.Formed) : (s.setSticky c).Formed := by
  unfold State.setSticky
  split
  · exact h
  · extract_lets s1
    have hs1 : s1.Formed := .modCtx h
    exact .ctxStore hs1

theorem modTl {s : State} {h1 : Nat} {f : HostTl → HostTl} (h : s.Formed) : (s.modTl h1 f).Formed := .put h

theorem sendReq {s : State} {h1 : Nat} {t2 : ReqTlp} (h : s.Formed) : (s.sendReq h1 t2).Formed := .ite h (.modTl h)

theorem dropIntr {s : State} {h1 : Nat} (h : s.Formed) : (s.dropIntr h1).Formed := .modTl (.wb h)

theorem sendIntr {s : State} {h1 fn vector data : Nat} (h : s.Formed) : (s.sendIntr h1 fn vector data).Formed :=
  .ite (.sendReq h) (.dropIntr h)

theorem hostWrite {s : State} {h1 fn : Nat} {ctx : Option Nat} {addr : Nat} {bs : List Byte} {tok : Tok}
    (h : s.Formed) : (s.hostWrite h1 fn ctx addr bs tok).Formed :=
  .foldl (fun _ _ ht => .sendReq ht) h

theorem eqPut {s : State} {e : Nat} {q : Eq} {ws : List Word} (h : s.Formed) : (s.eqPut e q ws).Formed := by
  unfold State.eqPut
  extract_lets w0 ctx s1 q1 s2
  have hs1 : s1.Formed := .hostWrite h
  have hs2 : s2.Formed := .put hs1
  exact .ite (.sendIntr hs2) hs2

theorem eqWrite {s : State} {e : Nat} {ws : List Word} (h : s.Formed) : (s.eqWrite e ws).Formed := by
  unfold State.eqWrite
  split
  · exact h
  · extract_lets s1
    split
    · exact .put h
    · split
      · exact .eqPut h
      · have hs1 : s1.Formed := .eqPut h
        split
        · exact hs1
        · exact .ite (.eqPut hs1) (.put hs1)

theorem postEq {s : State} {e code : Nat} {ctx : Option Nat} {fs : List (Nat × Nat × Nat × Nat)} (h : s.Formed) :
    (s.postEq e code ctx fs).Formed := by
  unfold State.postEq
  split
  · exact h
  · extract_lets ws
    exact .ite h (.ite (.modTl h) (.eqWrite h))

theorem postMgmt {s : State} {h1 code : Nat} {ctx : Option Nat} {fs : List (Nat × Nat × Nat × Nat)} (h : s.Formed) :
    (s.postMgmt h1 code ctx fs).Formed := .ite (.postEq h) (.bump h)

theorem postCtx {s : State} {c code : Nat} {fs : List (Nat × Nat × Nat × Nat)} (h : s.Formed) :
    (s.postCtx c code fs).Formed := .ite (.postEq h) (.postMgmt h)

theorem postFault {s : State} {b : Block} {cls : FtClass} {code unit : Nat} (h : s.Formed) :
    (s.postFault b cls code unit).Formed := .ite (.postMgmt (.put h)) h

theorem faultSeen {s : State} {b : Block} {cls : FtClass} {unit : Nat} (h : s.Formed) :
    (s.faultSeen b cls unit).Formed := .put h

theorem fault {s : State} {b : Block} {cls : FtClass} {low unit : Nat} (h : s.Formed) :
    (s.fault b cls low unit).Formed := by
  unfold State.fault
  extract_lets s1 code first s2 s3 s4
  have hs1 : s1.Formed := .faultSeen h
  have hs2 : s2.Formed := .wb hs1
  have hs3 : s3.Formed := .ite (.wf (.wf hs2)) hs2
  have hs4 : s4.Formed := .bump (.wf hs3)
  exact .ite h (.ite hs4 (.postFault hs4))

theorem noteReserved {s : State} {b : Block} {unit : Nat} (h : s.Formed) : (s.noteReserved b unit).Formed := .fault h

theorem setHolders {s : State} {k : Nat} {hs : List (Nat × LineState)} (h : s.Formed) : (s.setHolders k hs).Formed :=
  .put h

theorem lineDrop {s : State} {k c : Nat} (h : s.Formed) : (s.lineDrop k c).Formed := .setHolders h

theorem makeRoom {s : State} {d k : Nat} (h : s.Formed) : (s.makeRoom d k).Formed := by
  unfold State.makeRoom
  split
  · exact h
  · split
    · rename_i he
      extract_lets mine
      split
      · exact .bump (.put (.ofSnd (.free h) he))
      · exact .ofSnd (.free h) he

theorem cacheRoom {s : State} {d c : Nat} (h : s.Formed) : (s.cacheRoom d c).Formed := by
  unfold State.cacheRoom
  extract_lets mine
  split
  · exact h
  · split
    · rename_i he
      extract_lets k
      exact .lineDrop (.ofSnd (.free h) he)

theorem lineMiss {s : State} {d c k : Nat} (h : s.Formed) : (s.lineMiss d c k).Formed :=
  .makeRoom (.pm (.cacheRoom h))

theorem lineShare {s : State} {d c k : Nat} (h : s.Formed) : (s.lineShare d c k).Formed := by
  unfold State.lineShare
  extract_lets hs u
  have hu : u.Formed := .lineMiss h
  clear_value hs
  split
  · exact h
  · split
    · exact .setHolders hu
    · exact .setHolders hu
    · exact .setHolders hu

theorem lineOwn {s : State} {d c k : Nat} (h : s.Formed) : (s.lineOwn d c k).Formed := by
  unfold State.lineOwn
  split
  · exact h
  · exact .setHolders h
  · exact .setHolders (.lineMiss h)

theorem lineRead {s : State} {k : Nat} (h : s.Formed) : (s.lineRead k).Formed := by
  unfold State.lineRead
  split
  · exact .setHolders h
  · exact h

theorem lineWrite {s : State} {k : Nat} (h : s.Formed) : (s.lineWrite k).Formed := .setHolders h

theorem cacheUse {s : State} {stall a n : Nat} {own : Bool} (h : s.Formed) : (s.cacheUse stall a n own).Formed :=
  .ite (.foldl (fun _ _ ht => .ite (.ite (.lineOwn ht) (.lineShare ht)) (.ite (.lineWrite ht) (.lineRead ht))) h) h

theorem cacheWrite {s : State} {stall a : Nat} {bs : List Byte} (h : s.Formed) : (s.cacheWrite stall a bs).Formed :=
  .cacheUse (.hbmWrite h)

theorem uncachedRead {s : State} {a n : Nat} (h : s.Formed) : (s.uncachedRead a n).Formed :=
  .foldl (fun _ _ ht => .lineRead ht) h

end State.Formed

end Sys2Proof.Machine
end

section
/-! PROOFS. EveryStepKeepsTheFormOfMemory: command queues and their completions. -/

namespace Sys2Proof.Machine

-- The proofs are elaborated one after another: in parallel their threads' stacks need more memory than a compile may have.
set_option Elab.async false

namespace State.Formed

theorem modCq {s : State} {q : Nat} {f : Cq → Cq} (h : s.Formed) : (s.modCq q f).Formed := by
  unfold State.modCq
  split
  · exact .put h
  · exact h

theorem modOp {s : State} {op : Nat} {f : Op → Op} (h : s.Formed) : (s.modOp op f).Formed := by
  unfold State.modOp
  split
  · exact .put h
  · exact h

theorem fireCompletion {s : State} {c code : Nat} {record : List Word} (h : s.Formed) :
    (s.fireCompletion c code record).Formed := .put h

theorem post {s : State} {p : Post} (h : s.Formed) : (s.post p).Formed := by
  unfold State.post
  split
  · exact .postMgmt h
  · exact .postEq h
  · exact .postCtx h
  · exact .ite (.fireCompletion h) h

theorem postDue {s : State} {id : Nat} (h : s.Formed) : (s.postDue id).Formed := by
  unfold State.postDue
  split
  · exact h
  · exact .foldl (fun _ _ ht => .post ht) (.put h)

theorem putCpl {s : State} {q : Nat} {c : Cq} {count : Nat} {writes : List (Nat × List Byte)} {after : List Post}
    (h : s.Formed) : (s.putCpl q c count writes after).Formed := by
  unfold State.putCpl
  extract_lets fn ctx late soon id tok s1 s2 s3
  have hs3 : s3.Formed := by
    unfold s3
    have hs1 : s1.Formed := .ite h (.put h)
    have hs2 : s2.Formed := .foldl (fun _ _ ht => .hostWrite ht) hs1
    split
    · exact .hostWrite hs2
    · exact hs2
  exact .foldl (fun _ _ ht => .post ht) (.modCq hs3)

theorem writeCpl {s : State} {q : Nat} {c : Cq} {count : Nat} {writes : List (Nat × List Byte)} {after : List Post}
    (h : s.Formed) : (s.writeCpl q c count writes after).Formed :=
  .ite (.modTl h) (.putCpl h)

theorem queueError {s : State} {q cause slot : Nat} (h : s.Formed) : (s.queueError q cause slot).Formed := by
  unfold State.queueError
  split
  · exact h
  · extract_lets quiet s1 s2 s3 fs
    have hs1 : s1.Formed := .modCq h
    have hs2 : s2.Formed := .put hs1
    have hs3 : s3.Formed := .bump hs2
    exact .ite h (.ite (.postMgmt hs3) (.postCtx hs3))

theorem fireTrigs {s : State} {c ct : Nat} (h : s.Formed) : (s.fireTrigs c ct).Formed := by
  unfold State.fireTrigs
  extract_lets now fires due s1
  have hs1 : s1.Formed := .put h
  refine .foldl (fun _ _ ht => ?_) hs1
  split
  · exact ht
  · extract_lets id o s2
    have hs2 : s2.Formed := .put ht
    exact .ite ht (.modCq hs2)

theorem ctPut {s : State} {c ct : Nat} {w : Word} (h : s.Formed) : (s.ctPut c ct w).Formed :=
  .fireTrigs (.cacheWrite h)

theorem ctAdd {s : State} {c ct succ failed : Nat} (h : s.Formed) : (s.ctAdd c ct succ failed).Formed :=
  .ite (.ctPut h) h

theorem modGroom {s : State} {g : GroomId} {f : Groom → Groom} (h : s.Formed) : (s.modGroom g f).Formed := .put h

theorem modRun {s : State} {g : GroomId} {f : Run → Run} (h : s.Formed) : (s.modRun g f).Formed := .modGroom h

theorem catchUp {s : State} {g : GroomId} (h : s.Formed) : (s.catchUp g).Formed := .modRun h

theorem groomCpl {s : State} {g : GroomId} {op : Nat} {hdr : Word} (h : s.Formed) : (s.groomCpl g op hdr).Formed := by
  unfold State.groomCpl
  split
  · exact h
  · split
    · exact h
    · extract_lets s1
      have hs1 : s1.Formed := .ite h (.modGroom h)
      exact .modRun hs1

theorem endOp1 {s : State} {id status detail : Nat} {writes : List (Nat × List Byte)} (h : s.Formed) :
    (s.endOp1 id status detail writes).Formed := by
  unfold State.endOp1
  split
  · exact h
  · extract_lets s1 hdr new ok cq slot fs event run s2
    have hs2 : s2.Formed := by
      unfold s2
      have hs1 : s1.Formed := .put h
      split
      · exact .writeCpl hs1
      · exact .groomCpl hs1
      · exact .foldl (fun _ _ ht => .post ht) hs1
      · exact hs1
    exact .ite (.ctAdd hs2) hs2

theorem queueIdle {s : State} {q : Nat} (h : s.Formed) : (s.queueIdle q).1.Formed := by
  unfold State.queueIdle
  split
  · exact h
  · split
    · split
      · exact h
      · exact .put h
    · split
      · exact h
      · extract_lets ended
        split
        · exact h
        · exact .modCq h

theorem endDestroy {s : State} {id : Nat} (h : s.Formed) : (s.endDestroy id).Formed := by
  unfold State.endDestroy
  split
  · exact h
  · exact .queueIdle (.endOp1 h)

theorem settleQueue {s : State} {q : Nat} (h : s.Formed) : (s.settleQueue q).Formed := by
  unfold State.settleQueue
  split
  · rename_i he
    exact .endDestroy (.ofFst (.queueIdle h) he)
  · rename_i he
    exact .ofFst (.queueIdle h) he

theorem endOp {s : State} {id status detail : Nat} {writes : List (Nat × List Byte)} (h : s.Formed) :
    (s.endOp id status detail writes).Formed := by
  unfold State.endOp
  split
  · exact h
  · exact .settleQueue (.endOp1 h)

theorem done {s : State} {id status detail : Nat} (h : s.Formed) : (s.done id status detail).Formed := .endOp h

theorem startOne {s : State} {q : Nat} (h : s.Formed) : (s.startOne q).Formed := by
  unfold State.startOne
  split
  · exact h
  · split
    · extract_lets s1 u s2 s3
      have hs1 : s1.Formed := .modCq h
      have hu : u.Formed := .modOp hs1
      have hs2 : s2.Formed := .put hu
      have hs3 : s3.Formed := .pm hs2
      split
      · exact hs3
      · exact .ite hs3 (.done hs3)
    · split
      · extract_lets id c1 o s1 s2
        have hs1 : s1.Formed := .put h
        have hs2 : s2.Formed := .pm hs1
        split
        · exact hs2
        · exact .done hs2
      · exact h

theorem startUpTo {a : Nat} {a1 : State} {a2 : Nat} (h : a1.Formed) : (State.startUpTo a a1 a2).1.Formed := by
  unfold State.startUpTo
  split
  · exact h
  · split
    · exact h
    · extract_lets r
      split
      · have hr : r.1.Formed := .startUpTo (.startOne h)
        exact hr
      · exact h

theorem noteWait {s : State} {q : Nat} {c : Cq} (h : s.Formed) : (s.noteWait q c).Formed := by
  unfold State.noteWait
  split
  · exact h
  · extract_lets opc key st s1
    split
    · exact h
    · split
      · split
        · exact .ite h (.wb h)
        · exact h
      · have hs1 : s1.Formed := .wb h
        exact .ite (.ite hs1 (.modCq (.bump hs1))) h

theorem checkHeaders {s : State} {q : Nat} (h : s.Formed) : (s.checkHeaders q).Formed := by
  unfold State.checkHeaders
  split
  · exact h
  · split
    · exact h
    · split
      · exact .queueError h
      · exact h

theorem checkHead {s : State} {q : Nat} (h : s.Formed) : (s.checkHead q).Formed := by
  unfold State.checkHead
  split
  · exact h
  · exact .ite (.noteWait h) h

theorem scan {s : State} {a : List Nat} (h : s.Formed) : (s.scan a).1.Formed := by
  unfold State.scan
  split
  · exact h
  · split
    · exact .scan h
    · extract_lets r s1 s2 t
      split
      · have hr : r.1.Formed := .startUpTo h
        have hs1 : s1.Formed := .modCq hr
        have hs2 : s2.Formed := .checkHead hs1
        have ht : t.1.Formed := .scan hs2
        exact ht
      · exact .scan (.modCq h)

theorem scans {a : Nat} {a1 : State} {a2 : List Nat} (h : a1.Formed) : (State.scans a a1 a2).Formed := by
  unfold State.scans
  split
  · exact h
  · extract_lets r
    have hr : r.1.Formed := .scan h
    exact .ite hr (.scans hr)

theorem startIssuedOne {s : State} {id : Nat} (h : s.Formed) : (s.startIssuedOne id).Formed := by
  unfold State.startIssuedOne
  split
  · exact h
  · extract_lets o s1
    have hs1 : s1.Formed := .put h
    exact .ite h (.ite hs1 (.done hs1))

theorem startIssued {s : State} {n : Nat} (h : s.Formed) : (s.startIssued n).Formed :=
  .foldl (fun _ _ ht => .startIssuedOne ht) h

theorem doArbitrationRound {n : Stall} {s : State} (h : s.Formed) : (doArbitrationRound n s).Formed := by
  unfold Machine.doArbitrationRound
  extract_lets s1 qs s2 s3
  have hs1 : s1.Formed := .startIssued h
  have hs2 : s2.Formed := .foldl (fun _ _ ht => .checkHead ht) hs1
  have hs3 : s3.Formed := by
    unfold s3
    refine .foldl (fun _ _ ht => ?_) hs2
    split
    · exact .modCq ht
    · exact ht
  exact .ite h (.scans hs3)

theorem doorbell {s : State} {q pi slot fn : Nat} {grans : List (BitVec 512)} (h : s.Formed) :
    (s.doorbell q pi slot fn grans).Formed := by
  unfold State.doorbell
  split
  · exact .bump h
  · extract_lets m a hi kept fns held
    exact .ite (.bump h) (.ite (.queueError h) (.ite h (.checkHeaders (.modCq h))))

theorem doRingFetch {q : BitVec 20} {s : State} (h : s.Formed) : (doRingFetch q s).Formed := by
  unfold Machine.doRingFetch
  split
  · exact h
  · extract_lets n0 n fn ctx
    exact .ite h (.ite h (.sendReq (.modCq h)))

theorem ringEnds {s : State} {q id : Nat} {f : Cq → Cq} (h : s.Formed) : (s.ringEnds q id f).Formed := .modCq h

theorem ringData {s : State} {q id n : Nat} {bs : List Byte} (h : s.Formed) : (s.ringData q id n bs).Formed :=
  .checkHeaders (.ringEnds h)

theorem ringUnask {s : State} {q id n : Nat} (h : s.Formed) : (s.ringUnask q id n).Formed := .ringEnds h

theorem ringFailed {s : State} {q id n : Nat} (h : s.Formed) : (s.ringFailed q id n).Formed := by
  unfold State.ringFailed
  split
  · exact h
  · exact .ite (.queueError (.ringEnds h)) h

end State.Formed

end Sys2Proof.Machine
end

section
/-! PROOFS. EveryStepKeepsTheFormOfMemory: address translation, packets, locks and telemetry. -/

namespace Sys2Proof.Machine

-- The proofs are elaborated one after another: in parallel their threads' stacks need more memory than a compile may have.
set_option Elab.async false

namespace State.Formed

theorem modUse {s : State} {u : Nat} {f : Use → Use} (h : s.Formed) : (s.modUse u f).Formed := by
  unfold State.modUse
  split
  · exact .put h
  · exact h

theorem modXfer {s : State} {x : Nat} {f : Xfer → Xfer} (h : s.Formed) : (s.modXfer x f).Formed := by
  unfold State.modXfer
  split
  · exact .put h
  · exact h

theorem push {s : State} {t1 : Task} (h : s.Formed) : (s.push t1).Formed := .put h

theorem startXfer {s : State} {x : Xfer} (h : s.Formed) : (s.startXfer x).Formed := by
  unfold State.startXfer
  extract_lets id ps s1
  have hs1 : s1.Formed := .put h
  split
  · exact .push hs1
  · refine .foldl (fun _ _ ht => ?_) hs1
    extract_lets u y
    exact .push (.put ht)

theorem xferPart {s : State} {y : Use} {status detail : Nat} {bs : List Byte} (h : s.Formed) :
    (s.xferPart y status detail bs).Formed := by
  unfold State.xferPart
  split
  · exact h
  · extract_lets x x1 x2 s1
    have hs1 : s1.Formed := .put h
    exact .ite (.push hs1) hs1

theorem finishUse {s : State} {u status detail : Nat} {bs : List Byte} (h : s.Formed) :
    (s.finishUse u status detail bs).Formed := by
  unfold State.finishUse
  split
  · exact h
  · exact .xferPart (.put h)

theorem holdUse {s : State} {u : Nat} (h : s.Formed) : (s.holdUse u).Formed := by
  unfold State.holdUse
  split
  · exact h
  · exact .xferPart (.modXfer (.modUse h))

theorem endHeld {s : State} {u : Option Nat} (h : s.Formed) : (s.endHeld u).Formed := by
  unfold State.endHeld
  split
  · exact .put h
  · exact h

theorem recordXl {s : State} {x : Xfer} {detail va : Nat} (h : s.Formed) : (s.recordXl x detail va).Formed :=
  .ite (.wb h) (.setReg (.setReg h))

theorem postXl {s : State} {x : Xfer} {code status detail va s1lev ipa : Nat} (h : s.Formed) :
    (s.postXl x code status detail va s1lev ipa).Formed := by
  unfold State.postXl
  extract_lets fs
  split
  · split
    · exact h
    · exact .ite (.postCtx (.modCtx h)) h
  · exact .postCtx h

theorem xlFault {s : State} {u kind : Nat} {table stage2 : Bool} {level s1lev ipa status : Nat} (h : s.Formed) :
    (s.xlFault u kind table stage2 level s1lev ipa status).Formed := by
  unfold State.xlFault
  split
  · exact h
  · split
    · exact h
    · extract_lets d s1 st
      have hs1 : s1.Formed := .postXl (.recordXl h)
      exact .ite (.finishUse h) (.finishUse hs1)

theorem xlTrap {s : State} {u : Nat} {dirty table stage2 : Bool} {level s1lev ipa : Nat} (h : s.Formed) :
    (s.xlTrap u dirty table stage2 level s1lev ipa).Formed := by
  unfold State.xlTrap
  split
  · exact h
  · split
    · exact h
    · extract_lets d s1
      have hs1 : s1.Formed := .postXl (.recordXl h)
      split
      · exact .finishUse hs1
      · split
        · exact .finishUse hs1
        · split
          · exact .finishUse hs1
          · split
            · exact .finishUse hs1
            · exact .ite (.finishUse hs1) (.modCq (.modUse hs1))

theorem modWalk {s : State} {w : Nat} {f : Walk → Walk} (h : s.Formed) : (s.modWalk w f).Formed := by
  unfold State.modWalk
  split
  · exact .put h
  · exact h

theorem dropWalk {s : State} {w : Nat} (h : s.Formed) : (s.dropWalk w).Formed := by
  unfold State.dropWalk
  split
  · exact h
  · extract_lets s1
    have hs1 : s1.Formed := .put h
    exact .foldl (fun _ _ ht => .push (.modUse ht)) hs1

theorem afresh {s : State} {u : Nat} (h : s.Formed) : (s.afresh u).Formed := .push (.modUse h)

theorem walkFault {s : State} {w kind status : Nat} (h : s.Formed) : (s.walkFault w kind status).Formed := by
  unfold State.walkFault
  split
  · exact h
  · extract_lets ipa
    exact .dropWalk (.foldl (fun _ _ ht => .ite (.afresh ht) (.xlFault ht)) h)

theorem packetsDown {s : State} {w : Nat} (h : s.Formed) : (s.packetsDown w).Formed := by
  unfold State.packetsDown
  split
  · exact h
  · extract_lets down s1
    have hs1 : s1.Formed := .modWalk h
    exact .foldl (fun _ _ ht => .finishUse ht) hs1

theorem walkSeek {s : State} {w : Nat} {ptr : Phys} (h : s.Formed) : (s.walkSeek w ptr).Formed := by
  unfold State.walkSeek
  split
  · exact h
  · extract_lets s1
    have hs1 : s1.Formed := .modWalk h
    split
    · exact .ite hs1 (.walkFault hs1)
    · split
      · exact .walkFault hs1
      · split
        · exact .walkFault hs1
        · exact .sendReq (.ite hs1 (.packetsDown hs1))

theorem keepEntry {s : State} {stall : Nat} {e : XlEntry} (h : s.Formed) : (s.keepEntry stall e).Formed := .put h

theorem walkKeep {s : State} {w : Nat} {e : Word} (h : s.Formed) : (s.walkKeep w e).Formed := by
  unfold State.walkKeep
  split
  · exact h
  · extract_lets k kind asid e0
    exact .ite h (.keepEntry h)

theorem walkTurn {s : State} {w : Nat} {k : State → State} (h : s.Formed)
    (hk : ∀ (a : State), a.Formed → (k a).Formed) : (s.walkTurn w k).Formed := by
  unfold State.walkTurn
  split
  · exact h
  · split
    · exact .push (.modWalk h)
    · exact hk _ h

theorem walkStage2 {s : State} {w : Nat} {table : Bool} {input : Nat} (h : s.Formed) :
    (s.walkStage2 w table input).Formed := by
  unfold State.walkStage2
  split
  · exact h
  · extract_lets r s1
    have hs1 : s1.Formed := .modWalk h
    exact .ite (.walkFault hs1) (.walkTurn hs1 (fun _ ht => .walkSeek ht))

theorem walkStage1 {s : State} {w l base : Nat} {inHbm : Bool} (h : s.Formed) :
    (s.walkStage1 w l base inHbm).Formed := by
  unfold State.walkStage1
  split
  · exact h
  · extract_lets p s1
    have hs1 : s1.Formed := .modWalk h
    exact .walkTurn hs1 (fun _ ht => .ite (.walkStage2 ht) (.walkSeek ht))

theorem leafTell {s : State} {x : Walk} {y : WalkUser} {k : Nat} (h : s.Formed) : (s.leafTell x y k).Formed :=
  .ite h (.ite (.afresh h) (.ite (.xlTrap h) (.xlFault h)))

theorem leafUsers {s : State} {w : Nat} {e : Word} (h : s.Formed) : (s.leafUsers w e).Formed := by
  unfold State.leafUsers
  split
  · exact h
  · extract_lets s1
    have hs1 : s1.Formed := .modWalk h
    exact .foldl (fun _ _ ht => .leafTell ht) hs1

theorem walkEnds {s : State} {w out : Nat} {hbm : Bool} {log2 : Nat} {rd wr acc dirty : Bool} (h : s.Formed) :
    (s.walkEnds w out hbm log2 rd wr acc dirty).Formed := by
  unfold State.walkEnds
  split
  · exact h
  · extract_lets m e s1 s2
    have hs1 : s1.Formed := .ite (.keepEntry h) h
    have hs2 : s2.Formed := by
      unfold s2
      refine .foldl (fun _ _ ht => ?_) hs1
      split
      · exact ht
      · extract_lets a
        exact .push (.modUse ht)
    exact .dropWalk hs2

theorem walkIfUsed {s : State} {w : Nat} {k : State → State} (h : s.Formed)
    (hk : ∀ (a : State), a.Formed → (k a).Formed) : (s.walkIfUsed w k).Formed := by
  unfold State.walkIfUsed
  split
  · exact h
  · exact .ite (.dropWalk h) (hk _ h)

theorem walkEntry {s : State} {w : Nat} {e : Word} (h : s.Formed) : (s.walkEntry w e).Formed := by
  unfold State.walkEntry
  split
  · exact h
  · extract_lets s1 l out log2 m r
    have hs1 : s1.Formed := .walkKeep h
    exact .ite (.walkFault h) (.ite (.walkFault h) (.ite (.ite (.walkTurn (.modWalk hs1) (fun _ ht => .walkSeek ht))
      (.walkStage1 hs1)) (.ite (.ite (.walkFault hs1) (.ite (.dropWalk (.foldl (fun _ _ ht => .leafTell ht) hs1))
        (.walkSeek (.modWalk hs1)))) (.walkIfUsed (.leafUsers hs1)
          (fun _ ht => .ite (.walkEnds ht) (.ite (.walkStage2 (.modWalk ht)) (.walkEnds (.modWalk ht))))))))

theorem walkGoesOn {s : State} {w : Nat} (h : s.Formed) : (s.walkGoesOn w).Formed := by
  unfold State.walkGoesOn
  split
  · exact h
  · split
    · exact .walkEntry h
    · exact h

theorem walkAgain {s : State} {w : Nat} (h : s.Formed) : (s.walkAgain w).Formed := by
  unfold State.walkAgain
  split
  · exact h
  · exact .walkSeek h

theorem walkRead {s : State} {w : Nat} (h : s.Formed) : (s.walkRead w).Formed := by
  unfold State.walkRead
  split
  · exact h
  · split
    · exact .walkEntry (.cacheUse h)
    · split
      · exact .walkFault h
      · split
        · exact .walkEntry h
        · exact h

theorem newWalk {s : State} {u : Nat} {y : Use} (h : s.Formed) : (s.newWalk u y).Formed := by
  unfold State.newWalk
  extract_lets w x s1
  have hs1 : s1.Formed := .put h
  exact .ite (.modUse h) (.ite (.walkStage1 hs1) (.walkStage2 hs1))

theorem joinWalk {s : State} {u : Nat} {y : Use} {w : Nat} {x : Walk} (h : s.Formed) :
    (s.joinWalk u y w x).Formed := by
  unfold State.joinWalk
  extract_lets at1
  split
  · exact .modWalk h
  · exact .newWalk h
  · exact .newWalk h
  · exact .leafTell h

theorem lookup {s : State} {u : Nat} (h : s.Formed) : (s.lookup u).Formed := by
  unfold State.lookup
  split
  · exact h
  · extract_lets hit s1
    have hs1 : s1.Formed := .pm h
    clear_value hit
    refine .ite (.finishUse h) (.ite (.xlFault h) (.ite (.push (.modUse h)) ?_))
    split
    · exact .push (.modUse h)
    · split
      · exact .joinWalk hs1
      · exact .newWalk hs1

theorem access {s : State} {u : Nat} (h : s.Formed) : (s.access u).Formed := by
  unfold State.access
  split
  · exact h
  · split
    · extract_lets bs
      split
      · exact .holdUse h
      · split
        · refine .finishUse ?_
          split
          · exact .uncachedRead h
          · exact .cacheUse h
        · refine .finishUse ?_
          split
          · exact .uncachedWrite h
          · exact .cacheWrite h
    · exact .ite (.finishUse h) (.ite (.holdUse h) (.ite (.sendReq h) (.sendReq h)))
    · exact h

theorem shootdown {s : State} {op : Nat} (h : s.Formed) : (s.shootdown op).Formed := by
  unfold State.shootdown
  split
  · exact h
  · extract_lets hit
    exact .put h

theorem admitInvals {s : State} {d : Nat} (h : s.Formed) : (s.admitInvals d).Formed := by
  unfold State.admitInvals
  extract_lets act
  split
  · exact .ite (.shootdown h) h
  · exact h

theorem invalAck {s : State} {st op : Nat} (h : s.Formed) : (s.invalAck st op).Formed := by
  unfold State.invalAck
  split
  · exact h
  · extract_lets busy acks s1 all
    have hs1 : s1.Formed := .put h
    exact .ite h (.ite (.admitInvals (.done (.put hs1))) hs1)

theorem injectPkt {s : State} {stall : Nat} {p : Pkt} (h : s.Formed) : (s.injectPkt stall p).Formed := .pm (.put h)

theorem modLock {s : State} {d n : Nat} {f : Lock → Lock} (h : s.Formed) : (s.modLock d n f).Formed := .put h

theorem wakeHlock {s : State} {g : GroomId} {status : Nat} (h : s.Formed) : (s.wakeHlock g status).Formed :=
  .modRun (.catchUp h)

theorem grant {s : State} {d n : Nat} {m : Holder} {prio : Nat} {abandoned queued : Bool} (h : s.Formed) :
    (s.grant d n m prio abandoned queued).Formed := by
  unfold State.grant
  extract_lets s1 s2
  have hs1 : s1.Formed := .modLock h
  have hs2 : s2.Formed := .bump hs1
  split
  · exact hs2
  · split
    · exact .wakeHlock hs2
    · exact .emit hs2
    · exact .sendIntr hs2

theorem passLock {s : State} {d n : Nat} {abandoned : Bool} (h : s.Formed) : (s.passLock d n abandoned).Formed := by
  unfold State.passLock
  extract_lets l s1
  have hs1 : s1.Formed := .modLock h
  split
  · exact hs1
  · exact .grant (.modLock hs1)

theorem inherit {s : State} {d n : Nat} (h : s.Formed) : (s.inherit d n).Formed := by
  unfold State.inherit
  extract_lets s1
  have hs1 : s1.Formed := .wb h
  split
  · exact .modRun hs1
  · exact .sendIntr hs1
  · exact .emit hs1
  · exact hs1

theorem acquire {s : State} {d n : Nat} {m : Holder} {prio : Nat} {try_ : Bool} (h : s.Formed) :
    (s.acquire d n m prio try_).2.Formed := by
  unfold State.acquire
  extract_lets l was s1
  split
  · exact h
  · split
    · exact h
    · split
      · exact .snd (.grant h)
      · split
        · exact h
        · have hs1 : s1.Formed := .modLock h
          exact .ite (.inherit hs1) hs1

theorem release {s : State} {d n : Nat} {m : Holder} (h : s.Formed) : (s.release d n m).2.Formed := by
  unfold State.release
  split
  · exact .passLock h
  · exact h

theorem unwait {s : State} {d n : Nat} {m : Holder} (h : s.Formed) : (s.unwait d n m).Formed := .modLock h

theorem dropWaits {s : State} {d : Nat} {m : Holder} (h : s.Formed) : (s.dropWaits d m).Formed := by
  unfold State.dropWaits
  split
  · exact .unwait h
  · exact h

theorem resetHolder {s : State} {d : Nat} {m : Holder} (h : s.Formed) : (s.resetHolder d m).Formed :=
  .foldl (fun _ _ ht => .passLock (.wb (.bump ht))) (.dropWaits h)

theorem resetLinkHolders {s : State} {h1 : Nat} (h : s.Formed) : (s.resetLinkHolders h1).Formed :=
  .foldl (fun _ _ ht => .foldl (fun _ _ ht1 => .resetHolder ht1) ht)
    (.foldl (fun _ _ ht => .foldl (fun _ _ ht1 => .dropWaits ht1) ht) h)

theorem hkWindow {s : State} {k d n : Nat} {m : Master} (h : s.Formed) : (s.hkWindow k d n m).2.Formed := by
  unfold State.hkWindow
  split
  · exact h
  · extract_lets r
    have hr : r.2.Formed := by
      unfold r
      split
      · exact .acquire h
      · split
        · exact .acquire h
        · split
          · exact .release h
          · split
            · exact .unwait h
            · exact h
    exact hr

theorem hkOp {s : State} {k : Nat} {m : Master} {d : Dom} {n : BitVec 16} (h : s.Formed) : (s.hkOp k m d n).Formed :=
  .ite (.emit (.hkWindow h)) h

theorem doHkAcquire {m : Master} {d : Dom} {n : BitVec 16} {s : State} (h : s.Formed) :
    (doHkAcquire m d n s).Formed :=
  .hkOp h

theorem doHkTry {m : Master} {d : Dom} {n : BitVec 16} {s : State} (h : s.Formed) : (doHkTry m d n s).Formed :=
  .hkOp h

theorem doHkRelease {m : Master} {d : Dom} {n : BitVec 16} {s : State} (h : s.Formed) :
    (doHkRelease m d n s).Formed :=
  .hkOp h

theorem doHkCancel {m : Master} {d : Dom} {n : BitVec 16} {s : State} (h : s.Formed) : (doHkCancel m d n s).Formed :=
  .hkOp h

theorem tmWrite1 {s : State} {d i : Nat} {ws : List Word} (h : s.Formed) : (s.tmWrite1 d i ws).Formed := by
  unfold State.tmWrite1
  extract_lets c n w0 a bs link s1 s2 r s3 s4
  have hs1 : s1.Formed := .ite (.uncachedWrite h) (.hostWrite h)
  have hs2 : s2.Formed := .put hs1
  have hs3 : s3.Formed := .wf hs2
  have hs4 : s4.Formed := .wb hs3
  exact .ite (.ite (.sendIntr hs4) hs4) hs3

theorem tmDrop {s : State} {d i n : Nat} (h : s.Formed) : (s.tmDrop d i n).Formed := .bump h

theorem tmWrite {s : State} {d i : Nat} {recs : List (List Word)} (h : s.Formed) : (s.tmWrite d i recs).Formed := by
  unfold State.tmWrite
  extract_lets c drops s1
  have hs1 : s1.Formed := .ite (.tmWrite1 (.wf h)) h
  exact .ite (.tmDrop h) (.ite (.foldl (fun _ _ ht => .tmWrite1 ht) hs1) (.tmDrop hs1))

theorem pmFixedWrite {s : State} {b : Block} {v : Word} (h : s.Formed) : (s.pmFixedWrite b v).Formed := .put h

theorem pmFreeze {s : State} {b : Block} (h : s.Formed) : (s.pmFreeze b).Formed := by
  unfold State.pmFreeze
  extract_lets now
  exact .put h

theorem doPmSnapshot {b : Block} {s : State} (h : s.Formed) : (doPmSnapshot b s).Formed :=
  .ite h (.ite h (.ite (.tmWrite h) (.bump h)))

end State.Formed

end Sys2Proof.Machine
end

section
/-! PROOFS. EveryStepKeepsTheFormOfMemory: the Grooms' stores and loads, and the initiator's flows. -/

namespace Sys2Proof.Machine

-- The proofs are elaborated one after another: in parallel their threads' stacks need more memory than a compile may have.
set_option Elab.async false

namespace State.Formed

theorem localWrite {s : State} {g : GroomId} {a : Nat} {bs : List Byte} (h : s.Formed) :
    (s.localWrite g a bs).Formed := by
  unfold State.localWrite
  split
  · exact .modGroom h
  · exact ⟨h.hbm, wf_memWrite _ _ _ h.buf⟩

theorem seeAt {s : State} {g : GroomId} {hbm : Bool} {a n : Nat} (h : s.Formed) : (s.seeAt g hbm a n).Formed :=
  .modRun h

theorem plainLoad {s : State} {g : GroomId} {r : Run} {hbm : Bool} {a n : Nat} {now : List Byte} (h : s.Formed) :
    (s.plainLoad g r hbm a n now).2.Formed := by
  unfold State.plainLoad
  extract_lets past
  split
  · exact .seeAt h
  · split
    · rename_i he
      exact .seeAt (.ofSnd (.free h) he)

theorem performStore {s : State} {g : GroomId} {c : Nat} {x : GStore} (h : s.Formed) :
    (s.performStore g c x).Formed := by
  unfold State.performStore
  extract_lets bs drop t
  have hdrop : ∀ x0, x0.Formed → State.Formed (drop x0) := fun _ ht => .endHeld (.modRun ht)
  split
  · have ht : t.Formed := .localWrite h
    exact hdrop _ (.ite ht (.seeAt ht))
  · exact hdrop _ (.seeAt (.cacheWrite h))
  · exact .ite (hdrop _ h) (.modRun (.hostWrite h))

theorem drainStores {a : Nat} {a1 : State} {a2 : GroomId} (h : a1.Formed) : (State.drainStores a a1 a2).Formed := by
  unfold State.drainStores
  split
  · exact h
  · split
    · exact h
    · split
      · exact h
      · exact .drainStores (.performStore h)

theorem driftStores {a : Nat} {a1 : State} {a2 : GroomId} (h : a1.Formed) : (State.driftStores a a1 a2).Formed := by
  unfold State.driftStores
  split
  · exact h
  · split
    · exact h
    · split
      · exact h
      · split
        · rename_i he2
          exact .ite (.ofSnd (.free h) he2) (.driftStores (.performStore (.ofSnd (.free h) he2)))

theorem pushStore {s : State} {g : GroomId} {phys : Option Phys} {addr size data : Nat} {release : Bool}
    {use : Option Nat} (h : s.Formed) : (s.pushStore g phys addr size data release use).Formed :=
  .driftStores (.modRun h)

theorem groomsDrain {s : State} (h : s.Formed) : s.groomsDrain.Formed :=
  .ite h (.foldl (fun _ _ ht => .foldl (fun _ _ ht1 => .drainStores ht1) ht) h)

theorem storeDone {s : State} {g : GroomId} {id : Nat} (h : s.Formed) : (s.storeDone g id).Formed := by
  unfold State.storeDone
  split
  · exact h
  · extract_lets s1
    have hs1 : s1.Formed := .foldl (fun _ _ ht => .endHeld ht) h
    exact .driftStores (.modRun hs1)

theorem raise {s : State} {g : GroomId} {kind detail addr : Nat} (h : s.Formed) :
    (s.raise g kind detail addr).Formed := by
  unfold State.raise
  split
  · exact h
  · extract_lets s1 s2 s3 s4
    have hs1 : s1.Formed := .modRun h
    have hs2 : s2.Formed := .wb (.dropWaits hs1)
    have hs3 : s3.Formed := .ite (.wb hs2) hs2
    have hs4 : s4.Formed := .ite (.wb hs3) hs3
    exact .ite h (.pmG hs4)

theorem reportExc {s : State} {g : GroomId} {r : Run} {kind detail addr pc : Nat} (h : s.Formed) :
    (s.reportExc g r kind detail addr pc).Formed := by
  unfold State.reportExc
  extract_lets susp f s1 s2 s3
  have hs1 : s1.Formed := .ite (.wb h) (.setReg (.setReg h))
  have hs2 : s2.Formed := .fault (.bump hs1)
  have hs3 : s3.Formed := .postCtx hs2
  exact .ite (.modCtx hs3) hs3

theorem drawInterval {s : State} {g : GroomId} (h : s.Formed) : (s.drawInterval g).2.Formed := by
  unfold State.drawInterval
  extract_lets d
  have hd : d.2.Formed := .free h
  exact hd

theorem sample {s : State} {g : GroomId} {r : Run} {w : BitVec 32} (h : s.Formed) : (s.sample g r w).Formed := by
  unfold State.sample
  extract_lets c left x d s1 dom i
  have hx : x.2.Formed := by
    unfold x
    split
    · exact .drawInterval h
    · exact h
  have hd : d.2.Formed := .drawInterval hx
  have hs1 : s1.Formed := .modGroom hd
  exact .ite h (.ite (.modGroom hx) (.ite (.tmWrite hs1) hs1))

theorem beginInstr {s : State} {g : GroomId} {r : Run} {w : BitVec 32} (h : s.Formed) : (s.beginInstr g r w).Formed :=
  .sample (.pmG (.modRun h))

theorem instr {s : State} {g : GroomId} {w : BitVec 32} {waits : Run → State → Bool} {k : Run → State → State}
    (h : s.Formed) (hk : ∀ (a : Run) (a_1 : State), a_1.Formed → (k a a_1).Formed) : (s.instr g w waits k).Formed :=
      by
  unfold State.instr
  split
  · exact h
  · extract_lets r s1 f s2
    split
    · exact h
    · have hs1 : s1.Formed := .modRun h
      split
      · exact .raise hs1
      · split
        · exact .raise (.modRun hs1)
        · split
          · exact .raise (.beginInstr hs1)
          · split
            · exact hs1
            · split
              · have hs2 : s2.Formed := .drainStores hs1
                split
                · exact hs2
                · exact .ite hs2 (hk _ _ (.beginInstr hs2))
              · exact hk _ _ (.beginInstr hs1)

theorem writeReg {s : State} {g : GroomId} {rd : BitVec 5} {v : Word} (h : s.Formed) : (s.writeReg g rd v).Formed :=
  .modRun h

theorem modIfl {s : State} {f : Nat} {g : IFlow → IFlow} (h : s.Formed) : (s.modIfl f g).Formed := by
  unfold State.modIfl
  split
  · exact .put h
  · exact h

theorem modTfl {s : State} {f : Nat} {g : TFlow → TFlow} (h : s.Formed) : (s.modTfl f g).Formed := by
  unfold State.modTfl
  split
  · exact .put h
  · exact h

theorem flowTake {s : State} {c : Nat} (h : s.Formed) : (s.flowTake c).Formed := .wf h

theorem flowGive {s : State} {c : Nat} (h : s.Formed) : (s.flowGive c).Formed := by
  unfold State.flowGive
  extract_lets r s1
  have hs1 : s1.Formed := .wf h
  exact .ite hs1 (.push hs1)

theorem flowTo {s : State} {c fa pc : Nat} (h : s.Formed) : (s.flowTo c fa pc).2.Formed := by
  unfold State.flowTo
  split
  · exact h
  · extract_lets r s1 psn w1 f x
    split
    · have hr : r.2.Formed := .random h
      have hs1 : s1.Formed := hr
      exact .flowTake (.put hs1)
    · exact h

theorem feedItem {s : State} {f : Nat} {i : SendItem} (h : s.Formed) : (s.feedItem f i).2.Formed := by
  unfold State.feedItem
  split
  · exact h
  · split
    · exact h
    · split
      · exact h
      · split
        · exact .startXfer h
        · exact h
      · exact h

theorem enqueue {s : State} {f : Nat} {i : SendItem} (h : s.Formed) : (s.enqueue f i).Formed := .modIfl (.feedItem h)

theorem enqueueTo {s : State} {c fa pc : Nat} {i : SendItem} (h : s.Formed) : (s.enqueueTo c fa pc i).Formed := by
  unfold State.enqueueTo
  split
  · rename_i he
    exact .enqueue (.ofSnd (.flowTo h) he)
  · rename_i he
    exact .put (.ofSnd (.flowTo h) he)

theorem retryDue {s : State} (h : s.Formed) : s.retryDue.Formed := .foldl (fun _ _ ht => .enqueueTo ht) (.put h)

theorem settleCmd {s : State} {op : Nat} (h : s.Formed) : (s.settleCmd op).Formed := by
  unfold State.settleCmd
  split
  · exact h
  · extract_lets busy
    exact .ite (.done h) h

theorem noteFail {s : State} {op status detail : Nat} (h : s.Formed) : (s.noteFail op status detail).Formed :=
  .modOp h

theorem cutCmd {s : State} {op status detail : Nat} (h : s.Formed) : (s.cutCmd op status detail).Formed :=
  .done (.put h)

theorem abandon {s : State} {f op status detail : Nat} (h : s.Formed) : (s.abandon f op status detail).Formed := by
  unfold State.abandon
  split
  · exact .cutCmd h
  · extract_lets s1
    have hs1 : s1.Formed := by
      unfold s1
      split
      · exact .modIfl h
      · exact h
    exact .cutCmd hs1

theorem sendOn {s : State} {f stall : Nat} {p : Pkt} {o : Outst} (h : s.Formed) : (s.sendOn f stall p o).Formed :=
  .injectPkt (.modIfl h)

theorem sendOpen {s : State} {f : Nat} {x : IFlow} (h : s.Formed) : (s.sendOpen f x).Formed := .sendOn (.modIfl h)

theorem sendItem {s : State} {f : Nat} {x : IFlow} {i : SendItem} {rest : List SendItem} (h : s.Formed) :
    (s.sendItem f x i rest).Formed := by
  unfold State.sendItem
  extract_lets psn n isSend msn takesMsn rts lastPkt ends full flagged src floor pay pay1 th p u o i1 stall s1 s2 s3 r
  have hs2 : s2.Formed := by
    unfold s2
    have hs1 : s1.Formed := .modIfl h
    split
    · exact .modOp hs1
    · exact hs1
  have hs3 : s3.Formed := .sendOn hs2
  have hr : r.2.Formed := .feedItem hs3
  exact .ite (.modIfl hs3) (.modIfl hr)

theorem doPacketInject {f : Nat} {s : State} (h : s.Formed) : (doPacketInject f s).Formed := by
  unfold Machine.doPacketInject
  split
  · exact h
  · split
    · exact h
    · split
      · exact h
      · exact .ite (.sendOpen h) (.ite h (.sendItem h))

theorem dropIfl {s : State} {f : Nat} (h : s.Formed) : (s.dropIfl f).Formed := by
  unfold State.dropIfl
  split
  · exact h
  · exact .flowGive (.put h)

end State.Formed

end Sys2Proof.Machine
end

section
/-! PROOFS. EveryStepKeepsTheFormOfMemory: message matching. -/

namespace Sys2Proof.Machine

-- The proofs are elaborated one after another: in parallel their threads' stacks need more memory than a compile may have.
set_option Elab.async false

namespace State.Formed

theorem modMe {s : State} {m : Nat} {f : Me → Me} (h : s.Formed) : (s.modMe m f).Formed := by
  unfold State.modMe
  split
  · exact .put h
  · exact h

theorem meFree {s : State} {c : Nat} {give : Bool} (h : s.Formed) : (s.meFree c give).Formed := .wf h

theorem uxTake {s : State} {c n : Nat} (h : s.Formed) : (s.uxTake c n).Formed := .modCtx (.wf h)

theorem uxGive {s : State} {c n : Nat} (h : s.Formed) : (s.uxGive c n).Formed := .modCtx (.wf h)

theorem uxRecord {s : State} {c : Nat} {give : Bool} (h : s.Formed) : (s.uxRecord c give).Formed := .wf h

theorem uxReport {s : State} {c : Nat} (h : s.Formed) : (s.uxReport c).Formed := by
  unfold State.uxReport
  extract_lets s1 s2
  have hs1 : s1.Formed := .modCtx h
  split
  · exact hs1
  · have hs2 : s2.Formed := .modCtx hs1
    exact .ite (.postCtx hs2) hs1

theorem uxDiscard {s : State} {c : Nat} {full : Bool} (h : s.Formed) : (s.uxDiscard c full).Formed := by
  unfold State.uxDiscard
  extract_lets st s1
  have hs1 : s1.Formed := .bump h
  exact .uxReport (.ite (.wb hs1) hs1)

theorem windowDiscard {s : State} {c : Nat} (h : s.Formed) : (s.windowDiscard c).Formed := .uxReport (.bump h)

theorem freeMe {s : State} {m : Nat} (h : s.Formed) : (s.freeMe m).Formed := by
  unfold State.freeMe
  split
  · exact h
  · extract_lets s1 s2
    have hs1 : s1.Formed := .put h
    have hs2 : s2.Formed := .ite (.uxGive hs1) hs1
    exact .ite (.meFree hs2) (.ite (.uxRecord hs2) hs2)

theorem recvEnds {s : State} {m status detail : Nat} (h : s.Formed) : (s.recvEnds m status detail).Formed := by
  unfold State.recvEnds
  split
  · exact h
  · extract_lets s1 ws
    have hs1 : s1.Formed := .freeMe h
    split
    · exact hs1
    · split
      · exact hs1
      · extract_lets wr
        exact .endOp hs1

theorem recvFails {s : State} {m status detail : Nat} (h : s.Formed) : (s.recvFails m status detail).Formed := by
  unfold State.recvFails
  extract_lets s1
  have hs1 : s1.Formed := .modMe h
  split
  · exact hs1
  · exact .recvEnds hs1

theorem sendFinish {s : State} {x : Me} {status cause : Nat} (h : s.Formed) : (s.sendFinish x status cause).Formed :=
  .enqueueTo h

theorem recvOver {s : State} {m : Nat} (h : s.Formed) : (s.recvOver m).Formed := by
  unfold State.recvOver
  split
  · exact h
  · extract_lets s1
    have hs1 : s1.Formed := .ite (.sendFinish h) h
    exact .recvEnds hs1

theorem recvCheck {s : State} {m : Nat} (h : s.Formed) : (s.recvCheck m).Formed := by
  unfold State.recvCheck
  split
  · exact h
  · extract_lets want
    exact .ite (.recvOver h) h

theorem startRndv {s : State} {m : Nat} (h : s.Formed) : (s.startRndv m).Formed := by
  unfold State.startRndv
  split
  · exact h
  · extract_lets i
    exact .ite (.recvCheck h) (.enqueueTo h)

theorem startCopy {s : State} {m : Nat} (h : s.Formed) : (s.startCopy m).Formed := by
  unfold State.startCopy
  split
  · exact h
  · extract_lets cuts s1 s2 s3
    have hs1 : s1.Formed := .ite (.uxGive h) h
    have hs2 : s2.Formed := .modMe hs1
    have hs3 : s3.Formed := .foldl (fun _ _ ht => .startXfer ht) hs2
    exact .recvCheck hs3

theorem takeUx {s : State} {m op : Nat} {ws : List Word} (h : s.Formed) : (s.takeUx m op ws).Formed := by
  unfold State.takeUx
  split
  · exact h
  · extract_lets mask slot s1 s2 s3
    have hs1 : s1.Formed := .modMe h
    have hs2 : s2.Formed := .meFree hs1
    have hs3 : s3.Formed := .ite (.uxRecord hs2) hs2
    exact .ite (.startRndv hs3) (.startCopy hs3)

theorem postRecv {s : State} {op : Nat} {o : Op} (h : s.Formed) : (s.postRecv op o).Formed := by
  unfold State.postRecv
  extract_lets r t m s1 id u
  have hs1 : s1.Formed := .pm h
  split
  · exact .takeUx hs1
  · split
    · exact hs1
    · extract_lets e s2
      have hs2 : s2.Formed := .put hs1
      exact .ite (.bump (.endOp hs1)) (.meFree (.modCtx hs2))

theorem matchMsg {s u : State} {tf : Nat} {t : TFlow} {p : Pkt} {m : Nat} (h : s.Formed)
    (he : s.matchMsg tf t p = some (u, m)) : u.Formed := by
  unfold State.matchMsg at he
  extract_lets c s1 rts slot need s2 n room id src at he
  have hs1 : s1.Formed := .pm h
  have hs2 : s2.Formed := .ite (.uxRecord hs1) hs1
  split at he
  · exact .ofSomeFst (.ite (.startRndv (.modMe hs1)) (.modMe hs1)) he
  · split at he
    · cases he
    · extract_lets e e1 s3 at he
      have hs3 : s3.Formed := .modCtx (.put hs2)
      split at he
      · cases he
      · exact .ofSomeFst (.ite (.uxTake hs3) hs3) he

theorem probeEnds {s : State} {op : Nat} {o : Op} (h : s.Formed) : (s.probeEnds op o).Formed := by
  unfold State.probeEnds
  extract_lets r
  split
  · exact .endOp h
  · split
    · exact .endOp h
    · extract_lets wr
      exact .endOp h

theorem removePosted {s : State} {q : Nat} {slot : Option Nat} (h : s.Formed) : (s.removePosted q slot).1.Formed := by
  unfold State.removePosted
  split
  · exact h
  · extract_lets hit sel
    exact .foldl (fun _ _ ht => .bump (.endOp (.freeMe ht))) h

theorem doMtCancel {d : Dom} {queue slot : BitVec 20} {s : State} (h : s.Formed) :
    (doMtCancel d queue slot s).Formed := by
  unfold Machine.doMtCancel
  extract_lets r s1 home t
  have ht : t.1.Formed := by
    unfold t
    have hs1 : s1.Formed := .wf (.wf h)
    split
    · exact .removePosted hs1
    · exact hs1
  exact .wb (.wf ht)

end State.Formed

end Sys2Proof.Machine
end

section
/-! PROOFS. EveryStepKeepsTheFormOfMemory: collectives. -/

namespace Sys2Proof.Machine

-- The proofs are elaborated one after another: in parallel their threads' stacks need more memory than a compile may have.
set_option Elab.async false

namespace State.Formed

theorem modInst {s : State} {h1 : Nat} {f : ClInst → ClInst} (h : s.Formed) : (s.modInst h1 f).Formed := by
  unfold State.modInst
  split
  · exact .put h
  · exact h

theorem modGroup {s : State} {d g : Nat} {f : ClGroup → ClGroup} (h : s.Formed) : (s.modGroup d g f).Formed := by
  unfold State.modGroup
  split
  · exact .put h
  · exact h

theorem closeInst {s : State} {h1 : Nat} (h : s.Formed) : (s.closeInst h1).Formed := by
  unfold State.closeInst
  split
  · exact h
  · exact .modGroup (.put h)

theorem failInst {s : State} {h1 status : Nat} (h : s.Formed) : (s.failInst h1 status).Formed := by
  unfold State.failInst
  split
  · exact h
  · exact .closeInst (.foldl (fun _ _ ht => .done ht) h)

theorem noteMismatch {s : State} {e : Nat} (h : s.Formed) : (s.noteMismatch e).Formed := .wb (.bump h)

theorem newInst {s : State} {d g n op ty mode count : Nat} (h : s.Formed) :
    (s.newInst d g n op ty mode count).1.Formed := by
  unfold State.newInst
  split
  · exact h
  · extract_lets h1 x
    exact .put h

theorem collReads {s : State} {h1 : Nat} (h : s.Formed) : (s.collReads h1).Formed := by
  unfold State.collReads
  split
  · exact h
  · refine .foldl (fun _ _ ht => ?_) h
    split
    · exact ht
    · split
      · exact ht
      · extract_lets top es t1
        split
        · exact ht
        · have ht1 : t1.Formed := .modInst ht
          refine .foldl (fun _ _ ht1 => ?_) ht1
          extract_lets j
          exact .ite (.modInst ht1) (.startXfer ht1)

theorem collSend {s : State} {e dest vclass tc : Nat} {p : List (Nat × Nat × Nat)} {payload : List Byte}
    (h : s.Formed) : (s.collSend e dest vclass tc p payload).Formed := .put h

theorem sendUp {s : State} {x : ClInst} {j : Nat} {vs : List Nat} (h : s.Formed) : (s.sendUp x j vs).Formed :=
  .collSend h

theorem sendDown {s : State} {x : ClInst} {j : Nat} {vs : List Nat} (h : s.Formed) : (s.sendDown x j vs).Formed :=
  .foldl (fun _ _ ht => .collSend ht) h

theorem collCheck {s : State} {h1 : Nat} (h : s.Formed) : (s.collCheck h1).Formed := by
  unfold State.collCheck
  split
  · exact h
  · extract_lets s1
    split
    · exact h
    · have hs1 : s1.Formed := by
        unfold s1
        refine .foldl (fun _ _ ht => ?_) h
        split
        · extract_lets r
          exact .ite ht (.done (.modInst ht))
        · exact ht
      split
      · exact hs1
      · exact .ite (.closeInst hs1) hs1

theorem collWrite {s : State} {h1 j : Nat} {vs : List Nat} (h : s.Formed) : (s.collWrite h1 j vs).Formed := by
  unfold State.collWrite
  split
  · exact h
  · refine .foldl (fun _ _ ht => ?_) h
    split
    · exact ht
    · split
      · exact ht
      · extract_lets rb bs
        exact .ite ht (.startXfer (.modInst ht))

theorem collRow {s : State} {h1 j : Nat} {vs : List Nat} (h : s.Formed) : (s.collRow h1 j vs).Formed := by
  unfold State.collRow
  extract_lets s1 s2
  have hs1 : s1.Formed := .modInst h
  split
  · exact hs1
  · extract_lets s3
    have hs2 : s2.Formed := .modInst hs1
    have hs3 : s3.Formed := .ite hs2 (.foldl (fun _ _ ht => .collWrite ht) hs2)
    exact .ite hs1 (.collCheck hs3)

theorem foldAny {a : Nat} {a1 : State} {a2 : ClInst} {a3 : List (List Nat)} (h : a1.Formed) :
    (State.foldAny a a1 a2 a3).2.Formed := by
  unfold State.foldAny
  split
  · exact h
  · split
    · exact h
    · exact h
    · extract_lets r1 i rest r2 j c t
      have hr1 : r1.2.Formed := .free h
      have hr2 : r2.2.Formed := .free hr1
      have ht : t.2.Formed := .foldAny hr2
      exact ht

theorem freeElems {a : Nat} {a1 : State} {a2 : Nat} (h : a1.Formed) : (State.freeElems a a1 a2).2.Formed := by
  unfold State.freeElems
  split
  · exact h
  · extract_lets r t
    have hr : r.2.Formed := .free h
    have ht : t.2.Formed := .freeElems hr
    exact ht

theorem collStep {s u : State} {i : Nat} (h : s.Formed) (he : s.collStep i = some u) : u.Formed := by
  unfold State.collStep at he
  split at he
  · cases he
  · split at he
    · cases he
    · split at he
      · cases he
      · extract_lets j f r vs spill x1 src s1 fs fl x2 s2 ds at he
        have hr : r.2.Formed := by
          unfold r
          split
          · exact .freeElems h
          · split
            · exact .foldAny h
            · exact h
        have hs1 : s1.Formed := .put hr
        have hs2 : s2.Formed := .put hs1
        split at he
        · exact .ofSome (.collRow (.sendDown hs2)) he
        · exact .ofSome (.sendUp hs1) he

theorem collTry {a : Nat} {a1 : State} {a2 : Nat} (h : a1.Formed) : (State.collTry a a1 a2).Formed := by
  unfold State.collTry
  split
  · exact h
  · split
    · rename_i he
      exact .collTry (.collReads (.collStep h he))
    · exact h

theorem collRun {s : State} {h1 : Nat} (h : s.Formed) : (s.collRun h1).Formed := by
  unfold State.collRun
  split
  · exact h
  · exact .collTry h

theorem missMember {s : State} {d g n j e : Nat} (h : s.Formed) : (s.missMember d g n j e).Formed := by
  unfold State.missMember
  extract_lets s1
  have hs1 : s1.Formed := .noteMismatch h
  split
  · exact .collRun (.modInst hs1)
  · exact hs1

theorem startColl {s : State} {id : Nat} {o : Op} (h : s.Formed) : (s.startColl id o).Formed := by
  unfold State.startColl
  obtain ⟨place, hp⟩ : ∃ f, f = s.grpPlace := ⟨_, rfl⟩
  rw [← hp]
  extract_lets w1 g op ty mode count st
  split
  · exact .done h
  · split
    · exact .done h
    · extract_lets n s1 s2 t s3 h1
      have hs1 : s1.Formed := .modGroup h
      have hs2 : s2.Formed := .ite (.newInst hs1) hs1
      have ht : t.1.Formed := by
        unfold t
        split
        · exact hs1
        · exact .newInst hs1
      have hs3 : s3.Formed := ht
      refine .ite (.done (.missMember hs2)) (.ite (.done hs1) ?_)
      split
      · exact .done hs3
      · extract_lets same
        exact .ite (.collRun (.collReads (.modInst hs3))) (.collRun (.modInst (.noteMismatch hs3)))

theorem collRead {s : State} {op seg status detail : Nat} {bs : List Byte} (h : s.Formed) :
    (s.collRead op seg status detail bs).Formed := by
  unfold State.collRead
  split
  · exact h
  · split
    · exact h
    · extract_lets es vs keep
      exact .ite (.collRun (.modInst h)) (.collRun (.modInst (.wb h)))

theorem collWrote {s : State} {op status detail : Nat} (h : s.Formed) : (s.collWrote op status detail).Formed := by
  unfold State.collWrote
  split
  · exact h
  · extract_lets fin
    exact .collCheck (.modInst h)

theorem lateDrop {s : State} {e : Nat} (h : s.Formed) : (s.lateDrop e).Formed := .bump h

theorem upOne {s u : State} {e : Nat} {p : Pkt} (h : s.Formed) (he : s.upOne e p = some u) : u.Formed := by
  unfold State.upOne at he
  obtain ⟨number, hn⟩ : ∃ f, f = ClGroup.number := ⟨_, rfl⟩
  rw [← hn] at he
  obtain ⟨inst, hi⟩ : ∃ f, f = s.instOf := ⟨_, rfl⟩
  rw [← hi] at he
  extract_lets key g i op ty mode count j at he
  split at he
  · exact .ofSome (.lateDrop h) he
  · split at he
    · exact .ofSome (.lateDrop h) he
    · split at he
      · exact .ofSome (.lateDrop h) he
      · extract_lets good t at he
        split at he
        · exact .ofSome (.lateDrop h) he
        · split at he
          · exact .ofSome h he
          · split at he
            · have ht : t.1.Formed := .newInst h
              split at he
              · cases he
              · split at he
                · cases he
                · split at he
                  · exact .ofSome (.collRun (.modInst ht)) he
                  · exact .ofSome (.collRun (.modInst (.noteMismatch ht))) he
            · split at he
              · exact .ofSome h he
              · extract_lets k at he
                split at he
                · exact .ofSome h he
                · split at he
                  · exact .ofSome (.collRun (.modInst (.noteMismatch h))) he
                  · split at he
                    · cases he
                    · split at he
                      · exact .ofSome h he
                      · exact .ofSome (.collRun (.modInst h)) he

theorem downOne {s : State} {e : Nat} {p : Pkt} (h : s.Formed) : (s.downOne e p).Formed := by
  unfold State.downOne
  extract_lets g
  split
  · exact .lateDrop h
  · split
    · exact .lateDrop h
    · split
      · exact .lateDrop h
      · split
        · exact h
        · extract_lets j vs x1 s1
          have hs1 : s1.Formed := .put h
          exact .ite h (.collRow (.sendDown hs1))

theorem upScan {s u : State} {e : Nat} {seen ps : List Pkt} (h : s.Formed) (he : s.upScan e seen ps = some u) :
    u.Formed := by
  induction ps generalizing seen with
  | nil => cases he
  | cons p rest ih =>
    unfold State.upScan at he
    split at he
    · rename_i ht
      cases he
      exact .put (.upOne h ht)
    · exact ih he

theorem doCollUpReceive {e : Engine} {s : State} (h : s.Formed) : (doCollUpReceive e s).Formed := by
  unfold Machine.doCollUpReceive
  extract_lets l s1
  split
  · exact h
  · have hs1 : s1.Formed := .ite (.wb h) h
    split
    · rename_i he
      exact .upScan hs1 he
    · exact hs1

theorem doCollDownReceive {e : Engine} {s : State} (h : s.Formed) : (doCollDownReceive e s).Formed := by
  unfold Machine.doCollDownReceive
  split
  · exact h
  · split
    · exact h
    · exact .downOne (.put h)

theorem collIn {s : State} {p : Pkt} (h : s.Formed) : (s.collIn p).Formed := .ite (.put h) (.put h)

theorem doCollTimeout {e : Engine} {group : BitVec 16} {n : BitVec 24} {s : State} (h : s.Formed) :
    (doCollTimeout e group n s).Formed := by
  unfold Machine.doCollTimeout
  extract_lets t
  split
  · exact h
  · exact .ite h (.wb (.bump (.failInst h)))

theorem clResult {s : State} {e : Engine} {action : Nat} {g : BitVec 16} {result : Nat} (h : s.Formed) :
    (s.clResult e action g result).Formed :=
  .setReg h

theorem doClInstall {e : Engine} {g : BitVec 16} {s : State} (h : s.Formed) : (doClInstall e g s).Formed := by
  have hput : ∀ u : State, u.Formed → ∀ x, State.Formed { u with groups := x } := fun u hu _ => .put hu
  unfold Machine.doClInstall
  extract_lets d gn a s1 s2
  have hs2 : s2.Formed := .uncachedWrite (.uncachedWrite h)
  exact .ite h (.ite (.clResult h) (.ite (.clResult h) (.clResult (hput _ hs2 _))))

theorem doClRemove {e : Engine} {g : BitVec 16} {s : State} (h : s.Formed) : (doClRemove e g s).Formed := by
  have hput : ∀ u : State, u.Formed → ∀ x, State.Formed { u with groups := x } := fun u hu _ => .put hu
  unfold Machine.doClRemove
  extract_lets d gn a s1
  have hs1 : s1.Formed := .uncachedWrite h
  split
  · exact h
  · split
    · exact .clResult h
    · exact .ite (.clResult h) (.ite (.clResult h) (.clResult (hput _ hs1 _)))

theorem doClAbort {e : Engine} {g : BitVec 16} {s : State} (h : s.Formed) : (doClAbort e g s).Formed := by
  unfold Machine.doClAbort
  extract_lets d gn mine s1
  split
  · exact h
  · split
    · exact .clResult h
    · have hs1 : s1.Formed := .foldl (fun _ _ ht => .bump (.failInst ht)) h
      exact .ite (.clResult h) (.clResult hs1)

theorem doEngineFenced {e : Engine} {s : State} (h : s.Formed) : (doEngineFenced e s).Formed := by
  unfold Machine.doEngineFenced
  extract_lets mine s1
  have hs1 : s1.Formed := .foldl (fun _ _ ht => .failInst ht) h
  exact .ite h (.fault (.wb (.put hs1)))

theorem doClUnfence {e : Engine} {s : State} (h : s.Formed) : (doClUnfence e s).Formed := .ite h (.wb (.put h))

end State.Formed

end Sys2Proof.Machine
end

section
/-! PROOFS. EveryStepKeepsTheFormOfMemory: the target's side of delivery. -/

namespace Sys2Proof.Machine

-- The proofs are elaborated one after another: in parallel their threads' stacks need more memory than a compile may have.
set_option Elab.async false

namespace State.Formed

theorem sendAck {s : State} {tf : Nat} (h : s.Formed) : (s.sendAck tf).Formed := by
  unfold State.sendAck
  split
  · exact h
  · extract_lets src delay p
    exact .injectPkt (.modTfl h)

theorem sendNack {s : State} {tf : Option TFlow} {p : Pkt} {cause detail : Nat} (h : s.Formed) :
    (s.sendNack tf p cause detail).Formed := .bump (.injectPkt h)

theorem sendRsp {s : State} {t1 : TFlow} {req : Pkt} {opc moff mlen tag : Nat} {bs : List Byte} {echo : Bool}
    (h : s.Formed) : (s.sendRsp t1 req opc moff mlen tag bs echo).Formed := .injectPkt h

theorem releaseFlagged {s : State} {tf : Nat} (h : s.Formed) : (s.releaseFlagged tf).Formed := by
  unfold State.releaseFlagged
  split
  · exact h
  · split
    · exact h
    · exact .ite (.push (.modTfl h)) h

theorem markDelivered {s : State} {tf psn : Nat} (h : s.Formed) : (s.markDelivered tf psn).Formed :=
  .releaseFlagged (.modTfl h)

theorem deliver {s : State} {tf : Nat} {p : Pkt} (h : s.Formed) : (s.deliver tf p).Formed := by
  unfold State.deliver
  split
  · exact h
  · extract_lets psn s1 s2 s3
    have hs1 : s1.Formed := .pm h
    have hs2 : s2.Formed := .modTfl hs1
    have hs3 : s3.Formed := .markDelivered hs2
    exact .ite (.sendAck hs3) hs3

theorem postRefused {s : State} {t1 : TFlow} {psn cause : Nat} (h : s.Formed) :
    (s.postRefused t1 psn cause).Formed := by
  unfold State.postRefused
  split
  · exact h
  · exact .ite (.postCtx (.modCtx h)) h

theorem refuse {s : State} {tf : Nat} {p : Pkt} {cause detail : Nat} (h : s.Formed) :
    (s.refuse tf p cause detail).Formed := by
  unfold State.refuse
  split
  · exact h
  · extract_lets psn s1 s2
    have hs1 : s1.Formed := .modTfl h
    have hs2 : s2.Formed := .markDelivered hs1
    exact .postRefused (.sendNack hs2)

theorem putOff {s : State} {tf : Nat} {p : Pkt} {cause : Nat} (h : s.Formed) : (s.putOff tf p cause).Formed :=
  .sendNack (.modTfl h)

theorem markIssued {s : State} {tf : Nat} {p : Pkt} {stage : Nat} (h : s.Formed) : (s.markIssued tf p stage).Formed :=
  .modTfl h

theorem admitRuns {s u : State} {tf : Nat} {t : TFlow} {p : Pkt} {b : Bool} (h : s.Formed)
    (he : s.admitRuns tf t p = some (u, b)) : u.Formed := by
  unfold State.admitRuns at he
  extract_lets c st hd y q need q1 at he
  split at he
  · exact .ofSomeFst h he
  · split at he
    · cases he
    · exact .ofSomeFst (.put h) he

theorem runqDrop {s : State} {c : Nat} (h : s.Formed) : (s.runqDrop c).Formed := .wb (.bump h)

theorem firePayload {s : State} {tf : Nat} {p : Pkt} (h : s.Formed) : (s.firePayload tf p).Formed := by
  unfold State.firePayload
  split
  · exact h
  · split
    · exact h
    · extract_lets s1 c st q left
      have hs1 : s1.Formed := .modTfl h
      exact .ite (.put hs1) hs1

theorem putComplete {s : State} {t1 : TFlow} {g : InProg} {w0 : Word} (h : s.Formed) :
    (s.putComplete t1 g w0).Formed := by
  unfold State.putComplete
  extract_lets c s1 fs s2
  have hs1 : s1.Formed := .ctAdd h
  have hs2 : s2.Formed := .ite (.postCtx hs1) hs1
  exact .ite (.fireCompletion hs2) hs2

theorem countPut {s : State} {tf : Nat} {p : Pkt} (h : s.Formed) : (s.countPut tf p).Formed := by
  unfold State.countPut
  split
  · exact h
  · extract_lets first g0 g rest w0
    exact .ite h (.ite (.putComplete (.modTfl h)) (.modTfl h))

theorem putEffects {s : State} {tf : Nat} {t2 : TFlow} {p : Pkt} (h : s.Formed) : (s.putEffects tf t2 p).Formed := by
  unfold State.putEffects
  extract_lets va n s1 w0 s2
  split
  · have hs1 : s1.Formed := .ite h (.markIssued h)
    have hs2 : s2.Formed := .modTfl hs1
    exact .ite (.deliver (.countPut (.firePayload hs2))) (.startXfer hs2)
  · exact .refuse h

theorem getEffects {s : State} {tf : Nat} {t2 : TFlow} {p : Pkt} (h : s.Formed) : (s.getEffects tf t2 p).Formed := by
  unfold State.getEffects
  extract_lets n s1
  split
  · have hs1 : s1.Formed := .markIssued h
    exact .ite (.deliver hs1) (.startXfer hs1)
  · exact .refuse h

theorem ackDup {s : State} {tf : Nat} {p : Pkt} (h : s.Formed) : (s.ackDup tf p).Formed := .sendAck (.modTfl h)

theorem getAgain {s : State} {tf : Nat} {t2 : TFlow} {p : Pkt} (h : s.Formed) : (s.getAgain tf t2 p).Formed :=
  .ite (.ackDup h) (.startXfer h)

theorem sendGetRsps {a : Nat} {a1 : State} {a2 : TFlow} {a3 : Pkt} {a4 : Nat} {a5 : List Byte} (h : a1.Formed) :
    (State.sendGetRsps a a1 a2 a3 a4 a5).Formed := by
  unfold State.sendGetRsps
  split
  · exact h
  · extract_lets n
    exact .ite h (.sendGetRsps (.sendRsp h))

theorem atomDone {s : State} {tf : Nat} {p : Pkt} {old : Nat} (h : s.Formed) : (s.atomDone tf p old).Formed := by
  unfold State.atomDone
  split
  · exact h
  · extract_lets floor keep s1
    have hs1 : s1.Formed := .modTfl h
    exact .sendRsp (.deliver hs1)

theorem atomEffects {s : State} {tf : Nat} {t2 : TFlow} {p : Pkt} (h : s.Formed) :
    (s.atomEffects tf t2 p).Formed := by
  unfold State.atomEffects
  extract_lets code n floor cached
  split
  · exact .ite (.refuse h) (.ite (.putOff h) (.startXfer (.markIssued h)))
  · exact .refuse h

theorem hitchAtom {s : State} {a code operand compare : Nat} (h : s.Formed) :
    (s.hitchAtom a code operand compare).1.Formed := by
  unfold State.hitchAtom
  extract_lets n old s1
  split
  · exact h
  · have hs1 : s1.Formed := .bump h
    exact .uncachedWrite hs1

theorem hostAtomNext {s : State} {link addr : Nat} (h : s.Formed) : (s.hostAtomNext link addr).Formed := by
  unfold State.hostAtomNext
  split
  · split
    · exact .sendReq h
    · exact h
  · exact h

theorem hostAtom {s : State} {tf psn link a : Nat} {use : Option Nat} (h : s.Formed) :
    (s.hostAtom tf psn link a use).Formed := by
  unfold State.hostAtom
  extract_lets addr busy s1
  have hs1 : s1.Formed := .put h
  exact .ite hs1 (.hostAtomNext hs1)

theorem putOffAtoms {s : State} {p : State → HostAtom → Bool} (h : s.Formed) : (s.putOffAtoms p).Formed := by
  unfold State.putOffAtoms
  extract_lets mine s1
  have hs1 : s1.Formed := .put h
  refine .foldl (fun _ _ ht => ?_) hs1
  extract_lets t1
  have ht1 : t1.Formed := .endHeld ht
  split
  · exact .putOff ht1
  · exact ht1

theorem hostAtomEnds {s : State} {tf psn : Nat} (h : s.Formed) : (s.hostAtomEnds tf psn).Formed := by
  unfold State.hostAtomEnds
  split
  · exact h
  · exact .hostAtomNext (.endHeld (.put h))

theorem hostAtomRead {s : State} {tf psn : Nat} {bs : List Byte} (h : s.Formed) :
    (s.hostAtomRead tf psn bs).Formed := by
  unfold State.hostAtomRead
  split
  · extract_lets code n off old a new s1
    have hs1 : s1.Formed := .modTfl h
    exact .ite (.hostAtomEnds (.atomDone h)) (.hostWrite hs1)
  · exact .hostAtomEnds h

theorem hostAtomWritten {s : State} {tf psn : Nat} (h : s.Formed) : (s.hostAtomWritten tf psn).Formed := by
  unfold State.hostAtomWritten
  split
  · exact .hostAtomEnds h
  · split
    · exact .hostAtomEnds (.atomDone h)
    · exact .hostAtomEnds h

theorem releaseSends {a : Nat} {a1 : State} {a2 : Nat} (h : a1.Formed) : (State.releaseSends a a1 a2).Formed := by
  unfold State.releaseSends
  split
  · exact h
  · split
    · exact h
    · extract_lets due s s1
      have hs : s.Formed := .modTfl h
      have hs1 : s1.Formed := .uxGive hs
      exact .ite (.releaseSends (.modTfl h)) (.foldl (fun _ _ ht => .push ht) hs1)

theorem skipSend {s : State} {tf msn : Nat} (h : s.Formed) : (s.skipSend tf msn).Formed := by
  unfold State.skipSend
  split
  · exact h
  · exact .ite h (.releaseSends (.modTfl h))

theorem msgAbort {s : State} {tf first msn : Nat} (h : s.Formed) : (s.msgAbort tf first msn).Formed := by
  unfold State.msgAbort
  split
  · exact h
  · extract_lets s1 mine held s2 s3
    have hs1 : s1.Formed := .modTfl h
    split
    · exact .ite (.recvFails hs1) (.freeMe hs1)
    · have hs2 : s2.Formed := .uxGive (.modTfl hs1)
      have hs3 : s3.Formed := .foldl (fun _ _ ht => .deliver ht) hs2
      exact .ite (.skipSend hs3) (.ite hs1 (.modTfl hs1))

theorem abortedPkt {s : State} {tf : Nat} {t2 : TFlow} {p : Pkt} (h : s.Formed) : (s.abortedPkt tf t2 p).Formed := by
  unfold State.abortedPkt
  extract_lets first s1 s2
  have hs2 : s2.Formed := by
    unfold s2
    split
    · exact h
    · have hs1 : s1.Formed := .modTfl h
      exact .ite (.skipSend hs1) hs1
  exact .deliver hs2

theorem eventEffects {s : State} {tf : Nat} {t2 : TFlow} {p : Pkt} (h : s.Formed) :
    (s.eventEffects tf t2 p).Formed := by
  unfold State.eventEffects
  extract_lets tag st s1
  have hs1 : s1.Formed := by
    unfold s1
    split
    · split
      · exact .settleCmd (.modOp h)
      · exact h
    · exact .postCtx h
    · exact .msgAbort h
    · exact h
  exact .deliver hs1

theorem landSend {s : State} {tf : Nat} {p : Pkt} {m : Nat} (h : s.Formed) : (s.landSend tf p m).Formed := by
  unfold State.landSend
  split
  · extract_lets n bs k b bl s1 s2
    split
    · exact .deliver h
    · split
      · split
        · exact .recvCheck (.modMe (.deliver h))
        · split
          · exact .runqDrop h
          · rename_i he3
            exact .markIssued (.admitRuns h he3)
          · rename_i he3
            exact .startXfer (.markIssued (.admitRuns h he3))
      · have hs1 : s1.Formed := .uxTake h
        have hs2 : s2.Formed := .modMe hs1
        exact .ite (.deliver h) (.ite (.ite (.deliver hs2) (.uxDiscard h)) (.deliver (.modMe h)))
  · exact .deliver h
  · exact h

theorem sendEffects {s : State} {tf : Nat} {t2 : TFlow} {p : Pkt} {released : Bool} (h : s.Formed) :
    (s.sendEffects tf t2 p released).Formed := by
  unfold State.sendEffects
  extract_lets c d
  split
  · exact .refuse h
  · split
    · split
      · exact .landSend h
      · exact .deliver h
    · split
      · split
        · exact .uxDiscard h
        · rename_i he1
          extract_lets s1
          have hs1 : s1.Formed := .modTfl (.matchMsg h he1)
          exact .releaseSends (.landSend hs1)
      · exact .ite (.windowDiscard h) (.ite h (.ite (.releaseFlagged (.modTfl (.uxTake h))) (.uxDiscard h)))

theorem rxNew {s : State} {tf : Nat} {p : Pkt} {flagDone matchDone : Bool} (h : s.Formed) :
    (s.rxNew tf p flagDone matchDone).Formed := by
  unfold State.rxNew
  split
  · exact h
  · extract_lets psn st
    split
    · split
      · exact .modTfl h
      · exact .bump h
    · split
      · exact .abortedPkt h
      · split
        · split
          · exact .runqDrop h
          · rename_i he2
            exact .markIssued (.admitRuns h he2)
          · rename_i he2
            exact .putEffects (.admitRuns h he2)
        · exact .getEffects h
        · exact .atomEffects h
        · exact .sendEffects h
        · exact .eventEffects h

theorem disposePkt {s : State} {tf psn disp left : Nat} (h : s.Formed) : (s.disposePkt tf psn disp left).Formed := by
  unfold State.disposePkt
  split
  · extract_lets s1 m n s2
    have hs1 : s1.Formed := .modTfl h
    have hs2 : s2.Formed := .firePayload hs1
    clear_value m
    split
    · split
      · exact .putEffects hs1
      · split
        · split
          · exact .ite (.recvCheck (.modMe (.deliver hs1))) (.startXfer hs1)
          · exact .deliver hs1
        · exact .deliver hs1
    · split
      · exact .deliver (.countPut hs2)
      · split
        · exact .recvCheck (.modMe (.deliver hs2))
        · exact .deliver hs2
    · exact .modTfl hs1
  · exact h

theorem dropAtoms {s : State} {tf : Nat} (h : s.Formed) : (s.dropAtoms tf).Formed :=
  .foldl (fun _ _ ht => .endHeld ht) (.put h)

theorem endTfl {s : State} {tf : Nat} (h : s.Formed) : (s.endTfl tf).Formed := by
  unfold State.endTfl
  split
  · exact h
  · extract_lets s1 mine s2 u
    have hs1 : s1.Formed := .uxGive h
    have hs2 : s2.Formed := .foldl (fun _ _ ht => .ite (.recvFails ht) (.ite (.freeMe ht) ht)) hs1
    have hu : u.Formed := .dropAtoms hs2
    exact .put hu

theorem flowOpen {s : State} {p : Pkt} (h : s.Formed) : (s.flowOpen p).Formed := by
  unfold State.flowOpen
  split
  · split
    · extract_lets s1 tf
      have hs1 : s1.Formed := .endTfl h
      exact .ite (.sendAck (.modTfl h)) (.sendAck (.put hs1))
    · exact h
  · extract_lets tf
    exact .ite (.sendAck (.flowTake (.put h))) (.sendNack h)

theorem duplicate {s : State} {tf : Nat} {t2 : TFlow} {p : Pkt} (h : s.Formed) : (s.duplicate tf t2 p).Formed := by
  unfold State.duplicate
  extract_lets psn s1
  have hs1 : s1.Formed := .bump h
  split
  · split
    · exact .sendRsp hs1
    · exact hs1
  · exact .ite (.sendNack hs1) (.ite (.getAgain hs1) (.ackDup hs1))

theorem classify {s : State} {tf : Nat} {p : Pkt} (h : s.Formed) : (s.classify tf p).Formed := by
  unfold State.classify
  split
  · exact h
  · extract_lets psn s1
    have hs1 : s1.Formed := .modTfl h
    exact .ite (.duplicate hs1) (.ite (.bump hs1) (.ite hs1 (.rxNew hs1)))

end State.Formed

end Sys2Proof.Machine
end

section
/-! PROOFS. EveryStepKeepsTheFormOfMemory: the Groom's instructions and runs, and what transfers leave. -/

namespace Sys2Proof.Machine

-- The proofs are elaborated one after another: in parallel their threads' stacks need more memory than a compile may have.
set_option Elab.async false

namespace State.Formed

theorem valueOp {s : State} {g : GroomId} {w : BitVec 32} {rd : BitVec 5} {v : Run → Option Word} (h : s.Formed) :
    (s.valueOp g w rd v).Formed := by
  unfold State.valueOp
  refine .instr h (fun _ _ ht => ?_)
  split
  · exact .writeReg ht
  · exact .raise ht

theorem doAlu {g : GroomId} {rd rs1 rs2 : BitVec 5} {fn : BitVec 11} {s : State} (h : s.Formed) :
    (doAlu g rd rs1 rs2 fn s).Formed :=
  .valueOp h

theorem doAddi {g : GroomId} {rd rs1 : BitVec 5} {imm : BitVec 16} {s : State} (h : s.Formed) :
    (doAddi g rd rs1 imm s).Formed :=
  .valueOp h

theorem doAndi {g : GroomId} {rd rs1 : BitVec 5} {imm : BitVec 16} {s : State} (h : s.Formed) :
    (doAndi g rd rs1 imm s).Formed :=
  .valueOp h

theorem doOri {g : GroomId} {rd rs1 : BitVec 5} {imm : BitVec 16} {s : State} (h : s.Formed) :
    (doOri g rd rs1 imm s).Formed :=
  .valueOp h

theorem doXori {g : GroomId} {rd rs1 : BitVec 5} {imm : BitVec 16} {s : State} (h : s.Formed) :
    (doXori g rd rs1 imm s).Formed :=
  .valueOp h

theorem doSlti {g : GroomId} {rd rs1 : BitVec 5} {imm : BitVec 16} {s : State} (h : s.Formed) :
    (doSlti g rd rs1 imm s).Formed :=
  .valueOp h

theorem doSltiu {g : GroomId} {rd rs1 : BitVec 5} {imm : BitVec 16} {s : State} (h : s.Formed) :
    (doSltiu g rd rs1 imm s).Formed :=
  .valueOp h

theorem doShi {g : GroomId} {rd rs1 : BitVec 5} {imm : BitVec 16} {s : State} (h : s.Formed) :
    (doShi g rd rs1 imm s).Formed :=
  .valueOp h

theorem doLui {g : GroomId} {rd rs1 : BitVec 5} {imm : BitVec 16} {s : State} (h : s.Formed) :
    (doLui g rd rs1 imm s).Formed :=
  .valueOp h

theorem doShori {g : GroomId} {rd rs1 : BitVec 5} {imm : BitVec 16} {s : State} (h : s.Formed) :
    (doShori g rd rs1 imm s).Formed :=
  .valueOp h

theorem loadLocal {s : State} {g : GroomId} {r : Run} {l : Local} {a n : Nat} {acq : Bool} (h : s.Formed) :
    (s.loadLocal g r l a n acq).2.Formed := by
  unfold State.loadLocal
  split
  · exact h
  · extract_lets now x
    have hx : x.2.Formed := by
      unfold x
      split
      · exact h
      · exact .plainLoad h
    exact hx
  · exact h

theorem doLd {g : GroomId} {rd base : BitVec 5} {size mark : BitVec 2} {off : BitVec 12} {s : State} (h : s.Formed) :
    (doLd g rd base size mark off s).Formed := by
  unfold Machine.doLd
  extract_lets n acq
  refine .instr h (fun _ _ ht => ?_)
  extract_lets a
  split
  · exact .raise ht
  · split
    · exact .raise ht
    · split
      · exact .raise ht
      · exact .raise ht
      · extract_lets v
        have hv : v.2.Formed := .loadLocal ht
        exact .writeReg (.ite (.catchUp hv) hv)

theorem doSt {g : GroomId} {rs base : BitVec 5} {size mark : BitVec 2} {off : BitVec 12} {s : State} (h : s.Formed) :
    (doSt g rs base size mark off s).Formed := by
  unfold Machine.doSt
  extract_lets n
  refine .instr h (fun _ _ ht => ?_)
  extract_lets a
  split
  · exact .raise ht
  · split
    · exact .raise ht
    · split
      · exact .raise ht
      · exact .raise ht
      · exact .raise ht
      · exact .pushStore (.modRun ht)

theorem doLdv {g : GroomId} {rd base : BitVec 5} {size mark : BitVec 2} {off : BitVec 12} {s : State} (h : s.Formed) :
    (doLdv g rd base size mark off s).Formed := by
  unfold Machine.doLdv
  extract_lets n
  refine .instr h (fun _ _ ht => ?_)
  extract_lets a
  exact .ite (.raise ht) (.ite (.raise ht) (.startXfer (.modRun ht)))

theorem doStv {g : GroomId} {rs base : BitVec 5} {size mark : BitVec 2} {off : BitVec 12} {s : State} (h : s.Formed) :
    (doStv g rs base size mark off s).Formed := by
  unfold Machine.doStv
  extract_lets n
  refine .instr h (fun _ _ ht => ?_)
  extract_lets a
  exact .ite (.raise ht) (.ite (.raise ht) (.startXfer (.modRun ht)))

theorem doAmol {g : GroomId} {rd rs1 rs2 : BitVec 5} {fn : BitVec 11} {s : State} (h : s.Formed) :
    (doAmol g rd rs1 rs2 fn s).Formed := by
  unfold Machine.doAmol
  refine .instr h (fun _ _ ht => ?_)
  extract_lets a
  split
  · exact .raise ht
  · split
    · exact .raise ht
    · split
      · extract_lets old
        split
        · exact .writeReg (.catchUp (.localWrite ht))
        · exact .raise ht
      · exact .raise ht
      · exact .raise ht
      · exact .raise ht

theorem doHamo {g : GroomId} {rd rs1 rs2 : BitVec 5} {fn : BitVec 11} {s : State} (h : s.Formed) :
    (doHamo g rd rs1 rs2 fn s).Formed := by
  unfold Machine.doHamo
  refine .instr h (fun _ _ ht => ?_)
  extract_lets a n
  exact .ite (.raise ht) (.ite (.raise ht) (.startXfer (.modRun ht)))

theorem raiseXfer {s : State} {g : GroomId} {load : Bool} {status detail addr : Nat} (h : s.Formed) :
    (s.raiseXfer g load status detail addr).Formed := by
  unfold State.raiseXfer
  split
  · exact .raise h
  · exact .raise h
  · exact .ite (.raise h) (.raise h)
  · exact .raise h

theorem groomLoaded {s : State} {g : GroomId} {run rd size status detail addr : Nat} {phys : Option Phys}
    {bs : List Byte} (h : s.Formed) : (s.groomLoaded g run rd size status detail addr phys bs).Formed := by
  unfold State.groomLoaded
  split
  · exact h
  · split
    · exact .raiseXfer h
    · split
      · exact h
      · split
        · extract_lets x v
          have hx : x.2.Formed := by
            unfold x
            split
            · split
              · exact h
              · exact .plainLoad h
            · exact h
          exact .modRun (.ite (.catchUp hx) hx)

theorem groomStored {s : State} {g : GroomId} {run release status detail addr : Nat} {phys : Option Phys}
    {bs : List Byte} {use : Option Nat} (h : s.Formed) : (s.groomStored g run release status detail addr phys bs
      use).Formed := .ite (.endHeld h) (.ite (.raiseXfer h) (.pushStore (.modRun h)))

theorem groomAtom {s : State} {g : GroomId} {run rd status detail addr : Nat} {phys : Option Phys} {use : Option Nat}
    (h : s.Formed) : (s.groomAtom g run rd status detail addr phys use).Formed := by
  unfold State.groomAtom
  extract_lets s1
  have hs1 : s1.Formed := .endHeld h
  split
  · exact hs1
  · split
    · exact .raise hs1
    · split
      · exact hs1
      · split
        · extract_lets t
          have ht : t.1.Formed := .hitchAtom hs1
          exact .ite (.raise hs1) (.modRun (.catchUp ht))
        · exact .raise hs1
        · exact hs1

theorem doHlock {g : GroomId} {rd rs1 : BitVec 5} {imm : BitVec 16} {s : State} (h : s.Formed) :
    (doHlock g rd rs1 imm s).Formed := by
  unfold Machine.doHlock
  refine .instr h (fun _ _ ht => .ite (.raise ht) ?_)
  extract_lets n
  split
  · rename_i he
    exact .modRun (.ofSnd (.acquire ht) he)
  · rename_i he
    exact .ite (.raise (.ofSnd (.acquire ht) he)) (.writeReg (.catchUp (.ofSnd (.acquire ht) he)))

theorem doHunlock {g : GroomId} {rd rs1 : BitVec 5} {imm : BitVec 16} {s : State} (h : s.Formed) :
    (doHunlock g rd rs1 imm s).Formed := by
  unfold Machine.doHunlock
  refine .instr h (fun _ _ ht => .ite (.raise ht) ?_)
  split
  · rename_i he
    exact .modRun (.ofSnd (.release ht) he)
  · rename_i he
    exact .raise (.ofSnd (.release ht) he)

theorem branch {s : State} {g : GroomId} {op : Nat} {rs1 rs2 : BitVec 5} {off : BitVec 16} {c : Word → Word → Bool}
    (h : s.Formed) : (s.branch g op rs1 rs2 off c).Formed :=
  .instr h (fun _ _ ht => .modRun ht)

theorem doBeq {g : GroomId} {rs1 rs2 : BitVec 5} {off : BitVec 16} {s : State} (h : s.Formed) :
    (doBeq g rs1 rs2 off s).Formed :=
  .branch h

theorem doBne {g : GroomId} {rs1 rs2 : BitVec 5} {off : BitVec 16} {s : State} (h : s.Formed) :
    (doBne g rs1 rs2 off s).Formed :=
  .branch h

theorem doBlt {g : GroomId} {rs1 rs2 : BitVec 5} {off : BitVec 16} {s : State} (h : s.Formed) :
    (doBlt g rs1 rs2 off s).Formed :=
  .branch h

theorem doBge {g : GroomId} {rs1 rs2 : BitVec 5} {off : BitVec 16} {s : State} (h : s.Formed) :
    (doBge g rs1 rs2 off s).Formed :=
  .branch h

theorem doBltu {g : GroomId} {rs1 rs2 : BitVec 5} {off : BitVec 16} {s : State} (h : s.Formed) :
    (doBltu g rs1 rs2 off s).Formed :=
  .branch h

theorem doBgeu {g : GroomId} {rs1 rs2 : BitVec 5} {off : BitVec 16} {s : State} (h : s.Formed) :
    (doBgeu g rs1 rs2 off s).Formed :=
  .branch h

theorem doJal {g : GroomId} {off : BitVec 26} {s : State} (h : s.Formed) : (doJal g off s).Formed :=
  .instr h (fun _ _ ht => .modRun ht)

theorem doJalr {g : GroomId} {rd rs1 : BitVec 5} {imm : BitVec 16} {s : State} (h : s.Formed) :
    (doJalr g rd rs1 imm s).Formed :=
  .instr h (fun _ _ ht => .modRun ht)

theorem issueStall {s : State} {g : GroomId} {w : BitVec 32} (h : s.Formed) : (s.issueStall g w).Formed := .modRun h

theorem doIssue {g : GroomId} {rd rs1 : BitVec 5} {imm : BitVec 16} {s : State} (h : s.Formed) :
    (doIssue g rd rs1 imm s).Formed := by
  unfold Machine.doIssue
  extract_lets w full after
  have hafter : ∀ t : State, t.Formed → (after t).Formed := fun _ ht => .ite (.issueStall ht) ht
  refine hafter _ (.instr h (fun _ _ ht => ?_))
  extract_lets a img w1 id o hd t1
  have ht1 : t1.Formed := .modRun (.put ht)
  exact .ite (.raise ht) (.ite (.raise ht) (.ite (.raise ht) (.ite (.raise ht) (.ite (.raise ht) (.writeReg ht1)))))

theorem doWfe {g : GroomId} {rd rs1 : BitVec 5} {imm : BitVec 16} {s : State} (h : s.Formed) :
    (doWfe g rd rs1 imm s).Formed := by
  unfold Machine.doWfe
  refine .instr h (fun _ _ ht => ?_)
  extract_lets m
  exact .ite (.raise ht) (.modRun ht)

theorem doSignal {g : GroomId} {rd rs1 : BitVec 5} {imm : BitVec 16} {s : State} (h : s.Formed) :
    (doSignal g rd rs1 imm s).Formed := by
  unfold Machine.doSignal
  refine .instr h (fun _ _ ht => .ite (.raise ht) ?_)
  extract_lets t1
  have ht1 : t1.Formed := .foldl (fun _ _ ht1 => .ite ht1 (.modRun ht1)) ht
  exact .modRun ht1

theorem doFence {g : GroomId} {rd rs1 : BitVec 5} {imm : BitVec 16} {s : State} (h : s.Formed) :
    (doFence g rd rs1 imm s).Formed :=
  .instr h (fun _ _ ht => .ite (.raise ht) (.modRun (.catchUp ht)))

theorem doCsrr {g : GroomId} {rd rs1 : BitVec 5} {imm : BitVec 16} {s : State} (h : s.Formed) :
    (doCsrr g rd rs1 imm s).Formed := by
  unfold Machine.doCsrr
  refine .instr h (fun _ _ ht => .ite (.raise ht) ?_)
  split
  · exact .writeReg ht
  · exact .raise ht

theorem doCsrw {g : GroomId} {rd rs1 : BitVec 5} {imm : BitVec 16} {s : State} (h : s.Formed) :
    (doCsrw g rd rs1 imm s).Formed :=
  .instr h (fun _ _ ht => .ite (.raise ht) (.modRun ht))

theorem doHalt {g : GroomId} {rd rs1 : BitVec 5} {imm : BitVec 16} {s : State} (h : s.Formed) :
    (doHalt g rd rs1 imm s).Formed :=
  .instr h (fun _ _ ht => .ite (.raise ht) (.ite (.raise ht) (.modRun ht)))

theorem startRun {s : State} {g : GroomId} {r : RunRef} (h : s.Formed) : (s.startRun g r).Formed := .modGroom (.put h)

theorem doRunDispatch {g : GroomId} {completion : Bool} {s : State} (h : s.Formed) :
    (doRunDispatch g completion s).Formed := by
  unfold Machine.doRunDispatch
  extract_lets x q
  split
  · exact h
  · split
    · split
      · exact h
      · extract_lets q1
        exact .startRun (.put h)
    · split
      · exact h
      · exact .startRun (.put h)

theorem doRunEnd {g : GroomId} {s : State} (h : s.Formed) : (doRunEnd g s).Formed := by
  unfold Machine.doRunEnd
  extract_lets s1 d held s2 s3
  split
  · exact h
  · have hs1 : s1.Formed := .drainStores h
    split
    · exact hs1
    · extract_lets s4 s5 s6
      have hs4 : s4.Formed := by
        unfold s4
        have hs2 : s2.Formed := .resetHolder hs1
        have hs3 : s3.Formed := .ite (.fault hs2) hs2
        split
        · exact .reportExc hs3
        · exact hs3
      have hs5 : s5.Formed := .modGroom hs4
      have hs6 : s6.Formed := .pmG (.bump hs5)
      exact .ite hs1 (.ite (.disposePkt hs6) hs6)

theorem doRunTimeout {g : GroomId} {s : State} (h : s.Formed) : (doRunTimeout g s).Formed := by
  unfold Machine.doRunTimeout
  split
  · exact h
  · exact .ite h (.raise h)

theorem doGroomTimerEvent {g : GroomId} {s : State} (h : s.Formed) : (doGroomTimerEvent g s).Formed := by
  unfold Machine.doGroomTimerEvent
  split
  · exact h
  · exact .ite h (.modRun h)

theorem doGroomReset {g : GroomId} {s : State} (h : s.Formed) : (doGroomReset g s).Formed := by
  unfold Machine.doGroomReset
  extract_lets s1
  have hs1 : s1.Formed := .raise h
  exact .ite h (.ite (.modGroom hs1) hs1)

theorem doGroomFenced {g : GroomId} {s : State} (h : s.Formed) : (doGroomFenced g s).Formed := by
  unfold Machine.doGroomFenced
  extract_lets s1 s2
  have hs1 : s1.Formed := .raise h
  have hs2 : s2.Formed := .modGroom hs1
  exact .ite h (.fault (.wb hs2))

theorem doGrResume {st : Stall} {s : State} (h : s.Formed) : (doGrResume st s).Formed :=
  .ite h (.ite (.wb (.wf h)) (.wb (.wf (.modCtx h))))

theorem groomsLost {s : State} {d : Nat} (h : s.Formed) : (s.groomsLost d).Formed := .put h

theorem srcDone {s : State} {f op status detail : Nat} {bs : List Byte} (h : s.Formed) :
    (s.srcDone f op status detail bs).Formed := .ite (.put h) (.abandon h)

theorem getDone {s : State} {f psn n status detail : Nat} {op me : Option Nat} (h : s.Formed) :
    (s.getDone f psn n status detail op me).Formed := by
  unfold State.getDone
  extract_lets s1
  have hs1 : s1.Formed := .modIfl h
  split
  · extract_lets s2
    have hs2 : s2.Formed := .ite (.noteFail hs1) hs1
    exact .settleCmd (.modOp hs2)
  · exact .recvCheck (.modMe hs1)
  · exact hs1

theorem putDone {s : State} {tf psn status detail : Nat} (h : s.Formed) :
    (s.putDone tf psn status detail).Formed := by
  unfold State.putDone
  split
  · exact h
  · exact .ite (.deliver (.countPut (.firePayload h))) (.ite (.refuse h) (.putOff h))

theorem getRead {s : State} {tf psn status detail : Nat} {bs : List Byte} (h : s.Formed) :
    (s.getRead tf psn status detail bs).Formed := by
  unfold State.getRead
  split
  · exact .ite (.deliver (.sendGetRsps h)) (.ite (.refuse h) (.ite (.refuse h) (.ite (.refuse h) (.putOff h))))
  · exact h

theorem getReadAgain {s : State} {tf : Nat} {p : Pkt} {status detail : Nat} {bs : List Byte} (h : s.Formed) :
    (s.getReadAgain tf p status detail bs).Formed := by
  unfold State.getReadAgain
  split
  · exact h
  · exact .ite (.sendGetRsps h) (.ite (.sendNack h) (.ite (.sendNack h) (.ite (.sendNack h) (.sendNack h))))

theorem atomPlaced {s : State} {tf psn status detail : Nat} {phys : Option Phys} {use : Option Nat} (h : s.Formed) :
    (s.atomPlaced tf psn status detail phys use).Formed := by
  unfold State.atomPlaced
  split
  · exact .endHeld h
  · split
    · exact .refuse (.endHeld h)
    · split
      · exact .putOff (.endHeld h)
      · split
        · extract_lets x r
          have hr : r.1.Formed := .hitchAtom (.endHeld h)
          exact .atomDone hr
        · exact .ite (.hostAtom h) (.refuse (.endHeld h))
        · exact .refuse (.endHeld h)

theorem recvDone {s : State} {tf psn m n status detail : Nat} (h : s.Formed) :
    (s.recvDone tf psn m n status detail).Formed := by
  unfold State.recvDone
  split
  · exact h
  · extract_lets s1
    have hs1 : s1.Formed := .putOff h
    exact .ite (.recvCheck (.modMe (.deliver (.firePayload h))))
      (.ite (.recvCheck (.modMe (.refuse h))) (.ite (.recvFails hs1) hs1))

theorem xferDone {s : State} {id : Nat} (h : s.Formed) : (s.xferDone id).Formed := by
  unfold State.xferDone
  split
  · exact h
  · extract_lets s1
    have hs1 : s1.Formed := .put h
    split
    · exact .srcDone hs1
    · exact .getDone hs1
    · extract_lets s2
      have hs2 : s2.Formed := .ite (.noteFail hs1) hs1
      exact .settleCmd (.modOp hs2)
    · exact .putDone hs1
    · exact .getRead hs1
    · exact .getReadAgain hs1
    · exact .atomPlaced hs1
    · exact .recvDone hs1
    · exact .recvCheck (.modMe hs1)
    · exact .collRead hs1
    · exact .collWrote hs1
    · exact .groomLoaded hs1
    · exact .groomStored hs1
    · exact .groomAtom hs1

theorem doTask {s : State} {a : Task} (h : s.Formed) : (s.doTask a).Formed := by
  unfold State.doTask
  split
  · exact .walkGoesOn h
  · exact .retryDue h
  · exact .lookup h
  · exact .access h
  · exact .xferDone h
  · exact .rxNew h

theorem settleN {a : Nat} {a1 : State} (h : a1.Formed) : (State.settleN a a1).Formed := by
  unfold State.settleN
  split
  · exact h
  · split
    · exact h
    · exact .settleN (.doTask (.put h))

theorem settle {s : State} (h : s.Formed) : s.settle.Formed := .settleN h

end State.Formed

end Sys2Proof.Machine
end

section
/-! PROOFS. EveryStepKeepsTheFormOfMemory: the commands of user, privileged and admin queues. -/

namespace Sys2Proof.Machine

-- The proofs are elaborated one after another: in parallel their threads' stacks need more memory than a compile may have.
set_option Elab.async false

namespace State.Formed

theorem inTurn {s : State} {id : Nat} {t2 : State} (h : s.Formed) (h2 : t2.Formed) : (s.inTurn id t2).Formed := by
  unfold State.inTurn
  split
  · exact .ite h2 h
  · exact h

theorem sendTurn {s : State} {o : Op} {t2 : State} (h : s.Formed) (h2 : t2.Formed) : (s.sendTurn o t2).Formed :=
  .ite h h2

theorem collTurn {s : State} {o : Op} {t2 : State} (h : s.Formed) (h2 : t2.Formed) : (s.collTurn o t2).Formed :=
  .ite h h2

theorem perform {s : State} {id : Nat} (h : s.Formed) : (s.perform id).Formed := .modOp h

theorem checked {s : State} {id opc : Nat} {bad : Op → Bool} {k : Op → State → State} (h : s.Formed)
    (hk : ∀ (a : Op) (a_1 : State), a_1.Formed → (k a a_1).Formed) : (s.checked id opc bad k).Formed := by
  unfold State.checked
  split
  · exact h
  · exact .ite (.done (.perform h)) (.ite (.done (.perform h)) (hk _ _ h))

theorem doNop {id : Nat} {s : State} (h : s.Formed) : (doNop id s).Formed :=
  .checked h (fun _ _ ht => .done (.perform ht))

theorem sendCmd {s : State} {id : Nat} {o : Op} {item : SendItem} {rndv : Bool} (h : s.Formed) :
    (s.sendCmd id o item rndv).Formed := by
  unfold State.sendCmd
  split
  · exact .done (.perform h)
  · refine .sendTurn h ?_
    split
    · exact h
    · rename_i he1
      exact .enqueue (.modOp (.perform (.ofSnd (.flowTo h) he1)))

theorem doPut {id : Nat} {s : State} (h : s.Formed) : (doPut id s).Formed := .checked h (fun _ _ ht => .sendCmd ht)

theorem doPutInline {id : Nat} {s : State} (h : s.Formed) : (doPutInline id s).Formed :=
  .checked h (fun _ _ ht => .sendCmd ht)

theorem doGet {id : Nat} {s : State} (h : s.Formed) : (doGet id s).Formed := .checked h (fun _ _ ht => .sendCmd ht)

theorem doSend {id : Nat} {s : State} (h : s.Formed) : (doSend id s).Formed :=
  .checked h (fun _ _ ht => .ite (.sendCmd ht) (.sendCmd ht))

theorem doSendInline {id : Nat} {s : State} (h : s.Formed) : (doSendInline id s).Formed :=
  .checked h (fun _ _ ht => .sendCmd ht)

theorem doAtomic {id : Nat} {s : State} (h : s.Formed) : (doAtomic id s).Formed :=
  .checked h (fun _ _ ht => .sendCmd ht)

theorem doRecvPost {id : Nat} {s : State} (h : s.Formed) : (doRecvPost id s).Formed :=
  .inTurn h (.checked h (fun _ _ ht => .ite (.postRecv (.perform ht)) ht))

theorem doProbe {id : Nat} {s : State} (h : s.Formed) : (doProbe id s).Formed :=
  .inTurn h (.checked h (fun _ _ ht => .probeEnds (.perform ht)))

theorem doColl {id : Nat} {s : State} (h : s.Formed) : (doColl id s).Formed :=
  .checked h (fun _ _ ht => .collTurn ht (.startColl (.perform ht)))

theorem doCtSet {id : Nat} {s : State} (h : s.Formed) : (doCtSet id s).Formed := by
  unfold Machine.doCtSet
  refine .checked h (fun _ _ ht => ?_)
  extract_lets s1
  have hs1 : s1.Formed := .perform ht
  exact .ite (.done (.ctPut hs1)) (.done hs1)

theorem doCtInc {id : Nat} {s : State} (h : s.Formed) : (doCtInc id s).Formed := by
  unfold Machine.doCtInc
  refine .checked h (fun _ _ ht => ?_)
  extract_lets s1
  have hs1 : s1.Formed := .perform ht
  exact .ite (.done (.ctAdd hs1)) (.done hs1)

theorem doTrig {id : Nat} {s : State} (h : s.Formed) : (doTrig id s).Formed := by
  unfold Machine.doTrig
  refine .checked h (fun _ _ ht => ?_)
  extract_lets s1 ct held slot t
  have hs1 : s1.Formed := .perform ht
  exact .ite (.done hs1) (.ite (.done hs1) (.ite (.done hs1) (.fireTrigs (.done (.put hs1)))))

theorem doEqArm {id : Nat} {s : State} (h : s.Formed) : (doEqArm id s).Formed := by
  unfold Machine.doEqArm
  refine .checked h (fun _ _ ht => ?_)
  extract_lets s1 w e seen
  have hs1 : s1.Formed := .perform ht
  split
  · extract_lets q pos now s2
    have hs2 : s2.Formed := .put hs1
    exact .ite (.done hs1) (.done (.ite (.sendIntr hs2) hs2))
  · exact .done hs1

theorem doInvalidate {id : Nat} {s : State} (h : s.Formed) : (doInvalidate id s).Formed := by
  unfold Machine.doInvalidate
  refine .checked h (fun _ _ ht => ?_)
  extract_lets s1 w d i
  have hs1 : s1.Formed := .perform ht
  exact .admitInvals (.put hs1)

theorem doInvalidateAck {st : Stall} {id : Nat} {s : State} (h : s.Formed) : (doInvalidateAck st id s).Formed :=
  .invalAck h

theorem binTake {s : State} {c n : Nat} (h : s.Formed) : (s.binTake c n).Formed := .wf h

theorem binGive {s : State} {c n : Nat} (h : s.Formed) : (s.binGive c n).Formed := .wf h

theorem installCtx {s : State} {id : Nat} {o : Op} (h : s.Formed) : (s.installCtx id o).Formed :=
  .ite (.done (.binTake (.ctxStore (.put h)))) (.done h)

theorem imageData {s : State} {id off status : Nat} {bs : List Byte} (h : s.Formed) :
    (s.imageData id off status bs).Formed := by
  unfold State.imageData
  split
  · exact h
  · extract_lets fill o s1
    have hs1 : s1.Formed := .put h
    exact .ite hs1 (.ite (.done hs1) (.installCtx hs1))

theorem doCtxCreate {id : Nat} {s : State} (h : s.Formed) : (doCtxCreate id s).Formed := by
  unfold Machine.doCtxCreate
  refine .checked h (fun _ _ ht => ?_)
  extract_lets s1 a ps s2
  have hs1 : s1.Formed := .perform ht
  have hs2 : s2.Formed := .modOp hs1
  exact .ite (.done hs1) (.ite (.done hs1) (.foldl (fun _ _ ht1 => .sendReq ht1) hs2))

theorem freeCtx {s : State} {c : Nat} (h : s.Formed) : (s.freeCtx c).Formed := by
  have htfl : ∀ u : State, u.Formed → ∀ x, State.Formed { u with tfl := x } := fun u hu _ => .put hu
  have hctx : ∀ u : State, u.Formed → ∀ x y, State.Formed { u with ctxs := x, grooms := y } := fun u hu _ _ => .put hu
  unfold State.freeCtx
  extract_lets bins s1 s2 s3 s4 s5 leave
  have hs1 : s1.Formed := .foldl (fun _ _ ht => .freeMe ht) h
  have hs2 : s2.Formed := .foldl (fun _ _ ht => .dropIfl ht) hs1
  have hs3 : s3.Formed := .foldl (fun _ _ ht => .uxGive (.flowGive (htfl _ (.dropAtoms ht) _))) hs2
  have hs4 : s4.Formed := .put hs3
  have hs5 : s5.Formed := .ctxStore (.binGive hs4)
  exact hctx _ hs5 _ _

theorem doCtxDestroy {id : Nat} {s : State} (h : s.Formed) : (doCtxDestroy id s).Formed := by
  unfold Machine.doCtxDestroy
  refine .checked h (fun _ _ ht => ?_)
  extract_lets s1 c
  have hs1 : s1.Formed := .perform ht
  exact .ite (.done hs1) (.ite (.done hs1) (.done (.freeCtx hs1)))

theorem doCqCreate {id : Nat} {s : State} (h : s.Formed) : (doCqCreate id s).Formed := by
  unfold Machine.doCqCreate
  refine .checked h (fun _ _ ht => ?_)
  extract_lets s1 w1 w3 q c fn k st base x
  have hs1 : s1.Formed := .perform ht
  exact .ite (.done hs1) (.done (.put hs1))

theorem abortTrapped {s : State} {q : Nat} (h : s.Formed) : (s.abortTrapped q).Formed :=
  .foldl (fun _ _ ht => .finishUse ht) h

theorem abortInError {s : State} {q : Nat} {c : Cq} (h : s.Formed) : (s.abortInError q c).Formed :=
  .ite (.abortTrapped h) h

theorem destroyCq {s : State} {q : Nat} {by_ : Option Nat} (h : s.Formed) : (s.destroyCq q by_).Formed := by
  unfold State.destroyCq
  split
  · exact h
  · extract_lets s1 s2 s3
    have hs1 : s1.Formed := .put h
    have hs2 : s2.Formed := .modCq hs1
    have hs3 : s3.Formed := .removePosted hs2
    exact .settleQueue (.abortInError hs3)

theorem doCqDestroy {id : Nat} {s : State} (h : s.Formed) : (doCqDestroy id s).Formed := by
  unfold Machine.doCqDestroy
  refine .checked h (fun _ _ ht => ?_)
  extract_lets q
  split
  · exact .done (.perform ht)
  · exact .ite (.done (.perform ht)) (.ite ht (.destroyCq (.perform ht)))

theorem doEqCreate {id : Nat} {s : State} (h : s.Formed) : (doEqCreate id s).Formed := by
  unfold Machine.doEqCreate
  refine .checked h (fun _ _ ht => ?_)
  extract_lets s1 w e base q
  have hs1 : s1.Formed := .perform ht
  exact .ite (.done hs1) (.done (.put hs1))

theorem doEqDestroy {id : Nat} {s : State} (h : s.Formed) : (doEqDestroy id s).Formed := by
  unfold Machine.doEqDestroy
  refine .checked h (fun _ _ ht => ?_)
  extract_lets s1 e
  have hs1 : s1.Formed := .perform ht
  exact .ite (.done hs1) (.ite (.done hs1) (.done (.put hs1)))

theorem cqAction {s : State} {d : Dom} {q : Nat} {states : List Nat} {k : Cq → State → State} (h : s.Formed)
    (hk : ∀ (a : Cq) (a_1 : State), a_1.Formed → (k a a_1).Formed) : (s.cqAction d q states k).Formed := by
  unfold State.cqAction
  split
  · exact hk _ _ h
  · exact .noteReserved h

theorem doCqStop {d : Dom} {q : BitVec 20} {s : State} (h : s.Formed) : (doCqStop d q s).Formed :=
  .cqAction h (fun _ _ ht => .modCq ht)

theorem doCqStart {d : Dom} {q : BitVec 20} {s : State} (h : s.Formed) : (doCqStart d q s).Formed :=
  .cqAction h (fun _ _ ht => .modCq ht)

theorem doCqResume {d : Dom} {q : BitVec 20} {s : State} (h : s.Formed) : (doCqResume d q s).Formed := by
  unfold Machine.doCqResume
  refine .cqAction h (fun _ _ ht => ?_)
  extract_lets us s1
  have hs1 : s1.Formed := .modCq ht
  exact .foldl (fun _ _ ht1 => .push (.modUse ht1)) hs1

theorem doCqAbort {d : Dom} {q : BitVec 20} {s : State} (h : s.Formed) : (doCqAbort d q s).Formed :=
  .cqAction h (fun _ _ ht => .abortTrapped (.modCq ht))

theorem flushHeader {s : State} {q : Nat} {c : Cq} {n : Nat} {w : Word} (h : s.Formed) :
    (s.flushHeader q c n w).Formed :=
  .writeCpl h

theorem flushStop {s : State} {q : Nat} (h : s.Formed) : (s.flushStop q).Formed := .modCq h

theorem flushOne {s : State} {q : Nat} {c : Cq} {n hi : Nat} {w : Word} (h : s.Formed) :
    (s.flushOne q c n hi w).Formed := .ite (.flushStop h) (.modCq (.flushHeader h))

theorem flushWalk {a : Nat} {a1 : State} {a2 : Nat} (h : a1.Formed) : (State.flushWalk a a1 a2).Formed := by
  unfold State.flushWalk
  split
  · exact h
  · split
    · exact h
    · split
      · exact h
      · split
        · exact .settleQueue h
        · split
          · exact .flushWalk (.flushStop h)
          · split
            · exact .flushWalk (.flushOne h)
            · exact .ite (.flushWalk (.flushStop h)) (.sendReq h)

theorem flushData {s : State} {q id status : Nat} {bs : List Byte} (h : s.Formed) :
    (s.flushData q id status bs).Formed := by
  unfold State.flushData
  split
  · exact h
  · split
    · exact h
    · split
      · exact h
      · extract_lets t
        have ht : t.Formed := .ite (.flushStop h) (.flushOne h)
        exact .ite h (.flushWalk ht)

theorem doCqFlush {d : Dom} {q : BitVec 20} {s : State} (h : s.Formed) : (doCqFlush d q s).Formed := by
  unfold Machine.doCqFlush
  refine .cqAction h (fun _ _ ht => ?_)
  extract_lets was f u s1 s2
  have hu : u.Formed := .modCq ht
  have hs1 : s1.Formed := .put hu
  have hs2 : s2.Formed := .abortInError hs1
  exact .ite (.flushWalk hs2) hs2

theorem doCqAdminWrite {h0 : HLink} {v : Word} {s : State} (h : s.Formed) : (doCqAdminWrite h0 v s).Formed := by
  unfold Machine.doCqAdminWrite
  extract_lets r old k base q x u
  have hu : u.Formed := .setReg h
  exact .ite (.noteReserved h) (.ite (.ite h (.destroyCq (.setReg h)))
    (.ite (.noteReserved h) (.ite (.setReg h) (.ite h (.put hu)))))

end State.Formed

end Sys2Proof.Machine
end

section
/-! PROOFS. EveryStepKeepsTheFormOfMemory: serial lanes. -/

namespace Sys2Proof.Machine

-- The proofs are elaborated one after another: in parallel their threads' stacks need more memory than a compile may have.
set_option Elab.async false

namespace State.Formed

theorem modLane {s : State} {n : LaneId} {f : Lane → Lane} (h : s.Formed) : (s.modLane n f).Formed := .put h

theorem setLane {s : State} {n : LaneId} {st : Nat} (h : s.Formed) : (s.setLane n st).Formed := by
  unfold State.setLane
  extract_lets s1
  have hs1 : s1.Formed := .wf h
  exact .ite hs1 (.wb hs1)

theorem setTaps {s : State} {n : LaneId} {pre post : Nat} (h : s.Formed) : (s.setTaps n pre post).Formed := .setReg h

theorem showEq {s : State} {n : LaneId} (h : s.Formed) : (s.showEq n).Formed := .wf (.wf h)

theorem adapt {s : State} {n : LaneId} (h : s.Formed) : (s.adapt n).Formed := .ite h (.showEq (.modLane (.free h)))

theorem adaptOn {s : State} {n : LaneId} (h : s.Formed) : (s.adaptOn n).Formed := .ite (.adapt h) h

theorem forcedTaps {s : State} {n : LaneId} (h : s.Formed) : (s.forcedTaps n).Formed := .ite (.setTaps h) h

theorem sendCodeword {s : State} {n : LaneId} {kind lane count : Nat} {data : List Byte} (h : s.Formed) :
    (s.sendCodeword n kind lane count data).Formed := .emit (.modLane h)

theorem sendFill {s : State} {n : LaneId} (h : s.Formed) : (s.sendFill n).Formed := .sendCodeword (.free h)

theorem sendGroups {s : State} {n : LaneId} {gs : List (BitVec 10)} (h : s.Formed) : (s.sendGroups n gs).Formed :=
  .emit (.modLane h)

theorem sendChars {s : State} {n : LaneId} {cs : List Char8} (h : s.Formed) : (s.sendChars n cs).Formed :=
  .sendGroups (.modLane h)

theorem sendPattern {s : State} {n : LaneId} (h : s.Formed) : (s.sendPattern n).Formed := by
  unfold State.sendPattern
  extract_lets s1
  have hs1 : s1.Formed := .modLane h
  exact .ite (.ite hs1 (.emit hs1)) h

theorem sendTraining {s : State} {n : LaneId} (h : s.Formed) : (s.sendTraining n).Formed := by
  unfold State.sendTraining
  split
  · exact h
  · split
    · extract_lets step v s1 x f sent line
      have hv : v.2.Formed := .free h
      have hs1 : s1.Formed := .ite (.modLane hv) h
      exact .emit (.modLane hs1)
    · extract_lets x
      exact .sendChars h

theorem unlock {s : State} {n : LaneId} (h : s.Formed) : (s.unlock n).Formed := .wf h

theorem beginAttempt {s : State} {n : LaneId} (h : s.Formed) : (s.beginAttempt n).Formed := by
  unfold State.beginAttempt
  extract_lets s1 s2 s3
  have hs1 : s1.Formed := .setLane (.unlock h)
  have hs2 : s2.Formed := .wf hs1
  have hs3 : s3.Formed := .modLane hs2
  exact .sendTraining (.forcedTaps (.setTaps hs3))

theorem trainLane {s : State} {n : LaneId} (h : s.Formed) : (s.trainLane n).Formed :=
  .ite (.beginAttempt (.modLane h)) (.setLane (.unlock h))

theorem trainLink {s : State} {l : LinkId} (h : s.Formed) : (s.trainLink l).Formed :=
  .foldl (fun _ _ ht => .trainLane ht) h

theorem checkerStops {s : State} {n : LaneId} (h : s.Formed) : (s.checkerStops n).Formed := .modLane (.wb h)

theorem lanesReturn {s : State} {l : LinkId} (h : s.Formed) : (s.lanesReturn l).Formed :=
  .foldl (fun _ _ ht => .checkerStops (.wb (.wf ht))) h

theorem laneOff {s : State} {n : LaneId} (h : s.Formed) : (s.laneOff n).Formed := by
  unfold State.laneOff
  extract_lets s1 s2
  have hs1 : s1.Formed := .wb (.ite (.forcedTaps h) h)
  have hs2 : s2.Formed := .ite (.checkerStops hs1) hs1
  exact .modLane (.setLane (.unlock hs2))

theorem laneTrainStart {s : State} {n : LaneId} (h : s.Formed) : (s.laneTrainStart n).Formed := .ite (.trainLane h) h

theorem doLaneTrainStart {p : Port} {l : Fin 4} {s : State} (h : s.Formed) : (doLaneTrainStart p l s).Formed :=
  .laneTrainStart h

theorem doHostLaneTrainStart {h0 : HLink} {l : Fin 16} {s : State} (h : s.Formed) :
    (doHostLaneTrainStart h0 l s).Formed :=
  .laneTrainStart h

theorem applyControl {s : State} {n : LaneId} {c : BitVec 16} (h : s.Formed) : (s.applyControl n c).Formed := by
  unfold State.applyControl
  extract_lets x seen s1 s2 k pre post a b
  have hs1 : s1.Formed := .modLane h
  have hs2 : s2.Formed := .ite (.wb hs1) hs1
  exact .ite hs2 (.ite (.setTaps hs2) (.modLane (.setTaps hs2)))

theorem applyStatus {s : State} {n : LaneId} {t2 : BitVec 16} (h : s.Formed) : (s.applyStatus n t2).Formed := by
  unfold State.applyStatus
  extract_lets s1 s2
  have hs1 : s1.Formed := .modLane h
  have hs2 : s2.Formed := .ite (.wb hs1) hs1
  exact .wf hs2

theorem sendNext {s : State} {n : LaneId} (h : s.Formed) : (s.sendNext n).Formed :=
  .ite h (.ite (.sendFill h) (.sendTraining h))

theorem trainingIn {s : State} {n : LaneId} {control status : BitVec 16} {last : BitVec 2} (h : s.Formed) :
    (s.trainingIn n control status last).Formed := by
  unfold State.trainingIn
  extract_lets s1 s2 s3
  have hs1 : s1.Formed := .modLane h
  have hs2 : s2.Formed := .ite (.applyControl hs1) (.modLane hs1)
  have hs3 : s3.Formed := .ite (.applyStatus hs2) (.modLane hs2)
  exact .ite hs1 (.sendNext hs3)

theorem laneActive {s : State} {n : LaneId} (h : s.Formed) : (s.laneActive n).Formed := by
  unfold State.laneActive
  extract_lets s1 s2 s3
  have hs1 : s1.Formed := .forcedTaps (.wf h)
  have hs2 : s2.Formed := .wf (.setLane hs1)
  have hs3 : s3.Formed := .wb hs2
  exact .modLane hs3

theorem doLaneTrainStep {p : Port} {l : Fin 4} {inverted : Bool} {s : State} (h : s.Formed) :
    (doLaneTrainStep p l inverted s).Formed := by
  unfold Machine.doLaneTrainStep
  extract_lets n x go v
  split
  · exact h
  · have hgo : ∀ x0 x1, x1.Formed → State.Formed (go x0 x1) := fun _ _ ht => .sendNext (.modLane ht)
    split
    · exact hgo _ _ (.wb (.wf h))
    · have hv : v.2.Formed := .free h
      exact hgo _ _ (.modLane hv)
    · exact .ite (hgo _ _ h) h
    · exact hgo _ _ (.wb (.modLane (.adapt h)))
    · exact .ite (.laneActive h) h
    · exact h

theorem trainingSetIn {s : State} {n : LaneId} {laneByte request status : BitVec 8} (h : s.Formed) :
    (s.trainingSetIn n laneByte request status).Formed := by
  unfold State.trainingSetIn
  extract_lets cs s1 force k s2 s3
  have hs1 : s1.Formed := .modLane h
  have hs2 : s2.Formed := .ite hs1 (.setTaps hs1)
  have hs3 : s3.Formed := .modLane hs2
  exact .ite hs1 (.sendTraining (.wf hs3))

theorem doHostLaneTrainStep {h0 : HLink} {l : Fin 16} {inverted : Bool} {s : State} (h : s.Formed) :
    (doHostLaneTrainStep h0 l inverted s).Formed := by
  unfold Machine.doHostLaneTrainStep
  extract_lets n x go bothReady v
  split
  · exact h
  · have hgo : ∀ x0 x1, x1.Formed → State.Formed (go x0 x1) := fun _ _ ht => .sendTraining (.modLane ht)
    split
    · exact hgo _ _ (.wb (.wf h))
    · have hv : v.2.Formed := .free (.adapt h)
      exact .ite h (hgo _ _ (.wb (.modLane hv)))
    · exact .ite (.laneActive (.ite h (.sendChars h))) h
    · exact h

theorem doTrainAttemptTimeout {n : LaneId} {s : State} (h : s.Formed) : (doTrainAttemptTimeout n s).Formed :=
  .ite h (.ite (.fault (.modLane (.wb (.setLane (.forcedTaps h))))) (.beginAttempt (.modLane h)))

theorem laneHold {s : State} {n : LaneId} (h : s.Formed) : (s.laneHold n).Formed := .modLane (.setLane h)

theorem sendBurst {s : State} {n : LaneId} (h : s.Formed) : (s.sendBurst n).Formed := by
  unfold State.sendBurst
  extract_lets s1 x b sent line
  have hs1 : s1.Formed := .modLane h
  split
  · exact .emit (.modLane hs1)
  · exact .sendChars hs1

theorem laneReturn {s : State} {n : LaneId} (h : s.Formed) : (s.laneReturn n).Formed := by
  unfold State.laneReturn
  extract_lets s1
  have hs1 : s1.Formed := .wf h
  exact .ite (.setLane hs1) (.sendPattern (.setLane hs1))

theorem laneExit {s : State} {n : LaneId} (h : s.Formed) : (s.laneExit n).Formed := by
  unfold State.laneExit
  extract_lets s1
  have hs1 : s1.Formed := .sendBurst h
  exact .ite hs1 (.laneReturn hs1)

theorem laneHears {s : State} {n : LaneId} (h : s.Formed) : (s.laneHears n).Formed := by
  unfold State.laneHears
  extract_lets s1
  have hs1 : s1.Formed := .modLane (.wf h)
  exact .ite hs1 (.laneReturn hs1)

theorem testState {s : State} {n : LaneId} (h : s.Formed) : (s.testState n).Formed :=
  .ite h (.ite h (.ite (.setLane h) (.ite (.setLane h) h)))

theorem noteErrors {s : State} {n : LaneId} {k : Nat} (h : s.Formed) : (s.noteErrors n k).Formed := by
  unfold State.noteErrors
  extract_lets s1 keep corr s2 limit
  have hs1 : s1.Formed := .bump h
  have hs2 : s2.Formed := .modLane hs1
  exact .ite h (.ite (.fault (.wb hs2)) hs2)

theorem injectBits {s : State} {n : LaneId} (h : s.Formed) : (s.injectBits n).Formed := .emit (.modLane h)

theorem doInjectBurst {n : LaneId} {s : State} (h : s.Formed) : (doInjectBurst n s).Formed :=
  .ite (.injectBits (.modLane h)) h

theorem doInjectNow {n : LaneId} {s : State} (h : s.Formed) : (doInjectNow n s).Formed := .ite (.injectBits h) h

theorem doMarginScanStart {n : LaneId} {s : State} (h : s.Formed) : (doMarginScanStart n s).Formed := by
  unfold Machine.doMarginScanStart
  extract_lets st r s1
  have hs1 : s1.Formed := .wb h
  exact .ite h (.ite (.modLane (.wb hs1)) hs1)

theorem doMarginScanEnd {n : LaneId} {dis : BitVec 32} {s : State} (h : s.Formed) :
    (doMarginScanEnd n dis s).Formed := .ite h (.ite h (.wf (.wb (.wb h))))

theorem doLaneEyeRefresh {n : LaneId} {eye : BitVec 48} {s : State} (h : s.Formed) :
    (doLaneEyeRefresh n eye s).Formed := by
  unfold Machine.doLaneEyeRefresh
  extract_lets due s1
  have hs1 : s1.Formed := .ite (.modLane h) h
  exact .ite hs1 (.ite (.setReg hs1) (.setReg hs1))

theorem doCheckerSynchronised {n : LaneId} {bits : BitVec 256} {s : State} (h : s.Formed) :
    (doCheckerSynchronised n bits s).Formed := .ite (.modLane (.wb h)) h

theorem errcntRead {s : State} {n : LaneId} (h : s.Formed) : (s.errcntRead n).2.Formed := by
  unfold State.errcntRead
  extract_lets bits top v errs s1 s2 s3
  have hv : v.2.Formed := by
    unfold v
    split
    · exact h
    · exact .free h
  have hs1 : s1.Formed := hv
  have hs2 : s2.Formed := .setReg hs1
  exact .modLane hs2

theorem doLaneErrcntRead {n : LaneId} {s : State} (h : s.Formed) : (doLaneErrcntRead n s).Formed := .errcntRead h

end State.Formed

end Sys2Proof.Machine
end

section
/-! PROOFS. EveryStepKeepsTheFormOfMemory: the link layer of a network port. -/

namespace Sys2Proof.Machine

-- The proofs are elaborated one after another: in parallel their threads' stacks need more memory than a compile may have.
set_option Elab.async false

namespace State.Formed

theorem modPort {s : State} {p : Port} {f : PortSt → PortSt} (h : s.Formed) : (s.modPort p f).Formed := .put h

theorem setLink {s : State} {l : LinkId} {st : Nat} (h : s.Formed) : (s.setLink l st).Formed := .wf h

theorem showWidth {s : State} {l : LinkId} {w : Nat} (h : s.Formed) : (s.showWidth l w).Formed := .wf h

theorem sendStretch {s : State} {p : Port} {bs : List Byte} (h : s.Formed) : (s.sendStretch p bs).Formed :=
  .modPort (.foldl (fun _ _ ht => .ite ht (.sendCodeword ht)) h)

theorem putBytes {s : State} {p : Port} {bs : List Byte} (h : s.Formed) : (s.putBytes p bs).Formed :=
  .ite (.modPort h) (.sendStretch (.modPort h))

theorem sendFrame {s : State} {p : Port} {kind next vc seq : Nat} {flits : List (BitVec 512)} (h : s.Formed) :
    (s.sendFrame p kind next vc seq flits).Formed := .putBytes (.emit (.modPort h))

theorem sendIdle {s : State} {p : Port} {next : Nat} (h : s.Formed) : (s.sendIdle p next).Formed := .sendFrame h

theorem fillTo {a : Nat} {a1 : State} {a2 : Port} {a3 : Nat} (h : a1.Formed) : (State.fillTo a a1 a2 a3).Formed := by
  unfold State.fillTo
  split
  · exact h
  · split
    · exact .ite (.fillTo (.sendIdle h)) h
    · exact h

theorem sendPortNotice {a : Nat} {a1 : State} {a2 : Port} {a3 : Nat} (h : a1.Formed) :
    (State.sendPortNotice a a1 a2 a3).Formed := by
  unfold State.sendPortNotice
  split
  · exact .sendIdle h
  · extract_lets x
    exact .ite (.sendIdle h) (.sendPortNotice (.sendIdle h))

theorem sendNak {s : State} {p : Port} (h : s.Formed) : (s.sendNak p).Formed := by
  unfold State.sendNak
  extract_lets s1
  have hs1 : s1.Formed := .modPort h
  exact .ite (.bump (.sendFrame hs1)) hs1

theorem wantNak {s : State} {p : Port} (h : s.Formed) : (s.wantNak p).Formed := .ite h (.sendNak h)

theorem sendAnnounced {s : State} {p : Port} {kind vc seq : Nat} {flits : List (BitVec 512)} (h : s.Formed) :
    (s.sendAnnounced p kind vc seq flits).Formed :=
  .sendFrame (.sendIdle (.fillTo h))

theorem sendData {s : State} {p : Port} {poison : Bool} {vc : Nat} {flits : List (BitVec 512)} (h : s.Formed) :
    (s.sendData p poison vc flits).Formed := .modPort (.sendAnnounced h)

theorem laneIdle {s : State} {n : LaneId} (h : s.Formed) : (s.laneIdle n).Formed := by
  unfold State.laneIdle
  extract_lets s1
  have hs1 : s1.Formed := by
    unfold s1
    split
    · extract_lets x
      split
      · exact .sendCodeword h
      · exact h
    · exact .sendChars h
  exact .laneHold hs1

theorem lanesExit {s : State} {l : LinkId} (h : s.Formed) : (s.lanesExit l).Formed := by
  unfold State.lanesExit
  refine .foldl (fun _ _ ht => ?_) h
  extract_lets t1
  have ht1 : t1.Formed := .ite (.laneIdle ht) ht
  exact .ite (.setLane ht1) ht1

theorem noteRetrain {s : State} {l : LinkId} {times : List Nat} (h : s.Formed) : (s.noteRetrain l times).Formed := by
  unfold State.noteRetrain
  extract_lets s1
  have hs1 : s1.Formed := .bump h
  exact .ite (.fault hs1) hs1

theorem portRetrainAgain {s : State} {p : Port} (h : s.Formed) : (s.portRetrainAgain p).Formed := by
  unfold State.portRetrainAgain
  split
  · extract_lets s1
    have hs1 : s1.Formed := .ite (.sendPortNotice h) h
    exact .lanesExit (.modPort hs1)
  · exact h

theorem retrainPort {s : State} {p : Port} (h : s.Formed) : (s.retrainPort p).Formed := by
  unfold State.retrainPort
  extract_lets st s1 times r s2
  have hs1 : s1.Formed := .ite (.sendPortNotice h) h
  have hs2 : s2.Formed := .modPort hs1
  exact .ite (.portRetrainAgain h) (.ite h (.lanesExit (.setLink (.noteRetrain hs2))))

theorem startReplay {s : State} {p : Port} {from_ : Nat} {counts : Bool} (h : s.Formed) :
    (s.startReplay p from_ counts).Formed := by
  unfold State.startReplay
  split
  · exact h
  · extract_lets oldest n s1 s2
    have hs1 : s1.Formed := .bump h
    have hs2 : s2.Formed := .modPort hs1
    exact .ite (.retrainPort hs2) hs2

theorem resumePort {s : State} {p : Port} (h : s.Formed) : (s.resumePort p).Formed := by
  unfold State.resumePort
  split
  · exact h
  · extract_lets use s1
    have hs1 : s1.Formed := .modPort h
    exact .ite h (.sendIdle (.showWidth hs1))

theorem releaseAcked {s : State} {p : Port} {ack : Nat} (h : s.Formed) : (s.releaseAcked p ack).Formed := .modPort h

theorem takeSrc {s : State} {k n : Nat} (h : s.Formed) : (s.takeSrc k n).Formed := .ite (.modPort h) (.put h)

theorem putHead {s : State} {k : Nat} {f : Flit} (h : s.Formed) : (s.putHead k f).Formed := .ite (.modPort h) (.put h)

theorem pump {s : State} {k : Nat} (h : s.Formed) : (s.pump k).Formed := by
  unfold State.pump
  split
  · exact h
  · split
    · exact h
    · extract_lets fs s1 left got s2
      have hs1 : s1.Formed := .takeSrc h
      have hs2 : s2.Formed := .put hs1
      exact .ite (.ite (.put hs2) hs2) (.put hs1)

theorem lanesStop {s : State} {l : LinkId} (h : s.Formed) : (s.lanesStop l).Formed :=
  .foldl (fun _ _ ht => .ite ht (.laneOff ht)) h

theorem dropWorms {s : State} {p : Port} (h : s.Formed) : (s.dropWorms p).Formed := by
  unfold State.dropWorms
  extract_lets held s1 s2
  have hs1 : s1.Formed := .bump h
  have hs2 : s2.Formed := by
    unfold s2
    refine .foldl (fun _ _ ht => ?_) hs1
    split
    · exact .pump (.put ht)
    · exact ht
  exact .modPort hs2

theorem fillWorms {s : State} {p : Port} (h : s.Formed) : (s.fillWorms p).Formed := by
  unfold State.fillWorms
  refine .foldl (fun _ _ ht => ?_) h
  extract_lets k n s1
  have hs1 : s1.Formed := .modPort ht
  exact .ite (.modPort ht) (.ite ht (.pump (.bump hs1)))

theorem stopPort {s : State} {p : Port} {st : Nat} (h : s.Formed) : (s.stopPort p st).Formed := by
  unfold State.stopPort
  extract_lets s1 s2 s3
  have hs1 : s1.Formed := .dropWorms (.lanesStop h)
  have hs2 : s2.Formed := .modPort (.fillWorms hs1)
  have hs3 : s3.Formed := .wf (.wf (.showWidth hs2))
  exact .setLink hs3

theorem trainPort {s : State} {p : Port} (h : s.Formed) : (s.trainPort p).Formed := .trainLink (.setLink (.modPort h))

theorem fencePort {s : State} {p : Port} {unit : Nat} (h : s.Formed) : (s.fencePort p unit).Formed := by
  unfold State.fencePort
  extract_lets st s1 s2
  have hs1 : s1.Formed := .wb (.stopPort h)
  have hs2 : s2.Formed := .fault hs1
  exact .ite h (.ite (.trainPort hs2) hs2)

theorem doPortDisable {p : Port} {s : State} (h : s.Formed) : (doPortDisable p s).Formed := by
  unfold Machine.doPortDisable
  extract_lets s1
  have hs1 : s1.Formed := .wb h
  exact .ite hs1 (.stopPort hs1)

theorem enablePort {s : State} {p : Port} (h : s.Formed) : (s.enablePort p).Formed := by
  unfold State.enablePort
  extract_lets s1 s2 s3
  have hs1 : s1.Formed := .wb h
  have hs2 : s2.Formed := .lanesReturn hs1
  have hs3 : s3.Formed := .trainPort hs2
  exact .ite (.fencePort hs3) hs3

theorem acceptFlits {s : State} {p : Port} {v : Nat} {fs : List Flit} (h : s.Formed) :
    (s.acceptFlits p v fs).Formed := by
  unfold State.acceptFlits
  extract_lets quar s1
  have hs1 : s1.Formed := .pm h
  exact .ite (.bump (.modPort h)) (.ite (.modPort hs1) (.pump (.modPort hs1)))

theorem noteEpoch {s : State} {e : Nat} (h : s.Formed) : (s.noteEpoch e).Formed := .ite (.put h) h

theorem queueHello {s : State} {p : Port} (h : s.Formed) : (s.queueHello p).Formed := .modPort h

theorem quarantine {s : State} {p : Port} {reason : Nat} (h : s.Formed) : (s.quarantine p reason).Formed :=
  .fault (.modPort (.wb (.setLink h)))

theorem judge {s : State} {p : Port} (h : s.Formed) : (s.judge p).Formed := by
  unfold State.judge
  extract_lets st ready
  split
  · exact h
  · extract_lets why s1
    have hs1 : s1.Formed := .wf h
    exact .ite (.modPort h) (.ite h (.ite (.ite hs1 (.wb (.setLink hs1))) (.ite hs1 (.wb (.quarantine hs1)))))

theorem endRetrain {s : State} {p : Port} {ack : Nat} (h : s.Formed) : (s.endRetrain p ack).Formed := by
  unfold State.endRetrain
  split
  · exact h
  · extract_lets s1 again s2 s3 s4 s5
    have hs1 : s1.Formed := .releaseAcked h
    have hs2 : s2.Formed := .setLink (.modPort hs1)
    have hs3 : s3.Formed := .wb hs2
    have hs4 : s4.Formed := .ite (.wb hs3) hs3
    have hs5 : s5.Formed := .startReplay hs4
    exact .ite (.judge hs5) hs5

theorem doHelloReceived {p : Port} {s : State} (h : s.Formed) : (doHelloReceived p s).Formed := by
  unfold Machine.doHelloReceived
  extract_lets st
  split
  · exact h
  · extract_lets s1 s2 s3 s4 s5
    have hs1 : s1.Formed := .modPort h
    have hs2 : s2.Formed := .modPort hs1
    have hs3 : s3.Formed := .setReg hs2
    have hs4 : s4.Formed := .setReg hs3
    have hs5 : s5.Formed := .setReg (.setReg hs4)
    exact .ite h (.ite (.fault hs1) (.judge (.noteEpoch hs5)))

theorem takeFrame {s : State} {p : Port} {t2 : BitVec 128} {flits : List (BitVec 512)} (h : s.Formed) :
    (s.takeFrame p t2 flits).Formed := by
  unfold State.takeFrame
  extract_lets x seq s1
  have hs1 : s1.Formed := .modPort h
  exact .ite (.ite (.modPort hs1) (.acceptFlits hs1)) (.ite (.bump h) (.wantNak h))

theorem judgeUp {s : State} {p : Port} (h : s.Formed) : (s.judgeUp p).Formed := .ite (.judge h) h

theorem goodFrame {s : State} {p : Port} {t2 : BitVec 128} {flits : List (BitVec 512)} (h : s.Formed) :
    (s.goodFrame p t2 flits).Formed := by
  unfold State.goodFrame
  extract_lets kind ack ends s1 s2 s3 s4 s5
  have hs1 : s1.Formed := .modPort h
  have hs2 : s2.Formed := .ite (.endRetrain hs1) (.releaseAcked hs1)
  have hs3 : s3.Formed := .judgeUp hs2
  have hs4 : s4.Formed := .ite (.startReplay hs3) hs3
  have hs5 : s5.Formed := .ite (.takeFrame hs4) (.ite (.wantNak hs4) hs4)
  split
  · exact .modPort hs5
  · exact .retrainPort hs5
  · exact hs5

theorem frameIn {s : State} {p : Port} {aligned : Bool} {t3 : BitVec 128} {flits : List (BitVec 512)} {erred : Bool}
    (h : s.Formed) : (s.frameIn p aligned t3 flits erred).Formed := by
  unfold State.frameIn
  extract_lets x expect
  have hexpect : ∀ x0 x1, x0.Formed → State.Formed (expect x0 x1) := fun _ _ ht => .modPort ht
  exact .ite h (.ite (.wantNak (hexpect _ _ (.bump h))) (.ite (.retrainPort (hexpect _ _ h))
    (.goodFrame (hexpect _ _ h))))

theorem doFrameReceived {p : Port} {aligned : Bool} {t2 : BitVec 128} {flits : List (BitVec 512)} {erred : Bool}
    {s : State} (h : s.Formed) : (doFrameReceived p aligned t2 flits erred s).Formed :=
  .frameIn h

theorem parseFrames {a : Nat} {a1 : State} {a2 : Port} {a3 : Bool} (h : a1.Formed) :
    (State.parseFrames a a1 a2 a3).Formed := by
  unfold State.parseFrames
  split
  · exact h
  · split
    · exact .modPort h
    · extract_lets len bs b flits s
      have hs : s.Formed := .modPort h
      exact .ite h (.parseFrames (.frameIn hs))

theorem takeStretch {s : State} {p : Port} {count : Nat} {bs : List (Byte × Bool)} (h : s.Formed) :
    (s.takeStretch p count bs).Formed := .parseFrames (.modPort h)

theorem deskew {a : Nat} {a1 : State} {a2 : Port} (h : a1.Formed) : (State.deskew a a1 a2).Formed := by
  unfold State.deskew
  split
  · exact h
  · extract_lets q lanes heads late all next s s1
    have hs : s.Formed := .modPort h
    have hs1 : s1.Formed := .ite (.takeStretch hs) hs
    exact .ite h (.deskew hs1)

theorem deskewAll {s : State} {p : Port} (h : s.Formed) : (s.deskewAll p).Formed := .deskew h

theorem portLaneLost {s : State} {p : Port} {l : Nat} (h : s.Formed) : (s.portLaneLost p l).Formed := by
  unfold State.portLaneLost
  extract_lets n s1
  split
  · exact h
  · have hs1 : s1.Formed := .wf h
    split
    · exact .portRetrainAgain hs1
    · exact .retrainPort hs1

theorem noteCodeword {s : State} {n : LaneId} {c : RxCw} (h : s.Formed) : (s.noteCodeword n c).Formed :=
  .ite (.bump h) (.noteErrors h)

theorem loopOn {s : State} {n : LaneId} {decoded : Bool} {line : LineBits} {bits : Nat} (h : s.Formed) :
    (s.loopOn n decoded line bits).Formed := .ite h (.emit (.modLane h))

theorem doCodewordReceived {p : Port} {l : Fin 4} {line : LineBits} {s : State} (h : s.Formed) :
    (doCodewordReceived p l line s).Formed := by
  unfold Machine.doCodewordReceived
  extract_lets n st x loop i c s1 s2 kind count s3 s4 s5 k s6 s7
  have hs1 : s1.Formed := .modLane h
  have hs2 : s2.Formed := .noteCodeword hs1
  have hs3 : s3.Formed := .ite hs2 (.wf hs2)
  have hs4 : s4.Formed := .ite (.wb hs3) hs3
  have hs5 : s5.Formed := .modLane hs4
  have hs6 : s6.Formed := .modLane hs2
  have hs7 : s7.Formed := .ite (.setLane hs6) hs6
  exact .ite h (.ite (.loopOn h) (.ite (.loopOn (.noteCodeword hs1))
    (.ite hs1 (.ite (.ite (.deskewAll (.modPort hs5)) hs5) (.ite hs2
      (.ite (.ite hs7 (.retrainPort hs7)) (.ite (.portLaneLost hs2) hs2)))))))

theorem portNakRepeat {s : State} {p : Port} (h : s.Formed) : (s.portNakRepeat p).Formed := by
  unfold State.portNakRepeat
  split
  · exact .ite (.sendNak h) h
  · exact h

theorem portReplayTimeout {s : State} {p : Port} (h : s.Formed) : (s.portReplayTimeout p).Formed := by
  unfold State.portReplayTimeout
  split
  · exact .ite (.startReplay h) h
  · exact h

theorem portLinkUp {s : State} {p : Port} (h : s.Formed) : (s.portLinkUp p).Formed := by
  unfold State.portLinkUp
  extract_lets use s1 s2
  have hs1 : s1.Formed := .modPort h
  have hs2 : s2.Formed := .wb (.setLink (.showWidth hs1))
  exact .ite (.queueHello hs2) h

theorem portHelloTimeout {s : State} {p : Port} (h : s.Formed) : (s.portHelloTimeout p).Formed :=
  .ite (.trainPort (.showWidth (.modPort h))) h

theorem doQuarantineHello {p : Port} {s : State} (h : s.Formed) : (doQuarantineHello p s).Formed :=
  .ite (.queueHello (.modPort h)) h

theorem doLlRehello {p : Port} {s : State} (h : s.Formed) : (doLlRehello p s).Formed :=
  .ite h (.ite (.judge (.queueHello (.wb h))) h)

theorem portLaneDrop {s : State} {p : Port} {l : Fin 4} (h : s.Formed) : (s.portLaneDrop p l).Formed := by
  unfold State.portLaneDrop
  split
  · exact .ite (.resumePort (.trainLane h)) h
  · exact h

theorem portRetrainRepeat {s : State} {p : Port} (h : s.Formed) : (s.portRetrainRepeat p).Formed := by
  unfold State.portRetrainRepeat
  split
  · exact .ite (.portRetrainAgain h) h
  · exact h

theorem portWindow {s : State} {p : Port} (h : s.Formed) : (s.portWindow p).Formed := by
  unfold State.portWindow
  split
  · exact .ite (.fencePort h) h
  · exact h

theorem portTrigger {s : State} {p : Port} {a : RetrainTrigger} (h : s.Formed) : (s.portTrigger p a).Formed := by
  unfold State.portTrigger
  split
  · exact .portLaneLost h
  · exact .retrainPort h
  · exact .retrainPort h
  · exact .ite (.retrainPort h) h

theorem portRetrainWrite {s : State} {p : Port} (h : s.Formed) : (s.portRetrainWrite p).Formed :=
  .ite h (.ite (.trainPort (.wb h)) (.ite (.retrainPort (.wb h)) h))

theorem portIdle {s : State} {p : Port} (h : s.Formed) : (s.portIdle p).Formed :=
  .ite (.modPort (.sendPortNotice h)) h

theorem doElectricalIdleEntry {p : Port} {l : Fin 4} {s : State} (h : s.Formed) :
    (doElectricalIdleEntry p l s).Formed := .ite (.laneIdle h)
      (.ite (.laneIdle h) (.ite (.laneHold h) (.ite (.resumePort (.ite (.setLane h) (.laneIdle h)))
        (.ite (.modLane h) h))))

theorem portExited {s : State} {p : Port} (h : s.Formed) : (s.portExited p).Formed :=
  .ite (.resumePort h) (.ite h (.modPort h))

theorem doFastExit {p : Port} {l : Fin 4} {s : State} (h : s.Formed) : (doFastExit p l s).Formed :=
  .ite (.portExited (.laneExit h)) h

theorem doFastExitBurstReceived {p : Port} {burst : BurstEnd} {s : State} (h : s.Formed) :
    (doFastExitBurstReceived p burst s).Formed := .ite h (.portExited (.laneHears (.modLane (.modPort h))))

theorem doTrainingFrame {p : Port} {l : Fin 4} {control : BitVec 16} {rest : FrameEnd} {s : State} (h : s.Formed) :
    (doTrainingFrame p l control rest s).Formed := by
  unfold Machine.doTrainingFrame
  extract_lets n s1
  have hs1 : s1.Formed := .trainLane h
  exact .ite (.trainingIn h) (.ite (.ite (.resumePort hs1) (.portLaneLost hs1)) h)

theorem laneForgiven {s : State} {n : LaneId} (h : s.Formed) : (s.laneForgiven n).Formed :=
  .ite (.testState (.modLane (.setLane h))) h

theorem netLaneRetrain {s : State} {p : Port} {l : Fin 4} (h : s.Formed) : (s.netLaneRetrain p l).Formed :=
  .ite h (.ite (.laneForgiven h) (.portLaneLost (.wb (.trainLane h))))

end State.Formed

end Sys2Proof.Machine
end

section
/-! PROOFS. EveryStepKeepsTheFormOfMemory: routing, network time and egress. -/

namespace Sys2Proof.Machine

-- The proofs are elaborated one after another: in parallel their threads' stacks need more memory than a compile may have.
set_option Elab.async false

namespace State.Formed

theorem beginWorm {s : State} {k len : Nat} {d : WormDest} (h : s.Formed) : (s.beginWorm k len d).Formed :=
  .pump (.put h)

theorem badHeader {s : State} {p : Port} {vc : Nat} (h : s.Formed) : (s.badHeader p vc).Formed := by
  unfold State.badHeader
  extract_lets st s1 s2
  have hs1 : s1.Formed := .fault (.bump h)
  have hs2 : s2.Formed := .modPort hs1
  exact .fencePort (.put hs2)

theorem commit {s : State} {k : Nat} {c : Cand} {f : Flit} {h4 : BitVec 512} (h : s.Formed) :
    (s.commit k c f h4).Formed := by
  unfold State.commit
  extract_lets len s1 s2
  have hs1 : s1.Formed := .putHead h
  have hs2 : s2.Formed := .put hs1
  exact .modPort hs2

theorem routeHead {s : State} {src : RouteSrc} {vc : VC} {f : Flit} (h : s.Formed) :
    (s.routeHead src vc f).Formed := by
  unfold State.routeHead
  extract_lets k st h1 len r s1 note wait
  split
  · exact .badHeader h
  · have hs1 : s1.Formed := .ite (.putHead (.bump h)) h
    have hnote : ∀ x0 x1 x2, State.Formed (note x0 x1 x2) := fun _ _ _  => .beginWorm (.fault (.bump hs1))
    have hwait : wait.Formed := .ite hs1 (.put hs1)
    split
    · exact .beginWorm hs1
    · exact hnote _ _ _
    · exact hwait
    · exact .ite hwait (.commit hs1)
    · exact hnote _ _ _

theorem doRouteHeader {src : RouteSrc} {vc : VC} {s : State} (h : s.Formed) : (doRouteHeader src vc s).Formed := by
  unfold Machine.doRouteHeader
  split
  · exact .ite h (.routeHead h)
  · exact h

theorem doHeaderReevaluate {src : RouteSrc} {vc : VC} {s : State} (h : s.Formed) :
    (doHeaderReevaluate src vc s).Formed := by
  unfold Machine.doHeaderReevaluate
  split
  · exact .ite (.routeHead h) h
  · exact h

theorem doBeaconSend {p : Port} {s : State} (h : s.Formed) : (doBeaconSend p s).Formed := .ite (.modPort h) h

theorem doBeaconReceive {p : Port} {s : State} (h : s.Formed) : (doBeaconReceive p s).Formed := by
  unfold Machine.doBeaconReceive
  split
  · exact .modPort (.takeSrc h)
  · exact h

theorem doBeaconExpiry {p : Port} {s : State} (h : s.Formed) : (doBeaconExpiry p s).Formed := by
  unfold Machine.doBeaconExpiry
  split
  · exact .ite (.modPort h) h
  · exact h

theorem stepNt {s : State} {nt : BitVec 64} (h : s.Formed) : (s.stepNt nt).Formed := .fault (.wb (.put h))

theorem filterTheta {s : State} {th : Int} (h : s.Formed) : (s.filterTheta th).2.Formed := by
  unfold State.filterTheta
  extract_lets ts lo hi
  split
  · rename_i he
    exact .ofSnd (.free (.put h)) he

theorem steer {s : State} {th : Int} (h : s.Formed) : (s.steer th).Formed := by
  unfold State.steer
  split
  · rename_i he
    split
    · rename_i he1
      extract_lets m r
      exact .setReg (.ofSnd (.free (.ofSnd (.filterTheta h) he)) he1)

theorem noteGood {s : State} (h : s.Formed) : s.noteGood.Formed := .ite (.put h) (.ite (.put h) h)

theorem chooseParent {s : State} (h : s.Formed) : s.chooseParent.Formed := by
  have hput : ∀ u : State, u.Formed → ∀ x, State.Formed { u with holdSince := x } := fun u hu _ => .put hu
  unfold State.chooseParent
  extract_lets pick s1
  have hs1 : s1.Formed := .wb (.wf h)
  clear_value pick
  split
  · exact h
  · split
    · extract_lets s2 s3 s4
      have hs4 : s4.Formed := .wb (.wf (.wf (.ite (.put h) h)))
      exact hput _ hs4 _
    · exact .ite hs1 (hput _ hs1 _)

theorem doTimeSyncSend {p : Port} {s : State} (h : s.Formed) : (doTimeSyncSend p s).Formed := .ite (.modPort h) h

theorem follow {s : State} {r : SyncRx} {th : Int} (h : s.Formed) : (s.follow r th).Formed :=
  .ite (.steer (.stepNt (.ite (.wb (.wf h)) h))) (.steer h)

theorem doTimeSyncReceive {p : Port} {s : State} (h : s.Formed) : (doTimeSyncReceive p s).Formed := by
  unfold Machine.doTimeSyncReceive
  split
  · exact h
  · extract_lets th r s1 s2 s3
    have hs3 : s3.Formed := by
      unfold s3
      have hs1 : s1.Formed := .modPort (.takeSrc h)
      have hs2 : s2.Formed := .chooseParent (.noteEpoch hs1)
      split
      · exact .ite (.follow hs2) hs2
      · exact hs2
    exact .noteGood hs3

theorem doTimeCandidateExpiry {p : Port} {s : State} (h : s.Formed) : (doTimeCandidateExpiry p s).Formed := by
  unfold Machine.doTimeCandidateExpiry
  split
  · exact .ite (.noteGood (.chooseParent h)) h
  · exact h

theorem seed {s : State} (h : s.Formed) : s.seed.Formed := by
  unfold State.seed
  extract_lets e nt s1 s2 u
  have hs1 : s1.Formed := .wb (.stepNt h)
  have hs2 : s2.Formed := .wf (.wb (.wf hs1))
  have hu : u.Formed := .wb hs2
  exact .put hu

theorem doPpsInEdge {s : State} (h : s.Formed) : (doPpsInEdge s).Formed := by
  unfold Machine.doPpsInEdge
  extract_lets s1 u
  have hs1 : s1.Formed := by
    unfold s1
    split
    · exact .steer h
    · exact h
  have hu : u.Formed := .wb hs1
  exact .ite h (.ite (.noteGood (.seed h)) (.noteGood (.put hu)))

theorem doPpsMissing {s : State} (h : s.Formed) : (doPpsMissing s).Formed := by
  unfold Machine.doPpsMissing
  extract_lets u
  have hu : u.Formed := .wb h
  exact .ite (.put hu) h

theorem doPpsOutPulse {s : State} (h : s.Formed) : (doPpsOutPulse s).Formed := by
  unfold Machine.doPpsOutPulse
  split
  · exact .ite (.put h) h
  · exact .ite (.put h) h

theorem doNtSeedArm {v : Word} {s : State} (h : s.Formed) : (doNtSeedArm v s).Formed :=
  .ite (.noteReserved h) (.setReg (.ite (.put h) h))

theorem doTimeExclusionChange {s : State} (h : s.Formed) : (doTimeExclusionChange s).Formed := by
  unfold Machine.doTimeExclusionChange
  extract_lets s1 s2
  have hs1 : s1.Formed := .put h
  have hs2 : s2.Formed := .noteGood h
  exact .ite (.ite hs1 (.fault (.wb (.wb hs1)))) (.ite (.wb hs2) hs2)

theorem doGateEntryAdvance {p : Port} {s : State} (h : s.Formed) : (doGateEntryAdvance p s).Formed := .wf h

theorem doGateSwitchRequest {p : Port} {v : Word} {s : State} (h : s.Formed) :
    (doGateSwitchRequest p v s).Formed := by
  unfold Machine.doGateSwitchRequest
  extract_lets r old hi lo locked w s1 s2
  have hs1 : s1.Formed := .setReg h
  have hs2 : s2.Formed := .ite (.modPort hs1) hs1
  exact .ite (.noteReserved hs2) hs2

theorem doGateSwitch {p : Port} {s : State} (h : s.Formed) : (doGateSwitch p s).Formed :=
  .ite h (.ite (.fault (.wb (.wb h))) (.ite h (.wf (.wb (.wb h)))))

theorem refillPort {s : State} {p : Port} (h : s.Formed) : (s.refillPort p).Formed := .ite h (.modPort h)

theorem doShaperRefill {s : State} (h : s.Formed) : (doShaperRefill s).Formed :=
  .foldl (fun _ _ ht => .refillPort ht) h

theorem sendVc {s : State} {p : Port} {v : Nat} {o : OutVc} {fs : List Flit} (h : s.Formed) :
    (s.sendVc p v o fs).Formed := by
  unfold State.sendVc
  extract_lets n poison s1 s2 s3 u worm u1
  have hs1 : s1.Formed := .takeSrc (.modPort h)
  have hs2 : s2.Formed := .pm (.sendData hs1)
  have hs3 : s3.Formed := .ite (.pm hs2) hs2
  have hu : u.Formed := .modPort hs3
  have hu1 : u1.Formed := .modPort hs3
  exact .ite (.put hu) (.put hu1)

theorem serve {s : State} {p : Port} {t2 : Nat} {c : Nat × OutVc × List Flit} (h : s.Formed) :
    (s.serve p t2 c).Formed := by
  unfold State.serve
  extract_lets n s1 s2
  have hs1 : s1.Formed := .modPort h
  have hs2 : s2.Formed := .ite (.modPort hs1) hs1
  exact .sendVc hs2

theorem group {s : State} {p : Port} {a : Nat} (h : s.Formed) : (s.group p a).2.Formed := by
  unfold State.group
  split
  · exact h
  · extract_lets x t move w2 d
    split
    · have hmove : ∀ x0, x0.Formed → State.Formed (move x0) := fun _ ht => .modPort ht
      exact .group (hmove _ (.ite h (.modPort h)))
    · extract_lets n
      split
      · exact .serve (.modPort h)
      · have hmove : ∀ x0, x0.Formed → State.Formed (move x0) := fun _ ht => .modPort ht
        exact .group (hmove _ (.modPort h))

theorem resendFrame {s : State} {p : Port} {q : Nat} (h : s.Formed) : (s.resendFrame p q).Formed := by
  unfold State.resendFrame
  split
  · exact .modPort h
  · extract_lets s1 stampIt
    have hs1 : s1.Formed := .sendAnnounced h
    exact .ite (.sendIdle h) (.modPort hs1)

theorem sendBypass {s : State} {p : Port} {sync : Bool} (h : s.Formed) : (s.sendBypass p sync).Formed := by
  unfold State.sendBypass
  extract_lets f s1 s2
  have hs1 : s1.Formed := .modPort h
  have hs2 : s2.Formed := .pm (.pm (.sendData hs1))
  exact .ite (.modPort hs2) (.modPort hs2)

theorem vc0Frame {s u : State} {p : Port} (h : s.Formed) (he : s.vc0Frame p = some u) : u.Formed := by
  unfold State.vc0Frame at he
  split at he
  · cases he
    exact .sendVc h
  · split at he
    · split at he
      · cases he
        exact .sendBypass h
      · cases he
    · cases he

theorem scheduled {s : State} {p : Port} (h : s.Formed) : (s.scheduled p).2.Formed := by
  unfold State.scheduled
  split
  · exact .serve h
  · split
    · exact .serve h
    · exact .group h

theorem doEgressFrameStart {p : Port} {s : State} (h : s.Formed) : (doEgressFrameStart p s).Formed := by
  unfold Machine.doEgressFrameStart
  split
  · exact h
  · split
    · exact .sendIdle h
    · split
      · exact .resendFrame h
      · split
        · extract_lets s1
          have hs1 : s1.Formed := .sendData (.modPort h)
          exact .ite (.ite (.wb hs1) hs1) (.sendIdle h)
        · split
          · exact .sendIdle h
          · split
            · rename_i he2
              exact .vc0Frame h he2
            · extract_lets r
              have hr : r.2.Formed := .scheduled h
              exact .ite hr (.sendIdle hr)

end State.Formed

end Sys2Proof.Machine
end

section
/-! PROOFS. EveryStepKeepsTheFormOfMemory: the rows of end-to-end delivery. -/

namespace Sys2Proof.Machine

-- The proofs are elaborated one after another: in parallel their threads' stacks need more memory than a compile may have.
set_option Elab.async false

namespace State.Formed

theorem receive {s : State} {e : Ejected} (h : s.Formed) : (s.receive e).Formed := by
  unfold State.receive
  extract_lets p c st
  split
  · exact .bump h
  · split
    · exact .collIn h
    · split
      · split
        · exact h
        · split
          · exact .fault h
          · exact .fault h
      · split
        · exact .bump h
        · split
          · exact .put h
          · split
            · exact .sendNack h
            · split
              · exact .sendNack h
              · split
                · exact .flowOpen h
                · split
                  · exact .sendNack h
                  · exact .classify h

theorem doPacketReceive {s : State} (h : s.Formed) : (doPacketReceive s).Formed := by
  unfold Machine.doPacketReceive
  split
  · exact h
  · exact .receive (.put h)

theorem resolve {s : State} {f psn status detail : Nat} (h : s.Formed) : (s.resolve f psn status detail).Formed := by
  unfold State.resolve
  split
  · exact h
  · split
    · exact h
    · extract_lets opens s1
      have hs1 : s1.Formed := .modIfl h
      split
      · exact hs1
      · split
        · extract_lets s2
          have hs2 : s2.Formed := .ite (.modOp (.noteFail hs1)) hs1
          exact .settleCmd hs2
        · exact .ite hs1 (.recvCheck (.modMe hs1))
        · exact hs1

theorem endRndv {s : State} {m status detail : Nat} (h : s.Formed) : (s.endRndv m status detail).Formed :=
  .recvOver (.modMe h)

theorem discardFlow {s : State} {f status detail : Nat} {again : Bool} (h : s.Formed) :
    (s.discardFlow f status detail again).Formed := by
  unfold State.discardFlow
  split
  · exact h
  · extract_lets begun hit mes rest waiting s1 s2 s3 s4
    have hs1 : s1.Formed := .dropIfl h
    have hs2 : s2.Formed := by
      unfold s2
      split
      · exact hs1
      · split
        · rename_i he1
          exact .modIfl (.ofSnd (.flowTo hs1) he1)
        · rename_i he1
          exact .put (.ofSnd (.flowTo hs1) he1)
    have hs3 : s3.Formed := .foldl (fun _ _ ht => .cutCmd ht) hs2
    have hs4 : s4.Formed := .foldl (fun _ _ ht => .cutCmd ht) hs3
    exact .foldl (fun _ _ ht => .endRndv ht) hs4

theorem flowFails {s : State} {f psn : Nat} (h : s.Formed) : (s.flowFails f psn).Formed := by
  unfold State.flowFails
  split
  · exact h
  · extract_lets s1 s2
    have hs1 : s1.Formed := .bump h
    have hs2 : s2.Formed := .postCtx hs1
    exact .discardFlow hs2

theorem rttSample {s : State} {f tsl delay b : Nat} (h : s.Formed) : (s.rttSample f tsl delay b).Formed := by
  unfold State.rttSample
  split
  · exact h
  · extract_lets raw v base y td y1
    exact .ite h (.put h)

theorem markGaps {s : State} {f cum map : Nat} {skip : Option Nat} (h : s.Formed) :
    (s.markGaps f cum map skip).Formed := .modIfl h

theorem applyCover {s : State} {f cum map tsl delay : Nat} (h : s.Formed) :
    (s.applyCover f cum map tsl delay).Formed := by
  unfold State.applyCover
  split
  · exact h
  · extract_lets hit bytes s1 s2
    have hs1 : s1.Formed := .modIfl h
    have hs2 : s2.Formed := .foldl (fun _ _ ht => .ite (.resolve ht) ht) hs1
    exact .markGaps (.rttSample hs2)

theorem applyNack {s : State} {f : Nat} {p : Pkt} (h : s.Formed) : (s.applyNack f p).Formed := by
  unfold State.applyNack
  split
  · exact h
  · extract_lets s1
    have hs1 : s1.Formed := .rttSample h
    exact .ite (.markGaps hs1) hs1

theorem takeInit {s u : State} {opc : Nat} {p : Pkt} (h : s.Formed) (he : s.takeInit opc = some (p, u)) :
    u.Formed := by
  unfold State.takeInit at he
  split at he
  · cases he
  · obtain ⟨q, -, hq⟩ := Option.map_eq_some_iff.1 he
    cases hq
    exact .put h

theorem doAckReceive {s : State} (h : s.Formed) : (doAckReceive s).Formed := by
  unfold Machine.doAckReceive
  split
  · exact h
  · rename_i he
    split
    · exact .takeInit h he
    · split
      · exact .takeInit h he
      · exact .ite (.applyCover (.takeInit h he)) (.takeInit h he)

theorem doNackReceive {s : State} (h : s.Formed) : (doNackReceive s).Formed := by
  unfold Machine.doNackReceive
  split
  · exact h
  · rename_i he
    extract_lets s1 cause psn
    have hs1 : s1.Formed := .bump (.takeInit h he)
    split
    · exact hs1
    · split
      · exact hs1
      · extract_lets known s2
        have hs2 : s2.Formed := .modIfl hs1
        exact .ite (.ite (.discardFlow hs1) hs1) (.ite (.applyNack hs2)
          (.ite (.discardFlow hs1) (.applyNack (.ite (.resolve hs1) hs1))))

theorem doGetRspReceive {s : State} (h : s.Formed) : (doGetRspReceive s).Formed := by
  unfold Machine.doGetRspReceive
  split
  · exact h
  · rename_i he
    extract_lets st dup
    have hdup : dup.Formed := .bump (.takeInit h he)
    split
    · exact hdup
    · split
      · exact hdup
      · split
        · exact hdup
        · extract_lets off piece s1 n s2 s3 whole spoilt t
          have hs3 : s3.Formed := by
            unfold s3
            have hs1 : s1.Formed := .ite (.rttSample (.takeInit h he)) (.takeInit h he)
            have hs2 : s2.Formed := .modIfl hs1
            split
            · exact .modOp hs2
            · exact hs2
          have ht : t.Formed := .ite (.getDone hs3) (.startXfer hs3)
          exact .ite hdup (.ite (.resolve ht) ht)

theorem doAtomicRspReceive {s : State} (h : s.Formed) : (doAtomicRspReceive s).Formed := by
  unfold Machine.doAtomicRspReceive
  split
  · exact h
  · rename_i he
    split
    · exact .takeInit h he
    · split
      · exact .takeInit h he
      · split
        · exact .takeInit h he
        · split
          · exact .resolve (.takeInit h he)
          · extract_lets res n s1
            have hs1 : s1.Formed := .modOp (.takeInit h he)
            exact .ite (.resolve (.takeInit h he)) (.resolve (.startXfer hs1))

theorem resend {s : State} {f : Nat} {x : IFlow} {o : Outst} {rto : Bool} (h : s.Formed) :
    (s.resend f x o rto).Formed := by
  unfold State.resend
  extract_lets p q st s1 s2
  have hs1 : s1.Formed := .pm (.bump h)
  have hs2 : s2.Formed := .modIfl hs1
  exact .ite (.flowFails h) (.injectPkt hs2)

theorem doRtoExpiry {f : Nat} {psn : BitVec 32} {s : State} (h : s.Formed) : (doRtoExpiry f psn s).Formed := by
  unfold Machine.doRtoExpiry
  split
  · exact h
  · split
    · exact h
    · exact .ite h (.resend h)

theorem doTargetDelayExpiry {f : Nat} {psn : BitVec 32} {s : State} (h : s.Formed) :
    (doTargetDelayExpiry f psn s).Formed := by
  unfold Machine.doTargetDelayExpiry
  split
  · exact h
  · split
    · exact h
    · extract_lets due
      exact .ite (.resend h) h

theorem doAckDelayExpiry {tf : Nat} {s : State} (h : s.Formed) : (doAckDelayExpiry tf s).Formed := by
  unfold Machine.doAckDelayExpiry
  split
  · exact h
  · exact .ite (.sendAck h) h

theorem doFlowIdleExpiry {initiator : Bool} {f : Nat} {s : State} (h : s.Formed) :
    (doFlowIdleExpiry initiator f s).Formed := by
  unfold Machine.doFlowIdleExpiry
  split
  · split
    · exact h
    · exact .ite (.dropIfl h) h
  · split
    · exact h
    · extract_lets u
      exact .ite h (.flowGive (.endTfl h))

end State.Formed

end Sys2Proof.Machine
end

section
/-! PROOFS. EveryStepKeepsTheFormOfMemory: the link layer of a host link. -/

namespace Sys2Proof.Machine

-- The proofs are elaborated one after another: in parallel their threads' stacks need more memory than a compile may have.
set_option Elab.async false

namespace State.Formed

theorem modHl {s : State} {h1 : HLink} {f : HostLl → HostLl} (h : s.Formed) : (s.modHl h1 f).Formed := .put h

theorem hostFill {s : State} {h1 : HLink} (h : s.Formed) : (s.hostFill h1).Formed := by
  unfold State.hostFill
  extract_lets x k s1
  split
  · exact h
  · have hs1 : s1.Formed := .modHl h
    refine .foldl (fun _ _ ht => ?_) hs1
    extract_lets n
    exact .emit (.modLane ht)

theorem sendRows {s : State} {h1 : HLink} {rows : List (List Char8)} (h : s.Formed) :
    (s.sendRows h1 rows).Formed := by
  unfold State.sendRows
  extract_lets s1 x o s2
  have hs1 : s1.Formed := .hostFill h
  have hs2 : s2.Formed := .modHl hs1
  exact .foldl (fun _ _ ht => .sendChars ht) hs2

theorem putPacket {s : State} {h1 : HLink} {ty seq : Nat} {body : List Byte} (h : s.Formed) :
    (s.putPacket h1 ty seq body).Formed := .sendRows (.emit (.modHl h))

theorem sendHostAck {s : State} {h1 : HLink} (h : s.Formed) : (s.sendHostAck h1).Formed := .modHl (.putPacket h)

theorem sendPacket {s : State} {h1 : HLink} {ty seq : Nat} {body : List Byte} (h : s.Formed) :
    (s.sendPacket h1 ty seq body).Formed := by
  unfold State.sendPacket
  extract_lets s1
  have hs1 : s1.Formed := .putPacket h
  exact .ite (.sendHostAck hs1) hs1

theorem sendHostNak {s : State} {h1 : HLink} (h : s.Formed) : (s.sendHostNak h1).Formed := by
  unfold State.sendHostNak
  extract_lets s1
  have hs1 : s1.Formed := .modHl h
  exact .ite (.bump (.sendPacket hs1)) hs1

theorem wantHostNak {s : State} {h1 : HLink} (h : s.Formed) : (s.wantHostNak h1).Formed := .ite h (.sendHostNak h)

theorem sendNotice {s : State} {h1 : HLink} {reason : Nat} (h : s.Formed) : (s.sendNotice h1 reason).Formed :=
  .sendPacket h

theorem sendCredit {s : State} {h1 : HLink} (h : s.Formed) : (s.sendCredit h1).Formed := .modHl (.sendPacket h)

theorem sendHello {s : State} {h1 : HLink} (h : s.Formed) : (s.sendHello h1).Formed := .modHl (.sendPacket h)

theorem freeTlp {s : State} {h1 : HLink} {t2 : RxTlp} (h : s.Formed) : (s.freeTlp h1 t2).Formed := .ite h (.modHl h)

theorem trainHost {s : State} {h1 : HLink} (h : s.Formed) : (s.trainHost h1).Formed := by
  unfold State.trainHost
  extract_lets s1 s2
  have hs1 : s1.Formed := .modHl h
  have hs2 : s2.Formed := .showWidth (.ite hs1 (.setLink hs1))
  exact .ite (.lanesStop h) (.trainLink hs2)

theorem hostLinkUp {s : State} {h1 : HLink} (h : s.Formed) : (s.hostLinkUp h1).Formed := by
  unfold State.hostLinkUp
  extract_lets st use ann old s1 s2 s3
  have hs1 : s1.Formed := .modTl h
  have hs2 : s2.Formed := .modHl hs1
  have hs3 : s3.Formed := .sendRows (.showWidth hs2)
  exact .ite (.sendHello (.ite (.setLink hs3) hs3)) h

theorem hostHelloTimeout {s : State} {h1 : HLink} (h : s.Formed) : (s.hostHelloTimeout h1).Formed :=
  .ite (.trainHost h) h

theorem doHostHelloPeriodic {h0 : HLink} {s : State} (h : s.Formed) : (doHostHelloPeriodic h0 s).Formed :=
  .ite (.sendHello h) h

theorem flushCpl {s : State} {c : HeldCpl} (h : s.Formed) : (s.flushCpl c).Formed := by
  unfold State.flushCpl
  split
  · exact .ite (.putCpl h) h
  · exact h

theorem flushRec {s : State} {r : HeldRec} (h : s.Formed) : (s.flushRec r).Formed := by
  unfold State.flushRec
  split
  · exact .ite h (.eqWrite h)
  · exact h

theorem hostUp {s : State} {h1 : HLink} (h : s.Formed) : (s.hostUp h1).Formed := by
  unfold State.hostUp
  extract_lets t s1 s2 s3 s4 s5 s6
  have hs1 : s1.Formed := .wb (.setLink h)
  have hs2 : s2.Formed := .modHl hs1
  have hs3 : s3.Formed := .modTl hs2
  have hs4 : s4.Formed := .foldl (fun _ _ ht => .flushRec ht) hs3
  have hs5 : s5.Formed := .foldl (fun _ _ ht => .flushCpl ht) hs4
  have hs6 : s6.Formed := .foldl (fun _ _ ht => .settleQueue ht) hs5
  exact .sendHello (.postMgmt hs6)

theorem hostHelloIn {s : State} {h1 : HLink} {body : List Byte} (h : s.Formed) : (s.hostHelloIn h1 body).Formed := by
  unfold State.hostHelloIn
  extract_lets w s1
  have hs1 : s1.Formed := .modHl h
  exact .ite h (.ite (.ite (.hostUp hs1) hs1) (.ite (.sendHello h) h))

theorem hostRetrainAgain {s : State} {h1 : HLink} (h : s.Formed) : (s.hostRetrainAgain h1).Formed := by
  unfold State.hostRetrainAgain
  split
  · extract_lets s1 at3
    have hs1 : s1.Formed := .ite (.sendNotice h) h
    exact .lanesExit (.modHl hs1)
  · exact h

theorem retrainHost {s : State} {h1 : HLink} (h : s.Formed) : (s.retrainHost h1).Formed := by
  unfold State.retrainHost
  extract_lets st s1 times r s2
  have hs1 : s1.Formed := .ite (.sendNotice h) h
  have hs2 : s2.Formed := .modHl hs1
  exact .ite (.trainHost h) (.ite (.hostRetrainAgain h) (.ite h (.lanesExit (.setLink (.noteRetrain hs2)))))

theorem startHostReplay {s : State} {h1 : HLink} {from_ : Nat} {counts : Bool} (h : s.Formed) :
    (s.startHostReplay h1 from_ counts).Formed := by
  unfold State.startHostReplay
  split
  · exact h
  · extract_lets oldest n s1 s2
    have hs1 : s1.Formed := .bump h
    have hs2 : s2.Formed := .modHl hs1
    exact .ite (.retrainHost hs2) hs2

theorem resumeHost {s : State} {h1 : HLink} (h : s.Formed) : (s.resumeHost h1).Formed := by
  unfold State.resumeHost
  split
  · exact h
  · extract_lets use s1
    have hs1 : s1.Formed := .modHl h
    exact .ite h (.sendHostAck (.sendRows (.showWidth hs1)))

theorem coreDone {s : State} {id : Nat} (h : s.Formed) : (s.coreDone id).Formed := .put h

theorem coreFails {s : State} {id : Nat} (h : s.Formed) : (s.coreFails id).Formed := by
  unfold State.coreFails
  split
  · exact h
  · exact .emit (.coreDone h)

theorem coreNote {s : State} {core : Nat} (h : s.Formed) : (s.coreNote core).Formed := .ite (.fault h) (.fault h)

theorem tellAck {s : State} {a : Tok} (h : s.Formed) : (s.tellAck a).Formed := by
  unfold State.tellAck
  split
  · exact h
  · exact .finishUse h
  · exact .storeDone h
  · exact .postDue h
  · exact .coreDone h
  · exact h
  · exact .hostAtomWritten h

theorem releaseHost {s : State} {h1 : HLink} {ack : Nat} (h : s.Formed) : (s.releaseHost h1 ack).Formed := by
  unfold State.releaseHost
  extract_lets x done gone keep first s1
  have hs1 : s1.Formed := .modHl h
  refine .foldl (fun _ _ ht => ?_) hs1
  split
  · exact ht
  · split
    · exact ht
    · extract_lets s2
      have hs2 : s2.Formed := .modTl ht
      exact .tellAck hs2

theorem endHostRetrain {s : State} {h1 : HLink} {ack : Nat} (h : s.Formed) : (s.endHostRetrain h1 ack).Formed := by
  unfold State.endHostRetrain
  split
  · exact h
  · extract_lets s1 s2 s3
    have hs1 : s1.Formed := .setLink (.modHl h)
    have hs2 : s2.Formed := .wb hs1
    have hs3 : s3.Formed := .ite (.wb hs2) hs2
    exact .startHostReplay hs3

theorem hostAckIn {s : State} {h1 : HLink} {nak : Bool} {ack : Nat} (h : s.Formed) :
    (s.hostAckIn h1 nak ack).Formed := by
  unfold State.hostAckIn
  extract_lets s1
  have hs1 : s1.Formed := .releaseHost h
  exact .ite (.endHostRetrain hs1) (.ite (.startHostReplay hs1) hs1)

theorem hostLaneDrop {s : State} {h1 : HLink} {l : Fin 16} (h : s.Formed) : (s.hostLaneDrop h1 l).Formed := by
  unfold State.hostLaneDrop
  split
  · exact .ite (.resumeHost (.trainLane h)) h
  · exact h

theorem hostRetrainRepeat {s : State} {h1 : HLink} (h : s.Formed) : (s.hostRetrainRepeat h1).Formed := by
  unfold State.hostRetrainRepeat
  split
  · exact .ite (.hostRetrainAgain h) h
  · exact h

theorem hostLaneLost {s : State} {h1 : HLink} {l : Nat} (h : s.Formed) : (s.hostLaneLost h1 l).Formed := by
  unfold State.hostLaneLost
  extract_lets s1
  split
  · exact h
  · have hs1 : s1.Formed := .wf h
    split
    · exact .hostRetrainAgain hs1
    · exact .retrainHost hs1

theorem hostTrigger {s : State} {h1 : HLink} {a : RetrainTrigger} (h : s.Formed) : (s.hostTrigger h1 a).Formed := by
  unfold State.hostTrigger
  split
  · exact .hostLaneLost h
  · exact .retrainHost h
  · exact .retrainHost h
  · exact .ite (.retrainHost h) h

theorem hostRetrainWrite {s : State} {h1 : HLink} (h : s.Formed) : (s.hostRetrainWrite h1).Formed :=
  .ite h (.ite (.retrainHost (.wb h)) (.ite (.trainHost (.wb h)) h))

theorem doHostTrainingSet {h0 : HLink} {l : Fin 16} {laneByte request status : BitVec 8} {s : State} (h : s.Formed) :
    (doHostTrainingSet h0 l laneByte request status s).Formed := by
  unfold Machine.doHostTrainingSet
  extract_lets n s1
  have hs1 : s1.Formed := .trainLane h
  exact .ite (.trainingSetIn h) (.ite (.ite (.resumeHost hs1) (.hostLaneLost hs1)) h)

theorem hostLaneRetrain {s : State} {h1 : HLink} {l : Fin 16} (h : s.Formed) : (s.hostLaneRetrain h1 l).Formed :=
  .ite h (.ite (.laneForgiven h) (.hostLaneLost (.wb (.trainLane h))))

theorem hostNakRepeat {s : State} {h1 : HLink} (h : s.Formed) : (s.hostNakRepeat h1).Formed := by
  unfold State.hostNakRepeat
  split
  · exact .ite (.sendHostNak h) h
  · exact h

theorem hostReplayTimeout {s : State} {h1 : HLink} (h : s.Formed) : (s.hostReplayTimeout h1).Formed := by
  unfold State.hostReplayTimeout
  split
  · exact .ite (.startHostReplay h) h
  · exact h

theorem doHostAckTimer {h0 : HLink} {s : State} (h : s.Formed) : (doHostAckTimer h0 s).Formed :=
  .ite (.sendHostAck h) h

theorem doHostCreditTimer {h0 : HLink} {s : State} (h : s.Formed) : (doHostCreditTimer h0 s).Formed :=
  .ite (.sendCredit h) h

theorem hostIdle {s : State} {h1 : HLink} (h : s.Formed) : (s.hostIdle h1).Formed := .ite (.modHl (.sendNotice h)) h

theorem doHostIdleEntry {h0 : HLink} {s : State} (h : s.Formed) : (doHostIdleEntry h0 s).Formed := by
  unfold Machine.doHostIdleEntry
  extract_lets whole one s1
  have hone : ∀ x0 x1, x0.Formed → State.Formed (one x0 x1) := by
    intro _ _ ht
    unfold one
    extract_lets forced
    exact .ite (.laneIdle ht) (.ite (.laneHold ht) (.ite (.ite (.setLane ht) (.laneIdle ht)) (.ite (.modLane ht) ht)))
  have hs1 : s1.Formed := .foldl hone (.hostFill h)
  exact .ite (.resumeHost hs1) hs1

theorem hostExited {s : State} {h1 : HLink} (h : s.Formed) : (s.hostExited h1).Formed :=
  .ite (.resumeHost h) (.ite h (.modHl h))

theorem doHostFastExit {h0 : HLink} {s : State} (h : s.Formed) : (doHostFastExit h0 s).Formed :=
  .ite (.hostExited (.foldl (fun _ _ ht => .laneExit ht) h)) h

theorem doHostExitBurstReceived {h0 : HLink} {s : State} (h : s.Formed) : (doHostExitBurstReceived h0 s).Formed :=
  .ite h (.hostExited (.modHl (.foldl (fun _ _ ht => .laneHears (.modLane ht)) h)))

theorem acceptTlp {s : State} {h1 : HLink} {rsp : Bool} {body : List Byte} (h : s.Formed) :
    (s.acceptTlp h1 rsp body).Formed := by
  unfold State.acceptTlp
  extract_lets bad t s1
  have hs1 : s1.Formed := .pm h
  exact .ite (.freeTlp (.fault (.bump hs1))) (.ite (.modTl hs1) (.modTl hs1))

theorem hostTlpIn {s : State} {h1 : HLink} {rsp : Bool} {seq : Nat} {body : List Byte} (h : s.Formed) :
    (s.hostTlpIn h1 rsp seq body).Formed := by
  unfold State.hostTlpIn
  extract_lets x s1 s2
  have hs1 : s1.Formed := .modHl h
  have hs2 : s2.Formed := .acceptTlp hs1
  exact .ite (.ite (.sendHostAck hs2) hs2) (.ite (.bump h) (.wantHostNak h))

theorem goodPacket {s : State} {h1 : HLink} {hd : BitVec 32} {body : List Byte} (h : s.Formed) :
    (s.goodPacket h1 hd body).Formed := by
  unfold State.goodPacket
  extract_lets ty
  clear_value ty
  split
  · exact .fault h
  · split
    · exact .hostAckIn h
    · exact .hostAckIn h
    · exact .modHl h
    · exact .hostHelloIn h
    · exact .ite (.modHl h) (.ite (.retrainHost h) h)
    · exact .ite h (.hostTlpIn h)

theorem takePacket {s : State} {h1 : HLink} {bytes : List Byte} {bad : Bool} (h : s.Formed) :
    (s.takePacket h1 bytes bad).Formed := .ite h (.ite (.wantHostNak (.bump h)) (.goodPacket h))

theorem takeChars {a : List (Option Char8)} {a1 : State} {a2 : HLink} (h : a1.Formed) :
    (State.takeChars a a1 a2).Formed := by
  unfold State.takeChars
  split
  · exact h
  · extract_lets put s
    have hs : s.Formed := by
      unfold s
      split
      · have hput : ∀ x0 x1, x0.Formed → State.Formed (put x0 x1) := fun _ _ ht => .modHl ht
        exact hput _ _ h
      · exact h
      · extract_lets s1
        split
        · have hput : ∀ x0 x1, x0.Formed → State.Formed (put x0 x1) := fun _ _ ht => .modHl ht
          have hs1 : s1.Formed := by
            unfold s1
            split
            · exact .takePacket h
            · exact h
          exact hput _ _ hs1
        · split
          · split
            · have hput : ∀ x0 x1, x0.Formed → State.Formed (put x0 x1) := fun _ _ ht => .modHl ht
              exact .takePacket (hput _ _ h)
            · exact h
          · split
            · exact h
            · split
              · have hput : ∀ x0 x1, x0.Formed → State.Formed (put x0 x1) := fun _ _ ht => .modHl ht
                exact hput _ _ h
              · exact h
    exact .takeChars hs

theorem takeGroups {s : State} {n : LaneId} {gs : List (BitVec 10)} (h : s.Formed) :
    (s.takeGroups n gs).2.Formed := by
  unfold State.takeGroups
  extract_lets loop o s1 bad s2
  split
  · exact h
  · split
    · exact .ite h (.sendGroups h)
    · have hs1 : s1.Formed := .modLane h
      have hs2 : s2.Formed := .noteErrors hs1
      split
      · exact .ite hs2 (.sendChars hs2)
      · exact hs2

theorem takeLine {s : State} {h1 : HLink} {gs : List (Fin 16 × List (BitVec 10))} (h : s.Formed) :
    (s.takeLine h1 gs).Formed := by
  unfold State.takeLine
  extract_lets one r s1 w taken cols rows chars s2 s3
  have hone : ∀ x e, x.2.Formed → (one x e).2.Formed := by
    intro x e hx
    unfold one
    extract_lets n q
    have hq : q.2.Formed := .takeGroups hx
    split
    · exact hq
    · exact hq
  have hr : r.2.Formed := List.foldlRecOn (motive := fun x => x.2.Formed) gs one h fun x hx e _ => hone x e hx
  have hs2 : s2.Formed := .ite (.takeChars hr) hr
  have hs3 : s3.Formed := by
    refine .foldl (fun _ _ ht => ?_) hs2
    extract_lets t1
    have ht1 : t1.Formed := .modLane ht
    exact .ite (.setLane ht1) ht1
  exact .ite hr (.ite (.ite hs3 (.retrainHost hs3)) hs2)

theorem doHostLinkPacket {h0 : HLink} {rx : HostRx} {s : State} (h : s.Formed) :
    (doHostLinkPacket h0 rx s).Formed := by
  unfold Machine.doHostLinkPacket
  split
  · exact .ite h (.takePacket (.foldl (fun _ _ ht => .noteErrors ht) h))
  · exact .takeLine h

end State.Formed

end Sys2Proof.Machine
end

section
/-! PROOFS. EveryStepKeepsTheFormOfMemory: the transaction layer of a host link. -/

namespace Sys2Proof.Machine

-- The proofs are elaborated one after another: in parallel their threads' stacks need more memory than a compile may have.
set_option Elab.async false

namespace State.Formed

theorem sendTlp {s : State} {h1 : HLink} {rsp : Bool} {p : Nat} {body : List Byte} {wtag : Option Nat} (h : s.Formed)
    : (s.sendTlp h1 rsp p body wtag).Formed := by
  unfold State.sendTlp
  extract_lets seq s1 s2
  have hs1 : s1.Formed := .sendPacket h
  have hs2 : s2.Formed := .modHl hs1
  exact .pm (.pm hs2)

theorem buildWrite {s u : State} {k : HLink} {w : WrReq} (h : s.Formed) (he : s.buildWrite k w = some u) :
    u.Formed := by
  unfold State.buildWrite at he
  extract_lets t tag n live reg ordered stash e s1 hd at he
  split at he
  · cases he
  · cases he
    have hs1 : s1.Formed := .modTl h
    exact .sendTlp hs1

theorem buildRead {s u : State} {k : HLink} {r : RdReq} (h : s.Formed) (he : s.buildRead k r = some u) :
    u.Formed := by
  unfold State.buildRead at he
  extract_lets walk at he
  clear_value walk
  split at he
  · cases he
  · split at he
    · cases he
    · split at he
      · cases he
        exact .walkFault h
      · cases he
        exact .sendTlp (.modTl h)

theorem buildIntr {s u : State} {k : HLink} {fn vector data : Nat} (h : s.Formed)
    (he : s.buildIntr k fn vector data = some u) : u.Formed := by
  unfold State.buildIntr at he
  split at he
  · cases he
    exact .dropIntr h
  · split at he
    · cases he
    · cases he
      exact .sendTlp h

theorem buildReq {s u : State} {k : HLink} (h : s.Formed) (he : s.buildReq k = some u) : u.Formed := by
  unfold State.buildReq at he
  split at he
  · cases he
  · split at he
    · cases he
    · extract_lets s1 at he
      have hs1 : s1.Formed := .modTl h
      split at he
      · exact .buildWrite hs1 he
      · exact .buildRead hs1 he
      · exact .buildIntr hs1 he

theorem buildRsp {s u : State} {k : HLink} (h : s.Formed) (he : s.buildRsp k = some u) : u.Formed := by
  unfold State.buildRsp at he
  extract_lets t at he
  split at he
  · cases he
  · extract_lets p s1 hd at he
    have hs1 : s1.Formed := .modTl h
    split at he
    · cases he
    · cases he
      exact .sendTlp hs1

theorem resendTlp {s : State} {h1 : HLink} {q : Nat} (h : s.Formed) : (s.resendTlp h1 q).Formed := by
  unfold State.resendTlp
  split
  · exact .modHl h
  · extract_lets s1 stampIt
    have hs1 : s1.Formed := .sendPacket h
    exact .modHl hs1

theorem doHostTlpStart {h0 : HLink} {s : State} (h : s.Formed) : (doHostTlpStart h0 s).Formed := by
  unfold Machine.doHostTlpStart
  extract_lets x a
  have ha : ∀ u, a = some u → u.Formed := by
    intro u he
    unfold a at he
    split at he
    · exact .buildRsp h he
    · exact .buildReq h he
  have hb : ∀ u, (if x.turn then s.buildReq h0 else s.buildRsp h0) = some u → u.Formed := by
    intro u he
    split at he
    · exact .buildReq h he
    · exact .buildRsp h he
  clear_value a
  split
  · exact h
  · split
    · exact .resendTlp h
    · split
      · exact h
      · split
        · exact ha _ rfl
        · exact .getD h hb

theorem answer {s : State} {h1 : HLink} {c : Ccpl} (h : s.Formed) : (s.answer h1 c).Formed := .ite h (.modTl h)

theorem hostAtomFails {s : State} {tf psn st : Nat} (h : s.Formed) : (s.hostAtomFails tf psn st).Formed := by
  unfold State.hostAtomFails
  extract_lets s1
  have hs1 : s1.Formed := by
    unfold s1
    split
    · exact h
    · exact .ite (.putOff h) (.refuse h)
  exact .hostAtomEnds hs1

theorem coreRead {s : State} {id st : Nat} {bs : List Byte} (h : s.Formed) : (s.coreRead id st bs).Formed := by
  unfold State.coreRead
  split
  · exact h
  · exact .ite (.emit (.coreDone h)) (.coreFails h)

theorem readEnds {s : State} {p : RdPurpose} {st : Nat} {bs : List Byte} (h : s.Formed) :
    (s.readEnds p st bs).Formed := by
  unfold State.readEnds
  split
  · exact .finishUse h
  · exact .ite (.modWalk h) (.modWalk h)
  · exact .ite (.ringData h) (.ite (.ringUnask h) (.ringFailed h))
  · exact .flushData h
  · exact .imageData h
  · exact .ite (.hostAtomRead h) (.hostAtomFails h)
  · exact .coreRead h

theorem readDropped {s : State} {p : RdPurpose} (h : s.Formed) : (s.readDropped p).Formed := by
  unfold State.readDropped
  split
  · exact .walkAgain h
  · exact .readEnds h

theorem readOutEnds {s : State} {h1 : HLink} {tag : Nat} {r : ReadOut} {st : Nat} (h : s.Formed) :
    (s.readOutEnds h1 tag r st).Formed := by
  unfold State.readOutEnds
  extract_lets s1
  have hs1 : s1.Formed := .modTl h
  exact .ite (.readDropped hs1) (.readEnds hs1)

theorem doReadTimeout {h0 : HLink} {rtag : Fin 4096} {s : State} (h : s.Formed) :
    (doReadTimeout h0 rtag s).Formed := by
  unfold Machine.doReadTimeout
  extract_lets lim s1 s2
  split
  · exact h
  · extract_lets fs s3
    have hs1 : s1.Formed := .wb (.bump h)
    have hs2 : s2.Formed := .modTl hs1
    have hs3 : s3.Formed := by
      unfold s3
      split
      · exact hs2
      · split
        · exact .postCtx hs2
        · exact .postMgmt hs2
    exact .ite h (.readOutEnds hs3)

theorem doReadTagRelease {h0 : HLink} {rtag : Fin 4096} {s : State} (h : s.Formed) :
    (doReadTagRelease h0 rtag s).Formed := by
  unfold Machine.doReadTagRelease
  split
  · exact .ite (.modTl h) h
  · exact h

theorem doWriteHistoryExpiry {h0 : HLink} {wtag : BitVec 16} {s : State} (h : s.Formed) :
    (doWriteHistoryExpiry h0 wtag s).Formed := by
  unfold Machine.doWriteHistoryExpiry
  split
  · exact .ite h (.modTl h)
  · exact h

theorem takeTlp {s u : State} {k : HLink} {rsp : Bool} {tys : List Nat} {x : RxTlp} (h : s.Formed)
    (he : s.takeTlp k rsp tys = some (x, u)) : u.Formed := by
  unfold State.takeTlp at he
  extract_lets q at he
  clear_value q
  split at he
  · cases he
  · split at he
    · cases he
      exact .freeTlp (.modTl h)
    · cases he

theorem doCpld {h0 : HLink} {s : State} (h : s.Formed) : (doCpld h0 s).Formed := by
  unfold Machine.doCpld
  split
  · exact h
  · rename_i he
    extract_lets tag n last
    split
    · exact .bump (.takeTlp h he)
    · extract_lets got bad
      exact .ite (.readOutEnds (.bump (.takeTlp h he))) (.ite (.readOutEnds (.takeTlp h he)) (.modTl (.takeTlp h he)))

theorem doDbell {h0 : HLink} {s : State} (h : s.Formed) : (doDbell h0 s).Formed := by
  unfold Machine.doDbell
  split
  · exact h
  · rename_i he
    extract_lets q fn drop report
    have hdrop : ∀ x0 x1, x1.Formed → State.Formed (drop x0 x1) := fun _ _ ht => .bump ht
    split
    · exact hdrop _ _ (.takeTlp h he)
    · have hreport : ∀ x0, x0.Formed → State.Formed (report x0) := fun _ ht => .postMgmt ht
      split
      · exact hreport _ (hdrop _ _ (.takeTlp h he))
      · extract_lets d
        exact .ite (hreport _ (hdrop _ _ (.takeTlp h he))) (.ite (hdrop _ _ (.takeTlp h he))
          (.doorbell (.takeTlp h he)))

theorem writeFailedAbroad {s : State} {c : Nat} {n : WrNote} {len code : Nat} (h : s.Formed) :
    (s.writeFailedAbroad c n len code).Formed := by
  unfold State.writeFailedAbroad
  extract_lets s1
  have hs1 : s1.Formed := .postCtx h
  exact .ite (.enqueueTo hs1) hs1

theorem doErrrptWriteFailed {h0 : HLink} {s : State} (h : s.Formed) : (doErrrptWriteFailed h0 s).Formed := by
  unfold Machine.doErrrptWriteFailed
  split
  · exact h
  · split
    · exact h
    · split
      · exact h
      · rename_i he1
        extract_lets tag code s1 astray s2
        have hs1 : s1.Formed := .wb (.bump (.takeTlp h he1))
        split
        · have hastray : ∀ x0, x0.Formed → State.Formed (astray x0) := fun _ ht => .postMgmt (.wb ht)
          exact hastray _ hs1
        · split
          · have hastray : ∀ x0, x0.Formed → State.Formed (astray x0) := fun _ ht => .postMgmt (.wb ht)
            exact hastray _ hs1
          · split
            · have hastray : ∀ x0, x0.Formed → State.Formed (astray x0) := fun _ ht => .postMgmt (.wb ht)
              have hs2 : s2.Formed := hastray _ hs1
              split
              · exact .coreFails hs2
              · exact .coreNote hs2
              · exact hs2
            · extract_lets s3
              have hs3 : s3.Formed := .setSticky (.postCtx hs1)
              split
              · exact .writeFailedAbroad hs3
              · exact hs3

theorem abandonOp {s : State} {id : Nat} (h : s.Formed) : (s.abandonOp id).Formed := by
  unfold State.abandonOp
  extract_lets begun cut s1
  have hs1 : s1.Formed := .put h
  split
  · exact .admitInvals (.put hs1)
  · exact hs1

theorem resetQueue {s : State} {q : Nat} (h : s.Formed) : (s.resetQueue q).Formed := by
  unfold State.resetQueue
  split
  · exact h
  · extract_lets held mine s1 s2 s3 s4 s5 s6
    have hs1 : s1.Formed := .foldl (fun _ _ ht => .freeMe ht) h
    have hs2 : s2.Formed := .put hs1
    have hs3 : s3.Formed := .foldl (fun _ _ ht => .abandonOp ht) hs2
    have hs4 : s4.Formed := .foldl (fun _ _ ht => .finishUse ht) hs3
    have hs5 : s5.Formed := .queueError hs4
    have hs6 : s6.Formed := .modCq hs5
    exact .settleQueue hs6

theorem doErrrptFunctionReset {h0 : HLink} {s : State} (h : s.Formed) : (doErrrptFunctionReset h0 s).Formed := by
  unfold Machine.doErrrptFunctionReset
  split
  · exact h
  · split
    · exact h
    · split
      · exact h
      · rename_i he1
        extract_lets fn s1 keep lost cs s2 s3 s4 qs s5 s6 s7 s8 s9
        have hs1 : s1.Formed := .wb (.takeTlp h he1)
        have hs2 : s2.Formed := .foldl (fun _ _ ht => .modCtx (.setSticky ht)) hs1
        have hs3 : s3.Formed := .modTl hs2
        have hs4 : s4.Formed := .put hs3
        have hs5 : s5.Formed := .modTl hs4
        have hs6 : s6.Formed := .foldl (fun _ _ ht => .resetQueue ht) hs5
        have hs7 : s7.Formed := by
          unfold s7
          refine .foldl (fun _ _ ht => ?_) hs6
          split
          · split
            · exact .finishUse ht
            · exact .storeDone ht
            · exact .hostAtomFails ht
            · exact .put ht
            · exact .coreFails ht
            · exact .coreNote ht
            · exact ht
          · exact .readDropped ht
          · exact ht
        have hs8 : s8.Formed := .putOffAtoms hs7
        have hs9 : s9.Formed := .foldl (fun _ _ ht => .ite (.resetHolder ht) ht) hs8
        exact .postMgmt hs9

theorem writeInDoubt {s : State} {h1 : HLink} {tag : Nat} {e : History} (h : s.Formed) :
    (s.writeInDoubt h1 tag e).Formed := by
  unfold State.writeInDoubt
  extract_lets fs
  split
  · exact .setSticky (.postCtx h)
  · exact .postMgmt h

theorem writeLost {s : State} {a : Tok} (h : s.Formed) : (s.writeLost a).Formed := by
  unfold State.writeLost
  split
  · exact h
  · exact .finishUse h
  · exact .storeDone h
  · exact h
  · exact .postDue h
  · exact .coreFails h
  · exact .coreNote h

theorem atomsLost {s : State} {h1 : HLink} (h : s.Formed) : (s.atomsLost h1).Formed := .putOffAtoms h

theorem recvsLost {s : State} {h1 : HLink} (h : s.Formed) : (s.recvsLost h1).Formed :=
  .foldl (fun _ _ ht => .ite (.recvOver (.modMe ht)) (.recvFails ht)) h

theorem dropHost {s : State} {h1 : HLink} (h : s.Formed) : (s.dropHost h1).Formed := by
  unfold State.dropHost
  extract_lets t x entry doubt sure intrs ccpls later s1 s2 s3 s4 s5 sat s6 s7 s8 s9 s10
  have hs1 : s1.Formed := .bump h
  have hs2 : s2.Formed := .modHl hs1
  have hs3 : s3.Formed := .modTl hs2
  have hs4 : s4.Formed := .foldl (fun _ _ ht => .writeInDoubt ht) hs3
  have hs5 : s5.Formed := .foldl (fun _ _ ht => .postMgmt ht) hs4
  have hs6 : s6.Formed := .postMgmt hs5
  have hs7 : s7.Formed := .atomsLost hs6
  have hs8 : s8.Formed := .foldl (fun _ _ ht => .writeLost ht) hs7
  have hs9 : s9.Formed := .foldl (fun _ _ ht => .readEnds ht) hs8
  have hs10 : s10.Formed := by
    unfold s10
    refine .foldl (fun _ _ ht => ?_) hs9
    split
    · exact .writeLost ht
    · exact .readEnds ht
    · exact ht
  exact .resetLinkHolders (.recvsLost hs10)

theorem loseHost {s : State} {h1 : HLink} {unit : Nat} (h : s.Formed) : (s.loseHost h1 unit).Formed := by
  unfold State.loseHost
  extract_lets st s1 s2 s3
  have hs1 : s1.Formed := .wb (.setLink h)
  have hs2 : s2.Formed := .wb (.showWidth hs1)
  have hs3 : s3.Formed := .fault (.dropHost hs2)
  exact .ite h (.trainHost (.lanesStop hs3))

theorem doHostLinkDisable {h0 : HLink} {s : State} (h : s.Formed) : (doHostLinkDisable h0 s).Formed := by
  unfold Machine.doHostLinkDisable
  extract_lets s1 s2
  have hs1 : s1.Formed := .wb h
  have hs2 : s2.Formed := .showWidth (.setLink hs1)
  exact .ite hs1 (.lanesStop (.dropHost (.wb hs2)))

theorem hostWindow {s : State} {h1 : HLink} (h : s.Formed) : (s.hostWindow h1).Formed := by
  unfold State.hostWindow
  split
  · exact .ite (.loseHost h) h
  · exact h

theorem hostForce {s : State} {h1 : HLink} (h : s.Formed) : (s.hostForce h1).Formed := by
  unfold State.hostForce
  extract_lets s1
  have hs1 : s1.Formed := .wb h
  exact .ite (.lanesStop (.modHl hs1)) (.loseHost hs1)

theorem enableHost {s : State} {h1 : HLink} (h : s.Formed) : (s.enableHost h1).Formed := by
  unfold State.enableHost
  extract_lets s1 s2
  have hs1 : s1.Formed := .wb h
  have hs2 : s2.Formed := .trainHost (.lanesReturn hs1)
  exact .ite hs1 (.ite (.loseHost hs2) hs2)

theorem doNakRepeatTimer {a : LinkId} {a1 : State} (h : a1.Formed) : (doNakRepeatTimer a a1).Formed := by
  unfold Machine.doNakRepeatTimer
  split
  · exact .portNakRepeat h
  · exact .hostNakRepeat h

theorem doReplayTimeout {a : LinkId} {a1 : State} (h : a1.Formed) : (doReplayTimeout a a1).Formed := by
  unfold Machine.doReplayTimeout
  split
  · exact .portReplayTimeout h
  · exact .hostReplayTimeout h

theorem doLinkUpStart {a : LinkId} {a1 : State} (h : a1.Formed) : (doLinkUpStart a a1).Formed := by
  unfold Machine.doLinkUpStart
  split
  · exact .portLinkUp h
  · exact .hostLinkUp h

theorem doHelloTimeout {a : LinkId} {a1 : State} (h : a1.Formed) : (doHelloTimeout a a1).Formed := by
  unfold Machine.doHelloTimeout
  split
  · exact .portHelloTimeout h
  · exact .hostHelloTimeout h

theorem doLinkRetrain {a : LinkId} {a1 : RetrainTrigger} {a2 : State} (h : a2.Formed) :
    (doLinkRetrain a a1 a2).Formed := by
  unfold Machine.doLinkRetrain
  split
  · exact .portTrigger h
  · exact .hostTrigger h

theorem doRetrainLaneDrop {a : LaneId} {a1 : State} (h : a1.Formed) : (doRetrainLaneDrop a a1).Formed := by
  unfold Machine.doRetrainLaneDrop
  split
  · exact .portLaneDrop h
  · exact .hostLaneDrop h

theorem doRetrainRepeat {a : LinkId} {a1 : State} (h : a1.Formed) : (doRetrainRepeat a a1).Formed := by
  unfold Machine.doRetrainRepeat
  split
  · exact .portRetrainRepeat h
  · exact .hostRetrainRepeat h

theorem doRetrainWindowExpiry {a : LinkId} {a1 : State} (h : a1.Formed) : (doRetrainWindowExpiry a a1).Formed := by
  unfold Machine.doRetrainWindowExpiry
  split
  · exact .portWindow h
  · exact .hostWindow h

theorem doForceFence {a : LinkId} {a1 : State} (h : a1.Formed) : (doForceFence a a1).Formed := by
  unfold Machine.doForceFence
  split
  · exact .fencePort (.wb h)
  · exact .hostForce h

theorem doLlRetrain {a : LinkId} {a1 : State} (h : a1.Formed) : (doLlRetrain a a1).Formed := by
  unfold Machine.doLlRetrain
  split
  · exact .portRetrainWrite h
  · exact .hostRetrainWrite h

theorem doIdleDelayExpiry {a : LinkId} {a1 : State} (h : a1.Formed) : (doIdleDelayExpiry a a1).Formed := by
  unfold Machine.doIdleDelayExpiry
  split
  · exact .portIdle h
  · exact .hostIdle h

theorem doLaneRetrain {a : LaneId} {a1 : State} (h : a1.Formed) : (doLaneRetrain a a1).Formed := by
  unfold Machine.doLaneRetrain
  split
  · exact .netLaneRetrain h
  · exact .hostLaneRetrain h

end State.Formed

end Sys2Proof.Machine
end

section
/-! PROOFS. EveryStepKeepsTheFormOfMemory: power, counters and the domains. -/

namespace Sys2Proof.Machine

-- The proofs are elaborated one after another: in parallel their threads' stacks need more memory than a compile may have.
set_option Elab.async false

namespace State.Formed

theorem pmTick {s : State} {cnt : Reg} {w : Word} {holds : Bool} {n : Nat} (h : s.Formed) :
    (s.pmTick cnt w holds n).Formed := by
  unfold State.pmTick
  extract_lets seen s1
  have hs1 : s1.Formed := .put h
  exact .ite h (.ite (.ite (.setReg h) h) (.ite (.setReg hs1) hs1))

theorem pmPassTime {s : State} {t0 t1 : Nat} (h : s.Formed) : (s.pmPassTime t0 t1).Formed :=
  .foldl (fun _ _ ht => .ite ht (.pmTick ht)) h

theorem pmBase {s : State} {sel cnt : Reg} (h : s.Formed) : (s.pmBase sel cnt).Formed := .put h

theorem setMode {s : State} {m : Nat} (h : s.Formed) : (s.setMode m).Formed := .wf h

theorem setStep {s : State} {n : Nat} (h : s.Formed) : (s.setStep n).Formed := .wf h

theorem modTack {s : State} {f : Tack → Tack} (h : s.Formed) : (s.modTack f).Formed := .put h

theorem modFlash {s : State} {f : Flash → Flash} (h : s.Formed) : (s.modFlash f).Formed := .put h

theorem modPins {s : State} {f : Pins → Pins} (h : s.Formed) : (s.modPins f).Formed := .put h

theorem showTk {s : State} (h : s.Formed) : s.showTk.Formed := by
  unfold State.showTk
  extract_lets f s1 s2 s3
  have hs1 : s1.Formed := .wf (.wf h)
  have hs2 : s2.Formed := .wf hs1
  have hs3 : s3.Formed := .wf hs2
  exact .setReg hs3

theorem reset : State.reset.Formed := ⟨rfl, rfl⟩

theorem coreReset {s : State} (_ : s.Formed) : s.coreReset.Formed := .put reset

theorem showCaps {s : State} {was : Nat → Bool} (h : s.Formed) : (s.showCaps was).Formed := by
  unfold State.showCaps
  extract_lets eff s1 u
  have hu : ∀ x0 x1, x0.Formed → State.Formed (u x0 x1) := fun _ _ ht => .ite (.ite (.fault ht) (.fault ht)) ht
  have hs1 : s1.Formed := .wf (.wf h)
  exact .wb (.foldl hu hs1)

theorem mainOff {s : State} (h : s.Formed) : s.mainOff.Formed := by
  unfold State.mainOff
  refine .showCaps (.modTack (.modPins ?_))
  extract_lets u
  have hu : u.Formed := .coreReset h
  exact .put hu

theorem endStart {s : State} (h : s.Formed) : s.endStart.Formed := by
  unfold State.endStart
  extract_lets s1
  have hs1 : s1.Formed := by
    unfold s1
    split
    · exact .modFlash h
    · exact .modFlash h
    · exact h
  exact .modTack hs1

theorem startReason {s : State} {reason : Nat} (h : s.Formed) : (s.startReason reason).Formed := .modFlash h

theorem failStart {s : State} {reason : Nat} (h : s.Formed) : (s.failStart reason).Formed :=
  .showTk (.modTack (.setStep (.mainOff (.endStart (.startReason h)))))

theorem startVoltage {s : State} (h : s.Formed) : s.startVoltage.Formed := by
  unfold State.startVoltage
  split
  · rename_i he
    split
    · rename_i he1
      exact .wf (.wf (.ofSnd (.free (.ofSnd (.free h) he)) he1))

theorem beginStart {s : State} (h : s.Formed) : s.beginStart.Formed := by
  unfold State.beginStart
  extract_lets s1 s2 s3 step s4
  have hs1 : s1.Formed := .modFlash h
  have hs2 : s2.Formed := .modTack hs1
  have hs3 : s3.Formed := .wf (.modPins hs2)
  have hs4 : s4.Formed := .showTk (.setStep (.setMode hs3))
  exact .ite (.showCaps (.startVoltage hs4)) hs4

theorem dustUp {s : State} (h : s.Formed) : s.dustUp.Formed :=
  .trainHost (.modTack (.showCaps (.startVoltage (.put h))))

theorem enterDust {s : State} (h : s.Formed) : s.enterDust.Formed := by
  unfold State.enterDust
  extract_lets s1 s2 s3 s4
  have hs1 : s1.Formed := .modFlash h
  have hs2 : s2.Formed := .modPins hs1
  have hs3 : s3.Formed := .modTack hs2
  have hs4 : s4.Formed := .showTk (.setStep (.setMode hs3))
  exact .ite (.dustUp hs4) hs4

theorem countPoint {s : State} (h : s.Formed) : s.countPoint.Formed := by
  unfold State.countPoint
  extract_lets exempt s1
  have hs1 : s1.Formed := .modTack h
  exact .ite (.enterDust hs1) (.beginStart (.modFlash hs1))

theorem tackStart {s : State} (h : s.Formed) : s.tackStart.Formed := by
  unfold State.tackStart
  extract_lets f f1 u s1
  have hu : u.Formed := .coreReset h
  have hs1 : s1.Formed := .put hu
  exact .showTk (.setStep hs1)

theorem mainSeen {s : State} {vinMain : Bool} (h : s.Formed) : (s.mainSeen vinMain).Formed := by
  unfold State.mainSeen
  extract_lets s1
  have hs1 : s1.Formed := .modPins h
  exact .ite (.modFlash hs1) hs1

theorem doVinAuxRise {vinMain : Bool} {s : State} (h : s.Formed) : (doVinAuxRise vinMain s).Formed := by
  unfold Machine.doVinAuxRise
  extract_lets s1
  have hs1 : s1.Formed := .modPins h
  exact .ite h (.ite (.tackStart (.mainSeen hs1)) hs1)

theorem doResetLRise {s : State} (h : s.Formed) : (doResetLRise s).Formed := by
  unfold Machine.doResetLRise
  extract_lets s1
  have hs1 : s1.Formed := .modPins h
  exact .ite h (.ite (.tackStart hs1) hs1)

theorem doColdReset {s : State} (h : s.Formed) : (doColdReset s).Formed := by
  unfold Machine.doColdReset
  extract_lets s1 dust s2 u
  have hs1 : s1.Formed := .modPins h
  have hs2 : s2.Formed := .ite (.endStart (.startReason hs1)) hs1
  have hu : u.Formed := .coreReset hs2
  exact .ite h (.ite hs1 (.put hu))

theorem showGrave {s : State} {code : Nat} (h : s.Formed) : (s.showGrave code).Formed := by
  unfold State.showGrave
  extract_lets s1
  have hs1 : s1.Formed := .modPins h
  exact .ite hs1 (.modPins hs1)

theorem doTackRoomReady {vinMain : Bool} {addr : BitVec 2} {s : State} (h : s.Formed) :
    (doTackRoomReady vinMain addr s).Formed := by
  unfold Machine.doTackRoomReady
  extract_lets s1 s2
  split
  · exact h
  · have hs1 : s1.Formed := .modTack (.modPins (.mainSeen h))
    split
    · exact .wb (.setStep (.setMode (.showGrave (.mainOff hs1))))
    · have hs2 : s2.Formed := .modPins hs1
      exact .ite (.setStep hs2) (.countPoint hs2)

theorem doMainPgRise {s : State} (h : s.Formed) : (doMainPgRise s).Formed := by
  unfold Machine.doMainPgRise
  extract_lets s1
  have hs1 : s1.Formed := .modPins h
  exact .ite h (.ite hs1 (.ite (.failStart hs1) (.ite (.setMode (.mainOff hs1))
    (.ite (.modTack (.setStep hs1)) (.ite (.modTack hs1) hs1)))))

theorem doMainPgTimeout {s : State} (h : s.Formed) : (doMainPgTimeout s).Formed :=
  .ite h (.ite (.failStart h) (.ite (.setMode (.mainOff h)) h))

theorem doStartRetry {s : State} (h : s.Formed) : (doStartRetry s).Formed := by
  unfold Machine.doStartRetry
  split
  · exact h
  · exact .ite h (.countPoint (.modTack h))

theorem doMainPowerLost {vinMain : Bool} {s : State} (h : s.Formed) : (doMainPowerLost vinMain s).Formed := by
  unfold Machine.doMainPowerLost
  extract_lets s1 s2
  have hs1 : s1.Formed := .modFlash (.modPins h)
  have hs2 : s2.Formed := .ite (.fault hs1) hs1
  exact .ite h (.ite (.failStart hs2) (.ite (.showTk (.modTack (.mainOff (.startReason hs2))))
    (.ite (.setMode (.mainOff hs2)) (.mainOff hs2))))

theorem doVinAuxLost {s : State} (h : s.Formed) : (doVinAuxLost s).Formed := by
  unfold Machine.doVinAuxLost
  extract_lets s1 s2
  have hs1 : s1.Formed := .ite (.endStart h) h
  have hs2 : s2.Formed := .mainOff hs1
  exact .ite h (.put hs2)

theorem graveRecord {s : State} {code unit : Nat} {first : Bool} (h : s.Formed) :
    (s.graveRecord code unit first).Formed := by
  unfold State.graveRecord
  extract_lets s1 s2
  have hs1 : s1.Formed := .bump h
  have hs2 : s2.Formed := .ite (.wf (.wf hs1)) hs1
  exact .ite h (.ite hs1 (.wb (.wf hs2)))

theorem grave {s : State} {code unit : Nat} (h : s.Formed) : (s.grave code unit).Formed := by
  unfold State.grave
  split
  · exact h
  · split
    · extract_lets s1
      have hs1 : s1.Formed := .ite (.mainOff h) h
      exact .graveRecord (.showGrave hs1)
    · extract_lets s1 s2 s3 s4
      have hs1 : s1.Formed := .showGrave (.modFlash h)
      have hs2 : s2.Formed := .ite (.endStart hs1) hs1
      have hs3 : s3.Formed := .modTack (.mainOff hs2)
      have hs4 : s4.Formed := .ite (.showTk (.setStep (.setMode hs3))) hs3
      exact .graveRecord hs4

theorem doThermalTrip {sensor : Fin 24} {s : State} (h : s.Formed) : (doThermalTrip sensor s).Formed := .grave h

theorem doGraveFault {k : GraveKind} {unit : BitVec 8} {s : State} (h : s.Formed) :
    (doGraveFault k unit s).Formed := by
  unfold Machine.doGraveFault
  split
  · exact .ite (.grave h) h
  · exact .grave h
  · exact .ite (.grave h) h
  · exact .grave h

theorem doWatchdogExpiry {s : State} (h : s.Formed) : (doWatchdogExpiry s).Formed := by
  unfold Machine.doWatchdogExpiry
  extract_lets s1 s2
  have hs1 : s1.Formed := .ite (.endStart (.startReason h)) h
  have hs2 : s2.Formed := .showTk (.mainOff (.modFlash hs1))
  exact .ite h (.modPins (.modTack hs2))

theorem doPaceInterval {east west : List (BitVec 16)} {s : State} (h : s.Formed) :
    (doPaceInterval east west s).Formed := by
  unfold Machine.doPaceInterval
  extract_lets s1 low one s2
  have hone : ∀ x0 x1 x2, x2.Formed → State.Formed (one x0 x1 x2) := by
    intro _ _ _ ht
    unfold one
    extract_lets v s3
    have hs3 : s3.Formed := .ite (.wf ht) (.wf ht)
    exact .ite (.fault (.wb hs3)) hs3
  have hs1 : s1.Formed := .put h
  have hs2 : s2.Formed := hone _ _ _ hs1
  exact .ite h (.ite (.wf hs2) (hone _ _ _ hs2))

theorem doVoltageLoopTick {tj : List (BitVec 8)} {s : State} (h : s.Formed) : (doVoltageLoopTick tj s).Formed := by
  unfold Machine.doVoltageLoopTick
  extract_lets s1 was top s2 s3 e
  split
  · exact h
  · split
    · rename_i he
      extract_lets s4
      have hs1 : s1.Formed := .modTack h
      have hs2 : s2.Formed := .modTack (.wf (.wf hs1))
      have hs3 : s3.Formed := .showCaps hs2
      have hs4 : s4.Formed := .wf (.ofSnd (.free hs3) he)
      exact .ite hs4 (.wf hs4)

theorem doPowerCapTick {watts : BitVec 16} {s : State} (h : s.Formed) : (doPowerCapTick watts s).Formed := by
  unfold Machine.doPowerCapTick
  extract_lets s1 was w limit cap s2 cap1
  have hs1 : s1.Formed := .modTack h
  have hs2 : s2.Formed := .wf hs1
  exact .ite h (.showCaps (.wf hs2))

theorem doRegulatorsUp {s : State} (h : s.Formed) : (doRegulatorsUp s).Formed :=
  .ite h (.ite (.failStart h) (.ite (.modTack (.setStep (.showCaps (.startVoltage (.put h))))) (.ite (.dustUp h) h)))

theorem holdValues {s : State} {d : Nat} (h : s.Formed) : (s.holdValues d).Formed :=
  .foldl (fun _ _ ht => .setReg ht) (.foldl (fun _ _ ht => .pmFreeze ht) h)

theorem dropDomain {s : State} {d : Nat} (h : s.Formed) : (s.dropDomain d).Formed := by
  unfold State.dropDomain
  extract_lets home inj ht awaited u
  have hu : u.Formed := .groomsLost h
  exact ⟨hu.hbm, wf_filter _ _ h.buf⟩

theorem ackRest {s : State} (h : s.Formed) : s.ackRest.Formed :=
  .foldl (fun _ _ ht => .foldl (fun _ _ ht1 => .ite ht1 (.invalAck ht1)) ht) h

theorem reportLoss {s : State} {d n cause agent : Nat} (h : s.Formed) : (s.reportLoss d n cause agent).Formed := by
  unfold State.reportLoss
  refine .foldl (fun _ _ ht => ?_) h
  extract_lets r
  exact .ite (.postMgmt ht) ht

theorem fenceDomain {s : State} {d cause agent : Nat} (h : s.Formed) : (s.fenceDomain d cause agent).Formed := by
  unfold State.fenceDomain
  extract_lets n s1 r s2 lost s3 s4 s5 s6
  have hs1 : s1.Formed := .holdValues h
  have hs2 : s2.Formed := .wf (.wf (.wf hs1))
  have hs3 : s3.Formed := .dropDomain hs2
  have hs4 : s4.Formed := .foldl (fun _ _ ht => .done ht) hs3
  have hs5 : s5.Formed := .ackRest hs4
  have hs6 : s6.Formed := .fault hs5
  exact .ite h (.ite (.reportLoss hs6) hs6)

theorem domainFailure {s : State} {d cause agent : Nat} (h : s.Formed) : (s.domainFailure d cause agent).Formed := by
  unfold State.domainFailure
  extract_lets r s1
  have hs1 : s1.Formed := .wf (.wf (.wf h))
  exact .ite (.ite (.failStart h) h) (.ite (.fault (.put hs1)) (.fenceDomain h))

theorem doCoherenceTimeout {d : Dom} {agent : BitVec 8} {dt : Nat} {s : State} (h : s.Formed) :
    (doCoherenceTimeout d agent dt s).Formed :=
  .ite (.domainFailure h) h

theorem doStewardWatchdog {d : Dom} {served : Nat} {s : State} (h : s.Formed) :
    (doStewardWatchdog d served s).Formed :=
  .ite (.domainFailure h) h

theorem corrected {s : State} {d : Dom} {b : Block} {low unit : Nat} (h : s.Formed) :
    (s.corrected d b low unit).Formed :=
  .ite (.fault h) h

theorem doContextStoreFailure {d : Dom} {c : StoreFailure} {agent : BitVec 8} {s : State} (h : s.Formed) :
    (doContextStoreFailure d c agent s).Formed := by
  unfold Machine.doContextStoreFailure
  extract_lets lost st
  have hlost : ∀ x0, State.Formed (lost x0) := fun _  => .domainFailure h
  split
  · exact hlost _
  · exact hlost _
  · exact hlost _
  · exact hlost _
  · exact hlost _
  · exact .corrected h
  · exact .corrected h
  · extract_lets k
    split
    · exact h
    · have hlost : ∀ x0, State.Formed (lost x0) := fun _  => .domainFailure h
      exact hlost _
    · exact .corrected (.lineDrop h)

theorem doDirectoryRequest {d : Dom} {cache : Fin 8} {req : DirReq} {line : Nat} {s : State} (h : s.Formed) :
    (doDirectoryRequest d cache req line s).Formed := by
  unfold Machine.doDirectoryRequest
  extract_lets k c mine fail
  split
  · exact h
  · have hfail : fail.Formed := .domainFailure h
    split
    · exact .ite (.put h) (.ite hfail (.lineShare h))
    · exact .ite hfail (.lineOwn h)
    · exact .ite (.lineOwn h) hfail
    · exact .ite (.lineOwn h) h
    · exact .ite hfail (.lineDrop h)

theorem doUncachedRead {d : Dom} {line : Nat} {s : State} (h : s.Formed) : (doUncachedRead d line s).Formed :=
  .ite (.lineRead h) h

theorem maskWrite {s : State} {a : Nat} {mask : BitVec 64} {data : BitVec 512} (h : s.Formed) :
    (s.maskWrite a mask data).Formed :=
  .foldl (fun _ _ ht => .ite (.hbmWrite ht) ht) h

theorem doUncachedWrite {d : Dom} {line : Nat} {mask : BitVec 64} {data : BitVec 512} {s : State} (h : s.Formed) :
    (doUncachedWrite d line mask data s).Formed := .ite (.lineWrite (.maskWrite h)) h

theorem doWriteHint {d : Dom} {line : Nat} {data : BitVec 512} {target : Fin 8} {ready : Bool} {s : State}
    (h : s.Formed) :
    (doWriteHint d line data target ready s).Formed := by
  have hput : ∀ u : State, u.Formed → ∀ x, State.Formed { u with hints := x } := fun u hu _ => .put hu
  unfold Machine.doWriteHint
  extract_lets k s1 s2
  have hs1 : s1.Formed := .lineWrite (.maskWrite h)
  have hs2 : s2.Formed := .setHolders (.makeRoom hs1)
  exact .ite (.ite (hput _ hs2 _) (.bump hs1)) h

theorem doHitchAtomic {d : Dom} {addr : BitVec 64} {code : BitVec 11} {operand compare : BitVec 64} {s : State}
    (h : s.Formed) : (doHitchAtomic d addr code operand compare s).Formed := .ite h
      (.ite (.emit h) (.emit (.emit (.hitchAtom h))))

end State.Formed

end Sys2Proof.Machine
end

section
/-! PROOFS. EveryStepKeepsTheFormOfMemory: reads and writes of the device address space. -/

namespace Sys2Proof.Machine

-- The proofs are elaborated one after another: in parallel their threads' stacks need more memory than a compile may have.
set_option Elab.async false

namespace State.Formed

theorem store {s : State} {m : Master} {r : Reg} {v : Word} (h : s.Formed) : (s.store m r v).Formed := .setReg h

theorem clearMbBuf {s : State} (h : s.Formed) : s.clearMbBuf.Formed := ⟨h.hbm, wf_filter _ _ h.buf⟩

theorem endClaim {s : State} (h : s.Formed) : s.endClaim.Formed := by
  unfold State.endClaim
  extract_lets s1 hush u
  have hs1 : s1.Formed := .clearMbBuf (.foldl (fun _ _ ht => .setReg ht) (.setReg h))
  exact .put hs1

theorem mbShow {s : State} {result detail : Nat} {out : List Byte} (h : s.Formed) :
    (s.mbShow result detail out).Formed := by
  unfold State.mbShow
  extract_lets u
  have hu : u.Formed := .setReg h
  exact ⟨hu.hbm, wf_memWrite _ _ _ hu.buf⟩

theorem mbDone {s : State} {result detail : Nat} {out : List Byte} (h : s.Formed) :
    (s.mbDone result detail out).Formed := by
  unfold State.mbDone
  split
  · exact h
  · extract_lets u s1 u1 s2 u2 u3
    have hs1 : s1.Formed := .ite (.mbShow h) h
    have hs2 : s2.Formed := .put hs1
    have hu2 : u2.Formed := .wb hs2
    exact .ite hs2 (.put hu2)

theorem mbUrgentDone {s : State} {result detail : Nat} {out : List Byte} (h : s.Formed) :
    (s.mbUrgentDone result detail out).Formed := by
  unfold State.mbUrgentDone
  split
  · exact h
  · extract_lets s1 u s2 u1 u2
    have hs1 : s1.Formed := .ite h (.mbShow h)
    have hs2 : s2.Formed := .put hs1
    have hu1 : u1.Formed := .wb hs2
    exact .ite hs2 (.put hu1)

theorem mbGo {s : State} {v : Word} (h : s.Formed) : (s.mbGo v).Formed := by
  unfold State.mbGo
  extract_lets code busy c u u1 s1 u2
  have hu : u.Formed := .setReg h
  have hs1 : s1.Formed := .put hu
  have hu2 : u2.Formed := .wf h
  exact .ite (.wf h) (.ite (.ite hs1 (.mbDone hs1)) (.ite (.put hu2) h))

theorem claimRead {s : State} {m : Master} (h : s.Formed) : (s.claimRead m).2.Formed := .ite (.put h) h

theorem linkLosesLane {s : State} {a : LaneId} (h : s.Formed) : (s.linkLosesLane a).Formed := by
  unfold State.linkLosesLane
  split
  · exact .portLaneLost h
  · exact .hostLaneLost h

theorem writeLaneCtrl {s : State} {m : Master} {n : LaneId} {v : Word} (h : s.Formed) :
    (s.writeLaneCtrl m n v).Formed := by
  unfold State.writeLaneCtrl
  extract_lets r was s1 s2 s3 s4
  have hs1 : s1.Formed := .store h
  have hs2 : s2.Formed := .ite (.linkLosesLane (.laneOff hs1)) (.ite (.laneTrainStart hs1) hs1)
  have hs3 : s3.Formed := .ite (.sendNext (.modLane hs2)) hs2
  have hs4 : s4.Formed := .sendPattern (.testState hs3)
  exact .ite (.doLaneRetrain hs4) hs4

theorem writeLaneTest {s : State} {m : Master} {n : LaneId} {v : Word} (h : s.Formed) :
    (s.writeLaneTest m n v).Formed := by
  unfold State.writeLaneTest
  extract_lets was s1 s2 s3 s4
  have hs1 : s1.Formed := .ite h (.modLane h)
  have hs2 : s2.Formed := .store hs1
  have hs3 : s3.Formed := .ite (.checkerStops hs2) hs2
  have hs4 : s4.Formed := .sendPattern (.testState hs3)
  exact .ite (.doInjectNow hs4) hs4

theorem writePortCtrl {s : State} {m : Master} {p : Port} {v : Word} (h : s.Formed) :
    (s.writePortCtrl m p v).Formed := by
  unfold State.writePortCtrl
  extract_lets r old s1 freed s2 s3 s4
  have hs1 : s1.Formed := .store h
  have hs2 : s2.Formed := .ite (.doForceFence hs1) (.ite (.trainPort hs1) hs1)
  have hs3 : s3.Formed := .ite (.doLinkRetrain hs2) hs2
  have hs4 : s4.Formed := .ite (.doLlRetrain hs3) hs3
  exact .ite (.doPortDisable hs1) (.ite (.enablePort hs1) (.ite (.doLlRehello hs4) hs4))

theorem writeHostCtrl {s : State} {m : Master} {h2 : HLink} {v : Word} (h : s.Formed) :
    (s.writeHostCtrl m h2 v).Formed := by
  unfold State.writeHostCtrl
  extract_lets r old s1 s2 s3
  have hs1 : s1.Formed := .store h
  have hs2 : s2.Formed := .ite (.doForceFence hs1) (.ite (.trainHost hs1) hs1)
  have hs3 : s3.Formed := .ite (.doLinkRetrain hs2) hs2
  exact .ite (.doHostLinkDisable hs1) (.ite (.enableHost hs1) (.ite (.doLlRetrain hs3) hs3))

theorem doRtExcWrite {st : Stall} {i : Fin 4096} {v : Word} {s : State} (h : s.Formed) :
    (doRtExcWrite st i v s).Formed := by
  unfold Machine.doRtExcWrite
  extract_lets r s1
  have hs1 : s1.Formed := .setReg h
  exact .ite (.noteReserved h) (.ite hs1 (.noteReserved hs1))

theorem writeCqCtrl {s : State} {d : Dom} {v : Word} (h : s.Formed) : (s.writeCqCtrl d v).Formed := by
  unfold State.writeCqCtrl
  extract_lets q
  split
  · exact .doCqStop h
  · exact .doCqStart h
  · exact .doCqResume h
  · exact .doCqAbort h
  · exact .doCqFlush h

theorem writeClInstall {s : State} {m : Master} {e : Engine} {v : Word} (h : s.Formed) :
    (s.writeClInstall m e v).Formed := by
  unfold State.writeClInstall
  extract_lets s1 g
  have hs1 : s1.Formed := .store h
  split
  · exact hs1
  · split
    · exact .doClInstall hs1
    · exact .doClRemove hs1
    · exact .doClAbort hs1

theorem writeClCtrl {s : State} {m : Master} {e : Engine} {v : Word} (h : s.Formed) :
    (s.writeClCtrl m e v).Formed := by
  unfold State.writeClCtrl
  extract_lets off s1
  have hs1 : s1.Formed := .store h
  exact .ite (.doClUnfence hs1) hs1

theorem writeGrCtrl {s : State} {m : Master} {st : Stall} {v : Word} (h : s.Formed) :
    (s.writeGrCtrl m st v).Formed := by
  unfold State.writeGrCtrl
  extract_lets s1 s2
  have hs1 : s1.Formed := .store h
  have hs2 : s2.Formed := .foldl (fun _ _ ht => .ite (.doGroomReset ht) ht) hs1
  exact .foldl (fun _ _ ht => .ite (.wb ht) ht) hs2

theorem writeNtCtrl {s : State} {m : Master} {v : Word} (h : s.Formed) : (s.writeNtCtrl m v).Formed := by
  unfold State.writeNtCtrl
  extract_lets was s1 u
  have hs1 : s1.Formed := .store h
  have hu : u.Formed := .wf hs1
  exact .ite (.put hu) (.ite (.chooseParent hs1) hs1)

theorem writeTmCtrl {s : State} {d : Dom} {i : Fin 16} {v : Word} (h : s.Formed) : (s.writeTmCtrl d i v).Formed := by
  unfold State.writeTmCtrl
  extract_lets r old rel w u
  have hu : u.Formed := .setReg h
  exact .ite (.setReg h) (.ite (.put hu) (.setReg h))

theorem regEffect {s : State} {m : Master} {r : Reg} {v : Word} (h : s.Formed) : (s.regEffect m r v).Formed := by
  unfold State.regEffect
  split
  · exact .writeLaneCtrl h
  · exact .writeLaneTest h
  · extract_lets s1
    have hs1 : s1.Formed := .store h
    exact .ite hs1 (.forcedTaps hs1)
  · exact .showEq (.adaptOn (.store h))
  · extract_lets s1
    have hs1 : s1.Formed := .store h
    exact .ite (.doMarginScanStart hs1) hs1
  · exact .writePortCtrl h
  · exact .writeHostCtrl h
  · exact .writeCqCtrl h
  · exact .ite (.doMtCancel h) (.store h)
  · exact .writeClInstall h
  · exact .writeClCtrl h
  · exact .writeGrCtrl h
  · extract_lets s1
    have hs1 : s1.Formed := .store h
    exact .ite (.doGrResume hs1) hs1
  · exact .writeNtCtrl h
  · exact .doNtSeedArm h
  · exact .doGateSwitchRequest h
  · exact .ite h (.store h)
  · exact .writeTmCtrl h
  · exact .showCaps (.store h)
  · exact .showCaps (.store h)
  · exact .showCaps (.store h)
  · exact .pmFixedWrite h
  · exact .pmBase (.store h)
  · exact .pmBase (.store h)
  · extract_lets s1
    have hs1 : s1.Formed := .store h
    exact .setReg hs1
  · exact .store h

theorem regWrite {s : State} {m : Master} {r : Reg} {v : Word} (h : s.Formed) : (s.regWrite m r v).Formed := by
  unfold State.regWrite
  split
  · exact h
  · split
    · exact .doRtExcWrite h
    · exact .doCqAdminWrite h
    · split
      · exact .noteReserved h
      · split
        · exact .endClaim h
        · exact .mbGo h
        · exact .regEffect h

theorem clearRc {s : State} {r : Reg} (h : s.Formed) : (s.clearRc r).Formed := .ite h (.setReg h)

theorem regRead {s : State} {m : Master} {r : Reg} (h : s.Formed) : (s.regRead m r).2.Formed := by
  unfold State.regRead
  split
  · exact .claimRead h
  · exact .errcntRead h
  · exact .adaptOn h
  · split
    · extract_lets rest
      exact .put h
    · split
      · exact .put h
      · exact .clearRc h

theorem busWrite {s : State} {m : Master} {a : Nat} {v : Word} (h : s.Formed) : (s.busWrite m a v).2.Formed := by
  have hmem : ∀ bs, State.Formed { s with buf := memWrite s.buf a bs } := fun bs => ⟨h.hbm, wf_memWrite bs _ a h.buf⟩
  unfold State.busWrite
  split
  · exact h
  · split
    · exact h
    · split
      · split
        · exact h
        · exact .regWrite h
      · split
        · exact h
        · split
          · exact h
          · exact .noteReserved h
      · split
        · exact h
        · exact hmem _
      · split
        · exact hmem _
        · exact h
      · split
        · exact h
        · exact h
      · split
        · exact .uncachedWrite h
        · exact h
      · exact h
      · exact h

theorem hbmWindow {s : State} {a n : Nat} (h : s.Formed) : (s.hbmWindow a n).2.Formed := by
  unfold State.hbmWindow
  extract_lets t
  have ht : t.Formed := .uncachedRead h
  split
  · exact .put ht
  · exact ht

theorem doCwr {h0 : HLink} {s : State} (h : s.Formed) : (doCwr h0 s).Formed := by
  unfold Machine.doCwr
  split
  · exact h
  · rename_i he
    extract_lets n a f st data res
    have hres : res.2.Formed := by
      unfold res
      split
      · exact .takeTlp h he
      · split
        · exact .uncachedWrite (.takeTlp h he)
        · exact .busWrite (.takeTlp h he)
    exact .answer hres

theorem busRead {s : State} {m : Master} {a : Nat} (h : s.Formed) : (s.busRead m a).2.2.Formed := by
  unfold State.busRead
  split
  · exact h
  · split
    · exact h
    · split
      · exact .sndSnd (.regRead h)
      · exact h
      · exact h
      · exact h
      · split
        · exact .sndSnd (.hkWindow h)
        · exact h
      · split
        · exact .sndSnd (.snd (.hbmWindow h))
        · exact h
      · exact h
      · exact h

theorem doCrd {h0 : HLink} {s : State} (h : s.Formed) : (doCrd h0 s).Formed := by
  unfold Machine.doCrd
  split
  · exact h
  · rename_i he
    have hu := takeTlp h he
    extract_lets n a f st r res
    have hr : r.2.2.Formed := .busRead hu
    have hres : res.2.2.Formed := by
      unfold res
      split
      · exact hu
      · split
        · exact .sndSnd (.snd (.hbmWindow hu))
        · exact .sndSnd (.snd hr)
    exact .answer hres

theorem doMbClaimLapse {s : State} (h : s.Formed) : (doMbClaimLapse s).Formed := .ite (.endClaim h) h

theorem doWalkRead {w : Nat} {s : State} (h : s.Formed) : (doWalkRead w s).Formed := .walkRead h

theorem coreError {s : State} {core a : Nat} {late : Bool} (h : s.Formed) : (s.coreError core a late).Formed :=
  .ite (.coreNote h) (.emit h)

theorem coreWrite {s : State} {core a : Nat} {v : Word} {late : Bool} {tok : Tok} (h : s.Formed) :
    (s.coreWrite core a v late tok).Formed := by
  unfold State.coreWrite
  split
  · exact .ite (.coreError h) (.hostWrite h)
  · extract_lets r
    have hr : r.2.Formed := .busWrite h
    exact .ite hr (.coreError hr)

theorem coreWriteNow {s : State} {core a : Nat} {v : Word} {strict : Bool} (h : s.Formed) :
    (s.coreWriteNow core a v strict).Formed := .ite (.coreWrite (.put h)) (.coreWrite h)

theorem corePerform {s : State} {x : CoreAcc} (h : s.Formed) : (s.corePerform x).Formed := by
  unfold State.corePerform
  split
  · exact .coreWriteNow (.coreDone h)
  · exact .coreWrite (.coreDone h)
  · exact h

theorem barFull {s : State} {core : Nat} {k : State → State} (h : s.Formed)
    (hk : ∀ (a : State), a.Formed → (k a).Formed) : (s.barFull core k).Formed := by
  unfold State.barFull
  extract_lets s1
  have hs1 : s1.Formed := .foldl (fun _ _ ht => .corePerform ht) h
  exact .ite hs1 (hk _ hs1)

theorem coreArrive {s : State} {core e : Nat} (h : s.Formed) : (s.coreArrive core e).Formed :=
  .foldl (fun _ _ ht => .corePerform ht) h

theorem coreDrift {s : State} {core : Nat} (h : s.Formed) : (s.coreDrift core).Formed := by
  unfold State.coreDrift
  extract_lets xs
  split
  · exact h
  · split
    · rename_i he
      extract_lets one
      have hone : ∀ x0 x1, x0.Formed → State.Formed (one x0 x1) := by
        intro _ _ ht
        unfold one
        split
        · exact ht
        · extract_lets first
          exact .ite (.corePerform ht) ht
      exact .foldl hone (.ofSnd (.free h) he)

theorem coreStrict {s : State} {core a : Nat} {k : State → State} (h : s.Formed)
    (hk : ∀ (a : State), a.Formed → (k a).Formed) : (s.coreStrict core a k).Formed :=
  .barFull h (fun _ ht => .coreDrift (hk _ (.coreArrive ht)))

theorem coreWeak {s : State} {core a : Nat} {k : State → State} (h : s.Formed)
    (hk : ∀ (a : State), a.Formed → (k a).Formed) : (s.coreWeak core a k).Formed :=
  .ite h (.coreDrift (hk _ h))

theorem inCoreOrder {s : State} {m : Master} {a : Nat} {k : State → State} (h : s.Formed)
    (hk : ∀ (a : State), a.Formed → (k a).Formed) : (s.inCoreOrder m a k).Formed := by
  unfold State.inCoreOrder
  split
  · exact hk _ h
  · exact .coreStrict h hk

theorem coreAccept {s : State} {core a : Nat} {v : Word} (h : s.Formed) : (s.coreAccept core a v).Formed := .put h

theorem coreHold {s : State} {core a : Nat} {v : Word} (h : s.Formed) : (s.coreHold core a v).Formed := .put h

theorem coreStore {s : State} {core a : Nat} {v : Word} (h : s.Formed) : (s.coreStore core a v).Formed :=
  .ite (.coreWeak h (fun _ ht => .ite (.coreAccept ht) (.coreHold ht)))
    (.coreStrict h (fun _ ht => .ite (.coreAccept ht) (.coreWriteNow ht)))

theorem busLoad {s : State} {m : Master} {a : Nat} (h : s.Formed) : (s.busLoad m a).Formed := by
  unfold State.busLoad
  split
  · exact .ite (.emit h) (.sendReq (.put h))
  · extract_lets r
    have hr : r.2.2.Formed := .busRead h
    exact .ite (.emit hr) (.emit hr)

theorem coreLoad {s : State} {m : Master} {core a : Nat} (h : s.Formed) : (s.coreLoad m core a).Formed := by
  unfold State.coreLoad
  extract_lets s1 s2
  have hs1 : s1.Formed := .foldl (fun _ _ ht => .corePerform ht) h
  have hs2 : s2.Formed := .coreArrive hs1
  exact .ite (.coreWeak hs2 (fun _ ht => .busLoad ht)) (.coreStrict h (fun _ ht => .busLoad ht))

theorem coresIdle {s : State} (h : s.Formed) : s.coresIdle.Formed := .ite h (.foldl (fun _ _ ht => .corePerform ht) h)

theorem doRegisterWrite {m : Master} {addr value : BitVec 64} {s : State} (h : s.Formed) :
    (doRegisterWrite m addr value s).Formed := by
  unfold Machine.doRegisterWrite
  extract_lets a
  split
  · exact h
  · split
    · exact .coreStore h
    · exact .busWrite h

theorem doBusRead {m : Master} {addr : BitVec 64} {s : State} (h : s.Formed) : (doBusRead m addr s).Formed := by
  unfold Machine.doBusRead
  extract_lets a
  split
  · exact h
  · split
    · exact .coreLoad h
    · exact .busLoad h

theorem doRcRead {m : Master} {addr : BitVec 64} {s : State} (h : s.Formed) : (doRcRead m addr s).Formed :=
  .doBusRead h

theorem doDigestHiRead {m : Master} {addr : BitVec 64} {s : State} (h : s.Formed) :
    (doDigestHiRead m addr s).Formed :=
  .doBusRead h

theorem doMbClaimRead {m : Master} {s : State} (h : s.Formed) : (doMbClaimRead m s).Formed := .doBusRead h

theorem doMbClaimRelease {m : Master} {s : State} (h : s.Formed) : (doMbClaimRelease m s).Formed := .doRegisterWrite h

end State.Formed

end Sys2Proof.Machine
end

section
/-! PROOFS. EveryStepKeepsTheFormOfMemory: coats and the mailbox. -/

namespace Sys2Proof.Machine

-- The proofs are elaborated one after another: in parallel their threads' stacks need more memory than a compile may have.
set_option Elab.async false

namespace State.Formed

theorem coatCount {s : State} {r : Reg} {m v : Word} (h : s.Formed) : (s.coatCount r m v).Formed := by
  unfold State.coatCount
  split
  · exact .ite h (.modPort h)
  · exact .put h
  · exact h

theorem coatSet {s : State} {rec : List Word} (h : s.Formed) : (s.coatSet rec).Formed := by
  unfold State.coatSet
  split
  · exact h
  · extract_lets m v s1 set fm s2
    have hs1 : s1.Formed := by
      unfold s1
      split
      · exact .doCqAdminWrite h
      · exact h
      · exact .regEffect h
    have hs2 : s2.Formed := .ite hs1 (.setReg hs1)
    exact .ite (.noteReserved h) (.coatCount hs2)

theorem coatQos {s : State} {rec : List Word} (h : s.Formed) : (s.coatQos rec).Formed := by
  unfold State.coatQos
  split
  · exact h
  · exact .regWrite h

theorem coatCal {s : State} {rec : List Word} (h : s.Formed) : (s.coatCal rec).Formed := by
  unfold State.coatCal
  split
  · exact h
  · extract_lets s1
    have hs1 : s1.Formed := .put h
    exact .regEffect hs1

theorem coatImage {s : State} {x : CoatSec} (h : s.Formed) : (s.coatImage x).Formed := by
  unfold State.coatImage
  extract_lets s1 ws
  have hs1 : s1.Formed := .uncachedWrite h
  exact .ite (.ctxStore (.modCtx hs1)) hs1

theorem firstEpoch {s : State} {x : CoatSec} (h : s.Formed) : (s.firstEpoch x).Formed := .wf (.put h)

theorem partition {s : State} {x : CoatSec} {ds : List Nat} (h : s.Formed) : (s.partition x ds).Formed := by
  unfold State.partition
  extract_lets t s1
  have hs1 : s1.Formed := .put h
  refine .foldl (fun _ _ ht => ?_) hs1
  extract_lets base units s2 s3 s4
  have hs2 : s2.Formed := .setReg ht
  have hs3 : s3.Formed := .setReg hs2
  have hs4 : s4.Formed := .setReg hs3
  exact .foldl (fun _ _ ht1 => .setReg ht1) hs4

theorem coatTopo {s : State} {x : CoatSec} (h : s.Formed) : (s.coatTopo x).Formed :=
  .foldl (fun _ _ ht => .setReg ht) (.setReg (.setReg h))

theorem coatSec {s : State} {x : CoatSec} (h : s.Formed) : (s.coatSec x).Formed := by
  unfold State.coatSec
  split
  · exact .foldl (fun _ _ ht => .coatCal ht) h
  · exact .foldl (fun _ _ ht => .coatQos ht) h
  · exact .coatImage h
  · exact .foldl (fun _ _ ht => .coatSet ht) h
  · exact h

theorem applyUnder {s : State} {bs : List Byte} {l : List CoatSec} (h : s.Formed) : (s.applyUnder bs l).Formed := by
  unfold State.applyUnder
  extract_lets s1 s2 rest s3 dg s4 s5 burn
  have hs1 : s1.Formed := by
    unfold s1
    split
    · exact .coatTopo (.partition h)
    · exact h
  have hs2 : s2.Formed := .foldl (fun _ _ ht => .coatSec ht) hs1
  have hs3 : s3.Formed := .foldl (fun _ _ ht => .ite (.firstEpoch ht) (.coatSec ht)) hs2
  have hs4 : s4.Formed := .setReg (.setReg hs3)
  have hs5 : s5.Formed := .wf hs4
  exact .modTack hs5

theorem applyDomain {s : State} {d : Nat} {l : List CoatSec} (h : s.Formed) : (s.applyDomain d l).Formed := by
  unfold State.applyDomain
  extract_lets s1 mine s2
  have hs1 : s1.Formed := by
    unfold s1
    split
    · exact .partition h
    · exact h
  have hs2 : s2.Formed := .foldl (fun _ _ ht => .foldl (fun _ _ ht1 => .coatSet ht1) ht) hs1
  exact .foldl (fun _ _ ht => .coatImage ht) hs2

theorem coState {s : State} {n : Nat} (h : s.Formed) : (s.coState n).Formed := .wf h

theorem coBegin {s : State} {bs : List Byte} (h : s.Formed) : (s.coBegin bs).Formed := .setReg h

theorem coatClear {s : State} {result : Nat} (h : s.Formed) : (s.coatClear result).Formed :=
  .setReg (.modTack (.put h))

theorem countTop {s : State} {serial : Nat} {hash : BitVec 512} (h : s.Formed) : (s.countTop serial hash).Formed :=
  .modTack (.wf h)

theorem coatRefused {s : State} {code : Nat} (h : s.Formed) : (s.coatRefused code).Formed := .mbDone (.coatClear h)

theorem coatApplied {s : State} {serial : Nat} {hash : BitVec 512} {failed : Bool} (h : s.Formed) :
    (s.coatApplied serial hash failed).Formed :=
  .mbDone (.countTop (.coatClear h))

theorem drainStart {s : State} {scope id : Nat} (h : s.Formed) : (s.drainStart scope id).Formed := by
  unfold State.drainStart
  split
  · split
    · exact .writeLaneCtrl h
    · exact h
  · exact .put h
  · exact .put h
  · exact .put h
  · exact h

theorem laneEnable {s : State} {scope id : Nat} (h : s.Formed) : (s.laneEnable scope id).Formed := by
  unfold State.laneEnable
  split
  · exact .writeLaneCtrl h
  · exact h

theorem laneBack {s : State} {j : CoatJob} (h : s.Formed) : (s.laneBack j).Formed := .ite (.laneEnable h) h

theorem linkDown {s : State} {a : LinkId} (h : s.Formed) : (s.linkDown a).Formed := by
  unfold State.linkDown
  split
  · exact .ite h (.stopPort h)
  · extract_lets on
    exact .wb (.doHostLinkDisable h)

theorem linkBack {s : State} {l : LinkId} (h : s.Formed) : (s.linkBack l).Formed := by
  unfold State.linkBack
  split
  · exact h
  · split
    · exact .enablePort h
    · exact .enableHost h

theorem coatPerform {s : State} {j : CoatJob} (h : s.Formed) : (s.coatPerform j).Formed := by
  unfold State.coatPerform
  extract_lets s1 run free resume
  have hfree : ∀ x0, x0.Formed → State.Formed (free x0) := fun _ ht => .put ht
  have hrun : ∀ x0, x0.Formed → State.Formed (run x0) := fun _ ht => .foldl (fun _ _ ht1 => .coatSec ht1) ht
  have hs1 : s1.Formed := .coState h
  split
  · exact .coatApplied (hfree _ (hrun _ hs1))
  · have hresume : ∀ x0, x0.Formed → State.Formed (resume x0) := fun _ ht => .modTack (.coState ht)
    exact .ite (hresume _ (.laneEnable (hrun _ hs1))) (hresume _ (.linkBack (hfree _ (hrun _ (.linkDown hs1)))))

theorem coatWatch {s : State} (h : s.Formed) : s.coatWatch.Formed := by
  unfold State.coatWatch
  split
  · exact h
  · extract_lets gone
    exact .ite (.ite (.coatRefused (.laneBack h)) h) (.ite (.coatApplied h) h)

theorem coatStop {s : State} (h : s.Formed) : s.coatStop.Formed := .ite (.coatRefused h) h

theorem doDrainComplete {s : State} (h : s.Formed) : (doDrainComplete s).Formed := by
  unfold Machine.doDrainComplete
  split
  · exact h
  · exact .ite (.coatPerform h) h

theorem doDrainTimeout {s : State} (h : s.Formed) : (doDrainTimeout s).Formed := by
  unfold Machine.doDrainTimeout
  split
  · exact h
  · exact .ite (.coatRefused (.laneBack h)) h

theorem loadEpoch {s : State} {x : CoatSec} (h : s.Formed) : (s.loadEpoch x).Formed := by
  unfold State.loadEpoch
  extract_lets s1 s2
  have hs1 : s1.Formed := .put h
  have hs2 : s2.Formed := .wf (.wb hs1)
  exact .wf hs2

theorem doEpochSwitch {s : State} (h : s.Formed) : (doEpochSwitch s).Formed := by
  unfold Machine.doEpochSwitch
  split
  · exact h
  · extract_lets old s1 s2
    have hs1 : s1.Formed := .put h
    have hs2 : s2.Formed := .wb (.wb hs1)
    exact .ite h (.ite (.coState hs2) hs2)

theorem doEpochGraceEnd {s : State} (h : s.Formed) : (doEpochGraceEnd s).Formed := .ite h (.wf (.wb (.put h)))

theorem mbPerform {s : State} {code : Nat} {modes : List Nat} {f : MbCmd → State → State} (h : s.Formed)
    (hf : ∀ (a : MbCmd) (a_1 : State), a_1.Formed → (f a a_1).Formed) : (s.mbPerform code modes f).Formed := by
  unfold State.mbPerform
  split
  · exact h
  · exact .ite (hf _ _ h) (.mbDone h)

theorem doCoatBegin {s : State} (h : s.Formed) : (doCoatBegin s).Formed :=
  .mbPerform h (fun _ _ ht => .ite (.mbDone ht) (.ite (.mbDone ht) (.mbDone (.modFlash ht))))

theorem doCoatChunk {s : State} (h : s.Formed) : (doCoatChunk s).Formed := by
  unfold Machine.doCoatChunk
  refine .mbPerform h (fun _ _ ht => ?_)
  extract_lets off n
  exact .ite (.mbDone ht) (.ite (.mbDone ht) (.mbDone (.modFlash ht)))

theorem coatTurnedAway {s : State} (h : s.Formed) : s.coatTurnedAway.Formed := .mbDone (.wf h)

theorem doCoatApply {s : State} (h : s.Formed) : (doCoatApply s).Formed := by
  unfold Machine.doCoatApply
  split
  · exact h
  · refine .mbPerform h (fun _ _ ht => .ite (.coatTurnedAway ht) ?_)
    extract_lets bs s1 hash serial
    have hs1 : s1.Formed := .coBegin ht
    split
    · exact .coatRefused hs1
    · split
      · exact .coatRefused hs1
      · split
        · exact .coState (.coatApplied (.loadEpoch hs1))
        · extract_lets was j
          exact .ite (.coatApplied (.foldl (fun _ _ ht1 => .coatSec ht1) hs1)) (.drainStart (.modTack (.coState hs1)))

theorem doCoatInstall {s : State} (h : s.Formed) : (doCoatInstall s).Formed := by
  unfold Machine.doCoatInstall
  refine .mbPerform h (fun _ _ ht => ?_)
  extract_lets slot bs s1 coat once s2
  split
  · exact .coatTurnedAway ht
  · split
    · exact .mbDone ht
    · split
      · exact .mbDone ht
      · have hs1 : s1.Formed := .coBegin ht
        split
        · exact .coatRefused hs1
        · have hs2 : s2.Formed := .modFlash hs1
          exact .mbDone (.showTk hs2)

theorem report {s : State} {nonce : List Byte} (h : s.Formed) : (s.report nonce).2.Formed := by
  unfold State.report
  extract_lets body
  split
  · rename_i he
    split
    · rename_i he1
      extract_lets k sig
      exact .ofSnd (.random (.ofSnd (.random h) he)) he1

theorem statusBytes {s : State} (h : s.Formed) : s.statusBytes.2.Formed := by
  unfold State.statusBytes
  split
  · rename_i he
    split
    · rename_i he1
      extract_lets vm va f flags
      exact .ofSnd (.free (.ofSnd (.free h) he)) he1

theorem doGetStatus {s : State} (h : s.Formed) : (doGetStatus s).Formed := by
  unfold Machine.doGetStatus
  refine .mbPerform h (fun _ _ ht => ?_)
  extract_lets r
  have hr : r.2.Formed := .statusBytes ht
  exact .mbDone hr

theorem doGetNonce {s : State} (h : s.Formed) : (doGetNonce s).Formed := by
  unfold Machine.doGetNonce
  refine .mbPerform h (fun _ _ ht => ?_)
  split
  · rename_i he
    exact .mbDone (.modTack (.ofSnd (.random ht) he))

theorem doAttest {s : State} (h : s.Formed) : (doAttest s).Formed := by
  unfold Machine.doAttest
  refine .mbPerform h (fun _ _ ht => ?_)
  extract_lets r
  have hr : r.2.Formed := .report ht
  exact .mbDone hr

theorem doGetIdentity {s : State} (h : s.Formed) : (doGetIdentity s).Formed := .mbPerform h (fun _ _ ht => .mbDone ht)

theorem mbSet {s : State} {code lo hi : Nat} {put : Nat → State → State} (h : s.Formed)
    (hput : ∀ (a : Nat) (a_1 : State), a_1.Formed → (put a a_1).Formed) : (s.mbSet code lo hi put).Formed := by
  unfold State.mbSet
  refine .mbPerform h (fun _ _ ht => ?_)
  extract_lets v
  exact .ite (.mbDone (.showCaps (hput _ _ ht))) (.mbDone ht)

theorem doSetPaceTarget {s : State} (h : s.Formed) : (doSetPaceTarget s).Formed := .mbSet h (fun _ _ ht => .wf ht)

theorem doSetPowerLimit {s : State} (h : s.Formed) : (doSetPowerLimit s).Formed := .mbSet h (fun _ _ ht => .wf ht)

theorem doSetThrottle {s : State} (h : s.Formed) : (doSetThrottle s).Formed := .mbSet h (fun _ _ ht => .wf ht)

theorem mbEnd {s : State} {urgent : Bool} {result : Nat} (h : s.Formed) : (s.mbEnd urgent result).Formed :=
  .ite (.mbUrgentDone h) (.mbDone h)

theorem linksIdle {s : State} (h : s.Formed) : s.linksIdle.Formed := by
  unfold State.linksIdle
  extract_lets quiet
  have hquiet : ∀ x0 x1, x0.Formed → State.Formed (quiet x0 x1) := fun _ _ ht1 => .foldl
    (fun _ _ ht2 => .ite (.laneIdle ht2) ht2) ht1
  exact .foldl (fun _ _ ht => hquiet _ _ ht) (.foldl (fun _ _ ht => hquiet _ _ ht) h)

theorem doStop {s : State} (h : s.Formed) : (doStop s).Formed := by
  unfold Machine.doStop
  split
  · exact h
  · extract_lets s1 s2 s3
    have hs1 : s1.Formed := .groomsDrain h
    have hs2 : s2.Formed := .linksIdle (.modTack (.coatStop hs1))
    have hs3 : s3.Formed := .ite (.modTack (.modFlash hs2)) hs2
    exact .ite (.mbEnd h) (.ite (.modTack hs1) (.showTk (.setStep (.setMode (.modTack (.mainOff hs3))))))

theorem doRestart {s : State} (h : s.Formed) : (doRestart s).Formed := by
  unfold Machine.doRestart
  refine .mbPerform h (fun _ _ ht => ?_)
  extract_lets s1
  have hs1 : s1.Formed := .modTack ht
  exact .countPoint (.modTack (.coreReset hs1))

theorem doDomainFence {s : State} (h : s.Formed) : (doDomainFence s).Formed := by
  unfold Machine.doDomainFence
  split
  · exact h
  · extract_lets d
    exact .ite (.mbEnd h) (.ite (.mbEnd h) (.mbEnd (.fenceDomain h)))

theorem doDomainRestart {s : State} (h : s.Formed) : (doDomainRestart s).Formed := by
  unfold Machine.doDomainRestart
  refine .mbPerform h (fun _ _ ht => ?_)
  extract_lets d u
  have hu : u.Formed := .wf ht
  exact .ite (.mbDone ht) (.ite (.mbDone (.put hu)) (.mbDone ht))

theorem mbSigned {s : State} {code used : Nat} {f : MbCmd → State → State} (h : s.Formed)
    (hf : ∀ (a : MbCmd) (a_1 : State), a_1.Formed → (f a a_1).Formed) : (s.mbSigned code used f).Formed := by
  unfold State.mbSigned
  refine .mbPerform h (fun _ _ ht => ?_)
  split
  · exact hf _ _ (.modTack ht)
  · exact .mbDone ht

theorem doClearStarts {s : State} (h : s.Formed) : (doClearStarts s).Formed :=
  .mbSigned h (fun _ _ ht => .mbDone (.showTk (.modFlash ht)))

theorem doSelectSlot {s : State} (h : s.Formed) : (doSelectSlot s).Formed := by
  unfold Machine.doSelectSlot
  refine .mbSigned h (fun _ _ ht => .ite (.mbDone ht) ?_)
  extract_lets n
  exact .mbDone (.showTk (.modFlash ht))

theorem doOwnerEnrol {s : State} (h : s.Formed) : (doOwnerEnrol s).Formed := by
  unfold Machine.doOwnerEnrol
  refine .mbPerform h (fun _ _ ht => ?_)
  extract_lets block n h1 f f1
  exact .ite (.mbDone ht) (.ite (.mbDone ht) (.ite (.mbDone ht) (.mbDone (.showTk (.put ht)))))

theorem doOwnerRevoke {s : State} (h : s.Formed) : (doOwnerRevoke s).Formed := by
  unfold Machine.doOwnerRevoke
  refine .mbSigned h (fun _ _ ht => ?_)
  extract_lets n f f1
  exact .ite (.mbDone ht) (.ite (.mbDone ht) (.mbDone (.showTk (.put ht))))

theorem doNonceExpiry {s : State} (h : s.Formed) : (doNonceExpiry s).Formed := by
  unfold Machine.doNonceExpiry
  split
  · exact .ite (.modTack h) h
  · exact h

theorem doSmbStatus {addr : BitVec 7} {s : State} (h : s.Formed) : (doSmbStatus addr s).Formed :=
  .ite (.emit (.statusBytes h)) h

theorem doSmbAttest {addr : BitVec 7} {nonce : List Byte} {s : State} (h : s.Formed) :
    (doSmbAttest addr nonce s).Formed := .ite (.modTack (.report h)) h

theorem freeBlock {s : State} (h : s.Formed) : s.freeBlock.2.Formed := by
  unfold State.freeBlock
  split
  · rename_i he
    exact .ofSnd (.free h) he

theorem doSmbReport {addr : BitVec 7} {s : State} (h : s.Formed) : (doSmbReport addr s).Formed := by
  unfold Machine.doSmbReport
  split
  · exact h
  · split
    · exact .emit h
    · extract_lets r
      have hr : r.2.Formed := .freeBlock h
      exact .emit hr

theorem doSmbPart {addr : BitVec 7} {n : BitVec 8} {s : State} (h : s.Formed) : (doSmbPart addr n s).Formed :=
  .ite (.modTack h) h

theorem doSmbIdentity {addr : BitVec 7} {s : State} (h : s.Formed) : (doSmbIdentity addr s).Formed :=
  .ite h (.ite (.emit h) (.emit (.freeBlock h)))

theorem doTackNoteClear {s : State} (h : s.Formed) : (doTackNoteClear s).Formed := by
  unfold Machine.doTackNoteClear
  split
  · exact .ite (.modTack (.wb h)) h
  · exact h

end State.Formed

end Sys2Proof.Machine
end

section
/-! PROOFS. EveryStepKeepsTheFormOfMemory: the later steps of a start, restarts and the passing of time. -/

namespace Sys2Proof.Machine

-- The proofs are elaborated one after another: in parallel their threads' stacks need more memory than a compile may have.
set_option Elab.async false

namespace State.Formed

theorem showResult {s : State} {n code : Nat} (h : s.Formed) : (s.showResult n code).Formed := .ite (.wf h) (.wf h)

theorem slotRefused {s : State} {n code : Nat} (h : s.Formed) : (s.slotRefused n code).Formed := by
  unfold State.slotRefused
  extract_lets s1 k
  have hs1 : s1.Formed := .wf (.coBegin (.showResult h))
  exact .ite (.modTack hs1) (.failStart hs1)

theorem startCoat {s : State} {ok : Bool} (h : s.Formed) : (s.startCoat ok).Formed := by
  unfold State.startCoat
  extract_lets s1
  have hs1 : s1.Formed := ⟨rfl, h.buf⟩
  split
  · exact .failStart hs1
  · split
    · exact .slotRefused hs1
    · extract_lets s2
      have hs2 : s2.Formed := .modTack (.coBegin (.showResult hs1))
      exact .ite (.failStart hs2) (.modTack (.setStep (.showCaps (.applyUnder hs2))))
    · exact .failStart hs1

theorem startLinks {s : State} (h : s.Formed) : s.startLinks.Formed :=
  .foldl (fun _ _ ht => .linkBack ht) (.foldl (fun _ _ ht => .linkBack ht) (.chooseParent h))

theorem judgeAll {s : State} (h : s.Formed) : s.judgeAll.Formed := .foldl (fun _ _ ht => .ite (.judge ht) ht) h

theorem startDone {s : State} (h : s.Formed) : s.startDone.Formed := by
  unfold State.startDone
  extract_lets n sec burnt s1 u s2 s3 s4 s5
  have hs1 : s1.Formed := .modFlash h
  have hs2 : s2.Formed := .put hs1
  have hs3 : s3.Formed := .setStep (.setMode hs2)
  have hs4 : s4.Formed := .wf (.wf hs3)
  have hs5 : s5.Formed := .showTk (.modTack hs4)
  exact .ite (.judgeAll hs5) hs5

theorem doStartStepComplete {how : StepEnd} {s : State} (h : s.Formed) : (doStartStepComplete how s).Formed := by
  unfold Machine.doStartStepComplete
  extract_lets next
  split
  · exact h
  · split
    · exact .failStart h
    · split
      · exact .failStart h
      · split
        · split
          · have hnext : ∀ x0 x1, x1.Formed → State.Formed (next x0 x1) := fun _ _ ht => .modTack (.setStep ht)
            exact hnext _ _ h
          · exact .failStart h
          · exact h
        · split
          · exact .startCoat h
          · exact .failStart h
          · exact .startCoat h
        · have hnext : ∀ x0 x1, x1.Formed → State.Formed (next x0 x1) := fun _ _ ht => .modTack (.setStep ht)
          exact .ite (.startLinks (hnext _ _ h)) h
        · exact .ite (.startDone h) h
        · exact h

theorem doStartStepTimeout {west : Bool} {s : State} (h : s.Formed) : (doStartStepTimeout west s).Formed :=
  .ite h (.ite (.failStart h) (.ite (.startDone h) (.ite (.failStart h) h)))

theorem restartPm {s : State} {d : Nat} {run : Bool} (h : s.Formed) : (s.restartPm d run).Formed := .put h

theorem restartReset {s : State} {d : Nat} (h : s.Formed) : (s.restartReset d).Formed :=
  .restartPm ⟨h.hbm, wf_filter _ _ h.buf⟩

theorem clearStack {s : State} {d : Nat} (h : s.Formed) : (s.clearStack d).Formed := ⟨wf_filter _ _ h.hbm, h.buf⟩

theorem reportRestart {s : State} {d : Nat} (h : s.Formed) : (s.reportRestart d).Formed :=
  .foldl (fun _ _ ht => .ite (.postMgmt ht) ht) h

theorem doDomainRestartStep {d : Dom} {ok : Bool} {s : State} (h : s.Formed) :
    (doDomainRestartStep d ok s).Formed := by
  unfold Machine.doDomainRestartStep
  extract_lets go r s1
  split
  · exact h
  · split
    · exact h
    · split
      · exact .domainFailure h
      · have hgo : ∀ x0 x1, x1.Formed → State.Formed (go x0 x1) := fun _ _ ht => .put ht
        split
        · exact hgo _ _ (.restartReset h)
        · exact hgo _ _ h
        · exact hgo _ _ (.clearStack h)
        · split
          · have hgo : ∀ x0 x1, x1.Formed → State.Formed (go x0 x1) := fun _ _ ht => .put ht
            exact hgo _ _ (.applyDomain h)
          · exact .domainFailure h
        · have hs1 : s1.Formed := .bump (.wf h)
          exact .reportRestart (.restartPm (.put hs1))

theorem elapse {dt : Nat} {s : State} (h : s.Formed) : (State.elapse dt s).Formed := by
  unfold State.elapse
  extract_lets s1 n
  have hs1 : s1.Formed := .ite (.put h) h
  exact .ite (.pmPassTime (.put hs1)) hs1

theorem fin {s : State} (h : s.Formed) : s.fin.Formed := .settle (.coatWatch (.settle h))

theorem idle {s : State} (h : s.Formed) : s.idle.Formed := .fin (.groomsDrain (.coresIdle (.elapse h)))

theorem ordered {s : State} {m : Master} {a : Nat} {f : State → State} (h : s.Formed)
    (hf : ∀ (a : State), a.Formed → (f a).Formed) : (s.ordered m a f).Formed :=
  .ite (hf _ h) (.fin (.inCoreOrder h hf))

end State.Formed

end Sys2Proof.Machine
end

section
/-! PROOFS. EveryStepKeepsTheFormOfMemory: what every command leaves, and the settlement. -/

namespace Sys2Proof.Machine

-- The proofs are elaborated one after another: in parallel their threads' stacks need more memory than a compile may have.
set_option Elab.async false

/-- The next state that an outcome gives, where it gives one, has its memories in their form. -/
def OutcomeFormed (o : Host.Outcome State Fault Refusal) : Prop := ∀ t, o = .next t → t.Formed

namespace OutcomeFormed

variable {s : State} {b : Block} {f : State → State}

theorem next (h : s.Formed) : OutcomeFormed (.next s) := by
  intro t ht
  cases ht
  exact h

/-! The shapes of the commands' meanings: an effect that keeps the form, performed where its unit is powered. -/

theorem quiet (h : s.Formed) (hf : ∀ t, t.Formed → (f t).Formed) : OutcomeFormed (s.quiet b f) :=
  next (.ite (hf _ h) h)

theorem act (h : s.Formed) (hf : ∀ t, t.Formed → (f t).Formed) : OutcomeFormed (s.act b f) :=
  next (.ite (.fin (hf _ h)) h)

theorem tackAct (h : s.Formed) (hf : ∀ t, t.Formed → (f t).Formed) : OutcomeFormed (s.tackAct f) :=
  next (.fin (hf _ h))

theorem quietAfter {dt : Nat} (h : s.Formed) (hf : ∀ t, t.Formed → (f t).Formed) : OutcomeFormed (s.quietAfter b dt f) :=
  quiet (.elapse h) hf

theorem actAfter {dt : Nat} (h : s.Formed) (hf : ∀ t, t.Formed → (f t).Formed) : OutcomeFormed (s.actAfter b dt f) :=
  act (.elapse h) hf

theorem tackAfter {dt : Nat} (h : s.Formed) (hf : ∀ t, t.Formed → (f t).Formed) : OutcomeFormed (s.tackAfter dt f) :=
  tackAct (.elapse h) hf

theorem accessAct {m : Master} (h : s.Formed) (hf : ∀ t, t.Formed → (f t).Formed) : OutcomeFormed (s.accessAct m f) :=
  next (.ite (.fin (hf _ h)) h)

theorem lockAct {m : Master} {k : Nat} {d : Dom} {n : BitVec 16} (h : s.Formed) (hf : ∀ t, t.Formed → (f t).Formed) :
    OutcomeFormed (s.lockAct m k d n f) :=
  next (.ite (.ordered h hf) h)

/-- Every command keeps the form: its effect does, and so does what the effect leaves. -/
theorem exec {s : State} (i : Instr) (h : s.Formed) : OutcomeFormed (exec i s) := by
  cases i with
  | vinAuxRise => exact .tackAct h fun _ ht => .doVinAuxRise ht
  | resetLRise => exact .tackAct h fun _ ht => .doResetLRise ht
  | coldReset => exact .tackAct h fun _ ht => .doColdReset ht
  | tackRoomReady => exact .tackAfter h fun _ ht => .doTackRoomReady ht
  | mainPgRise => exact .tackAct h fun _ ht => .doMainPgRise ht
  | mainPgTimeout => exact .tackAfter h fun _ ht => .doMainPgTimeout ht
  | regulatorsUp => exact .tackAct h fun _ ht => .doRegulatorsUp ht
  | startStepComplete => exact .tackAct h fun _ ht => .doStartStepComplete ht
  | startStepTimeout => exact .tackAfter h fun _ ht => .doStartStepTimeout ht
  | startRetry => exact .tackAfter h fun _ ht => .doStartRetry ht
  | mainPowerLost => exact .tackAct h fun _ ht => .doMainPowerLost ht
  | vinAuxLost => exact .tackAct h fun _ ht => .doVinAuxLost ht
  | thermalTrip => exact .tackAct h fun _ ht => .doThermalTrip ht
  | graveFault => exact .tackAct h fun _ ht => .doGraveFault ht
  | watchdogExpiry => exact .tackAct h fun _ ht => .doWatchdogExpiry ht
  | paceInterval => exact .actAfter h fun _ ht => .doPaceInterval ht
  | voltageLoopTick => exact .quietAfter h fun _ ht => .doVoltageLoopTick ht
  | powerCapTick => exact .quietAfter h fun _ ht => .doPowerCapTick ht
  | laneTrainStart => exact .act h fun _ ht => .doLaneTrainStart ht
  | trainingFrame => exact .act h fun _ ht => .doTrainingFrame ht
  | laneTrainStep => exact .act h fun _ ht => .doLaneTrainStep ht
  | trainAttemptTimeout => exact .actAfter h fun _ ht => .doTrainAttemptTimeout ht
  | hostLaneTrainStart => exact .act h fun _ ht => .doHostLaneTrainStart ht
  | hostTrainingSet => exact .act h fun _ ht => .doHostTrainingSet ht
  | hostLaneTrainStep => exact .act h fun _ ht => .doHostLaneTrainStep ht
  | electricalIdleEntry => exact .act h fun _ ht => .doElectricalIdleEntry ht
  | fastExit => exact .act h fun _ ht => .doFastExit ht
  | hostIdleEntry => exact .act h fun _ ht => .doHostIdleEntry ht
  | hostFastExit => exact .act h fun _ ht => .doHostFastExit ht
  | codewordReceived => exact .act h fun _ ht => .doCodewordReceived ht
  | injectBurst => exact .quietAfter h fun _ ht => .doInjectBurst ht
  | injectNow => exact .quiet h fun _ ht => .doInjectNow ht
  | laneRetrain => exact .act h fun _ ht => .doLaneRetrain ht
  | marginScanStart => exact .quiet h fun _ ht => .doMarginScanStart ht
  | marginScanEnd => exact .quietAfter h fun _ ht => .doMarginScanEnd ht
  | laneEyeRefresh => exact .quietAfter h fun _ ht => .doLaneEyeRefresh ht
  | laneErrcntRead => exact .quiet h fun _ ht => .doLaneErrcntRead ht
  | frameReceived => exact .act h fun _ ht => .doFrameReceived ht
  | nakRepeatTimer => exact .actAfter h fun _ ht => .doNakRepeatTimer ht
  | replayTimeout => exact .actAfter h fun _ ht => .doReplayTimeout ht
  | egressFrameStart => exact .act h fun _ ht => .doEgressFrameStart ht
  | linkUpStart => exact .actAfter h fun _ ht => .doLinkUpStart ht
  | helloReceived => exact .act h fun _ ht => .doHelloReceived ht
  | helloTimeout => exact .actAfter h fun _ ht => .doHelloTimeout ht
  | quarantineHello => exact .actAfter h fun _ ht => .doQuarantineHello ht
  | hostHelloPeriodic => exact .actAfter h fun _ ht => .doHostHelloPeriodic ht
  | linkRetrain => exact .act h fun _ ht => .doLinkRetrain ht
  | retrainLaneDrop => exact .actAfter h fun _ ht => .doRetrainLaneDrop ht
  | retrainRepeat => exact .actAfter h fun _ ht => .doRetrainRepeat ht
  | retrainWindowExpiry => exact .actAfter h fun _ ht => .doRetrainWindowExpiry ht
  | forceFence => exact .act h fun _ ht => .doForceFence ht
  | llRetrain => exact .act h fun _ ht => .doLlRetrain ht
  | llRehello => exact .act h fun _ ht => .doLlRehello ht
  | portDisable => exact .act h fun _ ht => .doPortDisable ht
  | idleDelayExpiry => exact .actAfter h fun _ ht => .doIdleDelayExpiry ht
  | hostLinkPacket => exact .act h fun _ ht => .doHostLinkPacket ht
  | hostAckTimer => exact .actAfter h fun _ ht => .doHostAckTimer ht
  | hostCreditTimer => exact .actAfter h fun _ ht => .doHostCreditTimer ht
  | hostLinkDisable => exact .act h fun _ ht => .doHostLinkDisable ht
  | routeHeader => exact .act h fun _ ht => .doRouteHeader ht
  | headerReevaluate => exact .act h fun _ ht => .doHeaderReevaluate ht
  | beaconSend => exact .quietAfter h fun _ ht => .doBeaconSend ht
  | beaconReceive => exact .quiet h fun _ ht => .doBeaconReceive ht
  | beaconExpiry => exact .quietAfter h fun _ ht => .doBeaconExpiry ht
  | rtExcWrite => exact .quiet h fun _ ht => .regWrite ht
  | dbell => exact .act h fun _ ht => .doDbell ht
  | cwr => exact .act h fun _ ht => .doCwr ht
  | crd => exact .act h fun _ ht => .doCrd ht
  | cpld => exact .act h fun _ ht => .doCpld ht
  | errrptWriteFailed => exact .act h fun _ ht => .doErrrptWriteFailed ht
  | errrptFunctionReset => exact .act h fun _ ht => .doErrrptFunctionReset ht
  | readTimeout => exact .actAfter h fun _ ht => .doReadTimeout ht
  | readTagRelease => exact .actAfter h fun _ ht => .doReadTagRelease ht
  | writeHistoryExpiry => exact .actAfter h fun _ ht => .doWriteHistoryExpiry ht
  | ringFetch => exact .act h fun _ ht => .doRingFetch ht
  | arbitrationRound => exact .act h fun _ ht => .doArbitrationRound ht
  | nop => exact .act h fun _ ht => .doNop ht
  | put => exact .act h fun _ ht => .doPut ht
  | putInline => exact .act h fun _ ht => .doPutInline ht
  | get => exact .act h fun _ ht => .doGet ht
  | send => exact .act h fun _ ht => .doSend ht
  | sendInline => exact .act h fun _ ht => .doSendInline ht
  | atomic => exact .act h fun _ ht => .doAtomic ht
  | recvPost => exact .act h fun _ ht => .doRecvPost ht
  | probe => exact .act h fun _ ht => .doProbe ht
  | coll => exact .act h fun _ ht => .doColl ht
  | ctSet => exact .act h fun _ ht => .doCtSet ht
  | ctInc => exact .act h fun _ ht => .doCtInc ht
  | trig => exact .act h fun _ ht => .doTrig ht
  | eqArm => exact .act h fun _ ht => .doEqArm ht
  | invalidate => exact .act h fun _ ht => .doInvalidate ht
  | invalidateAck => exact .act h fun _ ht => .doInvalidateAck ht
  | ctxCreate => exact .act h fun _ ht => .doCtxCreate ht
  | ctxDestroy => exact .act h fun _ ht => .doCtxDestroy ht
  | cqCreate => exact .act h fun _ ht => .doCqCreate ht
  | cqDestroy => exact .act h fun _ ht => .doCqDestroy ht
  | eqCreate => exact .act h fun _ ht => .doEqCreate ht
  | eqDestroy => exact .act h fun _ ht => .doEqDestroy ht
  | cqStop => exact .act h fun _ ht => .doCqStop ht
  | cqStart => exact .act h fun _ ht => .doCqStart ht
  | cqResume => exact .act h fun _ ht => .doCqResume ht
  | cqAbort => exact .act h fun _ ht => .doCqAbort ht
  | cqFlush => exact .act h fun _ ht => .doCqFlush ht
  | cqAdminWrite => exact .act h fun _ ht => .regWrite ht
  | walkRead => exact .act h fun _ ht => .doWalkRead ht
  | mtCancel => exact .act h fun _ ht => .doMtCancel ht
  | packetReceive => exact .act h fun _ ht => .doPacketReceive ht
  | packetInject => exact .act h fun _ ht => .doPacketInject ht
  | ackReceive => exact .act h fun _ ht => .doAckReceive ht
  | nackReceive => exact .act h fun _ ht => .doNackReceive ht
  | getRspReceive => exact .act h fun _ ht => .doGetRspReceive ht
  | atomicRspReceive => exact .act h fun _ ht => .doAtomicRspReceive ht
  | ackDelayExpiry => exact .actAfter h fun _ ht => .doAckDelayExpiry ht
  | rtoExpiry => exact .actAfter h fun _ ht => .doRtoExpiry ht
  | flowIdleExpiry => exact .actAfter h fun _ ht => .doFlowIdleExpiry ht
  | collUpReceive => exact .act h fun _ ht => .doCollUpReceive ht
  | collDownReceive => exact .act h fun _ ht => .doCollDownReceive ht
  | collTimeout => exact .actAfter h fun _ ht => .doCollTimeout ht
  | clInstall => exact .act h fun _ ht => .doClInstall ht
  | clRemove => exact .act h fun _ ht => .doClRemove ht
  | clAbort => exact .act h fun _ ht => .doClAbort ht
  | clUnfence => exact .act h fun _ ht => .doClUnfence ht
  | engineFenced => exact .act h fun _ ht => .doEngineFenced ht
  | runDispatch => exact .act h fun _ ht => .doRunDispatch ht
  | alu => exact .quiet h fun _ ht => .doAlu ht
  | addi => exact .quiet h fun _ ht => .doAddi ht
  | andi => exact .quiet h fun _ ht => .doAndi ht
  | ori => exact .quiet h fun _ ht => .doOri ht
  | xori => exact .quiet h fun _ ht => .doXori ht
  | slti => exact .quiet h fun _ ht => .doSlti ht
  | sltiu => exact .quiet h fun _ ht => .doSltiu ht
  | shi => exact .quiet h fun _ ht => .doShi ht
  | lui => exact .quiet h fun _ ht => .doLui ht
  | shori => exact .quiet h fun _ ht => .doShori ht
  | ld => exact .act h fun _ ht => .doLd ht
  | st => exact .act h fun _ ht => .doSt ht
  | ldv => exact .act h fun _ ht => .doLdv ht
  | stv => exact .act h fun _ ht => .doStv ht
  | amol => exact .act h fun _ ht => .doAmol ht
  | hamo => exact .act h fun _ ht => .doHamo ht
  | hlock => exact .act h fun _ ht => .doHlock ht
  | hunlock => exact .act h fun _ ht => .doHunlock ht
  | beq => exact .quiet h fun _ ht => .doBeq ht
  | bne => exact .quiet h fun _ ht => .doBne ht
  | blt => exact .quiet h fun _ ht => .doBlt ht
  | bge => exact .quiet h fun _ ht => .doBge ht
  | bltu => exact .quiet h fun _ ht => .doBltu ht
  | bgeu => exact .quiet h fun _ ht => .doBgeu ht
  | jal => exact .quiet h fun _ ht => .doJal ht
  | jalr => exact .quiet h fun _ ht => .doJalr ht
  | issue => exact .act h fun _ ht => .doIssue ht
  | wfe => exact .act h fun _ ht => .doWfe ht
  | signal => exact .act h fun _ ht => .doSignal ht
  | fence => exact .act h fun _ ht => .doFence ht
  | csrr => exact .quiet h fun _ ht => .doCsrr ht
  | csrw => exact .quiet h fun _ ht => .doCsrw ht
  | halt => exact .act h fun _ ht => .doHalt ht
  | runEnd => exact .act h fun _ ht => .doRunEnd ht
  | runTimeout => exact .actAfter h fun _ ht => .doRunTimeout ht
  | groomTimerEvent => exact .actAfter h fun _ ht => .doGroomTimerEvent ht
  | groomReset => exact .act h fun _ ht => .doGroomReset ht
  | grResume => exact .act h fun _ ht => .doGrResume ht
  | groomFenced => exact .act h fun _ ht => .doGroomFenced ht
  | directoryRequest => exact .quiet h fun _ ht => .doDirectoryRequest ht
  | uncachedRead => exact .quiet h fun _ ht => .doUncachedRead ht
  | uncachedWrite => exact .quiet h fun _ ht => .doUncachedWrite ht
  | writeHint => exact .quiet h fun _ ht => .doWriteHint ht
  | contextStoreFailure => exact .act h fun _ ht => .doContextStoreFailure ht
  | coherenceTimeout => exact .actAfter h fun _ ht => .doCoherenceTimeout ht
  | stewardWatchdog => exact .actAfter h fun _ ht => .doStewardWatchdog ht
  | domainRestartStep => exact .act h fun _ ht => .doDomainRestartStep ht
  | hitchAtomic => exact .quiet h fun _ ht => .ordered ht fun _ hu => .doHitchAtomic hu
  | hkAcquire => exact .lockAct h fun _ ht => .doHkAcquire ht
  | hkTry => exact .lockAct h fun _ ht => .doHkTry ht
  | hkRelease => exact .lockAct h fun _ ht => .doHkRelease ht
  | hkCancel => exact .lockAct h fun _ ht => .doHkCancel ht
  | timeSyncSend => exact .quietAfter h fun _ ht => .doTimeSyncSend ht
  | timeSyncReceive => exact .quiet h fun _ ht => .doTimeSyncReceive ht
  | timeCandidateExpiry => exact .quietAfter h fun _ ht => .doTimeCandidateExpiry ht
  | ppsInEdge => exact .quietAfter h fun _ ht => .doPpsInEdge ht
  | ppsMissing => exact .quietAfter h fun _ ht => .doPpsMissing ht
  | ppsOutPulse => exact .quietAfter h fun _ ht => .doPpsOutPulse ht
  | timeExclusionChange => exact .quietAfter h fun _ ht => .doTimeExclusionChange ht
  | ntSeedArm => exact .quiet h fun _ ht => .regWrite ht
  | shaperRefill => exact .quietAfter h fun _ ht => .doShaperRefill ht
  | gateEntryAdvance => exact .quietAfter h fun _ ht => .doGateEntryAdvance ht
  | gateSwitchRequest => exact .quiet h fun _ ht => .regWrite ht
  | gateSwitch => exact .quietAfter h fun _ ht => .doGateSwitch ht
  | drainComplete => exact .act h fun _ ht => .doDrainComplete ht
  | drainTimeout => exact .actAfter h fun _ ht => .doDrainTimeout ht
  | epochSwitch => exact .actAfter h fun _ ht => .doEpochSwitch ht
  | epochGraceEnd => exact .actAfter h fun _ ht => .doEpochGraceEnd ht
  | mbClaimRead => exact .accessAct h fun _ ht => .doMbClaimRead ht
  | mbClaimRelease => exact .accessAct h fun _ ht => .doMbClaimRelease ht
  | mbClaimLapse => exact .quietAfter h fun _ ht => .doMbClaimLapse ht
  | nonceExpiry => exact .quietAfter h fun _ ht => .doNonceExpiry ht
  | getStatus => exact .quiet h fun _ ht => .doGetStatus ht
  | getNonce => exact .quiet h fun _ ht => .doGetNonce ht
  | attest => exact .quiet h fun _ ht => .doAttest ht
  | getIdentity => exact .quiet h fun _ ht => .doGetIdentity ht
  | coatBegin => exact .quiet h fun _ ht => .doCoatBegin ht
  | coatChunk => exact .quiet h fun _ ht => .doCoatChunk ht
  | coatApply => exact .act h fun _ ht => .doCoatApply ht
  | coatInstall => exact .act h fun _ ht => .doCoatInstall ht
  | stop => exact .act h fun _ ht => .doStop ht
  | restart => exact .act h fun _ ht => .doRestart ht
  | domainFence => exact .act h fun _ ht => .doDomainFence ht
  | domainRestart => exact .act h fun _ ht => .doDomainRestart ht
  | setPaceTarget => exact .quiet h fun _ ht => .doSetPaceTarget ht
  | setPowerLimit => exact .quiet h fun _ ht => .doSetPowerLimit ht
  | setThrottle => exact .quiet h fun _ ht => .doSetThrottle ht
  | clearStarts => exact .quiet h fun _ ht => .doClearStarts ht
  | selectSlot => exact .quiet h fun _ ht => .doSelectSlot ht
  | ownerEnrol => exact .quiet h fun _ ht => .doOwnerEnrol ht
  | ownerRevoke => exact .quiet h fun _ ht => .doOwnerRevoke ht
  | smbStatus => exact .quiet h fun _ ht => .doSmbStatus ht
  | smbAttest => exact .quiet h fun _ ht => .doSmbAttest ht
  | smbReport => exact .quiet h fun _ ht => .doSmbReport ht
  | smbPart => exact .quiet h fun _ ht => .doSmbPart ht
  | smbIdentity => exact .quiet h fun _ ht => .doSmbIdentity ht
  | tackNoteClear => exact .quietAfter h fun _ ht => .doTackNoteClear ht
  | pmSnapshot => exact .quietAfter h fun _ ht => .doPmSnapshot ht
  | rcRead => exact .accessAct h fun _ ht => .doRcRead ht
  | digestHiRead => exact .accessAct h fun _ ht => .doDigestHiRead ht
  | registerWrite => exact .accessAct h fun _ ht => .doRegisterWrite ht
  | targetDelayExpiry => exact .actAfter h fun _ ht => .doTargetDelayExpiry ht
  | fastExitBurstReceived => exact .act h fun _ ht => .doFastExitBurstReceived ht
  | hostExitBurstReceived => exact .act h fun _ ht => .doHostExitBurstReceived ht
  | hostTlpStart => exact .act h fun _ ht => .doHostTlpStart ht
  | checkerSynchronised => exact .quiet h fun _ ht => .doCheckerSynchronised ht

end OutcomeFormed

theorem OutcomeFormed.step {s : State} (h : s.Formed) : OutcomeFormed (step s) := by
  unfold Machine.step
  split
  · exact .next (.idle h)
  · exact .exec _ (.put h)

/-- Settles O5: each operation of the model that gives a state keeps the form, from the operations that write a memory
(a write of bytes, and the part of a memory that a reset or a loss leaves) up to the commands. -/
theorem everyStepKeepsTheFormOfMemory : Obligations.EveryStepKeepsTheFormOfMemory := by
  unfold Obligations.EveryStepKeepsTheFormOfMemory
  intro s t hs ht
  exact (State.formed_iff t).1 (OutcomeFormed.step ((State.formed_iff s).2 hs) t ht)

end Sys2Proof.Machine
end
